-- ==== Sys2Proof/Word.lean ====
section
/-! DEFINITION. The words of the module: bytes, register words, Q1.17 samples, tags and spindle registers. -/

namespace Sys2Proof

/-- One byte of a frame, a buffer or a memory. -/
abbrev Byte := BitVec 8
/-- A byte string in the order it is sent. -/
abbrev Bytes := List Byte
/-- A BAR0 register word (R4). -/
abbrev Word32 := BitVec 32
/-- A Q1.17 sample (R49). -/
abbrev Sample := BitVec 18
/-- The 6-bit tag of a slot (R49). -/
abbrev Tag := BitVec 6
/-- A spindle register (R127). -/
abbrev Word36 := BitVec 36

end Sys2Proof
end

