-- ==== Sys2Proof/Syntax.lean ====
section
/-! DEFINITION. The commands of the block: one constructor per row of the spec's table of operations
and events, with the operands the row's rule names. -/

namespace Sys2Proof

/-- The unit class of a self-diagnosed fault, as FAULT_RECORD codes it (R47). -/
inductive UnitClass where
  | wheel | spindle | other
  deriving DecidableEq, Repr

/-- The widths at which the host link trains (R318). -/
inductive LinkWidth where
  | x1 | x2 | x4
  deriving DecidableEq, Repr

/-- The level of a lane: down, training, or trained (R102, R235, R298). -/
inductive LinkLevel where
  | down | training | up
  deriving DecidableEq, Repr

/-- The two time domains of the board ring (R241). -/
inductive Domain where
  | a | b
  deriving DecidableEq, Repr

/-- The classes of PLY_TOK_IN (R275). -/
inductive TokClass where
  | silent | notActive | active
  deriving DecidableEq, Repr

/-- The header of a ply frame as its receiver sees it (R271): whether the seal checks, whether the type byte is one of the
type table (a frame of another type has no command of its own, and any row's with this field false stands for it), the
sender's flags, its alive counter and the turn the frame concerns. -/
structure PlyHdr where
  sealOk : Bool
  known : Bool
  active : Bool
  tracking : Bool
  alive : BitVec 16
  turn : BitVec 64
  deriving DecidableEq, Repr

/-- The payload of a DIGEST frame (R280). -/
structure Digest where
  outSeal : BitVec 32
  auxSeal : BitVec 32
  taskSlips : BitVec 16
  wheelSlips : BitVec 8
  braked : Bool
  items : BitVec 32
  deriving DecidableEq, Repr

/-- One host write that the active mirrors to its standby (R68, R153, R312, R378): a host signal write, a
LOOP_WRITE, a change of the soft brake sources, a MILL_SEND message or a piece of a program load. -/
inductive HostWrite where
  | slot (slot : BitVec 18) (value : Sample)
  | loop (loop : Fin 4096) (target manual : Option Sample) (mode : Option (BitVec 2))
  | soft (bits : BitVec 4)
  | mill (ch : Fin 2) (buf : Fin 64) (words : List Word36)
  | prog (slot : Fin 16) (offset : BitVec 32) (piece : Bytes) (last : Bool)
  deriving DecidableEq, Repr

/-- What an order carries beside its code and boundary (R512). -/
inductive OrderContent where
  /-- Code 1: entries of the change list, offset and STG bits (R352); `final` marks the last frame. -/
  | commit (entries : List (Nat × Nat)) (final : Bool)
  /-- Code 2: slots with a forced value, or none for an unforce (R64). -/
  | force (entries : List (BitVec 18 × Option Sample))
  /-- Code 3: the key position (R122). -/
  | key (pos : BitVec 2)
  /-- Code 4: a switch to the other domain, or a capture of O (R258). -/
  | timeSwitch (capture : Bool)
  | captured (carried : Int)
  /-- Code 5: overrun stop, naming the overrunning task (R116). -/
  | overrunStop (task : Fin 16) (trap : Bool)
  /-- Code 6: planned handover; boundary 0 from a standby is a request (R293). -/
  | handover
  /-- Code 7: revert (R294). -/
  | revert
  /-- Code 8: capture boundary of a join (R295). -/
  | capture
  deriving DecidableEq, Repr

/-- An ORDER frame (R272, R512). -/
structure OrderMsg where
  seq : BitVec 16
  boundary : BitVec 64
  digest : BitVec 32
  content : OrderContent
  deriving DecidableEq, Repr

/-- What phase Configuration of a join carries (R295), whose bytes the spec does not lay out: where the seal of the
committed image differs, the registers of it that differ from the never-committed values (offset and STG bits, R352) and
the program copies; then the kept copies, forces, ring epoch records, and the switches of an on-line change still to come
with the program they carry from. [log 56 DESIGN CHOICE] -/
structure JoinConfig where
  image : Option (List (Nat × Nat) × List (Fin 16 × Bytes))
  kept : List (Fin 16 × Bytes × Bool)
  onlineSlots : List (Fin 16)
  forces : List (BitVec 18 × Sample)
  ringEpochs : List (Nat × Nat)
  switching : List (Fin 16 × BitVec 64 × Option Bytes)
  deriving DecidableEq, Repr

/-- What phase Time carries (R28, R122, R254, R295): the key position, one ordered and not yet effective, and the boundary
at which STOP was last left; the epoch; the origin and the working time in units of 2^−32 ns, k_origin, the turn and the
carried offset. [log 56 DESIGN CHOICE] -/
structure JoinTime where
  key : BitVec 2
  keyNext : Option (BitVec 64 × BitVec 2)
  leftStop : Option (BitVec 64)
  epoch : BitVec 28
  origin : Nat
  kOrigin : BitVec 64
  turn : BitVec 64
  work : Nat
  followB : Bool
  carried : Int
  deriving DecidableEq, Repr

/-- A task's scheduling, trap and halt state as captured (R296). -/
structure JoinTask where
  task : Fin 16
  started : Bool
  trapped : Bool
  overran : Bool
  first : Bool
  prevSlip : Bool
  slipRun : Nat
  lastDue : Option Nat
  ran : Bool
  seen : List (Nat × Nat)
  deriving DecidableEq, Repr

/-- What a loop holds that its words of R192 do not show, as captured: requests not yet taken (start, target, manual output,
mode), boundaries of new gains, the nodes and the entry that its latest deadline shows. [log 56 DESIGN CHOICE] -/
structure JoinLoop where
  loop : Fin 4096
  reqs : List (Nat × Option Int × Option Int × Option Nat)
  gains : List Nat
  shown : Option (List Int × Sample × Tag)
  deriving DecidableEq, Repr

/-- The captured state beside task data and loop state, which cross in STATE frames (R296): slots with value, tag and
age count, the tasks, and the run state. [log 56 DESIGN CHOICE] -/
structure JoinCapture where
  slots : List (BitVec 18 × Sample × Tag × Nat)
  forces : List (BitVec 18 × Sample)
  tasks : List JoinTask
  loops : List JoinLoop
  /-- Snapshots of receive buffers: channel × 64 + buffer, their number, and the newest (R133). -/
  snaps : List (Nat × Nat × Option (List Word36))
  runState : BitVec 2
  overrunTask : Option (Fin 16)
  deriving DecidableEq, Repr

/-- The payload of a ply JOIN frame (R272): identity, straps, behaviour level, and the seal of the committed image; the
compatibility level of each part, 0 to 11, as the sender's manifest gives it. With it stands what the active hands over
in the phases of R295 that no frame type carries. -/
structure PlyJoin where
  ident : BitVec 64
  straps : Byte
  level : Byte
  joining : Bool
  compat : List Byte
  imageSeal : BitVec 32
  config : Option JoinConfig
  time : Option JoinTime
  captured : Option JoinCapture
  deriving DecidableEq, Repr

/-- A command descriptor (R326), without its opcode's meaning. `ops` are bytes 24 to 63. -/
structure Desc where
  op : BitVec 16
  flags : Byte
  byte3 : Byte
  tag : BitVec 32
  buf : BitVec 64
  len : BitVec 32
  rsv : BitVec 32
  ops : Bytes
  deriving DecidableEq, Repr

/-- A fetched command: its ring, its descriptor, the bytes of its buffer and whether every host-memory
access for it succeeded (R323). -/
structure HostCmd where
  ring : Fin 4
  desc : Desc
  data : Bytes
  dmaOk : Bool
  deriving DecidableEq, Repr

/-- The host rings that have an enable bit of their own (R324). -/
inductive HostRing where
  | command (r : Fin 4) | event | trace (i : Fin 16)
  deriving DecidableEq, Repr

/-- A CAN frame as a channel receives it (R367, R372). -/
structure CanFrame where
  id : BitVec 29
  ide : Bool
  fdf : Bool
  brs : Bool
  rtr : Bool
  data : Bytes
  deriving DecidableEq, Repr

/-- Where a transmitted mill-bus frame came from: a buffer, the heartbeat (R287) or the reference
message (R381). -/
inductive MillSource where
  | buffer (b : Fin 64) | heartbeat | reference
  deriving DecidableEq, Repr

/-- A Hyica request (R445). `good` says that magic, version, length and seal check. -/
structure HyicaReq where
  good : Bool
  session : BitVec 32
  seq : BitVec 32
  ident : BitVec 64
  payload : Bytes
  deriving DecidableEq, Repr

/-- The commands. -/
inductive Instr where
  /-- TURN_ENGINE_START (R28). A lone module starts its turn engine at the first whole second of working time and sets the origin with k_origin = 0. -/
  | turnEngineStart
  /-- TURN_BOUNDARY (R27). Boundary k is reached: the turn number increments, and TURN_MARK, COUNT or ECHO_REQ blocks go out on every Skein port. -/
  | turnBoundary
  /-- INPUT_CUTOFF (R33). Phase c of turn k is reached: the input and wheel views are fixed for the sample. -/
  | inputCutoff
  /-- LOOP_EVALUATION_DONE (R180). A wheel completes one loop evaluation and commits its output and state, then starts the next loop due. -/
  | loopEvaluationDone (loop : Fin 4096) (residueBad : Bool)
  /-- TRACE_CAPTURE_RECORD (R340). A waiting capture record is written to its trace ring once there is room. -/
  | traceCaptureRecord (g : Fin 8)
  /-- RELEASE_INSTANT (R35). The release gate launches OUTPUT, BRAKE or shadow frames carrying the release latch contents and the apply time. -/
  | releaseInstant
  /-- WHEEL_DEADLINE (R34). The wheel deadline passes; a wheel group that has not finished slips. -/
  | wheelDeadline
  /-- REGULATION_INTERVAL_END (R40). At the end of a regulation interval, the regulator raises, lowers or keeps the core voltage from the least slack. -/
  | regulationIntervalEnd
  /-- STAGE_WEDGED (R45). A handshake stage has not acknowledged within 4 turns, which is a self-diagnosed fault. -/
  | stageWedged (cls : UnitClass) (unit : Fin 128)
  /-- SLACK_CLEAR_MIN (R47). A write of SLACK_CLEAR.clear_min sets every SLACK_*_MIN to 0xFFFF_FFFF. -/
  | slackClearMin
  /-- SLACK_CLEAR_SLIPS (R47). A write of SLACK_CLEAR.clear_slips sets every slip count and last_slipped to 0. -/
  | slackClearSlips
  /-- LOW_WORD_READ (R365). A read of a _LO word captures the register's higher words. -/
  | lowWordRead (off : BitVec 20) (aligned : Bool)
  /-- HOST_WRITE_TAKEN (R68). A host signal write or LOOP_WRITE is taken into the image at its named boundary, on both partners. -/
  | hostWriteTaken
  /-- FORCE_APPLY (R64). An accepted force or unforce takes effect at boundary b. -/
  | forceApply
  /-- ORDER_ACK_TIMEOUT (R512). No ACK has arrived by 100 µs before an order's boundary, and the order is abandoned. -/
  | orderAckTimeout (seq : BitVec 16)
  /-- SKEIN_LINK_CHANGE (R396). A Skein lane completes training or goes down, and alive counters and last values are reset. -/
  | skeinLinkChange (p : Fin 16) (link : LinkLevel)
  /-- INPUT_FRAME_RECEIVED (R80). An INPUT frame is taken whole: its seal, length, alive counter and cut-off are checked, and its samples are stored. -/
  | inputFrameReceived (p : Fin 16) (frame : Bytes)
  /-- PARTNER_FRAME_NOT_SHADOW (R292). An active module receives a frame from its partner that is not marked shadow, and one of the two abdicates or raises its epoch. -/
  | partnerFrameNotShadow (epoch : BitVec 28) (proxy brake : Bool)
  /-- JOIN_FRAME_RECEIVED (R95). A station JOIN frame is taken: its position is derived from c0 or c1 and it is judged against the map. -/
  | joinFrameReceived (p : Fin 16) (frame : Bytes)
  /-- JOIN_ANSWER (R95). The module sends the SETUP frame that answers a fitting JOIN, at most 2 turns later. -/
  | joinAnswer (p pos : Fin 16)
  /-- TURN_MARK_RECEIVED (R98). The far end's TURN_MARK arrives and is used for chain integrity and the one-way delay. -/
  | turnMarkReceived (p : Fin 16) (turn6 : BitVec 6) (offset : BitVec 10) (arrival : BitVec 32)
  /-- ECHO_RSP_RECEIVED (R90). An ECHO_RSP arrives, and the end updates its round-trip mean for that position. -/
  | echoRspReceived (p pos : Fin 16) (seq : BitVec 8) (elapsed : BitVec 32) (echoTurn : BitVec 16)
  /-- SETUP_RECORD_REPEAT (R90). The active resends a station's setup record every 1,024 turns, or sooner when a delay changes by 2 units or more. -/
  | setupRecordRepeat (p pos : Fin 16)
  /-- CHAIN_BROKEN (R98). The far end's mark has been missing in 2 consecutive turns, and the port sets chain = broken. -/
  | chainBroken (p : Fin 16)
  /-- CHAIN_INTACT (R98). The far end's marks have arrived in 16 consecutive turns, and the port sets chain = intact. -/
  | chainIntact (p : Fin 16)
  /-- STATION_LOST (R96). A position in UP has received no INPUT for holdoff frame periods and becomes LOST. -/
  | stationLost (p pos : Fin 16)
  /-- JOINING_TIMEOUT (R96). A position in JOINING has received no INPUT for 64 turns and returns to WAITING. -/
  | joiningTimeout (p pos : Fin 16)
  /-- BUDGET_COMPARISON (R89). Every 1,024 turns, each port compares its measured delays with seg_ns and fwd_ns and sets over_budget. -/
  | budgetComparison (p : Fin 16)
  /-- PROXY_START (R100). Two turns after the active reports a station unreached, the standby starts proxy frames for it. -/
  | proxyStart (p pos : Fin 16)
  /-- PROXY_STOP (R100). Two turns after the active again reaches the station, the standby returns to shadow frames. -/
  | proxyStop (p pos : Fin 16)
  /-- SK_CLEAR_CNT (R102). A write of SK_CTRL.clear_cnt sets every SK_CNT_* of the port to 0. -/
  | skClearCnt (p : Fin 16)
  /-- TASK_INPUT_COPY_DONE (R105). A task's input view copy ends, and its strands join their spindle queues. -/
  | taskInputCopyDone (t : Fin 16)
  /-- TASK_COMMIT_DONE (R105). After the last strand ends, the output view and task data commit to the image as one unit, and slack is recorded. -/
  | taskCommitDone (t : Fin 16)
  /-- TASK_START (R113). Tasks start at their first due boundary after a cold start, a warm reset or a resume. -/
  | taskStart (t : Fin 16)
  /-- OVERRUN_DECISION (R115). 150 ns after the release instant, the active judges a task overrun local or common. -/
  | overrunDecision (t : Fin 16)
  /-- TURN_WATCHDOG_TRIP (R119). The release gate has not fired for 4 turns: the brake domain brakes every port itself and latches the trip. -/
  | turnWatchdogTrip
  /-- KEY_POSITION_TAKEN (R121). A valid key code stable for 20 ms becomes the local position. -/
  | keyPositionTaken (lines : BitVec 4)
  /-- KEY_INVALID_LOCK (R121). After 100 ms of invalid code, the local position becomes LOCK and invalid_lock is set. -/
  | keyInvalidLock (lines : BitVec 4)
  /-- KEY_EFFECTIVE_CHANGE (R125). The effective key position changes at its named boundary: tasks stop or start, and braking begins or ends. -/
  | keyEffectiveChange
  /-- KEY_DISAGREE (R122). A standby's local position has differed from the active's for 100 ms. -/
  | keyDisagree
  /-- RETAIN_FLUSH_START (R111). The brake domain starts a flush of retained variables to the older MRAM copy. -/
  | retainFlushStart
  /-- RETAIN_FLUSH_DONE (R111). A retained-variable flush completes and RETAIN_STATUS records its copy. -/
  | retainFlushDone (ok : Bool)
  /-- RETAIN_FLUSH_NOW (R111). A write of RETAIN_CTRL.flush_now requests one extra flush at the next boundary. -/
  | retainFlushNow
  /-- ADD (R137). The ADD instruction computes a 36-bit wrapping sum with flags. -/
  | twAdd (t : Fin 16) (j : Fin 8) (gd ga gb : Fin 32) (residueBad : Bool)
  /-- SUB (R137). The SUB instruction computes a 36-bit wrapping difference with borrow. -/
  | twSub (t : Fin 16) (j : Fin 8) (gd ga gb : Fin 32) (residueBad : Bool)
  /-- ADDS (R137). The ADDS instruction computes a saturating 36-bit sum. -/
  | twAdds (t : Fin 16) (j : Fin 8) (gd ga gb : Fin 32) (residueBad : Bool)
  /-- SUBS (R137). The SUBS instruction computes a saturating 36-bit difference. -/
  | twSubs (t : Fin 16) (j : Fin 8) (gd ga gb : Fin 32) (residueBad : Bool)
  /-- AND (R137). The AND instruction computes a bitwise AND. -/
  | twAnd (t : Fin 16) (j : Fin 8) (gd ga gb : Fin 32)
  /-- OR (R137). The OR instruction computes a bitwise OR. -/
  | twOr (t : Fin 16) (j : Fin 8) (gd ga gb : Fin 32)
  /-- XOR (R137). The XOR instruction computes a bitwise XOR. -/
  | twXor (t : Fin 16) (j : Fin 8) (gd ga gb : Fin 32)
  /-- ANDN (R137). The ANDN instruction computes ga AND NOT gb. -/
  | twAndn (t : Fin 16) (j : Fin 8) (gd ga gb : Fin 32)
  /-- SHL (R137). The SHL instruction shifts left by gb[5:0]. -/
  | twShl (t : Fin 16) (j : Fin 8) (gd ga gb : Fin 32) (residueBad : Bool)
  /-- SHR (R137). The SHR instruction makes a logical shift right. -/
  | twShr (t : Fin 16) (j : Fin 8) (gd ga gb : Fin 32)
  /-- SAR (R137). The SAR instruction makes an arithmetic shift right. -/
  | twSar (t : Fin 16) (j : Fin 8) (gd ga gb : Fin 32)
  /-- MIN (R137). The MIN instruction takes the signed minimum. -/
  | twMin (t : Fin 16) (j : Fin 8) (gd ga gb : Fin 32)
  /-- MAX (R137). The MAX instruction takes the signed maximum. -/
  | twMax (t : Fin 16) (j : Fin 8) (gd ga gb : Fin 32)
  /-- CMP (R137). The CMP instruction sets the flags of ga minus gb. -/
  | twCmp (t : Fin 16) (j : Fin 8) (ga gb : Fin 32) (residueBad : Bool)
  /-- ABS (R137). The ABS instruction takes the saturating absolute value. -/
  | twAbs (t : Fin 16) (j : Fin 8) (gd ga : Fin 32) (residueBad : Bool)
  /-- NEG (R137). The NEG instruction takes the saturating negation. -/
  | twNeg (t : Fin 16) (j : Fin 8) (gd ga : Fin 32) (residueBad : Bool)
  /-- MUL (R137). The MUL instruction computes a 36-bit wrapping product. -/
  | twMul (t : Fin 16) (j : Fin 8) (gd ga gb : Fin 32) (residueBad : Bool)
  /-- MULQ (R137). The MULQ instruction computes a Q1.17 product, rounded and saturated. -/
  | twMulq (t : Fin 16) (j : Fin 8) (gd ga gb : Fin 32) (residueBad : Bool)
  /-- DIV (R137). The DIV instruction divides toward zero, and traps DIV_ZERO on a zero divisor. -/
  | twDiv (t : Fin 16) (j : Fin 8) (gd ga gb : Fin 32) (residueBad : Bool)
  /-- DIVQ (R137). The DIVQ instruction computes a Q1.17 quotient rounded to nearest. -/
  | twDivq (t : Fin 16) (j : Fin 8) (gd ga gb : Fin 32) (residueBad : Bool)
  /-- SATQ (R137). The SATQ instruction saturates to Q1.17. -/
  | twSatq (t : Fin 16) (j : Fin 8) (gd ga : Fin 32)
  /-- SEL (R137). The SEL instruction selects ga or gb by Z. -/
  | twSel (t : Fin 16) (j : Fin 8) (gd ga gb : Fin 32)
  /-- RDF (R137). The RDF instruction reads the flags and LT into a register. -/
  | twRdf (t : Fin 16) (j : Fin 8) (gd : Fin 32)
  /-- CLQ (R137). The CLQ instruction clears the sticky Q flag. -/
  | twClq (t : Fin 16) (j : Fin 8)
  /-- ADDI (R138). The ADDI instruction adds a sign-extended immediate. -/
  | twAddi (t : Fin 16) (j : Fin 8) (gd ga : Fin 32) (imm : BitVec 20) (residueBad : Bool)
  /-- ANDI (R138). The ANDI instruction ANDs a zero-extended immediate. -/
  | twAndi (t : Fin 16) (j : Fin 8) (gd ga : Fin 32) (imm : BitVec 20)
  /-- ORI (R138). The ORI instruction ORs a zero-extended immediate. -/
  | twOri (t : Fin 16) (j : Fin 8) (gd ga : Fin 32) (imm : BitVec 20)
  /-- XORI (R138). The XORI instruction XORs a zero-extended immediate. -/
  | twXori (t : Fin 16) (j : Fin 8) (gd ga : Fin 32) (imm : BitVec 20)
  /-- CMPI (R138). The CMPI instruction sets the flags of ga minus an immediate. -/
  | twCmpi (t : Fin 16) (j : Fin 8) (ga : Fin 32) (imm : BitVec 20) (residueBad : Bool)
  /-- SHI (R138). The SHI instruction shifts by an immediate amount. -/
  | twShi (t : Fin 16) (j : Fin 8) (gd ga : Fin 32) (imm : BitVec 20) (residueBad : Bool)
  /-- LUI (R138). The LUI instruction loads an immediate shifted left by 16. -/
  | twLui (t : Fin 16) (j : Fin 8) (gd : Fin 32) (imm : BitVec 20)
  /-- LDS (R129). The LDS instruction loads a slot value from the input view and sets LT. -/
  | twLds (t : Fin 16) (j : Fin 8) (gd gi : Fin 32) (slot : BitVec 18) (ecc : Bool)
  /-- LDE (R138). The LDE instruction loads a slot entry in container layout. -/
  | twLde (t : Fin 16) (j : Fin 8) (gd gi : Fin 32) (slot : BitVec 18) (ecc : Bool)
  /-- TAG (R138). The TAG instruction loads a slot's tag. -/
  | twTag (t : Fin 16) (j : Fin 8) (gd gi : Fin 32) (slot : BitVec 18) (ecc : Bool)
  /-- STS (R130). The STS instruction writes a saturated value and tag bits into the output view. -/
  | twSts (t : Fin 16) (j : Fin 8) (gs gi : Fin 32) (m : BitVec 2) (slot : BitVec 18)
  /-- WINB (R138). The WINB instruction builds a window mask over n slots. -/
  | twWinb (t : Fin 16) (j : Fin 8) (gd ga : Fin 32) (n1 : BitVec 4) (base : BitVec 16) (ecc : Bool)
  /-- LDW (R131). The LDW instruction reads a task data word. -/
  | twLdw (t : Fin 16) (j : Fin 8) (gd gb : Fin 32) (off : BitVec 16) (ecc : Bool)
  /-- STW (R131). The STW instruction writes a task data word in the strand's own range. -/
  | twStw (t : Fin 16) (j : Fin 8) (gs gb : Fin 32) (off : BitVec 16)
  /-- TRD (R134). The TRD instruction reads an instance value selected by sel. -/
  | twTrd (t : Fin 16) (j : Fin 8) (gd : Fin 32) (sel : BitVec 4)
  /-- LIX (R138). The LIX instruction reads the innermost loop's iteration index. -/
  | twLix (t : Fin 16) (j : Fin 8) (gd : Fin 32)
  /-- LPR (R132). The LPR instruction reads a loop node from the input view. -/
  | twLpr (t : Fin 16) (j : Fin 8) (gd gi : Fin 32) (node : BitVec 4) (loop : BitVec 12) (ecc : Bool)
  /-- LPW (R132). The LPW instruction writes a loop target, mode or manual output into the output view. -/
  | twLpw (t : Fin 16) (j : Fin 8) (gs gi : Fin 32) (node : BitVec 4) (loop : BitVec 12)
  /-- MBQ (R133). The MBQ instruction queues a mill-bus descriptor to a transmit buffer at commit. -/
  | twMbq (t : Fin 16) (j : Fin 8) (gb : Fin 32) (ch : Fin 2) (buf : Fin 64) (off : BitVec 16) (ecc : Bool)
  /-- MBR (R133). The MBR instruction copies the newest message of a receive buffer into task data. -/
  | twMbr (t : Fin 16) (j : Fin 8) (gb : Fin 32) (ch : Fin 2) (buf : Fin 64) (off : BitVec 16) (ecc : Bool)
  /-- BR (R139). The BR instruction branches forward if its condition holds. -/
  | twBr (t : Fin 16) (j : Fin 8) (cond : BitVec 4) (off : BitVec 16)
  /-- BTAG (R139). The BTAG instruction branches forward on a test of LT. -/
  | twBtag (t : Fin 16) (j : Fin 8) (mode q : BitVec 2) (mask : BitVec 6) (off : BitVec 16)
  /-- LOOP (R138). The LOOP instruction runs the next len words gc times, or traps LOOP_BOUND. -/
  | twLoop (t : Fin 16) (j : Fin 8) (gc : Fin 32) (max1 : BitVec 12) (len : BitVec 13)
  /-- CALL (R138). The CALL instruction pushes the return address and jumps to a subroutine. -/
  | twCall (t : Fin 16) (j : Fin 8) (target : BitVec 16)
  /-- RET (R138). The RET instruction returns from a subroutine. -/
  | twRet (t : Fin 16) (j : Fin 8)
  /-- END (R138). The END instruction ends the strand, and the last strand to end starts the commit. -/
  | twEnd (t : Fin 16) (j : Fin 8)
  /-- TRAP (R138). The TRAP instruction traps USER with a user code. -/
  | twTrap (t : Fin 16) (j : Fin 8) (user : BitVec 8)
  /-- NOP (R138). The NOP instruction does nothing. -/
  | twNop (t : Fin 16) (j : Fin 8)
  /-- TRAP_DECISION (R143). The active judges a trap local or common, on the standby's record or 150 ns after the release instant. -/
  | trapDecision (t : Fin 16)
  /-- PROG_VERIFY_DONE (R148). Structural verification of a loaded program image ends, and PROG_STATUS.staged becomes verified or refused. -/
  | progVerifyDone (slot : Fin 16)
  /-- ONLINE_CARRY (R160). At phase c of b_t, the first instance of the new settings starts to carry task data over by name. -/
  | onlineCarry (t : Fin 16) (eccWords : List (Fin 65536))
  /-- ONLINE_CARRY_DONE (R159). The carry ends, the carried data counts as committed, and the input view copy begins. -/
  | onlineCarryDone (t : Fin 16)
  /-- TRACE_ARM (R215). A write of TRACE_CMD.arm arms a group, or the arm is refused with arm_err. -/
  | traceArm (g : Fin 8)
  /-- TRACE_STOP (R214). A write of TRACE_CMD.stop returns the group to IDLE. -/
  | traceStop (g : Fin 8)
  /-- TRACE_FORCE (R216). A write of TRACE_CMD.force triggers an armed group at its next recorded sample. -/
  | traceForce (g : Fin 8)
  /-- PUBLISH_RECEIVED (R228). A PUBLISH part arrives on the ring: it is forwarded, classified by alive counter and held for the choice rule. -/
  | publishReceived (east errBlock : Bool) (frame : Bytes)
  /-- BEACON_RECEIVED (R225). A BEACON arrives and updates the member state of its position, or a clash. -/
  | beaconReceived (east errBlock : Bool) (frame : Bytes)
  /-- BEACON_SEND (R225). A member sends its BEACON at its 10 µs slot. -/
  | beaconSend
  /-- MEMBER_SILENT (R225). No BEACON from a position for 50 µs, and it becomes SILENT. -/
  | memberSilent (pos : Fin 16)
  /-- CLASH_CLEARED (R225). A position in CLASH has shown one identity for 100 µs and returns to UP. -/
  | clashCleared (pos : Fin 16)
  /-- PUBLICATION_LAUNCH (R226). 512 ns after the publication instant, the module launches its publication parts. -/
  | publicationLaunch
  /-- BYPASS_OPEN (R233). After listening for at least 1 ms with every condition met, the module opens its ring bypass. -/
  | bypassOpen
  /-- RING_LINK_CHANGE (R235). A ring port's link goes down or comes up, and the port retrains. -/
  | ringLinkChange (east : Bool) (link : LinkLevel)
  /-- HOP_MARK_SEND (R247). Each open ring port sends a HOP_MARK once per microsecond of LOCAL time. -/
  | hopMarkSend (east : Bool) (sub : Fin 820)
  /-- HOP_MARK_RECEIVED (R247). A neighbour's HOP_MARK arrives and is stamped. -/
  | hopMarkReceived (east : Bool) (seq : BitVec 8) (sub : Fin 820)
  /-- HOP_REPORT_SEND (R248). Every 16 µs, a member sends a HOP_REPORT of its stamps. -/
  | hopReportSend
  /-- HOP_REPORT_RECEIVED (R249). A HOP_REPORT is paired with the arrival entries, and the hop delay, offset and closure are updated. -/
  | hopReportReceived (east errBlock : Bool) (frame : Bytes)
  /-- HOP_ENTRY_EXPIRED (R249). A launch or arrival entry unpaired for 64 µs is discarded. -/
  | hopEntryExpired (pos : Fin 16) (back launch : Bool)
  /-- REFCLK_LOST (R240). REFCLK has been absent for 100 ns, and the time engine switches to its internal oscillator. -/
  | refclkLost
  /-- REFCLK_RESTORED (R240). REFCLK has been present again for 10 ms, and the time engine returns to it. -/
  | refclkRestored
  /-- MASTER_ELECTION (R241). No DOMAIN frame for 64 µs, and the lowest UP candidate becomes master of the domain. -/
  | masterElection (dom : Domain)
  /-- DOMAIN_START (R242). A domain starts at a PPS edge, or 1.1 s after its start was ordered, and its generation rises. -/
  | domainStart (dom : Domain)
  /-- TIME_RESTART (R242). A write of TIME_CMD.restart_a or restart_b orders a restart of the domain on the master. -/
  | timeRestart (dom : Domain)
  /-- TIME_SNAP (R266). A write of TIME_CMD.snap captures LOCAL, working time, A and B at one tick. -/
  | timeSnap
  /-- INC_WRITE (R243). A write of INC_x_HI on the master takes a new increment and announces it. -/
  | incWrite (dom : Domain) (v : Word32)
  /-- INC_APPLY (R243). The announced increment applies at its tick at least 64 µs after the write. -/
  | incApply (dom : Domain)
  /-- SLEW_TICKS_WRITE (R244). A write of SLEW_x_TICKS schedules or ends the temporary increment. -/
  | slewTicksWrite (dom : Domain) (n : Word32)
  /-- SLEW_END (R244). After n ticks, the previous increment returns. -/
  | slewEnd (dom : Domain)
  /-- PPS_EDGE (R245). A rising PPS edge is stamped in its domain and in working time. -/
  | ppsEdge (dom : Domain) (sub : Fin 820)
  /-- PPS_LOST (R245). No PPS edge for 1.1 s, so present_x falls. -/
  | ppsLost (dom : Domain)
  /-- DOMAIN_FRAME_SEND (R246). The master sends a DOMAIN frame every 16 µs and on every change of increment. -/
  | domainFrameSend (dom : Domain)
  /-- DOMAIN_FRAME_RECEIVED (R251). A follower takes a DOMAIN frame, computes err and steers or sets its replica. -/
  | domainFrameReceived (east errBlock : Bool) (frame : Bytes)
  /-- DOMAIN_HOLDOVER (R252). A LOCKED follower enters HOLDOVER after 64 µs without a frame, on loss of calibration or on REFCLK loss. -/
  | domainHoldover (dom : Domain)
  /-- HOLD_EXPIRED (R252). hold_s passes in HOLDOVER, and the domain becomes INVALID. -/
  | holdExpired (dom : Domain)
  /-- WORKING_TIME_START (R254). The module sets working time once, from the first source it holds. -/
  | workingTimeStart (given : Option (Nat × Int))
  /-- SLEW_DONE (R256). The carried offset O reaches 0, and slew_done is raised. -/
  | slewDone
  /-- DOMAIN_SWITCH (R257). At its boundary, working time switches to the other domain and captures O. -/
  | domainSwitch
  /-- TIME_XCHG_SEND (R259). Every 16 µs, a partner sends a TIME_XCHG block on the ply link. -/
  | timeXchgSend
  /-- TIME_XCHG_RECEIVED (R259). A TIME_XCHG stamp arrives, and the standby records PLY_TIME_DIFF. -/
  | timeXchgReceived (diffPs : Int)
  /-- PLY_TIME_DIFF_EXCEEDED (R259). |diff| has stayed above 1 ns for 1 ms, and the standby leaves tracking. -/
  | plyTimeDiffExceeded
  /-- PPS_OUT_PULSE (R262). PPS_OUT rises at a whole second of its source. -/
  | ppsOutPulse
  /-- PPS_OUT_FALL (R262). PPS_OUT falls after width_ms. -/
  | ppsOutFall
  /-- ALARM_FIRE (R263). An alarm reaches its working-time instant, raises its bit and re-arms if it has a period. -/
  | alarmFire (a : Fin 8)
  /-- LEAP_APPLY (R265). A write of LEAP_CTRL.apply checks the leap table, and sets leap_err if it fails. -/
  | leapApply
  /-- LEAP_TABLE_EFFECT (R265). A table that passed takes effect at the next whole working second. -/
  | leapTableEffect
  /-- CALENDAR_WRITE (R265). At every whole working second, the brake domain writes working seconds to the keep-island calendar. -/
  | calendarWrite
  /-- HEARTBEAT_SEND (R270). Each partner sends a HEARTBEAT every microsecond and toggles PLY_TOK_OUT while active. -/
  | heartbeatSend
  /-- HEARTBEAT_RECEIVED (R286). A HEARTBEAT from the partner arrives. -/
  | heartbeatReceived (count flags : Byte)
  /-- HEARTBEAT_MISSED (R286). A missed HEARTBEAT is counted, and at the third the standby takes over, leaves tracking or waits. -/
  | heartbeatMissed
  /-- OWN_HEARTBEAT_LOSS (R274). An active's brake domain has had no HEARTBEAT pulse for 1,200 ns, drives its lines low and abdicates. -/
  | ownHeartbeatLoss
  /-- ABDICATE_LINE_ASSERTED (R275). PLY_ABD_IN has been low for 20 ns, and a tracking standby takes over. -/
  | abdicateLineAsserted
  /-- TOKEN_CLASS_CHANGE (R275). PLY_TOK_IN changes class among SILENT, NOT_ACTIVE and ACTIVE. -/
  | tokenClassChange (cls : TokClass)
  /-- CATCH_UP_LAUNCH (R290). The new active launches one catch-up frame per station at the new epoch. -/
  | catchUpLaunch
  /-- BRIDGE_RECEIVED (R99). A BRIDGE frame arrives with an INPUT or PUBLISH frame that counts as if received directly. -/
  | bridgeReceived (h : PlyHdr) (inner : Bytes)
  /-- RELEASED_RECEIVED (R100). A RELEASED frame gives the standby the active's released values for a proxy frame. -/
  | releasedReceived (h : PlyHdr) (station : Fin 256) (payload : Bytes)
  /-- REACH_RECEIVED (R283). A REACH frame arrives: bridging needs and split-input turns are found from it. -/
  | reachReceived (h : PlyHdr) (reach : List (BitVec 16))
  /-- DIGEST_RECEIVED (R281). The active's DIGEST arrives, and the standby compares it with its own. -/
  | digestReceived (h : PlyHdr) (dg : Digest)
  /-- DIGEST_COMPUTE (R280). Once every item of a release has committed, a partner computes its DIGEST, and the active sends it. -/
  | digestCompute
  /-- COMPLETION_RECEIVED (R115). The standby's completion record of a task instance, with any trap, arrives at the active. -/
  | completionReceived (h : PlyHdr) (task : Fin 16) (trap : BitVec 8) (pc : BitVec 16) (doneNs : BitVec 32)
  /-- MILL_SNAP_RECEIVED (R133). The active's MBR and mapped-buffer snapshot arrives at the standby. -/
  | millSnapReceived (h : PlyHdr) (ch : Fin 2) (buf : Fin 64) (words : List Word36)
  /-- HOST_WRITE_RECEIVED (R68). A mirrored host signal or loop write arrives at the standby with its boundary. -/
  | hostWriteReceived (h : PlyHdr) (b : BitVec 64) (writes : List HostWrite)
  /-- ORDER_RECEIVED (R512). An ORDER frame arrives: the standby checks it, acknowledges it and arms it, or treats it as a handover request. -/
  | orderReceived (h : PlyHdr) (order : OrderMsg)
  /-- ACK_RECEIVED (R512). An ACK arrives for an order, accepted or refused. -/
  | ackReceived (h : PlyHdr) (code seq : BitVec 16) (refused : Bool)
  /-- HEALTH_SEND (R284). Every 100 µs, a partner sends a HEALTH frame built from hardware state. -/
  | healthSend
  /-- HEALTH_RECEIVED (R284). The partner's HEALTH frame arrives and updates partner_state. -/
  | healthReceived (h : PlyHdr) (payload : Bytes)
  /-- STATE_SEND (R282). The active sends a STATE chunk of task data or loop state in the sweep. -/
  | stateSend (item : BitVec 16) (first : BitVec 32) (count : Fin 511)
  /-- STATE_RECEIVED (R282). A STATE chunk arrives and is compared, captured, forwarded firmware or a reset order. -/
  | stateReceived (h : PlyHdr) (item : BitVec 16) (commitTurn : BitVec 64) (first : BitVec 32) (words : List (BitVec 64))
  /-- PLY_JOIN_RECEIVED (R295). A ply JOIN frame arrives and starts or advances identification. -/
  | plyJoinReceived (h : PlyHdr) (join : PlyJoin)
  /-- STARTING_TIMEOUT (R277). 50 ms after the turn engine runs with no partner evidence, a STARTING module becomes LONE. -/
  | startingTimeout
  /-- PLY_LINK_UP (R277). The ply link comes up and the partner is heard, which drives the role decision from STARTING. -/
  | plyLinkUp
  /-- PLY_LINK_DOWN (R277). The ply link has been down for 3 µs, and an active without a token from its partner becomes LONE. -/
  | plyLinkDown (training : Bool)
  /-- AUTO_REJOIN (R277). 1 s after leaving tracking, with auto_rejoin, an UNTRACKED module enters JOINING. -/
  | autoRejoin
  /-- AUTO_RESTART (R285). 100 ms after abdicating, with auto_restart, the module makes a warm reset. -/
  | autoRestart
  /-- PLY_CMD_REJOIN (R298). A write of PLY_CMD.rejoin takes an UNTRACKED module to JOINING. -/
  | plyCmdRejoin
  /-- PLY_CMD_HANDOVER (R293). A write of PLY_CMD.handover requests a planned handover. -/
  | plyCmdHandover
  /-- PLY_CMD_LEAVE (R281). A write of PLY_CMD.leave makes a standby leave tracking with reason 11. -/
  | plyCmdLeave
  /-- PLANNED_HANDOVER_SWITCH (R293). At boundary b, the roles swap, the epoch rises and the old active mutes. -/
  | plannedHandoverSwitch
  /-- REVERT (R294). The home standby has tracked for the hold time with nothing armed, and it sends ORDER 7. -/
  | revert
  /-- JOIN_TIMEOUT (R295). A join has not ended within 10 s of the JOIN frame and fails. -/
  | joinTimeout
  /-- JOIN_CAPTURE_BOUNDARY (R296). At the capture boundary b_c, the active starts capturing state for the joining module. -/
  | joinCaptureBoundary
  /-- REPLAY_CAUGHT_UP (R297). The joining module completes samples by their deadlines and starts shadow frames and digest comparison. -/
  | replayCaughtUp
  /-- REPLAY_BEHIND (R297). The replay backlog has not halved within 1 s, and the join fails. -/
  | replayBehind
  /-- DIVERGED_TIMEOUT (R283). An item is still diverged 64 turns or 1 ms after a split-input turn, and the standby leaves tracking. -/
  | divergedTimeout
  /-- MILL_HEARTBEAT_SEND (R287). Every 1 ms, an active or lone module sends its mill-bus heartbeat. -/
  | millHeartbeatSend
  /-- BRAKE_INPUT_ASSERT (R301). A BI line at brake level for 2 ns asserts its row. -/
  | brakeInputAssert (line : Fin 8)
  /-- BRAKE_INPUT_RELEASE (R301). A BI line at run level for release_us releases its row. -/
  | brakeInputRelease (line : Fin 8)
  /-- BRAKE_FRAME_REFRESH (R307). Without the release gate, the brake domain sends fresh BRAKE frames every 8 µs. -/
  | brakeFrameRefresh
  /-- BRK_CLEAR_WRITE (R304). A write of BRK_CLEAR ends the latch of each row named whose source is not asserted. -/
  | brkClearWrite (v : Word32)
  /-- BRK_SOFT_WRITE (R312). A write of BRK_SOFT on the active requests soft sources. -/
  | brkSoftWrite (v : Word32)
  /-- SOFT_BRAKE_APPLY (R312). A changed soft source takes effect at its boundary on both partners. -/
  | softBrakeApply
  /-- BRK_LOCK_WRITE (R313). A write of BRK_LOCK.lock locks the brake settings until reset. -/
  | brkLockWrite (v : Word32)
  /-- BRK_FIRST_CLEAR_WRITE (R316). A write of BRK_FIRST_CLEAR clears BRK_FIRST. -/
  | brkFirstClearWrite (v : Word32)
  /-- INPUT_LOST (R315). 12 V below 10.2 V for 1 µs: row 24, abdication and the holdup shedding sequence begin. -/
  | inputLost
  /-- LAST_GASP_RECORD_DONE (R315). The last-gasp record is sealed in MRAM, and PD_TIME turns off. -/
  | lastGaspRecordDone
  /-- KEEP_ISLAND_UPDATE (R315). After the flush, the keep island is updated, and PD_MILLER turns off. -/
  | keepIslandUpdate
  /-- HOLDUP_SPENT (R315). The holdup store is spent, every line goes undriven, and the module enters Keep. -/
  | holdupSpent
  /-- EJECTOR_OPEN (R475). The ejector switch reads open for 10 µs: row 25 asserts, the bypass closes and the module abdicates or leaves tracking. -/
  | ejectorOpen
  /-- EJECTOR_CLOSED (R475). The ejector switch reads closed for 50 ms. -/
  | ejectorClosed
  /-- DOORBELL_READ_END (R323). The last read of a doorbell read arrives, and the fetched commands run. -/
  | doorbellReadEnd (pageOk : Bool) (page : Bytes) (cmds : List HostCmd)
  /-- CMD_NOP (R331). The host command NOP completes with no effect. -/
  | cmdNop (c : HostCmd)
  /-- SIG_READ (R331). The SIG_READ command copies an image snapshot of slots to the host buffer. -/
  | cmdSigRead (c : HostCmd)
  /-- SIG_WRITE (R331). The SIG_WRITE command writes host-input slots, which are taken at the boundary of R68. -/
  | cmdSigWrite (c : HostCmd)
  /-- SLOT_STATUS (R332). The SLOT_STATUS command writes slot status records. -/
  | cmdSlotStatus (c : HostCmd)
  /-- LOOP_READ (R332). The LOOP_READ command writes loop records. -/
  | cmdLoopRead (c : HostCmd)
  /-- LOOP_WRITE (R331). The LOOP_WRITE command writes a loop's target, mode or manual output at a boundary. -/
  | cmdLoopWrite (c : HostCmd)
  /-- FORCE (R63). The FORCE command forces slots at a boundary b named by the active. -/
  | cmdForce (c : HostCmd)
  /-- UNFORCE (R65). The UNFORCE command removes forces at boundary b. -/
  | cmdUnforce (c : HostCmd)
  /-- FORCE_LIST (R331). The FORCE_LIST command lists every force. -/
  | cmdForceList (c : HostCmd)
  /-- STAGE_REGS (R346). The STAGE_REGS command writes STG fields to the staged copy. -/
  | cmdStageRegs (c : HostCmd)
  /-- STAGE_SLOTS (R346). The STAGE_SLOTS command writes staged slot policy words. -/
  | cmdStageSlots (c : HostCmd)
  /-- CHECK (R349). The CHECK command snapshots the staged copy and starts its tests. -/
  | cmdCheck (c : HostCmd)
  /-- CHECK_DONE (R349). CHECK's tests end, and it reports every failure and the lowest check code. -/
  | checkDone
  /-- COMMIT (R351). The COMMIT command checks its operands and starts its tests on a fresh snapshot. -/
  | cmdCommit (c : HostCmd)
  /-- COMMIT_ACCEPTED (R352). The tests pass, the commit image is frozen and armed, and the change list goes to the standby. -/
  | commitAccepted
  /-- COMMIT_APPLY (R354). At boundary b, the commit image replaces the active copy on both partners. -/
  | commitApply
  /-- COMMIT_IMAGE_WRITTEN (R355). The committed image is written to the older MRAM copy. -/
  | commitImageWritten
  /-- DISCARD (R348). The DISCARD command returns the staged copy to the active values. -/
  | cmdDiscard (c : HostCmd)
  /-- PROG_LOAD (R148). The PROG_LOAD command loads a piece of a program image into a staged slot. -/
  | cmdProgLoad (c : HostCmd)
  /-- PROG_READ (R331). The PROG_READ command reads an active or staged program image. -/
  | cmdProgRead (c : HostCmd)
  /-- LOG_READ (R424). The LOG_READ command copies recorder records to the host. -/
  | cmdLogRead (c : HostCmd)
  /-- LOG_ERASE (R425). The LOG_ERASE command erases the log if the expected pointer matches. -/
  | cmdLogErase (c : HostCmd)
  /-- FW_MANIFEST (R430). The FW_MANIFEST command delivers manifest bytes for verification and a build. -/
  | cmdFwManifest (c : HostCmd)
  /-- FW_DELTA (R431). The FW_DELTA command delivers delta bytes for a part. -/
  | cmdFwDelta (c : HostCmd)
  /-- FW_ACTIVATE (R435). The FW_ACTIVATE command requests activation of the built set. -/
  | cmdFwActivate (c : HostCmd)
  /-- FW_CONFIRM (R438). The FW_CONFIRM command confirms a pending set. -/
  | cmdFwConfirm (c : HostCmd)
  /-- MILL_SEND (R378). The MILL_SEND command queues a host message to a transmit buffer at a boundary. -/
  | cmdMillSend (c : HostCmd)
  /-- MILL_SEND_PENDING (R377). A MILL_SEND message becomes pending at its boundary. -/
  | millSendPending (ch : Fin 2) (b : Fin 64)
  /-- MILL_READ (R331). The MILL_READ command reads a mill-bus receive buffer. -/
  | cmdMillRead (c : HostCmd)
  /-- MSIX_COAL_TIMEOUT (R339). time_us passes since the first raise counted, and the vector sends its message. -/
  | msixCoalTimeout (v : Fin 128)
  /-- FLR (R341). A function-level reset sets host-side state to cold values and disables the rings. -/
  | flr
  /-- PERST_CHANGE (R341). PERST# is asserted or deasserted, which resets or releases the host side and may wake the module. -/
  | perstChange (asserted : Bool)
  /-- HOST_LINK_DOWN (R341). The PCIe link goes down, and the ring engine stops. -/
  | hostLinkDown
  /-- PM_STATE_CHANGE (R321). The function changes D-state or Bus Master Enable, which stops or resumes the ring engine. -/
  | pmStateChange (dstate : Fin 4) (busMaster : Bool)
  /-- RING_ENABLE_WRITE (R324). A write of a ring's enable bit starts or stops the ring and sets its counts to 0. -/
  | ringEnableWrite (ring : HostRing) (v : Word32)
  /-- POLICY_LOCK_WRITE (R343). A write of POLICY_LOCK.lock locks RING_POLICY until reset. -/
  | policyLockWrite (v : Word32)
  /-- BAR2_ACCESS (R320). A host BAR2 access reaches internal memory through the HOST unit. -/
  | bar2Access (off : BitVec 28) (len : Fin 4097) (wdata : Option Bytes) (ecc : Bool)
  /-- BAR0_REGISTER_WRITE (R346). A BAR0 write to a register without a row of its own writes each field by its type, staging STG fields. -/
  | bar0RegisterWrite (off : BitVec 20) (v : Word32) (aligned : Bool)
  /-- MILL_FRAME_RECEIVED (R372). A CAN frame is received and goes to the lowest matching receive buffer, raising an urgent event or taking a reference. -/
  | millFrameReceived (ch : Fin 2) (f : CanFrame)
  /-- MILL_FRAME_SENT (R377). A pending message is sent successfully and is no longer pending. -/
  | millFrameSent (ch : Fin 2) (src : MillSource)
  /-- MILL_TX_ERROR (R383). A transmission meets an error: error counters move, and the channel may go error passive or bus-off or record a clash. -/
  | millTxError (ch : Fin 2) (src : MillSource) (inData : Bool)
  /-- MILL_RECOVERED (R384). After 128 recessive sequences the channel recovers and sends its held messages. -/
  | millRecovered (ch : Fin 2)
  /-- MB_CMD_RESTART (R384). A write of MB_CMD.restart starts bus-off recovery. -/
  | mbCmdRestart (ch : Fin 2)
  /-- MB_CMD_UNMUTE (R385). A write of MB_CMD.unmute ends every clash mute. -/
  | mbCmdUnmute (ch : Fin 2)
  /-- MB_CMD_CLEAR_CNT (R388). A write of MB_CMD.clear_cnt sets every MB_CNT_* to 0. -/
  | mbCmdClearCnt (ch : Fin 2)
  /-- MILL_CYCLE_START (R381). A basic cycle starts, and a potential master queues its reference message. -/
  | millCycleStart (ch : Fin 2)
  /-- MILL_WINDOW_START (R380). A time-triggered window opens, and its buffer sends its newest message. -/
  | millWindowStart (ch : Fin 2) (b : Fin 64)
  /-- MILL_WINDOW_END (R380). A window ends; if nothing was sent, it is marked missed. -/
  | millWindowEnd (ch : Fin 2) (b : Fin 64)
  /-- MILL_REF_LOST (R382). No valid reference within cycle_us + 100 µs, and the follower stops sending. -/
  | millRefLost (ch : Fin 2)
  /-- MILL_DOMINANT_TIMEOUT (R368). The transmit input has been dominant for 4 ms, and the transceiver releases the bus. -/
  | millDominantTimeout (ch : Fin 2)
  /-- MB_RD_SEL_WRITE (R374). A write of MB_RD_SEL selects a buffer and ends any read lock. -/
  | mbRdSelWrite (ch : Fin 2) (v : Word32)
  /-- MB_RD_ID_READ (R374). A read of MB_RD_ID locks the selected receive buffer. -/
  | mbRdIdRead (ch : Fin 2)
  /-- MB_RD_STAMP_2_READ (R374). A read of MB_RD_STAMP_2 releases the read lock. -/
  | mbRdStamp2Read (ch : Fin 2)
  /-- READ_LOCK_TIMEOUT (R374). A read lock ends after 1 ms without a read of the window. -/
  | readLockTimeout (ch : Fin 2)
  /-- MILL_MAP_TAKEN (R375). A mapped buffer's value enters its slot at the first boundary after the frame. -/
  | millMapTaken (ch : Fin 2) (b : Fin 64)
  /-- MILL_MAP_STALE (R375). No frame for tmo_ms, and the mapped slot takes quality STALE. -/
  | millMapStale (ch : Fin 2) (b : Fin 64)
  /-- GS_START (R395). A write of GS_CTRL.start resets a general seal unit's remainder and count. -/
  | gsStart (u : Fin 8) (host : Bool)
  /-- GS_STOP (R398). A write of GS_CTRL.stop clears busy and keeps the result. -/
  | gsStop (u : Fin 8) (host : Bool)
  /-- GS_FEED_B (R394). A write of GS_FEED_B feeds one byte to a unit. -/
  | gsFeedB (u : Fin 8) (host : Bool) (v : Byte)
  /-- GS_FEED_H (R394). A write of GS_FEED_H feeds two bytes to a unit. -/
  | gsFeedH (u : Fin 8) (host : Bool) (v : BitVec 16)
  /-- GS_FEED_W (R394). A write of GS_FEED_W feeds four bytes to a unit. -/
  | gsFeedW (u : Fin 8) (host : Bool) (v : Word32)
  /-- AC_LOCK_WRITE (R406). A write to AC_LOCK locks regions, or is refused while an armed commit changes them. -/
  | acLockWrite (u : Fin 4) (v : Word32)
  /-- AC_VIOL_CLEAR (R408). A write of 1 to AC_VIOL_INFO.valid clears the first-violation record. -/
  | acViolClear (u : Fin 4)
  /-- TRST (R410). TRST# resets the test access port and selects IDCODE. -/
  | trst
  /-- BYPASS (R410). The BYPASS instruction selects the 1-bit bypass register. -/
  | bypass
  /-- IDCODE (R410). The IDCODE instruction shifts out 0x1001_8F0D. -/
  | idcode
  /-- SAMPLE_PRELOAD (R410). The SAMPLE/PRELOAD instruction samples or preloads the boundary-scan register. -/
  | samplePreload (cells : List Bool)
  /-- EXTEST (R411). The EXTEST instruction drives the boundary-scan cells, only at STOP in STARTING or ABDICATED. -/
  | extest (cells : List Bool)
  /-- CLAMP (R411). The CLAMP instruction holds the outputs, under the same conditions as EXTEST. -/
  | clamp
  /-- DBG_ADDR (R410). The DBG_ADDR instruction sets the debug address, size and direction. -/
  | dbgAddr (v : BitVec 40)
  /-- DBG_DATA_CAPTURE (R410). The capture of DBG_DATA starts the read that DBG_ADDR names. -/
  | dbgDataCapture
  /-- DBG_DATA_UPDATE (R410). The update of DBG_DATA starts the debug write, judged by the DEBUG unit. -/
  | dbgDataUpdate (v : Word32)
  /-- DBG_STATUS (R410). The DBG_STATUS instruction shifts out busy, error and refused. -/
  | dbgStatus
  /-- DBG_ACSTAT (R410). The DBG_ACSTAT instruction shifts out the locks and violation records with no unit in the path. -/
  | dbgAcstat
  /-- REC_MANUAL (R413). A write of REC_CMD.manual fires trigger 63. -/
  | recManual
  /-- REC_SNAPSHOT (R417). At the first boundary after the raise, the recorder reads its snapshot list and queues a record. -/
  | recSnapshot
  /-- REC_RECORD_WRITTEN (R421). A queued record is sealed in MRAM, and the keep-island pointer, flag and seal advance. -/
  | recRecordWritten
  /-- REC_HOLDOFF_END (R414). A trigger's holdoff expires, and it may fire again. -/
  | recHoldoffEnd (n : Fin 64)
  /-- FW_BUILD_DONE (R432). Every part of the next set is built and hashed, and the state becomes built. -/
  | fwBuildDone
  /-- FW_SWITCH (R436). At its boundary, every engine changes code bank, and the confirm state becomes PENDING. -/
  | fwSwitch
  /-- FW_SELF_CONFIRM (R438). The new miller confirms the set once its conditions hold. -/
  | fwSelfConfirm
  /-- FW_FALL_BACK (R439). The confirm window ends unconfirmed, or the miller restarts 3 times, and the module switches back. -/
  | fwFallBack
  /-- MILLER_WATCHDOG_RESTART (R440). The miller missed its 10 ms watchdog and restarts from the active slot. -/
  | millerWatchdogRestart (back : Bool)
  /-- HELLO (R446). The Hyica HELLO request returns status, set version and lifecycle. -/
  | hyHello (q : HyicaReq)
  /-- OPEN (R448). The Hyica OPEN request opens a session, or is answered BUSY. -/
  | hyOpen (q : HyicaReq)
  /-- CLOSE (R446). The Hyica CLOSE request ends the session. -/
  | hyClose (q : HyicaReq)
  /-- STATUS (R446). The Hyica STATUS request returns the firmware registers. -/
  | hyStatus (q : HyicaReq)
  /-- MANIFEST (R446). The Hyica MANIFEST request delivers manifest bytes. -/
  | hyManifest (q : HyicaReq)
  /-- DELTA (R446). The Hyica DELTA request delivers delta bytes. -/
  | hyDelta (q : HyicaReq)
  /-- IMAGE (R442). The Hyica IMAGE request delivers a whole part to the recovery ROM. -/
  | hyImage (q : HyicaReq)
  /-- ACTIVATE (R435). The Hyica ACTIVATE request requests activation. -/
  | hyActivate (q : HyicaReq)
  /-- CONFIRM (R438). The Hyica CONFIRM request confirms a pending set. -/
  | hyConfirm (q : HyicaReq)
  /-- RECOVER (R441). The Hyica RECOVER request at STOP sets RECOVERY_PENDING. -/
  | hyRecover (q : HyicaReq)
  /-- RECOVER_RESET (R441). 100 ms after the RECOVER response, the module abdicates and makes a warm reset. -/
  | recoverReset
  /-- RETIRE (R443). The Hyica RETIRE request at STOP erases MRAM and sets RETIRED. -/
  | hyRetire (q : HyicaReq)
  /-- HYICA_LOG_READ (R446). The Hyica LOG_READ request returns one recorder record. -/
  | hyLogRead (q : HyicaReq)
  /-- HYICA_SESSION_TIMEOUT (R448). A session ends after 30 s without a request. -/
  | hyicaSessionTimeout
  /-- RECOVERY_IMAGE_DONE (R442). Every part verifies in the recovery ROM: the selector switches, the state becomes SERVICE, and the module cold starts. -/
  | recoveryImageDone
  /-- NEIGHBOR_DISCOVERY (R444). The service port answers Neighbor Discovery or ICMPv6 echo for its link-local address. -/
  | neighborDiscovery (toOwn echo : Bool)
  /-- SVC_LINK_CHANGE (R490). The service port link comes up or goes down. -/
  | svcLinkChange (link : Fin 3)
  /-- PWR_REQ_GO (R453). A write of PWR_REQ with go asks for a rung change, which may be refused or wait for a handover. -/
  | pwrReqGo (v : Word32)
  /-- RUNG_STEP_DONE (R454). One rung step of a descent or ascent completes, and the next begins. -/
  | rungStepDone
  /-- SERVICE_BUTTON_PRESS (R489). A press of the service button for at least 100 ms wakes the module. -/
  | serviceButtonPress
  /-- KEEP_ALARM_FIRE (R456). Working seconds reach KEEP_ALARM, which wakes the module. -/
  | keepAlarmFire
  /-- PWR_RESET_WARM (R461). A write of PWR_RESET.warm requests a warm reset. -/
  | pwrResetWarm
  /-- PWR_RESET_PARTNER (R462). A write of PWR_RESET.partner sends a reset order to the partner. -/
  | pwrResetPartner
  /-- PWR_RESET_COLD (R460). A write of PWR_RESET.cold requests a commanded cold start. -/
  | pwrResetCold
  /-- PARTNER_ORDERED_RESET (R462). On receipt of STATE item 0x220, the module makes a warm reset that discards its control state. -/
  | partnerOrderedReset
  /-- WARM_RESET (R461). A warm reset: spindles and wheels stop, the miller restarts and the module enters STARTING. -/
  | warmReset
  /-- INPUT_GOOD (R463). The input is held above 10.8 V for 10 ms, and the cold-start sequence runs. -/
  | inputGood (straps : BitVec 8) (keepOk button : Bool)
  /-- HOLDUP_CHARGED (R464). The holdup store is charged, and the upper domains may turn on. -/
  | holdupCharged
  /-- HOLDUP_TIMEOUT (R464). The store has not charged within 1 s, and the module stays at Reefed with holdup_low set. -/
  | holdupTimeout
  /-- HOLDUP_LOW (R464). The store falls below its threshold while the module runs. -/
  | holdupLow
  /-- CELL_LOW (R467). The keep-alive cell falls below 2.7 V. -/
  | cellLow
  /-- PARTNER_FRAME_CROSSED (R87). A shadow, proxy or SETUP frame that the partner sent arrives after crossing the whole chain, and the module discards it after checking its seal and alive counter. -/
  | partnerFrameCrossed (p : Fin 16) (frame : Bytes)
  /-- UNDEFINED_ENCODING_REACHED (R136). A strand reaches a word with an undefined encoding, takes 1 step and traps with ILLEGAL. -/
  | undefinedEncodingReached (t : Fin 16) (j : Fin 8) (ecc : Bool)
  /-- MILL_RX_ERROR (R383). The channel detects a bus error while receiving, so the receive error count rises, MB_CNT_ERR counts it, and the channel may become error passive. -/
  | millRxError (ch : Fin 2) (amount : Fin 9)
  /-- MILL_HEARTBEAT_ABSENT (R286). The partner's mill-bus heartbeat has been absent for 2.5 ms, which clears mill_hb_seen and may complete the silent-path takeover conditions. -/
  | millHeartbeatAbsent
  /-- ARBITRATING_WINDOW_START (R379). The arbitrating window of a basic cycle opens at arb_start, and pending event-triggered messages may start contending. -/
  | arbitratingWindowStart (ch : Fin 2)
  /-- ARBITRATING_WINDOW_END (R379). The arbitrating window closes at arb_end, and no event-triggered message may start after it. -/
  | arbitratingWindowEnd (ch : Fin 2)
  /-- MSIX_FUNCTION_UNMASK (R339). The host clears the MSI-X function mask in configuration space, and pending vector messages are sent. -/
  | msixFunctionUnmask
  /-- PARTNER_SILENT_WAKE (R456). PLY_TOK_IN has read SILENT for 1 ms after being ACTIVE, and wake source 4 wakes the module from a lower rung. -/
  | partnerSilentWake
  /-- COMMANDED_COLD_START (R460). 10 ms after a commanded cold start turned off every domain except PD_KEEP, the cold-start sequence begins. -/
  | commandedColdStart
  /-- HOST_LINK_TRAINED (R337). The PCIe link completes training, or changes speed or width, which updates HOST_STATUS and raises event source 8. -/
  | hostLinkTrained (speed : Fin 7) (width : LinkWidth) (l1 : Bool)
  deriving DecidableEq, Repr

end Sys2Proof
end

