-- ==== Sys2Proof/Config.lean ====
section
/-! DEFINITION. What a build or a unit fixes and the spec leaves open: constants without a body, so that no
proof can see a value of them. A free value is one of them applied to the counter State.fresh. -/

namespace Sys2Proof.Config

/-- A free value: a number that the spec leaves open (applied to State.fresh). [log 7 DESIGN CHOICE] -/
opaque freeNat : Nat → Nat
/-- A free bit string of bytes (applied to State.fresh). -/
opaque freeBytes : Nat → Bytes
/-- The module identity, set at manufacture (R359). [log 12 DESIGN CHOICE] -/
opaque moduleIdent : BitVec 64
/-- ID_BUILD bits 15:0, set at manufacture (R359): revision and die stepping. [log 12 DESIGN CHOICE] -/
opaque idBuild : BitVec 16
/-- ID_MADE, the date of manufacture (R359). [log 12 DESIGN CHOICE] -/
opaque idMade : BitVec 32
/-- SHA-384 of a byte string: the spec names the function and the model does not compute it. [log 11 DESIGN CHOICE] -/
opaque sha384 : Bytes → Bytes
/-- Does an ECDSA P-384 signature check under the maker's key of that index? The spec gives no key.
[log 11 DESIGN CHOICE] -/
opaque signatureOk : Nat → Bytes → Bytes → Bool
/-- The firmware that a module is shipped with in slot 0 (R428): its manifest and its parts. [log 12 DESIGN CHOICE] -/
opaque shippedManifest : Bytes
/-- [log 12 DESIGN CHOICE] -/
opaque shippedPart : Nat → Bytes
/-- The level of each boundary-scan cell as sampled at the pins (R410), by sample. [log 91 DEDUCED] -/
opaque scanCells : Nat → List Bool

/-- The sample that a module frame carries at an index of a station that no slot names (station, index).
[log 7 DESIGN CHOICE, 14 DESIGN CHOICE] -/
opaque unmappedSample : Nat → Nat → Sample
/-- The base identifier ref_id of the reference message (R381): no register of the spec holds it.
[log 71 DESIGN CHOICE] -/
opaque refId : Nat

end Sys2Proof.Config
end

