-- ==== Sys2Proof/Machine/Bits.lean ====
section
/-! DEFINITION. Numbers and bytes: byte orders, signed fields, the rounding and saturation of R128, the seal of
R389 and the packing of samples of R80. -/

namespace Sys2Proof.Machine

/-- `len` bytes of a number, most significant first. -/
def beBytes : Nat → Nat → Bytes
  | 0, _ => []
  | len + 1, n => BitVec.ofNat 8 (n >>> (8 * len)) :: beBytes len n

/-- `len` bytes of a number, least significant first. -/
def leBytes : Nat → Nat → Bytes
  | 0, _ => []
  | len + 1, n => BitVec.ofNat 8 n :: leBytes len (n >>> 8)

/-- The number of bytes most significant first. -/
def beNat (b : Bytes) : Nat := b.foldl (fun a x => a * 256 + x.toNat) 0

/-- The number of bytes least significant first. -/
def leNat : Bytes → Nat
  | [] => 0
  | x :: b => x.toNat + 256 * leNat b

/-- `len` bytes from an index, zeros past the end. -/
def slice (b : Bytes) (i len : Nat) : Bytes :=
  let t := (b.drop i).take len
  t ++ List.replicate (len - t.length) 0

/-- A big-endian field of a byte string. -/
def beAt (b : Bytes) (i len : Nat) : Nat := beNat (slice b i len)

/-- A little-endian field of a byte string. -/
def leAt (b : Bytes) (i len : Nat) : Nat := leNat (slice b i len)

/-- A byte of a string as a number, 0 past its end. -/
def byteAt (b : Bytes) (i : Nat) : Nat := ((b[i]?).getD 0).toNat

/-- Bits hi downto lo of a number. -/
def bitsOf (n hi lo : Nat) : Nat := (n >>> lo) % 2 ^ (hi + 1 - lo)

/-- Is bit i of a number 1? -/
def bitOf (n i : Nat) : Bool := (n >>> i) % 2 == 1

/-- A Boolean as a bit. -/
def bit (b : Bool) : Nat := if b then 1 else 0

/-- A number with bit i set, or cleared. -/
def setBit (n i : Nat) (b : Bool) : Nat :=
  if b then n ||| (1 <<< i) else if bitOf n i then n - (1 <<< i) else n

/-- The bits of a with those of b cleared. -/
def clearBits (a b : Nat) : Nat := a - (a &&& b)

/-- The signed value of the low w bits of a number. -/
def sextNat (w n : Nat) : Int :=
  let m := n % 2 ^ w
  if 2 * m < 2 ^ w then (m : Int) else (m : Int) - (2 ^ w : Nat)

/-- The low w bits of a signed number. -/
def toBits (w : Nat) (i : Int) : Nat := (i % ((2 ^ w : Nat) : Int)).toNat

/-- ceil(a / b). -/
def ceilDiv (a b : Nat) : Nat := (a + b - 1) / b

/-- Saturation to a signed width (R128). -/
def satI (w : Nat) (x : Int) : Int :=
  min (max x (-((2 ^ (w - 1) : Nat) : Int))) (((2 ^ (w - 1) : Nat) : Int) - 1)

/-- sat18 of R128. -/
def sat18 (x : Int) : Int := satI 18 x

/-- sat36 of R128. -/
def sat36 (x : Int) : Int := satI 36 x

/-- sat54 of R180. -/
def sat54 (x : Int) : Int := satI 54 x

/-- The sign of a number. -/
def signOf (x : Int) : Int := if x < 0 then -1 else if x = 0 then 0 else 1

/-- rsh of R128: division by 2^s, ties away from zero. -/
def rsh (x : Int) (s : Nat) : Int :=
  if s = 0 then x else signOf x * (((x.natAbs + 2 ^ (s - 1)) / 2 ^ s : Nat) : Int)

/-- rdiv of R128: nearest, ties away from zero. [log 48 DEDUCED] -/
def rdiv (a b : Int) : Int :=
  signOf a * signOf b * (((2 * a.natAbs + b.natAbs) / (2 * b.natAbs) : Nat) : Int)

/-- tdiv of R128: toward zero. -/
def tdiv (a b : Int) : Int := signOf a * signOf b * ((a.natAbs / b.natAbs : Nat) : Int)

/-- x × 2^s of a signed number. -/
def shl (x : Int) (s : Nat) : Int := x * ((2 ^ s : Nat) : Int)

/-- The signed value of a sample. -/
def Sample.int (v : Sample) : Int := v.toInt

/-- The sample of a signed value, its low 18 bits. -/
def sampleOf (i : Int) : Sample := BitVec.ofNat 18 (toBits 18 i)

/-- One step of the remainder over one bit. -/
def crcBit (r : Nat) : Nat := if r % 2 = 1 then (r >>> 1) ^^^ 0x82F63B78 else r >>> 1

/-- The remainder after one byte (R389). -/
def crcFeed (r : Nat) (d : Byte) : Nat :=
  crcBit (crcBit (crcBit (crcBit (crcBit (crcBit (crcBit (crcBit (r ^^^ d.toNat))))))))

/-- The remainder after bytes. -/
def crcRun (r : Nat) (b : Bytes) : Nat := b.foldl crcFeed r

/-- The seal of a byte string (R389). -/
def crc32c (b : Bytes) : Nat := crcRun 0xFFFFFFFF b ^^^ 0xFFFFFFFF

/-- A byte string with its seal appended, least significant byte first. -/
def sealed (b : Bytes) : Bytes := b ++ leBytes 4 (crc32c b)

/-- Does the seal at the end of a byte string check? -/
def sealOk (b : Bytes) : Bool :=
  4 ≤ b.length && crc32c (b.take (b.length - 4)) == leNat (b.drop (b.length - 4))

/-- Bytes of a payload of s samples (R80). -/
def payBytes (s : Nat) : Nat := ceilDiv (9 * s) 4

/-- The payload of samples (R80): 18 bits each, most significant first, padded with zero bits. -/
def packSamples (vs : List Sample) : Bytes :=
  let n := vs.foldl (fun a v => a * 2 ^ 18 + v.toNat) 0
  let len := payBytes vs.length
  beBytes len (n <<< (8 * len - 18 * vs.length))

/-- Sample i of a payload (R80). -/
def unpackSample (b : Bytes) (i : Nat) : Sample :=
  BitVec.ofNat 18 (beNat b >>> (8 * b.length - 18 * (i + 1)))

/-- Numbers 0 to n − 1. -/
def upTo (n : Nat) : List Nat := List.range n

/-- The set bits of a number below n. -/
def bitsSet (n x : Nat) : List Nat := (upTo n).filter (fun i => bitOf x i)

end Sys2Proof.Machine
end

