-- ==== Sys2Proof/Machine/Store.lean ====
section
/-! DEFINITION. Sparse maps: a list of key and value pairs, keys strictly rising, no entry equal to what an
unlisted key reads as. Registers, slots, task data and memory are held so. -/

namespace Sys2Proof.Machine

/-- A sparse map from numbers. -/
abbrev SMap (α : Type) := List (Nat × α)

/-- The entry listed at a key. -/
def SMap.find {α : Type} : SMap α → Nat → Option α
  | [], _ => none
  | (k, v) :: m, x => if k = x then some v else SMap.find m x

/-- The value at a key, `d` where the key is not listed. -/
def SMap.getD {α : Type} (m : SMap α) (x : Nat) (d : α) : α := (SMap.find m x).getD d

/-- The map with an entry at a key, before the first listed key above it. -/
def SMap.put {α : Type} : SMap α → Nat → α → SMap α
  | [], x, v => [(x, v)]
  | (k, u) :: m, x, v =>
    if x < k then (x, v) :: (k, u) :: m
    else if k = x then (x, v) :: m
    else (k, u) :: SMap.put m x v

/-- The map without a key. -/
def SMap.del {α : Type} : SMap α → Nat → SMap α
  | [], _ => []
  | (k, u) :: m, x => if k = x then SMap.del m x else (k, u) :: SMap.del m x

/-- A write that keeps the canonical form: writing what an unlisted key reads as removes the entry. -/
def SMap.set {α : Type} [DecidableEq α] (m : SMap α) (x : Nat) (d v : α) : SMap α :=
  if v = d then SMap.del m x else SMap.put m x v

/-- Several entries put one after the other. -/
def SMap.puts {α : Type} (m : SMap α) (l : List (Nat × α)) : SMap α :=
  l.foldl (fun a e => SMap.put a e.1 e.2) m

/-- Is a key listed? -/
def SMap.has {α : Type} (m : SMap α) (x : Nat) : Bool := (SMap.find m x).isSome

/-- Keys strictly rising. -/
def SMap.rising {α : Type} : SMap α → Bool
  | [] => true
  | [_] => true
  | (a, _) :: (b, v) :: m => a < b && SMap.rising ((b, v) :: m)

/-- Every listed entry satisfies a test. -/
def SMap.entries {α : Type} (p : Nat → α → Bool) : SMap α → Bool
  | [] => true
  | (k, v) :: m => p k v && SMap.entries p m

end Sys2Proof.Machine
end

