-- ==== Sys2Proof/Machine/Regs.lean ====
section
/-! DEFINITION. The register fields of the BAR0 setup map: one constant per field of the spec's register
tables (its offset, its lowest bit, its width and its value after a cold start), and the table of all of them,
which a BAR0 access goes through. -/

namespace Sys2Proof.Machine

/-- The access types of R4. -/
inductive Access where
  | ro | rw | wo | w1c | w1s | rwl | stg
  deriving DecidableEq, Repr

/-- One field of one register: BAR0 offset, lowest bit, width and value after a cold start. -/
structure Fld where
  off : Nat
  lo : Nat
  width : Nat
  cold : Nat
  deriving DecidableEq, Repr

/-- The key of a field in a register map. -/
def Fld.key (f : Fld) : Nat := f.off * 32 + f.lo

/-- A row of a register table: the offsets base + s1 × i + s2 × j with i < n1 and j < n2, the bits, the
access type, the cold value, and whether a warm reset keeps the field (its Warm column is no number). -/
structure FieldRow where
  base : Nat
  s1 : Nat
  n1 : Nat
  s2 : Nat
  n2 : Nat
  lo : Nat
  width : Nat
  ty : Access
  cold : Nat
  keep : Bool
  deriving DecidableEq, Repr

/-- The pseudo-offset at which the model keeps word 0 of slot 0's policy: the window of R70 shows it at
0x2_2000 through SLOT_WIN_PAGE. -/
def slotPolBase : Nat := 0x100000

/-- Cold values that depend on a register's index: EVT_REC_EN (R344), BRK_ROW_OUT and BRK_ROW_PORT (R317), and the
fixed triggers of REC_TRIG (R426). -/
def coldAt (off lo dflt : Nat) : Nat :=
  if 0x3010 ≤ off ∧ off < 0x3020 then
    (if off = 0x3010 then 0xFFFF01C0 else if off = 0x3014 then 0x07FFFFFF
     else if off = 0x3018 then 0x07FF01FF else 0x00FFFFFF)
  else if 0x8100 ≤ off ∧ off < 0x8200 then
    let s := (off - 0x8100) / 8
    if (off - 0x8100) % 8 = 0 then
      (if lo = 0 ∧ ((16 ≤ s ∧ s ≤ 19) ∨ s = 24) then 0xFF else dflt)
    else (if 16 ≤ s ∧ s ≤ 19 then 0xFFFF else dflt)
  else if 0xD100 + 4 * 56 ≤ off ∧ off < 0xD200 then (if lo = 0 then 1 else dflt)
  else dflt

/-- The bits of a field that a write can change: all of them but for EVT_REC_EN's reserved sources (R344),
the fixed rows of the brake matrix (R317) and the fixed triggers of the recorder (R426). -/
def writeMask (off lo width : Nat) : Nat :=
  if 0x3010 ≤ off ∧ off < 0x3020 then coldAt off 0 0
  else if 0x8100 ≤ off ∧ off < 0x8200 then
    let s := (off - 0x8100) / 8
    if (off - 0x8100) % 8 = 0 then
      (if lo = 8 ∧ ((16 ≤ s ∧ s ≤ 19) ∨ 24 ≤ s) then 0 else 2 ^ width - 1)
    else (if (16 ≤ s ∧ s ≤ 19) ∨ 24 ≤ s then 0 else 2 ^ width - 1)
  else if 0xD100 + 4 * 56 ≤ off ∧ off < 0xD200 then (if lo ≤ 1 then 0 else 2 ^ width - 1)
  else 2 ^ width - 1

/-- The field of a row at an offset. -/
def FieldRow.fld (r : FieldRow) (off : Nat) : Fld := ⟨off, r.lo, r.width, coldAt off r.lo r.cold⟩

/-- Does a row cover an offset? -/
def FieldRow.covers (r : FieldRow) (off : Nat) : Bool :=
  r.base ≤ off &&
    (if r.n2 = 1 then
      (if r.n1 = 1 then off == r.base else (off - r.base) % r.s1 == 0 && (off - r.base) / r.s1 < r.n1)
    else if r.s1 = 0 then (off - r.base) % r.s2 == 0 && (off - r.base) / r.s2 < r.n2
    else (off - r.base) / r.s1 < r.n1 && (off - r.base) % r.s1 % r.s2 == 0 &&
      (off - r.base) % r.s1 / r.s2 < r.n2)

namespace F

/-! R47, 02_the_turn.md. -/
/-- TURN_LENGTH.turn_ns, STG. -/
def TURN_LENGTH_turn_ns : Fld := ⟨16384, 0, 20, 10000⟩
/-- TURN_LATENCY.n_turns, STG. -/
def TURN_LATENCY_n_turns : Fld := ⟨16388, 0, 3, 2⟩
/-- TURN_LATENCY.phi_ns, STG. -/
def TURN_LATENCY_phi_ns : Fld := ⟨16388, 4, 20, 0⟩
/-- INPUT_CUTOFF.cutoff_ns, STG. -/
def INPUT_CUTOFF_cutoff_ns : Fld := ⟨16392, 0, 20, 4000⟩
/-- RELEASE_PHASE.release_ns, STG. -/
def RELEASE_PHASE_release_ns : Fld := ⟨16396, 0, 20, 2000⟩
/-- TURN_NUMBER_LO.turn_lo, RO. -/
def TURN_NUMBER_LO_turn_lo : Fld := ⟨16400, 0, 32, 0⟩
/-- TURN_NUMBER_HI.turn_hi, RO. -/
def TURN_NUMBER_HI_turn_hi : Fld := ⟨16404, 0, 32, 0⟩
/-- TURN_PHASE_NOW.phase_ns, RO. -/
def TURN_PHASE_NOW_phase_ns : Fld := ⟨16408, 0, 20, 0⟩
/-- TURN_STATUS.running, RO. -/
def TURN_STATUS_running : Fld := ⟨16412, 0, 1, 0⟩
/-- TURN_STATUS.adopted, RO. -/
def TURN_STATUS_adopted : Fld := ⟨16412, 1, 1, 0⟩
/-- TURN_ORIGIN.origin, RO. -/
def TURN_ORIGIN_origin (i : Nat) : Fld := ⟨16416 + 4 * i, 0, 32, 0⟩
/-- ORIGIN_TURN_LO.k_origin, RO. -/
def ORIGIN_TURN_LO_k_origin : Fld := ⟨16432, 0, 32, 0⟩
/-- ORIGIN_TURN_HI.k_origin, RO. -/
def ORIGIN_TURN_HI_k_origin : Fld := ⟨16436, 0, 32, 0⟩
/-- SLACK_TARGET.target_ns, STG. -/
def SLACK_TARGET_target_ns : Fld := ⟨16448, 0, 16, 0⟩
/-- SLACK_TARGET.hyst_ns, STG. -/
def SLACK_TARGET_hyst_ns : Fld := ⟨16448, 16, 16, 50⟩
/-- SLACK_WARN.warn_ns, STG. -/
def SLACK_WARN_warn_ns : Fld := ⟨16452, 0, 16, 0⟩
/-- VCORE_STATUS.vcore_mv, RO. -/
def VCORE_STATUS_vcore_mv : Fld := ⟨16456, 0, 10, 600⟩
/-- VCORE_STATUS.at_floor, RO. -/
def VCORE_STATUS_at_floor : Fld := ⟨16456, 10, 1, 1⟩
/-- VCORE_STATUS.at_ceiling, RO. -/
def VCORE_STATUS_at_ceiling : Fld := ⟨16456, 11, 1, 0⟩
/-- SLACK_CLEAR.clear_min, WO. -/
def SLACK_CLEAR_clear_min : Fld := ⟨16460, 0, 1, 0⟩
/-- SLACK_CLEAR.clear_slips, WO. -/
def SLACK_CLEAR_clear_slips : Fld := ⟨16460, 1, 1, 0⟩
/-- SLACK_FLAGS.task_warn, W1C. -/
def SLACK_FLAGS_task_warn : Fld := ⟨16464, 0, 16, 0⟩
/-- SLACK_FLAGS.wheel_warn, W1C. -/
def SLACK_FLAGS_wheel_warn : Fld := ⟨16464, 16, 8, 0⟩
/-- SLACK_TASK_LAST.slack_ns, RO. -/
def SLACK_TASK_LAST_slack_ns (i : Nat) : Fld := ⟨16512 + 4 * i, 0, 32, 4294967295⟩
/-- SLACK_WHEEL_LAST.slack_ns, RO. -/
def SLACK_WHEEL_LAST_slack_ns (i : Nat) : Fld := ⟨16640 + 4 * i, 0, 32, 4294967295⟩
/-- SLACK_TASK_MIN.slack_ns, RO. -/
def SLACK_TASK_MIN_slack_ns (i : Nat) : Fld := ⟨16576 + 4 * i, 0, 32, 4294967295⟩
/-- SLACK_WHEEL_MIN.slack_ns, RO. -/
def SLACK_WHEEL_MIN_slack_ns (i : Nat) : Fld := ⟨16672 + 4 * i, 0, 32, 4294967295⟩
/-- SLIP_TASK.slips, RO. -/
def SLIP_TASK_slips (i : Nat) : Fld := ⟨16704 + 4 * i, 0, 16, 0⟩
/-- SLIP_WHEEL.slips, RO. -/
def SLIP_WHEEL_slips (i : Nat) : Fld := ⟨16768 + 4 * i, 0, 16, 0⟩
/-- SLIP_TASK.last_slipped, RO. -/
def SLIP_TASK_last_slipped (i : Nat) : Fld := ⟨16704 + 4 * i, 16, 1, 0⟩
/-- SLIP_WHEEL.last_slipped, RO. -/
def SLIP_WHEEL_last_slipped (i : Nat) : Fld := ⟨16768 + 4 * i, 16, 1, 0⟩
/-- FAULT_RECORD.kind, RO. -/
def FAULT_RECORD_kind : Fld := ⟨16800, 0, 2, 0⟩
/-- FAULT_RECORD.unit_class, RO. -/
def FAULT_RECORD_unit_class : Fld := ⟨16800, 2, 2, 0⟩
/-- FAULT_RECORD.unit, RO. -/
def FAULT_RECORD_unit : Fld := ⟨16800, 4, 7, 0⟩
/-- FAULT_TURN_LO.fault_turn, RO. -/
def FAULT_TURN_LO_fault_turn : Fld := ⟨16804, 0, 32, 0⟩
/-- FAULT_TURN_HI.fault_turn, RO. -/
def FAULT_TURN_HI_fault_turn : Fld := ⟨16808, 0, 32, 0⟩
/-! R70, 03_signal_image.md. -/
/-- STATION_MAP_0.present, STG. -/
def STATION_MAP_0_present (i : Nat) : Fld := ⟨131072 + 16 * i, 0, 1, 0⟩
/-- STATION_MAP_0.in_samples, STG. -/
def STATION_MAP_0_in_samples (i : Nat) : Fld := ⟨131072 + 16 * i, 1, 11, 0⟩
/-- STATION_MAP_0.out_samples, STG. -/
def STATION_MAP_0_out_samples (i : Nat) : Fld := ⟨131072 + 16 * i, 12, 11, 0⟩
/-- STATION_MAP_0.rate_n, STG. -/
def STATION_MAP_0_rate_n (i : Nat) : Fld := ⟨131072 + 16 * i, 23, 5, 0⟩
/-- STATION_MAP_1.expect_id, STG. -/
def STATION_MAP_1_expect_id (i : Nat) : Fld := ⟨131076 + 16 * i, 0, 16, 0⟩
/-- STATION_MAP_1.holdoff, STG. -/
def STATION_MAP_1_holdoff (i : Nat) : Fld := ⟨131076 + 16 * i, 16, 8, 0⟩
/-- STATION_MAP_2.fwd_ns, STG. -/
def STATION_MAP_2_fwd_ns (i : Nat) : Fld := ⟨131080 + 16 * i, 0, 16, 0⟩
/-- SLOT_WIN_PAGE.page, RW. -/
def SLOT_WIN_PAGE_page : Fld := ⟨135168, 0, 7, 0⟩
/-- SLOT_POL_0.kind, STG. -/
def SLOT_POL_0_kind (i : Nat) : Fld := ⟨1048576 + 16 * i, 0, 3, 0⟩
/-- SLOT_POL_0.policy, STG. -/
def SLOT_POL_0_policy (i : Nat) : Fld := ⟨1048576 + 16 * i, 3, 2, 0⟩
/-- SLOT_POL_0.age_limit, STG. -/
def SLOT_POL_0_age_limit (i : Nat) : Fld := ⟨1048576 + 16 * i, 5, 8, 0⟩
/-- SLOT_POL_0.brake_src, STG. -/
def SLOT_POL_0_brake_src (i : Nat) : Fld := ⟨1048576 + 16 * i, 13, 3, 0⟩
/-- SLOT_POL_0.pub, STG. -/
def SLOT_POL_0_pub (i : Nat) : Fld := ⟨1048576 + 16 * i, 16, 1, 0⟩
/-- SLOT_POL_0.pub_index, STG. -/
def SLOT_POL_0_pub_index (i : Nat) : Fld := ⟨1048576 + 16 * i, 17, 12, 0⟩
/-- SLOT_POL_0.lock_ok, STG. -/
def SLOT_POL_0_lock_ok (i : Nat) : Fld := ⟨1048576 + 16 * i, 29, 1, 0⟩
/-- SLOT_POL_SUBST.subst, STG. -/
def SLOT_POL_SUBST_subst (i : Nat) : Fld := ⟨1048580 + 16 * i, 0, 18, 0⟩
/-- SLOT_POL_SAFE.safe, STG. -/
def SLOT_POL_SAFE_safe (i : Nat) : Fld := ⟨1048584 + 16 * i, 0, 18, 0⟩
/-- SLOT_POL_SRC.peer, STG. -/
def SLOT_POL_SRC_peer (i : Nat) : Fld := ⟨1048588 + 16 * i, 0, 8, 0⟩
/-- SLOT_POL_SRC.index, STG. -/
def SLOT_POL_SRC_index (i : Nat) : Fld := ⟨1048588 + 16 * i, 8, 12, 0⟩
/-! R102, 04_skein_links.md. -/
/-- SK_CTRL.enable, STG. -/
def SK_CTRL_enable (i : Nat) : Fld := ⟨65536 + 4096 * i, 0, 1, 0⟩
/-- SK_CTRL.echo_en, RW. -/
def SK_CTRL_echo_en (i : Nat) : Fld := ⟨65536 + 4096 * i, 1, 1, 1⟩
/-- SK_CTRL.clear_cnt, WO. -/
def SK_CTRL_clear_cnt (i : Nat) : Fld := ⟨65536 + 4096 * i, 2, 1, 0⟩
/-- SK_BUDGET.emit_ns, STG. -/
def SK_BUDGET_emit_ns (i : Nat) : Fld := ⟨65540 + 4096 * i, 0, 10, 0⟩
/-- SK_BUDGET.seg_ns, STG. -/
def SK_BUDGET_seg_ns (i : Nat) : Fld := ⟨65540 + 4096 * i, 10, 10, 0⟩
/-- SK_BUDGET.setup_ns, STG. -/
def SK_BUDGET_setup_ns (i : Nat) : Fld := ⟨65540 + 4096 * i, 20, 10, 0⟩
/-- SK_STATUS.link, RO. -/
def SK_STATUS_link (i : Nat) : Fld := ⟨65544 + 4096 * i, 0, 2, 0⟩
/-- SK_STATUS.chain, RO. -/
def SK_STATUS_chain (i : Nat) : Fld := ⟨65544 + 4096 * i, 2, 2, 0⟩
/-- SK_STATUS.reached, RO. -/
def SK_STATUS_reached (i : Nat) : Fld := ⟨65544 + 4096 * i, 4, 5, 0⟩
/-- SK_STATUS.bridging, RO. -/
def SK_STATUS_bridging (i : Nat) : Fld := ⟨65544 + 4096 * i, 9, 1, 0⟩
/-- SK_STATUS.proxy, RO. -/
def SK_STATUS_proxy (i : Nat) : Fld := ⟨65544 + 4096 * i, 10, 1, 0⟩
/-- SK_STATUS.over_budget, RO. -/
def SK_STATUS_over_budget (i : Nat) : Fld := ⟨65544 + 4096 * i, 11, 1, 0⟩
/-- SK_EVT_STATUS.evt, W1C. -/
def SK_EVT_STATUS_evt (i : Nat) : Fld := ⟨65548 + 4096 * i, 0, 10, 0⟩
/-- SK_EVT_ENABLE.en, RW. -/
def SK_EVT_ENABLE_en (i : Nat) : Fld := ⟨65552 + 4096 * i, 0, 10, 1023⟩
/-- SK_D_IN.ps, RO. -/
def SK_D_IN_ps (i : Nat) : Fld := ⟨65556 + 4096 * i, 0, 32, 0⟩
/-- SK_D_OUT.ps, RO. -/
def SK_D_OUT_ps (i : Nat) : Fld := ⟨65560 + 4096 * i, 0, 32, 0⟩
/-- SK_OWD_FAR.owd, RO. -/
def SK_OWD_FAR_owd (i : Nat) : Fld := ⟨65564 + 4096 * i, 0, 32, 0⟩
/-- SK_OWD_NEAR.owd, RO. -/
def SK_OWD_NEAR_owd (i : Nat) : Fld := ⟨65568 + 4096 * i, 0, 32, 0⟩
/-- SK_CNT.count, RO. -/
def SK_CNT_count (i j : Nat) : Fld := ⟨65600 + 4096 * i + 4 * j, 0, 32, 0⟩
/-- SK_STN_STATE.state, RO. -/
def SK_STN_STATE_state (i j : Nat) : Fld := ⟨65792 + 4096 * i + 16 * j, 0, 3, 0⟩
/-- SK_STN_STATE.direct, RO. -/
def SK_STN_STATE_direct (i j : Nat) : Fld := ⟨65792 + 4096 * i + 16 * j, 3, 1, 0⟩
/-- SK_STN_STATE.safe, RO. -/
def SK_STN_STATE_safe (i j : Nat) : Fld := ⟨65792 + 4096 * i + 16 * j, 4, 1, 0⟩
/-- SK_STN_STATE.missed, RO. -/
def SK_STN_STATE_missed (i j : Nat) : Fld := ⟨65792 + 4096 * i + 16 * j, 8, 8, 0⟩
/-- SK_STN_RTT.rtt, RO. -/
def SK_STN_RTT_rtt (i j : Nat) : Fld := ⟨65796 + 4096 * i + 16 * j, 0, 32, 0⟩
/-- SK_STN_DELAY.delay, RO. -/
def SK_STN_DELAY_delay (i j : Nat) : Fld := ⟨65800 + 4096 * i + 16 * j, 0, 32, 4294967295⟩
/-- SK_STN_IDENT.ident, RO. -/
def SK_STN_IDENT_ident (i j : Nat) : Fld := ⟨65804 + 4096 * i + 16 * j, 0, 16, 0⟩
/-! R126, 05_tasks.md. -/
/-- TASK_RUN.run_state, RO. -/
def TASK_RUN_run_state : Fld := ⟨16896, 0, 2, 0⟩
/-- TASK_RUN.overrun_task, RO. -/
def TASK_RUN_overrun_task : Fld := ⟨16896, 4, 4, 0⟩
/-- TASK_RUN.overrun_valid, RO. -/
def TASK_RUN_overrun_valid : Fld := ⟨16896, 8, 1, 0⟩
/-- KEY_STATUS.raw, RO. -/
def KEY_STATUS_raw : Fld := ⟨16900, 0, 4, 0⟩
/-- KEY_STATUS.valid, RO. -/
def KEY_STATUS_valid : Fld := ⟨16900, 4, 1, 0⟩
/-- KEY_STATUS.local, RO. -/
def KEY_STATUS_local : Fld := ⟨16900, 5, 2, 0⟩
/-- KEY_STATUS.effective, RO. -/
def KEY_STATUS_effective : Fld := ⟨16900, 7, 2, 0⟩
/-- KEY_STATUS.partner, RO. -/
def KEY_STATUS_partner : Fld := ⟨16900, 9, 2, 0⟩
/-- KEY_STATUS.partner_valid, RO. -/
def KEY_STATUS_partner_valid : Fld := ⟨16900, 11, 1, 0⟩
/-- KEY_STATUS.disagree, RO. -/
def KEY_STATUS_disagree : Fld := ⟨16900, 12, 1, 0⟩
/-- KEY_STATUS.invalid_lock, RO. -/
def KEY_STATUS_invalid_lock : Fld := ⟨16900, 13, 1, 0⟩
/-- KEY_EVT.changed, W1C. -/
def KEY_EVT_changed : Fld := ⟨16904, 0, 1, 0⟩
/-- KEY_EVT.invalid, W1C. -/
def KEY_EVT_invalid : Fld := ⟨16904, 1, 1, 0⟩
/-- KEY_EVT.disagree, W1C. -/
def KEY_EVT_disagree : Fld := ⟨16904, 2, 1, 0⟩
/-- TURN_WDOG.armed, RO. -/
def TURN_WDOG_armed : Fld := ⟨16908, 0, 1, 0⟩
/-- TURN_WDOG.tripped, RO. -/
def TURN_WDOG_tripped : Fld := ⟨16908, 1, 1, 0⟩
/-- TURN_WDOG.trips, RO. -/
def TURN_WDOG_trips : Fld := ⟨16908, 8, 8, 0⟩
/-- RETAIN_STATUS.bytes, RO. -/
def RETAIN_STATUS_bytes : Fld := ⟨16912, 0, 19, 0⟩
/-- RETAIN_STATUS.copy, RO. -/
def RETAIN_STATUS_copy : Fld := ⟨16912, 19, 1, 0⟩
/-- RETAIN_STATUS.flush_err, RO. -/
def RETAIN_STATUS_flush_err : Fld := ⟨16912, 20, 1, 0⟩
/-- RETAIN_CTRL.flush_now, WO. -/
def RETAIN_CTRL_flush_now : Fld := ⟨16916, 0, 1, 0⟩
/-- TASK_CTRL.enable, STG. -/
def TASK_CTRL_enable (i : Nat) : Fld := ⟨17408 + 32 * i, 0, 1, 0⟩
/-- TASK_CTRL.rate_n, STG. -/
def TASK_CTRL_rate_n (i : Nat) : Fld := ⟨17408 + 32 * i, 1, 5, 0⟩
/-- TASK_CTRL.program, STG. -/
def TASK_CTRL_program (i : Nat) : Fld := ⟨17408 + 32 * i, 8, 4, 0⟩
/-- TASK_SPINDLES.mask, STG. -/
def TASK_SPINDLES_mask (i : Nat) : Fld := ⟨17412 + 32 * i, 0, 32, 0⟩
/-- TASK_STATUS.state, RO. -/
def TASK_STATUS_state (i : Nat) : Fld := ⟨17416 + 32 * i, 0, 3, 0⟩
/-- TASK_STATUS.overran, RO. -/
def TASK_STATUS_overran (i : Nat) : Fld := ⟨17416 + 32 * i, 3, 1, 0⟩
/-- TASK_STATUS.local_overrun, RO. -/
def TASK_STATUS_local_overrun (i : Nat) : Fld := ⟨17416 + 32 * i, 4, 1, 0⟩
/-- TASK_EVT.slip, W1C. -/
def TASK_EVT_slip (i : Nat) : Fld := ⟨17420 + 32 * i, 0, 1, 0⟩
/-- TASK_EVT.overrun, W1C. -/
def TASK_EVT_overrun (i : Nat) : Fld := ⟨17420 + 32 * i, 1, 1, 0⟩
/-- TASK_EVT.trap, W1C. -/
def TASK_EVT_trap (i : Nat) : Fld := ⟨17420 + 32 * i, 2, 1, 0⟩
/-- TASK_EVT.halted, W1C. -/
def TASK_EVT_halted (i : Nat) : Fld := ⟨17420 + 32 * i, 3, 1, 0⟩
/-- TASK_EVT.started, W1C. -/
def TASK_EVT_started (i : Nat) : Fld := ⟨17420 + 32 * i, 4, 1, 0⟩
/-- TASK_EVT_ENABLE.en, RW. -/
def TASK_EVT_ENABLE_en (i : Nat) : Fld := ⟨17424 + 32 * i, 0, 5, 31⟩
/-- TASK_WCET.wcet_ns, RO. -/
def TASK_WCET_wcet_ns (i : Nat) : Fld := ⟨17428 + 32 * i, 0, 32, 0⟩
/-- TASK_COUNT_LO.count, RO. -/
def TASK_COUNT_LO_count (i : Nat) : Fld := ⟨17432 + 32 * i, 0, 32, 0⟩
/-- TASK_COUNT_HI.count, RO. -/
def TASK_COUNT_HI_count (i : Nat) : Fld := ⟨17436 + 32 * i, 0, 32, 0⟩
/-! R151, 06_twist_code.md. -/
/-- PROG_STATUS.active, RO. -/
def PROG_STATUS_active (i : Nat) : Fld := ⟨17920 + 16 * i, 0, 2, 0⟩
/-- PROG_STATUS.staged, RO. -/
def PROG_STATUS_staged (i : Nat) : Fld := ⟨17920 + 16 * i, 2, 2, 0⟩
/-- PROG_STATUS.strands, RO. -/
def PROG_STATUS_strands (i : Nat) : Fld := ⟨17920 + 16 * i, 4, 4, 0⟩
/-- PROG_STATUS.trap_action, RO. -/
def PROG_STATUS_trap_action (i : Nat) : Fld := ⟨17920 + 16 * i, 8, 1, 0⟩
/-- PROG_STATUS.refusal, RO. -/
def PROG_STATUS_refusal (i : Nat) : Fld := ⟨17920 + 16 * i, 16, 8, 0⟩
/-- PROG_ID_LO.ident, RO. -/
def PROG_ID_LO_ident (i : Nat) : Fld := ⟨17924 + 16 * i, 0, 32, 0⟩
/-- PROG_ID_HI.ident, RO. -/
def PROG_ID_HI_ident (i : Nat) : Fld := ⟨17928 + 16 * i, 0, 32, 0⟩
/-- PROG_SIZE.code_words, RO. -/
def PROG_SIZE_code_words (i : Nat) : Fld := ⟨17932 + 16 * i, 0, 18, 0⟩
/-- TRAP_INFO.code, RO. -/
def TRAP_INFO_code (i : Nat) : Fld := ⟨18176 + 16 * i, 0, 4, 0⟩
/-- TRAP_INFO.strand, RO. -/
def TRAP_INFO_strand (i : Nat) : Fld := ⟨18176 + 16 * i, 4, 3, 0⟩
/-- TRAP_INFO.user, RO. -/
def TRAP_INFO_user (i : Nat) : Fld := ⟨18176 + 16 * i, 8, 8, 0⟩
/-- TRAP_INFO.judged, RO. -/
def TRAP_INFO_judged (i : Nat) : Fld := ⟨18176 + 16 * i, 16, 2, 0⟩
/-- TRAP_PC.pc, RO. -/
def TRAP_PC_pc (i : Nat) : Fld := ⟨18180 + 16 * i, 0, 14, 0⟩
/-- TRAP_TURN_LO.turn, RO. -/
def TRAP_TURN_LO_turn (i : Nat) : Fld := ⟨18184 + 16 * i, 0, 32, 0⟩
/-- TRAP_TURN_HI.turn, RO. -/
def TRAP_TURN_HI_turn (i : Nat) : Fld := ⟨18188 + 16 * i, 0, 32, 0⟩
/-! R169, 07_online_change.md. -/
/-- ONLINE_STATUS.state, RO. -/
def ONLINE_STATUS_state : Fld := ⟨18432, 0, 2, 0⟩
/-- ONLINE_STATUS.last_abandoned, RO. -/
def ONLINE_STATUS_last_abandoned : Fld := ⟨18432, 2, 1, 0⟩
/-- ONLINE_STATUS.reason, RO. -/
def ONLINE_STATUS_reason : Fld := ⟨18432, 3, 2, 0⟩
/-- ONLINE_STATUS.changed, RO. -/
def ONLINE_STATUS_changed : Fld := ⟨18432, 16, 16, 0⟩
/-- ONLINE_TURN_LO.b, RO. -/
def ONLINE_TURN_LO_b : Fld := ⟨18436, 0, 32, 0⟩
/-- ONLINE_TURN_HI.b, RO. -/
def ONLINE_TURN_HI_b : Fld := ⟨18440, 0, 32, 0⟩
/-- ONLINE_PENDING.pending, RO. -/
def ONLINE_PENDING_pending : Fld := ⟨18444, 0, 16, 0⟩
/-- ONLINE_CARRY.carried, RO. -/
def ONLINE_CARRY_carried (i : Nat) : Fld := ⟨18496 + 4 * i, 0, 8, 0⟩
/-- ONLINE_CARRY.new, RO. -/
def ONLINE_CARRY_new (i : Nat) : Fld := ⟨18496 + 4 * i, 8, 8, 0⟩
/-- ONLINE_CARRY.dropped, RO. -/
def ONLINE_CARRY_dropped (i : Nat) : Fld := ⟨18496 + 4 * i, 16, 8, 0⟩
/-- ONLINE_CARRY.changed, RO. -/
def ONLINE_CARRY_changed (i : Nat) : Fld := ⟨18496 + 4 * i, 24, 6, 0⟩
/-- ONLINE_CARRY.valid, RO. -/
def ONLINE_CARRY_valid (i : Nat) : Fld := ⟨18496 + 4 * i, 31, 1, 0⟩
/-- ONLINE_WORDS.words, RO. -/
def ONLINE_WORDS_words (i : Nat) : Fld := ⟨18560 + 4 * i, 0, 17, 0⟩
/-! R196, 08_wheel_loops.md. -/
/-- LOOP_CTRL.enable, STG. -/
def LOOP_CTRL_enable (i : Nat) : Fld := ⟨262144 + 64 * i, 0, 1, 0⟩
/-- LOOP_CTRL.rate_n, STG. -/
def LOOP_CTRL_rate_n (i : Nat) : Fld := ⟨262144 + 64 * i, 1, 5, 0⟩
/-- LOOP_CTRL.sp_kind, STG. -/
def LOOP_CTRL_sp_kind (i : Nat) : Fld := ⟨262144 + 64 * i, 6, 2, 0⟩
/-- LOOP_CTRL.sp_task, STG. -/
def LOOP_CTRL_sp_task (i : Nat) : Fld := ⟨262144 + 64 * i, 8, 4, 0⟩
/-- LOOP_CTRL.meas_policy, STG. -/
def LOOP_CTRL_meas_policy (i : Nat) : Fld := ⟨262144 + 64 * i, 12, 2, 0⟩
/-- LOOP_CTRL.ovr, STG. -/
def LOOP_CTRL_ovr (i : Nat) : Fld := ⟨262144 + 64 * i, 14, 2, 0⟩
/-- LOOP_CTRL.init_mode, STG. -/
def LOOP_CTRL_init_mode (i : Nat) : Fld := ⟨262144 + 64 * i, 16, 2, 0⟩
/-- LOOP_CTRL.ff_en, STG. -/
def LOOP_CTRL_ff_en (i : Nat) : Fld := ⟨262144 + 64 * i, 18, 1, 0⟩
/-- LOOP_CTRL.casc_en, STG. -/
def LOOP_CTRL_casc_en (i : Nat) : Fld := ⟨262144 + 64 * i, 19, 1, 0⟩
/-- LOOP_CTRL.track_en, STG. -/
def LOOP_CTRL_track_en (i : Nat) : Fld := ⟨262144 + 64 * i, 20, 1, 0⟩
/-- LOOP_CTRL.bumpless_gain, STG. -/
def LOOP_CTRL_bumpless_gain (i : Nat) : Fld := ⟨262144 + 64 * i, 21, 1, 0⟩
/-- LOOP_CTRL.ev_en, STG. -/
def LOOP_CTRL_ev_en (i : Nat) : Fld := ⟨262144 + 64 * i, 22, 1, 0⟩
/-- LOOP_MEAS.meas_slot, STG. -/
def LOOP_MEAS_meas_slot (i : Nat) : Fld := ⟨262148 + 64 * i, 0, 18, 0⟩
/-- LOOP_MEAS.casc_loop, STG. -/
def LOOP_MEAS_casc_loop (i : Nat) : Fld := ⟨262148 + 64 * i, 18, 12, 0⟩
/-- LOOP_SP.sp_slot, STG. -/
def LOOP_SP_sp_slot (i : Nat) : Fld := ⟨262152 + 64 * i, 0, 18, 0⟩
/-- LOOP_SP.pair_loop, STG. -/
def LOOP_SP_pair_loop (i : Nat) : Fld := ⟨262152 + 64 * i, 18, 12, 0⟩
/-- LOOP_OUT.out_slot, STG. -/
def LOOP_OUT_out_slot (i : Nat) : Fld := ⟨262156 + 64 * i, 0, 18, 0⟩
/-- LOOP_OUT.out_rate, STG. -/
def LOOP_OUT_out_rate (i : Nat) : Fld := ⟨262156 + 64 * i, 18, 14, 0⟩
/-- LOOP_FF.ff_slot, STG. -/
def LOOP_FF_ff_slot (i : Nat) : Fld := ⟨262160 + 64 * i, 0, 18, 0⟩
/-- LOOP_FF.sp_rise, STG. -/
def LOOP_FF_sp_rise (i : Nat) : Fld := ⟨262160 + 64 * i, 18, 14, 0⟩
/-- LOOP_TRACK.track_slot, STG. -/
def LOOP_TRACK_track_slot (i : Nat) : Fld := ⟨262164 + 64 * i, 0, 18, 0⟩
/-- LOOP_TRACK.sp_fall, STG. -/
def LOOP_TRACK_sp_fall (i : Nat) : Fld := ⟨262164 + 64 * i, 18, 14, 0⟩
/-- LOOP_KP.m, STG. -/
def LOOP_KP_m (i : Nat) : Fld := ⟨262168 + 64 * i, 0, 18, 0⟩
/-- LOOP_KI.m, STG. -/
def LOOP_KI_m (i : Nat) : Fld := ⟨262172 + 64 * i, 0, 18, 0⟩
/-- LOOP_KD.m, STG. -/
def LOOP_KD_m (i : Nat) : Fld := ⟨262176 + 64 * i, 0, 18, 0⟩
/-- LOOP_KF.m, STG. -/
def LOOP_KF_m (i : Nat) : Fld := ⟨262180 + 64 * i, 0, 18, 0⟩
/-- LOOP_ALPHA.m, STG. -/
def LOOP_ALPHA_m (i : Nat) : Fld := ⟨262184 + 64 * i, 0, 18, 0⟩
/-- LOOP_BW.m, STG. -/
def LOOP_BW_m (i : Nat) : Fld := ⟨262188 + 64 * i, 0, 18, 0⟩
/-- LOOP_KP.e, STG. -/
def LOOP_KP_e (i : Nat) : Fld := ⟨262168 + 64 * i, 18, 6, 0⟩
/-- LOOP_KI.e, STG. -/
def LOOP_KI_e (i : Nat) : Fld := ⟨262172 + 64 * i, 18, 6, 0⟩
/-- LOOP_KD.e, STG. -/
def LOOP_KD_e (i : Nat) : Fld := ⟨262176 + 64 * i, 18, 6, 0⟩
/-- LOOP_KF.e, STG. -/
def LOOP_KF_e (i : Nat) : Fld := ⟨262180 + 64 * i, 18, 6, 0⟩
/-- LOOP_ALPHA.e, STG. -/
def LOOP_ALPHA_e (i : Nat) : Fld := ⟨262184 + 64 * i, 18, 6, 0⟩
/-- LOOP_BW.e, STG. -/
def LOOP_BW_e (i : Nat) : Fld := ⟨262188 + 64 * i, 18, 6, 0⟩
/-- LOOP_I_LO.bound, STG. -/
def LOOP_I_LO_bound (i : Nat) : Fld := ⟨262192 + 64 * i, 0, 18, 0⟩
/-- LOOP_I_HI.bound, STG. -/
def LOOP_I_HI_bound (i : Nat) : Fld := ⟨262196 + 64 * i, 0, 18, 0⟩
/-- LOOP_OUT_LO.limit, STG. -/
def LOOP_OUT_LO_limit (i : Nat) : Fld := ⟨262200 + 64 * i, 0, 18, 0⟩
/-- LOOP_OUT_HI.limit, STG. -/
def LOOP_OUT_HI_limit (i : Nat) : Fld := ⟨262204 + 64 * i, 0, 18, 0⟩
/-! R219, 09_setpoints_and_handover.md. -/
/-- TRACE_EVT.done, W1C. -/
def TRACE_EVT_done : Fld := ⟨524288, 0, 8, 0⟩
/-- TRACE_EVT.lost, W1C. -/
def TRACE_EVT_lost : Fld := ⟨524288, 8, 1, 0⟩
/-- TRACE_EVT_ENABLE.en, RW. -/
def TRACE_EVT_ENABLE_en : Fld := ⟨524292, 0, 9, 511⟩
/-- TRACE_TRIG.kind, RW. -/
def TRACE_TRIG_kind (i : Nat) : Fld := ⟨524544 + 32 * i, 0, 3, 0⟩
/-- TRACE_TRIG.chan, RW. -/
def TRACE_TRIG_chan (i : Nat) : Fld := ⟨524544 + 32 * i, 3, 6, 0⟩
/-- TRACE_TRIG.stream, RW. -/
def TRACE_TRIG_stream (i : Nat) : Fld := ⟨524544 + 32 * i, 9, 1, 0⟩
/-- TRACE_TRIG.ring, RW. -/
def TRACE_TRIG_ring (i : Nat) : Fld := ⟨524544 + 32 * i, 10, 4, 0⟩
/-- TRACE_TRIG.mask, RW. -/
def TRACE_TRIG_mask (i : Nat) : Fld := ⟨524544 + 32 * i, 16, 16, 0⟩
/-- TRACE_LEVEL.level, RW. -/
def TRACE_LEVEL_level (i : Nat) : Fld := ⟨524548 + 32 * i, 0, 32, 0⟩
/-- TRACE_CMD.arm, WO. -/
def TRACE_CMD_arm (i : Nat) : Fld := ⟨524552 + 32 * i, 0, 1, 0⟩
/-- TRACE_CMD.stop, WO. -/
def TRACE_CMD_stop (i : Nat) : Fld := ⟨524552 + 32 * i, 1, 1, 0⟩
/-- TRACE_CMD.force, WO. -/
def TRACE_CMD_force (i : Nat) : Fld := ⟨524552 + 32 * i, 2, 1, 0⟩
/-- TRACE_GSTAT.state, RO. -/
def TRACE_GSTAT_state (i : Nat) : Fld := ⟨524556 + 32 * i, 0, 2, 0⟩
/-- TRACE_GSTAT.arm_err, RO. -/
def TRACE_GSTAT_arm_err (i : Nat) : Fld := ⟨524556 + 32 * i, 4, 3, 0⟩
/-- TRACE_GSTAT.short, RO. -/
def TRACE_GSTAT_short (i : Nat) : Fld := ⟨524556 + 32 * i, 7, 1, 0⟩
/-- TRACE_TRIG_TURN_LO.k_t, RO. -/
def TRACE_TRIG_TURN_LO_k_t (i : Nat) : Fld := ⟨524560 + 32 * i, 0, 32, 0⟩
/-- TRACE_TRIG_TURN_HI.k_t, RO. -/
def TRACE_TRIG_TURN_HI_k_t (i : Nat) : Fld := ⟨524564 + 32 * i, 0, 32, 0⟩
/-- TRACE_SRC.source, RW. -/
def TRACE_SRC_source (i : Nat) : Fld := ⟨528384 + 32 * i, 0, 18, 0⟩
/-- TRACE_SRC.node, RW. -/
def TRACE_SRC_node (i : Nat) : Fld := ⟨528384 + 32 * i, 18, 4, 0⟩
/-- TRACE_SRC.kind, RW. -/
def TRACE_SRC_kind (i : Nat) : Fld := ⟨528384 + 32 * i, 22, 1, 0⟩
/-- TRACE_SRC.group, RW. -/
def TRACE_SRC_group (i : Nat) : Fld := ⟨528384 + 32 * i, 23, 3, 0⟩
/-- TRACE_SRC.dec, RW. -/
def TRACE_SRC_dec (i : Nat) : Fld := ⟨528384 + 32 * i, 26, 4, 0⟩
/-- TRACE_SRC.enable, RW. -/
def TRACE_SRC_enable (i : Nat) : Fld := ⟨528384 + 32 * i, 31, 1, 0⟩
/-- TRACE_SIZE.len, RW. -/
def TRACE_SIZE_len (i : Nat) : Fld := ⟨528388 + 32 * i, 0, 5, 10⟩
/-- TRACE_SIZE.slot_rate_n, RW. -/
def TRACE_SIZE_slot_rate_n (i : Nat) : Fld := ⟨528388 + 32 * i, 5, 5, 0⟩
/-- TRACE_PRE.count, RW. -/
def TRACE_PRE_count (i : Nat) : Fld := ⟨528392 + 32 * i, 0, 24, 0⟩
/-- TRACE_POST.count, RW. -/
def TRACE_POST_count (i : Nat) : Fld := ⟨528396 + 32 * i, 0, 24, 0⟩
/-- TRACE_BASE.base, RW. -/
def TRACE_BASE_base (i : Nat) : Fld := ⟨528400 + 32 * i, 0, 14, 0⟩
/-- TRACE_STATUS.state, RO. -/
def TRACE_STATUS_state (i : Nat) : Fld := ⟨528404 + 32 * i, 0, 2, 0⟩
/-- TRACE_STATUS.ecc, RO. -/
def TRACE_STATUS_ecc (i : Nat) : Fld := ⟨528404 + 32 * i, 2, 1, 0⟩
/-- TRACE_OLDEST.index, RO. -/
def TRACE_OLDEST_index (i : Nat) : Fld := ⟨528408 + 32 * i, 0, 24, 0⟩
/-- TRACE_LOST.count, RO. -/
def TRACE_LOST_count (i : Nat) : Fld := ⟨528412 + 32 * i, 0, 32, 0⟩
/-! R236, 10_board_ring.md. -/
/-- RING_CTRL.enable, STG. -/
def RING_CTRL_enable : Fld := ⟨24576, 0, 1, 1⟩
/-- RING_CTRL.pub_rate_n, STG. -/
def RING_CTRL_pub_rate_n : Fld := ⟨24576, 1, 5, 0⟩
/-- RING_CTRL.lag_ns, STG. -/
def RING_CTRL_lag_ns : Fld := ⟨24576, 8, 16, 2000⟩
/-- RING_POSITION.position, RO. -/
def RING_POSITION_position : Fld := ⟨24580, 0, 4, 0⟩
/-- RING_POSITION.backplane, RO. -/
def RING_POSITION_backplane : Fld := ⟨24580, 4, 2, 0⟩
/-- RING_POSITION.ply_pos, RO. -/
def RING_POSITION_ply_pos : Fld := ⟨24580, 6, 1, 0⟩
/-- RING_POSITION.strap_err, RO. -/
def RING_POSITION_strap_err : Fld := ⟨24580, 7, 1, 0⟩
/-- RING_STATUS.link_e, RO. -/
def RING_STATUS_link_e : Fld := ⟨24584, 0, 2, 0⟩
/-- RING_STATUS.link_w, RO. -/
def RING_STATUS_link_w : Fld := ⟨24584, 2, 2, 0⟩
/-- RING_STATUS.ring, RO. -/
def RING_STATUS_ring : Fld := ⟨24584, 4, 2, 0⟩
/-- RING_STATUS.bypass, RO. -/
def RING_STATUS_bypass : Fld := ⟨24584, 6, 1, 1⟩
/-- RING_STATUS.members, RO. -/
def RING_STATUS_members : Fld := ⟨24584, 7, 5, 0⟩
/-- RING_STATUS.overload, RO. -/
def RING_STATUS_overload : Fld := ⟨24584, 12, 1, 0⟩
/-- RING_STATUS.clash, RO. -/
def RING_STATUS_clash : Fld := ⟨24584, 13, 1, 0⟩
/-- RING_EVT.evt, W1C. -/
def RING_EVT_evt : Fld := ⟨24588, 0, 10, 0⟩
/-- RING_EVT.topology, W1C. -/
def RING_EVT_topology : Fld := ⟨24588, 10, 1, 0⟩
/-- RING_EVT_ENABLE.en, RW. -/
def RING_EVT_ENABLE_en : Fld := ⟨24592, 0, 11, 2047⟩
/-- RING_TRANSIT.transit_ns, RO. -/
def RING_TRANSIT_transit_ns : Fld := ⟨24596, 0, 16, 0⟩
/-- RING_LOAD.own, RO. -/
def RING_LOAD_own : Fld := ⟨24600, 0, 16, 0⟩
/-- RING_LOAD.total, RO. -/
def RING_LOAD_total : Fld := ⟨24600, 16, 16, 0⟩
/-- RING_CNT.count, RO. -/
def RING_CNT_count (i : Nat) : Fld := ⟨24640 + 4 * i, 0, 32, 0⟩
/-- RING_MEMBER.state, RO. -/
def RING_MEMBER_state (i : Nat) : Fld := ⟨24832 + 4 * i, 0, 2, 0⟩
/-- RING_MEMBER.role, RO. -/
def RING_MEMBER_role (i : Nat) : Fld := ⟨24832 + 4 * i, 2, 2, 0⟩
/-- RING_MEMBER.via_w, RO. -/
def RING_MEMBER_via_w (i : Nat) : Fld := ⟨24832 + 4 * i, 4, 1, 0⟩
/-- RING_MEMBER.via_e, RO. -/
def RING_MEMBER_via_e (i : Nat) : Fld := ⟨24832 + 4 * i, 5, 1, 0⟩
/-- RING_MEMBER.load, RO. -/
def RING_MEMBER_load (i : Nat) : Fld := ⟨24832 + 4 * i, 16, 16, 0⟩
/-! R266, 11_time.md. -/
/-- TIME_CTRL.sel, STG. -/
def TIME_CTRL_sel : Fld := ⟨20480, 0, 1, 0⟩
/-- TIME_CTRL.auto_switch, STG. -/
def TIME_CTRL_auto_switch : Fld := ⟨20480, 1, 1, 0⟩
/-- TIME_CTRL.slew_ppb, STG. -/
def TIME_CTRL_slew_ppb : Fld := ⟨20480, 2, 7, 100⟩
/-- TIME_CTRL.wait_s, STG. -/
def TIME_CTRL_wait_s : Fld := ⟨20480, 9, 8, 10⟩
/-- TIME_CTRL.hold_s, STG. -/
def TIME_CTRL_hold_s : Fld := ⟨20480, 17, 12, 60⟩
/-- TIME_MASTER.master_a, STG. -/
def TIME_MASTER_master_a : Fld := ⟨20484, 0, 1, 0⟩
/-- TIME_MASTER.master_b, STG. -/
def TIME_MASTER_master_b : Fld := ⟨20484, 1, 1, 0⟩
/-- TIME_MASTER.pps_a_en, STG. -/
def TIME_MASTER_pps_a_en : Fld := ⟨20484, 2, 1, 0⟩
/-- TIME_MASTER.pps_b_en, STG. -/
def TIME_MASTER_pps_b_en : Fld := ⟨20484, 3, 1, 0⟩
/-- TIME_STATUS.dom_a, RO. -/
def TIME_STATUS_dom_a : Fld := ⟨20488, 0, 2, 0⟩
/-- TIME_STATUS.dom_b, RO. -/
def TIME_STATUS_dom_b : Fld := ⟨20488, 2, 2, 0⟩
/-- TIME_STATUS.role_a, RO. -/
def TIME_STATUS_role_a : Fld := ⟨20488, 4, 2, 0⟩
/-- TIME_STATUS.role_b, RO. -/
def TIME_STATUS_role_b : Fld := ⟨20488, 6, 2, 0⟩
/-- TIME_STATUS.work, RO. -/
def TIME_STATUS_work : Fld := ⟨20488, 8, 2, 0⟩
/-- TIME_STATUS.sel_now, RO. -/
def TIME_STATUS_sel_now : Fld := ⟨20488, 10, 1, 0⟩
/-- TIME_STATUS.slewing, RO. -/
def TIME_STATUS_slewing : Fld := ⟨20488, 11, 1, 0⟩
/-- TIME_STATUS.cal, RO. -/
def TIME_STATUS_cal : Fld := ⟨20488, 12, 2, 0⟩
/-- TIME_STATUS.refclk_lost, RO. -/
def TIME_STATUS_refclk_lost : Fld := ⟨20488, 14, 1, 0⟩
/-- TIME_STATUS.gen_a, RO. -/
def TIME_STATUS_gen_a : Fld := ⟨20488, 16, 8, 0⟩
/-- TIME_STATUS.gen_b, RO. -/
def TIME_STATUS_gen_b : Fld := ⟨20488, 24, 8, 0⟩
/-- TIME_EVT.dom_a, W1C. -/
def TIME_EVT_dom_a : Fld := ⟨20492, 0, 1, 0⟩
/-- TIME_EVT.dom_b, W1C. -/
def TIME_EVT_dom_b : Fld := ⟨20492, 1, 1, 0⟩
/-- TIME_EVT.pps_a, W1C. -/
def TIME_EVT_pps_a : Fld := ⟨20492, 2, 1, 0⟩
/-- TIME_EVT.pps_b, W1C. -/
def TIME_EVT_pps_b : Fld := ⟨20492, 3, 1, 0⟩
/-- TIME_EVT.pps_a_lost, W1C. -/
def TIME_EVT_pps_a_lost : Fld := ⟨20492, 4, 1, 0⟩
/-- TIME_EVT.pps_b_lost, W1C. -/
def TIME_EVT_pps_b_lost : Fld := ⟨20492, 5, 1, 0⟩
/-- TIME_EVT.switched, W1C. -/
def TIME_EVT_switched : Fld := ⟨20492, 6, 1, 0⟩
/-- TIME_EVT.slew_done, W1C. -/
def TIME_EVT_slew_done : Fld := ⟨20492, 7, 1, 0⟩
/-- TIME_EVT.work_free, W1C. -/
def TIME_EVT_work_free : Fld := ⟨20492, 8, 1, 0⟩
/-- TIME_EVT.cal_done, W1C. -/
def TIME_EVT_cal_done : Fld := ⟨20492, 9, 1, 0⟩
/-- TIME_EVT.cal_lost, W1C. -/
def TIME_EVT_cal_lost : Fld := ⟨20492, 10, 1, 0⟩
/-- TIME_EVT.master_clash, W1C. -/
def TIME_EVT_master_clash : Fld := ⟨20492, 11, 1, 0⟩
/-- TIME_EVT.alarm, W1C. -/
def TIME_EVT_alarm : Fld := ⟨20492, 12, 8, 0⟩
/-- TIME_EVT.refclk_lost, W1C. -/
def TIME_EVT_refclk_lost : Fld := ⟨20492, 20, 1, 0⟩
/-- TIME_EVT.ply_diff, W1C. -/
def TIME_EVT_ply_diff : Fld := ⟨20492, 21, 1, 0⟩
/-- TIME_EVT.leap_err, W1C. -/
def TIME_EVT_leap_err : Fld := ⟨20492, 22, 1, 0⟩
/-- TIME_EVT.inc_err, W1C. -/
def TIME_EVT_inc_err : Fld := ⟨20492, 23, 1, 0⟩
/-- TIME_EVT_ENABLE.en, RW. -/
def TIME_EVT_ENABLE_en : Fld := ⟨20496, 0, 24, 16777215⟩
/-- TIME_CMD.snap, WO. -/
def TIME_CMD_snap : Fld := ⟨20500, 0, 1, 0⟩
/-- TIME_CMD.restart_a, WO. -/
def TIME_CMD_restart_a : Fld := ⟨20500, 1, 1, 0⟩
/-- TIME_CMD.restart_b, WO. -/
def TIME_CMD_restart_b : Fld := ⟨20500, 2, 1, 0⟩
/-- WORK_NOW.word, RO. -/
def WORK_NOW_word (i : Nat) : Fld := ⟨20512 + 4 * i, 0, 32, 0⟩
/-- CARRY_LO.offset, RO. -/
def CARRY_LO_offset : Fld := ⟨20528, 0, 32, 0⟩
/-- CARRY_HI.offset, RO. -/
def CARRY_HI_offset : Fld := ⟨20532, 0, 32, 0⟩
/-- PLY_TIME_DIFF.diff_ps, RO. -/
def PLY_TIME_DIFF_diff_ps : Fld := ⟨20536, 0, 32, 2147483648⟩
/-- SNAP_LOCAL_LO.stamp, RO. -/
def SNAP_LOCAL_LO_stamp : Fld := ⟨20544, 0, 32, 0⟩
/-- SNAP_LOCAL_HI.stamp, RO. -/
def SNAP_LOCAL_HI_stamp : Fld := ⟨20548, 0, 32, 0⟩
/-- SNAP_WORK.word, RO. -/
def SNAP_WORK_word (i : Nat) : Fld := ⟨20560 + 4 * i, 0, 32, 0⟩
/-- SNAP_A.word, RO. -/
def SNAP_A_word (i : Nat) : Fld := ⟨20576 + 4 * i, 0, 32, 0⟩
/-- SNAP_B.word, RO. -/
def SNAP_B_word (i : Nat) : Fld := ⟨20592 + 4 * i, 0, 32, 0⟩
/-- INC_LO.frac, RW. -/
def INC_LO_frac (i : Nat) : Fld := ⟨20608 + 8 * i, 0, 32, 858993459⟩
/-- INC_HI.ns, RW. -/
def INC_HI_ns (i : Nat) : Fld := ⟨20612 + 8 * i, 0, 8, 3⟩
/-- SLEW_INC_LO.inc, RW. -/
def SLEW_INC_LO_inc (i : Nat) : Fld := ⟨20624 + 16 * i, 0, 32, 0⟩
/-- SLEW_INC_HI.inc, RW. -/
def SLEW_INC_HI_inc (i : Nat) : Fld := ⟨20628 + 16 * i, 0, 8, 0⟩
/-- SLEW_TICKS.ticks, RW. -/
def SLEW_TICKS_ticks (i : Nat) : Fld := ⟨20632 + 16 * i, 0, 32, 0⟩
/-- START_SEC_LO.sec, RW. -/
def START_SEC_LO_sec : Fld := ⟨20656, 0, 32, 0⟩
/-- START_SEC_HI.sec, RW. -/
def START_SEC_HI_sec : Fld := ⟨20660, 0, 32, 0⟩
/-- PPS_CAP.word, RO. -/
def PPS_CAP_word (i j : Nat) : Fld := ⟨20672 + 32 * i + 4 * j, 0, 32, 0⟩
/-- PPS_WORK.word, RO. -/
def PPS_WORK_word (i j : Nat) : Fld := ⟨20688 + 32 * i + 4 * j, 0, 32, 0⟩
/-- PPS_STATUS.present_a, RO. -/
def PPS_STATUS_present_a : Fld := ⟨20736, 0, 1, 0⟩
/-- PPS_STATUS.present_b, RO. -/
def PPS_STATUS_present_b : Fld := ⟨20736, 1, 1, 0⟩
/-- PPS_STATUS.count_a, RO. -/
def PPS_STATUS_count_a : Fld := ⟨20736, 8, 8, 0⟩
/-- PPS_STATUS.count_b, RO. -/
def PPS_STATUS_count_b : Fld := ⟨20736, 16, 8, 0⟩
/-- PPS_OUT_CTRL.enable, RW. -/
def PPS_OUT_CTRL_enable : Fld := ⟨20740, 0, 1, 0⟩
/-- PPS_OUT_CTRL.src, RW. -/
def PPS_OUT_CTRL_src : Fld := ⟨20740, 1, 2, 0⟩
/-- PPS_OUT_CTRL.width_ms, RW. -/
def PPS_OUT_CTRL_width_ms : Fld := ⟨20740, 3, 9, 100⟩
/-- CAL_STATUS.pairs, RO. -/
def CAL_STATUS_pairs : Fld := ⟨20752, 0, 7, 0⟩
/-- CAL_CLOSURE.a, RO. -/
def CAL_CLOSURE_a : Fld := ⟨20756, 0, 32, 0⟩
/-- CAL_DELAY.delay, RO. -/
def CAL_DELAY_delay (i : Nat) : Fld := ⟨20760 + 4 * i, 0, 32, 0⟩
/-- DOM_ERR.err, RO. -/
def DOM_ERR_err (i : Nat) : Fld := ⟨20768 + 4 * i, 0, 32, 0⟩
/-- UTC_OFFSET.off, RW. -/
def UTC_OFFSET_off : Fld := ⟨20864, 0, 32, 0⟩
/-- LEAP_CTRL.count, RW. -/
def LEAP_CTRL_count : Fld := ⟨20868, 0, 7, 0⟩
/-- LEAP_CTRL.apply, WO. -/
def LEAP_CTRL_apply : Fld := ⟨20868, 7, 1, 0⟩
/-- LEAP_CTRL.leap_err, RO. -/
def LEAP_CTRL_leap_err : Fld := ⟨20868, 8, 1, 0⟩
/-- LEAP_AT_LO.at, RW. -/
def LEAP_AT_LO_at (i : Nat) : Fld := ⟨20992 + 16 * i, 0, 32, 0⟩
/-- LEAP_AT_HI.at, RW. -/
def LEAP_AT_HI_at (i : Nat) : Fld := ⟨20996 + 16 * i, 0, 32, 0⟩
/-- LEAP_OFF.off, RW. -/
def LEAP_OFF_off (i : Nat) : Fld := ⟨21000 + 16 * i, 0, 32, 0⟩
/-- ALARM_SEC_LO.sec, RW. -/
def ALARM_SEC_LO_sec (i : Nat) : Fld := ⟨22016 + 16 * i, 0, 32, 0⟩
/-- ALARM_SEC_HI.sec, RW. -/
def ALARM_SEC_HI_sec (i : Nat) : Fld := ⟨22020 + 16 * i, 0, 32, 0⟩
/-- ALARM_NS.ns, RW. -/
def ALARM_NS_ns (i : Nat) : Fld := ⟨22024 + 16 * i, 0, 30, 0⟩
/-- ALARM_CTRL.frac, RW. -/
def ALARM_CTRL_frac (i : Nat) : Fld := ⟨22028 + 16 * i, 0, 8, 0⟩
/-- ALARM_CTRL.enable, RW. -/
def ALARM_CTRL_enable (i : Nat) : Fld := ⟨22028 + 16 * i, 8, 1, 0⟩
/-- ALARM_CTRL.period_us, RW. -/
def ALARM_CTRL_period_us (i : Nat) : Fld := ⟨22028 + 16 * i, 9, 20, 0⟩
/-- ALARM_CTRL.late, RO. -/
def ALARM_CTRL_late (i : Nat) : Fld := ⟨22028 + 16 * i, 29, 1, 0⟩
/-! R298, 12_ply_redundancy.md. -/
/-- PLY_CTRL.revert_en, STG. -/
def PLY_CTRL_revert_en : Fld := ⟨28672, 0, 1, 1⟩
/-- PLY_CTRL.revert_hold_s, STG. -/
def PLY_CTRL_revert_hold_s : Fld := ⟨28672, 1, 17, 60⟩
/-- PLY_CTRL.auto_rejoin, STG. -/
def PLY_CTRL_auto_rejoin : Fld := ⟨28672, 18, 1, 1⟩
/-- PLY_CTRL.auto_restart, STG. -/
def PLY_CTRL_auto_restart : Fld := ⟨28672, 19, 1, 1⟩
/-- PLY_MILL_HB.mill_hb_en, STG. -/
def PLY_MILL_HB_mill_hb_en : Fld := ⟨28676, 0, 1, 1⟩
/-- PLY_MILL_HB.mill_hb_chan, STG. -/
def PLY_MILL_HB_mill_hb_chan : Fld := ⟨28676, 1, 1, 0⟩
/-- PLY_MILL_HB.id_base, STG. -/
def PLY_MILL_HB_id_base : Fld := ⟨28676, 2, 11, 2032⟩
/-- PLY_STATUS.state, RO. -/
def PLY_STATUS_state : Fld := ⟨28680, 0, 3, 0⟩
/-- PLY_STATUS.partner_state, RO. -/
def PLY_STATUS_partner_state : Fld := ⟨28680, 3, 3, 7⟩
/-- PLY_STATUS.home, RO. -/
def PLY_STATUS_home : Fld := ⟨28680, 6, 1, 0⟩
/-- PLY_STATUS.home_err, RO. -/
def PLY_STATUS_home_err : Fld := ⟨28680, 7, 1, 0⟩
/-- PLY_STATUS.ply_pos, RO. -/
def PLY_STATUS_ply_pos : Fld := ⟨28680, 8, 1, 0⟩
/-- PLY_STATUS.link, RO. -/
def PLY_STATUS_link : Fld := ⟨28680, 9, 2, 0⟩
/-- PLY_STATUS.tok_in, RO. -/
def PLY_STATUS_tok_in : Fld := ⟨28680, 11, 2, 0⟩
/-- PLY_STATUS.abd_in, RO. -/
def PLY_STATUS_abd_in : Fld := ⟨28680, 13, 1, 0⟩
/-- PLY_STATUS.abd_out, RO. -/
def PLY_STATUS_abd_out : Fld := ⟨28680, 14, 1, 0⟩
/-- PLY_STATUS.mill_hb_seen, RO. -/
def PLY_STATUS_mill_hb_seen : Fld := ⟨28680, 15, 1, 0⟩
/-- PLY_STATUS.muted, RO. -/
def PLY_STATUS_muted : Fld := ⟨28680, 16, 1, 1⟩
/-- PLY_STATUS.diverged, RO. -/
def PLY_STATUS_diverged : Fld := ⟨28680, 17, 1, 0⟩
/-- PLY_STATUS.cmd_refused, RO. -/
def PLY_STATUS_cmd_refused : Fld := ⟨28680, 18, 1, 0⟩
/-- PLY_EPOCH.epoch, RO. -/
def PLY_EPOCH_epoch : Fld := ⟨28684, 0, 28, 0⟩
/-- PLY_EVT.evt, W1C. -/
def PLY_EVT_evt : Fld := ⟨28688, 0, 10, 0⟩
/-- PLY_EVT_ENABLE.en, RW. -/
def PLY_EVT_ENABLE_en : Fld := ⟨28692, 0, 10, 1023⟩
/-- PLY_CMD.rejoin, WO. -/
def PLY_CMD_rejoin : Fld := ⟨28696, 0, 1, 0⟩
/-- PLY_CMD.handover, WO. -/
def PLY_CMD_handover : Fld := ⟨28696, 1, 1, 0⟩
/-- PLY_CMD.leave, WO. -/
def PLY_CMD_leave : Fld := ⟨28696, 2, 1, 0⟩
/-- PLY_REASON.untracked, RO. -/
def PLY_REASON_untracked : Fld := ⟨28700, 0, 4, 0⟩
/-- PLY_REASON.takeover, RO. -/
def PLY_REASON_takeover : Fld := ⟨28700, 4, 4, 0⟩
/-- PLY_REASON.abdication, RO. -/
def PLY_REASON_abdication : Fld := ⟨28700, 8, 4, 0⟩
/-- PLY_REVERT_LEFT.seconds, RO. -/
def PLY_REVERT_LEFT_seconds : Fld := ⟨28704, 0, 17, 131071⟩
/-- PLY_JOIN.phase, RO. -/
def PLY_JOIN_phase : Fld := ⟨28708, 0, 3, 0⟩
/-- PLY_JOIN.attempts, RO. -/
def PLY_JOIN_attempts : Fld := ⟨28708, 3, 5, 0⟩
/-- PLY_JOIN.fail, RO. -/
def PLY_JOIN_fail : Fld := ⟨28708, 8, 3, 0⟩
/-- PLY_JOIN.backlog, RO. -/
def PLY_JOIN_backlog : Fld := ⟨28708, 12, 20, 0⟩
/-- PLY_LAST_DELAY.ns, RO. -/
def PLY_LAST_DELAY_ns : Fld := ⟨28712, 0, 32, 0⟩
/-- PLY_TAKEOVER_TURN_LO.turn, RO. -/
def PLY_TAKEOVER_TURN_LO_turn : Fld := ⟨28716, 0, 32, 0⟩
/-- PLY_TAKEOVER_TURN_HI.turn, RO. -/
def PLY_TAKEOVER_TURN_HI_turn : Fld := ⟨28720, 0, 32, 0⟩
/-- PLY_COUNTS.takeovers, RO. -/
def PLY_COUNTS_takeovers : Fld := ⟨28724, 0, 16, 0⟩
/-- PLY_COUNTS.mismatches, RO. -/
def PLY_COUNTS_mismatches : Fld := ⟨28724, 16, 16, 0⟩
/-- PLY_PARTNER_ID_LO.ident, RO. -/
def PLY_PARTNER_ID_LO_ident : Fld := ⟨28728, 0, 32, 0⟩
/-- PLY_PARTNER_ID_HI.ident, RO. -/
def PLY_PARTNER_ID_HI_ident : Fld := ⟨28732, 0, 32, 0⟩
/-- PLY_CNT_SEAL.count, RO. -/
def PLY_CNT_SEAL_count : Fld := ⟨28736, 0, 32, 0⟩
/-! R317, 13_brake.md. -/
/-- BRK_LOCK.lock, W1S. -/
def BRK_LOCK_lock : Fld := ⟨32768, 0, 1, 0⟩
/-- BRK_STATE.bo, RO. -/
def BRK_STATE_bo : Fld := ⟨32772, 0, 8, 255⟩
/-- BRK_STATE.port, RO. -/
def BRK_STATE_port : Fld := ⟨32772, 8, 16, 0⟩
/-- BRK_STATE.holdup, RO. -/
def BRK_STATE_holdup : Fld := ⟨32772, 24, 1, 0⟩
/-- BRK_SRC_RAW.raw, RO. -/
def BRK_SRC_RAW_raw : Fld := ⟨32776, 0, 32, 0⟩
/-- BRK_SRC_EFF.eff, RO. -/
def BRK_SRC_EFF_eff : Fld := ⟨32780, 0, 32, 0⟩
/-- BRK_CLEAR.clear, WO. -/
def BRK_CLEAR_clear : Fld := ⟨32784, 0, 32, 0⟩
/-- BRK_EVT.asserted, W1C. -/
def BRK_EVT_asserted : Fld := ⟨32788, 0, 1, 0⟩
/-- BRK_EVT.ended, W1C. -/
def BRK_EVT_ended : Fld := ⟨32788, 1, 1, 0⟩
/-- BRK_EVT.holdup, W1C. -/
def BRK_EVT_holdup : Fld := ⟨32788, 2, 1, 0⟩
/-- BRK_EVT.split, W1C. -/
def BRK_EVT_split : Fld := ⟨32788, 3, 1, 0⟩
/-- BRK_EVT_ENABLE.en, RW. -/
def BRK_EVT_ENABLE_en : Fld := ⟨32792, 0, 4, 15⟩
/-- BRK_SOFT.soft, RW. -/
def BRK_SOFT_soft : Fld := ⟨32796, 0, 4, 0⟩
/-- BRK_SPLIT.count, RO. -/
def BRK_SPLIT_count : Fld := ⟨32800, 0, 32, 0⟩
/-- BRK_FIRST_CLEAR.clear, WO. -/
def BRK_FIRST_CLEAR_clear : Fld := ⟨32804, 0, 1, 0⟩
/-- BRK_IN_CFG.enable, STG. -/
def BRK_IN_CFG_enable (i : Nat) : Fld := ⟨32832 + 4 * i, 0, 1, 0⟩
/-- BRK_IN_CFG.release_us, STG. -/
def BRK_IN_CFG_release_us (i : Nat) : Fld := ⟨32832 + 4 * i, 1, 10, 10⟩
/-- BRK_ROW_OUT.bo_mask, STG. -/
def BRK_ROW_OUT_bo_mask (i : Nat) : Fld := ⟨33024 + 8 * i, 0, 8, coldAt (33024 + 8 * i) 0 0⟩
/-- BRK_ROW_OUT.latch, STG. -/
def BRK_ROW_OUT_latch (i : Nat) : Fld := ⟨33024 + 8 * i, 8, 1, 0⟩
/-- BRK_ROW_PORT.port_mask, STG. -/
def BRK_ROW_PORT_port_mask (i : Nat) : Fld := ⟨33028 + 8 * i, 0, 16, coldAt (33028 + 8 * i) 0 0⟩
/-- BRK_FIRST.row, RO. -/
def BRK_FIRST_row : Fld := ⟨33280, 0, 5, 0⟩
/-- BRK_LAST.row, RO. -/
def BRK_LAST_row : Fld := ⟨33312, 0, 5, 0⟩
/-- BRK_FIRST.valid, RO. -/
def BRK_FIRST_valid : Fld := ⟨33280, 5, 1, 0⟩
/-- BRK_LAST.valid, RO. -/
def BRK_LAST_valid : Fld := ⟨33312, 5, 1, 0⟩
/-- BRK_FIRST_TIME.word, RO. -/
def BRK_FIRST_TIME_word (i : Nat) : Fld := ⟨33284 + 4 * i, 0, 32, 0⟩
/-- BRK_LAST_TIME.word, RO. -/
def BRK_LAST_TIME_word (i : Nat) : Fld := ⟨33316 + 4 * i, 0, 32, 0⟩
/-- BRK_COUNT.count, RO. -/
def BRK_COUNT_count (i : Nat) : Fld := ⟨33536 + 4 * i, 0, 16, 0⟩
/-! R343, 14_host_rings.md. -/
/-- HOST_CTRL.enable, RW. -/
def HOST_CTRL_enable : Fld := ⟨8192, 0, 1, 0⟩
/-- HOST_CTRL.db_interval, RW. -/
def HOST_CTRL_db_interval : Fld := ⟨8192, 1, 10, 1⟩
/-- HOST_STATUS.state, RO. -/
def HOST_STATUS_state : Fld := ⟨8196, 0, 2, 0⟩
/-- HOST_STATUS.speed, RO. -/
def HOST_STATUS_speed : Fld := ⟨8196, 2, 3, 0⟩
/-- HOST_STATUS.width, RO. -/
def HOST_STATUS_width : Fld := ⟨8196, 5, 3, 0⟩
/-- HOST_STATUS.l1, RO. -/
def HOST_STATUS_l1 : Fld := ⟨8196, 8, 1, 0⟩
/-- HOST_STATUS.skipped, RO. -/
def HOST_STATUS_skipped : Fld := ⟨8196, 9, 16, 0⟩
/-- HOST_ERR.err, W1C. -/
def HOST_ERR_err : Fld := ⟨8200, 0, 8, 0⟩
/-- POLICY_LOCK.lock, W1S. -/
def POLICY_LOCK_lock : Fld := ⟨8204, 0, 1, 0⟩
/-- DB_ADDR_LO.addr, RW. -/
def DB_ADDR_LO_addr : Fld := ⟨8208, 12, 20, 0⟩
/-- DB_ADDR_HI.addr, RW. -/
def DB_ADDR_HI_addr : Fld := ⟨8212, 0, 32, 0⟩
/-- EVR_ADDR_HI.addr, RW. -/
def EVR_ADDR_HI_addr : Fld := ⟨8228, 0, 32, 0⟩
/-- CMDR_ADDR_HI.addr, RW. -/
def CMDR_ADDR_HI_addr (i : Nat) : Fld := ⟨8260 + 32 * i, 0, 32, 0⟩
/-- CPLR_ADDR_HI.addr, RW. -/
def CPLR_ADDR_HI_addr (i : Nat) : Fld := ⟨8268 + 32 * i, 0, 32, 0⟩
/-- TRR_ADDR_HI.addr, RW. -/
def TRR_ADDR_HI_addr (i : Nat) : Fld := ⟨8452 + 16 * i, 0, 32, 0⟩
/-- BAR2_BASE.base, RW. -/
def BAR2_BASE_base : Fld := ⟨8216, 0, 8, 0⟩
/-- EVR_ADDR_LO.addr, RW. -/
def EVR_ADDR_LO_addr : Fld := ⟨8224, 6, 26, 0⟩
/-- CMDR_ADDR_LO.addr, RW. -/
def CMDR_ADDR_LO_addr (i : Nat) : Fld := ⟨8256 + 32 * i, 6, 26, 0⟩
/-- CPLR_ADDR_LO.addr, RW. -/
def CPLR_ADDR_LO_addr (i : Nat) : Fld := ⟨8264 + 32 * i, 6, 26, 0⟩
/-- TRR_ADDR_LO.addr, RW. -/
def TRR_ADDR_LO_addr (i : Nat) : Fld := ⟨8448 + 16 * i, 6, 26, 0⟩
/-- EVR_CTRL.enable, RW. -/
def EVR_CTRL_enable : Fld := ⟨8232, 0, 1, 0⟩
/-- EVR_CTRL.size_log2, RW. -/
def EVR_CTRL_size_log2 : Fld := ⟨8232, 1, 5, 6⟩
/-- HRING_CTRL.enable, RW. -/
def HRING_CTRL_enable (i : Nat) : Fld := ⟨8272 + 32 * i, 0, 1, 0⟩
/-- HRING_CTRL.cmd_log2, RW. -/
def HRING_CTRL_cmd_log2 (i : Nat) : Fld := ⟨8272 + 32 * i, 1, 5, 4⟩
/-- HRING_CTRL.cpl_log2, RW. -/
def HRING_CTRL_cpl_log2 (i : Nat) : Fld := ⟨8272 + 32 * i, 6, 5, 4⟩
/-- RING_POLICY.allow, RWL. -/
def RING_POLICY_allow (i : Nat) : Fld := ⟨8276 + 32 * i, 0, 9, 511⟩
/-- RING_POLICY.lock_sig, RWL. -/
def RING_POLICY_lock_sig (i : Nat) : Fld := ⟨8276 + 32 * i, 16, 1, 0⟩
/-- RING_POLICY.lock_loop, RWL. -/
def RING_POLICY_lock_loop (i : Nat) : Fld := ⟨8276 + 32 * i, 17, 1, 0⟩
/-- HRING_STATUS.error, RO. -/
def HRING_STATUS_error (i : Nat) : Fld := ⟨8280 + 32 * i, 0, 1, 0⟩
/-- HRING_STATUS.blocked, RO. -/
def HRING_STATUS_blocked (i : Nat) : Fld := ⟨8280 + 32 * i, 1, 1, 0⟩
/-- HRING_STATUS.miller_busy, RO. -/
def HRING_STATUS_miller_busy (i : Nat) : Fld := ⟨8280 + 32 * i, 2, 1, 0⟩
/-- TRR_CTRL.enable, RW. -/
def TRR_CTRL_enable (i : Nat) : Fld := ⟨8456 + 16 * i, 0, 1, 0⟩
/-- TRR_CTRL.size_log2, RW. -/
def TRR_CTRL_size_log2 (i : Nat) : Fld := ⟨8456 + 16 * i, 1, 4, 4⟩
/-! R344, 14_host_rings.md. -/
/-- EVT_MSI_MASK.mask, RW. -/
def EVT_MSI_MASK_mask (i : Nat) : Fld := ⟨12288 + 4 * i, 0, 32, 0⟩
/-- EVT_REC_EN.en, RW. -/
def EVT_REC_EN_en (i : Nat) : Fld := ⟨12304 + 4 * i, 0, 32, coldAt (12304 + 4 * i) 0 0⟩
/-- EVT_RAISED.raised, W1C. -/
def EVT_RAISED_raised (i : Nat) : Fld := ⟨12320 + 4 * i, 0, 32, 0⟩
/-- EVT_LOST.count, RO. -/
def EVT_LOST_count : Fld := ⟨12336, 0, 32, 0⟩
/-- EVT_COAL.count, RW. -/
def EVT_COAL_count (i : Nat) : Fld := ⟨12800 + 4 * i, 0, 8, 1⟩
/-- EVT_COAL.time_us, RW. -/
def EVT_COAL_time_us (i : Nat) : Fld := ⟨12800 + 4 * i, 8, 16, 0⟩
/-! R358, 15_hopper_and_map.md. -/
/-- HOPPER_VIEW.staged, RW. -/
def HOPPER_VIEW_staged : Fld := ⟨4096, 0, 1, 0⟩
/-- HOPPER_STATUS.state, RO. -/
def HOPPER_STATUS_state : Fld := ⟨4100, 0, 2, 0⟩
/-- HOPPER_STATUS.dirty, RO. -/
def HOPPER_STATUS_dirty : Fld := ⟨4100, 2, 1, 0⟩
/-- HOPPER_STATUS.stage_refused, W1C. -/
def HOPPER_STATUS_stage_refused : Fld := ⟨4100, 3, 1, 0⟩
/-- HOPPER_STATUS.last_result, RO. -/
def HOPPER_STATUS_last_result : Fld := ⟨4100, 4, 3, 0⟩
/-- HOPPER_STATUS.image_err, RO. -/
def HOPPER_STATUS_image_err : Fld := ⟨4100, 7, 1, 0⟩
/-- HOPPER_CHECK.first, RO. -/
def HOPPER_CHECK_first : Fld := ⟨4104, 0, 8, 0⟩
/-- HOPPER_CHECK.failures, RO. -/
def HOPPER_CHECK_failures : Fld := ⟨4104, 16, 16, 0⟩
/-- HOPPER_ITEM.item, RO. -/
def HOPPER_ITEM_item : Fld := ⟨4108, 0, 32, 0⟩
/-- HOPPER_B_LO.b, RO. -/
def HOPPER_B_LO_b : Fld := ⟨4112, 0, 32, 0⟩
/-- HOPPER_B_HI.b, RO. -/
def HOPPER_B_HI_b : Fld := ⟨4116, 0, 32, 0⟩
/-- HOPPER_STAGED_SEAL.seal, RO. -/
def HOPPER_STAGED_SEAL_seal : Fld := ⟨4120, 0, 32, 0⟩
/-- HOPPER_ACTIVE_SEAL.seal, RO. -/
def HOPPER_ACTIVE_SEAL_seal : Fld := ⟨4124, 0, 32, 0⟩
/-- HOPPER_CHANGES.count, RO. -/
def HOPPER_CHANGES_count : Fld := ⟨4128, 0, 20, 0⟩
/-- HOPPER_LEVEL.level, STG. -/
def HOPPER_LEVEL_level : Fld := ⟨4132, 0, 4, 0⟩
/-- HOPPER_COMMITS.count, RO. -/
def HOPPER_COMMITS_count : Fld := ⟨4136, 0, 32, 0⟩
/-- HOPPER_PROG_ACT.act, STG. -/
def HOPPER_PROG_ACT_act : Fld := ⟨4140, 0, 16, 0⟩
/-! R388, 16_mill_bus.md. -/
/-- MB_CTRL.enable, STG. -/
def MB_CTRL_enable (i : Nat) : Fld := ⟨36864 + 4096 * i, 0, 1, 0⟩
/-- MB_CTRL.listen_only, STG. -/
def MB_CTRL_listen_only (i : Nat) : Fld := ⟨36864 + 4096 * i, 1, 1, 0⟩
/-- MB_CTRL.auto_recover, STG. -/
def MB_CTRL_auto_recover (i : Nat) : Fld := ⟨36864 + 4096 * i, 2, 1, 0⟩
/-- MB_CTRL.clash_mute, STG. -/
def MB_CTRL_clash_mute (i : Nat) : Fld := ⟨36864 + 4096 * i, 3, 1, 0⟩
/-- MB_CTRL.tdc_en, STG. -/
def MB_CTRL_tdc_en (i : Nat) : Fld := ⟨36864 + 4096 * i, 4, 1, 0⟩
/-- MB_CTRL.tdc_off, STG. -/
def MB_CTRL_tdc_off (i : Nat) : Fld := ⟨36864 + 4096 * i, 5, 6, 0⟩
/-- MB_NBT.brp_m1, STG. -/
def MB_NBT_brp_m1 (i : Nat) : Fld := ⟨36868 + 4096 * i, 0, 5, 0⟩
/-- MB_DBT.brp_m1, STG. -/
def MB_DBT_brp_m1 (i : Nat) : Fld := ⟨36872 + 4096 * i, 0, 5, 0⟩
/-- MB_NBT.tseg1_m1, STG. -/
def MB_NBT_tseg1_m1 (i : Nat) : Fld := ⟨36868 + 4096 * i, 5, 8, 1⟩
/-- MB_DBT.tseg1_m1, STG. -/
def MB_DBT_tseg1_m1 (i : Nat) : Fld := ⟨36872 + 4096 * i, 5, 8, 1⟩
/-- MB_NBT.tseg2_m1, STG. -/
def MB_NBT_tseg2_m1 (i : Nat) : Fld := ⟨36868 + 4096 * i, 13, 7, 1⟩
/-- MB_DBT.tseg2_m1, STG. -/
def MB_DBT_tseg2_m1 (i : Nat) : Fld := ⟨36872 + 4096 * i, 13, 7, 1⟩
/-- MB_NBT.sjw_m1, STG. -/
def MB_NBT_sjw_m1 (i : Nat) : Fld := ⟨36868 + 4096 * i, 20, 7, 1⟩
/-- MB_DBT.sjw_m1, STG. -/
def MB_DBT_sjw_m1 (i : Nat) : Fld := ⟨36872 + 4096 * i, 20, 7, 1⟩
/-- MB_TT_CTRL.tt_en, STG. -/
def MB_TT_CTRL_tt_en (i : Nat) : Fld := ⟨36876 + 4096 * i, 0, 1, 0⟩
/-- MB_TT_CTRL.role, STG. -/
def MB_TT_CTRL_role (i : Nat) : Fld := ⟨36876 + 4096 * i, 1, 1, 0⟩
/-- MB_TT_CTRL.prio, STG. -/
def MB_TT_CTRL_prio (i : Nat) : Fld := ⟨36876 + 4096 * i, 2, 3, 0⟩
/-- MB_TT_CTRL.cycles_log2, STG. -/
def MB_TT_CTRL_cycles_log2 (i : Nat) : Fld := ⟨36876 + 4096 * i, 5, 3, 0⟩
/-- MB_TT_CTRL.cycle_us, STG. -/
def MB_TT_CTRL_cycle_us (i : Nat) : Fld := ⟨36876 + 4096 * i, 8, 16, 0⟩
/-- MB_TT_ARB.arb_start, STG. -/
def MB_TT_ARB_arb_start (i : Nat) : Fld := ⟨36880 + 4096 * i, 0, 16, 0⟩
/-- MB_TT_ARB.arb_end, STG. -/
def MB_TT_ARB_arb_end (i : Nat) : Fld := ⟨36880 + 4096 * i, 16, 16, 0⟩
/-- MB_STATUS.state, RO. -/
def MB_STATUS_state (i : Nat) : Fld := ⟨36884 + 4096 * i, 0, 2, 0⟩
/-- MB_STATUS.muted, RO. -/
def MB_STATUS_muted (i : Nat) : Fld := ⟨36884 + 4096 * i, 2, 1, 1⟩
/-- MB_STATUS.recovering, RO. -/
def MB_STATUS_recovering (i : Nat) : Fld := ⟨36884 + 4096 * i, 3, 1, 0⟩
/-- MB_STATUS.rec, RO. -/
def MB_STATUS_rec (i : Nat) : Fld := ⟨36884 + 4096 * i, 4, 8, 0⟩
/-- MB_STATUS.tec, RO. -/
def MB_STATUS_tec (i : Nat) : Fld := ⟨36884 + 4096 * i, 12, 9, 0⟩
/-- MB_EVT.evt, W1C. -/
def MB_EVT_evt (i : Nat) : Fld := ⟨36888 + 4096 * i, 0, 9, 0⟩
/-- MB_EVT_ENABLE.en, RW. -/
def MB_EVT_ENABLE_en (i : Nat) : Fld := ⟨36892 + 4096 * i, 0, 9, 511⟩
/-- MB_CMD.restart, WO. -/
def MB_CMD_restart (i : Nat) : Fld := ⟨36896 + 4096 * i, 0, 1, 0⟩
/-- MB_CMD.unmute, WO. -/
def MB_CMD_unmute (i : Nat) : Fld := ⟨36896 + 4096 * i, 1, 1, 0⟩
/-- MB_CMD.clear_cnt, WO. -/
def MB_CMD_clear_cnt (i : Nat) : Fld := ⟨36896 + 4096 * i, 2, 1, 0⟩
/-- MB_CLASH.id, RO. -/
def MB_CLASH_id (i : Nat) : Fld := ⟨36900 + 4096 * i, 0, 29, 0⟩
/-- MB_CLASH.ide, RO. -/
def MB_CLASH_ide (i : Nat) : Fld := ⟨36900 + 4096 * i, 29, 1, 0⟩
/-- MB_CLASH.count, RO. -/
def MB_CLASH_count (i : Nat) : Fld := ⟨36900 + 4096 * i, 30, 2, 0⟩
/-- MB_TT_STATUS.cycle, RO. -/
def MB_TT_STATUS_cycle (i : Nat) : Fld := ⟨36904 + 4096 * i, 0, 6, 0⟩
/-- MB_TT_STATUS.master, RO. -/
def MB_TT_STATUS_master (i : Nat) : Fld := ⟨36904 + 4096 * i, 6, 1, 0⟩
/-- MB_TT_STATUS.ref_ok, RO. -/
def MB_TT_STATUS_ref_ok (i : Nat) : Fld := ⟨36904 + 4096 * i, 7, 1, 0⟩
/-- MB_CNT.count, RO. -/
def MB_CNT_count (i j : Nat) : Fld := ⟨36928 + 4096 * i + 4 * j, 0, 32, 0⟩
/-- MB_BUF_CFG.role, STG. -/
def MB_BUF_CFG_role (i j : Nat) : Fld := ⟨37120 + 4096 * i + 32 * j, 0, 3, 0⟩
/-- MB_BUF_CFG.owner, STG. -/
def MB_BUF_CFG_owner (i j : Nat) : Fld := ⟨37120 + 4096 * i + 32 * j, 3, 4, 0⟩
/-- MB_BUF_CFG.owner_host, STG. -/
def MB_BUF_CFG_owner_host (i j : Nat) : Fld := ⟨37120 + 4096 * i + 32 * j, 7, 1, 0⟩
/-- MB_BUF_CFG.urgent_en, STG. -/
def MB_BUF_CFG_urgent_en (i j : Nat) : Fld := ⟨37120 + 4096 * i + 32 * j, 8, 1, 0⟩
/-- MB_BUF_CFG.urgent, STG. -/
def MB_BUF_CFG_urgent (i j : Nat) : Fld := ⟨37120 + 4096 * i + 32 * j, 9, 4, 0⟩
/-- MB_BUF_CFG.map_en, STG. -/
def MB_BUF_CFG_map_en (i j : Nat) : Fld := ⟨37120 + 4096 * i + 32 * j, 13, 1, 0⟩
/-- MB_BUF_CFG.map_fmt, STG. -/
def MB_BUF_CFG_map_fmt (i j : Nat) : Fld := ⟨37120 + 4096 * i + 32 * j, 14, 2, 0⟩
/-- MB_BUF_CFG.map_off, STG. -/
def MB_BUF_CFG_map_off (i j : Nat) : Fld := ⟨37120 + 4096 * i + 32 * j, 16, 6, 0⟩
/-- MB_BUF_CFG.tmo_ms, STG. -/
def MB_BUF_CFG_tmo_ms (i j : Nat) : Fld := ⟨37120 + 4096 * i + 32 * j, 22, 8, 0⟩
/-- MB_BUF_ID.id, STG. -/
def MB_BUF_ID_id (i j : Nat) : Fld := ⟨37124 + 4096 * i + 32 * j, 0, 29, 0⟩
/-- MB_BUF_ID.ide, STG. -/
def MB_BUF_ID_ide (i j : Nat) : Fld := ⟨37124 + 4096 * i + 32 * j, 29, 1, 0⟩
/-- MB_BUF_MASK.mask, STG. -/
def MB_BUF_MASK_mask (i j : Nat) : Fld := ⟨37128 + 4096 * i + 32 * j, 0, 29, 0⟩
/-- MB_BUF_MATCH.match_val, STG. -/
def MB_BUF_MATCH_match_val (i j : Nat) : Fld := ⟨37132 + 4096 * i + 32 * j, 0, 8, 0⟩
/-- MB_BUF_MATCH.match_mask, STG. -/
def MB_BUF_MATCH_match_mask (i j : Nat) : Fld := ⟨37132 + 4096 * i + 32 * j, 8, 8, 0⟩
/-- MB_BUF_MAP.map_slot, STG. -/
def MB_BUF_MAP_map_slot (i j : Nat) : Fld := ⟨37136 + 4096 * i + 32 * j, 0, 18, 0⟩
/-- MB_BUF_TT.mark_us, STG. -/
def MB_BUF_TT_mark_us (i j : Nat) : Fld := ⟨37140 + 4096 * i + 32 * j, 0, 16, 0⟩
/-- MB_BUF_TT.rep, STG. -/
def MB_BUF_TT_rep (i j : Nat) : Fld := ⟨37140 + 4096 * i + 32 * j, 16, 3, 0⟩
/-- MB_BUF_TT.off, STG. -/
def MB_BUF_TT_off (i j : Nat) : Fld := ⟨37140 + 4096 * i + 32 * j, 19, 6, 0⟩
/-- MB_BUF_TT.len_code, STG. -/
def MB_BUF_TT_len_code (i j : Nat) : Fld := ⟨37140 + 4096 * i + 32 * j, 25, 4, 0⟩
/-- MB_BUF_TT.fd, STG. -/
def MB_BUF_TT_fd (i j : Nat) : Fld := ⟨37140 + 4096 * i + 32 * j, 29, 1, 0⟩
/-- MB_BUF_STATUS.full, RO. -/
def MB_BUF_STATUS_full (i j : Nat) : Fld := ⟨37144 + 4096 * i + 32 * j, 0, 1, 0⟩
/-- MB_BUF_STATUS.pending, RO. -/
def MB_BUF_STATUS_pending (i j : Nat) : Fld := ⟨37144 + 4096 * i + 32 * j, 1, 1, 0⟩
/-- MB_BUF_STATUS.held, RO. -/
def MB_BUF_STATUS_held (i j : Nat) : Fld := ⟨37144 + 4096 * i + 32 * j, 2, 1, 0⟩
/-- MB_BUF_STATUS.missed, RO. -/
def MB_BUF_STATUS_missed (i j : Nat) : Fld := ⟨37144 + 4096 * i + 32 * j, 3, 1, 0⟩
/-- MB_BUF_STATUS.clash_muted, RO. -/
def MB_BUF_STATUS_clash_muted (i j : Nat) : Fld := ⟨37144 + 4096 * i + 32 * j, 4, 1, 0⟩
/-- MB_BUF_STATUS.overrun, RO. -/
def MB_BUF_STATUS_overrun (i j : Nat) : Fld := ⟨37144 + 4096 * i + 32 * j, 5, 1, 0⟩
/-- MB_BUF_STATUS.lock_lost, RO. -/
def MB_BUF_STATUS_lock_lost (i j : Nat) : Fld := ⟨37144 + 4096 * i + 32 * j, 6, 1, 0⟩
/-- MB_BUF_STATUS.too_long, RO. -/
def MB_BUF_STATUS_too_long (i j : Nat) : Fld := ⟨37144 + 4096 * i + 32 * j, 7, 1, 0⟩
/-- MB_BUF_STATUS.replaced, RO. -/
def MB_BUF_STATUS_replaced (i j : Nat) : Fld := ⟨37144 + 4096 * i + 32 * j, 8, 8, 0⟩
/-- MB_RD_SEL.buffer, RW. -/
def MB_RD_SEL_buffer (i : Nat) : Fld := ⟨39936 + 4096 * i, 0, 6, 0⟩
/-- MB_RD_ID.word0, RO. -/
def MB_RD_ID_word0 (i : Nat) : Fld := ⟨39940 + 4096 * i, 0, 32, 0⟩
/-- MB_RD_LEN.len, RO. -/
def MB_RD_LEN_len (i : Nat) : Fld := ⟨39944 + 4096 * i, 0, 7, 0⟩
/-- MB_RD_LEN.never, RO. -/
def MB_RD_LEN_never (i : Nat) : Fld := ⟨39944 + 4096 * i, 7, 1, 1⟩
/-- MB_RD_DATA.data, RO. -/
def MB_RD_DATA_data (i j : Nat) : Fld := ⟨39948 + 4096 * i + 4 * j, 0, 32, 0⟩
/-- MB_RD_STAMP_0.sec, RO. -/
def MB_RD_STAMP_0_sec (i : Nat) : Fld := ⟨40012 + 4096 * i, 0, 32, 0⟩
/-- MB_RD_STAMP_1.ns, RO. -/
def MB_RD_STAMP_1_ns (i : Nat) : Fld := ⟨40016 + 4096 * i, 0, 30, 0⟩
/-- MB_RD_STAMP_2.frac, RO. -/
def MB_RD_STAMP_2_frac (i : Nat) : Fld := ⟨40020 + 4096 * i, 0, 8, 0⟩
/-! R398, 17_seal.md. -/
/-- SEAL_STATUS.busy, RO. -/
def SEAL_STATUS_busy : Fld := ⟨45056, 0, 8, 0⟩
/-- SEAL_STATUS.idle_feed, W1C. -/
def SEAL_STATUS_idle_feed : Fld := ⟨45056, 8, 8, 0⟩
/-- SEAL_CNT_CUT.count, RO. -/
def SEAL_CNT_CUT_count : Fld := ⟨45060, 0, 32, 0⟩
/-- GS_CTRL.start, WO. -/
def GS_CTRL_start (i : Nat) : Fld := ⟨45312 + 32 * i, 0, 1, 0⟩
/-- GS_CTRL.stop, WO. -/
def GS_CTRL_stop (i : Nat) : Fld := ⟨45312 + 32 * i, 1, 1, 0⟩
/-- GS_FEED_B.byte, WO. -/
def GS_FEED_B_byte (i : Nat) : Fld := ⟨45316 + 32 * i, 0, 8, 0⟩
/-- GS_FEED_H.half, WO. -/
def GS_FEED_H_half (i : Nat) : Fld := ⟨45320 + 32 * i, 0, 16, 0⟩
/-- GS_FEED_W.word, WO. -/
def GS_FEED_W_word (i : Nat) : Fld := ⟨45324 + 32 * i, 0, 32, 0⟩
/-- GS_RESULT.seal, RO. -/
def GS_RESULT_seal (i : Nat) : Fld := ⟨45328 + 32 * i, 0, 32, 0⟩
/-- GS_COUNT.bytes, RO. -/
def GS_COUNT_bytes (i : Nat) : Fld := ⟨45332 + 32 * i, 0, 32, 0⟩
/-! R412, 18_access_control.md. -/
/-- AC_CTRL.def_cache, STG. -/
def AC_CTRL_def_cache (i : Nat) : Fld := ⟨49152 + 4 * i, 0, 1, 0⟩
/-- AC_CTRL.def_order, STG. -/
def AC_CTRL_def_order (i : Nat) : Fld := ⟨49152 + 4 * i, 1, 1, 0⟩
/-- AC_LOCK.lock, W1S. -/
def AC_LOCK_lock (i : Nat) : Fld := ⟨49168 + 4 * i, 0, 32, 0⟩
/-- AC_STATUS.lock_refused, W1C. -/
def AC_STATUS_lock_refused : Fld := ⟨49184, 0, 4, 0⟩
/-- AC_VIOL_INFO.valid, W1C. -/
def AC_VIOL_INFO_valid (i : Nat) : Fld := ⟨49216 + 16 * i, 0, 1, 0⟩
/-- AC_VIOL_INFO.kind, RO. -/
def AC_VIOL_INFO_kind (i : Nat) : Fld := ⟨49216 + 16 * i, 1, 2, 0⟩
/-- AC_VIOL_INFO.region, RO. -/
def AC_VIOL_INFO_region (i : Nat) : Fld := ⟨49216 + 16 * i, 3, 5, 0⟩
/-- AC_VIOL_INFO.requester, RO. -/
def AC_VIOL_INFO_requester (i : Nat) : Fld := ⟨49216 + 16 * i, 8, 8, 0⟩
/-- AC_VIOL_INFO.length, RO. -/
def AC_VIOL_INFO_length (i : Nat) : Fld := ⟨49216 + 16 * i, 16, 13, 0⟩
/-- AC_VIOL_INFO.locked, RO. -/
def AC_VIOL_INFO_locked (i : Nat) : Fld := ⟨49216 + 16 * i, 29, 1, 0⟩
/-- AC_VIOL_ADDR_LO.addr, RO. -/
def AC_VIOL_ADDR_LO_addr (i : Nat) : Fld := ⟨49220 + 16 * i, 0, 32, 0⟩
/-- AC_VIOL_ADDR_HI.addr, RO. -/
def AC_VIOL_ADDR_HI_addr (i : Nat) : Fld := ⟨49224 + 16 * i, 0, 32, 0⟩
/-- AC_VIOL_COUNT.count, RO. -/
def AC_VIOL_COUNT_count (i : Nat) : Fld := ⟨49228 + 16 * i, 0, 32, 0⟩
/-- AC_BASE_LO.enable, STG. -/
def AC_BASE_LO_enable (i j : Nat) : Fld := ⟨50176 + 512 * i + 16 * j, 0, 1, 0⟩
/-- AC_BASE_LO.r, STG. -/
def AC_BASE_LO_r (i j : Nat) : Fld := ⟨50176 + 512 * i + 16 * j, 1, 1, 0⟩
/-- AC_BASE_LO.w, STG. -/
def AC_BASE_LO_w (i j : Nat) : Fld := ⟨50176 + 512 * i + 16 * j, 2, 1, 0⟩
/-- AC_BASE_LO.x, STG. -/
def AC_BASE_LO_x (i j : Nat) : Fld := ⟨50176 + 512 * i + 16 * j, 3, 1, 0⟩
/-- AC_BASE_LO.cache, STG. -/
def AC_BASE_LO_cache (i j : Nat) : Fld := ⟨50176 + 512 * i + 16 * j, 4, 1, 0⟩
/-- AC_BASE_LO.order, STG. -/
def AC_BASE_LO_order (i j : Nat) : Fld := ⟨50176 + 512 * i + 16 * j, 5, 1, 0⟩
/-- AC_BASE_LO.base, STG. -/
def AC_BASE_LO_base (i j : Nat) : Fld := ⟨50176 + 512 * i + 16 * j, 6, 26, 0⟩
/-- AC_LIMIT_LO.limit, STG. -/
def AC_LIMIT_LO_limit (i j : Nat) : Fld := ⟨50184 + 512 * i + 16 * j, 6, 26, 0⟩
/-- AC_BASE_HI.addr, STG. -/
def AC_BASE_HI_addr (i j : Nat) : Fld := ⟨50180 + 512 * i + 16 * j, 0, 32, 0⟩
/-- AC_LIMIT_HI.addr, STG. -/
def AC_LIMIT_HI_addr (i j : Nat) : Fld := ⟨50188 + 512 * i + 16 * j, 0, 32, 0⟩
/-! R426, 19_recorder.md. -/
/-- REC_CTRL.enable, STG. -/
def REC_CTRL_enable : Fld := ⟨53248, 0, 1, 1⟩
/-- REC_STATUS.pointer, RO. -/
def REC_STATUS_pointer : Fld := ⟨53252, 0, 13, 0⟩
/-- REC_STATUS.full, RO. -/
def REC_STATUS_full : Fld := ⟨53252, 13, 1, 0⟩
/-- REC_STATUS.reserve, RO. -/
def REC_STATUS_reserve : Fld := ⟨53252, 14, 1, 0⟩
/-- REC_STATUS.chain_err, RO. -/
def REC_STATUS_chain_err : Fld := ⟨53252, 15, 1, 0⟩
/-- REC_STATUS.rebuilt, RO. -/
def REC_STATUS_rebuilt : Fld := ⟨53252, 16, 1, 0⟩
/-- REC_STATUS.queued, RO. -/
def REC_STATUS_queued : Fld := ⟨53252, 17, 5, 0⟩
/-- REC_EVT.evt, W1C. -/
def REC_EVT_evt : Fld := ⟨53256, 0, 5, 0⟩
/-- REC_EVT_ENABLE.en, RW. -/
def REC_EVT_ENABLE_en : Fld := ⟨53260, 0, 5, 31⟩
/-- REC_LOST.count, RO. -/
def REC_LOST_count : Fld := ⟨53264, 0, 32, 0⟩
/-- REC_CMD.manual, WO. -/
def REC_CMD_manual : Fld := ⟨53268, 0, 1, 0⟩
/-- REC_LAST_SEAL.seal, RO. -/
def REC_LAST_SEAL_seal : Fld := ⟨53272, 0, 32, 0⟩
/-- REC_TRIG.enable, STG. -/
def REC_TRIG_enable (i : Nat) : Fld := ⟨53504 + 4 * i, 0, 1, coldAt (53504 + 4 * i) 0 0⟩
/-- REC_TRIG.source, STG. -/
def REC_TRIG_source (i : Nat) : Fld := ⟨53504 + 4 * i, 1, 7, 0⟩
/-- REC_TRIG.list_en, STG. -/
def REC_TRIG_list_en (i : Nat) : Fld := ⟨53504 + 4 * i, 8, 1, 0⟩
/-- REC_TRIG.list, STG. -/
def REC_TRIG_list (i : Nat) : Fld := ⟨53504 + 4 * i, 9, 3, 0⟩
/-- REC_TRIG.holdoff_ms, STG. -/
def REC_TRIG_holdoff_ms (i : Nat) : Fld := ⟨53504 + 4 * i, 12, 12, 0⟩
/-- REC_TRIG.dbit, STG. -/
def REC_TRIG_dbit (i : Nat) : Fld := ⟨53504 + 4 * i, 24, 5, 0⟩
/-- REC_TRIG.dtest_en, STG. -/
def REC_TRIG_dtest_en (i : Nat) : Fld := ⟨53504 + 4 * i, 29, 1, 0⟩
/-- REC_LIST.entry, STG. -/
def REC_LIST_entry (i j : Nat) : Fld := ⟨55296 + 256 * i + 4 * j, 0, 32, 0⟩
/-! R450, 20_firmware.md. -/
/-- FW_STATUS.state, RO. -/
def FW_STATUS_state : Fld := ⟨57344, 0, 3, 0⟩
/-- FW_STATUS.slot, RO. -/
def FW_STATUS_slot : Fld := ⟨57344, 3, 1, 0⟩
/-- FW_STATUS.confirm, RO. -/
def FW_STATUS_confirm : Fld := ⟨57344, 4, 2, 0⟩
/-- FW_STATUS.lifecycle, RO. -/
def FW_STATUS_lifecycle : Fld := ⟨57344, 6, 2, 0⟩
/-- FW_STATUS.key_floor, RO. -/
def FW_STATUS_key_floor : Fld := ⟨57344, 8, 2, 0⟩
/-- FW_STATUS.session, RO. -/
def FW_STATUS_session : Fld := ⟨57344, 10, 2, 0⟩
/-- FW_STATUS.last_result, RO. -/
def FW_STATUS_last_result : Fld := ⟨57344, 12, 2, 0⟩
/-- FW_STATUS.last_status, RO. -/
def FW_STATUS_last_status : Fld := ⟨57344, 14, 6, 0⟩
/-- FW_CTRL.confirm_s, STG. -/
def FW_CTRL_confirm_s : Fld := ⟨57348, 0, 12, 300⟩
/-- FW_CTRL.confirm_mode, STG. -/
def FW_CTRL_confirm_mode : Fld := ⟨57348, 12, 1, 0⟩
/-- FW_CTRL.svc_en, STG. -/
def FW_CTRL_svc_en : Fld := ⟨57348, 13, 1, 1⟩
/-- FW_EVT.evt, W1C. -/
def FW_EVT_evt : Fld := ⟨57352, 0, 6, 0⟩
/-- FW_EVT_ENABLE.en, RW. -/
def FW_EVT_ENABLE_en : Fld := ⟨57356, 0, 6, 63⟩
/-- FW_CONFIRM_LEFT.seconds, RO. -/
def FW_CONFIRM_LEFT_seconds : Fld := ⟨57360, 0, 12, 0⟩
/-- FW_SET_VER_LO.ver, RO. -/
def FW_SET_VER_LO_ver : Fld := ⟨57364, 0, 32, 0⟩
/-- FW_SET_VER_HI.ver, RO. -/
def FW_SET_VER_HI_ver : Fld := ⟨57368, 0, 32, 0⟩
/-- FW_NEXT_VER_LO.ver, RO. -/
def FW_NEXT_VER_LO_ver : Fld := ⟨57372, 0, 32, 0⟩
/-- FW_NEXT_VER_HI.ver, RO. -/
def FW_NEXT_VER_HI_ver : Fld := ⟨57376, 0, 32, 0⟩
/-- FW_MILLER.restarts, RO. -/
def FW_MILLER_restarts : Fld := ⟨57380, 0, 8, 0⟩
/-- FW_MILLER.in_window, RO. -/
def FW_MILLER_in_window : Fld := ⟨57380, 8, 8, 0⟩
/-- SVC_STATUS.link, RO. -/
def SVC_STATUS_link : Fld := ⟨57392, 0, 2, 0⟩
/-- SVC_STATUS.open, RO. -/
def SVC_STATUS_open : Fld := ⟨57392, 2, 1, 0⟩
/-- FW_PART_VER.ver, RO. -/
def FW_PART_VER_ver (i : Nat) : Fld := ⟨57600 + 8 * i, 0, 32, 0⟩
/-- FW_PART_INFO.compat, RO. -/
def FW_PART_INFO_compat (i : Nat) : Fld := ⟨57604 + 8 * i, 0, 8, 0⟩
/-- FW_PART_INFO.next_compat, RO. -/
def FW_PART_INFO_next_compat (i : Nat) : Fld := ⟨57604 + 8 * i, 8, 8, 0⟩
/-! R468, 21_power_and_reset.md. -/
/-- PWR_STATUS.rung, RO. -/
def PWR_STATUS_rung : Fld := ⟨61440, 0, 3, 0⟩
/-- PWR_STATUS.target, RO. -/
def PWR_STATUS_target : Fld := ⟨61440, 3, 3, 0⟩
/-- PWR_STATUS.moving, RO. -/
def PWR_STATUS_moving : Fld := ⟨61440, 6, 1, 0⟩
/-- PWR_STATUS.holdup_ok, RO. [log 5 DESIGN CHOICE] -/
def PWR_STATUS_holdup_ok : Fld := ⟨61440, 7, 1, 1⟩
/-- PWR_STATUS.keep_lost, RO. -/
def PWR_STATUS_keep_lost : Fld := ⟨61440, 8, 1, 0⟩
/-- PWR_STATUS.cell_low, RO. -/
def PWR_STATUS_cell_low : Fld := ⟨61440, 9, 1, 0⟩
/-- PWR_DOMAINS.on, RO. [log 5 DESIGN CHOICE] -/
def PWR_DOMAINS_on : Fld := ⟨61444, 0, 12, 4095⟩
/-- PWR_REQ.rung, WO. -/
def PWR_REQ_rung : Fld := ⟨61448, 0, 3, 0⟩
/-- PWR_REQ.go, WO. -/
def PWR_REQ_go : Fld := ⟨61448, 3, 1, 0⟩
/-- PWR_CTRL.wake_fixed, RO. -/
def PWR_CTRL_wake_fixed : Fld := ⟨61452, 0, 2, 3⟩
/-- PWR_CTRL.wake_en, STG. -/
def PWR_CTRL_wake_en : Fld := ⟨61452, 2, 5, 31⟩
/-- PWR_CTRL.floor, STG. -/
def PWR_CTRL_floor : Fld := ⟨61452, 7, 3, 6⟩
/-- PWR_EVT.evt, W1C. -/
def PWR_EVT_evt : Fld := ⟨61456, 0, 6, 0⟩
/-- PWR_EVT_ENABLE.en, RW. -/
def PWR_EVT_ENABLE_en : Fld := ⟨61460, 0, 6, 63⟩
/-- PWR_WAKE.source, RO. -/
def PWR_WAKE_source : Fld := ⟨61464, 0, 3, 0⟩
/-- PWR_WAKE.valid, RO. -/
def PWR_WAKE_valid : Fld := ⟨61464, 3, 1, 0⟩
/-- PWR_RESET.warm, WO. -/
def PWR_RESET_warm : Fld := ⟨61468, 0, 1, 0⟩
/-- PWR_RESET.partner, WO. -/
def PWR_RESET_partner : Fld := ⟨61468, 1, 1, 0⟩
/-- PWR_RESET.cold, WO. -/
def PWR_RESET_cold : Fld := ⟨61468, 2, 1, 0⟩
/-- PWR_CAUSE.kind, RO. -/
def PWR_CAUSE_kind : Fld := ⟨61472, 0, 4, 0⟩
/-- PWR_CAUSE.from, RO. -/
def PWR_CAUSE_from : Fld := ⟨61472, 4, 3, 0⟩
/-- PWR_CAUSE.warm_count, RO. -/
def PWR_CAUSE_warm_count : Fld := ⟨61472, 8, 8, 0⟩
/-- PWR_SUPPLY.input_mv, RO. [log 5 DESIGN CHOICE] -/
def PWR_SUPPLY_input_mv : Fld := ⟨61476, 0, 14, 12000⟩
/-- PWR_SUPPLY.cell_mv, RO. [log 5 DESIGN CHOICE] -/
def PWR_SUPPLY_cell_mv : Fld := ⟨61476, 14, 13, 3000⟩
/-- KEEP_ALARM_LO.sec, RW. -/
def KEEP_ALARM_LO_sec : Fld := ⟨61480, 0, 32, 0⟩
/-- KEEP_ALARM_HI.sec, RW. -/
def KEEP_ALARM_HI_sec : Fld := ⟨61484, 0, 32, 0⟩
/-! R344, 14_host_rings.md. -/
/-- MSIX_PBA.pending, RO. -/
def MSIX_PBA_pending (i : Nat) : Fld := ⟨14080 + 4 * i, 0, 32, 0⟩
/-- MSIX_ADDR_LO.addr, RW. -/
def MSIX_ADDR_LO_addr (i : Nat) : Fld := ⟨14336 + 16 * i, 0, 32, 0⟩
/-- MSIX_ADDR_HI.addr, RW. -/
def MSIX_ADDR_HI_addr (i : Nat) : Fld := ⟨14340 + 16 * i, 0, 32, 0⟩
/-- MSIX_DATA.data, RW. -/
def MSIX_DATA_data (i : Nat) : Fld := ⟨14344 + 16 * i, 0, 32, 0⟩
/-- MSIX_CTRL.mask, RW. [log 26 PRESUMED] -/
def MSIX_CTRL_mask (i : Nat) : Fld := ⟨14348 + 16 * i, 0, 1, 1⟩

end F

/-- Rows 0 to 24 of the field table. -/
def fieldRows0 : List FieldRow := [
  ⟨16384, 0, 1, 0, 1, 0, 20, .stg, 10000, true⟩,
  ⟨16388, 0, 1, 0, 1, 0, 3, .stg, 2, true⟩,
  ⟨16388, 0, 1, 0, 1, 4, 20, .stg, 0, true⟩,
  ⟨16392, 0, 1, 0, 1, 0, 20, .stg, 4000, true⟩,
  ⟨16396, 0, 1, 0, 1, 0, 20, .stg, 2000, true⟩,
  ⟨16400, 0, 1, 0, 1, 0, 32, .ro, 0, true⟩,
  ⟨16404, 0, 1, 0, 1, 0, 32, .ro, 0, true⟩,
  ⟨16408, 0, 1, 0, 1, 0, 20, .ro, 0, true⟩,
  ⟨16412, 0, 1, 0, 1, 0, 1, .ro, 0, true⟩,
  ⟨16412, 0, 1, 0, 1, 1, 1, .ro, 0, true⟩,
  ⟨16416, 4, 4, 0, 1, 0, 32, .ro, 0, true⟩,
  ⟨16432, 0, 1, 0, 1, 0, 32, .ro, 0, true⟩,
  ⟨16436, 0, 1, 0, 1, 0, 32, .ro, 0, true⟩,
  ⟨16448, 0, 1, 0, 1, 0, 16, .stg, 0, true⟩,
  ⟨16448, 0, 1, 0, 1, 16, 16, .stg, 50, true⟩,
  ⟨16452, 0, 1, 0, 1, 0, 16, .stg, 0, true⟩,
  ⟨16456, 0, 1, 0, 1, 0, 10, .ro, 600, true⟩,
  ⟨16456, 0, 1, 0, 1, 10, 1, .ro, 1, true⟩,
  ⟨16456, 0, 1, 0, 1, 11, 1, .ro, 0, true⟩,
  ⟨16460, 0, 1, 0, 1, 0, 1, .wo, 0, false⟩,
  ⟨16460, 0, 1, 0, 1, 1, 1, .wo, 0, false⟩,
  ⟨16464, 0, 1, 0, 1, 0, 16, .w1c, 0, false⟩,
  ⟨16464, 0, 1, 0, 1, 16, 8, .w1c, 0, false⟩,
  ⟨16512, 4, 16, 0, 1, 0, 32, .ro, 4294967295, false⟩,
  ⟨16640, 4, 8, 0, 1, 0, 32, .ro, 4294967295, false⟩]
/-- Rows 25 to 49 of the field table. -/
def fieldRows1 : List FieldRow := [
  ⟨16576, 4, 16, 0, 1, 0, 32, .ro, 4294967295, false⟩,
  ⟨16672, 4, 8, 0, 1, 0, 32, .ro, 4294967295, false⟩,
  ⟨16704, 4, 16, 0, 1, 0, 16, .ro, 0, false⟩,
  ⟨16768, 4, 8, 0, 1, 0, 16, .ro, 0, false⟩,
  ⟨16704, 4, 16, 0, 1, 16, 1, .ro, 0, false⟩,
  ⟨16768, 4, 8, 0, 1, 16, 1, .ro, 0, false⟩,
  ⟨16800, 0, 1, 0, 1, 0, 2, .ro, 0, true⟩,
  ⟨16800, 0, 1, 0, 1, 2, 2, .ro, 0, true⟩,
  ⟨16800, 0, 1, 0, 1, 4, 7, .ro, 0, true⟩,
  ⟨16804, 0, 1, 0, 1, 0, 32, .ro, 0, true⟩,
  ⟨16808, 0, 1, 0, 1, 0, 32, .ro, 0, true⟩,
  ⟨131072, 16, 256, 0, 1, 0, 1, .stg, 0, true⟩,
  ⟨131072, 16, 256, 0, 1, 1, 11, .stg, 0, true⟩,
  ⟨131072, 16, 256, 0, 1, 12, 11, .stg, 0, true⟩,
  ⟨131072, 16, 256, 0, 1, 23, 5, .stg, 0, true⟩,
  ⟨131076, 16, 256, 0, 1, 0, 16, .stg, 0, true⟩,
  ⟨131076, 16, 256, 0, 1, 16, 8, .stg, 0, true⟩,
  ⟨131080, 16, 256, 0, 1, 0, 16, .stg, 0, true⟩,
  ⟨135168, 0, 1, 0, 1, 0, 7, .rw, 0, false⟩,
  ⟨1048576, 16, 262144, 0, 1, 0, 3, .stg, 0, true⟩,
  ⟨1048576, 16, 262144, 0, 1, 3, 2, .stg, 0, true⟩,
  ⟨1048576, 16, 262144, 0, 1, 5, 8, .stg, 0, true⟩,
  ⟨1048576, 16, 262144, 0, 1, 13, 3, .stg, 0, true⟩,
  ⟨1048576, 16, 262144, 0, 1, 16, 1, .stg, 0, true⟩,
  ⟨1048576, 16, 262144, 0, 1, 17, 12, .stg, 0, true⟩]
/-- Rows 50 to 74 of the field table. -/
def fieldRows2 : List FieldRow := [
  ⟨1048576, 16, 262144, 0, 1, 29, 1, .stg, 0, true⟩,
  ⟨1048580, 16, 262144, 0, 1, 0, 18, .stg, 0, true⟩,
  ⟨1048584, 16, 262144, 0, 1, 0, 18, .stg, 0, true⟩,
  ⟨1048588, 16, 262144, 0, 1, 0, 8, .stg, 0, true⟩,
  ⟨1048588, 16, 262144, 0, 1, 8, 12, .stg, 0, true⟩,
  ⟨65536, 4096, 16, 0, 1, 0, 1, .stg, 0, true⟩,
  ⟨65536, 4096, 16, 0, 1, 1, 1, .rw, 1, true⟩,
  ⟨65536, 4096, 16, 0, 1, 2, 1, .wo, 0, false⟩,
  ⟨65540, 4096, 16, 0, 1, 0, 10, .stg, 0, true⟩,
  ⟨65540, 4096, 16, 0, 1, 10, 10, .stg, 0, true⟩,
  ⟨65540, 4096, 16, 0, 1, 20, 10, .stg, 0, true⟩,
  ⟨65544, 4096, 16, 0, 1, 0, 2, .ro, 0, true⟩,
  ⟨65544, 4096, 16, 0, 1, 2, 2, .ro, 0, true⟩,
  ⟨65544, 4096, 16, 0, 1, 4, 5, .ro, 0, true⟩,
  ⟨65544, 4096, 16, 0, 1, 9, 1, .ro, 0, true⟩,
  ⟨65544, 4096, 16, 0, 1, 10, 1, .ro, 0, true⟩,
  ⟨65544, 4096, 16, 0, 1, 11, 1, .ro, 0, true⟩,
  ⟨65548, 4096, 16, 0, 1, 0, 10, .w1c, 0, false⟩,
  ⟨65552, 4096, 16, 0, 1, 0, 10, .rw, 1023, true⟩,
  ⟨65556, 4096, 16, 0, 1, 0, 32, .ro, 0, true⟩,
  ⟨65560, 4096, 16, 0, 1, 0, 32, .ro, 0, true⟩,
  ⟨65564, 4096, 16, 0, 1, 0, 32, .ro, 0, true⟩,
  ⟨65568, 4096, 16, 0, 1, 0, 32, .ro, 0, true⟩,
  ⟨65600, 4096, 16, 4, 7, 0, 32, .ro, 0, false⟩,
  ⟨65792, 4096, 16, 16, 16, 0, 3, .ro, 0, true⟩]
/-- Rows 75 to 99 of the field table. -/
def fieldRows3 : List FieldRow := [
  ⟨65792, 4096, 16, 16, 16, 3, 1, .ro, 0, true⟩,
  ⟨65792, 4096, 16, 16, 16, 4, 1, .ro, 0, true⟩,
  ⟨65792, 4096, 16, 16, 16, 8, 8, .ro, 0, true⟩,
  ⟨65796, 4096, 16, 16, 16, 0, 32, .ro, 0, true⟩,
  ⟨65800, 4096, 16, 16, 16, 0, 32, .ro, 4294967295, true⟩,
  ⟨65804, 4096, 16, 16, 16, 0, 16, .ro, 0, true⟩,
  ⟨16896, 0, 1, 0, 1, 0, 2, .ro, 0, true⟩,
  ⟨16896, 0, 1, 0, 1, 4, 4, .ro, 0, true⟩,
  ⟨16896, 0, 1, 0, 1, 8, 1, .ro, 0, true⟩,
  ⟨16900, 0, 1, 0, 1, 0, 4, .ro, 0, true⟩,
  ⟨16900, 0, 1, 0, 1, 4, 1, .ro, 0, true⟩,
  ⟨16900, 0, 1, 0, 1, 5, 2, .ro, 0, true⟩,
  ⟨16900, 0, 1, 0, 1, 7, 2, .ro, 0, true⟩,
  ⟨16900, 0, 1, 0, 1, 9, 2, .ro, 0, true⟩,
  ⟨16900, 0, 1, 0, 1, 11, 1, .ro, 0, true⟩,
  ⟨16900, 0, 1, 0, 1, 12, 1, .ro, 0, true⟩,
  ⟨16900, 0, 1, 0, 1, 13, 1, .ro, 0, true⟩,
  ⟨16904, 0, 1, 0, 1, 0, 1, .w1c, 0, false⟩,
  ⟨16904, 0, 1, 0, 1, 1, 1, .w1c, 0, false⟩,
  ⟨16904, 0, 1, 0, 1, 2, 1, .w1c, 0, false⟩,
  ⟨16908, 0, 1, 0, 1, 0, 1, .ro, 0, true⟩,
  ⟨16908, 0, 1, 0, 1, 1, 1, .ro, 0, false⟩,
  ⟨16908, 0, 1, 0, 1, 8, 8, .ro, 0, true⟩,
  ⟨16912, 0, 1, 0, 1, 0, 19, .ro, 0, true⟩,
  ⟨16912, 0, 1, 0, 1, 19, 1, .ro, 0, true⟩]
/-- Rows 100 to 124 of the field table. -/
def fieldRows4 : List FieldRow := [
  ⟨16912, 0, 1, 0, 1, 20, 1, .ro, 0, true⟩,
  ⟨16916, 0, 1, 0, 1, 0, 1, .wo, 0, false⟩,
  ⟨17408, 32, 16, 0, 1, 0, 1, .stg, 0, true⟩,
  ⟨17408, 32, 16, 0, 1, 1, 5, .stg, 0, true⟩,
  ⟨17408, 32, 16, 0, 1, 8, 4, .stg, 0, true⟩,
  ⟨17412, 32, 16, 0, 1, 0, 32, .stg, 0, true⟩,
  ⟨17416, 32, 16, 0, 1, 0, 3, .ro, 0, true⟩,
  ⟨17416, 32, 16, 0, 1, 3, 1, .ro, 0, true⟩,
  ⟨17416, 32, 16, 0, 1, 4, 1, .ro, 0, true⟩,
  ⟨17420, 32, 16, 0, 1, 0, 1, .w1c, 0, false⟩,
  ⟨17420, 32, 16, 0, 1, 1, 1, .w1c, 0, false⟩,
  ⟨17420, 32, 16, 0, 1, 2, 1, .w1c, 0, false⟩,
  ⟨17420, 32, 16, 0, 1, 3, 1, .w1c, 0, false⟩,
  ⟨17420, 32, 16, 0, 1, 4, 1, .w1c, 0, false⟩,
  ⟨17424, 32, 16, 0, 1, 0, 5, .rw, 31, true⟩,
  ⟨17428, 32, 16, 0, 1, 0, 32, .ro, 0, true⟩,
  ⟨17432, 32, 16, 0, 1, 0, 32, .ro, 0, true⟩,
  ⟨17436, 32, 16, 0, 1, 0, 32, .ro, 0, true⟩,
  ⟨17920, 16, 16, 0, 1, 0, 2, .ro, 0, true⟩,
  ⟨17920, 16, 16, 0, 1, 2, 2, .ro, 0, true⟩,
  ⟨17920, 16, 16, 0, 1, 4, 4, .ro, 0, true⟩,
  ⟨17920, 16, 16, 0, 1, 8, 1, .ro, 0, true⟩,
  ⟨17920, 16, 16, 0, 1, 16, 8, .ro, 0, true⟩,
  ⟨17924, 16, 16, 0, 1, 0, 32, .ro, 0, true⟩,
  ⟨17928, 16, 16, 0, 1, 0, 32, .ro, 0, true⟩]
/-- Rows 125 to 149 of the field table. -/
def fieldRows5 : List FieldRow := [
  ⟨17932, 16, 16, 0, 1, 0, 18, .ro, 0, true⟩,
  ⟨18176, 16, 16, 0, 1, 0, 4, .ro, 0, true⟩,
  ⟨18176, 16, 16, 0, 1, 4, 3, .ro, 0, true⟩,
  ⟨18176, 16, 16, 0, 1, 8, 8, .ro, 0, true⟩,
  ⟨18176, 16, 16, 0, 1, 16, 2, .ro, 0, true⟩,
  ⟨18180, 16, 16, 0, 1, 0, 14, .ro, 0, true⟩,
  ⟨18184, 16, 16, 0, 1, 0, 32, .ro, 0, true⟩,
  ⟨18188, 16, 16, 0, 1, 0, 32, .ro, 0, true⟩,
  ⟨18432, 0, 1, 0, 1, 0, 2, .ro, 0, true⟩,
  ⟨18432, 0, 1, 0, 1, 2, 1, .ro, 0, true⟩,
  ⟨18432, 0, 1, 0, 1, 3, 2, .ro, 0, true⟩,
  ⟨18432, 0, 1, 0, 1, 16, 16, .ro, 0, true⟩,
  ⟨18436, 0, 1, 0, 1, 0, 32, .ro, 0, true⟩,
  ⟨18440, 0, 1, 0, 1, 0, 32, .ro, 0, true⟩,
  ⟨18444, 0, 1, 0, 1, 0, 16, .ro, 0, true⟩,
  ⟨18496, 4, 16, 0, 1, 0, 8, .ro, 0, true⟩,
  ⟨18496, 4, 16, 0, 1, 8, 8, .ro, 0, true⟩,
  ⟨18496, 4, 16, 0, 1, 16, 8, .ro, 0, true⟩,
  ⟨18496, 4, 16, 0, 1, 24, 6, .ro, 0, true⟩,
  ⟨18496, 4, 16, 0, 1, 31, 1, .ro, 0, true⟩,
  ⟨18560, 4, 16, 0, 1, 0, 17, .ro, 0, true⟩,
  ⟨262144, 64, 4096, 0, 1, 0, 1, .stg, 0, true⟩,
  ⟨262144, 64, 4096, 0, 1, 1, 5, .stg, 0, true⟩,
  ⟨262144, 64, 4096, 0, 1, 6, 2, .stg, 0, true⟩,
  ⟨262144, 64, 4096, 0, 1, 8, 4, .stg, 0, true⟩]
/-- Rows 150 to 174 of the field table. -/
def fieldRows6 : List FieldRow := [
  ⟨262144, 64, 4096, 0, 1, 12, 2, .stg, 0, true⟩,
  ⟨262144, 64, 4096, 0, 1, 14, 2, .stg, 0, true⟩,
  ⟨262144, 64, 4096, 0, 1, 16, 2, .stg, 0, true⟩,
  ⟨262144, 64, 4096, 0, 1, 18, 1, .stg, 0, true⟩,
  ⟨262144, 64, 4096, 0, 1, 19, 1, .stg, 0, true⟩,
  ⟨262144, 64, 4096, 0, 1, 20, 1, .stg, 0, true⟩,
  ⟨262144, 64, 4096, 0, 1, 21, 1, .stg, 0, true⟩,
  ⟨262144, 64, 4096, 0, 1, 22, 1, .stg, 0, true⟩,
  ⟨262148, 64, 4096, 0, 1, 0, 18, .stg, 0, true⟩,
  ⟨262148, 64, 4096, 0, 1, 18, 12, .stg, 0, true⟩,
  ⟨262152, 64, 4096, 0, 1, 0, 18, .stg, 0, true⟩,
  ⟨262152, 64, 4096, 0, 1, 18, 12, .stg, 0, true⟩,
  ⟨262156, 64, 4096, 0, 1, 0, 18, .stg, 0, true⟩,
  ⟨262156, 64, 4096, 0, 1, 18, 14, .stg, 0, true⟩,
  ⟨262160, 64, 4096, 0, 1, 0, 18, .stg, 0, true⟩,
  ⟨262160, 64, 4096, 0, 1, 18, 14, .stg, 0, true⟩,
  ⟨262164, 64, 4096, 0, 1, 0, 18, .stg, 0, true⟩,
  ⟨262164, 64, 4096, 0, 1, 18, 14, .stg, 0, true⟩,
  ⟨262168, 64, 4096, 0, 1, 0, 18, .stg, 0, true⟩,
  ⟨262172, 64, 4096, 0, 1, 0, 18, .stg, 0, true⟩,
  ⟨262176, 64, 4096, 0, 1, 0, 18, .stg, 0, true⟩,
  ⟨262180, 64, 4096, 0, 1, 0, 18, .stg, 0, true⟩,
  ⟨262184, 64, 4096, 0, 1, 0, 18, .stg, 0, true⟩,
  ⟨262188, 64, 4096, 0, 1, 0, 18, .stg, 0, true⟩,
  ⟨262168, 64, 4096, 0, 1, 18, 6, .stg, 0, true⟩]
/-- Rows 175 to 199 of the field table. -/
def fieldRows7 : List FieldRow := [
  ⟨262172, 64, 4096, 0, 1, 18, 6, .stg, 0, true⟩,
  ⟨262176, 64, 4096, 0, 1, 18, 6, .stg, 0, true⟩,
  ⟨262180, 64, 4096, 0, 1, 18, 6, .stg, 0, true⟩,
  ⟨262184, 64, 4096, 0, 1, 18, 6, .stg, 0, true⟩,
  ⟨262188, 64, 4096, 0, 1, 18, 6, .stg, 0, true⟩,
  ⟨262192, 64, 4096, 0, 1, 0, 18, .stg, 0, true⟩,
  ⟨262196, 64, 4096, 0, 1, 0, 18, .stg, 0, true⟩,
  ⟨262200, 64, 4096, 0, 1, 0, 18, .stg, 0, true⟩,
  ⟨262204, 64, 4096, 0, 1, 0, 18, .stg, 0, true⟩,
  ⟨524288, 0, 1, 0, 1, 0, 8, .w1c, 0, false⟩,
  ⟨524288, 0, 1, 0, 1, 8, 1, .w1c, 0, false⟩,
  ⟨524292, 0, 1, 0, 1, 0, 9, .rw, 511, true⟩,
  ⟨524544, 32, 8, 0, 1, 0, 3, .rw, 0, true⟩,
  ⟨524544, 32, 8, 0, 1, 3, 6, .rw, 0, true⟩,
  ⟨524544, 32, 8, 0, 1, 9, 1, .rw, 0, true⟩,
  ⟨524544, 32, 8, 0, 1, 10, 4, .rw, 0, true⟩,
  ⟨524544, 32, 8, 0, 1, 16, 16, .rw, 0, true⟩,
  ⟨524548, 32, 8, 0, 1, 0, 32, .rw, 0, true⟩,
  ⟨524552, 32, 8, 0, 1, 0, 1, .wo, 0, false⟩,
  ⟨524552, 32, 8, 0, 1, 1, 1, .wo, 0, false⟩,
  ⟨524552, 32, 8, 0, 1, 2, 1, .wo, 0, false⟩,
  ⟨524556, 32, 8, 0, 1, 0, 2, .ro, 0, false⟩,
  ⟨524556, 32, 8, 0, 1, 4, 3, .ro, 0, false⟩,
  ⟨524556, 32, 8, 0, 1, 7, 1, .ro, 0, false⟩,
  ⟨524560, 32, 8, 0, 1, 0, 32, .ro, 0, true⟩]
/-- Rows 200 to 224 of the field table. -/
def fieldRows8 : List FieldRow := [
  ⟨524564, 32, 8, 0, 1, 0, 32, .ro, 0, true⟩,
  ⟨528384, 32, 64, 0, 1, 0, 18, .rw, 0, true⟩,
  ⟨528384, 32, 64, 0, 1, 18, 4, .rw, 0, true⟩,
  ⟨528384, 32, 64, 0, 1, 22, 1, .rw, 0, true⟩,
  ⟨528384, 32, 64, 0, 1, 23, 3, .rw, 0, true⟩,
  ⟨528384, 32, 64, 0, 1, 26, 4, .rw, 0, true⟩,
  ⟨528384, 32, 64, 0, 1, 31, 1, .rw, 0, true⟩,
  ⟨528388, 32, 64, 0, 1, 0, 5, .rw, 10, true⟩,
  ⟨528388, 32, 64, 0, 1, 5, 5, .rw, 0, true⟩,
  ⟨528392, 32, 64, 0, 1, 0, 24, .rw, 0, true⟩,
  ⟨528396, 32, 64, 0, 1, 0, 24, .rw, 0, true⟩,
  ⟨528400, 32, 64, 0, 1, 0, 14, .rw, 0, true⟩,
  ⟨528404, 32, 64, 0, 1, 0, 2, .ro, 0, false⟩,
  ⟨528404, 32, 64, 0, 1, 2, 1, .ro, 0, false⟩,
  ⟨528408, 32, 64, 0, 1, 0, 24, .ro, 0, true⟩,
  ⟨528412, 32, 64, 0, 1, 0, 32, .ro, 0, false⟩,
  ⟨24576, 0, 1, 0, 1, 0, 1, .stg, 1, true⟩,
  ⟨24576, 0, 1, 0, 1, 1, 5, .stg, 0, true⟩,
  ⟨24576, 0, 1, 0, 1, 8, 16, .stg, 2000, true⟩,
  ⟨24580, 0, 1, 0, 1, 0, 4, .ro, 0, true⟩,
  ⟨24580, 0, 1, 0, 1, 4, 2, .ro, 0, true⟩,
  ⟨24580, 0, 1, 0, 1, 6, 1, .ro, 0, true⟩,
  ⟨24580, 0, 1, 0, 1, 7, 1, .ro, 0, true⟩,
  ⟨24584, 0, 1, 0, 1, 0, 2, .ro, 0, true⟩,
  ⟨24584, 0, 1, 0, 1, 2, 2, .ro, 0, true⟩]
/-- Rows 225 to 249 of the field table. -/
def fieldRows9 : List FieldRow := [
  ⟨24584, 0, 1, 0, 1, 4, 2, .ro, 0, true⟩,
  ⟨24584, 0, 1, 0, 1, 6, 1, .ro, 1, true⟩,
  ⟨24584, 0, 1, 0, 1, 7, 5, .ro, 0, true⟩,
  ⟨24584, 0, 1, 0, 1, 12, 1, .ro, 0, true⟩,
  ⟨24584, 0, 1, 0, 1, 13, 1, .ro, 0, true⟩,
  ⟨24588, 0, 1, 0, 1, 0, 10, .w1c, 0, false⟩,
  ⟨24588, 0, 1, 0, 1, 10, 1, .w1c, 0, false⟩,
  ⟨24592, 0, 1, 0, 1, 0, 11, .rw, 2047, true⟩,
  ⟨24596, 0, 1, 0, 1, 0, 16, .ro, 0, true⟩,
  ⟨24600, 0, 1, 0, 1, 0, 16, .ro, 0, true⟩,
  ⟨24600, 0, 1, 0, 1, 16, 16, .ro, 0, true⟩,
  ⟨24640, 4, 5, 0, 1, 0, 32, .ro, 0, false⟩,
  ⟨24832, 4, 16, 0, 1, 0, 2, .ro, 0, true⟩,
  ⟨24832, 4, 16, 0, 1, 2, 2, .ro, 0, true⟩,
  ⟨24832, 4, 16, 0, 1, 4, 1, .ro, 0, true⟩,
  ⟨24832, 4, 16, 0, 1, 5, 1, .ro, 0, true⟩,
  ⟨24832, 4, 16, 0, 1, 16, 16, .ro, 0, true⟩,
  ⟨20480, 0, 1, 0, 1, 0, 1, .stg, 0, true⟩,
  ⟨20480, 0, 1, 0, 1, 1, 1, .stg, 0, true⟩,
  ⟨20480, 0, 1, 0, 1, 2, 7, .stg, 100, true⟩,
  ⟨20480, 0, 1, 0, 1, 9, 8, .stg, 10, true⟩,
  ⟨20480, 0, 1, 0, 1, 17, 12, .stg, 60, true⟩,
  ⟨20484, 0, 1, 0, 1, 0, 1, .stg, 0, true⟩,
  ⟨20484, 0, 1, 0, 1, 1, 1, .stg, 0, true⟩,
  ⟨20484, 0, 1, 0, 1, 2, 1, .stg, 0, true⟩]
/-- Rows 250 to 274 of the field table. -/
def fieldRows10 : List FieldRow := [
  ⟨20484, 0, 1, 0, 1, 3, 1, .stg, 0, true⟩,
  ⟨20488, 0, 1, 0, 1, 0, 2, .ro, 0, true⟩,
  ⟨20488, 0, 1, 0, 1, 2, 2, .ro, 0, true⟩,
  ⟨20488, 0, 1, 0, 1, 4, 2, .ro, 0, true⟩,
  ⟨20488, 0, 1, 0, 1, 6, 2, .ro, 0, true⟩,
  ⟨20488, 0, 1, 0, 1, 8, 2, .ro, 0, true⟩,
  ⟨20488, 0, 1, 0, 1, 10, 1, .ro, 0, true⟩,
  ⟨20488, 0, 1, 0, 1, 11, 1, .ro, 0, true⟩,
  ⟨20488, 0, 1, 0, 1, 12, 2, .ro, 0, true⟩,
  ⟨20488, 0, 1, 0, 1, 14, 1, .ro, 0, true⟩,
  ⟨20488, 0, 1, 0, 1, 16, 8, .ro, 0, true⟩,
  ⟨20488, 0, 1, 0, 1, 24, 8, .ro, 0, true⟩,
  ⟨20492, 0, 1, 0, 1, 0, 1, .w1c, 0, false⟩,
  ⟨20492, 0, 1, 0, 1, 1, 1, .w1c, 0, false⟩,
  ⟨20492, 0, 1, 0, 1, 2, 1, .w1c, 0, false⟩,
  ⟨20492, 0, 1, 0, 1, 3, 1, .w1c, 0, false⟩,
  ⟨20492, 0, 1, 0, 1, 4, 1, .w1c, 0, false⟩,
  ⟨20492, 0, 1, 0, 1, 5, 1, .w1c, 0, false⟩,
  ⟨20492, 0, 1, 0, 1, 6, 1, .w1c, 0, false⟩,
  ⟨20492, 0, 1, 0, 1, 7, 1, .w1c, 0, false⟩,
  ⟨20492, 0, 1, 0, 1, 8, 1, .w1c, 0, false⟩,
  ⟨20492, 0, 1, 0, 1, 9, 1, .w1c, 0, false⟩,
  ⟨20492, 0, 1, 0, 1, 10, 1, .w1c, 0, false⟩,
  ⟨20492, 0, 1, 0, 1, 11, 1, .w1c, 0, false⟩,
  ⟨20492, 0, 1, 0, 1, 12, 8, .w1c, 0, false⟩]
/-- Rows 275 to 299 of the field table. -/
def fieldRows11 : List FieldRow := [
  ⟨20492, 0, 1, 0, 1, 20, 1, .w1c, 0, false⟩,
  ⟨20492, 0, 1, 0, 1, 21, 1, .w1c, 0, false⟩,
  ⟨20492, 0, 1, 0, 1, 22, 1, .w1c, 0, false⟩,
  ⟨20492, 0, 1, 0, 1, 23, 1, .w1c, 0, false⟩,
  ⟨20496, 0, 1, 0, 1, 0, 24, .rw, 16777215, true⟩,
  ⟨20500, 0, 1, 0, 1, 0, 1, .wo, 0, false⟩,
  ⟨20500, 0, 1, 0, 1, 1, 1, .wo, 0, false⟩,
  ⟨20500, 0, 1, 0, 1, 2, 1, .wo, 0, false⟩,
  ⟨20512, 4, 4, 0, 1, 0, 32, .ro, 0, true⟩,
  ⟨20528, 0, 1, 0, 1, 0, 32, .ro, 0, true⟩,
  ⟨20532, 0, 1, 0, 1, 0, 32, .ro, 0, true⟩,
  ⟨20536, 0, 1, 0, 1, 0, 32, .ro, 2147483648, true⟩,
  ⟨20544, 0, 1, 0, 1, 0, 32, .ro, 0, true⟩,
  ⟨20548, 0, 1, 0, 1, 0, 32, .ro, 0, true⟩,
  ⟨20560, 4, 4, 0, 1, 0, 32, .ro, 0, true⟩,
  ⟨20576, 4, 4, 0, 1, 0, 32, .ro, 0, true⟩,
  ⟨20592, 4, 4, 0, 1, 0, 32, .ro, 0, true⟩,
  ⟨20608, 8, 2, 0, 1, 0, 32, .rw, 858993459, true⟩,
  ⟨20612, 8, 2, 0, 1, 0, 8, .rw, 3, true⟩,
  ⟨20624, 16, 2, 0, 1, 0, 32, .rw, 0, true⟩,
  ⟨20628, 16, 2, 0, 1, 0, 8, .rw, 0, true⟩,
  ⟨20632, 16, 2, 0, 1, 0, 32, .rw, 0, false⟩,
  ⟨20656, 0, 1, 0, 1, 0, 32, .rw, 0, true⟩,
  ⟨20660, 0, 1, 0, 1, 0, 32, .rw, 0, true⟩,
  ⟨20672, 32, 2, 4, 4, 0, 32, .ro, 0, true⟩]
/-- Rows 300 to 324 of the field table. -/
def fieldRows12 : List FieldRow := [
  ⟨20688, 32, 2, 4, 4, 0, 32, .ro, 0, true⟩,
  ⟨20736, 0, 1, 0, 1, 0, 1, .ro, 0, true⟩,
  ⟨20736, 0, 1, 0, 1, 1, 1, .ro, 0, true⟩,
  ⟨20736, 0, 1, 0, 1, 8, 8, .ro, 0, true⟩,
  ⟨20736, 0, 1, 0, 1, 16, 8, .ro, 0, true⟩,
  ⟨20740, 0, 1, 0, 1, 0, 1, .rw, 0, true⟩,
  ⟨20740, 0, 1, 0, 1, 1, 2, .rw, 0, true⟩,
  ⟨20740, 0, 1, 0, 1, 3, 9, .rw, 100, true⟩,
  ⟨20752, 0, 1, 0, 1, 0, 7, .ro, 0, true⟩,
  ⟨20756, 0, 1, 0, 1, 0, 32, .ro, 0, true⟩,
  ⟨20760, 4, 2, 0, 1, 0, 32, .ro, 0, true⟩,
  ⟨20768, 4, 2, 0, 1, 0, 32, .ro, 0, true⟩,
  ⟨20864, 0, 1, 0, 1, 0, 32, .rw, 0, true⟩,
  ⟨20868, 0, 1, 0, 1, 0, 7, .rw, 0, true⟩,
  ⟨20868, 0, 1, 0, 1, 7, 1, .wo, 0, false⟩,
  ⟨20868, 0, 1, 0, 1, 8, 1, .ro, 0, true⟩,
  ⟨20992, 16, 64, 0, 1, 0, 32, .rw, 0, true⟩,
  ⟨20996, 16, 64, 0, 1, 0, 32, .rw, 0, true⟩,
  ⟨21000, 16, 64, 0, 1, 0, 32, .rw, 0, true⟩,
  ⟨22016, 16, 8, 0, 1, 0, 32, .rw, 0, true⟩,
  ⟨22020, 16, 8, 0, 1, 0, 32, .rw, 0, true⟩,
  ⟨22024, 16, 8, 0, 1, 0, 30, .rw, 0, true⟩,
  ⟨22028, 16, 8, 0, 1, 0, 8, .rw, 0, true⟩,
  ⟨22028, 16, 8, 0, 1, 8, 1, .rw, 0, true⟩,
  ⟨22028, 16, 8, 0, 1, 9, 20, .rw, 0, true⟩]
/-- Rows 325 to 349 of the field table. -/
def fieldRows13 : List FieldRow := [
  ⟨22028, 16, 8, 0, 1, 29, 1, .ro, 0, false⟩,
  ⟨28672, 0, 1, 0, 1, 0, 1, .stg, 1, true⟩,
  ⟨28672, 0, 1, 0, 1, 1, 17, .stg, 60, true⟩,
  ⟨28672, 0, 1, 0, 1, 18, 1, .stg, 1, true⟩,
  ⟨28672, 0, 1, 0, 1, 19, 1, .stg, 1, true⟩,
  ⟨28676, 0, 1, 0, 1, 0, 1, .stg, 1, true⟩,
  ⟨28676, 0, 1, 0, 1, 1, 1, .stg, 0, true⟩,
  ⟨28676, 0, 1, 0, 1, 2, 11, .stg, 2032, true⟩,
  ⟨28680, 0, 1, 0, 1, 0, 3, .ro, 0, false⟩,
  ⟨28680, 0, 1, 0, 1, 3, 3, .ro, 7, false⟩,
  ⟨28680, 0, 1, 0, 1, 6, 1, .ro, 0, true⟩,
  ⟨28680, 0, 1, 0, 1, 7, 1, .ro, 0, true⟩,
  ⟨28680, 0, 1, 0, 1, 8, 1, .ro, 0, true⟩,
  ⟨28680, 0, 1, 0, 1, 9, 2, .ro, 0, true⟩,
  ⟨28680, 0, 1, 0, 1, 11, 2, .ro, 0, true⟩,
  ⟨28680, 0, 1, 0, 1, 13, 1, .ro, 0, true⟩,
  ⟨28680, 0, 1, 0, 1, 14, 1, .ro, 0, true⟩,
  ⟨28680, 0, 1, 0, 1, 15, 1, .ro, 0, true⟩,
  ⟨28680, 0, 1, 0, 1, 16, 1, .ro, 1, true⟩,
  ⟨28680, 0, 1, 0, 1, 17, 1, .ro, 0, true⟩,
  ⟨28680, 0, 1, 0, 1, 18, 1, .ro, 0, false⟩,
  ⟨28684, 0, 1, 0, 1, 0, 28, .ro, 0, true⟩,
  ⟨28688, 0, 1, 0, 1, 0, 10, .w1c, 0, false⟩,
  ⟨28692, 0, 1, 0, 1, 0, 10, .rw, 1023, true⟩,
  ⟨28696, 0, 1, 0, 1, 0, 1, .wo, 0, false⟩]
/-- Rows 350 to 374 of the field table. -/
def fieldRows14 : List FieldRow := [
  ⟨28696, 0, 1, 0, 1, 1, 1, .wo, 0, false⟩,
  ⟨28696, 0, 1, 0, 1, 2, 1, .wo, 0, false⟩,
  ⟨28700, 0, 1, 0, 1, 0, 4, .ro, 0, true⟩,
  ⟨28700, 0, 1, 0, 1, 4, 4, .ro, 0, true⟩,
  ⟨28700, 0, 1, 0, 1, 8, 4, .ro, 0, true⟩,
  ⟨28704, 0, 1, 0, 1, 0, 17, .ro, 131071, false⟩,
  ⟨28708, 0, 1, 0, 1, 0, 3, .ro, 0, false⟩,
  ⟨28708, 0, 1, 0, 1, 3, 5, .ro, 0, true⟩,
  ⟨28708, 0, 1, 0, 1, 8, 3, .ro, 0, true⟩,
  ⟨28708, 0, 1, 0, 1, 12, 20, .ro, 0, false⟩,
  ⟨28712, 0, 1, 0, 1, 0, 32, .ro, 0, true⟩,
  ⟨28716, 0, 1, 0, 1, 0, 32, .ro, 0, true⟩,
  ⟨28720, 0, 1, 0, 1, 0, 32, .ro, 0, true⟩,
  ⟨28724, 0, 1, 0, 1, 0, 16, .ro, 0, true⟩,
  ⟨28724, 0, 1, 0, 1, 16, 16, .ro, 0, true⟩,
  ⟨28728, 0, 1, 0, 1, 0, 32, .ro, 0, true⟩,
  ⟨28732, 0, 1, 0, 1, 0, 32, .ro, 0, true⟩,
  ⟨28736, 0, 1, 0, 1, 0, 32, .ro, 0, false⟩,
  ⟨32768, 0, 1, 0, 1, 0, 1, .w1s, 0, false⟩,
  ⟨32772, 0, 1, 0, 1, 0, 8, .ro, 255, true⟩,
  ⟨32772, 0, 1, 0, 1, 8, 16, .ro, 0, true⟩,
  ⟨32772, 0, 1, 0, 1, 24, 1, .ro, 0, true⟩,
  ⟨32776, 0, 1, 0, 1, 0, 32, .ro, 0, true⟩,
  ⟨32780, 0, 1, 0, 1, 0, 32, .ro, 0, true⟩,
  ⟨32784, 0, 1, 0, 1, 0, 32, .wo, 0, false⟩]
/-- Rows 375 to 399 of the field table. -/
def fieldRows15 : List FieldRow := [
  ⟨32788, 0, 1, 0, 1, 0, 1, .w1c, 0, false⟩,
  ⟨32788, 0, 1, 0, 1, 1, 1, .w1c, 0, false⟩,
  ⟨32788, 0, 1, 0, 1, 2, 1, .w1c, 0, false⟩,
  ⟨32788, 0, 1, 0, 1, 3, 1, .w1c, 0, false⟩,
  ⟨32792, 0, 1, 0, 1, 0, 4, .rw, 15, true⟩,
  ⟨32796, 0, 1, 0, 1, 0, 4, .rw, 0, true⟩,
  ⟨32800, 0, 1, 0, 1, 0, 32, .ro, 0, false⟩,
  ⟨32804, 0, 1, 0, 1, 0, 1, .wo, 0, false⟩,
  ⟨32832, 4, 8, 0, 1, 0, 1, .stg, 0, true⟩,
  ⟨32832, 4, 8, 0, 1, 1, 10, .stg, 10, true⟩,
  ⟨33024, 8, 32, 0, 1, 0, 8, .stg, 0, true⟩,
  ⟨33024, 8, 32, 0, 1, 8, 1, .stg, 0, true⟩,
  ⟨33028, 8, 32, 0, 1, 0, 16, .stg, 0, true⟩,
  ⟨33280, 0, 1, 0, 1, 0, 5, .ro, 0, true⟩,
  ⟨33312, 0, 1, 0, 1, 0, 5, .ro, 0, true⟩,
  ⟨33280, 0, 1, 0, 1, 5, 1, .ro, 0, true⟩,
  ⟨33312, 0, 1, 0, 1, 5, 1, .ro, 0, true⟩,
  ⟨33284, 4, 4, 0, 1, 0, 32, .ro, 0, true⟩,
  ⟨33316, 4, 4, 0, 1, 0, 32, .ro, 0, true⟩,
  ⟨33536, 4, 32, 0, 1, 0, 16, .ro, 0, true⟩,
  ⟨8192, 0, 1, 0, 1, 0, 1, .rw, 0, false⟩,
  ⟨8192, 0, 1, 0, 1, 1, 10, .rw, 1, false⟩,
  ⟨8196, 0, 1, 0, 1, 0, 2, .ro, 0, false⟩,
  ⟨8196, 0, 1, 0, 1, 2, 3, .ro, 0, true⟩,
  ⟨8196, 0, 1, 0, 1, 5, 3, .ro, 0, true⟩]
/-- Rows 400 to 424 of the field table. -/
def fieldRows16 : List FieldRow := [
  ⟨8196, 0, 1, 0, 1, 8, 1, .ro, 0, true⟩,
  ⟨8196, 0, 1, 0, 1, 9, 16, .ro, 0, false⟩,
  ⟨8200, 0, 1, 0, 1, 0, 8, .w1c, 0, false⟩,
  ⟨8204, 0, 1, 0, 1, 0, 1, .w1s, 0, false⟩,
  ⟨8208, 0, 1, 0, 1, 12, 20, .rw, 0, false⟩,
  ⟨8212, 0, 1, 0, 1, 0, 32, .rw, 0, false⟩,
  ⟨8228, 0, 1, 0, 1, 0, 32, .rw, 0, false⟩,
  ⟨8260, 32, 4, 0, 1, 0, 32, .rw, 0, false⟩,
  ⟨8268, 32, 4, 0, 1, 0, 32, .rw, 0, false⟩,
  ⟨8452, 16, 16, 0, 1, 0, 32, .rw, 0, false⟩,
  ⟨8216, 0, 1, 0, 1, 0, 8, .rw, 0, false⟩,
  ⟨8224, 0, 1, 0, 1, 6, 26, .rw, 0, false⟩,
  ⟨8256, 32, 4, 0, 1, 6, 26, .rw, 0, false⟩,
  ⟨8264, 32, 4, 0, 1, 6, 26, .rw, 0, false⟩,
  ⟨8448, 16, 16, 0, 1, 6, 26, .rw, 0, false⟩,
  ⟨8232, 0, 1, 0, 1, 0, 1, .rw, 0, false⟩,
  ⟨8232, 0, 1, 0, 1, 1, 5, .rw, 6, false⟩,
  ⟨8272, 32, 4, 0, 1, 0, 1, .rw, 0, false⟩,
  ⟨8272, 32, 4, 0, 1, 1, 5, .rw, 4, false⟩,
  ⟨8272, 32, 4, 0, 1, 6, 5, .rw, 4, false⟩,
  ⟨8276, 32, 4, 0, 1, 0, 9, .rwl, 511, true⟩,
  ⟨8276, 32, 4, 0, 1, 16, 1, .rwl, 0, true⟩,
  ⟨8276, 32, 4, 0, 1, 17, 1, .rwl, 0, true⟩,
  ⟨8280, 32, 4, 0, 1, 0, 1, .ro, 0, false⟩,
  ⟨8280, 32, 4, 0, 1, 1, 1, .ro, 0, false⟩]
/-- Rows 425 to 449 of the field table. -/
def fieldRows17 : List FieldRow := [
  ⟨8280, 32, 4, 0, 1, 2, 1, .ro, 0, false⟩,
  ⟨8456, 16, 16, 0, 1, 0, 1, .rw, 0, false⟩,
  ⟨8456, 16, 16, 0, 1, 1, 4, .rw, 4, false⟩,
  ⟨12288, 4, 4, 0, 1, 0, 32, .rw, 0, false⟩,
  ⟨12304, 4, 4, 0, 1, 0, 32, .rw, 4294902208, false⟩,
  ⟨12320, 4, 4, 0, 1, 0, 32, .w1c, 0, false⟩,
  ⟨12336, 0, 1, 0, 1, 0, 32, .ro, 0, false⟩,
  ⟨12800, 4, 128, 0, 1, 0, 8, .rw, 1, false⟩,
  ⟨12800, 4, 128, 0, 1, 8, 16, .rw, 0, false⟩,
  ⟨4096, 0, 1, 0, 1, 0, 1, .rw, 0, false⟩,
  ⟨4100, 0, 1, 0, 1, 0, 2, .ro, 0, false⟩,
  ⟨4100, 0, 1, 0, 1, 2, 1, .ro, 0, false⟩,
  ⟨4100, 0, 1, 0, 1, 3, 1, .w1c, 0, false⟩,
  ⟨4100, 0, 1, 0, 1, 4, 3, .ro, 0, true⟩,
  ⟨4100, 0, 1, 0, 1, 7, 1, .ro, 0, true⟩,
  ⟨4104, 0, 1, 0, 1, 0, 8, .ro, 0, false⟩,
  ⟨4104, 0, 1, 0, 1, 16, 16, .ro, 0, false⟩,
  ⟨4108, 0, 1, 0, 1, 0, 32, .ro, 0, false⟩,
  ⟨4112, 0, 1, 0, 1, 0, 32, .ro, 0, true⟩,
  ⟨4116, 0, 1, 0, 1, 0, 32, .ro, 0, true⟩,
  ⟨4120, 0, 1, 0, 1, 0, 32, .ro, 0, true⟩,
  ⟨4124, 0, 1, 0, 1, 0, 32, .ro, 0, true⟩,
  ⟨4128, 0, 1, 0, 1, 0, 20, .ro, 0, false⟩,
  ⟨4132, 0, 1, 0, 1, 0, 4, .stg, 0, false⟩,
  ⟨4136, 0, 1, 0, 1, 0, 32, .ro, 0, true⟩]
/-- Rows 450 to 474 of the field table. -/
def fieldRows18 : List FieldRow := [
  ⟨4140, 0, 1, 0, 1, 0, 16, .stg, 0, false⟩,
  ⟨36864, 4096, 2, 0, 1, 0, 1, .stg, 0, true⟩,
  ⟨36864, 4096, 2, 0, 1, 1, 1, .stg, 0, true⟩,
  ⟨36864, 4096, 2, 0, 1, 2, 1, .stg, 0, true⟩,
  ⟨36864, 4096, 2, 0, 1, 3, 1, .stg, 0, true⟩,
  ⟨36864, 4096, 2, 0, 1, 4, 1, .stg, 0, true⟩,
  ⟨36864, 4096, 2, 0, 1, 5, 6, .stg, 0, true⟩,
  ⟨36868, 4096, 2, 0, 1, 0, 5, .stg, 0, true⟩,
  ⟨36872, 4096, 2, 0, 1, 0, 5, .stg, 0, true⟩,
  ⟨36868, 4096, 2, 0, 1, 5, 8, .stg, 1, true⟩,
  ⟨36872, 4096, 2, 0, 1, 5, 8, .stg, 1, true⟩,
  ⟨36868, 4096, 2, 0, 1, 13, 7, .stg, 1, true⟩,
  ⟨36872, 4096, 2, 0, 1, 13, 7, .stg, 1, true⟩,
  ⟨36868, 4096, 2, 0, 1, 20, 7, .stg, 1, true⟩,
  ⟨36872, 4096, 2, 0, 1, 20, 7, .stg, 1, true⟩,
  ⟨36876, 4096, 2, 0, 1, 0, 1, .stg, 0, true⟩,
  ⟨36876, 4096, 2, 0, 1, 1, 1, .stg, 0, true⟩,
  ⟨36876, 4096, 2, 0, 1, 2, 3, .stg, 0, true⟩,
  ⟨36876, 4096, 2, 0, 1, 5, 3, .stg, 0, true⟩,
  ⟨36876, 4096, 2, 0, 1, 8, 16, .stg, 0, true⟩,
  ⟨36880, 4096, 2, 0, 1, 0, 16, .stg, 0, true⟩,
  ⟨36880, 4096, 2, 0, 1, 16, 16, .stg, 0, true⟩,
  ⟨36884, 4096, 2, 0, 1, 0, 2, .ro, 0, false⟩,
  ⟨36884, 4096, 2, 0, 1, 2, 1, .ro, 1, false⟩,
  ⟨36884, 4096, 2, 0, 1, 3, 1, .ro, 0, false⟩]
/-- Rows 475 to 499 of the field table. -/
def fieldRows19 : List FieldRow := [
  ⟨36884, 4096, 2, 0, 1, 4, 8, .ro, 0, false⟩,
  ⟨36884, 4096, 2, 0, 1, 12, 9, .ro, 0, false⟩,
  ⟨36888, 4096, 2, 0, 1, 0, 9, .w1c, 0, false⟩,
  ⟨36892, 4096, 2, 0, 1, 0, 9, .rw, 511, true⟩,
  ⟨36896, 4096, 2, 0, 1, 0, 1, .wo, 0, false⟩,
  ⟨36896, 4096, 2, 0, 1, 1, 1, .wo, 0, false⟩,
  ⟨36896, 4096, 2, 0, 1, 2, 1, .wo, 0, false⟩,
  ⟨36900, 4096, 2, 0, 1, 0, 29, .ro, 0, false⟩,
  ⟨36900, 4096, 2, 0, 1, 29, 1, .ro, 0, false⟩,
  ⟨36900, 4096, 2, 0, 1, 30, 2, .ro, 0, false⟩,
  ⟨36904, 4096, 2, 0, 1, 0, 6, .ro, 0, false⟩,
  ⟨36904, 4096, 2, 0, 1, 6, 1, .ro, 0, false⟩,
  ⟨36904, 4096, 2, 0, 1, 7, 1, .ro, 0, false⟩,
  ⟨36928, 4096, 2, 4, 6, 0, 32, .ro, 0, false⟩,
  ⟨37120, 4096, 2, 32, 64, 0, 3, .stg, 0, true⟩,
  ⟨37120, 4096, 2, 32, 64, 3, 4, .stg, 0, true⟩,
  ⟨37120, 4096, 2, 32, 64, 7, 1, .stg, 0, true⟩,
  ⟨37120, 4096, 2, 32, 64, 8, 1, .stg, 0, true⟩,
  ⟨37120, 4096, 2, 32, 64, 9, 4, .stg, 0, true⟩,
  ⟨37120, 4096, 2, 32, 64, 13, 1, .stg, 0, true⟩,
  ⟨37120, 4096, 2, 32, 64, 14, 2, .stg, 0, true⟩,
  ⟨37120, 4096, 2, 32, 64, 16, 6, .stg, 0, true⟩,
  ⟨37120, 4096, 2, 32, 64, 22, 8, .stg, 0, true⟩,
  ⟨37124, 4096, 2, 32, 64, 0, 29, .stg, 0, true⟩,
  ⟨37124, 4096, 2, 32, 64, 29, 1, .stg, 0, true⟩]
/-- Rows 500 to 524 of the field table. -/
def fieldRows20 : List FieldRow := [
  ⟨37128, 4096, 2, 32, 64, 0, 29, .stg, 0, true⟩,
  ⟨37132, 4096, 2, 32, 64, 0, 8, .stg, 0, true⟩,
  ⟨37132, 4096, 2, 32, 64, 8, 8, .stg, 0, true⟩,
  ⟨37136, 4096, 2, 32, 64, 0, 18, .stg, 0, true⟩,
  ⟨37140, 4096, 2, 32, 64, 0, 16, .stg, 0, true⟩,
  ⟨37140, 4096, 2, 32, 64, 16, 3, .stg, 0, true⟩,
  ⟨37140, 4096, 2, 32, 64, 19, 6, .stg, 0, true⟩,
  ⟨37140, 4096, 2, 32, 64, 25, 4, .stg, 0, true⟩,
  ⟨37140, 4096, 2, 32, 64, 29, 1, .stg, 0, true⟩,
  ⟨37144, 4096, 2, 32, 64, 0, 1, .ro, 0, false⟩,
  ⟨37144, 4096, 2, 32, 64, 1, 1, .ro, 0, false⟩,
  ⟨37144, 4096, 2, 32, 64, 2, 1, .ro, 0, false⟩,
  ⟨37144, 4096, 2, 32, 64, 3, 1, .ro, 0, false⟩,
  ⟨37144, 4096, 2, 32, 64, 4, 1, .ro, 0, false⟩,
  ⟨37144, 4096, 2, 32, 64, 5, 1, .ro, 0, false⟩,
  ⟨37144, 4096, 2, 32, 64, 6, 1, .ro, 0, false⟩,
  ⟨37144, 4096, 2, 32, 64, 7, 1, .ro, 0, false⟩,
  ⟨37144, 4096, 2, 32, 64, 8, 8, .ro, 0, false⟩,
  ⟨39936, 4096, 2, 0, 1, 0, 6, .rw, 0, false⟩,
  ⟨39940, 4096, 2, 0, 1, 0, 32, .ro, 0, false⟩,
  ⟨39944, 4096, 2, 0, 1, 0, 7, .ro, 0, false⟩,
  ⟨39944, 4096, 2, 0, 1, 7, 1, .ro, 1, false⟩,
  ⟨39948, 4096, 2, 4, 16, 0, 32, .ro, 0, false⟩,
  ⟨40012, 4096, 2, 0, 1, 0, 32, .ro, 0, false⟩,
  ⟨40016, 4096, 2, 0, 1, 0, 30, .ro, 0, false⟩]
/-- Rows 525 to 549 of the field table. -/
def fieldRows21 : List FieldRow := [
  ⟨40020, 4096, 2, 0, 1, 0, 8, .ro, 0, false⟩,
  ⟨45056, 0, 1, 0, 1, 0, 8, .ro, 0, false⟩,
  ⟨45056, 0, 1, 0, 1, 8, 8, .w1c, 0, false⟩,
  ⟨45060, 0, 1, 0, 1, 0, 32, .ro, 0, false⟩,
  ⟨45312, 32, 8, 0, 1, 0, 1, .wo, 0, false⟩,
  ⟨45312, 32, 8, 0, 1, 1, 1, .wo, 0, false⟩,
  ⟨45316, 32, 8, 0, 1, 0, 8, .wo, 0, false⟩,
  ⟨45320, 32, 8, 0, 1, 0, 16, .wo, 0, false⟩,
  ⟨45324, 32, 8, 0, 1, 0, 32, .wo, 0, false⟩,
  ⟨45328, 32, 8, 0, 1, 0, 32, .ro, 0, false⟩,
  ⟨45332, 32, 8, 0, 1, 0, 32, .ro, 0, false⟩,
  ⟨49152, 4, 4, 0, 1, 0, 1, .stg, 0, true⟩,
  ⟨49152, 4, 4, 0, 1, 1, 1, .stg, 0, true⟩,
  ⟨49168, 4, 4, 0, 1, 0, 32, .w1s, 0, false⟩,
  ⟨49184, 0, 1, 0, 1, 0, 4, .w1c, 0, false⟩,
  ⟨49216, 16, 4, 0, 1, 0, 1, .w1c, 0, false⟩,
  ⟨49216, 16, 4, 0, 1, 1, 2, .ro, 0, false⟩,
  ⟨49216, 16, 4, 0, 1, 3, 5, .ro, 0, false⟩,
  ⟨49216, 16, 4, 0, 1, 8, 8, .ro, 0, false⟩,
  ⟨49216, 16, 4, 0, 1, 16, 13, .ro, 0, false⟩,
  ⟨49216, 16, 4, 0, 1, 29, 1, .ro, 0, false⟩,
  ⟨49220, 16, 4, 0, 1, 0, 32, .ro, 0, false⟩,
  ⟨49224, 16, 4, 0, 1, 0, 32, .ro, 0, false⟩,
  ⟨49228, 16, 4, 0, 1, 0, 32, .ro, 0, false⟩,
  ⟨50176, 512, 4, 16, 32, 0, 1, .stg, 0, true⟩]
/-- Rows 550 to 574 of the field table. -/
def fieldRows22 : List FieldRow := [
  ⟨50176, 512, 4, 16, 32, 1, 1, .stg, 0, true⟩,
  ⟨50176, 512, 4, 16, 32, 2, 1, .stg, 0, true⟩,
  ⟨50176, 512, 4, 16, 32, 3, 1, .stg, 0, true⟩,
  ⟨50176, 512, 4, 16, 32, 4, 1, .stg, 0, true⟩,
  ⟨50176, 512, 4, 16, 32, 5, 1, .stg, 0, true⟩,
  ⟨50176, 512, 4, 16, 32, 6, 26, .stg, 0, true⟩,
  ⟨50184, 512, 4, 16, 32, 6, 26, .stg, 0, true⟩,
  ⟨50180, 512, 4, 16, 32, 0, 32, .stg, 0, true⟩,
  ⟨50188, 512, 4, 16, 32, 0, 32, .stg, 0, true⟩,
  ⟨53248, 0, 1, 0, 1, 0, 1, .stg, 1, true⟩,
  ⟨53252, 0, 1, 0, 1, 0, 13, .ro, 0, true⟩,
  ⟨53252, 0, 1, 0, 1, 13, 1, .ro, 0, true⟩,
  ⟨53252, 0, 1, 0, 1, 14, 1, .ro, 0, true⟩,
  ⟨53252, 0, 1, 0, 1, 15, 1, .ro, 0, true⟩,
  ⟨53252, 0, 1, 0, 1, 16, 1, .ro, 0, true⟩,
  ⟨53252, 0, 1, 0, 1, 17, 5, .ro, 0, true⟩,
  ⟨53256, 0, 1, 0, 1, 0, 5, .w1c, 0, false⟩,
  ⟨53260, 0, 1, 0, 1, 0, 5, .rw, 31, true⟩,
  ⟨53264, 0, 1, 0, 1, 0, 32, .ro, 0, true⟩,
  ⟨53268, 0, 1, 0, 1, 0, 1, .wo, 0, false⟩,
  ⟨53272, 0, 1, 0, 1, 0, 32, .ro, 0, true⟩,
  ⟨53504, 4, 64, 0, 1, 0, 1, .stg, 0, true⟩,
  ⟨53504, 4, 64, 0, 1, 1, 7, .stg, 0, true⟩,
  ⟨53504, 4, 64, 0, 1, 8, 1, .stg, 0, true⟩,
  ⟨53504, 4, 64, 0, 1, 9, 3, .stg, 0, true⟩]
/-- Rows 575 to 599 of the field table. -/
def fieldRows23 : List FieldRow := [
  ⟨53504, 4, 64, 0, 1, 12, 12, .stg, 0, true⟩,
  ⟨53504, 4, 64, 0, 1, 24, 5, .stg, 0, true⟩,
  ⟨53504, 4, 64, 0, 1, 29, 1, .stg, 0, true⟩,
  ⟨55296, 256, 8, 4, 64, 0, 32, .stg, 0, true⟩,
  ⟨57344, 0, 1, 0, 1, 0, 3, .ro, 0, false⟩,
  ⟨57344, 0, 1, 0, 1, 3, 1, .ro, 0, true⟩,
  ⟨57344, 0, 1, 0, 1, 4, 2, .ro, 0, true⟩,
  ⟨57344, 0, 1, 0, 1, 6, 2, .ro, 0, true⟩,
  ⟨57344, 0, 1, 0, 1, 8, 2, .ro, 0, true⟩,
  ⟨57344, 0, 1, 0, 1, 10, 2, .ro, 0, false⟩,
  ⟨57344, 0, 1, 0, 1, 12, 2, .ro, 0, true⟩,
  ⟨57344, 0, 1, 0, 1, 14, 6, .ro, 0, true⟩,
  ⟨57348, 0, 1, 0, 1, 0, 12, .stg, 300, true⟩,
  ⟨57348, 0, 1, 0, 1, 12, 1, .stg, 0, true⟩,
  ⟨57348, 0, 1, 0, 1, 13, 1, .stg, 1, true⟩,
  ⟨57352, 0, 1, 0, 1, 0, 6, .w1c, 0, false⟩,
  ⟨57356, 0, 1, 0, 1, 0, 6, .rw, 63, true⟩,
  ⟨57360, 0, 1, 0, 1, 0, 12, .ro, 0, true⟩,
  ⟨57364, 0, 1, 0, 1, 0, 32, .ro, 0, true⟩,
  ⟨57368, 0, 1, 0, 1, 0, 32, .ro, 0, true⟩,
  ⟨57372, 0, 1, 0, 1, 0, 32, .ro, 0, true⟩,
  ⟨57376, 0, 1, 0, 1, 0, 32, .ro, 0, true⟩,
  ⟨57380, 0, 1, 0, 1, 0, 8, .ro, 0, true⟩,
  ⟨57380, 0, 1, 0, 1, 8, 8, .ro, 0, true⟩,
  ⟨57392, 0, 1, 0, 1, 0, 2, .ro, 0, true⟩]
/-- Rows 600 to 624 of the field table. -/
def fieldRows24 : List FieldRow := [
  ⟨57392, 0, 1, 0, 1, 2, 1, .ro, 0, false⟩,
  ⟨57600, 8, 16, 0, 1, 0, 32, .ro, 0, true⟩,
  ⟨57604, 8, 16, 0, 1, 0, 8, .ro, 0, true⟩,
  ⟨57604, 8, 16, 0, 1, 8, 8, .ro, 0, true⟩,
  ⟨61440, 0, 1, 0, 1, 0, 3, .ro, 0, true⟩,
  ⟨61440, 0, 1, 0, 1, 3, 3, .ro, 0, true⟩,
  ⟨61440, 0, 1, 0, 1, 6, 1, .ro, 0, true⟩,
  ⟨61440, 0, 1, 0, 1, 7, 1, .ro, 1, true⟩,
  ⟨61440, 0, 1, 0, 1, 8, 1, .ro, 0, true⟩,
  ⟨61440, 0, 1, 0, 1, 9, 1, .ro, 0, true⟩,
  ⟨61444, 0, 1, 0, 1, 0, 12, .ro, 4095, true⟩,
  ⟨61448, 0, 1, 0, 1, 0, 3, .wo, 0, false⟩,
  ⟨61448, 0, 1, 0, 1, 3, 1, .wo, 0, false⟩,
  ⟨61452, 0, 1, 0, 1, 0, 2, .ro, 3, false⟩,
  ⟨61452, 0, 1, 0, 1, 2, 5, .stg, 31, true⟩,
  ⟨61452, 0, 1, 0, 1, 7, 3, .stg, 6, true⟩,
  ⟨61456, 0, 1, 0, 1, 0, 6, .w1c, 0, false⟩,
  ⟨61460, 0, 1, 0, 1, 0, 6, .rw, 63, true⟩,
  ⟨61464, 0, 1, 0, 1, 0, 3, .ro, 0, true⟩,
  ⟨61464, 0, 1, 0, 1, 3, 1, .ro, 0, true⟩,
  ⟨61468, 0, 1, 0, 1, 0, 1, .wo, 0, false⟩,
  ⟨61468, 0, 1, 0, 1, 1, 1, .wo, 0, false⟩,
  ⟨61468, 0, 1, 0, 1, 2, 1, .wo, 0, false⟩,
  ⟨61472, 0, 1, 0, 1, 0, 4, .ro, 0, true⟩,
  ⟨61472, 0, 1, 0, 1, 4, 3, .ro, 0, true⟩]
/-- Rows 625 to 634 of the field table. -/
def fieldRows25 : List FieldRow := [
  ⟨61472, 0, 1, 0, 1, 8, 8, .ro, 0, true⟩,
  ⟨61476, 0, 1, 0, 1, 0, 14, .ro, 12000, true⟩,
  ⟨61476, 0, 1, 0, 1, 14, 13, .ro, 3000, true⟩,
  ⟨61480, 0, 1, 0, 1, 0, 32, .rw, 0, true⟩,
  ⟨61484, 0, 1, 0, 1, 0, 32, .rw, 0, true⟩,
  ⟨14080, 4, 4, 0, 1, 0, 32, .ro, 0, false⟩,
  ⟨14336, 16, 128, 0, 1, 0, 32, .rw, 0, false⟩,
  ⟨14340, 16, 128, 0, 1, 0, 32, .rw, 0, false⟩,
  ⟨14344, 16, 128, 0, 1, 0, 32, .rw, 0, false⟩,
  ⟨14348, 16, 128, 0, 1, 0, 1, .rw, 1, false⟩]

/-- The field table of the setup map, in the order of the chapters. -/
def fieldRows : List FieldRow :=
  fieldRows0 ++ fieldRows1 ++ fieldRows2 ++ fieldRows3 ++ fieldRows4 ++ fieldRows5 ++
  fieldRows6 ++ fieldRows7 ++ fieldRows8 ++ fieldRows9 ++ fieldRows10 ++ fieldRows11 ++
  fieldRows12 ++ fieldRows13 ++ fieldRows14 ++ fieldRows15 ++ fieldRows16 ++ fieldRows17 ++
  fieldRows18 ++ fieldRows19 ++ fieldRows20 ++ fieldRows21 ++ fieldRows22 ++ fieldRows23 ++
  fieldRows24 ++ fieldRows25

/-- The rows of the register at an offset. -/
def rowsAt (off : Nat) : List FieldRow := fieldRows.filter (fun r => r.covers off)

end Sys2Proof.Machine
end

