-- ==== Sys2Proof/Machine/State.lean ====
section
/-! DEFINITION. The state of the module: every register field, FIFO, counter, mode and line the spec gives it,
as plain data, and the queue of waiting commands. -/

namespace Sys2Proof.Machine

/-- A register map: field key to value, a field at its cold value unlisted. -/
abbrev RegMap := SMap Nat

/-- A slot's value and tag (R49). -/
structure Entry where
  value : Sample
  tag : Tag
  deriving DecidableEq, Repr

/-- The image entry of a slot after a cold start (R51): value 0, quality BAD. -/
def Entry.coldEntry : Entry := ⟨0, 3⟩

/-- A slot of the image below any force: entry and age count (R49, R56, R62). -/
structure SlotCell where
  entry : Entry
  age : Nat
  deriving DecidableEq, Repr

/-- A slot after a cold start (R51). -/
def SlotCell.coldCell : SlotCell := ⟨Entry.coldEntry, 0⟩

/-- A release latch of an output slot (R14, R35): the entry last released and the sample it came from. -/
structure Latch where
  entry : Entry
  sample : Nat
  deriving DecidableEq, Repr

/-- One loop field that a task or the host writes: what is written, and the first sample that takes it
(R68, R173, R176). [log 22 DEDUCED] -/
structure LoopReq where
  start : Nat
  target : Option Int
  manual : Option Int
  mode : Option Nat
  deriving DecidableEq, Repr

/-- The results of one item waiting for their release instant (R35, R36). Tasks are items 0 to 15, loop L is
item 16 + L. [log 21 DEDUCED] -/
structure Held where
  item : Nat
  sample : Nat
  turn : Nat
  slots : List (Nat × Entry)
  loopWrites : List (Nat × LoopReq)
  mill : List (Nat × List Word36)
  deriving DecidableEq, Repr

/-- The turn engine, the views of the turn, the release latches and the slack meter (chapters 02 and 08). -/
structure TurnSt where
  k : Nat
  kOrigin : Nat
  /-- The origin in working time, units of 2^−32 ns. -/
  origin : Nat
  /-- The turn at which the engine started, for R113. -/
  startTurn : Nat
  /-- The latest turn whose input cut-off has passed, plus 1. -/
  cutoffs : Nat
  /-- The turn of the next release instant to fire. -/
  nextRel : Nat
  /-- The turn of the next wheel deadline to pass (R34). -/
  nextDl : Nat
  latches : SMap Latch
  held : List Held
  /-- Evaluations due and not done: sample and loop (R34, R170). -/
  evals : List (Nat × Nat)
  /-- Wheel views by sample (R172). -/
  views : SMap (SMap Entry)
  /-- Loop braked flags of a sample, fixed at its cut-off (R204): loops braked. -/
  brakedAt : SMap (List Nat)
  /-- Successive samples in which a wheel group slipped (R43), and the groups that had evaluations due at a sample whose
  deadline has not passed. -/
  groups : SMap Nat
  dueGroups : SMap (List Nat)
  /-- The LOCAL tick at which FAULT_RECORD's fault was detected (R46). -/
  faultTick : Option Nat
  /-- Least slack of the regulation interval, and whether a slip fell in it (R40). -/
  leastSlack : Option Nat
  slipSeen : Bool
  /-- Slips in the last 100 µs, least slack in the last 100 µs (R284). -/
  healthSlips : Nat
  healthSlack : Option Nat
  deriving DecidableEq, Repr

/-- The signal image (chapter 03): slots, forces, and what has arrived for the present sample. -/
structure ImageSt where
  slots : SMap SlotCell
  forces : SMap Sample
  /-- Stations whose INPUT frame counted for the present turn (R33, R283). -/
  got : List Nat
  /-- Ring-input slots that took a publication for the present turn (R228). -/
  gotRing : List Nat
  /-- Slots under BRAKE that hold their slot-loss source (R57). -/
  loss : SMap Nat
  /-- Host writes waiting for their boundary (R68, R312, R378). -/
  waiting : List (Nat × HostWrite)
  /-- Slots whose present value came from a commit of a sample; the writer change bars older samples (R158). -/
  barred : SMap Nat
  /-- Slots (and 2^20 + loop, 2^21 + mill buffer) whose writer changed, with the commit boundary (R158). -/
  writerSince : SMap Nat
  /-- Slots whose writer moved, or that had none while forced, until their new writer's first commit (R166). -/
  moved : List Nat
  deriving DecidableEq, Repr

/-- One position of a Skein port (R90, R95, R96). -/
structure SkeinPos where
  inRun : Nat
  rtts : List Nat
  sent : Option (Nat × Nat)
  owesAnswer : Bool
  deriving DecidableEq, Repr

/-- One Skein port (R77, R90, R98). -/
structure SkeinPort where
  marksMissing : Nat
  marksRun : Nat
  markSeen : Bool
  echoPos : Nat
  echoSeq : Nat
  /-- Requests not yet answered: position and sequence. -/
  echoOut : List (Nat × Nat)
  /-- The turn of the latest SETUP frame (R88), and the instant at which the last frame launched has left, in ps of
  LOCAL (R75, R307). -/
  setupTurn : Option Nat
  busy : Nat
  /-- Chain asymmetry times 2, D01 − D10, at its last intact value. -/
  asym : Int
  /-- Round-trip mean that the partner reported for each position. -/
  farRtt : SMap Nat
  deriving DecidableEq, Repr

/-- The Skein links (chapter 04). Alive maps are keyed by end, type and station. -/
structure SkeinSt where
  ports : SMap SkeinPort
  pos : SMap SkeinPos
  rxAlive : SMap (Nat × Nat)
  txAlive : SMap Nat
  /-- Stations received directly in the present turn, and in the previous one (R99). -/
  direct : List Nat
  directPrev : List Nat
  /-- Stations that the partner's latest REACH lacked (R99). -/
  partnerLacks : List Nat
  /-- Stations the active lacks while this module reaches them: first report turn (R100). -/
  proxyFrom : SMap Nat
  /-- Stations served by proxy now (R100). -/
  proxy : List Nat
  /-- Stations that this module lacked and its partner reached at their latest comparison (R99, R283). -/
  lacksMe : List Nat
  deriving DecidableEq, Repr

/-- One running loop of a strand (R127, R138): body, iterations left and the index of this one. -/
structure LoopFrame where
  first : Nat
  last : Nat
  left : Nat
  index : Nat
  /-- Calls open when the loop began: only code at that depth is its body. -/
  depth : Nat
  deriving DecidableEq, Repr

/-- Where a strand stands (R105, R106). -/
inductive StrandPhase where
  | queued | running | ended | stopped
  deriving DecidableEq, Repr

/-- The state a strand sees (R127). -/
structure Strand where
  g : SMap Word36
  z : Bool
  n : Bool
  c : Bool
  v : Bool
  q : Bool
  lt : Tag
  pc : Nat
  loops : List LoopFrame
  calls : List Nat
  phase : StrandPhase
  deriving DecidableEq, Repr

/-- The state at the start of every strand (R127). -/
def Strand.start : Strand := ⟨[], false, false, false, false, false, 0, 0, [], [], .queued⟩

/-- A trap of an instance (R141, R142): code, strand, pc and user code. -/
structure TrapInfo where
  code : Nat
  strand : Nat
  pc : Nat
  user : Nat
  deriving DecidableEq, Repr

/-- The step a task instance stands at (R105, R159). -/
inductive InstPhase where
  | carry | copying | running | committing
  deriving DecidableEq, Repr

/-- An instance that is due and has not started (R42, R133): its sample and the messages its MBR will read. -/
structure DueInst where
  sample : Nat
  mbr : SMap (Option (List Word36 × Nat))
  deriving DecidableEq, Repr

/-- One task instance (R105): its sample, its views, its writes and its strands. -/
structure TaskInst where
  prog : Bytes
  sample : Nat
  period : Nat
  first : Bool
  prevSlip : Bool
  phase : InstPhase
  view : SMap Entry
  /-- Loop nodes of the view, keyed by loop × 8 + node. -/
  nodes : SMap Int
  /-- Newest messages of receive buffers at boundary k, keyed by channel × 64 + buffer (R133). -/
  mbr : SMap (Option (List Word36 × Nat))
  out : SMap Entry
  data : SMap Word36
  loopWrites : List (Nat × LoopReq)
  mbq : SMap (List Word36)
  /-- The spindle of each strand (R104). -/
  spindles : List Nat
  strands : List Strand
  /-- A carry under way (R159, R163): the old data words found unreadable. -/
  carry : Option (List Nat)
  deriving DecidableEq, Repr

/-- A verdict on an instance that waits for the partner's record (R115, R143). -/
structure Decision where
  sample : Nat
  trap : Option TrapInfo
  deriving DecidableEq, Repr

/-- One task (chapters 05, 06 and 07). -/
structure TaskSt where
  started : Bool
  /-- First boundary at which it may start an instance. -/
  notBefore : Nat
  first : Bool
  slipRun : Nat
  prevSlip : Bool
  /-- The last boundary at which an instance was due under the present settings. -/
  lastDue : Option Nat
  /-- Samples due whose instance has not started (R42), with the messages its MBR will read (R133). -/
  waiting : List DueInst
  inst : Option TaskInst
  data : SMap Word36
  trapped : Bool
  overrun : Option Decision
  trap : Option Decision
  /-- The partner's completion records: sample, trap code (0 none), plus 256 if it ended by its release instant. -/
  partnerDone : SMap Nat
  /-- Sample of the latest completed instance. -/
  lastDone : Option Nat
  /-- Sample of the latest instance that slipped (R46). -/
  lastSlip : Option Nat
  /-- Own traps by sample, for a partner's overrun or trap judgement. -/
  ownTraps : SMap Nat
  /-- Last message returned per receive buffer, by the number of its snapshot (R133). -/
  mbrSeen : SMap Nat
  /-- A switch not yet carried over (R156, R159): b_t, and the program and the data layout it carries from. -/
  switchAt : Option Nat
  oldProg : Option Bytes
  /-- An instance has started since cold start (R161). -/
  ran : Bool
  deriving DecidableEq, Repr

/-- A task that has not run since cold start. -/
def TaskSt.fresh : TaskSt :=
  { started := false, notBefore := 0, first := true, slipRun := 0, prevSlip := false, lastDue := none,
    waiting := [], inst := none, data := [], trapped := false, overrun := none, trap := none, partnerDone := [],
    lastDone := none, lastSlip := none, ownTraps := [], mbrSeen := [], switchAt := none, oldProg := none, ran := false }

/-- A retained copy in MRAM (R111, R164): per task, the program identity and the retained words. -/
structure RetainCopy where
  good : Bool
  serial : Nat
  tasks : SMap (Nat × List Word36)
  deriving DecidableEq, Repr

/-- The tasks, the spindles and the key switch (chapter 05). -/
structure TasksSt where
  task : SMap TaskSt
  /-- The strand each spindle runs: task × 8 + strand. -/
  spindle : SMap Nat
  /-- A key change named: boundary and position (R122). -/
  keyNext : Option (Nat × Nat)
  /-- The LOCAL tick at which that position was taken. -/
  keyTick : Nat
  /-- First boundary at which tasks may start (R113, R114). -/
  startAt : Nat
  /-- Overrun stop that ORDER 5 named at a release turn: turn, task, trap (R116). -/
  overrunNext : Option (Nat × Nat × Bool)
  /-- The snapshots of receive buffers that MBR reads (R133), by channel × 64 + buffer: their number, and the newest, none
  where the buffer has never held a message; and the message that this module last made one of. -/
  millSnap : SMap (Nat × Option (List Word36))
  millTaken : SMap (List Word36 × Nat × Nat)
  /-- The boundary at which STOP began or was left (R125). -/
  stopFrom : Option Nat
  leftStop : Option Nat
  /-- Overrun stop brakes from this release turn (R116). -/
  overrunFrom : Option Nat
  retain : SMap RetainCopy
  flushing : Option Nat
  flushWanted : Bool
  flushSerial : Nat
  /-- A cold start has not yet restored the retained variables (R112). -/
  restoreDue : Bool
  /-- The longer of old and new turn length for the watchdog around a retiming commit (R118). -/
  wdogT : Nat
  deriving DecidableEq, Repr

/-- The program store (R148, R165): the active and the staged image of each slot. [log 62 DEDUCED] -/
structure ProgSt where
  active : SMap Bytes
  staged : SMap Bytes
  /-- Slots whose last piece is loaded and whose verification runs. -/
  verifying : List Nat
  /-- The staged copy verified on the partner too: identity and seal it reported (R155). -/
  partnerStaged : SMap Bytes
  deriving DecidableEq, Repr

/-- The nodes of a loop's latest evaluation (R132, R210). -/
structure LoopNodes where
  status : Nat
  r : Int
  target : Int
  y : Int
  u : Int
  i : Int
  uRaw : Int
  t : Int
  eb : Int
  ei : Int
  dy : Int
  d : Int
  p : Int
  f : Int
  v : Int
  uf : Int
  mode : Nat
  manual : Int
  entry : Entry
  deriving DecidableEq, Repr

/-- Nodes before any evaluation. -/
def LoopNodes.none : LoopNodes :=
  ⟨0, 0, 0, 0, 0, 0, 0, 0, 0, 0, 0, 0, 0, 0, 0, 0, 0, 0, Entry.coldEntry⟩

/-- One loop slot (R190, R192): the state it keeps between samples. -/
structure LoopSt where
  started : Bool
  target : Int
  rf : Int
  i : Int
  d : Int
  yPrev : Int
  uf : Int
  u : Int
  mode : Nat
  manual : Int
  /-- A transfer into the present mode is owed at the first unfrozen, unbraked sample (R190, R201, R203). -/
  owed : Bool
  wasBraked : Bool
  refused : Bool
  shed : Bool
  status : Nat
  auxSp : Int
  auxCasc : Int
  auxFf : Int
  auxTrack : Int
  reqs : List LoopReq
  sample : Nat
  nodes : LoopNodes
  /-- Nodes of samples whose wheel deadline has not passed (R172, R173). -/
  recent : List (Nat × LoopNodes)
  shown : Option LoopNodes
  /-- Resumed at a takeover: every release carries this value until the next sample's release (R209). -/
  resumed : Option (Int × Option Nat)
  /-- Commits of new gains that ask for a back-calculation from their boundaries on (R191). -/
  gainFrom : List Nat
  deriving DecidableEq, Repr

/-- A loop that has not been evaluated since cold start. -/
def LoopSt.fresh : LoopSt :=
  ⟨false, 0, 0, 0, 0, 0, 0, 0, 1, 0, false, false, false, false, 0, 0, 0, 0, 0, [], 0, LoopNodes.none, [],
    none, none, []⟩

/-- One trace channel (R214, R216, R217). -/
structure TraceChan where
  /-- Samples held before the trigger, the next buffer index, and the samples from the trigger on. -/
  held : Nat
  wr : Nat
  post : Nat
  /-- Value and bits of the previous recorded sample, and its turn. -/
  prev : Option (Int × Nat)
  last : Option Nat
  /-- The turns of the samples recorded from the oldest evaluation on that is still outstanding, latest first. -/
  turns : List Nat
  /-- Samples recorded since the arm, and the stream block being filled. -/
  count : Nat
  block : List Bytes
  blockTurn : Nat
  dropped : Nat
  deriving DecidableEq, Repr

/-- A channel at its arm. -/
def TraceChan.empty : TraceChan := ⟨0, 0, 0, none, none, [], 0, [], 0, 0⟩

/-- One trace group (R214, R216). -/
structure TraceGroup where
  armTurn : Nat
  trig : Option Nat
  forced : Bool
  recordWaits : Bool
  /-- The first boundary at or after which a brake source had been asserted since the arm (R216 kind 7). -/
  brakeAt : Option Nat
  deriving DecidableEq, Repr

/-- A group that is idle. -/
def TraceGroup.idle : TraceGroup := ⟨0, none, false, false, none⟩

/-- Trace (chapter 09). -/
structure TraceSt where
  chan : SMap TraceChan
  group : SMap TraceGroup
  deriving DecidableEq, Repr

/-- The brake domain (chapter 13) beside its registers. -/
structure BrakeSt where
  /-- Rows held by their latch after their source fell (R304). -/
  latched : Nat
  /-- Soft sources in force, and changes waiting for their boundaries, oldest first (R312). -/
  soft : Nat
  softNext : List (Nat × Nat)
  /-- Row 19 from the epoch limit (R279, R303). -/
  epochLimit : Bool
  /-- Instant in ns of the latest change of the effective state of a row 0 to 7 (R311). -/
  biChange : Option Nat
  /-- Ports braked since the latest release instant (R204, R309). -/
  held : Nat
  /-- Precomposed BRAKE payloads by station (R300). -/
  payloads : SMap Bytes
  /-- From power-up until the committed matrix has been restored and evaluated: every BO drives brake, and the rows with
  latch = 1 will start latched (R302, R304). -/
  starting : Bool
  deriving DecidableEq, Repr

/-- An order of the ply link (R512): sent by this module or accepted from its partner. -/
structure Order where
  mine : Bool
  code : Nat
  seq : Nat
  boundary : Nat
  content : OrderContent
  acked : Bool
  deriving DecidableEq, Repr

/-- What a release instant's DIGEST is made of (R280), gathered as its items commit: output slots as committed
for it, mill descriptors by channel × 64 + buffer, publication entries by index, slip bits and counts. -/
structure RelRec where
  slots : SMap Entry
  mill : SMap Bytes
  pubs : SMap Bytes
  taskSlips : Nat
  wheelSlips : Nat
  items : Nat
  braked : Bool
  released : Bool
  deriving DecidableEq, Repr

/-- A release before any of its items has committed. -/
def RelRec.empty : RelRec := ⟨[], [], [], 0, 0, 0, false, false⟩

/-- The ply link and the roles (chapter 12) beside their registers. -/
structure PlySt where
  hbMissed : Nat
  /-- Working time at the latest HEARTBEAT of the partner, ns (R290). -/
  hbAt : Option Nat
  /-- Flags of the partner's latest HEARTBEAT (R269). -/
  partnerActive : Bool
  partnerTracking : Bool
  partnerAbdicated : Bool
  tokOut : Bool
  txAlive : SMap Nat
  rxAlive : SMap (Nat × Nat)
  partnerEpoch : Nat
  /-- Greatest epoch of an INPUT frame heard in STARTING (R279). -/
  heardEpoch : Nat
  digOwn : SMap Digest
  digPartner : SMap Digest
  noDigest : Nat
  matchRun : Nat
  /-- Releases whose DIGEST is not yet computed, by release turn. -/
  rel : SMap RelRec
  /-- Release latches by release turn until their digest is compared, and those of the latest match (R289). -/
  relLatches : SMap (SMap Latch)
  matched : SMap Latch
  matchedOwn : SMap Latch
  /-- Diverged items, their split-input turn, and whether their state is in place (R283). -/
  diverged : List (Nat × Nat × Bool)
  /-- Words of diverged items, by item, that STATE chunks have brought since their split-input turn (R283). -/
  restored : List (Nat × Nat)
  /-- Items of split-input turns whose state the active still owes ahead of the sweep (R283). -/
  owed : List Nat
  /-- Release turns whose digest is excluded from comparison (R283, R311). -/
  excluded : List Nat
  /-- Release turns of which out_seal and byte 11 are excluded (R311). -/
  split : List Nat
  reachOwn : SMap (List Nat)
  /-- Stations counted by this module's cut-offs, and the partner's REACH, by turn (R283). -/
  reachGot : SMap (List Nat)
  reachFar : SMap (List Nat)
  orders : List Order
  nextSeq : Nat
  /-- Working seconds of rejoins in the last 10 minutes, and of restarts after abdication in the last hour. -/
  rejoins : List Nat
  restarts : List Nat
  /-- Working second since which the standby has tracked (R294). -/
  trackSince : Option Nat
  /-- The silent path of R286 has been entered: the standby left tracking with reason 12 and keeps testing. -/
  silentTest : Bool
  takeoverAt : Option Nat
  /-- Stations that await their catch-up frame (R290). -/
  catchUp : List Nat
  resumedLoops : Nat
  muteGap : Bool
  /-- The partner's latest HEALTH payload (R284). -/
  health : Bytes
  /-- The capture boundary of a join, its restarts, and what has come of the captured state (R295, R296). -/
  capture : Option Nat
  captureRestarts : Nat
  captured : List Nat
  /-- The active's capture store (R296): what tasks, loops, slots and the forces held before their first write after
  b_c, and whether what no STATE frame carries has been handed over. -/
  capTasks : SMap TaskSt
  capLoops : SMap LoopSt
  capSlots : SMap SlotCell
  capForces : Option (SMap Sample)
  capSent : Bool
  /-- Words that the capture store holds, by item, and the chunks sent: item, first word, count (R296). -/
  capWords : List (Nat × Nat)
  capOut : List (Nat × Nat × Nat)
  /-- A joining module from its phase Capture to its phase Compare (R297): the next live turn whose cut-off has not passed,
  the INPUT frames that count by turn and station, the snapshots by turn, channel and buffer, and the backlog against
  which its shrinking is judged. -/
  liveCut : Nat
  recInputs : List (Nat × Nat × Bytes)
  recSnaps : List (Nat × Nat × Nat × List Word36)
  backlogWas : Nat
  /-- The home module met a frame of its own epoch and raises it from its next release (R292). -/
  raiseNext : Bool
  deriving DecidableEq, Repr

/-- A miller command that has begun and waits for its tests or its boundary (R328), the sequence of the order it sent
(R512), and whether the partner has acknowledged that order (R329). -/
structure MillerCmd where
  cmd : HostCmd
  op : Nat
  boundary : Option Nat
  order : Option Nat
  acked : Bool
  /-- The host link was reset: its completion is discarded (R341). -/
  lost : Bool
  deriving DecidableEq, Repr

/-- A completion of R327 that waits for the ring engine to resume (R321). -/
structure Completion where
  ring : Nat
  tag : Nat
  op : Nat
  status : Nat
  detail : Nat
  result0 : Nat
  result1 : Nat
  irq : Bool
  deriving DecidableEq, Repr

/-- The host link, its rings and the event engine (chapter 14) beside their registers. -/
structure HostSt where
  dstate : Nat
  busMaster : Bool
  perst : Bool
  linkDown : Bool
  /-- After a link loss no doorbell read runs until HOST_CTRL.enable is written 0 and then 1 (R341). -/
  halted : Bool
  reading : Bool
  consumed : SMap Nat
  written : SMap Nat
  cplCi : SMap Nat
  evtWritten : Nat
  evtCi : Nat
  evtDropped : Nat
  trcWritten : SMap Nat
  trcCi : SMap Nat
  outstanding : List MillerCmd
  waiting : List Completion
  /-- Raises counted toward each vector's next message (R339). -/
  coal : SMap Nat
  funcMask : Bool
  /-- Rings whose error stop was cleared by an enable written 0 (R324). -/
  trcError : Nat
  evtError : Bool
  millerUp : Bool
  /-- Host-memory addresses in effect, by the offset of their _LO register: each takes effect when its _HI is written
  (R365). -/
  addrs : SMap Nat
  deriving DecidableEq, Repr

/-- An increment announced and not yet applied (R243, R244): its value, the LOCAL tick, and its ticks (0
permanent). -/
structure NextInc where
  inc : Nat
  atTick : Nat
  ticks : Nat
  deriving DecidableEq, Repr

/-- One time domain (R237, R241, R251). Counts are in units of 2^−32 ns. -/
structure TimeDom where
  running : Bool
  value : Nat
  inc : Nat
  next : Option NextInc
  /-- Is the slew helper's increment in force, the ticks it still lasts, and the increment that returns (R244)? -/
  slew : Bool
  slewLeft : Nat
  slewBase : Nat
  /-- Correction per tick and the ticks it lasts (R251). -/
  corr : Int
  corrLeft : Nat
  goodRun : Nat
  /-- A start ordered and not yet taken place, and whether it is a restart (R242). -/
  startOrdered : Bool
  restart : Bool
  /-- LOCAL tick at which the start was ordered. -/
  orderedAt : Nat
  /-- The master's ring position and its PPS flag as its frames carry them. -/
  master : Nat
  ppsLocked : Bool
  /-- LOCAL tick of the last captured PPS edge (R245). -/
  lastEdge : Option Nat
  lastAdv : Nat
  deriving DecidableEq, Repr

/-- The nominal increment (R238). -/
def nominalInc : Nat := 0x0333333333

/-- A domain before any start. -/
def TimeDom.idle : TimeDom :=
  { running := false, value := 0, inc := nominalInc, next := none, slew := false, slewLeft := 0,
    slewBase := nominalInc, corr := 0, corrLeft := 0, goodRun := 0, startOrdered := false, restart := false, orderedAt := 0,
    master := 0, ppsLocked := false, lastEdge := none, lastAdv := 0 }

/-- The measurements of one hop of the ring (R249): unpaired launch and arrival stamps by mark sequence, and the
last 64 forward and backward values. -/
structure RingHop where
  /-- The position at the hop's far end. -/
  far : Nat
  fwdLaunch : List (Nat × Nat)
  fwdArrive : List (Nat × Nat)
  backLaunch : List (Nat × Nat)
  backArrive : List (Nat × Nat)
  fwd : List Int
  back : List Int
  /-- Does the latest report of its west member, or of its east member, hold no valid entries of it (R248)? -/
  nearDead : Bool
  farDead : Bool
  deriving DecidableEq, Repr

/-- A hop before any measurement. -/
def RingHop.fresh (far : Nat) : RingHop := ⟨far, [], [], [], [], [], [], false, false⟩

/-- The time engine (chapter 11) beside its registers. -/
structure TimeSt where
  /-- Ticks of 3.2 ns since LOCAL started. -/
  ticks : Nat
  intOsc : Bool
  domA : TimeDom
  domB : TimeDom
  workSet : Bool
  /-- Working time in units of 2^−32 ns. -/
  work : Nat
  carry : Int
  /-- O has reached 0 and slew_done is owed (R256). -/
  slewOwed : Bool
  lastAdv : Nat
  followB : Bool
  /-- A domain switch or capture named at a boundary: (boundary, capture only). -/
  switchAt : Option (Nat × Bool)
  /-- The offset that this standby captured itself, until the active's comes in its place (R258). -/
  carried : Option Int
  /-- Alarm instants armed, units of 2^−32 ns. -/
  alarms : SMap Nat
  /-- Leap table in force, and one that passed and waits for the next second (R265). -/
  leap : List (Nat × Int)
  leapNext : Option (List (Nat × Int))
  /-- Keep-island calendar, seconds (R265), and its crystal's part of the next second, in units of 1/10,240,000,000,000 s
  (R11). -/
  calendar : Nat
  calPart : Nat
  hops : SMap RingHop
  closureA : Int
  closed : Bool
  /-- Latest arrival and launch stamps of marks whose sequence is a multiple of 16, east and west (R248). -/
  markEast : Option (Nat × Nat)
  markWest : Option (Nat × Nat)
  sentEast : Option (Nat × Nat)
  sentWest : Option (Nat × Nat)
  xchgRun : Nat
  xchgSeq : Nat
  ppsOut : Bool
  deriving DecidableEq, Repr

/-- A commit from its acceptance to its boundary (R351 to R354). -/
structure CommitImage where
  mine : Bool
  image : RegMap
  act : Nat
  changes : List (Nat × Nat)
  boundary : Nat
  digest : Nat
  acked : Bool
  deriving DecidableEq, Repr

/-- A CHECK or COMMIT whose tests run (R349, R351). -/
structure HopperTest where
  isCommit : Bool
  snapshot : RegMap
  act : Nat
  deriving DecidableEq, Repr

/-- A committed image in MRAM (R355). -/
structure MramImage where
  serial : Nat
  image : RegMap
  progs : SMap Bytes
  kept : SMap Bytes
  deriving DecidableEq, Repr

/-- The hopper (chapter 15) beside its registers. STG fields live here: active and staged copies. [log 94 DEDUCED] -/
structure HopperSt where
  active : RegMap
  staged : RegMap
  /-- What was in force before each commit boundary, for work on earlier samples (R31): boundary and settings. -/
  before : List (Nat × RegMap)
  testing : Option HopperTest
  armed : Option CommitImage
  /-- Change list parts received of an order of code 1 (R352). -/
  partial_ : List (Nat × Nat)
  /-- Program slots that the latest program commit uses, as its old copy or its new one (R154). -/
  onlineSlots : List Nat
  partialSeq : Nat
  mram : SMap MramImage
  writing : Bool
  deriving DecidableEq, Repr

/-- A mill-bus message: the 18-word descriptor of R133 and a count of arrivals or entries for its age. -/
structure MillMsg where
  words : List Word36
  stamp : Nat
  serial : Nat
  deriving DecidableEq, Repr

/-- One message buffer of a channel (R371, R373, R377). -/
structure MillBuf where
  msg : Option MillMsg
  /-- Arrived while the read lock held the buffer (R374). -/
  aside : Option MillMsg
  read : Bool
  /-- Content as of the latest turn boundary, for MBR (R133, R373), and a mapped value waiting (R375). -/
  atBoundary : Option MillMsg
  mapped : Option (Option Sample)
  /-- Sent in its open window, or a same frame seen there while muted (R380, R386). -/
  windowOpen : Bool
  sentInWindow : Bool
  deriving DecidableEq, Repr

/-- One mill-bus channel (chapter 16) beside its registers. -/
structure MillChan where
  bufs : SMap MillBuf
  serial : Nat
  /-- Attempts of each identifier sent, latest first: clash errors (R385). Key: id, or 2^29 + id with IDE. -/
  history : SMap (List Bool)
  mutedIds : List Nat
  locked : Bool
  heartbeat : Option Bytes
  hbHeld : Bool
  refPending : Bool
  arbOpen : Bool
  /-- The buffer whose window is open. -/
  window : Option Nat
  refSeen : Bool
  deriving DecidableEq, Repr

/-- A channel after reset. -/
def MillChan.idle : MillChan := ⟨[], 0, [], [], false, none, false, false, false, none, false⟩

/-- A buffer after reset. -/
def MillBuf.empty : MillBuf := ⟨none, none, true, none, none, false, false⟩

/-- A member of the board ring at a position (R225). -/
structure RingMember where
  ident : Nat
  role : Nat
  load : Nat
  /-- Members that its latest BEACON says it hears, and the ports by which the one before arrived (bit 0 east, bit
  1 west). -/
  hears : Nat
  paths : Nat
  deriving DecidableEq, Repr

/-- A copy of a publication held at a subscriber (R228, R231): source, instant in units of 2^−32 ns, epoch, shadow,
period in ns, the parts held of all of them, and entries of R227 by publication index. -/
structure Publication where
  source : Nat
  instant : Nat
  /-- Working time at which its latest part came. -/
  arrived : Nat
  epoch : Nat
  shadow : Bool
  period : Nat
  held : List Nat
  parts : Nat
  entries : SMap Nat
  deriving DecidableEq, Repr

/-- A part of the module's own publication, composed at the publication instant (R226, R227). -/
structure PubPart where
  instant : Nat
  period : Nat
  active : Bool
  part : Nat
  parts : Nat
  payload : Bytes
  deriving DecidableEq, Repr

/-- The board ring (chapter 10) beside its registers. -/
structure RingSt where
  members : SMap RingMember
  rxAlive : SMap (Nat × Nat)
  txAlive : SMap Nat
  pubs : List Publication
  /-- Highest epoch accepted per ply (R231). -/
  epochs : SMap Nat
  listening : Bool
  /-- Own publication parts waiting for their launch (R226). -/
  launch : List PubPart
  bypassForced : Bool
  ownClash : Bool
  deriving DecidableEq, Repr

/-- The debug port (R410). -/
structure DebugSt where
  ir : Nat
  addr : Nat
  data : Nat
  busy : Bool
  error : Bool
  refused : Bool
  boundary : List Bool
  driven : Bool
  clamped : Bool
  deriving DecidableEq, Repr

/-- A recorder record waiting to be written (R417, R418). -/
structure RecEntry where
  trigger : Nat
  /-- The record's bytes 0 to 1,019 but for its index and the previous seal, which the write fills in. -/
  body : Bytes
  deriving DecidableEq, Repr

/-- A trigger that fired (R413, R417): its number, source, details, turn and working time of the raise. -/
structure RecRaise where
  trigger : Nat
  source : Nat
  a : Nat
  b : Nat
  turn : Nat
  work : Nat
  deriving DecidableEq, Repr

/-- The recorder (chapter 19) beside its registers. -/
structure RecSt where
  queue : List RecEntry
  /-- Triggers raised and waiting for their snapshot at the next boundary. -/
  raised : List RecRaise
  holdoff : List Nat
  heldOff : SMap Nat
  /-- Rows of the log in MRAM, by record number: the bytes of each record. -/
  records : SMap Bytes
  /-- A last-gasp record has been written since the latest start (R423). -/
  gasp : Bool
  deriving DecidableEq, Repr

/-- A build of the next slot (R431, R432): who delivers it (1 host, 2 Hyica, 3 partner), its manifest as far as it has
come, whether that is verified, the delta bytes received per part, and the parts built. -/
structure FwBuild where
  source : Nat
  manifest : Bytes
  verified : Bool
  delta : SMap Bytes
  parts : SMap Bytes
  deriving DecidableEq, Repr

/-- Firmware (chapter 20) beside its registers. -/
structure FwSt where
  /-- The parts of the two MRAM slots, by slot × 16 + part, and their manifests (R428): what slot 0 was shipped with is
  unlisted. -/
  slots : SMap Bytes
  manifests : SMap Bytes
  /-- Slots that hold a set whose manifest and every part hash verify (R432, R441). -/
  good : List Nat
  build : Option FwBuild
  /-- Seal of the manifest of the set that the partner reported built (R434). -/
  partnerBuilt : Option Nat
  /-- The boundary of an ordered switch, whether it is a fall-back, and whether it waits for the partner's
  acknowledgement (R436, R437, R439). -/
  activateAt : Option Nat
  falling : Bool
  together : Bool
  /-- The least key position at which the ordered switch may still begin (R124); 0 where it is part of an activation or a
  fall-back under way. -/
  keyFloor : Nat
  /-- 0 none; 1 the partner switches and confirms; 2 ORDER 6 of an activation; 3 ORDER 6 of a fall-back (R437, R439). -/
  step : Nat
  /-- Confirm state before the latest switch, the working second of that switch, and what has come of R438 since:
  a doorbell read served, HEALTH frames sent, the confirm commanded. -/
  was : Nat
  since : Nat
  served : Bool
  healths : Nat
  commanded : Bool
  /-- The Hyica session, and the latest request with its answer (R448). -/
  session : Option Nat
  lastOp : Nat
  lastSeq : Nat
  lastReply : Bytes
  /-- The module runs its recovery ROM (R441), and a RECOVER waits for its reset. -/
  recovery : Bool
  recoverWanted : Bool
  deriving DecidableEq, Repr

/-- Power and reset (chapter 21) beside its registers. -/
structure PwrSt where
  /-- The latest request and the latest wake that arrived during the rung change in progress (R458). -/
  queued : Option Nat
  wakeFrom : Option Nat
  /-- What waits for the handover of R453: 0 a rung, with its code; 1 a warm reset; 2 a commanded cold start. -/
  waitHandover : Option (Nat × Nat)
  /-- The rung that a module held at Reefed by its holdup store still wants (R464). -/
  wantUp : Option Nat
  inputGood : Bool
  shedding : Bool
  /-- An accepted warm reset, an accepted commanded cold start whose domains are off, and the partner's order of a
  reset, each not yet carried out. -/
  warmWanted : Bool
  coldWanted : Bool
  partnerWanted : Bool
  ejected : Bool
  /-- The keep alarm in effect, in seconds; 0 none (R468). -/
  keepAlarm : Nat
  deriving DecidableEq, Repr

/-- What the module has sent or driven outward (the model's own record, newest last).
[log 4 DESIGN CHOICE, 24 DESIGN CHOICE] -/
inductive Out where
  /-- A frame or control block launched on Skein port p (R76, R78). -/
  | skein (p : Nat) (bytes : Bytes)
  | skeinBlock (p d1 d2 d3 : Nat)
  /-- A terminate block that ends what Skein port p is sending (R307). -/
  | skeinEnd (p : Nat)
  /-- A frame or control block on the ply link (R269, R271). -/
  | ply (bytes : Bytes)
  | plyBlock (d1 d2 d3 : Nat)
  /-- An ORDER frame (R272, R512): alive, code, sequence, boundary, seal of the staged content, and the content,
  whose bytes the spec does not lay out. -/
  | order (alive code seq boundary digest : Nat) (content : OrderContent)
  /-- A HOST_WRITE frame (R272): alive, boundary and writes, whose bytes the spec does not lay out. -/
  | hostWrite (alive boundary : Nat) (writes : List HostWrite)
  /-- What the active hands to a joining partner beside STATE frames (R295, R296). -/
  | joinConfig (config : JoinConfig)
  | joinTime (time : JoinTime)
  | joinCapture (captured : JoinCapture)
  /-- A frame or control block on a board-ring port (R223, R247). -/
  | ring (east : Bool) (bytes : Bytes)
  | ringBlock (east : Bool) (d1 d2 d3 : Nat)
  /-- A frame forwarded with an error block in place of its terminate block: on the ring, and on the ply link
  (R392). -/
  | ringErr (east : Bool) (bytes : Bytes)
  | plyErr (bytes : Bytes)
  /-- A CAN frame put on a mill-bus channel (R367): identifier key and payload. -/
  | mill (ch : Nat) (id : Nat) (data : Bytes)
  /-- A write to host memory: a completion, an event record, a trace entry or read data (R325, R336). -/
  | host (addr : Nat) (bytes : Bytes)
  /-- An MSI-X message of a vector (R339). -/
  | msix (v : Nat)
  /-- The answer to a BAR access: the value read, or a completer abort (R319, R320). -/
  | bar (value : Option Bytes)
  /-- A word read from a register by the commands that name a read. -/
  | word (v : Nat)
  /-- An answer on the service port (R444, R445). -/
  | service (bytes : Bytes)
  /-- A Neighbor Advertisement, or an ICMPv6 echo reply, for the module's own address (R444). -/
  | neighbor (echo : Bool)
  /-- A value shifted out of the debug port (R410). -/
  | debug (v : Nat)
  /-- The level of PPS_OUT (R262). -/
  | pps (high : Bool)
  deriving DecidableEq, Repr

/-- A reason for which a meaning stops with a fault. No meaning of this model does: every command of the table
has an effect. Safe. -/
inductive Fault where
  /-- Raised by no meaning. Safe. -/
  | unraised
  deriving DecidableEq, Repr

/-- A reason for which a command is refused. -/
inductive Refusal where
  /-- Raised by an arm of exec whose command has no meaning yet. Safe. -/
  | notModelled (mnemonic : String)
  deriving DecidableEq, Repr

/-- The state of the module. -/
structure State where
  /-- Register fields that differ from their cold values; STG fields live in `hop`. -/
  regs : RegMap
  /-- Words captured by the latest read of their register's low word (R365), by offset. -/
  caps : SMap Nat
  turn : TurnSt
  image : ImageSt
  skein : SkeinSt
  tasks : TasksSt
  progs : ProgSt
  loops : SMap LoopSt
  trace : TraceSt
  ring : RingSt
  time : TimeSt
  ply : PlySt
  brake : BrakeSt
  host : HostSt
  hop : HopperSt
  mill : SMap MillChan
  /-- Running remainders of the general seal units (R395). -/
  seals : SMap Nat
  dbg : DebugSt
  recorder : RecSt
  fw : FwSt
  pwr : PwrSt
  /-- Bytes of internal memory reached through BAR2 (R320): an unlisted byte reads 0. -/
  mem : List Host.Cell
  out : List Out
  /-- The model's own counter of free values. -/
  fresh : Nat
  /-- Commands waiting, first in, first out. -/
  pending : List Instr
  deriving DecidableEq, Repr

/-- The turn engine before it starts (R28). -/
def TurnSt.idle : TurnSt :=
  { k := 0, kOrigin := 0, origin := 0, startTurn := 0, cutoffs := 0, nextRel := 0, nextDl := 0, latches := [], held := [],
    evals := [], views := [], brakedAt := [], groups := [], dueGroups := [], faultTick := none, leastSlack := none, slipSeen := false,
    healthSlips := 0, healthSlack := none }

/-- The image after a cold start (R51). -/
def ImageSt.cold : ImageSt :=
  { slots := [], forces := [], got := [], gotRing := [], loss := [], waiting := [], barred := [], writerSince := [], moved := [] }

/-- The Skein links after a cold start. -/
def SkeinSt.cold : SkeinSt :=
  { ports := [], pos := [], rxAlive := [], txAlive := [], direct := [], directPrev := [], partnerLacks := [],
    proxyFrom := [], proxy := [], lacksMe := [] }

/-- The tasks after a cold start. [log 5 DESIGN CHOICE] -/
def TasksSt.cold : TasksSt :=
  { task := [], spindle := [], keyNext := none, startAt := 0, overrunNext := none, millSnap := [], millTaken := [], stopFrom := none, leftStop := none, overrunFrom := none,
    retain := [], flushing := none, flushWanted := false, flushSerial := 0, restoreDue := true, keyTick := 0, wdogT := 0 }

/-- The board ring after a cold start: bypass closed, listening (R233). -/
def RingSt.cold : RingSt :=
  { members := [], rxAlive := [], txAlive := [], pubs := [], epochs := [], listening := true, launch := [],
    bypassForced := false, ownClash := false }

/-- The time engine after a cold start: LOCAL at 0, no domain, working time not set (R237, R254).
[log 5 DESIGN CHOICE] -/
def TimeSt.cold : TimeSt :=
  { ticks := 0, intOsc := false, domA := TimeDom.idle, domB := TimeDom.idle, workSet := false, work := 0,
    carry := 0, slewOwed := false, lastAdv := 0, followB := false, switchAt := none, carried := none, alarms := [], leap := [],
    leapNext := none, calendar := 0, calPart := 0, hops := [], closureA := 0, closed := false, markEast := none,
    markWest := none, sentEast := none, sentWest := none, xchgRun := 0, xchgSeq := 0, ppsOut := false }

/-- The ply after a cold start (R277: STARTING). [log 5 DESIGN CHOICE] -/
def PlySt.cold : PlySt :=
  { hbMissed := 0, hbAt := none, partnerActive := false, partnerTracking := false, partnerAbdicated := false,
    tokOut := false, txAlive := [], rxAlive := [], partnerEpoch := 0, heardEpoch := 0, digOwn := [],
    digPartner := [], noDigest := 0, matchRun := 0, rel := [], relLatches := [], matched := [], matchedOwn := [],
    diverged := [], restored := [], owed := [], excluded := [], split := [], reachOwn := [], reachGot := [], reachFar := [], orders := [], nextSeq := 0, rejoins := [], restarts := [],
    trackSince := none, silentTest := false, takeoverAt := none, catchUp := [], resumedLoops := 0,
    muteGap := false, health := [],
    capture := none, captureRestarts := 0, captured := [], capTasks := [], capLoops := [],
    capSlots := [], capForces := none, capSent := false, capWords := [], capOut := [], liveCut := 0,
    recInputs := [], recSnaps := [], backlogWas := 0, raiseNext := false }

/-- The brake domain at power-up. [log 5 DESIGN CHOICE] -/
def BrakeSt.cold : BrakeSt :=
  { latched := 0, soft := 0, softNext := [], epochLimit := false, biChange := none, held := 0, payloads := [], starting := false }

/-- The host link after a cold start: not trained, D0, PERST# deasserted, messages masked until the host unmasks them.
[log 5 DESIGN CHOICE, 26 PRESUMED] -/
def HostSt.cold : HostSt :=
  { dstate := 0, busMaster := false, perst := false, linkDown := true, halted := false, reading := false,
    consumed := [], written := [], cplCi := [], evtWritten := 0, evtCi := 0, evtDropped := 0,
    trcWritten := [], trcCi := [], outstanding := [], waiting := [], coal := [], funcMask := true, trcError := 0,
    evtError := false, millerUp := true, addrs := [] }

/-- The hopper of a module that has never committed (R355). -/
def HopperSt.cold : HopperSt :=
  { active := [], staged := [], before := [], testing := none, armed := none, partial_ := [], onlineSlots := [], partialSeq := 0, mram := [], writing := false }

/-- The debug port after TRST# (R410): IDCODE selected. [log 5 DESIGN CHOICE] -/
def DebugSt.cold : DebugSt :=
  { ir := 0x01, addr := 0, data := 0, busy := false, error := false, refused := false, boundary := [],
    driven := false, clamped := false }

/-- The recorder of a module whose log is empty. [log 5 DESIGN CHOICE] -/
def RecSt.cold : RecSt := { queue := [], raised := [], holdoff := [], heldOff := [], records := [], gasp := false }

/-- Firmware of a module in slot 0, as shipped, with no build. [log 5 DESIGN CHOICE] -/
def FwSt.cold : FwSt :=
  { slots := [], manifests := [], good := [0], build := none, partnerBuilt := none, activateAt := none, falling := false,
    together := false, keyFloor := 0, step := 0, was := 0, since := 0, served := false, healths := 0, commanded := false,
    session := none, lastOp := 0, lastSeq := 0, lastReply := [], recovery := false, recoverWanted := false }

/-- Power after the cold-start sequence of R463. [log 5 DESIGN CHOICE] -/
def PwrSt.cold : PwrSt :=
  { queued := none, wakeFrom := none, waitHandover := none, wantUp := none, inputGood := true, shedding := false,
    warmWanted := false, coldWanted := false, partnerWanted := false, ejected := false, keepAlarm := 0 }

/-- The module right after a cold start that has reached Grinding (R463): every register at its cold value,
every map empty, the ply state STARTING and no command waiting. [log 5 DESIGN CHOICE] -/
def State.reset : State :=
  { regs := [], caps := [], turn := TurnSt.idle, image := ImageSt.cold, skein := SkeinSt.cold, tasks := TasksSt.cold,
    progs := { active := [], staged := [], verifying := [], partnerStaged := [] }, loops := [],
    trace := { chan := [], group := [] }, ring := RingSt.cold, time := TimeSt.cold, ply := PlySt.cold,
    brake := BrakeSt.cold, host := HostSt.cold, hop := HopperSt.cold, mill := [], seals := [],
    dbg := DebugSt.cold, recorder := RecSt.cold, fw := FwSt.cold, pwr := PwrSt.cold, mem := [], out := [],
    fresh := 0, pending := [] }

end Sys2Proof.Machine
end

