-- ==== Sys2Proof/Machine/Ops.lean ====
section
/-! DEFINITION. The named operations that every meaning uses: register fields, the settings in force, time,
domains, output, free values and the event engine. -/

namespace Sys2Proof.Machine

/-! Register fields. -/

/-- The value of a field in a register map. -/
def RegMap.get (m : RegMap) (f : Fld) : Nat := SMap.getD m f.key f.cold

/-- The map with a field written, its value cut to the field's width. -/
def RegMap.set (m : RegMap) (f : Fld) (v : Nat) : RegMap := SMap.set m f.key f.cold (v % 2 ^ f.width)

/-- The value of a register field. -/
def State.rd (s : State) (f : Fld) : Nat := RegMap.get s.regs f

/-- The state with a register field written. -/
def State.wr (s : State) (f : Fld) (v : Nat) : State := { s with regs := RegMap.set s.regs f v }

/-- Is a one-bit field 1? -/
def State.on (s : State) (f : Fld) : Bool := s.rd f == 1

/-- A one-bit field written from a Boolean. -/
def State.wrb (s : State) (f : Fld) (b : Bool) : State := s.wr f (bit b)

/-- A count field raised by n, saturating at its width. -/
def State.add (s : State) (f : Fld) (n : Nat) : State := s.wr f (min (s.rd f + n) (2 ^ f.width - 1))

/-- A count field raised by 1, saturating. -/
def State.inc (s : State) (f : Fld) : State := s.add f 1

/-- The active value of an STG field (R345). -/
def State.act (s : State) (f : Fld) : Nat := RegMap.get s.hop.active f

/-- Is an active one-bit setting 1? -/
def State.aon (s : State) (f : Fld) : Bool := s.act f == 1

/-- The state with something sent outward. [log 4 DESIGN CHOICE] -/
def State.emit (s : State) (o : Out) : State := { s with out := s.out ++ [o] }

/-- Several outputs, in order. [log 4 DESIGN CHOICE] -/
def State.emits (s : State) (os : List Out) : State := { s with out := s.out ++ os }

/-- The outcome of a meaning that always completes. -/
def ok (s : State) : Host.Outcome State Fault Refusal := .next s

/-- A free value (the spec leaves it open), and the state that will give the next one. [log 7 DESIGN CHOICE] -/
def State.free (s : State) : Nat × State := (Config.freeNat s.fresh, { s with fresh := s.fresh + 1 })

/-- The indexes i < n of a register array whose field at bit lo is listed with a value other than 0. -/
def listedIdx (m : RegMap) (base stride n lo : Nat) : List Nat :=
  m.filterMap (fun e =>
    let off := e.1 / 32
    if e.1 % 32 = lo ∧ base ≤ off ∧ (off - base) % stride = 0 ∧ (off - base) / stride < n ∧ e.2 ≠ 0 then
      some ((off - base) / stride)
    else none)

/-- The present stations of a configuration (R70). -/
def presentIn (m : RegMap) : List Nat := listedIdx m 0x20000 16 256 0

/-- The present stations (R70). -/
def State.stations (s : State) : List Nat := presentIn s.hop.active

/-- The present stations of Skein port p, in position order. -/
def State.portStations (s : State) (p : Nat) : List Nat := s.stations.filter (fun n => n / 16 == p)

/-- The enabled tasks (R103). -/
def State.enabledTasks (s : State) : List Nat := listedIdx s.hop.active 0x4400 32 16 0

/-- The enabled loops of a configuration (R171). -/
def loopsIn (m : RegMap) : List Nat := listedIdx m 0x40000 64 4096 0

/-- The enabled loops (R171). -/
def State.enabledLoops (s : State) : List Nat := loopsIn s.hop.active

/-- The slots of a defined kind (R52) in a configuration. -/
def slotsIn (m : RegMap) : List Nat := listedIdx m slotPolBase 16 262144 0

/-- The slots of a defined kind (R52). -/
def State.slotList (s : State) : List Nat := slotsIn s.hop.active

/-! Power domains (R12, R468). -/

/-- The bits of PWR_DOMAINS. -/
inductive Pd where
  | keep | wake | brake | miller | time | bins | spindle | wheel | dram | skein | ringply | hostsvc
  deriving DecidableEq, Repr

/-- The bit of a domain in PWR_DOMAINS (R468). -/
def Pd.bit : Pd → Nat
  | .keep => 0 | .wake => 1 | .brake => 2 | .miller => 3 | .time => 4 | .bins => 5 | .spindle => 6
  | .wheel => 7 | .dram => 8 | .skein => 9 | .ringply => 10 | .hostsvc => 11

/-- Is a power domain on? -/
def State.pd (s : State) (d : Pd) : Bool := bitOf (s.rd F.PWR_DOMAINS_on) d.bit

/-- The domain of the block at a BAR0 offset (R12, R366). -/
def blockPd (off : Nat) : Pd :=
  if off < 0x2000 then .bins
  else if off < 0x4000 then .hostsvc
  else if off < 0x5000 then .bins
  else if off < 0x6000 then .time
  else if off < 0x8000 then .ringply
  else if off < 0x9000 then .brake
  else if off < 0xB000 then .hostsvc
  else if off < 0xD000 then .bins
  else if off < 0xF000 then .miller
  else if off < 0x10000 then .wake
  else if off < 0x20000 then .skein
  else .bins

/-! The timing in force (R27, R31, R37). -/

/-- T in ns. -/
def State.turnNs (s : State) : Nat := s.act F.TURN_LENGTH_turn_ns
/-- N. -/
def State.nTurns (s : State) : Nat := s.act F.TURN_LATENCY_n_turns
/-- φ in ns. -/
def State.phiNs (s : State) : Nat := s.act F.TURN_LATENCY_phi_ns
/-- c in ns. -/
def State.cutoffNs (s : State) : Nat := s.act F.INPUT_CUTOFF_cutoff_ns
/-- ρ in ns. -/
def State.releaseNs (s : State) : Nat := s.act F.RELEASE_PHASE_release_ns

/-! Working time. The model counts it in units of 2^−32 ns (R238). -/

/-- Units in one nanosecond. -/
def unitNs : Nat := 2 ^ 32
/-- Units in one second. -/
def unitSec : Nat := 1000000000 * 2 ^ 32

/-- Working time in whole nanoseconds. -/
def State.workNs (s : State) : Nat := s.time.work / unitNs
/-- Whole working seconds. -/
def State.workSec (s : State) : Nat := s.time.work / unitSec

/-- The time word of an instant in a domain (R6): seconds, domain, nanoseconds, fraction. -/
def timeWord (dom u : Nat) : Nat :=
  ((u / unitSec) % 2 ^ 64) * 2 ^ 64 + (dom % 4) * 2 ^ 62 + (u % unitSec / unitNs) * 2 ^ 32 +
    (u % unitNs / 2 ^ 24) * 2 ^ 24

/-- The time word that carries no time (R7). -/
def noTime : Nat := 3 * 2 ^ 62

/-- The working-time word now: working domain, or invalid before it is set. -/
def State.workWord (s : State) : Nat := if s.time.workSet then timeWord 2 s.time.work else noTime

/-- The instant of boundary k in units (R27). -/
def State.boundaryU (s : State) (k : Nat) : Nat :=
  s.turn.origin + (k - s.turn.kOrigin) * s.turnNs * unitNs

/-- Nanoseconds since the present boundary, rounded up. [log 113 DESIGN CHOICE] -/
def State.phaseNs (s : State) : Nat := ceilDiv (s.time.work - s.boundaryU s.turn.k) unitNs

/-- The first boundary at least 2 turns and at least ns nanoseconds from now (R64, R122, R512). -/
def State.leadBoundary (s : State) (ns : Nat) : Nat :=
  s.turn.k + ceilDiv (s.phaseNs + max (2 * s.turnNs) ns) s.turnNs

/-- The first boundary at least 2 turns from now (R68). -/
def State.boundary2 (s : State) : Nat := s.leadBoundary 0

/-- The first boundary at least 2 turns and 200 µs from now (R512). -/
def State.orderBoundary (s : State) : Nat := s.leadBoundary 200000

/-- The first boundary after now. -/
def State.nextBoundary (s : State) : Nat := s.turn.k + 1

/-- The instant of the release of turn m, in ns of working time. -/
def State.releaseNsOf (s : State) (m : Nat) : Nat := s.boundaryU m / unitNs + s.releaseNs

/-! Ply states (R276). -/

/-- The ply state. -/
def State.plyState (s : State) : Nat := s.rd F.PLY_STATUS_state
/-- Is the module active: LONE or ACTIVE? -/
def State.isActive (s : State) : Bool := s.plyState == 1 || s.plyState == 2
/-- Is it a tracking standby? -/
def State.isStandby (s : State) : Bool := s.plyState == 4
/-- Is the partner LONE or ACTIVE, from its latest HEALTH? -/
def State.partnerLeads (s : State) : Bool := s.rd F.PLY_STATUS_partner_state == 1 || s.rd F.PLY_STATUS_partner_state == 2

/-- Is the partner in STANDBY, from its latest HEALTH? -/
def State.partnerStandby (s : State) : Bool := s.rd F.PLY_STATUS_partner_state == 4
/-- Is this a joining module that records what comes and runs the samples from b_c on: in the phases Capture and Replay
(R295, R297)? -/
def State.replaying (s : State) : Bool :=
  s.plyState == 3 && (s.rd F.PLY_JOIN_phase == 4 || s.rd F.PLY_JOIN_phase == 5)

/-- The turn whose boundary writes, orders and key positions have reached here: in a replay that of the sample to run next,
and none before the captured state is in (R297). [log 57 DEDUCED] -/
def State.nowTurn (s : State) : Nat :=
  if !s.replaying then s.turn.k else if s.rd F.PLY_JOIN_phase == 4 then 0 else min s.turn.k s.turn.cutoffs

/-- Has the cut-off of the present turn passed? -/
def State.cutPassed (s : State) : Bool := decide (s.turn.k < (if s.replaying then s.ply.liveCut else s.turn.cutoffs))

/-- Is the ply link up? -/
def State.plyUp (s : State) : Bool := s.rd F.PLY_STATUS_link == 2
/-- Is this the home module? -/
def State.isHome (s : State) : Bool :=
  if s.on F.PLY_STATUS_home_err then !(s.on F.PLY_STATUS_ply_pos) else s.on F.PLY_STATUS_home
/-- The authority epoch. -/
def State.epoch (s : State) : Nat := s.rd F.PLY_EPOCH_epoch
/-- The effective key position (R120): 0 LOCK, 1 RUN, 2 TEND, 3 STOP. -/
def State.key (s : State) : Nat := s.rd F.KEY_STATUS_effective

/-- The effective position in force at boundary b, a change that takes effect there included (R122, R124). -/
def State.keyAt (s : State) (b : Nat) : Nat :=
  match s.tasks.keyNext with
  | some e => if e.1 ≤ b then e.2 else s.key
  | none => s.key

/-- This module, not active, hears an epoch of its partner: it keeps the greatest, and holds the active's (R279,
R289). [log 52 DEDUCED] -/
def State.hearEpoch (s : State) (e : Nat) : State :=
  let s : State := { s with ply := { s.ply with partnerEpoch := max s.ply.partnerEpoch e } }
  if s.isActive || s.plyState == 0 then s
  else s.wr F.PLY_EPOCH_epoch (max s.epoch e)

/-- The ring position of the partner (R220). -/
def State.partnerPos (s : State) : Nat := s.rd F.RING_POSITION_position ^^^ 1

/-! Reading BAR0 (R4, R319, R345, R459). -/

/-- The offset at which the model holds a BAR0 offset: the slot policy window shows 2,048 slots (R70). -/
def State.mapOff (s : State) (off : Nat) : Nat :=
  if 0x22000 ≤ off ∧ off < 0x2A000 then slotPolBase + 0x8000 * s.rd F.SLOT_WIN_PAGE_page + (off - 0x22000)
  else off

/-- The value of one field, its STG fields from a copy of the hopper. -/
def State.fieldIn (s : State) (copy : RegMap) (r : FieldRow) (off : Nat) : Nat :=
  match r.ty with
  | .wo => 0
  | .stg => RegMap.get copy (r.fld off)
  | _ => RegMap.get s.regs (r.fld off)

/-- Byte i of the capability list (R360, R361). -/
def State.capByte (s : State) (off : Nat) : Nat :=
  let hdr (id ver len next i : Nat) : Nat :=
    if i < 2 then (id >>> (8 * i)) % 256 else if i = 2 then ver else if i = 3 then len
    else if i < 7 then (next >>> (8 * (i - 4))) % 256 else 0
  if off < 0x120 then
    let i := off - 0x100
    if i < 16 then hdr 1 1 2 0x120 i else if i = 16 then 1 else if i = 18 then s.act F.HOPPER_LEVEL_level else 0
  else if off < 0x180 then
    let i := off - 0x120
    if i < 16 then hdr 2 1 6 0x180 i else if i < 38 then 1 else 0
  else if off < 0x1B0 then
    let i := off - 0x180
    if i < 16 then hdr 3 1 3 0 i
    else
      let v := ([4096, 262144, 256, 16, 32, 4096, 4096, 262144][(i - 16) / 4]?).getD 0
      (v >>> (8 * ((i - 16) % 4))) % 256
  else 0

/-! Firmware in MRAM (R428, R429). -/

/-- A part of a firmware slot. [log 12 DESIGN CHOICE] -/
def State.fwPart (s : State) (slot p : Nat) : Bytes :=
  SMap.getD s.fw.slots (slot * 16 + p) (if slot = 0 then Config.shippedPart p else [])

/-- The manifest of a firmware slot. [log 12 DESIGN CHOICE] -/
def State.fwManifest (s : State) (slot : Nat) : Bytes :=
  SMap.getD s.fw.manifests slot (if slot = 0 then Config.shippedManifest else [])

/-- The entry of a part in a manifest, by its first byte (R429). -/
def manEntry (m : Bytes) (p : Nat) : Option Nat :=
  ((upTo (min 16 (byteAt m 6))).map (fun i => 32 + 80 * i)).find? (fun o => byteAt m o == p)

/-- The active slot of the keep island's selector, and the next one. -/
def State.fwSlot (s : State) : Nat := s.rd F.FW_STATUS_slot
def State.fwNext (s : State) : Nat := 1 - s.rd F.FW_STATUS_slot

/-- The version and the compatibility level of a part in a manifest, 0 where it is absent. -/
def partVersion (m : Bytes) (p : Nat) : Nat := ((manEntry m p).map (fun o => leAt m (o + 4) 4)).getD 0
def partCompat (m : Bytes) (p : Nat) : Nat := ((manEntry m p).map (fun o => byteAt m (o + 1))).getD 0

/-- The firmware registers that follow the slots and the confirm window (R450). -/
def State.fwWord (s : State) (off : Nat) : Option Nat :=
  let active := s.fwManifest s.fwSlot
  let next := s.fwManifest s.fwNext
  if off = 0xE010 then
    some (if s.rd F.FW_STATUS_confirm = 1 then s.act F.FW_CTRL_confirm_s - (s.workSec - s.fw.since) else 0)
  else if off = 0xE014 then some (leAt active 8 4)
  else if off = 0xE018 then some (leAt active 12 4)
  else if off = 0xE01C then some (leAt next 8 4)
  else if off = 0xE020 then some (leAt next 12 4)
  else if 0xE100 ≤ off ∧ off < 0xE180 then
    let p := (off - 0xE100) / 8
    some (if off % 8 = 0 then partVersion active p else partCompat active p + 256 * partCompat next p)
  else none

/-- Words whose home is not a register field: identity, capability list, live counters (R27, R47, R266, R359). -/
def State.liveWord (s : State) (off : Nat) : Option Nat :=
  if off < 0x100 then
    some (match off with
      | 0x00 => 0x00181FB7
      | 0x04 => 0x4B180018
      | 0x08 => 0x3831584B
      | 0x0C => 0x0030302D
      | 0x10 => Config.moduleIdent.toNat % 2 ^ 32
      | 0x14 => Config.moduleIdent.toNat >>> 32
      | 0x18 => Config.idBuild.toNat
      | 0x1C => Config.idMade.toNat
      | 0x20 => 0x100
      | _ => 0)
  else if off < 0x1000 then
    some (s.capByte off + 256 * s.capByte (off + 1) + 65536 * s.capByte (off + 2) +
      16777216 * s.capByte (off + 3))
  else if 0x4400 ≤ off ∧ off < 0x4600 ∧ off % 32 = 8 then
    let t := (off - 0x4400) / 32
    let x := SMap.getD s.tasks.task t TaskSt.fresh
    let st := if !s.aon (F.TASK_CTRL_enable t) then 0 else if x.trapped then 4
      else if s.rd F.TASK_RUN_run_state = 2 ∨ s.rd F.TASK_RUN_run_state = 3 then 3
      else if x.inst.isSome then 2 else 1
    some (st + 8 * s.rd (F.TASK_STATUS_overran t) + 16 * s.rd (F.TASK_STATUS_local_overrun t))
  else if 0xE010 ≤ off ∧ off < 0xE180 then s.fwWord off
  else match off with
    | 0x4010 => some (s.turn.k % 2 ^ 32)
    | 0x4014 => some (s.turn.k >>> 32 % 2 ^ 32)
    | 0x4018 => some (if s.on F.TURN_STATUS_running then s.phaseNs % 2 ^ 20 else 0)
    | 0x5020 => some (s.workWord % 2 ^ 32)
    | 0x5024 => some (s.workWord >>> 32 % 2 ^ 32)
    | 0x5028 => some (s.workWord >>> 64 % 2 ^ 32)
    | 0x502C => some (s.workWord >>> 96 % 2 ^ 32)
    | 0x5030 => some (toBits 32 (s.time.carry / (2 ^ 24 : Nat)))
    | 0x5034 => some (toBits 64 (s.time.carry / (2 ^ 24 : Nat)) >>> 32)
    | 0x5098 => some s.time.domA.slewLeft
    | 0x50A8 => some s.time.domB.slewLeft
    | 0x7020 => some (match s.ply.trackSince with
      | some w =>
        if s.isHome && !s.on F.PLY_STATUS_home_err && s.aon F.PLY_CTRL_revert_en then
          s.act F.PLY_CTRL_revert_hold_s - (s.workSec - w)
        else 0x1FFFF
      | none => 0x1FFFF)
    | _ => none

/-- The word a register holds, its STG fields from a copy of the hopper, before any capture. -/
def State.wordIn (s : State) (copy : RegMap) (off : Nat) : Nat :=
  match s.liveWord off with
  | some v => v
  | none =>
    let o := s.mapOff off
    ((rowsAt o).map (fun r => s.fieldIn copy r o <<< r.lo)).foldl (· ||| ·) 0

/-- The word that a BAR0 read of a register shows now: HOPPER_VIEW selects the copy of its STG fields (R346). -/
def State.rawWord (s : State) (off : Nat) : Nat :=
  s.wordIn (if s.on F.HOPPER_VIEW_staged then s.hop.staged else s.hop.active) off

/-- The word that a register holds for the module itself, which runs on the active copy (R345, R346). -/
def State.ownWord (s : State) (off : Nat) : Nat := s.wordIn s.hop.active off

/-- The higher words that a read of a low word captures (R365), by the register tables that say so. -/
def highWords (off : Nat) : List Nat :=
  if off = 0x4010 ∨ off = 0x4804 ∨ off = 0x702C ∨ off = 0x1010 ∨ off = 0x5030 ∨ off = 0x5040 ∨ off = 0xE014 then
    [off + 4]
  else if 0x4400 ≤ off ∧ off < 0x4600 ∧ (off - 0x4400) % 32 = 0x18 then [off + 4]
  else if 0xC040 ≤ off ∧ off < 0xC080 ∧ off % 16 = 4 then [off + 4]
  else if 0x4700 ≤ off ∧ off < 0x4800 ∧ off % 16 = 8 then [off + 4]
  else if 0x80100 ≤ off ∧ off < 0x80200 ∧ off % 32 = 0x10 then [off + 4]
  else if off = 0x5020 ∨ off = 0x5050 ∨ off = 0x5060 ∨ off = 0x5070 ∨ off = 0x50C0 ∨ off = 0x50D0 ∨
      off = 0x50E0 ∨ off = 0x50F0 ∨ off = 0x8204 ∨ off = 0x8224 then [off + 4, off + 8, off + 12]
  else []

/-- Is an offset a captured higher word? -/
def isHighWord (off : Nat) : Bool :=
  (highWords (off - 4)).contains off || (highWords (off - 8)).contains off || (highWords (off - 12)).contains off

/-- The word a BAR0 read of an offset returns, without any side effect. -/
def State.bar0Word (s : State) (off : Nat) : Nat :=
  if !s.pd (blockPd off) then 0
  else if isHighWord off then SMap.getD s.caps off 0
  else s.rawWord off

/-! The judgement of the access-control units (R399 to R403, R408). -/

/-- First byte of region n of unit u (R400). -/
def State.acBase (s : State) (u n : Nat) : Nat :=
  s.act (F.AC_BASE_LO_base u n) * 64 + s.act (F.AC_BASE_HI_addr u n) * 2 ^ 32
/-- Last byte of region n of unit u. -/
def State.acLimit (s : State) (u n : Nat) : Nat :=
  s.act (F.AC_LIMIT_LO_limit u n) * 64 + 63 + s.act (F.AC_LIMIT_HI_addr u n) * 2 ^ 32

/-- The enabled regions of unit u, lowest first. -/
def State.acRegions (s : State) (u : Nat) : List Nat :=
  (upTo 32).filter (fun n => s.aon (F.AC_BASE_LO_enable u n))

/-- The permission that an access kind needs (R401): 0 read, 1 write, 2 fetch. -/
def State.acPermits (s : State) (u n kind : Nat) : Bool :=
  match kind with
  | 0 => s.aon (F.AC_BASE_LO_r u n)
  | 1 => s.aon (F.AC_BASE_LO_w u n)
  | _ => s.aon (F.AC_BASE_LO_x u n)

/-- The region that forbids one byte, if any (R402): the lowest enabled region that contains it, lacking the
permission. -/
def State.acForbids (s : State) (u kind : Nat) (regions : List Nat) (a : Nat) : Option Nat :=
  match regions.find? (fun n => decide (s.acBase u n ≤ a) && decide (a ≤ s.acLimit u n)) with
  | some n => if s.acPermits u n kind then none else some n
  | none => none

/-- The lowest forbidden byte of an access and its region. -/
def State.acJudge (s : State) (u kind addr len : Nat) : Option (Nat × Nat) :=
  let regions := s.acRegions u
  if regions.isEmpty then none
  else (upTo len).findSome? (fun i => (s.acForbids u kind regions (addr + i)).map (fun n => (addr + i, n)))

/-- Count a refused access, and capture it if the unit's record is free (R408). -/
def State.acNote (s : State) (u kind requester len a n : Nat) : State :=
  let s := s.inc (F.AC_VIOL_COUNT_count u)
  if s.on (F.AC_VIOL_INFO_valid u) then s
  else
    let s := ((s.wr (F.AC_VIOL_INFO_valid u) 1).wr (F.AC_VIOL_INFO_kind u) kind).wr (F.AC_VIOL_INFO_region u) n
    let s := ((s.wr (F.AC_VIOL_INFO_requester u) requester).wr (F.AC_VIOL_INFO_length u) len).wrb
      (F.AC_VIOL_INFO_locked u) (bitOf (s.rd (F.AC_LOCK_lock u)) n)
    (s.wr (F.AC_VIOL_ADDR_LO_addr u) (a % 2 ^ 32)).wr (F.AC_VIOL_ADDR_HI_addr u) (a >>> 32)

/-! The event engine (R335 to R339) and the recorder's triggers (R413). -/

/-- Does R321 allow the module to use host memory: D0, Bus Master Enable, link up, PERST# high? -/
def State.dmaOk (s : State) : Bool :=
  s.host.dstate == 0 && s.host.busMaster && !s.host.perst && !s.host.linkDown && s.pd .hostsvc

/-- Send the message of vector v, or hold it in the pending-bit array (R339). -/
def State.sendMsix (s : State) (v : Nat) : State :=
  let s := { s with host := { s.host with coal := SMap.del s.host.coal v } }
  if s.host.funcMask || s.on (F.MSIX_CTRL_mask v) then
    s.wr (F.MSIX_PBA_pending (v / 32)) (setBit (s.rd (F.MSIX_PBA_pending (v / 32))) (v % 32) true)
  else s.emit (.msix v)

/-- Count one raise toward the message of vector v (R339). -/
def State.countMsix (s : State) (v : Nat) : State :=
  let n := SMap.getD s.host.coal v 0 + 1
  if max 1 (s.rd (F.EVT_COAL_count v)) ≤ n then s.sendMsix v
  else { s with host := { s.host with coal := SMap.put s.host.coal v n } }

/-- The bytes of an event record (R336). -/
def State.eventRecord (s : State) (src a b : Nat) : Bytes :=
  let drop := s.host.evtDropped
  let size := 2 ^ s.rd F.EVR_CTRL_size_log2
  let w := s.workWord
  leBytes 1 src ++ leBytes 1 (bit (drop != 0)) ++ leBytes 2 (min drop 0xFFFF) ++ leBytes 4 a ++ leBytes 4 b ++
    leBytes 8 s.turn.k ++ leBytes 4 (w >>> 64) ++ leBytes 4 (bitsOf w 61 32) ++ leBytes 1 (bitsOf w 31 24) ++
    [0, 0] ++ leBytes 1 (bit ((s.host.evtWritten / size) % 2 == 0))

/-- Fire a recorder trigger (R413, R414): within its holdoff the raise is counted, else a record will be taken. -/
def State.fireTrigger (s : State) (n src a b : Nat) : State :=
  let always := 56 ≤ n && n ≤ 58
  if !s.pd .miller || (!always && !(s.aon F.REC_CTRL_enable)) then s
  else if s.recorder.holdoff.contains n && !(always && s.on F.BRK_STATE_holdup) then
    { s with recorder := { s.recorder with
        heldOff := SMap.put s.recorder.heldOff n (SMap.getD s.recorder.heldOff n 0 + 1) } }
  else
    let h := if s.act (F.REC_TRIG_holdoff_ms n) = 0 then s.recorder.holdoff else n :: s.recorder.holdoff.erase n
    { s with recorder := { s.recorder with
        raised := s.recorder.raised ++ [⟨n, src, a, b, s.turn.k, s.workWord⟩], holdoff := h } }

/-- Fire every trigger of the recorder that a raise of a source fires (R413). -/
def State.fireSource (s : State) (src a b : Nat) : State :=
  (upTo 56).foldl (fun s n =>
    if s.aon (F.REC_TRIG_enable n) && s.act (F.REC_TRIG_source n) == src &&
        (!(s.aon (F.REC_TRIG_dtest_en n)) || bitOf a (s.act (F.REC_TRIG_dbit n))) then
      s.fireTrigger n src a b
    else s) s

/-- A raise without its event record: the recorder's triggers, EVT_RAISED, and the message's count (R335, R413).
[log 59 DEDUCED] -/
def State.raiseQuiet (s : State) (src a b : Nat) : State :=
  let s := s.fireSource src a b
  let n := src / 32
  let s := s.wr (F.EVT_RAISED_raised n) (setBit (s.rd (F.EVT_RAISED_raised n)) (src % 32) true)
  if bitOf (s.rd (F.EVT_MSI_MASK_mask n)) (src % 32) then s else s.countMsix src

/-- The DMA unit refuses an event record (R404): HOST_ERR bit 4 and source 6, and the record is lost. The raises that
this refusal makes write no record of their own. [log 59 DEDUCED] -/
def State.refuseEvent (s : State) (a n : Nat) : State :=
  let first := !s.on (F.AC_VIOL_INFO_valid 3)
  let s := s.acNote 3 1 4 32 a n
  let s := s.wr F.HOST_ERR_err (setBit (s.rd F.HOST_ERR_err) 4 true)
  let s := s.raiseQuiet 6 (s.rd F.HOST_ERR_err) 4
  if first then s.raiseQuiet 114 (s.rawWord 0xC070 + 3 * 2 ^ 30) (a % 2 ^ 32) else s

/-- The host-memory address in effect of the _LO and _HI pair whose _LO register lies at an offset (R343, R365). -/
def State.hostAddr (s : State) (lo : Nat) : Nat := SMap.getD s.host.addrs lo 0

/-- Write an event record, or drop it when the ring is full (R336, R338). [log 59 DEDUCED] -/
def State.writeEvent (s : State) (src a b : Nat) : State :=
  let size := 2 ^ s.rd F.EVR_CTRL_size_log2
  if size ≤ s.host.evtWritten - s.host.evtCi then
    let first := s.host.evtDropped == 0
    let s := (s.inc F.EVT_LOST_count)
    let s := { s with host := { s.host with evtDropped := s.host.evtDropped + 1 } }
    if first then
      let s := s.wr (F.EVT_RAISED_raised 0) (setBit (s.rd (F.EVT_RAISED_raised 0)) 4 true)
      if bitOf (s.rd (F.EVT_MSI_MASK_mask 0)) 4 then s else s.countMsix 4
    else s
  else
    let base := s.hostAddr 0x2020
    let addr := base + s.host.evtWritten % size * 32
    match s.acJudge 3 1 addr 32 with
    | some (x, n) => s.refuseEvent x n
    | none =>
      let s := s.emit (.host addr (s.eventRecord src a b))
      { s with host := { s.host with evtWritten := s.host.evtWritten + 1, evtDropped := 0 } }

/-- Raise event source src with details A and B (R335). -/
def State.raiseSource (s : State) (src a b : Nat) : State :=
  let s := s.fireSource src a b
  if !s.pd .hostsvc then s
  else
    let n := src / 32
    let i := src % 32
    let s := s.wr (F.EVT_RAISED_raised n) (setBit (s.rd (F.EVT_RAISED_raised n)) i true)
    let s := if 6 ≤ src && bitOf (s.rd (F.EVT_REC_EN_en n)) i && s.on F.EVR_CTRL_enable && s.dmaOk
        && !s.host.evtError then s.writeEvent src a b else s
    if bitOf (s.rd (F.EVT_MSI_MASK_mask n)) i then s else s.countMsix src

/-- Set bits of an event status field; where an enabled bit goes from 0 to 1, raise the source (R102, R126,
R219, R236, R266, R317, R426, R450, R468). Details are the words of the registers at offA and offB. -/
def State.setEvt (s : State) (f en : Fld) (bits src offA offB : Nat) : State :=
  let old := s.rd f
  let rose := clearBits bits old
  let s := s.wr f (old ||| bits)
  if rose &&& s.rd en = 0 then s else s.raiseSource src (s.rawWord offA) (s.rawWord offB)

/-- Set a bit of SK_EVT_STATUS of port p (R102). -/
def State.skEvt (s : State) (p i : Nat) : State :=
  s.setEvt (F.SK_EVT_STATUS_evt p) (F.SK_EVT_ENABLE_en p) (1 <<< i) (16 + p) (0x1000C + 0x1000 * p)
    (0x10008 + 0x1000 * p)

/-- The five event bits of task t (R126). -/
def State.taskEvtBits (s : State) (t : Nat) : Nat :=
  s.rd (F.TASK_EVT_slip t) + 2 * s.rd (F.TASK_EVT_overrun t) + 4 * s.rd (F.TASK_EVT_trap t) +
    8 * s.rd (F.TASK_EVT_halted t) + 16 * s.rd (F.TASK_EVT_started t)

/-- The field of bit i of TASK_EVT[t]. -/
def taskEvtFld (t i : Nat) : Fld :=
  if i = 0 then F.TASK_EVT_slip t else if i = 1 then F.TASK_EVT_overrun t
  else if i = 2 then F.TASK_EVT_trap t else if i = 3 then F.TASK_EVT_halted t else F.TASK_EVT_started t

/-- Set bit i of TASK_EVT[t]; from 0 to 1 and enabled it raises source 32 + t (R126, R337). -/
def State.taskEvt (s : State) (t i : Nat) : State :=
  let was := s.on (taskEvtFld t i)
  let s := s.wr (taskEvtFld t i) 1
  if !was && bitOf (s.rd (F.TASK_EVT_ENABLE_en t)) i then
    s.raiseSource (32 + t) (s.taskEvtBits t) (s.rd (F.SLACK_TASK_LAST_slack_ns t))
  else s

/-- Set a bit of KEY_EVT: every bit raises source 113 (R126). -/
def State.keyEvt (s : State) (i : Nat) : State :=
  let s := s.wr (if i = 0 then F.KEY_EVT_changed else if i = 1 then F.KEY_EVT_invalid else F.KEY_EVT_disagree) 1
  s.raiseSource 113 (s.rawWord 0x4208) (s.rawWord 0x4204)

/-- Set bit i of PLY_EVT; from 0 to 1 and enabled it raises source 80 + i (R298). -/
def State.plyEvt (s : State) (i : Nat) : State :=
  let old := s.rd F.PLY_EVT_evt
  let s := s.wr F.PLY_EVT_evt (setBit old i true)
  if !(bitOf old i) && bitOf (s.rd F.PLY_EVT_ENABLE_en) i then
    s.raiseSource (80 + i) (s.rd F.PLY_EVT_evt) (s.rawWord 0x7008)
  else s

/-- Set bit i of BRK_EVT; from 0 to 1 and enabled it raises source 112 (R317). -/
def State.brkEvt (s : State) (i : Nat) : State :=
  let f := if i = 0 then F.BRK_EVT_asserted else if i = 1 then F.BRK_EVT_ended
    else if i = 2 then F.BRK_EVT_holdup else F.BRK_EVT_split
  let was := s.on f
  let s := s.wr f 1
  if !was && bitOf (s.rd F.BRK_EVT_ENABLE_en) i then s.raiseSource 112 (s.rawWord 0x8014) (s.rawWord 0x8004)
  else s

/-- The event source of a bit of TIME_EVT (R266). -/
def timeEvtSource (i : Nat) : Nat :=
  if i = 0 then 64 else if i = 1 then 65 else if i = 2 ∨ i = 4 then 66 else if i = 3 ∨ i = 5 then 67
  else if i ≤ 8 ∨ i = 22 ∨ i = 23 then 68 else if i ≤ 11 then 69 else if i ≤ 19 then 70 else 71

/-- The field that holds bit i of TIME_EVT, with the bit's place in the field. -/
def timeEvtFld (i : Nat) : Fld × Nat :=
  match i with
  | 0 => (F.TIME_EVT_dom_a, 0) | 1 => (F.TIME_EVT_dom_b, 0) | 2 => (F.TIME_EVT_pps_a, 0)
  | 3 => (F.TIME_EVT_pps_b, 0) | 4 => (F.TIME_EVT_pps_a_lost, 0) | 5 => (F.TIME_EVT_pps_b_lost, 0)
  | 6 => (F.TIME_EVT_switched, 0) | 7 => (F.TIME_EVT_slew_done, 0) | 8 => (F.TIME_EVT_work_free, 0)
  | 9 => (F.TIME_EVT_cal_done, 0) | 10 => (F.TIME_EVT_cal_lost, 0) | 11 => (F.TIME_EVT_master_clash, 0)
  | 20 => (F.TIME_EVT_refclk_lost, 0) | 21 => (F.TIME_EVT_ply_diff, 0) | 22 => (F.TIME_EVT_leap_err, 0)
  | 23 => (F.TIME_EVT_inc_err, 0) | j => (F.TIME_EVT_alarm, j - 12)

/-- Set bit i of TIME_EVT; from 0 to 1 and enabled it raises its source (R266). -/
def State.timeEvt (s : State) (i : Nat) : State :=
  let f := (timeEvtFld i).1
  let j := (timeEvtFld i).2
  let was := bitOf (s.rd f) j
  let s := s.wr f (setBit (s.rd f) j true)
  if !was && bitOf (s.rd F.TIME_EVT_ENABLE_en) i then
    s.raiseSource (timeEvtSource i) (s.rawWord 0x500C) (s.rawWord 0x5008)
  else s

/-- Set bit i of RING_EVT: 0 to 9 of evt, 10 topology (R236). -/
def State.ringEvt (s : State) (i : Nat) : State :=
  let was := if i = 10 then s.on F.RING_EVT_topology else bitOf (s.rd F.RING_EVT_evt) i
  let s := if i = 10 then s.wr F.RING_EVT_topology 1 else s.wr F.RING_EVT_evt (setBit (s.rd F.RING_EVT_evt) i true)
  if !was && bitOf (s.rd F.RING_EVT_ENABLE_en) i then s.raiseSource 72 (s.rawWord 0x600C) (s.rawWord 0x6008)
  else s

/-- Set bit i of REC_EVT (R426). -/
def State.recEvt (s : State) (i : Nat) : State :=
  s.setEvt F.REC_EVT_evt F.REC_EVT_ENABLE_en (1 <<< i) 115 0xD008 0xD004

/-- Set bit i of FW_EVT (R450). -/
def State.fwEvt (s : State) (i : Nat) : State :=
  s.setEvt F.FW_EVT_evt F.FW_EVT_ENABLE_en (1 <<< i) 116 0xE008 0xE000

/-- Set bit i of PWR_EVT (R468). -/
def State.pwrEvt (s : State) (i : Nat) : State :=
  s.setEvt F.PWR_EVT_evt F.PWR_EVT_ENABLE_en (1 <<< i) 117 0xF010 0xF000

/-- Set bit i of MB_EVT of channel ch (R388). -/
def State.millEvt (s : State) (ch i : Nat) : State :=
  s.setEvt (F.MB_EVT_evt ch) (F.MB_EVT_ENABLE_en ch) (1 <<< i) (118 + ch) (0x9018 + 0x1000 * ch)
    (0x9014 + 0x1000 * ch)

/-- Set bit i of TRACE_EVT: 0 to 7 done, 8 lost (R219). -/
def State.traceEvt (s : State) (i : Nat) (detail : Nat) : State :=
  let was := if i = 8 then s.on F.TRACE_EVT_lost else bitOf (s.rd F.TRACE_EVT_done) i
  let s := if i = 8 then s.wr F.TRACE_EVT_lost 1 else s.wr F.TRACE_EVT_done (setBit (s.rd F.TRACE_EVT_done) i true)
  if !was && bitOf (s.rd F.TRACE_EVT_ENABLE_en) i then
    s.raiseSource (if i = 8 then 58 else 57) (s.rawWord 0x80000) (s.rawWord (0x8010C + 32 * detail))
  else s

end Sys2Proof.Machine
end

