-- ==== Sys2Proof/Machine/Clock.lean ====
section
/-! DEFINITION. The tick of the time engine (R237, R255). -/

namespace Sys2Proof.Machine

/-- One tick of a domain: its increment plus the servo's correction (R237, R251), and the slew helper's count. -/
def TimeDom.tick (d : TimeDom) : TimeDom :=
  if !d.running then d
  else
    let adv : Int := (d.inc : Int) + (if d.corrLeft = 0 then 0 else d.corr)
    { d with value := (((d.value : Int) + adv)).toNat, lastAdv := adv.toNat, corrLeft := d.corrLeft - 1,
             slewLeft := d.slewLeft - 1 }

/-- The followed domain. -/
def TimeSt.followed (t : TimeSt) : TimeDom := if t.followB then t.domB else t.domA

/-- The state of the followed domain (R252). -/
def State.followedState (s : State) : Nat :=
  if s.time.followB then s.rd F.TIME_STATUS_dom_b else s.rd F.TIME_STATUS_dom_a

/-- The greatest slew of O in one tick, in units (R255). -/
def State.slewUnits (s : State) : Nat := s.act F.TIME_CTRL_slew_ppb * 32 * 2 ^ 32 / 10000000000

/-- Working time's advance in one tick (R255). [log 3 DESIGN CHOICE] -/
def State.workTick (s : State) : State :=
  if !s.time.workSet then s
  else if 2 ≤ s.followedState then
    let adv := s.time.followed.lastAdv
    let q : Int := s.slewUnits
    let m := min (max s.time.carry (-q)) q
    let carry := s.time.carry - m
    let ends := decide (s.time.carry ≠ 0) && decide (carry = 0)
    let s : State := { s with time := { s.time with
      work := ((s.time.work : Int) + adv + m).toNat
      carry := carry, lastAdv := adv, slewOwed := s.time.slewOwed || ends } }
    s.wrb F.TIME_STATUS_slewing (decide (carry ≠ 0))
  else { s with time := { s.time with work := s.time.work + s.time.lastAdv } }

/-- The parts of a calendar second: 312,500,000 ticks of LOCAL by 32,768 periods of the crystal (R11). -/
def calSecond : Nat := 312500000 * 32768

/-- The keep island's crystal counts the calendar on by some parts of a second (R11, R265). [log 3 DESIGN CHOICE] -/
def TimeSt.crystal (t : TimeSt) (n : Nat) : TimeSt :=
  if t.calPart + n < calSecond then { t with calPart := t.calPart + n }
  else { t with calendar := t.calendar + 1, calPart := t.calPart + n - calSecond }

/-- The brake domain writes the whole working seconds to the keep island's calendar (R265, R314). -/
def State.keepCalendar (s : State) : State :=
  if !s.time.workSet || !s.pd .keep then s
  else { s with time := { s.time with calendar := s.workSec, calPart := 0 } }

/-- One tick of LOCAL, of both domains, of working time (R237) and of the calendar; with PD_TIME off, one period of the
calendar's crystal (R11, R265). Nothing else happens at a tick: what comes about at an instant is a command of its own.
[log 3 DESIGN CHOICE] -/
def timeTick (s : State) : State :=
  if !s.pd .time then { s with time := s.time.crystal 312500000 }
  else
    let t := s.time.crystal 32768
    let s : State := { s with time := { t with ticks := t.ticks + 1, domA := t.domA.tick, domB := t.domB.tick } }
    s.workTick

end Sys2Proof.Machine
end

