-- ==== Sys2Proof/Machine/AccessOps.lean ====
section
/-! DEFINITION. An access through an access-control unit (R399 to R408). -/

namespace Sys2Proof.Machine

/-- Record a refused access (R408). -/
def State.acViolation (s : State) (u kind requester len a n : Nat) : State :=
  let first := !s.on (F.AC_VIOL_INFO_valid u)
  let s := s.acNote u kind requester len a n
  if first then s.raiseSource 114 (s.rawWord (0xC040 + 16 * u) + u * 2 ^ 30) (a % 2 ^ 32) else s

/-- An access passes unit u, or is refused whole and recorded (R402). [log 2 DESIGN CHOICE] -/
def State.acAccess (s : State) (u kind requester addr len : Nat) : State × Bool :=
  match s.acJudge u kind addr len with
  | none => (s, true)
  | some (a, n) => (s.acViolation u kind requester len a n, false)

/-- May an access to a register pass without a judgement: a read of the units' locks and records, or a write of 1 to the
valid bit of a record (R407)? Kind 0 is a read, 1 a write of the word v. -/
def unjudged (off kind v : Nat) : Bool :=
  if kind = 0 then 0xC010 ≤ off && off < 0xC080 else 0xC040 ≤ off && off < 0xC080 && off % 16 == 0 && v % 2 == 1

/-- The internal address of a BAR0 offset (R399). -/
def bar0Addr (off : Nat) : Nat := 0x200000000 + off

/-- A host read of the register at a BAR0 offset, which the HOST unit judges (R399, R407): refused it ends with completer
abort (R404). [log 2 DESIGN CHOICE] -/
def State.hostRead (s : State) (off : Nat) (f : State → State × Nat) : State :=
  if unjudged off 0 0 then (f s).1.emit (.word (f s).2)
  else
    match s.acAccess 0 0 0 (bar0Addr off) 4 with
    | (s, false) => s.emit (.bar none)
    | (s, true) => (f s).1.emit (.word (f s).2)

end Sys2Proof.Machine
end

