-- ==== Sys2Proof/Machine/Frames.lean ====
section
/-! DEFINITION. Frames: alive counters, the headers of Skein, ply and ring frames, and their launch. -/

namespace Sys2Proof.Machine

/-! Alive counters (R81, R396, R397). -/

/-- The class of a frame by its alive counter (R81). [log 13 DEDUCED] -/
inductive AliveClass where
  | inOrder | repeated | gap
  deriving DecidableEq, Repr

/-- Ticks in 1 ms, after which a last value is forgotten (R397). -/
def forgetTicks : Nat := 312500

/-- The class of a counter: last values and the ticks at which they were accepted (R81, R397). [log 13 DEDUCED] -/
def aliveClass (m : SMap (Nat × Nat)) (key now alive : Nat) : AliveClass :=
  match SMap.find m key with
  | none => .inOrder
  | some e =>
    if forgetTicks ≤ now - e.2 then .inOrder
    else
      let d := (alive + 65536 - e.1) % 65536
      if d = 1 then .inOrder else if d = 0 then .repeated else .gap

/-- The map with an accepted counter. [log 13 DEDUCED] -/
def aliveAccept (m : SMap (Nat × Nat)) (key now alive : Nat) : SMap (Nat × Nat) :=
  SMap.put m key (alive % 65536, now)

/-! Skein frames (R78, R79). -/

/-- The key of a frame type and a station. -/
def skKey (type station : Nat) : Nat := type * 256 + station

/-- A Skein frame with its seal. -/
def skeinFrame (type station flags epoch alive holdoff turn ns frac : Nat) (payload : Bytes) : Bytes :=
  sealed (beBytes 1 type ++ beBytes 1 station ++ beBytes 4 (flags * 2 ^ 28 + epoch % 2 ^ 28) ++ beBytes 2 alive ++
    beBytes 2 payload.length ++ beBytes 1 holdoff ++ [0] ++ beBytes 8 turn ++ beBytes 4 ns ++ beBytes 1 frac ++
    List.replicate 7 0 ++ payload)

/-- A Skein port before any traffic. [log 40 DEDUCED] -/
def SkeinPort.idle : SkeinPort :=
  { marksMissing := 0, marksRun := 0, markSeen := false, echoPos := 0, echoSeq := 0, echoOut := [], setupTurn := none,
    busy := 0, asym := 0, farRtt := [] }

/-- A Skein port's working state. -/
def State.port (s : State) (p : Nat) : SkeinPort := SMap.getD s.skein.ports p SkeinPort.idle
/-- The state with it written. -/
def State.setPort (s : State) (p : Nat) (x : SkeinPort) : State :=
  { s with skein := { s.skein with ports := SMap.put s.skein.ports p x } }

/-- Is port p's link up? -/
def State.skUp (s : State) (p : Nat) : Bool := s.rd (F.SK_STATUS_link p) == 2

/-- Does port p hear its chain: its receive half is in PD_SKEIN (R12, R299)? -/
def State.skHears (s : State) (p : Nat) : Bool := s.pd .skein && s.skUp p

/-- LOCAL in ps. -/
def State.localPs (s : State) : Nat := s.time.ticks * 3200

/-- Port p sends a frame of some bytes after what it is sending (R75). [log 100 DEDUCED] -/
def State.sending (s : State) (p bytes : Nat) : State :=
  let x := s.port p
  s.setPort p { x with busy := max x.busy s.localPs + ceilDiv (bytes + 1) 8 * 2560 }

/-- A terminate block ends what port p is sending (R307). [log 100 DEDUCED] -/
def State.endSending (s : State) (p : Nat) : State :=
  if (s.port p).busy ≤ s.localPs then s
  else (s.emit (.skeinEnd p)).setPort p { s.port p with busy := s.localPs }

/-- Launch a Skein frame of a type for a station with a hold-off count, with its next alive count (R81). On a port whose
link is not up nothing leaves the module. [log 13 DEDUCED] -/
def State.launchSkeinIn (s : State) (holdoff type station flags epoch turn ns frac : Nat) (payload : Bytes) : State :=
  let p := station / 16
  if !s.skUp p then s
  else
    let key := skKey type station
    let alive := SMap.getD s.skein.txAlive key 0
    let s := { s with skein := { s.skein with txAlive := SMap.set s.skein.txAlive key 0 ((alive + 1) % 65536) } }
    (s.sending p (36 + payload.length)).emit
      (.skein p (skeinFrame type station flags epoch alive holdoff turn ns frac payload))

/-- The same with the hold-off count in force. [log 13 DEDUCED] -/
def State.launchSkein (s : State) (type station flags epoch turn ns frac : Nat) (payload : Bytes) : State :=
  s.launchSkeinIn (s.act (F.STATION_MAP_1_holdoff station)) type station flags epoch turn ns frac payload

/-! Ply frames (R271). -/

/-- A ply frame with its seal. -/
def plyFrame (type : Nat) (active tracking : Bool) (alive turn : Nat) (payload : Bytes) : Bytes :=
  sealed (beBytes 1 type ++ beBytes 1 (bit active + 2 * bit tracking) ++ beBytes 2 alive ++
    beBytes 2 payload.length ++ [0, 0] ++ beBytes 8 turn ++ payload)

/-- Send a ply frame, while the ply link is up. [log 13 DEDUCED, 116 DEDUCED] -/
def State.sendPly (s : State) (type turn : Nat) (payload : Bytes) : State :=
  if !s.plyUp then s
  else
    let alive := SMap.getD s.ply.txAlive type 0
    let s := { s with ply := { s.ply with txAlive := SMap.set s.ply.txAlive type 0 ((alive + 1) % 65536) } }
    s.emit (.ply (plyFrame type s.isActive s.isStandby alive turn payload))

/-- Take a ply frame of a type: a failed seal or an unknown type is counted and the frame discarded, a repeat is discarded (R81,
R271); none when nothing further happens. [log 116 DEDUCED] -/
def State.plyTake (s : State) (type : Nat) (h : PlyHdr) : State × Bool :=
  if !s.plyUp then (s, false)
  else if !h.sealOk || !h.known then (s.inc F.PLY_CNT_SEAL_count, false)
  else
    match aliveClass s.ply.rxAlive type s.time.ticks h.alive.toNat with
    | .repeated => (s, false)
    | _ => ({ s with ply := { s.ply with
        rxAlive := aliveAccept s.ply.rxAlive type s.time.ticks h.alive.toNat } }, true)

/-- A big-endian ORDER payload without its content (R272). -/
def orderHead (code seq boundary digest : Nat) : Bytes :=
  beBytes 2 code ++ beBytes 2 seq ++ beBytes 8 boundary ++ beBytes 4 digest

end Sys2Proof.Machine
end

