-- ==== Sys2Proof/Machine/ProgImage.lean ====
section
/-! DEFINITION. The program image of R145 and R146 as its bytes: header fields, sections and entries. -/

namespace Sys2Proof.Machine

/-- A slot entry of a program (R146): first slot, count, write, writing strand. -/
structure ProgSlots where
  first : Nat
  count : Nat
  write : Bool
  strand : Nat
  deriving DecidableEq, Repr

/-- A variable of a program (R146). -/
structure ProgVar where
  key : Nat
  first : Nat
  len : Nat
  type : Nat
  retained : Bool
  deriving DecidableEq, Repr

/-- Behaviour level of an image (R145). -/
def progLevel (b : Bytes) : Nat := byteAt b 6
/-- Strand count. -/
def progStrands (b : Bytes) : Nat := byteAt b 7
/-- Image length in bytes, the seal included. -/
def progLen (b : Bytes) : Nat := leAt b 8 4
/-- Task data words. -/
def progDataWords (b : Bytes) : Nat := leAt b 12 4
/-- Retained words. -/
def progRetained (b : Bytes) : Nat := leAt b 16 4
/-- Trap action: 0 HALT, 1 STOP. -/
def progTrapAction (b : Bytes) : Nat := byteAt b 20
/-- Program identity. -/
def progIdent (b : Bytes) : Nat := leAt b 24 8
/-- Code words of strand j. -/
def progCode (b : Bytes) (j : Nat) : Nat := leAt b (32 + 2 * j) 2
/-- Worst steps of strand j. -/
def progSteps (b : Bytes) (j : Nat) : Nat := leAt b (48 + 4 * j) 4
/-- First word of the data write range of strand j. -/
def progRangeFirst (b : Bytes) (j : Nat) : Nat := leAt b (80 + 4 * j) 2
/-- Word count of the data write range of strand j. -/
def progRangeCount (b : Bytes) (j : Nat) : Nat := leAt b (82 + 4 * j) 2
/-- Slot entries. -/
def progNSlots (b : Bytes) : Nat := leAt b 112 4
/-- Loop entries. -/
def progNLoops (b : Bytes) : Nat := leAt b 116 2
/-- Mill entries. -/
def progNMills (b : Bytes) : Nat := leAt b 118 2
/-- Bound entries. -/
def progNBounds (b : Bytes) : Nat := leAt b 120 4
/-- Variable entries. -/
def progNVars (b : Bytes) : Nat := leAt b 124 4

/-- Code words of strands below j. -/
def progCodeBefore (b : Bytes) (j : Nat) : Nat := ((upTo j).map (progCode b)).sum
/-- Code words in all. -/
def progCodeTotal (b : Bytes) : Nat := progCodeBefore b 8
/-- Offset of the slot table. -/
def progSlotOff (b : Bytes) : Nat := 128 + 8 * progCodeTotal b
/-- Offset of the loop table. -/
def progLoopOff (b : Bytes) : Nat := progSlotOff b + 8 * progNSlots b
/-- Offset of the mill table. -/
def progMillOff (b : Bytes) : Nat := progLoopOff b + 4 * progNLoops b
/-- Offset of the bound table. -/
def progBoundOff (b : Bytes) : Nat := progMillOff b + 4 * progNMills b
/-- Offset of the data initial values. -/
def progInitOff (b : Bytes) : Nat := progBoundOff b + 8 * progNBounds b
/-- Offset of the variable table. -/
def progVarOff (b : Bytes) : Nat := progInitOff b + 8 * progDataWords b
/-- The length that the counts give an image, its seal included. -/
def progFullLen (b : Bytes) : Nat := progVarOff b + 16 * progNVars b + 4

/-- The container of code word a of strand j. -/
def progContainer (b : Bytes) (j a : Nat) : Nat := leAt b (128 + 8 * (progCodeBefore b j + a)) 8
/-- Code word a of strand j. -/
def progWord (b : Bytes) (j a : Nat) : Nat := progContainer b j a % 2 ^ 36

/-- The slot table. -/
def progSlots (b : Bytes) : List ProgSlots :=
  (upTo (progNSlots b)).map (fun i =>
    let o := progSlotOff b + 8 * i
    ⟨leAt b o 4, leAt b (o + 4) 2, byteAt b (o + 6) == 1, byteAt b (o + 7)⟩)

/-- The loop table: loop, read, write, writing strand. -/
def progLoops (b : Bytes) : List (Nat × Bool × Bool × Nat) :=
  (upTo (progNLoops b)).map (fun i =>
    let o := progLoopOff b + 4 * i
    (leAt b o 2, bitOf (byteAt b (o + 2)) 0, bitOf (byteAt b (o + 2)) 1, byteAt b (o + 3)))

/-- The mill table: channel, buffer, transmit, writing strand. -/
def progMills (b : Bytes) : List (Nat × Nat × Bool × Nat) :=
  (upTo (progNMills b)).map (fun i =>
    let o := progMillOff b + 4 * i
    (byteAt b o, byteAt b (o + 1), byteAt b (o + 2) == 1, byteAt b (o + 3)))

/-- The bound table: strand, code address, largest index. -/
def progBounds (b : Bytes) : List (Nat × Nat × Nat) :=
  (upTo (progNBounds b)).map (fun i =>
    let o := progBoundOff b + 8 * i
    (byteAt b o, leAt b (o + 2) 2, leAt b (o + 4) 4))

/-- The bound of an indexed access at address a of strand j. -/
def progBound (b : Bytes) (j a : Nat) : Option Nat :=
  ((progBounds b).find? (fun e => e.1 == j && e.2.1 == a)).map (fun e => e.2.2)

/-- The initial value of a data word. -/
def progInit (b : Bytes) (w : Nat) : Word36 := BitVec.ofNat 36 (leAt b (progInitOff b + 8 * w) 8)

/-- The variable table. -/
def progVars (b : Bytes) : List ProgVar :=
  (upTo (progNVars b)).map (fun i =>
    let o := progVarOff b + 16 * i
    ⟨leAt b o 8, leAt b (o + 8) 4, leAt b (o + 12) 2, byteAt b (o + 14), bitOf (byteAt b (o + 15)) 0⟩)

/-- The slots that a program writes. -/
def progWrites (b : Bytes) : List Nat :=
  ((progSlots b).filter (·.write)).flatMap (fun e => (upTo e.count).map (· + e.first))

/-- The slots that a program reads. -/
def progReads (b : Bytes) : List Nat :=
  ((progSlots b).filter (!·.write)).flatMap (fun e => (upTo e.count).map (· + e.first))

/-- Does a program write a slot? -/
def progWritesSlot (b : Bytes) (n : Nat) : Bool :=
  (progSlots b).any (fun e => e.write && e.first ≤ n && n < e.first + e.count)

end Sys2Proof.Machine
end

