-- ==== Sys2Proof/Machine/Image.lean ====
section
/-! DEFINITION. The signal image: slots, forces, writers, release latches and substitution (chapter 03). -/

namespace Sys2Proof.Machine

/-- The kind of a slot (R52). -/
def State.slotKind (s : State) (n : Nat) : Nat := s.act (F.SLOT_POL_0_kind n)

/-- A slot of the image below any force. -/
def State.cell (s : State) (n : Nat) : SlotCell := SMap.getD s.image.slots n SlotCell.coldCell

/-- The state with a slot of the image written. -/
def State.putCell (s : State) (n : Nat) (c : SlotCell) : State :=
  { s with image := { s.image with slots := SMap.set s.image.slots n SlotCell.coldCell c } }

/-- The capture boundary of a partner's join that this module serves (R296). -/
def State.capturing (s : State) : Option Nat := if s.isActive then s.ply.capture else none

/-- A slot goes into the capture store before its first write after b_c (R296). [log 56 DESIGN CHOICE] -/
def State.saveSlot (s : State) (n : Nat) : State :=
  if s.capturing.isNone || SMap.has s.ply.capSlots n then s
  else { s with ply := { s.ply with capSlots := SMap.put s.ply.capSlots n (s.cell n) } }

/-- The forces go into the capture store before their first change after b_c (R296). [log 56 DESIGN CHOICE] -/
def State.saveForces (s : State) : State :=
  if s.capturing.isNone || s.ply.capForces.isSome then s
  else { s with ply := { s.ply with capForces := some s.image.forces } }

/-- The state with a slot written after b_c, where a capture is under way. -/
def State.setCell (s : State) (n : Nat) (c : SlotCell) : State := (s.saveSlot n).putCell n c

/-- Words of an item about to be written after b_c: those not yet sent take their place in the capture store (R296). -/
def State.noteWords (s : State) (item : Nat) (ws : List Nat) : State :=
  let out := fun (w : Nat) => s.ply.capOut.any (fun e => e.1 == item && decide (e.2.1 ≤ w) && decide (w < e.2.1 + e.2.2))
  let new := ws.filter (fun w => !out w && !s.ply.capWords.contains (item, w))
  { s with ply := { s.ply with capWords := s.ply.capWords ++ new.map (fun w => (item, w)) } }

/-- A task goes into the capture store before its first commit of a sample at or after b_c, and takes room there by the
words that the commit writes (R296). [log 56 DESIGN CHOICE] -/
def State.saveTask (s : State) (sample t : Nat) (ws : List Nat) : State :=
  match s.capturing with
  | none => s
  | some b =>
    if sample < b then s
    else
    let s := s.noteWords t ws
    if SMap.has s.ply.capTasks t then s
    else { s with ply := { s.ply with capTasks := SMap.put s.ply.capTasks t (SMap.getD s.tasks.task t TaskSt.fresh) } }

/-- Words that a loop takes in a STATE frame. -/
def loopWords : Nat := 12

/-- A loop goes into the capture store, likewise. [log 56 DESIGN CHOICE] -/
def State.saveLoop (s : State) (sample l : Nat) : State :=
  match s.capturing with
  | none => s
  | some b =>
    if sample < b then s
    else
    let s := s.noteWords (0x100 + l / 64) ((upTo loopWords).map (· + l % 64 * loopWords))
    if SMap.has s.ply.capLoops l then s
    else { s with ply := { s.ply with capLoops := SMap.put s.ply.capLoops l (SMap.getD s.loops l LoopSt.fresh) } }

/-- The entry of a forced slot (R62): quality GOOD, FORCED set, the other bits 0. [log 30 DEDUCED] -/
def forcedEntry (v : Sample) : Entry := ⟨v, 4⟩

/-- An entry as it is seen through the forces (R62). [log 30 DEDUCED] -/
def State.overlay (s : State) (n : Nat) (e : Entry) : Entry :=
  match SMap.find s.image.forces n with
  | some v => forcedEntry v
  | none => e

/-- A slot as every snapshot sees it (R53, R62). -/
def State.slotNow (s : State) (n : Nat) : Entry := s.overlay n (s.cell n).entry

/-- The 32-bit container of an entry (R50). -/
def Entry.container (e : Entry) : Nat := e.value.toNat + 2 ^ 18 * e.tag.toNat

/-- A tag from its parts: quality, FORCED, CLAMPED, AGED, ERR (R49). -/
def mkTag (quality : Nat) (forced clamped aged err : Bool) : Tag :=
  BitVec.ofNat 6 (quality + 4 * bit forced + 8 * bit clamped + 16 * bit aged + 32 * bit err)

/-- The quality of a tag (R49). -/
def tagQuality (t : Tag) : Nat := t.toNat % 4
/-- Bit i of a tag. -/
def tagBit (t : Tag) (i : Nat) : Bool := bitOf t.toNat i

/-- Is a forced slot an input (kinds 1 and 2)? -/
def State.isInput (s : State) (n : Nat) : Bool := s.slotKind n == 1 || s.slotKind n == 2

/-! Slot-loss sources (R57): `image.loss` holds the slots that assert one. -/

/-- Slot-loss sources asserted now, as bits 0 to 7. -/
def State.lossBits (s : State) : Nat :=
  s.image.loss.foldl (fun a e => a ||| (1 <<< e.2)) 0

/-- Does an input slot under BRAKE lack its sample, with no force in its place, so that it asserts its slot-loss source
(R57, R62)? -/
def State.misses (s : State) (n : Nat) : Bool :=
  s.isInput n && s.act (F.SLOT_POL_0_policy n) == 2 && decide (0 < (s.cell n).age) && !SMap.has s.image.forces n

/-- Has the writer of a key changed, so that a commit of the new writer bars older samples (R158)? -/
def State.barKey (s : State) (key sample : Nat) : State :=
  match SMap.find s.image.writerSince key with
  | some b => if b ≤ sample then { s with image := { s.image with barred := SMap.put s.image.barred key b } } else s
  | none => s

/-- Is a writer key barred for a sample (R158): the writer changed and the new one has committed? -/
def State.isBarred (s : State) (key sample : Nat) : Bool := decide (sample < SMap.getD s.image.barred key 0)

/-- Store a sample that arrived for an input slot: value, quality and tag bits of its source; the age count
falls to 0 and the slot-loss source ends (R57), which the rows of the brake matrix follow at the next cut-off, commit or
force. [log 39 DEDUCED, 106 DESIGN CHOICE] -/
def State.takeInput (s : State) (n : Nat) (v : Sample) (quality : Nat) (clamped aged err : Bool) : State :=
  let s := (s.barKey n s.nowTurn).setCell n ⟨⟨v, mkTag quality false clamped aged err⟩, 0⟩
  { s with image := { s.image with loss := SMap.del s.image.loss n } }

/-- The slot's policy for a missing sample (R56, R57). A forced input asserts no slot-loss source (R62). -/
def State.substitute (s : State) (n : Nat) : State :=
  let c := s.cell n
  let age := min 255 (c.age + 1)
  let limit := s.act (F.SLOT_POL_0_age_limit n)
  let aged := limit != 0 && limit ≤ age
  let cl := tagBit c.entry.tag 3
  let er := tagBit c.entry.tag 5
  match s.act (F.SLOT_POL_0_policy n) with
  | 0 => s.setCell n ⟨⟨c.entry.value, mkTag 1 false cl aged er⟩, age⟩
  | 1 => s.setCell n ⟨⟨BitVec.ofNat 18 (s.act (F.SLOT_POL_SUBST_subst n)), mkTag 2 false false aged false⟩, age⟩
  | _ =>
    let s := s.setCell n ⟨⟨c.entry.value, mkTag 3 false cl aged er⟩, age⟩
    if SMap.has s.image.forces n then s
    else { s with image := { s.image with loss := SMap.put s.image.loss n (s.act (F.SLOT_POL_0_brake_src n)) } }

/-- The slot of a kind that names a station and a sample index, in a configuration (R70). -/
def slotAtIn (m : RegMap) (kind station index : Nat) : Option Nat :=
  (slotsIn m).find? (fun n => RegMap.get m (F.SLOT_POL_0_kind n) == kind &&
    RegMap.get m (F.SLOT_POL_SRC_peer n) == station && RegMap.get m (F.SLOT_POL_SRC_index n) == index)

/-- The same in force. -/
def State.slotAt (s : State) (kind station index : Nat) : Option Nat := slotAtIn s.hop.active kind station index

/-- The slots of a kind that name a station. -/
def State.slotsOf (s : State) (kind station : Nat) : List Nat :=
  s.slotList.filter (fun n => s.slotKind n == kind && s.act (F.SLOT_POL_SRC_peer n) == station)

/-! Writers (R16, R332). -/

/-- The single writer of a slot. -/
inductive Writer where
  | none | task (t : Nat) | loop (l : Nat) | station (n : Nat) | ring (pos : Nat) | host | mill (ch b : Nat)
  deriving DecidableEq, Repr

/-- The program that a task's settings name, among active or staged images. -/
def taskProgIn (m : RegMap) (progs : SMap Bytes) (t : Nat) : Option Bytes :=
  SMap.find progs (RegMap.get m (F.TASK_CTRL_program t))

/-- The active program of a task. -/
def State.taskProg (s : State) (t : Nat) : Option Bytes := taskProgIn s.hop.active s.progs.active t

/-- The enabled tasks of a configuration. -/
def tasksIn (m : RegMap) : List Nat := listedIdx m 0x4400 32 16 0

/-- The mill buffers that map to a slot (R375): channel × 64 + buffer. -/
def mapsIn (m : RegMap) : List (Nat × Nat) :=
  (upTo 128).filterMap (fun i =>
    let c := i / 64
    let b := i % 64
    if RegMap.get m (F.MB_BUF_CFG_map_en c b) = 1 ∧ RegMap.get m (F.MB_BUF_CFG_role c b) = 1 then some (RegMap.get m (F.MB_BUF_MAP_map_slot c b), i)
    else none)

/-- Is a loop one of an override pair: do its settings and those of the loop it names meet R189? -/
def pairIn (m : RegMap) (l : Nat) : Bool :=
  let get (f : Fld) : Nat := RegMap.get m f
  let o := get (F.LOOP_SP_pair_loop l)
  let ovr := get (F.LOOP_CTRL_ovr l)
  o != l && get (F.LOOP_SP_pair_loop o) == l && (ovr == 1 || ovr == 2) && get (F.LOOP_CTRL_ovr o) == ovr &&
    l % 128 == o % 128 && get (F.LOOP_CTRL_rate_n l) == get (F.LOOP_CTRL_rate_n o) &&
    get (F.LOOP_OUT_out_slot l) == get (F.LOOP_OUT_out_slot o) && get (F.LOOP_OUT_out_rate (max l o)) == 0

/-- The loop that counts as the writer of a loop's output slot: the head of its pair, where that is enabled (R16, R171,
R189). -/
def headIn (m : RegMap) (l : Nat) : Nat :=
  let a := min l (RegMap.get m (F.LOOP_SP_pair_loop l))
  if pairIn m l && RegMap.get m (F.LOOP_CTRL_enable a) == 1 then a else l

/-- Every writer of an output slot in a configuration; a pair counts as its head (R16, R189). -/
def writersIn (m : RegMap) (progs : SMap Bytes) (n : Nat) : List Writer :=
  let ls := (loopsIn m).filter (fun l => RegMap.get m (F.LOOP_OUT_out_slot l) == n)
  let heads := (ls.map (headIn m)).eraseDups
  let ts := (tasksIn m).filter (fun t =>
    match taskProgIn m progs t with
    | some b => progWritesSlot b n
    | none => false)
  let ms := (mapsIn m).filter (fun e => e.1 == n)
  ts.map Writer.task ++ heads.map Writer.loop ++ ms.map (fun e => Writer.mill (e.2 / 64) (e.2 % 64))

/-- The writer of a slot in a configuration (R52, R332). -/
def writerIn (m : RegMap) (progs : SMap Bytes) (n : Nat) : Writer :=
  match RegMap.get m (F.SLOT_POL_0_kind n) with
  | 1 => .station (RegMap.get m (F.SLOT_POL_SRC_peer n))
  | 2 => .ring (RegMap.get m (F.SLOT_POL_SRC_peer n) % 16)
  | 3 => .host
  | 0 => .none
  | _ => ((writersIn m progs n).head?).getD .none

/-- The writer of a slot now. -/
def State.writer (s : State) (n : Nat) : Writer := writerIn s.hop.active s.progs.active n

/-- Does a task that has not come to its switch still write a slot with its old program (R157)? -/
def State.oldWriter (s : State) (n : Nat) : Bool :=
  s.tasks.task.any (fun e => match e.2.switchAt, e.2.oldProg with
    | some b, some old => decide (s.turn.k < b) && progWritesSlot old n
    | _, _ => false)

/-- Has a forced output slot no writer (R66, R166): none in the settings from the old writer's switch on, or a new one that
has not committed yet? -/
def State.orphaned (s : State) (n : Nat) : Bool :=
  !s.oldWriter n && (s.writer n == .none ||
    (s.image.moved.contains n && SMap.find s.image.barred n != SMap.find s.image.writerSince n))

/-! Release latches (R14, R35). -/

/-- What a release carries for an output slot, below forces: its latch, or the image where nothing has been
released into one (R113). -/
def State.latch (s : State) (n : Nat) : Latch := (SMap.find s.turn.latches n).getD ⟨(s.cell n).entry, 0⟩

/-- The safe value of a slot (R59). [log 30 DEDUCED] -/
def State.safe (s : State) (n : Nat) : Sample := BitVec.ofNat 18 (s.act (F.SLOT_POL_SAFE_safe n))

/-- A loop. -/
def State.loop (s : State) (l : Nat) : LoopSt := SMap.getD s.loops l LoopSt.fresh

/-- Is an output slot braked since STOP: has its writer released no sample at or after the boundary that left STOP
(R125)? -/
def State.heldSlot (s : State) (n : Nat) : Bool :=
  match s.tasks.leftStop, s.writer n with
  | some _, .none => false
  | some b, _ => decide ((s.latch n).sample < b)
  | none, _ => false

/-- The entry of an output slot as the release carries it: braked since STOP (R125, R17), else the force, else the
value that a takeover resumed (R209), else the latch. [log 30 DEDUCED] -/
def State.releaseEntry (s : State) (n : Nat) : Entry :=
  let l := s.latch n
  if s.heldSlot n then ⟨s.safe n, l.entry.tag⟩
  else s.overlay n (match s.writer n with
    | .loop k => (match (s.loop k).resumed with
      | some r => ⟨sampleOf r.1, 0⟩
      | none => l.entry)
    | _ => l.entry)

/-- The samples of a station's output frame in a configuration: one per index, from the entry a function gives its slot.
[log 14 DESIGN CHOICE] -/
def outSamplesIn (m : RegMap) (station : Nat) (value : Nat → Sample) : List Sample :=
  (upTo (RegMap.get m (F.STATION_MAP_0_out_samples station))).map (fun i =>
    match slotAtIn m 4 station i with
    | some n => value n
    | none => Config.unmappedSample station i)

/-- The OUTPUT payload of a station at a release, by the settings of its sample (R31, R35, R80).
[log 14 DESIGN CHOICE] -/
def State.outPayloadIn (s : State) (m : RegMap) (station : Nat) : Bytes :=
  packSamples (outSamplesIn m station (fun n => (s.releaseEntry n).value))

/-- The precomposed BRAKE payloads of every present station (R300). -/
def State.rebuildPayloads (s : State) : State :=
  { s with brake := { s.brake with
      payloads := SMap.puts [] (s.stations.map (fun n => (n, packSamples (outSamplesIn s.hop.active n s.safe)))) } }

/-- The frame period of a station (R82). -/
def State.stationP (s : State) (n : Nat) : Nat := 2 ^ s.act (F.STATION_MAP_0_rate_n n)
/-- The period of a task (R103). -/
def State.taskP (s : State) (t : Nat) : Nat := 2 ^ s.act (F.TASK_CTRL_rate_n t)
/-- The period of a loop (R171). -/
def State.loopP (s : State) (l : Nat) : Nat := 2 ^ s.act (F.LOOP_CTRL_rate_n l)

end Sys2Proof.Machine
end

