-- ==== Sys2Proof/Machine/Record.lean ====
section
/-! DEFINITION. The recorder's snapshot and its queue (R415 to R420), and the three triggers that record at
once (R413, R417). -/

namespace Sys2Proof.Machine

/-- The calendar offset of a working second: the leap table in force, else UTC_OFFSET (R264). -/
def State.utcOff (s : State) (w : Nat) : Int :=
  (s.time.leap.filter (fun e => e.1 ≤ w)).foldl (fun _ e => e.2) (sextNat 32 (s.rd F.UTC_OFFSET_off))

/-- The value of a trace or recorder node of a loop (R210). -/
def LoopNodes.node (n : LoopNodes) (i : Nat) : Int :=
  match i with
  | 0 => (n.status : Int)
  | 1 => n.r
  | 2 => n.target
  | 3 => n.y
  | 4 => n.u
  | 5 => n.i
  | 6 => n.uRaw
  | 7 => n.t
  | 8 => n.eb
  | 9 => n.ei
  | 10 => n.dy
  | 11 => n.d
  | 12 => n.p
  | 13 => n.f
  | 14 => n.v
  | _ => n.uf

/-- The nodes of a loop as of its latest wheel deadline. -/
def State.loopShown (s : State) (l : Nat) : LoopNodes := ((s.loop l).shown).getD LoopNodes.none

/-- A record entry (R420). -/
def recEntryBytes (e : Nat) (v : Int) (flags : Nat) : Bytes :=
  leBytes 4 e ++ leBytes 8 (toBits 64 v) ++ leBytes 1 flags ++ [0, 0, 0]

/-- The 16 bytes of a list entry and whether it is valid (R417, R420). -/
def State.recEntry (s : State) (e : Nat) : Bytes × Bool :=
  match e / 2 ^ 30 with
  | 1 =>
    let off := e % 2 ^ 20
    let on := s.pd (blockPd off)
    (recEntryBytes e (if on then ((if isHighWord off then SMap.getD s.caps off 0 else s.ownWord off : Nat) : Int)
      else 0) (128 * bit on), on)
  | 2 =>
    let on := s.pd .bins
    let x := s.slotNow (e % 2 ^ 18)
    (if on then recEntryBytes e x.value.toInt (128 + x.tag.toNat) else recEntryBytes e 0 0, on)
  | _ =>
    let on := s.pd .wheel
    let x := s.loopShown (e % 4096)
    (if on then recEntryBytes e (x.node (e / 4096 % 16)) (128 + bit (bitOf x.status 9) + 2 * bit (bitOf x.status 15))
      else recEntryBytes e 0 0, on)

/-- The entries of a snapshot list up to its end (R415). -/
def State.recList (s : State) (l : Nat) : List Nat :=
  ((upTo 59).map (fun e => s.act (F.REC_LIST_entry l e))).takeWhile (fun e => e / 2 ^ 30 != 0)

/-- Bytes 0 to 1,007 of a record (R419), without its index and the previous record's seal. -/
def State.recBody (s : State) (r : RecRaise) (turn : Nat) : Bytes :=
  let n := r.trigger
  let listed := s.aon (F.REC_TRIG_list_en n)
  let es := if listed then (s.recList (s.act (F.REC_TRIG_list n))).map s.recEntry else []
  let calOk := s.rd F.TIME_STATUS_work == 1 || s.rd F.TIME_STATUS_work == 2
  let w := s.workSec
  let leap := calOk && s.utcOff w == s.utcOff (w - 1) - 1
  let src := if 56 ≤ n then 0xFF else r.source
  let flags := bit (56 ≤ n && n ≤ 58) + 2 * bit calOk + 4 * bit leap + 8 * bit (es.any (fun e => !e.2))
  let held := SMap.getD s.recorder.heldOff n 0
  let body := es.flatMap (·.1)
  leBytes 1 1 ++ leBytes 1 n ++ leBytes 1 (if listed then s.act (F.REC_TRIG_list n) else 0xFF) ++
    leBytes 1 es.length ++ leBytes 4 0 ++ leBytes 8 turn ++ leBytes 8 (r.work / 2 ^ 64) ++
    leBytes 4 (bitsOf r.work 61 32) ++ leBytes 1 (bitsOf r.work 31 24) ++ leBytes 1 flags ++
    leBytes 1 s.plyState ++ leBytes 1 s.key ++
    leBytes 8 (if calOk then toBits 64 ((w : Int) + s.utcOff w) else 0) ++ leBytes 1 src ++ [0, 0, 0] ++
    leBytes 4 (if 56 ≤ n then 0 else r.a) ++ leBytes 4 (if 56 ≤ n then 0 else r.b) ++ leBytes 4 0 ++
    leBytes 4 (min held 0xFFFFFFFF) ++ leBytes 4 0 ++ body ++ List.replicate (944 - body.length) 0

/-- Queue a record (R418): the last-gasp records go to the head and displace the newest ordinary ones; an
ordinary record that finds 16 queued, or the log full, is lost (R422). -/
def State.queueRecord (s : State) (e : RecEntry) : State :=
  let gasp := 56 ≤ e.trigger && e.trigger ≤ 58
  let q := s.recorder.queue
  let isGasp := fun (x : RecEntry) => 56 ≤ x.trigger && x.trigger ≤ 58
  let lose := fun (s : State) => (s.inc F.REC_LOST_count).recEvt 1
  let r :=
    if gasp then
      let q' := q.filter isGasp ++ [e] ++ q.filter (fun x => !isGasp x)
      if 16 < q'.length then (q'.take 16, true) else (q', false)
    else if s.on F.REC_STATUS_full || 16 ≤ q.length then (q, true)
    else (q ++ [e], false)
  let s := { s with recorder := { s.recorder with queue := r.1 } }
  let s := s.wr F.REC_STATUS_queued r.1.length
  if r.2 then lose s else s

/-- Take the snapshot of a raise and queue its record (R417, R418). -/
def State.takeRecord (s : State) (r : RecRaise) (turn : Nat) : State :=
  let body := s.recBody r turn
  let s := { s with recorder := { s.recorder with heldOff := SMap.del s.recorder.heldOff r.trigger } }
  s.queueRecord ⟨r.trigger, body⟩

/-- Fire one of triggers 56 to 58, whose snapshot is taken at once (R417). -/
def State.fireGasp (s : State) (n : Nat) : State :=
  let before := s.recorder.raised.length
  let s := s.fireTrigger n 0xFF 0 0
  match s.recorder.raised.drop before with
  | [] => s
  | r :: _ =>
    let s := { s with recorder := { s.recorder with raised := s.recorder.raised.take before } }
    s.takeRecord r r.turn

end Sys2Proof.Machine
end

