-- ==== Sys2Proof/Machine/BrakeOps.lean ====
section
/-! DEFINITION. The brake matrix, the BRAKE frames it sends and the stamps it keeps (chapter 13). -/

namespace Sys2Proof.Machine

/-- Rows effective now (R304). -/
def State.effRows (s : State) : Nat := s.rd F.BRK_SRC_RAW_raw ||| s.brake.latched

/-- Is row r effective? -/
def State.rowEff (s : State) (r : Nat) : Bool := bitOf s.effRows r

/-- May row r latch (R304)? Row 18 is always latched. -/
def State.rowLatches (s : State) (r : Nat) : Bool :=
  r == 18 || ((r < 16 || (20 ≤ r && r < 24)) && s.aon (F.BRK_ROW_OUT_latch r))

/-- The ports that row r brakes (R303): all for rows 16 to 19, none for rows 24 to 31. -/
def State.rowPorts (s : State) (r : Nat) : Nat :=
  if 16 ≤ r ∧ r ≤ 19 then 0xFFFF else if 24 ≤ r then 0 else s.act (F.BRK_ROW_PORT_port_mask r)

/-- The union of a mask over the effective rows. -/
def State.rowUnion (s : State) (mask : Nat → Nat) : Nat :=
  (bitsSet 26 s.effRows).foldl (fun a r => a ||| mask r) 0

/-- The outputs at brake (R302, R305, R441). [log 82 DEDUCED] -/
def State.boNow (s : State) : Nat :=
  if s.brake.starting || s.fw.recovery then 0xFF else s.rowUnion (fun r => s.act (F.BRK_ROW_OUT_bo_mask r))

/-- The Skein ports braked (R305). -/
def State.portsNow (s : State) : Nat := s.rowUnion s.rowPorts

/-- Is port p braked? -/
def State.portBraked (s : State) (p : Nat) : Bool := bitOf (s.rd F.BRK_STATE_port) p

/-- How this module's frames for a station go out, if at all: shadow, proxy (R276, R310). None: it launches no
OUTPUT or BRAKE frame for it. [log 15 DEDUCED] -/
def State.sendsAs (s : State) (station : Nat) : Option (Bool × Bool) :=
  let tripped := s.on F.TURN_WDOG_tripped
  match s.plyState with
  | 1 => some (false, false)
  | 2 => some (false, false)
  | 4 => if tripped then none else if s.skein.proxy.contains station then some (false, true) else some (true, false)
  | 5 => if tripped then none else some (true, false)
  | 3 => if s.rd F.PLY_JOIN_phase == 6 && !tripped then some (true, false) else none
  | _ => none

/-- How this module's BRAKE frames for a station go out: as its frames do, and an abdicated module's with shadow
clear while row 18 or 19 is effective (R276, R307, R310). [log 15 DEDUCED] -/
def State.brakesAs (s : State) (station : Nat) : Option Bool :=
  if s.plyState == 6 then (if s.rowEff 18 || s.rowEff 19 then some false else none)
  else (s.sendsAs station).map (·.1)

/-- Send one BRAKE frame for a station with the payload precomposed for it (R300). [log 33 DEDUCED] -/
def State.sendBrake (s : State) (station : Nat) : State :=
  match s.brakesAs station with
  | none => s
  | some shadow =>
    s.launchSkein 3 station (bit shadow) s.epoch s.turn.k 0xFFFFFFFF 0 (SMap.getD s.brake.payloads station [])

/-- The present stations of a port, nearest to this module's end first (R72, R307). [log 33 DEDUCED] -/
def State.nearFirst (s : State) (p : Nat) : List Nat :=
  if s.on F.PLY_STATUS_ply_pos then (s.portStations p).reverse else s.portStations p

/-- BRAKE frames for every present station of a port (R307). [log 33 DEDUCED] -/
def State.sendBrakes (s : State) (p : Nat) : State := (s.nearFirst p).foldl State.sendBrake s

/-- A port becomes braked: what it is sending ends, and its stations get BRAKE frames (R307). [log 33 DEDUCED] -/
def State.brakePort (s : State) (p : Nat) : State := (s.endSending p).sendBrakes p

/-- Take the matrix's outputs again: BO levels, braked ports, and the BRAKE frames of a port that has become
braked (R305, R307). The first release instant ends a port's braking (R309). [log 16 DEDUCED] -/
def State.evalMatrix (s : State) : State :=
  let was := s.rd F.BRK_SRC_EFF_eff
  let eff := s.effRows
  let s := s.wr F.BRK_SRC_EFF_eff eff
  let oldPorts := s.rd F.BRK_STATE_port
  let s := s.wr F.BRK_STATE_bo s.boNow
  let s := s.wr F.BRK_STATE_port s.portsNow
  let s := (bitsSet 16 (clearBits s.portsNow oldPorts)).foldl State.brakePort s
  let s : State := { s with brake := { s.brake with held := s.brake.held ||| s.portsNow } }
  let s := if (was ^^^ eff) % 256 = 0 then s else { s with brake := { s.brake with biChange := some s.workNs } }
  if clearBits was eff = 0 then s else s.brkEvt 1

/-- Write the time word of a stamp into four word registers. -/
def State.stampWords (s : State) (f : Nat → Fld) (w : Nat) : State :=
  (upTo 4).foldl (fun s i => s.wr (f i) (w >>> (32 * i) % 2 ^ 32)) s

/-- Keep the stamp of an assertion of row r (R316), working time at the first tick after it: in BRK_LAST, and in
BRK_FIRST if that holds none. [log 101 DEDUCED] -/
def State.stampRow (s : State) (r : Nat) : State :=
  let s := s.inc (F.BRK_COUNT_count r)
  if !s.pd .time then s
  else
    let w := (timeTick s).workWord
    let s := if s.on F.BRK_FIRST_valid then s
      else ((s.wr F.BRK_FIRST_row r).wr F.BRK_FIRST_valid 1).stampWords F.BRK_FIRST_TIME_word w
    ((s.wr F.BRK_LAST_row r).wr F.BRK_LAST_valid 1).stampWords F.BRK_LAST_TIME_word w

/-- Note, for the trace groups, that a source was first asserted after their arm (R216 kind 7): from the boundary at which
it was, which a soft source always is (R312), or from the next one. -/
def State.traceBrake (s : State) (r : Nat) : State :=
  let atBoundary := (decide (20 ≤ r) && decide (r < 24)) || decide (s.time.work ≤ s.boundaryU s.turn.k)
  let k := if atBoundary then s.turn.k else s.turn.k + 1
  { s with trace := { s.trace with
      group := s.trace.group.map (fun e =>
        (e.1, if e.2.brakeAt.isNone then { e.2 with brakeAt := some k } else e.2)) } }

/-- Set or release the source of row r, and evaluate the matrix (R303, R304, R316). [log 16 DEDUCED] -/
def State.setRow (s : State) (r : Nat) (b : Bool) : State :=
  let raw := s.rd F.BRK_SRC_RAW_raw
  if bitOf raw r == b then s
  else
    let s := s.wr F.BRK_SRC_RAW_raw (setBit raw r b)
    if b then
      let s := s.stampRow r
      let s := if s.rowLatches r then { s with brake := { s.brake with latched := setBit s.brake.latched r true } }
        else s
      let s := s.traceBrake r
      let s := (s.evalMatrix).brkEvt 0
      if r = 24 then s.brkEvt 2 else s
    else s.evalMatrix

/-- Rows 8 to 15 as the image's slot-loss sources stand (R56, R57). -/
def State.lossRows (s : State) : State :=
  (upTo 8).foldl (fun s i => s.setRow (8 + i) (bitOf s.lossBits i)) s

/-- Row 19 as R303 gives it: ABDICATED, with the partner neither in STANDBY nor active by its token and its latest HEALTH, or the epoch limit.
[log 16 DEDUCED] -/
def State.row19 (s : State) : State :=
  s.setRow 19 (s.brake.epochLimit || (s.plyState == 6 && !s.partnerStandby && !s.partnerLeads && s.rd F.PLY_STATUS_tok_in != 2))

end Sys2Proof.Machine
end

