-- ==== Sys2Proof/Machine/HostOps.lean ====
section
/-! DEFINITION. What the module writes into host memory: completions, trace entries and read data (R325 to R327,
R340), and the fate of commands when the module stops being active (R329). -/

namespace Sys2Proof.Machine

/-- Operand byte i of a descriptor (R326), i from 24 to 63. -/
def opByte (c : HostCmd) (i : Nat) : Nat := byteAt c.desc.ops (i - 24)
/-- A little-endian operand field of a descriptor. -/
def opAt (c : HostCmd) (i len : Nat) : Nat := leAt c.desc.ops (i - 24) len

/-- Raise a DMA error: a bit of HOST_ERR and event source 6 (R337, R343). -/
def State.dmaError (s : State) (i ring : Nat) : State :=
  let s := s.wr F.HOST_ERR_err (setBit (s.rd F.HOST_ERR_err) i true)
  s.raiseSource 6 (s.rd F.HOST_ERR_err) ring

/-- Size of completion ring r. -/
def State.cplSize (s : State) (r : Nat) : Nat := 2 ^ s.rd (F.HRING_CTRL_cpl_log2 r)

/-- Unconsumed completions of ring r, those that R321 holds back among them: each has its place in the ring (R327). -/
def State.cplHeld (s : State) (r : Nat) : Nat :=
  SMap.getD s.host.written r 0 - SMap.getD s.host.cplCi r 0 + (s.host.waiting.filter (fun e => e.ring == r)).length

/-- Does completion ring r take no completion: disabled, or stopped in error (R324)? -/
def State.cplStopped (s : State) (r : Nat) : Bool := !s.on (F.HRING_CTRL_enable r) || s.on (F.HRING_STATUS_error r)

/-- Write a completion into its ring (R327), unless the ring is stopped (R324) or the DMA unit refuses it (R404). -/
def State.writeCpl (s : State) (c : Completion) : State :=
  let r := c.ring
  if s.cplStopped r then s
  else
  let n := SMap.getD s.host.written r 0
  let size := s.cplSize r
  let base := s.hostAddr (0x2048 + 32 * r)
  let addr := base + n % size * 32
  match s.acAccess 3 1 3 addr 32 with
  | (s, false) => s.dmaError 3 r
  | (s, true) =>
  let s := s.emit (.host addr
    (leBytes 4 c.tag ++ leBytes 2 c.op ++ leBytes 2 c.status ++ leBytes 4 (SMap.getD s.host.consumed r 0) ++
      leBytes 1 r ++ [0] ++ leBytes 2 c.detail ++ leBytes 8 c.result0 ++ leBytes 4 c.result1 ++ [0, 0, 0] ++
      leBytes 1 (bit ((n / size) % 2 == 0))))
  let s := { s with host := { s.host with written := SMap.put s.host.written r (n + 1) } }
  let s := s.wrb (F.HRING_STATUS_blocked r) (size ≤ s.cplHeld r)
  if c.irq || c.status != 0 then s.raiseSource r 0 0 else s

/-- Complete a command (R326, R327): quiet suppresses an OK completion, a ring not enabled or in error discards it
(R324), a lost link makes the write fail (R341), and a stopped engine holds it back (R321). -/
def State.complete (s : State) (c : HostCmd) (status detail r0 r1 : Nat) : State :=
  let r := c.ring.val
  let f := c.desc.flags.toNat
  if (bitOf f 1 && status == 0) || s.cplStopped r then s
  else
    let e : Completion := ⟨r, c.desc.tag.toNat, c.desc.op.toNat, status, detail, r0, r1, bitOf f 2⟩
    if s.host.linkDown then s.dmaError 3 r
    else if !s.dmaOk then
      let s : State := { s with host := { s.host with waiting := s.host.waiting ++ [e] } }
      s.wrb (F.HRING_STATUS_blocked r) (decide (s.cplSize r ≤ s.cplHeld r))
    else s.writeCpl e

/-- Is a miller command of ring r outstanding? -/
def State.millerBusy (s : State) (r : Nat) : Bool := s.host.outstanding.any (fun m => m.cmd.ring.val == r)

/-- HRING_STATUS.miller_busy of every ring as the outstanding commands stand (R343). -/
def State.busyBits (s : State) : State :=
  (upTo 4).foldl (fun s r => s.wrb (F.HRING_STATUS_miller_busy r) (s.millerBusy r)) s

/-- A miller command that waits: outstanding with its opcode and, where it has them, its boundary and its order. -/
def State.holdCmd (s : State) (c : HostCmd) (op : Nat) (b order : Option Nat) : State :=
  let m : MillerCmd := ⟨c, op, b, order, false, false⟩
  let s : State := { s with host := { s.host with outstanding := s.host.outstanding ++ [m] } }
  s.busyBits

/-- The miller completes every outstanding command that a test picks, and forgets it; while the miller is down they stay
outstanding (R24, R440). -/
def State.finish (s : State) (p : MillerCmd → Bool) (status detail r0 r1 : Nat) : State :=
  if !s.host.millerUp then s
  else
  let done := s.host.outstanding.filter p
  let s : State := { s with host := { s.host with outstanding := s.host.outstanding.filter (fun m => !p m) } }
  let s := s.busyBits
  done.foldl (fun s m => if m.lost then s else s.complete m.cmd status detail r0 r1) s

/-- The commands that change behaviour (R329). -/
def changesBehaviour (op : Nat) : Bool :=
  [0x11, 0x21, 0x30, 0x31, 0x40, 0x41, 0x42, 0x43, 0x44, 0x50, 0x70, 0x71, 0x72, 0x73, 0x80].contains op

/-- HOPPER_STATUS.state (R358): armed, else checking, else writing MRAM, else idle. -/
def State.hopState (s : State) : State :=
  s.wr F.HOPPER_STATUS_state (if s.hop.armed.isSome then 2 else if s.hop.testing.isSome then 1
    else if s.hop.writing then 3 else 0)

/-- The armed commit is gone (R352, R356): its result, and the reason of R169 where it was a program commit, are shown
where it was abandoned. [log 75 DEDUCED] -/
def State.dropArmed (s : State) (shown : Option (Nat × Nat)) : State :=
  if s.hop.armed.isNone then s
  else
    let s : State := { s with hop := { s.hop with armed := none, partial_ := [] } }
    let program := s.rd F.ONLINE_STATUS_state == 1
    let s := if program then s.wr F.ONLINE_STATUS_state 0 else s
    match shown with
    | none => s.hopState
    | some (result, reason) =>
      let s := s.wr F.HOPPER_STATUS_last_result result
      let s := if program then (s.wr F.ONLINE_STATUS_last_abandoned 1).wr F.ONLINE_STATUS_reason reason else s
      s.hopState

/-- The commands whose orders the partner has acknowledged complete OK (R329). -/
def State.finishAcked (s : State) : State :=
  let acked := s.host.outstanding.filter (fun m => m.acked)
  acked.foldl (fun s m => s.finish (fun x => x == m) 0 0 (m.boundary.getD 0) 0) s

/-- Does an order of this module stay in force when the module stops being active (R329): acknowledged, and not that of a
command that a lone module still holds? -/
def State.orderStays (s : State) (o : Order) : Bool :=
  !o.mine || (o.acked && !s.host.outstanding.any (fun m => m.order == some o.seq && !m.acked))

/-- The module stops being active (R329): a command whose order the partner has acknowledged completes OK, any
other completes with NOT_ACTIVE and has no effect. -/
def State.stopCommands (s : State) : State :=
  let kept := s.host.outstanding.any (fun m => m.acked && m.op == 0x43) || s.hop.armed.any (fun a => !a.mine)
  let orders := s.ply.orders.filter s.orderStays
  let s := s.finishAcked.finish (fun m => changesBehaviour m.op) 8 0 0 0
  let s := if kept then s else s.dropArmed (some (6, 0))
  let s : State := { s with hop := { s.hop with testing := none }, ply := { s.ply with orders := orders } }
  s.hopState

/-- Size of trace ring i. -/
def State.trcSize (s : State) (i : Nat) : Nat := 2 ^ s.rd (F.TRR_CTRL_size_log2 i)

/-- May an entry be written to trace ring i now: enabled, engine not stopped, room (R321, R340)? -/
def State.trcRoom (s : State) (i : Nat) : Bool :=
  s.on (F.TRR_CTRL_enable i) && s.dmaOk && !bitOf s.host.trcError i &&
    decide (SMap.getD s.host.trcWritten i 0 - SMap.getD s.host.trcCi i 0 < s.trcSize i)

/-- Write an entry to trace ring i (R340), unless the DMA unit refuses it (R404): `head` is header bytes 0 to 3,
`rest` bytes 8 to 62. -/
def State.writeTrc (s : State) (i : Nat) (head rest data : Bytes) : State :=
  let n := SMap.getD s.host.trcWritten i 0
  let size := s.trcSize i
  let base := s.hostAddr (0x2100 + 16 * i)
  let addr := base + n % size * 576
  match s.acAccess 3 1 5 addr 576 with
  | (s, false) => s.dmaError 5 (16 + i)
  | (s, true) =>
  let s := s.emit (.host addr
    (head ++ leBytes 4 (n + 1) ++ rest ++ leBytes 1 (bit ((n / size) % 2 == 0)) ++ data))
  let s := { s with host := { s.host with trcWritten := SMap.put s.host.trcWritten i (n + 1) } }
  s.raiseSource 5 0 0

end Sys2Proof.Machine
end

