-- ==== Sys2Proof/Machine/PlyOps.lean ====
section
/-! DEFINITION. The ply's shared operations: roles, abdication, leaving tracking, orders and takeover (chapter
12). -/

namespace Sys2Proof.Machine

/-- Mute or unmute the mill-bus transmitters (R22, R386). -/
def State.setMuted (s : State) (b : Bool) : State :=
  ((s.wrb F.PLY_STATUS_muted b).wrb (F.MB_STATUS_muted 0) b).wrb (F.MB_STATUS_muted 1) b

/-- Change the ply state (R277): role event, and what only a standby holds; one that leaves STANDBY other than by
taking over drops the commit it holds (R352). -/
def State.setPlyState (s : State) (n : Nat) : State :=
  if s.plyState == n then s
  else
    let stays := n == 1 || n == 2
    let s := if s.plyState == 4 && !stays then s.dropArmed none else s
    let s := (s.wr F.PLY_STATUS_state n).plyEvt 0
    let s : State := if n = 4 then { s with ply := { s.ply with trackSince := some s.workSec, silentTest := false } }
      else
        let s : State := { s with ply := { s.ply with trackSince := none },
                                  skein := { s.skein with proxy := [], proxyFrom := [] } }
        (upTo 16).foldl (fun s p => s.wr (F.SK_STATUS_proxy p) 0) s
    s.row19

/-- The active module, or a lone one, abdicates (R274, R285, R413): lines low, watchdog disarmed, mill bus muted,
commands ended as R329 gives, trigger 58. -/
def State.abdicate (s : State) (cause : Nat) : State :=
  if !s.isActive then s
  else
    let s := s.wr F.PLY_REASON_abdication cause
    let s := s.wr F.PLY_STATUS_abd_out 1
    let s := s.wr F.TURN_WDOG_armed 0
    let s : State := { s with ply := { s.ply with tokOut := false } }
    let s := s.setMuted true
    let s := s.stopCommands
    let s := s.setPlyState 6
    s.fireGasp 58

/-- A standby leaves tracking with a reason (R281). [log 96 DEDUCED] -/
def State.leaveTracking (s : State) (reason : Nat) : State :=
  if !s.isStandby then s
  else
    let s := s.wr F.PLY_REASON_untracked reason
    let s := s.wr F.PLY_STATUS_diverged 0
    let s : State := { s with ply := { s.ply with diverged := [], matchRun := 0, noDigest := 0 } }
    (s.setPlyState 5).plyEvt 3

/-- FAULT_RECORD and FAULT_TURN take a fault (R47, R48). -/
def State.recordFault (s : State) (kind cls unit : Nat) : State :=
  let s : State := { s with turn := { s.turn with faultTick := some s.time.ticks } }
  ((((s.wr F.FAULT_RECORD_kind kind).wr F.FAULT_RECORD_unit_class cls).wr F.FAULT_RECORD_unit unit).wr
    F.FAULT_TURN_LO_fault_turn (s.turn.k % 2 ^ 32)).wr F.FAULT_TURN_HI_fault_turn (s.turn.k >>> 32)

/-- Is a fault the first, or of the same step as the one recorded and of a higher rank: residue, then wedge, then
wheel-group double slip, which is the order of their codes (R46, R47)? [log 102 DEDUCED] -/
def State.faultFirst (s : State) (kind : Nat) : Bool :=
  let held := s.rd F.FAULT_RECORD_kind
  held == 0 || (s.turn.faultTick == some s.time.ticks && decide (kind < held))

/-- A self-diagnosed fault (R44 to R46, R48): the first is recorded; the active abdicates with cause 1, a standby
leaves tracking with reason 9. [log 36 DEDUCED] -/
def State.selfFault (s : State) (kind cls unit : Nat) : State :=
  let s := if s.faultFirst kind then s.recordFault kind cls unit else s
  if s.isActive then s.abdicate 1 else s.leaveTracking 9

/-- The code of a unit class in FAULT_RECORD (R47). -/
def unitCode : UnitClass → Nat
  | .wheel => 0
  | .spindle => 1
  | .other => 2

/-- The greatest authority epoch (R279). -/
def epochMax : Nat := 0xFFFFFFF

/-- Raise the epoch by 1; past the limit nothing changes and the outputs are braked (R279). -/
def State.raiseEpoch (s : State) : State × Bool :=
  if epochMax ≤ s.epoch then
    let s : State := { s with brake := { s.brake with epochLimit := true } }
    (s.row19, false)
  else (s.wr F.PLY_EPOCH_epoch (s.epoch + 1), true)

/-- The home module that met an equal epoch raises its own from its next release on (R292). -/
def State.raiseEqual (s : State) : State :=
  if !s.ply.raiseNext then s
  else
    let s : State := { s with ply := { s.ply with raiseNext := false } }
    if s.isActive then s.raiseEpoch.1 else s

/-- Send an order and remember it (R272, R512). -/
def State.sendOrder (s : State) (code boundary digest : Nat) (content : OrderContent) : State :=
  let seq := s.ply.nextSeq
  let alive := SMap.getD s.ply.txAlive 0x48 0
  let o : Order := ⟨true, code, seq, boundary, content, false⟩
  let s : State := { s with ply := { s.ply with
    nextSeq := (seq + 1) % 65536
    orders := s.ply.orders ++ [o] } }
  if !s.plyUp then s
  else
    let s : State := { s with ply := { s.ply with
      txAlive := SMap.set s.ply.txAlive 0x48 0 ((alive + 1) % 65536) } }
    s.emit (.order alive code seq boundary digest content)

/-- Words of 8 bytes that the capture store of 4 MiB holds (R296). [log 56 DESIGN CHOICE] -/
def captureWords : Nat := 524288

/-- A capture store that has filled: the capture starts again at a new boundary (R296). -/
def State.captureFull (s : State) : State :=
  let slots := if s.ply.capSent then 0 else s.ply.capSlots.length
  if s.capturing.isNone || decide (s.ply.capWords.length + slots ≤ captureWords) then s
  else
    let s : State := { s with ply := { s.ply with
      capture := none, capTasks := [], capLoops := [], capSlots := [], capForces := none, capSent := false,
      capWords := [], capOut := [] } }
    s.sendOrder 8 s.orderBoundary 0 .capture

/-- Send an ACK of an order (R272). -/
def State.sendAck (s : State) (code seq : Nat) (refused : Bool) : State :=
  s.sendPly 0x49 s.turn.k (beBytes 2 code ++ beBytes 2 seq ++ beBytes 1 (bit refused))

/-- Mirror host writes to the partner with their boundary (R68). -/
def State.mirror (s : State) (b : Nat) (ws : List HostWrite) : State :=
  if !s.plyUp then s
  else
    let alive := SMap.getD s.ply.txAlive 0x47 0
    let s : State := { s with ply := { s.ply with
      txAlive := SMap.set s.ply.txAlive 0x47 0 ((alive + 1) % 65536) } }
    s.emit (.hostWrite alive b ws)

/-- The ring position of the module, from its straps (R220). -/
def State.position (s : State) : Nat := s.rd F.RING_POSITION_position

/-- Queue the mill-bus heartbeat (R287): identifier id_base + position, epoch and turn number. -/
def State.queueHeartbeat (s : State) : State :=
  if !s.aon F.PLY_MILL_HB_mill_hb_en then s
  else
    let ch := s.act F.PLY_MILL_HB_mill_hb_chan
    let c := SMap.getD s.mill ch MillChan.idle
    let c : MillChan := { c with heartbeat := some (beBytes 4 s.epoch ++ beBytes 4 (s.turn.k % 2 ^ 32)) }
    { s with mill := SMap.put s.mill ch c }

/-- Is loop l the head of its pair, or unpaired (R189)? -/
def State.isHead (s : State) (l : Nat) : Bool :=
  s.act (F.LOOP_CTRL_ovr l) == 0 || decide (l < s.act (F.LOOP_SP_pair_loop l))

/-- The other loop of a pair. -/
def State.pairOf (s : State) (l : Nat) : Option Nat :=
  if s.act (F.LOOP_CTRL_ovr l) == 0 then none else some (s.act (F.LOOP_SP_pair_loop l))

/-- Item number of a loop (R283): 16 + L. -/
def loopItem (l : Nat) : Nat := 16 + l

/-- A loop resumed at a takeover from the released value of its output slot (R209), which is the previous output of both
loops of a pair (R189). [log 20 DEDUCED] -/
def State.resumeLoop (s : State) (l : Nat) : State :=
  let n := s.act (F.LOOP_OUT_out_slot l)
  let diverged := s.ply.diverged.any (fun d => d.1 == loopItem l)
  match SMap.find s.ply.matched n with
  | none => s
  | some m =>
    let own := if diverged then (s.latch n).entry.value
      else ((SMap.find s.ply.matchedOwn n).map (fun e => e.entry.value)).getD m.entry.value
    if own == m.entry.value then s
    else
      let v := m.entry.value.toInt
      let x := s.loop l
      let x : LoopSt := { x with u := v, uf := shl v 7, owed := true, resumed := some (v, none) }
      let loops := match s.pairOf l with
        | some o => SMap.put s.loops o { s.loop o with u := v }
        | none => s.loops
      { s with loops := SMap.put loops l x,
               ply := { s.ply with resumedLoops := s.ply.resumedLoops + 1 } }

/-- A module whose role changes holds snapshots that its partner made of receive buffers: those that equal its own messages
are not made again (R133). [log 95 DEDUCED] -/
def State.matchSnaps (s : State) : State :=
  let own := s.tasks.millSnap.filterMap (fun e =>
    match e.2.2, (SMap.getD (SMap.getD s.mill (e.1 / 64) MillChan.idle).bufs (e.1 % 64) MillBuf.empty).atBoundary with
    | some w, some m => if m.words = w then some (e.1, (m.words, m.stamp, m.serial)) else none
    | _, _ => none)
  { s with tasks := { s.tasks with millTaken := own } }

/-- The loops of a takeover resume, and the snapshots of receive buffers are matched (R133, R209). -/
def State.resumeAll (s : State) : State :=
  let s : State := { s with ply := { s.ply with resumedLoops := 0 } }
  ((s.enabledLoops.filter s.isHead).foldl State.resumeLoop s).matchSnaps

/-- What a takeover leaves in the registers: cause, turn and count (R291, R298). -/
def State.recordTakeover (s : State) (cause : Nat) : State :=
  let s := (s.wr F.PLY_STATUS_diverged 0).wr F.PLY_LAST_DELAY_ns 0
  let s := s.wr F.PLY_REASON_takeover cause
  let s := (s.wr F.PLY_TAKEOVER_TURN_LO_turn (s.turn.k % 2 ^ 32)).wr F.PLY_TAKEOVER_TURN_HI_turn (s.turn.k >>> 32)
  s.inc F.PLY_COUNTS_takeovers

/-- The takeover of R289, with its cause as PLY_REASON codes it: by a tracking standby, or by one that left tracking
on the silent path and keeps testing (R286), unless its turn watchdog has tripped (R119). [log 20 DEDUCED] -/
def State.takeover (s : State) (cause : Nat) : State :=
  if !(s.isStandby || s.ply.silentTest) || s.on F.TURN_WDOG_tripped then s
  else
    match s.raiseEpoch with
    | (s, false) => s
    | (s, true) =>
      let s := s.resumeAll.setPlyState (if s.plyUp then 2 else 1)
      let s : State := { s with ply := { s.ply with
        tokOut := true, catchUp := s.stations, takeoverAt := some s.workNs, diverged := [], silentTest := false } }
      let s := (s.setMuted false).queueHeartbeat
      ((s.recordTakeover cause).plyEvt 1).fireTrigger 59 0xFF 0 0

end Sys2Proof.Machine
end

