-- ==== Sys2Proof/Machine/RingOps.lean ====
section
/-! DEFINITION. Board-ring frames, publications and the choice of R228 and R231. -/

namespace Sys2Proof.Machine

/-- A ring frame as its sender sends it, hops 0, with its seal (R223). -/
def ringFrame (type source flags alive part parts instant period : Nat) (payload : Bytes) : Bytes :=
  sealed (beBytes 1 type ++ beBytes 1 source ++ beBytes 4 flags ++ beBytes 2 alive ++ beBytes 2 payload.length ++
    [0] ++ beBytes 1 part ++ beBytes 1 parts ++ [0, 0, 0] ++ beBytes 4 (instant / unitSec % 2 ^ 32) ++
    beBytes 4 (instant % unitSec / unitNs) ++ beBytes 1 (instant % unitNs / 2 ^ 24) ++ [0, 0, 0] ++
    beBytes 4 period ++ payload)

/-- Byte i of a frame replaced. -/
def setByte (b : Bytes) (i v : Nat) : Bytes := b.take i ++ [BitVec.ofNat 8 v] ++ b.drop (i + 1)

/-- Does a ring frame's seal check, with byte 10 taken as 0 (R223)? -/
def ringSealOk (b : Bytes) : Bool := sealOk (setByte b 10 0)

/-- Is the bypass closed? -/
def State.bypassed (s : State) : Bool := s.on F.RING_STATUS_bypass

/-- Is a ring port's link up? -/
def State.ringUp (s : State) (east : Bool) : Bool :=
  (if east then s.rd F.RING_STATUS_link_e else s.rd F.RING_STATUS_link_w) == 2

/-- Send a frame out of one ring port. -/
def State.ringOut (s : State) (east : Bool) (b : Bytes) : State :=
  if s.bypassed || !s.ringUp east then s else s.emit (.ring east b)

/-- Flags of a ring frame (R223). -/
def State.ringFlags (s : State) (shadow active : Bool) : Nat :=
  s.epoch % 2 ^ 28 + 2 ^ 28 * bit shadow + 2 ^ 29 * bit active

/-- Send a frame of a type out of both ports, with its next alive count (R224, R81). -/
def State.sendRing (s : State) (type flags part parts instant period : Nat) (payload : Bytes) : State :=
  let alive := SMap.getD s.ring.txAlive type 0
  let s : State := { s with ring := { s.ring with txAlive := SMap.set s.ring.txAlive type 0 ((alive + 1) % 65536) } }
  let b := ringFrame type s.position flags alive part parts instant period payload
  (s.ringOut true b).ringOut false b

/-- The epoch record of a ply (R231). -/
def State.epochRec (s : State) (ply : Nat) : Nat := SMap.getD s.ring.epochs ply 0

/-- Does the module hold every part of a copy, not marked shadow, whose epoch is at least the record? -/
def State.pubFit (s : State) (ply : Nat) (p : Publication) : Bool :=
  p.source / 2 == ply && !p.shadow && decide (s.epochRec ply ≤ p.epoch) && p.held.length == p.parts

/-- Lag of the subscriber in units. -/
def State.lagU (s : State) : Nat := s.act F.RING_CTRL_lag_ns * unitNs

/-- May a copy serve the cut-off at instant t (R228)? In a replay, only one held at that instant does (R297). -/
def State.pubInTime (s : State) (t : Nat) (p : Publication) : Bool :=
  (!s.replaying || decide (p.arrived ≤ t)) && decide (p.instant + s.lagU ≤ t) && decide (t < p.instant + s.lagU + p.period * unitNs)

/-- Do two copies of one instant carry the same epoch, so that neither is taken (R231)? -/
def pubClash (ps : List Publication) (p : Publication) : Bool :=
  ps.any (fun q => q.instant == p.instant && q.epoch == p.epoch && q.source != p.source)

/-- Is copy p to be preferred to q: a later instant, or a higher epoch at the same instant? -/
def pubAfter (p q : Publication) : Bool :=
  decide (q.instant < p.instant) || (p.instant == q.instant && decide (q.epoch < p.epoch))

/-- The publication of a ply that a cut-off at instant t takes (R228, R231). -/
def State.pickPub (s : State) (ply t : Nat) : Option Publication :=
  let fit := s.ring.pubs.filter (s.pubFit ply)
  ((fit.filter (fun p => s.pubInTime t p && !pubClash fit p)).foldl (fun a p =>
    match a with
    | none => some p
    | some q => if pubAfter p q then some p else some q) none)

/-- A ring-input slot at the cut-off at instant t: the entry it takes, or its policy (R228, R56, R61). -/
def State.takeRingSlot (s : State) (t n : Nat) : State :=
  match (s.pickPub (s.act (F.SLOT_POL_SRC_peer n) % 16 / 2) t).bind
      (fun p => SMap.find p.entries (s.act (F.SLOT_POL_SRC_index n))) with
  | some e => s.takeInput n (BitVec.ofNat 18 e) (bitsOf e 27 26) (bitOf e 25) (bitOf e 24) (bitOf e 23)
  | none => s.substitute n

/-- Forget the copies whose time has passed at instant t. -/
def State.prunePubs (s : State) (t : Nat) : State :=
  let l := s.ring.pubs.filter (fun p => decide (t < p.instant + s.lagU + p.period * unitNs))
  { s with ring := { s.ring with pubs := l } }

/-- Insert in ascending order of index. -/
def insertByIndex (e : Nat × Nat) : List (Nat × Nat) → List (Nat × Nat)
  | [] => [e]
  | f :: l => if e.1 ≤ f.1 then e :: f :: l else f :: insertByIndex e l

/-- The published slots in ascending publication index: index and slot (R60, R227). -/
def State.published (s : State) : List (Nat × Nat) :=
  ((s.slotList.filter (fun n => s.aon (F.SLOT_POL_0_pub n))).map (fun n => (s.act (F.SLOT_POL_0_pub_index n), n))).foldl
    (fun l e => insertByIndex e l) []

/-- Wire time on two lanes, in hundredths of a ns, of a ring part of a payload length (R221, R230). [log 69 DEDUCED] -/
def partWire (len : Nat) : Nat := ceilDiv (ceilDiv (len + 1) 8) 2 * 256

/-- Entries of each part of a publication of n slots (R227). -/
def partEntries (n : Nat) : List Nat := (upTo (ceilDiv n 512)).map (fun i => min 512 (n - 512 * i))

/-- w (R230): the wire time of the largest part, of this module's n published slots and of the publications it holds.
No frame declares a member's parts beforehand. [log 105 DESIGN CHOICE] -/
def State.largestWire (s : State) (n : Nat) : Nat :=
  let heard := s.ring.pubs.map (fun p => min 512 p.entries.length)
  ((partEntries n ++ heard).map (fun m => partWire (36 + 5 * m))).foldl max 0

/-- A publication entry (R227). -/
def pubEntry (index : Nat) (e : Entry) : Nat :=
  index * 2 ^ 28 + tagQuality e.tag * 2 ^ 26 + bit (tagBit e.tag 3) * 2 ^ 25 + bit (tagBit e.tag 4) * 2 ^ 24 +
    bit (tagBit e.tag 5) * 2 ^ 23 + e.value.toNat

end Sys2Proof.Machine
end

