-- ==== Sys2Proof/Machine/TraceOps.lean ====
section
/-! DEFINITION. Internal memory and the trace channels: recording, triggers, stream blocks (R210 to R217). -/

namespace Sys2Proof.Machine

/-- What an unlisted byte of internal memory reads as (DESIGN CHOICE, log entry 6). [log 6 DESIGN CHOICE] -/
def memDefault : Byte := 0

/-- A byte of internal memory. [log 6 DESIGN CHOICE] -/
def State.memByte (s : State) (a : Nat) : Byte := SMap.getD s.mem a memDefault

/-- Bytes of internal memory. -/
def State.memRead (s : State) (a len : Nat) : Bytes := (upTo len).map (fun i => s.memByte (a + i))

/-- A memory with bytes written from an address, in canonical form. -/
def memPut (m : List Host.Cell) (a : Nat) : Bytes → List Host.Cell
  | [] => m
  | b :: bs => memPut (SMap.set m a memDefault b) (a + 1) bs

/-- The state with bytes of internal memory written. [log 6 DESIGN CHOICE] -/
def State.memWrite (s : State) (a : Nat) (b : Bytes) : State := { s with mem := memPut s.mem a b }

/-- Is a memory in canonical form: addresses rising, no entry that an unlisted address would read as? -/
def Memory.wf (m : List Host.Cell) : Bool := SMap.rising m && SMap.entries (fun _ v => v != memDefault) m

/-- The settings in force at the boundary of a sample (R31). [log 74 DEDUCED] -/
def State.configAt (s : State) (sample : Nat) : RegMap :=
  ((s.hop.before.filter (fun e => decide (sample < e.1))).foldl (fun (a : Option (Nat × RegMap)) e =>
    match a with
    | none => some e
    | some x => if e.1 < x.1 then some e else some x) none).elim s.hop.active (fun e => e.2)

/-- State of a trace group (R214). -/
def State.grpState (s : State) (g : Nat) : Nat := s.rd (F.TRACE_GSTAT_state g)

/-- A trace channel's state. -/
def State.chan (s : State) (ch : Nat) : TraceChan := SMap.getD s.trace.chan ch TraceChan.empty
/-- A trace group's state. -/
def State.grp (s : State) (g : Nat) : TraceGroup := SMap.getD s.trace.group g TraceGroup.idle
/-- The state with a channel written. -/
def State.setChan (s : State) (ch : Nat) (c : TraceChan) : State :=
  { s with trace := { s.trace with chan := SMap.put s.trace.chan ch c } }
/-- The state with a group written. -/
def State.setGrp (s : State) (g : Nat) (x : TraceGroup) : State :=
  { s with trace := { s.trace with group := SMap.put s.trace.group g x } }

/-- The enabled channels of a group (R214). -/
def State.grpChans (s : State) (g : Nat) : List Nat :=
  (upTo 64).filter (fun ch => s.on (F.TRACE_SRC_enable ch) && s.rd (F.TRACE_SRC_group ch) == g)

/-- First address of a channel's buffer (R212). -/
def State.chanBase (s : State) (ch : Nat) : Nat := 0x7C0000000 + s.rd (F.TRACE_BASE_base ch) * 0x10000

/-- Samples that a channel's buffer holds. -/
def State.chanSize (s : State) (ch : Nat) : Nat := 2 ^ s.rd (F.TRACE_SIZE_len ch)

/-- The shift of the level for a node (R216). -/
def nodeShift (kind node : Nat) : Nat :=
  if kind = 1 then 0 else if node = 5 ∨ (12 ≤ node ∧ node ≤ 14) then 18 else if node = 15 then 7 else 0

/-- Does the trigger condition of a group fire on a sample of its trigger channel (R216)? -/
def State.trigFires (s : State) (g ch k : Nat) (prev : Option (Int × Nat)) (v : Int) (bits : Nat) : Bool :=
  let level := shl (sextNat 32 (s.rd (F.TRACE_LEVEL_level g))) (nodeShift (s.rd (F.TRACE_SRC_kind ch))
    (s.rd (F.TRACE_SRC_node ch)))
  let rise := match prev with
    | some p => decide (p.1 < level) && decide (level ≤ v)
    | none => false
  let fall := match prev with
    | some p => decide (level < p.1) && decide (v ≤ level)
    | none => false
  match s.rd (F.TRACE_TRIG_kind g) with
  | 0 => false
  | 1 => rise
  | 2 => fall
  | 3 => rise || fall
  | 4 => decide (level < v)
  | 5 => decide (v < level)
  | 6 => match prev with
    | some p => clearBits (bits &&& s.rd (F.TRACE_TRIG_mask g)) p.2 != 0
    | none => false
  | _ => match (s.grp g).brakeAt with
    | some j => decide (j ≤ k)
    | none => false

/-- Samples that a channel holds before boundary k. -/
def TraceChan.before (c : TraceChan) (k : Nat) : Nat := c.count - (c.turns.filter (fun j => decide (k ≤ j))).length

/-- Record a sample's turn, and drop those that no outstanding evaluation can trigger at any more (R216). -/
def State.noteTurn (s : State) (turns : List Nat) (k : Nat) : List Nat :=
  let oldest := s.turn.evals.foldl (fun a e => min a e.1) k
  k :: turns.filter (fun j => decide (oldest ≤ j))

/-- The group is triggered at sample k (R216). [log 20 DEDUCED] -/
def State.trigger (s : State) (g k : Nat) : State :=
  let chans := s.grpChans g
  let short := chans.any (fun ch => decide ((s.chan ch).before k < s.rd (F.TRACE_PRE_count ch)))
  let s := ((s.wr (F.TRACE_TRIG_TURN_LO_k_t g) (k % 2 ^ 32)).wr (F.TRACE_TRIG_TURN_HI_k_t g) (k >>> 32)).wrb
    (F.TRACE_GSTAT_short g) short
  let s := s.wr (F.TRACE_GSTAT_state g) 2
  let s := s.setGrp g { s.grp g with trig := some k, forced := false }
  chans.foldl (fun s ch =>
    let c := s.chan ch
    let before := c.before k
    s.setChan ch { c with held := min before (s.rd (F.TRACE_PRE_count ch)), post := c.count - before }) s

/-- Does every channel of a triggered group hold its post samples? Then the group is DONE (R214). -/
def State.traceDone (s : State) (g : Nat) : State :=
  let chans := s.grpChans g
  if s.grpState g == 2 && chans.all (fun ch => decide (s.rd (F.TRACE_POST_count ch) ≤ (s.chan ch).post)) then
    let s := chans.foldl (fun s ch =>
      let c := s.chan ch
      s.wr (F.TRACE_OLDEST_index ch) ((c.wr + 2 * s.chanSize ch - c.post - c.held) % s.chanSize ch)) s
    let s := s.wr (F.TRACE_GSTAT_state g) 3
    let s := s.setGrp g { s.grp g with recordWaits := true }
    s.traceEvt g g
  else s

/-- A full block of a stream channel goes to the group's trace ring, or is dropped (R217, R340). -/
def State.streamBlock (s : State) (g ch : Nat) : State :=
  let c := s.chan ch
  let ring := s.rd (F.TRACE_TRIG_ring g)
  let clear := { c with block := [] }
  if !s.on (F.TRR_CTRL_enable ring) then s.setChan ch clear
  else if s.trcRoom ring then
    let ecc := s.rd (F.TRACE_STATUS_ecc ch)
    let head := [1 + 1, BitVec.ofNat 8 g, BitVec.ofNat 8 ch, BitVec.ofNat 8 (2 * ecc + 4 * bit (c.dropped != 0))]
    let rest := leBytes 8 c.blockTurn ++ leBytes 8 (c.count - 64) ++ leBytes 4 c.dropped ++ List.replicate 35 0
    (s.writeTrc ring head rest c.block.flatten).setChan ch { clear with dropped := 0 }
  else
    let s := s.add (F.TRACE_LOST_count ch) 64
    (s.setChan ch { clear with dropped := c.dropped + 1 }).traceEvt 8 g

/-- Record a sample of a channel (R211, R213, R214): value in its node's units, byte 7, and the bits that kind 6
tests. [log 20 DEDUCED] -/
def State.record (s : State) (ch k : Nat) (v : Int) (flags bits : Nat) : State :=
  let g := s.rd (F.TRACE_SRC_group ch)
  let st := s.grpState g
  let c := s.chan ch
  let stream := s.on (F.TRACE_TRIG_stream g)
  let full := st == 2 && decide (s.rd (F.TRACE_POST_count ch) ≤ c.post)
  if !(s.on (F.TRACE_SRC_enable ch)) || !(st == 1 || st == 2) || decide (k < (s.grp g).armTurn) || full then s
  else
    let sample := leBytes 7 (toBits 56 v) ++ leBytes 1 flags
    let s := s.memWrite (s.chanBase ch + 8 * (c.wr % s.chanSize ch)) sample
    let c' := { c with wr := c.wr + 1, count := c.count + 1, prev := some (v, bits), last := some k,
                       turns := s.noteTurn c.turns k,
                       post := if st == 2 then c.post + 1 else c.post }
    let s := s.wr (F.TRACE_STATUS_state ch) st
    if stream then
      let c' := { c' with block := c.block ++ [sample], blockTurn := if c.block.isEmpty then k else c.blockTurn }
      let s := s.setChan ch c'
      if c'.block.length = 64 then s.streamBlock g ch else s
    else
      let s := s.setChan ch c'
      let pre := (s.grpChans g).all (fun x => decide (s.rd (F.TRACE_PRE_count x) ≤ (s.chan x).before k))
      let fires := st == 1 && s.rd (F.TRACE_TRIG_chan g) == ch &&
        ((s.grp g).forced || (pre && s.trigFires g ch k c.prev v bits))
      let s := if fires then s.trigger g k else s
      s.traceDone g

/-- Is sample k one that a channel of period P records (R211)? -/
def State.chanDue (s : State) (ch p k : Nat) : Bool := k % (p * 2 ^ s.rd (F.TRACE_SRC_dec ch)) == 0

/-- The enabled channels that trace a loop. -/
def State.loopChans (s : State) (l : Nat) : List Nat :=
  (upTo 64).filter (fun ch => s.on (F.TRACE_SRC_enable ch) && s.rd (F.TRACE_SRC_kind ch) == 0 &&
    s.rd (F.TRACE_SRC_source ch) == l)

/-- Record a sample of a loop in every channel that traces it (R210). -/
def State.recordLoop (s : State) (l p k : Nat) (n : LoopNodes) : State :=
  (s.loopChans l).foldl (fun s ch =>
    if s.chanDue ch p k then
      s.record ch k (n.node (s.rd (F.TRACE_SRC_node ch)))
        (128 + 64 * bit (bitOf n.status 9) + 32 * bit (bitOf n.status 15)) n.status
    else s) s

/-- Record at the cut-off of turn k the slot channels, and the channels of disabled loops (R210, R211). -/
def State.recordSlots (s : State) (k : Nat) (view : SMap Entry) : State :=
  (upTo 64).foldl (fun s ch =>
    if !s.on (F.TRACE_SRC_enable ch) then s
    else
      let src := s.rd (F.TRACE_SRC_source ch)
      if s.on (F.TRACE_SRC_kind ch) then
        if s.chanDue ch (2 ^ s.rd (F.TRACE_SIZE_slot_rate_n ch)) k then
          let e := SMap.getD view src (s.slotNow src)
          s.record ch k e.value.toInt (128 + e.tag.toNat) e.tag.toNat
        else s
      else if s.aon (F.LOOP_CTRL_enable src) then s
      else if s.chanDue ch (2 ^ s.act (F.LOOP_CTRL_rate_n src)) k then s.record ch k 0 0 0
      else s) s

end Sys2Proof.Machine
end

