-- ==== Sys2Proof/Machine/LoopOps.lean ====
section
/-! DEFINITION. The wheel: views, the control law of R180 to R209, the commit of a result and its release. -/

namespace Sys2Proof.Machine

/-! Commits and releases (R35, R41, R54, R158). -/

/-- A task or loop commits an output slot: into the image, unless a later writer has committed first (R158). A slot
without a latch first keeps what it held (R113). -/
def State.commitSlot (s : State) (sample n : Nat) (e : Entry) : State :=
  let s : State := if SMap.has s.turn.latches n then s
    else { s with turn := { s.turn with latches := SMap.put s.turn.latches n ⟨(s.cell n).entry, 0⟩ } }
  if s.isBarred n sample then s
  else
    let s := match s.capturing with
      | some b => if sample < b then s.putCell n ⟨e, 0⟩ else s.setCell n ⟨e, 0⟩
      | none => s.putCell n ⟨e, 0⟩
    s.barKey n sample

/-- The record of a release's DIGEST. -/
def State.relRec (s : State) (m : Nat) : RelRec := SMap.getD s.ply.rel m RelRec.empty
/-- The state with it written. -/
def State.setRel (s : State) (m : Nat) (r : RelRec) : State :=
  { s with ply := { s.ply with rel := SMap.put s.ply.rel m r } }

/-- The release turn of a sample of an item of period p (R35). -/
def State.relTurn (s : State) (sample p : Nat) : Nat := sample + s.nTurns * p - 1

/-- Hold an item's results for its release instant, or for the next one where that has passed (R35, R41), and
count them in the release's DIGEST (R280). -/
def State.hold (s : State) (item sample p : Nat) (slots : List (Nat × Entry)) (loopWrites : List (Nat × LoopReq))
    (mill : List (Nat × List Word36)) : State :=
  let m := s.relTurn sample p
  let h : Held := ⟨item, sample, max m s.turn.nextRel, slots, loopWrites, mill⟩
  let s : State := { s with turn := { s.turn with held := s.turn.held ++ [h] } }
  let r := s.relRec m
  s.setRel m { r with slots := SMap.puts r.slots slots, items := r.items + 1,
                      mill := SMap.puts r.mill (mill.map (fun e => (e.1, e.2.flatMap (fun w => leBytes 8 w.toNat)))) }

/-! The wheel view (R172). -/

/-- The entry of a slot in the wheel view. -/
def State.wheelEntry (s : State) (n : Nat) : Entry :=
  s.overlay n (match s.writer n with
    | .task _ => (s.latch n).entry
    | .loop l => (match (s.loop l).shown with
      | some x => x.entry
      | none => (s.latch n).entry)
    | _ => (s.cell n).entry)

/-- The wheel view of all defined slots. -/
def State.wheelView (s : State) : SMap Entry := s.slotList.map (fun n => (n, s.wheelEntry n))

/-! The law (R178 to R183, R198, R201, R202). -/

/-- A coefficient: signed mantissa and exponent (R178). -/
def coef (m : RegMap) (fm fe : Fld) : Int × Nat := (sextNat 18 (RegMap.get m fm), RegMap.get m fe)

/-- scl of R180. -/
def scl (c : Int × Nat) (x : Int) : Int := if c.2 ≤ 18 then shl (c.1 * x) (18 - c.2) else rsh (c.1 * x) (c.2 - 18)

/-- Clamp to a range. -/
def clampI (x lo hi : Int) : Int := min (max x lo) hi

/-- One move of a rate stage toward a target, in units of 2^−7 step, by a rate word; and whether the clamp on
the move acted (R179, R183, R198). -/
def rateMove (word : Nat) (now goal : Int) : Int × Bool :=
  let m := word % 1024
  if m = 0 then (goal, false)
  else
    let q : Int := ((m * 2 ^ (word / 1024) : Nat) : Int)
    let d := clampI (goal - now) (-q) q
    (now + d, d != goal - now)

/-- What one loop's evaluation needs of the settings in force at its sample. -/
structure LoopEnv where
  m : RegMap
  l : Nat
  k : Nat
  view : SMap Entry
  braked : Bool

/-- A signed 18-bit setting. -/
def LoopEnv.q (e : LoopEnv) (f : Fld) : Int := sextNat 18 (RegMap.get e.m f)
/-- A one-bit setting. -/
def LoopEnv.on (e : LoopEnv) (f : Fld) : Bool := RegMap.get e.m f == 1
/-- A slot of the view. -/
def LoopEnv.slot (e : LoopEnv) (n : Nat) : Entry := SMap.getD e.view n Entry.coldEntry
/-- Is an auxiliary input usable (R177)? [log 21 DEDUCED] -/
def auxUsable (x : Entry) : Bool := tagQuality x.tag != 3 && !tagBit x.tag 5

/-- Is the loop the second of a pair (R189)? [log 21 DEDUCED] -/
def LoopEnv.second (e : LoopEnv) : Bool :=
  RegMap.get e.m (F.LOOP_CTRL_ovr e.l) != 0 && decide (RegMap.get e.m (F.LOOP_SP_pair_loop e.l) < e.l)

/-- The loop at its first sample (R190), else as it stands. -/
def LoopEnv.start (e : LoopEnv) (x : LoopSt) (y : Int) : LoopSt :=
  if x.started then x
  else
    let n := RegMap.get e.m (F.LOOP_OUT_out_slot e.l)
    let u := clampI (e.q (F.SLOT_POL_SAFE_safe n)) (e.q (F.LOOP_OUT_LO_limit e.l)) (e.q (F.LOOP_OUT_HI_limit e.l))
    { x with started := true, target := 0, rf := 0, i := 0, d := 0, yPrev := y,
             mode := RegMap.get e.m (F.LOOP_CTRL_init_mode e.l), manual := u, u := u, uf := shl u 7 }

/-- The requests that count at the sample: latest target, manual output and mode request (R173, R176).
[log 22 DEDUCED] -/
def dueReqs (x : LoopSt) (k : Nat) : LoopReq :=
  (x.reqs.filter (fun r => decide (r.start ≤ k))).foldl (fun a r =>
    { a with target := r.target.or a.target, manual := r.manual.or a.manual, mode := r.mode.or a.mode })
    ⟨0, none, none, none⟩

/-- Mode request, shed and transfer (R186, R188, R201, R205): the loop, whether a back-calculation is owed in it,
and whether its measurement froze the sample. [log 22 DEDUCED] -/
def LoopEnv.modes (e : LoopEnv) (x : LoopSt) (meas : Entry) : LoopSt × Bool :=
  let r := dueReqs x e.k
  let old := x.mode
  let x := if e.second then { x with mode := 1 } else x
  let x := { x with reqs := x.reqs.filter (fun r => decide (e.k < r.start)), target := r.target.getD x.target,
                    manual := r.manual.getD x.manual }
  let x := match r.mode with
    | none => x
    | some md =>
      if e.second || (md == 2 && !e.on (F.LOOP_CTRL_casc_en e.l)) || (md == 3 && !e.on (F.LOOP_CTRL_track_en e.l))
      then { x with refused := true }
      else { x with mode := md, refused := false, shed := false }
  let pol := RegMap.get e.m (F.LOOP_CTRL_meas_policy e.l)
  let q := tagQuality meas.tag
  let err := tagBit meas.tag 5
  let usable := !err && (if pol = 0 then q != 3 else q == 0)
  let sheds := pol == 2 && q == 3 && (x.mode == 1 || x.mode == 2) && !e.second
  let x := if sheds then { x with mode := 0, shed := true } else x
  let gain := x.gainFrom.any (fun b => decide (b ≤ e.k))
  let transfer := x.mode != old || x.owed || (x.wasBraked && !e.braked) || (gain && (x.mode == 1 || x.mode == 2))
  let x := { x with owed := transfer, wasBraked := e.braked, gainFrom := x.gainFrom.filter (fun b => decide (e.k < b)) }
  let x := if e.braked || !transfer then x
    else match x.mode with
      | 0 => { x with manual := r.manual.getD x.u, owed := false }
      | 3 => { x with owed := false }
      | _ => x
  (x, !usable)

/-- The integrator of a back-calculation (R202). -/
def backCalc (u p d f lo hi : Int) : Int := clampI (shl u 18 - p - shl d 18 - f) (shl lo 18) (shl hi 18)

/-- A loop's evaluation up to its limited output t (R180 to R188, R198 to R204), with status bits but those of the
rate stage and the selection. -/
def LoopEnv.law (e : LoopEnv) (x : LoopSt) : LoopSt :=
  let l := e.l
  let meas := e.slot (RegMap.get e.m (F.LOOP_MEAS_meas_slot l))
  let y := meas.value.toInt
  let x := e.start x y
  let mf := e.modes x meas
  let x := mf.1
  let frozen := mf.2
  -- auxiliary inputs (R177)
  let sp := e.slot (RegMap.get e.m (F.LOOP_SP_sp_slot l))
  let casc := e.slot (RegMap.get e.m (F.LOOP_OUT_out_slot (RegMap.get e.m (F.LOOP_MEAS_casc_loop l))))
  let ff := e.slot (RegMap.get e.m (F.LOOP_FF_ff_slot l))
  let trk := e.slot (RegMap.get e.m (F.LOOP_TRACK_track_slot l))
  let spIn := RegMap.get e.m (F.LOOP_CTRL_sp_kind l) == 2
  let cascIn := e.on (F.LOOP_CTRL_casc_en l)
  let ffIn := e.on (F.LOOP_CTRL_ff_en l)
  let trkIn := e.on (F.LOOP_CTRL_track_en l)
  let x := { x with
    auxSp := if spIn && auxUsable sp then sp.value.toInt else x.auxSp,
    auxCasc := if cascIn && auxUsable casc then casc.value.toInt else x.auxCasc,
    auxFf := if ffIn && auxUsable ff then ff.value.toInt else x.auxFf,
    auxTrack := if trkIn && auxUsable trk then trk.value.toInt else x.auxTrack }
  let auxHeld := (x.mode != 2 && spIn && !auxUsable sp) || (x.mode == 2 && !auxUsable casc) ||
    (ffIn && !auxUsable ff) || (x.mode == 3 && !auxUsable trk)
  let target := if x.mode == 2 then x.auxCasc else if spIn then x.auxSp else x.target
  let x := { x with target := if x.mode == 2 then x.target else target }
  -- ramp (R198)
  let tf := shl target 7
  let word := if x.rf < tf then RegMap.get e.m (F.LOOP_FF_sp_rise l)
    else if tf < x.rf then RegMap.get e.m (F.LOOP_TRACK_sp_fall l) else 0
  let rf := (rateMove word x.rf tf).1
  let r := rsh rf 7
  -- law (R180)
  let f := if ffIn then x.auxFf else 0
  let bw := coef e.m (F.LOOP_BW_m l) (F.LOOP_BW_e l)
  let eb0 := rsh (bw.1 * r) bw.2 - y
  let ei0 := r - y
  let dy0 := y - x.yPrev
  let eb := sat18 eb0
  let ei := sat18 ei0
  let dy := sat18 dy0
  let p := scl (coef e.m (F.LOOP_KP_m l) (F.LOOP_KP_e l)) eb
  let d0 := rsh (scl (coef e.m (F.LOOP_ALPHA_m l) (F.LOOP_ALPHA_e l)) x.d -
    scl (coef e.m (F.LOOP_KD_m l) (F.LOOP_KD_e l)) dy) 18
  let d := if frozen then x.d else sat18 d0
  let ff' := scl (coef e.m (F.LOOP_KF_m l) (F.LOOP_KF_e l)) f
  let lo := e.q (F.LOOP_I_LO_bound l)
  let hi := e.q (F.LOOP_I_HI_bound l)
  let regulates := x.mode == 1 || x.mode == 2
  let updates := regulates && !frozen && !e.braked
  let i := if !updates then x.i
    else if x.owed then backCalc x.u p d ff' lo hi
    else clampI (x.i + scl (coef e.m (F.LOOP_KI_m l) (F.LOOP_KI_e l)) ei) (shl lo 18) (shl hi 18)
  let v0 := p + i + shl d 18 + ff'
  let v := sat54 v0
  let uRaw0 := rsh v 18
  let uRaw := sat18 uRaw0
  let sat := eb != eb0 || ei != ei0 || dy != dy0 || (!frozen && d != d0) || v != v0 || uRaw != uRaw0
  -- output before the rate stage (R183, R188, R204)
  let oLo := e.q (F.LOOP_OUT_LO_limit l)
  let oHi := e.q (F.LOOP_OUT_HI_limit l)
  let safe := clampI (e.q (F.SLOT_POL_SAFE_safe (RegMap.get e.m (F.LOOP_OUT_out_slot l)))) oLo oHi
  let ut := if e.braked then safe
    else match x.mode with
      | 0 => x.manual
      | 3 => x.auxTrack
      | _ => if frozen then x.u else uRaw
  let t := clampI ut oLo oHi
  let status := 1 + 2 * x.mode + 8 * bit (rf != tf) + 64 * bit (oHi < ut) + 128 * bit (ut < oLo) +
    512 * bit frozen + 1024 * bit x.shed + 2048 * bit auxHeld + 8192 * bit sat + 16384 * bit x.refused +
    32768 * bit e.braked
  { x with
    rf := rf, i := i, d := d, yPrev := if frozen then x.yPrev else y, owed := x.owed && !updates,
    sample := e.k,
    nodes := { x.nodes with
      status := status, r := r, target := target, y := y, uRaw := uRaw, t := t, eb := eb, ei := ei, dy := dy, d := d,
      p := p, f := ff', v := v, mode := x.mode, manual := x.manual } }

/-- Status bits that follow the rate stage: integrator bounds, rate and selected (R182, R183, R189). -/
def LoopEnv.finish (e : LoopEnv) (x : LoopSt) (u uf : Int) (rate selected : Bool) (entry : Entry) : LoopSt :=
  let lo := shl (e.q (F.LOOP_I_LO_bound e.l)) 18
  let hi := shl (e.q (F.LOOP_I_HI_bound e.l)) 18
  let st := x.nodes.status + 16 * bit (x.i == hi) + 32 * bit (x.i == lo) + 256 * bit rate + 4096 * bit selected
  { x with u := u, uf := uf, status := st,
           nodes := { x.nodes with status := st, u := u, uf := uf, i := x.i, entry := entry } }

/-- The unselected loop of a pair after the rate stage (R207): back-calculated unless frozen or braked. -/
def LoopEnv.unselect (e : LoopEnv) (x : LoopSt) (u : Int) : LoopSt :=
  if bitOf x.nodes.status 9 || e.braked then x
  else
    let i := backCalc u x.nodes.p x.nodes.d x.nodes.f (e.q (F.LOOP_I_LO_bound e.l)) (e.q (F.LOOP_I_HI_bound e.l))
    { x with i := i }

/-- The rate stage of a loop's settings, bypassed in a braked sample (R183, R204): u_f and whether it limited. -/
def LoopEnv.rate (e : LoopEnv) (uf t : Int) : Int × Bool :=
  if e.braked then (shl t 7, false) else rateMove (RegMap.get e.m (F.LOOP_OUT_out_rate e.l)) uf (shl t 7)

/-- The entry of a loop's output (R183). -/
def loopEntry (u : Int) (clamped : Bool) : Entry := ⟨sampleOf u, mkTag 0 false clamped false false⟩

/-- An unpaired loop's sample. [log 23 DEDUCED] -/
def LoopEnv.single (e : LoopEnv) (x : LoopSt) : LoopSt :=
  let x := e.law x
  let r := e.rate x.uf x.nodes.t
  let u := rsh r.1 7
  e.finish x u r.1 r.2 false (loopEntry u (bitOf x.nodes.status 6 || bitOf x.nodes.status 7))

/-- The head of a pair evaluates; its output forms when the second loop has evaluated (R189). -/
def LoopEnv.head (e : LoopEnv) (x : LoopSt) : LoopSt := e.law x

/-- The second loop of a pair evaluates, and the pair's output forms (R189, R205 to R207): head and second.
[log 23 DEDUCED] -/
def LoopEnv.pair (ea eb : LoopEnv) (a b : LoopSt) : LoopSt × LoopSt :=
  let b := eb.law b
  let low := RegMap.get ea.m (F.LOOP_CTRL_ovr ea.l) == 1
  let auto := a.nodes.mode == 1 || a.nodes.mode == 2
  let tookA := ea.braked || !auto || (if low then decide (a.nodes.t ≤ b.nodes.t) else decide (b.nodes.t ≤ a.nodes.t))
  let t := if tookA then a.nodes.t else b.nodes.t
  let st := if tookA then a.nodes.status else b.nodes.status
  let r := ea.rate a.uf t
  let u := rsh r.1 7
  let e := loopEntry u (bitOf st 6 || bitOf st 7)
  let a := if tookA then a else ea.unselect a u
  let b := if tookA then eb.unselect b u else b
  (ea.finish a u r.1 r.2 tookA e, eb.finish b u r.1 false (!tookA) e)

end Sys2Proof.Machine
end

