-- ==== Sys2Proof/Machine/HostCmdOps.lean ====
section
/-! DEFINITION. What every host command shares: the tests before its own, its buffer, and its completion (R326 to
R333). -/

namespace Sys2Proof.Machine

/-- Does operand byte i (24 to 63) belong to the operands of an opcode (R331)? -/
def usesByte (c : HostCmd) (i : Nat) : Bool :=
  let within (a b : Nat) : Bool := decide (a ≤ i) && decide (i ≤ b)
  match c.desc.op.toNat with
  | 0x10 => within 24 31
  | 0x11 => within 24 27 ||
      (c.desc.buf.toNat == 0 && decide (opAt c 24 4 ≤ 4) && within 32 (31 + 8 * opAt c 24 4))
  | 0x12 => within 24 31
  | 0x20 => within 24 27
  | 0x21 => within 24 26 || within 28 32 || within 36 39
  | 0x30 => within 24 27
  | 0x31 => within 24 27
  | 0x40 => within 24 27
  | 0x41 => within 24 31
  | 0x43 => i == 24 || within 32 (if opByte c 24 = 1 then 47 else 39)
  | 0x50 => within 24 25 || within 28 31
  | 0x51 => within 24 25 || within 28 31
  | 0x60 => within 24 31
  | 0x61 => within 24 27
  | 0x70 => within 28 31
  | 0x71 => within 24 25 || within 28 31
  | 0x72 => i == 24
  | 0x80 => within 24 25
  | 0x81 => within 24 25
  | _ => false

/-- The bits of an operand byte that its opcode defines, where it does not define all. -/
def byteBits (op i : Nat) : Nat :=
  if op = 0x21 ∧ i = 26 then 7 else if (op = 0x50 ∨ op = 0x51 ∨ op = 0x71) ∧ i = 25 then 1 else 255

/-- Are the reserved bytes, the reserved flag bits and the unused operand bytes 0 (R326)? -/
def reservedOk (c : HostCmd) : Bool :=
  let op := c.desc.op.toNat
  decide (c.desc.flags.toNat < 8) && c.desc.byte3 == 0 && c.desc.rsv == 0 &&
    (upTo 40).all (fun j =>
      let v := opByte c (24 + j)
      v == 0 || (usesByte c (24 + j) && decide (v ≤ byteBits op (24 + j))))

/-- The class of an opcode (R331); NOP has none. -/
def opClass (op : Nat) : Option Nat :=
  if op = 0 then none
  else if op = 0x11 then some 1
  else if op = 0x21 then some 2
  else if op = 0x30 ∨ op = 0x31 then some 3
  else if 0x40 ≤ op ∧ op ≤ 0x44 then some 4
  else if op = 0x50 then some 5
  else if op = 0x61 then some 6
  else if 0x70 ≤ op ∧ op ≤ 0x73 then some 7
  else if op = 0x80 then some 8
  else some 0

/-- Does the effective key forbid an opcode on a ring, as far as its operands need not be read (R63, R123, R330,
R425)? The hopper's commits are tested by CHECK. -/
def State.keyForbids (s : State) (c : HostCmd) : Bool :=
  let op := c.desc.op.toNat
  let r := c.ring.val
  let lock := s.key == 0
  if op = 0x11 then lock && !s.on (F.RING_POLICY_lock_sig r)
  else if op = 0x21 then lock && (!s.on (F.RING_POLICY_lock_loop r) || decide (2 ≤ opByte c 26))
  else if op = 0x30 ∨ op = 0x31 then s.key != 2
  else if op = 0x61 ∨ (0x70 ≤ op ∧ op ≤ 0x73) then s.key == 0 || s.key == 1
  else false

/-- The first of the common tests that a command fails (R333): reserved bytes, policy, activity, key.
[log 60 DEDUCED] -/
def State.cmdFault (s : State) (c : HostCmd) : Option Nat :=
  let op := c.desc.op.toNat
  if !reservedOk c then some 4
  else if (opClass op).any (fun k => !bitOf (s.rd (F.RING_POLICY_allow c.ring.val)) k) then some 2
  else if changesBehaviour op && !s.isActive then some 8
  else if s.keyForbids c then some 1
  else none

/-- A command with no effect completes with a status. -/
def State.deny (s : State) (c : HostCmd) (status : Nat) : State := s.complete c status 0 0 0

/-- A command runs: its common tests, then its own work. -/
def State.runCmd (s : State) (c : HostCmd) (f : State → State) : State :=
  match s.cmdFault c with
  | some st => s.deny c st
  | none => f s

/-- Is a command's buffer aligned and long enough (R326)? [log 60 DEDUCED] -/
def bufOk (c : HostCmd) (len : Nat) : Bool :=
  c.desc.buf.toNat % 8 == 0 && decide (len ≤ c.desc.len.toNat) && (len == 0 || c.desc.buf.toNat != 0)

/-- The pieces of at most 4,096 bytes in which a buffer is moved: offset and length. [log 60 DEDUCED] -/
def pieces (len : Nat) : List (Nat × Nat) :=
  (upTo (ceilDiv len 4096)).map (fun i => (4096 * i, min 4096 (len - 4096 * i)))

/-- The buffer of a command passes the DMA unit and the bus, or the command completes with ACCESS or DMA_ERROR
(R333, R404). The access kind is 0 read, 1 write. [log 60 DEDUCED] -/
def State.moveBuf (s : State) (c : HostCmd) (kind len : Nat) (f : State → State) : State :=
  let a := c.desc.buf.toNat
  let r := (pieces len).foldl (fun (x : State × Bool) p =>
    if x.2 then x.1.acAccess 3 kind 2 (a + p.1) p.2 else x) (s, true)
  if !r.2 then r.1.deny c 0x10
  else if !c.dmaOk || (kind == 0 && decide (c.data.length < len)) then (r.1.dmaError 2 c.ring.val).deny c 0x0F
  else f r.1

/-- Read data goes to the host's buffer, and the command completes OK. -/
def State.answer (s : State) (c : HostCmd) (b : Bytes) (r0 r1 : Nat) : State :=
  s.moveBuf c 1 b.length (fun s => (s.emit (.host c.desc.buf.toNat b)).complete c 0 0 r0 r1)

/-- The position of the first entry that fails a test. -/
def firstBad {α : Type} (l : List α) (p : α → Bool) : Option Nat := l.findIdx? (fun x => !p x)

/-- Pairs of a 4-byte number and a 4-byte word in a buffer. -/
def pairsOf (b : Bytes) (n : Nat) : List (Nat × Nat) :=
  (upTo n).map (fun i => (leAt b (8 * i) 4, leAt b (8 * i + 4) 4))

/-! Signals and loops. -/

/-- SIG_READ (R331): the containers of a run of slots, as one unit. -/
def State.sigRead (s : State) (c : HostCmd) : State :=
  let first := opAt c 24 4
  let n := opAt c 28 4
  if n < 1 || 16384 < n || 262144 < first + n || !bufOk c (4 * n) then s.deny c 4
  else s.answer c ((upTo n).flatMap (fun i => leBytes 4 (s.slotNow (first + i)).container)) s.turn.k 0

/-- Host writes are taken at the boundary that R68 names, and mirrored to a partner. -/
def State.hostWrites (s : State) (b : Nat) (ws : List HostWrite) : State :=
  let s : State := { s with image := { s.image with waiting := s.image.waiting ++ ws.map (fun w => (b, w)) } }
  if s.plyState == 2 then s.mirror b ws else s

/-- The entries of a SIG_WRITE pass their tests (R123, R330, R331), or the command is refused whole. [log 60 DEDUCED] -/
def State.sigEntries (s : State) (c : HostCmd) (es : List (Nat × Nat)) : State :=
  match firstBad es (fun e => s.key != 0 || (decide (e.1 < 262144) && s.aon (F.SLOT_POL_0_lock_ok e.1))) with
  | some i => s.complete c 1 0 0 i
  | none =>
    match firstBad es (fun e => decide (e.1 < 262144)) with
    | some i => s.complete c 4 0 0 i
    | none =>
      match firstBad es (fun e => s.slotKind e.1 == 3) with
      | some i => s.complete c 5 0 0 i
      | none =>
        let b := s.boundary2
        let s := s.hostWrites b (es.map (fun e => .slot (BitVec.ofNat 18 e.1) (BitVec.ofNat 18 e.2)))
        s.complete c 0 0 b 0

/-- SIG_WRITE (R68, R331): inline pairs, or pairs in the buffer. -/
def State.sigWrite (s : State) (c : HostCmd) : State :=
  let n := opAt c 24 4
  if n < 1 || 4096 < n then s.deny c 4
  else if n ≤ 4 && c.desc.buf.toNat == 0 then s.sigEntries c (pairsOf (c.desc.ops.drop 8) n)
  else if !bufOk c (8 * n) then s.deny c 4
  else s.moveBuf c 0 (8 * n) (fun s => s.sigEntries c (pairsOf c.data n))

/-- The writer of a slot as SLOT_STATUS shows it (R332). -/
def Writer.shown : Writer → Nat × Nat
  | .none => (0, 0)
  | .task t => (1, t)
  | .loop l => (2, l)
  | .station n => (3, n)
  | .ring p => (4, p)
  | .host => (5, 0)
  | .mill ch b => (6, ch * 64 + b)

/-- The status record of a slot (R332). -/
def State.slotRecord (s : State) (n : Nat) : Bytes :=
  let e := s.cell n
  let w := (s.writer n).shown
  let forced := SMap.has s.image.forces n
  let orphan := forced && decide (4 ≤ s.slotKind n) && s.orphaned n
  leBytes 4 (s.slotNow n).container ++ leBytes 4 e.entry.container ++ leBytes 1 (s.slotKind n) ++
    leBytes 1 (bit forced + 2 * bit orphan + 4 * s.act (F.SLOT_POL_0_pub n)) ++ leBytes 1 e.age ++
    leBytes 1 w.1 ++ leBytes 4 w.2

/-- SLOT_STATUS (R332). -/
def State.slotStatus (s : State) (c : HostCmd) : State :=
  let first := opAt c 24 4
  let n := opAt c 28 4
  if n < 1 || 4096 < n || 262144 < first + n || !bufOk c (16 * n) then s.deny c 4
  else s.answer c ((upTo n).flatMap (fun i => s.slotRecord (first + i))) 0 0

/-- The record of a loop (R332). [log 61 DEDUCED] -/
def State.loopRecord (s : State) (l : Nat) : Bytes :=
  let x := s.loop l
  leBytes 4 (toBits 32 x.target) ++ leBytes 4 (toBits 32 x.nodes.r) ++ leBytes 4 (toBits 32 x.nodes.y) ++
    leBytes 4 (toBits 32 x.u) ++ leBytes 8 (toBits 64 x.i) ++ leBytes 4 (toBits 32 x.manual) ++
    leBytes 1 x.mode ++ [0] ++ leBytes 2 x.status

/-- LOOP_READ (R332). [log 61 DEDUCED] -/
def State.loopRead (s : State) (c : HostCmd) : State :=
  let first := opAt c 24 2
  let n := opAt c 26 2
  if n < 1 || 4096 < first + n || !bufOk c (32 * n) then s.deny c 4
  else
    let latest := (upTo n).foldl (fun a i => max a (s.loop (first + i)).sample) 0
    s.answer c ((upTo n).flatMap (fun i => s.loopRecord (first + i))) latest 0

/-- LOOP_WRITE (R68, R175, R331). [log 60 DEDUCED] -/
def State.loopWrite (s : State) (c : HostCmd) : State :=
  let l := opAt c 24 2
  let which := opByte c 26
  let mode := opByte c 32
  let sp := s.act (F.LOOP_CTRL_sp_kind l)
  if 4096 ≤ l || which == 0 || (bitOf which 1 && 4 ≤ mode) then s.deny c 4
  else if sp == 1 then s.deny c 6
  else if bitOf which 0 && sp != 0 then s.deny c 4
  else
    let b := s.boundary2
    let q (i : Nat) : Sample := BitVec.ofNat 18 (opAt c i 4)
    let w : HostWrite := .loop (Fin.ofNat 4096 l) (if bitOf which 0 then some (q 28) else none)
      (if bitOf which 2 then some (q 36) else none) (if bitOf which 1 then some (BitVec.ofNat 2 mode) else none)
    (s.hostWrites b [w]).complete c 0 0 b 0

/-! Forces (R63 to R65). -/

/-- Slots forced once the forces waiting in orders have taken effect too. The spec does not say whether a force that waits
for its boundary counts toward the limit of R63: it does, and an unforce that waits frees no place.
[log 111 DESIGN CHOICE] -/
def State.forcedSoon (s : State) : List Nat :=
  let es := s.ply.orders.flatMap (fun o => match o.content with
    | .force es => es.filterMap (fun e => if e.2.isSome then some e.1.toNat else none)
    | _ => [])
  (s.image.forces.map (·.1) ++ es).eraseDups

/-- An accepted force or unforce: ordered with the partner, or applied alone at the next boundary (R64). -/
def State.orderForce (s : State) (c : HostCmd) (op : Nat) (es : List (BitVec 18 × Option Sample)) : State :=
  if s.plyState == 2 then
    let b := s.orderBoundary
    (s.sendOrder 2 b 0 (.force es)).holdCmd c op (some b) (some s.ply.nextSeq)
  else
    let b := s.nextBoundary
    let o : Order := ⟨true, 2, s.ply.nextSeq, b, .force es, true⟩
    let s : State := { s with ply := { s.ply with
      orders := s.ply.orders ++ [o], nextSeq := (s.ply.nextSeq + 1) % 65536 } }
    s.holdCmd c op (some b) (some o.seq)

/-- The slot tests of a force or unforce: in range, of a defined kind, and no host input (R63). -/
def State.forceSlots (s : State) (c : HostCmd) (slots : List Nat) (f : State → State) : State :=
  match firstBad slots (fun n => decide (n < 262144)) with
  | some i => s.complete c 4 0 0 i
  | none =>
    match firstBad slots (fun n => s.slotKind n != 0 && s.slotKind n != 3) with
    | some i => s.complete c 5 0 0 i
    | none => f s

/-- FORCE (R63, R64). -/
def State.forceCmd (s : State) (c : HostCmd) : State :=
  let n := opAt c 24 4
  if n < 1 || 256 < n || !bufOk c (8 * n) then s.deny c 4
  else s.moveBuf c 0 (8 * n) (fun s =>
    let es := pairsOf c.data n
    s.forceSlots c (es.map (·.1)) (fun s =>
      let held := s.forcedSoon
      match (upTo n).find? (fun i => decide (4096 < (held ++ (es.take (i + 1)).map (·.1)).eraseDups.length)) with
      | some i => s.complete c 7 0 0 i
      | none => s.orderForce c 0x30 (es.map (fun e => (BitVec.ofNat 18 e.1, some (BitVec.ofNat 18 e.2))))))

/-- UNFORCE (R63 to R65). -/
def State.unforceCmd (s : State) (c : HostCmd) : State :=
  let n := opAt c 24 4
  if n < 1 || 256 < n || !bufOk c (4 * n) then s.deny c 4
  else s.moveBuf c 0 (4 * n) (fun s =>
    let slots := (upTo n).map (fun i => leAt c.data (4 * i) 4)
    s.forceSlots c slots (fun s =>
      s.orderForce c 0x31 (slots.map (fun m => (BitVec.ofNat 18 m, none)))))

/-- FORCE_LIST (R331): pairs of a slot and its forced container. -/
def State.forceList (s : State) (c : HostCmd) : State :=
  if !bufOk c 32768 then s.deny c 4
  else
    let es := s.image.forces
    s.answer c (es.flatMap (fun e => leBytes 4 e.1 ++ leBytes 4 (forcedEntry e.2).container)) 0 es.length

/-! Programs (R148, R149, R153, R154, R331). -/

/-- Code words and data words of an image, as its header declares them. -/
def progWords (b : Bytes) : Nat × Nat := (progCodeTotal b, progDataWords b)

/-- Would a staged image take the program store past its limits (R149)? [log 62 DEDUCED] -/
def State.progSpaceBad (s : State) (slot : Nat) (b : Bytes) : Bool :=
  let others := s.progs.active.map (·.2) ++ (s.progs.staged.filter (fun e => e.1 != slot)).map (·.2)
  let code := (others.map (fun x => (progWords x).1)).sum + (progWords b).1
  let data := (others.map (fun x => (progWords x).2)).sum + (progWords b).2
  decide (131072 < (progWords b).1) || decide (65536 < (progWords b).2) ||
    decide (1048576 < code) || decide (1048576 < data)

/-- The largest image: header, code, tables and seal within 16 MiB. [log 62 DEDUCED] -/
def maxImage : Nat := 2 ^ 24

/-- A piece of an image enters the staged copy of a slot (R148): the first piece, at offset 0, begins a new image.
[log 62 DEDUCED] -/
def State.loadPiece (s : State) (slot offset : Nat) (piece : Bytes) : State :=
  let old := if offset = 0 then [] else SMap.getD s.progs.staged slot []
  let b := slice old 0 offset ++ piece ++ old.drop (offset + piece.length)
  let s : State := { s with progs := { s.progs with
    staged := SMap.put s.progs.staged slot b, verifying := s.progs.verifying.filter (· != slot)
    partnerStaged := SMap.del s.progs.partnerStaged slot } }
  s.wr (F.PROG_STATUS_staged slot) 1

/-- The last piece of an image is in, and its verification begins (R148); both partners hold the same copy (R155).
[log 62 DEDUCED] -/
def State.loadEnd (s : State) (slot : Nat) : State :=
  { s with progs := { s.progs with
      verifying := s.progs.verifying ++ [slot]
      partnerStaged := SMap.put s.progs.partnerStaged slot (SMap.getD s.progs.staged slot []) } }

/-- The program slots that a program commit uses, as its old copy or its new one (R154): those that it makes active, and
those of the tasks that it moves or switches. [log 76 DEDUCED] -/
def programSlots (old new : RegMap) : List Nat :=
  let program := fun (m : RegMap) (t : Nat) => RegMap.get m (F.TASK_CTRL_program t)
  let moved := (upTo 16).filter (fun t => program old t != program new t)
  (bitsSet 16 (RegMap.get new F.HOPPER_PROG_ACT_act) ++ moved.map (program old) ++ moved.map (program new)).eraseDups

/-- Does the pending program change use a slot, as its old copy or its new one (R154)? [log 76 DEDUCED] -/
def State.onlineUses (s : State) (slot : Nat) : Bool :=
  match s.rd F.ONLINE_STATUS_state with
  | 1 => (match s.hop.armed with
    | some a => (programSlots s.hop.active a.image).contains slot
    | none => false)
  | 2 => s.hop.onlineSlots.contains slot
  | _ => false

/-- PROG_LOAD (R148, R153, R154). [log 62 DEDUCED, 76 DEDUCED] -/
def State.progLoad (s : State) (c : HostCmd) : State :=
  let slot := opByte c 24
  let last := bitOf (opByte c 25) 0
  let offset := opAt c 28 4
  let len := c.desc.len.toNat
  if 16 ≤ slot || maxImage < offset + len || !bufOk c len then s.deny c 4
  else if s.onlineUses slot then s.deny c 0x0D
  else s.moveBuf c 0 len (fun s =>
    let piece := c.data.take len
    let s := s.loadPiece slot offset piece
    let s := if s.plyState == 2 then
        s.mirror s.turn.k [.prog (Fin.ofNat 16 slot) (BitVec.ofNat 32 offset) piece last] else s
    if !last then s.complete c 0 0 0 0
    else
      (s.loadEnd slot).holdCmd c 0x50 none none)

/-- PROG_READ (R331): as much of an image as the buffer holds. -/
def State.progRead (s : State) (c : HostCmd) : State :=
  let slot := opByte c 24
  let offset := opAt c 28 4
  let m := if opByte c 25 = 1 then s.progs.staged else s.progs.active
  let b := SMap.getD m slot []
  if 16 ≤ slot || b.length < offset || !bufOk c 0 then s.deny c 4
  else s.answer c ((b.drop offset).take c.desc.len.toNat) 0 b.length

end Sys2Proof.Machine
end

