-- ==== Sys2Proof/Machine/HopperOps.lean ====
section
/-! DEFINITION. The hopper's copies: staging, change lists, digests, the committed seal and the kinds of a commit
(R345 to R357). -/

namespace Sys2Proof.Machine

/-! Staging (R346, R347). -/

/-- The STG fields of the register at an offset (R346). -/
def stgRows (off : Nat) : List FieldRow := (rowsAt off).filter (fun r => r.ty == .stg)

/-- The STG bits of a register in a copy, all other bits 0 (R352). -/
def stgWord (m : RegMap) (off : Nat) : Nat :=
  ((stgRows off).map (fun r => RegMap.get m (r.fld off) <<< r.lo)).foldl (· ||| ·) 0

/-- One STG field of a register takes its bits of a written word; bits that are not writable keep their value. -/
def stageField (off v : Nat) (m : RegMap) (r : FieldRow) : RegMap :=
  let f := r.fld off
  let k := writeMask off r.lo r.width
  RegMap.set m f (clearBits (RegMap.get m f) k ||| (bitsOf v (r.lo + r.width - 1) r.lo &&& k))

/-- The staged copy with the STG fields of a register written. A write that makes a station present sets a staged
holdoff of 0 to 32 (R70). -/
def stageWord (m : RegMap) (off v : Nat) : RegMap :=
  let n := (stgRows off).foldl (stageField off v) m
  let st := (off - 0x20000) / 16
  if 0x20000 ≤ off ∧ off < 0x21000 ∧ off % 16 = 0 ∧ RegMap.get m (F.STATION_MAP_0_present st) = 0 ∧
      RegMap.get n (F.STATION_MAP_0_present st) = 1 ∧ RegMap.get n (F.STATION_MAP_1_holdoff st) = 0 then
    RegMap.set n (F.STATION_MAP_1_holdoff st) 32
  else n

/-! Change lists (R352). -/

/-- The offsets listed in two copies, ascending. -/
def listedOffs (a b : RegMap) : List Nat :=
  ((a ++ b).foldl (fun (m : SMap Unit) e => SMap.put m (e.1 / 32) ()) []).map (·.1)

/-- The change list from one copy to another: every register whose STG bits differ, with its new bits. -/
def changeList (a b : RegMap) : List (Nat × Nat) :=
  (listedOffs a b).filterMap (fun o => if stgWord a o = stgWord b o then none else some (o, stgWord b o))

/-- A change list as bytes. -/
def changeBytes (l : List (Nat × Nat)) : Bytes := l.flatMap (fun e => leBytes 4 e.1 ++ leBytes 4 e.2)

/-- The staged digest of a change list. -/
def stagedDigest (l : List (Nat × Nat)) : Nat := crc32c (changeBytes l)

/-- A copy with the entries of a change list applied. -/
def applyChanges (m : RegMap) (l : List (Nat × Nat)) : RegMap :=
  l.foldl (fun m e => (stgRows e.1).foldl (stageField e.1 e.2) m) m

/-- A change list in the parts that ORDER frames carry: at most 4,080 bytes each (R352). -/
def changeParts : Nat → List (Nat × Nat) → List (List (Nat × Nat))
  | 0, _ => []
  | n + 1, l => if l.length ≤ 510 then [l] else l.take 510 :: changeParts n (l.drop 510)

/-- What the registers show of the staged copy: dirty and the change count (R358). -/
def State.restage (s : State) : State :=
  let n := (changeList s.hop.active s.hop.staged).length
  (s.wrb F.HOPPER_STATUS_dirty (n != 0)).wr F.HOPPER_CHANGES_count n

/-- A staged copy replaces the present one. -/
def State.setStaged (s : State) (m : RegMap) : State :=
  let s : State := { s with hop := { s.hop with staged := m } }
  s.restage

/-- A staging write of one register, dropped on a module that is not active (R347). -/
def State.stageBar0 (s : State) (off v : Nat) : State :=
  if stgRows off = [] then s
  else if s.isActive then s.setStaged (stageWord s.hop.staged off v)
  else s.wr F.HOPPER_STATUS_stage_refused 1

/-! The committed seal (R357). -/

/-- Every offset that holds STG fields, slot policies at their pseudo-offsets, ascending. -/
def stgOffs : List Nat := ((upTo 0x140000).map (4 * ·)).filter (fun o => stgRows o != [])

/-- The image seal of a program slot's copy, 0 for an empty slot. -/
def progSeal (progs : SMap Bytes) (slot : Nat) : Nat :=
  match SMap.find progs slot with
  | some b => leNat (b.drop (b.length - 4))
  | none => 0

/-- A committed image without what no reset keeps: HOPPER_LEVEL 0 (R363). -/
def levelZero (m : RegMap) : RegMap := RegMap.set m F.HOPPER_LEVEL_level 0

/-- The committed seal of an active copy and its programs. -/
def committedSeal (m : RegMap) (progs : SMap Bytes) : Nat :=
  crc32c (stgOffs.flatMap (fun o => leBytes 4 (stgWord (levelZero m) o)) ++
    (upTo 16).flatMap (fun p => leBytes 4 (progSeal progs p)))

/-! Kinds of a commit (R29, R123, R152, R362). -/

/-- Do two copies differ in the registers that a test picks? -/
def differIn (a b : RegMap) (p : Nat → Bool) : Bool := (changeList a b).any (fun e => p e.1)

/-- A retiming commit (R29). -/
def retimes (a b : RegMap) : Bool := differIn a b (fun o => decide (0x4000 ≤ o) && decide (o < 0x4010))

/-- A commit that changes the behaviour level (R362). -/
def relevels (a b : RegMap) : Bool := RegMap.get a F.HOPPER_LEVEL_level != RegMap.get b F.HOPPER_LEVEL_level

/-- The program slots whose staged copy a commit makes active. -/
def progActs (m : RegMap) : List Nat := bitsSet 16 (RegMap.get m F.HOPPER_PROG_ACT_act)

/-- A program commit (R152): it changes a program slot's active copy or a task setting of R103. -/
def changesProgram (a b : RegMap) : Bool :=
  RegMap.get b F.HOPPER_PROG_ACT_act != 0 ||
    differIn a b (fun o => decide (0x4400 ≤ o) && decide (o < 0x4600) && (o % 32 == 0 || o % 32 == 4))

/-- Does a key position permit a commit from one copy to another (R123, R124, R362)? -/
def keyPermits (key : Nat) (a b : RegMap) : Bool :=
  match key with
  | 0 => false
  | 1 => !retimes a b && !relevels a b && !changesProgram a b
  | 2 => !retimes a b && !relevels a b
  | _ => true

/-- The program images that a commit leaves active (R354, R165). -/
def progsAfter (m : RegMap) (active staged : SMap Bytes) : SMap Bytes :=
  (progActs m).foldl (fun a p => match SMap.find staged p with
    | some b => SMap.put a p b
    | none => a) active

/-! Staging by command (R331, R346). -/

/-- STAGE_REGS: every offset a register with STG fields. -/
def State.stageRegs (s : State) (c : HostCmd) : State :=
  let n := opAt c 24 4
  if n < 1 || 65536 < n || !bufOk c (8 * n) then s.deny c 4
  else s.moveBuf c 0 (8 * n) (fun s =>
    let es := pairsOf c.data n
    match firstBad es (fun e => e.1 % 4 == 0 && decide (e.1 < 0x100000) && stgRows (s.mapOff e.1) != []) with
    | some i => s.complete c 4 0 0 i
    | none =>
      (s.setStaged (es.foldl (fun m e => stageWord m (s.mapOff e.1) e.2) s.hop.staged)).complete c 0 0 0 0)

/-- STAGE_SLOTS: the four policy words of each slot of a run. -/
def State.stageSlots (s : State) (c : HostCmd) : State :=
  let first := opAt c 24 4
  let n := opAt c 28 4
  if n < 1 || 65536 < n || 262144 < first + n || !bufOk c (16 * n) then s.deny c 4
  else s.moveBuf c 0 (16 * n) (fun s =>
    let m := (upTo (4 * n)).foldl (fun m i =>
      stageWord m (slotPolBase + 16 * first + 4 * i) (leAt c.data (4 * i) 4)) s.hop.staged
    (s.setStaged m).complete c 0 0 0 0)

/-- DISCARD (R348): the staged copy returns to the active values. -/
def State.discard (s : State) (c : HostCmd) : State :=
  let m := RegMap.set s.hop.active F.HOPPER_PROG_ACT_act 0
  (s.setStaged m).complete c 0 0 0 0

end Sys2Proof.Machine
end

