-- ==== Sys2Proof/Machine/Slack.lean ====
section
/-! DEFINITION. The slack meter, slips and the core voltage (R38 to R43). -/

namespace Sys2Proof.Machine

/-- Set the core voltage and its level bits (R40, R47). -/
def State.setVcore (s : State) (mv : Nat) : State :=
  ((s.wr F.VCORE_STATUS_vcore_mv mv).wrb F.VCORE_STATUS_at_floor (mv == 600)).wrb F.VCORE_STATUS_at_ceiling (mv == 850)

/-- The smaller of a slack and the least so far. -/
def minSlack (a : Option Nat) (x : Nat) : Option Nat :=
  match a with
  | none => some x
  | some y => some (min x y)

/-- Note a slack for the regulator and the health record (R40, R284). -/
def State.noteSlack (s : State) (ns : Nat) : State :=
  { s with turn := { s.turn with leastSlack := minSlack s.turn.leastSlack ns,
                                 healthSlack := minSlack s.turn.healthSlack ns } }

/-- A slip: the regulator sets 0.85 V at once (R40), the interval and the health record note it. -/
def State.noteSlip (s : State) : State :=
  let s := (s.setVcore 850).noteSlack 0
  { s with turn := { s.turn with slipSeen := true, healthSlips := s.turn.healthSlips + 1 } }

/-- Slack from an instant to now, in whole ns rounded down, at most 0xFFFFFFFE (R38). -/
def State.slackTo (s : State) (endU : Nat) : Nat := min ((endU - s.time.work) / unitNs) 0xFFFFFFFE

/-- The wheel deadline of sample k, in units of working time (R34). -/
def State.deadlineU (s : State) (k : Nat) : Nat := s.boundaryU (k + s.nTurns - 1) + s.releaseNs * unitNs

/-- Does a slack set a warning (R39)? -/
def State.warns (s : State) (ns : Nat) : Bool := s.act F.SLACK_WARN_warn_ns != 0 && decide (ns < s.act F.SLACK_WARN_warn_ns)

/-- A wheel group's slack (R38, R39). -/
def State.wheelSlack (s : State) (g ns : Nat) : State :=
  let s := (s.wr (F.SLACK_WHEEL_LAST_slack_ns g) ns).wr (F.SLACK_WHEEL_MIN_slack_ns g)
    (min (s.rd (F.SLACK_WHEEL_MIN_slack_ns g)) ns)
  let s := (s.wr (F.SLIP_WHEEL_last_slipped g) 0).noteSlack ns
  if s.warns ns then
    let was := bitOf (s.rd F.SLACK_FLAGS_wheel_warn) g
    let s := s.wr F.SLACK_FLAGS_wheel_warn (setBit (s.rd F.SLACK_FLAGS_wheel_warn) g true)
    if was then s else s.raiseSource (48 + g) (s.rawWord 0x4050) (s.rd (F.SLACK_WHEEL_LAST_slack_ns g))
  else s

/-- A wheel group slips (R41, R43): counted, its event raised; a second in a row is a self-diagnosed fault. -/
def State.wheelSlip (s : State) (g m : Nat) : State :=
  let run := SMap.getD s.turn.groups g 0 + 1
  let s := (s.inc (F.SLIP_WHEEL_slips g)).wr (F.SLIP_WHEEL_last_slipped g) 1
  let s := (s.wr (F.SLACK_WHEEL_LAST_slack_ns g) 0).wr (F.SLACK_WHEEL_MIN_slack_ns g) 0
  let s := s.noteSlip
  let r := s.relRec m
  let s := s.setRel m { r with wheelSlips := setBit r.wheelSlips g true }
  let s : State := { s with turn := { s.turn with groups := SMap.put s.turn.groups g run } }
  let s := s.raiseSource (48 + g) (s.rawWord 0x4050) (s.rd (F.SLACK_WHEEL_LAST_slack_ns g))
  if 2 ≤ run then s.selfFault 3 0 g else s

/-- A task's slack (R38, R39). -/
def State.taskSlack (s : State) (t ns : Nat) : State :=
  let s := (s.wr (F.SLACK_TASK_LAST_slack_ns t) ns).wr (F.SLACK_TASK_MIN_slack_ns t)
    (min (s.rd (F.SLACK_TASK_MIN_slack_ns t)) ns)
  let s := (s.wr (F.SLIP_TASK_last_slipped t) 0).noteSlack ns
  if s.warns ns then
    let was := bitOf (s.rd F.SLACK_FLAGS_task_warn) t
    let s := s.wr F.SLACK_FLAGS_task_warn (setBit (s.rd F.SLACK_FLAGS_task_warn) t true)
    if was then s else s.raiseSource (32 + t) (s.taskEvtBits t) (s.rd (F.SLACK_TASK_LAST_slack_ns t))
  else s

/-- The wheel group of a loop (R170). -/
def groupOf (l : Nat) : Nat := l % 128 / 16

end Sys2Proof.Machine
end

