-- ==== Sys2Proof/Machine/TaskOps.lean ====
section
/-! DEFINITION. Task instances: their start, their strands and spindles, their end, traps and overrun stop
(chapters 05 and 06). -/

namespace Sys2Proof.Machine

/-- A task. -/
def State.task (s : State) (t : Nat) : TaskSt := SMap.getD s.tasks.task t TaskSt.fresh
/-- The state with a task written. -/
def State.setTask (s : State) (t : Nat) (x : TaskSt) : State :=
  { s with tasks := { s.tasks with task := SMap.put s.tasks.task t x } }
/-- The state with a task's instance written. -/
def State.setInst (s : State) (t : Nat) (i : TaskInst) : State := s.setTask t { s.task t with inst := some i }

/-- A word of a task's data as its committed instances leave it: a word never written holds its initial value. -/
def dataWord (b : Bytes) (d : SMap Word36) (a : Nat) : Word36 := (SMap.find d a).getD (progInit b a)

/-- The spindles of a task's strands under a configuration: the set bits of its mask, from bit 0 (R104). -/
def spindlesIn (m : RegMap) (t : Nat) : List Nat := bitsSet 32 (RegMap.get m (F.TASK_SPINDLES_mask t))

/-- A node of a loop as LPR returns it (R132). -/
def LoopNodes.lpr (n : LoopNodes) (i : Nat) : Int :=
  match i with
  | 0 => (n.status : Int)
  | 1 => n.r
  | 2 => n.target
  | 3 => n.y
  | 4 => n.u
  | 5 => n.i
  | 6 => (n.mode : Int)
  | _ => n.manual

/-- The loop nodes that a program's input view copies (R132): key loop × 8 + node. -/
def State.viewNodes (s : State) (b : Bytes) : SMap Int :=
  SMap.puts [] ((progLoops b).filter (fun e => e.2.1) |>.flatMap (fun e =>
    (upTo 8).map (fun i => (e.1 * 8 + i, (s.loopShown e.1).lpr i))))

/-- The slots that a program's input view copies (R53, R129). -/
def State.viewSlots (s : State) (b : Bytes) : SMap Entry :=
  SMap.puts [] ((progReads b).map (fun n => (n, s.slotNow n)))

/-- The messages that a program's MBR reads (R133): the snapshots of the latest boundary, its own or the active's, with
their numbers. Key channel × 64 + buffer. -/
def State.viewMsgs (s : State) (b : Bytes) : SMap (Option (List Word36 × Nat)) :=
  SMap.puts [] ((progMills b).filter (fun e => !e.2.2.1) |>.map (fun e =>
    let key := e.1 * 64 + e.2.1
    (key, (SMap.find s.tasks.millSnap key).bind (fun x => x.2.map (fun w => (w, x.1))))))

/-- The program that an instance of a sample runs: the old one until the task's switch (R31, R156). -/
def State.progFor (s : State) (t k : Nat) : Option Bytes :=
  let x := s.task t
  match x.switchAt, x.oldProg with
  | some b, some old => if k < b then some old else s.taskProg t
  | _, _ => s.taskProg t

/-- The copy of the input view begins (R53, R105). -/
def State.beginCopy (s : State) (t : Nat) (i : TaskInst) : State :=
  s.setInst t { i with phase := .copying, view := s.viewSlots i.prog, nodes := s.viewNodes i.prog }

/-- An instance of a task starts: its carry first, where its switch has come (R159), else its view copy (R105). -/
def State.startInst (s : State) (t : Nat) (d : DueInst) : State :=
  let x := s.task t
  let m := s.configAt d.sample
  match s.progFor t d.sample with
  | none => s
  | some b =>
    let carry := match x.switchAt with
      | some bt => decide (bt ≤ d.sample)
      | none => false
    let first := x.first || carry
    let i : TaskInst :=
      { prog := b, sample := d.sample, period := 2 ^ RegMap.get m (F.TASK_CTRL_rate_n t), first := first,
        prevSlip := !first && x.prevSlip, phase := .carry, view := [], nodes := [], mbr := d.mbr, out := [],
        data := [], loopWrites := [], mbq := [], spindles := spindlesIn m t, strands := [], carry := none }
    let s := s.setTask t { x with inst := some i, first := false, ran := true }
    let s := if first then s.taskEvt t 4 else s
    if carry then s.setTask t { s.task t with slipRun := 0, prevSlip := false } else s.beginCopy t i

/-- The next waiting instance of a task starts, once none runs (R42). -/
def State.nextWaiting (s : State) (t : Nat) : State :=
  let x := s.task t
  match x.inst, x.waiting with
  | none, d :: ds => (s.setTask t { x with waiting := ds }).startInst t d
  | _, _ => s

/-! Spindles (R106). -/

/-- The strand of an instance that a spindle carries and that waits in its queue. -/
def TaskInst.queuedOn (i : TaskInst) (sp : Nat) : Option Nat :=
  if i.phase != .running then none
  else
    let j := i.spindles.idxOf sp
    match i.strands[j]? with
    | some x => if x.phase == .queued then some j else none
    | none => none

/-- The instance with one strand replaced. -/
def TaskInst.setStrand (i : TaskInst) (j : Nat) (x : Strand) : TaskInst := { i with strands := i.strands.set j x }

/-- An idle spindle takes the queued strand of the lowest-numbered task (R106). -/
def State.takeStrand (s : State) (sp : Nat) : State :=
  if SMap.has s.tasks.spindle sp then s
  else
    match (upTo 16).findSome? (fun t => (s.task t).inst.bind (fun i => (i.queuedOn sp).map (fun j => (t, i, j)))) with
    | none => s
    | some (t, i, j) =>
      let x := (i.strands[j]?).getD Strand.start
      let s := s.setInst t (i.setStrand j { x with phase := .running })
      { s with tasks := { s.tasks with spindle := SMap.put s.tasks.spindle sp (t * 8 + j) } }

/-- Every idle spindle takes its next strand. -/
def State.dispatchSpindles (s : State) : State := (upTo 32).foldl State.takeStrand s

/-- The spindles of a task's strands become free. -/
def State.freeSpindles (s : State) (t : Nat) : State :=
  { s with tasks := { s.tasks with spindle := s.tasks.spindle.filter (fun e => e.2 / 8 != t) } }

/-! Records (R115, R143). -/

/-- The turn of the release instant of a task's sample under the settings of that sample (R35). -/
def State.taskRel (s : State) (t k : Nat) : Nat :=
  s.relTurn k (2 ^ RegMap.get (s.configAt k) (F.TASK_CTRL_rate_n t))

/-- Send the completion record of an instance (R115, R143). [log 31 DEDUCED] -/
def State.sendCompletion (s : State) (t k code pc : Nat) : State :=
  if s.isStandby || s.plyState == 2 then
    s.sendPly 0x45 k (beBytes 1 t ++ beBytes 1 code ++ beBytes 2 pc ++ beBytes 4 (s.workNs % 1000000000))
  else s

/-- Keep the entries of a map from a sample on. -/
def keepFrom {α : Type} (m : SMap α) (k : Nat) : SMap α := m.filter (fun e => decide (k ≤ e.1))

/-- A strand of task t traps (R142): the instance ends without committing. [log 32 DEDUCED] -/
def State.trapInst (s : State) (t : Nat) (info : TrapInfo) : State :=
  let x := s.task t
  match x.inst with
  | none => s
  | some i =>
    let k := i.sample
    let s := ((s.wr (F.TRAP_INFO_code t) info.code).wr (F.TRAP_INFO_strand t) info.strand).wr
      (F.TRAP_INFO_user t) info.user
    let s := ((s.wr (F.TRAP_PC_pc t) info.pc).wr (F.TRAP_TURN_LO_turn t) (k % 2 ^ 32)).wr
      (F.TRAP_TURN_HI_turn t) (k >>> 32)
    let s := s.setTask t { x with inst := none, slipRun := 0, prevSlip := false, trap := some ⟨k, some info⟩,
                                  ownTraps := SMap.put (keepFrom x.ownTraps (k - 64 * i.period)) k info.code }
    let s := s.freeSpindles t
    let s := s.taskEvt t 2
    let s := s.sendCompletion t k info.code info.pc
    (s.nextWaiting t).dispatchSpindles

/-! Overrun stop and trap actions (R116, R144). -/

/-- The task that caused the latest overrun stop or local abdication (R126). -/
def State.blame (s : State) (t : Nat) : State := (s.wr F.TASK_RUN_overrun_task t).wr F.TASK_RUN_overrun_valid 1

/-- Every enabled task that runs stops starting instances (R116, R125). -/
def State.haltTasks (s : State) : State :=
  s.enabledTasks.foldl (fun s t =>
    let x := s.task t
    if x.started && !x.trapped then s.taskEvt t 3 else s) s

/-- Enter overrun stop for task t, braking from the release of turn m (R116); TASK_EVT shows a trap in place of an
overrun. A second cause in the same turn leaves the lower-numbered task recorded (R144). -/
def State.overrunStop (s : State) (t : Nat) (trap : Bool) (m : Nat) : State :=
  let s := if trap then s.taskEvt t 2 else (s.wr (F.TASK_STATUS_overran t) 1).taskEvt t 1
  if s.rd F.TASK_RUN_run_state == 3 then
    if s.tasks.overrunFrom == some m && t < s.rd F.TASK_RUN_overrun_task then s.blame t else s
  else
    let s := s.blame t
    let s := s.haltTasks
    let s := s.wr F.TASK_RUN_run_state 3
    { s with tasks := { s.tasks with
        overrunFrom := some m
        task := s.tasks.task.map (fun e => (e.1, { e.2 with waiting := [] })) } }

/-- The trap action of a task's program (R144): true is STOP. -/
def State.trapStops (s : State) (t : Nat) : Bool :=
  match s.taskProg t with
  | some b => progTrapAction b == 1
  | none => false

/-- HALT of R144: the task enters the trapped state; an instance that its partner alone trapped in ends (R143).
[log 32 DEDUCED] -/
def State.haltTrapped (s : State) (t : Nat) : State :=
  let x := s.task t
  let s := if x.inst.isSome then s.freeSpindles t else s
  (s.setTask t { x with trapped := true, waiting := [], inst := none }).taskEvt t 3

/-- The layout that a task's data stands in: the old program until its carry (R164). -/
def State.dataProg (s : State) (t : Nat) : Option Bytes :=
  match (s.task t).oldProg with
  | some b => some b
  | none => s.taskProg t

/-- A task's data as it starts anew: its retained variables stay, every other word takes its initial value
(R113, R144), in the layout that they stand in (R164). [log 34 DEDUCED] -/
def State.retainedOnly (s : State) (t : Nat) (d : SMap Word36) : SMap Word36 :=
  match s.dataProg t with
  | some b => d.filter (fun e => decide (e.1 < progRetained b))
  | none => []

/-- Is the behaviour level that a task's program declares committed (R363)? -/
def State.levelOk (s : State) (t : Nat) : Bool :=
  match s.taskProg t with
  | some b => decide (progLevel b ≤ s.act F.HOPPER_LEVEL_level)
  | none => true

/-- A task starts (R113, R114, R125, R363): it may start instances from a boundary on, and its run of slips is reset
(R43). -/
def State.startTask (s : State) (t k : Nat) : State :=
  let x := s.task t
  if !s.aon (F.TASK_CTRL_enable t) || x.trapped || !s.levelOk t then s
  else s.setTask t { x with started := true, notBefore := k, first := true, slipRun := 0, prevSlip := false }

/-- May task t start an instance of boundary k (R103, R105, R113, R116, R125, R157)? -/
def State.taskDue (s : State) (t k : Nat) : Bool :=
  let x := s.task t
  s.aon (F.TASK_CTRL_enable t) && k % s.taskP t == 0 && x.started && decide (x.notBefore ≤ k) && !x.trapped &&
    s.rd F.TASK_RUN_run_state == 1 && (match x.switchAt with
      | some b => decide (b ≤ k)
      | none => true)

/-- The instance of task t due at boundary k becomes ready at the input cut-off (R105, R42). -/
def State.readyTask (s : State) (t k : Nat) : State :=
  if !s.taskDue t k then s
  else
    match s.taskProg t with
    | none => s
    | some b =>
      let d : DueInst := ⟨k, s.viewMsgs b⟩
      let x := s.task t
      let s := s.setTask t { x with lastDue := some k }
      if x.inst.isSome || !x.waiting.isEmpty then s.setTask t { s.task t with waiting := x.waiting ++ [d] }
      else s.startInst t d

/-! Retained variables (R110 to R112, R164). -/

/-- What a flush writes: per task, the program identity and the retained words as last committed (R111, R164). -/
def State.retainNow (s : State) : SMap (Nat × List Word36) :=
  (upTo 16).filterMap (fun t => (s.dataProg t).map (fun b =>
    (t, (progIdent b, (upTo (progRetained b)).map (dataWord b (s.task t).data)))))

/-- The older of the two MRAM copies (R111). -/
def State.olderCopy (s : State) : Nat :=
  match SMap.find s.tasks.retain 0, SMap.find s.tasks.retain 1 with
  | none, _ => 0
  | some _, none => 1
  | some a, some b => if !a.good then 0 else if !b.good then 1 else if a.serial ≤ b.serial then 0 else 1

/-- A flush begins to overwrite the older copy, unless one runs, or the copies still wait to be restored (R111, R112,
R315). [log 114 DEDUCED] -/
def State.startFlush (s : State) : State :=
  if s.tasks.flushing.isSome || s.tasks.restoreDue || !s.pd .brake || !s.pd .miller || !s.pd .bins then s
  else
    let c := s.olderCopy
    let n := s.tasks.flushSerial + 1
    { s with tasks := { s.tasks with
      flushing := some c, flushSerial := n,
      retain := SMap.put s.tasks.retain c ⟨false, n, s.retainNow⟩ } }

/-- The extra flush that RETAIN_CTRL or a carry asked for starts at this boundary, once no other runs (R111, R164). -/
def State.extraFlush (s : State) : State :=
  if !s.tasks.flushWanted || s.tasks.flushing.isSome then s
  else
    let s := s.startFlush
    { s with tasks := { s.tasks with flushWanted := false } }

end Sys2Proof.Machine
end

