-- ==== Sys2Proof/Machine/MillOps.lean ====
section
/-! DEFINITION. The buffers of the mill-bus channels (chapter 16). -/

namespace Sys2Proof.Machine

/-- A mill-bus channel. -/
def State.millCh (s : State) (ch : Nat) : MillChan := SMap.getD s.mill ch MillChan.idle
/-- The state with a channel written. -/
def State.setMillCh (s : State) (ch : Nat) (c : MillChan) : State := { s with mill := SMap.put s.mill ch c }
/-- A message buffer. -/
def State.millBuf (s : State) (ch b : Nat) : MillBuf := SMap.getD (s.millCh ch).bufs b MillBuf.empty
/-- The state with a buffer written. -/
def State.setMillBuf (s : State) (ch b : Nat) (x : MillBuf) : State :=
  let c := s.millCh ch
  s.setMillCh ch { c with bufs := SMap.put c.bufs b x }

/-- The newest message of a receive buffer, set aside by a read lock or not (R374). -/
def MillBuf.newest (x : MillBuf) : Option MillMsg := x.aside.or x.msg

/-- The role of a buffer (R371). -/
def State.millRole (s : State) (ch b : Nat) : Nat := s.act (F.MB_BUF_CFG_role ch b)

/-- The identifier of a descriptor, as MB_BUF_ID holds it: identifier, plus 2^29 with IDE (R133, R388). -/
def wordsIdent (words : List Word36) : Nat := ((words[0]?).getD 0).toNat % 2 ^ 30

/-- The payload length of a descriptor. -/
def wordsLen (words : List Word36) : Nat := ((words[1]?).getD 0).toNat

/-- The identifier that MB_BUF_ID allows to a transmit buffer, plus 2^29 with IDE. -/
def State.bufIdent (s : State) (ch b : Nat) : Nat :=
  s.act (F.MB_BUF_ID_id ch b) + 2 ^ 29 * s.act (F.MB_BUF_ID_ide ch b)

/-- The payload length of a DLC (R367). -/
def dlcBytes (fd : Bool) (code : Nat) : Nat :=
  if fd then (([0, 1, 2, 3, 4, 5, 6, 7, 8, 12, 16, 20, 24, 32, 48, 64] : List Nat)[code]?).getD 0 else min code 8

/-- Is a message longer than a role-4 buffer sends (R379)? -/
def State.tooLong (s : State) (ch b : Nat) (words : List Word36) : Bool :=
  s.millRole ch b == 4 &&
    decide (dlcBytes (s.aon (F.MB_BUF_TT_fd ch b)) (s.act (F.MB_BUF_TT_len_code ch b)) < wordsLen words)

/-- A message enters a transmit buffer and becomes pending; one already pending is replaced and counted (R377). A
message longer than the buffer sends, or with another identifier, is refused (R379, R388). [log 73 DEDUCED] -/
def State.millEnter (s : State) (ch b : Nat) (words : List Word36) : State :=
  let role := s.millRole ch b
  if !s.pd .hostsvc || role < 2 || 4 < role || wordsIdent words != s.bufIdent ch b then s
  else if s.tooLong ch b words then s.wr (F.MB_BUF_STATUS_too_long ch b) 1
  else
    let was := s.on (F.MB_BUF_STATUS_pending ch b)
    let c := s.millCh ch
    let s := s.setMillCh ch { c with serial := c.serial + 1 }
    let s := s.setMillBuf ch b { s.millBuf ch b with msg := some ⟨words, s.time.work, c.serial⟩ }
    let s := if was then s.inc (F.MB_BUF_STATUS_replaced ch b) else s
    let s := if !was && s.rd (F.MB_STATUS_state ch) == 3 then s.wr (F.MB_BUF_STATUS_held ch b) 1 else s
    ((s.wr (F.MB_BUF_STATUS_pending ch b) 1).wr (F.MB_BUF_STATUS_full ch b) 1).wr (F.MB_BUF_STATUS_too_long ch b) 0

/-- A receive buffer is read, by the host or by MBR (R373, R388). -/
def State.millRead (s : State) (ch b : Nat) : State :=
  let x := s.millBuf ch b
  let s := if x.read then s else s.setMillBuf ch b { x with read := true }
  s.wr (F.MB_BUF_STATUS_overrun ch b) 0

/-- Keep the contents of every receive buffer as of a boundary (R133, R373). [log 72 DEDUCED] -/
def State.millBoundary (s : State) : State :=
  { s with mill := s.mill.map (fun e =>
      (e.1, { e.2 with bufs := e.2.bufs.map (fun f => (f.1, { f.2 with atBoundary := f.2.newest })) })) }

/-- The bytes of a mill-bus descriptor, 8 bytes a word (R272). -/
def descBytes (words : List Word36) : Bytes := words.flatMap (fun w => beBytes 8 w.toNat)

/-- The message of a buffer at the latest boundary becomes its snapshot, where it is newer than the one made before, and
the active sends it (R133). A buffer without one has none. [log 95 DEDUCED] -/
def State.makeSnap (s : State) (k i : Nat) : State :=
  let old := SMap.getD s.tasks.millSnap i (0, none)
  match (s.millBuf (i / 64) (i % 64)).atBoundary with
  | none => { s with tasks := { s.tasks with millSnap := SMap.put s.tasks.millSnap i (old.1, none) } }
  | some m =>
    if old.2.isSome && SMap.find s.tasks.millTaken i == some (m.words, m.stamp, m.serial) then s
    else
      let s : State := { s with tasks := { s.tasks with
        millSnap := SMap.put s.tasks.millSnap i (old.1 + 1, some m.words)
        millTaken := SMap.put s.tasks.millTaken i (m.words, m.stamp, m.serial) } }
      if s.plyState == 2 then s.sendPly 0x46 k (beBytes 1 (i / 64) ++ beBytes 1 (i % 64) ++ descBytes m.words) else s

/-- Does the module make the snapshots of receive buffers itself, where a standby, joining or untracked one takes its
partner's (R133, R375)? -/
def State.snapsOwn (s : State) : Bool := !(s.isStandby || s.plyState == 3 || s.plyState == 5)

/-- The snapshots that the instances of boundary k and the mapped slots read (R133, R375), but in a module that takes its
partner's. -/
def State.sendSnaps (s : State) (k : Nat) : State :=
  if !s.snapsOwn then s
  else
    let tasks := s.enabledTasks.filter (fun t => k % s.taskP t == 0)
    let read := tasks.flatMap (fun t => match s.taskProg t with
      | some b => (progMills b).filterMap (fun e => if e.2.2.1 then none else some (e.1 * 64 + e.2.1))
      | none => [])
    let mapped := s.mill.flatMap (fun e => e.2.bufs.filterMap (fun f =>
      if f.2.mapped.isSome then some (e.1 * 64 + f.1) else none))
    let keys := (upTo 128).filter (fun i => read.contains i || mapped.contains i)
    keys.foldl (fun s i => s.makeSnap k i) s

/-- The payload bytes of a descriptor (R133). -/
def wordsBytes (words : List Word36) : Bytes :=
  ((words.drop 2).flatMap (fun w => beBytes 4 w.toNat)).take (wordsLen words)

/-- The value that a mapped frame gives its slot, none where it is too short (R375). -/
def State.mapValue (s : State) (ch b : Nat) (data : Bytes) : Option Sample :=
  let off := s.act (F.MB_BUF_CFG_map_off ch b)
  match s.act (F.MB_BUF_CFG_map_fmt ch b) with
  | 0 => if data.length < off + 2 then none else some (sampleOf (4 * sextNat 16 (beAt data off 2)))
  | 1 => if data.length < off + 2 then none else some (BitVec.ofNat 18 (2 * beAt data off 2))
  | _ => if data.length < off + 1 then none else some (sampleOf (1024 * sextNat 8 (byteAt data off)))

end Sys2Proof.Machine
end

