-- ==== Sys2Proof/Machine/TurnOps.lean ====
section
/-! DEFINITION. What a boundary, an input cut-off and a release instant are made of (chapters 02 to 05). -/

namespace Sys2Proof.Machine

/-- A Skein position before any traffic. -/
def SkeinPos.idle : SkeinPos := { inRun := 0, rtts := [], sent := none, owesAnswer := false }

/-- A station's position. -/
def State.posn (s : State) (n : Nat) : SkeinPos := SMap.getD s.skein.pos n SkeinPos.idle
/-- The state with it written. -/
def State.setPosn (s : State) (n : Nat) (x : SkeinPos) : State :=
  { s with skein := { s.skein with pos := SMap.put s.skein.pos n x } }

/-! The boundary (R27, R76, R77, R98, R323). -/

/-- The control blocks of a port at boundary k (R76, R77): TURN_MARK at a launch offset that the lane leaves open
(R35), then COUNT or one ECHO_REQ. [log 29 DESIGN CHOICE] -/
def State.boundaryBlocks (s : State) (k p : Nat) : State :=
  if !s.skUp p then s
  else
    let f := s.free
    let offset := f.1 % 656
    let s := f.2
    let arg := k % 64 * 1024 + offset
    let s := s.emit (.skeinBlock p 1 (arg / 256) (arg % 256))
    if k % 16 = 0 then s.emit (.skeinBlock p 4 0 0)
    else
      let n := (s.portStations p).length
      let x := s.port p
      if !s.on (F.SK_CTRL_echo_en p) || n == 0 || s.plyState == 6 then s
      else
        let i := x.echoPos % n
        let s := s.emit (.skeinBlock p 2 i x.echoSeq)
        s.setPort p { x with echoPos := (i + 1) % n, echoSeq := (x.echoSeq + 1) % 256,
                             echoOut := (i, x.echoSeq) ::
                               x.echoOut.filter (fun q => q.2 != x.echoSeq) }

/-- The turn that ends counts whether each port heard the far end's TURN_MARK in it (R98). -/
def State.countMarks (s : State) (p : Nat) : State :=
  if !s.skHears p then s
  else
    let x := s.port p
    s.setPort p (if x.markSeen then { x with markSeen := false, marksMissing := 0, marksRun := x.marksRun + 1 }
      else { x with marksMissing := x.marksMissing + 1, marksRun := 0 })

/-- A doorbell read starts at a due boundary, or is skipped while one runs (R323), once DB_ADDR has been written (R342); the
link leaves L1 for it (R321). -/
def State.doorbellStart (s : State) (k : Nat) : State :=
  let due := k % min 1000 (max 1 (s.rd F.HOST_CTRL_db_interval)) == 0
  if due && s.on F.HOST_CTRL_enable && s.dmaOk && s.pd .miller && s.host.millerUp && !s.host.halted && SMap.has s.host.addrs 0x2010 then
    if s.host.reading then s.inc F.HOST_STATUS_skipped
    else ({ s with host := { s.host with reading := true } } : State).wr F.HOST_STATUS_l1 0
  else s

/-! The input cut-off (R33, R56, R34, R105, R226). -/

/-- A Skein frame read by its layout (R78). -/
structure SkFrame where
  type : Nat
  station : Nat
  flags : Nat
  epoch : Nat
  alive : Nat
  len : Nat
  turn : Nat
  payload : Bytes
  deriving DecidableEq, Repr

/-- The fields of a frame (R78). -/
def readSkein (b : Bytes) : SkFrame :=
  { type := byteAt b 0, station := byteAt b 1, flags := byteAt b 2 / 16, epoch := beAt b 2 4 % 2 ^ 28,
    alive := beAt b 6 2, len := beAt b 8 2, turn := beAt b 12 8, payload := (b.drop 32).take (b.length - 36) }

/-- The samples of a counted INPUT frame enter the image (R53, R80, R96). [log 39 DEDUCED] -/
def State.storeInput (s : State) (n : Nat) (f : SkFrame) : State :=
  let c := s.act (F.STATION_MAP_0_in_samples n)
  (s.slotsOf 1 n).foldl (fun s x =>
    let i := s.act (F.SLOT_POL_SRC_index x)
    if i < c then s.takeInput x (unpackSample f.payload i) 0 false false (bitOf f.flags 2) else s) s

/-- A station due at the sample of which no frame has counted at its cut-off: another frame period is missed (R96). -/
def State.missRegs (s : State) (n : Nat) : State :=
  if s.image.got.contains n then s
  else
    let s := s.inc (F.SK_STN_STATE_missed (n / 16) (n % 16))
    s.setPosn n { s.posn n with inRun := 0 }

/-- A station due at the sample, at its cut-off (R56, R96): where no INPUT frame has counted, or the station is
not UP, its slots take their policy. -/
def State.missStation (s : State) (n : Nat) : State :=
  let s := if s.image.got.contains n && s.rd (F.SK_STN_STATE_state (n / 16) (n % 16)) == 3 then s
    else (s.slotsOf 1 n).foldl State.substitute s
  s.missRegs n

/-- The positions of port p that this end reached directly at the cut-off (R98, R102). [log 17 DEDUCED] -/
def State.reachedRegs (s : State) (p : Nat) : State :=
  s.wr (F.SK_STATUS_reached p)
    ((s.portStations p).filter (fun n =>
      s.on (F.SK_STN_STATE_direct p (n % 16)) && s.rd (F.SK_STN_STATE_missed p (n % 16)) == 0)).length

/-- Does a station's frame still brake after STOP: does it carry a sample before the boundary that left it (R125)? -/
def State.heldStation (s : State) (sample : Nat) : Bool :=
  match s.tasks.leftStop with
  | some b => decide (sample < b)
  | none => false

/-- Is output slot n of a station braked now: its port, until the first release instant that finds it no longer braked
(R309), or after STOP its station and then itself (R125)? -/
def State.outBraked (s : State) (n : Nat) : Bool :=
  let st := s.act (F.SLOT_POL_SRC_peer n)
  let p := s.stationP st
  s.portBraked (st / 16) || bitOf s.brake.held (st / 16) ||
    s.heldStation (s.turn.nextRel / p * p - s.nTurns * p) || s.heldSlot n

/-- The loops whose output is braked at the cut-off (R204). -/
def State.brakedLoops (s : State) (loops : List Nat) : List Nat :=
  loops.filter (fun l =>
    let n := s.act (F.LOOP_OUT_out_slot l)
    s.slotKind n == 4 && s.outBraked n)

/-- May the module run loops and tasks: every state but ABDICATED and a JOINING module whose copy is not yet in
place (R276, R297). [log 28 DEDUCED] -/
def State.computes (s : State) : Bool :=
  s.pd .spindle && s.pd .wheel && s.plyState != 6 && !(s.plyState == 3 && s.rd F.PLY_JOIN_phase < 5)

/-- The module's own publication of turn k, composed at phase c from its wheel view (R226, R227). -/
def State.composePub (s : State) (k : Nat) (view : SMap Entry) : State :=
  let pubs := s.published
  let due := k % 2 ^ s.act F.RING_CTRL_pub_rate_n == 0
  if pubs.isEmpty || !due || !(s.isActive || s.isStandby) then s
  else
    let es := pubs.map (fun e => (e.1, pubEntry e.1 (SMap.getD view e.2 Entry.coldEntry)))
    let parts := ceilDiv es.length 512
    let t := s.boundaryU k + s.cutoffNs * unitNs
    let period := 2 ^ s.act F.RING_CTRL_pub_rate_n * s.turnNs
    let ps : List PubPart := (upTo parts).map (fun i =>
      ⟨t, period, s.isActive, i, parts, ((es.drop (512 * i)).take 512).flatMap (fun e => beBytes 5 e.2)⟩)
    let r := s.relRec k
    let s := s.setRel k { r with pubs := SMap.puts r.pubs (es.map (fun e => (e.1, beBytes 5 e.2))) }
    if s.bypassed then s else { s with ring := { s.ring with launch := s.ring.launch ++ ps } }

/-- The slots of a station that a task's program or a loop reads in its view (R283). -/
def State.itemsReading (s : State) (k n : Nat) : List Nat :=
  let slots := s.slotsOf 1 n
  let tasks := s.enabledTasks.filter (fun t => k % s.taskP t == 0 && (match s.taskProg t with
    | some b => (progReads b).any slots.contains
    | none => false))
  let loops := s.enabledLoops.filter (fun l => k % s.loopP l == 0 &&
    [s.act (F.LOOP_MEAS_meas_slot l), s.act (F.LOOP_SP_sp_slot l), s.act (F.LOOP_FF_ff_slot l),
      s.act (F.LOOP_TRACK_track_slot l)].any slots.contains)
  tasks ++ loops.map loopItem

/-- The period of an item: a task or a loop (R35). -/
def State.itemP (s : State) (i : Nat) : Nat := if i < 16 then s.taskP i else s.loopP (i - 16)

/-- A split-input turn (R283): on a standby the items that read a station in the difference diverge, and the
releases that carry their results are not compared; the active owes their state. -/
def State.splitInput (s : State) (k : Nat) (diff : List Nat) : State :=
  let items := (diff.flatMap (s.itemsReading k)).eraseDups
  if s.plyState == 2 then
    { s with ply := { s.ply with owed := s.ply.owed ++ items.filter (fun i => !s.ply.owed.contains i) } }
  else if !s.isStandby || diff.isEmpty then s
  else
    let rels := items.map (fun i => s.relTurn k (s.itemP i))
    let keep := s.ply.diverged.filter (fun d => !items.contains d.1)
    let s : State := { s with ply := { s.ply with
      diverged := keep ++ items.map (fun i => (i, k, false)),
      restored := s.ply.restored.filter (fun e => !items.contains e.1), excluded := s.ply.excluded ++ rels } }
    if items.isEmpty then s else s.wr F.PLY_STATUS_diverged 1

/-- Both REACH sets of turn k are known (R99, R100, R283): what each partner lacks from the next turn on, the stations
that a standby may have to serve, and a split-input turn. [log 17 DEDUCED] -/
def State.compareReach (s : State) (k : Nat) : State :=
  match SMap.find s.ply.reachOwn k, SMap.find s.ply.reachFar k with
  | some own, some far =>
    let due := s.stations.filter (fun n => k % s.stationP n == 0)
    let got := SMap.getD s.ply.reachGot k own
    let farGot := due.filter (fun n => far.contains n || (own.contains n && s.skein.partnerLacks.contains n))
    let diff := due.filter (fun n => got.contains n != farGot.contains n)
    let lacks := due.filter (fun n => own.contains n && !far.contains n)
    let mine := due.filter (fun n => far.contains n && !own.contains n)
    let later := fun (l : List Nat) => l.filter (fun n => !due.contains n)
    let from_ := if !s.isStandby then []
      else lacks.foldl (fun (m : SMap Nat) n => if SMap.has m n then m else SMap.put m n k)
        (s.skein.proxyFrom.filter (fun e => !due.contains e.1 || !far.contains e.1))
    let s : State := { s with
      skein := { s.skein with partnerLacks := later s.skein.partnerLacks ++ lacks,
                              lacksMe := later s.skein.lacksMe ++ mine, proxyFrom := from_ },
      ply := { s.ply with reachOwn := keepFrom s.ply.reachOwn (k + 1), reachGot := keepFrom s.ply.reachGot (k + 1),
                          reachFar := keepFrom s.ply.reachFar (k + 1) } }
    let s := (upTo 16).foldl (fun s p =>
      s.wrb (F.SK_STATUS_bridging p) (s.skein.partnerLacks.any (fun n => n / 16 == p))) s
    s.splitInput k diff
  | _, _ => s

/-- Send the REACH frame of turn k and keep what it said (R99, R283). [log 17 DEDUCED] -/
def State.sendReach (s : State) (k : Nat) : State :=
  let words := (upTo 16).map (fun p =>
    (s.skein.direct.filter (fun n => n / 16 == p)).foldl (fun a n => a ||| (1 <<< (n % 16))) 0)
  let s : State := { s with ply := { s.ply with
    reachOwn := SMap.put (keepFrom s.ply.reachOwn (k - 64)) k s.skein.direct,
    reachGot := SMap.put (keepFrom s.ply.reachGot (k - 64)) k s.image.got } }
  (s.sendPly 0x43 k (words.flatMap (fun w => beBytes 2 w))).compareReach k

/-! The release instant (R35, R41, R108, R115 to R118, R125, R307, R309). -/

/-- One item's results reach the latches, the loops and the mill-bus buffers at the release of turn m (R35, R173,
R377). -/
def State.applyHeld (s : State) (m : Nat) (h : Held) : State :=
  let latches := h.slots.foldl (fun ls e =>
    if h.sample < (SMap.getD ls e.1 ⟨e.2, 0⟩).sample then ls else SMap.put ls e.1 ⟨e.2, h.sample⟩) s.turn.latches
  let s : State := { s with turn := { s.turn with latches := latches } }
  let start := if s.releaseNs ≤ s.cutoffNs then m else m + 1
  let s := h.loopWrites.foldl (fun s e =>
    let x := s.loop e.1
    { s with loops := SMap.put s.loops e.1 { x with reqs := x.reqs ++ [{ e.2 with start := start }] } }) s
  h.mill.foldl (fun s e => s.millEnter (e.1 / 64) (e.1 % 64) e.2) s

/-- Every result whose release instant has come is released. -/
def State.applyRelease (s : State) (m : Nat) : State :=
  let due := s.turn.held.filter (fun h => decide (h.turn ≤ m))
  let s : State := { s with turn := { s.turn with held := s.turn.held.filter (fun h => decide (m < h.turn)) } }
  due.foldl (fun s h => s.applyHeld m h) s

/-- Loops resumed at a takeover whose next sample is released now end their resumption (R209). -/
def State.endResumed (s : State) (m : Nat) : State :=
  { s with loops := s.loops.map (fun e =>
      (e.1, match e.2.resumed with
        | some (_, some r) => if r ≤ m then { e.2 with resumed := none } else e.2
        | _ => e.2)) }

/-- Task t slips at the release of turn m (R41, R43, R108): counted, its event set, a second in a row an overrun. -/
def State.slipTask (s : State) (m t sample : Nat) : State :=
  let x := s.task t
  let run := x.slipRun + 1
  let s := (s.inc (F.SLIP_TASK_slips t)).wr (F.SLIP_TASK_last_slipped t) 1
  let s := (s.wr (F.SLACK_TASK_LAST_slack_ns t) 0).wr (F.SLACK_TASK_MIN_slack_ns t) 0
  let s := s.noteSlip
  let r := s.relRec m
  let s := s.setRel m { r with taskSlips := setBit r.taskSlips t true }
  let s := s.setTask t { x with slipRun := run, prevSlip := true,
                                lastSlip := some sample,
                                overrun := if run = 2 then some ⟨sample, none⟩ else x.overrun }
  s.taskEvt t 0

/-- The sample of task t that belongs to the release of turn m and has not completed. -/
def State.lateSample (s : State) (m t : Nat) : Option Nat :=
  let x := s.task t
  let run := match x.inst with
    | some i => if s.relTurn i.sample i.period = m then [i.sample] else []
    | none => []
  (run ++ ((x.waiting.map (·.sample)).filter (fun k => s.taskRel t k == m))).head?

/-- Every task slips whose work of this release is not complete. -/
def State.slipTasks (s : State) (m : Nat) : State :=
  (upTo 16).foldl (fun s t => match s.lateSample m t with
    | some k => s.slipTask m t k
    | none => s) s

/-- The frame of station n due at the release of turn m (R31, R35, R82): its latest sample released then and the
settings in force at that sample's boundary. [log 74 DEDUCED] -/
def State.dueFrame (s : State) (m n : Nat) : Option (Nat × RegMap) :=
  let rates := ((s.hop.active :: s.hop.before.map (·.2)).filter (fun c => RegMap.get c (F.STATION_MAP_0_present n) == 1)).map
    (fun c => RegMap.get c (F.STATION_MAP_0_rate_n n))
  let due := rates.eraseDups.filterMap (fun r =>
    let sample := m + 1 - s.nTurns * 2 ^ r
    let c := s.configAt sample
    if (m + 1) % 2 ^ r = 0 ∧ RegMap.get c (F.STATION_MAP_0_present n) = 1 ∧ RegMap.get c (F.STATION_MAP_0_rate_n n) = r then
      some (sample, c)
    else none)
  due.foldl (fun a e => match a with
    | none => some e
    | some x => if x.1 < e.1 then some e else some x) none

/-- The frame of a station at the release of turn m (R31, R35, R125, R307, R310). `was` are the ports braked before
this instant: a port braked at it has just had its BRAKE frames. [log 15 DEDUCED, 74 DEDUCED] -/
def State.releaseStation (s : State) (m was n : Nat) : State :=
  match s.dueFrame m n with
  | none => s
  | some (sample, c) =>
    match s.sendsAs n with
    | none => s
    | some (shadow, proxy) =>
      if s.portBraked (n / 16) then (if bitOf was (n / 16) then s.sendBrake n else s)
      else if s.heldStation sample then s.sendBrake n
      else if m + 1 < s.turn.kOrigin + s.nTurns * 2 ^ RegMap.get c (F.STATION_MAP_0_rate_n n) then s
      else
        let s := if s.plyState == 2 && !s.skein.direct.contains n && !s.skein.directPrev.contains n then
            s.sendPly 0x42 m (beBytes 1 n ++ [0, 0, 0] ++ s.outPayloadIn c n)
          else s
        if proxy then s
        else
          let u := s.boundaryU (m + 1) + s.phiNs * unitNs
          s.launchSkeinIn (RegMap.get c (F.STATION_MAP_1_holdoff n)) 2 n (bit shadow) s.epoch sample (u % unitSec / unitNs)
            (u % unitNs / 2 ^ 24) (s.outPayloadIn c n)

/-- A standby counts release instants without a DIGEST, and at the fourth leaves tracking (R281 code 2). -/
def State.countDigests (s : State) : State :=
  if !s.isStandby then s
  else
    let s := if 4 ≤ s.ply.noDigest && s.ply.hbMissed == 0 then s.leaveTracking 2 else s
    { s with ply := { s.ply with noDigest := s.ply.noDigest + 1 } }

/-- A release within 50 ns of a change of rows 0 to 7 on a standby (R311). -/
def State.noteSplit (s : State) (m : Nat) : State :=
  match s.brake.biChange with
  | some t =>
    if s.isStandby && s.workNs - t ≤ 50 then
      let s := (s.inc F.BRK_SPLIT_count).brkEvt 3
      { s with ply := { s.ply with split := m :: s.ply.split } }
    else s
  | none => s

/-- The stations that a release of turn m concerns. [log 33 DEDUCED] -/
def State.dueStations (s : State) (m : Nat) : List Nat :=
  ((s.hop.active :: s.hop.before.map (·.2)).flatMap presentIn).eraseDups.filter (fun n => (s.dueFrame m n).isSome)

end Sys2Proof.Machine
end

