-- ==== Sys2Proof/Machine/Online.lean ====
section
/-! DEFINITION. Carrying task data over at an on-line change (chapter 07). -/

namespace Sys2Proof.Machine

/-- The words that a carry copies: new address and old address (R160). [log 34 DEDUCED] -/
def carryWords (old new : Bytes) : List (Nat × Nat) :=
  (progVars new).flatMap (fun v =>
    match (progVars old).find? (fun o => o.key == v.key && o.type == v.type) with
    | some o => (upTo (min o.len v.len)).map (fun i => (v.first + i, o.first + i))
    | none => [])

/-- Entries carried, new, dropped and changed (R160). -/
def carryCounts (old new : Bytes) : Nat × Nat × Nat × Nat :=
  let os := progVars old
  let ns := progVars new
  let same := fun (v : ProgVar) => os.find? (fun o => o.key == v.key)
  let carried := ns.filter (fun v => (same v).any (fun o => o.type == v.type))
  let fresh := ns.filter (fun v => (same v).isNone)
  let dropped := os.filter (fun o => !(ns.any (fun v => v.key == o.key)))
  let changed := ns.filter (fun v => (same v).any (fun o => o.type != v.type || o.len != v.len))
  (carried.length, fresh.length, dropped.length, changed.length)

/-- The task's data in the new layout (R160, R161): carried words keep their bits, words whose old copy had an
uncorrectable error (R163) and every other word take their initial values. [log 34 DEDUCED] -/
def carriedData (old new : Bytes) (d : SMap Word36) (bad : List Nat) : SMap Word36 :=
  if progIdent old = progIdent new then d
  else
    SMap.puts [] ((carryWords old new).filterMap (fun e =>
      if bad.contains e.2 then none else some (e.1, dataWord old d e.2)))

/-- Record a carry in ONLINE_CARRY and ONLINE_WORDS (R169). -/
def State.carryRegs (s : State) (t : Nat) (n : Nat × Nat × Nat × Nat) (words : Nat) : State :=
  let s := ((s.wr (F.ONLINE_CARRY_carried t) (min n.1 255)).wr (F.ONLINE_CARRY_new t) (min n.2.1 255)).wr
    (F.ONLINE_CARRY_dropped t) (min n.2.2.1 255)
  let s := (s.wr (F.ONLINE_CARRY_changed t) (min n.2.2.2 63)).wr (F.ONLINE_CARRY_valid t) 1
  s.wr (F.ONLINE_WORDS_words t) words

/-- Task t has carried over: its pending bit falls, and the change is idle once no task is pending (R159, R169). -/
def State.carryDone (s : State) (t : Nat) : State :=
  let p := setBit (s.rd F.ONLINE_PENDING_pending) t false
  let s := s.wr F.ONLINE_PENDING_pending p
  if p = 0 && s.rd F.ONLINE_STATUS_state == 2 then s.wr F.ONLINE_STATUS_state 0 else s

/-- The carry of task t ends (R159 to R163): the new task data counts as committed, and an uncorrectable error in an old
word that it copied traps the instance with MEMORY at pc 0 of strand 0; else the input view copy begins. -/
def State.endCarry (s : State) (t : Nat) (i : TaskInst) (bad : List Nat) : State :=
  let x := s.task t
  let old := x.oldProg.getD i.prog
  let kept := progIdent old == progIdent i.prog
  let words := if kept then [] else carryWords old i.prog
  let hit := words.any (fun e => bad.contains e.2)
  let s := (s.saveTask i.sample t (upTo (progDataWords i.prog))).captureFull.setTask t { x with
    data := carriedData old i.prog x.data bad, oldProg := none, switchAt := none, inst := some { i with carry := none } }
  let s := s.carryRegs t (if kept then (0, 0, 0, 0) else carryCounts old i.prog) words.length
  let s := s.carryDone t
  let s : State := { s with tasks := { s.tasks with flushWanted := true } }
  if hit then s.trapInst t ⟨7, 0, 0, 0⟩ else s.beginCopy t { i with carry := none }

/-- ONLINE_CARRY (R159, R163): the first instance of the new settings starts its carry, with the old words that it finds
unreadable. -/
def execOnlineCarry (t : Fin 16) (eccWords : List (Fin 65536)) (s : State) : Host.Outcome State Fault Refusal :=
  let x := s.task t.val
  match x.inst with
  | none => ok s
  | some i =>
    match i.phase, x.switchAt with
    | .carry, some _ => ok (s.setInst t.val { i with carry := some (eccWords.map (·.val)) })
    | _, _ => ok s

/-- ONLINE_CARRY_DONE (R159, R163): the carry of an instance ends. -/
def execOnlineCarryDone (t : Fin 16) (s : State) : Host.Outcome State Fault Refusal :=
  match (s.task t.val).inst with
  | none => ok s
  | some i => match i.phase, i.carry with
    | .carry, some bad => ok (s.endCarry t.val i bad)
    | _, _ => ok s

/-! Retained variables at a cold start (R112, R164). -/

/-- The MRAM copies whose seal checks, the newer first. -/
def State.goodCopies (s : State) : List RetainCopy :=
  match (s.tasks.retain.map (·.2)).filter (·.good) with
  | [a, b] => if a.serial ≤ b.serial then [b, a] else [a, b]
  | l => l

/-- The retained words of a program, as a task's data. [log 34 DEDUCED] -/
def retainedData (words : List Word36) : SMap Word36 := SMap.puts [] (words.zipIdx.map (fun e => (e.2, e.1)))

/-- The retained words that a carry takes from an old layout into a new one (R160, R164). [log 34 DEDUCED] -/
def carriedRetained (old new : Bytes) (words : List Word36) : SMap Word36 :=
  let d := retainedData words
  let moves := (carryWords old new).filter (fun e => decide (e.1 < progRetained new) && decide (e.2 < progRetained old))
  SMap.puts [] (moves.map (fun e => (e.1, dataWord old d e.2)))

/-- What an MRAM copy gives task t, whose program is b, where it holds b's own layout. -/
def copyOwn (t : Nat) (b : Bytes) (c : RetainCopy) : Option (SMap Word36) :=
  match SMap.find c.tasks t with
  | none => none
  | some (ident, words) => if ident = progIdent b then some (retainedData words) else none

/-- What an MRAM copy gives task t where it holds the layout of the old program kept in the slot. -/
def State.copyKept (s : State) (t : Nat) (b : Bytes) (c : RetainCopy) : Option (SMap Word36) :=
  match SMap.find c.tasks t, taskProgIn s.hop.active s.progs.staged t with
  | some (ident, words), some old => if ident = progIdent old then some (carriedRetained old b words) else none
  | _, _ => none

/-- The retained variables of task t come back from the newer copy that checks for it, or start at their initial
values with flush_err and an event (R112, R164). -/
def State.restoreTask (s : State) (t : Nat) : State :=
  match s.taskProg t with
  | none => s
  | some b =>
    if progRetained b = 0 then s
    else
      match (s.goodCopies.findSome? (copyOwn t b)).or (s.goodCopies.findSome? (s.copyKept t b)) with
      | some d => s.setTask t { s.task t with data := d }
      | none => (s.wr F.RETAIN_STATUS_flush_err 1).taskEvt t 4

/-- A module that becomes lone after a cold start restores every task's retained variables (R112).
[log 81 DEDUCED, 114 DEDUCED] -/
def State.restoreRetained (s : State) : State :=
  if !s.tasks.restoreDue then s
  else
    let s : State := { s with tasks := { s.tasks with restoreDue := false } }
    (upTo 16).foldl State.restoreTask s

end Sys2Proof.Machine
end

