-- ==== Sys2Proof/Machine/TwistWord.lean ====
section
/-! DEFINITION. The words of Twist code: their fields, the encodings that are defined, and the word of each
instruction (R135 to R139). -/

namespace Sys2Proof.Machine

/-! Fields of a word (R135). -/

/-- Major opcode. -/
def wOp (w : Nat) : Nat := bitsOf w 35 30
/-- Field gd, gs, gc or gb of format Q. -/
def wGd (w : Nat) : Nat := bitsOf w 29 25
/-- Field ga, gi or gb of format M. -/
def wGa (w : Nat) : Nat := bitsOf w 24 20
/-- Forward offset of BR and BTAG. -/
def wOff (w : Nat) : Nat := bitsOf w 15 0
/-- Body length of LOOP. -/
def wLen (w : Nat) : Nat := bitsOf w 12 0
/-- Largest count of LOOP. -/
def wMax (w : Nat) : Nat := bitsOf w 24 13 + 1

/-- Does a word of the ALU group have a defined encoding (R136, R137)? -/
def aluOk (w : Nat) : Bool :=
  let fn := bitsOf w 14 9
  decide (fn ≤ 0x17) && bitsOf w 8 0 == 0 && (fn != 0x0D || wGd w == 0) &&
    (fn != 0x17 || (wGd w == 0 && wGa w == 0 && bitsOf w 19 15 == 0))

/-- Does a word have a defined encoding (R135, R136)? [log 35 DEDUCED] -/
def wordOk (w : Nat) : Bool :=
  match wOp w with
  | 0x00 => aluOk w
  | 0x01 => true
  | 0x02 => true
  | 0x03 => true
  | 0x04 => true
  | 0x05 => wGd w == 0
  | 0x06 => bitsOf w 7 6 != 3 && decide (bitsOf w 5 0 < 36) && bitsOf w 19 8 == 0
  | 0x07 => wGa w == 0
  | 0x10 => bitsOf w 19 18 == 0
  | 0x11 => bitsOf w 19 18 == 0
  | 0x12 => bitsOf w 19 18 == 0
  | 0x13 => true
  | 0x14 => wGa w != 0 && wGa w != 31
  | 0x18 => bitsOf w 19 16 == 0
  | 0x19 => bitsOf w 19 16 == 0
  | 0x1C => bitsOf w 24 4 == 0 && decide (bitsOf w 3 0 ≤ 8)
  | 0x1D => bitsOf w 24 0 == 0
  | 0x20 => bitsOf w 15 12 == 0 && decide (bitsOf w 19 16 < 8)
  | 0x21 => bitsOf w 15 12 == 0 && [2, 6, 7].contains (bitsOf w 19 16)
  | 0x28 => bitsOf w 17 16 == 0
  | 0x29 => bitsOf w 17 16 == 0
  | 0x30 => bitsOf w 25 16 == 0 && decide (bitsOf w 29 26 < 12)
  | 0x31 => bitsOf w 19 16 == 0
  | 0x32 => true
  | 0x33 => bitsOf w 29 16 == 0
  | 0x34 => bitsOf w 29 0 == 0
  | 0x35 => bitsOf w 29 0 == 0
  | 0x36 => bitsOf w 29 8 == 0
  | 0x37 => bitsOf w 29 0 == 0
  | _ => false

/-- A word with its unused fields 0: gb of ABS, NEG and SATQ, and ga and gb of RDF, which take any value (R136, R137).
[log 97 DEDUCED] -/
def wordCanon (w : Nat) : Nat :=
  let fn := bitsOf w 14 9
  if wOp w ≠ 0x00 then w
  else if fn = 0x0E ∨ fn = 0x0F ∨ fn = 0x14 then w - bitsOf w 19 15 * 2 ^ 15
  else if fn = 0x16 then w - bitsOf w 24 15 * 2 ^ 15
  else w

/-! The word of each format (R135). Register numbers, selectors and modes come as the fields hold them. -/

/-- A word of a major opcode and its remaining bits. -/
def wordOp (op rest : Nat) : Nat := op * 2 ^ 30 + rest

/-- Format A. -/
def wordA (fn : Nat) (gd ga gb : Fin 32) : Nat :=
  wordOp 0 (gd.val * 2 ^ 25 + ga.val * 2 ^ 20 + gb.val * 2 ^ 15 + fn * 2 ^ 9)

/-- Format I. -/
def wordI (op : Nat) (gd ga : Fin 32) (imm : BitVec 20) : Nat :=
  wordOp op (gd.val * 2 ^ 25 + ga.val * 2 ^ 20 + imm.toNat)

/-- Format S. -/
def wordS (op : Nat) (g gi : Fin 32) (m : BitVec 2) (slot : BitVec 18) : Nat :=
  wordOp op (g.val * 2 ^ 25 + gi.val * 2 ^ 20 + m.toNat * 2 ^ 18 + slot.toNat)

/-- Format W. -/
def wordW (gd ga : Fin 32) (n1 : BitVec 4) (base : BitVec 16) : Nat :=
  wordOp 0x14 (gd.val * 2 ^ 25 + ga.val * 2 ^ 20 + n1.toNat * 2 ^ 16 + base.toNat)

/-- Format M. -/
def wordM (op : Nat) (g gb : Fin 32) (off : BitVec 16) : Nat :=
  wordOp op (g.val * 2 ^ 25 + gb.val * 2 ^ 20 + off.toNat)

/-- Format P. -/
def wordP (op : Nat) (g gi : Fin 32) (node : BitVec 4) (loop : BitVec 12) : Nat :=
  wordOp op (g.val * 2 ^ 25 + gi.val * 2 ^ 20 + node.toNat * 2 ^ 16 + loop.toNat)

/-- Format Q. -/
def wordQ (op : Nat) (gb : Fin 32) (ch : Fin 2) (buf : Fin 64) (off : BitVec 16) : Nat :=
  wordOp op (gb.val * 2 ^ 25 + ch.val * 2 ^ 24 + buf.val * 2 ^ 18 + off.toNat)

/-- Format B. -/
def wordB (cond : BitVec 4) (off : BitVec 16) : Nat := wordOp 0x30 (cond.toNat * 2 ^ 26 + off.toNat)

/-- Format G. -/
def wordG (mode q : BitVec 2) (mask : BitVec 6) (off : BitVec 16) : Nat :=
  wordOp 0x31 (mode.toNat * 2 ^ 28 + q.toNat * 2 ^ 26 + mask.toNat * 2 ^ 20 + off.toNat)

/-- Format L. -/
def wordL (gc : Fin 32) (max1 : BitVec 12) (len : BitVec 13) : Nat :=
  wordOp 0x32 (gc.val * 2 ^ 25 + max1.toNat * 2 ^ 13 + len.toNat)

/-- Format J. -/
def wordJ (target : BitVec 16) : Nat := wordOp 0x33 target.toNat

/-- Format T. -/
def wordT (op : Nat) (gd : Fin 32) (sel : BitVec 4) : Nat := wordOp op (gd.val * 2 ^ 25 + sel.toNat)

/-- Format X. -/
def wordX (op : Nat) (user : BitVec 8) : Nat := wordOp op user.toNat

/-- The word of an instruction of Twist code (R135, R137, R138); none for any other command. -/
def twistWord : Instr → Option Nat
  | .twAdd _ _ gd ga gb _ => some (wordA 0x00 gd ga gb)
  | .twSub _ _ gd ga gb _ => some (wordA 0x01 gd ga gb)
  | .twAdds _ _ gd ga gb _ => some (wordA 0x02 gd ga gb)
  | .twSubs _ _ gd ga gb _ => some (wordA 0x03 gd ga gb)
  | .twAnd _ _ gd ga gb => some (wordA 0x04 gd ga gb)
  | .twOr _ _ gd ga gb => some (wordA 0x05 gd ga gb)
  | .twXor _ _ gd ga gb => some (wordA 0x06 gd ga gb)
  | .twAndn _ _ gd ga gb => some (wordA 0x07 gd ga gb)
  | .twShl _ _ gd ga gb _ => some (wordA 0x08 gd ga gb)
  | .twShr _ _ gd ga gb => some (wordA 0x09 gd ga gb)
  | .twSar _ _ gd ga gb => some (wordA 0x0A gd ga gb)
  | .twMin _ _ gd ga gb => some (wordA 0x0B gd ga gb)
  | .twMax _ _ gd ga gb => some (wordA 0x0C gd ga gb)
  | .twCmp _ _ ga gb _ => some (wordA 0x0D 0 ga gb)
  | .twAbs _ _ gd ga _ => some (wordA 0x0E gd ga 0)
  | .twNeg _ _ gd ga _ => some (wordA 0x0F gd ga 0)
  | .twMul _ _ gd ga gb _ => some (wordA 0x10 gd ga gb)
  | .twMulq _ _ gd ga gb _ => some (wordA 0x11 gd ga gb)
  | .twDiv _ _ gd ga gb _ => some (wordA 0x12 gd ga gb)
  | .twDivq _ _ gd ga gb _ => some (wordA 0x13 gd ga gb)
  | .twSatq _ _ gd ga => some (wordA 0x14 gd ga 0)
  | .twSel _ _ gd ga gb => some (wordA 0x15 gd ga gb)
  | .twRdf _ _ gd => some (wordA 0x16 gd 0 0)
  | .twClq _ _ => some (wordA 0x17 0 0 0)
  | .twAddi _ _ gd ga imm _ => some (wordI 0x01 gd ga imm)
  | .twAndi _ _ gd ga imm => some (wordI 0x02 gd ga imm)
  | .twOri _ _ gd ga imm => some (wordI 0x03 gd ga imm)
  | .twXori _ _ gd ga imm => some (wordI 0x04 gd ga imm)
  | .twCmpi _ _ ga imm _ => some (wordI 0x05 0 ga imm)
  | .twShi _ _ gd ga imm _ => some (wordI 0x06 gd ga imm)
  | .twLui _ _ gd imm => some (wordI 0x07 gd 0 imm)
  | .twLds _ _ gd gi slot _ => some (wordS 0x10 gd gi 0 slot)
  | .twLde _ _ gd gi slot _ => some (wordS 0x11 gd gi 0 slot)
  | .twTag _ _ gd gi slot _ => some (wordS 0x12 gd gi 0 slot)
  | .twSts _ _ gs gi m slot => some (wordS 0x13 gs gi m slot)
  | .twWinb _ _ gd ga n1 base _ => some (wordW gd ga n1 base)
  | .twLdw _ _ gd gb off _ => some (wordM 0x18 gd gb off)
  | .twStw _ _ gs gb off => some (wordM 0x19 gs gb off)
  | .twTrd _ _ gd sel => some (wordT 0x1C gd sel)
  | .twLix _ _ gd => some (wordT 0x1D gd 0)
  | .twLpr _ _ gd gi node loop _ => some (wordP 0x20 gd gi node loop)
  | .twLpw _ _ gs gi node loop => some (wordP 0x21 gs gi node loop)
  | .twMbq _ _ gb ch buf off _ => some (wordQ 0x28 gb ch buf off)
  | .twMbr _ _ gb ch buf off _ => some (wordQ 0x29 gb ch buf off)
  | .twBr _ _ cond off => some (wordB cond off)
  | .twBtag _ _ mode q mask off => some (wordG mode q mask off)
  | .twLoop _ _ gc max1 len => some (wordL gc max1 len)
  | .twCall _ _ target => some (wordJ target)
  | .twRet _ _ => some (wordX 0x34 0)
  | .twEnd _ _ => some (wordX 0x35 0)
  | .twTrap _ _ user => some (wordX 0x36 user)
  | .twNop _ _ => some (wordX 0x37 0)
  | _ => none

/-- The instruction of strand j of task t that a word's fields name, whatever its zero fields hold (R135, R137, R138). -/
def twistFields (t : Fin 16) (j : Fin 8) (w : Nat) : Option Instr :=
  let g25 := Fin.ofNat 32 (w / 2 ^ 25)
  let g20 := Fin.ofNat 32 (w / 2 ^ 20)
  let g15 := Fin.ofNat 32 (w / 2 ^ 15)
  let off := BitVec.ofNat 16 w
  match wOp w with
  | 0x00 => match bitsOf w 14 9 with
    | 0x00 => some (.twAdd t j g25 g20 g15 false)
    | 0x01 => some (.twSub t j g25 g20 g15 false)
    | 0x02 => some (.twAdds t j g25 g20 g15 false)
    | 0x03 => some (.twSubs t j g25 g20 g15 false)
    | 0x04 => some (.twAnd t j g25 g20 g15)
    | 0x05 => some (.twOr t j g25 g20 g15)
    | 0x06 => some (.twXor t j g25 g20 g15)
    | 0x07 => some (.twAndn t j g25 g20 g15)
    | 0x08 => some (.twShl t j g25 g20 g15 false)
    | 0x09 => some (.twShr t j g25 g20 g15)
    | 0x0A => some (.twSar t j g25 g20 g15)
    | 0x0B => some (.twMin t j g25 g20 g15)
    | 0x0C => some (.twMax t j g25 g20 g15)
    | 0x0D => some (.twCmp t j g20 g15 false)
    | 0x0E => some (.twAbs t j g25 g20 false)
    | 0x0F => some (.twNeg t j g25 g20 false)
    | 0x10 => some (.twMul t j g25 g20 g15 false)
    | 0x11 => some (.twMulq t j g25 g20 g15 false)
    | 0x12 => some (.twDiv t j g25 g20 g15 false)
    | 0x13 => some (.twDivq t j g25 g20 g15 false)
    | 0x14 => some (.twSatq t j g25 g20)
    | 0x15 => some (.twSel t j g25 g20 g15)
    | 0x16 => some (.twRdf t j g25)
    | 0x17 => some (.twClq t j)
    | _ => none
  | 0x01 => some (.twAddi t j g25 g20 (BitVec.ofNat 20 w) false)
  | 0x02 => some (.twAndi t j g25 g20 (BitVec.ofNat 20 w))
  | 0x03 => some (.twOri t j g25 g20 (BitVec.ofNat 20 w))
  | 0x04 => some (.twXori t j g25 g20 (BitVec.ofNat 20 w))
  | 0x05 => some (.twCmpi t j g20 (BitVec.ofNat 20 w) false)
  | 0x06 => some (.twShi t j g25 g20 (BitVec.ofNat 20 w) false)
  | 0x07 => some (.twLui t j g25 (BitVec.ofNat 20 w))
  | 0x10 => some (.twLds t j g25 g20 (BitVec.ofNat 18 w) false)
  | 0x11 => some (.twLde t j g25 g20 (BitVec.ofNat 18 w) false)
  | 0x12 => some (.twTag t j g25 g20 (BitVec.ofNat 18 w) false)
  | 0x13 => some (.twSts t j g25 g20 (BitVec.ofNat 2 (w / 2 ^ 18)) (BitVec.ofNat 18 w))
  | 0x14 => some (.twWinb t j g25 g20 (BitVec.ofNat 4 (w / 2 ^ 16)) off false)
  | 0x18 => some (.twLdw t j g25 g20 off false)
  | 0x19 => some (.twStw t j g25 g20 off)
  | 0x1C => some (.twTrd t j g25 (BitVec.ofNat 4 w))
  | 0x1D => some (.twLix t j g25)
  | 0x20 => some (.twLpr t j g25 g20 (BitVec.ofNat 4 (w / 2 ^ 16)) (BitVec.ofNat 12 w) false)
  | 0x21 => some (.twLpw t j g25 g20 (BitVec.ofNat 4 (w / 2 ^ 16)) (BitVec.ofNat 12 w))
  | 0x28 => some (.twMbq t j g25 (Fin.ofNat 2 (w / 2 ^ 24)) (Fin.ofNat 64 (w / 2 ^ 18)) off false)
  | 0x29 => some (.twMbr t j g25 (Fin.ofNat 2 (w / 2 ^ 24)) (Fin.ofNat 64 (w / 2 ^ 18)) off false)
  | 0x30 => some (.twBr t j (BitVec.ofNat 4 (w / 2 ^ 26)) off)
  | 0x31 => some (.twBtag t j (BitVec.ofNat 2 (w / 2 ^ 28)) (BitVec.ofNat 2 (w / 2 ^ 26)) (BitVec.ofNat 6 (w / 2 ^ 20)) off)
  | 0x32 => some (.twLoop t j g25 (BitVec.ofNat 12 (w / 2 ^ 13)) (BitVec.ofNat 13 w))
  | 0x33 => some (.twCall t j off)
  | 0x34 => some (.twRet t j)
  | 0x35 => some (.twEnd t j)
  | 0x36 => some (.twTrap t j (BitVec.ofNat 8 w))
  | 0x37 => some (.twNop t j)
  | _ => none

/-- The instruction that a 36-bit word spells in strand j of task t, none where the word has no defined encoding (R135,
R136). What the die finds wrong as it runs it, a residue or an uncorrectable error, is no part of the word.
[log 97 DEDUCED] -/
def decodeTwist (t : Fin 16) (j : Fin 8) (w : Word36) : Option Instr :=
  if wordOk w.toNat then twistFields t j w.toNat else none

end Sys2Proof.Machine
end

