-- ==== Sys2Proof/Machine/ProgVerify.lean ====
section
/-! DEFINITION. The structural verification of a program image (R136, R140, R145 to R147, R150) and its end
(R148). -/

namespace Sys2Proof.Machine

/-- A failure of a load: check code and item (R350). -/
abbrev Failure := Nat × Nat

/-- The lower of two failures: by check code, then by item (R349). -/
def worse (a b : Failure) : Failure := if b.1 < a.1 ∨ (b.1 = a.1 ∧ b.2 < a.2) then b else a

/-- The failure with the lowest code and, among equals, the lowest item (R148, R349). -/
def firstFailure (l : List Failure) : Option Failure :=
  l.foldl (fun a f => match a with
    | none => some f
    | some g => some (worse g f)) none

/-- A failure if a test holds. -/
def failIf (b : Bool) (code item : Nat) : List Failure := if b then [(code, item)] else []

/-- A failure if a test does not hold. -/
def need (b : Bool) (code item : Nat) : List Failure := if b then [] else [(code, item)]

/-! Words of a strand (R137, R138, R140). -/

/-- Steps of a word that neither branches, loops, calls nor ends (R137, R138). -/
def wordSteps (w : Nat) : Nat :=
  match wOp w with
  | 0x00 => match bitsOf w 14 9 with
    | 0x10 => 4
    | 0x11 => 4
    | 0x12 => 36
    | 0x13 => 36
    | 0x16 => 1
    | 0x17 => 1
    | _ => 2
  | 0x14 => 2 + ceilDiv (bitsOf w 19 16 + 1) 4
  | 0x1D => 1
  | 0x20 => 3
  | 0x21 => 3
  | 0x28 => 20
  | 0x29 => 20
  | 0x37 => 1
  | _ => 2

/-- The code words of strand j. -/
def strandWords (b : Bytes) (j : Nat) : List Nat := (upTo (progCode b j)).map (progWord b j)

/-- Address and word of every word of a list. -/
def addressed (ws : List Nat) : List (Nat × Nat) := (upTo ws.length).zip ws

/-- The word at an address, an undefined one past the end. -/
def wordAt (ws : List Nat) (a : Nat) : Nat := (ws[a]?).getD (2 ^ 36 - 1)

/-- The loop bodies of a strand: first and last address (R140). -/
def loopBodies (ws : List Nat) : List (Nat × Nat) :=
  (addressed ws).filterMap (fun e => if wOp e.2 = 0x32 then some (e.1 + 1, e.1 + wLen e.2) else none)

/-- Does an address lie in a body? -/
def inBody (a : Nat) (f : Nat × Nat) : Bool := decide (f.1 ≤ a) && decide (a ≤ f.2)

/-- Does a word branch? -/
def isBranch (w : Nat) : Bool := wOp w == 0x30 || wOp w == 0x31

/-- Branches: forward, within the strand, and no body entered or left but to the address after it (R140).
[log 35 DEDUCED] -/
def branchFailures (ws : List Nat) : List Failure :=
  let bodies := loopBodies ws
  (addressed ws).flatMap (fun e =>
    if !isBranch e.2 then []
    else
      let target := e.1 + 1 + wOff e.2
      need (decide (target < ws.length)) 0x34 e.1 ++
        need (bodies.all (fun f => if inBody e.1 f then decide (target ≤ f.2 + 1) else !inBody target f)) 0x34 e.1)

/-- Loops: a body that lies in the strand and in each body that holds its LOOP, at most 4 deep, with no END or RET
in it; LIX only in a body (R140). -/
def loopFailures (ws : List Nat) : List Failure :=
  let bodies := loopBodies ws
  (addressed ws).flatMap (fun e =>
    let inside := bodies.filter (inBody e.1)
    match wOp e.2 with
    | 0x32 =>
      let last := e.1 + wLen e.2
      need (wLen e.2 != 0 && decide (last < ws.length)) 0x35 e.1 ++
        need (inside.all (fun f => decide (last ≤ f.2)) && decide (inside.length < 4)) 0x35 e.1
    | 0x34 => need inside.isEmpty 0x35 e.1
    | 0x35 => need inside.isEmpty 0x35 e.1
    | 0x1D => need (!inside.isEmpty) 0x35 e.1
    | _ => [])

/-- Where control may go from a word, calls stepped over: empty after END and RET (R140). -/
def successors (a w : Nat) : List Nat :=
  match wOp w with
  | 0x34 => []
  | 0x35 => []
  | 0x36 => [a + 1]
  | 0x30 => if bitsOf w 29 26 = 0 then [a + 1 + wOff w] else [a + 1, a + 1 + wOff w]
  | 0x31 => [a + 1, a + 1 + wOff w]
  | 0x32 => [a + 1, a + 1 + wLen w]
  | _ => [a + 1]

/-- The addresses that a path from an address reaches, past-the-end ones among them. Every step goes forward. -/
def reachable (ws : List Nat) (start : Nat) : SMap Unit :=
  (addressed ws).foldl (fun r e =>
    if SMap.has r e.1 then (successors e.1 e.2).foldl (fun r a => SMap.put r a ()) r else r) [(start, ())]

/-- The targets of the CALLs that a path from an address reaches. -/
def callsFrom (ws : List Nat) (start : Nat) : List Nat :=
  let r := reachable ws start
  ((addressed ws).filterMap (fun e => if SMap.has r e.1 && wOp e.2 == 0x33 then some (bitsOf e.2 15 0) else none)).eraseDups

/-- The subroutines that paths reach: a worklist, and what has been seen. [log 35 DEDUCED] -/
def subsReached (ws : List Nat) : Nat → List Nat → List Nat → List Nat
  | 0, _, seen => seen
  | _ + 1, [], seen => seen
  | n + 1, t :: todo, seen =>
    if seen.contains t then subsReached ws n todo seen else subsReached ws n (callsFrom ws t ++ todo) (t :: seen)

/-- Depth of the calls from an address, up to a bound. -/
def callDepth (ws : List Nat) : Nat → Nat → Nat
  | 0, _ => 0
  | n + 1, start => (callsFrom ws start).foldl (fun d t => max d (1 + callDepth ws n t)) 0

/-- Paths: the main path ends in END, a subroutine that a path reaches in RET, and none runs past the last word; calls go
to a subroutine outside loop bodies, at most 8 deep (R140). [log 35 DEDUCED] -/
def pathFailures (ws : List Nat) : List Failure :=
  let n := ws.length
  let bodies := loopBodies ws
  let main := reachable ws 0
  let mainBad := (addressed ws).flatMap (fun e =>
    if SMap.has main e.1 then
      need (wOp e.2 != 0x34) 0x34 e.1 ++ need ((successors e.1 e.2).all (fun a => decide (a < n))) 0x34 e.1
    else [])
  let calls := (addressed ws).flatMap (fun e =>
    if wOp e.2 != 0x33 then []
    else
      let t := bitsOf e.2 15 0
      need (decide (t < n) && !(bodies.any (inBody t))) 0x36 e.1)
  let subs := (subsReached ws (n * n + n + 1) (callsFrom ws 0) []).flatMap (fun t =>
    let r := reachable ws t
    (addressed ws).flatMap (fun f =>
      if SMap.has r f.1 then
        need (wOp f.2 != 0x35) 0x36 f.1 ++ need ((successors f.1 f.2).all (fun a => decide (a < n))) 0x34 f.1
      else []))
  let deep := need (decide (callDepth ws 9 0 ≤ 8)) 0x36 0
  mainBad ++ calls ++ subs ++ deep

/-! Step count (R150). -/

/-- The end of the innermost loop body that holds an address: the address after it. -/
def regionEnd (bodies : List (Nat × Nat)) (a : Nat) : Option Nat :=
  (bodies.filter (inBody a)).foldl (fun e f => match e with
    | none => some (f.2 + 1)
    | some x => some (min x (f.2 + 1))) none

/-- Worst steps from every address to the end of its region, from the last address down, given the worst steps of
each subroutine. -/
def worstFrom (bodies : List (Nat × Nat)) (subs : SMap Nat) : List (Nat × Nat) → SMap Nat
  | [] => []
  | (a, w) :: rest =>
    let m := worstFrom bodies subs rest
    let e := regionEnd bodies a
    let get := fun (x : Nat) (e : Option Nat) => if e = some x then 0 else SMap.getD m x 0
    let v := match wOp w with
      | 0x35 => 8
      | 0x34 => 3
      | 0x30 =>
        if bitsOf w 29 26 = 0 then 2 + get (a + 1 + wOff w) e
        else 2 + max (get (a + 1) e) (get (a + 1 + wOff w) e)
      | 0x31 => 2 + max (get (a + 1) e) (get (a + 1 + wOff w) e)
      | 0x32 =>
        let b := a + 1 + wLen w
        2 + wMax w * (get (a + 1) (some b) + 1) + get b e
      | 0x33 => 3 + SMap.getD subs (bitsOf w 15 0) 0 + get (a + 1) e
      | _ => wordSteps w + get (a + 1) e
    (a, v) :: m

/-- The worst steps from every address after n rounds, each using the previous round's for its calls. -/
def worstRounds (ws : List Nat) : Nat → SMap Nat
  | 0 => []
  | n + 1 => worstFrom (loopBodies ws) (worstRounds ws n) (addressed ws)

/-- strand_steps of R150: calls nest at most 8 deep. -/
def strandSteps (ws : List Nat) : Nat := SMap.getD (worstRounds ws 10) 0 0

/-! The tables (R145 to R147, R153). -/

/-- Are all bytes of a range 0? -/
def zeros (b : Bytes) (i len : Nat) : Bool := (slice b i len).all (· == 0)

/-- Is the header in range and consistent with the image's length (R145)? -/
def headerOk (b : Bytes) : Bool :=
  let n := progStrands b
  decide (132 ≤ b.length) && leAt b 0 4 == 0x54535754 && leAt b 4 2 == 1 && decide (1 ≤ n) && decide (n ≤ 8) &&
    progLen b == b.length && decide (progDataWords b ≤ 65536) && decide (progRetained b ≤ progDataWords b) &&
    decide (progTrapAction b ≤ 1) && zeros b 21 3 && progFullLen b == b.length &&
    (upTo 8).all (fun j => decide (j < n) ||
      (progCode b j == 0 && progSteps b j == 0 && progRangeFirst b j == 0 && progRangeCount b j == 0))

/-- Do the containers and entries match the header and the code (R146, R153)? An entry that no instruction uses matches.
[log 110 DESIGN CHOICE] -/
def entriesOk (b : Bytes) : Bool :=
  let n := progStrands b
  (upTo (progCodeTotal b)).all (fun i => leAt b (128 + 8 * i) 8 < 2 ^ 36) &&
    (upTo (progDataWords b)).all (fun i => leAt b (progInitOff b + 8 * i) 8 < 2 ^ 36) &&
    (upTo (progNSlots b)).all (fun i =>
      let o := progSlotOff b + 8 * i
      decide (byteAt b (o + 6) ≤ 1) && decide (1 ≤ leAt b (o + 4) 2) &&
        decide (leAt b o 4 + leAt b (o + 4) 2 ≤ 262144) &&
        (if byteAt b (o + 6) = 1 then decide (byteAt b (o + 7) < n) else byteAt b (o + 7) == 0)) &&
    (upTo (progNLoops b)).all (fun i =>
      let o := progLoopOff b + 4 * i
      decide (leAt b o 2 < 4096) && decide (1 ≤ byteAt b (o + 2)) && decide (byteAt b (o + 2) ≤ 3) &&
        (if bitOf (byteAt b (o + 2)) 1 then decide (byteAt b (o + 3) < n) else byteAt b (o + 3) == 0)) &&
    (upTo (progNMills b)).all (fun i =>
      let o := progMillOff b + 4 * i
      decide (byteAt b o ≤ 1) && decide (byteAt b (o + 1) < 64) && decide (byteAt b (o + 2) ≤ 1) &&
        decide (byteAt b (o + 3) < n)) &&
    (upTo (progNBounds b)).all (fun i =>
      let o := progBoundOff b + 8 * i
      decide (byteAt b o < n) && byteAt b (o + 1) == 0 && decide (leAt b (o + 2) 2 < progCode b (byteAt b o))) &&
    (upTo (progNVars b)).all (fun i =>
      let o := progVarOff b + 16 * i
      decide (leAt b (o + 8) 4 + leAt b (o + 12) 2 ≤ progDataWords b) && decide (byteAt b (o + 15) ≤ 1) &&
        (byteAt b (o + 15) == 0 || decide (leAt b (o + 8) 4 + leAt b (o + 12) 2 ≤ progRetained b))) &&
    ((progVars b).map (·.key)).eraseDups.length == progNVars b

/-- Do two ranges of numbers overlap? -/
def overlaps (a an b bn : Nat) : Bool := decide (a < b + bn) && decide (b < a + an)

/-- Does some pair of a list satisfy a relation? -/
def somePair {α : Type} (r : α → α → Bool) : List α → Bool
  | [] => false
  | x :: xs => xs.any (r x) || somePair r xs

/-- Is every slot of a range covered by entries of a direction (and, for writes, of the strand)? -/
def slotsCovered (es : List ProgSlots) (write : Bool) (j first count : Nat) : Bool :=
  (upTo count).all (fun i => es.any (fun e => e.write == write && (!write || e.strand == j) &&
    decide (e.first ≤ first + i) && decide (first + i < e.first + e.count)))

/-- Is a word an access that takes a bound where it is indexed (formats S and P)? -/
def isIndexable (w : Nat) : Bool := [0x10, 0x11, 0x12, 0x13, 0x20, 0x21].contains (wOp w)

/-- The bound of a word's index: 0 where it is not indexed. -/
def boundOf (b : Bytes) (j : Nat) (e : Nat × Nat) : Nat :=
  if wGa e.2 = 0 then 0 else (progBound b j e.1).getD 0

/-- Every indexed access has exactly one bound entry, and no other word has one (R140). -/
def boundFailures (b : Bytes) (j : Nat) (ws : List Nat) : List Failure :=
  (addressed ws).flatMap (fun e =>
    let n := ((progBounds b).filter (fun x => x.1 == j && x.2.1 == e.1)).length
    need (n == bit (isIndexable e.2 && wGa e.2 != 0)) 0x38 e.1)

/-- Every access of a strand is covered by the tables (R147). -/
def coverFailures (b : Bytes) (j : Nat) (ws : List Nat) : List Failure :=
  let slots := progSlots b
  let loops := progLoops b
  let mills := progMills b
  (addressed ws).flatMap (fun e =>
    let w := e.2
    let n := boundOf b j e + 1
    let slot := bitsOf w 17 0
    let loop := bitsOf w 11 0
    let okay := match wOp w with
      | 0x10 => slotsCovered slots false j slot n
      | 0x11 => slotsCovered slots false j slot n
      | 0x12 => slotsCovered slots false j slot n
      | 0x13 => slotsCovered slots true j slot n
      | 0x14 => slotsCovered slots false j (4 * bitsOf w 15 0) (bitsOf w 19 16 + 1)
      | 0x20 => (upTo n).all (fun i => loops.any (fun x => x.1 == loop + i && x.2.1))
      | 0x21 => (upTo n).all (fun i => loops.any (fun x => x.1 == loop + i && x.2.2.1 && x.2.2.2 == j))
      | 0x28 => mills.any (fun x => x.1 == bitsOf w 24 24 && x.2.1 == bitsOf w 23 18 && x.2.2.1 && x.2.2.2 == j)
      | 0x29 => mills.any (fun x => x.1 == bitsOf w 24 24 && x.2.1 == bitsOf w 23 18 && !x.2.2.1)
      | _ => true
    need okay 0x39 e.1)

/-- No two write entries overlap (R147). -/
def tableFailures (b : Bytes) : List Failure :=
  let ws := (progSlots b).filter (·.write)
  let ls := (progLoops b).filter (fun x => x.2.2.1)
  let ms := (progMills b).filter (fun x => x.2.2.1)
  need (!somePair (fun x y => overlaps x.first x.count y.first y.count) ws) 0x39 0 ++
    need (!somePair (fun x y => x.1 == y.1) ls) 0x39 0 ++
    need (!somePair (fun x y => x.1 == y.1 && x.2.1 == y.2.1) ms) 0x39 0

/-- The data write ranges neither overlap nor run past the data (R147). -/
def dataFailures (b : Bytes) : List Failure :=
  let js := (upTo (progStrands b)).filter (fun j => progRangeCount b j != 0)
  need (js.all (fun j => decide (progRangeFirst b j + progRangeCount b j ≤ progDataWords b)) &&
    !somePair (fun i j => overlaps (progRangeFirst b i) (progRangeCount b i) (progRangeFirst b j) (progRangeCount b j))
      js) 0x3A 0

/-- The failures of one strand. -/
def strandFailures (b : Bytes) (j : Nat) : List Failure :=
  let ws := strandWords b j
  let shape := (addressed ws).flatMap (fun e => need (wordOk e.2) 0x33 e.1) ++ branchFailures ws ++ loopFailures ws ++
    need (decide (1 ≤ ws.length) && decide (ws.length ≤ 16384)) 0x37 0
  let paths := pathFailures ws
  let steps := if shape.isEmpty && paths.isEmpty then
      need (strandSteps ws == progSteps b j && decide (strandSteps ws < 2 ^ 32)) 0x3B 0
    else []
  shape ++ paths ++ boundFailures b j ws ++ coverFailures b j ws ++ steps

/-- The verification of an image under an opted-in behaviour level, with whether it would take the program store past its
limits (R149): the failure that a refusal reports, or none (R148). [log 35 DEDUCED, 97 DEDUCED] -/
def progVerify (level : Nat) (space : Bool) (b : Bytes) : Option Failure :=
  if !headerOk b then some (0x30, 0)
  else if !entriesOk b then some (0x30, 0)
  else
    firstFailure (need (decide (progLevel b ≤ level)) 0x31 0 ++ need (sealOk b) 0x32 0 ++
      (upTo (progStrands b)).flatMap (strandFailures b) ++ tableFailures b ++ dataFailures b ++ failIf space 0x3C 0)

/-- Complete the PROG_LOAD of a slot's last piece. -/
def State.finishLoad (s : State) (slot status detail : Nat) : State :=
  s.finish (fun m => m.op == 0x50 && opByte m.cmd 24 == slot) status detail 0 0

/-- PROG_VERIFY_DONE (R148): where the miller runs (R24), the staged copy is verified or refused, and its last load command
completes. -/
def execProgVerifyDone (slot : Fin 16) (s : State) : Host.Outcome State Fault Refusal :=
  if !s.progs.verifying.contains slot.val || !s.host.millerUp then ok s
  else
    let s : State := { s with progs := { s.progs with verifying := s.progs.verifying.filter (· != slot.val) } }
    match SMap.find s.progs.staged slot.val with
    | none => ok s
    | some b =>
      match progVerify (s.act F.HOPPER_LEVEL_level) (s.progSpaceBad slot.val b) b with
      | none =>
        let s := (s.wr (F.PROG_STATUS_staged slot.val) 2).wr (F.PROG_STATUS_refusal slot.val) 0
        ok (s.finishLoad slot.val 0 0)
      | some f =>
        let s : State := if s.progSpaceBad slot.val b then
            { s with progs := { s.progs with staged := SMap.del s.progs.staged slot.val } } else s
        let s := (s.wr (F.PROG_STATUS_staged slot.val) 3).wr (F.PROG_STATUS_refusal slot.val) f.1
        ok (s.finishLoad slot.val 0x0E f.1)

end Sys2Proof.Machine
end

