-- ==== Sys2Proof/Machine/Check.lean ====
section
/-! DEFINITION. The tests of CHECK (R349, R350): each gives the failures of a candidate configuration. The candidate
is the state with the snapshot as its active copy and the programs that a commit would leave active. -/

namespace Sys2Proof.Machine

/-- The state as a commit of a snapshot would leave its settings and programs. -/
def State.trial (s : State) (m : RegMap) : State :=
  { s with hop := { s.hop with active := m },
           progs := { s.progs with active := progsAfter m s.progs.active s.progs.staged } }

/-- The listed numbers that fail a test, each a failure of a code with itself as item. -/
def refuse (code : Nat) (l : List Nat) (bad : Nat → Bool) : List Failure :=
  l.filterMap (fun x => if bad x then some (code, x) else none)

/-! The turn and its latencies (R37, R88, R109). Times are in hundredths of a ns, or half ns where a line says so. -/

/-- wire(L) of R88. -/
def wireTime (len : Nat) : Nat := ceilDiv (len + 1) 8 * 256

/-- Hops of a chain (R88). -/
def State.hopsTime (c : State) (p : Nat) : Nat :=
  let st := c.portStations p
  100 * (st.length * c.act (F.SK_BUDGET_seg_ns p) + (st.map (fun n => c.act (F.STATION_MAP_2_fwd_ns n))).sum)

/-- d_in(p) of R88. -/
def State.dIn (c : State) (p : Nat) : Nat :=
  let st := c.portStations p
  100 * c.act (F.SK_BUDGET_emit_ns p) + c.hopsTime p +
    (st.map (fun n => wireTime (36 + payBytes (c.act (F.STATION_MAP_0_in_samples n))))).sum + 3 * 256 + 2400

/-- d_out(p) of R88. -/
def State.dOut (c : State) (p : Nat) : Nat :=
  let st := c.portStations p
  100 * (c.cutoffNs - c.releaseNs) + c.hopsTime p +
    (st.map (fun n => wireTime (36 + payBytes (c.act (F.STATION_MAP_0_out_samples n))))).sum + wireTime 68 + 3 * 256 +
    2400 + 100 * c.act (F.SK_BUDGET_setup_ns p)

/-- The turn's own ranges, and a retiming or a level change away from STOP (R29, R37, R362). -/
def State.turnFailures (s c : State) : List Failure :=
  let t := c.turnNs
  failIf (decide (t < 1000) || decide (1000000 < t) || decide (c.nTurns < 1) || decide (4 < c.nTurns) ||
      decide (t ≤ c.phiNs) || decide (t ≤ c.releaseNs) || decide (t ≤ c.cutoffNs)) 0x01 0 ++
    failIf ((retimes s.hop.active c.hop.active || relevels s.hop.active c.hop.active) && s.key != 3) 0x02 0

/-- The ports that have a station. -/
def State.portsUsed (c : State) : List Nat := (upTo 16).filter (fun p => !(c.portStations p).isEmpty)

/-- The fit of every chain (R37). -/
def State.chainFailures (c : State) : List Failure :=
  let lead : Int := c.turnNs + c.phiNs - c.releaseNs
  refuse 0x03 c.portsUsed (fun p => decide (100 * c.cutoffNs < c.dIn p)) ++
    refuse 0x04 c.portsUsed (fun p => decide (100 * lead < (c.dOut p : Int) + 640))

/-- The enabled loops of a wheel: all of them are due together at some boundary. -/
def State.wheelLoad (c : State) (w : Nat) : Nat := (c.enabledLoops.filter (fun l => l % 128 == w)).length

/-- The load of every wheel (R37). -/
def State.wheelFailures (c : State) : List Failure :=
  let t : Int := c.turnNs
  let budget := min (((c.nTurns : Int) - 1) * t + c.releaseNs - c.cutoffNs) t
  refuse 0x05 (upTo 128) (fun w => decide (1 ≤ c.wheelLoad w) && decide (budget < 24 * (c.wheelLoad w : Int)))

/-- copy(x) of R109, half ns. -/
def copyCost (x : Nat) : Nat := (24 + ceilDiv x 16) * 3

/-- The loop nodes that accesses of a kind (LPR 0x20, LPW 0x21) of a program name, by loop × 8 + node (R132). -/
def progNodes (b : Bytes) (op : Nat) : List Nat :=
  ((upTo (progStrands b)).flatMap (fun j => (addressed (strandWords b j)).flatMap (fun e =>
    if wOp e.2 = op then
      (upTo (boundOf b j e + 1)).map (fun i => (bitsOf e.2 11 0 + i) * 8 + bitsOf e.2 19 16)
    else []))).eraseDups

/-- reads(t) of R107, R132 and R133. -/
def progReadCount (b : Bytes) : Nat :=
  (progReads b).length + (progNodes b 0x20).length + 18 * ((progMills b).filter (fun x => !x.2.2.1)).length

/-- writes(t). -/
def progWriteCount (b : Bytes) : Nat :=
  (progWrites b).length + (progNodes b 0x21).length + 18 * ((progMills b).filter (·.2.2.1)).length

/-- cost(u, s) of R109, half ns: the strand of task u on spindle s, 0 where it has none. -/
def State.spindleCost (c : State) (u sp : Nat) : Nat :=
  match (spindlesIn c.hop.active u).findIdx? (· == sp), c.taskProg u with
  | some j, some b => 3 * progSteps b j
  | _, _ => 0

/-- wcet(t) of R109, half ns. -/
def State.wcet (c : State) (t : Nat) : Nat :=
  match c.taskProg t with
  | none => 0
  | some b =>
    let on (sp u : Nat) : Bool := (spindlesIn c.hop.active u).contains sp
    let run (sp : Nat) : Nat :=
      let higher := ((c.enabledTasks.filter (fun u => decide (u < t) && on sp u)).map
        (fun u => ceilDiv (c.taskP t) (c.taskP u) * c.spindleCost u sp)).sum
      let block := (c.enabledTasks.filter (fun v => decide (t < v) && on sp v)).foldl
        (fun a v => max a (c.spindleCost v sp)) 0
      block + higher + c.spindleCost t sp
    copyCost (progReadCount b) + (spindlesIn c.hop.active t).foldl (fun a sp => max a (run sp)) 0 +
      copyCost (progWriteCount b)

/-- The budget of task t, ns (R37). -/
def State.taskBudget (c : State) (t : Nat) : Int :=
  let tt : Int := c.turnNs
  min (((c.nTurns * c.taskP t : Nat) - 1 : Int) * tt + c.releaseNs - c.cutoffNs) ((c.taskP t : Int) * tt)

/-- Every enabled task fits its budget. -/
def State.taskFailures (c : State) : List Failure :=
  refuse 0x06 c.enabledTasks (fun t => decide (2 * c.taskBudget t < (c.wcet t : Int)))

/-- Commits at LOCK, and program commits at LOCK or RUN (R123, R152). -/
def State.keyFailures (s c : State) : List Failure :=
  failIf (s.key == 0) 0x07 0 ++
    failIf (changesProgram s.hop.active c.hop.active && (s.key == 0 || s.key == 1)) 0x23 0

/-! Slots (R16, R52, R60, R66, R71). -/

/-- The slots that enabled tasks name. -/
def State.taskSlots (c : State) : List Nat :=
  (c.enabledTasks.flatMap (fun t => match c.taskProg t with
    | some b => progReads b ++ progWrites b
    | none => [])).eraseDups

/-- The published slots of a configuration. -/
def State.pubSlots (c : State) : List Nat := listedIdx c.hop.active slotPolBase 16 262144 16

/-- The slots that tasks, loops or mill-bus buffers write. [log 69 DEDUCED] -/
def State.writtenSlots (c : State) : List Nat :=
  (c.enabledTasks.flatMap (fun t => match c.taskProg t with
    | some b => progWrites b
    | none => []) ++ c.enabledLoops.map (fun l => c.act (F.LOOP_OUT_out_slot l)) ++
    (mapsIn c.hop.active).map (·.1)).eraseDups

/-- The slots that enabled loops name (R197). -/
def State.loopSlots (c : State) : List Nat :=
  (c.enabledLoops.flatMap (fun l =>
    [c.act (F.LOOP_MEAS_meas_slot l), c.act (F.LOOP_OUT_out_slot l)] ++
      (if c.act (F.LOOP_CTRL_sp_kind l) = 2 then [c.act (F.LOOP_SP_sp_slot l)] else []) ++
      (if c.aon (F.LOOP_CTRL_ff_en l) then [c.act (F.LOOP_FF_ff_slot l)] else []) ++
      (if c.aon (F.LOOP_CTRL_track_en l) then [c.act (F.LOOP_TRACK_track_slot l)] else []))).eraseDups

/-- Slots whose policy is out of range, undefined, in conflict or doubled. A force that waits for its boundary makes no
slot forced yet. [log 112 DESIGN CHOICE] -/
def State.slotFailures (s c : State) : List Failure :=
  let stationSlots := c.slotList.filter (fun n => c.slotKind n == 1 || c.slotKind n == 4)
  let src (n : Nat) : Nat × Nat := (c.act (F.SLOT_POL_SRC_peer n), c.act (F.SLOT_POL_SRC_index n))
  let limit (n : Nat) : Nat := if c.slotKind n = 1 then c.act (F.STATION_MAP_0_in_samples (src n).1)
    else c.act (F.STATION_MAP_0_out_samples (src n).1)
  refuse 0x10 (c.taskSlots ++ c.loopSlots ++ c.pubSlots ++ (mapsIn c.hop.active).map (·.1)).eraseDups
      (fun n => c.slotKind n == 0) ++
    refuse 0x11 c.writtenSlots (fun n => decide (2 ≤ (writersIn c.hop.active c.progs.active n).length) ||
      (decide (1 ≤ c.slotKind n) && decide (c.slotKind n ≤ 3))) ++
    refuse 0x12 stationSlots (fun n => !c.aon (F.STATION_MAP_0_present (src n).1) || decide (limit n ≤ (src n).2)) ++
    refuse 0x13 stationSlots (fun n => stationSlots.any (fun o =>
      o != n && c.slotKind o == c.slotKind n && src o == src n)) ++
    failIf (decide (4096 < c.pubSlots.length)) 0x14 0 ++
    refuse 0x15 c.pubSlots (fun n => c.pubSlots.any (fun o =>
      o != n && c.act (F.SLOT_POL_0_pub_index o) == c.act (F.SLOT_POL_0_pub_index n))) ++
    refuse 0x16 (s.image.forces.map (·.1)) (fun n => c.slotKind n == 0) ++
    (c.slotList.filter (fun n => decide (6 ≤ c.slotKind n))).map (fun n => (0x4D, slotPolBase + 16 * n)) ++
    ((listedIdx c.hop.active slotPolBase 16 262144 3).filter (fun n => c.act (F.SLOT_POL_0_policy n) == 3)).map
      (fun n => (0x4D, slotPolBase + 16 * n))

/-! Stations (R73). -/

/-- Gaps in a chain, and station entries out of range. -/
def State.stationFailures (c : State) : List Failure :=
  refuse 0x18 c.portsUsed (fun p => !((c.portStations p).all (fun n => decide (n % 16 < (c.portStations p).length)))) ++
    refuse 0x19 c.stations (fun n => decide (1024 < c.act (F.STATION_MAP_0_in_samples n)) ||
      decide (1024 < c.act (F.STATION_MAP_0_out_samples n)) || decide (20 < c.act (F.STATION_MAP_0_rate_n n)) ||
      c.act (F.STATION_MAP_1_holdoff n) == 0)

/-! Tasks and on-line change (R103, R104, R110, R132, R133, R155). -/

/-- Bytes of retained variables that all tasks count (R110, R131). -/
def State.retainBytes (c : State) : Nat :=
  ((upTo 16).map (fun t => match c.taskProg t with
    | some b => 8 * progRetained b
    | none => 0)).sum

/-- Is a program slot's staged copy verified on this module, and the same on a partner in STANDBY (R155)? -/
def State.stagedOk (s : State) (p : Nat) : Bool :=
  s.rd (F.PROG_STATUS_staged p) == 2 &&
    (s.plyState != 2 || !s.partnerStandby ||
      match SMap.find s.progs.staged p, SMap.find s.progs.partnerStaged p with
      | some a, some b => progIdent a == progIdent b && progSeal s.progs.staged p == progSeal s.progs.partnerStaged p
      | _, _ => false)

/-- Settings of a task, its programs, and what a program commit needs. -/
def State.programFailures (s c : State) : List Failure :=
  let ts := c.enabledTasks
  refuse 0x20 ts (fun t => (c.taskProg t).isNone) ++
    refuse 0x21 ts (fun t => match c.taskProg t with
      | some b => (spindlesIn c.hop.active t).length != progStrands b
      | none => false) ++
    failIf (decide (262144 < c.retainBytes)) 0x22 0 ++
    (if changesProgram s.hop.active c.hop.active then
      refuse 0x24 (progActs c.hop.active) (fun p => !s.stagedOk p) ++
        failIf (s.rd F.ONLINE_STATUS_state != 0) 0x25 0 ++
        refuse 0x26 ts (fun t => match s.taskProg t, c.taskProg t with
          | some old, some new =>
            let w := (carryWords old new).length
            progIdent old != progIdent new && w != 0 &&
              decide (2 * c.taskBudget t < (c.wcet t + (16 + ceilDiv w 8) * 3 : Int))
          | _, _ => false)
    else []) ++
    ts.flatMap (fun t => match c.taskProg t with
      | some b =>
        refuse 0x2C ((progLoops b).filterMap (fun x => if x.2.2.1 then some x.1 else none)) (fun l =>
            !(c.act (F.LOOP_CTRL_sp_kind l) == 1 && c.act (F.LOOP_CTRL_sp_task l) == t)) ++
          refuse 0x2D ((progMills b).filterMap (fun x => if x.2.2.1 then some (x.1 * 64 + x.2.1) else none)) (fun i =>
            let role := c.act (F.MB_BUF_CFG_role (i / 64) (i % 64))
            !((role == 2 || (role == 4 && !c.aon (F.MB_BUF_CFG_owner_host (i / 64) (i % 64)))) &&
              c.act (F.MB_BUF_CFG_owner (i / 64) (i % 64)) == t))
      | none => []) ++
    (upTo 16).flatMap (fun t => failIf (decide (20 < c.act (F.TASK_CTRL_rate_n t))) 0x4D (0x4400 + 32 * t))

/-! Loops (R197). -/

/-- Is loop A of a pair set as R189 and R205 ask? -/
def State.pairOk (c : State) (a : Nat) : Bool :=
  pairIn c.hop.active a && c.act (F.LOOP_CTRL_init_mode (max a (c.act (F.LOOP_SP_pair_loop a)))) == 1

/-- The encodings and bounds of a loop (R196, R197). -/
def State.loopParamBad (c : State) (l : Nat) : Bool :=
  let q (f : Fld) : Int := sextNat 18 (c.act f)
  let alpha := q (F.LOOP_ALPHA_m l)
  decide (20 < c.act (F.LOOP_CTRL_rate_n l)) || c.act (F.LOOP_CTRL_sp_kind l) == 3 ||
    c.act (F.LOOP_CTRL_meas_policy l) == 3 || c.act (F.LOOP_CTRL_ovr l) == 3 ||
    decide (q (F.LOOP_I_HI_bound l) < q (F.LOOP_I_LO_bound l)) ||
    decide (q (F.LOOP_OUT_HI_limit l) < q (F.LOOP_OUT_LO_limit l)) ||
    decide (alpha < 0) || decide (((2 ^ c.act (F.LOOP_ALPHA_e l) : Nat) : Int) ≤ alpha) ||
    (c.act (F.LOOP_CTRL_init_mode l) == 2 && !c.aon (F.LOOP_CTRL_casc_en l)) ||
    (c.act (F.LOOP_CTRL_init_mode l) == 3 && !c.aon (F.LOOP_CTRL_track_en l))

/-- The sources and the output slot of a loop. -/
def State.loopSourceBad (c : State) (l : Nat) : Bool :=
  let undefined (f : Fld) : Bool := c.slotKind (c.act f) == 0
  let out := c.slotKind (c.act (F.LOOP_OUT_out_slot l))
  undefined (F.LOOP_MEAS_meas_slot l) || (c.act (F.LOOP_CTRL_sp_kind l) == 2 && undefined (F.LOOP_SP_sp_slot l)) ||
    (c.aon (F.LOOP_CTRL_ff_en l) && undefined (F.LOOP_FF_ff_slot l)) ||
    (c.aon (F.LOOP_CTRL_track_en l) && undefined (F.LOOP_TRACK_track_slot l)) || !(out == 4 || out == 5)

/-- Every test of an enabled loop that is its own. [log 69 DEDUCED] -/
def State.loopFailures (c : State) : List Failure :=
  let ls := c.enabledLoops
  refuse 0x28 ls c.loopParamBad ++ refuse 0x29 ls c.loopSourceBad ++
    refuse 0x2A ls (fun l => c.aon (F.LOOP_CTRL_casc_en l) && (c.act (F.LOOP_MEAS_casc_loop l) == l ||
      !c.aon (F.LOOP_CTRL_enable (c.act (F.LOOP_MEAS_casc_loop l))))) ++
    refuse 0x2B ls (fun l => c.act (F.LOOP_CTRL_ovr l) != 0 && !c.pairOk l)

/-! The ring, time, the ply, the brake domain, the recorder, power and access control. -/

/-- The module's ring load, bytes per µs rounded up (R230). [log 69 DEDUCED] -/
def State.ringLoad (c : State) : Nat :=
  let bytes := ((partEntries c.pubSlots.length).map (fun n => 8 * ceilDiv (36 + 5 * n + 1) 8)).sum
  ceilDiv (2 * bytes * 1000) (2 ^ c.act F.RING_CTRL_pub_rate_n * c.turnNs)

/-- The ring's tests: lag and load (R230). [log 69 DEDUCED] -/
def State.ringFailures (s c : State) : List Failure :=
  let w := s.largestWire c.pubSlots.length
  let own := if s.rd (F.RING_MEMBER_state s.position) == 1 then s.rd (F.RING_MEMBER_load s.position) else 0
  let lag := 100 * c.act F.RING_CTRL_lag_ns
  failIf (decide (lag < 51200 + 640 + 100 * s.rd F.RING_TRANSIT_transit_ns + w + 2400)) 0x40 0 ++
    failIf (decide (3750 < s.rd F.RING_LOAD_total - own + c.ringLoad)) 0x41 0 ++
    failIf (decide (20 < c.act F.RING_CTRL_pub_rate_n)) 0x4D F.RING_CTRL_pub_rate_n.off

/-- Is a value within a range? -/
def within (a x b : Nat) : Bool := decide (a ≤ x) && decide (x ≤ b)

/-- Time, ply, brake, power and firmware settings (R266, R298, R313, R317, R362, R468). -/
def State.settingFailures (s c : State) : List Failure :=
  failIf (!(within 1 (c.act F.TIME_CTRL_slew_ppb) 100 && within 1 (c.act F.TIME_CTRL_hold_s) 3600)) 0x42
      F.TIME_CTRL_sel.off ++
    failIf (!within 10 (c.act F.PLY_CTRL_revert_hold_s) 86400) 0x43 F.PLY_CTRL_revert_en.off ++
    (if s.on F.BRK_LOCK_lock then
      (changeList s.hop.active c.hop.active).filterMap (fun e =>
        if 0x8000 ≤ e.1 ∧ e.1 < 0x9000 then some (0x44, e.1) else none)
    else []) ++
    ((upTo 8).flatMap (fun i => failIf (!within 1 (c.act (F.BRK_IN_CFG_release_us i)) 1000) 0x45
      (F.BRK_IN_CFG_release_us i).off)) ++
    failIf (c.act F.PWR_CTRL_floor == 7) 0x4B F.PWR_CTRL_floor.off ++
    failIf (c.act F.HOPPER_LEVEL_level != 0) 0x4C (c.act F.HOPPER_LEVEL_level) ++
    failIf (!within 30 (c.act F.FW_CTRL_confirm_s) 3600) 0x4D F.FW_CTRL_confirm_s.off

/-- Does some chapter define a BAR0 register at an offset (R366)? -/
def definedOff (off : Nat) : Bool :=
  !(rowsAt off).isEmpty || (decide (0x22000 ≤ off) && decide (off < 0x2A000) && off % 4 == 0) ||
    (decide (off ≤ 0x20) && off % 4 == 0) || (decide (0x100 ≤ off) && decide (off < 0x1B0) && off % 4 == 0)

/-- The entries of a snapshot list up to its end (R415). -/
def State.recEntries (c : State) (list : Nat) : List Nat :=
  ((upTo 59).map (fun j => c.act (F.REC_LIST_entry list j))).takeWhile (fun e => e / 2 ^ 30 != 0)

/-- The recorder's tests (R416). -/
def State.recorderFailures (c : State) : List Failure :=
  refuse 0x4A (upTo 64) (fun n => (c.aon (F.REC_TRIG_enable n) && c.aon (F.REC_TRIG_list_en n)) &&
    (c.recEntries (c.act (F.REC_TRIG_list n))).any (fun e => match e / 2 ^ 30 with
      | 1 => !definedOff (e % 2 ^ 20)
      | 2 => c.slotKind (e % 2 ^ 18) == 0
      | _ => !c.aon (F.LOOP_CTRL_enable (e % 2 ^ 12))))

/-- Access-control regions: limits, addresses and locks (R400, R406). -/
def State.accessFailures (s c : State) : List Failure :=
  (upTo 4).flatMap (fun u => (upTo 32).flatMap (fun n =>
    let off := (F.AC_BASE_LO_enable u n).off
    failIf (c.aon (F.AC_BASE_LO_enable u n) && (decide (c.acLimit u n < c.acBase u n) ||
      (u != 3 && (decide (0x7FFFFFFFF < c.acBase u n) || decide (0x7FFFFFFFF < c.acLimit u n))))) 0x4D off ++
    (if bitOf (s.rd (F.AC_LOCK_lock u)) n then
      (upTo 4).flatMap (fun i => failIf (stgWord s.hop.active (off + 4 * i) != stgWord c.hop.active (off + 4 * i))
        0x4D (off + 4 * i))
    else [])))

/-! The mill bus (R370, R371, R375, R376, R379, R381). -/

/-- A bit time in quantum-clock periods of 12.5 ns (R369, R370). [log 70 PRESUMED] -/
def bitTime (brp tseg1 tseg2 : Nat) : Nat := (brp + 1) * (3 + tseg1 + tseg2)

/-- The longest frame of a format and length with the greatest stuffing, plus 3 bit times, in periods of 12.5 ns
(R379; field lengths of ISO 11898-1: PRESUMED). [log 70 PRESUMED] -/
def State.worstFrame (c : State) (ch : Nat) (fd ide : Bool) (len : Nat) : Nat :=
  let nb := bitTime (c.act (F.MB_NBT_brp_m1 ch)) (c.act (F.MB_NBT_tseg1_m1 ch)) (c.act (F.MB_NBT_tseg2_m1 ch))
  let db := bitTime (c.act (F.MB_DBT_brp_m1 ch)) (c.act (F.MB_DBT_tseg1_m1 ch)) (c.act (F.MB_DBT_tseg2_m1 ch))
  if !fd then
    let stuffed := (if ide then 54 else 34) + 8 * len
    (stuffed + 10 + (stuffed - 1) / 4 + 3) * nb
  else
    let arb := if ide then 36 else 17
    let dat := 5 + 8 * len
    let crc := if len ≤ 16 then 4 + 17 + 6 else 4 + 21 + 7
    let early := (arb - 1) / 4
    (arb + early + 10 + 3) * nb + (dat + ((arb + dat - 1) / 4 - early) + crc) * db

/-- Periods of 12.5 ns in a µs. -/
def perUs : Nat := 80

/-- Is a channel's time-triggered schedule inconsistent (R379)? [log 69 DEDUCED] -/
def State.scheduleBad (c : State) (ch : Nat) : Bool :=
  let bufs := (upTo 64).filter (fun b => c.act (F.MB_BUF_CFG_role ch b) == 4)
  let mark (b : Nat) : Nat := c.act (F.MB_BUF_TT_mark_us ch b) * perUs
  let stop (b : Nat) : Nat :=
    let fd := c.aon (F.MB_BUF_TT_fd ch b)
    mark b + c.worstFrame ch fd (c.aon (F.MB_BUF_ID_ide ch b)) (dlcBytes fd (c.act (F.MB_BUF_TT_len_code ch b)))
  let due (n b : Nat) : Bool := n % 2 ^ c.act (F.MB_BUF_TT_rep ch b) == c.act (F.MB_BUF_TT_off ch b)
  let arb0 := c.act (F.MB_TT_ARB_arb_start ch) * perUs
  let arb1 := c.act (F.MB_TT_ARB_arb_end ch) * perUs
  let cycle := c.act (F.MB_TT_CTRL_cycle_us ch) * perUs
  let ref := c.worstFrame ch false false 8
  bufs.any (fun b => decide (2 ^ c.act (F.MB_BUF_TT_rep ch b) ≤ c.act (F.MB_BUF_TT_off ch b))) ||
    (decide (arb0 < arb1) && decide (cycle < arb1)) ||
    (upTo (2 ^ c.act (F.MB_TT_CTRL_cycles_log2 ch))).any (fun n =>
      let here := bufs.filter (due n)
      here.any (fun b => decide (mark b < ref) || decide (cycle < stop b) ||
        (decide (mark b < arb1) && decide (arb0 < stop b)) ||
        here.any (fun o => o != b && decide (mark o < stop b) && decide (mark b < stop o))))

/-- Bit timing of a channel that runs (R370). -/
def State.bitTimeFailures (c : State) (ch : Nat) : List Failure :=
  let nq := bitTime (c.act (F.MB_NBT_brp_m1 ch)) (c.act (F.MB_NBT_tseg1_m1 ch)) (c.act (F.MB_NBT_tseg2_m1 ch))
  let dq := bitTime (c.act (F.MB_DBT_brp_m1 ch)) (c.act (F.MB_DBT_tseg1_m1 ch)) (c.act (F.MB_DBT_tseg2_m1 ch))
  failIf (c.act (F.MB_NBT_tseg1_m1 ch) == 0 || decide (c.act (F.MB_NBT_tseg2_m1 ch) < c.act (F.MB_NBT_sjw_m1 ch)) ||
      decide (nq < 80) || decide (3 + c.act (F.MB_NBT_tseg1_m1 ch) + c.act (F.MB_NBT_tseg2_m1 ch) < 8)) 0x48
      (F.MB_NBT_brp_m1 ch).off ++
    failIf (decide (7 < c.act (F.MB_DBT_brp_m1 ch)) || decide (31 < c.act (F.MB_DBT_tseg1_m1 ch)) ||
      decide (15 < c.act (F.MB_DBT_tseg2_m1 ch)) || decide (15 < c.act (F.MB_DBT_sjw_m1 ch)) ||
      decide (c.act (F.MB_DBT_tseg2_m1 ch) < c.act (F.MB_DBT_sjw_m1 ch)) || decide (dq < 10) || decide (nq < dq)) 0x48
      (F.MB_DBT_brp_m1 ch).off

/-- The tests of a channel's buffers. -/
def State.millBufFailures (c : State) (ch b : Nat) : List Failure :=
  let role := c.act (F.MB_BUF_CFG_role ch b)
  let off := (F.MB_BUF_CFG_role ch b).off
  let rx := role == 1
  let urgent (ch b : Nat) : Bool := c.act (F.MB_BUF_CFG_role ch b) == 1 && c.aon (F.MB_BUF_CFG_urgent_en ch b)
  let fmt := c.act (F.MB_BUF_CFG_map_fmt ch b)
  let kind := c.slotKind (c.act (F.MB_BUF_MAP_map_slot ch b))
  let mapped := rx && c.aon (F.MB_BUF_CFG_map_en ch b)
  failIf (decide (5 ≤ role) || (mapped && (fmt == 3 || (decide (fmt ≤ 1) && c.act (F.MB_BUF_CFG_map_off ch b) == 63))) ||
      (urgent ch b && (upTo 128).any (fun i => i != ch * 64 + b && urgent (i / 64) (i % 64) &&
        c.act (F.MB_BUF_CFG_urgent (i / 64) (i % 64)) == c.act (F.MB_BUF_CFG_urgent ch b)))) 0x48 off ++
    failIf (mapped && decide (kind < 4)) 0x48 (F.MB_BUF_MAP_map_slot ch b).off ++
    failIf (role == 4 && c.act (F.MB_BUF_TT_rep ch b) == 7) 0x48 (F.MB_BUF_TT_rep ch b).off

/-- The tests of a channel. [log 69 DEDUCED, 71 DESIGN CHOICE] -/
def State.channelFailures (c : State) (ch : Nat) : List Failure :=
  let tt := c.aon (F.MB_TT_CTRL_tt_en ch)
  let off := (F.MB_TT_CTRL_tt_en ch).off
  let ttBad := c.act (F.MB_TT_CTRL_cycles_log2 ch) == 7 || decide (c.act (F.MB_TT_CTRL_cycle_us ch) < 100) ||
    (c.aon (F.MB_TT_CTRL_role ch) && Config.refId % 8 != 0)
  (if c.aon (F.MB_CTRL_enable ch) then c.bitTimeFailures ch else []) ++
    (upTo 64).flatMap (c.millBufFailures ch) ++
    (if tt then failIf ttBad 0x48 off ++ failIf (!ttBad && c.scheduleBad ch) 0x49 ch else [])

/-! All of them. -/

/-- The failures that CHECK reports of a snapshot. [log 69 DEDUCED] -/
def State.checkFailures (s : State) (m : RegMap) : List Failure :=
  let c := s.trial m
  s.turnFailures c ++ c.chainFailures ++ c.wheelFailures ++ c.taskFailures ++ s.keyFailures c ++ s.slotFailures c ++
    c.stationFailures ++ s.programFailures c ++ c.loopFailures ++ s.ringFailures c ++ s.settingFailures c ++
    c.channelFailures 0 ++ c.channelFailures 1 ++ c.recorderFailures ++ s.accessFailures c

end Sys2Proof.Machine
end

