-- ==== Sys2Proof/Machine/PlyRoles.lean ====
section
/-! DEFINITION. The role decisions of the ply: a silent partner, start-up, the loss of the link, and the start and the
failure of a join (R277, R286, R295). -/

namespace Sys2Proof.Machine

/-- The partner's record of a sample of a task (R115): its trap code and whether it ended by its release instant. -/
def State.partnerRec (s : State) (t k : Nat) : Option (Nat × Bool) :=
  (SMap.find (s.task t).partnerDone k).map (fun r => (r % 256, decide (256 ≤ r)))

/-- Did the partner overrun task t at sample k: no record in time of that sample and of the one before (R43, R115)?
[log 36 DEDUCED] -/
def State.partnerOverran (s : State) (t k : Nat) : Bool :=
  let late := fun (j : Nat) => match s.partnerRec t j with
    | some (0, true) => false
    | some (c, _) => c == 0
    | none => true
  late k && late (k - s.taskP t)

/-- Did the partner overrun task t at the sample of this module's latest slip of it (R46, R115)? [log 36 DEDUCED] -/
def State.bothLate (s : State) (t : Nat) : Bool :=
  match (s.task t).lastSlip with
  | none => false
  | some k => decide (0 < (s.task t).slipRun) && s.partnerOverran t k

/-- A takeover (R286, R289), unless the standby's own slack meter shows a task not within its budget on the turn on which
it overran: then it brakes as for a task overrun (R46). A partner that abdicates has overrun the tasks whose records show
it. [log 36 DEDUCED, 96 DEDUCED] -/
def State.tryTakeover (s : State) (cause : Nat) : State :=
  match (upTo 16).find? (fun t => (s.task t).overrun.isSome || (cause == 1 && s.bothLate t)) with
  | some t => s.overrunStop t false s.turn.nextRel
  | none => s.takeover cause

/-- No BEACON of role 0 or 1 from the partner's position (R277, R286). [log 96 DEDUCED] -/
def State.partnerBeaconless (s : State) : Bool :=
  let p := s.partnerPos
  !(s.rd (F.RING_MEMBER_state p) == 1 && s.rd (F.RING_MEMBER_role p) ≤ 1)

/-- The other evidence of the silent row of R286. [log 96 DEDUCED] -/
def State.silentEvidence (s : State) : Bool :=
  s.aon F.PLY_MILL_HB_mill_hb_en && !s.on F.PLY_STATUS_mill_hb_seen &&
    s.rd (F.MB_STATUS_state (s.act F.PLY_MILL_HB_mill_hb_chan)) != 3 && s.partnerBeaconless

/-- A standby judges its partner by the table of R286; one on the silent path keeps testing. [log 96 DEDUCED] -/
def State.judgePartner (s : State) : State :=
  if s.isStandby then
    if s.on F.PLY_STATUS_abd_in then s.tryTakeover 1
    else if s.ply.hbMissed < 3 then s
    else match s.rd F.PLY_STATUS_tok_in with
      | 1 => s.tryTakeover 2
      | 2 => s.leaveTracking 3
      | _ =>
        if s.silentEvidence then s.tryTakeover 3
        else
          let s := s.leaveTracking 12
          { s with ply := { s.ply with silentTest := true } }
  else if s.ply.silentTest && s.plyState == 5 && 3 ≤ s.ply.hbMissed && s.rd F.PLY_STATUS_tok_in == 0 &&
      s.silentEvidence then s.tryTakeover 3
  else s

/-- The active that has lost its partner becomes LONE (R277). -/
def State.loneIfLost (s : State) : State :=
  if s.plyState == 2 && !s.plyUp && s.rd F.PLY_STATUS_tok_in != 2 then
    (s.setPlyState 1).plyEvt 2
  else s

/-- May the module leave STARTING: PD_SPINDLE, PD_WHEEL, PD_SKEIN and PD_RINGPLY on, the ejector closed (R277, R475)? -/
def State.rolePower (s : State) : Bool :=
  s.pd .spindle && s.pd .wheel && s.pd .skein && s.pd .ringply && !s.pwr.ejected

/-- STARTING to LONE (R112, R277, R279): the epoch is 1 plus the greatest heard; the module is active from here. A change
that would raise the epoch past its limit does not take place, and the outputs are braked. -/
def State.becomeLone (s : State) : State :=
  let e := max s.ply.partnerEpoch s.ply.heardEpoch
  if epochMax ≤ e then ({ s with brake := { s.brake with epochLimit := true } } : State).row19
  else
  let s := (s.wr F.PLY_EPOCH_epoch (e + 1)).setPlyState 1
  let s : State := { s with ply := { s.ply with tokOut := true } }
  let s := (s.setMuted false).queueHeartbeat
  (s.wr F.PLY_REASON_takeover 6).restoreRetained

/-- The seal of each part's image and of the committed image, as a JOIN frame carries them (R272). -/
def State.joinSeals (s : State) : Bytes :=
  (upTo 12).flatMap (fun p => beBytes 4 (crc32c (s.fwPart s.fwSlot p))) ++
    beBytes 4 (s.rd F.HOPPER_ACTIVE_SEAL_seal)

/-- The straps byte of a JOIN frame: ply position and home (R267). -/
def State.strapByte (s : State) : Nat := s.rd F.PLY_STATUS_ply_pos + 2 * s.rd F.PLY_STATUS_home

/-- Send a JOIN frame (R272, R295). -/
def State.sendJoin (s : State) : State :=
  let level := if s.isActive then s.act F.HOPPER_LEVEL_level else 0
  s.sendPly 0x4C s.turn.k (beBytes 8 Config.moduleIdent.toNat ++ beBytes 1 s.strapByte ++ beBytes 1 level ++ [0, 0] ++
    s.joinSeals)

/-- A module enters JOINING and sends its JOIN frame (R277, R295). [log 51 DEDUCED] -/
def State.beginJoin (s : State) : State :=
  let s := (s.setPlyState 3).wr F.PLY_JOIN_phase 1
  let s := (s.inc F.PLY_JOIN_attempts).wr F.PLY_JOIN_backlog 0
  let s : State := { s with ply := { s.ply with
    silentTest := false, capture := none, captureRestarts := 0, captured := [], matchRun := 0, diverged := [], restored := [], recInputs := [], recSnaps := [], excluded := [],
    digOwn := [], digPartner := [] } }
  s.sendJoin

/-- A join fails with a reason (R295, R297): UNTRACKED, reason 14 for tracking. -/
def State.failJoin (s : State) (reason : Nat) : State :=
  if s.plyState != 3 then s
  else
    let s := (s.wr F.PLY_JOIN_fail reason).wr F.PLY_JOIN_phase 0
    let s := s.wr F.PLY_REASON_untracked 14
    (s.setPlyState 5).plyEvt 5 |>.plyEvt 3

/-- A module in STARTING that hears its partner on the ply link takes its role (R277). [log 93 DEDUCED] -/
def State.decideRole (s : State) : State :=
  if s.plyState != 0 || !s.plyUp || !s.rolePower then s
  else match s.rd F.PLY_STATUS_partner_state with
    | 1 => s.beginJoin
    | 2 => s.beginJoin
    | 0 => if s.isHome then s.becomeLone else s
    | _ => s

end Sys2Proof.Machine
end

