-- ==== Sys2Proof/Machine/TimeOps.lean ====
section
/-! DEFINITION. The time engine's shared operations: domains, working time, captures and calibration (chapter 11). -/

namespace Sys2Proof.Machine

/-- Is a domain B? -/
def isB : Domain → Bool
  | .a => false
  | .b => true

/-- The number of a domain: A 0, B 1. -/
def domNum (d : Domain) : Nat := bit (isB d)

/-- A domain. -/
def State.dom (s : State) (d : Domain) : TimeDom := if isB d then s.time.domB else s.time.domA

/-- The state with a domain written. -/
def State.setDom (s : State) (d : Domain) (x : TimeDom) : State :=
  if isB d then { s with time := { s.time with domB := x } } else { s with time := { s.time with domA := x } }

/-- The state of a domain (R252). -/
def State.domState (s : State) (d : Domain) : Nat :=
  if isB d then s.rd F.TIME_STATUS_dom_b else s.rd F.TIME_STATUS_dom_a

/-- The module's role in a domain: 0 follower, 1 master, 2 standby master. -/
def State.domRole (s : State) (d : Domain) : Nat :=
  if isB d then s.rd F.TIME_STATUS_role_b else s.rd F.TIME_STATUS_role_a

/-- A role written. -/
def State.setRole (s : State) (d : Domain) (r : Nat) : State :=
  s.wr (if isB d then F.TIME_STATUS_role_b else F.TIME_STATUS_role_a) r

/-- The generation of a domain. -/
def State.domGen (s : State) (d : Domain) : Nat :=
  if isB d then s.rd F.TIME_STATUS_gen_b else s.rd F.TIME_STATUS_gen_a

/-- A generation written. -/
def State.setGen (s : State) (d : Domain) (g : Nat) : State :=
  s.wr (if isB d then F.TIME_STATUS_gen_b else F.TIME_STATUS_gen_a) g

/-- Is the module a master candidate for a domain (R241)? -/
def State.candidate (s : State) (d : Domain) : Bool :=
  s.aon (if isB d then F.TIME_MASTER_master_b else F.TIME_MASTER_master_a)

/-- Is a domain the followed one? -/
def State.follows (s : State) (d : Domain) : Bool := s.time.followB == isB d

/-- LOCAL in 1/256 ns (R239): a tick is 819.2 of them. A stamp of a SerDes lane or of a PPS edge is so many 1/256 ns into
the tick as it was taken (R245, R247, R261). -/
def State.localStamp (s : State) : Nat := s.time.ticks * 4096 / 5

/-- The whole microseconds of LOCAL. -/
def State.localUs (s : State) : Nat := s.time.ticks * 2 / 625

/-- Units in 10 ps, 20 ps and 1 ns. -/
def unit10ps : Nat := 42949672
/-- Units in 20 ps. -/
def unit20ps : Nat := 85899345

/-- The active tells its partner the O it has captured (R258). It awaits no ACK. [log 50 DEDUCED] -/
def State.tellCapture (s : State) (o : Int) : State :=
  if s.plyState != 2 then s
  else
    let kept := s.ply.orders
    let s := s.sendOrder 4 s.turn.k 0 (.captured o)
    { s with ply := { s.ply with orders := kept } }

/-- Capture O (R256): followed domain less working time, 0 where that is at most 10 ps. A standby's own is kept until the
active's comes in its place (R258). [log 50 DEDUCED] -/
def State.captureO (s : State) : State :=
  let o : Int := (s.time.followed.value : Int) - s.time.work
  let o := if o.natAbs ≤ unit10ps then 0 else o
  let s : State := { s with time := { s.time with carry := o, slewOwed := false,
                                                  carried := if s.isStandby then some o else none } }
  ((s.wrb F.TIME_STATUS_slewing (decide (o ≠ 0))).timeEvt 6).tellCapture o

/-- The standby takes the active's captured O in place of its own, less what it has slewed of it since (R258).
[log 50 DEDUCED] -/
def State.takeCaptured (s : State) (o : Int) : State :=
  match s.time.carried with
  | none => s
  | some own =>
    let carry := s.time.carry + o - own
    let s : State := { s with time := { s.time with carry := carry, carried := none, slewOwed := decide (carry = 0) } }
    s.wrb F.TIME_STATUS_slewing (decide (carry ≠ 0))

/-- Does the active of this module's ply decide its captures and switches (R258): is it a standby, or joining or
untracked beside a partner? -/
def State.ledInTime (s : State) : Bool := s.isStandby || (s.plyUp && (s.plyState == 3 || s.plyState == 5))

/-- The followed domain has entered LOCKED from ACQUIRING (R256, R258): capture now, or name a boundary in a ply. A
standby waits for the active's order. -/
def State.wantCapture (s : State) : State :=
  if !s.time.workSet || s.ledInTime then s
  else if s.plyState != 2 then s.captureO
  else
    let b := s.orderBoundary
    let s : State := { s with time := { s.time with switchAt := some (b, true) } }
    s.sendOrder 4 b 0 (.timeSwitch true)

/-- The automatic switch (R257): the followed domain INVALID, the other LOCKED. -/
def State.autoSwitch (s : State) : State :=
  let other : Domain := if s.time.followB then .a else .b
  if !s.aon F.TIME_CTRL_auto_switch || s.ledInTime || !s.time.workSet || s.time.switchAt.isSome ||
      s.followedState != 0 || s.domState other != 2 || !s.on F.TURN_STATUS_running then s
  else if s.plyState != 2 then { s with time := { s.time with switchAt := some (s.boundary2, false) } }
  else
    let b := s.orderBoundary
    let s : State := { s with time := { s.time with switchAt := some (b, false) } }
    s.sendOrder 4 b 0 (.timeSwitch false)

/-- TIME_STATUS.work as the followed domain stands (R254): following while it is LOCKED or HOLDOVER. [log 48 DEDUCED] -/
def State.workRegs (s : State) : State :=
  if !s.time.workSet then s
  else
    let now := if 2 ≤ s.followedState then 1 else 2
    let was := s.rd F.TIME_STATUS_work
    let s := s.wr F.TIME_STATUS_work now
    if was == 1 && now == 2 then s.timeEvt 8 else s

/-- A domain's state changes (R252, R256, R257). -/
def State.setDomState (s : State) (d : Domain) (st : Nat) : State :=
  let was := s.domState d
  if was == st then s
  else
    let s := s.wr (if isB d then F.TIME_STATUS_dom_b else F.TIME_STATUS_dom_a) st
    let s := (s.timeEvt (domNum d)).workRegs
    let s := if was == 1 && st == 2 && s.follows d then s.wantCapture else s
    s.autoSwitch

/-- A LOCKED follower enters HOLDOVER (R240, R252): its replica keeps the last increment, with no correction. -/
def State.toHoldover (s : State) (d : Domain) : State :=
  if s.domState d == 2 && s.domRole d != 1 then
    (s.setDom d { s.dom d with corr := 0, corrLeft := 0, goodRun := 0 }).setDomState d 3
  else s

/-- The calibration state changes (R250, R252). -/
def State.setCal (s : State) (st : Nat) : State :=
  let was := s.rd F.TIME_STATUS_cal
  if was == st then s
  else
    let s := s.wr F.TIME_STATUS_cal st
    if st == 2 then s.timeEvt 9
    else if was == 2 then ((s.timeEvt 10).toHoldover .a).toHoldover .b
    else s

/-- The ring's membership changed (R250): the calibration starts again, and A is 0 until the ring has been intact. -/
def State.recalibrate (s : State) : State :=
  let s : State := { s with time := { s.time with closed := false, closureA := 0 } }
  let s := s.wr F.CAL_CLOSURE_a 0
  if s.rd F.TIME_STATUS_cal == 0 then s else s.setCal 1

end Sys2Proof.Machine
end

