-- ==== Sys2Proof/Machine/Ring.lean ====
section
/-! DEFINITION. The board ring: frames that arrive and are forwarded, membership, publications, links and the bypass
(chapter 10). -/

namespace Sys2Proof.Machine

/-- Count a frame in a counter of the ring (R236). -/
def State.ringCount (s : State) (j : Nat) : State := s.inc (F.RING_CNT_count j)

/-- The member at a position. -/
def State.member (s : State) (pos : Nat) : RingMember := SMap.getD s.ring.members pos ⟨0, 0, 0, 0, 0⟩

/-- The state of a position (R225). -/
def State.memberState (s : State) (pos : Nat) : Nat := s.rd (F.RING_MEMBER_state pos)

/-- Is a type one that ring frames carry (R223, R246, R248)? -/
def ringType (t : Nat) : Bool := t == 0x11 || t == 0x12 || t == 0x20 || t == 0x21

/-- Is a frame's length that of its type (R223, R225, R227)? -/
def ringLenOk (b : Bytes) : Bool :=
  let len := beAt b 8 2
  let t := byteAt b 0
  b.length == 36 + len && (if t == 0x11 then len % 5 == 0 && decide (len ≤ 2560) && decide (byteAt b 11 < byteAt b 12) &&
    decide (byteAt b 12 ≤ 8) else if t == 0x12 then len == 32
    else if t == 0x20 then len == 48 else len == 56)

/-- Forward a frame out of the other port, with its hops raised (R224, R392). -/
def State.ringForward (s : State) (east errBlock : Bool) (b : Bytes) : State :=
  let hops := byteAt b 10 + 1
  if s.bypassed || byteAt b 1 % 16 == s.position || 15 ≤ hops then s
  else
    let b' := setByte b 10 hops
    if errBlock then (if s.ringUp (!east) then s.emit (.ringErr (!east) b') else s)
    else if ringSealOk b then s.ringOut (!east) b'
    else
      let s := s.inc F.SEAL_CNT_CUT_count
      if s.ringUp (!east) then s.emit (.ringErr (!east) b') else s

/-- Take a ring frame of a type at a port: forwarded, and none when nothing further happens with it (R223, R224,
R81). The Boolean says whether it is a second copy. -/
def State.ringTake (s : State) (east errBlock : Bool) (b : Bytes) : State × Option Bool :=
  if !s.pd .ringply || (!s.bypassed && !s.ringUp east) then (s, none)
  else
    let s := s.ringForward east errBlock b
    if errBlock then (s, none)
    else if b.length < 36 then (s.ringCount 1, none)
    else if !ringSealOk b then (s.ringCount 0, none)
    else if !ringType (byteAt b 0) || !ringLenOk b then (s.ringCount 1, none)
    else
      let key := skKey (byteAt b 0) (byteAt b 1)
      let alive := beAt b 6 2
      match aliveClass s.ring.rxAlive key s.time.ticks alive with
      | .repeated => (s, some true)
      | _ => ({ s with ring := { s.ring with rxAlive := aliveAccept s.ring.rxAlive key s.time.ticks alive } }, some false)

/-! Membership (R225, R235). -/

/-- Positions in state UP. -/
def State.upMembers (s : State) : List Nat := (upTo 16).filter (fun p => s.memberState p == 1)

/-- Is a member other than this module heard by one path only (R235)? [log 43 DEDUCED] -/
def State.onePath (s : State) : Bool :=
  s.upMembers.any (fun p =>
    let both := (s.member p).paths ||| (s.rd (F.RING_MEMBER_via_e p) + 2 * s.rd (F.RING_MEMBER_via_w p))
    p != s.position && both != 3)

/-- Is some member SILENT while others hear it, or do members hear disjoint sets (R235)? [log 43 DEDUCED] -/
def State.ringSplit (s : State) : Bool :=
  let up := s.upMembers.filter (fun p => p != s.position)
  (upTo 16).any (fun p => s.memberState p == 2 && up.any (fun q => bitOf (s.member q).hears p)) ||
    up.any (fun p => up.any (fun q => (s.member p).hears &&& (s.member q).hears == 0))

/-- The ring's condition, members and loads as the member states stand (R230, R235, R236). [log 43 DEDUCED] -/
def State.ringRegs (s : State) : State :=
  let others := s.upMembers.filter (fun p => p != s.position)
  let now := if others.isEmpty then 0 else if s.ringSplit then 3 else if s.onePath then 2 else 1
  let was := s.rd F.RING_STATUS_ring
  let s := s.wr F.RING_STATUS_ring now
  let s := s.wr F.RING_STATUS_members s.upMembers.length
  let total := (s.upMembers.map (fun p => s.rd (F.RING_MEMBER_load p))).foldl (· + ·) 0
  let s := (s.wr F.RING_LOAD_total (min total 0xFFFF)).wrb F.RING_STATUS_overload (decide (6250 < total))
  if now == was then s
  else if now == 2 then s.ringEvt 2
  else if now == 1 then s.ringEvt 3
  else if now == 3 then s.ringEvt 4
  else s

/-- A position's state written, with its event; a member that comes or goes is a change of topology (R234).
[log 43 DEDUCED] -/
def State.setMember (s : State) (p st : Nat) (evt : Nat) : State :=
  let s := (s.wr (F.RING_MEMBER_state p) st).ringEvt evt
  if st == 1 || st == 2 then (s.ringEvt 10).recalibrate else s

/-- A BEACON's content is kept for its position (R225). [log 43 DEDUCED] -/
def State.noteBeacon (s : State) (p : Nat) (payload : Bytes) (paths : Nat) : State :=
  let m : RingMember := { ident := beAt payload 0 8, role := byteAt payload 8, load := beAt payload 12 2,
                          hears := beAt payload 10 2, paths := paths }
  let s : State := { s with ring := { s.ring with members := SMap.put s.ring.members p m } }
  (s.wr (F.RING_MEMBER_role p) (m.role % 4)).wr (F.RING_MEMBER_load p) m.load

/-- BEACON_RECEIVED (R224, R225, R233, R235). The module's own BEACON, come back round the ring, is heard as any
other's. -/
def execBeaconReceived (east errBlock : Bool) (frame : Bytes) (s : State) : Host.Outcome State Fault Refusal :=
  match s.ringTake east errBlock frame with
  | (s, none) => ok s
  | (s, some again) =>
    if byteAt frame 0 != 0x12 then ok s
    else
      let p := byteAt frame 1 % 16
      let payload := (frame.drop 32).take 32
      let ident := beAt payload 0 8
      let viaE := F.RING_MEMBER_via_e p
      let viaW := F.RING_MEMBER_via_w p
      if again then ok ((s.wr (if east then viaE else viaW) 1).ringRegs)
      else
        let foreign := p == s.position && ident != Config.moduleIdent.toNat
        let s := if p == s.partnerPos then s.hearEpoch (beAt frame 2 4 % 2 ^ 28) else s
        let st := s.memberState p
        let clash := st == 1 && ident != (s.member p).ident
        let paths := if st == 1 then s.rd viaE + 2 * s.rd viaW else 3
        let s := s.noteBeacon p payload paths
        let s := (s.wrb viaE east).wrb viaW (!east)
        let s := if foreign && s.bypassed then s.wr F.RING_STATUS_clash 1 else s
        let s : State := if foreign then { s with ring := { s.ring with ownClash := true } } else s
        let s := if clash then s.setMember p 3 7
          else if st == 1 || st == 3 then s
          else s.setMember p 1 5
        ok s.ringRegs

/-- Whether another identity still claims the own position, as its state there changes (R225, R233). -/
def State.ownClaim (s : State) (p : Nat) (held : Bool) : State :=
  if p != s.position || (held && (s.member p).ident != Config.moduleIdent.toNat) then s
  else { s.wr F.RING_STATUS_clash 0 with ring := { s.ring with ownClash := false } }

/-- MEMBER_SILENT (R225, R286): no BEACON for 50 µs, which may complete the silent row. -/
def execMemberSilent (pos : Fin 16) (s : State) : Host.Outcome State Fault Refusal :=
  if s.memberState pos.val != 1 then ok s
  else ok (((s.setMember pos.val 2 6).ownClaim pos.val false).ringRegs.judgePartner)

/-- CLASH_CLEARED (R225): one identity only for 100 µs. -/
def execClashCleared (pos : Fin 16) (s : State) : Host.Outcome State Fault Refusal :=
  let p := pos.val
  if s.memberState p != 3 then ok s
  else ok (((s.wr (F.RING_MEMBER_state p) 1).ownClaim p true).ringRegs)

/-- BEACON_SEND (R225): the module's BEACON goes out of both ports. -/
def execBeaconSend (s : State) : Host.Outcome State Fault Refusal :=
  if !s.pd .ringply || s.bypassed then ok s
  else
    let role := if s.plyState == 1 then 0 else if s.plyState == 2 then 1 else if s.plyState == 4 then 2 else 3
    let heard := s.upMembers.foldl (fun a p => setBit a p true) 0
    let payload := beBytes 8 Config.moduleIdent.toNat ++ beBytes 1 role ++ beBytes 1 (s.rd F.PWR_STATUS_rung) ++
      beBytes 2 heard ++ beBytes 2 (s.rd F.RING_LOAD_own) ++ List.replicate 18 0
    ok (s.sendRing 0x12 (s.ringFlags s.isStandby s.isActive) 0 0 s.time.work 0 payload)

/-! Publications (R226 to R231). -/

/-- The instant in a ring frame's header, its seconds taken as the nearest before or at the module's own. -/
def State.ringInstant (s : State) (b : Bytes) : Nat :=
  (s.workSec / 2 ^ 32 * 2 ^ 32 + beAt b 16 4) * unitSec + beAt b 20 4 * unitNs + byteAt b 24 * 2 ^ 24

/-- Does a ring-input slot of this module name a ply? -/
def State.subscribes (s : State) (ply : Nat) : Bool :=
  s.slotList.any (fun n => s.slotKind n == 2 && s.act (F.SLOT_POL_SRC_peer n) % 16 / 2 == ply)

/-- A publication's part is held for the choice rule (R227, R228, R231). -/
def State.takePublish (s : State) (b : Bytes) : State :=
  let source := byteAt b 1 % 16
  let ply := source / 2
  let flags := beAt b 2 4
  let t := s.ringInstant b
  let part := byteAt b 11
  let payload := (b.drop 32).take (b.length - 36)
  let es : List (Nat × Nat) := (upTo (payload.length / 5)).map (fun i =>
    let e := beAt payload (5 * i) 5
    (e / 2 ^ 28, e % 2 ^ 28))
  let same := fun (p : Publication) => p.source == source && p.instant == t
  let old := (s.ring.pubs.find? same).getD
    ⟨source, t, 0, flags % 2 ^ 28, bitOf flags 28, beAt b 28 4, [], byteAt b 12, []⟩
  let p := { old with arrived := s.time.work, held := part :: old.held.erase part, entries := SMap.puts old.entries es }
  let s : State := { s with ring := { s.ring with pubs := p :: s.ring.pubs.filter (fun q => !same q) } }
  let whole := p.held.length == p.parts && old.held.length != p.parts
  let served := s.ring.pubs.any (fun q => !same q && q.instant == t && s.pubFit ply q)
  let passed := s.on F.TURN_STATUS_running && decide (0 < s.turn.cutoffs) &&
    decide (t + s.lagU ≤ s.boundaryU (s.turn.cutoffs - 1) + s.cutoffNs * unitNs)
  let s := if whole && s.pubFit ply p && !served && passed && s.subscribes ply then (s.ringCount 2).ringEvt 9 else s
  if !whole || p.shadow then s
  else
    let clash := s.ring.pubs.any (fun q => q.source != source && q.source / 2 == ply && q.instant == t && !q.shadow &&
      q.epoch == p.epoch && q.held.length == q.parts)
    let s := if clash then (s.ringCount 3).ringEvt 8 else s
    if s.epochRec ply < p.epoch then
      { s with ring := { s.ring with epochs := SMap.put s.ring.epochs ply p.epoch } }
    else s

/-- PUBLISH_RECEIVED (R224, R227 to R229, R231). What the partner lacks of publications it tells by a path the spec
does not lay out, so whether a part is bridged to it is a free value. [log 44 DESIGN CHOICE] -/
def execPublishReceived (east errBlock : Bool) (frame : Bytes) (s : State) : Host.Outcome State Fault Refusal :=
  match s.ringTake east errBlock frame with
  | (s, none) => ok s
  | (s, some again) =>
    if byteAt frame 0 != 0x11 || again || byteAt frame 1 % 16 == s.position then ok s
    else
      let s := s.takePublish frame
      if !s.plyUp then ok s
      else
        let f := s.free
        ok (if f.1 % 2 == 1 then f.2.sendPly 0x41 s.turn.k frame else f.2)

/-- A PUBLISH frame that the partner bridged (R229, R236). [log 44 DESIGN CHOICE] -/
def State.takeBridgedPublish (s : State) (b : Bytes) : State :=
  if b.length < 36 then s.ringCount 1
  else if !ringSealOk b then s.ringCount 0
  else if byteAt b 0 != 0x11 || !ringLenOk b then s.ringCount 1
  else
    let key := skKey 0x11 (byteAt b 1)
    let alive := beAt b 6 2
    match aliveClass s.ring.rxAlive key s.time.ticks alive with
    | .repeated => s.ringCount 4
    | _ =>
      let s : State := { s with ring := { s.ring with
        rxAlive := aliveAccept s.ring.rxAlive key s.time.ticks alive } }
      (s.ringCount 4).takePublish b

/-- PUBLICATION_LAUNCH (R226, R260, R285): the parts composed at publication instants at least 512 ns ago go out. -/
def execPublicationLaunch (s : State) : Host.Outcome State Fault Refusal :=
  let due := fun (p : PubPart) => decide (p.instant + 512 * unitNs ≤ s.time.work)
  let ps := s.ring.launch.filter due
  let s : State := { s with ring := { s.ring with launch := s.ring.launch.filter (fun p => !due p) } }
  if !(s.isActive || s.isStandby) || s.bypassed then ok s
  else ok (ps.foldl (fun s p =>
    let shadow := !(p.active && s.isActive)
    s.sendRing 0x11 (s.ringFlags shadow s.isActive) p.part p.parts p.instant p.period p.payload) s)

/-! Links and the bypass (R232 to R235). -/

/-- Does a condition of R232 hold that closes the bypass? -/
def State.bypassWanted (s : State) : Bool :=
  !s.pd .ringply || decide (2 < s.rd F.PWR_STATUS_rung) || s.pwr.ejected ||
    s.on F.RING_POSITION_strap_err || s.on F.RING_STATUS_clash || !s.aon F.RING_CTRL_enable

/-- A port's link is lost: its marks with it (R247, R248). -/
def State.dropMarks (s : State) (east : Bool) : State :=
  if east then { s with time := { s.time with sentEast := none, markEast := none } }
  else { s with time := { s.time with sentWest := none, markWest := none } }

/-- The bypass closes: the ports' links are down, and nothing waits for launch (R232, R234). -/
def State.closeBypass (s : State) : State :=
  if s.bypassed then s
  else
    let s := s.wr F.RING_STATUS_bypass 1
    let down := fun (s : State) (f : Fld) (i : Nat) => if s.rd f == 2 then (s.wr f 0).ringEvt i else s.wr f 0
    let s := down (down s F.RING_STATUS_link_e 0) F.RING_STATUS_link_w 1
    let s : State := { s with ring := { s.ring with listening := true, launch := [] } }
    ((((s.dropMarks true).dropMarks false).ringEvt 10).setCal 0)

/-- The bypass closes if R232 asks for it. -/
def State.checkBypass (s : State) : State := if s.bypassWanted then s.closeBypass else s

/-- BYPASS_OPEN (R233): the ports train with their neighbours. -/
def execBypassOpen (s : State) : Host.Outcome State Fault Refusal :=
  if !s.bypassed || s.bypassWanted || s.ring.ownClash || !s.time.workSet then ok s
  else
    let s := ((s.wr F.RING_STATUS_bypass 0).wr F.RING_STATUS_link_e 1).wr F.RING_STATUS_link_w 1
    let s : State := { s with ring := { s.ring with listening := false } }
    ok ((s.ringEvt 10).setCal 1)

/-- RING_LINK_CHANGE (R235, R396, R397): a port's link goes down, trains or has trained. -/
def execRingLinkChange (east : Bool) (link : LinkLevel) (s : State) : Host.Outcome State Fault Refusal :=
  let f := if east then F.RING_STATUS_link_e else F.RING_STATUS_link_w
  let lost := fun (s : State) (v : Nat) =>
    if s.rd f == 2 then ((s.wr f v).dropMarks east).ringEvt (if east then 0 else 1) else s.wr f v
  if !s.pd .ringply || s.bypassed then ok s
  else match link with
    | .up =>
      let s := s.wr f 2
      ok { s with ring := { s.ring with rxAlive := [], txAlive := [] } }
    | .training => ok (lost s 1)
    | .down => ok (lost s 0)

end Sys2Proof.Machine
end

