-- ==== Sys2Proof/Machine/SkeinOps.lean ====
section
/-! DEFINITION. What arrives on a Skein port and what answers it: INPUT frames, JOIN records, measured delays and
setup records (chapter 04). -/

namespace Sys2Proof.Machine

/-- Is a frame whole: its seal good and its length field that of its payload? -/
def skeinWhole (b : Bytes) (len : Nat) : Bool := b.length == 36 + len && (readSkein b).len == len

/-- Count a frame in a counter of port p (R102). -/
def State.skCount (s : State) (p j : Nat) : State := s.inc (F.SK_CNT_count p j)

/-- A frame of port p whose seal fails (R80). -/
def State.skSealBad (s : State) (p : Nat) : State := (s.skCount p 0).skEvt p 5

/-- The state of a position (R96). -/
def State.stnState (s : State) (n : Nat) : Nat := s.rd (F.SK_STN_STATE_state (n / 16) (n % 16))

/-- A position's state written, with the event of the transition. -/
def State.setStn (s : State) (n state : Nat) (evt : Option Nat) : State :=
  let s := s.wr (F.SK_STN_STATE_state (n / 16) (n % 16)) state
  match evt with
  | some i => s.skEvt (n / 16) i
  | none => s

/-- Port p's lane is not up: off or training (R102); where it was up, the event says so. -/
def State.laneDown (s : State) (p level : Nat) : State :=
  let was := s.skUp p
  let s := s.wr (F.SK_STATUS_link p) level
  if was then s.skEvt p 9 else s

/-- SK_STATUS.chain follows the map of port p: no stations, or intact once its first stations stand on an up link (R98,
R102). [log 40 DEDUCED] -/
def State.chainReg (s : State) (p : Nat) : State :=
  if (s.portStations p).isEmpty then s.wr (F.SK_STATUS_chain p) 0
  else if s.skUp p && s.rd (F.SK_STATUS_chain p) == 0 then s.wr (F.SK_STATUS_chain p) 1
  else s

/-- Is a station present in the map of its port (R70)? -/
def State.present (s : State) (n : Nat) : Bool := s.aon (F.STATION_MAP_0_present n)

/-- Is a station present on a port that runs, in a configuration (R96, R102)? -/
def runsIn (m : RegMap) (n : Nat) : Bool :=
  RegMap.get m (F.STATION_MAP_0_present n) == 1 && RegMap.get m (F.SK_CTRL_enable (n / 16)) == 1

/-- A frame accepted by its alive counter (R81, R397), on port p: the class, and the state that counted it. -/
def State.skClass (s : State) (p key alive : Nat) : State × AliveClass :=
  let cls := aliveClass s.skein.rxAlive key s.time.ticks alive
  match cls with
  | .repeated => (s.skCount p 4, cls)
  | _ =>
    let s := if cls = .gap then s.skCount p 3 else s
    ({ s with skein := { s.skein with rxAlive := aliveAccept s.skein.rxAlive key s.time.ticks alive } }, cls)

/-- Has port p sent a SETUP frame in the present turn (R88)? -/
def State.setupSent (s : State) (p : Nat) : Bool := (s.port p).setupTurn == some s.turn.k

/-- An accepted INPUT frame moves its position's state (R96). -/
def State.stnHeard (s : State) (n : Nat) (inOrder : Bool) : State :=
  match s.stnState n with
  | 2 =>
    let run := if inOrder then (s.posn n).inRun + 1 else 0
    let s := s.setPosn n { s.posn n with inRun := run }
    if 3 ≤ run then s.setStn n 3 (some 0) else s
  | 4 => s.setStn n 3 (some 0)
  | _ => s

/-- An INPUT frame of port p (R33, R80, R81, R96, R97, R99, R279), received directly or bridged. A
damaged frame of a station that is bridged leaves cut-through and ends in an error block (R392).
[log 17 DEDUCED, 39 DEDUCED] -/
def State.takeInputFrame (s : State) (p : Nat) (bridged : Bool) (b : Bytes) : State :=
  if !sealOk b || b.length < 36 then
    let s := s.skSealBad p
    if !bridged && s.plyUp && s.skein.partnerLacks.contains (byteAt b 1) then
      (s.inc F.SEAL_CNT_CUT_count).emit (.plyErr b)
    else s
  else
    let f := readSkein b
    let n := f.station
    let s := if bridged && f.type == 1 then s.skCount p 6 else s
    if f.type != 1 then (if 1 ≤ f.type ∧ f.type ≤ 5 then s else s.skCount p 1)
    else if n / 16 != p || !s.present n || !skeinWhole b (payBytes (s.act (F.STATION_MAP_0_in_samples n))) then
      s.skCount p 1
    else
      let s : State := if s.plyState == 0 && !bridged then
          { s with ply := { s.ply with heardEpoch := max s.ply.heardEpoch f.epoch } } else s
      if !s.on F.TURN_STATUS_running || s.turn.k < f.turn then s
      else if f.turn < s.turn.k || s.cutPassed then (s.skCount p 2).skEvt p 6
      else
        let direct := fun (s : State) => if bridged then s
          else
            let s := s.wr (F.SK_STN_STATE_direct p (n % 16)) 1
            if s.skein.direct.contains n then s
            else { s with skein := { s.skein with direct := n :: s.skein.direct } }
        match s.skClass p (skKey 1 n) f.alive with
        | (s, .repeated) => direct s
        | (s, cls) =>
          let s := if bridged then s.wr (F.SK_STN_STATE_direct p (n % 16)) 0 else direct s
          let s := s.wr (F.SK_STN_STATE_safe p (n % 16)) (bit (bitOf f.flags 0))
          let s := if bitOf f.flags 1 then (s.skCount p 5).skEvt p 7 else s
          let s := s.wr (F.SK_STN_STATE_missed p (n % 16)) 0
          let s : State := { s with image := { s.image with got := n :: s.image.got.erase n } }
          let s := s.stnHeard n (cls == .inOrder)
          let s := if !bridged && s.skein.partnerLacks.contains n then s.sendPly 0x41 f.turn b else s
          if s.stnState n != 3 then s
          else if s.replaying then { s with ply := { s.ply with recInputs := s.ply.recInputs ++ [(s.turn.k, n, b)] } }
          else s.storeInput n f

/-- The payload length of a module's frame of a type for a station (R80, R93). -/
def State.crossedLen (s : State) (type n : Nat) : Nat :=
  if type = 4 then 32 else payBytes (s.act (F.STATION_MAP_0_out_samples n))

/-- A frame that the partner sent and that crossed the whole chain (R80, R81, R87). [log 52 DEDUCED] -/
def State.takeCrossed (s : State) (p : Nat) (b : Bytes) : State :=
  if !sealOk b || b.length < 36 then s.skSealBad p
  else
    let f := readSkein b
    if 2 ≤ f.type ∧ f.type ≤ 4 then
      if !skeinWhole b (s.crossedLen f.type f.station) then s.skCount p 1
      else (s.skClass p (skKey f.type f.station) f.alive).1.hearEpoch f.epoch
    else if f.type = 1 ∨ f.type = 5 then s
    else s.skCount p 1

/-- The position that a JOIN record names among n stations (R95): none where it names none. [log 103 DEDUCED] -/
def joinPos (n c0 c1 : Nat) : Option Nat :=
  if c0 != 0xFF && c1 != 0xFF && c0 + c1 + 1 != n then none
  else if c0 != 0xFF then some c0
  else if c1 != 0xFF ∧ c1 < n then some (n - 1 - c1)
  else none

/-- Does a JOIN record fit the map entry of station n and its port's budget (R89, R96)? -/
def State.joinFits (s : State) (n : Nat) (r : Bytes) : Bool :=
  let expect := s.act (F.STATION_MAP_1_expect_id n)
  let p := n / 16
  (expect == 0 || beAt r 0 2 == expect) && decide (s.act (F.STATION_MAP_0_in_samples n) ≤ beAt r 2 2) &&
    decide (s.act (F.STATION_MAP_0_out_samples n) ≤ beAt r 4 2) &&
    decide (beAt r 6 2 ≤ s.act (F.STATION_MAP_2_fwd_ns n)) &&
    decide (beAt r 8 2 ≤ s.act (F.SK_BUDGET_emit_ns p)) && decide (beAt r 10 2 ≤ s.act (F.SK_BUDGET_setup_ns p))

/-- A JOIN frame of port p (R93 to R97). -/
def State.takeJoin (s : State) (p : Nat) (b : Bytes) : State :=
  if !sealOk b || b.length < 36 then s.skSealBad p
  else
    let f := readSkein b
    if f.type != 5 then (if 1 ≤ f.type ∧ f.type ≤ 5 then s else s.skCount p 1)
    else if !skeinWhole b 16 then s.skCount p 1
    else
      let r := f.payload
      match joinPos (s.portStations p).length (byteAt r 12) (byteAt r 13) with
      | none => s.skCount p 1
      | some pos =>
        let n := 16 * p + pos
        if 16 ≤ pos || !s.present n then s.skCount p 1
        else
          let s := s.wr (F.SK_STN_IDENT_ident p pos) (beAt r 0 2)
          if s.joinFits n r then
            let s := s.setStn n 2 none
            let s : State := { s with skein := { s.skein with
              rxAlive := SMap.del s.skein.rxAlive (skKey 1 n) } }
            s.setPosn n { s.posn n with inRun := 0, owesAnswer := true }
          else if s.stnState n == 5 then s
          else s.setStn n 5 (some 2)

/-! Delays (R89, R90). -/

/-- The mean of a position's echo measurements, to nearest; 0 with none (R90, R102). -/
def meanRtt (l : List Nat) : Nat := if l.isEmpty then 0 else (2 * l.foldl (· + ·) 0 + l.length) / (2 * l.length)

/-- This end's number: 0 for ply position 0 (R72). -/
def State.skEnd (s : State) : Nat := s.rd F.PLY_STATUS_ply_pos

/-- The delays d_0 and d_1 of station n, in 1/256 ns (R90); 0xFFFFFFFF for an end that does not reach it. The
partner's round trip comes by a path the spec does not lay out: a free value where this module holds none.
[log 41 DESIGN CHOICE] -/
def State.delays (s : State) (n : Nat) : State × Nat × Nat :=
  let p := n / 16
  let own := s.rd (F.SK_STN_RTT_rtt p (n % 16))
  let ownOk := own != 0 && s.on (F.SK_STN_STATE_direct p (n % 16))
  let farOk := s.plyUp && !s.skein.partnerLacks.contains n
  let f := s.free
  let s := if farOk then f.2 else s
  let far := f.1 % 2 ^ 32
  let no := 0xFFFFFFFF
  let half := fun (r : Nat) => (r + 1) / 2
  let sw := fun (a b : Nat) => if s.skEnd = 0 then (a, b) else (b, a)
  if ownOk && farOk then
    let r := sw own far
    let share : Int := (r.1 : Int) + (r.2 : Int)
    let diff := (s.port p).asym
    let d0 := rdiv ((r.1 : Int) * (share + diff)) (2 * share)
    let d1 := rdiv ((r.2 : Int) * (share - diff)) (2 * share)
    (s, toBits 32 d0, toBits 32 d1)
  else
    let r := sw (if ownOk then half own else no) (if farOk then half far else no)
    (s, r.1, r.2)

/-- Launch the SETUP frame of station n with its setup record (R90, R93, R95): the active's plain, the standby's
shadow, no other's. The record is that of the settings in force, so its effective turn has come.
[log 41 DESIGN CHOICE, 42 DEDUCED] -/
def State.sendSetup (s : State) (n : Nat) : State :=
  let shadow? := if s.isActive then some 0 else if s.isStandby then some 1 else none
  match shadow? with
  | none => s
  | some shadow =>
    match s.delays n with
    | (s, d0, d1) =>
      let p := n / 16
      let k := s.turn.k
      let u := s.boundaryU k
      let r := beBytes 1 (n % 16) ++ beBytes 1 (s.portStations p).length ++
        beBytes 2 (s.act (F.STATION_MAP_0_in_samples n)) ++ beBytes 2 (s.act (F.STATION_MAP_0_out_samples n)) ++
        beBytes 1 (s.act (F.STATION_MAP_0_rate_n n)) ++ [0] ++ beBytes 4 s.turnNs ++ beBytes 4 s.cutoffNs ++
        beBytes 4 d0 ++ beBytes 4 d1 ++ beBytes 8 k
      let s := s.setPosn n { s.posn n with sent := some (d0, d1) }
      let s := s.setPort p { s.port p with setupTurn := some k }
      let s := s.wr (F.SK_STN_DELAY_delay p (n % 16)) (if s.skEnd = 0 then d0 else d1)
      s.launchSkein 4 n shadow s.epoch k (u % unitSec / unitNs) (u % unitNs / 2 ^ 24) r

/-- The longest time, in 1/256 ns, that the budget gives a way over `segs` segments and the stations listed (R88,
R89). [log 27 DEDUCED] -/
def State.wayBudget (s : State) (p segs : Nat) (through : List Nat) : Nat :=
  256 * (segs * s.act (F.SK_BUDGET_seg_ns p) +
    (through.map (fun n => s.act (F.STATION_MAP_2_fwd_ns n))).foldl (· + ·) 0)

/-- Does a measurement of port p imply a segment or a forwarding time beyond the budget (R89)? [log 27 DEDUCED] -/
def State.overBudget (s : State) (p : Nat) : Bool :=
  let near := s.nearFirst p
  let n := near.length
  let far := s.rd (F.SK_OWD_FAR_owd p)
  decide (s.wayBudget p (n + 1) near < far) ||
    (upTo n).any (fun i => match near[i]? with
      | some x => decide (2 * s.wayBudget p (i + 1) (near.take i) < s.rd (F.SK_STN_RTT_rtt p (x % 16)))
      | none => false)

/-- Do port p's proxy flag as the stations served stand (R102). -/
def State.proxyReg (s : State) (p : Nat) : State :=
  s.wrb (F.SK_STATUS_proxy p) (s.skein.proxy.any (fun n => n / 16 == p))

end Sys2Proof.Machine
end

