-- ==== Sys2Proof/Machine/PowerOps.lean ====
section
/-! DEFINITION. Waking (R456, R458). -/

namespace Sys2Proof.Machine

/-- Does wake source n work from rung r (R456)? -/
def wakesFrom (n r : Nat) : Bool :=
  match n with
  | 0 => 1 ≤ r && r ≤ 4
  | 2 => r == 5 || r == 6
  | 6 => 1 ≤ r && r ≤ 3
  | _ => 1 ≤ r && r ≤ 6

/-- Is wake source n enabled (R456)? -/
def State.wakeEnabled (s : State) (n : Nat) : Bool := n < 2 || bitOf (s.act F.PWR_CTRL_wake_en) (n - 2)

/-- A rung change begins (R451, R460): one that leaves Stripped, Becalmed or Still upward is a cold start from a rung. -/
def State.startRung (s : State) (target : Nat) : State :=
  let r := s.rd F.PWR_STATUS_rung
  if target = r then s
  else
    let s := if target < r ∧ 4 ≤ r then (s.wr F.PWR_CAUSE_kind 1).wr F.PWR_CAUSE_from r else s
    (s.wr F.PWR_STATUS_target target).wr F.PWR_STATUS_moving 1

/-- The module goes up to a rung for a wake source (R456). -/
def State.wakeTo (s : State) (n target : Nat) : State :=
  (((s.wr F.PWR_WAKE_source n).wr F.PWR_WAKE_valid 1).pwrEvt 2).startRung target

/-- A wake source acts (R456): the module goes up to Grinding, or waits for the end of the change in progress
(R458). -/
def State.wake (s : State) (n : Nat) : State :=
  if !s.wakeEnabled n then s
  else if s.on F.PWR_STATUS_moving then { s with pwr := { s.pwr with wakeFrom := some n } }
  else if wakesFrom n (s.rd F.PWR_STATUS_rung) then s.wakeTo n 0
  else s

end Sys2Proof.Machine
end

