-- ==== Sys2Proof/Machine/Tasks.lean ====
section
/-! DEFINITION. Tasks, the turn watchdog, the key switch and retained variables (chapter 05), and the judgement of a
trap (R143). -/

namespace Sys2Proof.Machine

/-- TASK_INPUT_COPY_DONE (R105, R127): the copy ends, and each strand joins the queue of its spindle. -/
def execTaskInputCopyDone (t : Fin 16) (s : State) : Host.Outcome State Fault Refusal :=
  match (s.task t.val).inst with
  | none => ok s
  | some i =>
    if i.phase != .copying then ok s
    else
      let i := { i with phase := .running, strands := List.replicate (progStrands i.prog) Strand.start }
      ok (s.setInst t.val i).dispatchSpindles

/-- The instance of task t commits its views and data as one unit (R54, R131). -/
def State.commitInst (s : State) (t : Nat) (i : TaskInst) : State :=
  let s := s.saveTask i.sample t (i.data.map (·.1))
  let s := i.out.foldl (fun s e => s.commitSlot i.sample e.1 e.2) s
  let s := i.loopWrites.foldl (fun s e => s.barKey (2 ^ 20 + e.1) i.sample) s
  let s := i.mbq.foldl (fun s e => s.barKey (2 ^ 21 + e.1) i.sample) s
  let s := s.hold t i.sample i.period i.out (i.loopWrites.filter (fun e => !s.isBarred (2 ^ 20 + e.1) i.sample))
    (i.mbq.filter (fun e => !s.isBarred (2 ^ 21 + e.1) i.sample))
  let x := s.task t
  s.setTask t { x with data := SMap.puts x.data i.data, inst := none, lastDone := some i.sample }

/-- The count of completed instances rises by 1 (R126). -/
def State.countInst (s : State) (t : Nat) : State :=
  let n := s.rd (F.TASK_COUNT_LO_count t) + 2 ^ 32 * s.rd (F.TASK_COUNT_HI_count t) + 1
  (s.wr (F.TASK_COUNT_LO_count t) (n % 2 ^ 32)).wr (F.TASK_COUNT_HI_count t) (n >>> 32)

/-- Note on the active that its partner alone trapped in a sample that it completed (R143). -/
def State.partnerTrapped (s : State) (t k : Nat) : State :=
  match SMap.find (s.task t).partnerDone k with
  | some r => if s.isActive && r % 256 != 0 then s.wr (F.TRAP_INFO_judged t) 3 else s
  | none => s

/-- TASK_COMMIT_DONE (R36, R38, R41, R42, R54, R105, R115): the instance commits, its slack is recorded unless it
slipped, and one that waits for it starts. [log 31 DEDUCED] -/
def execTaskCommitDone (t : Fin 16) (s : State) : Host.Outcome State Fault Refusal :=
  match (s.task t.val).inst with
  | none => ok s
  | some i =>
    if i.phase != .committing then ok s
    else
      let m := s.relTurn i.sample i.period
      let late := decide (m < s.turn.nextRel)
      let s := ((s.commitInst t.val i).captureFull).countInst t.val
      let s := if late then s
        else
          let s := s.setTask t.val { s.task t.val with slipRun := 0, prevSlip := false }
          s.taskSlack t.val (s.slackTo (s.boundaryU m + s.releaseNs * unitNs))
      let s := (s.sendCompletion t.val i.sample 0 0).partnerTrapped t.val i.sample
      ok (s.nextWaiting t.val).dispatchSpindles

/-- TASK_START (R113, R114, R43): a task starts at its first due boundary. -/
def execTaskStart (t : Fin 16) (s : State) : Host.Outcome State Fault Refusal :=
  let k := s.nowTurn
  let x := s.task t.val
  let run := s.rd F.TASK_RUN_run_state
  if !s.on F.TURN_STATUS_running || k < s.tasks.startAt || s.key == 3 || run == 2 || run == 3 || x.started ||
      x.trapped || !s.aon (F.TASK_CTRL_enable t.val) || k % s.taskP t.val != 0 || !s.computes then ok s
  else ok ((s.startTask t.val k).wr F.TASK_RUN_run_state 1)

/-- Send ORDER 5, which awaits no ACK and is never abandoned (R116, R512). [log 38 DEDUCED] -/
def State.sendOrder5 (s : State) (t : Fin 16) (trap : Bool) (m : Nat) : State :=
  let kept := s.ply.orders
  let s := s.sendOrder 5 m 0 (.overrunStop t trap)
  { s with ply := { s.ply with orders := kept } }

/-- The overrun is this module's alone (R115). -/
def State.localOverrun (s : State) (t : Nat) : State :=
  (((s.blame t).wr (F.TASK_STATUS_overran t) 1).wr (F.TASK_STATUS_local_overrun t) 1).taskEvt t 1

/-- OVERRUN_DECISION (R115, R116): the active judges an overrun local or common; a standby whose active did not overrun
leaves tracking, and else waits for its ORDER 5. [log 32 DEDUCED, 36 DEDUCED] -/
def execOverrunDecision (t : Fin 16) (s : State) : Host.Outcome State Fault Refusal :=
  match (s.task t.val).overrun with
  | none => ok s
  | some d =>
    let s := s.setTask t.val { s.task t.val with overrun := none }
    let inTime := s.partnerRec t.val d.sample == some (0, true)
    let m := s.turn.nextRel
    match s.plyState with
    | 2 =>
      if inTime && s.partnerStandby then ok ((s.localOverrun t.val).abdicate 2)
      else ok ((s.overrunStop t.val false m).sendOrder5 t false m)
    | 4 => if s.partnerOverran t.val d.sample then ok s else ok ((s.localOverrun t.val).leaveTracking 6)
    | 1 => ok (s.overrunStop t.val false m)
    | 0 => ok (s.overrunStop t.val false m)
    | _ => ok s

/-- Has this module completed the sample of a task without a trap? -/
def State.doneClean (s : State) (t k : Nat) : Bool :=
  match (s.task t).lastDone with
  | some j => decide (k ≤ j) && !SMap.has (s.task t).ownTraps k
  | none => false

/-- A partner that follows the active takes HALT itself, and waits for its ORDER 5 with STOP (R116, R143). -/
def State.haltUnless (s : State) (t : Nat) : State := if s.trapStops t then s else s.haltTrapped t

/-- Take the action of a task's program after its trap (R144). -/
def State.trapAction (s : State) (t : Fin 16) (send : Bool) : State :=
  if s.trapStops t.val then
    let m := s.turn.nextRel
    let s := s.overrunStop t.val true m
    if send then s.sendOrder5 t true m else s
  else s.haltTrapped t.val

/-- TRAP_DECISION (R143, R144): the active judges a trap local or common; the standby judges its own, and with the active
alone trapped takes the program's action unless it completed the instance itself, as does a module that does not track.
[log 36 DEDUCED] -/
def execTrapDecision (t : Fin 16) (s : State) : Host.Outcome State Fault Refusal :=
  match (s.task t.val).trap with
  | none => ok s
  | some d =>
    let s := s.setTask t.val { s.task t.val with trap := none }
    let clean := (s.partnerRec t.val d.sample).map (·.1) == some 0
    match s.plyState with
    | 2 =>
      if clean && s.partnerStandby then
        ok (((s.wr (F.TRAP_INFO_judged t.val) 2).blame t.val).abdicate 3)
      else ok ((s.wr (F.TRAP_INFO_judged t.val) 1).trapAction t true)
    | 4 =>
      if clean then ok ((s.wr (F.TRAP_INFO_judged t.val) 2).leaveTracking 7)
      else if d.trap.isNone && s.doneClean t.val d.sample then ok s
      else ok ((s.wr (F.TRAP_INFO_judged t.val) 1).haltUnless t.val)
    | 3 => ok ((s.wr (F.TRAP_INFO_judged t.val) 1).haltUnless t.val)
    | 5 => ok ((s.wr (F.TRAP_INFO_judged t.val) 1).haltUnless t.val)
    | _ => ok ((s.wr (F.TRAP_INFO_judged t.val) 0).trapAction t false)

/-- TURN_WATCHDOG_TRIP (R118, R119): row 18, BRAKE frames on every port, and the role is given up. -/
def execTurnWatchdogTrip (s : State) : Host.Outcome State Fault Refusal :=
  if !s.on F.TURN_WDOG_armed || s.on F.TURN_WDOG_tripped then ok s
  else
    let s := s.setRow 18 true
    let s := (s.wr F.TURN_WDOG_tripped 1).inc F.TURN_WDOG_trips
    let s := s.fireGasp 57
    ok (if s.isActive then s.abdicate 4 else s.leaveTracking 10)

/-! The key switch. -/

/-- The position of a key code (R120): lines KEY_A, KEY_A_N, KEY_B, KEY_B_N in bits 0 to 3; none when not valid. -/
def keyCode (lines : Nat) : Option Nat :=
  let a := bitOf lines 0
  let b := bitOf lines 2
  if bitOf lines 1 == a || bitOf lines 3 == b then none
  else some (match a, b with
    | false, false => 0
    | true, false => 1
    | true, true => 2
    | false, true => 3)

/-- A new local position is named for a boundary (R122): by the active with ORDER 3, by a lone, starting or
abdicated module for itself. -/
def State.nameKey (s : State) (pos : Nat) : State :=
  let now := match s.tasks.keyNext with
    | some e => e.2
    | none => s.key
  if pos == now then s
  else
    let arm := fun (s : State) (b : Nat) => ({ s with tasks := { s.tasks with keyNext := some (b, pos), keyTick := s.time.ticks } } : State)
    match s.plyState with
    | 2 =>
      let b := s.orderBoundary
      (arm s b).sendOrder 3 b 0 (.key (BitVec.ofNat 2 pos))
    | 1 => arm s s.boundary2
    | 0 => arm s s.boundary2
    | 6 => arm s s.boundary2
    | _ => s

/-- The module takes a local position (R121, R122). -/
def State.takeKey (s : State) (pos : Nat) : State :=
  let changed := s.rd F.KEY_STATUS_local != pos
  let s := s.wr F.KEY_STATUS_local pos
  let s := if pos == s.rd F.KEY_STATUS_partner then s.wr F.KEY_STATUS_disagree 0 else s
  let s := if changed then s.wake 3 else s
  s.nameKey pos

/-- KEY_POSITION_TAKEN (R120, R121): a valid code stable for 20 ms is the local position. [log 9 DESIGN CHOICE] -/
def execKeyPositionTaken (lines : BitVec 4) (s : State) : Host.Outcome State Fault Refusal :=
  let s := s.wr F.KEY_STATUS_raw lines.toNat
  match keyCode lines.toNat with
  | none => ok (s.wr F.KEY_STATUS_valid 0)
  | some pos => ok (((s.wr F.KEY_STATUS_valid 1).wr F.KEY_STATUS_invalid_lock 0).takeKey pos)

/-- KEY_INVALID_LOCK (R121): 100 ms of invalid code make the local position LOCK. -/
def execKeyInvalidLock (lines : BitVec 4) (s : State) : Host.Outcome State Fault Refusal :=
  let s := s.wr F.KEY_STATUS_raw lines.toNat
  match keyCode lines.toNat with
  | some _ => ok (s.wr F.KEY_STATUS_valid 1)
  | none => ok (((s.wr F.KEY_STATUS_valid 0).wr F.KEY_STATUS_invalid_lock 1).keyEvt 1 |>.takeKey 0)

/-- The effective position becomes STOP at boundary b (R125). -/
def State.enterStop (s : State) (b : Nat) : State :=
  let s := s.haltTasks
  let s := if s.rd F.TASK_RUN_run_state == 3 then s else s.wr F.TASK_RUN_run_state 2
  { s with tasks := { s.tasks with stopFrom := some b, leftStop := none } }

/-- The effective position leaves STOP at boundary b (R117, R125, R144): rows 16 and 17 end, trapped tasks are
released, and tasks start with the instances due at b. -/
def State.leaveStop (s : State) (b : Nat) : State :=
  let s := (upTo 16).foldl (fun s t =>
    let x := s.task t
    let s := s.wr (F.TASK_STATUS_overran t) 0
    if x.trapped then s.setTask t { x with trapped := false, data := s.retainedOnly t x.data } else s) s
  let s : State := { s with tasks := { s.tasks with
    stopFrom := none, leftStop := some b, overrunFrom := none, overrunNext := none } }
  let s := (s.setRow 16 false).setRow 17 false
  if s.tasks.startAt ≤ b then
    s.enabledTasks.foldl (fun s t => s.startTask t b) (s.wr F.TASK_RUN_run_state 1)
  else s.wr F.TASK_RUN_run_state 0

/-- KEY_EFFECTIVE_CHANGE (R122, R125): the effective position changes at its named boundary. -/
def execKeyEffectiveChange (s : State) : Host.Outcome State Fault Refusal :=
  match s.tasks.keyNext with
  | none => ok s
  | some (b, pos) =>
    if !s.on F.TURN_STATUS_running || s.nowTurn < b then ok s
    else
      let old := s.key
      let s : State := { s with
        tasks := { s.tasks with keyNext := none },
        ply := { s.ply with orders := s.ply.orders.filter (fun o => !(o.code == 3 && o.boundary == b)) } }
      let s := s.wr F.KEY_STATUS_effective pos
      if old == pos then ok s
      else
        let s := s.keyEvt 0
        if pos == 3 then ok (s.enterStop b) else if old == 3 then ok (s.leaveStop b) else ok s

/-- KEY_DISAGREE (R122): a standby's local position has differed from the active's for 100 ms. -/
def execKeyDisagree (s : State) : Host.Outcome State Fault Refusal :=
  if s.isStandby && s.on F.KEY_STATUS_partner_valid && s.rd F.KEY_STATUS_local != s.rd F.KEY_STATUS_partner then
    ok ((s.wr F.KEY_STATUS_disagree 1).keyEvt 2)
  else ok s

/-! Retained variables (R110 to R112, R164). -/

/-- RETAIN_FLUSH_START (R111). -/
def execRetainFlushStart (s : State) : Host.Outcome State Fault Refusal := ok s.startFlush

/-- RETAIN_FLUSH_NOW (R111): one extra flush at the next boundary. -/
def execRetainFlushNow (s : State) : Host.Outcome State Fault Refusal :=
  if s.pd .bins then ok { s with tasks := { s.tasks with flushWanted := true } } else ok s

end Sys2Proof.Machine
end

