-- ==== Sys2Proof/Machine/Time.lean ====
section
/-! DEFINITION. The time engine: ring measurement, domains, working time, PPS, alarms and the calendar (chapter
11). -/

namespace Sys2Proof.Machine

/-! Ring measurement (R247 to R250). -/

/-- The members of the loop in ring order: this module and the positions in state UP, rising (R225, R249). -/
def State.loopMembers (s : State) : List Nat :=
  (upTo 16).filter (fun p => s.memberState p == 1 || (p == s.position && !s.bypassed))

/-- The next one after a position. -/
def State.nextMember (s : State) (p : Nat) : Nat :=
  let up := s.loopMembers
  ((up.find? (fun q => decide (p < q))).getD (up.head?.getD p))

/-- The member before a position. -/
def State.prevMember (s : State) (p : Nat) : Nat :=
  let up := s.loopMembers.reverse
  ((up.find? (fun q => decide (q < p))).getD (up.head?.getD p))

/-- The hop eastward from a member, started afresh where its far end changed (R250). -/
def State.ringHop (s : State) (i : Nat) : RingHop :=
  let j := s.nextMember i
  match SMap.find s.time.hops i with
  | some h => if h.far = j then h else RingHop.fresh j
  | none => RingHop.fresh j

/-- The state with a hop written. -/
def State.setHop (s : State) (i : Nat) (h : RingHop) : State :=
  { s with time := { s.time with hops := SMap.put s.time.hops i h } }

/-- The last 64 values of a list, newest first. -/
def last64 (x : Int) (l : List Int) : List Int := (x :: l).take 64

/-- The stamp of a mark among entries. -/
def stampOf (l : List (Nat × Nat)) (q : Nat) : Option Nat := SMap.find l q

/-- The launch and arrival stamps of the first mark that both lists hold. -/
def matchMark (launch arrive : List (Nat × Nat)) : Option (Nat × Nat × Nat) :=
  (launch.filterMap (fun (e : Nat × Nat) => (stampOf arrive e.1).map (fun t => (e.1, e.2, t)))).head?

/-- Entries without a mark. -/
def dropMark (l : List (Nat × Nat)) (q : Nat) : List (Nat × Nat) := l.filter (fun (e : Nat × Nat) => e.1 != q)

/-- Pair the entries of a hop that carry one mark (R249). -/
def RingHop.pair (h : RingHop) : RingHop :=
  let h : RingHop := match matchMark h.fwdLaunch h.fwdArrive with
    | some (q, t1, t2) =>
      { h with fwd := last64 ((t2 : Int) - t1) h.fwd, fwdLaunch := dropMark h.fwdLaunch q,
               fwdArrive := dropMark h.fwdArrive q }
    | none => h
  match matchMark h.backLaunch h.backArrive with
  | some (q, t3, t4) =>
    { h with back := last64 ((t4 : Int) - t3) h.back, backLaunch := dropMark h.backLaunch q,
             backArrive := dropMark h.backArrive q }
  | none => h

/-- Pairs that a hop holds. -/
def RingHop.pairs (h : RingHop) : Nat := min h.fwd.length h.back.length

/-- A sum over the pairs of a hop. -/
def RingHop.sumPairs (h : RingHop) (f : Int → Int → Int) : Int := (List.zipWith f h.fwd h.back).foldl (· + ·) 0

/-- delay(h) (R249). -/
def RingHop.delay (h : RingHop) : Int :=
  if h.pairs = 0 then 0 else rdiv (h.sumPairs (· + ·)) (2 * h.pairs)

/-- theta(h) (R249). -/
def RingHop.theta (h : RingHop) : Int :=
  if h.pairs = 0 then 0 else rdiv (h.sumPairs (· - ·)) (2 * h.pairs)

/-- The hops of the loop, by their west member. -/
def State.loopHops (s : State) : List (Nat × RingHop) := s.loopMembers.map (fun i => (i, s.ringHop i))

/-- The sum of the delays of the loop. -/
def State.sumDelay (s : State) : Int := (s.loopHops.map (fun e => e.2.delay)).foldl (· + ·) 0

/-- theta_c(h) (R249). -/
def State.thetaC (s : State) (h : RingHop) : Int :=
  let total := s.sumDelay
  if total = 0 then h.theta else h.theta - rdiv (s.time.closureA * h.delay) total

/-- Is a hop on the way eastward from a member to this module? -/
def State.onWay (s : State) (p i : Nat) : Bool :=
  let me := s.position
  if p = me then false
  else if p < me then decide (p ≤ i) && decide (i < me)
  else decide (p ≤ i) || decide (i < me)

/-- Does a report of either end hold no valid entries of a hop: does the ring's break lie there (R248)? -/
def RingHop.dead (h : RingHop) : Bool := h.nearDead || h.farDead

/-- Theta(X) of this module from a master's position (R249): the hops eastward from the master to it, or round the other
way where a break lies on them. -/
def State.bigTheta (s : State) (master : Nat) : Int :=
  let sum := fun (l : List (Nat × RingHop)) => (l.map (fun e => s.thetaC e.2)).foldl (· + ·) 0
  let way := s.loopHops.filter (fun e => s.onWay master e.1)
  if way.any (fun e => e.2.dead) then -sum (s.loopHops.filter (fun e => !s.onWay master e.1)) else sum way

/-- The transit over some hops (R230), in 1/25,600 ns: their delays, 40 ns at each member that forwards, and w. -/
def State.transit (s : State) (hops : List (Nat × RingHop)) : Nat :=
  100 * (hops.map (fun e => e.2.delay.toNat)).sum + 40 * 25600 * (hops.length - 1) +
    256 * s.largestWire s.published.length

/-- RING_TRANSIT in ns, rounded up (R230, R236): over the longer path from any UP member. [log 45 DEDUCED] -/
def State.ringTransit (s : State) : Nat :=
  let paths := (s.upMembers.filter (fun p => p != s.position)).map (fun p =>
    max (s.transit (s.loopHops.filter (fun e => s.onWay p e.1)))
      (s.transit (s.loopHops.filter (fun e => !s.onWay p e.1))))
  ceilDiv (paths.foldl max 0) 25600

/-- The calibration as the hops stand (R249, R250, R230). The hop across a break is none that the module can measure.
[log 45 DEDUCED] -/
def State.calRegs (s : State) : State :=
  let hops := s.loopHops
  let fewest := fun (l : List (Nat × RingHop)) => l.foldl (fun a e => min a e.2.pairs) 64
  let ring := s.rd F.RING_STATUS_ring
  let intact := ring == 1
  let full := fewest (if 2 ≤ ring then hops.filter (fun e => !e.2.dead) else hops) == 64
  let s : State := if intact then
      { s with time := { s.time with closed := s.time.closed || full,
                                     closureA := (hops.map (fun e => e.2.theta)).foldl (· + ·) 0 } }
    else s
  let s := s.wr F.CAL_STATUS_pairs (fewest hops)
  let s := s.wr F.CAL_CLOSURE_a (toBits 32 s.time.closureA)
  let d := fun (i : Nat) => toBits 32 (s.ringHop i).delay
  let s := (s.wr (F.CAL_DELAY_delay 0) (d (s.prevMember s.position))).wr (F.CAL_DELAY_delay 1) (d s.position)
  let s := s.wr F.RING_TRANSIT_transit_ns (min s.ringTransit 0xFFFF)
  s.setCal (if s.bypassed then 0 else if !full then 1 else if s.time.closed then 2 else 3)

/-- The entries of a report of member X enter the hops on its two sides (R248, R249). -/
def State.noteReport (s : State) (x : Nat) (r : Bytes) : State :=
  let add := fun (l : List (Nat × Nat)) (q i : Nat) => dropMark l (byteAt r q) ++ [(byteAt r q, beAt r i 8)]
  let s := if bitOf (byteAt r 0) 1 then
      let h := s.ringHop x
      s.setHop x ({ h with fwdLaunch := add h.fwdLaunch 20 24, backArrive := add h.backArrive 21 32,
                           nearDead := false }).pair
    else s.setHop x { s.ringHop x with nearDead := true }
  let w := s.prevMember x
  let s := if bitOf (byteAt r 0) 0 then
      let h := s.ringHop w
      s.setHop w ({ h with backLaunch := add h.backLaunch 1 4, fwdArrive := add h.fwdArrive 2 12,
                           farDead := false }).pair
    else s.setHop w { s.ringHop w with farDead := true }
  let up := s.loopMembers
  let s : State := { s with time := { s.time with hops := s.time.hops.filter (fun e => up.contains e.1) } }
  s.calRegs

/-- HOP_MARK_SEND (R247): one mark out of an open port, launched so many 1/256 ns into the tick. -/
def execHopMarkSend (east : Bool) (sub : Fin 820) (s : State) : Host.Outcome State Fault Refusal :=
  if !s.pd .time || s.bypassed || !s.ringUp east then ok s
  else
    let q := s.localUs % 256
    let s := s.emit (.ringBlock east 0x20 q 0)
    if q % 16 != 0 then ok s
    else if east then ok { s with time := { s.time with sentEast := some (q, s.localStamp + sub.val) } }
    else ok { s with time := { s.time with sentWest := some (q, s.localStamp + sub.val) } }

/-- HOP_MARK_RECEIVED (R247, R248): stamped in LOCAL, so many 1/256 ns into the tick as the stamp was taken. A closed
bypass passes marks by without a stamp. [log 10 DESIGN CHOICE] -/
def execHopMarkReceived (east : Bool) (seq : BitVec 8) (sub : Fin 820) (s : State) : Host.Outcome State Fault Refusal :=
  if !s.pd .time || s.bypassed || !s.ringUp east || seq.toNat % 16 != 0 then ok s
  else if east then ok { s with time := { s.time with markEast := some (seq.toNat, s.localStamp + sub.val) } }
  else ok { s with time := { s.time with markWest := some (seq.toNat, s.localStamp + sub.val) } }

/-- The payload of a HOP_REPORT (R248). -/
def State.hopReport (s : State) : Bytes :=
  let side := fun (own nb : Option (Nat × Nat)) =>
    match own, nb with
    | some a, some b => (true, a, b)
    | _, _ => (false, (0, 0), (0, 0))
  let w := side s.time.sentWest s.time.markWest
  let e := side s.time.sentEast s.time.markEast
  beBytes 1 (bit w.1 + 2 * bit e.1) ++ beBytes 1 w.2.1.1 ++ beBytes 1 w.2.2.1 ++ [0] ++ beBytes 8 w.2.1.2 ++
    beBytes 8 w.2.2.2 ++ beBytes 1 e.2.1.1 ++ beBytes 1 e.2.2.1 ++ [0, 0] ++ beBytes 8 e.2.1.2 ++
    beBytes 8 e.2.2.2 ++ List.replicate 8 0

/-- HOP_REPORT_SEND (R248, R249): the report goes out of both ports, and its entries enter the module's own hops. -/
def execHopReportSend (s : State) : Host.Outcome State Fault Refusal :=
  if !s.pd .time || s.bypassed then ok s
  else
    let r := s.hopReport
    let s := s.sendRing 0x20 (s.ringFlags s.isStandby s.isActive) 0 0 s.time.work 0 r
    ok (s.noteReport s.position r)

/-- HOP_REPORT_RECEIVED (R248, R249, R250). -/
def execHopReportReceived (east errBlock : Bool) (frame : Bytes) (s : State) : Host.Outcome State Fault Refusal :=
  match s.ringTake east errBlock frame with
  | (s, none) => ok s
  | (s, some again) =>
    let x := byteAt frame 1 % 16
    if byteAt frame 0 != 0x20 || again || x == s.position || s.memberState x != 1 then ok s
    else ok (s.noteReport x ((frame.drop 32).take 48))

/-- HOP_ENTRY_EXPIRED (R249): the oldest launch, or arrival, entry of a hop's marks forward, or back, has stayed unpaired.
[log 48 DEDUCED] -/
def execHopEntryExpired (pos : Fin 16) (back launch : Bool) (s : State) : Host.Outcome State Fault Refusal :=
  match SMap.find s.time.hops pos.val with
  | none => ok s
  | some h =>
    let h := match back, launch with
      | false, true => { h with fwdLaunch := h.fwdLaunch.drop 1 }
      | false, false => { h with fwdArrive := h.fwdArrive.drop 1 }
      | true, true => { h with backLaunch := h.backLaunch.drop 1 }
      | true, false => { h with backArrive := h.backArrive.drop 1 }
    ok (s.setHop pos.val h)

/-! The oscillator (R240). -/

/-- REFCLK_LOST (R240, R252). -/
def execRefclkLost (s : State) : Host.Outcome State Fault Refusal :=
  if !s.pd .time || s.on F.TIME_STATUS_refclk_lost then ok s
  else
    let s : State := { s.wr F.TIME_STATUS_refclk_lost 1 with time := { s.time with intOsc := true } }
    ok (((s.timeEvt 20).toHoldover .a).toHoldover .b)

/-- REFCLK_RESTORED (R240). -/
def execRefclkRestored (s : State) : Host.Outcome State Fault Refusal :=
  if !s.pd .time then ok s
  else ok { s.wr F.TIME_STATUS_refclk_lost 0 with time := { s.time with intOsc := false } }

/-! Domains and masters (R241 to R246, R251, R252). -/

/-- The increment that INC_x_HI and INC_x_LO hold. -/
def State.incRegs (s : State) (d : Domain) : Nat :=
  s.rd (F.INC_HI_ns (domNum d)) * 2 ^ 32 + s.rd (F.INC_LO_frac (domNum d))

/-- The increment registers written. -/
def State.setIncRegs (s : State) (d : Domain) (inc : Nat) : State :=
  (s.wr (F.INC_HI_ns (domNum d)) (inc >>> 32)).wr (F.INC_LO_frac (domNum d)) (inc % 2 ^ 32)

/-- Does an increment lie in the range of R238? -/
def incOk (inc : Nat) : Bool := decide (0x0300000000 ≤ inc) && decide (inc ≤ 0x0366666666)

/-- The ticks of 64 µs: the first tick at which an announced increment applies (R243). -/
def announceTicks : Nat := 20000

/-- Is a domain valid: LOCKED or HOLDOVER (R252)? -/
def State.domValid (s : State) (d : Domain) : Bool := 2 ≤ s.domState d

/-- The time word of a domain so many 1/256 ns after the tick (R6, R7). -/
def State.domWordAt (s : State) (d : Domain) (sub : Nat) : Nat :=
  if s.domValid d then timeWord (domNum d) ((s.dom d).value + sub * 2 ^ 24) else noTime

/-- The time word of a domain now. -/
def State.domWord (s : State) (d : Domain) : Nat := s.domWordAt d 0

/-- The master sends a DOMAIN frame (R246). What it carries of a next increment that is not pending is free.
[log 47 DESIGN CHOICE] -/
def State.sendDomain (s : State) (d : Domain) : State :=
  if s.domRole d != 1 then s
  else
    let x := s.dom d
    let present := if isB d then s.on F.PPS_STATUS_present_b else s.on F.PPS_STATUS_present_a
    let f := s.free
    let s := if x.next.isNone then f.2 else s
    let next := x.next.getD ⟨x.inc, f.1, 0⟩
    let stamp := if x.next.isNone then f.1 % 2 ^ 64 else next.atTick * 4096 / 5
    let payload := beBytes 1 (domNum d) ++ beBytes 1 (s.domGen d) ++ beBytes 1 (bit x.running + 2 * bit present) ++
      beBytes 1 s.position ++ beBytes 8 s.localStamp ++ beBytes 8 (x.value / unitSec) ++
      beBytes 4 (x.value % unitSec / unitNs) ++ beBytes 4 (x.value % unitNs) ++ beBytes 5 x.inc ++
      beBytes 5 next.inc ++ [0, 0] ++ beBytes 8 stamp ++ beBytes 4 next.ticks ++ List.replicate 4 0
    s.sendRing 0x21 (s.ringFlags s.isStandby s.isActive) 0 0 s.time.work 0 payload

/-- MASTER_ELECTION (R241): this candidate, UP at the lowest position, becomes master of the domain. -/
def execMasterElection (dom : Domain) (s : State) : Host.Outcome State Fault Refusal :=
  if !s.pd .time || !s.candidate dom || s.domRole dom == 1 then ok s
  else
    let x := s.dom dom
    let s := s.setRole dom 1
    if s.domValid dom then
      let s := s.setDom dom { x with corr := 0, corrLeft := 0, goodRun := 0 }
      let s := s.wr (F.DOM_ERR_err (domNum dom)) 0
      ok (s.setDomState dom 2)
    else ok (s.setDom dom { x with startOrdered := true, restart := false, orderedAt := s.time.ticks })

/-- TIME_RESTART (R242): a restart ordered on the master, at TEND or STOP. -/
def execTimeRestart (dom : Domain) (s : State) : Host.Outcome State Fault Refusal :=
  if !s.pd .time || s.domRole dom != 1 || !(s.key == 2 || s.key == 3) then ok s
  else ok (s.setDom dom { s.dom dom with startOrdered := true, restart := true, orderedAt := s.time.ticks })

/-- The permanent increment of a domain: the last one taken as a pair (R243, R244). -/
def TimeDom.taken (x : TimeDom) : Nat :=
  let base := if x.slew then x.slewBase else x.inc
  match x.next with
  | some e => if e.ticks = 0 then e.inc else base
  | none => base

/-- May an ordered start take place now (R242): on an edge of the domain's PPS input where its enable is set, or 1.1 s
after the order? [log 50 DEDUCED] -/
def State.startDue (s : State) (d : Domain) : Bool :=
  let x := s.dom d
  let edge := s.aon (if isB d then F.TIME_MASTER_pps_b_en else F.TIME_MASTER_pps_a_en) && x.lastEdge == some s.time.ticks
  x.startOrdered && (edge || decide (x.orderedAt + 343750000 ≤ s.time.ticks))

/-- DOMAIN_START (R242): nanoseconds 0, seconds of the calendar plus 1 or of a restart, and a new generation. -/
def execDomainStart (dom : Domain) (s : State) : Host.Outcome State Fault Refusal :=
  let x := s.dom dom
  if !s.pd .time || s.domRole dom != 1 || !s.startDue dom then ok s
  else
    let sec := if x.restart then s.rd F.START_SEC_HI_sec * 2 ^ 32 + s.rd F.START_SEC_LO_sec else s.time.calendar + 1
    let s := s.setDom dom { x with
      running := true, value := sec * unitSec, inc := x.taken, next := none, slew := false, slewLeft := 0,
      corr := 0, corrLeft := 0, goodRun := 0, startOrdered := false, restart := false, master := s.position }
    let s := s.setGen dom (s.domGen dom + 1)
    let s := s.wr (F.DOM_ERR_err (domNum dom)) 0
    ok ((s.setDomState dom 2).sendDomain dom)

/-- TIME_SNAP (R266). -/
def execTimeSnap (s : State) : Host.Outcome State Fault Refusal :=
  if !s.pd .time then ok s
  else
    let put := fun (s : State) (f : Nat → Fld) (w : Nat) =>
      (upTo 4).foldl (fun s i => s.wr (f i) (w >>> (32 * i) % 2 ^ 32)) s
    let l := s.localStamp
    let s := (s.wr F.SNAP_LOCAL_LO_stamp (l % 2 ^ 32)).wr F.SNAP_LOCAL_HI_stamp (l >>> 32)
    let w := s.workWord
    let a := s.domWord .a
    let b := s.domWord .b
    ok (put (put (put s F.SNAP_WORK_word w) F.SNAP_A_word a) F.SNAP_B_word b)

/-- INC_WRITE (R238, R243): a write of INC_x_HI on the master takes both halves as one new increment, announced at
once. -/
def execIncWrite (dom : Domain) (v : Word32) (s : State) : Host.Outcome State Fault Refusal :=
  if !s.pd .time || s.domRole dom != 1 then ok s
  else
    let inc := v.toNat % 256 * 2 ^ 32 + s.rd (F.INC_LO_frac (domNum dom))
    if !incOk inc then ok (s.timeEvt 23)
    else
      let s := s.wr (F.INC_HI_ns (domNum dom)) (v.toNat % 256)
      let s := s.setDom dom { s.dom dom with next := some ⟨inc, s.time.ticks + announceTicks, 0⟩ }
      ok (s.sendDomain dom)

/-- SLEW_TICKS_WRITE (R244): on the master a temporary increment for n ticks; 0 ends the helper. -/
def execSlewTicksWrite (dom : Domain) (n : Word32) (s : State) : Host.Outcome State Fault Refusal :=
  if !s.pd .time || s.domRole dom != 1 then ok s
  else
    let x := s.dom dom
    let at_ := s.time.ticks + announceTicks
    if n.toNat = 0 then
      if x.slew then ok ((s.setDom dom { x with next := some ⟨x.slewBase, at_, 0⟩ }).sendDomain dom)
      else if x.next.any (fun e => e.ticks != 0) then ok ((s.setDom dom { x with next := none }).sendDomain dom)
      else ok s
    else
      let inc := s.rd (F.SLEW_INC_HI_inc (domNum dom)) * 2 ^ 32 + s.rd (F.SLEW_INC_LO_inc (domNum dom))
      if !incOk inc then ok (s.timeEvt 23)
      else ok ((s.setDom dom { x with next := some ⟨inc, at_, n.toNat⟩ }).sendDomain dom)

/-- An announced increment put in force for so many ticks more, 0 for good (R243, R244). -/
def TimeDom.applyInc (x : TimeDom) (inc ticks : Nat) : TimeDom :=
  { x with inc := inc, next := none, slew := ticks != 0, slewLeft := ticks,
           slewBase := if x.slew then x.slewBase else x.inc }

/-- The increment in force has changed: a follower's registers read the master's (R243), and a master announces it at
once (R246). -/
def State.incChanged (s : State) (d : Domain) : State :=
  if s.domRole d == 1 then s.sendDomain d else s.setIncRegs d (s.dom d).inc

/-- INC_APPLY (R243, R244, R246): the announced increment applies at its tick. -/
def execIncApply (dom : Domain) (s : State) : Host.Outcome State Fault Refusal :=
  match (s.dom dom).next with
  | none => ok s
  | some e =>
    if !s.pd .time || decide (s.time.ticks < e.atTick) then ok s
    else ok ((s.setDom dom ((s.dom dom).applyInc e.inc e.ticks)).incChanged dom)

/-- SLEW_END (R244, R246): at the end of the ticks the increment in force before returns. -/
def execSlewEnd (dom : Domain) (s : State) : Host.Outcome State Fault Refusal :=
  let x := s.dom dom
  if !s.pd .time || !x.slew || x.slewLeft != 0 then ok s
  else ok ((s.setDom dom { x with inc := x.slewBase, slew := false }).incChanged dom)

/-- The ticks of 0.9 s, within which an edge after a captured one is ignored (R245). -/
def edgeTicks : Nat := 281250000

/-- PPS_EDGE (R245, R261): the edge comes so many 1/256 ns into the tick as it was stamped.
[log 10 DESIGN CHOICE, 50 DEDUCED] -/
def execPpsEdge (dom : Domain) (sub : Fin 820) (s : State) : Host.Outcome State Fault Refusal :=
  let x := s.dom dom
  let early := match x.lastEdge with
    | some t => decide (s.time.ticks - t < edgeTicks)
    | none => false
  if !s.pd .time || early then ok s
  else
    let i := domNum dom
    let c := s.domWordAt dom sub.val
    let w := if s.time.workSet then timeWord 2 (s.time.work + sub.val * 2 ^ 24) else noTime
    let s := (upTo 4).foldl (fun s j =>
      (s.wr (F.PPS_CAP_word i j) (c >>> (32 * j) % 2 ^ 32)).wr (F.PPS_WORK_word i j) (w >>> (32 * j) % 2 ^ 32)) s
    let s := s.setDom dom { x with lastEdge := some s.time.ticks }
    let present := if isB dom then F.PPS_STATUS_present_b else F.PPS_STATUS_present_a
    let count := if isB dom then F.PPS_STATUS_count_b else F.PPS_STATUS_count_a
    ok (((s.wr present 1).wr count (s.rd count + 1)).timeEvt (2 + i))

/-- PPS_LOST (R245). [log 50 DEDUCED] -/
def execPpsLost (dom : Domain) (s : State) : Host.Outcome State Fault Refusal :=
  let present := if isB dom then F.PPS_STATUS_present_b else F.PPS_STATUS_present_a
  if !s.pd .time || !s.on present then ok s else ok ((s.wr present 0).timeEvt (4 + domNum dom))

/-- DOMAIN_FRAME_SEND (R246). -/
def execDomainFrameSend (dom : Domain) (s : State) : Host.Outcome State Fault Refusal :=
  if !s.pd .time then ok s else ok (s.sendDomain dom)

/-- The domain time that a frame says this module should hold now (R251). [log 48 DEDUCED] -/
def State.estimate (s : State) (p : Bytes) : Int :=
  let d0 : Int := ((beAt p 12 8 * unitSec + beAt p 20 4 * unitNs + beAt p 24 4 : Nat) : Int)
  let back : Int := s.bigTheta (byteAt p 3 % 16) + (beAt p 4 8 : Nat)
  d0 + rdiv (((s.time.ticks * 4096 : Nat) : Int) * (beAt p 28 5 : Nat) - 5 * back * (beAt p 28 5 : Nat)) 4096

/-- The next increment of a frame, at this module's own tick (R243, R246). -/
def State.frameNext (s : State) (p : Bytes) : Option NextInc :=
  if beAt p 33 5 = beAt p 28 5 then none
  else
    let stamp : Int := (beAt p 40 8 : Nat) + s.bigTheta (byteAt p 3 % 16)
    some ⟨beAt p 33 5, (5 * stamp.toNat + 4095) / 4096, beAt p 48 4⟩

/-- A follower's increment in force as a frame gives it: one that it has announced runs for what is left of its ticks, so
that the follower reverts at the master's instant (R244). -/
def State.slewedTo (s : State) (x : TimeDom) (inc : Nat) : TimeDom :=
  if inc = x.inc then x
  else match x.next with
    | some e => if e.inc = inc then x.applyInc inc (if e.ticks = 0 then 0 else e.atTick + e.ticks - s.time.ticks)
      else { x with inc := inc, slew := false, slewLeft := 0 }
    | none => { x with inc := inc, slew := false, slewLeft := 0 }

/-- A follower's replica after a frame (R251, R252). [log 48 DEDUCED] -/
def State.followFrame (s : State) (d : Domain) (p : Bytes) : State :=
  let gen := byteAt p 1
  let running := bitOf (byteAt p 2) 0
  let inc := beAt p 28 5
  let fresh := gen != s.domGen d && s.domState d != 0
  let s := s.setGen d gen
  let est := s.estimate p
  let x := s.dom d
  let err : Int := (x.value : Int) - est
  let s := s.wr (F.DOM_ERR_err (domNum d)) (toBits 32 (rdiv err (2 ^ 24)))
  let x : TimeDom := { s.slewedTo x inc with
    next := s.frameNext p, master := byteAt p 3 % 16, ppsLocked := bitOf (byteAt p 2) 1 }
  let s := s.setIncRegs d inc
  let set : TimeDom := { x with running := true, value := est.toNat, corr := 0, corrLeft := 0, goodRun := 0 }
  let good := s.rd F.TIME_STATUS_cal == 2 && !s.on F.TIME_STATUS_refclk_lost
  let far := decide (unitNs < err.natAbs)
  let corr := min (max (rdiv (-err) 5000) (-13744)) 13744
  let steered : TimeDom := { x with corr := corr, corrLeft := 5000 }
  match s.domState d with
  | 0 => if running then (s.setDom d set).setDomState d 1 else s.setDom d x
  | 1 =>
    let run := if !fresh && good && decide (err.natAbs ≤ unit20ps) then x.goodRun + 1 else 0
    let s := s.setDom d { set with goodRun := run }
    if 16 ≤ run then (s.setDom d { set with goodRun := 0 }).setDomState d 2 else s
  | _ =>
    if fresh || far then (s.setDom d set).setDomState d 1
    else if !good then (s.setDom d x).setDomState d 3
    else (s.setDom d steered).setDomState d 2

/-- DOMAIN_FRAME_RECEIVED (R241, R246, R251, R252). [log 10 DESIGN CHOICE] -/
def execDomainFrameReceived (east errBlock : Bool) (frame : Bytes) (s : State) : Host.Outcome State Fault Refusal :=
  match s.ringTake east errBlock frame with
  | (s, none) => ok s
  | (s, some again) =>
    let p := (frame.drop 32).take 56
    if !s.pd .time || byteAt frame 0 != 0x21 || again || byteAt frame 1 % 16 == s.position || 1 < byteAt p 0 then ok s
    else
      let d : Domain := if byteAt p 0 = 1 then .b else .a
      let role := s.domRole d
      if role == 1 && s.position ≤ byteAt p 3 % 16 then ok s
      else
        let good := s.rd F.TIME_STATUS_cal == 2 && !s.on F.TIME_STATUS_refclk_lost
        let s := if role == 1 then
            let s := (s.setRole d 2).timeEvt 11
            if good then s else s.toHoldover d
          else s.setRole d (if s.candidate d then 2 else 0)
        ok (s.followFrame d p)

/-- DOMAIN_HOLDOVER (R252). [log 9 DESIGN CHOICE] -/
def execDomainHoldover (dom : Domain) (s : State) : Host.Outcome State Fault Refusal :=
  if !s.pd .time then ok s else ok (s.toHoldover dom)

/-- HOLD_EXPIRED (R252). -/
def execHoldExpired (dom : Domain) (s : State) : Host.Outcome State Fault Refusal :=
  if !s.pd .time || s.domState dom != 3 then ok s
  else ok ((s.setDom dom { s.dom dom with running := false }).setDomState dom 0)

/-! Working time (R254 to R259). -/

/-- WORKING_TIME_START (R254): set once, from the first source held: what the active partner has given over the ply link,
its working time in units of 2^−32 ns and its carried offset, by a path the spec does not lay out; a domain; or the
calendar. [log 49 DESIGN CHOICE] -/
def execWorkingTimeStart (given : Option (Nat × Int)) (s : State) : Host.Outcome State Fault Refusal :=
  if !s.pd .time || s.time.workSet then ok s
  else
    let sel : Domain := if s.aon F.TIME_CTRL_sel then .b else .a
    let other : Domain := if s.aon F.TIME_CTRL_sel then .a else .b
    let partner := s.plyUp && s.partnerLeads
    let start := fun (s : State) (work : Nat) (carry : Int) (d : Domain) =>
      let x := s.dom d
      let s : State := { s with time := { s.time with
        workSet := true, work := work, carry := carry, followB := isB d,
        lastAdv := if x.running then x.inc else nominalInc } }
      let s := (s.wrb F.TIME_STATUS_sel_now (isB d)).wrb F.TIME_STATUS_slewing (decide (carry ≠ 0))
      s.wr F.TIME_STATUS_work (if s.domValid d then 1 else 2)
    let fromDomain : State :=
      if s.domState sel != 0 then
        let s := start s (s.dom sel).value 0 sel
        if s.domValid sel then s.captureO else s
      else if s.domState other != 0 then
        let s := start s (s.dom other).value 0 other
        if s.domValid other then s.captureO else s
      else if s.act F.TIME_CTRL_wait_s * 312500000 ≤ s.time.ticks then start s (s.time.calendar * unitSec) 0 sel
      else s
    match given with
    | some (work, carry) => ok (if partner then start s work carry sel else fromDomain)
    | none => ok fromDomain

/-- SLEW_DONE (R256): O has reached 0. -/
def execSlewDone (s : State) : Host.Outcome State Fault Refusal :=
  if !s.time.slewOwed then ok s
  else
    let s : State := { s with time := { s.time with slewOwed := false } }
    ok (s.timeEvt 7)

/-- Follow the other domain from now on, and capture O (R256, R257). [log 50 DEDUCED] -/
def State.switchDomain (s : State) : State :=
  let s : State := { s with time := { s.time with followB := !s.time.followB } }
  let s := s.wrb F.TIME_STATUS_sel_now s.time.followB
  s.captureO.workRegs

/-- DOMAIN_SWITCH (R257, R258): a named switch or capture whose boundary has come, acknowledged where a partner was
asked. [log 50 DEDUCED] -/
def execDomainSwitch (s : State) : Host.Outcome State Fault Refusal :=
  match s.time.switchAt with
  | none => ok s
  | some (b, captureOnly) =>
    let order := fun (o : Order) => o.code == 4 && o.boundary == b
    if s.turn.k < b || s.ply.orders.any (fun o => order o && o.mine && !o.acked) then ok s
    else
      let s : State := { s with
        time := { s.time with switchAt := none },
        ply := { s.ply with orders := s.ply.orders.filter (fun o => !order o) } }
      ok (if captureOnly then s.captureO else s.switchDomain)

/-- TIME_XCHG_SEND (R259, R269). -/
def execTimeXchgSend (s : State) : Host.Outcome State Fault Refusal :=
  if !s.plyUp then ok s
  else
    let q := s.time.xchgSeq
    let s : State := { s with time := { s.time with xchgSeq := (q + 1) % 256 } }
    ok (s.emit (.plyBlock 0x31 q 0))

/-- TIME_XCHG_RECEIVED (R259): the difference standby − active, in ps. -/
def execTimeXchgReceived (diffPs : Int) (s : State) : Host.Outcome State Fault Refusal :=
  if !s.plyUp || !s.isStandby then ok s
  else
    let run := if 50 < diffPs.natAbs then s.time.xchgRun + 1 else 0
    let s : State := { s with time := { s.time with xchgRun := run } }
    let s := s.wr F.PLY_TIME_DIFF_diff_ps (toBits 32 diffPs)
    ok (if run = 64 then s.timeEvt 21 else s)

/-- PLY_TIME_DIFF_EXCEEDED (R259, R281 code 4). -/
def execPlyTimeDiffExceeded (s : State) : Host.Outcome State Fault Refusal :=
  let d := s.rd F.PLY_TIME_DIFF_diff_ps
  if d ≠ 0x80000000 ∧ 1000 < (sextNat 32 d).natAbs then ok (s.leaveTracking 4) else ok s

/-! PPS_OUT, alarms and the calendar (R262 to R265). -/

/-- PPS_OUT_PULSE (R262). -/
def execPpsOutPulse (s : State) : Host.Outcome State Fault Refusal :=
  let valid := match s.rd F.PPS_OUT_CTRL_src with
    | 0 => s.time.workSet
    | 1 => s.domValid .a
    | 2 => s.domValid .b
    | _ => false
  if !s.pd .time || !s.on F.PPS_OUT_CTRL_enable || !valid then ok s
  else
    let s : State := { s with time := { s.time with ppsOut := true } }
    ok (s.emit (.pps true))

/-- PPS_OUT_FALL (R262). -/
def execPpsOutFall (s : State) : Host.Outcome State Fault Refusal :=
  if !s.time.ppsOut then ok s
  else
    let s : State := { s with time := { s.time with ppsOut := false } }
    ok (s.emit (.pps false))

/-- ALARM_FIRE (R260, R263, R456): at its instant the alarm's bit is raised; a period arms it again. It may wake the module.
[log 46 DEDUCED, 92 DEDUCED] -/
def execAlarmFire (a : Fin 8) (s : State) : Host.Outcome State Fault Refusal :=
  match SMap.find s.time.alarms a.val with
  | none => ok s
  | some t =>
    if !s.pd .time || !s.on (F.ALARM_CTRL_enable a.val) || decide (s.time.work < t) then ok s
    else
      let period := min 1000000 (s.rd (F.ALARM_CTRL_period_us a.val))
      let alarms := if period = 0 then SMap.del s.time.alarms a.val
        else SMap.put s.time.alarms a.val (t + period * 1000 * unitNs)
      let s : State := { s with time := { s.time with alarms := alarms } }
      ok ((s.timeEvt (12 + a.val)).wake 6)

/-- The entries of the leap table as its registers hold them (R264). [log 46 DEDUCED] -/
def State.leapTable (s : State) : List (Nat × Int) :=
  (upTo (min 64 (s.rd F.LEAP_CTRL_count))).map (fun i =>
    (s.rd (F.LEAP_AT_HI_at i) * 2 ^ 32 + s.rd (F.LEAP_AT_LO_at i), sextNat 32 (s.rd (F.LEAP_OFF_off i))))

/-- Does a leap table pass: instants strictly rising, each offset one off the one before it (R265)? [log 46 DEDUCED] -/
def leapOk : List (Nat × Int) → Bool
  | [] => true
  | [_] => true
  | a :: b :: l => decide (a.1 < b.1) && (b.2 - a.2).natAbs == 1 && leapOk (b :: l)

/-- LEAP_APPLY (R265). -/
def execLeapApply (s : State) : Host.Outcome State Fault Refusal :=
  if !s.pd .time then ok s
  else if leapOk s.leapTable then
    ok { s.wr F.LEAP_CTRL_leap_err 0 with time := { s.time with leapNext := some s.leapTable } }
  else ok ((s.wr F.LEAP_CTRL_leap_err 1).timeEvt 22)

/-- LEAP_TABLE_EFFECT (R265). [log 46 DEDUCED] -/
def execLeapTableEffect (s : State) : Host.Outcome State Fault Refusal :=
  match s.time.leapNext with
  | none => ok s
  | some l => ok { s with time := { s.time with leap := l, leapNext := none } }

/-- CALENDAR_WRITE (R265, R314): the keep-island calendar takes the whole working seconds. -/
def execCalendarWrite (s : State) : Host.Outcome State Fault Refusal := ok s.keepCalendar

end Sys2Proof.Machine
end

