-- ==== Sys2Proof/Machine/Turn.lean ====
section
/-! DEFINITION. The turn: start, boundary, input cut-off, release instant, regulation, wedges, the slack registers,
and host writes and forces at their boundary (chapters 02 and 03). -/

namespace Sys2Proof.Machine

/-- The registers that show the turn's origin (R47). -/
def State.originRegs (s : State) : State :=
  let w := timeWord 2 s.turn.origin
  let s := (upTo 4).foldl (fun s i => s.wr (F.TURN_ORIGIN_origin i) (w >>> (32 * i) % 2 ^ 32)) s
  (s.wr F.ORIGIN_TURN_LO_k_origin (s.turn.kOrigin % 2 ^ 32)).wr F.ORIGIN_TURN_HI_k_origin (s.turn.kOrigin >>> 32)

/-- The boundary at which a position taken before the turn engine started becomes effective (R122): the first at least 2
turns after it was taken. -/
def State.keyFromStart (s : State) : Option (Nat × Nat) :=
  s.tasks.keyNext.map (fun e => (ceilDiv (20 * s.turnNs - 32 * (s.time.ticks - s.tasks.keyTick)) (10 * s.turnNs), e.2))

/-- TURN_ENGINE_START (R28, R76, R77, R122): a lone module's turn engine starts at a whole second of working time, which is
boundary 0. -/
def execTurnEngineStart (s : State) : Host.Outcome State Fault Refusal :=
  let partner := s.rd F.PLY_STATUS_partner_state
  if s.on F.TURN_STATUS_running || !s.time.workSet || (s.plyUp && (partner == 1 || partner == 2)) then ok s
  else
    let s := (s.wr F.TURN_STATUS_running 1).wr F.TURN_STATUS_adopted 0
    let s : State := { s with
      turn := { TurnSt.idle with origin := s.workSec * unitSec },
      tasks := { s.tasks with startAt := 16, keyNext := s.keyFromStart } }
    let s := (upTo 16).foldl (fun s p => s.boundaryBlocks 0 p) s.originRegs
    ok ((s.millBoundary.sendSnaps 0).doorbellStart 0).autoSwitch

/-- TURN_BOUNDARY (R27, R76, R77, R98, R111, R133, R164, R323): the turn number rises by 1. [log 28 DEDUCED] -/
def execTurnBoundary (s : State) : Host.Outcome State Fault Refusal :=
  if !s.on F.TURN_STATUS_running then ok s
  else
    let k := s.turn.k + 1
    let s : State := { s with
      turn := { s.turn with k := k },
      image := { s.image with got := [], gotRing := [] },
      skein := { s.skein with directPrev := s.skein.direct, direct := [] } }
    let s := (upTo 16).foldl (fun s p => (s.countMarks p).boundaryBlocks k p) s
    ok ((s.millBoundary.sendSnaps k).extraFlush.doorbellStart k).autoSwitch

/-- The sample of turn k: its views are fixed, and the loops and tasks due begin (R34, R105, R172, R204, R210, R226,
R228). -/
def State.runSample (s : State) (k : Nat) : State :=
  let t := s.boundaryU k + s.cutoffNs * unitNs
  let s := (s.slotList.filter (fun n => s.slotKind n == 2)).foldl (fun s n => s.takeRingSlot t n) s
  let s := (s.prunePubs t).lossRows
  let loops := if s.computes then s.enabledLoops.filter (fun l => k % s.loopP l == 0) else []
  let view := s.wheelView
  let evals := s.turn.evals ++ loops.map (fun l => (k, l))
  let live := fun (j : Nat) => j == k || evals.any (fun e => e.1 == j)
  let s : State := { s with turn := { s.turn with
    cutoffs := k + 1,
    views := SMap.put (s.turn.views.filter (fun e => live e.1)) k view,
    brakedAt := SMap.put (s.turn.brakedAt.filter (fun e => live e.1)) k (s.brakedLoops loops),
    dueGroups := SMap.put s.turn.dueGroups k (loops.map groupOf).eraseDups,
    evals := evals } }
  let s := if s.computes then (upTo 16).foldl (fun s t => s.readyTask t k) s else s
  (s.composePub k view).recordSlots k view

/-- The stations due at turn k. -/
def State.dueInputs (s : State) (k : Nat) : List Nat := s.stations.filter (fun n => k % s.stationP n == 0)

/-- A snapshot of a receive buffer: what MBR reads here, and the value of a mapped buffer (R133, R375).
[log 95 DEDUCED] -/
def State.takeSnap (s : State) (ch b : Nat) (words : List Word36) : State :=
  let key := ch * 64 + b
  let n := (SMap.getD s.tasks.millSnap key (0, none)).1 + 1
  let s : State := { s with tasks := { s.tasks with millSnap := SMap.put s.tasks.millSnap key (n, some words) } }
  if s.aon (F.MB_BUF_CFG_map_en ch b) && s.millRole ch b == 1 then
    s.setMillBuf ch b { s.millBuf ch b with mapped := some (s.mapValue ch b (wordsBytes words)) }
  else s

/-- What was recorded up to turn j enters the image: snapshots, and the INPUT frames of turn j (R297). -/
def State.takeRecorded (s : State) (j : Nat) : State :=
  let snaps := s.ply.recSnaps.filter (fun e => decide (e.1 ≤ j))
  let inputs := s.ply.recInputs.filter (fun e => e.1 == j)
  let s : State := { s with ply := { s.ply with
    recSnaps := s.ply.recSnaps.filter (fun e => decide (j < e.1))
    recInputs := s.ply.recInputs.filter (fun e => decide (j < e.1)) } }
  let s := snaps.foldl (fun s e => s.takeSnap e.2.1 e.2.2.1 e.2.2.2) s
  inputs.foldl (fun s e => s.storeInput e.2.1 (readSkein e.2.2)) s

/-- The turns of replay still to run (R298). -/
def State.showBacklog (s : State) : State :=
  s.wr F.PLY_JOIN_backlog (min (s.ply.liveCut - s.turn.cutoffs) (2 ^ 20 - 1))

/-- The cut-off of a joining module in the phases Capture and Replay (R295, R297): first that of the present turn, by which
frames are counted and told; then, in Replay, the oldest sample not yet run, from what was recorded of it.
[log 57 DEDUCED] -/
def State.replayCutoff (s : State) : State :=
  let k := s.turn.k
  if s.ply.liveCut ≤ k then
    let s : State := { s with ply := { s.ply with liveCut := k + 1 } }
    let s := ((upTo 16).foldl State.reachedRegs ((s.dueInputs k).foldl State.missRegs s)).sendReach k
    if s.rd F.PLY_JOIN_phase == 5 then s.showBacklog else s
  else if s.rd F.PLY_JOIN_phase == 5 && decide (s.turn.cutoffs < s.ply.liveCut) then
    let j := s.turn.cutoffs
    let heard := (s.ply.recInputs.filter (fun e => e.1 == j)).map (·.2.1)
    let s := ((s.dueInputs j).filter (fun n => !heard.contains n)).foldl (fun s n =>
      (s.slotsOf 1 n).foldl State.substitute s) (s.takeRecorded j)
    (s.runSample j).showBacklog
  else s

/-- INPUT_CUTOFF (R33, R34, R56, R99, R105, R172, R204, R210, R226, R228, R297): the views of the present turn are
fixed, missing inputs take their policy, and the loops and tasks due begin. -/
def execInputCutoff (s : State) : Host.Outcome State Fault Refusal :=
  let k := s.turn.k
  if !s.on F.TURN_STATUS_running || !s.pd .skein then ok s
  else if s.replaying then ok s.replayCutoff
  else if k < s.turn.cutoffs then ok s
  else
    let s := (upTo 16).foldl State.reachedRegs ((s.dueInputs k).foldl State.missStation s)
    ok ((s.runSample k).sendReach k)

/-- RELEASE_INSTANT (R35, R41, R108, R115, R116, R125, R281, R307, R311, R377): the next release instant fires.
[log 15 DEDUCED] -/
def execReleaseInstant (s : State) : Host.Outcome State Fault Refusal :=
  let m := s.turn.nextRel
  if !s.on F.TURN_STATUS_running || !s.pd .skein || s.turn.k < m || (s.replaying && decide (s.turn.cutoffs ≤ m)) then ok s
  else
    let s : State := { s with ply := { s.ply with catchUp := [] } }
    let s := (s.countDigests.raiseEqual).endResumed m
    let s := match s.tasks.overrunNext with
      | some (j, t, trap) =>
        if j ≤ m then
          let s : State := { s with tasks := { s.tasks with overrunNext := none } }
          s.overrunStop t trap m
        else s
      | none => s
    let s := (s.applyRelease m).slipTasks m
    let s : State := { s with turn := { s.turn with nextRel := m + 1 } }
    let was := s.rd F.BRK_STATE_port
    let from? := fun (b : Option Nat) => match b with
      | some b => decide (b ≤ m)
      | none => false
    let s := if from? s.tasks.stopFrom then s.setRow 16 true else s
    let s := if from? s.tasks.overrunFrom then s.setRow 17 true else s
    let due := s.dueStations m
    let braked := due.any (fun n => s.portBraked (n / 16) || s.heldStation (m + 1 - s.nTurns * s.stationP n))
    let s := due.foldl (fun s n => s.releaseStation m was n) s
    let s := if (s.sendsAs 0).isSome then s.wr F.TURN_WDOG_armed 1 else s
    let r := s.relRec m
    let s := s.setRel m { r with released := true, braked := braked }
    let s := s.noteSplit m
    let s : State := { s with brake := { s.brake with held := s.rd F.BRK_STATE_port } }
    ok { s with ply := { s.ply with
      relLatches := SMap.put (keepFrom s.ply.relLatches (m - 64)) m s.turn.latches } }

/-- REGULATION_INTERVAL_END (R40): the core voltage follows the least slack of the interval; none after a slip or
with no slack recorded. -/
def execRegulationIntervalEnd (s : State) : Host.Outcome State Fault Refusal :=
  let mv := s.rd F.VCORE_STATUS_vcore_mv
  let target := s.act F.SLACK_TARGET_target_ns
  let next := match s.turn.leastSlack with
    | none => mv
    | some x =>
      if s.turn.slipSeen then mv
      else if x < target then min 850 (mv + 10)
      else if target + s.act F.SLACK_TARGET_hyst_ns < x then max 600 (mv - 5)
      else mv
  let s := s.setVcore next
  ok { s with turn := { s.turn with leastSlack := none, slipSeen := false } }

/-- STAGE_WEDGED (R45, R46): a self-diagnosed fault. -/
def execStageWedged (cls : UnitClass) (unit : Fin 128) (s : State) : Host.Outcome State Fault Refusal :=
  ok (s.selfFault 2 (unitCode cls) unit.val)

/-- SLACK_CLEAR_MIN (R47). -/
def execSlackClearMin (s : State) : Host.Outcome State Fault Refusal :=
  if !s.pd .bins then ok s
  else
    let s := (upTo 16).foldl (fun s t => s.wr (F.SLACK_TASK_MIN_slack_ns t) 0xFFFFFFFF) s
    ok ((upTo 8).foldl (fun s g => s.wr (F.SLACK_WHEEL_MIN_slack_ns g) 0xFFFFFFFF) s)

/-- SLACK_CLEAR_SLIPS (R47). -/
def execSlackClearSlips (s : State) : Host.Outcome State Fault Refusal :=
  if !s.pd .bins then ok s
  else
    let s := (upTo 16).foldl (fun s t => (s.wr (F.SLIP_TASK_slips t) 0).wr (F.SLIP_TASK_last_slipped t) 0) s
    ok ((upTo 8).foldl (fun s g => (s.wr (F.SLIP_WHEEL_slips g) 0).wr (F.SLIP_WHEEL_last_slipped g) 0) s)

/-- One host write whose boundary has come enters the image or its loop (R50, R58, R68, R158); one for a slot that is no
longer of kind 3 has no effect. [log 109 DESIGN CHOICE] -/
def State.takeWrite (s : State) (b : Nat) (w : HostWrite) : State :=
  match w with
  | .slot n v =>
    if s.slotKind n.toNat == 3 then (s.barKey n.toNat b).setCell n.toNat ⟨⟨v, mkTag 0 false false false false⟩, 0⟩ else s
  | .loop l target manual mode =>
    let x := s.loop l.val
    let r : LoopReq := ⟨b, target.map BitVec.toInt, manual.map BitVec.toInt, mode.map BitVec.toNat⟩
    let s := s.barKey (2 ^ 20 + l.val) b
    { s with loops := SMap.put s.loops l.val { x with reqs := x.reqs ++ [r] } }
  | .soft _ => s
  | .mill _ _ _ => s
  | .prog _ _ _ _ => s

/-- Is a write one that HOST_WRITE_TAKEN takes: a slot or a loop? -/
def isImageWrite : HostWrite → Bool
  | .slot _ _ => true
  | .loop _ _ _ _ => true
  | .soft _ => false
  | .mill _ _ _ => false
  | .prog _ _ _ _ => false

/-- HOST_WRITE_TAKEN (R68): every signal write and LOOP_WRITE whose boundary has come is taken. -/
def execHostWriteTaken (s : State) : Host.Outcome State Fault Refusal :=
  let k := s.nowTurn
  let take := fun (e : Nat × HostWrite) => decide (e.1 ≤ k) && isImageWrite e.2
  let due := s.image.waiting.filter take
  let s : State := { s with image := { s.image with waiting := s.image.waiting.filter (fun e => !take e) } }
  ok (due.foldl (fun s e => s.takeWrite e.1 e.2) s)

/-- One force or unforce (R62, R65). A forced input asserts no slot-loss source; after an unforce its record does
again while the record is BAD under BRAKE. -/
def State.applyForce (s : State) (e : BitVec 18 × Option Sample) : State :=
  let n := e.1.toNat
  match e.2 with
  | some v =>
    { s with image := { s.image with forces := SMap.put s.image.forces n v, loss := SMap.del s.image.loss n } }
  | none =>
    let was := SMap.has s.image.forces n
    let s : State := { s with image := { s.image with forces := SMap.del s.image.forces n } }
    if was && s.misses n then
      { s with image := { s.image with loss := SMap.put s.image.loss n (s.act (F.SLOT_POL_0_brake_src n)) } }
    else s

/-- FORCE_APPLY (R64, R65): every acknowledged force order whose boundary has come takes effect, and its command
completes. -/
def execForceApply (s : State) : Host.Outcome State Fault Refusal :=
  let k := s.nowTurn
  let take := fun (o : Order) => o.code == 2 && o.acked && decide (o.boundary ≤ k)
  let due := s.ply.orders.filter take
  let s := if due.isEmpty then s else s.saveForces
  let s : State := { s with ply := { s.ply with orders := s.ply.orders.filter (fun o => !take o) } }
  let s := due.foldl (fun s o => match o.content with
    | .force es => es.foldl State.applyForce s
    | _ => s) s
  let s := s.lossRows
  ok (due.foldl (fun s o =>
    s.finish (fun m => (m.op == 0x30 || m.op == 0x31) && m.order == some o.seq) 0 0 o.boundary 0) s)

end Sys2Proof.Machine
end

