-- ==== Sys2Proof/Machine/Commit.lean ====
section
/-! DEFINITION. A commit taking effect at its boundary (R29, R31, R154 to R165, R354), and the images restored at a
cold start (R355). -/

namespace Sys2Proof.Machine

/-! The turn and the settings that follow a commit. -/

/-- A retiming (R29, R118): boundary b is the new origin, and every sample taken before it is discarded.
[log 74 DEDUCED] -/
def State.retime (s : State) (b : Nat) (old new : RegMap) : State :=
  let u := s.boundaryU b
  let n := RegMap.get new F.TURN_LATENCY_n_turns
  let s : State := { s with
    turn := { s.turn with origin := u, kOrigin := b, cutoffs := b, nextRel := b, nextDl := b + n - 1, held := [],
                          evals := [], views := [], brakedAt := [], dueGroups := [] },
    tasks := { s.tasks with
      spindle := []
      task := s.tasks.task.map (fun e => (e.1, { e.2 with inst := none, waiting := [] }))
      wdogT := max (RegMap.get old F.TURN_LENGTH_turn_ns) (RegMap.get new F.TURN_LENGTH_turn_ns) } }
  s.originRegs

/-- The registers of a program slot as its active and staged copies stand (R151). -/
def State.progRegs (s : State) (p : Nat) : State :=
  match SMap.find s.progs.active p with
  | none => s
  | some b =>
    let s := ((s.wr (F.PROG_STATUS_active p) 1).wr (F.PROG_STATUS_strands p) (progStrands b)).wr
      (F.PROG_STATUS_trap_action p) (progTrapAction b)
    let s := (s.wr (F.PROG_ID_LO_ident p) (progIdent b % 2 ^ 32)).wr (F.PROG_ID_HI_ident p) (progIdent b >>> 32)
    s.wr (F.PROG_SIZE_code_words p) (progCodeTotal b)

/-- A slot's staged copy becomes active, and the copy it replaces becomes the staged one (R165). -/
def State.swapProg (s : State) (p : Nat) : State :=
  match SMap.find s.progs.staged p with
  | none => s
  | some new =>
    let old := SMap.find s.progs.active p
    let staged := match old with
      | some b => SMap.put s.progs.staged p b
      | none => SMap.del s.progs.staged p
    let s : State := { s with progs := { s.progs with
      active := SMap.put s.progs.active p new, staged := staged, partnerStaged := staged } }
    (s.progRegs p).wr (F.PROG_STATUS_staged p) (if old.isSome then 2 else 0)

/-! Tasks (R144, R156, R159, R161). -/

/-- Does a commit change task t's program identity, program slot, period or spindle mask (R156)? -/
def taskSwitches (old new : RegMap) (oldP newP : SMap Bytes) (t : Nat) : Bool :=
  let same (f : Nat → Fld) : Bool := RegMap.get old (f t) == RegMap.get new (f t)
  !(same F.TASK_CTRL_program && same F.TASK_CTRL_rate_n && same F.TASK_SPINDLES_mask &&
    (taskProgIn old oldP t).map progIdent == (taskProgIn new newP t).map progIdent)

/-- The first multiple of p at or after a boundary. -/
def firstDue (b p : Nat) : Nat := ceilDiv b p * p

/-- Task t of a commit at boundary b: its switch, its release from the trapped state, and its start where the commit
enables it. [log 74 DEDUCED] -/
def State.commitTask (s : State) (b : Nat) (old : RegMap) (oldP : SMap Bytes) (t : Nat) : State :=
  let new := s.hop.active
  let newP := s.progs.active
  let x := s.task t
  let was := RegMap.get old (F.TASK_CTRL_enable t) == 1
  let on := s.aon (F.TASK_CTRL_enable t)
  let runs := s.rd F.TASK_RUN_run_state == 1
  let oldProg := taskProgIn old oldP t
  let never := !was && !x.ran
  let code := RegMap.get old (F.TASK_CTRL_program t) != RegMap.get new (F.TASK_CTRL_program t) ||
    oldProg != taskProgIn new newP t
  let freed := x.trapped && code
  let kept := if freed then x.data.filter (fun e => decide (e.1 < ((x.oldProg.or oldProg).map progRetained).getD 0)) else x.data
  if taskSwitches old new oldP newP t then
    let start := match x.lastDue with
      | some k => if was then max b (k + 2 ^ RegMap.get old (F.TASK_CTRL_rate_n t)) else b
      | none => b
    let bt := firstDue start (s.taskP t)
    let s := s.setTask t { x with
      switchAt := some bt, oldProg := if never then none else x.oldProg.or oldProg,
      data := if never then [] else kept, trapped := x.trapped && !code, lastDue := none }
    let s := s.wr F.ONLINE_PENDING_pending (setBit (s.rd F.ONLINE_PENDING_pending) t true)
    let s := s.wr F.ONLINE_STATUS_changed (setBit (s.rd F.ONLINE_STATUS_changed) t true)
    if on && runs && (!was || freed) then s.startTask t bt else s
  else if on && !was then
    let s := if never then s.setTask t { x with data := [] } else s
    if runs then s.startTask t b else s
  else if freed then
    let s := s.setTask t { x with trapped := false, data := kept }
    if on && runs then s.startTask t b else s
  else s

/-- The owner of a mill-bus transmit buffer, as a number: none 0, host 1, task t 2 + t. -/
def millOwner (m : RegMap) (ch b : Nat) : Nat :=
  match RegMap.get m (F.MB_BUF_CFG_role ch b) with
  | 2 => 2 + RegMap.get m (F.MB_BUF_CFG_owner ch b)
  | 3 => 1
  | 4 => if RegMap.get m (F.MB_BUF_CFG_owner_host ch b) = 1 then 1 else 2 + RegMap.get m (F.MB_BUF_CFG_owner ch b)
  | _ => 0

/-- The writer of a loop's fields, as a number. -/
def loopOwner (m : RegMap) (l : Nat) : Nat :=
  if RegMap.get m (F.LOOP_CTRL_sp_kind l) = 1 then 1 + RegMap.get m (F.LOOP_CTRL_sp_task l) else 0

/-- Slots, loop fields and transmit buffers whose writer a commit at b changes (R158). -/
def State.changeWriters (s : State) (b : Nat) (old : RegMap) (oldP : SMap Bytes) : State :=
  let new := s.hop.active
  let slots := (slotsIn old ++ slotsIn new).eraseDups.filter (fun n =>
    let w := writerIn new s.progs.active n
    w != .none && w != writerIn old oldP n)
  let ls := (loopsIn old ++ loopsIn new).eraseDups.filter (fun l => loopOwner old l != loopOwner new l)
  let ms := (upTo 128).filter (fun i => millOwner old (i / 64) (i % 64) != millOwner new (i / 64) (i % 64))
  let keys := slots ++ ls.map (2 ^ 20 + ·) ++ ms.map (2 ^ 21 + ·)
  let stays := s.image.moved.filter (fun n => SMap.find s.image.barred n != SMap.find s.image.writerSince n)
  let moved := slots.filter (fun n => writerIn old oldP n != .none || SMap.has s.image.forces n)
  { s with image := { s.image with writerSince := SMap.puts s.image.writerSince (keys.map (fun k => (k, b)))
                                   moved := (stays ++ moved).eraseDups } }

/-! Loops (R190, R191). -/

/-- Loop l of a commit at b: a transfer owed where it is enabled again, a back-calculation where its gains change.
[log 21 DEDUCED] -/
def State.commitLoop (s : State) (b : Nat) (old : RegMap) (l : Nat) : State :=
  let new := s.hop.active
  let x := s.loop l
  let was := RegMap.get old (F.LOOP_CTRL_enable l) == 1
  let gains := [0x18, 0x2C, 0x24].any (fun o => stgWord old (0x40000 + 64 * l + o) != stgWord new (0x40000 + 64 * l + o))
  let starts := x.started || s.turn.evals.any (fun e => e.2 == l && decide (e.1 < b))
  if !s.aon (F.LOOP_CTRL_enable l) || !starts then s
  else if !was then { s with loops := SMap.put s.loops l { x with owed := true } }
  else if gains && s.aon (F.LOOP_CTRL_bumpless_gain l) then
    { s with loops := SMap.put s.loops l { x with gainFrom := x.gainFrom ++ [b] } }
  else s

/-! Stations, brakes, the mill bus and slots. -/

/-- A port of a commit (R102): its lane trains where the commit enables it and goes off where it disables it, and its chain
follows its map. -/
def State.commitPort (s : State) (old : RegMap) (p : Nat) : State :=
  let was := RegMap.get old (F.SK_CTRL_enable p) == 1
  let on := s.aon (F.SK_CTRL_enable p)
  let s := if was && !on then s.laneDown p 0
    else if on && !was && s.pd .skein then s.wr (F.SK_STATUS_link p) 1 else s
  s.chainReg p

/-- A station of a commit (R96, R102): present on a port that runs, absent, or its entry or its port's budget changed.
[log 74 DEDUCED] -/
def State.commitStation (s : State) (old : RegMap) (n : Nat) : State :=
  let was := runsIn old n
  let on := runsIn s.hop.active n
  let words := (upTo 3).map (fun i => 0x20000 + 16 * n + 4 * i) ++ [(F.SK_BUDGET_emit_ns (n / 16)).off]
  let changed := words.any (fun o => stgWord old o != stgWord s.hop.active o)
  if was && !on then s.setStn n 0 none
  else if on && !was then s.setStn n 1 none
  else if on && changed && s.stnState n == 5 then s.setStn n 1 none
  else s

/-- Every port and station of a commit. [log 74 DEDUCED] -/
def State.commitStations (s : State) (old : RegMap) : State :=
  (upTo 256).foldl (fun s n => s.commitStation old n) ((upTo 16).foldl (fun s p => s.commitPort old p) s)

/-- d_in and d_out of every port as the registers show them (R88, R102). -/
def State.budgetRegs (s : State) : State :=
  (upTo 16).foldl (fun s p => (s.wr (F.SK_D_IN_ps p) (10 * s.dIn p)).wr (F.SK_D_OUT_ps p) (10 * s.dOut p)) s

/-- An input of the brake domain that a commit enables starts asserted; one that it disables asserts nothing (R301).
A row that a commit makes latch while it is asserted latches (R304). -/
def State.commitBrakes (s : State) (old : RegMap) : State :=
  let s := (upTo 8).foldl (fun s i =>
    let was := RegMap.get old (F.BRK_IN_CFG_enable i) == 1
    let on := s.aon (F.BRK_IN_CFG_enable i)
    if on == was then s else s.setRow i on) s
  let latch := (bitsSet 26 (s.rd F.BRK_SRC_RAW_raw)).filter s.rowLatches
  let s : State := { s with brake := { s.brake with
    latched := latch.foldl (fun a r => setBit a r true) s.brake.latched } }
  s.evalMatrix

/-- A mill-bus channel that a commit enables starts error active, and one that it disables is off (R388).
[log 74 DEDUCED] -/
def State.commitChannel (s : State) (old : RegMap) (ch : Nat) : State :=
  let was := RegMap.get old (F.MB_CTRL_enable ch) == 1
  let on := s.aon (F.MB_CTRL_enable ch)
  if on == was then s
  else
    let s := ((s.wr (F.MB_STATUS_state ch) (bit on)).wr (F.MB_STATUS_recovering ch) 0)
    (s.wr (F.MB_STATUS_rec ch) 0).wr (F.MB_STATUS_tec ch) 0

/-- Slot-loss sources that the new policy still asserts (R57); a forced input asserts none (R62). -/
def State.commitLoss (s : State) : State :=
  let keep := s.image.loss.filterMap (fun e =>
    if s.isInput e.1 && s.act (F.SLOT_POL_0_policy e.1) == 2 && !SMap.has s.image.forces e.1 then some (e.1, s.act (F.SLOT_POL_0_brake_src e.1)) else none)
  let s : State := { s with image := { s.image with loss := keep } }
  s.lossRows

/-- The registers that follow the settings in force: worst-case times, retained bytes, ring load, budgets (R109, R126, R230,
R102). -/
def State.settingRegs (s : State) : State :=
  let s := (upTo 16).foldl (fun s t =>
    s.wr (F.TASK_WCET_wcet_ns t) (if s.aon (F.TASK_CTRL_enable t) then ceilDiv (s.wcet t) 2 else 0)) s
  let s := s.wr F.RETAIN_STATUS_bytes (min s.retainBytes 262144)
  (s.wr F.RING_LOAD_own (min s.ringLoad 0xFFFF)).budgetRegs

/-! The commit. -/

/-- The staged copy after a commit: every field that the commit changed equals its active value, and no activation bit is
set; what was staged otherwise stays (R354). -/
def stagedAfter (staged old new : RegMap) (changes : List (Nat × Nat)) : RegMap :=
  RegMap.set (changes.foldl (fun m e =>
    ((stgRows e.1).filter (fun r => RegMap.get old (r.fld e.1) != RegMap.get new (r.fld e.1))).foldl
      (fun m r => RegMap.set m (r.fld e.1) (RegMap.get new (r.fld e.1))) m) staged)
    F.HOPPER_PROG_ACT_act 0

/-- A commit image replaces the active copy at its boundary b, as one unit (R354). [log 74 DEDUCED] -/
def State.applyCommit (s : State) (a : CommitImage) : State :=
  let b := a.boundary
  let old := s.hop.active
  let oldP := s.progs.active
  let new := RegMap.set a.image F.HOPPER_PROG_ACT_act 0
  let program := changesProgram old a.image
  let s := if retimes old new then s.retime b old new else s
  let s : State := { s with hop := { s.hop with
    active := new, staged := stagedAfter s.hop.staged old new a.changes, before := s.hop.before ++ [(b, old)], armed := none } }
  let s := (progActs a.image).foldl State.swapProg s
  let s : State := if program then { s with hop := { s.hop with onlineSlots := programSlots old a.image } } else s
  let s := if program then s.wr F.ONLINE_STATUS_changed 0 else s
  let s := (upTo 16).foldl (fun s t => s.commitTask b old oldP t) s
  let s := if program then
      (((s.wr F.ONLINE_STATUS_state (if s.rd F.ONLINE_PENDING_pending = 0 then 0 else 2)).wr
        F.ONLINE_STATUS_last_abandoned 0).wr F.ONLINE_STATUS_reason 0)
    else s
  let s := s.changeWriters b old oldP
  let s := s.enabledLoops.foldl (fun s l => s.commitLoop b old l) s
  let s := s.commitStations old
  let s := (s.commitChannel old 0).commitChannel old 1
  let s := (s.rebuildPayloads.commitLoss.commitBrakes old)
  let s := s.settingRegs.checkBypass
  let s := if s.time.followB == s.aon F.TIME_CTRL_sel || !differIn old new (fun o => o == F.TIME_CTRL_sel.off) ||
      RegMap.get old F.TIME_CTRL_sel == RegMap.get new F.TIME_CTRL_sel then s
    else s.switchDomain
  let s := s.autoSwitch
  let s := (s.inc F.HOPPER_COMMITS_count).wr F.HOPPER_STATUS_last_result 1
  let s := s.wr F.HOPPER_ACTIVE_SEAL_seal (committedSeal s.hop.active s.progs.active)
  let s : State := { s with hop := { s.hop with writing := true } }
  s.restage.hopState

/-! MRAM (R355). -/

/-- The older of the two MRAM copies of the committed image. -/
def State.olderImage (s : State) : Nat :=
  match SMap.find s.hop.mram 0, SMap.find s.hop.mram 1 with
  | none, _ => 0
  | some _, none => 1
  | some a, some b => if a.serial ≤ b.serial then 0 else 1

/-- The newer MRAM copy that checks. -/
def State.newerImage (s : State) : Option MramImage :=
  match SMap.find s.hop.mram 0, SMap.find s.hop.mram 1 with
  | some a, some b => some (if a.serial ≤ b.serial then b else a)
  | a, b => a.or b

/-- A write to MRAM that a loss of power cut short: the copy it was overwriting no longer checks. -/
def State.cutImage (s : State) : State :=
  if !s.hop.writing then s
  else { s with hop := { s.hop with mram := SMap.del s.hop.mram s.olderImage, writing := false } }

/-- The committed image and the program copies restored at a start of the bins (R345, R355, R363). -/
def State.restoreImage (s : State) : State :=
  let c := s.newerImage
  let m := (c.map (·.image)).getD []
  let active := (c.map (·.progs)).getD []
  let kept := (c.map (·.kept)).getD []
  let s : State := { s with
    hop := { s.hop with active := m, staged := m, before := [], testing := none, armed := none, partial_ := [],
                        writing := false },
    progs := { active := active, staged := kept, verifying := [], partnerStaged := [] } }
  let s := (upTo 16).foldl (fun s p => (s.progRegs p).wr (F.PROG_STATUS_staged p) 0) s
  let s := s.wrb F.HOPPER_STATUS_image_err c.isNone
  let s := s.wr F.HOPPER_ACTIVE_SEAL_seal (committedSeal m active)
  let s := (upTo 256).foldl (fun s n => s.wr (F.SK_STN_STATE_state (n / 16) (n % 16)) (bit (runsIn s.hop.active n))) s
  s.settingRegs.restage.hopState.rebuildPayloads

end Sys2Proof.Machine
end

