-- ==== Sys2Proof/Machine/Trace.lean ====
section
/-! DEFINITION. The trace commands: arm, stop and force (R214 to R216). -/

namespace Sys2Proof.Machine

/-- Do two buffers, given by first address and length in bytes, overlap? -/
def spansMeet (a b : Nat × Nat) : Bool := decide (a.1 < b.1 + b.2) && decide (b.1 < a.1 + a.2)

/-- The span of a channel's buffer within the trace area (R212). -/
def State.chanSpan (s : State) (ch : Nat) : Nat × Nat :=
  (s.rd (F.TRACE_BASE_base ch) * 0x10000, 8 * s.chanSize ch)

/-- Does a channel's buffer lie outside the trace area or meet another of its group, or one of a group that is not
idle (R212)? -/
def State.bufferBad (s : State) (g ch : Nat) : Bool :=
  let x := s.chanSpan ch
  let len := s.rd (F.TRACE_SIZE_len ch)
  len < 10 || 24 < len || 2 ^ 30 < x.1 + x.2 ||
    (upTo 64).any (fun c =>
      let h := s.rd (F.TRACE_SRC_group c)
      c != ch && s.on (F.TRACE_SRC_enable c) && (h == g || s.grpState h != 0) && spansMeet x (s.chanSpan c))

/-- The reason for which an arm of a group is refused, 0 for none (R215, R455). -/
def State.armErr (s : State) (g : Nat) : Nat :=
  let chans := s.grpChans g
  let kind := s.rd (F.TRACE_TRIG_kind g)
  let trig := s.rd (F.TRACE_TRIG_chan g)
  let stream := s.on (F.TRACE_TRIG_stream g)
  if chans.isEmpty then 1
  else if !s.pd .dram || chans.any (s.bufferBad g) then 2
  else if !stream && chans.any (fun ch => s.rd (F.TRACE_POST_count ch) == 0 ||
      decide (s.chanSize ch < s.rd (F.TRACE_PRE_count ch) + s.rd (F.TRACE_POST_count ch))) then 3
  else if kind != 0 && !chans.contains trig then 4
  else if kind == 6 && !s.on (F.TRACE_SRC_kind trig) && s.rd (F.TRACE_SRC_node trig) != 0 then 5
  else if stream && kind != 0 then 6
  else if chans.any (fun ch => !s.on (F.TRACE_SRC_kind ch) && decide (4096 ≤ s.rd (F.TRACE_SRC_source ch))) then 7
  else 0

/-- The state with a group idle (R214). -/
def State.idleGroup (s : State) (g : Nat) : State :=
  (s.wr (F.TRACE_GSTAT_state g) 0).setGrp g TraceGroup.idle

/-- TRACE_ARM (R214, R215): an idle or finished group is armed for the next boundary, or refused. -/
def execTraceArm (g : Fin 8) (s : State) : Host.Outcome State Fault Refusal :=
  let g := g.val
  if !s.pd .bins || s.grpState g == 1 || s.grpState g == 2 then ok s
  else
    let e := s.armErr g
    if e != 0 then ok ((s.idleGroup g).wr (F.TRACE_GSTAT_arm_err g) e)
    else
      let s := (s.grpChans g).foldl (fun s ch =>
        (s.setChan ch TraceChan.empty).wr (F.TRACE_STATUS_ecc ch) 0) s
      let s := s.setGrp g { TraceGroup.idle with armTurn := s.turn.k + 1 }
      ok (s.wr (F.TRACE_GSTAT_state g) 1)

/-- TRACE_STOP (R214). -/
def execTraceStop (g : Fin 8) (s : State) : Host.Outcome State Fault Refusal :=
  if !s.pd .bins then ok s else ok (s.idleGroup g.val)

/-- TRACE_FORCE (R214, R216): an armed capture group triggers at its trigger channel's next recorded sample. -/
def execTraceForce (g : Fin 8) (s : State) : Host.Outcome State Fault Refusal :=
  let g := g.val
  if !s.pd .bins || s.grpState g != 1 || s.on (F.TRACE_TRIG_stream g) then ok s
  else ok (s.setGrp g { s.grp g with forced := true })

end Sys2Proof.Machine
end

