-- ==== Sys2Proof/Machine/DomainOps.lean ====
section
/-! DEFINITION. Power domains going off and on, and what a rung change or a reset does to the roles (chapter 21). -/

namespace Sys2Proof.Machine

/-- The domains on at a rung, as bits of PWR_DOMAINS (R452). -/
def rungDomains (r : Nat) : Nat :=
  match r with
  | 0 => 0xFFF
  | 1 => 0xEFF
  | 2 => 0xC3F
  | 3 => 0x83F
  | 4 => 0x80F
  | 5 => 0x007
  | 6 => 0x003
  | _ => 0x001

/-- The registers of the keep island and of the ladder, which no power domain loses (R421, R428, R438, R443, R466).
[log 67 DEDUCED] -/
def keptFlds : List Fld :=
  [F.FW_STATUS_slot, F.FW_STATUS_confirm, F.FW_STATUS_lifecycle, F.FW_STATUS_key_floor, F.REC_STATUS_pointer,
    F.REC_STATUS_full, F.REC_STATUS_reserve, F.REC_LAST_SEAL_seal, F.KEEP_ALARM_LO_sec, F.KEEP_ALARM_HI_sec,
    F.RING_POSITION_position, F.RING_POSITION_backplane, F.RING_POSITION_ply_pos, F.RING_POSITION_strap_err,
    F.PLY_STATUS_home, F.PLY_STATUS_home_err, F.PLY_STATUS_ply_pos, F.PLY_STATUS_state, F.PLY_STATUS_abd_out,
    F.PLY_STATUS_abd_in, F.PLY_STATUS_tok_in, F.PWR_STATUS_rung, F.PWR_STATUS_target, F.PWR_STATUS_moving,
    F.PWR_STATUS_holdup_ok, F.PWR_STATUS_keep_lost, F.PWR_STATUS_cell_low, F.PWR_DOMAINS_on, F.PWR_CAUSE_kind,
    F.PWR_CAUSE_from, F.PWR_SUPPLY_input_mv, F.PWR_SUPPLY_cell_mv]

/-- The registers of the blocks that a test of their offset picks take their cold values, but for those of the keep
island, the straps and the ply state. -/
def State.loseRegs (s : State) (p : Nat → Bool) : State :=
  { s with regs := s.regs.filter (fun e => !p (e.1 / 32) || keptFlds.any (fun f => f.key == e.1)) }

/-- The registers of a domain's blocks are lost (R465). [log 67 DEDUCED] -/
def State.loseBlock (s : State) (d : Pd) : State := s.loseRegs (fun off => blockPd off == d)

/-- Every running instance is abandoned, and no task runs until it is started again (R114). -/
def State.abandonTasks (s : State) : State :=
  { s with tasks := { s.tasks with
      spindle := []
      task := s.tasks.task.map (fun e => (e.1, { e.2 with inst := none, waiting := [], started := false,
                                                          overrun := none, trap := none, first := true })) } }

/-- Slack history and slip counts take their cold values (R465); FAULT_RECORD stays (R48). -/
def State.loseSlack (s : State) : State :=
  let s := s.loseRegs (fun off => 0x4050 ≤ off && off < 0x41A0)
  { s with turn := { s.turn with leastSlack := none, slipSeen := false, healthSlips := 0, healthSlack := none,
                                 groups := [], faultTick := none },
           tasks := { s.tasks with
             task := s.tasks.task.map (fun e => (e.1, { e.2 with slipRun := 0, prevSlip := false })) } }

/-- Wheel work in progress is abandoned (R461). -/
def State.abandonLoops (s : State) : State :=
  { s with turn := { s.turn with evals := [], views := [], brakedAt := [], held := [], dueGroups := [] } }

/-- Trace groups become idle (R218, R455). -/
def State.idleTraces (s : State) : State := (upTo 8).foldl State.idleGroup s

/-- Cells of internal memory outside a range of addresses. [log 6 DESIGN CHOICE] -/
def State.loseMem (s : State) (lo hi : Nat) : State :=
  { s with mem := s.mem.filter (fun c => !(decide (lo ≤ c.1) && decide (c.1 < hi))) }

/-- Below Furled the locks of the host link and of the brake domain are lost, and the trip of the turn watchdog with its row
(R465). -/
def State.loseLocks (s : State) : State :=
  let s := (s.wr F.POLICY_LOCK_lock 0).wr F.BRK_LOCK_lock 0
  let s : State := { s with brake := { s.brake with latched := setBit s.brake.latched 18 false } }
  s.setRow 18 false

/-- What the bins hold is lost: the image, forces, task data, loop state and staged copies (R454, R465). The active
copy, the turn number and the epoch stay until the bins come back, as the brake domain keeps its part of them.
[log 67 DEDUCED] -/
def State.loseBins (s : State) : State :=
  let s : State := { s with
    image := ImageSt.cold, loops := [], seals := [], caps := [],
    tasks := { TasksSt.cold with retain := s.tasks.retain, flushSerial := s.tasks.flushSerial },
    progs := { s.progs with staged := [], verifying := [], partnerStaged := [] },
    hop := { s.hop with staged := s.hop.active, before := [], testing := none, armed := none, partial_ := [] },
    trace := { chan := [], group := [] } }
  ((s.loseBlock .bins).loseMem 0 0x100000000).loseLocks

/-- The host side of a module whose PD_HOSTSVC is off: link down, rings lost, mill-bus channels lost (R454, R465). -/
def State.loseHost (s : State) : State :=
  { s.loseBlock .hostsvc with host := { HostSt.cold with perst := s.host.perst }, mill := [] }

/-- The miller, the firmware work and the recorder's queue are lost; MRAM keeps the log and the slots (R465). -/
def State.loseMiller (s : State) : State :=
  let s := s.cutImage
  { s.loseBlock .miller with
    tasks := { s.tasks with flushing := none },
    fw := { FwSt.cold with slots := s.fw.slots, manifests := s.fw.manifests, good := s.fw.good, was := s.fw.was,
                           since := s.fw.since },
    recorder := { RecSt.cold with records := s.recorder.records, gasp := s.recorder.gasp } }

/-- The time engine is lost; the calendar counts on in the keep island (R237, R466). -/
def State.loseTime (s : State) : State :=
  { s.loseBlock .time with time := { TimeSt.cold with calendar := s.time.calendar, calPart := s.time.calPart } }

/-- The board ring and the ply links are lost; the epoch is the bins' (R465). [log 67 DEDUCED] -/
def State.loseRingPly (s : State) : State :=
  let e := s.epoch
  let p := s.ply
  let s := s.loseBlock .ringply
  { s with ring := RingSt.cold,
           ply := { PlySt.cold with partnerEpoch := p.partnerEpoch, heardEpoch := p.heardEpoch, rejoins := p.rejoins,
                                    restarts := p.restarts } } |>.wr F.PLY_EPOCH_epoch e |>.wr F.KEY_STATUS_partner_valid 0

/-- What is lost when a domain turns off (R454, R455, R465). The Skein ports' state falls when their receivers come
back: the brake domain's transmitters go on. -/
def State.lose (s : State) (d : Pd) : State :=
  match d with
  | .dram => s.idleTraces.loseMem 0x400000000 0x800000000
  | .spindle => s.abandonTasks.loseSlack
  | .wheel => s.abandonLoops
  | .skein => s
  | .ringply => s.loseRingPly
  | .bins => s.loseBins
  | .time => s.loseTime
  | .hostsvc => s.loseHost
  | .miller => s.loseMiller
  | .brake => { s.loseBlock .brake with
      brake := { s.brake with latched := 0, softNext := [], biChange := none, epochLimit := false, soft := 0, payloads := [], starting := true } }
  | .wake => s.loseBlock .wake
  | .keep => s

/-- A domain turns off. [log 51 DEDUCED] -/
def State.turnOff (s : State) (d : Pd) : State :=
  if !s.pd d then s
  else (s.lose d).wr F.PWR_DOMAINS_on (setBit (s.rd F.PWR_DOMAINS_on) d.bit false)

/-- The turning-on order of R463; turning off goes the other way (R452). -/
def pdOrder : List Pd :=
  [.keep, .wake, .brake, .miller, .time, .bins, .hostsvc, .ringply, .spindle, .wheel, .skein, .dram]

/-- Every domain that a mask of PWR_DOMAINS does not hold turns off, last on first off. -/
def State.turnOffTo (s : State) (mask : Nat) : State :=
  (pdOrder.reverse.filter (fun d => !bitOf mask d.bit)).foldl State.turnOff s

/-- The roles before PD_SPINDLE, PD_WHEEL, PD_SKEIN or PD_RINGPLY turn off, at an open ejector and at a reset (R278,
R454, R461, R475). -/
def State.quitRole (s : State) (cause : Nat) : State :=
  let s := if s.isActive then s.abdicate cause else s.leaveTracking 13
  let s := s.wr F.TURN_WDOG_armed 0
  if s.plyState == 3 || s.plyState == 4 || s.plyState == 5 then
    let s := (s.setPlyState 0).wr F.PLY_JOIN_phase 0
    { s with ply := { s.ply with silentTest := false } }
  else s

/-! The host side (R341, R343). -/

/-- HOST_STATUS.state (R343). -/
def State.hostState (s : State) : State :=
  s.wr F.HOST_STATUS_state (if s.host.halted then 2 else if !s.on F.HOST_CTRL_enable || !s.dmaOk then 0
    else if !s.host.millerUp then 3 else 1)

/-- The registers of the host link and the event engine that R341 sets to their cold values. -/
def hostRegReset (lock : Bool) (off : Nat) (key : Nat) : Bool :=
  let kept : List Nat := [F.HOST_STATUS_speed.key, F.HOST_STATUS_width.key, F.HOST_STATUS_l1.key] ++
    (upTo 4).flatMap (fun r => [(F.RING_POLICY_allow r).key, (F.RING_POLICY_lock_sig r).key, (F.RING_POLICY_lock_loop r).key]) ++
    (if lock then [F.POLICY_LOCK_lock.key] else [])
  decide (0x2000 ≤ off) && decide (off < 0x4000) && !kept.contains key

/-- The host side starts anew (R341): registers, rings and cursors at their cold values, what was begun runs to its end
with its completion discarded, stream groups idle. POLICY_LOCK and the configuration space are kept or not.
[log 26 PRESUMED, 65 DEDUCED] -/
def State.hostReset (s : State) (lock config : Bool) : State :=
  let h := s.host
  let lost := h.outstanding.map (fun m => ({ m with lost := true } : MillerCmd))
  let s : State := { s with
    regs := s.regs.filter (fun e => !hostRegReset lock (e.1 / 32) e.1)
    host := { HostSt.cold with
      dstate := if config then h.dstate else 0, busMaster := config && h.busMaster, perst := h.perst
      linkDown := h.linkDown, funcMask := !config || h.funcMask, outstanding := lost, millerUp := h.millerUp } }
  let streams := (upTo 8).filter (fun g => s.on (F.TRACE_TRIG_stream g))
  (streams.foldl State.idleGroup s).busyBits.hostState

end Sys2Proof.Machine
end

