-- ==== Sys2Proof/Machine/Recorder.lean ====
section
/-! DEFINITION. The event recorder: snapshots, the log in MRAM, its check at a cold start (chapter 19). -/

namespace Sys2Proof.Machine

/-- A record is lost (R418, R422). -/
def State.loseRecord (s : State) : State := (s.inc F.REC_LOST_count).recEvt 1

/-- Is a trigger one of the last-gasp ones (R413)? -/
def isGasp (n : Nat) : Bool := 56 ≤ n && n ≤ 58

/-- The sealed bytes of a record at an index of the log, chained to the record before it (R419). -/
def recordBytes (e : RecEntry) (index prev : Nat) : Bytes :=
  sealed (slice e.body 0 4 ++ leBytes 4 index ++ slice e.body 8 44 ++ leBytes 4 prev ++ slice e.body 56 964)

/-- A record is sealed in MRAM, and the pointer, the full flag and the last seal advance together (R421, R422). -/
def State.writeRecord (s : State) (e : RecEntry) : State :=
  let p := s.rd F.REC_STATUS_pointer
  if (!isGasp e.trigger && 4088 ≤ p) || 4096 ≤ p then s.loseRecord
  else
    let b := recordBytes e p (if p = 0 then 0 else s.rd F.REC_LAST_SEAL_seal)
    let s : State := { s with recorder := { s.recorder with
      records := SMap.put s.recorder.records p b, gasp := s.recorder.gasp || isGasp e.trigger } }
    let s := (s.wr F.REC_STATUS_pointer (p + 1)).wr F.REC_LAST_SEAL_seal (leNat (b.drop 1020))
    let s := s.wrb F.REC_STATUS_reserve (decide (4088 < p + 1))
    if 4088 ≤ p + 1 && !s.on F.REC_STATUS_full then (s.wr F.REC_STATUS_full 1).recEvt 0 else s

/-- The record at the head of the queue is written. -/
def State.writeHead (s : State) : State :=
  match s.recorder.queue with
  | [] => s
  | e :: q =>
    let s : State := { s with recorder := { s.recorder with queue := q } }
    (s.wr F.REC_STATUS_queued q.length).writeRecord e

/-- Every queued record that a test picks is written, in queue order. -/
def State.writeQueued (s : State) (p : RecEntry → Bool) : State :=
  let es := s.recorder.queue.filter p
  let q := s.recorder.queue.filter (fun e => !p e)
  let s : State := { s with recorder := { s.recorder with queue := q } }
  es.foldl State.writeRecord (s.wr F.REC_STATUS_queued q.length)

/-- REC_MANUAL (R413): trigger 63. -/
def execRecManual (s : State) : Host.Outcome State Fault Refusal :=
  if s.pd .miller then ok (s.fireTrigger 63 0xFF 0 0) else ok s

/-- REC_SNAPSHOT (R417, R418): every raise since the last boundary gives one record, in trigger order. -/
def execRecSnapshot (s : State) : Host.Outcome State Fault Refusal :=
  if !s.pd .miller then ok s
  else
    let due := (upTo 64).flatMap (fun n => s.recorder.raised.filter (fun r => r.trigger == n))
    let s : State := { s with recorder := { s.recorder with raised := [] } }
    ok (due.foldl (fun s r => s.takeRecord r s.turn.k) s)

/-- REC_RECORD_WRITTEN (R421). -/
def execRecRecordWritten (s : State) : Host.Outcome State Fault Refusal :=
  if s.pd .miller then ok s.writeHead else ok s

/-- REC_HOLDOFF_END (R414). -/
def execRecHoldoffEnd (n : Fin 64) (s : State) : Host.Outcome State Fault Refusal :=
  ok { s with recorder := { s.recorder with holdoff := s.recorder.holdoff.erase n.val } }

/-- The number of good records from index i on: each seal checks, and each names the seal before it (R423). -/
def goodRecords (m : SMap Bytes) : Nat → Nat → Nat → Nat
  | 0, i, _ => i
  | fuel + 1, i, prev =>
    match SMap.find m i with
    | none => i
    | some b =>
      if sealOk b && leAt b 52 4 == prev then goodRecords m fuel (i + 1) (leAt b 1020 4) else i

/-- The recorder checks its log at a cold start (R423): against the keep island, or by a walk where the keep island
does not check. -/
def State.checkLog (s : State) (keepOk : Bool) : State :=
  let sealAt (i : Nat) : Nat := if i = 0 then 0 else leAt (SMap.getD s.recorder.records (i - 1) []) 1020 4
  let s :=
    if keepOk then
      let p := s.rd F.REC_STATUS_pointer
      if 0 < p && sealAt p != s.rd F.REC_LAST_SEAL_seal then (s.wr F.REC_STATUS_chain_err 1).recEvt 2 else s
    else
      let p := goodRecords s.recorder.records 4096 0 0
      let s := ((s.wr F.REC_STATUS_pointer p).wrb F.REC_STATUS_full (decide (4088 ≤ p))).wr F.REC_STATUS_rebuilt 1
      (s.wrb F.REC_STATUS_reserve (decide (4088 < p))).wr F.REC_LAST_SEAL_seal (sealAt p)
  let last := SMap.getD s.recorder.records (s.rd F.REC_STATUS_pointer - 1) []
  let found := s.recorder.gasp && decide (0 < s.rd F.REC_STATUS_pointer) && isGasp (byteAt last 1)
  let s := if found then s.recEvt 3 else s
  { s with recorder := { s.recorder with gasp := false } }

end Sys2Proof.Machine
end

