-- ==== Sys2Proof/Machine/Brake.lean ====
section
/-! DEFINITION. The brake domain's commands: inputs, latches, soft sources, the loss of the input and the ejector
(chapters 13 and 22). -/

namespace Sys2Proof.Machine

/-- BRAKE_INPUT_ASSERT (R301): an enabled input at brake level asserts its row. -/
def execBrakeInputAssert (line : Fin 8) (s : State) : Host.Outcome State Fault Refusal :=
  if s.pd .brake && s.aon (F.BRK_IN_CFG_enable line.val) then ok (s.setRow line.val true) else ok s

/-- BRAKE_INPUT_RELEASE (R301). -/
def execBrakeInputRelease (line : Fin 8) (s : State) : Host.Outcome State Fault Refusal :=
  if s.pd .brake && s.aon (F.BRK_IN_CFG_enable line.val) then ok (s.setRow line.val false) else ok s

/-- Does no release gate fire: after a turn watchdog trip, under holdup, or with the turn engine or its domains off
(R307)? -/
def State.noRelease (s : State) : Bool :=
  s.on F.TURN_WDOG_tripped || s.on F.BRK_STATE_holdup || !s.on F.TURN_STATUS_running || !s.pd .time || !s.pd .skein

/-- BRAKE_FRAME_REFRESH (R307): fresh BRAKE frames on every braked port while no release gate fires. -/
def execBrakeFrameRefresh (s : State) : Host.Outcome State Fault Refusal :=
  if s.pd .brake && s.noRelease then ok ((bitsSet 16 (s.rd F.BRK_STATE_port)).foldl State.sendBrakes s) else ok s

/-- BRK_CLEAR_WRITE (R304): the latch of each row named ends, unless its source is asserted; row 18 stays until
reset. [log 2 DESIGN CHOICE] -/
def execBrkClearWrite (v : Word32) (s : State) : Host.Outcome State Fault Refusal :=
  if !s.pd .brake then ok s
  else
    let rows := (bitsSet 32 v.toNat).filter (fun r => r != 18 && !bitOf (s.rd F.BRK_SRC_RAW_raw) r)
    let latched := rows.foldl (fun a r => setBit a r false) s.brake.latched
    let s : State := { s with brake := { s.brake with latched := latched } }
    ok s.evalMatrix

/-- BRK_SOFT_WRITE (R312): the active requests soft sources, which change on both partners at one boundary. -/
def execBrkSoftWrite (v : Word32) (s : State) : Host.Outcome State Fault Refusal :=
  let bits := v.toNat % 16
  if !s.pd .brake || !s.isActive || bits == s.rd F.BRK_SOFT_soft then ok s
  else
    let b := if s.plyState == 1 then s.nextBoundary else s.boundary2
    let s := s.wr F.BRK_SOFT_soft bits
    let s : State := { s with brake := { s.brake with softNext := s.brake.softNext ++ [(b, bits)] } }
    ok (if s.plyState == 2 then s.mirror b [.soft (BitVec.ofNat 4 bits)] else s)

/-- Rows 20 to 23 take the soft sources (R303, R312). -/
def State.applySoft (s : State) (bits : Nat) : State :=
  let s : State := { s with brake := { s.brake with soft := bits } }
  let s := if s.isActive then s else s.wr F.BRK_SOFT_soft bits
  (upTo 4).foldl (fun s i => s.setRow (20 + i) (bitOf bits i)) s

/-- SOFT_BRAKE_APPLY (R312): every change whose boundary has come takes effect, in order. -/
def execSoftBrakeApply (s : State) : Host.Outcome State Fault Refusal :=
  let due := s.brake.softNext.filter (fun e => decide (e.1 ≤ s.turn.k))
  let s : State := { s with brake := { s.brake with
    softNext := s.brake.softNext.filter (fun e => decide (s.turn.k < e.1)) } }
  ok (due.foldl (fun s e => s.applySoft e.2) s)

/-- BRK_LOCK_WRITE (R313): a write of 1 locks. -/
def execBrkLockWrite (v : Word32) (s : State) : Host.Outcome State Fault Refusal :=
  if s.pd .brake && bitOf v.toNat 0 then ok (s.wr F.BRK_LOCK_lock 1) else ok s

/-- BRK_FIRST_CLEAR_WRITE (R316). [log 68 DEDUCED] -/
def execBrkFirstClearWrite (v : Word32) (s : State) : Host.Outcome State Fault Refusal :=
  if s.pd .brake && bitOf v.toNat 0 then ok ((s.wr F.BRK_FIRST_row 0).wr F.BRK_FIRST_valid 0) else ok s

/-! The loss of the 12 V input (R314, R315, R458). -/

/-- INPUT_LOST (R315): row 24, the last-gasp record, abdication, the bypass and the shedding. A rung change in
progress is abandoned (R458). [log 55 DESIGN CHOICE] -/
def execInputLost (s : State) : Host.Outcome State Fault Refusal :=
  let f := s.free
  let s := f.2.wr F.PWR_SUPPLY_input_mv (f.1 % 10200)
  let s := (s.wr F.PWR_STATUS_moving 0).wr F.PWR_STATUS_target (s.rd F.PWR_STATUS_rung)
  let s : State := { s with pwr := { s.pwr with
    inputGood := false, shedding := true, queued := none, waitHandover := none, wakeFrom := none, wantUp := none,
    warmWanted := false, coldWanted := false } }
  if !s.pd .brake then ok s
  else
    let s := ((s.wr F.BRK_STATE_holdup 1).setRow 24 true).fireGasp 56
    let s := (s.quitRole 8).closeBypass
    let s := [Pd.dram, .skein, .wheel, .spindle, .ringply, .hostsvc].foldl State.turnOff s.startFlush
    ok s

/-- LAST_GASP_RECORD_DONE (R315): the last-gasp records are sealed in MRAM, and PD_TIME turns off. -/
def execLastGaspRecordDone (s : State) : Host.Outcome State Fault Refusal :=
  if !s.pwr.shedding then ok s
  else ok ((s.writeQueued (fun e => isGasp e.trigger)).turnOff .time)

/-- RETAIN_FLUSH_DONE (R111, R315): the copy is complete and sealed, or the flush failed; after a lost input PD_BINS turns
off. -/
def execRetainFlushDone (good : Bool) (s : State) : Host.Outcome State Fault Refusal :=
  match s.tasks.flushing with
  | none => ok s
  | some c =>
    let r := SMap.getD s.tasks.retain c ⟨false, 0, []⟩
    let s : State := { s with tasks := { s.tasks with
      flushing := none, retain := SMap.put s.tasks.retain c { r with good := good } } }
    let s := if good then (s.wr F.RETAIN_STATUS_copy c).wr F.RETAIN_STATUS_flush_err 0
      else s.wr F.RETAIN_STATUS_flush_err 1
    ok (if s.pwr.shedding then s.turnOff .bins else s)

/-- KEEP_ISLAND_UPDATE (R314, R315): the calendar is written; after the flush of a lost input the bins, where they are
still on, and PD_MILLER turn off. [log 83 DEDUCED] -/
def execKeepIslandUpdate (s : State) : Host.Outcome State Fault Refusal :=
  if !s.pwr.shedding then ok s.keepCalendar
  else if s.tasks.flushing.isSome then ok s
  else ok ((s.keepCalendar.turnOff .bins).turnOff .miller)

/-- HOLDUP_SPENT (R315, R451): every line goes undriven, and only the keep island goes on. -/
def execHoldupSpent (s : State) : Host.Outcome State Fault Refusal :=
  if !s.pwr.shedding then ok s
  else
    let s := (s.turnOffTo 0x001).wr F.PWR_STATUS_rung 7
    let s := (s.wr F.PWR_STATUS_target 7).wr F.PWR_STATUS_holdup_ok 0
    ok { s with pwr := { s.pwr with shedding := false } }

/-! The ejector (R475, R476). -/

/-- EJECTOR_OPEN (R475): row 25, the bypass closed, and the role given up. [log 9 DESIGN CHOICE, 66 DEDUCED] -/
def execEjectorOpen (s : State) : Host.Outcome State Fault Refusal :=
  if !s.pd .brake || s.pwr.ejected then ok s
  else
    let s : State := { s with pwr := { s.pwr with ejected := true } }
    ok (((s.setRow 25 true).quitRole 7).checkBypass)

/-- EJECTOR_CLOSED (R475, R476): row 25 ends, and a module in STARTING takes its role. [log 66 DEDUCED] -/
def execEjectorClosed (s : State) : Host.Outcome State Fault Refusal :=
  if !s.pd .brake || !s.pwr.ejected then ok s
  else
    let s : State := { s with pwr := { s.pwr with ejected := false } }
    ok (s.setRow 25 false).decideRole

end Sys2Proof.Machine
end

