-- ==== Sys2Proof/Machine/FwOps.lean ====
section
/-! DEFINITION. Manifests, deltas, builds, activation and confirm of firmware (R427 to R439). -/

namespace Sys2Proof.Machine

/-! Manifests (R429, R430). -/

/-- The length of a manifest. -/
def manifestLen : Nat := 1408

/-- The entries of a manifest, by their first byte. -/
def manEntries (m : Bytes) : List Nat := (upTo (min 16 (byteAt m 6))).map (fun i => 32 + 80 * i)

/-- The parts that a manifest lists. -/
def manParts (m : Bytes) : List Nat := (manEntries m).map (byteAt m)

/-- The SHA-384 of a part as the manifest gives it. -/
def manHash (m : Bytes) (p : Nat) : Bytes := ((manEntry m p).map (fun o => slice m (o + 16) 48)).getD []

/-- Are all bytes of a range 0? -/
def zeroBytes (m : Bytes) (i len : Nat) : Bool := (slice m i len).all (· == 0)

/-- The range of a part entry in its slot: offset and length. -/
def partRange (m : Bytes) (o : Nat) : Nat × Nat := (leAt m (o + 8) 4, leAt m (o + 12) 4)

/-- Is one part entry of the form of R429? -/
def entryOk (m : Bytes) (o : Nat) : Bool :=
  let r := partRange m o
  zeroBytes m (o + 2) 2 && zeroBytes m (o + 64) 16 && r.1 % 4096 == 0 && decide (0x1000 ≤ r.1) && decide (r.1 + r.2 ≤ 2 ^ 24)

/-- Do two part ranges not overlap? -/
def apart (a b : Nat × Nat) : Bool := decide (a.1 + a.2 ≤ b.1) || decide (b.1 + b.2 ≤ a.1)

/-- Do no two ranges of a list overlap? -/
def allApart : List (Nat × Nat) → Bool
  | [] => true
  | a :: rest => rest.all (apart a) && allApart rest

/-- The form of a manifest (R429, R430). -/
def manifestFormed (m : Bytes) : Bool :=
  let n := byteAt m 6
  m.length == manifestLen && slice m 0 4 == [0x4B, 0x58, 0x46, 0x4D] && leAt m 4 2 == 1 && decide (1 ≤ n) &&
    decide (n ≤ 16) && decide (byteAt m 7 ≤ 3) && zeroBytes m 22 10 && (manEntries m).all (entryOk m) &&
    zeroBytes m (32 + 80 * n) (1280 - 80 * n) && allApart ((manEntries m).map (partRange m))

/-- The status with which a whole manifest is refused, 0 where it is verified (R427, R430, R443).
[log 11 DESIGN CHOICE, 78 DEDUCED] -/
def State.manifestFault (s : State) (m : Bytes) : Nat :=
  let idx := byteAt m 7
  if !manifestFormed m then 1
  else if (manParts m).any (fun p => decide (6 ≤ p)) then 10
  else if !Config.signatureOk idx (Config.sha384 (m.take 1312)) (m.drop 1312) ∨ idx < s.rd F.FW_STATUS_key_floor ∨
      (s.rd F.FW_STATUS_lifecycle = 3 ∧ idx ≠ 0) then 5
  else if Config.idBuild.toNat / 256 < byteAt m 20 then 12
  else if leAt m 8 8 < leAt (s.fwManifest s.fwSlot) 8 8 ∧ s.key ≠ 3 then 12
  else 0

/-! Deltas (R431). -/

/-- The records of a delta run on a source, up to a result length: the result, or none where a record reads past the
source, writes past the length, or is not one of the three. -/
def deltaRun (src : Bytes) (limit : Nat) : Nat → Bytes → Bytes → Option Bytes
  | 0, _, _ => none
  | fuel + 1, recs, out =>
    match byteAt recs 0 with
    | 0 => if recs.length = 1 then some out else none
    | 1 =>
      let o := leAt recs 1 4
      let n := leAt recs 5 4
      if recs.length < 9 ∨ src.length < o + n ∨ limit < out.length + n then none
      else deltaRun src limit fuel (recs.drop 9) (out ++ (src.drop o).take n)
    | 2 =>
      let n := leAt recs 1 4
      if recs.length < 5 + n ∨ limit < out.length + n then none
      else deltaRun src limit fuel (recs.drop (5 + n)) (out ++ (recs.drop 5).take n)
    | _ => none

/-- The length of a delta, as its header gives it. -/
def deltaLen (d : Bytes) : Nat := 64 + leAt d 12 4

/-- A whole delta applied to the active part: the part it builds, or the status of its refusal.
[log 11 DESIGN CHOICE] -/
def applyDelta (src d : Bytes) (p : Nat) (hash : Bytes) : Except Nat Bytes :=
  if d.length < 64 ∨ slice d 0 4 ≠ [0x4B, 0x58, 0x46, 0x44] ∨ leAt d 4 2 ≠ 1 ∨ byteAt d 6 ≠ p ∨ byteAt d 7 ≠ 0 ∨
      d.length ≠ deltaLen d then .error 1
  else if slice d 16 48 ≠ Config.sha384 src then .error 7
  else
    match deltaRun src (leAt d 8 4) d.length (d.drop 64) [] with
    | none => .error 1
    | some r => if r.length ≠ leAt d 8 4 then .error 1 else if Config.sha384 r ≠ hash then .error 6 else .ok r

/-! STATE frames of firmware (R434). -/

/-- Send a STATE frame (R272). -/
def State.sendState (s : State) (item commit first : Nat) (words : List Nat) : State :=
  s.sendPly 0x4B s.turn.k (beBytes 2 item ++ beBytes 8 commit ++ beBytes 4 first ++ beBytes 2 words.length ++
    words.flatMap (beBytes 8))

/-- The 8-byte words of a byte string, the last one zero-padded. [log 77 DESIGN CHOICE] -/
def bytesWords (b : Bytes) : List Nat := (upTo (ceilDiv b.length 8)).map (fun i => beAt b (8 * i) 8)

/-- A byte string in STATE frames of at most 510 words, by its offset in words. [log 77 DESIGN CHOICE] -/
def State.sendBytes (s : State) (item : Nat) (b : Bytes) : State :=
  let ws := bytesWords b
  (upTo (ceilDiv ws.length 510)).foldl (fun s i => s.sendState item 0 (510 * i) ((ws.drop (510 * i)).take 510)) s

/-- The word that FW_STATUS holds. -/
def State.fwStatus (s : State) : Nat := s.rawWord 0xE000

/-- Item 0x211: FW_STATUS, the seal of the next slot's manifest, the activate flags (bit 0 activate, bit 1 together)
and the boundary. [log 77 DESIGN CHOICE] -/
def State.fwReport (s : State) (flags b : Nat) : State :=
  s.sendState 0x211 0 0 [s.fwStatus, crc32c (s.fwManifest s.fwNext), flags, b]

/-- Has the active a partner that takes part in builds and activations (R434, R437)? -/
def State.fwPly (s : State) : Bool := s.plyState == 2 && s.partnerStandby && s.plyUp

/-! Builds (R432, R434). -/

/-- A refusal of a firmware request is on record (R450). -/
def State.fwNote (s : State) (code : Nat) : State := (s.wr F.FW_STATUS_last_result 2).wr F.FW_STATUS_last_status code

/-- FW_STATUS.state with no build: pending confirm, or idle. -/
def State.fwRest (s : State) : State := s.wr F.FW_STATUS_state (if s.rd F.FW_STATUS_confirm = 1 then 4 else 0)

/-- The next slot is marked empty. -/
def State.fwEmpty (s : State) : State :=
  { s with fw := { s.fw with manifests := SMap.put s.fw.manifests s.fwNext [], good := s.fw.good.erase s.fwNext
                             partnerBuilt := none } }

/-- A refusal ends the build (R432). [log 78 DEDUCED] -/
def State.fwFail (s : State) (code : Nat) : State :=
  let s := (s.fwNote code).fwEmpty
  let s : State := { s with fw := { s.fw with build := none } }
  let s := (s.fwRest.wr F.FW_STATUS_session 0).fwEvt 1
  if s.isStandby then s.fwReport 0 0 else s

/-- The build with a change. -/
def State.setBuild (s : State) (b : FwBuild) : State := { s with fw := { s.fw with build := some b } }

/-- May firmware data be taken now: not in Feathered (R455)? The recovery ROM needs no DRAM. -/
def State.fwOpen (s : State) : Bool := s.pd .dram || s.fw.recovery

/-- The whole manifest of a build is verified and opens the build, or it is refused (R430 to R432). -/
def State.openBuild (s : State) (b : FwBuild) : State × Nat :=
  let code := s.manifestFault b.manifest
  if code ≠ 0 then (s.fwFail code, code)
  else
    let same := (manParts b.manifest).filterMap (fun p =>
      let x := s.fwPart s.fwSlot p
      if Config.sha384 x = manHash b.manifest p then some (p, x) else none)
    let s := s.setBuild { b with verified := true, parts := if s.fw.recovery then [] else SMap.puts [] same }
    (if s.fwPly then s.sendBytes 0x210 b.manifest else s, 0)

/-- Manifest bytes from a source (R429, R432, R446): data at consecutive offsets from 0, a new manifest at offset 0.
[log 78 DEDUCED] -/
def State.manifestPiece (s : State) (source offset : Nat) (data : Bytes) : State × Nat :=
  let other := s.rd F.FW_STATUS_state == 1 && s.fw.build.any (fun b => b.source != source)
  if !s.fwOpen then (s.fwNote 9, 9)
  else if s.rd F.FW_STATUS_state = 3 ∨ other then (s.fwNote 3, 3)
  else
    let begin_ := fun (s : State) =>
      let s := (s.fwEmpty.wr F.FW_STATUS_state 1).wr F.FW_STATUS_session source
      s.setBuild ⟨source, [], false, [], []⟩
    let s := if offset = 0 then begin_ s else s
    match s.fw.build with
    | none => (s.fwNote 13, 13)
    | some b =>
      if b.verified ∨ offset ≠ b.manifest.length then (s.fwFail 13, 13)
      else
        let m := b.manifest ++ data
        if manifestLen < m.length then (s.fwFail 1, 1)
        else
          let b : FwBuild := { b with manifest := m }
          if m.length < manifestLen then (s.setBuild b, 0) else s.openBuild b

/-- Delta bytes of a part from a source (R431, R446). [log 78 DEDUCED] -/
def State.deltaPiece (s : State) (source part offset : Nat) (data : Bytes) (last : Bool) : State × Nat :=
  if !s.fwOpen ∨ s.fw.recovery then (s.fwNote 9, 9)
  else
    match s.fw.build with
    | none => (s.fwNote 9, 9)
    | some b =>
      if b.source ≠ source ∨ !b.verified then (s.fwNote 9, 9)
      else if !(manParts b.manifest).contains part then (s.fwFail 10, 10)
      else
        let old := if offset = 0 then [] else SMap.getD b.delta part []
        if offset ≠ old.length then (s.fwFail 13, 13)
        else
          let d := old ++ data
          let b : FwBuild := { b with delta := SMap.put b.delta part d }
          if !last then (s.setBuild b, 0)
          else
            match applyDelta (s.fwPart s.fwSlot part) d part (manHash b.manifest part) with
            | .error code => (s.fwFail code, code)
            | .ok x =>
              let s := s.setBuild { b with parts := SMap.put b.parts part x, delta := SMap.del b.delta part }
              (if s.fwPly then s.sendBytes (0x200 + part) d else s, 0)

/-- Bytes of a whole part, to the recovery ROM (R442, R446). -/
def State.imagePiece (s : State) (part offset : Nat) (data : Bytes) (last : Bool) : State × Nat :=
  match s.fw.build with
  | none => (s.fwNote 9, 9)
  | some b =>
    if !s.fw.recovery ∨ !b.verified then (s.fwNote 9, 9)
    else if !(manParts b.manifest).contains part then (s.fwFail 10, 10)
    else
      let old := if offset = 0 then [] else SMap.getD b.delta part []
      if offset ≠ old.length then (s.fwFail 13, 13)
      else
        let d := old ++ data
        if !last then (s.setBuild { b with delta := SMap.put b.delta part d }, 0)
        else if Config.sha384 d ≠ manHash b.manifest part then (s.fwFail 6, 6)
        else (s.setBuild { b with parts := SMap.put b.parts part d, delta := SMap.del b.delta part }, 0)

/-- The build whose every listed part is built. [log 78 DEDUCED] -/
def State.wholeBuild (s : State) : Option FwBuild :=
  s.fw.build.filter (fun b => b.verified && (manParts b.manifest).all (fun p => SMap.has b.parts p))

/-- A whole build goes into the next slot. -/
def State.storeBuild (s : State) (b : FwBuild) : State :=
  let n := s.fwNext
  { s with fw := { s.fw with
      slots := SMap.puts s.fw.slots ((upTo 16).map (fun p => (n * 16 + p, SMap.getD b.parts p [])))
      manifests := SMap.put s.fw.manifests n b.manifest
      good := s.fw.good.erase n ++ [n]
      build := none } }

/-! Activation (R435 to R437). -/

/-- Is every part's compatibility level in the next set that of the running part (R435)? -/
def State.compatible (s : State) : Bool :=
  let a := s.fwManifest s.fwSlot
  let n := s.fwManifest s.fwNext
  (manParts n ++ manParts a).all (fun p => partCompat n p == partCompat a p)

/-- The first boundary of a switch ordered now: at once where the turn engine does not run (R436). -/
def State.switchBoundary (s : State) : Nat := if s.on F.TURN_STATUS_running then s.boundary2 else s.turn.k

/-- An activation is asked for: the status, and the boundary of the first switch (R435, R437). [log 79 DEDUCED] -/
def State.activate (s : State) (mode : Nat) : State × Nat × Nat :=
  if 1 < mode then (s.fwNote 1, 1, 0)
  else if s.rd F.FW_STATUS_state ≠ 2 then (s.fwNote 9, 9, 0)
  else if s.hop.armed.isSome ∨ s.rd F.ONLINE_STATUS_state ≠ 0 ∨ !s.ply.orders.isEmpty then (s.fwNote 3, 3, 0)
  else if mode = 0 ∧ !s.compatible then (s.fwNote 12, 12, 0)
  else if mode = 1 ∧ s.key ≠ 3 then (s.fwNote 4, 4, 0)
  else
    let s := s.wr F.FW_STATUS_state 3
    if !s.fwPly then
      let b := s.switchBoundary
      ({ s with fw := { s.fw with
          activateAt := some b, falling := false, together := false, step := 0, keyFloor := 2 + mode } }, 0, b)
    else if mode = 0 then
      let b := s.boundary2
      let s : State := { s with fw := { s.fw with activateAt := none, falling := false, together := false, step := 1, keyFloor := 0 } }
      (s.fwReport 1 b, 0, b)
    else
      let b := s.orderBoundary
      let s : State := { s with fw := { s.fw with activateAt := some b, falling := false, together := true, step := 0, keyFloor := 3 } }
      (s.fwReport 3 b, 0, b)

/-- An activation that goes no further: the built set stays in the next slot (R437). [log 79 DEDUCED] -/
def State.endActivation (s : State) : State :=
  let s := if s.rd F.FW_STATUS_state = 3 then s.wr F.FW_STATUS_state 2 else s
  { s with fw := { s.fw with activateAt := none, together := false, step := 0, falling := false } }

/-! Confirm (R438). -/

/-- Is the key index floor, and everything else of R438, ready for the confirm? [log 79 DEDUCED] -/
def State.confirmReady (s : State) : Bool :=
  let byCommand := s.aon F.FW_CTRL_confirm_mode && s.rd F.FW_STATUS_lifecycle != 0
  s.rd F.FW_STATUS_confirm == 1 && s.pd .miller && s.host.millerUp && (s.fw.served || !s.on F.HOST_CTRL_enable) &&
    decide (16 ≤ s.fw.healths) && (!(s.isStandby || (s.plyState == 2 && s.partnerStandby)) || decide (16 ≤ s.ply.matchRun)) &&
    (!byCommand || s.fw.commanded)

/-- The running set is confirmed (R438). -/
def State.confirm (s : State) : State :=
  let s := (s.wr F.FW_STATUS_confirm 2).wr F.FW_STATUS_key_floor (byteAt (s.fwManifest s.fwSlot) 21)
  let s := if s.rd F.FW_STATUS_state = 4 then s.wr F.FW_STATUS_state 0 else s
  let s := (s.wr F.FW_STATUS_last_result 1).fwEvt 3
  if s.isStandby then s.fwReport 0 0 else s

/-- The confirm that a command asks for (R438): refused with STATE where no set is pending. -/
def State.commandConfirm (s : State) : State × Nat :=
  if s.rd F.FW_STATUS_confirm ≠ 1 then (s.fwNote 9, 9)
  else
    let s : State := { s with fw := { s.fw with commanded := true } }
    (if s.confirmReady then s.confirm else s, 0)

end Sys2Proof.Machine
end

