-- ==== Sys2Proof/Machine/HostRun.lean ====
section
/-! DEFINITION. When a fetched command begins (R323, R327, R328). -/

namespace Sys2Proof.Machine

/-- The opcodes of the ring engine (R331). -/
def isRingOp (op : Nat) : Bool := ([0x00, 0x10, 0x11, 0x12, 0x20, 0x21, 0x81] : List Nat).contains op

/-- The opcodes of the miller (R331). -/
def isMillerOp (op : Nat) : Bool :=
  ([0x30, 0x31, 0x32, 0x40, 0x41, 0x42, 0x43, 0x44, 0x50, 0x51, 0x60, 0x61, 0x70, 0x71, 0x72, 0x73, 0x80] :
    List Nat).contains op

/-- May command ring r give a command: the miller runs (R24), the ring engine may use host memory (R321), and the ring is
enabled, neither in error nor blocked, and has no miller command outstanding (R324, R327, R328)? [log 63 DEDUCED] -/
def State.ringOpen (s : State) (r : Nat) : Bool :=
  s.pd .miller && s.host.millerUp && s.dmaOk && !s.cplStopped r &&
    decide (s.cplHeld r < s.cplSize r) && !s.millerBusy r

/-- Is every command that the miller has begun waiting for a boundary (R328)? [log 63 DEDUCED] -/
def State.millerFree (s : State) : Bool :=
  s.host.outstanding.all (fun m => m.boundary.isSome)

/-- May a command begin now (R328)? [log 63 DEDUCED] -/
def State.begins (s : State) (c : HostCmd) : Bool :=
  s.ringOpen c.ring.val && (!isMillerOp c.desc.op.toNat || s.millerFree) &&
    (!bitOf c.desc.flags.toNat 0 || s.host.outstanding.isEmpty)

/-- The command is taken from its ring. -/
def State.consume (s : State) (r : Nat) : State :=
  { s with host := { s.host with consumed := SMap.put s.host.consumed r (SMap.getD s.host.consumed r 0 + 1) } }

/-- A command of an opcode begins and runs, or stays in its ring as it is. -/
def State.hostRow (s : State) (c : HostCmd) (op : Nat) (f : State → State) : State :=
  if c.desc.op.toNat == op && s.begins c then (s.consume c.ring.val).runCmd c f else s

end Sys2Proof.Machine
end

