-- ==== Sys2Proof/Machine/ResetOps.lean ====
section
/-! DEFINITION. Domains turning on, the warm reset, the cold start and the recovery ROM (chapter 21, R441). -/

namespace Sys2Proof.Machine

/-! Domains turning on (R452, R457, R463). -/

/-- The brake domain powers up (R301 to R304): its lines and its matrix start anew, abdicate high and token low.
[log 82 DEDUCED] -/
def State.gainBrake (s : State) : State :=
  let s : State := { s with brake := { BrakeSt.cold with starting := true, payloads := s.brake.payloads },
                            ply := { s.ply with tokOut := false } }
  let s := (s.wr F.PLY_STATUS_abd_out 0).setRow 25 s.pwr.ejected
  s.evalMatrix

/-- The committed matrix is back (R301, R304): enabled inputs start asserted, and every row with latch = 1 starts
latched. [log 82 DEDUCED] -/
def State.startMatrix (s : State) : State :=
  if !s.brake.starting then s.evalMatrix
  else
    let rows := (upTo 26).filter (fun r => r != 18 && s.rowLatches r)
    let s : State := { s with brake := { s.brake with
      starting := false, latched := rows.foldl (fun a r => setBit a r true) s.brake.latched } }
    let s := (upTo 8).foldl (fun s i => if s.aon (F.BRK_IN_CFG_enable i) then s.setRow i true else s) s
    s.row19.evalMatrix

/-- The bins power up: what MRAM holds of them is restored (R355, R465), the retained variables once the module is lone
(R112). -/
def State.gainBins (s : State) : State :=
  let s : State := { s with turn := TurnSt.idle }
  (s.restoreImage.wr F.PLY_EPOCH_epoch 0).startMatrix

/-- The mill-bus channels and the host link start anew. -/
def State.startHost (s : State) : State :=
  let s := (upTo 2).foldl (fun s ch => s.wr (F.MB_STATUS_state ch) (s.act (F.MB_CTRL_enable ch))) s
  (s.setMuted (!s.isActive)).hostState

/-- The miller starts from the active slot, or stays with the recovery ROM (R441, R463). [log 79 DEDUCED] -/
def State.startMiller (s : State) (button : Bool) : State :=
  let lc := s.rd F.FW_STATUS_lifecycle
  let rom := s.fw.good.isEmpty || lc == 2 || lc == 3 || button
  let s : State := { s with fw := { s.fw with recovery := rom }, host := { s.host with millerUp := true } }
  s.fwRest

/-- Tasks start again at their first due boundary at least 2 turns on, unless stopped (R114, R457). -/
def State.restartTasks (s : State) : State :=
  { s with tasks := { s.tasks with startAt := if s.on F.TURN_STATUS_running then s.boundary2 else s.tasks.startAt } }

/-- The loops of some outputs owe the transfer of R201 at their next sample (R457). [log 81 DEDUCED] -/
def State.brakeLoops (s : State) (ls : List Nat) : State :=
  { s with loops := ls.foldl (fun m l => SMap.put m l { SMap.getD m l LoopSt.fresh with wasBraked := true }) s.loops }

/-- The turns that passed while the wheels were off are not made up (R457). -/
def State.restartTurns (s : State) : State :=
  let k := s.turn.k + 1
  { s with turn := { s.turn with cutoffs := k, nextRel := k, nextDl := k + s.nTurns } }

/-- The receivers of the Skein ports start anew: every present station is listed and not reached (R90, R465).
[log 67 DEDUCED] -/
def State.startSkein (s : State) : State :=
  let s : State := { s.loseBlock .skein with skein := SkeinSt.cold }
  let s := ((upTo 16).filter (fun p => s.aon (F.SK_CTRL_enable p))).foldl (fun s p => s.wr (F.SK_STATUS_link p) 1) s
  let s := (s.stations.filter (fun n => runsIn s.hop.active n)).foldl
    (fun s n => s.wr (F.SK_STN_STATE_state (n / 16) (n % 16)) 1) s
  s.budgetRegs

/-- What starts when a domain turns on. [log 67 DEDUCED] -/
def State.gain (s : State) (d : Pd) : State :=
  match d with
  | .keep => s
  | .wake => s
  | .brake => s.gainBrake
  | .miller => s.startMiller false
  | .time => s
  | .bins => s.gainBins
  | .hostsvc => s.startHost
  | .ringply => s.wr F.PLY_STATUS_link 1
  | .spindle => s.restartTasks
  | .wheel => (s.brakeLoops (s.brakedLoops s.enabledLoops)).restartTurns
  | .skein => s.startSkein
  | .dram => s

/-- A domain turns on. -/
def State.turnOn (s : State) (d : Pd) : State :=
  if s.pd d then s else (s.wr F.PWR_DOMAINS_on (setBit (s.rd F.PWR_DOMAINS_on) d.bit true)).gain d

/-- The domains of a rung turn on in the order of the cold start; an abdicated module whose control domains are on again
enters STARTING, and a module in STARTING takes its role (R277, R452, R457). -/
def State.turnOnTo (s : State) (mask : Nat) : State :=
  let was := s.pd .skein
  let s := (pdOrder.filter (fun d => bitOf mask d.bit)).foldl State.turnOn s
  let s := if !was && s.pd .skein && s.plyState == 6 then (s.wr F.PLY_STATUS_abd_out 0).setPlyState 0 else s
  s.decideRole

/-! The recovery ROM (R441). -/

/-- Only the keep island, the wake logic, the brake domain, the miller and the host side's service port are on; the PCIe
link is held in reset. [log 82 DEDUCED] -/
def State.enterRecovery (s : State) : State :=
  let s := ((s.turnOffTo 0x80F).wr F.PWR_STATUS_rung 4).wr F.PWR_STATUS_target 4
  let s := (s.wr F.PWR_STATUS_moving 0).wr F.PLY_STATUS_state 0
  let s : State := { s with fw := { s.fw with recovery := true },
                            host := { HostSt.cold with perst := s.host.perst } }
  s.hostState.evalMatrix

/-! The warm reset (R461, R462, R465). -/

/-- Does a warm reset keep a register field? The host side's own are R341's. [log 81 DEDUCED] -/
def warmKeeps (key : Nat) : Bool :=
  let off := key / 32
  (decide (0x2000 ≤ off) && decide (off < 0x4000)) || (rowsAt off).any (fun r => r.lo == key % 32 && r.keep)

/-- The staged copy equals the active one, both at Level A, and no commit is under way (R345, R363, R465): an armed program
commit ends with it (R169). Loads and their verification go on (R151). -/
def State.resetHopper (s : State) : State :=
  let m := RegMap.set s.hop.active F.HOPPER_LEVEL_level 0
  let s := if s.rd F.ONLINE_STATUS_state == 1 then s.wr F.ONLINE_STATUS_state 0 else s
  let s : State := { s with
    hop := { s.hop with active := m, staged := m, testing := none, armed := none, partial_ := [] }
    progs := { s.progs with partnerStaged := [] } }
  s.restage.hopState

/-- The ply starts anew; the link stays as it stands (R465). -/
def State.resetPly (s : State) : State :=
  let p := s.ply
  { s with ply := { PlySt.cold with
      partnerEpoch := p.partnerEpoch, heardEpoch := p.heardEpoch, rejoins := p.rejoins, restarts := p.restarts
      txAlive := p.txAlive, rxAlive := p.rxAlive, nextSeq := p.nextSeq } }

/-- The miller's own work is lost: a build, an activation, a Hyica session. -/
def State.resetFirmware (s : State) : State :=
  let s : State := { s with fw := { s.fw with
    build := none, partnerBuilt := none, activateAt := none, falling := false, together := false, step := 0
    session := none, lastReply := [], recoverWanted := false } }
  (s.wr F.SVC_STATUS_open 0).startMiller false

/-- What a partner-ordered reset discards beside (R462). [log 81 DEDUCED] -/
def State.discardControl (s : State) : State :=
  let s : State := { s with
    image := ImageSt.cold, loops := [], turn := TurnSt.idle
    tasks := { TasksSt.cold with retain := s.tasks.retain, flushSerial := s.tasks.flushSerial, flushing := s.tasks.flushing
                                 keyNext := s.tasks.keyNext, keyTick := s.tasks.keyTick } }
  let s := (s.wr F.TURN_STATUS_running 0).wr F.PLY_EPOCH_epoch 0
  let s := (upTo 4).foldl (fun s i => s.wr (F.TURN_ORIGIN_origin i) 0) s
  let s := (s.wr F.ORIGIN_TURN_LO_k_origin 0).wr F.ORIGIN_TURN_HI_k_origin 0
  s.lossRows

/-- A warm reset of a kind of R460. [log 51 DEDUCED, 81 DEDUCED] -/
def State.warmReset (s : State) (kind : Nat) : State :=
  let s := if s.isActive && !s.partnerStandby then s.dropArmed (some (7, 0)) else s
  let s := s.quitRole 8
  let braked := s.brakedLoops s.enabledLoops
  let s := (((s.closeBypass.abandonTasks.abandonLoops).loseSlack).idleTraces).brakeLoops braked
  let s : State := { s with regs := s.regs.filter (fun e => warmKeeps e.1), seals := [], mill := [], caps := [] }
  let s := ((s.resetHopper.resetPly).resetFirmware).hostReset false true
  let s : State := { s with
    ring := { s.ring with listening := true, launch := [] }
    pwr := { s.pwr with warmWanted := false, partnerWanted := false, waitHandover := none }
    brake := { s.brake with latched := setBit s.brake.latched 18 false, epochLimit := false } }
  let s := if kind = 6 then s.discardControl else s
  let s := (s.setRow 18 false).restartTasks
  let s := (s.wr F.PLY_STATUS_abd_out 0).setPlyState 0
  let s := (s.row19.evalMatrix).startHost
  let s := ((s.wr F.PWR_CAUSE_kind kind).wr F.PWR_CAUSE_from 0).inc F.PWR_CAUSE_warm_count
  if s.fw.recovery then s.enterRecovery else s.decideRole

/-! The cold start (R463). -/

/-- Every domain but PD_KEEP turns off. -/
def State.powerOff (s : State) : State := ((s.quitRole 8).closeBypass).turnOffTo 0x001

/-- The straps as the module reads them (R220, R267): bits 5:0 slot ID, bit 6 ply position, bit 7 home.
[log 84 DEDUCED] -/
def State.readStraps (s : State) (straps : Nat) : State :=
  let pos := bitOf straps 6
  let s := ((s.wr F.RING_POSITION_position (straps % 16)).wr F.RING_POSITION_backplane (bitsOf straps 5 4)).wrb
    F.RING_POSITION_ply_pos pos
  let s := (s.wrb F.RING_POSITION_strap_err (pos != bitOf straps 0)).wrb F.PLY_STATUS_ply_pos pos
  (s.wrb F.PLY_STATUS_home (bitOf straps 7)).wr F.PLY_STATUS_home_err 0

/-- The keep island is checked (R466): where its seal fails, its items come back from the MRAM shadow, and the calendar
is a second that the shadow held. [log 83 DEDUCED] -/
def State.checkKeep (s : State) (keepOk : Bool) : State :=
  if keepOk then s.wr F.PWR_STATUS_keep_lost 0
  else
    let f := s.free
    let s := f.2
    let s : State := { s with time := { s.time with calendar := f.1 % (s.time.calendar + 1) } }
    (s.wr F.PWR_STATUS_keep_lost 1).pwrEvt 3

/-- The cold-start sequence of a kind of R460, from a module whose domains are all off (R441, R463): up to PD_RINGPLY;
the rest turn on once the holdup store is charged (R464). [log 82 DEDUCED] -/
def State.coldStart (s : State) (kind : Nat) (keepOk button : Bool) : State :=
  let s : State := { s with pwr := { PwrSt.cold with ejected := s.pwr.ejected, keepAlarm := s.pwr.keepAlarm } }
  let s := ((s.wr F.PWR_CAUSE_kind kind).wr F.PWR_CAUSE_from 0).wr F.PWR_STATUS_holdup_ok 0
  let s := (s.turnOn .wake).checkKeep keepOk
  let s := ((s.turnOn .brake).wr F.BRK_STATE_holdup 0).turnOn .miller
  let s := (s.checkLog keepOk).startMiller button
  let s := s.wr F.PLY_STATUS_state 0
  if s.fw.recovery then (s.turnOn .hostsvc).enterRecovery
  else
    let s := [Pd.time, .bins, .hostsvc, .ringply].foldl State.turnOn s
    ((s.wr F.PWR_STATUS_rung 2).wr F.PWR_STATUS_target 0).wr F.PWR_STATUS_moving 1

end Sys2Proof.Machine
end

