-- ==== Sys2Proof/Machine/Ply.lean ====
section
/-! DEFINITION. The ply: heartbeats, lines, roles, takeover, digests, health, handover and joining (chapter 12), but
for orders, STATE chunks and JOIN frames. -/

namespace Sys2Proof.Machine

/-! Heartbeats and lines (R269, R270, R274, R275, R286). -/

/-- HEARTBEAT_SEND (R269, R270, R274): a HEARTBEAT goes out, and the token line toggles while the module is active. -/
def execHeartbeatSend (s : State) : Host.Outcome State Fault Refusal :=
  if !s.pd .ringply || !s.pd .time then ok s
  else
    let s := if s.plyUp then
        s.emit (.plyBlock 0x30 (s.localUs % 256) (bit s.isActive + 2 * bit s.isStandby + 4 * bit (s.plyState == 6)))
      else s
    ok { s with ply := { s.ply with tokOut := s.isActive && !s.ply.tokOut } }

/-- HEARTBEAT_RECEIVED (R269, R275, R286). A partner that has not abdicated drives its abdicate line high. A standby
that hears an active's HEARTBEATs beside a token that is not ACTIVE reports a line fault. [log 51 DEDUCED] -/
def execHeartbeatReceived (_count flags : Byte) (s : State) : Host.Outcome State Fault Refusal :=
  if !s.plyUp then ok s
  else
    let f := flags.toNat
    let s : State := { s with ply := { s.ply with
      hbMissed := 0, hbAt := some s.workNs, partnerActive := bitOf f 0, partnerTracking := bitOf f 1, partnerAbdicated := bitOf f 2 } }
    let s := if bitOf f 2 then s else s.wr F.PLY_STATUS_abd_in 0
    if s.isStandby && !s.on F.PLY_STATUS_abd_in && s.rd F.PLY_STATUS_tok_in != 2 then ok (s.plyEvt 9) else ok s

/-- HEARTBEAT_MISSED (R286). -/
def execHeartbeatMissed (s : State) : Host.Outcome State Fault Refusal :=
  let s : State := { s with ply := { s.ply with hbMissed := s.ply.hbMissed + 1 } }
  if s.ply.hbMissed < 3 then ok s else ok s.judgePartner

/-- OWN_HEARTBEAT_LOSS (R274, R285 cause 6). -/
def execOwnHeartbeatLoss (s : State) : Host.Outcome State Fault Refusal := ok (s.abdicate 6)

/-- ABDICATE_LINE_ASSERTED (R275, R286, R456): it may wake the module too. [log 51 DEDUCED] -/
def execAbdicateLineAsserted (s : State) : Host.Outcome State Fault Refusal :=
  ok ((s.wr F.PLY_STATUS_abd_in 1).judgePartner.wake 4)

/-- TOKEN_CLASS_CHANGE (R275, R277, R286, R293, R303): the class of PLY_TOK_IN. -/
def execTokenClassChange (cls : TokClass) (s : State) : Host.Outcome State Fault Refusal :=
  let c := match cls with
    | .silent => 0
    | .notActive => 1
    | .active => 2
  let s := s.wr F.PLY_STATUS_tok_in c
  let s := if s.ply.muteGap && c == 1 && s.isActive then
      let s : State := { s with ply := { s.ply with muteGap := false } }
      (s.setMuted false).queueHeartbeat
    else s
  ok s.loneIfLost.judgePartner.row19

/-! Takeover and its catch-up (R290, R291). -/

/-- t_f of a takeover at `now`, in ns (R275, R286, R290): 40 ns before it on the abdicate path, the partner's last
HEARTBEAT on the others, and that too where it came first. [log 53 DEDUCED] -/
def State.takeoverTf (s : State) (now : Nat) : Nat :=
  let last := s.ply.hbAt.getD now
  if s.rd F.PLY_REASON_takeover ≠ 1 then last else if s.ply.hbMissed = 0 then now - 40 else min (now - 40) last

/-- The turn of a station's latest release, and none before its first. -/
def State.lastRelease (s : State) (n : Nat) : Option Nat :=
  let p := s.stationP n
  let last := s.turn.nextRel / p * p
  if last = 0 then none else some (last - 1)

/-- Output slots whose results for the release of turn m are not complete (R290). -/
def State.lateSlots (s : State) (m : Nat) : List Nat :=
  let tasks := (upTo 16).filter (fun t => (s.lateSample m t).isSome)
  let loops := s.turn.evals.filter (fun e => s.relTurn e.1 (s.loopP e.2) == m)
  tasks.flatMap (fun t => ((s.taskProg t).map progWrites).getD []) ++
    loops.map (fun e => s.act (F.LOOP_OUT_out_slot ((s.pairOf e.2).elim e.2 (min e.2))))

/-- Are a station's own results for its latest release complete? -/
def State.stationReady (s : State) (n : Nat) : Bool :=
  match s.lastRelease n with
  | none => true
  | some m =>
    let late := s.lateSlots m
    !(s.slotsOf 4 n).any late.contains

/-- The latches with the results of the release of turn m that completed after it (R290). -/
def State.lateLatches (s : State) (m : Nat) : State :=
  let due := s.turn.held.filter (fun h => decide (h.turn ≤ m))
  { s with turn := { s.turn with latches := due.foldl (fun ls h => h.slots.foldl (fun ls e =>
    SMap.put ls e.1 ⟨e.2, h.sample⟩) ls) s.turn.latches } }

/-- The catch-up frame of a station (R290): its latest release in the interval, with the new epoch. [log 53 DEDUCED] -/
def State.catchUp (s : State) (tf n : Nat) : State :=
  let p := s.stationP n
  match s.lastRelease n with
  | none => s
  | some m =>
  let c := ((s.dueFrame m n).map (·.2)).getD s.hop.active
  if s.releaseNsOf m + 200 < tf ∨ m + 1 < s.turn.kOrigin + s.nTurns * p then s
  else
    let sample := m + 1 - s.nTurns * p
    let late := s.time.work - max (s.releaseNsOf m) tf * unitNs
    let s := s.wr F.PLY_LAST_DELAY_ns (max (s.rd F.PLY_LAST_DELAY_ns) (ceilDiv late unitNs))
    if s.portBraked (n / 16) || s.heldStation sample then s.sendBrake n
    else
      let own := s.boundaryU (m + 1) + s.phiNs * unitNs
      let least := ceilDiv (s.time.work * 1000 + (s.rd (F.SK_D_OUT_ps (n / 16)) + 6400) * unitNs) (1000 * unitNs) * unitNs
      let u := max own least
      s.launchSkein 2 n 0 s.epoch sample (u % unitSec / unitNs) (u % unitNs / 2 ^ 24) ((s.lateLatches m).outPayloadIn c n)

/-- CATCH_UP_LAUNCH (R290, R291): after a takeover, one frame per station, once its results for its latest release are
complete and before the next release instant. [log 53 DEDUCED] -/
def execCatchUpLaunch (s : State) : Host.Outcome State Fault Refusal :=
  if s.ply.catchUp.isEmpty || !s.isActive || !s.on F.TURN_STATUS_running then ok s
  else
    let tf := s.takeoverTf (s.ply.takeoverAt.getD s.workNs)
    let ready := s.ply.catchUp.filter s.stationReady
    let s : State := { s with ply := { s.ply with catchUp := s.ply.catchUp.filter (fun n => !s.stationReady n) } }
    ok (ready.foldl (fun s n => s.catchUp tf n) s)

/-! Frames of the partner (R99, R100, R115, R281, R283). -/

/-- BRIDGE_RECEIVED (R99, R229): an INPUT or PUBLISH frame that counts as one received directly. -/
def execBridgeReceived (h : PlyHdr) (inner : Bytes) (s : State) : Host.Outcome State Fault Refusal :=
  match s.plyTake 0x41 h with
  | (s, false) => ok s
  | (s, true) =>
    if byteAt inner 0 = 0x11 then ok (s.takeBridgedPublish inner)
    else ok (s.takeInputFrame (byteAt inner 1 / 16) true inner)

/-- RELEASED_RECEIVED (R100, R310): the standby launches its proxy frame for the station at once. -/
def execReleasedReceived (h : PlyHdr) (station : Fin 256) (payload : Bytes) (s : State) : Host.Outcome State Fault Refusal :=
  match s.plyTake 0x42 h with
  | (s, false) => ok s
  | (s, true) =>
    let n := station.val
    if !s.isStandby || !s.skein.proxy.contains n || s.on F.TURN_WDOG_tripped then ok s
    else if s.portBraked (n / 16) then ok (s.sendBrake n)
    else
      let m := h.turn.toNat
      let u := s.boundaryU (m + 1) + s.phiNs * unitNs
      ok (s.launchSkein 2 n 2 s.epoch (m + 1 - s.nTurns * s.stationP n) (u % unitSec / unitNs) (u % unitNs / 2 ^ 24)
        payload)

/-- REACH_RECEIVED (R99, R100, R283). -/
def execReachReceived (h : PlyHdr) (reach : List (BitVec 16)) (s : State) : Host.Outcome State Fault Refusal :=
  match s.plyTake 0x43 h with
  | (s, false) => ok s
  | (s, true) =>
    let k := h.turn.toNat
    let far := (upTo 256).filter (fun n => bitOf ((reach.getD (n / 16) 0).toNat) (n % 16))
    let s : State := { s with ply := { s.ply with
      reachFar := SMap.put (keepFrom s.ply.reachFar (k - 64)) k far } }
    ok (s.compareReach k)

/-- A release's DIGEST has been compared: nothing older is kept. -/
def State.digestDone (s : State) (m : Nat) : State :=
  { s with ply := { s.ply with
      digOwn := keepFrom s.ply.digOwn (m + 1), digPartner := keepFrom s.ply.digPartner (m + 1),
      relLatches := keepFrom s.ply.relLatches (m + 1), excluded := s.ply.excluded.filter (fun e => decide (m < e)),
      split := s.ply.split.filter (fun e => decide (m < e)) } }

/-- Does a release carry results of a diverged item whose state is not in place, or of its split-input turn (R283)? -/
def State.digestExcluded (s : State) (m : Nat) : Bool :=
  s.ply.excluded.contains m ||
    s.ply.diverged.any (fun d => !d.2.2 && (m + 1) % s.itemP d.1 == 0)

/-- Did the writer of a slot slip at a release, as its DIGEST shows (R280, R289)? -/
def State.slotSlipped (s : State) (d : Digest) (n : Nat) : Bool :=
  match s.writer n with
  | .task t => bitOf d.taskSlips.toNat t
  | .loop l => bitOf d.wheelSlips.toNat (groupOf l)
  | _ => false

/-- A release's DIGEST matches (R283, R289, R295). [log 20 DEDUCED] -/
def State.digestMatch (s : State) (m : Nat) (far : Digest) : State :=
  let own := SMap.getD s.ply.relLatches m s.turn.latches
  let matched := own.map (fun e =>
    (e.1, if s.slotSlipped far e.1 then SMap.getD s.ply.matched e.1 e.2 else e.2))
  let left := s.ply.diverged.filter (fun d => !(d.2.2 && (m + 1) % s.itemP d.1 == 0))
  let run := s.ply.matchRun + 1
  let s : State := { s with ply := { s.ply with
    matched := matched, matchedOwn := own, diverged := left, matchRun := run } }
  let s := s.wrb F.PLY_STATUS_diverged (!left.isEmpty)
  if s.plyState == 3 && s.rd F.PLY_JOIN_phase == 6 && 16 ≤ run then
    ((s.wr F.PLY_JOIN_phase 0).setPlyState 4).plyEvt 4
  else s

/-- A release's DIGEST does not match (R281 code 1). [log 54 DEDUCED] -/
def State.digestMismatch (s : State) : State :=
  let s := s.inc F.PLY_COUNTS_mismatches
  let s : State := { s with ply := { s.ply with matchRun := 0 } }
  if s.isStandby then (s.plyEvt 6).leaveTracking 1 else s

/-- Compare the DIGESTs of a release once both are held (R280, R281, R283, R311). [log 18 DEDUCED] -/
def State.compareDigest (s : State) (m : Nat) : State :=
  match SMap.find s.ply.digOwn m, SMap.find s.ply.digPartner m with
  | some own, some far =>
    let split := s.ply.split.contains m
    let same := (split || (own.outSeal == far.outSeal && own.braked == far.braked)) && own.auxSeal == far.auxSeal &&
      own.items == far.items
    let s := if s.digestExcluded m then s else if same then s.digestMatch m far else s.digestMismatch
    s.digestDone m
  | _, _ => s

/-- Does this module compare DIGESTs: a standby, or a joining module in phase Compare (R281, R295)? -/
def State.compares (s : State) : Bool := s.isStandby || (s.plyState == 3 && s.rd F.PLY_JOIN_phase == 6)

/-- DIGEST_RECEIVED (R280, R281). -/
def execDigestReceived (h : PlyHdr) (dg : Digest) (s : State) : Host.Outcome State Fault Refusal :=
  match s.plyTake 0x44 h with
  | (s, false) => ok s
  | (s, true) =>
    if !s.compares then ok s
    else
      let m := h.turn.toNat
      let s : State := { s with ply := { s.ply with
        noDigest := 0, digPartner := SMap.put s.ply.digPartner m dg } }
      ok (s.compareDigest m)

/-- Is every item whose results belong to the release of turn m committed (R280)? -/
def State.releaseWhole (s : State) (m : Nat) : Bool :=
  !s.turn.evals.any (fun e => s.relTurn e.1 (s.loopP e.2) == m) &&
    (upTo 16).all (fun t => (s.lateSample m t).isNone)

/-- The DIGEST of a release (R280). [log 18 DEDUCED] -/
def relDigest (r : RelRec) : Digest :=
  { outSeal := BitVec.ofNat 32 (crc32c (r.slots.flatMap (fun e => beBytes 3 e.2.container))),
    auxSeal := BitVec.ofNat 32 (crc32c (r.mill.flatMap (·.2) ++ r.pubs.flatMap (·.2))),
    taskSlips := BitVec.ofNat 16 r.taskSlips, wheelSlips := BitVec.ofNat 8 r.wheelSlips, braked := r.braked,
    items := BitVec.ofNat 32 r.items }

/-- The payload of a DIGEST frame (R280). [log 18 DEDUCED] -/
def digestBytes (d : Digest) : Bytes :=
  beBytes 4 d.outSeal.toNat ++ beBytes 4 d.auxSeal.toNat ++ beBytes 2 d.taskSlips.toNat ++
    beBytes 1 d.wheelSlips.toNat ++ beBytes 1 (bit d.braked) ++ beBytes 4 d.items.toNat

/-- DIGEST_COMPUTE (R280, R281): the first release whose items have all committed. [log 18 DEDUCED] -/
def execDigestCompute (s : State) : Host.Outcome State Fault Refusal :=
  match s.ply.rel.find? (fun e => e.2.released && s.releaseWhole e.1) with
  | none => ok s
  | some e =>
    let m := e.1
    let d := relDigest e.2
    let s : State := { s with ply := { s.ply with rel := SMap.del s.ply.rel m } }
    if s.plyState == 2 then ok (s.sendPly 0x44 m (digestBytes d))
    else if s.compares then
      let s : State := { s with ply := { s.ply with digOwn := SMap.put s.ply.digOwn m d } }
      ok (s.compareDigest m)
    else ok s

/-- COMPLETION_RECEIVED (R115, R143): the partner's record of an instance. Its instant carries nanoseconds only, and
is taken as the one nearest the release instant. -/
def execCompletionReceived (h : PlyHdr) (task : Fin 16) (trap : BitVec 8) (_pc : BitVec 16) (doneNs : BitVec 32) (s : State) : Host.Outcome State Fault Refusal :=
  match s.plyTake 0x45 h with
  | (s, false) => ok s
  | (s, true) =>
    let t := task.val
    let k := h.turn.toNat
    let rel := s.releaseNsOf (s.taskRel t k) % 1000000000
    let after := (doneNs.toNat % 1000000000 + 1000000000 - rel) % 1000000000
    let inTime := after == 0 || decide (500000000 ≤ after)
    let x := s.task t
    let s := s.setTask t { x with
      partnerDone := SMap.put (keepFrom x.partnerDone (k - 64 * s.taskP t)) k (trap.toNat + 256 * bit inTime) }
    let mine := s.doneClean t k
    let s := if trap.toNat != 0 && !mine && x.trap.isNone && !SMap.has x.ownTraps k && !s.isActive then
        s.setTask t { s.task t with trap := some ⟨k, none⟩ }
      else s
    ok (if mine then s.partnerTrapped t k else s)

/-! Health (R267, R284). -/

/-- HEALTH_SEND (R284). The junction temperature is what the die measures: a free value.
[log 55 DESIGN CHOICE, 104 DEDUCED] -/
def execHealthSend (s : State) : Host.Outcome State Fault Refusal :=
  if !s.pd .ringply then ok s
  else
    let w := s.workSec
    let f := s.free
    let s := f.2
    let fault := s.rd F.FAULT_RECORD_kind + 4 * s.rd F.FAULT_RECORD_unit_class + 16 * s.rd F.FAULT_RECORD_unit
    let rejoins := (s.ply.rejoins.filter (fun j => decide (w < j + 600))).length
    let p := beBytes 1 s.plyState ++ beBytes 1 (s.rd F.PWR_STATUS_rung) ++ beBytes 1 (s.rd F.KEY_STATUS_local) ++
      beBytes 1 (bit s.host.millerUp + 2 * s.rd F.PLY_STATUS_home + 4 * s.rd F.TURN_WDOG_tripped +
        8 * s.rd F.TIME_STATUS_refclk_lost + 16 * s.rd F.PLY_STATUS_home_err) ++
      beBytes 4 fault ++ beBytes 4 (s.turn.healthSlack.getD 0xFFFFFFFF) ++ beBytes 2 (min s.turn.healthSlips 0xFFFF) ++
      beBytes 2 f.1 ++ beBytes 2 (s.rd F.VCORE_STATUS_vcore_mv) ++
      beBytes 1 (s.rd F.PLY_REASON_untracked + 16 * s.rd F.PLY_REASON_takeover) ++ beBytes 1 (min rejoins 255) ++
      beBytes 4 s.ply.resumedLoops ++ beBytes 4 (s.rd F.PLY_COUNTS_mismatches) ++ List.replicate 4 0
    let s := s.sendPly 0x4A s.turn.k p
    ok { s with turn := { s.turn with healthSlips := 0, healthSlack := none },
                fw := { s.fw with healths := s.fw.healths + 1 } }

/-- What a HEALTH frame tells of the partner: its state, its key position and the mismatches it has counted since (R122,
R272, R281). [log 54 DEDUCED] -/
def State.noteHealth (s : State) (payload : Bytes) : State :=
  let newly := beAt payload 24 4 - beAt s.ply.health 24 4
  let s : State := { s with ply := { s.ply with health := payload } }
  let s := if s.isActive then s.add F.PLY_COUNTS_mismatches newly else s
  let s := (s.wr F.PLY_STATUS_partner_state (byteAt payload 0 % 8)).wr F.KEY_STATUS_partner (byteAt payload 2)
  let s := s.wr F.KEY_STATUS_partner_valid 1
  if s.rd F.KEY_STATUS_local == s.rd F.KEY_STATUS_partner then s.wr F.KEY_STATUS_disagree 0 else s

/-- The active's capture ends, as no partner joins (R296). -/
def State.dropCapture (s : State) : State :=
  { s with ply := { s.ply with
    capture := none, capTasks := [], capLoops := [], capSlots := [], capForces := none, capWords := [], capOut := [] } }

/-- HEALTH_RECEIVED (R120, R277, R281, R284, R303). The active counts the mismatches that its partner has newly
found. [log 54 DEDUCED] -/
def execHealthReceived (h : PlyHdr) (payload : Bytes) (s : State) : Host.Outcome State Fault Refusal :=
  match s.plyTake 0x4A h with
  | (s, false) => ok s
  | (s, true) =>
    let st := byteAt payload 0 % 8
    let s := s.noteHealth payload
    let s := if s.plyState == 1 && st == 3 then s.setPlyState 2 else s
    let s := if s.isActive && st != 3 then s.dropCapture else s
    ok s.decideRole.row19

/-! Roles (R277, R281, R293 to R297). -/

/-- STARTING_TIMEOUT (R277): no evidence of a partner 50 ms after the turn engine runs. [log 9 DESIGN CHOICE] -/
def execStartingTimeout (s : State) : Host.Outcome State Fault Refusal :=
  let tok := s.rd F.PLY_STATUS_tok_in
  let quiet := !s.plyUp && s.partnerBeaconless && !s.on F.PLY_STATUS_mill_hb_seen
  if s.plyState == 0 && s.rolePower && s.on F.TURN_STATUS_running && quiet && (tok == 0 || (tok == 1 && s.isHome)) then
    ok s.becomeLone
  else ok s

/-- PLY_LINK_UP (R277, R396, R397): the lane has trained: counters start again, and a module in STARTING decides. -/
def execPlyLinkUp (s : State) : Host.Outcome State Fault Refusal :=
  if !s.pd .ringply then ok s
  else
    let s := s.wr F.PLY_STATUS_link 2
    let s : State := { s with ply := { s.ply with rxAlive := [], txAlive := [], hbMissed := 0 } }
    ok s.decideRole

/-- PLY_LINK_DOWN (R277, R281 code 3, R295, R298): the link has been down for 3 µs, and may train by now. -/
def execPlyLinkDown (training : Bool) (s : State) : Host.Outcome State Fault Refusal :=
  let s := (s.wr F.PLY_STATUS_link (bit training)).wr F.KEY_STATUS_partner_valid 0
  let s := if s.isStandby && s.rd F.PLY_STATUS_tok_in == 2 then s.leaveTracking 3 else s
  ok (s.failJoin 6).loneIfLost

/-- AUTO_REJOIN (R277): 1 s after leaving tracking, at most 3 times in 10 minutes. -/
def execAutoRejoin (s : State) : Host.Outcome State Fault Refusal :=
  let recent := s.ply.rejoins.filter (fun j => decide (s.workSec < j + 600))
  if s.plyState == 5 && s.aon F.PLY_CTRL_auto_rejoin && decide (recent.length < 3) then
    let s : State := { s with ply := { s.ply with rejoins := s.workSec :: recent } }
    ok s.beginJoin
  else ok s

/-- PLY_CMD_REJOIN (R277, R298). -/
def execPlyCmdRejoin (s : State) : Host.Outcome State Fault Refusal :=
  if !s.pd .ringply then ok s
  else if s.plyState == 5 then
    let s : State := { s with ply := { s.ply with rejoins := s.workSec :: s.ply.rejoins } }
    ok (s.beginJoin.wr F.PLY_STATUS_cmd_refused 0)
  else ok (s.wr F.PLY_STATUS_cmd_refused 1)

/-- PLY_CMD_LEAVE (R281 code 11, R298). -/
def execPlyCmdLeave (s : State) : Host.Outcome State Fault Refusal :=
  if !s.pd .ringply then ok s
  else if s.isStandby then ok ((s.leaveTracking 11).wr F.PLY_STATUS_cmd_refused 0)
  else ok (s.wr F.PLY_STATUS_cmd_refused 1)

/-- May the active make a planned handover now (R293): key at RUN, TEND or STOP and a partner in STANDBY? -/
def State.handoverOk (s : State) : Bool := s.plyState == 2 && s.key != 0 && s.partnerStandby

/-- PLY_CMD_HANDOVER (R293): tested on the active, passed on by a standby, refused elsewhere. -/
def execPlyCmdHandover (s : State) : Host.Outcome State Fault Refusal :=
  if !s.pd .ringply then ok s
  else if s.handoverOk then
    ok ((s.sendOrder 6 s.orderBoundary 0 .handover).wr F.PLY_STATUS_cmd_refused 0)
  else if s.isStandby && s.plyUp then
    ok ((s.sendOrder 6 0 0 .handover).wr F.PLY_STATUS_cmd_refused 0)
  else ok (s.wr F.PLY_STATUS_cmd_refused 1)

/-- What waited for the handover is carried out (R453): a rung change, a warm reset or a commanded cold start. -/
def State.carryOut (s : State) : State :=
  let w := s.pwr.waitHandover
  let s : State := { s with pwr := { s.pwr with waitHandover := none } }
  match w with
  | none => s
  | some (0, target) => s.startRung target
  | some (1, _) => { s with pwr := { s.pwr with warmWanted := true } }
  | some _ =>
    let s := s.powerOff
    { s with pwr := { s.pwr with coldWanted := true } }

/-- The old active of a planned handover or revert at its boundary (R285 code 9, R293); where the handover was a step of
an activation or a fall-back, its own switch follows (R437, R439), and where it was one of a request, that is carried
out (R453). [log 58 DEDUCED] -/
def State.giveRole (s : State) : State :=
  let s := s.wr F.PLY_REASON_abdication 9
  let s : State := { s with ply := { s.ply with tokOut := false } }
  let s := ((s.setMuted true).stopCommands).setPlyState 4
  let s : State := if s.fw.step = 2 ∨ s.fw.step = 3 then
      { s with fw := { s.fw with activateAt := some s.boundary2, falling := s.fw.step == 3, step := 0, keyFloor := 0 } }
    else s
  s.carryOut

/-- The new active of a planned handover or revert at its boundary (R279, R293, R294), unless it is unfit (R119).
[log 58 DEDUCED] -/
def State.takeRole (s : State) (revert : Bool) : State :=
  if s.on F.TURN_WDOG_tripped then s
  else
  match s.raiseEpoch with
  | (s, false) => s
  | (s, true) =>
    let s := s.matchSnaps.setPlyState 2
    let s : State := { s with ply := { s.ply with tokOut := true, muteGap := true, diverged := [] } }
    let s := s.wr F.PLY_STATUS_diverged 0
    let s := s.wr F.PLY_REASON_takeover (if revert then 5 else 4)
    let s := (s.wr F.PLY_TAKEOVER_TURN_LO_turn (s.turn.k % 2 ^ 32)).wr F.PLY_TAKEOVER_TURN_HI_turn (s.turn.k >>> 32)
    let s := if revert then s.plyEvt 7 else s
    if s.rd F.PLY_STATUS_tok_in == 1 then
      let s : State := { s with ply := { s.ply with muteGap := false } }
      (s.setMuted false).queueHeartbeat
    else s

/-- PLANNED_HANDOVER_SWITCH (R293, R294): at an acknowledged order's boundary the roles swap. [log 58 DEDUCED] -/
def execPlannedHandoverSwitch (s : State) : Host.Outcome State Fault Refusal :=
  let due := fun (o : Order) => (o.code == 6 || o.code == 7) && o.acked && o.boundary != 0 && decide (o.boundary ≤ s.turn.k)
  match s.ply.orders.find? due with
  | none => ok s
  | some o =>
    let s : State := { s with ply := { s.ply with orders := s.ply.orders.filter (fun x => !due x) } }
    if epochMax ≤ s.epoch then ok ({ s with brake := { s.brake with epochLimit := true } } : State).row19
    else if s.plyState == 2 then ok s.giveRole
    else if s.isStandby then ok (s.takeRole (o.code == 7))
    else ok s

/-- Is a commit, an on-line change, a firmware activation or an order armed (R294)? -/
def State.somethingArmed (s : State) : Bool :=
  s.hop.armed.isSome || s.hop.testing.isSome || s.fw.activateAt.isSome || s.time.switchAt.isSome ||
    s.tasks.keyNext.isSome || s.ply.orders.any (fun o => o.boundary != 0) ||
    (upTo 16).any (fun t => (s.task t).switchAt.isSome)

/-- REVERT (R294): the home standby has tracked for the hold time with nothing armed, and sends ORDER 7. -/
def execRevert (s : State) : Host.Outcome State Fault Refusal :=
  let held := match s.ply.trackSince with
    | some w => decide (w + s.act F.PLY_CTRL_revert_hold_s ≤ s.workSec)
    | none => false
  if s.isStandby && s.on F.PLY_STATUS_home && !s.on F.PLY_STATUS_home_err && s.aon F.PLY_CTRL_revert_en && held &&
      !s.somethingArmed && s.plyUp && !s.on F.TURN_WDOG_tripped then
    ok (s.sendOrder 7 s.orderBoundary 0 .revert)
  else ok s

/-- JOIN_TIMEOUT (R295). -/
def execJoinTimeout (s : State) : Host.Outcome State Fault Refusal := ok (s.failJoin 1)

/-- JOIN_CAPTURE_BOUNDARY (R295, R296): from b_c on the active saves what a later commit overwrites; the captured state
crosses in STATE frames. -/
def execJoinCaptureBoundary (s : State) : Host.Outcome State Fault Refusal :=
  let due := fun (o : Order) => o.code == 8 && o.mine && o.acked && decide (o.boundary ≤ s.turn.k)
  match s.ply.orders.find? due with
  | none => ok s
  | some o =>
    let s : State := { s with ply := { s.ply with
      orders := s.ply.orders.filter (fun x => !due x)
      capture := some o.boundary, capTasks := [], capLoops := [], capSlots := [], capForces := none, capSent := false,
      capWords := [], capOut := [] } }
    ok s

/-- REPLAY_CAUGHT_UP (R297): with no sample left whose cut-off has passed, the joining module goes on to compare, and
what it has recorded of the present turn enters the image. [log 57 DEDUCED] -/
def execReplayCaughtUp (s : State) : Host.Outcome State Fault Refusal :=
  if s.plyState == 3 && s.rd F.PLY_JOIN_phase == 5 && decide (s.ply.liveCut ≤ s.turn.cutoffs) then
    let s := s.takeRecorded s.turn.k
    let s : State := { s with ply := { s.ply with matchRun := 0, digOwn := [], digPartner := [] } }
    ok ((s.wr F.PLY_JOIN_phase 6).wr F.PLY_JOIN_backlog 0)
  else ok s

/-- REPLAY_BEHIND (R297): 1 s has passed in Replay; a backlog that has not shrunk by half fails the join.
[log 57 DEDUCED] -/
def execReplayBehind (s : State) : Host.Outcome State Fault Refusal :=
  let now := s.ply.liveCut - s.turn.cutoffs
  if s.rd F.PLY_JOIN_phase != 5 then ok s
  else if s.ply.backlogWas < 2 * now then ok (s.failJoin 5)
  else ok { s with ply := { s.ply with backlogWas := now } }

/-- DIVERGED_TIMEOUT (R283): 64 turns or 1 ms after its split-input turn an item is still diverged. -/
def execDivergedTimeout (s : State) : Host.Outcome State Fault Refusal :=
  let span := max 64 (ceilDiv 1000000 (max 1 s.turnNs))
  if s.isStandby && s.ply.diverged.any (fun d => decide (d.2.1 + span ≤ s.turn.k)) then ok (s.leaveTracking 1) else ok s

/-- MILL_HEARTBEAT_SEND (R287). -/
def execMillHeartbeatSend (s : State) : Host.Outcome State Fault Refusal :=
  if s.isActive then ok s.queueHeartbeat else ok s

/-- MILL_HEARTBEAT_ABSENT (R286, R287). -/
def execMillHeartbeatAbsent (s : State) : Host.Outcome State Fault Refusal :=
  ok (s.wr F.PLY_STATUS_mill_hb_seen 0).judgePartner

end Sys2Proof.Machine
end

