-- ==== Sys2Proof/Machine/Firmware.lean ====
section
/-! DEFINITION. Firmware commands of the host, the switch of sets, confirm, fall-back and the miller's watchdog
(R434 to R440, R449), and the host's commands of the recorder (R424, R425). -/

namespace Sys2Proof.Machine

/-- A firmware command of the host completes: OK, or FIRMWARE with the status as its detail (R447). -/
def State.fwDone (s : State) (c : HostCmd) (code r0 : Nat) : State :=
  if code = 0 then s.complete c 0 0 r0 0 else s.complete c 0x12 code 0 0

/-- What FW_MANIFEST does as it begins. -/
def State.fwManifestCmd (s : State) (c : HostCmd) : State :=
  let len := c.desc.len.toNat
  if !bufOk c len then s.deny c 4
  else s.moveBuf c 0 len (fun s =>
    let r := s.manifestPiece 1 (opAt c 28 4) (c.data.take len)
    r.1.fwDone c r.2 0)

/-- FW_MANIFEST (R430, R449). [log 78 DEDUCED] -/
def execCmdFwManifest (c : HostCmd) (s : State) : Host.Outcome State Fault Refusal :=
  ok (s.hostRow c 0x70 (fun s => s.fwManifestCmd c))

/-- What FW_DELTA does as it begins. -/
def State.fwDeltaCmd (s : State) (c : HostCmd) : State :=
  let len := c.desc.len.toNat
  if !bufOk c len then s.deny c 4
  else s.moveBuf c 0 len (fun s =>
    let r := s.deltaPiece 1 (opByte c 24) (opAt c 28 4) (c.data.take len) (bitOf (opByte c 25) 0)
    r.1.fwDone c r.2 0)

/-- FW_DELTA (R431, R449). -/
def execCmdFwDelta (c : HostCmd) (s : State) : Host.Outcome State Fault Refusal :=
  ok (s.hostRow c 0x71 (fun s => s.fwDeltaCmd c))

/-- What FW_ACTIVATE does as it begins. -/
def State.fwActivateCmd (s : State) (c : HostCmd) : State :=
  if 1 < opByte c 24 then s.deny c 4
  else
    let r := s.activate (opByte c 24)
    r.1.fwDone c r.2.1 r.2.2

/-- FW_ACTIVATE (R435, R449). -/
def execCmdFwActivate (c : HostCmd) (s : State) : Host.Outcome State Fault Refusal :=
  ok (s.hostRow c 0x72 (fun s => s.fwActivateCmd c))

/-- What FW_CONFIRM does as it begins. -/
def State.fwConfirmCmd (s : State) (c : HostCmd) : State :=
  let r := s.commandConfirm
  r.1.fwDone c r.2 0

/-- FW_CONFIRM (R438, R449). -/
def execCmdFwConfirm (c : HostCmd) (s : State) : Host.Outcome State Fault Refusal :=
  ok (s.hostRow c 0x73 (fun s => s.fwConfirmCmd c))

/-- FW_BUILD_DONE (R432, R434): every listed part is built, and a partner that takes part has reported the same set
built. -/
def execFwBuildDone (s : State) : Host.Outcome State Fault Refusal :=
  if !s.pd .miller || s.fw.recovery then ok s
  else
    match s.wholeBuild with
    | none => ok s
    | some b =>
      if s.fwPly && s.fw.partnerBuilt != some (crc32c b.manifest) then ok s
      else
        let s := ((s.storeBuild b).wr F.FW_STATUS_state 2).fwEvt 0
        ok (if s.isStandby && b.source == 3 then s.fwReport 0 0 else s)

/-- Every engine changes to its other code bank, and the keep island names the other slot (R436). [log 79 DEDUCED] -/
def State.switchBanks (s : State) : State :=
  let back := s.fw.falling
  let was := s.rd F.FW_STATUS_confirm
  let s := s.wr F.FW_STATUS_slot s.fwNext
  let s := s.wr F.FW_STATUS_confirm (if back then s.fw.was else 1)
  let s := (s.wr F.FW_STATUS_state (if back then 0 else 4)).wr F.FW_MILLER_in_window 0
  let s : State := { s with fw := { s.fw with
    activateAt := none, falling := false, together := false, step := 0, was := was, since := s.workSec, served := false,
    healths := 0, commanded := false, build := none, partnerBuilt := none } }
  let s := s.fwEvt 2
  if s.isStandby then s.fwReport 0 0 else s

/-- FW_SWITCH (R124, R436, R437): at the boundary of an ordered switch. A switch of both partners that the partner has not
acknowledged does not happen, nor one that the key in force no longer permits. [log 79 DEDUCED] -/
def execFwSwitch (s : State) : Host.Outcome State Fault Refusal :=
  match s.fw.activateAt with
  | none => ok s
  | some b =>
    if !s.pd .miller || (s.on F.TURN_STATUS_running && decide (s.turn.k < b)) then ok s
    else if s.fw.together then ok (s.endActivation.fwNote 11)
    else if s.keyAt b < s.fw.keyFloor then
      let s := s.endActivation.fwNote 4
      ok (if s.isStandby then s.fwReport 0 0 else s)
    else ok s.switchBanks

/-- FW_SELF_CONFIRM (R438). -/
def execFwSelfConfirm (s : State) : Host.Outcome State Fault Refusal := ok (if s.confirmReady then s.confirm else s)

/-- Has the confirm window of a pending set ended, or the miller restarted 3 times within it (R439)? -/
def State.unconfirmed (s : State) : Bool :=
  s.rd F.FW_STATUS_confirm == 1 &&
    (decide (s.act F.FW_CTRL_confirm_s ≤ s.workSec - s.fw.since) || decide (3 ≤ s.rd F.FW_MILLER_in_window))

/-- FW_FALL_BACK (R439): the set is not confirmed, and the module goes back to the slot it left: an active with a
partner in STANDBY hands over first. [log 9 DESIGN CHOICE, 79 DEDUCED] -/
def execFwFallBack (s : State) : Host.Outcome State Fault Refusal :=
  if !s.pd .miller || !s.unconfirmed || s.fw.falling || s.fw.step == 3 then ok s
  else
    let s := ((s.wr F.FW_STATUS_last_result 3).fwEvt 4).fireTrigger 62 0xFF 0 0
    let s := s.wr F.FW_STATUS_state 3
    if s.handoverOk && s.plyUp then
      let s : State := { s with fw := { s.fw with activateAt := none, step := 3 } }
      ok (s.sendOrder 6 s.orderBoundary 0 .handover)
    else
      let b := s.switchBoundary
      ok { s with fw := { s.fw with activateAt := some b, falling := true, together := false, step := 0, keyFloor := 0 } }

/-- MILLER_WATCHDOG_RESTART (R24, R440): the miller has missed its watchdog, and host commands and Hyica stop until it is
`back`: it restarts, and the commands it had begun complete with FIRMWARE, detail REFUSED. [log 79 DEDUCED] -/
def execMillerWatchdogRestart (back : Bool) (s : State) : Host.Outcome State Fault Refusal :=
  if !s.pd .miller then ok s
  else if !back then
    let s : State := { s with host := { s.host with millerUp := false } }
    ok s.hostState
  else
    let s := s.inc F.FW_MILLER_restarts
    let s := if s.rd F.FW_STATUS_confirm = 1 then s.inc F.FW_MILLER_in_window else s
    let s : State := { s with hop := { s.hop with testing := none }, host := { s.host with millerUp := true } }
    let s := s.hostState.hopState.finish (fun _ => true) 0x12 12 0 0
    ok (s.raiseSource 90 s.fwStatus (s.rawWord 0xE024))

/-! The recorder's host commands. -/

/-- A record as LOG_READ copies it. -/
def State.logRecord (s : State) (i : Nat) : Bytes := slice (SMap.getD s.recorder.records i []) 0 1024

/-- What LOG_READ does as it begins. -/
def State.logReadCmd (s : State) (c : HostCmd) : State :=
  let first := opAt c 24 4
  let n := opAt c 28 4
  let p := s.rd F.REC_STATUS_pointer
  if n < 1 ∨ 64 < n ∨ p < first + n ∨ !bufOk c (1024 * n) then s.deny c 4
  else s.answer c ((upTo n).flatMap (fun i => s.logRecord (first + i))) (p + 2 ^ 32 * s.rd F.REC_STATUS_full) 0

/-- LOG_READ (R424): records up to the pointer. -/
def execCmdLogRead (c : HostCmd) (s : State) : Host.Outcome State Fault Refusal :=
  ok (s.hostRow c 0x60 (fun s => s.logReadCmd c))

/-- The log is erased: what is queued is written first (R425). -/
def State.eraseLog (s : State) : State :=
  let s := s.writeQueued (fun _ => true)
  let s : State := { s with recorder := { s.recorder with records := [] } }
  let s := ((s.wr F.REC_STATUS_pointer 0).wr F.REC_STATUS_full 0).wr F.REC_STATUS_reserve 0
  (s.wr F.REC_LAST_SEAL_seal 0).recEvt 4

/-- What LOG_ERASE does as it begins. -/
def State.logEraseCmd (s : State) (c : HostCmd) : State :=
  if opAt c 24 4 ≠ s.rd F.REC_STATUS_pointer then s.deny c 4 else s.eraseLog.complete c 0 0 0 0

/-- LOG_ERASE (R425): only where the expected pointer is the present one. -/
def execCmdLogErase (c : HostCmd) (s : State) : Host.Outcome State Fault Refusal :=
  ok (s.hostRow c 0x61 (fun s => s.logEraseCmd c))

end Sys2Proof.Machine
end

