-- ==== Sys2Proof/Machine/Hopper.lean ====
section
/-! DEFINITION. CHECK and COMMIT, from their start to the committed image in MRAM (R349 to R357). -/

namespace Sys2Proof.Machine

/-! CHECK. -/

/-- The tests of a CHECK or COMMIT start on a snapshot of the staged copy (R349, R351). -/
def State.startTest (s : State) (c : HostCmd) (commit : Bool) : State :=
  let t : HopperTest := ⟨commit, s.hop.staged, RegMap.get s.hop.staged F.HOPPER_PROG_ACT_act⟩
  let s : State := { s with hop := { s.hop with testing := some t } }
  (s.holdCmd c (if commit then 0x43 else 0x42) none none).hopState

/-- What CHECK does as it begins. [log 75 DEDUCED] -/
def State.checkCmd (s : State) (c : HostCmd) : State := if !bufOk c 0 then s.deny c 4 else s.startTest c false

/-- CHECK (R349): its tests start. -/
def execCmdCheck (c : HostCmd) (s : State) : Host.Outcome State Fault Refusal :=
  ok (s.hostRow c 0x42 (fun s => s.checkCmd c))

/-- The failure with the lowest code, and the lowest item among equals (R349). -/
def lowestFailure (fs : List Failure) : Failure := (firstFailure fs).getD (0, 0)

/-- HOPPER_CHECK and HOPPER_ITEM show the outcome of the tests (R358). -/
def State.showCheck (s : State) (fs : List Failure) : State :=
  let f := lowestFailure fs
  ((s.wr F.HOPPER_CHECK_first f.1).wr F.HOPPER_CHECK_failures (min fs.length 0xFFFF)).wr F.HOPPER_ITEM_item f.2

/-- The entry of a failure in CHECK's buffer (R331). -/
def failureBytes (f : Failure) : Bytes := leBytes 2 f.1 ++ [0, 0] ++ leBytes 4 f.2

/-- The commands that a test picks are outstanding no longer. -/
def State.forget (s : State) (p : MillerCmd → Bool) : State :=
  let s : State := { s with host := { s.host with outstanding := s.host.outstanding.filter (fun m => !p m) } }
  s.busyBits

/-- CHECK reports its failures, as far as its buffer holds them. [log 75 DEDUCED] -/
def State.reportCheck (s : State) (c : HostCmd) (fs : List Failure) : State :=
  let n := if c.desc.buf.toNat = 0 then 0 else c.desc.len.toNat / 8
  let b := (fs.take n).flatMap failureBytes
  s.moveBuf c 1 b.length (fun s =>
    let s := if b = [] then s else s.emit (.host c.desc.buf.toNat b)
    if fs.isEmpty then s.complete c 0 0 0 0 else s.complete c 0x0A (lowestFailure fs).1 0 fs.length)

/-- CHECK_DONE (R349): the tests end, where the miller runs (R24). -/
def execCheckDone (s : State) : Host.Outcome State Fault Refusal :=
  match s.hop.testing with
  | none => ok s
  | some t =>
    if t.isCommit || !s.host.millerUp then ok s
    else
      let fs := s.checkFailures t.snapshot
      let s : State := { s with hop := { s.hop with testing := none } }
      let s := (s.showCheck fs).hopState
      let waits := s.host.outstanding.filter (fun m => m.op == 0x42 && !m.lost)
      let s := s.forget (fun m => m.op == 0x42)
      ok (waits.foldl (fun s m => s.reportCheck m.cmd fs) s)

/-! COMMIT. -/

/-- The longest time from a COMMIT to its boundary, in units (R351). -/
def commitHorizon : Nat := 86400 * unitSec

/-- Does a time word have the form of R6: nanoseconds below 10^9? Its bits 23:0 are ignored (R7). -/
def wordFormed (w : Nat) : Bool := decide (bitsOf w 61 32 < 1000000000)

/-- The instant of a time word, in units. -/
def wordInstant (w : Nat) : Nat := (w >>> 64) * unitSec + bitsOf w 61 32 * unitNs + bitsOf w 31 24 * 2 ^ 24

/-- The first boundary at or after an instant (R351). -/
def State.boundaryAt (s : State) (u : Nat) : Nat :=
  s.turn.kOrigin + ceilDiv (u - s.turn.origin) (s.turnNs * unitNs)

/-- The boundary that a COMMIT names. -/
def State.commitBoundary (s : State) (c : HostCmd) : Nat :=
  if opByte c 24 = 0 then opAt c 32 8 else s.boundaryAt (wordInstant (opAt c 32 16))

/-- The status of a COMMIT whose operands fail (R351), 0 where they pass. [log 60 DEDUCED] -/
def State.commitOperands (s : State) (c : HostCmd) : Nat :=
  let mode := opByte c 24
  let w := opAt c 32 16
  if 1 < mode then 4
  else if mode = 1 ∧ bitsOf w 63 62 = 3 then 0x11
  else if mode = 1 ∧ (bitsOf w 63 62 ≠ 2 ∨ !wordFormed w) then 4
  else if s.time.work + commitHorizon < s.boundaryU (s.commitBoundary c) then 4
  else 0

/-- What COMMIT does as it begins: its operands, then whether another commit is armed (R351, R353). -/
def State.commitCmd (s : State) (c : HostCmd) : State :=
  let bad := s.commitOperands c
  if bad ≠ 0 then s.deny c bad
  else if s.hop.armed.isSome then
    ((s.showCheck [(0x08, 0)]).wr F.HOPPER_STATUS_last_result 2).complete c 0x0A 0x08 0 0
  else s.startTest c true

/-- COMMIT (R351, R353): its operands, then its tests start. -/
def execCmdCommit (c : HostCmd) (s : State) : Host.Outcome State Fault Refusal :=
  ok (s.hostRow c 0x43 (fun s => s.commitCmd c))

/-- The frames of a commit's change list: ORDER frames of one code and sequence, each with the next part (R352). -/
def State.sendChanges (s : State) (seq b digest : Nat) : List (List (Nat × Nat)) → State
  | [] => s
  | p :: rest =>
    let alive := SMap.getD s.ply.txAlive 0x48 0
    let s : State := { s with ply := { s.ply with
      txAlive := SMap.set s.ply.txAlive 0x48 0 ((alive + 1) % 65536) } }
    (s.emit (.order alive 1 seq b digest (.commit p rest.isEmpty))).sendChanges seq b digest rest

/-- The order of a commit (R352, R512). -/
def State.sendCommit (s : State) (b digest : Nat) (changes : List (Nat × Nat)) : State :=
  let seq := s.ply.nextSeq
  let o : Order := ⟨true, 1, seq, b, .commit changes true, false⟩
  let s : State := { s with ply := { s.ply with
    nextSeq := (seq + 1) % 65536
    orders := s.ply.orders ++ [o] } }
  if s.plyUp then s.sendChanges seq b digest (changeParts (changes.length + 1) changes) else s

/-- A passed snapshot is frozen and armed for a boundary (R351 to R353). -/
def State.arm (s : State) (t : HopperTest) (b : Nat) : State :=
  let changes := changeList s.hop.active t.snapshot
  let digest := stagedDigest changes
  let alone := s.plyState != 2 || !s.partnerStandby
  let a : CommitImage := ⟨true, t.snapshot, t.act, changes, b, digest, alone⟩
  let s : State := { s with hop := { s.hop with testing := none, armed := some a } }
  let s := ((s.wr F.HOPPER_B_LO_b (b % 2 ^ 32)).wr F.HOPPER_B_HI_b (b >>> 32)).wr F.HOPPER_STAGED_SEAL_seal digest
  let s := if changesProgram s.hop.active t.snapshot then
      ((s.wr F.ONLINE_STATUS_state 1).wr F.ONLINE_TURN_LO_b (b % 2 ^ 32)).wr F.ONLINE_TURN_HI_b (b >>> 32)
    else s
  let name := fun (m : MillerCmd) =>
    if m.op == 0x43 then { m with boundary := some b, order := some s.ply.nextSeq } else m
  let s : State := { s with host := { s.host with outstanding := s.host.outstanding.map name } }
  let s := if alone then s else s.sendCommit b digest changes
  s.hopState

/-- COMMIT_ACCEPTED (R351, R352): the tests of a COMMIT end, where the miller runs (R24). -/
def execCommitAccepted (s : State) : Host.Outcome State Fault Refusal :=
  match s.hop.testing with
  | none => ok s
  | some t =>
    if !t.isCommit || !s.host.millerUp then ok s
    else
      match s.host.outstanding.find? (fun m => m.op == 0x43 && m.boundary.isNone) with
      | none => ok s
      | some m =>
        let fs := s.checkFailures t.snapshot
        let s := s.showCheck fs
        let ended := fun (s : State) (result : Nat) =>
          (({ s with hop := { s.hop with testing := none } } : State).wr F.HOPPER_STATUS_last_result result).hopState
        if !fs.isEmpty then
          ok ((ended s 2).finish (fun m => m.op == 0x43) 0x0A (lowestFailure fs).1 0 0)
        else
          let b := s.commitBoundary m.cmd
          let past := opByte m.cmd 24 == 1 && decide (wordInstant (opAt m.cmd 32 16) < s.time.work)
          if decide (b < s.orderBoundary) || past then ok ((ended s 5).finish (fun m => m.op == 0x43) 0x0C 0 0 0)
          else ok (s.arm t b)

/-- The commit's orders are done with. -/
def State.endCommitOrders (s : State) : State :=
  { s with ply := { s.ply with orders := s.ply.orders.filter (fun o => o.code != 1) } }

/-- COMMIT_APPLY (R354, R124, R356): at its boundary the commit replaces the active copy, unless it was not
acknowledged or the key in force there does not permit it. A module that is neither active nor in STANDBY holds no
commit. [log 75 DEDUCED] -/
def execCommitApply (s : State) : Host.Outcome State Fault Refusal :=
  match s.hop.armed with
  | none => ok s
  | some a =>
    if s.turn.k < a.boundary then ok s
    else if !(s.isActive || s.isStandby) then ok ((s.dropArmed none).endCommitOrders)
    else
      let key := s.keyAt a.boundary
      let s := s.endCommitOrders
      if !a.acked then ok ((s.dropArmed (some (3, 1))).finish (fun m => m.op == 0x43) 9 0 0 0)
      else if !keyPermits key s.hop.active a.image then
        ok ((s.dropArmed (some (4, 2))).finish (fun m => m.op == 0x43) 0x0B 0 0 0)
      else ok ((s.applyCommit a).finish (fun m => m.op == 0x43) 0 0 a.boundary 0)

/-- COMMIT_IMAGE_WRITTEN (R355): the committed image is in the older MRAM copy. -/
def execCommitImageWritten (s : State) : Host.Outcome State Fault Refusal :=
  if !s.hop.writing then ok s
  else
    let n := match s.newerImage with
      | some m => m.serial + 1
      | none => 0
    let old := s.progs.staged.filter (fun e => s.rd (F.PROG_STATUS_staged e.1) == 2)
    let m : MramImage := ⟨n, levelZero s.hop.active, s.progs.active, old⟩
    let s : State := { s with hop := { s.hop with mram := SMap.put s.hop.mram s.olderImage m, writing := false } }
    ok s.hopState

end Sys2Proof.Machine
end

