-- ==== Sys2Proof/Machine/TwistOps.lean ====
section
/-! DEFINITION. What the instructions of Twist code share: registers, flags, the program counter, fetches, traps,
views and task data (R127 to R142). -/

namespace Sys2Proof.Machine

/-- A register: g0 reads 0 (R127). -/
def Strand.reg (x : Strand) (r : Nat) : Word36 := if r = 0 then 0 else SMap.getD x.g r 0
/-- The strand with a register written: a write to g0 is discarded (R127). -/
def Strand.setReg (x : Strand) (r : Nat) (v : Word36) : Strand :=
  if r = 0 then x else { x with g := SMap.set x.g r 0 v }

/-- The 36-bit word of a signed number. -/
def wordOf (i : Int) : Word36 := BitVec.ofNat 36 (toBits 36 i)
/-- Does a number lie in the signed 36-bit range? -/
def fits36 (i : Int) : Bool := decide (-(2 ^ 35 : Int) ≤ i) && decide (i < (2 ^ 35 : Int))

/-- Z and N of a result (R137). -/
def Strand.zn (x : Strand) (r : Word36) : Strand := { x with z := r == 0, n := r.msb }
/-- The flags of an instruction whose flags are exactly Z and N: C and V clear (R137). -/
def Strand.znOnly (x : Strand) (r : Word36) : Strand := { x with z := r == 0, n := r.msb, c := false, v := false }
/-- Q is sticky (R128). -/
def Strand.stickQ (x : Strand) (b : Bool) : Strand := { x with q := x.q || b }

/-- The program counter moves to an address; at the end of the innermost loop's body the next iteration begins, or
the loop ends (R127, R138, R140). -/
def jumpLoops (calls : Nat) : List LoopFrame → Nat → List LoopFrame × Nat
  | [], pc => ([], pc)
  | f :: fs, pc =>
    if f.depth = calls ∧ pc = f.last + 1 then
      if 1 < f.left then ({ f with left := f.left - 1, index := f.index + 1 } :: fs, f.first)
      else jumpLoops calls fs pc
    else (f :: fs, pc)

/-- The 14 bits of a program counter (R127). -/
def pcBits (a : Nat) : Nat := a % 2 ^ 14

/-- The strand at an address. -/
def Strand.jump (x : Strand) (pc : Nat) : Strand :=
  let r := jumpLoops x.calls.length x.loops pc
  { x with loops := r.1, pc := pcBits r.2 }

/-- The strand in a loop that begins: one of 4 counters (R127). -/
def Strand.enterLoop (x : Strand) (f : LoopFrame) : Strand :=
  { x with loops := f :: x.loops.take 3, pc := pcBits f.first }

/-- The strand in a subroutine: its return address goes on the stack of 8 (R127). -/
def Strand.call (x : Strand) (target : Nat) : Strand :=
  { x with calls := pcBits (x.pc + 1) :: x.calls.take 7, pc := pcBits target }

/-- The strand at the next address. -/
def Strand.next (x : Strand) : Strand := x.jump (x.pc + 1)

/-- The instance and the strand, if strand j of task t is running on its spindle. [log 97 DEDUCED] -/
def State.strandOn (s : State) (t j : Nat) : Option (TaskInst × Strand) :=
  match (s.task t).inst with
  | some i =>
    match i.phase, i.strands[j]? with
    | .running, some x => if x.phase == .running then some (i, x) else none
    | _, _ => none
  | none => none

/-- The spindle of strand j. -/
def TaskInst.spindleOf (i : TaskInst) (j : Nat) : Nat := (i.spindles[j]?).getD 0

/-- The fetch of the strand's word, judged by the SPINDLE unit (R399, R401). [log 37 DEDUCED] -/
def State.fetchWord (s : State) (t j : Nat) (i : TaskInst) (x : Strand) : State × Bool :=
  let slot := RegMap.get (s.configAt i.sample) (F.TASK_CTRL_program t)
  s.acAccess 2 2 (i.spindleOf j) (0x1000000 + 0x100000 * slot + 8 * (progCodeBefore i.prog j + x.pc)) 8

/-- A trap of a strand (R142). [log 37 DEDUCED] -/
def State.trapStrand (s : State) (t j code user : Nat) (x : Strand) : State := s.trapInst t ⟨code, j, x.pc, user⟩

/-- The instance with a strand stored. -/
def State.putStrand (s : State) (t j : Nat) (i : TaskInst) (x : Strand) : State := s.setInst t (i.setStrand j x)

/-- The code word at the strand's program counter (R127, R135). -/
def TaskInst.word (i : TaskInst) (j : Nat) (x : Strand) : Nat := progWord i.prog j x.pc

/-- One step of strand j of task t on a word that passes a test: nothing where the strand is not running or stands at
another word; a refused fetch traps with ACCESS. [log 37 DEDUCED, 97 DEDUCED] -/
def State.twistIf (s : State) (t : Fin 16) (j : Fin 8) (fits : Nat → Bool) (f : State → TaskInst → Strand → State) : State :=
  match s.strandOn t.val j.val with
  | none => s
  | some (i, x) =>
    if !fits (i.word j.val x) then s
    else
      let r := s.fetchWord t.val j.val i x
      if r.2 then f r.1 i x else r.1.trapStrand t.val j.val 9 0 x

/-- One instruction of a strand: the one whose word, but for its unused fields, stands at its program counter (R135).
[log 97 DEDUCED] -/
def State.twist (s : State) (t : Fin 16) (j : Fin 8) (w : Nat) (f : State → TaskInst → Strand → State) : State :=
  s.twistIf t j (fun v => wordCanon v == w) f

/-- An instruction that only changes its strand, whose result carries a residue (R44): on a mismatch the result is
not used, the strand stops, and the fault is diagnosed. -/
def State.alu (s : State) (t : Fin 16) (j : Fin 8) (w : Nat) (bad : Bool) (f : Strand → Strand) : State :=
  s.twist t j w (fun s i x =>
    if bad then (s.putStrand t.val j.val i { x with phase := .stopped }).selfFault 1 1 (i.spindleOf j.val)
    else s.putStrand t.val j.val i (f x).next)

/-- The same, with a trap in place of the result where one is due. -/
def State.aluTrap (s : State) (t : Fin 16) (j : Fin 8) (w : Nat) (bad : Bool) (code : Strand → Option Nat)
    (f : Strand → Strand) : State :=
  s.twist t j w (fun s i x =>
    match code x with
    | some c => s.trapStrand t.val j.val c 0 x
    | none =>
      if bad then (s.putStrand t.val j.val i { x with phase := .stopped }).selfFault 1 1 (i.spindleOf j.val)
      else s.putStrand t.val j.val i (f x).next)

/-- ADD and ADDI (R137): sum, carry out of bit 35, signed overflow. -/
def Strand.addFlags (x : Strand) (a b : Word36) : Strand × Word36 :=
  let r := a + b
  ({ x.zn r with c := decide (2 ^ 36 ≤ a.toNat + b.toNat), v := !fits36 (a.toInt + b.toInt) }, r)

/-- SUB, CMP and CMPI (R137): difference, borrow, signed overflow. -/
def Strand.subFlags (x : Strand) (a b : Word36) : Strand × Word36 :=
  let r := a - b
  ({ x.zn r with c := decide (a.toNat < b.toNat), v := !fits36 (a.toInt - b.toInt) }, r)

/-- A result saturated to 36 bits (R128): V by the given test, Q where it saturates. -/
def Strand.satResult (x : Strand) (gd : Nat) (e : Int) : Strand :=
  let r := wordOf (sat36 e)
  ({ (x.zn r).stickQ (!fits36 e) with v := !fits36 e }).setReg gd r

/-- A shift left (R137): result and carry. -/
def shlWord (a : Word36) (n : Nat) : Word36 × Bool :=
  (a <<< n, if n = 0 ∨ 36 < n then false else bitOf a.toNat (36 - n))
/-- A logical shift right. -/
def shrWord (a : Word36) (n : Nat) : Word36 × Bool :=
  (a >>> n, if n = 0 ∨ 36 < n then false else bitOf a.toNat (n - 1))
/-- An arithmetic shift right. -/
def sarWord (a : Word36) (n : Nat) : Word36 × Bool :=
  (a.sshiftRight n, if n = 0 then false else if n < 36 then bitOf a.toNat (n - 1) else a.msb)

/-- A shift's result and its flags Z N C. -/
def Strand.shiftTo (x : Strand) (gd : Nat) (r : Word36 × Bool) : Strand :=
  ({ x.zn r.1 with c := r.2 }).setReg gd r.1

/-- A result of a logical instruction, whose flags are exactly Z and N. -/
def Strand.logicTo (x : Strand) (gd : Nat) (r : Word36) : Strand := (x.znOnly r).setReg gd r

/-- qop of R128: the saturated operand and whether it saturated. -/
def qop (v : Word36) : Int × Bool := (sat18 v.toInt, sat18 v.toInt != v.toInt)

/-- A Q1.17 result of qops and its sticky flag: flags Z N Q. -/
def Strand.qResult (x : Strand) (gd : Nat) (e : Int) (operandSat : Bool) : Strand :=
  let r := wordOf (sat18 e)
  ((x.zn r).stickQ (operandSat || sat18 e != e)).setReg gd r

/-! Views (R129, R132). -/

/-- The index of an indexed access (R129): none is out of bounds. -/
def indexOf (i : TaskInst) (j : Nat) (x : Strand) (gi : Nat) : Option Nat :=
  if gi = 0 then some 0
  else
    match progBound i.prog j x.pc with
    | none => none
    | some b =>
      let v := (x.reg gi).toInt
      if 0 ≤ v ∧ v ≤ (b : Int) then some v.toNat else none

/-- A slot of the input view. -/
def TaskInst.viewAt (i : TaskInst) (n : Nat) : Entry := SMap.getD i.view n Entry.coldEntry

/-- An instruction that reads a slot of the view: INDEX, then MEMORY, then the read. -/
def State.slotRead (s : State) (t : Fin 16) (j : Fin 8) (w : Nat) (gi : Nat) (slot : Nat) (ecc : Bool)
    (f : Strand → Entry → Strand) : State :=
  s.twist t j w (fun s i x =>
    match indexOf i j.val x gi with
    | none => s.trapStrand t.val j.val 2 0 x
    | some n =>
      if ecc then s.trapStrand t.val j.val 7 0 x
      else
        let e := i.viewAt (slot + n)
        s.putStrand t.val j.val i ({ f x e with lt := e.tag }).next)

/-! Task data (R131). -/

/-- Does a word lie in strand j's own write range? -/
def ownsWord (b : Bytes) (j a : Nat) : Bool :=
  decide (progRangeFirst b j ≤ a) && decide (a < progRangeFirst b j + progRangeCount b j)

/-- The address of a task data access of len words: none lies outside the program's data. -/
def dataAddr (i : TaskInst) (x : Strand) (gb off len : Nat) : Option Nat :=
  let a := (x.reg gb).toInt + (off : Int)
  if 0 ≤ a ∧ a + (len : Int) ≤ (progDataWords i.prog : Int) then some a.toNat else none

/-- A word as strand j reads it (R131): its own writes of this instance, else what the previous instance committed. -/
def State.readWord (s : State) (t j : Nat) (i : TaskInst) (a : Nat) : Word36 :=
  let old := dataWord i.prog (s.task t).data a
  if ownsWord i.prog j a then (SMap.find i.data a).getD old else old

/-- The access of a data word, judged by the SPINDLE unit (R399). -/
def State.dataAccess (s : State) (t j kind a words : Nat) (i : TaskInst) : State × Bool :=
  s.acAccess 2 kind (i.spindleOf j) (0x80000 * t + 8 * a) (8 * words)

/-- The lengths of a CAN FD payload (R133). -/
def fdLengths : List Nat := [0, 1, 2, 3, 4, 5, 6, 7, 8, 12, 16, 20, 24, 32, 48, 64]

/-- The condition of BR (R139); none is undefined. -/
def Strand.cond (x : Strand) (c : Nat) : Option Bool :=
  match c with
  | 0 => some true
  | 1 => some x.z
  | 2 => some (!x.z)
  | 3 => some (x.n != x.v)
  | 4 => some (x.n == x.v)
  | 5 => some (!x.z && x.n == x.v)
  | 6 => some (x.z || x.n != x.v)
  | 7 => some x.c
  | 8 => some (!x.c)
  | 9 => some x.v
  | 10 => some (!x.v)
  | 11 => some x.q
  | _ => none

/-- The tag test of BTAG (R139). -/
def Strand.tagTest (x : Strand) (mode q : Nat) (mask : BitVec 6) : Bool :=
  match mode with
  | 0 => x.lt &&& mask != 0
  | 1 => x.lt &&& mask == 0
  | 2 => x.lt.toNat % 4 == q
  | _ => x.lt.toNat % 4 != q

/-- A value of the instance (R134); none is refused at load. -/
def State.trdValue (s : State) (t j : Nat) (i : TaskInst) (sel : Nat) : Option Nat :=
  let u := s.boundaryU i.sample
  match sel with
  | 0 => some (i.sample % 2 ^ 36)
  | 1 => some (i.sample >>> 36)
  | 2 => some (u % unitSec / unitNs)
  | 3 => some (u / unitSec % 2 ^ 36)
  | 4 => some i.period
  | 5 => some (RegMap.get (s.configAt i.sample) F.TURN_LENGTH_turn_ns)
  | 6 => some t
  | 7 => some j
  | 8 => some (bit i.first + 2 * bit i.prevSlip)
  | _ => none

end Sys2Proof.Machine
end

