-- ==== Sys2Proof/Machine/Mill.lean ====
section
/-! DEFINITION. The mill bus: receiving, sending, errors, the time-triggered schedule, the read window and mapped
slots (chapter 16). -/

namespace Sys2Proof.Machine

/-! Frames. -/

/-- The identifier of a received frame as MB_BUF_ID holds one. -/
def frameIdent (f : CanFrame) : Nat := f.id.toNat + 2 ^ 29 * bit f.ide

/-- The descriptor of a received frame (R133). -/
def frameWords (f : CanFrame) : List Word36 :=
  [BitVec.ofNat 36 ((frameIdent f) + 2 ^ 30 * bit f.fdf + 2 ^ 31 * bit f.brs), BitVec.ofNat 36 f.data.length] ++
    (upTo 16).map (fun i => BitVec.ofNat 36 (beAt f.data (4 * i) 4))

/-- Does a channel run: PD_HOSTSVC on and the channel enabled? -/
def State.chanOn (s : State) (ch : Nat) : Bool := s.pd .hostsvc && s.aon (F.MB_CTRL_enable ch)

/-- May a channel receive: on and not bus-off (R383)? -/
def State.chanHears (s : State) (ch : Nat) : Bool := s.chanOn ch && s.rd (F.MB_STATUS_state ch) != 3

/-- May a channel send: it hears, is no bus monitor and is not muted (R386, R388)? -/
def State.chanSends (s : State) (ch : Nat) : Bool :=
  s.chanHears ch && !s.aon (F.MB_CTRL_listen_only ch) && !s.on (F.MB_STATUS_muted ch)

/-- Error active or passive, as the counters stand (R383). [log 70 PRESUMED] -/
def State.errState (s : State) (ch : Nat) : State :=
  let passive := decide (127 < s.rd (F.MB_STATUS_tec ch)) || decide (127 < s.rd (F.MB_STATUS_rec ch))
  let was := s.rd (F.MB_STATUS_state ch)
  let s := s.wr (F.MB_STATUS_state ch) (if passive then 2 else 1)
  if passive && was == 1 then s.millEvt ch 0 else s

/-- The receive error count falls at a frame received without error; above 127 it takes a value from 119 to 127
(ISO 11898-1: PRESUMED). [log 70 PRESUMED] -/
def State.recDown (s : State) (ch : Nat) : State :=
  let r := s.rd (F.MB_STATUS_rec ch)
  if s.on (F.MB_STATUS_muted ch) || r = 0 then s
  else if r ≤ 127 then s.wr (F.MB_STATUS_rec ch) (r - 1)
  else
    let f := s.free
    (f.2.wr (F.MB_STATUS_rec ch) (119 + f.1 % 9)).errState ch

/-! The read window (R374). -/

/-- The window's registers show the selected buffer. -/
def State.showBuf (s : State) (ch : Nat) : State :=
  let b := s.rd (F.MB_RD_SEL_buffer ch)
  let m := if s.millRole ch b = 1 then (s.millBuf ch b).msg else none
  let words := (m.map (·.words)).getD []
  let w := timeWord 2 ((m.map (·.stamp)).getD 0)
  let s := s.wr (F.MB_RD_ID_word0 ch) (((words[0]?).getD 0).toNat % 2 ^ 32)
  let s := (s.wr (F.MB_RD_LEN_len ch) (wordsLen words)).wrb (F.MB_RD_LEN_never ch) m.isNone
  let s := (upTo 16).foldl (fun s i => s.wr (F.MB_RD_DATA_data ch i) (((words[i + 2]?).getD 0).toNat % 2 ^ 32)) s
  let s := s.wr (F.MB_RD_STAMP_0_sec ch) (bitsOf w 95 64 * bit m.isSome)
  (s.wr (F.MB_RD_STAMP_1_ns ch) (bitsOf w 61 32 * bit m.isSome)).wr (F.MB_RD_STAMP_2_frac ch)
    (bitsOf w 31 24 * bit m.isSome)

/-- The read lock of a channel ends: what was held aside enters the buffer. -/
def State.endLock (s : State) (ch : Nat) (lost : Bool) : State :=
  let c := s.millCh ch
  if !c.locked then s
  else
    let b := s.rd (F.MB_RD_SEL_buffer ch)
    let s := s.setMillCh ch { c with locked := false }
    let x := s.millBuf ch b
    let s := match x.aside with
      | some m => s.setMillBuf ch b { x with msg := some m, aside := none, read := false }
      | none => s
    (if lost then s.wr (F.MB_BUF_STATUS_lock_lost ch b) 1 else s).showBuf ch

/-- MB_RD_SEL_WRITE (R374): a buffer is selected, and any lock ends. -/
def execMbRdSelWrite (ch : Fin 2) (v : Word32) (s : State) : Host.Outcome State Fault Refusal :=
  if !s.pd .hostsvc then ok s
  else ok (((s.endLock ch.val true).wr (F.MB_RD_SEL_buffer ch.val) (v.toNat % 64)).showBuf ch.val)

/-- A read of MB_RD_ID (R374): the selected receive buffer is locked; with descriptor word 0. -/
def State.lockWindow (s : State) (ch : Nat) : State × Nat :=
  if !s.pd .hostsvc then (s, 0)
  else
    let b := s.rd (F.MB_RD_SEL_buffer ch)
    let s := s.showBuf ch
    let v := s.rd (F.MB_RD_ID_word0 ch)
    (if s.millRole ch b = 1 then
        ((s.setMillCh ch { s.millCh ch with locked := true }).wr (F.MB_BUF_STATUS_lock_lost ch b) 0).millRead ch b
      else s, v)

/-- A read of MB_RD_STAMP_2, the last word of the window, releases the lock (R374). -/
def State.freeWindow (s : State) (ch : Nat) : State × Nat :=
  if !s.pd .hostsvc then (s, 0) else (s.endLock ch false, s.rd (F.MB_RD_STAMP_2_frac ch))

/-- MB_RD_ID_READ (R374, R399): the host reads MB_RD_ID. -/
def execMbRdIdRead (ch : Fin 2) (s : State) : Host.Outcome State Fault Refusal :=
  ok (s.hostRead (0x9C04 + 0x1000 * ch.val) (fun s => s.lockWindow ch.val))

/-- MB_RD_STAMP_2_READ (R374, R399): the host reads MB_RD_STAMP_2. -/
def execMbRdStamp2Read (ch : Fin 2) (s : State) : Host.Outcome State Fault Refusal :=
  ok (s.hostRead (0x9C54 + 0x1000 * ch.val) (fun s => s.freeWindow ch.val))

/-- READ_LOCK_TIMEOUT (R374): 1 ms without a read of the window. [log 9 DESIGN CHOICE] -/
def execReadLockTimeout (ch : Fin 2) (s : State) : Host.Outcome State Fault Refusal :=
  if !s.pd .hostsvc then ok s else ok (s.endLock ch.val true)

/-! Receiving (R372, R373, R375, R376). -/

/-- Does a receive buffer take a frame (R372)? -/
def State.takesFrame (s : State) (ch : Nat) (f : CanFrame) (b : Nat) : Bool :=
  s.millRole ch b == 1 && ((f.id.toNat ^^^ s.act (F.MB_BUF_ID_id ch b)) &&& s.act (F.MB_BUF_MASK_mask ch b)) == 0 &&
    s.act (F.MB_BUF_ID_ide ch b) == bit f.ide &&
    (!s.aon (F.MB_BUF_CFG_urgent_en ch b) ||
      (let mask := s.act (F.MB_BUF_MATCH_match_mask ch b)
       if f.data.isEmpty then mask == 0
       else ((byteAt f.data 0 ^^^ s.act (F.MB_BUF_MATCH_match_val ch b)) &&& mask) == 0))

/-- A frame enters receive buffer b: the newest message, its overrun, its urgent event and its mapped value. The
stamp is the instant of the frame's start, which the command does not carry: a free instant up to now.
[log 72 DEDUCED] -/
def State.takeFrame (s : State) (ch b : Nat) (f : CanFrame) : State :=
  let fr := s.free
  let s := fr.2
  let c := s.millCh ch
  let m : MillMsg := ⟨frameWords f, s.time.work - fr.1 % (s.time.work + 1), c.serial⟩
  let s := s.setMillCh ch { c with serial := c.serial + 1 }
  let x := s.millBuf ch b
  let unread := !x.read && x.newest.isSome
  let aside := c.locked && s.rd (F.MB_RD_SEL_buffer ch) == b
  let mapped := if s.aon (F.MB_BUF_CFG_map_en ch b) && s.snapsOwn then some (s.mapValue ch b f.data) else x.mapped
  let x : MillBuf := if aside then { x with aside := some m, read := false, mapped := mapped }
    else { x with msg := some m, aside := none, read := false, mapped := mapped }
  let s := (s.setMillBuf ch b x).wr (F.MB_BUF_STATUS_full ch b) 1
  let s := s.inc (F.MB_CNT_count ch 1)
  let s := if unread then (s.wr (F.MB_BUF_STATUS_overrun ch b) 1).millEvt ch 7 else s
  let s := if s.aon (F.MB_BUF_CFG_urgent_en ch b) then
      s.raiseSource (96 + s.act (F.MB_BUF_CFG_urgent ch b)) ((frameIdent f) + 2 ^ 30 * ch)
        (b + 2 ^ 8 * f.data.length + 2 ^ 24 * byteAt f.data 0 + 2 ^ 16 * byteAt f.data 1)
    else s
  if s.rd (F.MB_RD_SEL_buffer ch) == b && !c.locked then s.showBuf ch else s

/-- A muted channel sees a frame that equals a pending message: it is no longer pending (R386). [log 72 DEDUCED] -/
def State.seeFrame (s : State) (ch : Nat) (f : CanFrame) (b : Nat) : State :=
  let x := s.millBuf ch b
  match x.msg with
  | some m =>
    if 2 ≤ s.millRole ch b && m.words == frameWords f then
      let s := s.wr (F.MB_BUF_STATUS_pending ch b) 0
      if x.windowOpen then s.setMillBuf ch b { x with sentInWindow := true } else s
    else s
  | none => s

/-- Is a frame a reference message of the channel (R381)? [log 71 DESIGN CHOICE] -/
def State.isReference (s : State) (ch : Nat) (f : CanFrame) : Bool :=
  s.aon (F.MB_TT_CTRL_tt_en ch) && !f.ide && !f.fdf && !f.rtr && f.data.length == 8 &&
    f.id.toNat / 8 == Config.refId / 8 && !bitOf (byteAt f.data 0) 7

/-- A reference message arrives: a follower's cycle starts, and a potential master of the same cycle withdraws its own
(R381, R382). -/
def State.takeReference (s : State) (ch : Nat) (f : CanFrame) : State :=
  let cycle := byteAt f.data 0 % 64
  let c := s.millCh ch
  if s.aon (F.MB_TT_CTRL_role ch) then
    if cycle == s.rd (F.MB_TT_STATUS_cycle ch) then
      ((s.setMillCh ch { c with refPending := false }).wr (F.MB_TT_STATUS_master ch) 0).wr (F.MB_TT_STATUS_ref_ok ch) 1
    else s
  else
    ((s.setMillCh ch { c with refSeen := true }).wr (F.MB_TT_STATUS_cycle ch) cycle).wr (F.MB_TT_STATUS_ref_ok ch) 1

/-- Is a frame the partner's heartbeat (R287)? -/
def State.isHeartbeat (s : State) (ch : Nat) (f : CanFrame) : Bool :=
  s.aon F.PLY_MILL_HB_mill_hb_en && s.act F.PLY_MILL_HB_mill_hb_chan == ch && !f.ide && !f.fdf && !f.rtr &&
    f.data.length == 8 && f.id.toNat == (s.act F.PLY_MILL_HB_id_base + s.partnerPos) % 2048

/-- MILL_FRAME_RECEIVED (R367, R372, R373, R376, R381, R386, R287): a channel receives a frame of another node. -/
def execMillFrameReceived (ch : Fin 2) (f : CanFrame) (s : State) : Host.Outcome State Fault Refusal :=
  let ch := ch.val
  if !s.chanHears ch then ok s
  else
    let s := s.recDown ch
    let s := if s.isHeartbeat ch f then s.wr F.PLY_STATUS_mill_hb_seen 1 else s
    let s := if s.isReference ch f then s.takeReference ch f else s
    let s := if s.on (F.MB_STATUS_muted ch) && !f.rtr then (upTo 64).foldl (fun s b => s.seeFrame ch f b) s else s
    if f.rtr then ok (s.inc (F.MB_CNT_count ch 5))
    else match (upTo 64).find? (s.takesFrame ch f) with
      | some b => ok (s.takeFrame ch b f)
      | none => ok (s.inc (F.MB_CNT_count ch 5))

/-! Mapped slots (R375). -/

/-- MILL_MAP_TAKEN (R375): a mapped buffer's value enters its slot at the first boundary after the frame; a frame too
short sets ERR on the slot alone. -/
def execMillMapTaken (ch : Fin 2) (b : Fin 64) (s : State) : Host.Outcome State Fault Refusal :=
  let x := s.millBuf ch.val b.val
  match x.mapped with
  | none => ok s
  | some v =>
    let n := s.act (F.MB_BUF_MAP_map_slot ch.val b.val)
    let s := s.setMillBuf ch.val b.val { x with mapped := none }
    let c := s.cell n
    let e : Entry := match v with
      | some q => ⟨q, 0⟩
      | none => ⟨c.entry.value, c.entry.tag ||| 32⟩
    let s := s.setCell n ⟨e, 0⟩
    let s : State := { s with turn := { s.turn with latches := SMap.del s.turn.latches n } }
    ok (s.barKey n s.turn.k)

/-- MILL_MAP_STALE (R375): no frame for tmo_ms. -/
def execMillMapStale (ch : Fin 2) (b : Fin 64) (s : State) : Host.Outcome State Fault Refusal :=
  if !s.chanOn ch.val || !s.aon (F.MB_BUF_CFG_map_en ch.val b.val) || s.millRole ch.val b.val != 1 ||
      s.act (F.MB_BUF_CFG_tmo_ms ch.val b.val) == 0 then ok s
  else
    let n := s.act (F.MB_BUF_MAP_map_slot ch.val b.val)
    let c := s.cell n
    ok (s.setCell n { c with entry := { c.entry with tag := (c.entry.tag &&& 0x3C) ||| 1 } })

/-! Sending (R377 to R382). -/

/-- The key of a message's attempts: its identifier, plus 2^29 with IDE. -/
def State.sourceIdent (s : State) (ch : Nat) : MillSource → Nat
  | .buffer b => wordsIdent (((s.millBuf ch b.val).msg.map (·.words)).getD [])
  | .heartbeat => (s.act F.PLY_MILL_HB_id_base + s.position) % 2048
  | .reference => (Config.refId + s.act (F.MB_TT_CTRL_prio ch)) % 2048

/-- The reference message of the present cycle (R381). [log 71 DESIGN CHOICE] -/
def State.referenceBytes (s : State) (ch : Nat) : Bytes :=
  let us := s.workNs % 1000000000 / 1000
  let cycle := s.act (F.MB_TT_CTRL_cycle_us ch)
  beBytes 1 (s.rd (F.MB_TT_STATUS_cycle ch)) ++ beBytes 2 s.workSec ++ beBytes 4 (us / cycle * cycle * 1000) ++
    beBytes 1 (s.act (F.MB_TT_CTRL_prio ch))

/-- Does a source have a message that may go out now (R377, R379, R380, R381)? -/
def State.mayTransmit (s : State) (ch : Nat) (src : MillSource) : Bool :=
  let c := s.millCh ch
  let tt := s.aon (F.MB_TT_CTRL_tt_en ch)
  s.chanSends ch && !c.mutedIds.contains (s.sourceIdent ch src) &&
    (match src with
     | .buffer b => (s.millBuf ch b.val).msg.isSome &&
        (if s.millRole ch b.val = 4 then tt && c.window == some b.val && !(s.millBuf ch b.val).sentInWindow
         else s.on (F.MB_BUF_STATUS_pending ch b.val) && (!tt || c.arbOpen))
     | .heartbeat => c.heartbeat.isSome && (!tt || c.arbOpen)
     | .reference => tt && c.refPending)

/-- An attempt enters the history of its identifier: the last 16 (R385). [log 73 DEDUCED] -/
def State.noteAttempt (s : State) (ch key : Nat) (clashBit : Bool) : State :=
  let c := s.millCh ch
  let h := (clashBit :: SMap.getD c.history key []).take 16
  s.setMillCh ch { c with history := SMap.put c.history key h }

/-- MILL_FRAME_SENT (R377, R380, R381, R383): a message goes out without error. Which of the pending messages won the bus
is the command's: the contention falls at the frame's start, before what becomes pending meanwhile. [log 73 DEDUCED] -/
def execMillFrameSent (ch : Fin 2) (src : MillSource) (s : State) : Host.Outcome State Fault Refusal :=
  let ch := ch.val
  if !s.mayTransmit ch src then ok s
  else
    let key := s.sourceIdent ch src
    let data := match src with
      | .buffer b => wordsBytes (((s.millBuf ch b.val).msg.map (·.words)).getD [])
      | .heartbeat => (s.millCh ch).heartbeat.getD []
      | .reference => s.referenceBytes ch
    let s := (s.noteAttempt ch key false).emit (.mill ch key data)
    let s := s.inc (F.MB_CNT_count ch 0)
    let s := (s.wr (F.MB_STATUS_tec ch) (s.rd (F.MB_STATUS_tec ch) - 1)).errState ch
    match src with
    | .buffer b =>
      let s := s.wr (F.MB_BUF_STATUS_pending ch b.val) 0
      if s.millRole ch b.val = 4 then ok (s.setMillBuf ch b.val { s.millBuf ch b.val with sentInWindow := true }) else ok s
    | .heartbeat => ok (s.setMillCh ch { s.millCh ch with heartbeat := none })
    | .reference =>
      let s := (s.setMillCh ch { s.millCh ch with refPending := false }).wr (F.MB_TT_STATUS_ref_ok ch) 1
      if s.on (F.MB_TT_STATUS_master ch) then ok s else ok ((s.wr (F.MB_TT_STATUS_master ch) 1).millEvt ch 6)

/-- Pending messages of a muted identifier are dropped and counted (R385). -/
def State.dropMuted (s : State) (ch key b : Nat) : State :=
  if s.millRole ch b < 2 || s.bufIdent ch b != key then s
  else
    let s := s.wr (F.MB_BUF_STATUS_clash_muted ch b) 1
    if s.on (F.MB_BUF_STATUS_pending ch b) then
      (s.wr (F.MB_BUF_STATUS_pending ch b) 0).inc (F.MB_BUF_STATUS_replaced ch b)
    else s

/-- A clash on an identifier (R385). [log 73 DEDUCED] -/
def State.clash (s : State) (ch key : Nat) : State :=
  let s := (s.wr (F.MB_CLASH_id ch) (key % 2 ^ 29)).wr (F.MB_CLASH_ide ch) (key / 2 ^ 29)
  let s := (s.inc (F.MB_CLASH_count ch)).millEvt ch 3
  if !s.aon (F.MB_CTRL_clash_mute ch) then s
  else
    let c := s.millCh ch
    let s := s.setMillCh ch { c with mutedIds := (key :: c.mutedIds).eraseDups }
    (upTo 64).foldl (fun s b => s.dropMuted ch key b) s

/-- A channel goes bus-off (R383, R384). [log 73 DEDUCED] -/
def State.busOff (s : State) (ch : Nat) : State :=
  let s := (s.wr (F.MB_STATUS_state ch) 3).wr (F.MB_STATUS_recovering ch) (s.act (F.MB_CTRL_auto_recover ch))
  let s := s.inc (F.MB_CNT_count ch 3)
  let s := (upTo 64).foldl (fun s b =>
    if s.on (F.MB_BUF_STATUS_pending ch b) then s.wr (F.MB_BUF_STATUS_held ch b) 1 else s) s
  let s := s.setMillCh ch { s.millCh ch with hbHeld := (s.millCh ch).heartbeat.isSome }
  (s.millEvt ch 1).fireTrigger (60 + ch) 0xFF 0 0

/-- MILL_TX_ERROR (R383, R385): an error in a transmission; the transmit error count rises by 8 (ISO 11898-1:
PRESUMED). [log 70 PRESUMED] -/
def execMillTxError (ch : Fin 2) (src : MillSource) (inData : Bool) (s : State) : Host.Outcome State Fault Refusal :=
  let ch := ch.val
  if !s.mayTransmit ch src then ok s
  else
    let key := s.sourceIdent ch src
    let s := s.inc (F.MB_CNT_count ch 2)
    let s := s.noteAttempt ch key inData
    let tec := s.rd (F.MB_STATUS_tec ch) + 8
    let s := s.wr (F.MB_STATUS_tec ch) tec
    let bad := ((SMap.getD (s.millCh ch).history key []).filter id).length
    let s := if inData && 3 ≤ bad then s.clash ch key else s
    let s := match src with
      | .reference => s.setMillCh ch { s.millCh ch with refPending := false }
      | _ => s
    if 255 < tec then ok (s.busOff ch) else ok (s.errState ch)

/-- MILL_RX_ERROR (R383): a bus error while receiving; a muted channel's counters do not change (R386).
[log 70 PRESUMED] -/
def execMillRxError (ch : Fin 2) (amount : Fin 9) (s : State) : Host.Outcome State Fault Refusal :=
  let ch := ch.val
  if !s.chanHears ch then ok s
  else
    let s := s.inc (F.MB_CNT_count ch 2)
    if s.on (F.MB_STATUS_muted ch) then ok s
    else ok ((s.wr (F.MB_STATUS_rec ch) (min 255 (s.rd (F.MB_STATUS_rec ch) + amount.val))).errState ch)

/-- MILL_RECOVERED (R384): 128 recessive sequences have been counted. -/
def execMillRecovered (ch : Fin 2) (s : State) : Host.Outcome State Fault Refusal :=
  let ch := ch.val
  if !s.chanOn ch || s.rd (F.MB_STATUS_state ch) != 3 || !s.on (F.MB_STATUS_recovering ch) then ok s
  else
    let s := ((s.wr (F.MB_STATUS_state ch) 1).wr (F.MB_STATUS_recovering ch) 0).wr (F.MB_STATUS_tec ch) 0
    let s := s.wr (F.MB_STATUS_rec ch) 0
    let s := (upTo 64).foldl (fun s b => s.wr (F.MB_BUF_STATUS_held ch b) 0) s
    let s := s.setMillCh ch { s.millCh ch with hbHeld := false }
    ok (s.millEvt ch 2)

/-- MB_CMD_RESTART (R384): recovery begins. -/
def execMbCmdRestart (ch : Fin 2) (s : State) : Host.Outcome State Fault Refusal :=
  if s.chanOn ch.val && s.rd (F.MB_STATUS_state ch.val) == 3 then ok (s.wr (F.MB_STATUS_recovering ch.val) 1) else ok s

/-- MB_CMD_UNMUTE (R385): every muted identifier is enabled again and its history cleared. -/
def execMbCmdUnmute (ch : Fin 2) (s : State) : Host.Outcome State Fault Refusal :=
  if !s.pd .hostsvc then ok s
  else
    let c := s.millCh ch.val
    let s := s.setMillCh ch.val { c with
      mutedIds := [], history := c.history.filter (fun e => !c.mutedIds.contains e.1) }
    ok ((upTo 64).foldl (fun s b => s.wr (F.MB_BUF_STATUS_clash_muted ch.val b) 0) s)

/-- MB_CMD_CLEAR_CNT (R388). -/
def execMbCmdClearCnt (ch : Fin 2) (s : State) : Host.Outcome State Fault Refusal :=
  if !s.pd .hostsvc then ok s else ok ((upTo 6).foldl (fun s j => s.wr (F.MB_CNT_count ch.val j) 0) s)

/-! The time-triggered schedule (R379 to R382). -/

/-- Would something that lasts so many periods of 12.5 ns end past the whole second, where the matrix does not divide
the second (R379)? -/
def State.pastSecond (s : State) (ch periods : Nat) : Bool :=
  1000000 % (s.act (F.MB_TT_CTRL_cycle_us ch) * 2 ^ s.act (F.MB_TT_CTRL_cycles_log2 ch)) != 0 &&
    decide (1000000000 * 2 < 2 * (s.workNs % 1000000000) + 25 * periods)

/-- The basic cycle at this instant (R379). -/
def State.cycleNow (s : State) (ch : Nat) : Nat :=
  s.workNs % 1000000000 / 1000 / s.act (F.MB_TT_CTRL_cycle_us ch) % 2 ^ s.act (F.MB_TT_CTRL_cycles_log2 ch)

/-- MILL_CYCLE_START (R379, R381): a basic cycle of a potential master starts, and unless it is muted it queues its
reference message. -/
def execMillCycleStart (ch : Fin 2) (s : State) : Host.Outcome State Fault Refusal :=
  let ch := ch.val
  if !s.chanOn ch || !s.aon (F.MB_TT_CTRL_tt_en ch) || !s.aon (F.MB_TT_CTRL_role ch) then ok s
  else
    let s := (s.wr (F.MB_TT_STATUS_cycle ch) (s.cycleNow ch)).wr (F.MB_TT_STATUS_ref_ok ch) 0
    let send := !s.on (F.MB_STATUS_muted ch) && !s.pastSecond ch (s.worstFrame ch false false 8)
    ok (s.setMillCh ch { s.millCh ch with refPending := send, arbOpen := false, refSeen := true })

/-- Does the channel's schedule run: time-triggered, and a follower has its reference (R382)? -/
def State.ttRuns (s : State) (ch : Nat) : Bool :=
  s.chanOn ch && s.aon (F.MB_TT_CTRL_tt_en ch) && (s.aon (F.MB_TT_CTRL_role ch) || (s.millCh ch).refSeen)

/-- The worst time of a role-4 buffer's frame, in periods of 12.5 ns. -/
def State.windowWorst (s : State) (ch b : Nat) : Nat :=
  let fd := s.aon (F.MB_BUF_TT_fd ch b)
  s.worstFrame ch fd (s.aon (F.MB_BUF_ID_ide ch b)) (dlcBytes fd (s.act (F.MB_BUF_TT_len_code ch b)))

/-- Is the present basic cycle one in which a role-4 buffer sends: c mod 2^rep = off (R379)? -/
def State.windowCycle (s : State) (ch b : Nat) : Bool :=
  s.rd (F.MB_TT_STATUS_cycle ch) % 2 ^ s.act (F.MB_BUF_TT_rep ch b) == s.act (F.MB_BUF_TT_off ch b)

/-- MILL_WINDOW_START (R379, R380): the window of a role-4 buffer opens. A follower without a reference sends in no
window, so its window passes without a send. -/
def execMillWindowStart (ch : Fin 2) (b : Fin 64) (s : State) : Host.Outcome State Fault Refusal :=
  let ch := ch.val
  let b := b.val
  if !s.chanOn ch || !s.aon (F.MB_TT_CTRL_tt_en ch) || s.millRole ch b != 4 ||
      s.pastSecond ch (s.windowWorst ch b) || (s.ttRuns ch && !s.windowCycle ch b) then ok s
  else
    let s := s.setMillCh ch { s.millCh ch with window := if s.ttRuns ch then some b else none }
    ok (s.setMillBuf ch b { s.millBuf ch b with windowOpen := true, sentInWindow := false })

/-- MILL_WINDOW_END (R380): a window without a successful send is missed. -/
def execMillWindowEnd (ch : Fin 2) (b : Fin 64) (s : State) : Host.Outcome State Fault Refusal :=
  let ch := ch.val
  let b := b.val
  let x := s.millBuf ch b
  if !s.pd .hostsvc || !x.windowOpen then ok s
  else
    let s := s.setMillBuf ch b { x with windowOpen := false, sentInWindow := false }
    let s := s.setMillCh ch { s.millCh ch with window := none }
    if x.sentInWindow then ok (s.wr (F.MB_BUF_STATUS_missed ch b) 0)
    else ok (((s.wr (F.MB_BUF_STATUS_missed ch b) 1).inc (F.MB_CNT_count ch 4)).millEvt ch 4)

/-- ARBITRATING_WINDOW_START (R379). -/
def execArbitratingWindowStart (ch : Fin 2) (s : State) : Host.Outcome State Fault Refusal :=
  let len := (s.act (F.MB_TT_ARB_arb_end ch.val) - s.act (F.MB_TT_ARB_arb_start ch.val)) * perUs
  if !s.ttRuns ch.val || s.pastSecond ch.val len then ok s
  else ok (s.setMillCh ch.val { s.millCh ch.val with arbOpen := true })

/-- ARBITRATING_WINDOW_END (R379). -/
def execArbitratingWindowEnd (ch : Fin 2) (s : State) : Host.Outcome State Fault Refusal :=
  if !s.pd .hostsvc then ok s else ok (s.setMillCh ch.val { s.millCh ch.val with arbOpen := false })

/-- MILL_REF_LOST (R382): a follower has heard no reference in time. -/
def execMillRefLost (ch : Fin 2) (s : State) : Host.Outcome State Fault Refusal :=
  let ch := ch.val
  if !s.chanOn ch || !s.aon (F.MB_TT_CTRL_tt_en ch) || s.aon (F.MB_TT_CTRL_role ch) then ok s
  else
    let s := s.setMillCh ch { s.millCh ch with refSeen := false, window := none, arbOpen := false }
    ok ((s.wr (F.MB_TT_STATUS_ref_ok ch) 0).millEvt ch 5)

/-- MILL_DOMINANT_TIMEOUT (R368): the transceiver releases the bus. [log 73 DEDUCED] -/
def execMillDominantTimeout (ch : Fin 2) (s : State) : Host.Outcome State Fault Refusal :=
  if s.chanOn ch.val then ok (s.millEvt ch.val 8) else ok s

/-! Host commands (R331, R374, R378). -/

/-- The descriptor words of a MILL_SEND buffer: 18 words of 8 bytes. -/
def sendWords (c : HostCmd) : List Word36 := (upTo 18).map (fun i => BitVec.ofNat 36 (leAt c.data (8 * i) 8))

/-- Is a descriptor's length and format one that CAN or CAN FD has (R367, R378)? -/
def wordsOk (words : List Word36) : Bool :=
  let w := ((words[0]?).getD 0).toNat
  let fdf := bitOf w 30
  (fdLengths.contains (wordsLen words) && (fdf || decide (wordsLen words ≤ 8))) && (fdf || !bitOf w 31) && decide (w < 2 ^ 32) &&
    (bitOf w 29 || decide (w % 2 ^ 29 < 2048))

/-- Why a channel cannot take a message, as the detail of MILL_SEND (R378). [log 72 DEDUCED] -/
def State.sendRefusal (s : State) (ch b : Nat) (words : List Word36) : Option Nat :=
  let role := s.millRole ch b
  if !(role == 3 || (role == 4 && s.aon (F.MB_BUF_CFG_owner_host ch b))) then some 1
  else if !s.chanOn ch then some 2
  else if !wordsOk words then some 3
  else if (s.millCh ch).mutedIds.contains (wordsIdent words) then some 4
  else if s.tooLong ch b words then some 5
  else none

/-- MILL_SEND (R68, R377, R378): the message goes to both partners and becomes pending at the boundary of R68. A
descriptor with another identifier than the buffer's is refused with a detail that the spec does not state.
[log 72 DEDUCED] -/
def State.millSend (s : State) (c : HostCmd) : State :=
  let ch := opByte c 24
  let b := opByte c 25
  if 2 ≤ ch || 64 ≤ b || !bufOk c 144 then s.deny c 4
  else s.moveBuf c 0 144 (fun s =>
    let words := sendWords c
    match s.sendRefusal ch b words with
    | some d =>
      let s := if d = 5 then s.wr (F.MB_BUF_STATUS_too_long ch b) 1 else s
      s.complete c 0x13 d 0 0
    | none =>
      if wordsIdent words != s.bufIdent ch b then
        let f := s.free
        f.2.complete c 0x13 (f.1 % 65536) 0 0
      else
        let at_ := s.boundary2
        let s := s.hostWrites at_ [.mill (Fin.ofNat 2 ch) (Fin.ofNat 64 b) words]
        let s := s.holdCmd c 0x80 (some at_) none
        if s.plyState != 2 || !s.plyUp then s
        else
          let mark := fun (m : MillerCmd) => if m.op == 0x80 && m.cmd == c then { m with acked := true } else m
          { s with host := { s.host with outstanding := s.host.outstanding.map mark } })

/-- MILL_SEND_PENDING (R377, R378): the messages for a buffer whose boundary has come become pending, and their
commands complete. -/
def execMillSendPending (ch : Fin 2) (b : Fin 64) (s : State) : Host.Outcome State Fault Refusal :=
  let k := s.turn.k
  let take := fun (e : Nat × HostWrite) => match e.2 with
    | .mill c x _ => decide (e.1 ≤ k) && c == ch && x == b
    | _ => false
  let due := s.image.waiting.filter take
  let s : State := { s with image := { s.image with waiting := s.image.waiting.filter (fun e => !take e) } }
  let s := due.foldl (fun s e => match e.2 with
    | .mill _ _ words => (s.barKey (2 ^ 21 + ch.val * 64 + b.val) e.1).millEnter ch.val b.val words
    | _ => s) s
  let mine := fun (m : MillerCmd) => m.op == 0x80 && opByte m.cmd 24 == ch.val && opByte m.cmd 25 == b.val &&
    m.boundary.any (fun x => decide (x ≤ k))
  ok (s.finish mine 0 0 ((due.map (·.1)).foldl max 0) 0)

/-- MILL_READ (R331, R374): the newest message of a receive buffer. [log 72 DEDUCED] -/
def State.millReadCmd (s : State) (c : HostCmd) : State :=
  let ch := opByte c 24
  let b := opByte c 25
  if 2 ≤ ch || 64 ≤ b || !bufOk c 144 then s.deny c 4
  else
    let m := if s.millRole ch b = 1 then (s.millBuf ch b).msg else none
    let words := (m.map (·.words)).getD (List.replicate 18 0)
    (s.millRead ch b).answer c (words.flatMap (fun w => leBytes 8 w.toNat)) 0 (bit m.isNone)

end Sys2Proof.Machine
end

