-- ==== Sys2Proof/Machine/HostCmds.lean ====
section
/-! DEFINITION. The host commands that end as they run, or that only wait for their boundary (R331). -/

namespace Sys2Proof.Machine

/-- NOP (R331). -/
def execCmdNop (c : HostCmd) (s : State) : Host.Outcome State Fault Refusal :=
  ok (s.hostRow c 0x00 (fun s => s.complete c 0 0 0 0))

/-- SIG_READ (R331). -/
def execCmdSigRead (c : HostCmd) (s : State) : Host.Outcome State Fault Refusal :=
  ok (s.hostRow c 0x10 (fun s => s.sigRead c))

/-- SIG_WRITE (R331). -/
def execCmdSigWrite (c : HostCmd) (s : State) : Host.Outcome State Fault Refusal :=
  ok (s.hostRow c 0x11 (fun s => s.sigWrite c))

/-- SLOT_STATUS (R332). -/
def execCmdSlotStatus (c : HostCmd) (s : State) : Host.Outcome State Fault Refusal :=
  ok (s.hostRow c 0x12 (fun s => s.slotStatus c))

/-- LOOP_READ (R332). -/
def execCmdLoopRead (c : HostCmd) (s : State) : Host.Outcome State Fault Refusal :=
  ok (s.hostRow c 0x20 (fun s => s.loopRead c))

/-- LOOP_WRITE (R331). -/
def execCmdLoopWrite (c : HostCmd) (s : State) : Host.Outcome State Fault Refusal :=
  ok (s.hostRow c 0x21 (fun s => s.loopWrite c))

/-- FORCE (R63). -/
def execCmdForce (c : HostCmd) (s : State) : Host.Outcome State Fault Refusal :=
  ok (s.hostRow c 0x30 (fun s => s.forceCmd c))

/-- UNFORCE (R65). -/
def execCmdUnforce (c : HostCmd) (s : State) : Host.Outcome State Fault Refusal :=
  ok (s.hostRow c 0x31 (fun s => s.unforceCmd c))

/-- FORCE_LIST (R331). -/
def execCmdForceList (c : HostCmd) (s : State) : Host.Outcome State Fault Refusal :=
  ok (s.hostRow c 0x32 (fun s => s.forceList c))

/-- STAGE_REGS (R346). -/
def execCmdStageRegs (c : HostCmd) (s : State) : Host.Outcome State Fault Refusal :=
  ok (s.hostRow c 0x40 (fun s => s.stageRegs c))

/-- STAGE_SLOTS (R346). -/
def execCmdStageSlots (c : HostCmd) (s : State) : Host.Outcome State Fault Refusal :=
  ok (s.hostRow c 0x41 (fun s => s.stageSlots c))

/-- DISCARD (R348). -/
def execCmdDiscard (c : HostCmd) (s : State) : Host.Outcome State Fault Refusal :=
  ok (s.hostRow c 0x44 (fun s => s.discard c))

/-- PROG_LOAD (R148). -/
def execCmdProgLoad (c : HostCmd) (s : State) : Host.Outcome State Fault Refusal :=
  ok (s.hostRow c 0x50 (fun s => s.progLoad c))

/-- PROG_READ (R331). -/
def execCmdProgRead (c : HostCmd) (s : State) : Host.Outcome State Fault Refusal :=
  ok (s.hostRow c 0x51 (fun s => s.progRead c))

/-- MILL_SEND (R378). -/
def execCmdMillSend (c : HostCmd) (s : State) : Host.Outcome State Fault Refusal :=
  ok (s.hostRow c 0x80 (fun s => s.millSend c))

/-- MILL_READ (R331). -/
def execCmdMillRead (c : HostCmd) (s : State) : Host.Outcome State Fault Refusal :=
  ok (s.hostRow c 0x81 (fun s => s.millReadCmd c))

end Sys2Proof.Machine
end

