-- ==== Sys2Proof/Machine/HostRing.lean ====
section
/-! DEFINITION. The doorbell page, the rings' indices and their errors, the commands that a doorbell read brings, and
the ring setup registers (R322 to R328, R339, R343). -/

namespace Sys2Proof.Machine

/-- A ring is in error (R324): event source 7 with the ring's number. [log 64 DEDUCED] -/
def State.ringError (s : State) (ring : Nat) : State := s.raiseSource 7 ring (s.rawWord 0x2004)

/-! The doorbell page (R322 to R324). -/

/-- A distance of free-running 32-bit indices. -/
def idxGap (a b : Nat) : Nat := (a % 2 ^ 32 + 2 ^ 32 - b % 2 ^ 32) % 2 ^ 32

/-- The size of command ring r. -/
def State.cmdSize (s : State) (r : Nat) : Nat := 2 ^ s.rd (F.HRING_CTRL_cmd_log2 r)

/-- Descriptors of command ring r that the page offers. -/
def State.offered (s : State) (page : Bytes) (r : Nat) : Nat :=
  idxGap (leAt page (4 * r) 4) (SMap.getD s.host.consumed r 0)

/-- A command ring and its completion ring take their indices, or stop in error. [log 64 DEDUCED] -/
def State.takeRing (page : Bytes) (s : State) (r : Nat) : State :=
  if !s.on (F.HRING_CTRL_enable r) || s.on (F.HRING_STATUS_error r) then s
  else
    let written := SMap.getD s.host.written r 0
    let held := idxGap written (leAt page (0x10 + 4 * r) 4)
    if s.cmdSize r < s.offered page r || s.cplSize r < held then (s.wr (F.HRING_STATUS_error r) 1).ringError r
    else
      let s : State := { s with host := { s.host with cplCi := SMap.put s.host.cplCi r (written - held) } }
      s.wrb (F.HRING_STATUS_blocked r) (decide (s.cplSize r ≤ s.cplHeld r))

/-- The event ring takes its index, or stops in error. -/
def State.takeEvents (page : Bytes) (s : State) : State :=
  if !s.on F.EVR_CTRL_enable || s.host.evtError then s
  else
    let held := idxGap s.host.evtWritten (leAt page 0x20 4)
    if 2 ^ s.rd F.EVR_CTRL_size_log2 < held then
      let s : State := { s with host := { s.host with evtError := true } }
      (s.wr F.HOST_ERR_err (setBit (s.rd F.HOST_ERR_err) 4 true)).ringError 4
    else { s with host := { s.host with evtCi := s.host.evtWritten - held } }

/-- A trace ring takes its index, or stops in error. -/
def State.takeTrace (page : Bytes) (s : State) (i : Nat) : State :=
  if !s.on (F.TRR_CTRL_enable i) || bitOf s.host.trcError i then s
  else
    let written := SMap.getD s.host.trcWritten i 0
    let held := idxGap written (leAt page (0x40 + 4 * i) 4)
    if s.trcSize i < held then
      let s : State := { s with host := { s.host with trcError := setBit s.host.trcError i true } }
      (s.wr F.HOST_ERR_err (setBit (s.rd F.HOST_ERR_err) 5 true)).ringError (16 + i)
    else { s with host := { s.host with trcCi := SMap.put s.host.trcCi i (written - held) } }

/-! The commands of a doorbell read. -/

/-- What a command does as it begins, by its opcode (R331). -/
def State.hostOp (s : State) (c : HostCmd) : State :=
  match c.desc.op.toNat with
  | 0x00 => s.complete c 0 0 0 0
  | 0x10 => s.sigRead c
  | 0x11 => s.sigWrite c
  | 0x12 => s.slotStatus c
  | 0x20 => s.loopRead c
  | 0x21 => s.loopWrite c
  | 0x30 => s.forceCmd c
  | 0x31 => s.unforceCmd c
  | 0x32 => s.forceList c
  | 0x40 => s.stageRegs c
  | 0x41 => s.stageSlots c
  | 0x42 => s.checkCmd c
  | 0x43 => s.commitCmd c
  | 0x44 => s.discard c
  | 0x50 => s.progLoad c
  | 0x51 => s.progRead c
  | 0x60 => s.logReadCmd c
  | 0x61 => s.logEraseCmd c
  | 0x70 => s.fwManifestCmd c
  | 0x71 => s.fwDeltaCmd c
  | 0x72 => s.fwActivateCmd c
  | 0x73 => s.fwConfirmCmd c
  | 0x80 => s.millSend c
  | 0x81 => s.millReadCmd c
  | _ => s

/-- A command begins, or not: whether it did. An opcode that R331 does not list completes with BAD_OPCODE.
[log 63 DEDUCED] -/
def State.tryCmd (s : State) (c : HostCmd) : State × Bool :=
  if !s.begins c then (s, false)
  else
    let s := s.consume c.ring.val
    let op := c.desc.op.toNat
    if !(isRingOp op || isMillerOp op) then (s.deny c 3, true) else (s.runCmd c (fun s => s.hostOp c), true)

/-- Of the commands of a doorbell read, in fetch order, those that a test picks run; `left` are the commands fetched
before that have not completed. A command whose ring has one of them waits, and so does any fenced one (R328). -/
def State.runCmds (pick : HostCmd → Bool) (left : List HostCmd) (s : State) : List HostCmd → State × List HostCmd
  | [] => (s, left)
  | c :: cs =>
    if !pick c || left.any (fun d => d.ring == c.ring) || (bitOf c.desc.flags.toNat 0 && !left.isEmpty) then
      s.runCmds pick (left ++ [c]) cs
    else
      match s.tryCmd c with
      | (s, true) => s.runCmds pick left cs
      | (s, false) => s.runCmds pick (left ++ [c]) cs

/-- The fetched commands run (R328): those of the ring engine in fetch order, then those of the miller from the lowest
ring on, then those of the ring engine whose fence a miller command held back. One that cannot begin stays in its ring. -/
def State.runFetched (s : State) (cs : List HostCmd) : State :=
  let miller := fun (c : HostCmd) => isMillerOp c.desc.op.toNat
  let x := s.runCmds (fun c => !miller c) [] cs
  let y := x.1.runCmds miller [] x.2
  (y.1.runCmds (fun c => !miller c) [] y.2).1

/-- The descriptor of a command that is fetched as number n of its ring passes the DMA unit (R404). -/
def State.fetchDesc (s : State) (r n : Nat) : State × Bool :=
  let base := s.hostAddr (0x2040 + 32 * r)
  match s.acAccess 3 0 1 (base + n % s.cmdSize r * 64) 64 with
  | (s, true) => (s, true)
  | (s, false) => (s.dmaError 1 r, false)

/-- Bytes of the buffer that a ring-engine command has fetched before it runs (R323): those it reads. -/
def fetchLen (c : HostCmd) : Nat :=
  if c.desc.op.toNat = 0x11 ∧ c.desc.buf.toNat ≠ 0 then 8 * opAt c 24 4 else 0

/-- The commands of ring r that this doorbell read fetches, of those that its ring holds: as far as 64 descriptors and
64 KiB of buffers go, and none after a miller command (R323, R328). Descriptors left, bytes left, and the index in the
ring go along. [log 64 DEDUCED] -/
def State.fetchRing (s : State) (r : Nat) (room bytes n : Nat) : List HostCmd → State × List HostCmd × Nat × Nat
  | [] => (s, [], room, bytes)
  | c :: cs =>
    if room = 0 ∨ bytes < fetchLen c then (s, [], room, bytes)
    else
      match s.fetchDesc r n with
      | (s, false) => (s, [], room, bytes)
      | (s, true) =>
        if isMillerOp c.desc.op.toNat then (s, [c], room - 1, bytes)
        else
          let x := s.fetchRing r (room - 1) (bytes - fetchLen c) (n + 1) cs
          (x.1, c :: x.2.1, x.2.2)

/-- The commands that a doorbell read fetches, ring 0 first. -/
def State.fetchAll (page : Bytes) (cmds : List HostCmd) (s : State) (room bytes : Nat) : List Nat → State × List HostCmd
  | [] => (s, [])
  | r :: rs =>
    if !s.ringOpen r then s.fetchAll page cmds room bytes rs
    else
      let mine := (cmds.filter (fun c => c.ring.val == r)).take (s.offered page r)
      let x := s.fetchRing r room bytes (SMap.getD s.host.consumed r 0) mine
      let y := x.1.fetchAll page cmds x.2.2.1 x.2.2.2 rs
      (y.1, x.2.1 ++ y.2)

/-- DOORBELL_READ_END (R323, R324, R328): the indices are taken, then the fetched commands run. While R321 stops the ring
engine the read does not end, and with the miller down it serves nothing (R24). -/
def execDoorbellReadEnd (pageOk : Bool) (page : Bytes) (cmds : List HostCmd) (s : State) :
    Host.Outcome State Fault Refusal :=
  if !s.host.reading || !s.dmaOk then ok s
  else
    let s : State := { s with host := { s.host with reading := false } }
    if !s.pd .miller || !s.host.millerUp then ok s
    else
    match s.acAccess 3 0 0 (s.hostAddr 0x2010) 128 with
    | (s, false) => ok (s.dmaError 0 0xFF)
    | (s, true) =>
      if !pageOk then ok (s.dmaError 0 0xFF)
      else
        let s := (upTo 4).foldl (State.takeRing page) s
        let s := (upTo 16).foldl (State.takeTrace page) (State.takeEvents page s)
        let x := State.fetchAll page cmds s 64 65536 (upTo 4)
        let s := x.1.runFetched x.2
        ok { s with fw := { s.fw with served := true } }

/-! MSI-X (R339). -/

/-- MSIX_COAL_TIMEOUT (R339): time_us have passed since the first raise counted. [log 9 DESIGN CHOICE] -/
def execMsixCoalTimeout (v : Fin 128) (s : State) : Host.Outcome State Fault Refusal :=
  if s.pd .hostsvc && SMap.has s.host.coal v.val && s.rd (F.EVT_COAL_time_us v.val) != 0 then ok (s.sendMsix v.val) else ok s

/-- Send the message of vector v that a mask held back, where neither mask holds it now. -/
def State.releaseMsix (s : State) (v : Nat) : State :=
  let w := s.rd (F.MSIX_PBA_pending (v / 32))
  if !bitOf w (v % 32) || s.host.funcMask || s.on (F.MSIX_CTRL_mask v) then s
  else (s.wr (F.MSIX_PBA_pending (v / 32)) (setBit w (v % 32) false)).emit (.msix v)

/-- MSIX_FUNCTION_UNMASK (R339). [log 26 PRESUMED] -/
def execMsixFunctionUnmask (s : State) : Host.Outcome State Fault Refusal :=
  if !s.pd .hostsvc then ok s
  else ok ((upTo 128).foldl State.releaseMsix { s with host := { s.host with funcMask := false } })

/-! Ring setup (R324, R325, R343). -/

/-- A write of RING_CTRL: the sizes while the ring is disabled, then the enable bit. -/
def State.commandRingWrite (s : State) (r v : Nat) : State :=
  let was := s.on (F.HRING_CTRL_enable r)
  let s := if was then s else (s.wr (F.HRING_CTRL_cmd_log2 r) (bitsOf v 5 1)).wr (F.HRING_CTRL_cpl_log2 r) (bitsOf v 10 6)
  let s := s.wr (F.HRING_CTRL_enable r) (v % 2)
  if was || v % 2 = 0 then s
  else
    let s : State := { s with host := { s.host with
      consumed := SMap.del s.host.consumed r, written := SMap.del s.host.written r, cplCi := SMap.del s.host.cplCi r } }
    let s := (s.wr (F.HRING_STATUS_error r) 0).wr (F.HRING_STATUS_blocked r) 0
    let fits := fun (n : Nat) => decide (4 ≤ n) && decide (n ≤ 16)
    if fits (s.rd (F.HRING_CTRL_cmd_log2 r)) && fits (s.rd (F.HRING_CTRL_cpl_log2 r)) then s
    else (s.wr (F.HRING_STATUS_error r) 1).ringError r

/-- A write of EVR_CTRL. -/
def State.eventRingWrite (s : State) (v : Nat) : State :=
  let was := s.on F.EVR_CTRL_enable
  let s := if was then s else s.wr F.EVR_CTRL_size_log2 (bitsOf v 5 1)
  let s := s.wr F.EVR_CTRL_enable (v % 2)
  if was || v % 2 = 0 then s
  else
    let s : State := { s with host := { s.host with evtWritten := 0, evtCi := 0, evtDropped := 0, evtError := false } }
    let n := s.rd F.EVR_CTRL_size_log2
    if 6 ≤ n ∧ n ≤ 16 then s
    else
      let s : State := { s with host := { s.host with evtError := true } }
      (s.wr F.HOST_ERR_err (setBit (s.rd F.HOST_ERR_err) 4 true)).ringError 4

/-- A write of TRR_CTRL. -/
def State.traceRingWrite (s : State) (i v : Nat) : State :=
  let was := s.on (F.TRR_CTRL_enable i)
  let s := if was then s else s.wr (F.TRR_CTRL_size_log2 i) (bitsOf v 4 1)
  let s := s.wr (F.TRR_CTRL_enable i) (v % 2)
  if was || v % 2 = 0 then s
  else
    let s : State := { s with host := { s.host with
      trcWritten := SMap.del s.host.trcWritten i, trcCi := SMap.del s.host.trcCi i
      trcError := setBit s.host.trcError i false } }
    let n := s.rd (F.TRR_CTRL_size_log2 i)
    if 4 ≤ n ∧ n ≤ 12 then s
    else
      let s : State := { s with host := { s.host with trcError := setBit s.host.trcError i true } }
      (s.wr F.HOST_ERR_err (setBit (s.rd F.HOST_ERR_err) 5 true)).ringError (16 + i)

/-- RING_ENABLE_WRITE (R324, R325): setup registers take writes only while the ring's enable bit is 0, and enabling a
ring sets its counts to 0. [log 64 DEDUCED] -/
def execRingEnableWrite (ring : HostRing) (v : Word32) (s : State) : Host.Outcome State Fault Refusal :=
  if !s.pd .hostsvc then ok s
  else
    match ring with
    | .command r => ok (s.commandRingWrite r.val v.toNat)
    | .event => ok (s.eventRingWrite v.toNat)
    | .trace i => ok (s.traceRingWrite i.val v.toNat)

/-- POLICY_LOCK_WRITE (R343): a write of 1 locks RING_POLICY until a warm or cold reset. -/
def execPolicyLockWrite (v : Word32) (s : State) : Host.Outcome State Fault Refusal :=
  if s.pd .hostsvc && v.toNat % 2 == 1 then ok (s.wr F.POLICY_LOCK_lock 1) else ok s

/-! The host link (R321, R337, R341). -/

/-- FLR (R341). [log 26 PRESUMED] -/
def execFlr (s : State) : Host.Outcome State Fault Refusal :=
  if s.pd .hostsvc then ok (s.hostReset true false) else ok s

/-- The PCIe link is down (R341): the ring engine stops, and completions that wait fail. [log 65 DEDUCED] -/
def State.linkLost (s : State) : State :=
  let waits := s.host.waiting
  let s : State := { s with host := { s.host with linkDown := true, reading := false, waiting := [] } }
  let s := waits.foldl (fun s e => s.dmaError 3 e.ring) s
  (s.wr F.HOST_STATUS_speed 0).wr F.HOST_STATUS_l1 0

/-- HOST_LINK_DOWN (R341, R337). -/
def execHostLinkDown (s : State) : Host.Outcome State Fault Refusal :=
  if !s.pd .hostsvc || s.host.linkDown then ok s
  else
    let s := s.linkLost
    let s : State := { s with host := { s.host with halted := true } }
    let s := s.hostState
    ok (s.raiseSource 8 (s.rawWord 0x2004) 0)

/-- May the link enter L1 or L1.2 (R321): the doorbell interval is at least 1 ms, and no DMA is pending?
[log 115 DEDUCED] -/
def State.l1Ok (s : State) : Bool :=
  decide (1000000 ≤ min 1000 (max 1 (s.rd F.HOST_CTRL_db_interval)) * s.turnNs) && !s.host.reading &&
    s.host.waiting.isEmpty

/-- HOST_LINK_TRAINED (R318, R321, R337, R343): the link trains at a rate, on one, two or four lanes, and `l1` says that
the host's ASPM settings would have it in L1 or L1.2. [log 115 DEDUCED] -/
def execHostLinkTrained (speed : Fin 7) (width : LinkWidth) (l1 : Bool) (s : State) : Host.Outcome State Fault Refusal :=
  if !s.pd .hostsvc || s.host.perst then ok s
  else
    let s : State := { s with host := { s.host with linkDown := speed.val == 0 } }
    let lanes := match width with
      | .x1 => 1
      | .x2 => 2
      | .x4 => 4
    let s := (s.wr F.HOST_STATUS_speed speed.val).wr F.HOST_STATUS_width lanes
    let s := (s.wrb F.HOST_STATUS_l1 (l1 && speed.val != 0 && s.l1Ok)).hostState
    ok (s.raiseSource 8 (s.rawWord 0x2004) 0)

/-- PERST_CHANGE (R341, R456): asserted, it acts as an FLR, resets the configuration space and takes the link down;
deasserted, it may wake the module. -/
def execPerstChange (asserted : Bool) (s : State) : Host.Outcome State Fault Refusal :=
  if asserted then
    let s : State := { s with host := { s.host with perst := true } }
    if !s.pd .hostsvc then ok s
    else
      let s : State := { s with host := { s.host with linkDown := true, waiting := [] } }
      let s := (s.hostReset true false).wr F.HOST_STATUS_speed 0
      ok ((s.wr F.HOST_STATUS_l1 0).hostState)
  else
    let was := s.host.perst
    let s : State := { s with host := { s.host with perst := false } }
    if was then ok (s.wake 2) else ok s

/-- What the ring engine held back is written once R321 allows it again. [log 65 DEDUCED] -/
def State.resumeHost (s : State) : State :=
  if !s.dmaOk then s
  else
    let waits := s.host.waiting
    let s : State := { s with host := { s.host with waiting := [] } }
    waits.foldl State.writeCpl s

/-- PM_STATE_CHANGE (R321). [log 65 DEDUCED] -/
def execPmStateChange (dstate : Fin 4) (busMaster : Bool) (s : State) : Host.Outcome State Fault Refusal :=
  if !s.pd .hostsvc then ok s
  else
    let s : State := { s with host := { s.host with dstate := dstate.val, busMaster := busMaster } }
    ok s.resumeHost.hostState

end Sys2Proof.Machine
end

