-- ==== Sys2Proof/Machine/Power.lean ====
section
/-! DEFINITION. The power ladder, the wake sources and the resets (chapter 21). -/

namespace Sys2Proof.Machine

/-! Requests (R453, R458). -/

/-- A request is refused (R453). -/
def State.refusePower (s : State) : State :=
  let s : State := { s with pwr := { s.pwr with waitHandover := none } }
  s.pwrEvt 1

/-- A request below Feathered or a reset is judged by the ply state and the key (R453): carried out at once, after a
handover that this orders, or refused. Kind 0 is a rung, 1 a warm reset, 2 a commanded cold start. -/
def State.acceptDown (s : State) (kind target : Nat) : State :=
  let go := fun (s : State) =>
    let s : State := { s with pwr := { s.pwr with waitHandover := some (kind, target) } }
    s.carryOut
  if s.plyState == 2 && s.partnerStandby then
    if s.pwr.waitHandover.isSome then { s with pwr := { s.pwr with waitHandover := some (kind, target) } }
    else if s.handoverOk && s.plyUp then
      let s : State := { s with pwr := { s.pwr with waitHandover := some (kind, target) } }
      s.sendOrder 6 s.orderBoundary 0 .handover
    else s.refusePower
  else if s.isActive then (if s.key == 3 then go s else s.refusePower)
  else go s

/-- A request for a rung while no change is in progress (R451, R453, R456). [log 80 DEDUCED] -/
def State.requestRung (s : State) (target : Nat) : State :=
  let r := s.rd F.PWR_STATUS_rung
  if target = 7 ∨ s.act F.PWR_CTRL_floor < target then s.refusePower
  else if target < r then (if wakesFrom 0 r then s.wakeTo 0 target else s)
  else if target = r then s
  else if target = 1 then
    if s.rd F.FW_STATUS_state = 1 ∨ s.rd F.FW_STATUS_state = 3 then s.refusePower else s.startRung 1
  else s.acceptDown 0 target

/-- PWR_REQ_GO (R453, R458): a request during a change waits for its end. -/
def execPwrReqGo (v : Word32) (s : State) : Host.Outcome State Fault Refusal :=
  if !s.pd .wake || !bitOf v.toNat 3 then ok s
  else
    let target := v.toNat % 8
    if s.on F.PWR_STATUS_moving then ok { s with pwr := { s.pwr with queued := some target } }
    else ok (s.requestRung target)

/-! Rung steps (R452, R454, R457). -/

/-- The change in progress ends; what arrived during it is acted on, a wake before a request (R458). [log 80 DEDUCED] -/
def State.endMove (s : State) : State :=
  let p := s.pwr
  let s : State := { s with pwr := { s.pwr with queued := none, wakeFrom := none } }
  let s := (s.wr F.PWR_STATUS_moving 0).pwrEvt 0
  match p.wakeFrom, p.queued with
  | some n, _ => if wakesFrom n (s.rd F.PWR_STATUS_rung) then s.wakeTo n 0 else s
  | none, some t => s.requestRung t
  | none, none => s

/-- The module is at a rung; the change ends where that is its target. [log 80 DEDUCED] -/
def State.atRung (s : State) (r : Nat) : State :=
  let s := s.wr F.PWR_STATUS_rung r
  if s.rd F.PWR_STATUS_target = r then s.endMove else s

/-- One step down (R454): what each domain needs before it turns off. [log 80 DEDUCED] -/
def State.stepDown (s : State) (r : Nat) : State :=
  if r = 3 ∧ (s.tasks.flushing.isSome ∨ s.hop.writing) then s
  else
    let s := if r = 1 then s.quitRole 8 else if r = 2 then s.closeBypass else s
    let s := s.turnOffTo (rungDomains (r + 1))
    let s := if r = 2 ∧ 4 ≤ s.rd F.PWR_STATUS_target then s.startFlush else s
    s.atRung (r + 1)

/-- One step up (R452, R464): the control domains turn on only with the holdup store charged, and the recovery ROM stays
where it is (R441). [log 80 DEDUCED] -/
def State.stepUp (s : State) (r : Nat) : State :=
  if r = 2 ∧ !s.on F.PWR_STATUS_holdup_ok then s
  else
    let s := s.turnOnTo (rungDomains (r - 1))
    if s.fw.recovery then s.enterRecovery else s.atRung (r - 1)

/-- RUNG_STEP_DONE (R454). [log 80 DEDUCED] -/
def execRungStepDone (s : State) : Host.Outcome State Fault Refusal :=
  let r := s.rd F.PWR_STATUS_rung
  let t := s.rd F.PWR_STATUS_target
  if !s.on F.PWR_STATUS_moving then ok s
  else if r < t then ok (s.stepDown r)
  else if t < r then ok (s.stepUp r)
  else ok s.endMove

/-! Wakes (R456). -/

/-- SERVICE_BUTTON_PRESS (R489, R456). -/
def execServiceButtonPress (s : State) : Host.Outcome State Fault Refusal := ok (s.wake 1)

/-- The working second: PD_TIME's, or with PD_TIME off that of the keep-island calendar (R265, R466). -/
def State.keepSecond (s : State) : Nat := if s.pd .time then s.workSec else s.time.calendar

/-- KEEP_ALARM_FIRE (R456, R468): the working second has reached KEEP_ALARM. [log 86 DEDUCED] -/
def execKeepAlarmFire (s : State) : Host.Outcome State Fault Refusal :=
  ok (if s.pwr.keepAlarm = 0 || s.keepSecond < s.pwr.keepAlarm then s else s.wake 5)

/-- PARTNER_SILENT_WAKE (R456). -/
def execPartnerSilentWake (s : State) : Host.Outcome State Fault Refusal := ok ((s.wr F.PLY_STATUS_tok_in 0).wake 4)

/-! Resets (R453, R460 to R462). -/

/-- PWR_RESET_WARM (R453, R461). -/
def execPwrResetWarm (s : State) : Host.Outcome State Fault Refusal :=
  if s.pd .wake then ok (s.acceptDown 1 0) else ok s

/-- PWR_RESET_COLD (R453, R460). [log 81 DEDUCED] -/
def execPwrResetCold (s : State) : Host.Outcome State Fault Refusal :=
  if s.pd .wake then ok (s.acceptDown 2 0) else ok s

/-- PWR_RESET_PARTNER (R462): refused where the link is down or the partner is active. -/
def execPwrResetPartner (s : State) : Host.Outcome State Fault Refusal :=
  let p := s.rd F.PLY_STATUS_partner_state
  if !s.pd .wake then ok s
  else if s.isActive && s.plyUp && p != 1 && p != 2 then ok (s.sendState 0x220 0 0 [])
  else ok (s.pwrEvt 1)

/-- WARM_RESET (R461): an accepted request is carried out. [log 81 DEDUCED] -/
def execWarmReset (s : State) : Host.Outcome State Fault Refusal :=
  if s.pwr.warmWanted then ok (s.warmReset 3) else ok s

/-- PARTNER_ORDERED_RESET (R462). [log 81 DEDUCED] -/
def execPartnerOrderedReset (s : State) : Host.Outcome State Fault Refusal :=
  if !s.pwr.partnerWanted then ok s
  else if s.isActive then ok { s with pwr := { s.pwr with partnerWanted := false } }
  else ok (s.warmReset 6)

/-- AUTO_RESTART (R285): a warm reset 100 ms after an abdication that no descent caused, at most 3 times an hour. -/
def execAutoRestart (s : State) : Host.Outcome State Fault Refusal :=
  let recent := s.ply.restarts.filter (fun j => decide (s.workSec < j + 3600))
  if s.plyState == 6 && s.aon F.PLY_CTRL_auto_restart && s.rd F.PLY_REASON_abdication != 8 && decide (recent.length < 3) then
    let s : State := { s with ply := { s.ply with restarts := s.workSec :: recent } }
    ok (s.warmReset 4)
  else ok s

/-! The input and the holdup store (R463, R464, R466, R467). -/

/-- What the shedding sequence had left is completed before the start (R315). [log 84 DEDUCED] -/
def State.finishShedding (s : State) : State :=
  if !s.pwr.shedding then s
  else
    let s := s.writeQueued (fun e => isGasp e.trigger)
    let s : State := match s.tasks.flushing with
      | none => s
      | some c =>
        let r := SMap.getD s.tasks.retain c ⟨false, 0, []⟩
        { s with tasks := { s.tasks with flushing := none, retain := SMap.put s.tasks.retain c { r with good := true } } }
    { s with pwr := { s.pwr with shedding := false } }

/-- INPUT_GOOD (R463): 12 V has returned, and the module starts from Keep. The supply reads what it is: a free value in
the range of R463. [log 55 DESIGN CHOICE, 84 DEDUCED] -/
def execInputGood (straps : BitVec 8) (keepOk button : Bool) (s : State) : Host.Outcome State Fault Refusal :=
  if s.pwr.inputGood then ok s
  else
    let f := s.free
    let s := (f.2.finishShedding.turnOffTo 0x001).readStraps straps.toNat
    ok ((s.wr F.PWR_SUPPLY_input_mv (10800 + f.1 % 5584)).coldStart 0 keepOk button)

/-- COMMANDED_COLD_START (R460): 10 ms after every domain but PD_KEEP went off. -/
def execCommandedColdStart (s : State) : Host.Outcome State Fault Refusal :=
  if s.pwr.coldWanted then ok (s.coldStart 2 true false) else ok s

/-- HOLDUP_CHARGED (R464): the upper domains may turn on, and a module held at Reefed goes on. -/
def execHoldupCharged (s : State) : Host.Outcome State Fault Refusal :=
  let s := s.wr F.PWR_STATUS_holdup_ok 1
  match s.pwr.wantUp with
  | none => ok s
  | some t =>
    let s : State := { s with pwr := { s.pwr with wantUp := none } }
    if s.on F.PWR_STATUS_moving || s.rd F.PWR_STATUS_rung ≤ t then ok s else ok (s.startRung t)

/-- HOLDUP_TIMEOUT (R464): the module stays at Reefed until the store is charged. -/
def execHoldupTimeout (s : State) : Host.Outcome State Fault Refusal :=
  if s.on F.PWR_STATUS_holdup_ok then ok s
  else
    let s := s.pwrEvt 5
    if s.on F.PWR_STATUS_moving && s.rd F.PWR_STATUS_rung == 2 && s.rd F.PWR_STATUS_target < 2 then
      let s : State := { s with pwr := { s.pwr with wantUp := some (s.rd F.PWR_STATUS_target) } }
      ok (s.wr F.PWR_STATUS_target 2).endMove
    else ok s

/-- HOLDUP_LOW (R464): the rung does not change. -/
def execHoldupLow (s : State) : Host.Outcome State Fault Refusal := ok ((s.wr F.PWR_STATUS_holdup_ok 0).pwrEvt 5)

/-- CELL_LOW (R467): below 2.7 V; how far below is a free value. [log 55 DESIGN CHOICE] -/
def execCellLow (s : State) : Host.Outcome State Fault Refusal :=
  let f := s.free
  ok (((f.2.wr F.PWR_SUPPLY_cell_mv (f.1 % 2700)).wr F.PWR_STATUS_cell_low 1).pwrEvt 4)

end Sys2Proof.Machine
end

