-- ==== Sys2Proof/Machine/Seal.lean ====
section
/-! DEFINITION. The general seal units (R393 to R395, R398). -/

namespace Sys2Proof.Machine

/-- The initial remainder (R389). -/
def sealInit : Nat := 0xFFFFFFFF

/-- The remainder of unit u. -/
def State.sealRem (s : State) (u : Nat) : Nat := SMap.getD s.seals u sealInit

/-- May a writer reach unit u: the units run, and the host's writes to the miller's units are dropped (R393)? -/
def State.gsTakes (s : State) (u : Nat) (host : Bool) : Bool := s.pd .bins && !(host && decide (u < 4))

/-- Is unit u started? -/
def State.gsBusy (s : State) (u : Nat) : Bool := bitOf (s.rd F.SEAL_STATUS_busy) u

/-- SEAL_STATUS.busy with the bit of unit u written. -/
def State.setGsBusy (s : State) (u : Nat) (b : Bool) : State := s.wr F.SEAL_STATUS_busy (setBit (s.rd F.SEAL_STATUS_busy) u b)

/-- GS_START (R394, R395): the remainder at its initial value, the count 0, the unit busy. [log 2 DESIGN CHOICE] -/
def execGsStart (u : Fin 8) (host : Bool) (s : State) : Host.Outcome State Fault Refusal :=
  if !s.gsTakes u.val host then ok s
  else
    let s : State := { s with seals := SMap.del s.seals u.val }
    ok (((s.setGsBusy u.val true).wr (F.GS_COUNT_bytes u.val) 0).wr (F.GS_RESULT_seal u.val) 0)

/-- GS_STOP (R398). -/
def execGsStop (u : Fin 8) (host : Bool) (s : State) : Host.Outcome State Fault Refusal :=
  if !s.gsTakes u.val host then ok s else ok (s.setGsBusy u.val false)

/-- Bytes enter a unit in their order; a unit that is not started drops them (R394). -/
def State.gsFeed (s : State) (u : Nat) (host : Bool) (b : Bytes) : State :=
  if !s.gsTakes u host then s
  else if !s.gsBusy u then s.wr F.SEAL_STATUS_idle_feed (setBit (s.rd F.SEAL_STATUS_idle_feed) u true)
  else
    let r := crcRun (s.sealRem u) b
    let s : State := { s with seals := SMap.put s.seals u r }
    (s.add (F.GS_COUNT_bytes u) b.length).wr (F.GS_RESULT_seal u) (r ^^^ 0xFFFFFFFF)

/-- GS_FEED_B (R394): one byte. -/
def execGsFeedB (u : Fin 8) (host : Bool) (v : Byte) (s : State) : Host.Outcome State Fault Refusal :=
  ok (s.gsFeed u.val host [v])

/-- GS_FEED_H (R394): two bytes, lowest first. -/
def execGsFeedH (u : Fin 8) (host : Bool) (v : BitVec 16) (s : State) : Host.Outcome State Fault Refusal :=
  ok (s.gsFeed u.val host (leBytes 2 v.toNat))

/-- GS_FEED_W (R394): four bytes, lowest first. -/
def execGsFeedW (u : Fin 8) (host : Bool) (v : Word32) (s : State) : Host.Outcome State Fault Refusal :=
  ok (s.gsFeed u.val host (leBytes 4 v.toNat))

end Sys2Proof.Machine
end

