-- ==== Sys2Proof/Machine/Skein.lean ====
section
/-! DEFINITION. The Skein links: frames that arrive, joining and lost stations, chain breaks, delays, proxies and
counters (chapter 04), and a partner's frame that is not marked shadow (R292). -/

namespace Sys2Proof.Machine

/-- The map of alive counters without the combinations of port p, but for those a test keeps. [log 40 DEDUCED] -/
def forgetPort {α : Type} (p : Nat) (keep : Nat → Bool) (m : SMap α) : SMap α :=
  m.filter (fun e => e.1 % 256 / 16 != p || keep (e.1 / 256))

/-- SKEIN_LINK_CHANGE (R98, R102, R396, R397): the lane of port p completes training, or goes down. The counters of
BRAKE frames are the brake domain's and are kept. [log 40 DEDUCED] -/
def execSkeinLinkChange (p : Fin 16) (link : LinkLevel) (s : State) : Host.Outcome State Fault Refusal :=
  let p := p.val
  if !s.pd .skein || !s.aon (F.SK_CTRL_enable p) then ok s
  else match link with
    | .up =>
      let s := s.wr (F.SK_STATUS_link p) 2
      let s := s.wr (F.SK_STATUS_chain p) (if (s.portStations p).isEmpty then 0 else 1)
      let s := s.setPort p { s.port p with marksMissing := 0, marksRun := 0, markSeen := false, echoOut := [] }
      ok { s with skein := { s.skein with
        rxAlive := forgetPort p (fun _ => false) s.skein.rxAlive,
        txAlive := forgetPort p (fun t => t == 3) s.skein.txAlive } }
    | .training => ok (s.laneDown p 1)
    | .down => ok (s.laneDown p 0)

/-- INPUT_FRAME_RECEIVED (R33, R80, R81, R96, R97, R99). -/
def execInputFrameReceived (p : Fin 16) (frame : Bytes) (s : State) : Host.Outcome State Fault Refusal :=
  if !s.skHears p.val then ok s else ok (s.takeInputFrame p.val false frame)

/-- PARTNER_FRAME_NOT_SHADOW (R292). -/
def execPartnerFrameNotShadow (epoch : BitVec 28) (proxy brake : Bool) (s : State) : Host.Outcome State Fault Refusal :=
  let e := epoch.toNat
  let exempt := proxy || (brake && e == s.epoch && s.ply.partnerTracking && !s.ply.partnerActive)
  if !s.isActive || exempt || e < s.epoch then ok s
  else if s.epoch < e || !s.isHome then ok ((s.plyEvt 8).abdicate 5)
  else
    let s := s.plyEvt 8
    ok { s with ply := { s.ply with raiseNext := true } }

/-- PARTNER_FRAME_CROSSED (R79, R81, R87). [log 52 DEDUCED] -/
def execPartnerFrameCrossed (p : Fin 16) (frame : Bytes) (s : State) : Host.Outcome State Fault Refusal :=
  if !s.skHears p.val then ok s else ok (s.takeCrossed p.val frame)

/-- JOIN_FRAME_RECEIVED (R93 to R97). -/
def execJoinFrameReceived (p : Fin 16) (frame : Bytes) (s : State) : Host.Outcome State Fault Refusal :=
  if !s.skHears p.val then ok s else ok (s.takeJoin p.val frame)

/-- JOIN_ANSWER (R88, R95): the SETUP frame that answers a fitting JOIN; it waits where the port has sent one in this
turn. [log 42 DEDUCED] -/
def execJoinAnswer (p pos : Fin 16) (s : State) : Host.Outcome State Fault Refusal :=
  let n := 16 * p.val + pos.val
  if !(s.posn n).owesAnswer || s.setupSent p.val then ok s
  else
    let s := s.setPosn n { s.posn n with owesAnswer := false }
    if s.stnState n == 2 then ok (s.sendSetup n) else ok s

/-- TURN_MARK_RECEIVED (R90, R98): the far end's mark. `arrival` is its time since the boundary it marks, in
1/256 ns; the delay that the partner reports comes by a path the spec does not lay out (free value).
[log 10 DESIGN CHOICE, 41 DESIGN CHOICE] -/
def execTurnMarkReceived (p : Fin 16) (_turn6 : BitVec 6) (offset : BitVec 10) (arrival : BitVec 32) (s : State) : Host.Outcome State Fault Refusal :=
  let p := p.val
  if !s.skHears p then ok s
  else
    let s := s.setPort p { s.port p with markSeen := true }
    if s.rd (F.SK_STATUS_chain p) = 2 then ok s
    else
      let far := arrival.toNat - offset.toNat
      let s := s.wr (F.SK_OWD_FAR_owd p) far
      if !s.plyUp then ok s
      else
        let f := s.free
        let near := f.1 % 2 ^ 32
        let s := f.2.wr (F.SK_OWD_NEAR_owd p) near
        -- End 1 measures D01, end 0 measures D10.
        let asym : Int := if s.skEnd = 1 then (far : Int) - near else (near : Int) - far
        ok (s.setPort p { s.port p with asym := asym })

/-- ECHO_RSP_RECEIVED (R90): the answer to an outstanding request renews the mean over the last 16.
[log 10 DESIGN CHOICE] -/
def execEchoRspReceived (p pos : Fin 16) (seq : BitVec 8) (elapsed : BitVec 32) (echoTurn : BitVec 16) (s : State) : Host.Outcome State Fault Refusal :=
  let x := s.port p.val
  if !s.skHears p.val || !x.echoOut.contains (pos.val, seq.toNat) then ok s
  else
    let n := 16 * p.val + pos.val
    let s := s.setPort p.val { x with echoOut := x.echoOut.erase (pos.val, seq.toNat) }
    let rtts := ((elapsed.toNat - echoTurn.toNat) :: (s.posn n).rtts).take 16
    let s := s.setPosn n { s.posn n with rtts := rtts }
    ok (s.wr (F.SK_STN_RTT_rtt p.val pos.val) (meanRtt rtts))

/-- SETUP_RECORD_REPEAT (R88, R90): the active resends a joined station's record, unless the port has sent a SETUP in
this turn. [log 42 DEDUCED] -/
def execSetupRecordRepeat (p pos : Fin 16) (s : State) : Host.Outcome State Fault Refusal :=
  let n := 16 * p.val + pos.val
  if s.isActive && !s.setupSent p.val && (s.stnState n == 2 || s.stnState n == 3) then ok (s.sendSetup n) else ok s

/-- CHAIN_BROKEN (R98): two turns without the far end's mark. -/
def execChainBroken (p : Fin 16) (s : State) : Host.Outcome State Fault Refusal :=
  let p := p.val
  if s.skHears p && s.rd (F.SK_STATUS_chain p) == 1 && decide (2 ≤ (s.port p).marksMissing) then
    ok (((s.wr (F.SK_STATUS_chain p) 2).wr (F.SK_OWD_FAR_owd p) 0).skEvt p 3)
  else ok s

/-- CHAIN_INTACT (R98): marks in 16 consecutive turns. -/
def execChainIntact (p : Fin 16) (s : State) : Host.Outcome State Fault Refusal :=
  let p := p.val
  if s.skHears p && s.rd (F.SK_STATUS_chain p) == 2 && decide (16 ≤ (s.port p).marksRun) then
    ok ((s.wr (F.SK_STATUS_chain p) 1).skEvt p 4)
  else ok s

/-- STATION_LOST (R96, R101). -/
def execStationLost (p pos : Fin 16) (s : State) : Host.Outcome State Fault Refusal :=
  let n := 16 * p.val + pos.val
  if s.pd .skein && s.stnState n == 3 && decide (s.act (F.STATION_MAP_1_holdoff n) ≤ s.rd (F.SK_STN_STATE_missed p.val pos.val)) then
    ok (s.setStn n 4 (some 1))
  else ok s

/-- JOINING_TIMEOUT (R96): 64 turns without an INPUT frame. [log 9 DESIGN CHOICE] -/
def execJoiningTimeout (p pos : Fin 16) (s : State) : Host.Outcome State Fault Refusal :=
  let n := 16 * p.val + pos.val
  if s.pd .skein && s.stnState n == 2 then ok (s.setStn n 1 none) else ok s

/-- BUDGET_COMPARISON (R89). [log 27 DEDUCED] -/
def execBudgetComparison (p : Fin 16) (s : State) : Host.Outcome State Fault Refusal :=
  if !s.skHears p.val then ok s
  else
    let late := s.overBudget p.val
    let s := s.wrb (F.SK_STATUS_over_budget p.val) late
    ok (if late then s.skEvt p.val 8 else s)

/-- PROXY_START (R100): two turns after the active first reported the station unreached. -/
def execProxyStart (p pos : Fin 16) (s : State) : Host.Outcome State Fault Refusal :=
  let n := 16 * p.val + pos.val
  let due := match SMap.find s.skein.proxyFrom n with
    | some k => decide (k + 2 ≤ s.turn.k)
    | none => false
  if s.isStandby && due && !s.skein.proxy.contains n then
    let s : State := { s with skein := { s.skein with proxy := n :: s.skein.proxy } }
    ok (s.proxyReg p.val)
  else ok s

/-- PROXY_STOP (R100): two turns after the active again reached the station. -/
def execProxyStop (p pos : Fin 16) (s : State) : Host.Outcome State Fault Refusal :=
  let n := 16 * p.val + pos.val
  if s.skein.proxy.contains n && !SMap.has s.skein.proxyFrom n then
    let s : State := { s with skein := { s.skein with proxy := s.skein.proxy.erase n } }
    ok (s.proxyReg p.val)
  else ok s

/-- SK_CLEAR_CNT (R102). -/
def execSkClearCnt (p : Fin 16) (s : State) : Host.Outcome State Fault Refusal :=
  if !s.pd .skein then ok s
  else ok ((upTo 7).foldl (fun s j => s.wr (F.SK_CNT_count p.val j) 0) s)

end Sys2Proof.Machine
end

