-- ==== Sys2Proof/Machine/Access.lean ====
section
/-! DEFINITION. Register writes, internal memory through BAR2, the access-control locks and records, and the test and
debug access port (R4, R319, R320, R346, R406 to R411). -/

namespace Sys2Proof.Machine

/-! Locks and first-violation records (R406, R408). -/

/-- Does an armed commit change region n of unit u? -/
def State.regionArmed (s : State) (u n : Nat) : Bool :=
  let offs := [(F.AC_BASE_LO_base u n).off, (F.AC_BASE_HI_addr u n).off, (F.AC_LIMIT_LO_limit u n).off,
    (F.AC_LIMIT_HI_addr u n).off]
  match s.hop.armed with
  | none => false
  | some c => c.changes.any (fun e => offs.contains e.1)

/-- A write of AC_LOCK (R406): each region named locks, or is refused while an armed commit changes it.
[log 89 DEDUCED] -/
def State.lockRegions (s : State) (u v : Nat) : State :=
  if !s.pd .bins then s
  else
    (bitsSet 32 v).foldl (fun s n =>
      if s.regionArmed u n then s.wr F.AC_STATUS_lock_refused (setBit (s.rd F.AC_STATUS_lock_refused) u true)
      else s.wr (F.AC_LOCK_lock u) (setBit (s.rd (F.AC_LOCK_lock u)) n true)) s

/-- AC_LOCK_WRITE (R406). [log 89 DEDUCED] -/
def execAcLockWrite (u : Fin 4) (v : Word32) (s : State) : Host.Outcome State Fault Refusal :=
  ok (s.lockRegions u.val v.toNat)

/-- The first-violation record of unit u is cleared (R408). [log 89 DEDUCED] -/
def State.clearViolation (s : State) (u : Nat) : State :=
  if !s.pd .bins then s
  else
    [F.AC_VIOL_INFO_valid u, F.AC_VIOL_INFO_kind u, F.AC_VIOL_INFO_region u, F.AC_VIOL_INFO_requester u,
      F.AC_VIOL_INFO_length u, F.AC_VIOL_INFO_locked u, F.AC_VIOL_ADDR_LO_addr u, F.AC_VIOL_ADDR_HI_addr u].foldl
      (fun s f => s.wr f 0) s

/-- AC_VIOL_CLEAR (R408). [log 89 DEDUCED] -/
def execAcViolClear (u : Fin 4) (s : State) : Host.Outcome State Fault Refusal := ok (s.clearViolation u.val)

/-! Register writes (R4, R319, R346). -/

/-- What a meaning leaves. -/
def settle (s : State) (o : Host.Outcome State Fault Refusal) : State :=
  match o with
  | .next t => t
  | _ => s

/-- A field takes its bits of a written word by its type (R4). RWL fields are RING_POLICY's, which POLICY_LOCK locks. -/
def State.writeField (off v : Nat) (s : State) (r : FieldRow) : State :=
  let f := r.fld off
  let x := bitsOf v (r.lo + r.width - 1) r.lo
  let k := writeMask off r.lo r.width
  match r.ty with
  | .rw => s.wr f (clearBits (s.rd f) k ||| (x &&& k))
  | .w1c => s.wr f (clearBits (s.rd f) x)
  | .w1s => s.wr f (s.rd f ||| (x &&& k))
  | .rwl => if s.on F.POLICY_LOCK_lock then s else s.wr f x
  | .ro => s
  | .wo => s
  | .stg => s

/-- Does a setup register take no write now: a ring's address while its ring is enabled (R325), a trace register while
its group is not idle (R214), an increment's fraction on a follower (R243)? -/
def State.holdsWrite (s : State) (off : Nat) : Bool :=
  if off = 0x2020 ∨ off = 0x2024 then s.on F.EVR_CTRL_enable
  else if 0x2040 ≤ off ∧ off < 0x20C0 ∧ off % 32 < 16 then s.on (F.HRING_CTRL_enable ((off - 0x2040) / 32))
  else if 0x2100 ≤ off ∧ off < 0x2200 ∧ off % 16 < 8 then s.on (F.TRR_CTRL_enable ((off - 0x2100) / 16))
  else if 0x80100 ≤ off ∧ off < 0x80200 ∧ off % 32 < 8 then s.grpState ((off - 0x80100) / 32) != 0
  else if 0x81000 ≤ off ∧ off < 0x81800 then s.grpState (s.rd (F.TRACE_SRC_group ((off - 0x81000) / 32))) != 0
  else if off = 0x5080 then s.domRole .a != 1
  else if off = 0x5088 then s.domRole .b != 1
  else false

/-- Registers whose write is wholly an effect of its own. -/
def ownWrite (off : Nat) : Bool :=
  off == 0x801C || off == 0x2028 || off == 0x5084 || off == 0x508C || off == 0x5098 || off == 0x50A8 ||
    off == 0x9C00 || off == 0xAC00 || (0x2050 ≤ off && off < 0x20D0 && off % 32 == 16) ||
    (0x2100 ≤ off && off < 0x2200 && off % 16 == 8) || (0xC010 ≤ off && off < 0xC020) ||
    (0xC040 ≤ off && off < 0xC080)

/-- A write of HOST_CTRL: the enable bit going from 0 to 1 ends a halt (R341, R343). [log 65 DEDUCED] -/
def State.hostCtrlWritten (s : State) (was : Bool) : State :=
  let s : State := if !was && s.on F.HOST_CTRL_enable then { s with host := { s.host with halted := false } } else s
  s.hostState

/-- A write of ALARM_CTRL of alarm a arms it or not (R260, R263): an instant already past sets late. [log 92 DEDUCED] -/
def State.alarmWritten (s : State) (a : Nat) : State :=
  if !s.on (F.ALARM_CTRL_enable a) then
    { s with time := { s.time with alarms := SMap.del s.time.alarms a } }
  else
    let sec := s.rd (F.ALARM_SEC_HI_sec a) * 2 ^ 32 + s.rd (F.ALARM_SEC_LO_sec a)
    let t := sec * unitSec + s.rd (F.ALARM_NS_ns a) * unitNs + s.rd (F.ALARM_CTRL_frac a) * 2 ^ 24
    let s := s.wrb (F.ALARM_CTRL_late a) (decide (t < s.time.work))
    { s with time := { s.time with alarms := SMap.put s.time.alarms a t } }

/-- The _HI registers of host-memory addresses, whose write puts the pair into effect (R343, R365). -/
def addrHi (off : Nat) : Bool :=
  off == 0x2014 || off == 0x2024 || (0x2040 ≤ off && off < 0x20C0 && (off % 32 == 4 || off % 32 == 12)) ||
    (0x2100 ≤ off && off < 0x2200 && off % 16 == 4)

/-- A host-memory address takes effect with the write of its _HI word (R365). -/
def State.addrWritten (s : State) (off : Nat) : State :=
  { s with host := { s.host with
      addrs := SMap.put s.host.addrs (off - 4) (s.rawWord (off - 4) + 2 ^ 32 * s.rawWord off) } }

/-- Several one-bit commands of one register, in bit order. [log 86 DEDUCED] -/
def State.cmdBits (s : State) (v : Nat) (fs : List (State → Host.Outcome State Fault Refusal)) : State :=
  fs.zipIdx.foldl (fun s e => if bitOf v e.2 then settle s (e.1 s) else s) s

/-- The effect of a write on the registers below 0x6000, beyond the fields it wrote. -/
def State.writeLow (s : State) (off v : Nat) (was : Bool) : State :=
  let w : Word32 := BitVec.ofNat 32 v
  if off = 0x2000 then s.hostCtrlWritten was
  else if addrHi off then s.addrWritten off
  else if off = 0x2028 then s.eventRingWrite v
  else if 0x2050 ≤ off ∧ off < 0x20D0 ∧ off % 32 = 16 then s.commandRingWrite ((off - 0x2050) / 32) v
  else if 0x2100 ≤ off ∧ off < 0x2200 ∧ off % 16 = 8 then s.traceRingWrite ((off - 0x2100) / 16) v
  else if 0x3800 ≤ off ∧ off < 0x4000 ∧ off % 16 = 12 then s.releaseMsix ((off - 0x3800) / 16)
  else if off = 0x404C then s.cmdBits v [execSlackClearMin, execSlackClearSlips]
  else if off = 0x4214 then s.cmdBits v [execRetainFlushNow]
  else if off = 0x5014 then s.cmdBits v [execTimeSnap, execTimeRestart .a, execTimeRestart .b]
  else if off = 0x5084 then settle s (execIncWrite .a w s)
  else if off = 0x508C then settle s (execIncWrite .b w s)
  else if off = 0x5098 then settle s (execSlewTicksWrite .a w s)
  else if off = 0x50A8 then settle s (execSlewTicksWrite .b w s)
  else if off = 0x5184 then (if bitOf v 7 then settle s (execLeapApply s) else s)
  else if 0x5600 ≤ off ∧ off < 0x5680 ∧ off % 16 = 12 then s.alarmWritten ((off - 0x5600) / 16)
  else s

/-- The effect of a write on the windows of the Geneva-Seal units, beyond the fields it wrote. -/
def State.writeSeal (s : State) (off v : Nat) : State :=
  let w : Word32 := BitVec.ofNat 32 v
  let u := Fin.ofNat 8 ((off - 0xB100) / 32)
  match off % 32 with
  | 0 => s.cmdBits v [execGsStart u true, execGsStop u true]
  | 4 => settle s (execGsFeedB u true (BitVec.ofNat 8 v) s)
  | 8 => settle s (execGsFeedH u true (BitVec.ofNat 16 v) s)
  | 12 => settle s (execGsFeedW u true w s)
  | _ => s

/-- The effect of a write on the registers of the PLY, the brake and the mills, beyond the fields it wrote. -/
def State.writeUnits (s : State) (off v : Nat) : State :=
  let w : Word32 := BitVec.ofNat 32 v
  if off = 0x7018 then s.cmdBits v [execPlyCmdRejoin, execPlyCmdHandover, execPlyCmdLeave]
  else if off = 0x8010 then settle s (execBrkClearWrite w s)
  else if off = 0x801C then settle s (execBrkSoftWrite w s)
  else if off = 0x8024 then settle s (execBrkFirstClearWrite w s)
  else if off = 0x9020 then s.cmdBits v [execMbCmdRestart 0, execMbCmdUnmute 0, execMbCmdClearCnt 0]
  else if off = 0xA020 then s.cmdBits v [execMbCmdRestart 1, execMbCmdUnmute 1, execMbCmdClearCnt 1]
  else if off = 0x9C00 then settle s (execMbRdSelWrite 0 w s)
  else if off = 0xAC00 then settle s (execMbRdSelWrite 1 w s)
  else s

/-- A write of KEEP_ALARM_HI takes both halves. -/
def State.keepAlarmWritten (s : State) : State :=
  { s with pwr := { s.pwr with keepAlarm := s.rd F.KEEP_ALARM_HI_sec * 2 ^ 32 + s.rd F.KEEP_ALARM_LO_sec } }

/-- The effect of a write on the registers from 0xC000 to 0xFFFF, beyond the fields it wrote. -/
def State.writeLast (s : State) (off v : Nat) : State :=
  let w : Word32 := BitVec.ofNat 32 v
  if 0xC010 ≤ off ∧ off < 0xC020 then s.lockRegions ((off - 0xC010) / 4) v
  else if 0xC040 ≤ off ∧ off < 0xC080 ∧ off % 16 = 0 then
    (if bitOf v 0 then s.clearViolation ((off - 0xC040) / 16) else s)
  else if off = 0xD014 then s.cmdBits v [execRecManual]
  else if off = 0xF008 then settle s (execPwrReqGo w s)
  else if off = 0xF01C then s.cmdBits v [execPwrResetWarm, execPwrResetPartner, execPwrResetCold]
  else if off = 0xF02C then s.keepAlarmWritten
  else s

/-- The effect of a write on the registers from 0x6000 to 0xFFFF, beyond the fields it wrote. -/
def State.writeMid (s : State) (off v : Nat) : State :=
  if off < 0xB000 then s.writeUnits off v
  else if 0xB100 ≤ off ∧ off < 0xB200 then s.writeSeal off v
  else s.writeLast off v

/-- The effect of a write on the registers from 0x1_0000 on, beyond the fields it wrote. -/
def State.writeHigh (s : State) (off v : Nat) : State :=
  if 0x10000 ≤ off ∧ off < 0x20000 ∧ off % 0x1000 = 0 then
    (if bitOf v 2 then settle s (execSkClearCnt (Fin.ofNat 16 ((off - 0x10000) / 0x1000)) s) else s)
  else if 0x80100 ≤ off ∧ off < 0x80200 ∧ off % 32 = 8 then
    let g := Fin.ofNat 8 ((off - 0x80100) / 32)
    s.cmdBits v [execTraceArm g, execTraceStop g, execTraceForce g]
  else s

/-- A write of the word v to the register at a BAR0 offset that no unit refuses (R4, R346): its fields by their types,
then what the register's own rules add. A block that is off drops it (R459). [log 86 DEDUCED] -/
def State.regWrite (s : State) (off v : Nat) : State :=
  if !s.pd (blockPd off) || s.holdsWrite off then s
  else
    let was := s.on F.HOST_CTRL_enable
    let o := s.mapOff off
    let s := if ownWrite off then s else ((rowsAt o).foldl (State.writeField o v) s).stageBar0 o v
    if off < 0x6000 then s.writeLow off v was else if off < 0x10000 then s.writeMid off v else s.writeHigh off v

/-- BAR0_REGISTER_WRITE (R319, R346, R402): a write that is no aligned word is dropped; the HOST unit judges the rest.
[log 2 DESIGN CHOICE] -/
def execBar0RegisterWrite (off : BitVec 20) (v : Word32) (aligned : Bool) (s : State) : Host.Outcome State Fault Refusal :=
  let o := off.toNat
  if !s.pd .hostsvc then ok s
  else if !aligned || o % 4 != 0 then ok (s.wr F.HOST_ERR_err (setBit (s.rd F.HOST_ERR_err) 7 true))
  else if unjudged o 1 v.toNat then ok (s.regWrite o v.toNat)
  else
    match s.acAccess 0 1 0 (bar0Addr o) 4 with
    | (s, true) => ok (s.regWrite o v.toNat)
    | (s, false) => ok s

/-! Internal memory (R320, R421, R428). -/

/-- A byte of a firmware slot, where the spec says what stands there. -/
def State.slotByte (s : State) (slot i : Nat) : Option Byte :=
  let m := s.fwManifest slot
  if i < m.length then m[i]?
  else
    (manEntries m).findSome? (fun o =>
      let r := partRange m o
      if r.1 ≤ i ∧ i < r.1 + r.2 then (s.fwPart slot (byteAt m o))[i - r.1]? else none)

/-- A byte of MRAM, where the spec says what stands there. [log 90 DESIGN CHOICE] -/
def State.mramByte (s : State) (a : Nat) : Option Byte :=
  let i := a - 0x100000000
  if 0x4000000 ≤ i ∧ i < 0x6000000 then s.slotByte ((i - 0x4000000) / 0x1000000) (i % 0x1000000)
  else if 0x7000000 ≤ i ∧ i < 0x7400000 then (SMap.getD s.recorder.records ((i - 0x7000000) / 1024) [])[i % 1024]?
  else none

/-- The memories of R320: 0 the bins, 1 MRAM, 2 DRAM; none where no memory lies or its domain is off.
[log 25 DEDUCED] -/
def State.memAt (s : State) (a len : Nat) : Option Nat :=
  let within := fun (lo hi : Nat) => decide (lo ≤ a) && decide (a + len ≤ hi)
  if within 0 0x3000000 then (if s.pd .bins then some 0 else none)
  else if within 0x100000000 0x108000000 then (if s.pd .miller then some 1 else none)
  else if within 0x400000000 0x800000000 then (if s.pd .dram then some 2 else none)
  else none

/-- Bytes of MRAM: what the spec does not lay out is free. [log 90 DESIGN CHOICE] -/
def State.mramRead (s : State) (a len : Nat) : State × Bytes :=
  let f := s.free
  (f.2, (upTo len).map (fun i => (s.mramByte (a + i)).getD (BitVec.ofNat 8 (f.1 >>> (8 * i)))))

/-- Bytes of internal memory, none where no memory lies. [log 25 DEDUCED] -/
def State.intRead (s : State) (a len : Nat) : State × Option Bytes :=
  match s.memAt a len with
  | none => (s, none)
  | some 1 =>
    let x := s.mramRead a len
    (x.1, some x.2)
  | some _ => (s, some (s.memRead a len))

/-- An uncorrectable DRAM error in a channel's buffer sets its ecc bit (R213). -/
def State.traceEcc (s : State) (a len : Nat) : State :=
  (upTo 64).foldl (fun s ch =>
    let lo := s.chanBase ch
    if s.on (F.TRACE_SRC_enable ch) && decide (lo < a + len) && decide (a < lo + 8 * s.chanSize ch) then
      s.wr (F.TRACE_STATUS_ecc ch) 1
    else s) s

/-- A completer abort. [log 89 DEDUCED] -/
def State.abort (s : State) : State := s.emit (.bar none)

/-- A BAR2 read that the HOST unit passes. -/
def State.bar2Read (s : State) (a len : Nat) (ecc : Bool) : State :=
  if ecc && s.memAt a len == some 2 then (s.traceEcc a len).abort
  else
    match s.intRead a len with
    | (s, none) => s.abort
    | (s, some b) => s.emit (.bar (some b))

/-- A BAR2 write that the HOST unit passes. -/
def State.bar2Write (s : State) (a : Nat) (b : Bytes) : State :=
  match s.memAt a b.length with
  | some 0 => s.memWrite a b
  | some 2 => s.memWrite a b
  | _ => s.wr F.HOST_ERR_err (setBit (s.rd F.HOST_ERR_err) 6 true)

/-- BAR2_ACCESS (R320, R402, R404): one TLP through the window, judged by the HOST unit.
[log 2 DESIGN CHOICE, 25 DEDUCED] -/
def execBar2Access (off : BitVec 28) (len : Fin 4097) (wdata : Option Bytes) (ecc : Bool) (s : State) :
    Host.Outcome State Fault Refusal :=
  let a := s.rd F.BAR2_BASE_base * 0x10000000 + off.toNat
  if !s.pd .hostsvc then ok s
  else
    match wdata with
    | none =>
      match s.acAccess 0 0 1 a len.val with
      | (s, false) => ok s.abort
      | (s, true) => ok (s.bar2Read a len.val ecc)
    | some b =>
      match s.acAccess 0 1 1 a len.val with
      | (s, false) => ok s
      | (s, true) => ok (s.bar2Write a b)

/-! The test and debug access port (R410, R411). -/

/-- The port's register shifts a value out, and the instruction in force is the one named. -/
def State.shiftOut (s : State) (ir v : Nat) : State :=
  let s : State := { s with dbg := { s.dbg with ir := ir, driven := false, clamped := false } }
  s.emit (.debug v)

/-- The bits of a list, the first the least significant. [log 91 DEDUCED] -/
def boolsNat (l : List Bool) : Nat := l.foldr (fun b a => bit b + 2 * a) 0

/-- TRST (R410). -/
def execTrst (s : State) : Host.Outcome State Fault Refusal := ok { s with dbg := DebugSt.cold }

/-- BYPASS (R410): one bit, captured as 0. -/
def execBypass (s : State) : Host.Outcome State Fault Refusal := ok (s.shiftOut 0xFF 0)

/-- IDCODE (R410). -/
def execIdcode (s : State) : Host.Outcome State Fault Refusal := ok (s.shiftOut 0x01 0x10018F0D)

/-- SAMPLE_PRELOAD (R410): the cells' levels come out, and the given ones are preloaded. [log 91 DEDUCED] -/
def execSamplePreload (cells : List Bool) (s : State) : Host.Outcome State Fault Refusal :=
  let v := boolsNat (Config.scanCells s.fresh)
  let s : State := { s with fresh := s.fresh + 1, dbg := { s.dbg with boundary := cells } }
  ok (s.shiftOut 0x02 v)

/-- May EXTEST and CLAMP take effect (R411)? -/
def State.testOk (s : State) : Bool := s.key == 3 && (s.plyState == 0 || s.plyState == 6)

/-- EXTEST or CLAMP where they may not take effect (R411). -/
def State.refuseTest (s : State) : State :=
  let s := s.shiftOut 0xFF 0
  { s with dbg := { s.dbg with refused := true } }

/-- EXTEST (R410, R411): the cells drive. -/
def execExtest (cells : List Bool) (s : State) : Host.Outcome State Fault Refusal :=
  if !s.testOk then ok s.refuseTest
  else
    let v := boolsNat (Config.scanCells s.fresh)
    let s := ({ s with fresh := s.fresh + 1 } : State).shiftOut 0x00 v
    ok { s with dbg := { s.dbg with boundary := cells, driven := true } }

/-- CLAMP (R410, R411): the preloaded cells hold the outputs. -/
def execClamp (s : State) : Host.Outcome State Fault Refusal :=
  if !s.testOk then ok s.refuseTest
  else
    let s := s.shiftOut 0x03 0
    ok { s with dbg := { s.dbg with clamped := true } }

/-- DBG_ADDR (R410). -/
def execDbgAddr (v : BitVec 40) (s : State) : Host.Outcome State Fault Refusal :=
  let s := s.shiftOut 0x20 s.dbg.addr
  ok { s with dbg := { s.dbg with addr := v.toNat } }

/-- The size in bytes, the direction and the internal address that DBG_ADDR named. -/
def State.dbgLen (s : State) : Nat := match bitsOf s.dbg.addr 39 38 with
  | 0 => 1
  | 1 => 2
  | _ => 4
def State.dbgWrites (s : State) : Bool := bitOf s.dbg.addr 37
def State.dbgTarget (s : State) : Nat := s.dbg.addr % 2 ^ 35

/-- Is an internal address a BAR0 offset (R399)? -/
def inBar0 (a : Nat) : Bool := 0x200000000 ≤ a && a < 0x200100000

/-- The result of a debug access. -/
def State.dbgDone (s : State) (v : Nat) (err : Bool) : State :=
  { s with dbg := { s.dbg with data := v, error := err } }

/-- A read of a register and what reading it does: a low word captures the higher ones, and the mill-bus window locks
and releases its buffer (R365, R374). -/
def State.regRead (s : State) (off : Nat) : State × Nat :=
  let v := s.bar0Word off
  let s : State := if s.pd (blockPd off) then
      { s with caps := SMap.puts s.caps ((highWords off).map (fun h => (h, s.rawWord h))) }
    else s
  if off = 0x9C04 then s.lockWindow 0
  else if off = 0xAC04 then s.lockWindow 1
  else if off = 0x9C54 then s.freeWindow 0
  else if off = 0xAC54 then s.freeWindow 1
  else (s, v)

/-- LOW_WORD_READ (R319, R365, R399): a host read of a BAR0 word captures the register's higher words; one that is no
aligned word ends with completer abort. [log 2 DESIGN CHOICE] -/
def execLowWordRead (off : BitVec 20) (aligned : Bool) (s : State) : Host.Outcome State Fault Refusal :=
  let o := off.toNat
  if !aligned || o % 4 != 0 then ok (s.emit (.bar none)) else ok (s.hostRead o (fun s => s.regRead o))

/-- A debug read (R399, R404, R410): zeros and an error where the DEBUG unit refuses it or nothing answers.
[log 91 DEDUCED] -/
def State.dbgRead (s : State) : State :=
  let a := s.dbgTarget
  let len := s.dbgLen
  let off := a - 0x200000000
  match (if inBar0 a && unjudged off 0 0 then (s, true) else s.acAccess 1 0 0 a len) with
  | (s, false) => s.dbgDone 0 true
  | (s, true) =>
    if inBar0 a then
      if len = 4 ∧ a % 4 = 0 then
        let x := s.regRead off
        x.1.dbgDone x.2 false
      else s.dbgDone 0 true
    else
      match s.intRead a len with
      | (s, none) => s.dbgDone 0 true
      | (s, some b) => s.dbgDone (leNat b) false

/-- DBG_DATA_CAPTURE (R410): the capture starts the read that DBG_ADDR names. [log 91 DEDUCED] -/
def execDbgDataCapture (s : State) : Host.Outcome State Fault Refusal :=
  let s := if s.dbgWrites then s else s.dbgRead
  ok (s.shiftOut 0x21 s.dbg.data)

/-- A debug write (R404, R407, R410). [log 91 DEDUCED] -/
def State.dbgWriteWord (s : State) (v : Nat) : State :=
  let a := s.dbgTarget
  let len := s.dbgLen
  let off := a - 0x200000000
  match (if inBar0 a && unjudged off 1 v then (s, true) else s.acAccess 1 1 0 a len) with
  | (s, false) => s.dbgDone v true
  | (s, true) =>
    if inBar0 a then
      (if len = 4 ∧ a % 4 = 0 then (s.regWrite off v).dbgDone v false else s.dbgDone v true)
    else
      match s.memAt a len with
      | some 0 => (s.memWrite a (leBytes len v)).dbgDone v false
      | some 2 => (s.memWrite a (leBytes len v)).dbgDone v false
      | _ => s.dbgDone v true

/-- DBG_DATA_UPDATE (R410): the update starts the write that DBG_ADDR names. [log 91 DEDUCED] -/
def execDbgDataUpdate (v : Word32) (s : State) : Host.Outcome State Fault Refusal :=
  let s : State := { s with dbg := { s.dbg with ir := 0x21 } }
  ok (if s.dbgWrites then s.dbgWriteWord v.toNat else s.dbgDone v.toNat s.dbg.error)

/-- DBG_STATUS (R410): busy, error, refused. -/
def execDbgStatus (s : State) : Host.Outcome State Fault Refusal :=
  ok (s.shiftOut 0x22 (bit s.dbg.busy + 2 * bit s.dbg.error + 4 * bit s.dbg.refused))

/-- The words of DBG_ACSTAT (R410). [log 91 DEDUCED] -/
def State.acStat (s : State) : List Nat :=
  (upTo 4).map (fun u => s.bar0Word (0xC010 + 4 * u)) ++ [s.bar0Word 0xC020] ++
    (upTo 4).flatMap (fun u => (upTo 4).map (fun i => s.bar0Word (0xC040 + 16 * u + 4 * i)))

/-- DBG_ACSTAT (R407, R410): the locks and records, least significant bit first, as far as its 512 bits hold them. -/
def execDbgAcstat (s : State) : Host.Outcome State Fault Refusal :=
  ok (s.shiftOut 0x23 (s.acStat.foldr (fun w a => w + 2 ^ 32 * a) 0 % 2 ^ 512))

end Sys2Proof.Machine
end

