-- ==== Sys2Proof/Machine/Hyica.lean ====
section
/-! DEFINITION. The service port and Hyica (R441 to R448, R490). -/

namespace Sys2Proof.Machine

/-! Requests and responses (R444, R445, R447, R448). -/

/-- Is a Hyica packet served: the port's domain on and its link at 1000BASE-T, Hyica enabled (the recovery ROM ignores
the setting), and the packet intact? -/
def State.served (s : State) (q : HyicaReq) : Bool :=
  s.pd .hostsvc && s.pd .miller && s.host.millerUp && s.rd F.SVC_STATUS_link == 2 && (s.fw.recovery || s.aon F.FW_CTRL_svc_en) && q.good

/-- A response (R445): the request's opcode + 0x80, its session and sequence, the status and the payload, sealed. -/
def reply (q : HyicaReq) (op session status : Nat) (ident : Nat) (payload : Bytes) : Bytes :=
  sealed (beBytes 2 0x4859 ++ beBytes 1 1 ++ beBytes 1 (op + 0x80) ++ beBytes 4 session ++ beBytes 4 q.seq.toNat ++
    beBytes 2 payload.length ++ beBytes 2 status ++ beBytes 8 ident ++ payload)

/-- A response goes out. -/
def State.respond (s : State) (q : HyicaReq) (op session status : Nat) (payload : Bytes) : State :=
  s.emit (.service (reply q op session status Config.moduleIdent.toNat payload))

/-- A response goes out and is kept, to be repeated (R448). -/
def State.respondKept (s : State) (q : HyicaReq) (op session status : Nat) (payload : Bytes) : State :=
  let s := s.respond q op session status payload
  { s with fw := { s.fw with
      lastOp := op, lastSeq := q.seq.toNat
      lastReply := reply q op session status Config.moduleIdent.toNat payload } }

/-- Is a request a repetition of the one before it? [log 87 DEDUCED] -/
def State.repeats (s : State) (q : HyicaReq) (op : Nat) : Bool :=
  s.fw.lastOp == op && s.fw.lastSeq == q.seq.toNat && !s.fw.lastReply.isEmpty &&
    (op == 2 || beAt s.fw.lastReply 4 4 == q.session.toNat)

/-- The identity that a packet must name: 0 in HELLO (R445). [log 87 DEDUCED] -/
def identOk (q : HyicaReq) (op : Nat) : Bool :=
  if op = 1 then q.ident == 0 else q.ident == Config.moduleIdent

/-- A request that needs the open session (R448): its repetition, its tests in order, then what it does, which gives the
status and the payload of its response. [log 87 DEDUCED] -/
def State.inSession (s : State) (q : HyicaReq) (op : Nat) (act : State → State × Nat × Bytes) : State :=
  let session := q.session.toNat
  if !s.served q then s
  else if s.repeats q op then s.emit (.service s.fw.lastReply)
  else if s.fw.session ≠ some session then s.respond q op session 2 []
  else if q.seq.toNat ≠ (s.fw.lastSeq + 1) % 2 ^ 32 then s.respond q op session 8 []
  else if !identOk q op then s.respondKept q op session 1 []
  else
    let r := act s
    r.1.respondKept q op session r.2.1 r.2.2

/-- A request that needs no session (R448): in the open session it takes its place in the sequence. -/
def State.anySession (s : State) (q : HyicaReq) (op : Nat) (act : State → State × Nat × Bytes) : State :=
  if s.fw.session = some q.session.toNat ∧ op ≠ 1 then s.inSession q op act
  else if !s.served q then s
  else if !identOk q op then s.respond q op q.session.toNat 1 []
  else
    let r := act s
    r.1.respond q op q.session.toNat r.2.1 r.2.2

/-- A status with no payload. -/
def plain (r : State × Nat) : State × Nat × Bytes := (r.1, r.2, [])

/-- A request whose payload must be empty. -/
def emptyPayload (q : HyicaReq) (act : State → State × Nat × Bytes) (s : State) : State × Nat × Bytes :=
  if q.payload.isEmpty then act s else (s, 1, [])

/-- A request for building and activation, at TEND or STOP (R433); the recovery ROM has no key. [log 87 DEDUCED] -/
def tended (act : State → State × Nat × Bytes) (s : State) : State × Nat × Bytes :=
  if s.fw.recovery || 2 ≤ s.key then act s else (s.fwNote 4, 4, [])

/-- A request that needs STOP. -/
def stopped (act : State → State × Nat × Bytes) (s : State) : State × Nat × Bytes :=
  if s.key == 3 then act s else (s.fwNote 4, 4, [])

/-! The opcodes (R446). -/

/-- HELLO (R446). -/
def execHyHello (q : HyicaReq) (s : State) : Host.Outcome State Fault Refusal :=
  ok (s.anySession q 0x01 (emptyPayload q (fun s =>
    let ver := s.rawWord 0xE014 + 2 ^ 32 * s.rawWord 0xE018
    (s, 0, beBytes 4 s.fwStatus ++ beBytes 8 ver ++ beBytes 2 (s.rd F.FW_STATUS_lifecycle) ++
      beBytes 2 (bit s.fw.recovery)))))

/-- OPEN (R448): a session with a free number, or BUSY while one is open. [log 88 DESIGN CHOICE] -/
def execHyOpen (q : HyicaReq) (s : State) : Host.Outcome State Fault Refusal :=
  if !s.served q then ok s
  else if s.repeats q 0x02 then ok (s.emit (.service s.fw.lastReply))
  else if s.fw.session.isSome then ok (s.respond q 0x02 q.session.toNat 3 [])
  else if !identOk q 0x02 ∨ !q.payload.isEmpty then ok (s.respond q 0x02 q.session.toNat 1 [])
  else
    let f := s.free
    let n := 1 + f.1 % (2 ^ 32 - 1)
    let s : State := { f.2 with fw := { f.2.fw with session := some n } }
    let s := (s.wr F.SVC_STATUS_open 1).fwEvt 5
    ok (s.respondKept q 0x02 n 0 (beBytes 4 n))

/-- The session ends. -/
def State.endSession (s : State) : State :=
  let s : State := { s with fw := { s.fw with session := none } }
  s.wr F.SVC_STATUS_open 0

/-- CLOSE (R446). [log 87 DEDUCED] -/
def execHyClose (q : HyicaReq) (s : State) : Host.Outcome State Fault Refusal :=
  ok (s.inSession q 0x03 (emptyPayload q (fun s => (s.endSession, 0, []))))

/-- STATUS (R446): the registers from FW_STATUS on, 36 bytes. [log 87 DEDUCED] -/
def execHyStatus (q : HyicaReq) (s : State) : Host.Outcome State Fault Refusal :=
  ok (s.anySession q 0x04 (emptyPayload q (fun s =>
    (s, 0, (upTo 9).flatMap (fun i => beBytes 4 (s.ownWord (0xE000 + 4 * i)))))))

/-- MANIFEST (R430, R446). -/
def execHyManifest (q : HyicaReq) (s : State) : Host.Outcome State Fault Refusal :=
  ok (s.inSession q 0x10 (tended (fun s =>
    if q.payload.length < 4 then plain (s.fwNote 1, 1)
    else plain (s.manifestPiece 2 (beAt q.payload 0 4) (q.payload.drop 4)))))

/-- The head of DELTA and IMAGE (R446): part, last flag, two bytes of zero, offset, then data. -/
def State.pieceOf (s : State) (q : HyicaReq) (f : Nat → Nat → Bytes → Bool → State × Nat) : State × Nat × Bytes :=
  let p := q.payload
  if p.length < 8 ∨ 1 < byteAt p 1 ∨ beAt p 2 2 ≠ 0 then plain (s.fwNote 1, 1)
  else plain (f (byteAt p 0) (beAt p 4 4) (p.drop 8) (bitOf (byteAt p 1) 0))

/-- DELTA (R431, R446). -/
def execHyDelta (q : HyicaReq) (s : State) : Host.Outcome State Fault Refusal :=
  ok (s.inSession q 0x11 (tended (fun s => s.pieceOf q (fun p o d last => s.deltaPiece 2 p o d last))))

/-- IMAGE (R442, R446): in the recovery ROM only. -/
def execHyImage (q : HyicaReq) (s : State) : Host.Outcome State Fault Refusal :=
  ok (s.inSession q 0x12 (tended (fun s => s.pieceOf q s.imagePiece)))

/-- ACTIVATE (R435, R446): answered when it is accepted. -/
def execHyActivate (q : HyicaReq) (s : State) : Host.Outcome State Fault Refusal :=
  ok (s.inSession q 0x20 (tended (fun s =>
    if q.payload.length ≠ 1 then plain (s.fwNote 1, 1)
    else if s.fw.recovery then plain (s.fwNote 9, 9)
    else
      let r := s.activate (byteAt q.payload 0)
      (r.1, r.2.1, if r.2.1 = 0 then beBytes 8 r.2.2 else []))))

/-- CONFIRM (R438, R446). -/
def execHyConfirm (q : HyicaReq) (s : State) : Host.Outcome State Fault Refusal :=
  ok (s.inSession q 0x21 (tended (emptyPayload q (fun s => plain s.commandConfirm))))

/-- RECOVER (R441): at STOP, the next start enters the recovery ROM, and a reset follows the response. -/
def execHyRecover (q : HyicaReq) (s : State) : Host.Outcome State Fault Refusal :=
  ok (s.inSession q 0x22 (stopped (emptyPayload q (fun s =>
    let s := s.wr F.FW_STATUS_lifecycle 2
    ({ s with fw := { s.fw with recoverWanted := true } }, 0, [])))))

/-- RECOVER_RESET (R441). -/
def execRecoverReset (s : State) : Host.Outcome State Fault Refusal :=
  if s.fw.recoverWanted then ok (s.warmReset 5) else ok s

/-- MRAM is erased (R443): the committed image and its programs, the retained copies, both slots and the log. -/
def State.eraseMram (s : State) : State :=
  let empty := (upTo 32).map (fun i => (i, ([] : Bytes)))
  let s : State := { s with
    hop := { s.hop with mram := [], writing := false }
    tasks := { s.tasks with retain := [], flushing := none }
    fw := { s.fw with slots := empty, manifests := [(0, []), (1, [])], good := [], build := none, partnerBuilt := none }
    recorder := { s.recorder with records := [], gasp := false } }
  let s := ((s.wr F.REC_STATUS_pointer 0).wr F.REC_STATUS_full 0).wr F.REC_STATUS_reserve 0
  (s.wr F.REC_LAST_SEAL_seal 0).hopState

/-- RETIRE (R443): at STOP. [log 87 DEDUCED] -/
def execHyRetire (q : HyicaReq) (s : State) : Host.Outcome State Fault Refusal :=
  ok (s.inSession q 0x23 (stopped (emptyPayload q (fun s => (s.eraseMram.wr F.FW_STATUS_lifecycle 3, 0, [])))))

/-- HYICA_LOG_READ (R424, R446): one record. -/
def execHyLogRead (q : HyicaReq) (s : State) : Host.Outcome State Fault Refusal :=
  ok (s.anySession q 0x30 (fun s =>
    let i := beAt q.payload 0 4
    if q.payload.length ≠ 8 ∨ beAt q.payload 4 4 ≠ 1 ∨ s.rd F.REC_STATUS_pointer ≤ i then (s, 1, [])
    else (s, 0, s.logRecord i)))

/-- HYICA_SESSION_TIMEOUT (R448): 30 s without a request. [log 87 DEDUCED] -/
def execHyicaSessionTimeout (s : State) : Host.Outcome State Fault Refusal :=
  if s.fw.session.isSome then ok { s.endSession with fw := { s.endSession.fw with lastReply := [] } } else ok s

/-- RECOVERY_IMAGE_DONE (R442): every part verifies: the selector names the new set, pending confirm, and the module cold
starts. R460 lists no kind for this start: the kind it records is one of the cold starts', a free value.
[log 85 DEDUCED] -/
def execRecoveryImageDone (s : State) : Host.Outcome State Fault Refusal :=
  if !s.fw.recovery then ok s
  else
    match s.wholeBuild with
    | none => ok s
    | some b =>
      let s := s.storeBuild b
      let s := ((s.wr F.FW_STATUS_slot s.fwNext).wr F.FW_STATUS_confirm 1).wr F.FW_STATUS_lifecycle 1
      let s : State := { s with fw := { s.fw with was := 0, since := 0 } }
      let f := s.free
      ok (f.2.powerOff.coldStart (f.1 % 3) true false)

/-- NEIGHBOR_DISCOVERY (R444): answered for the module's own address only. [log 24 DESIGN CHOICE] -/
def execNeighborDiscovery (toOwn echo : Bool) (s : State) : Host.Outcome State Fault Refusal :=
  if toOwn && s.pd .hostsvc && s.pd .miller && s.host.millerUp && s.rd F.SVC_STATUS_link == 2 then ok (s.emit (.neighbor echo)) else ok s

/-- SVC_LINK_CHANGE (R490). -/
def execSvcLinkChange (link : Fin 3) (s : State) : Host.Outcome State Fault Refusal :=
  if s.pd .hostsvc then ok (s.wr F.SVC_STATUS_link link.val) else ok s

end Sys2Proof.Machine
end

