-- ==== Sys2Proof/Machine/Orders.lean ====
section
/-! DEFINITION. Orders of the ply and their acknowledgements, mirrored host writes and mill-bus snapshots (R64, R68, R116,
R122, R133, R258, R272, R293 to R295, R352, R512). -/

namespace Sys2Proof.Machine

/-! Abandoned orders (R512). -/

/-- The state without the orders that a test picks. -/
def State.dropOrders (s : State) (p : Order → Bool) : State :=
  { s with ply := { s.ply with orders := s.ply.orders.filter (fun o => !p o) } }

/-- A planned handover comes to nothing (R293): the request of R453 that waited for it is refused, an activation ends
(R437), and a fall-back switches without it (R439). -/
def State.noHandover (s : State) : State :=
  let s := if s.pwr.waitHandover.isSome then s.refusePower else s
  if s.fw.step = 2 then s.endActivation
  else if s.fw.step = 3 then
    let b := s.switchBoundary
    { s with fw := { s.fw with activateAt := some b, falling := true, together := false, step := 0, keyFloor := 0 } }
  else s

/-- This module's own order is abandoned, as its own rule gives (R64, R122, R258, R293, R356). [log 75 DEDUCED] -/
def State.abandonOrder (s : State) (o : Order) : State :=
  let s := s.dropOrders (fun x => x.mine && x.code == o.code && x.seq == o.seq)
  match o.code with
  | 1 => (s.dropArmed (some (3, 1))).finish (fun m => m.op == 0x43) 9 0 0 0
  | 2 => s.finish (fun m => (m.op == 0x30 || m.op == 0x31) && m.order == some o.seq) 9 0 0 0
  | 4 => { s with time := { s.time with switchAt := none } }
  | 6 => if o.boundary = 0 then s.wr F.PLY_STATUS_cmd_refused 1 else s.noHandover
  | _ => s

/-- ORDER_ACK_TIMEOUT (R512): no ACK by 100 µs before the boundary. -/
def execOrderAckTimeout (seq : BitVec 16) (s : State) : Host.Outcome State Fault Refusal :=
  match s.ply.orders.find? (fun o => o.mine && !o.acked && o.boundary != 0 && o.seq == seq.toNat) with
  | some o => ok (s.abandonOrder o)
  | none => ok s

/-- An order is acknowledged: so are the commit it carries and the host command that sent it (R329). -/
def State.ackOrder (s : State) (o : Order) : State :=
  let mark := fun (x : Order) => if x.mine && x.code == o.code && x.seq == o.seq then { x with acked := true } else x
  let ops : List Nat := if o.code = 1 then [0x43] else if o.code = 2 then [0x30, 0x31] else []
  let cmd := fun (m : MillerCmd) => if ops.contains m.op && m.order == some o.seq then { m with acked := true } else m
  let armed := if o.code = 1 then s.hop.armed.map (fun a => { a with acked := true }) else s.hop.armed
  { s with ply := { s.ply with orders := s.ply.orders.map mark },
           hop := { s.hop with armed := armed },
           host := { s.host with outstanding := s.host.outstanding.map cmd } }

/-- ACK_RECEIVED (R272, R293, R297, R512): an order is acknowledged, or refused and so abandoned. A joining module that is
told no capture boundary is refused by the active. [log 56 DESIGN CHOICE, 93 DEDUCED] -/
def execAckReceived (h : PlyHdr) (code seq : BitVec 16) (refused : Bool) (s : State) : Host.Outcome State Fault Refusal :=
  match s.plyTake 0x49 h with
  | (s, false) => ok s
  | (s, true) =>
    match s.ply.orders.find? (fun o => o.mine && !o.acked && o.code == code.toNat && o.seq == seq.toNat) with
    | none => ok (if refused && code.toNat == 8 then s.failJoin 7 else s)
    | some o => ok (if refused then s.abandonOrder o else s.ackOrder o)

/-! Orders received. -/

/-- Can an order still be acknowledged by 100 µs before its boundary (R512)? -/
def State.inTime (s : State) (b : Nat) : Bool :=
  decide (s.turn.k < b) && decide (s.time.work + 100000 * unitNs ≤ s.boundaryU b)

/-- An order is accepted: kept to its boundary and acknowledged. [log 93 DEDUCED] -/
def State.acceptOrder (s : State) (code seq b : Nat) (c : OrderContent) : State :=
  let o : Order := ⟨false, code, seq, b, c, true⟩
  let s : State := { s with ply := { s.ply with orders := s.ply.orders ++ [o] } }
  s.sendAck code seq false

/-- Does the module follow its partner's orders and writes while not active: as standby, as it replays, or untracked? -/
def State.follows3 (s : State) : Bool := s.isStandby || s.plyState == 3 || s.plyState == 5

/-- A whole change list arms the active's commit here (R352, R354, R169). -/
def State.armPartner (s : State) (changes : List (Nat × Nat)) (b digest : Nat) : State :=
  let old := s.hop.active
  let m := applyChanges old changes
  let a : CommitImage := ⟨false, m, RegMap.get m F.HOPPER_PROG_ACT_act, changes, b, digest, true⟩
  let s : State := { s with hop := { s.hop with armed := some a } }
  let s := ((s.wr F.HOPPER_B_LO_b (b % 2 ^ 32)).wr F.HOPPER_B_HI_b (b >>> 32)).wr F.HOPPER_STAGED_SEAL_seal digest
  let s := if changesProgram old m then
      ((s.wr F.ONLINE_STATUS_state 1).wr F.ONLINE_TURN_LO_b (b % 2 ^ 32)).wr F.ONLINE_TURN_HI_b (b >>> 32)
    else s
  s.hopState

/-- ORDER 1 (R352): the parts of a change list, acknowledged once the whole list is held and its digest agrees.
[log 94 DEDUCED] -/
def State.takeCommitOrder (s : State) (seq b digest : Nat) (es : List (Nat × Nat)) (final : Bool) : State :=
  if !s.isStandby then s
  else
    let held := if s.hop.partialSeq = seq then s.hop.partial_ else []
    let l := held ++ es
    let s : State := { s with hop := { s.hop with partial_ := if final then [] else l, partialSeq := seq } }
    if !final then s
    else if stagedDigest l = digest ∧ s.inTime b then (s.armPartner l b digest).sendAck 1 seq false
    else s.sendAck 1 seq true

/-- ORDER 3 (R122): a standby and a joining module follow it and acknowledge, a standby that cannot do so in time leaves
tracking, and one that does not track follows it without acknowledging. -/
def State.takeKeyOrder (s : State) (seq b pos : Nat) : State :=
  let arm := fun (s : State) => ({ s with tasks := { s.tasks with keyNext := some (b, pos) } } : State)
  if s.isStandby && !s.inTime b then arm (s.leaveTracking 5)
  else if s.isStandby || s.plyState == 3 then (arm s).acceptOrder 3 seq b (.key (BitVec.ofNat 2 pos))
  else if s.plyState == 5 then arm s
  else s

/-- ORDER 4 (R258): the standby switches or captures with the active. -/
def State.takeTimeOrder (s : State) (seq b : Nat) (capture : Bool) : State :=
  if !(s.isStandby || s.plyState == 3) || !s.inTime b then s
  else
    let s : State := { s with time := { s.time with switchAt := some (b, capture) } }
    s.acceptOrder 4 seq b (.timeSwitch capture)

/-- ORDER 5 (R116): overrun stop from the named release on, or at once where that has passed. [log 38 DEDUCED] -/
def State.takeOverrunOrder (s : State) (m t : Nat) (trap : Bool) : State :=
  if !s.follows3 then s
  else if s.turn.nextRel ≤ m then { s with tasks := { s.tasks with overrunNext := some (m, t, trap) } }
  else s.overrunStop t trap s.turn.nextRel

/-- ORDER 6 (R119, R293): with boundary 0 a standby's request, which the active tests as its own; else the active's planned
handover. -/
def State.takeHandover (s : State) (seq b : Nat) : State :=
  if b = 0 then
    if s.handoverOk then s.sendOrder 6 s.orderBoundary 0 .handover else s.sendAck 6 seq true
  else
    let s := s.dropOrders (fun o => o.mine && o.code == 6 && o.boundary == 0)
    if s.isStandby && s.inTime b && !s.on F.TURN_WDOG_tripped then s.acceptOrder 6 seq b .handover else s.sendAck 6 seq true

/-- ORDER 7 (R294): the home standby takes the role back. [log 93 DEDUCED] -/
def State.takeRevert (s : State) (seq b : Nat) : State :=
  if s.plyState == 2 && s.partnerStandby && s.inTime b then s.acceptOrder 7 seq b .revert else s.sendAck 7 seq true

/-- ORDER 8 (R295, R296): the capture boundary of a join; a further one is a restart, and the seventeenth fails.
[log 93 DEDUCED] -/
def State.takeCapture (s : State) (seq b : Nat) : State :=
  if s.plyState != 3 then s.sendAck 8 seq true
  else
    let n := if s.ply.capture.isSome then s.ply.captureRestarts + 1 else 0
    if 17 ≤ n then s.failJoin 4
    else
      let s : State := { s with ply := { s.ply with capture := some b, captureRestarts := n, captured := [] } }
      let s := if 4 ≤ s.rd F.PLY_JOIN_phase then s.wr F.PLY_JOIN_phase 4 else s
      s.sendAck 8 seq false

/-- ORDER_RECEIVED (R272, R512): an order by its code. [log 24 DESIGN CHOICE] -/
def execOrderReceived (h : PlyHdr) (order : OrderMsg) (s : State) : Host.Outcome State Fault Refusal :=
  match s.plyTake 0x48 h with
  | (s, false) => ok s
  | (s, true) =>
    let seq := order.seq.toNat
    let b := order.boundary.toNat
    match order.content with
    | .commit es final => ok (s.takeCommitOrder seq b order.digest.toNat es final)
    | .force es => ok (if s.follows3 && s.inTime b then s.acceptOrder 2 seq b (.force es) else s.sendAck 2 seq true)
    | .key pos => ok (s.takeKeyOrder seq b pos.toNat)
    | .timeSwitch capture => ok (s.takeTimeOrder seq b capture)
    | .captured o => ok (if s.isStandby then s.takeCaptured o else s)
    | .overrunStop task trap => ok (s.takeOverrunOrder b task.val trap)
    | .handover => ok (s.takeHandover seq b)
    | .revert => ok (s.takeRevert seq b)
    | .capture => ok (s.takeCapture seq b)

/-! Mirrored writes and snapshots. -/

/-- One mirrored host write (R68, R153, R312, R378). [log 93 DEDUCED] -/
def State.takeMirrored (s : State) (b : Nat) (w : HostWrite) : State :=
  match w with
  | .soft bits => { s with brake := { s.brake with softNext := s.brake.softNext ++ [(b, bits.toNat)] } }
  | .prog slot offset piece last =>
    let s := s.loadPiece slot.val offset.toNat piece
    if last then s.loadEnd slot.val else s
  | _ => { s with image := { s.image with waiting := s.image.waiting ++ [(b, w)] } }

/-- HOST_WRITE_RECEIVED (R68, R272). [log 24 DESIGN CHOICE] -/
def execHostWriteReceived (h : PlyHdr) (b : BitVec 64) (writes : List HostWrite) (s : State) : Host.Outcome State Fault Refusal :=
  match s.plyTake 0x47 h with
  | (s, false) => ok s
  | (s, true) => ok (if s.follows3 then writes.foldl (fun s w => s.takeMirrored b.toNat w) s else s)

/-- MILL_SNAP_RECEIVED (R133, R272, R297, R375). [log 95 DEDUCED] -/
def execMillSnapReceived (h : PlyHdr) (ch : Fin 2) (buf : Fin 64) (words : List Word36) (s : State) : Host.Outcome State Fault Refusal :=
  match s.plyTake 0x46 h with
  | (s, false) => ok s
  | (s, true) =>
    if s.replaying then
      ok { s with ply := { s.ply with recSnaps := s.ply.recSnaps ++ [(h.turn.toNat, ch.val, buf.val, words)] } }
    else ok (if s.follows3 then s.takeSnap ch.val buf.val words else s)

end Sys2Proof.Machine
end

