-- ==== Sys2Proof/Machine/Join.lean ====
section
/-! DEFINITION. STATE frames and JOIN frames of the ply: the sweep, a join's configuration, time and captured state, and
firmware between partners (R267, R282, R283, R295, R296, R434, R437, R462). -/

namespace Sys2Proof.Machine

/-! Items (R272, R282, R296). -/

/-- The state of a loop as words (R192): target, effective set-point, I, D, y_prev, u_f, the mode with the marks of a
transfer owed, manual output, and held auxiliary values. -/
def stateOfLoop (x : LoopSt) : List Nat :=
  ([x.target, x.rf, x.i, x.d, x.yPrev, x.uf,
    ((x.mode + 4 * bit x.started + 8 * bit x.owed + 16 * bit x.wasBraked + 32 * bit x.refused + 64 * bit x.shed : Nat) : Int),
    x.manual, x.auxSp, x.auxCasc, x.auxFf, x.auxTrack] : List Int).map (toBits 64)

/-- A loop with one word of its state written. -/
def putLoopWord (x : LoopSt) (i w : Nat) : LoopSt :=
  let v := sextNat 64 w
  match i with
  | 0 => { x with target := v }
  | 1 => { x with rf := v }
  | 2 => { x with i := v }
  | 3 => { x with d := v }
  | 4 => { x with yPrev := v }
  | 5 => { x with uf := v, u := rsh v 7 }
  | 6 => { x with mode := w % 4, started := bitOf w 2, owed := bitOf w 3, wasBraked := bitOf w 4, refused := bitOf w 5,
                  shed := bitOf w 6 }
  | 7 => { x with manual := v }
  | 8 => { x with auxSp := v }
  | 9 => { x with auxCasc := v }
  | 10 => { x with auxFf := v }
  | _ => { x with auxTrack := v }

/-- Is an item a block of 64 loops? -/
def isBlock (item : Nat) : Bool := decide (0x100 ≤ item) && decide (item < 0x140)

/-- The loops of a block. -/
def blockLoops (item : Nat) : List Nat := (upTo 64).map (fun i => (item - 0x100) * 64 + i)

/-- A task as the active hands it over: as captured, or as it stands. -/
def State.handTask (s : State) (t : Nat) : TaskSt :=
  if s.capturing.isSome then SMap.getD s.ply.capTasks t (s.task t) else s.task t

/-- A loop as the active hands it over. -/
def State.handLoop (s : State) (l : Nat) : LoopSt :=
  if s.capturing.isSome then SMap.getD s.ply.capLoops l (s.loop l) else s.loop l

/-- Words of an item: a task's in the layout that its data stands in (R167). -/
def State.itemLen (s : State) (item : Nat) : Nat :=
  if item < 16 then ((s.dataProg item).map progDataWords).getD 0 else if isBlock item then 64 * loopWords else 0

/-- The words of an item under a choice of tasks and loops. [log 57 DEDUCED] -/
def State.itemWords (s : State) (task : Nat → TaskSt) (loop : Nat → LoopSt) (item first count : Nat) : List Nat :=
  let n := min count (s.itemLen item - first)
  if item < 16 then
    match s.dataProg item with
    | some b => (upTo n).map (fun i => (dataWord b (task item).data (first + i)).toNat)
    | none => []
  else (((blockLoops item).flatMap (fun l => stateOfLoop (loop l))).drop first).take n

/-- The turn of an item's latest commit. -/
def itemTurn (task : Nat → TaskSt) (loop : Nat → LoopSt) (item : Nat) : Nat :=
  if item < 16 then ((task item).lastDone).getD 0
  else (blockLoops item).foldl (fun a l => max a (loop l).sample) 0

/-- Is a commit of a sample before b still to come? [log 56 DESIGN CHOICE] -/
def State.owesCommit (s : State) (b : Nat) : Bool :=
  s.turn.evals.any (fun e => decide (e.1 < b)) ||
    (upTo 16).any (fun t =>
      let x := s.task t
      x.inst.any (fun i => decide (i.sample < b)) || x.waiting.any (fun d => decide (d.sample < b)))

/-- A task's scheduling, trap and halt state (R296). -/
def State.joinTask (s : State) (t : Nat) (x : TaskSt) : JoinTask :=
  ⟨Fin.ofNat 16 t, x.started, x.trapped, s.on (F.TASK_STATUS_overran t), x.first, x.prevSlip, x.slipRun, x.lastDue,
    x.ran, x.mbrSeen⟩

/-- The nodes of a loop as numbers, and back. -/
def LoopNodes.words (n : LoopNodes) : List Int :=
  [(n.status : Int), n.r, n.target, n.y, n.u, n.i, n.uRaw, n.t, n.eb, n.ei, n.dy, n.d, n.p, n.f, n.v, n.uf, (n.mode : Int),
    n.manual]

/-- Nodes from their numbers. -/
def nodesOf (l : List Int) (e : Entry) : LoopNodes :=
  let w := fun (i : Nat) => l.getD i 0
  ⟨(w 0).toNat, w 1, w 2, w 3, w 4, w 5, w 6, w 7, w 8, w 9, w 10, w 11, w 12, w 13, w 14, w 15, (w 16).toNat, w 17, e⟩

/-- What a loop holds beside its words (R192, R296). [log 56 DESIGN CHOICE] -/
def joinLoop (l : Nat) (x : LoopSt) : JoinLoop :=
  ⟨Fin.ofNat 4096 l, x.reqs.map (fun r => (r.start, r.target, r.manual, r.mode)), x.gainFrom,
    x.shown.map (fun n => (n.words, n.entry.value, n.entry.tag))⟩

/-- The same, taken: nothing of the module's own loop stays. -/
def takeLoop (x : LoopSt) (j : JoinLoop) : LoopSt :=
  { x with reqs := j.reqs.map (fun r => ⟨r.1, r.2.1, r.2.2.1, r.2.2.2⟩), gainFrom := j.gains, recent := [], resumed := none,
           shown := j.shown.map (fun e => nodesOf e.1 ⟨e.2.1, e.2.2⟩) }

/-- The captured state that no STATE frame carries, handed over once (R296). [log 56 DESIGN CHOICE] -/
def State.sendCapture (s : State) : State :=
  if s.capturing.isNone || s.ply.capSent then s
  else
    let slots := s.slotList.map (fun n =>
      let c := SMap.getD s.ply.capSlots n (s.cell n)
      (BitVec.ofNat 18 n, c.entry.value, c.entry.tag, c.age))
    let forces := (s.ply.capForces.getD s.image.forces).map (fun e => (BitVec.ofNat 18 e.1, e.2))
    let loops := (s.loops.map (·.1)).map (fun l => joinLoop l (s.handLoop l))
    let snaps := s.tasks.millSnap.map (fun e => (e.1, e.2.1, e.2.2))
    let c : JoinCapture := ⟨slots, forces, (upTo 16).map (fun t => s.joinTask t (s.handTask t)), loops, snaps,
      BitVec.ofNat 2 (s.rd F.TASK_RUN_run_state),
      if s.on F.TASK_RUN_overrun_valid then some (Fin.ofNat 16 (s.rd F.TASK_RUN_overrun_task)) else none⟩
    let s : State := { s with ply := { s.ply with capSent := true } }
    s.emit (.joinCapture c)

/-- The item of a STATE frame that carries an item of R283: a task, or the block of a loop. -/
def chunkItem (i : Nat) : Nat := if i < 16 then i else 0x100 + (i - 16) / 64

/-- May a chunk of an item go now: state that the active owes for diverged items goes ahead of the sweep (R283)? -/
def State.chunkTurn (s : State) (item : Nat) : Bool :=
  s.ply.owed.isEmpty || s.ply.owed.any (fun i => chunkItem i == item)

/-- A chunk has gone: its words leave the capture store (R296), and with its last word an owed item is paid (R283). -/
def State.chunkSent (s : State) (item first n : Nat) : State :=
  let paid := fun (i : Nat) => chunkItem i == item && decide (s.itemLen item ≤ first + n)
  let gone := fun (e : Nat × Nat) => e.1 == item && decide (first ≤ e.2) && decide (e.2 < first + n)
  { s with ply := { s.ply with
      owed := s.ply.owed.filter (fun i => !paid i)
      capWords := s.ply.capWords.filter (fun e => !gone e)
      capOut := if s.capturing.isSome then (item, first, n) :: s.ply.capOut else s.ply.capOut } }

/-- STATE_SEND (R282, R283, R296): a chunk of an item, as captured while a partner joins. Until every sample before b_c has
committed, nothing of the capture goes out. -/
def execStateSend (item : BitVec 16) (first : BitVec 32) (count : Fin 511) (s : State) : Host.Outcome State Fault Refusal :=
  let i := item.toNat
  if s.plyState != 2 || !s.plyUp || s.capturing.any s.owesCommit then ok s
  else
    let s := s.sendCapture
    let ws := s.itemWords s.handTask s.handLoop i first.toNat count.val
    if ws.isEmpty || !s.chunkTurn i then ok s
    else ok ((s.sendState i (itemTurn s.handTask s.handLoop i) first.toNat ws).chunkSent i first.toNat ws.length)

/-! Chunks received. -/

/-- Words of an item written here. -/
def State.putWords (s : State) (item commit first : Nat) (ws : List Nat) : State :=
  if item < 16 then
    let x := s.task item
    let es := ws.zipIdx.map (fun e => (first + e.2, BitVec.ofNat 36 e.1))
    s.setTask item { x with data := SMap.puts x.data es, lastDone := some commit }
  else
    ws.zipIdx.foldl (fun s e =>
      let i := first + e.2
      let l := (item - 0x100) * 64 + i / loopWords
      { s with loops := SMap.put s.loops l { putLoopWord (s.loop l) (i % loopWords) e.1 with sample := commit } }) s

/-- A diverged item's place in its STATE frames: its first word and their number (R283). -/
def State.itemSpan (s : State) (i : Nat) : Nat × Nat :=
  if i < 16 then (0, s.itemLen i) else ((i - 16) % 64 * loopWords, loopWords)

/-- The words of a diverged item that a chunk brings. -/
def State.chunkWords (s : State) (i item first count : Nat) : List (Nat × Nat) :=
  let sp := s.itemSpan i
  if chunkItem i != item then []
  else ((upTo count).map (· + first)).filter (fun w => decide (sp.1 ≤ w) && decide (w < sp.1 + sp.2)) |>.map (fun w => (i, w))

/-- Does a chunk hold words of a diverged item whose state is awaited? -/
def State.wantsChunk (s : State) (item first count : Nat) : Bool :=
  s.ply.diverged.any (fun d => !d.2.2 &&
    (if d.1 < 16 then d.1 == item
     else item == 0x100 + (d.1 - 16) / 64 && decide (first < ((d.1 - 16) % 64 + 1) * loopWords) &&
      decide ((d.1 - 16) % 64 * loopWords < first + count)))

/-- A tracking standby compares a chunk of its own latest commit, or takes the state of a diverged item (R282, R283). -/
def State.checkChunk (s : State) (item commit first : Nat) (ws : List Nat) : State :=
  if itemTurn s.task s.loop item ≠ commit then s
  else if s.wantsChunk item first ws.length then
    let s := s.putWords item commit first ws
    let new := s.ply.diverged.flatMap (fun d => s.chunkWords d.1 item first ws.length)
    let got := s.ply.restored ++ new.filter (fun e => !s.ply.restored.contains e)
    let whole := fun (i : Nat) =>
      let sp := s.itemSpan i
      (upTo sp.2).all (fun w => got.contains (i, sp.1 + w))
    { s with ply := { s.ply with
        restored := got
        diverged := s.ply.diverged.map (fun d => if whole d.1 then (d.1, d.2.1, true) else d) } }
  else if s.itemWords s.task s.loop item first ws.length = ws then s
  else s.leaveTracking 8

/-- What a join must receive before its replay (R192, R296): the data of every task, every block of loops, and what no
STATE frame carries (item 0xFFFF here). [log 57 DEDUCED] -/
def State.captureItems (s : State) : List Nat :=
  0xFFFF :: ((upTo 16).filter (fun t => decide (0 < s.itemLen t)) ++ (upTo 64).map (0x100 + ·))

/-- The replay begins at b_c (R297): samples, releases and deadlines from there on, and of what was told since only what
comes into effect at b_c or later. [log 57 DEDUCED] -/
def State.startReplay (s : State) (b : Nat) : State :=
  let s : State := { s with
    turn := { s.turn with cutoffs := b, nextRel := b, nextDl := b + s.nTurns - 1, startTurn := b, evals := [], views := [],
                          brakedAt := [], dueGroups := [], held := [] }
    image := { s.image with waiting := s.image.waiting.filter (fun e => decide (b ≤ e.1)) }
    ply := { s.ply with
      orders := s.ply.orders.filter (fun o => o.mine || o.code != 2 || decide (b ≤ o.boundary))
      recInputs := s.ply.recInputs.filter (fun e => decide (b ≤ e.1))
      recSnaps := s.ply.recSnaps.filter (fun e => decide (b ≤ e.1))
      backlogWas := s.ply.liveCut - b } }
  (s.wr F.PLY_JOIN_phase 5).showBacklog

/-- An item of the captured state is in; with the last one the replay begins (R295). [log 57 DEDUCED] -/
def State.capturedItem (s : State) (item : Nat) : State :=
  let s : State := { s with ply := { s.ply with captured := item :: s.ply.captured.erase item } }
  if s.captureItems.all s.ply.captured.contains then s.startReplay (s.ply.capture.getD s.turn.k) else s

/-- The last word of a captured item ends it. [log 57 DEDUCED] -/
def State.takeChunk (s : State) (item commit first : Nat) (ws : List Nat) : State :=
  let s := s.putWords item commit first ws
  if first + ws.length = s.itemLen item then s.capturedItem item else s

/-- A chunk of task data or loop state. -/
def State.stateChunk (s : State) (item commit first : Nat) (ws : List Nat) : State :=
  if s.itemLen item < first + ws.length then s
  else if s.isStandby then s.checkChunk item commit first ws
  else if s.plyState == 3 && s.rd F.PLY_JOIN_phase == 4 && s.ply.capture.isSome then s.takeChunk item commit first ws
  else s

/-! Firmware between partners (R434, R437). -/

/-- A chunk of a forwarded delta: its header says where it ends. [log 77 DESIGN CHOICE] -/
def State.partnerDelta (s : State) (p first : Nat) (b : Bytes) : State :=
  let old := if first = 0 then [] else (s.fw.build.map (fun x => SMap.getD x.delta p [])).getD []
  let whole := old ++ b
  let n := deltaLen whole
  let last := decide (64 ≤ whole.length) && decide (n ≤ whole.length)
  (s.deltaPiece 3 p (8 * first) (if last then b.take (n - old.length) else b) last).1

/-- The active's flags of item 0x211: its partner switches at a boundary, alone or with it (R437). [log 78 DEDUCED] -/
def State.orderedSwitch (s : State) (together : Bool) (b : Nat) : State :=
  if s.rd F.FW_STATUS_state = 2 then
    let s := s.wr F.FW_STATUS_state 3
    let s : State := { s with fw := { s.fw with
      activateAt := some b, falling := false, together := false, step := 0, keyFloor := if together then 3 else 2 } }
    s.fwReport 0 0
  else (s.fwNote 9).fwReport 0 0

/-- The report of a partner to the active (R434, R437): its build, its refusal, its acknowledgement, its confirm.
[log 77 DESIGN CHOICE] -/
def State.partnerReport (s : State) (status sum : Nat) : State :=
  let st := status % 8
  let refused := bitsOf status 13 12 = 2
  let s : State := if st = 2 then { s with fw := { s.fw with partnerBuilt := some sum } } else s
  let s := if refused ∧ st ≠ 1 ∧ st ≠ 2 ∧ st ≠ 3 ∧ s.fw.build.isSome then s.fwFail 11 else s
  let s : State := if s.fw.together ∧ st = 3 then { s with fw := { s.fw with together := false } } else s
  if s.fw.step = 1 ∧ refused ∧ st ≠ 3 then s.endActivation
  else if s.fw.step = 1 ∧ bitsOf status 5 4 = 2 ∧ st = 0 then
    if s.handoverOk && s.plyUp then
      let s : State := { s with fw := { s.fw with step := 2 } }
      s.sendOrder 6 s.orderBoundary 0 .handover
    else s.endActivation
  else s

/-- Item 0x211. [log 77 DESIGN CHOICE] -/
def State.takeReport (s : State) (ws : List Nat) : State :=
  let w := fun (i : Nat) => (ws[i]?).getD 0
  if s.isActive then s.partnerReport (w 0) (w 1)
  else if s.isStandby && bitOf (w 2) 0 then s.orderedSwitch (bitOf (w 2) 1) (w 3)
  else s

/-- STATE_RECEIVED (R272, R282, R283, R296, R434, R437, R462): a chunk by its item. -/
def execStateReceived (h : PlyHdr) (item : BitVec 16) (commitTurn : BitVec 64) (first : BitVec 32) (words : List (BitVec 64)) (s : State) : Host.Outcome State Fault Refusal :=
  match s.plyTake 0x4B h with
  | (s, false) => ok s
  | (s, true) =>
    let i := item.toNat
    let f := first.toNat
    let ws := words.map BitVec.toNat
    let bytes := ws.flatMap (beBytes 8)
    if i < 16 || isBlock i then ok (s.stateChunk i commitTurn.toNat f ws)
    else if 0x200 ≤ i ∧ i < 0x210 then ok (if s.isStandby then s.partnerDelta (i - 0x200) f bytes else s)
    else if i = 0x210 then ok (if s.isStandby then (s.manifestPiece 3 (8 * f) bytes).1 else s)
    else if i = 0x211 then ok (s.takeReport ws)
    else if i = 0x220 then ok (if s.isActive then s else { s with pwr := { s.pwr with partnerWanted := true } })
    else ok s

/-! Joining (R267, R295). -/

/-- What the active hands over in phase Configuration (R295), to a partner whose committed image has a seal.
[log 56 DESIGN CHOICE] -/
def State.joinConfig (s : State) (imageSeal : Nat) : JoinConfig :=
  let progs := fun (m : SMap Bytes) => (upTo 16).filterMap (fun p => (SMap.find m p).map (fun b => (Fin.ofNat 16 p, b)))
  { image := if s.rd F.HOPPER_ACTIVE_SEAL_seal = imageSeal then none
      else some (changeList [] s.hop.active, progs s.progs.active)
    kept := (progs (s.progs.staged.filter (fun e => s.rd (F.PROG_STATUS_staged e.1) % 2 == 0))).map (fun e =>
      (e.1, e.2, s.rd (F.PROG_STATUS_staged e.1.val) == 2))
    onlineSlots := s.hop.onlineSlots.map (Fin.ofNat 16)
    forces := s.image.forces.map (fun e => (BitVec.ofNat 18 e.1, e.2))
    ringEpochs := s.ring.epochs
    switching := (upTo 16).filterMap (fun t => (s.task t).switchAt.map (fun b =>
      (Fin.ofNat 16 t, BitVec.ofNat 64 b, (s.task t).oldProg))) }

/-- What it hands over in phase Time. [log 56 DESIGN CHOICE] -/
def State.joinTime (s : State) : JoinTime :=
  { key := BitVec.ofNat 2 s.key
    keyNext := s.tasks.keyNext.map (fun e => (BitVec.ofNat 64 e.1, BitVec.ofNat 2 e.2))
    leftStop := s.tasks.leftStop.map (BitVec.ofNat 64)
    epoch := BitVec.ofNat 28 s.epoch
    origin := s.turn.origin
    kOrigin := BitVec.ofNat 64 s.turn.kOrigin
    turn := BitVec.ofNat 64 s.turn.k
    work := s.time.work
    followB := s.time.followB
    carried := s.time.carry }

/-- The programs of a handed-over list, by program. -/
def progMap (l : List (Fin 16 × Bytes)) : SMap Bytes := SMap.puts [] (l.map (fun e => (e.1.val, e.2)))

/-- The image, the programs, the forces and the ring epochs of phase 2 in place of the module's own (R295).
[log 57 DEDUCED] -/
def State.takeImage (s : State) (d : JoinConfig) : State :=
  let m := match d.image with
    | none => s.hop.active
    | some (l, _) => applyChanges [] l
  let run := match d.image with
    | none => s.progs.active
    | some (_, ps) => progMap ps
  let kept := progMap (d.kept.map (fun e => (e.1, e.2.1)))
  { s with
    hop := { s.hop with active := m, staged := m, before := [], testing := none, armed := none, partial_ := [],
                        onlineSlots := d.onlineSlots.map (·.val) }
    progs := { active := run, staged := kept, verifying := [], partnerStaged := kept }
    image := { s.image with forces := SMap.puts [] (d.forces.map (fun e => (e.1.toNat, e.2))) }
    tasks := { s.tasks with restoreDue := false }
    ring := { s.ring with epochs := SMap.puts [] d.ringEpochs } }

/-- The programs kept, and the tasks that still wait for their switch, as the active has them (R154, R167, R295).
[log 57 DEDUCED] -/
def State.takeSwitching (s : State) (d : JoinConfig) : State :=
  let ready := fun (p : Nat) => d.kept.any (fun e => e.1.val == p && e.2.2)
  let s := (upTo 16).foldl (fun s p => (s.progRegs p).wr (F.PROG_STATUS_staged p) (if ready p then 2 else 0)) s
  let s := (s.wr F.ONLINE_PENDING_pending 0).wr F.ONLINE_STATUS_state 0
  let s := (upTo 16).foldl (fun s t => s.setTask t { s.task t with switchAt := none, oldProg := none, waiting := [], inst := none }) s
  let s := d.switching.foldl (fun s e =>
    (s.setTask e.1.val { s.task e.1.val with switchAt := some e.2.1.toNat, oldProg := e.2.2 }).wr F.ONLINE_PENDING_pending
      (setBit (s.rd F.ONLINE_PENDING_pending) e.1.val true)) s
  if d.switching.isEmpty then s else s.wr F.ONLINE_STATUS_state 2

/-- The configuration of phase 2 replaces the module's own (R295). [log 57 DEDUCED] -/
def State.adoptImage (s : State) (d : JoinConfig) : State :=
  let old := s.hop.active
  let s := (s.takeImage d).takeSwitching d
  let s := s.commitStations old
  let s := (s.commitChannel old 0).commitChannel old 1
  let s := (s.rebuildPayloads.commitLoss.commitBrakes old).settingRegs.checkBypass
  (s.wr F.HOPPER_ACTIVE_SEAL_seal (committedSeal s.hop.active s.progs.active)).restage.hopState

/-- The time of phase 3, the epoch and the key position, with the braking that STOP asks for (R28, R122, R125, R254, R279,
R295). [log 57 DEDUCED] -/
def State.adoptTime (s : State) (d : JoinTime) : State :=
  let k := d.turn.toNat
  let s : State := { s with
    turn := { TurnSt.idle with k := k, kOrigin := d.kOrigin.toNat, origin := d.origin, startTurn := k, cutoffs := k + 1,
                               nextRel := k, nextDl := k }
    time := { s.time with workSet := true, work := d.work, carry := d.carried, followB := d.followB }
    ply := { s.ply with liveCut := k } }
  let s := ((s.wr F.TURN_STATUS_running 1).wr F.TURN_STATUS_adopted 1).originRegs
  let s := (s.wrb F.TIME_STATUS_sel_now d.followB).wrb F.TIME_STATUS_slewing (decide (d.carried ≠ 0))
  let s := (s.workRegs.wr F.PLY_EPOCH_epoch d.epoch.toNat).wr F.KEY_STATUS_effective d.key.toNat
  let s := if s.key = 3 then s else s.setRow 16 false
  { s with tasks := { s.tasks with
      keyNext := d.keyNext.map (fun e => (e.1.toNat, e.2.toNat)), stopFrom := if s.key = 3 then some k else none, leftStop := d.leftStop.map BitVec.toNat } }

/-- The captured slots and the forces as at the capture boundary, with the losses that they mean (R62, R296).
[log 56 DESIGN CHOICE] -/
def State.takeSlots (s : State) (c : JoinCapture) : State :=
  let s := c.slots.foldl (fun s e => s.putCell e.1.toNat ⟨⟨e.2.1, e.2.2.1⟩, e.2.2.2⟩) s
  let s : State := { s with image := { s.image with forces := SMap.puts [] (c.forces.map (fun e => (e.1.toNat, e.2))) } }
  let lost := (c.slots.map (fun e => e.1.toNat)).filter s.misses
  let s : State := { s with image := { s.image with
    loss := SMap.puts [] (lost.map (fun n => (n, s.act (F.SLOT_POL_0_brake_src n)))) } }
  s.lossRows

/-- What a joining module takes of a task beside its data (R296). -/
def takeTask (x : TaskSt) (j : JoinTask) : TaskSt :=
  { x with started := j.started, trapped := j.trapped, first := j.first, prevSlip := j.prevSlip, slipRun := j.slipRun,
           lastDue := j.lastDue, ran := j.ran, mbrSeen := SMap.puts [] j.seen }

/-- The captured tasks (R296). [log 56 DESIGN CHOICE] -/
def State.takeTasks (s : State) (l : List JoinTask) : State :=
  l.foldl (fun s j =>
    (s.setTask j.task.val (takeTask (s.task j.task.val) j)).wrb (F.TASK_STATUS_overran j.task.val) j.overran) s

/-- The captured loops, and the mill words that their tasks took (R296). [log 56 DESIGN CHOICE] -/
def State.takeLoops (s : State) (c : JoinCapture) : State :=
  let s := c.loops.foldl (fun s j =>
    ({ s with loops := SMap.put s.loops j.loop.val (takeLoop (s.loop j.loop.val) j) } : State)) s
  { s with tasks := { s.tasks with millSnap := SMap.puts [] c.snaps, millTaken := [] } }

/-- The captured run state (R116, R296): in overrun stop the module brakes from its next release on.
[log 56 DESIGN CHOICE] -/
def State.takeRun (s : State) (c : JoinCapture) : State :=
  let s := match c.overrunTask with
    | some t => s.blame t.val
    | none => s.wr F.TASK_RUN_overrun_valid 0
  let stops := c.runState.toNat == 3
  let s := if stops then s else s.setRow 17 false
  let s : State := { s with tasks := { s.tasks with overrunFrom := if stops then some s.turn.nextRel else none } }
  s.wr F.TASK_RUN_run_state c.runState.toNat

/-- The captured state that no STATE frame carries is taken (R116, R296). [log 56 DESIGN CHOICE] -/
def State.adoptCapture (s : State) (c : JoinCapture) : State :=
  ((((s.takeSlots c).takeTasks c.tasks).takeLoops c).takeRun c).capturedItem 0xFFFF

/-- Is every part's compatibility level equal, as the manifests give (R295)? -/
def State.compatWith (s : State) (l : List Byte) : Bool :=
  (upTo 12).all (fun p => partCompat (s.fwManifest s.fwSlot) p == (l.getD p 0).toNat)

/-- The active meets a joining partner (R277, R295): it answers with its own JOIN frame, hands over configuration and
time, and names the capture boundary; a partner that cannot join it refuses. [log 56 DESIGN CHOICE] -/
def State.serveJoin (s : State) (join : PlyJoin) : State :=
  let s := s.sendJoin
  let s := if s.plyState == 1 then s.setPlyState 2 else s
  if !s.compatWith join.compat || join.level.toNat < s.act F.HOPPER_LEVEL_level then s.sendAck 8 0 true
  else
    let s := (s.emit (.joinConfig (s.joinConfig join.imageSeal.toNat))).emit (.joinTime s.joinTime)
    let s : State := { s with
      progs := { s.progs with partnerStaged := s.progs.staged.filter (fun e => s.rd (F.PROG_STATUS_staged e.1) == 2) } }
    s.sendOrder 8 s.orderBoundary 0 .capture

/-- A joining module identifies the active (R295): the levels that it offers are Level A alone (R361). -/
def State.identify (s : State) (join : PlyJoin) : State :=
  if s.rd F.PLY_JOIN_phase != 1 then s
  else if !s.compatWith join.compat then s.failJoin 3
  else if 0 < join.level.toNat then s.failJoin 2
  else s.wr F.PLY_JOIN_phase 2

/-- What the active hands over moves a join through its phases Configuration, which ends once the seals are equal, Time and
Capture (R295). A capture boundary already named is kept. [log 57 DEDUCED] -/
def State.advanceJoin (s : State) (join : PlyJoin) : State :=
  let s := match join.config with
    | some d => if s.rd F.PLY_JOIN_phase == 2 then
        let s := s.adoptImage d
        if s.rd F.HOPPER_ACTIVE_SEAL_seal = join.imageSeal.toNat then s.wr F.PLY_JOIN_phase 3 else s
      else s
    | none => s
  let s := match join.time with
    | some d => if s.rd F.PLY_JOIN_phase == 3 then (s.adoptTime d).wr F.PLY_JOIN_phase 4 else s
    | none => s
  match join.captured with
  | some c => if s.rd F.PLY_JOIN_phase == 4 && s.ply.capture.isSome then s.adoptCapture c else s
  | none => s

/-- PLY_JOIN_RECEIVED (R267, R272, R277, R295). [log 24 DESIGN CHOICE, 93 DEDUCED] -/
def execPlyJoinReceived (h : PlyHdr) (join : PlyJoin) (s : State) : Host.Outcome State Fault Refusal :=
  match s.plyTake 0x4C h with
  | (s, false) => ok s
  | (s, true) =>
    let id := join.ident.toNat
    let s := (s.wr F.PLY_PARTNER_ID_LO_ident (id % 2 ^ 32)).wr F.PLY_PARTNER_ID_HI_ident (id >>> 32)
    let s := s.wrb F.PLY_STATUS_home_err (bitOf join.straps.toNat 1 == s.on F.PLY_STATUS_home)
    if s.isActive then ok (if join.joining then s.serveJoin join else s)
    else if s.plyState == 3 then ok ((s.identify join).advanceJoin join)
    else ok s

end Sys2Proof.Machine
end

