-- ==== Sys2Proof/Machine/Loops.lean ====
section
/-! DEFINITION. LOOP_EVALUATION_DONE, WHEEL_DEADLINE and TRACE_CAPTURE_RECORD (chapters 02, 08 and 09). -/

namespace Sys2Proof.Machine

/-- The sample that loop l's wheel evaluates next, if that is l's turn: the first outstanding on the wheel, in
ascending sample and loop number (R170). -/
def State.evalNext (s : State) (l : Nat) : Option Nat :=
  match s.turn.evals.find? (fun e => e.2 % 128 == l % 128) with
  | some e => if e.2 = l then some e.1 else none
  | none => none

/-- The environment of loop l's evaluation of sample k. -/
def State.loopEnv (s : State) (l k : Nat) : LoopEnv :=
  ⟨s.configAt k, l, k, SMap.getD s.turn.views k [], (SMap.getD s.turn.brakedAt k []).contains l⟩

/-- Store a loop's finished sample: its nodes, what its wheel deadline will show (R172), its event (R195) and its
trace (R210). -/
def State.putLoop (s : State) (e : LoopEnv) (x : LoopSt) : State :=
  let old := (s.loop e.l).status
  let p := 2 ^ RegMap.get e.m (F.LOOP_CTRL_rate_n e.l)
  let passed := decide (e.k + s.nTurns - 1 < s.turn.nextDl)
  let x := if passed then { x with shown := some x.nodes } else { x with recent := x.recent ++ [(e.k, x.nodes)] }
  let x := match x.resumed with
    | some (v, none) => { x with resumed := some (v, some (s.relTurn e.k p)) }
    | _ => x
  let s : State := { s with loops := SMap.put s.loops e.l x }
  let rises := clearBits x.status old &&& (1024 + 2048 + 16384)
  let s := if RegMap.get e.m (F.LOOP_CTRL_ev_en e.l) == 1 && rises != 0 then s.raiseSource 56 e.l x.status else s
  s.recordLoop e.l p e.k x.nodes

/-- Commit a loop's output and hold it for its release (R54, R193). -/
def State.loopOut (s : State) (e : LoopEnv) (entry : Entry) : State :=
  let n := RegMap.get e.m (F.LOOP_OUT_out_slot e.l)
  let s := s.commitSlot e.k n entry
  s.hold (loopItem e.l) e.k (2 ^ RegMap.get e.m (F.LOOP_CTRL_rate_n e.l)) [(n, entry)] [] []

/-- One evaluation of loop l for sample k commits (R180). [log 23 DEDUCED] -/
def State.evaluate (s : State) (l k : Nat) : State :=
  let e := s.loopEnv l k
  let ovr := RegMap.get e.m (F.LOOP_CTRL_ovr l)
  let other := RegMap.get e.m (F.LOOP_SP_pair_loop l)
  if ovr == 0 || RegMap.get e.m (F.LOOP_CTRL_enable other) == 0 then
    let x := e.single (s.loop l)
    (s.loopOut e x.nodes.entry).putLoop e x
  else if l < other then { s with loops := SMap.put s.loops l (e.head (s.loop l)) }
  else
    let ea := s.loopEnv other k
    let r := ea.pair e (s.loop other) (s.loop l)
    let s := s.loopOut ea r.1.nodes.entry
    (s.putLoop ea r.1).putLoop e r.2

/-- LOOP_EVALUATION_DONE (R180, R44, R38): a residue mismatch is a self-diagnosed fault and its result is not
used; else the loop commits, and its group's slack is recorded after the group's last evaluation. -/
def execLoopEvaluationDone (loop : Fin 4096) (residueBad : Bool) (s : State) :
    Host.Outcome State Fault Refusal :=
  match s.evalNext loop.val with
  | none => ok s
  | some k =>
    let evals := s.turn.evals.filter (fun e => !(e.1 == k && e.2 == loop.val))
    let s : State := { s with turn := { s.turn with evals := evals } }
    if residueBad then ok (s.selfFault 1 0 (loop.val % 128))
    else
      let s := ((s.saveLoop k loop.val).saveLoop k ((s.pairOf loop.val).getD loop.val)).evaluate loop.val k |>.captureFull
      let g := groupOf loop.val
      let last := !(evals.any (fun e => e.1 == k && groupOf e.2 == g))
      if last && decide (s.turn.nextDl ≤ k + s.nTurns - 1) then ok (s.wheelSlack g (s.slackTo (s.deadlineU k)))
      else ok s

/-- The nodes that a passed deadline shows: the latest sample up to k (R172). -/
def LoopSt.show (x : LoopSt) (k : Nat) : LoopSt :=
  match (x.recent.filter (fun e => decide (e.1 ≤ k))).getLast? with
  | some e => { x with shown := some e.2, recent := x.recent.filter (fun e => decide (k < e.1)) }
  | none => x

/-- The wheel groups that had evaluations due at a sample without a slip end their run of slips (R43). -/
def State.clearRuns (s : State) (k : Nat) (late : List Nat) : State :=
  let due := SMap.getD s.turn.dueGroups k []
  { s with turn := { s.turn with
      groups := s.turn.groups.filter (fun e => !due.contains e.1 || late.contains e.1)
      dueGroups := s.turn.dueGroups.filter (fun e => decide (k < e.1)) } }

/-- WHEEL_DEADLINE (R34, R41, R43): the deadline of sample nextDl − (N − 1); a group with evaluations of it
outstanding slips, another that had some ends its run, and the results up to it enter the wheel views. -/
def execWheelDeadline (s : State) : Host.Outcome State Fault Refusal :=
  let m := s.turn.nextDl
  if !s.on F.TURN_STATUS_running || decide (s.turn.k < m) ||
      (s.replaying && decide (s.turn.cutoffs + s.nTurns ≤ m + 1)) then ok s
  else
    let s : State := { s with turn := { s.turn with nextDl := m + 1 } }
    if m + 1 < s.nTurns then ok s
    else
      let k := m + 1 - s.nTurns
      let late := (upTo 8).filter (fun g => s.turn.evals.any (fun e => e.1 == k && groupOf e.2 == g))
      let s := late.foldl (fun s g => s.wheelSlip g m) (s.clearRuns k late)
      ok { s with loops := s.loops.map (fun e => (e.1, e.2.show k)) }

/-- TRACE_CAPTURE_RECORD (R340): a capture record that waits goes to the group's ring once there is room. -/
def execTraceCaptureRecord (g : Fin 8) (s : State) : Host.Outcome State Fault Refusal :=
  let x := s.grp g.val
  let ring := s.rd (F.TRACE_TRIG_ring g.val)
  if !x.recordWaits then ok s
  else if !s.on (F.TRR_CTRL_enable ring) then ok (s.setGrp g.val { x with recordWaits := false })
  else if s.trcRoom ring then
    let chans := s.grpChans g.val
    let ecc := chans.any (fun ch => s.on (F.TRACE_STATUS_ecc ch))
    let mask := chans.foldl (fun a ch => a + 2 ^ ch) 0
    let head := [1, BitVec.ofNat 8 g.val, 0, BitVec.ofNat 8 (s.rd (F.TRACE_GSTAT_short g.val) + 2 * bit ecc)]
    let rest := leBytes 8 (x.trig.getD 0) ++ leBytes 8 mask ++ List.replicate 39 0
    ok ((s.writeTrc ring head rest (List.replicate 512 0)).setGrp g.val { x with recordWaits := false })
  else ok s

end Sys2Proof.Machine
end

