-- ==== Sys2Proof/Machine/Twist.lean ====
section
/-! DEFINITION. The instructions of Twist code (R129 to R139) and an undefined encoding reached (R136). -/

namespace Sys2Proof.Machine

/-- ADD (R137). -/
def execTwAdd (t : Fin 16) (j : Fin 8) (gd ga gb : Fin 32) (residueBad : Bool) (s : State) : Host.Outcome State Fault Refusal :=
  ok (s.alu t j (wordA 0x00 gd ga gb) residueBad (fun x =>
    let r := x.addFlags (x.reg ga.val) (x.reg gb.val)
    r.1.setReg gd.val r.2))

/-- SUB (R137). -/
def execTwSub (t : Fin 16) (j : Fin 8) (gd ga gb : Fin 32) (residueBad : Bool) (s : State) : Host.Outcome State Fault Refusal :=
  ok (s.alu t j (wordA 0x01 gd ga gb) residueBad (fun x =>
    let r := x.subFlags (x.reg ga.val) (x.reg gb.val)
    r.1.setReg gd.val r.2))

/-- ADDS (R137). -/
def execTwAdds (t : Fin 16) (j : Fin 8) (gd ga gb : Fin 32) (residueBad : Bool) (s : State) : Host.Outcome State Fault Refusal :=
  ok (s.alu t j (wordA 0x02 gd ga gb) residueBad (fun x =>
    x.satResult gd.val ((x.reg ga.val).toInt + (x.reg gb.val).toInt)))

/-- SUBS (R137). -/
def execTwSubs (t : Fin 16) (j : Fin 8) (gd ga gb : Fin 32) (residueBad : Bool) (s : State) : Host.Outcome State Fault Refusal :=
  ok (s.alu t j (wordA 0x03 gd ga gb) residueBad (fun x =>
    x.satResult gd.val ((x.reg ga.val).toInt - (x.reg gb.val).toInt)))

/-- AND (R137). -/
def execTwAnd (t : Fin 16) (j : Fin 8) (gd ga gb : Fin 32) (s : State) : Host.Outcome State Fault Refusal :=
  ok (s.alu t j (wordA 0x04 gd ga gb) false (fun x =>
    x.logicTo gd.val ((x.reg ga.val) &&& (x.reg gb.val))))

/-- OR (R137). -/
def execTwOr (t : Fin 16) (j : Fin 8) (gd ga gb : Fin 32) (s : State) : Host.Outcome State Fault Refusal :=
  ok (s.alu t j (wordA 0x05 gd ga gb) false (fun x =>
    x.logicTo gd.val ((x.reg ga.val) ||| (x.reg gb.val))))

/-- XOR (R137). -/
def execTwXor (t : Fin 16) (j : Fin 8) (gd ga gb : Fin 32) (s : State) : Host.Outcome State Fault Refusal :=
  ok (s.alu t j (wordA 0x06 gd ga gb) false (fun x =>
    x.logicTo gd.val ((x.reg ga.val) ^^^ (x.reg gb.val))))

/-- ANDN (R137). -/
def execTwAndn (t : Fin 16) (j : Fin 8) (gd ga gb : Fin 32) (s : State) : Host.Outcome State Fault Refusal :=
  ok (s.alu t j (wordA 0x07 gd ga gb) false (fun x =>
    x.logicTo gd.val ((x.reg ga.val) &&& ~~~(x.reg gb.val))))

/-- MIN, signed (R137). -/
def execTwMin (t : Fin 16) (j : Fin 8) (gd ga gb : Fin 32) (s : State) : Host.Outcome State Fault Refusal :=
  ok (s.alu t j (wordA 0x0B gd ga gb) false (fun x =>
    x.logicTo gd.val (if (x.reg ga.val).toInt ≤ (x.reg gb.val).toInt then x.reg ga.val else x.reg gb.val)))

/-- MAX, signed (R137). -/
def execTwMax (t : Fin 16) (j : Fin 8) (gd ga gb : Fin 32) (s : State) : Host.Outcome State Fault Refusal :=
  ok (s.alu t j (wordA 0x0C gd ga gb) false (fun x =>
    x.logicTo gd.val (if (x.reg gb.val).toInt ≤ (x.reg ga.val).toInt then x.reg ga.val else x.reg gb.val)))

/-- SHL by gb[5:0] (R137). -/
def execTwShl (t : Fin 16) (j : Fin 8) (gd ga gb : Fin 32) (residueBad : Bool) (s : State) : Host.Outcome State Fault Refusal :=
  ok (s.alu t j (wordA 0x08 gd ga gb) residueBad (fun x =>
    x.shiftTo gd.val (shlWord (x.reg ga.val) ((x.reg gb.val).toNat % 64))))

/-- SHR by gb[5:0] (R137). -/
def execTwShr (t : Fin 16) (j : Fin 8) (gd ga gb : Fin 32) (s : State) : Host.Outcome State Fault Refusal :=
  ok (s.alu t j (wordA 0x09 gd ga gb) false (fun x =>
    x.shiftTo gd.val (shrWord (x.reg ga.val) ((x.reg gb.val).toNat % 64))))

/-- SAR by gb[5:0] (R137). -/
def execTwSar (t : Fin 16) (j : Fin 8) (gd ga gb : Fin 32) (s : State) : Host.Outcome State Fault Refusal :=
  ok (s.alu t j (wordA 0x0A gd ga gb) false (fun x =>
    x.shiftTo gd.val (sarWord (x.reg ga.val) ((x.reg gb.val).toNat % 64))))

/-- CMP: the flags of SUB (R137). -/
def execTwCmp (t : Fin 16) (j : Fin 8) (ga gb : Fin 32) (residueBad : Bool) (s : State) : Host.Outcome State Fault Refusal :=
  ok (s.alu t j (wordA 0x0D 0 ga gb) residueBad (fun x =>
    (x.subFlags (x.reg ga.val) (x.reg gb.val)).1))

/-- ABS, saturated (R137). -/
def execTwAbs (t : Fin 16) (j : Fin 8) (gd ga : Fin 32) (residueBad : Bool) (s : State) : Host.Outcome State Fault Refusal :=
  ok (s.alu t j (wordA 0x0E gd ga 0) residueBad (fun x =>
    x.satResult gd.val (((x.reg ga.val).toInt.natAbs : Nat) : Int)))

/-- NEG, saturated (R137). -/
def execTwNeg (t : Fin 16) (j : Fin 8) (gd ga : Fin 32) (residueBad : Bool) (s : State) : Host.Outcome State Fault Refusal :=
  ok (s.alu t j (wordA 0x0F gd ga 0) residueBad (fun x =>
    x.satResult gd.val (-(x.reg ga.val).toInt)))

/-- MUL: V where the product lies outside 36 bits (R137). -/
def execTwMul (t : Fin 16) (j : Fin 8) (gd ga gb : Fin 32) (residueBad : Bool) (s : State) : Host.Outcome State Fault Refusal :=
  ok (s.alu t j (wordA 0x10 gd ga gb) residueBad (fun x =>
    let e := (x.reg ga.val).toInt * (x.reg gb.val).toInt
    let r := wordOf e
    (({ x.zn r with v := !fits36 e } : Strand)).setReg gd.val r))

/-- MULQ (R128, R137). -/
def execTwMulq (t : Fin 16) (j : Fin 8) (gd ga gb : Fin 32) (residueBad : Bool) (s : State) : Host.Outcome State Fault Refusal :=
  ok (s.alu t j (wordA 0x11 gd ga gb) residueBad (fun x =>
    let p := qop (x.reg ga.val)
    let q := qop (x.reg gb.val)
    x.qResult gd.val (rsh (p.1 * q.1) 17) (p.2 || q.2)))

/-- DIV toward zero; a zero divisor traps DIV_ZERO (R137, R141). -/
def execTwDiv (t : Fin 16) (j : Fin 8) (gd ga gb : Fin 32) (residueBad : Bool) (s : State) : Host.Outcome State Fault Refusal :=
  ok (s.aluTrap t j (wordA 0x12 gd ga gb) residueBad (fun x => if (x.reg gb.val) = 0 then some 1 else none) (fun x =>
    x.satResult gd.val (tdiv (x.reg ga.val).toInt (x.reg gb.val).toInt)))

/-- DIVQ to nearest; a zero divisor traps DIV_ZERO (R137, R141). -/
def execTwDivq (t : Fin 16) (j : Fin 8) (gd ga gb : Fin 32) (residueBad : Bool) (s : State) : Host.Outcome State Fault Refusal :=
  ok (s.aluTrap t j (wordA 0x13 gd ga gb) residueBad (fun x => if (x.reg gb.val) = 0 then some 1 else none) (fun x =>
    let p := qop (x.reg ga.val)
    let q := qop (x.reg gb.val)
    x.qResult gd.val (rdiv (shl p.1 17) q.1) (p.2 || q.2)))

/-- SATQ (R137). -/
def execTwSatq (t : Fin 16) (j : Fin 8) (gd ga : Fin 32) (s : State) : Host.Outcome State Fault Refusal :=
  ok (s.alu t j (wordA 0x14 gd ga 0) false (fun x =>
    let p := qop (x.reg ga.val)
    x.qResult gd.val p.1 p.2))

/-- SEL by Z (R137). -/
def execTwSel (t : Fin 16) (j : Fin 8) (gd ga gb : Fin 32) (s : State) : Host.Outcome State Fault Refusal :=
  ok (s.alu t j (wordA 0x15 gd ga gb) false (fun x =>
    x.setReg gd.val (if x.z then x.reg ga.val else x.reg gb.val)))

/-- RDF: the flags and LT (R137). -/
def execTwRdf (t : Fin 16) (j : Fin 8) (gd : Fin 32) (s : State) : Host.Outcome State Fault Refusal :=
  ok (s.alu t j (wordA 0x16 gd 0 0) false (fun x =>
    x.setReg gd.val (BitVec.ofNat 36 (bit x.z + 2 * bit x.n + 4 * bit x.c + 8 * bit x.v + 16 * bit x.q +
      32 * x.lt.toNat))))

/-- CLQ (R137). -/
def execTwClq (t : Fin 16) (j : Fin 8) (s : State) : Host.Outcome State Fault Refusal :=
  ok (s.alu t j (wordA 0x17 0 0 0) false (fun x =>
    { x with q := false }))

/-- ADDI, sign-extended (R138). -/
def execTwAddi (t : Fin 16) (j : Fin 8) (gd ga : Fin 32) (imm : BitVec 20) (residueBad : Bool) (s : State) : Host.Outcome State Fault Refusal :=
  ok (s.alu t j (wordI 0x01 gd ga imm) residueBad (fun x =>
    let r := x.addFlags (x.reg ga.val) (imm.signExtend 36)
    r.1.setReg gd.val r.2))

/-- ANDI, zero-extended (R138). -/
def execTwAndi (t : Fin 16) (j : Fin 8) (gd ga : Fin 32) (imm : BitVec 20) (s : State) : Host.Outcome State Fault Refusal :=
  ok (s.alu t j (wordI 0x02 gd ga imm) false (fun x =>
    x.logicTo gd.val ((x.reg ga.val) &&& imm.setWidth 36)))

/-- ORI, zero-extended (R138). -/
def execTwOri (t : Fin 16) (j : Fin 8) (gd ga : Fin 32) (imm : BitVec 20) (s : State) : Host.Outcome State Fault Refusal :=
  ok (s.alu t j (wordI 0x03 gd ga imm) false (fun x =>
    x.logicTo gd.val ((x.reg ga.val) ||| imm.setWidth 36)))

/-- XORI, zero-extended (R138). -/
def execTwXori (t : Fin 16) (j : Fin 8) (gd ga : Fin 32) (imm : BitVec 20) (s : State) : Host.Outcome State Fault Refusal :=
  ok (s.alu t j (wordI 0x04 gd ga imm) false (fun x =>
    x.logicTo gd.val ((x.reg ga.val) ^^^ imm.setWidth 36)))

/-- CMPI (R138). -/
def execTwCmpi (t : Fin 16) (j : Fin 8) (ga : Fin 32) (imm : BitVec 20) (residueBad : Bool) (s : State) : Host.Outcome State Fault Refusal :=
  ok (s.alu t j (wordI 0x05 0 ga imm) residueBad (fun x =>
    (x.subFlags (x.reg ga.val) (imm.signExtend 36)).1))

/-- SHI: SHL, SHR or SAR by an immediate; an encoding that the load refuses traps ILLEGAL (R136, R138). -/
def execTwShi (t : Fin 16) (j : Fin 8) (gd ga : Fin 32) (imm : BitVec 20) (residueBad : Bool) (s : State) : Host.Outcome State Fault Refusal :=
  let v := imm.toNat
  let n := v % 64
  let mode := v / 64 % 4
  ok (s.aluTrap t j (wordI 0x06 gd ga imm) residueBad (fun _ => if 256 ≤ v ∨ mode = 3 ∨ 36 ≤ n then some 8 else none) (fun x =>
    let a := x.reg ga.val
    x.shiftTo gd.val (if mode = 0 then shlWord a n else if mode = 1 then shrWord a n else sarWord a n)))

/-- LUI (R138). -/
def execTwLui (t : Fin 16) (j : Fin 8) (gd : Fin 32) (imm : BitVec 20) (s : State) : Host.Outcome State Fault Refusal :=
  ok (s.alu t j (wordI 0x07 gd 0 imm) false (fun x =>
    x.setReg gd.val (imm.setWidth 36 <<< 16)))

/-- LDS: a slot's value, LT its tag (R129, R138). -/
def execTwLds (t : Fin 16) (j : Fin 8) (gd gi : Fin 32) (slot : BitVec 18) (ecc : Bool) (s : State) : Host.Outcome State Fault Refusal :=
  ok (s.slotRead t j (wordS 0x10 gd gi 0 slot) gi.val slot.toNat ecc (fun x e => x.logicTo gd.val (e.value.signExtend 36)))

/-- LDE: a slot's entry in the container of R50 (R138). -/
def execTwLde (t : Fin 16) (j : Fin 8) (gd gi : Fin 32) (slot : BitVec 18) (ecc : Bool) (s : State) : Host.Outcome State Fault Refusal :=
  ok (s.slotRead t j (wordS 0x11 gd gi 0 slot) gi.val slot.toNat ecc (fun x e =>
    let r : Word36 := BitVec.ofNat 36 e.container
    ({ x with z := r == 0 } : Strand).setReg gd.val r))

/-- TAG: a slot's tag (R138). -/
def execTwTag (t : Fin 16) (j : Fin 8) (gd gi : Fin 32) (slot : BitVec 18) (ecc : Bool) (s : State) : Host.Outcome State Fault Refusal :=
  ok (s.slotRead t j (wordS 0x12 gd gi 0 slot) gi.val slot.toNat ecc (fun x e =>
    let r : Word36 := e.tag.setWidth 36
    ({ x with z := r == 0 } : Strand).setReg gd.val r))

/-- STS: the saturated value with its tag bits enters the output view (R130, R55). -/
def execTwSts (t : Fin 16) (j : Fin 8) (gs gi : Fin 32) (m : BitVec 2) (slot : BitVec 18) (s : State) : Host.Outcome State Fault Refusal :=
  ok (s.twist t j (wordS 0x13 gs gi m slot) (fun s i x =>
    match indexOf i j.val x gi.val with
    | none => s.trapStrand t.val j.val 2 0 x
    | some n =>
      let q := qop (x.reg gs.val)
      let e : Entry := ⟨sampleOf q.1, mkTag 0 false (q.2 || bitOf m.toNat 1) false (bitOf m.toNat 0)⟩
      let i := { i with out := SMap.put i.out (slot.toNat + n) e }
      s.putStrand t.val j.val i (x.stickQ q.2).next))

/-- WINB: bit i of the mask is 1 for a slot that is not GOOD or lies outside the window (R129, R138). -/
def execTwWinb (t : Fin 16) (j : Fin 8) (gd ga : Fin 32) (n1 : BitVec 4) (base : BitVec 16) (ecc : Bool) (s : State) : Host.Outcome State Fault Refusal :=
  ok (s.twist t j (wordW gd ga n1 base) (fun s i x =>
    if ga.val = 0 ∨ ga.val = 31 then s.trapStrand t.val j.val 8 0 x
    else if ecc then s.trapStrand t.val j.val 7 0 x
    else
      let lo := (x.reg ga.val).toInt
      let hi := (x.reg (ga.val + 1)).toInt
      let at4 := fun (n : Nat) => i.viewAt (4 * base.toNat + n)
      let out := fun (e : Entry) => tagQuality e.tag != 0 || decide (e.value.toInt < lo) || decide (hi < e.value.toInt)
      let r : Word36 := BitVec.ofNat 36 ((upTo (n1.toNat + 1)).foldl (fun a n => a + bit (out (at4 n)) * 2 ^ n) 0)
      let x : Strand := ({ x with z := r == 0, lt := (at4 n1.toNat).tag } : Strand).setReg gd.val r
      s.putStrand t.val j.val i x.next))

/-- LDW: a task data word; DATA_BOUND, ACCESS and MEMORY trap (R131, R141). [log 108 DESIGN CHOICE] -/
def execTwLdw (t : Fin 16) (j : Fin 8) (gd gb : Fin 32) (off : BitVec 16) (ecc : Bool) (s : State) : Host.Outcome State Fault Refusal :=
  ok (s.twist t j (wordM 0x18 gd gb off) (fun s i x =>
    match dataAddr i x gb.val off.toNat 1 with
    | none => s.trapStrand t.val j.val 3 0 x
    | some a =>
      let r := s.dataAccess t.val j.val 0 a 1 i
      if !r.2 then r.1.trapStrand t.val j.val 9 0 x
      else if ecc then r.1.trapStrand t.val j.val 7 0 x
      else r.1.putStrand t.val j.val i (x.setReg gd.val (r.1.readWord t.val j.val i a)).next))

/-- STW: a task data word of the strand's own range (R131, R141). -/
def execTwStw (t : Fin 16) (j : Fin 8) (gs gb : Fin 32) (off : BitVec 16) (s : State) : Host.Outcome State Fault Refusal :=
  ok (s.twist t j (wordM 0x19 gs gb off) (fun s i x =>
    match (dataAddr i x gb.val off.toNat 1).filter (ownsWord i.prog j.val) with
    | none => s.trapStrand t.val j.val 3 0 x
    | some a =>
      let r := s.dataAccess t.val j.val 1 a 1 i
      if !r.2 then r.1.trapStrand t.val j.val 9 0 x
      else r.1.putStrand t.val j.val { i with data := SMap.put i.data a (x.reg gs.val) } x.next))

/-- TRD: a value of the instance; an undefined selector traps ILLEGAL (R134, R136). -/
def execTwTrd (t : Fin 16) (j : Fin 8) (gd : Fin 32) (sel : BitVec 4) (s : State) : Host.Outcome State Fault Refusal :=
  ok (s.twist t j (wordT 0x1C gd sel) (fun s i x =>
    match s.trdValue t.val j.val i sel.toNat with
    | none => s.trapStrand t.val j.val 8 0 x
    | some v => s.putStrand t.val j.val i (x.setReg gd.val (BitVec.ofNat 36 v)).next))

/-- LIX: the innermost loop's iteration index (R138). -/
def execTwLix (t : Fin 16) (j : Fin 8) (gd : Fin 32) (s : State) : Host.Outcome State Fault Refusal :=
  ok (s.alu t j (wordT 0x1D gd 0) false (fun x =>
    x.setReg gd.val (BitVec.ofNat 36 ((x.loops.head?.map (·.index)).getD 0))))

/-- LPR: a node of a loop of the input view (R132, R136). -/
def execTwLpr (t : Fin 16) (j : Fin 8) (gd gi : Fin 32) (node : BitVec 4) (loop : BitVec 12) (ecc : Bool) (s : State) : Host.Outcome State Fault Refusal :=
  ok (s.twist t j (wordP 0x20 gd gi node loop) (fun s i x =>
    if 8 ≤ node.toNat then s.trapStrand t.val j.val 8 0 x
    else
      match indexOf i j.val x gi.val with
      | none => s.trapStrand t.val j.val 2 0 x
      | some n =>
        if ecc then s.trapStrand t.val j.val 7 0 x
        else
          let v := wordOf (SMap.getD i.nodes ((loop.toNat + n) * 8 + node.toNat) 0)
          s.putStrand t.val j.val i (x.logicTo gd.val v).next))

/-- LPW: a loop's target, mode request or manual output (R132, R141). [log 108 DESIGN CHOICE] -/
def execTwLpw (t : Fin 16) (j : Fin 8) (gs gi : Fin 32) (node : BitVec 4) (loop : BitVec 12) (s : State) : Host.Outcome State Fault Refusal :=
  ok (s.twist t j (wordP 0x21 gs gi node loop) (fun s i x =>
    let v := x.reg gs.val
    let q := qop v
    let req : Option (Option LoopReq × Bool) := match node.toNat with
      | 2 => some (some ⟨0, some q.1, none, none⟩, q.2)
      | 6 => some (if v.toNat < 4 then some ⟨0, none, none, some v.toNat⟩ else none, false)
      | 7 => some (some ⟨0, none, some q.1, none⟩, q.2)
      | _ => none
    match req, indexOf i j.val x gi.val with
    | none, _ => s.trapStrand t.val j.val 8 0 x
    | some _, none => s.trapStrand t.val j.val 2 0 x
    | some (none, _), some _ => s.trapStrand t.val j.val 5 0 x
    | some (some r, sat), some n =>
      let i := { i with loopWrites := i.loopWrites ++ [(loop.toNat + n, r)] }
      s.putStrand t.val j.val i (x.stickQ sat).next))

/-- MBQ: a mill-bus descriptor goes into the output view (R133, R141). -/
def execTwMbq (t : Fin 16) (j : Fin 8) (gb : Fin 32) (ch : Fin 2) (buf : Fin 64) (off : BitVec 16) (ecc : Bool) (s : State) : Host.Outcome State Fault Refusal :=
  ok (s.twist t j (wordQ 0x28 gb ch buf off) (fun s i x =>
    match dataAddr i x gb.val off.toNat 18 with
    | none => s.trapStrand t.val j.val 3 0 x
    | some a =>
      let words := (upTo 18).map (fun n => s.readWord t.val j.val i (a + n))
      if ecc then s.trapStrand t.val j.val 7 0 x
      else if fdLengths.contains ((words[1]?).getD 0).toNat then
        let i := { i with mbq := SMap.put i.mbq (ch.val * 64 + buf.val) words }
        s.putStrand t.val j.val i x.next
      else s.trapStrand t.val j.val 5 0 x))

/-- MBR: the newest message of a receive buffer goes into task data (R133). Z: the buffer has never held one. C: it is
newer than the one this task's previous MBR of the buffer returned. [log 107 DEDUCED] -/
def execTwMbr (t : Fin 16) (j : Fin 8) (gb : Fin 32) (ch : Fin 2) (buf : Fin 64) (off : BitVec 16) (ecc : Bool) (s : State) : Host.Outcome State Fault Refusal :=
  ok (s.twist t j (wordQ 0x29 gb ch buf off) (fun s i x =>
    let key := ch.val * 64 + buf.val
    match dataAddr i x gb.val off.toNat 18 with
    | none => s.trapStrand t.val j.val 3 0 x
    | some a =>
      if !((upTo 18).all (fun n => ownsWord i.prog j.val (a + n))) then s.trapStrand t.val j.val 3 0 x
      else if ecc then s.trapStrand t.val j.val 7 0 x
      else
        match SMap.getD i.mbr key none with
        | none => s.putStrand t.val j.val i ({ x with z := true, c := false }).next
        | some (words, serial) =>
          let seen := SMap.find (s.task t.val).mbrSeen key
          let s := s.setTask t.val { s.task t.val with mbrSeen := SMap.put (s.task t.val).mbrSeen key serial }
          let s := s.millRead ch.val buf.val
          let i := { i with data := SMap.puts i.data ((upTo 18).map (fun n => (a + n, (words[n]?).getD 0))) }
          s.putStrand t.val j.val i ({ x with z := false, c := seen != some serial }).next))

/-- BR: forward where the condition holds; an undefined condition traps ILLEGAL (R136, R138, R139). -/
def execTwBr (t : Fin 16) (j : Fin 8) (cond : BitVec 4) (off : BitVec 16) (s : State) : Host.Outcome State Fault Refusal :=
  ok (s.twist t j (wordB cond off) (fun s i x =>
    match x.cond cond.toNat with
    | none => s.trapStrand t.val j.val 8 0 x
    | some b => s.putStrand t.val j.val i (if b then x.jump (x.pc + 1 + off.toNat) else x.next)))

/-- BTAG: forward where the test of LT holds (R138, R139). -/
def execTwBtag (t : Fin 16) (j : Fin 8) (mode q : BitVec 2) (mask : BitVec 6) (off : BitVec 16) (s : State) : Host.Outcome State Fault Refusal :=
  ok (s.twist t j (wordG mode q mask off) (fun s i x =>
    s.putStrand t.val j.val i
      (if x.tagTest mode.toNat q.toNat mask then x.jump (x.pc + 1 + off.toNat) else x.next)))

/-- LOOP: the next len words run gc times; a count below 0 or above max traps LOOP_BOUND, a fifth loop counter ILLEGAL
(R127, R138, R141). [log 32 DEDUCED] -/
def execTwLoop (t : Fin 16) (j : Fin 8) (gc : Fin 32) (max1 : BitVec 12) (len : BitVec 13) (s : State) : Host.Outcome State Fault Refusal :=
  ok (s.twist t j (wordL gc max1 len) (fun s i x =>
    let n := (x.reg gc.val).toInt
    if n < 0 ∨ (max1.toNat : Int) + 1 < n then s.trapStrand t.val j.val 4 0 x
    else if 4 ≤ x.loops.length then s.trapStrand t.val j.val 8 0 x
    else if n = 0 then s.putStrand t.val j.val i (x.jump (x.pc + 1 + len.toNat))
    else
      let f : LoopFrame := ⟨x.pc + 1, x.pc + len.toNat, n.toNat, 0, x.calls.length⟩
      s.putStrand t.val j.val i (x.enterLoop f)))

/-- CALL: the return address is pushed; a ninth one traps ILLEGAL (R127, R138). [log 32 DEDUCED] -/
def execTwCall (t : Fin 16) (j : Fin 8) (target : BitVec 16) (s : State) : Host.Outcome State Fault Refusal :=
  ok (s.twist t j (wordJ target) (fun s i x =>
    if 8 ≤ x.calls.length then s.trapStrand t.val j.val 8 0 x
    else s.putStrand t.val j.val i (x.call target.toNat)))

/-- RET: the return address is popped (R138). A verified program has one. [log 32 DEDUCED] -/
def execTwRet (t : Fin 16) (j : Fin 8) (s : State) : Host.Outcome State Fault Refusal :=
  ok (s.twist t j (wordX 0x34 0) (fun s i x =>
    match x.calls with
    | [] => s.trapStrand t.val j.val 8 0 x
    | r :: rs => s.putStrand t.val j.val i (({ x with calls := rs }).jump r)))

/-- END: the strand ends, its spindle takes the next, and the last to end starts the commit (R105, R106, R138). -/
def execTwEnd (t : Fin 16) (j : Fin 8) (s : State) : Host.Outcome State Fault Refusal :=
  ok (s.twist t j (wordX 0x35 0) (fun s i x =>
    let i := i.setStrand j.val { x with phase := .ended }
    let i := if i.strands.all (fun y => y.phase == .ended) then { i with phase := .committing } else i
    let s := s.setInst t.val i
    let s : State := { s with tasks := { s.tasks with
      spindle := s.tasks.spindle.filter (fun e => e.2 != t.val * 8 + j.val) } }
    s.dispatchSpindles))

/-- TRAP: USER with the user code (R138, R141). -/
def execTwTrap (t : Fin 16) (j : Fin 8) (user : BitVec 8) (s : State) : Host.Outcome State Fault Refusal :=
  ok (s.twist t j (wordX 0x36 user) (fun s _ x => s.trapStrand t.val j.val 6 user.toNat x))

/-- NOP (R138). -/
def execTwNop (t : Fin 16) (j : Fin 8) (s : State) : Host.Outcome State Fault Refusal :=
  ok (s.alu t j (wordX 0x37 0) false (fun x =>
    x))

/-- UNDEFINED_ENCODING_REACHED: a word with no defined encoding traps ILLEGAL, and one with an uncorrectable error MEMORY
(R136, R141, R142). -/
def execUndefinedEncodingReached (t : Fin 16) (j : Fin 8) (ecc : Bool) (s : State) : Host.Outcome State Fault Refusal :=
  ok (s.twistIf t j (fun w => ecc || !wordOk w) (fun s _ x => s.trapStrand t.val j.val (if ecc then 7 else 8) 0 x))

end Sys2Proof.Machine
end

