-- ==== Sys2Proof/Machine/Dispatch.lean ====
section
/-! DEFINITION. The meaning of every command: one arm per constructor, each a call of one meaning. -/

namespace Sys2Proof.Machine

/-- The effect of a command on everything but the queue. -/
def exec (i : Instr) (s : State) : Host.Outcome State Fault Refusal :=
  match i with
  | .turnEngineStart => Sys2Proof.Machine.execTurnEngineStart s
  | .turnBoundary => Sys2Proof.Machine.execTurnBoundary s
  | .inputCutoff => Sys2Proof.Machine.execInputCutoff s
  | .loopEvaluationDone loop residueBad => Sys2Proof.Machine.execLoopEvaluationDone loop residueBad s
  | .traceCaptureRecord g => Sys2Proof.Machine.execTraceCaptureRecord g s
  | .releaseInstant => Sys2Proof.Machine.execReleaseInstant s
  | .wheelDeadline => Sys2Proof.Machine.execWheelDeadline s
  | .regulationIntervalEnd => Sys2Proof.Machine.execRegulationIntervalEnd s
  | .stageWedged cls unit => Sys2Proof.Machine.execStageWedged cls unit s
  | .slackClearMin => Sys2Proof.Machine.execSlackClearMin s
  | .slackClearSlips => Sys2Proof.Machine.execSlackClearSlips s
  | .lowWordRead off aligned => Sys2Proof.Machine.execLowWordRead off aligned s
  | .hostWriteTaken => Sys2Proof.Machine.execHostWriteTaken s
  | .forceApply => Sys2Proof.Machine.execForceApply s
  | .orderAckTimeout seq => Sys2Proof.Machine.execOrderAckTimeout seq s
  | .skeinLinkChange p link => Sys2Proof.Machine.execSkeinLinkChange p link s
  | .inputFrameReceived p frame => Sys2Proof.Machine.execInputFrameReceived p frame s
  | .partnerFrameNotShadow epoch proxy brake => Sys2Proof.Machine.execPartnerFrameNotShadow epoch proxy brake s
  | .joinFrameReceived p frame => Sys2Proof.Machine.execJoinFrameReceived p frame s
  | .joinAnswer p pos => Sys2Proof.Machine.execJoinAnswer p pos s
  | .turnMarkReceived p turn6 offset arrival => Sys2Proof.Machine.execTurnMarkReceived p turn6 offset arrival s
  | .echoRspReceived p pos seq elapsed echoTurn => Sys2Proof.Machine.execEchoRspReceived p pos seq elapsed echoTurn s
  | .setupRecordRepeat p pos => Sys2Proof.Machine.execSetupRecordRepeat p pos s
  | .chainBroken p => Sys2Proof.Machine.execChainBroken p s
  | .chainIntact p => Sys2Proof.Machine.execChainIntact p s
  | .stationLost p pos => Sys2Proof.Machine.execStationLost p pos s
  | .joiningTimeout p pos => Sys2Proof.Machine.execJoiningTimeout p pos s
  | .budgetComparison p => Sys2Proof.Machine.execBudgetComparison p s
  | .proxyStart p pos => Sys2Proof.Machine.execProxyStart p pos s
  | .proxyStop p pos => Sys2Proof.Machine.execProxyStop p pos s
  | .skClearCnt p => Sys2Proof.Machine.execSkClearCnt p s
  | .taskInputCopyDone t => Sys2Proof.Machine.execTaskInputCopyDone t s
  | .taskCommitDone t => Sys2Proof.Machine.execTaskCommitDone t s
  | .taskStart t => Sys2Proof.Machine.execTaskStart t s
  | .overrunDecision t => Sys2Proof.Machine.execOverrunDecision t s
  | .turnWatchdogTrip => Sys2Proof.Machine.execTurnWatchdogTrip s
  | .keyPositionTaken lines => Sys2Proof.Machine.execKeyPositionTaken lines s
  | .keyInvalidLock lines => Sys2Proof.Machine.execKeyInvalidLock lines s
  | .keyEffectiveChange => Sys2Proof.Machine.execKeyEffectiveChange s
  | .keyDisagree => Sys2Proof.Machine.execKeyDisagree s
  | .retainFlushStart => Sys2Proof.Machine.execRetainFlushStart s
  | .retainFlushDone ok => Sys2Proof.Machine.execRetainFlushDone ok s
  | .retainFlushNow => Sys2Proof.Machine.execRetainFlushNow s
  | .twAdd t j gd ga gb residueBad => Sys2Proof.Machine.execTwAdd t j gd ga gb residueBad s
  | .twSub t j gd ga gb residueBad => Sys2Proof.Machine.execTwSub t j gd ga gb residueBad s
  | .twAdds t j gd ga gb residueBad => Sys2Proof.Machine.execTwAdds t j gd ga gb residueBad s
  | .twSubs t j gd ga gb residueBad => Sys2Proof.Machine.execTwSubs t j gd ga gb residueBad s
  | .twAnd t j gd ga gb => Sys2Proof.Machine.execTwAnd t j gd ga gb s
  | .twOr t j gd ga gb => Sys2Proof.Machine.execTwOr t j gd ga gb s
  | .twXor t j gd ga gb => Sys2Proof.Machine.execTwXor t j gd ga gb s
  | .twAndn t j gd ga gb => Sys2Proof.Machine.execTwAndn t j gd ga gb s
  | .twShl t j gd ga gb residueBad => Sys2Proof.Machine.execTwShl t j gd ga gb residueBad s
  | .twShr t j gd ga gb => Sys2Proof.Machine.execTwShr t j gd ga gb s
  | .twSar t j gd ga gb => Sys2Proof.Machine.execTwSar t j gd ga gb s
  | .twMin t j gd ga gb => Sys2Proof.Machine.execTwMin t j gd ga gb s
  | .twMax t j gd ga gb => Sys2Proof.Machine.execTwMax t j gd ga gb s
  | .twCmp t j ga gb bad => Sys2Proof.Machine.execTwCmp t j ga gb bad s
  | .twAbs t j gd ga residueBad => Sys2Proof.Machine.execTwAbs t j gd ga residueBad s
  | .twNeg t j gd ga residueBad => Sys2Proof.Machine.execTwNeg t j gd ga residueBad s
  | .twMul t j gd ga gb residueBad => Sys2Proof.Machine.execTwMul t j gd ga gb residueBad s
  | .twMulq t j gd ga gb residueBad => Sys2Proof.Machine.execTwMulq t j gd ga gb residueBad s
  | .twDiv t j gd ga gb residueBad => Sys2Proof.Machine.execTwDiv t j gd ga gb residueBad s
  | .twDivq t j gd ga gb residueBad => Sys2Proof.Machine.execTwDivq t j gd ga gb residueBad s
  | .twSatq t j gd ga => Sys2Proof.Machine.execTwSatq t j gd ga s
  | .twSel t j gd ga gb => Sys2Proof.Machine.execTwSel t j gd ga gb s
  | .twRdf t j gd => Sys2Proof.Machine.execTwRdf t j gd s
  | .twClq t j => Sys2Proof.Machine.execTwClq t j s
  | .twAddi t j gd ga imm residueBad => Sys2Proof.Machine.execTwAddi t j gd ga imm residueBad s
  | .twAndi t j gd ga imm => Sys2Proof.Machine.execTwAndi t j gd ga imm s
  | .twOri t j gd ga imm => Sys2Proof.Machine.execTwOri t j gd ga imm s
  | .twXori t j gd ga imm => Sys2Proof.Machine.execTwXori t j gd ga imm s
  | .twCmpi t j ga imm bad => Sys2Proof.Machine.execTwCmpi t j ga imm bad s
  | .twShi t j gd ga imm residueBad => Sys2Proof.Machine.execTwShi t j gd ga imm residueBad s
  | .twLui t j gd imm => Sys2Proof.Machine.execTwLui t j gd imm s
  | .twLds t j gd gi slot ecc => Sys2Proof.Machine.execTwLds t j gd gi slot ecc s
  | .twLde t j gd gi slot ecc => Sys2Proof.Machine.execTwLde t j gd gi slot ecc s
  | .twTag t j gd gi slot ecc => Sys2Proof.Machine.execTwTag t j gd gi slot ecc s
  | .twSts t j gs gi m slot => Sys2Proof.Machine.execTwSts t j gs gi m slot s
  | .twWinb t j gd ga n1 base ecc => Sys2Proof.Machine.execTwWinb t j gd ga n1 base ecc s
  | .twLdw t j gd gb off ecc => Sys2Proof.Machine.execTwLdw t j gd gb off ecc s
  | .twStw t j gs gb off => Sys2Proof.Machine.execTwStw t j gs gb off s
  | .twTrd t j gd sel => Sys2Proof.Machine.execTwTrd t j gd sel s
  | .twLix t j gd => Sys2Proof.Machine.execTwLix t j gd s
  | .twLpr t j gd gi node loop ecc => Sys2Proof.Machine.execTwLpr t j gd gi node loop ecc s
  | .twLpw t j gs gi node loop => Sys2Proof.Machine.execTwLpw t j gs gi node loop s
  | .twMbq t j gb ch buf off ecc => Sys2Proof.Machine.execTwMbq t j gb ch buf off ecc s
  | .twMbr t j gb ch buf off ecc => Sys2Proof.Machine.execTwMbr t j gb ch buf off ecc s
  | .twBr t j cond off => Sys2Proof.Machine.execTwBr t j cond off s
  | .twBtag t j mode q mask off => Sys2Proof.Machine.execTwBtag t j mode q mask off s
  | .twLoop t j gc max1 len => Sys2Proof.Machine.execTwLoop t j gc max1 len s
  | .twCall t j target => Sys2Proof.Machine.execTwCall t j target s
  | .twRet t j => Sys2Proof.Machine.execTwRet t j s
  | .twEnd t j => Sys2Proof.Machine.execTwEnd t j s
  | .twTrap t j user => Sys2Proof.Machine.execTwTrap t j user s
  | .twNop t j => Sys2Proof.Machine.execTwNop t j s
  | .trapDecision t => Sys2Proof.Machine.execTrapDecision t s
  | .progVerifyDone slot => Sys2Proof.Machine.execProgVerifyDone slot s
  | .onlineCarry t eccWords => Sys2Proof.Machine.execOnlineCarry t eccWords s
  | .onlineCarryDone t => Sys2Proof.Machine.execOnlineCarryDone t s
  | .traceArm g => Sys2Proof.Machine.execTraceArm g s
  | .traceStop g => Sys2Proof.Machine.execTraceStop g s
  | .traceForce g => Sys2Proof.Machine.execTraceForce g s
  | .publishReceived east errBlock frame => Sys2Proof.Machine.execPublishReceived east errBlock frame s
  | .beaconReceived east errBlock frame => Sys2Proof.Machine.execBeaconReceived east errBlock frame s
  | .beaconSend => Sys2Proof.Machine.execBeaconSend s
  | .memberSilent pos => Sys2Proof.Machine.execMemberSilent pos s
  | .clashCleared pos => Sys2Proof.Machine.execClashCleared pos s
  | .publicationLaunch => Sys2Proof.Machine.execPublicationLaunch s
  | .bypassOpen => Sys2Proof.Machine.execBypassOpen s
  | .ringLinkChange east link => Sys2Proof.Machine.execRingLinkChange east link s
  | .hopMarkSend east sub => Sys2Proof.Machine.execHopMarkSend east sub s
  | .hopMarkReceived east seq sub => Sys2Proof.Machine.execHopMarkReceived east seq sub s
  | .hopReportSend => Sys2Proof.Machine.execHopReportSend s
  | .hopReportReceived east errBlock frame => Sys2Proof.Machine.execHopReportReceived east errBlock frame s
  | .hopEntryExpired pos back launch => Sys2Proof.Machine.execHopEntryExpired pos back launch s
  | .refclkLost => Sys2Proof.Machine.execRefclkLost s
  | .refclkRestored => Sys2Proof.Machine.execRefclkRestored s
  | .masterElection dom => Sys2Proof.Machine.execMasterElection dom s
  | .domainStart dom => Sys2Proof.Machine.execDomainStart dom s
  | .timeRestart dom => Sys2Proof.Machine.execTimeRestart dom s
  | .timeSnap => Sys2Proof.Machine.execTimeSnap s
  | .incWrite dom v => Sys2Proof.Machine.execIncWrite dom v s
  | .incApply dom => Sys2Proof.Machine.execIncApply dom s
  | .slewTicksWrite dom n => Sys2Proof.Machine.execSlewTicksWrite dom n s
  | .slewEnd dom => Sys2Proof.Machine.execSlewEnd dom s
  | .ppsEdge dom sub => Sys2Proof.Machine.execPpsEdge dom sub s
  | .ppsLost dom => Sys2Proof.Machine.execPpsLost dom s
  | .domainFrameSend dom => Sys2Proof.Machine.execDomainFrameSend dom s
  | .domainFrameReceived east errBlock frame => Sys2Proof.Machine.execDomainFrameReceived east errBlock frame s
  | .domainHoldover dom => Sys2Proof.Machine.execDomainHoldover dom s
  | .holdExpired dom => Sys2Proof.Machine.execHoldExpired dom s
  | .workingTimeStart given => Sys2Proof.Machine.execWorkingTimeStart given s
  | .slewDone => Sys2Proof.Machine.execSlewDone s
  | .domainSwitch => Sys2Proof.Machine.execDomainSwitch s
  | .timeXchgSend => Sys2Proof.Machine.execTimeXchgSend s
  | .timeXchgReceived diffPs => Sys2Proof.Machine.execTimeXchgReceived diffPs s
  | .plyTimeDiffExceeded => Sys2Proof.Machine.execPlyTimeDiffExceeded s
  | .ppsOutPulse => Sys2Proof.Machine.execPpsOutPulse s
  | .ppsOutFall => Sys2Proof.Machine.execPpsOutFall s
  | .alarmFire a => Sys2Proof.Machine.execAlarmFire a s
  | .leapApply => Sys2Proof.Machine.execLeapApply s
  | .leapTableEffect => Sys2Proof.Machine.execLeapTableEffect s
  | .calendarWrite => Sys2Proof.Machine.execCalendarWrite s
  | .heartbeatSend => Sys2Proof.Machine.execHeartbeatSend s
  | .heartbeatReceived count flags => Sys2Proof.Machine.execHeartbeatReceived count flags s
  | .heartbeatMissed => Sys2Proof.Machine.execHeartbeatMissed s
  | .ownHeartbeatLoss => Sys2Proof.Machine.execOwnHeartbeatLoss s
  | .abdicateLineAsserted => Sys2Proof.Machine.execAbdicateLineAsserted s
  | .tokenClassChange cls => Sys2Proof.Machine.execTokenClassChange cls s
  | .catchUpLaunch => Sys2Proof.Machine.execCatchUpLaunch s
  | .bridgeReceived h inner => Sys2Proof.Machine.execBridgeReceived h inner s
  | .releasedReceived h station payload => Sys2Proof.Machine.execReleasedReceived h station payload s
  | .reachReceived h reach => Sys2Proof.Machine.execReachReceived h reach s
  | .digestReceived h dg => Sys2Proof.Machine.execDigestReceived h dg s
  | .digestCompute => Sys2Proof.Machine.execDigestCompute s
  | .completionReceived h task trap pc doneNs => Sys2Proof.Machine.execCompletionReceived h task trap pc doneNs s
  | .millSnapReceived h ch buf words => Sys2Proof.Machine.execMillSnapReceived h ch buf words s
  | .hostWriteReceived h b writes => Sys2Proof.Machine.execHostWriteReceived h b writes s
  | .orderReceived h order => Sys2Proof.Machine.execOrderReceived h order s
  | .ackReceived h code seq refused => Sys2Proof.Machine.execAckReceived h code seq refused s
  | .healthSend => Sys2Proof.Machine.execHealthSend s
  | .healthReceived h payload => Sys2Proof.Machine.execHealthReceived h payload s
  | .stateSend item first count => Sys2Proof.Machine.execStateSend item first count s
  | .stateReceived h item commitTurn first words => Sys2Proof.Machine.execStateReceived h item commitTurn first words s
  | .plyJoinReceived h join => Sys2Proof.Machine.execPlyJoinReceived h join s
  | .startingTimeout => Sys2Proof.Machine.execStartingTimeout s
  | .plyLinkUp => Sys2Proof.Machine.execPlyLinkUp s
  | .plyLinkDown training => Sys2Proof.Machine.execPlyLinkDown training s
  | .autoRejoin => Sys2Proof.Machine.execAutoRejoin s
  | .autoRestart => Sys2Proof.Machine.execAutoRestart s
  | .plyCmdRejoin => Sys2Proof.Machine.execPlyCmdRejoin s
  | .plyCmdHandover => Sys2Proof.Machine.execPlyCmdHandover s
  | .plyCmdLeave => Sys2Proof.Machine.execPlyCmdLeave s
  | .plannedHandoverSwitch => Sys2Proof.Machine.execPlannedHandoverSwitch s
  | .revert => Sys2Proof.Machine.execRevert s
  | .joinTimeout => Sys2Proof.Machine.execJoinTimeout s
  | .joinCaptureBoundary => Sys2Proof.Machine.execJoinCaptureBoundary s
  | .replayCaughtUp => Sys2Proof.Machine.execReplayCaughtUp s
  | .replayBehind => Sys2Proof.Machine.execReplayBehind s
  | .divergedTimeout => Sys2Proof.Machine.execDivergedTimeout s
  | .millHeartbeatSend => Sys2Proof.Machine.execMillHeartbeatSend s
  | .brakeInputAssert line => Sys2Proof.Machine.execBrakeInputAssert line s
  | .brakeInputRelease line => Sys2Proof.Machine.execBrakeInputRelease line s
  | .brakeFrameRefresh => Sys2Proof.Machine.execBrakeFrameRefresh s
  | .brkClearWrite v => Sys2Proof.Machine.execBrkClearWrite v s
  | .brkSoftWrite v => Sys2Proof.Machine.execBrkSoftWrite v s
  | .softBrakeApply => Sys2Proof.Machine.execSoftBrakeApply s
  | .brkLockWrite v => Sys2Proof.Machine.execBrkLockWrite v s
  | .brkFirstClearWrite v => Sys2Proof.Machine.execBrkFirstClearWrite v s
  | .inputLost => Sys2Proof.Machine.execInputLost s
  | .lastGaspRecordDone => Sys2Proof.Machine.execLastGaspRecordDone s
  | .keepIslandUpdate => Sys2Proof.Machine.execKeepIslandUpdate s
  | .holdupSpent => Sys2Proof.Machine.execHoldupSpent s
  | .ejectorOpen => Sys2Proof.Machine.execEjectorOpen s
  | .ejectorClosed => Sys2Proof.Machine.execEjectorClosed s
  | .doorbellReadEnd pageOk page cmds => Sys2Proof.Machine.execDoorbellReadEnd pageOk page cmds s
  | .cmdNop c => Sys2Proof.Machine.execCmdNop c s
  | .cmdSigRead c => Sys2Proof.Machine.execCmdSigRead c s
  | .cmdSigWrite c => Sys2Proof.Machine.execCmdSigWrite c s
  | .cmdSlotStatus c => Sys2Proof.Machine.execCmdSlotStatus c s
  | .cmdLoopRead c => Sys2Proof.Machine.execCmdLoopRead c s
  | .cmdLoopWrite c => Sys2Proof.Machine.execCmdLoopWrite c s
  | .cmdForce c => Sys2Proof.Machine.execCmdForce c s
  | .cmdUnforce c => Sys2Proof.Machine.execCmdUnforce c s
  | .cmdForceList c => Sys2Proof.Machine.execCmdForceList c s
  | .cmdStageRegs c => Sys2Proof.Machine.execCmdStageRegs c s
  | .cmdStageSlots c => Sys2Proof.Machine.execCmdStageSlots c s
  | .cmdCheck c => Sys2Proof.Machine.execCmdCheck c s
  | .checkDone => Sys2Proof.Machine.execCheckDone s
  | .cmdCommit c => Sys2Proof.Machine.execCmdCommit c s
  | .commitAccepted => Sys2Proof.Machine.execCommitAccepted s
  | .commitApply => Sys2Proof.Machine.execCommitApply s
  | .commitImageWritten => Sys2Proof.Machine.execCommitImageWritten s
  | .cmdDiscard c => Sys2Proof.Machine.execCmdDiscard c s
  | .cmdProgLoad c => Sys2Proof.Machine.execCmdProgLoad c s
  | .cmdProgRead c => Sys2Proof.Machine.execCmdProgRead c s
  | .cmdLogRead c => Sys2Proof.Machine.execCmdLogRead c s
  | .cmdLogErase c => Sys2Proof.Machine.execCmdLogErase c s
  | .cmdFwManifest c => Sys2Proof.Machine.execCmdFwManifest c s
  | .cmdFwDelta c => Sys2Proof.Machine.execCmdFwDelta c s
  | .cmdFwActivate c => Sys2Proof.Machine.execCmdFwActivate c s
  | .cmdFwConfirm c => Sys2Proof.Machine.execCmdFwConfirm c s
  | .cmdMillSend c => Sys2Proof.Machine.execCmdMillSend c s
  | .millSendPending ch b => Sys2Proof.Machine.execMillSendPending ch b s
  | .cmdMillRead c => Sys2Proof.Machine.execCmdMillRead c s
  | .msixCoalTimeout v => Sys2Proof.Machine.execMsixCoalTimeout v s
  | .flr => Sys2Proof.Machine.execFlr s
  | .perstChange asserted => Sys2Proof.Machine.execPerstChange asserted s
  | .hostLinkDown => Sys2Proof.Machine.execHostLinkDown s
  | .pmStateChange dstate busMaster => Sys2Proof.Machine.execPmStateChange dstate busMaster s
  | .ringEnableWrite ring v => Sys2Proof.Machine.execRingEnableWrite ring v s
  | .policyLockWrite v => Sys2Proof.Machine.execPolicyLockWrite v s
  | .bar2Access off len wdata ecc => Sys2Proof.Machine.execBar2Access off len wdata ecc s
  | .bar0RegisterWrite off v aligned => Sys2Proof.Machine.execBar0RegisterWrite off v aligned s
  | .millFrameReceived ch f => Sys2Proof.Machine.execMillFrameReceived ch f s
  | .millFrameSent ch src => Sys2Proof.Machine.execMillFrameSent ch src s
  | .millTxError ch src inData => Sys2Proof.Machine.execMillTxError ch src inData s
  | .millRecovered ch => Sys2Proof.Machine.execMillRecovered ch s
  | .mbCmdRestart ch => Sys2Proof.Machine.execMbCmdRestart ch s
  | .mbCmdUnmute ch => Sys2Proof.Machine.execMbCmdUnmute ch s
  | .mbCmdClearCnt ch => Sys2Proof.Machine.execMbCmdClearCnt ch s
  | .millCycleStart ch => Sys2Proof.Machine.execMillCycleStart ch s
  | .millWindowStart ch b => Sys2Proof.Machine.execMillWindowStart ch b s
  | .millWindowEnd ch b => Sys2Proof.Machine.execMillWindowEnd ch b s
  | .millRefLost ch => Sys2Proof.Machine.execMillRefLost ch s
  | .millDominantTimeout ch => Sys2Proof.Machine.execMillDominantTimeout ch s
  | .mbRdSelWrite ch v => Sys2Proof.Machine.execMbRdSelWrite ch v s
  | .mbRdIdRead ch => Sys2Proof.Machine.execMbRdIdRead ch s
  | .mbRdStamp2Read ch => Sys2Proof.Machine.execMbRdStamp2Read ch s
  | .readLockTimeout ch => Sys2Proof.Machine.execReadLockTimeout ch s
  | .millMapTaken ch b => Sys2Proof.Machine.execMillMapTaken ch b s
  | .millMapStale ch b => Sys2Proof.Machine.execMillMapStale ch b s
  | .gsStart u host => Sys2Proof.Machine.execGsStart u host s
  | .gsStop u host => Sys2Proof.Machine.execGsStop u host s
  | .gsFeedB u host v => Sys2Proof.Machine.execGsFeedB u host v s
  | .gsFeedH u host v => Sys2Proof.Machine.execGsFeedH u host v s
  | .gsFeedW u host v => Sys2Proof.Machine.execGsFeedW u host v s
  | .acLockWrite u v => Sys2Proof.Machine.execAcLockWrite u v s
  | .acViolClear u => Sys2Proof.Machine.execAcViolClear u s
  | .trst => Sys2Proof.Machine.execTrst s
  | .bypass => Sys2Proof.Machine.execBypass s
  | .idcode => Sys2Proof.Machine.execIdcode s
  | .samplePreload cells => Sys2Proof.Machine.execSamplePreload cells s
  | .extest cells => Sys2Proof.Machine.execExtest cells s
  | .clamp => Sys2Proof.Machine.execClamp s
  | .dbgAddr v => Sys2Proof.Machine.execDbgAddr v s
  | .dbgDataCapture => Sys2Proof.Machine.execDbgDataCapture s
  | .dbgDataUpdate v => Sys2Proof.Machine.execDbgDataUpdate v s
  | .dbgStatus => Sys2Proof.Machine.execDbgStatus s
  | .dbgAcstat => Sys2Proof.Machine.execDbgAcstat s
  | .recManual => Sys2Proof.Machine.execRecManual s
  | .recSnapshot => Sys2Proof.Machine.execRecSnapshot s
  | .recRecordWritten => Sys2Proof.Machine.execRecRecordWritten s
  | .recHoldoffEnd n => Sys2Proof.Machine.execRecHoldoffEnd n s
  | .fwBuildDone => Sys2Proof.Machine.execFwBuildDone s
  | .fwSwitch => Sys2Proof.Machine.execFwSwitch s
  | .fwSelfConfirm => Sys2Proof.Machine.execFwSelfConfirm s
  | .fwFallBack => Sys2Proof.Machine.execFwFallBack s
  | .millerWatchdogRestart back => Sys2Proof.Machine.execMillerWatchdogRestart back s
  | .hyHello q => Sys2Proof.Machine.execHyHello q s
  | .hyOpen q => Sys2Proof.Machine.execHyOpen q s
  | .hyClose q => Sys2Proof.Machine.execHyClose q s
  | .hyStatus q => Sys2Proof.Machine.execHyStatus q s
  | .hyManifest q => Sys2Proof.Machine.execHyManifest q s
  | .hyDelta q => Sys2Proof.Machine.execHyDelta q s
  | .hyImage q => Sys2Proof.Machine.execHyImage q s
  | .hyActivate q => Sys2Proof.Machine.execHyActivate q s
  | .hyConfirm q => Sys2Proof.Machine.execHyConfirm q s
  | .hyRecover q => Sys2Proof.Machine.execHyRecover q s
  | .recoverReset => Sys2Proof.Machine.execRecoverReset s
  | .hyRetire q => Sys2Proof.Machine.execHyRetire q s
  | .hyLogRead q => Sys2Proof.Machine.execHyLogRead q s
  | .hyicaSessionTimeout => Sys2Proof.Machine.execHyicaSessionTimeout s
  | .recoveryImageDone => Sys2Proof.Machine.execRecoveryImageDone s
  | .neighborDiscovery toOwn echo => Sys2Proof.Machine.execNeighborDiscovery toOwn echo s
  | .svcLinkChange link => Sys2Proof.Machine.execSvcLinkChange link s
  | .pwrReqGo v => Sys2Proof.Machine.execPwrReqGo v s
  | .rungStepDone => Sys2Proof.Machine.execRungStepDone s
  | .serviceButtonPress => Sys2Proof.Machine.execServiceButtonPress s
  | .keepAlarmFire => Sys2Proof.Machine.execKeepAlarmFire s
  | .pwrResetWarm => Sys2Proof.Machine.execPwrResetWarm s
  | .pwrResetPartner => Sys2Proof.Machine.execPwrResetPartner s
  | .pwrResetCold => Sys2Proof.Machine.execPwrResetCold s
  | .partnerOrderedReset => Sys2Proof.Machine.execPartnerOrderedReset s
  | .warmReset => Sys2Proof.Machine.execWarmReset s
  | .inputGood straps keepOk button => Sys2Proof.Machine.execInputGood straps keepOk button s
  | .holdupCharged => Sys2Proof.Machine.execHoldupCharged s
  | .holdupTimeout => Sys2Proof.Machine.execHoldupTimeout s
  | .holdupLow => Sys2Proof.Machine.execHoldupLow s
  | .cellLow => Sys2Proof.Machine.execCellLow s
  | .partnerFrameCrossed p frame => Sys2Proof.Machine.execPartnerFrameCrossed p frame s
  | .undefinedEncodingReached t j ecc => Sys2Proof.Machine.execUndefinedEncodingReached t j ecc s
  | .millRxError ch amount => Sys2Proof.Machine.execMillRxError ch amount s
  | .millHeartbeatAbsent => Sys2Proof.Machine.execMillHeartbeatAbsent s
  | .arbitratingWindowStart ch => Sys2Proof.Machine.execArbitratingWindowStart ch s
  | .arbitratingWindowEnd ch => Sys2Proof.Machine.execArbitratingWindowEnd ch s
  | .msixFunctionUnmask => Sys2Proof.Machine.execMsixFunctionUnmask s
  | .partnerSilentWake => Sys2Proof.Machine.execPartnerSilentWake s
  | .commandedColdStart => Sys2Proof.Machine.execCommandedColdStart s
  | .hostLinkTrained speed width l1 => Sys2Proof.Machine.execHostLinkTrained speed width l1 s

end Sys2Proof.Machine
end

