-- ==== Sys2Proof/Machine/Step.lean ====
section
/-! DEFINITION. The step: the command at the front of the queue, or the time engine's tick on an empty queue. -/

namespace Sys2Proof.Machine

/-- One step. The command at the front of the queue runs on the state with the queue's rest. On an empty queue
the time engine ticks once while PD_TIME is on, and with PD_TIME off the keep island's calendar counts on (R11, R237,
R265). -/
def step (s : State) : Host.Outcome State Fault Refusal :=
  match s.pending with
  | [] => .next (Sys2Proof.Machine.timeTick s)
  | c :: rest => exec c { s with pending := rest }

/-- The state with the command that a word spells at the front of its queue; no word spells one.
[log 8 DESIGN CHOICE] -/
def State.withFetchWord (s : State) (nbits w : Nat) : State :=
  match Sys2Proof.decodeTableWord nbits w with
  | some c => { s with pending := c :: s.pending }
  | none => s

end Sys2Proof.Machine
end

