-- ==== Sys2Proof/Safety.lean ====
section
/-! DEFINITION. What counts as a safe run: a run in which no step stops, and the relations
in which statements say what a command leaves alone. -/

namespace Sys2Proof.Machine

/-- The machine answers a next state at s. -/
def runs (s : State) : Prop := ∃ t, step s = .next t

/-- n steps from s end in t, none of them a stop. -/
def reaches : Nat → State → State → Prop
  | 0, s, t => s = t
  | n + 1, s, t => ∃ u, step s = .next u ∧ reaches n u t

/-! Registers. -/

/-- Every register field at an offset outside W reads the same. A field is named by its offset and its lowest bit,
which lies below 32. -/
def RegsBut (W : Nat → Prop) (s t : State) : Prop := ∀ f : Fld, f.lo < 32 → ¬W f.off → t.rd f = s.rd f

/-- Two states differ in nothing but register fields. -/
def OnlyRegs (s t : State) : Prop := t = { s with regs := t.regs }

/-- The registers that raising an event source may write: the host registers of the event engine and of the message
table (R339, R344) and the violation registers of the access-control units (R408), to which a refused event
record counts. -/
def eventReg (off : Nat) : Prop := (0x2000 ≤ off ∧ off < 0x4000) ∨ (0xC040 ≤ off ∧ off < 0xC080)

/-- The banks of registers: BAR0 offsets by what they hold, in the order of the map (R4). The event bank holds the host
rings, the event engine and the message table; a refused event record counts in the violation bank (R408). -/
inductive Bank where
  | ident | hopper | events | turn | slack | fault | run | key | wdog | retain | task | prog | trap | online | time
  | ring | ply | brake | mill | seal | ac | viol | regions | log | fw | power | skein | stations | loops | trace
  deriving DecidableEq, Repr

/-- The offsets of a bank, first and first after. -/
def Bank.range : Bank → Nat × Nat
  | .ident => (0x0, 0x1000) | .hopper => (0x1000, 0x2000) | .events => (0x2000, 0x4000) | .turn => (0x4000, 0x4048)
  | .slack => (0x4048, 0x41A0) | .fault => (0x41A0, 0x4200) | .run => (0x4200, 0x4204) | .key => (0x4204, 0x420C)
  | .wdog => (0x420C, 0x4210) | .retain => (0x4210, 0x4400) | .task => (0x4400, 0x4600) | .prog => (0x4600, 0x4700)
  | .trap => (0x4700, 0x4800) | .online => (0x4800, 0x5000) | .time => (0x5000, 0x6000) | .ring => (0x6000, 0x7000)
  | .ply => (0x7000, 0x8000) | .brake => (0x8000, 0x9000) | .mill => (0x9000, 0xB000) | .seal => (0xB000, 0xC000)
  | .ac => (0xC000, 0xC040) | .viol => (0xC040, 0xC080) | .regions => (0xC080, 0xD000) | .log => (0xD000, 0xE000)
  | .fw => (0xE000, 0xF000) | .power => (0xF000, 0x10000) | .skein => (0x10000, 0x20000)
  | .stations => (0x20000, 0x40000) | .loops => (0x40000, 0x80000) | .trace => (0x80000, 0x90000)

/-- Every register field outside the banks named reads the same. -/
def RegsIn (B : List Bank) (s t : State) : Prop :=
  ∀ f : Fld, f.lo < 32 → (∀ b ∈ B, ¬(b.range.1 ≤ f.off ∧ f.off < b.range.2)) → t.rd f = s.rd f

/-! What a command leaves alone. -/

/-- The units of the state, and the parts of them that few commands change: the active and the staged settings and
their copy in MRAM (R345, R352), the active programs (R148), the forces (R62), the turn number (R27), the
retained copies (R111), the latched rows of the brake matrix (R303), the log (R417) and the firmware slots (R428). -/
inductive Part where
  | settings | staged | settingsMram | hop | programs | progs | forces | image | turnNumber | turn | skein
  | retained | tasks | loops | trace | ring | time | ply | rows | brake | host | mill | seals | dbg | log
  | recorder | fwSlots | fw | pwr | mem | caps
  deriving DecidableEq, Repr

/-- Is a part the same in two states? -/
abbrev Same (p : Part) (s t : State) : Prop :=
  match p with
  | .settings => t.hop.active = s.hop.active
  | .staged => t.hop.staged = s.hop.staged
  | .settingsMram => t.hop.mram = s.hop.mram
  | .hop => t.hop = s.hop
  | .programs => t.progs.active = s.progs.active
  | .progs => t.progs = s.progs
  | .forces => t.image.forces = s.image.forces
  | .image => t.image = s.image
  | .turnNumber => t.turn.k = s.turn.k
  | .turn => t.turn = s.turn
  | .skein => t.skein = s.skein
  | .retained => t.tasks.retain = s.tasks.retain
  | .tasks => t.tasks = s.tasks
  | .loops => t.loops = s.loops
  | .trace => t.trace = s.trace
  | .ring => t.ring = s.ring
  | .time => t.time = s.time
  | .ply => t.ply = s.ply
  | .rows => t.brake.latched = s.brake.latched
  | .brake => t.brake = s.brake
  | .host => t.host = s.host
  | .mill => t.mill = s.mill
  | .seals => t.seals = s.seals
  | .dbg => t.dbg = s.dbg
  | .log => t.recorder.records = s.recorder.records
  | .recorder => t.recorder = s.recorder
  | .fwSlots => t.fw.slots = s.fw.slots
  | .fw => t.fw = s.fw
  | .pwr => t.pwr = s.pwr
  | .mem => t.mem = s.mem
  | .caps => t.caps = s.caps

end Sys2Proof.Machine
end

