-- ==== Sys2Proof/Certificates/Slice0/Obligations.lean ====
section
/-! DEFINITION. The statements for the provers: what the commands do, what they leave alone, and what every step keeps. -/

namespace Sys2Proof.Machine

/-! Twist code. -/

/-- Strand j of task t is x, running in the instance i, and the SPINDLE unit permits the fetch of its next word. -/
def Running (s : State) (t : Fin 16) (j : Fin 8) (i : TaskInst) (x : Strand) : Prop :=
  s.strandOn t.val j.val = some (i, x) ∧ (s.fetchWord t.val j.val i x).2 = true

/-- The strand stands at a word that spells the instruction, whatever its unused fields hold (R127, R135, R136): a strand
runs no other. -/
def Stands (a : Instr) (i : TaskInst) (j : Fin 8) (x : Strand) : Prop := twistWord a = some (wordCanon (i.word j.val x))

/-- From s to u strand j of task t becomes y in the instance i, and nothing else of the module changes: no register,
no other task, no other strand. -/
def StrandStep (s u : State) (t : Fin 16) (j : Fin 8) (i : TaskInst) (y : Strand) : Prop :=
  u.task t.val = { s.task t.val with inst := some { i with strands := i.strands.set j.val y } } ∧
    (∀ n, n ≠ t.val → u.task n = s.task n) ∧ u = { s with tasks := { s.tasks with task := u.tasks.task } }

/-- The program counter moves to an address, by way of the loops that end there, and keeps 14 bits of it (R127); calls and
phase stay. -/
def MovesTo (x y : Strand) (pc : Nat) : Prop :=
  let r := jumpLoops x.calls.length x.loops pc
  y.loops = r.1 ∧ y.pc = r.2 % 2 ^ 14 ∧ y.calls = x.calls ∧ y.phase = x.phase

/-- Register gd takes v, g0 keeps reading 0, and every other register keeps its value. -/
def Writes (x y : Strand) (gd : Nat) (v : Word36) : Prop := ∀ r, y.reg r = if r = gd ∧ r ≠ 0 then v else x.reg r

/-- The five flags and the last tag of a strand. -/
def FlagsAre (y : Strand) (z n c v q : Bool) (lt : Tag) : Prop :=
  y.z = z ∧ y.n = n ∧ y.c = c ∧ y.v = v ∧ y.q = q ∧ y.lt = lt

/-- The instruction, where the strand stands at it, completes: gd takes v, the flags are as given, LT stays, and the strand
goes on at the next word. -/
def Completes (a : Instr) (s : State) (t : Fin 16) (j : Fin 8) (i : TaskInst) (x : Strand) (gd : Nat) (v : Word36)
    (z n c o q : Bool) : Prop :=
  Stands a i j x → ∃ u y, exec a s = .next u ∧ StrandStep s u t j i y ∧ MovesTo x y (x.pc + 1) ∧ Writes x y gd v ∧ FlagsAre y z n c o q x.lt

/-- The 36-bit word of an exact result. -/
def word36 (e : Int) : Word36 := BitVec.ofInt 36 e
/-- Does an exact result lie outside −2^35 to 2^35 − 1? -/
def over36 (e : Int) : Bool := decide (e < -2 ^ 35) || decide (2 ^ 35 ≤ e)
/-- sat36 of R128. -/
def clamp36 (e : Int) : Int := min (max e (-2 ^ 35)) (2 ^ 35 - 1)
/-- sat18 of R128. -/
def clamp18 (e : Int) : Int := min (max e (-131072)) 131071
/-- tdiv of R128: toward zero. -/
def quotient (a b : Int) : Int := a.sign * b.sign * ((a.natAbs / b.natAbs : Nat) : Int)
/-- rdiv of R128: nearest, ties away from zero. -/
def nearest (a b : Int) : Int := a.sign * b.sign * (((2 * a.natAbs + b.natAbs) / (2 * b.natAbs) : Nat) : Int)
/-- rsh of R128: division by 2^s, ties away from zero. -/
def roundShift (e : Int) (s : Nat) : Int := e.sign * (((e.natAbs + 2 ^ (s - 1)) / 2 ^ s : Nat) : Int)

/-- A shift left by n: the result and the last bit shifted out (R137). -/
def shiftsLeft (a : Word36) (n : Nat) : Word36 × Bool := (a <<< n, decide (1 ≤ n) && decide (n ≤ 36) && a.getLsbD (36 - n))
/-- A logical shift right by n (R137). -/
def shiftsRight (a : Word36) (n : Nat) : Word36 × Bool := (a >>> n, decide (1 ≤ n) && decide (n ≤ 36) && a.getLsbD (n - 1))
/-- An arithmetic shift right by n: from 36 on, every bit and C are the sign (R137). -/
def shiftsArith (a : Word36) (n : Nat) : Word36 × Bool := (a.sshiftRight n, decide (1 ≤ n) && a.getLsbD (min n 36 - 1))

/-- The number of slots or loops by which an indexed access moves (R129): 0 without an index register, else the register's
value where it lies from 0 to the bound that the program declares for the word. -/
def Indexes (i : TaskInst) (j : Fin 8) (x : Strand) (gi : Fin 32) (n : Nat) : Prop :=
  (gi.val = 0 ∧ n = 0) ∨
    (gi.val ≠ 0 ∧ ∃ b, progBound i.prog j.val x.pc = some b ∧ (x.reg gi.val).toInt = (n : Int) ∧ n ≤ b)

/-- The instruction, where the strand stands at it, completes: the strand goes on at the next word in an instance i' of the
task, gd takes v, and the flags and LT are as given. -/
def GoesOn (a : Instr) (s : State) (t : Fin 16) (j : Fin 8) (i' : TaskInst) (x : Strand) (gd : Nat) (v : Word36)
    (z n c o q : Bool) (lt : Tag) : Prop :=
  Stands a i' j x → ∃ u y, exec a s = .next u ∧ StrandStep s u t j i' y ∧ MovesTo x y (x.pc + 1) ∧ Writes x y gd v ∧ FlagsAre y z n c o q lt

/-- The condition of BR holds (R139). -/
def Holds (x : Strand) : Nat → Bool
  | 0 => true | 1 => x.z | 2 => !x.z | 3 => x.n != x.v | 4 => x.n == x.v | 5 => !x.z && (x.n == x.v)
  | 6 => x.z || (x.n != x.v) | 7 => x.c | 8 => !x.c | 9 => x.v | 10 => !x.v | _ => x.q

/-- The command completes: it answers a next state, of which P holds. -/
def Does (c : Instr) (s : State) (P : State → Prop) : Prop := ∃ t, exec c s = .next t ∧ P t

/-- At boundary k a TURN_MARK goes out on every Skein port whose link is up, launched before the lane's last slot, and in
every sixteenth turn a COUNT after it (R76, R77). -/
def MarksGoOut (s t : State) (k : Nat) : Prop :=
  ∀ p : Fin 16, s.rd (F.SK_STATUS_link p.val) = 2 →
    (∃ off, off < 656 ∧ Out.skeinBlock p.val 1 ((k % 64 * 1024 + off) / 256) ((k % 64 * 1024 + off) % 256) ∈ t.out) ∧
      (k % 16 = 0 → Out.skeinBlock p.val 4 0 0 ∈ t.out)

/-- rsh of R128, with no shift where s is 0. -/
def rounds (x : Int) (s : Nat) : Int := if s = 0 then x else x.sign * (((x.natAbs + 2 ^ (s - 1)) / 2 ^ s : Nat) : Int)
/-- scl of R180: a coefficient's mantissa and exponent applied to a value, in units of 2^−35. -/
def scaled (m : Int) (e : Nat) (x : Int) : Int := if e ≤ 18 then m * x * 2 ^ (18 - e) else rounds (m * x) (e - 18)
/-- A signed 18-bit setting of a configuration. -/
def setting (m : RegMap) (f : Fld) : Int := (BitVec.ofNat 18 (RegMap.get m f)).toInt
/-- Clamp to a range. -/
def between (x lo hi : Int) : Int := min (max x lo) hi

/-- What R180 to R183 compute of an unpaired loop l in AUTO at an unfrozen, unbraked sample, its target from the host, with no
feedforward, no ramp and no rate stage, from its measurement y and its target, integrator, derivative and last
measurement: the terms P, I, D and the output u. -/
structure PidStep (m : RegMap) (l : Nat) (y target i0 d0 y0 : Int) (p i d u : Int) : Prop where
  pTerm : p = scaled (setting m (F.LOOP_KP_m l)) (RegMap.get m (F.LOOP_KP_e l))
    (clamp18 (rounds (setting m (F.LOOP_BW_m l) * target) (RegMap.get m (F.LOOP_BW_e l)) - y))
  iTerm : i = between (i0 + scaled (setting m (F.LOOP_KI_m l)) (RegMap.get m (F.LOOP_KI_e l)) (clamp18 (target - y)))
    (setting m (F.LOOP_I_LO_bound l) * 2 ^ 18) (setting m (F.LOOP_I_HI_bound l) * 2 ^ 18)
  dTerm : d = clamp18 (rounds (scaled (setting m (F.LOOP_ALPHA_m l)) (RegMap.get m (F.LOOP_ALPHA_e l)) d0 -
    scaled (setting m (F.LOOP_KD_m l)) (RegMap.get m (F.LOOP_KD_e l)) (clamp18 (y - y0))) 18)
  output : u = between (clamp18 (rounds (between (p + i + d * 2 ^ 18) (-2 ^ 53) (2 ^ 53 - 1)) 18))
    (setting m (F.LOOP_OUT_LO_limit l)) (setting m (F.LOOP_OUT_HI_limit l))

/-- A ply frame of a type that the link takes: the link is up, its seal is good, its type is known, and its alive counter is
no repeat (R81, R271). -/
def Taken (s : State) (type : Nat) (h : PlyHdr) : Prop :=
  s.rd F.PLY_STATUS_link = 2 ∧ h.sealOk = true ∧ h.known = true ∧
    aliveClass s.ply.rxAlive type s.time.ticks h.alive.toNat ≠ .repeated

/-- Every pair of a list that names key a gives it the value v, and one does. -/
def Gives {α : Type} (l : List (Nat × α)) (a : Nat) (v : α) : Prop := (∃ e ∈ l, e.1 = a) ∧ ∀ e ∈ l, e.1 = a → e.2 = v
/-- No pair of a list names key a. -/
def Lacks {α : Type} (l : List (Nat × α)) (a : Nat) : Prop := ∀ e ∈ l, e.1 ≠ a

/-- The overrun stop of R116 for task t from the next release on: the state it leaves. -/
def Stopped (s u : State) (t : Fin 16) : Prop :=
  u.rd F.TASK_RUN_run_state = 3 ∧ u.rd F.TASK_RUN_overrun_task = t.val ∧ u.rd F.TASK_RUN_overrun_valid = 1 ∧
    u.tasks.overrunFrom = some s.turn.nextRel ∧ u.image = s.image ∧ u.loops = s.loops

/-- The lines of a key code: KEY_A and KEY_B with their complements (R120). -/
def keyLines (a b : Bool) : BitVec 4 := BitVec.ofBool (!b) ++ BitVec.ofBool b ++ BitVec.ofBool (!a) ++ BitVec.ofBool a

/-- A whole INPUT frame for a present station of port p, sampled in the present turn (R33, R80, R97). -/
structure InputNow (s : State) (p : Fin 16) (frame : Bytes) : Prop where
  up : s.rd (F.SK_STATUS_link p.val) = 2
  hears : s.pd .skein = true
  sealed : sealOk frame = true ∧ 36 ≤ frame.length
  type : (readSkein frame).type = 1
  port : (readSkein frame).station / 16 = p.val
  present : s.act (F.STATION_MAP_0_present (readSkein frame).station) = 1
  whole : skeinWhole frame (payBytes (s.act (F.STATION_MAP_0_in_samples (readSkein frame).station))) = true
  running : s.rd F.TURN_STATUS_running = 1
  now : (readSkein frame).turn = s.turn.k

/-- A whole ring frame of a type arrives at a port whose link is up and is taken (R223, R224). -/
structure RingTaken (s : State) (east : Bool) (ty : Nat) (b : Bytes) : Prop where
  on : s.pd .ringply = true ∧ s.rd F.RING_STATUS_bypass = 0 ∧ s.ringUp east = true
  sealed : ringSealOk b = true ∧ 36 ≤ b.length
  type : byteAt b 0 = ty ∧ ringLenOk b = true
  other : byteAt b 1 % 16 ≠ s.position
  fresh : aliveClass s.ring.rxAlive (skKey ty (byteAt b 1)) s.time.ticks (beAt b 6 2) ≠ .repeated

/-- The frame has been forwarded out of the other port, with its hops raised (R224). -/
def Forwarded (s t : State) (east : Bool) (b : Bytes) : Prop :=
  byteAt b 10 + 1 < 15 → s.ringUp (!east) = true → Out.ring (!east) (setByte b 10 (byteAt b 10 + 1)) ∈ t.out

/-- TIME_EVT shows event bit i (R267). -/
def TimeRaised (t : State) (i : Nat) : Prop := bitOf (t.rd (timeEvtFld i).1) (timeEvtFld i).2 = true

/-- A frame of a type goes out of every ring port that is up. -/
def RingSent (s t : State) (ty : Nat) : Prop :=
  s.rd F.RING_STATUS_bypass = 0 → ∀ e, s.ringUp e = true → ∃ b, Out.ring e b ∈ t.out ∧ byteAt b 0 = ty

/-- A tracking standby that may take over: it is fit, its epoch can rise, and its own slack meter shows no task in overrun
(R46, R119, R279, R286). -/
structure MayTakeOver (s : State) : Prop where
  standby : s.plyState = 4
  fit : s.rd F.TURN_WDOG_tripped = 0
  epoch : s.rd F.PLY_EPOCH_epoch < 0xFFFFFFF
  calm : ∀ t < 16, (s.task t).overrun = none

/-- The module has taken over for a cause (R289): it is active, or LONE without a link, of the next epoch, unmuted. -/
def TookOver (s t : State) (cause : Nat) : Prop :=
  t.rd F.PLY_STATUS_state = (if s.rd F.PLY_STATUS_link = 2 then 2 else 1) ∧
    t.rd F.PLY_EPOCH_epoch = s.rd F.PLY_EPOCH_epoch + 1 ∧ t.ply.tokOut = true ∧ t.rd F.PLY_STATUS_muted = 0 ∧
    t.rd F.PLY_REASON_takeover = cause ∧ t.rd F.PLY_TAKEOVER_TURN_LO_turn = s.turn.k % 2 ^ 32 ∧
    t.rd F.PLY_TAKEOVER_TURN_HI_turn = s.turn.k / 2 ^ 32 % 2 ^ 32 ∧ t.ply.catchUp = s.stations ∧ t.turn = s.turn

/-- The module has left tracking with a reason (R281). -/
def LeftTracking (t : State) (reason : Nat) : Prop :=
  t.rd F.PLY_STATUS_state = 5 ∧ t.rd F.PLY_REASON_untracked = reason ∧ bitOf (t.rd F.PLY_EVT_evt) 3 = true

/-- A wake from a source is under way (R456): it is shown, and the module goes up to Grinding. -/
def WakesUp (t : State) (source : Nat) : Prop :=
  t.rd F.PWR_WAKE_source = source ∧ t.rd F.PWR_WAKE_valid = 1 ∧ t.rd F.PWR_STATUS_target = 0 ∧ t.rd F.PWR_STATUS_moving = 1

/-- PWR_EVT shows event bit i (R468). -/
def PowerRaised (t : State) (i : Nat) : Prop := bitOf (t.rd F.PWR_EVT_evt) i = true

/-- The firmware starts from a slot that verifies, and not in the recovery ROM (R441). -/
def Boots (s : State) : Prop :=
  s.fw.good ≠ [] ∧ s.rd F.FW_STATUS_lifecycle ∉ [2, 3]

/-- The outputs of the matrix are as its effective rows give them (R304, R305). -/
def MatrixShown (t : State) : Prop :=
  t.rd F.BRK_SRC_EFF_eff = t.effRows % 2 ^ 32 ∧ t.rd F.BRK_STATE_bo = t.boNow % 2 ^ 8 ∧
    t.rd F.BRK_STATE_port = t.portsNow % 2 ^ 16

/-- Where the next completion of a command's ring goes (R325). -/
def cplAddr (s : State) (c : HostCmd) : Nat :=
  let r := c.ring.val
  s.hostAddr (0x2048 + 32 * r) + SMap.getD s.host.written r 0 % s.cplSize r * 32

/-- A command of an opcode that begins and passes the common tests (R328, R333), while its completion can be written
(R321, R327). -/
structure Ready (s : State) (c : HostCmd) (op : Nat) : Prop where
  op : c.desc.op.toNat = op
  begins : s.begins c = true
  passes : s.cmdFault c = none
  loud : bitOf c.desc.flags.toNat 1 = false
  links : s.host.linkDown = false ∧ s.dmaOk = true
  admitted : (s.acAccess 3 1 3 (cplAddr s c) 32).2 = true

/-- The command has been taken from its ring, and its completion is in the completion ring (R327). -/
def Completed (s t : State) (c : HostCmd) (status detail r0 r1 : Nat) : Prop :=
  let r := c.ring.val
  let n := SMap.getD s.host.written r 0
  let taken := SMap.getD s.host.consumed r 0 + 1
  SMap.find t.host.consumed r = some taken ∧ SMap.find t.host.written r = some (n + 1) ∧
    Out.host (cplAddr s c) (leBytes 4 c.desc.tag.toNat ++ leBytes 2 c.desc.op.toNat ++ leBytes 2 status ++
      leBytes 4 taken ++ leBytes 1 r ++ [0] ++ leBytes 2 detail ++ leBytes 8 r0 ++ leBytes 4 r1 ++ [0, 0, 0] ++
      leBytes 1 (bit (n / s.cplSize r % 2 == 0))) ∈ t.out

/-- The command's buffer is aligned and long enough, and the DMA unit and the bus let it through (R326, R333, R404). -/
def Buffered (s : State) (c : HostCmd) (kind len : Nat) : Prop :=
  bufOk c len = true ∧ c.dmaOk = true ∧ (kind = 0 → len ≤ c.data.length) ∧
    ∀ p ∈ pieces len, (s.acAccess 3 kind 2 (c.desc.buf.toNat + p.1) p.2).2 = true

/-- A firmware refusal is on record: last result 2 and its status (R450). -/
def FwRefused (t : State) (code : Nat) : Prop := t.rd F.FW_STATUS_last_result = 2 ∧ t.rd F.FW_STATUS_last_status = code

/-- FW_EVT shows event bit i (R450). -/
def FwRaised (t : State) (i : Nat) : Prop := bitOf (t.rd F.FW_EVT_evt) i = true

/-- A Hyica request that the open session takes: served, no repetition, the session's next number, and named to this
module (R445, R448). -/
structure InSession (s : State) (q : HyicaReq) (op : Nat) : Prop where
  served : s.served q = true
  fresh : s.repeats q op = false
  session : s.fw.session = some q.session.toNat
  next : q.seq.toNat = (s.fw.lastSeq + 1) % 2 ^ 32
  ident : q.ident = Config.moduleIdent

/-- A response has gone out and is kept for a repetition (R445, R448). -/
def HyReplied (t : State) (q : HyicaReq) (op session status : Nat) (payload : Bytes) : Prop :=
  let r := reply q op session status Config.moduleIdent.toNat payload
  Out.service r ∈ t.out ∧ t.fw.lastOp = op ∧ t.fw.lastSeq = q.seq.toNat ∧ t.fw.lastReply = r

/-- The Hyica requests that need a session, with their opcodes (R446). -/
def HyRequest (q : HyicaReq) (op : Nat) (c : Instr) : Prop :=
  (op, c) ∈ [(0x03, Instr.hyClose q), (0x10, .hyManifest q), (0x11, .hyDelta q), (0x12, .hyImage q), (0x20, .hyActivate q),
    (0x21, .hyConfirm q), (0x22, .hyRecover q), (0x23, .hyRetire q)]

/-- The head of DELTA and IMAGE is well formed (R446). -/
def PieceHead (q : HyicaReq) : Prop := 8 ≤ q.payload.length ∧ byteAt q.payload 1 ≤ 1 ∧ beAt q.payload 2 2 = 0

/-- MB_EVT of a channel shows event bit i (R388). -/
def MillRaised (t : State) (ch i : Nat) : Prop := bitOf (t.rd (F.MB_EVT_evt ch)) i = true

/-- MB_CNT counter j of a channel has counted one (R388). -/
def MillCounted (s t : State) (ch j : Nat) : Prop :=
  t.rd (F.MB_CNT_count ch j) = min (s.rd (F.MB_CNT_count ch j) + 1) (2 ^ 32 - 1)

/-- The state of a channel that is not bus-off, as its error counters give it (R383). -/
def ErrorState (t : State) (ch : Nat) : Prop :=
  t.rd (F.MB_STATUS_state ch) = if 127 < t.rd (F.MB_STATUS_tec ch) ∨ 127 < t.rd (F.MB_STATUS_rec ch) then 2 else 1

/-- Region n of access-control unit u is enabled and holds the byte at an address (R400). -/
def Covers (s : State) (u n a : Nat) : Prop :=
  n < 32 ∧ s.act (F.AC_BASE_LO_enable u n) = 1 ∧ s.acBase u n ≤ a ∧ a ≤ s.acLimit u n

/-- Region n forbids the byte: the lowest region that holds it, and it lacks the permission (R401, R402). -/
def Forbids (s : State) (u kind n a : Nat) : Prop :=
  Covers s u n a ∧ (∀ j < n, ¬Covers s u j a) ∧ s.acPermits u n kind = false

/-- No byte of an access is forbidden (R402). -/
def Passes (s : State) (u kind addr len : Nat) : Prop := ∀ i < len, ∀ n, ¬Forbids s u kind n (addr + i)

/-- The lowest forbidden byte of an access, and the region that forbids it (R402). -/
def FirstForbidden (s : State) (u kind addr len a n : Nat) : Prop :=
  addr ≤ a ∧ a < addr + len ∧ Forbids s u kind n a ∧ Passes s u kind addr (a - addr)

/-- A refused access is counted, and recorded with event source 114 where the unit's record was free (R408). -/
def Violated (s t : State) (u kind requester len a n : Nat) : Prop :=
  t.rd (F.AC_VIOL_COUNT_count u) = min (s.rd (F.AC_VIOL_COUNT_count u) + 1) (2 ^ 32 - 1) ∧
    t.rd (F.AC_VIOL_INFO_valid u) = 1 ∧
    (s.rd (F.AC_VIOL_INFO_valid u) = 1 → t.rd (F.AC_VIOL_ADDR_LO_addr u) = s.rd (F.AC_VIOL_ADDR_LO_addr u)) ∧
    (s.rd (F.AC_VIOL_INFO_valid u) = 0 → t.rd (F.AC_VIOL_INFO_kind u) = kind ∧ t.rd (F.AC_VIOL_INFO_region u) = n ∧
      t.rd (F.AC_VIOL_INFO_requester u) = requester ∧ t.rd (F.AC_VIOL_INFO_length u) = len ∧
      t.rd (F.AC_VIOL_INFO_locked u) = bit (bitOf (s.rd (F.AC_LOCK_lock u)) n) ∧
      t.rd (F.AC_VIOL_ADDR_LO_addr u) = a % 2 ^ 32 ∧ t.rd (F.AC_VIOL_ADDR_HI_addr u) = a / 2 ^ 32 % 2 ^ 32 ∧
      (s.pd .hostsvc = true → bitOf (t.rd (F.EVT_RAISED_raised 3)) 18 = true))

/-- The bins or the DRAM hold an access whole, and their domain is on (R320). -/
def InRam (s : State) (a len : Nat) : Prop :=
  (a + len ≤ 0x3000000 ∧ s.pd .bins = true) ∨ (0x400000000 ≤ a ∧ a + len ≤ 0x800000000 ∧ s.pd .dram = true)

/-- MRAM holds an access whole, and the miller's domain is on (R320). -/
def InMram (s : State) (a len : Nat) : Prop :=
  0x100000000 ≤ a ∧ a + len ≤ 0x108000000 ∧ s.pd .miller = true

/-- Bytes stand in memory from an address on, and every other byte is as it was. -/
def Stored (s t : State) (a : Nat) (b : Bytes) : Prop :=
  (∀ i < b.length, some (t.memByte (a + i)) = b[i]?) ∧ ∀ x, (x < a ∨ a + b.length ≤ x) → t.memByte x = s.memByte x

/-- A write of a word to a station, slot or loop register stages its STG fields on an active module, and is refused on
any other (R346, R347). -/
def StagedAt (s t : State) (off v : Nat) : Prop :=
  t.hop.active = s.hop.active ∧ t.image = s.image ∧ (s.pd (blockPd off) = false → t.hop = s.hop) ∧
    (s.pd (blockPd off) = true →
      (s.isActive = true → t.hop.staged = stageWord s.hop.staged (s.mapOff off) v) ∧
      (s.isActive = false → t.hop = s.hop ∧ (stgRows (s.mapOff off) ≠ [] → t.rd F.HOPPER_STATUS_stage_refused = 1)))

/-- The units that a command may change; it leaves every other one as it is. -/
def footprint : Instr → List Part
  | .slackClearMin | .slackClearSlips | .skClearCnt .. | .timeSnap | .brkLockWrite .. | .brkFirstClearWrite ..
  | .policyLockWrite .. | .mbCmdRestart .. | .mbCmdClearCnt .. | .gsStop .. | .acLockWrite .. | .acViolClear ..
  | .neighborDiscovery .. | .svcLinkChange .. => []
  | .hyHello .. | .hyClose .. | .hyStatus .. | .hyRecover .. | .hyLogRead .. | .hyicaSessionTimeout => [.fw]
  | .trst | .bypass | .idcode | .samplePreload .. | .extest .. | .clamp | .dbgAddr .. | .dbgStatus | .dbgAcstat
    => [.dbg]
  | .heartbeatSend | .stateSend .. | .plyCmdHandover | .revert | .joinCaptureBoundary => [.ply]
  | .holdupCharged => [.pwr]
  | .msixCoalTimeout .. | .msixFunctionUnmask => [.host]
  | .millHeartbeatSend | .mbCmdUnmute .. | .millCycleStart .. | .millWindowStart .. | .mbRdSelWrite ..
  | .readLockTimeout .. | .arbitratingWindowStart .. | .arbitratingWindowEnd .. => [.mill]
  | .beaconSend | .publicationLaunch | .domainFrameSend .. => [.ring]
  | .hopMarkSend .. | .hopMarkReceived .. | .hopEntryExpired .. | .refclkRestored | .timeRestart .. | .timeXchgSend
  | .ppsOutPulse | .ppsOutFall | .leapTableEffect | .calendarWrite => [.time]
  | .regulationIntervalEnd => [.turn]
  | .gsStart .. | .gsFeedB .. | .gsFeedH .. | .gsFeedW .. => [.seals]
  | .joinAnswer .. | .turnMarkReceived .. | .echoRspReceived .. | .setupRecordRepeat .. | .proxyStart ..
  | .proxyStop .. | .brakeFrameRefresh => [.skein]
  | .taskInputCopyDone .. | .taskStart .. | .retainFlushNow | .onlineCarry .. => [.tasks]
  | .traceArm .. | .traceStop .. | .traceForce .. => [.trace]
  | .hyActivate .. => [.ply, .fw]
  | .recManual | .recHoldoffEnd .. => [.recorder]
  | .millMapStale .. => [.image, .ply]
  | .brkSoftWrite .. => [.ply, .brake]
  | .incApply .. | .slewEnd .. => [.ring, .time]
  | .releasedReceived .. | .reachReceived .. => [.skein, .ply]
  | .completionReceived .. => [.tasks, .ply]
  | .flr => [.trace, .host]
  | .chainBroken .. | .chainIntact .. | .stationLost .. | .joiningTimeout .. | .budgetComparison .. | .keyDisagree
  | .ppsLost .. | .cmdNop .. | .cmdSigRead .. | .cmdSlotStatus .. | .cmdLoopRead .. | .cmdForceList ..
  | .cmdProgRead .. | .cmdLogRead .. | .hostLinkDown | .pmStateChange .. | .ringEnableWrite ..
  | .millDominantTimeout .. | .recSnapshot | .holdupLow | .cellLow | .millRxError .. | .hostLinkTrained ..
    => [.host, .recorder]
  | .healthSend => [.turn, .ply, .fw]
  | .retainFlushStart => [.retained, .tasks]
  | .commitImageWritten => [.settingsMram, .hop]
  | .millSnapReceived .. => [.tasks, .ply, .mill]
  | .catchUpLaunch => [.turn, .skein, .ply]
  | .hostWriteTaken => [.image, .loops, .ply]
  | .hyOpen .. => [.host, .recorder, .fw]
  | .cmdCheck .. | .checkDone | .cmdCommit .. | .millerWatchdogRestart .. => [.hop, .host, .recorder]
  | .cmdLogErase .. | .recRecordWritten => [.host, .log, .recorder]
  | .bar2Access .. => [.host, .recorder, .mem]
  | .serviceButtonPress | .keepAlarmFire | .partnerSilentWake => [.host, .recorder, .pwr]
  | .heartbeatReceived .. | .cmdForce .. | .cmdUnforce .. | .fwSelfConfirm | .pwrResetPartner
    => [.ply, .host, .recorder]
  | .cmdMillRead .. | .millFrameReceived .. | .millFrameSent .. | .millTxError .. | .millRecovered ..
  | .millWindowEnd .. | .millRefLost .. | .mbRdIdRead .. | .mbRdStamp2Read .. => [.host, .mill, .recorder]
  | .clashCleared .. => [.ring, .host, .recorder]
  | .ppsEdge .. | .slewDone | .timeXchgReceived .. | .leapApply => [.time, .host, .recorder]
  | .progVerifyDone .. => [.progs, .host, .recorder]
  | .skeinLinkChange .. | .joinFrameReceived .. => [.skein, .host, .recorder]
  | .traceCaptureRecord .. => [.trace, .host, .recorder]
  | .millMapTaken .. => [.image, .turn, .ply, .mill]
  | .replayCaughtUp => [.image, .tasks, .ply, .mill]
  | .cmdFwManifest .. | .cmdFwDelta .. | .cmdFwActivate .. | .cmdFwConfirm .. | .fwSwitch | .fwFallBack
  | .hyManifest .. | .hyDelta .. | .hyImage .. | .hyConfirm .. => [.ply, .host, .recorder, .fw]
  | .commitAccepted => [.hop, .ply, .host, .recorder]
  | .hostWriteReceived .. => [.progs, .image, .ply, .brake]
  | .publishReceived .. => [.ring, .ply, .host, .recorder]
  | .alarmFire .. => [.time, .host, .recorder, .pwr]
  | .refclkLost | .masterElection .. | .domainHoldover .. | .holdExpired .. | .workingTimeStart .. | .domainSwitch
    => [.time, .ply, .host, .recorder]
  | .lowWordRead .. => [.host, .mill, .recorder, .caps]
  | .cmdSigWrite .. | .cmdLoopWrite .. | .cmdMillSend .. => [.image, .ply, .host, .recorder]
  | .cmdProgLoad .. => [.progs, .ply, .host, .recorder]
  | .ringLinkChange .. | .incWrite .. | .slewTicksWrite .. => [.ring, .time, .host, .recorder]
  | .partnerFrameCrossed .. => [.skein, .ply, .host, .recorder]
  | .twLds .. | .twLde .. | .twTag .. | .twSts .. | .twWinb .. | .twLdw .. | .twStw .. | .twTrd .. | .twLpr ..
  | .twLpw .. | .twMbq .. | .twBr .. | .twBtag .. | .twLoop .. | .twCall .. | .twRet .. | .twEnd .. | .twTrap ..
  | .onlineCarryDone .. | .undefinedEncodingReached .. => [.tasks, .ply, .host, .recorder]
  | .perstChange .. => [.trace, .host, .recorder, .pwr]
  | .millSendPending .. => [.image, .host, .mill, .recorder]
  | .cmdStageRegs .. | .cmdStageSlots .. | .cmdDiscard .. => [.staged, .hop, .host, .recorder]
  | .dbgDataCapture => [.host, .mill, .dbg, .recorder, .caps]
  | .beaconReceived .. | .bypassOpen | .hopReportSend | .hopReportReceived .. | .domainStart ..
  | .domainFrameReceived .. => [.ring, .time, .ply, .host, .recorder]
  | .keyPositionTaken .. | .keyInvalidLock .. => [.tasks, .ply, .host, .recorder, .pwr]
  | .fwBuildDone => [.ply, .host, .recorder, .fwSlots, .fw]
  | .twMbr .. => [.tasks, .ply, .host, .mill, .recorder]
  | .inputFrameReceived .. => [.image, .skein, .ply, .host, .recorder]
  | .brkClearWrite .. => [.skein, .rows, .brake, .host, .recorder]
  | .bridgeReceived .. => [.image, .skein, .ring, .ply, .host, .recorder]
  | .taskCommitDone .. => [.image, .turn, .tasks, .ply, .host, .recorder]
  | .orderAckTimeout .. => [.hop, .time, .ply, .host, .recorder, .fw, .pwr]
  | .brakeInputAssert .. | .brakeInputRelease .. | .softBrakeApply
    => [.skein, .trace, .time, .rows, .brake, .host, .recorder]
  | .turnEngineStart => [.turnNumber, .turn, .skein, .tasks, .time, .ply, .host, .mill]
  | .partnerFrameNotShadow .. | .turnWatchdogTrip | .plyTimeDiffExceeded | .ownHeartbeatLoss | .digestReceived ..
  | .digestCompute | .plyLinkDown .. | .autoRejoin | .plyCmdRejoin | .plyCmdLeave | .joinTimeout | .replayBehind
  | .divergedTimeout => [.hop, .skein, .trace, .time, .ply, .rows, .brake, .host, .recorder]
  | .keyEffectiveChange => [.skein, .tasks, .trace, .time, .ply, .rows, .brake, .host, .recorder]
  | .hyRetire .. => [.settingsMram, .hop, .retained, .tasks, .log, .recorder, .fwSlots, .fw]
  | .doorbellReadEnd .. => [.staged, .hop, .progs, .image, .ply, .host, .mill, .log, .recorder, .fw]
  | .stageWedged .. => [.hop, .turn, .skein, .trace, .time, .ply, .rows, .brake, .host, .recorder]
  | .overrunDecision .. | .trapDecision .. | .orderReceived ..
    => [.hop, .skein, .tasks, .trace, .time, .ply, .rows, .brake, .host, .recorder]
  | .forceApply => [.forces, .image, .skein, .trace, .time, .ply, .rows, .brake, .host, .recorder]
  | .ackReceived .. => [.hop, .skein, .trace, .time, .ply, .rows, .brake, .host, .recorder, .fw, .pwr]
  | .ejectorOpen => [.hop, .skein, .trace, .ring, .time, .ply, .rows, .brake, .host, .recorder, .pwr]
  | .turnBoundary => [.image, .turnNumber, .turn, .skein, .retained, .tasks, .time, .ply, .host, .mill]
  | .healthReceived .. | .startingTimeout | .plyLinkUp
    => [.hop, .skein, .tasks, .trace, .time, .ply, .rows, .brake, .host, .mill, .recorder]
  | .wheelDeadline => [.hop, .turn, .skein, .loops, .trace, .time, .ply, .rows, .brake, .host, .recorder]
  | .twAdd .. | .twSub .. | .twAdds .. | .twSubs .. | .twAnd .. | .twOr .. | .twXor .. | .twAndn .. | .twShl ..
  | .twShr .. | .twSar .. | .twMin .. | .twMax .. | .twCmp .. | .twAbs .. | .twNeg .. | .twMul .. | .twMulq ..
  | .twDiv .. | .twDivq .. | .twSatq .. | .twSel .. | .twRdf .. | .twClq .. | .twAddi .. | .twAndi .. | .twOri ..
  | .twXori .. | .twCmpi .. | .twShi .. | .twLui .. | .twLix .. | .twNop ..
    => [.hop, .turn, .skein, .tasks, .trace, .time, .ply, .rows, .brake, .host, .recorder]
  | .ejectorClosed => [.hop, .skein, .tasks, .trace, .time, .ply, .rows, .brake, .host, .mill, .recorder, .pwr]
  | .heartbeatMissed | .tokenClassChange .. | .millHeartbeatAbsent
    => [.hop, .skein, .tasks, .loops, .trace, .time, .ply, .rows, .brake, .host, .mill, .recorder]
  | .loopEvaluationDone ..
    => [.hop, .image, .turn, .skein, .loops, .trace, .time, .ply, .rows, .brake, .host, .recorder, .mem]
  | .abdicateLineAsserted
    => [.hop, .skein, .tasks, .loops, .trace, .time, .ply, .rows, .brake, .host, .mill, .recorder, .pwr]
  | .memberSilent ..
    => [.hop, .skein, .tasks, .loops, .trace, .ring, .time, .ply, .rows, .brake, .host, .mill, .recorder]
  | .releaseInstant
    => [.hop, .turn, .skein, .tasks, .loops, .trace, .time, .ply, .rows, .brake, .host, .mill, .recorder]
  | .inputCutoff
    => [.image, .turn, .skein, .tasks, .trace, .ring, .time, .ply, .rows, .brake, .host, .mill, .recorder, .mem]
  | .stateReceived ..
    => [.hop, .image, .turn, .skein, .tasks, .loops, .trace, .time, .ply, .rows, .brake, .host, .recorder, .fw, .pwr]
  | .commitApply
    => [.settings, .staged, .hop, .programs, .progs, .image, .turn, .skein, .tasks, .loops, .trace, .ring, .time, .ply, .rows, .brake, .host, .recorder]
  | .plyJoinReceived ..
    => [.settings, .staged, .hop, .programs, .progs, .forces, .image, .turnNumber, .turn, .skein, .tasks, .loops, .trace, .ring, .time, .ply, .rows, .brake, .host, .recorder]
  | .keepIslandUpdate
    => [.staged, .settingsMram, .hop, .progs, .forces, .image, .turn, .skein, .tasks, .loops, .trace, .ring, .time, .ply, .rows, .brake, .host, .mill, .seals, .recorder, .fw, .mem, .caps]
  | .lastGaspRecordDone
    => [.staged, .settingsMram, .hop, .progs, .forces, .image, .turn, .skein, .tasks, .loops, .trace, .ring, .time, .ply, .rows, .brake, .host, .mill, .seals, .log, .recorder, .fw, .mem, .caps]
  | .plannedHandoverSwitch | .holdupSpent | .bar0RegisterWrite .. | .pwrReqGo .. | .pwrResetWarm | .pwrResetCold
  | .holdupTimeout
    => [.staged, .settingsMram, .hop, .progs, .forces, .image, .turn, .skein, .tasks, .loops, .trace, .ring, .time, .ply, .rows, .brake, .host, .mill, .seals, .recorder, .fw, .pwr, .mem, .caps]
  | .retainFlushDone ..
    => [.staged, .settingsMram, .hop, .progs, .forces, .image, .turn, .skein, .retained, .tasks, .loops, .trace, .ring, .time, .ply, .rows, .brake, .host, .mill, .seals, .recorder, .fw, .mem, .caps]
  | .dbgDataUpdate ..
    => [.staged, .settingsMram, .hop, .progs, .forces, .image, .turn, .skein, .tasks, .loops, .trace, .ring, .time, .ply, .rows, .brake, .host, .mill, .seals, .dbg, .recorder, .fw, .pwr, .mem, .caps]
  | .inputLost
    => [.staged, .settingsMram, .hop, .progs, .forces, .image, .turn, .skein, .retained, .tasks, .loops, .trace, .ring, .time, .ply, .rows, .brake, .host, .mill, .seals, .recorder, .fw, .pwr, .mem, .caps]
  | .autoRestart | .recoverReset | .partnerOrderedReset | .warmReset
    => [.settings, .staged, .settingsMram, .hop, .progs, .forces, .image, .turnNumber, .turn, .skein, .tasks, .loops, .trace, .ring, .time, .ply, .rows, .brake, .host, .mill, .seals, .recorder, .fw, .pwr, .mem, .caps]
  | .commandedColdStart
    => [.settings, .staged, .settingsMram, .hop, .programs, .progs, .forces, .image, .turnNumber, .turn, .skein, .tasks, .loops, .trace, .ring, .time, .ply, .rows, .brake, .host, .mill, .seals, .recorder, .fw, .pwr, .mem, .caps]
  | .recoveryImageDone
    => [.settings, .staged, .settingsMram, .hop, .programs, .progs, .forces, .image, .turnNumber, .turn, .skein, .tasks, .loops, .trace, .ring, .time, .ply, .rows, .brake, .host, .mill, .seals, .recorder, .fwSlots, .fw, .pwr, .mem, .caps]
  | .rungStepDone
    => [.settings, .staged, .settingsMram, .hop, .programs, .progs, .forces, .image, .turnNumber, .turn, .skein, .retained, .tasks, .loops, .trace, .ring, .time, .ply, .rows, .brake, .host, .mill, .seals, .recorder, .fw, .pwr, .mem, .caps]
  | .inputGood ..
    => [.settings, .staged, .settingsMram, .hop, .programs, .progs, .forces, .image, .turnNumber, .turn, .skein, .retained, .tasks, .loops, .trace, .ring, .time, .ply, .rows, .brake, .host, .mill, .seals, .log, .recorder, .fw, .pwr, .mem, .caps]

/-- The banks of registers that a command may write, for the commands of which the statement speaks. -/
def registerFrame : Instr → Option (List Bank)
  | .hostWriteTaken | .taskInputCopyDone .. | .retainFlushStart | .retainFlushNow | .onlineCarry .. | .traceForce ..
  | .beaconSend | .publicationLaunch | .hopMarkSend .. | .hopMarkReceived .. | .hopEntryExpired .. | .timeRestart ..
  | .domainFrameSend .. | .timeXchgSend | .ppsOutPulse | .ppsOutFall | .leapTableEffect | .calendarWrite
  | .heartbeatSend | .revert | .joinCaptureBoundary | .millHeartbeatSend | .brakeFrameRefresh | .millWindowStart ..
  | .millMapTaken .. | .millMapStale .. | .trst | .bypass | .idcode | .samplePreload .. | .extest .. | .clamp
  | .dbgAddr .. | .dbgStatus | .dbgAcstat | .recManual | .recHoldoffEnd .. | .neighborDiscovery ..
  | .arbitratingWindowStart .. | .arbitratingWindowEnd .. => some []
  | .hyicaSessionTimeout | .svcLinkChange .. => some [.fw]
  | .catchUpLaunch | .releasedReceived .. | .millSnapReceived .. | .plyCmdHandover | .replayCaughtUp => some [.ply]
  | .taskStart .. => some [.run]
  | .mbCmdRestart .. | .mbCmdUnmute .. | .mbCmdClearCnt .. => some [.mill]
  | .gsStart .. | .gsStop .. | .gsFeedB .. | .gsFeedH .. | .gsFeedW .. => some [.seal]
  | .refclkRestored | .incApply .. | .slewEnd .. => some [.time]
  | .brkSoftWrite .. | .brkLockWrite .. | .brkFirstClearWrite .. => some [.brake]
  | .holdupCharged => some [.power]
  | .echoRspReceived .. | .skClearCnt .. => some [.skein]
  | .regulationIntervalEnd | .slackClearMin | .slackClearSlips => some [.slack]
  | .turnBoundary | .policyLockWrite .. => some [.events]
  | .commitImageWritten => some [.hopper]
  | .reachReceived .. => some [.ply, .skein]
  | .turnEngineStart => some [.events, .turn]
  | .traceCaptureRecord .. | .cmdNop .. | .cmdSigRead .. | .cmdSigWrite .. | .cmdSlotStatus .. | .cmdLoopRead ..
  | .cmdLoopWrite .. | .cmdForce .. | .cmdUnforce .. | .cmdForceList .. | .cmdProgRead .. | .cmdLogRead ..
  | .msixCoalTimeout .. | .hostLinkDown | .hostLinkTrained .. => some [.events, .viol]
  | .fwBuildDone | .fwSwitch | .fwSelfConfirm | .fwFallBack => some [.events, .viol, .fw]
  | .keyDisagree => some [.events, .key, .viol]
  | .heartbeatReceived .. => some [.events, .ply, .viol]
  | .recSnapshot | .recRecordWritten => some [.events, .viol, .log]
  | .millSendPending .. | .millDominantTimeout .. => some [.events, .mill, .viol]
  | .refclkLost | .slewTicksWrite .. | .domainHoldover .. | .holdExpired .. | .slewDone | .domainSwitch
  | .timeXchgReceived .. | .leapApply => some [.events, .time, .viol]
  | .brkClearWrite .. => some [.events, .brake, .viol]
  | .serviceButtonPress | .keepAlarmFire | .pwrResetPartner | .holdupLow | .cellLow => some [.events, .viol, .power]
  | .budgetComparison .. => some [.events, .viol, .skein]
  | .cmdStageRegs .. | .cmdStageSlots .. | .cmdCheck .. | .cmdDiscard .. => some [.hopper, .events, .viol]
  | .partnerSilentWake => some [.events, .ply, .viol, .power]
  | .twLds .. | .twLde .. | .twTag .. | .twSts .. | .twWinb .. | .twLdw .. | .twStw .. | .twTrd .. | .twLpr ..
  | .twLpw .. | .twMbq .. | .twBr .. | .twBtag .. | .twLoop .. | .twCall .. | .twRet .. | .twEnd .. | .twTrap ..
  | .undefinedEncodingReached .. => some [.events, .task, .trap, .viol]
  | .bypassOpen | .hopReportSend => some [.events, .time, .ring, .viol]
  | .millerWatchdogRestart .. => some [.hopper, .events, .viol, .fw]
  | .forceApply | .brakeInputAssert .. | .brakeInputRelease .. | .softBrakeApply
    => some [.events, .time, .brake, .viol]
  | .alarmFire .. => some [.events, .time, .viol, .power]
  | .twMbr .. => some [.events, .task, .trap, .mill, .viol]
  | .onlineCarryDone .. => some [.events, .task, .trap, .online, .viol]
  | .keyEffectiveChange => some [.events, .run, .key, .task, .time, .brake, .viol]
  | .orderAckTimeout .. => some [.hopper, .events, .online, .ply, .viol, .fw, .power]
  | .plyTimeDiffExceeded | .digestReceived .. | .digestCompute | .autoRejoin | .plyCmdRejoin | .plyCmdLeave
  | .joinTimeout | .replayBehind | .divergedTimeout
    => some [.hopper, .events, .online, .time, .ply, .brake, .viol, .skein]
  | .plyLinkDown .. => some [.hopper, .events, .key, .online, .time, .ply, .brake, .viol, .skein]
  | .ackReceived .. => some [.hopper, .events, .online, .time, .ply, .brake, .viol, .fw, .power, .skein]
  | .heartbeatMissed | .tokenClassChange .. | .millHeartbeatAbsent
    => some [.hopper, .events, .run, .task, .online, .time, .ply, .brake, .mill, .viol, .skein]
  | .partnerFrameNotShadow .. | .turnWatchdogTrip | .ownHeartbeatLoss
    => some [.hopper, .events, .wdog, .online, .time, .ply, .brake, .mill, .viol, .log, .skein]
  | .startingTimeout | .plyLinkUp | .ejectorClosed
    => some [.hopper, .events, .retain, .task, .online, .time, .ply, .brake, .mill, .viol, .skein]
  | .stageWedged ..
    => some [.hopper, .events, .fault, .wdog, .online, .time, .ply, .brake, .mill, .viol, .log, .skein]
  | .abdicateLineAsserted
    => some [.hopper, .events, .run, .task, .online, .time, .ply, .brake, .mill, .viol, .power, .skein]
  | .healthReceived ..
    => some [.hopper, .events, .key, .retain, .task, .online, .time, .ply, .brake, .mill, .viol, .skein]
  | .trapDecision ..
    => some [.hopper, .events, .run, .wdog, .task, .trap, .online, .time, .ply, .brake, .mill, .viol, .log, .skein]
  | .twAdd .. | .twSub .. | .twAdds .. | .twSubs .. | .twAnd .. | .twOr .. | .twXor .. | .twAndn .. | .twShl ..
  | .twShr .. | .twSar .. | .twMin .. | .twMax .. | .twCmp .. | .twAbs .. | .twNeg .. | .twMul .. | .twMulq ..
  | .twDiv .. | .twDivq .. | .twSatq .. | .twSel .. | .twRdf .. | .twClq .. | .twAddi .. | .twAndi .. | .twOri ..
  | .twXori .. | .twCmpi .. | .twShi .. | .twLui .. | .twLix .. | .twNop ..
    => some [.hopper, .events, .fault, .wdog, .task, .trap, .online, .time, .ply, .brake, .mill, .viol, .log, .skein]
  | _ => none

/-- ADD, SUB, ADDI, CMP and CMPI of a running strand complete with the result modulo 2^36 and the flags Z, N, C and V
of the exact result (R137, R138); CMP and CMPI write no register. Q and LT stay.
Each of these completes here: twAdd, twSub, twAddi, twCmp, twCmpi. -/
def TwistSumsAndDifferences : Prop :=
  ∀ (s : State) (t : Fin 16) (j : Fin 8) (i : TaskInst) (x : Strand) (gd ga gb : Fin 32) (imm : BitVec 20),
    Running s t j i x →
    let a := x.reg ga.val
    let b := x.reg gb.val
    let m := imm.signExtend 36
    Completes (.twAdd t j gd ga gb false) s t j i x gd.val (a + b) (a + b == 0) (a + b).msb
        (decide (2 ^ 36 ≤ a.toNat + b.toNat)) (over36 (a.toInt + b.toInt)) x.q ∧
      Completes (.twSub t j gd ga gb false) s t j i x gd.val (a - b) (a - b == 0) (a - b).msb
        (decide (a.toNat < b.toNat)) (over36 (a.toInt - b.toInt)) x.q ∧
      Completes (.twAddi t j gd ga imm false) s t j i x gd.val (a + m) (a + m == 0) (a + m).msb
        (decide (2 ^ 36 ≤ a.toNat + m.toNat)) (over36 (a.toInt + m.toInt)) x.q ∧
      Completes (.twCmp t j ga gb false) s t j i x 0 0 (a - b == 0) (a - b).msb
        (decide (a.toNat < b.toNat)) (over36 (a.toInt - b.toInt)) x.q ∧
      Completes (.twCmpi t j ga imm false) s t j i x 0 0 (a - m == 0) (a - m).msb
        (decide (a.toNat < m.toNat)) (over36 (a.toInt - m.toInt)) x.q

/-- ADDS, SUBS, ABS, NEG and DIV by a divisor other than 0 complete with the exact result saturated to 36 bits; V is 1
and Q is set where it saturates, and C stays (R128, R137).
Each of these completes here: twAdds, twSubs, twAbs, twNeg, twDiv. -/
def TwistSaturatingArithmetic : Prop :=
  ∀ (s : State) (t : Fin 16) (j : Fin 8) (i : TaskInst) (x : Strand) (gd ga gb : Fin 32),
    Running s t j i x →
    let a := (x.reg ga.val).toInt
    let b := (x.reg gb.val).toInt
    let done := fun (c : Instr) (e : Int) =>
      Completes c s t j i x gd.val (word36 (clamp36 e)) (word36 (clamp36 e) == 0) (word36 (clamp36 e)).msb x.c (over36 e)
        (x.q || over36 e)
    done (.twAdds t j gd ga gb false) (a + b) ∧ done (.twSubs t j gd ga gb false) (a - b) ∧
      done (.twAbs t j gd ga false) (a.natAbs : Int) ∧ done (.twNeg t j gd ga false) (-a) ∧
      (b ≠ 0 → done (.twDiv t j gd ga gb false) (quotient a b))

/-- AND, OR, XOR, ANDN, MIN, MAX, ANDI, ORI and XORI complete with Z and N of the result and with C and V clear (R137,
R138).
Each of these completes here: twAnd, twOr, twXor, twAndn, twMin, twMax, twAndi, twOri, twXori. -/
def TwistLogic : Prop :=
  ∀ (s : State) (t : Fin 16) (j : Fin 8) (i : TaskInst) (x : Strand) (gd ga gb : Fin 32) (imm : BitVec 20),
    Running s t j i x →
    let a := x.reg ga.val
    let b := x.reg gb.val
    let m := imm.zeroExtend 36
    let done := fun (c : Instr) (r : Word36) => Completes c s t j i x gd.val r (r == 0) r.msb false false x.q
    done (.twAnd t j gd ga gb) (a &&& b) ∧ done (.twOr t j gd ga gb) (a ||| b) ∧ done (.twXor t j gd ga gb) (a ^^^ b) ∧
      done (.twAndn t j gd ga gb) (a &&& ~~~b) ∧ done (.twMin t j gd ga gb) (if a.slt b then a else b) ∧
      done (.twMax t j gd ga gb) (if a.slt b then b else a) ∧ done (.twAndi t j gd ga imm) (a &&& m) ∧
      done (.twOri t j gd ga imm) (a ||| m) ∧ done (.twXori t j gd ga imm) (a ^^^ m)

/-- SHL, SHR and SAR by gb[5:0], and SHI by the shifts the load permits, complete with Z and N of the result and C the
last bit shifted out; V, Q and LT stay (R137, R138).
Each of these completes here: twShl, twShr, twSar, twShi. -/
def TwistShifts : Prop :=
  ∀ (s : State) (t : Fin 16) (j : Fin 8) (i : TaskInst) (x : Strand) (gd ga gb : Fin 32) (n : Fin 36),
    Running s t j i x →
    let a := x.reg ga.val
    let m := (x.reg gb.val).toNat % 64
    let done := fun (c : Instr) (r : Word36 × Bool) => Completes c s t j i x gd.val r.1 (r.1 == 0) r.1.msb r.2 x.v x.q
    done (.twShl t j gd ga gb false) (shiftsLeft a m) ∧ done (.twShr t j gd ga gb) (shiftsRight a m) ∧
      done (.twSar t j gd ga gb) (shiftsArith a m) ∧
      done (.twShi t j gd ga (BitVec.ofNat 20 n.val) false) (shiftsLeft a n.val) ∧
      done (.twShi t j gd ga (BitVec.ofNat 20 (64 + n.val)) false) (shiftsRight a n.val) ∧
      done (.twShi t j gd ga (BitVec.ofNat 20 (128 + n.val)) false) (shiftsArith a n.val)

/-- MUL completes with the product modulo 2^36 and V where it lies outside 36 bits. MULQ, SATQ and DIVQ by a divisor
other than 0 complete on operands saturated to Q1.17, with the rounded result saturated to Q1.17 and Q set where an
operand or the result saturates (R128, R137).
Each of these completes here: twMul, twMulq, twSatq, twDivq. -/
def TwistProducts : Prop :=
  ∀ (s : State) (t : Fin 16) (j : Fin 8) (i : TaskInst) (x : Strand) (gd ga gb : Fin 32),
    Running s t j i x →
    let a := (x.reg ga.val).toInt
    let b := (x.reg gb.val).toInt
    let qa := clamp18 a
    let qb := clamp18 b
    let done := fun (c : Instr) (e : Int) (q : Bool) =>
      Completes c s t j i x gd.val (word36 (clamp18 e)) (word36 (clamp18 e) == 0) (word36 (clamp18 e)).msb x.c x.v
        (x.q || q || clamp18 e != e)
    Completes (.twMul t j gd ga gb false) s t j i x gd.val (word36 (a * b)) (word36 (a * b) == 0) (word36 (a * b)).msb x.c
        (over36 (a * b)) x.q ∧
      done (.twMulq t j gd ga gb false) (roundShift (qa * qb) 17) (qa != a || qb != b) ∧
      done (.twSatq t j gd ga) qa (qa != a) ∧
      (b ≠ 0 → done (.twDivq t j gd ga gb false) (nearest (qa * 2 ^ 17) qb) (qa != a || qb != b))

/-- SEL, RDF, CLQ, LUI, LIX and NOP complete; of the flags only CLQ changes one: it clears Q (R137, R138). RDF returns
the flags it finds, and LIX the index of the innermost loop.
Each of these completes here: twSel, twRdf, twClq, twLui, twLix, twNop. -/
def TwistMoves : Prop :=
  ∀ (s : State) (t : Fin 16) (j : Fin 8) (i : TaskInst) (x : Strand) (gd ga gb : Fin 32) (imm : BitVec 20),
    Running s t j i x →
    let done := fun (c : Instr) (g : Nat) (r : Word36) (q : Bool) => Completes c s t j i x g r x.z x.n x.c x.v q
    done (.twSel t j gd ga gb) gd.val (if x.z then x.reg ga.val else x.reg gb.val) x.q ∧
      done (.twRdf t j gd) gd.val
        (0#25 ++ x.lt ++ BitVec.ofBool x.q ++ BitVec.ofBool x.v ++ BitVec.ofBool x.c ++ BitVec.ofBool x.n ++
          BitVec.ofBool x.z) x.q ∧
      done (.twClq t j) 0 0 false ∧ done (.twLui t j gd imm) gd.val (imm ++ 0#16) x.q ∧
      (∀ f fs, x.loops = f :: fs → done (.twLix t j gd) gd.val (BitVec.ofNat 36 f.index) x.q) ∧ done (.twNop t j) 0 0 x.q

/-- LDS, LDE, TAG and LPR of an index within bounds, with no uncorrectable memory error, complete (R129, R132, R138):
LDS returns the slot's value sign-extended, with Z and N of it and C and V clear; LDE the container and TAG the tag,
with Z alone; each takes the slot's tag into LT. LPR returns the node, with Z and N of it and C and V clear.
Each of these completes here: twLds, twLde, twTag, twLpr. -/
def TwistReadsOfTheView : Prop :=
  ∀ (s : State) (t : Fin 16) (j : Fin 8) (i : TaskInst) (x : Strand) (gd gi : Fin 32) (slot : BitVec 18)
    (node : BitVec 4) (loop : BitVec 12) (n : Nat),
    Running s t j i x → Indexes i j x gi n →
    let e := i.viewAt (slot.toNat + n)
    let v := e.value.signExtend 36
    let w : Word36 := 0#12 ++ e.tag ++ e.value
    let g : Word36 := e.tag.zeroExtend 36
    let p := word36 (SMap.getD i.nodes ((loop.toNat + n) * 8 + node.toNat) 0)
    GoesOn (.twLds t j gd gi slot false) s t j i x gd.val v (v == 0) v.msb false false x.q e.tag ∧
      GoesOn (.twLde t j gd gi slot false) s t j i x gd.val w (w == 0) x.n x.c x.v x.q e.tag ∧
      GoesOn (.twTag t j gd gi slot false) s t j i x gd.val g (g == 0) x.n x.c x.v x.q e.tag ∧
      (node.toNat < 8 →
        GoesOn (.twLpr t j gd gi node loop false) s t j i x gd.val p (p == 0) p.msb false false x.q x.lt)

/-- WINB completes where ga and g(a+1) hold the bounds of a window (R129, R138): bit m of gd is 1 where the slot
4 × field + m is not GOOD or lies outside the window, for the n slots tested, and 0 above; Z is of gd and LT the last
slot's tag.
Each of these completes here: twWinb. -/
def TwistWindowTest : Prop :=
  ∀ (s : State) (t : Fin 16) (j : Fin 8) (i : TaskInst) (x : Strand) (gd ga : Fin 32) (n1 : BitVec 4) (base : BitVec 16),
    Running s t j i x → ga.val ≠ 0 → ga.val ≠ 31 → ∃ r : Word36,
      GoesOn (.twWinb t j gd ga n1 base false) s t j i x gd.val r (r == 0) x.n x.c x.v x.q
          (i.viewAt (4 * base.toNat + n1.toNat)).tag ∧
        ∀ m : Fin 36, r.getLsbD m.val =
          (decide (m.val ≤ n1.toNat) &&
            (let e := i.viewAt (4 * base.toNat + m.val)
             decide (e.tag.toNat % 4 ≠ 0) || decide (e.value.toInt < (x.reg ga.val).toInt) ||
              decide ((x.reg (ga.val + 1)).toInt < e.value.toInt)))

/-- MBR of a buffer that has never held a message completes with Z 1 and C 0 and writes nothing; of one that has, it
copies the 18 words of the newest message to the strand's own range, with Z 0 and C 1 where the message is not the
one that this task's previous MBR of the buffer returned (R133).
Each of these completes here: twMbr. -/
def TwistMillBusRead : Prop :=
  ∀ (s : State) (t : Fin 16) (j : Fin 8) (i : TaskInst) (x : Strand) (gb : Fin 32) (ch : Fin 2) (buf : Fin 64)
    (off : BitVec 16) (a : Nat),
    Running s t j i x → (x.reg gb.val).toInt + (off.toNat : Int) = (a : Int) → a + 18 ≤ progDataWords i.prog →
    (∀ m < 18, ownsWord i.prog j.val (a + m) = true) →
    (SMap.getD i.mbr (ch.val * 64 + buf.val) none = none →
      GoesOn (.twMbr t j gb ch buf off false) s t j i x 0 0 true x.n false x.v x.q x.lt) ∧
    ∀ words serial, SMap.getD i.mbr (ch.val * 64 + buf.val) none = some (words, serial) →
      Stands (.twMbr t j gb ch buf off false) i j x → ∃ u y d, exec (.twMbr t j gb ch buf off false) s = .next u ∧
        (u.task t.val).inst = some { i with data := d, strands := i.strands.set j.val y } ∧
        (u.task t.val).data = (s.task t.val).data ∧ (∀ n, n ≠ t.val → u.task n = s.task n) ∧
        (∀ m < 18, SMap.find d (a + m) = some ((words[m]?).getD 0)) ∧
        (∀ b, b < a ∨ a + 18 ≤ b → SMap.find d b = SMap.find i.data b) ∧
        SMap.find (u.task t.val).mbrSeen (ch.val * 64 + buf.val) = some serial ∧
        MovesTo x y (x.pc + 1) ∧ Writes x y 0 0 ∧
        FlagsAre y false x.n (decide (SMap.find (s.task t.val).mbrSeen (ch.val * 64 + buf.val) ≠ some serial)) x.v x.q x.lt

/-- END ends its strand: the strand's state is as it was but for that, its spindle no longer runs it, and where it was
the last of its instance to end, the instance goes on to its commit (R105, R106, R138). No register changes, nor any
unit but the tasks.
Each of these completes here: twEnd. -/
def TwistEnd : Prop :=
  ∀ (s : State) (t : Fin 16) (j : Fin 8) (i : TaskInst) (x : Strand), Running s t j i x → Stands (.twEnd t j) i j x →
    ∃ u i', exec (.twEnd t j) s = .next u ∧ (u.task t.val).inst = some i' ∧
      i'.strands[j.val]? = some { x with phase := .ended } ∧
      ((∀ y ∈ i'.strands, y.phase = .ended) ↔ i'.phase = .committing) ∧
      i'.out = i.out ∧ i'.data = i.data ∧ u = { s with tasks := u.tasks }

/-- TRAP, an undefined encoding reached, a word with an uncorrectable error, DIV and DIVQ by 0, and BR by an undefined
condition trap (R136, R137, R139, R141, R142): the instance ends without committing, the trap registers of the task
take the code, the strand, its program counter and the user code, and the sample's number, and a trap is judged
next. A residue mismatch of an arithmetic instruction stops its strand without the result (R44).
Each of these completes here: twTrap, undefinedEncodingReached, twDiv, twDivq, twBr, twAdd, twSub, twCmp, twMul,
twAddi, twCmpi. -/
def TwistTraps : Prop :=
  ∀ (s : State) (t : Fin 16) (j : Fin 8) (i : TaskInst) (x : Strand), Running s t j i x →
    let traps := fun (a : Instr) (code user : Nat) => ∃ u, exec a s = .next u ∧
      u.rd (F.TRAP_INFO_code t.val) = code % 2 ^ (F.TRAP_INFO_code t.val).width ∧
      u.rd (F.TRAP_INFO_strand t.val) = j.val ∧ u.rd (F.TRAP_INFO_user t.val) = user ∧
      u.rd (F.TRAP_PC_pc t.val) = x.pc % 2 ^ 14 ∧ u.rd (F.TRAP_TURN_LO_turn t.val) = i.sample % 2 ^ 32 ∧
      u.image = s.image ∧ u.loops = s.loops ∧ u.mem = s.mem ∧ (u.task t.val).data = (s.task t.val).data
    let stops := fun (a : Instr) => Stands a i j x → ∃ u, exec a s = .next u ∧ u.rd F.FAULT_RECORD_kind ≠ 0 ∧
      u.task t.val = { s.task t.val with inst := some { i with strands := i.strands.set j.val { x with phase := .stopped } } } ∧
      u.image = s.image ∧ u.mem = s.mem
    (∀ user : BitVec 8, Stands (.twTrap t j user) i j x → traps (.twTrap t j user) 6 user.toNat) ∧
      (wordOk (i.word j.val x) = false → traps (.undefinedEncodingReached t j false) 8 0) ∧
      traps (.undefinedEncodingReached t j true) 7 0 ∧
      (∀ gd ga gb : Fin 32, x.reg gb.val = 0 → ∀ bad,
        (Stands (.twDiv t j gd ga gb bad) i j x → traps (.twDiv t j gd ga gb bad) 1 0) ∧
        (Stands (.twDivq t j gd ga gb bad) i j x → traps (.twDivq t j gd ga gb bad) 1 0)) ∧
      (∀ (cond : BitVec 4) (off : BitVec 16), 12 ≤ cond.toNat → Stands (.twBr t j cond off) i j x →
        traps (.twBr t j cond off) 8 0) ∧
      ∀ (gd ga gb : Fin 32) (imm : BitVec 20), stops (.twAdd t j gd ga gb true) ∧ stops (.twSub t j gd ga gb true) ∧
        stops (.twCmp t j ga gb true) ∧ stops (.twMul t j gd ga gb true) ∧ stops (.twAddi t j gd ga imm true) ∧
        stops (.twCmpi t j ga imm true)

/-- A module with working time set, no engine running and no active or lone partner on a ply link that is up starts
its turn engine (R28): the turn number and k_origin are 0, the origin is a whole second of working time, and the
origin registers show its time word (R6, R47). Turn 0 begins with its marks (R76, R77), and a key position taken
before becomes effective at a boundary named for it (R122). No register but the origin's and the host's doorbell
count changes.
Each of these completes here: turnEngineStart. -/
def TurnEngineStarts : Prop :=
  ∀ s : State, s.rd F.TURN_STATUS_running ≠ 1 → s.time.workSet = true →
    ¬(s.rd F.PLY_STATUS_link = 2 ∧ s.rd F.PLY_STATUS_partner_state ∈ [1, 2]) →
    Does .turnEngineStart s (fun t =>
      t.rd F.TURN_STATUS_running = 1 ∧ t.turn.k = 0 ∧ t.turn.kOrigin = 0 ∧
        t.turn.origin = s.time.work / 10 ^ 9 / 2 ^ 32 * (10 ^ 9 * 2 ^ 32) ∧
        (∀ i : Fin 4, t.rd (F.TURN_ORIGIN_origin i.val) = timeWord 2 t.turn.origin / 2 ^ (32 * i.val) % 2 ^ 32) ∧
        t.rd F.ORIGIN_TURN_LO_k_origin = 0 ∧ t.rd F.ORIGIN_TURN_HI_k_origin = 0 ∧ RegsIn [.turn, .events] s t ∧
        MarksGoOut s t 0 ∧ t.tasks.keyNext = s.keyFromStart ∧ t.image = s.image ∧ t.loops = s.loops ∧ t.hop = s.hop ∧
        t.mem = s.mem)

/-- Where the engine runs, TURN_BOUNDARY raises the turn number by 1 and nothing else of the turn (R27). The marks of the
new turn go out (R76, R77), and each port whose receive half works counts whether the far end's mark was seen in the
turn that ended (R98). A flush that RETAIN_CTRL or a carry asked for starts, where none runs (R111, R164). Of the
registers only the host's doorbell count may change (R323).
Each of these completes here: turnBoundary. -/
def TurnBoundaryCounts : Prop :=
  ∀ s : State, s.rd F.TURN_STATUS_running = 1 →
    Does .turnBoundary s (fun t =>
      t.turn = { s.turn with k := s.turn.k + 1 } ∧ RegsIn [.events] s t ∧ t.loops = s.loops ∧ t.mem = s.mem ∧
        t.tasks.task = s.tasks.task ∧ t.image = { s.image with got := [], gotRing := [] } ∧
        t.skein.direct = [] ∧ t.skein.directPrev = s.skein.direct ∧ MarksGoOut s t (s.turn.k + 1) ∧
        (∀ p : Fin 16, s.rd (F.SK_STATUS_link p.val) = 2 → s.pd .skein = true →
          (t.port p.val).markSeen = false ∧
            (t.port p.val).marksMissing = (if (s.port p.val).markSeen then 0 else (s.port p.val).marksMissing + 1) ∧
            (t.port p.val).marksRun = (if (s.port p.val).markSeen then (s.port p.val).marksRun + 1 else 0)) ∧
        (s.tasks.flushing = none → s.tasks.flushWanted = true → t.tasks.flushWanted = false))

/-- Where no slip fell in a regulation interval and a slack was recorded, the regulator raises the core supply by
10 mV, at most to 850, below the target, lowers it by 5 mV, at least to 600, above the target plus the band, and
else leaves it; without a slack, or after a slip, it makes no change (R40). No other unit changes.
Each of these completes here: regulationIntervalEnd. -/
def RegulatorFollowsSlack : Prop :=
  ∀ (s : State) (mv : Nat), s.rd F.VCORE_STATUS_vcore_mv = mv → mv ≤ 850 →
    let target := s.act F.SLACK_TARGET_target_ns
    let band := s.act F.SLACK_TARGET_hyst_ns
    Does .regulationIntervalEnd s (fun t =>
      (∀ x, s.turn.leastSlack = some x → s.turn.slipSeen = false →
        (x < target → t.rd F.VCORE_STATUS_vcore_mv = min 850 (mv + 10)) ∧
        (target + band < x → t.rd F.VCORE_STATUS_vcore_mv = max 600 (mv - 5)) ∧
        (target ≤ x → x ≤ target + band → t.rd F.VCORE_STATUS_vcore_mv = mv)) ∧
      (s.turn.leastSlack = none → t.rd F.VCORE_STATUS_vcore_mv = mv) ∧
      (s.turn.slipSeen = true → t.rd F.VCORE_STATUS_vcore_mv = mv) ∧
      (t.rd F.VCORE_STATUS_at_floor = 1 ↔ t.rd F.VCORE_STATUS_vcore_mv = 600) ∧
      (t.rd F.VCORE_STATUS_at_ceiling = 1 ↔ t.rd F.VCORE_STATUS_vcore_mv = 850) ∧
      RegsIn [.slack] s t ∧
      t = { s with regs := t.regs, turn := { s.turn with leastSlack := none, slipSeen := false } })

/-- While PD_BINS is on, SLACK_CLEAR.clear_min sets every least slack to 0xFFFF_FFFF and clear_slips every slip count
and last-slipped bit to 0 (R47), and nothing else.
Each of these completes here: slackClearMin, slackClearSlips. -/
def SlackClears : Prop :=
  ∀ s : State, s.pd .bins = true →
    Does .slackClearMin s (fun t =>
      (∀ i : Fin 16, t.rd (F.SLACK_TASK_MIN_slack_ns i.val) = 0xFFFFFFFF) ∧
        (∀ g : Fin 8, t.rd (F.SLACK_WHEEL_MIN_slack_ns g.val) = 0xFFFFFFFF) ∧
        RegsBut (fun o => (0x40C0 ≤ o ∧ o < 0x4100) ∨ (0x4120 ≤ o ∧ o < 0x4140)) s t ∧ OnlyRegs s t) ∧
    Does .slackClearSlips s (fun t =>
      (∀ i : Fin 16, t.rd (F.SLIP_TASK_slips i.val) = 0 ∧ t.rd (F.SLIP_TASK_last_slipped i.val) = 0) ∧
        (∀ g : Fin 8, t.rd (F.SLIP_WHEEL_slips g.val) = 0 ∧ t.rd (F.SLIP_WHEEL_last_slipped g.val) = 0) ∧
        RegsBut (fun o => 0x4140 ≤ o ∧ o < 0x41A0) s t ∧ OnlyRegs s t)

/-- A wedge is a self-diagnosed fault (R45): the first after a cold start is recorded with its class, its unit and the
turn, and one of a later step leaves the record (R46, R48). The active or lone module abdicates with cause 1 (R285); a
standby leaves tracking with reason 9 (R281).
Each of these completes here: stageWedged. -/
def WedgeRecordedAndRoleGivenUp : Prop :=
  ∀ (s : State) (cls : UnitClass) (unit : Fin 128),
    Does (.stageWedged cls unit) s (fun t =>
      (s.rd F.FAULT_RECORD_kind = 0 → t.rd F.FAULT_RECORD_kind = 2 ∧
        t.rd F.FAULT_RECORD_unit_class = (match cls with | .wheel => 0 | .spindle => 1 | .other => 2) ∧
        t.rd F.FAULT_RECORD_unit = unit.val ∧ t.rd F.FAULT_TURN_LO_fault_turn = s.turn.k % 2 ^ 32 ∧
        t.rd F.FAULT_TURN_HI_fault_turn = s.turn.k / 2 ^ 32 % 2 ^ 32) ∧
      (s.rd F.FAULT_RECORD_kind ≠ 0 → s.turn.faultTick ≠ some s.time.ticks → ∀ f ∈ [F.FAULT_RECORD_kind, F.FAULT_RECORD_unit_class, F.FAULT_RECORD_unit,
        F.FAULT_TURN_LO_fault_turn, F.FAULT_TURN_HI_fault_turn], t.rd f = s.rd f) ∧
      (s.plyState = 1 ∨ s.plyState = 2 → t.rd F.PLY_STATUS_state = 6 ∧ t.rd F.PLY_REASON_abdication = 1 ∧
        t.rd F.PLY_STATUS_abd_out = 1 ∧ t.rd F.PLY_STATUS_muted = 1 ∧ t.ply.tokOut = false) ∧
      (s.plyState = 4 → t.rd F.PLY_STATUS_state = 5 ∧ t.rd F.PLY_REASON_untracked = 9) ∧
      t.image = s.image ∧ t.turn = { s.turn with faultTick := t.turn.faultTick } ∧ t.tasks = s.tasks ∧ t.loops = s.loops ∧
      t.mem = s.mem)

/-- A residue mismatch in a wheel is a self-diagnosed fault (R44): the result is not used, it is not tried again, and
the fault is recorded against the wheel where none was recorded before.
Each of these completes here: loopEvaluationDone. -/
def WheelResidueMismatch : Prop :=
  ∀ (s : State) (l : Fin 4096) (k : Nat), s.evalNext l.val = some k →
    Does (.loopEvaluationDone l true) s (fun t =>
      t.loops = s.loops ∧ t.image = s.image ∧
        t.turn = { s.turn with evals := s.turn.evals.filter (fun e => !(e.1 == k && e.2 == l.val)), faultTick := t.turn.faultTick } ∧
        (s.rd F.FAULT_RECORD_kind = 0 → t.rd F.FAULT_RECORD_kind = 1 ∧ t.rd F.FAULT_RECORD_unit_class = 0 ∧
          t.rd F.FAULT_RECORD_unit = l.val % 128) ∧
        (s.plyState = 1 ∨ s.plyState = 2 → t.rd F.PLY_STATUS_state = 6))

/-- The wheel deadline of a turn passes once (R34). A wheel group with evaluations of the deadline's sample outstanding
slips: its count rises, its slack is 0, the core supply goes to 0.85 V (R38, R40, R41); a group with none keeps its
count. No evaluation is discarded.
Each of these completes here: wheelDeadline. -/
def WheelDeadlineSlips : Prop :=
  ∀ s : State, s.rd F.TURN_STATUS_running = 1 → s.turn.nextDl ≤ s.turn.k →
    (s.replaying = true → s.turn.nextDl + 1 < s.turn.cutoffs + s.nTurns) →
    let k := s.turn.nextDl + 1 - s.nTurns
    let late := fun (g : Nat) => ∃ e ∈ s.turn.evals, e.1 = k ∧ e.2 % 128 / 16 = g
    Does .wheelDeadline s (fun t =>
      t.turn.nextDl = s.turn.nextDl + 1 ∧ t.turn.evals = s.turn.evals ∧ t.image = s.image ∧ t.turn.held = s.turn.held ∧
        ∀ g : Fin 8,
          (s.nTurns ≤ s.turn.nextDl + 1 → late g.val → t.rd (F.SLIP_WHEEL_last_slipped g.val) = 1 ∧
            t.rd (F.SLIP_WHEEL_slips g.val) = min (s.rd (F.SLIP_WHEEL_slips g.val) + 1) 0xFFFF ∧
            t.rd (F.SLACK_WHEEL_LAST_slack_ns g.val) = 0 ∧ t.rd (F.SLACK_WHEEL_MIN_slack_ns g.val) = 0 ∧
            t.rd F.VCORE_STATUS_vcore_mv = 850) ∧
          (¬late g.val → t.rd (F.SLIP_WHEEL_slips g.val) = s.rd (F.SLIP_WHEEL_slips g.val) ∧
            t.rd (F.SLACK_WHEEL_LAST_slack_ns g.val) = s.rd (F.SLACK_WHEEL_LAST_slack_ns g.val)))

/-- Host writes whose boundary has come are taken, the rest wait on (R68): a signal write gives its slot, where that is
of kind 3, its value with quality GOOD and age 0, and a LOOP_WRITE joins its loop's requests from its boundary on
(R58). No register changes.
Each of these completes here: hostWriteTaken. -/
def HostWritesTaken : Prop :=
  ∀ s : State,
    Does .hostWriteTaken s (fun t =>
      t.image.waiting = s.image.waiting.filter (fun e => !(decide (e.1 ≤ s.nowTurn) && isImageWrite e.2)) ∧
        t.regs = s.regs ∧ t.turn = s.turn ∧ t.tasks = s.tasks ∧ t.hop = s.hop ∧ t.out = s.out ∧
        t.image.forces = s.image.forces ∧
        (∀ b n v, s.image.waiting = [(b, .slot n v)] → b ≤ s.nowTurn → s.slotKind n.toNat = 3 →
          t.cell n.toNat = ⟨⟨v, 0⟩, 0⟩ ∧ (∀ m, m ≠ n.toNat → t.cell m = s.cell m) ∧ t.loops = s.loops) ∧
        (∀ b l x y z, s.image.waiting = [(b, .loop l x y z)] → b ≤ s.nowTurn →
          t.loop l.val = { s.loop l.val with reqs := (s.loop l.val).reqs ++
            [⟨b, x.map BitVec.toInt, y.map BitVec.toInt, z.map BitVec.toNat⟩] } ∧
            (∀ m, m ≠ l.val → t.loop m = s.loop m) ∧ t.image.slots = s.image.slots))

/-- An acknowledged force order whose boundary has come takes effect and is done with; any other order waits (R64). A
forced slot reads as the forced value, GOOD and FORCED, whatever lies below (R62), and an unforced one as what lies
below, which no force changes (R65).
Each of these completes here: forceApply. -/
def ForcesApply : Prop :=
  ∀ s : State,
    Does .forceApply s (fun t =>
      t.ply.orders = s.ply.orders.filter (fun o => !(o.code == 2 && o.acked && decide (o.boundary ≤ s.nowTurn))) ∧
        t.image.slots = s.image.slots ∧ t.turn = s.turn ∧ t.loops = s.loops ∧ t.mem = s.mem ∧
        t.hop.active = s.hop.active ∧
        ∀ (o : Order) (es : List (BitVec 18 × Option Sample)), s.ply.orders = [o] → o.code = 2 → o.acked = true →
          o.boundary ≤ s.nowTurn → o.content = .force es → (es.map Prod.fst).Nodup →
          (∀ n v, (n, some v) ∈ es → t.slotNow n.toNat = ⟨v, 4⟩ ∧ SMap.find t.image.loss n.toNat = none) ∧
            (∀ n, (n, none) ∈ es → t.slotNow n.toNat = (s.cell n.toNat).entry) ∧
            ∀ m, (∀ e ∈ es, e.1.toNat ≠ m) → t.slotNow m = s.slotNow m)

/-- A host read of an aligned word that the HOST unit lets pass returns the register's word and captures the higher
words it holds then, which is what a read of a higher word returns until the next capture (R365); no register changes.
The four words that lock and release the mill-bus read window are told with that window (R374). A read that is no
aligned word ends with completer abort (R319), and so does one that the unit refuses (R399, R404).
Each of these completes here: lowWordRead. -/
def LowWordReadCaptures : Prop :=
  ∀ (s : State) (off : BitVec 20),
    let o := off.toNat
    let judged := unjudged o 0 0 = false
    (o % 4 = 0 → o ∉ [0x9C04, 0xAC04, 0x9C54, 0xAC54] → (judged → (s.acAccess 0 0 0 (0x200000000 + o) 4).2 = true) →
      Does (.lowWordRead off true) s (fun t =>
        t.out = s.out ++ [.word (s.bar0Word o)] ∧ t = { s with caps := t.caps, out := t.out } ∧
          (s.pd (blockPd o) = true → (∀ h ∈ highWords o, SMap.find t.caps h = some (s.rawWord h)) ∧
            ∀ h, h ∉ highWords o → SMap.find t.caps h = SMap.find s.caps h) ∧
          (s.pd (blockPd o) = false → t.caps = s.caps))) ∧
    (∀ aligned, aligned = false ∨ o % 4 ≠ 0 → Does (.lowWordRead off aligned) s (fun t =>
      t = { s with out := s.out ++ [.bar none] })) ∧
    (o % 4 = 0 → judged → (s.acAccess 0 0 0 (0x200000000 + o) 4).2 = false → Does (.lowWordRead off true) s (fun t =>
      Out.bar none ∈ t.out ∧ t.caps = s.caps ∧ t.mill = s.mill ∧ RegsIn [.events, .viol] s t))

/-- Every evaluation that is the next on its wheel (R170) completes, whatever the loop's settings, mode, view and state: it
is no longer outstanding, the loop has started and has evaluated sample k, and no loop but it and its pair's other
loop changes. An unpaired loop's output waits for its release instant (R35) and enters its slot in the image with age
0, unless a later writer bars it (R54, R158); the first of a pair commits nothing (R189).
Each of these completes here: loopEvaluationDone. -/
def LoopEvaluationCompletes : Prop :=
  ∀ (s : State) (l : Fin 4096) (k : Nat), s.evalNext l.val = some k →
    let get := fun f => RegMap.get (s.configAt k) f
    let n := get (F.LOOP_OUT_out_slot l.val)
    let other := get (F.LOOP_SP_pair_loop l.val)
    let alone := get (F.LOOP_CTRL_ovr l.val) = 0 ∨ get (F.LOOP_CTRL_enable other) = 0
    Does (.loopEvaluationDone l false) s (fun t =>
      t.turn.evals = s.turn.evals.filter (fun e => !(e.1 == k && e.2 == l.val)) ∧ t.turn.k = s.turn.k ∧
        t.image.forces = s.image.forces ∧ (t.loop l.val).started = true ∧ (t.loop l.val).sample = k ∧
        (∀ j, j ≠ l.val → j ≠ other → t.loop j = s.loop j) ∧
        (alone → (∀ j, j ≠ l.val → t.loop j = s.loop j) ∧ (∀ j, j ≠ n → t.cell j = s.cell j) ∧
          (SMap.getD s.image.barred n 0 ≤ k → t.cell n = ⟨(t.loop l.val).nodes.entry, 0⟩) ∧
          t.turn.held = s.turn.held ++ [⟨16 + l.val, k,
            max (k + s.nTurns * 2 ^ get (F.LOOP_CTRL_rate_n l.val) - 1) s.turn.nextRel,
            [(n, (t.loop l.val).nodes.entry)], [], []⟩]) ∧
        (¬alone → l.val < other → t.image = s.image ∧ t.turn.held = s.turn.held))

/-- The law of an unpaired loop: in AUTO at an unfrozen, unbraked sample, without feedforward, ramp or rate limit, R180 to
R183 give its integrator, derivative and output, and the output enters its slot in the image GOOD and CLAMPED where a
limit acts (R54, R183).
Each of these completes here: loopEvaluationDone. -/
def LoopEvaluationLaw : Prop :=
  ∀ (s : State) (l : Fin 4096) (k : Nat), s.evalNext l.val = some k →
    let x := s.loop l.val
    let m := s.configAt k
    let get := fun f => RegMap.get m f
    let n := get (F.LOOP_OUT_out_slot l.val)
    let meas := SMap.getD (SMap.getD s.turn.views k []) (get (F.LOOP_MEAS_meas_slot l.val)) Entry.coldEntry
    get (F.LOOP_CTRL_ovr l.val) = 0 → get (F.LOOP_CTRL_sp_kind l.val) ≠ 2 → get (F.LOOP_CTRL_ff_en l.val) = 0 →
    get (F.LOOP_FF_sp_rise l.val) % 2 ^ 10 = 0 → get (F.LOOP_TRACK_sp_fall l.val) % 2 ^ 10 = 0 →
    get (F.LOOP_OUT_out_rate l.val) % 2 ^ 10 = 0 → l.val ∉ SMap.getD s.turn.brakedAt k [] →
    x.started = true → x.mode = 1 → x.reqs = [] → x.owed = false → x.wasBraked = false → x.gainFrom = [] →
    meas.tag = 0 → SMap.getD s.image.barred n 0 ≤ k →
    setting m (F.LOOP_OUT_LO_limit l.val) ≤ setting m (F.LOOP_OUT_HI_limit l.val) →
    Does (.loopEvaluationDone l false) s (fun t =>
      ∃ p u, PidStep m l.val meas.value.toInt x.target x.i x.d x.yPrev p (t.loop l.val).i (t.loop l.val).d u ∧
        (t.loop l.val).yPrev = meas.value.toInt ∧ (t.loop l.val).u = u ∧ (t.loop l.val).target = x.target ∧
        (t.loop l.val).mode = 1 ∧ (t.cell n).entry.value.toInt = u ∧ (t.cell n).entry.tag.toNat % 8 = 0)

/-- A ply frame whose seal fails, or whose type is not in the type table, is counted and has no other effect, and one that
repeats its alive counter has none at all (R271, R81), whatever it carries. -/
def PlyFramesRefused : Prop :=
  ∀ (s : State) (h : PlyHdr), s.rd F.PLY_STATUS_link = 2 →
    let frames : List (Nat × (Instr → Prop)) :=
      [(0x48, fun c => ∃ o, c = .orderReceived h o), (0x49, fun c => ∃ x y z, c = .ackReceived h x y z),
        (0x47, fun c => ∃ b ws, c = .hostWriteReceived h b ws), (0x46, fun c => ∃ a b ws, c = .millSnapReceived h a b ws),
        (0x43, fun c => ∃ r, c = .reachReceived h r), (0x44, fun c => ∃ d, c = .digestReceived h d),
        (0x45, fun c => ∃ a b p d, c = .completionReceived h a b p d)]
    ∀ e ∈ frames, ∀ c, e.2 c →
      (h.sealOk = false ∨ h.known = false → Does c s (fun t => t = s.inc F.PLY_CNT_SEAL_count)) ∧
        (h.sealOk = true → h.known = true → aliveClass s.ply.rxAlive e.1 s.time.ticks h.alive.toNat = .repeated →
          Does c s (fun t => t = s))

/-- Mirrored host writes wait on a standby for the boundary they carry (R68, R312), and a snapshot of a receive buffer
becomes what MBR reads there, newer than the last one whether its words changed or not (R133).
Each of these completes here: hostWriteReceived, millSnapReceived. -/
def MirrorsTaken : Prop :=
  ∀ (s : State) (h : PlyHdr), s.plyState = 4 →
    (Taken s 0x47 h → ∀ (b : BitVec 64) (n : BitVec 18) (v : Sample) (soft : BitVec 4),
      Does (.hostWriteReceived h b [.slot n v, .soft soft]) s (fun t =>
        t.image = { s.image with waiting := s.image.waiting ++ [(b.toNat, .slot n v)] } ∧
          t.brake.softNext = s.brake.softNext ++ [(b.toNat, soft.toNat)] ∧ t.regs = s.regs)) ∧
    (Taken s 0x46 h → ∀ (ch : Fin 2) (buf : Fin 64) (words : List Word36),
      Does (.millSnapReceived h ch buf words) s (fun t =>
        (∃ n, SMap.find t.tasks.millSnap (64 * ch.val + buf.val) = some (n, some words) ∧
          ∀ n' w, SMap.find s.tasks.millSnap (64 * ch.val + buf.val) = some (n', w) → n = n' + 1) ∧
          (∀ key, key ≠ 64 * ch.val + buf.val → SMap.find t.tasks.millSnap key = SMap.find s.tasks.millSnap key) ∧
          t.regs = s.regs))

/-- A task that is enabled, at a due boundary, with the key not at STOP and no overrun stop, starts (R113): it may start
instances from that boundary on, the first with FIRST, its run of slips is 0 (R43), and tasks run (R126). No other task
and no other register changes.
Each of these completes here: taskStart. -/
def TasksStart : Prop :=
  ∀ (s : State) (t : Fin 16), s.rd F.TURN_STATUS_running = 1 → s.tasks.startAt ≤ s.nowTurn →
    s.rd F.KEY_STATUS_effective ≠ 3 → s.rd F.TASK_RUN_run_state ≤ 1 → (s.task t.val).started = false →
    (s.task t.val).trapped = false → s.act (F.TASK_CTRL_enable t.val) = 1 → s.nowTurn % s.taskP t.val = 0 →
    s.computes = true → s.levelOk t.val = true →
    Does (.taskStart t) s (fun u =>
      u.task t.val = { s.task t.val with started := true, notBefore := s.nowTurn, first := true, slipRun := 0, prevSlip := false } ∧
        (∀ n, n ≠ t.val → u.task n = s.task n) ∧ u.rd F.TASK_RUN_run_state = 1 ∧ RegsIn [.run] s u ∧
        u = { s with regs := u.regs, tasks := u.tasks })

/-- At the end of its copy an instance runs: its strands, as many as the program declares, start with registers and flags
0 (R105, R127), each in its queue or on its spindle (R106). At the end of its commit an instance in time leaves the
task: its data and its output slots take what it wrote and keep the rest (R54, R131), its results wait for their
release (R35, R36), its count rises (R126) and its slack is recorded without a slip (R38, R41).
Each of these completes here: taskInputCopyDone, taskCommitDone. -/
def InstancesRunAndCommit : Prop :=
  ∀ (s : State) (t : Fin 16) (i : TaskInst), (s.task t.val).inst = some i →
    (i.phase = .copying → Does (.taskInputCopyDone t) s (fun u => ∃ xs : List Strand,
      (u.task t.val).inst = some { i with phase := .running, strands := xs } ∧ xs.length = progStrands i.prog ∧
        (∀ x ∈ xs, x = Strand.start ∨ x = { Strand.start with phase := .running }) ∧ u = { s with tasks := u.tasks })) ∧
    (i.phase = .committing → (s.task t.val).waiting = [] →
      let m := i.sample + s.nTurns * i.period - 1
      s.turn.nextRel ≤ m → (∀ e ∈ i.loopWrites, SMap.getD s.image.barred (2 ^ 20 + e.1) 0 ≤ i.sample) →
      (∀ e ∈ i.mbq, SMap.getD s.image.barred (2 ^ 21 + e.1) 0 ≤ i.sample) →
      Does (.taskCommitDone t) s (fun u =>
        (u.task t.val).inst = none ∧ (u.task t.val).lastDone = some i.sample ∧ (u.task t.val).slipRun = 0 ∧
          (∀ a v, Gives i.data a v → SMap.find (u.task t.val).data a = some v) ∧
          (∀ a, Lacks i.data a → SMap.find (u.task t.val).data a = SMap.find (s.task t.val).data a) ∧
          (∀ n v, Gives i.out n v → SMap.getD s.image.barred n 0 ≤ i.sample → u.cell n = ⟨v, 0⟩) ∧
          (∀ n, Lacks i.out n → u.cell n = s.cell n) ∧ u.image.forces = s.image.forces ∧ u.loops = s.loops ∧
          u.turn.held = s.turn.held ++ [⟨t.val, i.sample, m, i.out, i.loopWrites, i.mbq⟩] ∧
          u.rd (F.TASK_COUNT_LO_count t.val) + 2 ^ 32 * u.rd (F.TASK_COUNT_HI_count t.val) =
            (s.rd (F.TASK_COUNT_LO_count t.val) + 2 ^ 32 * s.rd (F.TASK_COUNT_HI_count t.val) + 1) % 2 ^ 64 ∧
          u.rd (F.SLACK_TASK_LAST_slack_ns t.val) =
            min ((s.boundaryU m + s.releaseNs * 2 ^ 32 - s.time.work) / 2 ^ 32) 0xFFFFFFFE ∧
          u.rd (F.SLIP_TASK_last_slipped t.val) = 0))

/-- An overrun is judged once (R115): the active whose standby ended the same instance in time abdicates with cause 2 and
marks the overrun local; otherwise both enter overrun stop, which ORDER 5 names, and so does a lone module (R116). A
standby whose active did not overrun leaves tracking with reason 6, and one whose active did waits for its ORDER 5.
Each of these completes here: overrunDecision. -/
def OverrunsAreJudged : Prop :=
  ∀ (s : State) (t : Fin 16) (d : Decision), (s.task t.val).overrun = some d →
    let local' := s.partnerRec t.val d.sample = some (0, true) ∧ s.rd F.PLY_STATUS_partner_state = 4
    (s.plyState = 2 → local' → Does (.overrunDecision t) s (fun u =>
      u.rd F.PLY_STATUS_state = 6 ∧ u.rd F.PLY_REASON_abdication = 2 ∧ u.rd (F.TASK_STATUS_local_overrun t.val) = 1 ∧
        u.rd F.TASK_RUN_run_state = s.rd F.TASK_RUN_run_state ∧ (u.task t.val).overrun = none)) ∧
    (s.plyState = 2 → ¬local' → s.rd F.TASK_RUN_run_state ≠ 3 → s.rd F.PLY_STATUS_link = 2 → Does (.overrunDecision t) s (fun u =>
      Stopped s u t ∧ u.rd (F.TASK_STATUS_overran t.val) = 1 ∧ (u.task t.val).overrun = none ∧
        ∃ alive seq, Out.order alive 5 seq s.turn.nextRel 0 (.overrunStop t false) ∈ u.out)) ∧
    (s.plyState ≤ 1 → s.rd F.TASK_RUN_run_state ≠ 3 → Does (.overrunDecision t) s (fun u =>
      Stopped s u t ∧ u.rd (F.TASK_STATUS_overran t.val) = 1 ∧ (u.task t.val).overrun = none)) ∧
    (s.plyState = 4 → s.partnerOverran t.val d.sample = false → Does (.overrunDecision t) s (fun u =>
      u.rd F.PLY_STATUS_state = 5 ∧ u.rd F.PLY_REASON_untracked = 6 ∧
        u.rd F.TASK_RUN_run_state = s.rd F.TASK_RUN_run_state)) ∧
    (s.plyState = 4 → s.partnerOverran t.val d.sample = true → Does (.overrunDecision t) s (fun u =>
      (u.task t.val).overrun = none ∧ (∀ n, n ≠ t.val → u.task n = s.task n) ∧ u = { s with tasks := u.tasks }))

/-- A trap is judged once (R143): the active whose standby completed the same instance abdicates with cause 3 and shows
the trap as local; a lone module takes the program's trap action (R144): STOP is an overrun stop, HALT holds the task
in the trapped state, and so does a module that does not track. A standby that alone trapped leaves tracking with
reason 7.
Each of these completes here: trapDecision. -/
def TrapsAreJudged : Prop :=
  ∀ (s : State) (t : Fin 16) (d : Decision), (s.task t.val).trap = some d →
    let clean := (s.partnerRec t.val d.sample).map (·.1) = some 0
    let halts := fun (u : State) => (u.task t.val).trapped = true ∧ (u.task t.val).waiting = [] ∧
      (u.task t.val).trap = none ∧ (u.task t.val).inst = none ∧ (u.task t.val).data = (s.task t.val).data ∧
      u.rd F.TASK_RUN_run_state = s.rd F.TASK_RUN_run_state ∧ ∀ n, n ≠ t.val → u.task n = s.task n
    (s.plyState = 2 → clean → s.rd F.PLY_STATUS_partner_state = 4 → Does (.trapDecision t) s (fun u =>
      u.rd F.PLY_STATUS_state = 6 ∧ u.rd F.PLY_REASON_abdication = 3 ∧ u.rd (F.TRAP_INFO_judged t.val) = 2 ∧
        (u.task t.val).trap = none)) ∧
    (s.plyState = 2 → ¬clean → s.trapStops t.val = false → Does (.trapDecision t) s (fun u =>
      halts u ∧ u.rd (F.TRAP_INFO_judged t.val) = 1)) ∧
    (s.plyState = 1 → s.trapStops t.val = false → Does (.trapDecision t) s (fun u =>
      halts u ∧ u.rd (F.TRAP_INFO_judged t.val) = 0)) ∧
    (s.plyState = 1 → s.trapStops t.val = true → s.rd F.TASK_RUN_run_state ≠ 3 → Does (.trapDecision t) s (fun u =>
      Stopped s u t ∧ (u.task t.val).trap = none)) ∧
    (s.plyState = 4 → clean → Does (.trapDecision t) s (fun u =>
      u.rd F.PLY_STATUS_state = 5 ∧ u.rd F.PLY_REASON_untracked = 7 ∧ u.rd (F.TRAP_INFO_judged t.val) = 2)) ∧
    (s.plyState = 5 → s.trapStops t.val = false → Does (.trapDecision t) s (fun u =>
      halts u ∧ u.rd (F.TRAP_INFO_judged t.val) = 1))

/-- The turn watchdog, armed and not yet tripped, trips (R118, R119): row 18 asserts and every Skein port is braked, the
trip is counted, and the module gives up its role, an active one with cause 4 and a standby with reason 10.
Each of these completes here: turnWatchdogTrip. -/
def TurnWatchdogBrakes : Prop :=
  ∀ s : State, s.rd F.TURN_WDOG_armed = 1 → s.rd F.TURN_WDOG_tripped = 0 → bitOf (s.rd F.BRK_SRC_RAW_raw) 18 = false →
    Does .turnWatchdogTrip s (fun u =>
      u.rd F.TURN_WDOG_tripped = 1 ∧ bitOf (u.rd F.BRK_SRC_RAW_raw) 18 = true ∧ bitOf u.brake.latched 18 = true ∧
        u.rd F.BRK_STATE_port = 0xFFFF ∧
        u.rd F.TURN_WDOG_trips = min (s.rd F.TURN_WDOG_trips + 1) (2 ^ F.TURN_WDOG_trips.width - 1) ∧
        (s.plyState = 1 ∨ s.plyState = 2 → u.rd F.PLY_STATUS_state = 6 ∧ u.rd F.PLY_REASON_abdication = 4) ∧
        (s.plyState = 4 → u.rd F.PLY_STATUS_state = 5 ∧ u.rd F.PLY_REASON_untracked = 10) ∧ u.image = s.image)

/-- A flush of the retained variables overwrites the older MRAM copy and leaves the other as it is (R111): it marks the
copy bad, gives it the next serial and, per task, the program identity with the retained words as last committed;
its end marks the copy good, or leaves it bad and shows the error; after a lost input PD_BINS turns off then (R315). The command of RETAIN_CTRL asks for one more.
Each of these completes here: retainFlushStart, retainFlushDone, retainFlushNow. -/
def RetainedVariablesFlush : Prop :=
  ∀ s : State,
    (s.pd .brake = true → s.pd .miller = true → s.pd .bins = true → s.tasks.flushing = none → s.tasks.restoreDue = false →
      Does .retainFlushStart s (fun u => ∃ c, c < 2 ∧ u.tasks.flushing = some c ∧
        (∀ r, SMap.find s.tasks.retain (1 - c) = some r → r.good = false → ∀ o, SMap.find s.tasks.retain c = some o → o.good = false) ∧
        SMap.find u.tasks.retain c = some ⟨false, s.tasks.flushSerial + 1, s.retainNow⟩ ∧
        SMap.find u.tasks.retain (1 - c) = SMap.find s.tasks.retain (1 - c) ∧ u = { s with tasks := u.tasks })) ∧
    (∀ c r, s.tasks.flushing = some c → c < 2 → SMap.find s.tasks.retain c = some r → s.pwr.shedding = false →
      Does (.retainFlushDone true) s (fun u => u.tasks.flushing = none ∧
        SMap.find u.tasks.retain c = some { r with good := true } ∧ u.rd F.RETAIN_STATUS_copy = c ∧
        u.rd F.RETAIN_STATUS_flush_err = 0 ∧ RegsIn [.retain] s u) ∧
      Does (.retainFlushDone false) s (fun u => u.tasks.flushing = none ∧
        SMap.find u.tasks.retain c = some { r with good := false } ∧ u.rd F.RETAIN_STATUS_flush_err = 1 ∧
        u.rd F.RETAIN_STATUS_copy = s.rd F.RETAIN_STATUS_copy ∧ RegsIn [.retain] s u)) ∧
    (∀ c good, s.tasks.flushing = some c → s.pwr.shedding = true → Does (.retainFlushDone good) s (fun u =>
      u.tasks.flushing = none ∧ u.pd .bins = false)) ∧
    (∀ good, s.tasks.flushing = none → Does (.retainFlushDone good) s (fun u => u = s)) ∧
    (s.pd .bins = true → Does .retainFlushNow s (fun u => u = { s with tasks := { s.tasks with flushWanted := true } }))

/-- A valid key code is the local position it stands for: 00 LOCK, 01 RUN, 11 TEND, 10 STOP as B and A (R120); a code
that is not valid leaves the local position, and once it lasts makes it LOCK (R121). A lone, starting or abdicated
module names its new position for a boundary at least 2 turns ahead (R122). A standby whose position differs from its partner's reports
it.
Each of these completes here: keyPositionTaken, keyInvalidLock, keyDisagree. -/
def KeyPositionsTaken : Prop :=
  ∀ (s : State),
    (∀ a b : Bool, let pos := if b then (if a then 2 else 3) else (if a then 1 else 0)
      Does (.keyPositionTaken (keyLines a b)) s (fun u =>
        u.rd F.KEY_STATUS_local = pos ∧ u.rd F.KEY_STATUS_valid = 1 ∧ u.rd F.KEY_STATUS_invalid_lock = 0 ∧
          u.rd F.KEY_STATUS_effective = s.rd F.KEY_STATUS_effective ∧
          (s.plyState ∈ [0, 1, 6] → 0 < s.turnNs → s.tasks.keyNext = none → s.rd F.KEY_STATUS_effective ≠ pos →
            ∃ n, u.tasks.keyNext = some (n, pos) ∧ s.turn.k + 2 ≤ n) ∧
          (s.tasks.keyNext = none → s.rd F.KEY_STATUS_effective = pos → u.tasks.keyNext = none))) ∧
    (∀ lines : BitVec 4, (∀ a b, lines ≠ keyLines a b) →
      Does (.keyPositionTaken lines) s (fun u => u.rd F.KEY_STATUS_local = s.rd F.KEY_STATUS_local ∧
        u.rd F.KEY_STATUS_valid = 0 ∧ RegsIn [.key] s u ∧ OnlyRegs s u) ∧
      Does (.keyInvalidLock lines) s (fun u => u.rd F.KEY_STATUS_local = 0 ∧ u.rd F.KEY_STATUS_invalid_lock = 1 ∧
        u.rd F.KEY_STATUS_valid = 0 ∧ u.rd F.KEY_EVT_invalid = 1)) ∧
    (s.plyState = 4 → s.rd F.KEY_STATUS_partner_valid = 1 → s.rd F.KEY_STATUS_local ≠ s.rd F.KEY_STATUS_partner →
      Does .keyDisagree s (fun u => u.rd F.KEY_STATUS_disagree = 1 ∧ u.rd F.KEY_EVT_disagree = 1 ∧
        u.rd F.KEY_STATUS_local = s.rd F.KEY_STATUS_local ∧ RegsIn [.key, .events, .viol] s u ∧ u.tasks = s.tasks))

/-- The effective position changes at the boundary named for it and not before (R122). In STOP no task starts an
instance and outputs brake from the next release (R125); leaving STOP ends rows 16 and 17 (R117), forgets the
overrun, releases trapped tasks (R144) and lets tasks start again.
Each of these completes here: keyEffectiveChange. -/
def KeyTakesEffect : Prop :=
  ∀ (s : State) (b pos : Nat), s.tasks.keyNext = some (b, pos) → pos < 4 →
    (s.rd F.TURN_STATUS_running ≠ 1 ∨ s.nowTurn < b → Does .keyEffectiveChange s (fun u => u = s)) ∧
    (s.rd F.TURN_STATUS_running = 1 → b ≤ s.nowTurn → Does .keyEffectiveChange s (fun u =>
      u.rd F.KEY_STATUS_effective = pos ∧ u.tasks.keyNext = none ∧ u.image = s.image ∧ u.turn = s.turn ∧
        (s.rd F.KEY_STATUS_effective ≠ pos → u.rd F.KEY_EVT_changed = 1) ∧
        (s.rd F.KEY_STATUS_effective ≠ 3 → pos = 3 → u.tasks.stopFrom = some b ∧ u.tasks.leftStop = none ∧
          (s.rd F.TASK_RUN_run_state ≠ 3 → u.rd F.TASK_RUN_run_state = 2)) ∧
        (s.rd F.KEY_STATUS_effective = 3 → pos ≠ 3 →
          u.tasks.stopFrom = none ∧ u.tasks.leftStop = some b ∧ u.tasks.overrunFrom = none ∧
            bitOf (u.rd F.BRK_SRC_RAW_raw) 16 = false ∧ bitOf (u.rd F.BRK_SRC_RAW_raw) 17 = false ∧
            (∀ t : Fin 16, (u.task t.val).trapped = false ∧ u.rd (F.TASK_STATUS_overran t.val) = 0) ∧
            (s.tasks.startAt ≤ b → u.rd F.TASK_RUN_run_state = 1))))

/-- Every INPUT frame of the present turn that arrives before the cut-off and is no repeat counts, whatever its station's
state (R33, R81): its missed count is 0 and it is received directly (R99). Where its station is UP, each slot mapped to
a sample of the frame takes that sample, GOOD, with age 0 and no slot-loss source (R53, R57); where it is not, no slot
changes. No slot of another station, no force and no latch changes.
Each of these completes here: inputFrameReceived. -/
def InputFramesCount : Prop :=
  ∀ (s : State) (p : Fin 16) (frame : Bytes), InputNow s p frame → s.replaying = false → s.turn.cutoffs ≤ s.turn.k →
    let f := readSkein frame
    let n := f.station
    aliveClass s.skein.rxAlive (256 + n) s.time.ticks f.alive ≠ .repeated →
    Does (.inputFrameReceived p frame) s (fun t =>
      n ∈ t.image.got ∧ n ∈ t.skein.direct ∧ t.rd (F.SK_STN_STATE_missed p.val (n % 16)) = 0 ∧
        t.rd (F.SK_STN_STATE_direct p.val (n % 16)) = 1 ∧
        (s.rd (F.SK_STN_STATE_state p.val (n % 16)) = 3 →
          ∀ x ∈ s.slotsOf 1 n, s.act (F.SLOT_POL_SRC_index x) < s.act (F.STATION_MAP_0_in_samples n) →
          (t.cell x).entry.value = unpackSample f.payload (s.act (F.SLOT_POL_SRC_index x)) ∧
            (t.cell x).entry.tag.toNat % 32 = 0 ∧ (t.cell x).age = 0 ∧ SMap.find t.image.loss x = none) ∧
        (s.rd (F.SK_STN_STATE_state p.val (n % 16)) ∈ [0, 1, 5] → t.image.slots = s.image.slots) ∧
        (∀ x, x ∉ s.slotsOf 1 n → t.cell x = s.cell x) ∧ t.image.forces = s.image.forces ∧ t.turn = s.turn ∧
        t.loops = s.loops ∧ t.tasks = s.tasks)

/-- An INPUT frame that is not to be used leaves the image as it is (R33, R80, R81): one whose seal fails is counted as
such with event bit 5, one of a turn that has passed or after the cut-off as late with event bit 6, and a repeated
one as repeated (R102). -/
def InputFramesNotUsed : Prop :=
  ∀ (s : State) (p : Fin 16) (frame : Bytes),
    let n := (readSkein frame).station
    let counts := fun (j : Nat) (t : State) =>
      t.rd (F.SK_CNT_count p.val j) = min (s.rd (F.SK_CNT_count p.val j) + 1) (2 ^ (F.SK_CNT_count p.val j).width - 1) ∧
        t.image = s.image ∧ t.turn = s.turn
    (s.rd (F.SK_STATUS_link p.val) = 2 → s.pd .skein = true → sealOk frame = false → Does (.inputFrameReceived p frame) s (fun t =>
      counts 0 t ∧ bitOf (t.rd (F.SK_EVT_STATUS_evt p.val)) 5 = true)) ∧
    (InputNow s p frame → s.replaying = false → s.turn.cutoffs ≤ s.turn.k → aliveClass s.skein.rxAlive (256 + n) s.time.ticks (readSkein frame).alive = .repeated →
      Does (.inputFrameReceived p frame) s (counts 4)) ∧
    (InputNow s p frame → s.replaying = false → s.turn.k < s.turn.cutoffs →
      Does (.inputFrameReceived p frame) s (fun t => counts 2 t ∧ bitOf (t.rd (F.SK_EVT_STATUS_evt p.val)) 6 = true))

/-- The states of links, chains and stations (R96, R98, R101): a lane that completes training on an enabled port makes its
link UP, one that trains again or goes down shows so with event bit 9; two turns without the far end's mark break a chain with bit
3, marks in 16 turns make it intact with bit 4; a station silent for its hold-off is LOST with bit 1, one that sends
nothing while joining goes back. An event bit that goes from 0 to 1 while enabled is recorded as raised (R335).
Each of these completes here: skeinLinkChange, chainBroken, chainIntact, stationLost, joiningTimeout,
budgetComparison, skClearCnt. -/
def SkeinStatesChange : Prop :=
  ∀ (s : State) (p pos : Fin 16), s.pd .skein = true →
    let link := s.rd (F.SK_STATUS_link p.val)
    let chain := s.rd (F.SK_STATUS_chain p.val)
    let stn := s.rd (F.SK_STN_STATE_state p.val pos.val)
    let shows := fun (i : Nat) (t : State) => bitOf (t.rd (F.SK_EVT_STATUS_evt p.val)) i = true ∧
      (bitOf (s.rd (F.SK_EVT_STATUS_evt p.val)) i = false → bitOf (s.rd (F.SK_EVT_ENABLE_en p.val)) i = true →
        s.pd .hostsvc = true → bitOf (t.rd (F.EVT_RAISED_raised 0)) (16 + p.val) = true) ∧ t.image = s.image
    (s.act (F.SK_CTRL_enable p.val) = 1 → Does (.skeinLinkChange p .up) s (fun t =>
      t.rd (F.SK_STATUS_link p.val) = 2 ∧ (t.port p.val).marksMissing = 0 ∧ (t.port p.val).markSeen = false ∧
        t.rd (F.SK_STATUS_chain p.val) = (if (s.portStations p.val).isEmpty then 0 else 1) ∧ t.image = s.image)) ∧
    (s.act (F.SK_CTRL_enable p.val) = 1 →
      Does (.skeinLinkChange p .down) s (fun t => t.rd (F.SK_STATUS_link p.val) = 0 ∧ (link = 2 → shows 9 t)) ∧
      Does (.skeinLinkChange p .training) s (fun t => t.rd (F.SK_STATUS_link p.val) = 1 ∧ (link = 2 → shows 9 t))) ∧
    (s.act (F.SK_CTRL_enable p.val) = 0 → ∀ l, Does (.skeinLinkChange p l) s (fun t => t = s)) ∧
    (link = 2 → chain = 1 → 2 ≤ (s.port p.val).marksMissing → Does (.chainBroken p) s (fun t =>
      t.rd (F.SK_STATUS_chain p.val) = 2 ∧ t.rd (F.SK_OWD_FAR_owd p.val) = 0 ∧ shows 3 t)) ∧
    (link = 2 → chain = 2 → 16 ≤ (s.port p.val).marksRun → Does (.chainIntact p) s (fun t =>
      t.rd (F.SK_STATUS_chain p.val) = 1 ∧ shows 4 t)) ∧
    (stn = 3 → s.act (F.STATION_MAP_1_holdoff (16 * p.val + pos.val)) ≤ s.rd (F.SK_STN_STATE_missed p.val pos.val) →
      Does (.stationLost p pos) s (fun t => t.rd (F.SK_STN_STATE_state p.val pos.val) = 4 ∧ shows 1 t)) ∧
    (stn = 2 → Does (.joiningTimeout p pos) s (fun t => t.rd (F.SK_STN_STATE_state p.val pos.val) = 1 ∧
      RegsIn [.skein] s t ∧ OnlyRegs s t)) ∧
    (link = 2 → Does (.budgetComparison p) s (fun t =>
      t.rd (F.SK_STATUS_over_budget p.val) = (if s.overBudget p.val then 1 else 0) ∧ (s.overBudget p.val = true → shows 8 t))) ∧
    (Does (.skClearCnt p) s (fun t => (∀ j : Fin 7, t.rd (F.SK_CNT_count p.val j.val) = 0) ∧
      RegsIn [.skein] s t ∧ OnlyRegs s t))

/-- A JOIN record that names a present position and fits its map entry and its port's budget makes the position JOINING
and owes it an answer; one that does not fit makes it a MISMATCH with event bit 2; each shows the identity it carries
(R89, R95, R96). The active answers, and later repeats, with the station's SETUP frame, at most one per port and turn
(R88), whose record gives the position, the number of stations and the sample counts (R90, R93).
Each of these completes here: joinFrameReceived, setupRecordRepeat, joinAnswer. -/
def StationsJoin : Prop :=
  ∀ (s : State) (p pos : Fin 16) (frame : Bytes), s.pd .skein = true →
    let n := 16 * p.val + pos.val
    let r := (readSkein frame).payload
    (s.rd (F.SK_STATUS_link p.val) = 2 → sealOk frame = true → (readSkein frame).type = 5 → skeinWhole frame 16 = true →
      joinPos (s.portStations p.val).length (byteAt r 12) (byteAt r 13) = some pos.val → s.present n = true →
      Does (.joinFrameReceived p frame) s (fun t =>
        t.rd (F.SK_STN_IDENT_ident p.val pos.val) = beAt r 0 2 ∧ t.image = s.image ∧
          (s.joinFits n r = true → t.rd (F.SK_STN_STATE_state p.val pos.val) = 2 ∧ (t.posn n).owesAnswer = true ∧
            (t.posn n).inRun = 0 ∧
            t.rd (F.SK_STN_STATE_missed p.val pos.val) = s.rd (F.SK_STN_STATE_missed p.val pos.val)) ∧
          (s.joinFits n r = false → t.rd (F.SK_STN_STATE_state p.val pos.val) = 5 ∧
            (s.rd (F.SK_STN_STATE_state p.val pos.val) ≠ 5 → bitOf (t.rd (F.SK_EVT_STATUS_evt p.val)) 2 = true)))) ∧
    (s.plyState = 1 ∨ s.plyState = 2 → s.rd (F.SK_STATUS_link p.val) = 2 → s.rd (F.SK_STN_STATE_state p.val pos.val) ∈ [2, 3] →
      (s.port p.val).setupTurn ≠ some s.turn.k →
      let sends := fun (t : State) => ∃ alive holdoff turn ns frac rest,
        t.out = s.out ++ [.skein p.val (skeinFrame 4 n 0 s.epoch alive holdoff turn ns frac
          (beBytes 1 pos.val ++ beBytes 1 (s.portStations p.val).length ++ beBytes 2 (s.act (F.STATION_MAP_0_in_samples n)) ++
            beBytes 2 (s.act (F.STATION_MAP_0_out_samples n)) ++ rest))] ∧ RegsIn [.skein] s t ∧ t.image = s.image
      Does (.setupRecordRepeat p pos) s sends ∧
        ((s.posn n).owesAnswer = true → s.rd (F.SK_STN_STATE_state p.val pos.val) = 2 → Does (.joinAnswer p pos) s (fun t => sends t ∧ (t.posn n).owesAnswer = false))) ∧
    ((s.port p.val).setupTurn = some s.turn.k → Does (.setupRecordRepeat p pos) s (fun t => t = s) ∧
      Does (.joinAnswer p pos) s (fun t => t = s))

/-- Marks and echoes (R90, R98): the far end's mark is seen, and while the chain is not broken its delay is shown; an
answer to an outstanding request renews the mean of the last 16 round trips and ends that request. Nothing of the
image or of the turn changes.
Each of these completes here: turnMarkReceived, echoRspReceived. -/
def SkeinDelaysMeasured : Prop :=
  ∀ (s : State) (p pos : Fin 16), s.rd (F.SK_STATUS_link p.val) = 2 → s.pd .skein = true →
    (∀ (k6 : BitVec 6) (off : BitVec 10) (arr : BitVec 32), Does (.turnMarkReceived p k6 off arr) s (fun t =>
      (t.port p.val).markSeen = true ∧ (t.port p.val).marksRun = (s.port p.val).marksRun ∧ t.image = s.image ∧ t.turn = s.turn ∧
        (s.rd (F.SK_STATUS_chain p.val) ≠ 2 → t.rd (F.SK_OWD_FAR_owd p.val) = arr.toNat - off.toNat) ∧
        (s.rd (F.SK_STATUS_chain p.val) = 2 → t.regs = s.regs))) ∧
    (∀ (seq : BitVec 8) (el : BitVec 32) (et : BitVec 16), (pos.val, seq.toNat) ∈ (s.port p.val).echoOut →
      Does (.echoRspReceived p pos seq el et) s (fun t =>
        (t.port p.val).echoOut = (s.port p.val).echoOut.erase (pos.val, seq.toNat) ∧
          (t.posn (16 * p.val + pos.val)).rtts = ((el.toNat - et.toNat) :: (s.posn (16 * p.val + pos.val)).rtts).take 16 ∧
          t.rd (F.SK_STN_RTT_rtt p.val pos.val) =
            meanRtt (((el.toNat - et.toNat) :: (s.posn (16 * p.val + pos.val)).rtts).take 16) % 2 ^ 32 ∧
          RegsIn [.skein] s t ∧ t.image = s.image))

/-- A standby serves a station two turns after the active first lacked it, and stops once the active reaches it again
(R100). A frame of the partner that crossed the chain tells a module that is not active the partner's epoch (R87,
R279). A frame of the partner that is not marked shadow, with a later epoch, makes the active abdicate with cause 5
(R285, R292); of its own epoch it makes the home module raise the epoch at its next release.
Each of these completes here: proxyStart, proxyStop, partnerFrameCrossed, partnerFrameNotShadow. -/
def PartnerOnTheSkein : Prop :=
  ∀ (s : State) (p pos : Fin 16) (frame : Bytes) (epoch : BitVec 28),
    let n := 16 * p.val + pos.val
    (∀ k, s.plyState = 4 → SMap.find s.skein.proxyFrom n = some k → k + 2 ≤ s.turn.k → n ∉ s.skein.proxy →
      Does (.proxyStart p pos) s (fun t => t.skein = { s.skein with proxy := n :: s.skein.proxy } ∧
        t.rd (F.SK_STATUS_proxy p.val) = 1 ∧ RegsIn [.skein] s t)) ∧
    (SMap.find s.skein.proxyFrom n = none → s.skein.proxy = [n] → Does (.proxyStop p pos) s (fun t =>
      t.skein = { s.skein with proxy := [] } ∧ t.rd (F.SK_STATUS_proxy p.val) = 0 ∧ RegsIn [.skein] s t)) ∧
    (s.rd (F.SK_STATUS_link p.val) = 2 → s.pd .skein = true → sealOk frame = true → 36 ≤ frame.length →
      (readSkein frame).type ∈ [2, 3, 4] → skeinWhole frame (s.crossedLen (readSkein frame).type (readSkein frame).station) = true →
      Does (.partnerFrameCrossed p frame) s (fun t =>
        t.ply.partnerEpoch = max s.ply.partnerEpoch (readSkein frame).epoch ∧ t.image = s.image ∧
          (s.plyState = 4 → t.rd F.PLY_EPOCH_epoch = max (s.rd F.PLY_EPOCH_epoch) (readSkein frame).epoch % 2 ^ 28) ∧
          (s.plyState = 1 → t.rd F.PLY_EPOCH_epoch = s.rd F.PLY_EPOCH_epoch))) ∧
    (s.plyState = 2 → s.rd F.PLY_EPOCH_epoch < epoch.toNat → Does (.partnerFrameNotShadow epoch false false) s (fun t =>
      t.rd F.PLY_STATUS_state = 6 ∧ t.rd F.PLY_REASON_abdication = 5 ∧ bitOf (t.rd F.PLY_EVT_evt) 8 = true)) ∧
    (s.plyState = 2 → s.rd F.PLY_EPOCH_epoch = epoch.toNat → s.isHome = true →
      Does (.partnerFrameNotShadow epoch false false) s (fun t =>
        t.ply.raiseNext = true ∧ t.rd F.PLY_STATUS_state = 2 ∧ bitOf (t.rd F.PLY_EVT_evt) 8 = true))

/-- A BEACON of another position is forwarded, and shows the member's role, load, and the way it came (R224, R225): the
position comes UP with event bit 5, or is in CLASH with bit 7 where another identity was UP there; the module's own
BEACON, come back round the ring, brings its own position UP. A member unheard for 50 µs becomes SILENT with bit 6, and
a clash that has cleared is UP. The module's BEACON goes out of both ports with its identity, role and load.
Each of these completes here: beaconReceived, memberSilent, clashCleared, beaconSend. -/
def RingMembersHeard : Prop :=
  ∀ (s : State) (east : Bool),
    let evt := fun (t : State) (i : Nat) => bitOf (t.rd F.RING_EVT_evt) i = true
    (∀ frame : Bytes, RingTaken s east 0x12 frame →
      let p := byteAt frame 1 % 16
      let body := (frame.drop 32).take 32
      Does (.beaconReceived east false frame) s (fun t =>
        Forwarded s t east frame ∧ (t.member p).ident = beAt body 0 8 ∧ (t.member p).hears = beAt body 10 2 ∧
          t.rd (F.RING_MEMBER_role p) = byteAt body 8 % 4 ∧ t.rd (F.RING_MEMBER_load p) = beAt body 12 2 ∧
          t.rd (F.RING_MEMBER_via_e p) = bit east ∧ t.rd (F.RING_MEMBER_via_w p) = bit (!east) ∧ t.image = s.image ∧
          (s.memberState p = 0 ∨ s.memberState p = 2 → t.memberState p = 1 ∧ evt t 5) ∧
          (s.memberState p = 1 → beAt body 0 8 = (s.member p).ident → t.memberState p = 1) ∧
          (s.memberState p = 1 → beAt body 0 8 ≠ (s.member p).ident → t.memberState p = 3 ∧ evt t 7) ∧
          (s.memberState p = 3 → t.memberState p = 3) ∧
          ∀ q, q < 16 → q ≠ p → t.memberState q = s.memberState q ∧ t.member q = s.member q)) ∧
    (∀ frame : Bytes, s.pd .ringply = true → s.ringUp east = true → ringSealOk frame = true → 36 ≤ frame.length →
      byteAt frame 0 = 0x12 → ringLenOk frame = true → byteAt frame 1 % 16 = s.position →
      aliveClass s.ring.rxAlive (skKey 0x12 (byteAt frame 1)) s.time.ticks (beAt frame 6 2) ≠ .repeated →
      beAt ((frame.drop 32).take 32) 0 8 = Config.moduleIdent.toNat → s.memberState s.position ∈ [0, 2] →
      Does (.beaconReceived east false frame) s (fun t =>
        t.memberState s.position = 1 ∧ evt t 5 ∧ t.rd (F.RING_MEMBER_via_e s.position) = bit east ∧
          t.ring.ownClash = s.ring.ownClash ∧ t.image = s.image)) ∧
    (∀ pos : Fin 16,
      (s.memberState pos.val = 1 → Does (.memberSilent pos) s (fun t => t.memberState pos.val = 2 ∧ evt t 6)) ∧
      (s.memberState pos.val = 3 → Does (.clashCleared pos) s (fun t => t.memberState pos.val = 1 ∧
        (pos.val = s.position → (s.member pos.val).ident = Config.moduleIdent.toNat → t.rd F.RING_STATUS_clash = 0 ∧ t.ring.ownClash = false)))) ∧
    (s.pd .ringply = true → s.rd F.RING_STATUS_bypass = 0 → s.position < 16 → Does .beaconSend s (fun t =>
      t.regs = s.regs ∧ t.image = s.image ∧
        ∃ body : Bytes, body.length = 32 ∧ body.take 8 = beBytes 8 Config.moduleIdent.toNat ∧
          byteAt body 8 = (if s.plyState = 1 then 0 else if s.plyState = 2 then 1 else if s.plyState = 4 then 2 else 3) ∧
          beAt body 12 2 = s.rd F.RING_LOAD_own % 2 ^ 16 ∧
          ∀ e, s.ringUp e = true → Out.ring e (ringFrame 0x12 s.position (s.ringFlags s.isStandby s.isActive)
            (SMap.getD s.ring.txAlive 0x12 0) 0 0 s.time.work 0 body) ∈ t.out))

/-- Links and bypass (R232 to R235): an open bypass has both ports training, joins the ring anew and counts as a change of
topology; a port whose training ends is UP with new alive counts, and one that loses its link trains or is down, with
event bit 0 or 1. A publication's part that arrives is forwarded and held, with its entries (R224, R227); the
publications composed go out of both ports at the launch instant, 512 ns after their own, and not before, marked shadow
but for the active's (R226).
Each of these completes here: bypassOpen, ringLinkChange, publishReceived, publicationLaunch. -/
def RingPortsAndPublications : Prop :=
  ∀ (s : State) (east : Bool),
    (s.rd F.RING_STATUS_bypass = 1 → s.bypassWanted = false → s.ring.ownClash = false → s.time.workSet = true →
      Does .bypassOpen s (fun t => t.rd F.RING_STATUS_bypass = 0 ∧ t.rd F.RING_STATUS_link_e = 1 ∧
        t.rd F.RING_STATUS_link_w = 1 ∧ t.ring = { s.ring with listening := false } ∧ t.rd F.RING_EVT_topology = 1 ∧
        t.rd F.TIME_STATUS_cal = 1 ∧ t.image = s.image)) ∧
    (s.pd .ringply = true → s.rd F.RING_STATUS_bypass = 0 →
      let link := fun (t : State) => if east then t.rd F.RING_STATUS_link_e else t.rd F.RING_STATUS_link_w
      Does (.ringLinkChange east .up) s (fun t => link t = 2 ∧ RegsIn [.ring] s t ∧
        t = { s with regs := t.regs, ring := { s.ring with rxAlive := [], txAlive := [] } }) ∧
      ∀ l, l ≠ .up → Does (.ringLinkChange east l) s (fun t =>
        link t = (if l = .training then 1 else 0) ∧ t.ring = s.ring ∧ t.image = s.image ∧
          (link s = 2 → bitOf (t.rd F.RING_EVT_evt) (if east then 0 else 1) = true))) ∧
    (∀ frame : Bytes, RingTaken s east 0x11 frame →
      let n := (frame.length - 36) / 5
      let entry := fun i => beAt frame (32 + 5 * i) 5
      Does (.publishReceived east false frame) s (fun t => Forwarded s t east frame ∧ t.image = s.image ∧
        ∃ p ∈ t.ring.pubs, p.source = byteAt frame 1 % 16 ∧ p.instant = s.ringInstant frame ∧ byteAt frame 11 ∈ p.held ∧
          ∀ i < n, (∀ j < n, i < j → entry j / 2 ^ 28 ≠ entry i / 2 ^ 28) →
            SMap.find p.entries (entry i / 2 ^ 28) = some (entry i % 2 ^ 28))) ∧
    (∀ p, s.ring.launch = [p] →
      (s.time.work < p.instant + 512 * 2 ^ 32 → Does .publicationLaunch s (fun t => t = s)) ∧
      (p.instant + 512 * 2 ^ 32 ≤ s.time.work → s.plyState ∈ [1, 2, 4] → s.rd F.RING_STATUS_bypass = 0 →
        Does .publicationLaunch s (fun t =>
          t.ring.launch = [] ∧ t.regs = s.regs ∧ t.image = s.image ∧ ∀ e, s.ringUp e = true →
            Out.ring e (ringFrame 0x11 s.position (s.ringFlags (!(p.active && s.isActive)) s.isActive)
              (SMap.getD s.ring.txAlive 0x11 0) p.part p.parts p.instant p.period p.payload) ∈ t.out)))

/-- Heartbeats (R269, R274, R275, R287): a HEARTBEAT goes out with the role's bits and the token line toggles while the
module is active; one received ends the count of misses, shows the partner's bits, and where it has not abdicated its
line is high; a standby that meets another token than ACTIVE beside it raises line_fault. The mill-bus heartbeat
carries epoch and turn. A module that cannot toggle its token abdicates with cause 6.
Each of these completes here: heartbeatSend, heartbeatReceived, millHeartbeatSend, ownHeartbeatLoss. -/
def Heartbeats : Prop :=
  ∀ s : State,
    (s.pd .ringply = true → s.pd .time = true → Does .heartbeatSend s (fun t => t.regs = s.regs ∧
      t.ply = { s.ply with tokOut := s.isActive && !s.ply.tokOut } ∧
      t.out = s.out ++ (if s.rd F.PLY_STATUS_link = 2 then [.plyBlock 0x30 (s.localUs % 256)
        (if s.plyState = 1 ∨ s.plyState = 2 then 1 else if s.plyState = 4 then 2 else if s.plyState = 6 then 4 else 0)]
        else []))) ∧
    (s.rd F.PLY_STATUS_link = 2 → ∀ count flags : Byte, Does (.heartbeatReceived count flags) s (fun t =>
      t.ply = { s.ply with hbMissed := 0, hbAt := some s.workNs, partnerActive := bitOf flags.toNat 0, partnerTracking := bitOf flags.toNat 1,
                           partnerAbdicated := bitOf flags.toNat 2 } ∧
        (bitOf flags.toNat 2 = false → t.rd F.PLY_STATUS_abd_in = 0 ∧ (s.plyState = 4 → s.rd F.PLY_STATUS_tok_in ≠ 2 →
          bitOf (t.rd F.PLY_EVT_evt) 9 = true)) ∧ t.image = s.image)) ∧
    (s.plyState = 1 ∨ s.plyState = 2 →
      (s.act F.PLY_MILL_HB_mill_hb_en = 1 → Does .millHeartbeatSend s (fun t => t.regs = s.regs ∧
        (SMap.find t.mill (s.act F.PLY_MILL_HB_mill_hb_chan)).bind MillChan.heartbeat =
          some (beBytes 4 s.epoch ++ beBytes 4 (s.turn.k % 2 ^ 32)))) ∧
      Does .ownHeartbeatLoss s (fun t => t.rd F.PLY_STATUS_state = 6 ∧ t.rd F.PLY_REASON_abdication = 6 ∧
        t.rd F.PLY_STATUS_abd_out = 1 ∧ t.rd F.PLY_STATUS_muted = 1 ∧ t.rd F.TURN_WDOG_armed = 0 ∧ t.ply.tokOut = false))

/-- What partners tell each other: a bridged INPUT frame counts as one received (R99) but not directly; a released
payload goes out at once as the standby's proxy frame (R100); REACH tells which stations the partner lacks; DIGESTs
that match count, and one that does not makes the standby leave tracking with reason 1 (R280, R281); a COMPLETION is
kept, with whether it came in time (R115); HEALTH tells the state, the key and new mismatches, at least a joining
partner ends LONE (R277, R284).
Each of these completes here: bridgeReceived, releasedReceived, reachReceived, digestReceived, completionReceived,
healthReceived. -/
def PartnerFramesTaken : Prop :=
  ∀ (s : State) (h : PlyHdr),
    let k := h.turn.toNat
    (∀ b : Bytes, Taken s 0x41 h → sealOk b = true → 36 ≤ b.length →
      let f := readSkein b
      let n := f.station
      f.type = 1 → s.present n = true → skeinWhole b (payBytes (s.act (F.STATION_MAP_0_in_samples n))) = true →
      s.rd F.TURN_STATUS_running = 1 → f.turn = s.turn.k → s.replaying = false → s.turn.cutoffs ≤ s.turn.k →
      s.rd (F.SK_STN_STATE_state (n / 16) (n % 16)) = 3 →
      aliveClass s.skein.rxAlive (skKey 1 n) s.time.ticks f.alive = .inOrder →
      Does (.bridgeReceived h b) s (fun t => n ∈ t.image.got ∧ t.skein.direct = s.skein.direct ∧
        t.rd (F.SK_STN_STATE_direct (n / 16) (n % 16)) = 0 ∧ t.rd (F.SK_STN_STATE_missed (n / 16) (n % 16)) = 0 ∧
        t.rd (F.SK_CNT_count (n / 16) 6) = min (s.rd (F.SK_CNT_count (n / 16) 6) + 1) (2 ^ (F.SK_CNT_count (n / 16) 6).width - 1) ∧
        ∀ x ∈ s.slotsOf 1 n, s.act (F.SLOT_POL_SRC_index x) < s.act (F.STATION_MAP_0_in_samples n) →
          (t.cell x).entry.value = unpackSample f.payload (s.act (F.SLOT_POL_SRC_index x)))) ∧
    (∀ (n : Fin 256) (body : Bytes), Taken s 0x42 h → s.plyState = 4 → n.val ∈ s.skein.proxy →
      s.rd F.TURN_WDOG_tripped = 0 → s.portBraked (n.val / 16) = false → s.rd (F.SK_STATUS_link (n.val / 16)) = 2 →
      Does (.releasedReceived h n body) s (fun t => t.regs = s.regs ∧ t.image = s.image ∧ ∃ alive holdoff ns frac,
        t.out = s.out ++ [.skein (n.val / 16) (skeinFrame 2 n.val 2 s.epoch alive holdoff
          (k + 1 - s.nTurns * s.stationP n.val) ns frac body)])) ∧
    (∀ reach : List (BitVec 16), Taken s 0x43 h →
      let far := fun n => n < 256 ∧ bitOf ((reach.getD (n / 16) 0).toNat) (n % 16) = true
      Does (.reachReceived h reach) s (fun t => t.image = s.image ∧ t.turn = s.turn ∧ t.out = s.out ∧
        (SMap.find s.ply.reachOwn k = none → t.regs = s.regs ∧
          ∃ l, SMap.find t.ply.reachFar k = some l ∧ ∀ n, n ∈ l ↔ far n) ∧
        (∀ own, SMap.find s.ply.reachOwn k = some own → ∀ n ∈ s.stations, k % s.stationP n = 0 →
          (n ∈ t.skein.partnerLacks ↔ n ∈ own ∧ ¬far n) ∧ (n ∈ t.skein.lacksMe ↔ far n ∧ n ∉ own)))) ∧
    (∀ far : Digest, Taken s 0x44 h → s.plyState = 4 →
      (SMap.find s.ply.digOwn k = none → Does (.digestReceived h far) s (fun t => SMap.find t.ply.digPartner k = some far ∧
        t.ply.noDigest = 0 ∧ t.regs = s.regs)) ∧
      (∀ own, SMap.find s.ply.digOwn k = some own → s.digestExcluded k = false → k ∉ s.ply.split →
        Does (.digestReceived h far) s (fun t =>
          (own.outSeal = far.outSeal ∧ own.braked = far.braked ∧ own.auxSeal = far.auxSeal ∧ own.items = far.items →
            t.ply.matchRun = s.ply.matchRun + 1 ∧ t.rd F.PLY_STATUS_state = 4) ∧
          (¬(own.outSeal = far.outSeal ∧ own.braked = far.braked ∧ own.auxSeal = far.auxSeal ∧ own.items = far.items) →
            LeftTracking t 1 ∧ bitOf (t.rd F.PLY_EVT_evt) 6 = true)))) ∧
    (∀ (task : Fin 16) (trap : BitVec 8) (pc : BitVec 16) (ns : BitVec 32), Taken s 0x45 h →
      let rel := s.releaseNsOf (s.taskRel task.val k) % 1000000000
      let after := (ns.toNat % 1000000000 + 1000000000 - rel) % 1000000000
      Does (.completionReceived h task trap pc ns) s (fun t =>
        SMap.find (t.task task.val).partnerDone k =
            some (trap.toNat + 256 * bit (after == 0 || decide (500000000 ≤ after))) ∧
          (∀ u, u ≠ task.val → t.task u = s.task u) ∧ t.image = s.image ∧ t.turn = s.turn)) ∧
    (∀ body : Bytes, Taken s 0x4A h → s.plyState ≠ 0 → Does (.healthReceived h body) s (fun t =>
      t.ply.health = body ∧ t.rd F.PLY_STATUS_partner_state = byteAt body 0 % 8 ∧
        t.rd F.KEY_STATUS_partner = byteAt body 2 % 4 ∧ t.rd F.KEY_STATUS_partner_valid = 1 ∧
        (s.rd F.KEY_STATUS_local = byteAt body 2 % 4 → t.rd F.KEY_STATUS_disagree = 0) ∧
        t.rd F.PLY_STATUS_state = (if s.plyState = 1 ∧ byteAt body 0 % 8 = 3 then 2 else s.plyState) ∧
        (s.plyState = 1 ∨ s.plyState = 2 → t.rd F.PLY_COUNTS_mismatches =
          min (s.rd F.PLY_COUNTS_mismatches + (beAt body 24 4 - beAt s.ply.health 24 4)) 65535) ∧ t.image = s.image))

/-- The brake matrix (R301, R303 to R305, R312, R316): an enabled input asserts or releases its row; an assertion counts,
is stamped as the last and, if none is, the first, and latches where its row does; BRK_CLEAR ends the latches named,
but for row 18 and for rows whose source is asserted; outputs and ports follow the effective rows. The active's soft
sources are asked for at a boundary, mirrored, and take effect there. BRK_LOCK locks, BRK_FIRST clears, and a refresh
sends a BRAKE frame with the safe payload for every station of a braked port while no release gate fires (R300, R307).
Each of these completes here: brakeInputAssert, brakeInputRelease, brkClearWrite, brkSoftWrite, softBrakeApply,
brkLockWrite, brkFirstClearWrite, brakeFrameRefresh. -/
def BrakeMatrix : Prop :=
  ∀ s : State, s.pd .brake = true →
    let raw := fun (t : State) => t.rd F.BRK_SRC_RAW_raw
    (∀ line : Fin 8, s.act (F.BRK_IN_CFG_enable line.val) = 1 →
      (bitOf (raw s) line.val = false → Does (.brakeInputAssert line) s (fun t =>
        bitOf (raw t) line.val = true ∧ t.rowEff line.val = true ∧ MatrixShown t ∧ t.image = s.image ∧
          t.rd (F.BRK_COUNT_count line.val) = min (s.rd (F.BRK_COUNT_count line.val) + 1) 65535 ∧
          bitOf t.brake.latched line.val =
            (bitOf s.brake.latched line.val || s.act (F.BRK_ROW_OUT_latch line.val) == 1) ∧
          (s.pd .time = true → t.rd F.BRK_LAST_row = line.val ∧ t.rd F.BRK_LAST_valid = 1 ∧
            (s.rd F.BRK_FIRST_valid = 0 → t.rd F.BRK_FIRST_row = line.val ∧ t.rd F.BRK_FIRST_valid = 1)))) ∧
      (bitOf (raw s) line.val = true → Does (.brakeInputRelease line) s (fun t =>
        bitOf (raw t) line.val = false ∧ t.brake.latched = s.brake.latched ∧ MatrixShown t ∧ t.image = s.image))) ∧
    (∀ v : Word32, Does (.brkClearWrite v) s (fun t => raw t = raw s ∧ MatrixShown t ∧ t.image = s.image ∧
      ∀ r < 32, bitOf t.brake.latched r = (bitOf s.brake.latched r &&
        !(bitOf v.toNat r && r != 18 && !bitOf (raw s) r)))) ∧
    (∀ v : Word32, s.plyState = 1 ∨ s.plyState = 2 → v.toNat % 16 ≠ s.rd F.BRK_SOFT_soft →
      let b := if s.plyState = 1 then s.nextBoundary else s.boundary2
      Does (.brkSoftWrite v) s (fun t => t.rd F.BRK_SOFT_soft = v.toNat % 16 ∧ t.brake.soft = s.brake.soft ∧
        t.brake.softNext = s.brake.softNext ++ [(b, v.toNat % 16)] ∧ RegsIn [.brake] s t ∧
        (s.plyState = 2 → s.rd F.PLY_STATUS_link = 2 → ∃ alive, t.out = s.out ++
          [.hostWrite alive b [.soft (BitVec.ofNat 4 (v.toNat % 16))]]))) ∧
    (∀ b bits, s.brake.softNext = [(b, bits)] → b ≤ s.turn.k → Does .softBrakeApply s (fun t =>
      t.brake.softNext = [] ∧ t.brake.soft = bits ∧ t.image = s.image ∧
        ∀ i < 4, bitOf (raw t) (20 + i) = bitOf bits i)) ∧
    (∀ v : Word32, Does (.brkLockWrite v) s (fun t => RegsIn [.brake] s t ∧ OnlyRegs s t ∧
      t.rd F.BRK_LOCK_lock = (if bitOf v.toNat 0 then 1 else s.rd F.BRK_LOCK_lock)) ∧
      Does (.brkFirstClearWrite v) s (fun t => RegsIn [.brake] s t ∧ OnlyRegs s t ∧
        t.rd F.BRK_FIRST_valid = (if bitOf v.toNat 0 then 0 else s.rd F.BRK_FIRST_valid))) ∧
    Does .brakeFrameRefresh s (fun t => t.regs = s.regs ∧ t.image = s.image ∧ t.brake = s.brake ∧
      (s.noRelease = false → t = s) ∧
      (s.noRelease = true → s.plyState = 1 ∨ s.plyState = 2 → ∀ p < 16, bitOf (s.rd F.BRK_STATE_port) p = true → s.rd (F.SK_STATUS_link p) = 2 →
        ∀ n ∈ s.portStations p, ∃ alive holdoff, Out.skein p (skeinFrame 3 n 0 s.epoch alive holdoff s.turn.k 0xFFFFFFFF 0
          (SMap.getD s.brake.payloads n [])) ∈ t.out))

/-- The loss of the 12 V input (R314, R315, R458): row 24, the role given up with cause 8, the bypass closed, and every
domain but the brake domain, the bins, the miller, time and the keep island off; then, as the last-gasp record, the
retained variables and the holdup store end, the rest. Else the keep island takes the working second (R265, R314). An open ejector asserts row 25, closes the bypass and gives up
the role with cause 7, and a closed one ends it (R475, R476).
Each of these completes here: inputLost, lastGaspRecordDone, keepIslandUpdate, holdupSpent, ejectorOpen,
ejectorClosed. -/
def InputLossAndEjector : Prop :=
  ∀ s : State,
    let raw := fun (t : State) => t.rd F.BRK_SRC_RAW_raw
    let off := fun (t : State) (ds : List Pd) => ∀ d ∈ ds, t.pd d = false
    (s.pd .brake = true → Does .inputLost s (fun t =>
      t.pwr.inputGood = false ∧ t.pwr.shedding = true ∧ t.rd F.PWR_STATUS_moving = 0 ∧ t.rd F.PWR_SUPPLY_input_mv < 10200 ∧
        t.rd F.BRK_STATE_holdup = 1 ∧ bitOf (raw t) 24 = true ∧ t.rd F.RING_STATUS_bypass = 1 ∧
        off t [.dram, .skein, .wheel, .spindle, .ringply, .hostsvc] ∧ t.pd .brake = true ∧
        (s.plyState = 1 ∨ s.plyState = 2 → t.rd F.PLY_STATUS_state = 6))) ∧
    (s.pwr.shedding = true →
      Does .lastGaspRecordDone s (fun t => off t [.time] ∧ t.pd .brake = s.pd .brake ∧
        ∀ e ∈ t.recorder.queue, ¬(56 ≤ e.trigger ∧ e.trigger ≤ 58)) ∧
      (s.tasks.flushing = none → Does .keepIslandUpdate s (fun t => off t [.bins, .miller] ∧ t.pd .brake = s.pd .brake ∧ t.pd .keep = s.pd .keep)) ∧
      (s.tasks.flushing ≠ none → Does .keepIslandUpdate s (fun t => t = s)) ∧
      Does .holdupSpent s (fun t => t.rd F.PWR_STATUS_rung = 7 ∧ t.rd F.PWR_STATUS_holdup_ok = 0 ∧
        t.pwr.shedding = false ∧ (∀ d : Pd, d ≠ .keep → t.pd d = false) ∧ t.pd .keep = s.pd .keep)) ∧
    (s.pwr.shedding = false → s.time.workSet = true → s.pd .keep = true → Does .keepIslandUpdate s (fun t =>
      t = { s with time := { s.time with calendar := s.workSec, calPart := 0 } })) ∧
    (s.pd .brake = true → s.pwr.ejected = false → Does .ejectorOpen s (fun t =>
      t.pwr.ejected = true ∧ bitOf (raw t) 25 = true ∧ t.rd F.RING_STATUS_bypass = 1 ∧
        (s.plyState = 1 ∨ s.plyState = 2 → t.rd F.PLY_STATUS_state = 6 ∧ t.rd F.PLY_REASON_abdication = 7) ∧
        (s.plyState = 3 ∨ s.plyState = 4 ∨ s.plyState = 5 → t.rd F.PLY_STATUS_state = 0))) ∧
    (s.pd .brake = true → s.pwr.ejected = true → Does .ejectorClosed s (fun t =>
      t.pwr.ejected = false ∧ bitOf (raw t) 25 = false ∧ t.image = s.image))

/-- The doorbell page and the rings (R322 to R325, R343). A read ends while R321 lets the ring engine
use host memory and the miller serves (R24): each enabled command ring
without error takes its completion index, unless an index lies outside the ring, which stops it in error; a page that
the bus does not give sets HOST_ERR bit 0. Enabling a ring sets its counts to 0 and takes its sizes, and a size out of
range is an error; a ring that is enabled keeps its sizes. POLICY_LOCK locks.
Each of these completes here: doorbellReadEnd, ringEnableWrite, policyLockWrite. -/
def RingsServedAndSet : Prop :=
  ∀ s : State, s.pd .hostsvc = true →
    let served := s.host.reading = true ∧ s.dmaOk = true ∧ s.pd .miller = true ∧ s.host.millerUp = true ∧
      (s.acAccess 3 0 0 (s.hostAddr 0x2010) 128).2 = true
    (∀ page : Bytes, served → Does (.doorbellReadEnd true page []) s (fun t =>
      t.host.reading = false ∧ t.fw.served = true ∧ t.image = s.image ∧ ∀ r : Fin 4,
        let written := SMap.getD s.host.written r.val 0
        let held := idxGap written (leAt page (0x10 + 4 * r.val) 4)
        s.rd (F.HRING_CTRL_enable r.val) = 1 → s.rd (F.HRING_STATUS_error r.val) = 0 →
          (s.offered page r.val ≤ s.cmdSize r.val → held ≤ s.cplSize r.val →
            SMap.find t.host.cplCi r.val = some (written - held) ∧ t.rd (F.HRING_STATUS_error r.val) = 0) ∧
          (s.cmdSize r.val < s.offered page r.val ∨ s.cplSize r.val < held →
            t.rd (F.HRING_STATUS_error r.val) = 1 ∧
              SMap.find t.host.cplCi r.val = SMap.find s.host.cplCi r.val))) ∧
    (∀ page cmds, served → Does (.doorbellReadEnd false page cmds) s (fun t =>
      t.host.reading = false ∧ bitOf (t.rd F.HOST_ERR_err) 0 = true ∧ RegsIn [.events, .viol] s t ∧ t.image = s.image)) ∧
    (∀ (r : Fin 4) (v : Word32),
      (s.rd (F.HRING_CTRL_enable r.val) = 0 → v.toNat % 2 = 1 → Does (.ringEnableWrite (.command r) v) s (fun t =>
        t.rd (F.HRING_CTRL_enable r.val) = 1 ∧ t.rd (F.HRING_CTRL_cmd_log2 r.val) = bitsOf v.toNat 5 1 ∧
          t.rd (F.HRING_CTRL_cpl_log2 r.val) = bitsOf v.toNat 10 6 ∧ SMap.find t.host.consumed r.val = none ∧
          SMap.find t.host.written r.val = none ∧ SMap.find t.host.cplCi r.val = none ∧
          (t.rd (F.HRING_STATUS_error r.val) = 0 ↔ 4 ≤ bitsOf v.toNat 5 1 ∧ bitsOf v.toNat 5 1 ≤ 16 ∧
            4 ≤ bitsOf v.toNat 10 6 ∧ bitsOf v.toNat 10 6 ≤ 16))) ∧
      (s.rd (F.HRING_CTRL_enable r.val) = 1 → Does (.ringEnableWrite (.command r) v) s (fun t =>
        t.rd (F.HRING_CTRL_enable r.val) = v.toNat % 2 ∧ t.host = s.host ∧ OnlyRegs s t ∧
          t.rd (F.HRING_CTRL_cmd_log2 r.val) = s.rd (F.HRING_CTRL_cmd_log2 r.val)))) ∧
    (∀ v : Word32, s.rd F.EVR_CTRL_enable = 0 → v.toNat % 2 = 1 → 6 ≤ bitsOf v.toNat 5 1 → bitsOf v.toNat 5 1 ≤ 16 →
      Does (.ringEnableWrite .event v) s (fun t => t.rd F.EVR_CTRL_enable = 1 ∧
        t.host = { s.host with evtWritten := 0, evtCi := 0, evtDropped := 0, evtError := false })) ∧
    (∀ (i : Fin 16) (v : Word32), s.rd (F.TRR_CTRL_enable i.val) = 0 → v.toNat % 2 = 1 → 4 ≤ bitsOf v.toNat 4 1 →
      bitsOf v.toNat 4 1 ≤ 12 → Does (.ringEnableWrite (.trace i) v) s (fun t => t.rd (F.TRR_CTRL_enable i.val) = 1 ∧
        SMap.find t.host.trcWritten i.val = none ∧ bitOf t.host.trcError i.val = false)) ∧
    (∀ v : Word32, Does (.policyLockWrite v) s (fun t => OnlyRegs s t ∧
      t.rd F.POLICY_LOCK_lock = (if v.toNat % 2 = 1 then 1 else s.rd F.POLICY_LOCK_lock)))

/-- The host link (R321, R337, R339, R341). FLR, and PERST# asserted, set the rings to their cold values, keep
POLICY_LOCK, end Bus Master Enable, and discard the completions of commands still outstanding; PERST# takes the link
down too, as a link loss does, which halts the ring engine and raises event source 8. A trained link shows its speed
and width. In D0 with bus mastering what waited is written. A message whose time has passed goes out or is held by its
mask, and unmasking the function sends those held.
Each of these completes here: flr, perstChange, hostLinkDown, hostLinkTrained, pmStateChange, msixCoalTimeout,
msixFunctionUnmask. -/
def HostLinkAndMessages : Prop :=
  ∀ s : State,
    let anew := fun (t : State) => (∀ r : Fin 4, t.rd (F.HRING_CTRL_enable r.val) = 0) ∧ t.rd F.EVR_CTRL_enable = 0 ∧
      t.rd F.POLICY_LOCK_lock = s.rd F.POLICY_LOCK_lock ∧ t.host.busMaster = false ∧ t.host.dstate = 0 ∧
      t.host.consumed = [] ∧ t.host.written = [] ∧ (∀ m ∈ t.host.outstanding, m.lost = true) ∧
      t.host.outstanding.length = s.host.outstanding.length ∧ t.image = s.image ∧ t.hop = s.hop ∧ t.fw = s.fw
    (s.pd .hostsvc = true →
      Does .flr s (fun t => anew t ∧ t.host.linkDown = s.host.linkDown) ∧
      Does (.perstChange true) s (fun t => anew t ∧ t.host.perst = true ∧ t.host.linkDown = true ∧
        t.rd F.HOST_STATUS_speed = 0) ∧
      (s.host.linkDown = false → Does .hostLinkDown s (fun t => t.host.linkDown = true ∧ t.host.halted = true ∧
        t.host.waiting = [] ∧ t.host.reading = false ∧ t.rd F.HOST_STATUS_speed = 0 ∧ t.rd F.HOST_STATUS_state = 2 ∧
        t.image = s.image)) ∧
      (s.host.perst = false → ∀ (speed : Fin 7) (width : LinkWidth) (l1 : Bool), Does (.hostLinkTrained speed width l1) s (fun t =>
        t.rd F.HOST_STATUS_speed = speed.val ∧
          t.rd F.HOST_STATUS_width = (match width with | .x1 => 1 | .x2 => 2 | .x4 => 4) ∧
          t.rd F.HOST_STATUS_l1 = bit (l1 && speed.val != 0 && s.l1Ok) ∧ t.host.linkDown = (speed.val == 0) ∧ t.image = s.image)) ∧
      (∀ (d : Fin 4) (master : Bool), Does (.pmStateChange d master) s (fun t =>
        t.host.dstate = d.val ∧ t.host.busMaster = master ∧ t.image = s.image ∧
          (d.val = 0 → master = true → s.host.perst = false → s.host.linkDown = false → t.host.waiting = []) ∧
          (d.val ≠ 0 ∨ master = false → t.host.waiting = s.host.waiting ∧ t.out = s.out))) ∧
      (∀ v : Fin 128, SMap.has s.host.coal v.val = true → s.rd (F.EVT_COAL_time_us v.val) ≠ 0 →
        Does (.msixCoalTimeout v) s (fun t => SMap.find t.host.coal v.val = none ∧
          (s.host.funcMask = false → s.rd (F.MSIX_CTRL_mask v.val) = 0 → t.out = s.out ++ [.msix v.val] ∧ t.regs = s.regs) ∧
          (s.host.funcMask = true ∨ s.rd (F.MSIX_CTRL_mask v.val) = 1 → t.out = s.out ∧
            bitOf (t.rd (F.MSIX_PBA_pending (v.val / 32))) (v.val % 32) = true))) ∧
      Does .msixFunctionUnmask s (fun t => t.host = { s.host with funcMask := false } ∧ ∀ v : Fin 128,
        let pending := fun (u : State) => bitOf (u.rd (F.MSIX_PBA_pending (v.val / 32))) (v.val % 32)
        (pending s = true → s.rd (F.MSIX_CTRL_mask v.val) = 0 → pending t = false ∧ Out.msix v.val ∈ t.out) ∧
          (s.rd (F.MSIX_CTRL_mask v.val) = 1 → pending t = pending s))) ∧
    (s.host.perst = true → s.rd F.PWR_STATUS_moving = 0 → s.rd F.PWR_STATUS_rung = 5 ∨ s.rd F.PWR_STATUS_rung = 6 →
      bitOf (s.act F.PWR_CTRL_wake_en) 0 = true →
      Does (.perstChange false) s (fun t => t.host.perst = false ∧ WakesUp t 2))

end Sys2Proof.Machine

open Sys2Proof Sys2Proof.Machine

/-- O1. ADD, SUB, ADDI, CMP and CMPI of a running strand complete with the result modulo 2^36 and the flags Z, N, C and V
of the exact result (R137, R138); CMP and CMPI write no register. Q and LT stay.
Each of these completes here: twAdd, twSub, twAddi, twCmp, twCmpi.
ADDS, SUBS, ABS, NEG and DIV by a divisor other than 0 complete with the exact result saturated to 36 bits; V is 1
and Q is set where it saturates, and C stays (R128, R137).
Each of these completes here: twAdds, twSubs, twAbs, twNeg, twDiv. -/
def Obligations.TwistArithmetic : Prop :=
  TwistSumsAndDifferences ∧ TwistSaturatingArithmetic

/-- O2. AND, OR, XOR, ANDN, MIN, MAX, ANDI, ORI and XORI complete with Z and N of the result and with C and V clear (R137,
R138).
Each of these completes here: twAnd, twOr, twXor, twAndn, twMin, twMax, twAndi, twOri, twXori.
SHL, SHR and SAR by gb[5:0], and SHI by the shifts the load permits, complete with Z and N of the result and C the
last bit shifted out; V, Q and LT stay (R137, R138).
Each of these completes here: twShl, twShr, twSar, twShi. -/
def Obligations.TwistLogicAndShifts : Prop :=
  TwistLogic ∧ TwistShifts

/-- O3. MUL completes with the product modulo 2^36 and V where it lies outside 36 bits. MULQ, SATQ and DIVQ by a divisor
other than 0 complete on operands saturated to Q1.17, with the rounded result saturated to Q1.17 and Q set where an
operand or the result saturates (R128, R137).
Each of these completes here: twMul, twMulq, twSatq, twDivq.
SEL, RDF, CLQ, LUI, LIX and NOP complete; of the flags only CLQ changes one: it clears Q (R137, R138). RDF returns
the flags it finds, and LIX the index of the innermost loop.
Each of these completes here: twSel, twRdf, twClq, twLui, twLix, twNop. -/
def Obligations.TwistProductsAndMoves : Prop :=
  TwistProducts ∧ TwistMoves

/-- O4. The words of Twist code (R135 to R138). A word of a defined encoding spells one instruction, in any strand, and the
instruction's own word is that word with its unused fields 0; a word of an undefined encoding spells none. The own
word of an instruction, where its encoding is defined, spells an instruction of that word again, and words that spell
the same instruction differ in unused fields alone. -/
def Obligations.TwistWordsDecode : Prop :=
  ∀ (t : Fin 16) (j : Fin 8),
    (∀ w : Word36, wordOk w.toNat = true → ∃ a, decodeTwist t j w = some a ∧ twistWord a = some (wordCanon w.toNat)) ∧
    (∀ w : Word36, wordOk w.toNat = false → decodeTwist t j w = none) ∧
    (∀ a n, twistWord a = some n → wordOk n = true → n < 2 ^ 36 ∧ wordCanon n = n ∧
      ∃ b, decodeTwist t j (BitVec.ofNat 36 n) = some b ∧ twistWord b = some n) ∧
    ∀ (v w : Word36) (a : Instr), decodeTwist t j v = some a →
      (decodeTwist t j w = some a ↔ wordOk w.toNat = true ∧ wordCanon w.toNat = wordCanon v.toNat)

/-- O5. LDS, LDE, TAG and LPR of an index within bounds, with no uncorrectable memory error, complete (R129, R132, R138):
LDS returns the slot's value sign-extended, with Z and N of it and C and V clear; LDE the container and TAG the tag,
with Z alone; each takes the slot's tag into LT. LPR returns the node, with Z and N of it and C and V clear.
Each of these completes here: twLds, twLde, twTag, twLpr.
WINB completes where ga and g(a+1) hold the bounds of a window (R129, R138): bit m of gd is 1 where the slot
4 × field + m is not GOOD or lies outside the window, for the n slots tested, and 0 above; Z is of gd and LT the last
slot's tag.
Each of these completes here: twWinb.
MBR of a buffer that has never held a message completes with Z 1 and C 0 and writes nothing; of one that has, it
copies the 18 words of the newest message to the strand's own range, with Z 0 and C 1 where the message is not the
one that this task's previous MBR of the buffer returned (R133).
Each of these completes here: twMbr. -/
def Obligations.TwistReads : Prop :=
  TwistReadsOfTheView ∧ TwistWindowTest ∧ TwistMillBusRead

/-- O6. STS, LPW, STW, LDW, TRD and MBQ complete within their bounds (R130, R131, R132, R133, R134). STS puts the
saturated value into the output view, CLAMPED where it saturated or m asks for it and ERR where m asks for it, and
sets Q where it saturated. LPW adds a target, a mode from 0 to 3 or a manual output to the loop's writes. STW writes a
word of the strand's own range. LDW reads a word, and TRD the turn number, the period, the task or the strand. MBQ
queues the descriptor that stands at the address.
Each of these completes here: twSts, twLpw, twTrd, twLdw, twStw, twMbq. -/
def Obligations.TwistWritesOfTheView : Prop :=
  ∀ (s : State) (t : Fin 16) (j : Fin 8) (i : TaskInst) (x : Strand) (gd gs gi gb : Fin 32) (m : BitVec 2)
    (slot : BitVec 18) (loop : BitVec 12) (off : BitVec 16) (n : Nat),
    Running s t j i x → Indexes i j x gi n →
    let v := (x.reg gs.val).toInt
    let sat := decide (clamp18 v ≠ v)
    let keeps := fun (c : Instr) (i' : TaskInst) (q : Bool) => GoesOn c s t j i' x 0 0 x.z x.n x.c x.v q x.lt
    let loads := fun (c : Instr) (r : Word36) => GoesOn c s t j i x gd.val r x.z x.n x.c x.v x.q x.lt
    keeps (.twSts t j gs gi m slot)
        { i with out := SMap.put i.out (slot.toNat + n)
                          ⟨BitVec.ofInt 18 (clamp18 v), mkTag 0 false (sat || m.getLsbD 1) false (m.getLsbD 0)⟩ }
        (x.q || sat) ∧
      keeps (.twLpw t j gs gi 2 loop)
        { i with loopWrites := i.loopWrites ++ [(loop.toNat + n, ⟨0, some (clamp18 v), none, none⟩)] } (x.q || sat) ∧
      keeps (.twLpw t j gs gi 7 loop)
        { i with loopWrites := i.loopWrites ++ [(loop.toNat + n, ⟨0, none, some (clamp18 v), none⟩)] } (x.q || sat) ∧
      ((x.reg gs.val).toNat < 4 → keeps (.twLpw t j gs gi 6 loop)
        { i with loopWrites := i.loopWrites ++ [(loop.toNat + n, ⟨0, none, none, some (x.reg gs.val).toNat⟩)] } x.q) ∧
      loads (.twTrd t j gd 0) (BitVec.ofNat 36 i.sample) ∧ loads (.twTrd t j gd 4) (BitVec.ofNat 36 i.period) ∧
      loads (.twTrd t j gd 6) (BitVec.ofNat 36 t.val) ∧ loads (.twTrd t j gd 7) (BitVec.ofNat 36 j.val) ∧
      ∀ a : Nat, (x.reg gb.val).toInt + (off.toNat : Int) = (a : Int) → a + 1 ≤ progDataWords i.prog →
        ((s.dataAccess t.val j.val 0 a 1 i).2 = true →
          loads (.twLdw t j gd gb off false) (s.readWord t.val j.val i a)) ∧
        ((s.dataAccess t.val j.val 1 a 1 i).2 = true → ownsWord i.prog j.val a = true →
          keeps (.twStw t j gs gb off) { i with data := SMap.put i.data a (x.reg gs.val) } x.q) ∧
        ∀ (ch : Fin 2) (buf : Fin 64), a + 18 ≤ progDataWords i.prog →
          (s.readWord t.val j.val i (a + 1)).toNat ∈ [0, 1, 2, 3, 4, 5, 6, 7, 8, 12, 16, 20, 24, 32, 48, 64] →
          keeps (.twMbq t j gb ch buf off false)
            { i with mbq := SMap.put i.mbq (ch.val * 64 + buf.val)
                              ((List.range 18).map (fun m => s.readWord t.val j.val i (a + m))) } x.q

/-- O7. BR by a defined condition, BTAG, LOOP with a count from 0 to max and a counter free, CALL with room for a return
address, and RET with one on the stack complete (R127, R138, R139): registers, flags and LT stay. BR and BTAG go to pc + 1 + off where the test holds, else to the
next word, and a BR by an undefined condition traps; LOOP opens a frame over the next len words, or passes them where
the count is 0; CALL pushes pc + 1; RET pops.
Each of these completes here: twBr, twBtag, twLoop, twCall, twRet. -/
def Obligations.TwistBranchesLoopsAndCalls : Prop :=
  ∀ (s : State) (t : Fin 16) (j : Fin 8) (i : TaskInst) (x : Strand),
    Running s t j i x →
    let goes := fun (a : Instr) (pc : Nat) => Stands a i j x → ∃ u y, exec a s = .next u ∧ StrandStep s u t j i y ∧ MovesTo x y pc ∧
      Writes x y 0 0 ∧ FlagsAre y x.z x.n x.c x.v x.q x.lt
    let becomes := fun (a : Instr) (y : Strand) => Stands a i j x → ∃ u, exec a s = .next u ∧ StrandStep s u t j i y
    (∀ (cond : Fin 12) (off : BitVec 16), goes (.twBr t j (BitVec.ofNat 4 cond.val) off)
      (if Holds x cond.val then x.pc + 1 + off.toNat else x.pc + 1)) ∧
    (∀ (cond : BitVec 4) (off : BitVec 16), 12 ≤ cond.toNat → Stands (.twBr t j cond off) i j x →
      Does (.twBr t j cond off) s (fun u => u.rd (F.TRAP_INFO_code t.val) = 8 ∧ u.image = s.image)) ∧
    (∀ (q : BitVec 2) (mask : BitVec 6) (off : BitVec 16),
      goes (.twBtag t j 0 q mask off) (if x.lt &&& mask ≠ 0 then x.pc + 1 + off.toNat else x.pc + 1) ∧
      goes (.twBtag t j 1 q mask off) (if x.lt &&& mask = 0 then x.pc + 1 + off.toNat else x.pc + 1) ∧
      goes (.twBtag t j 2 q mask off) (if x.lt.toNat % 4 = q.toNat then x.pc + 1 + off.toNat else x.pc + 1) ∧
      goes (.twBtag t j 3 q mask off) (if x.lt.toNat % 4 ≠ q.toNat then x.pc + 1 + off.toNat else x.pc + 1)) ∧
    (∀ (gc : Fin 32) (max1 : BitVec 12) (len : BitVec 13), x.loops.length < 4 →
      ((x.reg gc.val).toInt = 0 → goes (.twLoop t j gc max1 len) (x.pc + 1 + len.toNat)) ∧
      ∀ n : Nat, (x.reg gc.val).toInt = (n : Int) → 1 ≤ n → n ≤ max1.toNat + 1 →
        becomes (.twLoop t j gc max1 len)
          { x with loops := ⟨x.pc + 1, x.pc + len.toNat, n, 0, x.calls.length⟩ :: x.loops, pc := (x.pc + 1) % 2 ^ 14 }) ∧
    (∀ target : BitVec 16, x.calls.length < 8 → becomes (.twCall t j target)
      { x with calls := (x.pc + 1) % 2 ^ 14 :: x.calls, pc := target.toNat % 2 ^ 14 }) ∧
    ∀ r rs, x.calls = r :: rs → becomes (.twRet t j) (({ x with calls := rs } : Strand).jump r)

/-- O8. END ends its strand: the strand's state is as it was but for that, its spindle no longer runs it, and where it was
the last of its instance to end, the instance goes on to its commit (R105, R106, R138). No register changes, nor any
unit but the tasks.
Each of these completes here: twEnd.
TRAP, an undefined encoding reached, a word with an uncorrectable error, DIV and DIVQ by 0, and BR by an undefined
condition trap (R136, R137, R139, R141, R142): the instance ends without committing, the trap registers of the task
take the code, the strand, its program counter and the user code, and the sample's number, and a trap is judged
next. A residue mismatch of an arithmetic instruction stops its strand without the result (R44).
Each of these completes here: twTrap, undefinedEncodingReached, twDiv, twDivq, twBr, twAdd, twSub, twCmp, twMul,
twAddi, twCmpi. -/
def Obligations.TwistEndsAndTraps : Prop :=
  TwistEnd ∧ TwistTraps

/-- O9. A module with working time set, no engine running and no active or lone partner on a ply link that is up starts
its turn engine (R28): the turn number and k_origin are 0, the origin is a whole second of working time, and the
origin registers show its time word (R6, R47). Turn 0 begins with its marks (R76, R77), and a key position taken
before becomes effective at a boundary named for it (R122). No register but the origin's and the host's doorbell
count changes.
Each of these completes here: turnEngineStart.
Where the engine runs, TURN_BOUNDARY raises the turn number by 1 and nothing else of the turn (R27). The marks of the
new turn go out (R76, R77), and each port whose receive half works counts whether the far end's mark was seen in the
turn that ended (R98). A flush that RETAIN_CTRL or a carry asked for starts, where none runs (R111, R164). Of the
registers only the host's doorbell count may change (R323).
Each of these completes here: turnBoundary. -/
def Obligations.TurnEngineRuns : Prop :=
  TurnEngineStarts ∧ TurnBoundaryCounts

/-- O10. The input cut-off of turn k passes once (R33). A station due at k whose INPUT frame has not counted misses its
sample, and each of its slots takes its policy (R56): HOLD keeps the value with quality HELD, SUBSTITUTE gives the
set value with quality SUBST, and the rest keep the value with quality BAD, in BRAKE with their slot-loss source
asserted unless they are forced (R57, R62). The wheel view of sample k is what the image holds then (R172).
Each of these completes here: inputCutoff. -/
def Obligations.InputCutoffSubstitutes : Prop :=
  ∀ s : State, s.rd F.TURN_STATUS_running = 1 → s.pd .skein = true → s.replaying = false → s.turn.cutoffs ≤ s.turn.k →
    Does .inputCutoff s (fun t =>
      t.turn.cutoffs = s.turn.k + 1 ∧ t.turn.k = s.turn.k ∧ t.image.forces = s.image.forces ∧ t.loops = s.loops ∧
        (∃ v, SMap.find t.turn.views s.turn.k = some v ∧ ∀ e ∈ v, e.2 = t.wheelEntry e.1) ∧
        ∀ n ∈ s.stations, s.turn.k % s.stationP n = 0 → n ∉ s.image.got → ∀ m ∈ s.slotsOf 1 n,
          let e := (s.cell m).entry
          let u := t.cell m
          0 < u.age ∧
            (s.act (F.SLOT_POL_0_policy m) = 0 → u.entry.value = e.value ∧ u.entry.tag.toNat % 4 = 1) ∧
            (s.act (F.SLOT_POL_0_policy m) = 1 →
              u.entry.value = BitVec.ofNat 18 (s.act (F.SLOT_POL_SUBST_subst m)) ∧ u.entry.tag.toNat % 4 = 2) ∧
            (s.act (F.SLOT_POL_0_policy m) = 2 → u.entry.value = e.value ∧ u.entry.tag.toNat % 4 = 3 ∧
              (SMap.find s.image.forces m = none →
                SMap.find t.image.loss m = some (s.act (F.SLOT_POL_0_brake_src m)))))

/-- O11. The release instant of turn m fires once (R35): what is held for it or for an earlier turn is released and leaves
the queue, what is held for a later turn stays, and the next instant is that of m + 1. A latch that no released
result names keeps its contents (R41). Where mill-bus results are held for buffers that exist, the watchdog is
armed again on a LONE module (R118).
Each of these completes here: releaseInstant. -/
def Obligations.ReleaseInstantReleases : Prop :=
  ∀ s : State, s.rd F.TURN_STATUS_running = 1 → s.pd .skein = true → s.turn.nextRel ≤ s.turn.k →
    (s.replaying = true → s.turn.nextRel < s.turn.cutoffs) →
    Does .releaseInstant s (fun t =>
      t.turn.nextRel = s.turn.nextRel + 1 ∧ t.turn.k = s.turn.k ∧ t.turn.origin = s.turn.origin ∧
        t.turn.held = s.turn.held.filter (fun h => decide (s.turn.nextRel < h.turn)) ∧
        (∀ n, (∀ h ∈ s.turn.held, h.turn ≤ s.turn.nextRel → ∀ e ∈ h.slots, e.1 ≠ n) →
          SMap.find t.turn.latches n = SMap.find s.turn.latches n) ∧
        (∀ h n v, s.turn.held.filter (fun h => decide (h.turn ≤ s.turn.nextRel)) = [h] → h.slots = [(n, v)] →
          (∀ l, SMap.find s.turn.latches n = some l → l.sample ≤ h.sample) →
          SMap.find t.turn.latches n = some ⟨v, h.sample⟩) ∧
        (s.plyState = 1 → s.tasks.overrunNext = none → (∀ h ∈ s.turn.held, ∀ e ∈ h.mill, e.1 < 128) →
          t.rd F.TURN_WDOG_armed = 1))

/-- O12. Where no slip fell in a regulation interval and a slack was recorded, the regulator raises the core supply by
10 mV, at most to 850, below the target, lowers it by 5 mV, at least to 600, above the target plus the band, and
else leaves it; without a slack, or after a slip, it makes no change (R40). No other unit changes.
Each of these completes here: regulationIntervalEnd.
While PD_BINS is on, SLACK_CLEAR.clear_min sets every least slack to 0xFFFF_FFFF and clear_slips every slip count
and last-slipped bit to 0 (R47), and nothing else.
Each of these completes here: slackClearMin, slackClearSlips. -/
def Obligations.SlackRegulatedAndCleared : Prop :=
  RegulatorFollowsSlack ∧ SlackClears

/-- O13. A wedge is a self-diagnosed fault (R45): the first after a cold start is recorded with its class, its unit and the
turn, and one of a later step leaves the record (R46, R48). The active or lone module abdicates with cause 1 (R285); a
standby leaves tracking with reason 9 (R281).
Each of these completes here: stageWedged.
A residue mismatch in a wheel is a self-diagnosed fault (R44): the result is not used, it is not tried again, and
the fault is recorded against the wheel where none was recorded before.
Each of these completes here: loopEvaluationDone.
The wheel deadline of a turn passes once (R34). A wheel group with evaluations of the deadline's sample outstanding
slips: its count rises, its slack is 0, the core supply goes to 0.85 V (R38, R40, R41); a group with none keeps its
count. No evaluation is discarded.
Each of these completes here: wheelDeadline. -/
def Obligations.FaultsAndSlips : Prop :=
  WedgeRecordedAndRoleGivenUp ∧ WheelResidueMismatch ∧ WheelDeadlineSlips

/-- O14. Host writes whose boundary has come are taken, the rest wait on (R68): a signal write gives its slot, where that is
of kind 3, its value with quality GOOD and age 0, and a LOOP_WRITE joins its loop's requests from its boundary on
(R58). No register changes.
Each of these completes here: hostWriteTaken.
An acknowledged force order whose boundary has come takes effect and is done with; any other order waits (R64). A
forced slot reads as the forced value, GOOD and FORCED, whatever lies below (R62), and an unforced one as what lies
below, which no force changes (R65).
Each of these completes here: forceApply.
A host read of an aligned word that the HOST unit lets pass returns the register's word and captures the higher
words it holds then, which is what a read of a higher word returns until the next capture (R365); no register changes.
The four words that lock and release the mill-bus read window are told with that window (R374). A read that is no
aligned word ends with completer abort (R319), and so does one that the unit refuses (R399, R404).
Each of these completes here: lowWordRead. -/
def Obligations.ImageWrittenForcedAndRead : Prop :=
  HostWritesTaken ∧ ForcesApply ∧ LowWordReadCaptures

/-- O15. Every evaluation that is the next on its wheel (R170) completes, whatever the loop's settings, mode, view and state: it
is no longer outstanding, the loop has started and has evaluated sample k, and no loop but it and its pair's other
loop changes. An unpaired loop's output waits for its release instant (R35) and enters its slot in the image with age
0, unless a later writer bars it (R54, R158); the first of a pair commits nothing (R189).
Each of these completes here: loopEvaluationDone.
The law of an unpaired loop: in AUTO at an unfrozen, unbraked sample, without feedforward, ramp or rate limit, R180 to
R183 give its integrator, derivative and output, and the output enters its slot in the image GOOD and CLAMPED where a
limit acts (R54, R183).
Each of these completes here: loopEvaluationDone. -/
def Obligations.LoopEvaluationFollowsTheLaw : Prop :=
  LoopEvaluationCompletes ∧ LoopEvaluationLaw

/-- O16. A ply frame whose seal fails, or whose type is not in the type table, is counted and has no other effect, and one that
repeats its alive counter has none at all (R271, R81), whatever it carries.
Mirrored host writes wait on a standby for the boundary they carry (R68, R312), and a snapshot of a receive buffer
becomes what MBR reads there, newer than the last one whether its words changed or not (R133).
Each of these completes here: hostWriteReceived, millSnapReceived. -/
def Obligations.PlyFramesRefusedAndMirrorsTaken : Prop :=
  PlyFramesRefused ∧ MirrorsTaken

/-- O17. An own order that no ACK reached by 100 µs before its boundary is abandoned (R512), as an ACK that refuses it
abandons it, and no other order goes with it: a force order's commands complete with PLY (R64), a time switch is not
carried out (R258), a commit is abandoned (R356). An ACK that accepts it marks it and the command that sent it, and
changes no setting. Where no own order waits under the number, the timeout has no effect.
Each of these completes here: orderAckTimeout, ackReceived. -/
def Obligations.OrdersAcknowledgedOrAbandoned : Prop :=
  ∀ (s : State) (o : Order), o ∈ s.ply.orders → o.mine = true → o.acked = false → o.boundary ≠ 0 → o.seq < 2 ^ 16 →
    o.code < 2 ^ 16 → (∀ x ∈ s.ply.orders, x.mine = true → x.seq = o.seq → x = o) → s.host.millerUp = true →
    let named := fun (x : Order) => x.mine && x.code == o.code && x.seq == o.seq
    let gone := fun (t : State) => t.ply.orders = s.ply.orders.filter (fun x => !named x) ∧
      t.hop.active = s.hop.active ∧ t.image = s.image ∧
      (o.code = 4 → t.time.switchAt = none) ∧ (o.code = 1 → t.hop.armed = none) ∧
      (o.code = 2 → ∀ m ∈ t.host.outstanding, m.op = 0x30 ∨ m.op = 0x31 → m.order ≠ some o.seq)
    Does (.orderAckTimeout (BitVec.ofNat 16 o.seq)) s gone ∧
      (∀ q : BitVec 16, (∀ x ∈ s.ply.orders, x.mine = true → x.seq ≠ q.toNat) →
        Does (.orderAckTimeout q) s (fun t => t = s)) ∧
      ∀ h, Taken s 0x49 h →
        Does (.ackReceived h (BitVec.ofNat 16 o.code) (BitVec.ofNat 16 o.seq) true) s gone ∧
        Does (.ackReceived h (BitVec.ofNat 16 o.code) (BitVec.ofNat 16 o.seq) false) s (fun t =>
          t.ply.orders = s.ply.orders.map (fun x => if named x then { x with acked := true } else x) ∧
            t.regs = s.regs ∧ t.image = s.image ∧ t.hop.active = s.hop.active ∧
            (o.code = 2 → ∀ m ∈ t.host.outstanding, m.op = 0x30 → m.order = some o.seq → m.acked = true))

/-- O18. A standby follows its partner's orders in time (R512): a force order is kept to its boundary and acknowledged (R64),
a key position is named for the boundary (R122), a time switch is carried out there and the active's captured O is
taken in place of the own one (R258), and an overrun stop starts at the release it names (R116). A module that does
not track follows a key position too, and one that starts follows none.
Each of these completes here: orderReceived. -/
def Obligations.OrdersFollowed : Prop :=
  ∀ (s : State) (h : PlyHdr) (o : OrderMsg), Taken s 0x48 h → s.turn.k < o.boundary.toNat →
    s.time.work + 100000 * 2 ^ 32 ≤ s.boundaryU o.boundary.toNat →
    (s.plyState = 4 →
      (∀ es, o.content = .force es → Does (.orderReceived h o) s (fun t =>
        t.ply.orders = s.ply.orders ++ [⟨false, 2, o.seq.toNat, o.boundary.toNat, .force es, true⟩] ∧
          t.image = s.image ∧ t.regs = s.regs)) ∧
      (∀ pos, o.content = .key pos → Does (.orderReceived h o) s (fun t =>
        t.tasks = { s.tasks with keyNext := some (o.boundary.toNat, pos.toNat) } ∧ t.regs = s.regs)) ∧
      (∀ capture, o.content = .timeSwitch capture → Does (.orderReceived h o) s (fun t =>
        t.time = { s.time with switchAt := some (o.boundary.toNat, capture) } ∧ t.regs = s.regs)) ∧
      (∀ given own, o.content = .captured given → s.time.carried = some own → Does (.orderReceived h o) s (fun t =>
        t.time.carry = s.time.carry + given - own ∧ t.time.carried = none ∧ t.time.work = s.time.work ∧
          t.image = s.image)) ∧
      (∀ task trap, o.content = .overrunStop task trap → s.turn.nextRel ≤ o.boundary.toNat →
        Does (.orderReceived h o) s (fun t => t.tasks.overrunNext = some (o.boundary.toNat, task.val, trap) ∧
          t.regs = s.regs))) ∧
    (s.plyState = 5 → ∀ pos, o.content = .key pos → Does (.orderReceived h o) s (fun t =>
      t.tasks.keyNext = some (o.boundary.toNat, pos.toNat) ∧ t.ply.orders = s.ply.orders ∧ t.regs = s.regs)) ∧
    (s.plyState = 0 → ∀ pos, o.content = .key pos → Does (.orderReceived h o) s (fun t =>
      t.tasks = s.tasks ∧ t.ply.orders = s.ply.orders ∧ t.regs = s.regs))

/-- O19. A task that is enabled, at a due boundary, with the key not at STOP and no overrun stop, starts (R113): it may start
instances from that boundary on, the first with FIRST, its run of slips is 0 (R43), and tasks run (R126). No other task
and no other register changes.
Each of these completes here: taskStart.
At the end of its copy an instance runs: its strands, as many as the program declares, start with registers and flags
0 (R105, R127), each in its queue or on its spindle (R106). At the end of its commit an instance in time leaves the
task: its data and its output slots take what it wrote and keep the rest (R54, R131), its results wait for their
release (R35, R36), its count rises (R126) and its slack is recorded without a slip (R38, R41).
Each of these completes here: taskInputCopyDone, taskCommitDone. -/
def Obligations.TasksStartRunAndCommit : Prop :=
  TasksStart ∧ InstancesRunAndCommit

/-- O20. An overrun is judged once (R115): the active whose standby ended the same instance in time abdicates with cause 2 and
marks the overrun local; otherwise both enter overrun stop, which ORDER 5 names, and so does a lone module (R116). A
standby whose active did not overrun leaves tracking with reason 6, and one whose active did waits for its ORDER 5.
Each of these completes here: overrunDecision.
A trap is judged once (R143): the active whose standby completed the same instance abdicates with cause 3 and shows
the trap as local; a lone module takes the program's trap action (R144): STOP is an overrun stop, HALT holds the task
in the trapped state, and so does a module that does not track. A standby that alone trapped leaves tracking with
reason 7.
Each of these completes here: trapDecision. -/
def Obligations.OverrunsAndTrapsAreJudged : Prop :=
  OverrunsAreJudged ∧ TrapsAreJudged

/-- O21. The turn watchdog, armed and not yet tripped, trips (R118, R119): row 18 asserts and every Skein port is braked, the
trip is counted, and the module gives up its role, an active one with cause 4 and a standby with reason 10.
Each of these completes here: turnWatchdogTrip.
A flush of the retained variables overwrites the older MRAM copy and leaves the other as it is (R111): it marks the
copy bad, gives it the next serial and, per task, the program identity with the retained words as last committed;
its end marks the copy good, or leaves it bad and shows the error; after a lost input PD_BINS turns off then (R315). The command of RETAIN_CTRL asks for one more.
Each of these completes here: retainFlushStart, retainFlushDone, retainFlushNow. -/
def Obligations.WatchdogBrakesAndRetainedFlush : Prop :=
  TurnWatchdogBrakes ∧ RetainedVariablesFlush

/-- O22. A valid key code is the local position it stands for: 00 LOCK, 01 RUN, 11 TEND, 10 STOP as B and A (R120); a code
that is not valid leaves the local position, and once it lasts makes it LOCK (R121). A lone, starting or abdicated
module names its new position for a boundary at least 2 turns ahead (R122). A standby whose position differs from its partner's reports
it.
Each of these completes here: keyPositionTaken, keyInvalidLock, keyDisagree.
The effective position changes at the boundary named for it and not before (R122). In STOP no task starts an
instance and outputs brake from the next release (R125); leaving STOP ends rows 16 and 17 (R117), forgets the
overrun, releases trapped tasks (R144) and lets tasks start again.
Each of these completes here: keyEffectiveChange. -/
def Obligations.KeySwitch : Prop :=
  KeyPositionsTaken ∧ KeyTakesEffect

/-- O23. The verification of a staged program ends once, while the miller runs (R148, R24): a program that the load's tests
pass is staged and verified, one that they refuse shows the refusal's code, and the load command that waits completes;
the active image stays. A copy past the limits of the store is not kept (R149). An on-line change carries a task over
at its switch (R159, R160): until the carry's end the old data counts; then a word of a variable that both layouts hold
under one key and type keeps its bits, every other word takes its initial value, the task's pending bit falls, an extra
flush is asked for (R164) and the input view copy begins.
Each of these completes here: progVerifyDone, onlineCarry, onlineCarryDone. -/
def Obligations.ProgramsVerifiedAndCarried : Prop :=
  ∀ (s : State),
    (∀ (slot : Fin 16) (b : Bytes), slot.val ∈ s.progs.verifying → SMap.find s.progs.staged slot.val = some b →
      s.host.millerUp = true → let verdict := progVerify (s.act F.HOPPER_LEVEL_level) (s.progSpaceBad slot.val b) b
      Does (.progVerifyDone slot) s (fun u =>
        slot.val ∉ u.progs.verifying ∧ u.progs.active = s.progs.active ∧
          (s.progSpaceBad slot.val b = false → u.progs.staged = s.progs.staged) ∧
          (verdict = none → u.progs.staged = s.progs.staged ∧
            u.rd (F.PROG_STATUS_staged slot.val) = 2 ∧ u.rd (F.PROG_STATUS_refusal slot.val) = 0) ∧
          (∀ f, verdict = some f → u.rd (F.PROG_STATUS_staged slot.val) = 3 ∧
            (s.progSpaceBad slot.val b = true → SMap.find u.progs.staged slot.val = none) ∧
            u.rd (F.PROG_STATUS_refusal slot.val) = f.1 % 2 ^ (F.PROG_STATUS_refusal slot.val).width) ∧
          ∀ m ∈ u.host.outstanding, m.op = 0x50 → opByte m.cmd 24 ≠ slot.val)) ∧
    ∀ (t : Fin 16) (i : TaskInst) (b : Nat) (old : Bytes), (s.task t.val).inst = some i → i.phase = .carry →
      (s.task t.val).switchAt = some b → (s.task t.val).oldProg = some old → progIdent old ≠ progIdent i.prog →
      (∀ words : List (Fin 65536), Does (.onlineCarry t words) s (fun u =>
        u.task t.val = { s.task t.val with inst := some { i with carry := some (words.map (·.val)) } } ∧
          (∀ n, n ≠ t.val → u.task n = s.task n) ∧ u = { s with tasks := u.tasks })) ∧
      (i.carry = some [] → Does (.onlineCarryDone t) s (fun u =>
        (∀ a o, Gives (carryWords old i.prog) a o →
          dataWord i.prog (u.task t.val).data a = dataWord old (s.task t.val).data o) ∧
          (∀ a, Lacks (carryWords old i.prog) a → dataWord i.prog (u.task t.val).data a = progInit i.prog a) ∧
          (u.task t.val).switchAt = none ∧ (u.task t.val).oldProg = none ∧
          (u.task t.val).inst = some { i with phase := .copying, carry := none, view := s.viewSlots i.prog,
                                              nodes := s.viewNodes i.prog } ∧
          bitOf (u.rd F.ONLINE_PENDING_pending) t.val = false ∧ u.rd (F.ONLINE_CARRY_valid t.val) = 1 ∧
          u.tasks.flushWanted = true ∧ RegsIn [.online] s u))

/-- O24. Every INPUT frame of the present turn that arrives before the cut-off and is no repeat counts, whatever its station's
state (R33, R81): its missed count is 0 and it is received directly (R99). Where its station is UP, each slot mapped to
a sample of the frame takes that sample, GOOD, with age 0 and no slot-loss source (R53, R57); where it is not, no slot
changes. No slot of another station, no force and no latch changes.
Each of these completes here: inputFrameReceived.
An INPUT frame that is not to be used leaves the image as it is (R33, R80, R81): one whose seal fails is counted as
such with event bit 5, one of a turn that has passed or after the cut-off as late with event bit 6, and a repeated
one as repeated (R102). -/
def Obligations.InputFramesJudged : Prop :=
  InputFramesCount ∧ InputFramesNotUsed

/-- O25. The states of links, chains and stations (R96, R98, R101): a lane that completes training on an enabled port makes its
link UP, one that trains again or goes down shows so with event bit 9; two turns without the far end's mark break a chain with bit
3, marks in 16 turns make it intact with bit 4; a station silent for its hold-off is LOST with bit 1, one that sends
nothing while joining goes back. An event bit that goes from 0 to 1 while enabled is recorded as raised (R335).
Each of these completes here: skeinLinkChange, chainBroken, chainIntact, stationLost, joiningTimeout,
budgetComparison, skClearCnt.
A JOIN record that names a present position and fits its map entry and its port's budget makes the position JOINING
and owes it an answer; one that does not fit makes it a MISMATCH with event bit 2; each shows the identity it carries
(R89, R95, R96). The active answers, and later repeats, with the station's SETUP frame, at most one per port and turn
(R88), whose record gives the position, the number of stations and the sample counts (R90, R93).
Each of these completes here: joinFrameReceived, setupRecordRepeat, joinAnswer. -/
def Obligations.SkeinLinksAndStations : Prop :=
  SkeinStatesChange ∧ StationsJoin

/-- O26. Marks and echoes (R90, R98): the far end's mark is seen, and while the chain is not broken its delay is shown; an
answer to an outstanding request renews the mean of the last 16 round trips and ends that request. Nothing of the
image or of the turn changes.
Each of these completes here: turnMarkReceived, echoRspReceived.
A standby serves a station two turns after the active first lacked it, and stops once the active reaches it again
(R100). A frame of the partner that crossed the chain tells a module that is not active the partner's epoch (R87,
R279). A frame of the partner that is not marked shadow, with a later epoch, makes the active abdicate with cause 5
(R285, R292); of its own epoch it makes the home module raise the epoch at its next release.
Each of these completes here: proxyStart, proxyStop, partnerFrameCrossed, partnerFrameNotShadow. -/
def Obligations.SkeinDelaysAndPartner : Prop :=
  SkeinDelaysMeasured ∧ PartnerOnTheSkein

/-- O27. An idle or finished trace group is armed for the next boundary, its channels empty, unless a test of R215 refuses it,
which leaves it IDLE with the reason shown; a stop leaves any group IDLE; a force marks an armed capture group (R214,
R216). A capture record that waits goes to the group's trace ring once there is room: its header and 512 bytes of
zeros, numbered (R340); with the ring off it is dropped. No trace command writes a sample.
Each of these completes here: traceArm, traceStop, traceForce, traceCaptureRecord. -/
def Obligations.TraceGroupsArmStopAndRecord : Prop :=
  ∀ (s : State) (g : Fin 8),
    let ring := s.rd (F.TRACE_TRIG_ring g.val)
    let n := SMap.getD s.host.trcWritten ring 0
    let addr := s.hostAddr (0x2100 + 16 * ring) + n % s.trcSize ring * 576
    (s.pd .bins = true → s.grpState g.val ∉ [1, 2] → Does (.traceArm g) s (fun t =>
      RegsIn [.trace] s t ∧ t.mem = s.mem ∧
        (s.armErr g.val = 0 → t.grpState g.val = 1 ∧ (t.grp g.val).armTurn = s.turn.k + 1 ∧ (t.grp g.val).trig = none ∧
          (∀ ch ∈ s.grpChans g.val, t.chan ch = TraceChan.empty ∧ t.rd (F.TRACE_STATUS_ecc ch) = 0) ∧
          (∀ ch, ch ∉ s.grpChans g.val → t.chan ch = s.chan ch)) ∧
        (s.armErr g.val ≠ 0 → t.grpState g.val = 0 ∧ t.rd (F.TRACE_GSTAT_arm_err g.val) = s.armErr g.val ∧
          t.trace.chan = s.trace.chan))) ∧
    (s.pd .bins = true → Does (.traceStop g) s (fun t =>
      t.grpState g.val = 0 ∧ t.grp g.val = TraceGroup.idle ∧ t.trace.chan = s.trace.chan ∧ RegsIn [.trace] s t ∧
        t.mem = s.mem)) ∧
    (s.pd .bins = true → s.grpState g.val = 1 → s.rd (F.TRACE_TRIG_stream g.val) = 0 → Does (.traceForce g) s (fun t =>
      (t.grp g.val).forced = true ∧ (t.grp g.val).armTurn = (s.grp g.val).armTurn ∧ t.regs = s.regs ∧
        t.trace.chan = s.trace.chan ∧ t.mem = s.mem)) ∧
    ((s.grp g.val).recordWaits = true →
      (s.rd (F.TRR_CTRL_enable ring) = 0 → Does (.traceCaptureRecord g) s (fun t =>
        (t.grp g.val).recordWaits = false ∧ t = { s with trace := t.trace })) ∧
      (s.trcRoom ring = true → (s.acAccess 3 1 5 addr 576).2 = true → Does (.traceCaptureRecord g) s (fun t =>
        (t.grp g.val).recordWaits = false ∧ SMap.find t.host.trcWritten ring = some (n + 1) ∧
          ∃ head : Bytes, head.length = 64 ∧ byteAt head 0 = 1 ∧ byteAt head 1 = g.val ∧ leAt head 4 4 = (n + 1) % 2 ^ 32 ∧
            leAt head 8 8 = ((s.grp g.val).trig.getD 0) % 2 ^ 64 ∧ byteAt head 63 = bit (n / s.trcSize ring % 2 == 0) ∧
            Out.host addr (head ++ List.replicate 512 0) ∈ t.out)) ∧
      (s.rd (F.TRR_CTRL_enable ring) = 1 → s.trcRoom ring = false → exec (.traceCaptureRecord g) s = .next s))

/-- O28. The recorder (R413 to R422): a manual trigger is raised as trigger 63, or counted within its holdoff; at the boundary
every raise leaves the list, and one that is not a last-gasp trigger has its snapshot queued last; the head of the
queue is written to the log at the pointer, sealed and chained to the record before it, and the pointer advances;
where the log has no room for it, it counts as lost. A holdoff ends for its trigger alone.
Each of these completes here: recManual, recSnapshot, recRecordWritten, recHoldoffEnd. -/
def Obligations.RecorderTakesAndWrites : Prop :=
  ∀ s : State, s.pd .miller = true →
    (s.act F.REC_CTRL_enable = 1 → Does .recManual s (fun t =>
      (63 ∉ s.recorder.holdoff → t.recorder.raised = s.recorder.raised ++ [⟨63, 0xFF, 0, 0, s.turn.k, s.workWord⟩] ∧
        (s.act (F.REC_TRIG_holdoff_ms 63) ≠ 0 → 63 ∈ t.recorder.holdoff)) ∧
      (63 ∈ s.recorder.holdoff → t.recorder.raised = s.recorder.raised ∧
        SMap.find t.recorder.heldOff 63 = some (SMap.getD s.recorder.heldOff 63 0 + 1)) ∧
      t = { s with recorder := t.recorder })) ∧
    (∀ r : RecRaise, s.recorder.raised = [r] → r.trigger < 56 → s.rd F.REC_STATUS_full = 0 → s.recorder.queue.length < 16 →
      Does .recSnapshot s (fun t =>
        t.recorder.raised = [] ∧ t.recorder.queue = s.recorder.queue ++ [⟨r.trigger, s.recBody r s.turn.k⟩] ∧
          t.rd F.REC_STATUS_queued = s.recorder.queue.length + 1 ∧ t.recorder.records = s.recorder.records ∧
          SMap.find t.recorder.heldOff r.trigger = none ∧ RegsIn [.log] s t)) ∧
    (∀ e q, s.recorder.queue = e :: q → ¬(56 ≤ e.trigger ∧ e.trigger ≤ 58) →
      let p := s.rd F.REC_STATUS_pointer
      let b := recordBytes e p (if p = 0 then 0 else s.rd F.REC_LAST_SEAL_seal)
      Does .recRecordWritten s (fun t =>
        t.recorder.queue = q ∧
          (p < 4088 → t.recorder.records = SMap.put s.recorder.records p b ∧ t.rd F.REC_STATUS_pointer = p + 1 ∧
            t.rd F.REC_LAST_SEAL_seal = leNat (b.drop 1020) % 2 ^ 32 ∧
            (p = 4087 → t.rd F.REC_STATUS_full = 1) ∧ t.rd F.REC_LOST_count = s.rd F.REC_LOST_count) ∧
          (4088 ≤ p → t.recorder.records = s.recorder.records ∧ t.rd F.REC_STATUS_pointer = p ∧
            t.rd F.REC_LOST_count = min (s.rd F.REC_LOST_count + 1) (2 ^ F.REC_LOST_count.width - 1)))) ∧
    (∀ n : Fin 64, Does (.recHoldoffEnd n) s (fun t => t = { s with recorder :=
      { s.recorder with holdoff := s.recorder.holdoff.erase n.val } }))

/-- O29. A BEACON of another position is forwarded, and shows the member's role, load, and the way it came (R224, R225): the
position comes UP with event bit 5, or is in CLASH with bit 7 where another identity was UP there; the module's own
BEACON, come back round the ring, brings its own position UP. A member unheard for 50 µs becomes SILENT with bit 6, and
a clash that has cleared is UP. The module's BEACON goes out of both ports with its identity, role and load.
Each of these completes here: beaconReceived, memberSilent, clashCleared, beaconSend.
Links and bypass (R232 to R235): an open bypass has both ports training, joins the ring anew and counts as a change of
topology; a port whose training ends is UP with new alive counts, and one that loses its link trains or is down, with
event bit 0 or 1. A publication's part that arrives is forwarded and held, with its entries (R224, R227); the
publications composed go out of both ports at the launch instant, 512 ns after their own, and not before, marked shadow
but for the active's (R226).
Each of these completes here: bypassOpen, ringLinkChange, publishReceived, publicationLaunch. -/
def Obligations.RingMembersAndPublications : Prop :=
  RingMembersHeard ∧ RingPortsAndPublications

/-- O30. Ring measurement (R247 to R250) and the oscillator (R240). Marks go out with the low eight bits of LOCAL in
microseconds; only those of a multiple of 16 are stamped, at launch and at arrival, so many 1/256 ns into the tick
(log 10). A report goes out of both ports
with the stamps held; one from a member that is UP is forwarded and entered, hops that end at no member are dropped,
and the closure and the least number of pairs are shown. An entry that expires leaves the pairs as they are. A lost
reference sets its bit, and every followed domain that was LOCKED goes to HOLDOVER.
Each of these completes here: hopMarkSend, hopMarkReceived, hopReportSend, hopReportReceived, hopEntryExpired,
refclkLost, refclkRestored. -/
def Obligations.RingMeasurement : Prop :=
  ∀ (s : State) (east : Bool), s.pd .time = true →
    (s.rd F.RING_STATUS_bypass = 0 → s.ringUp east = true →
      let q := s.localUs % 256
      ∀ sub : Fin 820, Does (.hopMarkSend east sub) s (fun t => t.out = s.out ++ [.ringBlock east 0x20 q 0] ∧ t.regs = s.regs ∧
        (if east then t.time.sentEast else t.time.sentWest) =
          (if q % 16 = 0 then some (q, s.localStamp + sub.val) else if east then s.time.sentEast else s.time.sentWest)) ∧
      ∀ seq : BitVec 8, Does (.hopMarkReceived east seq sub) s (fun t => t = { s with time := t.time } ∧
        (if east then t.time.markEast else t.time.markWest) = (if seq.toNat % 16 = 0 then some (seq.toNat, s.localStamp + sub.val)
          else if east then s.time.markEast else s.time.markWest))) ∧
    (s.rd F.RING_STATUS_bypass = 0 → Does .hopReportSend s (fun t =>
      (∀ e, s.ringUp e = true → Out.ring e (ringFrame 0x20 s.position (s.ringFlags s.isStandby s.isActive)
        (SMap.getD s.ring.txAlive 0x20 0) 0 0 s.time.work 0 s.hopReport) ∈ t.out) ∧
      t.rd F.CAL_CLOSURE_a = toBits 32 t.time.closureA % 2 ^ 32 ∧ t.image = s.image)) ∧
    (∀ frame : Bytes, RingTaken s east 0x20 frame → s.memberState (byteAt frame 1 % 16) = 1 →
      Does (.hopReportReceived east false frame) s (fun t => Forwarded s t east frame ∧ t.image = s.image ∧
        (∀ e ∈ t.time.hops, e.1 ∈ t.loopMembers) ∧ t.rd F.CAL_CLOSURE_a = toBits 32 t.time.closureA % 2 ^ 32 ∧
        t.rd F.CAL_STATUS_pairs = t.loopHops.foldl (fun a e => min a e.2.pairs) 64)) ∧
    (∀ (pos : Fin 16) (back launch : Bool) (h : RingHop), SMap.find s.time.hops pos.val = some h →
      Does (.hopEntryExpired pos back launch) s (fun t => ∃ u, SMap.find t.time.hops pos.val = some u ∧ u.fwd = h.fwd ∧
        u.back = h.back ∧ t = { s with time := { s.time with hops := t.time.hops } } ∧
        u.fwdLaunch = (if !back && launch then h.fwdLaunch.drop 1 else h.fwdLaunch) ∧
        u.fwdArrive = (if !back && !launch then h.fwdArrive.drop 1 else h.fwdArrive) ∧
        u.backLaunch = (if back && launch then h.backLaunch.drop 1 else h.backLaunch) ∧
        u.backArrive = (if back && !launch then h.backArrive.drop 1 else h.backArrive))) ∧
    (s.rd F.TIME_STATUS_refclk_lost = 0 → Does .refclkLost s (fun t => t.rd F.TIME_STATUS_refclk_lost = 1 ∧
      t.time.intOsc = true ∧ TimeRaised t 20 ∧
        ∀ d, s.domRole d ≠ 1 → s.domState d = 2 → t.domState d = 3 ∧ (t.dom d).corr = 0)) ∧
    Does .refclkRestored s (fun t => t.rd F.TIME_STATUS_refclk_lost = 0 ∧ RegsIn [.time] s t ∧
      t = { s with regs := t.regs, time := { s.time with intOsc := false } })

/-- O31. A domain and its master (R241 to R244, R246): the elected master orders a start, or carries on LOCKED where the
domain is valid. A start, on an enabled PPS edge or 1.1 s after its order, gives whole seconds and a new generation. A
new increment, or a slew, is announced for 64 µs later and refused outside its range; from its tick on it is in force,
and a slew that ends returns the increment before it. The master tells each of these in a DOMAIN frame; a follower's
registers read the increment in force.
Each of these completes here: masterElection, timeRestart, domainStart, incWrite, slewTicksWrite, domainFrameSend,
incApply, slewEnd. -/
def Obligations.DomainMasterRuns : Prop :=
  ∀ (s : State) (d : Domain), s.pd .time = true →
    let x := s.dom d
    let i := domNum d
    let announced := fun (n : Option NextInc) (t : State) => (t.dom d).next = n ∧ (t.dom d).inc = x.inc ∧ RingSent s t 0x21
    let refused := fun (t : State) => TimeRaised t 23 ∧ t.time = s.time
    (s.candidate d = true → s.domRole d ≠ 1 → Does (.masterElection d) s (fun t => t.domRole d = 1 ∧
      (s.domValid d = true → t.domState d = 2 ∧ (t.dom d).corr = 0 ∧ t.rd (F.DOM_ERR_err i) = 0) ∧
      (s.domValid d = false → t.domState d = s.domState d ∧ (t.dom d).startOrdered = true ∧
        (t.dom d).restart = false ∧ (t.dom d).orderedAt = s.time.ticks))) ∧
    (s.domRole d = 1 →
      (s.key = 2 ∨ s.key = 3 → Does (.timeRestart d) s (fun t => t.regs = s.regs ∧
        t.dom d = { x with startOrdered := true, restart := true, orderedAt := s.time.ticks })) ∧
      (x.startOrdered = true → x.orderedAt + 343750000 ≤ s.time.ticks ∨
          (s.act (if isB d then F.TIME_MASTER_pps_b_en else F.TIME_MASTER_pps_a_en) = 1 ∧ x.lastEdge = some s.time.ticks) →
        Does (.domainStart d) s (fun t =>
        (t.dom d).running = true ∧ (t.dom d).next = none ∧ (t.dom d).startOrdered = false ∧ (t.dom d).slew = false ∧
          (x.slew = false → x.next = none → (t.dom d).inc = x.inc) ∧
          (t.dom d).value = (if x.restart then s.rd F.START_SEC_HI_sec * 2 ^ 32 + s.rd F.START_SEC_LO_sec
            else s.time.calendar + 1) * unitSec ∧
          t.domGen d = (s.domGen d + 1) % 256 ∧ t.domState d = 2 ∧ t.rd (F.DOM_ERR_err i) = 0 ∧ RingSent s t 0x21)) ∧
      (∀ v : Word32,
        let inc := v.toNat % 256 * 2 ^ 32 + s.rd (F.INC_LO_frac i)
        Does (.incWrite d v) s (fun t =>
          (incOk inc = true → announced (some ⟨inc, s.time.ticks + 20000, 0⟩) t ∧ t.rd (F.INC_HI_ns i) = v.toNat % 256) ∧
            (incOk inc = false → refused t))) ∧
      (∀ n : Word32,
        let inc := s.rd (F.SLEW_INC_HI_inc i) * 2 ^ 32 + s.rd (F.SLEW_INC_LO_inc i)
        Does (.slewTicksWrite d n) s (fun t =>
          (n.toNat = 0 → x.slew = false → ∀ e, x.next = some e → e.ticks ≠ 0 → announced none t) ∧
          (n.toNat = 0 → x.slew = true → announced (some ⟨x.slewBase, s.time.ticks + 20000, 0⟩) t) ∧
          (n.toNat ≠ 0 → incOk inc = true → announced (some ⟨inc, s.time.ticks + 20000, n.toNat⟩) t) ∧
          (n.toNat ≠ 0 → incOk inc = false → refused t))) ∧
      Does (.domainFrameSend d) s (fun t => RingSent s t 0x21 ∧
        t = { s with ring := t.ring, fresh := t.fresh, out := t.out })) ∧
    let told := fun (t : State) (inc : Nat) => (s.domRole d = 1 → t.regs = s.regs ∧ RingSent s t 0x21) ∧
      (s.domRole d ≠ 1 → inc < 2 ^ 40 → t.incRegs d = inc)
    (∀ e, x.next = some e →
      (s.time.ticks < e.atTick → Does (.incApply d) s (fun t => t = s)) ∧
      (e.atTick ≤ s.time.ticks → Does (.incApply d) s (fun t => told t e.inc ∧
        t.dom d = { x with inc := e.inc, next := none, slew := e.ticks != 0, slewLeft := e.ticks,
                           slewBase := if x.slew then x.slewBase else x.inc }))) ∧
    (x.slew = true → x.slewLeft = 0 → Does (.slewEnd d) s (fun t => told t x.slewBase ∧
      t.dom d = { x with inc := x.slewBase, slew := false }))

/-- O32. A follower (R251, R252): a DOMAIN frame gives it the master's generation and increment; in INVALID it takes the
frame's estimate and is ACQUIRING; a LOCKED replica within 1 ns of it is steered over 5,000 ticks, and one further
off, or of a new generation, is set and ACQUIRING. HOLDOVER keeps the increment with no correction, and its end makes
the domain INVALID. PPS edges are captured in the domain's and in working time and counted, and one within 0.9 s of
the last is ignored (R245); a snapshot takes
LOCAL, working time and both domains at once (R266).
Each of these completes here: domainFrameReceived, domainHoldover, holdExpired, ppsEdge, ppsLost, timeSnap. -/
def Obligations.DomainFollowersAndCaptures : Prop :=
  ∀ (s : State) (d : Domain), s.pd .time = true →
    let x := s.dom d
    let words := fun (t : State) (f : Nat → Fld) (w : Nat) => ∀ j < 4, t.rd (f j) = w / 2 ^ (32 * j) % 2 ^ 32
    let present := fun (t : State) => t.rd (if isB d then F.PPS_STATUS_present_b else F.PPS_STATUS_present_a)
    let count := fun (t : State) => t.rd (if isB d then F.PPS_STATUS_count_b else F.PPS_STATUS_count_a)
    (∀ (east : Bool) (frame : Bytes), RingTaken s east 0x21 frame → byteAt frame 32 = domNum d → s.domRole d ≠ 1 →
      let p := (frame.drop 32).take 56
      let err : Int := (x.value : Int) - s.estimate p
      let set := fun (t : State) => (t.dom d).value = (s.estimate p).toNat ∧ (t.dom d).running = true ∧ t.domState d = 1
      Does (.domainFrameReceived east false frame) s (fun t =>
        Forwarded s t east frame ∧ t.domGen d = byteAt p 1 ∧ (t.dom d).inc = beAt p 28 5 ∧ t.incRegs d = beAt p 28 5 ∧
          t.domRole d = (if s.candidate d then 2 else 0) ∧ t.image = s.image ∧
          (s.domState d = 0 → bitOf (byteAt p 2) 0 = true → set t) ∧
          (s.domState d = 2 → byteAt p 1 = s.domGen d → err.natAbs ≤ unitNs → s.rd F.TIME_STATUS_cal = 2 →
            s.rd F.TIME_STATUS_refclk_lost = 0 → t.domState d = 2 ∧
            (t.dom d).value = x.value ∧ (t.dom d).corr = min (max (rdiv (-err) 5000) (-13744)) 13744 ∧
            (t.dom d).corrLeft = 5000) ∧
          (s.domState d = 2 → byteAt p 1 ≠ s.domGen d ∨ unitNs < err.natAbs → set t))) ∧
    (s.domRole d ≠ 1 → s.domState d = 2 → Does (.domainHoldover d) s (fun t => t.domState d = 3 ∧
      t.dom d = { x with corr := 0, corrLeft := 0, goodRun := 0 })) ∧
    (s.domState d = 3 → Does (.holdExpired d) s (fun t => t.domState d = 0 ∧ t.dom d = { x with running := false })) ∧
    (∀ (t0 : Nat) (sub : Fin 820), x.lastEdge = some t0 → t0 ≤ s.time.ticks → s.time.ticks < t0 + 281250000 →
      Does (.ppsEdge d sub) s (fun t => t = s)) ∧
    (∀ sub : Fin 820, (∀ t0, x.lastEdge = some t0 → t0 + 281250000 ≤ s.time.ticks) → Does (.ppsEdge d sub) s (fun t =>
      words t (F.PPS_CAP_word (domNum d)) (s.domWordAt d sub.val) ∧
        words t (F.PPS_WORK_word (domNum d)) (if s.time.workSet then timeWord 2 (s.time.work + sub.val * 2 ^ 24) else noTime) ∧
        present t = 1 ∧ count t = (count s + 1) % 256 ∧ (t.dom d).lastEdge = some s.time.ticks ∧
        TimeRaised t (2 + domNum d))) ∧
    (present s = 1 → Does (.ppsLost d) s (fun t => present t = 0 ∧ TimeRaised t (4 + domNum d) ∧ t.time = s.time)) ∧
    Does .timeSnap s (fun t => t.rd F.SNAP_LOCAL_LO_stamp = s.localStamp % 2 ^ 32 ∧
      t.rd F.SNAP_LOCAL_HI_stamp = s.localStamp / 2 ^ 32 % 2 ^ 32 ∧ words t F.SNAP_WORK_word s.workWord ∧
      words t F.SNAP_A_word (s.domWord .a) ∧ words t F.SNAP_B_word (s.domWord .b) ∧ RegsIn [.time] s t ∧ OnlyRegs s t)

/-- O33. Working time is set once, from what the partner gives, the followed domain, else the other, else, after the wait, the
calendar (R254); a named switch whose
boundary has come changes the followed domain and carries the difference, a capture the difference alone (R256, R257).
The standby's exchange with the active shows its difference, and the 64th in a row beyond 50 ps raises ply_diff (R259). PPS_OUT
rises and falls, an alarm fires at its instant, once or again by its period (R262, R263); a leap table that passes takes effect at
the next second, and the calendar keeps whole working seconds (R265).
Each of these completes here: workingTimeStart, slewDone, domainSwitch, timeXchgSend, timeXchgReceived,
plyTimeDiffExceeded, ppsOutPulse, ppsOutFall, alarmFire, leapApply, leapTableEffect, calendarWrite. -/
def Obligations.WorkingTimeAndCalendar : Prop :=
  ∀ s : State, s.pd .time = true →
    let sel : Domain := if s.act F.TIME_CTRL_sel = 1 then .b else .a
    let other : Domain := if s.act F.TIME_CTRL_sel = 1 then .a else .b
    let carried := fun (t : State) =>
      let o : Int := (t.time.followed.value : Int) - s.time.work
      t.time.carry = (if o.natAbs ≤ unit10ps then 0 else o) ∧ t.time.work = s.time.work ∧ t.time.switchAt = none
    (s.time.workSet = false →
      (s.rd F.PLY_STATUS_link = 2 → s.rd F.PLY_STATUS_partner_state ∈ [1, 2] → ∀ (w : Nat) (c : Int),
        Does (.workingTimeStart (some (w, c))) s (fun t => t.time.workSet = true ∧ t.time.work = w ∧ t.time.carry = c ∧
          t.time.followB = isB sel)) ∧
      Does (.workingTimeStart none) s (fun t =>
        (s.domState sel ≠ 0 → t.time.workSet = true ∧ t.time.work = (s.dom sel).value ∧ t.time.followB = isB sel) ∧
        (s.domState sel = 0 → s.domState other ≠ 0 → t.time.workSet = true ∧ t.time.work = (s.dom other).value ∧
          t.time.followB = isB other) ∧
        (s.domState sel = 0 → s.domState other = 0 →
          (s.act F.TIME_CTRL_wait_s * 312500000 ≤ s.time.ticks → t.time.workSet = true ∧
            t.time.work = s.time.calendar * unitSec ∧ t.time.followB = isB sel ∧ t.rd F.TIME_STATUS_work = 2) ∧
          (s.time.ticks < s.act F.TIME_CTRL_wait_s * 312500000 → t = s)))) ∧
    (s.time.slewOwed = true → Does .slewDone s (fun t => t.time = { s.time with slewOwed := false } ∧ TimeRaised t 7)) ∧
    (∀ b only, s.time.switchAt = some (b, only) → b ≤ s.turn.k → s.ply.orders = [] →
      Does .domainSwitch s (fun t => (only = true → t.time.followB = s.time.followB ∧ carried t ∧ TimeRaised t 6) ∧
        (only = false → t.time.followB = !s.time.followB ∧ t.rd F.TIME_STATUS_sel_now = bit (!s.time.followB) ∧
          t.time.carry = (let o : Int := (t.time.followed.value : Int) - s.time.work; if o.natAbs ≤ unit10ps then 0 else o) ∧
          TimeRaised t 6))) ∧
    (s.rd F.PLY_STATUS_link = 2 →
      let q := s.time.xchgSeq
      Does .timeXchgSend s (fun t => t = { s with out := s.out ++ [.plyBlock 0x31 q 0], time := { s.time with xchgSeq := (q + 1) % 256 } }) ∧
      (s.plyState = 4 → ∀ diff : Int, Does (.timeXchgReceived diff) s (fun t => t.rd F.PLY_TIME_DIFF_diff_ps = toBits 32 diff % 2 ^ 32 ∧
        t.time.xchgRun = (if 50 < diff.natAbs then s.time.xchgRun + 1 else 0) ∧
        (50 < diff.natAbs → s.time.xchgRun = 63 → TimeRaised t 21)))) ∧
    (1000 < (sextNat 32 (s.rd F.PLY_TIME_DIFF_diff_ps)).natAbs → s.rd F.PLY_TIME_DIFF_diff_ps ≠ 0x80000000 → s.plyState = 4 → Does .plyTimeDiffExceeded s (fun t =>
      t.rd F.PLY_STATUS_state = 5 ∧ t.rd F.PLY_REASON_untracked = 4)) ∧
    (s.rd F.PPS_OUT_CTRL_enable = 1 → s.rd F.PPS_OUT_CTRL_src = 0 → s.time.workSet = true → Does .ppsOutPulse s (fun t =>
      t = { s with out := s.out ++ [.pps true], time := { s.time with ppsOut := true } })) ∧
    (s.time.ppsOut = true → Does .ppsOutFall s (fun t =>
      t = { s with out := s.out ++ [.pps false], time := { s.time with ppsOut := false } })) ∧
    (∀ (a : Fin 8) (t0 : Nat), SMap.find s.time.alarms a.val = some t0 → s.rd (F.ALARM_CTRL_enable a.val) = 1 →
      let period := s.rd (F.ALARM_CTRL_period_us a.val)
      (s.time.work < t0 → Does (.alarmFire a) s (fun t => t = s)) ∧
      (t0 ≤ s.time.work → Does (.alarmFire a) s (fun t => TimeRaised t (12 + a.val) ∧ (∀ b ≠ a.val,
        SMap.find t.time.alarms b = SMap.find s.time.alarms b) ∧
        SMap.find t.time.alarms a.val = (if period = 0 then none else some (t0 + min 1000000 period * 1000 * unitNs))))) ∧
    Does .leapApply s (fun t =>
      (leapOk s.leapTable = true → t.rd F.LEAP_CTRL_leap_err = 0 ∧ t.time = { s.time with leapNext := some s.leapTable }) ∧
      (leapOk s.leapTable = false → t.rd F.LEAP_CTRL_leap_err = 1 ∧ t.time = s.time ∧ TimeRaised t 22)) ∧
    (∀ l, s.time.leapNext = some l → Does .leapTableEffect s (fun t =>
      t = { s with time := { s.time with leap := l, leapNext := none } })) ∧
    (s.time.workSet = true → s.pd .keep = true → Does .calendarWrite s (fun t =>
      t = { s with time := { s.time with calendar := s.workSec, calPart := 0 } }))

/-- O34. The table of R286: a standby takes over when the abdicate line is asserted (cause 1), when the third HEARTBEAT is
missed and the token is not active (2), or is silent with the other evidence (3); with the token active it leaves
tracking with reason 3, and without the evidence with 12; one whose own task has overrun brakes instead (R46). A token class that changes, or mill-bus heartbeats that
stop, are judged alike; an active whose partner is gone becomes LONE (R277), and fewer misses change nothing else. After a
takeover the stations whose results are complete get their catch-up frames (R290).
Each of these completes here: tokenClassChange, abdicateLineAsserted, heartbeatMissed, millHeartbeatAbsent,
catchUpLaunch. -/
def Obligations.PartnerJudgedAndTakenOver : Prop :=
  ∀ s : State,
    let token := fun c : TokClass => match c with | .silent => 0 | .notActive => 1 | .active => 2
    (∀ c : TokClass, (s.plyState = 0 ∨ s.plyState = 2 ∧ c = .active ∧ s.ply.muteGap = false) → s.ply.silentTest = false →
      Does (.tokenClassChange c) s (fun t => t.rd F.PLY_STATUS_tok_in = token c ∧
        t.rd F.PLY_STATUS_state = s.rd F.PLY_STATUS_state ∧ t.image = s.image)) ∧
    (∀ c : TokClass, c ≠ .active → s.plyState = 2 → s.rd F.PLY_STATUS_link = 0 → Does (.tokenClassChange c) s (fun t =>
      t.rd F.PLY_STATUS_state = 1 ∧ t.rd F.PLY_STATUS_tok_in = token c ∧ bitOf (t.rd F.PLY_EVT_evt) 2 = true)) ∧
    (s.plyState ≠ 4 → s.ply.silentTest = false →
      Does .abdicateLineAsserted s (fun t => t.rd F.PLY_STATUS_abd_in = 1 ∧ t.image = s.image ∧
        (s.wakeEnabled 4 = false → RegsIn [.ply] s t ∧ OnlyRegs s t)) ∧
      Does .heartbeatMissed s (fun t => t = { s with ply := { s.ply with hbMissed := s.ply.hbMissed + 1 } }) ∧
      Does .millHeartbeatAbsent s (fun t => t.rd F.PLY_STATUS_mill_hb_seen = 0 ∧ RegsIn [.ply] s t ∧ OnlyRegs s t)) ∧
    (s.ply.hbMissed < 2 → Does .heartbeatMissed s (fun t =>
      t = { s with ply := { s.ply with hbMissed := s.ply.hbMissed + 1 } })) ∧
    (s.plyState = 4 → (∃ t < 16, (s.task t).overrun ≠ none) → s.rd F.TASK_RUN_run_state ≠ 3 →
      Does .abdicateLineAsserted s (fun t => t.rd F.TASK_RUN_run_state = 3 ∧ t.rd F.PLY_STATUS_state = 4)) ∧
    (MayTakeOver s →
      ((∀ t < 16, s.bothLate t = false) → Does .abdicateLineAsserted s (fun t => TookOver s t 1)) ∧
      (s.rd F.PLY_STATUS_abd_in = 0 → 2 ≤ s.ply.hbMissed →
        Does .heartbeatMissed s (fun t => (s.rd F.PLY_STATUS_tok_in = 1 → TookOver s t 2) ∧
          (s.rd F.PLY_STATUS_tok_in = 2 → LeftTracking t 3) ∧
          (s.rd F.PLY_STATUS_tok_in = 0 → s.silentEvidence = true → TookOver s t 3) ∧
          (s.rd F.PLY_STATUS_tok_in = 0 → s.silentEvidence = false → LeftTracking t 12 ∧ t.ply.silentTest = true))) ∧
      (s.rd F.PLY_STATUS_abd_in = 0 → 3 ≤ s.ply.hbMissed →
        Does (.tokenClassChange .notActive) s (fun t => TookOver s t 2) ∧
        (s.rd F.PLY_STATUS_tok_in = 0 → s.act F.PLY_MILL_HB_mill_hb_en = 1 → s.partnerBeaconless = true →
          s.rd (F.MB_STATUS_state (s.act F.PLY_MILL_HB_mill_hb_chan)) ≠ 3 →
          Does .millHeartbeatAbsent s (fun t => TookOver s t 3)))) ∧
    (s.plyState = 1 ∨ s.plyState = 2 → s.ply.catchUp ≠ [] → s.rd F.TURN_STATUS_running = 1 → Does .catchUpLaunch s (fun t =>
      t.ply.catchUp = s.ply.catchUp.filter (fun n => !s.stationReady n) ∧ RegsIn [.ply] s t ∧ t.image = s.image ∧
        t.turn = s.turn ∧ ∃ sent, t.out = s.out ++ sent ∧ ∀ o ∈ sent, ∃ p b, o = Out.skein p b))

/-- O35. Heartbeats (R269, R274, R275, R287): a HEARTBEAT goes out with the role's bits and the token line toggles while the
module is active; one received ends the count of misses, shows the partner's bits, and where it has not abdicated its
line is high; a standby that meets another token than ACTIVE beside it raises line_fault. The mill-bus heartbeat
carries epoch and turn. A module that cannot toggle its token abdicates with cause 6.
Each of these completes here: heartbeatSend, heartbeatReceived, millHeartbeatSend, ownHeartbeatLoss.
What partners tell each other: a bridged INPUT frame counts as one received (R99) but not directly; a released
payload goes out at once as the standby's proxy frame (R100); REACH tells which stations the partner lacks; DIGESTs
that match count, and one that does not makes the standby leave tracking with reason 1 (R280, R281); a COMPLETION is
kept, with whether it came in time (R115); HEALTH tells the state, the key and new mismatches, at least a joining
partner ends LONE (R277, R284).
Each of these completes here: bridgeReceived, releasedReceived, reachReceived, digestReceived, completionReceived,
healthReceived. -/
def Obligations.HeartbeatsAndPartnerFrames : Prop :=
  Heartbeats ∧ PartnerFramesTaken

/-- O36. What a module tells its partner: the DIGEST of the first released turn all of whose items have committed, on the
active (R280); HEALTH, after which its slips and its least slack start again (R284); a chunk of an item's words
(R282). A STATE chunk of a standby's own latest commit that differs makes it leave tracking with reason 8, one of
another commit has no effect. A partner's JOIN shows its identity, and a joining module fails with 3 or 2 for parts or
a level that do not fit, or goes on (R295): the configuration it is handed becomes its own until the seals are equal, then
it takes turn, time, epoch and key, then the captured state.
Each of these completes here: digestCompute, healthSend, stateSend, stateReceived, plyJoinReceived. -/
def Obligations.PartnerToldAndJoined : Prop :=
  ∀ (s : State) (h : PlyHdr),
    let sends := fun (ty : Nat) (body : Bytes) (t : State) => ∃ alive, t.out = s.out ++
      [.ply (plyFrame ty s.isActive s.isStandby alive s.turn.k body)]
    (∀ e, s.plyState = 2 → s.rd F.PLY_STATUS_link = 2 →
      s.ply.rel.find? (fun e => e.2.released && s.releaseWhole e.1) = some e → Does .digestCompute s (fun t =>
        t.regs = s.regs ∧ SMap.find t.ply.rel e.1 = none ∧ ∃ alive, t.out = s.out ++
          [.ply (plyFrame 0x44 true false alive e.1 (digestBytes (relDigest e.2)))])) ∧
    (s.pd .ringply = true → s.rd F.PLY_STATUS_link = 2 → Does .healthSend s (fun t =>
      t.regs = s.regs ∧ t.turn = { s.turn with healthSlips := 0, healthSlack := none } ∧
        t.fw = { s.fw with healths := s.fw.healths + 1 } ∧
        ∃ body : Bytes, body.length = 32 ∧ byteAt body 0 = s.plyState % 256 ∧ byteAt body 2 = s.rd F.KEY_STATUS_local % 256 ∧
          byteAt body 3 % 2 = bit s.host.millerUp ∧ beAt body 8 4 = (s.turn.healthSlack.getD 0xFFFFFFFF) % 2 ^ 32 ∧
          beAt body 24 4 = s.rd F.PLY_COUNTS_mismatches % 2 ^ 32 ∧ sends 0x4A body t)) ∧
    (∀ (item : BitVec 16) (first : BitVec 32) (count : Fin 511), s.plyState = 2 → s.rd F.PLY_STATUS_link = 2 →
      s.ply.capture = none → s.ply.owed = [] →
      let ws := s.itemWords s.task s.loop item.toNat first.toNat count.val
      ws ≠ [] → Does (.stateSend item first count) s (fun t => t.regs = s.regs ∧ sends 0x4B (beBytes 2 item.toNat ++
        beBytes 8 (itemTurn s.task s.loop item.toNat) ++ beBytes 4 first.toNat ++ beBytes 2 ws.length ++
        ws.flatMap (beBytes 8)) t)) ∧
    (∀ (item : BitVec 16) (commit : BitVec 64) (first : BitVec 32) (words : List (BitVec 64)), Taken s 0x4B h →
      s.plyState = 4 → item.toNat < 16 → first.toNat + words.length ≤ s.itemLen item.toNat → s.ply.diverged = [] →
      Does (.stateReceived h item commit first words) s (fun t => t.tasks = s.tasks ∧ t.loops = s.loops ∧
        (itemTurn s.task s.loop item.toNat ≠ commit.toNat ∨
          s.itemWords s.task s.loop item.toNat first.toNat words.length = words.map BitVec.toNat → t.regs = s.regs) ∧
        (itemTurn s.task s.loop item.toNat = commit.toNat →
          s.itemWords s.task s.loop item.toNat first.toNat words.length ≠ words.map BitVec.toNat → LeftTracking t 8))) ∧
    (∀ j : PlyJoin, Taken s 0x4C h →
      let named := fun (t : State) => t.rd F.PLY_PARTNER_ID_LO_ident = j.ident.toNat % 2 ^ 32 ∧
        t.rd F.PLY_PARTNER_ID_HI_ident = j.ident.toNat / 2 ^ 32 % 2 ^ 32
      (s.plyState ∈ [0, 4, 5, 6] → Does (.plyJoinReceived h j) s (fun t => named t ∧ RegsIn [.ply] s t ∧
        t.image = s.image)) ∧
      (s.plyState = 1 ∨ s.plyState = 2 → j.joining = true →
        (s.compatWith j.compat = true → s.act F.HOPPER_LEVEL_level ≤ j.level.toNat →
          Does (.plyJoinReceived h j) s (fun t => named t ∧ t.rd F.PLY_STATUS_state = 2 ∧
            Out.joinConfig (s.joinConfig j.imageSeal.toNat) ∈ t.out ∧ Out.joinTime s.joinTime ∈ t.out ∧
            ∃ o ∈ t.ply.orders, o.mine = true ∧ o.code = 8 ∧ o.content = .capture)) ∧
        (s.compatWith j.compat = false ∨ j.level.toNat < s.act F.HOPPER_LEVEL_level →
          Does (.plyJoinReceived h j) s (fun t => named t ∧ t.ply.orders = s.ply.orders ∧ t.image = s.image))) ∧
      (s.plyState = 3 → s.rd F.PLY_JOIN_phase = 1 → j.config = none → j.time = none → j.captured = none →
        Does (.plyJoinReceived h j) s (fun t => named t ∧
          (s.compatWith j.compat = false → LeftTracking t 14 ∧ t.rd F.PLY_JOIN_fail = 3) ∧
          (s.compatWith j.compat = true → 0 < j.level.toNat → LeftTracking t 14 ∧ t.rd F.PLY_JOIN_fail = 2) ∧
          (s.compatWith j.compat = true → j.level.toNat = 0 → t.rd F.PLY_STATUS_state = 3 ∧ t.rd F.PLY_JOIN_phase = 2))) ∧
      (∀ d, s.plyState = 3 → s.rd F.PLY_JOIN_phase = 2 → j.config = some d → j.time = none → j.captured = none →
        Does (.plyJoinReceived h j) s (fun t => t.turn = s.turn ∧
          t.rd F.PLY_JOIN_phase = (if t.rd F.HOPPER_ACTIVE_SEAL_seal = j.imageSeal.toNat then 3 else 2) ∧
          (d.image = none → t.hop.active = s.hop.active) ∧
          (∀ l ps, d.image = some (l, ps) → t.hop.active = applyChanges [] l))) ∧
      (∀ d, s.plyState = 3 → s.rd F.PLY_JOIN_phase = 3 → j.config = none → j.time = some d → j.captured = none →
        Does (.plyJoinReceived h j) s (fun t => t.rd F.PLY_JOIN_phase = 4 ∧ t.turn.k = d.turn.toNat ∧
          t.turn.kOrigin = d.kOrigin.toNat ∧ t.turn.origin = d.origin ∧ t.time.work = d.work ∧
          t.rd F.TURN_STATUS_running = 1 ∧ t.rd F.TURN_STATUS_adopted = 1 ∧ t.rd F.PLY_EPOCH_epoch = d.epoch.toNat ∧
          t.rd F.KEY_STATUS_effective = d.key.toNat ∧ t.hop.active = s.hop.active)) ∧
      (∀ c b, s.plyState = 3 → s.rd F.PLY_JOIN_phase = 4 → s.ply.capture = some b → j.config = none → j.time = none →
        j.captured = some c → Does (.plyJoinReceived h j) s (fun t => 0xFFFF ∈ t.ply.captured ∧
          t.rd F.TASK_RUN_run_state = c.runState.toNat ∧ t.hop.active = s.hop.active ∧
          t.image.forces = SMap.puts [] (c.forces.map (fun e => (e.1.toNat, e.2))))))

/-- O37. Roles (R277, R279, R293 to R298). A module in STARTING with no sign of a partner becomes LONE with an epoch above
every one heard, or, at the epoch's limit, stays and brakes; a link that comes up lets it become LONE, as home of a partner that starts too, or JOINING; a link
that goes down or trains fails a join with 6 and makes an active without its partner's token LONE. An UNTRACKED module joins
again by itself or on command; a planned handover or a revert swaps the roles at its boundary. A command that the
state does not allow is refused. Joins go through their phases or fail with their reasons.
Each of these completes here: startingTimeout, plyLinkUp, plyLinkDown, autoRejoin, plyCmdRejoin, plyCmdLeave,
plyCmdHandover, plannedHandoverSwitch, revert, joinCaptureBoundary, joinTimeout, replayCaughtUp, replayBehind,
divergedTimeout. -/
def Obligations.RolesAndJoins : Prop :=
  ∀ s : State,
    let heard := max s.ply.partnerEpoch s.ply.heardEpoch
    let lone := fun (t : State) =>
      (heard < 0xFFFFFFF → t.rd F.PLY_STATUS_state = 1 ∧ t.ply.tokOut = true ∧ t.rd F.PLY_STATUS_muted = 0 ∧
        t.rd F.PLY_REASON_takeover = 6 ∧ t.rd F.PLY_EPOCH_epoch = heard + 1) ∧
      (0xFFFFFFF ≤ heard → t.rd F.PLY_STATUS_state = 0 ∧ t.rd F.PLY_EPOCH_epoch = s.rd F.PLY_EPOCH_epoch ∧
        bitOf (t.rd F.BRK_SRC_RAW_raw) 19 = true)
    let joining := fun (t : State) => t.rd F.PLY_STATUS_state = 3 ∧ t.rd F.PLY_JOIN_phase = 1 ∧
      t.rd F.PLY_JOIN_attempts = min (s.rd F.PLY_JOIN_attempts + 1) 31
    let failed := fun (reason : Nat) (t : State) => LeftTracking t 14 ∧ t.rd F.PLY_JOIN_fail = reason ∧
      t.rd F.PLY_JOIN_phase = 0
    let orders := fun (code b : Nat) (content : OrderContent) (t : State) =>
      t.ply.orders = s.ply.orders ++ [⟨true, code, s.ply.nextSeq, b, content, false⟩]
    let refused := fun (t : State) => t.rd F.PLY_STATUS_cmd_refused = 1 ∧ RegsIn [.ply] s t ∧ OnlyRegs s t
    (s.plyState = 0 → s.rolePower = true → s.rd F.TURN_STATUS_running = 1 → s.rd F.PLY_STATUS_link = 0 →
      s.partnerBeaconless = true → s.rd F.PLY_STATUS_mill_hb_seen = 0 → s.rd F.PLY_STATUS_tok_in = 0 →
      Does .startingTimeout s lone) ∧
    (s.pd .ringply = true → Does .plyLinkUp s (fun t => t.rd F.PLY_STATUS_link = 2 ∧ t.ply.rxAlive = [] ∧
      (s.plyState = 0 → s.rolePower = true →
        (s.rd F.PLY_STATUS_partner_state = 0 → s.isHome = true → lone t) ∧
        (s.rd F.PLY_STATUS_partner_state = 1 ∨ s.rd F.PLY_STATUS_partner_state = 2 → joining t)))) ∧
    (∀ training, Does (.plyLinkDown training) s (fun t => t.rd F.PLY_STATUS_link = bit training ∧
      t.rd F.KEY_STATUS_partner_valid = 0 ∧
      (s.plyState = 4 → s.rd F.PLY_STATUS_tok_in = 2 → LeftTracking t 3) ∧ (s.plyState = 3 → failed 6 t) ∧
      (s.plyState = 2 → s.rd F.PLY_STATUS_tok_in ≠ 2 → t.rd F.PLY_STATUS_state = 1))) ∧
    (s.plyState = 5 → s.act F.PLY_CTRL_auto_rejoin = 1 →
      (s.ply.rejoins.filter (fun j => decide (s.workSec < j + 600))).length < 3 →
      Does .autoRejoin s (fun t => joining t ∧ s.workSec ∈ t.ply.rejoins)) ∧
    (s.pd .ringply = true →
      (s.plyState = 5 → Does .plyCmdRejoin s (fun t => joining t ∧ t.rd F.PLY_STATUS_cmd_refused = 0)) ∧
      (s.plyState ≠ 5 → Does .plyCmdRejoin s refused) ∧
      (s.plyState = 4 → Does .plyCmdLeave s (fun t => LeftTracking t 11 ∧ t.rd F.PLY_STATUS_cmd_refused = 0)) ∧
      (s.plyState ≠ 4 → Does .plyCmdLeave s refused) ∧
      (s.plyState = 2 → s.key ≠ 0 → s.rd F.PLY_STATUS_partner_state = 4 →
        Does .plyCmdHandover s (orders 6 s.orderBoundary .handover)) ∧
      (s.plyState = 4 → s.rd F.PLY_STATUS_link = 2 → Does .plyCmdHandover s (orders 6 0 .handover)) ∧
      (s.plyState ≠ 2 → s.plyState ≠ 4 → Does .plyCmdHandover s refused)) ∧
    (∀ o, s.ply.orders = [o] → o.code = 6 ∨ o.code = 7 → o.acked = true → o.boundary ≠ 0 → o.boundary ≤ s.turn.k →
      (0xFFFFFFF ≤ s.rd F.PLY_EPOCH_epoch → Does .plannedHandoverSwitch s (fun t =>
        t.rd F.PLY_STATUS_state = s.rd F.PLY_STATUS_state ∧ t.rd F.PLY_EPOCH_epoch = s.rd F.PLY_EPOCH_epoch ∧
          bitOf (t.rd F.BRK_SRC_RAW_raw) 19 = true ∧ t.ply.orders = [])) ∧
      (s.rd F.PLY_EPOCH_epoch < 0xFFFFFFF → s.plyState = 2 → s.fw.step = 0 → s.pwr.waitHandover = none → Does .plannedHandoverSwitch s (fun t =>
        t.rd F.PLY_STATUS_state = 4 ∧ t.rd F.PLY_REASON_abdication = 9 ∧ t.rd F.PLY_STATUS_muted = 1 ∧
          t.ply.tokOut = false ∧ t.ply.orders = [])) ∧
      (s.plyState = 4 → s.rd F.PLY_EPOCH_epoch < 0xFFFFFFF → s.rd F.TURN_WDOG_tripped = 0 → Does .plannedHandoverSwitch s (fun t =>
        t.rd F.PLY_STATUS_state = 2 ∧ t.rd F.PLY_EPOCH_epoch = s.rd F.PLY_EPOCH_epoch + 1 ∧ t.ply.tokOut = true ∧
          t.rd F.PLY_REASON_takeover = (if o.code = 7 then 5 else 4) ∧ t.ply.orders = []))) ∧
    (s.plyState = 4 → s.rd F.PLY_STATUS_home = 1 → s.rd F.PLY_STATUS_home_err = 0 → s.act F.PLY_CTRL_revert_en = 1 →
      (∃ w, s.ply.trackSince = some w ∧ w + s.act F.PLY_CTRL_revert_hold_s ≤ s.workSec) → s.somethingArmed = false →
      s.rd F.PLY_STATUS_link = 2 → s.rd F.TURN_WDOG_tripped = 0 → Does .revert s (orders 7 s.orderBoundary .revert)) ∧
    (∀ o, s.ply.orders = [o] → o.code = 8 → o.mine = true → o.acked = true → o.boundary ≤ s.turn.k →
      Does .joinCaptureBoundary s (fun t => t.regs = s.regs ∧ t.ply = { s.ply with
        orders := [], capture := some o.boundary, capTasks := [], capLoops := [], capSlots := [], capForces := none, capSent := false,
        capWords := [], capOut := [] })) ∧
    (s.plyState = 3 → Does .joinTimeout s (failed 1)) ∧
    (s.plyState = 3 → s.rd F.PLY_JOIN_phase = 5 →
      (s.ply.liveCut ≤ s.turn.cutoffs → Does .replayCaughtUp s (fun t => t.rd F.PLY_JOIN_phase = 6 ∧
        t.rd F.PLY_JOIN_backlog = 0 ∧ t.ply.matchRun = 0 ∧ t.turn = s.turn ∧ RegsIn [.ply] s t)) ∧
      (s.turn.cutoffs < s.ply.liveCut → Does .replayCaughtUp s (fun t => t = s)) ∧
      (s.ply.backlogWas < 2 * (s.ply.liveCut - s.turn.cutoffs) → Does .replayBehind s (failed 5)) ∧
      (2 * (s.ply.liveCut - s.turn.cutoffs) ≤ s.ply.backlogWas → Does .replayBehind s (fun t =>
        t = { s with ply := { s.ply with backlogWas := s.ply.liveCut - s.turn.cutoffs } }))) ∧
    (∀ d ∈ s.ply.diverged, s.plyState = 4 → d.2.1 + max 64 (ceilDiv 1000000 (max 1 s.turnNs)) ≤ s.turn.k →
      Does .divergedTimeout s (fun t => LeftTracking t 1))

/-- O38. The ladder (R451 to R458): a request during a change waits; one for Still's other side, below the floor, or below
Feathered on a LONE module whose key is not at STOP, is refused; one upward wakes, one downward starts. A step moves
one rung: downward the domains outside the next rung turn off, upward those of it turn on; the change ends at its
target. A wake source that is enabled brings the module up, or waits for the end of a change.
Each of these completes here: pwrReqGo, rungStepDone, serviceButtonPress, keepAlarmFire, partnerSilentWake,
holdupCharged, holdupTimeout, holdupLow, cellLow. -/
def Obligations.PowerLadder : Prop :=
  ∀ s : State,
    let r := s.rd F.PWR_STATUS_rung
    let target := s.rd F.PWR_STATUS_target
    (s.pd .wake = true → ∀ v : Word32, bitOf v.toNat 3 = true →
      let want := v.toNat % 8
      (s.rd F.PWR_STATUS_moving = 1 → Does (.pwrReqGo v) s (fun t =>
        t = { s with pwr := { s.pwr with queued := some want } })) ∧
      (s.rd F.PWR_STATUS_moving = 0 → Does (.pwrReqGo v) s (fun t =>
        (want = 7 ∨ s.act F.PWR_CTRL_floor < want → PowerRaised t 1 ∧ t.rd F.PWR_STATUS_moving = 0) ∧
          (want ≠ 7 → want ≤ s.act F.PWR_CTRL_floor →
            (want < r → r ≤ 4 → t.rd F.PWR_STATUS_target = want ∧ t.rd F.PWR_STATUS_moving = 1 ∧ t.rd F.PWR_WAKE_source = 0) ∧
            (want = r → t = s) ∧
            (r < want → want ≠ 1 → s.plyState = 1 → s.key ≠ 3 → PowerRaised t 1 ∧ t.rd F.PWR_STATUS_moving = 0) ∧
            (r < want → want ≠ 1 → (s.plyState = 1 ∧ s.key = 3) ∨ s.plyState ∉ [1, 2] →
              t.rd F.PWR_STATUS_target = want ∧ t.rd F.PWR_STATUS_moving = 1))))) ∧
    (s.rd F.PWR_STATUS_moving = 1 → s.pwr.queued = none → s.pwr.wakeFrom = none →
      (r < target → target < 8 → (r = 3 → s.tasks.flushing = none ∧ s.hop.writing = false) → Does .rungStepDone s (fun t =>
        t.rd F.PWR_STATUS_rung = r + 1 ∧ t.rd F.PWR_STATUS_moving = (if target = r + 1 then 0 else 1) ∧
          ∀ d : Pd, t.pd d = (s.pd d && bitOf (rungDomains (r + 1)) d.bit))) ∧
      (target < r → r ≤ 4 → (r = 2 → s.rd F.PWR_STATUS_holdup_ok = 1) → s.pd .miller = true → s.fw.recovery = false →
        Does .rungStepDone s (fun t => t.rd F.PWR_STATUS_rung = r - 1 ∧
          t.rd F.PWR_STATUS_moving = (if target = r - 1 then 0 else 1) ∧
          ∀ d : Pd, t.pd d = (s.pd d || bitOf (rungDomains (r - 1)) d.bit))) ∧
      (target = r → Does .rungStepDone s (fun t => t.rd F.PWR_STATUS_rung = r ∧ t.rd F.PWR_STATUS_moving = 0))) ∧
    (s.rd F.PWR_STATUS_moving = 0 → 1 ≤ r → r ≤ 6 →
      Does .serviceButtonPress s (fun t => WakesUp t 1) ∧
      (s.pwr.keepAlarm ≠ 0 → s.pwr.keepAlarm ≤ s.keepSecond → bitOf (s.act F.PWR_CTRL_wake_en) 3 = true →
        Does .keepAlarmFire s (fun t => WakesUp t 5)) ∧
      (bitOf (s.act F.PWR_CTRL_wake_en) 2 = true → Does .partnerSilentWake s (fun t => WakesUp t 4 ∧
        t.rd F.PLY_STATUS_tok_in = 0))) ∧
    (s.keepSecond < s.pwr.keepAlarm → Does .keepAlarmFire s (fun t => t = s)) ∧
    (s.rd F.PWR_STATUS_moving = 1 → Does .serviceButtonPress s (fun t =>
      t = { s with pwr := { s.pwr with wakeFrom := some 1 } })) ∧
    Does .holdupCharged s (fun t => t.rd F.PWR_STATUS_holdup_ok = 1 ∧
      ∀ up, s.pwr.wantUp = some up → s.rd F.PWR_STATUS_moving = 0 → up < r → up < 8 →
        t.rd F.PWR_STATUS_target = up ∧ t.rd F.PWR_STATUS_moving = 1) ∧
    (s.rd F.PWR_STATUS_holdup_ok = 0 → Does .holdupTimeout s (fun t => PowerRaised t 5 ∧
      (s.rd F.PWR_STATUS_moving = 1 → r = 2 → target < 2 → s.pwr.queued = none → s.pwr.wakeFrom = none →
        t.pwr.wantUp = some target ∧ t.rd F.PWR_STATUS_target = 2 ∧ t.rd F.PWR_STATUS_moving = 0))) ∧
    Does .holdupLow s (fun t => t.rd F.PWR_STATUS_holdup_ok = 0 ∧ PowerRaised t 5 ∧ t.rd F.PWR_STATUS_rung = r) ∧
    Does .cellLow s (fun t => t.rd F.PWR_STATUS_cell_low = 1 ∧ t.rd F.PWR_SUPPLY_cell_mv < 2700 ∧ PowerRaised t 4)

/-- O39. Resets (R285, R453, R460 to R463, R465). A request is taken from a module that is not active, or LONE with its key
at STOP, and refused of a LONE one otherwise; the partner is reset by a STATE frame of item 0x220, never while it is
active. A warm reset keeps the image, the forces and LOCAL, ends every seal unit and shows its kind; one that the
partner orders discards the image too. A cold start powers up to Reefed and shows its kind, the straps and whether the
keep island held.
Each of these completes here: pwrResetWarm, pwrResetCold, pwrResetPartner, warmReset, partnerOrderedReset,
autoRestart, commandedColdStart, inputGood. -/
def Obligations.Resets : Prop :=
  ∀ s : State,
    let warm := fun (kind : Nat) (t : State) => t.rd F.PWR_CAUSE_kind = kind ∧ t.rd F.PWR_CAUSE_from = 0 ∧
      t.pwr.warmWanted = false ∧ t.seals = [] ∧ t.time.ticks = s.time.ticks ∧ t.mem = s.mem ∧
      t.hop.active = RegMap.set s.hop.active F.HOPPER_LEVEL_level 0
    let cold := fun (kind : Nat) (t : State) => t.rd F.PWR_CAUSE_kind = kind ∧ t.rd F.PWR_CAUSE_from = 0 ∧
      t.pd .wake = true ∧ t.pd .brake = true ∧ t.pd .miller = true ∧
      t.rd F.PWR_STATUS_rung = (if t.fw.recovery then 4 else 2) ∧ t.pwr.inputGood = true ∧ t.pwr.coldWanted = false
    (s.pd .wake = true →
      (s.plyState ∉ [1, 2] ∨ (s.plyState = 1 ∧ s.key = 3) →
        Does .pwrResetWarm s (fun t => t = { s with pwr := { s.pwr with waitHandover := none, warmWanted := true } }) ∧
        Does .pwrResetCold s (fun t => t.pwr.coldWanted = true ∧ ∀ d : Pd, d ≠ .keep → t.pd d = false)) ∧
      (s.plyState = 1 → s.key ≠ 3 →
        Does .pwrResetWarm s (fun t => PowerRaised t 1 ∧ t.pwr.warmWanted = s.pwr.warmWanted) ∧
        Does .pwrResetCold s (fun t => PowerRaised t 1 ∧ t.pwr.coldWanted = s.pwr.coldWanted)) ∧
      (s.plyState = 2 → s.rd F.PLY_STATUS_link = 2 → s.rd F.PLY_STATUS_partner_state ∉ [1, 2] →
        Does .pwrResetPartner s (fun t => t.regs = s.regs ∧ ∃ alive, t.out = s.out ++ [.ply (plyFrame 0x4B true false alive
          s.turn.k (beBytes 2 0x220 ++ beBytes 8 0 ++ beBytes 4 0 ++ beBytes 2 0))])) ∧
      (s.plyState ∉ [1, 2] ∨ s.rd F.PLY_STATUS_partner_state ∈ [1, 2] →
        Does .pwrResetPartner s (fun t => PowerRaised t 1 ∧ t.pwr = s.pwr))) ∧
    (Boots s →
      (s.pwr.warmWanted = true → Does .warmReset s (fun t => warm 3 t ∧ t.image = s.image)) ∧
      (s.pwr.partnerWanted = true → s.plyState ∉ [1, 2] → Does .partnerOrderedReset s (fun t => warm 6 t ∧
        t.image = ImageSt.cold ∧ t.turn.k = 0 ∧ t.pwr.partnerWanted = false)) ∧
      (s.plyState = 6 → s.act F.PLY_CTRL_auto_restart = 1 → s.rd F.PLY_REASON_abdication ≠ 8 →
        (s.ply.restarts.filter (fun j => decide (s.workSec < j + 3600))).length < 3 →
        Does .autoRestart s (fun t => warm 4 t ∧ s.workSec ∈ t.ply.restarts))) ∧
    (s.pwr.coldWanted = true → (∀ d : Pd, d ≠ .keep → s.pd d = false) → Does .commandedColdStart s (cold 2)) ∧
    (s.pwr.inputGood = false → ∀ (straps : BitVec 8) (keepOk button : Bool), Does (.inputGood straps keepOk button) s (fun t =>
      cold 0 t ∧ t.rd F.RING_POSITION_position = straps.toNat % 16 ∧ t.rd F.PLY_STATUS_home = bit (bitOf straps.toNat 7) ∧
        t.rd F.PWR_STATUS_keep_lost = bit (!keepOk)))

/-- O40. The brake matrix (R301, R303 to R305, R312, R316): an enabled input asserts or releases its row; an assertion counts,
is stamped as the last and, if none is, the first, and latches where its row does; BRK_CLEAR ends the latches named,
but for row 18 and for rows whose source is asserted; outputs and ports follow the effective rows. The active's soft
sources are asked for at a boundary, mirrored, and take effect there. BRK_LOCK locks, BRK_FIRST clears, and a refresh
sends a BRAKE frame with the safe payload for every station of a braked port while no release gate fires (R300, R307).
Each of these completes here: brakeInputAssert, brakeInputRelease, brkClearWrite, brkSoftWrite, softBrakeApply,
brkLockWrite, brkFirstClearWrite, brakeFrameRefresh.
The loss of the 12 V input (R314, R315, R458): row 24, the role given up with cause 8, the bypass closed, and every
domain but the brake domain, the bins, the miller, time and the keep island off; then, as the last-gasp record, the
retained variables and the holdup store end, the rest. Else the keep island takes the working second (R265, R314). An open ejector asserts row 25, closes the bypass and gives up
the role with cause 7, and a closed one ends it (R475, R476).
Each of these completes here: inputLost, lastGaspRecordDone, keepIslandUpdate, holdupSpent, ejectorOpen,
ejectorClosed. -/
def Obligations.BrakeMatrixAndInputLoss : Prop :=
  BrakeMatrix ∧ InputLossAndEjector

/-- O41. The doorbell page and the rings (R322 to R325, R343). A read ends while R321 lets the ring engine
use host memory and the miller serves (R24): each enabled command ring
without error takes its completion index, unless an index lies outside the ring, which stops it in error; a page that
the bus does not give sets HOST_ERR bit 0. Enabling a ring sets its counts to 0 and takes its sizes, and a size out of
range is an error; a ring that is enabled keeps its sizes. POLICY_LOCK locks.
Each of these completes here: doorbellReadEnd, ringEnableWrite, policyLockWrite.
The host link (R321, R337, R339, R341). FLR, and PERST# asserted, set the rings to their cold values, keep
POLICY_LOCK, end Bus Master Enable, and discard the completions of commands still outstanding; PERST# takes the link
down too, as a link loss does, which halts the ring engine and raises event source 8. A trained link shows its speed
and width. In D0 with bus mastering what waited is written. A message whose time has passed goes out or is held by its
mask, and unmasking the function sends those held.
Each of these completes here: flr, perstChange, hostLinkDown, hostLinkTrained, pmStateChange, msixCoalTimeout,
msixFunctionUnmask. -/
def Obligations.HostRingsAndLink : Prop :=
  RingsServedAndSet ∧ HostLinkAndMessages

/-- O42. Commands that read (R331, R332, R374): NOP only completes; SIG_READ answers with the containers of a run of slots at
one instant, SLOT_STATUS and LOOP_READ with their records, FORCE_LIST with every forced slot, PROG_READ with an
image's bytes, MILL_READ with the newest message of a receive buffer, whose overrun it ends.
Each of these completes here: cmdNop, cmdSigRead, cmdSlotStatus, cmdLoopRead, cmdForceList, cmdProgRead, cmdMillRead. -/
def Obligations.HostReadsAnswered : Prop :=
  ∀ (s : State) (c : HostCmd),
    let first := opAt c 24 4
    let n := opAt c 28 4
    let answers := fun (b : Bytes) (t : State) => Out.host c.desc.buf.toNat b ∈ t.out ∧ t.image = s.image ∧ t.hop = s.hop
    (Ready s c 0x00 → Does (.cmdNop c) s (fun t => Completed s t c 0 0 0 0 ∧ t.image = s.image ∧ t.hop = s.hop)) ∧
    (Ready s c 0x10 → 1 ≤ n → n ≤ 16384 → first + n ≤ 262144 → Buffered s c 1 (4 * n) → Does (.cmdSigRead c) s (fun t =>
      Completed s t c 0 0 s.turn.k 0 ∧
        answers ((upTo n).flatMap (fun i => leBytes 4 (s.slotNow (first + i)).container)) t)) ∧
    (Ready s c 0x12 → 1 ≤ n → n ≤ 4096 → first + n ≤ 262144 → Buffered s c 1 (16 * n) → Does (.cmdSlotStatus c) s (fun t =>
      Completed s t c 0 0 0 0 ∧ answers ((upTo n).flatMap (fun i => s.slotRecord (first + i))) t)) ∧
    (Ready s c 0x20 → 1 ≤ opAt c 26 2 → opAt c 24 2 + opAt c 26 2 ≤ 4096 → Buffered s c 1 (32 * opAt c 26 2) →
      Does (.cmdLoopRead c) s (fun t =>
        Completed s t c 0 0 ((upTo (opAt c 26 2)).foldl (fun a i => max a (s.loop (opAt c 24 2 + i)).sample) 0) 0 ∧
          answers ((upTo (opAt c 26 2)).flatMap (fun i => s.loopRecord (opAt c 24 2 + i))) t)) ∧
    (Ready s c 0x32 → bufOk c 32768 = true → Buffered s c 1 (8 * s.image.forces.length) →
      Does (.cmdForceList c) s (fun t => Completed s t c 0 0 0 s.image.forces.length ∧
        answers (s.image.forces.flatMap (fun e => leBytes 4 e.1 ++ leBytes 4 (forcedEntry e.2).container)) t)) ∧
    (∀ b : Bytes, Ready s c 0x51 → opByte c 24 < 16 → bufOk c 0 = true →
      SMap.getD (if opByte c 25 = 1 then s.progs.staged else s.progs.active) (opByte c 24) [] = b →
      opAt c 28 4 ≤ b.length → let part := (b.drop (opAt c 28 4)).take c.desc.len.toNat
      Buffered s c 1 part.length → Does (.cmdProgRead c) s (fun t => Completed s t c 0 0 0 b.length ∧ answers part t)) ∧
    (∀ m, Ready s c 0x81 → opByte c 24 < 2 → opByte c 25 < 64 → Buffered s c 1 144 → s.millRole (opByte c 24) (opByte c 25) = 1 →
      (s.millBuf (opByte c 24) (opByte c 25)).msg = some m → m.words.length = 18 → Does (.cmdMillRead c) s (fun t =>
        Completed s t c 0 0 0 0 ∧ answers (m.words.flatMap (fun w => leBytes 8 w.toNat)) t ∧
          t.rd (F.MB_BUF_STATUS_overrun (opByte c 24) (opByte c 25)) = 0))

/-- O43. Commands that write (R63 to R65, R68, R148, R346 to R348, R377, R378): signals and loop requests wait for the boundary
of R68 and complete with it; forces wait in an order for their boundary, on a LONE module without a partner's leave;
staging changes the staged copy alone, and DISCARD makes it the active one again; a piece of a program enters the
staged copy of its slot, and its last piece starts the verification; a mill-bus message waits for its boundary.
Each of these completes here: cmdSigWrite, cmdLoopWrite, cmdForce, cmdUnforce, cmdStageRegs, cmdStageSlots,
cmdDiscard, cmdProgLoad, cmdMillSend. -/
def Obligations.HostWritesAccepted : Prop :=
  ∀ (s : State) (c : HostCmd),
    let n := opAt c 24 4
    let es := pairsOf c.data n
    let waits := fun (w : List HostWrite) (t : State) =>
      t.image = { s.image with waiting := s.image.waiting ++ w.map (fun x => (s.boundary2, x)) } ∧
        t.hop = s.hop ∧ Completed s t c 0 0 s.boundary2 0
    let ordered := fun (op : Nat) (l : List (BitVec 18 × Option Sample)) (t : State) =>
      let b := if s.plyState = 2 then s.orderBoundary else s.nextBoundary
      t.ply.orders = s.ply.orders ++ [⟨true, 2, s.ply.nextSeq, b, .force l, s.plyState != 2⟩] ∧
        t.host.outstanding = s.host.outstanding ++ [⟨c, op, some b, some s.ply.nextSeq, false, false⟩] ∧ t.image = s.image ∧ t.hop = s.hop
    let forceable := fun x => x < 262144 ∧ s.slotKind x ≠ 0 ∧ s.slotKind x ≠ 3
    let stages := fun (m : RegMap) (t : State) => t.hop = { s.hop with staged := m } ∧ t.image = s.image ∧
      Completed s t c 0 0 0 0
    (Ready s c 0x11 → 1 ≤ n → n ≤ 4096 → 4 < n ∨ c.desc.buf.toNat ≠ 0 → Buffered s c 0 (8 * n) →
      (∀ e ∈ es, e.1 < 262144 ∧ s.slotKind e.1 = 3 ∧ (s.key ≠ 0 ∨ s.act (F.SLOT_POL_0_lock_ok e.1) = 1)) →
      Does (.cmdSigWrite c) s (waits (es.map (fun e => .slot (BitVec.ofNat 18 e.1) (BitVec.ofNat 18 e.2))))) ∧
    (Ready s c 0x21 → opAt c 24 2 < 4096 → opByte c 26 = 1 → s.act (F.LOOP_CTRL_sp_kind (opAt c 24 2)) = 0 →
      Does (.cmdLoopWrite c) s (waits [.loop (Fin.ofNat 4096 (opAt c 24 2)) (some (BitVec.ofNat 18 (opAt c 28 4))) none
        none])) ∧
    (Ready s c 0x30 → 1 ≤ n → n ≤ 256 → Buffered s c 0 (8 * n) → (∀ e ∈ es, forceable e.1) →
      (s.forcedSoon ++ es.map (·.1)).length ≤ 4096 →
      Does (.cmdForce c) s (ordered 0x30 (es.map (fun e => (BitVec.ofNat 18 e.1, some (BitVec.ofNat 18 e.2)))))) ∧
    (Ready s c 0x31 → 1 ≤ n → n ≤ 256 → Buffered s c 0 (4 * n) →
      let slots := (upTo n).map (fun i => leAt c.data (4 * i) 4)
      (∀ x ∈ slots, forceable x) → Does (.cmdUnforce c) s (ordered 0x31 (slots.map (fun m => (BitVec.ofNat 18 m, none))))) ∧
    (Ready s c 0x40 → 1 ≤ n → n ≤ 65536 → Buffered s c 0 (8 * n) →
      (∀ e ∈ es, e.1 % 4 = 0 ∧ e.1 < 0x100000 ∧ stgRows (s.mapOff e.1) ≠ []) →
      Does (.cmdStageRegs c) s (stages (es.foldl (fun m e => stageWord m (s.mapOff e.1) e.2) s.hop.staged))) ∧
    (let first := opAt c 24 4
     let count := opAt c 28 4
     Ready s c 0x41 → 1 ≤ count → count ≤ 65536 → first + count ≤ 262144 → Buffered s c 0 (16 * count) →
      Does (.cmdStageSlots c) s (stages ((upTo (4 * count)).foldl (fun m i =>
        stageWord m (slotPolBase + 16 * first + 4 * i) (leAt c.data (4 * i) 4)) s.hop.staged))) ∧
    (Ready s c 0x44 → Does (.cmdDiscard c) s (fun t =>
      stages (RegMap.set s.hop.active F.HOPPER_PROG_ACT_act 0) t ∧ t.progs = s.progs)) ∧
    (let slot := opByte c 24
     let len := c.desc.len.toNat
     (Ready s c 0x50 → slot < 16 → opAt c 28 4 + len ≤ maxImage → bufOk c len = true → s.onlineUses slot = true →
       Does (.cmdProgLoad c) s (fun t => t.progs = s.progs ∧ Completed s t c 0x0D 0 0 0)) ∧
     (Ready s c 0x50 → slot < 16 → opAt c 28 4 = 0 → len ≤ maxImage → s.onlineUses slot = false → Buffered s c 0 len →
      Does (.cmdProgLoad c) s (fun t => t.progs.active = s.progs.active ∧ t.image = s.image ∧ t.hop = s.hop ∧
        (bitOf (opByte c 25) 0 = false → SMap.find t.progs.staged slot = some (c.data.take len) ∧
          t.rd (F.PROG_STATUS_staged slot) = 1 ∧ Completed s t c 0 0 0 0) ∧
        (bitOf (opByte c 25) 0 = true → SMap.find t.progs.staged slot = some (c.data.take len) ∧ slot ∈ t.progs.verifying ∧
          t.host.outstanding = s.host.outstanding ++ [⟨c, 0x50, none, none, false, false⟩])))) ∧
    (let ch := opByte c 24
     let b := opByte c 25
     Ready s c 0x80 → ch < 2 → b < 64 → Buffered s c 0 144 → s.sendRefusal ch b (sendWords c) = none →
      wordsIdent (sendWords c) = s.bufIdent ch b → Does (.cmdMillSend c) s (fun t =>
        t.image = { s.image with waiting :=
          s.image.waiting ++ [(s.boundary2, .mill (Fin.ofNat 2 ch) (Fin.ofNat 64 b) (sendWords c))] } ∧
          t.mill = s.mill ∧ ∃ m ∈ t.host.outstanding, m.cmd = c ∧ m.op = 0x80 ∧ m.boundary = some s.boundary2))

/-- O44. Slots at the host (R50). A container holds the value in bits 17:0, the tag in bits 23:18 and zeros above. Of a
container that the host writes, the module keeps bits 17:0 alone, and it sets the tag itself.
Each of these completes here: cmdSigWrite, hostWriteTaken. -/
def Obligations.SlotContainers : Prop :=
  (∀ e : Entry, e.container < 2 ^ 24 ∧ e.container % 2 ^ 18 = e.value.toNat ∧ e.container / 2 ^ 18 = e.tag.toNat) ∧
    (∀ (s : State) (c : HostCmd) (n w : Nat), Ready s c 0x11 → opAt c 24 4 = 1 → c.desc.buf.toNat ≠ 0 → Buffered s c 0 8 →
      pairsOf c.data 1 = [(n, w)] → n < 262144 → s.slotKind n = 3 → s.key ≠ 0 → Does (.cmdSigWrite c) s (fun t =>
        t.image = { s.image with waiting :=
          s.image.waiting ++ [(s.boundary2, .slot (BitVec.ofNat 18 n) (BitVec.ofNat 18 (w % 2 ^ 18)))] })) ∧
    ∀ (s : State) (b : Nat) (n : BitVec 18) (v : Sample), s.image.waiting = [(b, .slot n v)] → b ≤ s.nowTurn →
      s.slotKind n.toNat = 3 → Does .hostWriteTaken s (fun t => (t.cell n.toNat).entry = ⟨v, 0⟩)

/-- O45. The hopper (R349 to R357). CHECK and COMMIT freeze the staged copy for their tests; a COMMIT beside an armed one
fails with code 8. CHECK shows its first failure, their number and its item, and changes no setting. A COMMIT that
passes is armed for its boundary, one that fails is over with result 2, one too late with 5. At its boundary an
acknowledged commit that the key permits becomes the active copy, and any other leaves it as it is, with result 3 or 4.
The image then goes to the older MRAM copy.
Each of these completes here: cmdCheck, cmdCommit, checkDone, commitAccepted, commitApply, commitImageWritten. -/
def Obligations.CommitsCheckedArmedAndApplied : Prop :=
  ∀ s : State,
    let result := fun (t : State) => t.rd F.HOPPER_STATUS_last_result
    let settings := fun (t : State) => t.hop.active = s.hop.active ∧ t.hop.staged = s.hop.staged ∧ t.progs = s.progs
    let begun := fun (c : HostCmd) (commit : Bool) (t : State) => settings t ∧
      t.hop.testing = some ⟨commit, s.hop.staged, RegMap.get s.hop.staged F.HOPPER_PROG_ACT_act⟩ ∧
      t.host.outstanding = s.host.outstanding ++ [⟨c, if commit then 0x43 else 0x42, none, none, false, false⟩]
    (∀ c, Ready s c 0x42 → bufOk c 0 = true → Does (.cmdCheck c) s (begun c false)) ∧
    (∀ c, Ready s c 0x43 → s.commitOperands c = 0 →
      (s.hop.armed = none → Does (.cmdCommit c) s (begun c true)) ∧
      (s.hop.armed ≠ none → Does (.cmdCommit c) s (fun t => settings t ∧ t.hop.armed = s.hop.armed ∧
        t.rd F.HOPPER_CHECK_first = 8 ∧ result t = 2 ∧ Completed s t c 0x0A 8 0 0))) ∧
    (∀ u, s.hop.testing = some u → u.isCommit = false → s.host.millerUp = true →
      let fs := s.checkFailures u.snapshot
      Does .checkDone s (fun t => settings t ∧ t.hop.testing = none ∧ t.rd F.HOPPER_CHECK_first = (lowestFailure fs).1 % 256 ∧
        t.rd F.HOPPER_CHECK_failures = min fs.length 65535 ∧ t.rd F.HOPPER_ITEM_item = (lowestFailure fs).2 % 2 ^ 32 ∧
        ∀ m ∈ t.host.outstanding, m.op ≠ 0x42)) ∧
    (∀ u m, s.hop.testing = some u → u.isCommit = true → s.host.millerUp = true → s.hop.armed = none →
      s.host.outstanding.find? (fun m => m.op == 0x43 && m.boundary.isNone) = some m → opByte m.cmd 24 = 0 →
      let fs := s.checkFailures u.snapshot
      let b := opAt m.cmd 32 8
      Does .commitAccepted s (fun t => settings t ∧ t.hop.testing = none ∧
        (fs ≠ [] → t.hop.armed = none ∧ result t = 2) ∧
        (fs = [] → b < s.orderBoundary → t.hop.armed = none ∧ result t = 5) ∧
        (fs = [] → s.orderBoundary ≤ b → t.rd F.HOPPER_B_LO_b = b % 2 ^ 32 ∧ t.rd F.HOPPER_B_HI_b = b / 2 ^ 32 % 2 ^ 32 ∧
          let changes := changeList s.hop.active u.snapshot
          t.hop.armed = some ⟨true, u.snapshot, u.act, changes, b, stagedDigest changes,
            s.plyState != 2 || !s.partnerStandby⟩))) ∧
    (∀ a, s.hop.armed = some a → a.boundary ≤ s.turn.k → s.plyState ∈ [1, 2, 4] →
      let key := match s.tasks.keyNext with
        | some e => if e.1 ≤ a.boundary then e.2 else s.key
        | none => s.key
      let permitted := keyPermits key s.hop.active a.image
      Does .commitApply s (fun t => t.hop.armed = none ∧
        (a.acked = true → permitted = true → t.hop.active = RegMap.set a.image F.HOPPER_PROG_ACT_act 0 ∧
          t.hop.before = s.hop.before ++ [(a.boundary, s.hop.active)] ∧ t.hop.writing = true ∧ result t = 1 ∧
          t.rd F.HOPPER_COMMITS_count = min (s.rd F.HOPPER_COMMITS_count + 1) (2 ^ 32 - 1)) ∧
        (a.acked = false → settings t ∧ result t = 3) ∧
        (a.acked = true → permitted = false → settings t ∧ result t = 4))) ∧
    (s.hop.writing = true → Does .commitImageWritten s (fun t => t.hop.writing = false ∧ settings t ∧
      ∃ n, SMap.find t.hop.mram s.olderImage = some ⟨n, levelZero s.hop.active, s.progs.active,
        s.progs.staged.filter (fun e => s.rd (F.PROG_STATUS_staged e.1) == 2)⟩ ∧
        ∀ i, i ≠ s.olderImage → SMap.find t.hop.mram i = SMap.find s.hop.mram i))

/-- O46. The host's firmware and log commands (R424, R425, R430 to R432, R435, R438, R449). A manifest from offset 0 empties
the next slot and begins a build; a whole one opens it or ends it with its status; a delta's pieces are kept, and the
last one builds its part or ends the build. ACTIVATE orders the switch for a boundary, both modules' for one boundary
at mode 1, and needs STOP there. CONFIRM needs a pending set. LOG_READ answers with records below the pointer;
LOG_ERASE erases the log only where the pointer is the expected one.
Each of these completes here: cmdFwManifest, cmdFwDelta, cmdFwActivate, cmdFwConfirm, cmdLogRead, cmdLogErase. -/
def Obligations.HostFirmwareAndLogCommands : Prop :=
  ∀ (s : State) (c : HostCmd),
    let len := c.desc.len.toNat
    let data := c.data.take len
    let refused := fun (code : Nat) (t : State) => FwRefused t code ∧ Completed s t c 0x12 code 0 0
    let slots := fun (t : State) => t.fw.slots = s.fw.slots ∧ t.rd F.FW_STATUS_slot = s.rd F.FW_STATUS_slot
    let emptied := fun (t : State) => t.fw.build = none ∧ t.fw.good = s.fw.good.erase s.fwNext ∧
      SMap.find t.fw.manifests s.fwNext = some []
    let asked := fun (mode : Nat) => opByte c 24 = mode ∧ s.rd F.FW_STATUS_state = 2 ∧ s.hop.armed = none ∧
      s.rd F.ONLINE_STATUS_state = 0 ∧ s.ply.orders = []
    (Ready s c 0x70 → Buffered s c 0 len → s.fwOpen = true → s.rd F.FW_STATUS_state ≠ 3 →
      (opAt c 28 4 = 0 → s.rd F.FW_STATUS_state ≠ 1 → len < 1408 → data.length = len → Does (.cmdFwManifest c) s (fun t =>
        slots t ∧ t.fw.build = some ⟨1, data, false, [], []⟩ ∧ t.rd F.FW_STATUS_state = 1 ∧ t.rd F.FW_STATUS_session = 1 ∧
        SMap.find t.fw.manifests s.fwNext = some [] ∧ Completed s t c 0 0 0 0)) ∧
      (∀ b, s.fw.build = some b → b.source = 1 → b.verified = false → opAt c 28 4 = b.manifest.length → opAt c 28 4 ≠ 0 →
        (b.manifest ++ data).length = 1408 → let code := s.manifestFault (b.manifest ++ data)
        Does (.cmdFwManifest c) s (fun t => slots t ∧
          (code = 0 → ∃ d, t.fw.build = some d ∧ d.verified = true ∧ d.manifest = b.manifest ++ data ∧
            Completed s t c 0 0 0 0) ∧
          (code ≠ 0 → emptied t ∧ FwRaised t 1 ∧ refused code t)))) ∧
    (∀ b, Ready s c 0x71 → Buffered s c 0 len → s.pd .dram = true → s.fw.recovery = false → s.fw.build = some b →
      b.source = 1 → b.verified = true → opByte c 24 ∈ manParts b.manifest →
      let p := opByte c 24
      let old := if opAt c 28 4 = 0 then [] else SMap.getD b.delta p []
      opAt c 28 4 = old.length → Does (.cmdFwDelta c) s (fun t => slots t ∧
        (bitOf (opByte c 25) 0 = false → Completed s t c 0 0 0 0 ∧
          t.fw.build = some { b with delta := SMap.put b.delta p (old ++ data) }) ∧
        (bitOf (opByte c 25) 0 = true →
          (∀ x, applyDelta (s.fwPart s.fwSlot p) (old ++ data) p (manHash b.manifest p) = .ok x → Completed s t c 0 0 0 0 ∧
            t.fw.build = some { b with parts := SMap.put b.parts p x, delta := SMap.del b.delta p }) ∧
          (∀ code, applyDelta (s.fwPart s.fwSlot p) (old ++ data) p (manHash b.manifest p) = .error code →
            emptied t ∧ FwRaised t 1 ∧ refused code t)))) ∧
    (Ready s c 0x72 → asked 0 → s.compatible = true → s.fwPly = false → Does (.cmdFwActivate c) s (fun t => slots t ∧
      t.rd F.FW_STATUS_state = 3 ∧ t.fw.activateAt = some s.switchBoundary ∧ t.fw.together = false ∧
      Completed s t c 0 0 s.switchBoundary 0)) ∧
    (Ready s c 0x72 → asked 1 → s.key = 3 → s.fwPly = true → Does (.cmdFwActivate c) s (fun t => slots t ∧
      t.rd F.FW_STATUS_state = 3 ∧ t.fw.activateAt = some s.orderBoundary ∧ t.fw.together = true ∧
      Completed s t c 0 0 s.orderBoundary 0)) ∧
    (Ready s c 0x72 → asked 1 → s.key ≠ 3 → Does (.cmdFwActivate c) s (fun t => t.fw = s.fw ∧ slots t ∧ refused 4 t)) ∧
    (Ready s c 0x73 → Does (.cmdFwConfirm c) s (fun t => slots t ∧
      (s.rd F.FW_STATUS_confirm ≠ 1 → t.fw = s.fw ∧ refused 9 t) ∧
      (s.rd F.FW_STATUS_confirm = 1 → t.fw.commanded = true ∧ Completed s t c 0 0 0 0))) ∧
    (let first := opAt c 24 4
     let n := opAt c 28 4
     Ready s c 0x60 → 1 ≤ n → n ≤ 64 → first + n ≤ s.rd F.REC_STATUS_pointer → Buffered s c 1 (1024 * n) →
      Does (.cmdLogRead c) s (fun t => t.recorder.records = s.recorder.records ∧
        Completed s t c 0 0 (s.rd F.REC_STATUS_pointer + 2 ^ 32 * s.rd F.REC_STATUS_full) 0 ∧
        Out.host c.desc.buf.toNat ((upTo n).flatMap (fun i => s.logRecord (first + i))) ∈ t.out)) ∧
    (Ready s c 0x61 → Does (.cmdLogErase c) s (fun t =>
      (opAt c 24 4 ≠ s.rd F.REC_STATUS_pointer → Completed s t c 4 0 0 0 ∧ t.recorder = s.recorder) ∧
      (opAt c 24 4 = s.rd F.REC_STATUS_pointer → Completed s t c 0 0 0 0 ∧ t.recorder.records = [] ∧
        t.recorder.queue = [] ∧ t.rd F.REC_STATUS_pointer = 0 ∧ t.rd F.REC_STATUS_full = 0 ∧
        t.rd F.REC_LAST_SEAL_seal = 0)))

/-- O47. Built, switched, confirmed (R432, R434, R436 to R440). A whole build fills the next slot. At its boundary a switch
changes the slot and starts the confirm window, or ends a fall-back; one that the partner has not acknowledged does
not happen, nor one that the key no longer permits. A set that is ready confirms itself and raises the key floor. A set that is not confirmed falls back: an
active with a tracking standby hands over first. The miller is away until it is back; its restart then counts, ends what the miller had begun, and changes
no setting.
Each of these completes here: fwBuildDone, fwSwitch, fwSelfConfirm, fwFallBack, millerWatchdogRestart. -/
def Obligations.FirmwareBuiltSwitchedConfirmed : Prop :=
  ∀ s : State, s.pd .miller = true →
    let state := fun (t : State) => t.rd F.FW_STATUS_state
    let confirm := fun (t : State) => t.rd F.FW_STATUS_confirm
    let slot := fun (t : State) => t.rd F.FW_STATUS_slot
    (∀ b, s.fw.recovery = false → s.wholeBuild = some b → (s.fwPly = true → s.fw.partnerBuilt = some (crc32c b.manifest)) →
      Does .fwBuildDone s (fun t => state t = 2 ∧ FwRaised t 0 ∧ slot t = slot s ∧ t.fw.build = none ∧
        SMap.find t.fw.manifests s.fwNext = some b.manifest ∧ s.fwNext ∈ t.fw.good ∧
        ∀ p < 16, SMap.find t.fw.slots (s.fwNext * 16 + p) = some (SMap.getD b.parts p []))) ∧
    (∀ b, s.fw.activateAt = some b → (s.rd F.TURN_STATUS_running = 1 → b ≤ s.turn.k) → Does .fwSwitch s (fun t =>
      t.fw.activateAt = none ∧ t.fw.slots = s.fw.slots ∧
      (s.fw.together = false → s.keyAt b < s.fw.keyFloor → slot t = slot s ∧ FwRefused t 4 ∧ (state s = 3 → state t = 2)) ∧
      (s.fw.together = false → s.fw.keyFloor ≤ s.keyAt b → slot t = s.fwNext ∧ FwRaised t 2 ∧ t.fw.since = s.workSec ∧ t.fw.healths = 0 ∧
        t.fw.commanded = false ∧ (s.fw.falling = false → state t = 4 ∧ confirm t = 1) ∧
        (s.fw.falling = true → state t = 0 ∧ confirm t = s.fw.was % 4)) ∧
      (s.fw.together = true → slot t = slot s ∧ FwRefused t 11 ∧ (state s = 3 → state t = 2)))) ∧
    Does .fwSelfConfirm s (fun t => (s.confirmReady = false → t = s) ∧
      (s.confirmReady = true → confirm t = 2 ∧ FwRaised t 3 ∧ slot t = slot s ∧ t.rd F.FW_STATUS_last_result = 1 ∧
        t.rd F.FW_STATUS_key_floor = byteAt (s.fwManifest s.fwSlot) 21 % 4 ∧ (state s = 4 → state t = 0))) ∧
    (confirm s = 1 → s.act F.FW_CTRL_confirm_s ≤ s.workSec - s.fw.since ∨ 3 ≤ s.rd F.FW_MILLER_in_window →
      s.fw.falling = false → s.fw.step ≠ 3 → Does .fwFallBack s (fun t =>
      FwRaised t 4 ∧ t.rd F.FW_STATUS_last_result = 3 ∧ state t = 3 ∧ slot t = slot s ∧
      (s.handoverOk = true ∧ s.plyUp = true → t.fw.step = 3 ∧ t.fw.activateAt = none ∧
        ∃ o ∈ t.ply.orders, o.content = .handover ∧ o.boundary = s.orderBoundary) ∧
      (¬(s.handoverOk = true ∧ s.plyUp = true) → t.fw.falling = true ∧ t.fw.together = false ∧
        t.fw.activateAt = some s.switchBoundary))) ∧
    Does (.millerWatchdogRestart false) s (fun t =>
      t = { s with host := { s.host with millerUp := false }, regs := t.regs } ∧
      t.rd F.HOST_STATUS_state = (if s.host.halted = true then 2
        else if s.rd F.HOST_CTRL_enable ≠ 1 ∨ s.dmaOk = false then 0 else 3)) ∧
    Does (.millerWatchdogRestart true) s (fun t => t.host.millerUp = true ∧ t.hop.testing = none ∧ t.host.outstanding = [] ∧
      t.rd F.FW_MILLER_restarts = min (s.rd F.FW_MILLER_restarts + 1) 255 ∧
      t.hop.active = s.hop.active ∧ t.hop.staged = s.hop.staged ∧ t.hop.armed = s.hop.armed ∧ t.fw = s.fw)

/-- O48. Hyica's sessions (R444 to R448, R490). What is not served changes nothing. Of a request that needs a session, a
repetition is answered by the last response, another session with 2, a number out of sequence with 8, another module's
identity with 1. OPEN begins a session, or answers BUSY; CLOSE and 30 s of silence end it. HELLO and STATUS answer any
time, LOG_READ with a record below the pointer. Neighbor discovery is answered for the module's own address.
Each of these completes here: hyOpen, hyClose, hyicaSessionTimeout, hyHello, hyStatus, hyLogRead, neighborDiscovery,
svcLinkChange. -/
def Obligations.HyicaSessions : Prop :=
  ∀ (s : State) (q : HyicaReq),
    let session := q.session.toNat
    let answered := fun (op session status : Nat) (payload : Bytes) (t : State) =>
      t = { s with out := s.out ++ [.service (reply q op session status Config.moduleIdent.toNat payload)] }
    let again := fun (t : State) => t = { s with out := s.out ++ [.service s.fw.lastReply] }
    (∀ op c, HyRequest q op c →
      (s.served q = false → Does c s (fun t => t = s)) ∧
      (s.served q = true → s.repeats q op = true → Does c s again) ∧
      (s.served q = true → s.repeats q op = false →
        (s.fw.session ≠ some session → Does c s (answered op session 2 [])) ∧
        (s.fw.session = some session → q.seq.toNat ≠ (s.fw.lastSeq + 1) % 2 ^ 32 → Does c s (answered op session 8 [])) ∧
        (s.fw.session = some session → q.seq.toNat = (s.fw.lastSeq + 1) % 2 ^ 32 → q.ident ≠ Config.moduleIdent →
          Does c s (fun t => HyReplied t q op session 1 [] ∧ t.fw.session = s.fw.session ∧ t.regs = s.regs)))) ∧
    (s.served q = true → s.repeats q 2 = true → Does (.hyOpen q) s again) ∧
    (s.served q = true → s.repeats q 2 = false →
      (s.fw.session ≠ none → Does (.hyOpen q) s (answered 2 session 3 [])) ∧
      (s.fw.session = none → q.ident = Config.moduleIdent → q.payload = [] → Does (.hyOpen q) s (fun t => ∃ n,
        1 ≤ n ∧ n < 2 ^ 32 ∧ t.fw.session = some n ∧ t.rd F.SVC_STATUS_open = 1 ∧ FwRaised t 5 ∧
          HyReplied t q 2 n 0 (beBytes 4 n)))) ∧
    (InSession s q 3 → q.payload = [] → Does (.hyClose q) s (fun t => t.fw.session = none ∧ t.rd F.SVC_STATUS_open = 0 ∧
      HyReplied t q 3 session 0 [])) ∧
    Does .hyicaSessionTimeout s (fun t => t.fw.session = none ∧ t.fw.build = s.fw.build ∧
      (s.fw.session ≠ none → t.rd F.SVC_STATUS_open = 0 ∧ t.fw.lastReply = [])) ∧
    (s.served q = true → q.payload = [] → q.ident = 0 → Does (.hyHello q) s (answered 1 session 0
      (beBytes 4 (s.rawWord 0xE000) ++ beBytes 8 (s.rawWord 0xE014 + 2 ^ 32 * s.rawWord 0xE018) ++
        beBytes 2 (s.rd F.FW_STATUS_lifecycle) ++ beBytes 2 (bit s.fw.recovery)))) ∧
    (s.served q = true → s.fw.session ≠ some session → q.ident = Config.moduleIdent →
      (q.payload = [] → Does (.hyStatus q) s (answered 4 session 0
        ((upTo 9).flatMap (fun i => beBytes 4 (s.ownWord (0xE000 + 4 * i)))))) ∧
      (q.payload.length = 8 → beAt q.payload 4 4 = 1 →
        let i := beAt q.payload 0 4
        Does (.hyLogRead q) s (answered 0x30 session (if i < s.rd F.REC_STATUS_pointer then 0 else 1)
          (if i < s.rd F.REC_STATUS_pointer then s.logRecord i else [])))) ∧
    (∀ toOwn echo, Does (.neighborDiscovery toOwn echo) s (fun t =>
      t = if toOwn = true ∧ s.pd .hostsvc = true ∧ s.pd .miller = true ∧ s.host.millerUp = true ∧
        s.rd F.SVC_STATUS_link = 2 then { s with out := s.out ++ [.neighbor echo] }
        else s)) ∧
    (∀ link : Fin 3, s.pd .hostsvc = true → Does (.svcLinkChange link) s (fun t => t.rd F.SVC_STATUS_link = link.val ∧
      t.fw = s.fw))

/-- O49. Hyica's firmware requests (R430 to R433, R435, R438, R441 to R443, R446). Below TEND, outside the recovery ROM, they
are refused with KEY; so are RECOVER and RETIRE away from STOP. MANIFEST, DELTA, ACTIVATE and CONFIRM do what the
host's commands do; the recovery ROM takes whole parts instead of deltas. RECOVER brings the recovery ROM; RETIRE
erases MRAM; a recovery image that verifies becomes the running set, pending confirm.
Each of these completes here: hyManifest, hyDelta, hyImage, hyActivate, hyConfirm, hyRecover, hyRetire, recoverReset,
recoveryImageDone. -/
def Obligations.HyicaFirmwareRequests : Prop :=
  ∀ (s : State) (q : HyicaReq),
    let session := q.session.toNat
    let p := q.payload
    let part := byteAt p 0
    let last := bitOf (byteAt p 1) 0
    let data := p.drop 8
    let old := fun (b : FwBuild) => if beAt p 4 4 = 0 then [] else SMap.getD b.delta part []
    let answered := fun (op status : Nat) (t : State) => HyReplied t q op session status [] ∧ (status ≠ 0 → FwRefused t status)
    (s.fw.recovery = false → s.key < 2 → ∀ op c, HyRequest q op c → op ∈ [0x10, 0x11, 0x12, 0x20, 0x21] → InSession s q op →
      Does c s (fun t => answered op 4 t ∧ t.fw.build = s.fw.build ∧ t.fw.activateAt = s.fw.activateAt)) ∧
    (s.key ≠ 3 → ∀ op c, HyRequest q op c → op ∈ [0x22, 0x23] → InSession s q op →
      Does c s (fun t => answered op 4 t ∧ t.rd F.FW_STATUS_lifecycle = s.rd F.FW_STATUS_lifecycle ∧ t.hop = s.hop)) ∧
    (s.fw.recovery = true ∨ 2 ≤ s.key →
      (InSession s q 0x10 → s.fwOpen = true → s.rd F.FW_STATUS_state ∉ [1, 3] → 4 ≤ p.length → beAt p 0 4 = 0 →
        (p.drop 4).length < 1408 → Does (.hyManifest q) s (fun t => answered 0x10 0 t ∧
          t.fw.build = some ⟨2, p.drop 4, false, [], []⟩ ∧ t.rd F.FW_STATUS_state = 1 ∧ t.rd F.FW_STATUS_session = 2)) ∧
      (∀ b, InSession s q 0x11 → PieceHead q → s.fw.recovery = false → s.pd .dram = true → s.fw.build = some b →
        b.source = 2 → b.verified = true → part ∈ manParts b.manifest → beAt p 4 4 = (old b).length →
        let built := applyDelta (s.fwPart s.fwSlot part) (old b ++ data) part (manHash b.manifest part)
        Does (.hyDelta q) s (fun t =>
          (last = false → answered 0x11 0 t ∧ t.fw.build = some { b with delta := SMap.put b.delta part (old b ++ data) }) ∧
          (∀ x, last = true → built = .ok x → answered 0x11 0 t ∧
            t.fw.build = some { b with parts := SMap.put b.parts part x, delta := SMap.del b.delta part }) ∧
          (∀ code, last = true → built = .error code → answered 0x11 code t ∧ t.fw.build = none))) ∧
      (∀ b, InSession s q 0x12 → PieceHead q → s.fw.recovery = true → s.fw.build = some b → b.verified = true →
        part ∈ manParts b.manifest → beAt p 4 4 = (old b).length →
        let fits := Config.sha384 (old b ++ data) = manHash b.manifest part
        Does (.hyImage q) s (fun t =>
          (last = false → answered 0x12 0 t ∧ t.fw.build = some { b with delta := SMap.put b.delta part (old b ++ data) }) ∧
          (last = true → fits → answered 0x12 0 t ∧
            t.fw.build = some { b with parts := SMap.put b.parts part (old b ++ data), delta := SMap.del b.delta part }) ∧
          (last = true → ¬fits → answered 0x12 6 t ∧ t.fw.build = none))) ∧
      (InSession s q 0x20 → s.fw.recovery = false → p = [0] → s.rd F.FW_STATUS_state = 2 → s.hop.armed = none →
        s.rd F.ONLINE_STATUS_state = 0 → s.ply.orders = [] → s.compatible = true → s.fwPly = false →
        Does (.hyActivate q) s (fun t => HyReplied t q 0x20 session 0 (beBytes 8 s.switchBoundary) ∧
          t.rd F.FW_STATUS_state = 3 ∧ t.fw.activateAt = some s.switchBoundary)) ∧
      (InSession s q 0x21 → p = [] → Does (.hyConfirm q) s (fun t =>
        (s.rd F.FW_STATUS_confirm = 1 → answered 0x21 0 t ∧ t.fw.commanded = true) ∧
        (s.rd F.FW_STATUS_confirm ≠ 1 → answered 0x21 9 t ∧ t.fw.commanded = s.fw.commanded)))) ∧
    (s.key = 3 → p = [] →
      (InSession s q 0x22 → Does (.hyRecover q) s (fun t => answered 0x22 0 t ∧ t.rd F.FW_STATUS_lifecycle = 2 ∧
        t.fw.recoverWanted = true)) ∧
      (InSession s q 0x23 → Does (.hyRetire q) s (fun t => answered 0x23 0 t ∧ t.rd F.FW_STATUS_lifecycle = 3 ∧
        t.hop.mram = [] ∧ t.tasks.retain = [] ∧ t.recorder.records = [] ∧ t.rd F.REC_STATUS_pointer = 0 ∧ t.fw.good = [] ∧
        (∀ n < 32, SMap.find t.fw.slots n = some []) ∧ t.image = s.image ∧ t.hop.active = s.hop.active))) ∧
    (s.fw.recoverWanted = true → s.rd F.FW_STATUS_lifecycle = 2 → Does .recoverReset s (fun t => t.fw.recovery = true ∧
      t.rd F.PWR_STATUS_rung = 4 ∧ t.rd F.PWR_CAUSE_kind = 5 ∧ ∀ d : Pd, t.pd d = (s.pd d && bitOf 0x80F d.bit))) ∧
    (∀ b, s.fw.recovery = true → s.wholeBuild = some b → Does .recoveryImageDone s (fun t =>
      t.rd F.FW_STATUS_slot = s.fwNext ∧ t.rd F.FW_STATUS_confirm = 1 ∧ t.rd F.FW_STATUS_lifecycle = 1 ∧
        t.fw.recovery = false ∧ s.fwNext ∈ t.fw.good ∧ t.rd F.PWR_CAUSE_from = 0 ∧
        SMap.find t.fw.manifests s.fwNext = some b.manifest ∧
        ∀ i < 16, SMap.find t.fw.slots (s.fwNext * 16 + i) = some (SMap.getD b.parts i [])))

/-- O50. The mill bus receives (R287, R372 to R376, R381). A frame enters the first receive buffer that takes it, replacing
the message there, which is an overrun if it was not read; it gives its mapped value and raises its urgent source; a
frame of no buffer only counts. A heartbeat is noted, and a follower's cycle starts at its reference. Selecting,
locking and releasing the read window, by reads or by time, are as R374 says. A mapped value enters its slot with
quality GOOD, or ERR where the frame was too short; with no frame in time the slot is STALE.
Each of these completes here: millFrameReceived, mbRdSelWrite, mbRdIdRead, mbRdStamp2Read, readLockTimeout,
millMapTaken, millMapStale. -/
def Obligations.MillFramesTakenAndRead : Prop :=
  ∀ (s : State) (c : Fin 2),
    let ch := c.val
    let sel := s.rd (F.MB_RD_SEL_buffer ch)
    let released := fun (t : State) => (t.millCh ch).locked = false ∧
      ∀ m, (s.millCh ch).locked = true → (s.millBuf ch sel).aside = some m →
        (t.millBuf ch sel).msg = some m ∧ (t.millBuf ch sel).aside = none
    (∀ f : CanFrame, s.chanHears ch = true → Does (.millFrameReceived c f) s (fun t =>
      (s.isHeartbeat ch f = true → t.rd F.PLY_STATUS_mill_hb_seen = 1) ∧
      (s.isReference ch f = true → s.act (F.MB_TT_CTRL_role ch) = 0 → (t.millCh ch).refSeen = true ∧
        t.rd (F.MB_TT_STATUS_cycle ch) = byteAt f.data 0 % 64 ∧ t.rd (F.MB_TT_STATUS_ref_ok ch) = 1) ∧
      (f.rtr = true ∨ (∀ b < 64, s.takesFrame ch f b = false) → MillCounted s t ch 5 ∧ t.image = s.image) ∧
      (∀ b < 64, f.rtr = false → s.takesFrame ch f b = true → (∀ j < b, s.takesFrame ch f j = false) →
        s.act (F.MB_BUF_CFG_urgent ch b) < 16 →
        let x := s.millBuf ch b
        let y := t.millBuf ch b
        y.newest.map (·.words) = some (frameWords f) ∧ y.read = false ∧ t.rd (F.MB_BUF_STATUS_full ch b) = 1 ∧
          MillCounted s t ch 1 ∧ t.image = s.image ∧
          (x.read = false → x.newest ≠ none → t.rd (F.MB_BUF_STATUS_overrun ch b) = 1 ∧ MillRaised t ch 7) ∧
          (s.act (F.MB_BUF_CFG_map_en ch b) = 1 → s.plyState ∉ [3, 4, 5] → y.mapped = some (s.mapValue ch b f.data)) ∧
          (s.act (F.MB_BUF_CFG_urgent_en ch b) = 1 →
            bitOf (t.rd (F.EVT_RAISED_raised 3)) (s.act (F.MB_BUF_CFG_urgent ch b)) = true)))) ∧
    (s.pd .hostsvc = true → sel < 64 →
      (∀ v : Word32, Does (.mbRdSelWrite c v) s (fun t => released t ∧ t.rd (F.MB_RD_SEL_buffer ch) = v.toNat % 64 ∧
        ((s.millCh ch).locked = true → t.rd (F.MB_BUF_STATUS_lock_lost ch sel) = 1) ∧
        (∀ m, (s.millCh ch).locked = false → s.millRole ch (v.toNat % 64) = 1 → (s.millBuf ch (v.toNat % 64)).msg = some m →
          m.words.length = 18 → t.rd (F.MB_RD_LEN_never ch) = 0 ∧ t.rd (F.MB_RD_LEN_len ch) = wordsLen m.words % 128 ∧
            ∀ i < 16, t.rd (F.MB_RD_DATA_data ch i) = ((m.words[i + 2]?).getD 0).toNat % 2 ^ 32))) ∧
      (s.millRole ch sel = 1 → (s.acAccess 0 0 0 (bar0Addr (0x9C04 + 0x1000 * ch)) 4).2 = true → Does (.mbRdIdRead c) s (fun t => (t.millCh ch).locked = true ∧
        (t.millBuf ch sel).read = true ∧ t.rd (F.MB_BUF_STATUS_overrun ch sel) = 0 ∧
        t.rd (F.MB_BUF_STATUS_lock_lost ch sel) = 0 ∧
        (∀ m, (s.millBuf ch sel).msg = some m → t.out = s.out ++ [.word (((m.words[0]?).getD 0).toNat % 2 ^ 32)]) ∧
        ((s.millBuf ch sel).msg = none → t.out = s.out ++ [.word 0]))) ∧
      ((s.acAccess 0 0 0 (bar0Addr (0x9C54 + 0x1000 * ch)) 4).2 = true → Does (.mbRdStamp2Read c) s (fun t => released t ∧
        t.out = s.out ++ [.word (s.rd (F.MB_RD_STAMP_2_frac ch))] ∧
        t.rd (F.MB_BUF_STATUS_lock_lost ch sel) = s.rd (F.MB_BUF_STATUS_lock_lost ch sel))) ∧
      Does (.readLockTimeout c) s (fun t => released t ∧
        ((s.millCh ch).locked = true → t.rd (F.MB_BUF_STATUS_lock_lost ch sel) = 1))) ∧
    (∀ b : Fin 64,
      let n := s.act (F.MB_BUF_MAP_map_slot ch b.val)
      let others := fun (t : State) => ∀ j, j ≠ n → t.cell j = s.cell j
      (∀ v, (s.millBuf ch b.val).mapped = some v → Does (.millMapTaken c b) s (fun t => others t ∧
        (t.millBuf ch b.val).mapped = none ∧ (t.cell n).entry =
          match v with
          | some q => ⟨q, 0⟩
          | none => ⟨(s.cell n).entry.value, (s.cell n).entry.tag ||| 32⟩)) ∧
      (s.chanOn ch = true → s.act (F.MB_BUF_CFG_map_en ch b.val) = 1 → s.millRole ch b.val = 1 →
        s.act (F.MB_BUF_CFG_tmo_ms ch b.val) ≠ 0 → Does (.millMapStale c b) s (fun t => others t ∧
          (t.cell n).entry = ⟨(s.cell n).entry.value, ((s.cell n).entry.tag &&& 0x3C) ||| 1⟩)))

/-- O51. The mill bus sends (R368, R377, R379 to R385, R388). A frame sent counts, lowers TEC and ends its message's wait; an
error raises TEC by 8, above 255 to bus-off, which holds every pending message until the recovery ends; three data
errors in the last 16 attempts of an identifier are a clash. Cycles, windows and arbitrating windows open and close; a
window without a send is missed. A message that waited becomes pending at its boundary. The ISO 11898-1 steps of the
error counters are the model's reading (log entry 70).
Each of these completes here: millFrameSent, millTxError, millRxError, mbCmdRestart, millRecovered,
millDominantTimeout, millCycleStart, millRefLost, millWindowStart, mbCmdUnmute, mbCmdClearCnt, arbitratingWindowEnd,
millWindowEnd, millSendPending, arbitratingWindowStart. -/
def Obligations.MillSendsErrorsAndSchedule : Prop :=
  ∀ (s : State) (c : Fin 2),
    let ch := c.val
    let cn := s.millCh ch
    let tec := s.rd (F.MB_STATUS_tec ch)
    let rec_ := s.rd (F.MB_STATUS_rec ch)
    (∀ src, s.mayTransmit ch src = true → tec ≤ 255 →
      let key := s.sourceIdent ch src
      Does (.millFrameSent c src) s (fun t => MillCounted s t ch 0 ∧ t.rd (F.MB_STATUS_tec ch) = tec - 1 ∧ ErrorState t ch ∧
        (∃ data, Out.mill ch key data ∈ t.out) ∧
        match src with
        | .buffer b => t.rd (F.MB_BUF_STATUS_pending ch b.val) = 0 ∧
            (s.millRole ch b.val = 4 → (t.millBuf ch b.val).sentInWindow = true)
        | .heartbeat => (t.millCh ch).heartbeat = none
        | .reference => (t.millCh ch).refPending = false ∧ t.rd (F.MB_TT_STATUS_master ch) = 1) ∧
      ∀ inData, Does (.millTxError c src inData) s (fun t => MillCounted s t ch 2 ∧ t.rd (F.MB_STATUS_tec ch) = tec + 8 ∧
        (tec + 8 ≤ 255 → ErrorState t ch) ∧
        (255 < tec + 8 → t.rd (F.MB_STATUS_state ch) = 3 ∧ MillRaised t ch 1 ∧ MillCounted s t ch 3 ∧
          t.rd (F.MB_STATUS_recovering ch) = s.act (F.MB_CTRL_auto_recover ch) % 2 ∧
          ∀ b < 64, t.rd (F.MB_BUF_STATUS_pending ch b) = 1 → t.rd (F.MB_BUF_STATUS_held ch b) = 1) ∧
        (inData = true → 3 ≤ ((true :: SMap.getD cn.history key []).take 16).countP id →
          t.rd (F.MB_CLASH_id ch) = key % 2 ^ 29 ∧ MillRaised t ch 3 ∧
          (s.act (F.MB_CTRL_clash_mute ch) = 1 → key ∈ (t.millCh ch).mutedIds)))) ∧
    (s.chanHears ch = true → ∀ n : Fin 9, Does (.millRxError c n) s (fun t => MillCounted s t ch 2 ∧
      (s.rd (F.MB_STATUS_muted ch) = 1 → t.rd (F.MB_STATUS_rec ch) = rec_) ∧
      (s.rd (F.MB_STATUS_muted ch) ≠ 1 → t.rd (F.MB_STATUS_rec ch) = min 255 (rec_ + n.val) ∧ ErrorState t ch))) ∧
    (s.chanOn ch = true →
      (s.rd (F.MB_STATUS_state ch) = 3 →
        Does (.mbCmdRestart c) s (fun t => t.rd (F.MB_STATUS_recovering ch) = 1) ∧
        (s.rd (F.MB_STATUS_recovering ch) = 1 → Does (.millRecovered c) s (fun t => t.rd (F.MB_STATUS_state ch) = 1 ∧
          t.rd (F.MB_STATUS_tec ch) = 0 ∧ t.rd (F.MB_STATUS_rec ch) = 0 ∧ MillRaised t ch 2 ∧
          ∀ b < 64, t.rd (F.MB_BUF_STATUS_held ch b) = 0))) ∧
      Does (.millDominantTimeout c) s (fun t => MillRaised t ch 8) ∧
      (s.act (F.MB_TT_CTRL_tt_en ch) = 1 →
        (s.act (F.MB_TT_CTRL_role ch) = 1 → Does (.millCycleStart c) s (fun t =>
          t.rd (F.MB_TT_STATUS_cycle ch) = s.cycleNow ch % 64 ∧ (t.millCh ch).arbOpen = false ∧
            ((t.millCh ch).refPending = true ↔
              s.rd (F.MB_STATUS_muted ch) ≠ 1 ∧ s.pastSecond ch (s.worstFrame ch false false 8) = false))) ∧
        (s.act (F.MB_TT_CTRL_role ch) ≠ 1 → Does (.millRefLost c) s (fun t => (t.millCh ch).refSeen = false ∧
          (t.millCh ch).window = none ∧ (t.millCh ch).arbOpen = false ∧ t.rd (F.MB_TT_STATUS_ref_ok ch) = 0 ∧
          MillRaised t ch 5)) ∧
        (∀ b : Fin 64, s.millRole ch b.val = 4 → s.pastSecond ch (s.windowWorst ch b.val) = false →
          s.rd (F.MB_TT_STATUS_cycle ch) % 2 ^ s.act (F.MB_BUF_TT_rep ch b.val) = s.act (F.MB_BUF_TT_off ch b.val) ∨
            s.ttRuns ch = false →
          Does (.millWindowStart c b) s (fun t => (t.millBuf ch b.val).windowOpen = true ∧
            (t.millBuf ch b.val).sentInWindow = false ∧
            (t.millCh ch).window = if s.ttRuns ch then some b.val else none)))) ∧
    (s.pd .hostsvc = true →
      Does (.mbCmdUnmute c) s (fun t => (t.millCh ch).mutedIds = [] ∧
        ∀ b < 64, t.rd (F.MB_BUF_STATUS_clash_muted ch b) = 0) ∧
      Does (.mbCmdClearCnt c) s (fun t => ∀ j < 6, t.rd (F.MB_CNT_count ch j) = 0) ∧
      Does (.arbitratingWindowEnd c) s (fun t => (t.millCh ch).arbOpen = false) ∧
      (∀ b : Fin 64, (s.millBuf ch b.val).windowOpen = true → Does (.millWindowEnd c b) s (fun t =>
        (t.millBuf ch b.val).windowOpen = false ∧ (t.millCh ch).window = none ∧
        ((s.millBuf ch b.val).sentInWindow = true → t.rd (F.MB_BUF_STATUS_missed ch b.val) = 0) ∧
        ((s.millBuf ch b.val).sentInWindow = false → t.rd (F.MB_BUF_STATUS_missed ch b.val) = 1 ∧ MillCounted s t ch 4 ∧
          MillRaised t ch 4))) ∧
      (∀ (b : Fin 64) (b0 : Nat) (words : List Word36), s.image.waiting = [(b0, .mill c b words)] → b0 ≤ s.turn.k →
        s.millRole ch b.val ∈ [2, 3, 4] → wordsIdent words = s.bufIdent ch b.val → s.tooLong ch b.val words = false →
        Does (.millSendPending c b) s (fun t => t.image.waiting = [] ∧ t.rd (F.MB_BUF_STATUS_pending ch b.val) = 1 ∧
          (t.millBuf ch b.val).msg.map (·.words) = some words ∧
          t.rd (F.MB_BUF_STATUS_replaced ch b.val) =
            (if s.rd (F.MB_BUF_STATUS_pending ch b.val) = 1 then min (s.rd (F.MB_BUF_STATUS_replaced ch b.val) + 1) 255
              else s.rd (F.MB_BUF_STATUS_replaced ch b.val)) ∧
          (s.host.millerUp = true → ∀ m ∈ t.host.outstanding, m.op = 0x80 → opByte m.cmd 24 = ch →
            opByte m.cmd 25 = b.val → ∀ x, m.boundary = some x → s.turn.k < x)))) ∧
    (s.ttRuns ch = true →
      s.pastSecond ch ((s.act (F.MB_TT_ARB_arb_end ch) - s.act (F.MB_TT_ARB_arb_start ch)) * perUs) = false →
      Does (.arbitratingWindowStart c) s (fun t => (t.millCh ch).arbOpen = true))

/-- O52. The host's accesses (R320, R346, R347, R400 to R404, R406, R408). A BAR2 access of which a region forbids a byte is
refused whole and recorded; one that passes reads or writes the bins or the DRAM, may read MRAM, and elsewhere aborts
or is dropped with HOST_ERR.bar2. A BAR0 write that is no aligned word is dropped with HOST_ERR bit 7, one refused has
no effect; a write of STG fields stages them. A region locks unless an armed commit changes it; a record is cleared by
a write of 1 to valid.
Each of these completes here: bar2Access, bar0RegisterWrite, acLockWrite, acViolClear. -/
def Obligations.HostAccessesJudged : Prop :=
  ∀ s : State, s.pd .hostsvc = true →
    let kept := fun (t : State) => t.mem = s.mem ∧ t.hop = s.hop ∧ t.image = s.image ∧ t.pwr = s.pwr
    (∀ (off : BitVec 28) (len : Fin 4097) (ecc : Bool),
      let a := s.rd F.BAR2_BASE_base * 0x10000000 + off.toNat
      let n := len.val
      let answers := fun (v : Option Bytes) (t : State) => t.out = s.out ++ [.bar v] ∧ kept t
      (∀ x r, FirstForbidden s 0 0 a n x r → Does (.bar2Access off len none ecc) s (fun t => Violated s t 0 0 1 n x r ∧
        kept t ∧ Out.bar none ∈ t.out ∧ ∀ b, Out.bar (some b) ∈ t.out → Out.bar (some b) ∈ s.out)) ∧
      (Passes s 0 0 a n →
        (InRam s a n → a + n ≤ 0x3000000 ∨ ecc = false → Does (.bar2Access off len none ecc) s
          (answers (some ((upTo n).map (fun i => s.memByte (a + i)))))) ∧
        (InRam s a n → 0x3000000 < a + n → ecc = true → Does (.bar2Access off len none ecc) s (answers none)) ∧
        (InMram s a n → Does (.bar2Access off len none ecc) s (fun t => ∃ b, b.length = n ∧ answers (some b) t)) ∧
        (¬InRam s a n → ¬InMram s a n → Does (.bar2Access off len none ecc) s (answers none))) ∧
      ∀ b : Bytes, b.length = n →
        (∀ x r, FirstForbidden s 0 1 a n x r → Does (.bar2Access off len (some b) ecc) s (fun t =>
          Violated s t 0 1 1 n x r ∧ kept t)) ∧
        (Passes s 0 1 a n →
          (InRam s a n → Does (.bar2Access off len (some b) ecc) s (fun t => Stored s t a b ∧ t.regs = s.regs ∧ t.out = s.out)) ∧
          (¬InRam s a n → Does (.bar2Access off len (some b) ecc) s (fun t => kept t ∧
            bitOf (t.rd F.HOST_ERR_err) 6 = true)))) ∧
    (∀ (off : BitVec 20) (v : Word32),
      let o := off.toNat
      (∀ aligned, aligned = false ∨ o % 4 ≠ 0 → Does (.bar0RegisterWrite off v aligned) s (fun t => kept t ∧
        bitOf (t.rd F.HOST_ERR_err) 7 = true)) ∧
      (o % 4 = 0 → unjudged o 1 v.toNat = false → ∀ x r, FirstForbidden s 0 1 (0x200000000 + o) 4 x r →
        Does (.bar0RegisterWrite off v true) s (fun t => Violated s t 0 1 0 4 x r ∧ kept t)) ∧
      (o % 4 = 0 → 0x20000 ≤ o → o < 0x80000 → Passes s 0 1 (0x200000000 + o) 4 →
        Does (.bar0RegisterWrite off v true) s (fun t => StagedAt s t o v.toNat))) ∧
    (s.pd .bins = true → ∀ u : Fin 4,
      (∀ v : Word32, Does (.acLockWrite u v) s (fun t => kept t ∧
        (∀ n < 32, bitOf (t.rd (F.AC_LOCK_lock u.val)) n =
          (bitOf (s.rd (F.AC_LOCK_lock u.val)) n || (bitOf v.toNat n && !s.regionArmed u.val n))) ∧
        ((∃ n < 32, bitOf v.toNat n = true ∧ s.regionArmed u.val n = true) →
          bitOf (t.rd F.AC_STATUS_lock_refused) u.val = true))) ∧
      Does (.acViolClear u) s (fun t => kept t ∧ t.rd (F.AC_VIOL_INFO_valid u.val) = 0 ∧
        t.rd (F.AC_VIOL_COUNT_count u.val) = s.rd (F.AC_VIOL_COUNT_count u.val)))

/-- O53. The general seal units (R393 to R395, R398). The host's writes to the miller's units are dropped. START begins a
stream at the seal of no bytes; a feed to a started unit continues the remainder over its bytes, lowest first, and
counts them, and one to a unit that is not started is dropped and noted; STOP keeps the result. Each leaves every other
unit alone.
Each of these completes here: gsStart, gsStop, gsFeedB, gsFeedH, gsFeedW. -/
def Obligations.GeneralSealUnits : Prop :=
  ∀ (s : State) (u : Fin 8) (host : Bool),
    let m := u.val
    let others := fun (t : State) => ∀ i : Fin 8, i ≠ u → t.sealRem i.val = s.sealRem i.val ∧ t.gsBusy i.val = s.gsBusy i.val ∧
      t.rd (F.GS_RESULT_seal i.val) = s.rd (F.GS_RESULT_seal i.val) ∧ t.rd (F.GS_COUNT_bytes i.val) = s.rd (F.GS_COUNT_bytes i.val)
    let fed := fun (b : Bytes) (t : State) => others t ∧ t.gsBusy m = s.gsBusy m ∧
      (s.gsBusy m = true → t.sealRem m = crcRun (s.sealRem m) b ∧
        t.rd (F.GS_RESULT_seal m) = (crcRun (s.sealRem m) b ^^^ 0xFFFFFFFF) % 2 ^ 32 ∧
        t.rd (F.GS_COUNT_bytes m) = min (s.rd (F.GS_COUNT_bytes m) + b.length) (2 ^ 32 - 1)) ∧
      (s.gsBusy m = false → t.sealRem m = s.sealRem m ∧ bitOf (t.rd F.SEAL_STATUS_idle_feed) m = true ∧
        t.rd (F.GS_RESULT_seal m) = s.rd (F.GS_RESULT_seal m))
    (host = true → m < 4 → ∀ (b : Byte) (h : BitVec 16) (w : Word32), ∀ c : Instr,
      c ∈ [Instr.gsStart u host, .gsStop u host, .gsFeedB u host b, .gsFeedH u host h, .gsFeedW u host w] →
        Does c s (fun t => t = s)) ∧
    (s.pd .bins = true → (host = true → 4 ≤ m) →
      Does (.gsStart u host) s (fun t => others t ∧ t.gsBusy m = true ∧ t.sealRem m = 0xFFFFFFFF ∧
        t.rd (F.GS_RESULT_seal m) = 0 ∧ t.rd (F.GS_COUNT_bytes m) = 0) ∧
      Does (.gsStop u host) s (fun t => others t ∧ t.gsBusy m = false ∧ t.sealRem m = s.sealRem m ∧
        t.rd (F.GS_RESULT_seal m) = s.rd (F.GS_RESULT_seal m)) ∧
      (∀ b : Byte, Does (.gsFeedB u host b) s (fed [b])) ∧
      (∀ h : BitVec 16, Does (.gsFeedH u host h) s (fed [h.setWidth 8, (h >>> 8).setWidth 8])) ∧
      ∀ w : Word32, Does (.gsFeedW u host w) s
        (fed [w.setWidth 8, (w >>> 8).setWidth 8, (w >>> 16).setWidth 8, (w >>> 24).setWidth 8]))

/-- O54. The test and debug access port (R399, R402, R404, R410, R411). The instructions' registers shift out what R410 names.
EXTEST and CLAMP act only at STOP in STARTING or ABDICATED, else as BYPASS, noted. A debug access passes the DEBUG unit:
a refused read gives zeros and an error, a refused write an error alone; one that passes reads or writes memory, reads a
register, or stages.
Each of these completes here: trst, bypass, idcode, samplePreload, extest, clamp, dbgAddr, dbgStatus, dbgAcstat,
dbgDataCapture, dbgDataUpdate. -/
def Obligations.DebugPort : Prop :=
  ∀ s : State,
    let shifts := fun (ir v : Nat) (t : State) => t.dbg.ir = ir ∧ t.out = s.out ++ [.debug v] ∧ t.regs = s.regs ∧
      t.mem = s.mem
    let off := s.dbgTarget - 0x200000000
    let data := fun (v : Nat) (err : Bool) (t : State) => t.dbg.data = v ∧ t.dbg.error = err
    let bar0 := 0x200000000 ≤ s.dbgTarget ∧ s.dbgTarget + 4 ≤ 0x200100000 ∧ s.dbgTarget % 4 = 0 ∧ s.dbgLen = 4
    Does .trst s (fun t => t = { s with dbg := DebugSt.cold }) ∧
    Does .bypass s (shifts 0xFF 0) ∧ Does .idcode s (shifts 0x01 0x10018F0D) ∧
    (∀ cells : List Bool,
      Does (.samplePreload cells) s (fun t => t.dbg.boundary = cells ∧ t.dbg.driven = false ∧ ∃ v, shifts 0x02 v t) ∧
      (s.key = 3 → s.plyState = 0 ∨ s.plyState = 6 → Does (.extest cells) s (fun t => t.dbg.boundary = cells ∧
        t.dbg.driven = true ∧ ∃ v, shifts 0x00 v t)) ∧
      (s.key ≠ 3 ∨ s.plyState ∉ [0, 6] → Does (.extest cells) s (fun t => shifts 0xFF 0 t ∧ t.dbg.refused = true ∧
        t.dbg.driven = false))) ∧
    (s.key = 3 → s.plyState = 0 ∨ s.plyState = 6 → Does .clamp s (fun t => shifts 0x03 0 t ∧ t.dbg.clamped = true)) ∧
    (s.key ≠ 3 ∨ s.plyState ∉ [0, 6] → Does .clamp s (fun t => shifts 0xFF 0 t ∧ t.dbg.refused = true ∧
      t.dbg.clamped = false)) ∧
    (∀ v : BitVec 40, Does (.dbgAddr v) s (fun t => shifts 0x20 s.dbg.addr t ∧ t.dbg.addr = v.toNat)) ∧
    Does .dbgStatus s (shifts 0x22 (bit s.dbg.busy + 2 * bit s.dbg.error + 4 * bit s.dbg.refused)) ∧
    Does .dbgAcstat s (fun t => ∃ v, v < 2 ^ 512 ∧ v % 2 ^ 32 = s.bar0Word 0xC010 % 2 ^ 32 ∧ shifts 0x23 v t) ∧
    (s.dbgWrites = true → Does .dbgDataCapture s (shifts 0x21 s.dbg.data)) ∧
    (s.dbgWrites = false →
      (∀ x r, FirstForbidden s 1 0 s.dbgTarget s.dbgLen x r → (bar0 → unjudged off 0 0 = false) → (bar0 ∨ ¬inBar0 s.dbgTarget) →
        Does .dbgDataCapture s (fun t => data 0 true t ∧ Violated s t 1 0 0 s.dbgLen x r ∧ Out.debug 0 ∈ t.out)) ∧
      (Passes s 1 0 s.dbgTarget s.dbgLen →
        (InRam s s.dbgTarget s.dbgLen → Does .dbgDataCapture s (fun t =>
          let v := leNat ((upTo s.dbgLen).map (fun i => s.memByte (s.dbgTarget + i)))
          data v false t ∧ shifts 0x21 v t)) ∧
        (bar0 → off ∉ [0x9C04, 0xAC04, 0x9C54, 0xAC54] → Does .dbgDataCapture s (fun t => data (s.bar0Word off) false t ∧ t.out = s.out ++ [.debug (s.bar0Word off)])) ∧
        (¬InRam s s.dbgTarget s.dbgLen → ¬InMram s s.dbgTarget s.dbgLen → ¬inBar0 s.dbgTarget →
          Does .dbgDataCapture s (fun t => data 0 true t ∧ shifts 0x21 0 t)))) ∧
    (s.dbgWrites = true → ∀ v : Word32,
      (∀ x r, FirstForbidden s 1 1 s.dbgTarget s.dbgLen x r → ¬inBar0 s.dbgTarget → Does (.dbgDataUpdate v) s (fun t =>
        t.dbg.error = true ∧ t.mem = s.mem ∧ Violated s t 1 1 0 s.dbgLen x r)) ∧
      (Passes s 1 1 s.dbgTarget s.dbgLen →
        (InRam s s.dbgTarget s.dbgLen → Does (.dbgDataUpdate v) s (fun t => data v.toNat false t ∧
          Stored s t s.dbgTarget (leBytes s.dbgLen v.toNat))) ∧
        (bar0 → 0x20000 ≤ off → off < 0x80000 → Does (.dbgDataUpdate v) s (fun t => data v.toNat false t ∧
          StagedAt s t off v.toNat))))

/-- O55. A step takes the command at the front of the queue and answers what its meaning answers on the queue's rest. With no
command waiting, the time engine ticks once and nothing else changes; while PD_TIME is off, only the keep island's
calendar counts on, by one period of its crystal of 32,768 in a second (R11, R237, R265; the tick on an empty queue is the model's choice, log entry 3). The table gives no row any bits, so no word spells a
command (log entry 8). -/
def Obligations.StepRunsTheFrontCommand : Prop :=
  (∀ (s : State) (c : Instr) (rest : List Instr), s.pending = c :: rest → step s = exec c { s with pending := rest }) ∧
    (∀ s : State, s.pending = [] → s.pd .time = false → ∃ t, step s = .next t ∧
      t = { s with time := { s.time with calendar := t.time.calendar, calPart := t.time.calPart } } ∧
      t.time.calendar * calSecond + t.time.calPart = s.time.calendar * calSecond + s.time.calPart + calSecond / 32768) ∧
    (∀ s : State, s.pending = [] → s.pd .time = true → ∃ t, step s = .next t ∧ t.pending = [] ∧
      t.time.ticks = s.time.ticks + 1 ∧ t.image = s.image ∧ t.turn = s.turn ∧ t.out = s.out ∧
      (s.time.workSet = false → t.time.work = s.time.work)) ∧
    ∀ n w, decodeTableWord n w = none

/-- O56. After a cold start (R277, R345, R409, R410, R463; the values that the spec does not give are the model's choices, log
entry 5) no command waits, memory is in canonical form, the module is STARTING with its turn engine stopped and every
domain on, nothing is forced, the staged copy equals the active one, no region is locked, no violation is recorded, and
the test port shows IDCODE. -/
def Obligations.ResetState : Prop :=
  let s := State.reset
  s.pending = [] ∧ s.out = [] ∧ Memory.wf s.mem = true ∧ s.plyState = 0 ∧ s.rd F.TURN_STATUS_running = 0 ∧
    s.rd F.PWR_STATUS_rung = 0 ∧ (∀ d : Pd, s.pd d = true) ∧ s.image.forces = [] ∧ s.hop.staged = s.hop.active ∧
    s.hop.armed = none ∧ s.dbg.ir = 0x01 ∧
    ∀ u < 4, s.rd (F.AC_LOCK_lock u) = 0 ∧ s.rd (F.AC_VIOL_INFO_valid u) = 0 ∧ s.rd (F.AC_VIOL_COUNT_count u) = 0

/-- O57. Every command completes, and it leaves the queue, what was sent before, and every unit outside its footprint as they
are. -/
def Obligations.CommandsKeepTheirUnits : Prop :=
  ∀ (c : Instr) (s : State), ∃ t, exec c s = .next t ∧ t.pending = s.pending ∧ s.out <+: t.out ∧ s.fresh ≤ t.fresh ∧
    ∀ p : Part, p ∉ footprint c → Same p s t

/-- O58. Of the commands named, none changes a register outside its banks (R4, R14). The event bank takes what an event
source raises, and the bank of violations a refused event record (R335, R404, R408). -/
def Obligations.RegistersLeftAlone : Prop :=
  ∀ (c : Instr) (B : List Bank) (s t : State), registerFrame c = some B → exec c s = .next t → RegsIn B s t

/-- O59. Every step keeps memory in canonical form: addresses rising, no cell listed that an unlisted address would read
as. -/
def Obligations.CanonicalMemoryIsKept : Prop :=
  ∀ s t : State, Memory.wf s.mem = true → step s = .next t → Memory.wf t.mem = true

/-- O60. What changes what (R25, R27, R148, R345, R428). The active settings change only at a commit's
boundary, at a JOIN, at a reset, or where the bins or the firmware start anew; the programs that run likewise. The
turn number changes only with the turn engine, or with those; a firmware slot only by a build, a retirement or the
recovery ROM. -/
def Obligations.WhatChangesWhat : Prop :=
  ∀ (c : Instr) (s t : State), exec c s = .next t →
    let anew := c ∈ [Instr.recoveryImageDone, .rungStepDone, .commandedColdStart] ∨ ∃ a b d, c = .inputGood a b d
    let resets := c ∈ [Instr.warmReset, .autoRestart, .partnerOrderedReset, .recoverReset]
    let joins := ∃ h j, c = .plyJoinReceived h j
    (t.hop.active ≠ s.hop.active → c = .commitApply ∨ joins ∨ resets ∨ anew) ∧
    (t.progs.active ≠ s.progs.active → c = .commitApply ∨ joins ∨ anew) ∧
    (t.turn.k ≠ s.turn.k → c ∈ [Instr.turnEngineStart, .turnBoundary] ∨ joins ∨ resets ∨ anew) ∧
    (t.fw.slots ≠ s.fw.slots → c ∈ [Instr.fwBuildDone, .recoveryImageDone] ∨ ∃ q, c = .hyRetire q)
end

