-- ==== Sys2Proof/Laws/Store.lean ====
section
/-! SUPPORT. The laws of sparse maps (a read after a write, and what a write leaves alone), and the canonical form
of memory, which every memory operation keeps. -/

namespace Sys2Proof.Machine

/-- A key put reads as the value put. -/
@[simp] theorem SMap.find_put_same {α : Type} (m : SMap α) (x : Nat) (v : α) : SMap.find (SMap.put m x v) x = some v := by
  induction m with
  | nil => simp [SMap.put, SMap.find]
  | cons e m ih =>
    obtain ⟨k, u⟩ := e
    simp only [SMap.put]
    split
    · simp [SMap.find]
    · split
      · simp [SMap.find]
      · next hk => simp [SMap.find, hk, ih]

/-- A put leaves every other key as it was. -/
theorem SMap.find_put_ne {α : Type} (m : SMap α) {x y : Nat} (v : α) (h : x ≠ y) :
    SMap.find (SMap.put m x v) y = SMap.find m y := by
  induction m with
  | nil => simp [SMap.put, SMap.find, h]
  | cons e m ih =>
    obtain ⟨k, u⟩ := e
    simp only [SMap.put]
    split
    · simp [SMap.find, h]
    · split
      · next hk => subst hk; simp [SMap.find, h]
      · simp [SMap.find, ih]

/-- A deleted key is not listed. -/
@[simp] theorem SMap.find_del_same {α : Type} (m : SMap α) (x : Nat) : SMap.find (SMap.del m x) x = none := by
  induction m with
  | nil => rfl
  | cons e m ih =>
    obtain ⟨k, u⟩ := e
    simp only [SMap.del]
    split
    · exact ih
    · next hk => simp [SMap.find, hk, ih]

/-- A deletion leaves every other key as it was. -/
theorem SMap.find_del_ne {α : Type} (m : SMap α) {x y : Nat} (h : x ≠ y) :
    SMap.find (SMap.del m x) y = SMap.find m y := by
  induction m with
  | nil => rfl
  | cons e m ih =>
    obtain ⟨k, u⟩ := e
    simp only [SMap.del]
    split
    · next hk => subst hk; simp [SMap.find, h, ih]
    · simp [SMap.find, ih]

/-- A canonical write reads back. -/
@[simp] theorem SMap.getD_set_same {α : Type} [DecidableEq α] (m : SMap α) (x : Nat) (d v : α) :
    SMap.getD (SMap.set m x d v) x d = v := by
  unfold SMap.set SMap.getD
  split
  · next h => simp [h]
  · simp

/-- A canonical write leaves every other key as it was. -/
theorem SMap.find_set_ne {α : Type} [DecidableEq α] (m : SMap α) {x y : Nat} (d v : α) (h : x ≠ y) :
    SMap.find (SMap.set m x d v) y = SMap.find m y := by
  unfold SMap.set
  split
  · exact SMap.find_del_ne m h
  · exact SMap.find_put_ne m v h

/-- A key put reads as the value put, whatever the default. -/
@[simp] theorem SMap.getD_put_same {α : Type} (m : SMap α) (x : Nat) (v d : α) : SMap.getD (SMap.put m x v) x d = v := by
  simp [SMap.getD]

/-- A put leaves every other key as it was, whatever the default. -/
theorem SMap.getD_put_ne {α : Type} (m : SMap α) {x y : Nat} (v d : α) (h : x ≠ y) :
    SMap.getD (SMap.put m x v) y d = SMap.getD m y d := by
  simp [SMap.getD, SMap.find_put_ne m v h]

/-- Keys rise from an entry on when every later key is above its key. -/
theorem SMap.rising_cons {α : Type} (k : Nat) (v : α) (m : SMap α) :
    SMap.rising ((k, v) :: m) = true ↔ (∀ e ∈ m, k < e.1) ∧ SMap.rising m = true := by
  induction m generalizing k v with
  | nil => simp [SMap.rising]
  | cons e m ih =>
    obtain ⟨b, w⟩ := e
    simp only [SMap.rising, Bool.and_eq_true, decide_eq_true_eq, List.mem_cons, forall_eq_or_imp]
    refine ⟨fun h => ⟨⟨h.1, fun e he => Nat.lt_trans h.1 (((ih b w).1 h.2).1 e he)⟩, h.2⟩, fun h => ⟨h.1.1, h.2⟩⟩

/-- A test of every entry, by membership. -/
theorem SMap.entries_iff {α : Type} (p : Nat → α → Bool) (m : SMap α) :
    SMap.entries p m = true ↔ ∀ e ∈ m, p e.1 e.2 = true := by
  induction m with
  | nil => simp [SMap.entries]
  | cons e m ih => simp [SMap.entries, ih]

/-- The canonical form of memory: keys rise and no entry holds what an unlisted byte reads as. -/
theorem Memory.wf_iff (m : List Host.Cell) :
    Memory.wf m = true ↔ SMap.rising m = true ∧ ∀ e ∈ m, e.2 ≠ memDefault := by
  simp [Memory.wf, SMap.entries_iff]

/-- A deletion adds no entry. -/
theorem SMap.mem_del {α : Type} {m : SMap α} {x : Nat} {e : Nat × α} (h : e ∈ SMap.del m x) : e ∈ m := by
  induction m with
  | nil => exact h
  | cons c m ih =>
    obtain ⟨k, u⟩ := c
    simp only [SMap.del] at h
    split at h
    · exact List.mem_cons_of_mem _ (ih h)
    · rcases List.mem_cons.1 h with h | h
      · exact h ▸ List.mem_cons_self
      · exact List.mem_cons_of_mem _ (ih h)

/-- A deletion keeps the keys rising. -/
theorem SMap.rising_del {α : Type} {m : SMap α} (x : Nat) (h : SMap.rising m = true) :
    SMap.rising (SMap.del m x) = true := by
  induction m with
  | nil => rfl
  | cons c m ih =>
    obtain ⟨k, u⟩ := c
    have hm := (SMap.rising_cons k u m).1 h
    simp only [SMap.del]
    split
    · exact ih hm.2
    · exact (SMap.rising_cons _ _ _).2 ⟨fun e he => hm.1 e (SMap.mem_del he), ih hm.2⟩

/-- A put adds one entry. -/
theorem SMap.mem_put {α : Type} {m : SMap α} {x : Nat} {v : α} {e : Nat × α} (h : e ∈ SMap.put m x v) :
    e = (x, v) ∨ e ∈ m := by
  induction m with
  | nil => exact Or.inl (List.mem_singleton.1 h)
  | cons c m ih =>
    obtain ⟨k, u⟩ := c
    simp only [SMap.put] at h
    split at h
    · exact List.mem_cons.1 h
    · split at h
      · exact (List.mem_cons.1 h).imp id (List.mem_cons_of_mem _)
      · rcases List.mem_cons.1 h with h | h
        · exact Or.inr (h ▸ List.mem_cons_self)
        · exact (ih h).imp id (List.mem_cons_of_mem _)

/-- A put keeps the keys rising. -/
theorem SMap.rising_put {α : Type} {m : SMap α} (x : Nat) (v : α) (h : SMap.rising m = true) :
    SMap.rising (SMap.put m x v) = true := by
  induction m with
  | nil => rfl
  | cons c m ih =>
    obtain ⟨k, u⟩ := c
    have hm := (SMap.rising_cons k u m).1 h
    simp only [SMap.put]
    split
    · next hx =>
      refine (SMap.rising_cons _ _ _).2 ⟨fun e he => ?_, h⟩
      rcases List.mem_cons.1 he with he | he
      · exact he ▸ hx
      · exact Nat.lt_trans hx (hm.1 e he)
    · split
      · next hk => exact (SMap.rising_cons _ _ _).2 ⟨fun e he => hk ▸ hm.1 e he, hm.2⟩
      · refine (SMap.rising_cons _ _ _).2 ⟨fun e he => ?_, ih hm.2⟩
        rcases SMap.mem_put he with he | he
        · subst he; dsimp only; omega
        · exact hm.1 e he

/-- One byte written keeps the canonical form. -/
theorem Memory.wf_set {m : List Host.Cell} (a : Nat) (b : Byte) (h : Memory.wf m = true) :
    Memory.wf (SMap.set m a memDefault b) = true := by
  rw [Memory.wf_iff] at h ⊢
  unfold SMap.set
  split
  · exact ⟨SMap.rising_del a h.1, fun e he => h.2 e (SMap.mem_del he)⟩
  · next hb =>
    refine ⟨SMap.rising_put a b h.1, fun e he => ?_⟩
    rcases SMap.mem_put he with he | he
    · exact he ▸ hb
    · exact h.2 e he

/-- A run of bytes written keeps the canonical form. -/
theorem memPut_wf {m : List Host.Cell} (a : Nat) (b : Bytes) (h : Memory.wf m = true) : Memory.wf (memPut m a b) = true := by
  induction b generalizing m a with
  | nil => exact h
  | cons c b ih => exact ih _ (Memory.wf_set a c h)

/-- Bytes lost keep the canonical form. -/
theorem Memory.wf_filter {m : List Host.Cell} (p : Host.Cell → Bool) (h : Memory.wf m = true) :
    Memory.wf (m.filter p) = true := by
  rw [Memory.wf_iff] at h ⊢
  refine ⟨?_, fun e he => h.2 e (List.mem_filter.1 he).1⟩
  have hr := h.1
  clear h
  induction m with
  | nil => rfl
  | cons c m ih =>
    obtain ⟨k, u⟩ := c
    have hm := (SMap.rising_cons k u m).1 hr
    rw [List.filter_cons]
    split
    · exact (SMap.rising_cons _ _ _).2 ⟨fun e he => hm.1 e (List.mem_filter.1 he).1, ih hm.2⟩
    · exact ih hm.2

/-- Memory after reset is canonical. -/
theorem Memory.wf_reset : Memory.wf State.reset.mem = true := rfl

/-- A run of bytes written leaves every byte outside it as it was. -/
theorem memPut_find_ne {m : List Host.Cell} (a : Nat) (b : Bytes) (x : Nat) (h : x < a ∨ a + b.length ≤ x) :
    SMap.find (memPut m a b) x = SMap.find m x := by
  induction b generalizing m a with
  | nil => rfl
  | cons c b ih =>
    simp only [List.length_cons] at h
    simp only [memPut]
    rw [ih (a + 1) (by omega), SMap.find_set_ne m _ _ (by omega)]

end Sys2Proof.Machine
end

