-- ==== Sys2Proof/Laws/Regs.lean ====
section
/-! SUPPORT. The laws of register fields: a field written reads back, cut to its width, and a write leaves every
other field as it was. -/

namespace Sys2Proof.Machine

/-- Two fields with one key are at one offset and one bit. -/
theorem Fld.key_inj {f g : Fld} (hf : f.lo < 32) (hg : g.lo < 32) (h : f.key = g.key) : f.off = g.off ∧ f.lo = g.lo := by
  unfold Fld.key at h
  omega

/-- A field at another offset has another key. -/
theorem Fld.key_ne_off {f g : Fld} (hf : f.lo < 32) (hg : g.lo < 32) (h : f.off ≠ g.off) : f.key ≠ g.key :=
  fun e => h (Fld.key_inj hf hg e).1

/-- A field at another bit has another key. -/
theorem Fld.key_ne_lo {f g : Fld} (hf : f.lo < 32) (hg : g.lo < 32) (h : f.lo ≠ g.lo) : f.key ≠ g.key :=
  fun e => h (Fld.key_inj hf hg e).2

/-- A field written reads as the value, cut to its width. -/
@[simp] theorem State.rd_wr_same (s : State) (f : Fld) (v : Nat) : (s.wr f v).rd f = v % 2 ^ f.width :=
  SMap.getD_set_same _ _ _ _

/-- A write leaves a field with another key as it was. -/
theorem State.rd_wr_ne (s : State) (f g : Fld) (v : Nat) (h : f.key ≠ g.key) : (s.wr f v).rd g = s.rd g := by
  simp only [State.rd, State.wr, RegMap.get, RegMap.set, SMap.getD, SMap.find_set_ne _ _ _ h]

/-- A write of a Boolean leaves a field with another key as it was. -/
theorem State.rd_wrb_ne (s : State) (f g : Fld) (b : Bool) (h : f.key ≠ g.key) : (s.wrb f b).rd g = s.rd g :=
  State.rd_wr_ne s f g _ h

/-- A count leaves a field with another key as it was. -/
theorem State.rd_add_ne (s : State) (f g : Fld) (n : Nat) (h : f.key ≠ g.key) : (s.add f n).rd g = s.rd g :=
  State.rd_wr_ne s f g _ h

/-- A count saturates at its field's width. -/
theorem State.rd_add_same (s : State) (f : Fld) (n : Nat) : (s.add f n).rd f = min (s.rd f + n) (2 ^ f.width - 1) := by
  have h : 0 < 2 ^ f.width := Nat.two_pow_pos _
  rw [State.add, State.rd_wr_same, Nat.mod_eq_of_lt (by omega)]

/-- A register map changed only at a field leaves the others. -/
theorem RegMap.get_set_ne (m : RegMap) (f g : Fld) (v : Nat) (h : f.key ≠ g.key) : RegMap.get (RegMap.set m f v) g = RegMap.get m g := by
  simp only [RegMap.get, RegMap.set, SMap.getD, SMap.find_set_ne _ _ _ h]

/-- A field of a register map written reads as the value, cut to its width. -/
@[simp] theorem RegMap.get_set_same (m : RegMap) (f : Fld) (v : Nat) : RegMap.get (RegMap.set m f v) f = v % 2 ^ f.width :=
  SMap.getD_set_same _ _ _ _

end Sys2Proof.Machine
end

