-- ==== Sys2Proof/Laws/State.lean ====
section
/-! SUPPORT. What the shared updates of a state leave: one lemma per field and update, each true by unfolding. -/

namespace Sys2Proof.Machine

@[simp] theorem State.wr_caps (s : State) (f : Fld) (v : Nat) : (s.wr f v).caps = s.caps := rfl
@[simp] theorem State.wr_turn (s : State) (f : Fld) (v : Nat) : (s.wr f v).turn = s.turn := rfl
@[simp] theorem State.wr_image (s : State) (f : Fld) (v : Nat) : (s.wr f v).image = s.image := rfl
@[simp] theorem State.wr_skein (s : State) (f : Fld) (v : Nat) : (s.wr f v).skein = s.skein := rfl
@[simp] theorem State.wr_tasks (s : State) (f : Fld) (v : Nat) : (s.wr f v).tasks = s.tasks := rfl
@[simp] theorem State.wr_progs (s : State) (f : Fld) (v : Nat) : (s.wr f v).progs = s.progs := rfl
@[simp] theorem State.wr_loops (s : State) (f : Fld) (v : Nat) : (s.wr f v).loops = s.loops := rfl
@[simp] theorem State.wr_trace (s : State) (f : Fld) (v : Nat) : (s.wr f v).trace = s.trace := rfl
@[simp] theorem State.wr_ring (s : State) (f : Fld) (v : Nat) : (s.wr f v).ring = s.ring := rfl
@[simp] theorem State.wr_time (s : State) (f : Fld) (v : Nat) : (s.wr f v).time = s.time := rfl
@[simp] theorem State.wr_ply (s : State) (f : Fld) (v : Nat) : (s.wr f v).ply = s.ply := rfl
@[simp] theorem State.wr_brake (s : State) (f : Fld) (v : Nat) : (s.wr f v).brake = s.brake := rfl
@[simp] theorem State.wr_host (s : State) (f : Fld) (v : Nat) : (s.wr f v).host = s.host := rfl
@[simp] theorem State.wr_hop (s : State) (f : Fld) (v : Nat) : (s.wr f v).hop = s.hop := rfl
@[simp] theorem State.wr_mill (s : State) (f : Fld) (v : Nat) : (s.wr f v).mill = s.mill := rfl
@[simp] theorem State.wr_seals (s : State) (f : Fld) (v : Nat) : (s.wr f v).seals = s.seals := rfl
@[simp] theorem State.wr_dbg (s : State) (f : Fld) (v : Nat) : (s.wr f v).dbg = s.dbg := rfl
@[simp] theorem State.wr_recorder (s : State) (f : Fld) (v : Nat) : (s.wr f v).recorder = s.recorder := rfl
@[simp] theorem State.wr_fw (s : State) (f : Fld) (v : Nat) : (s.wr f v).fw = s.fw := rfl
@[simp] theorem State.wr_pwr (s : State) (f : Fld) (v : Nat) : (s.wr f v).pwr = s.pwr := rfl
@[simp] theorem State.wr_mem (s : State) (f : Fld) (v : Nat) : (s.wr f v).mem = s.mem := rfl
@[simp] theorem State.wr_out (s : State) (f : Fld) (v : Nat) : (s.wr f v).out = s.out := rfl
@[simp] theorem State.wr_fresh (s : State) (f : Fld) (v : Nat) : (s.wr f v).fresh = s.fresh := rfl
@[simp] theorem State.wr_pending (s : State) (f : Fld) (v : Nat) : (s.wr f v).pending = s.pending := rfl

@[simp] theorem State.wrb_caps (s : State) (f : Fld) (b : Bool) : (s.wrb f b).caps = s.caps := rfl
@[simp] theorem State.wrb_turn (s : State) (f : Fld) (b : Bool) : (s.wrb f b).turn = s.turn := rfl
@[simp] theorem State.wrb_image (s : State) (f : Fld) (b : Bool) : (s.wrb f b).image = s.image := rfl
@[simp] theorem State.wrb_skein (s : State) (f : Fld) (b : Bool) : (s.wrb f b).skein = s.skein := rfl
@[simp] theorem State.wrb_tasks (s : State) (f : Fld) (b : Bool) : (s.wrb f b).tasks = s.tasks := rfl
@[simp] theorem State.wrb_progs (s : State) (f : Fld) (b : Bool) : (s.wrb f b).progs = s.progs := rfl
@[simp] theorem State.wrb_loops (s : State) (f : Fld) (b : Bool) : (s.wrb f b).loops = s.loops := rfl
@[simp] theorem State.wrb_trace (s : State) (f : Fld) (b : Bool) : (s.wrb f b).trace = s.trace := rfl
@[simp] theorem State.wrb_ring (s : State) (f : Fld) (b : Bool) : (s.wrb f b).ring = s.ring := rfl
@[simp] theorem State.wrb_time (s : State) (f : Fld) (b : Bool) : (s.wrb f b).time = s.time := rfl
@[simp] theorem State.wrb_ply (s : State) (f : Fld) (b : Bool) : (s.wrb f b).ply = s.ply := rfl
@[simp] theorem State.wrb_brake (s : State) (f : Fld) (b : Bool) : (s.wrb f b).brake = s.brake := rfl
@[simp] theorem State.wrb_host (s : State) (f : Fld) (b : Bool) : (s.wrb f b).host = s.host := rfl
@[simp] theorem State.wrb_hop (s : State) (f : Fld) (b : Bool) : (s.wrb f b).hop = s.hop := rfl
@[simp] theorem State.wrb_mill (s : State) (f : Fld) (b : Bool) : (s.wrb f b).mill = s.mill := rfl
@[simp] theorem State.wrb_seals (s : State) (f : Fld) (b : Bool) : (s.wrb f b).seals = s.seals := rfl
@[simp] theorem State.wrb_dbg (s : State) (f : Fld) (b : Bool) : (s.wrb f b).dbg = s.dbg := rfl
@[simp] theorem State.wrb_recorder (s : State) (f : Fld) (b : Bool) : (s.wrb f b).recorder = s.recorder := rfl
@[simp] theorem State.wrb_fw (s : State) (f : Fld) (b : Bool) : (s.wrb f b).fw = s.fw := rfl
@[simp] theorem State.wrb_pwr (s : State) (f : Fld) (b : Bool) : (s.wrb f b).pwr = s.pwr := rfl
@[simp] theorem State.wrb_mem (s : State) (f : Fld) (b : Bool) : (s.wrb f b).mem = s.mem := rfl
@[simp] theorem State.wrb_out (s : State) (f : Fld) (b : Bool) : (s.wrb f b).out = s.out := rfl
@[simp] theorem State.wrb_fresh (s : State) (f : Fld) (b : Bool) : (s.wrb f b).fresh = s.fresh := rfl
@[simp] theorem State.wrb_pending (s : State) (f : Fld) (b : Bool) : (s.wrb f b).pending = s.pending := rfl

@[simp] theorem State.add_caps (s : State) (f : Fld) (n : Nat) : (s.add f n).caps = s.caps := rfl
@[simp] theorem State.add_turn (s : State) (f : Fld) (n : Nat) : (s.add f n).turn = s.turn := rfl
@[simp] theorem State.add_image (s : State) (f : Fld) (n : Nat) : (s.add f n).image = s.image := rfl
@[simp] theorem State.add_skein (s : State) (f : Fld) (n : Nat) : (s.add f n).skein = s.skein := rfl
@[simp] theorem State.add_tasks (s : State) (f : Fld) (n : Nat) : (s.add f n).tasks = s.tasks := rfl
@[simp] theorem State.add_progs (s : State) (f : Fld) (n : Nat) : (s.add f n).progs = s.progs := rfl
@[simp] theorem State.add_loops (s : State) (f : Fld) (n : Nat) : (s.add f n).loops = s.loops := rfl
@[simp] theorem State.add_trace (s : State) (f : Fld) (n : Nat) : (s.add f n).trace = s.trace := rfl
@[simp] theorem State.add_ring (s : State) (f : Fld) (n : Nat) : (s.add f n).ring = s.ring := rfl
@[simp] theorem State.add_time (s : State) (f : Fld) (n : Nat) : (s.add f n).time = s.time := rfl
@[simp] theorem State.add_ply (s : State) (f : Fld) (n : Nat) : (s.add f n).ply = s.ply := rfl
@[simp] theorem State.add_brake (s : State) (f : Fld) (n : Nat) : (s.add f n).brake = s.brake := rfl
@[simp] theorem State.add_host (s : State) (f : Fld) (n : Nat) : (s.add f n).host = s.host := rfl
@[simp] theorem State.add_hop (s : State) (f : Fld) (n : Nat) : (s.add f n).hop = s.hop := rfl
@[simp] theorem State.add_mill (s : State) (f : Fld) (n : Nat) : (s.add f n).mill = s.mill := rfl
@[simp] theorem State.add_seals (s : State) (f : Fld) (n : Nat) : (s.add f n).seals = s.seals := rfl
@[simp] theorem State.add_dbg (s : State) (f : Fld) (n : Nat) : (s.add f n).dbg = s.dbg := rfl
@[simp] theorem State.add_recorder (s : State) (f : Fld) (n : Nat) : (s.add f n).recorder = s.recorder := rfl
@[simp] theorem State.add_fw (s : State) (f : Fld) (n : Nat) : (s.add f n).fw = s.fw := rfl
@[simp] theorem State.add_pwr (s : State) (f : Fld) (n : Nat) : (s.add f n).pwr = s.pwr := rfl
@[simp] theorem State.add_mem (s : State) (f : Fld) (n : Nat) : (s.add f n).mem = s.mem := rfl
@[simp] theorem State.add_out (s : State) (f : Fld) (n : Nat) : (s.add f n).out = s.out := rfl
@[simp] theorem State.add_fresh (s : State) (f : Fld) (n : Nat) : (s.add f n).fresh = s.fresh := rfl
@[simp] theorem State.add_pending (s : State) (f : Fld) (n : Nat) : (s.add f n).pending = s.pending := rfl

@[simp] theorem State.inc_caps (s : State) (f : Fld) : (s.inc f).caps = s.caps := rfl
@[simp] theorem State.inc_turn (s : State) (f : Fld) : (s.inc f).turn = s.turn := rfl
@[simp] theorem State.inc_image (s : State) (f : Fld) : (s.inc f).image = s.image := rfl
@[simp] theorem State.inc_skein (s : State) (f : Fld) : (s.inc f).skein = s.skein := rfl
@[simp] theorem State.inc_tasks (s : State) (f : Fld) : (s.inc f).tasks = s.tasks := rfl
@[simp] theorem State.inc_progs (s : State) (f : Fld) : (s.inc f).progs = s.progs := rfl
@[simp] theorem State.inc_loops (s : State) (f : Fld) : (s.inc f).loops = s.loops := rfl
@[simp] theorem State.inc_trace (s : State) (f : Fld) : (s.inc f).trace = s.trace := rfl
@[simp] theorem State.inc_ring (s : State) (f : Fld) : (s.inc f).ring = s.ring := rfl
@[simp] theorem State.inc_time (s : State) (f : Fld) : (s.inc f).time = s.time := rfl
@[simp] theorem State.inc_ply (s : State) (f : Fld) : (s.inc f).ply = s.ply := rfl
@[simp] theorem State.inc_brake (s : State) (f : Fld) : (s.inc f).brake = s.brake := rfl
@[simp] theorem State.inc_host (s : State) (f : Fld) : (s.inc f).host = s.host := rfl
@[simp] theorem State.inc_hop (s : State) (f : Fld) : (s.inc f).hop = s.hop := rfl
@[simp] theorem State.inc_mill (s : State) (f : Fld) : (s.inc f).mill = s.mill := rfl
@[simp] theorem State.inc_seals (s : State) (f : Fld) : (s.inc f).seals = s.seals := rfl
@[simp] theorem State.inc_dbg (s : State) (f : Fld) : (s.inc f).dbg = s.dbg := rfl
@[simp] theorem State.inc_recorder (s : State) (f : Fld) : (s.inc f).recorder = s.recorder := rfl
@[simp] theorem State.inc_fw (s : State) (f : Fld) : (s.inc f).fw = s.fw := rfl
@[simp] theorem State.inc_pwr (s : State) (f : Fld) : (s.inc f).pwr = s.pwr := rfl
@[simp] theorem State.inc_mem (s : State) (f : Fld) : (s.inc f).mem = s.mem := rfl
@[simp] theorem State.inc_out (s : State) (f : Fld) : (s.inc f).out = s.out := rfl
@[simp] theorem State.inc_fresh (s : State) (f : Fld) : (s.inc f).fresh = s.fresh := rfl
@[simp] theorem State.inc_pending (s : State) (f : Fld) : (s.inc f).pending = s.pending := rfl

@[simp] theorem State.emit_regs (s : State) (o : Out) : (s.emit o).regs = s.regs := rfl
@[simp] theorem State.emit_caps (s : State) (o : Out) : (s.emit o).caps = s.caps := rfl
@[simp] theorem State.emit_turn (s : State) (o : Out) : (s.emit o).turn = s.turn := rfl
@[simp] theorem State.emit_image (s : State) (o : Out) : (s.emit o).image = s.image := rfl
@[simp] theorem State.emit_skein (s : State) (o : Out) : (s.emit o).skein = s.skein := rfl
@[simp] theorem State.emit_tasks (s : State) (o : Out) : (s.emit o).tasks = s.tasks := rfl
@[simp] theorem State.emit_progs (s : State) (o : Out) : (s.emit o).progs = s.progs := rfl
@[simp] theorem State.emit_loops (s : State) (o : Out) : (s.emit o).loops = s.loops := rfl
@[simp] theorem State.emit_trace (s : State) (o : Out) : (s.emit o).trace = s.trace := rfl
@[simp] theorem State.emit_ring (s : State) (o : Out) : (s.emit o).ring = s.ring := rfl
@[simp] theorem State.emit_time (s : State) (o : Out) : (s.emit o).time = s.time := rfl
@[simp] theorem State.emit_ply (s : State) (o : Out) : (s.emit o).ply = s.ply := rfl
@[simp] theorem State.emit_brake (s : State) (o : Out) : (s.emit o).brake = s.brake := rfl
@[simp] theorem State.emit_host (s : State) (o : Out) : (s.emit o).host = s.host := rfl
@[simp] theorem State.emit_hop (s : State) (o : Out) : (s.emit o).hop = s.hop := rfl
@[simp] theorem State.emit_mill (s : State) (o : Out) : (s.emit o).mill = s.mill := rfl
@[simp] theorem State.emit_seals (s : State) (o : Out) : (s.emit o).seals = s.seals := rfl
@[simp] theorem State.emit_dbg (s : State) (o : Out) : (s.emit o).dbg = s.dbg := rfl
@[simp] theorem State.emit_recorder (s : State) (o : Out) : (s.emit o).recorder = s.recorder := rfl
@[simp] theorem State.emit_fw (s : State) (o : Out) : (s.emit o).fw = s.fw := rfl
@[simp] theorem State.emit_pwr (s : State) (o : Out) : (s.emit o).pwr = s.pwr := rfl
@[simp] theorem State.emit_mem (s : State) (o : Out) : (s.emit o).mem = s.mem := rfl
@[simp] theorem State.emit_fresh (s : State) (o : Out) : (s.emit o).fresh = s.fresh := rfl
@[simp] theorem State.emit_pending (s : State) (o : Out) : (s.emit o).pending = s.pending := rfl

@[simp] theorem State.emits_regs (s : State) (os : List Out) : (s.emits os).regs = s.regs := rfl
@[simp] theorem State.emits_caps (s : State) (os : List Out) : (s.emits os).caps = s.caps := rfl
@[simp] theorem State.emits_turn (s : State) (os : List Out) : (s.emits os).turn = s.turn := rfl
@[simp] theorem State.emits_image (s : State) (os : List Out) : (s.emits os).image = s.image := rfl
@[simp] theorem State.emits_skein (s : State) (os : List Out) : (s.emits os).skein = s.skein := rfl
@[simp] theorem State.emits_tasks (s : State) (os : List Out) : (s.emits os).tasks = s.tasks := rfl
@[simp] theorem State.emits_progs (s : State) (os : List Out) : (s.emits os).progs = s.progs := rfl
@[simp] theorem State.emits_loops (s : State) (os : List Out) : (s.emits os).loops = s.loops := rfl
@[simp] theorem State.emits_trace (s : State) (os : List Out) : (s.emits os).trace = s.trace := rfl
@[simp] theorem State.emits_ring (s : State) (os : List Out) : (s.emits os).ring = s.ring := rfl
@[simp] theorem State.emits_time (s : State) (os : List Out) : (s.emits os).time = s.time := rfl
@[simp] theorem State.emits_ply (s : State) (os : List Out) : (s.emits os).ply = s.ply := rfl
@[simp] theorem State.emits_brake (s : State) (os : List Out) : (s.emits os).brake = s.brake := rfl
@[simp] theorem State.emits_host (s : State) (os : List Out) : (s.emits os).host = s.host := rfl
@[simp] theorem State.emits_hop (s : State) (os : List Out) : (s.emits os).hop = s.hop := rfl
@[simp] theorem State.emits_mill (s : State) (os : List Out) : (s.emits os).mill = s.mill := rfl
@[simp] theorem State.emits_seals (s : State) (os : List Out) : (s.emits os).seals = s.seals := rfl
@[simp] theorem State.emits_dbg (s : State) (os : List Out) : (s.emits os).dbg = s.dbg := rfl
@[simp] theorem State.emits_recorder (s : State) (os : List Out) : (s.emits os).recorder = s.recorder := rfl
@[simp] theorem State.emits_fw (s : State) (os : List Out) : (s.emits os).fw = s.fw := rfl
@[simp] theorem State.emits_pwr (s : State) (os : List Out) : (s.emits os).pwr = s.pwr := rfl
@[simp] theorem State.emits_mem (s : State) (os : List Out) : (s.emits os).mem = s.mem := rfl
@[simp] theorem State.emits_fresh (s : State) (os : List Out) : (s.emits os).fresh = s.fresh := rfl
@[simp] theorem State.emits_pending (s : State) (os : List Out) : (s.emits os).pending = s.pending := rfl

@[simp] theorem State.memWrite_regs (s : State) (a : Nat) (b : Bytes) : (s.memWrite a b).regs = s.regs := rfl
@[simp] theorem State.memWrite_caps (s : State) (a : Nat) (b : Bytes) : (s.memWrite a b).caps = s.caps := rfl
@[simp] theorem State.memWrite_turn (s : State) (a : Nat) (b : Bytes) : (s.memWrite a b).turn = s.turn := rfl
@[simp] theorem State.memWrite_image (s : State) (a : Nat) (b : Bytes) : (s.memWrite a b).image = s.image := rfl
@[simp] theorem State.memWrite_skein (s : State) (a : Nat) (b : Bytes) : (s.memWrite a b).skein = s.skein := rfl
@[simp] theorem State.memWrite_tasks (s : State) (a : Nat) (b : Bytes) : (s.memWrite a b).tasks = s.tasks := rfl
@[simp] theorem State.memWrite_progs (s : State) (a : Nat) (b : Bytes) : (s.memWrite a b).progs = s.progs := rfl
@[simp] theorem State.memWrite_loops (s : State) (a : Nat) (b : Bytes) : (s.memWrite a b).loops = s.loops := rfl
@[simp] theorem State.memWrite_trace (s : State) (a : Nat) (b : Bytes) : (s.memWrite a b).trace = s.trace := rfl
@[simp] theorem State.memWrite_ring (s : State) (a : Nat) (b : Bytes) : (s.memWrite a b).ring = s.ring := rfl
@[simp] theorem State.memWrite_time (s : State) (a : Nat) (b : Bytes) : (s.memWrite a b).time = s.time := rfl
@[simp] theorem State.memWrite_ply (s : State) (a : Nat) (b : Bytes) : (s.memWrite a b).ply = s.ply := rfl
@[simp] theorem State.memWrite_brake (s : State) (a : Nat) (b : Bytes) : (s.memWrite a b).brake = s.brake := rfl
@[simp] theorem State.memWrite_host (s : State) (a : Nat) (b : Bytes) : (s.memWrite a b).host = s.host := rfl
@[simp] theorem State.memWrite_hop (s : State) (a : Nat) (b : Bytes) : (s.memWrite a b).hop = s.hop := rfl
@[simp] theorem State.memWrite_mill (s : State) (a : Nat) (b : Bytes) : (s.memWrite a b).mill = s.mill := rfl
@[simp] theorem State.memWrite_seals (s : State) (a : Nat) (b : Bytes) : (s.memWrite a b).seals = s.seals := rfl
@[simp] theorem State.memWrite_dbg (s : State) (a : Nat) (b : Bytes) : (s.memWrite a b).dbg = s.dbg := rfl
@[simp] theorem State.memWrite_recorder (s : State) (a : Nat) (b : Bytes) : (s.memWrite a b).recorder = s.recorder := rfl
@[simp] theorem State.memWrite_fw (s : State) (a : Nat) (b : Bytes) : (s.memWrite a b).fw = s.fw := rfl
@[simp] theorem State.memWrite_pwr (s : State) (a : Nat) (b : Bytes) : (s.memWrite a b).pwr = s.pwr := rfl
@[simp] theorem State.memWrite_out (s : State) (a : Nat) (b : Bytes) : (s.memWrite a b).out = s.out := rfl
@[simp] theorem State.memWrite_fresh (s : State) (a : Nat) (b : Bytes) : (s.memWrite a b).fresh = s.fresh := rfl
@[simp] theorem State.memWrite_pending (s : State) (a : Nat) (b : Bytes) : (s.memWrite a b).pending = s.pending := rfl

/-- What is sent goes to the end of what was sent. -/
@[simp] theorem State.emit_out (s : State) (o : Out) : (s.emit o).out = s.out ++ [o] := rfl
/-- Several outputs go to the end, in order. -/
@[simp] theorem State.emits_out (s : State) (os : List Out) : (s.emits os).out = s.out ++ os := rfl
@[simp] theorem State.emit_rd (s : State) (o : Out) (f : Fld) : (s.emit o).rd f = s.rd f := rfl
@[simp] theorem State.emits_rd (s : State) (os : List Out) (f : Fld) : (s.emits os).rd f = s.rd f := rfl

end Sys2Proof.Machine
end

