-- ==== Sys2Proof/Laws/Events.lean ====
section
/-! SUPPORT. What raising an event source does to registers: the event engine's own and the violation registers, and
no others. -/

namespace Sys2Proof.Machine

/-- Nothing changed. -/
theorem RegsBut.rfl {W : Nat → Prop} {s : State} : RegsBut W s s := fun _ _ _ => Eq.refl _

/-- The registers that two changes leave. -/
theorem RegsBut.trans {W : Nat → Prop} {s t u : State} (h : RegsBut W s t) (g : RegsBut W t u) : RegsBut W s u :=
  fun f hl hf => (g f hl hf).trans (h f hl hf)

/-- More registers may have changed. -/
theorem RegsBut.mono {W V : Nat → Prop} {s t : State} (h : RegsBut W s t) (hW : ∀ o, W o → V o) : RegsBut V s t :=
  fun f hl hf => h f hl (fun w => hf (hW _ w))

/-- A write of one field. -/
theorem RegsBut.wr {W : Nat → Prop} {s t : State} (h : RegsBut W s t) (f : Fld) (v : Nat) (hf : f.lo < 32) (hW : W f.off) :
    RegsBut W s (t.wr f v) := fun g hl hg => by
  rw [State.rd_wr_ne _ _ _ _ (Fld.key_ne_off hf hl (fun e => hg (e ▸ hW)))]
  exact h g hl hg

/-- A write of one Boolean. -/
theorem RegsBut.wrb {W : Nat → Prop} {s t : State} (h : RegsBut W s t) (f : Fld) (b : Bool) (hf : f.lo < 32) (hW : W f.off) :
    RegsBut W s (t.wrb f b) := h.wr f _ hf hW

/-- A count. -/
theorem RegsBut.add {W : Nat → Prop} {s t : State} (h : RegsBut W s t) (f : Fld) (n : Nat) (hf : f.lo < 32) (hW : W f.off) :
    RegsBut W s (t.add f n) := h.wr f _ hf hW

/-- A change of a state that leaves the registers. -/
theorem RegsBut.same {W : Nat → Prop} {s t u : State} (h : RegsBut W s t) (e : u.regs = t.regs) : RegsBut W s u :=
  fun f hl hf => by
    have : u.rd f = t.rd f := by simp only [State.rd, e]
    exact this.trans (h f hl hf)

/-- A run of changes. -/
theorem RegsBut.foldl {W : Nat → Prop} {s t : State} {α : Type} (f : State → α → State) (l : List α) (h : RegsBut W s t)
    (g : ∀ u a, a ∈ l → RegsBut W s u → RegsBut W s (f u a)) : RegsBut W s (l.foldl f t) := by
  induction l generalizing t with
  | nil => exact h
  | cons a l ih => exact ih (g _ _ List.mem_cons_self h) (fun u b hb => g u b (List.mem_cons_of_mem _ hb))

/-- Either branch. -/
theorem RegsBut.ite {W : Nat → Prop} {s t u : State} {c : Prop} [Decidable c] (h : RegsBut W s t) (g : RegsBut W s u) :
    RegsBut W s (if c then t else u) := by
  split <;> assumption

/-- Firing the recorder's triggers writes no register. -/
@[simp] theorem State.fireTrigger_regs (s : State) (n src a b : Nat) : (s.fireTrigger n src a b).regs = s.regs := by
  unfold State.fireTrigger
  simp only
  repeat' split
  all_goals rfl

/-- Firing every trigger of a source writes no register. -/
@[simp] theorem State.fireSource_regs (s : State) (src a b : Nat) : (s.fireSource src a b).regs = s.regs := by
  have h : ∀ (l : List Nat) (t : State), (l.foldl (fun s n =>
      if s.aon (F.REC_TRIG_enable n) && s.act (F.REC_TRIG_source n) == src &&
          (!(s.aon (F.REC_TRIG_dtest_en n)) || bitOf a (s.act (F.REC_TRIG_dbit n))) then
        s.fireTrigger n src a b
      else s) t).regs = t.regs := by
    intro l
    induction l with
    | nil => intro t; rfl
    | cons n l ih => intro t; rw [List.foldl_cons, ih]; split <;> simp
  exact h _ s

/-- A message writes the pending-bit array at most. -/
theorem State.sendMsix_regs (s : State) {v : Nat} (hv : v < 128) : RegsBut eventReg s (s.sendMsix v) := by
  unfold State.sendMsix
  simp only
  split
  · exact (RegsBut.rfl.same (by simp)).wr _ _ (by simp [F.MSIX_PBA_pending]) (Or.inl (by simp [F.MSIX_PBA_pending]; omega))
  · exact RegsBut.rfl.same (by simp)

/-- So does counting toward a message. -/
theorem State.countMsix_regs (s : State) {v : Nat} (hv : v < 128) : RegsBut eventReg s (s.countMsix v) := by
  unfold State.countMsix
  simp only
  split
  · exact s.sendMsix_regs hv
  · exact RegsBut.rfl.same (Eq.refl _)

/-- Raising a source without a record. -/
theorem State.raiseQuiet_regs (s : State) {src : Nat} (a b : Nat) (hv : src < 128) :
    RegsBut eventReg s (s.raiseQuiet src a b) := by
  have h : RegsBut eventReg s (s.fireSource src a b) := RegsBut.rfl.same (by simp)
  have g := h.wr (F.EVT_RAISED_raised (src / 32))
    (setBit ((s.fireSource src a b).rd (F.EVT_RAISED_raised (src / 32))) (src % 32) true)
    (by simp [F.EVT_RAISED_raised]) (Or.inl (by simp [F.EVT_RAISED_raised]; omega))
  unfold State.raiseQuiet
  simp only
  split
  · exact g
  · exact g.trans (State.countMsix_regs _ hv)

/-- A refused access is noted in its unit's violation registers. -/
theorem State.acNote_regs (s : State) {u : Nat} (kind requester len a n : Nat) (hu : u < 4) :
    RegsBut eventReg s (s.acNote u kind requester len a n) := by
  have e : ∀ o, 49216 + 16 * u ≤ o → o ≤ 49228 + 16 * u → eventReg o := fun o h1 h2 => Or.inr ⟨by omega, by omega⟩
  unfold State.acNote
  simp only
  split
  · exact RegsBut.rfl.add _ _ (by simp [F.AC_VIOL_COUNT_count]) (e _ (by simp [F.AC_VIOL_COUNT_count]) (by simp [F.AC_VIOL_COUNT_count]))
  · refine RegsBut.wr (RegsBut.wr (RegsBut.wrb (RegsBut.wr (RegsBut.wr (RegsBut.wr (RegsBut.wr (RegsBut.wr
      (RegsBut.add RegsBut.rfl _ _ ?_ ?_) _ _ ?_ ?_) _ _ ?_ ?_) _ _ ?_ ?_) _ _ ?_ ?_) _ _ ?_ ?_) _ _ ?_ ?_)
      _ _ ?_ ?_) _ _ ?_ ?_ <;>
      first
        | exact e _ (by simp [F.AC_VIOL_COUNT_count, F.AC_VIOL_INFO_valid, F.AC_VIOL_INFO_kind, F.AC_VIOL_INFO_region,
            F.AC_VIOL_INFO_requester, F.AC_VIOL_INFO_length, F.AC_VIOL_INFO_locked, F.AC_VIOL_ADDR_LO_addr, F.AC_VIOL_ADDR_HI_addr])
            (by simp [F.AC_VIOL_COUNT_count, F.AC_VIOL_INFO_valid, F.AC_VIOL_INFO_kind, F.AC_VIOL_INFO_region,
            F.AC_VIOL_INFO_requester, F.AC_VIOL_INFO_length, F.AC_VIOL_INFO_locked, F.AC_VIOL_ADDR_LO_addr, F.AC_VIOL_ADDR_HI_addr])
        | simp [F.AC_VIOL_COUNT_count, F.AC_VIOL_INFO_valid, F.AC_VIOL_INFO_kind, F.AC_VIOL_INFO_region,
            F.AC_VIOL_INFO_requester, F.AC_VIOL_INFO_length, F.AC_VIOL_INFO_locked, F.AC_VIOL_ADDR_LO_addr, F.AC_VIOL_ADDR_HI_addr]

/-- A refused event record. -/
theorem State.refuseEvent_regs (s : State) (a n : Nat) : RegsBut eventReg s (s.refuseEvent a n) := by
  unfold State.refuseEvent
  simp only
  have h := (s.acNote_regs 1 4 32 a n (u := 3) (by decide)).wr F.HOST_ERR_err
    (setBit ((s.acNote 3 1 4 32 a n).rd F.HOST_ERR_err) 4 true) (by decide) (Or.inl (by decide))
  refine RegsBut.ite ?_ ?_
  · exact (h.trans (State.raiseQuiet_regs _ _ _ (by decide))).trans (State.raiseQuiet_regs _ _ _ (by decide))
  · exact h.trans (State.raiseQuiet_regs _ _ _ (by decide))

/-- An event record written, or dropped. -/
theorem State.writeEvent_regs (s : State) (src a b : Nat) : RegsBut eventReg s (s.writeEvent src a b) := by
  unfold State.writeEvent
  simp only
  split
  · have h : RegsBut eventReg s (s.inc F.EVT_LOST_count) :=
      RegsBut.rfl.add _ _ (by decide) (Or.inl (by decide))
    split
    · have g := (h.same (u := { s.inc F.EVT_LOST_count with host :=
        { (s.inc F.EVT_LOST_count).host with evtDropped := (s.inc F.EVT_LOST_count).host.evtDropped + 1 } }) (Eq.refl _)).wr
        (F.EVT_RAISED_raised 0) (setBit ((s.inc F.EVT_LOST_count).rd (F.EVT_RAISED_raised 0)) 4 true) (by decide)
        (Or.inl (by decide))
      refine RegsBut.ite g (g.trans (State.countMsix_regs _ (by decide)))
    · exact h.same (Eq.refl _)
  · split
    · exact s.refuseEvent_regs _ _
    · exact RegsBut.rfl.same (by simp)

/-- Raising a source. -/
theorem State.raiseSource_regs (s : State) {src : Nat} (a b : Nat) (hv : src < 128) :
    RegsBut eventReg s (s.raiseSource src a b) := by
  have h : RegsBut eventReg s (s.fireSource src a b) := RegsBut.rfl.same (by simp)
  have g := h.wr (F.EVT_RAISED_raised (src / 32))
    (setBit ((s.fireSource src a b).rd (F.EVT_RAISED_raised (src / 32))) (src % 32) true)
    (by simp [F.EVT_RAISED_raised]) (Or.inl (by simp [F.EVT_RAISED_raised]; omega))
  unfold State.raiseSource
  simp only
  split
  · exact h
  · have w := g.trans (State.writeEvent_regs _ src a b)
    exact RegsBut.ite (RegsBut.ite w g) (RegsBut.trans (RegsBut.ite w g) (State.countMsix_regs _ hv))

/-- An event bit set in a status register, and the source it raises. -/
theorem State.setEvt_regs (s : State) (f en : Fld) (bits : Nat) {src : Nat} (offA offB : Nat) (hv : src < 128) (hl : f.lo < 32) :
    RegsBut (fun o => eventReg o ∨ o = f.off) s (s.setEvt f en bits src offA offB) := by
  have h : RegsBut (fun o => eventReg o ∨ o = f.off) s (s.wr f (s.rd f ||| bits)) := RegsBut.rfl.wr _ _ hl (Or.inr (Eq.refl _))
  unfold State.setEvt
  simp only
  split
  · exact h
  · exact h.trans ((State.raiseSource_regs _ _ _ hv).mono (fun o ho => Or.inl ho))

end Sys2Proof.Machine
end

