-- ==== Sys2Proof/Laws/Keeps.lean ====
section
/-! SUPPORT. What a run of operations leaves alone, said once for each operation: the queue, what was sent before, the
canonical form of memory, and every unit of the state but those the operation is named to change. -/

namespace Sys2Proof.Machine

/-- From s to t the queue stays, what was sent stays sent, no free value is given twice, canonical memory stays
canonical, and no part changes but those of A. -/
structure Keeps (A : List Part) (s t : State) : Prop where
  pending : t.pending = s.pending
  sent : s.out <+: t.out
  fresh : s.fresh ≤ t.fresh
  mem : Memory.wf s.mem = true → Memory.wf t.mem = true
  parts : ∀ p, p ∉ A → Same p s t

theorem Same.trans {p : Part} {s t u : State} (h : Same p s t) (g : Same p t u) : Same p s u := by
  cases p <;> exact Eq.trans g h

theorem Same.rfl {p : Part} {s : State} : Same p s s := by
  cases p <;> exact Eq.refl _

theorem Keeps.rfl {A : List Part} {s : State} : Keeps A s s :=
  ⟨Eq.refl _, List.prefix_rfl, Nat.le_refl _, id, fun _ _ => Same.rfl⟩

theorem Keeps.next {A B : List Part} {s t u : State} (h : Keeps A s t) (g : Keeps B t u) (hB : ∀ p ∈ B, p ∈ A) :
    Keeps A s u :=
  ⟨g.pending.trans h.pending, h.sent.trans g.sent, Nat.le_trans h.fresh g.fresh, g.mem ∘ h.mem,
    fun p hp => (h.parts p hp).trans (g.parts p (fun hb => hp (hB p hb)))⟩

theorem Keeps.next' {A B : List Part} {s t : State} (g : Keeps B s t) (hB : ∀ p ∈ B, p ∈ A) : Keeps A s t :=
  Keeps.rfl.next g hB

theorem Keeps.upd {A : List Part} {s t : State} {regs' caps' turn' image' skein' tasks' progs' loops' trace' ring' time' ply' brake' host' hop' mill' seals' dbg' recorder' fw' pwr' mem' out' fresh'} (h : Keeps A s t)
    (ho : t.out <+: out') (hf : t.fresh ≤ fresh') (hm : Memory.wf t.mem = true → Memory.wf mem' = true)
    (hs : ∀ p, p ∉ A → Same p t ⟨regs', caps', turn', image', skein', tasks', progs', loops', trace', ring', time', ply', brake', host', hop', mill', seals', dbg', recorder', fw', pwr', mem', out', fresh', t.pending⟩) : Keeps A s ⟨regs', caps', turn', image', skein', tasks', progs', loops', trace', ring', time', ply', brake', host', hop', mill', seals', dbg', recorder', fw', pwr', mem', out', fresh', t.pending⟩ :=
  ⟨h.pending, h.sent.trans ho, Nat.le_trans h.fresh hf, hm ∘ h.mem, fun p hpA => (h.parts p hpA).trans (hs p hpA)⟩

theorem Keeps.foldl {A : List Part} {s0 s : State} {α : Type} (f : State → α → State) (l : List α) (hs : Keeps A s0 s)
    (h : ∀ s a, Keeps A s0 s → Keeps A s0 (f s a)) : Keeps A s0 (l.foldl f s) := by
  induction l generalizing s with
  | nil => exact hs
  | cons a l ih => exact ih (h _ _ hs)

theorem Keeps.ite {A : List Part} {s : State} {c : Prop} [Decidable c] {a b : State} (h1 : Keeps A s a)
    (h2 : Keeps A s b) : Keeps A s (if c then a else b) := by
  split <;> assumption

theorem Keeps.ite1 {A : List Part} {s : State} {α : Type} {c : Prop} [Decidable c] {a b : State × α} (h1 : Keeps A s a.1)
    (h2 : Keeps A s b.1) : Keeps A s (if c then a else b).1 := by
  split <;> assumption

theorem Keeps.let {A : List Part} {s t : State} (z : State) (h : Keeps A s z) (g : Keeps A s z → Keeps A s t) :
    Keeps A s t := g h

theorem Keeps.let1 {A : List Part} {s t : State} {α : Type} (z : State × α) (h : Keeps A s z.1)
    (g : Keeps A s z.1 → Keeps A s t) : Keeps A s t := g h

theorem Keeps.pair {A : List Part} {s y t : State} {α : Type} {p : State × α} {n : α} (e : p = (y, n))
    (h : Keeps A s p.1) (g : Keeps A s y → Keeps A s t) : Keeps A s t := g (by rw [e] at h; exact h)

theorem Keeps.ok {A : List Part} {s0 s t : State} (h : Keeps A s t) : Keeps A s (settle s0 (Machine.ok t)) := h

theorem Keeps.iteO {A : List Part} {s0 s : State} {c : Prop} [Decidable c] {a b : Host.Outcome State Fault Refusal}
    (h1 : Keeps A s (settle s0 a)) (h2 : Keeps A s (settle s0 b)) : Keeps A s (settle s0 (if c then a else b)) := by
  split <;> assumption

theorem Keeps.allNil {α : Type} {P : α → Prop} : ∀ f ∈ ([] : List α), P f := fun _ h => nomatch h

theorem Keeps.allCons {α : Type} {P : α → Prop} {a : α} {l : List α} (h : P a) (g : ∀ f ∈ l, P f) :
    ∀ f ∈ a :: l, P f := fun f hf => by
  rcases List.mem_cons.1 hf with hf | hf
  · exact hf ▸ h
  · exact g f hf

theorem Keeps.unsend {A : List Part} {s0 s t : State} (h : Keeps A s0 t) (hs : Keeps A s0 s) :
    Keeps A s0 { t with out := s.out } :=
  ⟨h.pending, hs.sent, h.fresh, h.mem, fun p hp => (h.parts p hp).trans (by cases p <;> rfl)⟩

/-- What a meaning keeps, where it answers a next state. -/
theorem Keeps.of_next {A : List Part} {s t : State} {o : Host.Outcome State Fault Refusal} (h : Keeps A s (settle s o))
    (e : o = .next t) : Keeps A s t := by
  rw [e] at h
  exact h

end Sys2Proof.Machine
end

