-- ==== Sys2Proof/Laws/Banks.lean ====
section
/-! SUPPORT. Frames of registers by bank: a change leaves the registers of every bank but those it names. -/

namespace Sys2Proof.Machine

/-- Nothing changed. -/
theorem RegsIn.rfl {B : List Bank} {s : State} : RegsIn B s s := fun _ _ _ => Eq.refl _

/-- One change after another. -/
theorem RegsIn.next {A B : List Bank} {s t u : State} (h : RegsIn A s t) (g : RegsIn B t u) (hB : ∀ b ∈ B, b ∈ A) :
    RegsIn A s u :=
  fun f hl hf => (g f hl (fun b hb => hf b (hB b hb))).trans (h f hl hf)

/-- More banks may have changed. -/
theorem RegsIn.mono {A B : List Bank} {s t : State} (g : RegsIn B s t) (hB : ∀ b ∈ B, b ∈ A) : RegsIn A s t :=
  RegsIn.rfl.next g hB

/-- What raising an event source may write. -/
theorem RegsIn.events {s t : State} (h : RegsBut eventReg s t) : RegsIn [.events, .viol] s t := fun f hl hf =>
  h f hl (fun hw => by
    rcases hw with hw | hw
    · exact hf .events (by decide) hw
    · exact hf .viol (by decide) hw)

/-- A write of one field of a bank. -/
theorem RegsIn.wr {A : List Bank} {s t : State} (f : Fld) (v : Nat) (b : Bank) (h : RegsIn A s t) (hl : f.lo < 32) (hb : b ∈ A)
    (h1 : b.range.1 ≤ f.off) (h2 : f.off < b.range.2) : RegsIn A s (t.wr f v) := fun g gl hg => by
  rw [State.rd_wr_ne _ _ _ _ (Fld.key_ne_off hl gl (fun e => hg b hb (e ▸ ⟨h1, h2⟩)))]
  exact h g gl hg

/-- A write of one Boolean. -/
theorem RegsIn.wrb {A : List Bank} {s t : State} (f : Fld) (v : Bool) (b : Bank) (h : RegsIn A s t) (hl : f.lo < 32) (hb : b ∈ A)
    (h1 : b.range.1 ≤ f.off) (h2 : f.off < b.range.2) : RegsIn A s (t.wrb f v) := RegsIn.wr f _ b h hl hb h1 h2

/-- A count. -/
theorem RegsIn.add {A : List Bank} {s t : State} (f : Fld) (n : Nat) (b : Bank) (h : RegsIn A s t) (hl : f.lo < 32) (hb : b ∈ A)
    (h1 : b.range.1 ≤ f.off) (h2 : f.off < b.range.2) : RegsIn A s (t.add f n) := RegsIn.wr f _ b h hl hb h1 h2

/-- A count by one. -/
theorem RegsIn.inc {A : List Bank} {s t : State} (f : Fld) (b : Bank) (h : RegsIn A s t) (hl : f.lo < 32) (hb : b ∈ A)
    (h1 : b.range.1 ≤ f.off) (h2 : f.off < b.range.2) : RegsIn A s (t.inc f) := RegsIn.wr f _ b h hl hb h1 h2

/-- An event bit set, and its source raised. -/
theorem RegsIn.setEvt {A : List Bank} {s t : State} (f en : Fld) (bits src offA offB : Nat) (b : Bank) (h : RegsIn A s t)
    (hl : f.lo < 32) (hb : b ∈ A) (h1 : b.range.1 ≤ f.off) (h2 : f.off < b.range.2) (hs : src < 128)
    (he : ∀ c ∈ [Bank.events, Bank.viol], c ∈ A) : RegsIn A s (t.setEvt f en bits src offA offB) := by
  have w : RegsIn A s (t.wr f (t.rd f ||| bits)) := RegsIn.wr f _ b h hl hb h1 h2
  unfold State.setEvt
  simp only
  split
  · exact w
  · exact w.next (RegsIn.events (State.raiseSource_regs _ _ _ hs)) he

/-- A change of anything but registers. -/
theorem RegsIn.upd {A : List Bank} {s t : State} {caps' turn' image' skein' tasks' progs' loops' trace' ring' time' ply' brake' host' hop' mill' seals' dbg' recorder' fw' pwr' mem' out' fresh' pending'} (h : RegsIn A s t) :
    RegsIn A s ⟨t.regs, caps', turn', image', skein', tasks', progs', loops', trace', ring', time', ply', brake', host', hop', mill', seals', dbg', recorder', fw', pwr', mem', out', fresh', pending'⟩ := h

/-- A run of changes. -/
theorem RegsIn.foldl {A : List Bank} {s0 s : State} {α : Type} (f : State → α → State) (l : List α) (hs : RegsIn A s0 s)
    (h : ∀ s a, a ∈ l → RegsIn A s0 s → RegsIn A s0 (f s a)) : RegsIn A s0 (l.foldl f s) := by
  induction l generalizing s with
  | nil => exact hs
  | cons a l ih => exact ih (h _ _ List.mem_cons_self hs) (fun u b hb => h u b (List.mem_cons_of_mem _ hb))

/-- A run of changes over the indexes below a bound. -/
theorem RegsIn.upTo {A : List Bank} {s0 s : State} (f : State → Nat → State) (n : Nat) (hs : RegsIn A s0 s)
    (h : ∀ s a, a < n → RegsIn A s0 s → RegsIn A s0 (f s a)) : RegsIn A s0 ((Machine.upTo n).foldl f s) :=
  RegsIn.foldl f _ hs (fun s a ha => h s a (List.mem_range.1 ha))

/-- A run of changes over the set bits of a mask. -/
theorem RegsIn.bitsSet {A : List Bank} {s0 s : State} (f : State → Nat → State) (n x : Nat) (hs : RegsIn A s0 s)
    (h : ∀ s a, a < n → RegsIn A s0 s → RegsIn A s0 (f s a)) : RegsIn A s0 ((Machine.bitsSet n x).foldl f s) :=
  RegsIn.foldl f _ hs (fun s a ha => h s a (List.mem_range.1 (List.mem_filter.1 ha).1))

theorem RegsIn.ite {A : List Bank} {s : State} {c : Prop} [Decidable c] {a b : State} (h1 : c → RegsIn A s a)
    (h2 : ¬c → RegsIn A s b) : RegsIn A s (if c then a else b) := by
  split
  · exact h1 ‹_›
  · exact h2 ‹_›

theorem RegsIn.ite1 {A : List Bank} {s : State} {α : Type} {c : Prop} [Decidable c] {a b : State × α} (h1 : c → RegsIn A s a.1)
    (h2 : ¬c → RegsIn A s b.1) : RegsIn A s (if c then a else b).1 := by
  split
  · exact h1 ‹_›
  · exact h2 ‹_›

theorem RegsIn.let {A : List Bank} {s t : State} (z : State) (h : RegsIn A s z) (g : RegsIn A s z → RegsIn A s t) :
    RegsIn A s t := g h

theorem RegsIn.let1 {A : List Bank} {s t : State} {α : Type} (z : State × α) (h : RegsIn A s z.1)
    (g : RegsIn A s z.1 → RegsIn A s t) : RegsIn A s t := g h

theorem RegsIn.pair {A : List Bank} {s y t : State} {α : Type} {p : State × α} {n : α} (e : p = (y, n))
    (h : RegsIn A s p.1) (g : RegsIn A s y → RegsIn A s t) : RegsIn A s t := g (by rw [e] at h; exact h)

theorem RegsIn.ok {A : List Bank} {s0 s t : State} (h : RegsIn A s t) : RegsIn A s (settle s0 (Machine.ok t)) := h

theorem RegsIn.iteO {A : List Bank} {s0 s : State} {c : Prop} [Decidable c] {a b : Host.Outcome State Fault Refusal}
    (h1 : c → RegsIn A s (settle s0 a)) (h2 : ¬c → RegsIn A s (settle s0 b)) : RegsIn A s (settle s0 (if c then a else b)) := by
  split
  · exact h1 ‹_›
  · exact h2 ‹_›

/-- A meaning that does nothing but run a command and one that follows. -/
theorem RegsIn.of_next {A : List Bank} {s t : State} {o : Host.Outcome State Fault Refusal} (h : RegsIn A s (settle s o))
    (e : o = .next t) : RegsIn A s t := by
  rw [e] at h
  exact h

/-- The enabled tasks are among the sixteen. -/
theorem State.enabledTasks_lt {s : State} {t : Nat} (h : t ∈ s.enabledTasks) : t < 16 := by
  unfold State.enabledTasks listedIdx at h
  obtain ⟨e, -, he⟩ := List.mem_filterMap.1 h
  simp only [Option.ite_none_right_eq_some, Option.some.injEq] at he
  omega

/-- The present stations are among the 256. -/
theorem State.stations_lt {s : State} {n : Nat} (h : n ∈ s.stations) : n < 256 := by
  unfold State.stations presentIn listedIdx at h
  obtain ⟨e, -, he⟩ := List.mem_filterMap.1 h
  simp only [Option.ite_none_right_eq_some, Option.some.injEq] at he
  omega

/-- The indexes below a bound are below it. -/
theorem upTo_lt {n a : Nat} (h : a ∈ upTo n) : a < n := List.mem_range.1 h

end Sys2Proof.Machine
end

