-- ==== Sys2Proof/Laws/BanksShared.lean ====
section
/-! SUPPORT. The banks of registers that the shared operations of the event engine, the image, the brake matrix and the host
rings write. -/

namespace Sys2Proof.Machine

set_option linter.all false

theorem State.emit_in (s : State) (a1 : Out) :
    RegsIn [] s (State.emit s a1) := by
  unfold State.emit
  with_reducible repeat' first
    | assumption
    | exact RegsIn.rfl
    | refine RegsIn.upd ?_
    | decide
    | exact Fin.isLt _
    | omega
    | dsimp -zeta only

theorem State.emits_in (s : State) (a1 : List Out) :
    RegsIn [] s (State.emits s a1) := by
  unfold State.emits
  with_reducible repeat' first
    | assumption
    | exact RegsIn.rfl
    | refine RegsIn.upd ?_
    | decide
    | exact Fin.isLt _
    | omega
    | dsimp -zeta only

theorem State.free_in (s : State) :
    RegsIn [] s (State.free s).2 := by
  unfold State.free
  with_reducible repeat' first
    | assumption
    | exact RegsIn.rfl
    | refine RegsIn.upd ?_
    | decide
    | exact Fin.isLt _
    | omega
    | dsimp -zeta only

theorem State.hearEpoch_in (s : State) (a1 : Nat) :
    RegsIn [.ply] s (State.hearEpoch s a1) := by
  unfold State.hearEpoch
  with_reducible repeat' first
    | assumption
    | (extract_lets +onlyGivenNames z
       refine RegsIn.let z ?_ ?_
       subst z
       rotate_left
       clear_value z
       revert z
       intro y hy
       rotate_left)
    | (extract_lets +onlyGivenNames z; clear_value z; revert z; intro y)
    | exact RegsIn.rfl
    | refine RegsIn.ite ?_ ?_ <;> intro hc
    | refine RegsIn.wr F.PLY_EPOCH_epoch _ .ply ?_ (of_decide_eq_true rfl) (of_decide_eq_true rfl) (of_decide_eq_true rfl) (of_decide_eq_true rfl)
    | refine RegsIn.upd ?_
    | decide
    | exact Fin.isLt _
    | omega
    | dsimp -zeta only

theorem State.acNote_in (s : State) (a1 : Nat) (a2 : Nat) (a3 : Nat) (a4 : Nat) (a5 : Nat) (a6 : Nat) (h0 : a1 < 4) :
    RegsIn [.events, .viol] s (State.acNote s a1 a2 a3 a4 a5 a6) := by
  exact RegsIn.events (State.acNote_regs s _ _ _ _ _ h0)

theorem State.sendMsix_in (s : State) (a1 : Nat) (h0 : a1 < 128) :
    RegsIn [.events, .viol] s (State.sendMsix s a1) := by
  exact RegsIn.events (State.sendMsix_regs s h0)

theorem State.countMsix_in (s : State) (a1 : Nat) (h0 : a1 < 128) :
    RegsIn [.events, .viol] s (State.countMsix s a1) := by
  exact RegsIn.events (State.countMsix_regs s h0)

theorem State.fireTrigger_in (s : State) (a1 : Nat) (a2 : Nat) (a3 : Nat) (a4 : Nat) :
    RegsIn [] s (State.fireTrigger s a1 a2 a3 a4) := by
  unfold State.fireTrigger
  with_reducible repeat' first
    | assumption
    | (extract_lets +onlyGivenNames z; clear_value z; revert z; intro y)
    | exact RegsIn.rfl
    | refine RegsIn.ite ?_ ?_ <;> intro hc
    | refine RegsIn.upd ?_
    | decide
    | exact Fin.isLt _
    | omega
    | dsimp -zeta only

theorem State.fireSource_in (s : State) (a1 : Nat) (a2 : Nat) (a3 : Nat) :
    RegsIn [] s (State.fireSource s a1 a2 a3) := by
  unfold State.fireSource
  with_reducible repeat' first
    | assumption
    | exact RegsIn.rfl
    | refine RegsIn.ite ?_ ?_ <;> intro hc
    | (refine RegsIn.upTo _ _ ?_ ?_; rotate_left; intro y a ha hy; rotate_left)
    | (refine RegsIn.bitsSet _ _ _ ?_ ?_; rotate_left; intro y a ha hy; rotate_left)
    | (refine RegsIn.foldl _ _ ?_ ?_; rotate_left; intro y a ha hy; rotate_left)
    | apply RegsIn.next ?_ (State.fireTrigger_in _ _ _ _ _) ?_
    | decide
    | exact Fin.isLt _
    | omega
    | dsimp -zeta only

theorem State.raiseQuiet_in (s : State) (a1 : Nat) (a2 : Nat) (a3 : Nat) (h0 : a1 < 128) :
    RegsIn [.events, .viol] s (State.raiseQuiet s a1 a2 a3) := by
  exact RegsIn.events (State.raiseQuiet_regs s _ _ h0)

theorem State.refuseEvent_in (s : State) (a1 : Nat) (a2 : Nat) :
    RegsIn [.events, .viol] s (State.refuseEvent s a1 a2) := by
  exact RegsIn.events (State.refuseEvent_regs s _ _)

theorem State.writeEvent_in (s : State) (a1 : Nat) (a2 : Nat) (a3 : Nat) :
    RegsIn [.events, .viol] s (State.writeEvent s a1 a2 a3) := by
  exact RegsIn.events (State.writeEvent_regs s _ _ _)

theorem State.raiseSource_in (s : State) (a1 : Nat) (a2 : Nat) (a3 : Nat) (h0 : a1 < 128) :
    RegsIn [.events, .viol] s (State.raiseSource s a1 a2 a3) := by
  exact RegsIn.events (State.raiseSource_regs s _ _ h0)

theorem State.skEvt_in (s : State) (a1 : Nat) (a2 : Nat) (h0 : a1 < 16) :
    RegsIn [.events, .viol, .skein] s (State.skEvt s a1 a2) := by
  unfold State.skEvt
  with_reducible repeat' first
    | assumption
    | exact RegsIn.rfl
    | refine RegsIn.setEvt (F.SK_EVT_STATUS_evt _) _ _ _ _ _ .skein ?_ (of_decide_eq_true rfl) (of_decide_eq_true rfl) (by simp only [F.SK_EVT_STATUS_evt, Bank.range]; omega) (by simp only [F.SK_EVT_STATUS_evt, Bank.range]; omega) (by omega) (by decide)
    | decide
    | exact Fin.isLt _
    | omega
    | dsimp -zeta only

theorem State.taskEvt_in (s : State) (a1 : Nat) (a2 : Nat) (h0 : a1 < 16) :
    RegsIn [.events, .task, .viol] s (State.taskEvt s a1 a2) := by
  unfold State.taskEvt
  have w : RegsIn [.task] s (s.wr (taskEvtFld a1 a2) 1) := by
    unfold taskEvtFld
    refine RegsIn.wr _ _ .task RegsIn.rfl ?_ (by decide) ?_ ?_ <;> repeat' split
    all_goals first
      | decide
      | exact of_decide_eq_true rfl
      | (simp only [F.TASK_EVT_slip, F.TASK_EVT_overrun, F.TASK_EVT_trap, F.TASK_EVT_halted, F.TASK_EVT_started, Bank.range]; omega)
  refine RegsIn.ite (fun _ => ?_) (fun _ => w.mono (by decide))
  exact (w.mono (by decide)).next (State.raiseSource_in _ _ _ _ (by omega)) (by decide)

theorem State.keyEvt_in (s : State) (a1 : Nat) :
    RegsIn [.events, .key, .viol] s (State.keyEvt s a1) := by
  unfold State.keyEvt
  have w : RegsIn [.key] s (s.wr (if a1 = 0 then F.KEY_EVT_changed else if a1 = 1 then F.KEY_EVT_invalid else F.KEY_EVT_disagree) 1) := by
    refine RegsIn.wr _ _ .key RegsIn.rfl ?_ (by decide) ?_ ?_ <;> repeat' split
    all_goals decide
  exact (w.mono (by decide)).next (State.raiseSource_in _ _ _ _ (by decide)) (by decide)

theorem State.plyEvt_in (s : State) (a1 : Nat) (h0 : a1 < 48) :
    RegsIn [.events, .ply, .viol] s (State.plyEvt s a1) := by
  unfold State.plyEvt
  with_reducible repeat' first
    | assumption
    | (extract_lets +onlyGivenNames z
       refine RegsIn.let z ?_ ?_
       subst z
       rotate_left
       clear_value z
       revert z
       intro y hy
       rotate_left)
    | (extract_lets +onlyGivenNames z; clear_value z; revert z; intro y)
    | exact RegsIn.rfl
    | refine RegsIn.ite ?_ ?_ <;> intro hc
    | refine RegsIn.wr F.PLY_EVT_evt _ .ply ?_ (of_decide_eq_true rfl) (of_decide_eq_true rfl) (of_decide_eq_true rfl) (of_decide_eq_true rfl)
    | apply RegsIn.next ?_ (State.raiseSource_in _ _ _ _ ?_) ?_
    | decide
    | exact Fin.isLt _
    | omega
    | dsimp -zeta only

theorem State.brkEvt_in (s : State) (a1 : Nat) :
    RegsIn [.events, .brake, .viol] s (State.brkEvt s a1) := by
  unfold State.brkEvt
  have w : RegsIn [.brake] s (s.wr (if a1 = 0 then F.BRK_EVT_asserted else if a1 = 1 then F.BRK_EVT_ended
    else if a1 = 2 then F.BRK_EVT_holdup else F.BRK_EVT_split) 1) := by
    refine RegsIn.wr _ _ .brake RegsIn.rfl ?_ (by decide) ?_ ?_ <;> repeat' split
    all_goals decide
  refine RegsIn.ite (fun _ => ?_) (fun _ => w.mono (by decide))
  exact (w.mono (by decide)).next (State.raiseSource_in _ _ _ _ (by decide)) (by decide)

theorem State.timeEvt_in (s : State) (a1 : Nat) :
    RegsIn [.events, .time, .viol] s (State.timeEvt s a1) := by
  unfold State.timeEvt
  have g : ∀ f : Fld, f.off = 0x500C ∧ f.lo < 32 → ∀ v, RegsIn [.time] s (s.wr f v) := fun f hf v =>
    RegsIn.wr _ _ .time RegsIn.rfl hf.2 (by decide) (by rw [hf.1]; decide) (by rw [hf.1]; decide)
  have e : (timeEvtFld a1).1.off = 0x500C ∧ (timeEvtFld a1).1.lo < 32 := by
    unfold timeEvtFld
    split
    all_goals exact ⟨Eq.refl _, of_decide_eq_true rfl⟩
  have hs : timeEvtSource a1 < 128 := by
    unfold timeEvtSource
    repeat' split
    all_goals decide
  refine RegsIn.ite (fun _ => ?_) (fun _ => (g _ e _).mono (by decide))
  exact ((g _ e _).mono (by decide)).next (State.raiseSource_in _ _ _ _ hs) (by decide)

theorem State.ringEvt_in (s : State) (a1 : Nat) :
    RegsIn [.events, .ring, .viol] s (State.ringEvt s a1) := by
  unfold State.ringEvt
  with_reducible repeat' first
    | assumption
    | (extract_lets +onlyGivenNames z
       refine RegsIn.let z ?_ ?_
       subst z
       rotate_left
       clear_value z
       revert z
       intro y hy
       rotate_left)
    | (extract_lets +onlyGivenNames z; clear_value z; revert z; intro y)
    | exact RegsIn.rfl
    | refine RegsIn.ite ?_ ?_ <;> intro hc
    | refine RegsIn.wr F.RING_EVT_evt _ .ring ?_ (of_decide_eq_true rfl) (of_decide_eq_true rfl) (of_decide_eq_true rfl) (of_decide_eq_true rfl)
    | refine RegsIn.wr F.RING_EVT_topology _ .ring ?_ (of_decide_eq_true rfl) (of_decide_eq_true rfl) (of_decide_eq_true rfl) (of_decide_eq_true rfl)
    | apply RegsIn.next ?_ (State.raiseSource_in _ _ _ _ ?_) ?_
    | decide
    | exact Fin.isLt _
    | omega
    | dsimp -zeta only

theorem State.recEvt_in (s : State) (a1 : Nat) :
    RegsIn [.events, .viol, .log] s (State.recEvt s a1) := by
  unfold State.recEvt
  with_reducible repeat' first
    | assumption
    | exact RegsIn.rfl
    | refine RegsIn.setEvt F.REC_EVT_evt _ _ _ _ _ .log ?_ (of_decide_eq_true rfl) (of_decide_eq_true rfl) (of_decide_eq_true rfl) (of_decide_eq_true rfl) (by omega) (by decide)
    | decide
    | exact Fin.isLt _
    | omega
    | dsimp -zeta only

theorem State.fwEvt_in (s : State) (a1 : Nat) :
    RegsIn [.events, .viol, .fw] s (State.fwEvt s a1) := by
  unfold State.fwEvt
  with_reducible repeat' first
    | assumption
    | exact RegsIn.rfl
    | refine RegsIn.setEvt F.FW_EVT_evt _ _ _ _ _ .fw ?_ (of_decide_eq_true rfl) (of_decide_eq_true rfl) (of_decide_eq_true rfl) (of_decide_eq_true rfl) (by omega) (by decide)
    | decide
    | exact Fin.isLt _
    | omega
    | dsimp -zeta only

theorem State.pwrEvt_in (s : State) (a1 : Nat) :
    RegsIn [.events, .viol, .power] s (State.pwrEvt s a1) := by
  unfold State.pwrEvt
  with_reducible repeat' first
    | assumption
    | exact RegsIn.rfl
    | refine RegsIn.setEvt F.PWR_EVT_evt _ _ _ _ _ .power ?_ (of_decide_eq_true rfl) (of_decide_eq_true rfl) (of_decide_eq_true rfl) (of_decide_eq_true rfl) (by omega) (by decide)
    | decide
    | exact Fin.isLt _
    | omega
    | dsimp -zeta only

theorem State.millEvt_in (s : State) (a1 : Nat) (a2 : Nat) (h0 : a1 < 2) :
    RegsIn [.events, .mill, .viol] s (State.millEvt s a1 a2) := by
  unfold State.millEvt
  with_reducible repeat' first
    | assumption
    | exact RegsIn.rfl
    | refine RegsIn.setEvt (F.MB_EVT_evt _) _ _ _ _ _ .mill ?_ (of_decide_eq_true rfl) (of_decide_eq_true rfl) (by simp only [F.MB_EVT_evt, Bank.range]; omega) (by simp only [F.MB_EVT_evt, Bank.range]; omega) (by omega) (by decide)
    | decide
    | exact Fin.isLt _
    | omega
    | dsimp -zeta only

theorem State.traceEvt_in (s : State) (a1 : Nat) (a2 : Nat) :
    RegsIn [.events, .viol, .trace] s (State.traceEvt s a1 a2) := by
  unfold State.traceEvt
  have w : RegsIn [.events, .viol, .trace] s (if a1 = 8 then s.wr F.TRACE_EVT_lost 1
      else s.wr F.TRACE_EVT_done (setBit (s.rd F.TRACE_EVT_done) a1 true)) :=
    RegsIn.ite (fun _ => RegsIn.wr _ _ .trace RegsIn.rfl (by decide) (by decide) (by decide) (by decide))
      (fun _ => RegsIn.wr _ _ .trace RegsIn.rfl (by decide) (by decide) (by decide) (by decide))
  refine RegsIn.ite (fun _ => ?_) (fun _ => w)
  exact w.next (State.raiseSource_in _ _ _ _ (by split <;> decide)) (by decide)

theorem State.workTick_in (s : State) :
    RegsIn [.time] s (State.workTick s) := by
  unfold State.workTick
  with_reducible repeat' first
    | assumption
    | (extract_lets +onlyGivenNames z
       refine RegsIn.let z ?_ ?_
       subst z
       rotate_left
       clear_value z
       revert z
       intro y hy
       rotate_left)
    | (extract_lets +onlyGivenNames z; clear_value z; revert z; intro y)
    | exact RegsIn.rfl
    | refine RegsIn.ite ?_ ?_ <;> intro hc
    | refine RegsIn.wrb F.TIME_STATUS_slewing _ .time ?_ (of_decide_eq_true rfl) (of_decide_eq_true rfl) (of_decide_eq_true rfl) (of_decide_eq_true rfl)
    | refine RegsIn.upd ?_
    | decide
    | exact Fin.isLt _
    | omega
    | dsimp -zeta only

theorem State.keepCalendar_in (s : State) :
    RegsIn [] s (State.keepCalendar s) := by
  unfold State.keepCalendar
  with_reducible repeat' first
    | assumption
    | (extract_lets +onlyGivenNames z; clear_value z; revert z; intro y)
    | exact RegsIn.rfl
    | refine RegsIn.ite ?_ ?_ <;> intro hc
    | refine RegsIn.upd ?_
    | decide
    | exact Fin.isLt _
    | omega
    | dsimp -zeta only

theorem timeTick_in (s : State) :
    RegsIn [.time] s (timeTick s) := by
  unfold timeTick
  with_reducible repeat' first
    | assumption
    | (extract_lets +onlyGivenNames z
       refine RegsIn.let z ?_ ?_
       subst z
       rotate_left
       clear_value z
       revert z
       intro y hy
       rotate_left)
    | (extract_lets +onlyGivenNames z; clear_value z; revert z; intro y)
    | exact RegsIn.rfl
    | refine RegsIn.ite ?_ ?_ <;> intro hc
    | apply RegsIn.next ?_ (State.workTick_in _) ?_
    | refine RegsIn.upd ?_
    | decide
    | exact Fin.isLt _
    | omega
    | dsimp -zeta only

theorem State.setPort_in (s : State) (a1 : Nat) (a2 : SkeinPort) :
    RegsIn [] s (State.setPort s a1 a2) := by
  unfold State.setPort
  with_reducible repeat' first
    | assumption
    | (extract_lets +onlyGivenNames z; clear_value z; revert z; intro y)
    | exact RegsIn.rfl
    | refine RegsIn.upd ?_
    | decide
    | exact Fin.isLt _
    | omega
    | dsimp -zeta only

theorem State.sending_in (s : State) (a1 : Nat) (a2 : Nat) :
    RegsIn [] s (State.sending s a1 a2) := by
  unfold State.sending
  with_reducible repeat' first
    | assumption
    | (extract_lets +onlyGivenNames z; clear_value z; revert z; intro y)
    | exact RegsIn.rfl
    | apply RegsIn.next ?_ (State.setPort_in _ _ _) ?_
    | decide
    | exact Fin.isLt _
    | omega
    | dsimp -zeta only

theorem State.endSending_in (s : State) (a1 : Nat) :
    RegsIn [] s (State.endSending s a1) := by
  unfold State.endSending
  with_reducible repeat' first
    | assumption
    | (extract_lets +onlyGivenNames z; clear_value z; revert z; intro y)
    | exact RegsIn.rfl
    | refine RegsIn.ite ?_ ?_ <;> intro hc
    | apply RegsIn.next ?_ (State.setPort_in _ _ _) ?_
    | apply RegsIn.next ?_ (State.emit_in _ _) ?_
    | decide
    | exact Fin.isLt _
    | omega
    | dsimp -zeta only

theorem State.launchSkeinIn_in (s : State) (a1 : Nat) (a2 : Nat) (a3 : Nat) (a4 : Nat) (a5 : Nat) (a6 : Nat) (a7 : Nat) (a8 : Nat) (a9 : Bytes) :
    RegsIn [] s (State.launchSkeinIn s a1 a2 a3 a4 a5 a6 a7 a8 a9) := by
  unfold State.launchSkeinIn
  with_reducible repeat' first
    | assumption
    | (extract_lets +onlyGivenNames z
       refine RegsIn.let z ?_ ?_
       subst z
       rotate_left
       clear_value z
       revert z
       intro y hy
       rotate_left)
    | (extract_lets +onlyGivenNames z; clear_value z; revert z; intro y)
    | exact RegsIn.rfl
    | refine RegsIn.ite ?_ ?_ <;> intro hc
    | apply RegsIn.next ?_ (State.emit_in _ _) ?_
    | apply RegsIn.next ?_ (State.sending_in _ _ _) ?_
    | refine RegsIn.upd ?_
    | decide
    | exact Fin.isLt _
    | omega
    | dsimp -zeta only

theorem State.launchSkein_in (s : State) (a1 : Nat) (a2 : Nat) (a3 : Nat) (a4 : Nat) (a5 : Nat) (a6 : Nat) (a7 : Nat) (a8 : Bytes) :
    RegsIn [] s (State.launchSkein s a1 a2 a3 a4 a5 a6 a7 a8) := by
  unfold State.launchSkein
  with_reducible repeat' first
    | assumption
    | exact RegsIn.rfl
    | apply RegsIn.next ?_ (State.launchSkeinIn_in _ _ _ _ _ _ _ _ _ _) ?_
    | decide
    | exact Fin.isLt _
    | omega
    | dsimp -zeta only

theorem State.sendPly_in (s : State) (a1 : Nat) (a2 : Nat) (a3 : Bytes) :
    RegsIn [] s (State.sendPly s a1 a2 a3) := by
  unfold State.sendPly
  with_reducible repeat' first
    | assumption
    | (extract_lets +onlyGivenNames z
       refine RegsIn.let z ?_ ?_
       subst z
       rotate_left
       clear_value z
       revert z
       intro y hy
       rotate_left)
    | (extract_lets +onlyGivenNames z; clear_value z; revert z; intro y)
    | exact RegsIn.rfl
    | refine RegsIn.ite ?_ ?_ <;> intro hc
    | apply RegsIn.next ?_ (State.emit_in _ _) ?_
    | refine RegsIn.upd ?_
    | decide
    | exact Fin.isLt _
    | omega
    | dsimp -zeta only

theorem State.plyTake_in (s : State) (a1 : Nat) (a2 : PlyHdr) :
    RegsIn [.ply] s (State.plyTake s a1 a2).1 := by
  unfold State.plyTake
  with_reducible repeat' first
    | assumption
    | (extract_lets +onlyGivenNames z; clear_value z; revert z; intro y)
    | exact RegsIn.rfl
    | refine RegsIn.ite ?_ ?_ <;> intro hc
    | refine RegsIn.ite1 ?_ ?_ <;> intro hc
    | refine RegsIn.inc F.PLY_CNT_SEAL_count .ply ?_ (of_decide_eq_true rfl) (of_decide_eq_true rfl) (of_decide_eq_true rfl) (of_decide_eq_true rfl)
    | split
    | refine RegsIn.upd ?_
    | decide
    | exact Fin.isLt _
    | omega
    | dsimp -zeta only

theorem State.putCell_in (s : State) (a1 : Nat) (a2 : SlotCell) :
    RegsIn [] s (State.putCell s a1 a2) := by
  unfold State.putCell
  with_reducible repeat' first
    | assumption
    | (extract_lets +onlyGivenNames z; clear_value z; revert z; intro y)
    | exact RegsIn.rfl
    | refine RegsIn.upd ?_
    | decide
    | exact Fin.isLt _
    | omega
    | dsimp -zeta only

theorem State.saveSlot_in (s : State) (a1 : Nat) :
    RegsIn [] s (State.saveSlot s a1) := by
  unfold State.saveSlot
  with_reducible repeat' first
    | assumption
    | (extract_lets +onlyGivenNames z; clear_value z; revert z; intro y)
    | exact RegsIn.rfl
    | refine RegsIn.ite ?_ ?_ <;> intro hc
    | refine RegsIn.upd ?_
    | decide
    | exact Fin.isLt _
    | omega
    | dsimp -zeta only

theorem State.saveForces_in (s : State) :
    RegsIn [] s (State.saveForces s) := by
  unfold State.saveForces
  with_reducible repeat' first
    | assumption
    | (extract_lets +onlyGivenNames z; clear_value z; revert z; intro y)
    | exact RegsIn.rfl
    | refine RegsIn.ite ?_ ?_ <;> intro hc
    | refine RegsIn.upd ?_
    | decide
    | exact Fin.isLt _
    | omega
    | dsimp -zeta only

theorem State.setCell_in (s : State) (a1 : Nat) (a2 : SlotCell) :
    RegsIn [] s (State.setCell s a1 a2) := by
  unfold State.setCell
  with_reducible repeat' first
    | assumption
    | exact RegsIn.rfl
    | apply RegsIn.next ?_ (State.putCell_in _ _ _) ?_
    | apply RegsIn.next ?_ (State.saveSlot_in _ _) ?_
    | decide
    | exact Fin.isLt _
    | omega
    | dsimp -zeta only

theorem State.noteWords_in (s : State) (a1 : Nat) (a2 : List Nat) :
    RegsIn [] s (State.noteWords s a1 a2) := by
  unfold State.noteWords
  with_reducible repeat' first
    | assumption
    | (extract_lets +onlyGivenNames z; clear_value z; revert z; intro y)
    | exact RegsIn.rfl
    | refine RegsIn.upd ?_
    | decide
    | exact Fin.isLt _
    | omega
    | dsimp -zeta only

theorem State.saveTask_in (s : State) (a1 : Nat) (a2 : Nat) (a3 : List Nat) :
    RegsIn [] s (State.saveTask s a1 a2 a3) := by
  unfold State.saveTask
  with_reducible repeat' first
    | assumption
    | (extract_lets +onlyGivenNames z
       refine RegsIn.let z ?_ ?_
       subst z
       rotate_left
       clear_value z
       revert z
       intro y hy
       rotate_left)
    | (extract_lets +onlyGivenNames z; clear_value z; revert z; intro y)
    | exact RegsIn.rfl
    | refine RegsIn.ite ?_ ?_ <;> intro hc
    | apply RegsIn.next ?_ (State.noteWords_in _ _ _) ?_
    | split
    | refine RegsIn.upd ?_
    | decide
    | exact Fin.isLt _
    | omega
    | dsimp -zeta only

theorem State.saveLoop_in (s : State) (a1 : Nat) (a2 : Nat) :
    RegsIn [] s (State.saveLoop s a1 a2) := by
  unfold State.saveLoop
  with_reducible repeat' first
    | assumption
    | (extract_lets +onlyGivenNames z
       refine RegsIn.let z ?_ ?_
       subst z
       rotate_left
       clear_value z
       revert z
       intro y hy
       rotate_left)
    | (extract_lets +onlyGivenNames z; clear_value z; revert z; intro y)
    | exact RegsIn.rfl
    | refine RegsIn.ite ?_ ?_ <;> intro hc
    | apply RegsIn.next ?_ (State.noteWords_in _ _ _) ?_
    | split
    | refine RegsIn.upd ?_
    | decide
    | exact Fin.isLt _
    | omega
    | dsimp -zeta only

theorem State.barKey_in (s : State) (a1 : Nat) (a2 : Nat) :
    RegsIn [] s (State.barKey s a1 a2) := by
  unfold State.barKey
  with_reducible repeat' first
    | assumption
    | (extract_lets +onlyGivenNames z; clear_value z; revert z; intro y)
    | exact RegsIn.rfl
    | refine RegsIn.ite ?_ ?_ <;> intro hc
    | split
    | refine RegsIn.upd ?_
    | decide
    | exact Fin.isLt _
    | omega
    | dsimp -zeta only

theorem State.takeInput_in (s : State) (a1 : Nat) (a2 : Sample) (a3 : Nat) (a4 : Bool) (a5 : Bool) (a6 : Bool) :
    RegsIn [] s (State.takeInput s a1 a2 a3 a4 a5 a6) := by
  unfold State.takeInput
  with_reducible repeat' first
    | assumption
    | (extract_lets +onlyGivenNames z
       refine RegsIn.let z ?_ ?_
       subst z
       rotate_left
       clear_value z
       revert z
       intro y hy
       rotate_left)
    | (extract_lets +onlyGivenNames z; clear_value z; revert z; intro y)
    | exact RegsIn.rfl
    | apply RegsIn.next ?_ (State.setCell_in _ _ _) ?_
    | apply RegsIn.next ?_ (State.barKey_in _ _ _) ?_
    | refine RegsIn.upd ?_
    | decide
    | exact Fin.isLt _
    | omega
    | dsimp -zeta only

theorem State.substitute_in (s : State) (a1 : Nat) :
    RegsIn [] s (State.substitute s a1) := by
  unfold State.substitute
  with_reducible repeat' first
    | assumption
    | (extract_lets +onlyGivenNames z
       refine RegsIn.let z ?_ ?_
       subst z
       rotate_left
       clear_value z
       revert z
       intro y hy
       rotate_left)
    | (extract_lets +onlyGivenNames z; clear_value z; revert z; intro y)
    | exact RegsIn.rfl
    | refine RegsIn.ite ?_ ?_ <;> intro hc
    | apply RegsIn.next ?_ (State.setCell_in _ _ _) ?_
    | split
    | refine RegsIn.upd ?_
    | decide
    | exact Fin.isLt _
    | omega
    | dsimp -zeta only

theorem State.rebuildPayloads_in (s : State) :
    RegsIn [] s (State.rebuildPayloads s) := by
  unfold State.rebuildPayloads
  with_reducible repeat' first
    | assumption
    | (extract_lets +onlyGivenNames z; clear_value z; revert z; intro y)
    | exact RegsIn.rfl
    | refine RegsIn.upd ?_
    | decide
    | exact Fin.isLt _
    | omega
    | dsimp -zeta only

theorem State.queueRecord_in (s : State) (a1 : RecEntry) :
    RegsIn [.events, .viol, .log] s (State.queueRecord s a1) := by
  unfold State.queueRecord
  have q : ∀ (l : List RecEntry), RegsIn [.events, .viol, .log] s (({ s with recorder := { s.recorder with queue := l } } : State).wr
      F.REC_STATUS_queued l.length) := fun l =>
    RegsIn.wr _ _ .log (RegsIn.upd RegsIn.rfl) (by decide) (by decide) (by decide) (by decide)
  refine RegsIn.ite (fun _ => ?_) (fun _ => q _)
  exact RegsIn.next (RegsIn.inc F.REC_LOST_count .log (q _) (by decide) (by decide) (by decide) (by decide))
    (State.recEvt_in _ _) (by decide)

theorem State.takeRecord_in (s : State) (a1 : RecRaise) (a2 : Nat) :
    RegsIn [.events, .viol, .log] s (State.takeRecord s a1 a2) := by
  unfold State.takeRecord
  with_reducible repeat' first
    | assumption
    | (extract_lets +onlyGivenNames z
       refine RegsIn.let z ?_ ?_
       subst z
       rotate_left
       clear_value z
       revert z
       intro y hy
       rotate_left)
    | (extract_lets +onlyGivenNames z; clear_value z; revert z; intro y)
    | exact RegsIn.rfl
    | apply RegsIn.next ?_ (State.queueRecord_in _ _) ?_
    | refine RegsIn.upd ?_
    | decide
    | exact Fin.isLt _
    | omega
    | dsimp -zeta only

theorem State.fireGasp_in (s : State) (a1 : Nat) :
    RegsIn [.events, .viol, .log] s (State.fireGasp s a1) := by
  unfold State.fireGasp
  with_reducible repeat' first
    | assumption
    | (extract_lets +onlyGivenNames z
       refine RegsIn.let z ?_ ?_
       subst z
       rotate_left
       clear_value z
       revert z
       intro y hy
       rotate_left)
    | (extract_lets +onlyGivenNames z; clear_value z; revert z; intro y)
    | exact RegsIn.rfl
    | apply RegsIn.next ?_ (State.fireTrigger_in _ _ _ _ _) ?_
    | apply RegsIn.next ?_ (State.takeRecord_in _ _ _) ?_
    | split
    | refine RegsIn.upd ?_
    | decide
    | exact Fin.isLt _
    | omega
    | dsimp -zeta only

theorem State.sendBrake_in (s : State) (a1 : Nat) :
    RegsIn [] s (State.sendBrake s a1) := by
  unfold State.sendBrake
  with_reducible repeat' first
    | assumption
    | exact RegsIn.rfl
    | apply RegsIn.next ?_ (State.launchSkein_in _ _ _ _ _ _ _ _ _) ?_
    | split
    | decide
    | exact Fin.isLt _
    | omega
    | dsimp -zeta only

theorem State.sendBrakes_in (s : State) (a1 : Nat) :
    RegsIn [] s (State.sendBrakes s a1) := by
  unfold State.sendBrakes
  with_reducible repeat' first
    | assumption
    | exact RegsIn.rfl
    | (refine RegsIn.upTo _ _ ?_ ?_; rotate_left; intro y a ha hy; rotate_left)
    | (refine RegsIn.bitsSet _ _ _ ?_ ?_; rotate_left; intro y a ha hy; rotate_left)
    | (refine RegsIn.foldl _ _ ?_ ?_; rotate_left; intro y a ha hy; rotate_left)
    | apply RegsIn.next ?_ (State.sendBrake_in _ _) ?_
    | decide
    | exact Fin.isLt _
    | omega
    | dsimp -zeta only

theorem State.brakePort_in (s : State) (a1 : Nat) :
    RegsIn [] s (State.brakePort s a1) := by
  unfold State.brakePort
  with_reducible repeat' first
    | assumption
    | exact RegsIn.rfl
    | apply RegsIn.next ?_ (State.sendBrakes_in _ _) ?_
    | apply RegsIn.next ?_ (State.endSending_in _ _) ?_
    | decide
    | exact Fin.isLt _
    | omega
    | dsimp -zeta only

theorem State.evalMatrix_in (s : State) :
    RegsIn [.events, .brake, .viol] s (State.evalMatrix s) := by
  unfold State.evalMatrix
  with_reducible repeat' first
    | assumption
    | (extract_lets +onlyGivenNames z
       refine RegsIn.let z ?_ ?_
       subst z
       rotate_left
       clear_value z
       revert z
       intro y hy
       rotate_left)
    | (extract_lets +onlyGivenNames z; clear_value z; revert z; intro y)
    | exact RegsIn.rfl
    | refine RegsIn.ite ?_ ?_ <;> intro hc
    | (refine RegsIn.upTo _ _ ?_ ?_; rotate_left; intro y a ha hy; rotate_left)
    | (refine RegsIn.bitsSet _ _ _ ?_ ?_; rotate_left; intro y a ha hy; rotate_left)
    | (refine RegsIn.foldl _ _ ?_ ?_; rotate_left; intro y a ha hy; rotate_left)
    | refine RegsIn.wr F.BRK_SRC_EFF_eff _ .brake ?_ (of_decide_eq_true rfl) (of_decide_eq_true rfl) (of_decide_eq_true rfl) (of_decide_eq_true rfl)
    | refine RegsIn.wr F.BRK_STATE_bo _ .brake ?_ (of_decide_eq_true rfl) (of_decide_eq_true rfl) (of_decide_eq_true rfl) (of_decide_eq_true rfl)
    | refine RegsIn.wr F.BRK_STATE_port _ .brake ?_ (of_decide_eq_true rfl) (of_decide_eq_true rfl) (of_decide_eq_true rfl) (of_decide_eq_true rfl)
    | apply RegsIn.next ?_ (State.brakePort_in _ _) ?_
    | apply RegsIn.next ?_ (State.brkEvt_in _ _) ?_
    | refine RegsIn.upd ?_
    | decide
    | exact Fin.isLt _
    | omega
    | dsimp -zeta only

theorem State.stampWords_in (s : State) (a1 : Nat → Fld) (a2 : Nat) (h0 : ∀ i, i < 4 → (a1 i).lo < 32 ∧ Bank.brake.range.1 ≤ (a1 i).off ∧ (a1 i).off < Bank.brake.range.2) :
    RegsIn [.brake] s (State.stampWords s a1 a2) := by
  unfold State.stampWords
  exact RegsIn.upTo _ _ RegsIn.rfl (fun y a ha hy => RegsIn.wr _ _ .brake hy (h0 a ha).1 (by decide) (h0 a ha).2.1 (h0 a ha).2.2)

theorem State.stampRow_in (s : State) (a1 : Nat) (h0 : a1 < 32) :
    RegsIn [.time, .brake] s (State.stampRow s a1) := by
  unfold State.stampRow
  with_reducible repeat' first
    | assumption
    | (extract_lets +onlyGivenNames z
       refine RegsIn.let z ?_ ?_
       subst z
       rotate_left
       clear_value z
       revert z
       intro y hy
       rotate_left)
    | (extract_lets +onlyGivenNames z; clear_value z; revert z; intro y)
    | exact RegsIn.rfl
    | refine RegsIn.ite ?_ ?_ <;> intro hc
    | refine RegsIn.wr (F.BRK_COUNT_count _) _ .brake ?_ (of_decide_eq_true rfl) (of_decide_eq_true rfl) (by simp only [F.BRK_COUNT_count, Bank.range]; omega) (by simp only [F.BRK_COUNT_count, Bank.range]; omega)
    | refine RegsIn.inc (F.BRK_COUNT_count _) .brake ?_ (of_decide_eq_true rfl) (of_decide_eq_true rfl) (by simp only [F.BRK_COUNT_count, Bank.range]; omega) (by simp only [F.BRK_COUNT_count, Bank.range]; omega)
    | refine RegsIn.wr (F.BRK_FIRST_TIME_word _) _ .brake ?_ (of_decide_eq_true rfl) (of_decide_eq_true rfl) (by simp only [F.BRK_FIRST_TIME_word, Bank.range]; omega) (by simp only [F.BRK_FIRST_TIME_word, Bank.range]; omega)
    | refine RegsIn.inc (F.BRK_FIRST_TIME_word _) .brake ?_ (of_decide_eq_true rfl) (of_decide_eq_true rfl) (by simp only [F.BRK_FIRST_TIME_word, Bank.range]; omega) (by simp only [F.BRK_FIRST_TIME_word, Bank.range]; omega)
    | refine RegsIn.wr F.BRK_FIRST_row _ .brake ?_ (of_decide_eq_true rfl) (of_decide_eq_true rfl) (of_decide_eq_true rfl) (of_decide_eq_true rfl)
    | refine RegsIn.inc F.BRK_FIRST_row .brake ?_ (of_decide_eq_true rfl) (of_decide_eq_true rfl) (of_decide_eq_true rfl) (of_decide_eq_true rfl)
    | refine RegsIn.wr F.BRK_FIRST_valid _ .brake ?_ (of_decide_eq_true rfl) (of_decide_eq_true rfl) (of_decide_eq_true rfl) (of_decide_eq_true rfl)
    | refine RegsIn.inc F.BRK_FIRST_valid .brake ?_ (of_decide_eq_true rfl) (of_decide_eq_true rfl) (of_decide_eq_true rfl) (of_decide_eq_true rfl)
    | refine RegsIn.wr (F.BRK_LAST_TIME_word _) _ .brake ?_ (of_decide_eq_true rfl) (of_decide_eq_true rfl) (by simp only [F.BRK_LAST_TIME_word, Bank.range]; omega) (by simp only [F.BRK_LAST_TIME_word, Bank.range]; omega)
    | refine RegsIn.inc (F.BRK_LAST_TIME_word _) .brake ?_ (of_decide_eq_true rfl) (of_decide_eq_true rfl) (by simp only [F.BRK_LAST_TIME_word, Bank.range]; omega) (by simp only [F.BRK_LAST_TIME_word, Bank.range]; omega)
    | refine RegsIn.wr F.BRK_LAST_row _ .brake ?_ (of_decide_eq_true rfl) (of_decide_eq_true rfl) (of_decide_eq_true rfl) (of_decide_eq_true rfl)
    | refine RegsIn.inc F.BRK_LAST_row .brake ?_ (of_decide_eq_true rfl) (of_decide_eq_true rfl) (of_decide_eq_true rfl) (of_decide_eq_true rfl)
    | refine RegsIn.wr F.BRK_LAST_valid _ .brake ?_ (of_decide_eq_true rfl) (of_decide_eq_true rfl) (of_decide_eq_true rfl) (of_decide_eq_true rfl)
    | refine RegsIn.inc F.BRK_LAST_valid .brake ?_ (of_decide_eq_true rfl) (of_decide_eq_true rfl) (of_decide_eq_true rfl) (of_decide_eq_true rfl)
    | apply RegsIn.next ?_ (timeTick_in _) ?_
    | apply RegsIn.next ?_ (State.stampWords_in _ _ _ ?_) ?_
    | (intro i hi; refine ⟨of_decide_eq_true rfl, ?_, ?_⟩ <;> simp only [F.BRK_FIRST_TIME_word, F.BRK_LAST_TIME_word, Bank.range] <;> omega)
    | decide
    | exact Fin.isLt _
    | omega
    | dsimp -zeta only

theorem State.traceBrake_in (s : State) (a1 : Nat) :
    RegsIn [] s (State.traceBrake s a1) := by
  unfold State.traceBrake
  with_reducible repeat' first
    | assumption
    | (extract_lets +onlyGivenNames z; clear_value z; revert z; intro y)
    | exact RegsIn.rfl
    | refine RegsIn.ite ?_ ?_ <;> intro hc
    | refine RegsIn.upd ?_
    | decide
    | exact Fin.isLt _
    | omega
    | dsimp -zeta only

theorem State.setRow_in (s : State) (a1 : Nat) (a2 : Bool) (h0 : a1 < 32) :
    RegsIn [.events, .time, .brake, .viol] s (State.setRow s a1 a2) := by
  unfold State.setRow
  with_reducible repeat' first
    | assumption
    | (extract_lets +onlyGivenNames z
       refine RegsIn.let z ?_ ?_
       subst z
       rotate_left
       clear_value z
       revert z
       intro y hy
       rotate_left)
    | (extract_lets +onlyGivenNames z; clear_value z; revert z; intro y)
    | exact RegsIn.rfl
    | refine RegsIn.ite ?_ ?_ <;> intro hc
    | refine RegsIn.wr F.BRK_SRC_RAW_raw _ .brake ?_ (of_decide_eq_true rfl) (of_decide_eq_true rfl) (of_decide_eq_true rfl) (of_decide_eq_true rfl)
    | apply RegsIn.next ?_ (State.stampRow_in _ _ ?_) ?_
    | apply RegsIn.next ?_ (State.traceBrake_in _ _) ?_
    | apply RegsIn.next ?_ (State.brkEvt_in _ _) ?_
    | apply RegsIn.next ?_ (State.evalMatrix_in _) ?_
    | refine RegsIn.upd ?_
    | decide
    | exact Fin.isLt _
    | omega
    | dsimp -zeta only

theorem State.lossRows_in (s : State) :
    RegsIn [.events, .time, .brake, .viol] s (State.lossRows s) := by
  unfold State.lossRows
  with_reducible repeat' first
    | assumption
    | exact RegsIn.rfl
    | (refine RegsIn.upTo _ _ ?_ ?_; rotate_left; intro y a ha hy; rotate_left)
    | (refine RegsIn.bitsSet _ _ _ ?_ ?_; rotate_left; intro y a ha hy; rotate_left)
    | (refine RegsIn.foldl _ _ ?_ ?_; rotate_left; intro y a ha hy; rotate_left)
    | apply RegsIn.next ?_ (State.setRow_in _ _ _ ?_) ?_
    | decide
    | exact Fin.isLt _
    | omega
    | dsimp -zeta only

theorem State.row19_in (s : State) :
    RegsIn [.events, .time, .brake, .viol] s (State.row19 s) := by
  unfold State.row19
  with_reducible repeat' first
    | assumption
    | exact RegsIn.rfl
    | apply RegsIn.next ?_ (State.setRow_in _ _ _ ?_) ?_
    | decide
    | exact Fin.isLt _
    | omega
    | dsimp -zeta only

theorem State.acViolation_in (s : State) (a1 : Nat) (a2 : Nat) (a3 : Nat) (a4 : Nat) (a5 : Nat) (a6 : Nat) (h0 : a1 < 4) :
    RegsIn [.events, .viol] s (State.acViolation s a1 a2 a3 a4 a5 a6) := by
  unfold State.acViolation
  with_reducible repeat' first
    | assumption
    | (extract_lets +onlyGivenNames z
       refine RegsIn.let z ?_ ?_
       subst z
       rotate_left
       clear_value z
       revert z
       intro y hy
       rotate_left)
    | (extract_lets +onlyGivenNames z; clear_value z; revert z; intro y)
    | exact RegsIn.rfl
    | refine RegsIn.ite ?_ ?_ <;> intro hc
    | apply RegsIn.next ?_ (State.acNote_in _ _ _ _ _ _ _ ?_) ?_
    | apply RegsIn.next ?_ (State.raiseSource_in _ _ _ _ ?_) ?_
    | decide
    | exact Fin.isLt _
    | omega
    | dsimp -zeta only

theorem State.acAccess_in (s : State) (a1 : Nat) (a2 : Nat) (a3 : Nat) (a4 : Nat) (a5 : Nat) (h0 : a1 < 4) :
    RegsIn [.events, .viol] s (State.acAccess s a1 a2 a3 a4 a5).1 := by
  unfold State.acAccess
  with_reducible repeat' first
    | assumption
    | exact RegsIn.rfl
    | apply RegsIn.next ?_ (State.acViolation_in _ _ _ _ _ _ _ ?_) ?_
    | split
    | decide
    | exact Fin.isLt _
    | omega
    | dsimp -zeta only

theorem State.dmaError_in (s : State) (a1 : Nat) (a2 : Nat) :
    RegsIn [.events, .viol] s (State.dmaError s a1 a2) := by
  unfold State.dmaError
  with_reducible repeat' first
    | assumption
    | (extract_lets +onlyGivenNames z
       refine RegsIn.let z ?_ ?_
       subst z
       rotate_left
       clear_value z
       revert z
       intro y hy
       rotate_left)
    | exact RegsIn.rfl
    | refine RegsIn.wr F.HOST_ERR_err _ .events ?_ (of_decide_eq_true rfl) (of_decide_eq_true rfl) (of_decide_eq_true rfl) (of_decide_eq_true rfl)
    | apply RegsIn.next ?_ (State.raiseSource_in _ _ _ _ ?_) ?_
    | decide
    | exact Fin.isLt _
    | omega
    | dsimp -zeta only

theorem State.writeCpl_in (s : State) (a1 : Completion) (h0 : a1.ring < 4) :
    RegsIn [.events, .viol] s (State.writeCpl s a1) := by
  have h := fun x => State.acAccess_in s 3 1 3 x 32 (by decide)
  unfold State.writeCpl
  extract_lets r n size base addr
  refine RegsIn.ite (fun _ => RegsIn.rfl) (fun _ => ?_)
  have h := h addr
  revert h
  generalize s.acAccess 3 1 3 addr 32 = p
  rcases p with ⟨t, _ | _⟩ <;> intro h <;> dsimp only
  · exact h.next (State.dmaError_in _ _ _) (by decide)
  · have w : ∀ (u : State) (b : Bool), RegsIn [.events, .viol] s u → RegsIn [.events, .viol] s (u.wrb (F.HRING_STATUS_blocked r) b) :=
      fun u b e => RegsIn.wrb _ _ .events e (of_decide_eq_true rfl) (by decide) (by simp only [F.HRING_STATUS_blocked, Bank.range]; omega)
        (by simp only [F.HRING_STATUS_blocked, Bank.range]; omega)
    refine RegsIn.ite (fun _ => ?_) (fun _ => ?_)
    · refine RegsIn.next (w _ _ ?_) (State.raiseSource_in _ _ _ _ (by omega)) (by decide)
      exact RegsIn.upd (h.next (State.emit_in _ _) (by decide))
    · refine w _ _ ?_
      exact RegsIn.upd (h.next (State.emit_in _ _) (by decide))

theorem State.complete_in (s : State) (a1 : HostCmd) (a2 : Nat) (a3 : Nat) (a4 : Nat) (a5 : Nat) :
    RegsIn [.events, .viol] s (State.complete s a1 a2 a3 a4 a5) := by
  unfold State.complete
  simp only
  refine RegsIn.ite (fun _ => RegsIn.rfl) (fun _ => RegsIn.ite (fun _ => State.dmaError_in _ _ _) (fun _ =>
    RegsIn.ite (fun _ => ?_) (fun _ => State.writeCpl_in _ _ a1.ring.isLt)))
  have hr := a1.ring.isLt
  exact RegsIn.wrb _ _ .events (RegsIn.upd RegsIn.rfl) (of_decide_eq_true rfl) (by decide)
    (by simp only [F.HRING_STATUS_blocked, Bank.range]; omega) (by simp only [F.HRING_STATUS_blocked, Bank.range]; omega)

theorem State.busyBits_in (s : State) :
    RegsIn [.events] s (State.busyBits s) := by
  unfold State.busyBits
  with_reducible repeat' first
    | assumption
    | exact RegsIn.rfl
    | (refine RegsIn.upTo _ _ ?_ ?_; rotate_left; intro y a ha hy; rotate_left)
    | (refine RegsIn.bitsSet _ _ _ ?_ ?_; rotate_left; intro y a ha hy; rotate_left)
    | (refine RegsIn.foldl _ _ ?_ ?_; rotate_left; intro y a ha hy; rotate_left)
    | refine RegsIn.wrb (F.HRING_STATUS_miller_busy _) _ .events ?_ (of_decide_eq_true rfl) (of_decide_eq_true rfl) (by simp only [F.HRING_STATUS_miller_busy, Bank.range]; omega) (by simp only [F.HRING_STATUS_miller_busy, Bank.range]; omega)
    | decide
    | exact Fin.isLt _
    | omega
    | dsimp -zeta only

theorem State.holdCmd_in (s : State) (a1 : HostCmd) (a2 : Nat) (a3 : Option Nat) (a4 : Option Nat) :
    RegsIn [.events] s (State.holdCmd s a1 a2 a3 a4) := by
  unfold State.holdCmd
  with_reducible repeat' first
    | assumption
    | (extract_lets +onlyGivenNames z
       refine RegsIn.let z ?_ ?_
       subst z
       rotate_left
       clear_value z
       revert z
       intro y hy
       rotate_left)
    | (extract_lets +onlyGivenNames z; clear_value z; revert z; intro y)
    | exact RegsIn.rfl
    | apply RegsIn.next ?_ (State.busyBits_in _) ?_
    | refine RegsIn.upd ?_
    | decide
    | exact Fin.isLt _
    | omega
    | dsimp -zeta only

theorem State.finish_in (s : State) (a1 : MillerCmd → Bool) (a2 : Nat) (a3 : Nat) (a4 : Nat) (a5 : Nat) :
    RegsIn [.events, .viol] s (State.finish s a1 a2 a3 a4 a5) := by
  unfold State.finish
  with_reducible repeat' first
    | assumption
    | (extract_lets +onlyGivenNames z
       refine RegsIn.let z ?_ ?_
       subst z
       rotate_left
       clear_value z
       revert z
       intro y hy
       rotate_left)
    | (extract_lets +onlyGivenNames z; clear_value z; revert z; intro y)
    | exact RegsIn.rfl
    | refine RegsIn.ite ?_ ?_ <;> intro hc
    | (refine RegsIn.upTo _ _ ?_ ?_; rotate_left; intro y a ha hy; rotate_left)
    | (refine RegsIn.bitsSet _ _ _ ?_ ?_; rotate_left; intro y a ha hy; rotate_left)
    | (refine RegsIn.foldl _ _ ?_ ?_; rotate_left; intro y a ha hy; rotate_left)
    | apply RegsIn.next ?_ (State.busyBits_in _) ?_
    | apply RegsIn.next ?_ (State.complete_in _ _ _ _ _ _) ?_
    | refine RegsIn.upd ?_
    | decide
    | exact Fin.isLt _
    | omega
    | dsimp -zeta only

theorem State.hopState_in (s : State) :
    RegsIn [.hopper] s (State.hopState s) := by
  unfold State.hopState
  with_reducible repeat' first
    | assumption
    | exact RegsIn.rfl
    | refine RegsIn.ite ?_ ?_ <;> intro hc
    | refine RegsIn.wr F.HOPPER_STATUS_state _ .hopper ?_ (of_decide_eq_true rfl) (of_decide_eq_true rfl) (of_decide_eq_true rfl) (of_decide_eq_true rfl)
    | decide
    | exact Fin.isLt _
    | omega
    | dsimp -zeta only

theorem State.dropArmed_in (s : State) (a1 : Option (Nat × Nat)) :
    RegsIn [.hopper, .online] s (State.dropArmed s a1) := by
  unfold State.dropArmed
  with_reducible repeat' first
    | assumption
    | (extract_lets +onlyGivenNames z
       refine RegsIn.let z ?_ ?_
       subst z
       rotate_left
       clear_value z
       revert z
       intro y hy
       rotate_left)
    | (extract_lets +onlyGivenNames z; clear_value z; revert z; intro y)
    | exact RegsIn.rfl
    | refine RegsIn.ite ?_ ?_ <;> intro hc
    | refine RegsIn.wr F.HOPPER_STATUS_last_result _ .hopper ?_ (of_decide_eq_true rfl) (of_decide_eq_true rfl) (of_decide_eq_true rfl) (of_decide_eq_true rfl)
    | refine RegsIn.wr F.ONLINE_STATUS_last_abandoned _ .online ?_ (of_decide_eq_true rfl) (of_decide_eq_true rfl) (of_decide_eq_true rfl) (of_decide_eq_true rfl)
    | refine RegsIn.wr F.ONLINE_STATUS_reason _ .online ?_ (of_decide_eq_true rfl) (of_decide_eq_true rfl) (of_decide_eq_true rfl) (of_decide_eq_true rfl)
    | refine RegsIn.wr F.ONLINE_STATUS_state _ .online ?_ (of_decide_eq_true rfl) (of_decide_eq_true rfl) (of_decide_eq_true rfl) (of_decide_eq_true rfl)
    | apply RegsIn.next ?_ (State.hopState_in _) ?_
    | split
    | refine RegsIn.upd ?_
    | decide
    | exact Fin.isLt _
    | omega
    | dsimp -zeta only

theorem State.finishAcked_in (s : State) :
    RegsIn [.events, .viol] s (State.finishAcked s) := by
  unfold State.finishAcked
  with_reducible repeat' first
    | assumption
    | (extract_lets +onlyGivenNames z; clear_value z; revert z; intro y)
    | exact RegsIn.rfl
    | (refine RegsIn.upTo _ _ ?_ ?_; rotate_left; intro y a ha hy; rotate_left)
    | (refine RegsIn.bitsSet _ _ _ ?_ ?_; rotate_left; intro y a ha hy; rotate_left)
    | (refine RegsIn.foldl _ _ ?_ ?_; rotate_left; intro y a ha hy; rotate_left)
    | apply RegsIn.next ?_ (State.finish_in _ _ _ _ _ _) ?_
    | decide
    | exact Fin.isLt _
    | omega
    | dsimp -zeta only

theorem State.stopCommands_in (s : State) :
    RegsIn [.hopper, .events, .online, .viol] s (State.stopCommands s) := by
  unfold State.stopCommands
  with_reducible repeat' first
    | assumption
    | (extract_lets +onlyGivenNames z
       refine RegsIn.let z ?_ ?_
       subst z
       rotate_left
       clear_value z
       revert z
       intro y hy
       rotate_left)
    | (extract_lets +onlyGivenNames z; clear_value z; revert z; intro y)
    | exact RegsIn.rfl
    | refine RegsIn.ite ?_ ?_ <;> intro hc
    | apply RegsIn.next ?_ (State.finish_in _ _ _ _ _ _) ?_
    | apply RegsIn.next ?_ (State.finishAcked_in _) ?_
    | apply RegsIn.next ?_ (State.dropArmed_in _ _) ?_
    | apply RegsIn.next ?_ (State.hopState_in _) ?_
    | refine RegsIn.upd ?_
    | decide
    | exact Fin.isLt _
    | omega
    | dsimp -zeta only

theorem State.writeTrc_in (s : State) (a1 : Nat) (a2 : Bytes) (a3 : Bytes) (a4 : Bytes) :
    RegsIn [.events, .viol] s (State.writeTrc s a1 a2 a3 a4) := by
  unfold State.writeTrc
  with_reducible repeat' first
    | assumption
    | (extract_lets +onlyGivenNames z
       refine RegsIn.let z ?_ ?_
       subst z
       rotate_left
       clear_value z
       revert z
       intro y hy
       rotate_left)
    | (extract_lets +onlyGivenNames z; clear_value z; revert z; intro y)
    | exact RegsIn.rfl
    | (rename (_ : State × _) = _ => heq
       refine RegsIn.pair heq ?_ ?_ <;> clear heq
       rotate_left
       intro hy
       rotate_left)
    | apply RegsIn.next ?_ (State.acAccess_in _ _ _ _ _ _ ?_) ?_
    | apply RegsIn.next ?_ (State.dmaError_in _ _ _) ?_
    | apply RegsIn.next ?_ (State.emit_in _ _) ?_
    | apply RegsIn.next ?_ (State.raiseSource_in _ _ _ _ ?_) ?_
    | split
    | refine RegsIn.upd ?_
    | decide
    | exact Fin.isLt _
    | omega
    | dsimp -zeta only

end Sys2Proof.Machine
end

