-- ==== Sys2Proof/Laws/BanksUnits.lean ====
section
/-! SUPPORT. The banks of registers that the operations of the ply, time, loops, tasks and the turn write. -/

namespace Sys2Proof.Machine

set_option linter.all false

theorem State.setMuted_in (s : State) (a1 : Bool) :
    RegsIn [.ply, .mill] s (State.setMuted s a1) := by
  unfold State.setMuted
  with_reducible repeat' first
    | assumption
    | exact RegsIn.rfl
    | refine RegsIn.wrb (F.MB_STATUS_muted _) _ .mill ?_ (of_decide_eq_true rfl) (of_decide_eq_true rfl) (by simp only [F.MB_STATUS_muted, Bank.range]; omega) (by simp only [F.MB_STATUS_muted, Bank.range]; omega)
    | refine RegsIn.wrb F.PLY_STATUS_muted _ .ply ?_ (of_decide_eq_true rfl) (of_decide_eq_true rfl) (of_decide_eq_true rfl) (of_decide_eq_true rfl)
    | decide
    | exact Fin.isLt _
    | omega
    | dsimp -zeta only

theorem State.setPlyState_in (s : State) (a1 : Nat) :
    RegsIn [.hopper, .events, .online, .time, .ply, .brake, .viol, .skein] s (State.setPlyState s a1) := by
  unfold State.setPlyState
  with_reducible repeat' first
    | assumption
    | (extract_lets +onlyGivenNames z
       refine RegsIn.let z ?_ ?_
       subst z
       rotate_left
       clear_value z
       revert z
       intro y hy
       rotate_left)
    | (extract_lets +onlyGivenNames z; clear_value z; revert z; intro y)
    | exact RegsIn.rfl
    | refine RegsIn.ite ?_ ?_ <;> intro hc
    | (refine RegsIn.upTo _ _ ?_ ?_; rotate_left; intro y a ha hy; rotate_left)
    | (refine RegsIn.bitsSet _ _ _ ?_ ?_; rotate_left; intro y a ha hy; rotate_left)
    | (refine RegsIn.foldl _ _ ?_ ?_; rotate_left; intro y a ha hy; rotate_left)
    | refine RegsIn.wr F.PLY_STATUS_state _ .ply ?_ (of_decide_eq_true rfl) (of_decide_eq_true rfl) (of_decide_eq_true rfl) (of_decide_eq_true rfl)
    | refine RegsIn.wr (F.SK_STATUS_proxy _) _ .skein ?_ (of_decide_eq_true rfl) (of_decide_eq_true rfl) (by simp only [F.SK_STATUS_proxy, Bank.range]; omega) (by simp only [F.SK_STATUS_proxy, Bank.range]; omega)
    | apply RegsIn.next ?_ (State.dropArmed_in _ _) ?_
    | apply RegsIn.next ?_ (State.plyEvt_in _ _ ?_) ?_
    | apply RegsIn.next ?_ (State.row19_in _) ?_
    | refine RegsIn.upd ?_
    | decide
    | exact Fin.isLt _
    | omega
    | dsimp -zeta only

theorem State.abdicate_in (s : State) (a1 : Nat) :
    RegsIn [.hopper, .events, .wdog, .online, .time, .ply, .brake, .mill, .viol, .log, .skein] s (State.abdicate s a1) := by
  unfold State.abdicate
  with_reducible repeat' first
    | assumption
    | (extract_lets +onlyGivenNames z
       refine RegsIn.let z ?_ ?_
       subst z
       rotate_left
       clear_value z
       revert z
       intro y hy
       rotate_left)
    | (extract_lets +onlyGivenNames z; clear_value z; revert z; intro y)
    | exact RegsIn.rfl
    | refine RegsIn.ite ?_ ?_ <;> intro hc
    | refine RegsIn.wr F.PLY_REASON_abdication _ .ply ?_ (of_decide_eq_true rfl) (of_decide_eq_true rfl) (of_decide_eq_true rfl) (of_decide_eq_true rfl)
    | refine RegsIn.wr F.PLY_STATUS_abd_out _ .ply ?_ (of_decide_eq_true rfl) (of_decide_eq_true rfl) (of_decide_eq_true rfl) (of_decide_eq_true rfl)
    | refine RegsIn.wr F.TURN_WDOG_armed _ .wdog ?_ (of_decide_eq_true rfl) (of_decide_eq_true rfl) (of_decide_eq_true rfl) (of_decide_eq_true rfl)
    | apply RegsIn.next ?_ (State.setMuted_in _ _) ?_
    | apply RegsIn.next ?_ (State.stopCommands_in _) ?_
    | apply RegsIn.next ?_ (State.setPlyState_in _ _) ?_
    | apply RegsIn.next ?_ (State.fireGasp_in _ _) ?_
    | refine RegsIn.upd ?_
    | decide
    | exact Fin.isLt _
    | omega
    | dsimp -zeta only

theorem State.leaveTracking_in (s : State) (a1 : Nat) :
    RegsIn [.hopper, .events, .online, .time, .ply, .brake, .viol, .skein] s (State.leaveTracking s a1) := by
  unfold State.leaveTracking
  with_reducible repeat' first
    | assumption
    | (extract_lets +onlyGivenNames z
       refine RegsIn.let z ?_ ?_
       subst z
       rotate_left
       clear_value z
       revert z
       intro y hy
       rotate_left)
    | (extract_lets +onlyGivenNames z; clear_value z; revert z; intro y)
    | exact RegsIn.rfl
    | refine RegsIn.ite ?_ ?_ <;> intro hc
    | refine RegsIn.wr F.PLY_REASON_untracked _ .ply ?_ (of_decide_eq_true rfl) (of_decide_eq_true rfl) (of_decide_eq_true rfl) (of_decide_eq_true rfl)
    | refine RegsIn.wr F.PLY_STATUS_diverged _ .ply ?_ (of_decide_eq_true rfl) (of_decide_eq_true rfl) (of_decide_eq_true rfl) (of_decide_eq_true rfl)
    | apply RegsIn.next ?_ (State.plyEvt_in _ _ ?_) ?_
    | apply RegsIn.next ?_ (State.setPlyState_in _ _) ?_
    | refine RegsIn.upd ?_
    | decide
    | exact Fin.isLt _
    | omega
    | dsimp -zeta only

theorem State.recordFault_in (s : State) (a1 : Nat) (a2 : Nat) (a3 : Nat) :
    RegsIn [.fault] s (State.recordFault s a1 a2 a3) := by
  unfold State.recordFault
  with_reducible repeat' first
    | assumption
    | (extract_lets +onlyGivenNames z
       refine RegsIn.let z ?_ ?_
       subst z
       rotate_left
       clear_value z
       revert z
       intro y hy
       rotate_left)
    | (extract_lets +onlyGivenNames z; clear_value z; revert z; intro y)
    | exact RegsIn.rfl
    | refine RegsIn.wr F.FAULT_RECORD_kind _ .fault ?_ (of_decide_eq_true rfl) (of_decide_eq_true rfl) (of_decide_eq_true rfl) (of_decide_eq_true rfl)
    | refine RegsIn.wr F.FAULT_RECORD_unit _ .fault ?_ (of_decide_eq_true rfl) (of_decide_eq_true rfl) (of_decide_eq_true rfl) (of_decide_eq_true rfl)
    | refine RegsIn.wr F.FAULT_RECORD_unit_class _ .fault ?_ (of_decide_eq_true rfl) (of_decide_eq_true rfl) (of_decide_eq_true rfl) (of_decide_eq_true rfl)
    | refine RegsIn.wr F.FAULT_TURN_HI_fault_turn _ .fault ?_ (of_decide_eq_true rfl) (of_decide_eq_true rfl) (of_decide_eq_true rfl) (of_decide_eq_true rfl)
    | refine RegsIn.wr F.FAULT_TURN_LO_fault_turn _ .fault ?_ (of_decide_eq_true rfl) (of_decide_eq_true rfl) (of_decide_eq_true rfl) (of_decide_eq_true rfl)
    | refine RegsIn.upd ?_
    | decide
    | exact Fin.isLt _
    | omega
    | dsimp -zeta only

theorem State.selfFault_in (s : State) (a1 : Nat) (a2 : Nat) (a3 : Nat) :
    RegsIn [.hopper, .events, .fault, .wdog, .online, .time, .ply, .brake, .mill, .viol, .log, .skein] s (State.selfFault s a1 a2 a3) := by
  unfold State.selfFault
  with_reducible repeat' first
    | assumption
    | (extract_lets +onlyGivenNames z
       refine RegsIn.let z ?_ ?_
       subst z
       rotate_left
       clear_value z
       revert z
       intro y hy
       rotate_left)
    | exact RegsIn.rfl
    | refine RegsIn.ite ?_ ?_ <;> intro hc
    | apply RegsIn.next ?_ (State.recordFault_in _ _ _ _) ?_
    | apply RegsIn.next ?_ (State.abdicate_in _ _) ?_
    | apply RegsIn.next ?_ (State.leaveTracking_in _ _) ?_
    | decide
    | exact Fin.isLt _
    | omega
    | dsimp -zeta only

theorem State.raiseEpoch_in (s : State) :
    RegsIn [.events, .time, .ply, .brake, .viol] s (State.raiseEpoch s).1 := by
  unfold State.raiseEpoch
  with_reducible repeat' first
    | assumption
    | (extract_lets +onlyGivenNames z
       refine RegsIn.let z ?_ ?_
       subst z
       rotate_left
       clear_value z
       revert z
       intro y hy
       rotate_left)
    | (extract_lets +onlyGivenNames z; clear_value z; revert z; intro y)
    | exact RegsIn.rfl
    | refine RegsIn.ite ?_ ?_ <;> intro hc
    | refine RegsIn.ite1 ?_ ?_ <;> intro hc
    | refine RegsIn.wr F.PLY_EPOCH_epoch _ .ply ?_ (of_decide_eq_true rfl) (of_decide_eq_true rfl) (of_decide_eq_true rfl) (of_decide_eq_true rfl)
    | apply RegsIn.next ?_ (State.row19_in _) ?_
    | refine RegsIn.upd ?_
    | decide
    | exact Fin.isLt _
    | omega
    | dsimp -zeta only

theorem State.raiseEqual_in (s : State) :
    RegsIn [.events, .time, .ply, .brake, .viol] s (State.raiseEqual s) := by
  unfold State.raiseEqual
  with_reducible repeat' first
    | assumption
    | (extract_lets +onlyGivenNames z
       refine RegsIn.let z ?_ ?_
       subst z
       rotate_left
       clear_value z
       revert z
       intro y hy
       rotate_left)
    | (extract_lets +onlyGivenNames z; clear_value z; revert z; intro y)
    | exact RegsIn.rfl
    | refine RegsIn.ite ?_ ?_ <;> intro hc
    | refine RegsIn.ite1 ?_ ?_ <;> intro hc
    | (rename (_ : State × _) = _ => heq
       refine RegsIn.pair heq ?_ ?_ <;> clear heq
       rotate_left
       intro hy
       rotate_left)
    | apply RegsIn.next ?_ (State.raiseEpoch_in _) ?_
    | refine RegsIn.upd ?_
    | decide
    | exact Fin.isLt _
    | omega
    | dsimp -zeta only

theorem State.sendOrder_in (s : State) (a1 : Nat) (a2 : Nat) (a3 : Nat) (a4 : OrderContent) :
    RegsIn [] s (State.sendOrder s a1 a2 a3 a4) := by
  unfold State.sendOrder
  with_reducible repeat' first
    | assumption
    | (extract_lets +onlyGivenNames z
       refine RegsIn.let z ?_ ?_
       subst z
       rotate_left
       clear_value z
       revert z
       intro y hy
       rotate_left)
    | (extract_lets +onlyGivenNames z; clear_value z; revert z; intro y)
    | exact RegsIn.rfl
    | refine RegsIn.ite ?_ ?_ <;> intro hc
    | apply RegsIn.next ?_ (State.emit_in _ _) ?_
    | refine RegsIn.upd ?_
    | decide
    | exact Fin.isLt _
    | omega
    | dsimp -zeta only

theorem State.captureFull_in (s : State) :
    RegsIn [] s (State.captureFull s) := by
  unfold State.captureFull
  with_reducible repeat' first
    | assumption
    | (extract_lets +onlyGivenNames z
       refine RegsIn.let z ?_ ?_
       subst z
       rotate_left
       clear_value z
       revert z
       intro y hy
       rotate_left)
    | (extract_lets +onlyGivenNames z; clear_value z; revert z; intro y)
    | exact RegsIn.rfl
    | refine RegsIn.ite ?_ ?_ <;> intro hc
    | apply RegsIn.next ?_ (State.sendOrder_in _ _ _ _ _) ?_
    | refine RegsIn.upd ?_
    | decide
    | exact Fin.isLt _
    | omega
    | dsimp -zeta only

theorem State.sendAck_in (s : State) (a1 : Nat) (a2 : Nat) (a3 : Bool) :
    RegsIn [] s (State.sendAck s a1 a2 a3) := by
  unfold State.sendAck
  with_reducible repeat' first
    | assumption
    | exact RegsIn.rfl
    | apply RegsIn.next ?_ (State.sendPly_in _ _ _ _) ?_
    | decide
    | exact Fin.isLt _
    | omega
    | dsimp -zeta only

theorem State.mirror_in (s : State) (a1 : Nat) (a2 : List HostWrite) :
    RegsIn [] s (State.mirror s a1 a2) := by
  unfold State.mirror
  with_reducible repeat' first
    | assumption
    | (extract_lets +onlyGivenNames z
       refine RegsIn.let z ?_ ?_
       subst z
       rotate_left
       clear_value z
       revert z
       intro y hy
       rotate_left)
    | (extract_lets +onlyGivenNames z; clear_value z; revert z; intro y)
    | exact RegsIn.rfl
    | refine RegsIn.ite ?_ ?_ <;> intro hc
    | apply RegsIn.next ?_ (State.emit_in _ _) ?_
    | refine RegsIn.upd ?_
    | decide
    | exact Fin.isLt _
    | omega
    | dsimp -zeta only

theorem State.queueHeartbeat_in (s : State) :
    RegsIn [] s (State.queueHeartbeat s) := by
  unfold State.queueHeartbeat
  with_reducible repeat' first
    | assumption
    | (extract_lets +onlyGivenNames z; clear_value z; revert z; intro y)
    | exact RegsIn.rfl
    | refine RegsIn.ite ?_ ?_ <;> intro hc
    | refine RegsIn.upd ?_
    | decide
    | exact Fin.isLt _
    | omega
    | dsimp -zeta only

theorem State.resumeLoop_in (s : State) (a1 : Nat) :
    RegsIn [] s (State.resumeLoop s a1) := by
  unfold State.resumeLoop
  with_reducible repeat' first
    | assumption
    | (extract_lets +onlyGivenNames z; clear_value z; revert z; intro y)
    | exact RegsIn.rfl
    | refine RegsIn.ite ?_ ?_ <;> intro hc
    | split
    | refine RegsIn.upd ?_
    | decide
    | exact Fin.isLt _
    | omega
    | dsimp -zeta only

theorem State.matchSnaps_in (s : State) :
    RegsIn [] s (State.matchSnaps s) := by
  unfold State.matchSnaps
  with_reducible repeat' first
    | assumption
    | (extract_lets +onlyGivenNames z; clear_value z; revert z; intro y)
    | exact RegsIn.rfl
    | refine RegsIn.ite ?_ ?_ <;> intro hc
    | split
    | refine RegsIn.upd ?_
    | decide
    | exact Fin.isLt _
    | omega
    | dsimp -zeta only

theorem State.resumeAll_in (s : State) : RegsIn [] s (State.resumeAll s) := by
  unfold State.resumeAll
  with_reducible repeat' first
    | assumption
    | (extract_lets +onlyGivenNames z
       refine RegsIn.let z ?_ ?_
       subst z
       rotate_left
       clear_value z
       revert z
       intro y hy
       rotate_left)
    | (extract_lets +onlyGivenNames z; clear_value z; revert z; intro y)
    | exact RegsIn.rfl
    | (refine RegsIn.foldl _ _ ?_ ?_; rotate_left; intro y a ha hy; rotate_left)
    | apply RegsIn.next ?_ (State.resumeLoop_in _ _) ?_
    | apply RegsIn.next ?_ (State.matchSnaps_in _) ?_
    | refine RegsIn.upd ?_
    | decide
    | exact Fin.isLt _
    | omega
    | dsimp -zeta only

theorem State.recordTakeover_in (s : State) (a1 : Nat) : RegsIn [.ply] s (State.recordTakeover s a1) := by
  unfold State.recordTakeover
  with_reducible repeat' first
    | assumption
    | (extract_lets +onlyGivenNames z
       refine RegsIn.let z ?_ ?_
       subst z
       rotate_left
       clear_value z
       revert z
       intro y hy
       rotate_left)
    | (extract_lets +onlyGivenNames z; clear_value z; revert z; intro y)
    | exact RegsIn.rfl
    | refine RegsIn.inc F.PLY_COUNTS_takeovers .ply ?_ (of_decide_eq_true rfl) (of_decide_eq_true rfl) (of_decide_eq_true rfl) (of_decide_eq_true rfl)
    | refine RegsIn.wr F.PLY_LAST_DELAY_ns _ .ply ?_ (of_decide_eq_true rfl) (of_decide_eq_true rfl) (of_decide_eq_true rfl) (of_decide_eq_true rfl)
    | refine RegsIn.wr F.PLY_REASON_takeover _ .ply ?_ (of_decide_eq_true rfl) (of_decide_eq_true rfl) (of_decide_eq_true rfl) (of_decide_eq_true rfl)
    | refine RegsIn.wr F.PLY_STATUS_diverged _ .ply ?_ (of_decide_eq_true rfl) (of_decide_eq_true rfl) (of_decide_eq_true rfl) (of_decide_eq_true rfl)
    | refine RegsIn.wr F.PLY_TAKEOVER_TURN_HI_turn _ .ply ?_ (of_decide_eq_true rfl) (of_decide_eq_true rfl) (of_decide_eq_true rfl) (of_decide_eq_true rfl)
    | refine RegsIn.wr F.PLY_TAKEOVER_TURN_LO_turn _ .ply ?_ (of_decide_eq_true rfl) (of_decide_eq_true rfl) (of_decide_eq_true rfl) (of_decide_eq_true rfl)
    | decide
    | exact Fin.isLt _
    | omega
    | dsimp -zeta only

theorem State.takeover_in (s : State) (a1 : Nat) :
    RegsIn [.hopper, .events, .online, .time, .ply, .brake, .mill, .viol, .skein] s (State.takeover s a1) := by
  unfold State.takeover
  with_reducible repeat' first
    | assumption
    | (extract_lets +onlyGivenNames z
       refine RegsIn.let z ?_ ?_
       subst z
       rotate_left
       clear_value z
       revert z
       intro y hy
       rotate_left)
    | (extract_lets +onlyGivenNames z; clear_value z; revert z; intro y)
    | exact RegsIn.rfl
    | refine RegsIn.ite ?_ ?_ <;> intro hc
    | (rename (_ : State × _) = _ => heq
       refine RegsIn.pair heq ?_ ?_ <;> clear heq
       rotate_left
       intro hy
       rotate_left)
    | apply RegsIn.next ?_ (State.raiseEpoch_in _) ?_
    | apply RegsIn.next ?_ (State.resumeAll_in _) ?_
    | apply RegsIn.next ?_ (State.recordTakeover_in _ _) ?_
    | apply RegsIn.next ?_ (State.setPlyState_in _ _) ?_
    | apply RegsIn.next ?_ (State.queueHeartbeat_in _) ?_
    | apply RegsIn.next ?_ (State.setMuted_in _ _) ?_
    | apply RegsIn.next ?_ (State.plyEvt_in _ _ ?_) ?_
    | apply RegsIn.next ?_ (State.fireTrigger_in _ _ _ _ _) ?_
    | split
    | refine RegsIn.upd ?_
    | decide
    | exact Fin.isLt _
    | omega
    | dsimp -zeta only

theorem State.ringOut_in (s : State) (a1 : Bool) (a2 : Bytes) :
    RegsIn [] s (State.ringOut s a1 a2) := by
  unfold State.ringOut
  with_reducible repeat' first
    | assumption
    | exact RegsIn.rfl
    | refine RegsIn.ite ?_ ?_ <;> intro hc
    | apply RegsIn.next ?_ (State.emit_in _ _) ?_
    | decide
    | exact Fin.isLt _
    | omega
    | dsimp -zeta only

theorem State.sendRing_in (s : State) (a1 : Nat) (a2 : Nat) (a3 : Nat) (a4 : Nat) (a5 : Nat) (a6 : Nat) (a7 : Bytes) :
    RegsIn [] s (State.sendRing s a1 a2 a3 a4 a5 a6 a7) := by
  unfold State.sendRing
  with_reducible repeat' first
    | assumption
    | (extract_lets +onlyGivenNames z
       refine RegsIn.let z ?_ ?_
       subst z
       rotate_left
       clear_value z
       revert z
       intro y hy
       rotate_left)
    | (extract_lets +onlyGivenNames z; clear_value z; revert z; intro y)
    | exact RegsIn.rfl
    | apply RegsIn.next ?_ (State.ringOut_in _ _ _) ?_
    | refine RegsIn.upd ?_
    | decide
    | exact Fin.isLt _
    | omega
    | dsimp -zeta only

theorem State.takeRingSlot_in (s : State) (a1 : Nat) (a2 : Nat) :
    RegsIn [] s (State.takeRingSlot s a1 a2) := by
  unfold State.takeRingSlot
  with_reducible repeat' first
    | assumption
    | exact RegsIn.rfl
    | apply RegsIn.next ?_ (State.takeInput_in _ _ _ _ _ _ _) ?_
    | apply RegsIn.next ?_ (State.substitute_in _ _) ?_
    | split
    | decide
    | exact Fin.isLt _
    | omega
    | dsimp -zeta only

theorem State.prunePubs_in (s : State) (a1 : Nat) :
    RegsIn [] s (State.prunePubs s a1) := by
  unfold State.prunePubs
  with_reducible repeat' first
    | assumption
    | (extract_lets +onlyGivenNames z; clear_value z; revert z; intro y)
    | exact RegsIn.rfl
    | refine RegsIn.upd ?_
    | decide
    | exact Fin.isLt _
    | omega
    | dsimp -zeta only

theorem State.setDom_in (s : State) (a1 : Domain) (a2 : TimeDom) :
    RegsIn [] s (State.setDom s a1 a2) := by
  unfold State.setDom
  with_reducible repeat' first
    | assumption
    | (extract_lets +onlyGivenNames z; clear_value z; revert z; intro y)
    | exact RegsIn.rfl
    | refine RegsIn.ite ?_ ?_ <;> intro hc
    | refine RegsIn.upd ?_
    | decide
    | exact Fin.isLt _
    | omega
    | dsimp -zeta only

theorem State.setRole_in (s : State) (a1 : Domain) (a2 : Nat) :
    RegsIn [.time] s (State.setRole s a1 a2) := by
  unfold State.setRole
  refine RegsIn.wr _ _ .time RegsIn.rfl ?_ (by decide) ?_ ?_ <;> split
  all_goals decide

theorem State.setGen_in (s : State) (a1 : Domain) (a2 : Nat) :
    RegsIn [.time] s (State.setGen s a1 a2) := by
  unfold State.setGen
  refine RegsIn.wr _ _ .time RegsIn.rfl ?_ (by decide) ?_ ?_ <;> split
  all_goals decide

theorem State.tellCapture_in (s : State) (a1 : Int) :
    RegsIn [] s (State.tellCapture s a1) := by
  unfold State.tellCapture
  with_reducible repeat' first
    | assumption
    | (extract_lets +onlyGivenNames z
       refine RegsIn.let z ?_ ?_
       subst z
       rotate_left
       clear_value z
       revert z
       intro y hy
       rotate_left)
    | (extract_lets +onlyGivenNames z; clear_value z; revert z; intro y)
    | exact RegsIn.rfl
    | refine RegsIn.ite ?_ ?_ <;> intro hc
    | apply RegsIn.next ?_ (State.sendOrder_in _ _ _ _ _) ?_
    | refine RegsIn.upd ?_
    | decide
    | exact Fin.isLt _
    | omega
    | dsimp -zeta only

theorem State.captureO_in (s : State) :
    RegsIn [.events, .time, .viol] s (State.captureO s) := by
  unfold State.captureO
  with_reducible repeat' first
    | assumption
    | (extract_lets +onlyGivenNames z
       refine RegsIn.let z ?_ ?_
       subst z
       rotate_left
       clear_value z
       revert z
       intro y hy
       rotate_left)
    | (extract_lets +onlyGivenNames z; clear_value z; revert z; intro y)
    | exact RegsIn.rfl
    | refine RegsIn.ite ?_ ?_ <;> intro hc
    | refine RegsIn.wrb F.TIME_STATUS_slewing _ .time ?_ (of_decide_eq_true rfl) (of_decide_eq_true rfl) (of_decide_eq_true rfl) (of_decide_eq_true rfl)
    | apply RegsIn.next ?_ (State.tellCapture_in _ _) ?_
    | apply RegsIn.next ?_ (State.timeEvt_in _ _) ?_
    | refine RegsIn.upd ?_
    | decide
    | exact Fin.isLt _
    | omega
    | dsimp -zeta only

theorem State.takeCaptured_in (s : State) (a1 : Int) :
    RegsIn [.time] s (State.takeCaptured s a1) := by
  unfold State.takeCaptured
  with_reducible repeat' first
    | assumption
    | (extract_lets +onlyGivenNames z
       refine RegsIn.let z ?_ ?_
       subst z
       rotate_left
       clear_value z
       revert z
       intro y hy
       rotate_left)
    | (extract_lets +onlyGivenNames z; clear_value z; revert z; intro y)
    | exact RegsIn.rfl
    | refine RegsIn.wrb F.TIME_STATUS_slewing _ .time ?_ (of_decide_eq_true rfl) (of_decide_eq_true rfl) (of_decide_eq_true rfl) (of_decide_eq_true rfl)
    | split
    | refine RegsIn.upd ?_
    | decide
    | exact Fin.isLt _
    | omega
    | dsimp -zeta only

theorem State.wantCapture_in (s : State) :
    RegsIn [.events, .time, .viol] s (State.wantCapture s) := by
  unfold State.wantCapture
  with_reducible repeat' first
    | assumption
    | (extract_lets +onlyGivenNames z
       refine RegsIn.let z ?_ ?_
       subst z
       rotate_left
       clear_value z
       revert z
       intro y hy
       rotate_left)
    | (extract_lets +onlyGivenNames z; clear_value z; revert z; intro y)
    | exact RegsIn.rfl
    | refine RegsIn.ite ?_ ?_ <;> intro hc
    | apply RegsIn.next ?_ (State.captureO_in _) ?_
    | apply RegsIn.next ?_ (State.sendOrder_in _ _ _ _ _) ?_
    | refine RegsIn.upd ?_
    | decide
    | exact Fin.isLt _
    | omega
    | dsimp -zeta only

theorem State.autoSwitch_in (s : State) :
    RegsIn [] s (State.autoSwitch s) := by
  unfold State.autoSwitch
  with_reducible repeat' first
    | assumption
    | (extract_lets +onlyGivenNames z
       refine RegsIn.let z ?_ ?_
       subst z
       rotate_left
       clear_value z
       revert z
       intro y hy
       rotate_left)
    | (extract_lets +onlyGivenNames z; clear_value z; revert z; intro y)
    | exact RegsIn.rfl
    | refine RegsIn.ite ?_ ?_ <;> intro hc
    | apply RegsIn.next ?_ (State.sendOrder_in _ _ _ _ _) ?_
    | refine RegsIn.upd ?_
    | decide
    | exact Fin.isLt _
    | omega
    | dsimp -zeta only

theorem State.workRegs_in (s : State) :
    RegsIn [.events, .time, .viol] s (State.workRegs s) := by
  unfold State.workRegs
  with_reducible repeat' first
    | assumption
    | (extract_lets +onlyGivenNames z
       refine RegsIn.let z ?_ ?_
       subst z
       rotate_left
       clear_value z
       revert z
       intro y hy
       rotate_left)
    | (extract_lets +onlyGivenNames z; clear_value z; revert z; intro y)
    | exact RegsIn.rfl
    | refine RegsIn.ite ?_ ?_ <;> intro hc
    | refine RegsIn.wr F.TIME_STATUS_work _ .time ?_ (of_decide_eq_true rfl) (of_decide_eq_true rfl) (of_decide_eq_true rfl) (of_decide_eq_true rfl)
    | apply RegsIn.next ?_ (State.timeEvt_in _ _) ?_
    | decide
    | exact Fin.isLt _
    | omega
    | dsimp -zeta only

theorem State.setDomState_in (s : State) (a1 : Domain) (a2 : Nat) :
    RegsIn [.events, .time, .viol] s (State.setDomState s a1 a2) := by
  unfold State.setDomState
  have w : RegsIn [.events, .time, .viol] s (s.wr (if isB a1 then F.TIME_STATUS_dom_b else F.TIME_STATUS_dom_a) a2) := by
    refine RegsIn.wr _ _ .time RegsIn.rfl ?_ (by decide) ?_ ?_ <;> split
    all_goals decide
  have h := (w.next (State.timeEvt_in _ (domNum a1)) (by decide)).next (State.workRegs_in _) (by decide)
  refine RegsIn.ite (fun _ => RegsIn.rfl) (fun _ => ?_)
  exact (RegsIn.ite (fun _ => h.next (State.wantCapture_in _) (by decide)) (fun _ => h)).next (State.autoSwitch_in _) (by decide)

theorem State.toHoldover_in (s : State) (a1 : Domain) :
    RegsIn [.events, .time, .viol] s (State.toHoldover s a1) := by
  unfold State.toHoldover
  with_reducible repeat' first
    | assumption
    | (extract_lets +onlyGivenNames z; clear_value z; revert z; intro y)
    | exact RegsIn.rfl
    | refine RegsIn.ite ?_ ?_ <;> intro hc
    | apply RegsIn.next ?_ (State.setDomState_in _ _ _) ?_
    | apply RegsIn.next ?_ (State.setDom_in _ _ _) ?_
    | decide
    | exact Fin.isLt _
    | omega
    | dsimp -zeta only

theorem State.setCal_in (s : State) (a1 : Nat) :
    RegsIn [.events, .time, .viol] s (State.setCal s a1) := by
  unfold State.setCal
  with_reducible repeat' first
    | assumption
    | (extract_lets +onlyGivenNames z
       refine RegsIn.let z ?_ ?_
       subst z
       rotate_left
       clear_value z
       revert z
       intro y hy
       rotate_left)
    | (extract_lets +onlyGivenNames z; clear_value z; revert z; intro y)
    | exact RegsIn.rfl
    | refine RegsIn.ite ?_ ?_ <;> intro hc
    | refine RegsIn.wr F.TIME_STATUS_cal _ .time ?_ (of_decide_eq_true rfl) (of_decide_eq_true rfl) (of_decide_eq_true rfl) (of_decide_eq_true rfl)
    | apply RegsIn.next ?_ (State.timeEvt_in _ _) ?_
    | apply RegsIn.next ?_ (State.toHoldover_in _ _) ?_
    | decide
    | exact Fin.isLt _
    | omega
    | dsimp -zeta only

theorem State.recalibrate_in (s : State) :
    RegsIn [.events, .time, .viol] s (State.recalibrate s) := by
  unfold State.recalibrate
  with_reducible repeat' first
    | assumption
    | (extract_lets +onlyGivenNames z
       refine RegsIn.let z ?_ ?_
       subst z
       rotate_left
       clear_value z
       revert z
       intro y hy
       rotate_left)
    | (extract_lets +onlyGivenNames z; clear_value z; revert z; intro y)
    | exact RegsIn.rfl
    | refine RegsIn.ite ?_ ?_ <;> intro hc
    | refine RegsIn.wr F.CAL_CLOSURE_a _ .time ?_ (of_decide_eq_true rfl) (of_decide_eq_true rfl) (of_decide_eq_true rfl) (of_decide_eq_true rfl)
    | apply RegsIn.next ?_ (State.setCal_in _ _) ?_
    | refine RegsIn.upd ?_
    | decide
    | exact Fin.isLt _
    | omega
    | dsimp -zeta only

theorem State.commitSlot_in (s : State) (a1 : Nat) (a2 : Nat) (a3 : Entry) :
    RegsIn [] s (State.commitSlot s a1 a2 a3) := by
  unfold State.commitSlot
  with_reducible repeat' first
    | assumption
    | (extract_lets +onlyGivenNames z
       refine RegsIn.let z ?_ ?_
       subst z
       rotate_left
       clear_value z
       revert z
       intro y hy
       rotate_left)
    | (extract_lets +onlyGivenNames z; clear_value z; revert z; intro y)
    | exact RegsIn.rfl
    | refine RegsIn.ite ?_ ?_ <;> intro hc
    | apply RegsIn.next ?_ (State.putCell_in _ _ _) ?_
    | apply RegsIn.next ?_ (State.setCell_in _ _ _) ?_
    | apply RegsIn.next ?_ (State.barKey_in _ _ _) ?_
    | split
    | refine RegsIn.upd ?_
    | decide
    | exact Fin.isLt _
    | omega
    | dsimp -zeta only

theorem State.setRel_in (s : State) (a1 : Nat) (a2 : RelRec) :
    RegsIn [] s (State.setRel s a1 a2) := by
  unfold State.setRel
  with_reducible repeat' first
    | assumption
    | (extract_lets +onlyGivenNames z; clear_value z; revert z; intro y)
    | exact RegsIn.rfl
    | refine RegsIn.upd ?_
    | decide
    | exact Fin.isLt _
    | omega
    | dsimp -zeta only

theorem State.hold_in (s : State) (a1 : Nat) (a2 : Nat) (a3 : Nat) (a4 : List (Nat × Entry)) (a5 : List (Nat × LoopReq)) (a6 : List (Nat × List Word36)) :
    RegsIn [] s (State.hold s a1 a2 a3 a4 a5 a6) := by
  unfold State.hold
  with_reducible repeat' first
    | assumption
    | (extract_lets +onlyGivenNames z
       refine RegsIn.let z ?_ ?_
       subst z
       rotate_left
       clear_value z
       revert z
       intro y hy
       rotate_left)
    | (extract_lets +onlyGivenNames z; clear_value z; revert z; intro y)
    | exact RegsIn.rfl
    | apply RegsIn.next ?_ (State.setRel_in _ _ _) ?_
    | refine RegsIn.upd ?_
    | decide
    | exact Fin.isLt _
    | omega
    | dsimp -zeta only

theorem State.setVcore_in (s : State) (a1 : Nat) :
    RegsIn [.slack] s (State.setVcore s a1) := by
  unfold State.setVcore
  with_reducible repeat' first
    | assumption
    | exact RegsIn.rfl
    | refine RegsIn.wr F.VCORE_STATUS_at_ceiling _ .slack ?_ (of_decide_eq_true rfl) (of_decide_eq_true rfl) (of_decide_eq_true rfl) (of_decide_eq_true rfl)
    | refine RegsIn.wrb F.VCORE_STATUS_at_ceiling _ .slack ?_ (of_decide_eq_true rfl) (of_decide_eq_true rfl) (of_decide_eq_true rfl) (of_decide_eq_true rfl)
    | refine RegsIn.wr F.VCORE_STATUS_at_floor _ .slack ?_ (of_decide_eq_true rfl) (of_decide_eq_true rfl) (of_decide_eq_true rfl) (of_decide_eq_true rfl)
    | refine RegsIn.wrb F.VCORE_STATUS_at_floor _ .slack ?_ (of_decide_eq_true rfl) (of_decide_eq_true rfl) (of_decide_eq_true rfl) (of_decide_eq_true rfl)
    | refine RegsIn.wr F.VCORE_STATUS_vcore_mv _ .slack ?_ (of_decide_eq_true rfl) (of_decide_eq_true rfl) (of_decide_eq_true rfl) (of_decide_eq_true rfl)
    | refine RegsIn.wrb F.VCORE_STATUS_vcore_mv _ .slack ?_ (of_decide_eq_true rfl) (of_decide_eq_true rfl) (of_decide_eq_true rfl) (of_decide_eq_true rfl)
    | decide
    | exact Fin.isLt _
    | omega
    | dsimp -zeta only

theorem State.noteSlack_in (s : State) (a1 : Nat) :
    RegsIn [] s (State.noteSlack s a1) := by
  unfold State.noteSlack
  with_reducible repeat' first
    | assumption
    | (extract_lets +onlyGivenNames z; clear_value z; revert z; intro y)
    | exact RegsIn.rfl
    | refine RegsIn.upd ?_
    | decide
    | exact Fin.isLt _
    | omega
    | dsimp -zeta only

theorem State.noteSlip_in (s : State) :
    RegsIn [.slack] s (State.noteSlip s) := by
  unfold State.noteSlip
  with_reducible repeat' first
    | assumption
    | (extract_lets +onlyGivenNames z
       refine RegsIn.let z ?_ ?_
       subst z
       rotate_left
       clear_value z
       revert z
       intro y hy
       rotate_left)
    | (extract_lets +onlyGivenNames z; clear_value z; revert z; intro y)
    | exact RegsIn.rfl
    | apply RegsIn.next ?_ (State.noteSlack_in _ _) ?_
    | apply RegsIn.next ?_ (State.setVcore_in _ _) ?_
    | refine RegsIn.upd ?_
    | decide
    | exact Fin.isLt _
    | omega
    | dsimp -zeta only

theorem State.wheelSlack_in (s : State) (a1 : Nat) (a2 : Nat) (h0 : a1 < 8) :
    RegsIn [.events, .slack, .viol] s (State.wheelSlack s a1 a2) := by
  unfold State.wheelSlack
  with_reducible repeat' first
    | assumption
    | (extract_lets +onlyGivenNames z
       refine RegsIn.let z ?_ ?_
       subst z
       rotate_left
       clear_value z
       revert z
       intro y hy
       rotate_left)
    | (extract_lets +onlyGivenNames z; clear_value z; revert z; intro y)
    | exact RegsIn.rfl
    | refine RegsIn.ite ?_ ?_ <;> intro hc
    | refine RegsIn.wr F.SLACK_FLAGS_wheel_warn _ .slack ?_ (of_decide_eq_true rfl) (of_decide_eq_true rfl) (of_decide_eq_true rfl) (of_decide_eq_true rfl)
    | refine RegsIn.wr (F.SLACK_WHEEL_LAST_slack_ns _) _ .slack ?_ (of_decide_eq_true rfl) (of_decide_eq_true rfl) (by simp only [F.SLACK_WHEEL_LAST_slack_ns, Bank.range]; omega) (by simp only [F.SLACK_WHEEL_LAST_slack_ns, Bank.range]; omega)
    | refine RegsIn.wr (F.SLACK_WHEEL_MIN_slack_ns _) _ .slack ?_ (of_decide_eq_true rfl) (of_decide_eq_true rfl) (by simp only [F.SLACK_WHEEL_MIN_slack_ns, Bank.range]; omega) (by simp only [F.SLACK_WHEEL_MIN_slack_ns, Bank.range]; omega)
    | refine RegsIn.wr (F.SLIP_WHEEL_last_slipped _) _ .slack ?_ (of_decide_eq_true rfl) (of_decide_eq_true rfl) (by simp only [F.SLIP_WHEEL_last_slipped, Bank.range]; omega) (by simp only [F.SLIP_WHEEL_last_slipped, Bank.range]; omega)
    | apply RegsIn.next ?_ (State.noteSlack_in _ _) ?_
    | apply RegsIn.next ?_ (State.raiseSource_in _ _ _ _ ?_) ?_
    | decide
    | exact Fin.isLt _
    | omega
    | dsimp -zeta only

theorem State.wheelSlip_in (s : State) (a1 : Nat) (a2 : Nat) (h0 : a1 < 8) :
    RegsIn [.hopper, .events, .slack, .fault, .wdog, .online, .time, .ply, .brake, .mill, .viol, .log, .skein] s (State.wheelSlip s a1 a2) := by
  unfold State.wheelSlip
  with_reducible repeat' first
    | assumption
    | (extract_lets +onlyGivenNames z
       refine RegsIn.let z ?_ ?_
       subst z
       rotate_left
       clear_value z
       revert z
       intro y hy
       rotate_left)
    | (extract_lets +onlyGivenNames z; clear_value z; revert z; intro y)
    | exact RegsIn.rfl
    | refine RegsIn.ite ?_ ?_ <;> intro hc
    | refine RegsIn.wr (F.SLACK_WHEEL_LAST_slack_ns _) _ .slack ?_ (of_decide_eq_true rfl) (of_decide_eq_true rfl) (by simp only [F.SLACK_WHEEL_LAST_slack_ns, Bank.range]; omega) (by simp only [F.SLACK_WHEEL_LAST_slack_ns, Bank.range]; omega)
    | refine RegsIn.inc (F.SLACK_WHEEL_LAST_slack_ns _) .slack ?_ (of_decide_eq_true rfl) (of_decide_eq_true rfl) (by simp only [F.SLACK_WHEEL_LAST_slack_ns, Bank.range]; omega) (by simp only [F.SLACK_WHEEL_LAST_slack_ns, Bank.range]; omega)
    | refine RegsIn.wr (F.SLACK_WHEEL_MIN_slack_ns _) _ .slack ?_ (of_decide_eq_true rfl) (of_decide_eq_true rfl) (by simp only [F.SLACK_WHEEL_MIN_slack_ns, Bank.range]; omega) (by simp only [F.SLACK_WHEEL_MIN_slack_ns, Bank.range]; omega)
    | refine RegsIn.inc (F.SLACK_WHEEL_MIN_slack_ns _) .slack ?_ (of_decide_eq_true rfl) (of_decide_eq_true rfl) (by simp only [F.SLACK_WHEEL_MIN_slack_ns, Bank.range]; omega) (by simp only [F.SLACK_WHEEL_MIN_slack_ns, Bank.range]; omega)
    | refine RegsIn.wr (F.SLIP_WHEEL_last_slipped _) _ .slack ?_ (of_decide_eq_true rfl) (of_decide_eq_true rfl) (by simp only [F.SLIP_WHEEL_last_slipped, Bank.range]; omega) (by simp only [F.SLIP_WHEEL_last_slipped, Bank.range]; omega)
    | refine RegsIn.inc (F.SLIP_WHEEL_last_slipped _) .slack ?_ (of_decide_eq_true rfl) (of_decide_eq_true rfl) (by simp only [F.SLIP_WHEEL_last_slipped, Bank.range]; omega) (by simp only [F.SLIP_WHEEL_last_slipped, Bank.range]; omega)
    | refine RegsIn.wr (F.SLIP_WHEEL_slips _) _ .slack ?_ (of_decide_eq_true rfl) (of_decide_eq_true rfl) (by simp only [F.SLIP_WHEEL_slips, Bank.range]; omega) (by simp only [F.SLIP_WHEEL_slips, Bank.range]; omega)
    | refine RegsIn.inc (F.SLIP_WHEEL_slips _) .slack ?_ (of_decide_eq_true rfl) (of_decide_eq_true rfl) (by simp only [F.SLIP_WHEEL_slips, Bank.range]; omega) (by simp only [F.SLIP_WHEEL_slips, Bank.range]; omega)
    | apply RegsIn.next ?_ (State.noteSlip_in _) ?_
    | apply RegsIn.next ?_ (State.setRel_in _ _ _) ?_
    | apply RegsIn.next ?_ (State.raiseSource_in _ _ _ _ ?_) ?_
    | apply RegsIn.next ?_ (State.selfFault_in _ _ _ _) ?_
    | refine RegsIn.upd ?_
    | decide
    | exact Fin.isLt _
    | omega
    | dsimp -zeta only

theorem State.taskSlack_in (s : State) (a1 : Nat) (a2 : Nat) (h0 : a1 < 16) :
    RegsIn [.events, .slack, .viol] s (State.taskSlack s a1 a2) := by
  unfold State.taskSlack
  with_reducible repeat' first
    | assumption
    | (extract_lets +onlyGivenNames z
       refine RegsIn.let z ?_ ?_
       subst z
       rotate_left
       clear_value z
       revert z
       intro y hy
       rotate_left)
    | (extract_lets +onlyGivenNames z; clear_value z; revert z; intro y)
    | exact RegsIn.rfl
    | refine RegsIn.ite ?_ ?_ <;> intro hc
    | refine RegsIn.wr F.SLACK_FLAGS_task_warn _ .slack ?_ (of_decide_eq_true rfl) (of_decide_eq_true rfl) (of_decide_eq_true rfl) (of_decide_eq_true rfl)
    | refine RegsIn.wr (F.SLACK_TASK_LAST_slack_ns _) _ .slack ?_ (of_decide_eq_true rfl) (of_decide_eq_true rfl) (by simp only [F.SLACK_TASK_LAST_slack_ns, Bank.range]; omega) (by simp only [F.SLACK_TASK_LAST_slack_ns, Bank.range]; omega)
    | refine RegsIn.wr (F.SLACK_TASK_MIN_slack_ns _) _ .slack ?_ (of_decide_eq_true rfl) (of_decide_eq_true rfl) (by simp only [F.SLACK_TASK_MIN_slack_ns, Bank.range]; omega) (by simp only [F.SLACK_TASK_MIN_slack_ns, Bank.range]; omega)
    | refine RegsIn.wr (F.SLIP_TASK_last_slipped _) _ .slack ?_ (of_decide_eq_true rfl) (of_decide_eq_true rfl) (by simp only [F.SLIP_TASK_last_slipped, Bank.range]; omega) (by simp only [F.SLIP_TASK_last_slipped, Bank.range]; omega)
    | apply RegsIn.next ?_ (State.noteSlack_in _ _) ?_
    | apply RegsIn.next ?_ (State.raiseSource_in _ _ _ _ ?_) ?_
    | decide
    | exact Fin.isLt _
    | omega
    | dsimp -zeta only

theorem State.setTask_in (s : State) (a1 : Nat) (a2 : TaskSt) :
    RegsIn [] s (State.setTask s a1 a2) := by
  unfold State.setTask
  with_reducible repeat' first
    | assumption
    | (extract_lets +onlyGivenNames z; clear_value z; revert z; intro y)
    | exact RegsIn.rfl
    | refine RegsIn.upd ?_
    | decide
    | exact Fin.isLt _
    | omega
    | dsimp -zeta only

theorem State.setInst_in (s : State) (a1 : Nat) (a2 : TaskInst) :
    RegsIn [] s (State.setInst s a1 a2) := by
  unfold State.setInst
  with_reducible repeat' first
    | assumption
    | (extract_lets +onlyGivenNames z; clear_value z; revert z; intro y)
    | exact RegsIn.rfl
    | apply RegsIn.next ?_ (State.setTask_in _ _ _) ?_
    | decide
    | exact Fin.isLt _
    | omega
    | dsimp -zeta only

theorem State.beginCopy_in (s : State) (a1 : Nat) (a2 : TaskInst) :
    RegsIn [] s (State.beginCopy s a1 a2) := by
  unfold State.beginCopy
  with_reducible repeat' first
    | assumption
    | exact RegsIn.rfl
    | apply RegsIn.next ?_ (State.setInst_in _ _ _) ?_
    | decide
    | exact Fin.isLt _
    | omega
    | dsimp -zeta only

theorem State.startInst_in (s : State) (a1 : Nat) (a2 : DueInst) (h0 : a1 < 16) :
    RegsIn [.events, .task, .viol] s (State.startInst s a1 a2) := by
  unfold State.startInst
  with_reducible repeat' first
    | assumption
    | (extract_lets +onlyGivenNames z
       refine RegsIn.let z ?_ ?_
       subst z
       rotate_left
       clear_value z
       revert z
       intro y hy
       rotate_left)
    | (extract_lets +onlyGivenNames z; clear_value z; revert z; intro y)
    | exact RegsIn.rfl
    | refine RegsIn.ite ?_ ?_ <;> intro hc
    | apply RegsIn.next ?_ (State.setTask_in _ _ _) ?_
    | apply RegsIn.next ?_ (State.taskEvt_in _ _ _ ?_) ?_
    | apply RegsIn.next ?_ (State.beginCopy_in _ _ _) ?_
    | split
    | decide
    | exact Fin.isLt _
    | omega
    | dsimp -zeta only

theorem State.nextWaiting_in (s : State) (a1 : Nat) (h0 : a1 < 16) :
    RegsIn [.events, .task, .viol] s (State.nextWaiting s a1) := by
  unfold State.nextWaiting
  with_reducible repeat' first
    | assumption
    | (extract_lets +onlyGivenNames z; clear_value z; revert z; intro y)
    | exact RegsIn.rfl
    | apply RegsIn.next ?_ (State.startInst_in _ _ _ ?_) ?_
    | apply RegsIn.next ?_ (State.setTask_in _ _ _) ?_
    | split
    | decide
    | exact Fin.isLt _
    | omega
    | dsimp -zeta only

theorem State.takeStrand_in (s : State) (a1 : Nat) :
    RegsIn [] s (State.takeStrand s a1) := by
  unfold State.takeStrand
  with_reducible repeat' first
    | assumption
    | (extract_lets +onlyGivenNames z
       refine RegsIn.let z ?_ ?_
       subst z
       rotate_left
       clear_value z
       revert z
       intro y hy
       rotate_left)
    | (extract_lets +onlyGivenNames z; clear_value z; revert z; intro y)
    | exact RegsIn.rfl
    | refine RegsIn.ite ?_ ?_ <;> intro hc
    | apply RegsIn.next ?_ (State.setInst_in _ _ _) ?_
    | split
    | refine RegsIn.upd ?_
    | decide
    | exact Fin.isLt _
    | omega
    | dsimp -zeta only

theorem State.dispatchSpindles_in (s : State) :
    RegsIn [] s (State.dispatchSpindles s) := by
  unfold State.dispatchSpindles
  with_reducible repeat' first
    | assumption
    | exact RegsIn.rfl
    | (refine RegsIn.upTo _ _ ?_ ?_; rotate_left; intro y a ha hy; rotate_left)
    | (refine RegsIn.bitsSet _ _ _ ?_ ?_; rotate_left; intro y a ha hy; rotate_left)
    | (refine RegsIn.foldl _ _ ?_ ?_; rotate_left; intro y a ha hy; rotate_left)
    | apply RegsIn.next ?_ (State.takeStrand_in _ _) ?_
    | decide
    | exact Fin.isLt _
    | omega
    | dsimp -zeta only

theorem State.freeSpindles_in (s : State) (a1 : Nat) :
    RegsIn [] s (State.freeSpindles s a1) := by
  unfold State.freeSpindles
  with_reducible repeat' first
    | assumption
    | (extract_lets +onlyGivenNames z; clear_value z; revert z; intro y)
    | exact RegsIn.rfl
    | refine RegsIn.upd ?_
    | decide
    | exact Fin.isLt _
    | omega
    | dsimp -zeta only

theorem State.sendCompletion_in (s : State) (a1 : Nat) (a2 : Nat) (a3 : Nat) (a4 : Nat) :
    RegsIn [] s (State.sendCompletion s a1 a2 a3 a4) := by
  unfold State.sendCompletion
  with_reducible repeat' first
    | assumption
    | exact RegsIn.rfl
    | refine RegsIn.ite ?_ ?_ <;> intro hc
    | apply RegsIn.next ?_ (State.sendPly_in _ _ _ _) ?_
    | decide
    | exact Fin.isLt _
    | omega
    | dsimp -zeta only

theorem State.trapInst_in (s : State) (a1 : Nat) (a2 : TrapInfo) (h0 : a1 < 16) :
    RegsIn [.events, .task, .trap, .viol] s (State.trapInst s a1 a2) := by
  unfold State.trapInst
  with_reducible repeat' first
    | assumption
    | (extract_lets +onlyGivenNames z
       refine RegsIn.let z ?_ ?_
       subst z
       rotate_left
       clear_value z
       revert z
       intro y hy
       rotate_left)
    | (extract_lets +onlyGivenNames z; clear_value z; revert z; intro y)
    | exact RegsIn.rfl
    | refine RegsIn.wr (F.TRAP_INFO_code _) _ .trap ?_ (of_decide_eq_true rfl) (of_decide_eq_true rfl) (by simp only [F.TRAP_INFO_code, Bank.range]; omega) (by simp only [F.TRAP_INFO_code, Bank.range]; omega)
    | refine RegsIn.wr (F.TRAP_INFO_strand _) _ .trap ?_ (of_decide_eq_true rfl) (of_decide_eq_true rfl) (by simp only [F.TRAP_INFO_strand, Bank.range]; omega) (by simp only [F.TRAP_INFO_strand, Bank.range]; omega)
    | refine RegsIn.wr (F.TRAP_INFO_user _) _ .trap ?_ (of_decide_eq_true rfl) (of_decide_eq_true rfl) (by simp only [F.TRAP_INFO_user, Bank.range]; omega) (by simp only [F.TRAP_INFO_user, Bank.range]; omega)
    | refine RegsIn.wr (F.TRAP_PC_pc _) _ .trap ?_ (of_decide_eq_true rfl) (of_decide_eq_true rfl) (by simp only [F.TRAP_PC_pc, Bank.range]; omega) (by simp only [F.TRAP_PC_pc, Bank.range]; omega)
    | refine RegsIn.wr (F.TRAP_TURN_HI_turn _) _ .trap ?_ (of_decide_eq_true rfl) (of_decide_eq_true rfl) (by simp only [F.TRAP_TURN_HI_turn, Bank.range]; omega) (by simp only [F.TRAP_TURN_HI_turn, Bank.range]; omega)
    | refine RegsIn.wr (F.TRAP_TURN_LO_turn _) _ .trap ?_ (of_decide_eq_true rfl) (of_decide_eq_true rfl) (by simp only [F.TRAP_TURN_LO_turn, Bank.range]; omega) (by simp only [F.TRAP_TURN_LO_turn, Bank.range]; omega)
    | apply RegsIn.next ?_ (State.setTask_in _ _ _) ?_
    | apply RegsIn.next ?_ (State.freeSpindles_in _ _) ?_
    | apply RegsIn.next ?_ (State.taskEvt_in _ _ _ ?_) ?_
    | apply RegsIn.next ?_ (State.sendCompletion_in _ _ _ _ _) ?_
    | apply RegsIn.next ?_ (State.dispatchSpindles_in _) ?_
    | apply RegsIn.next ?_ (State.nextWaiting_in _ _ ?_) ?_
    | split
    | decide
    | exact Fin.isLt _
    | omega
    | dsimp -zeta only

theorem State.blame_in (s : State) (a1 : Nat) (h0 : a1 < 16) :
    RegsIn [.run] s (State.blame s a1) := by
  unfold State.blame
  with_reducible repeat' first
    | assumption
    | exact RegsIn.rfl
    | refine RegsIn.wr F.TASK_RUN_overrun_task _ .run ?_ (of_decide_eq_true rfl) (of_decide_eq_true rfl) (of_decide_eq_true rfl) (of_decide_eq_true rfl)
    | refine RegsIn.wr F.TASK_RUN_overrun_valid _ .run ?_ (of_decide_eq_true rfl) (of_decide_eq_true rfl) (of_decide_eq_true rfl) (of_decide_eq_true rfl)
    | decide
    | exact Fin.isLt _
    | omega
    | dsimp -zeta only

theorem State.haltTasks_in (s : State) :
    RegsIn [.events, .task, .viol] s (State.haltTasks s) := by
  unfold State.haltTasks
  with_reducible repeat' first
    | assumption
    | (extract_lets +onlyGivenNames z; clear_value z; revert z; intro y)
    | exact RegsIn.rfl
    | refine RegsIn.ite ?_ ?_ <;> intro hc
    | (refine RegsIn.upTo _ _ ?_ ?_; rotate_left; intro y a ha hy; rotate_left)
    | (refine RegsIn.bitsSet _ _ _ ?_ ?_; rotate_left; intro y a ha hy; rotate_left)
    | (refine RegsIn.foldl _ _ ?_ ?_; rotate_left; intro y a ha hy; rotate_left)
    | apply RegsIn.next ?_ (State.taskEvt_in _ _ _ ?_) ?_
    | exact State.enabledTasks_lt ha
    | decide
    | exact Fin.isLt _
    | omega
    | dsimp -zeta only

theorem State.overrunStop_in (s : State) (a1 : Nat) (a2 : Bool) (a3 : Nat) (h0 : a1 < 16) :
    RegsIn [.events, .run, .task, .viol] s (State.overrunStop s a1 a2 a3) := by
  unfold State.overrunStop
  have w : RegsIn [.events, .run, .task, .viol] s
      (if a2 then s.taskEvt a1 2 else (s.wr (F.TASK_STATUS_overran a1) 1).taskEvt a1 1) := by
    refine RegsIn.ite (fun _ => (State.taskEvt_in _ _ _ h0).mono (by decide)) (fun _ => ?_)
    exact (RegsIn.wr _ _ .task RegsIn.rfl (of_decide_eq_true rfl) (by decide) (by simp only [F.TASK_STATUS_overran, Bank.range]; omega)
      (by simp only [F.TASK_STATUS_overran, Bank.range]; omega)).next (State.taskEvt_in _ _ _ h0) (by decide)
  generalize (if a2 then s.taskEvt a1 2 else (s.wr (F.TASK_STATUS_overran a1) 1).taskEvt a1 1) = u at w ⊢
  have b := w.next (State.blame_in u a1 h0) (by decide)
  have h := RegsIn.wr F.TASK_RUN_run_state 3 .run (b.next (State.haltTasks_in _) (by decide)) (by decide) (by decide)
    (by decide) (by decide)
  exact RegsIn.ite (fun _ => RegsIn.ite (fun _ => b) (fun _ => w)) (fun _ => RegsIn.upd h)

theorem State.haltTrapped_in (s : State) (a1 : Nat) (h0 : a1 < 16) :
    RegsIn [.events, .task, .viol] s (State.haltTrapped s a1) := by
  unfold State.haltTrapped
  with_reducible repeat' first
    | assumption
    | (extract_lets +onlyGivenNames z
       refine RegsIn.let z ?_ ?_
       subst z
       rotate_left
       clear_value z
       revert z
       intro y hy
       rotate_left)
    | (extract_lets +onlyGivenNames z; clear_value z; revert z; intro y)
    | exact RegsIn.rfl
    | refine RegsIn.ite ?_ ?_ <;> intro hc
    | apply RegsIn.next ?_ (State.freeSpindles_in _ _) ?_
    | apply RegsIn.next ?_ (State.taskEvt_in _ _ _ ?_) ?_
    | apply RegsIn.next ?_ (State.setTask_in _ _ _) ?_
    | decide
    | exact Fin.isLt _
    | omega
    | dsimp -zeta only

theorem State.startTask_in (s : State) (a1 : Nat) (a2 : Nat) :
    RegsIn [] s (State.startTask s a1 a2) := by
  unfold State.startTask
  with_reducible repeat' first
    | assumption
    | (extract_lets +onlyGivenNames z; clear_value z; revert z; intro y)
    | exact RegsIn.rfl
    | refine RegsIn.ite ?_ ?_ <;> intro hc
    | apply RegsIn.next ?_ (State.setTask_in _ _ _) ?_
    | decide
    | exact Fin.isLt _
    | omega
    | dsimp -zeta only

theorem State.readyTask_in (s : State) (a1 : Nat) (a2 : Nat) (h0 : a1 < 16) :
    RegsIn [.events, .task, .viol] s (State.readyTask s a1 a2) := by
  unfold State.readyTask
  with_reducible repeat' first
    | assumption
    | (extract_lets +onlyGivenNames z
       refine RegsIn.let z ?_ ?_
       subst z
       rotate_left
       clear_value z
       revert z
       intro y hy
       rotate_left)
    | (extract_lets +onlyGivenNames z; clear_value z; revert z; intro y)
    | exact RegsIn.rfl
    | refine RegsIn.ite ?_ ?_ <;> intro hc
    | apply RegsIn.next ?_ (State.setTask_in _ _ _) ?_
    | apply RegsIn.next ?_ (State.startInst_in _ _ _ ?_) ?_
    | split
    | decide
    | exact Fin.isLt _
    | omega
    | dsimp -zeta only

theorem State.startFlush_in (s : State) :
    RegsIn [] s (State.startFlush s) := by
  unfold State.startFlush
  with_reducible repeat' first
    | assumption
    | (extract_lets +onlyGivenNames z; clear_value z; revert z; intro y)
    | exact RegsIn.rfl
    | refine RegsIn.ite ?_ ?_ <;> intro hc
    | refine RegsIn.upd ?_
    | decide
    | exact Fin.isLt _
    | omega
    | dsimp -zeta only

theorem State.extraFlush_in (s : State) :
    RegsIn [] s (State.extraFlush s) := by
  unfold State.extraFlush
  with_reducible repeat' first
    | assumption
    | (extract_lets +onlyGivenNames z
       refine RegsIn.let z ?_ ?_
       subst z
       rotate_left
       clear_value z
       revert z
       intro y hy
       rotate_left)
    | (extract_lets +onlyGivenNames z; clear_value z; revert z; intro y)
    | exact RegsIn.rfl
    | refine RegsIn.ite ?_ ?_ <;> intro hc
    | apply RegsIn.next ?_ (State.startFlush_in _) ?_
    | refine RegsIn.upd ?_
    | decide
    | exact Fin.isLt _
    | omega
    | dsimp -zeta only

theorem State.setMillCh_in (s : State) (a1 : Nat) (a2 : MillChan) :
    RegsIn [] s (State.setMillCh s a1 a2) := by
  unfold State.setMillCh
  with_reducible repeat' first
    | assumption
    | exact RegsIn.rfl
    | refine RegsIn.upd ?_
    | decide
    | exact Fin.isLt _
    | omega
    | dsimp -zeta only

theorem State.setMillBuf_in (s : State) (a1 : Nat) (a2 : Nat) (a3 : MillBuf) :
    RegsIn [] s (State.setMillBuf s a1 a2 a3) := by
  unfold State.setMillBuf
  with_reducible repeat' first
    | assumption
    | (extract_lets +onlyGivenNames z; clear_value z; revert z; intro y)
    | exact RegsIn.rfl
    | apply RegsIn.next ?_ (State.setMillCh_in _ _ _) ?_
    | decide
    | exact Fin.isLt _
    | omega
    | dsimp -zeta only

theorem State.millEnter_in (s : State) (a1 : Nat) (a2 : Nat) (a3 : List Word36) (h0 : a1 < 2) (h1 : a2 < 64) :
    RegsIn [.mill] s (State.millEnter s a1 a2 a3) := by
  unfold State.millEnter
  with_reducible repeat' first
    | assumption
    | (extract_lets +onlyGivenNames z
       refine RegsIn.let z ?_ ?_
       subst z
       rotate_left
       clear_value z
       revert z
       intro y hy
       rotate_left)
    | (extract_lets +onlyGivenNames z; clear_value z; revert z; intro y)
    | exact RegsIn.rfl
    | refine RegsIn.ite ?_ ?_ <;> intro hc
    | refine RegsIn.wr (F.MB_BUF_STATUS_full _ _) _ .mill ?_ (of_decide_eq_true rfl) (of_decide_eq_true rfl) (by simp only [F.MB_BUF_STATUS_full, Bank.range]; omega) (by simp only [F.MB_BUF_STATUS_full, Bank.range]; omega)
    | refine RegsIn.inc (F.MB_BUF_STATUS_full _ _) .mill ?_ (of_decide_eq_true rfl) (of_decide_eq_true rfl) (by simp only [F.MB_BUF_STATUS_full, Bank.range]; omega) (by simp only [F.MB_BUF_STATUS_full, Bank.range]; omega)
    | refine RegsIn.wr (F.MB_BUF_STATUS_held _ _) _ .mill ?_ (of_decide_eq_true rfl) (of_decide_eq_true rfl) (by simp only [F.MB_BUF_STATUS_held, Bank.range]; omega) (by simp only [F.MB_BUF_STATUS_held, Bank.range]; omega)
    | refine RegsIn.inc (F.MB_BUF_STATUS_held _ _) .mill ?_ (of_decide_eq_true rfl) (of_decide_eq_true rfl) (by simp only [F.MB_BUF_STATUS_held, Bank.range]; omega) (by simp only [F.MB_BUF_STATUS_held, Bank.range]; omega)
    | refine RegsIn.wr (F.MB_BUF_STATUS_pending _ _) _ .mill ?_ (of_decide_eq_true rfl) (of_decide_eq_true rfl) (by simp only [F.MB_BUF_STATUS_pending, Bank.range]; omega) (by simp only [F.MB_BUF_STATUS_pending, Bank.range]; omega)
    | refine RegsIn.inc (F.MB_BUF_STATUS_pending _ _) .mill ?_ (of_decide_eq_true rfl) (of_decide_eq_true rfl) (by simp only [F.MB_BUF_STATUS_pending, Bank.range]; omega) (by simp only [F.MB_BUF_STATUS_pending, Bank.range]; omega)
    | refine RegsIn.wr (F.MB_BUF_STATUS_replaced _ _) _ .mill ?_ (of_decide_eq_true rfl) (of_decide_eq_true rfl) (by simp only [F.MB_BUF_STATUS_replaced, Bank.range]; omega) (by simp only [F.MB_BUF_STATUS_replaced, Bank.range]; omega)
    | refine RegsIn.inc (F.MB_BUF_STATUS_replaced _ _) .mill ?_ (of_decide_eq_true rfl) (of_decide_eq_true rfl) (by simp only [F.MB_BUF_STATUS_replaced, Bank.range]; omega) (by simp only [F.MB_BUF_STATUS_replaced, Bank.range]; omega)
    | refine RegsIn.wr (F.MB_BUF_STATUS_too_long _ _) _ .mill ?_ (of_decide_eq_true rfl) (of_decide_eq_true rfl) (by simp only [F.MB_BUF_STATUS_too_long, Bank.range]; omega) (by simp only [F.MB_BUF_STATUS_too_long, Bank.range]; omega)
    | refine RegsIn.inc (F.MB_BUF_STATUS_too_long _ _) .mill ?_ (of_decide_eq_true rfl) (of_decide_eq_true rfl) (by simp only [F.MB_BUF_STATUS_too_long, Bank.range]; omega) (by simp only [F.MB_BUF_STATUS_too_long, Bank.range]; omega)
    | apply RegsIn.next ?_ (State.setMillCh_in _ _ _) ?_
    | apply RegsIn.next ?_ (State.setMillBuf_in _ _ _ _) ?_
    | decide
    | exact Fin.isLt _
    | omega
    | dsimp -zeta only

theorem State.millRead_in (s : State) (a1 : Nat) (a2 : Nat) (h0 : a1 < 2) (h1 : a2 < 64) :
    RegsIn [.mill] s (State.millRead s a1 a2) := by
  unfold State.millRead
  with_reducible repeat' first
    | assumption
    | (extract_lets +onlyGivenNames z
       refine RegsIn.let z ?_ ?_
       subst z
       rotate_left
       clear_value z
       revert z
       intro y hy
       rotate_left)
    | (extract_lets +onlyGivenNames z; clear_value z; revert z; intro y)
    | exact RegsIn.rfl
    | refine RegsIn.ite ?_ ?_ <;> intro hc
    | refine RegsIn.wr (F.MB_BUF_STATUS_overrun _ _) _ .mill ?_ (of_decide_eq_true rfl) (of_decide_eq_true rfl) (by simp only [F.MB_BUF_STATUS_overrun, Bank.range]; omega) (by simp only [F.MB_BUF_STATUS_overrun, Bank.range]; omega)
    | apply RegsIn.next ?_ (State.setMillBuf_in _ _ _ _) ?_
    | decide
    | exact Fin.isLt _
    | omega
    | dsimp -zeta only

theorem State.millBoundary_in (s : State) :
    RegsIn [] s (State.millBoundary s) := by
  unfold State.millBoundary
  with_reducible repeat' first
    | assumption
    | (extract_lets +onlyGivenNames z; clear_value z; revert z; intro y)
    | exact RegsIn.rfl
    | refine RegsIn.upd ?_
    | decide
    | exact Fin.isLt _
    | omega
    | dsimp -zeta only

theorem State.makeSnap_in (s : State) (a1 : Nat) (a2 : Nat) :
    RegsIn [] s (State.makeSnap s a1 a2) := by
  unfold State.makeSnap
  with_reducible repeat' first
    | assumption
    | (extract_lets +onlyGivenNames z
       refine RegsIn.let z ?_ ?_
       subst z
       rotate_left
       clear_value z
       revert z
       intro y hy
       rotate_left)
    | (extract_lets +onlyGivenNames z; clear_value z; revert z; intro y)
    | exact RegsIn.rfl
    | refine RegsIn.ite ?_ ?_ <;> intro hc
    | apply RegsIn.next ?_ (State.sendPly_in _ _ _ _) ?_
    | split
    | refine RegsIn.upd ?_
    | decide
    | exact Fin.isLt _
    | omega
    | dsimp -zeta only

theorem State.sendSnaps_in (s : State) (a1 : Nat) :
    RegsIn [] s (State.sendSnaps s a1) := by
  unfold State.sendSnaps
  with_reducible repeat' first
    | assumption
    | (extract_lets +onlyGivenNames z; clear_value z; revert z; intro y)
    | exact RegsIn.rfl
    | refine RegsIn.ite ?_ ?_ <;> intro hc
    | (refine RegsIn.upTo _ _ ?_ ?_; rotate_left; intro y a ha hy; rotate_left)
    | (refine RegsIn.bitsSet _ _ _ ?_ ?_; rotate_left; intro y a ha hy; rotate_left)
    | (refine RegsIn.foldl _ _ ?_ ?_; rotate_left; intro y a ha hy; rotate_left)
    | apply RegsIn.next ?_ (State.makeSnap_in _ _ _) ?_
    | split
    | decide
    | exact Fin.isLt _
    | omega
    | dsimp -zeta only

theorem State.setPosn_in (s : State) (a1 : Nat) (a2 : SkeinPos) :
    RegsIn [] s (State.setPosn s a1 a2) := by
  unfold State.setPosn
  with_reducible repeat' first
    | assumption
    | (extract_lets +onlyGivenNames z; clear_value z; revert z; intro y)
    | exact RegsIn.rfl
    | refine RegsIn.upd ?_
    | decide
    | exact Fin.isLt _
    | omega
    | dsimp -zeta only

theorem State.boundaryBlocks_in (s : State) (a1 : Nat) (a2 : Nat) :
    RegsIn [] s (State.boundaryBlocks s a1 a2) := by
  have f : RegsIn [] s s.free.2 := RegsIn.upd RegsIn.rfl
  unfold State.boundaryBlocks
  refine RegsIn.ite (fun _ => RegsIn.rfl) (fun _ => ?_)
  have g := f.next (State.emit_in _ (.skeinBlock a2 1 ((a1 % 64 * 1024 + s.free.1 % 656) / 256) ((a1 % 64 * 1024 + s.free.1 % 656) % 256))) (by decide)
  refine RegsIn.ite (fun _ => g.next (State.emit_in _ _) (by decide)) (fun _ => RegsIn.ite (fun _ => g) (fun _ => ?_))
  exact RegsIn.next (g.next (State.emit_in _ _) (by decide)) (State.setPort_in _ _ _) (by decide)

theorem State.countMarks_in (s : State) (a1 : Nat) :
    RegsIn [] s (State.countMarks s a1) := by
  unfold State.countMarks
  with_reducible repeat' first
    | assumption
    | (extract_lets +onlyGivenNames z; clear_value z; revert z; intro y)
    | exact RegsIn.rfl
    | refine RegsIn.ite ?_ ?_ <;> intro hc
    | apply RegsIn.next ?_ (State.setPort_in _ _ _) ?_
    | decide
    | exact Fin.isLt _
    | omega
    | dsimp -zeta only

theorem State.doorbellStart_in (s : State) (a1 : Nat) :
    RegsIn [.events] s (State.doorbellStart s a1) := by
  unfold State.doorbellStart
  with_reducible repeat' first
    | assumption
    | (extract_lets +onlyGivenNames z; clear_value z; revert z; intro y)
    | exact RegsIn.rfl
    | refine RegsIn.ite ?_ ?_ <;> intro hc
    | refine RegsIn.wr F.HOST_STATUS_l1 _ .events ?_ (of_decide_eq_true rfl) (of_decide_eq_true rfl) (of_decide_eq_true rfl) (of_decide_eq_true rfl)
    | refine RegsIn.inc F.HOST_STATUS_l1 .events ?_ (of_decide_eq_true rfl) (of_decide_eq_true rfl) (of_decide_eq_true rfl) (of_decide_eq_true rfl)
    | refine RegsIn.wr F.HOST_STATUS_skipped _ .events ?_ (of_decide_eq_true rfl) (of_decide_eq_true rfl) (of_decide_eq_true rfl) (of_decide_eq_true rfl)
    | refine RegsIn.inc F.HOST_STATUS_skipped .events ?_ (of_decide_eq_true rfl) (of_decide_eq_true rfl) (of_decide_eq_true rfl) (of_decide_eq_true rfl)
    | refine RegsIn.upd ?_
    | decide
    | exact Fin.isLt _
    | omega
    | dsimp -zeta only

theorem State.storeInput_in (s : State) (a1 : Nat) (a2 : SkFrame) :
    RegsIn [] s (State.storeInput s a1 a2) := by
  unfold State.storeInput
  with_reducible repeat' first
    | assumption
    | (extract_lets +onlyGivenNames z; clear_value z; revert z; intro y)
    | exact RegsIn.rfl
    | refine RegsIn.ite ?_ ?_ <;> intro hc
    | (refine RegsIn.upTo _ _ ?_ ?_; rotate_left; intro y a ha hy; rotate_left)
    | (refine RegsIn.bitsSet _ _ _ ?_ ?_; rotate_left; intro y a ha hy; rotate_left)
    | (refine RegsIn.foldl _ _ ?_ ?_; rotate_left; intro y a ha hy; rotate_left)
    | apply RegsIn.next ?_ (State.takeInput_in _ _ _ _ _ _ _) ?_
    | decide
    | exact Fin.isLt _
    | omega
    | dsimp -zeta only

theorem State.missRegs_in (s : State) (a1 : Nat) (h0 : a1 < 256) :
    RegsIn [.skein] s (State.missRegs s a1) := by
  unfold State.missRegs
  with_reducible repeat' first
    | assumption
    | (extract_lets +onlyGivenNames z
       refine RegsIn.let z ?_ ?_
       subst z
       rotate_left
       clear_value z
       revert z
       intro y hy
       rotate_left)
    | (extract_lets +onlyGivenNames z; clear_value z; revert z; intro y)
    | exact RegsIn.rfl
    | refine RegsIn.ite ?_ ?_ <;> intro hc
    | refine RegsIn.inc (F.SK_STN_STATE_missed _ _) .skein ?_ (of_decide_eq_true rfl) (of_decide_eq_true rfl) (by simp only [F.SK_STN_STATE_missed, Bank.range]; omega) (by simp only [F.SK_STN_STATE_missed, Bank.range]; omega)
    | apply RegsIn.next ?_ (State.setPosn_in _ _ _) ?_
    | decide
    | exact Fin.isLt _
    | omega
    | dsimp -zeta only

theorem State.missStation_in (s : State) (a1 : Nat) (h0 : a1 < 256) :
    RegsIn [.skein] s (State.missStation s a1) := by
  unfold State.missStation
  with_reducible repeat' first
    | assumption
    | (extract_lets +onlyGivenNames z
       refine RegsIn.let z ?_ ?_
       subst z
       rotate_left
       clear_value z
       revert z
       intro y hy
       rotate_left)
    | exact RegsIn.rfl
    | refine RegsIn.ite ?_ ?_ <;> intro hc
    | (refine RegsIn.upTo _ _ ?_ ?_; rotate_left; intro y a ha hy; rotate_left)
    | (refine RegsIn.bitsSet _ _ _ ?_ ?_; rotate_left; intro y a ha hy; rotate_left)
    | (refine RegsIn.foldl _ _ ?_ ?_; rotate_left; intro y a ha hy; rotate_left)
    | apply RegsIn.next ?_ (State.substitute_in _ _) ?_
    | apply RegsIn.next ?_ (State.missRegs_in _ _ ?_) ?_
    | decide
    | exact Fin.isLt _
    | omega
    | dsimp -zeta only

theorem State.reachedRegs_in (s : State) (a1 : Nat) (h0 : a1 < 16) :
    RegsIn [.skein] s (State.reachedRegs s a1) := by
  unfold State.reachedRegs
  with_reducible repeat' first
    | assumption
    | exact RegsIn.rfl
    | refine RegsIn.wr (F.SK_STATUS_reached _) _ .skein ?_ (of_decide_eq_true rfl) (of_decide_eq_true rfl) (by simp only [F.SK_STATUS_reached, Bank.range]; omega) (by simp only [F.SK_STATUS_reached, Bank.range]; omega)
    | decide
    | exact Fin.isLt _
    | omega
    | dsimp -zeta only

theorem State.composePub_in (s : State) (a1 : Nat) (a2 : SMap Entry) :
    RegsIn [] s (State.composePub s a1 a2) := by
  unfold State.composePub
  with_reducible repeat' first
    | assumption
    | (extract_lets +onlyGivenNames z
       refine RegsIn.let z ?_ ?_
       subst z
       rotate_left
       clear_value z
       revert z
       intro y hy
       rotate_left)
    | (extract_lets +onlyGivenNames z; clear_value z; revert z; intro y)
    | exact RegsIn.rfl
    | refine RegsIn.ite ?_ ?_ <;> intro hc
    | apply RegsIn.next ?_ (State.setRel_in _ _ _) ?_
    | refine RegsIn.upd ?_
    | decide
    | exact Fin.isLt _
    | omega
    | dsimp -zeta only

theorem State.splitInput_in (s : State) (a1 : Nat) (a2 : List Nat) :
    RegsIn [.ply] s (State.splitInput s a1 a2) := by
  unfold State.splitInput
  with_reducible repeat' first
    | assumption
    | (extract_lets +onlyGivenNames z
       refine RegsIn.let z ?_ ?_
       subst z
       rotate_left
       clear_value z
       revert z
       intro y hy
       rotate_left)
    | (extract_lets +onlyGivenNames z; clear_value z; revert z; intro y)
    | exact RegsIn.rfl
    | refine RegsIn.ite ?_ ?_ <;> intro hc
    | refine RegsIn.wr F.PLY_STATUS_diverged _ .ply ?_ (of_decide_eq_true rfl) (of_decide_eq_true rfl) (of_decide_eq_true rfl) (of_decide_eq_true rfl)
    | refine RegsIn.upd ?_
    | decide
    | exact Fin.isLt _
    | omega
    | dsimp -zeta only

theorem State.compareReach_in (s : State) (a1 : Nat) :
    RegsIn [.ply, .skein] s (State.compareReach s a1) := by
  unfold State.compareReach
  with_reducible repeat' first
    | assumption
    | (extract_lets +onlyGivenNames z
       refine RegsIn.let z ?_ ?_
       subst z
       rotate_left
       clear_value z
       revert z
       intro y hy
       rotate_left)
    | (extract_lets +onlyGivenNames z; clear_value z; revert z; intro y)
    | exact RegsIn.rfl
    | refine RegsIn.ite ?_ ?_ <;> intro hc
    | (refine RegsIn.upTo _ _ ?_ ?_; rotate_left; intro y a ha hy; rotate_left)
    | (refine RegsIn.bitsSet _ _ _ ?_ ?_; rotate_left; intro y a ha hy; rotate_left)
    | (refine RegsIn.foldl _ _ ?_ ?_; rotate_left; intro y a ha hy; rotate_left)
    | refine RegsIn.wrb (F.SK_STATUS_bridging _) _ .skein ?_ (of_decide_eq_true rfl) (of_decide_eq_true rfl) (by simp only [F.SK_STATUS_bridging, Bank.range]; omega) (by simp only [F.SK_STATUS_bridging, Bank.range]; omega)
    | apply RegsIn.next ?_ (State.splitInput_in _ _ _) ?_
    | split
    | refine RegsIn.upd ?_
    | decide
    | exact Fin.isLt _
    | omega
    | dsimp -zeta only

theorem State.sendReach_in (s : State) (a1 : Nat) :
    RegsIn [.ply, .skein] s (State.sendReach s a1) := by
  unfold State.sendReach
  with_reducible repeat' first
    | assumption
    | (extract_lets +onlyGivenNames z
       refine RegsIn.let z ?_ ?_
       subst z
       rotate_left
       clear_value z
       revert z
       intro y hy
       rotate_left)
    | (extract_lets +onlyGivenNames z; clear_value z; revert z; intro y)
    | exact RegsIn.rfl
    | (refine RegsIn.upTo _ _ ?_ ?_; rotate_left; intro y a ha hy; rotate_left)
    | (refine RegsIn.bitsSet _ _ _ ?_ ?_; rotate_left; intro y a ha hy; rotate_left)
    | (refine RegsIn.foldl _ _ ?_ ?_; rotate_left; intro y a ha hy; rotate_left)
    | apply RegsIn.next ?_ (State.compareReach_in _ _) ?_
    | apply RegsIn.next ?_ (State.sendPly_in _ _ _ _) ?_
    | refine RegsIn.upd ?_
    | decide
    | exact Fin.isLt _
    | omega
    | dsimp -zeta only

theorem State.endResumed_in (s : State) (a1 : Nat) :
    RegsIn [] s (State.endResumed s a1) := by
  unfold State.endResumed
  with_reducible repeat' first
    | assumption
    | (extract_lets +onlyGivenNames z; clear_value z; revert z; intro y)
    | exact RegsIn.rfl
    | refine RegsIn.ite ?_ ?_ <;> intro hc
    | split
    | refine RegsIn.upd ?_
    | decide
    | exact Fin.isLt _
    | omega
    | dsimp -zeta only

theorem State.slipTask_in (s : State) (a1 : Nat) (a2 : Nat) (a3 : Nat) (h0 : a2 < 16) :
    RegsIn [.events, .slack, .task, .viol] s (State.slipTask s a1 a2 a3) := by
  unfold State.slipTask
  with_reducible repeat' first
    | assumption
    | (extract_lets +onlyGivenNames z
       refine RegsIn.let z ?_ ?_
       subst z
       rotate_left
       clear_value z
       revert z
       intro y hy
       rotate_left)
    | (extract_lets +onlyGivenNames z; clear_value z; revert z; intro y)
    | exact RegsIn.rfl
    | refine RegsIn.ite ?_ ?_ <;> intro hc
    | refine RegsIn.wr (F.SLACK_TASK_LAST_slack_ns _) _ .slack ?_ (of_decide_eq_true rfl) (of_decide_eq_true rfl) (by simp only [F.SLACK_TASK_LAST_slack_ns, Bank.range]; omega) (by simp only [F.SLACK_TASK_LAST_slack_ns, Bank.range]; omega)
    | refine RegsIn.inc (F.SLACK_TASK_LAST_slack_ns _) .slack ?_ (of_decide_eq_true rfl) (of_decide_eq_true rfl) (by simp only [F.SLACK_TASK_LAST_slack_ns, Bank.range]; omega) (by simp only [F.SLACK_TASK_LAST_slack_ns, Bank.range]; omega)
    | refine RegsIn.wr (F.SLACK_TASK_MIN_slack_ns _) _ .slack ?_ (of_decide_eq_true rfl) (of_decide_eq_true rfl) (by simp only [F.SLACK_TASK_MIN_slack_ns, Bank.range]; omega) (by simp only [F.SLACK_TASK_MIN_slack_ns, Bank.range]; omega)
    | refine RegsIn.inc (F.SLACK_TASK_MIN_slack_ns _) .slack ?_ (of_decide_eq_true rfl) (of_decide_eq_true rfl) (by simp only [F.SLACK_TASK_MIN_slack_ns, Bank.range]; omega) (by simp only [F.SLACK_TASK_MIN_slack_ns, Bank.range]; omega)
    | refine RegsIn.wr (F.SLIP_TASK_last_slipped _) _ .slack ?_ (of_decide_eq_true rfl) (of_decide_eq_true rfl) (by simp only [F.SLIP_TASK_last_slipped, Bank.range]; omega) (by simp only [F.SLIP_TASK_last_slipped, Bank.range]; omega)
    | refine RegsIn.inc (F.SLIP_TASK_last_slipped _) .slack ?_ (of_decide_eq_true rfl) (of_decide_eq_true rfl) (by simp only [F.SLIP_TASK_last_slipped, Bank.range]; omega) (by simp only [F.SLIP_TASK_last_slipped, Bank.range]; omega)
    | refine RegsIn.wr (F.SLIP_TASK_slips _) _ .slack ?_ (of_decide_eq_true rfl) (of_decide_eq_true rfl) (by simp only [F.SLIP_TASK_slips, Bank.range]; omega) (by simp only [F.SLIP_TASK_slips, Bank.range]; omega)
    | refine RegsIn.inc (F.SLIP_TASK_slips _) .slack ?_ (of_decide_eq_true rfl) (of_decide_eq_true rfl) (by simp only [F.SLIP_TASK_slips, Bank.range]; omega) (by simp only [F.SLIP_TASK_slips, Bank.range]; omega)
    | apply RegsIn.next ?_ (State.noteSlip_in _) ?_
    | apply RegsIn.next ?_ (State.setRel_in _ _ _) ?_
    | apply RegsIn.next ?_ (State.setTask_in _ _ _) ?_
    | apply RegsIn.next ?_ (State.taskEvt_in _ _ _ ?_) ?_
    | decide
    | exact Fin.isLt _
    | omega
    | dsimp -zeta only

theorem State.slipTasks_in (s : State) (a1 : Nat) :
    RegsIn [.events, .slack, .task, .viol] s (State.slipTasks s a1) := by
  unfold State.slipTasks
  with_reducible repeat' first
    | assumption
    | exact RegsIn.rfl
    | (refine RegsIn.upTo _ _ ?_ ?_; rotate_left; intro y a ha hy; rotate_left)
    | (refine RegsIn.bitsSet _ _ _ ?_ ?_; rotate_left; intro y a ha hy; rotate_left)
    | (refine RegsIn.foldl _ _ ?_ ?_; rotate_left; intro y a ha hy; rotate_left)
    | apply RegsIn.next ?_ (State.slipTask_in _ _ _ _ ?_) ?_
    | split
    | decide
    | exact Fin.isLt _
    | omega
    | dsimp -zeta only

theorem State.releaseStation_in (s : State) (a1 : Nat) (a2 : Nat) (a3 : Nat) :
    RegsIn [] s (State.releaseStation s a1 a2 a3) := by
  unfold State.releaseStation
  with_reducible repeat' first
    | assumption
    | (extract_lets +onlyGivenNames z
       refine RegsIn.let z ?_ ?_
       subst z
       rotate_left
       clear_value z
       revert z
       intro y hy
       rotate_left)
    | (extract_lets +onlyGivenNames z; clear_value z; revert z; intro y)
    | exact RegsIn.rfl
    | refine RegsIn.ite ?_ ?_ <;> intro hc
    | apply RegsIn.next ?_ (State.sendBrake_in _ _) ?_
    | apply RegsIn.next ?_ (State.sendPly_in _ _ _ _) ?_
    | apply RegsIn.next ?_ (State.launchSkeinIn_in _ _ _ _ _ _ _ _ _ _) ?_
    | split
    | decide
    | exact Fin.isLt _
    | omega
    | dsimp -zeta only

theorem State.countDigests_in (s : State) :
    RegsIn [.hopper, .events, .online, .time, .ply, .brake, .viol, .skein] s (State.countDigests s) := by
  unfold State.countDigests
  with_reducible repeat' first
    | assumption
    | (extract_lets +onlyGivenNames z
       refine RegsIn.let z ?_ ?_
       subst z
       rotate_left
       clear_value z
       revert z
       intro y hy
       rotate_left)
    | (extract_lets +onlyGivenNames z; clear_value z; revert z; intro y)
    | exact RegsIn.rfl
    | refine RegsIn.ite ?_ ?_ <;> intro hc
    | apply RegsIn.next ?_ (State.leaveTracking_in _ _) ?_
    | refine RegsIn.upd ?_
    | decide
    | exact Fin.isLt _
    | omega
    | dsimp -zeta only

theorem State.noteSplit_in (s : State) (a1 : Nat) :
    RegsIn [.events, .brake, .viol] s (State.noteSplit s a1) := by
  unfold State.noteSplit
  with_reducible repeat' first
    | assumption
    | (extract_lets +onlyGivenNames z
       refine RegsIn.let z ?_ ?_
       subst z
       rotate_left
       clear_value z
       revert z
       intro y hy
       rotate_left)
    | (extract_lets +onlyGivenNames z; clear_value z; revert z; intro y)
    | exact RegsIn.rfl
    | refine RegsIn.ite ?_ ?_ <;> intro hc
    | refine RegsIn.inc F.BRK_SPLIT_count .brake ?_ (of_decide_eq_true rfl) (of_decide_eq_true rfl) (of_decide_eq_true rfl) (of_decide_eq_true rfl)
    | apply RegsIn.next ?_ (State.brkEvt_in _ _) ?_
    | split
    | refine RegsIn.upd ?_
    | decide
    | exact Fin.isLt _
    | omega
    | dsimp -zeta only

theorem State.carryRegs_in (s : State) (a1 : Nat) (a2 : Nat × Nat × Nat × Nat) (a3 : Nat) (h0 : a1 < 16) :
    RegsIn [.online] s (State.carryRegs s a1 a2 a3) := by
  unfold State.carryRegs
  with_reducible repeat' first
    | assumption
    | (extract_lets +onlyGivenNames z
       refine RegsIn.let z ?_ ?_
       subst z
       rotate_left
       clear_value z
       revert z
       intro y hy
       rotate_left)
    | exact RegsIn.rfl
    | refine RegsIn.wr (F.ONLINE_CARRY_carried _) _ .online ?_ (of_decide_eq_true rfl) (of_decide_eq_true rfl) (by simp only [F.ONLINE_CARRY_carried, Bank.range]; omega) (by simp only [F.ONLINE_CARRY_carried, Bank.range]; omega)
    | refine RegsIn.wr (F.ONLINE_CARRY_changed _) _ .online ?_ (of_decide_eq_true rfl) (of_decide_eq_true rfl) (by simp only [F.ONLINE_CARRY_changed, Bank.range]; omega) (by simp only [F.ONLINE_CARRY_changed, Bank.range]; omega)
    | refine RegsIn.wr (F.ONLINE_CARRY_dropped _) _ .online ?_ (of_decide_eq_true rfl) (of_decide_eq_true rfl) (by simp only [F.ONLINE_CARRY_dropped, Bank.range]; omega) (by simp only [F.ONLINE_CARRY_dropped, Bank.range]; omega)
    | refine RegsIn.wr (F.ONLINE_CARRY_new _) _ .online ?_ (of_decide_eq_true rfl) (of_decide_eq_true rfl) (by simp only [F.ONLINE_CARRY_new, Bank.range]; omega) (by simp only [F.ONLINE_CARRY_new, Bank.range]; omega)
    | refine RegsIn.wr (F.ONLINE_CARRY_valid _) _ .online ?_ (of_decide_eq_true rfl) (of_decide_eq_true rfl) (by simp only [F.ONLINE_CARRY_valid, Bank.range]; omega) (by simp only [F.ONLINE_CARRY_valid, Bank.range]; omega)
    | refine RegsIn.wr (F.ONLINE_WORDS_words _) _ .online ?_ (of_decide_eq_true rfl) (of_decide_eq_true rfl) (by simp only [F.ONLINE_WORDS_words, Bank.range]; omega) (by simp only [F.ONLINE_WORDS_words, Bank.range]; omega)
    | decide
    | exact Fin.isLt _
    | omega
    | dsimp -zeta only

theorem State.carryDone_in (s : State) (a1 : Nat) :
    RegsIn [.online] s (State.carryDone s a1) := by
  unfold State.carryDone
  with_reducible repeat' first
    | assumption
    | (extract_lets +onlyGivenNames z
       refine RegsIn.let z ?_ ?_
       subst z
       rotate_left
       clear_value z
       revert z
       intro y hy
       rotate_left)
    | (extract_lets +onlyGivenNames z; clear_value z; revert z; intro y)
    | exact RegsIn.rfl
    | refine RegsIn.ite ?_ ?_ <;> intro hc
    | refine RegsIn.wr F.ONLINE_PENDING_pending _ .online ?_ (of_decide_eq_true rfl) (of_decide_eq_true rfl) (of_decide_eq_true rfl) (of_decide_eq_true rfl)
    | refine RegsIn.wr F.ONLINE_STATUS_state _ .online ?_ (of_decide_eq_true rfl) (of_decide_eq_true rfl) (of_decide_eq_true rfl) (of_decide_eq_true rfl)
    | decide
    | exact Fin.isLt _
    | omega
    | dsimp -zeta only

theorem State.endCarry_in (s : State) (a1 : Nat) (a2 : TaskInst) (a3 : List Nat) (h0 : a1 < 16) :
    RegsIn [.events, .task, .trap, .online, .viol] s (State.endCarry s a1 a2 a3) := by
  unfold State.endCarry
  with_reducible repeat' first
    | assumption
    | (extract_lets +onlyGivenNames z
       refine RegsIn.let z ?_ ?_
       subst z
       rotate_left
       clear_value z
       revert z
       intro y hy
       rotate_left)
    | (extract_lets +onlyGivenNames z; clear_value z; revert z; intro y)
    | exact RegsIn.rfl
    | refine RegsIn.ite ?_ ?_ <;> intro hc
    | apply RegsIn.next ?_ (State.setTask_in _ _ _) ?_
    | apply RegsIn.next ?_ (State.captureFull_in _) ?_
    | apply RegsIn.next ?_ (State.saveTask_in _ _ _ _) ?_
    | apply RegsIn.next ?_ (State.carryRegs_in _ _ _ _ ?_) ?_
    | apply RegsIn.next ?_ (State.carryDone_in _ _) ?_
    | apply RegsIn.next ?_ (State.trapInst_in _ _ _ ?_) ?_
    | apply RegsIn.next ?_ (State.beginCopy_in _ _ _) ?_
    | refine RegsIn.upd ?_
    | decide
    | exact Fin.isLt _
    | omega
    | dsimp -zeta only

theorem execOnlineCarry_in (a0 : Fin 16) (a1 : List (Fin 65536)) (s : State) :
    RegsIn [] s (settle s (execOnlineCarry a0 a1 s)) := by
  unfold execOnlineCarry
  with_reducible repeat' first
    | assumption
    | (extract_lets +onlyGivenNames z; clear_value z; revert z; intro y)
    | exact RegsIn.rfl
    | refine RegsIn.ok ?_
    | apply RegsIn.next ?_ (State.setInst_in _ _ _) ?_
    | split
    | decide
    | exact Fin.isLt _
    | omega
    | dsimp -zeta only

theorem execOnlineCarryDone_in (a0 : Fin 16) (s : State) :
    RegsIn [.events, .task, .trap, .online, .viol] s (settle s (execOnlineCarryDone a0 s)) := by
  unfold execOnlineCarryDone
  with_reducible repeat' first
    | assumption
    | exact RegsIn.rfl
    | refine RegsIn.ok ?_
    | apply RegsIn.next ?_ (State.endCarry_in _ _ _ _ ?_) ?_
    | split
    | decide
    | exact Fin.isLt _
    | omega
    | dsimp -zeta only

theorem State.restoreTask_in (s : State) (a1 : Nat) (h0 : a1 < 16) :
    RegsIn [.events, .retain, .task, .viol] s (State.restoreTask s a1) := by
  unfold State.restoreTask
  with_reducible repeat' first
    | assumption
    | (extract_lets +onlyGivenNames z; clear_value z; revert z; intro y)
    | exact RegsIn.rfl
    | refine RegsIn.ite ?_ ?_ <;> intro hc
    | refine RegsIn.wr F.RETAIN_STATUS_flush_err _ .retain ?_ (of_decide_eq_true rfl) (of_decide_eq_true rfl) (of_decide_eq_true rfl) (of_decide_eq_true rfl)
    | apply RegsIn.next ?_ (State.setTask_in _ _ _) ?_
    | apply RegsIn.next ?_ (State.taskEvt_in _ _ _ ?_) ?_
    | split
    | decide
    | exact Fin.isLt _
    | omega
    | dsimp -zeta only

theorem State.restoreRetained_in (s : State) :
    RegsIn [.events, .retain, .task, .viol] s (State.restoreRetained s) := by
  unfold State.restoreRetained
  with_reducible repeat' first
    | assumption
    | (extract_lets +onlyGivenNames z
       refine RegsIn.let z ?_ ?_
       subst z
       rotate_left
       clear_value z
       revert z
       intro y hy
       rotate_left)
    | (extract_lets +onlyGivenNames z; clear_value z; revert z; intro y)
    | exact RegsIn.rfl
    | refine RegsIn.ite ?_ ?_ <;> intro hc
    | (refine RegsIn.upTo _ _ ?_ ?_; rotate_left; intro y a ha hy; rotate_left)
    | (refine RegsIn.bitsSet _ _ _ ?_ ?_; rotate_left; intro y a ha hy; rotate_left)
    | (refine RegsIn.foldl _ _ ?_ ?_; rotate_left; intro y a ha hy; rotate_left)
    | apply RegsIn.next ?_ (State.restoreTask_in _ _ ?_) ?_
    | refine RegsIn.upd ?_
    | decide
    | exact Fin.isLt _
    | omega
    | dsimp -zeta only

theorem State.tryTakeover_in (s : State) (a1 : Nat) :
    RegsIn [.hopper, .events, .run, .task, .online, .time, .ply, .brake, .mill, .viol, .skein] s (State.tryTakeover s a1) := by
  unfold State.tryTakeover
  split
  · rename_i t h
    exact (State.overrunStop_in _ t _ _ (upTo_lt (List.mem_of_find?_eq_some h))).mono (by decide)
  · exact (State.takeover_in _ _).mono (by decide)

theorem State.judgePartner_in (s : State) :
    RegsIn [.hopper, .events, .run, .task, .online, .time, .ply, .brake, .mill, .viol, .skein] s (State.judgePartner s) := by
  unfold State.judgePartner
  with_reducible repeat' first
    | assumption
    | (extract_lets +onlyGivenNames z
       refine RegsIn.let z ?_ ?_
       subst z
       rotate_left
       clear_value z
       revert z
       intro y hy
       rotate_left)
    | (extract_lets +onlyGivenNames z; clear_value z; revert z; intro y)
    | exact RegsIn.rfl
    | refine RegsIn.ite ?_ ?_ <;> intro hc
    | apply RegsIn.next ?_ (State.tryTakeover_in _ _) ?_
    | apply RegsIn.next ?_ (State.leaveTracking_in _ _) ?_
    | split
    | refine RegsIn.upd ?_
    | decide
    | exact Fin.isLt _
    | omega
    | dsimp -zeta only

theorem State.loneIfLost_in (s : State) :
    RegsIn [.hopper, .events, .online, .time, .ply, .brake, .viol, .skein] s (State.loneIfLost s) := by
  unfold State.loneIfLost
  with_reducible repeat' first
    | assumption
    | exact RegsIn.rfl
    | refine RegsIn.ite ?_ ?_ <;> intro hc
    | apply RegsIn.next ?_ (State.plyEvt_in _ _ ?_) ?_
    | apply RegsIn.next ?_ (State.setPlyState_in _ _) ?_
    | decide
    | exact Fin.isLt _
    | omega
    | dsimp -zeta only

theorem State.becomeLone_in (s : State) :
    RegsIn [.hopper, .events, .retain, .task, .online, .time, .ply, .brake, .mill, .viol, .skein] s (State.becomeLone s) := by
  unfold State.becomeLone
  with_reducible repeat' first
    | assumption
    | (extract_lets +onlyGivenNames z
       refine RegsIn.let z ?_ ?_
       subst z
       rotate_left
       clear_value z
       revert z
       intro y hy
       rotate_left)
    | (extract_lets +onlyGivenNames z; clear_value z; revert z; intro y)
    | exact RegsIn.rfl
    | refine RegsIn.ite ?_ ?_ <;> intro hc
    | refine RegsIn.wr F.PLY_EPOCH_epoch _ .ply ?_ (of_decide_eq_true rfl) (of_decide_eq_true rfl) (of_decide_eq_true rfl) (of_decide_eq_true rfl)
    | refine RegsIn.wr F.PLY_REASON_takeover _ .ply ?_ (of_decide_eq_true rfl) (of_decide_eq_true rfl) (of_decide_eq_true rfl) (of_decide_eq_true rfl)
    | apply RegsIn.next ?_ (State.row19_in _) ?_
    | apply RegsIn.next ?_ (State.setPlyState_in _ _) ?_
    | apply RegsIn.next ?_ (State.queueHeartbeat_in _) ?_
    | apply RegsIn.next ?_ (State.setMuted_in _ _) ?_
    | apply RegsIn.next ?_ (State.restoreRetained_in _) ?_
    | refine RegsIn.upd ?_
    | decide
    | exact Fin.isLt _
    | omega
    | dsimp -zeta only

theorem State.sendJoin_in (s : State) :
    RegsIn [] s (State.sendJoin s) := by
  unfold State.sendJoin
  with_reducible repeat' first
    | assumption
    | (extract_lets +onlyGivenNames z; clear_value z; revert z; intro y)
    | exact RegsIn.rfl
    | refine RegsIn.ite ?_ ?_ <;> intro hc
    | apply RegsIn.next ?_ (State.sendPly_in _ _ _ _) ?_
    | decide
    | exact Fin.isLt _
    | omega
    | dsimp -zeta only

theorem State.beginJoin_in (s : State) :
    RegsIn [.hopper, .events, .online, .time, .ply, .brake, .viol, .skein] s (State.beginJoin s) := by
  unfold State.beginJoin
  with_reducible repeat' first
    | assumption
    | (extract_lets +onlyGivenNames z
       refine RegsIn.let z ?_ ?_
       subst z
       rotate_left
       clear_value z
       revert z
       intro y hy
       rotate_left)
    | (extract_lets +onlyGivenNames z; clear_value z; revert z; intro y)
    | exact RegsIn.rfl
    | refine RegsIn.wr F.PLY_JOIN_attempts _ .ply ?_ (of_decide_eq_true rfl) (of_decide_eq_true rfl) (of_decide_eq_true rfl) (of_decide_eq_true rfl)
    | refine RegsIn.inc F.PLY_JOIN_attempts .ply ?_ (of_decide_eq_true rfl) (of_decide_eq_true rfl) (of_decide_eq_true rfl) (of_decide_eq_true rfl)
    | refine RegsIn.wr F.PLY_JOIN_backlog _ .ply ?_ (of_decide_eq_true rfl) (of_decide_eq_true rfl) (of_decide_eq_true rfl) (of_decide_eq_true rfl)
    | refine RegsIn.inc F.PLY_JOIN_backlog .ply ?_ (of_decide_eq_true rfl) (of_decide_eq_true rfl) (of_decide_eq_true rfl) (of_decide_eq_true rfl)
    | refine RegsIn.wr F.PLY_JOIN_phase _ .ply ?_ (of_decide_eq_true rfl) (of_decide_eq_true rfl) (of_decide_eq_true rfl) (of_decide_eq_true rfl)
    | refine RegsIn.inc F.PLY_JOIN_phase .ply ?_ (of_decide_eq_true rfl) (of_decide_eq_true rfl) (of_decide_eq_true rfl) (of_decide_eq_true rfl)
    | apply RegsIn.next ?_ (State.setPlyState_in _ _) ?_
    | apply RegsIn.next ?_ (State.sendJoin_in _) ?_
    | refine RegsIn.upd ?_
    | decide
    | exact Fin.isLt _
    | omega
    | dsimp -zeta only

theorem State.failJoin_in (s : State) (a1 : Nat) :
    RegsIn [.hopper, .events, .online, .time, .ply, .brake, .viol, .skein] s (State.failJoin s a1) := by
  unfold State.failJoin
  with_reducible repeat' first
    | assumption
    | (extract_lets +onlyGivenNames z
       refine RegsIn.let z ?_ ?_
       subst z
       rotate_left
       clear_value z
       revert z
       intro y hy
       rotate_left)
    | exact RegsIn.rfl
    | refine RegsIn.ite ?_ ?_ <;> intro hc
    | refine RegsIn.wr F.PLY_JOIN_fail _ .ply ?_ (of_decide_eq_true rfl) (of_decide_eq_true rfl) (of_decide_eq_true rfl) (of_decide_eq_true rfl)
    | refine RegsIn.wr F.PLY_JOIN_phase _ .ply ?_ (of_decide_eq_true rfl) (of_decide_eq_true rfl) (of_decide_eq_true rfl) (of_decide_eq_true rfl)
    | refine RegsIn.wr F.PLY_REASON_untracked _ .ply ?_ (of_decide_eq_true rfl) (of_decide_eq_true rfl) (of_decide_eq_true rfl) (of_decide_eq_true rfl)
    | apply RegsIn.next ?_ (State.plyEvt_in _ _ ?_) ?_
    | apply RegsIn.next ?_ (State.setPlyState_in _ _) ?_
    | decide
    | exact Fin.isLt _
    | omega
    | dsimp -zeta only

theorem State.decideRole_in (s : State) :
    RegsIn [.hopper, .events, .retain, .task, .online, .time, .ply, .brake, .mill, .viol, .skein] s (State.decideRole s) := by
  unfold State.decideRole
  with_reducible repeat' first
    | assumption
    | exact RegsIn.rfl
    | refine RegsIn.ite ?_ ?_ <;> intro hc
    | apply RegsIn.next ?_ (State.beginJoin_in _) ?_
    | apply RegsIn.next ?_ (State.becomeLone_in _) ?_
    | split
    | decide
    | exact Fin.isLt _
    | omega
    | dsimp -zeta only

end Sys2Proof.Machine
end

