-- ==== Sys2Proof/Laws/BanksTwist.lean ====
section
/-! SUPPORT. The banks of registers that an instruction of Twist code writes. -/

namespace Sys2Proof.Machine

set_option linter.all false

theorem State.fetchWord_in (s : State) (a1 : Nat) (a2 : Nat) (a3 : TaskInst) (a4 : Strand) :
    RegsIn [.events, .viol] s (State.fetchWord s a1 a2 a3 a4).1 := by
  unfold State.fetchWord
  with_reducible repeat' first
    | assumption
    | (extract_lets +onlyGivenNames z; clear_value z; revert z; intro y)
    | exact RegsIn.rfl
    | (rename (_ : State × _) = _ => heq
       refine RegsIn.pair heq ?_ ?_ <;> clear heq
       rotate_left
       intro hy
       rotate_left)
    | apply RegsIn.next ?_ (State.acAccess_in _ _ _ _ _ _ ?_) ?_
    | decide
    | exact Fin.isLt _
    | omega
    | dsimp -zeta only

theorem State.trapStrand_in (s : State) (a1 : Nat) (a2 : Nat) (a3 : Nat) (a4 : Nat) (a5 : Strand) (h0 : a1 < 16) :
    RegsIn [.events, .task, .trap, .viol] s (State.trapStrand s a1 a2 a3 a4 a5) := by
  unfold State.trapStrand
  with_reducible repeat' first
    | assumption
    | exact RegsIn.rfl
    | apply RegsIn.next ?_ (State.trapInst_in _ _ _ ?_) ?_
    | decide
    | exact Fin.isLt _
    | omega
    | dsimp -zeta only

theorem State.putStrand_in (s : State) (a1 : Nat) (a2 : Nat) (a3 : TaskInst) (a4 : Strand) :
    RegsIn [] s (State.putStrand s a1 a2 a3 a4) := by
  unfold State.putStrand
  with_reducible repeat' first
    | assumption
    | exact RegsIn.rfl
    | apply RegsIn.next ?_ (State.setInst_in _ _ _) ?_
    | decide
    | exact Fin.isLt _
    | omega
    | dsimp -zeta only

theorem RegsIn.twistIf {A : List Bank} {s : State} (t : Fin 16) (j : Fin 8) (fits : Nat → Bool)
    (f : State → TaskInst → Strand → State) (hA : ∀ b ∈ [Bank.events, Bank.task, Bank.trap, Bank.viol], b ∈ A)
    (h : ∀ u i x, RegsIn A s u → RegsIn A s (f u i x)) : RegsIn A s (s.twistIf t j fits f) := by
  unfold State.twistIf
  split
  · exact RegsIn.rfl
  · rename_i i x _
    have g := (State.fetchWord_in s t.val j.val i x).mono (A := A) (fun b hb => hA b (by revert b; decide))
    refine RegsIn.ite (fun _ => RegsIn.rfl) (fun _ => RegsIn.ite (fun _ => h _ _ _ g) (fun _ => ?_))
    exact RegsIn.next g (State.trapStrand_in _ _ _ _ _ _ t.isLt) hA

theorem RegsIn.twist {A : List Bank} {s : State} (t : Fin 16) (j : Fin 8) (w : Nat) (f : State → TaskInst → Strand → State)
    (hA : ∀ b ∈ [Bank.events, Bank.task, Bank.trap, Bank.viol], b ∈ A)
    (h : ∀ u i x, RegsIn A s u → RegsIn A s (f u i x)) : RegsIn A s (s.twist t j w f) :=
  RegsIn.twistIf _ _ _ _ hA h

theorem State.alu_in (s : State) (a1 : Fin 16) (a2 : Fin 8) (a3 : Nat) (a4 : Bool) (a5 : Strand → Strand) :
    RegsIn [.hopper, .events, .fault, .wdog, .task, .trap, .online, .time, .ply, .brake, .mill, .viol, .log, .skein] s (State.alu s a1 a2 a3 a4 a5) := by
  unfold State.alu
  with_reducible repeat' first
    | assumption
    | exact RegsIn.rfl
    | refine RegsIn.ite ?_ ?_ <;> intro hc
    | apply RegsIn.next ?_ (State.selfFault_in _ _ _ _) ?_
    | apply RegsIn.next ?_ (State.putStrand_in _ _ _ _ _) ?_
    | (refine RegsIn.twist _ _ _ _ (by decide) ?_; intro u i x hu; try dsimp -zeta only)
    | decide
    | exact Fin.isLt _
    | omega
    | dsimp -zeta only

theorem State.aluTrap_in (s : State) (a1 : Fin 16) (a2 : Fin 8) (a3 : Nat) (a4 : Bool) (a5 : Strand → Option Nat) (a6 : Strand → Strand) :
    RegsIn [.hopper, .events, .fault, .wdog, .task, .trap, .online, .time, .ply, .brake, .mill, .viol, .log, .skein] s (State.aluTrap s a1 a2 a3 a4 a5 a6) := by
  unfold State.aluTrap
  with_reducible repeat' first
    | assumption
    | exact RegsIn.rfl
    | refine RegsIn.ite ?_ ?_ <;> intro hc
    | apply RegsIn.next ?_ (State.trapStrand_in _ _ _ _ _ _ ?_) ?_
    | apply RegsIn.next ?_ (State.selfFault_in _ _ _ _) ?_
    | apply RegsIn.next ?_ (State.putStrand_in _ _ _ _ _) ?_
    | (refine RegsIn.twist _ _ _ _ (by decide) ?_; intro u i x hu; try dsimp -zeta only)
    | split
    | decide
    | exact Fin.isLt _
    | omega
    | dsimp -zeta only

theorem State.slotRead_in (s : State) (a1 : Fin 16) (a2 : Fin 8) (a3 : Nat) (a4 : Nat) (a5 : Nat) (a6 : Bool) (a7 : Strand → Entry → Strand) :
    RegsIn [.events, .task, .trap, .viol] s (State.slotRead s a1 a2 a3 a4 a5 a6 a7) := by
  unfold State.slotRead
  with_reducible repeat' first
    | assumption
    | (extract_lets +onlyGivenNames z; clear_value z; revert z; intro y)
    | exact RegsIn.rfl
    | refine RegsIn.ite ?_ ?_ <;> intro hc
    | apply RegsIn.next ?_ (State.trapStrand_in _ _ _ _ _ _ ?_) ?_
    | apply RegsIn.next ?_ (State.putStrand_in _ _ _ _ _) ?_
    | (refine RegsIn.twist _ _ _ _ (by decide) ?_; intro u i x hu; try dsimp -zeta only)
    | split
    | decide
    | exact Fin.isLt _
    | omega
    | dsimp -zeta only

theorem State.dataAccess_in (s : State) (a1 : Nat) (a2 : Nat) (a3 : Nat) (a4 : Nat) (a5 : Nat) (a6 : TaskInst) :
    RegsIn [.events, .viol] s (State.dataAccess s a1 a2 a3 a4 a5 a6).1 := by
  unfold State.dataAccess
  with_reducible repeat' first
    | assumption
    | exact RegsIn.rfl
    | (rename (_ : State × _) = _ => heq
       refine RegsIn.pair heq ?_ ?_ <;> clear heq
       rotate_left
       intro hy
       rotate_left)
    | apply RegsIn.next ?_ (State.acAccess_in _ _ _ _ _ _ ?_) ?_
    | decide
    | exact Fin.isLt _
    | omega
    | dsimp -zeta only

theorem execTwAdd_in (a0 : Fin 16) (a1 : Fin 8) (a2 : Fin 32) (a3 : Fin 32) (a4 : Fin 32) (a5 : Bool) (s : State) :
    RegsIn [.hopper, .events, .fault, .wdog, .task, .trap, .online, .time, .ply, .brake, .mill, .viol, .log, .skein] s (settle s (execTwAdd a0 a1 a2 a3 a4 a5 s)) := by
  unfold execTwAdd
  with_reducible repeat' first
    | assumption
    | (extract_lets +onlyGivenNames z; clear_value z; revert z; intro y)
    | exact RegsIn.rfl
    | refine RegsIn.ok ?_
    | apply RegsIn.next ?_ (State.alu_in _ _ _ _ _ _) ?_
    | decide
    | exact Fin.isLt _
    | omega
    | dsimp -zeta only

theorem execTwSub_in (a0 : Fin 16) (a1 : Fin 8) (a2 : Fin 32) (a3 : Fin 32) (a4 : Fin 32) (a5 : Bool) (s : State) :
    RegsIn [.hopper, .events, .fault, .wdog, .task, .trap, .online, .time, .ply, .brake, .mill, .viol, .log, .skein] s (settle s (execTwSub a0 a1 a2 a3 a4 a5 s)) := by
  unfold execTwSub
  with_reducible repeat' first
    | assumption
    | (extract_lets +onlyGivenNames z; clear_value z; revert z; intro y)
    | exact RegsIn.rfl
    | refine RegsIn.ok ?_
    | apply RegsIn.next ?_ (State.alu_in _ _ _ _ _ _) ?_
    | decide
    | exact Fin.isLt _
    | omega
    | dsimp -zeta only

theorem execTwAdds_in (a0 : Fin 16) (a1 : Fin 8) (a2 : Fin 32) (a3 : Fin 32) (a4 : Fin 32) (a5 : Bool) (s : State) :
    RegsIn [.hopper, .events, .fault, .wdog, .task, .trap, .online, .time, .ply, .brake, .mill, .viol, .log, .skein] s (settle s (execTwAdds a0 a1 a2 a3 a4 a5 s)) := by
  unfold execTwAdds
  with_reducible repeat' first
    | assumption
    | exact RegsIn.rfl
    | refine RegsIn.ok ?_
    | apply RegsIn.next ?_ (State.alu_in _ _ _ _ _ _) ?_
    | decide
    | exact Fin.isLt _
    | omega
    | dsimp -zeta only

theorem execTwSubs_in (a0 : Fin 16) (a1 : Fin 8) (a2 : Fin 32) (a3 : Fin 32) (a4 : Fin 32) (a5 : Bool) (s : State) :
    RegsIn [.hopper, .events, .fault, .wdog, .task, .trap, .online, .time, .ply, .brake, .mill, .viol, .log, .skein] s (settle s (execTwSubs a0 a1 a2 a3 a4 a5 s)) := by
  unfold execTwSubs
  with_reducible repeat' first
    | assumption
    | exact RegsIn.rfl
    | refine RegsIn.ok ?_
    | apply RegsIn.next ?_ (State.alu_in _ _ _ _ _ _) ?_
    | decide
    | exact Fin.isLt _
    | omega
    | dsimp -zeta only

theorem execTwAnd_in (a0 : Fin 16) (a1 : Fin 8) (a2 : Fin 32) (a3 : Fin 32) (a4 : Fin 32) (s : State) :
    RegsIn [.hopper, .events, .fault, .wdog, .task, .trap, .online, .time, .ply, .brake, .mill, .viol, .log, .skein] s (settle s (execTwAnd a0 a1 a2 a3 a4 s)) := by
  unfold execTwAnd
  with_reducible repeat' first
    | assumption
    | exact RegsIn.rfl
    | refine RegsIn.ok ?_
    | apply RegsIn.next ?_ (State.alu_in _ _ _ _ _ _) ?_
    | decide
    | exact Fin.isLt _
    | omega
    | dsimp -zeta only

theorem execTwOr_in (a0 : Fin 16) (a1 : Fin 8) (a2 : Fin 32) (a3 : Fin 32) (a4 : Fin 32) (s : State) :
    RegsIn [.hopper, .events, .fault, .wdog, .task, .trap, .online, .time, .ply, .brake, .mill, .viol, .log, .skein] s (settle s (execTwOr a0 a1 a2 a3 a4 s)) := by
  unfold execTwOr
  with_reducible repeat' first
    | assumption
    | exact RegsIn.rfl
    | refine RegsIn.ok ?_
    | apply RegsIn.next ?_ (State.alu_in _ _ _ _ _ _) ?_
    | decide
    | exact Fin.isLt _
    | omega
    | dsimp -zeta only

theorem execTwXor_in (a0 : Fin 16) (a1 : Fin 8) (a2 : Fin 32) (a3 : Fin 32) (a4 : Fin 32) (s : State) :
    RegsIn [.hopper, .events, .fault, .wdog, .task, .trap, .online, .time, .ply, .brake, .mill, .viol, .log, .skein] s (settle s (execTwXor a0 a1 a2 a3 a4 s)) := by
  unfold execTwXor
  with_reducible repeat' first
    | assumption
    | exact RegsIn.rfl
    | refine RegsIn.ok ?_
    | apply RegsIn.next ?_ (State.alu_in _ _ _ _ _ _) ?_
    | decide
    | exact Fin.isLt _
    | omega
    | dsimp -zeta only

theorem execTwAndn_in (a0 : Fin 16) (a1 : Fin 8) (a2 : Fin 32) (a3 : Fin 32) (a4 : Fin 32) (s : State) :
    RegsIn [.hopper, .events, .fault, .wdog, .task, .trap, .online, .time, .ply, .brake, .mill, .viol, .log, .skein] s (settle s (execTwAndn a0 a1 a2 a3 a4 s)) := by
  unfold execTwAndn
  with_reducible repeat' first
    | assumption
    | exact RegsIn.rfl
    | refine RegsIn.ok ?_
    | apply RegsIn.next ?_ (State.alu_in _ _ _ _ _ _) ?_
    | decide
    | exact Fin.isLt _
    | omega
    | dsimp -zeta only

theorem execTwMin_in (a0 : Fin 16) (a1 : Fin 8) (a2 : Fin 32) (a3 : Fin 32) (a4 : Fin 32) (s : State) :
    RegsIn [.hopper, .events, .fault, .wdog, .task, .trap, .online, .time, .ply, .brake, .mill, .viol, .log, .skein] s (settle s (execTwMin a0 a1 a2 a3 a4 s)) := by
  unfold execTwMin
  with_reducible repeat' first
    | assumption
    | exact RegsIn.rfl
    | refine RegsIn.iteO ?_ ?_ <;> intro hc
    | refine RegsIn.ite ?_ ?_ <;> intro hc
    | refine RegsIn.ok ?_
    | apply RegsIn.next ?_ (State.alu_in _ _ _ _ _ _) ?_
    | decide
    | exact Fin.isLt _
    | omega
    | dsimp -zeta only

theorem execTwMax_in (a0 : Fin 16) (a1 : Fin 8) (a2 : Fin 32) (a3 : Fin 32) (a4 : Fin 32) (s : State) :
    RegsIn [.hopper, .events, .fault, .wdog, .task, .trap, .online, .time, .ply, .brake, .mill, .viol, .log, .skein] s (settle s (execTwMax a0 a1 a2 a3 a4 s)) := by
  unfold execTwMax
  with_reducible repeat' first
    | assumption
    | exact RegsIn.rfl
    | refine RegsIn.iteO ?_ ?_ <;> intro hc
    | refine RegsIn.ite ?_ ?_ <;> intro hc
    | refine RegsIn.ok ?_
    | apply RegsIn.next ?_ (State.alu_in _ _ _ _ _ _) ?_
    | decide
    | exact Fin.isLt _
    | omega
    | dsimp -zeta only

theorem execTwShl_in (a0 : Fin 16) (a1 : Fin 8) (a2 : Fin 32) (a3 : Fin 32) (a4 : Fin 32) (a5 : Bool) (s : State) :
    RegsIn [.hopper, .events, .fault, .wdog, .task, .trap, .online, .time, .ply, .brake, .mill, .viol, .log, .skein] s (settle s (execTwShl a0 a1 a2 a3 a4 a5 s)) := by
  unfold execTwShl
  with_reducible repeat' first
    | assumption
    | exact RegsIn.rfl
    | refine RegsIn.ok ?_
    | apply RegsIn.next ?_ (State.alu_in _ _ _ _ _ _) ?_
    | decide
    | exact Fin.isLt _
    | omega
    | dsimp -zeta only

theorem execTwShr_in (a0 : Fin 16) (a1 : Fin 8) (a2 : Fin 32) (a3 : Fin 32) (a4 : Fin 32) (s : State) :
    RegsIn [.hopper, .events, .fault, .wdog, .task, .trap, .online, .time, .ply, .brake, .mill, .viol, .log, .skein] s (settle s (execTwShr a0 a1 a2 a3 a4 s)) := by
  unfold execTwShr
  with_reducible repeat' first
    | assumption
    | exact RegsIn.rfl
    | refine RegsIn.ok ?_
    | apply RegsIn.next ?_ (State.alu_in _ _ _ _ _ _) ?_
    | decide
    | exact Fin.isLt _
    | omega
    | dsimp -zeta only

theorem execTwSar_in (a0 : Fin 16) (a1 : Fin 8) (a2 : Fin 32) (a3 : Fin 32) (a4 : Fin 32) (s : State) :
    RegsIn [.hopper, .events, .fault, .wdog, .task, .trap, .online, .time, .ply, .brake, .mill, .viol, .log, .skein] s (settle s (execTwSar a0 a1 a2 a3 a4 s)) := by
  unfold execTwSar
  with_reducible repeat' first
    | assumption
    | exact RegsIn.rfl
    | refine RegsIn.ok ?_
    | apply RegsIn.next ?_ (State.alu_in _ _ _ _ _ _) ?_
    | decide
    | exact Fin.isLt _
    | omega
    | dsimp -zeta only

theorem execTwCmp_in (a0 : Fin 16) (a1 : Fin 8) (a2 : Fin 32) (a3 : Fin 32) (a4 : Bool) (s : State) :
    RegsIn [.hopper, .events, .fault, .wdog, .task, .trap, .online, .time, .ply, .brake, .mill, .viol, .log, .skein] s (settle s (execTwCmp a0 a1 a2 a3 a4 s)) := by
  unfold execTwCmp
  with_reducible repeat' first
    | assumption
    | exact RegsIn.rfl
    | refine RegsIn.ok ?_
    | apply RegsIn.next ?_ (State.alu_in _ _ _ _ _ _) ?_
    | decide
    | exact Fin.isLt _
    | omega
    | dsimp -zeta only

theorem execTwAbs_in (a0 : Fin 16) (a1 : Fin 8) (a2 : Fin 32) (a3 : Fin 32) (a4 : Bool) (s : State) :
    RegsIn [.hopper, .events, .fault, .wdog, .task, .trap, .online, .time, .ply, .brake, .mill, .viol, .log, .skein] s (settle s (execTwAbs a0 a1 a2 a3 a4 s)) := by
  unfold execTwAbs
  with_reducible repeat' first
    | assumption
    | exact RegsIn.rfl
    | refine RegsIn.ok ?_
    | apply RegsIn.next ?_ (State.alu_in _ _ _ _ _ _) ?_
    | decide
    | exact Fin.isLt _
    | omega
    | dsimp -zeta only

theorem execTwNeg_in (a0 : Fin 16) (a1 : Fin 8) (a2 : Fin 32) (a3 : Fin 32) (a4 : Bool) (s : State) :
    RegsIn [.hopper, .events, .fault, .wdog, .task, .trap, .online, .time, .ply, .brake, .mill, .viol, .log, .skein] s (settle s (execTwNeg a0 a1 a2 a3 a4 s)) := by
  unfold execTwNeg
  with_reducible repeat' first
    | assumption
    | exact RegsIn.rfl
    | refine RegsIn.ok ?_
    | apply RegsIn.next ?_ (State.alu_in _ _ _ _ _ _) ?_
    | decide
    | exact Fin.isLt _
    | omega
    | dsimp -zeta only

theorem execTwMul_in (a0 : Fin 16) (a1 : Fin 8) (a2 : Fin 32) (a3 : Fin 32) (a4 : Fin 32) (a5 : Bool) (s : State) :
    RegsIn [.hopper, .events, .fault, .wdog, .task, .trap, .online, .time, .ply, .brake, .mill, .viol, .log, .skein] s (settle s (execTwMul a0 a1 a2 a3 a4 a5 s)) := by
  unfold execTwMul
  with_reducible repeat' first
    | assumption
    | (extract_lets +onlyGivenNames z; clear_value z; revert z; intro y)
    | exact RegsIn.rfl
    | refine RegsIn.ok ?_
    | apply RegsIn.next ?_ (State.alu_in _ _ _ _ _ _) ?_
    | decide
    | exact Fin.isLt _
    | omega
    | dsimp -zeta only

theorem execTwMulq_in (a0 : Fin 16) (a1 : Fin 8) (a2 : Fin 32) (a3 : Fin 32) (a4 : Fin 32) (a5 : Bool) (s : State) :
    RegsIn [.hopper, .events, .fault, .wdog, .task, .trap, .online, .time, .ply, .brake, .mill, .viol, .log, .skein] s (settle s (execTwMulq a0 a1 a2 a3 a4 a5 s)) := by
  unfold execTwMulq
  with_reducible repeat' first
    | assumption
    | (extract_lets +onlyGivenNames z; clear_value z; revert z; intro y)
    | exact RegsIn.rfl
    | refine RegsIn.ok ?_
    | apply RegsIn.next ?_ (State.alu_in _ _ _ _ _ _) ?_
    | decide
    | exact Fin.isLt _
    | omega
    | dsimp -zeta only

theorem execTwDiv_in (a0 : Fin 16) (a1 : Fin 8) (a2 : Fin 32) (a3 : Fin 32) (a4 : Fin 32) (a5 : Bool) (s : State) :
    RegsIn [.hopper, .events, .fault, .wdog, .task, .trap, .online, .time, .ply, .brake, .mill, .viol, .log, .skein] s (settle s (execTwDiv a0 a1 a2 a3 a4 a5 s)) := by
  unfold execTwDiv
  with_reducible repeat' first
    | assumption
    | exact RegsIn.rfl
    | refine RegsIn.iteO ?_ ?_ <;> intro hc
    | refine RegsIn.ite ?_ ?_ <;> intro hc
    | refine RegsIn.ok ?_
    | apply RegsIn.next ?_ (State.aluTrap_in _ _ _ _ _ _ _) ?_
    | decide
    | exact Fin.isLt _
    | omega
    | dsimp -zeta only

theorem execTwDivq_in (a0 : Fin 16) (a1 : Fin 8) (a2 : Fin 32) (a3 : Fin 32) (a4 : Fin 32) (a5 : Bool) (s : State) :
    RegsIn [.hopper, .events, .fault, .wdog, .task, .trap, .online, .time, .ply, .brake, .mill, .viol, .log, .skein] s (settle s (execTwDivq a0 a1 a2 a3 a4 a5 s)) := by
  unfold execTwDivq
  with_reducible repeat' first
    | assumption
    | (extract_lets +onlyGivenNames z; clear_value z; revert z; intro y)
    | exact RegsIn.rfl
    | refine RegsIn.iteO ?_ ?_ <;> intro hc
    | refine RegsIn.ite ?_ ?_ <;> intro hc
    | refine RegsIn.ok ?_
    | apply RegsIn.next ?_ (State.aluTrap_in _ _ _ _ _ _ _) ?_
    | decide
    | exact Fin.isLt _
    | omega
    | dsimp -zeta only

theorem execTwSatq_in (a0 : Fin 16) (a1 : Fin 8) (a2 : Fin 32) (a3 : Fin 32) (s : State) :
    RegsIn [.hopper, .events, .fault, .wdog, .task, .trap, .online, .time, .ply, .brake, .mill, .viol, .log, .skein] s (settle s (execTwSatq a0 a1 a2 a3 s)) := by
  unfold execTwSatq
  with_reducible repeat' first
    | assumption
    | (extract_lets +onlyGivenNames z; clear_value z; revert z; intro y)
    | exact RegsIn.rfl
    | refine RegsIn.ok ?_
    | apply RegsIn.next ?_ (State.alu_in _ _ _ _ _ _) ?_
    | decide
    | exact Fin.isLt _
    | omega
    | dsimp -zeta only

theorem execTwSel_in (a0 : Fin 16) (a1 : Fin 8) (a2 : Fin 32) (a3 : Fin 32) (a4 : Fin 32) (s : State) :
    RegsIn [.hopper, .events, .fault, .wdog, .task, .trap, .online, .time, .ply, .brake, .mill, .viol, .log, .skein] s (settle s (execTwSel a0 a1 a2 a3 a4 s)) := by
  unfold execTwSel
  with_reducible repeat' first
    | assumption
    | exact RegsIn.rfl
    | refine RegsIn.iteO ?_ ?_ <;> intro hc
    | refine RegsIn.ite ?_ ?_ <;> intro hc
    | refine RegsIn.ok ?_
    | apply RegsIn.next ?_ (State.alu_in _ _ _ _ _ _) ?_
    | decide
    | exact Fin.isLt _
    | omega
    | dsimp -zeta only

theorem execTwRdf_in (a0 : Fin 16) (a1 : Fin 8) (a2 : Fin 32) (s : State) :
    RegsIn [.hopper, .events, .fault, .wdog, .task, .trap, .online, .time, .ply, .brake, .mill, .viol, .log, .skein] s (settle s (execTwRdf a0 a1 a2 s)) := by
  unfold execTwRdf
  with_reducible repeat' first
    | assumption
    | exact RegsIn.rfl
    | refine RegsIn.ok ?_
    | apply RegsIn.next ?_ (State.alu_in _ _ _ _ _ _) ?_
    | decide
    | exact Fin.isLt _
    | omega
    | dsimp -zeta only

theorem execTwClq_in (a0 : Fin 16) (a1 : Fin 8) (s : State) :
    RegsIn [.hopper, .events, .fault, .wdog, .task, .trap, .online, .time, .ply, .brake, .mill, .viol, .log, .skein] s (settle s (execTwClq a0 a1 s)) := by
  unfold execTwClq
  with_reducible repeat' first
    | assumption
    | exact RegsIn.rfl
    | refine RegsIn.ok ?_
    | apply RegsIn.next ?_ (State.alu_in _ _ _ _ _ _) ?_
    | decide
    | exact Fin.isLt _
    | omega
    | dsimp -zeta only

theorem execTwAddi_in (a0 : Fin 16) (a1 : Fin 8) (a2 : Fin 32) (a3 : Fin 32) (a4 : BitVec 20) (a5 : Bool) (s : State) :
    RegsIn [.hopper, .events, .fault, .wdog, .task, .trap, .online, .time, .ply, .brake, .mill, .viol, .log, .skein] s (settle s (execTwAddi a0 a1 a2 a3 a4 a5 s)) := by
  unfold execTwAddi
  with_reducible repeat' first
    | assumption
    | (extract_lets +onlyGivenNames z; clear_value z; revert z; intro y)
    | exact RegsIn.rfl
    | refine RegsIn.ok ?_
    | apply RegsIn.next ?_ (State.alu_in _ _ _ _ _ _) ?_
    | decide
    | exact Fin.isLt _
    | omega
    | dsimp -zeta only

theorem execTwAndi_in (a0 : Fin 16) (a1 : Fin 8) (a2 : Fin 32) (a3 : Fin 32) (a4 : BitVec 20) (s : State) :
    RegsIn [.hopper, .events, .fault, .wdog, .task, .trap, .online, .time, .ply, .brake, .mill, .viol, .log, .skein] s (settle s (execTwAndi a0 a1 a2 a3 a4 s)) := by
  unfold execTwAndi
  with_reducible repeat' first
    | assumption
    | exact RegsIn.rfl
    | refine RegsIn.ok ?_
    | apply RegsIn.next ?_ (State.alu_in _ _ _ _ _ _) ?_
    | decide
    | exact Fin.isLt _
    | omega
    | dsimp -zeta only

theorem execTwOri_in (a0 : Fin 16) (a1 : Fin 8) (a2 : Fin 32) (a3 : Fin 32) (a4 : BitVec 20) (s : State) :
    RegsIn [.hopper, .events, .fault, .wdog, .task, .trap, .online, .time, .ply, .brake, .mill, .viol, .log, .skein] s (settle s (execTwOri a0 a1 a2 a3 a4 s)) := by
  unfold execTwOri
  with_reducible repeat' first
    | assumption
    | exact RegsIn.rfl
    | refine RegsIn.ok ?_
    | apply RegsIn.next ?_ (State.alu_in _ _ _ _ _ _) ?_
    | decide
    | exact Fin.isLt _
    | omega
    | dsimp -zeta only

theorem execTwXori_in (a0 : Fin 16) (a1 : Fin 8) (a2 : Fin 32) (a3 : Fin 32) (a4 : BitVec 20) (s : State) :
    RegsIn [.hopper, .events, .fault, .wdog, .task, .trap, .online, .time, .ply, .brake, .mill, .viol, .log, .skein] s (settle s (execTwXori a0 a1 a2 a3 a4 s)) := by
  unfold execTwXori
  with_reducible repeat' first
    | assumption
    | exact RegsIn.rfl
    | refine RegsIn.ok ?_
    | apply RegsIn.next ?_ (State.alu_in _ _ _ _ _ _) ?_
    | decide
    | exact Fin.isLt _
    | omega
    | dsimp -zeta only

theorem execTwCmpi_in (a0 : Fin 16) (a1 : Fin 8) (a2 : Fin 32) (a3 : BitVec 20) (a4 : Bool) (s : State) :
    RegsIn [.hopper, .events, .fault, .wdog, .task, .trap, .online, .time, .ply, .brake, .mill, .viol, .log, .skein] s (settle s (execTwCmpi a0 a1 a2 a3 a4 s)) := by
  unfold execTwCmpi
  with_reducible repeat' first
    | assumption
    | exact RegsIn.rfl
    | refine RegsIn.ok ?_
    | apply RegsIn.next ?_ (State.alu_in _ _ _ _ _ _) ?_
    | decide
    | exact Fin.isLt _
    | omega
    | dsimp -zeta only

theorem execTwShi_in (a0 : Fin 16) (a1 : Fin 8) (a2 : Fin 32) (a3 : Fin 32) (a4 : BitVec 20) (a5 : Bool) (s : State) :
    RegsIn [.hopper, .events, .fault, .wdog, .task, .trap, .online, .time, .ply, .brake, .mill, .viol, .log, .skein] s (settle s (execTwShi a0 a1 a2 a3 a4 a5 s)) := by
  unfold execTwShi
  with_reducible repeat' first
    | assumption
    | (extract_lets +onlyGivenNames z; clear_value z; revert z; intro y)
    | exact RegsIn.rfl
    | refine RegsIn.iteO ?_ ?_ <;> intro hc
    | refine RegsIn.ite ?_ ?_ <;> intro hc
    | refine RegsIn.ok ?_
    | apply RegsIn.next ?_ (State.aluTrap_in _ _ _ _ _ _ _) ?_
    | decide
    | exact Fin.isLt _
    | omega
    | dsimp -zeta only

theorem execTwLui_in (a0 : Fin 16) (a1 : Fin 8) (a2 : Fin 32) (a3 : BitVec 20) (s : State) :
    RegsIn [.hopper, .events, .fault, .wdog, .task, .trap, .online, .time, .ply, .brake, .mill, .viol, .log, .skein] s (settle s (execTwLui a0 a1 a2 a3 s)) := by
  unfold execTwLui
  with_reducible repeat' first
    | assumption
    | exact RegsIn.rfl
    | refine RegsIn.ok ?_
    | apply RegsIn.next ?_ (State.alu_in _ _ _ _ _ _) ?_
    | decide
    | exact Fin.isLt _
    | omega
    | dsimp -zeta only

theorem execTwLds_in (a0 : Fin 16) (a1 : Fin 8) (a2 : Fin 32) (a3 : Fin 32) (a4 : BitVec 18) (a5 : Bool) (s : State) :
    RegsIn [.events, .task, .trap, .viol] s (settle s (execTwLds a0 a1 a2 a3 a4 a5 s)) := by
  unfold execTwLds
  with_reducible repeat' first
    | assumption
    | exact RegsIn.rfl
    | refine RegsIn.ok ?_
    | apply RegsIn.next ?_ (State.slotRead_in _ _ _ _ _ _ _ _) ?_
    | decide
    | exact Fin.isLt _
    | omega
    | dsimp -zeta only

theorem execTwLde_in (a0 : Fin 16) (a1 : Fin 8) (a2 : Fin 32) (a3 : Fin 32) (a4 : BitVec 18) (a5 : Bool) (s : State) :
    RegsIn [.events, .task, .trap, .viol] s (settle s (execTwLde a0 a1 a2 a3 a4 a5 s)) := by
  unfold execTwLde
  with_reducible repeat' first
    | assumption
    | (extract_lets +onlyGivenNames z; clear_value z; revert z; intro y)
    | exact RegsIn.rfl
    | refine RegsIn.ok ?_
    | apply RegsIn.next ?_ (State.slotRead_in _ _ _ _ _ _ _ _) ?_
    | decide
    | exact Fin.isLt _
    | omega
    | dsimp -zeta only

theorem execTwTag_in (a0 : Fin 16) (a1 : Fin 8) (a2 : Fin 32) (a3 : Fin 32) (a4 : BitVec 18) (a5 : Bool) (s : State) :
    RegsIn [.events, .task, .trap, .viol] s (settle s (execTwTag a0 a1 a2 a3 a4 a5 s)) := by
  unfold execTwTag
  with_reducible repeat' first
    | assumption
    | (extract_lets +onlyGivenNames z; clear_value z; revert z; intro y)
    | exact RegsIn.rfl
    | refine RegsIn.ok ?_
    | apply RegsIn.next ?_ (State.slotRead_in _ _ _ _ _ _ _ _) ?_
    | decide
    | exact Fin.isLt _
    | omega
    | dsimp -zeta only

theorem execTwSts_in (a0 : Fin 16) (a1 : Fin 8) (a2 : Fin 32) (a3 : Fin 32) (a4 : BitVec 2) (a5 : BitVec 18) (s : State) :
    RegsIn [.events, .task, .trap, .viol] s (settle s (execTwSts a0 a1 a2 a3 a4 a5 s)) := by
  unfold execTwSts
  with_reducible repeat' first
    | assumption
    | (extract_lets +onlyGivenNames z; clear_value z; revert z; intro y)
    | exact RegsIn.rfl
    | refine RegsIn.ok ?_
    | apply RegsIn.next ?_ (State.trapStrand_in _ _ _ _ _ _ ?_) ?_
    | apply RegsIn.next ?_ (State.putStrand_in _ _ _ _ _) ?_
    | (refine RegsIn.twist _ _ _ _ (by decide) ?_; intro u i x hu; try dsimp -zeta only)
    | split
    | decide
    | exact Fin.isLt _
    | omega
    | dsimp -zeta only

theorem execTwWinb_in (a0 : Fin 16) (a1 : Fin 8) (a2 : Fin 32) (a3 : Fin 32) (a4 : BitVec 4) (a5 : BitVec 16) (a6 : Bool) (s : State) :
    RegsIn [.events, .task, .trap, .viol] s (settle s (execTwWinb a0 a1 a2 a3 a4 a5 a6 s)) := by
  unfold execTwWinb
  with_reducible repeat' first
    | assumption
    | (extract_lets +onlyGivenNames z; clear_value z; revert z; intro y)
    | exact RegsIn.rfl
    | refine RegsIn.iteO ?_ ?_ <;> intro hc
    | refine RegsIn.ite ?_ ?_ <;> intro hc
    | refine RegsIn.ok ?_
    | (refine RegsIn.upTo _ _ ?_ ?_; rotate_left; intro y a ha hy; rotate_left)
    | (refine RegsIn.bitsSet _ _ _ ?_ ?_; rotate_left; intro y a ha hy; rotate_left)
    | (refine RegsIn.foldl _ _ ?_ ?_; rotate_left; intro y a ha hy; rotate_left)
    | apply RegsIn.next ?_ (State.trapStrand_in _ _ _ _ _ _ ?_) ?_
    | apply RegsIn.next ?_ (State.putStrand_in _ _ _ _ _) ?_
    | (refine RegsIn.twist _ _ _ _ (by decide) ?_; intro u i x hu; try dsimp -zeta only)
    | decide
    | exact Fin.isLt _
    | omega
    | dsimp -zeta only

theorem execTwLdw_in (a0 : Fin 16) (a1 : Fin 8) (a2 : Fin 32) (a3 : Fin 32) (a4 : BitVec 16) (a5 : Bool) (s : State) :
    RegsIn [.events, .task, .trap, .viol] s (settle s (execTwLdw a0 a1 a2 a3 a4 a5 s)) := by
  unfold execTwLdw
  with_reducible repeat' first
    | assumption
    | (extract_lets +onlyGivenNames z
       refine RegsIn.let1 z ?_ ?_
       subst z
       rotate_left
       clear_value z
       revert z
       rintro ⟨y, y1⟩ hy
       rotate_left)
    | exact RegsIn.rfl
    | refine RegsIn.iteO ?_ ?_ <;> intro hc
    | refine RegsIn.ite ?_ ?_ <;> intro hc
    | refine RegsIn.ok ?_
    | refine RegsIn.ite1 ?_ ?_ <;> intro hc
    | (rename (_ : State × _) = _ => heq
       refine RegsIn.pair heq ?_ ?_ <;> clear heq
       rotate_left
       intro hy
       rotate_left)
    | apply RegsIn.next ?_ (State.trapStrand_in _ _ _ _ _ _ ?_) ?_
    | apply RegsIn.next ?_ (State.dataAccess_in _ _ _ _ _ _ _) ?_
    | apply RegsIn.next ?_ (State.putStrand_in _ _ _ _ _) ?_
    | (refine RegsIn.twist _ _ _ _ (by decide) ?_; intro u i x hu; try dsimp -zeta only)
    | split
    | decide
    | exact Fin.isLt _
    | omega
    | dsimp -zeta only

theorem execTwStw_in (a0 : Fin 16) (a1 : Fin 8) (a2 : Fin 32) (a3 : Fin 32) (a4 : BitVec 16) (s : State) :
    RegsIn [.events, .task, .trap, .viol] s (settle s (execTwStw a0 a1 a2 a3 a4 s)) := by
  unfold execTwStw
  with_reducible repeat' first
    | assumption
    | (extract_lets +onlyGivenNames z
       refine RegsIn.let1 z ?_ ?_
       subst z
       rotate_left
       clear_value z
       revert z
       rintro ⟨y, y1⟩ hy
       rotate_left)
    | exact RegsIn.rfl
    | refine RegsIn.iteO ?_ ?_ <;> intro hc
    | refine RegsIn.ite ?_ ?_ <;> intro hc
    | refine RegsIn.ok ?_
    | refine RegsIn.ite1 ?_ ?_ <;> intro hc
    | (rename (_ : State × _) = _ => heq
       refine RegsIn.pair heq ?_ ?_ <;> clear heq
       rotate_left
       intro hy
       rotate_left)
    | apply RegsIn.next ?_ (State.trapStrand_in _ _ _ _ _ _ ?_) ?_
    | apply RegsIn.next ?_ (State.dataAccess_in _ _ _ _ _ _ _) ?_
    | apply RegsIn.next ?_ (State.putStrand_in _ _ _ _ _) ?_
    | (refine RegsIn.twist _ _ _ _ (by decide) ?_; intro u i x hu; try dsimp -zeta only)
    | split
    | decide
    | exact Fin.isLt _
    | omega
    | dsimp -zeta only

theorem execTwTrd_in (a0 : Fin 16) (a1 : Fin 8) (a2 : Fin 32) (a3 : BitVec 4) (s : State) :
    RegsIn [.events, .task, .trap, .viol] s (settle s (execTwTrd a0 a1 a2 a3 s)) := by
  unfold execTwTrd
  with_reducible repeat' first
    | assumption
    | exact RegsIn.rfl
    | refine RegsIn.ok ?_
    | apply RegsIn.next ?_ (State.trapStrand_in _ _ _ _ _ _ ?_) ?_
    | apply RegsIn.next ?_ (State.putStrand_in _ _ _ _ _) ?_
    | (refine RegsIn.twist _ _ _ _ (by decide) ?_; intro u i x hu; try dsimp -zeta only)
    | split
    | decide
    | exact Fin.isLt _
    | omega
    | dsimp -zeta only

theorem execTwLix_in (a0 : Fin 16) (a1 : Fin 8) (a2 : Fin 32) (s : State) :
    RegsIn [.hopper, .events, .fault, .wdog, .task, .trap, .online, .time, .ply, .brake, .mill, .viol, .log, .skein] s (settle s (execTwLix a0 a1 a2 s)) := by
  unfold execTwLix
  with_reducible repeat' first
    | assumption
    | exact RegsIn.rfl
    | refine RegsIn.ok ?_
    | apply RegsIn.next ?_ (State.alu_in _ _ _ _ _ _) ?_
    | decide
    | exact Fin.isLt _
    | omega
    | dsimp -zeta only

theorem execTwLpr_in (a0 : Fin 16) (a1 : Fin 8) (a2 : Fin 32) (a3 : Fin 32) (a4 : BitVec 4) (a5 : BitVec 12) (a6 : Bool) (s : State) :
    RegsIn [.events, .task, .trap, .viol] s (settle s (execTwLpr a0 a1 a2 a3 a4 a5 a6 s)) := by
  unfold execTwLpr
  with_reducible repeat' first
    | assumption
    | (extract_lets +onlyGivenNames z; clear_value z; revert z; intro y)
    | exact RegsIn.rfl
    | refine RegsIn.iteO ?_ ?_ <;> intro hc
    | refine RegsIn.ite ?_ ?_ <;> intro hc
    | refine RegsIn.ok ?_
    | apply RegsIn.next ?_ (State.trapStrand_in _ _ _ _ _ _ ?_) ?_
    | apply RegsIn.next ?_ (State.putStrand_in _ _ _ _ _) ?_
    | (refine RegsIn.twist _ _ _ _ (by decide) ?_; intro u i x hu; try dsimp -zeta only)
    | split
    | decide
    | exact Fin.isLt _
    | omega
    | dsimp -zeta only

theorem execTwLpw_in (a0 : Fin 16) (a1 : Fin 8) (a2 : Fin 32) (a3 : Fin 32) (a4 : BitVec 4) (a5 : BitVec 12) (s : State) :
    RegsIn [.events, .task, .trap, .viol] s (settle s (execTwLpw a0 a1 a2 a3 a4 a5 s)) := by
  unfold execTwLpw
  with_reducible repeat' first
    | assumption
    | (extract_lets +onlyGivenNames z; clear_value z; revert z; intro y)
    | exact RegsIn.rfl
    | refine RegsIn.iteO ?_ ?_ <;> intro hc
    | refine RegsIn.ite ?_ ?_ <;> intro hc
    | refine RegsIn.ok ?_
    | apply RegsIn.next ?_ (State.trapStrand_in _ _ _ _ _ _ ?_) ?_
    | apply RegsIn.next ?_ (State.putStrand_in _ _ _ _ _) ?_
    | (refine RegsIn.twist _ _ _ _ (by decide) ?_; intro u i x hu; try dsimp -zeta only)
    | split
    | decide
    | exact Fin.isLt _
    | omega
    | dsimp -zeta only

theorem execTwMbq_in (a0 : Fin 16) (a1 : Fin 8) (a2 : Fin 32) (a3 : Fin 2) (a4 : Fin 64) (a5 : BitVec 16) (a6 : Bool) (s : State) :
    RegsIn [.events, .task, .trap, .viol] s (settle s (execTwMbq a0 a1 a2 a3 a4 a5 a6 s)) := by
  unfold execTwMbq
  with_reducible repeat' first
    | assumption
    | (extract_lets +onlyGivenNames z; clear_value z; revert z; intro y)
    | exact RegsIn.rfl
    | refine RegsIn.iteO ?_ ?_ <;> intro hc
    | refine RegsIn.ite ?_ ?_ <;> intro hc
    | refine RegsIn.ok ?_
    | apply RegsIn.next ?_ (State.trapStrand_in _ _ _ _ _ _ ?_) ?_
    | apply RegsIn.next ?_ (State.putStrand_in _ _ _ _ _) ?_
    | (refine RegsIn.twist _ _ _ _ (by decide) ?_; intro u i x hu; try dsimp -zeta only)
    | split
    | decide
    | exact Fin.isLt _
    | omega
    | dsimp -zeta only

theorem execTwMbr_in (a0 : Fin 16) (a1 : Fin 8) (a2 : Fin 32) (a3 : Fin 2) (a4 : Fin 64) (a5 : BitVec 16) (a6 : Bool) (s : State) :
    RegsIn [.events, .task, .trap, .mill, .viol] s (settle s (execTwMbr a0 a1 a2 a3 a4 a5 a6 s)) := by
  unfold execTwMbr
  with_reducible repeat' first
    | assumption
    | (extract_lets +onlyGivenNames z
       refine RegsIn.let z ?_ ?_
       subst z
       rotate_left
       clear_value z
       revert z
       intro y hy
       rotate_left)
    | (extract_lets +onlyGivenNames z; clear_value z; revert z; intro y)
    | exact RegsIn.rfl
    | refine RegsIn.iteO ?_ ?_ <;> intro hc
    | refine RegsIn.ite ?_ ?_ <;> intro hc
    | refine RegsIn.ok ?_
    | apply RegsIn.next ?_ (State.trapStrand_in _ _ _ _ _ _ ?_) ?_
    | apply RegsIn.next ?_ (State.putStrand_in _ _ _ _ _) ?_
    | apply RegsIn.next ?_ (State.setTask_in _ _ _) ?_
    | apply RegsIn.next ?_ (State.millRead_in _ _ _ ?_ ?_) ?_
    | (refine RegsIn.twist _ _ _ _ (by decide) ?_; intro u i x hu; try dsimp -zeta only)
    | split
    | decide
    | exact Fin.isLt _
    | omega
    | dsimp -zeta only

theorem execTwBr_in (a0 : Fin 16) (a1 : Fin 8) (a2 : BitVec 4) (a3 : BitVec 16) (s : State) :
    RegsIn [.events, .task, .trap, .viol] s (settle s (execTwBr a0 a1 a2 a3 s)) := by
  unfold execTwBr
  with_reducible repeat' first
    | assumption
    | exact RegsIn.rfl
    | refine RegsIn.iteO ?_ ?_ <;> intro hc
    | refine RegsIn.ite ?_ ?_ <;> intro hc
    | refine RegsIn.ok ?_
    | apply RegsIn.next ?_ (State.trapStrand_in _ _ _ _ _ _ ?_) ?_
    | apply RegsIn.next ?_ (State.putStrand_in _ _ _ _ _) ?_
    | (refine RegsIn.twist _ _ _ _ (by decide) ?_; intro u i x hu; try dsimp -zeta only)
    | split
    | decide
    | exact Fin.isLt _
    | omega
    | dsimp -zeta only

theorem execTwBtag_in (a0 : Fin 16) (a1 : Fin 8) (a2 : BitVec 2) (a3 : BitVec 2) (a4 : BitVec 6) (a5 : BitVec 16) (s : State) :
    RegsIn [.events, .task, .trap, .viol] s (settle s (execTwBtag a0 a1 a2 a3 a4 a5 s)) := by
  unfold execTwBtag
  with_reducible repeat' first
    | assumption
    | exact RegsIn.rfl
    | refine RegsIn.iteO ?_ ?_ <;> intro hc
    | refine RegsIn.ite ?_ ?_ <;> intro hc
    | refine RegsIn.ok ?_
    | apply RegsIn.next ?_ (State.putStrand_in _ _ _ _ _) ?_
    | (refine RegsIn.twist _ _ _ _ (by decide) ?_; intro u i x hu; try dsimp -zeta only)
    | decide
    | exact Fin.isLt _
    | omega
    | dsimp -zeta only

theorem execTwLoop_in (a0 : Fin 16) (a1 : Fin 8) (a2 : Fin 32) (a3 : BitVec 12) (a4 : BitVec 13) (s : State) :
    RegsIn [.events, .task, .trap, .viol] s (settle s (execTwLoop a0 a1 a2 a3 a4 s)) := by
  unfold execTwLoop
  with_reducible repeat' first
    | assumption
    | (extract_lets +onlyGivenNames z; clear_value z; revert z; intro y)
    | exact RegsIn.rfl
    | refine RegsIn.iteO ?_ ?_ <;> intro hc
    | refine RegsIn.ite ?_ ?_ <;> intro hc
    | refine RegsIn.ok ?_
    | apply RegsIn.next ?_ (State.trapStrand_in _ _ _ _ _ _ ?_) ?_
    | apply RegsIn.next ?_ (State.putStrand_in _ _ _ _ _) ?_
    | (refine RegsIn.twist _ _ _ _ (by decide) ?_; intro u i x hu; try dsimp -zeta only)
    | decide
    | exact Fin.isLt _
    | omega
    | dsimp -zeta only

theorem execTwCall_in (a0 : Fin 16) (a1 : Fin 8) (a2 : BitVec 16) (s : State) :
    RegsIn [.events, .task, .trap, .viol] s (settle s (execTwCall a0 a1 a2 s)) := by
  unfold execTwCall
  with_reducible repeat' first
    | assumption
    | exact RegsIn.rfl
    | refine RegsIn.iteO ?_ ?_ <;> intro hc
    | refine RegsIn.ite ?_ ?_ <;> intro hc
    | refine RegsIn.ok ?_
    | apply RegsIn.next ?_ (State.trapStrand_in _ _ _ _ _ _ ?_) ?_
    | apply RegsIn.next ?_ (State.putStrand_in _ _ _ _ _) ?_
    | (refine RegsIn.twist _ _ _ _ (by decide) ?_; intro u i x hu; try dsimp -zeta only)
    | decide
    | exact Fin.isLt _
    | omega
    | dsimp -zeta only

theorem execTwRet_in (a0 : Fin 16) (a1 : Fin 8) (s : State) :
    RegsIn [.events, .task, .trap, .viol] s (settle s (execTwRet a0 a1 s)) := by
  unfold execTwRet
  with_reducible repeat' first
    | assumption
    | exact RegsIn.rfl
    | refine RegsIn.ok ?_
    | apply RegsIn.next ?_ (State.trapStrand_in _ _ _ _ _ _ ?_) ?_
    | apply RegsIn.next ?_ (State.putStrand_in _ _ _ _ _) ?_
    | (refine RegsIn.twist _ _ _ _ (by decide) ?_; intro u i x hu; try dsimp -zeta only)
    | split
    | decide
    | exact Fin.isLt _
    | omega
    | dsimp -zeta only

theorem execTwEnd_in (a0 : Fin 16) (a1 : Fin 8) (s : State) :
    RegsIn [.events, .task, .trap, .viol] s (settle s (execTwEnd a0 a1 s)) := by
  unfold execTwEnd
  with_reducible repeat' first
    | assumption
    | (extract_lets +onlyGivenNames z
       refine RegsIn.let z ?_ ?_
       subst z
       rotate_left
       clear_value z
       revert z
       intro y hy
       rotate_left)
    | (extract_lets +onlyGivenNames z; clear_value z; revert z; intro y)
    | exact RegsIn.rfl
    | refine RegsIn.iteO ?_ ?_ <;> intro hc
    | refine RegsIn.ite ?_ ?_ <;> intro hc
    | refine RegsIn.ok ?_
    | apply RegsIn.next ?_ (State.setInst_in _ _ _) ?_
    | apply RegsIn.next ?_ (State.dispatchSpindles_in _) ?_
    | (refine RegsIn.twist _ _ _ _ (by decide) ?_; intro u i x hu; try dsimp -zeta only)
    | refine RegsIn.upd ?_
    | decide
    | exact Fin.isLt _
    | omega
    | dsimp -zeta only

theorem execTwTrap_in (a0 : Fin 16) (a1 : Fin 8) (a2 : BitVec 8) (s : State) :
    RegsIn [.events, .task, .trap, .viol] s (settle s (execTwTrap a0 a1 a2 s)) := by
  unfold execTwTrap
  with_reducible repeat' first
    | assumption
    | exact RegsIn.rfl
    | refine RegsIn.ok ?_
    | apply RegsIn.next ?_ (State.trapStrand_in _ _ _ _ _ _ ?_) ?_
    | (refine RegsIn.twist _ _ _ _ (by decide) ?_; intro u i x hu; try dsimp -zeta only)
    | decide
    | exact Fin.isLt _
    | omega
    | dsimp -zeta only

theorem execTwNop_in (a0 : Fin 16) (a1 : Fin 8) (s : State) :
    RegsIn [.hopper, .events, .fault, .wdog, .task, .trap, .online, .time, .ply, .brake, .mill, .viol, .log, .skein] s (settle s (execTwNop a0 a1 s)) := by
  unfold execTwNop
  with_reducible repeat' first
    | assumption
    | exact RegsIn.rfl
    | refine RegsIn.ok ?_
    | apply RegsIn.next ?_ (State.alu_in _ _ _ _ _ _) ?_
    | decide
    | exact Fin.isLt _
    | omega
    | dsimp -zeta only

theorem execUndefinedEncodingReached_in (a0 : Fin 16) (a1 : Fin 8) (a2 : Bool) (s : State) :
    RegsIn [.events, .task, .trap, .viol] s (settle s (execUndefinedEncodingReached a0 a1 a2 s)) := by
  unfold execUndefinedEncodingReached
  with_reducible repeat' first
    | assumption
    | exact RegsIn.rfl
    | refine RegsIn.iteO ?_ ?_ <;> intro hc
    | refine RegsIn.ite ?_ ?_ <;> intro hc
    | refine RegsIn.ok ?_
    | apply RegsIn.next ?_ (State.trapStrand_in _ _ _ _ _ _ ?_) ?_
    | (refine RegsIn.twistIf _ _ _ _ (by decide) ?_; intro u i x hu; try dsimp -zeta only)
    | decide
    | exact Fin.isLt _
    | omega
    | dsimp -zeta only

end Sys2Proof.Machine
end

