-- ==== Sys2Proof/Laws/BanksCommands.lean ====
section
/-! SUPPORT. The banks of registers that the commands of the other families write, for those that RegistersLeftAlone names. -/

namespace Sys2Proof.Machine

set_option linter.all false

theorem State.setGrp_in (s : State) (a1 : Nat) (a2 : TraceGroup) :
    RegsIn [] s (State.setGrp s a1 a2) := by
  unfold State.setGrp
  with_reducible repeat' first
    | assumption
    | (extract_lets +onlyGivenNames z; clear_value z; revert z; intro y)
    | exact RegsIn.rfl
    | refine RegsIn.upd ?_
    | decide
    | exact Fin.isLt _
    | omega
    | dsimp -zeta only

theorem execTraceCaptureRecord_in (a0 : Fin 8) (s : State) :
    RegsIn [.events, .viol] s (settle s (execTraceCaptureRecord a0 s)) := by
  unfold execTraceCaptureRecord
  with_reducible repeat' first
    | assumption
    | (extract_lets +onlyGivenNames z; clear_value z; revert z; intro y)
    | exact RegsIn.rfl
    | refine RegsIn.iteO ?_ ?_ <;> intro hc
    | refine RegsIn.ite ?_ ?_ <;> intro hc
    | refine RegsIn.ok ?_
    | (refine RegsIn.upTo _ _ ?_ ?_; rotate_left; intro y a ha hy; rotate_left)
    | (refine RegsIn.bitsSet _ _ _ ?_ ?_; rotate_left; intro y a ha hy; rotate_left)
    | (refine RegsIn.foldl _ _ ?_ ?_; rotate_left; intro y a ha hy; rotate_left)
    | apply RegsIn.next ?_ (State.setGrp_in _ _ _) ?_
    | apply RegsIn.next ?_ (State.writeTrc_in _ _ _ _ _) ?_
    | decide
    | exact Fin.isLt _
    | omega
    | dsimp -zeta only

theorem State.originRegs_in (s : State) :
    RegsIn [.turn] s (State.originRegs s) := by
  unfold State.originRegs
  with_reducible repeat' first
    | assumption
    | (extract_lets +onlyGivenNames z
       refine RegsIn.let z ?_ ?_
       subst z
       rotate_left
       clear_value z
       revert z
       intro y hy
       rotate_left)
    | (extract_lets +onlyGivenNames z; clear_value z; revert z; intro y)
    | exact RegsIn.rfl
    | (refine RegsIn.upTo _ _ ?_ ?_; rotate_left; intro y a ha hy; rotate_left)
    | (refine RegsIn.bitsSet _ _ _ ?_ ?_; rotate_left; intro y a ha hy; rotate_left)
    | (refine RegsIn.foldl _ _ ?_ ?_; rotate_left; intro y a ha hy; rotate_left)
    | refine RegsIn.wr F.ORIGIN_TURN_HI_k_origin _ .turn ?_ (of_decide_eq_true rfl) (of_decide_eq_true rfl) (of_decide_eq_true rfl) (of_decide_eq_true rfl)
    | refine RegsIn.wr F.ORIGIN_TURN_LO_k_origin _ .turn ?_ (of_decide_eq_true rfl) (of_decide_eq_true rfl) (of_decide_eq_true rfl) (of_decide_eq_true rfl)
    | refine RegsIn.wr (F.TURN_ORIGIN_origin _) _ .turn ?_ (of_decide_eq_true rfl) (of_decide_eq_true rfl) (by simp only [F.TURN_ORIGIN_origin, Bank.range]; omega) (by simp only [F.TURN_ORIGIN_origin, Bank.range]; omega)
    | decide
    | exact Fin.isLt _
    | omega
    | dsimp -zeta only

theorem execTurnEngineStart_in (s : State) :
    RegsIn [.events, .turn] s (settle s (execTurnEngineStart s)) := by
  unfold execTurnEngineStart
  with_reducible repeat' first
    | assumption
    | (extract_lets +onlyGivenNames z
       refine RegsIn.let z ?_ ?_
       subst z
       rotate_left
       clear_value z
       revert z
       intro y hy
       rotate_left)
    | (extract_lets +onlyGivenNames z; clear_value z; revert z; intro y)
    | exact RegsIn.rfl
    | refine RegsIn.iteO ?_ ?_ <;> intro hc
    | refine RegsIn.ite ?_ ?_ <;> intro hc
    | refine RegsIn.ok ?_
    | (refine RegsIn.upTo _ _ ?_ ?_; rotate_left; intro y a ha hy; rotate_left)
    | (refine RegsIn.bitsSet _ _ _ ?_ ?_; rotate_left; intro y a ha hy; rotate_left)
    | (refine RegsIn.foldl _ _ ?_ ?_; rotate_left; intro y a ha hy; rotate_left)
    | refine RegsIn.wr F.TURN_STATUS_adopted _ .turn ?_ (of_decide_eq_true rfl) (of_decide_eq_true rfl) (of_decide_eq_true rfl) (of_decide_eq_true rfl)
    | refine RegsIn.wr F.TURN_STATUS_running _ .turn ?_ (of_decide_eq_true rfl) (of_decide_eq_true rfl) (of_decide_eq_true rfl) (of_decide_eq_true rfl)
    | apply RegsIn.next ?_ (State.boundaryBlocks_in _ _ _) ?_
    | apply RegsIn.next ?_ (State.originRegs_in _) ?_
    | apply RegsIn.next ?_ (State.autoSwitch_in _) ?_
    | apply RegsIn.next ?_ (State.doorbellStart_in _ _) ?_
    | apply RegsIn.next ?_ (State.sendSnaps_in _ _) ?_
    | apply RegsIn.next ?_ (State.millBoundary_in _) ?_
    | refine RegsIn.upd ?_
    | decide
    | exact Fin.isLt _
    | omega
    | dsimp -zeta only

theorem execTurnBoundary_in (s : State) :
    RegsIn [.events] s (settle s (execTurnBoundary s)) := by
  unfold execTurnBoundary
  with_reducible repeat' first
    | assumption
    | (extract_lets +onlyGivenNames z
       refine RegsIn.let z ?_ ?_
       subst z
       rotate_left
       clear_value z
       revert z
       intro y hy
       rotate_left)
    | (extract_lets +onlyGivenNames z; clear_value z; revert z; intro y)
    | exact RegsIn.rfl
    | refine RegsIn.iteO ?_ ?_ <;> intro hc
    | refine RegsIn.ite ?_ ?_ <;> intro hc
    | refine RegsIn.ok ?_
    | (refine RegsIn.upTo _ _ ?_ ?_; rotate_left; intro y a ha hy; rotate_left)
    | (refine RegsIn.bitsSet _ _ _ ?_ ?_; rotate_left; intro y a ha hy; rotate_left)
    | (refine RegsIn.foldl _ _ ?_ ?_; rotate_left; intro y a ha hy; rotate_left)
    | apply RegsIn.next ?_ (State.boundaryBlocks_in _ _ _) ?_
    | apply RegsIn.next ?_ (State.countMarks_in _ _) ?_
    | apply RegsIn.next ?_ (State.autoSwitch_in _) ?_
    | apply RegsIn.next ?_ (State.doorbellStart_in _ _) ?_
    | apply RegsIn.next ?_ (State.extraFlush_in _) ?_
    | apply RegsIn.next ?_ (State.sendSnaps_in _ _) ?_
    | apply RegsIn.next ?_ (State.millBoundary_in _) ?_
    | refine RegsIn.upd ?_
    | decide
    | exact Fin.isLt _
    | omega
    | dsimp -zeta only

theorem State.takeSnap_in (s : State) (a1 : Nat) (a2 : Nat) (a3 : List Word36) :
    RegsIn [] s (State.takeSnap s a1 a2 a3) := by
  unfold State.takeSnap
  with_reducible repeat' first
    | assumption
    | (extract_lets +onlyGivenNames z
       refine RegsIn.let z ?_ ?_
       subst z
       rotate_left
       clear_value z
       revert z
       intro y hy
       rotate_left)
    | (extract_lets +onlyGivenNames z; clear_value z; revert z; intro y)
    | exact RegsIn.rfl
    | refine RegsIn.ite ?_ ?_ <;> intro hc
    | apply RegsIn.next ?_ (State.setMillBuf_in _ _ _ _) ?_
    | refine RegsIn.upd ?_
    | decide
    | exact Fin.isLt _
    | omega
    | dsimp -zeta only

theorem State.takeRecorded_in (s : State) (a1 : Nat) :
    RegsIn [] s (State.takeRecorded s a1) := by
  unfold State.takeRecorded
  with_reducible repeat' first
    | assumption
    | (extract_lets +onlyGivenNames z
       refine RegsIn.let z ?_ ?_
       subst z
       rotate_left
       clear_value z
       revert z
       intro y hy
       rotate_left)
    | (extract_lets +onlyGivenNames z; clear_value z; revert z; intro y)
    | exact RegsIn.rfl
    | (refine RegsIn.upTo _ _ ?_ ?_; rotate_left; intro y a ha hy; rotate_left)
    | (refine RegsIn.bitsSet _ _ _ ?_ ?_; rotate_left; intro y a ha hy; rotate_left)
    | (refine RegsIn.foldl _ _ ?_ ?_; rotate_left; intro y a ha hy; rotate_left)
    | apply RegsIn.next ?_ (State.takeSnap_in _ _ _ _) ?_
    | apply RegsIn.next ?_ (State.storeInput_in _ _ _) ?_
    | refine RegsIn.upd ?_
    | decide
    | exact Fin.isLt _
    | omega
    | dsimp -zeta only

theorem execRegulationIntervalEnd_in (s : State) :
    RegsIn [.slack] s (settle s (execRegulationIntervalEnd s)) := by
  unfold execRegulationIntervalEnd
  with_reducible repeat' first
    | assumption
    | (extract_lets +onlyGivenNames z
       refine RegsIn.let z ?_ ?_
       subst z
       rotate_left
       clear_value z
       revert z
       intro y hy
       rotate_left)
    | (extract_lets +onlyGivenNames z; clear_value z; revert z; intro y)
    | exact RegsIn.rfl
    | refine RegsIn.iteO ?_ ?_ <;> intro hc
    | refine RegsIn.ite ?_ ?_ <;> intro hc
    | refine RegsIn.ok ?_
    | apply RegsIn.next ?_ (State.setVcore_in _ _) ?_
    | split
    | refine RegsIn.upd ?_
    | decide
    | exact Fin.isLt _
    | omega
    | dsimp -zeta only

theorem execStageWedged_in (a0 : UnitClass) (a1 : Fin 128) (s : State) :
    RegsIn [.hopper, .events, .fault, .wdog, .online, .time, .ply, .brake, .mill, .viol, .log, .skein] s (settle s (execStageWedged a0 a1 s)) := by
  unfold execStageWedged
  with_reducible repeat' first
    | assumption
    | exact RegsIn.rfl
    | refine RegsIn.ok ?_
    | apply RegsIn.next ?_ (State.selfFault_in _ _ _ _) ?_
    | decide
    | exact Fin.isLt _
    | omega
    | dsimp -zeta only

theorem execSlackClearMin_in (s : State) :
    RegsIn [.slack] s (settle s (execSlackClearMin s)) := by
  unfold execSlackClearMin
  with_reducible repeat' first
    | assumption
    | (extract_lets +onlyGivenNames z
       refine RegsIn.let z ?_ ?_
       subst z
       rotate_left
       clear_value z
       revert z
       intro y hy
       rotate_left)
    | exact RegsIn.rfl
    | refine RegsIn.iteO ?_ ?_ <;> intro hc
    | refine RegsIn.ite ?_ ?_ <;> intro hc
    | refine RegsIn.ok ?_
    | (refine RegsIn.upTo _ _ ?_ ?_; rotate_left; intro y a ha hy; rotate_left)
    | (refine RegsIn.bitsSet _ _ _ ?_ ?_; rotate_left; intro y a ha hy; rotate_left)
    | (refine RegsIn.foldl _ _ ?_ ?_; rotate_left; intro y a ha hy; rotate_left)
    | refine RegsIn.wr (F.SLACK_TASK_MIN_slack_ns _) _ .slack ?_ (of_decide_eq_true rfl) (of_decide_eq_true rfl) (by simp only [F.SLACK_TASK_MIN_slack_ns, Bank.range]; omega) (by simp only [F.SLACK_TASK_MIN_slack_ns, Bank.range]; omega)
    | refine RegsIn.wr (F.SLACK_WHEEL_MIN_slack_ns _) _ .slack ?_ (of_decide_eq_true rfl) (of_decide_eq_true rfl) (by simp only [F.SLACK_WHEEL_MIN_slack_ns, Bank.range]; omega) (by simp only [F.SLACK_WHEEL_MIN_slack_ns, Bank.range]; omega)
    | decide
    | exact Fin.isLt _
    | omega
    | dsimp -zeta only

theorem execSlackClearSlips_in (s : State) :
    RegsIn [.slack] s (settle s (execSlackClearSlips s)) := by
  unfold execSlackClearSlips
  with_reducible repeat' first
    | assumption
    | (extract_lets +onlyGivenNames z
       refine RegsIn.let z ?_ ?_
       subst z
       rotate_left
       clear_value z
       revert z
       intro y hy
       rotate_left)
    | exact RegsIn.rfl
    | refine RegsIn.iteO ?_ ?_ <;> intro hc
    | refine RegsIn.ite ?_ ?_ <;> intro hc
    | refine RegsIn.ok ?_
    | (refine RegsIn.upTo _ _ ?_ ?_; rotate_left; intro y a ha hy; rotate_left)
    | (refine RegsIn.bitsSet _ _ _ ?_ ?_; rotate_left; intro y a ha hy; rotate_left)
    | (refine RegsIn.foldl _ _ ?_ ?_; rotate_left; intro y a ha hy; rotate_left)
    | refine RegsIn.wr (F.SLIP_TASK_last_slipped _) _ .slack ?_ (of_decide_eq_true rfl) (of_decide_eq_true rfl) (by simp only [F.SLIP_TASK_last_slipped, Bank.range]; omega) (by simp only [F.SLIP_TASK_last_slipped, Bank.range]; omega)
    | refine RegsIn.wr (F.SLIP_TASK_slips _) _ .slack ?_ (of_decide_eq_true rfl) (of_decide_eq_true rfl) (by simp only [F.SLIP_TASK_slips, Bank.range]; omega) (by simp only [F.SLIP_TASK_slips, Bank.range]; omega)
    | refine RegsIn.wr (F.SLIP_WHEEL_last_slipped _) _ .slack ?_ (of_decide_eq_true rfl) (of_decide_eq_true rfl) (by simp only [F.SLIP_WHEEL_last_slipped, Bank.range]; omega) (by simp only [F.SLIP_WHEEL_last_slipped, Bank.range]; omega)
    | refine RegsIn.wr (F.SLIP_WHEEL_slips _) _ .slack ?_ (of_decide_eq_true rfl) (of_decide_eq_true rfl) (by simp only [F.SLIP_WHEEL_slips, Bank.range]; omega) (by simp only [F.SLIP_WHEEL_slips, Bank.range]; omega)
    | decide
    | exact Fin.isLt _
    | omega
    | dsimp -zeta only

theorem State.takeWrite_in (s : State) (a1 : Nat) (a2 : HostWrite) :
    RegsIn [] s (State.takeWrite s a1 a2) := by
  unfold State.takeWrite
  with_reducible repeat' first
    | assumption
    | (extract_lets +onlyGivenNames z
       refine RegsIn.let z ?_ ?_
       subst z
       rotate_left
       clear_value z
       revert z
       intro y hy
       rotate_left)
    | (extract_lets +onlyGivenNames z; clear_value z; revert z; intro y)
    | exact RegsIn.rfl
    | refine RegsIn.ite ?_ ?_ <;> intro hc
    | apply RegsIn.next ?_ (State.setCell_in _ _ _) ?_
    | apply RegsIn.next ?_ (State.barKey_in _ _ _) ?_
    | split
    | refine RegsIn.upd ?_
    | decide
    | exact Fin.isLt _
    | omega
    | dsimp -zeta only

theorem execHostWriteTaken_in (s : State) :
    RegsIn [] s (settle s (execHostWriteTaken s)) := by
  unfold execHostWriteTaken
  with_reducible repeat' first
    | assumption
    | (extract_lets +onlyGivenNames z
       refine RegsIn.let z ?_ ?_
       subst z
       rotate_left
       clear_value z
       revert z
       intro y hy
       rotate_left)
    | (extract_lets +onlyGivenNames z; clear_value z; revert z; intro y)
    | exact RegsIn.rfl
    | refine RegsIn.ok ?_
    | (refine RegsIn.upTo _ _ ?_ ?_; rotate_left; intro y a ha hy; rotate_left)
    | (refine RegsIn.bitsSet _ _ _ ?_ ?_; rotate_left; intro y a ha hy; rotate_left)
    | (refine RegsIn.foldl _ _ ?_ ?_; rotate_left; intro y a ha hy; rotate_left)
    | apply RegsIn.next ?_ (State.takeWrite_in _ _ _) ?_
    | refine RegsIn.upd ?_
    | decide
    | exact Fin.isLt _
    | omega
    | dsimp -zeta only

theorem State.applyForce_in (s : State) (a1 : BitVec 18 × Option Sample) :
    RegsIn [] s (State.applyForce s a1) := by
  unfold State.applyForce
  with_reducible repeat' first
    | assumption
    | (extract_lets +onlyGivenNames z
       refine RegsIn.let z ?_ ?_
       subst z
       rotate_left
       clear_value z
       revert z
       intro y hy
       rotate_left)
    | (extract_lets +onlyGivenNames z; clear_value z; revert z; intro y)
    | exact RegsIn.rfl
    | refine RegsIn.ite ?_ ?_ <;> intro hc
    | split
    | refine RegsIn.upd ?_
    | decide
    | exact Fin.isLt _
    | omega
    | dsimp -zeta only

theorem execForceApply_in (s : State) :
    RegsIn [.events, .time, .brake, .viol] s (settle s (execForceApply s)) := by
  unfold execForceApply
  with_reducible repeat' first
    | assumption
    | (extract_lets +onlyGivenNames z
       refine RegsIn.let z ?_ ?_
       subst z
       rotate_left
       clear_value z
       revert z
       intro y hy
       rotate_left)
    | (extract_lets +onlyGivenNames z; clear_value z; revert z; intro y)
    | exact RegsIn.rfl
    | refine RegsIn.iteO ?_ ?_ <;> intro hc
    | refine RegsIn.ite ?_ ?_ <;> intro hc
    | refine RegsIn.ok ?_
    | (refine RegsIn.upTo _ _ ?_ ?_; rotate_left; intro y a ha hy; rotate_left)
    | (refine RegsIn.bitsSet _ _ _ ?_ ?_; rotate_left; intro y a ha hy; rotate_left)
    | (refine RegsIn.foldl _ _ ?_ ?_; rotate_left; intro y a ha hy; rotate_left)
    | apply RegsIn.next ?_ (State.saveForces_in _) ?_
    | apply RegsIn.next ?_ (State.applyForce_in _ _) ?_
    | apply RegsIn.next ?_ (State.lossRows_in _) ?_
    | apply RegsIn.next ?_ (State.finish_in _ _ _ _ _ _) ?_
    | split
    | refine RegsIn.upd ?_
    | decide
    | exact Fin.isLt _
    | omega
    | dsimp -zeta only

theorem execBeaconSend_in (s : State) :
    RegsIn [] s (settle s (execBeaconSend s)) := by
  unfold execBeaconSend
  with_reducible repeat' first
    | assumption
    | (extract_lets +onlyGivenNames z; clear_value z; revert z; intro y)
    | exact RegsIn.rfl
    | refine RegsIn.iteO ?_ ?_ <;> intro hc
    | refine RegsIn.ite ?_ ?_ <;> intro hc
    | refine RegsIn.ok ?_
    | (refine RegsIn.upTo _ _ ?_ ?_; rotate_left; intro y a ha hy; rotate_left)
    | (refine RegsIn.bitsSet _ _ _ ?_ ?_; rotate_left; intro y a ha hy; rotate_left)
    | (refine RegsIn.foldl _ _ ?_ ?_; rotate_left; intro y a ha hy; rotate_left)
    | apply RegsIn.next ?_ (State.sendRing_in _ _ _ _ _ _ _ _) ?_
    | decide
    | exact Fin.isLt _
    | omega
    | dsimp -zeta only

theorem execPublicationLaunch_in (s : State) :
    RegsIn [] s (settle s (execPublicationLaunch s)) := by
  unfold execPublicationLaunch
  with_reducible repeat' first
    | assumption
    | (extract_lets +onlyGivenNames z
       refine RegsIn.let z ?_ ?_
       subst z
       rotate_left
       clear_value z
       revert z
       intro y hy
       rotate_left)
    | (extract_lets +onlyGivenNames z; clear_value z; revert z; intro y)
    | exact RegsIn.rfl
    | refine RegsIn.iteO ?_ ?_ <;> intro hc
    | refine RegsIn.ite ?_ ?_ <;> intro hc
    | refine RegsIn.ok ?_
    | (refine RegsIn.upTo _ _ ?_ ?_; rotate_left; intro y a ha hy; rotate_left)
    | (refine RegsIn.bitsSet _ _ _ ?_ ?_; rotate_left; intro y a ha hy; rotate_left)
    | (refine RegsIn.foldl _ _ ?_ ?_; rotate_left; intro y a ha hy; rotate_left)
    | apply RegsIn.next ?_ (State.sendRing_in _ _ _ _ _ _ _ _) ?_
    | refine RegsIn.upd ?_
    | decide
    | exact Fin.isLt _
    | omega
    | dsimp -zeta only

theorem execBypassOpen_in (s : State) :
    RegsIn [.events, .time, .ring, .viol] s (settle s (execBypassOpen s)) := by
  unfold execBypassOpen
  with_reducible repeat' first
    | assumption
    | (extract_lets +onlyGivenNames z
       refine RegsIn.let z ?_ ?_
       subst z
       rotate_left
       clear_value z
       revert z
       intro y hy
       rotate_left)
    | (extract_lets +onlyGivenNames z; clear_value z; revert z; intro y)
    | exact RegsIn.rfl
    | refine RegsIn.iteO ?_ ?_ <;> intro hc
    | refine RegsIn.ite ?_ ?_ <;> intro hc
    | refine RegsIn.ok ?_
    | refine RegsIn.wr F.RING_STATUS_bypass _ .ring ?_ (of_decide_eq_true rfl) (of_decide_eq_true rfl) (of_decide_eq_true rfl) (of_decide_eq_true rfl)
    | refine RegsIn.wr F.RING_STATUS_link_e _ .ring ?_ (of_decide_eq_true rfl) (of_decide_eq_true rfl) (of_decide_eq_true rfl) (of_decide_eq_true rfl)
    | refine RegsIn.wr F.RING_STATUS_link_w _ .ring ?_ (of_decide_eq_true rfl) (of_decide_eq_true rfl) (of_decide_eq_true rfl) (of_decide_eq_true rfl)
    | apply RegsIn.next ?_ (State.setCal_in _ _) ?_
    | apply RegsIn.next ?_ (State.ringEvt_in _ _) ?_
    | refine RegsIn.upd ?_
    | decide
    | exact Fin.isLt _
    | omega
    | dsimp -zeta only

theorem State.startRung_in (s : State) (a1 : Nat) :
    RegsIn [.power] s (State.startRung s a1) := by
  unfold State.startRung
  with_reducible repeat' first
    | assumption
    | (extract_lets +onlyGivenNames z
       refine RegsIn.let z ?_ ?_
       subst z
       rotate_left
       clear_value z
       revert z
       intro y hy
       rotate_left)
    | (extract_lets +onlyGivenNames z; clear_value z; revert z; intro y)
    | exact RegsIn.rfl
    | refine RegsIn.ite ?_ ?_ <;> intro hc
    | refine RegsIn.wr F.PWR_CAUSE_from _ .power ?_ (of_decide_eq_true rfl) (of_decide_eq_true rfl) (of_decide_eq_true rfl) (of_decide_eq_true rfl)
    | refine RegsIn.wr F.PWR_CAUSE_kind _ .power ?_ (of_decide_eq_true rfl) (of_decide_eq_true rfl) (of_decide_eq_true rfl) (of_decide_eq_true rfl)
    | refine RegsIn.wr F.PWR_STATUS_moving _ .power ?_ (of_decide_eq_true rfl) (of_decide_eq_true rfl) (of_decide_eq_true rfl) (of_decide_eq_true rfl)
    | refine RegsIn.wr F.PWR_STATUS_target _ .power ?_ (of_decide_eq_true rfl) (of_decide_eq_true rfl) (of_decide_eq_true rfl) (of_decide_eq_true rfl)
    | decide
    | exact Fin.isLt _
    | omega
    | dsimp -zeta only

theorem State.wakeTo_in (s : State) (a1 : Nat) (a2 : Nat) :
    RegsIn [.events, .viol, .power] s (State.wakeTo s a1 a2) := by
  unfold State.wakeTo
  with_reducible repeat' first
    | assumption
    | exact RegsIn.rfl
    | refine RegsIn.wr F.PWR_WAKE_source _ .power ?_ (of_decide_eq_true rfl) (of_decide_eq_true rfl) (of_decide_eq_true rfl) (of_decide_eq_true rfl)
    | refine RegsIn.wr F.PWR_WAKE_valid _ .power ?_ (of_decide_eq_true rfl) (of_decide_eq_true rfl) (of_decide_eq_true rfl) (of_decide_eq_true rfl)
    | apply RegsIn.next ?_ (State.startRung_in _ _) ?_
    | apply RegsIn.next ?_ (State.pwrEvt_in _ _) ?_
    | decide
    | exact Fin.isLt _
    | omega
    | dsimp -zeta only

theorem State.wake_in (s : State) (a1 : Nat) :
    RegsIn [.events, .viol, .power] s (State.wake s a1) := by
  unfold State.wake
  with_reducible repeat' first
    | assumption
    | (extract_lets +onlyGivenNames z; clear_value z; revert z; intro y)
    | exact RegsIn.rfl
    | refine RegsIn.ite ?_ ?_ <;> intro hc
    | apply RegsIn.next ?_ (State.wakeTo_in _ _ _) ?_
    | refine RegsIn.upd ?_
    | decide
    | exact Fin.isLt _
    | omega
    | dsimp -zeta only

theorem State.setHop_in (s : State) (a1 : Nat) (a2 : RingHop) :
    RegsIn [] s (State.setHop s a1 a2) := by
  unfold State.setHop
  with_reducible repeat' first
    | assumption
    | (extract_lets +onlyGivenNames z; clear_value z; revert z; intro y)
    | exact RegsIn.rfl
    | refine RegsIn.upd ?_
    | decide
    | exact Fin.isLt _
    | omega
    | dsimp -zeta only

theorem State.calRegs_in (s : State) :
    RegsIn [.events, .time, .ring, .viol] s (State.calRegs s) := by
  unfold State.calRegs
  with_reducible repeat' first
    | assumption
    | (extract_lets +onlyGivenNames z
       refine RegsIn.let z ?_ ?_
       subst z
       rotate_left
       clear_value z
       revert z
       intro y hy
       rotate_left)
    | (extract_lets +onlyGivenNames z; clear_value z; revert z; intro y)
    | exact RegsIn.rfl
    | refine RegsIn.ite ?_ ?_ <;> intro hc
    | (refine RegsIn.upTo _ _ ?_ ?_; rotate_left; intro y a ha hy; rotate_left)
    | (refine RegsIn.bitsSet _ _ _ ?_ ?_; rotate_left; intro y a ha hy; rotate_left)
    | (refine RegsIn.foldl _ _ ?_ ?_; rotate_left; intro y a ha hy; rotate_left)
    | refine RegsIn.wr F.CAL_CLOSURE_a _ .time ?_ (of_decide_eq_true rfl) (of_decide_eq_true rfl) (of_decide_eq_true rfl) (of_decide_eq_true rfl)
    | refine RegsIn.wr (F.CAL_DELAY_delay _) _ .time ?_ (of_decide_eq_true rfl) (of_decide_eq_true rfl) (by simp only [F.CAL_DELAY_delay, Bank.range]; omega) (by simp only [F.CAL_DELAY_delay, Bank.range]; omega)
    | refine RegsIn.wr F.CAL_STATUS_pairs _ .time ?_ (of_decide_eq_true rfl) (of_decide_eq_true rfl) (of_decide_eq_true rfl) (of_decide_eq_true rfl)
    | refine RegsIn.wr F.RING_TRANSIT_transit_ns _ .ring ?_ (of_decide_eq_true rfl) (of_decide_eq_true rfl) (of_decide_eq_true rfl) (of_decide_eq_true rfl)
    | apply RegsIn.next ?_ (State.setCal_in _ _) ?_
    | refine RegsIn.upd ?_
    | decide
    | exact Fin.isLt _
    | omega
    | dsimp -zeta only

theorem State.noteReport_in (s : State) (a1 : Nat) (a2 : Bytes) :
    RegsIn [.events, .time, .ring, .viol] s (State.noteReport s a1 a2) := by
  unfold State.noteReport
  with_reducible repeat' first
    | assumption
    | (extract_lets +onlyGivenNames z
       refine RegsIn.let z ?_ ?_
       subst z
       rotate_left
       clear_value z
       revert z
       intro y hy
       rotate_left)
    | (extract_lets +onlyGivenNames z; clear_value z; revert z; intro y)
    | exact RegsIn.rfl
    | refine RegsIn.ite ?_ ?_ <;> intro hc
    | apply RegsIn.next ?_ (State.setHop_in _ _ _) ?_
    | apply RegsIn.next ?_ (State.calRegs_in _) ?_
    | refine RegsIn.upd ?_
    | decide
    | exact Fin.isLt _
    | omega
    | dsimp -zeta only

theorem execHopMarkSend_in (a0 : Bool) (a1 : Fin 820) (s : State) :
    RegsIn [] s (settle s (execHopMarkSend a0 a1 s)) := by
  unfold execHopMarkSend
  with_reducible repeat' first
    | assumption
    | (extract_lets +onlyGivenNames z
       refine RegsIn.let z ?_ ?_
       subst z
       rotate_left
       clear_value z
       revert z
       intro y hy
       rotate_left)
    | (extract_lets +onlyGivenNames z; clear_value z; revert z; intro y)
    | exact RegsIn.rfl
    | refine RegsIn.iteO ?_ ?_ <;> intro hc
    | refine RegsIn.ite ?_ ?_ <;> intro hc
    | refine RegsIn.ok ?_
    | apply RegsIn.next ?_ (State.emit_in _ _) ?_
    | refine RegsIn.upd ?_
    | decide
    | exact Fin.isLt _
    | omega
    | dsimp -zeta only

theorem execHopMarkReceived_in (a0 : Bool) (a1 : BitVec 8) (a2 : Fin 820) (s : State) :
    RegsIn [] s (settle s (execHopMarkReceived a0 a1 a2 s)) := by
  unfold execHopMarkReceived
  with_reducible repeat' first
    | assumption
    | (extract_lets +onlyGivenNames z; clear_value z; revert z; intro y)
    | exact RegsIn.rfl
    | refine RegsIn.iteO ?_ ?_ <;> intro hc
    | refine RegsIn.ite ?_ ?_ <;> intro hc
    | refine RegsIn.ok ?_
    | refine RegsIn.upd ?_
    | decide
    | exact Fin.isLt _
    | omega
    | dsimp -zeta only

theorem execHopReportSend_in (s : State) :
    RegsIn [.events, .time, .ring, .viol] s (settle s (execHopReportSend s)) := by
  unfold execHopReportSend
  with_reducible repeat' first
    | assumption
    | (extract_lets +onlyGivenNames z
       refine RegsIn.let z ?_ ?_
       subst z
       rotate_left
       clear_value z
       revert z
       intro y hy
       rotate_left)
    | (extract_lets +onlyGivenNames z; clear_value z; revert z; intro y)
    | exact RegsIn.rfl
    | refine RegsIn.iteO ?_ ?_ <;> intro hc
    | refine RegsIn.ite ?_ ?_ <;> intro hc
    | refine RegsIn.ok ?_
    | apply RegsIn.next ?_ (State.sendRing_in _ _ _ _ _ _ _ _) ?_
    | apply RegsIn.next ?_ (State.noteReport_in _ _ _) ?_
    | decide
    | exact Fin.isLt _
    | omega
    | dsimp -zeta only

theorem execHopEntryExpired_in (a0 : Fin 16) (a1 : Bool) (a2 : Bool) (s : State) :
    RegsIn [] s (settle s (execHopEntryExpired a0 a1 a2 s)) := by
  unfold execHopEntryExpired
  with_reducible repeat' first
    | assumption
    | (extract_lets +onlyGivenNames z; clear_value z; revert z; intro y)
    | exact RegsIn.rfl
    | refine RegsIn.ok ?_
    | apply RegsIn.next ?_ (State.setHop_in _ _ _) ?_
    | split
    | decide
    | exact Fin.isLt _
    | omega
    | dsimp -zeta only

theorem execRefclkLost_in (s : State) :
    RegsIn [.events, .time, .viol] s (settle s (execRefclkLost s)) := by
  unfold execRefclkLost
  with_reducible repeat' first
    | assumption
    | (extract_lets +onlyGivenNames z
       refine RegsIn.let z ?_ ?_
       subst z
       rotate_left
       clear_value z
       revert z
       intro y hy
       rotate_left)
    | (extract_lets +onlyGivenNames z; clear_value z; revert z; intro y)
    | exact RegsIn.rfl
    | refine RegsIn.iteO ?_ ?_ <;> intro hc
    | refine RegsIn.ite ?_ ?_ <;> intro hc
    | refine RegsIn.ok ?_
    | refine RegsIn.wr F.TIME_STATUS_refclk_lost _ .time ?_ (of_decide_eq_true rfl) (of_decide_eq_true rfl) (of_decide_eq_true rfl) (of_decide_eq_true rfl)
    | apply RegsIn.next ?_ (State.toHoldover_in _ _) ?_
    | apply RegsIn.next ?_ (State.timeEvt_in _ _) ?_
    | refine RegsIn.upd ?_
    | decide
    | exact Fin.isLt _
    | omega
    | dsimp -zeta only

theorem execRefclkRestored_in (s : State) :
    RegsIn [.time] s (settle s (execRefclkRestored s)) := by
  unfold execRefclkRestored
  with_reducible repeat' first
    | assumption
    | (extract_lets +onlyGivenNames z
       refine RegsIn.let z ?_ ?_
       subst z
       rotate_left
       clear_value z
       revert z
       intro y hy
       rotate_left)
    | (extract_lets +onlyGivenNames z; clear_value z; revert z; intro y)
    | exact RegsIn.rfl
    | refine RegsIn.iteO ?_ ?_ <;> intro hc
    | refine RegsIn.ite ?_ ?_ <;> intro hc
    | refine RegsIn.ok ?_
    | refine RegsIn.wr F.TIME_STATUS_refclk_lost _ .time ?_ (of_decide_eq_true rfl) (of_decide_eq_true rfl) (of_decide_eq_true rfl) (of_decide_eq_true rfl)
    | refine RegsIn.upd ?_
    | decide
    | exact Fin.isLt _
    | omega
    | dsimp -zeta only

theorem State.setIncRegs_in (s : State) (a1 : Domain) (a2 : Nat) :
    RegsIn [.time] s (State.setIncRegs s a1 a2) := by
  have hd : domNum a1 < 2 := by unfold domNum; cases isB a1 <;> decide
  unfold State.setIncRegs
  refine RegsIn.wr _ _ .time (RegsIn.wr _ _ .time RegsIn.rfl (of_decide_eq_true rfl) (by decide) ?_ ?_) (of_decide_eq_true rfl)
    (by decide) ?_ ?_ <;> simp only [F.INC_HI_ns, F.INC_LO_frac, Bank.range] <;> omega

theorem State.sendDomain_in (s : State) (a1 : Domain) :
    RegsIn [] s (State.sendDomain s a1) := by
  unfold State.sendDomain
  dsimp only
  refine RegsIn.ite (fun _ => RegsIn.rfl) (fun _ => ?_)
  refine RegsIn.next ?_ (State.sendRing_in _ _ _ _ _ _ _ _) (by decide)
  exact RegsIn.ite (fun _ => RegsIn.upd RegsIn.rfl) (fun _ => RegsIn.rfl)

theorem execTimeRestart_in (a0 : Domain) (s : State) :
    RegsIn [] s (settle s (execTimeRestart a0 s)) := by
  unfold execTimeRestart
  with_reducible repeat' first
    | assumption
    | (extract_lets +onlyGivenNames z; clear_value z; revert z; intro y)
    | exact RegsIn.rfl
    | refine RegsIn.iteO ?_ ?_ <;> intro hc
    | refine RegsIn.ite ?_ ?_ <;> intro hc
    | refine RegsIn.ok ?_
    | apply RegsIn.next ?_ (State.setDom_in _ _ _) ?_
    | decide
    | exact Fin.isLt _
    | omega
    | dsimp -zeta only

theorem execSlewTicksWrite_in (a0 : Domain) (a1 : Word32) (s : State) :
    RegsIn [.events, .time, .viol] s (settle s (execSlewTicksWrite a0 a1 s)) := by
  unfold execSlewTicksWrite
  with_reducible repeat' first
    | assumption
    | (extract_lets +onlyGivenNames z; clear_value z; revert z; intro y)
    | exact RegsIn.rfl
    | refine RegsIn.iteO ?_ ?_ <;> intro hc
    | refine RegsIn.ite ?_ ?_ <;> intro hc
    | refine RegsIn.ok ?_
    | apply RegsIn.next ?_ (State.sendDomain_in _ _) ?_
    | apply RegsIn.next ?_ (State.setDom_in _ _ _) ?_
    | apply RegsIn.next ?_ (State.timeEvt_in _ _) ?_
    | decide
    | exact Fin.isLt _
    | omega
    | dsimp -zeta only

theorem State.incChanged_in (s : State) (a1 : Domain) :
    RegsIn [.time] s (State.incChanged s a1) := by
  unfold State.incChanged
  with_reducible repeat' first
    | assumption
    | exact RegsIn.rfl
    | refine RegsIn.ite ?_ ?_ <;> intro hc
    | apply RegsIn.next ?_ (State.sendDomain_in _ _) ?_
    | apply RegsIn.next ?_ (State.setIncRegs_in _ _ _) ?_
    | decide
    | exact Fin.isLt _
    | omega
    | dsimp -zeta only

theorem execIncApply_in (a0 : Domain) (s : State) :
    RegsIn [.time] s (settle s (execIncApply a0 s)) := by
  unfold execIncApply
  with_reducible repeat' first
    | assumption
    | exact RegsIn.rfl
    | refine RegsIn.iteO ?_ ?_ <;> intro hc
    | refine RegsIn.ite ?_ ?_ <;> intro hc
    | refine RegsIn.ok ?_
    | apply RegsIn.next ?_ (State.incChanged_in _ _) ?_
    | apply RegsIn.next ?_ (State.setDom_in _ _ _) ?_
    | split
    | decide
    | exact Fin.isLt _
    | omega
    | dsimp -zeta only

theorem execSlewEnd_in (a0 : Domain) (s : State) :
    RegsIn [.time] s (settle s (execSlewEnd a0 s)) := by
  unfold execSlewEnd
  with_reducible repeat' first
    | assumption
    | (extract_lets +onlyGivenNames z; clear_value z; revert z; intro y)
    | exact RegsIn.rfl
    | refine RegsIn.iteO ?_ ?_ <;> intro hc
    | refine RegsIn.ite ?_ ?_ <;> intro hc
    | refine RegsIn.ok ?_
    | apply RegsIn.next ?_ (State.incChanged_in _ _) ?_
    | apply RegsIn.next ?_ (State.setDom_in _ _ _) ?_
    | decide
    | exact Fin.isLt _
    | omega
    | dsimp -zeta only

theorem execDomainFrameSend_in (a0 : Domain) (s : State) :
    RegsIn [] s (settle s (execDomainFrameSend a0 s)) := by
  unfold execDomainFrameSend
  with_reducible repeat' first
    | assumption
    | exact RegsIn.rfl
    | refine RegsIn.iteO ?_ ?_ <;> intro hc
    | refine RegsIn.ite ?_ ?_ <;> intro hc
    | refine RegsIn.ok ?_
    | apply RegsIn.next ?_ (State.sendDomain_in _ _) ?_
    | decide
    | exact Fin.isLt _
    | omega
    | dsimp -zeta only

theorem execDomainHoldover_in (a0 : Domain) (s : State) :
    RegsIn [.events, .time, .viol] s (settle s (execDomainHoldover a0 s)) := by
  unfold execDomainHoldover
  with_reducible repeat' first
    | assumption
    | exact RegsIn.rfl
    | refine RegsIn.iteO ?_ ?_ <;> intro hc
    | refine RegsIn.ite ?_ ?_ <;> intro hc
    | refine RegsIn.ok ?_
    | apply RegsIn.next ?_ (State.toHoldover_in _ _) ?_
    | decide
    | exact Fin.isLt _
    | omega
    | dsimp -zeta only

theorem execHoldExpired_in (a0 : Domain) (s : State) :
    RegsIn [.events, .time, .viol] s (settle s (execHoldExpired a0 s)) := by
  unfold execHoldExpired
  with_reducible repeat' first
    | assumption
    | (extract_lets +onlyGivenNames z; clear_value z; revert z; intro y)
    | exact RegsIn.rfl
    | refine RegsIn.iteO ?_ ?_ <;> intro hc
    | refine RegsIn.ite ?_ ?_ <;> intro hc
    | refine RegsIn.ok ?_
    | apply RegsIn.next ?_ (State.setDomState_in _ _ _) ?_
    | apply RegsIn.next ?_ (State.setDom_in _ _ _) ?_
    | decide
    | exact Fin.isLt _
    | omega
    | dsimp -zeta only

theorem execSlewDone_in (s : State) :
    RegsIn [.events, .time, .viol] s (settle s (execSlewDone s)) := by
  unfold execSlewDone
  with_reducible repeat' first
    | assumption
    | (extract_lets +onlyGivenNames z
       refine RegsIn.let z ?_ ?_
       subst z
       rotate_left
       clear_value z
       revert z
       intro y hy
       rotate_left)
    | (extract_lets +onlyGivenNames z; clear_value z; revert z; intro y)
    | exact RegsIn.rfl
    | refine RegsIn.iteO ?_ ?_ <;> intro hc
    | refine RegsIn.ite ?_ ?_ <;> intro hc
    | refine RegsIn.ok ?_
    | apply RegsIn.next ?_ (State.timeEvt_in _ _) ?_
    | refine RegsIn.upd ?_
    | decide
    | exact Fin.isLt _
    | omega
    | dsimp -zeta only

theorem State.switchDomain_in (s : State) :
    RegsIn [.events, .time, .viol] s (State.switchDomain s) := by
  unfold State.switchDomain
  with_reducible repeat' first
    | assumption
    | (extract_lets +onlyGivenNames z
       refine RegsIn.let z ?_ ?_
       subst z
       rotate_left
       clear_value z
       revert z
       intro y hy
       rotate_left)
    | (extract_lets +onlyGivenNames z; clear_value z; revert z; intro y)
    | exact RegsIn.rfl
    | refine RegsIn.wrb F.TIME_STATUS_sel_now _ .time ?_ (of_decide_eq_true rfl) (of_decide_eq_true rfl) (of_decide_eq_true rfl) (of_decide_eq_true rfl)
    | apply RegsIn.next ?_ (State.workRegs_in _) ?_
    | apply RegsIn.next ?_ (State.captureO_in _) ?_
    | refine RegsIn.upd ?_
    | decide
    | exact Fin.isLt _
    | omega
    | dsimp -zeta only

theorem execDomainSwitch_in (s : State) :
    RegsIn [.events, .time, .viol] s (settle s (execDomainSwitch s)) := by
  unfold execDomainSwitch
  with_reducible repeat' first
    | assumption
    | (extract_lets +onlyGivenNames z
       refine RegsIn.let z ?_ ?_
       subst z
       rotate_left
       clear_value z
       revert z
       intro y hy
       rotate_left)
    | (extract_lets +onlyGivenNames z; clear_value z; revert z; intro y)
    | exact RegsIn.rfl
    | refine RegsIn.iteO ?_ ?_ <;> intro hc
    | refine RegsIn.ite ?_ ?_ <;> intro hc
    | refine RegsIn.ok ?_
    | apply RegsIn.next ?_ (State.captureO_in _) ?_
    | apply RegsIn.next ?_ (State.switchDomain_in _) ?_
    | split
    | refine RegsIn.upd ?_
    | decide
    | exact Fin.isLt _
    | omega
    | dsimp -zeta only

theorem execTimeXchgSend_in (s : State) :
    RegsIn [] s (settle s (execTimeXchgSend s)) := by
  unfold execTimeXchgSend
  with_reducible repeat' first
    | assumption
    | (extract_lets +onlyGivenNames z
       refine RegsIn.let z ?_ ?_
       subst z
       rotate_left
       clear_value z
       revert z
       intro y hy
       rotate_left)
    | (extract_lets +onlyGivenNames z; clear_value z; revert z; intro y)
    | exact RegsIn.rfl
    | refine RegsIn.iteO ?_ ?_ <;> intro hc
    | refine RegsIn.ite ?_ ?_ <;> intro hc
    | refine RegsIn.ok ?_
    | apply RegsIn.next ?_ (State.emit_in _ _) ?_
    | refine RegsIn.upd ?_
    | decide
    | exact Fin.isLt _
    | omega
    | dsimp -zeta only

theorem execTimeXchgReceived_in (a0 : Int) (s : State) :
    RegsIn [.events, .time, .viol] s (settle s (execTimeXchgReceived a0 s)) := by
  unfold execTimeXchgReceived
  with_reducible repeat' first
    | assumption
    | (extract_lets +onlyGivenNames z
       refine RegsIn.let z ?_ ?_
       subst z
       rotate_left
       clear_value z
       revert z
       intro y hy
       rotate_left)
    | (extract_lets +onlyGivenNames z; clear_value z; revert z; intro y)
    | exact RegsIn.rfl
    | refine RegsIn.iteO ?_ ?_ <;> intro hc
    | refine RegsIn.ite ?_ ?_ <;> intro hc
    | refine RegsIn.ok ?_
    | refine RegsIn.wr F.PLY_TIME_DIFF_diff_ps _ .time ?_ (of_decide_eq_true rfl) (of_decide_eq_true rfl) (of_decide_eq_true rfl) (of_decide_eq_true rfl)
    | apply RegsIn.next ?_ (State.timeEvt_in _ _) ?_
    | refine RegsIn.upd ?_
    | decide
    | exact Fin.isLt _
    | omega
    | dsimp -zeta only

theorem execPlyTimeDiffExceeded_in (s : State) :
    RegsIn [.hopper, .events, .online, .time, .ply, .brake, .viol, .skein] s (settle s (execPlyTimeDiffExceeded s)) := by
  unfold execPlyTimeDiffExceeded
  with_reducible repeat' first
    | assumption
    | (extract_lets +onlyGivenNames z; clear_value z; revert z; intro y)
    | exact RegsIn.rfl
    | refine RegsIn.iteO ?_ ?_ <;> intro hc
    | refine RegsIn.ite ?_ ?_ <;> intro hc
    | refine RegsIn.ok ?_
    | apply RegsIn.next ?_ (State.leaveTracking_in _ _) ?_
    | decide
    | exact Fin.isLt _
    | omega
    | dsimp -zeta only

theorem execPpsOutPulse_in (s : State) :
    RegsIn [] s (settle s (execPpsOutPulse s)) := by
  unfold execPpsOutPulse
  with_reducible repeat' first
    | assumption
    | (extract_lets +onlyGivenNames z
       refine RegsIn.let z ?_ ?_
       subst z
       rotate_left
       clear_value z
       revert z
       intro y hy
       rotate_left)
    | (extract_lets +onlyGivenNames z; clear_value z; revert z; intro y)
    | exact RegsIn.rfl
    | refine RegsIn.iteO ?_ ?_ <;> intro hc
    | refine RegsIn.ite ?_ ?_ <;> intro hc
    | refine RegsIn.ok ?_
    | apply RegsIn.next ?_ (State.emit_in _ _) ?_
    | split
    | refine RegsIn.upd ?_
    | decide
    | exact Fin.isLt _
    | omega
    | dsimp -zeta only

theorem execPpsOutFall_in (s : State) :
    RegsIn [] s (settle s (execPpsOutFall s)) := by
  unfold execPpsOutFall
  with_reducible repeat' first
    | assumption
    | (extract_lets +onlyGivenNames z
       refine RegsIn.let z ?_ ?_
       subst z
       rotate_left
       clear_value z
       revert z
       intro y hy
       rotate_left)
    | (extract_lets +onlyGivenNames z; clear_value z; revert z; intro y)
    | exact RegsIn.rfl
    | refine RegsIn.iteO ?_ ?_ <;> intro hc
    | refine RegsIn.ite ?_ ?_ <;> intro hc
    | refine RegsIn.ok ?_
    | apply RegsIn.next ?_ (State.emit_in _ _) ?_
    | refine RegsIn.upd ?_
    | decide
    | exact Fin.isLt _
    | omega
    | dsimp -zeta only

theorem execAlarmFire_in (a0 : Fin 8) (s : State) :
    RegsIn [.events, .time, .viol, .power] s (settle s (execAlarmFire a0 s)) := by
  unfold execAlarmFire
  with_reducible repeat' first
    | assumption
    | (extract_lets +onlyGivenNames z
       refine RegsIn.let z ?_ ?_
       subst z
       rotate_left
       clear_value z
       revert z
       intro y hy
       rotate_left)
    | (extract_lets +onlyGivenNames z; clear_value z; revert z; intro y)
    | exact RegsIn.rfl
    | refine RegsIn.iteO ?_ ?_ <;> intro hc
    | refine RegsIn.ite ?_ ?_ <;> intro hc
    | refine RegsIn.ok ?_
    | apply RegsIn.next ?_ (State.wake_in _ _) ?_
    | apply RegsIn.next ?_ (State.timeEvt_in _ _) ?_
    | split
    | refine RegsIn.upd ?_
    | decide
    | exact Fin.isLt _
    | omega
    | dsimp -zeta only

theorem execLeapApply_in (s : State) :
    RegsIn [.events, .time, .viol] s (settle s (execLeapApply s)) := by
  unfold execLeapApply
  with_reducible repeat' first
    | assumption
    | (extract_lets +onlyGivenNames z
       refine RegsIn.let z ?_ ?_
       subst z
       rotate_left
       clear_value z
       revert z
       intro y hy
       rotate_left)
    | (extract_lets +onlyGivenNames z; clear_value z; revert z; intro y)
    | exact RegsIn.rfl
    | refine RegsIn.iteO ?_ ?_ <;> intro hc
    | refine RegsIn.ite ?_ ?_ <;> intro hc
    | refine RegsIn.ok ?_
    | refine RegsIn.wr F.LEAP_CTRL_leap_err _ .time ?_ (of_decide_eq_true rfl) (of_decide_eq_true rfl) (of_decide_eq_true rfl) (of_decide_eq_true rfl)
    | apply RegsIn.next ?_ (State.timeEvt_in _ _) ?_
    | refine RegsIn.upd ?_
    | decide
    | exact Fin.isLt _
    | omega
    | dsimp -zeta only

theorem execLeapTableEffect_in (s : State) :
    RegsIn [] s (settle s (execLeapTableEffect s)) := by
  unfold execLeapTableEffect
  with_reducible repeat' first
    | assumption
    | (extract_lets +onlyGivenNames z; clear_value z; revert z; intro y)
    | exact RegsIn.rfl
    | refine RegsIn.ok ?_
    | split
    | refine RegsIn.upd ?_
    | decide
    | exact Fin.isLt _
    | omega
    | dsimp -zeta only

theorem execCalendarWrite_in (s : State) :
    RegsIn [] s (settle s (execCalendarWrite s)) := by
  unfold execCalendarWrite
  with_reducible repeat' first
    | assumption
    | exact RegsIn.rfl
    | refine RegsIn.ok ?_
    | apply RegsIn.next ?_ (State.keepCalendar_in _) ?_
    | decide
    | exact Fin.isLt _
    | omega
    | dsimp -zeta only

theorem execTaskInputCopyDone_in (a0 : Fin 16) (s : State) :
    RegsIn [] s (settle s (execTaskInputCopyDone a0 s)) := by
  unfold execTaskInputCopyDone
  with_reducible repeat' first
    | assumption
    | (extract_lets +onlyGivenNames z; clear_value z; revert z; intro y)
    | exact RegsIn.rfl
    | refine RegsIn.iteO ?_ ?_ <;> intro hc
    | refine RegsIn.ite ?_ ?_ <;> intro hc
    | refine RegsIn.ok ?_
    | apply RegsIn.next ?_ (State.dispatchSpindles_in _) ?_
    | apply RegsIn.next ?_ (State.setInst_in _ _ _) ?_
    | split
    | decide
    | exact Fin.isLt _
    | omega
    | dsimp -zeta only

theorem execTaskStart_in (a0 : Fin 16) (s : State) :
    RegsIn [.run] s (settle s (execTaskStart a0 s)) := by
  unfold execTaskStart
  with_reducible repeat' first
    | assumption
    | (extract_lets +onlyGivenNames z; clear_value z; revert z; intro y)
    | exact RegsIn.rfl
    | refine RegsIn.iteO ?_ ?_ <;> intro hc
    | refine RegsIn.ite ?_ ?_ <;> intro hc
    | refine RegsIn.ok ?_
    | refine RegsIn.wr F.TASK_RUN_run_state _ .run ?_ (of_decide_eq_true rfl) (of_decide_eq_true rfl) (of_decide_eq_true rfl) (of_decide_eq_true rfl)
    | apply RegsIn.next ?_ (State.startTask_in _ _ _) ?_
    | decide
    | exact Fin.isLt _
    | omega
    | dsimp -zeta only

theorem State.sendOrder5_in (s : State) (a1 : Fin 16) (a2 : Bool) (a3 : Nat) :
    RegsIn [] s (State.sendOrder5 s a1 a2 a3) := by
  unfold State.sendOrder5
  with_reducible repeat' first
    | assumption
    | (extract_lets +onlyGivenNames z
       refine RegsIn.let z ?_ ?_
       subst z
       rotate_left
       clear_value z
       revert z
       intro y hy
       rotate_left)
    | (extract_lets +onlyGivenNames z; clear_value z; revert z; intro y)
    | exact RegsIn.rfl
    | apply RegsIn.next ?_ (State.sendOrder_in _ _ _ _ _) ?_
    | refine RegsIn.upd ?_
    | decide
    | exact Fin.isLt _
    | omega
    | dsimp -zeta only

theorem State.haltUnless_in (s : State) (a1 : Nat) (h0 : a1 < 16) :
    RegsIn [.events, .task, .viol] s (State.haltUnless s a1) := by
  unfold State.haltUnless
  with_reducible repeat' first
    | assumption
    | exact RegsIn.rfl
    | refine RegsIn.ite ?_ ?_ <;> intro hc
    | apply RegsIn.next ?_ (State.haltTrapped_in _ _ ?_) ?_
    | decide
    | exact Fin.isLt _
    | omega
    | dsimp -zeta only

theorem State.trapAction_in (s : State) (a1 : Fin 16) (a2 : Bool) :
    RegsIn [.events, .run, .task, .viol] s (State.trapAction s a1 a2) := by
  unfold State.trapAction
  with_reducible repeat' first
    | assumption
    | (extract_lets +onlyGivenNames z
       refine RegsIn.let z ?_ ?_
       subst z
       rotate_left
       clear_value z
       revert z
       intro y hy
       rotate_left)
    | (extract_lets +onlyGivenNames z; clear_value z; revert z; intro y)
    | exact RegsIn.rfl
    | refine RegsIn.ite ?_ ?_ <;> intro hc
    | apply RegsIn.next ?_ (State.overrunStop_in _ _ _ _ ?_) ?_
    | apply RegsIn.next ?_ (State.sendOrder5_in _ _ _ _) ?_
    | apply RegsIn.next ?_ (State.haltTrapped_in _ _ ?_) ?_
    | decide
    | exact Fin.isLt _
    | omega
    | dsimp -zeta only

theorem execTrapDecision_in (a0 : Fin 16) (s : State) :
    RegsIn [.hopper, .events, .run, .wdog, .task, .trap, .online, .time, .ply, .brake, .mill, .viol, .log, .skein] s (settle s (execTrapDecision a0 s)) := by
  unfold execTrapDecision
  with_reducible repeat' first
    | assumption
    | (extract_lets +onlyGivenNames z
       refine RegsIn.let z ?_ ?_
       subst z
       rotate_left
       clear_value z
       revert z
       intro y hy
       rotate_left)
    | (extract_lets +onlyGivenNames z; clear_value z; revert z; intro y)
    | exact RegsIn.rfl
    | refine RegsIn.iteO ?_ ?_ <;> intro hc
    | refine RegsIn.ite ?_ ?_ <;> intro hc
    | refine RegsIn.ok ?_
    | refine RegsIn.wr (F.TRAP_INFO_judged _) _ .trap ?_ (of_decide_eq_true rfl) (of_decide_eq_true rfl) (by simp only [F.TRAP_INFO_judged, Bank.range]; omega) (by simp only [F.TRAP_INFO_judged, Bank.range]; omega)
    | apply RegsIn.next ?_ (State.setTask_in _ _ _) ?_
    | apply RegsIn.next ?_ (State.abdicate_in _ _) ?_
    | apply RegsIn.next ?_ (State.blame_in _ _ ?_) ?_
    | apply RegsIn.next ?_ (State.trapAction_in _ _ _) ?_
    | apply RegsIn.next ?_ (State.leaveTracking_in _ _) ?_
    | apply RegsIn.next ?_ (State.haltUnless_in _ _ ?_) ?_
    | split
    | decide
    | exact Fin.isLt _
    | omega
    | dsimp -zeta only

theorem execTurnWatchdogTrip_in (s : State) :
    RegsIn [.hopper, .events, .wdog, .online, .time, .ply, .brake, .mill, .viol, .log, .skein] s (settle s (execTurnWatchdogTrip s)) := by
  unfold execTurnWatchdogTrip
  with_reducible repeat' first
    | assumption
    | (extract_lets +onlyGivenNames z
       refine RegsIn.let z ?_ ?_
       subst z
       rotate_left
       clear_value z
       revert z
       intro y hy
       rotate_left)
    | exact RegsIn.rfl
    | refine RegsIn.iteO ?_ ?_ <;> intro hc
    | refine RegsIn.ite ?_ ?_ <;> intro hc
    | refine RegsIn.ok ?_
    | refine RegsIn.wr F.TURN_WDOG_tripped _ .wdog ?_ (of_decide_eq_true rfl) (of_decide_eq_true rfl) (of_decide_eq_true rfl) (of_decide_eq_true rfl)
    | refine RegsIn.inc F.TURN_WDOG_tripped .wdog ?_ (of_decide_eq_true rfl) (of_decide_eq_true rfl) (of_decide_eq_true rfl) (of_decide_eq_true rfl)
    | refine RegsIn.wr F.TURN_WDOG_trips _ .wdog ?_ (of_decide_eq_true rfl) (of_decide_eq_true rfl) (of_decide_eq_true rfl) (of_decide_eq_true rfl)
    | refine RegsIn.inc F.TURN_WDOG_trips .wdog ?_ (of_decide_eq_true rfl) (of_decide_eq_true rfl) (of_decide_eq_true rfl) (of_decide_eq_true rfl)
    | apply RegsIn.next ?_ (State.setRow_in _ _ _ ?_) ?_
    | apply RegsIn.next ?_ (State.fireGasp_in _ _) ?_
    | apply RegsIn.next ?_ (State.abdicate_in _ _) ?_
    | apply RegsIn.next ?_ (State.leaveTracking_in _ _) ?_
    | decide
    | exact Fin.isLt _
    | omega
    | dsimp -zeta only

theorem State.enterStop_in (s : State) (a1 : Nat) :
    RegsIn [.events, .run, .task, .viol] s (State.enterStop s a1) := by
  unfold State.enterStop
  with_reducible repeat' first
    | assumption
    | (extract_lets +onlyGivenNames z
       refine RegsIn.let z ?_ ?_
       subst z
       rotate_left
       clear_value z
       revert z
       intro y hy
       rotate_left)
    | (extract_lets +onlyGivenNames z; clear_value z; revert z; intro y)
    | exact RegsIn.rfl
    | refine RegsIn.ite ?_ ?_ <;> intro hc
    | refine RegsIn.wr F.TASK_RUN_run_state _ .run ?_ (of_decide_eq_true rfl) (of_decide_eq_true rfl) (of_decide_eq_true rfl) (of_decide_eq_true rfl)
    | apply RegsIn.next ?_ (State.haltTasks_in _) ?_
    | refine RegsIn.upd ?_
    | decide
    | exact Fin.isLt _
    | omega
    | dsimp -zeta only

theorem State.leaveStop_in (s : State) (a1 : Nat) :
    RegsIn [.events, .run, .task, .time, .brake, .viol] s (State.leaveStop s a1) := by
  unfold State.leaveStop
  with_reducible repeat' first
    | assumption
    | (extract_lets +onlyGivenNames z
       refine RegsIn.let z ?_ ?_
       subst z
       rotate_left
       clear_value z
       revert z
       intro y hy
       rotate_left)
    | (extract_lets +onlyGivenNames z; clear_value z; revert z; intro y)
    | exact RegsIn.rfl
    | refine RegsIn.ite ?_ ?_ <;> intro hc
    | (refine RegsIn.upTo _ _ ?_ ?_; rotate_left; intro y a ha hy; rotate_left)
    | (refine RegsIn.bitsSet _ _ _ ?_ ?_; rotate_left; intro y a ha hy; rotate_left)
    | (refine RegsIn.foldl _ _ ?_ ?_; rotate_left; intro y a ha hy; rotate_left)
    | refine RegsIn.wr F.TASK_RUN_run_state _ .run ?_ (of_decide_eq_true rfl) (of_decide_eq_true rfl) (of_decide_eq_true rfl) (of_decide_eq_true rfl)
    | refine RegsIn.wr (F.TASK_STATUS_overran _) _ .task ?_ (of_decide_eq_true rfl) (of_decide_eq_true rfl) (by simp only [F.TASK_STATUS_overran, Bank.range]; omega) (by simp only [F.TASK_STATUS_overran, Bank.range]; omega)
    | apply RegsIn.next ?_ (State.setTask_in _ _ _) ?_
    | apply RegsIn.next ?_ (State.setRow_in _ _ _ ?_) ?_
    | apply RegsIn.next ?_ (State.startTask_in _ _ _) ?_
    | refine RegsIn.upd ?_
    | decide
    | exact Fin.isLt _
    | omega
    | dsimp -zeta only

theorem execKeyEffectiveChange_in (s : State) :
    RegsIn [.events, .run, .key, .task, .time, .brake, .viol] s (settle s (execKeyEffectiveChange s)) := by
  unfold execKeyEffectiveChange
  with_reducible repeat' first
    | assumption
    | (extract_lets +onlyGivenNames z
       refine RegsIn.let z ?_ ?_
       subst z
       rotate_left
       clear_value z
       revert z
       intro y hy
       rotate_left)
    | (extract_lets +onlyGivenNames z; clear_value z; revert z; intro y)
    | exact RegsIn.rfl
    | refine RegsIn.iteO ?_ ?_ <;> intro hc
    | refine RegsIn.ite ?_ ?_ <;> intro hc
    | refine RegsIn.ok ?_
    | refine RegsIn.wr F.KEY_STATUS_effective _ .key ?_ (of_decide_eq_true rfl) (of_decide_eq_true rfl) (of_decide_eq_true rfl) (of_decide_eq_true rfl)
    | apply RegsIn.next ?_ (State.keyEvt_in _ _) ?_
    | apply RegsIn.next ?_ (State.enterStop_in _ _) ?_
    | apply RegsIn.next ?_ (State.leaveStop_in _ _) ?_
    | split
    | refine RegsIn.upd ?_
    | decide
    | exact Fin.isLt _
    | omega
    | dsimp -zeta only

theorem execKeyDisagree_in (s : State) :
    RegsIn [.events, .key, .viol] s (settle s (execKeyDisagree s)) := by
  unfold execKeyDisagree
  with_reducible repeat' first
    | assumption
    | exact RegsIn.rfl
    | refine RegsIn.iteO ?_ ?_ <;> intro hc
    | refine RegsIn.ite ?_ ?_ <;> intro hc
    | refine RegsIn.ok ?_
    | refine RegsIn.wr F.KEY_STATUS_disagree _ .key ?_ (of_decide_eq_true rfl) (of_decide_eq_true rfl) (of_decide_eq_true rfl) (of_decide_eq_true rfl)
    | apply RegsIn.next ?_ (State.keyEvt_in _ _) ?_
    | decide
    | exact Fin.isLt _
    | omega
    | dsimp -zeta only

theorem execRetainFlushStart_in (s : State) :
    RegsIn [] s (settle s (execRetainFlushStart s)) := by
  unfold execRetainFlushStart
  with_reducible repeat' first
    | assumption
    | exact RegsIn.rfl
    | refine RegsIn.ok ?_
    | apply RegsIn.next ?_ (State.startFlush_in _) ?_
    | decide
    | exact Fin.isLt _
    | omega
    | dsimp -zeta only

theorem execRetainFlushNow_in (s : State) :
    RegsIn [] s (settle s (execRetainFlushNow s)) := by
  unfold execRetainFlushNow
  with_reducible repeat' first
    | assumption
    | (extract_lets +onlyGivenNames z; clear_value z; revert z; intro y)
    | exact RegsIn.rfl
    | refine RegsIn.iteO ?_ ?_ <;> intro hc
    | refine RegsIn.ite ?_ ?_ <;> intro hc
    | refine RegsIn.ok ?_
    | refine RegsIn.upd ?_
    | decide
    | exact Fin.isLt _
    | omega
    | dsimp -zeta only

theorem execMillMapTaken_in (a0 : Fin 2) (a1 : Fin 64) (s : State) :
    RegsIn [] s (settle s (execMillMapTaken a0 a1 s)) := by
  unfold execMillMapTaken
  with_reducible repeat' first
    | assumption
    | (extract_lets +onlyGivenNames z
       refine RegsIn.let z ?_ ?_
       subst z
       rotate_left
       clear_value z
       revert z
       intro y hy
       rotate_left)
    | (extract_lets +onlyGivenNames z; clear_value z; revert z; intro y)
    | exact RegsIn.rfl
    | refine RegsIn.ok ?_
    | apply RegsIn.next ?_ (State.setMillBuf_in _ _ _ _) ?_
    | apply RegsIn.next ?_ (State.setCell_in _ _ _) ?_
    | apply RegsIn.next ?_ (State.barKey_in _ _ _) ?_
    | split
    | refine RegsIn.upd ?_
    | decide
    | exact Fin.isLt _
    | omega
    | dsimp -zeta only

theorem execMillMapStale_in (a0 : Fin 2) (a1 : Fin 64) (s : State) :
    RegsIn [] s (settle s (execMillMapStale a0 a1 s)) := by
  unfold execMillMapStale
  with_reducible repeat' first
    | assumption
    | (extract_lets +onlyGivenNames z; clear_value z; revert z; intro y)
    | exact RegsIn.rfl
    | refine RegsIn.iteO ?_ ?_ <;> intro hc
    | refine RegsIn.ite ?_ ?_ <;> intro hc
    | refine RegsIn.ok ?_
    | apply RegsIn.next ?_ (State.setCell_in _ _ _) ?_
    | decide
    | exact Fin.isLt _
    | omega
    | dsimp -zeta only

theorem execMbCmdRestart_in (a0 : Fin 2) (s : State) :
    RegsIn [.mill] s (settle s (execMbCmdRestart a0 s)) := by
  unfold execMbCmdRestart
  with_reducible repeat' first
    | assumption
    | exact RegsIn.rfl
    | refine RegsIn.iteO ?_ ?_ <;> intro hc
    | refine RegsIn.ite ?_ ?_ <;> intro hc
    | refine RegsIn.ok ?_
    | refine RegsIn.wr (F.MB_STATUS_recovering _) _ .mill ?_ (of_decide_eq_true rfl) (of_decide_eq_true rfl) (by simp only [F.MB_STATUS_recovering, Bank.range]; omega) (by simp only [F.MB_STATUS_recovering, Bank.range]; omega)
    | decide
    | exact Fin.isLt _
    | omega
    | dsimp -zeta only

theorem execMbCmdUnmute_in (a0 : Fin 2) (s : State) :
    RegsIn [.mill] s (settle s (execMbCmdUnmute a0 s)) := by
  unfold execMbCmdUnmute
  with_reducible repeat' first
    | assumption
    | (extract_lets +onlyGivenNames z
       refine RegsIn.let z ?_ ?_
       subst z
       rotate_left
       clear_value z
       revert z
       intro y hy
       rotate_left)
    | (extract_lets +onlyGivenNames z; clear_value z; revert z; intro y)
    | exact RegsIn.rfl
    | refine RegsIn.iteO ?_ ?_ <;> intro hc
    | refine RegsIn.ite ?_ ?_ <;> intro hc
    | refine RegsIn.ok ?_
    | (refine RegsIn.upTo _ _ ?_ ?_; rotate_left; intro y a ha hy; rotate_left)
    | (refine RegsIn.bitsSet _ _ _ ?_ ?_; rotate_left; intro y a ha hy; rotate_left)
    | (refine RegsIn.foldl _ _ ?_ ?_; rotate_left; intro y a ha hy; rotate_left)
    | refine RegsIn.wr (F.MB_BUF_STATUS_clash_muted _ _) _ .mill ?_ (of_decide_eq_true rfl) (of_decide_eq_true rfl) (by simp only [F.MB_BUF_STATUS_clash_muted, Bank.range]; omega) (by simp only [F.MB_BUF_STATUS_clash_muted, Bank.range]; omega)
    | apply RegsIn.next ?_ (State.setMillCh_in _ _ _) ?_
    | decide
    | exact Fin.isLt _
    | omega
    | dsimp -zeta only

theorem execMbCmdClearCnt_in (a0 : Fin 2) (s : State) :
    RegsIn [.mill] s (settle s (execMbCmdClearCnt a0 s)) := by
  unfold execMbCmdClearCnt
  with_reducible repeat' first
    | assumption
    | exact RegsIn.rfl
    | refine RegsIn.iteO ?_ ?_ <;> intro hc
    | refine RegsIn.ite ?_ ?_ <;> intro hc
    | refine RegsIn.ok ?_
    | (refine RegsIn.upTo _ _ ?_ ?_; rotate_left; intro y a ha hy; rotate_left)
    | (refine RegsIn.bitsSet _ _ _ ?_ ?_; rotate_left; intro y a ha hy; rotate_left)
    | (refine RegsIn.foldl _ _ ?_ ?_; rotate_left; intro y a ha hy; rotate_left)
    | refine RegsIn.wr (F.MB_CNT_count _ _) _ .mill ?_ (of_decide_eq_true rfl) (of_decide_eq_true rfl) (by simp only [F.MB_CNT_count, Bank.range]; omega) (by simp only [F.MB_CNT_count, Bank.range]; omega)
    | decide
    | exact Fin.isLt _
    | omega
    | dsimp -zeta only

theorem execMillWindowStart_in (a0 : Fin 2) (a1 : Fin 64) (s : State) :
    RegsIn [] s (settle s (execMillWindowStart a0 a1 s)) := by
  unfold execMillWindowStart
  with_reducible repeat' first
    | assumption
    | (extract_lets +onlyGivenNames z
       refine RegsIn.let z ?_ ?_
       subst z
       rotate_left
       clear_value z
       revert z
       intro y hy
       rotate_left)
    | (extract_lets +onlyGivenNames z; clear_value z; revert z; intro y)
    | exact RegsIn.rfl
    | refine RegsIn.iteO ?_ ?_ <;> intro hc
    | refine RegsIn.ite ?_ ?_ <;> intro hc
    | refine RegsIn.ok ?_
    | apply RegsIn.next ?_ (State.setMillCh_in _ _ _) ?_
    | apply RegsIn.next ?_ (State.setMillBuf_in _ _ _ _) ?_
    | decide
    | exact Fin.isLt _
    | omega
    | dsimp -zeta only

theorem execArbitratingWindowStart_in (a0 : Fin 2) (s : State) :
    RegsIn [] s (settle s (execArbitratingWindowStart a0 s)) := by
  unfold execArbitratingWindowStart
  with_reducible repeat' first
    | assumption
    | (extract_lets +onlyGivenNames z; clear_value z; revert z; intro y)
    | exact RegsIn.rfl
    | refine RegsIn.iteO ?_ ?_ <;> intro hc
    | refine RegsIn.ite ?_ ?_ <;> intro hc
    | refine RegsIn.ok ?_
    | apply RegsIn.next ?_ (State.setMillCh_in _ _ _) ?_
    | decide
    | exact Fin.isLt _
    | omega
    | dsimp -zeta only

theorem execArbitratingWindowEnd_in (a0 : Fin 2) (s : State) :
    RegsIn [] s (settle s (execArbitratingWindowEnd a0 s)) := by
  unfold execArbitratingWindowEnd
  with_reducible repeat' first
    | assumption
    | (extract_lets +onlyGivenNames z; clear_value z; revert z; intro y)
    | exact RegsIn.rfl
    | refine RegsIn.iteO ?_ ?_ <;> intro hc
    | refine RegsIn.ite ?_ ?_ <;> intro hc
    | refine RegsIn.ok ?_
    | apply RegsIn.next ?_ (State.setMillCh_in _ _ _) ?_
    | decide
    | exact Fin.isLt _
    | omega
    | dsimp -zeta only

theorem execMillDominantTimeout_in (a0 : Fin 2) (s : State) :
    RegsIn [.events, .mill, .viol] s (settle s (execMillDominantTimeout a0 s)) := by
  unfold execMillDominantTimeout
  with_reducible repeat' first
    | assumption
    | exact RegsIn.rfl
    | refine RegsIn.iteO ?_ ?_ <;> intro hc
    | refine RegsIn.ite ?_ ?_ <;> intro hc
    | refine RegsIn.ok ?_
    | apply RegsIn.next ?_ (State.millEvt_in _ _ _ ?_) ?_
    | decide
    | exact Fin.isLt _
    | omega
    | dsimp -zeta only

theorem execMillSendPending_in (a0 : Fin 2) (a1 : Fin 64) (s : State) :
    RegsIn [.events, .mill, .viol] s (settle s (execMillSendPending a0 a1 s)) := by
  unfold execMillSendPending
  with_reducible repeat' first
    | assumption
    | (extract_lets +onlyGivenNames z
       refine RegsIn.let z ?_ ?_
       subst z
       rotate_left
       clear_value z
       revert z
       intro y hy
       rotate_left)
    | (extract_lets +onlyGivenNames z; clear_value z; revert z; intro y)
    | exact RegsIn.rfl
    | refine RegsIn.ok ?_
    | (refine RegsIn.upTo _ _ ?_ ?_; rotate_left; intro y a ha hy; rotate_left)
    | (refine RegsIn.bitsSet _ _ _ ?_ ?_; rotate_left; intro y a ha hy; rotate_left)
    | (refine RegsIn.foldl _ _ ?_ ?_; rotate_left; intro y a ha hy; rotate_left)
    | apply RegsIn.next ?_ (State.millEnter_in _ _ _ _ ?_ ?_) ?_
    | apply RegsIn.next ?_ (State.barKey_in _ _ _) ?_
    | apply RegsIn.next ?_ (State.finish_in _ _ _ _ _ _) ?_
    | split
    | refine RegsIn.upd ?_
    | decide
    | exact Fin.isLt _
    | omega
    | dsimp -zeta only

theorem execPartnerFrameNotShadow_in (a0 : BitVec 28) (a1 : Bool) (a2 : Bool) (s : State) :
    RegsIn [.hopper, .events, .wdog, .online, .time, .ply, .brake, .mill, .viol, .log, .skein] s (settle s (execPartnerFrameNotShadow a0 a1 a2 s)) := by
  unfold execPartnerFrameNotShadow
  with_reducible repeat' first
    | assumption
    | (extract_lets +onlyGivenNames z
       refine RegsIn.let z ?_ ?_
       subst z
       rotate_left
       clear_value z
       revert z
       intro y hy
       rotate_left)
    | (extract_lets +onlyGivenNames z; clear_value z; revert z; intro y)
    | exact RegsIn.rfl
    | refine RegsIn.iteO ?_ ?_ <;> intro hc
    | refine RegsIn.ite ?_ ?_ <;> intro hc
    | refine RegsIn.ok ?_
    | apply RegsIn.next ?_ (State.abdicate_in _ _) ?_
    | apply RegsIn.next ?_ (State.plyEvt_in _ _ ?_) ?_
    | refine RegsIn.upd ?_
    | decide
    | exact Fin.isLt _
    | omega
    | dsimp -zeta only

theorem execEchoRspReceived_in (a0 : Fin 16) (a1 : Fin 16) (a2 : BitVec 8) (a3 : BitVec 32) (a4 : BitVec 16) (s : State) :
    RegsIn [.skein] s (settle s (execEchoRspReceived a0 a1 a2 a3 a4 s)) := by
  unfold execEchoRspReceived
  with_reducible repeat' first
    | assumption
    | (extract_lets +onlyGivenNames z
       refine RegsIn.let z ?_ ?_
       subst z
       rotate_left
       clear_value z
       revert z
       intro y hy
       rotate_left)
    | (extract_lets +onlyGivenNames z; clear_value z; revert z; intro y)
    | exact RegsIn.rfl
    | refine RegsIn.iteO ?_ ?_ <;> intro hc
    | refine RegsIn.ite ?_ ?_ <;> intro hc
    | refine RegsIn.ok ?_
    | refine RegsIn.wr (F.SK_STN_RTT_rtt _ _) _ .skein ?_ (of_decide_eq_true rfl) (of_decide_eq_true rfl) (by simp only [F.SK_STN_RTT_rtt, Bank.range]; omega) (by simp only [F.SK_STN_RTT_rtt, Bank.range]; omega)
    | apply RegsIn.next ?_ (State.setPort_in _ _ _) ?_
    | apply RegsIn.next ?_ (State.setPosn_in _ _ _) ?_
    | decide
    | exact Fin.isLt _
    | omega
    | dsimp -zeta only

theorem execBudgetComparison_in (a0 : Fin 16) (s : State) :
    RegsIn [.events, .viol, .skein] s (settle s (execBudgetComparison a0 s)) := by
  unfold execBudgetComparison
  with_reducible repeat' first
    | assumption
    | (extract_lets +onlyGivenNames z
       refine RegsIn.let z ?_ ?_
       subst z
       rotate_left
       clear_value z
       revert z
       intro y hy
       rotate_left)
    | (extract_lets +onlyGivenNames z; clear_value z; revert z; intro y)
    | exact RegsIn.rfl
    | refine RegsIn.iteO ?_ ?_ <;> intro hc
    | refine RegsIn.ite ?_ ?_ <;> intro hc
    | refine RegsIn.ok ?_
    | refine RegsIn.wrb (F.SK_STATUS_over_budget _) _ .skein ?_ (of_decide_eq_true rfl) (of_decide_eq_true rfl) (by simp only [F.SK_STATUS_over_budget, Bank.range]; omega) (by simp only [F.SK_STATUS_over_budget, Bank.range]; omega)
    | apply RegsIn.next ?_ (State.skEvt_in _ _ _ ?_) ?_
    | decide
    | exact Fin.isLt _
    | omega
    | dsimp -zeta only

theorem execSkClearCnt_in (a0 : Fin 16) (s : State) :
    RegsIn [.skein] s (settle s (execSkClearCnt a0 s)) := by
  unfold execSkClearCnt
  with_reducible repeat' first
    | assumption
    | exact RegsIn.rfl
    | refine RegsIn.iteO ?_ ?_ <;> intro hc
    | refine RegsIn.ite ?_ ?_ <;> intro hc
    | refine RegsIn.ok ?_
    | (refine RegsIn.upTo _ _ ?_ ?_; rotate_left; intro y a ha hy; rotate_left)
    | (refine RegsIn.bitsSet _ _ _ ?_ ?_; rotate_left; intro y a ha hy; rotate_left)
    | (refine RegsIn.foldl _ _ ?_ ?_; rotate_left; intro y a ha hy; rotate_left)
    | refine RegsIn.wr (F.SK_CNT_count _ _) _ .skein ?_ (of_decide_eq_true rfl) (of_decide_eq_true rfl) (by simp only [F.SK_CNT_count, Bank.range]; omega) (by simp only [F.SK_CNT_count, Bank.range]; omega)
    | decide
    | exact Fin.isLt _
    | omega
    | dsimp -zeta only

theorem execTraceForce_in (a0 : Fin 8) (s : State) :
    RegsIn [] s (settle s (execTraceForce a0 s)) := by
  unfold execTraceForce
  with_reducible repeat' first
    | assumption
    | (extract_lets +onlyGivenNames z; clear_value z; revert z; intro y)
    | exact RegsIn.rfl
    | refine RegsIn.iteO ?_ ?_ <;> intro hc
    | refine RegsIn.ite ?_ ?_ <;> intro hc
    | refine RegsIn.ok ?_
    | apply RegsIn.next ?_ (State.setGrp_in _ _ _) ?_
    | decide
    | exact Fin.isLt _
    | omega
    | dsimp -zeta only

theorem State.hostState_in (s : State) :
    RegsIn [.events] s (State.hostState s) := by
  unfold State.hostState
  with_reducible repeat' first
    | assumption
    | exact RegsIn.rfl
    | refine RegsIn.ite ?_ ?_ <;> intro hc
    | refine RegsIn.wr F.HOST_STATUS_state _ .events ?_ (of_decide_eq_true rfl) (of_decide_eq_true rfl) (of_decide_eq_true rfl) (of_decide_eq_true rfl)
    | decide
    | exact Fin.isLt _
    | omega
    | dsimp -zeta only

theorem State.loseRecord_in (s : State) :
    RegsIn [.events, .viol, .log] s (State.loseRecord s) := by
  unfold State.loseRecord
  with_reducible repeat' first
    | assumption
    | exact RegsIn.rfl
    | refine RegsIn.inc F.REC_LOST_count .log ?_ (of_decide_eq_true rfl) (of_decide_eq_true rfl) (of_decide_eq_true rfl) (of_decide_eq_true rfl)
    | apply RegsIn.next ?_ (State.recEvt_in _ _) ?_
    | decide
    | exact Fin.isLt _
    | omega
    | dsimp -zeta only

theorem State.writeRecord_in (s : State) (a1 : RecEntry) :
    RegsIn [.events, .viol, .log] s (State.writeRecord s a1) := by
  unfold State.writeRecord
  with_reducible repeat' first
    | assumption
    | (extract_lets +onlyGivenNames z
       refine RegsIn.let z ?_ ?_
       subst z
       rotate_left
       clear_value z
       revert z
       intro y hy
       rotate_left)
    | (extract_lets +onlyGivenNames z; clear_value z; revert z; intro y)
    | exact RegsIn.rfl
    | refine RegsIn.ite ?_ ?_ <;> intro hc
    | refine RegsIn.wr F.REC_LAST_SEAL_seal _ .log ?_ (of_decide_eq_true rfl) (of_decide_eq_true rfl) (of_decide_eq_true rfl) (of_decide_eq_true rfl)
    | refine RegsIn.wrb F.REC_LAST_SEAL_seal _ .log ?_ (of_decide_eq_true rfl) (of_decide_eq_true rfl) (of_decide_eq_true rfl) (of_decide_eq_true rfl)
    | refine RegsIn.wr F.REC_STATUS_full _ .log ?_ (of_decide_eq_true rfl) (of_decide_eq_true rfl) (of_decide_eq_true rfl) (of_decide_eq_true rfl)
    | refine RegsIn.wrb F.REC_STATUS_full _ .log ?_ (of_decide_eq_true rfl) (of_decide_eq_true rfl) (of_decide_eq_true rfl) (of_decide_eq_true rfl)
    | refine RegsIn.wr F.REC_STATUS_pointer _ .log ?_ (of_decide_eq_true rfl) (of_decide_eq_true rfl) (of_decide_eq_true rfl) (of_decide_eq_true rfl)
    | refine RegsIn.wrb F.REC_STATUS_pointer _ .log ?_ (of_decide_eq_true rfl) (of_decide_eq_true rfl) (of_decide_eq_true rfl) (of_decide_eq_true rfl)
    | refine RegsIn.wr F.REC_STATUS_reserve _ .log ?_ (of_decide_eq_true rfl) (of_decide_eq_true rfl) (of_decide_eq_true rfl) (of_decide_eq_true rfl)
    | refine RegsIn.wrb F.REC_STATUS_reserve _ .log ?_ (of_decide_eq_true rfl) (of_decide_eq_true rfl) (of_decide_eq_true rfl) (of_decide_eq_true rfl)
    | apply RegsIn.next ?_ (State.loseRecord_in _) ?_
    | apply RegsIn.next ?_ (State.recEvt_in _ _) ?_
    | refine RegsIn.upd ?_
    | decide
    | exact Fin.isLt _
    | omega
    | dsimp -zeta only

theorem State.writeHead_in (s : State) :
    RegsIn [.events, .viol, .log] s (State.writeHead s) := by
  unfold State.writeHead
  with_reducible repeat' first
    | assumption
    | (extract_lets +onlyGivenNames z
       refine RegsIn.let z ?_ ?_
       subst z
       rotate_left
       clear_value z
       revert z
       intro y hy
       rotate_left)
    | (extract_lets +onlyGivenNames z; clear_value z; revert z; intro y)
    | exact RegsIn.rfl
    | refine RegsIn.wr F.REC_STATUS_queued _ .log ?_ (of_decide_eq_true rfl) (of_decide_eq_true rfl) (of_decide_eq_true rfl) (of_decide_eq_true rfl)
    | apply RegsIn.next ?_ (State.writeRecord_in _ _) ?_
    | split
    | refine RegsIn.upd ?_
    | decide
    | exact Fin.isLt _
    | omega
    | dsimp -zeta only

theorem execRecManual_in (s : State) :
    RegsIn [] s (settle s (execRecManual s)) := by
  unfold execRecManual
  with_reducible repeat' first
    | assumption
    | exact RegsIn.rfl
    | refine RegsIn.iteO ?_ ?_ <;> intro hc
    | refine RegsIn.ite ?_ ?_ <;> intro hc
    | refine RegsIn.ok ?_
    | apply RegsIn.next ?_ (State.fireTrigger_in _ _ _ _ _) ?_
    | decide
    | exact Fin.isLt _
    | omega
    | dsimp -zeta only

theorem execRecSnapshot_in (s : State) :
    RegsIn [.events, .viol, .log] s (settle s (execRecSnapshot s)) := by
  unfold execRecSnapshot
  with_reducible repeat' first
    | assumption
    | (extract_lets +onlyGivenNames z
       refine RegsIn.let z ?_ ?_
       subst z
       rotate_left
       clear_value z
       revert z
       intro y hy
       rotate_left)
    | (extract_lets +onlyGivenNames z; clear_value z; revert z; intro y)
    | exact RegsIn.rfl
    | refine RegsIn.iteO ?_ ?_ <;> intro hc
    | refine RegsIn.ite ?_ ?_ <;> intro hc
    | refine RegsIn.ok ?_
    | (refine RegsIn.upTo _ _ ?_ ?_; rotate_left; intro y a ha hy; rotate_left)
    | (refine RegsIn.bitsSet _ _ _ ?_ ?_; rotate_left; intro y a ha hy; rotate_left)
    | (refine RegsIn.foldl _ _ ?_ ?_; rotate_left; intro y a ha hy; rotate_left)
    | apply RegsIn.next ?_ (State.takeRecord_in _ _ _) ?_
    | refine RegsIn.upd ?_
    | decide
    | exact Fin.isLt _
    | omega
    | dsimp -zeta only

theorem execRecRecordWritten_in (s : State) :
    RegsIn [.events, .viol, .log] s (settle s (execRecRecordWritten s)) := by
  unfold execRecRecordWritten
  with_reducible repeat' first
    | assumption
    | exact RegsIn.rfl
    | refine RegsIn.iteO ?_ ?_ <;> intro hc
    | refine RegsIn.ite ?_ ?_ <;> intro hc
    | refine RegsIn.ok ?_
    | apply RegsIn.next ?_ (State.writeHead_in _) ?_
    | decide
    | exact Fin.isLt _
    | omega
    | dsimp -zeta only

theorem execRecHoldoffEnd_in (a0 : Fin 64) (s : State) :
    RegsIn [] s (settle s (execRecHoldoffEnd a0 s)) := by
  unfold execRecHoldoffEnd
  with_reducible repeat' first
    | assumption
    | (extract_lets +onlyGivenNames z; clear_value z; revert z; intro y)
    | exact RegsIn.rfl
    | refine RegsIn.ok ?_
    | refine RegsIn.upd ?_
    | decide
    | exact Fin.isLt _
    | omega
    | dsimp -zeta only

theorem State.sendState_in (s : State) (a1 : Nat) (a2 : Nat) (a3 : Nat) (a4 : List Nat) :
    RegsIn [] s (State.sendState s a1 a2 a3 a4) := by
  unfold State.sendState
  with_reducible repeat' first
    | assumption
    | exact RegsIn.rfl
    | apply RegsIn.next ?_ (State.sendPly_in _ _ _ _) ?_
    | decide
    | exact Fin.isLt _
    | omega
    | dsimp -zeta only

theorem State.fwReport_in (s : State) (a1 : Nat) (a2 : Nat) :
    RegsIn [] s (State.fwReport s a1 a2) := by
  unfold State.fwReport
  with_reducible repeat' first
    | assumption
    | exact RegsIn.rfl
    | apply RegsIn.next ?_ (State.sendState_in _ _ _ _ _) ?_
    | decide
    | exact Fin.isLt _
    | omega
    | dsimp -zeta only

theorem State.fwNote_in (s : State) (a1 : Nat) :
    RegsIn [.fw] s (State.fwNote s a1) := by
  unfold State.fwNote
  with_reducible repeat' first
    | assumption
    | exact RegsIn.rfl
    | refine RegsIn.wr F.FW_STATUS_last_result _ .fw ?_ (of_decide_eq_true rfl) (of_decide_eq_true rfl) (of_decide_eq_true rfl) (of_decide_eq_true rfl)
    | refine RegsIn.wr F.FW_STATUS_last_status _ .fw ?_ (of_decide_eq_true rfl) (of_decide_eq_true rfl) (of_decide_eq_true rfl) (of_decide_eq_true rfl)
    | decide
    | exact Fin.isLt _
    | omega
    | dsimp -zeta only

theorem State.storeBuild_in (s : State) (a1 : FwBuild) :
    RegsIn [] s (State.storeBuild s a1) := by
  unfold State.storeBuild
  with_reducible repeat' first
    | assumption
    | (extract_lets +onlyGivenNames z; clear_value z; revert z; intro y)
    | exact RegsIn.rfl
    | refine RegsIn.upd ?_
    | decide
    | exact Fin.isLt _
    | omega
    | dsimp -zeta only

theorem State.endActivation_in (s : State) :
    RegsIn [.fw] s (State.endActivation s) := by
  unfold State.endActivation
  with_reducible repeat' first
    | assumption
    | (extract_lets +onlyGivenNames z
       refine RegsIn.let z ?_ ?_
       subst z
       rotate_left
       clear_value z
       revert z
       intro y hy
       rotate_left)
    | (extract_lets +onlyGivenNames z; clear_value z; revert z; intro y)
    | exact RegsIn.rfl
    | refine RegsIn.ite ?_ ?_ <;> intro hc
    | refine RegsIn.wr F.FW_STATUS_state _ .fw ?_ (of_decide_eq_true rfl) (of_decide_eq_true rfl) (of_decide_eq_true rfl) (of_decide_eq_true rfl)
    | refine RegsIn.upd ?_
    | decide
    | exact Fin.isLt _
    | omega
    | dsimp -zeta only

theorem State.confirm_in (s : State) :
    RegsIn [.events, .viol, .fw] s (State.confirm s) := by
  unfold State.confirm
  with_reducible repeat' first
    | assumption
    | (extract_lets +onlyGivenNames z
       refine RegsIn.let z ?_ ?_
       subst z
       rotate_left
       clear_value z
       revert z
       intro y hy
       rotate_left)
    | exact RegsIn.rfl
    | refine RegsIn.ite ?_ ?_ <;> intro hc
    | refine RegsIn.wr F.FW_STATUS_confirm _ .fw ?_ (of_decide_eq_true rfl) (of_decide_eq_true rfl) (of_decide_eq_true rfl) (of_decide_eq_true rfl)
    | refine RegsIn.wr F.FW_STATUS_key_floor _ .fw ?_ (of_decide_eq_true rfl) (of_decide_eq_true rfl) (of_decide_eq_true rfl) (of_decide_eq_true rfl)
    | refine RegsIn.wr F.FW_STATUS_last_result _ .fw ?_ (of_decide_eq_true rfl) (of_decide_eq_true rfl) (of_decide_eq_true rfl) (of_decide_eq_true rfl)
    | refine RegsIn.wr F.FW_STATUS_state _ .fw ?_ (of_decide_eq_true rfl) (of_decide_eq_true rfl) (of_decide_eq_true rfl) (of_decide_eq_true rfl)
    | apply RegsIn.next ?_ (State.fwEvt_in _ _) ?_
    | apply RegsIn.next ?_ (State.fwReport_in _ _ _) ?_
    | decide
    | exact Fin.isLt _
    | omega
    | dsimp -zeta only

theorem execHeartbeatSend_in (s : State) :
    RegsIn [] s (settle s (execHeartbeatSend s)) := by
  unfold execHeartbeatSend
  with_reducible repeat' first
    | assumption
    | (extract_lets +onlyGivenNames z
       refine RegsIn.let z ?_ ?_
       subst z
       rotate_left
       clear_value z
       revert z
       intro y hy
       rotate_left)
    | (extract_lets +onlyGivenNames z; clear_value z; revert z; intro y)
    | exact RegsIn.rfl
    | refine RegsIn.iteO ?_ ?_ <;> intro hc
    | refine RegsIn.ite ?_ ?_ <;> intro hc
    | refine RegsIn.ok ?_
    | apply RegsIn.next ?_ (State.emit_in _ _) ?_
    | refine RegsIn.upd ?_
    | decide
    | exact Fin.isLt _
    | omega
    | dsimp -zeta only

theorem execHeartbeatReceived_in (a0 : Byte) (a1 : Byte) (s : State) :
    RegsIn [.events, .ply, .viol] s (settle s (execHeartbeatReceived a0 a1 s)) := by
  unfold execHeartbeatReceived
  with_reducible repeat' first
    | assumption
    | (extract_lets +onlyGivenNames z
       refine RegsIn.let z ?_ ?_
       subst z
       rotate_left
       clear_value z
       revert z
       intro y hy
       rotate_left)
    | (extract_lets +onlyGivenNames z; clear_value z; revert z; intro y)
    | exact RegsIn.rfl
    | refine RegsIn.iteO ?_ ?_ <;> intro hc
    | refine RegsIn.ite ?_ ?_ <;> intro hc
    | refine RegsIn.ok ?_
    | refine RegsIn.wr F.PLY_STATUS_abd_in _ .ply ?_ (of_decide_eq_true rfl) (of_decide_eq_true rfl) (of_decide_eq_true rfl) (of_decide_eq_true rfl)
    | apply RegsIn.next ?_ (State.plyEvt_in _ _ ?_) ?_
    | refine RegsIn.upd ?_
    | decide
    | exact Fin.isLt _
    | omega
    | dsimp -zeta only

theorem execHeartbeatMissed_in (s : State) :
    RegsIn [.hopper, .events, .run, .task, .online, .time, .ply, .brake, .mill, .viol, .skein] s (settle s (execHeartbeatMissed s)) := by
  unfold execHeartbeatMissed
  with_reducible repeat' first
    | assumption
    | (extract_lets +onlyGivenNames z
       refine RegsIn.let z ?_ ?_
       subst z
       rotate_left
       clear_value z
       revert z
       intro y hy
       rotate_left)
    | (extract_lets +onlyGivenNames z; clear_value z; revert z; intro y)
    | exact RegsIn.rfl
    | refine RegsIn.iteO ?_ ?_ <;> intro hc
    | refine RegsIn.ite ?_ ?_ <;> intro hc
    | refine RegsIn.ok ?_
    | apply RegsIn.next ?_ (State.judgePartner_in _) ?_
    | refine RegsIn.upd ?_
    | decide
    | exact Fin.isLt _
    | omega
    | dsimp -zeta only

theorem execOwnHeartbeatLoss_in (s : State) :
    RegsIn [.hopper, .events, .wdog, .online, .time, .ply, .brake, .mill, .viol, .log, .skein] s (settle s (execOwnHeartbeatLoss s)) := by
  unfold execOwnHeartbeatLoss
  with_reducible repeat' first
    | assumption
    | exact RegsIn.rfl
    | refine RegsIn.ok ?_
    | apply RegsIn.next ?_ (State.abdicate_in _ _) ?_
    | decide
    | exact Fin.isLt _
    | omega
    | dsimp -zeta only

theorem execAbdicateLineAsserted_in (s : State) :
    RegsIn [.hopper, .events, .run, .task, .online, .time, .ply, .brake, .mill, .viol, .power, .skein] s (settle s (execAbdicateLineAsserted s)) := by
  unfold execAbdicateLineAsserted
  with_reducible repeat' first
    | assumption
    | exact RegsIn.rfl
    | refine RegsIn.ok ?_
    | refine RegsIn.wr F.PLY_STATUS_abd_in _ .ply ?_ (of_decide_eq_true rfl) (of_decide_eq_true rfl) (of_decide_eq_true rfl) (of_decide_eq_true rfl)
    | apply RegsIn.next ?_ (State.wake_in _ _) ?_
    | apply RegsIn.next ?_ (State.judgePartner_in _) ?_
    | decide
    | exact Fin.isLt _
    | omega
    | dsimp -zeta only

theorem execTokenClassChange_in (a0 : TokClass) (s : State) :
    RegsIn [.hopper, .events, .run, .task, .online, .time, .ply, .brake, .mill, .viol, .skein] s (settle s (execTokenClassChange a0 s)) := by
  unfold execTokenClassChange
  with_reducible repeat' first
    | assumption
    | (extract_lets +onlyGivenNames z
       refine RegsIn.let z ?_ ?_
       subst z
       rotate_left
       clear_value z
       revert z
       intro y hy
       rotate_left)
    | (extract_lets +onlyGivenNames z; clear_value z; revert z; intro y)
    | exact RegsIn.rfl
    | refine RegsIn.iteO ?_ ?_ <;> intro hc
    | refine RegsIn.ite ?_ ?_ <;> intro hc
    | refine RegsIn.ok ?_
    | refine RegsIn.wr F.PLY_STATUS_tok_in _ .ply ?_ (of_decide_eq_true rfl) (of_decide_eq_true rfl) (of_decide_eq_true rfl) (of_decide_eq_true rfl)
    | apply RegsIn.next ?_ (State.queueHeartbeat_in _) ?_
    | apply RegsIn.next ?_ (State.setMuted_in _ _) ?_
    | apply RegsIn.next ?_ (State.row19_in _) ?_
    | apply RegsIn.next ?_ (State.judgePartner_in _) ?_
    | apply RegsIn.next ?_ (State.loneIfLost_in _) ?_
    | split
    | refine RegsIn.upd ?_
    | decide
    | exact Fin.isLt _
    | omega
    | dsimp -zeta only

theorem State.lateLatches_in (s : State) (a1 : Nat) :
    RegsIn [] s (State.lateLatches s a1) := by
  unfold State.lateLatches
  with_reducible repeat' first
    | assumption
    | (extract_lets +onlyGivenNames z; clear_value z; revert z; intro y)
    | exact RegsIn.rfl
    | (refine RegsIn.upTo _ _ ?_ ?_; rotate_left; intro y a ha hy; rotate_left)
    | (refine RegsIn.bitsSet _ _ _ ?_ ?_; rotate_left; intro y a ha hy; rotate_left)
    | (refine RegsIn.foldl _ _ ?_ ?_; rotate_left; intro y a ha hy; rotate_left)
    | refine RegsIn.upd ?_
    | decide
    | exact Fin.isLt _
    | omega
    | dsimp -zeta only

theorem State.catchUp_in (s : State) (a1 : Nat) (a2 : Nat) :
    RegsIn [.ply] s (State.catchUp s a1 a2) := by
  unfold State.catchUp
  with_reducible repeat' first
    | assumption
    | (extract_lets +onlyGivenNames z
       refine RegsIn.let z ?_ ?_
       subst z
       rotate_left
       clear_value z
       revert z
       intro y hy
       rotate_left)
    | (extract_lets +onlyGivenNames z; clear_value z; revert z; intro y)
    | exact RegsIn.rfl
    | refine RegsIn.ite ?_ ?_ <;> intro hc
    | refine RegsIn.wr F.PLY_LAST_DELAY_ns _ .ply ?_ (of_decide_eq_true rfl) (of_decide_eq_true rfl) (of_decide_eq_true rfl) (of_decide_eq_true rfl)
    | apply RegsIn.next ?_ (State.sendBrake_in _ _) ?_
    | apply RegsIn.next ?_ (State.launchSkein_in _ _ _ _ _ _ _ _ _) ?_
    | apply RegsIn.next ?_ (State.lateLatches_in _ _) ?_
    | split
    | decide
    | exact Fin.isLt _
    | omega
    | dsimp -zeta only

theorem execCatchUpLaunch_in (s : State) :
    RegsIn [.ply] s (settle s (execCatchUpLaunch s)) := by
  unfold execCatchUpLaunch
  with_reducible repeat' first
    | assumption
    | (extract_lets +onlyGivenNames z
       refine RegsIn.let z ?_ ?_
       subst z
       rotate_left
       clear_value z
       revert z
       intro y hy
       rotate_left)
    | (extract_lets +onlyGivenNames z; clear_value z; revert z; intro y)
    | exact RegsIn.rfl
    | refine RegsIn.iteO ?_ ?_ <;> intro hc
    | refine RegsIn.ite ?_ ?_ <;> intro hc
    | refine RegsIn.ok ?_
    | (refine RegsIn.upTo _ _ ?_ ?_; rotate_left; intro y a ha hy; rotate_left)
    | (refine RegsIn.bitsSet _ _ _ ?_ ?_; rotate_left; intro y a ha hy; rotate_left)
    | (refine RegsIn.foldl _ _ ?_ ?_; rotate_left; intro y a ha hy; rotate_left)
    | apply RegsIn.next ?_ (State.catchUp_in _ _ _) ?_
    | refine RegsIn.upd ?_
    | decide
    | exact Fin.isLt _
    | omega
    | dsimp -zeta only

theorem execReleasedReceived_in (a0 : PlyHdr) (a1 : Fin 256) (a2 : Bytes) (s : State) :
    RegsIn [.ply] s (settle s (execReleasedReceived a0 a1 a2 s)) := by
  unfold execReleasedReceived
  with_reducible repeat' first
    | assumption
    | (extract_lets +onlyGivenNames z; clear_value z; revert z; intro y)
    | exact RegsIn.rfl
    | refine RegsIn.iteO ?_ ?_ <;> intro hc
    | refine RegsIn.ite ?_ ?_ <;> intro hc
    | refine RegsIn.ok ?_
    | refine RegsIn.ite1 ?_ ?_ <;> intro hc
    | (rename (_ : State × _) = _ => heq
       refine RegsIn.pair heq ?_ ?_ <;> clear heq
       rotate_left
       intro hy
       rotate_left)
    | apply RegsIn.next ?_ (State.plyTake_in _ _ _) ?_
    | apply RegsIn.next ?_ (State.sendBrake_in _ _) ?_
    | apply RegsIn.next ?_ (State.launchSkein_in _ _ _ _ _ _ _ _ _) ?_
    | split
    | decide
    | exact Fin.isLt _
    | omega
    | dsimp -zeta only

theorem execReachReceived_in (a0 : PlyHdr) (a1 : List (BitVec 16)) (s : State) :
    RegsIn [.ply, .skein] s (settle s (execReachReceived a0 a1 s)) := by
  unfold execReachReceived
  with_reducible repeat' first
    | assumption
    | (extract_lets +onlyGivenNames z
       refine RegsIn.let z ?_ ?_
       subst z
       rotate_left
       clear_value z
       revert z
       intro y hy
       rotate_left)
    | (extract_lets +onlyGivenNames z; clear_value z; revert z; intro y)
    | exact RegsIn.rfl
    | refine RegsIn.ok ?_
    | (rename (_ : State × _) = _ => heq
       refine RegsIn.pair heq ?_ ?_ <;> clear heq
       rotate_left
       intro hy
       rotate_left)
    | apply RegsIn.next ?_ (State.plyTake_in _ _ _) ?_
    | apply RegsIn.next ?_ (State.compareReach_in _ _) ?_
    | split
    | refine RegsIn.upd ?_
    | decide
    | exact Fin.isLt _
    | omega
    | dsimp -zeta only

theorem State.digestDone_in (s : State) (a1 : Nat) :
    RegsIn [] s (State.digestDone s a1) := by
  unfold State.digestDone
  with_reducible repeat' first
    | assumption
    | (extract_lets +onlyGivenNames z; clear_value z; revert z; intro y)
    | exact RegsIn.rfl
    | refine RegsIn.upd ?_
    | decide
    | exact Fin.isLt _
    | omega
    | dsimp -zeta only

theorem State.digestMatch_in (s : State) (a1 : Nat) (a2 : Digest) :
    RegsIn [.hopper, .events, .online, .time, .ply, .brake, .viol, .skein] s (State.digestMatch s a1 a2) := by
  unfold State.digestMatch
  with_reducible repeat' first
    | assumption
    | (extract_lets +onlyGivenNames z
       refine RegsIn.let z ?_ ?_
       subst z
       rotate_left
       clear_value z
       revert z
       intro y hy
       rotate_left)
    | (extract_lets +onlyGivenNames z; clear_value z; revert z; intro y)
    | exact RegsIn.rfl
    | refine RegsIn.ite ?_ ?_ <;> intro hc
    | refine RegsIn.wr F.PLY_JOIN_phase _ .ply ?_ (of_decide_eq_true rfl) (of_decide_eq_true rfl) (of_decide_eq_true rfl) (of_decide_eq_true rfl)
    | refine RegsIn.wrb F.PLY_JOIN_phase _ .ply ?_ (of_decide_eq_true rfl) (of_decide_eq_true rfl) (of_decide_eq_true rfl) (of_decide_eq_true rfl)
    | refine RegsIn.wr F.PLY_STATUS_diverged _ .ply ?_ (of_decide_eq_true rfl) (of_decide_eq_true rfl) (of_decide_eq_true rfl) (of_decide_eq_true rfl)
    | refine RegsIn.wrb F.PLY_STATUS_diverged _ .ply ?_ (of_decide_eq_true rfl) (of_decide_eq_true rfl) (of_decide_eq_true rfl) (of_decide_eq_true rfl)
    | apply RegsIn.next ?_ (State.plyEvt_in _ _ ?_) ?_
    | apply RegsIn.next ?_ (State.setPlyState_in _ _) ?_
    | refine RegsIn.upd ?_
    | decide
    | exact Fin.isLt _
    | omega
    | dsimp -zeta only

theorem State.digestMismatch_in (s : State) :
    RegsIn [.hopper, .events, .online, .time, .ply, .brake, .viol, .skein] s (State.digestMismatch s) := by
  unfold State.digestMismatch
  with_reducible repeat' first
    | assumption
    | (extract_lets +onlyGivenNames z
       refine RegsIn.let z ?_ ?_
       subst z
       rotate_left
       clear_value z
       revert z
       intro y hy
       rotate_left)
    | (extract_lets +onlyGivenNames z; clear_value z; revert z; intro y)
    | exact RegsIn.rfl
    | refine RegsIn.ite ?_ ?_ <;> intro hc
    | refine RegsIn.inc F.PLY_COUNTS_mismatches .ply ?_ (of_decide_eq_true rfl) (of_decide_eq_true rfl) (of_decide_eq_true rfl) (of_decide_eq_true rfl)
    | apply RegsIn.next ?_ (State.leaveTracking_in _ _) ?_
    | apply RegsIn.next ?_ (State.plyEvt_in _ _ ?_) ?_
    | refine RegsIn.upd ?_
    | decide
    | exact Fin.isLt _
    | omega
    | dsimp -zeta only

theorem State.compareDigest_in (s : State) (a1 : Nat) :
    RegsIn [.hopper, .events, .online, .time, .ply, .brake, .viol, .skein] s (State.compareDigest s a1) := by
  unfold State.compareDigest
  with_reducible repeat' first
    | assumption
    | (extract_lets +onlyGivenNames z
       refine RegsIn.let z ?_ ?_
       subst z
       rotate_left
       clear_value z
       revert z
       intro y hy
       rotate_left)
    | (extract_lets +onlyGivenNames z; clear_value z; revert z; intro y)
    | exact RegsIn.rfl
    | refine RegsIn.ite ?_ ?_ <;> intro hc
    | apply RegsIn.next ?_ (State.digestMatch_in _ _ _) ?_
    | apply RegsIn.next ?_ (State.digestMismatch_in _) ?_
    | apply RegsIn.next ?_ (State.digestDone_in _ _) ?_
    | split
    | decide
    | exact Fin.isLt _
    | omega
    | dsimp -zeta only

theorem execDigestReceived_in (a0 : PlyHdr) (a1 : Digest) (s : State) :
    RegsIn [.hopper, .events, .online, .time, .ply, .brake, .viol, .skein] s (settle s (execDigestReceived a0 a1 s)) := by
  unfold execDigestReceived
  with_reducible repeat' first
    | assumption
    | (extract_lets +onlyGivenNames z
       refine RegsIn.let z ?_ ?_
       subst z
       rotate_left
       clear_value z
       revert z
       intro y hy
       rotate_left)
    | (extract_lets +onlyGivenNames z; clear_value z; revert z; intro y)
    | exact RegsIn.rfl
    | refine RegsIn.iteO ?_ ?_ <;> intro hc
    | refine RegsIn.ite ?_ ?_ <;> intro hc
    | refine RegsIn.ok ?_
    | refine RegsIn.ite1 ?_ ?_ <;> intro hc
    | (rename (_ : State × _) = _ => heq
       refine RegsIn.pair heq ?_ ?_ <;> clear heq
       rotate_left
       intro hy
       rotate_left)
    | apply RegsIn.next ?_ (State.plyTake_in _ _ _) ?_
    | apply RegsIn.next ?_ (State.compareDigest_in _ _) ?_
    | split
    | refine RegsIn.upd ?_
    | decide
    | exact Fin.isLt _
    | omega
    | dsimp -zeta only

theorem execDigestCompute_in (s : State) :
    RegsIn [.hopper, .events, .online, .time, .ply, .brake, .viol, .skein] s (settle s (execDigestCompute s)) := by
  unfold execDigestCompute
  with_reducible repeat' first
    | assumption
    | (extract_lets +onlyGivenNames z
       refine RegsIn.let z ?_ ?_
       subst z
       rotate_left
       clear_value z
       revert z
       intro y hy
       rotate_left)
    | (extract_lets +onlyGivenNames z; clear_value z; revert z; intro y)
    | exact RegsIn.rfl
    | refine RegsIn.iteO ?_ ?_ <;> intro hc
    | refine RegsIn.ite ?_ ?_ <;> intro hc
    | refine RegsIn.ok ?_
    | apply RegsIn.next ?_ (State.sendPly_in _ _ _ _) ?_
    | apply RegsIn.next ?_ (State.compareDigest_in _ _) ?_
    | split
    | refine RegsIn.upd ?_
    | decide
    | exact Fin.isLt _
    | omega
    | dsimp -zeta only

theorem State.noteHealth_in (s : State) (a1 : Bytes) : RegsIn [.key, .ply] s (State.noteHealth s a1) := by
  unfold State.noteHealth
  with_reducible repeat' first
    | assumption
    | (extract_lets +onlyGivenNames z
       refine RegsIn.let z ?_ ?_
       subst z
       rotate_left
       clear_value z
       revert z
       intro y hy
       rotate_left)
    | (extract_lets +onlyGivenNames z; clear_value z; revert z; intro y)
    | exact RegsIn.rfl
    | refine RegsIn.ite ?_ ?_ <;> intro hc
    | refine RegsIn.wr F.KEY_STATUS_disagree _ .key ?_ (of_decide_eq_true rfl) (of_decide_eq_true rfl) (of_decide_eq_true rfl) (of_decide_eq_true rfl)
    | refine RegsIn.wr F.KEY_STATUS_partner _ .key ?_ (of_decide_eq_true rfl) (of_decide_eq_true rfl) (of_decide_eq_true rfl) (of_decide_eq_true rfl)
    | refine RegsIn.wr F.KEY_STATUS_partner_valid _ .key ?_ (of_decide_eq_true rfl) (of_decide_eq_true rfl) (of_decide_eq_true rfl) (of_decide_eq_true rfl)
    | refine RegsIn.add F.PLY_COUNTS_mismatches _ .ply ?_ (of_decide_eq_true rfl) (of_decide_eq_true rfl) (of_decide_eq_true rfl) (of_decide_eq_true rfl)
    | refine RegsIn.wr F.PLY_STATUS_partner_state _ .ply ?_ (of_decide_eq_true rfl) (of_decide_eq_true rfl) (of_decide_eq_true rfl) (of_decide_eq_true rfl)
    | refine RegsIn.upd ?_
    | decide
    | exact Fin.isLt _
    | omega
    | dsimp -zeta only

theorem State.dropCapture_in (s : State) : RegsIn [] s (State.dropCapture s) := by
  unfold State.dropCapture
  exact RegsIn.upd RegsIn.rfl

theorem execHealthReceived_in (a0 : PlyHdr) (a1 : Bytes) (s : State) :
    RegsIn [.hopper, .events, .key, .retain, .task, .online, .time, .ply, .brake, .mill, .viol, .skein] s (settle s (execHealthReceived a0 a1 s)) := by
  unfold execHealthReceived
  with_reducible repeat' first
    | assumption
    | (extract_lets +onlyGivenNames z
       refine RegsIn.let z ?_ ?_
       subst z
       rotate_left
       clear_value z
       revert z
       intro y hy
       rotate_left)
    | (extract_lets +onlyGivenNames z; clear_value z; revert z; intro y)
    | exact RegsIn.rfl
    | refine RegsIn.ite ?_ ?_ <;> intro hc
    | refine RegsIn.ok ?_
    | refine RegsIn.ite1 ?_ ?_ <;> intro hc
    | (rename (_ : State × _) = _ => heq
       refine RegsIn.pair heq ?_ ?_ <;> clear heq
       rotate_left
       intro hy
       rotate_left)
    | apply RegsIn.next ?_ (State.plyTake_in _ _ _) ?_
    | apply RegsIn.next ?_ (State.noteHealth_in _ _) ?_
    | apply RegsIn.next ?_ (State.dropCapture_in _) ?_
    | apply RegsIn.next ?_ (State.setPlyState_in _ _) ?_
    | apply RegsIn.next ?_ (State.row19_in _) ?_
    | apply RegsIn.next ?_ (State.decideRole_in _) ?_
    | split
    | decide
    | exact Fin.isLt _
    | omega
    | dsimp -zeta only

theorem execStartingTimeout_in (s : State) :
    RegsIn [.hopper, .events, .retain, .task, .online, .time, .ply, .brake, .mill, .viol, .skein] s (settle s (execStartingTimeout s)) := by
  unfold execStartingTimeout
  with_reducible repeat' first
    | assumption
    | (extract_lets +onlyGivenNames z; clear_value z; revert z; intro y)
    | exact RegsIn.rfl
    | refine RegsIn.iteO ?_ ?_ <;> intro hc
    | refine RegsIn.ite ?_ ?_ <;> intro hc
    | refine RegsIn.ok ?_
    | apply RegsIn.next ?_ (State.becomeLone_in _) ?_
    | decide
    | exact Fin.isLt _
    | omega
    | dsimp -zeta only

theorem execPlyLinkUp_in (s : State) :
    RegsIn [.hopper, .events, .retain, .task, .online, .time, .ply, .brake, .mill, .viol, .skein] s (settle s (execPlyLinkUp s)) := by
  unfold execPlyLinkUp
  with_reducible repeat' first
    | assumption
    | (extract_lets +onlyGivenNames z
       refine RegsIn.let z ?_ ?_
       subst z
       rotate_left
       clear_value z
       revert z
       intro y hy
       rotate_left)
    | (extract_lets +onlyGivenNames z; clear_value z; revert z; intro y)
    | exact RegsIn.rfl
    | refine RegsIn.iteO ?_ ?_ <;> intro hc
    | refine RegsIn.ite ?_ ?_ <;> intro hc
    | refine RegsIn.ok ?_
    | refine RegsIn.wr F.PLY_STATUS_link _ .ply ?_ (of_decide_eq_true rfl) (of_decide_eq_true rfl) (of_decide_eq_true rfl) (of_decide_eq_true rfl)
    | apply RegsIn.next ?_ (State.decideRole_in _) ?_
    | refine RegsIn.upd ?_
    | decide
    | exact Fin.isLt _
    | omega
    | dsimp -zeta only

theorem execPlyLinkDown_in (a0 : Bool) (s : State) :
    RegsIn [.hopper, .events, .key, .online, .time, .ply, .brake, .viol, .skein] s (settle s (execPlyLinkDown a0 s)) := by
  unfold execPlyLinkDown
  with_reducible repeat' first
    | assumption
    | (extract_lets +onlyGivenNames z
       refine RegsIn.let z ?_ ?_
       subst z
       rotate_left
       clear_value z
       revert z
       intro y hy
       rotate_left)
    | exact RegsIn.rfl
    | refine RegsIn.iteO ?_ ?_ <;> intro hc
    | refine RegsIn.ite ?_ ?_ <;> intro hc
    | refine RegsIn.ok ?_
    | refine RegsIn.wr F.KEY_STATUS_partner_valid _ .key ?_ (of_decide_eq_true rfl) (of_decide_eq_true rfl) (of_decide_eq_true rfl) (of_decide_eq_true rfl)
    | refine RegsIn.wr F.PLY_STATUS_link _ .ply ?_ (of_decide_eq_true rfl) (of_decide_eq_true rfl) (of_decide_eq_true rfl) (of_decide_eq_true rfl)
    | apply RegsIn.next ?_ (State.leaveTracking_in _ _) ?_
    | apply RegsIn.next ?_ (State.loneIfLost_in _) ?_
    | apply RegsIn.next ?_ (State.failJoin_in _ _) ?_
    | decide
    | exact Fin.isLt _
    | omega
    | dsimp -zeta only

theorem execAutoRejoin_in (s : State) :
    RegsIn [.hopper, .events, .online, .time, .ply, .brake, .viol, .skein] s (settle s (execAutoRejoin s)) := by
  unfold execAutoRejoin
  with_reducible repeat' first
    | assumption
    | (extract_lets +onlyGivenNames z
       refine RegsIn.let z ?_ ?_
       subst z
       rotate_left
       clear_value z
       revert z
       intro y hy
       rotate_left)
    | (extract_lets +onlyGivenNames z; clear_value z; revert z; intro y)
    | exact RegsIn.rfl
    | refine RegsIn.iteO ?_ ?_ <;> intro hc
    | refine RegsIn.ite ?_ ?_ <;> intro hc
    | refine RegsIn.ok ?_
    | apply RegsIn.next ?_ (State.beginJoin_in _) ?_
    | refine RegsIn.upd ?_
    | decide
    | exact Fin.isLt _
    | omega
    | dsimp -zeta only

theorem execPlyCmdRejoin_in (s : State) :
    RegsIn [.hopper, .events, .online, .time, .ply, .brake, .viol, .skein] s (settle s (execPlyCmdRejoin s)) := by
  unfold execPlyCmdRejoin
  with_reducible repeat' first
    | assumption
    | (extract_lets +onlyGivenNames z
       refine RegsIn.let z ?_ ?_
       subst z
       rotate_left
       clear_value z
       revert z
       intro y hy
       rotate_left)
    | (extract_lets +onlyGivenNames z; clear_value z; revert z; intro y)
    | exact RegsIn.rfl
    | refine RegsIn.iteO ?_ ?_ <;> intro hc
    | refine RegsIn.ite ?_ ?_ <;> intro hc
    | refine RegsIn.ok ?_
    | refine RegsIn.wr F.PLY_STATUS_cmd_refused _ .ply ?_ (of_decide_eq_true rfl) (of_decide_eq_true rfl) (of_decide_eq_true rfl) (of_decide_eq_true rfl)
    | apply RegsIn.next ?_ (State.beginJoin_in _) ?_
    | refine RegsIn.upd ?_
    | decide
    | exact Fin.isLt _
    | omega
    | dsimp -zeta only

theorem execPlyCmdLeave_in (s : State) :
    RegsIn [.hopper, .events, .online, .time, .ply, .brake, .viol, .skein] s (settle s (execPlyCmdLeave s)) := by
  unfold execPlyCmdLeave
  with_reducible repeat' first
    | assumption
    | exact RegsIn.rfl
    | refine RegsIn.iteO ?_ ?_ <;> intro hc
    | refine RegsIn.ite ?_ ?_ <;> intro hc
    | refine RegsIn.ok ?_
    | refine RegsIn.wr F.PLY_STATUS_cmd_refused _ .ply ?_ (of_decide_eq_true rfl) (of_decide_eq_true rfl) (of_decide_eq_true rfl) (of_decide_eq_true rfl)
    | apply RegsIn.next ?_ (State.leaveTracking_in _ _) ?_
    | decide
    | exact Fin.isLt _
    | omega
    | dsimp -zeta only

theorem execPlyCmdHandover_in (s : State) :
    RegsIn [.ply] s (settle s (execPlyCmdHandover s)) := by
  unfold execPlyCmdHandover
  with_reducible repeat' first
    | assumption
    | exact RegsIn.rfl
    | refine RegsIn.iteO ?_ ?_ <;> intro hc
    | refine RegsIn.ite ?_ ?_ <;> intro hc
    | refine RegsIn.ok ?_
    | refine RegsIn.wr F.PLY_STATUS_cmd_refused _ .ply ?_ (of_decide_eq_true rfl) (of_decide_eq_true rfl) (of_decide_eq_true rfl) (of_decide_eq_true rfl)
    | apply RegsIn.next ?_ (State.sendOrder_in _ _ _ _ _) ?_
    | decide
    | exact Fin.isLt _
    | omega
    | dsimp -zeta only

theorem execRevert_in (s : State) :
    RegsIn [] s (settle s (execRevert s)) := by
  unfold execRevert
  with_reducible repeat' first
    | assumption
    | (extract_lets +onlyGivenNames z; clear_value z; revert z; intro y)
    | exact RegsIn.rfl
    | refine RegsIn.iteO ?_ ?_ <;> intro hc
    | refine RegsIn.ite ?_ ?_ <;> intro hc
    | refine RegsIn.ok ?_
    | apply RegsIn.next ?_ (State.sendOrder_in _ _ _ _ _) ?_
    | split
    | decide
    | exact Fin.isLt _
    | omega
    | dsimp -zeta only

theorem execJoinTimeout_in (s : State) :
    RegsIn [.hopper, .events, .online, .time, .ply, .brake, .viol, .skein] s (settle s (execJoinTimeout s)) := by
  unfold execJoinTimeout
  with_reducible repeat' first
    | assumption
    | exact RegsIn.rfl
    | refine RegsIn.ok ?_
    | apply RegsIn.next ?_ (State.failJoin_in _ _) ?_
    | decide
    | exact Fin.isLt _
    | omega
    | dsimp -zeta only

theorem execJoinCaptureBoundary_in (s : State) :
    RegsIn [] s (settle s (execJoinCaptureBoundary s)) := by
  unfold execJoinCaptureBoundary
  with_reducible repeat' first
    | assumption
    | (extract_lets +onlyGivenNames z
       refine RegsIn.let z ?_ ?_
       subst z
       rotate_left
       clear_value z
       revert z
       intro y hy
       rotate_left)
    | (extract_lets +onlyGivenNames z; clear_value z; revert z; intro y)
    | exact RegsIn.rfl
    | refine RegsIn.ok ?_
    | split
    | refine RegsIn.upd ?_
    | decide
    | exact Fin.isLt _
    | omega
    | dsimp -zeta only

theorem execReplayCaughtUp_in (s : State) :
    RegsIn [.ply] s (settle s (execReplayCaughtUp s)) := by
  unfold execReplayCaughtUp
  with_reducible repeat' first
    | assumption
    | (extract_lets +onlyGivenNames z
       refine RegsIn.let z ?_ ?_
       subst z
       rotate_left
       clear_value z
       revert z
       intro y hy
       rotate_left)
    | (extract_lets +onlyGivenNames z; clear_value z; revert z; intro y)
    | exact RegsIn.rfl
    | refine RegsIn.iteO ?_ ?_ <;> intro hc
    | refine RegsIn.ite ?_ ?_ <;> intro hc
    | refine RegsIn.ok ?_
    | refine RegsIn.wr F.PLY_JOIN_backlog _ .ply ?_ (of_decide_eq_true rfl) (of_decide_eq_true rfl) (of_decide_eq_true rfl) (of_decide_eq_true rfl)
    | refine RegsIn.wr F.PLY_JOIN_phase _ .ply ?_ (of_decide_eq_true rfl) (of_decide_eq_true rfl) (of_decide_eq_true rfl) (of_decide_eq_true rfl)
    | apply RegsIn.next ?_ (State.takeRecorded_in _ _) ?_
    | refine RegsIn.upd ?_
    | decide
    | exact Fin.isLt _
    | omega
    | dsimp -zeta only

theorem execReplayBehind_in (s : State) :
    RegsIn [.hopper, .events, .online, .time, .ply, .brake, .viol, .skein] s (settle s (execReplayBehind s)) := by
  unfold execReplayBehind
  with_reducible repeat' first
    | assumption
    | (extract_lets +onlyGivenNames z; clear_value z; revert z; intro y)
    | exact RegsIn.rfl
    | refine RegsIn.iteO ?_ ?_ <;> intro hc
    | refine RegsIn.ite ?_ ?_ <;> intro hc
    | refine RegsIn.ok ?_
    | apply RegsIn.next ?_ (State.failJoin_in _ _) ?_
    | refine RegsIn.upd ?_
    | decide
    | exact Fin.isLt _
    | omega
    | dsimp -zeta only

theorem execDivergedTimeout_in (s : State) :
    RegsIn [.hopper, .events, .online, .time, .ply, .brake, .viol, .skein] s (settle s (execDivergedTimeout s)) := by
  unfold execDivergedTimeout
  with_reducible repeat' first
    | assumption
    | (extract_lets +onlyGivenNames z; clear_value z; revert z; intro y)
    | exact RegsIn.rfl
    | refine RegsIn.iteO ?_ ?_ <;> intro hc
    | refine RegsIn.ite ?_ ?_ <;> intro hc
    | refine RegsIn.ok ?_
    | apply RegsIn.next ?_ (State.leaveTracking_in _ _) ?_
    | decide
    | exact Fin.isLt _
    | omega
    | dsimp -zeta only

theorem execMillHeartbeatSend_in (s : State) :
    RegsIn [] s (settle s (execMillHeartbeatSend s)) := by
  unfold execMillHeartbeatSend
  with_reducible repeat' first
    | assumption
    | exact RegsIn.rfl
    | refine RegsIn.iteO ?_ ?_ <;> intro hc
    | refine RegsIn.ite ?_ ?_ <;> intro hc
    | refine RegsIn.ok ?_
    | apply RegsIn.next ?_ (State.queueHeartbeat_in _) ?_
    | decide
    | exact Fin.isLt _
    | omega
    | dsimp -zeta only

theorem execMillHeartbeatAbsent_in (s : State) :
    RegsIn [.hopper, .events, .run, .task, .online, .time, .ply, .brake, .mill, .viol, .skein] s (settle s (execMillHeartbeatAbsent s)) := by
  unfold execMillHeartbeatAbsent
  with_reducible repeat' first
    | assumption
    | exact RegsIn.rfl
    | refine RegsIn.ok ?_
    | refine RegsIn.wr F.PLY_STATUS_mill_hb_seen _ .ply ?_ (of_decide_eq_true rfl) (of_decide_eq_true rfl) (of_decide_eq_true rfl) (of_decide_eq_true rfl)
    | apply RegsIn.next ?_ (State.judgePartner_in _) ?_
    | decide
    | exact Fin.isLt _
    | omega
    | dsimp -zeta only

theorem execBrakeInputAssert_in (a0 : Fin 8) (s : State) :
    RegsIn [.events, .time, .brake, .viol] s (settle s (execBrakeInputAssert a0 s)) := by
  unfold execBrakeInputAssert
  with_reducible repeat' first
    | assumption
    | exact RegsIn.rfl
    | refine RegsIn.iteO ?_ ?_ <;> intro hc
    | refine RegsIn.ite ?_ ?_ <;> intro hc
    | refine RegsIn.ok ?_
    | apply RegsIn.next ?_ (State.setRow_in _ _ _ ?_) ?_
    | decide
    | exact Fin.isLt _
    | omega
    | dsimp -zeta only

theorem execBrakeInputRelease_in (a0 : Fin 8) (s : State) :
    RegsIn [.events, .time, .brake, .viol] s (settle s (execBrakeInputRelease a0 s)) := by
  unfold execBrakeInputRelease
  with_reducible repeat' first
    | assumption
    | exact RegsIn.rfl
    | refine RegsIn.iteO ?_ ?_ <;> intro hc
    | refine RegsIn.ite ?_ ?_ <;> intro hc
    | refine RegsIn.ok ?_
    | apply RegsIn.next ?_ (State.setRow_in _ _ _ ?_) ?_
    | decide
    | exact Fin.isLt _
    | omega
    | dsimp -zeta only

theorem execBrakeFrameRefresh_in (s : State) :
    RegsIn [] s (settle s (execBrakeFrameRefresh s)) := by
  unfold execBrakeFrameRefresh
  with_reducible repeat' first
    | assumption
    | exact RegsIn.rfl
    | refine RegsIn.iteO ?_ ?_ <;> intro hc
    | refine RegsIn.ite ?_ ?_ <;> intro hc
    | refine RegsIn.ok ?_
    | (refine RegsIn.upTo _ _ ?_ ?_; rotate_left; intro y a ha hy; rotate_left)
    | (refine RegsIn.bitsSet _ _ _ ?_ ?_; rotate_left; intro y a ha hy; rotate_left)
    | (refine RegsIn.foldl _ _ ?_ ?_; rotate_left; intro y a ha hy; rotate_left)
    | apply RegsIn.next ?_ (State.sendBrakes_in _ _) ?_
    | decide
    | exact Fin.isLt _
    | omega
    | dsimp -zeta only

theorem execBrkClearWrite_in (a0 : Word32) (s : State) :
    RegsIn [.events, .brake, .viol] s (settle s (execBrkClearWrite a0 s)) := by
  unfold execBrkClearWrite
  with_reducible repeat' first
    | assumption
    | (extract_lets +onlyGivenNames z
       refine RegsIn.let z ?_ ?_
       subst z
       rotate_left
       clear_value z
       revert z
       intro y hy
       rotate_left)
    | (extract_lets +onlyGivenNames z; clear_value z; revert z; intro y)
    | exact RegsIn.rfl
    | refine RegsIn.iteO ?_ ?_ <;> intro hc
    | refine RegsIn.ite ?_ ?_ <;> intro hc
    | refine RegsIn.ok ?_
    | (refine RegsIn.upTo _ _ ?_ ?_; rotate_left; intro y a ha hy; rotate_left)
    | (refine RegsIn.bitsSet _ _ _ ?_ ?_; rotate_left; intro y a ha hy; rotate_left)
    | (refine RegsIn.foldl _ _ ?_ ?_; rotate_left; intro y a ha hy; rotate_left)
    | apply RegsIn.next ?_ (State.evalMatrix_in _) ?_
    | refine RegsIn.upd ?_
    | decide
    | exact Fin.isLt _
    | omega
    | dsimp -zeta only

theorem execBrkSoftWrite_in (a0 : Word32) (s : State) :
    RegsIn [.brake] s (settle s (execBrkSoftWrite a0 s)) := by
  unfold execBrkSoftWrite
  with_reducible repeat' first
    | assumption
    | (extract_lets +onlyGivenNames z
       refine RegsIn.let z ?_ ?_
       subst z
       rotate_left
       clear_value z
       revert z
       intro y hy
       rotate_left)
    | (extract_lets +onlyGivenNames z; clear_value z; revert z; intro y)
    | exact RegsIn.rfl
    | refine RegsIn.iteO ?_ ?_ <;> intro hc
    | refine RegsIn.ite ?_ ?_ <;> intro hc
    | refine RegsIn.ok ?_
    | refine RegsIn.wr F.BRK_SOFT_soft _ .brake ?_ (of_decide_eq_true rfl) (of_decide_eq_true rfl) (of_decide_eq_true rfl) (of_decide_eq_true rfl)
    | apply RegsIn.next ?_ (State.mirror_in _ _ _) ?_
    | refine RegsIn.upd ?_
    | decide
    | exact Fin.isLt _
    | omega
    | dsimp -zeta only

theorem State.applySoft_in (s : State) (a1 : Nat) :
    RegsIn [.events, .time, .brake, .viol] s (State.applySoft s a1) := by
  unfold State.applySoft
  with_reducible repeat' first
    | assumption
    | (extract_lets +onlyGivenNames z
       refine RegsIn.let z ?_ ?_
       subst z
       rotate_left
       clear_value z
       revert z
       intro y hy
       rotate_left)
    | (extract_lets +onlyGivenNames z; clear_value z; revert z; intro y)
    | exact RegsIn.rfl
    | refine RegsIn.ite ?_ ?_ <;> intro hc
    | (refine RegsIn.upTo _ _ ?_ ?_; rotate_left; intro y a ha hy; rotate_left)
    | (refine RegsIn.bitsSet _ _ _ ?_ ?_; rotate_left; intro y a ha hy; rotate_left)
    | (refine RegsIn.foldl _ _ ?_ ?_; rotate_left; intro y a ha hy; rotate_left)
    | refine RegsIn.wr F.BRK_SOFT_soft _ .brake ?_ (of_decide_eq_true rfl) (of_decide_eq_true rfl) (of_decide_eq_true rfl) (of_decide_eq_true rfl)
    | apply RegsIn.next ?_ (State.setRow_in _ _ _ ?_) ?_
    | refine RegsIn.upd ?_
    | decide
    | exact Fin.isLt _
    | omega
    | dsimp -zeta only

theorem execSoftBrakeApply_in (s : State) :
    RegsIn [.events, .time, .brake, .viol] s (settle s (execSoftBrakeApply s)) := by
  unfold execSoftBrakeApply
  with_reducible repeat' first
    | assumption
    | (extract_lets +onlyGivenNames z
       refine RegsIn.let z ?_ ?_
       subst z
       rotate_left
       clear_value z
       revert z
       intro y hy
       rotate_left)
    | (extract_lets +onlyGivenNames z; clear_value z; revert z; intro y)
    | exact RegsIn.rfl
    | refine RegsIn.ok ?_
    | (refine RegsIn.upTo _ _ ?_ ?_; rotate_left; intro y a ha hy; rotate_left)
    | (refine RegsIn.bitsSet _ _ _ ?_ ?_; rotate_left; intro y a ha hy; rotate_left)
    | (refine RegsIn.foldl _ _ ?_ ?_; rotate_left; intro y a ha hy; rotate_left)
    | apply RegsIn.next ?_ (State.applySoft_in _ _) ?_
    | refine RegsIn.upd ?_
    | decide
    | exact Fin.isLt _
    | omega
    | dsimp -zeta only

theorem execBrkLockWrite_in (a0 : Word32) (s : State) :
    RegsIn [.brake] s (settle s (execBrkLockWrite a0 s)) := by
  unfold execBrkLockWrite
  with_reducible repeat' first
    | assumption
    | exact RegsIn.rfl
    | refine RegsIn.iteO ?_ ?_ <;> intro hc
    | refine RegsIn.ite ?_ ?_ <;> intro hc
    | refine RegsIn.ok ?_
    | refine RegsIn.wr F.BRK_LOCK_lock _ .brake ?_ (of_decide_eq_true rfl) (of_decide_eq_true rfl) (of_decide_eq_true rfl) (of_decide_eq_true rfl)
    | decide
    | exact Fin.isLt _
    | omega
    | dsimp -zeta only

theorem execBrkFirstClearWrite_in (a0 : Word32) (s : State) :
    RegsIn [.brake] s (settle s (execBrkFirstClearWrite a0 s)) := by
  unfold execBrkFirstClearWrite
  with_reducible repeat' first
    | assumption
    | exact RegsIn.rfl
    | refine RegsIn.iteO ?_ ?_ <;> intro hc
    | refine RegsIn.ite ?_ ?_ <;> intro hc
    | refine RegsIn.ok ?_
    | refine RegsIn.wr F.BRK_FIRST_row _ .brake ?_ (of_decide_eq_true rfl) (of_decide_eq_true rfl) (of_decide_eq_true rfl) (of_decide_eq_true rfl)
    | refine RegsIn.wr F.BRK_FIRST_valid _ .brake ?_ (of_decide_eq_true rfl) (of_decide_eq_true rfl) (of_decide_eq_true rfl) (of_decide_eq_true rfl)
    | decide
    | exact Fin.isLt _
    | omega
    | dsimp -zeta only

theorem execEjectorClosed_in (s : State) :
    RegsIn [.hopper, .events, .retain, .task, .online, .time, .ply, .brake, .mill, .viol, .skein] s (settle s (execEjectorClosed s)) := by
  unfold execEjectorClosed
  with_reducible repeat' first
    | assumption
    | (extract_lets +onlyGivenNames z
       refine RegsIn.let z ?_ ?_
       subst z
       rotate_left
       clear_value z
       revert z
       intro y hy
       rotate_left)
    | (extract_lets +onlyGivenNames z; clear_value z; revert z; intro y)
    | exact RegsIn.rfl
    | refine RegsIn.iteO ?_ ?_ <;> intro hc
    | refine RegsIn.ite ?_ ?_ <;> intro hc
    | refine RegsIn.ok ?_
    | apply RegsIn.next ?_ (State.decideRole_in _) ?_
    | apply RegsIn.next ?_ (State.setRow_in _ _ _ ?_) ?_
    | refine RegsIn.upd ?_
    | decide
    | exact Fin.isLt _
    | omega
    | dsimp -zeta only

theorem execCommitImageWritten_in (s : State) :
    RegsIn [.hopper] s (settle s (execCommitImageWritten s)) := by
  unfold execCommitImageWritten
  with_reducible repeat' first
    | assumption
    | (extract_lets +onlyGivenNames z
       refine RegsIn.let z ?_ ?_
       subst z
       rotate_left
       clear_value z
       revert z
       intro y hy
       rotate_left)
    | (extract_lets +onlyGivenNames z; clear_value z; revert z; intro y)
    | exact RegsIn.rfl
    | refine RegsIn.iteO ?_ ?_ <;> intro hc
    | refine RegsIn.ite ?_ ?_ <;> intro hc
    | refine RegsIn.ok ?_
    | apply RegsIn.next ?_ (State.hopState_in _) ?_
    | split
    | refine RegsIn.upd ?_
    | decide
    | exact Fin.isLt _
    | omega
    | dsimp -zeta only

theorem execFwBuildDone_in (s : State) :
    RegsIn [.events, .viol, .fw] s (settle s (execFwBuildDone s)) := by
  unfold execFwBuildDone
  with_reducible repeat' first
    | assumption
    | (extract_lets +onlyGivenNames z
       refine RegsIn.let z ?_ ?_
       subst z
       rotate_left
       clear_value z
       revert z
       intro y hy
       rotate_left)
    | exact RegsIn.rfl
    | refine RegsIn.iteO ?_ ?_ <;> intro hc
    | refine RegsIn.ite ?_ ?_ <;> intro hc
    | refine RegsIn.ok ?_
    | refine RegsIn.wr F.FW_STATUS_state _ .fw ?_ (of_decide_eq_true rfl) (of_decide_eq_true rfl) (of_decide_eq_true rfl) (of_decide_eq_true rfl)
    | apply RegsIn.next ?_ (State.fwEvt_in _ _) ?_
    | apply RegsIn.next ?_ (State.storeBuild_in _ _) ?_
    | apply RegsIn.next ?_ (State.fwReport_in _ _ _) ?_
    | split
    | decide
    | exact Fin.isLt _
    | omega
    | dsimp -zeta only

theorem State.switchBanks_in (s : State) :
    RegsIn [.events, .viol, .fw] s (State.switchBanks s) := by
  unfold State.switchBanks
  with_reducible repeat' first
    | assumption
    | (extract_lets +onlyGivenNames z
       refine RegsIn.let z ?_ ?_
       subst z
       rotate_left
       clear_value z
       revert z
       intro y hy
       rotate_left)
    | (extract_lets +onlyGivenNames z; clear_value z; revert z; intro y)
    | exact RegsIn.rfl
    | refine RegsIn.ite ?_ ?_ <;> intro hc
    | refine RegsIn.wr F.FW_MILLER_in_window _ .fw ?_ (of_decide_eq_true rfl) (of_decide_eq_true rfl) (of_decide_eq_true rfl) (of_decide_eq_true rfl)
    | refine RegsIn.wr F.FW_STATUS_confirm _ .fw ?_ (of_decide_eq_true rfl) (of_decide_eq_true rfl) (of_decide_eq_true rfl) (of_decide_eq_true rfl)
    | refine RegsIn.wr F.FW_STATUS_slot _ .fw ?_ (of_decide_eq_true rfl) (of_decide_eq_true rfl) (of_decide_eq_true rfl) (of_decide_eq_true rfl)
    | refine RegsIn.wr F.FW_STATUS_state _ .fw ?_ (of_decide_eq_true rfl) (of_decide_eq_true rfl) (of_decide_eq_true rfl) (of_decide_eq_true rfl)
    | apply RegsIn.next ?_ (State.fwEvt_in _ _) ?_
    | apply RegsIn.next ?_ (State.fwReport_in _ _ _) ?_
    | refine RegsIn.upd ?_
    | decide
    | exact Fin.isLt _
    | omega
    | dsimp -zeta only

theorem execFwSwitch_in (s : State) :
    RegsIn [.events, .viol, .fw] s (settle s (execFwSwitch s)) := by
  unfold execFwSwitch
  with_reducible repeat' first
    | assumption
    | (extract_lets +onlyGivenNames z
       refine RegsIn.let z ?_ ?_
       subst z
       rotate_left
       clear_value z
       revert z
       intro y hy
       rotate_left)
    | exact RegsIn.rfl
    | refine RegsIn.iteO ?_ ?_ <;> intro hc
    | refine RegsIn.ite ?_ ?_ <;> intro hc
    | refine RegsIn.ok ?_
    | apply RegsIn.next ?_ (State.fwNote_in _ _) ?_
    | apply RegsIn.next ?_ (State.endActivation_in _) ?_
    | apply RegsIn.next ?_ (State.fwReport_in _ _ _) ?_
    | apply RegsIn.next ?_ (State.switchBanks_in _) ?_
    | split
    | decide
    | exact Fin.isLt _
    | omega
    | dsimp -zeta only

theorem execFwSelfConfirm_in (s : State) :
    RegsIn [.events, .viol, .fw] s (settle s (execFwSelfConfirm s)) := by
  unfold execFwSelfConfirm
  with_reducible repeat' first
    | assumption
    | exact RegsIn.rfl
    | refine RegsIn.iteO ?_ ?_ <;> intro hc
    | refine RegsIn.ite ?_ ?_ <;> intro hc
    | refine RegsIn.ok ?_
    | apply RegsIn.next ?_ (State.confirm_in _) ?_
    | decide
    | exact Fin.isLt _
    | omega
    | dsimp -zeta only

theorem execFwFallBack_in (s : State) :
    RegsIn [.events, .viol, .fw] s (settle s (execFwFallBack s)) := by
  unfold execFwFallBack
  with_reducible repeat' first
    | assumption
    | (extract_lets +onlyGivenNames z
       refine RegsIn.let z ?_ ?_
       subst z
       rotate_left
       clear_value z
       revert z
       intro y hy
       rotate_left)
    | (extract_lets +onlyGivenNames z; clear_value z; revert z; intro y)
    | exact RegsIn.rfl
    | refine RegsIn.iteO ?_ ?_ <;> intro hc
    | refine RegsIn.ite ?_ ?_ <;> intro hc
    | refine RegsIn.ok ?_
    | refine RegsIn.wr F.FW_STATUS_last_result _ .fw ?_ (of_decide_eq_true rfl) (of_decide_eq_true rfl) (of_decide_eq_true rfl) (of_decide_eq_true rfl)
    | refine RegsIn.wr F.FW_STATUS_state _ .fw ?_ (of_decide_eq_true rfl) (of_decide_eq_true rfl) (of_decide_eq_true rfl) (of_decide_eq_true rfl)
    | apply RegsIn.next ?_ (State.fireTrigger_in _ _ _ _ _) ?_
    | apply RegsIn.next ?_ (State.fwEvt_in _ _) ?_
    | apply RegsIn.next ?_ (State.sendOrder_in _ _ _ _ _) ?_
    | refine RegsIn.upd ?_
    | decide
    | exact Fin.isLt _
    | omega
    | dsimp -zeta only

theorem execMillerWatchdogRestart_in (a0 : Bool) (s : State) :
    RegsIn [.hopper, .events, .viol, .fw] s (settle s (execMillerWatchdogRestart a0 s)) := by
  unfold execMillerWatchdogRestart
  with_reducible repeat' first
    | assumption
    | (extract_lets +onlyGivenNames z
       refine RegsIn.let z ?_ ?_
       subst z
       rotate_left
       clear_value z
       revert z
       intro y hy
       rotate_left)
    | (extract_lets +onlyGivenNames z; clear_value z; revert z; intro y)
    | exact RegsIn.rfl
    | refine RegsIn.iteO ?_ ?_ <;> intro hc
    | refine RegsIn.ite ?_ ?_ <;> intro hc
    | refine RegsIn.ok ?_
    | refine RegsIn.inc F.FW_MILLER_in_window .fw ?_ (of_decide_eq_true rfl) (of_decide_eq_true rfl) (of_decide_eq_true rfl) (of_decide_eq_true rfl)
    | refine RegsIn.inc F.FW_MILLER_restarts .fw ?_ (of_decide_eq_true rfl) (of_decide_eq_true rfl) (of_decide_eq_true rfl) (of_decide_eq_true rfl)
    | apply RegsIn.next ?_ (State.hostState_in _) ?_
    | apply RegsIn.next ?_ (State.finish_in _ _ _ _ _ _) ?_
    | apply RegsIn.next ?_ (State.hopState_in _) ?_
    | apply RegsIn.next ?_ (State.raiseSource_in _ _ _ _ ?_) ?_
    | refine RegsIn.upd ?_
    | decide
    | exact Fin.isLt _
    | omega
    | dsimp -zeta only

theorem execMsixCoalTimeout_in (a0 : Fin 128) (s : State) :
    RegsIn [.events, .viol] s (settle s (execMsixCoalTimeout a0 s)) := by
  unfold execMsixCoalTimeout
  with_reducible repeat' first
    | assumption
    | exact RegsIn.rfl
    | refine RegsIn.iteO ?_ ?_ <;> intro hc
    | refine RegsIn.ite ?_ ?_ <;> intro hc
    | refine RegsIn.ok ?_
    | apply RegsIn.next ?_ (State.sendMsix_in _ _ ?_) ?_
    | decide
    | exact Fin.isLt _
    | omega
    | dsimp -zeta only

theorem execPolicyLockWrite_in (a0 : Word32) (s : State) :
    RegsIn [.events] s (settle s (execPolicyLockWrite a0 s)) := by
  unfold execPolicyLockWrite
  with_reducible repeat' first
    | assumption
    | exact RegsIn.rfl
    | refine RegsIn.iteO ?_ ?_ <;> intro hc
    | refine RegsIn.ite ?_ ?_ <;> intro hc
    | refine RegsIn.ok ?_
    | refine RegsIn.wr F.POLICY_LOCK_lock _ .events ?_ (of_decide_eq_true rfl) (of_decide_eq_true rfl) (of_decide_eq_true rfl) (of_decide_eq_true rfl)
    | decide
    | exact Fin.isLt _
    | omega
    | dsimp -zeta only

theorem State.linkLost_in (s : State) :
    RegsIn [.events, .viol] s (State.linkLost s) := by
  unfold State.linkLost
  with_reducible repeat' first
    | assumption
    | (extract_lets +onlyGivenNames z
       refine RegsIn.let z ?_ ?_
       subst z
       rotate_left
       clear_value z
       revert z
       intro y hy
       rotate_left)
    | (extract_lets +onlyGivenNames z; clear_value z; revert z; intro y)
    | exact RegsIn.rfl
    | (refine RegsIn.upTo _ _ ?_ ?_; rotate_left; intro y a ha hy; rotate_left)
    | (refine RegsIn.bitsSet _ _ _ ?_ ?_; rotate_left; intro y a ha hy; rotate_left)
    | (refine RegsIn.foldl _ _ ?_ ?_; rotate_left; intro y a ha hy; rotate_left)
    | refine RegsIn.wr F.HOST_STATUS_l1 _ .events ?_ (of_decide_eq_true rfl) (of_decide_eq_true rfl) (of_decide_eq_true rfl) (of_decide_eq_true rfl)
    | refine RegsIn.wr F.HOST_STATUS_speed _ .events ?_ (of_decide_eq_true rfl) (of_decide_eq_true rfl) (of_decide_eq_true rfl) (of_decide_eq_true rfl)
    | apply RegsIn.next ?_ (State.dmaError_in _ _ _) ?_
    | refine RegsIn.upd ?_
    | decide
    | exact Fin.isLt _
    | omega
    | dsimp -zeta only

theorem execHostLinkDown_in (s : State) :
    RegsIn [.events, .viol] s (settle s (execHostLinkDown s)) := by
  unfold execHostLinkDown
  with_reducible repeat' first
    | assumption
    | (extract_lets +onlyGivenNames z
       refine RegsIn.let z ?_ ?_
       subst z
       rotate_left
       clear_value z
       revert z
       intro y hy
       rotate_left)
    | (extract_lets +onlyGivenNames z; clear_value z; revert z; intro y)
    | exact RegsIn.rfl
    | refine RegsIn.iteO ?_ ?_ <;> intro hc
    | refine RegsIn.ite ?_ ?_ <;> intro hc
    | refine RegsIn.ok ?_
    | apply RegsIn.next ?_ (State.linkLost_in _) ?_
    | apply RegsIn.next ?_ (State.hostState_in _) ?_
    | apply RegsIn.next ?_ (State.raiseSource_in _ _ _ _ ?_) ?_
    | refine RegsIn.upd ?_
    | decide
    | exact Fin.isLt _
    | omega
    | dsimp -zeta only

theorem execHostLinkTrained_in (a0 : Fin 7) (a1 : LinkWidth) (a2 : Bool) (s : State) :
    RegsIn [.events, .viol] s (settle s (execHostLinkTrained a0 a1 a2 s)) := by
  unfold execHostLinkTrained
  with_reducible repeat' first
    | assumption
    | (extract_lets +onlyGivenNames z
       refine RegsIn.let z ?_ ?_
       subst z
       rotate_left
       clear_value z
       revert z
       intro y hy
       rotate_left)
    | (extract_lets +onlyGivenNames z; clear_value z; revert z; intro y)
    | exact RegsIn.rfl
    | refine RegsIn.iteO ?_ ?_ <;> intro hc
    | refine RegsIn.ite ?_ ?_ <;> intro hc
    | refine RegsIn.ok ?_
    | refine RegsIn.wr F.HOST_STATUS_l1 _ .events ?_ (of_decide_eq_true rfl) (of_decide_eq_true rfl) (of_decide_eq_true rfl) (of_decide_eq_true rfl)
    | refine RegsIn.wrb F.HOST_STATUS_l1 _ .events ?_ (of_decide_eq_true rfl) (of_decide_eq_true rfl) (of_decide_eq_true rfl) (of_decide_eq_true rfl)
    | refine RegsIn.wr F.HOST_STATUS_speed _ .events ?_ (of_decide_eq_true rfl) (of_decide_eq_true rfl) (of_decide_eq_true rfl) (of_decide_eq_true rfl)
    | refine RegsIn.wrb F.HOST_STATUS_speed _ .events ?_ (of_decide_eq_true rfl) (of_decide_eq_true rfl) (of_decide_eq_true rfl) (of_decide_eq_true rfl)
    | refine RegsIn.wr F.HOST_STATUS_width _ .events ?_ (of_decide_eq_true rfl) (of_decide_eq_true rfl) (of_decide_eq_true rfl) (of_decide_eq_true rfl)
    | refine RegsIn.wrb F.HOST_STATUS_width _ .events ?_ (of_decide_eq_true rfl) (of_decide_eq_true rfl) (of_decide_eq_true rfl) (of_decide_eq_true rfl)
    | apply RegsIn.next ?_ (State.hostState_in _) ?_
    | apply RegsIn.next ?_ (State.raiseSource_in _ _ _ _ ?_) ?_
    | split
    | refine RegsIn.upd ?_
    | decide
    | exact Fin.isLt _
    | omega
    | dsimp -zeta only

theorem State.setGsBusy_in (s : State) (a1 : Nat) (a2 : Bool) :
    RegsIn [.seal] s (State.setGsBusy s a1 a2) := by
  unfold State.setGsBusy
  with_reducible repeat' first
    | assumption
    | exact RegsIn.rfl
    | refine RegsIn.wr F.SEAL_STATUS_busy _ .seal ?_ (of_decide_eq_true rfl) (of_decide_eq_true rfl) (of_decide_eq_true rfl) (of_decide_eq_true rfl)
    | decide
    | exact Fin.isLt _
    | omega
    | dsimp -zeta only

theorem execGsStart_in (a0 : Fin 8) (a1 : Bool) (s : State) :
    RegsIn [.seal] s (settle s (execGsStart a0 a1 s)) := by
  unfold execGsStart
  with_reducible repeat' first
    | assumption
    | (extract_lets +onlyGivenNames z
       refine RegsIn.let z ?_ ?_
       subst z
       rotate_left
       clear_value z
       revert z
       intro y hy
       rotate_left)
    | exact RegsIn.rfl
    | refine RegsIn.iteO ?_ ?_ <;> intro hc
    | refine RegsIn.ite ?_ ?_ <;> intro hc
    | refine RegsIn.ok ?_
    | refine RegsIn.wr (F.GS_COUNT_bytes _) _ .seal ?_ (of_decide_eq_true rfl) (of_decide_eq_true rfl) (by simp only [F.GS_COUNT_bytes, Bank.range]; omega) (by simp only [F.GS_COUNT_bytes, Bank.range]; omega)
    | refine RegsIn.wr (F.GS_RESULT_seal _) _ .seal ?_ (of_decide_eq_true rfl) (of_decide_eq_true rfl) (by simp only [F.GS_RESULT_seal, Bank.range]; omega) (by simp only [F.GS_RESULT_seal, Bank.range]; omega)
    | apply RegsIn.next ?_ (State.setGsBusy_in _ _ _) ?_
    | refine RegsIn.upd ?_
    | decide
    | exact Fin.isLt _
    | omega
    | dsimp -zeta only

theorem execGsStop_in (a0 : Fin 8) (a1 : Bool) (s : State) :
    RegsIn [.seal] s (settle s (execGsStop a0 a1 s)) := by
  unfold execGsStop
  with_reducible repeat' first
    | assumption
    | exact RegsIn.rfl
    | refine RegsIn.iteO ?_ ?_ <;> intro hc
    | refine RegsIn.ite ?_ ?_ <;> intro hc
    | refine RegsIn.ok ?_
    | apply RegsIn.next ?_ (State.setGsBusy_in _ _ _) ?_
    | decide
    | exact Fin.isLt _
    | omega
    | dsimp -zeta only

theorem State.refusePower_in (s : State) :
    RegsIn [.events, .viol, .power] s (State.refusePower s) := by
  unfold State.refusePower
  with_reducible repeat' first
    | assumption
    | (extract_lets +onlyGivenNames z
       refine RegsIn.let z ?_ ?_
       subst z
       rotate_left
       clear_value z
       revert z
       intro y hy
       rotate_left)
    | (extract_lets +onlyGivenNames z; clear_value z; revert z; intro y)
    | exact RegsIn.rfl
    | apply RegsIn.next ?_ (State.pwrEvt_in _ _) ?_
    | refine RegsIn.upd ?_
    | decide
    | exact Fin.isLt _
    | omega
    | dsimp -zeta only

theorem execServiceButtonPress_in (s : State) :
    RegsIn [.events, .viol, .power] s (settle s (execServiceButtonPress s)) := by
  unfold execServiceButtonPress
  with_reducible repeat' first
    | assumption
    | exact RegsIn.rfl
    | refine RegsIn.ok ?_
    | apply RegsIn.next ?_ (State.wake_in _ _) ?_
    | decide
    | exact Fin.isLt _
    | omega
    | dsimp -zeta only

theorem execKeepAlarmFire_in (s : State) :
    RegsIn [.events, .viol, .power] s (settle s (execKeepAlarmFire s)) := by
  unfold execKeepAlarmFire
  with_reducible repeat' first
    | assumption
    | exact RegsIn.rfl
    | refine RegsIn.iteO ?_ ?_ <;> intro hc
    | refine RegsIn.ite ?_ ?_ <;> intro hc
    | refine RegsIn.ok ?_
    | apply RegsIn.next ?_ (State.wake_in _ _) ?_
    | decide
    | exact Fin.isLt _
    | omega
    | dsimp -zeta only

theorem execPartnerSilentWake_in (s : State) :
    RegsIn [.events, .ply, .viol, .power] s (settle s (execPartnerSilentWake s)) := by
  unfold execPartnerSilentWake
  with_reducible repeat' first
    | assumption
    | exact RegsIn.rfl
    | refine RegsIn.ok ?_
    | refine RegsIn.wr F.PLY_STATUS_tok_in _ .ply ?_ (of_decide_eq_true rfl) (of_decide_eq_true rfl) (of_decide_eq_true rfl) (of_decide_eq_true rfl)
    | apply RegsIn.next ?_ (State.wake_in _ _) ?_
    | decide
    | exact Fin.isLt _
    | omega
    | dsimp -zeta only

theorem execPwrResetPartner_in (s : State) :
    RegsIn [.events, .viol, .power] s (settle s (execPwrResetPartner s)) := by
  unfold execPwrResetPartner
  with_reducible repeat' first
    | assumption
    | (extract_lets +onlyGivenNames z; clear_value z; revert z; intro y)
    | exact RegsIn.rfl
    | refine RegsIn.iteO ?_ ?_ <;> intro hc
    | refine RegsIn.ite ?_ ?_ <;> intro hc
    | refine RegsIn.ok ?_
    | apply RegsIn.next ?_ (State.sendState_in _ _ _ _ _) ?_
    | apply RegsIn.next ?_ (State.pwrEvt_in _ _) ?_
    | decide
    | exact Fin.isLt _
    | omega
    | dsimp -zeta only

theorem execHoldupCharged_in (s : State) :
    RegsIn [.power] s (settle s (execHoldupCharged s)) := by
  unfold execHoldupCharged
  with_reducible repeat' first
    | assumption
    | (extract_lets +onlyGivenNames z
       refine RegsIn.let z ?_ ?_
       subst z
       rotate_left
       clear_value z
       revert z
       intro y hy
       rotate_left)
    | (extract_lets +onlyGivenNames z; clear_value z; revert z; intro y)
    | exact RegsIn.rfl
    | refine RegsIn.iteO ?_ ?_ <;> intro hc
    | refine RegsIn.ite ?_ ?_ <;> intro hc
    | refine RegsIn.ok ?_
    | refine RegsIn.wr F.PWR_STATUS_holdup_ok _ .power ?_ (of_decide_eq_true rfl) (of_decide_eq_true rfl) (of_decide_eq_true rfl) (of_decide_eq_true rfl)
    | apply RegsIn.next ?_ (State.startRung_in _ _) ?_
    | split
    | refine RegsIn.upd ?_
    | decide
    | exact Fin.isLt _
    | omega
    | dsimp -zeta only

theorem execHoldupLow_in (s : State) :
    RegsIn [.events, .viol, .power] s (settle s (execHoldupLow s)) := by
  unfold execHoldupLow
  with_reducible repeat' first
    | assumption
    | exact RegsIn.rfl
    | refine RegsIn.ok ?_
    | refine RegsIn.wr F.PWR_STATUS_holdup_ok _ .power ?_ (of_decide_eq_true rfl) (of_decide_eq_true rfl) (of_decide_eq_true rfl) (of_decide_eq_true rfl)
    | apply RegsIn.next ?_ (State.pwrEvt_in _ _) ?_
    | decide
    | exact Fin.isLt _
    | omega
    | dsimp -zeta only

theorem execCellLow_in (s : State) :
    RegsIn [.events, .viol, .power] s (settle s (execCellLow s)) := by
  unfold execCellLow
  with_reducible repeat' first
    | assumption
    | (extract_lets +onlyGivenNames z
       refine RegsIn.let1 z ?_ ?_
       subst z
       rotate_left
       clear_value z
       revert z
       rintro ⟨y, y1⟩ hy
       rotate_left)
    | exact RegsIn.rfl
    | refine RegsIn.ok ?_
    | (rename (_ : State × _) = _ => heq
       refine RegsIn.pair heq ?_ ?_ <;> clear heq
       rotate_left
       intro hy
       rotate_left)
    | refine RegsIn.wr F.PWR_STATUS_cell_low _ .power ?_ (of_decide_eq_true rfl) (of_decide_eq_true rfl) (of_decide_eq_true rfl) (of_decide_eq_true rfl)
    | refine RegsIn.wr F.PWR_SUPPLY_cell_mv _ .power ?_ (of_decide_eq_true rfl) (of_decide_eq_true rfl) (of_decide_eq_true rfl) (of_decide_eq_true rfl)
    | apply RegsIn.next ?_ (State.free_in _) ?_
    | apply RegsIn.next ?_ (State.pwrEvt_in _ _) ?_
    | decide
    | exact Fin.isLt _
    | omega
    | dsimp -zeta only

theorem State.endSession_in (s : State) :
    RegsIn [.fw] s (State.endSession s) := by
  unfold State.endSession
  with_reducible repeat' first
    | assumption
    | (extract_lets +onlyGivenNames z
       refine RegsIn.let z ?_ ?_
       subst z
       rotate_left
       clear_value z
       revert z
       intro y hy
       rotate_left)
    | (extract_lets +onlyGivenNames z; clear_value z; revert z; intro y)
    | exact RegsIn.rfl
    | refine RegsIn.wr F.SVC_STATUS_open _ .fw ?_ (of_decide_eq_true rfl) (of_decide_eq_true rfl) (of_decide_eq_true rfl) (of_decide_eq_true rfl)
    | refine RegsIn.upd ?_
    | decide
    | exact Fin.isLt _
    | omega
    | dsimp -zeta only

theorem execHyicaSessionTimeout_in (s : State) :
    RegsIn [.fw] s (settle s (execHyicaSessionTimeout s)) := by
  unfold execHyicaSessionTimeout
  with_reducible repeat' first
    | assumption
    | (extract_lets +onlyGivenNames z
       refine RegsIn.let z ?_ ?_
       subst z
       rotate_left
       clear_value z
       revert z
       intro y hy
       rotate_left)
    | (extract_lets +onlyGivenNames z; clear_value z; revert z; intro y)
    | exact RegsIn.rfl
    | refine RegsIn.iteO ?_ ?_ <;> intro hc
    | refine RegsIn.ite ?_ ?_ <;> intro hc
    | refine RegsIn.ok ?_
    | apply RegsIn.next ?_ (State.endSession_in _) ?_
    | refine RegsIn.upd ?_
    | decide
    | exact Fin.isLt _
    | omega
    | dsimp -zeta only

theorem execNeighborDiscovery_in (a0 : Bool) (a1 : Bool) (s : State) :
    RegsIn [] s (settle s (execNeighborDiscovery a0 a1 s)) := by
  unfold execNeighborDiscovery
  with_reducible repeat' first
    | assumption
    | exact RegsIn.rfl
    | refine RegsIn.iteO ?_ ?_ <;> intro hc
    | refine RegsIn.ite ?_ ?_ <;> intro hc
    | refine RegsIn.ok ?_
    | apply RegsIn.next ?_ (State.emit_in _ _) ?_
    | decide
    | exact Fin.isLt _
    | omega
    | dsimp -zeta only

theorem execSvcLinkChange_in (a0 : Fin 3) (s : State) :
    RegsIn [.fw] s (settle s (execSvcLinkChange a0 s)) := by
  unfold execSvcLinkChange
  with_reducible repeat' first
    | assumption
    | exact RegsIn.rfl
    | refine RegsIn.iteO ?_ ?_ <;> intro hc
    | refine RegsIn.ite ?_ ?_ <;> intro hc
    | refine RegsIn.ok ?_
    | refine RegsIn.wr F.SVC_STATUS_link _ .fw ?_ (of_decide_eq_true rfl) (of_decide_eq_true rfl) (of_decide_eq_true rfl) (of_decide_eq_true rfl)
    | decide
    | exact Fin.isLt _
    | omega
    | dsimp -zeta only

theorem State.dropOrders_in (s : State) (a1 : Order → Bool) :
    RegsIn [] s (State.dropOrders s a1) := by
  unfold State.dropOrders
  with_reducible repeat' first
    | assumption
    | (extract_lets +onlyGivenNames z; clear_value z; revert z; intro y)
    | exact RegsIn.rfl
    | refine RegsIn.upd ?_
    | decide
    | exact Fin.isLt _
    | omega
    | dsimp -zeta only

theorem State.noHandover_in (s : State) :
    RegsIn [.events, .viol, .fw, .power] s (State.noHandover s) := by
  unfold State.noHandover
  with_reducible repeat' first
    | assumption
    | (extract_lets +onlyGivenNames z
       refine RegsIn.let z ?_ ?_
       subst z
       rotate_left
       clear_value z
       revert z
       intro y hy
       rotate_left)
    | (extract_lets +onlyGivenNames z; clear_value z; revert z; intro y)
    | exact RegsIn.rfl
    | refine RegsIn.ite ?_ ?_ <;> intro hc
    | apply RegsIn.next ?_ (State.refusePower_in _) ?_
    | apply RegsIn.next ?_ (State.endActivation_in _) ?_
    | refine RegsIn.upd ?_
    | decide
    | exact Fin.isLt _
    | omega
    | dsimp -zeta only

theorem State.abandonOrder_in (s : State) (a1 : Order) :
    RegsIn [.hopper, .events, .online, .ply, .viol, .fw, .power] s (State.abandonOrder s a1) := by
  unfold State.abandonOrder
  with_reducible repeat' first
    | assumption
    | (extract_lets +onlyGivenNames z
       refine RegsIn.let z ?_ ?_
       subst z
       rotate_left
       clear_value z
       revert z
       intro y hy
       rotate_left)
    | (extract_lets +onlyGivenNames z; clear_value z; revert z; intro y)
    | exact RegsIn.rfl
    | refine RegsIn.ite ?_ ?_ <;> intro hc
    | refine RegsIn.wr F.PLY_STATUS_cmd_refused _ .ply ?_ (of_decide_eq_true rfl) (of_decide_eq_true rfl) (of_decide_eq_true rfl) (of_decide_eq_true rfl)
    | apply RegsIn.next ?_ (State.dropOrders_in _ _) ?_
    | apply RegsIn.next ?_ (State.finish_in _ _ _ _ _ _) ?_
    | apply RegsIn.next ?_ (State.dropArmed_in _ _) ?_
    | apply RegsIn.next ?_ (State.noHandover_in _) ?_
    | split
    | refine RegsIn.upd ?_
    | decide
    | exact Fin.isLt _
    | omega
    | dsimp -zeta only

theorem execOrderAckTimeout_in (a0 : BitVec 16) (s : State) :
    RegsIn [.hopper, .events, .online, .ply, .viol, .fw, .power] s (settle s (execOrderAckTimeout a0 s)) := by
  unfold execOrderAckTimeout
  with_reducible repeat' first
    | assumption
    | exact RegsIn.rfl
    | refine RegsIn.ok ?_
    | apply RegsIn.next ?_ (State.abandonOrder_in _ _) ?_
    | split
    | decide
    | exact Fin.isLt _
    | omega
    | dsimp -zeta only

theorem State.ackOrder_in (s : State) (a1 : Order) :
    RegsIn [] s (State.ackOrder s a1) := by
  unfold State.ackOrder
  with_reducible repeat' first
    | assumption
    | (extract_lets +onlyGivenNames z; clear_value z; revert z; intro y)
    | exact RegsIn.rfl
    | refine RegsIn.ite ?_ ?_ <;> intro hc
    | refine RegsIn.upd ?_
    | decide
    | exact Fin.isLt _
    | omega
    | dsimp -zeta only

theorem execAckReceived_in (a0 : PlyHdr) (a1 : BitVec 16) (a2 : BitVec 16) (a3 : Bool) (s : State) :
    RegsIn [.hopper, .events, .online, .time, .ply, .brake, .viol, .fw, .power, .skein] s (settle s (execAckReceived a0 a1 a2 a3 s)) := by
  unfold execAckReceived
  with_reducible repeat' first
    | assumption
    | exact RegsIn.rfl
    | refine RegsIn.iteO ?_ ?_ <;> intro hc
    | refine RegsIn.ite ?_ ?_ <;> intro hc
    | refine RegsIn.ok ?_
    | refine RegsIn.ite1 ?_ ?_ <;> intro hc
    | (rename (_ : State × _) = _ => heq
       refine RegsIn.pair heq ?_ ?_ <;> clear heq
       rotate_left
       intro hy
       rotate_left)
    | apply RegsIn.next ?_ (State.plyTake_in _ _ _) ?_
    | apply RegsIn.next ?_ (State.failJoin_in _ _) ?_
    | apply RegsIn.next ?_ (State.abandonOrder_in _ _) ?_
    | apply RegsIn.next ?_ (State.ackOrder_in _ _) ?_
    | split
    | decide
    | exact Fin.isLt _
    | omega
    | dsimp -zeta only

theorem execMillSnapReceived_in (a0 : PlyHdr) (a1 : Fin 2) (a2 : Fin 64) (a3 : List Word36) (s : State) :
    RegsIn [.ply] s (settle s (execMillSnapReceived a0 a1 a2 a3 s)) := by
  unfold execMillSnapReceived
  with_reducible repeat' first
    | assumption
    | (extract_lets +onlyGivenNames z; clear_value z; revert z; intro y)
    | exact RegsIn.rfl
    | refine RegsIn.iteO ?_ ?_ <;> intro hc
    | refine RegsIn.ite ?_ ?_ <;> intro hc
    | refine RegsIn.ok ?_
    | refine RegsIn.ite1 ?_ ?_ <;> intro hc
    | (rename (_ : State × _) = _ => heq
       refine RegsIn.pair heq ?_ ?_ <;> clear heq
       rotate_left
       intro hy
       rotate_left)
    | apply RegsIn.next ?_ (State.plyTake_in _ _ _) ?_
    | apply RegsIn.next ?_ (State.takeSnap_in _ _ _ _) ?_
    | split
    | refine RegsIn.upd ?_
    | decide
    | exact Fin.isLt _
    | omega
    | dsimp -zeta only

end Sys2Proof.Machine
end

