-- ==== Sys2Proof/Laws/KeepsShared.lean ====
section
/-! SUPPORT. What each operation and each meaning of the shared operations of the event engine, the image, frames, the brake matrix, rings and time leaves alone. -/

namespace Sys2Proof.Machine

set_option linter.all false

theorem State.wr_keeps (s : State) (a1 : Fld) (a2 : Nat) :
    Keeps [] s (State.wr s a1 a2) := by
  unfold State.wr
  with_reducible repeat' first
    | assumption
    | exact Keeps.rfl
    | refine Keeps.upd ?_ List.prefix_rfl (Nat.le_refl _) id (fun p hp => by cases p <;> first | rfl | exact absurd (by decide) hp)
    | decide
    | dsimp -zeta only

theorem State.wrb_keeps (s : State) (a1 : Fld) (a2 : Bool) :
    Keeps [] s (State.wrb s a1 a2) := by
  unfold State.wrb
  with_reducible repeat' first
    | assumption
    | exact Keeps.rfl
    | apply Keeps.next ?_ (State.wr_keeps _ _ _) ?_
    | decide
    | dsimp -zeta only

theorem State.add_keeps (s : State) (a1 : Fld) (a2 : Nat) :
    Keeps [] s (State.add s a1 a2) := by
  unfold State.add
  with_reducible repeat' first
    | assumption
    | exact Keeps.rfl
    | apply Keeps.next ?_ (State.wr_keeps _ _ _) ?_
    | decide
    | dsimp -zeta only

theorem State.inc_keeps (s : State) (a1 : Fld) :
    Keeps [] s (State.inc s a1) := by
  unfold State.inc
  with_reducible repeat' first
    | assumption
    | exact Keeps.rfl
    | apply Keeps.next ?_ (State.add_keeps _ _ _) ?_
    | decide
    | dsimp -zeta only

theorem State.emit_keeps (s : State) (a1 : Out) :
    Keeps [] s (State.emit s a1) := by
  exact Keeps.upd Keeps.rfl (List.prefix_append _ _) (Nat.le_refl _) id (fun p _ => by cases p <;> rfl)

theorem State.emits_keeps (s : State) (a1 : List Out) :
    Keeps [] s (State.emits s a1) := by
  exact Keeps.upd Keeps.rfl (List.prefix_append _ _) (Nat.le_refl _) id (fun p _ => by cases p <;> rfl)

theorem State.free_keeps (s : State) :
    Keeps [] s (State.free s).2 := by
  exact ⟨rfl, List.prefix_rfl, Nat.le_succ _, id, fun p _ => by cases p <;> rfl⟩

theorem State.hearEpoch_keeps (s : State) (a1 : Nat) :
    Keeps [.ply] s (State.hearEpoch s a1) := by
  unfold State.hearEpoch
  with_reducible repeat' first
    | assumption
    | (extract_lets +onlyGivenNames z
       refine Keeps.let z ?_ ?_
       subst z
       rotate_left
       clear_value z
       revert z
       intro y hy
       rotate_left)
    | (extract_lets +onlyGivenNames z; revert z; intro y)
    | exact Keeps.rfl
    | refine Keeps.ite ?_ ?_
    | apply Keeps.next ?_ (State.wr_keeps _ _ _) ?_
    | refine Keeps.upd ?_ List.prefix_rfl (Nat.le_refl _) id (fun p hp => by cases p <;> first | rfl | exact absurd (by decide) hp)
    | decide
    | dsimp -zeta only

theorem State.acNote_keeps (s : State) (a1 : Nat) (a2 : Nat) (a3 : Nat) (a4 : Nat) (a5 : Nat) (a6 : Nat) :
    Keeps [] s (State.acNote s a1 a2 a3 a4 a5 a6) := by
  unfold State.acNote
  with_reducible repeat' first
    | assumption
    | (extract_lets +onlyGivenNames z
       refine Keeps.let z ?_ ?_
       subst z
       rotate_left
       clear_value z
       revert z
       intro y hy
       rotate_left)
    | exact Keeps.rfl
    | refine Keeps.ite ?_ ?_
    | apply Keeps.next ?_ (State.inc_keeps _ _) ?_
    | apply Keeps.next ?_ (State.wr_keeps _ _ _) ?_
    | apply Keeps.next ?_ (State.wrb_keeps _ _ _) ?_
    | decide
    | dsimp -zeta only

theorem State.sendMsix_keeps (s : State) (a1 : Nat) :
    Keeps [.host] s (State.sendMsix s a1) := by
  unfold State.sendMsix
  with_reducible repeat' first
    | assumption
    | (extract_lets +onlyGivenNames z
       refine Keeps.let z ?_ ?_
       subst z
       rotate_left
       clear_value z
       revert z
       intro y hy
       rotate_left)
    | (extract_lets +onlyGivenNames z; revert z; intro y)
    | exact Keeps.rfl
    | refine Keeps.ite ?_ ?_
    | apply Keeps.next ?_ (State.wr_keeps _ _ _) ?_
    | apply Keeps.next ?_ (State.emit_keeps _ _) ?_
    | refine Keeps.upd ?_ List.prefix_rfl (Nat.le_refl _) id (fun p hp => by cases p <;> first | rfl | exact absurd (by decide) hp)
    | decide
    | dsimp -zeta only

theorem State.countMsix_keeps (s : State) (a1 : Nat) :
    Keeps [.host] s (State.countMsix s a1) := by
  unfold State.countMsix
  with_reducible repeat' first
    | assumption
    | (extract_lets +onlyGivenNames z; revert z; intro y)
    | exact Keeps.rfl
    | refine Keeps.ite ?_ ?_
    | apply Keeps.next ?_ (State.sendMsix_keeps _ _) ?_
    | refine Keeps.upd ?_ List.prefix_rfl (Nat.le_refl _) id (fun p hp => by cases p <;> first | rfl | exact absurd (by decide) hp)
    | decide
    | dsimp -zeta only

theorem State.fireTrigger_keeps (s : State) (a1 : Nat) (a2 : Nat) (a3 : Nat) (a4 : Nat) :
    Keeps [.recorder] s (State.fireTrigger s a1 a2 a3 a4) := by
  unfold State.fireTrigger
  with_reducible repeat' first
    | assumption
    | (extract_lets +onlyGivenNames z; revert z; intro y)
    | exact Keeps.rfl
    | refine Keeps.ite ?_ ?_
    | refine Keeps.upd ?_ List.prefix_rfl (Nat.le_refl _) id (fun p hp => by cases p <;> first | rfl | exact absurd (by decide) hp)
    | decide
    | dsimp -zeta only

theorem State.fireSource_keeps (s : State) (a1 : Nat) (a2 : Nat) (a3 : Nat) :
    Keeps [.recorder] s (State.fireSource s a1 a2 a3) := by
  unfold State.fireSource
  with_reducible repeat' first
    | assumption
    | exact Keeps.rfl
    | refine Keeps.ite ?_ ?_
    | refine Keeps.foldl _ _ ?_ ?_
    | apply Keeps.next ?_ (State.fireTrigger_keeps _ _ _ _ _) ?_
    | decide
    | intro y
    | dsimp -zeta only

theorem State.raiseQuiet_keeps (s : State) (a1 : Nat) (a2 : Nat) (a3 : Nat) :
    Keeps [.host, .recorder] s (State.raiseQuiet s a1 a2 a3) := by
  unfold State.raiseQuiet
  with_reducible repeat' first
    | assumption
    | (extract_lets +onlyGivenNames z
       refine Keeps.let z ?_ ?_
       subst z
       rotate_left
       clear_value z
       revert z
       intro y hy
       rotate_left)
    | (extract_lets +onlyGivenNames z; revert z; intro y)
    | exact Keeps.rfl
    | refine Keeps.ite ?_ ?_
    | apply Keeps.next ?_ (State.fireSource_keeps _ _ _ _) ?_
    | apply Keeps.next ?_ (State.wr_keeps _ _ _) ?_
    | apply Keeps.next ?_ (State.countMsix_keeps _ _) ?_
    | decide
    | dsimp -zeta only

theorem State.refuseEvent_keeps (s : State) (a1 : Nat) (a2 : Nat) :
    Keeps [.host, .recorder] s (State.refuseEvent s a1 a2) := by
  unfold State.refuseEvent
  with_reducible repeat' first
    | assumption
    | (extract_lets +onlyGivenNames z
       refine Keeps.let z ?_ ?_
       subst z
       rotate_left
       clear_value z
       revert z
       intro y hy
       rotate_left)
    | (extract_lets +onlyGivenNames z; revert z; intro y)
    | exact Keeps.rfl
    | refine Keeps.ite ?_ ?_
    | apply Keeps.next ?_ (State.acNote_keeps _ _ _ _ _ _ _) ?_
    | apply Keeps.next ?_ (State.wr_keeps _ _ _) ?_
    | apply Keeps.next ?_ (State.raiseQuiet_keeps _ _ _ _) ?_
    | decide
    | dsimp -zeta only

theorem State.writeEvent_keeps (s : State) (a1 : Nat) (a2 : Nat) (a3 : Nat) :
    Keeps [.host, .recorder] s (State.writeEvent s a1 a2 a3) := by
  unfold State.writeEvent
  with_reducible repeat' first
    | assumption
    | (extract_lets +onlyGivenNames z
       refine Keeps.let z ?_ ?_
       subst z
       rotate_left
       clear_value z
       revert z
       intro y hy
       rotate_left)
    | (extract_lets +onlyGivenNames z; revert z; intro y)
    | exact Keeps.rfl
    | refine Keeps.ite ?_ ?_
    | apply Keeps.next ?_ (State.inc_keeps _ _) ?_
    | apply Keeps.next ?_ (State.wr_keeps _ _ _) ?_
    | apply Keeps.next ?_ (State.countMsix_keeps _ _) ?_
    | apply Keeps.next ?_ (State.refuseEvent_keeps _ _ _) ?_
    | apply Keeps.next ?_ (State.emit_keeps _ _) ?_
    | split
    | refine Keeps.upd ?_ List.prefix_rfl (Nat.le_refl _) id (fun p hp => by cases p <;> first | rfl | exact absurd (by decide) hp)
    | decide
    | dsimp -zeta only

theorem State.raiseSource_keeps (s : State) (a1 : Nat) (a2 : Nat) (a3 : Nat) :
    Keeps [.host, .recorder] s (State.raiseSource s a1 a2 a3) := by
  unfold State.raiseSource
  with_reducible repeat' first
    | assumption
    | (extract_lets +onlyGivenNames z
       refine Keeps.let z ?_ ?_
       subst z
       rotate_left
       clear_value z
       revert z
       intro y hy
       rotate_left)
    | (extract_lets +onlyGivenNames z; revert z; intro y)
    | exact Keeps.rfl
    | refine Keeps.ite ?_ ?_
    | apply Keeps.next ?_ (State.fireSource_keeps _ _ _ _) ?_
    | apply Keeps.next ?_ (State.wr_keeps _ _ _) ?_
    | apply Keeps.next ?_ (State.writeEvent_keeps _ _ _ _) ?_
    | apply Keeps.next ?_ (State.countMsix_keeps _ _) ?_
    | decide
    | dsimp -zeta only

theorem State.setEvt_keeps (s : State) (a1 : Fld) (a2 : Fld) (a3 : Nat) (a4 : Nat) (a5 : Nat) (a6 : Nat) :
    Keeps [.host, .recorder] s (State.setEvt s a1 a2 a3 a4 a5 a6) := by
  unfold State.setEvt
  with_reducible repeat' first
    | assumption
    | (extract_lets +onlyGivenNames z
       refine Keeps.let z ?_ ?_
       subst z
       rotate_left
       clear_value z
       revert z
       intro y hy
       rotate_left)
    | (extract_lets +onlyGivenNames z; revert z; intro y)
    | exact Keeps.rfl
    | refine Keeps.ite ?_ ?_
    | apply Keeps.next ?_ (State.wr_keeps _ _ _) ?_
    | apply Keeps.next ?_ (State.raiseSource_keeps _ _ _ _) ?_
    | decide
    | dsimp -zeta only

theorem State.skEvt_keeps (s : State) (a1 : Nat) (a2 : Nat) :
    Keeps [.host, .recorder] s (State.skEvt s a1 a2) := by
  unfold State.skEvt
  with_reducible repeat' first
    | assumption
    | exact Keeps.rfl
    | apply Keeps.next ?_ (State.setEvt_keeps _ _ _ _ _ _ _) ?_
    | decide
    | dsimp -zeta only

theorem State.taskEvt_keeps (s : State) (a1 : Nat) (a2 : Nat) :
    Keeps [.host, .recorder] s (State.taskEvt s a1 a2) := by
  unfold State.taskEvt
  with_reducible repeat' first
    | assumption
    | (extract_lets +onlyGivenNames z
       refine Keeps.let z ?_ ?_
       subst z
       rotate_left
       clear_value z
       revert z
       intro y hy
       rotate_left)
    | (extract_lets +onlyGivenNames z; revert z; intro y)
    | exact Keeps.rfl
    | refine Keeps.ite ?_ ?_
    | apply Keeps.next ?_ (State.wr_keeps _ _ _) ?_
    | apply Keeps.next ?_ (State.raiseSource_keeps _ _ _ _) ?_
    | decide
    | dsimp -zeta only

theorem State.keyEvt_keeps (s : State) (a1 : Nat) :
    Keeps [.host, .recorder] s (State.keyEvt s a1) := by
  unfold State.keyEvt
  with_reducible repeat' first
    | assumption
    | (extract_lets +onlyGivenNames z
       refine Keeps.let z ?_ ?_
       subst z
       rotate_left
       clear_value z
       revert z
       intro y hy
       rotate_left)
    | exact Keeps.rfl
    | refine Keeps.ite ?_ ?_
    | apply Keeps.next ?_ (State.wr_keeps _ _ _) ?_
    | apply Keeps.next ?_ (State.raiseSource_keeps _ _ _ _) ?_
    | decide
    | dsimp -zeta only

theorem State.plyEvt_keeps (s : State) (a1 : Nat) :
    Keeps [.host, .recorder] s (State.plyEvt s a1) := by
  unfold State.plyEvt
  with_reducible repeat' first
    | assumption
    | (extract_lets +onlyGivenNames z
       refine Keeps.let z ?_ ?_
       subst z
       rotate_left
       clear_value z
       revert z
       intro y hy
       rotate_left)
    | (extract_lets +onlyGivenNames z; revert z; intro y)
    | exact Keeps.rfl
    | refine Keeps.ite ?_ ?_
    | apply Keeps.next ?_ (State.wr_keeps _ _ _) ?_
    | apply Keeps.next ?_ (State.raiseSource_keeps _ _ _ _) ?_
    | decide
    | dsimp -zeta only

theorem State.brkEvt_keeps (s : State) (a1 : Nat) :
    Keeps [.host, .recorder] s (State.brkEvt s a1) := by
  unfold State.brkEvt
  with_reducible repeat' first
    | assumption
    | (extract_lets +onlyGivenNames z
       refine Keeps.let z ?_ ?_
       subst z
       rotate_left
       clear_value z
       revert z
       intro y hy
       rotate_left)
    | (extract_lets +onlyGivenNames z; revert z; intro y)
    | exact Keeps.rfl
    | refine Keeps.ite ?_ ?_
    | apply Keeps.next ?_ (State.wr_keeps _ _ _) ?_
    | apply Keeps.next ?_ (State.raiseSource_keeps _ _ _ _) ?_
    | decide
    | dsimp -zeta only

theorem State.timeEvt_keeps (s : State) (a1 : Nat) :
    Keeps [.host, .recorder] s (State.timeEvt s a1) := by
  unfold State.timeEvt
  with_reducible repeat' first
    | assumption
    | (extract_lets +onlyGivenNames z
       refine Keeps.let z ?_ ?_
       subst z
       rotate_left
       clear_value z
       revert z
       intro y hy
       rotate_left)
    | (extract_lets +onlyGivenNames z; revert z; intro y)
    | exact Keeps.rfl
    | refine Keeps.ite ?_ ?_
    | apply Keeps.next ?_ (State.wr_keeps _ _ _) ?_
    | apply Keeps.next ?_ (State.raiseSource_keeps _ _ _ _) ?_
    | decide
    | dsimp -zeta only

theorem State.ringEvt_keeps (s : State) (a1 : Nat) :
    Keeps [.host, .recorder] s (State.ringEvt s a1) := by
  unfold State.ringEvt
  with_reducible repeat' first
    | assumption
    | (extract_lets +onlyGivenNames z
       refine Keeps.let z ?_ ?_
       subst z
       rotate_left
       clear_value z
       revert z
       intro y hy
       rotate_left)
    | (extract_lets +onlyGivenNames z; revert z; intro y)
    | exact Keeps.rfl
    | refine Keeps.ite ?_ ?_
    | apply Keeps.next ?_ (State.wr_keeps _ _ _) ?_
    | apply Keeps.next ?_ (State.raiseSource_keeps _ _ _ _) ?_
    | decide
    | dsimp -zeta only

theorem State.recEvt_keeps (s : State) (a1 : Nat) :
    Keeps [.host, .recorder] s (State.recEvt s a1) := by
  unfold State.recEvt
  with_reducible repeat' first
    | assumption
    | exact Keeps.rfl
    | apply Keeps.next ?_ (State.setEvt_keeps _ _ _ _ _ _ _) ?_
    | decide
    | dsimp -zeta only

theorem State.fwEvt_keeps (s : State) (a1 : Nat) :
    Keeps [.host, .recorder] s (State.fwEvt s a1) := by
  unfold State.fwEvt
  with_reducible repeat' first
    | assumption
    | exact Keeps.rfl
    | apply Keeps.next ?_ (State.setEvt_keeps _ _ _ _ _ _ _) ?_
    | decide
    | dsimp -zeta only

theorem State.pwrEvt_keeps (s : State) (a1 : Nat) :
    Keeps [.host, .recorder] s (State.pwrEvt s a1) := by
  unfold State.pwrEvt
  with_reducible repeat' first
    | assumption
    | exact Keeps.rfl
    | apply Keeps.next ?_ (State.setEvt_keeps _ _ _ _ _ _ _) ?_
    | decide
    | dsimp -zeta only

theorem State.millEvt_keeps (s : State) (a1 : Nat) (a2 : Nat) :
    Keeps [.host, .recorder] s (State.millEvt s a1 a2) := by
  unfold State.millEvt
  with_reducible repeat' first
    | assumption
    | exact Keeps.rfl
    | apply Keeps.next ?_ (State.setEvt_keeps _ _ _ _ _ _ _) ?_
    | decide
    | dsimp -zeta only

theorem State.traceEvt_keeps (s : State) (a1 : Nat) (a2 : Nat) :
    Keeps [.host, .recorder] s (State.traceEvt s a1 a2) := by
  unfold State.traceEvt
  with_reducible repeat' first
    | assumption
    | (extract_lets +onlyGivenNames z
       refine Keeps.let z ?_ ?_
       subst z
       rotate_left
       clear_value z
       revert z
       intro y hy
       rotate_left)
    | (extract_lets +onlyGivenNames z; revert z; intro y)
    | exact Keeps.rfl
    | refine Keeps.ite ?_ ?_
    | apply Keeps.next ?_ (State.wr_keeps _ _ _) ?_
    | apply Keeps.next ?_ (State.raiseSource_keeps _ _ _ _) ?_
    | decide
    | dsimp -zeta only

theorem State.workTick_keeps (s : State) :
    Keeps [.time] s (State.workTick s) := by
  unfold State.workTick
  with_reducible repeat' first
    | assumption
    | (extract_lets +onlyGivenNames z
       refine Keeps.let z ?_ ?_
       subst z
       rotate_left
       clear_value z
       revert z
       intro y hy
       rotate_left)
    | (extract_lets +onlyGivenNames z; revert z; intro y)
    | exact Keeps.rfl
    | refine Keeps.ite ?_ ?_
    | apply Keeps.next ?_ (State.wrb_keeps _ _ _) ?_
    | refine Keeps.upd ?_ List.prefix_rfl (Nat.le_refl _) id (fun p hp => by cases p <;> first | rfl | exact absurd (by decide) hp)
    | decide
    | dsimp -zeta only

theorem State.keepCalendar_keeps (s : State) :
    Keeps [.time] s (State.keepCalendar s) := by
  unfold State.keepCalendar
  with_reducible repeat' first
    | assumption
    | (extract_lets +onlyGivenNames z; revert z; intro y)
    | exact Keeps.rfl
    | refine Keeps.ite ?_ ?_
    | refine Keeps.upd ?_ List.prefix_rfl (Nat.le_refl _) id (fun p hp => by cases p <;> first | rfl | exact absurd (by decide) hp)
    | decide
    | dsimp -zeta only

theorem timeTick_keeps (s : State) :
    Keeps [.time] s (timeTick s) := by
  unfold timeTick
  with_reducible repeat' first
    | assumption
    | (extract_lets +onlyGivenNames z
       refine Keeps.let z ?_ ?_
       subst z
       rotate_left
       clear_value z
       revert z
       intro y hy
       rotate_left)
    | (extract_lets +onlyGivenNames z; revert z; intro y)
    | exact Keeps.rfl
    | refine Keeps.ite ?_ ?_
    | apply Keeps.next ?_ (State.workTick_keeps _) ?_
    | refine Keeps.upd ?_ List.prefix_rfl (Nat.le_refl _) id (fun p hp => by cases p <;> first | rfl | exact absurd (by decide) hp)
    | decide
    | dsimp -zeta only

theorem State.setPort_keeps (s : State) (a1 : Nat) (a2 : SkeinPort) :
    Keeps [.skein] s (State.setPort s a1 a2) := by
  unfold State.setPort
  with_reducible repeat' first
    | assumption
    | (extract_lets +onlyGivenNames z; revert z; intro y)
    | exact Keeps.rfl
    | refine Keeps.upd ?_ List.prefix_rfl (Nat.le_refl _) id (fun p hp => by cases p <;> first | rfl | exact absurd (by decide) hp)
    | decide
    | dsimp -zeta only

theorem State.sending_keeps (s : State) (a1 : Nat) (a2 : Nat) :
    Keeps [.skein] s (State.sending s a1 a2) := by
  unfold State.sending
  with_reducible repeat' first
    | assumption
    | (extract_lets +onlyGivenNames z; revert z; intro y)
    | exact Keeps.rfl
    | apply Keeps.next ?_ (State.setPort_keeps _ _ _) ?_
    | decide
    | dsimp -zeta only

theorem State.endSending_keeps (s : State) (a1 : Nat) :
    Keeps [.skein] s (State.endSending s a1) := by
  unfold State.endSending
  with_reducible repeat' first
    | assumption
    | (extract_lets +onlyGivenNames z; revert z; intro y)
    | exact Keeps.rfl
    | refine Keeps.ite ?_ ?_
    | apply Keeps.next ?_ (State.setPort_keeps _ _ _) ?_
    | apply Keeps.next ?_ (State.emit_keeps _ _) ?_
    | decide
    | dsimp -zeta only

theorem State.launchSkeinIn_keeps (s : State) (a1 : Nat) (a2 : Nat) (a3 : Nat) (a4 : Nat) (a5 : Nat) (a6 : Nat) (a7 : Nat) (a8 : Nat) (a9 : Bytes) :
    Keeps [.skein] s (State.launchSkeinIn s a1 a2 a3 a4 a5 a6 a7 a8 a9) := by
  unfold State.launchSkeinIn
  with_reducible repeat' first
    | assumption
    | (extract_lets +onlyGivenNames z
       refine Keeps.let z ?_ ?_
       subst z
       rotate_left
       clear_value z
       revert z
       intro y hy
       rotate_left)
    | (extract_lets +onlyGivenNames z; revert z; intro y)
    | exact Keeps.rfl
    | refine Keeps.ite ?_ ?_
    | apply Keeps.next ?_ (State.emit_keeps _ _) ?_
    | apply Keeps.next ?_ (State.sending_keeps _ _ _) ?_
    | refine Keeps.upd ?_ List.prefix_rfl (Nat.le_refl _) id (fun p hp => by cases p <;> first | rfl | exact absurd (by decide) hp)
    | decide
    | dsimp -zeta only

theorem State.launchSkein_keeps (s : State) (a1 : Nat) (a2 : Nat) (a3 : Nat) (a4 : Nat) (a5 : Nat) (a6 : Nat) (a7 : Nat) (a8 : Bytes) :
    Keeps [.skein] s (State.launchSkein s a1 a2 a3 a4 a5 a6 a7 a8) := by
  unfold State.launchSkein
  with_reducible repeat' first
    | assumption
    | exact Keeps.rfl
    | apply Keeps.next ?_ (State.launchSkeinIn_keeps _ _ _ _ _ _ _ _ _ _) ?_
    | decide
    | dsimp -zeta only

theorem State.sendPly_keeps (s : State) (a1 : Nat) (a2 : Nat) (a3 : Bytes) :
    Keeps [.ply] s (State.sendPly s a1 a2 a3) := by
  unfold State.sendPly
  with_reducible repeat' first
    | assumption
    | (extract_lets +onlyGivenNames z
       refine Keeps.let z ?_ ?_
       subst z
       rotate_left
       clear_value z
       revert z
       intro y hy
       rotate_left)
    | (extract_lets +onlyGivenNames z; revert z; intro y)
    | exact Keeps.rfl
    | refine Keeps.ite ?_ ?_
    | apply Keeps.next ?_ (State.emit_keeps _ _) ?_
    | refine Keeps.upd ?_ List.prefix_rfl (Nat.le_refl _) id (fun p hp => by cases p <;> first | rfl | exact absurd (by decide) hp)
    | decide
    | dsimp -zeta only

theorem State.plyTake_keeps (s : State) (a1 : Nat) (a2 : PlyHdr) :
    Keeps [.ply] s (State.plyTake s a1 a2).1 := by
  unfold State.plyTake
  with_reducible repeat' first
    | assumption
    | (extract_lets +onlyGivenNames z; revert z; intro y)
    | exact Keeps.rfl
    | refine Keeps.ite ?_ ?_
    | refine Keeps.ite1 ?_ ?_
    | apply Keeps.next ?_ (State.inc_keeps _ _) ?_
    | split
    | refine Keeps.upd ?_ List.prefix_rfl (Nat.le_refl _) id (fun p hp => by cases p <;> first | rfl | exact absurd (by decide) hp)
    | decide
    | dsimp -zeta only

theorem State.putCell_keeps (s : State) (a1 : Nat) (a2 : SlotCell) :
    Keeps [.image] s (State.putCell s a1 a2) := by
  unfold State.putCell
  with_reducible repeat' first
    | assumption
    | (extract_lets +onlyGivenNames z; revert z; intro y)
    | exact Keeps.rfl
    | refine Keeps.upd ?_ List.prefix_rfl (Nat.le_refl _) id (fun p hp => by cases p <;> first | rfl | exact absurd (by decide) hp)
    | decide
    | dsimp -zeta only

theorem State.saveSlot_keeps (s : State) (a1 : Nat) :
    Keeps [.ply] s (State.saveSlot s a1) := by
  unfold State.saveSlot
  with_reducible repeat' first
    | assumption
    | (extract_lets +onlyGivenNames z; revert z; intro y)
    | exact Keeps.rfl
    | refine Keeps.ite ?_ ?_
    | refine Keeps.upd ?_ List.prefix_rfl (Nat.le_refl _) id (fun p hp => by cases p <;> first | rfl | exact absurd (by decide) hp)
    | decide
    | dsimp -zeta only

theorem State.saveForces_keeps (s : State) :
    Keeps [.ply] s (State.saveForces s) := by
  unfold State.saveForces
  with_reducible repeat' first
    | assumption
    | (extract_lets +onlyGivenNames z; revert z; intro y)
    | exact Keeps.rfl
    | refine Keeps.ite ?_ ?_
    | refine Keeps.upd ?_ List.prefix_rfl (Nat.le_refl _) id (fun p hp => by cases p <;> first | rfl | exact absurd (by decide) hp)
    | decide
    | dsimp -zeta only

theorem State.setCell_keeps (s : State) (a1 : Nat) (a2 : SlotCell) :
    Keeps [.image, .ply] s (State.setCell s a1 a2) := by
  unfold State.setCell
  with_reducible repeat' first
    | assumption
    | exact Keeps.rfl
    | apply Keeps.next ?_ (State.putCell_keeps _ _ _) ?_
    | apply Keeps.next ?_ (State.saveSlot_keeps _ _) ?_
    | decide
    | dsimp -zeta only

theorem State.noteWords_keeps (s : State) (a1 : Nat) (a2 : List Nat) :
    Keeps [.ply] s (State.noteWords s a1 a2) := by
  unfold State.noteWords
  with_reducible repeat' first
    | assumption
    | (extract_lets +onlyGivenNames z; revert z; intro y)
    | exact Keeps.rfl
    | refine Keeps.upd ?_ List.prefix_rfl (Nat.le_refl _) id (fun p hp => by cases p <;> first | rfl | exact absurd (by decide) hp)
    | decide
    | dsimp -zeta only

theorem State.saveTask_keeps (s : State) (a1 : Nat) (a2 : Nat) (a3 : List Nat) :
    Keeps [.ply] s (State.saveTask s a1 a2 a3) := by
  unfold State.saveTask
  with_reducible repeat' first
    | assumption
    | (extract_lets +onlyGivenNames z
       refine Keeps.let z ?_ ?_
       subst z
       rotate_left
       clear_value z
       revert z
       intro y hy
       rotate_left)
    | (extract_lets +onlyGivenNames z; revert z; intro y)
    | exact Keeps.rfl
    | refine Keeps.ite ?_ ?_
    | apply Keeps.next ?_ (State.noteWords_keeps _ _ _) ?_
    | split
    | refine Keeps.upd ?_ List.prefix_rfl (Nat.le_refl _) id (fun p hp => by cases p <;> first | rfl | exact absurd (by decide) hp)
    | decide
    | dsimp -zeta only

theorem State.saveLoop_keeps (s : State) (a1 : Nat) (a2 : Nat) :
    Keeps [.ply] s (State.saveLoop s a1 a2) := by
  unfold State.saveLoop
  with_reducible repeat' first
    | assumption
    | (extract_lets +onlyGivenNames z
       refine Keeps.let z ?_ ?_
       subst z
       rotate_left
       clear_value z
       revert z
       intro y hy
       rotate_left)
    | (extract_lets +onlyGivenNames z; revert z; intro y)
    | exact Keeps.rfl
    | refine Keeps.ite ?_ ?_
    | apply Keeps.next ?_ (State.noteWords_keeps _ _ _) ?_
    | split
    | refine Keeps.upd ?_ List.prefix_rfl (Nat.le_refl _) id (fun p hp => by cases p <;> first | rfl | exact absurd (by decide) hp)
    | decide
    | dsimp -zeta only

theorem State.barKey_keeps (s : State) (a1 : Nat) (a2 : Nat) :
    Keeps [.image] s (State.barKey s a1 a2) := by
  unfold State.barKey
  with_reducible repeat' first
    | assumption
    | (extract_lets +onlyGivenNames z; revert z; intro y)
    | exact Keeps.rfl
    | refine Keeps.ite ?_ ?_
    | split
    | refine Keeps.upd ?_ List.prefix_rfl (Nat.le_refl _) id (fun p hp => by cases p <;> first | rfl | exact absurd (by decide) hp)
    | decide
    | dsimp -zeta only

theorem State.takeInput_keeps (s : State) (a1 : Nat) (a2 : Sample) (a3 : Nat) (a4 : Bool) (a5 : Bool) (a6 : Bool) :
    Keeps [.image, .ply] s (State.takeInput s a1 a2 a3 a4 a5 a6) := by
  unfold State.takeInput
  with_reducible repeat' first
    | assumption
    | (extract_lets +onlyGivenNames z
       refine Keeps.let z ?_ ?_
       subst z
       rotate_left
       clear_value z
       revert z
       intro y hy
       rotate_left)
    | (extract_lets +onlyGivenNames z; revert z; intro y)
    | exact Keeps.rfl
    | apply Keeps.next ?_ (State.setCell_keeps _ _ _) ?_
    | apply Keeps.next ?_ (State.barKey_keeps _ _ _) ?_
    | refine Keeps.upd ?_ List.prefix_rfl (Nat.le_refl _) id (fun p hp => by cases p <;> first | rfl | exact absurd (by decide) hp)
    | decide
    | dsimp -zeta only

theorem State.substitute_keeps (s : State) (a1 : Nat) :
    Keeps [.image, .ply] s (State.substitute s a1) := by
  unfold State.substitute
  with_reducible repeat' first
    | assumption
    | (extract_lets +onlyGivenNames z
       refine Keeps.let z ?_ ?_
       subst z
       rotate_left
       clear_value z
       revert z
       intro y hy
       rotate_left)
    | (extract_lets +onlyGivenNames z; revert z; intro y)
    | exact Keeps.rfl
    | refine Keeps.ite ?_ ?_
    | apply Keeps.next ?_ (State.setCell_keeps _ _ _) ?_
    | split
    | refine Keeps.upd ?_ List.prefix_rfl (Nat.le_refl _) id (fun p hp => by cases p <;> first | rfl | exact absurd (by decide) hp)
    | decide
    | dsimp -zeta only

theorem State.rebuildPayloads_keeps (s : State) :
    Keeps [.brake] s (State.rebuildPayloads s) := by
  unfold State.rebuildPayloads
  with_reducible repeat' first
    | assumption
    | (extract_lets +onlyGivenNames z; revert z; intro y)
    | exact Keeps.rfl
    | refine Keeps.upd ?_ List.prefix_rfl (Nat.le_refl _) id (fun p hp => by cases p <;> first | rfl | exact absurd (by decide) hp)
    | decide
    | dsimp -zeta only

theorem State.queueRecord_keeps (s : State) (a1 : RecEntry) :
    Keeps [.host, .recorder] s (State.queueRecord s a1) := by
  unfold State.queueRecord
  with_reducible repeat' first
    | assumption
    | (extract_lets +onlyGivenNames z
       refine Keeps.let z ?_ ?_
       subst z
       rotate_left
       clear_value z
       revert z
       intro y hy
       rotate_left)
    | (extract_lets +onlyGivenNames z; revert z; intro y)
    | exact Keeps.rfl
    | refine Keeps.ite ?_ ?_
    | apply Keeps.next ?_ (State.recEvt_keeps _ _) ?_
    | apply Keeps.next ?_ (State.inc_keeps _ _) ?_
    | apply Keeps.next ?_ (State.wr_keeps _ _ _) ?_
    | refine Keeps.upd ?_ List.prefix_rfl (Nat.le_refl _) id (fun p hp => by cases p <;> first | rfl | exact absurd (by decide) hp)
    | decide
    | dsimp -zeta only

theorem State.takeRecord_keeps (s : State) (a1 : RecRaise) (a2 : Nat) :
    Keeps [.host, .recorder] s (State.takeRecord s a1 a2) := by
  unfold State.takeRecord
  with_reducible repeat' first
    | assumption
    | (extract_lets +onlyGivenNames z
       refine Keeps.let z ?_ ?_
       subst z
       rotate_left
       clear_value z
       revert z
       intro y hy
       rotate_left)
    | (extract_lets +onlyGivenNames z; revert z; intro y)
    | exact Keeps.rfl
    | apply Keeps.next ?_ (State.queueRecord_keeps _ _) ?_
    | refine Keeps.upd ?_ List.prefix_rfl (Nat.le_refl _) id (fun p hp => by cases p <;> first | rfl | exact absurd (by decide) hp)
    | decide
    | dsimp -zeta only

theorem State.fireGasp_keeps (s : State) (a1 : Nat) :
    Keeps [.host, .recorder] s (State.fireGasp s a1) := by
  unfold State.fireGasp
  with_reducible repeat' first
    | assumption
    | (extract_lets +onlyGivenNames z
       refine Keeps.let z ?_ ?_
       subst z
       rotate_left
       clear_value z
       revert z
       intro y hy
       rotate_left)
    | (extract_lets +onlyGivenNames z; revert z; intro y)
    | exact Keeps.rfl
    | apply Keeps.next ?_ (State.fireTrigger_keeps _ _ _ _ _) ?_
    | apply Keeps.next ?_ (State.takeRecord_keeps _ _ _) ?_
    | split
    | refine Keeps.upd ?_ List.prefix_rfl (Nat.le_refl _) id (fun p hp => by cases p <;> first | rfl | exact absurd (by decide) hp)
    | decide
    | dsimp -zeta only

theorem State.sendBrake_keeps (s : State) (a1 : Nat) :
    Keeps [.skein] s (State.sendBrake s a1) := by
  unfold State.sendBrake
  with_reducible repeat' first
    | assumption
    | exact Keeps.rfl
    | apply Keeps.next ?_ (State.launchSkein_keeps _ _ _ _ _ _ _ _ _) ?_
    | split
    | decide
    | dsimp -zeta only

theorem State.sendBrakes_keeps (s : State) (a1 : Nat) :
    Keeps [.skein] s (State.sendBrakes s a1) := by
  unfold State.sendBrakes
  with_reducible repeat' first
    | assumption
    | exact Keeps.rfl
    | refine Keeps.foldl _ _ ?_ ?_
    | apply Keeps.next ?_ (State.sendBrake_keeps _ _) ?_
    | decide
    | intro y
    | dsimp -zeta only

theorem State.brakePort_keeps (s : State) (a1 : Nat) :
    Keeps [.skein] s (State.brakePort s a1) := by
  unfold State.brakePort
  with_reducible repeat' first
    | assumption
    | exact Keeps.rfl
    | apply Keeps.next ?_ (State.sendBrakes_keeps _ _) ?_
    | apply Keeps.next ?_ (State.endSending_keeps _ _) ?_
    | decide
    | dsimp -zeta only

theorem State.evalMatrix_keeps (s : State) :
    Keeps [.skein, .brake, .host, .recorder] s (State.evalMatrix s) := by
  unfold State.evalMatrix
  with_reducible repeat' first
    | assumption
    | (extract_lets +onlyGivenNames z
       refine Keeps.let z ?_ ?_
       subst z
       rotate_left
       clear_value z
       revert z
       intro y hy
       rotate_left)
    | (extract_lets +onlyGivenNames z; revert z; intro y)
    | exact Keeps.rfl
    | refine Keeps.ite ?_ ?_
    | refine Keeps.foldl _ _ ?_ ?_
    | apply Keeps.next ?_ (State.wr_keeps _ _ _) ?_
    | apply Keeps.next ?_ (State.brakePort_keeps _ _) ?_
    | apply Keeps.next ?_ (State.brkEvt_keeps _ _) ?_
    | refine Keeps.upd ?_ List.prefix_rfl (Nat.le_refl _) id (fun p hp => by cases p <;> first | rfl | exact absurd (by decide) hp)
    | decide
    | intro y
    | dsimp -zeta only

theorem State.stampWords_keeps (s : State) (a1 : Nat → Fld) (a2 : Nat) :
    Keeps [] s (State.stampWords s a1 a2) := by
  unfold State.stampWords
  with_reducible repeat' first
    | assumption
    | exact Keeps.rfl
    | refine Keeps.foldl _ _ ?_ ?_
    | apply Keeps.next ?_ (State.wr_keeps _ _ _) ?_
    | decide
    | intro y
    | dsimp -zeta only

theorem State.stampRow_keeps (s : State) (a1 : Nat) :
    Keeps [.time] s (State.stampRow s a1) := by
  unfold State.stampRow
  with_reducible repeat' first
    | assumption
    | (extract_lets +onlyGivenNames z
       refine Keeps.let z ?_ ?_
       subst z
       rotate_left
       clear_value z
       revert z
       intro y hy
       rotate_left)
    | (extract_lets +onlyGivenNames z; revert z; intro y)
    | exact Keeps.rfl
    | refine Keeps.ite ?_ ?_
    | apply Keeps.next ?_ (State.inc_keeps _ _) ?_
    | apply Keeps.next ?_ (timeTick_keeps _) ?_
    | apply Keeps.next ?_ (State.stampWords_keeps _ _ _) ?_
    | apply Keeps.next ?_ (State.wr_keeps _ _ _) ?_
    | decide
    | dsimp -zeta only

theorem State.traceBrake_keeps (s : State) (a1 : Nat) :
    Keeps [.trace] s (State.traceBrake s a1) := by
  unfold State.traceBrake
  with_reducible repeat' first
    | assumption
    | (extract_lets +onlyGivenNames z; revert z; intro y)
    | exact Keeps.rfl
    | refine Keeps.ite ?_ ?_
    | refine Keeps.upd ?_ List.prefix_rfl (Nat.le_refl _) id (fun p hp => by cases p <;> first | rfl | exact absurd (by decide) hp)
    | decide
    | dsimp -zeta only

theorem State.setRow_keeps (s : State) (a1 : Nat) (a2 : Bool) :
    Keeps [.skein, .trace, .time, .rows, .brake, .host, .recorder] s (State.setRow s a1 a2) := by
  unfold State.setRow
  with_reducible repeat' first
    | assumption
    | (extract_lets +onlyGivenNames z
       refine Keeps.let z ?_ ?_
       subst z
       rotate_left
       clear_value z
       revert z
       intro y hy
       rotate_left)
    | (extract_lets +onlyGivenNames z; revert z; intro y)
    | exact Keeps.rfl
    | refine Keeps.ite ?_ ?_
    | apply Keeps.next ?_ (State.wr_keeps _ _ _) ?_
    | apply Keeps.next ?_ (State.stampRow_keeps _ _) ?_
    | apply Keeps.next ?_ (State.traceBrake_keeps _ _) ?_
    | apply Keeps.next ?_ (State.brkEvt_keeps _ _) ?_
    | apply Keeps.next ?_ (State.evalMatrix_keeps _) ?_
    | refine Keeps.upd ?_ List.prefix_rfl (Nat.le_refl _) id (fun p hp => by cases p <;> first | rfl | exact absurd (by decide) hp)
    | decide
    | dsimp -zeta only

theorem State.lossRows_keeps (s : State) :
    Keeps [.skein, .trace, .time, .rows, .brake, .host, .recorder] s (State.lossRows s) := by
  unfold State.lossRows
  with_reducible repeat' first
    | assumption
    | exact Keeps.rfl
    | refine Keeps.foldl _ _ ?_ ?_
    | apply Keeps.next ?_ (State.setRow_keeps _ _ _) ?_
    | decide
    | intro y
    | dsimp -zeta only

theorem State.row19_keeps (s : State) :
    Keeps [.skein, .trace, .time, .rows, .brake, .host, .recorder] s (State.row19 s) := by
  unfold State.row19
  with_reducible repeat' first
    | assumption
    | exact Keeps.rfl
    | apply Keeps.next ?_ (State.setRow_keeps _ _ _) ?_
    | decide
    | dsimp -zeta only

theorem State.acViolation_keeps (s : State) (a1 : Nat) (a2 : Nat) (a3 : Nat) (a4 : Nat) (a5 : Nat) (a6 : Nat) :
    Keeps [.host, .recorder] s (State.acViolation s a1 a2 a3 a4 a5 a6) := by
  unfold State.acViolation
  with_reducible repeat' first
    | assumption
    | (extract_lets +onlyGivenNames z
       refine Keeps.let z ?_ ?_
       subst z
       rotate_left
       clear_value z
       revert z
       intro y hy
       rotate_left)
    | (extract_lets +onlyGivenNames z; revert z; intro y)
    | exact Keeps.rfl
    | refine Keeps.ite ?_ ?_
    | apply Keeps.next ?_ (State.acNote_keeps _ _ _ _ _ _ _) ?_
    | apply Keeps.next ?_ (State.raiseSource_keeps _ _ _ _) ?_
    | decide
    | dsimp -zeta only

theorem State.acAccess_keeps (s : State) (a1 : Nat) (a2 : Nat) (a3 : Nat) (a4 : Nat) (a5 : Nat) :
    Keeps [.host, .recorder] s (State.acAccess s a1 a2 a3 a4 a5).1 := by
  unfold State.acAccess
  with_reducible repeat' first
    | assumption
    | exact Keeps.rfl
    | apply Keeps.next ?_ (State.acViolation_keeps _ _ _ _ _ _ _) ?_
    | split
    | decide
    | dsimp -zeta only

theorem State.hostRead_keeps {A : List Part} {s0 s : State} {off : Nat} {f : State → State × Nat}
    (hA : ∀ p ∈ [Part.host, .recorder], p ∈ A) (h : Keeps A s0 s) (hf : ∀ y, Keeps A s0 y → Keeps A s0 (f y).1) :
    Keeps A s0 (s.hostRead off f) := by
  have he : ∀ y r, Keeps A s0 y → Keeps A s0 (y.emit r) := fun y r hy =>
    hy.next (State.emit_keeps _ _) (fun p hp => nomatch hp)
  have hr : Keeps A s0 (s.acAccess 0 0 0 (bar0Addr off) 4).1 := h.next (State.acAccess_keeps _ _ _ _ _ _) hA
  unfold State.hostRead
  split
  · exact he _ _ (hf _ h)
  · split
    · next heq => rw [heq] at hr; exact he _ _ hr
    · next heq => rw [heq] at hr; exact he _ _ (hf _ hr)


theorem State.dmaError_keeps (s : State) (a1 : Nat) (a2 : Nat) :
    Keeps [.host, .recorder] s (State.dmaError s a1 a2) := by
  unfold State.dmaError
  with_reducible repeat' first
    | assumption
    | (extract_lets +onlyGivenNames z
       refine Keeps.let z ?_ ?_
       subst z
       rotate_left
       clear_value z
       revert z
       intro y hy
       rotate_left)
    | exact Keeps.rfl
    | apply Keeps.next ?_ (State.wr_keeps _ _ _) ?_
    | apply Keeps.next ?_ (State.raiseSource_keeps _ _ _ _) ?_
    | decide
    | dsimp -zeta only

theorem State.writeCpl_keeps (s : State) (a1 : Completion) :
    Keeps [.host, .recorder] s (State.writeCpl s a1) := by
  unfold State.writeCpl
  with_reducible repeat' first
    | assumption
    | (extract_lets +onlyGivenNames z
       refine Keeps.let z ?_ ?_
       subst z
       rotate_left
       clear_value z
       revert z
       intro y hy
       rotate_left)
    | (extract_lets +onlyGivenNames z; revert z; intro y)
    | exact Keeps.rfl
    | refine Keeps.ite ?_ ?_
    | refine Keeps.ite1 ?_ ?_
    | (rename (_ : State × _) = _ => heq
       refine Keeps.pair heq ?_ ?_ <;> clear heq
       rotate_left
       intro hy
       rotate_left)
    | apply Keeps.next ?_ (State.acAccess_keeps _ _ _ _ _ _) ?_
    | apply Keeps.next ?_ (State.dmaError_keeps _ _ _) ?_
    | apply Keeps.next ?_ (State.emit_keeps _ _) ?_
    | apply Keeps.next ?_ (State.wrb_keeps _ _ _) ?_
    | apply Keeps.next ?_ (State.raiseSource_keeps _ _ _ _) ?_
    | split
    | refine Keeps.upd ?_ List.prefix_rfl (Nat.le_refl _) id (fun p hp => by cases p <;> first | rfl | exact absurd (by decide) hp)
    | decide
    | dsimp -zeta only

theorem State.complete_keeps (s : State) (a1 : HostCmd) (a2 : Nat) (a3 : Nat) (a4 : Nat) (a5 : Nat) :
    Keeps [.host, .recorder] s (State.complete s a1 a2 a3 a4 a5) := by
  unfold State.complete
  with_reducible repeat' first
    | assumption
    | (extract_lets +onlyGivenNames z
       refine Keeps.let z ?_ ?_
       subst z
       rotate_left
       clear_value z
       revert z
       intro y hy
       rotate_left)
    | (extract_lets +onlyGivenNames z; revert z; intro y)
    | exact Keeps.rfl
    | refine Keeps.ite ?_ ?_
    | apply Keeps.next ?_ (State.dmaError_keeps _ _ _) ?_
    | apply Keeps.next ?_ (State.wrb_keeps _ _ _) ?_
    | apply Keeps.next ?_ (State.writeCpl_keeps _ _) ?_
    | refine Keeps.upd ?_ List.prefix_rfl (Nat.le_refl _) id (fun p hp => by cases p <;> first | rfl | exact absurd (by decide) hp)
    | decide
    | dsimp -zeta only

theorem State.busyBits_keeps (s : State) :
    Keeps [] s (State.busyBits s) := by
  unfold State.busyBits
  with_reducible repeat' first
    | assumption
    | exact Keeps.rfl
    | refine Keeps.foldl _ _ ?_ ?_
    | apply Keeps.next ?_ (State.wrb_keeps _ _ _) ?_
    | decide
    | intro y
    | dsimp -zeta only

theorem State.holdCmd_keeps (s : State) (a1 : HostCmd) (a2 : Nat) (a3 : Option Nat) (a4 : Option Nat) :
    Keeps [.host] s (State.holdCmd s a1 a2 a3 a4) := by
  unfold State.holdCmd
  with_reducible repeat' first
    | assumption
    | (extract_lets +onlyGivenNames z
       refine Keeps.let z ?_ ?_
       subst z
       rotate_left
       clear_value z
       revert z
       intro y hy
       rotate_left)
    | (extract_lets +onlyGivenNames z; revert z; intro y)
    | exact Keeps.rfl
    | apply Keeps.next ?_ (State.busyBits_keeps _) ?_
    | refine Keeps.upd ?_ List.prefix_rfl (Nat.le_refl _) id (fun p hp => by cases p <;> first | rfl | exact absurd (by decide) hp)
    | decide
    | dsimp -zeta only

theorem State.finish_keeps (s : State) (a1 : MillerCmd → Bool) (a2 : Nat) (a3 : Nat) (a4 : Nat) (a5 : Nat) :
    Keeps [.host, .recorder] s (State.finish s a1 a2 a3 a4 a5) := by
  unfold State.finish
  with_reducible repeat' first
    | assumption
    | (extract_lets +onlyGivenNames z
       refine Keeps.let z ?_ ?_
       subst z
       rotate_left
       clear_value z
       revert z
       intro y hy
       rotate_left)
    | (extract_lets +onlyGivenNames z; revert z; intro y)
    | exact Keeps.rfl
    | refine Keeps.ite ?_ ?_
    | refine Keeps.foldl _ _ ?_ ?_
    | apply Keeps.next ?_ (State.busyBits_keeps _) ?_
    | apply Keeps.next ?_ (State.complete_keeps _ _ _ _ _ _) ?_
    | refine Keeps.upd ?_ List.prefix_rfl (Nat.le_refl _) id (fun p hp => by cases p <;> first | rfl | exact absurd (by decide) hp)
    | decide
    | intro y
    | dsimp -zeta only

theorem State.hopState_keeps (s : State) :
    Keeps [] s (State.hopState s) := by
  unfold State.hopState
  with_reducible repeat' first
    | assumption
    | exact Keeps.rfl
    | refine Keeps.ite ?_ ?_
    | apply Keeps.next ?_ (State.wr_keeps _ _ _) ?_
    | decide
    | dsimp -zeta only

theorem State.dropArmed_keeps (s : State) (a1 : Option (Nat × Nat)) :
    Keeps [.hop] s (State.dropArmed s a1) := by
  unfold State.dropArmed
  with_reducible repeat' first
    | assumption
    | (extract_lets +onlyGivenNames z
       refine Keeps.let z ?_ ?_
       subst z
       rotate_left
       clear_value z
       revert z
       intro y hy
       rotate_left)
    | (extract_lets +onlyGivenNames z; revert z; intro y)
    | exact Keeps.rfl
    | refine Keeps.ite ?_ ?_
    | apply Keeps.next ?_ (State.wr_keeps _ _ _) ?_
    | apply Keeps.next ?_ (State.hopState_keeps _) ?_
    | split
    | refine Keeps.upd ?_ List.prefix_rfl (Nat.le_refl _) id (fun p hp => by cases p <;> first | rfl | exact absurd (by decide) hp)
    | decide
    | dsimp -zeta only

theorem State.finishAcked_keeps (s : State) :
    Keeps [.host, .recorder] s (State.finishAcked s) := by
  unfold State.finishAcked
  with_reducible repeat' first
    | assumption
    | (extract_lets +onlyGivenNames z; revert z; intro y)
    | exact Keeps.rfl
    | refine Keeps.foldl _ _ ?_ ?_
    | apply Keeps.next ?_ (State.finish_keeps _ _ _ _ _ _) ?_
    | decide
    | intro y
    | dsimp -zeta only

theorem State.stopCommands_keeps (s : State) :
    Keeps [.hop, .ply, .host, .recorder] s (State.stopCommands s) := by
  unfold State.stopCommands
  with_reducible repeat' first
    | assumption
    | (extract_lets +onlyGivenNames z
       refine Keeps.let z ?_ ?_
       subst z
       rotate_left
       clear_value z
       revert z
       intro y hy
       rotate_left)
    | (extract_lets +onlyGivenNames z; revert z; intro y)
    | exact Keeps.rfl
    | refine Keeps.ite ?_ ?_
    | apply Keeps.next ?_ (State.finish_keeps _ _ _ _ _ _) ?_
    | apply Keeps.next ?_ (State.finishAcked_keeps _) ?_
    | apply Keeps.next ?_ (State.dropArmed_keeps _ _) ?_
    | apply Keeps.next ?_ (State.hopState_keeps _) ?_
    | refine Keeps.upd ?_ List.prefix_rfl (Nat.le_refl _) id (fun p hp => by cases p <;> first | rfl | exact absurd (by decide) hp)
    | decide
    | dsimp -zeta only

theorem State.writeTrc_keeps (s : State) (a1 : Nat) (a2 : Bytes) (a3 : Bytes) (a4 : Bytes) :
    Keeps [.host, .recorder] s (State.writeTrc s a1 a2 a3 a4) := by
  unfold State.writeTrc
  with_reducible repeat' first
    | assumption
    | (extract_lets +onlyGivenNames z
       refine Keeps.let z ?_ ?_
       subst z
       rotate_left
       clear_value z
       revert z
       intro y hy
       rotate_left)
    | (extract_lets +onlyGivenNames z; revert z; intro y)
    | exact Keeps.rfl
    | (rename (_ : State × _) = _ => heq
       refine Keeps.pair heq ?_ ?_ <;> clear heq
       rotate_left
       intro hy
       rotate_left)
    | apply Keeps.next ?_ (State.acAccess_keeps _ _ _ _ _ _) ?_
    | apply Keeps.next ?_ (State.dmaError_keeps _ _ _) ?_
    | apply Keeps.next ?_ (State.emit_keeps _ _) ?_
    | apply Keeps.next ?_ (State.raiseSource_keeps _ _ _ _) ?_
    | split
    | refine Keeps.upd ?_ List.prefix_rfl (Nat.le_refl _) id (fun p hp => by cases p <;> first | rfl | exact absurd (by decide) hp)
    | decide
    | dsimp -zeta only

theorem State.setMuted_keeps (s : State) (a1 : Bool) :
    Keeps [] s (State.setMuted s a1) := by
  unfold State.setMuted
  with_reducible repeat' first
    | assumption
    | exact Keeps.rfl
    | apply Keeps.next ?_ (State.wrb_keeps _ _ _) ?_
    | decide
    | dsimp -zeta only

theorem State.setPlyState_keeps (s : State) (a1 : Nat) :
    Keeps [.hop, .skein, .trace, .time, .ply, .rows, .brake, .host, .recorder] s (State.setPlyState s a1) := by
  unfold State.setPlyState
  with_reducible repeat' first
    | assumption
    | (extract_lets +onlyGivenNames z
       refine Keeps.let z ?_ ?_
       subst z
       rotate_left
       clear_value z
       revert z
       intro y hy
       rotate_left)
    | (extract_lets +onlyGivenNames z; revert z; intro y)
    | exact Keeps.rfl
    | refine Keeps.ite ?_ ?_
    | refine Keeps.foldl _ _ ?_ ?_
    | apply Keeps.next ?_ (State.dropArmed_keeps _ _) ?_
    | apply Keeps.next ?_ (State.plyEvt_keeps _ _) ?_
    | apply Keeps.next ?_ (State.wr_keeps _ _ _) ?_
    | apply Keeps.next ?_ (State.row19_keeps _) ?_
    | refine Keeps.upd ?_ List.prefix_rfl (Nat.le_refl _) id (fun p hp => by cases p <;> first | rfl | exact absurd (by decide) hp)
    | decide
    | intro y
    | dsimp -zeta only

theorem State.abdicate_keeps (s : State) (a1 : Nat) :
    Keeps [.hop, .skein, .trace, .time, .ply, .rows, .brake, .host, .recorder] s (State.abdicate s a1) := by
  unfold State.abdicate
  with_reducible repeat' first
    | assumption
    | (extract_lets +onlyGivenNames z
       refine Keeps.let z ?_ ?_
       subst z
       rotate_left
       clear_value z
       revert z
       intro y hy
       rotate_left)
    | (extract_lets +onlyGivenNames z; revert z; intro y)
    | exact Keeps.rfl
    | refine Keeps.ite ?_ ?_
    | apply Keeps.next ?_ (State.wr_keeps _ _ _) ?_
    | apply Keeps.next ?_ (State.setMuted_keeps _ _) ?_
    | apply Keeps.next ?_ (State.stopCommands_keeps _) ?_
    | apply Keeps.next ?_ (State.setPlyState_keeps _ _) ?_
    | apply Keeps.next ?_ (State.fireGasp_keeps _ _) ?_
    | refine Keeps.upd ?_ List.prefix_rfl (Nat.le_refl _) id (fun p hp => by cases p <;> first | rfl | exact absurd (by decide) hp)
    | decide
    | dsimp -zeta only

theorem State.leaveTracking_keeps (s : State) (a1 : Nat) :
    Keeps [.hop, .skein, .trace, .time, .ply, .rows, .brake, .host, .recorder] s (State.leaveTracking s a1) := by
  unfold State.leaveTracking
  with_reducible repeat' first
    | assumption
    | (extract_lets +onlyGivenNames z
       refine Keeps.let z ?_ ?_
       subst z
       rotate_left
       clear_value z
       revert z
       intro y hy
       rotate_left)
    | (extract_lets +onlyGivenNames z; revert z; intro y)
    | exact Keeps.rfl
    | refine Keeps.ite ?_ ?_
    | apply Keeps.next ?_ (State.wr_keeps _ _ _) ?_
    | apply Keeps.next ?_ (State.plyEvt_keeps _ _) ?_
    | apply Keeps.next ?_ (State.setPlyState_keeps _ _) ?_
    | refine Keeps.upd ?_ List.prefix_rfl (Nat.le_refl _) id (fun p hp => by cases p <;> first | rfl | exact absurd (by decide) hp)
    | decide
    | dsimp -zeta only

theorem State.recordFault_keeps (s : State) (a1 : Nat) (a2 : Nat) (a3 : Nat) :
    Keeps [.turn] s (State.recordFault s a1 a2 a3) := by
  unfold State.recordFault
  with_reducible repeat' first
    | assumption
    | (extract_lets +onlyGivenNames z
       refine Keeps.let z ?_ ?_
       subst z
       rotate_left
       clear_value z
       revert z
       intro y hy
       rotate_left)
    | (extract_lets +onlyGivenNames z; revert z; intro y)
    | exact Keeps.rfl
    | apply Keeps.next ?_ (State.wr_keeps _ _ _) ?_
    | refine Keeps.upd ?_ List.prefix_rfl (Nat.le_refl _) id (fun p hp => by cases p <;> first | rfl | exact absurd (by decide) hp)
    | decide
    | dsimp -zeta only

theorem State.selfFault_keeps (s : State) (a1 : Nat) (a2 : Nat) (a3 : Nat) :
    Keeps [.hop, .turn, .skein, .trace, .time, .ply, .rows, .brake, .host, .recorder] s (State.selfFault s a1 a2 a3) := by
  unfold State.selfFault
  with_reducible repeat' first
    | assumption
    | (extract_lets +onlyGivenNames z
       refine Keeps.let z ?_ ?_
       subst z
       rotate_left
       clear_value z
       revert z
       intro y hy
       rotate_left)
    | exact Keeps.rfl
    | refine Keeps.ite ?_ ?_
    | apply Keeps.next ?_ (State.recordFault_keeps _ _ _ _) ?_
    | apply Keeps.next ?_ (State.abdicate_keeps _ _) ?_
    | apply Keeps.next ?_ (State.leaveTracking_keeps _ _) ?_
    | decide
    | dsimp -zeta only

theorem State.raiseEpoch_keeps (s : State) :
    Keeps [.skein, .trace, .time, .rows, .brake, .host, .recorder] s (State.raiseEpoch s).1 := by
  unfold State.raiseEpoch
  with_reducible repeat' first
    | assumption
    | (extract_lets +onlyGivenNames z
       refine Keeps.let z ?_ ?_
       subst z
       rotate_left
       clear_value z
       revert z
       intro y hy
       rotate_left)
    | (extract_lets +onlyGivenNames z; revert z; intro y)
    | exact Keeps.rfl
    | refine Keeps.ite ?_ ?_
    | refine Keeps.ite1 ?_ ?_
    | apply Keeps.next ?_ (State.row19_keeps _) ?_
    | apply Keeps.next ?_ (State.wr_keeps _ _ _) ?_
    | refine Keeps.upd ?_ List.prefix_rfl (Nat.le_refl _) id (fun p hp => by cases p <;> first | rfl | exact absurd (by decide) hp)
    | decide
    | dsimp -zeta only

theorem State.raiseEqual_keeps (s : State) :
    Keeps [.skein, .trace, .time, .ply, .rows, .brake, .host, .recorder] s (State.raiseEqual s) := by
  unfold State.raiseEqual
  with_reducible repeat' first
    | assumption
    | (extract_lets +onlyGivenNames z
       refine Keeps.let z ?_ ?_
       subst z
       rotate_left
       clear_value z
       revert z
       intro y hy
       rotate_left)
    | (extract_lets +onlyGivenNames z; revert z; intro y)
    | exact Keeps.rfl
    | refine Keeps.ite ?_ ?_
    | refine Keeps.ite1 ?_ ?_
    | (rename (_ : State × _) = _ => heq
       refine Keeps.pair heq ?_ ?_ <;> clear heq
       rotate_left
       intro hy
       rotate_left)
    | apply Keeps.next ?_ (State.raiseEpoch_keeps _) ?_
    | refine Keeps.upd ?_ List.prefix_rfl (Nat.le_refl _) id (fun p hp => by cases p <;> first | rfl | exact absurd (by decide) hp)
    | decide
    | dsimp -zeta only

theorem State.sendOrder_keeps (s : State) (a1 : Nat) (a2 : Nat) (a3 : Nat) (a4 : OrderContent) :
    Keeps [.ply] s (State.sendOrder s a1 a2 a3 a4) := by
  unfold State.sendOrder
  with_reducible repeat' first
    | assumption
    | (extract_lets +onlyGivenNames z
       refine Keeps.let z ?_ ?_
       subst z
       rotate_left
       clear_value z
       revert z
       intro y hy
       rotate_left)
    | (extract_lets +onlyGivenNames z; revert z; intro y)
    | exact Keeps.rfl
    | refine Keeps.ite ?_ ?_
    | apply Keeps.next ?_ (State.emit_keeps _ _) ?_
    | refine Keeps.upd ?_ List.prefix_rfl (Nat.le_refl _) id (fun p hp => by cases p <;> first | rfl | exact absurd (by decide) hp)
    | decide
    | dsimp -zeta only

theorem State.captureFull_keeps (s : State) :
    Keeps [.ply] s (State.captureFull s) := by
  unfold State.captureFull
  with_reducible repeat' first
    | assumption
    | (extract_lets +onlyGivenNames z
       refine Keeps.let z ?_ ?_
       subst z
       rotate_left
       clear_value z
       revert z
       intro y hy
       rotate_left)
    | (extract_lets +onlyGivenNames z; revert z; intro y)
    | exact Keeps.rfl
    | refine Keeps.ite ?_ ?_
    | apply Keeps.next ?_ (State.sendOrder_keeps _ _ _ _ _) ?_
    | refine Keeps.upd ?_ List.prefix_rfl (Nat.le_refl _) id (fun p hp => by cases p <;> first | rfl | exact absurd (by decide) hp)
    | decide
    | dsimp -zeta only

theorem State.sendAck_keeps (s : State) (a1 : Nat) (a2 : Nat) (a3 : Bool) :
    Keeps [.ply] s (State.sendAck s a1 a2 a3) := by
  unfold State.sendAck
  with_reducible repeat' first
    | assumption
    | exact Keeps.rfl
    | apply Keeps.next ?_ (State.sendPly_keeps _ _ _ _) ?_
    | decide
    | dsimp -zeta only

theorem State.mirror_keeps (s : State) (a1 : Nat) (a2 : List HostWrite) :
    Keeps [.ply] s (State.mirror s a1 a2) := by
  unfold State.mirror
  with_reducible repeat' first
    | assumption
    | (extract_lets +onlyGivenNames z
       refine Keeps.let z ?_ ?_
       subst z
       rotate_left
       clear_value z
       revert z
       intro y hy
       rotate_left)
    | (extract_lets +onlyGivenNames z; revert z; intro y)
    | exact Keeps.rfl
    | refine Keeps.ite ?_ ?_
    | apply Keeps.next ?_ (State.emit_keeps _ _) ?_
    | refine Keeps.upd ?_ List.prefix_rfl (Nat.le_refl _) id (fun p hp => by cases p <;> first | rfl | exact absurd (by decide) hp)
    | decide
    | dsimp -zeta only

theorem State.queueHeartbeat_keeps (s : State) :
    Keeps [.mill] s (State.queueHeartbeat s) := by
  unfold State.queueHeartbeat
  with_reducible repeat' first
    | assumption
    | (extract_lets +onlyGivenNames z; revert z; intro y)
    | exact Keeps.rfl
    | refine Keeps.ite ?_ ?_
    | refine Keeps.upd ?_ List.prefix_rfl (Nat.le_refl _) id (fun p hp => by cases p <;> first | rfl | exact absurd (by decide) hp)
    | decide
    | dsimp -zeta only

theorem State.resumeLoop_keeps (s : State) (a1 : Nat) :
    Keeps [.loops, .ply] s (State.resumeLoop s a1) := by
  unfold State.resumeLoop
  with_reducible repeat' first
    | assumption
    | (extract_lets +onlyGivenNames z; revert z; intro y)
    | exact Keeps.rfl
    | refine Keeps.ite ?_ ?_
    | split
    | refine Keeps.upd ?_ List.prefix_rfl (Nat.le_refl _) id (fun p hp => by cases p <;> first | rfl | exact absurd (by decide) hp)
    | decide
    | dsimp -zeta only

theorem State.matchSnaps_keeps (s : State) :
    Keeps [.tasks] s (State.matchSnaps s) := by
  unfold State.matchSnaps
  with_reducible repeat' first
    | assumption
    | (extract_lets +onlyGivenNames z; revert z; intro y)
    | exact Keeps.rfl
    | refine Keeps.ite ?_ ?_
    | split
    | refine Keeps.upd ?_ List.prefix_rfl (Nat.le_refl _) id (fun p hp => by cases p <;> first | rfl | exact absurd (by decide) hp)
    | decide
    | dsimp -zeta only

theorem State.resumeAll_keeps (s : State) : Keeps [.loops, .ply, .tasks] s (State.resumeAll s) := by
  unfold State.resumeAll
  with_reducible repeat' first
    | assumption
    | (extract_lets +onlyGivenNames z
       refine Keeps.let z ?_ ?_
       subst z
       rotate_left
       clear_value z
       revert z
       intro y hy
       rotate_left)
    | (extract_lets +onlyGivenNames z; revert z; intro y)
    | exact Keeps.rfl
    | refine Keeps.foldl _ _ ?_ ?_
    | apply Keeps.next ?_ (State.resumeLoop_keeps _ _) ?_
    | apply Keeps.next ?_ (State.matchSnaps_keeps _) ?_
    | refine Keeps.upd ?_ List.prefix_rfl (Nat.le_refl _) id (fun p hp => by cases p <;> first | rfl | exact absurd (by decide) hp)
    | decide
    | intro y
    | dsimp -zeta only

theorem State.recordTakeover_keeps (s : State) (a1 : Nat) : Keeps [] s (State.recordTakeover s a1) := by
  unfold State.recordTakeover
  with_reducible repeat' first
    | assumption
    | (extract_lets +onlyGivenNames z
       refine Keeps.let z ?_ ?_
       subst z
       rotate_left
       clear_value z
       revert z
       intro y hy
       rotate_left)
    | (extract_lets +onlyGivenNames z; revert z; intro y)
    | exact Keeps.rfl
    | apply Keeps.next ?_ (State.wr_keeps _ _ _) ?_
    | apply Keeps.next ?_ (State.inc_keeps _ _) ?_
    | decide
    | dsimp -zeta only

theorem State.takeover_keeps (s : State) (a1 : Nat) :
    Keeps [.hop, .skein, .tasks, .loops, .trace, .time, .ply, .rows, .brake, .host, .mill, .recorder] s (State.takeover s a1) := by
  unfold State.takeover
  with_reducible repeat' first
    | assumption
    | (extract_lets +onlyGivenNames z
       refine Keeps.let z ?_ ?_
       subst z
       rotate_left
       clear_value z
       revert z
       intro y hy
       rotate_left)
    | (extract_lets +onlyGivenNames z; revert z; intro y)
    | exact Keeps.rfl
    | refine Keeps.ite ?_ ?_
    | (rename (_ : State × _) = _ => heq
       refine Keeps.pair heq ?_ ?_ <;> clear heq
       rotate_left
       intro hy
       rotate_left)
    | apply Keeps.next ?_ (State.raiseEpoch_keeps _) ?_
    | apply Keeps.next ?_ (State.resumeAll_keeps _) ?_
    | apply Keeps.next ?_ (State.recordTakeover_keeps _ _) ?_
    | apply Keeps.next ?_ (State.setPlyState_keeps _ _) ?_
    | apply Keeps.next ?_ (State.queueHeartbeat_keeps _) ?_
    | apply Keeps.next ?_ (State.setMuted_keeps _ _) ?_
    | apply Keeps.next ?_ (State.plyEvt_keeps _ _) ?_
    | apply Keeps.next ?_ (State.fireTrigger_keeps _ _ _ _ _) ?_
    | split
    | refine Keeps.upd ?_ List.prefix_rfl (Nat.le_refl _) id (fun p hp => by cases p <;> first | rfl | exact absurd (by decide) hp)
    | decide
    | dsimp -zeta only

theorem State.ringOut_keeps (s : State) (a1 : Bool) (a2 : Bytes) :
    Keeps [] s (State.ringOut s a1 a2) := by
  unfold State.ringOut
  with_reducible repeat' first
    | assumption
    | exact Keeps.rfl
    | refine Keeps.ite ?_ ?_
    | apply Keeps.next ?_ (State.emit_keeps _ _) ?_
    | decide
    | dsimp -zeta only

theorem State.sendRing_keeps (s : State) (a1 : Nat) (a2 : Nat) (a3 : Nat) (a4 : Nat) (a5 : Nat) (a6 : Nat) (a7 : Bytes) :
    Keeps [.ring] s (State.sendRing s a1 a2 a3 a4 a5 a6 a7) := by
  unfold State.sendRing
  with_reducible repeat' first
    | assumption
    | (extract_lets +onlyGivenNames z
       refine Keeps.let z ?_ ?_
       subst z
       rotate_left
       clear_value z
       revert z
       intro y hy
       rotate_left)
    | (extract_lets +onlyGivenNames z; revert z; intro y)
    | exact Keeps.rfl
    | apply Keeps.next ?_ (State.ringOut_keeps _ _ _) ?_
    | refine Keeps.upd ?_ List.prefix_rfl (Nat.le_refl _) id (fun p hp => by cases p <;> first | rfl | exact absurd (by decide) hp)
    | decide
    | dsimp -zeta only

theorem State.takeRingSlot_keeps (s : State) (a1 : Nat) (a2 : Nat) :
    Keeps [.image, .ply] s (State.takeRingSlot s a1 a2) := by
  unfold State.takeRingSlot
  with_reducible repeat' first
    | assumption
    | exact Keeps.rfl
    | apply Keeps.next ?_ (State.takeInput_keeps _ _ _ _ _ _ _) ?_
    | apply Keeps.next ?_ (State.substitute_keeps _ _) ?_
    | split
    | decide
    | dsimp -zeta only

theorem State.prunePubs_keeps (s : State) (a1 : Nat) :
    Keeps [.ring] s (State.prunePubs s a1) := by
  unfold State.prunePubs
  with_reducible repeat' first
    | assumption
    | (extract_lets +onlyGivenNames z; revert z; intro y)
    | exact Keeps.rfl
    | refine Keeps.upd ?_ List.prefix_rfl (Nat.le_refl _) id (fun p hp => by cases p <;> first | rfl | exact absurd (by decide) hp)
    | decide
    | dsimp -zeta only

theorem State.setDom_keeps (s : State) (a1 : Domain) (a2 : TimeDom) :
    Keeps [.time] s (State.setDom s a1 a2) := by
  unfold State.setDom
  with_reducible repeat' first
    | assumption
    | (extract_lets +onlyGivenNames z; revert z; intro y)
    | exact Keeps.rfl
    | refine Keeps.ite ?_ ?_
    | refine Keeps.upd ?_ List.prefix_rfl (Nat.le_refl _) id (fun p hp => by cases p <;> first | rfl | exact absurd (by decide) hp)
    | decide
    | dsimp -zeta only

theorem State.setRole_keeps (s : State) (a1 : Domain) (a2 : Nat) :
    Keeps [] s (State.setRole s a1 a2) := by
  unfold State.setRole
  with_reducible repeat' first
    | assumption
    | exact Keeps.rfl
    | refine Keeps.ite ?_ ?_
    | apply Keeps.next ?_ (State.wr_keeps _ _ _) ?_
    | decide
    | dsimp -zeta only

theorem State.setGen_keeps (s : State) (a1 : Domain) (a2 : Nat) :
    Keeps [] s (State.setGen s a1 a2) := by
  unfold State.setGen
  with_reducible repeat' first
    | assumption
    | exact Keeps.rfl
    | refine Keeps.ite ?_ ?_
    | apply Keeps.next ?_ (State.wr_keeps _ _ _) ?_
    | decide
    | dsimp -zeta only

theorem State.tellCapture_keeps (s : State) (a1 : Int) :
    Keeps [.ply] s (State.tellCapture s a1) := by
  unfold State.tellCapture
  with_reducible repeat' first
    | assumption
    | (extract_lets +onlyGivenNames z
       refine Keeps.let z ?_ ?_
       subst z
       rotate_left
       clear_value z
       revert z
       intro y hy
       rotate_left)
    | (extract_lets +onlyGivenNames z; revert z; intro y)
    | exact Keeps.rfl
    | refine Keeps.ite ?_ ?_
    | apply Keeps.next ?_ (State.sendOrder_keeps _ _ _ _ _) ?_
    | refine Keeps.upd ?_ List.prefix_rfl (Nat.le_refl _) id (fun p hp => by cases p <;> first | rfl | exact absurd (by decide) hp)
    | decide
    | dsimp -zeta only

theorem State.captureO_keeps (s : State) :
    Keeps [.time, .ply, .host, .recorder] s (State.captureO s) := by
  unfold State.captureO
  with_reducible repeat' first
    | assumption
    | (extract_lets +onlyGivenNames z
       refine Keeps.let z ?_ ?_
       subst z
       rotate_left
       clear_value z
       revert z
       intro y hy
       rotate_left)
    | (extract_lets +onlyGivenNames z; revert z; intro y)
    | exact Keeps.rfl
    | refine Keeps.ite ?_ ?_
    | apply Keeps.next ?_ (State.tellCapture_keeps _ _) ?_
    | apply Keeps.next ?_ (State.timeEvt_keeps _ _) ?_
    | apply Keeps.next ?_ (State.wrb_keeps _ _ _) ?_
    | refine Keeps.upd ?_ List.prefix_rfl (Nat.le_refl _) id (fun p hp => by cases p <;> first | rfl | exact absurd (by decide) hp)
    | decide
    | dsimp -zeta only

theorem State.takeCaptured_keeps (s : State) (a1 : Int) :
    Keeps [.time] s (State.takeCaptured s a1) := by
  unfold State.takeCaptured
  with_reducible repeat' first
    | assumption
    | (extract_lets +onlyGivenNames z
       refine Keeps.let z ?_ ?_
       subst z
       rotate_left
       clear_value z
       revert z
       intro y hy
       rotate_left)
    | (extract_lets +onlyGivenNames z; revert z; intro y)
    | exact Keeps.rfl
    | apply Keeps.next ?_ (State.wrb_keeps _ _ _) ?_
    | split
    | refine Keeps.upd ?_ List.prefix_rfl (Nat.le_refl _) id (fun p hp => by cases p <;> first | rfl | exact absurd (by decide) hp)
    | decide
    | dsimp -zeta only

theorem State.wantCapture_keeps (s : State) :
    Keeps [.time, .ply, .host, .recorder] s (State.wantCapture s) := by
  unfold State.wantCapture
  with_reducible repeat' first
    | assumption
    | (extract_lets +onlyGivenNames z
       refine Keeps.let z ?_ ?_
       subst z
       rotate_left
       clear_value z
       revert z
       intro y hy
       rotate_left)
    | (extract_lets +onlyGivenNames z; revert z; intro y)
    | exact Keeps.rfl
    | refine Keeps.ite ?_ ?_
    | apply Keeps.next ?_ (State.captureO_keeps _) ?_
    | apply Keeps.next ?_ (State.sendOrder_keeps _ _ _ _ _) ?_
    | refine Keeps.upd ?_ List.prefix_rfl (Nat.le_refl _) id (fun p hp => by cases p <;> first | rfl | exact absurd (by decide) hp)
    | decide
    | dsimp -zeta only

theorem State.autoSwitch_keeps (s : State) :
    Keeps [.time, .ply] s (State.autoSwitch s) := by
  unfold State.autoSwitch
  with_reducible repeat' first
    | assumption
    | (extract_lets +onlyGivenNames z
       refine Keeps.let z ?_ ?_
       subst z
       rotate_left
       clear_value z
       revert z
       intro y hy
       rotate_left)
    | (extract_lets +onlyGivenNames z; revert z; intro y)
    | exact Keeps.rfl
    | refine Keeps.ite ?_ ?_
    | apply Keeps.next ?_ (State.sendOrder_keeps _ _ _ _ _) ?_
    | refine Keeps.upd ?_ List.prefix_rfl (Nat.le_refl _) id (fun p hp => by cases p <;> first | rfl | exact absurd (by decide) hp)
    | decide
    | dsimp -zeta only

theorem State.workRegs_keeps (s : State) :
    Keeps [.host, .recorder] s (State.workRegs s) := by
  unfold State.workRegs
  with_reducible repeat' first
    | assumption
    | (extract_lets +onlyGivenNames z
       refine Keeps.let z ?_ ?_
       subst z
       rotate_left
       clear_value z
       revert z
       intro y hy
       rotate_left)
    | (extract_lets +onlyGivenNames z; revert z; intro y)
    | exact Keeps.rfl
    | refine Keeps.ite ?_ ?_
    | apply Keeps.next ?_ (State.wr_keeps _ _ _) ?_
    | apply Keeps.next ?_ (State.timeEvt_keeps _ _) ?_
    | decide
    | dsimp -zeta only

theorem State.setDomState_keeps (s : State) (a1 : Domain) (a2 : Nat) :
    Keeps [.time, .ply, .host, .recorder] s (State.setDomState s a1 a2) := by
  unfold State.setDomState
  with_reducible repeat' first
    | assumption
    | (extract_lets +onlyGivenNames z
       refine Keeps.let z ?_ ?_
       subst z
       rotate_left
       clear_value z
       revert z
       intro y hy
       rotate_left)
    | (extract_lets +onlyGivenNames z; revert z; intro y)
    | exact Keeps.rfl
    | refine Keeps.ite ?_ ?_
    | apply Keeps.next ?_ (State.wr_keeps _ _ _) ?_
    | apply Keeps.next ?_ (State.workRegs_keeps _) ?_
    | apply Keeps.next ?_ (State.timeEvt_keeps _ _) ?_
    | apply Keeps.next ?_ (State.wantCapture_keeps _) ?_
    | apply Keeps.next ?_ (State.autoSwitch_keeps _) ?_
    | decide
    | dsimp -zeta only

theorem State.toHoldover_keeps (s : State) (a1 : Domain) :
    Keeps [.time, .ply, .host, .recorder] s (State.toHoldover s a1) := by
  unfold State.toHoldover
  with_reducible repeat' first
    | assumption
    | (extract_lets +onlyGivenNames z; revert z; intro y)
    | exact Keeps.rfl
    | refine Keeps.ite ?_ ?_
    | apply Keeps.next ?_ (State.setDomState_keeps _ _ _) ?_
    | apply Keeps.next ?_ (State.setDom_keeps _ _ _) ?_
    | decide
    | dsimp -zeta only

theorem State.setCal_keeps (s : State) (a1 : Nat) :
    Keeps [.time, .ply, .host, .recorder] s (State.setCal s a1) := by
  unfold State.setCal
  with_reducible repeat' first
    | assumption
    | (extract_lets +onlyGivenNames z
       refine Keeps.let z ?_ ?_
       subst z
       rotate_left
       clear_value z
       revert z
       intro y hy
       rotate_left)
    | (extract_lets +onlyGivenNames z; revert z; intro y)
    | exact Keeps.rfl
    | refine Keeps.ite ?_ ?_
    | apply Keeps.next ?_ (State.wr_keeps _ _ _) ?_
    | apply Keeps.next ?_ (State.timeEvt_keeps _ _) ?_
    | apply Keeps.next ?_ (State.toHoldover_keeps _ _) ?_
    | decide
    | dsimp -zeta only

theorem State.recalibrate_keeps (s : State) :
    Keeps [.time, .ply, .host, .recorder] s (State.recalibrate s) := by
  unfold State.recalibrate
  with_reducible repeat' first
    | assumption
    | (extract_lets +onlyGivenNames z
       refine Keeps.let z ?_ ?_
       subst z
       rotate_left
       clear_value z
       revert z
       intro y hy
       rotate_left)
    | (extract_lets +onlyGivenNames z; revert z; intro y)
    | exact Keeps.rfl
    | refine Keeps.ite ?_ ?_
    | apply Keeps.next ?_ (State.wr_keeps _ _ _) ?_
    | apply Keeps.next ?_ (State.setCal_keeps _ _) ?_
    | refine Keeps.upd ?_ List.prefix_rfl (Nat.le_refl _) id (fun p hp => by cases p <;> first | rfl | exact absurd (by decide) hp)
    | decide
    | dsimp -zeta only

theorem State.memWrite_keeps (s : State) (a : Nat) (b : Bytes) : Keeps [.mem] s (s.memWrite a b) :=
  ⟨rfl, List.prefix_rfl, Nat.le_refl _, memPut_wf a b, fun p hp => by
    cases p <;> first | rfl | exact absurd (by decide) hp⟩


theorem State.setChan_keeps (s : State) (a1 : Nat) (a2 : TraceChan) :
    Keeps [.trace] s (State.setChan s a1 a2) := by
  unfold State.setChan
  with_reducible repeat' first
    | assumption
    | (extract_lets +onlyGivenNames z; revert z; intro y)
    | exact Keeps.rfl
    | refine Keeps.upd ?_ List.prefix_rfl (Nat.le_refl _) id (fun p hp => by cases p <;> first | rfl | exact absurd (by decide) hp)
    | decide
    | dsimp -zeta only

theorem State.setGrp_keeps (s : State) (a1 : Nat) (a2 : TraceGroup) :
    Keeps [.trace] s (State.setGrp s a1 a2) := by
  unfold State.setGrp
  with_reducible repeat' first
    | assumption
    | (extract_lets +onlyGivenNames z; revert z; intro y)
    | exact Keeps.rfl
    | refine Keeps.upd ?_ List.prefix_rfl (Nat.le_refl _) id (fun p hp => by cases p <;> first | rfl | exact absurd (by decide) hp)
    | decide
    | dsimp -zeta only

theorem State.trigger_keeps (s : State) (a1 : Nat) (a2 : Nat) :
    Keeps [.trace] s (State.trigger s a1 a2) := by
  unfold State.trigger
  with_reducible repeat' first
    | assumption
    | (extract_lets +onlyGivenNames z
       refine Keeps.let z ?_ ?_
       subst z
       rotate_left
       clear_value z
       revert z
       intro y hy
       rotate_left)
    | (extract_lets +onlyGivenNames z; revert z; intro y)
    | exact Keeps.rfl
    | refine Keeps.foldl _ _ ?_ ?_
    | apply Keeps.next ?_ (State.wrb_keeps _ _ _) ?_
    | apply Keeps.next ?_ (State.wr_keeps _ _ _) ?_
    | apply Keeps.next ?_ (State.setGrp_keeps _ _ _) ?_
    | apply Keeps.next ?_ (State.setChan_keeps _ _ _) ?_
    | decide
    | intro y
    | dsimp -zeta only

theorem State.traceDone_keeps (s : State) (a1 : Nat) :
    Keeps [.trace, .host, .recorder] s (State.traceDone s a1) := by
  unfold State.traceDone
  with_reducible repeat' first
    | assumption
    | (extract_lets +onlyGivenNames z
       refine Keeps.let z ?_ ?_
       subst z
       rotate_left
       clear_value z
       revert z
       intro y hy
       rotate_left)
    | (extract_lets +onlyGivenNames z; revert z; intro y)
    | exact Keeps.rfl
    | refine Keeps.ite ?_ ?_
    | refine Keeps.foldl _ _ ?_ ?_
    | apply Keeps.next ?_ (State.wr_keeps _ _ _) ?_
    | apply Keeps.next ?_ (State.setGrp_keeps _ _ _) ?_
    | apply Keeps.next ?_ (State.traceEvt_keeps _ _ _) ?_
    | decide
    | intro y
    | dsimp -zeta only

theorem State.streamBlock_keeps (s : State) (a1 : Nat) (a2 : Nat) :
    Keeps [.trace, .host, .recorder] s (State.streamBlock s a1 a2) := by
  unfold State.streamBlock
  with_reducible repeat' first
    | assumption
    | (extract_lets +onlyGivenNames z
       refine Keeps.let z ?_ ?_
       subst z
       rotate_left
       clear_value z
       revert z
       intro y hy
       rotate_left)
    | (extract_lets +onlyGivenNames z; revert z; intro y)
    | exact Keeps.rfl
    | refine Keeps.ite ?_ ?_
    | apply Keeps.next ?_ (State.setChan_keeps _ _ _) ?_
    | apply Keeps.next ?_ (State.writeTrc_keeps _ _ _ _ _) ?_
    | apply Keeps.next ?_ (State.add_keeps _ _ _) ?_
    | apply Keeps.next ?_ (State.traceEvt_keeps _ _ _) ?_
    | decide
    | dsimp -zeta only

theorem State.record_keeps (s : State) (a1 : Nat) (a2 : Nat) (a3 : Int) (a4 : Nat) (a5 : Nat) :
    Keeps [.trace, .host, .recorder, .mem] s (State.record s a1 a2 a3 a4 a5) := by
  unfold State.record
  with_reducible repeat' first
    | assumption
    | (extract_lets +onlyGivenNames z
       refine Keeps.let z ?_ ?_
       subst z
       rotate_left
       clear_value z
       revert z
       intro y hy
       rotate_left)
    | (extract_lets +onlyGivenNames z; revert z; intro y)
    | exact Keeps.rfl
    | refine Keeps.ite ?_ ?_
    | apply Keeps.next ?_ (State.memWrite_keeps _ _ _) ?_
    | apply Keeps.next ?_ (State.wr_keeps _ _ _) ?_
    | apply Keeps.next ?_ (State.setChan_keeps _ _ _) ?_
    | apply Keeps.next ?_ (State.streamBlock_keeps _ _ _) ?_
    | apply Keeps.next ?_ (State.trigger_keeps _ _ _) ?_
    | apply Keeps.next ?_ (State.traceDone_keeps _ _) ?_
    | decide
    | dsimp -zeta only

theorem State.recordLoop_keeps (s : State) (a1 : Nat) (a2 : Nat) (a3 : Nat) (a4 : LoopNodes) :
    Keeps [.trace, .host, .recorder, .mem] s (State.recordLoop s a1 a2 a3 a4) := by
  unfold State.recordLoop
  with_reducible repeat' first
    | assumption
    | exact Keeps.rfl
    | refine Keeps.ite ?_ ?_
    | refine Keeps.foldl _ _ ?_ ?_
    | apply Keeps.next ?_ (State.record_keeps _ _ _ _ _ _) ?_
    | decide
    | intro y
    | dsimp -zeta only

theorem State.recordSlots_keeps (s : State) (a1 : Nat) (a2 : SMap Entry) :
    Keeps [.trace, .host, .recorder, .mem] s (State.recordSlots s a1 a2) := by
  unfold State.recordSlots
  with_reducible repeat' first
    | assumption
    | (extract_lets +onlyGivenNames z; revert z; intro y)
    | exact Keeps.rfl
    | refine Keeps.ite ?_ ?_
    | refine Keeps.foldl _ _ ?_ ?_
    | apply Keeps.next ?_ (State.record_keeps _ _ _ _ _ _) ?_
    | decide
    | intro y
    | dsimp -zeta only

end Sys2Proof.Machine
end

