-- ==== Sys2Proof/Laws/KeepsTurn.lean ====
section
/-! SUPPORT. What each operation and each meaning of the turn, loops, tasks, roles, the board ring and time leaves alone. -/

namespace Sys2Proof.Machine

set_option linter.all false

theorem State.commitSlot_keeps (s : State) (a1 : Nat) (a2 : Nat) (a3 : Entry) :
    Keeps [.image, .turn, .ply] s (State.commitSlot s a1 a2 a3) := by
  unfold State.commitSlot
  with_reducible repeat' first
    | assumption
    | (extract_lets +onlyGivenNames z
       refine Keeps.let z ?_ ?_
       subst z
       rotate_left
       clear_value z
       revert z
       intro y hy
       rotate_left)
    | (extract_lets +onlyGivenNames z; revert z; intro y)
    | exact Keeps.rfl
    | refine Keeps.ite ?_ ?_
    | apply Keeps.next ?_ (State.putCell_keeps _ _ _) ?_
    | apply Keeps.next ?_ (State.setCell_keeps _ _ _) ?_
    | apply Keeps.next ?_ (State.barKey_keeps _ _ _) ?_
    | split
    | refine Keeps.upd ?_ List.prefix_rfl (Nat.le_refl _) id (fun p hp => by cases p <;> first | rfl | exact absurd (by decide) hp)
    | decide
    | dsimp -zeta only

theorem State.setRel_keeps (s : State) (a1 : Nat) (a2 : RelRec) :
    Keeps [.ply] s (State.setRel s a1 a2) := by
  unfold State.setRel
  with_reducible repeat' first
    | assumption
    | (extract_lets +onlyGivenNames z; revert z; intro y)
    | exact Keeps.rfl
    | refine Keeps.upd ?_ List.prefix_rfl (Nat.le_refl _) id (fun p hp => by cases p <;> first | rfl | exact absurd (by decide) hp)
    | decide
    | dsimp -zeta only

theorem State.hold_keeps (s : State) (a1 : Nat) (a2 : Nat) (a3 : Nat) (a4 : List (Nat × Entry)) (a5 : List (Nat × LoopReq)) (a6 : List (Nat × List Word36)) :
    Keeps [.turn, .ply] s (State.hold s a1 a2 a3 a4 a5 a6) := by
  unfold State.hold
  with_reducible repeat' first
    | assumption
    | (extract_lets +onlyGivenNames z
       refine Keeps.let z ?_ ?_
       subst z
       rotate_left
       clear_value z
       revert z
       intro y hy
       rotate_left)
    | (extract_lets +onlyGivenNames z; revert z; intro y)
    | exact Keeps.rfl
    | apply Keeps.next ?_ (State.setRel_keeps _ _ _) ?_
    | refine Keeps.upd ?_ List.prefix_rfl (Nat.le_refl _) id (fun p hp => by cases p <;> first | rfl | exact absurd (by decide) hp)
    | decide
    | dsimp -zeta only

theorem State.deny_keeps (s : State) (a1 : HostCmd) (a2 : Nat) :
    Keeps [.host, .recorder] s (State.deny s a1 a2) := by
  unfold State.deny
  with_reducible repeat' first
    | assumption
    | exact Keeps.rfl
    | apply Keeps.next ?_ (State.complete_keeps _ _ _ _ _ _) ?_
    | decide
    | dsimp -zeta only

theorem State.runCmd_keeps {A : List Part} {s0 s : State} {c : HostCmd} {f : State → State}
    (hA : ∀ p ∈ [Part.host, .recorder], p ∈ A) (h : Keeps A s0 s) (hf : ∀ y, Keeps A s0 y → Keeps A s0 (f y)) :
    Keeps A s0 (s.runCmd c f) := by
  unfold State.runCmd
  split
  · exact h.next (State.deny_keeps _ _ _) hA
  · exact hf _ h


theorem State.moveBuf_keeps {A : List Part} {s0 s : State} {c : HostCmd} {kind len : Nat} {f : State → State}
    (hA : ∀ p ∈ [Part.host, .recorder], p ∈ A) (h : Keeps A s0 s) (hf : ∀ y, Keeps A s0 y → Keeps A s0 (f y)) :
    Keeps A s0 (s.moveBuf c kind len f) := by
  have hr : ∀ (l : List (Nat × Nat)) (x : State × Bool), Keeps A s0 x.1 → Keeps A s0 (l.foldl (fun (x : State × Bool) p =>
      if x.2 then x.1.acAccess 3 kind 2 (c.desc.buf.toNat + p.1) p.2 else x) x).1 := by
    intro l
    induction l with
    | nil => intro x hx; exact hx
    | cons p l ih =>
      intro x hx
      refine ih _ ?_
      dsimp only
      split
      · exact hx.next (State.acAccess_keeps _ _ _ _ _ _) hA
      · exact hx
  have hr := hr (pieces len) (s, true) h
  unfold State.moveBuf
  dsimp only
  split
  · exact hr.next (State.deny_keeps _ _ _) hA
  · split
    · exact (hr.next (State.dmaError_keeps _ _ _) (fun p hp => hA p (by revert hp; revert p; decide))).next
        (State.deny_keeps _ _ _) hA
    · exact hf _ hr


theorem State.answer_keeps (s : State) (a1 : HostCmd) (a2 : Bytes) (a3 : Nat) (a4 : Nat) :
    Keeps [.host, .recorder] s (State.answer s a1 a2 a3 a4) := by
  unfold State.answer
  with_reducible repeat' first
    | assumption
    | exact Keeps.rfl
    | apply State.moveBuf_keeps
    | apply Keeps.next ?_ (State.complete_keeps _ _ _ _ _ _) ?_
    | apply Keeps.next ?_ (State.emit_keeps _ _) ?_
    | decide
    | intro y
    | dsimp -zeta only

theorem State.sigRead_keeps (s : State) (a1 : HostCmd) :
    Keeps [.host, .recorder] s (State.sigRead s a1) := by
  unfold State.sigRead
  with_reducible repeat' first
    | assumption
    | (extract_lets +onlyGivenNames z; revert z; intro y)
    | exact Keeps.rfl
    | refine Keeps.ite ?_ ?_
    | apply Keeps.next ?_ (State.deny_keeps _ _ _) ?_
    | apply Keeps.next ?_ (State.answer_keeps _ _ _ _ _) ?_
    | decide
    | dsimp -zeta only

theorem State.hostWrites_keeps (s : State) (a1 : Nat) (a2 : List HostWrite) :
    Keeps [.image, .ply] s (State.hostWrites s a1 a2) := by
  unfold State.hostWrites
  with_reducible repeat' first
    | assumption
    | (extract_lets +onlyGivenNames z
       refine Keeps.let z ?_ ?_
       subst z
       rotate_left
       clear_value z
       revert z
       intro y hy
       rotate_left)
    | (extract_lets +onlyGivenNames z; revert z; intro y)
    | exact Keeps.rfl
    | refine Keeps.ite ?_ ?_
    | apply Keeps.next ?_ (State.mirror_keeps _ _ _) ?_
    | refine Keeps.upd ?_ List.prefix_rfl (Nat.le_refl _) id (fun p hp => by cases p <;> first | rfl | exact absurd (by decide) hp)
    | decide
    | dsimp -zeta only

theorem State.sigEntries_keeps (s : State) (a1 : HostCmd) (a2 : List (Nat × Nat)) :
    Keeps [.image, .ply, .host, .recorder] s (State.sigEntries s a1 a2) := by
  unfold State.sigEntries
  with_reducible repeat' first
    | assumption
    | (extract_lets +onlyGivenNames z
       refine Keeps.let z ?_ ?_
       subst z
       rotate_left
       clear_value z
       revert z
       intro y hy
       rotate_left)
    | (extract_lets +onlyGivenNames z; revert z; intro y)
    | exact Keeps.rfl
    | apply Keeps.next ?_ (State.complete_keeps _ _ _ _ _ _) ?_
    | apply Keeps.next ?_ (State.hostWrites_keeps _ _ _) ?_
    | split
    | decide
    | dsimp -zeta only

theorem State.sigWrite_keeps (s : State) (a1 : HostCmd) :
    Keeps [.image, .ply, .host, .recorder] s (State.sigWrite s a1) := by
  unfold State.sigWrite
  with_reducible repeat' first
    | assumption
    | (extract_lets +onlyGivenNames z; revert z; intro y)
    | exact Keeps.rfl
    | refine Keeps.ite ?_ ?_
    | apply Keeps.next ?_ (State.deny_keeps _ _ _) ?_
    | apply Keeps.next ?_ (State.sigEntries_keeps _ _ _) ?_
    | apply State.moveBuf_keeps
    | decide
    | intro y
    | dsimp -zeta only

theorem State.slotStatus_keeps (s : State) (a1 : HostCmd) :
    Keeps [.host, .recorder] s (State.slotStatus s a1) := by
  unfold State.slotStatus
  with_reducible repeat' first
    | assumption
    | (extract_lets +onlyGivenNames z; revert z; intro y)
    | exact Keeps.rfl
    | refine Keeps.ite ?_ ?_
    | apply Keeps.next ?_ (State.deny_keeps _ _ _) ?_
    | apply Keeps.next ?_ (State.answer_keeps _ _ _ _ _) ?_
    | decide
    | dsimp -zeta only

theorem State.loopRead_keeps (s : State) (a1 : HostCmd) :
    Keeps [.host, .recorder] s (State.loopRead s a1) := by
  unfold State.loopRead
  with_reducible repeat' first
    | assumption
    | (extract_lets +onlyGivenNames z; revert z; intro y)
    | exact Keeps.rfl
    | refine Keeps.ite ?_ ?_
    | refine Keeps.foldl _ _ ?_ ?_
    | apply Keeps.next ?_ (State.deny_keeps _ _ _) ?_
    | apply Keeps.next ?_ (State.answer_keeps _ _ _ _ _) ?_
    | decide
    | intro y
    | dsimp -zeta only

theorem State.loopWrite_keeps (s : State) (a1 : HostCmd) :
    Keeps [.image, .ply, .host, .recorder] s (State.loopWrite s a1) := by
  unfold State.loopWrite
  with_reducible repeat' first
    | assumption
    | (extract_lets +onlyGivenNames z; revert z; intro y)
    | exact Keeps.rfl
    | refine Keeps.ite ?_ ?_
    | apply Keeps.next ?_ (State.deny_keeps _ _ _) ?_
    | apply Keeps.next ?_ (State.complete_keeps _ _ _ _ _ _) ?_
    | apply Keeps.next ?_ (State.hostWrites_keeps _ _ _) ?_
    | decide
    | dsimp -zeta only

theorem State.orderForce_keeps (s : State) (a1 : HostCmd) (a2 : Nat) (a3 : List (BitVec 18 × Option Sample)) :
    Keeps [.ply, .host] s (State.orderForce s a1 a2 a3) := by
  unfold State.orderForce
  with_reducible repeat' first
    | assumption
    | (extract_lets +onlyGivenNames z
       refine Keeps.let z ?_ ?_
       subst z
       rotate_left
       clear_value z
       revert z
       intro y hy
       rotate_left)
    | (extract_lets +onlyGivenNames z; revert z; intro y)
    | exact Keeps.rfl
    | refine Keeps.ite ?_ ?_
    | apply Keeps.next ?_ (State.holdCmd_keeps _ _ _ _ _) ?_
    | apply Keeps.next ?_ (State.sendOrder_keeps _ _ _ _ _) ?_
    | refine Keeps.upd ?_ List.prefix_rfl (Nat.le_refl _) id (fun p hp => by cases p <;> first | rfl | exact absurd (by decide) hp)
    | decide
    | dsimp -zeta only

theorem State.forceSlots_keeps {A : List Part} {s0 s : State} {c : HostCmd} {slots : List Nat} {f : State → State}
    (hA : ∀ p ∈ [Part.host, .recorder], p ∈ A) (h : Keeps A s0 s) (hf : ∀ y, Keeps A s0 y → Keeps A s0 (f y)) :
    Keeps A s0 (s.forceSlots c slots f) := by
  unfold State.forceSlots
  split
  · exact h.next (State.complete_keeps _ _ _ _ _ _) hA
  · split
    · exact h.next (State.complete_keeps _ _ _ _ _ _) hA
    · exact hf _ h


theorem State.forceCmd_keeps (s : State) (a1 : HostCmd) :
    Keeps [.ply, .host, .recorder] s (State.forceCmd s a1) := by
  unfold State.forceCmd
  with_reducible repeat' first
    | assumption
    | (extract_lets +onlyGivenNames z; revert z; intro y)
    | exact Keeps.rfl
    | refine Keeps.ite ?_ ?_
    | apply Keeps.next ?_ (State.deny_keeps _ _ _) ?_
    | apply State.moveBuf_keeps
    | apply State.forceSlots_keeps
    | apply Keeps.next ?_ (State.complete_keeps _ _ _ _ _ _) ?_
    | apply Keeps.next ?_ (State.orderForce_keeps _ _ _ _) ?_
    | split
    | decide
    | intro y
    | dsimp -zeta only

theorem State.unforceCmd_keeps (s : State) (a1 : HostCmd) :
    Keeps [.ply, .host, .recorder] s (State.unforceCmd s a1) := by
  unfold State.unforceCmd
  with_reducible repeat' first
    | assumption
    | (extract_lets +onlyGivenNames z; revert z; intro y)
    | exact Keeps.rfl
    | refine Keeps.ite ?_ ?_
    | apply Keeps.next ?_ (State.deny_keeps _ _ _) ?_
    | apply State.moveBuf_keeps
    | apply State.forceSlots_keeps
    | apply Keeps.next ?_ (State.orderForce_keeps _ _ _ _) ?_
    | decide
    | intro y
    | dsimp -zeta only

theorem State.forceList_keeps (s : State) (a1 : HostCmd) :
    Keeps [.host, .recorder] s (State.forceList s a1) := by
  unfold State.forceList
  with_reducible repeat' first
    | assumption
    | (extract_lets +onlyGivenNames z; revert z; intro y)
    | exact Keeps.rfl
    | refine Keeps.ite ?_ ?_
    | apply Keeps.next ?_ (State.deny_keeps _ _ _) ?_
    | apply Keeps.next ?_ (State.answer_keeps _ _ _ _ _) ?_
    | decide
    | dsimp -zeta only

theorem State.loadPiece_keeps (s : State) (a1 : Nat) (a2 : Nat) (a3 : Bytes) :
    Keeps [.progs] s (State.loadPiece s a1 a2 a3) := by
  unfold State.loadPiece
  with_reducible repeat' first
    | assumption
    | (extract_lets +onlyGivenNames z
       refine Keeps.let z ?_ ?_
       subst z
       rotate_left
       clear_value z
       revert z
       intro y hy
       rotate_left)
    | (extract_lets +onlyGivenNames z; revert z; intro y)
    | exact Keeps.rfl
    | refine Keeps.ite ?_ ?_
    | apply Keeps.next ?_ (State.wr_keeps _ _ _) ?_
    | refine Keeps.upd ?_ List.prefix_rfl (Nat.le_refl _) id (fun p hp => by cases p <;> first | rfl | exact absurd (by decide) hp)
    | decide
    | dsimp -zeta only

theorem State.loadEnd_keeps (s : State) (a1 : Nat) :
    Keeps [.progs] s (State.loadEnd s a1) := by
  unfold State.loadEnd
  with_reducible repeat' first
    | assumption
    | (extract_lets +onlyGivenNames z; revert z; intro y)
    | exact Keeps.rfl
    | refine Keeps.upd ?_ List.prefix_rfl (Nat.le_refl _) id (fun p hp => by cases p <;> first | rfl | exact absurd (by decide) hp)
    | decide
    | dsimp -zeta only

theorem State.progLoad_keeps (s : State) (a1 : HostCmd) :
    Keeps [.progs, .ply, .host, .recorder] s (State.progLoad s a1) := by
  unfold State.progLoad
  with_reducible repeat' first
    | assumption
    | (extract_lets +onlyGivenNames z
       refine Keeps.let z ?_ ?_
       subst z
       rotate_left
       clear_value z
       revert z
       intro y hy
       rotate_left)
    | (extract_lets +onlyGivenNames z; revert z; intro y)
    | exact Keeps.rfl
    | refine Keeps.ite ?_ ?_
    | apply Keeps.next ?_ (State.deny_keeps _ _ _) ?_
    | apply State.moveBuf_keeps
    | apply Keeps.next ?_ (State.loadPiece_keeps _ _ _ _) ?_
    | apply Keeps.next ?_ (State.mirror_keeps _ _ _) ?_
    | apply Keeps.next ?_ (State.complete_keeps _ _ _ _ _ _) ?_
    | apply Keeps.next ?_ (State.holdCmd_keeps _ _ _ _ _) ?_
    | apply Keeps.next ?_ (State.loadEnd_keeps _ _) ?_
    | decide
    | intro y
    | dsimp -zeta only

theorem State.progRead_keeps (s : State) (a1 : HostCmd) :
    Keeps [.host, .recorder] s (State.progRead s a1) := by
  unfold State.progRead
  with_reducible repeat' first
    | assumption
    | (extract_lets +onlyGivenNames z; revert z; intro y)
    | exact Keeps.rfl
    | refine Keeps.ite ?_ ?_
    | apply Keeps.next ?_ (State.deny_keeps _ _ _) ?_
    | apply Keeps.next ?_ (State.answer_keeps _ _ _ _ _) ?_
    | decide
    | dsimp -zeta only

theorem State.restage_keeps (s : State) :
    Keeps [] s (State.restage s) := by
  unfold State.restage
  with_reducible repeat' first
    | assumption
    | (extract_lets +onlyGivenNames z; revert z; intro y)
    | exact Keeps.rfl
    | apply Keeps.next ?_ (State.wr_keeps _ _ _) ?_
    | apply Keeps.next ?_ (State.wrb_keeps _ _ _) ?_
    | decide
    | dsimp -zeta only

theorem State.setStaged_keeps (s : State) (a1 : RegMap) :
    Keeps [.staged, .hop] s (State.setStaged s a1) := by
  unfold State.setStaged
  with_reducible repeat' first
    | assumption
    | (extract_lets +onlyGivenNames z
       refine Keeps.let z ?_ ?_
       subst z
       rotate_left
       clear_value z
       revert z
       intro y hy
       rotate_left)
    | (extract_lets +onlyGivenNames z; revert z; intro y)
    | exact Keeps.rfl
    | apply Keeps.next ?_ (State.restage_keeps _) ?_
    | refine Keeps.upd ?_ List.prefix_rfl (Nat.le_refl _) id (fun p hp => by cases p <;> first | rfl | exact absurd (by decide) hp)
    | decide
    | dsimp -zeta only

theorem State.stageBar0_keeps (s : State) (a1 : Nat) (a2 : Nat) :
    Keeps [.staged, .hop] s (State.stageBar0 s a1 a2) := by
  unfold State.stageBar0
  with_reducible repeat' first
    | assumption
    | exact Keeps.rfl
    | refine Keeps.ite ?_ ?_
    | apply Keeps.next ?_ (State.setStaged_keeps _ _) ?_
    | apply Keeps.next ?_ (State.wr_keeps _ _ _) ?_
    | decide
    | dsimp -zeta only

theorem State.stageRegs_keeps (s : State) (a1 : HostCmd) :
    Keeps [.staged, .hop, .host, .recorder] s (State.stageRegs s a1) := by
  unfold State.stageRegs
  with_reducible repeat' first
    | assumption
    | (extract_lets +onlyGivenNames z; revert z; intro y)
    | exact Keeps.rfl
    | refine Keeps.ite ?_ ?_
    | refine Keeps.foldl _ _ ?_ ?_
    | apply Keeps.next ?_ (State.deny_keeps _ _ _) ?_
    | apply State.moveBuf_keeps
    | apply Keeps.next ?_ (State.complete_keeps _ _ _ _ _ _) ?_
    | apply Keeps.next ?_ (State.setStaged_keeps _ _) ?_
    | split
    | decide
    | intro y
    | dsimp -zeta only

theorem State.stageSlots_keeps (s : State) (a1 : HostCmd) :
    Keeps [.staged, .hop, .host, .recorder] s (State.stageSlots s a1) := by
  unfold State.stageSlots
  with_reducible repeat' first
    | assumption
    | (extract_lets +onlyGivenNames z; revert z; intro y)
    | exact Keeps.rfl
    | refine Keeps.ite ?_ ?_
    | refine Keeps.foldl _ _ ?_ ?_
    | apply Keeps.next ?_ (State.deny_keeps _ _ _) ?_
    | apply State.moveBuf_keeps
    | apply Keeps.next ?_ (State.complete_keeps _ _ _ _ _ _) ?_
    | apply Keeps.next ?_ (State.setStaged_keeps _ _) ?_
    | decide
    | intro y
    | dsimp -zeta only

theorem State.discard_keeps (s : State) (a1 : HostCmd) :
    Keeps [.staged, .hop, .host, .recorder] s (State.discard s a1) := by
  unfold State.discard
  with_reducible repeat' first
    | assumption
    | (extract_lets +onlyGivenNames z; revert z; intro y)
    | exact Keeps.rfl
    | apply Keeps.next ?_ (State.complete_keeps _ _ _ _ _ _) ?_
    | apply Keeps.next ?_ (State.setStaged_keeps _ _) ?_
    | decide
    | dsimp -zeta only

theorem State.setVcore_keeps (s : State) (a1 : Nat) :
    Keeps [] s (State.setVcore s a1) := by
  unfold State.setVcore
  with_reducible repeat' first
    | assumption
    | exact Keeps.rfl
    | apply Keeps.next ?_ (State.wrb_keeps _ _ _) ?_
    | apply Keeps.next ?_ (State.wr_keeps _ _ _) ?_
    | decide
    | dsimp -zeta only

theorem State.noteSlack_keeps (s : State) (a1 : Nat) :
    Keeps [.turn] s (State.noteSlack s a1) := by
  unfold State.noteSlack
  with_reducible repeat' first
    | assumption
    | (extract_lets +onlyGivenNames z; revert z; intro y)
    | exact Keeps.rfl
    | refine Keeps.upd ?_ List.prefix_rfl (Nat.le_refl _) id (fun p hp => by cases p <;> first | rfl | exact absurd (by decide) hp)
    | decide
    | dsimp -zeta only

theorem State.noteSlip_keeps (s : State) :
    Keeps [.turn] s (State.noteSlip s) := by
  unfold State.noteSlip
  with_reducible repeat' first
    | assumption
    | (extract_lets +onlyGivenNames z
       refine Keeps.let z ?_ ?_
       subst z
       rotate_left
       clear_value z
       revert z
       intro y hy
       rotate_left)
    | (extract_lets +onlyGivenNames z; revert z; intro y)
    | exact Keeps.rfl
    | apply Keeps.next ?_ (State.noteSlack_keeps _ _) ?_
    | apply Keeps.next ?_ (State.setVcore_keeps _ _) ?_
    | refine Keeps.upd ?_ List.prefix_rfl (Nat.le_refl _) id (fun p hp => by cases p <;> first | rfl | exact absurd (by decide) hp)
    | decide
    | dsimp -zeta only

theorem State.wheelSlack_keeps (s : State) (a1 : Nat) (a2 : Nat) :
    Keeps [.turn, .host, .recorder] s (State.wheelSlack s a1 a2) := by
  unfold State.wheelSlack
  with_reducible repeat' first
    | assumption
    | (extract_lets +onlyGivenNames z
       refine Keeps.let z ?_ ?_
       subst z
       rotate_left
       clear_value z
       revert z
       intro y hy
       rotate_left)
    | (extract_lets +onlyGivenNames z; revert z; intro y)
    | exact Keeps.rfl
    | refine Keeps.ite ?_ ?_
    | apply Keeps.next ?_ (State.wr_keeps _ _ _) ?_
    | apply Keeps.next ?_ (State.noteSlack_keeps _ _) ?_
    | apply Keeps.next ?_ (State.raiseSource_keeps _ _ _ _) ?_
    | decide
    | dsimp -zeta only

theorem State.wheelSlip_keeps (s : State) (a1 : Nat) (a2 : Nat) :
    Keeps [.hop, .turn, .skein, .trace, .time, .ply, .rows, .brake, .host, .recorder] s (State.wheelSlip s a1 a2) := by
  unfold State.wheelSlip
  with_reducible repeat' first
    | assumption
    | (extract_lets +onlyGivenNames z
       refine Keeps.let z ?_ ?_
       subst z
       rotate_left
       clear_value z
       revert z
       intro y hy
       rotate_left)
    | (extract_lets +onlyGivenNames z; revert z; intro y)
    | exact Keeps.rfl
    | refine Keeps.ite ?_ ?_
    | apply Keeps.next ?_ (State.wr_keeps _ _ _) ?_
    | apply Keeps.next ?_ (State.inc_keeps _ _) ?_
    | apply Keeps.next ?_ (State.noteSlip_keeps _) ?_
    | apply Keeps.next ?_ (State.setRel_keeps _ _ _) ?_
    | apply Keeps.next ?_ (State.raiseSource_keeps _ _ _ _) ?_
    | apply Keeps.next ?_ (State.selfFault_keeps _ _ _ _) ?_
    | refine Keeps.upd ?_ List.prefix_rfl (Nat.le_refl _) id (fun p hp => by cases p <;> first | rfl | exact absurd (by decide) hp)
    | decide
    | dsimp -zeta only

theorem State.taskSlack_keeps (s : State) (a1 : Nat) (a2 : Nat) :
    Keeps [.turn, .host, .recorder] s (State.taskSlack s a1 a2) := by
  unfold State.taskSlack
  with_reducible repeat' first
    | assumption
    | (extract_lets +onlyGivenNames z
       refine Keeps.let z ?_ ?_
       subst z
       rotate_left
       clear_value z
       revert z
       intro y hy
       rotate_left)
    | (extract_lets +onlyGivenNames z; revert z; intro y)
    | exact Keeps.rfl
    | refine Keeps.ite ?_ ?_
    | apply Keeps.next ?_ (State.wr_keeps _ _ _) ?_
    | apply Keeps.next ?_ (State.noteSlack_keeps _ _) ?_
    | apply Keeps.next ?_ (State.raiseSource_keeps _ _ _ _) ?_
    | decide
    | dsimp -zeta only

theorem State.putLoop_keeps (s : State) (a1 : LoopEnv) (a2 : LoopSt) :
    Keeps [.loops, .trace, .host, .recorder, .mem] s (State.putLoop s a1 a2) := by
  unfold State.putLoop
  with_reducible repeat' first
    | assumption
    | (extract_lets +onlyGivenNames z
       refine Keeps.let z ?_ ?_
       subst z
       rotate_left
       clear_value z
       revert z
       intro y hy
       rotate_left)
    | (extract_lets +onlyGivenNames z; revert z; intro y)
    | exact Keeps.rfl
    | refine Keeps.ite ?_ ?_
    | apply Keeps.next ?_ (State.raiseSource_keeps _ _ _ _) ?_
    | apply Keeps.next ?_ (State.recordLoop_keeps _ _ _ _ _) ?_
    | split
    | refine Keeps.upd ?_ List.prefix_rfl (Nat.le_refl _) id (fun p hp => by cases p <;> first | rfl | exact absurd (by decide) hp)
    | decide
    | dsimp -zeta only

theorem State.loopOut_keeps (s : State) (a1 : LoopEnv) (a2 : Entry) :
    Keeps [.image, .turn, .ply] s (State.loopOut s a1 a2) := by
  unfold State.loopOut
  with_reducible repeat' first
    | assumption
    | (extract_lets +onlyGivenNames z
       refine Keeps.let z ?_ ?_
       subst z
       rotate_left
       clear_value z
       revert z
       intro y hy
       rotate_left)
    | (extract_lets +onlyGivenNames z; revert z; intro y)
    | exact Keeps.rfl
    | apply Keeps.next ?_ (State.commitSlot_keeps _ _ _ _) ?_
    | apply Keeps.next ?_ (State.hold_keeps _ _ _ _ _ _ _) ?_
    | decide
    | dsimp -zeta only

theorem State.evaluate_keeps (s : State) (a1 : Nat) (a2 : Nat) :
    Keeps [.image, .turn, .loops, .trace, .ply, .host, .recorder, .mem] s (State.evaluate s a1 a2) := by
  unfold State.evaluate
  with_reducible repeat' first
    | assumption
    | (extract_lets +onlyGivenNames z
       refine Keeps.let z ?_ ?_
       subst z
       rotate_left
       clear_value z
       revert z
       intro y hy
       rotate_left)
    | (extract_lets +onlyGivenNames z; revert z; intro y)
    | exact Keeps.rfl
    | refine Keeps.ite ?_ ?_
    | apply Keeps.next ?_ (State.putLoop_keeps _ _ _) ?_
    | apply Keeps.next ?_ (State.loopOut_keeps _ _ _) ?_
    | refine Keeps.upd ?_ List.prefix_rfl (Nat.le_refl _) id (fun p hp => by cases p <;> first | rfl | exact absurd (by decide) hp)
    | decide
    | dsimp -zeta only

theorem execLoopEvaluationDone_keeps (a0 : Fin 4096) (a1 : Bool) (s : State) :
    Keeps [.hop, .image, .turn, .skein, .loops, .trace, .time, .ply, .rows, .brake, .host, .recorder, .mem] s (settle s (execLoopEvaluationDone a0 a1 s)) := by
  unfold execLoopEvaluationDone
  with_reducible repeat' first
    | assumption
    | (extract_lets +onlyGivenNames z
       refine Keeps.let z ?_ ?_
       subst z
       rotate_left
       clear_value z
       revert z
       intro y hy
       rotate_left)
    | (extract_lets +onlyGivenNames z; revert z; intro y)
    | exact Keeps.rfl
    | refine Keeps.iteO ?_ ?_
    | refine Keeps.ite ?_ ?_
    | refine Keeps.ok ?_
    | apply Keeps.next ?_ (State.selfFault_keeps _ _ _ _) ?_
    | apply Keeps.next ?_ (State.captureFull_keeps _) ?_
    | apply Keeps.next ?_ (State.evaluate_keeps _ _ _) ?_
    | apply Keeps.next ?_ (State.saveLoop_keeps _ _ _) ?_
    | apply Keeps.next ?_ (State.wheelSlack_keeps _ _ _) ?_
    | split
    | refine Keeps.upd ?_ List.prefix_rfl (Nat.le_refl _) id (fun p hp => by cases p <;> first | rfl | exact absurd (by decide) hp)
    | decide
    | dsimp -zeta only

theorem State.clearRuns_keeps (s : State) (a1 : Nat) (a2 : List Nat) :
    Keeps [.turn] s (State.clearRuns s a1 a2) := by
  unfold State.clearRuns
  with_reducible repeat' first
    | assumption
    | (extract_lets +onlyGivenNames z; revert z; intro y)
    | exact Keeps.rfl
    | refine Keeps.upd ?_ List.prefix_rfl (Nat.le_refl _) id (fun p hp => by cases p <;> first | rfl | exact absurd (by decide) hp)
    | decide
    | dsimp -zeta only

theorem execWheelDeadline_keeps (s : State) :
    Keeps [.hop, .turn, .skein, .loops, .trace, .time, .ply, .rows, .brake, .host, .recorder] s (settle s (execWheelDeadline s)) := by
  unfold execWheelDeadline
  with_reducible repeat' first
    | assumption
    | (extract_lets +onlyGivenNames z
       refine Keeps.let z ?_ ?_
       subst z
       rotate_left
       clear_value z
       revert z
       intro y hy
       rotate_left)
    | (extract_lets +onlyGivenNames z; revert z; intro y)
    | exact Keeps.rfl
    | refine Keeps.iteO ?_ ?_
    | refine Keeps.ite ?_ ?_
    | refine Keeps.ok ?_
    | refine Keeps.foldl _ _ ?_ ?_
    | apply Keeps.next ?_ (State.wheelSlip_keeps _ _ _) ?_
    | apply Keeps.next ?_ (State.clearRuns_keeps _ _ _) ?_
    | refine Keeps.upd ?_ List.prefix_rfl (Nat.le_refl _) id (fun p hp => by cases p <;> first | rfl | exact absurd (by decide) hp)
    | decide
    | intro y
    | dsimp -zeta only

theorem execTraceCaptureRecord_keeps (a0 : Fin 8) (s : State) :
    Keeps [.trace, .host, .recorder] s (settle s (execTraceCaptureRecord a0 s)) := by
  unfold execTraceCaptureRecord
  with_reducible repeat' first
    | assumption
    | (extract_lets +onlyGivenNames z; revert z; intro y)
    | exact Keeps.rfl
    | refine Keeps.iteO ?_ ?_
    | refine Keeps.ite ?_ ?_
    | refine Keeps.ok ?_
    | refine Keeps.foldl _ _ ?_ ?_
    | apply Keeps.next ?_ (State.setGrp_keeps _ _ _) ?_
    | apply Keeps.next ?_ (State.writeTrc_keeps _ _ _ _ _) ?_
    | decide
    | intro y
    | dsimp -zeta only

theorem State.setTask_keeps (s : State) (a1 : Nat) (a2 : TaskSt) :
    Keeps [.tasks] s (State.setTask s a1 a2) := by
  unfold State.setTask
  with_reducible repeat' first
    | assumption
    | (extract_lets +onlyGivenNames z; revert z; intro y)
    | exact Keeps.rfl
    | refine Keeps.upd ?_ List.prefix_rfl (Nat.le_refl _) id (fun p hp => by cases p <;> first | rfl | exact absurd (by decide) hp)
    | decide
    | dsimp -zeta only

theorem State.setInst_keeps (s : State) (a1 : Nat) (a2 : TaskInst) :
    Keeps [.tasks] s (State.setInst s a1 a2) := by
  unfold State.setInst
  with_reducible repeat' first
    | assumption
    | (extract_lets +onlyGivenNames z; revert z; intro y)
    | exact Keeps.rfl
    | apply Keeps.next ?_ (State.setTask_keeps _ _ _) ?_
    | decide
    | dsimp -zeta only

theorem State.beginCopy_keeps (s : State) (a1 : Nat) (a2 : TaskInst) :
    Keeps [.tasks] s (State.beginCopy s a1 a2) := by
  unfold State.beginCopy
  with_reducible repeat' first
    | assumption
    | exact Keeps.rfl
    | apply Keeps.next ?_ (State.setInst_keeps _ _ _) ?_
    | decide
    | dsimp -zeta only

theorem State.startInst_keeps (s : State) (a1 : Nat) (a2 : DueInst) :
    Keeps [.tasks, .host, .recorder] s (State.startInst s a1 a2) := by
  unfold State.startInst
  with_reducible repeat' first
    | assumption
    | (extract_lets +onlyGivenNames z
       refine Keeps.let z ?_ ?_
       subst z
       rotate_left
       clear_value z
       revert z
       intro y hy
       rotate_left)
    | (extract_lets +onlyGivenNames z; revert z; intro y)
    | exact Keeps.rfl
    | refine Keeps.ite ?_ ?_
    | apply Keeps.next ?_ (State.setTask_keeps _ _ _) ?_
    | apply Keeps.next ?_ (State.taskEvt_keeps _ _ _) ?_
    | apply Keeps.next ?_ (State.beginCopy_keeps _ _ _) ?_
    | split
    | decide
    | dsimp -zeta only

theorem State.nextWaiting_keeps (s : State) (a1 : Nat) :
    Keeps [.tasks, .host, .recorder] s (State.nextWaiting s a1) := by
  unfold State.nextWaiting
  with_reducible repeat' first
    | assumption
    | (extract_lets +onlyGivenNames z; revert z; intro y)
    | exact Keeps.rfl
    | apply Keeps.next ?_ (State.startInst_keeps _ _ _) ?_
    | apply Keeps.next ?_ (State.setTask_keeps _ _ _) ?_
    | split
    | decide
    | dsimp -zeta only

theorem State.takeStrand_keeps (s : State) (a1 : Nat) :
    Keeps [.tasks] s (State.takeStrand s a1) := by
  unfold State.takeStrand
  with_reducible repeat' first
    | assumption
    | (extract_lets +onlyGivenNames z
       refine Keeps.let z ?_ ?_
       subst z
       rotate_left
       clear_value z
       revert z
       intro y hy
       rotate_left)
    | (extract_lets +onlyGivenNames z; revert z; intro y)
    | exact Keeps.rfl
    | refine Keeps.ite ?_ ?_
    | apply Keeps.next ?_ (State.setInst_keeps _ _ _) ?_
    | split
    | refine Keeps.upd ?_ List.prefix_rfl (Nat.le_refl _) id (fun p hp => by cases p <;> first | rfl | exact absurd (by decide) hp)
    | decide
    | dsimp -zeta only

theorem State.dispatchSpindles_keeps (s : State) :
    Keeps [.tasks] s (State.dispatchSpindles s) := by
  unfold State.dispatchSpindles
  with_reducible repeat' first
    | assumption
    | exact Keeps.rfl
    | refine Keeps.foldl _ _ ?_ ?_
    | apply Keeps.next ?_ (State.takeStrand_keeps _ _) ?_
    | decide
    | intro y
    | dsimp -zeta only

theorem State.freeSpindles_keeps (s : State) (a1 : Nat) :
    Keeps [.tasks] s (State.freeSpindles s a1) := by
  unfold State.freeSpindles
  with_reducible repeat' first
    | assumption
    | (extract_lets +onlyGivenNames z; revert z; intro y)
    | exact Keeps.rfl
    | refine Keeps.upd ?_ List.prefix_rfl (Nat.le_refl _) id (fun p hp => by cases p <;> first | rfl | exact absurd (by decide) hp)
    | decide
    | dsimp -zeta only

theorem State.sendCompletion_keeps (s : State) (a1 : Nat) (a2 : Nat) (a3 : Nat) (a4 : Nat) :
    Keeps [.ply] s (State.sendCompletion s a1 a2 a3 a4) := by
  unfold State.sendCompletion
  with_reducible repeat' first
    | assumption
    | exact Keeps.rfl
    | refine Keeps.ite ?_ ?_
    | apply Keeps.next ?_ (State.sendPly_keeps _ _ _ _) ?_
    | decide
    | dsimp -zeta only

theorem State.trapInst_keeps (s : State) (a1 : Nat) (a2 : TrapInfo) :
    Keeps [.tasks, .ply, .host, .recorder] s (State.trapInst s a1 a2) := by
  unfold State.trapInst
  with_reducible repeat' first
    | assumption
    | (extract_lets +onlyGivenNames z
       refine Keeps.let z ?_ ?_
       subst z
       rotate_left
       clear_value z
       revert z
       intro y hy
       rotate_left)
    | (extract_lets +onlyGivenNames z; revert z; intro y)
    | exact Keeps.rfl
    | apply Keeps.next ?_ (State.wr_keeps _ _ _) ?_
    | apply Keeps.next ?_ (State.setTask_keeps _ _ _) ?_
    | apply Keeps.next ?_ (State.freeSpindles_keeps _ _) ?_
    | apply Keeps.next ?_ (State.taskEvt_keeps _ _ _) ?_
    | apply Keeps.next ?_ (State.sendCompletion_keeps _ _ _ _ _) ?_
    | apply Keeps.next ?_ (State.dispatchSpindles_keeps _) ?_
    | apply Keeps.next ?_ (State.nextWaiting_keeps _ _) ?_
    | split
    | decide
    | dsimp -zeta only

theorem State.blame_keeps (s : State) (a1 : Nat) :
    Keeps [] s (State.blame s a1) := by
  unfold State.blame
  with_reducible repeat' first
    | assumption
    | exact Keeps.rfl
    | apply Keeps.next ?_ (State.wr_keeps _ _ _) ?_
    | decide
    | dsimp -zeta only

theorem State.haltTasks_keeps (s : State) :
    Keeps [.host, .recorder] s (State.haltTasks s) := by
  unfold State.haltTasks
  with_reducible repeat' first
    | assumption
    | (extract_lets +onlyGivenNames z; revert z; intro y)
    | exact Keeps.rfl
    | refine Keeps.ite ?_ ?_
    | refine Keeps.foldl _ _ ?_ ?_
    | apply Keeps.next ?_ (State.taskEvt_keeps _ _ _) ?_
    | decide
    | intro y
    | dsimp -zeta only

theorem State.overrunStop_keeps (s : State) (a1 : Nat) (a2 : Bool) (a3 : Nat) :
    Keeps [.tasks, .host, .recorder] s (State.overrunStop s a1 a2 a3) := by
  unfold State.overrunStop
  with_reducible repeat' first
    | assumption
    | (extract_lets +onlyGivenNames z
       refine Keeps.let z ?_ ?_
       subst z
       rotate_left
       clear_value z
       revert z
       intro y hy
       rotate_left)
    | (extract_lets +onlyGivenNames z; revert z; intro y)
    | exact Keeps.rfl
    | refine Keeps.ite ?_ ?_
    | apply Keeps.next ?_ (State.taskEvt_keeps _ _ _) ?_
    | apply Keeps.next ?_ (State.wr_keeps _ _ _) ?_
    | apply Keeps.next ?_ (State.blame_keeps _ _) ?_
    | apply Keeps.next ?_ (State.haltTasks_keeps _) ?_
    | refine Keeps.upd ?_ List.prefix_rfl (Nat.le_refl _) id (fun p hp => by cases p <;> first | rfl | exact absurd (by decide) hp)
    | decide
    | dsimp -zeta only

theorem State.haltTrapped_keeps (s : State) (a1 : Nat) :
    Keeps [.tasks, .host, .recorder] s (State.haltTrapped s a1) := by
  unfold State.haltTrapped
  with_reducible repeat' first
    | assumption
    | (extract_lets +onlyGivenNames z
       refine Keeps.let z ?_ ?_
       subst z
       rotate_left
       clear_value z
       revert z
       intro y hy
       rotate_left)
    | (extract_lets +onlyGivenNames z; revert z; intro y)
    | exact Keeps.rfl
    | refine Keeps.ite ?_ ?_
    | apply Keeps.next ?_ (State.freeSpindles_keeps _ _) ?_
    | apply Keeps.next ?_ (State.taskEvt_keeps _ _ _) ?_
    | apply Keeps.next ?_ (State.setTask_keeps _ _ _) ?_
    | decide
    | dsimp -zeta only

theorem State.startTask_keeps (s : State) (a1 : Nat) (a2 : Nat) :
    Keeps [.tasks] s (State.startTask s a1 a2) := by
  unfold State.startTask
  with_reducible repeat' first
    | assumption
    | (extract_lets +onlyGivenNames z; revert z; intro y)
    | exact Keeps.rfl
    | refine Keeps.ite ?_ ?_
    | apply Keeps.next ?_ (State.setTask_keeps _ _ _) ?_
    | decide
    | dsimp -zeta only

theorem State.readyTask_keeps (s : State) (a1 : Nat) (a2 : Nat) :
    Keeps [.tasks, .host, .recorder] s (State.readyTask s a1 a2) := by
  unfold State.readyTask
  with_reducible repeat' first
    | assumption
    | (extract_lets +onlyGivenNames z
       refine Keeps.let z ?_ ?_
       subst z
       rotate_left
       clear_value z
       revert z
       intro y hy
       rotate_left)
    | (extract_lets +onlyGivenNames z; revert z; intro y)
    | exact Keeps.rfl
    | refine Keeps.ite ?_ ?_
    | apply Keeps.next ?_ (State.setTask_keeps _ _ _) ?_
    | apply Keeps.next ?_ (State.startInst_keeps _ _ _) ?_
    | split
    | decide
    | dsimp -zeta only

theorem State.startFlush_keeps (s : State) :
    Keeps [.retained, .tasks] s (State.startFlush s) := by
  unfold State.startFlush
  with_reducible repeat' first
    | assumption
    | (extract_lets +onlyGivenNames z; revert z; intro y)
    | exact Keeps.rfl
    | refine Keeps.ite ?_ ?_
    | refine Keeps.upd ?_ List.prefix_rfl (Nat.le_refl _) id (fun p hp => by cases p <;> first | rfl | exact absurd (by decide) hp)
    | decide
    | dsimp -zeta only

theorem State.extraFlush_keeps (s : State) :
    Keeps [.retained, .tasks] s (State.extraFlush s) := by
  unfold State.extraFlush
  with_reducible repeat' first
    | assumption
    | (extract_lets +onlyGivenNames z
       refine Keeps.let z ?_ ?_
       subst z
       rotate_left
       clear_value z
       revert z
       intro y hy
       rotate_left)
    | (extract_lets +onlyGivenNames z; revert z; intro y)
    | exact Keeps.rfl
    | refine Keeps.ite ?_ ?_
    | apply Keeps.next ?_ (State.startFlush_keeps _) ?_
    | refine Keeps.upd ?_ List.prefix_rfl (Nat.le_refl _) id (fun p hp => by cases p <;> first | rfl | exact absurd (by decide) hp)
    | decide
    | dsimp -zeta only

theorem State.setMillCh_keeps (s : State) (a1 : Nat) (a2 : MillChan) :
    Keeps [.mill] s (State.setMillCh s a1 a2) := by
  unfold State.setMillCh
  with_reducible repeat' first
    | assumption
    | exact Keeps.rfl
    | refine Keeps.upd ?_ List.prefix_rfl (Nat.le_refl _) id (fun p hp => by cases p <;> first | rfl | exact absurd (by decide) hp)
    | decide
    | dsimp -zeta only

theorem State.setMillBuf_keeps (s : State) (a1 : Nat) (a2 : Nat) (a3 : MillBuf) :
    Keeps [.mill] s (State.setMillBuf s a1 a2 a3) := by
  unfold State.setMillBuf
  with_reducible repeat' first
    | assumption
    | (extract_lets +onlyGivenNames z; revert z; intro y)
    | exact Keeps.rfl
    | apply Keeps.next ?_ (State.setMillCh_keeps _ _ _) ?_
    | decide
    | dsimp -zeta only

theorem State.millEnter_keeps (s : State) (a1 : Nat) (a2 : Nat) (a3 : List Word36) :
    Keeps [.mill] s (State.millEnter s a1 a2 a3) := by
  unfold State.millEnter
  with_reducible repeat' first
    | assumption
    | (extract_lets +onlyGivenNames z
       refine Keeps.let z ?_ ?_
       subst z
       rotate_left
       clear_value z
       revert z
       intro y hy
       rotate_left)
    | (extract_lets +onlyGivenNames z; revert z; intro y)
    | exact Keeps.rfl
    | refine Keeps.ite ?_ ?_
    | apply Keeps.next ?_ (State.wr_keeps _ _ _) ?_
    | apply Keeps.next ?_ (State.setMillCh_keeps _ _ _) ?_
    | apply Keeps.next ?_ (State.setMillBuf_keeps _ _ _ _) ?_
    | apply Keeps.next ?_ (State.inc_keeps _ _) ?_
    | decide
    | dsimp -zeta only

theorem State.millRead_keeps (s : State) (a1 : Nat) (a2 : Nat) :
    Keeps [.mill] s (State.millRead s a1 a2) := by
  unfold State.millRead
  with_reducible repeat' first
    | assumption
    | (extract_lets +onlyGivenNames z
       refine Keeps.let z ?_ ?_
       subst z
       rotate_left
       clear_value z
       revert z
       intro y hy
       rotate_left)
    | (extract_lets +onlyGivenNames z; revert z; intro y)
    | exact Keeps.rfl
    | refine Keeps.ite ?_ ?_
    | apply Keeps.next ?_ (State.setMillBuf_keeps _ _ _ _) ?_
    | apply Keeps.next ?_ (State.wr_keeps _ _ _) ?_
    | decide
    | dsimp -zeta only

theorem State.millBoundary_keeps (s : State) :
    Keeps [.mill] s (State.millBoundary s) := by
  unfold State.millBoundary
  with_reducible repeat' first
    | assumption
    | (extract_lets +onlyGivenNames z; revert z; intro y)
    | exact Keeps.rfl
    | refine Keeps.upd ?_ List.prefix_rfl (Nat.le_refl _) id (fun p hp => by cases p <;> first | rfl | exact absurd (by decide) hp)
    | decide
    | dsimp -zeta only

theorem State.makeSnap_keeps (s : State) (a1 : Nat) (a2 : Nat) :
    Keeps [.tasks, .ply] s (State.makeSnap s a1 a2) := by
  unfold State.makeSnap
  with_reducible repeat' first
    | assumption
    | (extract_lets +onlyGivenNames z
       refine Keeps.let z ?_ ?_
       subst z
       rotate_left
       clear_value z
       revert z
       intro y hy
       rotate_left)
    | (extract_lets +onlyGivenNames z; revert z; intro y)
    | exact Keeps.rfl
    | refine Keeps.ite ?_ ?_
    | apply Keeps.next ?_ (State.sendPly_keeps _ _ _ _) ?_
    | split
    | refine Keeps.upd ?_ List.prefix_rfl (Nat.le_refl _) id (fun p hp => by cases p <;> first | rfl | exact absurd (by decide) hp)
    | decide
    | dsimp -zeta only

theorem State.sendSnaps_keeps (s : State) (a1 : Nat) :
    Keeps [.tasks, .ply] s (State.sendSnaps s a1) := by
  unfold State.sendSnaps
  with_reducible repeat' first
    | assumption
    | (extract_lets +onlyGivenNames z; revert z; intro y)
    | exact Keeps.rfl
    | refine Keeps.ite ?_ ?_
    | refine Keeps.foldl _ _ ?_ ?_
    | apply Keeps.next ?_ (State.makeSnap_keeps _ _ _) ?_
    | split
    | decide
    | intro y
    | dsimp -zeta only

theorem State.setPosn_keeps (s : State) (a1 : Nat) (a2 : SkeinPos) :
    Keeps [.skein] s (State.setPosn s a1 a2) := by
  unfold State.setPosn
  with_reducible repeat' first
    | assumption
    | (extract_lets +onlyGivenNames z; revert z; intro y)
    | exact Keeps.rfl
    | refine Keeps.upd ?_ List.prefix_rfl (Nat.le_refl _) id (fun p hp => by cases p <;> first | rfl | exact absurd (by decide) hp)
    | decide
    | dsimp -zeta only

theorem State.boundaryBlocks_keeps (s : State) (a1 : Nat) (a2 : Nat) :
    Keeps [.skein] s (State.boundaryBlocks s a1 a2) := by
  unfold State.boundaryBlocks
  with_reducible repeat' first
    | assumption
    | (extract_lets +onlyGivenNames z
       refine Keeps.let z ?_ ?_
       subst z
       rotate_left
       clear_value z
       revert z
       intro y hy
       rotate_left)
    | (extract_lets +onlyGivenNames z
       refine Keeps.let1 z ?_ ?_
       subst z
       rotate_left
       clear_value z
       revert z
       rintro ⟨y, y1⟩ hy
       rotate_left)
    | (extract_lets +onlyGivenNames z; revert z; intro y)
    | exact Keeps.rfl
    | refine Keeps.ite ?_ ?_
    | refine Keeps.ite1 ?_ ?_
    | (rename (_ : State × _) = _ => heq
       refine Keeps.pair heq ?_ ?_ <;> clear heq
       rotate_left
       intro hy
       rotate_left)
    | apply Keeps.next ?_ (State.free_keeps _) ?_
    | apply Keeps.next ?_ (State.emit_keeps _ _) ?_
    | apply Keeps.next ?_ (State.setPort_keeps _ _ _) ?_
    | decide
    | dsimp -zeta only

theorem State.countMarks_keeps (s : State) (a1 : Nat) :
    Keeps [.skein] s (State.countMarks s a1) := by
  unfold State.countMarks
  with_reducible repeat' first
    | assumption
    | (extract_lets +onlyGivenNames z; revert z; intro y)
    | exact Keeps.rfl
    | refine Keeps.ite ?_ ?_
    | apply Keeps.next ?_ (State.setPort_keeps _ _ _) ?_
    | decide
    | dsimp -zeta only

theorem State.doorbellStart_keeps (s : State) (a1 : Nat) :
    Keeps [.host] s (State.doorbellStart s a1) := by
  unfold State.doorbellStart
  with_reducible repeat' first
    | assumption
    | (extract_lets +onlyGivenNames z; revert z; intro y)
    | exact Keeps.rfl
    | refine Keeps.ite ?_ ?_
    | apply Keeps.next ?_ (State.inc_keeps _ _) ?_
    | apply Keeps.next ?_ (State.wr_keeps _ _ _) ?_
    | refine Keeps.upd ?_ List.prefix_rfl (Nat.le_refl _) id (fun p hp => by cases p <;> first | rfl | exact absurd (by decide) hp)
    | decide
    | dsimp -zeta only

theorem State.storeInput_keeps (s : State) (a1 : Nat) (a2 : SkFrame) :
    Keeps [.image, .ply] s (State.storeInput s a1 a2) := by
  unfold State.storeInput
  with_reducible repeat' first
    | assumption
    | (extract_lets +onlyGivenNames z; revert z; intro y)
    | exact Keeps.rfl
    | refine Keeps.ite ?_ ?_
    | refine Keeps.foldl _ _ ?_ ?_
    | apply Keeps.next ?_ (State.takeInput_keeps _ _ _ _ _ _ _) ?_
    | decide
    | intro y
    | dsimp -zeta only

theorem State.missRegs_keeps (s : State) (a1 : Nat) :
    Keeps [.skein] s (State.missRegs s a1) := by
  unfold State.missRegs
  with_reducible repeat' first
    | assumption
    | (extract_lets +onlyGivenNames z
       refine Keeps.let z ?_ ?_
       subst z
       rotate_left
       clear_value z
       revert z
       intro y hy
       rotate_left)
    | (extract_lets +onlyGivenNames z; revert z; intro y)
    | exact Keeps.rfl
    | refine Keeps.ite ?_ ?_
    | apply Keeps.next ?_ (State.inc_keeps _ _) ?_
    | apply Keeps.next ?_ (State.setPosn_keeps _ _ _) ?_
    | decide
    | dsimp -zeta only

theorem State.missStation_keeps (s : State) (a1 : Nat) :
    Keeps [.image, .skein, .ply] s (State.missStation s a1) := by
  unfold State.missStation
  with_reducible repeat' first
    | assumption
    | (extract_lets +onlyGivenNames z
       refine Keeps.let z ?_ ?_
       subst z
       rotate_left
       clear_value z
       revert z
       intro y hy
       rotate_left)
    | exact Keeps.rfl
    | refine Keeps.ite ?_ ?_
    | refine Keeps.foldl _ _ ?_ ?_
    | apply Keeps.next ?_ (State.substitute_keeps _ _) ?_
    | apply Keeps.next ?_ (State.missRegs_keeps _ _) ?_
    | decide
    | intro y
    | dsimp -zeta only

theorem State.reachedRegs_keeps (s : State) (a1 : Nat) :
    Keeps [] s (State.reachedRegs s a1) := by
  unfold State.reachedRegs
  with_reducible repeat' first
    | assumption
    | exact Keeps.rfl
    | apply Keeps.next ?_ (State.wr_keeps _ _ _) ?_
    | decide
    | dsimp -zeta only

theorem State.composePub_keeps (s : State) (a1 : Nat) (a2 : SMap Entry) :
    Keeps [.ring, .ply] s (State.composePub s a1 a2) := by
  unfold State.composePub
  with_reducible repeat' first
    | assumption
    | (extract_lets +onlyGivenNames z
       refine Keeps.let z ?_ ?_
       subst z
       rotate_left
       clear_value z
       revert z
       intro y hy
       rotate_left)
    | (extract_lets +onlyGivenNames z; revert z; intro y)
    | exact Keeps.rfl
    | refine Keeps.ite ?_ ?_
    | apply Keeps.next ?_ (State.setRel_keeps _ _ _) ?_
    | refine Keeps.upd ?_ List.prefix_rfl (Nat.le_refl _) id (fun p hp => by cases p <;> first | rfl | exact absurd (by decide) hp)
    | decide
    | dsimp -zeta only

theorem State.splitInput_keeps (s : State) (a1 : Nat) (a2 : List Nat) :
    Keeps [.ply] s (State.splitInput s a1 a2) := by
  unfold State.splitInput
  with_reducible repeat' first
    | assumption
    | (extract_lets +onlyGivenNames z
       refine Keeps.let z ?_ ?_
       subst z
       rotate_left
       clear_value z
       revert z
       intro y hy
       rotate_left)
    | (extract_lets +onlyGivenNames z; revert z; intro y)
    | exact Keeps.rfl
    | refine Keeps.ite ?_ ?_
    | apply Keeps.next ?_ (State.wr_keeps _ _ _) ?_
    | refine Keeps.upd ?_ List.prefix_rfl (Nat.le_refl _) id (fun p hp => by cases p <;> first | rfl | exact absurd (by decide) hp)
    | decide
    | dsimp -zeta only

theorem State.compareReach_keeps (s : State) (a1 : Nat) :
    Keeps [.skein, .ply] s (State.compareReach s a1) := by
  unfold State.compareReach
  with_reducible repeat' first
    | assumption
    | (extract_lets +onlyGivenNames z
       refine Keeps.let z ?_ ?_
       subst z
       rotate_left
       clear_value z
       revert z
       intro y hy
       rotate_left)
    | (extract_lets +onlyGivenNames z; revert z; intro y)
    | exact Keeps.rfl
    | refine Keeps.ite ?_ ?_
    | refine Keeps.foldl _ _ ?_ ?_
    | apply Keeps.next ?_ (State.wrb_keeps _ _ _) ?_
    | apply Keeps.next ?_ (State.splitInput_keeps _ _ _) ?_
    | split
    | refine Keeps.upd ?_ List.prefix_rfl (Nat.le_refl _) id (fun p hp => by cases p <;> first | rfl | exact absurd (by decide) hp)
    | decide
    | intro y
    | dsimp -zeta only

theorem State.sendReach_keeps (s : State) (a1 : Nat) :
    Keeps [.skein, .ply] s (State.sendReach s a1) := by
  unfold State.sendReach
  with_reducible repeat' first
    | assumption
    | (extract_lets +onlyGivenNames z
       refine Keeps.let z ?_ ?_
       subst z
       rotate_left
       clear_value z
       revert z
       intro y hy
       rotate_left)
    | (extract_lets +onlyGivenNames z; revert z; intro y)
    | exact Keeps.rfl
    | refine Keeps.foldl _ _ ?_ ?_
    | apply Keeps.next ?_ (State.compareReach_keeps _ _) ?_
    | apply Keeps.next ?_ (State.sendPly_keeps _ _ _ _) ?_
    | refine Keeps.upd ?_ List.prefix_rfl (Nat.le_refl _) id (fun p hp => by cases p <;> first | rfl | exact absurd (by decide) hp)
    | decide
    | intro y
    | dsimp -zeta only

theorem State.applyHeld_keeps (s : State) (a1 : Nat) (a2 : Held) :
    Keeps [.turn, .loops, .mill] s (State.applyHeld s a1 a2) := by
  unfold State.applyHeld
  with_reducible repeat' first
    | assumption
    | (extract_lets +onlyGivenNames z
       refine Keeps.let z ?_ ?_
       subst z
       rotate_left
       clear_value z
       revert z
       intro y hy
       rotate_left)
    | (extract_lets +onlyGivenNames z; revert z; intro y)
    | exact Keeps.rfl
    | refine Keeps.ite ?_ ?_
    | refine Keeps.foldl _ _ ?_ ?_
    | apply Keeps.next ?_ (State.millEnter_keeps _ _ _ _) ?_
    | refine Keeps.upd ?_ List.prefix_rfl (Nat.le_refl _) id (fun p hp => by cases p <;> first | rfl | exact absurd (by decide) hp)
    | decide
    | intro y
    | dsimp -zeta only

theorem State.applyRelease_keeps (s : State) (a1 : Nat) :
    Keeps [.turn, .loops, .mill] s (State.applyRelease s a1) := by
  unfold State.applyRelease
  with_reducible repeat' first
    | assumption
    | (extract_lets +onlyGivenNames z
       refine Keeps.let z ?_ ?_
       subst z
       rotate_left
       clear_value z
       revert z
       intro y hy
       rotate_left)
    | (extract_lets +onlyGivenNames z; revert z; intro y)
    | exact Keeps.rfl
    | refine Keeps.foldl _ _ ?_ ?_
    | apply Keeps.next ?_ (State.applyHeld_keeps _ _ _) ?_
    | refine Keeps.upd ?_ List.prefix_rfl (Nat.le_refl _) id (fun p hp => by cases p <;> first | rfl | exact absurd (by decide) hp)
    | decide
    | intro y
    | dsimp -zeta only

theorem State.endResumed_keeps (s : State) (a1 : Nat) :
    Keeps [.loops] s (State.endResumed s a1) := by
  unfold State.endResumed
  with_reducible repeat' first
    | assumption
    | (extract_lets +onlyGivenNames z; revert z; intro y)
    | exact Keeps.rfl
    | refine Keeps.ite ?_ ?_
    | split
    | refine Keeps.upd ?_ List.prefix_rfl (Nat.le_refl _) id (fun p hp => by cases p <;> first | rfl | exact absurd (by decide) hp)
    | decide
    | dsimp -zeta only

theorem State.slipTask_keeps (s : State) (a1 : Nat) (a2 : Nat) (a3 : Nat) :
    Keeps [.turn, .tasks, .ply, .host, .recorder] s (State.slipTask s a1 a2 a3) := by
  unfold State.slipTask
  with_reducible repeat' first
    | assumption
    | (extract_lets +onlyGivenNames z
       refine Keeps.let z ?_ ?_
       subst z
       rotate_left
       clear_value z
       revert z
       intro y hy
       rotate_left)
    | (extract_lets +onlyGivenNames z; revert z; intro y)
    | exact Keeps.rfl
    | refine Keeps.ite ?_ ?_
    | apply Keeps.next ?_ (State.wr_keeps _ _ _) ?_
    | apply Keeps.next ?_ (State.inc_keeps _ _) ?_
    | apply Keeps.next ?_ (State.noteSlip_keeps _) ?_
    | apply Keeps.next ?_ (State.setRel_keeps _ _ _) ?_
    | apply Keeps.next ?_ (State.setTask_keeps _ _ _) ?_
    | apply Keeps.next ?_ (State.taskEvt_keeps _ _ _) ?_
    | decide
    | dsimp -zeta only

theorem State.slipTasks_keeps (s : State) (a1 : Nat) :
    Keeps [.turn, .tasks, .ply, .host, .recorder] s (State.slipTasks s a1) := by
  unfold State.slipTasks
  with_reducible repeat' first
    | assumption
    | exact Keeps.rfl
    | refine Keeps.foldl _ _ ?_ ?_
    | apply Keeps.next ?_ (State.slipTask_keeps _ _ _ _) ?_
    | split
    | decide
    | intro y
    | dsimp -zeta only

theorem State.releaseStation_keeps (s : State) (a1 : Nat) (a2 : Nat) (a3 : Nat) :
    Keeps [.skein, .ply] s (State.releaseStation s a1 a2 a3) := by
  unfold State.releaseStation
  with_reducible repeat' first
    | assumption
    | (extract_lets +onlyGivenNames z
       refine Keeps.let z ?_ ?_
       subst z
       rotate_left
       clear_value z
       revert z
       intro y hy
       rotate_left)
    | (extract_lets +onlyGivenNames z; revert z; intro y)
    | exact Keeps.rfl
    | refine Keeps.ite ?_ ?_
    | apply Keeps.next ?_ (State.sendBrake_keeps _ _) ?_
    | apply Keeps.next ?_ (State.sendPly_keeps _ _ _ _) ?_
    | apply Keeps.next ?_ (State.launchSkeinIn_keeps _ _ _ _ _ _ _ _ _ _) ?_
    | split
    | decide
    | dsimp -zeta only

theorem State.countDigests_keeps (s : State) :
    Keeps [.hop, .skein, .trace, .time, .ply, .rows, .brake, .host, .recorder] s (State.countDigests s) := by
  unfold State.countDigests
  with_reducible repeat' first
    | assumption
    | (extract_lets +onlyGivenNames z
       refine Keeps.let z ?_ ?_
       subst z
       rotate_left
       clear_value z
       revert z
       intro y hy
       rotate_left)
    | (extract_lets +onlyGivenNames z; revert z; intro y)
    | exact Keeps.rfl
    | refine Keeps.ite ?_ ?_
    | apply Keeps.next ?_ (State.leaveTracking_keeps _ _) ?_
    | refine Keeps.upd ?_ List.prefix_rfl (Nat.le_refl _) id (fun p hp => by cases p <;> first | rfl | exact absurd (by decide) hp)
    | decide
    | dsimp -zeta only

theorem State.noteSplit_keeps (s : State) (a1 : Nat) :
    Keeps [.ply, .host, .recorder] s (State.noteSplit s a1) := by
  unfold State.noteSplit
  with_reducible repeat' first
    | assumption
    | (extract_lets +onlyGivenNames z
       refine Keeps.let z ?_ ?_
       subst z
       rotate_left
       clear_value z
       revert z
       intro y hy
       rotate_left)
    | (extract_lets +onlyGivenNames z; revert z; intro y)
    | exact Keeps.rfl
    | refine Keeps.ite ?_ ?_
    | apply Keeps.next ?_ (State.brkEvt_keeps _ _) ?_
    | apply Keeps.next ?_ (State.inc_keeps _ _) ?_
    | split
    | refine Keeps.upd ?_ List.prefix_rfl (Nat.le_refl _) id (fun p hp => by cases p <;> first | rfl | exact absurd (by decide) hp)
    | decide
    | dsimp -zeta only

theorem State.carryRegs_keeps (s : State) (a1 : Nat) (a2 : Nat × Nat × Nat × Nat) (a3 : Nat) :
    Keeps [] s (State.carryRegs s a1 a2 a3) := by
  unfold State.carryRegs
  with_reducible repeat' first
    | assumption
    | (extract_lets +onlyGivenNames z
       refine Keeps.let z ?_ ?_
       subst z
       rotate_left
       clear_value z
       revert z
       intro y hy
       rotate_left)
    | exact Keeps.rfl
    | apply Keeps.next ?_ (State.wr_keeps _ _ _) ?_
    | decide
    | dsimp -zeta only

theorem State.carryDone_keeps (s : State) (a1 : Nat) :
    Keeps [] s (State.carryDone s a1) := by
  unfold State.carryDone
  with_reducible repeat' first
    | assumption
    | (extract_lets +onlyGivenNames z
       refine Keeps.let z ?_ ?_
       subst z
       rotate_left
       clear_value z
       revert z
       intro y hy
       rotate_left)
    | (extract_lets +onlyGivenNames z; revert z; intro y)
    | exact Keeps.rfl
    | refine Keeps.ite ?_ ?_
    | apply Keeps.next ?_ (State.wr_keeps _ _ _) ?_
    | decide
    | dsimp -zeta only

theorem State.endCarry_keeps (s : State) (a1 : Nat) (a2 : TaskInst) (a3 : List Nat) :
    Keeps [.tasks, .ply, .host, .recorder] s (State.endCarry s a1 a2 a3) := by
  unfold State.endCarry
  with_reducible repeat' first
    | assumption
    | (extract_lets +onlyGivenNames z
       refine Keeps.let z ?_ ?_
       subst z
       rotate_left
       clear_value z
       revert z
       intro y hy
       rotate_left)
    | (extract_lets +onlyGivenNames z; revert z; intro y)
    | exact Keeps.rfl
    | refine Keeps.ite ?_ ?_
    | apply Keeps.next ?_ (State.setTask_keeps _ _ _) ?_
    | apply Keeps.next ?_ (State.captureFull_keeps _) ?_
    | apply Keeps.next ?_ (State.saveTask_keeps _ _ _ _) ?_
    | apply Keeps.next ?_ (State.carryRegs_keeps _ _ _ _) ?_
    | apply Keeps.next ?_ (State.carryDone_keeps _ _) ?_
    | apply Keeps.next ?_ (State.trapInst_keeps _ _ _) ?_
    | apply Keeps.next ?_ (State.beginCopy_keeps _ _ _) ?_
    | refine Keeps.upd ?_ List.prefix_rfl (Nat.le_refl _) id (fun p hp => by cases p <;> first | rfl | exact absurd (by decide) hp)
    | decide
    | dsimp -zeta only

theorem execOnlineCarry_keeps (a0 : Fin 16) (a1 : List (Fin 65536)) (s : State) :
    Keeps [.tasks] s (settle s (execOnlineCarry a0 a1 s)) := by
  unfold execOnlineCarry
  with_reducible repeat' first
    | assumption
    | (extract_lets +onlyGivenNames z; revert z; intro y)
    | exact Keeps.rfl
    | refine Keeps.ok ?_
    | apply Keeps.next ?_ (State.setInst_keeps _ _ _) ?_
    | split
    | decide
    | dsimp -zeta only

theorem execOnlineCarryDone_keeps (a0 : Fin 16) (s : State) :
    Keeps [.tasks, .ply, .host, .recorder] s (settle s (execOnlineCarryDone a0 s)) := by
  unfold execOnlineCarryDone
  with_reducible repeat' first
    | assumption
    | exact Keeps.rfl
    | refine Keeps.ok ?_
    | apply Keeps.next ?_ (State.endCarry_keeps _ _ _ _) ?_
    | split
    | decide
    | dsimp -zeta only

theorem State.restoreTask_keeps (s : State) (a1 : Nat) :
    Keeps [.tasks, .host, .recorder] s (State.restoreTask s a1) := by
  unfold State.restoreTask
  with_reducible repeat' first
    | assumption
    | (extract_lets +onlyGivenNames z; revert z; intro y)
    | exact Keeps.rfl
    | refine Keeps.ite ?_ ?_
    | apply Keeps.next ?_ (State.setTask_keeps _ _ _) ?_
    | apply Keeps.next ?_ (State.taskEvt_keeps _ _ _) ?_
    | apply Keeps.next ?_ (State.wr_keeps _ _ _) ?_
    | split
    | decide
    | dsimp -zeta only

theorem State.restoreRetained_keeps (s : State) :
    Keeps [.tasks, .host, .recorder] s (State.restoreRetained s) := by
  unfold State.restoreRetained
  with_reducible repeat' first
    | assumption
    | (extract_lets +onlyGivenNames z
       refine Keeps.let z ?_ ?_
       subst z
       rotate_left
       clear_value z
       revert z
       intro y hy
       rotate_left)
    | (extract_lets +onlyGivenNames z; revert z; intro y)
    | exact Keeps.rfl
    | refine Keeps.ite ?_ ?_
    | refine Keeps.foldl _ _ ?_ ?_
    | apply Keeps.next ?_ (State.restoreTask_keeps _ _) ?_
    | refine Keeps.upd ?_ List.prefix_rfl (Nat.le_refl _) id (fun p hp => by cases p <;> first | rfl | exact absurd (by decide) hp)
    | decide
    | intro y
    | dsimp -zeta only

theorem State.originRegs_keeps (s : State) :
    Keeps [] s (State.originRegs s) := by
  unfold State.originRegs
  with_reducible repeat' first
    | assumption
    | (extract_lets +onlyGivenNames z
       refine Keeps.let z ?_ ?_
       subst z
       rotate_left
       clear_value z
       revert z
       intro y hy
       rotate_left)
    | (extract_lets +onlyGivenNames z; revert z; intro y)
    | exact Keeps.rfl
    | refine Keeps.foldl _ _ ?_ ?_
    | apply Keeps.next ?_ (State.wr_keeps _ _ _) ?_
    | decide
    | intro y
    | dsimp -zeta only

theorem execTurnEngineStart_keeps (s : State) :
    Keeps [.turnNumber, .turn, .skein, .tasks, .time, .ply, .host, .mill] s (settle s (execTurnEngineStart s)) := by
  unfold execTurnEngineStart
  with_reducible repeat' first
    | assumption
    | (extract_lets +onlyGivenNames z
       refine Keeps.let z ?_ ?_
       subst z
       rotate_left
       clear_value z
       revert z
       intro y hy
       rotate_left)
    | (extract_lets +onlyGivenNames z; revert z; intro y)
    | exact Keeps.rfl
    | refine Keeps.iteO ?_ ?_
    | refine Keeps.ite ?_ ?_
    | refine Keeps.ok ?_
    | refine Keeps.foldl _ _ ?_ ?_
    | apply Keeps.next ?_ (State.wr_keeps _ _ _) ?_
    | apply Keeps.next ?_ (State.boundaryBlocks_keeps _ _ _) ?_
    | apply Keeps.next ?_ (State.originRegs_keeps _) ?_
    | apply Keeps.next ?_ (State.autoSwitch_keeps _) ?_
    | apply Keeps.next ?_ (State.doorbellStart_keeps _ _) ?_
    | apply Keeps.next ?_ (State.sendSnaps_keeps _ _) ?_
    | apply Keeps.next ?_ (State.millBoundary_keeps _) ?_
    | refine Keeps.upd ?_ List.prefix_rfl (Nat.le_refl _) id (fun p hp => by cases p <;> first | rfl | exact absurd (by decide) hp)
    | decide
    | intro y
    | dsimp -zeta only

theorem execTurnBoundary_keeps (s : State) :
    Keeps [.image, .turnNumber, .turn, .skein, .retained, .tasks, .time, .ply, .host, .mill] s (settle s (execTurnBoundary s)) := by
  unfold execTurnBoundary
  with_reducible repeat' first
    | assumption
    | (extract_lets +onlyGivenNames z
       refine Keeps.let z ?_ ?_
       subst z
       rotate_left
       clear_value z
       revert z
       intro y hy
       rotate_left)
    | (extract_lets +onlyGivenNames z; revert z; intro y)
    | exact Keeps.rfl
    | refine Keeps.iteO ?_ ?_
    | refine Keeps.ite ?_ ?_
    | refine Keeps.ok ?_
    | refine Keeps.foldl _ _ ?_ ?_
    | apply Keeps.next ?_ (State.boundaryBlocks_keeps _ _ _) ?_
    | apply Keeps.next ?_ (State.countMarks_keeps _ _) ?_
    | apply Keeps.next ?_ (State.autoSwitch_keeps _) ?_
    | apply Keeps.next ?_ (State.doorbellStart_keeps _ _) ?_
    | apply Keeps.next ?_ (State.extraFlush_keeps _) ?_
    | apply Keeps.next ?_ (State.sendSnaps_keeps _ _) ?_
    | apply Keeps.next ?_ (State.millBoundary_keeps _) ?_
    | refine Keeps.upd ?_ List.prefix_rfl (Nat.le_refl _) id (fun p hp => by cases p <;> first | rfl | exact absurd (by decide) hp)
    | decide
    | intro y
    | dsimp -zeta only

theorem State.runSample_keeps (s : State) (a1 : Nat) :
    Keeps [.image, .turn, .skein, .tasks, .trace, .ring, .time, .ply, .rows, .brake, .host, .recorder, .mem] s (State.runSample s a1) := by
  unfold State.runSample
  with_reducible repeat' first
    | assumption
    | (extract_lets +onlyGivenNames z
       refine Keeps.let z ?_ ?_
       subst z
       rotate_left
       clear_value z
       revert z
       intro y hy
       rotate_left)
    | (extract_lets +onlyGivenNames z; revert z; intro y)
    | exact Keeps.rfl
    | refine Keeps.ite ?_ ?_
    | refine Keeps.foldl _ _ ?_ ?_
    | apply Keeps.next ?_ (State.takeRingSlot_keeps _ _ _) ?_
    | apply Keeps.next ?_ (State.lossRows_keeps _) ?_
    | apply Keeps.next ?_ (State.prunePubs_keeps _ _) ?_
    | apply Keeps.next ?_ (State.readyTask_keeps _ _ _) ?_
    | apply Keeps.next ?_ (State.recordSlots_keeps _ _ _) ?_
    | apply Keeps.next ?_ (State.composePub_keeps _ _ _) ?_
    | refine Keeps.upd ?_ List.prefix_rfl (Nat.le_refl _) id (fun p hp => by cases p <;> first | rfl | exact absurd (by decide) hp)
    | decide
    | intro y
    | dsimp -zeta only

theorem State.takeSnap_keeps (s : State) (a1 : Nat) (a2 : Nat) (a3 : List Word36) :
    Keeps [.tasks, .mill] s (State.takeSnap s a1 a2 a3) := by
  unfold State.takeSnap
  with_reducible repeat' first
    | assumption
    | (extract_lets +onlyGivenNames z
       refine Keeps.let z ?_ ?_
       subst z
       rotate_left
       clear_value z
       revert z
       intro y hy
       rotate_left)
    | (extract_lets +onlyGivenNames z; revert z; intro y)
    | exact Keeps.rfl
    | refine Keeps.ite ?_ ?_
    | apply Keeps.next ?_ (State.setMillBuf_keeps _ _ _ _) ?_
    | refine Keeps.upd ?_ List.prefix_rfl (Nat.le_refl _) id (fun p hp => by cases p <;> first | rfl | exact absurd (by decide) hp)
    | decide
    | dsimp -zeta only

theorem State.takeRecorded_keeps (s : State) (a1 : Nat) :
    Keeps [.image, .tasks, .ply, .mill] s (State.takeRecorded s a1) := by
  unfold State.takeRecorded
  with_reducible repeat' first
    | assumption
    | (extract_lets +onlyGivenNames z
       refine Keeps.let z ?_ ?_
       subst z
       rotate_left
       clear_value z
       revert z
       intro y hy
       rotate_left)
    | (extract_lets +onlyGivenNames z; revert z; intro y)
    | exact Keeps.rfl
    | refine Keeps.foldl _ _ ?_ ?_
    | apply Keeps.next ?_ (State.takeSnap_keeps _ _ _ _) ?_
    | apply Keeps.next ?_ (State.storeInput_keeps _ _ _) ?_
    | refine Keeps.upd ?_ List.prefix_rfl (Nat.le_refl _) id (fun p hp => by cases p <;> first | rfl | exact absurd (by decide) hp)
    | decide
    | intro y
    | dsimp -zeta only

theorem State.showBacklog_keeps (s : State) :
    Keeps [] s (State.showBacklog s) := by
  unfold State.showBacklog
  with_reducible repeat' first
    | assumption
    | exact Keeps.rfl
    | apply Keeps.next ?_ (State.wr_keeps _ _ _) ?_
    | decide
    | dsimp -zeta only

theorem State.replayCutoff_keeps (s : State) :
    Keeps [.image, .turn, .skein, .tasks, .trace, .ring, .time, .ply, .rows, .brake, .host, .mill, .recorder, .mem] s (State.replayCutoff s) := by
  unfold State.replayCutoff
  with_reducible repeat' first
    | assumption
    | (extract_lets +onlyGivenNames z
       refine Keeps.let z ?_ ?_
       subst z
       rotate_left
       clear_value z
       revert z
       intro y hy
       rotate_left)
    | (extract_lets +onlyGivenNames z; revert z; intro y)
    | exact Keeps.rfl
    | refine Keeps.ite ?_ ?_
    | refine Keeps.foldl _ _ ?_ ?_
    | apply Keeps.next ?_ (State.sendReach_keeps _ _) ?_
    | apply Keeps.next ?_ (State.reachedRegs_keeps _ _) ?_
    | apply Keeps.next ?_ (State.missRegs_keeps _ _) ?_
    | apply Keeps.next ?_ (State.showBacklog_keeps _) ?_
    | apply Keeps.next ?_ (State.substitute_keeps _ _) ?_
    | apply Keeps.next ?_ (State.takeRecorded_keeps _ _) ?_
    | apply Keeps.next ?_ (State.runSample_keeps _ _) ?_
    | refine Keeps.upd ?_ List.prefix_rfl (Nat.le_refl _) id (fun p hp => by cases p <;> first | rfl | exact absurd (by decide) hp)
    | decide
    | intro y
    | dsimp -zeta only

theorem execInputCutoff_keeps (s : State) :
    Keeps [.image, .turn, .skein, .tasks, .trace, .ring, .time, .ply, .rows, .brake, .host, .mill, .recorder, .mem] s (settle s (execInputCutoff s)) := by
  unfold execInputCutoff
  with_reducible repeat' first
    | assumption
    | (extract_lets +onlyGivenNames z
       refine Keeps.let z ?_ ?_
       subst z
       rotate_left
       clear_value z
       revert z
       intro y hy
       rotate_left)
    | (extract_lets +onlyGivenNames z; revert z; intro y)
    | exact Keeps.rfl
    | refine Keeps.iteO ?_ ?_
    | refine Keeps.ite ?_ ?_
    | refine Keeps.ok ?_
    | refine Keeps.foldl _ _ ?_ ?_
    | apply Keeps.next ?_ (State.replayCutoff_keeps _) ?_
    | apply Keeps.next ?_ (State.reachedRegs_keeps _ _) ?_
    | apply Keeps.next ?_ (State.missStation_keeps _ _) ?_
    | apply Keeps.next ?_ (State.sendReach_keeps _ _) ?_
    | apply Keeps.next ?_ (State.runSample_keeps _ _) ?_
    | decide
    | intro y
    | dsimp -zeta only

theorem execReleaseInstant_keeps (s : State) :
    Keeps [.hop, .turn, .skein, .tasks, .loops, .trace, .time, .ply, .rows, .brake, .host, .mill, .recorder] s (settle s (execReleaseInstant s)) := by
  unfold execReleaseInstant
  with_reducible repeat' first
    | assumption
    | (extract_lets +onlyGivenNames z
       refine Keeps.let z ?_ ?_
       subst z
       rotate_left
       clear_value z
       revert z
       intro y hy
       rotate_left)
    | (extract_lets +onlyGivenNames z; subst z)
    | exact Keeps.rfl
    | refine Keeps.iteO ?_ ?_
    | refine Keeps.ite ?_ ?_
    | refine Keeps.ok ?_
  all_goals with_reducible repeat' first
    | assumption
    | exact Keeps.rfl
    | refine Keeps.foldl _ _ ?_ ?_
    | apply Keeps.next ?_ (State.endResumed_keeps _ _) ?_
    | apply Keeps.next ?_ (State.raiseEqual_keeps _) ?_
    | apply Keeps.next ?_ (State.countDigests_keeps _) ?_
    | apply Keeps.next ?_ (State.overrunStop_keeps _ _ _ _) ?_
    | apply Keeps.next ?_ (State.slipTasks_keeps _ _) ?_
    | apply Keeps.next ?_ (State.applyRelease_keeps _ _) ?_
    | apply Keeps.next ?_ (State.setRow_keeps _ _ _) ?_
    | apply Keeps.next ?_ (State.releaseStation_keeps _ _ _ _) ?_
    | apply Keeps.next ?_ (State.wr_keeps _ _ _) ?_
    | apply Keeps.next ?_ (State.setRel_keeps _ _ _) ?_
    | apply Keeps.next ?_ (State.noteSplit_keeps _ _) ?_
    | split
    | refine Keeps.upd ?_ List.prefix_rfl (Nat.le_refl _) id (fun p hp => by cases p <;> first | rfl | exact absurd (by decide) hp)
    | decide
    | (intro y a hy)

theorem execRegulationIntervalEnd_keeps (s : State) :
    Keeps [.turn] s (settle s (execRegulationIntervalEnd s)) := by
  unfold execRegulationIntervalEnd
  with_reducible repeat' first
    | assumption
    | (extract_lets +onlyGivenNames z
       refine Keeps.let z ?_ ?_
       subst z
       rotate_left
       clear_value z
       revert z
       intro y hy
       rotate_left)
    | (extract_lets +onlyGivenNames z; revert z; intro y)
    | exact Keeps.rfl
    | refine Keeps.iteO ?_ ?_
    | refine Keeps.ite ?_ ?_
    | refine Keeps.ok ?_
    | apply Keeps.next ?_ (State.setVcore_keeps _ _) ?_
    | split
    | refine Keeps.upd ?_ List.prefix_rfl (Nat.le_refl _) id (fun p hp => by cases p <;> first | rfl | exact absurd (by decide) hp)
    | decide
    | dsimp -zeta only

theorem execStageWedged_keeps (a0 : UnitClass) (a1 : Fin 128) (s : State) :
    Keeps [.hop, .turn, .skein, .trace, .time, .ply, .rows, .brake, .host, .recorder] s (settle s (execStageWedged a0 a1 s)) := by
  unfold execStageWedged
  with_reducible repeat' first
    | assumption
    | exact Keeps.rfl
    | refine Keeps.ok ?_
    | apply Keeps.next ?_ (State.selfFault_keeps _ _ _ _) ?_
    | decide
    | dsimp -zeta only

theorem execSlackClearMin_keeps (s : State) :
    Keeps [] s (settle s (execSlackClearMin s)) := by
  unfold execSlackClearMin
  with_reducible repeat' first
    | assumption
    | (extract_lets +onlyGivenNames z
       refine Keeps.let z ?_ ?_
       subst z
       rotate_left
       clear_value z
       revert z
       intro y hy
       rotate_left)
    | exact Keeps.rfl
    | refine Keeps.iteO ?_ ?_
    | refine Keeps.ite ?_ ?_
    | refine Keeps.ok ?_
    | refine Keeps.foldl _ _ ?_ ?_
    | apply Keeps.next ?_ (State.wr_keeps _ _ _) ?_
    | decide
    | intro y
    | dsimp -zeta only

theorem execSlackClearSlips_keeps (s : State) :
    Keeps [] s (settle s (execSlackClearSlips s)) := by
  unfold execSlackClearSlips
  with_reducible repeat' first
    | assumption
    | (extract_lets +onlyGivenNames z
       refine Keeps.let z ?_ ?_
       subst z
       rotate_left
       clear_value z
       revert z
       intro y hy
       rotate_left)
    | exact Keeps.rfl
    | refine Keeps.iteO ?_ ?_
    | refine Keeps.ite ?_ ?_
    | refine Keeps.ok ?_
    | refine Keeps.foldl _ _ ?_ ?_
    | apply Keeps.next ?_ (State.wr_keeps _ _ _) ?_
    | decide
    | intro y
    | dsimp -zeta only

theorem State.takeWrite_keeps (s : State) (a1 : Nat) (a2 : HostWrite) :
    Keeps [.image, .loops, .ply] s (State.takeWrite s a1 a2) := by
  unfold State.takeWrite
  with_reducible repeat' first
    | assumption
    | (extract_lets +onlyGivenNames z
       refine Keeps.let z ?_ ?_
       subst z
       rotate_left
       clear_value z
       revert z
       intro y hy
       rotate_left)
    | (extract_lets +onlyGivenNames z; revert z; intro y)
    | exact Keeps.rfl
    | refine Keeps.ite ?_ ?_
    | apply Keeps.next ?_ (State.setCell_keeps _ _ _) ?_
    | apply Keeps.next ?_ (State.barKey_keeps _ _ _) ?_
    | split
    | refine Keeps.upd ?_ List.prefix_rfl (Nat.le_refl _) id (fun p hp => by cases p <;> first | rfl | exact absurd (by decide) hp)
    | decide
    | dsimp -zeta only

theorem execHostWriteTaken_keeps (s : State) :
    Keeps [.image, .loops, .ply] s (settle s (execHostWriteTaken s)) := by
  unfold execHostWriteTaken
  with_reducible repeat' first
    | assumption
    | (extract_lets +onlyGivenNames z
       refine Keeps.let z ?_ ?_
       subst z
       rotate_left
       clear_value z
       revert z
       intro y hy
       rotate_left)
    | (extract_lets +onlyGivenNames z; revert z; intro y)
    | exact Keeps.rfl
    | refine Keeps.ok ?_
    | refine Keeps.foldl _ _ ?_ ?_
    | apply Keeps.next ?_ (State.takeWrite_keeps _ _ _) ?_
    | refine Keeps.upd ?_ List.prefix_rfl (Nat.le_refl _) id (fun p hp => by cases p <;> first | rfl | exact absurd (by decide) hp)
    | decide
    | intro y
    | dsimp -zeta only

theorem State.applyForce_keeps (s : State) (a1 : BitVec 18 × Option Sample) :
    Keeps [.forces, .image] s (State.applyForce s a1) := by
  unfold State.applyForce
  with_reducible repeat' first
    | assumption
    | (extract_lets +onlyGivenNames z
       refine Keeps.let z ?_ ?_
       subst z
       rotate_left
       clear_value z
       revert z
       intro y hy
       rotate_left)
    | (extract_lets +onlyGivenNames z; revert z; intro y)
    | exact Keeps.rfl
    | refine Keeps.ite ?_ ?_
    | split
    | refine Keeps.upd ?_ List.prefix_rfl (Nat.le_refl _) id (fun p hp => by cases p <;> first | rfl | exact absurd (by decide) hp)
    | decide
    | dsimp -zeta only

theorem execForceApply_keeps (s : State) :
    Keeps [.forces, .image, .skein, .trace, .time, .ply, .rows, .brake, .host, .recorder] s (settle s (execForceApply s)) := by
  unfold execForceApply
  with_reducible repeat' first
    | assumption
    | (extract_lets +onlyGivenNames z
       refine Keeps.let z ?_ ?_
       subst z
       rotate_left
       clear_value z
       revert z
       intro y hy
       rotate_left)
    | (extract_lets +onlyGivenNames z; revert z; intro y)
    | exact Keeps.rfl
    | refine Keeps.iteO ?_ ?_
    | refine Keeps.ite ?_ ?_
    | refine Keeps.ok ?_
    | refine Keeps.foldl _ _ ?_ ?_
    | apply Keeps.next ?_ (State.saveForces_keeps _) ?_
    | apply Keeps.next ?_ (State.applyForce_keeps _ _) ?_
    | apply Keeps.next ?_ (State.lossRows_keeps _) ?_
    | apply Keeps.next ?_ (State.finish_keeps _ _ _ _ _ _) ?_
    | split
    | refine Keeps.upd ?_ List.prefix_rfl (Nat.le_refl _) id (fun p hp => by cases p <;> first | rfl | exact absurd (by decide) hp)
    | decide
    | intro y
    | dsimp -zeta only

theorem State.tryTakeover_keeps (s : State) (a1 : Nat) :
    Keeps [.hop, .skein, .tasks, .loops, .trace, .time, .ply, .rows, .brake, .host, .mill, .recorder] s (State.tryTakeover s a1) := by
  unfold State.tryTakeover
  with_reducible repeat' first
    | assumption
    | exact Keeps.rfl
    | apply Keeps.next ?_ (State.overrunStop_keeps _ _ _ _) ?_
    | apply Keeps.next ?_ (State.takeover_keeps _ _) ?_
    | split
    | decide
    | dsimp -zeta only

theorem State.judgePartner_keeps (s : State) :
    Keeps [.hop, .skein, .tasks, .loops, .trace, .time, .ply, .rows, .brake, .host, .mill, .recorder] s (State.judgePartner s) := by
  unfold State.judgePartner
  with_reducible repeat' first
    | assumption
    | (extract_lets +onlyGivenNames z
       refine Keeps.let z ?_ ?_
       subst z
       rotate_left
       clear_value z
       revert z
       intro y hy
       rotate_left)
    | (extract_lets +onlyGivenNames z; revert z; intro y)
    | exact Keeps.rfl
    | refine Keeps.ite ?_ ?_
    | apply Keeps.next ?_ (State.tryTakeover_keeps _ _) ?_
    | apply Keeps.next ?_ (State.leaveTracking_keeps _ _) ?_
    | split
    | refine Keeps.upd ?_ List.prefix_rfl (Nat.le_refl _) id (fun p hp => by cases p <;> first | rfl | exact absurd (by decide) hp)
    | decide
    | dsimp -zeta only

theorem State.loneIfLost_keeps (s : State) :
    Keeps [.hop, .skein, .trace, .time, .ply, .rows, .brake, .host, .recorder] s (State.loneIfLost s) := by
  unfold State.loneIfLost
  with_reducible repeat' first
    | assumption
    | exact Keeps.rfl
    | refine Keeps.ite ?_ ?_
    | apply Keeps.next ?_ (State.plyEvt_keeps _ _) ?_
    | apply Keeps.next ?_ (State.setPlyState_keeps _ _) ?_
    | decide
    | dsimp -zeta only

theorem State.becomeLone_keeps (s : State) :
    Keeps [.hop, .skein, .tasks, .trace, .time, .ply, .rows, .brake, .host, .mill, .recorder] s (State.becomeLone s) := by
  unfold State.becomeLone
  with_reducible repeat' first
    | assumption
    | (extract_lets +onlyGivenNames z
       refine Keeps.let z ?_ ?_
       subst z
       rotate_left
       clear_value z
       revert z
       intro y hy
       rotate_left)
    | (extract_lets +onlyGivenNames z; revert z; intro y)
    | exact Keeps.rfl
    | refine Keeps.ite ?_ ?_
    | apply Keeps.next ?_ (State.row19_keeps _) ?_
    | apply Keeps.next ?_ (State.setPlyState_keeps _ _) ?_
    | apply Keeps.next ?_ (State.wr_keeps _ _ _) ?_
    | apply Keeps.next ?_ (State.queueHeartbeat_keeps _) ?_
    | apply Keeps.next ?_ (State.setMuted_keeps _ _) ?_
    | apply Keeps.next ?_ (State.restoreRetained_keeps _) ?_
    | refine Keeps.upd ?_ List.prefix_rfl (Nat.le_refl _) id (fun p hp => by cases p <;> first | rfl | exact absurd (by decide) hp)
    | decide
    | dsimp -zeta only

theorem State.sendJoin_keeps (s : State) :
    Keeps [.ply] s (State.sendJoin s) := by
  unfold State.sendJoin
  with_reducible repeat' first
    | assumption
    | (extract_lets +onlyGivenNames z; revert z; intro y)
    | exact Keeps.rfl
    | refine Keeps.ite ?_ ?_
    | apply Keeps.next ?_ (State.sendPly_keeps _ _ _ _) ?_
    | decide
    | dsimp -zeta only

theorem State.beginJoin_keeps (s : State) :
    Keeps [.hop, .skein, .trace, .time, .ply, .rows, .brake, .host, .recorder] s (State.beginJoin s) := by
  unfold State.beginJoin
  with_reducible repeat' first
    | assumption
    | (extract_lets +onlyGivenNames z
       refine Keeps.let z ?_ ?_
       subst z
       rotate_left
       clear_value z
       revert z
       intro y hy
       rotate_left)
    | (extract_lets +onlyGivenNames z; revert z; intro y)
    | exact Keeps.rfl
    | apply Keeps.next ?_ (State.wr_keeps _ _ _) ?_
    | apply Keeps.next ?_ (State.setPlyState_keeps _ _) ?_
    | apply Keeps.next ?_ (State.inc_keeps _ _) ?_
    | apply Keeps.next ?_ (State.sendJoin_keeps _) ?_
    | refine Keeps.upd ?_ List.prefix_rfl (Nat.le_refl _) id (fun p hp => by cases p <;> first | rfl | exact absurd (by decide) hp)
    | decide
    | dsimp -zeta only

theorem State.failJoin_keeps (s : State) (a1 : Nat) :
    Keeps [.hop, .skein, .trace, .time, .ply, .rows, .brake, .host, .recorder] s (State.failJoin s a1) := by
  unfold State.failJoin
  with_reducible repeat' first
    | assumption
    | (extract_lets +onlyGivenNames z
       refine Keeps.let z ?_ ?_
       subst z
       rotate_left
       clear_value z
       revert z
       intro y hy
       rotate_left)
    | exact Keeps.rfl
    | refine Keeps.ite ?_ ?_
    | apply Keeps.next ?_ (State.wr_keeps _ _ _) ?_
    | apply Keeps.next ?_ (State.plyEvt_keeps _ _) ?_
    | apply Keeps.next ?_ (State.setPlyState_keeps _ _) ?_
    | decide
    | dsimp -zeta only

theorem State.decideRole_keeps (s : State) :
    Keeps [.hop, .skein, .tasks, .trace, .time, .ply, .rows, .brake, .host, .mill, .recorder] s (State.decideRole s) := by
  unfold State.decideRole
  with_reducible repeat' first
    | assumption
    | exact Keeps.rfl
    | refine Keeps.ite ?_ ?_
    | apply Keeps.next ?_ (State.beginJoin_keeps _) ?_
    | apply Keeps.next ?_ (State.becomeLone_keeps _) ?_
    | split
    | decide
    | dsimp -zeta only

theorem State.ringCount_keeps (s : State) (a1 : Nat) :
    Keeps [] s (State.ringCount s a1) := by
  unfold State.ringCount
  with_reducible repeat' first
    | assumption
    | exact Keeps.rfl
    | apply Keeps.next ?_ (State.inc_keeps _ _) ?_
    | decide
    | dsimp -zeta only

theorem State.ringForward_keeps (s : State) (a1 : Bool) (a2 : Bool) (a3 : Bytes) :
    Keeps [] s (State.ringForward s a1 a2 a3) := by
  unfold State.ringForward
  with_reducible repeat' first
    | assumption
    | (extract_lets +onlyGivenNames z
       refine Keeps.let z ?_ ?_
       subst z
       rotate_left
       clear_value z
       revert z
       intro y hy
       rotate_left)
    | (extract_lets +onlyGivenNames z; revert z; intro y)
    | exact Keeps.rfl
    | refine Keeps.ite ?_ ?_
    | apply Keeps.next ?_ (State.emit_keeps _ _) ?_
    | apply Keeps.next ?_ (State.ringOut_keeps _ _ _) ?_
    | apply Keeps.next ?_ (State.inc_keeps _ _) ?_
    | decide
    | dsimp -zeta only

theorem State.ringTake_keeps (s : State) (a1 : Bool) (a2 : Bool) (a3 : Bytes) :
    Keeps [.ring] s (State.ringTake s a1 a2 a3).1 := by
  unfold State.ringTake
  with_reducible repeat' first
    | assumption
    | (extract_lets +onlyGivenNames z
       refine Keeps.let z ?_ ?_
       subst z
       rotate_left
       clear_value z
       revert z
       intro y hy
       rotate_left)
    | (extract_lets +onlyGivenNames z; revert z; intro y)
    | exact Keeps.rfl
    | refine Keeps.ite ?_ ?_
    | refine Keeps.ite1 ?_ ?_
    | apply Keeps.next ?_ (State.ringForward_keeps _ _ _ _) ?_
    | apply Keeps.next ?_ (State.ringCount_keeps _ _) ?_
    | split
    | refine Keeps.upd ?_ List.prefix_rfl (Nat.le_refl _) id (fun p hp => by cases p <;> first | rfl | exact absurd (by decide) hp)
    | decide
    | dsimp -zeta only

theorem State.ringRegs_keeps (s : State) :
    Keeps [.host, .recorder] s (State.ringRegs s) := by
  unfold State.ringRegs
  with_reducible repeat' first
    | assumption
    | (extract_lets +onlyGivenNames z
       refine Keeps.let z ?_ ?_
       subst z
       rotate_left
       clear_value z
       revert z
       intro y hy
       rotate_left)
    | (extract_lets +onlyGivenNames z; revert z; intro y)
    | exact Keeps.rfl
    | refine Keeps.ite ?_ ?_
    | refine Keeps.foldl _ _ ?_ ?_
    | apply Keeps.next ?_ (State.wr_keeps _ _ _) ?_
    | apply Keeps.next ?_ (State.wrb_keeps _ _ _) ?_
    | apply Keeps.next ?_ (State.ringEvt_keeps _ _) ?_
    | decide
    | intro y
    | dsimp -zeta only

theorem State.setMember_keeps (s : State) (a1 : Nat) (a2 : Nat) (a3 : Nat) :
    Keeps [.time, .ply, .host, .recorder] s (State.setMember s a1 a2 a3) := by
  unfold State.setMember
  with_reducible repeat' first
    | assumption
    | (extract_lets +onlyGivenNames z
       refine Keeps.let z ?_ ?_
       subst z
       rotate_left
       clear_value z
       revert z
       intro y hy
       rotate_left)
    | exact Keeps.rfl
    | refine Keeps.ite ?_ ?_
    | apply Keeps.next ?_ (State.ringEvt_keeps _ _) ?_
    | apply Keeps.next ?_ (State.wr_keeps _ _ _) ?_
    | apply Keeps.next ?_ (State.recalibrate_keeps _) ?_
    | decide
    | dsimp -zeta only

theorem State.noteBeacon_keeps (s : State) (a1 : Nat) (a2 : Bytes) (a3 : Nat) :
    Keeps [.ring] s (State.noteBeacon s a1 a2 a3) := by
  unfold State.noteBeacon
  with_reducible repeat' first
    | assumption
    | (extract_lets +onlyGivenNames z
       refine Keeps.let z ?_ ?_
       subst z
       rotate_left
       clear_value z
       revert z
       intro y hy
       rotate_left)
    | (extract_lets +onlyGivenNames z; revert z; intro y)
    | exact Keeps.rfl
    | apply Keeps.next ?_ (State.wr_keeps _ _ _) ?_
    | refine Keeps.upd ?_ List.prefix_rfl (Nat.le_refl _) id (fun p hp => by cases p <;> first | rfl | exact absurd (by decide) hp)
    | decide
    | dsimp -zeta only

theorem execBeaconReceived_keeps (a0 : Bool) (a1 : Bool) (a2 : Bytes) (s : State) :
    Keeps [.ring, .time, .ply, .host, .recorder] s (settle s (execBeaconReceived a0 a1 a2 s)) := by
  unfold execBeaconReceived
  with_reducible repeat' first
    | assumption
    | (extract_lets +onlyGivenNames z
       refine Keeps.let z ?_ ?_
       subst z
       rotate_left
       clear_value z
       revert z
       intro y hy
       rotate_left)
    | (extract_lets +onlyGivenNames z; revert z; intro y)
    | exact Keeps.rfl
    | refine Keeps.iteO ?_ ?_
    | refine Keeps.ite ?_ ?_
    | refine Keeps.ok ?_
    | refine Keeps.ite1 ?_ ?_
    | (rename (_ : State × _) = _ => heq
       refine Keeps.pair heq ?_ ?_ <;> clear heq
       rotate_left
       intro hy
       rotate_left)
    | apply Keeps.next ?_ (State.ringTake_keeps _ _ _ _) ?_
    | apply Keeps.next ?_ (State.ringRegs_keeps _) ?_
    | apply Keeps.next ?_ (State.wr_keeps _ _ _) ?_
    | apply Keeps.next ?_ (State.hearEpoch_keeps _ _) ?_
    | apply Keeps.next ?_ (State.noteBeacon_keeps _ _ _ _) ?_
    | apply Keeps.next ?_ (State.wrb_keeps _ _ _) ?_
    | apply Keeps.next ?_ (State.setMember_keeps _ _ _ _) ?_
    | split
    | refine Keeps.upd ?_ List.prefix_rfl (Nat.le_refl _) id (fun p hp => by cases p <;> first | rfl | exact absurd (by decide) hp)
    | decide
    | dsimp -zeta only

theorem State.ownClaim_keeps (s : State) (a1 : Nat) (a2 : Bool) :
    Keeps [.ring] s (State.ownClaim s a1 a2) := by
  unfold State.ownClaim
  with_reducible repeat' first
    | assumption
    | (extract_lets +onlyGivenNames z
       refine Keeps.let z ?_ ?_
       subst z
       rotate_left
       clear_value z
       revert z
       intro y hy
       rotate_left)
    | (extract_lets +onlyGivenNames z; revert z; intro y)
    | exact Keeps.rfl
    | refine Keeps.ite ?_ ?_
    | apply Keeps.next ?_ (State.wr_keeps _ _ _) ?_
    | refine Keeps.upd ?_ List.prefix_rfl (Nat.le_refl _) id (fun p hp => by cases p <;> first | rfl | exact absurd (by decide) hp)
    | decide
    | dsimp -zeta only

theorem execMemberSilent_keeps (a0 : Fin 16) (s : State) :
    Keeps [.hop, .skein, .tasks, .loops, .trace, .ring, .time, .ply, .rows, .brake, .host, .mill, .recorder] s (settle s (execMemberSilent a0 s)) := by
  unfold execMemberSilent
  with_reducible repeat' first
    | assumption
    | exact Keeps.rfl
    | refine Keeps.iteO ?_ ?_
    | refine Keeps.ite ?_ ?_
    | refine Keeps.ok ?_
    | apply Keeps.next ?_ (State.judgePartner_keeps _) ?_
    | apply Keeps.next ?_ (State.ringRegs_keeps _) ?_
    | apply Keeps.next ?_ (State.ownClaim_keeps _ _ _) ?_
    | apply Keeps.next ?_ (State.setMember_keeps _ _ _ _) ?_
    | decide
    | dsimp -zeta only

theorem execClashCleared_keeps (a0 : Fin 16) (s : State) :
    Keeps [.ring, .host, .recorder] s (settle s (execClashCleared a0 s)) := by
  unfold execClashCleared
  with_reducible repeat' first
    | assumption
    | (extract_lets +onlyGivenNames z; revert z; intro y)
    | exact Keeps.rfl
    | refine Keeps.iteO ?_ ?_
    | refine Keeps.ite ?_ ?_
    | refine Keeps.ok ?_
    | apply Keeps.next ?_ (State.ringRegs_keeps _) ?_
    | apply Keeps.next ?_ (State.ownClaim_keeps _ _ _) ?_
    | apply Keeps.next ?_ (State.wr_keeps _ _ _) ?_
    | decide
    | dsimp -zeta only

theorem execBeaconSend_keeps (s : State) :
    Keeps [.ring] s (settle s (execBeaconSend s)) := by
  unfold execBeaconSend
  with_reducible repeat' first
    | assumption
    | (extract_lets +onlyGivenNames z; revert z; intro y)
    | exact Keeps.rfl
    | refine Keeps.iteO ?_ ?_
    | refine Keeps.ite ?_ ?_
    | refine Keeps.ok ?_
    | refine Keeps.foldl _ _ ?_ ?_
    | apply Keeps.next ?_ (State.sendRing_keeps _ _ _ _ _ _ _ _) ?_
    | decide
    | intro y
    | dsimp -zeta only

theorem State.takePublish_keeps (s : State) (a1 : Bytes) :
    Keeps [.ring, .host, .recorder] s (State.takePublish s a1) := by
  unfold State.takePublish
  with_reducible repeat' first
    | assumption
    | (extract_lets +onlyGivenNames z
       refine Keeps.let z ?_ ?_
       subst z
       rotate_left
       clear_value z
       revert z
       intro y hy
       rotate_left)
    | (extract_lets +onlyGivenNames z; revert z; intro y)
    | exact Keeps.rfl
    | refine Keeps.ite ?_ ?_
    | apply Keeps.next ?_ (State.ringEvt_keeps _ _) ?_
    | apply Keeps.next ?_ (State.ringCount_keeps _ _) ?_
    | refine Keeps.upd ?_ List.prefix_rfl (Nat.le_refl _) id (fun p hp => by cases p <;> first | rfl | exact absurd (by decide) hp)
    | decide
    | dsimp -zeta only

theorem execPublishReceived_keeps (a0 : Bool) (a1 : Bool) (a2 : Bytes) (s : State) :
    Keeps [.ring, .ply, .host, .recorder] s (settle s (execPublishReceived a0 a1 a2 s)) := by
  unfold execPublishReceived
  with_reducible repeat' first
    | assumption
    | (extract_lets +onlyGivenNames z
       refine Keeps.let z ?_ ?_
       subst z
       rotate_left
       clear_value z
       revert z
       intro y hy
       rotate_left)
    | (extract_lets +onlyGivenNames z
       refine Keeps.let1 z ?_ ?_
       subst z
       rotate_left
       clear_value z
       revert z
       rintro ⟨y, y1⟩ hy
       rotate_left)
    | exact Keeps.rfl
    | refine Keeps.iteO ?_ ?_
    | refine Keeps.ite ?_ ?_
    | refine Keeps.ok ?_
    | refine Keeps.ite1 ?_ ?_
    | (rename (_ : State × _) = _ => heq
       refine Keeps.pair heq ?_ ?_ <;> clear heq
       rotate_left
       intro hy
       rotate_left)
    | apply Keeps.next ?_ (State.ringTake_keeps _ _ _ _) ?_
    | apply Keeps.next ?_ (State.takePublish_keeps _ _) ?_
    | apply Keeps.next ?_ (State.free_keeps _) ?_
    | apply Keeps.next ?_ (State.sendPly_keeps _ _ _ _) ?_
    | split
    | decide
    | dsimp -zeta only

theorem State.takeBridgedPublish_keeps (s : State) (a1 : Bytes) :
    Keeps [.ring, .host, .recorder] s (State.takeBridgedPublish s a1) := by
  unfold State.takeBridgedPublish
  with_reducible repeat' first
    | assumption
    | (extract_lets +onlyGivenNames z
       refine Keeps.let z ?_ ?_
       subst z
       rotate_left
       clear_value z
       revert z
       intro y hy
       rotate_left)
    | (extract_lets +onlyGivenNames z; revert z; intro y)
    | exact Keeps.rfl
    | refine Keeps.ite ?_ ?_
    | apply Keeps.next ?_ (State.ringCount_keeps _ _) ?_
    | apply Keeps.next ?_ (State.takePublish_keeps _ _) ?_
    | split
    | refine Keeps.upd ?_ List.prefix_rfl (Nat.le_refl _) id (fun p hp => by cases p <;> first | rfl | exact absurd (by decide) hp)
    | decide
    | dsimp -zeta only

theorem execPublicationLaunch_keeps (s : State) :
    Keeps [.ring] s (settle s (execPublicationLaunch s)) := by
  unfold execPublicationLaunch
  with_reducible repeat' first
    | assumption
    | (extract_lets +onlyGivenNames z
       refine Keeps.let z ?_ ?_
       subst z
       rotate_left
       clear_value z
       revert z
       intro y hy
       rotate_left)
    | (extract_lets +onlyGivenNames z; revert z; intro y)
    | exact Keeps.rfl
    | refine Keeps.iteO ?_ ?_
    | refine Keeps.ite ?_ ?_
    | refine Keeps.ok ?_
    | refine Keeps.foldl _ _ ?_ ?_
    | apply Keeps.next ?_ (State.sendRing_keeps _ _ _ _ _ _ _ _) ?_
    | refine Keeps.upd ?_ List.prefix_rfl (Nat.le_refl _) id (fun p hp => by cases p <;> first | rfl | exact absurd (by decide) hp)
    | decide
    | intro y
    | dsimp -zeta only

theorem State.dropMarks_keeps (s : State) (a1 : Bool) :
    Keeps [.time] s (State.dropMarks s a1) := by
  unfold State.dropMarks
  with_reducible repeat' first
    | assumption
    | (extract_lets +onlyGivenNames z; revert z; intro y)
    | exact Keeps.rfl
    | refine Keeps.ite ?_ ?_
    | refine Keeps.upd ?_ List.prefix_rfl (Nat.le_refl _) id (fun p hp => by cases p <;> first | rfl | exact absurd (by decide) hp)
    | decide
    | dsimp -zeta only

theorem State.closeBypass_keeps (s : State) :
    Keeps [.ring, .time, .ply, .host, .recorder] s (State.closeBypass s) := by
  unfold State.closeBypass
  with_reducible repeat' first
    | assumption
    | (extract_lets +onlyGivenNames z
       refine Keeps.let z ?_ ?_
       subst z
       rotate_left
       clear_value z
       revert z
       intro y hy
       rotate_left)
    | (extract_lets +onlyGivenNames z; revert z; intro y)
    | exact Keeps.rfl
    | refine Keeps.ite ?_ ?_
    | apply Keeps.next ?_ (State.wr_keeps _ _ _) ?_
    | apply Keeps.next ?_ (State.ringEvt_keeps _ _) ?_
    | apply Keeps.next ?_ (State.setCal_keeps _ _) ?_
    | apply Keeps.next ?_ (State.dropMarks_keeps _ _) ?_
    | refine Keeps.upd ?_ List.prefix_rfl (Nat.le_refl _) id (fun p hp => by cases p <;> first | rfl | exact absurd (by decide) hp)
    | decide
    | dsimp -zeta only

theorem State.checkBypass_keeps (s : State) :
    Keeps [.ring, .time, .ply, .host, .recorder] s (State.checkBypass s) := by
  unfold State.checkBypass
  with_reducible repeat' first
    | assumption
    | exact Keeps.rfl
    | refine Keeps.ite ?_ ?_
    | apply Keeps.next ?_ (State.closeBypass_keeps _) ?_
    | decide
    | dsimp -zeta only

theorem execBypassOpen_keeps (s : State) :
    Keeps [.ring, .time, .ply, .host, .recorder] s (settle s (execBypassOpen s)) := by
  unfold execBypassOpen
  with_reducible repeat' first
    | assumption
    | (extract_lets +onlyGivenNames z
       refine Keeps.let z ?_ ?_
       subst z
       rotate_left
       clear_value z
       revert z
       intro y hy
       rotate_left)
    | (extract_lets +onlyGivenNames z; revert z; intro y)
    | exact Keeps.rfl
    | refine Keeps.iteO ?_ ?_
    | refine Keeps.ite ?_ ?_
    | refine Keeps.ok ?_
    | apply Keeps.next ?_ (State.wr_keeps _ _ _) ?_
    | apply Keeps.next ?_ (State.setCal_keeps _ _) ?_
    | apply Keeps.next ?_ (State.ringEvt_keeps _ _) ?_
    | refine Keeps.upd ?_ List.prefix_rfl (Nat.le_refl _) id (fun p hp => by cases p <;> first | rfl | exact absurd (by decide) hp)
    | decide
    | dsimp -zeta only

theorem execRingLinkChange_keeps (a0 : Bool) (a1 : LinkLevel) (s : State) :
    Keeps [.ring, .time, .host, .recorder] s (settle s (execRingLinkChange a0 a1 s)) := by
  unfold execRingLinkChange
  with_reducible repeat' first
    | assumption
    | (extract_lets +onlyGivenNames z
       refine Keeps.let z ?_ ?_
       subst z
       rotate_left
       clear_value z
       revert z
       intro y hy
       rotate_left)
    | (extract_lets +onlyGivenNames z; revert z; intro y)
    | exact Keeps.rfl
    | refine Keeps.iteO ?_ ?_
    | refine Keeps.ite ?_ ?_
    | refine Keeps.ok ?_
    | apply Keeps.next ?_ (State.ringEvt_keeps _ _) ?_
    | apply Keeps.next ?_ (State.dropMarks_keeps _ _) ?_
    | apply Keeps.next ?_ (State.wr_keeps _ _ _) ?_
    | split
    | refine Keeps.upd ?_ List.prefix_rfl (Nat.le_refl _) id (fun p hp => by cases p <;> first | rfl | exact absurd (by decide) hp)
    | decide
    | dsimp -zeta only

theorem State.startRung_keeps (s : State) (a1 : Nat) :
    Keeps [] s (State.startRung s a1) := by
  unfold State.startRung
  with_reducible repeat' first
    | assumption
    | (extract_lets +onlyGivenNames z
       refine Keeps.let z ?_ ?_
       subst z
       rotate_left
       clear_value z
       revert z
       intro y hy
       rotate_left)
    | (extract_lets +onlyGivenNames z; revert z; intro y)
    | exact Keeps.rfl
    | refine Keeps.ite ?_ ?_
    | apply Keeps.next ?_ (State.wr_keeps _ _ _) ?_
    | decide
    | dsimp -zeta only

theorem State.wakeTo_keeps (s : State) (a1 : Nat) (a2 : Nat) :
    Keeps [.host, .recorder] s (State.wakeTo s a1 a2) := by
  unfold State.wakeTo
  with_reducible repeat' first
    | assumption
    | exact Keeps.rfl
    | apply Keeps.next ?_ (State.startRung_keeps _ _) ?_
    | apply Keeps.next ?_ (State.pwrEvt_keeps _ _) ?_
    | apply Keeps.next ?_ (State.wr_keeps _ _ _) ?_
    | decide
    | dsimp -zeta only

theorem State.wake_keeps (s : State) (a1 : Nat) :
    Keeps [.host, .recorder, .pwr] s (State.wake s a1) := by
  unfold State.wake
  with_reducible repeat' first
    | assumption
    | (extract_lets +onlyGivenNames z; revert z; intro y)
    | exact Keeps.rfl
    | refine Keeps.ite ?_ ?_
    | apply Keeps.next ?_ (State.wakeTo_keeps _ _ _) ?_
    | refine Keeps.upd ?_ List.prefix_rfl (Nat.le_refl _) id (fun p hp => by cases p <;> first | rfl | exact absurd (by decide) hp)
    | decide
    | dsimp -zeta only

theorem State.setHop_keeps (s : State) (a1 : Nat) (a2 : RingHop) :
    Keeps [.time] s (State.setHop s a1 a2) := by
  unfold State.setHop
  with_reducible repeat' first
    | assumption
    | (extract_lets +onlyGivenNames z; revert z; intro y)
    | exact Keeps.rfl
    | refine Keeps.upd ?_ List.prefix_rfl (Nat.le_refl _) id (fun p hp => by cases p <;> first | rfl | exact absurd (by decide) hp)
    | decide
    | dsimp -zeta only

theorem State.calRegs_keeps (s : State) :
    Keeps [.time, .ply, .host, .recorder] s (State.calRegs s) := by
  unfold State.calRegs
  with_reducible repeat' first
    | assumption
    | (extract_lets +onlyGivenNames z
       refine Keeps.let z ?_ ?_
       subst z
       rotate_left
       clear_value z
       revert z
       intro y hy
       rotate_left)
    | (extract_lets +onlyGivenNames z; revert z; intro y)
    | exact Keeps.rfl
    | refine Keeps.ite ?_ ?_
    | refine Keeps.foldl _ _ ?_ ?_
    | apply Keeps.next ?_ (State.wr_keeps _ _ _) ?_
    | apply Keeps.next ?_ (State.setCal_keeps _ _) ?_
    | refine Keeps.upd ?_ List.prefix_rfl (Nat.le_refl _) id (fun p hp => by cases p <;> first | rfl | exact absurd (by decide) hp)
    | decide
    | intro y
    | dsimp -zeta only

theorem State.noteReport_keeps (s : State) (a1 : Nat) (a2 : Bytes) :
    Keeps [.time, .ply, .host, .recorder] s (State.noteReport s a1 a2) := by
  unfold State.noteReport
  with_reducible repeat' first
    | assumption
    | (extract_lets +onlyGivenNames z
       refine Keeps.let z ?_ ?_
       subst z
       rotate_left
       clear_value z
       revert z
       intro y hy
       rotate_left)
    | (extract_lets +onlyGivenNames z; revert z; intro y)
    | exact Keeps.rfl
    | refine Keeps.ite ?_ ?_
    | apply Keeps.next ?_ (State.setHop_keeps _ _ _) ?_
    | apply Keeps.next ?_ (State.calRegs_keeps _) ?_
    | refine Keeps.upd ?_ List.prefix_rfl (Nat.le_refl _) id (fun p hp => by cases p <;> first | rfl | exact absurd (by decide) hp)
    | decide
    | dsimp -zeta only

theorem execHopMarkSend_keeps (a0 : Bool) (a1 : Fin 820) (s : State) :
    Keeps [.time] s (settle s (execHopMarkSend a0 a1 s)) := by
  unfold execHopMarkSend
  with_reducible repeat' first
    | assumption
    | (extract_lets +onlyGivenNames z
       refine Keeps.let z ?_ ?_
       subst z
       rotate_left
       clear_value z
       revert z
       intro y hy
       rotate_left)
    | (extract_lets +onlyGivenNames z; revert z; intro y)
    | exact Keeps.rfl
    | refine Keeps.iteO ?_ ?_
    | refine Keeps.ite ?_ ?_
    | refine Keeps.ok ?_
    | apply Keeps.next ?_ (State.emit_keeps _ _) ?_
    | refine Keeps.upd ?_ List.prefix_rfl (Nat.le_refl _) id (fun p hp => by cases p <;> first | rfl | exact absurd (by decide) hp)
    | decide
    | dsimp -zeta only

theorem execHopMarkReceived_keeps (a0 : Bool) (a1 : BitVec 8) (a2 : Fin 820) (s : State) :
    Keeps [.time] s (settle s (execHopMarkReceived a0 a1 a2 s)) := by
  unfold execHopMarkReceived
  with_reducible repeat' first
    | assumption
    | (extract_lets +onlyGivenNames z; revert z; intro y)
    | exact Keeps.rfl
    | refine Keeps.iteO ?_ ?_
    | refine Keeps.ite ?_ ?_
    | refine Keeps.ok ?_
    | refine Keeps.upd ?_ List.prefix_rfl (Nat.le_refl _) id (fun p hp => by cases p <;> first | rfl | exact absurd (by decide) hp)
    | decide
    | dsimp -zeta only

theorem execHopReportSend_keeps (s : State) :
    Keeps [.ring, .time, .ply, .host, .recorder] s (settle s (execHopReportSend s)) := by
  unfold execHopReportSend
  with_reducible repeat' first
    | assumption
    | (extract_lets +onlyGivenNames z
       refine Keeps.let z ?_ ?_
       subst z
       rotate_left
       clear_value z
       revert z
       intro y hy
       rotate_left)
    | (extract_lets +onlyGivenNames z; revert z; intro y)
    | exact Keeps.rfl
    | refine Keeps.iteO ?_ ?_
    | refine Keeps.ite ?_ ?_
    | refine Keeps.ok ?_
    | apply Keeps.next ?_ (State.sendRing_keeps _ _ _ _ _ _ _ _) ?_
    | apply Keeps.next ?_ (State.noteReport_keeps _ _ _) ?_
    | decide
    | dsimp -zeta only

theorem execHopReportReceived_keeps (a0 : Bool) (a1 : Bool) (a2 : Bytes) (s : State) :
    Keeps [.ring, .time, .ply, .host, .recorder] s (settle s (execHopReportReceived a0 a1 a2 s)) := by
  unfold execHopReportReceived
  with_reducible repeat' first
    | assumption
    | (extract_lets +onlyGivenNames z; revert z; intro y)
    | exact Keeps.rfl
    | refine Keeps.iteO ?_ ?_
    | refine Keeps.ite ?_ ?_
    | refine Keeps.ok ?_
    | refine Keeps.ite1 ?_ ?_
    | (rename (_ : State × _) = _ => heq
       refine Keeps.pair heq ?_ ?_ <;> clear heq
       rotate_left
       intro hy
       rotate_left)
    | apply Keeps.next ?_ (State.ringTake_keeps _ _ _ _) ?_
    | apply Keeps.next ?_ (State.noteReport_keeps _ _ _) ?_
    | split
    | decide
    | dsimp -zeta only

theorem execHopEntryExpired_keeps (a0 : Fin 16) (a1 : Bool) (a2 : Bool) (s : State) :
    Keeps [.time] s (settle s (execHopEntryExpired a0 a1 a2 s)) := by
  unfold execHopEntryExpired
  with_reducible repeat' first
    | assumption
    | (extract_lets +onlyGivenNames z; revert z; intro y)
    | exact Keeps.rfl
    | refine Keeps.ok ?_
    | apply Keeps.next ?_ (State.setHop_keeps _ _ _) ?_
    | split
    | decide
    | dsimp -zeta only

theorem execRefclkLost_keeps (s : State) :
    Keeps [.time, .ply, .host, .recorder] s (settle s (execRefclkLost s)) := by
  unfold execRefclkLost
  with_reducible repeat' first
    | assumption
    | (extract_lets +onlyGivenNames z
       refine Keeps.let z ?_ ?_
       subst z
       rotate_left
       clear_value z
       revert z
       intro y hy
       rotate_left)
    | (extract_lets +onlyGivenNames z; revert z; intro y)
    | exact Keeps.rfl
    | refine Keeps.iteO ?_ ?_
    | refine Keeps.ite ?_ ?_
    | refine Keeps.ok ?_
    | apply Keeps.next ?_ (State.wr_keeps _ _ _) ?_
    | apply Keeps.next ?_ (State.toHoldover_keeps _ _) ?_
    | apply Keeps.next ?_ (State.timeEvt_keeps _ _) ?_
    | refine Keeps.upd ?_ List.prefix_rfl (Nat.le_refl _) id (fun p hp => by cases p <;> first | rfl | exact absurd (by decide) hp)
    | decide
    | dsimp -zeta only

theorem execRefclkRestored_keeps (s : State) :
    Keeps [.time] s (settle s (execRefclkRestored s)) := by
  unfold execRefclkRestored
  with_reducible repeat' first
    | assumption
    | (extract_lets +onlyGivenNames z
       refine Keeps.let z ?_ ?_
       subst z
       rotate_left
       clear_value z
       revert z
       intro y hy
       rotate_left)
    | (extract_lets +onlyGivenNames z; revert z; intro y)
    | exact Keeps.rfl
    | refine Keeps.iteO ?_ ?_
    | refine Keeps.ite ?_ ?_
    | refine Keeps.ok ?_
    | apply Keeps.next ?_ (State.wr_keeps _ _ _) ?_
    | refine Keeps.upd ?_ List.prefix_rfl (Nat.le_refl _) id (fun p hp => by cases p <;> first | rfl | exact absurd (by decide) hp)
    | decide
    | dsimp -zeta only

theorem State.setIncRegs_keeps (s : State) (a1 : Domain) (a2 : Nat) :
    Keeps [] s (State.setIncRegs s a1 a2) := by
  unfold State.setIncRegs
  with_reducible repeat' first
    | assumption
    | exact Keeps.rfl
    | apply Keeps.next ?_ (State.wr_keeps _ _ _) ?_
    | decide
    | dsimp -zeta only

theorem State.sendDomain_keeps (s : State) (a1 : Domain) :
    Keeps [.ring] s (State.sendDomain s a1) := by
  unfold State.sendDomain
  with_reducible repeat' first
    | assumption
    | (extract_lets +onlyGivenNames z
       refine Keeps.let z ?_ ?_
       subst z
       rotate_left
       clear_value z
       revert z
       intro y hy
       rotate_left)
    | (extract_lets +onlyGivenNames z
       refine Keeps.let1 z ?_ ?_
       subst z
       rotate_left
       clear_value z
       revert z
       rintro ⟨y, y1⟩ hy
       rotate_left)
    | (extract_lets +onlyGivenNames z; revert z; intro y)
    | exact Keeps.rfl
    | refine Keeps.ite ?_ ?_
    | refine Keeps.ite1 ?_ ?_
    | (rename (_ : State × _) = _ => heq
       refine Keeps.pair heq ?_ ?_ <;> clear heq
       rotate_left
       intro hy
       rotate_left)
    | apply Keeps.next ?_ (State.free_keeps _) ?_
    | apply Keeps.next ?_ (State.sendRing_keeps _ _ _ _ _ _ _ _) ?_
    | decide
    | dsimp -zeta only

theorem execMasterElection_keeps (a0 : Domain) (s : State) :
    Keeps [.time, .ply, .host, .recorder] s (settle s (execMasterElection a0 s)) := by
  unfold execMasterElection
  with_reducible repeat' first
    | assumption
    | (extract_lets +onlyGivenNames z
       refine Keeps.let z ?_ ?_
       subst z
       rotate_left
       clear_value z
       revert z
       intro y hy
       rotate_left)
    | (extract_lets +onlyGivenNames z; revert z; intro y)
    | exact Keeps.rfl
    | refine Keeps.iteO ?_ ?_
    | refine Keeps.ite ?_ ?_
    | refine Keeps.ok ?_
    | apply Keeps.next ?_ (State.setRole_keeps _ _ _) ?_
    | apply Keeps.next ?_ (State.setDom_keeps _ _ _) ?_
    | apply Keeps.next ?_ (State.wr_keeps _ _ _) ?_
    | apply Keeps.next ?_ (State.setDomState_keeps _ _ _) ?_
    | decide
    | dsimp -zeta only

theorem execTimeRestart_keeps (a0 : Domain) (s : State) :
    Keeps [.time] s (settle s (execTimeRestart a0 s)) := by
  unfold execTimeRestart
  with_reducible repeat' first
    | assumption
    | (extract_lets +onlyGivenNames z; revert z; intro y)
    | exact Keeps.rfl
    | refine Keeps.iteO ?_ ?_
    | refine Keeps.ite ?_ ?_
    | refine Keeps.ok ?_
    | apply Keeps.next ?_ (State.setDom_keeps _ _ _) ?_
    | decide
    | dsimp -zeta only

theorem execDomainStart_keeps (a0 : Domain) (s : State) :
    Keeps [.ring, .time, .ply, .host, .recorder] s (settle s (execDomainStart a0 s)) := by
  unfold execDomainStart
  with_reducible repeat' first
    | assumption
    | (extract_lets +onlyGivenNames z
       refine Keeps.let z ?_ ?_
       subst z
       rotate_left
       clear_value z
       revert z
       intro y hy
       rotate_left)
    | (extract_lets +onlyGivenNames z; revert z; intro y)
    | exact Keeps.rfl
    | refine Keeps.iteO ?_ ?_
    | refine Keeps.ite ?_ ?_
    | refine Keeps.ok ?_
    | apply Keeps.next ?_ (State.setDom_keeps _ _ _) ?_
    | apply Keeps.next ?_ (State.setGen_keeps _ _ _) ?_
    | apply Keeps.next ?_ (State.wr_keeps _ _ _) ?_
    | apply Keeps.next ?_ (State.sendDomain_keeps _ _) ?_
    | apply Keeps.next ?_ (State.setDomState_keeps _ _ _) ?_
    | decide
    | dsimp -zeta only

theorem execTimeSnap_keeps (s : State) :
    Keeps [] s (settle s (execTimeSnap s)) := by
  unfold execTimeSnap
  with_reducible repeat' first
    | assumption
    | (extract_lets +onlyGivenNames z
       refine Keeps.let z ?_ ?_
       subst z
       rotate_left
       clear_value z
       revert z
       intro y hy
       rotate_left)
    | (extract_lets +onlyGivenNames z; revert z; intro y)
    | exact Keeps.rfl
    | refine Keeps.iteO ?_ ?_
    | refine Keeps.ite ?_ ?_
    | refine Keeps.ok ?_
    | refine Keeps.foldl _ _ ?_ ?_
    | apply Keeps.next ?_ (State.wr_keeps _ _ _) ?_
    | decide
    | intro y
    | dsimp -zeta only

theorem execIncWrite_keeps (a0 : Domain) (a1 : Word32) (s : State) :
    Keeps [.ring, .time, .host, .recorder] s (settle s (execIncWrite a0 a1 s)) := by
  unfold execIncWrite
  with_reducible repeat' first
    | assumption
    | (extract_lets +onlyGivenNames z
       refine Keeps.let z ?_ ?_
       subst z
       rotate_left
       clear_value z
       revert z
       intro y hy
       rotate_left)
    | (extract_lets +onlyGivenNames z; revert z; intro y)
    | exact Keeps.rfl
    | refine Keeps.iteO ?_ ?_
    | refine Keeps.ite ?_ ?_
    | refine Keeps.ok ?_
    | apply Keeps.next ?_ (State.timeEvt_keeps _ _) ?_
    | apply Keeps.next ?_ (State.wr_keeps _ _ _) ?_
    | apply Keeps.next ?_ (State.setDom_keeps _ _ _) ?_
    | apply Keeps.next ?_ (State.sendDomain_keeps _ _) ?_
    | decide
    | dsimp -zeta only

theorem execSlewTicksWrite_keeps (a0 : Domain) (a1 : Word32) (s : State) :
    Keeps [.ring, .time, .host, .recorder] s (settle s (execSlewTicksWrite a0 a1 s)) := by
  unfold execSlewTicksWrite
  with_reducible repeat' first
    | assumption
    | (extract_lets +onlyGivenNames z; revert z; intro y)
    | exact Keeps.rfl
    | refine Keeps.iteO ?_ ?_
    | refine Keeps.ite ?_ ?_
    | refine Keeps.ok ?_
    | apply Keeps.next ?_ (State.sendDomain_keeps _ _) ?_
    | apply Keeps.next ?_ (State.setDom_keeps _ _ _) ?_
    | apply Keeps.next ?_ (State.timeEvt_keeps _ _) ?_
    | decide
    | dsimp -zeta only

theorem State.incChanged_keeps (s : State) (a1 : Domain) :
    Keeps [.ring] s (State.incChanged s a1) := by
  unfold State.incChanged
  with_reducible repeat' first
    | assumption
    | exact Keeps.rfl
    | refine Keeps.ite ?_ ?_
    | apply Keeps.next ?_ (State.sendDomain_keeps _ _) ?_
    | apply Keeps.next ?_ (State.setIncRegs_keeps _ _ _) ?_
    | decide
    | dsimp -zeta only

theorem execIncApply_keeps (a0 : Domain) (s : State) :
    Keeps [.ring, .time] s (settle s (execIncApply a0 s)) := by
  unfold execIncApply
  with_reducible repeat' first
    | assumption
    | exact Keeps.rfl
    | refine Keeps.iteO ?_ ?_
    | refine Keeps.ite ?_ ?_
    | refine Keeps.ok ?_
    | apply Keeps.next ?_ (State.incChanged_keeps _ _) ?_
    | apply Keeps.next ?_ (State.setDom_keeps _ _ _) ?_
    | split
    | decide
    | dsimp -zeta only

theorem execSlewEnd_keeps (a0 : Domain) (s : State) :
    Keeps [.ring, .time] s (settle s (execSlewEnd a0 s)) := by
  unfold execSlewEnd
  with_reducible repeat' first
    | assumption
    | (extract_lets +onlyGivenNames z; revert z; intro y)
    | exact Keeps.rfl
    | refine Keeps.iteO ?_ ?_
    | refine Keeps.ite ?_ ?_
    | refine Keeps.ok ?_
    | apply Keeps.next ?_ (State.incChanged_keeps _ _) ?_
    | apply Keeps.next ?_ (State.setDom_keeps _ _ _) ?_
    | decide
    | dsimp -zeta only

theorem execPpsEdge_keeps (a0 : Domain) (a1 : Fin 820) (s : State) :
    Keeps [.time, .host, .recorder] s (settle s (execPpsEdge a0 a1 s)) := by
  unfold execPpsEdge
  with_reducible repeat' first
    | assumption
    | (extract_lets +onlyGivenNames z
       refine Keeps.let z ?_ ?_
       subst z
       rotate_left
       clear_value z
       revert z
       intro y hy
       rotate_left)
    | (extract_lets +onlyGivenNames z; revert z; intro y)
    | exact Keeps.rfl
    | refine Keeps.iteO ?_ ?_
    | refine Keeps.ite ?_ ?_
    | refine Keeps.ok ?_
    | refine Keeps.foldl _ _ ?_ ?_
    | apply Keeps.next ?_ (State.wr_keeps _ _ _) ?_
    | apply Keeps.next ?_ (State.setDom_keeps _ _ _) ?_
    | apply Keeps.next ?_ (State.timeEvt_keeps _ _) ?_
    | split
    | decide
    | intro y
    | dsimp -zeta only

theorem execPpsLost_keeps (a0 : Domain) (s : State) :
    Keeps [.host, .recorder] s (settle s (execPpsLost a0 s)) := by
  unfold execPpsLost
  with_reducible repeat' first
    | assumption
    | (extract_lets +onlyGivenNames z; revert z; intro y)
    | exact Keeps.rfl
    | refine Keeps.iteO ?_ ?_
    | refine Keeps.ite ?_ ?_
    | refine Keeps.ok ?_
    | apply Keeps.next ?_ (State.timeEvt_keeps _ _) ?_
    | apply Keeps.next ?_ (State.wr_keeps _ _ _) ?_
    | decide
    | dsimp -zeta only

theorem execDomainFrameSend_keeps (a0 : Domain) (s : State) :
    Keeps [.ring] s (settle s (execDomainFrameSend a0 s)) := by
  unfold execDomainFrameSend
  with_reducible repeat' first
    | assumption
    | exact Keeps.rfl
    | refine Keeps.iteO ?_ ?_
    | refine Keeps.ite ?_ ?_
    | refine Keeps.ok ?_
    | apply Keeps.next ?_ (State.sendDomain_keeps _ _) ?_
    | decide
    | dsimp -zeta only

theorem State.followFrame_keeps (s : State) (a1 : Domain) (a2 : Bytes) :
    Keeps [.time, .ply, .host, .recorder] s (State.followFrame s a1 a2) := by
  unfold State.followFrame
  with_reducible repeat' first
    | assumption
    | (extract_lets +onlyGivenNames z
       refine Keeps.let z ?_ ?_
       subst z
       rotate_left
       clear_value z
       revert z
       intro y hy
       rotate_left)
    | (extract_lets +onlyGivenNames z; revert z; intro y)
    | exact Keeps.rfl
    | refine Keeps.ite ?_ ?_
    | apply Keeps.next ?_ (State.setGen_keeps _ _ _) ?_
    | apply Keeps.next ?_ (State.wr_keeps _ _ _) ?_
    | apply Keeps.next ?_ (State.setIncRegs_keeps _ _ _) ?_
    | apply Keeps.next ?_ (State.setDomState_keeps _ _ _) ?_
    | apply Keeps.next ?_ (State.setDom_keeps _ _ _) ?_
    | split
    | decide
    | dsimp -zeta only

theorem execDomainFrameReceived_keeps (a0 : Bool) (a1 : Bool) (a2 : Bytes) (s : State) :
    Keeps [.ring, .time, .ply, .host, .recorder] s (settle s (execDomainFrameReceived a0 a1 a2 s)) := by
  unfold execDomainFrameReceived
  with_reducible repeat' first
    | assumption
    | (extract_lets +onlyGivenNames z
       refine Keeps.let z ?_ ?_
       subst z
       rotate_left
       clear_value z
       revert z
       intro y hy
       rotate_left)
    | (extract_lets +onlyGivenNames z; revert z; intro y)
    | exact Keeps.rfl
    | refine Keeps.iteO ?_ ?_
    | refine Keeps.ite ?_ ?_
    | refine Keeps.ok ?_
    | refine Keeps.ite1 ?_ ?_
    | (rename (_ : State × _) = _ => heq
       refine Keeps.pair heq ?_ ?_ <;> clear heq
       rotate_left
       intro hy
       rotate_left)
    | apply Keeps.next ?_ (State.ringTake_keeps _ _ _ _) ?_
    | apply Keeps.next ?_ (State.timeEvt_keeps _ _) ?_
    | apply Keeps.next ?_ (State.setRole_keeps _ _ _) ?_
    | apply Keeps.next ?_ (State.toHoldover_keeps _ _) ?_
    | apply Keeps.next ?_ (State.followFrame_keeps _ _ _) ?_
    | split
    | decide
    | dsimp -zeta only

theorem execDomainHoldover_keeps (a0 : Domain) (s : State) :
    Keeps [.time, .ply, .host, .recorder] s (settle s (execDomainHoldover a0 s)) := by
  unfold execDomainHoldover
  with_reducible repeat' first
    | assumption
    | exact Keeps.rfl
    | refine Keeps.iteO ?_ ?_
    | refine Keeps.ite ?_ ?_
    | refine Keeps.ok ?_
    | apply Keeps.next ?_ (State.toHoldover_keeps _ _) ?_
    | decide
    | dsimp -zeta only

theorem execHoldExpired_keeps (a0 : Domain) (s : State) :
    Keeps [.time, .ply, .host, .recorder] s (settle s (execHoldExpired a0 s)) := by
  unfold execHoldExpired
  with_reducible repeat' first
    | assumption
    | (extract_lets +onlyGivenNames z; revert z; intro y)
    | exact Keeps.rfl
    | refine Keeps.iteO ?_ ?_
    | refine Keeps.ite ?_ ?_
    | refine Keeps.ok ?_
    | apply Keeps.next ?_ (State.setDomState_keeps _ _ _) ?_
    | apply Keeps.next ?_ (State.setDom_keeps _ _ _) ?_
    | decide
    | dsimp -zeta only

theorem execWorkingTimeStart_keeps (a0 : Option (Nat × Int)) (s : State) :
    Keeps [.time, .ply, .host, .recorder] s (settle s (execWorkingTimeStart a0 s)) := by
  unfold execWorkingTimeStart
  with_reducible repeat' first
    | assumption
    | (extract_lets +onlyGivenNames z
       refine Keeps.let z ?_ ?_
       subst z
       rotate_left
       clear_value z
       revert z
       intro y hy
       rotate_left)
    | (extract_lets +onlyGivenNames z; revert z; intro y)
    | exact Keeps.rfl
    | refine Keeps.iteO ?_ ?_
    | refine Keeps.ite ?_ ?_
    | refine Keeps.ok ?_
    | apply Keeps.next ?_ (State.wrb_keeps _ _ _) ?_
    | apply Keeps.next ?_ (State.wr_keeps _ _ _) ?_
    | apply Keeps.next ?_ (State.captureO_keeps _) ?_
    | split
    | refine Keeps.upd ?_ List.prefix_rfl (Nat.le_refl _) id (fun p hp => by cases p <;> first | rfl | exact absurd (by decide) hp)
    | decide
    | dsimp -zeta only

theorem execSlewDone_keeps (s : State) :
    Keeps [.time, .host, .recorder] s (settle s (execSlewDone s)) := by
  unfold execSlewDone
  with_reducible repeat' first
    | assumption
    | (extract_lets +onlyGivenNames z
       refine Keeps.let z ?_ ?_
       subst z
       rotate_left
       clear_value z
       revert z
       intro y hy
       rotate_left)
    | (extract_lets +onlyGivenNames z; revert z; intro y)
    | exact Keeps.rfl
    | refine Keeps.iteO ?_ ?_
    | refine Keeps.ite ?_ ?_
    | refine Keeps.ok ?_
    | apply Keeps.next ?_ (State.timeEvt_keeps _ _) ?_
    | refine Keeps.upd ?_ List.prefix_rfl (Nat.le_refl _) id (fun p hp => by cases p <;> first | rfl | exact absurd (by decide) hp)
    | decide
    | dsimp -zeta only

theorem State.switchDomain_keeps (s : State) :
    Keeps [.time, .ply, .host, .recorder] s (State.switchDomain s) := by
  unfold State.switchDomain
  with_reducible repeat' first
    | assumption
    | (extract_lets +onlyGivenNames z
       refine Keeps.let z ?_ ?_
       subst z
       rotate_left
       clear_value z
       revert z
       intro y hy
       rotate_left)
    | (extract_lets +onlyGivenNames z; revert z; intro y)
    | exact Keeps.rfl
    | apply Keeps.next ?_ (State.wrb_keeps _ _ _) ?_
    | apply Keeps.next ?_ (State.workRegs_keeps _) ?_
    | apply Keeps.next ?_ (State.captureO_keeps _) ?_
    | refine Keeps.upd ?_ List.prefix_rfl (Nat.le_refl _) id (fun p hp => by cases p <;> first | rfl | exact absurd (by decide) hp)
    | decide
    | dsimp -zeta only

theorem execDomainSwitch_keeps (s : State) :
    Keeps [.time, .ply, .host, .recorder] s (settle s (execDomainSwitch s)) := by
  unfold execDomainSwitch
  with_reducible repeat' first
    | assumption
    | (extract_lets +onlyGivenNames z
       refine Keeps.let z ?_ ?_
       subst z
       rotate_left
       clear_value z
       revert z
       intro y hy
       rotate_left)
    | (extract_lets +onlyGivenNames z; revert z; intro y)
    | exact Keeps.rfl
    | refine Keeps.iteO ?_ ?_
    | refine Keeps.ite ?_ ?_
    | refine Keeps.ok ?_
    | apply Keeps.next ?_ (State.captureO_keeps _) ?_
    | apply Keeps.next ?_ (State.switchDomain_keeps _) ?_
    | split
    | refine Keeps.upd ?_ List.prefix_rfl (Nat.le_refl _) id (fun p hp => by cases p <;> first | rfl | exact absurd (by decide) hp)
    | decide
    | dsimp -zeta only

theorem execTimeXchgSend_keeps (s : State) :
    Keeps [.time] s (settle s (execTimeXchgSend s)) := by
  unfold execTimeXchgSend
  with_reducible repeat' first
    | assumption
    | (extract_lets +onlyGivenNames z
       refine Keeps.let z ?_ ?_
       subst z
       rotate_left
       clear_value z
       revert z
       intro y hy
       rotate_left)
    | (extract_lets +onlyGivenNames z; revert z; intro y)
    | exact Keeps.rfl
    | refine Keeps.iteO ?_ ?_
    | refine Keeps.ite ?_ ?_
    | refine Keeps.ok ?_
    | apply Keeps.next ?_ (State.emit_keeps _ _) ?_
    | refine Keeps.upd ?_ List.prefix_rfl (Nat.le_refl _) id (fun p hp => by cases p <;> first | rfl | exact absurd (by decide) hp)
    | decide
    | dsimp -zeta only

theorem execTimeXchgReceived_keeps (a0 : Int) (s : State) :
    Keeps [.time, .host, .recorder] s (settle s (execTimeXchgReceived a0 s)) := by
  unfold execTimeXchgReceived
  with_reducible repeat' first
    | assumption
    | (extract_lets +onlyGivenNames z
       refine Keeps.let z ?_ ?_
       subst z
       rotate_left
       clear_value z
       revert z
       intro y hy
       rotate_left)
    | (extract_lets +onlyGivenNames z; revert z; intro y)
    | exact Keeps.rfl
    | refine Keeps.iteO ?_ ?_
    | refine Keeps.ite ?_ ?_
    | refine Keeps.ok ?_
    | apply Keeps.next ?_ (State.wr_keeps _ _ _) ?_
    | apply Keeps.next ?_ (State.timeEvt_keeps _ _) ?_
    | refine Keeps.upd ?_ List.prefix_rfl (Nat.le_refl _) id (fun p hp => by cases p <;> first | rfl | exact absurd (by decide) hp)
    | decide
    | dsimp -zeta only

theorem execPlyTimeDiffExceeded_keeps (s : State) :
    Keeps [.hop, .skein, .trace, .time, .ply, .rows, .brake, .host, .recorder] s (settle s (execPlyTimeDiffExceeded s)) := by
  unfold execPlyTimeDiffExceeded
  with_reducible repeat' first
    | assumption
    | (extract_lets +onlyGivenNames z; revert z; intro y)
    | exact Keeps.rfl
    | refine Keeps.iteO ?_ ?_
    | refine Keeps.ite ?_ ?_
    | refine Keeps.ok ?_
    | apply Keeps.next ?_ (State.leaveTracking_keeps _ _) ?_
    | decide
    | dsimp -zeta only

theorem execPpsOutPulse_keeps (s : State) :
    Keeps [.time] s (settle s (execPpsOutPulse s)) := by
  unfold execPpsOutPulse
  with_reducible repeat' first
    | assumption
    | (extract_lets +onlyGivenNames z
       refine Keeps.let z ?_ ?_
       subst z
       rotate_left
       clear_value z
       revert z
       intro y hy
       rotate_left)
    | (extract_lets +onlyGivenNames z; revert z; intro y)
    | exact Keeps.rfl
    | refine Keeps.iteO ?_ ?_
    | refine Keeps.ite ?_ ?_
    | refine Keeps.ok ?_
    | apply Keeps.next ?_ (State.emit_keeps _ _) ?_
    | split
    | refine Keeps.upd ?_ List.prefix_rfl (Nat.le_refl _) id (fun p hp => by cases p <;> first | rfl | exact absurd (by decide) hp)
    | decide
    | dsimp -zeta only

theorem execPpsOutFall_keeps (s : State) :
    Keeps [.time] s (settle s (execPpsOutFall s)) := by
  unfold execPpsOutFall
  with_reducible repeat' first
    | assumption
    | (extract_lets +onlyGivenNames z
       refine Keeps.let z ?_ ?_
       subst z
       rotate_left
       clear_value z
       revert z
       intro y hy
       rotate_left)
    | (extract_lets +onlyGivenNames z; revert z; intro y)
    | exact Keeps.rfl
    | refine Keeps.iteO ?_ ?_
    | refine Keeps.ite ?_ ?_
    | refine Keeps.ok ?_
    | apply Keeps.next ?_ (State.emit_keeps _ _) ?_
    | refine Keeps.upd ?_ List.prefix_rfl (Nat.le_refl _) id (fun p hp => by cases p <;> first | rfl | exact absurd (by decide) hp)
    | decide
    | dsimp -zeta only

theorem execAlarmFire_keeps (a0 : Fin 8) (s : State) :
    Keeps [.time, .host, .recorder, .pwr] s (settle s (execAlarmFire a0 s)) := by
  unfold execAlarmFire
  with_reducible repeat' first
    | assumption
    | (extract_lets +onlyGivenNames z
       refine Keeps.let z ?_ ?_
       subst z
       rotate_left
       clear_value z
       revert z
       intro y hy
       rotate_left)
    | (extract_lets +onlyGivenNames z; revert z; intro y)
    | exact Keeps.rfl
    | refine Keeps.iteO ?_ ?_
    | refine Keeps.ite ?_ ?_
    | refine Keeps.ok ?_
    | apply Keeps.next ?_ (State.wake_keeps _ _) ?_
    | apply Keeps.next ?_ (State.timeEvt_keeps _ _) ?_
    | split
    | refine Keeps.upd ?_ List.prefix_rfl (Nat.le_refl _) id (fun p hp => by cases p <;> first | rfl | exact absurd (by decide) hp)
    | decide
    | dsimp -zeta only

theorem execLeapApply_keeps (s : State) :
    Keeps [.time, .host, .recorder] s (settle s (execLeapApply s)) := by
  unfold execLeapApply
  with_reducible repeat' first
    | assumption
    | (extract_lets +onlyGivenNames z
       refine Keeps.let z ?_ ?_
       subst z
       rotate_left
       clear_value z
       revert z
       intro y hy
       rotate_left)
    | (extract_lets +onlyGivenNames z; revert z; intro y)
    | exact Keeps.rfl
    | refine Keeps.iteO ?_ ?_
    | refine Keeps.ite ?_ ?_
    | refine Keeps.ok ?_
    | apply Keeps.next ?_ (State.wr_keeps _ _ _) ?_
    | apply Keeps.next ?_ (State.timeEvt_keeps _ _) ?_
    | refine Keeps.upd ?_ List.prefix_rfl (Nat.le_refl _) id (fun p hp => by cases p <;> first | rfl | exact absurd (by decide) hp)
    | decide
    | dsimp -zeta only

theorem execLeapTableEffect_keeps (s : State) :
    Keeps [.time] s (settle s (execLeapTableEffect s)) := by
  unfold execLeapTableEffect
  with_reducible repeat' first
    | assumption
    | (extract_lets +onlyGivenNames z; revert z; intro y)
    | exact Keeps.rfl
    | refine Keeps.ok ?_
    | split
    | refine Keeps.upd ?_ List.prefix_rfl (Nat.le_refl _) id (fun p hp => by cases p <;> first | rfl | exact absurd (by decide) hp)
    | decide
    | dsimp -zeta only

theorem execCalendarWrite_keeps (s : State) :
    Keeps [.time] s (settle s (execCalendarWrite s)) := by
  unfold execCalendarWrite
  with_reducible repeat' first
    | assumption
    | exact Keeps.rfl
    | refine Keeps.ok ?_
    | apply Keeps.next ?_ (State.keepCalendar_keeps _) ?_
    | decide
    | dsimp -zeta only

theorem execTaskInputCopyDone_keeps (a0 : Fin 16) (s : State) :
    Keeps [.tasks] s (settle s (execTaskInputCopyDone a0 s)) := by
  unfold execTaskInputCopyDone
  with_reducible repeat' first
    | assumption
    | (extract_lets +onlyGivenNames z; revert z; intro y)
    | exact Keeps.rfl
    | refine Keeps.iteO ?_ ?_
    | refine Keeps.ite ?_ ?_
    | refine Keeps.ok ?_
    | apply Keeps.next ?_ (State.dispatchSpindles_keeps _) ?_
    | apply Keeps.next ?_ (State.setInst_keeps _ _ _) ?_
    | split
    | decide
    | dsimp -zeta only

theorem State.commitInst_keeps (s : State) (a1 : Nat) (a2 : TaskInst) :
    Keeps [.image, .turn, .tasks, .ply] s (State.commitInst s a1 a2) := by
  unfold State.commitInst
  with_reducible repeat' first
    | assumption
    | (extract_lets +onlyGivenNames z
       refine Keeps.let z ?_ ?_
       subst z
       rotate_left
       clear_value z
       revert z
       intro y hy
       rotate_left)
    | (extract_lets +onlyGivenNames z; revert z; intro y)
    | exact Keeps.rfl
    | refine Keeps.foldl _ _ ?_ ?_
    | apply Keeps.next ?_ (State.saveTask_keeps _ _ _ _) ?_
    | apply Keeps.next ?_ (State.commitSlot_keeps _ _ _ _) ?_
    | apply Keeps.next ?_ (State.barKey_keeps _ _ _) ?_
    | apply Keeps.next ?_ (State.hold_keeps _ _ _ _ _ _ _) ?_
    | apply Keeps.next ?_ (State.setTask_keeps _ _ _) ?_
    | decide
    | intro y
    | dsimp -zeta only

theorem State.countInst_keeps (s : State) (a1 : Nat) :
    Keeps [] s (State.countInst s a1) := by
  unfold State.countInst
  with_reducible repeat' first
    | assumption
    | (extract_lets +onlyGivenNames z; revert z; intro y)
    | exact Keeps.rfl
    | apply Keeps.next ?_ (State.wr_keeps _ _ _) ?_
    | decide
    | dsimp -zeta only

theorem State.partnerTrapped_keeps (s : State) (a1 : Nat) (a2 : Nat) :
    Keeps [] s (State.partnerTrapped s a1 a2) := by
  unfold State.partnerTrapped
  with_reducible repeat' first
    | assumption
    | exact Keeps.rfl
    | refine Keeps.ite ?_ ?_
    | apply Keeps.next ?_ (State.wr_keeps _ _ _) ?_
    | split
    | decide
    | dsimp -zeta only

theorem execTaskCommitDone_keeps (a0 : Fin 16) (s : State) :
    Keeps [.image, .turn, .tasks, .ply, .host, .recorder] s (settle s (execTaskCommitDone a0 s)) := by
  unfold execTaskCommitDone
  with_reducible repeat' first
    | assumption
    | (extract_lets +onlyGivenNames z
       refine Keeps.let z ?_ ?_
       subst z
       rotate_left
       clear_value z
       revert z
       intro y hy
       rotate_left)
    | (extract_lets +onlyGivenNames z; revert z; intro y)
    | exact Keeps.rfl
    | refine Keeps.iteO ?_ ?_
    | refine Keeps.ite ?_ ?_
    | refine Keeps.ok ?_
    | apply Keeps.next ?_ (State.countInst_keeps _ _) ?_
    | apply Keeps.next ?_ (State.captureFull_keeps _) ?_
    | apply Keeps.next ?_ (State.commitInst_keeps _ _ _) ?_
    | apply Keeps.next ?_ (State.setTask_keeps _ _ _) ?_
    | apply Keeps.next ?_ (State.taskSlack_keeps _ _ _) ?_
    | apply Keeps.next ?_ (State.partnerTrapped_keeps _ _ _) ?_
    | apply Keeps.next ?_ (State.sendCompletion_keeps _ _ _ _ _) ?_
    | apply Keeps.next ?_ (State.dispatchSpindles_keeps _) ?_
    | apply Keeps.next ?_ (State.nextWaiting_keeps _ _) ?_
    | split
    | decide
    | dsimp -zeta only

theorem execTaskStart_keeps (a0 : Fin 16) (s : State) :
    Keeps [.tasks] s (settle s (execTaskStart a0 s)) := by
  unfold execTaskStart
  with_reducible repeat' first
    | assumption
    | (extract_lets +onlyGivenNames z; revert z; intro y)
    | exact Keeps.rfl
    | refine Keeps.iteO ?_ ?_
    | refine Keeps.ite ?_ ?_
    | refine Keeps.ok ?_
    | apply Keeps.next ?_ (State.wr_keeps _ _ _) ?_
    | apply Keeps.next ?_ (State.startTask_keeps _ _ _) ?_
    | decide
    | dsimp -zeta only

theorem State.sendOrder5_keeps (s : State) (a1 : Fin 16) (a2 : Bool) (a3 : Nat) :
    Keeps [.ply] s (State.sendOrder5 s a1 a2 a3) := by
  unfold State.sendOrder5
  with_reducible repeat' first
    | assumption
    | (extract_lets +onlyGivenNames z
       refine Keeps.let z ?_ ?_
       subst z
       rotate_left
       clear_value z
       revert z
       intro y hy
       rotate_left)
    | (extract_lets +onlyGivenNames z; revert z; intro y)
    | exact Keeps.rfl
    | apply Keeps.next ?_ (State.sendOrder_keeps _ _ _ _ _) ?_
    | refine Keeps.upd ?_ List.prefix_rfl (Nat.le_refl _) id (fun p hp => by cases p <;> first | rfl | exact absurd (by decide) hp)
    | decide
    | dsimp -zeta only

theorem State.localOverrun_keeps (s : State) (a1 : Nat) :
    Keeps [.host, .recorder] s (State.localOverrun s a1) := by
  unfold State.localOverrun
  with_reducible repeat' first
    | assumption
    | exact Keeps.rfl
    | apply Keeps.next ?_ (State.taskEvt_keeps _ _ _) ?_
    | apply Keeps.next ?_ (State.wr_keeps _ _ _) ?_
    | apply Keeps.next ?_ (State.blame_keeps _ _) ?_
    | decide
    | dsimp -zeta only

theorem execOverrunDecision_keeps (a0 : Fin 16) (s : State) :
    Keeps [.hop, .skein, .tasks, .trace, .time, .ply, .rows, .brake, .host, .recorder] s (settle s (execOverrunDecision a0 s)) := by
  unfold execOverrunDecision
  with_reducible repeat' first
    | assumption
    | (extract_lets +onlyGivenNames z
       refine Keeps.let z ?_ ?_
       subst z
       rotate_left
       clear_value z
       revert z
       intro y hy
       rotate_left)
    | (extract_lets +onlyGivenNames z; revert z; intro y)
    | exact Keeps.rfl
    | refine Keeps.iteO ?_ ?_
    | refine Keeps.ite ?_ ?_
    | refine Keeps.ok ?_
    | apply Keeps.next ?_ (State.setTask_keeps _ _ _) ?_
    | apply Keeps.next ?_ (State.abdicate_keeps _ _) ?_
    | apply Keeps.next ?_ (State.localOverrun_keeps _ _) ?_
    | apply Keeps.next ?_ (State.sendOrder5_keeps _ _ _ _) ?_
    | apply Keeps.next ?_ (State.overrunStop_keeps _ _ _ _) ?_
    | apply Keeps.next ?_ (State.leaveTracking_keeps _ _) ?_
    | split
    | decide
    | dsimp -zeta only

theorem State.haltUnless_keeps (s : State) (a1 : Nat) :
    Keeps [.tasks, .host, .recorder] s (State.haltUnless s a1) := by
  unfold State.haltUnless
  with_reducible repeat' first
    | assumption
    | exact Keeps.rfl
    | refine Keeps.ite ?_ ?_
    | apply Keeps.next ?_ (State.haltTrapped_keeps _ _) ?_
    | decide
    | dsimp -zeta only

theorem State.trapAction_keeps (s : State) (a1 : Fin 16) (a2 : Bool) :
    Keeps [.tasks, .ply, .host, .recorder] s (State.trapAction s a1 a2) := by
  unfold State.trapAction
  with_reducible repeat' first
    | assumption
    | (extract_lets +onlyGivenNames z
       refine Keeps.let z ?_ ?_
       subst z
       rotate_left
       clear_value z
       revert z
       intro y hy
       rotate_left)
    | (extract_lets +onlyGivenNames z; revert z; intro y)
    | exact Keeps.rfl
    | refine Keeps.ite ?_ ?_
    | apply Keeps.next ?_ (State.overrunStop_keeps _ _ _ _) ?_
    | apply Keeps.next ?_ (State.sendOrder5_keeps _ _ _ _) ?_
    | apply Keeps.next ?_ (State.haltTrapped_keeps _ _) ?_
    | decide
    | dsimp -zeta only

theorem execTrapDecision_keeps (a0 : Fin 16) (s : State) :
    Keeps [.hop, .skein, .tasks, .trace, .time, .ply, .rows, .brake, .host, .recorder] s (settle s (execTrapDecision a0 s)) := by
  unfold execTrapDecision
  with_reducible repeat' first
    | assumption
    | (extract_lets +onlyGivenNames z
       refine Keeps.let z ?_ ?_
       subst z
       rotate_left
       clear_value z
       revert z
       intro y hy
       rotate_left)
    | (extract_lets +onlyGivenNames z; revert z; intro y)
    | exact Keeps.rfl
    | refine Keeps.iteO ?_ ?_
    | refine Keeps.ite ?_ ?_
    | refine Keeps.ok ?_
    | apply Keeps.next ?_ (State.setTask_keeps _ _ _) ?_
    | apply Keeps.next ?_ (State.abdicate_keeps _ _) ?_
    | apply Keeps.next ?_ (State.blame_keeps _ _) ?_
    | apply Keeps.next ?_ (State.wr_keeps _ _ _) ?_
    | apply Keeps.next ?_ (State.trapAction_keeps _ _ _) ?_
    | apply Keeps.next ?_ (State.leaveTracking_keeps _ _) ?_
    | apply Keeps.next ?_ (State.haltUnless_keeps _ _) ?_
    | split
    | decide
    | dsimp -zeta only

theorem execTurnWatchdogTrip_keeps (s : State) :
    Keeps [.hop, .skein, .trace, .time, .ply, .rows, .brake, .host, .recorder] s (settle s (execTurnWatchdogTrip s)) := by
  unfold execTurnWatchdogTrip
  with_reducible repeat' first
    | assumption
    | (extract_lets +onlyGivenNames z
       refine Keeps.let z ?_ ?_
       subst z
       rotate_left
       clear_value z
       revert z
       intro y hy
       rotate_left)
    | exact Keeps.rfl
    | refine Keeps.iteO ?_ ?_
    | refine Keeps.ite ?_ ?_
    | refine Keeps.ok ?_
    | apply Keeps.next ?_ (State.setRow_keeps _ _ _) ?_
    | apply Keeps.next ?_ (State.inc_keeps _ _) ?_
    | apply Keeps.next ?_ (State.wr_keeps _ _ _) ?_
    | apply Keeps.next ?_ (State.fireGasp_keeps _ _) ?_
    | apply Keeps.next ?_ (State.abdicate_keeps _ _) ?_
    | apply Keeps.next ?_ (State.leaveTracking_keeps _ _) ?_
    | decide
    | dsimp -zeta only

theorem State.nameKey_keeps (s : State) (a1 : Nat) :
    Keeps [.tasks, .ply] s (State.nameKey s a1) := by
  unfold State.nameKey
  with_reducible repeat' first
    | assumption
    | (extract_lets +onlyGivenNames z; revert z; intro y)
    | exact Keeps.rfl
    | refine Keeps.ite ?_ ?_
    | apply Keeps.next ?_ (State.sendOrder_keeps _ _ _ _ _) ?_
    | split
    | refine Keeps.upd ?_ List.prefix_rfl (Nat.le_refl _) id (fun p hp => by cases p <;> first | rfl | exact absurd (by decide) hp)
    | decide
    | dsimp -zeta only

theorem State.takeKey_keeps (s : State) (a1 : Nat) :
    Keeps [.tasks, .ply, .host, .recorder, .pwr] s (State.takeKey s a1) := by
  unfold State.takeKey
  with_reducible repeat' first
    | assumption
    | (extract_lets +onlyGivenNames z
       refine Keeps.let z ?_ ?_
       subst z
       rotate_left
       clear_value z
       revert z
       intro y hy
       rotate_left)
    | (extract_lets +onlyGivenNames z; revert z; intro y)
    | exact Keeps.rfl
    | refine Keeps.ite ?_ ?_
    | apply Keeps.next ?_ (State.wr_keeps _ _ _) ?_
    | apply Keeps.next ?_ (State.wake_keeps _ _) ?_
    | apply Keeps.next ?_ (State.nameKey_keeps _ _) ?_
    | decide
    | dsimp -zeta only

theorem execKeyPositionTaken_keeps (a0 : BitVec 4) (s : State) :
    Keeps [.tasks, .ply, .host, .recorder, .pwr] s (settle s (execKeyPositionTaken a0 s)) := by
  unfold execKeyPositionTaken
  with_reducible repeat' first
    | assumption
    | (extract_lets +onlyGivenNames z
       refine Keeps.let z ?_ ?_
       subst z
       rotate_left
       clear_value z
       revert z
       intro y hy
       rotate_left)
    | exact Keeps.rfl
    | refine Keeps.ok ?_
    | apply Keeps.next ?_ (State.wr_keeps _ _ _) ?_
    | apply Keeps.next ?_ (State.takeKey_keeps _ _) ?_
    | split
    | decide
    | dsimp -zeta only

theorem execKeyInvalidLock_keeps (a0 : BitVec 4) (s : State) :
    Keeps [.tasks, .ply, .host, .recorder, .pwr] s (settle s (execKeyInvalidLock a0 s)) := by
  unfold execKeyInvalidLock
  with_reducible repeat' first
    | assumption
    | (extract_lets +onlyGivenNames z
       refine Keeps.let z ?_ ?_
       subst z
       rotate_left
       clear_value z
       revert z
       intro y hy
       rotate_left)
    | exact Keeps.rfl
    | refine Keeps.ok ?_
    | apply Keeps.next ?_ (State.wr_keeps _ _ _) ?_
    | apply Keeps.next ?_ (State.takeKey_keeps _ _) ?_
    | apply Keeps.next ?_ (State.keyEvt_keeps _ _) ?_
    | split
    | decide
    | dsimp -zeta only

theorem State.enterStop_keeps (s : State) (a1 : Nat) :
    Keeps [.tasks, .host, .recorder] s (State.enterStop s a1) := by
  unfold State.enterStop
  with_reducible repeat' first
    | assumption
    | (extract_lets +onlyGivenNames z
       refine Keeps.let z ?_ ?_
       subst z
       rotate_left
       clear_value z
       revert z
       intro y hy
       rotate_left)
    | (extract_lets +onlyGivenNames z; revert z; intro y)
    | exact Keeps.rfl
    | refine Keeps.ite ?_ ?_
    | apply Keeps.next ?_ (State.haltTasks_keeps _) ?_
    | apply Keeps.next ?_ (State.wr_keeps _ _ _) ?_
    | refine Keeps.upd ?_ List.prefix_rfl (Nat.le_refl _) id (fun p hp => by cases p <;> first | rfl | exact absurd (by decide) hp)
    | decide
    | dsimp -zeta only

theorem State.leaveStop_keeps (s : State) (a1 : Nat) :
    Keeps [.skein, .tasks, .trace, .time, .rows, .brake, .host, .recorder] s (State.leaveStop s a1) := by
  unfold State.leaveStop
  with_reducible repeat' first
    | assumption
    | (extract_lets +onlyGivenNames z
       refine Keeps.let z ?_ ?_
       subst z
       rotate_left
       clear_value z
       revert z
       intro y hy
       rotate_left)
    | (extract_lets +onlyGivenNames z; revert z; intro y)
    | exact Keeps.rfl
    | refine Keeps.ite ?_ ?_
    | refine Keeps.foldl _ _ ?_ ?_
    | apply Keeps.next ?_ (State.wr_keeps _ _ _) ?_
    | apply Keeps.next ?_ (State.setTask_keeps _ _ _) ?_
    | apply Keeps.next ?_ (State.setRow_keeps _ _ _) ?_
    | apply Keeps.next ?_ (State.startTask_keeps _ _ _) ?_
    | refine Keeps.upd ?_ List.prefix_rfl (Nat.le_refl _) id (fun p hp => by cases p <;> first | rfl | exact absurd (by decide) hp)
    | decide
    | intro y
    | dsimp -zeta only

theorem execKeyEffectiveChange_keeps (s : State) :
    Keeps [.skein, .tasks, .trace, .time, .ply, .rows, .brake, .host, .recorder] s (settle s (execKeyEffectiveChange s)) := by
  unfold execKeyEffectiveChange
  with_reducible repeat' first
    | assumption
    | (extract_lets +onlyGivenNames z
       refine Keeps.let z ?_ ?_
       subst z
       rotate_left
       clear_value z
       revert z
       intro y hy
       rotate_left)
    | (extract_lets +onlyGivenNames z; revert z; intro y)
    | exact Keeps.rfl
    | refine Keeps.iteO ?_ ?_
    | refine Keeps.ite ?_ ?_
    | refine Keeps.ok ?_
    | apply Keeps.next ?_ (State.wr_keeps _ _ _) ?_
    | apply Keeps.next ?_ (State.keyEvt_keeps _ _) ?_
    | apply Keeps.next ?_ (State.enterStop_keeps _ _) ?_
    | apply Keeps.next ?_ (State.leaveStop_keeps _ _) ?_
    | split
    | refine Keeps.upd ?_ List.prefix_rfl (Nat.le_refl _) id (fun p hp => by cases p <;> first | rfl | exact absurd (by decide) hp)
    | decide
    | dsimp -zeta only

theorem execKeyDisagree_keeps (s : State) :
    Keeps [.host, .recorder] s (settle s (execKeyDisagree s)) := by
  unfold execKeyDisagree
  with_reducible repeat' first
    | assumption
    | exact Keeps.rfl
    | refine Keeps.iteO ?_ ?_
    | refine Keeps.ite ?_ ?_
    | refine Keeps.ok ?_
    | apply Keeps.next ?_ (State.keyEvt_keeps _ _) ?_
    | apply Keeps.next ?_ (State.wr_keeps _ _ _) ?_
    | decide
    | dsimp -zeta only

theorem execRetainFlushStart_keeps (s : State) :
    Keeps [.retained, .tasks] s (settle s (execRetainFlushStart s)) := by
  unfold execRetainFlushStart
  with_reducible repeat' first
    | assumption
    | exact Keeps.rfl
    | refine Keeps.ok ?_
    | apply Keeps.next ?_ (State.startFlush_keeps _) ?_
    | decide
    | dsimp -zeta only

theorem execRetainFlushNow_keeps (s : State) :
    Keeps [.tasks] s (settle s (execRetainFlushNow s)) := by
  unfold execRetainFlushNow
  with_reducible repeat' first
    | assumption
    | (extract_lets +onlyGivenNames z; revert z; intro y)
    | exact Keeps.rfl
    | refine Keeps.iteO ?_ ?_
    | refine Keeps.ite ?_ ?_
    | refine Keeps.ok ?_
    | refine Keeps.upd ?_ List.prefix_rfl (Nat.le_refl _) id (fun p hp => by cases p <;> first | rfl | exact absurd (by decide) hp)
    | decide
    | dsimp -zeta only

end Sys2Proof.Machine
end

