-- ==== Sys2Proof/Laws/KeepsTwist.lean ====
section
/-! SUPPORT. What each operation and each meaning of Twist code, the Skein, the hopper, the mill buses, trace and the recorder leaves alone. -/

namespace Sys2Proof.Machine

set_option linter.all false

theorem State.fetchWord_keeps (s : State) (a1 : Nat) (a2 : Nat) (a3 : TaskInst) (a4 : Strand) :
    Keeps [.host, .recorder] s (State.fetchWord s a1 a2 a3 a4).1 := by
  unfold State.fetchWord
  with_reducible repeat' first
    | assumption
    | (extract_lets +onlyGivenNames z; revert z; intro y)
    | exact Keeps.rfl
    | (rename (_ : State × _) = _ => heq
       refine Keeps.pair heq ?_ ?_ <;> clear heq
       rotate_left
       intro hy
       rotate_left)
    | apply Keeps.next ?_ (State.acAccess_keeps _ _ _ _ _ _) ?_
    | decide
    | dsimp -zeta only

theorem State.trapStrand_keeps (s : State) (a1 : Nat) (a2 : Nat) (a3 : Nat) (a4 : Nat) (a5 : Strand) :
    Keeps [.tasks, .ply, .host, .recorder] s (State.trapStrand s a1 a2 a3 a4 a5) := by
  unfold State.trapStrand
  with_reducible repeat' first
    | assumption
    | exact Keeps.rfl
    | apply Keeps.next ?_ (State.trapInst_keeps _ _ _) ?_
    | decide
    | dsimp -zeta only

theorem State.putStrand_keeps (s : State) (a1 : Nat) (a2 : Nat) (a3 : TaskInst) (a4 : Strand) :
    Keeps [.tasks] s (State.putStrand s a1 a2 a3 a4) := by
  unfold State.putStrand
  with_reducible repeat' first
    | assumption
    | exact Keeps.rfl
    | apply Keeps.next ?_ (State.setInst_keeps _ _ _) ?_
    | decide
    | dsimp -zeta only

theorem State.twistIf_keeps {A : List Part} {s0 s : State} {t : Fin 16} {j : Fin 8} {fits : Nat → Bool}
    {f : State → TaskInst → Strand → State} (hA : ∀ p ∈ [Part.tasks, .ply, .host, .recorder], p ∈ A) (h : Keeps A s0 s)
    (hf : ∀ y, Keeps A s0 y → ∀ i x, Keeps A s0 (f y i x)) : Keeps A s0 (s.twistIf t j fits f) := by
  unfold State.twistIf
  split
  · exact h
  · split
    · exact h
    · dsimp only
      have hr := h.next (State.fetchWord_keeps s t.val j.val ‹_› ‹_›) (fun p hp => hA p (by revert hp; revert p; decide))
      split
      · exact hf _ hr _ _
      · exact hr.next (State.trapStrand_keeps _ _ _ _ _ _) (fun p hp => hA p (by revert hp; revert p; decide))


theorem State.twist_keeps {A : List Part} {s0 s : State} {t : Fin 16} {j : Fin 8} {w : Nat}
    {f : State → TaskInst → Strand → State} (hA : ∀ p ∈ [Part.tasks, .ply, .host, .recorder], p ∈ A) (h : Keeps A s0 s)
    (hf : ∀ y, Keeps A s0 y → ∀ i x, Keeps A s0 (f y i x)) : Keeps A s0 (s.twist t j w f) :=
  State.twistIf_keeps hA h hf


theorem State.alu_keeps (s : State) (a1 : Fin 16) (a2 : Fin 8) (a3 : Nat) (a4 : Bool) (a5 : Strand → Strand) :
    Keeps [.hop, .turn, .skein, .tasks, .trace, .time, .ply, .rows, .brake, .host, .recorder] s (State.alu s a1 a2 a3 a4 a5) := by
  unfold State.alu
  with_reducible repeat' first
    | assumption
    | exact Keeps.rfl
    | refine Keeps.ite ?_ ?_
    | apply State.twist_keeps
    | apply Keeps.next ?_ (State.selfFault_keeps _ _ _ _) ?_
    | apply Keeps.next ?_ (State.putStrand_keeps _ _ _ _ _) ?_
    | decide
    | intro y
    | dsimp -zeta only

theorem State.aluTrap_keeps (s : State) (a1 : Fin 16) (a2 : Fin 8) (a3 : Nat) (a4 : Bool) (a5 : Strand → Option Nat) (a6 : Strand → Strand) :
    Keeps [.hop, .turn, .skein, .tasks, .trace, .time, .ply, .rows, .brake, .host, .recorder] s (State.aluTrap s a1 a2 a3 a4 a5 a6) := by
  unfold State.aluTrap
  with_reducible repeat' first
    | assumption
    | exact Keeps.rfl
    | refine Keeps.ite ?_ ?_
    | apply State.twist_keeps
    | apply Keeps.next ?_ (State.trapStrand_keeps _ _ _ _ _ _) ?_
    | apply Keeps.next ?_ (State.selfFault_keeps _ _ _ _) ?_
    | apply Keeps.next ?_ (State.putStrand_keeps _ _ _ _ _) ?_
    | split
    | decide
    | intro y
    | dsimp -zeta only

theorem State.slotRead_keeps (s : State) (a1 : Fin 16) (a2 : Fin 8) (a3 : Nat) (a4 : Nat) (a5 : Nat) (a6 : Bool) (a7 : Strand → Entry → Strand) :
    Keeps [.tasks, .ply, .host, .recorder] s (State.slotRead s a1 a2 a3 a4 a5 a6 a7) := by
  unfold State.slotRead
  with_reducible repeat' first
    | assumption
    | (extract_lets +onlyGivenNames z; revert z; intro y)
    | exact Keeps.rfl
    | refine Keeps.ite ?_ ?_
    | apply State.twist_keeps
    | apply Keeps.next ?_ (State.trapStrand_keeps _ _ _ _ _ _) ?_
    | apply Keeps.next ?_ (State.putStrand_keeps _ _ _ _ _) ?_
    | split
    | decide
    | intro y
    | dsimp -zeta only

theorem State.dataAccess_keeps (s : State) (a1 : Nat) (a2 : Nat) (a3 : Nat) (a4 : Nat) (a5 : Nat) (a6 : TaskInst) :
    Keeps [.host, .recorder] s (State.dataAccess s a1 a2 a3 a4 a5 a6).1 := by
  unfold State.dataAccess
  with_reducible repeat' first
    | assumption
    | exact Keeps.rfl
    | (rename (_ : State × _) = _ => heq
       refine Keeps.pair heq ?_ ?_ <;> clear heq
       rotate_left
       intro hy
       rotate_left)
    | apply Keeps.next ?_ (State.acAccess_keeps _ _ _ _ _ _) ?_
    | decide
    | dsimp -zeta only

theorem execTwAdd_keeps (a0 : Fin 16) (a1 : Fin 8) (a2 : Fin 32) (a3 : Fin 32) (a4 : Fin 32) (a5 : Bool) (s : State) :
    Keeps [.hop, .turn, .skein, .tasks, .trace, .time, .ply, .rows, .brake, .host, .recorder] s (settle s (execTwAdd a0 a1 a2 a3 a4 a5 s)) := by
  unfold execTwAdd
  with_reducible repeat' first
    | assumption
    | (extract_lets +onlyGivenNames z; revert z; intro y)
    | exact Keeps.rfl
    | refine Keeps.ok ?_
    | apply Keeps.next ?_ (State.alu_keeps _ _ _ _ _ _) ?_
    | decide
    | dsimp -zeta only

theorem execTwSub_keeps (a0 : Fin 16) (a1 : Fin 8) (a2 : Fin 32) (a3 : Fin 32) (a4 : Fin 32) (a5 : Bool) (s : State) :
    Keeps [.hop, .turn, .skein, .tasks, .trace, .time, .ply, .rows, .brake, .host, .recorder] s (settle s (execTwSub a0 a1 a2 a3 a4 a5 s)) := by
  unfold execTwSub
  with_reducible repeat' first
    | assumption
    | (extract_lets +onlyGivenNames z; revert z; intro y)
    | exact Keeps.rfl
    | refine Keeps.ok ?_
    | apply Keeps.next ?_ (State.alu_keeps _ _ _ _ _ _) ?_
    | decide
    | dsimp -zeta only

theorem execTwAdds_keeps (a0 : Fin 16) (a1 : Fin 8) (a2 : Fin 32) (a3 : Fin 32) (a4 : Fin 32) (a5 : Bool) (s : State) :
    Keeps [.hop, .turn, .skein, .tasks, .trace, .time, .ply, .rows, .brake, .host, .recorder] s (settle s (execTwAdds a0 a1 a2 a3 a4 a5 s)) := by
  unfold execTwAdds
  with_reducible repeat' first
    | assumption
    | exact Keeps.rfl
    | refine Keeps.ok ?_
    | apply Keeps.next ?_ (State.alu_keeps _ _ _ _ _ _) ?_
    | decide
    | dsimp -zeta only

theorem execTwSubs_keeps (a0 : Fin 16) (a1 : Fin 8) (a2 : Fin 32) (a3 : Fin 32) (a4 : Fin 32) (a5 : Bool) (s : State) :
    Keeps [.hop, .turn, .skein, .tasks, .trace, .time, .ply, .rows, .brake, .host, .recorder] s (settle s (execTwSubs a0 a1 a2 a3 a4 a5 s)) := by
  unfold execTwSubs
  with_reducible repeat' first
    | assumption
    | exact Keeps.rfl
    | refine Keeps.ok ?_
    | apply Keeps.next ?_ (State.alu_keeps _ _ _ _ _ _) ?_
    | decide
    | dsimp -zeta only

theorem execTwAnd_keeps (a0 : Fin 16) (a1 : Fin 8) (a2 : Fin 32) (a3 : Fin 32) (a4 : Fin 32) (s : State) :
    Keeps [.hop, .turn, .skein, .tasks, .trace, .time, .ply, .rows, .brake, .host, .recorder] s (settle s (execTwAnd a0 a1 a2 a3 a4 s)) := by
  unfold execTwAnd
  with_reducible repeat' first
    | assumption
    | exact Keeps.rfl
    | refine Keeps.ok ?_
    | apply Keeps.next ?_ (State.alu_keeps _ _ _ _ _ _) ?_
    | decide
    | dsimp -zeta only

theorem execTwOr_keeps (a0 : Fin 16) (a1 : Fin 8) (a2 : Fin 32) (a3 : Fin 32) (a4 : Fin 32) (s : State) :
    Keeps [.hop, .turn, .skein, .tasks, .trace, .time, .ply, .rows, .brake, .host, .recorder] s (settle s (execTwOr a0 a1 a2 a3 a4 s)) := by
  unfold execTwOr
  with_reducible repeat' first
    | assumption
    | exact Keeps.rfl
    | refine Keeps.ok ?_
    | apply Keeps.next ?_ (State.alu_keeps _ _ _ _ _ _) ?_
    | decide
    | dsimp -zeta only

theorem execTwXor_keeps (a0 : Fin 16) (a1 : Fin 8) (a2 : Fin 32) (a3 : Fin 32) (a4 : Fin 32) (s : State) :
    Keeps [.hop, .turn, .skein, .tasks, .trace, .time, .ply, .rows, .brake, .host, .recorder] s (settle s (execTwXor a0 a1 a2 a3 a4 s)) := by
  unfold execTwXor
  with_reducible repeat' first
    | assumption
    | exact Keeps.rfl
    | refine Keeps.ok ?_
    | apply Keeps.next ?_ (State.alu_keeps _ _ _ _ _ _) ?_
    | decide
    | dsimp -zeta only

theorem execTwAndn_keeps (a0 : Fin 16) (a1 : Fin 8) (a2 : Fin 32) (a3 : Fin 32) (a4 : Fin 32) (s : State) :
    Keeps [.hop, .turn, .skein, .tasks, .trace, .time, .ply, .rows, .brake, .host, .recorder] s (settle s (execTwAndn a0 a1 a2 a3 a4 s)) := by
  unfold execTwAndn
  with_reducible repeat' first
    | assumption
    | exact Keeps.rfl
    | refine Keeps.ok ?_
    | apply Keeps.next ?_ (State.alu_keeps _ _ _ _ _ _) ?_
    | decide
    | dsimp -zeta only

theorem execTwMin_keeps (a0 : Fin 16) (a1 : Fin 8) (a2 : Fin 32) (a3 : Fin 32) (a4 : Fin 32) (s : State) :
    Keeps [.hop, .turn, .skein, .tasks, .trace, .time, .ply, .rows, .brake, .host, .recorder] s (settle s (execTwMin a0 a1 a2 a3 a4 s)) := by
  unfold execTwMin
  with_reducible repeat' first
    | assumption
    | exact Keeps.rfl
    | refine Keeps.iteO ?_ ?_
    | refine Keeps.ite ?_ ?_
    | refine Keeps.ok ?_
    | apply Keeps.next ?_ (State.alu_keeps _ _ _ _ _ _) ?_
    | decide
    | dsimp -zeta only

theorem execTwMax_keeps (a0 : Fin 16) (a1 : Fin 8) (a2 : Fin 32) (a3 : Fin 32) (a4 : Fin 32) (s : State) :
    Keeps [.hop, .turn, .skein, .tasks, .trace, .time, .ply, .rows, .brake, .host, .recorder] s (settle s (execTwMax a0 a1 a2 a3 a4 s)) := by
  unfold execTwMax
  with_reducible repeat' first
    | assumption
    | exact Keeps.rfl
    | refine Keeps.iteO ?_ ?_
    | refine Keeps.ite ?_ ?_
    | refine Keeps.ok ?_
    | apply Keeps.next ?_ (State.alu_keeps _ _ _ _ _ _) ?_
    | decide
    | dsimp -zeta only

theorem execTwShl_keeps (a0 : Fin 16) (a1 : Fin 8) (a2 : Fin 32) (a3 : Fin 32) (a4 : Fin 32) (a5 : Bool) (s : State) :
    Keeps [.hop, .turn, .skein, .tasks, .trace, .time, .ply, .rows, .brake, .host, .recorder] s (settle s (execTwShl a0 a1 a2 a3 a4 a5 s)) := by
  unfold execTwShl
  with_reducible repeat' first
    | assumption
    | exact Keeps.rfl
    | refine Keeps.ok ?_
    | apply Keeps.next ?_ (State.alu_keeps _ _ _ _ _ _) ?_
    | decide
    | dsimp -zeta only

theorem execTwShr_keeps (a0 : Fin 16) (a1 : Fin 8) (a2 : Fin 32) (a3 : Fin 32) (a4 : Fin 32) (s : State) :
    Keeps [.hop, .turn, .skein, .tasks, .trace, .time, .ply, .rows, .brake, .host, .recorder] s (settle s (execTwShr a0 a1 a2 a3 a4 s)) := by
  unfold execTwShr
  with_reducible repeat' first
    | assumption
    | exact Keeps.rfl
    | refine Keeps.ok ?_
    | apply Keeps.next ?_ (State.alu_keeps _ _ _ _ _ _) ?_
    | decide
    | dsimp -zeta only

theorem execTwSar_keeps (a0 : Fin 16) (a1 : Fin 8) (a2 : Fin 32) (a3 : Fin 32) (a4 : Fin 32) (s : State) :
    Keeps [.hop, .turn, .skein, .tasks, .trace, .time, .ply, .rows, .brake, .host, .recorder] s (settle s (execTwSar a0 a1 a2 a3 a4 s)) := by
  unfold execTwSar
  with_reducible repeat' first
    | assumption
    | exact Keeps.rfl
    | refine Keeps.ok ?_
    | apply Keeps.next ?_ (State.alu_keeps _ _ _ _ _ _) ?_
    | decide
    | dsimp -zeta only

theorem execTwCmp_keeps (a0 : Fin 16) (a1 : Fin 8) (a2 : Fin 32) (a3 : Fin 32) (a4 : Bool) (s : State) :
    Keeps [.hop, .turn, .skein, .tasks, .trace, .time, .ply, .rows, .brake, .host, .recorder] s (settle s (execTwCmp a0 a1 a2 a3 a4 s)) := by
  unfold execTwCmp
  with_reducible repeat' first
    | assumption
    | exact Keeps.rfl
    | refine Keeps.ok ?_
    | apply Keeps.next ?_ (State.alu_keeps _ _ _ _ _ _) ?_
    | decide
    | dsimp -zeta only

theorem execTwAbs_keeps (a0 : Fin 16) (a1 : Fin 8) (a2 : Fin 32) (a3 : Fin 32) (a4 : Bool) (s : State) :
    Keeps [.hop, .turn, .skein, .tasks, .trace, .time, .ply, .rows, .brake, .host, .recorder] s (settle s (execTwAbs a0 a1 a2 a3 a4 s)) := by
  unfold execTwAbs
  with_reducible repeat' first
    | assumption
    | exact Keeps.rfl
    | refine Keeps.ok ?_
    | apply Keeps.next ?_ (State.alu_keeps _ _ _ _ _ _) ?_
    | decide
    | dsimp -zeta only

theorem execTwNeg_keeps (a0 : Fin 16) (a1 : Fin 8) (a2 : Fin 32) (a3 : Fin 32) (a4 : Bool) (s : State) :
    Keeps [.hop, .turn, .skein, .tasks, .trace, .time, .ply, .rows, .brake, .host, .recorder] s (settle s (execTwNeg a0 a1 a2 a3 a4 s)) := by
  unfold execTwNeg
  with_reducible repeat' first
    | assumption
    | exact Keeps.rfl
    | refine Keeps.ok ?_
    | apply Keeps.next ?_ (State.alu_keeps _ _ _ _ _ _) ?_
    | decide
    | dsimp -zeta only

theorem execTwMul_keeps (a0 : Fin 16) (a1 : Fin 8) (a2 : Fin 32) (a3 : Fin 32) (a4 : Fin 32) (a5 : Bool) (s : State) :
    Keeps [.hop, .turn, .skein, .tasks, .trace, .time, .ply, .rows, .brake, .host, .recorder] s (settle s (execTwMul a0 a1 a2 a3 a4 a5 s)) := by
  unfold execTwMul
  with_reducible repeat' first
    | assumption
    | (extract_lets +onlyGivenNames z; revert z; intro y)
    | exact Keeps.rfl
    | refine Keeps.ok ?_
    | apply Keeps.next ?_ (State.alu_keeps _ _ _ _ _ _) ?_
    | decide
    | dsimp -zeta only

theorem execTwMulq_keeps (a0 : Fin 16) (a1 : Fin 8) (a2 : Fin 32) (a3 : Fin 32) (a4 : Fin 32) (a5 : Bool) (s : State) :
    Keeps [.hop, .turn, .skein, .tasks, .trace, .time, .ply, .rows, .brake, .host, .recorder] s (settle s (execTwMulq a0 a1 a2 a3 a4 a5 s)) := by
  unfold execTwMulq
  with_reducible repeat' first
    | assumption
    | (extract_lets +onlyGivenNames z; revert z; intro y)
    | exact Keeps.rfl
    | refine Keeps.ok ?_
    | apply Keeps.next ?_ (State.alu_keeps _ _ _ _ _ _) ?_
    | decide
    | dsimp -zeta only

theorem execTwDiv_keeps (a0 : Fin 16) (a1 : Fin 8) (a2 : Fin 32) (a3 : Fin 32) (a4 : Fin 32) (a5 : Bool) (s : State) :
    Keeps [.hop, .turn, .skein, .tasks, .trace, .time, .ply, .rows, .brake, .host, .recorder] s (settle s (execTwDiv a0 a1 a2 a3 a4 a5 s)) := by
  unfold execTwDiv
  with_reducible repeat' first
    | assumption
    | exact Keeps.rfl
    | refine Keeps.iteO ?_ ?_
    | refine Keeps.ite ?_ ?_
    | refine Keeps.ok ?_
    | apply Keeps.next ?_ (State.aluTrap_keeps _ _ _ _ _ _ _) ?_
    | decide
    | dsimp -zeta only

theorem execTwDivq_keeps (a0 : Fin 16) (a1 : Fin 8) (a2 : Fin 32) (a3 : Fin 32) (a4 : Fin 32) (a5 : Bool) (s : State) :
    Keeps [.hop, .turn, .skein, .tasks, .trace, .time, .ply, .rows, .brake, .host, .recorder] s (settle s (execTwDivq a0 a1 a2 a3 a4 a5 s)) := by
  unfold execTwDivq
  with_reducible repeat' first
    | assumption
    | (extract_lets +onlyGivenNames z; revert z; intro y)
    | exact Keeps.rfl
    | refine Keeps.iteO ?_ ?_
    | refine Keeps.ite ?_ ?_
    | refine Keeps.ok ?_
    | apply Keeps.next ?_ (State.aluTrap_keeps _ _ _ _ _ _ _) ?_
    | decide
    | dsimp -zeta only

theorem execTwSatq_keeps (a0 : Fin 16) (a1 : Fin 8) (a2 : Fin 32) (a3 : Fin 32) (s : State) :
    Keeps [.hop, .turn, .skein, .tasks, .trace, .time, .ply, .rows, .brake, .host, .recorder] s (settle s (execTwSatq a0 a1 a2 a3 s)) := by
  unfold execTwSatq
  with_reducible repeat' first
    | assumption
    | (extract_lets +onlyGivenNames z; revert z; intro y)
    | exact Keeps.rfl
    | refine Keeps.ok ?_
    | apply Keeps.next ?_ (State.alu_keeps _ _ _ _ _ _) ?_
    | decide
    | dsimp -zeta only

theorem execTwSel_keeps (a0 : Fin 16) (a1 : Fin 8) (a2 : Fin 32) (a3 : Fin 32) (a4 : Fin 32) (s : State) :
    Keeps [.hop, .turn, .skein, .tasks, .trace, .time, .ply, .rows, .brake, .host, .recorder] s (settle s (execTwSel a0 a1 a2 a3 a4 s)) := by
  unfold execTwSel
  with_reducible repeat' first
    | assumption
    | exact Keeps.rfl
    | refine Keeps.iteO ?_ ?_
    | refine Keeps.ite ?_ ?_
    | refine Keeps.ok ?_
    | apply Keeps.next ?_ (State.alu_keeps _ _ _ _ _ _) ?_
    | decide
    | dsimp -zeta only

theorem execTwRdf_keeps (a0 : Fin 16) (a1 : Fin 8) (a2 : Fin 32) (s : State) :
    Keeps [.hop, .turn, .skein, .tasks, .trace, .time, .ply, .rows, .brake, .host, .recorder] s (settle s (execTwRdf a0 a1 a2 s)) := by
  unfold execTwRdf
  with_reducible repeat' first
    | assumption
    | exact Keeps.rfl
    | refine Keeps.ok ?_
    | apply Keeps.next ?_ (State.alu_keeps _ _ _ _ _ _) ?_
    | decide
    | dsimp -zeta only

theorem execTwClq_keeps (a0 : Fin 16) (a1 : Fin 8) (s : State) :
    Keeps [.hop, .turn, .skein, .tasks, .trace, .time, .ply, .rows, .brake, .host, .recorder] s (settle s (execTwClq a0 a1 s)) := by
  unfold execTwClq
  with_reducible repeat' first
    | assumption
    | exact Keeps.rfl
    | refine Keeps.ok ?_
    | apply Keeps.next ?_ (State.alu_keeps _ _ _ _ _ _) ?_
    | decide
    | dsimp -zeta only

theorem execTwAddi_keeps (a0 : Fin 16) (a1 : Fin 8) (a2 : Fin 32) (a3 : Fin 32) (a4 : BitVec 20) (a5 : Bool) (s : State) :
    Keeps [.hop, .turn, .skein, .tasks, .trace, .time, .ply, .rows, .brake, .host, .recorder] s (settle s (execTwAddi a0 a1 a2 a3 a4 a5 s)) := by
  unfold execTwAddi
  with_reducible repeat' first
    | assumption
    | (extract_lets +onlyGivenNames z; revert z; intro y)
    | exact Keeps.rfl
    | refine Keeps.ok ?_
    | apply Keeps.next ?_ (State.alu_keeps _ _ _ _ _ _) ?_
    | decide
    | dsimp -zeta only

theorem execTwAndi_keeps (a0 : Fin 16) (a1 : Fin 8) (a2 : Fin 32) (a3 : Fin 32) (a4 : BitVec 20) (s : State) :
    Keeps [.hop, .turn, .skein, .tasks, .trace, .time, .ply, .rows, .brake, .host, .recorder] s (settle s (execTwAndi a0 a1 a2 a3 a4 s)) := by
  unfold execTwAndi
  with_reducible repeat' first
    | assumption
    | exact Keeps.rfl
    | refine Keeps.ok ?_
    | apply Keeps.next ?_ (State.alu_keeps _ _ _ _ _ _) ?_
    | decide
    | dsimp -zeta only

theorem execTwOri_keeps (a0 : Fin 16) (a1 : Fin 8) (a2 : Fin 32) (a3 : Fin 32) (a4 : BitVec 20) (s : State) :
    Keeps [.hop, .turn, .skein, .tasks, .trace, .time, .ply, .rows, .brake, .host, .recorder] s (settle s (execTwOri a0 a1 a2 a3 a4 s)) := by
  unfold execTwOri
  with_reducible repeat' first
    | assumption
    | exact Keeps.rfl
    | refine Keeps.ok ?_
    | apply Keeps.next ?_ (State.alu_keeps _ _ _ _ _ _) ?_
    | decide
    | dsimp -zeta only

theorem execTwXori_keeps (a0 : Fin 16) (a1 : Fin 8) (a2 : Fin 32) (a3 : Fin 32) (a4 : BitVec 20) (s : State) :
    Keeps [.hop, .turn, .skein, .tasks, .trace, .time, .ply, .rows, .brake, .host, .recorder] s (settle s (execTwXori a0 a1 a2 a3 a4 s)) := by
  unfold execTwXori
  with_reducible repeat' first
    | assumption
    | exact Keeps.rfl
    | refine Keeps.ok ?_
    | apply Keeps.next ?_ (State.alu_keeps _ _ _ _ _ _) ?_
    | decide
    | dsimp -zeta only

theorem execTwCmpi_keeps (a0 : Fin 16) (a1 : Fin 8) (a2 : Fin 32) (a3 : BitVec 20) (a4 : Bool) (s : State) :
    Keeps [.hop, .turn, .skein, .tasks, .trace, .time, .ply, .rows, .brake, .host, .recorder] s (settle s (execTwCmpi a0 a1 a2 a3 a4 s)) := by
  unfold execTwCmpi
  with_reducible repeat' first
    | assumption
    | exact Keeps.rfl
    | refine Keeps.ok ?_
    | apply Keeps.next ?_ (State.alu_keeps _ _ _ _ _ _) ?_
    | decide
    | dsimp -zeta only

theorem execTwShi_keeps (a0 : Fin 16) (a1 : Fin 8) (a2 : Fin 32) (a3 : Fin 32) (a4 : BitVec 20) (a5 : Bool) (s : State) :
    Keeps [.hop, .turn, .skein, .tasks, .trace, .time, .ply, .rows, .brake, .host, .recorder] s (settle s (execTwShi a0 a1 a2 a3 a4 a5 s)) := by
  unfold execTwShi
  with_reducible repeat' first
    | assumption
    | (extract_lets +onlyGivenNames z; revert z; intro y)
    | exact Keeps.rfl
    | refine Keeps.iteO ?_ ?_
    | refine Keeps.ite ?_ ?_
    | refine Keeps.ok ?_
    | apply Keeps.next ?_ (State.aluTrap_keeps _ _ _ _ _ _ _) ?_
    | decide
    | dsimp -zeta only

theorem execTwLui_keeps (a0 : Fin 16) (a1 : Fin 8) (a2 : Fin 32) (a3 : BitVec 20) (s : State) :
    Keeps [.hop, .turn, .skein, .tasks, .trace, .time, .ply, .rows, .brake, .host, .recorder] s (settle s (execTwLui a0 a1 a2 a3 s)) := by
  unfold execTwLui
  with_reducible repeat' first
    | assumption
    | exact Keeps.rfl
    | refine Keeps.ok ?_
    | apply Keeps.next ?_ (State.alu_keeps _ _ _ _ _ _) ?_
    | decide
    | dsimp -zeta only

theorem execTwLds_keeps (a0 : Fin 16) (a1 : Fin 8) (a2 : Fin 32) (a3 : Fin 32) (a4 : BitVec 18) (a5 : Bool) (s : State) :
    Keeps [.tasks, .ply, .host, .recorder] s (settle s (execTwLds a0 a1 a2 a3 a4 a5 s)) := by
  unfold execTwLds
  with_reducible repeat' first
    | assumption
    | exact Keeps.rfl
    | refine Keeps.ok ?_
    | apply Keeps.next ?_ (State.slotRead_keeps _ _ _ _ _ _ _ _) ?_
    | decide
    | dsimp -zeta only

theorem execTwLde_keeps (a0 : Fin 16) (a1 : Fin 8) (a2 : Fin 32) (a3 : Fin 32) (a4 : BitVec 18) (a5 : Bool) (s : State) :
    Keeps [.tasks, .ply, .host, .recorder] s (settle s (execTwLde a0 a1 a2 a3 a4 a5 s)) := by
  unfold execTwLde
  with_reducible repeat' first
    | assumption
    | (extract_lets +onlyGivenNames z; revert z; intro y)
    | exact Keeps.rfl
    | refine Keeps.ok ?_
    | apply Keeps.next ?_ (State.slotRead_keeps _ _ _ _ _ _ _ _) ?_
    | decide
    | dsimp -zeta only

theorem execTwTag_keeps (a0 : Fin 16) (a1 : Fin 8) (a2 : Fin 32) (a3 : Fin 32) (a4 : BitVec 18) (a5 : Bool) (s : State) :
    Keeps [.tasks, .ply, .host, .recorder] s (settle s (execTwTag a0 a1 a2 a3 a4 a5 s)) := by
  unfold execTwTag
  with_reducible repeat' first
    | assumption
    | (extract_lets +onlyGivenNames z; revert z; intro y)
    | exact Keeps.rfl
    | refine Keeps.ok ?_
    | apply Keeps.next ?_ (State.slotRead_keeps _ _ _ _ _ _ _ _) ?_
    | decide
    | dsimp -zeta only

theorem execTwSts_keeps (a0 : Fin 16) (a1 : Fin 8) (a2 : Fin 32) (a3 : Fin 32) (a4 : BitVec 2) (a5 : BitVec 18) (s : State) :
    Keeps [.tasks, .ply, .host, .recorder] s (settle s (execTwSts a0 a1 a2 a3 a4 a5 s)) := by
  unfold execTwSts
  with_reducible repeat' first
    | assumption
    | (extract_lets +onlyGivenNames z; revert z; intro y)
    | exact Keeps.rfl
    | refine Keeps.ok ?_
    | apply State.twist_keeps
    | apply Keeps.next ?_ (State.trapStrand_keeps _ _ _ _ _ _) ?_
    | apply Keeps.next ?_ (State.putStrand_keeps _ _ _ _ _) ?_
    | split
    | decide
    | intro y
    | dsimp -zeta only

theorem execTwWinb_keeps (a0 : Fin 16) (a1 : Fin 8) (a2 : Fin 32) (a3 : Fin 32) (a4 : BitVec 4) (a5 : BitVec 16) (a6 : Bool) (s : State) :
    Keeps [.tasks, .ply, .host, .recorder] s (settle s (execTwWinb a0 a1 a2 a3 a4 a5 a6 s)) := by
  unfold execTwWinb
  with_reducible repeat' first
    | assumption
    | (extract_lets +onlyGivenNames z; revert z; intro y)
    | exact Keeps.rfl
    | refine Keeps.iteO ?_ ?_
    | refine Keeps.ite ?_ ?_
    | refine Keeps.ok ?_
    | refine Keeps.foldl _ _ ?_ ?_
    | apply State.twist_keeps
    | apply Keeps.next ?_ (State.trapStrand_keeps _ _ _ _ _ _) ?_
    | apply Keeps.next ?_ (State.putStrand_keeps _ _ _ _ _) ?_
    | decide
    | intro y
    | dsimp -zeta only

theorem execTwLdw_keeps (a0 : Fin 16) (a1 : Fin 8) (a2 : Fin 32) (a3 : Fin 32) (a4 : BitVec 16) (a5 : Bool) (s : State) :
    Keeps [.tasks, .ply, .host, .recorder] s (settle s (execTwLdw a0 a1 a2 a3 a4 a5 s)) := by
  unfold execTwLdw
  with_reducible repeat' first
    | assumption
    | (extract_lets +onlyGivenNames z
       refine Keeps.let1 z ?_ ?_
       subst z
       rotate_left
       clear_value z
       revert z
       rintro ⟨y, y1⟩ hy
       rotate_left)
    | exact Keeps.rfl
    | refine Keeps.iteO ?_ ?_
    | refine Keeps.ite ?_ ?_
    | refine Keeps.ok ?_
    | refine Keeps.ite1 ?_ ?_
    | (rename (_ : State × _) = _ => heq
       refine Keeps.pair heq ?_ ?_ <;> clear heq
       rotate_left
       intro hy
       rotate_left)
    | apply State.twist_keeps
    | apply Keeps.next ?_ (State.trapStrand_keeps _ _ _ _ _ _) ?_
    | apply Keeps.next ?_ (State.dataAccess_keeps _ _ _ _ _ _ _) ?_
    | apply Keeps.next ?_ (State.putStrand_keeps _ _ _ _ _) ?_
    | split
    | decide
    | intro y
    | dsimp -zeta only

theorem execTwStw_keeps (a0 : Fin 16) (a1 : Fin 8) (a2 : Fin 32) (a3 : Fin 32) (a4 : BitVec 16) (s : State) :
    Keeps [.tasks, .ply, .host, .recorder] s (settle s (execTwStw a0 a1 a2 a3 a4 s)) := by
  unfold execTwStw
  with_reducible repeat' first
    | assumption
    | (extract_lets +onlyGivenNames z
       refine Keeps.let1 z ?_ ?_
       subst z
       rotate_left
       clear_value z
       revert z
       rintro ⟨y, y1⟩ hy
       rotate_left)
    | exact Keeps.rfl
    | refine Keeps.iteO ?_ ?_
    | refine Keeps.ite ?_ ?_
    | refine Keeps.ok ?_
    | refine Keeps.ite1 ?_ ?_
    | (rename (_ : State × _) = _ => heq
       refine Keeps.pair heq ?_ ?_ <;> clear heq
       rotate_left
       intro hy
       rotate_left)
    | apply State.twist_keeps
    | apply Keeps.next ?_ (State.trapStrand_keeps _ _ _ _ _ _) ?_
    | apply Keeps.next ?_ (State.dataAccess_keeps _ _ _ _ _ _ _) ?_
    | apply Keeps.next ?_ (State.putStrand_keeps _ _ _ _ _) ?_
    | split
    | decide
    | intro y
    | dsimp -zeta only

theorem execTwTrd_keeps (a0 : Fin 16) (a1 : Fin 8) (a2 : Fin 32) (a3 : BitVec 4) (s : State) :
    Keeps [.tasks, .ply, .host, .recorder] s (settle s (execTwTrd a0 a1 a2 a3 s)) := by
  unfold execTwTrd
  with_reducible repeat' first
    | assumption
    | exact Keeps.rfl
    | refine Keeps.ok ?_
    | apply State.twist_keeps
    | apply Keeps.next ?_ (State.trapStrand_keeps _ _ _ _ _ _) ?_
    | apply Keeps.next ?_ (State.putStrand_keeps _ _ _ _ _) ?_
    | split
    | decide
    | intro y
    | dsimp -zeta only

theorem execTwLix_keeps (a0 : Fin 16) (a1 : Fin 8) (a2 : Fin 32) (s : State) :
    Keeps [.hop, .turn, .skein, .tasks, .trace, .time, .ply, .rows, .brake, .host, .recorder] s (settle s (execTwLix a0 a1 a2 s)) := by
  unfold execTwLix
  with_reducible repeat' first
    | assumption
    | exact Keeps.rfl
    | refine Keeps.ok ?_
    | apply Keeps.next ?_ (State.alu_keeps _ _ _ _ _ _) ?_
    | decide
    | dsimp -zeta only

theorem execTwLpr_keeps (a0 : Fin 16) (a1 : Fin 8) (a2 : Fin 32) (a3 : Fin 32) (a4 : BitVec 4) (a5 : BitVec 12) (a6 : Bool) (s : State) :
    Keeps [.tasks, .ply, .host, .recorder] s (settle s (execTwLpr a0 a1 a2 a3 a4 a5 a6 s)) := by
  unfold execTwLpr
  with_reducible repeat' first
    | assumption
    | (extract_lets +onlyGivenNames z; revert z; intro y)
    | exact Keeps.rfl
    | refine Keeps.iteO ?_ ?_
    | refine Keeps.ite ?_ ?_
    | refine Keeps.ok ?_
    | apply State.twist_keeps
    | apply Keeps.next ?_ (State.trapStrand_keeps _ _ _ _ _ _) ?_
    | apply Keeps.next ?_ (State.putStrand_keeps _ _ _ _ _) ?_
    | split
    | decide
    | intro y
    | dsimp -zeta only

theorem execTwLpw_keeps (a0 : Fin 16) (a1 : Fin 8) (a2 : Fin 32) (a3 : Fin 32) (a4 : BitVec 4) (a5 : BitVec 12) (s : State) :
    Keeps [.tasks, .ply, .host, .recorder] s (settle s (execTwLpw a0 a1 a2 a3 a4 a5 s)) := by
  unfold execTwLpw
  with_reducible repeat' first
    | assumption
    | (extract_lets +onlyGivenNames z; revert z; intro y)
    | exact Keeps.rfl
    | refine Keeps.iteO ?_ ?_
    | refine Keeps.ite ?_ ?_
    | refine Keeps.ok ?_
    | apply State.twist_keeps
    | apply Keeps.next ?_ (State.trapStrand_keeps _ _ _ _ _ _) ?_
    | apply Keeps.next ?_ (State.putStrand_keeps _ _ _ _ _) ?_
    | split
    | decide
    | intro y
    | dsimp -zeta only

theorem execTwMbq_keeps (a0 : Fin 16) (a1 : Fin 8) (a2 : Fin 32) (a3 : Fin 2) (a4 : Fin 64) (a5 : BitVec 16) (a6 : Bool) (s : State) :
    Keeps [.tasks, .ply, .host, .recorder] s (settle s (execTwMbq a0 a1 a2 a3 a4 a5 a6 s)) := by
  unfold execTwMbq
  with_reducible repeat' first
    | assumption
    | (extract_lets +onlyGivenNames z; revert z; intro y)
    | exact Keeps.rfl
    | refine Keeps.iteO ?_ ?_
    | refine Keeps.ite ?_ ?_
    | refine Keeps.ok ?_
    | apply State.twist_keeps
    | apply Keeps.next ?_ (State.trapStrand_keeps _ _ _ _ _ _) ?_
    | apply Keeps.next ?_ (State.putStrand_keeps _ _ _ _ _) ?_
    | split
    | decide
    | intro y
    | dsimp -zeta only

theorem execTwMbr_keeps (a0 : Fin 16) (a1 : Fin 8) (a2 : Fin 32) (a3 : Fin 2) (a4 : Fin 64) (a5 : BitVec 16) (a6 : Bool) (s : State) :
    Keeps [.tasks, .ply, .host, .mill, .recorder] s (settle s (execTwMbr a0 a1 a2 a3 a4 a5 a6 s)) := by
  unfold execTwMbr
  with_reducible repeat' first
    | assumption
    | (extract_lets +onlyGivenNames z
       refine Keeps.let z ?_ ?_
       subst z
       rotate_left
       clear_value z
       revert z
       intro y hy
       rotate_left)
    | (extract_lets +onlyGivenNames z; revert z; intro y)
    | exact Keeps.rfl
    | refine Keeps.iteO ?_ ?_
    | refine Keeps.ite ?_ ?_
    | refine Keeps.ok ?_
    | apply State.twist_keeps
    | apply Keeps.next ?_ (State.trapStrand_keeps _ _ _ _ _ _) ?_
    | apply Keeps.next ?_ (State.putStrand_keeps _ _ _ _ _) ?_
    | apply Keeps.next ?_ (State.setTask_keeps _ _ _) ?_
    | apply Keeps.next ?_ (State.millRead_keeps _ _ _) ?_
    | split
    | decide
    | intro y
    | dsimp -zeta only

theorem execTwBr_keeps (a0 : Fin 16) (a1 : Fin 8) (a2 : BitVec 4) (a3 : BitVec 16) (s : State) :
    Keeps [.tasks, .ply, .host, .recorder] s (settle s (execTwBr a0 a1 a2 a3 s)) := by
  unfold execTwBr
  with_reducible repeat' first
    | assumption
    | exact Keeps.rfl
    | refine Keeps.iteO ?_ ?_
    | refine Keeps.ite ?_ ?_
    | refine Keeps.ok ?_
    | apply State.twist_keeps
    | apply Keeps.next ?_ (State.trapStrand_keeps _ _ _ _ _ _) ?_
    | apply Keeps.next ?_ (State.putStrand_keeps _ _ _ _ _) ?_
    | split
    | decide
    | intro y
    | dsimp -zeta only

theorem execTwBtag_keeps (a0 : Fin 16) (a1 : Fin 8) (a2 : BitVec 2) (a3 : BitVec 2) (a4 : BitVec 6) (a5 : BitVec 16) (s : State) :
    Keeps [.tasks, .ply, .host, .recorder] s (settle s (execTwBtag a0 a1 a2 a3 a4 a5 s)) := by
  unfold execTwBtag
  with_reducible repeat' first
    | assumption
    | exact Keeps.rfl
    | refine Keeps.iteO ?_ ?_
    | refine Keeps.ite ?_ ?_
    | refine Keeps.ok ?_
    | apply State.twist_keeps
    | apply Keeps.next ?_ (State.putStrand_keeps _ _ _ _ _) ?_
    | decide
    | intro y
    | dsimp -zeta only

theorem execTwLoop_keeps (a0 : Fin 16) (a1 : Fin 8) (a2 : Fin 32) (a3 : BitVec 12) (a4 : BitVec 13) (s : State) :
    Keeps [.tasks, .ply, .host, .recorder] s (settle s (execTwLoop a0 a1 a2 a3 a4 s)) := by
  unfold execTwLoop
  with_reducible repeat' first
    | assumption
    | (extract_lets +onlyGivenNames z; revert z; intro y)
    | exact Keeps.rfl
    | refine Keeps.iteO ?_ ?_
    | refine Keeps.ite ?_ ?_
    | refine Keeps.ok ?_
    | apply State.twist_keeps
    | apply Keeps.next ?_ (State.trapStrand_keeps _ _ _ _ _ _) ?_
    | apply Keeps.next ?_ (State.putStrand_keeps _ _ _ _ _) ?_
    | decide
    | intro y
    | dsimp -zeta only

theorem execTwCall_keeps (a0 : Fin 16) (a1 : Fin 8) (a2 : BitVec 16) (s : State) :
    Keeps [.tasks, .ply, .host, .recorder] s (settle s (execTwCall a0 a1 a2 s)) := by
  unfold execTwCall
  with_reducible repeat' first
    | assumption
    | exact Keeps.rfl
    | refine Keeps.iteO ?_ ?_
    | refine Keeps.ite ?_ ?_
    | refine Keeps.ok ?_
    | apply State.twist_keeps
    | apply Keeps.next ?_ (State.trapStrand_keeps _ _ _ _ _ _) ?_
    | apply Keeps.next ?_ (State.putStrand_keeps _ _ _ _ _) ?_
    | decide
    | intro y
    | dsimp -zeta only

theorem execTwRet_keeps (a0 : Fin 16) (a1 : Fin 8) (s : State) :
    Keeps [.tasks, .ply, .host, .recorder] s (settle s (execTwRet a0 a1 s)) := by
  unfold execTwRet
  with_reducible repeat' first
    | assumption
    | exact Keeps.rfl
    | refine Keeps.ok ?_
    | apply State.twist_keeps
    | apply Keeps.next ?_ (State.trapStrand_keeps _ _ _ _ _ _) ?_
    | apply Keeps.next ?_ (State.putStrand_keeps _ _ _ _ _) ?_
    | split
    | decide
    | intro y
    | dsimp -zeta only

theorem execTwEnd_keeps (a0 : Fin 16) (a1 : Fin 8) (s : State) :
    Keeps [.tasks, .ply, .host, .recorder] s (settle s (execTwEnd a0 a1 s)) := by
  unfold execTwEnd
  with_reducible repeat' first
    | assumption
    | (extract_lets +onlyGivenNames z
       refine Keeps.let z ?_ ?_
       subst z
       rotate_left
       clear_value z
       revert z
       intro y hy
       rotate_left)
    | (extract_lets +onlyGivenNames z; revert z; intro y)
    | exact Keeps.rfl
    | refine Keeps.iteO ?_ ?_
    | refine Keeps.ite ?_ ?_
    | refine Keeps.ok ?_
    | apply State.twist_keeps
    | apply Keeps.next ?_ (State.setInst_keeps _ _ _) ?_
    | apply Keeps.next ?_ (State.dispatchSpindles_keeps _) ?_
    | refine Keeps.upd ?_ List.prefix_rfl (Nat.le_refl _) id (fun p hp => by cases p <;> first | rfl | exact absurd (by decide) hp)
    | decide
    | intro y
    | dsimp -zeta only

theorem execTwTrap_keeps (a0 : Fin 16) (a1 : Fin 8) (a2 : BitVec 8) (s : State) :
    Keeps [.tasks, .ply, .host, .recorder] s (settle s (execTwTrap a0 a1 a2 s)) := by
  unfold execTwTrap
  with_reducible repeat' first
    | assumption
    | exact Keeps.rfl
    | refine Keeps.ok ?_
    | apply State.twist_keeps
    | apply Keeps.next ?_ (State.trapStrand_keeps _ _ _ _ _ _) ?_
    | decide
    | intro y
    | dsimp -zeta only

theorem execTwNop_keeps (a0 : Fin 16) (a1 : Fin 8) (s : State) :
    Keeps [.hop, .turn, .skein, .tasks, .trace, .time, .ply, .rows, .brake, .host, .recorder] s (settle s (execTwNop a0 a1 s)) := by
  unfold execTwNop
  with_reducible repeat' first
    | assumption
    | exact Keeps.rfl
    | refine Keeps.ok ?_
    | apply Keeps.next ?_ (State.alu_keeps _ _ _ _ _ _) ?_
    | decide
    | dsimp -zeta only

theorem execUndefinedEncodingReached_keeps (a0 : Fin 16) (a1 : Fin 8) (a2 : Bool) (s : State) :
    Keeps [.tasks, .ply, .host, .recorder] s (settle s (execUndefinedEncodingReached a0 a1 a2 s)) := by
  unfold execUndefinedEncodingReached
  with_reducible repeat' first
    | assumption
    | exact Keeps.rfl
    | refine Keeps.iteO ?_ ?_
    | refine Keeps.ite ?_ ?_
    | refine Keeps.ok ?_
    | apply State.twistIf_keeps
    | apply Keeps.next ?_ (State.trapStrand_keeps _ _ _ _ _ _) ?_
    | decide
    | intro y
    | dsimp -zeta only

theorem State.finishLoad_keeps (s : State) (a1 : Nat) (a2 : Nat) (a3 : Nat) :
    Keeps [.host, .recorder] s (State.finishLoad s a1 a2 a3) := by
  unfold State.finishLoad
  with_reducible repeat' first
    | assumption
    | exact Keeps.rfl
    | apply Keeps.next ?_ (State.finish_keeps _ _ _ _ _ _) ?_
    | decide
    | dsimp -zeta only

theorem execProgVerifyDone_keeps (a0 : Fin 16) (s : State) :
    Keeps [.progs, .host, .recorder] s (settle s (execProgVerifyDone a0 s)) := by
  unfold execProgVerifyDone
  with_reducible repeat' first
    | assumption
    | (extract_lets +onlyGivenNames z
       refine Keeps.let z ?_ ?_
       subst z
       rotate_left
       clear_value z
       revert z
       intro y hy
       rotate_left)
    | (extract_lets +onlyGivenNames z; revert z; intro y)
    | exact Keeps.rfl
    | refine Keeps.iteO ?_ ?_
    | refine Keeps.ite ?_ ?_
    | refine Keeps.ok ?_
    | apply Keeps.next ?_ (State.wr_keeps _ _ _) ?_
    | apply Keeps.next ?_ (State.finishLoad_keeps _ _ _ _) ?_
    | split
    | refine Keeps.upd ?_ List.prefix_rfl (Nat.le_refl _) id (fun p hp => by cases p <;> first | rfl | exact absurd (by decide) hp)
    | decide
    | dsimp -zeta only

theorem State.skCount_keeps (s : State) (a1 : Nat) (a2 : Nat) :
    Keeps [] s (State.skCount s a1 a2) := by
  unfold State.skCount
  with_reducible repeat' first
    | assumption
    | exact Keeps.rfl
    | apply Keeps.next ?_ (State.inc_keeps _ _) ?_
    | decide
    | dsimp -zeta only

theorem State.skSealBad_keeps (s : State) (a1 : Nat) :
    Keeps [.host, .recorder] s (State.skSealBad s a1) := by
  unfold State.skSealBad
  with_reducible repeat' first
    | assumption
    | exact Keeps.rfl
    | apply Keeps.next ?_ (State.skEvt_keeps _ _ _) ?_
    | apply Keeps.next ?_ (State.skCount_keeps _ _ _) ?_
    | decide
    | dsimp -zeta only

theorem State.setStn_keeps (s : State) (a1 : Nat) (a2 : Nat) (a3 : Option Nat) :
    Keeps [.host, .recorder] s (State.setStn s a1 a2 a3) := by
  unfold State.setStn
  with_reducible repeat' first
    | assumption
    | (extract_lets +onlyGivenNames z
       refine Keeps.let z ?_ ?_
       subst z
       rotate_left
       clear_value z
       revert z
       intro y hy
       rotate_left)
    | exact Keeps.rfl
    | apply Keeps.next ?_ (State.wr_keeps _ _ _) ?_
    | apply Keeps.next ?_ (State.skEvt_keeps _ _ _) ?_
    | split
    | decide
    | dsimp -zeta only

theorem State.laneDown_keeps (s : State) (a1 : Nat) (a2 : Nat) :
    Keeps [.host, .recorder] s (State.laneDown s a1 a2) := by
  unfold State.laneDown
  with_reducible repeat' first
    | assumption
    | (extract_lets +onlyGivenNames z
       refine Keeps.let z ?_ ?_
       subst z
       rotate_left
       clear_value z
       revert z
       intro y hy
       rotate_left)
    | (extract_lets +onlyGivenNames z; revert z; intro y)
    | exact Keeps.rfl
    | refine Keeps.ite ?_ ?_
    | apply Keeps.next ?_ (State.wr_keeps _ _ _) ?_
    | apply Keeps.next ?_ (State.skEvt_keeps _ _ _) ?_
    | decide
    | dsimp -zeta only

theorem State.chainReg_keeps (s : State) (a1 : Nat) :
    Keeps [] s (State.chainReg s a1) := by
  unfold State.chainReg
  with_reducible repeat' first
    | assumption
    | exact Keeps.rfl
    | refine Keeps.ite ?_ ?_
    | apply Keeps.next ?_ (State.wr_keeps _ _ _) ?_
    | decide
    | dsimp -zeta only

theorem State.skClass_keeps (s : State) (a1 : Nat) (a2 : Nat) (a3 : Nat) :
    Keeps [.skein] s (State.skClass s a1 a2 a3).1 := by
  unfold State.skClass
  dsimp only
  split
  · exact State.skCount_keeps _ _ _ |>.next' (by decide)
  · refine Keeps.upd (Keeps.ite ?_ Keeps.rfl) List.prefix_rfl (Nat.le_refl _) id (fun p hp => by cases p <;> first | rfl | exact absurd (by decide) hp)
    exact State.skCount_keeps _ _ _ |>.next' (by decide)

theorem State.stnHeard_keeps (s : State) (a1 : Nat) (a2 : Bool) :
    Keeps [.skein, .host, .recorder] s (State.stnHeard s a1 a2) := by
  unfold State.stnHeard
  with_reducible repeat' first
    | assumption
    | (extract_lets +onlyGivenNames z
       refine Keeps.let z ?_ ?_
       subst z
       rotate_left
       clear_value z
       revert z
       intro y hy
       rotate_left)
    | (extract_lets +onlyGivenNames z; revert z; intro y)
    | exact Keeps.rfl
    | refine Keeps.ite ?_ ?_
    | apply Keeps.next ?_ (State.setPosn_keeps _ _ _) ?_
    | apply Keeps.next ?_ (State.setStn_keeps _ _ _ _) ?_
    | split
    | decide
    | dsimp -zeta only

theorem State.takeInputFrame_keeps (s : State) (a1 : Nat) (a2 : Bool) (a3 : Bytes) :
    Keeps [.image, .skein, .ply, .host, .recorder] s (State.takeInputFrame s a1 a2 a3) := by
  unfold State.takeInputFrame
  with_reducible repeat' first
    | assumption
    | (extract_lets +onlyGivenNames z
       refine Keeps.let z ?_ ?_
       subst z
       rotate_left
       clear_value z
       revert z
       intro y hy
       rotate_left)
    | (extract_lets +onlyGivenNames z; revert z; intro y)
    | exact Keeps.rfl
    | refine Keeps.ite ?_ ?_
    | refine Keeps.ite1 ?_ ?_
    | (rename (_ : State × _) = _ => heq
       refine Keeps.pair heq ?_ ?_ <;> clear heq
       rotate_left
       intro hy
       rotate_left)
    | apply Keeps.next ?_ (State.skSealBad_keeps _ _) ?_
    | apply Keeps.next ?_ (State.emit_keeps _ _) ?_
    | apply Keeps.next ?_ (State.inc_keeps _ _) ?_
    | apply Keeps.next ?_ (State.skCount_keeps _ _ _) ?_
    | apply Keeps.next ?_ (State.skEvt_keeps _ _ _) ?_
    | apply Keeps.next ?_ (State.wr_keeps _ _ _) ?_
    | apply Keeps.next ?_ (State.skClass_keeps _ _ _ _) ?_
    | apply Keeps.next ?_ (State.stnHeard_keeps _ _ _) ?_
    | apply Keeps.next ?_ (State.sendPly_keeps _ _ _ _) ?_
    | apply Keeps.next ?_ (State.storeInput_keeps _ _ _) ?_
    | split
    | refine Keeps.upd ?_ List.prefix_rfl (Nat.le_refl _) id (fun p hp => by cases p <;> first | rfl | exact absurd (by decide) hp)
    | decide
    | dsimp -zeta only

theorem State.takeCrossed_keeps (s : State) (a1 : Nat) (a2 : Bytes) :
    Keeps [.skein, .ply, .host, .recorder] s (State.takeCrossed s a1 a2) := by
  unfold State.takeCrossed
  with_reducible repeat' first
    | assumption
    | (extract_lets +onlyGivenNames z; revert z; intro y)
    | exact Keeps.rfl
    | refine Keeps.ite ?_ ?_
    | refine Keeps.ite1 ?_ ?_
    | (rename (_ : State × _) = _ => heq
       refine Keeps.pair heq ?_ ?_ <;> clear heq
       rotate_left
       intro hy
       rotate_left)
    | apply Keeps.next ?_ (State.skSealBad_keeps _ _) ?_
    | apply Keeps.next ?_ (State.skCount_keeps _ _ _) ?_
    | apply Keeps.next ?_ (State.hearEpoch_keeps _ _) ?_
    | apply Keeps.next ?_ (State.skClass_keeps _ _ _ _) ?_
    | decide
    | dsimp -zeta only

theorem State.takeJoin_keeps (s : State) (a1 : Nat) (a2 : Bytes) :
    Keeps [.skein, .host, .recorder] s (State.takeJoin s a1 a2) := by
  unfold State.takeJoin
  with_reducible repeat' first
    | assumption
    | (extract_lets +onlyGivenNames z
       refine Keeps.let z ?_ ?_
       subst z
       rotate_left
       clear_value z
       revert z
       intro y hy
       rotate_left)
    | (extract_lets +onlyGivenNames z; revert z; intro y)
    | exact Keeps.rfl
    | refine Keeps.ite ?_ ?_
    | apply Keeps.next ?_ (State.skSealBad_keeps _ _) ?_
    | apply Keeps.next ?_ (State.skCount_keeps _ _ _) ?_
    | apply Keeps.next ?_ (State.wr_keeps _ _ _) ?_
    | apply Keeps.next ?_ (State.setStn_keeps _ _ _ _) ?_
    | apply Keeps.next ?_ (State.setPosn_keeps _ _ _) ?_
    | split
    | refine Keeps.upd ?_ List.prefix_rfl (Nat.le_refl _) id (fun p hp => by cases p <;> first | rfl | exact absurd (by decide) hp)
    | decide
    | dsimp -zeta only

theorem State.delays_keeps (s : State) (a1 : Nat) :
    Keeps [] s (State.delays s a1).1 := by
  unfold State.delays
  with_reducible repeat' first
    | assumption
    | (extract_lets +onlyGivenNames z
       refine Keeps.let z ?_ ?_
       subst z
       rotate_left
       clear_value z
       revert z
       intro y hy
       rotate_left)
    | (extract_lets +onlyGivenNames z
       refine Keeps.let1 z ?_ ?_
       subst z
       rotate_left
       clear_value z
       revert z
       rintro ⟨y, y1⟩ hy
       rotate_left)
    | (extract_lets +onlyGivenNames z; revert z; intro y)
    | exact Keeps.rfl
    | refine Keeps.ite ?_ ?_
    | refine Keeps.ite1 ?_ ?_
    | (rename (_ : State × _) = _ => heq
       refine Keeps.pair heq ?_ ?_ <;> clear heq
       rotate_left
       intro hy
       rotate_left)
    | apply Keeps.next ?_ (State.free_keeps _) ?_
    | decide
    | dsimp -zeta only

theorem State.sendSetup_keeps (s : State) (a1 : Nat) :
    Keeps [.skein] s (State.sendSetup s a1) := by
  have hd := State.delays_keeps s a1
  unfold State.sendSetup
  dsimp only
  split
  · exact Keeps.rfl
  · exact (((hd.next' (by decide)).next (State.setPosn_keeps _ _ _) (by decide)).next (State.setPort_keeps _ _ _) (by decide)).next (State.wr_keeps _ _ _) (by decide)
      |>.next (State.launchSkein_keeps _ _ _ _ _ _ _ _ _) (by decide)

theorem State.proxyReg_keeps (s : State) (a1 : Nat) :
    Keeps [] s (State.proxyReg s a1) := by
  unfold State.proxyReg
  with_reducible repeat' first
    | assumption
    | exact Keeps.rfl
    | apply Keeps.next ?_ (State.wrb_keeps _ _ _) ?_
    | decide
    | dsimp -zeta only

theorem State.trial_keeps (s : State) (a1 : RegMap) :
    Keeps [.settings, .hop, .programs, .progs] s (State.trial s a1) := by
  unfold State.trial
  with_reducible repeat' first
    | assumption
    | (extract_lets +onlyGivenNames z; revert z; intro y)
    | exact Keeps.rfl
    | refine Keeps.upd ?_ List.prefix_rfl (Nat.le_refl _) id (fun p hp => by cases p <;> first | rfl | exact absurd (by decide) hp)
    | decide
    | dsimp -zeta only

theorem State.retime_keeps (s : State) (a1 : Nat) (a2 : RegMap) (a3 : RegMap) :
    Keeps [.turn, .tasks] s (State.retime s a1 a2 a3) := by
  unfold State.retime
  with_reducible repeat' first
    | assumption
    | (extract_lets +onlyGivenNames z
       refine Keeps.let z ?_ ?_
       subst z
       rotate_left
       clear_value z
       revert z
       intro y hy
       rotate_left)
    | (extract_lets +onlyGivenNames z; revert z; intro y)
    | exact Keeps.rfl
    | apply Keeps.next ?_ (State.originRegs_keeps _) ?_
    | refine Keeps.upd ?_ List.prefix_rfl (Nat.le_refl _) id (fun p hp => by cases p <;> first | rfl | exact absurd (by decide) hp)
    | decide
    | dsimp -zeta only

theorem State.progRegs_keeps (s : State) (a1 : Nat) :
    Keeps [] s (State.progRegs s a1) := by
  unfold State.progRegs
  with_reducible repeat' first
    | assumption
    | (extract_lets +onlyGivenNames z
       refine Keeps.let z ?_ ?_
       subst z
       rotate_left
       clear_value z
       revert z
       intro y hy
       rotate_left)
    | exact Keeps.rfl
    | apply Keeps.next ?_ (State.wr_keeps _ _ _) ?_
    | split
    | decide
    | dsimp -zeta only

theorem State.swapProg_keeps (s : State) (a1 : Nat) :
    Keeps [.programs, .progs] s (State.swapProg s a1) := by
  unfold State.swapProg
  with_reducible repeat' first
    | assumption
    | (extract_lets +onlyGivenNames z
       refine Keeps.let z ?_ ?_
       subst z
       rotate_left
       clear_value z
       revert z
       intro y hy
       rotate_left)
    | (extract_lets +onlyGivenNames z; revert z; intro y)
    | exact Keeps.rfl
    | refine Keeps.ite ?_ ?_
    | apply Keeps.next ?_ (State.wr_keeps _ _ _) ?_
    | apply Keeps.next ?_ (State.progRegs_keeps _ _) ?_
    | split
    | refine Keeps.upd ?_ List.prefix_rfl (Nat.le_refl _) id (fun p hp => by cases p <;> first | rfl | exact absurd (by decide) hp)
    | decide
    | dsimp -zeta only

theorem State.commitTask_keeps (s : State) (a1 : Nat) (a2 : RegMap) (a3 : SMap Bytes) (a4 : Nat) :
    Keeps [.tasks] s (State.commitTask s a1 a2 a3 a4) := by
  unfold State.commitTask
  with_reducible repeat' first
    | assumption
    | (extract_lets +onlyGivenNames z
       refine Keeps.let z ?_ ?_
       subst z
       rotate_left
       clear_value z
       revert z
       intro y hy
       rotate_left)
    | (extract_lets +onlyGivenNames z; revert z; intro y)
    | exact Keeps.rfl
    | refine Keeps.ite ?_ ?_
    | apply Keeps.next ?_ (State.setTask_keeps _ _ _) ?_
    | apply Keeps.next ?_ (State.wr_keeps _ _ _) ?_
    | apply Keeps.next ?_ (State.startTask_keeps _ _ _) ?_
    | split
    | decide
    | dsimp -zeta only

theorem State.changeWriters_keeps (s : State) (a1 : Nat) (a2 : RegMap) (a3 : SMap Bytes) :
    Keeps [.image] s (State.changeWriters s a1 a2 a3) := by
  unfold State.changeWriters
  with_reducible repeat' first
    | assumption
    | (extract_lets +onlyGivenNames z; revert z; intro y)
    | exact Keeps.rfl
    | refine Keeps.upd ?_ List.prefix_rfl (Nat.le_refl _) id (fun p hp => by cases p <;> first | rfl | exact absurd (by decide) hp)
    | decide
    | dsimp -zeta only

theorem State.commitLoop_keeps (s : State) (a1 : Nat) (a2 : RegMap) (a3 : Nat) :
    Keeps [.loops] s (State.commitLoop s a1 a2 a3) := by
  unfold State.commitLoop
  with_reducible repeat' first
    | assumption
    | (extract_lets +onlyGivenNames z; revert z; intro y)
    | exact Keeps.rfl
    | refine Keeps.ite ?_ ?_
    | refine Keeps.upd ?_ List.prefix_rfl (Nat.le_refl _) id (fun p hp => by cases p <;> first | rfl | exact absurd (by decide) hp)
    | decide
    | dsimp -zeta only

theorem State.commitPort_keeps (s : State) (a1 : RegMap) (a2 : Nat) :
    Keeps [.host, .recorder] s (State.commitPort s a1 a2) := by
  unfold State.commitPort
  with_reducible repeat' first
    | assumption
    | (extract_lets +onlyGivenNames z
       refine Keeps.let z ?_ ?_
       subst z
       rotate_left
       clear_value z
       revert z
       intro y hy
       rotate_left)
    | (extract_lets +onlyGivenNames z; revert z; intro y)
    | exact Keeps.rfl
    | refine Keeps.ite ?_ ?_
    | apply Keeps.next ?_ (State.laneDown_keeps _ _ _) ?_
    | apply Keeps.next ?_ (State.wr_keeps _ _ _) ?_
    | apply Keeps.next ?_ (State.chainReg_keeps _ _) ?_
    | decide
    | dsimp -zeta only

theorem State.commitStation_keeps (s : State) (a1 : RegMap) (a2 : Nat) :
    Keeps [.host, .recorder] s (State.commitStation s a1 a2) := by
  unfold State.commitStation
  with_reducible repeat' first
    | assumption
    | (extract_lets +onlyGivenNames z; revert z; intro y)
    | exact Keeps.rfl
    | refine Keeps.ite ?_ ?_
    | apply Keeps.next ?_ (State.setStn_keeps _ _ _ _) ?_
    | decide
    | dsimp -zeta only

theorem State.commitStations_keeps (s : State) (a1 : RegMap) :
    Keeps [.host, .recorder] s (State.commitStations s a1) := by
  unfold State.commitStations
  with_reducible repeat' first
    | assumption
    | exact Keeps.rfl
    | refine Keeps.foldl _ _ ?_ ?_
    | apply Keeps.next ?_ (State.commitStation_keeps _ _ _) ?_
    | apply Keeps.next ?_ (State.commitPort_keeps _ _ _) ?_
    | decide
    | intro y
    | dsimp -zeta only

theorem State.budgetRegs_keeps (s : State) :
    Keeps [] s (State.budgetRegs s) := by
  unfold State.budgetRegs
  with_reducible repeat' first
    | assumption
    | exact Keeps.rfl
    | refine Keeps.foldl _ _ ?_ ?_
    | apply Keeps.next ?_ (State.wr_keeps _ _ _) ?_
    | decide
    | intro y
    | dsimp -zeta only

theorem State.commitBrakes_keeps (s : State) (a1 : RegMap) :
    Keeps [.skein, .trace, .time, .rows, .brake, .host, .recorder] s (State.commitBrakes s a1) := by
  unfold State.commitBrakes
  with_reducible repeat' first
    | assumption
    | (extract_lets +onlyGivenNames z
       refine Keeps.let z ?_ ?_
       subst z
       rotate_left
       clear_value z
       revert z
       intro y hy
       rotate_left)
    | (extract_lets +onlyGivenNames z; revert z; intro y)
    | exact Keeps.rfl
    | refine Keeps.ite ?_ ?_
    | refine Keeps.foldl _ _ ?_ ?_
    | apply Keeps.next ?_ (State.setRow_keeps _ _ _) ?_
    | apply Keeps.next ?_ (State.evalMatrix_keeps _) ?_
    | refine Keeps.upd ?_ List.prefix_rfl (Nat.le_refl _) id (fun p hp => by cases p <;> first | rfl | exact absurd (by decide) hp)
    | decide
    | intro y
    | dsimp -zeta only

theorem State.commitChannel_keeps (s : State) (a1 : RegMap) (a2 : Nat) :
    Keeps [] s (State.commitChannel s a1 a2) := by
  unfold State.commitChannel
  with_reducible repeat' first
    | assumption
    | (extract_lets +onlyGivenNames z
       refine Keeps.let z ?_ ?_
       subst z
       rotate_left
       clear_value z
       revert z
       intro y hy
       rotate_left)
    | (extract_lets +onlyGivenNames z; revert z; intro y)
    | exact Keeps.rfl
    | refine Keeps.ite ?_ ?_
    | apply Keeps.next ?_ (State.wr_keeps _ _ _) ?_
    | decide
    | dsimp -zeta only

theorem State.commitLoss_keeps (s : State) :
    Keeps [.image, .skein, .trace, .time, .rows, .brake, .host, .recorder] s (State.commitLoss s) := by
  unfold State.commitLoss
  with_reducible repeat' first
    | assumption
    | (extract_lets +onlyGivenNames z
       refine Keeps.let z ?_ ?_
       subst z
       rotate_left
       clear_value z
       revert z
       intro y hy
       rotate_left)
    | (extract_lets +onlyGivenNames z; revert z; intro y)
    | exact Keeps.rfl
    | refine Keeps.ite ?_ ?_
    | apply Keeps.next ?_ (State.lossRows_keeps _) ?_
    | refine Keeps.upd ?_ List.prefix_rfl (Nat.le_refl _) id (fun p hp => by cases p <;> first | rfl | exact absurd (by decide) hp)
    | decide
    | dsimp -zeta only

theorem State.settingRegs_keeps (s : State) :
    Keeps [] s (State.settingRegs s) := by
  unfold State.settingRegs
  with_reducible repeat' first
    | assumption
    | (extract_lets +onlyGivenNames z
       refine Keeps.let z ?_ ?_
       subst z
       rotate_left
       clear_value z
       revert z
       intro y hy
       rotate_left)
    | exact Keeps.rfl
    | refine Keeps.ite ?_ ?_
    | refine Keeps.foldl _ _ ?_ ?_
    | apply Keeps.next ?_ (State.wr_keeps _ _ _) ?_
    | apply Keeps.next ?_ (State.budgetRegs_keeps _) ?_
    | decide
    | intro y
    | dsimp -zeta only

theorem State.applyCommit_keeps (s : State) (a1 : CommitImage) :
    Keeps [.settings, .staged, .hop, .programs, .progs, .image, .turn, .skein, .tasks, .loops, .trace, .ring, .time, .ply, .rows, .brake, .host, .recorder] s (State.applyCommit s a1) := by
  unfold State.applyCommit
  with_reducible repeat' first
    | assumption
    | (extract_lets +onlyGivenNames z
       refine Keeps.let z ?_ ?_
       subst z
       rotate_left
       clear_value z
       revert z
       intro y hy
       rotate_left)
    | (extract_lets +onlyGivenNames z; subst z)
    | exact Keeps.rfl
    | refine Keeps.ite ?_ ?_
    | refine Keeps.foldl _ _ ?_ ?_
    | apply Keeps.next ?_ (State.retime_keeps _ _ _ _) ?_
    | apply Keeps.next ?_ (State.swapProg_keeps _ _) ?_
    | apply Keeps.next ?_ (State.wr_keeps _ _ _) ?_
    | apply Keeps.next ?_ (State.commitTask_keeps _ _ _ _ _) ?_
    | apply Keeps.next ?_ (State.changeWriters_keeps _ _ _ _) ?_
    | apply Keeps.next ?_ (State.commitLoop_keeps _ _ _ _) ?_
    | apply Keeps.next ?_ (State.commitStations_keeps _ _) ?_
    | apply Keeps.next ?_ (State.commitChannel_keeps _ _ _) ?_
    | apply Keeps.next ?_ (State.commitBrakes_keeps _ _) ?_
    | apply Keeps.next ?_ (State.commitLoss_keeps _) ?_
    | apply Keeps.next ?_ (State.rebuildPayloads_keeps _) ?_
    | apply Keeps.next ?_ (State.checkBypass_keeps _) ?_
    | apply Keeps.next ?_ (State.settingRegs_keeps _) ?_
    | apply Keeps.next ?_ (State.switchDomain_keeps _) ?_
    | apply Keeps.next ?_ (State.autoSwitch_keeps _) ?_
    | apply Keeps.next ?_ (State.inc_keeps _ _) ?_
    | apply Keeps.next ?_ (State.hopState_keeps _) ?_
    | apply Keeps.next ?_ (State.restage_keeps _) ?_
    | refine Keeps.upd ?_ List.prefix_rfl (Nat.le_refl _) id (fun p hp => by cases p <;> first | rfl | exact absurd (by decide) hp)
    | decide
    | intro y
    | dsimp -zeta only

theorem State.cutImage_keeps (s : State) :
    Keeps [.settingsMram, .hop] s (State.cutImage s) := by
  unfold State.cutImage
  with_reducible repeat' first
    | assumption
    | (extract_lets +onlyGivenNames z; revert z; intro y)
    | exact Keeps.rfl
    | refine Keeps.ite ?_ ?_
    | refine Keeps.upd ?_ List.prefix_rfl (Nat.le_refl _) id (fun p hp => by cases p <;> first | rfl | exact absurd (by decide) hp)
    | decide
    | dsimp -zeta only

theorem State.restoreImage_keeps (s : State) :
    Keeps [.settings, .staged, .hop, .programs, .progs, .brake] s (State.restoreImage s) := by
  unfold State.restoreImage
  with_reducible repeat' first
    | assumption
    | (extract_lets +onlyGivenNames z
       refine Keeps.let z ?_ ?_
       subst z
       rotate_left
       clear_value z
       revert z
       intro y hy
       rotate_left)
    | (extract_lets +onlyGivenNames z; revert z; intro y)
    | exact Keeps.rfl
    | refine Keeps.foldl _ _ ?_ ?_
    | apply Keeps.next ?_ (State.wr_keeps _ _ _) ?_
    | apply Keeps.next ?_ (State.progRegs_keeps _ _) ?_
    | apply Keeps.next ?_ (State.wrb_keeps _ _ _) ?_
    | apply Keeps.next ?_ (State.rebuildPayloads_keeps _) ?_
    | apply Keeps.next ?_ (State.hopState_keeps _) ?_
    | apply Keeps.next ?_ (State.restage_keeps _) ?_
    | apply Keeps.next ?_ (State.settingRegs_keeps _) ?_
    | refine Keeps.upd ?_ List.prefix_rfl (Nat.le_refl _) id (fun p hp => by cases p <;> first | rfl | exact absurd (by decide) hp)
    | decide
    | intro y
    | dsimp -zeta only

theorem State.errState_keeps (s : State) (a1 : Nat) :
    Keeps [.host, .recorder] s (State.errState s a1) := by
  unfold State.errState
  with_reducible repeat' first
    | assumption
    | (extract_lets +onlyGivenNames z
       refine Keeps.let z ?_ ?_
       subst z
       rotate_left
       clear_value z
       revert z
       intro y hy
       rotate_left)
    | (extract_lets +onlyGivenNames z; revert z; intro y)
    | exact Keeps.rfl
    | refine Keeps.ite ?_ ?_
    | apply Keeps.next ?_ (State.wr_keeps _ _ _) ?_
    | apply Keeps.next ?_ (State.millEvt_keeps _ _ _) ?_
    | decide
    | dsimp -zeta only

theorem State.recDown_keeps (s : State) (a1 : Nat) :
    Keeps [.host, .recorder] s (State.recDown s a1) := by
  unfold State.recDown
  with_reducible repeat' first
    | assumption
    | (extract_lets +onlyGivenNames z
       refine Keeps.let1 z ?_ ?_
       subst z
       rotate_left
       clear_value z
       revert z
       rintro ⟨y, y1⟩ hy
       rotate_left)
    | (extract_lets +onlyGivenNames z; revert z; intro y)
    | exact Keeps.rfl
    | refine Keeps.ite ?_ ?_
    | refine Keeps.ite1 ?_ ?_
    | (rename (_ : State × _) = _ => heq
       refine Keeps.pair heq ?_ ?_ <;> clear heq
       rotate_left
       intro hy
       rotate_left)
    | apply Keeps.next ?_ (State.wr_keeps _ _ _) ?_
    | apply Keeps.next ?_ (State.free_keeps _) ?_
    | apply Keeps.next ?_ (State.errState_keeps _ _) ?_
    | decide
    | dsimp -zeta only

theorem State.showBuf_keeps (s : State) (a1 : Nat) :
    Keeps [] s (State.showBuf s a1) := by
  unfold State.showBuf
  with_reducible repeat' first
    | assumption
    | (extract_lets +onlyGivenNames z
       refine Keeps.let z ?_ ?_
       subst z
       rotate_left
       clear_value z
       revert z
       intro y hy
       rotate_left)
    | (extract_lets +onlyGivenNames z; revert z; intro y)
    | exact Keeps.rfl
    | refine Keeps.ite ?_ ?_
    | refine Keeps.foldl _ _ ?_ ?_
    | apply Keeps.next ?_ (State.wr_keeps _ _ _) ?_
    | apply Keeps.next ?_ (State.wrb_keeps _ _ _) ?_
    | decide
    | intro y
    | dsimp -zeta only

theorem State.endLock_keeps (s : State) (a1 : Nat) (a2 : Bool) :
    Keeps [.mill] s (State.endLock s a1 a2) := by
  unfold State.endLock
  with_reducible repeat' first
    | assumption
    | (extract_lets +onlyGivenNames z
       refine Keeps.let z ?_ ?_
       subst z
       rotate_left
       clear_value z
       revert z
       intro y hy
       rotate_left)
    | (extract_lets +onlyGivenNames z; revert z; intro y)
    | exact Keeps.rfl
    | refine Keeps.ite ?_ ?_
    | apply Keeps.next ?_ (State.setMillCh_keeps _ _ _) ?_
    | apply Keeps.next ?_ (State.setMillBuf_keeps _ _ _ _) ?_
    | apply Keeps.next ?_ (State.showBuf_keeps _ _) ?_
    | apply Keeps.next ?_ (State.wr_keeps _ _ _) ?_
    | split
    | decide
    | dsimp -zeta only

theorem execMbRdSelWrite_keeps (a0 : Fin 2) (a1 : Word32) (s : State) :
    Keeps [.mill] s (settle s (execMbRdSelWrite a0 a1 s)) := by
  unfold execMbRdSelWrite
  with_reducible repeat' first
    | assumption
    | exact Keeps.rfl
    | refine Keeps.iteO ?_ ?_
    | refine Keeps.ite ?_ ?_
    | refine Keeps.ok ?_
    | apply Keeps.next ?_ (State.showBuf_keeps _ _) ?_
    | apply Keeps.next ?_ (State.wr_keeps _ _ _) ?_
    | apply Keeps.next ?_ (State.endLock_keeps _ _ _) ?_
    | decide
    | dsimp -zeta only

theorem State.lockWindow_keeps (s : State) (a1 : Nat) :
    Keeps [.mill] s (State.lockWindow s a1).1 := by
  unfold State.lockWindow
  with_reducible repeat' first
    | assumption
    | (extract_lets +onlyGivenNames z
       refine Keeps.let z ?_ ?_
       subst z
       rotate_left
       clear_value z
       revert z
       intro y hy
       rotate_left)
    | (extract_lets +onlyGivenNames z; revert z; intro y)
    | exact Keeps.rfl
    | refine Keeps.ite ?_ ?_
    | refine Keeps.ite1 ?_ ?_
    | apply Keeps.next ?_ (State.showBuf_keeps _ _) ?_
    | apply Keeps.next ?_ (State.millRead_keeps _ _ _) ?_
    | apply Keeps.next ?_ (State.wr_keeps _ _ _) ?_
    | apply Keeps.next ?_ (State.setMillCh_keeps _ _ _) ?_
    | decide
    | dsimp -zeta only

theorem State.freeWindow_keeps (s : State) (a1 : Nat) :
    Keeps [.mill] s (State.freeWindow s a1).1 := by
  unfold State.freeWindow
  with_reducible repeat' first
    | assumption
    | exact Keeps.rfl
    | refine Keeps.ite ?_ ?_
    | refine Keeps.ite1 ?_ ?_
    | apply Keeps.next ?_ (State.endLock_keeps _ _ _) ?_
    | decide
    | dsimp -zeta only

theorem execMbRdIdRead_keeps (a0 : Fin 2) (s : State) :
    Keeps [.host, .mill, .recorder] s (settle s (execMbRdIdRead a0 s)) := by
  unfold execMbRdIdRead
  with_reducible repeat' first
    | assumption
    | exact Keeps.rfl
    | refine Keeps.ok ?_
    | (rename (_ : State × _) = _ => heq
       refine Keeps.pair heq ?_ ?_ <;> clear heq
       rotate_left
       intro hy
       rotate_left)
    | apply State.hostRead_keeps
    | apply Keeps.next ?_ (State.lockWindow_keeps _ _) ?_
    | decide
    | intro y
    | dsimp -zeta only

theorem execMbRdStamp2Read_keeps (a0 : Fin 2) (s : State) :
    Keeps [.host, .mill, .recorder] s (settle s (execMbRdStamp2Read a0 s)) := by
  unfold execMbRdStamp2Read
  with_reducible repeat' first
    | assumption
    | exact Keeps.rfl
    | refine Keeps.ok ?_
    | (rename (_ : State × _) = _ => heq
       refine Keeps.pair heq ?_ ?_ <;> clear heq
       rotate_left
       intro hy
       rotate_left)
    | apply State.hostRead_keeps
    | apply Keeps.next ?_ (State.freeWindow_keeps _ _) ?_
    | decide
    | intro y
    | dsimp -zeta only

theorem execReadLockTimeout_keeps (a0 : Fin 2) (s : State) :
    Keeps [.mill] s (settle s (execReadLockTimeout a0 s)) := by
  unfold execReadLockTimeout
  with_reducible repeat' first
    | assumption
    | exact Keeps.rfl
    | refine Keeps.iteO ?_ ?_
    | refine Keeps.ite ?_ ?_
    | refine Keeps.ok ?_
    | apply Keeps.next ?_ (State.endLock_keeps _ _ _) ?_
    | decide
    | dsimp -zeta only

theorem State.takeFrame_keeps (s : State) (a1 : Nat) (a2 : Nat) (a3 : CanFrame) :
    Keeps [.host, .mill, .recorder] s (State.takeFrame s a1 a2 a3) := by
  unfold State.takeFrame
  with_reducible repeat' first
    | assumption
    | (extract_lets +onlyGivenNames z
       refine Keeps.let z ?_ ?_
       subst z
       rotate_left
       clear_value z
       revert z
       intro y hy
       rotate_left)
    | (extract_lets +onlyGivenNames z
       refine Keeps.let1 z ?_ ?_
       subst z
       rotate_left
       clear_value z
       revert z
       rintro ⟨y, y1⟩ hy
       rotate_left)
    | (extract_lets +onlyGivenNames z; revert z; intro y)
    | exact Keeps.rfl
    | refine Keeps.ite ?_ ?_
    | refine Keeps.ite1 ?_ ?_
    | (rename (_ : State × _) = _ => heq
       refine Keeps.pair heq ?_ ?_ <;> clear heq
       rotate_left
       intro hy
       rotate_left)
    | apply Keeps.next ?_ (State.free_keeps _) ?_
    | apply Keeps.next ?_ (State.setMillCh_keeps _ _ _) ?_
    | apply Keeps.next ?_ (State.wr_keeps _ _ _) ?_
    | apply Keeps.next ?_ (State.setMillBuf_keeps _ _ _ _) ?_
    | apply Keeps.next ?_ (State.inc_keeps _ _) ?_
    | apply Keeps.next ?_ (State.millEvt_keeps _ _ _) ?_
    | apply Keeps.next ?_ (State.raiseSource_keeps _ _ _ _) ?_
    | apply Keeps.next ?_ (State.showBuf_keeps _ _) ?_
    | decide
    | dsimp -zeta only

theorem State.seeFrame_keeps (s : State) (a1 : Nat) (a2 : CanFrame) (a3 : Nat) :
    Keeps [.mill] s (State.seeFrame s a1 a2 a3) := by
  unfold State.seeFrame
  with_reducible repeat' first
    | assumption
    | (extract_lets +onlyGivenNames z
       refine Keeps.let z ?_ ?_
       subst z
       rotate_left
       clear_value z
       revert z
       intro y hy
       rotate_left)
    | (extract_lets +onlyGivenNames z; revert z; intro y)
    | exact Keeps.rfl
    | refine Keeps.ite ?_ ?_
    | apply Keeps.next ?_ (State.wr_keeps _ _ _) ?_
    | apply Keeps.next ?_ (State.setMillBuf_keeps _ _ _ _) ?_
    | split
    | decide
    | dsimp -zeta only

theorem State.takeReference_keeps (s : State) (a1 : Nat) (a2 : CanFrame) :
    Keeps [.mill] s (State.takeReference s a1 a2) := by
  unfold State.takeReference
  with_reducible repeat' first
    | assumption
    | (extract_lets +onlyGivenNames z; revert z; intro y)
    | exact Keeps.rfl
    | refine Keeps.ite ?_ ?_
    | apply Keeps.next ?_ (State.wr_keeps _ _ _) ?_
    | apply Keeps.next ?_ (State.setMillCh_keeps _ _ _) ?_
    | decide
    | dsimp -zeta only

theorem execMillFrameReceived_keeps (a0 : Fin 2) (a1 : CanFrame) (s : State) :
    Keeps [.host, .mill, .recorder] s (settle s (execMillFrameReceived a0 a1 s)) := by
  unfold execMillFrameReceived
  with_reducible repeat' first
    | assumption
    | (extract_lets +onlyGivenNames z
       refine Keeps.let z ?_ ?_
       subst z
       rotate_left
       clear_value z
       revert z
       intro y hy
       rotate_left)
    | (extract_lets +onlyGivenNames z; revert z; intro y)
    | exact Keeps.rfl
    | refine Keeps.iteO ?_ ?_
    | refine Keeps.ite ?_ ?_
    | refine Keeps.ok ?_
    | refine Keeps.foldl _ _ ?_ ?_
    | apply Keeps.next ?_ (State.recDown_keeps _ _) ?_
    | apply Keeps.next ?_ (State.wr_keeps _ _ _) ?_
    | apply Keeps.next ?_ (State.takeReference_keeps _ _ _) ?_
    | apply Keeps.next ?_ (State.seeFrame_keeps _ _ _ _) ?_
    | apply Keeps.next ?_ (State.inc_keeps _ _) ?_
    | apply Keeps.next ?_ (State.takeFrame_keeps _ _ _ _) ?_
    | split
    | decide
    | intro y
    | dsimp -zeta only

theorem execMillMapTaken_keeps (a0 : Fin 2) (a1 : Fin 64) (s : State) :
    Keeps [.image, .turn, .ply, .mill] s (settle s (execMillMapTaken a0 a1 s)) := by
  unfold execMillMapTaken
  with_reducible repeat' first
    | assumption
    | (extract_lets +onlyGivenNames z
       refine Keeps.let z ?_ ?_
       subst z
       rotate_left
       clear_value z
       revert z
       intro y hy
       rotate_left)
    | (extract_lets +onlyGivenNames z; revert z; intro y)
    | exact Keeps.rfl
    | refine Keeps.ok ?_
    | apply Keeps.next ?_ (State.setMillBuf_keeps _ _ _ _) ?_
    | apply Keeps.next ?_ (State.setCell_keeps _ _ _) ?_
    | apply Keeps.next ?_ (State.barKey_keeps _ _ _) ?_
    | split
    | refine Keeps.upd ?_ List.prefix_rfl (Nat.le_refl _) id (fun p hp => by cases p <;> first | rfl | exact absurd (by decide) hp)
    | decide
    | dsimp -zeta only

theorem execMillMapStale_keeps (a0 : Fin 2) (a1 : Fin 64) (s : State) :
    Keeps [.image, .ply] s (settle s (execMillMapStale a0 a1 s)) := by
  unfold execMillMapStale
  with_reducible repeat' first
    | assumption
    | (extract_lets +onlyGivenNames z; revert z; intro y)
    | exact Keeps.rfl
    | refine Keeps.iteO ?_ ?_
    | refine Keeps.ite ?_ ?_
    | refine Keeps.ok ?_
    | apply Keeps.next ?_ (State.setCell_keeps _ _ _) ?_
    | decide
    | dsimp -zeta only

theorem State.noteAttempt_keeps (s : State) (a1 : Nat) (a2 : Nat) (a3 : Bool) :
    Keeps [.mill] s (State.noteAttempt s a1 a2 a3) := by
  unfold State.noteAttempt
  with_reducible repeat' first
    | assumption
    | (extract_lets +onlyGivenNames z; revert z; intro y)
    | exact Keeps.rfl
    | apply Keeps.next ?_ (State.setMillCh_keeps _ _ _) ?_
    | decide
    | dsimp -zeta only

theorem execMillFrameSent_keeps (a0 : Fin 2) (a1 : MillSource) (s : State) :
    Keeps [.host, .mill, .recorder] s (settle s (execMillFrameSent a0 a1 s)) := by
  unfold execMillFrameSent
  with_reducible repeat' first
    | assumption
    | (extract_lets +onlyGivenNames z
       refine Keeps.let z ?_ ?_
       subst z
       rotate_left
       clear_value z
       revert z
       intro y hy
       rotate_left)
    | (extract_lets +onlyGivenNames z; revert z; intro y)
    | exact Keeps.rfl
    | refine Keeps.iteO ?_ ?_
    | refine Keeps.ite ?_ ?_
    | refine Keeps.ok ?_
    | apply Keeps.next ?_ (State.emit_keeps _ _) ?_
    | apply Keeps.next ?_ (State.noteAttempt_keeps _ _ _ _) ?_
    | apply Keeps.next ?_ (State.inc_keeps _ _) ?_
    | apply Keeps.next ?_ (State.errState_keeps _ _) ?_
    | apply Keeps.next ?_ (State.wr_keeps _ _ _) ?_
    | apply Keeps.next ?_ (State.setMillBuf_keeps _ _ _ _) ?_
    | apply Keeps.next ?_ (State.setMillCh_keeps _ _ _) ?_
    | apply Keeps.next ?_ (State.millEvt_keeps _ _ _) ?_
    | split
    | decide
    | dsimp -zeta only

theorem State.dropMuted_keeps (s : State) (a1 : Nat) (a2 : Nat) (a3 : Nat) :
    Keeps [] s (State.dropMuted s a1 a2 a3) := by
  unfold State.dropMuted
  with_reducible repeat' first
    | assumption
    | (extract_lets +onlyGivenNames z
       refine Keeps.let z ?_ ?_
       subst z
       rotate_left
       clear_value z
       revert z
       intro y hy
       rotate_left)
    | exact Keeps.rfl
    | refine Keeps.ite ?_ ?_
    | apply Keeps.next ?_ (State.wr_keeps _ _ _) ?_
    | apply Keeps.next ?_ (State.inc_keeps _ _) ?_
    | decide
    | dsimp -zeta only

theorem State.clash_keeps (s : State) (a1 : Nat) (a2 : Nat) :
    Keeps [.host, .mill, .recorder] s (State.clash s a1 a2) := by
  unfold State.clash
  with_reducible repeat' first
    | assumption
    | (extract_lets +onlyGivenNames z
       refine Keeps.let z ?_ ?_
       subst z
       rotate_left
       clear_value z
       revert z
       intro y hy
       rotate_left)
    | (extract_lets +onlyGivenNames z; revert z; intro y)
    | exact Keeps.rfl
    | refine Keeps.ite ?_ ?_
    | refine Keeps.foldl _ _ ?_ ?_
    | apply Keeps.next ?_ (State.wr_keeps _ _ _) ?_
    | apply Keeps.next ?_ (State.millEvt_keeps _ _ _) ?_
    | apply Keeps.next ?_ (State.inc_keeps _ _) ?_
    | apply Keeps.next ?_ (State.setMillCh_keeps _ _ _) ?_
    | apply Keeps.next ?_ (State.dropMuted_keeps _ _ _ _) ?_
    | decide
    | intro y
    | dsimp -zeta only

theorem State.busOff_keeps (s : State) (a1 : Nat) :
    Keeps [.host, .mill, .recorder] s (State.busOff s a1) := by
  unfold State.busOff
  with_reducible repeat' first
    | assumption
    | (extract_lets +onlyGivenNames z
       refine Keeps.let z ?_ ?_
       subst z
       rotate_left
       clear_value z
       revert z
       intro y hy
       rotate_left)
    | (extract_lets +onlyGivenNames z; revert z; intro y)
    | exact Keeps.rfl
    | refine Keeps.ite ?_ ?_
    | refine Keeps.foldl _ _ ?_ ?_
    | apply Keeps.next ?_ (State.wr_keeps _ _ _) ?_
    | apply Keeps.next ?_ (State.inc_keeps _ _) ?_
    | apply Keeps.next ?_ (State.setMillCh_keeps _ _ _) ?_
    | apply Keeps.next ?_ (State.fireTrigger_keeps _ _ _ _ _) ?_
    | apply Keeps.next ?_ (State.millEvt_keeps _ _ _) ?_
    | decide
    | intro y
    | dsimp -zeta only

theorem execMillTxError_keeps (a0 : Fin 2) (a1 : MillSource) (a2 : Bool) (s : State) :
    Keeps [.host, .mill, .recorder] s (settle s (execMillTxError a0 a1 a2 s)) := by
  unfold execMillTxError
  with_reducible repeat' first
    | assumption
    | (extract_lets +onlyGivenNames z
       refine Keeps.let z ?_ ?_
       subst z
       rotate_left
       clear_value z
       revert z
       intro y hy
       rotate_left)
    | (extract_lets +onlyGivenNames z; revert z; intro y)
    | exact Keeps.rfl
    | refine Keeps.iteO ?_ ?_
    | refine Keeps.ite ?_ ?_
    | refine Keeps.ok ?_
    | apply Keeps.next ?_ (State.inc_keeps _ _) ?_
    | apply Keeps.next ?_ (State.noteAttempt_keeps _ _ _ _) ?_
    | apply Keeps.next ?_ (State.wr_keeps _ _ _) ?_
    | apply Keeps.next ?_ (State.clash_keeps _ _ _) ?_
    | apply Keeps.next ?_ (State.setMillCh_keeps _ _ _) ?_
    | apply Keeps.next ?_ (State.busOff_keeps _ _) ?_
    | apply Keeps.next ?_ (State.errState_keeps _ _) ?_
    | split
    | decide
    | dsimp -zeta only

theorem execMillRxError_keeps (a0 : Fin 2) (a1 : Fin 9) (s : State) :
    Keeps [.host, .recorder] s (settle s (execMillRxError a0 a1 s)) := by
  unfold execMillRxError
  with_reducible repeat' first
    | assumption
    | (extract_lets +onlyGivenNames z
       refine Keeps.let z ?_ ?_
       subst z
       rotate_left
       clear_value z
       revert z
       intro y hy
       rotate_left)
    | (extract_lets +onlyGivenNames z; revert z; intro y)
    | exact Keeps.rfl
    | refine Keeps.iteO ?_ ?_
    | refine Keeps.ite ?_ ?_
    | refine Keeps.ok ?_
    | apply Keeps.next ?_ (State.inc_keeps _ _) ?_
    | apply Keeps.next ?_ (State.errState_keeps _ _) ?_
    | apply Keeps.next ?_ (State.wr_keeps _ _ _) ?_
    | decide
    | dsimp -zeta only

theorem execMillRecovered_keeps (a0 : Fin 2) (s : State) :
    Keeps [.host, .mill, .recorder] s (settle s (execMillRecovered a0 s)) := by
  unfold execMillRecovered
  with_reducible repeat' first
    | assumption
    | (extract_lets +onlyGivenNames z
       refine Keeps.let z ?_ ?_
       subst z
       rotate_left
       clear_value z
       revert z
       intro y hy
       rotate_left)
    | (extract_lets +onlyGivenNames z; revert z; intro y)
    | exact Keeps.rfl
    | refine Keeps.iteO ?_ ?_
    | refine Keeps.ite ?_ ?_
    | refine Keeps.ok ?_
    | refine Keeps.foldl _ _ ?_ ?_
    | apply Keeps.next ?_ (State.wr_keeps _ _ _) ?_
    | apply Keeps.next ?_ (State.setMillCh_keeps _ _ _) ?_
    | apply Keeps.next ?_ (State.millEvt_keeps _ _ _) ?_
    | decide
    | intro y
    | dsimp -zeta only

theorem execMbCmdRestart_keeps (a0 : Fin 2) (s : State) :
    Keeps [] s (settle s (execMbCmdRestart a0 s)) := by
  unfold execMbCmdRestart
  with_reducible repeat' first
    | assumption
    | exact Keeps.rfl
    | refine Keeps.iteO ?_ ?_
    | refine Keeps.ite ?_ ?_
    | refine Keeps.ok ?_
    | apply Keeps.next ?_ (State.wr_keeps _ _ _) ?_
    | decide
    | dsimp -zeta only

theorem execMbCmdUnmute_keeps (a0 : Fin 2) (s : State) :
    Keeps [.mill] s (settle s (execMbCmdUnmute a0 s)) := by
  unfold execMbCmdUnmute
  with_reducible repeat' first
    | assumption
    | (extract_lets +onlyGivenNames z
       refine Keeps.let z ?_ ?_
       subst z
       rotate_left
       clear_value z
       revert z
       intro y hy
       rotate_left)
    | (extract_lets +onlyGivenNames z; revert z; intro y)
    | exact Keeps.rfl
    | refine Keeps.iteO ?_ ?_
    | refine Keeps.ite ?_ ?_
    | refine Keeps.ok ?_
    | refine Keeps.foldl _ _ ?_ ?_
    | apply Keeps.next ?_ (State.setMillCh_keeps _ _ _) ?_
    | apply Keeps.next ?_ (State.wr_keeps _ _ _) ?_
    | decide
    | intro y
    | dsimp -zeta only

theorem execMbCmdClearCnt_keeps (a0 : Fin 2) (s : State) :
    Keeps [] s (settle s (execMbCmdClearCnt a0 s)) := by
  unfold execMbCmdClearCnt
  with_reducible repeat' first
    | assumption
    | exact Keeps.rfl
    | refine Keeps.iteO ?_ ?_
    | refine Keeps.ite ?_ ?_
    | refine Keeps.ok ?_
    | refine Keeps.foldl _ _ ?_ ?_
    | apply Keeps.next ?_ (State.wr_keeps _ _ _) ?_
    | decide
    | intro y
    | dsimp -zeta only

theorem execMillCycleStart_keeps (a0 : Fin 2) (s : State) :
    Keeps [.mill] s (settle s (execMillCycleStart a0 s)) := by
  unfold execMillCycleStart
  with_reducible repeat' first
    | assumption
    | (extract_lets +onlyGivenNames z
       refine Keeps.let z ?_ ?_
       subst z
       rotate_left
       clear_value z
       revert z
       intro y hy
       rotate_left)
    | (extract_lets +onlyGivenNames z; revert z; intro y)
    | exact Keeps.rfl
    | refine Keeps.iteO ?_ ?_
    | refine Keeps.ite ?_ ?_
    | refine Keeps.ok ?_
    | apply Keeps.next ?_ (State.wr_keeps _ _ _) ?_
    | apply Keeps.next ?_ (State.setMillCh_keeps _ _ _) ?_
    | decide
    | dsimp -zeta only

theorem execMillWindowStart_keeps (a0 : Fin 2) (a1 : Fin 64) (s : State) :
    Keeps [.mill] s (settle s (execMillWindowStart a0 a1 s)) := by
  unfold execMillWindowStart
  with_reducible repeat' first
    | assumption
    | (extract_lets +onlyGivenNames z
       refine Keeps.let z ?_ ?_
       subst z
       rotate_left
       clear_value z
       revert z
       intro y hy
       rotate_left)
    | (extract_lets +onlyGivenNames z; revert z; intro y)
    | exact Keeps.rfl
    | refine Keeps.iteO ?_ ?_
    | refine Keeps.ite ?_ ?_
    | refine Keeps.ok ?_
    | apply Keeps.next ?_ (State.setMillCh_keeps _ _ _) ?_
    | apply Keeps.next ?_ (State.setMillBuf_keeps _ _ _ _) ?_
    | decide
    | dsimp -zeta only

theorem execMillWindowEnd_keeps (a0 : Fin 2) (a1 : Fin 64) (s : State) :
    Keeps [.host, .mill, .recorder] s (settle s (execMillWindowEnd a0 a1 s)) := by
  unfold execMillWindowEnd
  with_reducible repeat' first
    | assumption
    | (extract_lets +onlyGivenNames z
       refine Keeps.let z ?_ ?_
       subst z
       rotate_left
       clear_value z
       revert z
       intro y hy
       rotate_left)
    | (extract_lets +onlyGivenNames z; revert z; intro y)
    | exact Keeps.rfl
    | refine Keeps.iteO ?_ ?_
    | refine Keeps.ite ?_ ?_
    | refine Keeps.ok ?_
    | apply Keeps.next ?_ (State.setMillBuf_keeps _ _ _ _) ?_
    | apply Keeps.next ?_ (State.setMillCh_keeps _ _ _) ?_
    | apply Keeps.next ?_ (State.wr_keeps _ _ _) ?_
    | apply Keeps.next ?_ (State.millEvt_keeps _ _ _) ?_
    | apply Keeps.next ?_ (State.inc_keeps _ _) ?_
    | decide
    | dsimp -zeta only

theorem execArbitratingWindowStart_keeps (a0 : Fin 2) (s : State) :
    Keeps [.mill] s (settle s (execArbitratingWindowStart a0 s)) := by
  unfold execArbitratingWindowStart
  with_reducible repeat' first
    | assumption
    | (extract_lets +onlyGivenNames z; revert z; intro y)
    | exact Keeps.rfl
    | refine Keeps.iteO ?_ ?_
    | refine Keeps.ite ?_ ?_
    | refine Keeps.ok ?_
    | apply Keeps.next ?_ (State.setMillCh_keeps _ _ _) ?_
    | decide
    | dsimp -zeta only

theorem execArbitratingWindowEnd_keeps (a0 : Fin 2) (s : State) :
    Keeps [.mill] s (settle s (execArbitratingWindowEnd a0 s)) := by
  unfold execArbitratingWindowEnd
  with_reducible repeat' first
    | assumption
    | (extract_lets +onlyGivenNames z; revert z; intro y)
    | exact Keeps.rfl
    | refine Keeps.iteO ?_ ?_
    | refine Keeps.ite ?_ ?_
    | refine Keeps.ok ?_
    | apply Keeps.next ?_ (State.setMillCh_keeps _ _ _) ?_
    | decide
    | dsimp -zeta only

theorem execMillRefLost_keeps (a0 : Fin 2) (s : State) :
    Keeps [.host, .mill, .recorder] s (settle s (execMillRefLost a0 s)) := by
  unfold execMillRefLost
  with_reducible repeat' first
    | assumption
    | (extract_lets +onlyGivenNames z
       refine Keeps.let z ?_ ?_
       subst z
       rotate_left
       clear_value z
       revert z
       intro y hy
       rotate_left)
    | (extract_lets +onlyGivenNames z; revert z; intro y)
    | exact Keeps.rfl
    | refine Keeps.iteO ?_ ?_
    | refine Keeps.ite ?_ ?_
    | refine Keeps.ok ?_
    | apply Keeps.next ?_ (State.setMillCh_keeps _ _ _) ?_
    | apply Keeps.next ?_ (State.millEvt_keeps _ _ _) ?_
    | apply Keeps.next ?_ (State.wr_keeps _ _ _) ?_
    | decide
    | dsimp -zeta only

theorem execMillDominantTimeout_keeps (a0 : Fin 2) (s : State) :
    Keeps [.host, .recorder] s (settle s (execMillDominantTimeout a0 s)) := by
  unfold execMillDominantTimeout
  with_reducible repeat' first
    | assumption
    | exact Keeps.rfl
    | refine Keeps.iteO ?_ ?_
    | refine Keeps.ite ?_ ?_
    | refine Keeps.ok ?_
    | apply Keeps.next ?_ (State.millEvt_keeps _ _ _) ?_
    | decide
    | dsimp -zeta only

theorem State.millSend_keeps (s : State) (a1 : HostCmd) :
    Keeps [.image, .ply, .host, .recorder] s (State.millSend s a1) := by
  unfold State.millSend
  with_reducible repeat' first
    | assumption
    | (extract_lets +onlyGivenNames z
       refine Keeps.let z ?_ ?_
       subst z
       rotate_left
       clear_value z
       revert z
       intro y hy
       rotate_left)
    | (extract_lets +onlyGivenNames z
       refine Keeps.let1 z ?_ ?_
       subst z
       rotate_left
       clear_value z
       revert z
       rintro ⟨y, y1⟩ hy
       rotate_left)
    | (extract_lets +onlyGivenNames z; revert z; intro y)
    | exact Keeps.rfl
    | refine Keeps.ite ?_ ?_
    | refine Keeps.ite1 ?_ ?_
    | (rename (_ : State × _) = _ => heq
       refine Keeps.pair heq ?_ ?_ <;> clear heq
       rotate_left
       intro hy
       rotate_left)
    | apply Keeps.next ?_ (State.deny_keeps _ _ _) ?_
    | apply State.moveBuf_keeps
    | apply Keeps.next ?_ (State.wr_keeps _ _ _) ?_
    | apply Keeps.next ?_ (State.complete_keeps _ _ _ _ _ _) ?_
    | apply Keeps.next ?_ (State.free_keeps _) ?_
    | apply Keeps.next ?_ (State.hostWrites_keeps _ _ _) ?_
    | apply Keeps.next ?_ (State.holdCmd_keeps _ _ _ _ _) ?_
    | split
    | refine Keeps.upd ?_ List.prefix_rfl (Nat.le_refl _) id (fun p hp => by cases p <;> first | rfl | exact absurd (by decide) hp)
    | decide
    | intro y
    | dsimp -zeta only

theorem execMillSendPending_keeps (a0 : Fin 2) (a1 : Fin 64) (s : State) :
    Keeps [.image, .host, .mill, .recorder] s (settle s (execMillSendPending a0 a1 s)) := by
  unfold execMillSendPending
  with_reducible repeat' first
    | assumption
    | (extract_lets +onlyGivenNames z
       refine Keeps.let z ?_ ?_
       subst z
       rotate_left
       clear_value z
       revert z
       intro y hy
       rotate_left)
    | (extract_lets +onlyGivenNames z; revert z; intro y)
    | exact Keeps.rfl
    | refine Keeps.ok ?_
    | refine Keeps.foldl _ _ ?_ ?_
    | apply Keeps.next ?_ (State.millEnter_keeps _ _ _ _) ?_
    | apply Keeps.next ?_ (State.barKey_keeps _ _ _) ?_
    | apply Keeps.next ?_ (State.finish_keeps _ _ _ _ _ _) ?_
    | split
    | refine Keeps.upd ?_ List.prefix_rfl (Nat.le_refl _) id (fun p hp => by cases p <;> first | rfl | exact absurd (by decide) hp)
    | decide
    | intro y
    | dsimp -zeta only

theorem State.millReadCmd_keeps (s : State) (a1 : HostCmd) :
    Keeps [.host, .mill, .recorder] s (State.millReadCmd s a1) := by
  unfold State.millReadCmd
  with_reducible repeat' first
    | assumption
    | (extract_lets +onlyGivenNames z; revert z; intro y)
    | exact Keeps.rfl
    | refine Keeps.ite ?_ ?_
    | apply Keeps.next ?_ (State.deny_keeps _ _ _) ?_
    | apply Keeps.next ?_ (State.answer_keeps _ _ _ _ _) ?_
    | apply Keeps.next ?_ (State.millRead_keeps _ _ _) ?_
    | decide
    | dsimp -zeta only

theorem execSkeinLinkChange_keeps (a0 : Fin 16) (a1 : LinkLevel) (s : State) :
    Keeps [.skein, .host, .recorder] s (settle s (execSkeinLinkChange a0 a1 s)) := by
  unfold execSkeinLinkChange
  with_reducible repeat' first
    | assumption
    | (extract_lets +onlyGivenNames z
       refine Keeps.let z ?_ ?_
       subst z
       rotate_left
       clear_value z
       revert z
       intro y hy
       rotate_left)
    | (extract_lets +onlyGivenNames z; revert z; intro y)
    | exact Keeps.rfl
    | refine Keeps.iteO ?_ ?_
    | refine Keeps.ite ?_ ?_
    | refine Keeps.ok ?_
    | apply Keeps.next ?_ (State.wr_keeps _ _ _) ?_
    | apply Keeps.next ?_ (State.setPort_keeps _ _ _) ?_
    | apply Keeps.next ?_ (State.laneDown_keeps _ _ _) ?_
    | split
    | refine Keeps.upd ?_ List.prefix_rfl (Nat.le_refl _) id (fun p hp => by cases p <;> first | rfl | exact absurd (by decide) hp)
    | decide
    | dsimp -zeta only

theorem execInputFrameReceived_keeps (a0 : Fin 16) (a1 : Bytes) (s : State) :
    Keeps [.image, .skein, .ply, .host, .recorder] s (settle s (execInputFrameReceived a0 a1 s)) := by
  unfold execInputFrameReceived
  with_reducible repeat' first
    | assumption
    | exact Keeps.rfl
    | refine Keeps.iteO ?_ ?_
    | refine Keeps.ite ?_ ?_
    | refine Keeps.ok ?_
    | apply Keeps.next ?_ (State.takeInputFrame_keeps _ _ _ _) ?_
    | decide
    | dsimp -zeta only

theorem execPartnerFrameNotShadow_keeps (a0 : BitVec 28) (a1 : Bool) (a2 : Bool) (s : State) :
    Keeps [.hop, .skein, .trace, .time, .ply, .rows, .brake, .host, .recorder] s (settle s (execPartnerFrameNotShadow a0 a1 a2 s)) := by
  unfold execPartnerFrameNotShadow
  with_reducible repeat' first
    | assumption
    | (extract_lets +onlyGivenNames z
       refine Keeps.let z ?_ ?_
       subst z
       rotate_left
       clear_value z
       revert z
       intro y hy
       rotate_left)
    | (extract_lets +onlyGivenNames z; revert z; intro y)
    | exact Keeps.rfl
    | refine Keeps.iteO ?_ ?_
    | refine Keeps.ite ?_ ?_
    | refine Keeps.ok ?_
    | apply Keeps.next ?_ (State.abdicate_keeps _ _) ?_
    | apply Keeps.next ?_ (State.plyEvt_keeps _ _) ?_
    | refine Keeps.upd ?_ List.prefix_rfl (Nat.le_refl _) id (fun p hp => by cases p <;> first | rfl | exact absurd (by decide) hp)
    | decide
    | dsimp -zeta only

theorem execPartnerFrameCrossed_keeps (a0 : Fin 16) (a1 : Bytes) (s : State) :
    Keeps [.skein, .ply, .host, .recorder] s (settle s (execPartnerFrameCrossed a0 a1 s)) := by
  unfold execPartnerFrameCrossed
  with_reducible repeat' first
    | assumption
    | exact Keeps.rfl
    | refine Keeps.iteO ?_ ?_
    | refine Keeps.ite ?_ ?_
    | refine Keeps.ok ?_
    | apply Keeps.next ?_ (State.takeCrossed_keeps _ _ _) ?_
    | decide
    | dsimp -zeta only

theorem execJoinFrameReceived_keeps (a0 : Fin 16) (a1 : Bytes) (s : State) :
    Keeps [.skein, .host, .recorder] s (settle s (execJoinFrameReceived a0 a1 s)) := by
  unfold execJoinFrameReceived
  with_reducible repeat' first
    | assumption
    | exact Keeps.rfl
    | refine Keeps.iteO ?_ ?_
    | refine Keeps.ite ?_ ?_
    | refine Keeps.ok ?_
    | apply Keeps.next ?_ (State.takeJoin_keeps _ _ _) ?_
    | decide
    | dsimp -zeta only

theorem execJoinAnswer_keeps (a0 : Fin 16) (a1 : Fin 16) (s : State) :
    Keeps [.skein] s (settle s (execJoinAnswer a0 a1 s)) := by
  unfold execJoinAnswer
  with_reducible repeat' first
    | assumption
    | (extract_lets +onlyGivenNames z
       refine Keeps.let z ?_ ?_
       subst z
       rotate_left
       clear_value z
       revert z
       intro y hy
       rotate_left)
    | (extract_lets +onlyGivenNames z; revert z; intro y)
    | exact Keeps.rfl
    | refine Keeps.iteO ?_ ?_
    | refine Keeps.ite ?_ ?_
    | refine Keeps.ok ?_
    | apply Keeps.next ?_ (State.setPosn_keeps _ _ _) ?_
    | apply Keeps.next ?_ (State.sendSetup_keeps _ _) ?_
    | decide
    | dsimp -zeta only

theorem execTurnMarkReceived_keeps (a0 : Fin 16) (a1 : BitVec 6) (a2 : BitVec 10) (a3 : BitVec 32) (s : State) :
    Keeps [.skein] s (settle s (execTurnMarkReceived a0 a1 a2 a3 s)) := by
  unfold execTurnMarkReceived
  with_reducible repeat' first
    | assumption
    | (extract_lets +onlyGivenNames z
       refine Keeps.let z ?_ ?_
       subst z
       rotate_left
       clear_value z
       revert z
       intro y hy
       rotate_left)
    | (extract_lets +onlyGivenNames z
       refine Keeps.let1 z ?_ ?_
       subst z
       rotate_left
       clear_value z
       revert z
       rintro ⟨y, y1⟩ hy
       rotate_left)
    | (extract_lets +onlyGivenNames z; revert z; intro y)
    | exact Keeps.rfl
    | refine Keeps.iteO ?_ ?_
    | refine Keeps.ite ?_ ?_
    | refine Keeps.ok ?_
    | refine Keeps.ite1 ?_ ?_
    | (rename (_ : State × _) = _ => heq
       refine Keeps.pair heq ?_ ?_ <;> clear heq
       rotate_left
       intro hy
       rotate_left)
    | apply Keeps.next ?_ (State.setPort_keeps _ _ _) ?_
    | apply Keeps.next ?_ (State.wr_keeps _ _ _) ?_
    | apply Keeps.next ?_ (State.free_keeps _) ?_
    | decide
    | dsimp -zeta only

theorem execEchoRspReceived_keeps (a0 : Fin 16) (a1 : Fin 16) (a2 : BitVec 8) (a3 : BitVec 32) (a4 : BitVec 16) (s : State) :
    Keeps [.skein] s (settle s (execEchoRspReceived a0 a1 a2 a3 a4 s)) := by
  unfold execEchoRspReceived
  with_reducible repeat' first
    | assumption
    | (extract_lets +onlyGivenNames z
       refine Keeps.let z ?_ ?_
       subst z
       rotate_left
       clear_value z
       revert z
       intro y hy
       rotate_left)
    | (extract_lets +onlyGivenNames z; revert z; intro y)
    | exact Keeps.rfl
    | refine Keeps.iteO ?_ ?_
    | refine Keeps.ite ?_ ?_
    | refine Keeps.ok ?_
    | apply Keeps.next ?_ (State.setPort_keeps _ _ _) ?_
    | apply Keeps.next ?_ (State.setPosn_keeps _ _ _) ?_
    | apply Keeps.next ?_ (State.wr_keeps _ _ _) ?_
    | decide
    | dsimp -zeta only

theorem execSetupRecordRepeat_keeps (a0 : Fin 16) (a1 : Fin 16) (s : State) :
    Keeps [.skein] s (settle s (execSetupRecordRepeat a0 a1 s)) := by
  unfold execSetupRecordRepeat
  with_reducible repeat' first
    | assumption
    | (extract_lets +onlyGivenNames z; revert z; intro y)
    | exact Keeps.rfl
    | refine Keeps.iteO ?_ ?_
    | refine Keeps.ite ?_ ?_
    | refine Keeps.ok ?_
    | apply Keeps.next ?_ (State.sendSetup_keeps _ _) ?_
    | decide
    | dsimp -zeta only

theorem execChainBroken_keeps (a0 : Fin 16) (s : State) :
    Keeps [.host, .recorder] s (settle s (execChainBroken a0 s)) := by
  unfold execChainBroken
  with_reducible repeat' first
    | assumption
    | (extract_lets +onlyGivenNames z; revert z; intro y)
    | exact Keeps.rfl
    | refine Keeps.iteO ?_ ?_
    | refine Keeps.ite ?_ ?_
    | refine Keeps.ok ?_
    | apply Keeps.next ?_ (State.skEvt_keeps _ _ _) ?_
    | apply Keeps.next ?_ (State.wr_keeps _ _ _) ?_
    | decide
    | dsimp -zeta only

theorem execChainIntact_keeps (a0 : Fin 16) (s : State) :
    Keeps [.host, .recorder] s (settle s (execChainIntact a0 s)) := by
  unfold execChainIntact
  with_reducible repeat' first
    | assumption
    | (extract_lets +onlyGivenNames z; revert z; intro y)
    | exact Keeps.rfl
    | refine Keeps.iteO ?_ ?_
    | refine Keeps.ite ?_ ?_
    | refine Keeps.ok ?_
    | apply Keeps.next ?_ (State.skEvt_keeps _ _ _) ?_
    | apply Keeps.next ?_ (State.wr_keeps _ _ _) ?_
    | decide
    | dsimp -zeta only

theorem execStationLost_keeps (a0 : Fin 16) (a1 : Fin 16) (s : State) :
    Keeps [.host, .recorder] s (settle s (execStationLost a0 a1 s)) := by
  unfold execStationLost
  with_reducible repeat' first
    | assumption
    | (extract_lets +onlyGivenNames z; revert z; intro y)
    | exact Keeps.rfl
    | refine Keeps.iteO ?_ ?_
    | refine Keeps.ite ?_ ?_
    | refine Keeps.ok ?_
    | apply Keeps.next ?_ (State.setStn_keeps _ _ _ _) ?_
    | decide
    | dsimp -zeta only

theorem execJoiningTimeout_keeps (a0 : Fin 16) (a1 : Fin 16) (s : State) :
    Keeps [.host, .recorder] s (settle s (execJoiningTimeout a0 a1 s)) := by
  unfold execJoiningTimeout
  with_reducible repeat' first
    | assumption
    | (extract_lets +onlyGivenNames z; revert z; intro y)
    | exact Keeps.rfl
    | refine Keeps.iteO ?_ ?_
    | refine Keeps.ite ?_ ?_
    | refine Keeps.ok ?_
    | apply Keeps.next ?_ (State.setStn_keeps _ _ _ _) ?_
    | decide
    | dsimp -zeta only

theorem execBudgetComparison_keeps (a0 : Fin 16) (s : State) :
    Keeps [.host, .recorder] s (settle s (execBudgetComparison a0 s)) := by
  unfold execBudgetComparison
  with_reducible repeat' first
    | assumption
    | (extract_lets +onlyGivenNames z
       refine Keeps.let z ?_ ?_
       subst z
       rotate_left
       clear_value z
       revert z
       intro y hy
       rotate_left)
    | (extract_lets +onlyGivenNames z; revert z; intro y)
    | exact Keeps.rfl
    | refine Keeps.iteO ?_ ?_
    | refine Keeps.ite ?_ ?_
    | refine Keeps.ok ?_
    | apply Keeps.next ?_ (State.wrb_keeps _ _ _) ?_
    | apply Keeps.next ?_ (State.skEvt_keeps _ _ _) ?_
    | decide
    | dsimp -zeta only

theorem execProxyStart_keeps (a0 : Fin 16) (a1 : Fin 16) (s : State) :
    Keeps [.skein] s (settle s (execProxyStart a0 a1 s)) := by
  unfold execProxyStart
  with_reducible repeat' first
    | assumption
    | (extract_lets +onlyGivenNames z
       refine Keeps.let z ?_ ?_
       subst z
       rotate_left
       clear_value z
       revert z
       intro y hy
       rotate_left)
    | (extract_lets +onlyGivenNames z; revert z; intro y)
    | exact Keeps.rfl
    | refine Keeps.iteO ?_ ?_
    | refine Keeps.ite ?_ ?_
    | refine Keeps.ok ?_
    | apply Keeps.next ?_ (State.proxyReg_keeps _ _) ?_
    | split
    | refine Keeps.upd ?_ List.prefix_rfl (Nat.le_refl _) id (fun p hp => by cases p <;> first | rfl | exact absurd (by decide) hp)
    | decide
    | dsimp -zeta only

theorem execProxyStop_keeps (a0 : Fin 16) (a1 : Fin 16) (s : State) :
    Keeps [.skein] s (settle s (execProxyStop a0 a1 s)) := by
  unfold execProxyStop
  with_reducible repeat' first
    | assumption
    | (extract_lets +onlyGivenNames z
       refine Keeps.let z ?_ ?_
       subst z
       rotate_left
       clear_value z
       revert z
       intro y hy
       rotate_left)
    | (extract_lets +onlyGivenNames z; revert z; intro y)
    | exact Keeps.rfl
    | refine Keeps.iteO ?_ ?_
    | refine Keeps.ite ?_ ?_
    | refine Keeps.ok ?_
    | apply Keeps.next ?_ (State.proxyReg_keeps _ _) ?_
    | refine Keeps.upd ?_ List.prefix_rfl (Nat.le_refl _) id (fun p hp => by cases p <;> first | rfl | exact absurd (by decide) hp)
    | decide
    | dsimp -zeta only

theorem execSkClearCnt_keeps (a0 : Fin 16) (s : State) :
    Keeps [] s (settle s (execSkClearCnt a0 s)) := by
  unfold execSkClearCnt
  with_reducible repeat' first
    | assumption
    | exact Keeps.rfl
    | refine Keeps.iteO ?_ ?_
    | refine Keeps.ite ?_ ?_
    | refine Keeps.ok ?_
    | refine Keeps.foldl _ _ ?_ ?_
    | apply Keeps.next ?_ (State.wr_keeps _ _ _) ?_
    | decide
    | intro y
    | dsimp -zeta only

theorem State.idleGroup_keeps (s : State) (a1 : Nat) :
    Keeps [.trace] s (State.idleGroup s a1) := by
  unfold State.idleGroup
  with_reducible repeat' first
    | assumption
    | exact Keeps.rfl
    | apply Keeps.next ?_ (State.setGrp_keeps _ _ _) ?_
    | apply Keeps.next ?_ (State.wr_keeps _ _ _) ?_
    | decide
    | dsimp -zeta only

theorem execTraceArm_keeps (a0 : Fin 8) (s : State) :
    Keeps [.trace] s (settle s (execTraceArm a0 s)) := by
  unfold execTraceArm
  with_reducible repeat' first
    | assumption
    | (extract_lets +onlyGivenNames z
       refine Keeps.let z ?_ ?_
       subst z
       rotate_left
       clear_value z
       revert z
       intro y hy
       rotate_left)
    | (extract_lets +onlyGivenNames z; revert z; intro y)
    | exact Keeps.rfl
    | refine Keeps.iteO ?_ ?_
    | refine Keeps.ite ?_ ?_
    | refine Keeps.ok ?_
    | refine Keeps.foldl _ _ ?_ ?_
    | apply Keeps.next ?_ (State.wr_keeps _ _ _) ?_
    | apply Keeps.next ?_ (State.idleGroup_keeps _ _) ?_
    | apply Keeps.next ?_ (State.setChan_keeps _ _ _) ?_
    | apply Keeps.next ?_ (State.setGrp_keeps _ _ _) ?_
    | decide
    | intro y
    | dsimp -zeta only

theorem execTraceStop_keeps (a0 : Fin 8) (s : State) :
    Keeps [.trace] s (settle s (execTraceStop a0 s)) := by
  unfold execTraceStop
  with_reducible repeat' first
    | assumption
    | exact Keeps.rfl
    | refine Keeps.iteO ?_ ?_
    | refine Keeps.ite ?_ ?_
    | refine Keeps.ok ?_
    | apply Keeps.next ?_ (State.idleGroup_keeps _ _) ?_
    | decide
    | dsimp -zeta only

theorem execTraceForce_keeps (a0 : Fin 8) (s : State) :
    Keeps [.trace] s (settle s (execTraceForce a0 s)) := by
  unfold execTraceForce
  with_reducible repeat' first
    | assumption
    | (extract_lets +onlyGivenNames z; revert z; intro y)
    | exact Keeps.rfl
    | refine Keeps.iteO ?_ ?_
    | refine Keeps.ite ?_ ?_
    | refine Keeps.ok ?_
    | apply Keeps.next ?_ (State.setGrp_keeps _ _ _) ?_
    | decide
    | dsimp -zeta only

theorem State.loseRegs_keeps (s : State) (a1 : Nat → Bool) :
    Keeps [] s (State.loseRegs s a1) := by
  unfold State.loseRegs
  with_reducible repeat' first
    | assumption
    | exact Keeps.rfl
    | refine Keeps.upd ?_ List.prefix_rfl (Nat.le_refl _) id (fun p hp => by cases p <;> first | rfl | exact absurd (by decide) hp)
    | decide
    | dsimp -zeta only

theorem State.loseBlock_keeps (s : State) (a1 : Pd) :
    Keeps [] s (State.loseBlock s a1) := by
  unfold State.loseBlock
  with_reducible repeat' first
    | assumption
    | exact Keeps.rfl
    | apply Keeps.next ?_ (State.loseRegs_keeps _ _) ?_
    | decide
    | dsimp -zeta only

theorem State.abandonTasks_keeps (s : State) :
    Keeps [.tasks] s (State.abandonTasks s) := by
  unfold State.abandonTasks
  with_reducible repeat' first
    | assumption
    | (extract_lets +onlyGivenNames z; revert z; intro y)
    | exact Keeps.rfl
    | refine Keeps.upd ?_ List.prefix_rfl (Nat.le_refl _) id (fun p hp => by cases p <;> first | rfl | exact absurd (by decide) hp)
    | decide
    | dsimp -zeta only

theorem State.loseSlack_keeps (s : State) :
    Keeps [.turn, .tasks] s (State.loseSlack s) := by
  unfold State.loseSlack
  with_reducible repeat' first
    | assumption
    | (extract_lets +onlyGivenNames z
       refine Keeps.let z ?_ ?_
       subst z
       rotate_left
       clear_value z
       revert z
       intro y hy
       rotate_left)
    | (extract_lets +onlyGivenNames z; revert z; intro y)
    | exact Keeps.rfl
    | apply Keeps.next ?_ (State.loseRegs_keeps _ _) ?_
    | refine Keeps.upd ?_ List.prefix_rfl (Nat.le_refl _) id (fun p hp => by cases p <;> first | rfl | exact absurd (by decide) hp)
    | decide
    | dsimp -zeta only

theorem State.abandonLoops_keeps (s : State) :
    Keeps [.turn] s (State.abandonLoops s) := by
  unfold State.abandonLoops
  with_reducible repeat' first
    | assumption
    | (extract_lets +onlyGivenNames z; revert z; intro y)
    | exact Keeps.rfl
    | refine Keeps.upd ?_ List.prefix_rfl (Nat.le_refl _) id (fun p hp => by cases p <;> first | rfl | exact absurd (by decide) hp)
    | decide
    | dsimp -zeta only

theorem State.idleTraces_keeps (s : State) :
    Keeps [.trace] s (State.idleTraces s) := by
  unfold State.idleTraces
  with_reducible repeat' first
    | assumption
    | exact Keeps.rfl
    | refine Keeps.foldl _ _ ?_ ?_
    | apply Keeps.next ?_ (State.idleGroup_keeps _ _) ?_
    | decide
    | intro y
    | dsimp -zeta only

theorem State.loseMem_keeps (s : State) (lo hi : Nat) : Keeps [.mem] s (s.loseMem lo hi) :=
  ⟨rfl, List.prefix_rfl, Nat.le_refl _, Memory.wf_filter _, fun p hp => by
    cases p <;> first | rfl | exact absurd (by decide) hp⟩


theorem State.loseLocks_keeps (s : State) :
    Keeps [.skein, .trace, .time, .rows, .brake, .host, .recorder] s (State.loseLocks s) := by
  unfold State.loseLocks
  with_reducible repeat' first
    | assumption
    | (extract_lets +onlyGivenNames z
       refine Keeps.let z ?_ ?_
       subst z
       rotate_left
       clear_value z
       revert z
       intro y hy
       rotate_left)
    | (extract_lets +onlyGivenNames z; revert z; intro y)
    | exact Keeps.rfl
    | apply Keeps.next ?_ (State.wr_keeps _ _ _) ?_
    | apply Keeps.next ?_ (State.setRow_keeps _ _ _) ?_
    | refine Keeps.upd ?_ List.prefix_rfl (Nat.le_refl _) id (fun p hp => by cases p <;> first | rfl | exact absurd (by decide) hp)
    | decide
    | dsimp -zeta only

theorem State.loseBins_keeps (s : State) :
    Keeps [.staged, .hop, .progs, .forces, .image, .skein, .tasks, .loops, .trace, .time, .rows, .brake, .host, .seals, .recorder, .mem, .caps] s (State.loseBins s) := by
  unfold State.loseBins
  with_reducible repeat' first
    | assumption
    | (extract_lets +onlyGivenNames z
       refine Keeps.let z ?_ ?_
       subst z
       rotate_left
       clear_value z
       revert z
       intro y hy
       rotate_left)
    | (extract_lets +onlyGivenNames z; revert z; intro y)
    | exact Keeps.rfl
    | apply Keeps.next ?_ (State.loseLocks_keeps _) ?_
    | apply Keeps.next ?_ (State.loseMem_keeps _ _ _) ?_
    | apply Keeps.next ?_ (State.loseBlock_keeps _ _) ?_
    | refine Keeps.upd ?_ List.prefix_rfl (Nat.le_refl _) id (fun p hp => by cases p <;> first | rfl | exact absurd (by decide) hp)
    | decide
    | dsimp -zeta only

theorem State.loseHost_keeps (s : State) :
    Keeps [.host, .mill] s (State.loseHost s) := by
  unfold State.loseHost
  with_reducible repeat' first
    | assumption
    | (extract_lets +onlyGivenNames z
       refine Keeps.let z ?_ ?_
       subst z
       rotate_left
       clear_value z
       revert z
       intro y hy
       rotate_left)
    | (extract_lets +onlyGivenNames z; revert z; intro y)
    | exact Keeps.rfl
    | apply Keeps.next ?_ (State.loseBlock_keeps _ _) ?_
    | refine Keeps.upd ?_ List.prefix_rfl (Nat.le_refl _) id (fun p hp => by cases p <;> first | rfl | exact absurd (by decide) hp)
    | decide
    | dsimp -zeta only

theorem State.loseMiller_keeps (s : State) :
    Keeps [.settingsMram, .hop, .tasks, .recorder, .fw] s (State.loseMiller s) := by
  have hb := State.loseBlock_keeps s.cutImage .miller
  refine Keeps.upd (t := s.cutImage.loseBlock .miller) ((State.cutImage_keeps s |>.next' (by decide)).next hb (by decide))
    List.prefix_rfl (Nat.le_refl _) id (fun p hp => ?_)
  cases p
  case retained => exact (congrArg TasksSt.retain (hb.parts .tasks (by decide))).symm
  case log => exact (congrArg RecSt.records (hb.parts .recorder (by decide))).symm
  case fwSlots => exact (congrArg FwSt.slots (hb.parts .fw (by decide))).symm
  all_goals first | rfl | exact absurd (by decide) hp

theorem State.loseTime_keeps (s : State) :
    Keeps [.time] s (State.loseTime s) := by
  unfold State.loseTime
  with_reducible repeat' first
    | assumption
    | (extract_lets +onlyGivenNames z
       refine Keeps.let z ?_ ?_
       subst z
       rotate_left
       clear_value z
       revert z
       intro y hy
       rotate_left)
    | (extract_lets +onlyGivenNames z; revert z; intro y)
    | exact Keeps.rfl
    | apply Keeps.next ?_ (State.loseBlock_keeps _ _) ?_
    | refine Keeps.upd ?_ List.prefix_rfl (Nat.le_refl _) id (fun p hp => by cases p <;> first | rfl | exact absurd (by decide) hp)
    | decide
    | dsimp -zeta only

theorem State.loseRingPly_keeps (s : State) :
    Keeps [.ring, .ply] s (State.loseRingPly s) := by
  unfold State.loseRingPly
  with_reducible repeat' first
    | assumption
    | (extract_lets +onlyGivenNames z
       refine Keeps.let z ?_ ?_
       subst z
       rotate_left
       clear_value z
       revert z
       intro y hy
       rotate_left)
    | (extract_lets +onlyGivenNames z; revert z; intro y)
    | exact Keeps.rfl
    | apply Keeps.next ?_ (State.loseBlock_keeps _ _) ?_
    | apply Keeps.next ?_ (State.wr_keeps _ _ _) ?_
    | refine Keeps.upd ?_ List.prefix_rfl (Nat.le_refl _) id (fun p hp => by cases p <;> first | rfl | exact absurd (by decide) hp)
    | decide
    | dsimp -zeta only

theorem State.lose_keeps (s : State) (a1 : Pd) :
    Keeps [.staged, .settingsMram, .hop, .progs, .forces, .image, .turn, .skein, .tasks, .loops, .trace, .ring, .time, .ply, .rows, .brake, .host, .mill, .seals, .recorder, .fw, .mem, .caps] s (State.lose s a1) := by
  unfold State.lose
  with_reducible repeat' first
    | assumption
    | (extract_lets +onlyGivenNames z
       refine Keeps.let z ?_ ?_
       subst z
       rotate_left
       clear_value z
       revert z
       intro y hy
       rotate_left)
    | (extract_lets +onlyGivenNames z; revert z; intro y)
    | exact Keeps.rfl
    | apply Keeps.next ?_ (State.loseMem_keeps _ _ _) ?_
    | apply Keeps.next ?_ (State.idleTraces_keeps _) ?_
    | apply Keeps.next ?_ (State.loseSlack_keeps _) ?_
    | apply Keeps.next ?_ (State.abandonTasks_keeps _) ?_
    | apply Keeps.next ?_ (State.abandonLoops_keeps _) ?_
    | apply Keeps.next ?_ (State.loseRingPly_keeps _) ?_
    | apply Keeps.next ?_ (State.loseBins_keeps _) ?_
    | apply Keeps.next ?_ (State.loseTime_keeps _) ?_
    | apply Keeps.next ?_ (State.loseHost_keeps _) ?_
    | apply Keeps.next ?_ (State.loseMiller_keeps _) ?_
    | apply Keeps.next ?_ (State.loseBlock_keeps _ _) ?_
    | split
    | refine Keeps.upd ?_ List.prefix_rfl (Nat.le_refl _) id (fun p hp => by cases p <;> first | rfl | exact absurd (by decide) hp)
    | decide
    | dsimp -zeta only

theorem State.turnOff_keeps (s : State) (a1 : Pd) :
    Keeps [.staged, .settingsMram, .hop, .progs, .forces, .image, .turn, .skein, .tasks, .loops, .trace, .ring, .time, .ply, .rows, .brake, .host, .mill, .seals, .recorder, .fw, .mem, .caps] s (State.turnOff s a1) := by
  unfold State.turnOff
  with_reducible repeat' first
    | assumption
    | exact Keeps.rfl
    | refine Keeps.ite ?_ ?_
    | apply Keeps.next ?_ (State.wr_keeps _ _ _) ?_
    | apply Keeps.next ?_ (State.lose_keeps _ _) ?_
    | decide
    | dsimp -zeta only

theorem State.turnOffTo_keeps (s : State) (a1 : Nat) :
    Keeps [.staged, .settingsMram, .hop, .progs, .forces, .image, .turn, .skein, .tasks, .loops, .trace, .ring, .time, .ply, .rows, .brake, .host, .mill, .seals, .recorder, .fw, .mem, .caps] s (State.turnOffTo s a1) := by
  unfold State.turnOffTo
  with_reducible repeat' first
    | assumption
    | exact Keeps.rfl
    | refine Keeps.foldl _ _ ?_ ?_
    | apply Keeps.next ?_ (State.turnOff_keeps _ _) ?_
    | decide
    | intro y
    | dsimp -zeta only

theorem State.quitRole_keeps (s : State) (a1 : Nat) :
    Keeps [.hop, .skein, .trace, .time, .ply, .rows, .brake, .host, .recorder] s (State.quitRole s a1) := by
  unfold State.quitRole
  with_reducible repeat' first
    | assumption
    | (extract_lets +onlyGivenNames z
       refine Keeps.let z ?_ ?_
       subst z
       rotate_left
       clear_value z
       revert z
       intro y hy
       rotate_left)
    | (extract_lets +onlyGivenNames z; revert z; intro y)
    | exact Keeps.rfl
    | refine Keeps.ite ?_ ?_
    | apply Keeps.next ?_ (State.abdicate_keeps _ _) ?_
    | apply Keeps.next ?_ (State.leaveTracking_keeps _ _) ?_
    | apply Keeps.next ?_ (State.wr_keeps _ _ _) ?_
    | apply Keeps.next ?_ (State.setPlyState_keeps _ _) ?_
    | refine Keeps.upd ?_ List.prefix_rfl (Nat.le_refl _) id (fun p hp => by cases p <;> first | rfl | exact absurd (by decide) hp)
    | decide
    | dsimp -zeta only

theorem State.hostState_keeps (s : State) :
    Keeps [] s (State.hostState s) := by
  unfold State.hostState
  with_reducible repeat' first
    | assumption
    | exact Keeps.rfl
    | refine Keeps.ite ?_ ?_
    | apply Keeps.next ?_ (State.wr_keeps _ _ _) ?_
    | decide
    | dsimp -zeta only

theorem State.hostReset_keeps (s : State) (a1 : Bool) (a2 : Bool) :
    Keeps [.trace, .host] s (State.hostReset s a1 a2) := by
  unfold State.hostReset
  with_reducible repeat' first
    | assumption
    | (extract_lets +onlyGivenNames z
       refine Keeps.let z ?_ ?_
       subst z
       rotate_left
       clear_value z
       revert z
       intro y hy
       rotate_left)
    | (extract_lets +onlyGivenNames z; revert z; intro y)
    | exact Keeps.rfl
    | refine Keeps.ite ?_ ?_
    | refine Keeps.foldl _ _ ?_ ?_
    | apply Keeps.next ?_ (State.hostState_keeps _) ?_
    | apply Keeps.next ?_ (State.busyBits_keeps _) ?_
    | apply Keeps.next ?_ (State.idleGroup_keeps _ _) ?_
    | refine Keeps.upd ?_ List.prefix_rfl (Nat.le_refl _) id (fun p hp => by cases p <;> first | rfl | exact absurd (by decide) hp)
    | decide
    | intro y
    | dsimp -zeta only

theorem State.loseRecord_keeps (s : State) :
    Keeps [.host, .recorder] s (State.loseRecord s) := by
  unfold State.loseRecord
  with_reducible repeat' first
    | assumption
    | exact Keeps.rfl
    | apply Keeps.next ?_ (State.recEvt_keeps _ _) ?_
    | apply Keeps.next ?_ (State.inc_keeps _ _) ?_
    | decide
    | dsimp -zeta only

theorem State.writeRecord_keeps (s : State) (a1 : RecEntry) :
    Keeps [.host, .log, .recorder] s (State.writeRecord s a1) := by
  unfold State.writeRecord
  with_reducible repeat' first
    | assumption
    | (extract_lets +onlyGivenNames z
       refine Keeps.let z ?_ ?_
       subst z
       rotate_left
       clear_value z
       revert z
       intro y hy
       rotate_left)
    | (extract_lets +onlyGivenNames z; revert z; intro y)
    | exact Keeps.rfl
    | refine Keeps.ite ?_ ?_
    | apply Keeps.next ?_ (State.loseRecord_keeps _) ?_
    | apply Keeps.next ?_ (State.wr_keeps _ _ _) ?_
    | apply Keeps.next ?_ (State.wrb_keeps _ _ _) ?_
    | apply Keeps.next ?_ (State.recEvt_keeps _ _) ?_
    | refine Keeps.upd ?_ List.prefix_rfl (Nat.le_refl _) id (fun p hp => by cases p <;> first | rfl | exact absurd (by decide) hp)
    | decide
    | dsimp -zeta only

theorem State.writeHead_keeps (s : State) :
    Keeps [.host, .log, .recorder] s (State.writeHead s) := by
  unfold State.writeHead
  with_reducible repeat' first
    | assumption
    | (extract_lets +onlyGivenNames z
       refine Keeps.let z ?_ ?_
       subst z
       rotate_left
       clear_value z
       revert z
       intro y hy
       rotate_left)
    | (extract_lets +onlyGivenNames z; revert z; intro y)
    | exact Keeps.rfl
    | apply Keeps.next ?_ (State.writeRecord_keeps _ _) ?_
    | apply Keeps.next ?_ (State.wr_keeps _ _ _) ?_
    | split
    | refine Keeps.upd ?_ List.prefix_rfl (Nat.le_refl _) id (fun p hp => by cases p <;> first | rfl | exact absurd (by decide) hp)
    | decide
    | dsimp -zeta only

theorem State.writeQueued_keeps (s : State) (a1 : RecEntry → Bool) :
    Keeps [.host, .log, .recorder] s (State.writeQueued s a1) := by
  unfold State.writeQueued
  with_reducible repeat' first
    | assumption
    | (extract_lets +onlyGivenNames z
       refine Keeps.let z ?_ ?_
       subst z
       rotate_left
       clear_value z
       revert z
       intro y hy
       rotate_left)
    | (extract_lets +onlyGivenNames z; revert z; intro y)
    | exact Keeps.rfl
    | refine Keeps.foldl _ _ ?_ ?_
    | apply Keeps.next ?_ (State.writeRecord_keeps _ _) ?_
    | apply Keeps.next ?_ (State.wr_keeps _ _ _) ?_
    | refine Keeps.upd ?_ List.prefix_rfl (Nat.le_refl _) id (fun p hp => by cases p <;> first | rfl | exact absurd (by decide) hp)
    | decide
    | intro y
    | dsimp -zeta only

theorem execRecManual_keeps (s : State) :
    Keeps [.recorder] s (settle s (execRecManual s)) := by
  unfold execRecManual
  with_reducible repeat' first
    | assumption
    | exact Keeps.rfl
    | refine Keeps.iteO ?_ ?_
    | refine Keeps.ite ?_ ?_
    | refine Keeps.ok ?_
    | apply Keeps.next ?_ (State.fireTrigger_keeps _ _ _ _ _) ?_
    | decide
    | dsimp -zeta only

theorem execRecSnapshot_keeps (s : State) :
    Keeps [.host, .recorder] s (settle s (execRecSnapshot s)) := by
  unfold execRecSnapshot
  with_reducible repeat' first
    | assumption
    | (extract_lets +onlyGivenNames z
       refine Keeps.let z ?_ ?_
       subst z
       rotate_left
       clear_value z
       revert z
       intro y hy
       rotate_left)
    | (extract_lets +onlyGivenNames z; revert z; intro y)
    | exact Keeps.rfl
    | refine Keeps.iteO ?_ ?_
    | refine Keeps.ite ?_ ?_
    | refine Keeps.ok ?_
    | refine Keeps.foldl _ _ ?_ ?_
    | apply Keeps.next ?_ (State.takeRecord_keeps _ _ _) ?_
    | refine Keeps.upd ?_ List.prefix_rfl (Nat.le_refl _) id (fun p hp => by cases p <;> first | rfl | exact absurd (by decide) hp)
    | decide
    | intro y
    | dsimp -zeta only

theorem execRecRecordWritten_keeps (s : State) :
    Keeps [.host, .log, .recorder] s (settle s (execRecRecordWritten s)) := by
  unfold execRecRecordWritten
  with_reducible repeat' first
    | assumption
    | exact Keeps.rfl
    | refine Keeps.iteO ?_ ?_
    | refine Keeps.ite ?_ ?_
    | refine Keeps.ok ?_
    | apply Keeps.next ?_ (State.writeHead_keeps _) ?_
    | decide
    | dsimp -zeta only

theorem execRecHoldoffEnd_keeps (a0 : Fin 64) (s : State) :
    Keeps [.recorder] s (settle s (execRecHoldoffEnd a0 s)) := by
  unfold execRecHoldoffEnd
  with_reducible repeat' first
    | assumption
    | (extract_lets +onlyGivenNames z; revert z; intro y)
    | exact Keeps.rfl
    | refine Keeps.ok ?_
    | refine Keeps.upd ?_ List.prefix_rfl (Nat.le_refl _) id (fun p hp => by cases p <;> first | rfl | exact absurd (by decide) hp)
    | decide
    | dsimp -zeta only

theorem State.checkLog_keeps (s : State) (a1 : Bool) :
    Keeps [.host, .recorder] s (State.checkLog s a1) := by
  unfold State.checkLog
  with_reducible repeat' first
    | assumption
    | (extract_lets +onlyGivenNames z
       refine Keeps.let z ?_ ?_
       subst z
       rotate_left
       clear_value z
       revert z
       intro y hy
       rotate_left)
    | (extract_lets +onlyGivenNames z; revert z; intro y)
    | exact Keeps.rfl
    | refine Keeps.ite ?_ ?_
    | apply Keeps.next ?_ (State.recEvt_keeps _ _) ?_
    | apply Keeps.next ?_ (State.wr_keeps _ _ _) ?_
    | apply Keeps.next ?_ (State.wrb_keeps _ _ _) ?_
    | refine Keeps.upd ?_ List.prefix_rfl (Nat.le_refl _) id (fun p hp => by cases p <;> first | rfl | exact absurd (by decide) hp)
    | decide
    | dsimp -zeta only

end Sys2Proof.Machine
end

