-- ==== Sys2Proof/Laws/KeepsHost.lean ====
section
/-! SUPPORT. What each operation and each meaning of firmware, resets, the ply, the brake, the host rings and power leaves alone. -/

namespace Sys2Proof.Machine

set_option linter.all false

theorem State.sendState_keeps (s : State) (a1 : Nat) (a2 : Nat) (a3 : Nat) (a4 : List Nat) :
    Keeps [.ply] s (State.sendState s a1 a2 a3 a4) := by
  unfold State.sendState
  with_reducible repeat' first
    | assumption
    | exact Keeps.rfl
    | apply Keeps.next ?_ (State.sendPly_keeps _ _ _ _) ?_
    | decide
    | dsimp -zeta only

theorem State.sendBytes_keeps (s : State) (a1 : Nat) (a2 : Bytes) :
    Keeps [.ply] s (State.sendBytes s a1 a2) := by
  unfold State.sendBytes
  with_reducible repeat' first
    | assumption
    | (extract_lets +onlyGivenNames z; revert z; intro y)
    | exact Keeps.rfl
    | refine Keeps.foldl _ _ ?_ ?_
    | apply Keeps.next ?_ (State.sendState_keeps _ _ _ _ _) ?_
    | decide
    | intro y
    | dsimp -zeta only

theorem State.fwReport_keeps (s : State) (a1 : Nat) (a2 : Nat) :
    Keeps [.ply] s (State.fwReport s a1 a2) := by
  unfold State.fwReport
  with_reducible repeat' first
    | assumption
    | exact Keeps.rfl
    | apply Keeps.next ?_ (State.sendState_keeps _ _ _ _ _) ?_
    | decide
    | dsimp -zeta only

theorem State.fwNote_keeps (s : State) (a1 : Nat) :
    Keeps [] s (State.fwNote s a1) := by
  unfold State.fwNote
  with_reducible repeat' first
    | assumption
    | exact Keeps.rfl
    | apply Keeps.next ?_ (State.wr_keeps _ _ _) ?_
    | decide
    | dsimp -zeta only

theorem State.fwRest_keeps (s : State) :
    Keeps [] s (State.fwRest s) := by
  unfold State.fwRest
  with_reducible repeat' first
    | assumption
    | exact Keeps.rfl
    | refine Keeps.ite ?_ ?_
    | apply Keeps.next ?_ (State.wr_keeps _ _ _) ?_
    | decide
    | dsimp -zeta only

theorem State.fwEmpty_keeps (s : State) :
    Keeps [.fw] s (State.fwEmpty s) := by
  unfold State.fwEmpty
  with_reducible repeat' first
    | assumption
    | (extract_lets +onlyGivenNames z; revert z; intro y)
    | exact Keeps.rfl
    | refine Keeps.upd ?_ List.prefix_rfl (Nat.le_refl _) id (fun p hp => by cases p <;> first | rfl | exact absurd (by decide) hp)
    | decide
    | dsimp -zeta only

theorem State.fwFail_keeps (s : State) (a1 : Nat) :
    Keeps [.ply, .host, .recorder, .fw] s (State.fwFail s a1) := by
  unfold State.fwFail
  with_reducible repeat' first
    | assumption
    | (extract_lets +onlyGivenNames z
       refine Keeps.let z ?_ ?_
       subst z
       rotate_left
       clear_value z
       revert z
       intro y hy
       rotate_left)
    | (extract_lets +onlyGivenNames z; revert z; intro y)
    | exact Keeps.rfl
    | refine Keeps.ite ?_ ?_
    | apply Keeps.next ?_ (State.fwEmpty_keeps _) ?_
    | apply Keeps.next ?_ (State.fwNote_keeps _ _) ?_
    | apply Keeps.next ?_ (State.fwEvt_keeps _ _) ?_
    | apply Keeps.next ?_ (State.wr_keeps _ _ _) ?_
    | apply Keeps.next ?_ (State.fwRest_keeps _) ?_
    | apply Keeps.next ?_ (State.fwReport_keeps _ _ _) ?_
    | refine Keeps.upd ?_ List.prefix_rfl (Nat.le_refl _) id (fun p hp => by cases p <;> first | rfl | exact absurd (by decide) hp)
    | decide
    | dsimp -zeta only

theorem State.setBuild_keeps (s : State) (a1 : FwBuild) :
    Keeps [.fw] s (State.setBuild s a1) := by
  unfold State.setBuild
  with_reducible repeat' first
    | assumption
    | (extract_lets +onlyGivenNames z; revert z; intro y)
    | exact Keeps.rfl
    | refine Keeps.upd ?_ List.prefix_rfl (Nat.le_refl _) id (fun p hp => by cases p <;> first | rfl | exact absurd (by decide) hp)
    | decide
    | dsimp -zeta only

theorem State.openBuild_keeps (s : State) (a1 : FwBuild) :
    Keeps [.ply, .host, .recorder, .fw] s (State.openBuild s a1).1 := by
  unfold State.openBuild
  with_reducible repeat' first
    | assumption
    | (extract_lets +onlyGivenNames z
       refine Keeps.let z ?_ ?_
       subst z
       rotate_left
       clear_value z
       revert z
       intro y hy
       rotate_left)
    | (extract_lets +onlyGivenNames z; revert z; intro y)
    | exact Keeps.rfl
    | refine Keeps.ite ?_ ?_
    | refine Keeps.ite1 ?_ ?_
    | apply Keeps.next ?_ (State.fwFail_keeps _ _) ?_
    | apply Keeps.next ?_ (State.setBuild_keeps _ _) ?_
    | apply Keeps.next ?_ (State.sendBytes_keeps _ _ _) ?_
    | decide
    | dsimp -zeta only

theorem State.manifestPiece_keeps (s : State) (a1 : Nat) (a2 : Nat) (a3 : Bytes) :
    Keeps [.ply, .host, .recorder, .fw] s (State.manifestPiece s a1 a2 a3).1 := by
  unfold State.manifestPiece
  with_reducible repeat' first
    | assumption
    | (extract_lets +onlyGivenNames z
       refine Keeps.let z ?_ ?_
       subst z
       rotate_left
       clear_value z
       revert z
       intro y hy
       rotate_left)
    | (extract_lets +onlyGivenNames z; revert z; intro y)
    | exact Keeps.rfl
    | refine Keeps.ite ?_ ?_
    | refine Keeps.ite1 ?_ ?_
    | (rename (_ : State × _) = _ => heq
       refine Keeps.pair heq ?_ ?_ <;> clear heq
       rotate_left
       intro hy
       rotate_left)
    | apply Keeps.next ?_ (State.fwNote_keeps _ _) ?_
    | apply Keeps.next ?_ (State.wr_keeps _ _ _) ?_
    | apply Keeps.next ?_ (State.fwEmpty_keeps _) ?_
    | apply Keeps.next ?_ (State.setBuild_keeps _ _) ?_
    | apply Keeps.next ?_ (State.fwFail_keeps _ _) ?_
    | apply Keeps.next ?_ (State.openBuild_keeps _ _) ?_
    | split
    | decide
    | dsimp -zeta only

theorem State.deltaPiece_keeps (s : State) (a1 : Nat) (a2 : Nat) (a3 : Nat) (a4 : Bytes) (a5 : Bool) :
    Keeps [.ply, .host, .recorder, .fw] s (State.deltaPiece s a1 a2 a3 a4 a5).1 := by
  unfold State.deltaPiece
  with_reducible repeat' first
    | assumption
    | (extract_lets +onlyGivenNames z
       refine Keeps.let z ?_ ?_
       subst z
       rotate_left
       clear_value z
       revert z
       intro y hy
       rotate_left)
    | (extract_lets +onlyGivenNames z; revert z; intro y)
    | exact Keeps.rfl
    | refine Keeps.ite ?_ ?_
    | refine Keeps.ite1 ?_ ?_
    | apply Keeps.next ?_ (State.fwNote_keeps _ _) ?_
    | apply Keeps.next ?_ (State.fwFail_keeps _ _) ?_
    | apply Keeps.next ?_ (State.setBuild_keeps _ _) ?_
    | apply Keeps.next ?_ (State.sendBytes_keeps _ _ _) ?_
    | split
    | decide
    | dsimp -zeta only

theorem State.imagePiece_keeps (s : State) (a1 : Nat) (a2 : Nat) (a3 : Bytes) (a4 : Bool) :
    Keeps [.ply, .host, .recorder, .fw] s (State.imagePiece s a1 a2 a3 a4).1 := by
  unfold State.imagePiece
  with_reducible repeat' first
    | assumption
    | (extract_lets +onlyGivenNames z; revert z; intro y)
    | exact Keeps.rfl
    | refine Keeps.ite ?_ ?_
    | refine Keeps.ite1 ?_ ?_
    | apply Keeps.next ?_ (State.fwNote_keeps _ _) ?_
    | apply Keeps.next ?_ (State.fwFail_keeps _ _) ?_
    | apply Keeps.next ?_ (State.setBuild_keeps _ _) ?_
    | split
    | decide
    | dsimp -zeta only

theorem State.storeBuild_keeps (s : State) (a1 : FwBuild) :
    Keeps [.fwSlots, .fw] s (State.storeBuild s a1) := by
  unfold State.storeBuild
  with_reducible repeat' first
    | assumption
    | (extract_lets +onlyGivenNames z; revert z; intro y)
    | exact Keeps.rfl
    | refine Keeps.upd ?_ List.prefix_rfl (Nat.le_refl _) id (fun p hp => by cases p <;> first | rfl | exact absurd (by decide) hp)
    | decide
    | dsimp -zeta only

theorem State.activate_keeps (s : State) (a1 : Nat) :
    Keeps [.ply, .fw] s (State.activate s a1).1 := by
  unfold State.activate
  with_reducible repeat' first
    | assumption
    | (extract_lets +onlyGivenNames z
       refine Keeps.let z ?_ ?_
       subst z
       rotate_left
       clear_value z
       revert z
       intro y hy
       rotate_left)
    | (extract_lets +onlyGivenNames z; revert z; intro y)
    | exact Keeps.rfl
    | refine Keeps.ite ?_ ?_
    | refine Keeps.ite1 ?_ ?_
    | apply Keeps.next ?_ (State.fwNote_keeps _ _) ?_
    | apply Keeps.next ?_ (State.wr_keeps _ _ _) ?_
    | apply Keeps.next ?_ (State.fwReport_keeps _ _ _) ?_
    | refine Keeps.upd ?_ List.prefix_rfl (Nat.le_refl _) id (fun p hp => by cases p <;> first | rfl | exact absurd (by decide) hp)
    | decide
    | dsimp -zeta only

theorem State.endActivation_keeps (s : State) :
    Keeps [.fw] s (State.endActivation s) := by
  unfold State.endActivation
  with_reducible repeat' first
    | assumption
    | (extract_lets +onlyGivenNames z
       refine Keeps.let z ?_ ?_
       subst z
       rotate_left
       clear_value z
       revert z
       intro y hy
       rotate_left)
    | (extract_lets +onlyGivenNames z; revert z; intro y)
    | exact Keeps.rfl
    | refine Keeps.ite ?_ ?_
    | apply Keeps.next ?_ (State.wr_keeps _ _ _) ?_
    | refine Keeps.upd ?_ List.prefix_rfl (Nat.le_refl _) id (fun p hp => by cases p <;> first | rfl | exact absurd (by decide) hp)
    | decide
    | dsimp -zeta only

theorem State.confirm_keeps (s : State) :
    Keeps [.ply, .host, .recorder] s (State.confirm s) := by
  unfold State.confirm
  with_reducible repeat' first
    | assumption
    | (extract_lets +onlyGivenNames z
       refine Keeps.let z ?_ ?_
       subst z
       rotate_left
       clear_value z
       revert z
       intro y hy
       rotate_left)
    | exact Keeps.rfl
    | refine Keeps.ite ?_ ?_
    | apply Keeps.next ?_ (State.wr_keeps _ _ _) ?_
    | apply Keeps.next ?_ (State.fwEvt_keeps _ _) ?_
    | apply Keeps.next ?_ (State.fwReport_keeps _ _ _) ?_
    | decide
    | dsimp -zeta only

theorem State.commandConfirm_keeps (s : State) :
    Keeps [.ply, .host, .recorder, .fw] s (State.commandConfirm s).1 := by
  unfold State.commandConfirm
  with_reducible repeat' first
    | assumption
    | (extract_lets +onlyGivenNames z
       refine Keeps.let z ?_ ?_
       subst z
       rotate_left
       clear_value z
       revert z
       intro y hy
       rotate_left)
    | (extract_lets +onlyGivenNames z; revert z; intro y)
    | exact Keeps.rfl
    | refine Keeps.ite ?_ ?_
    | refine Keeps.ite1 ?_ ?_
    | apply Keeps.next ?_ (State.fwNote_keeps _ _) ?_
    | apply Keeps.next ?_ (State.confirm_keeps _) ?_
    | refine Keeps.upd ?_ List.prefix_rfl (Nat.le_refl _) id (fun p hp => by cases p <;> first | rfl | exact absurd (by decide) hp)
    | decide
    | dsimp -zeta only

theorem State.gainBrake_keeps (s : State) :
    Keeps [.skein, .trace, .time, .ply, .rows, .brake, .host, .recorder] s (State.gainBrake s) := by
  unfold State.gainBrake
  with_reducible repeat' first
    | assumption
    | (extract_lets +onlyGivenNames z
       refine Keeps.let z ?_ ?_
       subst z
       rotate_left
       clear_value z
       revert z
       intro y hy
       rotate_left)
    | (extract_lets +onlyGivenNames z; revert z; intro y)
    | exact Keeps.rfl
    | apply Keeps.next ?_ (State.setRow_keeps _ _ _) ?_
    | apply Keeps.next ?_ (State.wr_keeps _ _ _) ?_
    | apply Keeps.next ?_ (State.evalMatrix_keeps _) ?_
    | refine Keeps.upd ?_ List.prefix_rfl (Nat.le_refl _) id (fun p hp => by cases p <;> first | rfl | exact absurd (by decide) hp)
    | decide
    | dsimp -zeta only

theorem State.startMatrix_keeps (s : State) :
    Keeps [.skein, .trace, .time, .rows, .brake, .host, .recorder] s (State.startMatrix s) := by
  unfold State.startMatrix
  with_reducible repeat' first
    | assumption
    | (extract_lets +onlyGivenNames z
       refine Keeps.let z ?_ ?_
       subst z
       rotate_left
       clear_value z
       revert z
       intro y hy
       rotate_left)
    | (extract_lets +onlyGivenNames z; revert z; intro y)
    | exact Keeps.rfl
    | refine Keeps.ite ?_ ?_
    | refine Keeps.foldl _ _ ?_ ?_
    | apply Keeps.next ?_ (State.evalMatrix_keeps _) ?_
    | apply Keeps.next ?_ (State.setRow_keeps _ _ _) ?_
    | apply Keeps.next ?_ (State.row19_keeps _) ?_
    | refine Keeps.upd ?_ List.prefix_rfl (Nat.le_refl _) id (fun p hp => by cases p <;> first | rfl | exact absurd (by decide) hp)
    | decide
    | intro y
    | dsimp -zeta only

theorem State.gainBins_keeps (s : State) :
    Keeps [.settings, .staged, .hop, .programs, .progs, .turnNumber, .turn, .skein, .trace, .time, .rows, .brake, .host, .recorder] s (State.gainBins s) := by
  unfold State.gainBins
  with_reducible repeat' first
    | assumption
    | (extract_lets +onlyGivenNames z
       refine Keeps.let z ?_ ?_
       subst z
       rotate_left
       clear_value z
       revert z
       intro y hy
       rotate_left)
    | exact Keeps.rfl
    | apply Keeps.next ?_ (State.startMatrix_keeps _) ?_
    | apply Keeps.next ?_ (State.wr_keeps _ _ _) ?_
    | apply Keeps.next ?_ (State.restoreImage_keeps _) ?_
    | refine Keeps.upd ?_ List.prefix_rfl (Nat.le_refl _) id (fun p hp => by cases p <;> first | rfl | exact absurd (by decide) hp)
    | decide
    | dsimp -zeta only

theorem State.startHost_keeps (s : State) :
    Keeps [] s (State.startHost s) := by
  unfold State.startHost
  with_reducible repeat' first
    | assumption
    | (extract_lets +onlyGivenNames z
       refine Keeps.let z ?_ ?_
       subst z
       rotate_left
       clear_value z
       revert z
       intro y hy
       rotate_left)
    | exact Keeps.rfl
    | refine Keeps.foldl _ _ ?_ ?_
    | apply Keeps.next ?_ (State.wr_keeps _ _ _) ?_
    | apply Keeps.next ?_ (State.hostState_keeps _) ?_
    | apply Keeps.next ?_ (State.setMuted_keeps _ _) ?_
    | decide
    | intro y
    | dsimp -zeta only

theorem State.startMiller_keeps (s : State) (a1 : Bool) :
    Keeps [.host, .fw] s (State.startMiller s a1) := by
  unfold State.startMiller
  with_reducible repeat' first
    | assumption
    | (extract_lets +onlyGivenNames z
       refine Keeps.let z ?_ ?_
       subst z
       rotate_left
       clear_value z
       revert z
       intro y hy
       rotate_left)
    | (extract_lets +onlyGivenNames z; revert z; intro y)
    | exact Keeps.rfl
    | apply Keeps.next ?_ (State.fwRest_keeps _) ?_
    | refine Keeps.upd ?_ List.prefix_rfl (Nat.le_refl _) id (fun p hp => by cases p <;> first | rfl | exact absurd (by decide) hp)
    | decide
    | dsimp -zeta only

theorem State.restartTasks_keeps (s : State) :
    Keeps [.tasks] s (State.restartTasks s) := by
  unfold State.restartTasks
  with_reducible repeat' first
    | assumption
    | (extract_lets +onlyGivenNames z; revert z; intro y)
    | exact Keeps.rfl
    | refine Keeps.ite ?_ ?_
    | refine Keeps.upd ?_ List.prefix_rfl (Nat.le_refl _) id (fun p hp => by cases p <;> first | rfl | exact absurd (by decide) hp)
    | decide
    | dsimp -zeta only

theorem State.brakeLoops_keeps (s : State) (a1 : List Nat) :
    Keeps [.loops] s (State.brakeLoops s a1) := by
  unfold State.brakeLoops
  with_reducible repeat' first
    | assumption
    | (extract_lets +onlyGivenNames z; revert z; intro y)
    | exact Keeps.rfl
    | refine Keeps.foldl _ _ ?_ ?_
    | refine Keeps.upd ?_ List.prefix_rfl (Nat.le_refl _) id (fun p hp => by cases p <;> first | rfl | exact absurd (by decide) hp)
    | decide
    | intro y
    | dsimp -zeta only

theorem State.restartTurns_keeps (s : State) :
    Keeps [.turn] s (State.restartTurns s) := by
  unfold State.restartTurns
  with_reducible repeat' first
    | assumption
    | (extract_lets +onlyGivenNames z; revert z; intro y)
    | exact Keeps.rfl
    | refine Keeps.upd ?_ List.prefix_rfl (Nat.le_refl _) id (fun p hp => by cases p <;> first | rfl | exact absurd (by decide) hp)
    | decide
    | dsimp -zeta only

theorem State.startSkein_keeps (s : State) :
    Keeps [.skein] s (State.startSkein s) := by
  unfold State.startSkein
  with_reducible repeat' first
    | assumption
    | (extract_lets +onlyGivenNames z
       refine Keeps.let z ?_ ?_
       subst z
       rotate_left
       clear_value z
       revert z
       intro y hy
       rotate_left)
    | exact Keeps.rfl
    | refine Keeps.foldl _ _ ?_ ?_
    | apply Keeps.next ?_ (State.loseBlock_keeps _ _) ?_
    | apply Keeps.next ?_ (State.wr_keeps _ _ _) ?_
    | apply Keeps.next ?_ (State.budgetRegs_keeps _) ?_
    | refine Keeps.upd ?_ List.prefix_rfl (Nat.le_refl _) id (fun p hp => by cases p <;> first | rfl | exact absurd (by decide) hp)
    | decide
    | intro y
    | dsimp -zeta only

theorem State.gain_keeps (s : State) (a1 : Pd) :
    Keeps [.settings, .staged, .hop, .programs, .progs, .turnNumber, .turn, .skein, .tasks, .loops, .trace, .time, .ply, .rows, .brake, .host, .recorder, .fw] s (State.gain s a1) := by
  unfold State.gain
  with_reducible repeat' first
    | assumption
    | exact Keeps.rfl
    | apply Keeps.next ?_ (State.gainBrake_keeps _) ?_
    | apply Keeps.next ?_ (State.startMiller_keeps _ _) ?_
    | apply Keeps.next ?_ (State.gainBins_keeps _) ?_
    | apply Keeps.next ?_ (State.startHost_keeps _) ?_
    | apply Keeps.next ?_ (State.wr_keeps _ _ _) ?_
    | apply Keeps.next ?_ (State.restartTasks_keeps _) ?_
    | apply Keeps.next ?_ (State.restartTurns_keeps _) ?_
    | apply Keeps.next ?_ (State.brakeLoops_keeps _ _) ?_
    | apply Keeps.next ?_ (State.startSkein_keeps _) ?_
    | split
    | decide
    | dsimp -zeta only

theorem State.turnOn_keeps (s : State) (a1 : Pd) :
    Keeps [.settings, .staged, .hop, .programs, .progs, .turnNumber, .turn, .skein, .tasks, .loops, .trace, .time, .ply, .rows, .brake, .host, .recorder, .fw] s (State.turnOn s a1) := by
  unfold State.turnOn
  with_reducible repeat' first
    | assumption
    | exact Keeps.rfl
    | refine Keeps.ite ?_ ?_
    | apply Keeps.next ?_ (State.gain_keeps _ _) ?_
    | apply Keeps.next ?_ (State.wr_keeps _ _ _) ?_
    | decide
    | dsimp -zeta only

theorem State.turnOnTo_keeps (s : State) (a1 : Nat) :
    Keeps [.settings, .staged, .hop, .programs, .progs, .turnNumber, .turn, .skein, .tasks, .loops, .trace, .time, .ply, .rows, .brake, .host, .mill, .recorder, .fw] s (State.turnOnTo s a1) := by
  unfold State.turnOnTo
  with_reducible repeat' first
    | assumption
    | (extract_lets +onlyGivenNames z
       refine Keeps.let z ?_ ?_
       subst z
       rotate_left
       clear_value z
       revert z
       intro y hy
       rotate_left)
    | (extract_lets +onlyGivenNames z; revert z; intro y)
    | exact Keeps.rfl
    | refine Keeps.ite ?_ ?_
    | refine Keeps.foldl _ _ ?_ ?_
    | apply Keeps.next ?_ (State.turnOn_keeps _ _) ?_
    | apply Keeps.next ?_ (State.setPlyState_keeps _ _) ?_
    | apply Keeps.next ?_ (State.wr_keeps _ _ _) ?_
    | apply Keeps.next ?_ (State.decideRole_keeps _) ?_
    | decide
    | intro y
    | dsimp -zeta only

theorem State.enterRecovery_keeps (s : State) :
    Keeps [.staged, .settingsMram, .hop, .progs, .forces, .image, .turn, .skein, .tasks, .loops, .trace, .ring, .time, .ply, .rows, .brake, .host, .mill, .seals, .recorder, .fw, .mem, .caps] s (State.enterRecovery s) := by
  unfold State.enterRecovery
  with_reducible repeat' first
    | assumption
    | (extract_lets +onlyGivenNames z
       refine Keeps.let z ?_ ?_
       subst z
       rotate_left
       clear_value z
       revert z
       intro y hy
       rotate_left)
    | (extract_lets +onlyGivenNames z; revert z; intro y)
    | exact Keeps.rfl
    | apply Keeps.next ?_ (State.wr_keeps _ _ _) ?_
    | apply Keeps.next ?_ (State.turnOffTo_keeps _ _) ?_
    | apply Keeps.next ?_ (State.evalMatrix_keeps _) ?_
    | apply Keeps.next ?_ (State.hostState_keeps _) ?_
    | refine Keeps.upd ?_ List.prefix_rfl (Nat.le_refl _) id (fun p hp => by cases p <;> first | rfl | exact absurd (by decide) hp)
    | decide
    | dsimp -zeta only

theorem State.resetHopper_keeps (s : State) :
    Keeps [.settings, .staged, .hop, .progs] s (State.resetHopper s) := by
  unfold State.resetHopper
  with_reducible repeat' first
    | assumption
    | (extract_lets +onlyGivenNames z
       refine Keeps.let z ?_ ?_
       subst z
       rotate_left
       clear_value z
       revert z
       intro y hy
       rotate_left)
    | (extract_lets +onlyGivenNames z; revert z; intro y)
    | exact Keeps.rfl
    | refine Keeps.ite ?_ ?_
    | apply Keeps.next ?_ (State.wr_keeps _ _ _) ?_
    | apply Keeps.next ?_ (State.hopState_keeps _) ?_
    | apply Keeps.next ?_ (State.restage_keeps _) ?_
    | refine Keeps.upd ?_ List.prefix_rfl (Nat.le_refl _) id (fun p hp => by cases p <;> first | rfl | exact absurd (by decide) hp)
    | decide
    | dsimp -zeta only

theorem State.resetPly_keeps (s : State) :
    Keeps [.ply] s (State.resetPly s) := by
  unfold State.resetPly
  with_reducible repeat' first
    | assumption
    | (extract_lets +onlyGivenNames z; revert z; intro y)
    | exact Keeps.rfl
    | refine Keeps.upd ?_ List.prefix_rfl (Nat.le_refl _) id (fun p hp => by cases p <;> first | rfl | exact absurd (by decide) hp)
    | decide
    | dsimp -zeta only

theorem State.resetFirmware_keeps (s : State) :
    Keeps [.host, .fw] s (State.resetFirmware s) := by
  unfold State.resetFirmware
  with_reducible repeat' first
    | assumption
    | (extract_lets +onlyGivenNames z
       refine Keeps.let z ?_ ?_
       subst z
       rotate_left
       clear_value z
       revert z
       intro y hy
       rotate_left)
    | (extract_lets +onlyGivenNames z; revert z; intro y)
    | exact Keeps.rfl
    | apply Keeps.next ?_ (State.startMiller_keeps _ _) ?_
    | apply Keeps.next ?_ (State.wr_keeps _ _ _) ?_
    | refine Keeps.upd ?_ List.prefix_rfl (Nat.le_refl _) id (fun p hp => by cases p <;> first | rfl | exact absurd (by decide) hp)
    | decide
    | dsimp -zeta only

theorem State.discardControl_keeps (s : State) :
    Keeps [.forces, .image, .turnNumber, .turn, .skein, .tasks, .loops, .trace, .time, .rows, .brake, .host, .recorder] s (State.discardControl s) := by
  unfold State.discardControl
  with_reducible repeat' first
    | assumption
    | (extract_lets +onlyGivenNames z
       refine Keeps.let z ?_ ?_
       subst z
       rotate_left
       clear_value z
       revert z
       intro y hy
       rotate_left)
    | (extract_lets +onlyGivenNames z; revert z; intro y)
    | exact Keeps.rfl
    | refine Keeps.foldl _ _ ?_ ?_
    | apply Keeps.next ?_ (State.wr_keeps _ _ _) ?_
    | apply Keeps.next ?_ (State.lossRows_keeps _) ?_
    | refine Keeps.upd ?_ List.prefix_rfl (Nat.le_refl _) id (fun p hp => by cases p <;> first | rfl | exact absurd (by decide) hp)
    | decide
    | intro y
    | dsimp -zeta only

theorem State.warmReset_keeps (s : State) (a1 : Nat) :
    Keeps [.settings, .staged, .settingsMram, .hop, .progs, .forces, .image, .turnNumber, .turn, .skein, .tasks, .loops, .trace, .ring, .time, .ply, .rows, .brake, .host, .mill, .seals, .recorder, .fw, .pwr, .mem, .caps] s (State.warmReset s a1) := by
  unfold State.warmReset
  with_reducible repeat' first
    | assumption
    | (extract_lets +onlyGivenNames z
       refine Keeps.let z ?_ ?_
       subst z
       rotate_left
       clear_value z
       revert z
       intro y hy
       rotate_left)
    | (extract_lets +onlyGivenNames z; revert z; intro y)
    | exact Keeps.rfl
    | refine Keeps.ite ?_ ?_
    | apply Keeps.next ?_ (State.dropArmed_keeps _ _) ?_
    | apply Keeps.next ?_ (State.quitRole_keeps _ _) ?_
    | apply Keeps.next ?_ (State.brakeLoops_keeps _ _) ?_
    | apply Keeps.next ?_ (State.idleTraces_keeps _) ?_
    | apply Keeps.next ?_ (State.loseSlack_keeps _) ?_
    | apply Keeps.next ?_ (State.abandonLoops_keeps _) ?_
    | apply Keeps.next ?_ (State.abandonTasks_keeps _) ?_
    | apply Keeps.next ?_ (State.closeBypass_keeps _) ?_
    | apply Keeps.next ?_ (State.hostReset_keeps _ _ _) ?_
    | apply Keeps.next ?_ (State.resetFirmware_keeps _) ?_
    | apply Keeps.next ?_ (State.resetPly_keeps _) ?_
    | apply Keeps.next ?_ (State.resetHopper_keeps _) ?_
    | apply Keeps.next ?_ (State.discardControl_keeps _) ?_
    | apply Keeps.next ?_ (State.restartTasks_keeps _) ?_
    | apply Keeps.next ?_ (State.setRow_keeps _ _ _) ?_
    | apply Keeps.next ?_ (State.setPlyState_keeps _ _) ?_
    | apply Keeps.next ?_ (State.wr_keeps _ _ _) ?_
    | apply Keeps.next ?_ (State.startHost_keeps _) ?_
    | apply Keeps.next ?_ (State.evalMatrix_keeps _) ?_
    | apply Keeps.next ?_ (State.row19_keeps _) ?_
    | apply Keeps.next ?_ (State.inc_keeps _ _) ?_
    | apply Keeps.next ?_ (State.enterRecovery_keeps _) ?_
    | apply Keeps.next ?_ (State.decideRole_keeps _) ?_
    | refine Keeps.upd ?_ List.prefix_rfl (Nat.le_refl _) id (fun p hp => by cases p <;> first | rfl | exact absurd (by decide) hp)
    | decide
    | dsimp -zeta only

theorem State.powerOff_keeps (s : State) :
    Keeps [.staged, .settingsMram, .hop, .progs, .forces, .image, .turn, .skein, .tasks, .loops, .trace, .ring, .time, .ply, .rows, .brake, .host, .mill, .seals, .recorder, .fw, .mem, .caps] s (State.powerOff s) := by
  unfold State.powerOff
  with_reducible repeat' first
    | assumption
    | exact Keeps.rfl
    | apply Keeps.next ?_ (State.turnOffTo_keeps _ _) ?_
    | apply Keeps.next ?_ (State.closeBypass_keeps _) ?_
    | apply Keeps.next ?_ (State.quitRole_keeps _ _) ?_
    | decide
    | dsimp -zeta only

theorem State.readStraps_keeps (s : State) (a1 : Nat) :
    Keeps [] s (State.readStraps s a1) := by
  unfold State.readStraps
  with_reducible repeat' first
    | assumption
    | (extract_lets +onlyGivenNames z
       refine Keeps.let z ?_ ?_
       subst z
       rotate_left
       clear_value z
       revert z
       intro y hy
       rotate_left)
    | (extract_lets +onlyGivenNames z; revert z; intro y)
    | exact Keeps.rfl
    | apply Keeps.next ?_ (State.wrb_keeps _ _ _) ?_
    | apply Keeps.next ?_ (State.wr_keeps _ _ _) ?_
    | decide
    | dsimp -zeta only

theorem State.checkKeep_keeps (s : State) (a1 : Bool) :
    Keeps [.time, .host, .recorder] s (State.checkKeep s a1) := by
  unfold State.checkKeep
  with_reducible repeat' first
    | assumption
    | (extract_lets +onlyGivenNames z
       refine Keeps.let z ?_ ?_
       subst z
       rotate_left
       clear_value z
       revert z
       intro y hy
       rotate_left)
    | (extract_lets +onlyGivenNames z
       refine Keeps.let1 z ?_ ?_
       subst z
       rotate_left
       clear_value z
       revert z
       rintro ⟨y, y1⟩ hy
       rotate_left)
    | (extract_lets +onlyGivenNames z; revert z; intro y)
    | exact Keeps.rfl
    | refine Keeps.ite ?_ ?_
    | refine Keeps.ite1 ?_ ?_
    | (rename (_ : State × _) = _ => heq
       refine Keeps.pair heq ?_ ?_ <;> clear heq
       rotate_left
       intro hy
       rotate_left)
    | apply Keeps.next ?_ (State.wr_keeps _ _ _) ?_
    | apply Keeps.next ?_ (State.free_keeps _) ?_
    | apply Keeps.next ?_ (State.pwrEvt_keeps _ _) ?_
    | refine Keeps.upd ?_ List.prefix_rfl (Nat.le_refl _) id (fun p hp => by cases p <;> first | rfl | exact absurd (by decide) hp)
    | decide
    | dsimp -zeta only

theorem State.coldStart_keeps (s : State) (a1 : Nat) (a2 : Bool) (a3 : Bool) :
    Keeps [.settings, .staged, .settingsMram, .hop, .programs, .progs, .forces, .image, .turnNumber, .turn, .skein, .tasks, .loops, .trace, .ring, .time, .ply, .rows, .brake, .host, .mill, .seals, .recorder, .fw, .pwr, .mem, .caps] s (State.coldStart s a1 a2 a3) := by
  unfold State.coldStart
  with_reducible repeat' first
    | assumption
    | (extract_lets +onlyGivenNames z
       refine Keeps.let z ?_ ?_
       subst z
       rotate_left
       clear_value z
       revert z
       intro y hy
       rotate_left)
    | (extract_lets +onlyGivenNames z; revert z; intro y)
    | exact Keeps.rfl
    | refine Keeps.ite ?_ ?_
    | refine Keeps.foldl _ _ ?_ ?_
    | apply Keeps.next ?_ (State.wr_keeps _ _ _) ?_
    | apply Keeps.next ?_ (State.checkKeep_keeps _ _) ?_
    | apply Keeps.next ?_ (State.turnOn_keeps _ _) ?_
    | apply Keeps.next ?_ (State.startMiller_keeps _ _) ?_
    | apply Keeps.next ?_ (State.checkLog_keeps _ _) ?_
    | apply Keeps.next ?_ (State.enterRecovery_keeps _) ?_
    | refine Keeps.upd ?_ List.prefix_rfl (Nat.le_refl _) id (fun p hp => by cases p <;> first | rfl | exact absurd (by decide) hp)
    | decide
    | intro y
    | dsimp -zeta only

theorem execHeartbeatSend_keeps (s : State) :
    Keeps [.ply] s (settle s (execHeartbeatSend s)) := by
  unfold execHeartbeatSend
  with_reducible repeat' first
    | assumption
    | (extract_lets +onlyGivenNames z
       refine Keeps.let z ?_ ?_
       subst z
       rotate_left
       clear_value z
       revert z
       intro y hy
       rotate_left)
    | (extract_lets +onlyGivenNames z; revert z; intro y)
    | exact Keeps.rfl
    | refine Keeps.iteO ?_ ?_
    | refine Keeps.ite ?_ ?_
    | refine Keeps.ok ?_
    | apply Keeps.next ?_ (State.emit_keeps _ _) ?_
    | refine Keeps.upd ?_ List.prefix_rfl (Nat.le_refl _) id (fun p hp => by cases p <;> first | rfl | exact absurd (by decide) hp)
    | decide
    | dsimp -zeta only

theorem execHeartbeatReceived_keeps (a0 : Byte) (a1 : Byte) (s : State) :
    Keeps [.ply, .host, .recorder] s (settle s (execHeartbeatReceived a0 a1 s)) := by
  unfold execHeartbeatReceived
  with_reducible repeat' first
    | assumption
    | (extract_lets +onlyGivenNames z
       refine Keeps.let z ?_ ?_
       subst z
       rotate_left
       clear_value z
       revert z
       intro y hy
       rotate_left)
    | (extract_lets +onlyGivenNames z; revert z; intro y)
    | exact Keeps.rfl
    | refine Keeps.iteO ?_ ?_
    | refine Keeps.ite ?_ ?_
    | refine Keeps.ok ?_
    | apply Keeps.next ?_ (State.wr_keeps _ _ _) ?_
    | apply Keeps.next ?_ (State.plyEvt_keeps _ _) ?_
    | refine Keeps.upd ?_ List.prefix_rfl (Nat.le_refl _) id (fun p hp => by cases p <;> first | rfl | exact absurd (by decide) hp)
    | decide
    | dsimp -zeta only

theorem execHeartbeatMissed_keeps (s : State) :
    Keeps [.hop, .skein, .tasks, .loops, .trace, .time, .ply, .rows, .brake, .host, .mill, .recorder] s (settle s (execHeartbeatMissed s)) := by
  unfold execHeartbeatMissed
  with_reducible repeat' first
    | assumption
    | (extract_lets +onlyGivenNames z
       refine Keeps.let z ?_ ?_
       subst z
       rotate_left
       clear_value z
       revert z
       intro y hy
       rotate_left)
    | (extract_lets +onlyGivenNames z; revert z; intro y)
    | exact Keeps.rfl
    | refine Keeps.iteO ?_ ?_
    | refine Keeps.ite ?_ ?_
    | refine Keeps.ok ?_
    | apply Keeps.next ?_ (State.judgePartner_keeps _) ?_
    | refine Keeps.upd ?_ List.prefix_rfl (Nat.le_refl _) id (fun p hp => by cases p <;> first | rfl | exact absurd (by decide) hp)
    | decide
    | dsimp -zeta only

theorem execOwnHeartbeatLoss_keeps (s : State) :
    Keeps [.hop, .skein, .trace, .time, .ply, .rows, .brake, .host, .recorder] s (settle s (execOwnHeartbeatLoss s)) := by
  unfold execOwnHeartbeatLoss
  with_reducible repeat' first
    | assumption
    | exact Keeps.rfl
    | refine Keeps.ok ?_
    | apply Keeps.next ?_ (State.abdicate_keeps _ _) ?_
    | decide
    | dsimp -zeta only

theorem execAbdicateLineAsserted_keeps (s : State) :
    Keeps [.hop, .skein, .tasks, .loops, .trace, .time, .ply, .rows, .brake, .host, .mill, .recorder, .pwr] s (settle s (execAbdicateLineAsserted s)) := by
  unfold execAbdicateLineAsserted
  with_reducible repeat' first
    | assumption
    | exact Keeps.rfl
    | refine Keeps.ok ?_
    | apply Keeps.next ?_ (State.wake_keeps _ _) ?_
    | apply Keeps.next ?_ (State.judgePartner_keeps _) ?_
    | apply Keeps.next ?_ (State.wr_keeps _ _ _) ?_
    | decide
    | dsimp -zeta only

theorem execTokenClassChange_keeps (a0 : TokClass) (s : State) :
    Keeps [.hop, .skein, .tasks, .loops, .trace, .time, .ply, .rows, .brake, .host, .mill, .recorder] s (settle s (execTokenClassChange a0 s)) := by
  unfold execTokenClassChange
  with_reducible repeat' first
    | assumption
    | (extract_lets +onlyGivenNames z
       refine Keeps.let z ?_ ?_
       subst z
       rotate_left
       clear_value z
       revert z
       intro y hy
       rotate_left)
    | (extract_lets +onlyGivenNames z; revert z; intro y)
    | exact Keeps.rfl
    | refine Keeps.iteO ?_ ?_
    | refine Keeps.ite ?_ ?_
    | refine Keeps.ok ?_
    | apply Keeps.next ?_ (State.wr_keeps _ _ _) ?_
    | apply Keeps.next ?_ (State.queueHeartbeat_keeps _) ?_
    | apply Keeps.next ?_ (State.setMuted_keeps _ _) ?_
    | apply Keeps.next ?_ (State.row19_keeps _) ?_
    | apply Keeps.next ?_ (State.judgePartner_keeps _) ?_
    | apply Keeps.next ?_ (State.loneIfLost_keeps _) ?_
    | split
    | refine Keeps.upd ?_ List.prefix_rfl (Nat.le_refl _) id (fun p hp => by cases p <;> first | rfl | exact absurd (by decide) hp)
    | decide
    | dsimp -zeta only

theorem State.lateLatches_keeps (s : State) (a1 : Nat) :
    Keeps [.turn] s (State.lateLatches s a1) := by
  unfold State.lateLatches
  with_reducible repeat' first
    | assumption
    | (extract_lets +onlyGivenNames z; revert z; intro y)
    | exact Keeps.rfl
    | refine Keeps.foldl _ _ ?_ ?_
    | refine Keeps.upd ?_ List.prefix_rfl (Nat.le_refl _) id (fun p hp => by cases p <;> first | rfl | exact absurd (by decide) hp)
    | decide
    | intro y
    | dsimp -zeta only

theorem State.catchUp_keeps (s : State) (a1 : Nat) (a2 : Nat) :
    Keeps [.turn, .skein] s (State.catchUp s a1 a2) := by
  unfold State.catchUp
  with_reducible repeat' first
    | assumption
    | (extract_lets +onlyGivenNames z
       refine Keeps.let z ?_ ?_
       subst z
       rotate_left
       clear_value z
       revert z
       intro y hy
       rotate_left)
    | (extract_lets +onlyGivenNames z; revert z; intro y)
    | exact Keeps.rfl
    | refine Keeps.ite ?_ ?_
    | apply Keeps.next ?_ (State.wr_keeps _ _ _) ?_
    | apply Keeps.next ?_ (State.sendBrake_keeps _ _) ?_
    | apply Keeps.next ?_ (State.launchSkein_keeps _ _ _ _ _ _ _ _ _) ?_
    | apply Keeps.next ?_ (State.lateLatches_keeps _ _) ?_
    | split
    | decide
    | dsimp -zeta only

theorem execCatchUpLaunch_keeps (s : State) :
    Keeps [.turn, .skein, .ply] s (settle s (execCatchUpLaunch s)) := by
  unfold execCatchUpLaunch
  with_reducible repeat' first
    | assumption
    | (extract_lets +onlyGivenNames z
       refine Keeps.let z ?_ ?_
       subst z
       rotate_left
       clear_value z
       revert z
       intro y hy
       rotate_left)
    | (extract_lets +onlyGivenNames z; revert z; intro y)
    | exact Keeps.rfl
    | refine Keeps.iteO ?_ ?_
    | refine Keeps.ite ?_ ?_
    | refine Keeps.ok ?_
    | refine Keeps.foldl _ _ ?_ ?_
    | apply Keeps.next ?_ (State.catchUp_keeps _ _ _) ?_
    | refine Keeps.upd ?_ List.prefix_rfl (Nat.le_refl _) id (fun p hp => by cases p <;> first | rfl | exact absurd (by decide) hp)
    | decide
    | intro y
    | dsimp -zeta only

theorem execBridgeReceived_keeps (a0 : PlyHdr) (a1 : Bytes) (s : State) :
    Keeps [.image, .skein, .ring, .ply, .host, .recorder] s (settle s (execBridgeReceived a0 a1 s)) := by
  unfold execBridgeReceived
  with_reducible repeat' first
    | assumption
    | exact Keeps.rfl
    | refine Keeps.iteO ?_ ?_
    | refine Keeps.ite ?_ ?_
    | refine Keeps.ok ?_
    | refine Keeps.ite1 ?_ ?_
    | (rename (_ : State × _) = _ => heq
       refine Keeps.pair heq ?_ ?_ <;> clear heq
       rotate_left
       intro hy
       rotate_left)
    | apply Keeps.next ?_ (State.plyTake_keeps _ _ _) ?_
    | apply Keeps.next ?_ (State.takeBridgedPublish_keeps _ _) ?_
    | apply Keeps.next ?_ (State.takeInputFrame_keeps _ _ _ _) ?_
    | split
    | decide
    | dsimp -zeta only

theorem execReleasedReceived_keeps (a0 : PlyHdr) (a1 : Fin 256) (a2 : Bytes) (s : State) :
    Keeps [.skein, .ply] s (settle s (execReleasedReceived a0 a1 a2 s)) := by
  unfold execReleasedReceived
  with_reducible repeat' first
    | assumption
    | (extract_lets +onlyGivenNames z; revert z; intro y)
    | exact Keeps.rfl
    | refine Keeps.iteO ?_ ?_
    | refine Keeps.ite ?_ ?_
    | refine Keeps.ok ?_
    | refine Keeps.ite1 ?_ ?_
    | (rename (_ : State × _) = _ => heq
       refine Keeps.pair heq ?_ ?_ <;> clear heq
       rotate_left
       intro hy
       rotate_left)
    | apply Keeps.next ?_ (State.plyTake_keeps _ _ _) ?_
    | apply Keeps.next ?_ (State.sendBrake_keeps _ _) ?_
    | apply Keeps.next ?_ (State.launchSkein_keeps _ _ _ _ _ _ _ _ _) ?_
    | split
    | decide
    | dsimp -zeta only

theorem execReachReceived_keeps (a0 : PlyHdr) (a1 : List (BitVec 16)) (s : State) :
    Keeps [.skein, .ply] s (settle s (execReachReceived a0 a1 s)) := by
  unfold execReachReceived
  with_reducible repeat' first
    | assumption
    | (extract_lets +onlyGivenNames z
       refine Keeps.let z ?_ ?_
       subst z
       rotate_left
       clear_value z
       revert z
       intro y hy
       rotate_left)
    | (extract_lets +onlyGivenNames z; revert z; intro y)
    | exact Keeps.rfl
    | refine Keeps.ok ?_
    | (rename (_ : State × _) = _ => heq
       refine Keeps.pair heq ?_ ?_ <;> clear heq
       rotate_left
       intro hy
       rotate_left)
    | apply Keeps.next ?_ (State.plyTake_keeps _ _ _) ?_
    | apply Keeps.next ?_ (State.compareReach_keeps _ _) ?_
    | split
    | refine Keeps.upd ?_ List.prefix_rfl (Nat.le_refl _) id (fun p hp => by cases p <;> first | rfl | exact absurd (by decide) hp)
    | decide
    | dsimp -zeta only

theorem State.digestDone_keeps (s : State) (a1 : Nat) :
    Keeps [.ply] s (State.digestDone s a1) := by
  unfold State.digestDone
  with_reducible repeat' first
    | assumption
    | (extract_lets +onlyGivenNames z; revert z; intro y)
    | exact Keeps.rfl
    | refine Keeps.upd ?_ List.prefix_rfl (Nat.le_refl _) id (fun p hp => by cases p <;> first | rfl | exact absurd (by decide) hp)
    | decide
    | dsimp -zeta only

theorem State.digestMatch_keeps (s : State) (a1 : Nat) (a2 : Digest) :
    Keeps [.hop, .skein, .trace, .time, .ply, .rows, .brake, .host, .recorder] s (State.digestMatch s a1 a2) := by
  unfold State.digestMatch
  with_reducible repeat' first
    | assumption
    | (extract_lets +onlyGivenNames z
       refine Keeps.let z ?_ ?_
       subst z
       rotate_left
       clear_value z
       revert z
       intro y hy
       rotate_left)
    | (extract_lets +onlyGivenNames z; revert z; intro y)
    | exact Keeps.rfl
    | refine Keeps.ite ?_ ?_
    | apply Keeps.next ?_ (State.wrb_keeps _ _ _) ?_
    | apply Keeps.next ?_ (State.plyEvt_keeps _ _) ?_
    | apply Keeps.next ?_ (State.setPlyState_keeps _ _) ?_
    | apply Keeps.next ?_ (State.wr_keeps _ _ _) ?_
    | refine Keeps.upd ?_ List.prefix_rfl (Nat.le_refl _) id (fun p hp => by cases p <;> first | rfl | exact absurd (by decide) hp)
    | decide
    | dsimp -zeta only

theorem State.digestMismatch_keeps (s : State) :
    Keeps [.hop, .skein, .trace, .time, .ply, .rows, .brake, .host, .recorder] s (State.digestMismatch s) := by
  unfold State.digestMismatch
  with_reducible repeat' first
    | assumption
    | (extract_lets +onlyGivenNames z
       refine Keeps.let z ?_ ?_
       subst z
       rotate_left
       clear_value z
       revert z
       intro y hy
       rotate_left)
    | (extract_lets +onlyGivenNames z; revert z; intro y)
    | exact Keeps.rfl
    | refine Keeps.ite ?_ ?_
    | apply Keeps.next ?_ (State.inc_keeps _ _) ?_
    | apply Keeps.next ?_ (State.leaveTracking_keeps _ _) ?_
    | apply Keeps.next ?_ (State.plyEvt_keeps _ _) ?_
    | refine Keeps.upd ?_ List.prefix_rfl (Nat.le_refl _) id (fun p hp => by cases p <;> first | rfl | exact absurd (by decide) hp)
    | decide
    | dsimp -zeta only

theorem State.compareDigest_keeps (s : State) (a1 : Nat) :
    Keeps [.hop, .skein, .trace, .time, .ply, .rows, .brake, .host, .recorder] s (State.compareDigest s a1) := by
  unfold State.compareDigest
  with_reducible repeat' first
    | assumption
    | (extract_lets +onlyGivenNames z
       refine Keeps.let z ?_ ?_
       subst z
       rotate_left
       clear_value z
       revert z
       intro y hy
       rotate_left)
    | (extract_lets +onlyGivenNames z; revert z; intro y)
    | exact Keeps.rfl
    | refine Keeps.ite ?_ ?_
    | apply Keeps.next ?_ (State.digestMatch_keeps _ _ _) ?_
    | apply Keeps.next ?_ (State.digestMismatch_keeps _) ?_
    | apply Keeps.next ?_ (State.digestDone_keeps _ _) ?_
    | split
    | decide
    | dsimp -zeta only

theorem execDigestReceived_keeps (a0 : PlyHdr) (a1 : Digest) (s : State) :
    Keeps [.hop, .skein, .trace, .time, .ply, .rows, .brake, .host, .recorder] s (settle s (execDigestReceived a0 a1 s)) := by
  unfold execDigestReceived
  with_reducible repeat' first
    | assumption
    | (extract_lets +onlyGivenNames z
       refine Keeps.let z ?_ ?_
       subst z
       rotate_left
       clear_value z
       revert z
       intro y hy
       rotate_left)
    | (extract_lets +onlyGivenNames z; revert z; intro y)
    | exact Keeps.rfl
    | refine Keeps.iteO ?_ ?_
    | refine Keeps.ite ?_ ?_
    | refine Keeps.ok ?_
    | refine Keeps.ite1 ?_ ?_
    | (rename (_ : State × _) = _ => heq
       refine Keeps.pair heq ?_ ?_ <;> clear heq
       rotate_left
       intro hy
       rotate_left)
    | apply Keeps.next ?_ (State.plyTake_keeps _ _ _) ?_
    | apply Keeps.next ?_ (State.compareDigest_keeps _ _) ?_
    | split
    | refine Keeps.upd ?_ List.prefix_rfl (Nat.le_refl _) id (fun p hp => by cases p <;> first | rfl | exact absurd (by decide) hp)
    | decide
    | dsimp -zeta only

theorem execDigestCompute_keeps (s : State) :
    Keeps [.hop, .skein, .trace, .time, .ply, .rows, .brake, .host, .recorder] s (settle s (execDigestCompute s)) := by
  unfold execDigestCompute
  with_reducible repeat' first
    | assumption
    | (extract_lets +onlyGivenNames z
       refine Keeps.let z ?_ ?_
       subst z
       rotate_left
       clear_value z
       revert z
       intro y hy
       rotate_left)
    | (extract_lets +onlyGivenNames z; revert z; intro y)
    | exact Keeps.rfl
    | refine Keeps.iteO ?_ ?_
    | refine Keeps.ite ?_ ?_
    | refine Keeps.ok ?_
    | apply Keeps.next ?_ (State.sendPly_keeps _ _ _ _) ?_
    | apply Keeps.next ?_ (State.compareDigest_keeps _ _) ?_
    | split
    | refine Keeps.upd ?_ List.prefix_rfl (Nat.le_refl _) id (fun p hp => by cases p <;> first | rfl | exact absurd (by decide) hp)
    | decide
    | dsimp -zeta only

theorem execCompletionReceived_keeps (a0 : PlyHdr) (a1 : Fin 16) (a2 : BitVec 8) (a3 : BitVec 16) (a4 : BitVec 32) (s : State) :
    Keeps [.tasks, .ply] s (settle s (execCompletionReceived a0 a1 a2 a3 a4 s)) := by
  unfold execCompletionReceived
  with_reducible repeat' first
    | assumption
    | (extract_lets +onlyGivenNames z
       refine Keeps.let z ?_ ?_
       subst z
       rotate_left
       clear_value z
       revert z
       intro y hy
       rotate_left)
    | (extract_lets +onlyGivenNames z; revert z; intro y)
    | exact Keeps.rfl
    | refine Keeps.iteO ?_ ?_
    | refine Keeps.ite ?_ ?_
    | refine Keeps.ok ?_
    | refine Keeps.ite1 ?_ ?_
    | (rename (_ : State × _) = _ => heq
       refine Keeps.pair heq ?_ ?_ <;> clear heq
       rotate_left
       intro hy
       rotate_left)
    | apply Keeps.next ?_ (State.plyTake_keeps _ _ _) ?_
    | apply Keeps.next ?_ (State.setTask_keeps _ _ _) ?_
    | apply Keeps.next ?_ (State.partnerTrapped_keeps _ _ _) ?_
    | split
    | decide
    | dsimp -zeta only

theorem execHealthSend_keeps (s : State) :
    Keeps [.turn, .ply, .fw] s (settle s (execHealthSend s)) := by
  unfold execHealthSend
  with_reducible repeat' first
    | assumption
    | (extract_lets +onlyGivenNames z
       refine Keeps.let z ?_ ?_
       subst z
       rotate_left
       clear_value z
       revert z
       intro y hy
       rotate_left)
    | (extract_lets +onlyGivenNames z
       refine Keeps.let1 z ?_ ?_
       subst z
       rotate_left
       clear_value z
       revert z
       rintro ⟨y, y1⟩ hy
       rotate_left)
    | (extract_lets +onlyGivenNames z; revert z; intro y)
    | exact Keeps.rfl
    | refine Keeps.iteO ?_ ?_
    | refine Keeps.ite ?_ ?_
    | refine Keeps.ok ?_
    | refine Keeps.ite1 ?_ ?_
    | (rename (_ : State × _) = _ => heq
       refine Keeps.pair heq ?_ ?_ <;> clear heq
       rotate_left
       intro hy
       rotate_left)
    | apply Keeps.next ?_ (State.free_keeps _) ?_
    | apply Keeps.next ?_ (State.sendPly_keeps _ _ _ _) ?_
    | refine Keeps.upd ?_ List.prefix_rfl (Nat.le_refl _) id (fun p hp => by cases p <;> first | rfl | exact absurd (by decide) hp)
    | decide
    | dsimp -zeta only

theorem State.noteHealth_keeps (s : State) (a1 : Bytes) : Keeps [.ply] s (State.noteHealth s a1) := by
  unfold State.noteHealth
  with_reducible repeat' first
    | assumption
    | (extract_lets +onlyGivenNames z
       refine Keeps.let z ?_ ?_
       subst z
       rotate_left
       clear_value z
       revert z
       intro y hy
       rotate_left)
    | (extract_lets +onlyGivenNames z; revert z; intro y)
    | exact Keeps.rfl
    | refine Keeps.ite ?_ ?_
    | apply Keeps.next ?_ (State.add_keeps _ _ _) ?_
    | apply Keeps.next ?_ (State.wr_keeps _ _ _) ?_
    | refine Keeps.upd ?_ List.prefix_rfl (Nat.le_refl _) id (fun p hp => by cases p <;> first | rfl | exact absurd (by decide) hp)
    | decide
    | dsimp -zeta only

theorem State.dropCapture_keeps (s : State) : Keeps [.ply] s (State.dropCapture s) := by
  unfold State.dropCapture
  exact Keeps.rfl.upd List.prefix_rfl (Nat.le_refl _) id
    (fun p hp => by cases p <;> first | rfl | exact absurd (by decide) hp)

theorem execHealthReceived_keeps (a0 : PlyHdr) (a1 : Bytes) (s : State) :
    Keeps [.hop, .skein, .tasks, .trace, .time, .ply, .rows, .brake, .host, .mill, .recorder] s (settle s (execHealthReceived a0 a1 s)) := by
  unfold execHealthReceived
  with_reducible repeat' first
    | assumption
    | (extract_lets +onlyGivenNames z
       refine Keeps.let z ?_ ?_
       subst z
       rotate_left
       clear_value z
       revert z
       intro y hy
       rotate_left)
    | (extract_lets +onlyGivenNames z; revert z; intro y)
    | exact Keeps.rfl
    | refine Keeps.ite ?_ ?_
    | refine Keeps.ok ?_
    | refine Keeps.ite1 ?_ ?_
    | (rename (_ : State × _) = _ => heq
       refine Keeps.pair heq ?_ ?_ <;> clear heq
       rotate_left
       intro hy
       rotate_left)
    | apply Keeps.next ?_ (State.plyTake_keeps _ _ _) ?_
    | apply Keeps.next ?_ (State.noteHealth_keeps _ _) ?_
    | apply Keeps.next ?_ (State.dropCapture_keeps _) ?_
    | apply Keeps.next ?_ (State.setPlyState_keeps _ _) ?_
    | apply Keeps.next ?_ (State.row19_keeps _) ?_
    | apply Keeps.next ?_ (State.decideRole_keeps _) ?_
    | split
    | decide
    | dsimp -zeta only

theorem execStartingTimeout_keeps (s : State) :
    Keeps [.hop, .skein, .tasks, .trace, .time, .ply, .rows, .brake, .host, .mill, .recorder] s (settle s (execStartingTimeout s)) := by
  unfold execStartingTimeout
  with_reducible repeat' first
    | assumption
    | (extract_lets +onlyGivenNames z; revert z; intro y)
    | exact Keeps.rfl
    | refine Keeps.iteO ?_ ?_
    | refine Keeps.ite ?_ ?_
    | refine Keeps.ok ?_
    | apply Keeps.next ?_ (State.becomeLone_keeps _) ?_
    | decide
    | dsimp -zeta only

theorem execPlyLinkUp_keeps (s : State) :
    Keeps [.hop, .skein, .tasks, .trace, .time, .ply, .rows, .brake, .host, .mill, .recorder] s (settle s (execPlyLinkUp s)) := by
  unfold execPlyLinkUp
  with_reducible repeat' first
    | assumption
    | (extract_lets +onlyGivenNames z
       refine Keeps.let z ?_ ?_
       subst z
       rotate_left
       clear_value z
       revert z
       intro y hy
       rotate_left)
    | (extract_lets +onlyGivenNames z; revert z; intro y)
    | exact Keeps.rfl
    | refine Keeps.iteO ?_ ?_
    | refine Keeps.ite ?_ ?_
    | refine Keeps.ok ?_
    | apply Keeps.next ?_ (State.wr_keeps _ _ _) ?_
    | apply Keeps.next ?_ (State.decideRole_keeps _) ?_
    | refine Keeps.upd ?_ List.prefix_rfl (Nat.le_refl _) id (fun p hp => by cases p <;> first | rfl | exact absurd (by decide) hp)
    | decide
    | dsimp -zeta only

theorem execPlyLinkDown_keeps (a0 : Bool) (s : State) :
    Keeps [.hop, .skein, .trace, .time, .ply, .rows, .brake, .host, .recorder] s (settle s (execPlyLinkDown a0 s)) := by
  unfold execPlyLinkDown
  with_reducible repeat' first
    | assumption
    | (extract_lets +onlyGivenNames z
       refine Keeps.let z ?_ ?_
       subst z
       rotate_left
       clear_value z
       revert z
       intro y hy
       rotate_left)
    | exact Keeps.rfl
    | refine Keeps.iteO ?_ ?_
    | refine Keeps.ite ?_ ?_
    | refine Keeps.ok ?_
    | apply Keeps.next ?_ (State.wr_keeps _ _ _) ?_
    | apply Keeps.next ?_ (State.leaveTracking_keeps _ _) ?_
    | apply Keeps.next ?_ (State.loneIfLost_keeps _) ?_
    | apply Keeps.next ?_ (State.failJoin_keeps _ _) ?_
    | decide
    | dsimp -zeta only

theorem execAutoRejoin_keeps (s : State) :
    Keeps [.hop, .skein, .trace, .time, .ply, .rows, .brake, .host, .recorder] s (settle s (execAutoRejoin s)) := by
  unfold execAutoRejoin
  with_reducible repeat' first
    | assumption
    | (extract_lets +onlyGivenNames z
       refine Keeps.let z ?_ ?_
       subst z
       rotate_left
       clear_value z
       revert z
       intro y hy
       rotate_left)
    | (extract_lets +onlyGivenNames z; revert z; intro y)
    | exact Keeps.rfl
    | refine Keeps.iteO ?_ ?_
    | refine Keeps.ite ?_ ?_
    | refine Keeps.ok ?_
    | apply Keeps.next ?_ (State.beginJoin_keeps _) ?_
    | refine Keeps.upd ?_ List.prefix_rfl (Nat.le_refl _) id (fun p hp => by cases p <;> first | rfl | exact absurd (by decide) hp)
    | decide
    | dsimp -zeta only

theorem execPlyCmdRejoin_keeps (s : State) :
    Keeps [.hop, .skein, .trace, .time, .ply, .rows, .brake, .host, .recorder] s (settle s (execPlyCmdRejoin s)) := by
  unfold execPlyCmdRejoin
  with_reducible repeat' first
    | assumption
    | (extract_lets +onlyGivenNames z
       refine Keeps.let z ?_ ?_
       subst z
       rotate_left
       clear_value z
       revert z
       intro y hy
       rotate_left)
    | (extract_lets +onlyGivenNames z; revert z; intro y)
    | exact Keeps.rfl
    | refine Keeps.iteO ?_ ?_
    | refine Keeps.ite ?_ ?_
    | refine Keeps.ok ?_
    | apply Keeps.next ?_ (State.wr_keeps _ _ _) ?_
    | apply Keeps.next ?_ (State.beginJoin_keeps _) ?_
    | refine Keeps.upd ?_ List.prefix_rfl (Nat.le_refl _) id (fun p hp => by cases p <;> first | rfl | exact absurd (by decide) hp)
    | decide
    | dsimp -zeta only

theorem execPlyCmdLeave_keeps (s : State) :
    Keeps [.hop, .skein, .trace, .time, .ply, .rows, .brake, .host, .recorder] s (settle s (execPlyCmdLeave s)) := by
  unfold execPlyCmdLeave
  with_reducible repeat' first
    | assumption
    | exact Keeps.rfl
    | refine Keeps.iteO ?_ ?_
    | refine Keeps.ite ?_ ?_
    | refine Keeps.ok ?_
    | apply Keeps.next ?_ (State.wr_keeps _ _ _) ?_
    | apply Keeps.next ?_ (State.leaveTracking_keeps _ _) ?_
    | decide
    | dsimp -zeta only

theorem execPlyCmdHandover_keeps (s : State) :
    Keeps [.ply] s (settle s (execPlyCmdHandover s)) := by
  unfold execPlyCmdHandover
  with_reducible repeat' first
    | assumption
    | exact Keeps.rfl
    | refine Keeps.iteO ?_ ?_
    | refine Keeps.ite ?_ ?_
    | refine Keeps.ok ?_
    | apply Keeps.next ?_ (State.wr_keeps _ _ _) ?_
    | apply Keeps.next ?_ (State.sendOrder_keeps _ _ _ _ _) ?_
    | decide
    | dsimp -zeta only

theorem State.carryOut_keeps (s : State) :
    Keeps [.staged, .settingsMram, .hop, .progs, .forces, .image, .turn, .skein, .tasks, .loops, .trace, .ring, .time, .ply, .rows, .brake, .host, .mill, .seals, .recorder, .fw, .pwr, .mem, .caps] s (State.carryOut s) := by
  unfold State.carryOut
  dsimp only
  split
  · exact Keeps.upd Keeps.rfl List.prefix_rfl (Nat.le_refl _) id (fun p hp => by cases p <;> first | rfl | exact absurd (by decide) hp)
  · exact Keeps.next (Keeps.upd Keeps.rfl List.prefix_rfl (Nat.le_refl _) id (fun p hp => by cases p <;> first | rfl | exact absurd (by decide) hp))
      (State.startRung_keeps _ _) (by decide)
  · exact Keeps.upd Keeps.rfl List.prefix_rfl (Nat.le_refl _) id (fun p hp => by cases p <;> first | rfl | exact absurd (by decide) hp)
  · refine Keeps.upd ?_ List.prefix_rfl (Nat.le_refl _) id (fun p hp => by cases p <;> first | rfl | exact absurd (by decide) hp)
    exact Keeps.next (Keeps.upd Keeps.rfl List.prefix_rfl (Nat.le_refl _) id (fun p hp => by cases p <;> first | rfl | exact absurd (by decide) hp))
      (State.powerOff_keeps _) (by decide)

theorem State.giveRole_keeps (s : State) :
    Keeps [.staged, .settingsMram, .hop, .progs, .forces, .image, .turn, .skein, .tasks, .loops, .trace, .ring, .time, .ply, .rows, .brake, .host, .mill, .seals, .recorder, .fw, .pwr, .mem, .caps] s (State.giveRole s) := by
  unfold State.giveRole
  with_reducible repeat' first
    | assumption
    | (extract_lets +onlyGivenNames z
       refine Keeps.let z ?_ ?_
       subst z
       rotate_left
       clear_value z
       revert z
       intro y hy
       rotate_left)
    | (extract_lets +onlyGivenNames z; revert z; intro y)
    | exact Keeps.rfl
    | refine Keeps.ite ?_ ?_
    | apply Keeps.next ?_ (State.wr_keeps _ _ _) ?_
    | apply Keeps.next ?_ (State.setPlyState_keeps _ _) ?_
    | apply Keeps.next ?_ (State.stopCommands_keeps _) ?_
    | apply Keeps.next ?_ (State.setMuted_keeps _ _) ?_
    | apply Keeps.next ?_ (State.carryOut_keeps _) ?_
    | refine Keeps.upd ?_ List.prefix_rfl (Nat.le_refl _) id (fun p hp => by cases p <;> first | rfl | exact absurd (by decide) hp)
    | decide
    | dsimp -zeta only

theorem State.takeRole_keeps (s : State) (a1 : Bool) :
    Keeps [.hop, .skein, .tasks, .trace, .time, .ply, .rows, .brake, .host, .mill, .recorder] s (State.takeRole s a1) := by
  unfold State.takeRole
  with_reducible repeat' first
    | assumption
    | (extract_lets +onlyGivenNames z
       refine Keeps.let z ?_ ?_
       subst z
       rotate_left
       clear_value z
       revert z
       intro y hy
       rotate_left)
    | (extract_lets +onlyGivenNames z; revert z; intro y)
    | exact Keeps.rfl
    | refine Keeps.ite ?_ ?_
    | refine Keeps.ite1 ?_ ?_
    | (rename (_ : State × _) = _ => heq
       refine Keeps.pair heq ?_ ?_ <;> clear heq
       rotate_left
       intro hy
       rotate_left)
    | apply Keeps.next ?_ (State.raiseEpoch_keeps _) ?_
    | apply Keeps.next ?_ (State.setPlyState_keeps _ _) ?_
    | apply Keeps.next ?_ (State.matchSnaps_keeps _) ?_
    | apply Keeps.next ?_ (State.wr_keeps _ _ _) ?_
    | apply Keeps.next ?_ (State.plyEvt_keeps _ _) ?_
    | apply Keeps.next ?_ (State.queueHeartbeat_keeps _) ?_
    | apply Keeps.next ?_ (State.setMuted_keeps _ _) ?_
    | split
    | refine Keeps.upd ?_ List.prefix_rfl (Nat.le_refl _) id (fun p hp => by cases p <;> first | rfl | exact absurd (by decide) hp)
    | decide
    | dsimp -zeta only

theorem execPlannedHandoverSwitch_keeps (s : State) :
    Keeps [.staged, .settingsMram, .hop, .progs, .forces, .image, .turn, .skein, .tasks, .loops, .trace, .ring, .time, .ply, .rows, .brake, .host, .mill, .seals, .recorder, .fw, .pwr, .mem, .caps] s (settle s (execPlannedHandoverSwitch s)) := by
  unfold execPlannedHandoverSwitch
  with_reducible repeat' first
    | assumption
    | (extract_lets +onlyGivenNames z
       refine Keeps.let z ?_ ?_
       subst z
       rotate_left
       clear_value z
       revert z
       intro y hy
       rotate_left)
    | (extract_lets +onlyGivenNames z; revert z; intro y)
    | exact Keeps.rfl
    | refine Keeps.iteO ?_ ?_
    | refine Keeps.ite ?_ ?_
    | refine Keeps.ok ?_
    | apply Keeps.next ?_ (State.row19_keeps _) ?_
    | apply Keeps.next ?_ (State.giveRole_keeps _) ?_
    | apply Keeps.next ?_ (State.takeRole_keeps _ _) ?_
    | split
    | refine Keeps.upd ?_ List.prefix_rfl (Nat.le_refl _) id (fun p hp => by cases p <;> first | rfl | exact absurd (by decide) hp)
    | decide
    | dsimp -zeta only

theorem execRevert_keeps (s : State) :
    Keeps [.ply] s (settle s (execRevert s)) := by
  unfold execRevert
  with_reducible repeat' first
    | assumption
    | (extract_lets +onlyGivenNames z; revert z; intro y)
    | exact Keeps.rfl
    | refine Keeps.iteO ?_ ?_
    | refine Keeps.ite ?_ ?_
    | refine Keeps.ok ?_
    | apply Keeps.next ?_ (State.sendOrder_keeps _ _ _ _ _) ?_
    | split
    | decide
    | dsimp -zeta only

theorem execJoinTimeout_keeps (s : State) :
    Keeps [.hop, .skein, .trace, .time, .ply, .rows, .brake, .host, .recorder] s (settle s (execJoinTimeout s)) := by
  unfold execJoinTimeout
  with_reducible repeat' first
    | assumption
    | exact Keeps.rfl
    | refine Keeps.ok ?_
    | apply Keeps.next ?_ (State.failJoin_keeps _ _) ?_
    | decide
    | dsimp -zeta only

theorem execJoinCaptureBoundary_keeps (s : State) :
    Keeps [.ply] s (settle s (execJoinCaptureBoundary s)) := by
  unfold execJoinCaptureBoundary
  with_reducible repeat' first
    | assumption
    | (extract_lets +onlyGivenNames z
       refine Keeps.let z ?_ ?_
       subst z
       rotate_left
       clear_value z
       revert z
       intro y hy
       rotate_left)
    | (extract_lets +onlyGivenNames z; revert z; intro y)
    | exact Keeps.rfl
    | refine Keeps.ok ?_
    | split
    | refine Keeps.upd ?_ List.prefix_rfl (Nat.le_refl _) id (fun p hp => by cases p <;> first | rfl | exact absurd (by decide) hp)
    | decide
    | dsimp -zeta only

theorem execReplayCaughtUp_keeps (s : State) :
    Keeps [.image, .tasks, .ply, .mill] s (settle s (execReplayCaughtUp s)) := by
  unfold execReplayCaughtUp
  with_reducible repeat' first
    | assumption
    | (extract_lets +onlyGivenNames z
       refine Keeps.let z ?_ ?_
       subst z
       rotate_left
       clear_value z
       revert z
       intro y hy
       rotate_left)
    | (extract_lets +onlyGivenNames z; revert z; intro y)
    | exact Keeps.rfl
    | refine Keeps.iteO ?_ ?_
    | refine Keeps.ite ?_ ?_
    | refine Keeps.ok ?_
    | apply Keeps.next ?_ (State.takeRecorded_keeps _ _) ?_
    | apply Keeps.next ?_ (State.wr_keeps _ _ _) ?_
    | refine Keeps.upd ?_ List.prefix_rfl (Nat.le_refl _) id (fun p hp => by cases p <;> first | rfl | exact absurd (by decide) hp)
    | decide
    | dsimp -zeta only

theorem execReplayBehind_keeps (s : State) :
    Keeps [.hop, .skein, .trace, .time, .ply, .rows, .brake, .host, .recorder] s (settle s (execReplayBehind s)) := by
  unfold execReplayBehind
  with_reducible repeat' first
    | assumption
    | (extract_lets +onlyGivenNames z; revert z; intro y)
    | exact Keeps.rfl
    | refine Keeps.iteO ?_ ?_
    | refine Keeps.ite ?_ ?_
    | refine Keeps.ok ?_
    | apply Keeps.next ?_ (State.failJoin_keeps _ _) ?_
    | refine Keeps.upd ?_ List.prefix_rfl (Nat.le_refl _) id (fun p hp => by cases p <;> first | rfl | exact absurd (by decide) hp)
    | decide
    | dsimp -zeta only

theorem execDivergedTimeout_keeps (s : State) :
    Keeps [.hop, .skein, .trace, .time, .ply, .rows, .brake, .host, .recorder] s (settle s (execDivergedTimeout s)) := by
  unfold execDivergedTimeout
  with_reducible repeat' first
    | assumption
    | (extract_lets +onlyGivenNames z; revert z; intro y)
    | exact Keeps.rfl
    | refine Keeps.iteO ?_ ?_
    | refine Keeps.ite ?_ ?_
    | refine Keeps.ok ?_
    | apply Keeps.next ?_ (State.leaveTracking_keeps _ _) ?_
    | decide
    | dsimp -zeta only

theorem execMillHeartbeatSend_keeps (s : State) :
    Keeps [.mill] s (settle s (execMillHeartbeatSend s)) := by
  unfold execMillHeartbeatSend
  with_reducible repeat' first
    | assumption
    | exact Keeps.rfl
    | refine Keeps.iteO ?_ ?_
    | refine Keeps.ite ?_ ?_
    | refine Keeps.ok ?_
    | apply Keeps.next ?_ (State.queueHeartbeat_keeps _) ?_
    | decide
    | dsimp -zeta only

theorem execMillHeartbeatAbsent_keeps (s : State) :
    Keeps [.hop, .skein, .tasks, .loops, .trace, .time, .ply, .rows, .brake, .host, .mill, .recorder] s (settle s (execMillHeartbeatAbsent s)) := by
  unfold execMillHeartbeatAbsent
  with_reducible repeat' first
    | assumption
    | exact Keeps.rfl
    | refine Keeps.ok ?_
    | apply Keeps.next ?_ (State.judgePartner_keeps _) ?_
    | apply Keeps.next ?_ (State.wr_keeps _ _ _) ?_
    | decide
    | dsimp -zeta only

theorem execBrakeInputAssert_keeps (a0 : Fin 8) (s : State) :
    Keeps [.skein, .trace, .time, .rows, .brake, .host, .recorder] s (settle s (execBrakeInputAssert a0 s)) := by
  unfold execBrakeInputAssert
  with_reducible repeat' first
    | assumption
    | exact Keeps.rfl
    | refine Keeps.iteO ?_ ?_
    | refine Keeps.ite ?_ ?_
    | refine Keeps.ok ?_
    | apply Keeps.next ?_ (State.setRow_keeps _ _ _) ?_
    | decide
    | dsimp -zeta only

theorem execBrakeInputRelease_keeps (a0 : Fin 8) (s : State) :
    Keeps [.skein, .trace, .time, .rows, .brake, .host, .recorder] s (settle s (execBrakeInputRelease a0 s)) := by
  unfold execBrakeInputRelease
  with_reducible repeat' first
    | assumption
    | exact Keeps.rfl
    | refine Keeps.iteO ?_ ?_
    | refine Keeps.ite ?_ ?_
    | refine Keeps.ok ?_
    | apply Keeps.next ?_ (State.setRow_keeps _ _ _) ?_
    | decide
    | dsimp -zeta only

theorem execBrakeFrameRefresh_keeps (s : State) :
    Keeps [.skein] s (settle s (execBrakeFrameRefresh s)) := by
  unfold execBrakeFrameRefresh
  with_reducible repeat' first
    | assumption
    | exact Keeps.rfl
    | refine Keeps.iteO ?_ ?_
    | refine Keeps.ite ?_ ?_
    | refine Keeps.ok ?_
    | refine Keeps.foldl _ _ ?_ ?_
    | apply Keeps.next ?_ (State.sendBrakes_keeps _ _) ?_
    | decide
    | intro y
    | dsimp -zeta only

theorem execBrkClearWrite_keeps (a0 : Word32) (s : State) :
    Keeps [.skein, .rows, .brake, .host, .recorder] s (settle s (execBrkClearWrite a0 s)) := by
  unfold execBrkClearWrite
  with_reducible repeat' first
    | assumption
    | (extract_lets +onlyGivenNames z
       refine Keeps.let z ?_ ?_
       subst z
       rotate_left
       clear_value z
       revert z
       intro y hy
       rotate_left)
    | (extract_lets +onlyGivenNames z; revert z; intro y)
    | exact Keeps.rfl
    | refine Keeps.iteO ?_ ?_
    | refine Keeps.ite ?_ ?_
    | refine Keeps.ok ?_
    | refine Keeps.foldl _ _ ?_ ?_
    | apply Keeps.next ?_ (State.evalMatrix_keeps _) ?_
    | refine Keeps.upd ?_ List.prefix_rfl (Nat.le_refl _) id (fun p hp => by cases p <;> first | rfl | exact absurd (by decide) hp)
    | decide
    | intro y
    | dsimp -zeta only

theorem execBrkSoftWrite_keeps (a0 : Word32) (s : State) :
    Keeps [.ply, .brake] s (settle s (execBrkSoftWrite a0 s)) := by
  unfold execBrkSoftWrite
  with_reducible repeat' first
    | assumption
    | (extract_lets +onlyGivenNames z
       refine Keeps.let z ?_ ?_
       subst z
       rotate_left
       clear_value z
       revert z
       intro y hy
       rotate_left)
    | (extract_lets +onlyGivenNames z; revert z; intro y)
    | exact Keeps.rfl
    | refine Keeps.iteO ?_ ?_
    | refine Keeps.ite ?_ ?_
    | refine Keeps.ok ?_
    | apply Keeps.next ?_ (State.wr_keeps _ _ _) ?_
    | apply Keeps.next ?_ (State.mirror_keeps _ _ _) ?_
    | refine Keeps.upd ?_ List.prefix_rfl (Nat.le_refl _) id (fun p hp => by cases p <;> first | rfl | exact absurd (by decide) hp)
    | decide
    | dsimp -zeta only

theorem State.applySoft_keeps (s : State) (a1 : Nat) :
    Keeps [.skein, .trace, .time, .rows, .brake, .host, .recorder] s (State.applySoft s a1) := by
  unfold State.applySoft
  with_reducible repeat' first
    | assumption
    | (extract_lets +onlyGivenNames z
       refine Keeps.let z ?_ ?_
       subst z
       rotate_left
       clear_value z
       revert z
       intro y hy
       rotate_left)
    | (extract_lets +onlyGivenNames z; revert z; intro y)
    | exact Keeps.rfl
    | refine Keeps.ite ?_ ?_
    | refine Keeps.foldl _ _ ?_ ?_
    | apply Keeps.next ?_ (State.wr_keeps _ _ _) ?_
    | apply Keeps.next ?_ (State.setRow_keeps _ _ _) ?_
    | refine Keeps.upd ?_ List.prefix_rfl (Nat.le_refl _) id (fun p hp => by cases p <;> first | rfl | exact absurd (by decide) hp)
    | decide
    | intro y
    | dsimp -zeta only

theorem execSoftBrakeApply_keeps (s : State) :
    Keeps [.skein, .trace, .time, .rows, .brake, .host, .recorder] s (settle s (execSoftBrakeApply s)) := by
  unfold execSoftBrakeApply
  with_reducible repeat' first
    | assumption
    | (extract_lets +onlyGivenNames z
       refine Keeps.let z ?_ ?_
       subst z
       rotate_left
       clear_value z
       revert z
       intro y hy
       rotate_left)
    | (extract_lets +onlyGivenNames z; revert z; intro y)
    | exact Keeps.rfl
    | refine Keeps.ok ?_
    | refine Keeps.foldl _ _ ?_ ?_
    | apply Keeps.next ?_ (State.applySoft_keeps _ _) ?_
    | refine Keeps.upd ?_ List.prefix_rfl (Nat.le_refl _) id (fun p hp => by cases p <;> first | rfl | exact absurd (by decide) hp)
    | decide
    | intro y
    | dsimp -zeta only

theorem execBrkLockWrite_keeps (a0 : Word32) (s : State) :
    Keeps [] s (settle s (execBrkLockWrite a0 s)) := by
  unfold execBrkLockWrite
  with_reducible repeat' first
    | assumption
    | exact Keeps.rfl
    | refine Keeps.iteO ?_ ?_
    | refine Keeps.ite ?_ ?_
    | refine Keeps.ok ?_
    | apply Keeps.next ?_ (State.wr_keeps _ _ _) ?_
    | decide
    | dsimp -zeta only

theorem execBrkFirstClearWrite_keeps (a0 : Word32) (s : State) :
    Keeps [] s (settle s (execBrkFirstClearWrite a0 s)) := by
  unfold execBrkFirstClearWrite
  with_reducible repeat' first
    | assumption
    | exact Keeps.rfl
    | refine Keeps.iteO ?_ ?_
    | refine Keeps.ite ?_ ?_
    | refine Keeps.ok ?_
    | apply Keeps.next ?_ (State.wr_keeps _ _ _) ?_
    | decide
    | dsimp -zeta only

theorem execInputLost_keeps (s : State) :
    Keeps [.staged, .settingsMram, .hop, .progs, .forces, .image, .turn, .skein, .retained, .tasks, .loops, .trace, .ring, .time, .ply, .rows, .brake, .host, .mill, .seals, .recorder, .fw, .pwr, .mem, .caps] s (settle s (execInputLost s)) := by
  unfold execInputLost
  with_reducible repeat' first
    | assumption
    | (extract_lets +onlyGivenNames z
       refine Keeps.let z ?_ ?_
       subst z
       rotate_left
       clear_value z
       revert z
       intro y hy
       rotate_left)
    | (extract_lets +onlyGivenNames z
       refine Keeps.let1 z ?_ ?_
       subst z
       rotate_left
       clear_value z
       revert z
       rintro ⟨y, y1⟩ hy
       rotate_left)
    | (extract_lets +onlyGivenNames z; revert z; intro y)
    | exact Keeps.rfl
    | refine Keeps.iteO ?_ ?_
    | refine Keeps.ite ?_ ?_
    | refine Keeps.ok ?_
    | refine Keeps.ite1 ?_ ?_
    | refine Keeps.foldl _ _ ?_ ?_
    | (rename (_ : State × _) = _ => heq
       refine Keeps.pair heq ?_ ?_ <;> clear heq
       rotate_left
       intro hy
       rotate_left)
    | apply Keeps.next ?_ (State.free_keeps _) ?_
    | apply Keeps.next ?_ (State.wr_keeps _ _ _) ?_
    | apply Keeps.next ?_ (State.fireGasp_keeps _ _) ?_
    | apply Keeps.next ?_ (State.setRow_keeps _ _ _) ?_
    | apply Keeps.next ?_ (State.closeBypass_keeps _) ?_
    | apply Keeps.next ?_ (State.quitRole_keeps _ _) ?_
    | apply Keeps.next ?_ (State.turnOff_keeps _ _) ?_
    | apply Keeps.next ?_ (State.startFlush_keeps _) ?_
    | refine Keeps.upd ?_ List.prefix_rfl (Nat.le_refl _) id (fun p hp => by cases p <;> first | rfl | exact absurd (by decide) hp)
    | decide
    | intro y
    | dsimp -zeta only

theorem execLastGaspRecordDone_keeps (s : State) :
    Keeps [.staged, .settingsMram, .hop, .progs, .forces, .image, .turn, .skein, .tasks, .loops, .trace, .ring, .time, .ply, .rows, .brake, .host, .mill, .seals, .log, .recorder, .fw, .mem, .caps] s (settle s (execLastGaspRecordDone s)) := by
  unfold execLastGaspRecordDone
  with_reducible repeat' first
    | assumption
    | exact Keeps.rfl
    | refine Keeps.iteO ?_ ?_
    | refine Keeps.ite ?_ ?_
    | refine Keeps.ok ?_
    | apply Keeps.next ?_ (State.turnOff_keeps _ _) ?_
    | apply Keeps.next ?_ (State.writeQueued_keeps _ _) ?_
    | decide
    | dsimp -zeta only

theorem execRetainFlushDone_keeps (a0 : Bool) (s : State) :
    Keeps [.staged, .settingsMram, .hop, .progs, .forces, .image, .turn, .skein, .retained, .tasks, .loops, .trace, .ring, .time, .ply, .rows, .brake, .host, .mill, .seals, .recorder, .fw, .mem, .caps] s (settle s (execRetainFlushDone a0 s)) := by
  unfold execRetainFlushDone
  with_reducible repeat' first
    | assumption
    | (extract_lets +onlyGivenNames z
       refine Keeps.let z ?_ ?_
       subst z
       rotate_left
       clear_value z
       revert z
       intro y hy
       rotate_left)
    | (extract_lets +onlyGivenNames z; revert z; intro y)
    | exact Keeps.rfl
    | refine Keeps.iteO ?_ ?_
    | refine Keeps.ite ?_ ?_
    | refine Keeps.ok ?_
    | apply Keeps.next ?_ (State.wr_keeps _ _ _) ?_
    | apply Keeps.next ?_ (State.turnOff_keeps _ _) ?_
    | split
    | refine Keeps.upd ?_ List.prefix_rfl (Nat.le_refl _) id (fun p hp => by cases p <;> first | rfl | exact absurd (by decide) hp)
    | decide
    | dsimp -zeta only

theorem execKeepIslandUpdate_keeps (s : State) :
    Keeps [.staged, .settingsMram, .hop, .progs, .forces, .image, .turn, .skein, .tasks, .loops, .trace, .ring, .time, .ply, .rows, .brake, .host, .mill, .seals, .recorder, .fw, .mem, .caps] s (settle s (execKeepIslandUpdate s)) := by
  unfold execKeepIslandUpdate
  with_reducible repeat' first
    | assumption
    | exact Keeps.rfl
    | refine Keeps.iteO ?_ ?_
    | refine Keeps.ite ?_ ?_
    | refine Keeps.ok ?_
    | apply Keeps.next ?_ (State.keepCalendar_keeps _) ?_
    | apply Keeps.next ?_ (State.turnOff_keeps _ _) ?_
    | decide
    | dsimp -zeta only

theorem execHoldupSpent_keeps (s : State) :
    Keeps [.staged, .settingsMram, .hop, .progs, .forces, .image, .turn, .skein, .tasks, .loops, .trace, .ring, .time, .ply, .rows, .brake, .host, .mill, .seals, .recorder, .fw, .pwr, .mem, .caps] s (settle s (execHoldupSpent s)) := by
  unfold execHoldupSpent
  with_reducible repeat' first
    | assumption
    | (extract_lets +onlyGivenNames z
       refine Keeps.let z ?_ ?_
       subst z
       rotate_left
       clear_value z
       revert z
       intro y hy
       rotate_left)
    | (extract_lets +onlyGivenNames z; revert z; intro y)
    | exact Keeps.rfl
    | refine Keeps.iteO ?_ ?_
    | refine Keeps.ite ?_ ?_
    | refine Keeps.ok ?_
    | apply Keeps.next ?_ (State.wr_keeps _ _ _) ?_
    | apply Keeps.next ?_ (State.turnOffTo_keeps _ _) ?_
    | refine Keeps.upd ?_ List.prefix_rfl (Nat.le_refl _) id (fun p hp => by cases p <;> first | rfl | exact absurd (by decide) hp)
    | decide
    | dsimp -zeta only

theorem execEjectorOpen_keeps (s : State) :
    Keeps [.hop, .skein, .trace, .ring, .time, .ply, .rows, .brake, .host, .recorder, .pwr] s (settle s (execEjectorOpen s)) := by
  unfold execEjectorOpen
  with_reducible repeat' first
    | assumption
    | (extract_lets +onlyGivenNames z
       refine Keeps.let z ?_ ?_
       subst z
       rotate_left
       clear_value z
       revert z
       intro y hy
       rotate_left)
    | (extract_lets +onlyGivenNames z; revert z; intro y)
    | exact Keeps.rfl
    | refine Keeps.iteO ?_ ?_
    | refine Keeps.ite ?_ ?_
    | refine Keeps.ok ?_
    | apply Keeps.next ?_ (State.checkBypass_keeps _) ?_
    | apply Keeps.next ?_ (State.quitRole_keeps _ _) ?_
    | apply Keeps.next ?_ (State.setRow_keeps _ _ _) ?_
    | refine Keeps.upd ?_ List.prefix_rfl (Nat.le_refl _) id (fun p hp => by cases p <;> first | rfl | exact absurd (by decide) hp)
    | decide
    | dsimp -zeta only

theorem execEjectorClosed_keeps (s : State) :
    Keeps [.hop, .skein, .tasks, .trace, .time, .ply, .rows, .brake, .host, .mill, .recorder, .pwr] s (settle s (execEjectorClosed s)) := by
  unfold execEjectorClosed
  with_reducible repeat' first
    | assumption
    | (extract_lets +onlyGivenNames z
       refine Keeps.let z ?_ ?_
       subst z
       rotate_left
       clear_value z
       revert z
       intro y hy
       rotate_left)
    | (extract_lets +onlyGivenNames z; revert z; intro y)
    | exact Keeps.rfl
    | refine Keeps.iteO ?_ ?_
    | refine Keeps.ite ?_ ?_
    | refine Keeps.ok ?_
    | apply Keeps.next ?_ (State.decideRole_keeps _) ?_
    | apply Keeps.next ?_ (State.setRow_keeps _ _ _) ?_
    | refine Keeps.upd ?_ List.prefix_rfl (Nat.le_refl _) id (fun p hp => by cases p <;> first | rfl | exact absurd (by decide) hp)
    | decide
    | dsimp -zeta only

theorem State.consume_keeps (s : State) (a1 : Nat) :
    Keeps [.host] s (State.consume s a1) := by
  unfold State.consume
  with_reducible repeat' first
    | assumption
    | (extract_lets +onlyGivenNames z; revert z; intro y)
    | exact Keeps.rfl
    | refine Keeps.upd ?_ List.prefix_rfl (Nat.le_refl _) id (fun p hp => by cases p <;> first | rfl | exact absurd (by decide) hp)
    | decide
    | dsimp -zeta only

theorem State.hostRow_keeps {A : List Part} {s0 s : State} {c : HostCmd} {op : Nat} {f : State → State}
    (hA : ∀ p ∈ [Part.host, .recorder], p ∈ A) (h : Keeps A s0 s) (hf : ∀ y, Keeps A s0 y → Keeps A s0 (f y)) :
    Keeps A s0 (s.hostRow c op f) := by
  unfold State.hostRow
  split
  · exact State.runCmd_keeps hA
      (h.next (State.consume_keeps _ _) (fun p hp => hA p (by revert hp; revert p; decide))) hf
  · exact h


theorem execCmdNop_keeps (a0 : HostCmd) (s : State) :
    Keeps [.host, .recorder] s (settle s (execCmdNop a0 s)) := by
  unfold execCmdNop
  with_reducible repeat' first
    | assumption
    | exact Keeps.rfl
    | refine Keeps.ok ?_
    | apply State.hostRow_keeps
    | apply Keeps.next ?_ (State.complete_keeps _ _ _ _ _ _) ?_
    | decide
    | intro y
    | dsimp -zeta only

theorem execCmdSigRead_keeps (a0 : HostCmd) (s : State) :
    Keeps [.host, .recorder] s (settle s (execCmdSigRead a0 s)) := by
  unfold execCmdSigRead
  with_reducible repeat' first
    | assumption
    | exact Keeps.rfl
    | refine Keeps.ok ?_
    | apply State.hostRow_keeps
    | apply Keeps.next ?_ (State.sigRead_keeps _ _) ?_
    | decide
    | intro y
    | dsimp -zeta only

theorem execCmdSigWrite_keeps (a0 : HostCmd) (s : State) :
    Keeps [.image, .ply, .host, .recorder] s (settle s (execCmdSigWrite a0 s)) := by
  unfold execCmdSigWrite
  with_reducible repeat' first
    | assumption
    | exact Keeps.rfl
    | refine Keeps.ok ?_
    | apply State.hostRow_keeps
    | apply Keeps.next ?_ (State.sigWrite_keeps _ _) ?_
    | decide
    | intro y
    | dsimp -zeta only

theorem execCmdSlotStatus_keeps (a0 : HostCmd) (s : State) :
    Keeps [.host, .recorder] s (settle s (execCmdSlotStatus a0 s)) := by
  unfold execCmdSlotStatus
  with_reducible repeat' first
    | assumption
    | exact Keeps.rfl
    | refine Keeps.ok ?_
    | apply State.hostRow_keeps
    | apply Keeps.next ?_ (State.slotStatus_keeps _ _) ?_
    | decide
    | intro y
    | dsimp -zeta only

theorem execCmdLoopRead_keeps (a0 : HostCmd) (s : State) :
    Keeps [.host, .recorder] s (settle s (execCmdLoopRead a0 s)) := by
  unfold execCmdLoopRead
  with_reducible repeat' first
    | assumption
    | exact Keeps.rfl
    | refine Keeps.ok ?_
    | apply State.hostRow_keeps
    | apply Keeps.next ?_ (State.loopRead_keeps _ _) ?_
    | decide
    | intro y
    | dsimp -zeta only

theorem execCmdLoopWrite_keeps (a0 : HostCmd) (s : State) :
    Keeps [.image, .ply, .host, .recorder] s (settle s (execCmdLoopWrite a0 s)) := by
  unfold execCmdLoopWrite
  with_reducible repeat' first
    | assumption
    | exact Keeps.rfl
    | refine Keeps.ok ?_
    | apply State.hostRow_keeps
    | apply Keeps.next ?_ (State.loopWrite_keeps _ _) ?_
    | decide
    | intro y
    | dsimp -zeta only

theorem execCmdForce_keeps (a0 : HostCmd) (s : State) :
    Keeps [.ply, .host, .recorder] s (settle s (execCmdForce a0 s)) := by
  unfold execCmdForce
  with_reducible repeat' first
    | assumption
    | exact Keeps.rfl
    | refine Keeps.ok ?_
    | apply State.hostRow_keeps
    | apply Keeps.next ?_ (State.forceCmd_keeps _ _) ?_
    | decide
    | intro y
    | dsimp -zeta only

theorem execCmdUnforce_keeps (a0 : HostCmd) (s : State) :
    Keeps [.ply, .host, .recorder] s (settle s (execCmdUnforce a0 s)) := by
  unfold execCmdUnforce
  with_reducible repeat' first
    | assumption
    | exact Keeps.rfl
    | refine Keeps.ok ?_
    | apply State.hostRow_keeps
    | apply Keeps.next ?_ (State.unforceCmd_keeps _ _) ?_
    | decide
    | intro y
    | dsimp -zeta only

theorem execCmdForceList_keeps (a0 : HostCmd) (s : State) :
    Keeps [.host, .recorder] s (settle s (execCmdForceList a0 s)) := by
  unfold execCmdForceList
  with_reducible repeat' first
    | assumption
    | exact Keeps.rfl
    | refine Keeps.ok ?_
    | apply State.hostRow_keeps
    | apply Keeps.next ?_ (State.forceList_keeps _ _) ?_
    | decide
    | intro y
    | dsimp -zeta only

theorem execCmdStageRegs_keeps (a0 : HostCmd) (s : State) :
    Keeps [.staged, .hop, .host, .recorder] s (settle s (execCmdStageRegs a0 s)) := by
  unfold execCmdStageRegs
  with_reducible repeat' first
    | assumption
    | exact Keeps.rfl
    | refine Keeps.ok ?_
    | apply State.hostRow_keeps
    | apply Keeps.next ?_ (State.stageRegs_keeps _ _) ?_
    | decide
    | intro y
    | dsimp -zeta only

theorem execCmdStageSlots_keeps (a0 : HostCmd) (s : State) :
    Keeps [.staged, .hop, .host, .recorder] s (settle s (execCmdStageSlots a0 s)) := by
  unfold execCmdStageSlots
  with_reducible repeat' first
    | assumption
    | exact Keeps.rfl
    | refine Keeps.ok ?_
    | apply State.hostRow_keeps
    | apply Keeps.next ?_ (State.stageSlots_keeps _ _) ?_
    | decide
    | intro y
    | dsimp -zeta only

theorem execCmdDiscard_keeps (a0 : HostCmd) (s : State) :
    Keeps [.staged, .hop, .host, .recorder] s (settle s (execCmdDiscard a0 s)) := by
  unfold execCmdDiscard
  with_reducible repeat' first
    | assumption
    | exact Keeps.rfl
    | refine Keeps.ok ?_
    | apply State.hostRow_keeps
    | apply Keeps.next ?_ (State.discard_keeps _ _) ?_
    | decide
    | intro y
    | dsimp -zeta only

theorem execCmdProgLoad_keeps (a0 : HostCmd) (s : State) :
    Keeps [.progs, .ply, .host, .recorder] s (settle s (execCmdProgLoad a0 s)) := by
  unfold execCmdProgLoad
  with_reducible repeat' first
    | assumption
    | exact Keeps.rfl
    | refine Keeps.ok ?_
    | apply State.hostRow_keeps
    | apply Keeps.next ?_ (State.progLoad_keeps _ _) ?_
    | decide
    | intro y
    | dsimp -zeta only

theorem execCmdProgRead_keeps (a0 : HostCmd) (s : State) :
    Keeps [.host, .recorder] s (settle s (execCmdProgRead a0 s)) := by
  unfold execCmdProgRead
  with_reducible repeat' first
    | assumption
    | exact Keeps.rfl
    | refine Keeps.ok ?_
    | apply State.hostRow_keeps
    | apply Keeps.next ?_ (State.progRead_keeps _ _) ?_
    | decide
    | intro y
    | dsimp -zeta only

theorem execCmdMillSend_keeps (a0 : HostCmd) (s : State) :
    Keeps [.image, .ply, .host, .recorder] s (settle s (execCmdMillSend a0 s)) := by
  unfold execCmdMillSend
  with_reducible repeat' first
    | assumption
    | exact Keeps.rfl
    | refine Keeps.ok ?_
    | apply State.hostRow_keeps
    | apply Keeps.next ?_ (State.millSend_keeps _ _) ?_
    | decide
    | intro y
    | dsimp -zeta only

theorem execCmdMillRead_keeps (a0 : HostCmd) (s : State) :
    Keeps [.host, .mill, .recorder] s (settle s (execCmdMillRead a0 s)) := by
  unfold execCmdMillRead
  with_reducible repeat' first
    | assumption
    | exact Keeps.rfl
    | refine Keeps.ok ?_
    | apply State.hostRow_keeps
    | apply Keeps.next ?_ (State.millReadCmd_keeps _ _) ?_
    | decide
    | intro y
    | dsimp -zeta only

theorem State.startTest_keeps (s : State) (a1 : HostCmd) (a2 : Bool) :
    Keeps [.hop, .host] s (State.startTest s a1 a2) := by
  unfold State.startTest
  with_reducible repeat' first
    | assumption
    | (extract_lets +onlyGivenNames z
       refine Keeps.let z ?_ ?_
       subst z
       rotate_left
       clear_value z
       revert z
       intro y hy
       rotate_left)
    | (extract_lets +onlyGivenNames z; revert z; intro y)
    | exact Keeps.rfl
    | refine Keeps.ite ?_ ?_
    | apply Keeps.next ?_ (State.hopState_keeps _) ?_
    | apply Keeps.next ?_ (State.holdCmd_keeps _ _ _ _ _) ?_
    | refine Keeps.upd ?_ List.prefix_rfl (Nat.le_refl _) id (fun p hp => by cases p <;> first | rfl | exact absurd (by decide) hp)
    | decide
    | dsimp -zeta only

theorem State.checkCmd_keeps (s : State) (a1 : HostCmd) :
    Keeps [.hop, .host, .recorder] s (State.checkCmd s a1) := by
  unfold State.checkCmd
  with_reducible repeat' first
    | assumption
    | exact Keeps.rfl
    | refine Keeps.ite ?_ ?_
    | apply Keeps.next ?_ (State.deny_keeps _ _ _) ?_
    | apply Keeps.next ?_ (State.startTest_keeps _ _ _) ?_
    | decide
    | dsimp -zeta only

theorem execCmdCheck_keeps (a0 : HostCmd) (s : State) :
    Keeps [.hop, .host, .recorder] s (settle s (execCmdCheck a0 s)) := by
  unfold execCmdCheck
  with_reducible repeat' first
    | assumption
    | exact Keeps.rfl
    | refine Keeps.ok ?_
    | apply State.hostRow_keeps
    | apply Keeps.next ?_ (State.checkCmd_keeps _ _) ?_
    | decide
    | intro y
    | dsimp -zeta only

theorem State.showCheck_keeps (s : State) (a1 : List Failure) :
    Keeps [] s (State.showCheck s a1) := by
  unfold State.showCheck
  with_reducible repeat' first
    | assumption
    | (extract_lets +onlyGivenNames z; revert z; intro y)
    | exact Keeps.rfl
    | apply Keeps.next ?_ (State.wr_keeps _ _ _) ?_
    | decide
    | dsimp -zeta only

theorem State.forget_keeps (s : State) (a1 : MillerCmd → Bool) :
    Keeps [.host] s (State.forget s a1) := by
  unfold State.forget
  with_reducible repeat' first
    | assumption
    | (extract_lets +onlyGivenNames z
       refine Keeps.let z ?_ ?_
       subst z
       rotate_left
       clear_value z
       revert z
       intro y hy
       rotate_left)
    | (extract_lets +onlyGivenNames z; revert z; intro y)
    | exact Keeps.rfl
    | apply Keeps.next ?_ (State.busyBits_keeps _) ?_
    | refine Keeps.upd ?_ List.prefix_rfl (Nat.le_refl _) id (fun p hp => by cases p <;> first | rfl | exact absurd (by decide) hp)
    | decide
    | dsimp -zeta only

theorem State.reportCheck_keeps (s : State) (a1 : HostCmd) (a2 : List Failure) :
    Keeps [.host, .recorder] s (State.reportCheck s a1 a2) := by
  unfold State.reportCheck
  with_reducible repeat' first
    | assumption
    | (extract_lets +onlyGivenNames z
       refine Keeps.let z ?_ ?_
       subst z
       rotate_left
       clear_value z
       revert z
       intro y hy
       rotate_left)
    | (extract_lets +onlyGivenNames z; revert z; intro y)
    | exact Keeps.rfl
    | refine Keeps.ite ?_ ?_
    | apply State.moveBuf_keeps
    | apply Keeps.next ?_ (State.emit_keeps _ _) ?_
    | apply Keeps.next ?_ (State.complete_keeps _ _ _ _ _ _) ?_
    | decide
    | intro y
    | dsimp -zeta only

theorem execCheckDone_keeps (s : State) :
    Keeps [.hop, .host, .recorder] s (settle s (execCheckDone s)) := by
  unfold execCheckDone
  with_reducible repeat' first
    | assumption
    | (extract_lets +onlyGivenNames z
       refine Keeps.let z ?_ ?_
       subst z
       rotate_left
       clear_value z
       revert z
       intro y hy
       rotate_left)
    | (extract_lets +onlyGivenNames z; revert z; intro y)
    | exact Keeps.rfl
    | refine Keeps.iteO ?_ ?_
    | refine Keeps.ite ?_ ?_
    | refine Keeps.ok ?_
    | refine Keeps.foldl _ _ ?_ ?_
    | apply Keeps.next ?_ (State.hopState_keeps _) ?_
    | apply Keeps.next ?_ (State.showCheck_keeps _ _) ?_
    | apply Keeps.next ?_ (State.forget_keeps _ _) ?_
    | apply Keeps.next ?_ (State.reportCheck_keeps _ _ _) ?_
    | split
    | refine Keeps.upd ?_ List.prefix_rfl (Nat.le_refl _) id (fun p hp => by cases p <;> first | rfl | exact absurd (by decide) hp)
    | decide
    | intro y
    | dsimp -zeta only

theorem State.commitCmd_keeps (s : State) (a1 : HostCmd) :
    Keeps [.hop, .host, .recorder] s (State.commitCmd s a1) := by
  unfold State.commitCmd
  with_reducible repeat' first
    | assumption
    | (extract_lets +onlyGivenNames z; revert z; intro y)
    | exact Keeps.rfl
    | refine Keeps.ite ?_ ?_
    | apply Keeps.next ?_ (State.deny_keeps _ _ _) ?_
    | apply Keeps.next ?_ (State.complete_keeps _ _ _ _ _ _) ?_
    | apply Keeps.next ?_ (State.wr_keeps _ _ _) ?_
    | apply Keeps.next ?_ (State.showCheck_keeps _ _) ?_
    | apply Keeps.next ?_ (State.startTest_keeps _ _ _) ?_
    | decide
    | dsimp -zeta only

theorem execCmdCommit_keeps (a0 : HostCmd) (s : State) :
    Keeps [.hop, .host, .recorder] s (settle s (execCmdCommit a0 s)) := by
  unfold execCmdCommit
  with_reducible repeat' first
    | assumption
    | exact Keeps.rfl
    | refine Keeps.ok ?_
    | apply State.hostRow_keeps
    | apply Keeps.next ?_ (State.commitCmd_keeps _ _) ?_
    | decide
    | intro y
    | dsimp -zeta only

theorem State.sendChanges_keeps (s : State) (seq b digest : Nat) (l : List (List (Nat × Nat))) :
    Keeps [.ply] s (s.sendChanges seq b digest l) := by
  induction l generalizing s with
  | nil => exact Keeps.rfl
  | cons p l ih =>
    refine Keeps.next ?_ (ih _) (by decide)
    refine Keeps.next ?_ (State.emit_keeps _ _) (by decide)
    exact Keeps.upd Keeps.rfl List.prefix_rfl (Nat.le_refl _) id
      (fun p hp => by cases p <;> first | rfl | exact absurd (by decide) hp)


theorem State.sendCommit_keeps (s : State) (a1 : Nat) (a2 : Nat) (a3 : List (Nat × Nat)) :
    Keeps [.ply] s (State.sendCommit s a1 a2 a3) := by
  unfold State.sendCommit
  with_reducible repeat' first
    | assumption
    | (extract_lets +onlyGivenNames z
       refine Keeps.let z ?_ ?_
       subst z
       rotate_left
       clear_value z
       revert z
       intro y hy
       rotate_left)
    | (extract_lets +onlyGivenNames z; revert z; intro y)
    | exact Keeps.rfl
    | refine Keeps.ite ?_ ?_
    | apply Keeps.next ?_ (State.sendChanges_keeps _ _ _ _ _) ?_
    | refine Keeps.upd ?_ List.prefix_rfl (Nat.le_refl _) id (fun p hp => by cases p <;> first | rfl | exact absurd (by decide) hp)
    | decide
    | dsimp -zeta only

theorem State.arm_keeps (s : State) (a1 : HopperTest) (a2 : Nat) :
    Keeps [.hop, .ply, .host] s (State.arm s a1 a2) := by
  unfold State.arm
  with_reducible repeat' first
    | assumption
    | (extract_lets +onlyGivenNames z
       refine Keeps.let z ?_ ?_
       subst z
       rotate_left
       clear_value z
       revert z
       intro y hy
       rotate_left)
    | (extract_lets +onlyGivenNames z; revert z; intro y)
    | exact Keeps.rfl
    | refine Keeps.ite ?_ ?_
    | apply Keeps.next ?_ (State.wr_keeps _ _ _) ?_
    | apply Keeps.next ?_ (State.sendCommit_keeps _ _ _ _) ?_
    | apply Keeps.next ?_ (State.hopState_keeps _) ?_
    | refine Keeps.upd ?_ List.prefix_rfl (Nat.le_refl _) id (fun p hp => by cases p <;> first | rfl | exact absurd (by decide) hp)
    | decide
    | dsimp -zeta only

theorem execCommitAccepted_keeps (s : State) :
    Keeps [.hop, .ply, .host, .recorder] s (settle s (execCommitAccepted s)) := by
  unfold execCommitAccepted
  with_reducible repeat' first
    | assumption
    | (extract_lets +onlyGivenNames z
       refine Keeps.let z ?_ ?_
       subst z
       rotate_left
       clear_value z
       revert z
       intro y hy
       rotate_left)
    | (extract_lets +onlyGivenNames z; revert z; intro y)
    | exact Keeps.rfl
    | refine Keeps.iteO ?_ ?_
    | refine Keeps.ite ?_ ?_
    | refine Keeps.ok ?_
    | apply Keeps.next ?_ (State.showCheck_keeps _ _) ?_
    | apply Keeps.next ?_ (State.hopState_keeps _) ?_
    | apply Keeps.next ?_ (State.wr_keeps _ _ _) ?_
    | apply Keeps.next ?_ (State.finish_keeps _ _ _ _ _ _) ?_
    | apply Keeps.next ?_ (State.arm_keeps _ _ _) ?_
    | split
    | refine Keeps.upd ?_ List.prefix_rfl (Nat.le_refl _) id (fun p hp => by cases p <;> first | rfl | exact absurd (by decide) hp)
    | decide
    | dsimp -zeta only

theorem State.endCommitOrders_keeps (s : State) :
    Keeps [.ply] s (State.endCommitOrders s) := by
  unfold State.endCommitOrders
  with_reducible repeat' first
    | assumption
    | (extract_lets +onlyGivenNames z; revert z; intro y)
    | exact Keeps.rfl
    | refine Keeps.upd ?_ List.prefix_rfl (Nat.le_refl _) id (fun p hp => by cases p <;> first | rfl | exact absurd (by decide) hp)
    | decide
    | dsimp -zeta only

theorem execCommitApply_keeps (s : State) :
    Keeps [.settings, .staged, .hop, .programs, .progs, .image, .turn, .skein, .tasks, .loops, .trace, .ring, .time, .ply, .rows, .brake, .host, .recorder] s (settle s (execCommitApply s)) := by
  unfold execCommitApply
  with_reducible repeat' first
    | assumption
    | (extract_lets +onlyGivenNames z
       refine Keeps.let z ?_ ?_
       subst z
       rotate_left
       clear_value z
       revert z
       intro y hy
       rotate_left)
    | (extract_lets +onlyGivenNames z; revert z; intro y)
    | exact Keeps.rfl
    | refine Keeps.iteO ?_ ?_
    | refine Keeps.ite ?_ ?_
    | refine Keeps.ok ?_
    | apply Keeps.next ?_ (State.endCommitOrders_keeps _) ?_
    | apply Keeps.next ?_ (State.dropArmed_keeps _ _) ?_
    | apply Keeps.next ?_ (State.finish_keeps _ _ _ _ _ _) ?_
    | apply Keeps.next ?_ (State.applyCommit_keeps _ _) ?_
    | split
    | decide
    | dsimp -zeta only

theorem execCommitImageWritten_keeps (s : State) :
    Keeps [.settingsMram, .hop] s (settle s (execCommitImageWritten s)) := by
  unfold execCommitImageWritten
  with_reducible repeat' first
    | assumption
    | (extract_lets +onlyGivenNames z
       refine Keeps.let z ?_ ?_
       subst z
       rotate_left
       clear_value z
       revert z
       intro y hy
       rotate_left)
    | (extract_lets +onlyGivenNames z; revert z; intro y)
    | exact Keeps.rfl
    | refine Keeps.iteO ?_ ?_
    | refine Keeps.ite ?_ ?_
    | refine Keeps.ok ?_
    | apply Keeps.next ?_ (State.hopState_keeps _) ?_
    | split
    | refine Keeps.upd ?_ List.prefix_rfl (Nat.le_refl _) id (fun p hp => by cases p <;> first | rfl | exact absurd (by decide) hp)
    | decide
    | dsimp -zeta only

theorem State.fwDone_keeps (s : State) (a1 : HostCmd) (a2 : Nat) (a3 : Nat) :
    Keeps [.host, .recorder] s (State.fwDone s a1 a2 a3) := by
  unfold State.fwDone
  with_reducible repeat' first
    | assumption
    | exact Keeps.rfl
    | refine Keeps.ite ?_ ?_
    | apply Keeps.next ?_ (State.complete_keeps _ _ _ _ _ _) ?_
    | decide
    | dsimp -zeta only

theorem State.fwManifestCmd_keeps (s : State) (a1 : HostCmd) :
    Keeps [.ply, .host, .recorder, .fw] s (State.fwManifestCmd s a1) := by
  unfold State.fwManifestCmd
  with_reducible repeat' first
    | assumption
    | (extract_lets +onlyGivenNames z
       refine Keeps.let1 z ?_ ?_
       subst z
       rotate_left
       clear_value z
       revert z
       rintro ⟨y, y1⟩ hy
       rotate_left)
    | (extract_lets +onlyGivenNames z; revert z; intro y)
    | exact Keeps.rfl
    | refine Keeps.ite ?_ ?_
    | refine Keeps.ite1 ?_ ?_
    | (rename (_ : State × _) = _ => heq
       refine Keeps.pair heq ?_ ?_ <;> clear heq
       rotate_left
       intro hy
       rotate_left)
    | apply Keeps.next ?_ (State.deny_keeps _ _ _) ?_
    | apply State.moveBuf_keeps
    | apply Keeps.next ?_ (State.manifestPiece_keeps _ _ _ _) ?_
    | apply Keeps.next ?_ (State.fwDone_keeps _ _ _ _) ?_
    | decide
    | intro y
    | dsimp -zeta only

theorem execCmdFwManifest_keeps (a0 : HostCmd) (s : State) :
    Keeps [.ply, .host, .recorder, .fw] s (settle s (execCmdFwManifest a0 s)) := by
  unfold execCmdFwManifest
  with_reducible repeat' first
    | assumption
    | exact Keeps.rfl
    | refine Keeps.ok ?_
    | apply State.hostRow_keeps
    | apply Keeps.next ?_ (State.fwManifestCmd_keeps _ _) ?_
    | decide
    | intro y
    | dsimp -zeta only

theorem State.fwDeltaCmd_keeps (s : State) (a1 : HostCmd) :
    Keeps [.ply, .host, .recorder, .fw] s (State.fwDeltaCmd s a1) := by
  unfold State.fwDeltaCmd
  with_reducible repeat' first
    | assumption
    | (extract_lets +onlyGivenNames z
       refine Keeps.let1 z ?_ ?_
       subst z
       rotate_left
       clear_value z
       revert z
       rintro ⟨y, y1⟩ hy
       rotate_left)
    | (extract_lets +onlyGivenNames z; revert z; intro y)
    | exact Keeps.rfl
    | refine Keeps.ite ?_ ?_
    | refine Keeps.ite1 ?_ ?_
    | (rename (_ : State × _) = _ => heq
       refine Keeps.pair heq ?_ ?_ <;> clear heq
       rotate_left
       intro hy
       rotate_left)
    | apply Keeps.next ?_ (State.deny_keeps _ _ _) ?_
    | apply State.moveBuf_keeps
    | apply Keeps.next ?_ (State.deltaPiece_keeps _ _ _ _ _ _) ?_
    | apply Keeps.next ?_ (State.fwDone_keeps _ _ _ _) ?_
    | decide
    | intro y
    | dsimp -zeta only

theorem execCmdFwDelta_keeps (a0 : HostCmd) (s : State) :
    Keeps [.ply, .host, .recorder, .fw] s (settle s (execCmdFwDelta a0 s)) := by
  unfold execCmdFwDelta
  with_reducible repeat' first
    | assumption
    | exact Keeps.rfl
    | refine Keeps.ok ?_
    | apply State.hostRow_keeps
    | apply Keeps.next ?_ (State.fwDeltaCmd_keeps _ _) ?_
    | decide
    | intro y
    | dsimp -zeta only

theorem State.fwActivateCmd_keeps (s : State) (a1 : HostCmd) :
    Keeps [.ply, .host, .recorder, .fw] s (State.fwActivateCmd s a1) := by
  unfold State.fwActivateCmd
  with_reducible repeat' first
    | assumption
    | (extract_lets +onlyGivenNames z
       refine Keeps.let1 z ?_ ?_
       subst z
       rotate_left
       clear_value z
       revert z
       rintro ⟨y, y1⟩ hy
       rotate_left)
    | exact Keeps.rfl
    | refine Keeps.ite ?_ ?_
    | refine Keeps.ite1 ?_ ?_
    | (rename (_ : State × _) = _ => heq
       refine Keeps.pair heq ?_ ?_ <;> clear heq
       rotate_left
       intro hy
       rotate_left)
    | apply Keeps.next ?_ (State.deny_keeps _ _ _) ?_
    | apply Keeps.next ?_ (State.activate_keeps _ _) ?_
    | apply Keeps.next ?_ (State.fwDone_keeps _ _ _ _) ?_
    | decide
    | dsimp -zeta only

theorem execCmdFwActivate_keeps (a0 : HostCmd) (s : State) :
    Keeps [.ply, .host, .recorder, .fw] s (settle s (execCmdFwActivate a0 s)) := by
  unfold execCmdFwActivate
  with_reducible repeat' first
    | assumption
    | exact Keeps.rfl
    | refine Keeps.ok ?_
    | apply State.hostRow_keeps
    | apply Keeps.next ?_ (State.fwActivateCmd_keeps _ _) ?_
    | decide
    | intro y
    | dsimp -zeta only

theorem State.fwConfirmCmd_keeps (s : State) (a1 : HostCmd) :
    Keeps [.ply, .host, .recorder, .fw] s (State.fwConfirmCmd s a1) := by
  unfold State.fwConfirmCmd
  with_reducible repeat' first
    | assumption
    | (extract_lets +onlyGivenNames z
       refine Keeps.let1 z ?_ ?_
       subst z
       rotate_left
       clear_value z
       revert z
       rintro ⟨y, y1⟩ hy
       rotate_left)
    | exact Keeps.rfl
    | (rename (_ : State × _) = _ => heq
       refine Keeps.pair heq ?_ ?_ <;> clear heq
       rotate_left
       intro hy
       rotate_left)
    | apply Keeps.next ?_ (State.commandConfirm_keeps _) ?_
    | apply Keeps.next ?_ (State.fwDone_keeps _ _ _ _) ?_
    | decide
    | dsimp -zeta only

theorem execCmdFwConfirm_keeps (a0 : HostCmd) (s : State) :
    Keeps [.ply, .host, .recorder, .fw] s (settle s (execCmdFwConfirm a0 s)) := by
  unfold execCmdFwConfirm
  with_reducible repeat' first
    | assumption
    | exact Keeps.rfl
    | refine Keeps.ok ?_
    | apply State.hostRow_keeps
    | apply Keeps.next ?_ (State.fwConfirmCmd_keeps _ _) ?_
    | decide
    | intro y
    | dsimp -zeta only

theorem execFwBuildDone_keeps (s : State) :
    Keeps [.ply, .host, .recorder, .fwSlots, .fw] s (settle s (execFwBuildDone s)) := by
  unfold execFwBuildDone
  with_reducible repeat' first
    | assumption
    | (extract_lets +onlyGivenNames z
       refine Keeps.let z ?_ ?_
       subst z
       rotate_left
       clear_value z
       revert z
       intro y hy
       rotate_left)
    | exact Keeps.rfl
    | refine Keeps.iteO ?_ ?_
    | refine Keeps.ite ?_ ?_
    | refine Keeps.ok ?_
    | apply Keeps.next ?_ (State.fwEvt_keeps _ _) ?_
    | apply Keeps.next ?_ (State.wr_keeps _ _ _) ?_
    | apply Keeps.next ?_ (State.storeBuild_keeps _ _) ?_
    | apply Keeps.next ?_ (State.fwReport_keeps _ _ _) ?_
    | split
    | decide
    | dsimp -zeta only

theorem State.switchBanks_keeps (s : State) :
    Keeps [.ply, .host, .recorder, .fw] s (State.switchBanks s) := by
  unfold State.switchBanks
  with_reducible repeat' first
    | assumption
    | (extract_lets +onlyGivenNames z
       refine Keeps.let z ?_ ?_
       subst z
       rotate_left
       clear_value z
       revert z
       intro y hy
       rotate_left)
    | (extract_lets +onlyGivenNames z; revert z; intro y)
    | exact Keeps.rfl
    | refine Keeps.ite ?_ ?_
    | apply Keeps.next ?_ (State.wr_keeps _ _ _) ?_
    | apply Keeps.next ?_ (State.fwEvt_keeps _ _) ?_
    | apply Keeps.next ?_ (State.fwReport_keeps _ _ _) ?_
    | refine Keeps.upd ?_ List.prefix_rfl (Nat.le_refl _) id (fun p hp => by cases p <;> first | rfl | exact absurd (by decide) hp)
    | decide
    | dsimp -zeta only

theorem execFwSwitch_keeps (s : State) :
    Keeps [.ply, .host, .recorder, .fw] s (settle s (execFwSwitch s)) := by
  unfold execFwSwitch
  with_reducible repeat' first
    | assumption
    | (extract_lets +onlyGivenNames z
       refine Keeps.let z ?_ ?_
       subst z
       rotate_left
       clear_value z
       revert z
       intro y hy
       rotate_left)
    | exact Keeps.rfl
    | refine Keeps.iteO ?_ ?_
    | refine Keeps.ite ?_ ?_
    | refine Keeps.ok ?_
    | apply Keeps.next ?_ (State.fwNote_keeps _ _) ?_
    | apply Keeps.next ?_ (State.endActivation_keeps _) ?_
    | apply Keeps.next ?_ (State.fwReport_keeps _ _ _) ?_
    | apply Keeps.next ?_ (State.switchBanks_keeps _) ?_
    | split
    | decide
    | dsimp -zeta only

theorem execFwSelfConfirm_keeps (s : State) :
    Keeps [.ply, .host, .recorder] s (settle s (execFwSelfConfirm s)) := by
  unfold execFwSelfConfirm
  with_reducible repeat' first
    | assumption
    | exact Keeps.rfl
    | refine Keeps.iteO ?_ ?_
    | refine Keeps.ite ?_ ?_
    | refine Keeps.ok ?_
    | apply Keeps.next ?_ (State.confirm_keeps _) ?_
    | decide
    | dsimp -zeta only

theorem execFwFallBack_keeps (s : State) :
    Keeps [.ply, .host, .recorder, .fw] s (settle s (execFwFallBack s)) := by
  unfold execFwFallBack
  with_reducible repeat' first
    | assumption
    | (extract_lets +onlyGivenNames z
       refine Keeps.let z ?_ ?_
       subst z
       rotate_left
       clear_value z
       revert z
       intro y hy
       rotate_left)
    | (extract_lets +onlyGivenNames z; revert z; intro y)
    | exact Keeps.rfl
    | refine Keeps.iteO ?_ ?_
    | refine Keeps.ite ?_ ?_
    | refine Keeps.ok ?_
    | apply Keeps.next ?_ (State.fireTrigger_keeps _ _ _ _ _) ?_
    | apply Keeps.next ?_ (State.fwEvt_keeps _ _) ?_
    | apply Keeps.next ?_ (State.wr_keeps _ _ _) ?_
    | apply Keeps.next ?_ (State.sendOrder_keeps _ _ _ _ _) ?_
    | refine Keeps.upd ?_ List.prefix_rfl (Nat.le_refl _) id (fun p hp => by cases p <;> first | rfl | exact absurd (by decide) hp)
    | decide
    | dsimp -zeta only

theorem execMillerWatchdogRestart_keeps (a0 : Bool) (s : State) :
    Keeps [.hop, .host, .recorder] s (settle s (execMillerWatchdogRestart a0 s)) := by
  unfold execMillerWatchdogRestart
  with_reducible repeat' first
    | assumption
    | (extract_lets +onlyGivenNames z
       refine Keeps.let z ?_ ?_
       subst z
       rotate_left
       clear_value z
       revert z
       intro y hy
       rotate_left)
    | (extract_lets +onlyGivenNames z; revert z; intro y)
    | exact Keeps.rfl
    | refine Keeps.iteO ?_ ?_
    | refine Keeps.ite ?_ ?_
    | refine Keeps.ok ?_
    | apply Keeps.next ?_ (State.hostState_keeps _) ?_
    | apply Keeps.next ?_ (State.inc_keeps _ _) ?_
    | apply Keeps.next ?_ (State.finish_keeps _ _ _ _ _ _) ?_
    | apply Keeps.next ?_ (State.hopState_keeps _) ?_
    | apply Keeps.next ?_ (State.raiseSource_keeps _ _ _ _) ?_
    | refine Keeps.upd ?_ List.prefix_rfl (Nat.le_refl _) id (fun p hp => by cases p <;> first | rfl | exact absurd (by decide) hp)
    | decide
    | dsimp -zeta only

theorem State.logReadCmd_keeps (s : State) (a1 : HostCmd) :
    Keeps [.host, .recorder] s (State.logReadCmd s a1) := by
  unfold State.logReadCmd
  with_reducible repeat' first
    | assumption
    | (extract_lets +onlyGivenNames z; revert z; intro y)
    | exact Keeps.rfl
    | refine Keeps.ite ?_ ?_
    | apply Keeps.next ?_ (State.deny_keeps _ _ _) ?_
    | apply Keeps.next ?_ (State.answer_keeps _ _ _ _ _) ?_
    | decide
    | dsimp -zeta only

theorem execCmdLogRead_keeps (a0 : HostCmd) (s : State) :
    Keeps [.host, .recorder] s (settle s (execCmdLogRead a0 s)) := by
  unfold execCmdLogRead
  with_reducible repeat' first
    | assumption
    | exact Keeps.rfl
    | refine Keeps.ok ?_
    | apply State.hostRow_keeps
    | apply Keeps.next ?_ (State.logReadCmd_keeps _ _) ?_
    | decide
    | intro y
    | dsimp -zeta only

theorem State.eraseLog_keeps (s : State) :
    Keeps [.host, .log, .recorder] s (State.eraseLog s) := by
  unfold State.eraseLog
  with_reducible repeat' first
    | assumption
    | (extract_lets +onlyGivenNames z
       refine Keeps.let z ?_ ?_
       subst z
       rotate_left
       clear_value z
       revert z
       intro y hy
       rotate_left)
    | (extract_lets +onlyGivenNames z; revert z; intro y)
    | exact Keeps.rfl
    | apply Keeps.next ?_ (State.writeQueued_keeps _ _) ?_
    | apply Keeps.next ?_ (State.wr_keeps _ _ _) ?_
    | apply Keeps.next ?_ (State.recEvt_keeps _ _) ?_
    | refine Keeps.upd ?_ List.prefix_rfl (Nat.le_refl _) id (fun p hp => by cases p <;> first | rfl | exact absurd (by decide) hp)
    | decide
    | dsimp -zeta only

theorem State.logEraseCmd_keeps (s : State) (a1 : HostCmd) :
    Keeps [.host, .log, .recorder] s (State.logEraseCmd s a1) := by
  unfold State.logEraseCmd
  with_reducible repeat' first
    | assumption
    | exact Keeps.rfl
    | refine Keeps.ite ?_ ?_
    | apply Keeps.next ?_ (State.deny_keeps _ _ _) ?_
    | apply Keeps.next ?_ (State.complete_keeps _ _ _ _ _ _) ?_
    | apply Keeps.next ?_ (State.eraseLog_keeps _) ?_
    | decide
    | dsimp -zeta only

theorem execCmdLogErase_keeps (a0 : HostCmd) (s : State) :
    Keeps [.host, .log, .recorder] s (settle s (execCmdLogErase a0 s)) := by
  unfold execCmdLogErase
  with_reducible repeat' first
    | assumption
    | exact Keeps.rfl
    | refine Keeps.ok ?_
    | apply State.hostRow_keeps
    | apply Keeps.next ?_ (State.logEraseCmd_keeps _ _) ?_
    | decide
    | intro y
    | dsimp -zeta only

theorem State.ringError_keeps (s : State) (a1 : Nat) :
    Keeps [.host, .recorder] s (State.ringError s a1) := by
  unfold State.ringError
  with_reducible repeat' first
    | assumption
    | exact Keeps.rfl
    | apply Keeps.next ?_ (State.raiseSource_keeps _ _ _ _) ?_
    | decide
    | dsimp -zeta only

theorem State.takeRing_keeps (a0 : Bytes) (s : State) (a2 : Nat) :
    Keeps [.host, .recorder] s (State.takeRing a0 s a2) := by
  unfold State.takeRing
  with_reducible repeat' first
    | assumption
    | (extract_lets +onlyGivenNames z
       refine Keeps.let z ?_ ?_
       subst z
       rotate_left
       clear_value z
       revert z
       intro y hy
       rotate_left)
    | (extract_lets +onlyGivenNames z; revert z; intro y)
    | exact Keeps.rfl
    | refine Keeps.ite ?_ ?_
    | apply Keeps.next ?_ (State.ringError_keeps _ _) ?_
    | apply Keeps.next ?_ (State.wr_keeps _ _ _) ?_
    | apply Keeps.next ?_ (State.wrb_keeps _ _ _) ?_
    | refine Keeps.upd ?_ List.prefix_rfl (Nat.le_refl _) id (fun p hp => by cases p <;> first | rfl | exact absurd (by decide) hp)
    | decide
    | dsimp -zeta only

theorem State.takeEvents_keeps (a0 : Bytes) (s : State) :
    Keeps [.host, .recorder] s (State.takeEvents a0 s) := by
  unfold State.takeEvents
  with_reducible repeat' first
    | assumption
    | (extract_lets +onlyGivenNames z
       refine Keeps.let z ?_ ?_
       subst z
       rotate_left
       clear_value z
       revert z
       intro y hy
       rotate_left)
    | (extract_lets +onlyGivenNames z; revert z; intro y)
    | exact Keeps.rfl
    | refine Keeps.ite ?_ ?_
    | apply Keeps.next ?_ (State.ringError_keeps _ _) ?_
    | apply Keeps.next ?_ (State.wr_keeps _ _ _) ?_
    | refine Keeps.upd ?_ List.prefix_rfl (Nat.le_refl _) id (fun p hp => by cases p <;> first | rfl | exact absurd (by decide) hp)
    | decide
    | dsimp -zeta only

theorem State.takeTrace_keeps (a0 : Bytes) (s : State) (a2 : Nat) :
    Keeps [.host, .recorder] s (State.takeTrace a0 s a2) := by
  unfold State.takeTrace
  with_reducible repeat' first
    | assumption
    | (extract_lets +onlyGivenNames z
       refine Keeps.let z ?_ ?_
       subst z
       rotate_left
       clear_value z
       revert z
       intro y hy
       rotate_left)
    | (extract_lets +onlyGivenNames z; revert z; intro y)
    | exact Keeps.rfl
    | refine Keeps.ite ?_ ?_
    | apply Keeps.next ?_ (State.ringError_keeps _ _) ?_
    | apply Keeps.next ?_ (State.wr_keeps _ _ _) ?_
    | refine Keeps.upd ?_ List.prefix_rfl (Nat.le_refl _) id (fun p hp => by cases p <;> first | rfl | exact absurd (by decide) hp)
    | decide
    | dsimp -zeta only

theorem State.hostOp_keeps (s : State) (a1 : HostCmd) :
    Keeps [.staged, .hop, .progs, .image, .ply, .host, .mill, .log, .recorder, .fw] s (State.hostOp s a1) := by
  unfold State.hostOp
  with_reducible repeat' first
    | assumption
    | exact Keeps.rfl
    | apply Keeps.next ?_ (State.complete_keeps _ _ _ _ _ _) ?_
    | apply Keeps.next ?_ (State.sigRead_keeps _ _) ?_
    | apply Keeps.next ?_ (State.sigWrite_keeps _ _) ?_
    | apply Keeps.next ?_ (State.slotStatus_keeps _ _) ?_
    | apply Keeps.next ?_ (State.loopRead_keeps _ _) ?_
    | apply Keeps.next ?_ (State.loopWrite_keeps _ _) ?_
    | apply Keeps.next ?_ (State.forceCmd_keeps _ _) ?_
    | apply Keeps.next ?_ (State.unforceCmd_keeps _ _) ?_
    | apply Keeps.next ?_ (State.forceList_keeps _ _) ?_
    | apply Keeps.next ?_ (State.stageRegs_keeps _ _) ?_
    | apply Keeps.next ?_ (State.stageSlots_keeps _ _) ?_
    | apply Keeps.next ?_ (State.checkCmd_keeps _ _) ?_
    | apply Keeps.next ?_ (State.commitCmd_keeps _ _) ?_
    | apply Keeps.next ?_ (State.discard_keeps _ _) ?_
    | apply Keeps.next ?_ (State.progLoad_keeps _ _) ?_
    | apply Keeps.next ?_ (State.progRead_keeps _ _) ?_
    | apply Keeps.next ?_ (State.logReadCmd_keeps _ _) ?_
    | apply Keeps.next ?_ (State.logEraseCmd_keeps _ _) ?_
    | apply Keeps.next ?_ (State.fwManifestCmd_keeps _ _) ?_
    | apply Keeps.next ?_ (State.fwDeltaCmd_keeps _ _) ?_
    | apply Keeps.next ?_ (State.fwActivateCmd_keeps _ _) ?_
    | apply Keeps.next ?_ (State.fwConfirmCmd_keeps _ _) ?_
    | apply Keeps.next ?_ (State.millSend_keeps _ _) ?_
    | apply Keeps.next ?_ (State.millReadCmd_keeps _ _) ?_
    | split
    | decide
    | dsimp -zeta only

theorem State.tryCmd_keeps (s : State) (a1 : HostCmd) :
    Keeps [.staged, .hop, .progs, .image, .ply, .host, .mill, .log, .recorder, .fw] s (State.tryCmd s a1).1 := by
  unfold State.tryCmd
  with_reducible repeat' first
    | assumption
    | (extract_lets +onlyGivenNames z
       refine Keeps.let z ?_ ?_
       subst z
       rotate_left
       clear_value z
       revert z
       intro y hy
       rotate_left)
    | (extract_lets +onlyGivenNames z; revert z; intro y)
    | exact Keeps.rfl
    | refine Keeps.ite ?_ ?_
    | refine Keeps.ite1 ?_ ?_
    | apply Keeps.next ?_ (State.consume_keeps _ _) ?_
    | apply Keeps.next ?_ (State.deny_keeps _ _ _) ?_
    | apply State.runCmd_keeps
    | apply Keeps.next ?_ (State.hostOp_keeps _ _) ?_
    | decide
    | intro y
    | dsimp -zeta only

theorem State.runCmds_keeps (a0 : HostCmd → Bool) (a1 : List HostCmd) (s : State) (a3 : List HostCmd) :
    Keeps [.staged, .hop, .progs, .image, .ply, .host, .mill, .log, .recorder, .fw] s (State.runCmds a0 a1 s a3).1 := by
  induction a3 generalizing a1 s with
  | nil => exact Keeps.rfl
  | cons c cs ih =>
    have h := State.tryCmd_keeps s c
    unfold State.runCmds
    split
    · exact ih _ _
    · split
      · next heq => rw [heq] at h; exact Keeps.next h (ih _ _) (by decide)
      · next heq => rw [heq] at h; exact Keeps.next h (ih _ _) (by decide)

theorem State.runFetched_keeps (s : State) (a1 : List HostCmd) :
    Keeps [.staged, .hop, .progs, .image, .ply, .host, .mill, .log, .recorder, .fw] s (State.runFetched s a1) := by
  unfold State.runFetched
  with_reducible repeat' first
    | assumption
    | (extract_lets +onlyGivenNames z
       refine Keeps.let1 z ?_ ?_
       subst z
       rotate_left
       clear_value z
       revert z
       rintro ⟨y, y1⟩ hy
       rotate_left)
    | (extract_lets +onlyGivenNames z; revert z; intro y)
    | exact Keeps.rfl
    | (rename (_ : State × _) = _ => heq
       refine Keeps.pair heq ?_ ?_ <;> clear heq
       rotate_left
       intro hy
       rotate_left)
    | apply Keeps.next ?_ (State.runCmds_keeps _ _ _ _) ?_
    | decide
    | dsimp -zeta only

theorem State.fetchDesc_keeps (s : State) (a1 : Nat) (a2 : Nat) :
    Keeps [.host, .recorder] s (State.fetchDesc s a1 a2).1 := by
  unfold State.fetchDesc
  with_reducible repeat' first
    | assumption
    | (extract_lets +onlyGivenNames z; revert z; intro y)
    | exact Keeps.rfl
    | (rename (_ : State × _) = _ => heq
       refine Keeps.pair heq ?_ ?_ <;> clear heq
       rotate_left
       intro hy
       rotate_left)
    | apply Keeps.next ?_ (State.acAccess_keeps _ _ _ _ _ _) ?_
    | apply Keeps.next ?_ (State.dmaError_keeps _ _ _) ?_
    | split
    | decide
    | dsimp -zeta only

theorem State.fetchRing_keeps (s : State) (a1 : Nat) (a2 : Nat) (a3 : Nat) (a4 : Nat) (a5 : List HostCmd) :
    Keeps [.host, .recorder] s (State.fetchRing s a1 a2 a3 a4 a5).1 := by
  induction a5 generalizing a2 a3 a4 s with
  | nil => exact Keeps.rfl
  | cons c cs ih =>
    have h := State.fetchDesc_keeps s a1 a4
    unfold State.fetchRing
    split
    · exact Keeps.rfl
    · split
      · next heq => rw [heq] at h; exact h
      · next heq =>
        rw [heq] at h
        split
        · exact h
        · exact Keeps.next h (ih _ _ _ _) (by decide)

theorem State.fetchAll_keeps (a0 : Bytes) (a1 : List HostCmd) (s : State) (a3 : Nat) (a4 : Nat) (a5 : List Nat) :
    Keeps [.host, .recorder] s (State.fetchAll a0 a1 s a3 a4 a5).1 := by
  induction a5 generalizing a3 a4 s with
  | nil => exact Keeps.rfl
  | cons r rs ih =>
    unfold State.fetchAll
    split
    · exact ih _ _ _
    · exact Keeps.next (State.fetchRing_keeps _ _ _ _ _ _) (ih _ _ _) (by decide)

theorem execDoorbellReadEnd_keeps (a0 : Bool) (a1 : Bytes) (a2 : List HostCmd) (s : State) :
    Keeps [.staged, .hop, .progs, .image, .ply, .host, .mill, .log, .recorder, .fw] s (settle s (execDoorbellReadEnd a0 a1 a2 s)) := by
  unfold execDoorbellReadEnd
  with_reducible repeat' first
    | assumption
    | (extract_lets +onlyGivenNames z
       refine Keeps.let z ?_ ?_
       subst z
       rotate_left
       clear_value z
       revert z
       intro y hy
       rotate_left)
    | (extract_lets +onlyGivenNames z
       refine Keeps.let1 z ?_ ?_
       subst z
       rotate_left
       clear_value z
       revert z
       rintro ⟨y, y1⟩ hy
       rotate_left)
    | (extract_lets +onlyGivenNames z; revert z; intro y)
    | exact Keeps.rfl
    | refine Keeps.iteO ?_ ?_
    | refine Keeps.ite ?_ ?_
    | refine Keeps.ok ?_
    | refine Keeps.ite1 ?_ ?_
    | refine Keeps.foldl _ _ ?_ ?_
    | (rename (_ : State × _) = _ => heq
       refine Keeps.pair heq ?_ ?_ <;> clear heq
       rotate_left
       intro hy
       rotate_left)
    | apply Keeps.next ?_ (State.acAccess_keeps _ _ _ _ _ _) ?_
    | apply Keeps.next ?_ (State.dmaError_keeps _ _ _) ?_
    | apply Keeps.next ?_ (State.takeRing_keeps _ _ _) ?_
    | apply Keeps.next ?_ (State.takeTrace_keeps _ _ _) ?_
    | apply Keeps.next ?_ (State.takeEvents_keeps _ _) ?_
    | apply Keeps.next ?_ (State.fetchAll_keeps _ _ _ _ _ _) ?_
    | apply Keeps.next ?_ (State.runFetched_keeps _ _) ?_
    | split
    | refine Keeps.upd ?_ List.prefix_rfl (Nat.le_refl _) id (fun p hp => by cases p <;> first | rfl | exact absurd (by decide) hp)
    | decide
    | intro y
    | dsimp -zeta only

theorem execMsixCoalTimeout_keeps (a0 : Fin 128) (s : State) :
    Keeps [.host] s (settle s (execMsixCoalTimeout a0 s)) := by
  unfold execMsixCoalTimeout
  with_reducible repeat' first
    | assumption
    | exact Keeps.rfl
    | refine Keeps.iteO ?_ ?_
    | refine Keeps.ite ?_ ?_
    | refine Keeps.ok ?_
    | apply Keeps.next ?_ (State.sendMsix_keeps _ _) ?_
    | decide
    | dsimp -zeta only

theorem State.releaseMsix_keeps (s : State) (a1 : Nat) :
    Keeps [] s (State.releaseMsix s a1) := by
  unfold State.releaseMsix
  with_reducible repeat' first
    | assumption
    | (extract_lets +onlyGivenNames z; revert z; intro y)
    | exact Keeps.rfl
    | refine Keeps.ite ?_ ?_
    | apply Keeps.next ?_ (State.emit_keeps _ _) ?_
    | apply Keeps.next ?_ (State.wr_keeps _ _ _) ?_
    | decide
    | dsimp -zeta only

theorem execMsixFunctionUnmask_keeps (s : State) :
    Keeps [.host] s (settle s (execMsixFunctionUnmask s)) := by
  unfold execMsixFunctionUnmask
  with_reducible repeat' first
    | assumption
    | (extract_lets +onlyGivenNames z; revert z; intro y)
    | exact Keeps.rfl
    | refine Keeps.iteO ?_ ?_
    | refine Keeps.ite ?_ ?_
    | refine Keeps.ok ?_
    | refine Keeps.foldl _ _ ?_ ?_
    | apply Keeps.next ?_ (State.releaseMsix_keeps _ _) ?_
    | refine Keeps.upd ?_ List.prefix_rfl (Nat.le_refl _) id (fun p hp => by cases p <;> first | rfl | exact absurd (by decide) hp)
    | decide
    | intro y
    | dsimp -zeta only

theorem State.commandRingWrite_keeps (s : State) (a1 : Nat) (a2 : Nat) :
    Keeps [.host, .recorder] s (State.commandRingWrite s a1 a2) := by
  unfold State.commandRingWrite
  with_reducible repeat' first
    | assumption
    | (extract_lets +onlyGivenNames z
       refine Keeps.let z ?_ ?_
       subst z
       rotate_left
       clear_value z
       revert z
       intro y hy
       rotate_left)
    | (extract_lets +onlyGivenNames z; revert z; intro y)
    | exact Keeps.rfl
    | refine Keeps.ite ?_ ?_
    | apply Keeps.next ?_ (State.wr_keeps _ _ _) ?_
    | apply Keeps.next ?_ (State.ringError_keeps _ _) ?_
    | refine Keeps.upd ?_ List.prefix_rfl (Nat.le_refl _) id (fun p hp => by cases p <;> first | rfl | exact absurd (by decide) hp)
    | decide
    | dsimp -zeta only

theorem State.eventRingWrite_keeps (s : State) (a1 : Nat) :
    Keeps [.host, .recorder] s (State.eventRingWrite s a1) := by
  unfold State.eventRingWrite
  with_reducible repeat' first
    | assumption
    | (extract_lets +onlyGivenNames z
       refine Keeps.let z ?_ ?_
       subst z
       rotate_left
       clear_value z
       revert z
       intro y hy
       rotate_left)
    | (extract_lets +onlyGivenNames z; revert z; intro y)
    | exact Keeps.rfl
    | refine Keeps.ite ?_ ?_
    | apply Keeps.next ?_ (State.wr_keeps _ _ _) ?_
    | apply Keeps.next ?_ (State.ringError_keeps _ _) ?_
    | refine Keeps.upd ?_ List.prefix_rfl (Nat.le_refl _) id (fun p hp => by cases p <;> first | rfl | exact absurd (by decide) hp)
    | decide
    | dsimp -zeta only

theorem State.traceRingWrite_keeps (s : State) (a1 : Nat) (a2 : Nat) :
    Keeps [.host, .recorder] s (State.traceRingWrite s a1 a2) := by
  unfold State.traceRingWrite
  with_reducible repeat' first
    | assumption
    | (extract_lets +onlyGivenNames z
       refine Keeps.let z ?_ ?_
       subst z
       rotate_left
       clear_value z
       revert z
       intro y hy
       rotate_left)
    | (extract_lets +onlyGivenNames z; revert z; intro y)
    | exact Keeps.rfl
    | refine Keeps.ite ?_ ?_
    | apply Keeps.next ?_ (State.wr_keeps _ _ _) ?_
    | apply Keeps.next ?_ (State.ringError_keeps _ _) ?_
    | refine Keeps.upd ?_ List.prefix_rfl (Nat.le_refl _) id (fun p hp => by cases p <;> first | rfl | exact absurd (by decide) hp)
    | decide
    | dsimp -zeta only

theorem execRingEnableWrite_keeps (a0 : HostRing) (a1 : Word32) (s : State) :
    Keeps [.host, .recorder] s (settle s (execRingEnableWrite a0 a1 s)) := by
  unfold execRingEnableWrite
  with_reducible repeat' first
    | assumption
    | exact Keeps.rfl
    | refine Keeps.iteO ?_ ?_
    | refine Keeps.ite ?_ ?_
    | refine Keeps.ok ?_
    | apply Keeps.next ?_ (State.commandRingWrite_keeps _ _ _) ?_
    | apply Keeps.next ?_ (State.eventRingWrite_keeps _ _) ?_
    | apply Keeps.next ?_ (State.traceRingWrite_keeps _ _ _) ?_
    | split
    | decide
    | dsimp -zeta only

theorem execPolicyLockWrite_keeps (a0 : Word32) (s : State) :
    Keeps [] s (settle s (execPolicyLockWrite a0 s)) := by
  unfold execPolicyLockWrite
  with_reducible repeat' first
    | assumption
    | exact Keeps.rfl
    | refine Keeps.iteO ?_ ?_
    | refine Keeps.ite ?_ ?_
    | refine Keeps.ok ?_
    | apply Keeps.next ?_ (State.wr_keeps _ _ _) ?_
    | decide
    | dsimp -zeta only

theorem execFlr_keeps (s : State) :
    Keeps [.trace, .host] s (settle s (execFlr s)) := by
  unfold execFlr
  with_reducible repeat' first
    | assumption
    | exact Keeps.rfl
    | refine Keeps.iteO ?_ ?_
    | refine Keeps.ite ?_ ?_
    | refine Keeps.ok ?_
    | apply Keeps.next ?_ (State.hostReset_keeps _ _ _) ?_
    | decide
    | dsimp -zeta only

theorem State.linkLost_keeps (s : State) :
    Keeps [.host, .recorder] s (State.linkLost s) := by
  unfold State.linkLost
  with_reducible repeat' first
    | assumption
    | (extract_lets +onlyGivenNames z
       refine Keeps.let z ?_ ?_
       subst z
       rotate_left
       clear_value z
       revert z
       intro y hy
       rotate_left)
    | (extract_lets +onlyGivenNames z; revert z; intro y)
    | exact Keeps.rfl
    | refine Keeps.foldl _ _ ?_ ?_
    | apply Keeps.next ?_ (State.dmaError_keeps _ _ _) ?_
    | apply Keeps.next ?_ (State.wr_keeps _ _ _) ?_
    | refine Keeps.upd ?_ List.prefix_rfl (Nat.le_refl _) id (fun p hp => by cases p <;> first | rfl | exact absurd (by decide) hp)
    | decide
    | intro y
    | dsimp -zeta only

theorem execHostLinkDown_keeps (s : State) :
    Keeps [.host, .recorder] s (settle s (execHostLinkDown s)) := by
  unfold execHostLinkDown
  with_reducible repeat' first
    | assumption
    | (extract_lets +onlyGivenNames z
       refine Keeps.let z ?_ ?_
       subst z
       rotate_left
       clear_value z
       revert z
       intro y hy
       rotate_left)
    | (extract_lets +onlyGivenNames z; revert z; intro y)
    | exact Keeps.rfl
    | refine Keeps.iteO ?_ ?_
    | refine Keeps.ite ?_ ?_
    | refine Keeps.ok ?_
    | apply Keeps.next ?_ (State.linkLost_keeps _) ?_
    | apply Keeps.next ?_ (State.hostState_keeps _) ?_
    | apply Keeps.next ?_ (State.raiseSource_keeps _ _ _ _) ?_
    | refine Keeps.upd ?_ List.prefix_rfl (Nat.le_refl _) id (fun p hp => by cases p <;> first | rfl | exact absurd (by decide) hp)
    | decide
    | dsimp -zeta only

theorem execHostLinkTrained_keeps (a0 : Fin 7) (a1 : LinkWidth) (a2 : Bool) (s : State) :
    Keeps [.host, .recorder] s (settle s (execHostLinkTrained a0 a1 a2 s)) := by
  unfold execHostLinkTrained
  with_reducible repeat' first
    | assumption
    | (extract_lets +onlyGivenNames z
       refine Keeps.let z ?_ ?_
       subst z
       rotate_left
       clear_value z
       revert z
       intro y hy
       rotate_left)
    | (extract_lets +onlyGivenNames z; revert z; intro y)
    | exact Keeps.rfl
    | refine Keeps.iteO ?_ ?_
    | refine Keeps.ite ?_ ?_
    | refine Keeps.ok ?_
    | apply Keeps.next ?_ (State.wr_keeps _ _ _) ?_
    | apply Keeps.next ?_ (State.hostState_keeps _) ?_
    | apply Keeps.next ?_ (State.wrb_keeps _ _ _) ?_
    | apply Keeps.next ?_ (State.raiseSource_keeps _ _ _ _) ?_
    | split
    | refine Keeps.upd ?_ List.prefix_rfl (Nat.le_refl _) id (fun p hp => by cases p <;> first | rfl | exact absurd (by decide) hp)
    | decide
    | dsimp -zeta only

theorem execPerstChange_keeps (a0 : Bool) (s : State) :
    Keeps [.trace, .host, .recorder, .pwr] s (settle s (execPerstChange a0 s)) := by
  unfold execPerstChange
  with_reducible repeat' first
    | assumption
    | (extract_lets +onlyGivenNames z
       refine Keeps.let z ?_ ?_
       subst z
       rotate_left
       clear_value z
       revert z
       intro y hy
       rotate_left)
    | (extract_lets +onlyGivenNames z; revert z; intro y)
    | exact Keeps.rfl
    | refine Keeps.iteO ?_ ?_
    | refine Keeps.ite ?_ ?_
    | refine Keeps.ok ?_
    | apply Keeps.next ?_ (State.wr_keeps _ _ _) ?_
    | apply Keeps.next ?_ (State.hostReset_keeps _ _ _) ?_
    | apply Keeps.next ?_ (State.hostState_keeps _) ?_
    | apply Keeps.next ?_ (State.wake_keeps _ _) ?_
    | refine Keeps.upd ?_ List.prefix_rfl (Nat.le_refl _) id (fun p hp => by cases p <;> first | rfl | exact absurd (by decide) hp)
    | decide
    | dsimp -zeta only

theorem State.resumeHost_keeps (s : State) :
    Keeps [.host, .recorder] s (State.resumeHost s) := by
  unfold State.resumeHost
  with_reducible repeat' first
    | assumption
    | (extract_lets +onlyGivenNames z
       refine Keeps.let z ?_ ?_
       subst z
       rotate_left
       clear_value z
       revert z
       intro y hy
       rotate_left)
    | (extract_lets +onlyGivenNames z; revert z; intro y)
    | exact Keeps.rfl
    | refine Keeps.ite ?_ ?_
    | refine Keeps.foldl _ _ ?_ ?_
    | apply Keeps.next ?_ (State.writeCpl_keeps _ _) ?_
    | refine Keeps.upd ?_ List.prefix_rfl (Nat.le_refl _) id (fun p hp => by cases p <;> first | rfl | exact absurd (by decide) hp)
    | decide
    | intro y
    | dsimp -zeta only

theorem execPmStateChange_keeps (a0 : Fin 4) (a1 : Bool) (s : State) :
    Keeps [.host, .recorder] s (settle s (execPmStateChange a0 a1 s)) := by
  unfold execPmStateChange
  with_reducible repeat' first
    | assumption
    | (extract_lets +onlyGivenNames z
       refine Keeps.let z ?_ ?_
       subst z
       rotate_left
       clear_value z
       revert z
       intro y hy
       rotate_left)
    | (extract_lets +onlyGivenNames z; revert z; intro y)
    | exact Keeps.rfl
    | refine Keeps.iteO ?_ ?_
    | refine Keeps.ite ?_ ?_
    | refine Keeps.ok ?_
    | apply Keeps.next ?_ (State.hostState_keeps _) ?_
    | apply Keeps.next ?_ (State.resumeHost_keeps _) ?_
    | refine Keeps.upd ?_ List.prefix_rfl (Nat.le_refl _) id (fun p hp => by cases p <;> first | rfl | exact absurd (by decide) hp)
    | decide
    | dsimp -zeta only

theorem State.setGsBusy_keeps (s : State) (a1 : Nat) (a2 : Bool) :
    Keeps [] s (State.setGsBusy s a1 a2) := by
  unfold State.setGsBusy
  with_reducible repeat' first
    | assumption
    | exact Keeps.rfl
    | apply Keeps.next ?_ (State.wr_keeps _ _ _) ?_
    | decide
    | dsimp -zeta only

theorem execGsStart_keeps (a0 : Fin 8) (a1 : Bool) (s : State) :
    Keeps [.seals] s (settle s (execGsStart a0 a1 s)) := by
  unfold execGsStart
  with_reducible repeat' first
    | assumption
    | (extract_lets +onlyGivenNames z
       refine Keeps.let z ?_ ?_
       subst z
       rotate_left
       clear_value z
       revert z
       intro y hy
       rotate_left)
    | exact Keeps.rfl
    | refine Keeps.iteO ?_ ?_
    | refine Keeps.ite ?_ ?_
    | refine Keeps.ok ?_
    | apply Keeps.next ?_ (State.wr_keeps _ _ _) ?_
    | apply Keeps.next ?_ (State.setGsBusy_keeps _ _ _) ?_
    | refine Keeps.upd ?_ List.prefix_rfl (Nat.le_refl _) id (fun p hp => by cases p <;> first | rfl | exact absurd (by decide) hp)
    | decide
    | dsimp -zeta only

theorem execGsStop_keeps (a0 : Fin 8) (a1 : Bool) (s : State) :
    Keeps [] s (settle s (execGsStop a0 a1 s)) := by
  unfold execGsStop
  with_reducible repeat' first
    | assumption
    | exact Keeps.rfl
    | refine Keeps.iteO ?_ ?_
    | refine Keeps.ite ?_ ?_
    | refine Keeps.ok ?_
    | apply Keeps.next ?_ (State.setGsBusy_keeps _ _ _) ?_
    | decide
    | dsimp -zeta only

theorem State.gsFeed_keeps (s : State) (a1 : Nat) (a2 : Bool) (a3 : Bytes) :
    Keeps [.seals] s (State.gsFeed s a1 a2 a3) := by
  unfold State.gsFeed
  with_reducible repeat' first
    | assumption
    | (extract_lets +onlyGivenNames z
       refine Keeps.let z ?_ ?_
       subst z
       rotate_left
       clear_value z
       revert z
       intro y hy
       rotate_left)
    | (extract_lets +onlyGivenNames z; revert z; intro y)
    | exact Keeps.rfl
    | refine Keeps.ite ?_ ?_
    | apply Keeps.next ?_ (State.wr_keeps _ _ _) ?_
    | apply Keeps.next ?_ (State.add_keeps _ _ _) ?_
    | refine Keeps.upd ?_ List.prefix_rfl (Nat.le_refl _) id (fun p hp => by cases p <;> first | rfl | exact absurd (by decide) hp)
    | decide
    | dsimp -zeta only

theorem execGsFeedB_keeps (a0 : Fin 8) (a1 : Bool) (a2 : Byte) (s : State) :
    Keeps [.seals] s (settle s (execGsFeedB a0 a1 a2 s)) := by
  unfold execGsFeedB
  with_reducible repeat' first
    | assumption
    | exact Keeps.rfl
    | refine Keeps.ok ?_
    | apply Keeps.next ?_ (State.gsFeed_keeps _ _ _ _) ?_
    | decide
    | dsimp -zeta only

theorem execGsFeedH_keeps (a0 : Fin 8) (a1 : Bool) (a2 : BitVec 16) (s : State) :
    Keeps [.seals] s (settle s (execGsFeedH a0 a1 a2 s)) := by
  unfold execGsFeedH
  with_reducible repeat' first
    | assumption
    | exact Keeps.rfl
    | refine Keeps.ok ?_
    | apply Keeps.next ?_ (State.gsFeed_keeps _ _ _ _) ?_
    | decide
    | dsimp -zeta only

theorem execGsFeedW_keeps (a0 : Fin 8) (a1 : Bool) (a2 : Word32) (s : State) :
    Keeps [.seals] s (settle s (execGsFeedW a0 a1 a2 s)) := by
  unfold execGsFeedW
  with_reducible repeat' first
    | assumption
    | exact Keeps.rfl
    | refine Keeps.ok ?_
    | apply Keeps.next ?_ (State.gsFeed_keeps _ _ _ _) ?_
    | decide
    | dsimp -zeta only

theorem State.refusePower_keeps (s : State) :
    Keeps [.host, .recorder, .pwr] s (State.refusePower s) := by
  unfold State.refusePower
  with_reducible repeat' first
    | assumption
    | (extract_lets +onlyGivenNames z
       refine Keeps.let z ?_ ?_
       subst z
       rotate_left
       clear_value z
       revert z
       intro y hy
       rotate_left)
    | (extract_lets +onlyGivenNames z; revert z; intro y)
    | exact Keeps.rfl
    | apply Keeps.next ?_ (State.pwrEvt_keeps _ _) ?_
    | refine Keeps.upd ?_ List.prefix_rfl (Nat.le_refl _) id (fun p hp => by cases p <;> first | rfl | exact absurd (by decide) hp)
    | decide
    | dsimp -zeta only

theorem State.acceptDown_keeps (s : State) (a1 : Nat) (a2 : Nat) :
    Keeps [.staged, .settingsMram, .hop, .progs, .forces, .image, .turn, .skein, .tasks, .loops, .trace, .ring, .time, .ply, .rows, .brake, .host, .mill, .seals, .recorder, .fw, .pwr, .mem, .caps] s (State.acceptDown s a1 a2) := by
  unfold State.acceptDown
  with_reducible repeat' first
    | assumption
    | (extract_lets +onlyGivenNames z
       refine Keeps.let z ?_ ?_
       subst z
       rotate_left
       clear_value z
       revert z
       intro y hy
       rotate_left)
    | (extract_lets +onlyGivenNames z; revert z; intro y)
    | exact Keeps.rfl
    | refine Keeps.ite ?_ ?_
    | apply Keeps.next ?_ (State.carryOut_keeps _) ?_
    | apply Keeps.next ?_ (State.sendOrder_keeps _ _ _ _ _) ?_
    | apply Keeps.next ?_ (State.refusePower_keeps _) ?_
    | refine Keeps.upd ?_ List.prefix_rfl (Nat.le_refl _) id (fun p hp => by cases p <;> first | rfl | exact absurd (by decide) hp)
    | decide
    | dsimp -zeta only

theorem State.requestRung_keeps (s : State) (a1 : Nat) :
    Keeps [.staged, .settingsMram, .hop, .progs, .forces, .image, .turn, .skein, .tasks, .loops, .trace, .ring, .time, .ply, .rows, .brake, .host, .mill, .seals, .recorder, .fw, .pwr, .mem, .caps] s (State.requestRung s a1) := by
  unfold State.requestRung
  with_reducible repeat' first
    | assumption
    | (extract_lets +onlyGivenNames z; revert z; intro y)
    | exact Keeps.rfl
    | refine Keeps.ite ?_ ?_
    | apply Keeps.next ?_ (State.refusePower_keeps _) ?_
    | apply Keeps.next ?_ (State.wakeTo_keeps _ _ _) ?_
    | apply Keeps.next ?_ (State.startRung_keeps _ _) ?_
    | apply Keeps.next ?_ (State.acceptDown_keeps _ _ _) ?_
    | decide
    | dsimp -zeta only

theorem execPwrReqGo_keeps (a0 : Word32) (s : State) :
    Keeps [.staged, .settingsMram, .hop, .progs, .forces, .image, .turn, .skein, .tasks, .loops, .trace, .ring, .time, .ply, .rows, .brake, .host, .mill, .seals, .recorder, .fw, .pwr, .mem, .caps] s (settle s (execPwrReqGo a0 s)) := by
  unfold execPwrReqGo
  with_reducible repeat' first
    | assumption
    | (extract_lets +onlyGivenNames z; revert z; intro y)
    | exact Keeps.rfl
    | refine Keeps.iteO ?_ ?_
    | refine Keeps.ite ?_ ?_
    | refine Keeps.ok ?_
    | apply Keeps.next ?_ (State.requestRung_keeps _ _) ?_
    | refine Keeps.upd ?_ List.prefix_rfl (Nat.le_refl _) id (fun p hp => by cases p <;> first | rfl | exact absurd (by decide) hp)
    | decide
    | dsimp -zeta only

theorem State.endMove_keeps (s : State) :
    Keeps [.staged, .settingsMram, .hop, .progs, .forces, .image, .turn, .skein, .tasks, .loops, .trace, .ring, .time, .ply, .rows, .brake, .host, .mill, .seals, .recorder, .fw, .pwr, .mem, .caps] s (State.endMove s) := by
  unfold State.endMove
  with_reducible repeat' first
    | assumption
    | (extract_lets +onlyGivenNames z
       refine Keeps.let z ?_ ?_
       subst z
       rotate_left
       clear_value z
       revert z
       intro y hy
       rotate_left)
    | (extract_lets +onlyGivenNames z; revert z; intro y)
    | exact Keeps.rfl
    | refine Keeps.ite ?_ ?_
    | apply Keeps.next ?_ (State.pwrEvt_keeps _ _) ?_
    | apply Keeps.next ?_ (State.wr_keeps _ _ _) ?_
    | apply Keeps.next ?_ (State.wakeTo_keeps _ _ _) ?_
    | apply Keeps.next ?_ (State.requestRung_keeps _ _) ?_
    | split
    | refine Keeps.upd ?_ List.prefix_rfl (Nat.le_refl _) id (fun p hp => by cases p <;> first | rfl | exact absurd (by decide) hp)
    | decide
    | dsimp -zeta only

theorem State.atRung_keeps (s : State) (a1 : Nat) :
    Keeps [.staged, .settingsMram, .hop, .progs, .forces, .image, .turn, .skein, .tasks, .loops, .trace, .ring, .time, .ply, .rows, .brake, .host, .mill, .seals, .recorder, .fw, .pwr, .mem, .caps] s (State.atRung s a1) := by
  unfold State.atRung
  with_reducible repeat' first
    | assumption
    | (extract_lets +onlyGivenNames z
       refine Keeps.let z ?_ ?_
       subst z
       rotate_left
       clear_value z
       revert z
       intro y hy
       rotate_left)
    | exact Keeps.rfl
    | refine Keeps.ite ?_ ?_
    | apply Keeps.next ?_ (State.wr_keeps _ _ _) ?_
    | apply Keeps.next ?_ (State.endMove_keeps _) ?_
    | decide
    | dsimp -zeta only

theorem State.stepDown_keeps (s : State) (a1 : Nat) :
    Keeps [.staged, .settingsMram, .hop, .progs, .forces, .image, .turn, .skein, .retained, .tasks, .loops, .trace, .ring, .time, .ply, .rows, .brake, .host, .mill, .seals, .recorder, .fw, .pwr, .mem, .caps] s (State.stepDown s a1) := by
  unfold State.stepDown
  with_reducible repeat' first
    | assumption
    | (extract_lets +onlyGivenNames z
       refine Keeps.let z ?_ ?_
       subst z
       rotate_left
       clear_value z
       revert z
       intro y hy
       rotate_left)
    | exact Keeps.rfl
    | refine Keeps.ite ?_ ?_
    | apply Keeps.next ?_ (State.quitRole_keeps _ _) ?_
    | apply Keeps.next ?_ (State.closeBypass_keeps _) ?_
    | apply Keeps.next ?_ (State.turnOffTo_keeps _ _) ?_
    | apply Keeps.next ?_ (State.startFlush_keeps _) ?_
    | apply Keeps.next ?_ (State.atRung_keeps _ _) ?_
    | decide
    | dsimp -zeta only

theorem State.stepUp_keeps (s : State) (a1 : Nat) :
    Keeps [.settings, .staged, .settingsMram, .hop, .programs, .progs, .forces, .image, .turnNumber, .turn, .skein, .tasks, .loops, .trace, .ring, .time, .ply, .rows, .brake, .host, .mill, .seals, .recorder, .fw, .pwr, .mem, .caps] s (State.stepUp s a1) := by
  unfold State.stepUp
  with_reducible repeat' first
    | assumption
    | (extract_lets +onlyGivenNames z
       refine Keeps.let z ?_ ?_
       subst z
       rotate_left
       clear_value z
       revert z
       intro y hy
       rotate_left)
    | exact Keeps.rfl
    | refine Keeps.ite ?_ ?_
    | apply Keeps.next ?_ (State.turnOnTo_keeps _ _) ?_
    | apply Keeps.next ?_ (State.enterRecovery_keeps _) ?_
    | apply Keeps.next ?_ (State.atRung_keeps _ _) ?_
    | decide
    | dsimp -zeta only

theorem execRungStepDone_keeps (s : State) :
    Keeps [.settings, .staged, .settingsMram, .hop, .programs, .progs, .forces, .image, .turnNumber, .turn, .skein, .retained, .tasks, .loops, .trace, .ring, .time, .ply, .rows, .brake, .host, .mill, .seals, .recorder, .fw, .pwr, .mem, .caps] s (settle s (execRungStepDone s)) := by
  unfold execRungStepDone
  with_reducible repeat' first
    | assumption
    | (extract_lets +onlyGivenNames z; revert z; intro y)
    | exact Keeps.rfl
    | refine Keeps.iteO ?_ ?_
    | refine Keeps.ite ?_ ?_
    | refine Keeps.ok ?_
    | apply Keeps.next ?_ (State.stepDown_keeps _ _) ?_
    | apply Keeps.next ?_ (State.stepUp_keeps _ _) ?_
    | apply Keeps.next ?_ (State.endMove_keeps _) ?_
    | decide
    | dsimp -zeta only

theorem execServiceButtonPress_keeps (s : State) :
    Keeps [.host, .recorder, .pwr] s (settle s (execServiceButtonPress s)) := by
  unfold execServiceButtonPress
  with_reducible repeat' first
    | assumption
    | exact Keeps.rfl
    | refine Keeps.ok ?_
    | apply Keeps.next ?_ (State.wake_keeps _ _) ?_
    | decide
    | dsimp -zeta only

theorem execKeepAlarmFire_keeps (s : State) :
    Keeps [.host, .recorder, .pwr] s (settle s (execKeepAlarmFire s)) := by
  unfold execKeepAlarmFire
  with_reducible repeat' first
    | assumption
    | exact Keeps.rfl
    | refine Keeps.iteO ?_ ?_
    | refine Keeps.ite ?_ ?_
    | refine Keeps.ok ?_
    | apply Keeps.next ?_ (State.wake_keeps _ _) ?_
    | decide
    | dsimp -zeta only

theorem execPartnerSilentWake_keeps (s : State) :
    Keeps [.host, .recorder, .pwr] s (settle s (execPartnerSilentWake s)) := by
  unfold execPartnerSilentWake
  with_reducible repeat' first
    | assumption
    | exact Keeps.rfl
    | refine Keeps.ok ?_
    | apply Keeps.next ?_ (State.wake_keeps _ _) ?_
    | apply Keeps.next ?_ (State.wr_keeps _ _ _) ?_
    | decide
    | dsimp -zeta only

theorem execPwrResetWarm_keeps (s : State) :
    Keeps [.staged, .settingsMram, .hop, .progs, .forces, .image, .turn, .skein, .tasks, .loops, .trace, .ring, .time, .ply, .rows, .brake, .host, .mill, .seals, .recorder, .fw, .pwr, .mem, .caps] s (settle s (execPwrResetWarm s)) := by
  unfold execPwrResetWarm
  with_reducible repeat' first
    | assumption
    | exact Keeps.rfl
    | refine Keeps.iteO ?_ ?_
    | refine Keeps.ite ?_ ?_
    | refine Keeps.ok ?_
    | apply Keeps.next ?_ (State.acceptDown_keeps _ _ _) ?_
    | decide
    | dsimp -zeta only

theorem execPwrResetCold_keeps (s : State) :
    Keeps [.staged, .settingsMram, .hop, .progs, .forces, .image, .turn, .skein, .tasks, .loops, .trace, .ring, .time, .ply, .rows, .brake, .host, .mill, .seals, .recorder, .fw, .pwr, .mem, .caps] s (settle s (execPwrResetCold s)) := by
  unfold execPwrResetCold
  with_reducible repeat' first
    | assumption
    | exact Keeps.rfl
    | refine Keeps.iteO ?_ ?_
    | refine Keeps.ite ?_ ?_
    | refine Keeps.ok ?_
    | apply Keeps.next ?_ (State.acceptDown_keeps _ _ _) ?_
    | decide
    | dsimp -zeta only

theorem execPwrResetPartner_keeps (s : State) :
    Keeps [.ply, .host, .recorder] s (settle s (execPwrResetPartner s)) := by
  unfold execPwrResetPartner
  with_reducible repeat' first
    | assumption
    | (extract_lets +onlyGivenNames z; revert z; intro y)
    | exact Keeps.rfl
    | refine Keeps.iteO ?_ ?_
    | refine Keeps.ite ?_ ?_
    | refine Keeps.ok ?_
    | apply Keeps.next ?_ (State.sendState_keeps _ _ _ _ _) ?_
    | apply Keeps.next ?_ (State.pwrEvt_keeps _ _) ?_
    | decide
    | dsimp -zeta only

theorem execWarmReset_keeps (s : State) :
    Keeps [.settings, .staged, .settingsMram, .hop, .progs, .forces, .image, .turnNumber, .turn, .skein, .tasks, .loops, .trace, .ring, .time, .ply, .rows, .brake, .host, .mill, .seals, .recorder, .fw, .pwr, .mem, .caps] s (settle s (execWarmReset s)) := by
  unfold execWarmReset
  with_reducible repeat' first
    | assumption
    | exact Keeps.rfl
    | refine Keeps.iteO ?_ ?_
    | refine Keeps.ite ?_ ?_
    | refine Keeps.ok ?_
    | apply Keeps.next ?_ (State.warmReset_keeps _ _) ?_
    | decide
    | dsimp -zeta only

theorem execPartnerOrderedReset_keeps (s : State) :
    Keeps [.settings, .staged, .settingsMram, .hop, .progs, .forces, .image, .turnNumber, .turn, .skein, .tasks, .loops, .trace, .ring, .time, .ply, .rows, .brake, .host, .mill, .seals, .recorder, .fw, .pwr, .mem, .caps] s (settle s (execPartnerOrderedReset s)) := by
  unfold execPartnerOrderedReset
  with_reducible repeat' first
    | assumption
    | (extract_lets +onlyGivenNames z; revert z; intro y)
    | exact Keeps.rfl
    | refine Keeps.iteO ?_ ?_
    | refine Keeps.ite ?_ ?_
    | refine Keeps.ok ?_
    | apply Keeps.next ?_ (State.warmReset_keeps _ _) ?_
    | refine Keeps.upd ?_ List.prefix_rfl (Nat.le_refl _) id (fun p hp => by cases p <;> first | rfl | exact absurd (by decide) hp)
    | decide
    | dsimp -zeta only

theorem execAutoRestart_keeps (s : State) :
    Keeps [.settings, .staged, .settingsMram, .hop, .progs, .forces, .image, .turnNumber, .turn, .skein, .tasks, .loops, .trace, .ring, .time, .ply, .rows, .brake, .host, .mill, .seals, .recorder, .fw, .pwr, .mem, .caps] s (settle s (execAutoRestart s)) := by
  unfold execAutoRestart
  with_reducible repeat' first
    | assumption
    | (extract_lets +onlyGivenNames z
       refine Keeps.let z ?_ ?_
       subst z
       rotate_left
       clear_value z
       revert z
       intro y hy
       rotate_left)
    | (extract_lets +onlyGivenNames z; revert z; intro y)
    | exact Keeps.rfl
    | refine Keeps.iteO ?_ ?_
    | refine Keeps.ite ?_ ?_
    | refine Keeps.ok ?_
    | apply Keeps.next ?_ (State.warmReset_keeps _ _) ?_
    | refine Keeps.upd ?_ List.prefix_rfl (Nat.le_refl _) id (fun p hp => by cases p <;> first | rfl | exact absurd (by decide) hp)
    | decide
    | dsimp -zeta only

theorem State.finishShedding_keeps (s : State) :
    Keeps [.retained, .tasks, .host, .log, .recorder, .pwr] s (State.finishShedding s) := by
  unfold State.finishShedding
  with_reducible repeat' first
    | assumption
    | (extract_lets +onlyGivenNames z
       refine Keeps.let z ?_ ?_
       subst z
       rotate_left
       clear_value z
       revert z
       intro y hy
       rotate_left)
    | (extract_lets +onlyGivenNames z; revert z; intro y)
    | exact Keeps.rfl
    | refine Keeps.ite ?_ ?_
    | apply Keeps.next ?_ (State.writeQueued_keeps _ _) ?_
    | split
    | refine Keeps.upd ?_ List.prefix_rfl (Nat.le_refl _) id (fun p hp => by cases p <;> first | rfl | exact absurd (by decide) hp)
    | decide
    | dsimp -zeta only

theorem execInputGood_keeps (a0 : BitVec 8) (a1 : Bool) (a2 : Bool) (s : State) :
    Keeps [.settings, .staged, .settingsMram, .hop, .programs, .progs, .forces, .image, .turnNumber, .turn, .skein, .retained, .tasks, .loops, .trace, .ring, .time, .ply, .rows, .brake, .host, .mill, .seals, .log, .recorder, .fw, .pwr, .mem, .caps] s (settle s (execInputGood a0 a1 a2 s)) := by
  unfold execInputGood
  with_reducible repeat' first
    | assumption
    | (extract_lets +onlyGivenNames z
       refine Keeps.let z ?_ ?_
       subst z
       rotate_left
       clear_value z
       revert z
       intro y hy
       rotate_left)
    | (extract_lets +onlyGivenNames z
       refine Keeps.let1 z ?_ ?_
       subst z
       rotate_left
       clear_value z
       revert z
       rintro ⟨y, y1⟩ hy
       rotate_left)
    | exact Keeps.rfl
    | refine Keeps.iteO ?_ ?_
    | refine Keeps.ite ?_ ?_
    | refine Keeps.ok ?_
    | refine Keeps.ite1 ?_ ?_
    | (rename (_ : State × _) = _ => heq
       refine Keeps.pair heq ?_ ?_ <;> clear heq
       rotate_left
       intro hy
       rotate_left)
    | apply Keeps.next ?_ (State.free_keeps _) ?_
    | apply Keeps.next ?_ (State.readStraps_keeps _ _) ?_
    | apply Keeps.next ?_ (State.turnOffTo_keeps _ _) ?_
    | apply Keeps.next ?_ (State.finishShedding_keeps _) ?_
    | apply Keeps.next ?_ (State.coldStart_keeps _ _ _ _) ?_
    | apply Keeps.next ?_ (State.wr_keeps _ _ _) ?_
    | decide
    | dsimp -zeta only

theorem execCommandedColdStart_keeps (s : State) :
    Keeps [.settings, .staged, .settingsMram, .hop, .programs, .progs, .forces, .image, .turnNumber, .turn, .skein, .tasks, .loops, .trace, .ring, .time, .ply, .rows, .brake, .host, .mill, .seals, .recorder, .fw, .pwr, .mem, .caps] s (settle s (execCommandedColdStart s)) := by
  unfold execCommandedColdStart
  with_reducible repeat' first
    | assumption
    | exact Keeps.rfl
    | refine Keeps.iteO ?_ ?_
    | refine Keeps.ite ?_ ?_
    | refine Keeps.ok ?_
    | apply Keeps.next ?_ (State.coldStart_keeps _ _ _ _) ?_
    | decide
    | dsimp -zeta only

theorem execHoldupCharged_keeps (s : State) :
    Keeps [.pwr] s (settle s (execHoldupCharged s)) := by
  unfold execHoldupCharged
  with_reducible repeat' first
    | assumption
    | (extract_lets +onlyGivenNames z
       refine Keeps.let z ?_ ?_
       subst z
       rotate_left
       clear_value z
       revert z
       intro y hy
       rotate_left)
    | (extract_lets +onlyGivenNames z; revert z; intro y)
    | exact Keeps.rfl
    | refine Keeps.iteO ?_ ?_
    | refine Keeps.ite ?_ ?_
    | refine Keeps.ok ?_
    | apply Keeps.next ?_ (State.wr_keeps _ _ _) ?_
    | apply Keeps.next ?_ (State.startRung_keeps _ _) ?_
    | split
    | refine Keeps.upd ?_ List.prefix_rfl (Nat.le_refl _) id (fun p hp => by cases p <;> first | rfl | exact absurd (by decide) hp)
    | decide
    | dsimp -zeta only

theorem execHoldupTimeout_keeps (s : State) :
    Keeps [.staged, .settingsMram, .hop, .progs, .forces, .image, .turn, .skein, .tasks, .loops, .trace, .ring, .time, .ply, .rows, .brake, .host, .mill, .seals, .recorder, .fw, .pwr, .mem, .caps] s (settle s (execHoldupTimeout s)) := by
  unfold execHoldupTimeout
  with_reducible repeat' first
    | assumption
    | (extract_lets +onlyGivenNames z
       refine Keeps.let z ?_ ?_
       subst z
       rotate_left
       clear_value z
       revert z
       intro y hy
       rotate_left)
    | (extract_lets +onlyGivenNames z; revert z; intro y)
    | exact Keeps.rfl
    | refine Keeps.iteO ?_ ?_
    | refine Keeps.ite ?_ ?_
    | refine Keeps.ok ?_
    | apply Keeps.next ?_ (State.pwrEvt_keeps _ _) ?_
    | apply Keeps.next ?_ (State.endMove_keeps _) ?_
    | apply Keeps.next ?_ (State.wr_keeps _ _ _) ?_
    | refine Keeps.upd ?_ List.prefix_rfl (Nat.le_refl _) id (fun p hp => by cases p <;> first | rfl | exact absurd (by decide) hp)
    | decide
    | dsimp -zeta only

theorem execHoldupLow_keeps (s : State) :
    Keeps [.host, .recorder] s (settle s (execHoldupLow s)) := by
  unfold execHoldupLow
  with_reducible repeat' first
    | assumption
    | exact Keeps.rfl
    | refine Keeps.ok ?_
    | apply Keeps.next ?_ (State.pwrEvt_keeps _ _) ?_
    | apply Keeps.next ?_ (State.wr_keeps _ _ _) ?_
    | decide
    | dsimp -zeta only

theorem execCellLow_keeps (s : State) :
    Keeps [.host, .recorder] s (settle s (execCellLow s)) := by
  unfold execCellLow
  with_reducible repeat' first
    | assumption
    | (extract_lets +onlyGivenNames z
       refine Keeps.let1 z ?_ ?_
       subst z
       rotate_left
       clear_value z
       revert z
       rintro ⟨y, y1⟩ hy
       rotate_left)
    | exact Keeps.rfl
    | refine Keeps.ok ?_
    | (rename (_ : State × _) = _ => heq
       refine Keeps.pair heq ?_ ?_ <;> clear heq
       rotate_left
       intro hy
       rotate_left)
    | apply Keeps.next ?_ (State.free_keeps _) ?_
    | apply Keeps.next ?_ (State.pwrEvt_keeps _ _) ?_
    | apply Keeps.next ?_ (State.wr_keeps _ _ _) ?_
    | decide
    | dsimp -zeta only

end Sys2Proof.Machine
end

