-- ==== Sys2Proof/Laws/KeepsAccess.lean ====
section
/-! SUPPORT. What each operation and each meaning of the service port, register access, the debug port, orders and the join leaves alone. -/

namespace Sys2Proof.Machine

set_option linter.all false

theorem State.respond_keeps (s : State) (a1 : HyicaReq) (a2 : Nat) (a3 : Nat) (a4 : Nat) (a5 : Bytes) :
    Keeps [] s (State.respond s a1 a2 a3 a4 a5) := by
  unfold State.respond
  with_reducible repeat' first
    | assumption
    | exact Keeps.rfl
    | apply Keeps.next ?_ (State.emit_keeps _ _) ?_
    | decide
    | dsimp -zeta only

theorem State.respondKept_keeps (s : State) (a1 : HyicaReq) (a2 : Nat) (a3 : Nat) (a4 : Nat) (a5 : Bytes) :
    Keeps [.fw] s (State.respondKept s a1 a2 a3 a4 a5) := by
  unfold State.respondKept
  with_reducible repeat' first
    | assumption
    | (extract_lets +onlyGivenNames z
       refine Keeps.let z ?_ ?_
       subst z
       rotate_left
       clear_value z
       revert z
       intro y hy
       rotate_left)
    | (extract_lets +onlyGivenNames z; revert z; intro y)
    | exact Keeps.rfl
    | apply Keeps.next ?_ (State.respond_keeps _ _ _ _ _ _) ?_
    | refine Keeps.upd ?_ List.prefix_rfl (Nat.le_refl _) id (fun p hp => by cases p <;> first | rfl | exact absurd (by decide) hp)
    | decide
    | dsimp -zeta only

theorem State.inSession_keeps {A : List Part} {s0 s : State} {q : HyicaReq} {op : Nat}
    {act : State → State × Nat × Bytes} (hA : ∀ p ∈ [Part.fw], p ∈ A) (h : Keeps A s0 s)
    (hf : ∀ y, Keeps A s0 y → Keeps A s0 (act y).1) : Keeps A s0 (s.inSession q op act) := by
  have hr : ∀ y c n st b, Keeps A s0 y → Keeps A s0 (State.respond y q c n st b) := fun y c n st b hy =>
    hy.next (State.respond_keeps _ _ _ _ _ _) (fun p hp => hA p (by revert hp; revert p; decide))
  have hk : ∀ y c n st b, Keeps A s0 y → Keeps A s0 (State.respondKept y q c n st b) := fun y c n st b hy =>
    hy.next (State.respondKept_keeps _ _ _ _ _ _) (fun p hp => hA p (by revert hp; revert p; decide))
  unfold State.inSession
  dsimp only
  repeat' split
  · exact h
  · exact h.next (State.emit_keeps _ _) (fun p hp => nomatch hp)
  · exact hr _ _ _ _ _ h
  · exact hr _ _ _ _ _ h
  · exact hk _ _ _ _ _ h
  · exact hk _ _ _ _ _ (hf _ h)


theorem State.anySession_keeps {A : List Part} {s0 s : State} {q : HyicaReq} {op : Nat}
    {act : State → State × Nat × Bytes} (hA : ∀ p ∈ [Part.fw], p ∈ A) (h : Keeps A s0 s)
    (hf : ∀ y, Keeps A s0 y → Keeps A s0 (act y).1) : Keeps A s0 (s.anySession q op act) := by
  have hr : ∀ y c n st b, Keeps A s0 y → Keeps A s0 (State.respond y q c n st b) := fun y c n st b hy =>
    hy.next (State.respond_keeps _ _ _ _ _ _) (fun p hp => hA p (by revert hp; revert p; decide))
  unfold State.anySession
  dsimp only
  repeat' split
  · exact State.inSession_keeps hA h hf
  · exact h
  · exact hr _ _ _ _ _ h
  · exact hr _ _ _ _ _ (hf _ h)


theorem plain_keeps {A : List Part} {s0 : State} {r : State × Nat} (h : Keeps A s0 r.1) : Keeps A s0 (plain r).1 := h


theorem emptyPayload_keeps {A : List Part} {s0 s : State} {q : HyicaReq} {act : State → State × Nat × Bytes}
    (h : Keeps A s0 s) (hf : ∀ y, Keeps A s0 y → Keeps A s0 (act y).1) : Keeps A s0 (emptyPayload q act s).1 := by
  unfold emptyPayload
  split
  · exact hf _ h
  · exact h


theorem tended_keeps {A : List Part} {s0 s : State} {act : State → State × Nat × Bytes}
    (hA : ∀ p ∈ [Part.fw], p ∈ A) (h : Keeps A s0 s) (hf : ∀ y, Keeps A s0 y → Keeps A s0 (act y).1) :
    Keeps A s0 (tended act s).1 := by
  unfold tended
  split
  · exact hf _ h
  · exact h.next (State.fwNote_keeps _ _) (fun p hp => hA p (by revert hp; revert p; decide))


theorem stopped_keeps {A : List Part} {s0 s : State} {act : State → State × Nat × Bytes}
    (hA : ∀ p ∈ [Part.fw], p ∈ A) (h : Keeps A s0 s) (hf : ∀ y, Keeps A s0 y → Keeps A s0 (act y).1) :
    Keeps A s0 (stopped act s).1 := by
  unfold stopped
  split
  · exact hf _ h
  · exact h.next (State.fwNote_keeps _ _) (fun p hp => hA p (by revert hp; revert p; decide))


theorem execHyHello_keeps (a0 : HyicaReq) (s : State) :
    Keeps [.fw] s (settle s (execHyHello a0 s)) := by
  unfold execHyHello
  with_reducible repeat' first
    | assumption
    | (extract_lets +onlyGivenNames z; revert z; intro y)
    | exact Keeps.rfl
    | refine Keeps.ok ?_
    | (rename (_ : State × _) = _ => heq
       refine Keeps.pair heq ?_ ?_ <;> clear heq
       rotate_left
       intro hy
       rotate_left)
    | apply State.anySession_keeps
    | apply emptyPayload_keeps
    | decide
    | intro y
    | dsimp -zeta only

theorem execHyOpen_keeps (a0 : HyicaReq) (s : State) :
    Keeps [.host, .recorder, .fw] s (settle s (execHyOpen a0 s)) := by
  unfold execHyOpen
  dsimp only
  repeat' (refine Keeps.iteO ?_ ?_)
  · exact Keeps.rfl
  · exact State.emit_keeps _ _ |>.next' (by decide)
  · exact State.respond_keeps _ _ _ _ _ _ |>.next' (by decide)
  · exact State.respond_keeps _ _ _ _ _ _ |>.next' (by decide)
  · refine Keeps.next ?_ (State.respondKept_keeps _ _ _ _ _ _) (by decide)
    refine Keeps.next ?_ (State.fwEvt_keeps _ _) (by decide)
    refine Keeps.next ?_ (State.wr_keeps _ _ _) (by decide)
    exact Keeps.upd (State.free_keeps s |>.next' (by decide)) List.prefix_rfl (Nat.le_refl _) id (fun p hp => by cases p <;> first | rfl | exact absurd (by decide) hp)

theorem State.endSession_keeps (s : State) :
    Keeps [.fw] s (State.endSession s) := by
  unfold State.endSession
  with_reducible repeat' first
    | assumption
    | (extract_lets +onlyGivenNames z
       refine Keeps.let z ?_ ?_
       subst z
       rotate_left
       clear_value z
       revert z
       intro y hy
       rotate_left)
    | (extract_lets +onlyGivenNames z; revert z; intro y)
    | exact Keeps.rfl
    | apply Keeps.next ?_ (State.wr_keeps _ _ _) ?_
    | refine Keeps.upd ?_ List.prefix_rfl (Nat.le_refl _) id (fun p hp => by cases p <;> first | rfl | exact absurd (by decide) hp)
    | decide
    | dsimp -zeta only

theorem execHyClose_keeps (a0 : HyicaReq) (s : State) :
    Keeps [.fw] s (settle s (execHyClose a0 s)) := by
  unfold execHyClose
  with_reducible repeat' first
    | assumption
    | exact Keeps.rfl
    | refine Keeps.ok ?_
    | (rename (_ : State × _) = _ => heq
       refine Keeps.pair heq ?_ ?_ <;> clear heq
       rotate_left
       intro hy
       rotate_left)
    | apply State.inSession_keeps
    | apply emptyPayload_keeps
    | apply Keeps.next ?_ (State.endSession_keeps _) ?_
    | decide
    | intro y
    | dsimp -zeta only

theorem execHyStatus_keeps (a0 : HyicaReq) (s : State) :
    Keeps [.fw] s (settle s (execHyStatus a0 s)) := by
  unfold execHyStatus
  with_reducible repeat' first
    | assumption
    | exact Keeps.rfl
    | refine Keeps.ok ?_
    | (rename (_ : State × _) = _ => heq
       refine Keeps.pair heq ?_ ?_ <;> clear heq
       rotate_left
       intro hy
       rotate_left)
    | apply State.anySession_keeps
    | apply emptyPayload_keeps
    | decide
    | intro y
    | dsimp -zeta only

theorem execHyManifest_keeps (a0 : HyicaReq) (s : State) :
    Keeps [.ply, .host, .recorder, .fw] s (settle s (execHyManifest a0 s)) := by
  unfold execHyManifest
  with_reducible repeat' first
    | assumption
    | exact Keeps.rfl
    | refine Keeps.iteO ?_ ?_
    | refine Keeps.ite ?_ ?_
    | refine Keeps.ok ?_
    | refine Keeps.ite1 ?_ ?_
    | (rename (_ : State × _) = _ => heq
       refine Keeps.pair heq ?_ ?_ <;> clear heq
       rotate_left
       intro hy
       rotate_left)
    | apply State.inSession_keeps
    | apply tended_keeps
    | apply plain_keeps
    | apply Keeps.next ?_ (State.fwNote_keeps _ _) ?_
    | apply Keeps.next ?_ (State.manifestPiece_keeps _ _ _ _) ?_
    | decide
    | intro y
    | dsimp -zeta only

theorem State.pieceOf_keeps {A : List Part} {s0 s : State} {q : HyicaReq} {f : Nat → Nat → Bytes → Bool → State × Nat}
    (hA : ∀ p ∈ [Part.fw], p ∈ A) (h : Keeps A s0 s) (hf : ∀ a b c d, Keeps A s0 (f a b c d).1) :
    Keeps A s0 (s.pieceOf q f).1 := by
  unfold State.pieceOf
  dsimp only
  split
  · exact h.next (State.fwNote_keeps _ _) (fun p hp => hA p (by revert hp; revert p; decide))
  · exact hf _ _ _ _


theorem execHyDelta_keeps (a0 : HyicaReq) (s : State) :
    Keeps [.ply, .host, .recorder, .fw] s (settle s (execHyDelta a0 s)) := by
  unfold execHyDelta
  with_reducible repeat' first
    | assumption
    | exact Keeps.rfl
    | refine Keeps.ok ?_
    | (rename (_ : State × _) = _ => heq
       refine Keeps.pair heq ?_ ?_ <;> clear heq
       rotate_left
       intro hy
       rotate_left)
    | apply State.inSession_keeps
    | apply tended_keeps
    | apply State.pieceOf_keeps
    | apply Keeps.next ?_ (State.deltaPiece_keeps _ _ _ _ _ _) ?_
    | decide
    | intro y
    | dsimp -zeta only

theorem execHyImage_keeps (a0 : HyicaReq) (s : State) :
    Keeps [.ply, .host, .recorder, .fw] s (settle s (execHyImage a0 s)) := by
  unfold execHyImage
  with_reducible repeat' first
    | assumption
    | exact Keeps.rfl
    | refine Keeps.ok ?_
    | (rename (_ : State × _) = _ => heq
       refine Keeps.pair heq ?_ ?_ <;> clear heq
       rotate_left
       intro hy
       rotate_left)
    | apply State.inSession_keeps
    | apply tended_keeps
    | apply State.pieceOf_keeps
    | apply Keeps.next ?_ (State.imagePiece_keeps _ _ _ _ _) ?_
    | decide
    | intro y
    | dsimp -zeta only

theorem execHyActivate_keeps (a0 : HyicaReq) (s : State) :
    Keeps [.ply, .fw] s (settle s (execHyActivate a0 s)) := by
  unfold execHyActivate
  with_reducible repeat' first
    | assumption
    | (extract_lets +onlyGivenNames z
       refine Keeps.let1 z ?_ ?_
       subst z
       rotate_left
       clear_value z
       revert z
       rintro ⟨y, y1⟩ hy
       rotate_left)
    | exact Keeps.rfl
    | refine Keeps.iteO ?_ ?_
    | refine Keeps.ite ?_ ?_
    | refine Keeps.ok ?_
    | refine Keeps.ite1 ?_ ?_
    | (rename (_ : State × _) = _ => heq
       refine Keeps.pair heq ?_ ?_ <;> clear heq
       rotate_left
       intro hy
       rotate_left)
    | apply State.inSession_keeps
    | apply tended_keeps
    | apply plain_keeps
    | apply Keeps.next ?_ (State.fwNote_keeps _ _) ?_
    | apply Keeps.next ?_ (State.activate_keeps _ _) ?_
    | decide
    | intro y
    | dsimp -zeta only

theorem execHyConfirm_keeps (a0 : HyicaReq) (s : State) :
    Keeps [.ply, .host, .recorder, .fw] s (settle s (execHyConfirm a0 s)) := by
  unfold execHyConfirm
  with_reducible repeat' first
    | assumption
    | exact Keeps.rfl
    | refine Keeps.ok ?_
    | (rename (_ : State × _) = _ => heq
       refine Keeps.pair heq ?_ ?_ <;> clear heq
       rotate_left
       intro hy
       rotate_left)
    | apply State.inSession_keeps
    | apply tended_keeps
    | apply emptyPayload_keeps
    | apply plain_keeps
    | apply Keeps.next ?_ (State.commandConfirm_keeps _) ?_
    | decide
    | intro y
    | dsimp -zeta only

theorem execHyRecover_keeps (a0 : HyicaReq) (s : State) :
    Keeps [.fw] s (settle s (execHyRecover a0 s)) := by
  unfold execHyRecover
  with_reducible repeat' first
    | assumption
    | (extract_lets +onlyGivenNames z
       refine Keeps.let z ?_ ?_
       subst z
       rotate_left
       clear_value z
       revert z
       intro y hy
       rotate_left)
    | (extract_lets +onlyGivenNames z; revert z; intro y)
    | exact Keeps.rfl
    | refine Keeps.ok ?_
    | (rename (_ : State × _) = _ => heq
       refine Keeps.pair heq ?_ ?_ <;> clear heq
       rotate_left
       intro hy
       rotate_left)
    | apply State.inSession_keeps
    | apply stopped_keeps
    | apply emptyPayload_keeps
    | apply Keeps.next ?_ (State.wr_keeps _ _ _) ?_
    | refine Keeps.upd ?_ List.prefix_rfl (Nat.le_refl _) id (fun p hp => by cases p <;> first | rfl | exact absurd (by decide) hp)
    | decide
    | intro y
    | dsimp -zeta only

theorem execRecoverReset_keeps (s : State) :
    Keeps [.settings, .staged, .settingsMram, .hop, .progs, .forces, .image, .turnNumber, .turn, .skein, .tasks, .loops, .trace, .ring, .time, .ply, .rows, .brake, .host, .mill, .seals, .recorder, .fw, .pwr, .mem, .caps] s (settle s (execRecoverReset s)) := by
  unfold execRecoverReset
  with_reducible repeat' first
    | assumption
    | exact Keeps.rfl
    | refine Keeps.iteO ?_ ?_
    | refine Keeps.ite ?_ ?_
    | refine Keeps.ok ?_
    | apply Keeps.next ?_ (State.warmReset_keeps _ _) ?_
    | decide
    | dsimp -zeta only

theorem State.eraseMram_keeps (s : State) :
    Keeps [.settingsMram, .hop, .retained, .tasks, .log, .recorder, .fwSlots, .fw] s (State.eraseMram s) := by
  unfold State.eraseMram
  with_reducible repeat' first
    | assumption
    | (extract_lets +onlyGivenNames z
       refine Keeps.let z ?_ ?_
       subst z
       rotate_left
       clear_value z
       revert z
       intro y hy
       rotate_left)
    | (extract_lets +onlyGivenNames z; revert z; intro y)
    | exact Keeps.rfl
    | apply Keeps.next ?_ (State.wr_keeps _ _ _) ?_
    | apply Keeps.next ?_ (State.hopState_keeps _) ?_
    | refine Keeps.upd ?_ List.prefix_rfl (Nat.le_refl _) id (fun p hp => by cases p <;> first | rfl | exact absurd (by decide) hp)
    | decide
    | dsimp -zeta only

theorem execHyRetire_keeps (a0 : HyicaReq) (s : State) :
    Keeps [.settingsMram, .hop, .retained, .tasks, .log, .recorder, .fwSlots, .fw] s (settle s (execHyRetire a0 s)) := by
  unfold execHyRetire
  with_reducible repeat' first
    | assumption
    | exact Keeps.rfl
    | refine Keeps.ok ?_
    | (rename (_ : State × _) = _ => heq
       refine Keeps.pair heq ?_ ?_ <;> clear heq
       rotate_left
       intro hy
       rotate_left)
    | apply State.inSession_keeps
    | apply stopped_keeps
    | apply emptyPayload_keeps
    | apply Keeps.next ?_ (State.wr_keeps _ _ _) ?_
    | apply Keeps.next ?_ (State.eraseMram_keeps _) ?_
    | decide
    | intro y
    | dsimp -zeta only

theorem execHyLogRead_keeps (a0 : HyicaReq) (s : State) :
    Keeps [.fw] s (settle s (execHyLogRead a0 s)) := by
  unfold execHyLogRead
  refine Keeps.ok (State.anySession_keeps (by decide) Keeps.rfl (fun y hy => ?_))
  dsimp only
  split <;> exact hy

theorem execHyicaSessionTimeout_keeps (s : State) :
    Keeps [.fw] s (settle s (execHyicaSessionTimeout s)) := by
  unfold execHyicaSessionTimeout
  refine Keeps.iteO ?_ Keeps.rfl
  have he := State.endSession_keeps s
  refine Keeps.upd (t := s.endSession) he List.prefix_rfl (Nat.le_refl _) id (fun p hp => ?_)
  cases p
  all_goals first | rfl | exact absurd (by decide) hp

theorem execRecoveryImageDone_keeps (s : State) :
    Keeps [.settings, .staged, .settingsMram, .hop, .programs, .progs, .forces, .image, .turnNumber, .turn, .skein, .tasks, .loops, .trace, .ring, .time, .ply, .rows, .brake, .host, .mill, .seals, .recorder, .fwSlots, .fw, .pwr, .mem, .caps] s (settle s (execRecoveryImageDone s)) := by
  unfold execRecoveryImageDone
  with_reducible repeat' first
    | assumption
    | (extract_lets +onlyGivenNames z
       refine Keeps.let z ?_ ?_
       subst z
       rotate_left
       clear_value z
       revert z
       intro y hy
       rotate_left)
    | (extract_lets +onlyGivenNames z
       refine Keeps.let1 z ?_ ?_
       subst z
       rotate_left
       clear_value z
       revert z
       rintro ⟨y, y1⟩ hy
       rotate_left)
    | (extract_lets +onlyGivenNames z; revert z; intro y)
    | exact Keeps.rfl
    | refine Keeps.iteO ?_ ?_
    | refine Keeps.ite ?_ ?_
    | refine Keeps.ok ?_
    | refine Keeps.ite1 ?_ ?_
    | (rename (_ : State × _) = _ => heq
       refine Keeps.pair heq ?_ ?_ <;> clear heq
       rotate_left
       intro hy
       rotate_left)
    | apply Keeps.next ?_ (State.storeBuild_keeps _ _) ?_
    | apply Keeps.next ?_ (State.wr_keeps _ _ _) ?_
    | apply Keeps.next ?_ (State.free_keeps _) ?_
    | apply Keeps.next ?_ (State.coldStart_keeps _ _ _ _) ?_
    | apply Keeps.next ?_ (State.powerOff_keeps _) ?_
    | split
    | refine Keeps.upd ?_ List.prefix_rfl (Nat.le_refl _) id (fun p hp => by cases p <;> first | rfl | exact absurd (by decide) hp)
    | decide
    | dsimp -zeta only

theorem execNeighborDiscovery_keeps (a0 : Bool) (a1 : Bool) (s : State) :
    Keeps [] s (settle s (execNeighborDiscovery a0 a1 s)) := by
  unfold execNeighborDiscovery
  with_reducible repeat' first
    | assumption
    | exact Keeps.rfl
    | refine Keeps.iteO ?_ ?_
    | refine Keeps.ite ?_ ?_
    | refine Keeps.ok ?_
    | apply Keeps.next ?_ (State.emit_keeps _ _) ?_
    | decide
    | dsimp -zeta only

theorem execSvcLinkChange_keeps (a0 : Fin 3) (s : State) :
    Keeps [] s (settle s (execSvcLinkChange a0 s)) := by
  unfold execSvcLinkChange
  with_reducible repeat' first
    | assumption
    | exact Keeps.rfl
    | refine Keeps.iteO ?_ ?_
    | refine Keeps.ite ?_ ?_
    | refine Keeps.ok ?_
    | apply Keeps.next ?_ (State.wr_keeps _ _ _) ?_
    | decide
    | dsimp -zeta only

theorem State.lockRegions_keeps (s : State) (a1 : Nat) (a2 : Nat) :
    Keeps [] s (State.lockRegions s a1 a2) := by
  unfold State.lockRegions
  with_reducible repeat' first
    | assumption
    | exact Keeps.rfl
    | refine Keeps.ite ?_ ?_
    | refine Keeps.foldl _ _ ?_ ?_
    | apply Keeps.next ?_ (State.wr_keeps _ _ _) ?_
    | decide
    | intro y
    | dsimp -zeta only

theorem execAcLockWrite_keeps (a0 : Fin 4) (a1 : Word32) (s : State) :
    Keeps [] s (settle s (execAcLockWrite a0 a1 s)) := by
  unfold execAcLockWrite
  with_reducible repeat' first
    | assumption
    | exact Keeps.rfl
    | refine Keeps.ok ?_
    | apply Keeps.next ?_ (State.lockRegions_keeps _ _ _) ?_
    | decide
    | dsimp -zeta only

theorem State.clearViolation_keeps (s : State) (a1 : Nat) :
    Keeps [] s (State.clearViolation s a1) := by
  unfold State.clearViolation
  with_reducible repeat' first
    | assumption
    | exact Keeps.rfl
    | refine Keeps.ite ?_ ?_
    | refine Keeps.foldl _ _ ?_ ?_
    | apply Keeps.next ?_ (State.wr_keeps _ _ _) ?_
    | decide
    | intro y
    | dsimp -zeta only

theorem execAcViolClear_keeps (a0 : Fin 4) (s : State) :
    Keeps [] s (settle s (execAcViolClear a0 s)) := by
  unfold execAcViolClear
  with_reducible repeat' first
    | assumption
    | exact Keeps.rfl
    | refine Keeps.ok ?_
    | apply Keeps.next ?_ (State.clearViolation_keeps _ _) ?_
    | decide
    | dsimp -zeta only

theorem State.writeField_keeps (a0 : Nat) (a1 : Nat) (s : State) (a3 : FieldRow) :
    Keeps [] s (State.writeField a0 a1 s a3) := by
  unfold State.writeField
  with_reducible repeat' first
    | assumption
    | (extract_lets +onlyGivenNames z; revert z; intro y)
    | exact Keeps.rfl
    | refine Keeps.ite ?_ ?_
    | apply Keeps.next ?_ (State.wr_keeps _ _ _) ?_
    | split
    | decide
    | dsimp -zeta only

theorem State.hostCtrlWritten_keeps (s : State) (a1 : Bool) :
    Keeps [.host] s (State.hostCtrlWritten s a1) := by
  unfold State.hostCtrlWritten
  with_reducible repeat' first
    | assumption
    | (extract_lets +onlyGivenNames z
       refine Keeps.let z ?_ ?_
       subst z
       rotate_left
       clear_value z
       revert z
       intro y hy
       rotate_left)
    | (extract_lets +onlyGivenNames z; revert z; intro y)
    | exact Keeps.rfl
    | refine Keeps.ite ?_ ?_
    | apply Keeps.next ?_ (State.hostState_keeps _) ?_
    | refine Keeps.upd ?_ List.prefix_rfl (Nat.le_refl _) id (fun p hp => by cases p <;> first | rfl | exact absurd (by decide) hp)
    | decide
    | dsimp -zeta only

theorem State.alarmWritten_keeps (s : State) (a1 : Nat) :
    Keeps [.time] s (State.alarmWritten s a1) := by
  unfold State.alarmWritten
  with_reducible repeat' first
    | assumption
    | (extract_lets +onlyGivenNames z
       refine Keeps.let z ?_ ?_
       subst z
       rotate_left
       clear_value z
       revert z
       intro y hy
       rotate_left)
    | (extract_lets +onlyGivenNames z; revert z; intro y)
    | exact Keeps.rfl
    | refine Keeps.ite ?_ ?_
    | apply Keeps.next ?_ (State.wrb_keeps _ _ _) ?_
    | refine Keeps.upd ?_ List.prefix_rfl (Nat.le_refl _) id (fun p hp => by cases p <;> first | rfl | exact absurd (by decide) hp)
    | decide
    | dsimp -zeta only

theorem State.addrWritten_keeps (s : State) (a1 : Nat) :
    Keeps [.host] s (State.addrWritten s a1) := by
  unfold State.addrWritten
  with_reducible repeat' first
    | assumption
    | (extract_lets +onlyGivenNames z; revert z; intro y)
    | exact Keeps.rfl
    | refine Keeps.upd ?_ List.prefix_rfl (Nat.le_refl _) id (fun p hp => by cases p <;> first | rfl | exact absurd (by decide) hp)
    | decide
    | dsimp -zeta only

theorem State.cmdBits_keeps {A : List Part} {s0 s : State} {v : Nat}
    {fs : List (State → Host.Outcome State Fault Refusal)} (h : Keeps A s0 s)
    (hf : ∀ f ∈ fs, ∀ y, Keeps A s0 y → Keeps A s0 (settle y (f y))) : Keeps A s0 (s.cmdBits v fs) := by
  have hz : ∀ (l : List ((State → Host.Outcome State Fault Refusal) × Nat)) (y : State), (∀ e ∈ l, e.1 ∈ fs) →
      Keeps A s0 y →
      Keeps A s0 (l.foldl (fun s e => if bitOf v e.2 then settle s (e.1 s) else s) y) := by
    intro l
    induction l with
    | nil => intro y _ hy; exact hy
    | cons e l ih =>
      intro y hl hy
      refine ih _ (fun e he => hl e (List.mem_cons_of_mem _ he)) ?_
      dsimp only
      split
      · exact hf _ (hl e List.mem_cons_self) _ hy
      · exact hy
  exact hz _ _ (fun e he => List.fst_mem_of_mem_zipIdx he) h


theorem State.writeLow_keeps (s : State) (a1 : Nat) (a2 : Nat) (a3 : Bool) :
    Keeps [.tasks, .ring, .time, .host, .recorder] s (State.writeLow s a1 a2 a3) := by
  unfold State.writeLow
  with_reducible repeat' first
    | assumption
    | (extract_lets +onlyGivenNames z; revert z; intro y)
    | exact Keeps.rfl
    | refine Keeps.ite ?_ ?_
    | apply Keeps.next ?_ (State.hostCtrlWritten_keeps _ _) ?_
    | apply Keeps.next ?_ (State.addrWritten_keeps _ _) ?_
    | apply Keeps.next ?_ (State.eventRingWrite_keeps _ _) ?_
    | apply Keeps.next ?_ (State.commandRingWrite_keeps _ _ _) ?_
    | apply Keeps.next ?_ (State.traceRingWrite_keeps _ _ _) ?_
    | apply Keeps.next ?_ (State.releaseMsix_keeps _ _) ?_
    | apply State.cmdBits_keeps
    | refine Keeps.allCons ?_ ?_
    | exact Keeps.allNil
    | apply Keeps.next ?_ (execSlackClearMin_keeps _) ?_
    | apply Keeps.next ?_ (execSlackClearSlips_keeps _) ?_
    | apply Keeps.next ?_ (execRetainFlushNow_keeps _) ?_
    | apply Keeps.next ?_ (execTimeSnap_keeps _) ?_
    | apply Keeps.next ?_ (execTimeRestart_keeps _ _) ?_
    | apply settle_keeps
    | apply Keeps.next ?_ (execIncWrite_keeps _ _ _) ?_
    | apply Keeps.next ?_ (execSlewTicksWrite_keeps _ _ _) ?_
    | apply Keeps.next ?_ (execLeapApply_keeps _) ?_
    | apply Keeps.next ?_ (State.alarmWritten_keeps _ _) ?_
    | decide
    | intro y
    | dsimp -zeta only

theorem State.writeSeal_keeps (s : State) (a1 : Nat) (a2 : Nat) :
    Keeps [.staged, .settingsMram, .hop, .progs, .forces, .image, .turn, .skein, .tasks, .loops, .trace, .ring, .time, .ply, .rows, .brake, .host, .mill, .seals, .recorder, .fw, .pwr, .mem, .caps] s (State.writeSeal s a1 a2) := by
  unfold State.writeSeal
  with_reducible repeat' first
    | assumption
    | (extract_lets +onlyGivenNames z; revert z; intro y)
    | exact Keeps.rfl
    | apply State.cmdBits_keeps
    | refine Keeps.allCons ?_ ?_
    | exact Keeps.allNil
    | apply settle_keeps
    | apply Keeps.next ?_ (execGsStart_keeps _ _ _) ?_
    | apply Keeps.next ?_ (execGsStop_keeps _ _ _) ?_
    | apply Keeps.next ?_ (execGsFeedB_keeps _ _ _ _) ?_
    | apply Keeps.next ?_ (execGsFeedH_keeps _ _ _ _) ?_
    | apply Keeps.next ?_ (execGsFeedW_keeps _ _ _ _) ?_
    | split
    | decide
    | intro y
    | dsimp -zeta only

theorem State.writeUnits_keeps (s : State) (a1 : Nat) (a2 : Nat) :
    Keeps [.staged, .settingsMram, .hop, .progs, .forces, .image, .turn, .skein, .tasks, .loops, .trace, .ring, .time, .ply, .rows, .brake, .host, .mill, .seals, .recorder, .fw, .pwr, .mem, .caps] s (State.writeUnits s a1 a2) := by
  unfold State.writeUnits
  with_reducible repeat' first
    | assumption
    | (extract_lets +onlyGivenNames z; revert z; intro y)
    | exact Keeps.rfl
    | refine Keeps.ite ?_ ?_
    | apply State.cmdBits_keeps
    | refine Keeps.allCons ?_ ?_
    | exact Keeps.allNil
    | apply settle_keeps
    | apply Keeps.next ?_ (execPlyCmdRejoin_keeps _) ?_
    | apply Keeps.next ?_ (execPlyCmdHandover_keeps _) ?_
    | apply Keeps.next ?_ (execPlyCmdLeave_keeps _) ?_
    | apply Keeps.next ?_ (execBrkClearWrite_keeps _ _) ?_
    | apply Keeps.next ?_ (execBrkSoftWrite_keeps _ _) ?_
    | apply Keeps.next ?_ (execBrkFirstClearWrite_keeps _ _) ?_
    | apply Keeps.next ?_ (execMbCmdRestart_keeps _ _) ?_
    | apply Keeps.next ?_ (execMbCmdUnmute_keeps _ _) ?_
    | apply Keeps.next ?_ (execMbCmdClearCnt_keeps _ _) ?_
    | apply Keeps.next ?_ (execMbRdSelWrite_keeps _ _ _) ?_
    | decide
    | intro y
    | dsimp -zeta only

theorem State.keepAlarmWritten_keeps (s : State) : Keeps [.pwr] s (State.keepAlarmWritten s) := by
  unfold State.keepAlarmWritten
  exact Keeps.rfl.upd List.prefix_rfl (Nat.le_refl _) id
    (fun p hp => by cases p <;> first | rfl | exact absurd (by decide) hp)

theorem State.writeLast_keeps (s : State) (a1 : Nat) (a2 : Nat) :
    Keeps [.staged, .settingsMram, .hop, .progs, .forces, .image, .turn, .skein, .tasks, .loops, .trace, .ring, .time, .ply, .rows, .brake, .host, .mill, .seals, .recorder, .fw, .pwr, .mem, .caps] s (State.writeLast s a1 a2) := by
  unfold State.writeLast
  with_reducible repeat' first
    | assumption
    | (extract_lets +onlyGivenNames z; revert z; intro y)
    | exact Keeps.rfl
    | refine Keeps.ite ?_ ?_
    | apply State.cmdBits_keeps
    | refine Keeps.allCons ?_ ?_
    | exact Keeps.allNil
    | apply settle_keeps
    | apply Keeps.next ?_ (State.lockRegions_keeps _ _ _) ?_
    | apply Keeps.next ?_ (State.clearViolation_keeps _ _) ?_
    | apply Keeps.next ?_ (execRecManual_keeps _) ?_
    | apply Keeps.next ?_ (execPwrReqGo_keeps _ _) ?_
    | apply Keeps.next ?_ (execPwrResetWarm_keeps _) ?_
    | apply Keeps.next ?_ (execPwrResetPartner_keeps _) ?_
    | apply Keeps.next ?_ (execPwrResetCold_keeps _) ?_
    | apply Keeps.next ?_ (State.keepAlarmWritten_keeps _) ?_
    | decide
    | intro y
    | dsimp -zeta only

theorem State.writeMid_keeps (s : State) (a1 : Nat) (a2 : Nat) :
    Keeps [.staged, .settingsMram, .hop, .progs, .forces, .image, .turn, .skein, .tasks, .loops, .trace, .ring, .time, .ply, .rows, .brake, .host, .mill, .seals, .recorder, .fw, .pwr, .mem, .caps] s (State.writeMid s a1 a2) := by
  unfold State.writeMid
  with_reducible repeat' first
    | assumption
    | exact Keeps.rfl
    | refine Keeps.ite ?_ ?_
    | apply Keeps.next ?_ (State.writeUnits_keeps _ _ _) ?_
    | apply Keeps.next ?_ (State.writeSeal_keeps _ _ _) ?_
    | apply Keeps.next ?_ (State.writeLast_keeps _ _ _) ?_
    | decide
    | dsimp -zeta only

theorem State.writeHigh_keeps (s : State) (a1 : Nat) (a2 : Nat) :
    Keeps [.trace] s (State.writeHigh s a1 a2) := by
  unfold State.writeHigh
  with_reducible repeat' first
    | assumption
    | (extract_lets +onlyGivenNames z; revert z; intro y)
    | exact Keeps.rfl
    | refine Keeps.ite ?_ ?_
    | apply settle_keeps
    | apply Keeps.next ?_ (execSkClearCnt_keeps _ _) ?_
    | apply State.cmdBits_keeps
    | refine Keeps.allCons ?_ ?_
    | exact Keeps.allNil
    | apply Keeps.next ?_ (execTraceArm_keeps _ _) ?_
    | apply Keeps.next ?_ (execTraceStop_keeps _ _) ?_
    | apply Keeps.next ?_ (execTraceForce_keeps _ _) ?_
    | decide
    | intro y
    | dsimp -zeta only

theorem State.regWrite_keeps (s : State) (a1 : Nat) (a2 : Nat) :
    Keeps [.staged, .settingsMram, .hop, .progs, .forces, .image, .turn, .skein, .tasks, .loops, .trace, .ring, .time, .ply, .rows, .brake, .host, .mill, .seals, .recorder, .fw, .pwr, .mem, .caps] s (State.regWrite s a1 a2) := by
  unfold State.regWrite
  with_reducible repeat' first
    | assumption
    | (extract_lets +onlyGivenNames z
       refine Keeps.let z ?_ ?_
       subst z
       rotate_left
       clear_value z
       revert z
       intro y hy
       rotate_left)
    | (extract_lets +onlyGivenNames z; revert z; intro y)
    | exact Keeps.rfl
    | refine Keeps.ite ?_ ?_
    | refine Keeps.foldl _ _ ?_ ?_
    | apply Keeps.next ?_ (State.stageBar0_keeps _ _ _) ?_
    | apply Keeps.next ?_ (State.writeField_keeps _ _ _ _) ?_
    | apply Keeps.next ?_ (State.writeLow_keeps _ _ _ _) ?_
    | apply Keeps.next ?_ (State.writeMid_keeps _ _ _) ?_
    | apply Keeps.next ?_ (State.writeHigh_keeps _ _ _) ?_
    | decide
    | intro y
    | dsimp -zeta only

theorem execBar0RegisterWrite_keeps (a0 : BitVec 20) (a1 : Word32) (a2 : Bool) (s : State) :
    Keeps [.staged, .settingsMram, .hop, .progs, .forces, .image, .turn, .skein, .tasks, .loops, .trace, .ring, .time, .ply, .rows, .brake, .host, .mill, .seals, .recorder, .fw, .pwr, .mem, .caps] s (settle s (execBar0RegisterWrite a0 a1 a2 s)) := by
  unfold execBar0RegisterWrite
  with_reducible repeat' first
    | assumption
    | (extract_lets +onlyGivenNames z; revert z; intro y)
    | exact Keeps.rfl
    | refine Keeps.iteO ?_ ?_
    | refine Keeps.ite ?_ ?_
    | refine Keeps.ok ?_
    | refine Keeps.ite1 ?_ ?_
    | (rename (_ : State × _) = _ => heq
       refine Keeps.pair heq ?_ ?_ <;> clear heq
       rotate_left
       intro hy
       rotate_left)
    | apply Keeps.next ?_ (State.wr_keeps _ _ _) ?_
    | apply Keeps.next ?_ (State.regWrite_keeps _ _ _) ?_
    | apply Keeps.next ?_ (State.acAccess_keeps _ _ _ _ _ _) ?_
    | split
    | decide
    | dsimp -zeta only

theorem State.mramRead_keeps (s : State) (a1 : Nat) (a2 : Nat) :
    Keeps [] s (State.mramRead s a1 a2).1 := by
  unfold State.mramRead
  with_reducible repeat' first
    | assumption
    | (extract_lets +onlyGivenNames z
       refine Keeps.let1 z ?_ ?_
       subst z
       rotate_left
       clear_value z
       revert z
       rintro ⟨y, y1⟩ hy
       rotate_left)
    | exact Keeps.rfl
    | (rename (_ : State × _) = _ => heq
       refine Keeps.pair heq ?_ ?_ <;> clear heq
       rotate_left
       intro hy
       rotate_left)
    | apply Keeps.next ?_ (State.free_keeps _) ?_
    | decide
    | dsimp -zeta only

theorem State.intRead_keeps (s : State) (a1 : Nat) (a2 : Nat) :
    Keeps [] s (State.intRead s a1 a2).1 := by
  unfold State.intRead
  with_reducible repeat' first
    | assumption
    | (extract_lets +onlyGivenNames z
       refine Keeps.let1 z ?_ ?_
       subst z
       rotate_left
       clear_value z
       revert z
       rintro ⟨y, y1⟩ hy
       rotate_left)
    | exact Keeps.rfl
    | (rename (_ : State × _) = _ => heq
       refine Keeps.pair heq ?_ ?_ <;> clear heq
       rotate_left
       intro hy
       rotate_left)
    | apply Keeps.next ?_ (State.mramRead_keeps _ _ _) ?_
    | split
    | decide
    | dsimp -zeta only

theorem State.traceEcc_keeps (s : State) (a1 : Nat) (a2 : Nat) :
    Keeps [] s (State.traceEcc s a1 a2) := by
  unfold State.traceEcc
  with_reducible repeat' first
    | assumption
    | (extract_lets +onlyGivenNames z; revert z; intro y)
    | exact Keeps.rfl
    | refine Keeps.ite ?_ ?_
    | refine Keeps.foldl _ _ ?_ ?_
    | apply Keeps.next ?_ (State.wr_keeps _ _ _) ?_
    | decide
    | intro y
    | dsimp -zeta only

theorem State.abort_keeps (s : State) :
    Keeps [] s (State.abort s) := by
  unfold State.abort
  with_reducible repeat' first
    | assumption
    | exact Keeps.rfl
    | apply Keeps.next ?_ (State.emit_keeps _ _) ?_
    | decide
    | dsimp -zeta only

theorem State.bar2Read_keeps (s : State) (a1 : Nat) (a2 : Nat) (a3 : Bool) :
    Keeps [] s (State.bar2Read s a1 a2 a3) := by
  unfold State.bar2Read
  with_reducible repeat' first
    | assumption
    | exact Keeps.rfl
    | refine Keeps.ite ?_ ?_
    | refine Keeps.ite1 ?_ ?_
    | (rename (_ : State × _) = _ => heq
       refine Keeps.pair heq ?_ ?_ <;> clear heq
       rotate_left
       intro hy
       rotate_left)
    | apply Keeps.next ?_ (State.abort_keeps _) ?_
    | apply Keeps.next ?_ (State.traceEcc_keeps _ _ _) ?_
    | apply Keeps.next ?_ (State.intRead_keeps _ _ _) ?_
    | apply Keeps.next ?_ (State.emit_keeps _ _) ?_
    | split
    | decide
    | dsimp -zeta only

theorem State.bar2Write_keeps (s : State) (a1 : Nat) (a2 : Bytes) :
    Keeps [.mem] s (State.bar2Write s a1 a2) := by
  unfold State.bar2Write
  with_reducible repeat' first
    | assumption
    | exact Keeps.rfl
    | apply Keeps.next ?_ (State.memWrite_keeps _ _ _) ?_
    | apply Keeps.next ?_ (State.wr_keeps _ _ _) ?_
    | split
    | decide
    | dsimp -zeta only

theorem execBar2Access_keeps (a0 : BitVec 28) (a1 : Fin 4097) (a2 : Option Bytes) (a3 : Bool) (s : State) :
    Keeps [.host, .recorder, .mem] s (settle s (execBar2Access a0 a1 a2 a3 s)) := by
  unfold execBar2Access
  with_reducible repeat' first
    | assumption
    | (extract_lets +onlyGivenNames z; revert z; intro y)
    | exact Keeps.rfl
    | refine Keeps.iteO ?_ ?_
    | refine Keeps.ite ?_ ?_
    | refine Keeps.ok ?_
    | refine Keeps.ite1 ?_ ?_
    | (rename (_ : State × _) = _ => heq
       refine Keeps.pair heq ?_ ?_ <;> clear heq
       rotate_left
       intro hy
       rotate_left)
    | apply Keeps.next ?_ (State.acAccess_keeps _ _ _ _ _ _) ?_
    | apply Keeps.next ?_ (State.abort_keeps _) ?_
    | apply Keeps.next ?_ (State.bar2Read_keeps _ _ _ _) ?_
    | apply Keeps.next ?_ (State.bar2Write_keeps _ _ _) ?_
    | split
    | decide
    | dsimp -zeta only

theorem State.shiftOut_keeps (s : State) (a1 : Nat) (a2 : Nat) :
    Keeps [.dbg] s (State.shiftOut s a1 a2) := by
  unfold State.shiftOut
  with_reducible repeat' first
    | assumption
    | (extract_lets +onlyGivenNames z
       refine Keeps.let z ?_ ?_
       subst z
       rotate_left
       clear_value z
       revert z
       intro y hy
       rotate_left)
    | (extract_lets +onlyGivenNames z; revert z; intro y)
    | exact Keeps.rfl
    | apply Keeps.next ?_ (State.emit_keeps _ _) ?_
    | refine Keeps.upd ?_ List.prefix_rfl (Nat.le_refl _) id (fun p hp => by cases p <;> first | rfl | exact absurd (by decide) hp)
    | decide
    | dsimp -zeta only

theorem execTrst_keeps (s : State) :
    Keeps [.dbg] s (settle s (execTrst s)) := by
  unfold execTrst
  with_reducible repeat' first
    | assumption
    | exact Keeps.rfl
    | refine Keeps.ok ?_
    | refine Keeps.upd ?_ List.prefix_rfl (Nat.le_refl _) id (fun p hp => by cases p <;> first | rfl | exact absurd (by decide) hp)
    | decide
    | dsimp -zeta only

theorem execBypass_keeps (s : State) :
    Keeps [.dbg] s (settle s (execBypass s)) := by
  unfold execBypass
  with_reducible repeat' first
    | assumption
    | exact Keeps.rfl
    | refine Keeps.ok ?_
    | apply Keeps.next ?_ (State.shiftOut_keeps _ _ _) ?_
    | decide
    | dsimp -zeta only

theorem execIdcode_keeps (s : State) :
    Keeps [.dbg] s (settle s (execIdcode s)) := by
  unfold execIdcode
  with_reducible repeat' first
    | assumption
    | exact Keeps.rfl
    | refine Keeps.ok ?_
    | apply Keeps.next ?_ (State.shiftOut_keeps _ _ _) ?_
    | decide
    | dsimp -zeta only

theorem execSamplePreload_keeps (a0 : List Bool) (s : State) :
    Keeps [.dbg] s (settle s (execSamplePreload a0 s)) := by
  unfold execSamplePreload
  refine Keeps.ok (Keeps.next ?_ (State.shiftOut_keeps _ _ _) (by decide))
  exact Keeps.upd Keeps.rfl List.prefix_rfl (Nat.le_succ _) id (fun p hp => by cases p <;> first | rfl | exact absurd (by decide) hp)

theorem State.refuseTest_keeps (s : State) :
    Keeps [.dbg] s (State.refuseTest s) := by
  unfold State.refuseTest
  with_reducible repeat' first
    | assumption
    | (extract_lets +onlyGivenNames z
       refine Keeps.let z ?_ ?_
       subst z
       rotate_left
       clear_value z
       revert z
       intro y hy
       rotate_left)
    | (extract_lets +onlyGivenNames z; revert z; intro y)
    | exact Keeps.rfl
    | apply Keeps.next ?_ (State.shiftOut_keeps _ _ _) ?_
    | refine Keeps.upd ?_ List.prefix_rfl (Nat.le_refl _) id (fun p hp => by cases p <;> first | rfl | exact absurd (by decide) hp)
    | decide
    | dsimp -zeta only

theorem execExtest_keeps (a0 : List Bool) (s : State) :
    Keeps [.dbg] s (settle s (execExtest a0 s)) := by
  unfold execExtest
  refine Keeps.iteO (Keeps.ok (State.refuseTest_keeps _ |>.next' (by decide))) ?_
  refine Keeps.ok (Keeps.upd ?_ List.prefix_rfl (Nat.le_refl _) id (fun p hp => by cases p <;> first | rfl | exact absurd (by decide) hp))
  refine Keeps.next ?_ (State.shiftOut_keeps _ _ _) (by decide)
  exact Keeps.upd Keeps.rfl List.prefix_rfl (Nat.le_succ _) id (fun p hp => by cases p <;> first | rfl | exact absurd (by decide) hp)

theorem execClamp_keeps (s : State) :
    Keeps [.dbg] s (settle s (execClamp s)) := by
  unfold execClamp
  with_reducible repeat' first
    | assumption
    | (extract_lets +onlyGivenNames z
       refine Keeps.let z ?_ ?_
       subst z
       rotate_left
       clear_value z
       revert z
       intro y hy
       rotate_left)
    | (extract_lets +onlyGivenNames z; revert z; intro y)
    | exact Keeps.rfl
    | refine Keeps.iteO ?_ ?_
    | refine Keeps.ite ?_ ?_
    | refine Keeps.ok ?_
    | apply Keeps.next ?_ (State.refuseTest_keeps _) ?_
    | apply Keeps.next ?_ (State.shiftOut_keeps _ _ _) ?_
    | refine Keeps.upd ?_ List.prefix_rfl (Nat.le_refl _) id (fun p hp => by cases p <;> first | rfl | exact absurd (by decide) hp)
    | decide
    | dsimp -zeta only

theorem execDbgAddr_keeps (a0 : BitVec 40) (s : State) :
    Keeps [.dbg] s (settle s (execDbgAddr a0 s)) := by
  unfold execDbgAddr
  with_reducible repeat' first
    | assumption
    | (extract_lets +onlyGivenNames z
       refine Keeps.let z ?_ ?_
       subst z
       rotate_left
       clear_value z
       revert z
       intro y hy
       rotate_left)
    | (extract_lets +onlyGivenNames z; revert z; intro y)
    | exact Keeps.rfl
    | refine Keeps.ok ?_
    | apply Keeps.next ?_ (State.shiftOut_keeps _ _ _) ?_
    | refine Keeps.upd ?_ List.prefix_rfl (Nat.le_refl _) id (fun p hp => by cases p <;> first | rfl | exact absurd (by decide) hp)
    | decide
    | dsimp -zeta only

theorem State.dbgDone_keeps (s : State) (a1 : Nat) (a2 : Bool) :
    Keeps [.dbg] s (State.dbgDone s a1 a2) := by
  unfold State.dbgDone
  with_reducible repeat' first
    | assumption
    | (extract_lets +onlyGivenNames z; revert z; intro y)
    | exact Keeps.rfl
    | refine Keeps.upd ?_ List.prefix_rfl (Nat.le_refl _) id (fun p hp => by cases p <;> first | rfl | exact absurd (by decide) hp)
    | decide
    | dsimp -zeta only

theorem State.regRead_keeps (s : State) (a1 : Nat) :
    Keeps [.mill, .caps] s (State.regRead s a1).1 := by
  have hz : ∀ b : Bool, ∀ x, Keeps [.mill, .caps] s (if b then ({ s with caps := x } : State) else s) := by
    intro b x
    exact Keeps.ite (Keeps.upd Keeps.rfl List.prefix_rfl (Nat.le_refl _) id (fun p hp => by cases p <;> first | rfl | exact absurd (by decide) hp)) Keeps.rfl
  have hl : ∀ y n, Keeps [.mill, .caps] s y → Keeps [.mill, .caps] s (State.lockWindow y n).1 := fun y n hy =>
    hy.next (State.lockWindow_keeps y n) (by decide)
  have hf : ∀ y n, Keeps [.mill, .caps] s y → Keeps [.mill, .caps] s (State.freeWindow y n).1 := fun y n hy =>
    hy.next (State.freeWindow_keeps y n) (by decide)
  unfold State.regRead
  dsimp only
  with_reducible repeat' (refine Keeps.ite1 ?_ ?_)
  · exact hl _ _ (hz _ _)
  · exact hl _ _ (hz _ _)
  · exact hf _ _ (hz _ _)
  · exact hf _ _ (hz _ _)
  · exact hz _ _

theorem execLowWordRead_keeps (a0 : BitVec 20) (a1 : Bool) (s : State) :
    Keeps [.host, .mill, .recorder, .caps] s (settle s (execLowWordRead a0 a1 s)) := by
  unfold execLowWordRead
  with_reducible repeat' first
    | assumption
    | (extract_lets +onlyGivenNames z; revert z; intro y)
    | exact Keeps.rfl
    | refine Keeps.iteO ?_ ?_
    | refine Keeps.ite ?_ ?_
    | refine Keeps.ok ?_
    | refine Keeps.ite1 ?_ ?_
    | (rename (_ : State × _) = _ => heq
       refine Keeps.pair heq ?_ ?_ <;> clear heq
       rotate_left
       intro hy
       rotate_left)
    | apply Keeps.next ?_ (State.emit_keeps _ _) ?_
    | apply State.hostRead_keeps
    | apply Keeps.next ?_ (State.regRead_keeps _ _) ?_
    | decide
    | intro y
    | dsimp -zeta only

theorem State.dbgRead_keeps (s : State) :
    Keeps [.host, .mill, .dbg, .recorder, .caps] s (State.dbgRead s) := by
  have hj : ∀ b : Bool, ∀ a len, Keeps [.host, .mill, .dbg, .recorder, .caps] s
      (if b then (s, true) else s.acAccess 1 0 0 a len).1 := by
    intro b a len
    exact Keeps.ite1 Keeps.rfl (State.acAccess_keeps _ _ _ _ _ _ |>.next' (by decide))
  unfold State.dbgRead
  dsimp only
  split
  · next heq => exact Keeps.pair heq (hj _ _ _) (fun hy => hy.next (State.dbgDone_keeps _ _ _) (by decide))
  · next y heq =>
    refine Keeps.pair heq (hj _ _ _) (fun hy => ?_)
    clear heq
    refine Keeps.ite (Keeps.ite ?_ ?_) ?_
    · exact (hy.next (State.regRead_keeps _ _) (by decide)).next (State.dbgDone_keeps _ _ _) (by decide)
    · exact hy.next (State.dbgDone_keeps _ _ _) (by decide)
    · have hr := hy.next (State.intRead_keeps y s.dbgTarget s.dbgLen) (by decide)
      split
      · next heq => exact Keeps.pair heq hr (fun hy => hy.next (State.dbgDone_keeps _ _ _) (by decide))
      · next heq => exact Keeps.pair heq hr (fun hy => hy.next (State.dbgDone_keeps _ _ _) (by decide))

theorem execDbgDataCapture_keeps (s : State) :
    Keeps [.host, .mill, .dbg, .recorder, .caps] s (settle s (execDbgDataCapture s)) := by
  unfold execDbgDataCapture
  with_reducible repeat' first
    | assumption
    | (extract_lets +onlyGivenNames z
       refine Keeps.let z ?_ ?_
       subst z
       rotate_left
       clear_value z
       revert z
       intro y hy
       rotate_left)
    | exact Keeps.rfl
    | refine Keeps.iteO ?_ ?_
    | refine Keeps.ite ?_ ?_
    | refine Keeps.ok ?_
    | apply Keeps.next ?_ (State.dbgRead_keeps _) ?_
    | apply Keeps.next ?_ (State.shiftOut_keeps _ _ _) ?_
    | decide
    | dsimp -zeta only

theorem State.dbgWriteWord_keeps (s : State) (a1 : Nat) :
    Keeps [.staged, .settingsMram, .hop, .progs, .forces, .image, .turn, .skein, .tasks, .loops, .trace, .ring, .time, .ply, .rows, .brake, .host, .mill, .seals, .dbg, .recorder, .fw, .pwr, .mem, .caps] s (State.dbgWriteWord s a1) := by
  unfold State.dbgWriteWord
  with_reducible repeat' first
    | assumption
    | (extract_lets +onlyGivenNames z; revert z; intro y)
    | exact Keeps.rfl
    | refine Keeps.ite ?_ ?_
    | refine Keeps.ite1 ?_ ?_
    | (rename (_ : State × _) = _ => heq
       refine Keeps.pair heq ?_ ?_ <;> clear heq
       rotate_left
       intro hy
       rotate_left)
    | apply Keeps.next ?_ (State.acAccess_keeps _ _ _ _ _ _) ?_
    | apply Keeps.next ?_ (State.dbgDone_keeps _ _ _) ?_
    | apply Keeps.next ?_ (State.regWrite_keeps _ _ _) ?_
    | apply Keeps.next ?_ (State.memWrite_keeps _ _ _) ?_
    | split
    | decide
    | dsimp -zeta only

theorem execDbgDataUpdate_keeps (a0 : Word32) (s : State) :
    Keeps [.staged, .settingsMram, .hop, .progs, .forces, .image, .turn, .skein, .tasks, .loops, .trace, .ring, .time, .ply, .rows, .brake, .host, .mill, .seals, .dbg, .recorder, .fw, .pwr, .mem, .caps] s (settle s (execDbgDataUpdate a0 s)) := by
  unfold execDbgDataUpdate
  with_reducible repeat' first
    | assumption
    | (extract_lets +onlyGivenNames z
       refine Keeps.let z ?_ ?_
       subst z
       rotate_left
       clear_value z
       revert z
       intro y hy
       rotate_left)
    | (extract_lets +onlyGivenNames z; revert z; intro y)
    | exact Keeps.rfl
    | refine Keeps.iteO ?_ ?_
    | refine Keeps.ite ?_ ?_
    | refine Keeps.ok ?_
    | apply Keeps.next ?_ (State.dbgWriteWord_keeps _ _) ?_
    | apply Keeps.next ?_ (State.dbgDone_keeps _ _ _) ?_
    | refine Keeps.upd ?_ List.prefix_rfl (Nat.le_refl _) id (fun p hp => by cases p <;> first | rfl | exact absurd (by decide) hp)
    | decide
    | dsimp -zeta only

theorem execDbgStatus_keeps (s : State) :
    Keeps [.dbg] s (settle s (execDbgStatus s)) := by
  unfold execDbgStatus
  with_reducible repeat' first
    | assumption
    | exact Keeps.rfl
    | refine Keeps.ok ?_
    | apply Keeps.next ?_ (State.shiftOut_keeps _ _ _) ?_
    | decide
    | dsimp -zeta only

theorem execDbgAcstat_keeps (s : State) :
    Keeps [.dbg] s (settle s (execDbgAcstat s)) := by
  unfold execDbgAcstat
  with_reducible repeat' first
    | assumption
    | exact Keeps.rfl
    | refine Keeps.ok ?_
    | apply Keeps.next ?_ (State.shiftOut_keeps _ _ _) ?_
    | decide
    | dsimp -zeta only

theorem State.dropOrders_keeps (s : State) (a1 : Order → Bool) :
    Keeps [.ply] s (State.dropOrders s a1) := by
  unfold State.dropOrders
  with_reducible repeat' first
    | assumption
    | (extract_lets +onlyGivenNames z; revert z; intro y)
    | exact Keeps.rfl
    | refine Keeps.upd ?_ List.prefix_rfl (Nat.le_refl _) id (fun p hp => by cases p <;> first | rfl | exact absurd (by decide) hp)
    | decide
    | dsimp -zeta only

theorem State.noHandover_keeps (s : State) :
    Keeps [.host, .recorder, .fw, .pwr] s (State.noHandover s) := by
  unfold State.noHandover
  with_reducible repeat' first
    | assumption
    | (extract_lets +onlyGivenNames z
       refine Keeps.let z ?_ ?_
       subst z
       rotate_left
       clear_value z
       revert z
       intro y hy
       rotate_left)
    | (extract_lets +onlyGivenNames z; revert z; intro y)
    | exact Keeps.rfl
    | refine Keeps.ite ?_ ?_
    | apply Keeps.next ?_ (State.refusePower_keeps _) ?_
    | apply Keeps.next ?_ (State.endActivation_keeps _) ?_
    | refine Keeps.upd ?_ List.prefix_rfl (Nat.le_refl _) id (fun p hp => by cases p <;> first | rfl | exact absurd (by decide) hp)
    | decide
    | dsimp -zeta only

theorem State.abandonOrder_keeps (s : State) (a1 : Order) :
    Keeps [.hop, .time, .ply, .host, .recorder, .fw, .pwr] s (State.abandonOrder s a1) := by
  unfold State.abandonOrder
  with_reducible repeat' first
    | assumption
    | (extract_lets +onlyGivenNames z
       refine Keeps.let z ?_ ?_
       subst z
       rotate_left
       clear_value z
       revert z
       intro y hy
       rotate_left)
    | (extract_lets +onlyGivenNames z; revert z; intro y)
    | exact Keeps.rfl
    | refine Keeps.ite ?_ ?_
    | apply Keeps.next ?_ (State.dropOrders_keeps _ _) ?_
    | apply Keeps.next ?_ (State.finish_keeps _ _ _ _ _ _) ?_
    | apply Keeps.next ?_ (State.dropArmed_keeps _ _) ?_
    | apply Keeps.next ?_ (State.wr_keeps _ _ _) ?_
    | apply Keeps.next ?_ (State.noHandover_keeps _) ?_
    | split
    | refine Keeps.upd ?_ List.prefix_rfl (Nat.le_refl _) id (fun p hp => by cases p <;> first | rfl | exact absurd (by decide) hp)
    | decide
    | dsimp -zeta only

theorem execOrderAckTimeout_keeps (a0 : BitVec 16) (s : State) :
    Keeps [.hop, .time, .ply, .host, .recorder, .fw, .pwr] s (settle s (execOrderAckTimeout a0 s)) := by
  unfold execOrderAckTimeout
  with_reducible repeat' first
    | assumption
    | exact Keeps.rfl
    | refine Keeps.ok ?_
    | apply Keeps.next ?_ (State.abandonOrder_keeps _ _) ?_
    | split
    | decide
    | dsimp -zeta only

theorem State.ackOrder_keeps (s : State) (a1 : Order) :
    Keeps [.hop, .ply, .host] s (State.ackOrder s a1) := by
  unfold State.ackOrder
  with_reducible repeat' first
    | assumption
    | (extract_lets +onlyGivenNames z; revert z; intro y)
    | exact Keeps.rfl
    | refine Keeps.ite ?_ ?_
    | refine Keeps.upd ?_ List.prefix_rfl (Nat.le_refl _) id (fun p hp => by cases p <;> first | rfl | exact absurd (by decide) hp)
    | decide
    | dsimp -zeta only

theorem execAckReceived_keeps (a0 : PlyHdr) (a1 : BitVec 16) (a2 : BitVec 16) (a3 : Bool) (s : State) :
    Keeps [.hop, .skein, .trace, .time, .ply, .rows, .brake, .host, .recorder, .fw, .pwr] s (settle s (execAckReceived a0 a1 a2 a3 s)) := by
  unfold execAckReceived
  with_reducible repeat' first
    | assumption
    | exact Keeps.rfl
    | refine Keeps.iteO ?_ ?_
    | refine Keeps.ite ?_ ?_
    | refine Keeps.ok ?_
    | refine Keeps.ite1 ?_ ?_
    | (rename (_ : State × _) = _ => heq
       refine Keeps.pair heq ?_ ?_ <;> clear heq
       rotate_left
       intro hy
       rotate_left)
    | apply Keeps.next ?_ (State.plyTake_keeps _ _ _) ?_
    | apply Keeps.next ?_ (State.failJoin_keeps _ _) ?_
    | apply Keeps.next ?_ (State.abandonOrder_keeps _ _) ?_
    | apply Keeps.next ?_ (State.ackOrder_keeps _ _) ?_
    | split
    | decide
    | dsimp -zeta only

theorem State.acceptOrder_keeps (s : State) (a1 : Nat) (a2 : Nat) (a3 : Nat) (a4 : OrderContent) :
    Keeps [.ply] s (State.acceptOrder s a1 a2 a3 a4) := by
  unfold State.acceptOrder
  with_reducible repeat' first
    | assumption
    | (extract_lets +onlyGivenNames z
       refine Keeps.let z ?_ ?_
       subst z
       rotate_left
       clear_value z
       revert z
       intro y hy
       rotate_left)
    | (extract_lets +onlyGivenNames z; revert z; intro y)
    | exact Keeps.rfl
    | apply Keeps.next ?_ (State.sendAck_keeps _ _ _ _) ?_
    | refine Keeps.upd ?_ List.prefix_rfl (Nat.le_refl _) id (fun p hp => by cases p <;> first | rfl | exact absurd (by decide) hp)
    | decide
    | dsimp -zeta only

theorem State.armPartner_keeps (s : State) (a1 : List (Nat × Nat)) (a2 : Nat) (a3 : Nat) :
    Keeps [.hop] s (State.armPartner s a1 a2 a3) := by
  unfold State.armPartner
  with_reducible repeat' first
    | assumption
    | (extract_lets +onlyGivenNames z
       refine Keeps.let z ?_ ?_
       subst z
       rotate_left
       clear_value z
       revert z
       intro y hy
       rotate_left)
    | (extract_lets +onlyGivenNames z; revert z; intro y)
    | exact Keeps.rfl
    | refine Keeps.ite ?_ ?_
    | apply Keeps.next ?_ (State.wr_keeps _ _ _) ?_
    | apply Keeps.next ?_ (State.hopState_keeps _) ?_
    | refine Keeps.upd ?_ List.prefix_rfl (Nat.le_refl _) id (fun p hp => by cases p <;> first | rfl | exact absurd (by decide) hp)
    | decide
    | dsimp -zeta only

theorem State.takeCommitOrder_keeps (s : State) (a1 : Nat) (a2 : Nat) (a3 : Nat) (a4 : List (Nat × Nat)) (a5 : Bool) :
    Keeps [.hop, .ply] s (State.takeCommitOrder s a1 a2 a3 a4 a5) := by
  unfold State.takeCommitOrder
  with_reducible repeat' first
    | assumption
    | (extract_lets +onlyGivenNames z
       refine Keeps.let z ?_ ?_
       subst z
       rotate_left
       clear_value z
       revert z
       intro y hy
       rotate_left)
    | (extract_lets +onlyGivenNames z; revert z; intro y)
    | exact Keeps.rfl
    | refine Keeps.ite ?_ ?_
    | apply Keeps.next ?_ (State.sendAck_keeps _ _ _ _) ?_
    | apply Keeps.next ?_ (State.armPartner_keeps _ _ _ _) ?_
    | refine Keeps.upd ?_ List.prefix_rfl (Nat.le_refl _) id (fun p hp => by cases p <;> first | rfl | exact absurd (by decide) hp)
    | decide
    | dsimp -zeta only

theorem State.takeKeyOrder_keeps (s : State) (a1 : Nat) (a2 : Nat) (a3 : Nat) :
    Keeps [.hop, .skein, .tasks, .trace, .time, .ply, .rows, .brake, .host, .recorder] s (State.takeKeyOrder s a1 a2 a3) := by
  unfold State.takeKeyOrder
  with_reducible repeat' first
    | assumption
    | (extract_lets +onlyGivenNames z; revert z; intro y)
    | exact Keeps.rfl
    | refine Keeps.ite ?_ ?_
    | apply Keeps.next ?_ (State.leaveTracking_keeps _ _) ?_
    | apply Keeps.next ?_ (State.acceptOrder_keeps _ _ _ _ _) ?_
    | refine Keeps.upd ?_ List.prefix_rfl (Nat.le_refl _) id (fun p hp => by cases p <;> first | rfl | exact absurd (by decide) hp)
    | decide
    | dsimp -zeta only

theorem State.takeTimeOrder_keeps (s : State) (a1 : Nat) (a2 : Nat) (a3 : Bool) :
    Keeps [.time, .ply] s (State.takeTimeOrder s a1 a2 a3) := by
  unfold State.takeTimeOrder
  with_reducible repeat' first
    | assumption
    | (extract_lets +onlyGivenNames z
       refine Keeps.let z ?_ ?_
       subst z
       rotate_left
       clear_value z
       revert z
       intro y hy
       rotate_left)
    | (extract_lets +onlyGivenNames z; revert z; intro y)
    | exact Keeps.rfl
    | refine Keeps.ite ?_ ?_
    | apply Keeps.next ?_ (State.acceptOrder_keeps _ _ _ _ _) ?_
    | refine Keeps.upd ?_ List.prefix_rfl (Nat.le_refl _) id (fun p hp => by cases p <;> first | rfl | exact absurd (by decide) hp)
    | decide
    | dsimp -zeta only

theorem State.takeOverrunOrder_keeps (s : State) (a1 : Nat) (a2 : Nat) (a3 : Bool) :
    Keeps [.tasks, .host, .recorder] s (State.takeOverrunOrder s a1 a2 a3) := by
  unfold State.takeOverrunOrder
  with_reducible repeat' first
    | assumption
    | (extract_lets +onlyGivenNames z; revert z; intro y)
    | exact Keeps.rfl
    | refine Keeps.ite ?_ ?_
    | apply Keeps.next ?_ (State.overrunStop_keeps _ _ _ _) ?_
    | refine Keeps.upd ?_ List.prefix_rfl (Nat.le_refl _) id (fun p hp => by cases p <;> first | rfl | exact absurd (by decide) hp)
    | decide
    | dsimp -zeta only

theorem State.takeHandover_keeps (s : State) (a1 : Nat) (a2 : Nat) :
    Keeps [.ply] s (State.takeHandover s a1 a2) := by
  unfold State.takeHandover
  with_reducible repeat' first
    | assumption
    | (extract_lets +onlyGivenNames z
       refine Keeps.let z ?_ ?_
       subst z
       rotate_left
       clear_value z
       revert z
       intro y hy
       rotate_left)
    | exact Keeps.rfl
    | refine Keeps.ite ?_ ?_
    | apply Keeps.next ?_ (State.sendOrder_keeps _ _ _ _ _) ?_
    | apply Keeps.next ?_ (State.sendAck_keeps _ _ _ _) ?_
    | apply Keeps.next ?_ (State.dropOrders_keeps _ _) ?_
    | apply Keeps.next ?_ (State.acceptOrder_keeps _ _ _ _ _) ?_
    | decide
    | dsimp -zeta only

theorem State.takeRevert_keeps (s : State) (a1 : Nat) (a2 : Nat) :
    Keeps [.ply] s (State.takeRevert s a1 a2) := by
  unfold State.takeRevert
  with_reducible repeat' first
    | assumption
    | exact Keeps.rfl
    | refine Keeps.ite ?_ ?_
    | apply Keeps.next ?_ (State.acceptOrder_keeps _ _ _ _ _) ?_
    | apply Keeps.next ?_ (State.sendAck_keeps _ _ _ _) ?_
    | decide
    | dsimp -zeta only

theorem State.takeCapture_keeps (s : State) (a1 : Nat) (a2 : Nat) :
    Keeps [.hop, .skein, .trace, .time, .ply, .rows, .brake, .host, .recorder] s (State.takeCapture s a1 a2) := by
  unfold State.takeCapture
  with_reducible repeat' first
    | assumption
    | (extract_lets +onlyGivenNames z
       refine Keeps.let z ?_ ?_
       subst z
       rotate_left
       clear_value z
       revert z
       intro y hy
       rotate_left)
    | (extract_lets +onlyGivenNames z; revert z; intro y)
    | exact Keeps.rfl
    | refine Keeps.ite ?_ ?_
    | apply Keeps.next ?_ (State.sendAck_keeps _ _ _ _) ?_
    | apply Keeps.next ?_ (State.failJoin_keeps _ _) ?_
    | apply Keeps.next ?_ (State.wr_keeps _ _ _) ?_
    | refine Keeps.upd ?_ List.prefix_rfl (Nat.le_refl _) id (fun p hp => by cases p <;> first | rfl | exact absurd (by decide) hp)
    | decide
    | dsimp -zeta only

theorem execOrderReceived_keeps (a0 : PlyHdr) (a1 : OrderMsg) (s : State) :
    Keeps [.hop, .skein, .tasks, .trace, .time, .ply, .rows, .brake, .host, .recorder] s (settle s (execOrderReceived a0 a1 s)) := by
  unfold execOrderReceived
  with_reducible repeat' first
    | assumption
    | (extract_lets +onlyGivenNames z; revert z; intro y)
    | exact Keeps.rfl
    | refine Keeps.iteO ?_ ?_
    | refine Keeps.ite ?_ ?_
    | refine Keeps.ok ?_
    | refine Keeps.ite1 ?_ ?_
    | (rename (_ : State × _) = _ => heq
       refine Keeps.pair heq ?_ ?_ <;> clear heq
       rotate_left
       intro hy
       rotate_left)
    | apply Keeps.next ?_ (State.plyTake_keeps _ _ _) ?_
    | apply Keeps.next ?_ (State.takeCommitOrder_keeps _ _ _ _ _ _) ?_
    | apply Keeps.next ?_ (State.acceptOrder_keeps _ _ _ _ _) ?_
    | apply Keeps.next ?_ (State.sendAck_keeps _ _ _ _) ?_
    | apply Keeps.next ?_ (State.takeKeyOrder_keeps _ _ _ _) ?_
    | apply Keeps.next ?_ (State.takeTimeOrder_keeps _ _ _ _) ?_
    | apply Keeps.next ?_ (State.takeCaptured_keeps _ _) ?_
    | apply Keeps.next ?_ (State.takeOverrunOrder_keeps _ _ _ _) ?_
    | apply Keeps.next ?_ (State.takeHandover_keeps _ _ _) ?_
    | apply Keeps.next ?_ (State.takeRevert_keeps _ _ _) ?_
    | apply Keeps.next ?_ (State.takeCapture_keeps _ _ _) ?_
    | split
    | decide
    | dsimp -zeta only

theorem State.takeMirrored_keeps (s : State) (a1 : Nat) (a2 : HostWrite) :
    Keeps [.progs, .image, .brake] s (State.takeMirrored s a1 a2) := by
  unfold State.takeMirrored
  with_reducible repeat' first
    | assumption
    | (extract_lets +onlyGivenNames z
       refine Keeps.let z ?_ ?_
       subst z
       rotate_left
       clear_value z
       revert z
       intro y hy
       rotate_left)
    | (extract_lets +onlyGivenNames z; revert z; intro y)
    | exact Keeps.rfl
    | refine Keeps.ite ?_ ?_
    | apply Keeps.next ?_ (State.loadPiece_keeps _ _ _ _) ?_
    | apply Keeps.next ?_ (State.loadEnd_keeps _ _) ?_
    | split
    | refine Keeps.upd ?_ List.prefix_rfl (Nat.le_refl _) id (fun p hp => by cases p <;> first | rfl | exact absurd (by decide) hp)
    | decide
    | dsimp -zeta only

theorem execHostWriteReceived_keeps (a0 : PlyHdr) (a1 : BitVec 64) (a2 : List HostWrite) (s : State) :
    Keeps [.progs, .image, .ply, .brake] s (settle s (execHostWriteReceived a0 a1 a2 s)) := by
  unfold execHostWriteReceived
  with_reducible repeat' first
    | assumption
    | exact Keeps.rfl
    | refine Keeps.iteO ?_ ?_
    | refine Keeps.ite ?_ ?_
    | refine Keeps.ok ?_
    | refine Keeps.ite1 ?_ ?_
    | refine Keeps.foldl _ _ ?_ ?_
    | (rename (_ : State × _) = _ => heq
       refine Keeps.pair heq ?_ ?_ <;> clear heq
       rotate_left
       intro hy
       rotate_left)
    | apply Keeps.next ?_ (State.plyTake_keeps _ _ _) ?_
    | apply Keeps.next ?_ (State.takeMirrored_keeps _ _ _) ?_
    | split
    | decide
    | intro y
    | dsimp -zeta only

theorem execMillSnapReceived_keeps (a0 : PlyHdr) (a1 : Fin 2) (a2 : Fin 64) (a3 : List Word36) (s : State) :
    Keeps [.tasks, .ply, .mill] s (settle s (execMillSnapReceived a0 a1 a2 a3 s)) := by
  unfold execMillSnapReceived
  with_reducible repeat' first
    | assumption
    | (extract_lets +onlyGivenNames z; revert z; intro y)
    | exact Keeps.rfl
    | refine Keeps.iteO ?_ ?_
    | refine Keeps.ite ?_ ?_
    | refine Keeps.ok ?_
    | refine Keeps.ite1 ?_ ?_
    | (rename (_ : State × _) = _ => heq
       refine Keeps.pair heq ?_ ?_ <;> clear heq
       rotate_left
       intro hy
       rotate_left)
    | apply Keeps.next ?_ (State.plyTake_keeps _ _ _) ?_
    | apply Keeps.next ?_ (State.takeSnap_keeps _ _ _ _) ?_
    | split
    | refine Keeps.upd ?_ List.prefix_rfl (Nat.le_refl _) id (fun p hp => by cases p <;> first | rfl | exact absurd (by decide) hp)
    | decide
    | dsimp -zeta only

theorem State.sendCapture_keeps (s : State) :
    Keeps [.ply] s (State.sendCapture s) := by
  unfold State.sendCapture
  with_reducible repeat' first
    | assumption
    | (extract_lets +onlyGivenNames z
       refine Keeps.let z ?_ ?_
       subst z
       rotate_left
       clear_value z
       revert z
       intro y hy
       rotate_left)
    | (extract_lets +onlyGivenNames z; revert z; intro y)
    | exact Keeps.rfl
    | refine Keeps.ite ?_ ?_
    | apply Keeps.next ?_ (State.emit_keeps _ _) ?_
    | refine Keeps.upd ?_ List.prefix_rfl (Nat.le_refl _) id (fun p hp => by cases p <;> first | rfl | exact absurd (by decide) hp)
    | decide
    | dsimp -zeta only

theorem State.chunkSent_keeps (s : State) (a1 : Nat) (a2 : Nat) (a3 : Nat) :
    Keeps [.ply] s (State.chunkSent s a1 a2 a3) := by
  unfold State.chunkSent
  with_reducible repeat' first
    | assumption
    | (extract_lets +onlyGivenNames z; revert z; intro y)
    | exact Keeps.rfl
    | refine Keeps.ite ?_ ?_
    | refine Keeps.upd ?_ List.prefix_rfl (Nat.le_refl _) id (fun p hp => by cases p <;> first | rfl | exact absurd (by decide) hp)
    | decide
    | dsimp -zeta only

theorem execStateSend_keeps (a0 : BitVec 16) (a1 : BitVec 32) (a2 : Fin 511) (s : State) :
    Keeps [.ply] s (settle s (execStateSend a0 a1 a2 s)) := by
  unfold execStateSend
  with_reducible repeat' first
    | assumption
    | (extract_lets +onlyGivenNames z
       refine Keeps.let z ?_ ?_
       subst z
       rotate_left
       clear_value z
       revert z
       intro y hy
       rotate_left)
    | (extract_lets +onlyGivenNames z; revert z; intro y)
    | exact Keeps.rfl
    | refine Keeps.iteO ?_ ?_
    | refine Keeps.ite ?_ ?_
    | refine Keeps.ok ?_
    | apply Keeps.next ?_ (State.sendCapture_keeps _) ?_
    | apply Keeps.next ?_ (State.chunkSent_keeps _ _ _ _) ?_
    | apply Keeps.next ?_ (State.sendState_keeps _ _ _ _ _) ?_
    | decide
    | dsimp -zeta only

theorem State.putWords_keeps (s : State) (a1 : Nat) (a2 : Nat) (a3 : Nat) (a4 : List Nat) :
    Keeps [.tasks, .loops] s (State.putWords s a1 a2 a3 a4) := by
  unfold State.putWords
  with_reducible repeat' first
    | assumption
    | (extract_lets +onlyGivenNames z; revert z; intro y)
    | exact Keeps.rfl
    | refine Keeps.ite ?_ ?_
    | refine Keeps.foldl _ _ ?_ ?_
    | apply Keeps.next ?_ (State.setTask_keeps _ _ _) ?_
    | refine Keeps.upd ?_ List.prefix_rfl (Nat.le_refl _) id (fun p hp => by cases p <;> first | rfl | exact absurd (by decide) hp)
    | decide
    | intro y
    | dsimp -zeta only

theorem State.checkChunk_keeps (s : State) (a1 : Nat) (a2 : Nat) (a3 : Nat) (a4 : List Nat) :
    Keeps [.hop, .skein, .tasks, .loops, .trace, .time, .ply, .rows, .brake, .host, .recorder] s (State.checkChunk s a1 a2 a3 a4) := by
  unfold State.checkChunk
  with_reducible repeat' first
    | assumption
    | (extract_lets +onlyGivenNames z
       refine Keeps.let z ?_ ?_
       subst z
       rotate_left
       clear_value z
       revert z
       intro y hy
       rotate_left)
    | (extract_lets +onlyGivenNames z; revert z; intro y)
    | exact Keeps.rfl
    | refine Keeps.ite ?_ ?_
    | apply Keeps.next ?_ (State.putWords_keeps _ _ _ _ _) ?_
    | apply Keeps.next ?_ (State.leaveTracking_keeps _ _) ?_
    | refine Keeps.upd ?_ List.prefix_rfl (Nat.le_refl _) id (fun p hp => by cases p <;> first | rfl | exact absurd (by decide) hp)
    | decide
    | dsimp -zeta only

theorem State.startReplay_keeps (s : State) (a1 : Nat) :
    Keeps [.image, .turn, .ply] s (State.startReplay s a1) := by
  unfold State.startReplay
  with_reducible repeat' first
    | assumption
    | (extract_lets +onlyGivenNames z
       refine Keeps.let z ?_ ?_
       subst z
       rotate_left
       clear_value z
       revert z
       intro y hy
       rotate_left)
    | (extract_lets +onlyGivenNames z; revert z; intro y)
    | exact Keeps.rfl
    | apply Keeps.next ?_ (State.showBacklog_keeps _) ?_
    | apply Keeps.next ?_ (State.wr_keeps _ _ _) ?_
    | refine Keeps.upd ?_ List.prefix_rfl (Nat.le_refl _) id (fun p hp => by cases p <;> first | rfl | exact absurd (by decide) hp)
    | decide
    | dsimp -zeta only

theorem State.capturedItem_keeps (s : State) (a1 : Nat) :
    Keeps [.image, .turn, .ply] s (State.capturedItem s a1) := by
  unfold State.capturedItem
  with_reducible repeat' first
    | assumption
    | (extract_lets +onlyGivenNames z
       refine Keeps.let z ?_ ?_
       subst z
       rotate_left
       clear_value z
       revert z
       intro y hy
       rotate_left)
    | (extract_lets +onlyGivenNames z; revert z; intro y)
    | exact Keeps.rfl
    | refine Keeps.ite ?_ ?_
    | apply Keeps.next ?_ (State.startReplay_keeps _ _) ?_
    | refine Keeps.upd ?_ List.prefix_rfl (Nat.le_refl _) id (fun p hp => by cases p <;> first | rfl | exact absurd (by decide) hp)
    | decide
    | dsimp -zeta only

theorem State.takeChunk_keeps (s : State) (a1 : Nat) (a2 : Nat) (a3 : Nat) (a4 : List Nat) :
    Keeps [.image, .turn, .tasks, .loops, .ply] s (State.takeChunk s a1 a2 a3 a4) := by
  unfold State.takeChunk
  with_reducible repeat' first
    | assumption
    | (extract_lets +onlyGivenNames z
       refine Keeps.let z ?_ ?_
       subst z
       rotate_left
       clear_value z
       revert z
       intro y hy
       rotate_left)
    | exact Keeps.rfl
    | refine Keeps.ite ?_ ?_
    | apply Keeps.next ?_ (State.putWords_keeps _ _ _ _ _) ?_
    | apply Keeps.next ?_ (State.capturedItem_keeps _ _) ?_
    | decide
    | dsimp -zeta only

theorem State.stateChunk_keeps (s : State) (a1 : Nat) (a2 : Nat) (a3 : Nat) (a4 : List Nat) :
    Keeps [.hop, .image, .turn, .skein, .tasks, .loops, .trace, .time, .ply, .rows, .brake, .host, .recorder] s (State.stateChunk s a1 a2 a3 a4) := by
  unfold State.stateChunk
  with_reducible repeat' first
    | assumption
    | exact Keeps.rfl
    | refine Keeps.ite ?_ ?_
    | apply Keeps.next ?_ (State.checkChunk_keeps _ _ _ _ _) ?_
    | apply Keeps.next ?_ (State.takeChunk_keeps _ _ _ _ _) ?_
    | decide
    | dsimp -zeta only

theorem State.partnerDelta_keeps (s : State) (a1 : Nat) (a2 : Nat) (a3 : Bytes) :
    Keeps [.ply, .host, .recorder, .fw] s (State.partnerDelta s a1 a2 a3) := by
  unfold State.partnerDelta
  with_reducible repeat' first
    | assumption
    | (extract_lets +onlyGivenNames z; revert z; intro y)
    | exact Keeps.rfl
    | refine Keeps.ite ?_ ?_
    | refine Keeps.ite1 ?_ ?_
    | (rename (_ : State × _) = _ => heq
       refine Keeps.pair heq ?_ ?_ <;> clear heq
       rotate_left
       intro hy
       rotate_left)
    | apply Keeps.next ?_ (State.deltaPiece_keeps _ _ _ _ _ _) ?_
    | decide
    | dsimp -zeta only

theorem State.orderedSwitch_keeps (s : State) (a1 : Bool) (a2 : Nat) :
    Keeps [.ply, .fw] s (State.orderedSwitch s a1 a2) := by
  unfold State.orderedSwitch
  with_reducible repeat' first
    | assumption
    | (extract_lets +onlyGivenNames z
       refine Keeps.let z ?_ ?_
       subst z
       rotate_left
       clear_value z
       revert z
       intro y hy
       rotate_left)
    | (extract_lets +onlyGivenNames z; revert z; intro y)
    | exact Keeps.rfl
    | refine Keeps.ite ?_ ?_
    | apply Keeps.next ?_ (State.wr_keeps _ _ _) ?_
    | apply Keeps.next ?_ (State.fwReport_keeps _ _ _) ?_
    | apply Keeps.next ?_ (State.fwNote_keeps _ _) ?_
    | refine Keeps.upd ?_ List.prefix_rfl (Nat.le_refl _) id (fun p hp => by cases p <;> first | rfl | exact absurd (by decide) hp)
    | decide
    | dsimp -zeta only

theorem State.partnerReport_keeps (s : State) (a1 : Nat) (a2 : Nat) :
    Keeps [.ply, .host, .recorder, .fw] s (State.partnerReport s a1 a2) := by
  unfold State.partnerReport
  with_reducible repeat' first
    | assumption
    | (extract_lets +onlyGivenNames z
       refine Keeps.let z ?_ ?_
       subst z
       rotate_left
       clear_value z
       revert z
       intro y hy
       rotate_left)
    | (extract_lets +onlyGivenNames z; revert z; intro y)
    | exact Keeps.rfl
    | refine Keeps.ite ?_ ?_
    | apply Keeps.next ?_ (State.fwFail_keeps _ _) ?_
    | apply Keeps.next ?_ (State.endActivation_keeps _) ?_
    | apply Keeps.next ?_ (State.sendOrder_keeps _ _ _ _ _) ?_
    | refine Keeps.upd ?_ List.prefix_rfl (Nat.le_refl _) id (fun p hp => by cases p <;> first | rfl | exact absurd (by decide) hp)
    | decide
    | dsimp -zeta only

theorem State.takeReport_keeps (s : State) (a1 : List Nat) :
    Keeps [.ply, .host, .recorder, .fw] s (State.takeReport s a1) := by
  unfold State.takeReport
  with_reducible repeat' first
    | assumption
    | (extract_lets +onlyGivenNames z; revert z; intro y)
    | exact Keeps.rfl
    | refine Keeps.ite ?_ ?_
    | apply Keeps.next ?_ (State.partnerReport_keeps _ _ _) ?_
    | apply Keeps.next ?_ (State.orderedSwitch_keeps _ _ _) ?_
    | decide
    | dsimp -zeta only

theorem execStateReceived_keeps (a0 : PlyHdr) (a1 : BitVec 16) (a2 : BitVec 64) (a3 : BitVec 32) (a4 : List (BitVec 64)) (s : State) :
    Keeps [.hop, .image, .turn, .skein, .tasks, .loops, .trace, .time, .ply, .rows, .brake, .host, .recorder, .fw, .pwr] s (settle s (execStateReceived a0 a1 a2 a3 a4 s)) := by
  unfold execStateReceived
  with_reducible repeat' first
    | assumption
    | (extract_lets +onlyGivenNames z; revert z; intro y)
    | exact Keeps.rfl
    | refine Keeps.iteO ?_ ?_
    | refine Keeps.ite ?_ ?_
    | refine Keeps.ok ?_
    | refine Keeps.ite1 ?_ ?_
    | (rename (_ : State × _) = _ => heq
       refine Keeps.pair heq ?_ ?_ <;> clear heq
       rotate_left
       intro hy
       rotate_left)
    | apply Keeps.next ?_ (State.plyTake_keeps _ _ _) ?_
    | apply Keeps.next ?_ (State.stateChunk_keeps _ _ _ _ _) ?_
    | apply Keeps.next ?_ (State.partnerDelta_keeps _ _ _ _) ?_
    | apply Keeps.next ?_ (State.manifestPiece_keeps _ _ _ _) ?_
    | apply Keeps.next ?_ (State.takeReport_keeps _ _) ?_
    | split
    | refine Keeps.upd ?_ List.prefix_rfl (Nat.le_refl _) id (fun p hp => by cases p <;> first | rfl | exact absurd (by decide) hp)
    | decide
    | dsimp -zeta only

theorem State.takeImage_keeps (s : State) (a1 : JoinConfig) :
    Keeps [.staged, .settings, .hop, .programs, .progs, .forces, .image, .tasks, .ring] s (State.takeImage s a1) := by
  unfold State.takeImage
  with_reducible repeat' first
    | assumption
    | (extract_lets +onlyGivenNames z; revert z; intro y)
    | exact Keeps.rfl
    | refine Keeps.upd ?_ List.prefix_rfl (Nat.le_refl _) id (fun p hp => by cases p <;> first | rfl | exact absurd (by decide) hp)
    | decide
    | dsimp -zeta only

theorem State.takeSwitching_keeps (s : State) (a1 : JoinConfig) :
    Keeps [.settings, .hop, .progs, .tasks, .rows, .forces, .image] s (State.takeSwitching s a1) := by
  unfold State.takeSwitching
  with_reducible repeat' first
    | assumption
    | (extract_lets +onlyGivenNames z
       refine Keeps.let z ?_ ?_
       subst z
       rotate_left
       clear_value z
       revert z
       intro y hy
       rotate_left)
    | (extract_lets +onlyGivenNames z; revert z; intro y)
    | exact Keeps.rfl
    | refine Keeps.ite ?_ ?_
    | refine Keeps.foldl _ _ ?_ ?_
    | apply Keeps.next ?_ (State.wr_keeps _ _ _) ?_
    | apply Keeps.next ?_ (State.progRegs_keeps _ _) ?_
    | apply Keeps.next ?_ (State.setTask_keeps _ _ _) ?_
    | decide
    | intro y
    | dsimp -zeta only

theorem State.adoptImage_keeps (s : State) (a1 : JoinConfig) :
    Keeps [.settings, .staged, .hop, .programs, .progs, .forces, .image, .skein, .tasks, .trace, .ring, .time, .ply, .rows, .brake, .host, .recorder] s (State.adoptImage s a1) := by
  unfold State.adoptImage
  with_reducible repeat' first
    | assumption
    | (extract_lets +onlyGivenNames z
       refine Keeps.let z ?_ ?_
       subst z
       rotate_left
       clear_value z
       revert z
       intro y hy
       rotate_left)
    | (extract_lets +onlyGivenNames z; revert z; intro y)
    | exact Keeps.rfl
    | apply Keeps.next ?_ (State.takeImage_keeps _ _) ?_
    | apply Keeps.next ?_ (State.takeSwitching_keeps _ _) ?_
    | apply Keeps.next ?_ (State.wr_keeps _ _ _) ?_
    | apply Keeps.next ?_ (State.commitStations_keeps _ _) ?_
    | apply Keeps.next ?_ (State.commitChannel_keeps _ _ _) ?_
    | apply Keeps.next ?_ (State.checkBypass_keeps _) ?_
    | apply Keeps.next ?_ (State.settingRegs_keeps _) ?_
    | apply Keeps.next ?_ (State.commitBrakes_keeps _ _) ?_
    | apply Keeps.next ?_ (State.commitLoss_keeps _) ?_
    | apply Keeps.next ?_ (State.rebuildPayloads_keeps _) ?_
    | apply Keeps.next ?_ (State.hopState_keeps _) ?_
    | apply Keeps.next ?_ (State.restage_keeps _) ?_
    | decide
    | dsimp -zeta only

theorem State.adoptTime_keeps (s : State) (a1 : JoinTime) :
    Keeps [.turnNumber, .turn, .skein, .tasks, .trace, .time, .ply, .rows, .brake, .host, .recorder] s (State.adoptTime s a1) := by
  unfold State.adoptTime
  with_reducible repeat' first
    | assumption
    | (extract_lets +onlyGivenNames z
       refine Keeps.let z ?_ ?_
       subst z
       rotate_left
       clear_value z
       revert z
       intro y hy
       rotate_left)
    | (extract_lets +onlyGivenNames z; revert z; intro y)
    | exact Keeps.rfl
    | refine Keeps.ite ?_ ?_
    | apply Keeps.next ?_ (State.originRegs_keeps _) ?_
    | apply Keeps.next ?_ (State.wr_keeps _ _ _) ?_
    | apply Keeps.next ?_ (State.wrb_keeps _ _ _) ?_
    | apply Keeps.next ?_ (State.workRegs_keeps _) ?_
    | apply Keeps.next ?_ (State.setRow_keeps _ _ _) ?_
    | refine Keeps.upd ?_ List.prefix_rfl (Nat.le_refl _) id (fun p hp => by cases p <;> first | rfl | exact absurd (by decide) hp)
    | decide
    | dsimp -zeta only

theorem State.takeSlots_keeps (s : State) (a1 : JoinCapture) :
    Keeps [.forces, .image, .turn, .skein, .tasks, .loops, .trace, .time, .ply, .rows, .brake, .host, .recorder] s (State.takeSlots s a1) := by
  unfold State.takeSlots
  with_reducible repeat' first
    | assumption
    | (extract_lets +onlyGivenNames z
       refine Keeps.let z ?_ ?_
       subst z
       rotate_left
       clear_value z
       revert z
       intro y hy
       rotate_left)
    | (extract_lets +onlyGivenNames z; revert z; intro y)
    | exact Keeps.rfl
    | refine Keeps.foldl _ _ ?_ ?_
    | apply Keeps.next ?_ (State.putCell_keeps _ _ _) ?_
    | apply Keeps.next ?_ (State.lossRows_keeps _) ?_
    | refine Keeps.upd ?_ List.prefix_rfl (Nat.le_refl _) id (fun p hp => by cases p <;> first | rfl | exact absurd (by decide) hp)
    | decide
    | intro y
    | dsimp -zeta only

theorem State.takeTasks_keeps (s : State) (a1 : List JoinTask) :
    Keeps [.forces, .image, .turn, .skein, .tasks, .loops, .trace, .time, .ply, .rows, .brake, .host, .recorder] s (State.takeTasks s a1) := by
  unfold State.takeTasks
  with_reducible repeat' first
    | assumption
    | exact Keeps.rfl
    | refine Keeps.foldl _ _ ?_ ?_
    | apply Keeps.next ?_ (State.wrb_keeps _ _ _) ?_
    | apply Keeps.next ?_ (State.setTask_keeps _ _ _) ?_
    | decide
    | intro y
    | dsimp -zeta only

theorem State.takeLoops_keeps (s : State) (a1 : JoinCapture) :
    Keeps [.forces, .image, .turn, .skein, .tasks, .loops, .trace, .time, .ply, .rows, .brake, .host, .recorder] s (State.takeLoops s a1) := by
  unfold State.takeLoops
  with_reducible repeat' first
    | assumption
    | (extract_lets +onlyGivenNames z
       refine Keeps.let z ?_ ?_
       subst z
       rotate_left
       clear_value z
       revert z
       intro y hy
       rotate_left)
    | exact Keeps.rfl
    | refine Keeps.foldl _ _ ?_ ?_
    | refine Keeps.upd ?_ List.prefix_rfl (Nat.le_refl _) id (fun p hp => by cases p <;> first | rfl | exact absurd (by decide) hp)
    | decide
    | intro y
    | dsimp -zeta only

theorem State.takeRun_keeps (s : State) (a1 : JoinCapture) :
    Keeps [.forces, .image, .turn, .skein, .tasks, .loops, .trace, .time, .ply, .rows, .brake, .host, .recorder] s (State.takeRun s a1) := by
  unfold State.takeRun
  with_reducible repeat' first
    | assumption
    | (extract_lets +onlyGivenNames z
       refine Keeps.let z ?_ ?_
       subst z
       rotate_left
       clear_value z
       revert z
       intro y hy
       rotate_left)
    | (extract_lets +onlyGivenNames z; revert z; intro y)
    | exact Keeps.rfl
    | refine Keeps.ite ?_ ?_
    | apply Keeps.next ?_ (State.blame_keeps _ _) ?_
    | apply Keeps.next ?_ (State.wr_keeps _ _ _) ?_
    | apply Keeps.next ?_ (State.setRow_keeps _ _ _) ?_
    | split
    | refine Keeps.upd ?_ List.prefix_rfl (Nat.le_refl _) id (fun p hp => by cases p <;> first | rfl | exact absurd (by decide) hp)
    | decide
    | dsimp -zeta only

theorem State.adoptCapture_keeps (s : State) (a1 : JoinCapture) :
    Keeps [.forces, .image, .turn, .skein, .tasks, .loops, .trace, .time, .ply, .rows, .brake, .host, .recorder] s (State.adoptCapture s a1) := by
  unfold State.adoptCapture
  with_reducible repeat' first
    | assumption
    | exact Keeps.rfl
    | apply Keeps.next ?_ (State.takeSlots_keeps _ _) ?_
    | apply Keeps.next ?_ (State.takeTasks_keeps _ _) ?_
    | apply Keeps.next ?_ (State.takeLoops_keeps _ _) ?_
    | apply Keeps.next ?_ (State.takeRun_keeps _ _) ?_
    | apply Keeps.next ?_ (State.capturedItem_keeps _ _) ?_
    | decide
    | dsimp -zeta only

theorem State.serveJoin_keeps (s : State) (a1 : PlyJoin) :
    Keeps [.hop, .progs, .skein, .trace, .time, .ply, .rows, .brake, .host, .recorder] s (State.serveJoin s a1) := by
  unfold State.serveJoin
  with_reducible repeat' first
    | assumption
    | (extract_lets +onlyGivenNames z
       refine Keeps.let z ?_ ?_
       subst z
       rotate_left
       clear_value z
       revert z
       intro y hy
       rotate_left)
    | (extract_lets +onlyGivenNames z; revert z; intro y)
    | exact Keeps.rfl
    | refine Keeps.ite ?_ ?_
    | apply Keeps.next ?_ (State.sendJoin_keeps _) ?_
    | apply Keeps.next ?_ (State.setPlyState_keeps _ _) ?_
    | apply Keeps.next ?_ (State.sendAck_keeps _ _ _ _) ?_
    | apply Keeps.next ?_ (State.emit_keeps _ _) ?_
    | apply Keeps.next ?_ (State.sendOrder_keeps _ _ _ _ _) ?_
    | refine Keeps.upd ?_ List.prefix_rfl (Nat.le_refl _) id (fun p hp => by cases p <;> first | rfl | exact absurd (by decide) hp)
    | decide
    | dsimp -zeta only

theorem State.identify_keeps (s : State) (a1 : PlyJoin) :
    Keeps [.hop, .skein, .trace, .time, .ply, .rows, .brake, .host, .recorder] s (State.identify s a1) := by
  unfold State.identify
  with_reducible repeat' first
    | assumption
    | exact Keeps.rfl
    | refine Keeps.ite ?_ ?_
    | apply Keeps.next ?_ (State.failJoin_keeps _ _) ?_
    | apply Keeps.next ?_ (State.wr_keeps _ _ _) ?_
    | decide
    | dsimp -zeta only

theorem State.advanceJoin_keeps (s : State) (a1 : PlyJoin) :
    Keeps [.settings, .staged, .hop, .programs, .progs, .forces, .image, .turnNumber, .turn, .skein, .tasks, .loops, .trace, .ring, .time, .ply, .rows, .brake, .host, .recorder] s (State.advanceJoin s a1) := by
  unfold State.advanceJoin
  with_reducible repeat' first
    | assumption
    | (extract_lets +onlyGivenNames z
       refine Keeps.let z ?_ ?_
       subst z
       rotate_left
       clear_value z
       revert z
       intro y hy
       rotate_left)
    | exact Keeps.rfl
    | refine Keeps.ite ?_ ?_
    | apply Keeps.next ?_ (State.adoptImage_keeps _ _) ?_
    | apply Keeps.next ?_ (State.wr_keeps _ _ _) ?_
    | apply Keeps.next ?_ (State.adoptTime_keeps _ _) ?_
    | apply Keeps.next ?_ (State.adoptCapture_keeps _ _) ?_
    | split
    | decide
    | dsimp -zeta only

theorem execPlyJoinReceived_keeps (a0 : PlyHdr) (a1 : PlyJoin) (s : State) :
    Keeps [.settings, .staged, .hop, .programs, .progs, .forces, .image, .turnNumber, .turn, .skein, .tasks, .loops, .trace, .ring, .time, .ply, .rows, .brake, .host, .recorder] s (settle s (execPlyJoinReceived a0 a1 s)) := by
  unfold execPlyJoinReceived
  with_reducible repeat' first
    | assumption
    | (extract_lets +onlyGivenNames z
       refine Keeps.let z ?_ ?_
       subst z
       rotate_left
       clear_value z
       revert z
       intro y hy
       rotate_left)
    | (extract_lets +onlyGivenNames z; revert z; intro y)
    | exact Keeps.rfl
    | refine Keeps.iteO ?_ ?_
    | refine Keeps.ite ?_ ?_
    | refine Keeps.ok ?_
    | refine Keeps.ite1 ?_ ?_
    | (rename (_ : State × _) = _ => heq
       refine Keeps.pair heq ?_ ?_ <;> clear heq
       rotate_left
       intro hy
       rotate_left)
    | apply Keeps.next ?_ (State.plyTake_keeps _ _ _) ?_
    | apply Keeps.next ?_ (State.wr_keeps _ _ _) ?_
    | apply Keeps.next ?_ (State.wrb_keeps _ _ _) ?_
    | apply Keeps.next ?_ (State.serveJoin_keeps _ _) ?_
    | apply Keeps.next ?_ (State.advanceJoin_keeps _ _) ?_
    | apply Keeps.next ?_ (State.identify_keeps _ _) ?_
    | split
    | decide
    | dsimp -zeta only

end Sys2Proof.Machine
end

