-- ==== Sys2Proof/Laws/Seal.lean ====
section
/-! SUPPORT. Seals: a byte string with its seal appended checks (R389), and a number survives its bytes. -/

namespace Sys2Proof.Machine

theorem crcBit_lt (r : Nat) (h : r < 2 ^ 32) : crcBit r < 2 ^ 32 := by
  unfold crcBit
  split
  · exact Nat.xor_lt_two_pow (by rw [Nat.shiftRight_eq_div_pow]; omega) (by decide)
  · rw [Nat.shiftRight_eq_div_pow]; omega

theorem crcRun_lt : ∀ (b : Bytes) (r : Nat), r < 2 ^ 32 → crcRun r b < 2 ^ 32
  | [], _, h => h
  | d :: b, r, h => crcRun_lt b _ (by
      unfold crcFeed
      iterate 8 apply crcBit_lt
      exact Nat.xor_lt_two_pow h (by have := d.isLt; omega))

theorem leNat_leBytes : ∀ (len n : Nat), n < 256 ^ len → leNat (leBytes len n) = n
  | 0, n, h => by simp at h; simp [leBytes, leNat, h]
  | len + 1, n, h => by
      have := leNat_leBytes len (n >>> 8) (by rw [Nat.shiftRight_eq_div_pow]; rw [Nat.pow_succ] at h; omega)
      rw [leBytes, leNat, this, Nat.shiftRight_eq_div_pow]
      simp
      omega

/-- What is sealed checks. -/
theorem sealed_ok (b : Bytes) : sealOk (sealed b) = true := by
  have hl : (leBytes 4 (crc32c b)).length = 4 := by simp [leBytes]
  have h : crc32c b < 256 ^ 4 := Nat.xor_lt_two_pow (n := 32) (crcRun_lt b _ (by decide)) (by decide)
  simp [sealOk, sealed, hl, leNat_leBytes 4 _ h]

theorem beNat_append (a b : Bytes) : beNat (a ++ b) = beNat a * 256 ^ b.length + beNat b := by
  suffices h : ∀ (b : Bytes) (x : Nat), b.foldl (fun a x => a * 256 + x.toNat) x = x * 256 ^ b.length + beNat b by
    simp only [beNat, List.foldl_append]
    exact h b _
  intro b
  induction b with
  | nil => intro x; simp [beNat]
  | cons d b ih =>
    intro x
    simp only [List.foldl_cons, List.length_cons, beNat]
    rw [ih, ih (0 * 256 + d.toNat), Nat.pow_succ]
    ring

theorem beBytes_length : ∀ len n : Nat, (beBytes len n).length = len
  | 0, _ => rfl
  | len + 1, n => by simp [beBytes, beBytes_length len n]

/-- A number that fits its bytes is read back from them, the most significant first. -/
theorem beNat_beBytes : ∀ len n : Nat, beNat (beBytes len n) = n % 256 ^ len
  | 0, n => by simp [beBytes, beNat, Nat.mod_one]
  | len + 1, n => by
      have h : beBytes (len + 1) n = [BitVec.ofNat 8 (n >>> (8 * len))] ++ beBytes len n := rfl
      rw [h, beNat_append, beNat_beBytes len n, beBytes_length]
      have e : (2 : Nat) ^ (8 * len) = 256 ^ len := by rw [Nat.pow_mul]
      have d : beNat [BitVec.ofNat 8 (n >>> (8 * len))] = n / 256 ^ len % 256 := by
        rw [← e, ← Nat.shiftRight_eq_div_pow]
        exact (Nat.zero_add _).trans (BitVec.toNat_ofNat _ _)
      rw [d, Nat.pow_succ, Nat.mod_mul, Nat.add_comm, Nat.mul_comm]

/-- A byte that is 0 replaced by 0. -/
theorem setByte_zero (a c : Bytes) : setByte (a ++ [0] ++ c) a.length 0 = a ++ [0] ++ c := by
  simp [setByte]

/-- A ring frame as it is sent checks (R223). -/
theorem ringFrame_sealOk (type source flags alive part parts instant period : Nat) (payload : Bytes) :
    ringSealOk (ringFrame type source flags alive part parts instant period payload) = true := by
  have h : setByte (ringFrame type source flags alive part parts instant period payload) 10 0 =
      ringFrame type source flags alive part parts instant period payload := by
    have l : (beBytes 1 type ++ beBytes 1 source ++ beBytes 4 flags ++ beBytes 2 alive ++ beBytes 2 payload.length).length = 10 := by
      simp [beBytes_length]
    simp only [ringFrame, sealed, List.append_assoc] at l ⊢
    have m := setByte_zero (beBytes 1 type ++ (beBytes 1 source ++ (beBytes 4 flags ++ (beBytes 2 alive ++ beBytes 2 payload.length))))
    rw [l] at m
    simpa only [List.append_assoc] using m _
  rw [ringSealOk, h]
  exact sealed_ok _

end Sys2Proof.Machine
end

