-- ==== Sys2Proof/Laws/Twist.lean ====
section
/-! SUPPORT. What one instruction of Twist code does to its strand and its task (R127, R128): the laws of a strand's
registers and program counter, and of the operations every instruction goes through. -/

namespace Sys2Proof.Machine

/-- A register written reads as the value; g0 discards it. -/
theorem Strand.reg_setReg (x : Strand) (g r : Nat) (v : Word36) :
    (x.setReg g v).reg r = if r = g ∧ r ≠ 0 then v else x.reg r := by
  unfold Strand.setReg Strand.reg
  by_cases hg : g = 0
  · subst hg
    by_cases hr : r = 0 <;> simp [hr]
  · by_cases hr : r = 0
    · simp [hr]
    · by_cases h : r = g
      · subst h; simp [hr]
      · simp [hr, hg, h, SMap.getD, SMap.find_set_ne x.g (0#36) v (Ne.symm h)]

@[simp] theorem Strand.setReg_z (x : Strand) (g : Nat) (v : Word36) : (x.setReg g v).z = x.z := by unfold Strand.setReg; split <;> rfl
@[simp] theorem Strand.setReg_n (x : Strand) (g : Nat) (v : Word36) : (x.setReg g v).n = x.n := by unfold Strand.setReg; split <;> rfl
@[simp] theorem Strand.setReg_c (x : Strand) (g : Nat) (v : Word36) : (x.setReg g v).c = x.c := by unfold Strand.setReg; split <;> rfl
@[simp] theorem Strand.setReg_v (x : Strand) (g : Nat) (v : Word36) : (x.setReg g v).v = x.v := by unfold Strand.setReg; split <;> rfl
@[simp] theorem Strand.setReg_q (x : Strand) (g : Nat) (v : Word36) : (x.setReg g v).q = x.q := by unfold Strand.setReg; split <;> rfl
@[simp] theorem Strand.setReg_lt (x : Strand) (g : Nat) (v : Word36) : (x.setReg g v).lt = x.lt := by unfold Strand.setReg; split <;> rfl
@[simp] theorem Strand.setReg_pc (x : Strand) (g : Nat) (v : Word36) : (x.setReg g v).pc = x.pc := by unfold Strand.setReg; split <;> rfl
@[simp] theorem Strand.setReg_loops (x : Strand) (g : Nat) (v : Word36) : (x.setReg g v).loops = x.loops := by unfold Strand.setReg; split <;> rfl
@[simp] theorem Strand.setReg_calls (x : Strand) (g : Nat) (v : Word36) : (x.setReg g v).calls = x.calls := by unfold Strand.setReg; split <;> rfl
@[simp] theorem Strand.setReg_phase (x : Strand) (g : Nat) (v : Word36) : (x.setReg g v).phase = x.phase := by unfold Strand.setReg; split <;> rfl

@[simp] theorem Strand.jump_reg (x : Strand) (p r : Nat) : (x.jump p).reg r = x.reg r := rfl
@[simp] theorem Strand.jump_z (x : Strand) (p : Nat) : (x.jump p).z = x.z := rfl
@[simp] theorem Strand.jump_n (x : Strand) (p : Nat) : (x.jump p).n = x.n := rfl
@[simp] theorem Strand.jump_c (x : Strand) (p : Nat) : (x.jump p).c = x.c := rfl
@[simp] theorem Strand.jump_v (x : Strand) (p : Nat) : (x.jump p).v = x.v := rfl
@[simp] theorem Strand.jump_q (x : Strand) (p : Nat) : (x.jump p).q = x.q := rfl
@[simp] theorem Strand.jump_lt (x : Strand) (p : Nat) : (x.jump p).lt = x.lt := rfl
@[simp] theorem Strand.jump_calls (x : Strand) (p : Nat) : (x.jump p).calls = x.calls := rfl
@[simp] theorem Strand.jump_phase (x : Strand) (p : Nat) : (x.jump p).phase = x.phase := rfl
theorem Strand.jump_place (x : Strand) (p : Nat) : ((x.jump p).loops, (x.jump p).pc) =
    ((jumpLoops x.calls.length x.loops p).1, pcBits (jumpLoops x.calls.length x.loops p).2) := rfl

/-- A permitted access changes nothing. -/
theorem State.acAccess_true (s : State) (u k r a n : Nat) (h : (s.acAccess u k r a n).2 = true) :
    s.acAccess u k r a n = (s, true) := by
  unfold State.acAccess at h ⊢
  split at h <;> simp_all

/-- A permitted fetch changes nothing. -/
theorem State.fetchWord_true (s : State) (t j : Nat) (i : TaskInst) (x : Strand) (h : (s.fetchWord t j i x).2 = true) :
    s.fetchWord t j i x = (s, true) := State.acAccess_true _ _ _ _ _ _ h

/-- An instruction of a running strand whose word, but for its unused fields, the strand stands at and whose fetch is permitted. -/
theorem State.twist_running (s : State) (t : Fin 16) (j : Fin 8) (w : Nat) (f : State → TaskInst → Strand → State)
    {i : TaskInst} {x : Strand} (hs : s.strandOn t.val j.val = some (i, x)) (hw : wordCanon (i.word j.val x) = w)
    (hf : (s.fetchWord t.val j.val i x).2 = true) : s.twist t j w f = f s i x := by
  simp [State.twist, State.twistIf, hs, hw, State.fetchWord_true _ _ _ _ _ hf]

/-- A strand that stands at another word does nothing. -/
theorem State.twist_other (s : State) (t : Fin 16) (j : Fin 8) (w : Nat) (f : State → TaskInst → Strand → State)
    {i : TaskInst} {x : Strand} (hs : s.strandOn t.val j.val = some (i, x)) (hw : wordCanon (i.word j.val x) ≠ w) :
    s.twist t j w f = s := by
  simp [State.twist, State.twistIf, hs, hw]

/-- An instruction that only changes its strand. -/
theorem State.alu_running (s : State) (t : Fin 16) (j : Fin 8) (w : Nat) (f : Strand → Strand) {i : TaskInst} {x : Strand}
    (hs : s.strandOn t.val j.val = some (i, x)) (hw : wordCanon (i.word j.val x) = w) (hf : (s.fetchWord t.val j.val i x).2 = true) :
    s.alu t j w false f = s.putStrand t.val j.val i (f x).next := by
  simp [State.alu, State.twist_running s t j w _ hs hw hf]

/-- One that may trap and does not. -/
theorem State.aluTrap_running (s : State) (t : Fin 16) (j : Fin 8) (w : Nat) (code : Strand → Option Nat)
    (f : Strand → Strand) {i : TaskInst} {x : Strand} (hs : s.strandOn t.val j.val = some (i, x))
    (hw : wordCanon (i.word j.val x) = w) (hf : (s.fetchWord t.val j.val i x).2 = true) (hc : code x = none) :
    s.aluTrap t j w false code f = s.putStrand t.val j.val i (f x).next := by
  simp [State.aluTrap, State.twist_running s t j w _ hs hw hf, hc]

/-- A task written reads back. -/
@[simp] theorem State.task_setTask_same (s : State) (t : Nat) (x : TaskSt) : (s.setTask t x).task t = x := by
  simp [State.task, State.setTask]

/-- A task written leaves the others. -/
theorem State.task_setTask_ne (s : State) {t n : Nat} (x : TaskSt) (h : n ≠ t) : (s.setTask t x).task n = s.task n := by
  simp only [State.task, State.setTask]
  exact SMap.getD_put_ne _ _ _ (Ne.symm h)

end Sys2Proof.Machine
end

