-- ==== Sys2Proof/Machine/Shown.lean ====
section
/-! DEFINITION. What the module shows outward as a function of its state and of nothing else: its three LEDs (R488), the
attributes that an access carries (R405), and its identity in PCI configuration space (R318). -/

namespace Sys2Proof.Machine

/-- A pattern of an LED (R488). -/
inductive LedPattern where
  | off
  | redSteady
  | red1Hz
  | red4Hz
  | amberSteady
  | amber1Hz
  | amberFlash
  | greenSteady
  | green1Hz
  | green4Hz
  deriving DecidableEq, Repr

/-- The first pattern whose condition holds. -/
def firstShown (rows : List (Bool × LedPattern)) (otherwise : LedPattern) : LedPattern :=
  ((rows.find? (fun r => r.1)).map (fun r => r.2)).getD otherwise

/-- A cold start is in progress (R463): the module rises, and its turn engine has not run since. [log 19 DEDUCED] -/
def State.coldStarting (s : State) : Bool :=
  s.on F.PWR_STATUS_moving && decide (s.rd F.PWR_STATUS_target < s.rd F.PWR_STATUS_rung) && s.plyState == 0 &&
    !s.on F.TURN_STATUS_running

/-- The health LED (R488); unpowered, it is off. [log 19 DEDUCED] -/
def State.healthLed (s : State) : LedPattern :=
  let rung := s.rd F.PWR_STATUS_rung
  if rung == 7 then .off
  else firstShown
    [(s.fw.recovery || s.rd F.FW_STATUS_lifecycle == 3, .red4Hz),
     (s.plyState == 6 || s.on F.TURN_WDOG_tripped, .redSteady),
     (bitOf (s.rd F.PWR_EVT_evt) 5 || s.on F.PWR_STATUS_keep_lost || s.on F.PWR_STATUS_cell_low ||
       s.on F.TIME_STATUS_refclk_lost, .amberSteady),
     (rung == 6, .amberFlash),
     (decide (2 ≤ rung) && decide (rung ≤ 5), .amber1Hz),
     (s.coldStarting, .green1Hz)] .greenSteady

/-- The role LED (R488); the rows of the states come before the row of the low rungs. Unpowered, it is off.
[log 19 DEDUCED] -/
def State.roleLed (s : State) : LedPattern :=
  if s.rd F.PWR_STATUS_rung == 7 then .off
  else
    match s.plyState with
    | 1 => .green1Hz
    | 2 => .greenSteady
    | 3 => .amber1Hz
    | 4 => .amberSteady
    | 5 => .redSteady
    | 6 => .red1Hz
    | _ => .off

/-- The service LED (R488); unpowered, it is off. [log 19 DEDUCED] -/
def State.serviceLed (s : State) : LedPattern :=
  let fw := s.rd F.FW_STATUS_state
  if s.rd F.PWR_STATUS_rung == 7 then .off
  else firstShown
    [(fw == 1 || fw == 3 || (s.fw.recovery && s.fw.build.isSome), .green4Hz),
     (s.rd F.FW_STATUS_confirm == 1, .amber1Hz),
     (s.plyState != 1 && s.plyState != 2, .amberSteady),
     (s.on F.SVC_STATUS_open, .greenSteady),
     (decide (2 ≤ s.rd F.FW_STATUS_last_result), .red1Hz)] .off

/-- The attributes cache and order of a byte in unit u (R405): those of the lowest-numbered enabled region that contains
it, else the unit's defaults. [log 98 DESIGN CHOICE] -/
def State.byteAttributes (s : State) (u a : Nat) : Bool × Bool :=
  match (s.acRegions u).find? (fun n => decide (s.acBase u n ≤ a) && decide (a ≤ s.acLimit u n)) with
  | some n => (s.aon (F.AC_BASE_LO_cache u n), s.aon (F.AC_BASE_LO_order u n))
  | none => (s.aon (F.AC_CTRL_def_cache u), s.aon (F.AC_CTRL_def_order u))

/-- The attributes cache and order that an access carries (R405): the strictest among its bytes. In the DMA unit, unit 3,
they are No Snoop and Relaxed Ordering of the TLP; the DEBUG and SPINDLE units, 1 and 2, ignore both.
[log 98 DESIGN CHOICE] -/
def State.accessAttributes (s : State) (u a len : Nat) : Bool × Bool :=
  if u == 1 || u == 2 then (false, false)
  else ((upTo len).all (fun i => (s.byteAttributes u (a + i)).1), (upTo len).all (fun i => (s.byteAttributes u (a + i)).2))

/-- What the one PCI function names itself by (R318): vendor and subsystem from ID_VENDOR, the device, the class code, the
revision from ID_BUILD, and the Device Serial Number. -/
structure PciIdentity where
  vendor : Nat
  subsystem : Nat
  device : Nat
  classCode : Nat
  revision : Nat
  serial : Nat
  deriving DecidableEq, Repr

/-- The identity of the function (R318, R359). -/
def pciIdentity : PciIdentity :=
  { vendor := 0x1FB7, subsystem := 0x0018, device := 0x0018, classCode := 0x0B4000,
    revision := Config.idBuild.toNat % 256, serial := Config.moduleIdent.toNat }

end Sys2Proof.Machine
end

