-- ==== Sys2Proof/WellFormed.lean ====
section
/-! DEFINITION. When a command is well formed: the shape of its operands that their types do not already fix. -/

namespace Sys2Proof

/-- A descriptor is 64 bytes, 40 of them operands (R326). -/
def Desc.wf (d : Desc) : Bool := d.ops.length == 40

/-- A command of a ring: its descriptor is 64 bytes and what was read from its buffer is no longer than it. -/
def HostCmd.wf (c : HostCmd) : Bool := c.desc.wf && decide (c.data.length ≤ c.desc.len.toNat)

/-- A host command that reaches the module as the row of one opcode (R331). -/
def HostCmd.wfOp (c : HostCmd) (op : Nat) : Bool := c.wf && c.desc.op.toNat == op

/-- The payload lengths of a CAN and a CAN FD frame (R367). -/
def canLengths (fdf : Bool) : List Nat :=
  if fdf then [0, 1, 2, 3, 4, 5, 6, 7, 8, 12, 16, 20, 24, 32, 48, 64] else [0, 1, 2, 3, 4, 5, 6, 7, 8]

/-- A CAN frame: a base identifier has 11 bits, an FD frame is no remote frame, and the length is one of the
format's (R367). -/
def CanFrame.wf (f : CanFrame) : Bool :=
  (f.ide || decide (f.id.toNat < 2048)) && !(f.fdf && f.rtr) && (f.fdf || !f.brs) &&
    (canLengths f.fdf).contains f.data.length

/-- A message write carries the 18 words of R133. -/
def HostWrite.wf : HostWrite → Bool
  | .mill _ _ words => words.length == 18
  | .slot _ _ => true
  | .loop _ target manual mode => target.isSome || manual.isSome || mode.isSome
  | .soft _ => true
  | .prog _ _ _ _ => true

/-- Is a command well formed? A constructor not named here has operands whose types say it all. -/
def Instr.wf : Instr → Bool
  | .cmdNop c => c.wfOp 0x00
  | .cmdSigRead c => c.wfOp 0x10
  | .cmdSigWrite c => c.wfOp 0x11
  | .cmdSlotStatus c => c.wfOp 0x12
  | .cmdLoopRead c => c.wfOp 0x20
  | .cmdLoopWrite c => c.wfOp 0x21
  | .cmdForce c => c.wfOp 0x30
  | .cmdUnforce c => c.wfOp 0x31
  | .cmdForceList c => c.wfOp 0x32
  | .cmdStageRegs c => c.wfOp 0x40
  | .cmdStageSlots c => c.wfOp 0x41
  | .cmdCheck c => c.wfOp 0x42
  | .cmdCommit c => c.wfOp 0x43
  | .cmdDiscard c => c.wfOp 0x44
  | .cmdProgLoad c => c.wfOp 0x50
  | .cmdProgRead c => c.wfOp 0x51
  | .cmdLogRead c => c.wfOp 0x60
  | .cmdLogErase c => c.wfOp 0x61
  | .cmdFwManifest c => c.wfOp 0x70
  | .cmdFwDelta c => c.wfOp 0x71
  | .cmdFwActivate c => c.wfOp 0x72
  | .cmdFwConfirm c => c.wfOp 0x73
  | .cmdMillSend c => c.wfOp 0x80
  | .cmdMillRead c => c.wfOp 0x81
  | .doorbellReadEnd _ page cmds => page.length == 128 && cmds.all HostCmd.wf
  | .millFrameReceived _ f => f.wf
  | .reachReceived _ reach => reach.length == 16
  | .millSnapReceived _ _ _ words => words.length == 18
  | .hostWriteReceived _ _ writes => writes.all HostWrite.wf
  | .stateReceived _ _ _ _ words => decide (words.length ≤ 510)
  | .lowWordRead off aligned => !aligned || off.toNat % 4 == 0
  | .bar2Access _ len wdata _ => match wdata with
    | none => true
    | some b => b.length == len.val
  | _ => true

end Sys2Proof
end

