-- ==== Sys2Proof/Tests/Slice0.lean ====
section
/-! SUPPORT. Tests: terms that the well-formedness checks refuse, small steps worked from the spec, and for every statement
states and operands that meet its hypotheses. -/

namespace Sys2Proof.Tests

open Sys2Proof Sys2Proof.Machine

set_option Elab.async false

/-! Helpers: a state with registers written, with settings committed, and a byte string with bytes set. -/

/-- Register fields written. -/
def wrs (l : List (Fld × Nat)) (s : State) : State := l.foldl (fun s e => s.wr e.1 e.2) s
/-- Settings in force. -/
def cfg (l : List (Fld × Nat)) (s : State) : State :=
  { s with hop := { s.hop with active := l.foldl (fun m e => RegMap.set m e.1 e.2) s.hop.active } }
/-- A byte string of a length, zero but for the bytes listed. -/
def bytesOf (len : Nat) (l : List (Nat × Nat)) : Bytes := (List.range len).map (fun i => BitVec.ofNat 8 ((l.lookup i).getD 0))

/-- The state that a command leaves. -/
def after (c : Instr) (s : State) : State :=
  match exec c s with
  | .next t => t
  | _ => s

/-! Well-formedness: each check refuses an ill-formed term. -/

/-- A command in ring 2: opcode, flags, operand bytes, buffer address, length and content. -/
def cmd (op flags : Nat) (ops : Bytes) (buf len : Nat) (data : Bytes) (ring : Fin 4 := 2) : HostCmd :=
  { ring, desc := { op := BitVec.ofNat 16 op, flags := BitVec.ofNat 8 flags, byte3 := 0, tag := 77, buf := BitVec.ofNat 64 buf,
                    len := BitVec.ofNat 32 len, rsv := 0, ops }, data, dmaOk := true }

theorem test_wf_descriptor : (cmd 0 0 (bytesOf 40 []) 0 0 []).wf = true ∧ (cmd 0 0 (bytesOf 39 []) 0 0 []).wf = false ∧
    (cmd 0 0 (bytesOf 40 []) 0 3 [1, 2, 3, 4]).wf = false := by decide

theorem test_wf_opcode (n : Fin 24) :
    let op := [0x00, 0x10, 0x11, 0x12, 0x20, 0x21, 0x30, 0x31, 0x32, 0x40, 0x41, 0x42, 0x43, 0x44, 0x50, 0x51, 0x60, 0x61,
      0x70, 0x71, 0x72, 0x73, 0x80, 0x81].getD n.val 0
    let row := fun (c : HostCmd) => [Instr.cmdNop c, .cmdSigRead c, .cmdSigWrite c, .cmdSlotStatus c, .cmdLoopRead c,
      .cmdLoopWrite c, .cmdForce c, .cmdUnforce c, .cmdForceList c, .cmdStageRegs c, .cmdStageSlots c, .cmdCheck c,
      .cmdCommit c, .cmdDiscard c, .cmdProgLoad c, .cmdProgRead c, .cmdLogRead c, .cmdLogErase c, .cmdFwManifest c,
      .cmdFwDelta c, .cmdFwActivate c, .cmdFwConfirm c, .cmdMillSend c, .cmdMillRead c].getD n.val .dbgStatus
    (row (cmd op 0 (bytesOf 40 []) 0 0 [])).wf = true ∧ (row (cmd (op + 0x100) 0 (bytesOf 40 []) 0 0 [])).wf = false := by
  revert n; decide +kernel

theorem test_wf_frame : (⟨2047, false, false, false, true, []⟩ : CanFrame).wf = true ∧
    (⟨2048, false, false, false, false, []⟩ : CanFrame).wf = false ∧
    (⟨5, true, true, false, true, []⟩ : CanFrame).wf = false ∧ (⟨5, true, false, true, false, []⟩ : CanFrame).wf = false ∧
    (⟨5, true, false, false, false, bytesOf 9 []⟩ : CanFrame).wf = false ∧
    (Instr.millFrameReceived 0 ⟨5, true, true, false, false, bytesOf 9 []⟩).wf = false := by decide

theorem test_wf_host_writes (h : PlyHdr) (b : BitVec 64) :
    (Instr.hostWriteReceived h b [.mill 0 0 [1]]).wf = false ∧ (Instr.hostWriteReceived h b [.loop 0 none none none]).wf = false ∧
    (Instr.hostWriteReceived h b [.loop 0 none none (some 3), .slot 1 2]).wf = true :=
  ⟨rfl, rfl, rfl⟩

theorem test_wf_lengths (h : PlyHdr) (b : BitVec 64) (f : BitVec 32)
    (big : List (BitVec 64)) (long : big.length = 511) :
    (Instr.reachReceived h [1]).wf = false ∧ (Instr.millSnapReceived h 1 63 []).wf = false ∧
    (Instr.stateReceived h 0 b f big).wf = false ∧
    (Instr.bar2Access 0 4 (some [1]) false).wf = false :=
  ⟨rfl, rfl, by simp [Instr.wf, long], rfl⟩

theorem test_wf_doorbell :
    (Instr.doorbellReadEnd true (bytesOf 127 []) []).wf = false ∧
    (Instr.doorbellReadEnd true (bytesOf 128 []) [cmd 0 0 [] 0 0 []]).wf = false ∧
    (Instr.lowWordRead 6 true).wf = false := by decide +kernel

/-! Twist code. -/

/-- A program of one strand of one word, with 20 words of data that the strand owns and one indexed access up to 3. -/
def progOf (w : Nat) : Bytes :=
  bytesOf 304 ([(7, 1), (12, 20), (32, 1), (82, 20), (120, 1), (140, 3)] ++ (List.range 8).map (fun m => (128 + m, w / 256 ^ m)))
/-- The program whose word is that of an instruction. -/
def progAt (a : Instr) : Bytes := progOf ((twistWord a).getD 0)
/-- A strand at its first word: g1 is 3, g2 the least number and g3 the greatest. -/
def strand1 : Strand :=
  { Strand.start with g := [(1, 3), (2, 0x800000000), (3, 0x7FFFFFFFF)], loops := [⟨0, 3, 2, 1, 1⟩], calls := [9], phase := .running }
/-- An instance of task 15 of the sample of turn 5. -/
def instOf (b : Bytes) : TaskInst :=
  { prog := b, sample := 5, period := 1, first := true, prevSlip := false, phase := .running,
    view := [(4, ⟨0x3FFFF, 0⟩), (5, ⟨3, 3⟩)], nodes := [], mbr := [(127, some ([7], 2))], out := [], data := [], loopWrites := [],
    mbq := [], spindles := [0], strands := [strand1], carry := none }
/-- A module that runs it. -/
def runningOf (b : Bytes) : State :=
  { State.reset with tasks := { State.reset.tasks with task := [(15, { TaskSt.fresh with inst := some (instOf b) })] } }
/-- An instruction stands at the strand's program counter, and its strand runs. -/
def Stood (a : Instr) : Prop :=
  Running (runningOf (progAt a)) 15 0 (instOf (progAt a)) strand1 ∧ Stands a (instOf (progAt a)) 0 strand1

/-- Every statement about a step of Twist code is met by a strand of task 15. -/
theorem stood_of (l : List Instr) (h : (l.all (fun a => decide ((runningOf (progAt a)).strandOn 15 0 = some (instOf (progAt a), strand1)) &&
    ((runningOf (progAt a)).fetchWord 15 0 (instOf (progAt a)) strand1).2 &&
    decide (twistWord a = some (wordCanon ((instOf (progAt a)).word 0 strand1))))) = true) : ∀ a ∈ l, Stood a := by
  intro a ha
  have h' := List.all_eq_true.mp h a ha
  simp only [Bool.and_eq_true, decide_eq_true_eq] at h'
  exact ⟨⟨h'.1.1, h'.1.2⟩, h'.2⟩

theorem witness_TwistArithmetic : (∀ a ∈ [Instr.twAdd 15 0 5 3 1 false, .twSub 15 0 5 1 2 false, .twAddi 15 0 5 1 0xFFFFF false,
    .twCmp 15 0 1 2 false, .twCmpi 15 0 1 7 false, .twAdds 15 0 5 3 1 false, .twSubs 15 0 5 3 1 false, .twAbs 15 0 5 2 false,
    .twNeg 15 0 5 2 false, .twDiv 15 0 5 2 1 false], Stood a) ∧ (strand1.reg 1).toInt ≠ 0 :=
  ⟨stood_of _ (by decide +kernel), by decide⟩

theorem witness_TwistLogicAndShifts : ∀ a ∈ [Instr.twAnd 15 0 5 2 3, .twOr 15 0 5 2 3, .twXor 15 0 5 2 3, .twAndn 15 0 5 2 3,
    .twMin 15 0 5 2 3, .twMax 15 0 31 2 3, .twAndi 15 0 5 2 0xFFFFF, .twOri 15 0 5 2 1, .twXori 15 0 5 2 1,
    .twShl 15 0 5 2 1 false, .twShr 15 0 5 2 1, .twSar 15 0 5 2 3, .twShi 15 0 5 2 (BitVec.ofNat 20 35) false,
    .twShi 15 0 5 2 (BitVec.ofNat 20 (64 + 35)) false, .twShi 15 0 5 2 (BitVec.ofNat 20 (128 + 35)) false], Stood a :=
  stood_of _ (by decide +kernel)

theorem witness_TwistProductsAndMoves : (∀ a ∈ [Instr.twMul 15 0 5 2 3 false, .twMulq 15 0 5 2 3 false, .twSatq 15 0 5 2,
    .twDivq 15 0 5 2 1 false, .twSel 15 0 5 2 3, .twRdf 15 0 5, .twClq 15 0, .twLui 15 0 5 0xFFFFF, .twLix 15 0 5, .twNop 15 0],
    Stood a) ∧ (strand1.reg 1).toInt ≠ 0 ∧ ∃ f fs, strand1.loops = f :: fs :=
  ⟨stood_of _ (by decide +kernel), by decide, _, _, rfl⟩

/-- The words of a defined and of an undefined encoding, and ABS with a word in its unused field. -/
theorem witness_TwistWordsDecode : wordOk (0xDC0000000 : Word36).toNat = true ∧ wordOk (0xFC0000000 : Word36).toNat = false ∧
    twistWord (.twEnd 15 0) = some 0xD40000000 ∧ wordOk 0xD40000000 = true ∧
    decodeTwist 15 0 (0x00A119C00 : Word36) = some (.twAbs 15 0 5 1 false) := by decide +kernel

/-- The greatest index, the greatest node, the outermost window register, and the last address at which a message fits. -/
theorem witness_TwistReads : (∀ a ∈ [Instr.twLds 15 0 5 1 0x3FFFF false, .twLde 15 0 5 0 4 false, .twTag 15 0 5 0 5 false,
    .twLpr 15 0 5 1 7 0xFFF false, .twWinb 15 0 5 30 15 0xFFFF false, .twMbr 15 0 0 0 63 2 false, .twMbr 15 0 0 1 63 2 false], Stood a) ∧
    Indexes (instOf (progOf 0)) 0 strand1 0 0 ∧ Indexes (instOf (progAt (.twLds 15 0 5 1 0x3FFFF false))) 0 strand1 1 3 ∧
    (strand1.reg 0).toInt + ((2#16).toNat : Int) = (2 : Int) ∧ 2 + 18 ≤ progDataWords (progAt (.twMbr 15 0 0 1 63 2 false)) ∧
    (∀ m < 18, ownsWord (progAt (.twMbr 15 0 0 1 63 2 false)) 0 (2 + m) = true) ∧
    SMap.getD (instOf (progAt (.twMbr 15 0 0 0 63 2 false))).mbr (0 * 64 + 63) none = none ∧
    SMap.getD (instOf (progAt (.twMbr 15 0 0 1 63 2 false))).mbr (1 * 64 + 63) none = some ([7], 2) :=
  ⟨stood_of _ (by decide +kernel), .inl (by decide), .inr ⟨by decide, 3, by decide +kernel⟩, by decide +kernel⟩

theorem witness_TwistWritesOfTheView : (∀ a ∈ [Instr.twSts 15 0 2 1 3 0x3FFFF, .twLpw 15 0 1 1 2 5, .twLpw 15 0 1 1 7 5,
    .twLpw 15 0 1 1 6 5, .twTrd 15 0 5 0, .twTrd 15 0 5 4, .twTrd 15 0 5 6, .twTrd 15 0 5 7, .twLdw 15 0 5 0 19 false,
    .twStw 15 0 3 0 19, .twMbq 15 0 0 1 63 2 false], Stood a) ∧ (strand1.reg 1).toNat < 4 ∧
    Indexes (instOf (progAt (.twSts 15 0 2 1 3 0x3FFFF))) 0 strand1 1 3 ∧
    (let b := progAt (.twStw 15 0 3 0 19)
     (strand1.reg 0).toInt + ((19#16).toNat : Int) = (19 : Int) ∧ 19 + 1 ≤ progDataWords b ∧ ownsWord b 0 19 = true ∧
      ((runningOf b).dataAccess 15 0 0 19 1 (instOf b)).2 = true ∧ ((runningOf b).dataAccess 15 0 1 19 1 (instOf b)).2 = true) ∧
    (let b := progAt (.twMbq 15 0 0 1 63 2 false)
     (strand1.reg 0).toInt + ((2#16).toNat : Int) = (2 : Int) ∧ 2 + 18 ≤ progDataWords b ∧
      ((runningOf b).readWord 15 0 (instOf b) (2 + 1)).toNat ∈ [0, 1, 2, 3, 4, 5, 6, 7, 8, 12, 16, 20, 24, 32, 48, 64]) :=
  ⟨stood_of _ (by decide +kernel), by decide, .inr ⟨by decide, 3, by decide +kernel⟩, by decide +kernel⟩

/-- A count at the bound, and a count of 0. -/
theorem witness_TwistBranchesLoopsAndCalls : (∀ a ∈ [Instr.twBr 15 0 11 0xFFFF, .twBr 15 0 12 0, .twBtag 15 0 0 3 63 9,
    .twBtag 15 0 1 3 63 9, .twBtag 15 0 2 3 63 9, .twBtag 15 0 3 3 63 9, .twLoop 15 0 1 2 5, .twLoop 15 0 0 2 5,
    .twCall 15 0 300, .twRet 15 0], Stood a) ∧ (strand1.reg 0).toInt = 0 ∧ (strand1.reg 1).toInt = ((3 : Nat) : Int) ∧
    3 ≤ (2#12).toNat + 1 ∧ strand1.calls = [9] ∧ strand1.calls.length < 8 ∧ strand1.loops.length < 4 ∧ 12 ≤ (12#4).toNat :=
  ⟨stood_of _ (by decide +kernel), by decide⟩

theorem witness_TwistEndsAndTraps : (∀ a ∈ [Instr.twEnd 15 0, .twTrap 15 0 255, .twDiv 15 0 5 1 0 true, .twDivq 15 0 5 1 0 false,
    .twBr 15 0 15 0, .twAdd 15 0 5 1 2 true, .twSub 15 0 5 1 2 true, .twCmp 15 0 1 2 true, .twMul 15 0 5 1 2 true,
    .twAddi 15 0 5 1 2 true, .twCmpi 15 0 1 2 true], Stood a) ∧ strand1.reg 0 = 0 ∧
    (Running (runningOf (progOf 0xFC0000000)) 15 0 (instOf (progOf 0xFC0000000)) strand1 ∧
      wordOk ((instOf (progOf 0xFC0000000)).word 0 strand1) = false) :=
  ⟨stood_of _ (by decide +kernel), by decide, ⟨by decide +kernel, by decide +kernel⟩, by decide +kernel⟩

/-- Strand 0 of task 15 after an instruction that stands at its program counter. -/
def ran (c : Instr) : Strand := (((after c (runningOf (progAt c))).task 15).inst.bind (·.strands[0]?)).getD Strand.start
/-- Its register and the flags Z, N, C, V, Q. -/
def seen (x : Strand) (r : Nat) : Nat × List Bool := ((x.reg r).toNat, [x.z, x.n, x.c, x.v, x.q])

theorem test_add_overflows : seen (ran (.twAdd 15 0 5 3 1 false)) 5 = (0x800000002, [false, true, false, true, false]) := by
  decide +kernel
theorem test_sub_borrows : seen (ran (.twSub 15 0 5 1 2 false)) 5 = (0x800000003, [false, true, true, true, false]) := by
  decide +kernel
theorem test_adds_saturates : seen (ran (.twAdds 15 0 5 3 1 false)) 5 = (0x7FFFFFFFF, [false, false, false, true, true]) := by
  decide +kernel
theorem test_abs_of_the_least : seen (ran (.twAbs 15 0 5 2 false)) 5 = (0x7FFFFFFFF, [false, false, false, true, true]) := by
  decide +kernel
theorem test_satq : seen (ran (.twSatq 15 0 5 2)) 5 = (0xFFFFE0000, [false, true, false, false, true]) := by decide +kernel
theorem test_shl_out : seen (ran (.twShl 15 0 5 2 1 false)) 5 = (0, [true, false, false, false, false]) := by decide +kernel
theorem test_sar_by_more : seen (ran (.twSar 15 0 5 2 3)) 5 = (0xFFFFFFFFF, [false, true, true, false, false]) := by
  decide +kernel
theorem test_g0_discards : seen (ran (.twLui 15 0 0 5)) 0 = (0, [false, false, false, false, false]) := by decide +kernel
theorem test_lds_takes_the_tag : seen (ran (.twLds 15 0 5 0 4 false)) 5 = (0xFFFFFFFFF, [false, true, false, false, false]) ∧
    (ran (.twTag 15 0 5 0 5 false)).lt = 3 := by decide +kernel
theorem test_winb : seen (ran (.twWinb 15 0 5 6 2 1 false)) 5 = (7, [false, false, false, false, false]) := by decide +kernel
theorem test_call : ((ran (.twCall 15 0 300)).pc, (ran (.twCall 15 0 300)).calls) = (300, [1, 9]) := by decide +kernel
theorem test_div_by_zero_traps :
    (after (.twDiv 15 0 5 1 0 false) (runningOf (progAt (.twDiv 15 0 5 1 0 false)))).rd (F.TRAP_INFO_code 15) = 1 := by decide +kernel
theorem test_another_word_stays :
    after (.twAdd 15 0 5 3 1 false) (runningOf (progAt (.twNop 15 0))) = runningOf (progAt (.twNop 15 0)) := by decide +kernel

/-! The turn, the image and the loops. -/

/-- A module that is LONE, and one that is STANDBY beside an active on a link that is up. -/
def lone : State := wrs [(F.PLY_STATUS_state, 1), (F.TURN_STATUS_running, 1)] State.reset
def standby : State :=
  wrs [(F.PLY_STATUS_state, 4), (F.TURN_STATUS_running, 1), (F.PLY_STATUS_link, 2), (F.PLY_STATUS_partner_state, 2)] State.reset
/-- An active beside a standby on a link that is up. -/
def active : State :=
  wrs [(F.PLY_STATUS_state, 2), (F.TURN_STATUS_running, 1), (F.PLY_STATUS_link, 2), (F.PLY_STATUS_partner_state, 4)] State.reset
/-- A ply frame with a good seal. -/
def hdr : PlyHdr := ⟨true, true, true, true, 65535, 0⟩

theorem witness_TurnEngineRuns :
    (let s := { State.reset with time := { TimeSt.cold with workSet := true, work := 10 ^ 9 * 2 ^ 32 - 1 } }
     s.rd F.TURN_STATUS_running ≠ 1 ∧ s.time.workSet = true ∧
      ¬(s.rd F.PLY_STATUS_link = 2 ∧ s.rd F.PLY_STATUS_partner_state ∈ [1, 2])) ∧
    (let s := wrs [(F.SK_STATUS_link 15, 2)] { lone with turn := { lone.turn with k := 15 } }
     let w := { s with tasks := { s.tasks with flushWanted := true } }
     s.rd F.TURN_STATUS_running = 1 ∧ s.rd (F.SK_STATUS_link 15) = 2 ∧ (s.turn.k + 1) % 16 = 0 ∧ s.pd .skein = true ∧
      w.rd F.TURN_STATUS_running = 1 ∧ w.tasks.flushing = none ∧ w.tasks.flushWanted = true) := by decide +kernel

theorem test_turn_engine_starts_on_a_second :
    (after .turnEngineStart { State.reset with time := { TimeSt.cold with workSet := true, work := 5 * 10 ^ 9 * 2 ^ 32 - 1 } }
      ).turn.origin = 4 * 10 ^ 9 * 2 ^ 32 := by decide +kernel

/-- A module whose station 47 is due, has not been heard and feeds the last slot under one of the policies. -/
def due (policy : Nat) : State :=
  cfg [(F.STATION_MAP_0_present 47, 1), (F.SLOT_POL_0_kind 262143, 1), (F.SLOT_POL_SRC_peer 262143, 47),
    (F.SLOT_POL_0_policy 262143, policy), (F.SLOT_POL_SUBST_subst 262143, 0x3FFFF)] lone

theorem witness_InputCutoffSubstitutes (p : Fin 3) :
    (due p.val).rd F.TURN_STATUS_running = 1 ∧ (due p.val).pd .skein = true ∧ (due p.val).replaying = false ∧ (due p.val).turn.cutoffs ≤ (due p.val).turn.k ∧
    47 ∈ (due p.val).stations ∧ (due p.val).turn.k % (due p.val).stationP 47 = 0 ∧ 47 ∉ (due p.val).image.got ∧
    262143 ∈ (due p.val).slotsOf 1 47 ∧ (due p.val).act (F.SLOT_POL_0_policy 262143) = p.val ∧
    SMap.find (due p.val).image.forces 262143 = none := by revert p; decide +kernel

theorem test_substitution : ((after .inputCutoff (due 1)).cell 262143).entry = ⟨0x3FFFF, 2⟩ := by decide +kernel

/-- A result held for the release instant of the present turn. -/
def holding : State := { lone with turn := { lone.turn with held := [⟨16, 0, 0, [(9, ⟨7, 0⟩)], [], [(127, [0])]⟩] } }

theorem witness_ReleaseInstantReleases : holding.rd F.TURN_STATUS_running = 1 ∧ holding.pd .skein = true ∧
    holding.turn.nextRel ≤ holding.turn.k ∧ holding.replaying = false ∧
    holding.turn.held.filter (fun h => decide (h.turn ≤ holding.turn.nextRel)) = holding.turn.held ∧
    holding.turn.latches = [] ∧ holding.plyState = 1 ∧ holding.tasks.overrunNext = none ∧
    ∀ h ∈ holding.turn.held, ∀ e ∈ h.mill, e.1 < 128 := by decide +kernel

/-- A module with a slack target of 100 ns at the highest supply and a least slack recorded. -/
def slack (ns : Nat) : State :=
  wrs [(F.VCORE_STATUS_vcore_mv, 850), (F.VCORE_STATUS_at_floor, 0), (F.VCORE_STATUS_at_ceiling, 1)]
    (cfg [(F.SLACK_TARGET_target_ns, 100)] { lone with turn := { lone.turn with leastSlack := some ns } })

/-- Slacks just below the target, at the edges of its band and just above it. -/
theorem witness_SlackRegulatedAndCleared : (slack 0).rd F.VCORE_STATUS_vcore_mv = 850 ∧ (slack 0).pd .bins = true ∧
    (slack 0).turn.slipSeen = false ∧ State.reset.turn.leastSlack = none ∧
    (slack 0).act F.SLACK_TARGET_target_ns = 100 ∧ (slack 0).act F.SLACK_TARGET_hyst_ns = 50 ∧
    99 < 100 ∧ 100 ≤ 150 ∧ 150 ≤ 100 + 50 ∧ 100 + 50 < 151 := by decide +kernel

theorem test_supply_falls_above_the_band :
    [99, 100, 150, 151].map (fun n => (after .regulationIntervalEnd (slack n)).rd F.VCORE_STATUS_vcore_mv) =
      [850, 850, 850, 845] := by decide +kernel

/-- A module with an evaluation of loop 4095 outstanding at the deadline of turn 9. -/
def evaluating : State :=
  cfg [(F.TURN_LATENCY_n_turns, 2)] { lone with turn := { lone.turn with k := 9, nextDl := 9, evals := [(8, 4095)] } }

theorem witness_FaultsAndSlips : State.reset.rd F.FAULT_RECORD_kind = 0 ∧
    (wrs [(F.FAULT_RECORD_kind, 1)] standby).rd F.FAULT_RECORD_kind ≠ 0 ∧ lone.plyState = 1 ∧ active.plyState = 2 ∧
    standby.plyState = 4 ∧ State.reset.turn.faultTick ≠ some State.reset.time.ticks ∧ evaluating.replaying = false ∧ evaluating.evalNext 4095 = some 8 ∧ evaluating.rd F.TURN_STATUS_running = 1 ∧
    evaluating.turn.nextDl ≤ evaluating.turn.k ∧ evaluating.nTurns ≤ evaluating.turn.nextDl + 1 ∧
    (∃ e ∈ evaluating.turn.evals, e.1 = evaluating.turn.nextDl + 1 - evaluating.nTurns ∧ e.2 % 128 / 16 = 7) ∧
    ¬∃ e ∈ evaluating.turn.evals, e.1 = evaluating.turn.nextDl + 1 - evaluating.nTurns ∧ e.2 % 128 / 16 = 0 := by decide +kernel

/-- A module whose last slot the host writes. -/
def hostSlot : State := cfg [(F.SLOT_POL_0_kind 262143, 3)] lone

/-- A module whose HOST unit's region 0 is enabled over everything and permits nothing. -/
def forbid : State := cfg [(F.AC_BASE_LO_enable 0 0, 1), (F.AC_LIMIT_HI_addr 0 0, 3)] lone

theorem witness_ImageWrittenForcedAndRead :
    (0 ≤ hostSlot.nowTurn ∧ hostSlot.slotKind (0x3FFFF#18).toNat = 3) ∧
    (let o : Order := ⟨true, 2, 0, 0, .force [(9, some 5), (262143, none)], true⟩
     o.code = 2 ∧ o.acked = true ∧ o.boundary ≤ active.nowTurn ∧ o.content = .force [(9, some 5), (262143, none)] ∧
      ([((9 : BitVec 18), some (5 : Sample)), (262143, none)].map Prod.fst).Nodup) ∧
    State.reset.pd (blockPd (0x5020#20).toNat) = true ∧ highWords 0x5020 = [0x5024, 0x5028, 0x502C] ∧
    unjudged 0x5020 0 0 = false ∧ (State.reset.acAccess 0 0 0 (0x200000000 + 0x5020) 4).2 = true ∧
    unjudged 0xC010 0 0 = true ∧ (forbid.acAccess 0 0 0 (0x200000000 + 0x5020) 4).2 = false := by decide +kernel

/-- A started loop 4095 in AUTO at target 5, evaluated on a measurement of 2. -/
def looping : State :=
  let s := { evaluating with loops := [(4095, { LoopSt.fresh with started := true, target := 5 })] }
  cfg [(F.LOOP_KP_m 4095, 0x10000), (F.LOOP_KP_e 4095, 17), (F.LOOP_BW_m 4095, 0x10000), (F.LOOP_BW_e 4095, 16),
    (F.LOOP_OUT_HI_limit 4095, 100), (F.LOOP_MEAS_meas_slot 4095, 3), (F.LOOP_OUT_out_slot 4095, 7)]
    { s with turn := { s.turn with views := [(8, [(3, ⟨2, 0⟩)])] } }

theorem witness_LoopEvaluationFollowsTheLaw :
    let get := fun f => RegMap.get (looping.configAt 8) f
    let x := looping.loop 4095
    get (F.LOOP_CTRL_enable (get (F.LOOP_SP_pair_loop 4095))) = 0 ∧ looping.evalNext 4095 = some 8 ∧ get (F.LOOP_CTRL_ovr 4095) = 0 ∧ get (F.LOOP_CTRL_sp_kind 4095) ≠ 2 ∧
    get (F.LOOP_CTRL_ff_en 4095) = 0 ∧ get (F.LOOP_FF_sp_rise 4095) % 2 ^ 10 = 0 ∧
    get (F.LOOP_TRACK_sp_fall 4095) % 2 ^ 10 = 0 ∧ get (F.LOOP_OUT_out_rate 4095) % 2 ^ 10 = 0 ∧
    4095 ∉ SMap.getD looping.turn.brakedAt 8 [] ∧ x.started = true ∧ x.mode = 1 ∧ x.reqs = [] ∧ x.owed = false ∧
    x.wasBraked = false ∧ x.gainFrom = [] ∧
    (SMap.getD (SMap.getD looping.turn.views 8 []) (get (F.LOOP_MEAS_meas_slot 4095)) Entry.coldEntry).tag = 0 ∧
    SMap.getD looping.image.barred (get (F.LOOP_OUT_out_slot 4095)) 0 ≤ 8 ∧
    setting (looping.configAt 8) (F.LOOP_OUT_LO_limit 4095) ≤ setting (looping.configAt 8) (F.LOOP_OUT_HI_limit 4095) := by
  decide +kernel

theorem test_proportional_law : ((after (.loopEvaluationDone 4095 false) looping).cell 7).entry.value = 2 := by decide +kernel

/-- A frame whose seal fails, and one that repeats its alive counter. -/
theorem witness_PlyFramesRefusedAndMirrorsTaken :
    active.rd F.PLY_STATUS_link = 2 ∧ ({ hdr with sealOk := false } : PlyHdr).sealOk = false ∧
    (hdr.sealOk = true ∧ hdr.known = true) ∧
    aliveClass [(0x48, (65535, 0))] 0x48 0 hdr.alive.toNat = .repeated ∧ standby.plyState = 4 ∧
    Taken standby 0x47 hdr ∧ Taken standby 0x46 hdr := by
  refine ⟨?_, ?_, ?_, ?_, ?_, ⟨?_, ?_, ?_, ?_⟩, ?_, ?_, ?_, ?_⟩ <;> decide +kernel

/-- An order of its own that no ACK has reached. -/
theorem witness_OrdersAcknowledgedOrAbandoned :
    let o : Order := ⟨true, 2, 65535, 2, .force [(9, some 5)], false⟩
    let s : State := { active with ply := { active.ply with orders := [o] } }
    o ∈ s.ply.orders ∧ o.mine = true ∧ o.acked = false ∧ o.boundary ≠ 0 ∧ o.seq < 2 ^ 16 ∧ o.code < 2 ^ 16 ∧
    (∀ x ∈ s.ply.orders, x.mine = true → x.seq = o.seq → x = o) ∧ s.host.millerUp = true ∧
    (∀ x ∈ s.ply.orders, x.mine = true → x.seq ≠ (0#16).toNat) ∧ Taken s 0x49 hdr := by
  refine ⟨?_, ?_, ?_, ?_, ?_, ?_, ?_, ?_, ?_, ?_, ?_, ?_, ?_⟩ <;> decide +kernel

/-- Orders that name a boundary 100 µs off to the unit, at a standby that has captured its own O, at an untracked module
and at one that starts. -/
theorem witness_OrdersFollowed :
    let far : TimeSt := { TimeSt.cold with work := standby.boundaryU 1000 - 100000 * 2 ^ 32, carried := some 7 }
    ∀ p ∈ [(4 : Nat), 5, 0], let s : State := { wrs [(F.PLY_STATUS_state, p)] standby with time := far }
      Taken s 0x48 hdr ∧ s.plyState = p ∧ s.turn.k < (1000#64).toNat ∧ s.time.carried = some 7 ∧
        s.time.work + 100000 * 2 ^ 32 ≤ s.boundaryU (1000#64).toNat ∧ s.turn.nextRel ≤ (1000#64).toNat := by
  simp only [List.forall_mem_cons, List.not_mem_nil, false_implies, implies_true, and_true]
  refine ⟨⟨⟨?_, ?_, ?_, ?_⟩, ?_, ?_, ?_, ?_, ?_⟩, ⟨⟨?_, ?_, ?_, ?_⟩, ?_, ?_, ?_, ?_, ?_⟩, ⟨⟨?_, ?_, ?_, ?_⟩, ?_, ?_, ?_, ?_, ?_⟩⟩ <;>
    decide +kernel

/-! Tasks, the key, programs, the Skein links, trace and the recorder. -/

/-- Task 15 with an instance of program 1 in a phase, of the sample of turn 5. -/
def tasked (p : InstPhase) (s : State) : State :=
  { s with tasks := { s.tasks with task := [(15, { TaskSt.fresh with
      started := true, inst := some { instOf (progOf 0) with phase := p, data := [(19, 7)], out := [(9, ⟨5, 0⟩)] } })] } }

theorem witness_TasksStartRunAndCommit :
    (let s := cfg [(F.TASK_CTRL_enable 15, 1)] lone
     s.rd F.TURN_STATUS_running = 1 ∧ s.tasks.startAt ≤ s.nowTurn ∧ s.rd F.KEY_STATUS_effective ≠ 3 ∧
      s.rd F.TASK_RUN_run_state ≤ 1 ∧ (s.task 15).started = false ∧ (s.task 15).trapped = false ∧
      s.act (F.TASK_CTRL_enable 15) = 1 ∧ s.nowTurn % s.taskP 15 = 0 ∧ s.computes = true ∧ s.levelOk 15 = true) ∧
    (((tasked .copying lone).task 15).inst.map (·.phase)) = some .copying ∧
    (let s := tasked .committing lone
     ∃ i, (s.task 15).inst = some i ∧ i.phase = .committing ∧ (s.task 15).waiting = [] ∧
      s.turn.nextRel ≤ i.sample + s.nTurns * i.period - 1 ∧ i.data = [(19, 7)] ∧ i.out = [(9, ⟨5, 0⟩)] ∧ i.loopWrites = [] ∧ i.mbq = [] ∧
      SMap.getD s.image.barred 9 0 ≤ i.sample) :=
  ⟨by decide +kernel, by decide +kernel, _, rfl, by decide +kernel⟩

theorem test_commit_enters_the_image : ((after (.taskCommitDone 15) (tasked .committing lone)).cell 9).entry = ⟨5, 0⟩ ∧
    ((after (.taskCommitDone 15) (tasked .committing lone)).task 15).data = [(19, 7)] := by decide +kernel

/-- Task 15 with an overrun and a trap of sample 5 to judge, and the partner's record of it: clean and in time, or none. -/
def judging (record : Option Nat) (s : State) : State :=
  { s with tasks := { s.tasks with task := [(15, { TaskSt.fresh with
      overrun := some ⟨5, none⟩, trap := some ⟨5, some ⟨1, 0, 0, 0⟩⟩, partnerDone := record.elim [] (fun r => [(5, r)]) })] } }

theorem witness_OverrunsAndTrapsAreJudged :
    (∀ s ∈ [active, lone, standby], ((judging (some 256) s).task 15).overrun = some ⟨5, none⟩ ∧
      ((judging (some 256) s).task 15).trap = some ⟨5, some ⟨1, 0, 0, 0⟩⟩ ∧ (judging none s).rd F.TASK_RUN_run_state ≠ 3 ∧
      (judging (some 256) s).partnerRec 15 5 = some (0, true) ∧ (judging none s).partnerRec 15 5 ≠ some (0, true)) ∧
    active.plyState = 2 ∧ active.rd F.PLY_STATUS_partner_state = 4 ∧ active.rd F.PLY_STATUS_link = 2 ∧ lone.plyState = 1 ∧
    standby.plyState = 4 ∧ (judging (some 256) standby).partnerOverran 15 5 = false ∧
    (judging none standby).partnerOverran 15 5 = true ∧ (wrs [(F.PLY_STATUS_state, 5)] (judging none lone)).plyState = 5 ∧
    (wrs [(F.PLY_STATUS_state, 5)] (judging none lone)).trapStops 15 = false ∧ (judging none lone).trapStops 15 = false ∧
    (let s := { judging none lone with progs := { State.reset.progs with active := [(0, bytesOf 128 [(20, 1)])] } }
     s.trapStops 15 = true ∧ s.rd F.TASK_RUN_run_state ≠ 3) := by decide +kernel

theorem witness_WatchdogBrakesAndRetainedFlush :
    (∀ s ∈ [wrs [(F.TURN_WDOG_armed, 1)] lone, wrs [(F.TURN_WDOG_armed, 1)] active, wrs [(F.TURN_WDOG_armed, 1)] standby],
      s.rd F.TURN_WDOG_armed = 1 ∧ s.rd F.TURN_WDOG_tripped = 0 ∧ bitOf (s.rd F.BRK_SRC_RAW_raw) 18 = false) ∧
    (let s := { lone with tasks := { lone.tasks with retain := [(0, ⟨true, 4, []⟩), (1, ⟨false, 5, []⟩)], restoreDue := false } }
     s.tasks.restoreDue = false ∧ s.pd .brake = true ∧ s.pd .miller = true ∧ s.pd .bins = true ∧ s.tasks.flushing = none ∧
      (SMap.find s.tasks.retain 1).map (·.good) = some false ∧ (SMap.find s.tasks.retain 0).map (·.good) = some true) ∧
    (let s := { lone with tasks := { lone.tasks with flushing := some 1, retain := [(1, ⟨false, 5, []⟩)] } }
     let w := { s with pwr := { s.pwr with shedding := true } }
     s.tasks.flushing = some 1 ∧ 1 < 2 ∧ SMap.find s.tasks.retain 1 = some ⟨false, 5, []⟩ ∧ s.pwr.shedding = false ∧
      w.tasks.flushing = some 1 ∧ w.pwr.shedding = true ∧ lone.tasks.flushing = none) := by decide +kernel

/-- The module spares the good copy. -/
theorem test_flush_overwrites_the_bad_copy :
    (after .retainFlushStart { lone with tasks :=
        { lone.tasks with restoreDue := false, retain := [(0, ⟨true, 4, []⟩), (1, ⟨false, 5, []⟩)] } }).tasks.flushing = some 1 := by decide +kernel

theorem witness_KeySwitch :
    (lone.plyState = 1 ∧ 0 < lone.turnNs ∧ lone.tasks.keyNext = none ∧ lone.rd F.KEY_STATUS_effective ≠ 2 ∧
      lone.rd F.KEY_STATUS_effective = 0) ∧
    (∀ a b, 0b0000#4 ≠ keyLines a b) ∧
    (let s := wrs [(F.KEY_STATUS_partner_valid, 1), (F.KEY_STATUS_partner, 2)] standby
     s.plyState = 4 ∧ s.rd F.KEY_STATUS_partner_valid = 1 ∧ s.rd F.KEY_STATUS_local ≠ s.rd F.KEY_STATUS_partner) ∧
    (let s := { lone with tasks := { lone.tasks with keyNext := some (3, 3) }, turn := { lone.turn with k := 3 } }
     s.tasks.keyNext = some (3, 3) ∧ 3 < 4 ∧ 3 ≤ s.nowTurn ∧ s.rd F.TURN_STATUS_running = 1 ∧ s.rd F.KEY_STATUS_effective ≠ 3 ∧ s.rd F.TASK_RUN_run_state ≠ 3) ∧
    (let s := wrs [(F.KEY_STATUS_effective, 3)] { lone with tasks := { lone.tasks with keyNext := some (1, 0) } }
     s.tasks.keyNext = some (1, 0) ∧ s.nowTurn < 1 ∧ s.rd F.KEY_STATUS_effective = 3 ∧ s.tasks.startAt ≤ 1) := by
  decide +kernel

/-- A program of two variables of one type, one word long and two, with initial value 9 in word 2; the other layout holds
the second at word 0. -/
def prog2 : Bytes := bytesOf 188 [(12, 3), (24, 1), (124, 2), (144, 9), (152, 1), (164, 1), (168, 2), (176, 1), (180, 2)]
def prog3 : Bytes := bytesOf 156 [(12, 1), (24, 2), (124, 1), (136, 2), (148, 1)]

/-- Task 15 about to carry its data over from prog3 to prog2. -/
def carrying (done : Option (List Nat)) : State :=
  { lone with tasks := { lone.tasks with task := [(15, { TaskSt.fresh with
      inst := some { instOf prog2 with phase := .carry, carry := done }, data := [(0, 77)], switchAt := some 3,
      oldProg := some prog3 })] } }

theorem witness_ProgramsVerifiedAndCarried :
    (let s := { lone with progs := { active := [], staged := [(15, [1])], verifying := [15], partnerStaged := [] } }
     15 ∈ s.progs.verifying ∧ SMap.find s.progs.staged 15 = some [1] ∧ s.host.millerUp = true ∧ s.progSpaceBad 15 [1] = false ∧
      progVerify (s.act F.HOPPER_LEVEL_level) (s.progSpaceBad 15 [1]) [1] ≠ none) ∧
    ∀ d ∈ [none, some []], ((carrying d).task 15).inst.map (·.phase) = some .carry ∧ ((carrying d).task 15).switchAt = some 3 ∧
      ((carrying d).task 15).oldProg = some prog3 ∧ progIdent prog3 ≠ progIdent prog2 ∧
      carryWords prog3 prog2 = [(1, 0)] ∧ ((carrying d).task 15).inst.map (·.carry) = some d := by
  decide +kernel

theorem test_carry : [0, 1, 2].map (dataWord prog2 ((after (.onlineCarryDone 15) (carrying (some []))).task 15).data) = [0, 77, 9] := by
  decide +kernel

/-- An INPUT frame of station 47 with one sample for the last slot, and the module that waits for it in UP. -/
def input (turn alive : Nat) : Bytes := skeinFrame 1 47 0 0 alive 0 turn 0 0 [0xFF, 0xFF, 0xC0]
def listening : State :=
  wrs [(F.SK_STATUS_link 2, 2), (F.SK_STN_STATE_state 2 15, 3)]
    (cfg [(F.STATION_MAP_0_present 47, 1), (F.STATION_MAP_0_in_samples 47, 1), (F.SLOT_POL_0_kind 262143, 1),
      (F.SLOT_POL_SRC_peer 262143, 47)] lone)

theorem witness_InputFramesJudged :
    InputNow listening 2 (input 0 9) ∧ listening.replaying = false ∧ listening.turn.cutoffs ≤ listening.turn.k ∧ (readSkein (input 0 9)).station = 47 ∧
    listening.rd (F.SK_STN_STATE_state 2 (47 % 16)) = 3 ∧
    aliveClass listening.skein.rxAlive (256 + 47) listening.time.ticks (readSkein (input 0 9)).alive = .inOrder ∧
    262143 ∈ listening.slotsOf 1 47 ∧
    listening.act (F.SLOT_POL_SRC_index 262143) < listening.act (F.STATION_MAP_0_in_samples 47) ∧
    sealOk ((input 0 9).set 32 0) = false ∧
    aliveClass [(256 + 47, (9, 0))] (256 + 47) 0 (readSkein (input 0 9)).alive = .repeated ∧
    (let s := { listening with turn := { listening.turn with cutoffs := 1 } }
     InputNow s 2 (input 0 9) ∧ s.replaying = false ∧ s.turn.k < s.turn.cutoffs) := by
  refine ⟨⟨?_, ?_, ?_, ?_, ?_, ?_, ?_, ?_, ?_⟩, ?_, ?_, ?_, ?_, ?_, ?_, ?_, ?_, ?_, ⟨?_, ?_, ?_, ?_, ?_, ?_, ?_, ?_, ?_⟩, ?_, ?_⟩ <;> decide +kernel

theorem test_input_enters_its_slot :
    ((after (.inputFrameReceived 2 (input 0 9)) listening).cell 262143).entry = ⟨0x3FFFF, 0⟩ := by decide +kernel

/-- A JOIN frame whose record says: identity 5, at position 0 of a chain of one. -/
def joinFrame (ident : Nat) : Bytes := skeinFrame 5 0xFF 0 0 0 0 0 0 0 (bytesOf 16 [(1, ident), (13, 0xFF)])
/-- Port 2 with a station at position 0 in a state, and the link and the chain as given. -/
def joining (stn chain : Nat) : State :=
  wrs [(F.SK_STATUS_link 2, 2), (F.SK_STATUS_chain 2, chain), (F.SK_STN_STATE_state 2 0, stn), (F.SK_STN_STATE_missed 2 0, 255)]
    (cfg [(F.SK_CTRL_enable 2, 1), (F.STATION_MAP_0_present 32, 1), (F.STATION_MAP_1_expect_id 32, 5)]
      { lone with skein := { lone.skein with ports := [(2, { SkeinPort.idle with marksMissing := 2, marksRun := 16 })],
                                             pos := [(32, { SkeinPos.idle with owesAnswer := true })] } })

theorem witness_SkeinLinksAndStations :
    ((joining 3 1).pd .skein = true ∧ (joining 3 1).act (F.SK_CTRL_enable 2) = 1 ∧ (joining 3 1).rd (F.SK_STATUS_link 2) = 2 ∧
      (joining 3 1).rd (F.SK_STATUS_chain 2) = 1 ∧ (joining 3 2).rd (F.SK_STATUS_chain 2) = 2 ∧
      2 ≤ ((joining 3 1).port 2).marksMissing ∧ 16 ≤ ((joining 3 2).port 2).marksRun ∧
      (joining 3 1).rd (F.SK_STN_STATE_state 2 0) = 3 ∧
      (joining 3 1).act (F.STATION_MAP_1_holdoff (16 * 2 + 0)) ≤ (joining 3 1).rd (F.SK_STN_STATE_missed 2 0) ∧
      (joining 2 1).rd (F.SK_STN_STATE_state 2 0) = 2) ∧
    (sealOk (joinFrame 5) = true ∧ (readSkein (joinFrame 5)).type = 5 ∧ skeinWhole (joinFrame 5) 16 = true ∧
      joinPos ((joining 3 1).portStations 2).length (byteAt (readSkein (joinFrame 5)).payload 12)
        (byteAt (readSkein (joinFrame 5)).payload 13) = some 0 ∧
      (joining 3 1).present 32 = true ∧ (joining 3 1).joinFits 32 (readSkein (joinFrame 5)).payload = true ∧
      (joining 3 1).joinFits 32 (readSkein (joinFrame 6)).payload = false) ∧
    (joining 2 1).plyState = 1 ∧ ((joining 2 1).posn 32).owesAnswer = true ∧
    ((joining 2 1).port 2).setupTurn ≠ some (joining 2 1).turn.k ∧
    (let s := (joining 2 1).setPort 2 { SkeinPort.idle with setupTurn := some 0 }
     (s.port 2).setupTurn = some s.turn.k) ∧ (cfg [(F.SK_CTRL_enable 2, 0)] lone).act (F.SK_CTRL_enable 2) = 0 := by decide +kernel

/-- A shadow frame of the partner that crossed the chain, of epoch 9. -/
def crossed : Bytes := skeinFrame 3 0 0 9 0 0 0 0 0 []

theorem witness_SkeinDelaysAndPartner :
    ((joining 3 1).rd (F.SK_STATUS_link 2) = 2 ∧ (joining 3 1).rd (F.SK_STATUS_chain 2) ≠ 2 ∧
      (joining 3 2).rd (F.SK_STATUS_chain 2) = 2 ∧
      (let s := (joining 3 1).setPort 2 { SkeinPort.idle with echoOut := [(15, 255)] }
       s.rd (F.SK_STATUS_link 2) = 2 ∧ ((15#4).toNat, (255#8).toNat) ∈ (s.port 2).echoOut ∧ s.pd .skein = true)) ∧
    (let s := { standby with skein := { SkeinSt.cold with proxyFrom := [(47, 1)] }, turn := { TurnSt.idle with k := 3 } }
     s.plyState = 4 ∧ SMap.find s.skein.proxyFrom 47 = some 1 ∧ 1 + 2 ≤ s.turn.k ∧ 47 ∉ s.skein.proxy) ∧
    (let s := { standby with skein := { SkeinSt.cold with proxy := [47] } }
     SMap.find s.skein.proxyFrom 47 = none ∧ s.skein.proxy = [47]) ∧
    (sealOk crossed = true ∧ 36 ≤ crossed.length ∧ (readSkein crossed).type = 3 ∧ standby.plyState = 4 ∧
      skeinWhole crossed (standby.crossedLen (readSkein crossed).type (readSkein crossed).station) = true ∧ standby.pd .skein = true ∧
      (wrs [(F.SK_STATUS_link 2, 2)] standby).rd (F.SK_STATUS_link 2) = 2) ∧
    (active.plyState = 2 ∧ active.rd F.PLY_EPOCH_epoch < (1#28).toNat ∧ active.rd F.PLY_EPOCH_epoch = (0#28).toNat ∧
      (wrs [(F.PLY_STATUS_home, 1)] active).isHome = true) := by decide +kernel

/-- Group 7 armed with channel 63, and with no channel; a capture record that waits for trace ring 15. -/
def tracing (st : Nat) : State :=
  wrs [(F.TRACE_SRC_enable 63, 1), (F.TRACE_SRC_group 63, 7), (F.TRACE_POST_count 63, 1), (F.TRACE_GSTAT_state 7, st)] lone
def record (ring : Nat) : State :=
  wrs [(F.TRACE_TRIG_ring 7, 15), (F.TRR_CTRL_enable 15, ring), (F.TRR_CTRL_size_log2 15, 4)]
    { lone with trace := { chan := [], group := [(7, { TraceGroup.idle with recordWaits := true })] },
                host := { HostSt.cold with busMaster := true, linkDown := false } }

theorem witness_TraceGroupsArmStopAndRecord :
    ((tracing 0).pd .bins = true ∧ (tracing 0).grpState 7 ∉ [1, 2] ∧ (tracing 0).armErr 7 = 0 ∧ lone.armErr 7 ≠ 0 ∧
      (tracing 1).grpState 7 = 1 ∧ (tracing 1).rd (F.TRACE_TRIG_stream 7) = 0) ∧
    ((record 1).grp 7).recordWaits = true ∧ (record 1).rd (F.TRACE_TRIG_ring 7) = 15 ∧ (record 0).rd (F.TRR_CTRL_enable 15) = 0 ∧
    (record 1).rd (F.TRR_CTRL_enable 15) = 1 ∧ (record 1).trcRoom 15 = true ∧ ((record 1).acAccess 3 1 5 ((record 1).hostAddr (0x2100 + 16 * 15)) 576).2 = true ∧
    (let s := { record 1 with host := { (record 1).host with trcWritten := [(15, 16)] } }
     s.rd (F.TRR_CTRL_enable 15) = 1 ∧ s.trcRoom 15 = false) := by decide +kernel

theorem witness_RecorderTakesAndWrites :
    (lone.pd .miller = true ∧ (cfg [(F.REC_CTRL_enable, 1)] lone).act F.REC_CTRL_enable = 1 ∧ 63 ∉ lone.recorder.holdoff ∧
      (cfg [(F.REC_TRIG_holdoff_ms 63, 1)] lone).act (F.REC_TRIG_holdoff_ms 63) ≠ 0 ∧ 63 ∈ [63]) ∧
    (let r : RecRaise := ⟨55, 0, 0, 0, 0, 0⟩
     r.trigger < 56 ∧ lone.rd F.REC_STATUS_full = 0 ∧ (List.replicate 15 (⟨55, []⟩ : RecEntry)).length < 16) ∧
    (let e : RecEntry := ⟨59, []⟩
     ¬(56 ≤ e.trigger ∧ e.trigger ≤ 58)) ∧
    (wrs [(F.REC_STATUS_pointer, 4087)] lone).rd F.REC_STATUS_pointer = 4087 ∧
    4088 ≤ (wrs [(F.REC_STATUS_pointer, 4088)] lone).rd F.REC_STATUS_pointer := by decide +kernel

/-! The board ring and time. -/

/-- A module at position 1 of a ring whose links are up, with members in the states given. -/
def onRing (l : List (Fld × Nat)) : State :=
  wrs ([(F.RING_STATUS_bypass, 0), (F.RING_STATUS_link_e, 2), (F.RING_STATUS_link_w, 2), (F.RING_POSITION_position, 1)] ++ l) lone

/-- A ring frame from position 15 with 14 hops but one behind it. -/
def ringBytes (type part parts : Nat) (payload : Bytes) : Bytes := setByte (ringFrame type 15 0 9 part parts 0 0 payload) 10 13

theorem ring_taken (l : List (Fld × Nat)) (ty part parts : Nat) (payload : Bytes)
    (h : (onRing l).pd .ringply = true ∧ (onRing l).rd F.RING_STATUS_bypass = 0 ∧ (onRing l).ringUp true = true ∧
      (onRing l).position = 1)
    (hb : ringSealOk (ringBytes ty part parts payload) = true ∧ 36 ≤ (ringBytes ty part parts payload).length ∧
      byteAt (ringBytes ty part parts payload) 0 = ty ∧ ringLenOk (ringBytes ty part parts payload) = true ∧
      byteAt (ringBytes ty part parts payload) 1 % 16 = 15)
    (hr : (onRing l).ring.rxAlive = []) : RingTaken (onRing l) true ty (ringBytes ty part parts payload) :=
  ⟨⟨h.1, h.2.1, h.2.2.1⟩, ⟨hb.1, hb.2.1⟩, ⟨hb.2.2.1, hb.2.2.2.1⟩, by rw [hb.2.2.2.2, h.2.2.2]; decide, by simp [hr, aliveClass, SMap.find]⟩

/-- A BEACON of position 15, whose identity is 7. -/
def beacon : Bytes := bytesOf 32 [(7, 7)]

/-- The module's own BEACON at position 15, come back round the ring, and a publication that waits for its launch. -/
def ownBeacon : Bytes := ringFrame 0x12 15 0 9 0 0 0 0 (beBytes 8 Config.moduleIdent.toNat ++ bytesOf 24 [])
def at15 : State := wrs [(F.RING_POSITION_position, 15)] (onRing [(F.RING_MEMBER_state 15, 2)])
def launching (work : Nat) : State :=
  { onRing [] with time := { TimeSt.cold with work }, ring := { (onRing []).ring with launch := [⟨4, 1, true, 0, 1, []⟩] } }

theorem witness_own_beacon : at15.pd .ringply = true ∧ at15.ringUp true = true ∧ ringSealOk ownBeacon = true ∧ 36 ≤ ownBeacon.length ∧
    byteAt ownBeacon 0 = 0x12 ∧ ringLenOk ownBeacon = true ∧ byteAt ownBeacon 1 % 16 = at15.position ∧
    aliveClass at15.ring.rxAlive (skKey 0x12 (byteAt ownBeacon 1)) at15.time.ticks (beAt ownBeacon 6 2) ≠ .repeated ∧
    beAt ((ownBeacon.drop 32).take 32) 0 8 = Config.moduleIdent.toNat ∧ at15.memberState at15.position ∈ [0, 2] := by
  refine ⟨by decide +kernel, by decide +kernel, ringFrame_sealOk _ _ _ _ _ _ _ _ _, by decide, by decide, by decide, by decide +kernel, ?_, ?_, by decide +kernel⟩
  · simp [show at15.ring.rxAlive = [] from by decide +kernel, aliveClass, SMap.find]
  · have h : beAt ((ownBeacon.drop 32).take 32) 0 8 = beNat (beBytes 8 Config.moduleIdent.toNat) := rfl
    rw [h, beNat_beBytes]
    exact Nat.mod_eq_of_lt Config.moduleIdent.isLt

theorem witness_RingMembersAndPublications :
    (∀ st : Fin 4, RingTaken (onRing [(F.RING_MEMBER_state 15, st.val)]) true 0x12 (ringBytes 0x12 0 0 beacon) ∧
      (onRing [(F.RING_MEMBER_state 15, st.val)]).memberState 15 = st.val) ∧
    beAt ((ringBytes 0x12 0 0 beacon).drop 32) 0 8 = 7 ∧
    ((onRing []).pd .ringply = true ∧ (onRing []).rd F.RING_STATUS_bypass = 0 ∧ (onRing []).position < 16 ∧
      (onRing []).rd F.RING_STATUS_link_e = 2) ∧
    (let s := { wrs [(F.RING_STATUS_bypass, 1)] (cfg [(F.RING_CTRL_enable, 1)] lone) with time := { TimeSt.cold with workSet := true } }
     s.rd F.RING_STATUS_bypass = 1 ∧ s.bypassWanted = false ∧ s.ring.ownClash = false ∧ s.time.workSet = true) ∧
    RingTaken (onRing []) true 0x11 (ringBytes 0x11 7 8 (bytesOf 10 [(4, 3), (9, 4)])) ∧
    (∃ p, (launching (512 * 2 ^ 32)).ring.launch = [p] ∧ (launching (512 * 2 ^ 32)).time.work < p.instant + 512 * 2 ^ 32 ∧
      (launching (513 * 2 ^ 32)).ring.launch = [p] ∧ p.instant + 512 * 2 ^ 32 ≤ (launching (513 * 2 ^ 32)).time.work ∧
      (launching (513 * 2 ^ 32)).plyState ∈ [1, 2, 4] ∧ (launching (513 * 2 ^ 32)).rd F.RING_STATUS_bypass = 0) := by
  refine ⟨fun st => ⟨ring_taken _ _ _ _ _ ?_ ?_ ?_, ?_⟩, ?_, ?_, ?_, ring_taken _ _ _ _ _ ?_ ?_ ?_, ⟨_, rfl, ?_⟩⟩
  all_goals first | (revert st; decide +kernel) | decide +kernel

/-- A hop to position 15 with a launch stamp and an arrival stamp that have no pair. -/
def hop15 : RingHop := { RingHop.fresh 15 with fwdLaunch := [(16, 5)], backArrive := [(32, 6)] }

theorem witness_RingMeasurement :
    ((onRing []).pd .time = true ∧ (onRing []).rd F.RING_STATUS_bypass = 0 ∧ (onRing []).ringUp true = true ∧
      (onRing []).ringUp false = true) ∧
    RingTaken (onRing [(F.RING_MEMBER_state 15, 1)]) true 0x20 (ringBytes 0x20 0 0 (bytesOf 48 [])) ∧
    (onRing [(F.RING_MEMBER_state 15, 1)]).memberState (byteAt (ringBytes 0x20 0 0 (bytesOf 48 [])) 1 % 16) = 1 ∧
    SMap.find [(15, hop15)] 15 = some hop15 ∧
    (let s := wrs [(F.TIME_STATUS_dom_b, 2), (F.TIME_STATUS_role_b, 2)] (onRing [])
     s.rd F.TIME_STATUS_refclk_lost = 0 ∧ s.domRole .b ≠ 1 ∧ s.domState .b = 2) := by
  refine ⟨?_, ring_taken _ _ _ _ _ ?_ ?_ ?_, ?_, ?_, ?_⟩ <;> decide +kernel

/-- A module that is the master of domain B, with a domain as given. -/
def mastering (x : TimeDom) : State :=
  wrs [(F.TIME_STATUS_role_b, 1), (F.INC_LO_frac 1, 0x66666666), (F.SLEW_INC_HI_inc 1, 3), (F.SLEW_INC_LO_inc 1, 0x33333333)]
    { lone with time := { TimeSt.cold with domB := x } }

theorem witness_DomainMasterRuns :
    (let s := cfg [(F.TIME_MASTER_master_b, 1)] lone
     s.pd .time = true ∧ s.candidate .b = true ∧ s.domRole .b ≠ 1 ∧ s.domValid .b = false ∧
      (wrs [(F.TIME_STATUS_dom_b, 2)] s).domValid .b = true) ∧
    ((mastering TimeDom.idle).domRole .b = 1 ∧ (wrs [(F.KEY_STATUS_effective, 2)] lone).key = 2 ∧
      (let s := mastering { TimeDom.idle with startOrdered := true, orderedAt := 5 }
       let w : State := { s with time := { s.time with ticks := 343750005 } }
       let v := cfg [(F.TIME_MASTER_pps_b_en, 1)] (mastering { TimeDom.idle with startOrdered := true, lastEdge := some 0 })
       (w.dom .b).startOrdered = true ∧ (w.dom .b).orderedAt + 343750000 ≤ w.time.ticks ∧ (v.dom .b).startOrdered = true ∧
        v.act F.TIME_MASTER_pps_b_en = 1 ∧ (v.dom .b).lastEdge = some v.time.ticks) ∧
      incOk ((3#32).toNat % 256 * 2 ^ 32 + (mastering TimeDom.idle).rd (F.INC_LO_frac 1)) = true ∧
      incOk ((4#32).toNat % 256 * 2 ^ 32 + (mastering TimeDom.idle).rd (F.INC_LO_frac 1)) = false ∧
      incOk ((mastering TimeDom.idle).rd (F.SLEW_INC_HI_inc 1) * 2 ^ 32 + (mastering TimeDom.idle).rd (F.SLEW_INC_LO_inc 1)) = true ∧
      incOk (lone.rd (F.SLEW_INC_HI_inc 1) * 2 ^ 32 + lone.rd (F.SLEW_INC_LO_inc 1)) = false) ∧
    ((mastering { TimeDom.idle with slew := true }).dom .b).slew = true ∧ TimeDom.idle.slewLeft = 0 ∧
    (mastering TimeDom.idle).time.ticks < 9 ∧ (lone.domRole .b ≠ 1 ∧ 0x0300000000 < 2 ^ 40) ∧
    ((mastering { TimeDom.idle with next := some ⟨0x0300000000, 9, 0⟩ }).dom .b).next = some ⟨0x0300000000, 9, 0⟩ ∧
    (let s := mastering { TimeDom.idle with next := some ⟨0x0366666666, 0, 4⟩ }
     (s.dom .b).next = some ⟨0x0366666666, 0, 4⟩ ∧ 0 ≤ s.time.ticks) := by
  decide +kernel

theorem test_increment_edges : incOk 0x0300000000 = true ∧ incOk 0x02FFFFFFFF = false ∧ incOk 0x0366666667 = false := by decide

/-- A DOMAIN frame for domain B whose domain is valid. -/
def domainFrame : Bytes := ringBytes 0x21 0 0 (bytesOf 56 [(0, 1), (2, 1)])

theorem witness_DomainFollowersAndCaptures :
    (∀ st : Fin 4, RingTaken (onRing [(F.TIME_STATUS_dom_b, st.val)]) true 0x21 domainFrame ∧
      (onRing [(F.TIME_STATUS_dom_b, st.val)]).domState .b = st.val ∧ (onRing [(F.TIME_STATUS_dom_b, st.val)]).domRole .b ≠ 1) ∧
    ((onRing []).pd .time = true ∧ byteAt domainFrame 32 = domNum .b ∧ bitOf (byteAt ((domainFrame.drop 32).take 56) 2) 0 = true ∧
      byteAt ((domainFrame.drop 32).take 56) 1 = (onRing []).domGen .b) ∧
    ((wrs [(F.TIME_STATUS_cal, 2)] (onRing [])).rd F.TIME_STATUS_cal = 2 ∧ (onRing []).rd F.TIME_STATUS_refclk_lost = 0) ∧
    ((((onRing []).dom .b).value : Int) - (onRing []).estimate ((domainFrame.drop 32).take 56)).natAbs ≤ unitNs ∧
    ((onRing []).dom .b).lastEdge = none ∧
    (let s := { lone with time := { TimeSt.cold with ticks := 281250001, domB := { TimeDom.idle with lastEdge := some 1 } } }
     (s.dom .b).lastEdge = some 1 ∧ 1 + 281250000 ≤ s.time.ticks ∧ 281250000 < 1 + 281250000) ∧
    (wrs [(F.PPS_STATUS_present_b, 1)] lone).rd F.PPS_STATUS_present_b = 1 := by
  refine ⟨fun st => ⟨ring_taken _ _ _ _ _ ?_ ?_ ?_, ?_, ?_⟩, ?_, ?_, ?_, ?_, ?_, ?_⟩
  all_goals first | (revert st; decide +kernel) | decide +kernel

/-- A module with some of its time engine's state set. -/
def timed (f : TimeSt → TimeSt) (s : State) : State := { s with time := f s.time }

theorem witness_WorkingTimeAndCalendar :
    (lone.pd .time = true ∧ lone.time.workSet = false ∧ standby.time.workSet = false ∧ standby.rd F.PLY_STATUS_link = 2 ∧
      standby.rd F.PLY_STATUS_partner_state ∈ [1, 2] ∧ lone.domState .a = 0 ∧ lone.domState .b = 0 ∧
      (wrs [(F.TIME_STATUS_dom_a, 1)] lone).domState .a ≠ 0 ∧ (wrs [(F.TIME_STATUS_dom_b, 1)] lone).domState .b ≠ 0 ∧
      lone.act F.TIME_CTRL_sel ≠ 1 ∧
      (let s := cfg [(F.TIME_CTRL_wait_s, 1)] lone
       let w := timed (fun t => { t with ticks := 312500000 }) s
       s.time.ticks < s.act F.TIME_CTRL_wait_s * 312500000 ∧ w.act F.TIME_CTRL_wait_s * 312500000 ≤ w.time.ticks)) ∧
    (timed (fun t => { t with slewOwed := true }) lone).time.slewOwed = true ∧
    (∀ only, let s := timed (fun t => { t with switchAt := some (0, only) }) lone
     s.time.switchAt = some (0, only) ∧ 0 ≤ s.turn.k ∧ s.ply.orders = [] ∧ s.plyState ≠ 4) ∧
    (standby.rd F.PLY_STATUS_link = 2 ∧ standby.plyState = 4 ∧ (timed (fun t => { t with xchgRun := 63 }) standby).time.xchgRun = 63 ∧ 50 < (51 : Int).natAbs) ∧
    (let s := wrs [(F.PLY_TIME_DIFF_diff_ps, 0xFFFFFC17)] standby
     1000 < (sextNat 32 (s.rd F.PLY_TIME_DIFF_diff_ps)).natAbs ∧ s.plyState = 4 ∧
      s.rd F.PLY_TIME_DIFF_diff_ps ≠ 0x80000000) ∧
    (let s := wrs [(F.PPS_OUT_CTRL_enable, 1)] (timed (fun t => { t with workSet := true }) lone)
     s.rd F.PPS_OUT_CTRL_enable = 1 ∧ s.rd F.PPS_OUT_CTRL_src = 0 ∧ s.time.workSet = true ∧ s.pd .keep = true) ∧
    (timed (fun t => { t with ppsOut := true }) lone).time.ppsOut = true ∧
    (let s := wrs [(F.ALARM_CTRL_enable 7, 1)] (timed (fun t => { t with alarms := [(7, 5)] }) lone)
     SMap.find s.time.alarms 7 = some 5 ∧ s.rd (F.ALARM_CTRL_enable 7) = 1 ∧ s.time.work < 5 ∧
      5 ≤ (timed (fun t => { t with work := 5 }) s).time.work) ∧
    leapOk lone.leapTable = true ∧
    leapOk (wrs [(F.LEAP_CTRL_count, 2), (F.LEAP_AT_LO_at 0, 9), (F.LEAP_AT_LO_at 1, 9)] lone).leapTable = false ∧
    (timed (fun t => { t with leapNext := some [(9, 1)] }) lone).time.leapNext = some [(9, 1)] := by decide +kernel

/-! The ply, power, resets and the brake. -/

/-- A standby that may take over, with the misses and register fields given; the mill-bus heartbeat runs on channel 1. -/
def judge (missed : Nat) (l : List (Fld × Nat)) : State :=
  wrs l (cfg [(F.PLY_MILL_HB_mill_hb_en, 1), (F.PLY_MILL_HB_mill_hb_chan, 1)]
    { standby with ply := { standby.ply with hbMissed := missed } })

theorem may_take_over (missed : Nat) (l : List (Fld × Nat))
    (h : (judge missed l).plyState = 4 ∧ (judge missed l).rd F.TURN_WDOG_tripped = 0 ∧
      (judge missed l).rd F.PLY_EPOCH_epoch = 0xFFFFFFE ∧ (judge missed l).tasks.task = []) :
    MayTakeOver (judge missed l) :=
  ⟨h.1, h.2.1, by rw [h.2.2.1]; decide, fun t _ => by simp [State.task, h.2.2.2, SMap.getD, SMap.find, TaskSt.fresh]⟩

/-- A standby whose task 15 has overrun. -/
def overrunning : State :=
  { standby with tasks := { standby.tasks with task := [(15, { TaskSt.fresh with overrun := some ⟨5, none⟩ })] } }

theorem witness_PartnerJudgedAndTakenOver :
    (State.reset.plyState = 0 ∧ State.reset.ply.silentTest = false ∧ active.plyState = 2 ∧ active.ply.muteGap = false ∧
      active.ply.silentTest = false ∧ (wrs [(F.PLY_STATUS_link, 0)] active).plyState = 2 ∧
      (wrs [(F.PLY_STATUS_link, 0)] active).rd F.PLY_STATUS_link = 0 ∧ active.plyState ≠ 4 ∧ (judge 1 []).ply.hbMissed < 2 ∧
      overrunning.plyState = 4 ∧ (∃ t < 16, (overrunning.task t).overrun ≠ none) ∧ overrunning.rd F.TASK_RUN_run_state ≠ 3) ∧
    (∀ tok : Fin 3, let s := judge 2 [(F.PLY_EPOCH_epoch, 0xFFFFFFE), (F.PLY_STATUS_tok_in, tok.val)]
     MayTakeOver s ∧ s.rd F.PLY_STATUS_abd_in = 0 ∧ 2 ≤ s.ply.hbMissed ∧ s.rd F.PLY_STATUS_tok_in = tok.val ∧
      s.silentEvidence = true ∧ ∀ t < 16, s.bothLate t = false) ∧
    (judge 2 [(F.PLY_STATUS_mill_hb_seen, 1)]).silentEvidence = false ∧
    (let s := judge 3 [(F.PLY_EPOCH_epoch, 0xFFFFFFE)]
     MayTakeOver s ∧ s.rd F.PLY_STATUS_abd_in = 0 ∧ 3 ≤ s.ply.hbMissed ∧ s.rd F.PLY_STATUS_tok_in = 0 ∧
      s.act F.PLY_MILL_HB_mill_hb_en = 1 ∧ s.partnerBeaconless = true ∧
      s.rd (F.MB_STATUS_state (s.act F.PLY_MILL_HB_mill_hb_chan)) ≠ 3) ∧
    (let s := { active with ply := { active.ply with catchUp := [255] } }
     s.plyState = 2 ∧ s.ply.catchUp ≠ [] ∧ s.rd F.TURN_STATUS_running = 1) := by
  refine ⟨?_, fun tok => ⟨may_take_over _ _ ?_, ?_⟩, ?_, ⟨may_take_over _ _ ?_, ?_⟩, ?_⟩
  all_goals first | (revert tok; decide +kernel) | decide +kernel

theorem taken (s : State) (ty : Nat) (hl : s.rd F.PLY_STATUS_link = 2) (hr : s.ply.rxAlive = []) : Taken s ty hdr :=
  ⟨hl, rfl, rfl, by simp [hr, aliveClass, SMap.find]⟩

/-- The module that waits for station 47's INPUT frame, beside a partner. -/
def bridged : State := wrs [(F.PLY_STATUS_link, 2), (F.PLY_STATUS_state, 4)] listening

theorem witness_HeartbeatsAndPartnerFrames :
    (active.pd .ringply = true ∧ active.pd .time = true ∧ active.rd F.PLY_STATUS_link = 2 ∧ bitOf (1#8).toNat 2 = false ∧
      standby.rd F.PLY_STATUS_tok_in ≠ 2 ∧ (cfg [(F.PLY_MILL_HB_mill_hb_en, 1)] active).act F.PLY_MILL_HB_mill_hb_en = 1 ∧
      lone.plyState = 1 ∧ active.plyState = 2) ∧
    (Taken bridged 0x41 hdr ∧ sealOk (input 0 9) = true ∧ 36 ≤ (input 0 9).length ∧ (readSkein (input 0 9)).type = 1 ∧
      bridged.present 47 = true ∧ skeinWhole (input 0 9) (payBytes (bridged.act (F.STATION_MAP_0_in_samples 47))) = true ∧
      bridged.rd F.TURN_STATUS_running = 1 ∧ (readSkein (input 0 9)).turn = bridged.turn.k ∧ bridged.replaying = false ∧
      bridged.turn.cutoffs ≤ bridged.turn.k ∧ bridged.rd (F.SK_STN_STATE_state (47 / 16) (47 % 16)) = 3 ∧
      aliveClass bridged.skein.rxAlive (skKey 1 47) bridged.time.ticks (readSkein (input 0 9)).alive = .inOrder) ∧
    (let s := wrs [(F.SK_STATUS_link 15, 2)] { standby with skein := { SkeinSt.cold with proxy := [255] } }
     Taken s 0x42 hdr ∧ s.plyState = 4 ∧ (255 : Fin 256).val ∈ s.skein.proxy ∧ s.rd F.TURN_WDOG_tripped = 0 ∧
      s.portBraked 15 = false ∧ s.rd (F.SK_STATUS_link (255 / 16)) = 2) ∧
    (let s := { standby with ply := { standby.ply with reachOwn := [(0, [47])], digOwn := [(0, ⟨1, 2, 3, 4, true, 5⟩)] } }
     Taken s 0x43 hdr ∧ Taken s 0x44 hdr ∧ Taken s 0x45 hdr ∧ Taken s 0x4A hdr ∧ SMap.find s.ply.reachOwn 0 = some [47] ∧
      SMap.find s.ply.reachOwn 1 = none ∧ SMap.find s.ply.digOwn 1 = none ∧ s.plyState = 4 ∧
      SMap.find s.ply.digOwn 0 = some ⟨1, 2, 3, 4, true, 5⟩ ∧ s.digestExcluded 0 = false ∧ 0 ∉ s.ply.split ∧ s.plyState ≠ 0) := by
  refine ⟨?_, ⟨taken _ _ ?_ rfl, ?_⟩, ⟨taken _ _ ?_ rfl, ?_⟩, taken _ _ ?_ rfl, taken _ _ ?_ rfl, taken _ _ ?_ rfl,
    taken _ _ ?_ rfl, ?_⟩ <;> decide +kernel

/-- A standby with task 15 loaded with program 1, whose word 19 is 7 as of turn 5, on firmware whose parts are of level 0. -/
def stateful : State :=
  { standby with progs := { State.reset.progs with active := [(0, progOf 0)] }, fw := { standby.fw with manifests := [(0, [])] },
                 tasks := { standby.tasks with task := [(15, { TaskSt.fresh with lastDone := some 5, data := [(19, 7)] })] } }
/-- That module as active. -/
def statefulActive : State := { stateful with regs := active.regs }

/-- What a partner's JOIN says of itself. -/
def join (level : BitVec 8) (compat : List Byte) (config : Option JoinConfig) (time : Option JoinTime)
    (captured : Option JoinCapture) : PlyJoin :=
  ⟨5, 0, level, true, compat, 0, config, time, captured⟩

theorem witness_PartnerToldAndJoined :
    (let r : RelRec := { RelRec.empty with released := true }
     let s := { active with ply := { active.ply with rel := [(8, r)] } }
     s.plyState = 2 ∧ s.rd F.PLY_STATUS_link = 2 ∧
      s.ply.rel.find? (fun e => e.2.released && s.releaseWhole e.1) = some (8, r) ∧ s.pd .ringply = true) ∧
    (let s := statefulActive
     s.plyState = 2 ∧ s.rd F.PLY_STATUS_link = 2 ∧ s.ply.capture = none ∧ s.ply.owed = [] ∧
      s.itemWords s.task s.loop 15 19 1 = [7]) ∧
    (Taken stateful 0x4B hdr ∧ stateful.plyState = 4 ∧ (15#16).toNat < 16 ∧ 19 + [7#64].length ≤ stateful.itemLen 15 ∧
      stateful.ply.diverged = [] ∧ itemTurn stateful.task stateful.loop 15 = (5#64).toNat ∧
      stateful.itemWords stateful.task stateful.loop 15 19 1 = [7#64].map BitVec.toNat ∧
      stateful.itemWords stateful.task stateful.loop 15 19 1 ≠ [8#64].map BitVec.toNat) ∧
    (Taken stateful 0x4C hdr ∧ stateful.plyState ∈ [0, 4, 5, 6]) ∧
    (Taken statefulActive 0x4C hdr ∧ statefulActive.plyState = 2 ∧ (join 0 [] none none none).joining = true ∧
      statefulActive.act F.HOPPER_LEVEL_level ≤ (join 0 [] none none none).level.toNat ∧
      (cfg [(F.HOPPER_LEVEL_level, 2)] statefulActive).act F.HOPPER_LEVEL_level = 2 ∧
      statefulActive.compatWith [] = true ∧ statefulActive.compatWith [1] = false) ∧
    (∀ phase : Fin 5, let s := { wrs [(F.PLY_STATUS_state, 3), (F.PLY_JOIN_phase, phase.val)] statefulActive with
                                 ply := { standby.ply with capture := some 7 } }
     Taken s 0x4C hdr ∧ s.plyState = 3 ∧ s.rd F.PLY_JOIN_phase = phase.val ∧ s.ply.capture = some 7 ∧
      s.compatWith [] = true ∧ s.compatWith [0, 0, 0, 0, 0, 0, 0, 0, 0, 0, 0, 1] = false) ∧
    (∀ (d : JoinConfig) (t : JoinTime) (c : JoinCapture), (join 1 [] none none none).level.toNat = 1 ∧
      (join 0 [] none none none).level.toNat = 0 ∧ (join 0 [] (some d) none none).config = some d ∧
      (join 0 [] none (some t) none).time = some t ∧ (join 0 [] none none (some c)).captured = some c) := by
  refine ⟨?_, ?_, ⟨taken _ _ ?_ rfl, ?_⟩, ⟨taken _ _ ?_ rfl, ?_⟩, ⟨taken _ _ ?_ rfl, ?_⟩, fun phase => ⟨taken _ _ ?_ rfl, ?_⟩,
    fun d t c => ⟨rfl, rfl, rfl, rfl, rfl⟩⟩
  all_goals first | (revert phase; decide +kernel) | decide +kernel

/-- A module in a state of R277 beside a partner in another, the link as given. -/
def roled (own partner link : Nat) : State :=
  wrs [(F.PLY_STATUS_state, own), (F.PLY_STATUS_partner_state, partner), (F.PLY_STATUS_link, link)] active

theorem witness_RolesAndJoins :
    (let s := roled 0 0 0
     s.plyState = 0 ∧ s.rolePower = true ∧ s.rd F.TURN_STATUS_running = 1 ∧ s.rd F.PLY_STATUS_link = 0 ∧
      s.partnerBeaconless = true ∧ s.rd F.PLY_STATUS_mill_hb_seen = 0 ∧ s.rd F.PLY_STATUS_tok_in = 0 ∧ s.pd .ringply = true ∧
      s.rd F.PLY_STATUS_partner_state = 0 ∧ (wrs [(F.PLY_STATUS_home, 1)] s).isHome = true ∧
      max s.ply.partnerEpoch s.ply.heardEpoch < 0xFFFFFFF ∧
      0xFFFFFFF ≤ max ({ s.ply with partnerEpoch := 0xFFFFFFF } : PlySt).partnerEpoch s.ply.heardEpoch) ∧
    ((roled 0 1 0).rd F.PLY_STATUS_partner_state = 1 ∧ (roled 0 2 0).rd F.PLY_STATUS_partner_state = 2) ∧
    ((wrs [(F.PLY_STATUS_tok_in, 2)] standby).plyState = 4 ∧ (wrs [(F.PLY_STATUS_tok_in, 2)] standby).rd F.PLY_STATUS_tok_in = 2 ∧
      (roled 3 2 2).plyState = 3 ∧ active.plyState = 2 ∧ active.rd F.PLY_STATUS_tok_in ≠ 2) ∧
    (let s := cfg [(F.PLY_CTRL_auto_rejoin, 1)] { roled 5 2 2 with ply := { active.ply with rejoins := [0, 0] } }
     s.plyState = 5 ∧ s.act F.PLY_CTRL_auto_rejoin = 1 ∧
      (s.ply.rejoins.filter (fun j => decide (s.workSec < j + 600))).length < 3) ∧
    (active.plyState ≠ 5 ∧ standby.plyState = 4 ∧ active.plyState ≠ 4 ∧ (wrs [(F.KEY_STATUS_effective, 1)] active).key ≠ 0 ∧
      active.rd F.PLY_STATUS_partner_state = 4 ∧ standby.rd F.PLY_STATUS_link = 2 ∧ lone.plyState ≠ 2 ∧ lone.plyState ≠ 4) ∧
    (∀ s ∈ [active, standby], ∀ code ∈ [6, 7],
      let o : Order := ⟨true, code, 0, 1, .handover, true⟩
      let t := { s with ply := { s.ply with orders := [o] }, turn := { s.turn with k := 1 } }
      t.ply.orders = [o] ∧ (o.code = 6 ∨ o.code = 7) ∧ o.acked = true ∧ o.boundary ≠ 0 ∧ o.boundary ≤ t.turn.k ∧
        t.fw.step = 0 ∧ t.pwr.waitHandover = none ∧ t.rd F.PLY_EPOCH_epoch < 0xFFFFFFF ∧ t.rd F.TURN_WDOG_tripped = 0 ∧
        (wrs [(F.PLY_EPOCH_epoch, 0xFFFFFFF)] t).rd F.PLY_EPOCH_epoch = 0xFFFFFFF) ∧
    (let s := wrs [(F.PLY_STATUS_home, 1)] (cfg [(F.PLY_CTRL_revert_en, 1)]
       { standby with ply := { standby.ply with trackSince := some 0 },
                      time := { TimeSt.cold with work := standby.act F.PLY_CTRL_revert_hold_s * unitSec } })
     s.plyState = 4 ∧ s.rd F.PLY_STATUS_home = 1 ∧ s.rd F.PLY_STATUS_home_err = 0 ∧ s.act F.PLY_CTRL_revert_en = 1 ∧
      s.ply.trackSince = some 0 ∧ 0 + s.act F.PLY_CTRL_revert_hold_s ≤ s.workSec ∧ s.somethingArmed = false ∧
      s.rd F.PLY_STATUS_link = 2 ∧ s.rd F.TURN_WDOG_tripped = 0) ∧
    (let o : Order := ⟨true, 8, 0, 0, .capture, true⟩
     o.code = 8 ∧ o.mine = true ∧ o.acked = true ∧ o.boundary ≤ active.turn.k) ∧
    (∀ back ∈ [0, 1, 2], ∀ was ∈ [1, 4],
      let j := wrs [(F.PLY_JOIN_phase, 5)] (roled 3 2 2)
      let s := { j with ply := { j.ply with liveCut := j.turn.cutoffs + back, backlogWas := was } }
      s.plyState = 3 ∧ s.rd F.PLY_JOIN_phase = 5 ∧ s.ply.liveCut - s.turn.cutoffs = back ∧ s.ply.backlogWas = was) ∧
    (let s := { standby with ply := { standby.ply with diverged := [(15, 0, false)] }, turn := { standby.turn with k := 1000000 } }
     s.plyState = 4 ∧ ∀ d ∈ s.ply.diverged, d.2.1 + max 64 (ceilDiv 1000000 (max 1 s.turnNs)) ≤ s.turn.k) := by
  refine ⟨?_, ?_, ?_, ?_, ?_, ?_, ?_, ?_, ?_, ?_⟩ <;> decide +kernel

/-- A module on a rung on its way to another, or at rest. -/
def rung (r target moving : Nat) : State :=
  wrs [(F.PWR_STATUS_rung, r), (F.PWR_STATUS_target, target), (F.PWR_STATUS_moving, moving)]
    (cfg [(F.PWR_CTRL_floor, 6), (F.PWR_CTRL_wake_en, 15)] State.reset)

theorem witness_PowerLadder :
    ((rung 3 3 0).pd .wake = true ∧ bitOf (8#32).toNat 3 = true ∧ (rung 3 4 1).rd F.PWR_STATUS_moving = 1 ∧
      (rung 3 3 0).rd F.PWR_STATUS_moving = 0 ∧ (rung 3 3 0).act F.PWR_CTRL_floor < 7 ∧ (15#32).toNat % 8 = 7 ∧
      (14#32).toNat % 8 ≤ (rung 3 3 0).act F.PWR_CTRL_floor ∧ (8#32).toNat % 8 < (rung 3 3 0).rd F.PWR_STATUS_rung ∧
      (11#32).toNat % 8 = (rung 3 3 0).rd F.PWR_STATUS_rung ∧ (rung 3 3 0).plyState ∉ [1, 2] ∧
      (wrs [(F.PLY_STATUS_state, 1)] (rung 3 3 0)).key ≠ 3 ∧
      (wrs [(F.PLY_STATUS_state, 1), (F.KEY_STATUS_effective, 3)] (rung 3 3 0)).key = 3) ∧
    (let s := rung 3 7 1
     s.rd F.PWR_STATUS_moving = 1 ∧ s.pwr.queued = none ∧ s.pwr.wakeFrom = none ∧ s.rd F.PWR_STATUS_rung < s.rd F.PWR_STATUS_target ∧
      s.rd F.PWR_STATUS_target < 8 ∧ s.tasks.flushing = none ∧ s.hop.writing = false) ∧
    (let s := rung 2 0 1
     s.rd F.PWR_STATUS_target < s.rd F.PWR_STATUS_rung ∧ s.rd F.PWR_STATUS_rung = 2 ∧ s.rd F.PWR_STATUS_holdup_ok = 1 ∧
      s.pd .miller = true ∧ s.fw.recovery = false) ∧
    (rung 4 0 1).rd F.PWR_STATUS_rung = 4 ∧ (rung 3 3 1).rd F.PWR_STATUS_target = (rung 3 3 1).rd F.PWR_STATUS_rung ∧
    (∀ r ∈ [1, 6], let s := { rung r r 0 with pwr := { PwrSt.cold with keepAlarm := 5 }, time := { TimeSt.cold with work := 5 * unitSec } }
     s.rd F.PWR_STATUS_moving = 0 ∧ s.rd F.PWR_STATUS_rung = r ∧ s.pwr.keepAlarm ≠ 0 ∧ s.pwr.keepAlarm ≤ s.keepSecond ∧
      s.keepSecond < ({ s.pwr with keepAlarm := 6 } : PwrSt).keepAlarm ∧
      bitOf (s.act F.PWR_CTRL_wake_en) 3 = true ∧ bitOf (s.act F.PWR_CTRL_wake_en) 2 = true) ∧
    (let s := { rung 2 2 0 with pwr := { PwrSt.cold with wantUp := some 0 } }
     s.pwr.wantUp = some 0 ∧ s.rd F.PWR_STATUS_moving = 0 ∧ 0 < s.rd F.PWR_STATUS_rung) ∧
    (let s := wrs [(F.PWR_STATUS_holdup_ok, 0)] (rung 2 1 1)
     s.rd F.PWR_STATUS_holdup_ok = 0 ∧ s.rd F.PWR_STATUS_moving = 1 ∧ s.rd F.PWR_STATUS_rung = 2 ∧
      s.rd F.PWR_STATUS_target < 2 ∧ s.pwr.queued = none ∧ s.pwr.wakeFrom = none) := by decide +kernel

theorem test_step_down_turns_domains_off : (after .rungStepDone (rung 0 1 1)).rd F.PWR_STATUS_rung = 1 ∧
    (after .rungStepDone (rung 3 4 1)).pd .time = false ∧ (after .rungStepDone (rung 3 4 1)).pd .hostsvc = true := by decide +kernel

theorem witness_Resets :
    (State.reset.pd .wake = true ∧ State.reset.plyState ∉ [1, 2] ∧ lone.plyState = 1 ∧ lone.key ≠ 3 ∧
      (wrs [(F.KEY_STATUS_effective, 3)] lone).key = 3 ∧ active.plyState = 2 ∧ active.rd F.PLY_STATUS_link = 2 ∧
      active.rd F.PLY_STATUS_partner_state ∉ [1, 2] ∧ (roled 2 2 2).rd F.PLY_STATUS_partner_state ∈ [1, 2]) ∧
    Boots State.reset ∧ ({ PwrSt.cold with warmWanted := true, partnerWanted := true } : PwrSt).warmWanted = true ∧
    (let s := cfg [(F.PLY_CTRL_auto_restart, 1)] { roled 6 2 2 with ply := { active.ply with restarts := [0, 0] } }
     Boots s ∧ s.plyState = 6 ∧ s.act F.PLY_CTRL_auto_restart = 1 ∧ s.rd F.PLY_REASON_abdication ≠ 8 ∧
      (s.ply.restarts.filter (fun j => decide (s.workSec < j + 3600))).length < 3) ∧
    (let s := { wrs [(F.PWR_DOMAINS_on, 1)] State.reset with pwr := { PwrSt.cold with coldWanted := true, inputGood := false } }
     s.pwr.coldWanted = true ∧ s.pwr.inputGood = false ∧ ∀ d : Pd, d ≠ .keep → s.pd d = false) := by
  refine ⟨?_, ⟨?_, ?_⟩, ?_, ⟨⟨?_, ?_⟩, ?_⟩, ?_, ?_, fun d h => ?_⟩
  all_goals first | (cases d <;> first | exact absurd rfl h | decide +kernel) | decide +kernel

theorem witness_BrakeMatrixAndInputLoss :
    (let s := cfg [(F.BRK_IN_CFG_enable 7, 1)] lone
     s.pd .brake = true ∧ s.act (F.BRK_IN_CFG_enable 7) = 1 ∧ bitOf (s.rd F.BRK_SRC_RAW_raw) 7 = false ∧ s.pd .time = true ∧
      s.rd F.BRK_FIRST_valid = 0 ∧ bitOf ((wrs [(F.BRK_SRC_RAW_raw, 128)] s).rd F.BRK_SRC_RAW_raw) 7 = true ∧
      (31#32).toNat % 16 ≠ s.rd F.BRK_SOFT_soft) ∧
    lone.plyState = 1 ∧ active.plyState = 2 ∧ active.rd F.PLY_STATUS_link = 2 ∧ 0 ≤ lone.turn.k ∧
    (let s := wrs [(F.TURN_WDOG_tripped, 1), (F.BRK_STATE_port, 0x8000), (F.SK_STATUS_link 15, 2)] (cfg [(F.STATION_MAP_0_present 255, 1)] active)
     s.noRelease = true ∧ bitOf (s.rd F.BRK_STATE_port) 15 = true ∧ s.rd (F.SK_STATUS_link 15) = 2 ∧ 255 ∈ s.portStations 15) ∧
    ({ PwrSt.cold with shedding := true } : PwrSt).shedding = true ∧ lone.tasks.flushing = none ∧
    ({ lone.tasks with flushing := some 0 } : TasksSt).flushing ≠ none ∧ lone.pwr.shedding = false ∧ lone.pd .keep = true ∧
    ({ TimeSt.cold with workSet := true } : TimeSt).workSet = true ∧ lone.pwr.ejected = false ∧ standby.plyState = 4 ∧
    ({ PwrSt.cold with ejected := true } : PwrSt).ejected = true := by decide +kernel

/-! The host, the hopper, firmware and Hyica. -/

/-- A module with the host's command ring 3 open for every class of command, and the key at a position. -/
def hosted (key : Nat) (s : State) : State :=
  wrs [(F.HRING_CTRL_enable 3, 1), (F.HRING_CTRL_cmd_log2 3, 4), (F.HRING_CTRL_cpl_log2 3, 4), (F.RING_POLICY_allow 3, 0x1FF),
    (F.KEY_STATUS_effective, key)] { s with host := { HostSt.cold with busMaster := true, linkDown := false } }

/-- A command in ring 3 with operand bytes and a buffer of a length. -/
def hcmd (op : Nat) (ops : List (Nat × Nat)) (len : Nat) : HostCmd :=
  cmd op 0 (bytesOf 40 (ops.map (fun e => (e.1 - 24, e.2)))) 0x1000 len (bytesOf len []) 3

theorem ready (s : State) (c : HostCmd) (op : Nat) (h : c.desc.op.toNat = op ∧ s.begins c = true ∧ s.cmdFault c = none ∧
    bitOf c.desc.flags.toNat 1 = false ∧ s.host.linkDown = false ∧ s.dmaOk = true ∧
    (s.acAccess 3 1 3 (cplAddr s c) 32).2 = true) : Ready s c op :=
  ⟨h.1, h.2.1, h.2.2.1, h.2.2.2.1, ⟨h.2.2.2.2.1, h.2.2.2.2.2.1⟩, h.2.2.2.2.2.2⟩

/-- The doorbell page: ring 3 at the edge of its size and just outside it, completions likewise. -/
theorem witness_HostRingsAndLink :
    (let s := { hosted 2 lone with host := { (hosted 2 lone).host with reading := true } }
     s.pd .hostsvc = true ∧ s.host.reading = true ∧ s.dmaOk = true ∧ s.pd .miller = true ∧ s.host.millerUp = true ∧
      (s.acAccess 3 0 0 (s.hostAddr 0x2010) 128).2 = true ∧
      s.rd (F.HRING_CTRL_enable 3) = 1 ∧ s.rd (F.HRING_STATUS_error 3) = 0 ∧
      s.offered (bytesOf 128 [(12, 16)]) 3 ≤ s.cmdSize 3 ∧ idxGap 0 (leAt (bytesOf 128 [(12, 16)]) (0x10 + 4 * 3) 4) ≤ s.cplSize 3 ∧
      s.cmdSize 3 < s.offered (bytesOf 128 [(12, 17)]) 3 ∧ s.cplSize 3 < idxGap 0 (leAt (bytesOf 128 [(28, 1)]) (0x10 + 4 * 3) 4)) ∧
    (lone.rd (F.HRING_CTRL_enable 3) = 0 ∧ (0xFFFFFFFF#32).toNat % 2 = 1 ∧ (hosted 2 lone).rd (F.HRING_CTRL_enable 3) = 1) ∧
    (lone.rd F.EVR_CTRL_enable = 0 ∧ 6 ≤ bitsOf (13#32).toNat 5 1 ∧ bitsOf (33#32).toNat 5 1 ≤ 16 ∧ (13#32).toNat % 2 = 1) ∧
    (lone.rd (F.TRR_CTRL_enable 15) = 0 ∧ 4 ≤ bitsOf (9#32).toNat 4 1 ∧ bitsOf (25#32).toNat 4 1 ≤ 12) ∧
    (lone.host.linkDown = true ∧ (hosted 2 lone).host.linkDown = false ∧ lone.host.perst = false) ∧
    (let s := wrs [(F.EVT_COAL_time_us 127, 1)] { lone with host := { HostSt.cold with coal := [(127, 1)], funcMask := false } }
     SMap.has s.host.coal 127 = true ∧ s.rd (F.EVT_COAL_time_us 127) ≠ 0 ∧ s.host.funcMask = false ∧
      s.rd (F.MSIX_CTRL_mask 127) = 1 ∧ (wrs [(F.MSIX_CTRL_mask 127, 0)] s).rd (F.MSIX_CTRL_mask 127) = 0) ∧
    bitOf ((wrs [(F.MSIX_PBA_pending 3, 2 ^ 31)] lone).rd (F.MSIX_PBA_pending (127 / 32))) (127 % 32) = true ∧
    (∀ r ∈ [5, 6], let s := { rung r r 0 with host := { HostSt.cold with perst := true } }
     s.host.perst = true ∧ s.rd F.PWR_STATUS_moving = 0 ∧ s.rd F.PWR_STATUS_rung = r ∧ bitOf (s.act F.PWR_CTRL_wake_en) 0 = true) := by
  decide +kernel

/-- A module in key position TEND with the last slot the host's, forces, programs and a message received. -/
def answering : State :=
  let s := hosted 2 (cfg [(F.SLOT_POL_0_kind 262143, 3), (F.MB_BUF_CFG_role 1 63, 1), (F.SLOT_POL_0_kind 7, 1),
    (F.MB_BUF_CFG_role 0 63, 3), (F.MB_CTRL_enable 0, 1)] lone)
  { s with image := { s.image with forces := [(9, 5)] }, progs := { s.progs with active := [(15, progOf 0)] },
           mill := [(1, { MillChan.idle with bufs := [(63, { MillBuf.empty with msg := some ⟨List.replicate 18 0, 0, 0⟩ })] })] }

theorem witness_HostReadsAnswered :
    (let c := hcmd 0x00 [] 0
     Ready answering c 0x00) ∧
    (let c := hcmd 0x10 [(24, 0), (25, 0xC0), (26, 3), (29, 0x40)] 65536
     Ready answering c 0x10 ∧ 1 ≤ opAt c 28 4 ∧ opAt c 28 4 = 16384 ∧ opAt c 24 4 + opAt c 28 4 = 262144 ∧ bufOk c 65536 = true ∧ c.dmaOk = true ∧
      ∀ p ∈ pieces 65536, (answering.acAccess 3 1 2 (c.desc.buf.toNat + p.1) p.2).2 = true) ∧
    (let c := hcmd 0x12 [(24, 255), (25, 255), (26, 3), (28, 1)] 16
     Ready answering c 0x12 ∧ opAt c 28 4 = 1 ∧ opAt c 24 4 + opAt c 28 4 = 262144 ∧ Buffered answering c 1 16) ∧
    (let c := hcmd 0x20 [(24, 255), (25, 15), (26, 1)] 32
     Ready answering c 0x20 ∧ 1 ≤ opAt c 26 2 ∧ opAt c 24 2 + opAt c 26 2 ≤ 4096 ∧ Buffered answering c 1 (32 * opAt c 26 2)) ∧
    (let c := hcmd 0x32 [] 32768
     Ready answering c 0x32 ∧ bufOk c 32768 = true ∧ Buffered answering c 1 (8 * answering.image.forces.length)) ∧
    (let c := hcmd 0x51 [(24, 15), (28, 48), (29, 1)] 8
     Ready answering c 0x51 ∧ opByte c 24 < 16 ∧ bufOk c 0 = true ∧ opByte c 25 ≠ 1 ∧
      SMap.getD answering.progs.active (opByte c 24) [] = progOf 0 ∧ opAt c 28 4 ≤ (progOf 0).length ∧ Buffered answering c 1 (((progOf 0).drop (opAt c 28 4)).take c.desc.len.toNat).length) ∧
    (let c := hcmd 0x81 [(24, 1), (25, 63)] 144
     Ready answering c 0x81 ∧ opByte c 24 < 2 ∧ opByte c 25 < 64 ∧ Buffered answering c 1 144 ∧
      answering.millRole (opByte c 24) (opByte c 25) = 1 ∧ ((answering.millBuf 1 63).msg.map (·.words.length)) = some 18) := by
  refine ⟨ready _ _ _ ?_, ⟨ready _ _ _ ?_, ?_⟩, ⟨ready _ _ _ ?_, ?_, ?_, ?_, ?_, ?_, ?_⟩, ⟨ready _ _ _ ?_, ?_, ?_, ?_, ?_, ?_, ?_⟩,
    ⟨ready _ _ _ ?_, ?_, ?_, ?_, ?_, ?_⟩, ⟨ready _ _ _ ?_, ?_, ?_, ?_, ?_, ?_, ?_, ?_, ?_, ?_⟩, ready _ _ _ ?_, ?_, ?_, ⟨?_, ?_, ?_, ?_⟩, ?_, ?_⟩
  all_goals decide +kernel

/-- A program slot load waits, and 4,095 slots but none of those named are forced. -/
theorem witness_HostWritesAccepted :
    (let c := { hcmd 0x11 [(24, 1)] 8 with data := bytesOf 8 [(0, 255), (1, 255), (2, 3)] }
     Ready answering c 0x11 ∧ opAt c 24 4 = 1 ∧ c.desc.buf.toNat ≠ 0 ∧ Buffered answering c 0 8 ∧
      ∀ e ∈ pairsOf c.data 1, e.1 < 262144 ∧ answering.slotKind e.1 = 3 ∧ answering.key ≠ 0) ∧
    (let c := hcmd 0x21 [(24, 255), (25, 15), (26, 1)] 0
     Ready answering c 0x21 ∧ opAt c 24 2 = 4095 ∧ opByte c 26 = 1 ∧ answering.act (F.LOOP_CTRL_sp_kind (opAt c 24 2)) = 0) ∧
    (let c := { hcmd 0x30 [(24, 1)] 8 with data := bytesOf 8 [(0, 7)] }
     Ready answering c 0x30 ∧ opAt c 24 4 = 1 ∧ Buffered answering c 0 8 ∧
      (∀ e ∈ pairsOf c.data 1, e.1 < 262144 ∧ answering.slotKind e.1 ≠ 0 ∧ answering.slotKind e.1 ≠ 3) ∧
      (answering.forcedSoon ++ (pairsOf c.data 1).map (·.1)).length ≤ 4096) ∧
    (let c := { hcmd 0x31 [(24, 1)] 4 with data := [7, 0, 0, 0] }
     Ready answering c 0x31 ∧ opAt c 24 4 = 1 ∧ Buffered answering c 0 4 ∧
      ∀ x ∈ (upTo 1).map (fun i => leAt c.data (4 * i) 4), x < 262144 ∧ answering.slotKind x ≠ 0 ∧ answering.slotKind x ≠ 3) ∧
    (let c := { hcmd 0x40 [(24, 1)] 8 with data := bytesOf 8 [(1, 0x44)] }
     Ready answering c 0x40 ∧ opAt c 24 4 = 1 ∧ Buffered answering c 0 8 ∧
      ∀ e ∈ pairsOf c.data 1, e.1 % 4 = 0 ∧ e.1 < 0x100000 ∧ stgRows (answering.mapOff e.1) ≠ []) ∧
    (let c := hcmd 0x41 [(24, 255), (25, 255), (26, 3), (28, 1)] 16
     Ready answering c 0x41 ∧ opAt c 28 4 = 1 ∧ opAt c 24 4 + opAt c 28 4 = 262144 ∧ Buffered answering c 0 16) ∧
    Ready answering (hcmd 0x44 [] 0) 0x44 ∧
    (∀ last ∈ [0, 1], let c := hcmd 0x50 [(24, 15), (25, last)] 304
     Ready answering c 0x50 ∧ opByte c 24 < 16 ∧ opAt c 28 4 = 0 ∧ c.desc.len.toNat ≤ maxImage ∧ answering.onlineUses 15 = false ∧
      Buffered answering c 0 304 ∧ opByte c 25 = last) ∧
    (let s := wrs [(F.ONLINE_STATUS_state, 2)] { answering with hop := { answering.hop with onlineSlots := [9] } }
     Ready s (hcmd 0x50 [(24, 9)] 8) 0x50 ∧ bufOk (hcmd 0x50 [(24, 9)] 8) 8 = true ∧ s.onlineUses 9 = true) ∧
    (let c := hcmd 0x80 [(24, 0), (25, 63)] 144
     Ready answering c 0x80 ∧ opByte c 24 < 2 ∧ opByte c 25 < 64 ∧ Buffered answering c 0 144 ∧
      answering.sendRefusal 0 63 (sendWords c) = none ∧ wordsIdent (sendWords c) = answering.bufIdent 0 63) := by
  refine ⟨⟨ready _ _ _ ?_, ?_, ?_, ⟨?_, ?_, ?_, ?_⟩, ?_⟩, ⟨ready _ _ _ ?_, ?_⟩, ⟨ready _ _ _ ?_, ?_, ⟨?_, ?_, ?_, ?_⟩, ?_⟩,
    ⟨ready _ _ _ ?_, ?_, ⟨?_, ?_, ?_, ?_⟩, ?_⟩, ⟨ready _ _ _ ?_, ?_, ⟨?_, ?_, ?_, ?_⟩, ?_⟩,
    ⟨ready _ _ _ ?_, ?_, ?_, ⟨?_, ?_, ?_, ?_⟩⟩, ready _ _ _ ?_, fun last h => ⟨ready _ _ _ ?_, ?_, ?_, ?_, ?_, ⟨?_, ?_, ?_, ?_⟩, ?_⟩,
    ⟨ready _ _ _ ?_, ?_⟩, ready _ _ _ ?_, ?_, ?_, ⟨?_, ?_, ?_, ?_⟩, ?_⟩
  all_goals first | decide +kernel | (revert last; decide +kernel)

theorem witness_SlotContainers :
    (let c := { hcmd 0x11 [(24, 1)] 8 with data := bytesOf 8 [(0, 255), (1, 255), (2, 3), (7, 255)] }
     Ready answering c 0x11 ∧ opAt c 24 4 = 1 ∧ c.desc.buf.toNat ≠ 0 ∧ Buffered answering c 0 8 ∧
      pairsOf c.data 1 = [(262143, 0xFF000000)] ∧ answering.slotKind 262143 = 3 ∧ answering.key ≠ 0) ∧
    (let s := { answering with image := { answering.image with waiting := [(0, .slot 0x3FFFF 5)] } }
     s.image.waiting = [(0, .slot 0x3FFFF 5)] ∧ 0 ≤ s.turn.k ∧ s.slotKind (0x3FFFF#18).toNat = 3) := by
  refine ⟨⟨ready _ _ _ ?_, ?_, ?_, ⟨?_, ?_, ?_, ?_⟩, ?_⟩, ?_⟩ <;> decide +kernel

theorem test_container : (⟨0x20001, 0b110010⟩ : Entry).container = 0xCA0001 := by decide

/-- A commit command that names turn 2, and the active module with its tests under way. -/
def commit2 : HostCmd := hcmd 0x43 [(32, 2)] 0
def committing (k : Nat) (bad : Bool) : State :=
  let s := hosted 2 active
  { s with turn := { s.turn with k }
           hop := { s.hop with testing := some ⟨true, if bad then (cfg [(F.SLOT_POL_0_kind 7, 1)] s).hop.active else [], 0⟩ }
           host := { s.host with outstanding := [⟨commit2, 0x43, none, none, false, false⟩] } }
/-- A commit armed for turn 2, acknowledged or not, that retimes the turn or not. -/
def armed (acked retimes : Bool) (s : State) : State :=
  let image := if retimes then RegMap.set [] F.TURN_LENGTH_turn_ns 20000 else []
  { s with turn := { s.turn with k := 2 }
           hop := { s.hop with writing := true, armed := some ⟨true, image, 0, [], 2, 0, acked⟩ } }

theorem witness_CommitsCheckedArmedAndApplied :
    (Ready (hosted 2 active) (hcmd 0x42 [] 0) 0x42 ∧ bufOk (hcmd 0x42 [] 0) 0 = true) ∧
    (Ready (hosted 2 active) commit2 0x43 ∧ (hosted 2 active).commitOperands commit2 = 0 ∧ (hosted 2 active).hop.armed = none ∧
      Ready (armed true false (hosted 2 active)) commit2 0x43 ∧ (armed true false (hosted 2 active)).commitOperands commit2 = 0 ∧
      (armed true false (hosted 2 active)).hop.armed ≠ none) ∧
    (let u : HopperTest := ⟨false, [], 0⟩
     u.isCommit = false ∧ (committing 0 false).host.millerUp = true) ∧
    (∀ bad, ((committing 0 bad).hop.testing.map (·.isCommit)) = some true ∧ (committing 0 bad).hop.armed = none ∧
      (committing 0 bad).host.outstanding.find? (fun m => m.op == 0x43 && m.boundary.isNone) =
        some ⟨commit2, 0x43, none, none, false, false⟩ ∧ opByte commit2 24 = 0) ∧
    ((committing 0 false).checkFailures [] = [] ∧
      (committing 0 true).checkFailures (cfg [(F.SLOT_POL_0_kind 7, 1)] (hosted 2 active)).hop.active ≠ [] ∧
      opAt commit2 32 8 < (committing 1 false).orderBoundary ∧ 40 < (committing 0 false).orderBoundary + 40 ∧
      (committing 0 false).orderBoundary ≤ opAt (hcmd 0x43 [(33, 255)] 0) 32 8) ∧
    (∀ acked retimes, let s := armed acked retimes (hosted 2 lone)
     (∃ a, s.hop.armed = some a ∧ a.boundary ≤ s.turn.k ∧ a.acked = acked ∧
        (keyPermits s.key s.hop.active a.image = true ↔ retimes = false)) ∧
      s.plyState ∈ [1, 2, 4] ∧ s.tasks.keyNext = none ∧ s.hop.writing = true) := by
  refine ⟨⟨ready _ _ _ ?_, ?_⟩, ⟨ready _ _ _ ?_, ?_, ?_, ready _ _ _ ?_, ?_, ?_⟩, ?_, ?_, ?_, fun acked retimes => ⟨⟨_, rfl, ?_⟩, ?_⟩⟩
  all_goals first | decide +kernel | (revert acked retimes; decide +kernel)

/-- A host firmware build that has a whole manifest, with no part or with part 0, as a state may hold it. -/
def building (verified : Bool) (manifest : Bytes) (source : Nat) (s : State) : State :=
  { s with fw := { s.fw with manifests := [(0, []), (1, [])], build := some ⟨source, manifest, verified, [], []⟩ } }
/-- A manifest that lists part 0 alone. -/
def manifest1 : Bytes := bytesOf 1408 [(6, 1)]

/-- Which status a manifest with a good form or a delta with a good source gets rests on SHA-384 and on the signature,
which the model does not compute: the witnesses show the refusals. -/
theorem witness_HostFirmwareAndLogCommands :
    (let c := hcmd 0x70 [] 1407
     let s := hosted 2 lone
     Ready s c 0x70 ∧ Buffered s c 0 1407 ∧ s.fwOpen = true ∧ s.rd F.FW_STATUS_state = 0 ∧ opAt c 28 4 = 0 ∧
      c.desc.len.toNat = 1407 ∧ (c.data.take 1407).length = 1407) ∧
    (let c := hcmd 0x70 [(28, 1)] 1407
     let s := building false [0] 1 (hosted 2 lone)
     Ready s c 0x70 ∧ Buffered s c 0 1407 ∧ (s.fw.build.map (fun b => (b.source, b.verified, b.manifest.length))) = some (1, false, opAt c 28 4) ∧
      opAt c 28 4 ≠ 0 ∧ ([0] ++ c.data.take 1407).length = 1408 ∧ s.manifestFault ([0] ++ c.data.take 1407) ≠ 0) ∧
    (∀ last ∈ [0, 1], let c := hcmd 0x71 [(25, last)] 63
     let s := building true manifest1 1 (hosted 2 lone)
     Ready s c 0x71 ∧ Buffered s c 0 63 ∧ s.pd .dram = true ∧ s.fw.recovery = false ∧
      (s.fw.build.map (fun b => (b.source, b.verified, b.manifest))) = some (1, true, manifest1) ∧
      opByte c 24 ∈ manParts manifest1 ∧ opAt c 28 4 = 0 ∧ bitOf (opByte c 25) 0 = (last == 1)) ∧
    (∀ x, applyDelta x ([] ++ (hcmd 0x71 [(25, 1)] 63).data.take 63) 0 (manHash manifest1 0) = .error 1) ∧
    (let c := hcmd 0x72 [] 0
     let s := wrs [(F.FW_STATUS_state, 2)] (building false [] 1 (hosted 2 lone))
     Ready s c 0x72 ∧ opByte c 24 = 0 ∧ s.rd F.FW_STATUS_state = 2 ∧ s.hop.armed = none ∧ s.rd F.ONLINE_STATUS_state = 0 ∧
      s.ply.orders = [] ∧ s.compatible = true ∧ s.fwPly = false) ∧
    (∀ key ∈ [2, 3], let c := hcmd 0x72 [(24, 1)] 0
     let s := wrs [(F.FW_STATUS_state, 2)] (hosted key active)
     Ready s c 0x72 ∧ opByte c 24 = 1 ∧ s.rd F.FW_STATUS_state = 2 ∧ s.hop.armed = none ∧ s.rd F.ONLINE_STATUS_state = 0 ∧
      s.ply.orders = [] ∧ s.key = key ∧ s.fwPly = true) ∧
    (∀ st ∈ [0, 1], let s := wrs [(F.FW_STATUS_confirm, st)] (hosted 2 lone)
     Ready s (hcmd 0x73 [] 0) 0x73 ∧ s.rd F.FW_STATUS_confirm = st) ∧
    (let c := hcmd 0x60 [(24, 0xB8), (25, 0xF), (28, 64)] 65536
     let s := wrs [(F.REC_STATUS_pointer, 4088)] (hosted 2 lone)
     Ready s c 0x60 ∧ opAt c 28 4 = 64 ∧ opAt c 24 4 + opAt c 28 4 = s.rd F.REC_STATUS_pointer ∧ bufOk c 65536 = true ∧ c.dmaOk = true ∧
      ∀ p ∈ pieces 65536, (s.acAccess 3 1 2 (c.desc.buf.toNat + p.1) p.2).2 = true) ∧
    (∀ at_ ∈ [0, 1], Ready (hosted 2 lone) (hcmd 0x61 [(24, at_)] 0) 0x61 ∧ opAt (hcmd 0x61 [(24, at_)] 0) 24 4 = at_ ∧
      (hosted 2 lone).rd F.REC_STATUS_pointer = 0) := by
  refine ⟨⟨ready _ _ _ ?_, ⟨?_, ?_, ?_, ?_⟩, ?_⟩, ⟨ready _ _ _ ?_, ⟨?_, ?_, ?_, ?_⟩, ?_⟩,
    fun last h => ⟨ready _ _ _ ?_, ⟨?_, ?_, ?_, ?_⟩, ?_⟩, fun x => rfl, ⟨ready _ _ _ ?_, ?_⟩, fun key h => ⟨ready _ _ _ ?_, ?_⟩,
    fun st h => ⟨ready _ _ _ ?_, ?_⟩, ⟨ready _ _ _ ?_, ?_⟩, fun at_ h => ⟨ready _ _ _ ?_, ?_⟩⟩
  all_goals first | (revert last; decide +kernel) | (revert key; decide +kernel) | (revert st; decide +kernel) | (revert at_; decide +kernel) | decide +kernel

theorem witness_FirmwareBuiltSwitchedConfirmed :
    (let s := building true [] 1 lone
     s.pd .miller = true ∧ s.fw.recovery = false ∧ s.wholeBuild = s.fw.build ∧ s.fwPly = false) ∧
    (let s := { building true [] 1 active with fw := { (building true [] 1 active).fw with partnerBuilt := some (crc32c []) } }
     s.wholeBuild = s.fw.build ∧ s.fwPly = true ∧ s.fw.partnerBuilt = some (crc32c [])) ∧
    (∀ together falling, let s := { lone with fw := { lone.fw with activateAt := some 0, together, falling } }
     s.fw.activateAt = some 0 ∧ 0 ≤ s.turn.k ∧ s.fw.together = together ∧ s.fw.falling = falling ∧
       s.fw.keyFloor ≤ s.keyAt 0 ∧ s.keyAt 0 < ({ s.fw with keyFloor := 2 } : FwSt).keyFloor) ∧
    (let s := wrs [(F.FW_STATUS_confirm, 1)] { lone with fw := { lone.fw with served := true, healths := 16 } }
     s.confirmReady = true ∧ s.fw.falling = false ∧ s.fw.step ≠ 3 ∧ s.rd F.FW_STATUS_confirm = 1) ∧
    lone.confirmReady = false ∧ lone.handoverOk = false ∧
    (wrs [(F.KEY_STATUS_effective, 1)] active).handoverOk = true ∧ (wrs [(F.KEY_STATUS_effective, 1)] active).plyUp = true := by decide +kernel

/-- The request of a session whose sequence number is next; its identity is the module's own. -/
def req (seq : Nat) (payload : Bytes) : HyicaReq := ⟨true, 9, BitVec.ofNat 32 seq, Config.moduleIdent, payload⟩
/-- A module with the service port up and session 9 open after request 7, whose key is at a position. -/
def serving (key : Nat) : State :=
  wrs [(F.SVC_STATUS_link, 2), (F.KEY_STATUS_effective, key)] (cfg [(F.FW_CTRL_svc_en, 1)]
    { lone with fw := { lone.fw with session := some 9, lastOp := 0x20, lastSeq := 7, lastReply := bytesOf 30 [(7, 9)] } })

theorem session (s : State) (n : Nat) (p : Bytes) (op : Nat)
    (h : s.pd .hostsvc = true ∧ s.pd .miller = true ∧ s.host.millerUp = true ∧ s.rd F.SVC_STATUS_link = 2 ∧ s.act F.FW_CTRL_svc_en = 1 ∧
      s.fw.session = some 9 ∧ (BitVec.ofNat 32 n).toNat = (s.fw.lastSeq + 1) % 2 ^ 32 ∧ s.fw.lastSeq ≠ (BitVec.ofNat 32 n).toNat) :
    InSession s (req n p) op :=
  ⟨by simp [State.served, State.aon, h, req], by
    simp only [State.repeats, req, beq_eq_false_iff_ne.2 h.2.2.2.2.2.2.2, Bool.and_false, Bool.false_and], h.2.2.2.2.2.1, h.2.2.2.2.2.2.1, rfl⟩

theorem witness_HyicaSessions :
    (∀ q, lone.served q = false) ∧ (∀ p, (serving 2).served (req 7 p) = true ∧ (serving 2).repeats (req 7 p) 0x20 = true) ∧
    (∀ p n, (serving 2).served (req n p) = true ∧ (serving 2).repeats (req n p) 3 = false ∧ (serving 2).repeats (req n p) 2 = false) ∧
    (∀ p, InSession (serving 2) (req 8 p) 3) ∧ (serving 2).fw.session = some (req 8 []).session.toNat ∧
    (req 8 []).seq.toNat = ((serving 2).fw.lastSeq + 1) % 2 ^ 32 ∧ (req 9 []).seq.toNat ≠ ((serving 2).fw.lastSeq + 1) % 2 ^ 32 ∧
    (serving 2).fw.session ≠ none ∧ lone.fw.session = none ∧ lone.fw.session ≠ some (req 8 []).session.toNat ∧
    (req 8 []).payload = [] ∧ ({ req 8 [] with ident := 0 } : HyicaReq).ident = 0 ∧
    { req 8 [] with ident := ~~~Config.moduleIdent }.ident ≠ Config.moduleIdent ∧
    ({ serving 2 with fw := { (serving 2).fw with lastOp := 2 } } : State).repeats (req 7 []) 2 = true ∧
    (req 8 (bytesOf 8 [(7, 1)])).payload.length = 8 ∧ beAt (req 8 (bytesOf 8 [(7, 1)])).payload 4 4 = 1 := by
  refine ⟨fun q => ?_, fun p => ⟨?_, ?_⟩, fun p n => ⟨?_, ?_, ?_⟩, fun p => session _ _ _ _ ?_, ?_, ?_, ?_, ?_, ?_, ?_, rfl, rfl, ?_, ?_, ?_, ?_⟩
  case refine_1 => have h : (lone.rd F.SVC_STATUS_link == 2) = false := by decide +kernel
                   simp [State.served, h]
  case refine_14 => generalize Config.moduleIdent = m; revert m; bv_omega
  all_goals first | decide +kernel | rfl

theorem witness_HyicaFirmwareRequests :
    (∀ key ∈ [0, 1, 2], ∀ p op, (serving key).fw.recovery = false ∧ (serving key).key = key ∧ InSession (serving key) (req 8 p) op) ∧
    ((∀ p op, InSession (serving 3) (req 8 p) op) ∧ (serving 3).fwOpen = true ∧ (serving 3).rd F.FW_STATUS_state ∉ [1, 3] ∧
      4 ≤ (bytesOf 1411 []).length ∧ beAt (bytesOf 1411 []) 0 4 = 0 ∧ ((bytesOf 1411 []).drop 4).length < 1408) ∧
    (let s := building true manifest1 2 (serving 3)
     let q := req 8 (bytesOf 8 [(1, 1)])
     InSession { s with fw := { (serving 3).fw with build := s.fw.build } } q 0x11 ∧ PieceHead q ∧ PieceHead (req 8 (bytesOf 8 [])) ∧
      s.pd .dram = true ∧ (s.fw.build.map (fun b => (b.source, b.verified, b.manifest))) = some (2, true, manifest1) ∧
      byteAt q.payload 0 ∈ manParts manifest1 ∧ beAt q.payload 4 4 = 0 ∧ bitOf (byteAt q.payload 1) 0 = true ∧
      ∀ x, applyDelta x ([] ++ q.payload.drop 8) 0 (manHash manifest1 0) = .error 1) ∧
    (let s := { serving 2 with fw := { (serving 2).fw with recovery := true, build := some ⟨2, manifest1, true, [], []⟩ } }
     InSession s (req 8 (bytesOf 8 [])) 0x12 ∧ s.fw.recovery = true ∧ s.wholeBuild = none) ∧
    (let s := wrs [(F.FW_STATUS_state, 2)] { serving 2 with fw := { (serving 2).fw with manifests := [(0, []), (1, [])] } }
     InSession s (req 8 [0]) 0x20 ∧ s.fw.recovery = false ∧ s.rd F.FW_STATUS_state = 2 ∧ s.hop.armed = none ∧
      s.rd F.ONLINE_STATUS_state = 0 ∧ s.ply.orders = [] ∧ s.compatible = true ∧ s.fwPly = false ∧ 2 ≤ s.key) ∧
    ((wrs [(F.FW_STATUS_confirm, 1)] (serving 2)).rd F.FW_STATUS_confirm = 1 ∧ (serving 2).rd F.FW_STATUS_confirm ≠ 1 ∧
      (serving 3).key = 3 ∧ (req 8 []).payload = []) ∧
    (let s := wrs [(F.FW_STATUS_lifecycle, 2)] { lone with fw := { lone.fw with recoverWanted := true } }
     s.fw.recoverWanted = true ∧ s.rd F.FW_STATUS_lifecycle = 2) ∧
    (let s := { lone with fw := { lone.fw with recovery := true, build := some ⟨2, [], true, [], []⟩ } }
     s.fw.recovery = true ∧ s.wholeBuild = some ⟨2, [], true, [], []⟩) := by
  refine ⟨fun key h p op => ⟨?_, ?_, session _ _ _ _ ?_⟩, ⟨fun p op => session _ _ _ _ ?_, ?_⟩, ⟨session _ _ _ _ ?_, ⟨?_, ?_⟩, ⟨?_, ?_⟩, ?_, ?_, ?_, ?_, ?_, fun x => rfl⟩,
    ⟨session _ _ _ _ ?_, ?_⟩, ⟨session _ _ _ _ ?_, ?_⟩, ⟨?_, ?_, ?_, rfl⟩, ?_, ?_⟩
  all_goals first | decide +kernel | (revert key; decide +kernel)

/-! The mill bus, accesses, seal units, the debug port, and the statements about every command. -/

/-- Channel 1 on, in error state 1, its buffer 63 in a role with a message, the register fields and settings as given. -/
def bus (role : Nat) (l c : List (Fld × Nat)) (x : MillBuf) (f : MillChan → MillChan) (s : State) : State :=
  wrs ([(F.MB_STATUS_state 1, 1), (F.MB_STATUS_muted 1, 0)] ++ l) (cfg ([(F.MB_CTRL_enable 1, 1), (F.MB_BUF_CFG_role 1 63, role)] ++ c)
    { s with mill := [(1, f { MillChan.idle with bufs := [(63, x)] })] })
/-- A message of 18 words, and a frame whose identifier is 0. -/
def message : MillMsg := ⟨List.replicate 18 0, 0, 0⟩
def frame (data : Bytes) (rtr : Bool) : CanFrame := ⟨0, false, false, false, rtr, data⟩

/-- The reference identifier is a constant of the module that the spec gives no register: 11 bits of it are assumed. -/
theorem witness_MillFramesTakenAndRead :
    (let s := bus 1 [] [(F.MB_BUF_CFG_map_en 1 63, 1), (F.MB_BUF_CFG_urgent_en 1 63, 1), (F.MB_BUF_CFG_urgent 1 63, 15)]
       { MillBuf.empty with msg := some message, read := false } id lone
     s.chanHears 1 = true ∧ (frame [] false).rtr = false ∧ s.takesFrame 1 (frame [] false) 63 = true ∧
      (∀ j < 63, s.takesFrame 1 (frame [] false) j = false) ∧ s.act (F.MB_BUF_CFG_urgent 1 63) < 16 ∧
      (s.millBuf 1 63).read = false ∧ (s.millBuf 1 63).newest ≠ none ∧ s.act (F.MB_BUF_CFG_map_en 1 63) = 1 ∧
      s.plyState ∉ [3, 4, 5] ∧ s.act (F.MB_BUF_CFG_urgent_en 1 63) = 1) ∧
    ((frame [] true).rtr = true ∧ ∀ b < 64, (bus 4 [] [] MillBuf.empty id lone).takesFrame 1 (frame [] false) b = false) ∧
    (bus 1 [] [(F.PLY_MILL_HB_mill_hb_en, 1), (F.PLY_MILL_HB_mill_hb_chan, 1)] MillBuf.empty id lone).isHeartbeat 1
      { frame (bytesOf 8 []) false with id := BitVec.ofNat 29 ((lone.act F.PLY_MILL_HB_id_base + lone.partnerPos) % 2048) } = true ∧
    (let s := bus 1 [(F.MB_RD_SEL_buffer 1, 63)] [] { MillBuf.empty with msg := some message, aside := some message }
       (fun c => { c with locked := true }) lone
     s.pd .hostsvc = true ∧ s.rd (F.MB_RD_SEL_buffer 1) = 63 ∧ (s.millCh 1).locked = true ∧ (s.millBuf 1 63).aside = some message ∧
      (s.millBuf 1 63).msg = some message ∧ message.words.length = 18 ∧ s.millRole 1 63 = 1 ∧
      (s.acAccess 0 0 0 (bar0Addr (0x9C04 + 0x1000 * 1)) 4).2 = true ∧ (s.acAccess 0 0 0 (bar0Addr (0x9C54 + 0x1000 * 1)) 4).2 = true) ∧
    ((bus 1 [] [] { MillBuf.empty with msg := some message } id lone).millCh 1).locked = false ∧
    (∀ v ∈ [some 5, none], ((bus 1 [] [] { MillBuf.empty with mapped := some v } id lone).millBuf 1 63).mapped = some v) ∧
    (let s := bus 1 [] [(F.MB_BUF_CFG_map_en 1 63, 1), (F.MB_BUF_CFG_tmo_ms 1 63, 1)] MillBuf.empty id lone
     s.chanOn 1 = true ∧ s.act (F.MB_BUF_CFG_map_en 1 63) = 1 ∧ s.millRole 1 63 = 1 ∧ s.act (F.MB_BUF_CFG_tmo_ms 1 63) ≠ 0) := by
  refine ⟨?_, ?_, ?_, ?_, ?_, fun v _ => rfl, ?_⟩ <;> decide +kernel

theorem witness_reference (h : Config.refId < 2048) :
    let s := bus 1 [] [(F.MB_TT_CTRL_tt_en 1, 1)] MillBuf.empty id lone
    s.isReference 1 { frame (bytesOf 8 []) false with id := BitVec.ofNat 29 Config.refId } = true ∧ s.act (F.MB_TT_CTRL_role 1) = 0 := by
  have h1 : (bus 1 [] [(F.MB_TT_CTRL_tt_en 1, 1)] MillBuf.empty id lone).aon (F.MB_TT_CTRL_tt_en 1) = true := by decide +kernel
  have h2 : (BitVec.ofNat 29 Config.refId).toNat = Config.refId := by simp; omega
  refine ⟨?_, by decide +kernel⟩
  unfold State.isReference
  rw [h1]
  change (true && true && true && true && true && ((BitVec.ofNat 29 Config.refId).toNat / 8 == Config.refId / 8) && true) = true
  simp only [h2, beq_self_eq_true, Bool.and_self]

theorem witness_MillSendsErrorsAndSchedule :
    (∀ tec ∈ [0, 247, 248, 255],
     let s := bus 2 [(F.MB_BUF_STATUS_pending 1 63, 1), (F.MB_STATUS_tec 1, tec)] [(F.MB_CTRL_clash_mute 1, 1)]
       { MillBuf.empty with msg := some message } (fun c => { c with history := [(0, [true, true])], heartbeat := some [] }) lone
     s.mayTransmit 1 (.buffer 63) = true ∧ s.mayTransmit 1 .heartbeat = true ∧ s.rd (F.MB_STATUS_tec 1) = tec ∧
      s.sourceIdent 1 (.buffer 63) = 0 ∧ 3 ≤ ((true :: SMap.getD (s.millCh 1).history 0 []).take 16).countP id ∧
      s.act (F.MB_CTRL_clash_mute 1) = 1 ∧ s.rd (F.MB_BUF_STATUS_pending 1 63) = 1) ∧
    (let s := bus 4 [] [(F.MB_TT_CTRL_tt_en 1, 1)] { MillBuf.empty with msg := some message } (fun c => { c with window := some 63 }) lone
     s.mayTransmit 1 (.buffer 63) = true ∧ s.millRole 1 63 = 4 ∧ s.rd (F.MB_STATUS_tec 1) ≤ 255 ∧ s.chanOn 1 = true ∧
      s.act (F.MB_TT_CTRL_tt_en 1) = 1 ∧ s.act (F.MB_TT_CTRL_role 1) ≠ 1 ∧ s.pastSecond 1 (s.windowWorst 1 63) = false ∧
      s.rd (F.MB_TT_STATUS_cycle 1) % 2 ^ s.act (F.MB_BUF_TT_rep 1 63) = s.act (F.MB_BUF_TT_off 1 63) ∧
      (bus 4 [] [] MillBuf.empty id lone).ttRuns 1 = false) ∧
    (let s := bus 4 [] [(F.MB_TT_CTRL_tt_en 1, 1), (F.MB_TT_CTRL_role 1, 1)] MillBuf.empty (fun c => { c with refPending := true, arbOpen := true }) lone
     s.act (F.MB_TT_CTRL_role 1) = 1 ∧ s.ttRuns 1 = true ∧
      s.pastSecond 1 ((s.act (F.MB_TT_ARB_arb_end 1) - s.act (F.MB_TT_ARB_arb_start 1)) * perUs) = false) ∧
    (∀ muted ∈ [0, 1], let s := bus 1 [(F.MB_STATUS_muted 1, muted)] [] MillBuf.empty id lone
     s.chanHears 1 = true ∧ s.rd (F.MB_STATUS_muted 1) = muted) ∧
    (let s := bus 1 [(F.MB_STATUS_state 1, 3), (F.MB_STATUS_recovering 1, 1)] [] MillBuf.empty id lone
     s.chanOn 1 = true ∧ s.rd (F.MB_STATUS_state 1) = 3 ∧ s.rd (F.MB_STATUS_recovering 1) = 1) ∧
    (∀ sent, let s := bus 4 [] [] { MillBuf.empty with windowOpen := true, sentInWindow := sent } id lone
     s.pd .hostsvc = true ∧ (s.millBuf 1 63).windowOpen = true ∧ (s.millBuf 1 63).sentInWindow = sent) ∧
    (∀ role ∈ [2, 3, 4], let s := bus role [] [] MillBuf.empty id { lone with image := { lone.image with waiting := [(0, .mill 1 63 message.words)] } }
     s.image.waiting = [(0, .mill 1 63 message.words)] ∧ 0 ≤ s.turn.k ∧ s.millRole 1 63 = role ∧
      wordsIdent message.words = s.bufIdent 1 63 ∧ s.tooLong 1 63 message.words = false ∧
      s.host.millerUp = true) := by decide +kernel

/-- Where no region is set, nothing is forbidden. -/
theorem passes (s : State) (u kind a len : Nat) (h : ∀ n < 32, s.act (F.AC_BASE_LO_enable u n) = 0) : Passes s u kind a len :=
  fun _ _ n hf => absurd hf.1.2.1 (by rw [h n hf.1.1]; decide)

/-- Region 31 of units 0 and 1 covers the 64 bytes from 0x1000 and one from the last word of BAR0, and permits nothing. -/
def fenced : State := cfg [(F.AC_BASE_LO_enable 0 31, 1), (F.AC_BASE_LO_base 0 31, 0x40), (F.AC_LIMIT_LO_limit 0 31, 0x40),
  (F.AC_BASE_LO_enable 1 31, 1), (F.AC_BASE_LO_base 1 31, 0x40), (F.AC_LIMIT_LO_limit 1 31, 0x40)] lone
/-- Region 31 of unit 0 covers a station register. -/
def fencedReg : State := cfg [(F.AC_BASE_LO_enable 0 31, 1), (F.AC_BASE_LO_base 0 31, 0x800), (F.AC_BASE_HI_addr 0 31, 2),
  (F.AC_LIMIT_LO_limit 0 31, 0x800), (F.AC_LIMIT_HI_addr 0 31, 2)] lone

theorem first_forbidden (s : State) (u kind addr len a : Nat) (h : addr ≤ a ∧ a < addr + len)
    (hc : s.act (F.AC_BASE_LO_enable u 31) = 1 ∧ s.acBase u 31 ≤ a ∧ a ≤ s.acLimit u 31 ∧ s.acPermits u 31 kind = false ∧
      a - addr ≤ s.acBase u 31 - addr ∧ addr ≤ s.acBase u 31)
    (hn : ∀ n < 31, s.act (F.AC_BASE_LO_enable u n) = 0) : FirstForbidden s u kind addr len a 31 := by
  refine ⟨h.1, h.2, ⟨⟨by decide, hc.1, hc.2.1, hc.2.2.1⟩, fun j hj hj' => absurd hj'.2.1 (by rw [hn j hj]; decide), hc.2.2.2.1⟩, ?_⟩
  intro i hi n hf
  by_cases e : n = 31
  · subst e
    have := hf.1.2.2.1
    omega
  · exact absurd hf.1.2.1 (by rw [hn n (by have := hf.1.1; omega)]; decide)

theorem witness_HostAccessesJudged :
    (fenced.pd .hostsvc = true ∧ fenced.rd F.BAR2_BASE_base = 0 ∧ FirstForbidden fenced 0 0 0xFFF 2 0x1000 31 ∧
      FirstForbidden fenced 0 1 0xFFF 2 0x1000 31) ∧
    ((∀ u kind a len, Passes lone u kind a len) ∧ InRam lone 0x2FFFFFF 1 ∧ ¬InRam lone 0x2FFFFFF 2 ∧
      ¬InMram lone 0x2FFFFFF 2 ∧ InRam lone 0x400000000 1 ∧ InRam lone 0x7FFFFFFFF 1 ∧ InMram lone 0x107FFFFFF 1 ∧ ¬InRam lone 0x100000000 1) ∧
    ((0x20004#20).toNat % 4 = 0 ∧ (0x7FFFE#20).toNat % 4 ≠ 0 ∧ 0x20000 ≤ (0x20000#20).toNat ∧ (0x7FFFC#20).toNat < 0x80000 ∧
      unjudged 0x20000 1 0 = false) ∧
    FirstForbidden fencedReg 0 1 0x200020000 4 0x200020000 31 ∧ lone.pd .bins = true ∧
    (let s := { lone with hop := { lone.hop with armed := some ⟨true, [], 0, [((F.AC_BASE_LO_base 3 31).off, 0)], 2, 0, true⟩ } }
     s.regionArmed 3 31 = true ∧ bitOf (0x80000000#32).toNat 31 = true) := by
  refine ⟨⟨?_, ?_, first_forbidden _ _ _ _ _ _ ?_ ?_ ?_, first_forbidden _ _ _ _ _ _ ?_ ?_ ?_⟩,
    ⟨fun u kind a len => passes _ _ _ _ _ ?_, ?_, ?_, ?_, ?_, ?_, ?_, ?_⟩, ?_, first_forbidden _ _ _ _ _ _ ?_ ?_ ?_, ?_, ?_⟩
  case refine_9 => intro n _; rfl
  all_goals first | decide +kernel | (unfold InRam; decide +kernel) | (unfold InMram; decide +kernel)

theorem witness_GeneralSealUnits : (3 : Fin 8).val < 4 ∧ 4 ≤ (4 : Fin 8).val ∧ lone.pd .bins = true ∧
    (wrs [(F.SEAL_STATUS_busy, 16)] lone).gsBusy 4 = true ∧ lone.gsBusy 4 = false := by decide +kernel

/-- The seal of "123456789" is 0xE3069283 (R391). -/
theorem test_seal : (after (.gsFeedB 4 true 0x39) (after (.gsFeedW 4 true 0x38373635) (after (.gsFeedW 4 true 0x34333231)
    (after (.gsStart 4 true) lone)))).rd (F.GS_RESULT_seal 4) = 0xE3069283 := by decide +kernel

/-- A debug access of 2^(2 bits) bytes at an address. -/
def probe (size : Nat) (write : Bool) (a : Nat) (s : State) : State :=
  { s with dbg := { DebugSt.cold with addr := size * 2 ^ 38 + bit write * 2 ^ 37 + a } }

theorem witness_DebugPort :
    ((wrs [(F.KEY_STATUS_effective, 3)] State.reset).key = 3 ∧ State.reset.plyState = 0 ∧ State.reset.key ≠ 3 ∧
      lone.plyState ∉ [0, 6] ∧ (wrs [(F.PLY_STATUS_state, 6)] lone).plyState = 6) ∧
    (∀ write, let s := probe 2 write 0x1000 fenced
     s.dbgWrites = write ∧ s.dbgTarget = 0x1000 ∧ s.dbgLen = 4 ∧ FirstForbidden s 1 (bit write) 0x1000 4 0x1000 31 ∧ inBar0 0x1000 = false) ∧
    (∀ write, let s := probe 0 write 0x2FFFFFF lone
     s.dbgWrites = write ∧ Passes s 1 (bit write) s.dbgTarget s.dbgLen ∧ InRam s 0x2FFFFFF 1 ∧ s.dbgTarget = 0x2FFFFFF ∧ s.dbgLen = 1) ∧
    (∀ write, let s := probe 2 write 0x20007FFFC lone
     s.dbgWrites = write ∧ Passes s 1 (bit write) s.dbgTarget s.dbgLen ∧ 0x200000000 ≤ s.dbgTarget ∧ s.dbgTarget + 4 ≤ 0x200100000 ∧
      s.dbgTarget % 4 = 0 ∧ s.dbgLen = 4 ∧ 0x20000 ≤ s.dbgTarget - 0x200000000 ∧ s.dbgTarget - 0x200000000 < 0x80000) ∧
    (let s := probe 1 false 0x3000000 lone
     s.dbgLen = 2 ∧ Passes s 1 0 s.dbgTarget s.dbgLen ∧ ¬InRam s 0x3000000 2 ∧ ¬InMram s 0x3000000 2 ∧ inBar0 s.dbgTarget = false) := by
  refine ⟨?_, fun write => ⟨?_, ?_, ?_, first_forbidden _ _ _ _ _ _ ?_ ?_ ?_, ?_⟩, fun write => ⟨?_, passes _ _ _ _ _ ?_, ?_, ?_, ?_⟩,
    fun write => ⟨?_, passes _ _ _ _ _ ?_, ?_⟩, ⟨?_, passes _ _ _ _ _ ?_, ?_, ?_, ?_⟩⟩
  all_goals first
    | decide +kernel
    | (revert write; decide +kernel)
    | (revert write; unfold InRam; decide +kernel)
    | (unfold InRam; decide +kernel)
    | (unfold InMram; decide +kernel)

theorem witness_StepRunsTheFrontCommand :
    ({ State.reset with pending := [Instr.timeSnap, .flr] } : State).pending = .timeSnap :: [.flr] ∧
    State.reset.pending = [] ∧ State.reset.pd .time = true ∧ (wrs [(F.PWR_DOMAINS_on, 0)] State.reset).pd .time = false ∧
    State.reset.time.workSet = false := by decide +kernel

theorem witness_ResetState (u : Fin 4) : State.reset.rd (F.AC_LOCK_lock u.val) = 0 := by revert u; decide +kernel

/-- Every command completes from reset. -/
theorem witness_CommandsKeepTheirUnits : exec .slackClearMin State.reset = .next (after .slackClearMin State.reset) ∧
    Part.image ∉ footprint .slackClearMin := by
  refine ⟨rfl, ?_⟩; decide +kernel

theorem witness_RegistersLeftAlone : (∃ B, registerFrame .slackClearMin = some B) ∧
    exec .slackClearMin State.reset = .next (after .slackClearMin State.reset) := ⟨⟨_, rfl⟩, rfl⟩

/-- A debug write of 0 takes a cell out of the list. -/
theorem witness_CanonicalMemoryIsKept :
    let s := { probe 0 true 5 lone with mem := (lone.memWrite 5 [7]).mem, pending := [Instr.dbgDataUpdate 0] }
    Memory.wf s.mem = true ∧ s.mem ≠ [] ∧ ∃ t, step s = .next t ∧ t.mem = [] :=
  ⟨by decide +kernel, by decide +kernel, _, rfl, by decide +kernel⟩

theorem next_of (c : Instr) (s : State) (p : State → Bool) (h : (match exec c s with | .next t => p t | _ => false) = true) :
    ∃ t, exec c s = .next t ∧ p t = true := by
  split at h
  · exact ⟨_, ‹_›, h⟩
  · cases h

/-- An image with one slot of kind 3. -/
def cfgImage : RegMap := RegMap.set [] (F.SLOT_POL_0_kind 7) 3

theorem witness_WhatChangesWhat :
    let s := wrs [(F.KEY_STATUS_effective, 3)] { lone with hop := { lone.hop with armed := some ⟨true, cfgImage, 0, [], 0, 0, true⟩ } }
    ∃ t, exec .commitApply s = .next t ∧ decide (t.hop.active ≠ s.hop.active) = true :=
  next_of _ _ (fun t => decide (t.hop.active ≠ _)) (by decide +kernel)

/-- R488: after reset health is green and the role LED off; a lone module with a lost REFCLK in Reefed shows amber. -/
theorem test_leds :
    (State.reset.healthLed, State.reset.roleLed, State.reset.serviceLed) =
      (LedPattern.greenSteady, LedPattern.off, LedPattern.amberSteady) ∧
    (let s := wrs [(F.PWR_STATUS_rung, 2), (F.TIME_STATUS_refclk_lost, 1)] lone
     (s.healthLed, s.roleLed, s.serviceLed) = (LedPattern.amberSteady, LedPattern.green1Hz, LedPattern.off)) := by
  decide +kernel

/-- R405: bytes 64 to 127 lie in a region with both attributes and byte 128 does not; the strictest counts. -/
theorem test_access_attributes :
    let s := cfg [(F.AC_BASE_LO_enable 3 5, 1), (F.AC_BASE_LO_cache 3 5, 1), (F.AC_BASE_LO_order 3 5, 1),
      (F.AC_BASE_LO_base 3 5, 1), (F.AC_LIMIT_LO_limit 3 5, 1), (F.AC_CTRL_def_order 3, 1)] lone
    s.accessAttributes 3 64 64 = (true, true) ∧ s.accessAttributes 3 64 65 = (false, true) ∧
      s.accessAttributes 1 64 8 = (false, false) := by
  decide +kernel

/-- R359: the ordering code "KX18-00", first character lowest, and the vendor and device words. -/
theorem test_identity :
    State.reset.liveWord 0x008 = some (0x4B + 0x58 * 2 ^ 8 + 0x31 * 2 ^ 16 + 0x38 * 2 ^ 24) ∧
    State.reset.liveWord 0x00C = some (0x2D + 0x30 * 2 ^ 8 + 0x30 * 2 ^ 16) ∧
    State.reset.liveWord 0x000 = some 0x00181FB7 ∧ State.reset.liveWord 0x004 = some 0x4B180018 := by
  decide +kernel

end Sys2Proof.Tests
end

/-! PROOFS. What the commands named in RegistersLeftAlone do to registers, for the commands whose frame the laws of banks
do not state already, and the statement itself. -/

namespace Sys2Proof.Machine

/-! Rules for frames. -/

/-- A change that keeps the map of registers keeps every register. -/
theorem RegsIn.of_regs {A : List Bank} {s t : State} (h : t.regs = s.regs) : RegsIn A s t :=
  fun f _ _ => congrArg (RegMap.get · f) h

/-- Two changes within the same banks. -/
theorem RegsIn.trans {A : List Bank} {s t u : State} (h : RegsIn A s t) (g : RegsIn A t u) : RegsIn A s u :=
  h.next g (fun _ => id)

/-! The debug port shifts and captures, and writes no register (R399, R410). -/

theorem execTrst_in (s : State) : RegsIn [] s (settle s (execTrst s)) := .of_regs rfl

theorem execBypass_in (s : State) : RegsIn [] s (settle s (execBypass s)) := .of_regs rfl

theorem execIdcode_in (s : State) : RegsIn [] s (settle s (execIdcode s)) := .of_regs rfl

theorem execSamplePreload_in (cells : List Bool) (s : State) :
    RegsIn [] s (settle s (execSamplePreload cells s)) := .of_regs rfl

theorem execExtest_in (cells : List Bool) (s : State) : RegsIn [] s (settle s (execExtest cells s)) :=
  .iteO (fun _ => .of_regs rfl) (fun _ => .of_regs rfl)

theorem execClamp_in (s : State) : RegsIn [] s (settle s (execClamp s)) :=
  .iteO (fun _ => .of_regs rfl) (fun _ => .of_regs rfl)

theorem execDbgAddr_in (v : BitVec 40) (s : State) : RegsIn [] s (settle s (execDbgAddr v s)) :=
  .of_regs rfl

theorem execDbgStatus_in (s : State) : RegsIn [] s (settle s (execDbgStatus s)) := .of_regs rfl

theorem execDbgAcstat_in (s : State) : RegsIn [] s (settle s (execDbgAcstat s)) := .of_regs rfl

/-! The seal units (R394 to R398). -/

/-- Feeding a seal unit writes its count and its seal, or notes that it was idle. -/
theorem State.gsFeed_in (s : State) (u : Nat) (host : Bool) (b : Bytes) (hu : u < 8) :
    RegsIn [.seal] s (s.gsFeed u host b) := by
  unfold State.gsFeed
  refine .ite (fun _ => .rfl) (fun _ => .ite (fun _ => ?_) (fun _ => ?_))
  · exact RegsIn.rfl.wr F.SEAL_STATUS_idle_feed _ .seal (by decide) (by decide) (by decide) (by decide)
  · refine RegsIn.wr (F.GS_RESULT_seal u) _ .seal ?_ (Nat.zero_lt_succ _) (by decide) ?_ ?_
    · refine RegsIn.add (F.GS_COUNT_bytes u) _ .seal (.of_regs rfl) (Nat.zero_lt_succ _) (by decide) ?_ ?_ <;>
        simp only [F.GS_COUNT_bytes, Bank.range] <;> omega
    all_goals simp only [F.GS_RESULT_seal, Bank.range]
    all_goals omega

theorem execGsFeedB_in (u : Fin 8) (host : Bool) (v : Byte) (s : State) :
    RegsIn [.seal] s (settle s (execGsFeedB u host v s)) := s.gsFeed_in _ _ _ u.isLt

theorem execGsFeedH_in (u : Fin 8) (host : Bool) (v : BitVec 16) (s : State) :
    RegsIn [.seal] s (settle s (execGsFeedH u host v s)) := s.gsFeed_in _ _ _ u.isLt

theorem execGsFeedW_in (u : Fin 8) (host : Bool) (v : Word32) (s : State) :
    RegsIn [.seal] s (settle s (execGsFeedW u host v s)) := s.gsFeed_in _ _ _ u.isLt

/-! The rows of the host's command set (R326 to R333): the common tests, the buffer and the completion reach the event
bank and the bank of violations, whatever the command itself does. -/

theorem State.deny_in (s : State) (c : HostCmd) (status : Nat) : RegsIn [.events, .viol] s (s.deny c status) :=
  s.complete_in _ _ _ _ _

theorem State.runCmd_in {A : List Bank} {f : State → State} (s : State) (c : HostCmd)
    (hA : ∀ b ∈ [Bank.events, .viol], b ∈ A) (hf : ∀ y, RegsIn A y (f y)) : RegsIn A s (s.runCmd c f) := by
  unfold State.runCmd
  split
  · exact (s.deny_in _ _).mono hA
  · exact hf s

theorem State.hostRow_in {A : List Bank} {f : State → State} (s : State) (c : HostCmd) (op : Nat)
    (hA : ∀ b ∈ [Bank.events, .viol], b ∈ A) (hf : ∀ y, RegsIn A y (f y)) : RegsIn A s (s.hostRow c op f) :=
  .ite (fun _ => .trans (t := s.consume c.ring.val) (.of_regs rfl) (State.runCmd_in _ _ hA hf)) (fun _ => .rfl)

/-- The pieces of a buffer pass the DMA unit one after another, until one is refused. -/
theorem State.pieces_in (s : State) (kind a : Nat) (l : List (Nat × Nat)) (ok : Bool) :
    RegsIn [.events, .viol] s (l.foldl (fun (x : State × Bool) p =>
      if x.2 then x.1.acAccess 3 kind 2 (a + p.1) p.2 else x) (s, ok)).1 := by
  induction l generalizing s ok with
  | nil => exact .rfl
  | cons p l ih =>
    cases ok with
    | false => exact ih s false
    | true => exact (State.acAccess_in s 3 kind 2 (a + p.1) p.2 (by decide)).trans (ih _ _)

theorem State.moveBuf_in {A : List Bank} {f : State → State} (s : State) (c : HostCmd) (kind len : Nat)
    (hA : ∀ b ∈ [Bank.events, .viol], b ∈ A) (hf : ∀ y, RegsIn A y (f y)) : RegsIn A s (s.moveBuf c kind len f) := by
  have moved := (s.pieces_in kind c.desc.buf.toNat (pieces len) true).mono hA
  unfold State.moveBuf
  refine .ite (fun _ => ?_) (fun _ => .ite (fun _ => ?_) (fun _ => moved.trans (hf _)))
  · exact moved.next (State.deny_in _ _ _) hA
  · exact moved.next ((State.dmaError_in _ _ _).trans (State.deny_in _ _ _)) hA

theorem State.answer_in (s : State) (c : HostCmd) (b : Bytes) (r0 r1 : Nat) :
    RegsIn [.events, .viol] s (s.answer c b r0 r1) :=
  s.moveBuf_in c 1 _ (fun _ => id) (fun y =>
    .trans (t := y.emit _) (.of_regs rfl) (State.complete_in _ _ _ _ _ _))

theorem execCmdNop_in (c : HostCmd) (s : State) : RegsIn [.events, .viol] s (settle s (execCmdNop c s)) :=
  s.hostRow_in c _ (fun _ => id) (fun y => y.complete_in _ _ _ _ _)

/-! Reads: the command is refused, or its answer goes to the buffer. -/

theorem execCmdSigRead_in (c : HostCmd) (s : State) : RegsIn [.events, .viol] s (settle s (execCmdSigRead c s)) :=
  s.hostRow_in c _ (fun _ => id) (fun y => .ite (fun _ => y.deny_in _ _) (fun _ => y.answer_in _ _ _ _))

theorem execCmdSlotStatus_in (c : HostCmd) (s : State) :
    RegsIn [.events, .viol] s (settle s (execCmdSlotStatus c s)) :=
  s.hostRow_in c _ (fun _ => id) (fun y => .ite (fun _ => y.deny_in _ _) (fun _ => y.answer_in _ _ _ _))

theorem execCmdLoopRead_in (c : HostCmd) (s : State) : RegsIn [.events, .viol] s (settle s (execCmdLoopRead c s)) :=
  s.hostRow_in c _ (fun _ => id) (fun y => .ite (fun _ => y.deny_in _ _) (fun _ => y.answer_in _ _ _ _))

theorem execCmdForceList_in (c : HostCmd) (s : State) :
    RegsIn [.events, .viol] s (settle s (execCmdForceList c s)) :=
  s.hostRow_in c _ (fun _ => id) (fun y => .ite (fun _ => y.deny_in _ _) (fun _ => y.answer_in _ _ _ _))

theorem execCmdProgRead_in (c : HostCmd) (s : State) : RegsIn [.events, .viol] s (settle s (execCmdProgRead c s)) :=
  s.hostRow_in c _ (fun _ => id) (fun y => .ite (fun _ => y.deny_in _ _) (fun _ => y.answer_in _ _ _ _))

theorem execCmdLogRead_in (c : HostCmd) (s : State) : RegsIn [.events, .viol] s (settle s (execCmdLogRead c s)) :=
  s.hostRow_in c _ (fun _ => id) (fun y => .ite (fun _ => y.deny_in _ _) (fun _ => y.answer_in _ _ _ _))

/-! Host writes wait for their boundary and are mirrored (R68). -/

theorem State.hostWrites_in (s : State) (b : Nat) (ws : List HostWrite) : RegsIn [] s (s.hostWrites b ws) :=
  .ite (fun _ => .trans (.of_regs rfl) (State.mirror_in _ _ _)) (fun _ => .of_regs rfl)

theorem State.sigEntries_in (s : State) (c : HostCmd) (es : List (Nat × Nat)) :
    RegsIn [.events, .viol] s (s.sigEntries c es) := by
  unfold State.sigEntries
  split
  · exact s.complete_in _ _ _ _ _
  · split
    · exact s.complete_in _ _ _ _ _
    · split
      · exact s.complete_in _ _ _ _ _
      · exact ((s.hostWrites_in _ _).mono (by decide)).trans (State.complete_in _ _ _ _ _ _)

theorem State.sigWrite_in (s : State) (c : HostCmd) : RegsIn [.events, .viol] s (s.sigWrite c) :=
  .ite (fun _ => s.deny_in _ _) (fun _ => .ite (fun _ => s.sigEntries_in _ _) (fun _ =>
    .ite (fun _ => s.deny_in _ _) (fun _ => s.moveBuf_in c _ _ (fun _ => id) (fun y => y.sigEntries_in _ _))))

theorem State.loopWrite_in (s : State) (c : HostCmd) : RegsIn [.events, .viol] s (s.loopWrite c) :=
  .ite (fun _ => s.deny_in _ _) (fun _ => .ite (fun _ => s.deny_in _ _) (fun _ => .ite (fun _ => s.deny_in _ _)
    (fun _ => ((s.hostWrites_in _ _).mono (by decide)).trans (State.complete_in _ _ _ _ _ _))))

theorem execCmdSigWrite_in (c : HostCmd) (s : State) : RegsIn [.events, .viol] s (settle s (execCmdSigWrite c s)) :=
  s.hostRow_in c _ (fun _ => id) (fun y => y.sigWrite_in c)

theorem execCmdLoopWrite_in (c : HostCmd) (s : State) : RegsIn [.events, .viol] s (settle s (execCmdLoopWrite c s)) :=
  s.hostRow_in c _ (fun _ => id) (fun y => y.loopWrite_in c)

/-! Forces (R63 to R65): an order with the partner or one of its own, and the command held until it takes effect. -/

theorem State.orderForce_in (s : State) (c : HostCmd) (op : Nat) (es : List (BitVec 18 × Option Sample)) :
    RegsIn [.events] s (s.orderForce c op es) :=
  .ite (fun _ => ((s.sendOrder_in _ _ _ _).mono (by decide)).trans (State.holdCmd_in _ _ _ _ _))
    (fun _ => .trans (.of_regs rfl) (State.holdCmd_in _ _ _ _ _))

theorem State.forceSlots_in {f : State → State} (s : State) (c : HostCmd) (slots : List Nat)
    (hf : ∀ y, RegsIn [.events, .viol] y (f y)) : RegsIn [.events, .viol] s (s.forceSlots c slots f) := by
  unfold State.forceSlots
  split
  · exact s.complete_in _ _ _ _ _
  · split
    · exact s.complete_in _ _ _ _ _
    · exact hf s

theorem State.forceCmd_in (s : State) (c : HostCmd) : RegsIn [.events, .viol] s (s.forceCmd c) := by
  refine .ite (fun _ => s.deny_in _ _) (fun _ => s.moveBuf_in c _ _ (fun _ => id) (fun y =>
    y.forceSlots_in c _ (fun z => ?_)))
  dsimp only
  split
  · exact z.complete_in _ _ _ _ _
  · exact (z.orderForce_in _ _ _).mono (by decide)

theorem State.unforceCmd_in (s : State) (c : HostCmd) : RegsIn [.events, .viol] s (s.unforceCmd c) :=
  .ite (fun _ => s.deny_in _ _) (fun _ => s.moveBuf_in c _ _ (fun _ => id) (fun y =>
    y.forceSlots_in c _ (fun z => (z.orderForce_in _ _ _).mono (by decide))))

theorem execCmdForce_in (c : HostCmd) (s : State) : RegsIn [.events, .viol] s (settle s (execCmdForce c s)) :=
  s.hostRow_in c _ (fun _ => id) (fun y => y.forceCmd_in c)

theorem execCmdUnforce_in (c : HostCmd) (s : State) : RegsIn [.events, .viol] s (settle s (execCmdUnforce c s)) :=
  s.hostRow_in c _ (fun _ => id) (fun y => y.unforceCmd_in c)

/-! Staging (R346 to R349): what the hopper shows of the staged copy and of its test. -/

theorem State.setStaged_in (s : State) (m : RegMap) : RegsIn [.hopper] s (s.setStaged m) := by
  unfold State.setStaged State.restage
  refine RegsIn.wr F.HOPPER_CHANGES_count _ .hopper ?_ (by decide) (by decide) (by decide) (by decide)
  exact RegsIn.wrb F.HOPPER_STATUS_dirty _ .hopper (.of_regs rfl) (by decide) (by decide) (by decide) (by decide)

/-- A new staged copy, and the command completes. -/
theorem State.setStaged_complete_in (s : State) (m : RegMap) (c : HostCmd) (status n r0 r1 : Nat) :
    RegsIn [.hopper, .events, .viol] s ((s.setStaged m).complete c status n r0 r1) :=
  ((s.setStaged_in m).mono (by decide)).next (State.complete_in _ _ _ _ _ _) (by decide)

theorem State.stageRegs_in (s : State) (c : HostCmd) : RegsIn [.hopper, .events, .viol] s (s.stageRegs c) := by
  refine .ite (fun _ => (s.deny_in _ _).mono (by decide)) (fun _ => s.moveBuf_in c _ _ (by decide) (fun y => ?_))
  dsimp only
  split
  · exact (y.complete_in _ _ _ _ _).mono (by decide)
  · exact y.setStaged_complete_in _ _ _ _ _ _

theorem State.stageSlots_in (s : State) (c : HostCmd) : RegsIn [.hopper, .events, .viol] s (s.stageSlots c) :=
  .ite (fun _ => (s.deny_in _ _).mono (by decide)) (fun _ => s.moveBuf_in c _ _ (by decide) (fun y =>
    y.setStaged_complete_in _ _ _ _ _ _))

theorem State.startTest_in (s : State) (c : HostCmd) (commit : Bool) :
    RegsIn [.hopper, .events] s (s.startTest c commit) := by
  unfold State.startTest
  refine .next ?_ (State.hopState_in _) (by decide)
  refine .next ?_ (State.holdCmd_in _ _ _ _ _) (by decide)
  exact .of_regs rfl

theorem State.checkCmd_in (s : State) (c : HostCmd) : RegsIn [.hopper, .events, .viol] s (s.checkCmd c) :=
  .ite (fun _ => (s.deny_in _ _).mono (by decide)) (fun _ => (s.startTest_in _ _).mono (by decide))

theorem execCmdStageRegs_in (c : HostCmd) (s : State) :
    RegsIn [.hopper, .events, .viol] s (settle s (execCmdStageRegs c s)) :=
  s.hostRow_in c _ (by decide) (fun y => y.stageRegs_in c)

theorem execCmdStageSlots_in (c : HostCmd) (s : State) :
    RegsIn [.hopper, .events, .viol] s (settle s (execCmdStageSlots c s)) :=
  s.hostRow_in c _ (by decide) (fun y => y.stageSlots_in c)

theorem execCmdCheck_in (c : HostCmd) (s : State) : RegsIn [.hopper, .events, .viol] s (settle s (execCmdCheck c s)) :=
  s.hostRow_in c _ (by decide) (fun y => y.checkCmd_in c)

theorem execCmdDiscard_in (c : HostCmd) (s : State) :
    RegsIn [.hopper, .events, .viol] s (settle s (execCmdDiscard c s)) :=
  s.hostRow_in c _ (by decide) (fun y => y.setStaged_complete_in _ _ _ _ _ _)

/-! The statement. -/

/-- The banks that a statement gives are those that a lemma names. -/
theorem RegsIn.named {A B : List Bank} {s t : State} (g : RegsIn A s t) (e : some A = some B) : RegsIn B s t :=
  Option.some.inj e ▸ g

/-- A command writes registers of its frame alone. -/
theorem exec_in {B : List Bank} (c : Instr) (s : State) (e : registerFrame c = some B) :
    RegsIn B s (settle s (exec c s)) := by
  cases c with
  | hostWriteTaken => exact (execHostWriteTaken_in s).named e
  | taskInputCopyDone t => exact (execTaskInputCopyDone_in t s).named e
  | retainFlushStart => exact (execRetainFlushStart_in s).named e
  | retainFlushNow => exact (execRetainFlushNow_in s).named e
  | onlineCarry t eccWords => exact (execOnlineCarry_in t eccWords s).named e
  | traceForce g => exact (execTraceForce_in g s).named e
  | beaconSend => exact (execBeaconSend_in s).named e
  | publicationLaunch => exact (execPublicationLaunch_in s).named e
  | hopMarkSend east sub => exact (execHopMarkSend_in east sub s).named e
  | hopMarkReceived east seq sub => exact (execHopMarkReceived_in east seq sub s).named e
  | hopEntryExpired pos back launch => exact (execHopEntryExpired_in pos back launch s).named e
  | timeRestart dom => exact (execTimeRestart_in dom s).named e
  | domainFrameSend dom => exact (execDomainFrameSend_in dom s).named e
  | timeXchgSend => exact (execTimeXchgSend_in s).named e
  | ppsOutPulse => exact (execPpsOutPulse_in s).named e
  | ppsOutFall => exact (execPpsOutFall_in s).named e
  | leapTableEffect => exact (execLeapTableEffect_in s).named e
  | calendarWrite => exact (execCalendarWrite_in s).named e
  | heartbeatSend => exact (execHeartbeatSend_in s).named e
  | revert => exact (execRevert_in s).named e
  | joinCaptureBoundary => exact (execJoinCaptureBoundary_in s).named e
  | millHeartbeatSend => exact (execMillHeartbeatSend_in s).named e
  | brakeFrameRefresh => exact (execBrakeFrameRefresh_in s).named e
  | millWindowStart ch b => exact (execMillWindowStart_in ch b s).named e
  | millMapTaken ch b => exact (execMillMapTaken_in ch b s).named e
  | millMapStale ch b => exact (execMillMapStale_in ch b s).named e
  | trst => exact (execTrst_in s).named e
  | bypass => exact (execBypass_in s).named e
  | idcode => exact (execIdcode_in s).named e
  | samplePreload cells => exact (execSamplePreload_in cells s).named e
  | extest cells => exact (execExtest_in cells s).named e
  | clamp => exact (execClamp_in s).named e
  | dbgAddr v => exact (execDbgAddr_in v s).named e
  | dbgStatus => exact (execDbgStatus_in s).named e
  | dbgAcstat => exact (execDbgAcstat_in s).named e
  | recManual => exact (execRecManual_in s).named e
  | recHoldoffEnd n => exact (execRecHoldoffEnd_in n s).named e
  | neighborDiscovery toOwn echo => exact (execNeighborDiscovery_in toOwn echo s).named e
  | arbitratingWindowStart ch => exact (execArbitratingWindowStart_in ch s).named e
  | arbitratingWindowEnd ch => exact (execArbitratingWindowEnd_in ch s).named e
  | hyicaSessionTimeout => exact (execHyicaSessionTimeout_in s).named e
  | svcLinkChange link => exact (execSvcLinkChange_in link s).named e
  | catchUpLaunch => exact (execCatchUpLaunch_in s).named e
  | releasedReceived h station payload => exact (execReleasedReceived_in h station payload s).named e
  | millSnapReceived h ch buf words => exact (execMillSnapReceived_in h ch buf words s).named e
  | plyCmdHandover => exact (execPlyCmdHandover_in s).named e
  | replayCaughtUp => exact (execReplayCaughtUp_in s).named e
  | taskStart t => exact (execTaskStart_in t s).named e
  | mbCmdRestart ch => exact (execMbCmdRestart_in ch s).named e
  | mbCmdUnmute ch => exact (execMbCmdUnmute_in ch s).named e
  | mbCmdClearCnt ch => exact (execMbCmdClearCnt_in ch s).named e
  | gsStart u host => exact (execGsStart_in u host s).named e
  | gsStop u host => exact (execGsStop_in u host s).named e
  | gsFeedB u host v => exact (execGsFeedB_in u host v s).named e
  | gsFeedH u host v => exact (execGsFeedH_in u host v s).named e
  | gsFeedW u host v => exact (execGsFeedW_in u host v s).named e
  | refclkRestored => exact (execRefclkRestored_in s).named e
  | incApply dom => exact (execIncApply_in dom s).named e
  | slewEnd dom => exact (execSlewEnd_in dom s).named e
  | brkSoftWrite v => exact (execBrkSoftWrite_in v s).named e
  | brkLockWrite v => exact (execBrkLockWrite_in v s).named e
  | brkFirstClearWrite v => exact (execBrkFirstClearWrite_in v s).named e
  | holdupCharged => exact (execHoldupCharged_in s).named e
  | echoRspReceived p pos seq elapsed echoTurn => exact (execEchoRspReceived_in p pos seq elapsed echoTurn s).named e
  | skClearCnt p => exact (execSkClearCnt_in p s).named e
  | regulationIntervalEnd => exact (execRegulationIntervalEnd_in s).named e
  | slackClearMin => exact (execSlackClearMin_in s).named e
  | slackClearSlips => exact (execSlackClearSlips_in s).named e
  | turnBoundary => exact (execTurnBoundary_in s).named e
  | policyLockWrite v => exact (execPolicyLockWrite_in v s).named e
  | commitImageWritten => exact (execCommitImageWritten_in s).named e
  | reachReceived h reach => exact (execReachReceived_in h reach s).named e
  | turnEngineStart => exact (execTurnEngineStart_in s).named e
  | traceCaptureRecord g => exact (execTraceCaptureRecord_in g s).named e
  | cmdNop c => exact (execCmdNop_in c s).named e
  | cmdSigRead c => exact (execCmdSigRead_in c s).named e
  | cmdSigWrite c => exact (execCmdSigWrite_in c s).named e
  | cmdSlotStatus c => exact (execCmdSlotStatus_in c s).named e
  | cmdLoopRead c => exact (execCmdLoopRead_in c s).named e
  | cmdLoopWrite c => exact (execCmdLoopWrite_in c s).named e
  | cmdForce c => exact (execCmdForce_in c s).named e
  | cmdUnforce c => exact (execCmdUnforce_in c s).named e
  | cmdForceList c => exact (execCmdForceList_in c s).named e
  | cmdProgRead c => exact (execCmdProgRead_in c s).named e
  | cmdLogRead c => exact (execCmdLogRead_in c s).named e
  | msixCoalTimeout v => exact (execMsixCoalTimeout_in v s).named e
  | hostLinkDown => exact (execHostLinkDown_in s).named e
  | hostLinkTrained speed width l1 => exact (execHostLinkTrained_in speed width l1 s).named e
  | fwBuildDone => exact (execFwBuildDone_in s).named e
  | fwSwitch => exact (execFwSwitch_in s).named e
  | fwSelfConfirm => exact (execFwSelfConfirm_in s).named e
  | fwFallBack => exact (execFwFallBack_in s).named e
  | keyDisagree => exact (execKeyDisagree_in s).named e
  | heartbeatReceived count flags => exact (execHeartbeatReceived_in count flags s).named e
  | recSnapshot => exact (execRecSnapshot_in s).named e
  | recRecordWritten => exact (execRecRecordWritten_in s).named e
  | millSendPending ch b => exact (execMillSendPending_in ch b s).named e
  | millDominantTimeout ch => exact (execMillDominantTimeout_in ch s).named e
  | refclkLost => exact (execRefclkLost_in s).named e
  | slewTicksWrite dom n => exact (execSlewTicksWrite_in dom n s).named e
  | domainHoldover dom => exact (execDomainHoldover_in dom s).named e
  | holdExpired dom => exact (execHoldExpired_in dom s).named e
  | slewDone => exact (execSlewDone_in s).named e
  | domainSwitch => exact (execDomainSwitch_in s).named e
  | timeXchgReceived diffPs => exact (execTimeXchgReceived_in diffPs s).named e
  | leapApply => exact (execLeapApply_in s).named e
  | brkClearWrite v => exact (execBrkClearWrite_in v s).named e
  | serviceButtonPress => exact (execServiceButtonPress_in s).named e
  | keepAlarmFire => exact (execKeepAlarmFire_in s).named e
  | pwrResetPartner => exact (execPwrResetPartner_in s).named e
  | holdupLow => exact (execHoldupLow_in s).named e
  | cellLow => exact (execCellLow_in s).named e
  | budgetComparison p => exact (execBudgetComparison_in p s).named e
  | cmdStageRegs c => exact (execCmdStageRegs_in c s).named e
  | cmdStageSlots c => exact (execCmdStageSlots_in c s).named e
  | cmdCheck c => exact (execCmdCheck_in c s).named e
  | cmdDiscard c => exact (execCmdDiscard_in c s).named e
  | partnerSilentWake => exact (execPartnerSilentWake_in s).named e
  | twLds t j gd gi slot ecc => exact (execTwLds_in t j gd gi slot ecc s).named e
  | twLde t j gd gi slot ecc => exact (execTwLde_in t j gd gi slot ecc s).named e
  | twTag t j gd gi slot ecc => exact (execTwTag_in t j gd gi slot ecc s).named e
  | twSts t j gs gi m slot => exact (execTwSts_in t j gs gi m slot s).named e
  | twWinb t j gd ga n1 base ecc => exact (execTwWinb_in t j gd ga n1 base ecc s).named e
  | twLdw t j gd gb off ecc => exact (execTwLdw_in t j gd gb off ecc s).named e
  | twStw t j gs gb off => exact (execTwStw_in t j gs gb off s).named e
  | twTrd t j gd sel => exact (execTwTrd_in t j gd sel s).named e
  | twLpr t j gd gi node loop ecc => exact (execTwLpr_in t j gd gi node loop ecc s).named e
  | twLpw t j gs gi node loop => exact (execTwLpw_in t j gs gi node loop s).named e
  | twMbq t j gb ch buf off ecc => exact (execTwMbq_in t j gb ch buf off ecc s).named e
  | twBr t j cond off => exact (execTwBr_in t j cond off s).named e
  | twBtag t j mode q mask off => exact (execTwBtag_in t j mode q mask off s).named e
  | twLoop t j gc max1 len => exact (execTwLoop_in t j gc max1 len s).named e
  | twCall t j target => exact (execTwCall_in t j target s).named e
  | twRet t j => exact (execTwRet_in t j s).named e
  | twEnd t j => exact (execTwEnd_in t j s).named e
  | twTrap t j user => exact (execTwTrap_in t j user s).named e
  | undefinedEncodingReached t j ecc => exact (execUndefinedEncodingReached_in t j ecc s).named e
  | bypassOpen => exact (execBypassOpen_in s).named e
  | hopReportSend => exact (execHopReportSend_in s).named e
  | millerWatchdogRestart back => exact (execMillerWatchdogRestart_in back s).named e
  | forceApply => exact (execForceApply_in s).named e
  | brakeInputAssert line => exact (execBrakeInputAssert_in line s).named e
  | brakeInputRelease line => exact (execBrakeInputRelease_in line s).named e
  | softBrakeApply => exact (execSoftBrakeApply_in s).named e
  | alarmFire a => exact (execAlarmFire_in a s).named e
  | twMbr t j gb ch buf off ecc => exact (execTwMbr_in t j gb ch buf off ecc s).named e
  | onlineCarryDone t => exact (execOnlineCarryDone_in t s).named e
  | keyEffectiveChange => exact (execKeyEffectiveChange_in s).named e
  | orderAckTimeout seq => exact (execOrderAckTimeout_in seq s).named e
  | plyTimeDiffExceeded => exact (execPlyTimeDiffExceeded_in s).named e
  | digestReceived h dg => exact (execDigestReceived_in h dg s).named e
  | digestCompute => exact (execDigestCompute_in s).named e
  | autoRejoin => exact (execAutoRejoin_in s).named e
  | plyCmdRejoin => exact (execPlyCmdRejoin_in s).named e
  | plyCmdLeave => exact (execPlyCmdLeave_in s).named e
  | joinTimeout => exact (execJoinTimeout_in s).named e
  | replayBehind => exact (execReplayBehind_in s).named e
  | divergedTimeout => exact (execDivergedTimeout_in s).named e
  | plyLinkDown training => exact (execPlyLinkDown_in training s).named e
  | ackReceived h code seq refused => exact (execAckReceived_in h code seq refused s).named e
  | heartbeatMissed => exact (execHeartbeatMissed_in s).named e
  | tokenClassChange cls => exact (execTokenClassChange_in cls s).named e
  | millHeartbeatAbsent => exact (execMillHeartbeatAbsent_in s).named e
  | partnerFrameNotShadow epoch proxy brake => exact (execPartnerFrameNotShadow_in epoch proxy brake s).named e
  | turnWatchdogTrip => exact (execTurnWatchdogTrip_in s).named e
  | ownHeartbeatLoss => exact (execOwnHeartbeatLoss_in s).named e
  | startingTimeout => exact (execStartingTimeout_in s).named e
  | plyLinkUp => exact (execPlyLinkUp_in s).named e
  | ejectorClosed => exact (execEjectorClosed_in s).named e
  | stageWedged cls unit => exact (execStageWedged_in cls unit s).named e
  | abdicateLineAsserted => exact (execAbdicateLineAsserted_in s).named e
  | healthReceived h payload => exact (execHealthReceived_in h payload s).named e
  | trapDecision t => exact (execTrapDecision_in t s).named e
  | twAdd t j gd ga gb residueBad => exact (execTwAdd_in t j gd ga gb residueBad s).named e
  | twSub t j gd ga gb residueBad => exact (execTwSub_in t j gd ga gb residueBad s).named e
  | twAdds t j gd ga gb residueBad => exact (execTwAdds_in t j gd ga gb residueBad s).named e
  | twSubs t j gd ga gb residueBad => exact (execTwSubs_in t j gd ga gb residueBad s).named e
  | twAnd t j gd ga gb => exact (execTwAnd_in t j gd ga gb s).named e
  | twOr t j gd ga gb => exact (execTwOr_in t j gd ga gb s).named e
  | twXor t j gd ga gb => exact (execTwXor_in t j gd ga gb s).named e
  | twAndn t j gd ga gb => exact (execTwAndn_in t j gd ga gb s).named e
  | twShl t j gd ga gb residueBad => exact (execTwShl_in t j gd ga gb residueBad s).named e
  | twShr t j gd ga gb => exact (execTwShr_in t j gd ga gb s).named e
  | twSar t j gd ga gb => exact (execTwSar_in t j gd ga gb s).named e
  | twMin t j gd ga gb => exact (execTwMin_in t j gd ga gb s).named e
  | twMax t j gd ga gb => exact (execTwMax_in t j gd ga gb s).named e
  | twCmp t j ga gb bad => exact (execTwCmp_in t j ga gb bad s).named e
  | twAbs t j gd ga residueBad => exact (execTwAbs_in t j gd ga residueBad s).named e
  | twNeg t j gd ga residueBad => exact (execTwNeg_in t j gd ga residueBad s).named e
  | twMul t j gd ga gb residueBad => exact (execTwMul_in t j gd ga gb residueBad s).named e
  | twMulq t j gd ga gb residueBad => exact (execTwMulq_in t j gd ga gb residueBad s).named e
  | twDiv t j gd ga gb residueBad => exact (execTwDiv_in t j gd ga gb residueBad s).named e
  | twDivq t j gd ga gb residueBad => exact (execTwDivq_in t j gd ga gb residueBad s).named e
  | twSatq t j gd ga => exact (execTwSatq_in t j gd ga s).named e
  | twSel t j gd ga gb => exact (execTwSel_in t j gd ga gb s).named e
  | twRdf t j gd => exact (execTwRdf_in t j gd s).named e
  | twClq t j => exact (execTwClq_in t j s).named e
  | twAddi t j gd ga imm residueBad => exact (execTwAddi_in t j gd ga imm residueBad s).named e
  | twAndi t j gd ga imm => exact (execTwAndi_in t j gd ga imm s).named e
  | twOri t j gd ga imm => exact (execTwOri_in t j gd ga imm s).named e
  | twXori t j gd ga imm => exact (execTwXori_in t j gd ga imm s).named e
  | twCmpi t j ga imm bad => exact (execTwCmpi_in t j ga imm bad s).named e
  | twShi t j gd ga imm residueBad => exact (execTwShi_in t j gd ga imm residueBad s).named e
  | twLui t j gd imm => exact (execTwLui_in t j gd imm s).named e
  | twLix t j gd => exact (execTwLix_in t j gd s).named e
  | twNop t j => exact (execTwNop_in t j s).named e
  | _ => cases e

/-- Settles O58: the commands named one by one, each by the law that says which banks its meaning writes. -/
theorem registersLeftAlone : Obligations.RegistersLeftAlone := by
  unfold Obligations.RegistersLeftAlone
  intro c B s t e h
  exact (exec_in c s e).of_next h

end Sys2Proof.Machine

/-! PROOFS. What a step does: the command at the front of the queue, the tick where none waits, what each command may
change, and what changes the settings, the programs, the turn number and the firmware slots. -/

namespace Sys2Proof.Machine

/-! The tick on an empty queue (R237, R265). -/

/-- The crystal moves the calendar alone. -/
theorem TimeSt.crystal_frame (t : TimeSt) (n : Nat) :
    t.crystal n = { t with calendar := (t.crystal n).calendar, calPart := (t.crystal n).calPart } := by
  unfold TimeSt.crystal
  split <;> rfl

/-- The crystal counts every part it is given, in seconds and parts of a second. -/
theorem TimeSt.crystal_counts (t : TimeSt) (n : Nat) :
    (t.crystal n).calendar * calSecond + (t.crystal n).calPart = t.calendar * calSecond + t.calPart + n := by
  unfold TimeSt.crystal
  split
  · exact (Nat.add_assoc _ _ _).symm
  · simp only [Nat.add_mul]
    omega

/-- With PD_TIME off a tick is one period of the crystal. -/
theorem timeTick_of_off {s : State} (h : s.pd .time = false) :
    timeTick s = { s with time := s.time.crystal (calSecond / 32768) } := by
  have period : calSecond / 32768 = 312500000 := by norm_num [calSecond]
  rw [period, timeTick, h]
  rfl

/-- With PD_TIME on, LOCAL, the domains and the calendar count, and working time with them. -/
theorem timeTick_of_on {s : State} (h : s.pd .time = true) : timeTick s =
    State.workTick { s with time := { s.time.crystal 32768 with
      ticks := (s.time.crystal 32768).ticks + 1
      domA := (s.time.crystal 32768).domA.tick
      domB := (s.time.crystal 32768).domB.tick } } := by
  simp [timeTick, h]

@[simp] theorem State.workTick_ticks (s : State) : s.workTick.time.ticks = s.time.ticks := by
  simp only [State.workTick, apply_ite State.time, apply_ite TimeSt.ticks, State.wrb_time, ite_self]

@[simp] theorem State.workTick_out (s : State) : s.workTick.out = s.out := by
  simp only [State.workTick, apply_ite State.out, State.wrb_out, ite_self]

theorem State.workTick_of_unset {s : State} (h : s.time.workSet = false) : s.workTick = s := by
  simp [State.workTick, h]

@[simp] theorem TimeSt.crystal_ticks (t : TimeSt) (n : Nat) : (t.crystal n).ticks = t.ticks := by
  rw [t.crystal_frame]

@[simp] theorem TimeSt.crystal_workSet (t : TimeSt) (n : Nat) : (t.crystal n).workSet = t.workSet := by
  rw [t.crystal_frame]

@[simp] theorem TimeSt.crystal_work (t : TimeSt) (n : Nat) : (t.crystal n).work = t.work := by
  rw [t.crystal_frame]

theorem step_of_waiting {s : State} {c : Instr} {rest : List Instr} (h : s.pending = c :: rest) :
    step s = exec c { s with pending := rest } := by
  simp only [step, h]

theorem step_of_idle {s : State} (h : s.pending = []) : step s = .next (timeTick s) := by
  simp only [step, h]

/-- Settles O55: a waiting command by the definition of a step, an empty queue by what a tick is with PD_TIME off
and on. -/
theorem stepRunsTheFrontCommand : Obligations.StepRunsTheFrontCommand := by
  unfold Obligations.StepRunsTheFrontCommand
  refine ⟨fun _ _ _ => step_of_waiting, fun s idle off => ⟨_, step_of_idle idle, ?_⟩,
    fun s idle on => ⟨_, step_of_idle idle, ?_⟩, fun _ _ => rfl⟩
  · rw [timeTick_of_off off]
    refine ⟨congrArg ({ s with time := · }) (s.time.crystal_frame _), ?_⟩
    rw [s.time.crystal_counts]
  · have keeps := timeTick_keeps s
    refine ⟨keeps.pending.trans idle, ?_, keeps.parts .image (by decide), keeps.parts .turn (by decide), ?_,
      fun unset => ?_⟩
    · simp [timeTick_of_on on]
    · simp [timeTick_of_on on]
    · simp [timeTick_of_on on, State.workTick_of_unset, unset]

/-! What each command may change. -/

/-- A command keeps every part outside its footprint: the laws of the meanings, put together. -/
theorem exec_keeps (c : Instr) (s : State) : Keeps (footprint c) s (settle s (exec c s)) := by
  cases c with
  | turnEngineStart => exact execTurnEngineStart_keeps s
  | turnBoundary => exact execTurnBoundary_keeps s
  | inputCutoff => exact execInputCutoff_keeps s
  | loopEvaluationDone loop residueBad => exact execLoopEvaluationDone_keeps loop residueBad s
  | traceCaptureRecord g => exact execTraceCaptureRecord_keeps g s
  | releaseInstant => exact execReleaseInstant_keeps s
  | wheelDeadline => exact execWheelDeadline_keeps s
  | regulationIntervalEnd => exact execRegulationIntervalEnd_keeps s
  | stageWedged cls unit => exact execStageWedged_keeps cls unit s
  | slackClearMin => exact execSlackClearMin_keeps s
  | slackClearSlips => exact execSlackClearSlips_keeps s
  | lowWordRead off aligned => exact execLowWordRead_keeps off aligned s
  | hostWriteTaken => exact execHostWriteTaken_keeps s
  | forceApply => exact execForceApply_keeps s
  | orderAckTimeout seq => exact execOrderAckTimeout_keeps seq s
  | skeinLinkChange p link => exact execSkeinLinkChange_keeps p link s
  | inputFrameReceived p frame => exact execInputFrameReceived_keeps p frame s
  | partnerFrameNotShadow epoch proxy brake => exact execPartnerFrameNotShadow_keeps epoch proxy brake s
  | joinFrameReceived p frame => exact execJoinFrameReceived_keeps p frame s
  | joinAnswer p pos => exact execJoinAnswer_keeps p pos s
  | turnMarkReceived p turn6 offset arrival => exact execTurnMarkReceived_keeps p turn6 offset arrival s
  | echoRspReceived p pos seq elapsed echoTurn => exact execEchoRspReceived_keeps p pos seq elapsed echoTurn s
  | setupRecordRepeat p pos => exact execSetupRecordRepeat_keeps p pos s
  | chainBroken p => exact execChainBroken_keeps p s
  | chainIntact p => exact execChainIntact_keeps p s
  | stationLost p pos => exact execStationLost_keeps p pos s
  | joiningTimeout p pos => exact execJoiningTimeout_keeps p pos s
  | budgetComparison p => exact execBudgetComparison_keeps p s
  | proxyStart p pos => exact execProxyStart_keeps p pos s
  | proxyStop p pos => exact execProxyStop_keeps p pos s
  | skClearCnt p => exact execSkClearCnt_keeps p s
  | taskInputCopyDone t => exact execTaskInputCopyDone_keeps t s
  | taskCommitDone t => exact execTaskCommitDone_keeps t s
  | taskStart t => exact execTaskStart_keeps t s
  | overrunDecision t => exact execOverrunDecision_keeps t s
  | turnWatchdogTrip => exact execTurnWatchdogTrip_keeps s
  | keyPositionTaken lines => exact execKeyPositionTaken_keeps lines s
  | keyInvalidLock lines => exact execKeyInvalidLock_keeps lines s
  | keyEffectiveChange => exact execKeyEffectiveChange_keeps s
  | keyDisagree => exact execKeyDisagree_keeps s
  | retainFlushStart => exact execRetainFlushStart_keeps s
  | retainFlushDone ok => exact execRetainFlushDone_keeps ok s
  | retainFlushNow => exact execRetainFlushNow_keeps s
  | twAdd t j gd ga gb residueBad => exact execTwAdd_keeps t j gd ga gb residueBad s
  | twSub t j gd ga gb residueBad => exact execTwSub_keeps t j gd ga gb residueBad s
  | twAdds t j gd ga gb residueBad => exact execTwAdds_keeps t j gd ga gb residueBad s
  | twSubs t j gd ga gb residueBad => exact execTwSubs_keeps t j gd ga gb residueBad s
  | twAnd t j gd ga gb => exact execTwAnd_keeps t j gd ga gb s
  | twOr t j gd ga gb => exact execTwOr_keeps t j gd ga gb s
  | twXor t j gd ga gb => exact execTwXor_keeps t j gd ga gb s
  | twAndn t j gd ga gb => exact execTwAndn_keeps t j gd ga gb s
  | twShl t j gd ga gb residueBad => exact execTwShl_keeps t j gd ga gb residueBad s
  | twShr t j gd ga gb => exact execTwShr_keeps t j gd ga gb s
  | twSar t j gd ga gb => exact execTwSar_keeps t j gd ga gb s
  | twMin t j gd ga gb => exact execTwMin_keeps t j gd ga gb s
  | twMax t j gd ga gb => exact execTwMax_keeps t j gd ga gb s
  | twCmp t j ga gb bad => exact execTwCmp_keeps t j ga gb bad s
  | twAbs t j gd ga residueBad => exact execTwAbs_keeps t j gd ga residueBad s
  | twNeg t j gd ga residueBad => exact execTwNeg_keeps t j gd ga residueBad s
  | twMul t j gd ga gb residueBad => exact execTwMul_keeps t j gd ga gb residueBad s
  | twMulq t j gd ga gb residueBad => exact execTwMulq_keeps t j gd ga gb residueBad s
  | twDiv t j gd ga gb residueBad => exact execTwDiv_keeps t j gd ga gb residueBad s
  | twDivq t j gd ga gb residueBad => exact execTwDivq_keeps t j gd ga gb residueBad s
  | twSatq t j gd ga => exact execTwSatq_keeps t j gd ga s
  | twSel t j gd ga gb => exact execTwSel_keeps t j gd ga gb s
  | twRdf t j gd => exact execTwRdf_keeps t j gd s
  | twClq t j => exact execTwClq_keeps t j s
  | twAddi t j gd ga imm residueBad => exact execTwAddi_keeps t j gd ga imm residueBad s
  | twAndi t j gd ga imm => exact execTwAndi_keeps t j gd ga imm s
  | twOri t j gd ga imm => exact execTwOri_keeps t j gd ga imm s
  | twXori t j gd ga imm => exact execTwXori_keeps t j gd ga imm s
  | twCmpi t j ga imm bad => exact execTwCmpi_keeps t j ga imm bad s
  | twShi t j gd ga imm residueBad => exact execTwShi_keeps t j gd ga imm residueBad s
  | twLui t j gd imm => exact execTwLui_keeps t j gd imm s
  | twLds t j gd gi slot ecc => exact execTwLds_keeps t j gd gi slot ecc s
  | twLde t j gd gi slot ecc => exact execTwLde_keeps t j gd gi slot ecc s
  | twTag t j gd gi slot ecc => exact execTwTag_keeps t j gd gi slot ecc s
  | twSts t j gs gi m slot => exact execTwSts_keeps t j gs gi m slot s
  | twWinb t j gd ga n1 base ecc => exact execTwWinb_keeps t j gd ga n1 base ecc s
  | twLdw t j gd gb off ecc => exact execTwLdw_keeps t j gd gb off ecc s
  | twStw t j gs gb off => exact execTwStw_keeps t j gs gb off s
  | twTrd t j gd sel => exact execTwTrd_keeps t j gd sel s
  | twLix t j gd => exact execTwLix_keeps t j gd s
  | twLpr t j gd gi node loop ecc => exact execTwLpr_keeps t j gd gi node loop ecc s
  | twLpw t j gs gi node loop => exact execTwLpw_keeps t j gs gi node loop s
  | twMbq t j gb ch buf off ecc => exact execTwMbq_keeps t j gb ch buf off ecc s
  | twMbr t j gb ch buf off ecc => exact execTwMbr_keeps t j gb ch buf off ecc s
  | twBr t j cond off => exact execTwBr_keeps t j cond off s
  | twBtag t j mode q mask off => exact execTwBtag_keeps t j mode q mask off s
  | twLoop t j gc max1 len => exact execTwLoop_keeps t j gc max1 len s
  | twCall t j target => exact execTwCall_keeps t j target s
  | twRet t j => exact execTwRet_keeps t j s
  | twEnd t j => exact execTwEnd_keeps t j s
  | twTrap t j user => exact execTwTrap_keeps t j user s
  | twNop t j => exact execTwNop_keeps t j s
  | trapDecision t => exact execTrapDecision_keeps t s
  | progVerifyDone slot => exact execProgVerifyDone_keeps slot s
  | onlineCarry t eccWords => exact execOnlineCarry_keeps t eccWords s
  | onlineCarryDone t => exact execOnlineCarryDone_keeps t s
  | traceArm g => exact execTraceArm_keeps g s
  | traceStop g => exact execTraceStop_keeps g s
  | traceForce g => exact execTraceForce_keeps g s
  | publishReceived east errBlock frame => exact execPublishReceived_keeps east errBlock frame s
  | beaconReceived east errBlock frame => exact execBeaconReceived_keeps east errBlock frame s
  | beaconSend => exact execBeaconSend_keeps s
  | memberSilent pos => exact execMemberSilent_keeps pos s
  | clashCleared pos => exact execClashCleared_keeps pos s
  | publicationLaunch => exact execPublicationLaunch_keeps s
  | bypassOpen => exact execBypassOpen_keeps s
  | ringLinkChange east link => exact execRingLinkChange_keeps east link s
  | hopMarkSend east sub => exact execHopMarkSend_keeps east sub s
  | hopMarkReceived east seq sub => exact execHopMarkReceived_keeps east seq sub s
  | hopReportSend => exact execHopReportSend_keeps s
  | hopReportReceived east errBlock frame => exact execHopReportReceived_keeps east errBlock frame s
  | hopEntryExpired pos back launch => exact execHopEntryExpired_keeps pos back launch s
  | refclkLost => exact execRefclkLost_keeps s
  | refclkRestored => exact execRefclkRestored_keeps s
  | masterElection dom => exact execMasterElection_keeps dom s
  | domainStart dom => exact execDomainStart_keeps dom s
  | timeRestart dom => exact execTimeRestart_keeps dom s
  | timeSnap => exact execTimeSnap_keeps s
  | incWrite dom v => exact execIncWrite_keeps dom v s
  | incApply dom => exact execIncApply_keeps dom s
  | slewTicksWrite dom n => exact execSlewTicksWrite_keeps dom n s
  | slewEnd dom => exact execSlewEnd_keeps dom s
  | ppsEdge dom sub => exact execPpsEdge_keeps dom sub s
  | ppsLost dom => exact execPpsLost_keeps dom s
  | domainFrameSend dom => exact execDomainFrameSend_keeps dom s
  | domainFrameReceived east errBlock frame => exact execDomainFrameReceived_keeps east errBlock frame s
  | domainHoldover dom => exact execDomainHoldover_keeps dom s
  | holdExpired dom => exact execHoldExpired_keeps dom s
  | workingTimeStart given => exact execWorkingTimeStart_keeps given s
  | slewDone => exact execSlewDone_keeps s
  | domainSwitch => exact execDomainSwitch_keeps s
  | timeXchgSend => exact execTimeXchgSend_keeps s
  | timeXchgReceived diffPs => exact execTimeXchgReceived_keeps diffPs s
  | plyTimeDiffExceeded => exact execPlyTimeDiffExceeded_keeps s
  | ppsOutPulse => exact execPpsOutPulse_keeps s
  | ppsOutFall => exact execPpsOutFall_keeps s
  | alarmFire a => exact execAlarmFire_keeps a s
  | leapApply => exact execLeapApply_keeps s
  | leapTableEffect => exact execLeapTableEffect_keeps s
  | calendarWrite => exact execCalendarWrite_keeps s
  | heartbeatSend => exact execHeartbeatSend_keeps s
  | heartbeatReceived count flags => exact execHeartbeatReceived_keeps count flags s
  | heartbeatMissed => exact execHeartbeatMissed_keeps s
  | ownHeartbeatLoss => exact execOwnHeartbeatLoss_keeps s
  | abdicateLineAsserted => exact execAbdicateLineAsserted_keeps s
  | tokenClassChange cls => exact execTokenClassChange_keeps cls s
  | catchUpLaunch => exact execCatchUpLaunch_keeps s
  | bridgeReceived h inner => exact execBridgeReceived_keeps h inner s
  | releasedReceived h station payload => exact execReleasedReceived_keeps h station payload s
  | reachReceived h reach => exact execReachReceived_keeps h reach s
  | digestReceived h dg => exact execDigestReceived_keeps h dg s
  | digestCompute => exact execDigestCompute_keeps s
  | completionReceived h task trap pc doneNs => exact execCompletionReceived_keeps h task trap pc doneNs s
  | millSnapReceived h ch buf words => exact execMillSnapReceived_keeps h ch buf words s
  | hostWriteReceived h b writes => exact execHostWriteReceived_keeps h b writes s
  | orderReceived h order => exact execOrderReceived_keeps h order s
  | ackReceived h code seq refused => exact execAckReceived_keeps h code seq refused s
  | healthSend => exact execHealthSend_keeps s
  | healthReceived h payload => exact execHealthReceived_keeps h payload s
  | stateSend item first count => exact execStateSend_keeps item first count s
  | stateReceived h item commitTurn first words => exact execStateReceived_keeps h item commitTurn first words s
  | plyJoinReceived h join => exact execPlyJoinReceived_keeps h join s
  | startingTimeout => exact execStartingTimeout_keeps s
  | plyLinkUp => exact execPlyLinkUp_keeps s
  | plyLinkDown training => exact execPlyLinkDown_keeps training s
  | autoRejoin => exact execAutoRejoin_keeps s
  | autoRestart => exact execAutoRestart_keeps s
  | plyCmdRejoin => exact execPlyCmdRejoin_keeps s
  | plyCmdHandover => exact execPlyCmdHandover_keeps s
  | plyCmdLeave => exact execPlyCmdLeave_keeps s
  | plannedHandoverSwitch => exact execPlannedHandoverSwitch_keeps s
  | revert => exact execRevert_keeps s
  | joinTimeout => exact execJoinTimeout_keeps s
  | joinCaptureBoundary => exact execJoinCaptureBoundary_keeps s
  | replayCaughtUp => exact execReplayCaughtUp_keeps s
  | replayBehind => exact execReplayBehind_keeps s
  | divergedTimeout => exact execDivergedTimeout_keeps s
  | millHeartbeatSend => exact execMillHeartbeatSend_keeps s
  | brakeInputAssert line => exact execBrakeInputAssert_keeps line s
  | brakeInputRelease line => exact execBrakeInputRelease_keeps line s
  | brakeFrameRefresh => exact execBrakeFrameRefresh_keeps s
  | brkClearWrite v => exact execBrkClearWrite_keeps v s
  | brkSoftWrite v => exact execBrkSoftWrite_keeps v s
  | softBrakeApply => exact execSoftBrakeApply_keeps s
  | brkLockWrite v => exact execBrkLockWrite_keeps v s
  | brkFirstClearWrite v => exact execBrkFirstClearWrite_keeps v s
  | inputLost => exact execInputLost_keeps s
  | lastGaspRecordDone => exact execLastGaspRecordDone_keeps s
  | keepIslandUpdate => exact execKeepIslandUpdate_keeps s
  | holdupSpent => exact execHoldupSpent_keeps s
  | ejectorOpen => exact execEjectorOpen_keeps s
  | ejectorClosed => exact execEjectorClosed_keeps s
  | doorbellReadEnd pageOk page cmds => exact execDoorbellReadEnd_keeps pageOk page cmds s
  | cmdNop c => exact execCmdNop_keeps c s
  | cmdSigRead c => exact execCmdSigRead_keeps c s
  | cmdSigWrite c => exact execCmdSigWrite_keeps c s
  | cmdSlotStatus c => exact execCmdSlotStatus_keeps c s
  | cmdLoopRead c => exact execCmdLoopRead_keeps c s
  | cmdLoopWrite c => exact execCmdLoopWrite_keeps c s
  | cmdForce c => exact execCmdForce_keeps c s
  | cmdUnforce c => exact execCmdUnforce_keeps c s
  | cmdForceList c => exact execCmdForceList_keeps c s
  | cmdStageRegs c => exact execCmdStageRegs_keeps c s
  | cmdStageSlots c => exact execCmdStageSlots_keeps c s
  | cmdCheck c => exact execCmdCheck_keeps c s
  | checkDone => exact execCheckDone_keeps s
  | cmdCommit c => exact execCmdCommit_keeps c s
  | commitAccepted => exact execCommitAccepted_keeps s
  | commitApply => exact execCommitApply_keeps s
  | commitImageWritten => exact execCommitImageWritten_keeps s
  | cmdDiscard c => exact execCmdDiscard_keeps c s
  | cmdProgLoad c => exact execCmdProgLoad_keeps c s
  | cmdProgRead c => exact execCmdProgRead_keeps c s
  | cmdLogRead c => exact execCmdLogRead_keeps c s
  | cmdLogErase c => exact execCmdLogErase_keeps c s
  | cmdFwManifest c => exact execCmdFwManifest_keeps c s
  | cmdFwDelta c => exact execCmdFwDelta_keeps c s
  | cmdFwActivate c => exact execCmdFwActivate_keeps c s
  | cmdFwConfirm c => exact execCmdFwConfirm_keeps c s
  | cmdMillSend c => exact execCmdMillSend_keeps c s
  | millSendPending ch b => exact execMillSendPending_keeps ch b s
  | cmdMillRead c => exact execCmdMillRead_keeps c s
  | msixCoalTimeout v => exact execMsixCoalTimeout_keeps v s
  | flr => exact execFlr_keeps s
  | perstChange asserted => exact execPerstChange_keeps asserted s
  | hostLinkDown => exact execHostLinkDown_keeps s
  | pmStateChange dstate busMaster => exact execPmStateChange_keeps dstate busMaster s
  | ringEnableWrite ring v => exact execRingEnableWrite_keeps ring v s
  | policyLockWrite v => exact execPolicyLockWrite_keeps v s
  | bar2Access off len wdata ecc => exact execBar2Access_keeps off len wdata ecc s
  | bar0RegisterWrite off v aligned => exact execBar0RegisterWrite_keeps off v aligned s
  | millFrameReceived ch f => exact execMillFrameReceived_keeps ch f s
  | millFrameSent ch src => exact execMillFrameSent_keeps ch src s
  | millTxError ch src inData => exact execMillTxError_keeps ch src inData s
  | millRecovered ch => exact execMillRecovered_keeps ch s
  | mbCmdRestart ch => exact execMbCmdRestart_keeps ch s
  | mbCmdUnmute ch => exact execMbCmdUnmute_keeps ch s
  | mbCmdClearCnt ch => exact execMbCmdClearCnt_keeps ch s
  | millCycleStart ch => exact execMillCycleStart_keeps ch s
  | millWindowStart ch b => exact execMillWindowStart_keeps ch b s
  | millWindowEnd ch b => exact execMillWindowEnd_keeps ch b s
  | millRefLost ch => exact execMillRefLost_keeps ch s
  | millDominantTimeout ch => exact execMillDominantTimeout_keeps ch s
  | mbRdSelWrite ch v => exact execMbRdSelWrite_keeps ch v s
  | mbRdIdRead ch => exact execMbRdIdRead_keeps ch s
  | mbRdStamp2Read ch => exact execMbRdStamp2Read_keeps ch s
  | readLockTimeout ch => exact execReadLockTimeout_keeps ch s
  | millMapTaken ch b => exact execMillMapTaken_keeps ch b s
  | millMapStale ch b => exact execMillMapStale_keeps ch b s
  | gsStart u host => exact execGsStart_keeps u host s
  | gsStop u host => exact execGsStop_keeps u host s
  | gsFeedB u host v => exact execGsFeedB_keeps u host v s
  | gsFeedH u host v => exact execGsFeedH_keeps u host v s
  | gsFeedW u host v => exact execGsFeedW_keeps u host v s
  | acLockWrite u v => exact execAcLockWrite_keeps u v s
  | acViolClear u => exact execAcViolClear_keeps u s
  | trst => exact execTrst_keeps s
  | bypass => exact execBypass_keeps s
  | idcode => exact execIdcode_keeps s
  | samplePreload cells => exact execSamplePreload_keeps cells s
  | extest cells => exact execExtest_keeps cells s
  | clamp => exact execClamp_keeps s
  | dbgAddr v => exact execDbgAddr_keeps v s
  | dbgDataCapture => exact execDbgDataCapture_keeps s
  | dbgDataUpdate v => exact execDbgDataUpdate_keeps v s
  | dbgStatus => exact execDbgStatus_keeps s
  | dbgAcstat => exact execDbgAcstat_keeps s
  | recManual => exact execRecManual_keeps s
  | recSnapshot => exact execRecSnapshot_keeps s
  | recRecordWritten => exact execRecRecordWritten_keeps s
  | recHoldoffEnd n => exact execRecHoldoffEnd_keeps n s
  | fwBuildDone => exact execFwBuildDone_keeps s
  | fwSwitch => exact execFwSwitch_keeps s
  | fwSelfConfirm => exact execFwSelfConfirm_keeps s
  | fwFallBack => exact execFwFallBack_keeps s
  | millerWatchdogRestart back => exact execMillerWatchdogRestart_keeps back s
  | hyHello q => exact execHyHello_keeps q s
  | hyOpen q => exact execHyOpen_keeps q s
  | hyClose q => exact execHyClose_keeps q s
  | hyStatus q => exact execHyStatus_keeps q s
  | hyManifest q => exact execHyManifest_keeps q s
  | hyDelta q => exact execHyDelta_keeps q s
  | hyImage q => exact execHyImage_keeps q s
  | hyActivate q => exact execHyActivate_keeps q s
  | hyConfirm q => exact execHyConfirm_keeps q s
  | hyRecover q => exact execHyRecover_keeps q s
  | recoverReset => exact execRecoverReset_keeps s
  | hyRetire q => exact execHyRetire_keeps q s
  | hyLogRead q => exact execHyLogRead_keeps q s
  | hyicaSessionTimeout => exact execHyicaSessionTimeout_keeps s
  | recoveryImageDone => exact execRecoveryImageDone_keeps s
  | neighborDiscovery toOwn echo => exact execNeighborDiscovery_keeps toOwn echo s
  | svcLinkChange link => exact execSvcLinkChange_keeps link s
  | pwrReqGo v => exact execPwrReqGo_keeps v s
  | rungStepDone => exact execRungStepDone_keeps s
  | serviceButtonPress => exact execServiceButtonPress_keeps s
  | keepAlarmFire => exact execKeepAlarmFire_keeps s
  | pwrResetWarm => exact execPwrResetWarm_keeps s
  | pwrResetPartner => exact execPwrResetPartner_keeps s
  | pwrResetCold => exact execPwrResetCold_keeps s
  | partnerOrderedReset => exact execPartnerOrderedReset_keeps s
  | warmReset => exact execWarmReset_keeps s
  | inputGood straps keepOk button => exact execInputGood_keeps straps keepOk button s
  | holdupCharged => exact execHoldupCharged_keeps s
  | holdupTimeout => exact execHoldupTimeout_keeps s
  | holdupLow => exact execHoldupLow_keeps s
  | cellLow => exact execCellLow_keeps s
  | partnerFrameCrossed p frame => exact execPartnerFrameCrossed_keeps p frame s
  | undefinedEncodingReached t j ecc => exact execUndefinedEncodingReached_keeps t j ecc s
  | millRxError ch amount => exact execMillRxError_keeps ch amount s
  | millHeartbeatAbsent => exact execMillHeartbeatAbsent_keeps s
  | arbitratingWindowStart ch => exact execArbitratingWindowStart_keeps ch s
  | arbitratingWindowEnd ch => exact execArbitratingWindowEnd_keeps ch s
  | msixFunctionUnmask => exact execMsixFunctionUnmask_keeps s
  | partnerSilentWake => exact execPartnerSilentWake_keeps s
  | commandedColdStart => exact execCommandedColdStart_keeps s
  | hostLinkTrained speed width l1 => exact execHostLinkTrained_keeps speed width l1 s

/-! What changes the settings, the programs, the turn number and the firmware slots. -/

/-- Where the bins or the firmware start anew: a recovery image, a step of the rungs, a cold start, an input that returns. -/
def StartsAnew (c : Instr) : Prop :=
  c ∈ [Instr.recoveryImageDone, .rungStepDone, .commandedColdStart] ∨ ∃ a b d, c = .inputGood a b d

/-- The resets, which keep the programs that run. -/
def Resets (c : Instr) : Prop := c ∈ [Instr.warmReset, .autoRestart, .partnerOrderedReset, .recoverReset]

/-- A JOIN: the partner's settings, programs and turn in place of the module's own. -/
def Joins (c : Instr) : Prop := ∃ h j, c = .plyJoinReceived h j

/-- A part that changed is one of those that may change. -/
theorem Keeps.contains_of_changed {A : List Part} {s t : State} {p : Part} (k : Keeps A s t) (changed : ¬Same p s t) :
    A.contains p = true :=
  List.contains_iff_mem.2 (by_contra fun h => changed (k.parts p h))

theorem settings_in_footprint {c : Instr} (h : (footprint c).contains .settings = true) :
    c = .commitApply ∨ Joins c ∨ Resets c ∨ StartsAnew c := by
  cases c with
  | commitApply => exact .inl rfl
  | plyJoinReceived => simp [Joins]
  | warmReset | autoRestart | partnerOrderedReset | recoverReset => simp [Resets]
  | recoveryImageDone | rungStepDone | commandedColdStart | inputGood => simp [StartsAnew]
  | _ => cases h

theorem programs_in_footprint {c : Instr} (h : (footprint c).contains .programs = true) :
    c = .commitApply ∨ Joins c ∨ StartsAnew c := by
  cases c with
  | commitApply => exact .inl rfl
  | plyJoinReceived => simp [Joins]
  | recoveryImageDone | rungStepDone | commandedColdStart | inputGood => simp [StartsAnew]
  | _ => cases h

theorem turnNumber_in_footprint {c : Instr} (h : (footprint c).contains .turnNumber = true) :
    c ∈ [Instr.turnEngineStart, .turnBoundary] ∨ Joins c ∨ Resets c ∨ StartsAnew c := by
  cases c with
  | turnEngineStart | turnBoundary => simp
  | plyJoinReceived => simp [Joins]
  | warmReset | autoRestart | partnerOrderedReset | recoverReset => simp [Resets]
  | recoveryImageDone | rungStepDone | commandedColdStart | inputGood => simp [StartsAnew]
  | _ => cases h

theorem fwSlots_in_footprint {c : Instr} (h : (footprint c).contains .fwSlots = true) :
    c ∈ [Instr.fwBuildDone, .recoveryImageDone] ∨ ∃ q, c = .hyRetire q := by
  cases c with
  | fwBuildDone | recoveryImageDone | hyRetire => simp
  | _ => cases h

/-- Settles O60: what changes stands in the footprint, and the footprints that name these four parts are few. -/
theorem whatChangesWhat : Obligations.WhatChangesWhat := by
  unfold Obligations.WhatChangesWhat
  intro c s t h
  have keeps : Keeps (footprint c) s t := (exec_keeps c s).of_next h
  exact ⟨fun n => settings_in_footprint (keeps.contains_of_changed n),
    fun n => programs_in_footprint (keeps.contains_of_changed n),
    fun n => turnNumber_in_footprint (keeps.contains_of_changed n),
    fun n => fwSlots_in_footprint (keeps.contains_of_changed n)⟩

end Sys2Proof.Machine

/-! PROOFS. Runs of changes, and the registers of the slack meter: the regulator of the core supply and the two clears. -/

namespace Sys2Proof.Machine

/-! Runs of changes. -/

/-- What one step of a run establishes and every step keeps, under an invariant of the run, holds at its end. -/
theorem foldl_reaches {σ α : Type} {f : σ → α → σ} {I P : σ → Prop} {l : List α} {a : α} {s : σ} (ha : a ∈ l) (start : I s)
    (inv : ∀ u, I u → ∀ b ∈ l, I (f u b)) (est : ∀ u, I u → P (f u a)) (keep : ∀ u, I u → P u → ∀ b ∈ l, P (f u b)) :
    P (l.foldl f s) := by
  obtain ⟨before, after, rfl⟩ := List.append_of_mem ha
  have reached : I (before.foldl f s) := List.foldlRecOn before f start (fun u hu b hb => inv u hu b (by simp [hb]))
  rw [List.foldl_append, List.foldl_cons]
  refine (List.foldlRecOn after f (motive := fun u => I u ∧ P u) ⟨inv _ reached a ha, est _ reached⟩ ?_).2
  exact fun u hu b hb => ⟨inv u hu.1 b (by simp [hb]), keep u hu.1 hu.2 b (by simp [hb])⟩

/-- What a step of a run without repetitions establishes, from what the others keep before it, they keep after it. -/
theorem foldl_once {σ α : Type} {f : σ → α → σ} {I P : σ → Prop} {l : List α} {a : α} {s : σ} (ha : a ∈ l) (once : l.Nodup)
    (start : I s) (before : ∀ u, I u → ∀ b ∈ l, b ≠ a → I (f u b)) (est : ∀ u, I u → P (f u a))
    (after : ∀ u, P u → ∀ b ∈ l, b ≠ a → P (f u b)) : P (l.foldl f s) := by
  obtain ⟨front, back, rfl⟩ := List.append_of_mem ha
  have apart : a ∉ front ∧ a ∉ back := by
    rw [List.nodup_append, List.nodup_cons] at once
    exact ⟨fun h => once.2.2 a h a List.mem_cons_self rfl, once.2.1.1⟩
  rw [List.foldl_append, List.foldl_cons]
  refine List.foldlRecOn back f (est _ (List.foldlRecOn front f start fun u hu b hb => ?_)) fun u hu b hb => ?_
  · exact before u hu b (by simp [hb]) (fun e => apart.1 (e ▸ hb))
  · exact after u hu b (by simp [hb]) (fun e => apart.2 (e ▸ hb))

/-- A field that one step of a run sets, and the others leave, reads as that step leaves it. -/
theorem rd_foldl_of_mem {f : State → Nat → State} {g : Fld} {v a : Nat} {l : List Nat} (s : State) (ha : a ∈ l)
    (est : ∀ u, (f u a).rd g = v) (keep : ∀ u, ∀ b, b ≠ a → (f u b).rd g = u.rd g) : (l.foldl f s).rd g = v := by
  refine foldl_reaches (I := fun _ => True) (P := fun u => u.rd g = v) ha trivial (fun _ _ _ _ => trivial)
    (fun u _ => est u) (fun u _ hu b _ => ?_)
  by_cases hb : b = a
  · exact hb ▸ est u
  · exact (keep u b hb).trans hu

/-- A field that every step of a run leaves reads the same. -/
theorem rd_foldl {α : Type} {f : State → α → State} {g : Fld} {l : List α} (s : State)
    (keep : ∀ u, ∀ b ∈ l, (f u b).rd g = u.rd g) : (l.foldl f s).rd g = s.rd g :=
  List.foldlRecOn l f (motive := fun u => u.rd g = s.rd g) rfl (fun u hu b hb => (keep u b hb).trans hu)

theorem OnlyRegs.rfl {s : State} : OnlyRegs s s := Eq.refl s

theorem OnlyRegs.wr {s t : State} (h : OnlyRegs s t) (f : Fld) (v : Nat) : OnlyRegs s (t.wr f v) :=
  congrArg (State.wr · f v) h

theorem OnlyRegs.foldl {α : Type} {s t : State} (f : State → α → State) (l : List α) (h : OnlyRegs s t)
    (step : ∀ u a, OnlyRegs s u → OnlyRegs s (f u a)) : OnlyRegs s (l.foldl f t) :=
  List.foldlRecOn l f h (fun u hu a _ => step u a hu)

theorem mem_upTo {n a : Nat} : a ∈ upTo n ↔ a < n := List.mem_range

theorem bit_eq_one {b : Bool} : bit b = 1 ↔ b = true := by
  cases b <;> simp [bit]

/-- A Boolean written reads back as its bit. -/
theorem State.rd_wrb_same (s : State) {f : Fld} (b : Bool) (h : 0 < f.width) : (s.wrb f b).rd f = bit b := by
  have small : bit b < 2 ^ f.width := lt_of_le_of_lt (by cases b <;> decide) (Nat.one_lt_two_pow h.ne')
  rw [State.wrb, State.rd_wr_same, Nat.mod_eq_of_lt small]

/-! The core supply (R40). -/

theorem State.setVcore_rd_vcore (s : State) {mv : Nat} (h : mv ≤ 850) : (s.setVcore mv).rd F.VCORE_STATUS_vcore_mv = mv := by
  have cut : mv % 2 ^ F.VCORE_STATUS_vcore_mv.width = mv := Nat.mod_eq_of_lt (by simp [F.VCORE_STATUS_vcore_mv]; omega)
  rw [State.setVcore, State.rd_wrb_ne _ _ _ _ (by decide), State.rd_wrb_ne _ _ _ _ (by decide), State.rd_wr_same, cut]

theorem State.setVcore_rd_floor (s : State) (mv : Nat) : (s.setVcore mv).rd F.VCORE_STATUS_at_floor = 1 ↔ mv = 600 := by
  rw [State.setVcore, State.rd_wrb_ne _ _ _ _ (by decide), State.rd_wrb_same _ _ (by decide), bit_eq_one, beq_iff_eq]

theorem State.setVcore_rd_ceiling (s : State) (mv : Nat) : (s.setVcore mv).rd F.VCORE_STATUS_at_ceiling = 1 ↔ mv = 850 := by
  rw [State.setVcore, State.rd_wrb_same _ _ (by decide), bit_eq_one, beq_iff_eq]

/-- The core supply that the regulator sets at the end of an interval with a least slack and no slip. -/
def State.steppedVcore (s : State) (x : Nat) : Nat :=
  if x < s.act F.SLACK_TARGET_target_ns then min 850 (s.rd F.VCORE_STATUS_vcore_mv + 10)
  else if s.act F.SLACK_TARGET_target_ns + s.act F.SLACK_TARGET_hyst_ns < x then max 600 (s.rd F.VCORE_STATUS_vcore_mv - 5)
  else s.rd F.VCORE_STATUS_vcore_mv

/-- The core supply that the regulator sets at the end of an interval. -/
def State.regulatedVcore (s : State) : Nat :=
  match s.turn.leastSlack with
  | none => s.rd F.VCORE_STATUS_vcore_mv
  | some x => if s.turn.slipSeen then s.rd F.VCORE_STATUS_vcore_mv else s.steppedVcore x

theorem execRegulationIntervalEnd_eq (s : State) : execRegulationIntervalEnd s =
    ok { s.setVcore s.regulatedVcore with turn := { s.turn with leastSlack := none, slipSeen := false } } := rfl

theorem State.regulatedVcore_of_slack {s : State} {x : Nat} (h : s.turn.leastSlack = some x) (calm : s.turn.slipSeen = false) :
    s.regulatedVcore = s.steppedVcore x := by
  simp [State.regulatedVcore, h, calm]

theorem State.regulatedVcore_of_none {s : State} (h : s.turn.leastSlack = none) :
    s.regulatedVcore = s.rd F.VCORE_STATUS_vcore_mv := by
  simp [State.regulatedVcore, h]

theorem State.regulatedVcore_of_slip {s : State} (h : s.turn.slipSeen = true) :
    s.regulatedVcore = s.rd F.VCORE_STATUS_vcore_mv := by
  unfold State.regulatedVcore
  split <;> simp [h]

/-- The regulator stays at or below 0.85 V. -/
theorem State.regulatedVcore_le {s : State} (h : s.rd F.VCORE_STATUS_vcore_mv ≤ 850) : s.regulatedVcore ≤ 850 := by
  unfold State.regulatedVcore State.steppedVcore
  split
  · exact h
  · split_ifs <;> omega

theorem regulatorFollowsSlack : RegulatorFollowsSlack := by
  intro s mv hmv hle
  subst hmv
  have shown := s.setVcore_rd_vcore (s.regulatedVcore_le hle)
  refine ⟨_, execRegulationIntervalEnd_eq s, fun x hx calm => ?_, fun none => ?_, fun slip => ?_, ?_, ?_, ?_, ?_⟩
  · have step := shown.trans (State.regulatedVcore_of_slack hx calm)
    refine ⟨fun below => step.trans ?_, fun above => step.trans ?_, fun low high => step.trans ?_⟩ <;>
      unfold State.steppedVcore
    · exact if_pos below
    · exact (if_neg (by omega)).trans (if_pos above)
    · exact (if_neg (by omega)).trans (if_neg (by omega))
  · exact shown.trans (State.regulatedVcore_of_none none)
  · exact shown.trans (State.regulatedVcore_of_slip slip)
  · exact (s.setVcore_rd_floor _).trans (Iff.of_eq (congrArg (· = 600) shown.symm))
  · exact (s.setVcore_rd_ceiling _).trans (Iff.of_eq (congrArg (· = 850) shown.symm))
  · exact s.setVcore_in _
  · rfl

/-! SLACK_CLEAR (R47). -/

theorem slackClearMin_does {s : State} (on : s.pd .bins = true) : Does .slackClearMin s (fun t =>
    (∀ i : Fin 16, t.rd (F.SLACK_TASK_MIN_slack_ns i.val) = 0xFFFFFFFF) ∧
      (∀ g : Fin 8, t.rd (F.SLACK_WHEEL_MIN_slack_ns g.val) = 0xFFFFFFFF) ∧
      RegsBut (fun o => (0x40C0 ≤ o ∧ o < 0x4100) ∨ (0x4120 ≤ o ∧ o < 0x4140)) s t ∧ OnlyRegs s t) := by
  refine ⟨_, if_neg (by simp [on]), fun i => ?_, fun g => ?_, ?_, ?_⟩
  · rw [rd_foldl]
    · refine rd_foldl_of_mem s (mem_upTo.2 i.isLt) (fun u => State.rd_wr_same _ _ _) (fun u b hb => State.rd_wr_ne _ _ _ _ ?_)
      simp only [Fld.key, F.SLACK_TASK_MIN_slack_ns]; omega
    · intro u b hb
      have := mem_upTo.1 hb
      refine State.rd_wr_ne _ _ _ _ ?_
      simp only [Fld.key, F.SLACK_TASK_MIN_slack_ns, F.SLACK_WHEEL_MIN_slack_ns]; omega
  · refine rd_foldl_of_mem _ (mem_upTo.2 g.isLt) (fun u => State.rd_wr_same _ _ _) (fun u b hb => State.rd_wr_ne _ _ _ _ ?_)
    simp only [Fld.key, F.SLACK_WHEEL_MIN_slack_ns]; omega
  · refine RegsBut.foldl _ _ (RegsBut.foldl _ _ RegsBut.rfl ?_) ?_ <;> intro u a ha hu <;> have := mem_upTo.1 ha
    · exact hu.wr _ _ (by simp [F.SLACK_TASK_MIN_slack_ns]) (by simp only [F.SLACK_TASK_MIN_slack_ns]; omega)
    · exact hu.wr _ _ (by simp [F.SLACK_WHEEL_MIN_slack_ns]) (by simp only [F.SLACK_WHEEL_MIN_slack_ns]; omega)
  · exact OnlyRegs.foldl _ _ (OnlyRegs.foldl _ _ OnlyRegs.rfl (fun u a hu => hu.wr _ _)) (fun u a hu => hu.wr _ _)

/-- A run that clears two fields of each index below a bound. -/
def State.clearPairs (s : State) (n : Nat) (f g : Nat → Fld) : State :=
  (upTo n).foldl (fun s i => (s.wr (f i) 0).wr (g i) 0) s

theorem State.clearPairs_rd (s : State) {n i : Nat} {f g : Nat → Fld} (hi : i < n)
    (apart : ∀ j, (f j).key ≠ (g i).key ∧ (g j).key ≠ (f i).key)
    (inj : ∀ j, j ≠ i → (f j).key ≠ (f i).key ∧ (g j).key ≠ (g i).key) :
    (s.clearPairs n f g).rd (f i) = 0 ∧ (s.clearPairs n f g).rd (g i) = 0 := by
  refine ⟨rd_foldl_of_mem s (mem_upTo.2 hi) (fun u => ?_) (fun u j hj => ?_),
    rd_foldl_of_mem s (mem_upTo.2 hi) (fun u => ?_) (fun u j hj => ?_)⟩
  · rw [State.rd_wr_ne _ _ _ _ (apart i).2, State.rd_wr_same, Nat.zero_mod]
  · rw [State.rd_wr_ne _ _ _ _ (apart j).2, State.rd_wr_ne _ _ _ _ (inj j hj).1]
  · rw [State.rd_wr_same, Nat.zero_mod]
  · rw [State.rd_wr_ne _ _ _ _ (inj j hj).2, State.rd_wr_ne _ _ _ _ (apart j).1]

theorem State.clearPairs_rd_ne (s : State) {n : Nat} {f g : Nat → Fld} {h : Fld}
    (ne : ∀ j, j < n → (f j).key ≠ h.key ∧ (g j).key ≠ h.key) : (s.clearPairs n f g).rd h = s.rd h :=
  rd_foldl s (fun u j hj => by
    rw [State.rd_wr_ne _ _ _ _ (ne j (mem_upTo.1 hj)).2, State.rd_wr_ne _ _ _ _ (ne j (mem_upTo.1 hj)).1])

theorem State.clearPairs_onlyRegs {s t : State} (h : OnlyRegs s t) (n : Nat) (f g : Nat → Fld) :
    OnlyRegs s (t.clearPairs n f g) :=
  h.foldl _ _ (fun _ _ hu => (hu.wr _ _).wr _ _)

theorem RegsBut.clearPairs {W : Nat → Prop} {s t : State} (h : RegsBut W s t) {n : Nat} {f g : Nat → Fld}
    (hl : ∀ i, (f i).lo < 32 ∧ (g i).lo < 32) (hW : ∀ i, i < n → W (f i).off ∧ W (g i).off) :
    RegsBut W s (t.clearPairs n f g) :=
  h.foldl _ _ (fun _ i hi hu => (hu.wr _ _ (hl i).1 (hW i (mem_upTo.1 hi)).1).wr _ _ (hl i).2 (hW i (mem_upTo.1 hi)).2)

theorem slackClearSlips_does {s : State} (on : s.pd .bins = true) : Does .slackClearSlips s (fun t =>
    (∀ i : Fin 16, t.rd (F.SLIP_TASK_slips i.val) = 0 ∧ t.rd (F.SLIP_TASK_last_slipped i.val) = 0) ∧
      (∀ g : Fin 8, t.rd (F.SLIP_WHEEL_slips g.val) = 0 ∧ t.rd (F.SLIP_WHEEL_last_slipped g.val) = 0) ∧
      RegsBut (fun o => 0x4140 ≤ o ∧ o < 0x41A0) s t ∧ OnlyRegs s t) := by
  let tasks := s.clearPairs 16 F.SLIP_TASK_slips F.SLIP_TASK_last_slipped
  refine ⟨tasks.clearPairs 8 F.SLIP_WHEEL_slips F.SLIP_WHEEL_last_slipped, if_neg (by simp [on]), fun i => ?_, fun g => ?_,
    ?_, ?_⟩
  · have done := s.clearPairs_rd (f := F.SLIP_TASK_slips) (g := F.SLIP_TASK_last_slipped) i.isLt
      (fun j => by simp only [Fld.key, F.SLIP_TASK_slips, F.SLIP_TASK_last_slipped]; omega)
      (fun j hj => by simp only [Fld.key, F.SLIP_TASK_slips, F.SLIP_TASK_last_slipped]; omega)
    refine ⟨(State.clearPairs_rd_ne _ fun j hj => ?_).trans done.1, (State.clearPairs_rd_ne _ fun j hj => ?_).trans done.2⟩ <;>
      simp only [Fld.key, F.SLIP_TASK_slips, F.SLIP_TASK_last_slipped, F.SLIP_WHEEL_slips, F.SLIP_WHEEL_last_slipped] <;> omega
  · exact State.clearPairs_rd _ g.isLt
      (fun j => by simp only [Fld.key, F.SLIP_WHEEL_slips, F.SLIP_WHEEL_last_slipped]; omega)
      (fun j hj => by simp only [Fld.key, F.SLIP_WHEEL_slips, F.SLIP_WHEEL_last_slipped]; omega)
  · refine (RegsBut.rfl.clearPairs (fun i => ?_) (fun i hi => ?_)).clearPairs (fun i => ?_) (fun i hi => ?_) <;>
      simp only [F.SLIP_TASK_slips, F.SLIP_TASK_last_slipped, F.SLIP_WHEEL_slips, F.SLIP_WHEEL_last_slipped] <;> omega
  · exact State.clearPairs_onlyRegs (State.clearPairs_onlyRegs .rfl _ _ _) _ _ _

/-- Settles O12: the regulator by what it sets at the end of an interval, the two clears by what their runs write. -/
theorem slackRegulatedAndCleared : Obligations.SlackRegulatedAndCleared :=
  ⟨regulatorFollowsSlack, fun _ on => ⟨slackClearMin_does on, slackClearSlips_does on⟩⟩

end Sys2Proof.Machine

/-! PROOFS. Faults and slips: what a self-diagnosed fault records, the role that it gives up, and the slip of a wheel group. -/

namespace Sys2Proof.Machine

/-! Banks of registers lie apart (R4), so a change within some banks leaves a field of another. -/

/-- The banks, in the order of the map. -/
def Bank.all : List Bank :=
  [.ident, .hopper, .events, .turn, .slack, .fault, .run, .key, .wdog, .retain, .task, .prog, .trap, .online, .time, .ring,
    .ply, .brake, .mill, .seal, .ac, .viol, .regions, .log, .fw, .power, .skein, .stations, .loops, .trace]

theorem Bank.mem_all (b : Bank) : b ∈ Bank.all := by
  cases b <;> decide

/-- Two banks do not overlap. -/
theorem Bank.apart {b c : Bank} (h : b ≠ c) : b.range.2 ≤ c.range.1 ∨ c.range.2 ≤ b.range.1 := by
  have pairs : Bank.all.Pairwise (fun b c => b.range.2 ≤ c.range.1 ∨ c.range.2 ≤ b.range.1) := by decide
  have symm : Std.Symm (fun b c : Bank => b.range.2 ≤ c.range.1 ∨ c.range.2 ≤ b.range.1) := ⟨fun _ _ => Or.symm⟩
  exact pairs.forall b.mem_all c.mem_all h

/-- A field of a bank. -/
abbrev Fld.In (f : Fld) (b : Bank) : Prop := f.lo < 32 ∧ b.range.1 ≤ f.off ∧ f.off < b.range.2

/-- A change within some banks leaves a field of another bank. -/
theorem RegsIn.rd_eq {B : List Bank} {s t : State} (h : RegsIn B s t) {f : Fld} {b : Bank} (hf : f.In b) (hb : b ∉ B) :
    t.rd f = s.rd f := by
  obtain ⟨hl, low, high⟩ := hf
  refine h f hl (fun c hc inside => ?_)
  have := Bank.apart (b := b) (c := c) (fun e => hb (e ▸ hc))
  omega

/-- What a write shows of a field depends on what the field held before alone. -/
theorem State.rd_wr_congr {s t : State} {g : Fld} (h : s.rd g = t.rd g) (f : Fld) (v : Nat) :
    (s.wr f v).rd g = (t.wr f v).rd g := by
  by_cases e : f.key = g.key
  · have find (m : RegMap) : SMap.getD (SMap.set m f.key f.cold (v % 2 ^ f.width)) f.key g.cold =
        if v % 2 ^ f.width = f.cold then g.cold else v % 2 ^ f.width := by
      unfold SMap.set SMap.getD
      split <;> simp
    simp only [State.rd, State.wr, RegMap.get, RegMap.set, ← e, find]
  · rw [State.rd_wr_ne _ _ _ _ e, State.rd_wr_ne _ _ _ _ e, h]

/-! The ply's registers at a change of role (R277, R285, R298). -/

/-- An event of the ply writes PLY_EVT alone among the ply's registers. -/
theorem State.plyEvt_rd (s : State) {i : Nat} (hi : i < 48) {f : Fld} (hf : f.In .ply) (he : F.PLY_EVT_evt.key ≠ f.key) :
    (s.plyEvt i).rd f = s.rd f := by
  unfold State.plyEvt
  simp only
  split
  · rw [(State.raiseSource_in _ _ _ _ (by omega)).rd_eq hf (by decide), State.rd_wr_ne _ _ _ _ he]
  · rw [State.rd_wr_ne _ _ _ _ he]

/-- A change of the ply state writes the state, and of the ply's other registers PLY_EVT alone. -/
theorem State.setPlyState_rd_of_ne {s : State} {n : Nat} (h : s.plyState ≠ n) {f : Fld} (hf : f.In .ply)
    (he : F.PLY_EVT_evt.key ≠ f.key) : (s.setPlyState n).rd f = (s.wr F.PLY_STATUS_state n).rd f := by
  have dropped (c : Bool) : (if c then s.dropArmed none else s).rd f = s.rd f := by
    cases c
    · rfl
    · exact (s.dropArmed_in none).rd_eq hf (by decide)
  unfold State.setPlyState
  rw [if_neg (by simpa using h)]
  refine ((State.row19_in _).rd_eq hf (by decide)).trans ?_
  have told := State.rd_wr_congr (dropped (s.plyState == 4 && !(n == 1 || n == 2))) F.PLY_STATUS_state n
  have event := (State.plyEvt_rd _ (i := 0) (by decide) hf he).trans told
  split
  · exact event
  · refine (rd_foldl _ fun u p hp => State.rd_wr_ne _ _ _ _ (Fld.key_ne_off (by simp [F.SK_STATUS_proxy]) hf.1 ?_)).trans event
    have := hf.2.2
    simp only [F.SK_STATUS_proxy, Bank.range] at this ⊢
    omega

theorem State.setPlyState_state (s : State) {n : Nat} (hn : n < 8) : (s.setPlyState n).rd F.PLY_STATUS_state = n := by
  by_cases h : s.plyState = n
  · unfold State.setPlyState
    rw [if_pos (by simpa using h)]
    exact h
  · exact (State.setPlyState_rd_of_ne h (by decide) (by decide)).trans ((State.rd_wr_same _ _ _).trans (Nat.mod_eq_of_lt hn))

theorem State.setPlyState_rd (s : State) (n : Nat) {f : Fld} (hf : f.In .ply) (hs : F.PLY_STATUS_state.key ≠ f.key)
    (he : F.PLY_EVT_evt.key ≠ f.key) : (s.setPlyState n).rd f = s.rd f := by
  by_cases h : s.plyState = n
  · unfold State.setPlyState
    rw [if_pos (by simpa using h)]
  · rw [State.setPlyState_rd_of_ne h hf he, State.rd_wr_ne _ _ _ _ hs]

theorem State.fireGasp_rd_ply (s : State) (n : Nat) {f : Fld} (hf : f.In .ply) : (s.fireGasp n).rd f = s.rd f :=
  (s.fireGasp_in n).rd_eq hf (by decide)

/-- The state in which a module that abdicates ends its commands: cause shown, lines low, mill bus muted (R285). -/
def State.withdrawn (s : State) (cause : Nat) : State :=
  { (((s.wr F.PLY_REASON_abdication cause).wr F.PLY_STATUS_abd_out 1).wr F.TURN_WDOG_armed 0).setMuted true with
    ply := { s.ply with tokOut := false } }

theorem State.withdrawn_rd (s : State) (cause : Nat) (f : Fld) : (s.withdrawn cause).rd f =
    ((((s.wr F.PLY_REASON_abdication cause).wr F.PLY_STATUS_abd_out 1).wr F.TURN_WDOG_armed 0).setMuted true).rd f := rfl

theorem State.abdicate_of_active {s : State} (h : s.isActive = true) (cause : Nat) :
    s.abdicate cause = ((s.withdrawn cause).stopCommands.setPlyState 6).fireGasp 58 := by
  unfold State.abdicate
  rw [if_neg (by simp [h])]
  rfl

theorem State.abdicate_state {s : State} (h : s.isActive = true) (cause : Nat) :
    (s.abdicate cause).rd F.PLY_STATUS_state = 6 := by
  rw [State.abdicate_of_active h, State.fireGasp_rd_ply _ _ (by decide), State.setPlyState_state _ (by decide)]

theorem State.abdicate_rd_ply {s : State} (h : s.isActive = true) (cause : Nat) {f : Fld} (hf : f.In .ply)
    (hs : F.PLY_STATUS_state.key ≠ f.key) (he : F.PLY_EVT_evt.key ≠ f.key) :
    (s.abdicate cause).rd f = (s.withdrawn cause).rd f := by
  rw [State.abdicate_of_active h, State.fireGasp_rd_ply _ _ hf, State.setPlyState_rd _ _ hf hs he,
    (State.stopCommands_in _).rd_eq hf (by decide)]

/-- What an active module shows once it has abdicated: the cause, its lines low and its mill bus muted (R285). -/
theorem State.abdicate_shows {s : State} (h : s.isActive = true) {cause : Nat} (hc : cause < 16) :
    (s.abdicate cause).rd F.PLY_REASON_abdication = cause ∧ (s.abdicate cause).rd F.PLY_STATUS_abd_out = 1 ∧
      (s.abdicate cause).rd F.PLY_STATUS_muted = 1 := by
  have shown {f : Fld} (hf : f.In .ply) (hs : F.PLY_STATUS_state.key ≠ f.key) (he : F.PLY_EVT_evt.key ≠ f.key) :
      (s.abdicate cause).rd f =
        ((((s.wr F.PLY_REASON_abdication cause).wr F.PLY_STATUS_abd_out 1).wr F.TURN_WDOG_armed 0).wrb F.PLY_STATUS_muted
          true).rd f := by
    rw [State.abdicate_rd_ply h _ hf hs he]
    have other (i : Nat) : (F.MB_STATUS_muted i).key ≠ f.key := Fld.key_ne_off (by simp [F.MB_STATUS_muted]) hf.1 (by
      have := hf.2.2
      simp only [F.MB_STATUS_muted, Bank.range] at this ⊢
      omega)
    rw [State.withdrawn_rd, State.setMuted, State.rd_wrb_ne _ _ _ _ (other 1), State.rd_wrb_ne _ _ _ _ (other 0)]
  refine ⟨?_, ?_, ?_⟩ <;> rw [shown (by decide) (by decide) (by decide)]
  · rw [State.rd_wrb_ne _ _ _ _ (by decide), State.rd_wr_ne _ _ _ _ (by decide), State.rd_wr_ne _ _ _ _ (by decide),
      State.rd_wr_same]
    exact Nat.mod_eq_of_lt hc
  · rw [State.rd_wrb_ne _ _ _ _ (by decide), State.rd_wr_ne _ _ _ _ (by decide), State.rd_wr_same]
    rfl
  · exact State.rd_wrb_same _ _ (by decide)

theorem Keeps.ply {A : List Part} {s t : State} (h : Keeps A s t) (hA : Part.ply ∉ A) : t.ply = s.ply := h.parts .ply hA

/-- Commands that end touch nothing of the ply but its orders (R329). -/
theorem State.stopCommands_tokOut (s : State) : s.stopCommands.ply.tokOut = s.ply.tokOut := by
  have ended : (s.finishAcked.finish (fun m => changesBehaviour m.op) 8 0 0 0).ply = s.ply :=
    ((State.finish_keeps _ _ _ _ _ _).ply (by decide)).trans (s.finishAcked_keeps.ply (by decide))
  unfold State.stopCommands
  simp only
  rw [(State.hopState_keeps _).ply (by decide)]
  change (State.ply (ite _ _ _)).tokOut = _
  split
  · exact congrArg PlySt.tokOut ended
  · exact congrArg PlySt.tokOut (((State.dropArmed_keeps _ _).ply (by decide)).trans ended)

theorem State.setPlyState_tokOut (s : State) (n : Nat) : (s.setPlyState n).ply.tokOut = s.ply.tokOut := by
  have dropped (c : Bool) : (if c then s.dropArmed none else s).ply = s.ply := by
    cases c
    · rfl
    · exact (s.dropArmed_keeps none).ply (by decide)
  unfold State.setPlyState
  split
  · rfl
  · rw [(State.row19_keeps _).ply (by decide)]
    have told (t : State) : ((t.wr F.PLY_STATUS_state n).plyEvt 0).ply = t.ply := (State.plyEvt_keeps _ _).ply (by decide)
    simp only
    split
    · show (State.ply (State.plyEvt _ _)).tokOut = _
      exact congrArg PlySt.tokOut ((told _).trans (dropped _))
    · have cleared (t : State) : ((upTo 16).foldl (fun s p => s.wr (F.SK_STATUS_proxy p) 0) t).ply = t.ply :=
        List.foldlRecOn _ _ (motive := fun u : State => u.ply = t.ply) rfl (fun _ hu _ _ => hu)
      rw [cleared]
      show (State.ply (State.plyEvt _ _)).tokOut = _
      exact congrArg PlySt.tokOut ((told _).trans (dropped _))

theorem State.abdicate_tokOut {s : State} (h : s.isActive = true) (cause : Nat) : (s.abdicate cause).ply.tokOut = false := by
  rw [State.abdicate_of_active h, (State.fireGasp_keeps _ _).ply (by decide), State.setPlyState_tokOut,
    State.stopCommands_tokOut]
  rfl

/-- A standby that leaves tracking is UNTRACKED and shows the reason (R281). -/
theorem State.leaveTracking_shows {s : State} (h : s.isStandby = true) {reason : Nat} (hr : reason < 16) :
    (s.leaveTracking reason).rd F.PLY_STATUS_state = 5 ∧ (s.leaveTracking reason).rd F.PLY_REASON_untracked = reason := by
  unfold State.leaveTracking
  rw [if_neg (by simp [h])]
  refine ⟨?_, ?_⟩
  · rw [State.plyEvt_rd _ (by decide) (by decide) (by decide)]
    exact State.setPlyState_state _ (by decide)
  · rw [State.plyEvt_rd _ (by decide) (by decide) (by decide), State.setPlyState_rd _ _ (by decide) (by decide) (by decide)]
    refine (State.rd_wr_ne (s.wr F.PLY_REASON_untracked reason) F.PLY_STATUS_diverged _ 0 (by decide)).trans ?_
    exact (State.rd_wr_same _ _ _).trans (Nat.mod_eq_of_lt hr)

/-! A self-diagnosed fault (R44 to R48). -/

/-- The state in which a fault has been recorded, or found one recorded before. -/
def State.noted (s : State) (kind cls unit : Nat) : State :=
  if s.faultFirst kind then s.recordFault kind cls unit else s

theorem State.noted_rd (s : State) (kind cls unit : Nat) {f : Fld} {b : Bank} (hf : f.In b) (hb : b ≠ .fault) :
    (s.noted kind cls unit).rd f = s.rd f := by
  unfold State.noted
  split
  · exact (s.recordFault_in _ _ _).rd_eq hf (by simpa using hb)
  · rfl

theorem State.noted_plyState (s : State) (kind cls unit : Nat) : (s.noted kind cls unit).plyState = s.plyState :=
  s.noted_rd _ _ _ (b := .ply) (by decide) (by decide)

theorem State.selfFault_eq (s : State) (kind cls unit : Nat) : s.selfFault kind cls unit =
    if s.isActive then (s.noted kind cls unit).abdicate 1 else (s.noted kind cls unit).leaveTracking 9 := by
  have same : (s.noted kind cls unit).isActive = s.isActive := by simp only [State.isActive, State.noted_plyState]
  rw [← same]
  rfl

theorem State.selfFault_of_active {s : State} (h : s.plyState = 1 ∨ s.plyState = 2) (kind cls unit : Nat) :
    s.selfFault kind cls unit = (s.noted kind cls unit).abdicate 1 ∧ (s.noted kind cls unit).isActive = true := by
  have active : s.isActive = true := by simpa [State.isActive] using h
  refine ⟨(s.selfFault_eq _ _ _).trans (if_pos active), ?_⟩
  simpa only [State.isActive, State.noted_plyState] using active

theorem State.selfFault_of_standby {s : State} (h : s.plyState = 4) (kind cls unit : Nat) :
    s.selfFault kind cls unit = (s.noted kind cls unit).leaveTracking 9 ∧ (s.noted kind cls unit).isStandby = true := by
  refine ⟨(s.selfFault_eq _ _ _).trans (if_neg (by simp [State.isActive, h])), ?_⟩
  simp [State.isStandby, State.noted_plyState, h]

/-- Giving up a role leaves the fault's record as it is. -/
theorem State.selfFault_rd_fault (s : State) (kind cls unit : Nat) {f : Fld} (hf : f.In .fault) :
    (s.selfFault kind cls unit).rd f = (s.noted kind cls unit).rd f := by
  rw [State.selfFault_eq]
  split
  · exact (State.abdicate_in _ _).rd_eq hf (by decide)
  · exact (State.leaveTracking_in _ _).rd_eq hf (by decide)

theorem State.selfFault_turn (s : State) (kind cls unit : Nat) :
    (s.selfFault kind cls unit).turn = (s.noted kind cls unit).turn := by
  rw [State.selfFault_eq]
  split
  · exact (State.abdicate_keeps _ _).parts .turn (by decide)
  · exact (State.leaveTracking_keeps _ _).parts .turn (by decide)

/-- A fault leaves of the turn all but the tick at which it was detected. -/
theorem State.selfFault_turn_frame (s : State) (kind cls unit : Nat) : (s.selfFault kind cls unit).turn =
    { s.turn with faultTick := (s.selfFault kind cls unit).turn.faultTick } := by
  rw [State.selfFault_turn]
  unfold State.noted
  split <;> rfl

/-- The record of a fault (R47, R48). -/
theorem State.recordFault_shows (s : State) (kind cls unit : Nat) :
    let t := s.recordFault kind cls unit
    t.rd F.FAULT_RECORD_kind = kind % 4 ∧ t.rd F.FAULT_RECORD_unit_class = cls % 4 ∧ t.rd F.FAULT_RECORD_unit = unit % 128 ∧
      t.rd F.FAULT_TURN_LO_fault_turn = s.turn.k % 2 ^ 32 ∧ t.rd F.FAULT_TURN_HI_fault_turn = s.turn.k / 2 ^ 32 % 2 ^ 32 := by
  simp only [State.recordFault]
  refine ⟨?_, ?_, ?_, ?_, ?_⟩
  · rw [State.rd_wr_ne _ _ _ _ (by decide), State.rd_wr_ne _ _ _ _ (by decide), State.rd_wr_ne _ _ _ _ (by decide),
      State.rd_wr_ne _ _ _ _ (by decide), State.rd_wr_same]; rfl
  · rw [State.rd_wr_ne _ _ _ _ (by decide), State.rd_wr_ne _ _ _ _ (by decide), State.rd_wr_ne _ _ _ _ (by decide),
      State.rd_wr_same]; rfl
  · rw [State.rd_wr_ne _ _ _ _ (by decide), State.rd_wr_ne _ _ _ _ (by decide), State.rd_wr_same]; rfl
  · rw [State.rd_wr_ne _ _ _ _ (by decide), State.rd_wr_same]
    exact Nat.mod_mod _ _
  · rw [State.rd_wr_same, Nat.shiftRight_eq_div_pow]; rfl

/-- The first fault after a cold start is recorded. -/
theorem State.selfFault_records {s : State} (h : s.rd F.FAULT_RECORD_kind = 0) (kind cls unit : Nat) :
    let t := s.selfFault kind cls unit
    t.rd F.FAULT_RECORD_kind = kind % 4 ∧ t.rd F.FAULT_RECORD_unit_class = cls % 4 ∧ t.rd F.FAULT_RECORD_unit = unit % 128 ∧
      t.rd F.FAULT_TURN_LO_fault_turn = s.turn.k % 2 ^ 32 ∧ t.rd F.FAULT_TURN_HI_fault_turn = s.turn.k / 2 ^ 32 % 2 ^ 32 := by
  have first : s.noted kind cls unit = s.recordFault kind cls unit := if_pos (by simp [State.faultFirst, h])
  simp only [State.selfFault_rd_fault _ _ _ _ (f := F.FAULT_RECORD_kind) (by decide),
    State.selfFault_rd_fault _ _ _ _ (f := F.FAULT_RECORD_unit_class) (by decide),
    State.selfFault_rd_fault _ _ _ _ (f := F.FAULT_RECORD_unit) (by decide),
    State.selfFault_rd_fault _ _ _ _ (f := F.FAULT_TURN_LO_fault_turn) (by decide),
    State.selfFault_rd_fault _ _ _ _ (f := F.FAULT_TURN_HI_fault_turn) (by decide), first]
  exact s.recordFault_shows kind cls unit

/-- A fault of a later step leaves the record (R46). -/
theorem State.selfFault_leaves_record {s : State} (held : s.rd F.FAULT_RECORD_kind ≠ 0)
    (later : s.turn.faultTick ≠ some s.time.ticks) (kind cls unit : Nat) {f : Fld} (hf : f.In .fault) :
    (s.selfFault kind cls unit).rd f = s.rd f := by
  have none : s.noted kind cls unit = s := if_neg (by simp [State.faultFirst, held, later])
  rw [State.selfFault_rd_fault _ _ _ _ hf, none]

theorem wedgeRecordedAndRoleGivenUp : WedgeRecordedAndRoleGivenUp := by
  intro s cls unit
  have keeps := execStageWedged_keeps cls unit s
  refine ⟨_, rfl, fun none => ?_, fun held later f hf => ?_, fun active => ?_, fun standby => ?_, keeps.parts .image (by decide),
    s.selfFault_turn_frame _ _ _, keeps.parts .tasks (by decide), keeps.parts .loops (by decide), keeps.parts .mem (by decide)⟩
  · obtain ⟨kind, unitClass, num, low, high⟩ := State.selfFault_records none 2 (unitCode cls) unit.val
    refine ⟨kind, unitClass.trans ?_, num.trans (Nat.mod_eq_of_lt unit.isLt), low, high⟩
    cases cls <;> rfl
  · refine State.selfFault_leaves_record held later _ _ _ ?_
    simp only [List.mem_cons, List.not_mem_nil, or_false] at hf
    obtain rfl | rfl | rfl | rfl | rfl := hf <;> decide
  · obtain ⟨eq, on⟩ := State.selfFault_of_active active 2 (unitCode cls) unit.val
    obtain ⟨cause, line, muted⟩ := State.abdicate_shows on (cause := 1) (by decide)
    rw [eq]
    exact ⟨State.abdicate_state on 1, cause, line, muted, State.abdicate_tokOut on 1⟩
  · obtain ⟨eq, on⟩ := State.selfFault_of_standby standby 2 (unitCode cls) unit.val
    rw [eq]
    exact State.leaveTracking_shows on (by decide)

/-! A residue mismatch in a wheel (R44). -/

theorem wheelResidueMismatch : WheelResidueMismatch := by
  intro s l k next
  let s' : State := { s with turn := { s.turn with evals := s.turn.evals.filter (fun e => !(e.1 == k && e.2 == l.val)) } }
  have run : exec (.loopEvaluationDone l true) s = .next (s'.selfFault 1 0 (l.val % 128)) := by
    show execLoopEvaluationDone l true s = _
    simp only [execLoopEvaluationDone, next]
    rfl
  have keeps := State.selfFault_keeps s' 1 0 (l.val % 128)
  refine ⟨_, run, keeps.parts .loops (by decide), keeps.parts .image (by decide), s'.selfFault_turn_frame _ _ _,
    fun none => ?_, fun active => ?_⟩
  · obtain ⟨kind, unitClass, num, -⟩ := State.selfFault_records (s := s') none 1 0 (l.val % 128)
    exact ⟨kind, unitClass, num.trans (Nat.mod_mod _ _)⟩
  · obtain ⟨eq, on⟩ := State.selfFault_of_active (s := s') active 1 0 (l.val % 128)
    exact (congrArg (State.rd · F.PLY_STATUS_state) eq).trans (State.abdicate_state on 1)

/-! Slips of wheel groups (R34, R38 to R43). -/

/-- The turn without what the slack meter and the fault record note in it (R38 to R46). -/
def TurnSt.unmetered (x : TurnSt) : TurnSt :=
  { x with groups := [], faultTick := none, leastSlack := none, slipSeen := false, healthSlips := 0, healthSlack := none }

theorem State.selfFault_unmetered (s : State) (kind cls unit : Nat) :
    (s.selfFault kind cls unit).turn.unmetered = s.turn.unmetered := by
  rw [State.selfFault_turn_frame]
  rfl

/-- The registers of wheel group g as a slip leaves them (R40, R41). -/
def State.slipRegs (s : State) (g : Nat) : State :=
  ((((s.inc (F.SLIP_WHEEL_slips g)).wr (F.SLIP_WHEEL_last_slipped g) 1).wr (F.SLACK_WHEEL_LAST_slack_ns g) 0).wr
    (F.SLACK_WHEEL_MIN_slack_ns g) 0).setVcore 850

/-- A slip of a wheel group up to its event: its registers, the slack meter's notes and the release's record. -/
def State.slipNoted (s : State) (g m : Nat) : State :=
  let n := (((s.inc (F.SLIP_WHEEL_slips g)).wr (F.SLIP_WHEEL_last_slipped g) 1).wr (F.SLACK_WHEEL_LAST_slack_ns g) 0).wr
    (F.SLACK_WHEEL_MIN_slack_ns g) 0 |>.noteSlip
  let r := n.setRel m { n.relRec m with wheelSlips := setBit (n.relRec m).wheelSlips g true }
  { r with turn := { r.turn with groups := SMap.put r.turn.groups g (SMap.getD s.turn.groups g 0 + 1) } }

theorem State.wheelSlip_eq (s : State) (g m : Nat) : s.wheelSlip g m =
    let t := (s.slipNoted g m).raiseSource (48 + g) ((s.slipNoted g m).rawWord 0x4050)
      ((s.slipNoted g m).rd (F.SLACK_WHEEL_LAST_slack_ns g))
    if 2 ≤ SMap.getD s.turn.groups g 0 + 1 then t.selfFault 3 0 g else t := rfl

theorem State.slipNoted_rd (s : State) (g m : Nat) (f : Fld) : (s.slipNoted g m).rd f = (s.slipRegs g).rd f := rfl

/-- Of the slack bank a slip writes the group's registers and the core supply's. -/
theorem State.wheelSlip_rd (s : State) {g : Nat} (hg : g < 8) (m : Nat) {f : Fld} (hf : f.In .slack) :
    (s.wheelSlip g m).rd f = (s.slipRegs g).rd f := by
  rw [State.wheelSlip_eq, ← s.slipNoted_rd g m]
  have raised := (State.raiseSource_in (s.slipNoted g m) (48 + g) ((s.slipNoted g m).rawWord 0x4050)
    ((s.slipNoted g m).rd (F.SLACK_WHEEL_LAST_slack_ns g)) (by omega)).rd_eq hf (by decide)
  simp only
  split
  · exact ((State.selfFault_in _ _ _ _).rd_eq hf (by decide)).trans raised
  · exact raised

/-- The slack meter notes a slip in its own part of the turn. -/
theorem State.noteSlip_unmetered (s : State) : s.noteSlip.turn.unmetered = s.turn.unmetered := rfl

/-- A slip notes itself in the slack meter, and discards nothing of the turn (R41). -/
theorem State.slipNoted_unmetered (s : State) (g m : Nat) : (s.slipNoted g m).turn.unmetered = s.turn.unmetered :=
  State.noteSlip_unmetered ((((s.inc (F.SLIP_WHEEL_slips g)).wr (F.SLIP_WHEEL_last_slipped g) 1).wr
    (F.SLACK_WHEEL_LAST_slack_ns g) 0).wr (F.SLACK_WHEEL_MIN_slack_ns g) 0)

theorem State.wheelSlip_unmetered (s : State) (g m : Nat) : (s.wheelSlip g m).turn.unmetered = s.turn.unmetered := by
  have raised : ((s.slipNoted g m).raiseSource (48 + g) ((s.slipNoted g m).rawWord 0x4050)
      ((s.slipNoted g m).rd (F.SLACK_WHEEL_LAST_slack_ns g))).turn.unmetered = s.turn.unmetered :=
    (congrArg TurnSt.unmetered ((State.raiseSource_keeps _ _ _ _).parts .turn (by decide))).trans (s.slipNoted_unmetered g m)
  rw [State.wheelSlip_eq]
  simp only
  split
  · exact (State.selfFault_unmetered _ _ _ _).trans raised
  · exact raised

/-- The registers of a group that has slipped: counted once more, no slack, and the core supply at 0.85 V. -/
structure HasSlipped (s t : State) (g : Nat) : Prop where
  last : t.rd (F.SLIP_WHEEL_last_slipped g) = 1
  count : t.rd (F.SLIP_WHEEL_slips g) = min (s.rd (F.SLIP_WHEEL_slips g) + 1) 0xFFFF
  slack : t.rd (F.SLACK_WHEEL_LAST_slack_ns g) = 0
  least : t.rd (F.SLACK_WHEEL_MIN_slack_ns g) = 0
  supply : t.rd F.VCORE_STATUS_vcore_mv = 850

/-- The offsets of the registers that a slip of group g writes. -/
def slipOff (g o : Nat) : Prop := o = 0x4048 ∨ o = 0x4180 + 4 * g ∨ o = 0x4100 + 4 * g ∨ o = 0x4120 + 4 * g

theorem State.slipRegs_but (s : State) (g : Nat) : RegsBut (slipOff g) s (s.slipRegs g) := by
  refine RegsBut.trans (t := (((s.inc (F.SLIP_WHEEL_slips g)).wr (F.SLIP_WHEEL_last_slipped g) 1).wr
    (F.SLACK_WHEEL_LAST_slack_ns g) 0).wr (F.SLACK_WHEEL_MIN_slack_ns g) 0) ?_ ?_
  · refine (((RegsBut.rfl.add _ _ ?_ ?_).wr _ _ ?_ ?_).wr _ _ ?_ ?_).wr _ _ ?_ ?_ <;>
      simp [slipOff, F.SLIP_WHEEL_slips, F.SLIP_WHEEL_last_slipped, F.SLACK_WHEEL_LAST_slack_ns, F.SLACK_WHEEL_MIN_slack_ns]
  · exact ((RegsBut.rfl.wr _ _ (by decide) (.inl rfl)).wrb _ _ (by decide) (.inl rfl)).wrb _ _ (by decide) (.inl rfl)

theorem State.setVcore_rd_of_off (s : State) (mv : Nat) {f : Fld} (hl : f.lo < 32) (h : f.off ≠ 0x4048) :
    (s.setVcore mv).rd f = s.rd f :=
  (((RegsBut.rfl (W := (· = 0x4048))).wr _ _ (by decide) rfl).wrb _ _ (by decide) rfl).wrb _ _ (by decide) rfl f hl h

theorem State.slipRegs_rd_vcore (s : State) (g : Nat) : (s.slipRegs g).rd F.VCORE_STATUS_vcore_mv = 850 :=
  State.setVcore_rd_vcore _ (by decide)

theorem State.slipRegs_hasSlipped (s : State) (g : Nat) : HasSlipped s (s.slipRegs g) g := by
  refine ⟨?_, ?_, ?_, ?_, s.slipRegs_rd_vcore g⟩ <;> rw [State.slipRegs, State.setVcore_rd_of_off]
  · rw [State.rd_wr_ne, State.rd_wr_ne, State.rd_wr_same]
    · rfl
    all_goals simp only [Fld.key, F.SLIP_WHEEL_last_slipped, F.SLACK_WHEEL_LAST_slack_ns, F.SLACK_WHEEL_MIN_slack_ns]; omega
  · simp [F.SLIP_WHEEL_last_slipped]
  · simp only [F.SLIP_WHEEL_last_slipped]; omega
  · rw [State.rd_wr_ne, State.rd_wr_ne, State.rd_wr_ne, State.inc, State.rd_add_same]
    · rfl
    all_goals
      simp only [Fld.key, F.SLIP_WHEEL_slips, F.SLIP_WHEEL_last_slipped, F.SLACK_WHEEL_LAST_slack_ns,
        F.SLACK_WHEEL_MIN_slack_ns]
      omega
  · simp [F.SLIP_WHEEL_slips]
  · simp only [F.SLIP_WHEEL_slips]; omega
  · rw [State.rd_wr_ne, State.rd_wr_same, Nat.zero_mod]
    simp only [Fld.key, F.SLACK_WHEEL_LAST_slack_ns, F.SLACK_WHEEL_MIN_slack_ns]; omega
  · simp [F.SLACK_WHEEL_LAST_slack_ns]
  · simp only [F.SLACK_WHEEL_LAST_slack_ns]; omega
  · rw [State.rd_wr_same, Nat.zero_mod]
  · simp [F.SLACK_WHEEL_MIN_slack_ns]
  · simp only [F.SLACK_WHEEL_MIN_slack_ns]; omega

/-- Each register that HasSlipped names lies in the slack bank, and but for the core supply's among those of the group. -/
theorem slipFields_in {g : Nat} (hg : g < 8) : (F.SLIP_WHEEL_last_slipped g).In .slack ∧ (F.SLIP_WHEEL_slips g).In .slack ∧
    (F.SLACK_WHEEL_LAST_slack_ns g).In .slack ∧ (F.SLACK_WHEEL_MIN_slack_ns g).In .slack := by
  simp only [Fld.In, Bank.range, F.SLIP_WHEEL_last_slipped, F.SLIP_WHEEL_slips, F.SLACK_WHEEL_LAST_slack_ns,
    F.SLACK_WHEEL_MIN_slack_ns]
  omega

theorem not_slipOff {b g : Nat} (hb : b < 8) (hg : g < 8) (h : b ≠ g) : ¬slipOff b (F.SLIP_WHEEL_last_slipped g).off ∧
    ¬slipOff b (F.SLIP_WHEEL_slips g).off ∧ ¬slipOff b (F.SLACK_WHEEL_LAST_slack_ns g).off ∧
    ¬slipOff b (F.SLACK_WHEEL_MIN_slack_ns g).off := by
  simp only [slipOff, F.SLIP_WHEEL_last_slipped, F.SLIP_WHEEL_slips, F.SLACK_WHEEL_LAST_slack_ns, F.SLACK_WHEEL_MIN_slack_ns]
  omega

/-- A slip of a group leaves the registers of another. -/
theorem State.wheelSlip_rd_of_not {b m : Nat} (hb : b < 8) (u : State) {f : Fld} (hf : f.In .slack) (h : ¬slipOff b f.off) :
    (u.wheelSlip b m).rd f = u.rd f :=
  (u.wheelSlip_rd hb m hf).trans (u.slipRegs_but b f hf.1 h)

/-- A slip of a group whose count stands as in s. -/
theorem State.wheelSlip_hasSlipped {s u : State} {g : Nat} (hg : g < 8) (m : Nat)
    (h : u.rd (F.SLIP_WHEEL_slips g) = s.rd (F.SLIP_WHEEL_slips g)) : HasSlipped s (u.wheelSlip g m) g := by
  obtain ⟨last, count, slack, least⟩ := slipFields_in hg
  have now := u.slipRegs_hasSlipped g
  exact ⟨(u.wheelSlip_rd hg m last).trans now.last, h ▸ (u.wheelSlip_rd hg m count).trans now.count,
    (u.wheelSlip_rd hg m slack).trans now.slack, (u.wheelSlip_rd hg m least).trans now.least,
    (u.wheelSlip_rd hg m (by decide)).trans now.supply⟩

/-- A group that has slipped shows it after another's slip. -/
theorem HasSlipped.wheelSlip {s u : State} {g b m : Nat} (h : HasSlipped s u g) (hg : g < 8) (hb : b < 8) (ne : b ≠ g) :
    HasSlipped s (u.wheelSlip b m) g := by
  obtain ⟨last, count, slack, least⟩ := slipFields_in hg
  obtain ⟨notLast, notCount, notSlack, notLeast⟩ := not_slipOff hb hg ne
  exact ⟨(u.wheelSlip_rd_of_not hb last notLast).trans h.last, (u.wheelSlip_rd_of_not hb count notCount).trans h.count,
    (u.wheelSlip_rd_of_not hb slack notSlack).trans h.slack, (u.wheelSlip_rd_of_not hb least notLeast).trans h.least,
    (u.wheelSlip_rd hb m (by decide)).trans (u.slipRegs_rd_vcore b)⟩

/-- The groups with evaluations of a sample outstanding at its deadline. -/
def State.lateGroups (s : State) (k : Nat) : List Nat :=
  (upTo 8).filter (fun g => s.turn.evals.any (fun e => e.1 == k && groupOf e.2 == g))

theorem State.mem_lateGroups {s : State} {k g : Nat} :
    g ∈ s.lateGroups k ↔ g < 8 ∧ ∃ e ∈ s.turn.evals, e.1 = k ∧ e.2 % 128 / 16 = g := by
  simp [State.lateGroups, mem_upTo, groupOf]

/-- The late groups of a deadline slip one after the other (R41). -/
def State.slipLate (s : State) (late : List Nat) (m : Nat) : State := late.foldl (fun s g => s.wheelSlip g m) s

theorem State.slipLate_hasSlipped (s : State) {late : List Nat} {g : Nat} (m : Nat) (below : ∀ b ∈ late, b < 8)
    (once : late.Nodup) (h : g ∈ late) : HasSlipped s (s.slipLate late m) g := by
  have hg := below g h
  refine foldl_once (I := fun u : State => u.rd (F.SLIP_WHEEL_slips g) = s.rd (F.SLIP_WHEEL_slips g))
    (P := fun u => HasSlipped s u g) h once rfl
    (fun u hu b hb ne => ?_) (fun u hu => State.wheelSlip_hasSlipped hg m hu)
    (fun u hu b hb ne => hu.wheelSlip hg (below b hb) ne)
  exact (u.wheelSlip_rd_of_not (below b hb) (slipFields_in hg).2.1 (not_slipOff (below b hb) hg ne).2.1).trans hu

theorem State.slipLate_rd_of_not_mem (s : State) {late : List Nat} {g : Nat} (m : Nat) (below : ∀ b ∈ late, b < 8) (hg : g < 8)
    (h : g ∉ late) : (s.slipLate late m).rd (F.SLIP_WHEEL_slips g) = s.rd (F.SLIP_WHEEL_slips g) ∧
      (s.slipLate late m).rd (F.SLACK_WHEEL_LAST_slack_ns g) = s.rd (F.SLACK_WHEEL_LAST_slack_ns g) := by
  obtain ⟨-, count, slack, -⟩ := slipFields_in hg
  have other {b : Nat} (hb : b ∈ late) := not_slipOff (below b hb) hg (fun e => h (e ▸ hb))
  exact ⟨rd_foldl s fun u b hb => u.wheelSlip_rd_of_not (below b hb) count (other hb).2.1,
    rd_foldl s fun u b hb => u.wheelSlip_rd_of_not (below b hb) slack (other hb).2.2.1⟩

theorem State.slipLate_unmetered (s : State) (late : List Nat) (m : Nat) :
    (s.slipLate late m).turn.unmetered = s.turn.unmetered :=
  List.foldlRecOn late _ (motive := fun u : State => u.turn.unmetered = s.turn.unmetered) rfl
    (fun u hu b _ => (u.wheelSlip_unmetered b m).trans hu)

/-- The sample whose wheel deadline is the next to pass (R34). -/
def State.deadlineSample (s : State) : Nat := s.turn.nextDl + 1 - s.nTurns

/-- The next wheel deadline has passed, and its late groups have slipped (R34, R41, R43). -/
def State.deadlinePassed (s : State) : State :=
  let late := s.lateGroups s.deadlineSample
  (({ s with turn := { s.turn with nextDl := s.turn.nextDl + 1 } } : State).clearRuns s.deadlineSample late).slipLate late
    s.turn.nextDl

theorem execWheelDeadline_of_due {s : State} (running : s.rd F.TURN_STATUS_running = 1) (due : s.turn.nextDl ≤ s.turn.k)
    (fresh : s.replaying = true → s.turn.nextDl + 1 < s.turn.cutoffs + s.nTurns) : execWheelDeadline s =
      if s.turn.nextDl + 1 < s.nTurns then ok { s with turn := { s.turn with nextDl := s.turn.nextDl + 1 } }
      else ok { s.deadlinePassed with loops := s.deadlinePassed.loops.map (fun e => (e.1, e.2.show s.deadlineSample)) } := by
  refine if_neg ?_
  have replay : (s.replaying && decide (s.turn.cutoffs + s.nTurns ≤ s.turn.nextDl + 1)) = false := by
    cases h : s.replaying
    · rfl
    · simpa using fresh h
  simp [State.on, running, replay, due]

/-- A deadline discards no evaluation and no result (R41). -/
theorem State.deadlinePassed_turn (s : State) : s.deadlinePassed.turn.nextDl = s.turn.nextDl + 1 ∧
    s.deadlinePassed.turn.evals = s.turn.evals ∧ s.deadlinePassed.turn.held = s.turn.held :=
  have noted := State.slipLate_unmetered _ _ _
  ⟨(congrArg TurnSt.nextDl noted).trans rfl, (congrArg TurnSt.evals noted).trans rfl, (congrArg TurnSt.held noted).trans rfl⟩

theorem State.deadlinePassed_late {s : State} {g : Nat} (h : g ∈ s.lateGroups s.deadlineSample) :
    HasSlipped s s.deadlinePassed g :=
  have slipped := State.slipLate_hasSlipped _ s.turn.nextDl (fun _ hb => (State.mem_lateGroups.1 hb).1)
    (List.nodup_range.filter _) h
  ⟨slipped.last, slipped.count, slipped.slack, slipped.least, slipped.supply⟩

theorem State.deadlinePassed_not_late {s : State} {g : Nat} (hg : g < 8) (h : g ∉ s.lateGroups s.deadlineSample) :
    s.deadlinePassed.rd (F.SLIP_WHEEL_slips g) = s.rd (F.SLIP_WHEEL_slips g) ∧
      s.deadlinePassed.rd (F.SLACK_WHEEL_LAST_slack_ns g) = s.rd (F.SLACK_WHEEL_LAST_slack_ns g) :=
  State.slipLate_rd_of_not_mem _ s.turn.nextDl (fun _ hb => (State.mem_lateGroups.1 hb).1) hg h

theorem wheelDeadlineSlips : WheelDeadlineSlips := by
  intro s running due fresh
  have run := execWheelDeadline_of_due running due fresh
  by_cases early : s.turn.nextDl + 1 < s.nTurns
  · rw [if_pos early] at run
    exact ⟨_, run, rfl, rfl, rfl, rfl, fun g => ⟨fun late => absurd early (by omega), fun _ => ⟨rfl, rfl⟩⟩⟩
  · rw [if_neg early] at run
    obtain ⟨next, evals, held⟩ := s.deadlinePassed_turn
    refine ⟨_, run, next, evals, ((execWheelDeadline_keeps s).of_next run).parts .image (by decide), held, fun g =>
      ⟨fun _ late => ?_, fun not => ?_⟩⟩
    · have slipped := State.deadlinePassed_late (State.mem_lateGroups.2 ⟨g.isLt, late⟩)
      exact ⟨slipped.last, slipped.count, slipped.slack, slipped.least, slipped.supply⟩
    · exact State.deadlinePassed_not_late g.isLt (fun h => not (State.mem_lateGroups.1 h).2)

/-- Settles O13: a wedge and a residue mismatch by what a self-diagnosed fault does, the deadline by the slips of its
late groups. -/
theorem faultsAndSlips : Obligations.FaultsAndSlips :=
  ⟨wedgeRecordedAndRoleGivenUp, wheelResidueMismatch, wheelDeadlineSlips⟩

end Sys2Proof.Machine

/-! PROOFS. The turn engine: what goes out at a boundary, what each port counts there, and the start of the engine. -/

namespace Sys2Proof.Machine

/-! The marks of a boundary (R76, R77). -/

/-- The blocks that MarksGoOut names have left port p at boundary k. -/
def MarkSent (t : State) (k p : Nat) : Prop :=
  (∃ off, off < 656 ∧ Out.skeinBlock p 1 ((k % 64 * 1024 + off) / 256) ((k % 64 * 1024 + off) % 256) ∈ t.out) ∧
    (k % 16 = 0 → Out.skeinBlock p 4 0 0 ∈ t.out)

/-- What was sent stays sent. -/
theorem MarkSent.mono {s t : State} {k p : Nat} (h : MarkSent s k p) (sent : s.out <+: t.out) : MarkSent t k p :=
  ⟨h.1.imp fun _ m => ⟨m.1, sent.subset m.2⟩, fun e => sent.subset (h.2 e)⟩

theorem State.skUp_iff {s : State} {p : Nat} : s.skUp p = true ↔ s.rd (F.SK_STATUS_link p) = 2 := by
  simp [State.skUp]

theorem State.boundaryBlocks_sends {s : State} {p : Nat} (k : Nat) (up : s.rd (F.SK_STATUS_link p) = 2) :
    MarkSent (s.boundaryBlocks k p) k p := by
  unfold State.boundaryBlocks
  rw [if_neg (by simp [State.skUp_iff.2 up])]
  simp only
  have offset : s.free.1 % 656 < 656 := Nat.mod_lt _ (by decide)
  by_cases sixteenth : k % 16 = 0
  · rw [if_pos sixteenth]
    exact ⟨⟨_, offset, by simp⟩, fun _ => by simp⟩
  · rw [if_neg sixteenth]
    refine ⟨⟨_, offset, ?_⟩, fun e => absurd e sixteenth⟩
    split <;> simp [State.setPort]

/-! The working state of a port. -/

@[simp] theorem State.port_setPort_same (s : State) (p : Nat) (x : SkeinPort) : (s.setPort p x).port p = x :=
  SMap.getD_put_same _ _ _ _

theorem State.port_setPort_ne (s : State) {p q : Nat} (x : SkeinPort) (h : q ≠ p) : (s.setPort q x).port p = s.port p :=
  SMap.getD_put_ne _ _ _ h

/-- What a port has counted of the far end's marks (R98). -/
def SkeinPort.marks (x : SkeinPort) : Bool × Nat × Nat := (x.markSeen, x.marksMissing, x.marksRun)

/-- These counts after a turn in which the far end's mark was seen, or not (R98). -/
def nextMarks (m : Bool × Nat × Nat) : Bool × Nat × Nat := if m.1 then (false, 0, m.2.2 + 1) else (false, m.2.1 + 1, 0)

/-- The Skein state but for its ports. -/
def SkeinSt.portless (x : SkeinSt) : SkeinSt := { x with ports := [] }

/-- The blocks of a boundary leave what every port has counted. -/
theorem State.boundaryBlocks_marks (s : State) (k q p : Nat) : ((s.boundaryBlocks k q).port p).marks = (s.port p).marks := by
  unfold State.boundaryBlocks
  simp only
  split_ifs
  · rfl
  · rfl
  · rfl
  · by_cases h : q = p
    · subst h
      rw [State.port_setPort_same]
      rfl
    · rw [State.port_setPort_ne _ _ h]
      rfl

theorem State.boundaryBlocks_portless (s : State) (k p : Nat) : (s.boundaryBlocks k p).skein.portless = s.skein.portless := by
  unfold State.boundaryBlocks
  simp only
  split_ifs <;> rfl

theorem State.countMarks_same {s : State} {p : Nat} (hears : s.skHears p = true) :
    ((s.countMarks p).port p).marks = nextMarks (s.port p).marks := by
  unfold State.countMarks
  rw [if_neg (by simp [hears])]
  simp only [State.port_setPort_same]
  cases seen : (s.port p).markSeen <;> simp [SkeinPort.marks, nextMarks, seen]

theorem State.countMarks_ne (s : State) {p q : Nat} (h : q ≠ p) : (s.countMarks q).port p = s.port p := by
  unfold State.countMarks
  split
  · rfl
  · exact State.port_setPort_ne _ _ h

theorem State.countMarks_portless (s : State) (p : Nat) : (s.countMarks p).skein.portless = s.skein.portless := by
  unfold State.countMarks
  split <;> rfl

/-- What a port sends and hears hangs on registers that a boundary's blocks and counts leave. -/
theorem RegsIn.skUp {s t : State} (h : RegsIn [] s t) (p : Nat) : t.rd (F.SK_STATUS_link p) = s.rd (F.SK_STATUS_link p) :=
  h _ (by simp [F.SK_STATUS_link]) (by simp)

theorem RegsIn.skHears {s t : State} (h : RegsIn [] s t) (p : Nat) : t.skHears p = s.skHears p := by
  simp only [State.skHears, State.skUp, State.pd, h.skUp p, h F.PWR_DOMAINS_on (by decide) (by simp)]

/-! All ports at a boundary. -/

/-- The ports send their blocks of boundary k. -/
def State.sendMarks (s : State) (k : Nat) : State := (upTo 16).foldl (fun s p => s.boundaryBlocks k p) s

/-- The ports count the marks of the turn that ends, and send their blocks of boundary k. -/
def State.turnMarks (s : State) (k : Nat) : State := (upTo 16).foldl (fun s p => (s.countMarks p).boundaryBlocks k p) s

theorem State.markStep_in (s : State) (k p : Nat) : RegsIn [] s ((s.countMarks p).boundaryBlocks k p) :=
  (s.countMarks_in p).next (State.boundaryBlocks_in _ _ _) (by simp)

theorem State.markStep_keeps (s : State) (k p : Nat) : Keeps [.skein] s ((s.countMarks p).boundaryBlocks k p) :=
  (s.countMarks_keeps p).next (State.boundaryBlocks_keeps _ _ _) (by simp)

theorem State.sendMarks_in (s : State) (k : Nat) : RegsIn [] s (s.sendMarks k) :=
  RegsIn.rfl.foldl _ _ (fun u p _ hu => hu.next (u.boundaryBlocks_in k p) (by simp))

theorem State.sendMarks_keeps (s : State) (k : Nat) : Keeps [.skein] s (s.sendMarks k) :=
  Keeps.rfl.foldl _ _ (fun u p hu => hu.next (u.boundaryBlocks_keeps k p) (by simp))

theorem State.turnMarks_keeps (s : State) (k : Nat) : Keeps [.skein] s (s.turnMarks k) :=
  Keeps.rfl.foldl _ _ (fun u p hu => hu.next (u.markStep_keeps k p) (by simp))

theorem State.sendMarks_sent (s : State) (k : Nat) (p : Fin 16) (up : s.rd (F.SK_STATUS_link p.val) = 2) :
    MarkSent (s.sendMarks k) k p.val := by
  refine foldl_reaches (I := fun u => RegsIn [] s u) (P := fun u => MarkSent u k p.val) (mem_upTo.2 p.isLt) .rfl
    (fun u hu q _ => hu.next (u.boundaryBlocks_in k q) (by simp)) (fun u hu => ?_)
    (fun u _ sent q _ => sent.mono (u.boundaryBlocks_keeps k q).sent)
  exact State.boundaryBlocks_sends k ((hu.skUp p.val).trans up)

theorem State.turnMarks_sent (s : State) (k : Nat) (p : Fin 16) (up : s.rd (F.SK_STATUS_link p.val) = 2) :
    MarkSent (s.turnMarks k) k p.val := by
  refine foldl_reaches (I := fun u => RegsIn [] s u) (P := fun u => MarkSent u k p.val) (mem_upTo.2 p.isLt) .rfl
    (fun u hu q _ => hu.next (u.markStep_in k q) (by simp)) (fun u hu => ?_)
    (fun u _ sent q _ => sent.mono (u.markStep_keeps k q).sent)
  exact State.boundaryBlocks_sends k (((hu.next (u.countMarks_in p.val) (by simp)).skUp p.val).trans up)

theorem State.turnMarks_marks {s : State} (k : Nat) {p : Fin 16} (hears : s.skHears p.val = true) :
    ((s.turnMarks k).port p.val).marks = nextMarks (s.port p.val).marks := by
  have other (u : State) {q : Nat} (h : q ≠ p.val) :
      (((u.countMarks q).boundaryBlocks k q).port p.val).marks = (u.port p.val).marks := by
    rw [State.boundaryBlocks_marks, State.countMarks_ne _ h]
  refine foldl_once (I := fun u : State => RegsIn [] s u ∧ (u.port p.val).marks = (s.port p.val).marks)
    (P := fun u => (u.port p.val).marks = nextMarks (s.port p.val).marks) (mem_upTo.2 p.isLt) List.nodup_range ⟨.rfl, rfl⟩
    (fun u hu q _ ne => ⟨hu.1.next (u.markStep_in k q) (by simp), (other u ne).trans hu.2⟩) (fun u hu => ?_)
    (fun u hu q _ ne => (other u ne).trans hu)
  rw [State.boundaryBlocks_marks, State.countMarks_same ((hu.1.skHears _).trans hears), hu.2]

theorem State.turnMarks_portless (s : State) (k : Nat) : (s.turnMarks k).skein.portless = s.skein.portless :=
  List.foldlRecOn _ _ (motive := fun u : State => u.skein.portless = s.skein.portless) rfl fun u hu p _ =>
    ((State.boundaryBlocks_portless _ k p).trans (u.countMarks_portless p)).trans hu

theorem State.turnMarks_direct (s : State) (k : Nat) : (s.turnMarks k).skein.direct = s.skein.direct ∧
    (s.turnMarks k).skein.directPrev = s.skein.directPrev :=
  ⟨(congrArg SkeinSt.direct (s.turnMarks_portless k) :), (congrArg SkeinSt.directPrev (s.turnMarks_portless k) :)⟩

/-! What else happens at a boundary (R133, R257, R323). -/

/-- The tasks but for the snapshots of receive buffers. -/
def TasksSt.snapless (x : TasksSt) : TasksSt := { x with millSnap := [], millTaken := [] }

theorem TasksSt.of_snapless {x y : TasksSt} (h : x.snapless = y.snapless) : x.task = y.task ∧ x.keyNext = y.keyNext ∧
    x.flushing = y.flushing ∧ x.flushWanted = y.flushWanted :=
  ⟨(congrArg TasksSt.task h :), (congrArg TasksSt.keyNext h :), (congrArg TasksSt.flushing h :),
    (congrArg TasksSt.flushWanted h :)⟩

theorem State.makeSnap_snapless (s : State) (k i : Nat) : (s.makeSnap k i).tasks.snapless = s.tasks.snapless := by
  unfold State.makeSnap
  simp only
  split
  · rfl
  · split_ifs
    · rfl
    · rw [(State.sendPly_keeps _ _ _ _).parts .tasks (by decide)]
      rfl
    · rfl

theorem State.sendSnaps_snapless (s : State) (k : Nat) : (s.sendSnaps k).tasks.snapless = s.tasks.snapless := by
  unfold State.sendSnaps
  split
  · rfl
  · exact List.foldlRecOn _ _ (motive := fun u : State => u.tasks.snapless = s.tasks.snapless) rfl fun u hu i _ =>
      (u.makeSnap_snapless k i).trans hu

/-- The receive buffers of boundary k and their snapshots. -/
def State.boundarySnaps (s : State) (k : Nat) : State := s.millBoundary.sendSnaps k

/-- The doorbell read of boundary k, and the automatic switch of the followed domain. -/
def State.bellAndSwitch (s : State) (k : Nat) : State := (s.doorbellStart k).autoSwitch

theorem State.boundarySnaps_keeps (s : State) (k : Nat) : Keeps [.tasks, .ply, .mill] s (s.boundarySnaps k) :=
  (Keeps.next' s.millBoundary_keeps (by decide)).next (State.sendSnaps_keeps _ _) (by decide)

theorem State.boundarySnaps_in (s : State) (k : Nat) : RegsIn [] s (s.boundarySnaps k) :=
  s.millBoundary_in.next (State.sendSnaps_in _ _) (by simp)

theorem State.boundarySnaps_snapless (s : State) (k : Nat) : (s.boundarySnaps k).tasks.snapless = s.tasks.snapless :=
  (State.sendSnaps_snapless _ k).trans (congrArg TasksSt.snapless (s.millBoundary_keeps.parts .tasks (by decide)))

theorem State.bellAndSwitch_keeps (s : State) (k : Nat) : Keeps [.host, .time, .ply] s (s.bellAndSwitch k) :=
  (Keeps.next' (s.doorbellStart_keeps k) (by decide)).next (State.autoSwitch_keeps _) (by decide)

theorem State.bellAndSwitch_in (s : State) (k : Nat) : RegsIn [.events] s (s.bellAndSwitch k) :=
  (s.doorbellStart_in k).next (State.autoSwitch_in _) (by simp)

/-! The boundary (R27). -/

/-- A flush that is asked for, where none runs, starts, and is asked for no more (R111, R164). -/
theorem State.extraFlush_flushWanted {s : State} (none : s.tasks.flushing = none) (wanted : s.tasks.flushWanted = true) :
    s.extraFlush.tasks.flushWanted = false := by
  simp [State.extraFlush, none, wanted]

theorem State.startFlush_task (s : State) : s.startFlush.tasks.task = s.tasks.task := by
  unfold State.startFlush
  split <;> rfl

theorem State.extraFlush_task (s : State) : s.extraFlush.tasks.task = s.tasks.task := by
  unfold State.extraFlush
  split
  · rfl
  · exact s.startFlush_task

/-- What follows the marks at boundary k. -/
def State.afterMarks (s : State) (k : Nat) : State := (s.boundarySnaps k).extraFlush.bellAndSwitch k

theorem State.afterMarks_keeps (s : State) (k : Nat) :
    Keeps [.tasks, .ply, .mill, .retained, .host, .time] s (s.afterMarks k) :=
  ((Keeps.next' (s.boundarySnaps_keeps k) (by decide)).next (State.extraFlush_keeps _) (by decide)).next
    (State.bellAndSwitch_keeps _ _) (by decide)

theorem State.afterMarks_tasks (s : State) (k : Nat) : (s.afterMarks k).tasks = (s.boundarySnaps k).extraFlush.tasks :=
  (State.bellAndSwitch_keeps _ _).parts .tasks (by decide)

theorem State.afterMarks_task (s : State) (k : Nat) : (s.afterMarks k).tasks.task = s.tasks.task := by
  rw [s.afterMarks_tasks, State.extraFlush_task]
  obtain ⟨task, -, -, -⟩ := TasksSt.of_snapless (s.boundarySnaps_snapless k)
  exact task

theorem State.afterMarks_flushWanted {s : State} (k : Nat) (none : s.tasks.flushing = none)
    (wanted : s.tasks.flushWanted = true) : (s.afterMarks k).tasks.flushWanted = false := by
  obtain ⟨-, -, flushing, flushWanted⟩ := TasksSt.of_snapless (s.boundarySnaps_snapless k)
  rw [s.afterMarks_tasks]
  exact State.extraFlush_flushWanted (flushing.trans none) (flushWanted.trans wanted)

/-- The turn number has risen, and what has come for the turn that ended is forgotten. -/
def State.turnBegun (s : State) : State :=
  { s with
    turn := { s.turn with k := s.turn.k + 1 }
    image := { s.image with got := [], gotRing := [] }
    skein := { s.skein with directPrev := s.skein.direct, direct := [] } }

/-- The new turn with its marks sent and those of the turn that ended counted. -/
def State.turnMarked (s : State) : State := s.turnBegun.turnMarks (s.turn.k + 1)

theorem execTurnBoundary_of_running {s : State} (h : s.rd F.TURN_STATUS_running = 1) :
    execTurnBoundary s = ok (s.turnMarked.afterMarks (s.turn.k + 1)) :=
  if_neg (by simp [State.on, h])

theorem State.turnMarked_keeps (s : State) : Keeps [.skein] s.turnBegun s.turnMarked := State.turnMarks_keeps _ _

theorem State.turnMarked_direct (s : State) : s.turnMarked.skein.direct = [] ∧ s.turnMarked.skein.directPrev = s.skein.direct :=
  s.turnBegun.turnMarks_direct _

theorem State.turnMarked_sent (s : State) (p : Fin 16) (up : s.rd (F.SK_STATUS_link p.val) = 2) :
    MarkSent s.turnMarked (s.turn.k + 1) p.val :=
  s.turnBegun.turnMarks_sent _ p up

theorem State.turnMarked_marks {s : State} {p : Fin 16} (hears : s.skHears p.val = true) :
    (s.turnMarked.port p.val).marks = nextMarks (s.port p.val).marks :=
  State.turnMarks_marks (s := s.turnBegun) _ hears

theorem turnBoundaryCounts : TurnBoundaryCounts := by
  intro s running
  have run := execTurnBoundary_of_running running
  have tail := s.turnMarked.afterMarks_keeps (s.turn.k + 1)
  have all := (Keeps.next' (A := [.skein, .tasks, .ply, .mill, .retained, .host, .time]) s.turnMarked_keeps (by decide)).next
    tail (by decide)
  have skein := tail.parts .skein (by decide)
  have begun := s.turnMarked_keeps.parts .tasks (by decide)
  refine ⟨_, run, all.parts .turn (by decide), (execTurnBoundary_in s).of_next run, all.parts .loops (by decide),
    all.parts .mem (by decide), (State.afterMarks_task _ _).trans (congrArg TasksSt.task begun), all.parts .image (by decide),
    (congrArg SkeinSt.direct skein).trans s.turnMarked_direct.1,
    (congrArg SkeinSt.directPrev skein).trans s.turnMarked_direct.2,
    fun p up => (s.turnMarked_sent p up).mono tail.sent, fun p up on => ?_, fun none wanted => ?_⟩
  · have hears : s.skHears p.val = true := by simp [State.skHears, on, State.skUp_iff.2 up]
    have same : (s.turnMarked.afterMarks (s.turn.k + 1)).port p.val = s.turnMarked.port p.val :=
      congrArg (fun x : SkeinSt => SMap.getD x.ports p.val SkeinPort.idle) skein
    have counted := State.turnMarked_marks hears
    rw [same]
    cases seen : (s.port p.val).markSeen <;> simpa [SkeinPort.marks, nextMarks, seen] using counted
  · exact State.afterMarks_flushWanted _ ((congrArg TasksSt.flushing begun).trans none)
      ((congrArg TasksSt.flushWanted begun).trans wanted)

/-! The start of the turn engine (R28). -/

/-- The registers of the turn's origin show its time word and k_origin (R6, R47). -/
theorem State.originRegs_origin (s : State) {i : Nat} (hi : i < 4) :
    s.originRegs.rd (F.TURN_ORIGIN_origin i) = timeWord 2 s.turn.origin / 2 ^ (32 * i) % 2 ^ 32 := by
  unfold State.originRegs
  simp only
  rw [State.rd_wr_ne, State.rd_wr_ne]
  · refine rd_foldl_of_mem s (mem_upTo.2 hi) (fun u => ?_) (fun u b hb => State.rd_wr_ne _ _ _ _ ?_)
    · rw [State.rd_wr_same, Nat.shiftRight_eq_div_pow]
      exact Nat.mod_mod _ _
    · simp only [Fld.key, F.TURN_ORIGIN_origin]
      omega
  all_goals
    simp only [Fld.key, F.TURN_ORIGIN_origin, F.ORIGIN_TURN_LO_k_origin, F.ORIGIN_TURN_HI_k_origin]
    omega

theorem State.originRegs_kOrigin {s : State} (h : s.turn.kOrigin = 0) :
    s.originRegs.rd F.ORIGIN_TURN_LO_k_origin = 0 ∧ s.originRegs.rd F.ORIGIN_TURN_HI_k_origin = 0 := by
  have kept (v : Nat → Nat) : ((upTo 4).foldl (fun u i => u.wr (F.TURN_ORIGIN_origin i) (v i)) s).turn = s.turn :=
    List.foldlRecOn _ _ (motive := fun u : State => u.turn = s.turn) rfl (fun _ hu _ _ => hu)
  unfold State.originRegs
  simp only [kept, h]
  refine ⟨?_, ?_⟩
  · rw [State.rd_wr_ne _ _ _ _ (by decide), State.rd_wr_same]
    rfl
  · rw [State.rd_wr_same]
    rfl

theorem State.originRegs_running (s : State) : s.originRegs.rd F.TURN_STATUS_running = s.rd F.TURN_STATUS_running := by
  unfold State.originRegs
  simp only
  rw [State.rd_wr_ne _ _ _ _ (by decide), State.rd_wr_ne _ _ _ _ (by decide)]
  refine rd_foldl s (fun u b _ => State.rd_wr_ne _ _ _ _ ?_)
  simp only [Fld.key, F.TURN_ORIGIN_origin, F.TURN_STATUS_running]
  omega

/-- The turn engine runs at turn 0 from the working second begun, and a key position taken before has its boundary. -/
def State.engineStarted (s : State) : State :=
  { (s.wr F.TURN_STATUS_running 1).wr F.TURN_STATUS_adopted 0 with
    turn := { TurnSt.idle with origin := s.workSec * unitSec }
    tasks := { s.tasks with startAt := 16, keyNext := s.keyFromStart } }

theorem State.engineStarted_rd (s : State) (f : Fld) :
    s.engineStarted.rd f = ((s.wr F.TURN_STATUS_running 1).wr F.TURN_STATUS_adopted 0).rd f := rfl

/-- The engine's start with its origin shown and the marks of turn 0 sent. -/
def State.startMarked (s : State) : State := s.engineStarted.originRegs.sendMarks 0

theorem execTurnEngineStart_of_free {s : State} (idle : s.rd F.TURN_STATUS_running ≠ 1) (set : s.time.workSet = true)
    (lone : ¬(s.rd F.PLY_STATUS_link = 2 ∧ s.rd F.PLY_STATUS_partner_state ∈ [1, 2])) :
    execTurnEngineStart s = ok ((s.startMarked.boundarySnaps 0).bellAndSwitch 0) := by
  refine if_neg ?_
  simpa [State.on, idle, set, State.plyUp] using lone

theorem State.startMarked_rd (s : State) {f : Fld} (hl : f.lo < 32) : s.startMarked.rd f = s.engineStarted.originRegs.rd f :=
  State.sendMarks_in _ 0 f hl (by simp)

theorem State.startMarked_keeps (s : State) : Keeps [.skein] s.engineStarted s.startMarked :=
  (Keeps.next' (State.originRegs_keeps _) (by simp)).next (State.sendMarks_keeps _ _) (by simp)

theorem State.startMarked_sent (s : State) (p : Fin 16) (up : s.rd (F.SK_STATUS_link p.val) = 2) :
    MarkSent s.startMarked 0 p.val := by
  refine State.sendMarks_sent _ 0 p ?_
  have outside : s.engineStarted.originRegs.rd (F.SK_STATUS_link p.val) = s.engineStarted.rd (F.SK_STATUS_link p.val) :=
    (State.originRegs_in _).rd_eq (b := .skein) (by simp only [Fld.In, F.SK_STATUS_link, Bank.range]; omega) (by decide)
  rw [outside, State.engineStarted_rd, State.rd_wr_ne, State.rd_wr_ne, up]
  all_goals
    simp only [Fld.key, F.SK_STATUS_link, F.TURN_STATUS_running, F.TURN_STATUS_adopted]
    omega

/-- The state after the start of the engine. -/
def State.startDone (s : State) : State := (s.startMarked.boundarySnaps 0).bellAndSwitch 0

theorem State.startDone_in (s : State) : RegsIn [.events] s.startMarked s.startDone :=
  ((s.startMarked.boundarySnaps_in 0).mono (by simp)).trans (State.bellAndSwitch_in _ 0)

theorem State.startDone_keeps (s : State) : Keeps [.tasks, .ply, .mill, .host, .time] s.startMarked s.startDone :=
  (Keeps.next' (s.startMarked.boundarySnaps_keeps 0) (by decide)).next (State.bellAndSwitch_keeps _ 0) (by decide)

theorem State.startDone_rd (s : State) {f : Fld} (hf : f.In .turn) : s.startDone.rd f = s.engineStarted.originRegs.rd f :=
  (s.startDone_in.rd_eq hf (by decide)).trans (s.startMarked_rd hf.1)

theorem State.startDone_turn (s : State) : s.startDone.turn = s.engineStarted.turn := by
  have tail : s.startDone.turn = s.startMarked.turn := s.startDone_keeps.parts .turn (by decide)
  have marked : s.startMarked.turn = s.engineStarted.turn := s.startMarked_keeps.parts .turn (by decide)
  rw [tail, marked]

theorem State.startDone_keyNext (s : State) : s.startDone.tasks.keyNext = s.keyFromStart := by
  have tail : s.startDone.tasks = (s.startMarked.boundarySnaps 0).tasks :=
    (State.bellAndSwitch_keeps _ 0).parts .tasks (by decide)
  have marked : s.startMarked.tasks = s.engineStarted.tasks := s.startMarked_keeps.parts .tasks (by decide)
  obtain ⟨-, keyNext, -, -⟩ := TasksSt.of_snapless (s.startMarked.boundarySnaps_snapless 0)
  rw [tail, keyNext, marked]
  rfl

/-- The working second begun, in units. -/
theorem State.workSec_unitSec (s : State) : s.workSec * unitSec = s.time.work / 10 ^ 9 / 2 ^ 32 * (10 ^ 9 * 2 ^ 32) := by
  have unit : unitSec = 10 ^ 9 * 2 ^ 32 := by norm_num [unitSec]
  rw [State.workSec, unit, Nat.div_div_eq_div_mul]

theorem turnEngineStarts : TurnEngineStarts := by
  intro s idle set lone
  have run : execTurnEngineStart s = .next s.startDone := execTurnEngineStart_of_free idle set lone
  have frame := (execTurnEngineStart_keeps s).of_next run
  have turn := s.startDone_turn
  obtain ⟨low, high⟩ := State.originRegs_kOrigin (s := s.engineStarted) rfl
  refine ⟨s.startDone, run, ?_, congrArg TurnSt.k turn, congrArg TurnSt.kOrigin turn,
    (congrArg TurnSt.origin turn).trans s.workSec_unitSec, fun i => ?_, (s.startDone_rd (by decide)).trans low,
    (s.startDone_rd (by decide)).trans high, ((execTurnEngineStart_in s).of_next run).mono (by decide),
    fun p up => (s.startMarked_sent p up).mono s.startDone_keeps.sent, s.startDone_keyNext, frame.parts .image (by decide),
    frame.parts .loops (by decide), frame.parts .hop (by decide), frame.parts .mem (by decide)⟩
  · rw [s.startDone_rd (by decide), State.originRegs_running, State.engineStarted_rd, State.rd_wr_ne _ _ _ _ (by decide),
      State.rd_wr_same]
    rfl
  · rw [s.startDone_rd (by simp only [Fld.In, F.TURN_ORIGIN_origin, Bank.range]; omega), State.originRegs_origin _ i.isLt, turn]

/-- Settles O9: the start by the marks of turn 0 and the origin's registers, the boundary by the marks of the turn begun
and the counts of the turn that ended. -/
theorem turnEngineRuns : Obligations.TurnEngineRuns := ⟨turnEngineStarts, turnBoundaryCounts⟩

end Sys2Proof.Machine

/-! PROOFS. The image: what a write of a slot, a sample taken and a policy leave in it. -/

namespace Sys2Proof.Machine

/-! Slots of the image. -/

theorem State.cell_of_image {s t : State} (h : t.image = s.image) (n : Nat) : t.cell n = s.cell n :=
  congrArg (fun x : ImageSt => SMap.getD x.slots n SlotCell.coldCell) h

/-- A slot written after b_c changes of the image its own cell alone. -/
theorem State.setCell_image (s : State) (n : Nat) (c : SlotCell) :
    (s.setCell n c).image = { s.image with slots := SMap.set s.image.slots n SlotCell.coldCell c } := by
  have saved : (s.saveSlot n).image = s.image := (s.saveSlot_keeps n).parts .image (by decide)
  rw [State.setCell, State.putCell, saved]

@[simp] theorem State.cell_setCell_same (s : State) (n : Nat) (c : SlotCell) : (s.setCell n c).cell n = c := by
  rw [State.cell, State.setCell_image]
  exact SMap.getD_set_same _ _ _ _

theorem State.cell_setCell_ne (s : State) {n m : Nat} (c : SlotCell) (h : n ≠ m) : (s.setCell n c).cell m = s.cell m := by
  rw [State.cell, State.setCell_image]
  simp only [State.cell, SMap.getD, SMap.find_set_ne _ _ _ h]

/-- A change of writer bars older samples, and leaves the rest of the image. -/
theorem State.barKey_image (s : State) (key sample : Nat) :
    (s.barKey key sample).image = { s.image with barred := (s.barKey key sample).image.barred } := by
  unfold State.barKey
  split
  · split <;> rfl
  · rfl

/-! A sample taken (R53, R57). -/

/-- The entry that a sample of a source gives its slot. -/
def inputCell (v : Sample) (quality : Nat) (clamped aged err : Bool) : SlotCell :=
  ⟨⟨v, mkTag quality false clamped aged err⟩, 0⟩

theorem State.takeInput_image (s : State) (n : Nat) (v : Sample) (quality : Nat) (clamped aged err : Bool) :
    (s.takeInput n v quality clamped aged err).image = { s.image with
      slots := SMap.set s.image.slots n SlotCell.coldCell (inputCell v quality clamped aged err)
      barred := (s.barKey n s.nowTurn).image.barred
      loss := SMap.del s.image.loss n } := by
  unfold State.takeInput
  simp only
  rw [State.setCell_image, State.barKey_image]
  rfl

@[simp] theorem State.cell_takeInput_same (s : State) (n : Nat) (v : Sample) (quality : Nat) (clamped aged err : Bool) :
    (s.takeInput n v quality clamped aged err).cell n = inputCell v quality clamped aged err := by
  rw [State.cell, State.takeInput_image]
  exact SMap.getD_set_same _ _ _ _

theorem State.cell_takeInput_ne (s : State) {n m : Nat} (v : Sample) (quality : Nat) (clamped aged err : Bool) (h : n ≠ m) :
    (s.takeInput n v quality clamped aged err).cell m = s.cell m := by
  rw [State.cell, State.takeInput_image]
  simp only [State.cell, SMap.getD, SMap.find_set_ne _ _ _ h]

@[simp] theorem State.loss_takeInput_same (s : State) (n : Nat) (v : Sample) (quality : Nat) (clamped aged err : Bool) :
    SMap.find (s.takeInput n v quality clamped aged err).image.loss n = none := by
  rw [State.takeInput_image]
  exact SMap.find_del_same _ _

theorem State.loss_takeInput_ne (s : State) {n m : Nat} (v : Sample) (quality : Nat) (clamped aged err : Bool) (h : n ≠ m) :
    SMap.find (s.takeInput n v quality clamped aged err).image.loss m = SMap.find s.image.loss m := by
  rw [State.takeInput_image]
  exact SMap.find_del_ne _ h

theorem State.takeInput_got (s : State) (n : Nat) (v : Sample) (quality : Nat) (clamped aged err : Bool) :
    (s.takeInput n v quality clamped aged err).image.got = s.image.got := by
  rw [State.takeInput_image]

/-! The slots of a station (R53, R80). -/

/-- A change that keeps the active settings. -/
theorem State.act_of_hop {s t : State} (h : t.hop = s.hop) (f : Fld) : t.act f = s.act f :=
  congrArg (fun x : HopperSt => RegMap.get x.active f) h

theorem State.slotsOf_of_hop {s t : State} (h : t.hop = s.hop) (kind n : Nat) : t.slotsOf kind n = s.slotsOf kind n := by
  simp only [State.slotsOf, State.slotList, State.slotKind, State.act_of_hop h, h]

theorem State.mem_slotsOf {s : State} {kind n x : Nat} :
    x ∈ s.slotsOf kind n ↔ x ∈ s.slotList ∧ s.slotKind x = kind ∧ s.act (F.SLOT_POL_SRC_peer x) = n := by
  simp [State.slotsOf]

/-- One slot of a station takes its sample of a frame, where the station sends one of its index. -/
def State.storeSlot (s : State) (f : SkFrame) (count : Nat) (x : Nat) : State :=
  if s.act (F.SLOT_POL_SRC_index x) < count then
    s.takeInput x (unpackSample f.payload (s.act (F.SLOT_POL_SRC_index x))) 0 false false (bitOf f.flags 2)
  else s

theorem State.storeInput_eq (s : State) (n : Nat) (f : SkFrame) : s.storeInput n f =
    (s.slotsOf 1 n).foldl (fun u x => u.storeSlot f (s.act (F.STATION_MAP_0_in_samples n)) x) s := rfl

theorem State.storeSlot_keeps (s : State) (f : SkFrame) (count x : Nat) : Keeps [.image, .ply] s (s.storeSlot f count x) := by
  unfold State.storeSlot
  split
  · exact State.takeInput_keeps _ _ _ _ _ _ _
  · exact .rfl

theorem State.storeSlot_cell_ne (s : State) (f : SkFrame) (count : Nat) {x y : Nat} (h : x ≠ y) :
    (s.storeSlot f count x).cell y = s.cell y := by
  unfold State.storeSlot
  split
  · exact State.cell_takeInput_ne _ _ _ _ _ _ h
  · rfl

/-- A slot that has taken its sample of a frame: the sample, GOOD, new, and no loss. -/
structure HasSample (t : State) (x : Nat) (v : Sample) : Prop where
  value : (t.cell x).entry.value = v
  tag : (t.cell x).entry.tag.toNat % 32 = 0
  age : (t.cell x).age = 0
  loss : SMap.find t.image.loss x = none

theorem State.storeSlot_hasSample {s : State} (f : SkFrame) {count x : Nat}
    (h : s.act (F.SLOT_POL_SRC_index x) < count) :
    HasSample (s.storeSlot f count x) x (unpackSample f.payload (s.act (F.SLOT_POL_SRC_index x))) := by
  rw [State.storeSlot, if_pos h]
  refine ⟨?_, ?_, ?_, by simp⟩ <;> rw [State.cell_takeInput_same]
  · rfl
  · show (mkTag 0 false false false (bitOf f.flags 2)).toNat % 32 = 0
    cases bitOf f.flags 2 <;> decide
  · rfl

theorem HasSample.storeSlot_ne {s : State} {x y : Nat} {v : Sample} (h : HasSample s x v) (f : SkFrame) (count : Nat)
    (ne : y ≠ x) : HasSample (s.storeSlot f count y) x v := by
  have cell := s.storeSlot_cell_ne f count ne
  refine ⟨cell ▸ h.value, cell ▸ h.tag, cell ▸ h.age, ?_⟩
  unfold State.storeSlot
  split
  · exact (State.loss_takeInput_ne _ _ _ _ _ _ ne).trans h.loss
  · exact h.loss

/-- Each slot of the station with a sample in the frame takes it (R53). -/
theorem State.storeInput_hasSample (s : State) (n : Nat) (f : SkFrame) {x : Nat} (hx : x ∈ s.slotsOf 1 n)
    (h : s.act (F.SLOT_POL_SRC_index x) < s.act (F.STATION_MAP_0_in_samples n)) :
    HasSample (s.storeInput n f) x (unpackSample f.payload (s.act (F.SLOT_POL_SRC_index x))) := by
  rw [State.storeInput_eq]
  have est (u : State) (hu : u.hop = s.hop) : HasSample (u.storeSlot f (s.act (F.STATION_MAP_0_in_samples n)) x) x
      (unpackSample f.payload (s.act (F.SLOT_POL_SRC_index x))) := by
    have taken := State.storeSlot_hasSample (s := u) f (x := x) (count := s.act (F.STATION_MAP_0_in_samples n))
    rw [State.act_of_hop hu] at taken
    exact taken h
  refine foldl_reaches (I := fun u : State => u.hop = s.hop) (P := fun u => HasSample u x _) hx rfl
    (fun u hu y _ => Eq.trans ((u.storeSlot_keeps f _ y).parts .hop (by decide)) hu) est (fun u hu taken y _ => ?_)
  by_cases ne : y = x
  · exact ne ▸ est u hu
  · exact taken.storeSlot_ne f _ ne

/-- A slot of no other station changes. -/
theorem State.storeInput_cell_of_not_mem (s : State) (n : Nat) (f : SkFrame) {x : Nat} (hx : x ∉ s.slotsOf 1 n) :
    (s.storeInput n f).cell x = s.cell x := by
  rw [State.storeInput_eq]
  exact List.foldlRecOn _ _ (motive := fun u : State => u.cell x = s.cell x) rfl fun u hu y hy =>
    (u.storeSlot_cell_ne f _ (fun e : y = x => hx (e ▸ hy))).trans hu

theorem State.storeInput_got (s : State) (n : Nat) (f : SkFrame) : (s.storeInput n f).image.got = s.image.got := by
  rw [State.storeInput_eq]
  refine List.foldlRecOn _ _ (motive := fun u : State => u.image.got = s.image.got) rfl fun u hu y _ => ?_
  unfold State.storeSlot
  split
  · exact (State.takeInput_got _ _ _ _ _ _ _).trans hu
  · exact hu

end Sys2Proof.Machine

/-! PROOFS. INPUT frames: which of them count, what one that counts does, and what becomes of the others. -/

namespace Sys2Proof.Machine

/-! The registers of a Skein port (R96, R102). -/

/-- An event of a port writes of the Skein bank its event register alone. -/
theorem State.skEvt_rd_skein (s : State) {p : Nat} (i : Nat) (hp : p < 16) {f : Fld} (hf : f.In .skein) : (s.skEvt p i).rd f =
    (s.wr (F.SK_EVT_STATUS_evt p) (s.rd (F.SK_EVT_STATUS_evt p) ||| 1 <<< i)).rd f := by
  unfold State.skEvt State.setEvt
  simp only
  split
  · rfl
  · exact (State.raiseSource_in _ _ _ _ (by omega)).rd_eq hf (by decide)

/-- An event bit set is seen. -/
theorem State.skEvt_bit (s : State) {p i : Nat} (hp : p < 16) (hi : i < 10) :
    bitOf ((s.skEvt p i).rd (F.SK_EVT_STATUS_evt p)) i = true := by
  have set : ((s.rd (F.SK_EVT_STATUS_evt p) ||| 1 <<< i) % 2 ^ (F.SK_EVT_STATUS_evt p).width).testBit i = true := by
    rw [Nat.testBit_mod_two_pow, Nat.testBit_or, Nat.one_shiftLeft, Nat.testBit_two_pow_self, Bool.or_true, Bool.and_true]
    exact decide_eq_true hi
  rw [s.skEvt_rd_skein i hp (by simp only [Fld.In, F.SK_EVT_STATUS_evt, Bank.range]; omega), State.rd_wr_same]
  simpa [bitOf, Nat.testBit, Nat.and_comm] using set

/-- A field of the register of position q of port p. -/
abbrev Fld.AtStation (f : Fld) (p q : Nat) : Prop := f.lo < 32 ∧ f.off = 0x10100 + 0x1000 * p + 16 * q

theorem stationFields (p q : Nat) : (F.SK_STN_STATE_state p q).AtStation p q ∧ (F.SK_STN_STATE_direct p q).AtStation p q ∧
    (F.SK_STN_STATE_safe p q).AtStation p q ∧ (F.SK_STN_STATE_missed p q).AtStation p q := by
  simp [Fld.AtStation, F.SK_STN_STATE_state, F.SK_STN_STATE_direct, F.SK_STN_STATE_safe, F.SK_STN_STATE_missed]

/-- Neither an event nor a count of a port touches a position's register. -/
theorem State.skEvt_rd_station (s : State) {p' p q : Nat} (i : Nat) (hp' : p' < 16) (hp : p < 16) (hq : q < 16) {f : Fld}
    (hf : f.AtStation p q) : (s.skEvt p' i).rd f = s.rd f := by
  obtain ⟨hl, ho⟩ := hf
  rw [s.skEvt_rd_skein i hp' (by simp only [Fld.In, Bank.range]; omega)]
  exact State.rd_wr_ne _ _ _ _ (Fld.key_ne_off (by simp [F.SK_EVT_STATUS_evt]) hl
    (by simp only [F.SK_EVT_STATUS_evt]; omega))

theorem State.skCount_rd_station (s : State) {p' j p q : Nat} (hj : j < 8) (hq : q < 16) {f : Fld} (hf : f.AtStation p q) :
    (s.skCount p' j).rd f = s.rd f := by
  obtain ⟨hl, ho⟩ := hf
  exact State.rd_add_ne _ _ _ _ (Fld.key_ne_off (by simp [F.SK_CNT_count]) hl (by simp only [F.SK_CNT_count]; omega))

/-! The steps of a frame that counts (R81, R96, R99). -/

/-- A module that starts keeps the greatest epoch heard (R279). -/
def State.epochHeard (s : State) (epoch : Nat) : State :=
  if s.plyState == 0 then { s with ply := { s.ply with heardEpoch := max s.ply.heardEpoch epoch } } else s

/-- A frame's alive counter is accepted, and a gap before it counted (R81). -/
def State.aliveTaken (s : State) (p key alive : Nat) : State :=
  let u := if aliveClass s.skein.rxAlive key s.time.ticks alive = .gap then s.skCount p 3 else s
  { u with skein := { u.skein with rxAlive := aliveAccept u.skein.rxAlive key u.time.ticks alive } }

/-- A station is received directly (R99). -/
def State.heardDirect (s : State) (p n : Nat) : State :=
  let s := s.wr (F.SK_STN_STATE_direct p (n % 16)) 1
  if s.skein.direct.contains n then s else { s with skein := { s.skein with direct := n :: s.skein.direct } }

/-- What a frame's flags say of its station is shown, and no period of it is missed (R96, R102). -/
def State.flagsShown (s : State) (p : Nat) (f : SkFrame) : State :=
  let s := s.wr (F.SK_STN_STATE_safe p (f.station % 16)) (bit (bitOf f.flags 0))
  let s := if bitOf f.flags 1 then (s.skCount p 5).skEvt p 7 else s
  s.wr (F.SK_STN_STATE_missed p (f.station % 16)) 0

/-- A frame of a station counts for the present turn (R33). -/
def State.gotInput (s : State) (n : Nat) : State := { s with image := { s.image with got := n :: s.image.got.erase n } }

/-- A frame that the partner lacks is bridged to it (R97). -/
def State.bridgeInput (s : State) (f : SkFrame) (b : Bytes) : State :=
  if s.skein.partnerLacks.contains f.station then s.sendPly 0x41 f.turn b else s

/-- A frame that counts, up to the storing of its samples. -/
def State.countInput (s : State) (p : Nat) (b : Bytes) (inOrder : Bool) : State :=
  let f := readSkein b
  ((((s.heardDirect p f.station).flagsShown p f).gotInput f.station).stnHeard f.station inOrder).bridgeInput f b

/-- The samples of a frame that has counted are stored, where its station is UP, or recorded for a replay (R53, R297). -/
def State.storeCounted (s : State) (b : Bytes) : State :=
  let f := readSkein b
  if s.stnState f.station != 3 then s
  else if s.replaying then { s with ply := { s.ply with recInputs := s.ply.recInputs ++ [(s.turn.k, f.station, b)] } }
  else s.storeInput f.station f

/-- What becomes of a frame that is in time, by its alive counter (R81). -/
def State.judgeAlive (s : State) (p : Nat) (b : Bytes) : State :=
  match s.skClass p (skKey 1 (readSkein b).station) (readSkein b).alive with
  | (u, .repeated) => u.heardDirect p (readSkein b).station
  | (u, cls) => (u.countInput p b (cls == .inOrder)).storeCounted b

/-- What becomes of a whole frame from a present station of its port, by its turn (R33). -/
def State.judgeTurn (s : State) (p : Nat) (b : Bytes) : State :=
  if !s.on F.TURN_STATUS_running || decide (s.turn.k < (readSkein b).turn) then s
  else if decide ((readSkein b).turn < s.turn.k) || s.cutPassed then (s.skCount p 2).skEvt p 6
  else s.judgeAlive p b

/-- A whole INPUT frame of a present station is judged by its turn. -/
theorem State.takeInputFrame_of_whole {s : State} {p : Nat} {b : Bytes} (good : sealOk b = true ∧ 36 ≤ b.length)
    (type : (readSkein b).type = 1) (port : (readSkein b).station / 16 = p) (present : s.present (readSkein b).station = true)
    (whole : skeinWhole b (payBytes (s.act (F.STATION_MAP_0_in_samples (readSkein b).station))) = true) :
    s.takeInputFrame p false b = (s.epochHeard (readSkein b).epoch).judgeTurn p b := by
  have sealed : ¬(!sealOk b || decide (b.length < 36)) = true := by simp [good.1, good.2]
  have kind : ¬((readSkein b).type != 1) = true := by simp [type]
  have place : ¬((readSkein b).station / 16 != p || !s.present (readSkein b).station ||
    !skeinWhole b (payBytes (s.act (F.STATION_MAP_0_in_samples (readSkein b).station)))) = true := by simp [port, present, whole]
  rw [State.takeInputFrame, if_neg sealed]
  simp only [Bool.false_and, Bool.false_eq_true, ↓reduceIte, Bool.not_false, Bool.and_true, Bool.true_and]
  rw [if_neg kind, if_neg place]
  rfl

theorem State.skClass_of_fresh {s : State} {key alive : Nat} (p : Nat)
    (h : aliveClass s.skein.rxAlive key s.time.ticks alive ≠ .repeated) :
    s.skClass p key alive = (s.aliveTaken p key alive, aliveClass s.skein.rxAlive key s.time.ticks alive) := by
  unfold State.skClass State.aliveTaken
  cases cls : aliveClass s.skein.rxAlive key s.time.ticks alive with
  | repeated => exact absurd cls h
  | inOrder | gap => rfl

theorem State.skClass_of_repeated {s : State} {key alive : Nat} (p : Nat)
    (h : aliveClass s.skein.rxAlive key s.time.ticks alive = .repeated) :
    s.skClass p key alive = (s.skCount p 4, .repeated) := by
  simp [State.skClass, h]

/-- An epoch heard changes the ply's state alone. -/
theorem State.epochHeard_eq (s : State) (e : Nat) : ∃ y, s.epochHeard e = { s with ply := y } := by
  unfold State.epochHeard
  split
  · exact ⟨_, rfl⟩
  · exact ⟨s.ply, rfl⟩

theorem InputNow.run {s : State} {p : Fin 16} {frame : Bytes} (h : InputNow s p frame) : execInputFrameReceived p frame s =
    ok (let u := s.epochHeard (readSkein frame).epoch
        if u.cutPassed then (u.skCount p.val 2).skEvt p.val 6 else u.judgeAlive p.val frame) := by
  have hears : s.skHears p.val = true := by simp [State.skHears, h.hears, State.skUp_iff.2 h.up]
  have present : s.present (readSkein frame).station = true := by simp [State.present, State.aon, h.present]
  rw [execInputFrameReceived, if_neg (by simp [hears]), State.takeInputFrame_of_whole h.sealed h.type h.port present h.whole]
  obtain ⟨y, heard⟩ := s.epochHeard_eq (readSkein frame).epoch
  have running : (s.epochHeard (readSkein frame).epoch).on F.TURN_STATUS_running = true := by
    rw [heard]
    exact beq_iff_eq.2 h.running
  have now : (s.epochHeard (readSkein frame).epoch).turn.k = (readSkein frame).turn := by
    rw [heard]
    exact h.now.symm
  rw [State.judgeTurn, if_neg (by simp [running, now])]
  simp [now]

/-! What a frame that counts leaves (R33, R81, R99). -/

/-- Station n of port p is received directly, misses no period and has counted for the turn. -/
structure Heard (t : State) (p n : Nat) : Prop where
  direct : t.rd (F.SK_STN_STATE_direct p (n % 16)) = 1
  missed : t.rd (F.SK_STN_STATE_missed p (n % 16)) = 0
  listed : n ∈ t.skein.direct
  got : n ∈ t.image.got

/-- What touches neither the register of a position, but its state, nor the lists keeps what was heard. -/
theorem Heard.of_same {s t : State} {p n : Nat} (h : Heard s p n)
    (regs : ∀ f, f.AtStation p (n % 16) → (F.SK_STN_STATE_state p (n % 16)).key ≠ f.key → t.rd f = s.rd f)
    (listed : t.skein.direct = s.skein.direct) (got : t.image.got = s.image.got) : Heard t p n := by
  obtain ⟨-, direct, -, missed⟩ := stationFields p (n % 16)
  exact ⟨(regs _ direct (by simp [Fld.key, F.SK_STN_STATE_direct, F.SK_STN_STATE_state])).trans h.direct,
    (regs _ missed (by simp [Fld.key, F.SK_STN_STATE_missed, F.SK_STN_STATE_state])).trans h.missed,
    listed ▸ h.listed, got ▸ h.got⟩

theorem State.heardDirect_direct (s : State) (p n : Nat) :
    (s.heardDirect p n).rd (F.SK_STN_STATE_direct p (n % 16)) = 1 ∧ n ∈ (s.heardDirect p n).skein.direct := by
  have written : (s.wr (F.SK_STN_STATE_direct p (n % 16)) 1).rd (F.SK_STN_STATE_direct p (n % 16)) = 1 :=
    State.rd_wr_same _ _ _
  unfold State.heardDirect
  simp only
  split
  next listed => exact ⟨written, by simpa using listed⟩
  next => exact ⟨written, List.mem_cons_self⟩

theorem State.heardDirect_image (s : State) (p n : Nat) : (s.heardDirect p n).image = s.image := by
  unfold State.heardDirect
  simp only
  split <;> rfl

theorem State.heardDirect_rd_ne (s : State) (p n : Nat) {f : Fld} (h : (F.SK_STN_STATE_direct p (n % 16)).key ≠ f.key) :
    (s.heardDirect p n).rd f = s.rd f := by
  have written := State.rd_wr_ne s _ f 1 h
  unfold State.heardDirect
  simp only
  split <;> exact written

theorem State.flagsShown_missed (s : State) (p : Nat) (f : SkFrame) :
    (s.flagsShown p f).rd (F.SK_STN_STATE_missed p (f.station % 16)) = 0 := State.rd_wr_same _ _ _

/-- What a frame's flags show of a position is told in its fields safe and missed. -/
theorem State.flagsShown_rd_ne (s : State) {p : Nat} (hp : p < 16) (f : SkFrame) {g : Fld} (hg : g.AtStation p (f.station % 16))
    (safe : (F.SK_STN_STATE_safe p (f.station % 16)).key ≠ g.key)
    (missed : (F.SK_STN_STATE_missed p (f.station % 16)).key ≠ g.key) : (s.flagsShown p f).rd g = s.rd g := by
  have position : f.station % 16 < 16 := Nat.mod_lt _ (by decide)
  unfold State.flagsShown
  simp only
  rw [State.rd_wr_ne _ _ _ _ missed]
  split
  · rw [State.skEvt_rd_station _ 7 hp hp position hg, State.skCount_rd_station _ (by decide) position hg,
      State.rd_wr_ne _ _ _ _ safe]
  · exact State.rd_wr_ne _ _ _ _ safe

theorem State.flagsShown_keeps (s : State) (p : Nat) (f : SkFrame) : Keeps [.host, .recorder] s (s.flagsShown p f) := by
  unfold State.flagsShown
  simp only
  have safe := s.wr_keeps (F.SK_STN_STATE_safe p (f.station % 16)) (bit (bitOf f.flags 0))
  refine .next (.next (.next' safe (by decide)) (B := [.host, .recorder]) ?_ (by decide)) (State.wr_keeps _ _ _) (by decide)
  exact .ite (.next (.next' (State.skCount_keeps _ _ _) (by decide)) (State.skEvt_keeps _ _ _) (by decide)) .rfl

/-- A position's state written, of the register of a position its state alone. -/
theorem State.setStn_rd_ne (s : State) (n state : Nat) (evt : Option Nat) {p q : Nat} (hn : n / 16 < 16) (hp : p < 16)
    (hq : q < 16) {g : Fld} (hg : g.AtStation p q) (ne : (F.SK_STN_STATE_state (n / 16) (n % 16)).key ≠ g.key) :
    (s.setStn n state evt).rd g = s.rd g := by
  unfold State.setStn
  cases evt with
  | none => exact State.rd_wr_ne _ _ _ _ ne
  | some i => exact (State.skEvt_rd_station _ i hn hp hq hg).trans (State.rd_wr_ne _ _ _ _ ne)

theorem State.stnHeard_rd_ne (s : State) (n : Nat) (inOrder : Bool) {p q : Nat} (hn : n / 16 < 16) (hp : p < 16)
    (hq : q < 16) {g : Fld} (hg : g.AtStation p q) (ne : (F.SK_STN_STATE_state (n / 16) (n % 16)).key ≠ g.key) :
    (s.stnHeard n inOrder).rd g = s.rd g := by
  unfold State.stnHeard
  split
  · simp only
    generalize (if inOrder then (s.posn n).inRun + 1 else 0) = run
    split
    · exact State.setStn_rd_ne _ _ _ _ hn hp hq hg ne
    · rfl
  · exact State.setStn_rd_ne _ _ _ _ hn hp hq hg ne
  · rfl

theorem State.stnHeard_direct (s : State) (n : Nat) (inOrder : Bool) :
    (s.stnHeard n inOrder).skein.direct = s.skein.direct := by
  have moved (u : State) : (u.setStn n 3 (some 0)).skein = u.skein := (u.setStn_keeps n 3 _).parts .skein (by decide)
  unfold State.stnHeard
  split
  · simp only
    generalize (if inOrder then (s.posn n).inRun + 1 else 0) = run
    split
    · rw [moved]
      rfl
    · rfl
  · rw [moved]
  · rfl

/-- A station that neither joins nor is lost keeps its state (R96). -/
theorem State.stnHeard_of_settled {s : State} {n : Nat} (inOrder : Bool) (h : s.stnState n ∈ [0, 1, 3, 5]) :
    s.stnHeard n inOrder = s := by
  unfold State.stnHeard
  split
  next two => exact absurd (two ▸ h) (by decide)
  next four => exact absurd (four ▸ h) (by decide)
  next => rfl

theorem State.bridgeInput_keeps (s : State) (f : SkFrame) (b : Bytes) : Keeps [.ply] s (s.bridgeInput f b) := by
  unfold State.bridgeInput
  exact .ite (State.sendPly_keeps _ _ _ _) .rfl

theorem State.bridgeInput_in (s : State) (f : SkFrame) (b : Bytes) : RegsIn [] s (s.bridgeInput f b) := by
  unfold State.bridgeInput
  split
  · exact State.sendPly_in _ _ _ _
  · exact .rfl

theorem Fld.AtStation.skein {f : Fld} {p q : Nat} (h : f.AtStation p q) (hp : p < 16) (hq : q < 16) : f.In .skein := by
  obtain ⟨hl, ho⟩ := h
  simp only [Fld.In, Bank.range]
  omega

/-- A frame that counts is one heard of its station. -/
theorem State.countInput_heard (s : State) {p : Nat} (b : Bytes) (inOrder : Bool) (port : (readSkein b).station / 16 = p)
    (hp : p < 16) : Heard (s.countInput p b inOrder) p (readSkein b).station := by
  have position : (readSkein b).station % 16 < 16 := Nat.mod_lt _ (by decide)
  obtain ⟨direct, listed⟩ := s.heardDirect_direct p (readSkein b).station
  have shown := (s.heardDirect p (readSkein b).station).flagsShown_keeps p (readSkein b)
  have skein : _ = (s.heardDirect p (readSkein b).station).skein := shown.parts .skein (by decide)
  have counted : Heard (((s.heardDirect p (readSkein b).station).flagsShown p (readSkein b)).gotInput (readSkein b).station) p
      (readSkein b).station :=
    { direct := Eq.trans (State.flagsShown_rd_ne _ hp _ (stationFields _ _).2.1
        (by simp [Fld.key, F.SK_STN_STATE_direct, F.SK_STN_STATE_safe])
        (by simp [Fld.key, F.SK_STN_STATE_direct, F.SK_STN_STATE_missed])) direct
      missed := State.flagsShown_missed _ p (readSkein b)
      listed := (congrArg SkeinSt.direct skein).symm ▸ listed
      got := List.mem_cons_self }
  have moved := counted.of_same
    (fun f hf ne => State.stnHeard_rd_ne _ (readSkein b).station inOrder (port ▸ hp) hp position hf (port ▸ ne))
    (State.stnHeard_direct _ _ _) (congrArg ImageSt.got ((State.stnHeard_keeps _ _ inOrder).parts .image (by decide)))
  exact moved.of_same
    (fun f hf _ => (State.bridgeInput_in _ (readSkein b) b).rd_eq (hf.skein hp position) (by decide))
    (congrArg SkeinSt.direct ((State.bridgeInput_keeps _ _ _).parts .skein (by decide)))
    (congrArg ImageSt.got ((State.bridgeInput_keeps _ _ _).parts .image (by decide)))

/-- Of the image a frame that counts changes, before its samples are stored, the list of those that counted alone. -/
theorem State.countInput_image (s : State) (p : Nat) (b : Bytes) (inOrder : Bool) :
    (s.countInput p b inOrder).image = (s.gotInput (readSkein b).station).image := by
  have flags : _ = (s.heardDirect p (readSkein b).station).image :=
    (State.flagsShown_keeps _ p (readSkein b)).parts .image (by decide)
  have bridged := (State.bridgeInput_keeps ((((s.heardDirect p (readSkein b).station).flagsShown p (readSkein b)).gotInput
    (readSkein b).station).stnHeard (readSkein b).station inOrder) (readSkein b) b).parts .image (by decide)
  have heard := (State.stnHeard_keeps (((s.heardDirect p (readSkein b).station).flagsShown p (readSkein b)).gotInput
    (readSkein b).station) (readSkein b).station inOrder).parts .image (by decide)
  refine Eq.trans bridged (Eq.trans heard ?_)
  rw [State.gotInput, State.gotInput, flags, State.heardDirect_image]

/-- A register of a position written changes registers of its port alone. -/
theorem RegsIn.station (s : State) {f : Fld} {p q : Nat} (v : Nat) (hf : f.AtStation p q) (hp : p < 16) (hq : q < 16) :
    RegsIn [.events, .viol, .skein] s (s.wr f v) := by
  obtain ⟨hl, low, high⟩ := hf.skein hp hq
  exact .wr f v .skein .rfl hl (by decide) low high

theorem State.heardDirect_in (s : State) {p : Nat} (n : Nat) (hp : p < 16) :
    RegsIn [.events, .viol, .skein] s (s.heardDirect p n) := by
  have written := RegsIn.station s 1 (stationFields p (n % 16)).2.1 hp (Nat.mod_lt _ (by decide))
  unfold State.heardDirect
  exact .ite (fun _ => written) (fun _ => .upd written)

theorem State.flagsShown_in (s : State) {p : Nat} (f : SkFrame) (hp : p < 16) :
    RegsIn [.events, .viol, .skein] s (s.flagsShown p f) := by
  have position : f.station % 16 < 16 := Nat.mod_lt _ (by decide)
  obtain ⟨-, -, safe, missed⟩ := stationFields p (f.station % 16)
  have counted (u : State) : RegsIn [.events, .viol, .skein] u (u.skCount p 5) :=
    .inc _ .skein .rfl (of_decide_eq_true rfl) (by decide) (by simp only [F.SK_CNT_count, Bank.range]; omega)
      (by simp only [F.SK_CNT_count, Bank.range]; omega)
  unfold State.flagsShown
  simp only
  refine .next (.next (.station s (bit (bitOf f.flags 0)) safe hp position) (B := [.events, .viol, .skein]) ?_ (by decide))
    (.station _ 0 missed hp position) (by decide)
  exact .ite (fun _ => .next (counted _) (State.skEvt_in _ _ _ hp) (by decide)) (fun _ => .rfl)

/-- The state of a position is told by the frames that move it, and no other field of its register does. -/
theorem State.countInput_of_settled {s : State} {p : Nat} {b : Bytes} (inOrder : Bool)
    (port : (readSkein b).station / 16 = p) (hp : p < 16) (settled : s.stnState (readSkein b).station ∈ [0, 1, 3, 5]) :
    RegsIn [.events, .viol, .skein] s (s.countInput p b inOrder) ∧
      (s.countInput p b inOrder).stnState (readSkein b).station = s.stnState (readSkein b).station := by
  have position : (readSkein b).station % 16 < 16 := Nat.mod_lt _ (by decide)
  have field := (stationFields p ((readSkein b).station % 16)).1
  have same : (((s.heardDirect p (readSkein b).station).flagsShown p (readSkein b)).gotInput (readSkein b).station).stnState
      (readSkein b).station = s.stnState (readSkein b).station := by
    rw [State.stnState, State.stnState, port]
    exact Eq.trans (State.flagsShown_rd_ne _ hp _ field (by simp [Fld.key, F.SK_STN_STATE_safe, F.SK_STN_STATE_state])
      (by simp [Fld.key, F.SK_STN_STATE_missed, F.SK_STN_STATE_state]))
      (State.heardDirect_rd_ne _ _ _ (by simp [Fld.key, F.SK_STN_STATE_direct, F.SK_STN_STATE_state]))
  rw [State.countInput, State.stnHeard_of_settled inOrder (same ▸ settled)]
  constructor
  · exact .next (.next (s.heardDirect_in _ hp) (.upd (State.flagsShown_in _ _ hp)) (by decide)) (State.bridgeInput_in _ _ _)
      (by decide)
  · refine Eq.trans ((State.bridgeInput_in _ (readSkein b) b).rd_eq (b := .skein) ?_ (by decide)) same
    exact port ▸ field.skein hp position

theorem State.countInput_hop (s : State) (p : Nat) (b : Bytes) (inOrder : Bool) : (s.countInput p b inOrder).hop = s.hop := by
  have direct : (s.heardDirect p (readSkein b).station).hop = s.hop := by
    unfold State.heardDirect
    simp only
    split <;> rfl
  have flags : _ = (s.heardDirect p (readSkein b).station).hop :=
    (State.flagsShown_keeps _ p (readSkein b)).parts .hop (by decide)
  have heard := (State.stnHeard_keeps (((s.heardDirect p (readSkein b).station).flagsShown p (readSkein b)).gotInput
    (readSkein b).station) (readSkein b).station inOrder).parts .hop (by decide)
  have bridged := (State.bridgeInput_keeps ((((s.heardDirect p (readSkein b).station).flagsShown p (readSkein b)).gotInput
    (readSkein b).station).stnHeard (readSkein b).station inOrder) (readSkein b) b).parts .hop (by decide)
  exact Eq.trans bridged (Eq.trans heard (Eq.trans flags direct))

/-! The samples of a frame that has counted (R53, R297). -/

theorem State.storeCounted_of_up {s : State} {b : Bytes} (up : s.stnState (readSkein b).station = 3)
    (live : s.replaying = false) : s.storeCounted b = s.storeInput (readSkein b).station (readSkein b) := by
  simp [State.storeCounted, up, live]

theorem State.storeCounted_of_not_up {s : State} {b : Bytes} (h : s.stnState (readSkein b).station ≠ 3) :
    s.storeCounted b = s := by
  simp [State.storeCounted, h]

/-- The samples of a frame reach at most the slots of its station, and neither the registers nor what was heard of it. -/
theorem State.storeCounted_cases (s : State) (b : Bytes) : (∃ y, s.storeCounted b = { s with ply := y }) ∨
    s.storeCounted b = s.storeInput (readSkein b).station (readSkein b) := by
  unfold State.storeCounted
  simp only
  split
  · exact .inl ⟨s.ply, rfl⟩
  · split
    · exact .inl ⟨_, rfl⟩
    · exact .inr rfl

theorem Heard.storeCounted {s : State} {p : Nat} {b : Bytes} (h : Heard s p (readSkein b).station) (hp : p < 16) :
    Heard (s.storeCounted b) p (readSkein b).station := by
  rcases s.storeCounted_cases b with ⟨y, same⟩ | stored
  · rw [same]
    exact h.of_same (fun _ _ _ => rfl) rfl rfl
  · rw [stored]
    exact h.of_same
      (fun f hf _ => (State.storeInput_in s _ _).rd_eq (hf.skein hp (Nat.mod_lt _ (by decide))) (by decide))
      (congrArg SkeinSt.direct ((State.storeInput_keeps s _ _).parts .skein (by decide))) (State.storeInput_got _ _ _)

theorem State.storeCounted_cell_of_not_mem (s : State) (b : Bytes) {x : Nat} (hx : x ∉ s.slotsOf 1 (readSkein b).station) :
    (s.storeCounted b).cell x = s.cell x := by
  rcases s.storeCounted_cases b with ⟨y, same⟩ | stored
  · rw [same]
    rfl
  · rw [stored]
    exact s.storeInput_cell_of_not_mem _ _ hx

theorem State.replaying_of_in {s t : State} {B : List Bank} (h : RegsIn B s t) (hb : Bank.ply ∉ B) :
    t.replaying = s.replaying := by
  unfold State.replaying State.plyState
  rw [h.rd_eq (f := F.PLY_STATUS_state) (b := .ply) (by decide) hb, h.rd_eq (f := F.PLY_JOIN_phase) (b := .ply) (by decide) hb]

theorem State.skCount_in (s : State) {p j : Nat} (hp : p < 16) (hj : j < 8) : RegsIn [.skein] s (s.skCount p j) :=
  .inc _ .skein .rfl (of_decide_eq_true rfl) (by decide) (by simp only [F.SK_CNT_count, Bank.range]; omega)
    (by simp only [F.SK_CNT_count, Bank.range]; omega)

theorem State.aliveTaken_image (s : State) (p key alive : Nat) : (s.aliveTaken p key alive).image = s.image := by
  unfold State.aliveTaken
  simp only
  split <;> rfl

theorem State.aliveTaken_hop (s : State) (p key alive : Nat) : (s.aliveTaken p key alive).hop = s.hop := by
  unfold State.aliveTaken
  simp only
  split <;> rfl

theorem State.aliveTaken_replaying (s : State) {p : Nat} (key alive : Nat) (hp : p < 16) :
    (s.aliveTaken p key alive).replaying = s.replaying := by
  refine State.replaying_of_in (B := [.skein]) ?_ (by decide)
  exact .upd (.ite (fun _ => s.skCount_in hp (by decide)) (fun _ => .rfl))

theorem State.aliveTaken_stnState (s : State) (p key alive n : Nat) :
    (s.aliveTaken p key alive).stnState n = s.stnState n := by
  unfold State.aliveTaken State.stnState
  simp only
  split
  · exact State.skCount_rd_station s (by decide) (Nat.mod_lt _ (by decide)) (stationFields _ _).1
  · rfl

theorem State.judgeAlive_of_fresh {s : State} {p : Nat} {b : Bytes}
    (h : aliveClass s.skein.rxAlive (skKey 1 (readSkein b).station) s.time.ticks (readSkein b).alive ≠ .repeated) :
    s.judgeAlive p b = ((s.aliveTaken p (skKey 1 (readSkein b).station) (readSkein b).alive).countInput p b
      (aliveClass s.skein.rxAlive (skKey 1 (readSkein b).station) s.time.ticks (readSkein b).alive == .inOrder)).storeCounted b := by
  rw [State.judgeAlive, State.skClass_of_fresh p h]
  generalize aliveClass s.skein.rxAlive (skKey 1 (readSkein b).station) s.time.ticks (readSkein b).alive = cls at h ⊢
  cases cls with
  | repeated => exact absurd rfl h
  | inOrder | gap => rfl

theorem State.judgeAlive_of_repeated {s : State} {p : Nat} {b : Bytes}
    (h : aliveClass s.skein.rxAlive (skKey 1 (readSkein b).station) s.time.ticks (readSkein b).alive = .repeated) :
    s.judgeAlive p b = (s.skCount p 4).heardDirect p (readSkein b).station := by
  rw [State.judgeAlive, State.skClass_of_repeated p h]

theorem skKey_input (n : Nat) : skKey 1 n = 256 + n := by simp [skKey]

/-- Out of a replay a frame of the present turn is late once the turn's cut-off has passed (R33). -/
theorem InputNow.run_live {s : State} {p : Fin 16} {b : Bytes} (now : InputNow s p b) (live : s.replaying = false) :
    execInputFrameReceived p b s = ok (let u := s.epochHeard (readSkein b).epoch
      if s.turn.k < s.turn.cutoffs then (u.skCount p.val 2).skEvt p.val 6 else u.judgeAlive p.val b) := by
  obtain ⟨y, heard⟩ := s.epochHeard_eq (readSkein b).epoch
  have passed : (s.epochHeard (readSkein b).epoch).cutPassed = decide (s.turn.k < s.turn.cutoffs) := by
    rw [heard]
    change decide (s.turn.k < if s.replaying then y.liveCut else s.turn.cutoffs) = _
    rw [live]
    rfl
  rw [now.run]
  simp only [passed, decide_eq_true_eq]

/-- A frame that is taken, up to the storing of its samples: it is heard, and only the list of those that counted has
changed of the image. -/
structure Counted (s w : State) (p n : Nat) : Prop where
  heard : Heard w p n
  slots : w.image.slots = s.image.slots
  hop : w.hop = s.hop
  settled : s.stnState n ∈ [0, 1, 3, 5] → w.replaying = s.replaying ∧ w.stnState n = s.stnState n

theorem State.countInput_counted (s : State) {p : Nat} {b : Bytes} (e key alive : Nat) (inOrder : Bool)
    (port : (readSkein b).station / 16 = p) (hp : p < 16) :
    Counted s (((s.epochHeard e).aliveTaken p key alive).countInput p b inOrder) p (readSkein b).station := by
  obtain ⟨y, heard⟩ := s.epochHeard_eq e
  have state : ((s.epochHeard e).aliveTaken p key alive).stnState (readSkein b).station = s.stnState (readSkein b).station := by
    rw [State.aliveTaken_stnState, heard]
    rfl
  exact {
    heard := State.countInput_heard _ b inOrder port hp
    slots := by
      rw [State.countInput_image, State.gotInput, State.aliveTaken_image, heard]
    hop := by
      rw [State.countInput_hop, State.aliveTaken_hop, heard]
    settled := fun settled => by
      obtain ⟨regs, same⟩ := State.countInput_of_settled inOrder port hp (state ▸ settled)
      refine ⟨?_, same.trans state⟩
      rw [State.replaying_of_in regs (by decide), State.aliveTaken_replaying _ _ _ hp, heard]
      rfl }

theorem State.cell_of_slots {s t : State} (h : t.image.slots = s.image.slots) (x : Nat) : t.cell x = s.cell x :=
  congrArg (fun l => SMap.getD l x SlotCell.coldCell) h

/-- A frame counted on its port: the count alone, then an event of the port. -/
theorem State.skCount_skEvt (s : State) {p j : Nat} (i : Nat) (hp : p < 16) (hj : j < 8) :
    ((s.skCount p j).skEvt p i).rd (F.SK_CNT_count p j) =
      min (s.rd (F.SK_CNT_count p j) + 1) (2 ^ (F.SK_CNT_count p j).width - 1) := by
  rw [State.skEvt_rd_skein _ i hp (by simp only [Fld.In, F.SK_CNT_count, Bank.range]; omega),
    State.rd_wr_ne _ _ _ _ (Fld.key_ne_off (by simp [F.SK_EVT_STATUS_evt]) (by simp [F.SK_CNT_count])
      (by simp only [F.SK_EVT_STATUS_evt, F.SK_CNT_count]; omega))]
  exact State.rd_add_same _ _ _

theorem State.skCount_skEvt_keeps (s : State) (p j i : Nat) : Keeps [.host, .recorder] s ((s.skCount p j).skEvt p i) :=
  .next (.next' (s.skCount_keeps p j) (by decide)) (State.skEvt_keeps _ _ _) (by decide)

/-- A frame whose seal fails is counted as such on its port; where it was on its way to the partner it is also counted as
cut (R80, R392), which its port does not show. -/
theorem State.takeInputFrame_of_bad (s : State) (p : Nat) {b : Bytes} (bad : sealOk b = false) :
    (s.takeInputFrame p false b).image = (s.skSealBad p).image ∧ (s.takeInputFrame p false b).turn = (s.skSealBad p).turn ∧
      ∀ f : Fld, f.In .skein → (s.takeInputFrame p false b).rd f = (s.skSealBad p).rd f := by
  rw [State.takeInputFrame, if_pos (by simp [bad])]
  simp only
  split
  · have cut : RegsIn [.seal] (s.skSealBad p) ((s.skSealBad p).inc F.SEAL_CNT_CUT_count) :=
      .inc _ .seal .rfl (by decide) (by decide) (by decide) (by decide)
    exact ⟨rfl, rfl, fun f hf => cut.rd_eq hf (by decide)⟩
  · exact ⟨rfl, rfl, fun f _ => rfl⟩

/-! The statements. -/

/-- A frame in time is heard of its station, and its samples are stored in the station's slots. -/
theorem inputFramesCount : InputFramesCount := by
  intro s p b now live cut f n fresh
  obtain ⟨y, heard⟩ := s.epochHeard_eq f.epoch
  have counted := s.countInput_counted f.epoch (skKey 1 n) f.alive
    (aliveClass (s.epochHeard f.epoch).skein.rxAlive (skKey 1 n) (s.epochHeard f.epoch).time.ticks f.alive == .inOrder)
    now.port p.isLt
  have run := now.run_live live
  rw [if_neg (Nat.not_lt.2 cut), State.judgeAlive_of_fresh (by rw [skKey_input, heard]; exact fresh)] at run
  generalize State.countInput _ p.val b _ = w at counted run
  have keeps := (execInputFrameReceived_keeps p b s).of_next run
  have state : s.rd (F.SK_STN_STATE_state p.val (n % 16)) = s.stnState n := by
    rw [State.stnState, now.port]
  obtain ⟨direct, missed, listed, got⟩ := counted.heard.storeCounted p.isLt
  refine ⟨_, run, got, listed, missed, direct, fun up x hx index => ?_, fun down => ?_, fun x hx => ?_,
    keeps.parts .forces (by decide), keeps.parts .turn (by decide), keeps.parts .loops (by decide),
    keeps.parts .tasks (by decide)⟩
  · rw [state] at up
    obtain ⟨replaying, same⟩ := counted.settled (up.symm ▸ (by decide : 3 ∈ [0, 1, 3, 5]))
    rw [State.storeCounted_of_up (same.trans up) (replaying.trans live)]
    have sample := w.storeInput_hasSample n f (x := x) (State.slotsOf_of_hop counted.hop 1 n ▸ hx)
      (by simpa only [State.act_of_hop counted.hop] using index)
    rw [State.act_of_hop counted.hop] at sample
    exact ⟨sample.value, sample.tag, sample.age, sample.loss⟩
  · rw [state] at down
    obtain ⟨settled, down⟩ := (by decide : ∀ k ∈ [0, 1, 5], k ∈ [0, 1, 3, 5] ∧ k ≠ 3) _ down
    obtain ⟨-, same⟩ := counted.settled settled
    rw [State.storeCounted_of_not_up (same.symm ▸ down), counted.slots]
  · exact (w.storeCounted_cell_of_not_mem b (State.slotsOf_of_hop counted.hop 1 n ▸ hx)).trans
      (State.cell_of_slots counted.slots x)

/-- A frame not to be used leaves the count of its fault, and the event where it has one. -/
theorem inputFramesNotUsed : InputFramesNotUsed := by
  intro s p b n counts
  refine ⟨fun up hears bad => ?_, fun now live cut repeated => ?_, fun now live late => ?_⟩
  · have run : execInputFrameReceived p b s = ok (s.takeInputFrame p.val false b) := by
      rw [execInputFrameReceived, if_neg (by simp [State.skHears, hears, State.skUp_iff.2 up])]
    have count := s.skCount_skEvt 5 p.isLt (by decide : 0 < 8)
    have event := (s.skCount p.val 0).skEvt_bit p.isLt (by decide : 5 < 10)
    have keeps := s.skCount_skEvt_keeps p.val 0 5
    have image : _ = s.image := keeps.parts .image (by decide)
    have turn : _ = s.turn := keeps.parts .turn (by decide)
    obtain ⟨image', turn', regs⟩ := s.takeInputFrame_of_bad p.val bad
    refine ⟨_, run, ⟨(regs _ ?_).trans count, image'.trans image, turn'.trans turn⟩, ?_⟩
    · simp only [Fld.In, F.SK_CNT_count, Bank.range]
      omega
    · rw [regs _ (by simp only [Fld.In, F.SK_EVT_STATUS_evt, Bank.range]; omega)]
      exact event
  · obtain ⟨y, heard⟩ := s.epochHeard_eq (readSkein b).epoch
    have run := now.run_live live
    rw [if_neg (Nat.not_lt.2 cut), State.judgeAlive_of_repeated (by rw [skKey_input, heard]; exact repeated), heard] at run
    refine ⟨_, run, ?_, State.heardDirect_image _ _ _, ?_⟩
    · refine Eq.trans (State.heardDirect_rd_ne _ _ _ (Fld.key_ne_off ?_ ?_ ?_)) (State.rd_add_same _ _ _)
      · simp [F.SK_STN_STATE_direct]
      · simp [F.SK_CNT_count]
      · simp only [F.SK_STN_STATE_direct, F.SK_CNT_count]
        omega
    · exact ((execInputFrameReceived_keeps p b s).of_next run).parts .turn (by decide)
  · obtain ⟨y, heard⟩ := s.epochHeard_eq (readSkein b).epoch
    have run := now.run_live live
    rw [if_pos late, heard] at run
    have keeps := State.skCount_skEvt_keeps { s with ply := y } p.val 2 6
    exact ⟨_, run, ⟨State.skCount_skEvt _ 6 p.isLt (by decide), keeps.parts .image (by decide), keeps.parts .turn (by decide)⟩,
      State.skEvt_bit _ p.isLt (by decide)⟩

/-- Settles O24: a frame in time counts, and no other frame is used. -/
theorem inputFramesJudged : Obligations.InputFramesJudged := ⟨inputFramesCount, inputFramesNotUsed⟩

end Sys2Proof.Machine

/-! PROOFS. The input cut-off: a station that missed its sample, the policies of its slots, and the wheel view. -/

namespace Sys2Proof.Machine

/-! The policy of a slot (R56, R57). -/

theorem State.cell_substitute_ne (s : State) {n m : Nat} (h : n ≠ m) : (s.substitute n).cell m = s.cell m := by
  unfold State.substitute
  simp only
  split
  · exact s.cell_setCell_ne _ h
  · exact s.cell_setCell_ne _ h
  · split
    · exact s.cell_setCell_ne _ h
    · exact s.cell_setCell_ne _ h

theorem State.loss_setCell (s : State) (n : Nat) (c : SlotCell) : (s.setCell n c).image.loss = s.image.loss := by
  rw [State.setCell_image]

theorem State.loss_substitute_ne (s : State) {n m : Nat} (h : n ≠ m) :
    SMap.find (s.substitute n).image.loss m = SMap.find s.image.loss m := by
  unfold State.substitute
  simp only
  split
  · rw [State.loss_setCell]
  · rw [State.loss_setCell]
  · split
    · rw [State.loss_setCell]
    · simp only [State.loss_setCell, SMap.find_put_ne _ _ h]

theorem State.substitute_got (s : State) (n : Nat) : (s.substitute n).image.got = s.image.got := by
  unfold State.substitute
  simp only
  split
  · rw [State.setCell_image]
  · rw [State.setCell_image]
  · split <;> rw [State.setCell_image]

theorem mkTag_quality (q : Fin 4) (forced clamped aged err : Bool) :
    (mkTag q.val forced clamped aged err).toNat % 4 = q.val := by
  revert q forced clamped aged err
  decide

/-- A slot-loss source asserted for a slot, unless it is forced (R57). -/
def State.noteLoss (s : State) (n source : Nat) : State :=
  if SMap.has s.image.forces n then s else { s with image := { s.image with loss := SMap.put s.image.loss n source } }

theorem State.cell_noteLoss (s : State) (n source m : Nat) : (s.noteLoss n source).cell m = s.cell m := by
  unfold State.noteLoss
  split <;> rfl

theorem State.loss_noteLoss {s : State} {n : Nat} (source : Nat) (h : SMap.find s.image.forces n = none) :
    SMap.find (s.noteLoss n source).image.loss n = some source := by
  rw [State.noteLoss, if_neg (by simp [SMap.has, h])]
  exact SMap.find_put_same _ _ _

/-- Under neither HOLD nor SUBSTITUTE a slot keeps its value with quality BAD, and its source is asserted (R56, R57). -/
theorem State.substitute_of_bad {s : State} {n : Nat} (hold : s.act (F.SLOT_POL_0_policy n) ≠ 0)
    (subst : s.act (F.SLOT_POL_0_policy n) ≠ 1) : ∃ tag : Tag, tag.toNat % 4 = 3 ∧ s.substitute n =
      (s.setCell n ⟨⟨(s.cell n).entry.value, tag⟩, min 255 ((s.cell n).age + 1)⟩).noteLoss n
        (s.act (F.SLOT_POL_0_brake_src n)) := by
  obtain ⟨aged, same⟩ : ∃ aged, s.substitute n = (s.setCell n ⟨⟨(s.cell n).entry.value,
      mkTag 3 false (tagBit (s.cell n).entry.tag 3) aged (tagBit (s.cell n).entry.tag 5)⟩,
      min 255 ((s.cell n).age + 1)⟩).noteLoss n (s.act (F.SLOT_POL_0_brake_src n)) := by
    obtain ⟨q, policy⟩ : ∃ q, s.act (F.SLOT_POL_0_policy n) = q + 2 :=
      Nat.exists_eq_add_of_le' (by omega)
    unfold State.substitute
    simp only [policy]
    rw [State.act_of_hop ((State.setCell_keeps s n _).parts .hop (by decide))]
    exact ⟨_, rfl⟩
  exact ⟨_, mkTag_quality 3 false _ aged _, same⟩

/-- A station's slot m after its policy, where s is the state before the cut-off (R56, R57). -/
structure Substituted (s t : State) (m : Nat) : Prop where
  age : 0 < (t.cell m).age
  kept : s.act (F.SLOT_POL_0_policy m) ≠ 1 → (t.cell m).entry.value = (s.cell m).entry.value
  held : s.act (F.SLOT_POL_0_policy m) = 0 → (t.cell m).entry.tag.toNat % 4 = 1
  subst : s.act (F.SLOT_POL_0_policy m) = 1 →
    (t.cell m).entry.value = BitVec.ofNat 18 (s.act (F.SLOT_POL_SUBST_subst m)) ∧ (t.cell m).entry.tag.toNat % 4 = 2
  bad : s.act (F.SLOT_POL_0_policy m) = 2 → (t.cell m).entry.tag.toNat % 4 = 3
  loss : s.act (F.SLOT_POL_0_policy m) = 2 → SMap.find s.image.forces m = none →
    SMap.find t.image.loss m = some (s.act (F.SLOT_POL_0_brake_src m))

/-- What a policy takes of slot m, as it was before the cut-off: the settings, the forces, which stations counted, and, but
under SUBSTITUTE, the value. -/
structure Before (s u : State) (m : Nat) : Prop where
  hop : u.hop = s.hop
  forces : u.image.forces = s.image.forces
  got : u.image.got = s.image.got
  value : s.act (F.SLOT_POL_0_policy m) ≠ 1 → (u.cell m).entry.value = (s.cell m).entry.value

theorem Before.refl {s : State} {m : Nat} : Before s s m := ⟨rfl, rfl, rfl, fun _ => rfl⟩

/-- A slot's policy is applied (R56). -/
theorem Before.substituted {s u : State} {m : Nat} (h : Before s u m) : Substituted s (u.substitute m) m := by
  have aged : 0 < min 255 ((u.cell m).age + 1) := by omega
  by_cases bad : u.act (F.SLOT_POL_0_policy m) ≠ 0 ∧ u.act (F.SLOT_POL_0_policy m) ≠ 1
  · obtain ⟨hold, subst⟩ := bad
    obtain ⟨tag, quality, same⟩ := State.substitute_of_bad hold subst
    rw [State.act_of_hop h.hop] at hold subst
    have cell : (u.substitute m).cell m = ⟨⟨(u.cell m).entry.value, tag⟩, min 255 ((u.cell m).age + 1)⟩ := by
      rw [same, State.cell_noteLoss, State.cell_setCell_same]
    refine ⟨by rwa [cell], fun _ => by rw [cell, h.value subst], fun zero => absurd zero hold, fun one => absurd one subst,
      fun _ => by rwa [cell], fun _ unforced => ?_⟩
    rw [same, State.act_of_hop h.hop]
    exact State.loss_noteLoss _ (by rwa [State.setCell_image, h.forces])
  · unfold State.substitute
    simp only [State.act_of_hop h.hop] at bad ⊢
    split
    next zero =>
      refine ⟨?_, fun subst => ?_, fun _ => ?_, fun one => ?_, fun two => ?_, fun two => ?_⟩
      · rwa [State.cell_setCell_same]
      · rw [State.cell_setCell_same, h.value subst]
      · rw [State.cell_setCell_same]
        exact mkTag_quality 1 _ _ _ _
      all_goals omega
    next one =>
      refine ⟨?_, fun subst => absurd one subst, fun zero => ?_, fun _ => ?_, fun two => ?_, fun two => ?_⟩
      · rwa [State.cell_setCell_same]
      · omega
      · rw [State.cell_setCell_same]
        exact ⟨rfl, mkTag_quality 2 _ _ _ _⟩
      all_goals omega
    next zero one => exact absurd ⟨zero, one⟩ bad

theorem Substituted.of_same {s t u : State} {m : Nat} (h : Substituted s t m) (cell : u.cell m = t.cell m)
    (loss : SMap.find u.image.loss m = SMap.find t.image.loss m) : Substituted s u m := by
  obtain ⟨age, kept, held, subst, bad, noted⟩ := h
  exact ⟨cell ▸ age, cell ▸ kept, cell ▸ held, cell ▸ subst, cell ▸ bad, loss ▸ noted⟩

theorem Before.substitute {s u : State} {m : Nat} (h : Before s u m) (n : Nat) : Before s (u.substitute n) m where
  hop := Eq.trans ((u.substitute_keeps n).parts .hop (by decide)) h.hop
  forces := Eq.trans ((u.substitute_keeps n).parts .forces (by decide)) h.forces
  got := (u.substitute_got n).trans h.got
  value := fun subst => by
    by_cases same : n = m
    · exact same ▸ h.substituted.kept subst
    · rw [u.cell_substitute_ne same, h.value subst]

theorem Substituted.substitute {s u : State} {m : Nat} (done : Substituted s u m) (h : Before s u m) (n : Nat) :
    Substituted s (u.substitute n) m := by
  by_cases same : n = m
  · exact same ▸ h.substituted
  · exact done.of_same (u.cell_substitute_ne same) (u.loss_substitute_ne same)

/-! A station that missed its sample (R56). -/

theorem Before.of_same {s u v : State} {m : Nat} (h : Before s u m) (hop : v.hop = u.hop) (image : v.image = u.image) :
    Before s v m :=
  ⟨hop.trans h.hop, image ▸ h.forces, image ▸ h.got, fun subst => State.cell_of_image image m ▸ h.value subst⟩

theorem Before.substituteAll {s u : State} {m : Nat} (h : Before s u m) (l : List Nat) :
    Before s (l.foldl State.substitute u) m :=
  List.foldlRecOn _ _ (motive := fun v : State => Before s v m) h fun _ hv n _ => hv.substitute n

theorem Substituted.substituteAll {s u : State} {m : Nat} (done : Substituted s u m) (h : Before s u m) (l : List Nat) :
    Substituted s (l.foldl State.substitute u) m :=
  (List.foldlRecOn _ _ (motive := fun v : State => Before s v m ∧ Substituted s v m) ⟨h, done⟩ fun _ hv n _ =>
    ⟨hv.1.substitute n, hv.2.substitute hv.1 n⟩).2

theorem Before.substitutedAll {s u : State} {m : Nat} (h : Before s u m) {l : List Nat} (hm : m ∈ l) :
    Substituted s (l.foldl State.substitute u) m :=
  foldl_reaches (I := fun v : State => Before s v m) (P := fun v => Substituted s v m) hm h
    (fun _ hv n _ => hv.substitute n) (fun _ hv => hv.substituted) (fun _ hv done n _ => done.substitute hv n)

/-- A station at its cut-off: its slots take their policy where its frame has not counted, or it is not UP. -/
theorem State.missStation_slots (s : State) (n : Nat) :
    ∃ l, (n ∉ s.image.got → l = s.slotsOf 1 n) ∧ (s.missStation n).hop = (l.foldl State.substitute s).hop ∧
      (s.missStation n).image = (l.foldl State.substitute s).image := by
  unfold State.missStation
  simp only
  split
  next got =>
    refine ⟨[], fun missed => absurd got (by simp [missed]), (State.missRegs_keeps _ _).parts .hop (by decide),
      (State.missRegs_keeps _ _).parts .image (by decide)⟩
  next => exact ⟨_, fun _ => rfl, (State.missRegs_keeps _ _).parts .hop (by decide),
      (State.missRegs_keeps _ _).parts .image (by decide)⟩

theorem Before.missStation {s u : State} {m : Nat} (h : Before s u m) (n : Nat) : Before s (u.missStation n) m := by
  obtain ⟨l, -, hop, image⟩ := u.missStation_slots n
  exact (h.substituteAll l).of_same hop image

theorem Substituted.of_image {s t u : State} {m : Nat} (h : Substituted s t m) (image : u.image = t.image) :
    Substituted s u m := h.of_same (State.cell_of_image image m) (by rw [image])

theorem Substituted.missStation {s u : State} {m : Nat} (done : Substituted s u m) (h : Before s u m) (n : Nat) :
    Substituted s (u.missStation n) m := by
  obtain ⟨l, -, -, image⟩ := u.missStation_slots n
  exact (done.substituteAll h l).of_image image

theorem Before.missed {s u : State} {m n : Nat} (h : Before s u m) (missed : n ∉ s.image.got) (hm : m ∈ s.slotsOf 1 n) :
    Substituted s (u.missStation n) m := by
  obtain ⟨l, slots, -, image⟩ := u.missStation_slots n
  have mem : m ∈ l := by rwa [slots (h.got ▸ missed), State.slotsOf_of_hop h.hop]
  exact (h.substitutedAll mem).of_image image

/-- The stations due at the cut-off: each slot of one that has not counted takes its policy. -/
theorem State.missStations_substituted {s : State} {m n : Nat} {l : List Nat} (due : n ∈ l) (missed : n ∉ s.image.got)
    (hm : m ∈ s.slotsOf 1 n) : Substituted s (l.foldl State.missStation s) m :=
  foldl_reaches (I := fun v : State => Before s v m) (P := fun v => Substituted s v m) due .refl
    (fun _ hv n _ => hv.missStation n) (fun _ hv => hv.missed missed hm) (fun _ hv done n _ => done.missStation hv n)

/-! The rest of the cut-off: the ring's slots, the sample's wheel view, and what is started and sent for it. -/

theorem State.takeRingSlot_ne (s : State) (t : Nat) {n m : Nat} (h : n ≠ m) :
    (s.takeRingSlot t n).cell m = s.cell m ∧
      SMap.find (s.takeRingSlot t n).image.loss m = SMap.find s.image.loss m := by
  unfold State.takeRingSlot
  split
  · exact ⟨State.cell_takeInput_ne _ _ _ _ _ _ h, State.loss_takeInput_ne _ _ _ _ _ _ h⟩
  · exact ⟨s.cell_substitute_ne h, s.loss_substitute_ne h⟩

/-- The ring's slots take the copies that have arrived. -/
def State.ringSlots (s : State) (t : Nat) : State :=
  (s.slotList.filter (fun n => s.slotKind n == 2)).foldl (fun u n => u.takeRingSlot t n) s

/-- The image of sample k is complete: what the views are taken of. -/
def State.sampled (s : State) (k : Nat) : State :=
  ((s.ringSlots (s.boundaryU k + s.cutoffNs * unitNs)).prunePubs (s.boundaryU k + s.cutoffNs * unitNs)).lossRows

/-- The loops due at sample k. -/
def State.dueLoops (s : State) (k : Nat) : List Nat :=
  if s.computes then s.enabledLoops.filter (fun l => k % s.loopP l == 0) else []

/-- The turn engine past the cut-off of turn k. -/
def State.cutOff (s : State) (k : Nat) : State :=
  let evals := s.turn.evals ++ (s.dueLoops k).map (fun l => (k, l))
  let live := fun (j : Nat) => j == k || evals.any (fun e => e.1 == j)
  { s with turn := { s.turn with
    cutoffs := k + 1
    views := SMap.put (s.turn.views.filter (fun e => live e.1)) k s.wheelView
    brakedAt := SMap.put (s.turn.brakedAt.filter (fun e => live e.1)) k (s.brakedLoops (s.dueLoops k))
    dueGroups := SMap.put s.turn.dueGroups k ((s.dueLoops k).map groupOf).eraseDups
    evals := evals } }

/-- The tasks due at sample k are started. -/
def State.readied (s : State) (k : Nat) : State :=
  if s.computes then (upTo 16).foldl (fun u t => u.readyTask t k) s else s

theorem State.runSample_eq (s : State) (k : Nat) : s.runSample k =
    ((((s.sampled k).cutOff k).readied k).composePub k (s.sampled k).wheelView).recordSlots k (s.sampled k).wheelView := rfl

theorem State.ringSlots_keeps (s : State) (t : Nat) : Keeps [.image, .ply] s (s.ringSlots t) :=
  .foldl _ _ .rfl fun u n h => h.next (u.takeRingSlot_keeps t n) (by decide)

theorem State.ringSlots_substituted {s u : State} {m : Nat} (h : Substituted s u m) (own : u.slotKind m = 1) (t : Nat) :
    Substituted s (u.ringSlots t) m := by
  refine List.foldlRecOn _ _ (motive := fun v : State => Substituted s v m) h fun v hv n hn => ?_
  have ne : n ≠ m := by
    rintro rfl
    simp [own] at hn
  obtain ⟨cell, loss⟩ := v.takeRingSlot_ne t ne
  exact hv.of_same cell loss

theorem State.sampled_image (s : State) (k : Nat) :
    (s.sampled k).image = (s.ringSlots (s.boundaryU k + s.cutoffNs * unitNs)).image :=
  (State.lossRows_keeps _).parts .image (by decide)

theorem State.readied_keeps (s : State) (k : Nat) : Keeps [.tasks, .host, .recorder] s (s.readied k) :=
  .ite (.foldl _ _ .rfl fun u t h => h.next (u.readyTask_keeps t k) (by decide)) .rfl

/-- What follows the cut-off itself leaves the image, the turn, the settings and the programs. -/
theorem State.runSample_sendReach_keeps (s : State) (k : Nat) :
    Keeps [.tasks, .trace, .ring, .ply, .host, .recorder, .mem, .skein] ((s.sampled k).cutOff k)
      ((s.runSample k).sendReach k) := by
  rw [State.runSample_eq]
  exact .next (.next (.next (.next' (State.readied_keeps _ k) (by decide)) (State.composePub_keeps _ k _) (by decide))
    (State.recordSlots_keeps _ k _) (by decide)) (State.sendReach_keeps _ k) (by decide)

/-- The wheel sees of a slot its force, its latch, its loop's value or the image. -/
theorem State.wheelEntry_congr {s t : State} (image : t.image = s.image) (settings : t.hop = s.hop) (progs : t.progs = s.progs)
    (latches : t.turn.latches = s.turn.latches) (loops : t.loops = s.loops) (n : Nat) : t.wheelEntry n = s.wheelEntry n := by
  simp only [State.wheelEntry, State.overlay, State.writer, State.latch, State.loop, State.cell, image, settings, progs, latches,
    loops]

theorem State.mem_wheelView {s : State} {e : Nat × Entry} (h : e ∈ s.wheelView) : e.2 = s.wheelEntry e.1 := by
  obtain ⟨n, -, rfl⟩ := List.mem_map.1 h
  rfl

/-- The stations have been judged: what the sample is taken of. -/
def State.judged (s : State) : State :=
  (upTo 16).foldl State.reachedRegs ((s.dueInputs s.turn.k).foldl State.missStation s)

theorem State.execInputCutoff_run {s : State} (running : s.rd F.TURN_STATUS_running = 1) (skein : s.pd .skein = true)
    (live : s.replaying = false) (due : s.turn.cutoffs ≤ s.turn.k) : execInputCutoff s =
      ok ((s.judged.runSample s.turn.k).sendReach s.turn.k) := by
  have on : s.on F.TURN_STATUS_running = true := beq_iff_eq.2 running
  rw [execInputCutoff, if_neg (by simp [on, skein]), if_neg (by simp [live]), if_neg (Nat.not_lt.2 due)]
  rfl

theorem State.reachedAll_keeps (s : State) : Keeps [] s ((upTo 16).foldl State.reachedRegs s) :=
  .foldl _ _ .rfl fun u p h => h.next (u.reachedRegs_keeps p) (by decide)

theorem State.judged_keeps (s : State) : Keeps [.image, .skein, .ply] s s.judged :=
  .next (.foldl _ _ .rfl fun u n h => h.next (u.missStation_keeps n) (by decide)) (State.reachedAll_keeps _) (by decide)

/-- Settles O10: the due stations by their slots' policies, the view by the image that it is taken of. -/
theorem inputCutoffSubstitutes : Obligations.InputCutoffSubstitutes := by
  intro s running skein live due
  have run := State.execInputCutoff_run running skein live due
  have keeps := (execInputCutoff_keeps s).of_next run
  have after := s.judged.runSample_sendReach_keeps s.turn.k
  generalize (s.judged.runSample s.turn.k).sendReach s.turn.k = t at run keeps after
  have turn : t.turn = ((s.judged.sampled s.turn.k).cutOff s.turn.k).turn := after.parts .turn (by decide)
  have image : t.image = (s.judged.sampled s.turn.k).image := after.parts .image (by decide)
  refine ⟨t, run, by rw [turn]; rfl, keeps.parts .turnNumber (by decide), keeps.parts .forces (by decide),
    keeps.parts .loops (by decide), ⟨(s.judged.sampled s.turn.k).wheelView, ?_, fun e he => ?_⟩,
    fun n station sample missed m hm => ?_⟩
  · rw [turn]
    exact SMap.find_put_same _ _ _
  · have latches : t.turn.latches = (s.judged.sampled s.turn.k).turn.latches := by rw [turn]; rfl
    rw [State.mem_wheelView he]
    exact (State.wheelEntry_congr image (after.parts .hop (by decide)) (after.parts .progs (by decide)) latches
      (after.parts .loops (by decide)) e.1).symm
  · have substituted : Substituted s s.judged m :=
      (State.missStations_substituted (l := s.dueInputs s.turn.k) (by simp [State.dueInputs, station, sample]) missed hm).of_image
        ((State.reachedAll_keeps _).parts .image (by decide))
    have own : s.judged.slotKind m = 1 := by
      rw [State.slotKind, State.act_of_hop (s.judged_keeps.parts .hop (by decide))]
      exact (State.mem_slotsOf.1 hm).2.1
    have final := (State.ringSlots_substituted substituted own
      (s.judged.boundaryU s.turn.k + s.judged.cutoffNs * unitNs)).of_image (image.trans (State.sampled_image _ _))
    exact ⟨final.age, fun hold => ⟨final.kept (by omega), final.held hold⟩, final.subst,
      fun bad => ⟨final.kept (by omega), final.bad bad, final.loss bad⟩⟩

end Sys2Proof.Machine

/-! PROOFS. The release instant: what it releases, what it keeps, and the watchdog that it arms. -/

namespace Sys2Proof.Machine

/-! The steps of the instant (R35, R41, R108, R115 to R118). -/

/-- What an instant does before anything is released: the count of DIGESTs, a raised epoch, the end of resumptions. -/
def State.releaseBegun (s : State) (m : Nat) : State :=
  let s : State := { s with ply := { s.ply with catchUp := [] } }
  (s.countDigests.raiseEqual).endResumed m

/-- An overrun stop that is due at the instant takes effect (R115). -/
def State.overrunsTaken (s : State) (m : Nat) : State :=
  match s.tasks.overrunNext with
  | some (j, t, trap) =>
    if j ≤ m then
      let s : State := { s with tasks := { s.tasks with overrunNext := none } }
      s.overrunStop t trap m
    else s
  | none => s

/-- The next instant is that of turn m + 1. -/
def State.nextRelease (s : State) (m : Nat) : State := { s with turn := { s.turn with nextRel := m + 1 } }

/-- The rows of STOP and of an overrun from this instant on (R116, R125). -/
def State.stopRows (s : State) (m : Nat) : State :=
  let from? := fun (b : Option Nat) => match b with
    | some b => decide (b ≤ m)
    | none => false
  let s := if from? s.tasks.stopFrom then s.setRow 16 true else s
  if from? s.tasks.overrunFrom then s.setRow 17 true else s

/-- The due stations' frames go out, where `was` are the ports braked before the instant, and arm the watchdog (R118). -/
def State.framesSent (s : State) (m was : Nat) : State :=
  let s := (s.dueStations m).foldl (fun s n => s.releaseStation m was n) s
  if (s.sendsAs 0).isSome then s.wr F.TURN_WDOG_armed 1 else s

/-- The instant is recorded, for the DIGESTs and the splits of later ones. -/
def State.releaseNoted (s : State) (m : Nat) (braked : Bool) : State :=
  let r := s.relRec m
  let s := s.setRel m { r with released := true, braked := braked }
  let s := s.noteSplit m
  let s : State := { s with brake := { s.brake with held := s.rd F.BRK_STATE_port } }
  { s with ply := { s.ply with
    relLatches := SMap.put (keepFrom s.ply.relLatches (m - 64)) m s.turn.latches } }

/-- The state in which an instant's results have been released. -/
def State.atRelease (s : State) (m : Nat) : State := 
  ((((s.releaseBegun m).overrunsTaken m).applyRelease m).slipTasks m).nextRelease m

/-- Was a station due at the instant braked? -/
def State.releaseBraked (s : State) (m : Nat) : Bool :=
  (s.dueStations m).any (fun n => s.portBraked (n / 16) || s.heldStation (m + 1 - s.nTurns * s.stationP n))

theorem State.execReleaseInstant_run {s : State} (running : s.rd F.TURN_STATUS_running = 1) (skein : s.pd .skein = true)
    (due : s.turn.nextRel ≤ s.turn.k) (live : s.replaying = true → s.turn.nextRel < s.turn.cutoffs) :
    execReleaseInstant s = ok ((((s.atRelease s.turn.nextRel).stopRows s.turn.nextRel).framesSent s.turn.nextRel
      ((s.atRelease s.turn.nextRel).rd F.BRK_STATE_port)).releaseNoted s.turn.nextRel
        (((s.atRelease s.turn.nextRel).stopRows s.turn.nextRel).releaseBraked s.turn.nextRel)) := by
  have on : s.on F.TURN_STATUS_running = true := beq_iff_eq.2 running
  have fires : ¬(!s.on F.TURN_STATUS_running || !s.pd .skein || decide (s.turn.k < s.turn.nextRel) ||
      (s.replaying && decide (s.turn.cutoffs ≤ s.turn.nextRel))) = true := by
    simpa [on, skein, due] using live
  unfold execReleaseInstant
  extract_lets m _ _ begun _ _ taken results _ released was _ stop rows stations braked frames armed
  rw [if_neg fires]
  have began : begun = s.releaseBegun m := rfl
  clear_value begun
  have took : taken = begun.overrunsTaken m := rfl
  clear_value taken
  have slipped : results = (taken.applyRelease m).slipTasks m := rfl
  clear_value results
  have release : released = results.nextRelease m := rfl
  clear_value released
  have stopped : rows = released.stopRows m := rfl
  have any : braked = rows.releaseBraked m := rfl
  clear_value rows
  have sent : armed = rows.framesSent m was := rfl
  clear_value armed
  have reached : s.atRelease m = released := by
    rw [release, slipped, took, began]
    rfl
  change _ = ok ((((s.atRelease m).stopRows m).framesSent m ((s.atRelease m).rd F.BRK_STATE_port)).releaseNoted m
    (((s.atRelease m).stopRows m).releaseBraked m))
  rw [reached, ← stopped, ← sent, ← any]
  rfl

/-! Before anything is released the turn does not change. -/

theorem State.overrunsTaken_turn (s : State) (m : Nat) : (s.overrunsTaken m).turn = s.turn := by
  unfold State.overrunsTaken
  split
  · split
    · exact (State.overrunStop_keeps { s with tasks := { s.tasks with overrunNext := none } } _ _ m).parts .turn (by decide)
    · rfl
  · rfl

theorem State.releaseBegun_turn (s : State) (m : Nat) : (s.releaseBegun m).turn = s.turn := by
  have counted : _ = s.turn := (State.countDigests_keeps { s with ply := { s.ply with catchUp := [] } }).parts .turn (by decide)
  have raised := (State.raiseEqual_keeps ({ s with ply := { s.ply with catchUp := [] } } : State).countDigests).parts .turn
    (by decide)
  exact Eq.trans raised counted

/-! What is released (R35, R41). -/

/-- The latches after a held result: each slot that it names holds it, unless a newer one is there. -/
def Held.latch (h : Held) (latches : SMap Latch) : SMap Latch :=
  h.slots.foldl (fun ls e =>
    if h.sample < (SMap.getD ls e.1 ⟨e.2, 0⟩).sample then ls else SMap.put ls e.1 ⟨e.2, h.sample⟩) latches

theorem Held.find_latch_of_unnamed (h : Held) (latches : SMap Latch) {n : Nat} (unnamed : ∀ e ∈ h.slots, e.1 ≠ n) :
    SMap.find (h.latch latches) n = SMap.find latches n := by
  refine List.foldlRecOn _ _ (motive := fun ls : SMap Latch => SMap.find ls n = SMap.find latches n) rfl fun ls hls e he => ?_
  split
  · exact hls
  · exact (SMap.find_put_ne _ _ (unnamed e he)).trans hls

theorem Held.find_latch_single {h : Held} {n : Nat} {v : Entry} (named : h.slots = [(n, v)]) {latches : SMap Latch}
    (older : ∀ l, SMap.find latches n = some l → l.sample ≤ h.sample) :
    SMap.find (h.latch latches) n = some ⟨v, h.sample⟩ := by
  have newest : ¬h.sample < (SMap.getD latches n ⟨v, 0⟩).sample := by
    unfold SMap.getD
    cases found : SMap.find latches n with
    | none => simp
    | some l => simpa using older l found
  rw [Held.latch, named, List.foldl_cons, if_neg newest, List.foldl_nil]
  exact SMap.find_put_same _ _ _

/-- A held result reaches of the turn its latches alone. -/
theorem State.applyHeld_turn (s : State) (m : Nat) (h : Held) :
    (s.applyHeld m h).turn = { s.turn with latches := h.latch s.turn.latches } := by
  unfold State.applyHeld
  simp only
  refine List.foldlRecOn _ _ (motive := fun u : State => u.turn = { s.turn with latches := h.latch s.turn.latches }) ?_
    fun u hu e _ => Eq.trans ((u.millEnter_keeps _ _ _).parts .turn (by decide)) hu
  exact List.foldlRecOn _ _ (motive := fun u : State => u.turn = { s.turn with latches := h.latch s.turn.latches }) rfl
    fun u hu e _ => hu

/-- The results due reach the latches, each after the one before it. -/
theorem State.applyHelds_turn (s : State) (m : Nat) (due : List Held) : (due.foldl (fun s h => s.applyHeld m h) s).turn =
    { s.turn with latches := due.foldl (fun ls h => h.latch ls) s.turn.latches } := by
  induction due generalizing s with
  | nil => rfl
  | cons h due ih => rw [List.foldl_cons, ih, State.applyHeld_turn, List.foldl_cons]

theorem State.applyRelease_turn (s : State) (m : Nat) : (s.applyRelease m).turn = { s.turn with
    held := s.turn.held.filter (fun h => decide (m < h.turn))
    latches := (s.turn.held.filter (fun h => decide (h.turn ≤ m))).foldl (fun ls h => h.latch ls) s.turn.latches } :=
  State.applyHelds_turn _ m _

/-- A task's slip notes itself in the slack meter, and discards nothing of the turn (R41). -/
theorem State.slipTask_unmetered (s : State) (m t sample : Nat) : (s.slipTask m t sample).turn.unmetered = s.turn.unmetered := by
  unfold State.slipTask
  simp only
  refine (congrArg TurnSt.unmetered ((State.taskEvt_keeps _ t 0).parts .turn (by decide))).trans ?_
  refine Eq.trans ?_ (State.noteSlip_unmetered ((((s.inc (F.SLIP_TASK_slips t)).wr (F.SLIP_TASK_last_slipped t) 1).wr
    (F.SLACK_TASK_LAST_slack_ns t) 0).wr (F.SLACK_TASK_MIN_slack_ns t) 0))
  rfl

theorem State.slipTasks_unmetered (s : State) (m : Nat) : (s.slipTasks m).turn.unmetered = s.turn.unmetered := by
  refine List.foldlRecOn _ _ (motive := fun u : State => u.turn.unmetered = s.turn.unmetered) rfl fun u hu t _ => ?_
  split
  · exact (u.slipTask_unmetered m t _).trans hu
  · exact hu

/-! After the release the turn does not change. -/

/-- A row set where its condition holds. -/
theorem State.setRowIf_keeps (s : State) (c : Bool) (r : Nat) :
    Keeps [.skein, .trace, .time, .rows, .brake, .host, .recorder] s (if c = true then s.setRow r true else s) :=
  .ite (s.setRow_keeps r true) .rfl

theorem State.stopRows_keeps (s : State) (m : Nat) :
    Keeps [.skein, .trace, .time, .rows, .brake, .host, .recorder] s (s.stopRows m) :=
  .next (s.setRowIf_keeps _ 16) (State.setRowIf_keeps _ _ 17) (by decide)

theorem State.framesSent_keeps (s : State) (m was : Nat) : Keeps [.skein, .ply] s (s.framesSent m was) := by
  have sent : Keeps [.skein, .ply] s ((s.dueStations m).foldl (fun s n => s.releaseStation m was n) s) :=
    .foldl _ _ .rfl fun u n h => h.next (u.releaseStation_keeps m was n) (by decide)
  exact .ite (sent.next (State.wr_keeps _ F.TURN_WDOG_armed 1) (by decide)) sent

theorem State.releaseNoted_turn (s : State) (m : Nat) (braked : Bool) : (s.releaseNoted m braked).turn = s.turn :=
  Eq.trans ((State.noteSplit_keeps _ m).parts .turn (by decide)) ((s.setRel_keeps m _).parts .turn (by decide))

/-- The turn after a release instant, but for what the slack meter notes of its slips. -/
theorem State.atRelease_unmetered (s : State) (m : Nat) : (s.atRelease m).turn.unmetered = { s.turn.unmetered with
    nextRel := m + 1
    held := s.turn.held.filter (fun h => decide (m < h.turn))
    latches := (s.turn.held.filter (fun h => decide (h.turn ≤ m))).foldl (fun ls h => h.latch ls) s.turn.latches } := by
  have before : ((s.releaseBegun m).overrunsTaken m).turn = s.turn :=
    (State.overrunsTaken_turn _ m).trans (s.releaseBegun_turn m)
  have results := State.slipTasks_unmetered (((s.releaseBegun m).overrunsTaken m).applyRelease m) m
  rw [State.applyRelease_turn, before] at results
  exact congrArg (fun x : TurnSt => { x with nextRel := m + 1 }) results

/-- The turn that a release instant leaves is that in which its results have been released. -/
theorem State.release_turn (s : State) (m was : Nat) (braked : Bool) :
    (((s.stopRows m).framesSent m was).releaseNoted m braked).turn = s.turn :=
  (State.releaseNoted_turn _ m braked).trans (Eq.trans ((State.framesSent_keeps _ m was).parts .turn (by decide))
    ((s.stopRows_keeps m).parts .turn (by decide)))

/-! The watchdog (R118). -/

theorem State.plyState_of_in {s t : State} {B : List Bank} (h : RegsIn B s t) (hb : Bank.ply ∉ B) : t.plyState = s.plyState :=
  h.rd_eq (f := F.PLY_STATUS_state) (b := .ply) (by decide) hb

theorem State.row19_plyState (s : State) : s.row19.plyState = s.plyState :=
  State.plyState_of_in (s.setRow_in 19 _ (by decide)) (by decide)

/-- A module that raises its epoch keeps its state (R292, R303). -/
theorem State.raiseEqual_plyState (s : State) : s.raiseEqual.plyState = s.plyState := by
  have raised (u : State) : u.raiseEpoch.1.plyState = u.plyState := by
    unfold State.raiseEpoch
    split
    · exact State.row19_plyState { u with brake := { u.brake with epochLimit := true } }
    · exact State.rd_wr_ne _ _ _ _ (by decide)
  unfold State.raiseEqual
  simp only
  split
  · rfl
  · split
    · exact raised _
    · rfl

theorem State.countDigests_of_lone {s : State} (lone : s.plyState = 1) : s.countDigests = s :=
  if_pos (by simp [State.isStandby, lone])

/-- What comes before the release leaves a LONE module LONE, without an overrun to take. -/
theorem State.releaseBegun_lone {s : State} (lone : s.plyState = 1) (m : Nat) :
    (s.releaseBegun m).plyState = 1 ∧ (s.releaseBegun m).tasks = s.tasks := by
  rw [State.releaseBegun, State.countDigests_of_lone (s := { s with ply := { s.ply with catchUp := [] } }) lone]
  exact ⟨(State.raiseEqual_plyState _).trans lone, (State.raiseEqual_keeps _).parts .tasks (by decide)⟩

theorem State.overrunsTaken_of_none {s : State} (idle : s.tasks.overrunNext = none) (m : Nat) : s.overrunsTaken m = s := by
  unfold State.overrunsTaken
  rw [idle]

theorem State.applyHeld_in {s : State} (m : Nat) {h : Held} (buffers : ∀ e ∈ h.mill, e.1 < 128) :
    RegsIn [.mill] s (s.applyHeld m h) := by
  unfold State.applyHeld
  simp only
  refine .foldl _ _ (.foldl _ _ (.upd .rfl) fun u e _ hu => .upd hu) fun u e he hu => ?_
  have := buffers e he
  exact hu.next (State.millEnter_in _ _ _ _ (by omega) (by omega)) (by decide)

theorem State.applyRelease_in {s : State} (m : Nat) (buffers : ∀ h ∈ s.turn.held, ∀ e ∈ h.mill, e.1 < 128) :
    RegsIn [.mill] s (s.applyRelease m) :=
  .foldl _ _ (.upd .rfl) fun u h hh hu => hu.next (u.applyHeld_in m (buffers h (List.mem_of_mem_filter hh))) (by decide)

theorem State.stopRows_in (s : State) (m : Nat) : RegsIn [.events, .time, .brake, .viol] s (s.stopRows m) := by
  have row (u : State) (c : Bool) {r : Nat} (hr : r < 32) :
      RegsIn [.events, .time, .brake, .viol] u (if c = true then u.setRow r true else u) :=
    .ite (fun _ => u.setRow_in r true hr) (fun _ => .rfl)
  exact (row s _ (by decide)).next (row _ _ (by decide)) (by decide)

theorem State.framesSent_armed {s : State} (lone : s.plyState = 1) (m was : Nat) :
    (s.framesSent m was).rd F.TURN_WDOG_armed = 1 := by
  have sent : RegsIn [] s ((s.dueStations m).foldl (fun s n => s.releaseStation m was n) s) :=
    .foldl _ _ .rfl fun u n _ hu => hu.next (u.releaseStation_in m was n) (by decide)
  have sends : (((s.dueStations m).foldl (fun s n => s.releaseStation m was n) s).sendsAs 0).isSome = true := by
    rw [State.sendsAs, (State.plyState_of_in sent (by decide)).trans lone]
    rfl
  unfold State.framesSent
  simp only [sends, if_true]
  exact State.rd_wr_same _ _ _

theorem State.releaseNoted_in (s : State) (m : Nat) (braked : Bool) : RegsIn [.events, .brake, .viol] s (s.releaseNoted m braked) :=
  .upd (.upd (.next (.mono (s.setRel_in m _) (by decide)) (State.noteSplit_in _ m) (by decide)))

/-- A LONE module's frames arm the watchdog (R118). -/
theorem State.release_armed {s : State} {m : Nat} (lone : (s.atRelease m).plyState = 1) (was : Nat) (braked : Bool) :
    ((((s.atRelease m).stopRows m).framesSent m was).releaseNoted m braked).rd F.TURN_WDOG_armed = 1 :=
  ((State.releaseNoted_in _ m braked).rd_eq (b := .wdog) (by decide) (by decide)).trans
    (State.framesSent_armed ((State.plyState_of_in ((s.atRelease m).stopRows_in m) (by decide)).trans lone) m was)

theorem State.nextRelease_plyState (s : State) (m : Nat) : (s.nextRelease m).plyState = s.plyState := rfl

/-- A LONE module with no overrun to take is LONE when the results are released. -/
theorem State.atRelease_lone {s : State} (lone : s.plyState = 1) (idle : s.tasks.overrunNext = none)
    (buffers : ∀ h ∈ s.turn.held, ∀ e ∈ h.mill, e.1 < 128) (m : Nat) : (s.atRelease m).plyState = 1 := by
  obtain ⟨begun, tasks⟩ := s.releaseBegun_lone lone m
  have taken := State.overrunsTaken_of_none (tasks.symm ▸ idle) m
  have results : RegsIn [.mill, .events, .slack, .task, .viol] (s.releaseBegun m)
      (((s.releaseBegun m).applyRelease m).slipTasks m) :=
    .next (.mono (State.applyRelease_in m (s.releaseBegun_turn m ▸ buffers)) (by decide)) (State.slipTasks_in _ m) (by decide)
  rw [State.atRelease, taken, State.nextRelease_plyState]
  exact (State.plyState_of_in results (by decide)).trans begun

theorem TurnSt.of_unmetered {x y : TurnSt} (h : x.unmetered = y) : x.nextRel = y.nextRel ∧ x.k = y.k ∧ x.origin = y.origin ∧
    x.held = y.held ∧ x.latches = y.latches := by
  subst h
  exact ⟨rfl, rfl, rfl, rfl, rfl⟩

/-- Settles O11: the turn by the results released into it, the watchdog by the frames of a LONE module. -/
theorem releaseInstantReleases : Obligations.ReleaseInstantReleases := by
  intro s running skein due live
  have run := State.execReleaseInstant_run running skein due live
  have turn := (s.atRelease s.turn.nextRel).release_turn s.turn.nextRel ((s.atRelease s.turn.nextRel).rd F.BRK_STATE_port)
    (((s.atRelease s.turn.nextRel).stopRows s.turn.nextRel).releaseBraked s.turn.nextRel)
  have left := (congrArg TurnSt.unmetered turn).trans (s.atRelease_unmetered s.turn.nextRel)
  have armed (lone : (s.atRelease s.turn.nextRel).plyState = 1) := State.release_armed lone
    ((s.atRelease s.turn.nextRel).rd F.BRK_STATE_port)
    (((s.atRelease s.turn.nextRel).stopRows s.turn.nextRel).releaseBraked s.turn.nextRel)
  generalize State.releaseNoted _ _ _ = t at run left armed
  obtain ⟨next, k, origin, held, latches⟩ := TurnSt.of_unmetered left
  refine ⟨t, run, next, k, origin, held, fun n unnamed => ?_, fun h n v only named older => ?_,
    fun lone idle buffers => armed (State.atRelease_lone lone idle buffers _)⟩
  · rw [latches]
    refine List.foldlRecOn _ _ (motive := fun ls : SMap Latch => SMap.find ls n = SMap.find s.turn.latches n) rfl fun ls hls h hh => ?_
    obtain ⟨held, now⟩ := List.mem_filter.1 hh
    exact (h.find_latch_of_unnamed ls (unnamed h held (of_decide_eq_true now))).trans hls
  · rw [latches, only]
    exact Held.find_latch_single named older

end Sys2Proof.Machine

/-! PROOFS. The signal image as the host sees it: writes taken at their boundary, forces, captured words, and the containers
of slots. -/

namespace Sys2Proof.Machine

/-! Host writes taken at their boundary (R58, R68). -/

/-- From s to t host writes have entered the image and the loops, and nothing else changed but the capture store. -/
def State.WritesEnter (s t : State) : Prop :=
  ∃ slots barred ply loops, t = { s with image := { s.image with slots, barred }, ply, loops }

theorem State.WritesEnter.trans {s t u : State} (h : s.WritesEnter t) (g : t.WritesEnter u) : s.WritesEnter u := by
  obtain ⟨_, _, _, _, rfl⟩ := h
  obtain ⟨_, _, _, _, rfl⟩ := g
  exact ⟨_, _, _, _, rfl⟩

theorem State.barKey_enters (s : State) (key sample : Nat) : s.WritesEnter (s.barKey key sample) := by
  unfold State.barKey
  split
  · split <;> exact ⟨_, _, _, _, rfl⟩
  · exact ⟨_, _, _, _, rfl⟩

theorem State.setCell_enters (s : State) (n : Nat) (c : SlotCell) : s.WritesEnter (s.setCell n c) := by
  unfold State.setCell State.saveSlot
  split <;> exact ⟨_, _, _, _, rfl⟩

theorem State.takeWrite_enters (s : State) (b : Nat) (w : HostWrite) : s.WritesEnter (s.takeWrite b w) := by
  have nothing : s.WritesEnter s := ⟨_, _, _, _, rfl⟩
  cases w with
  | slot n v =>
    rw [State.takeWrite]
    split
    · exact (s.barKey_enters _ _).trans (State.setCell_enters _ _ _)
    · exact nothing
  | loop l target manual mode => exact (s.barKey_enters _ _).trans ⟨_, _, _, _, rfl⟩
  | soft | mill | prog => exact nothing

/-- The waiting writes that HOST_WRITE_TAKEN takes, in their order. -/
def State.dueWrites (s : State) : List (Nat × HostWrite) :=
  s.image.waiting.filter (fun e => decide (e.1 ≤ s.nowTurn) && isImageWrite e.2)

/-- The state in which only the other writes still wait. -/
def State.undueWait (s : State) : State := { s with image := { s.image with
  waiting := s.image.waiting.filter (fun e => !(decide (e.1 ≤ s.nowTurn) && isImageWrite e.2)) } }

/-- The state in which the due writes have been taken. -/
def State.writesTaken (s : State) : State := s.dueWrites.foldl (fun s e => s.takeWrite e.1 e.2) s.undueWait

theorem exec_hostWriteTaken (s : State) : exec .hostWriteTaken s = .next s.writesTaken := rfl

theorem State.writesTaken_enters (s : State) : s.undueWait.WritesEnter s.writesTaken :=
  List.foldlRecOn _ _ (motive := fun u => s.undueWait.WritesEnter u) ⟨_, _, _, _, rfl⟩
    fun _ entered e _ => entered.trans (State.takeWrite_enters _ e.1 e.2)

/-- One write waits, and its boundary has come. -/
theorem State.writesTaken_single {s : State} {b : Nat} {w : HostWrite} (waits : s.image.waiting = [(b, w)])
    (due : b ≤ s.nowTurn) (image : isImageWrite w = true) : s.writesTaken = s.undueWait.takeWrite b w := by
  have only : s.dueWrites = [(b, w)] := by
    rw [State.dueWrites, waits]
    simp [due, image]
  rw [State.writesTaken, only]
  rfl

theorem State.takeWrite_slot {s : State} {n : BitVec 18} (kind : s.slotKind n.toNat = 3) (b : Nat) (v : Sample) :
    s.takeWrite b (.slot n v) = (s.barKey n.toNat b).setCell n.toNat ⟨⟨v, 0⟩, 0⟩ :=
  if_pos (beq_iff_eq.2 kind)

theorem State.barKey_slots (s : State) (key sample : Nat) : (s.barKey key sample).image.slots = s.image.slots := by
  rw [State.barKey_image]

/-- A signal write gives its slot the value with quality GOOD and age 0, and reaches no other slot and no loop (R58). -/
theorem State.takeWrite_slot_takes {s : State} {n : BitVec 18} (kind : s.slotKind n.toNat = 3) (b : Nat) (v : Sample) :
    (s.takeWrite b (.slot n v)).cell n.toNat = ⟨⟨v, 0⟩, 0⟩ ∧
      (∀ m, m ≠ n.toNat → (s.takeWrite b (.slot n v)).cell m = s.cell m) ∧ (s.takeWrite b (.slot n v)).loops = s.loops := by
  rw [State.takeWrite_slot kind]
  refine ⟨State.cell_setCell_same _ _ _, fun m other => ?_, ?_⟩
  · exact (State.cell_setCell_ne _ _ other.symm).trans (State.cell_of_slots (s.barKey_slots _ _) m)
  · exact Eq.trans ((State.setCell_keeps _ _ _).parts .loops (by decide)) ((s.barKey_keeps _ _).parts .loops (by decide))

/-- A LOOP_WRITE joins its loop's requests, and reaches no other loop and no slot (R58). -/
theorem State.takeWrite_loop_takes (s : State) (b : Nat) (l : Fin 4096) (x y : Option Sample) (z : Option (BitVec 2)) :
    (s.takeWrite b (.loop l x y z)).loop l.val = { s.loop l.val with reqs := (s.loop l.val).reqs ++
        [⟨b, x.map BitVec.toInt, y.map BitVec.toInt, z.map BitVec.toNat⟩] } ∧
      (∀ m, m ≠ l.val → (s.takeWrite b (.loop l x y z)).loop m = s.loop m) ∧
      (s.takeWrite b (.loop l x y z)).image.slots = s.image.slots := by
  have loops : (s.barKey (2 ^ 20 + l.val) b).loops = s.loops := (s.barKey_keeps _ _).parts .loops (by decide)
  exact ⟨SMap.getD_put_same _ _ _ _,
    fun m other => (SMap.getD_put_ne _ _ _ other.symm).trans (congrArg (SMap.getD · m LoopSt.fresh) loops), s.barKey_slots _ _⟩

theorem hostWritesTaken : HostWritesTaken := by
  intro s
  have keeps : Keeps [.image, .loops, .ply] s s.writesTaken := execHostWriteTaken_keeps s
  have rest : s.writesTaken.image.waiting = s.undueWait.image.waiting ∧ s.writesTaken.regs = s.regs ∧
      s.writesTaken.out = s.out ∧ s.writesTaken.image.forces = s.image.forces := by
    obtain ⟨slots, barred, ply, loops, entered⟩ := s.writesTaken_enters
    rw [entered]
    exact ⟨rfl, rfl, rfl, rfl⟩
  obtain ⟨waiting, regs, out, forces⟩ := rest
  refine ⟨s.writesTaken, exec_hostWriteTaken s, waiting, regs, keeps.parts .turn (by decide), keeps.parts .tasks (by decide),
    keeps.parts .hop (by decide), out, forces, fun b n v waits due kind => ?_, fun b l x y z waits due => ?_⟩
  · rw [State.writesTaken_single waits due rfl]
    exact State.takeWrite_slot_takes (s := s.undueWait) kind b v
  · rw [State.writesTaken_single waits due rfl]
    exact s.undueWait.takeWrite_loop_takes b l x y z

/-! Forces (R62 to R65). -/

theorem State.slotNow_of_forced {s : State} {n : Nat} {v : Sample} (h : SMap.find s.image.forces n = some v) :
    s.slotNow n = ⟨v, 4⟩ := by
  rw [State.slotNow, State.overlay, h]
  rfl

theorem State.slotNow_of_unforced {s : State} {n : Nat} (h : SMap.find s.image.forces n = none) :
    s.slotNow n = (s.cell n).entry := by
  rw [State.slotNow, State.overlay, h]

/-- A slot reads the same where its force and what lies below are the same. -/
theorem State.slotNow_congr {s t : State} {n : Nat} (forces : SMap.find t.image.forces n = SMap.find s.image.forces n)
    (cell : t.cell n = s.cell n) : t.slotNow n = s.slotNow n := by
  rw [State.slotNow, State.slotNow, State.overlay, State.overlay, forces, cell]

/-- From s to t only forces and slot-loss sources have changed. -/
def State.ForcesChange (s t : State) : Prop := ∃ forces loss, t = { s with image := { s.image with forces, loss } }

theorem State.ForcesChange.trans {s t u : State} (h : s.ForcesChange t) (g : t.ForcesChange u) : s.ForcesChange u := by
  obtain ⟨_, _, rfl⟩ := h
  obtain ⟨_, _, rfl⟩ := g
  exact ⟨_, _, rfl⟩

theorem State.ForcesChange.cell {s t : State} (h : s.ForcesChange t) (n : Nat) : t.cell n = s.cell n := by
  obtain ⟨_, _, rfl⟩ := h
  rfl

theorem State.applyForce_changes (s : State) (e : BitVec 18 × Option Sample) : s.ForcesChange (s.applyForce e) := by
  unfold State.applyForce
  simp only
  split
  · exact ⟨_, _, rfl⟩
  · split <;> exact ⟨_, _, rfl⟩

theorem State.applyForces_change (s : State) (es : List (BitVec 18 × Option Sample)) :
    s.ForcesChange (es.foldl State.applyForce s) :=
  List.foldlRecOn _ _ (motive := fun u => s.ForcesChange u) ⟨_, _, rfl⟩
    fun _ changed e _ => changed.trans (State.applyForce_changes _ e)

theorem State.applyForce_forced (s : State) (n : BitVec 18) (v : Sample) :
    SMap.find (s.applyForce (n, some v)).image.forces n.toNat = some v ∧
      SMap.find (s.applyForce (n, some v)).image.loss n.toNat = none :=
  ⟨SMap.find_put_same _ _ _, SMap.find_del_same _ _⟩

theorem State.applyForce_unforced (s : State) (n : BitVec 18) :
    SMap.find (s.applyForce (n, none)).image.forces n.toNat = none := by
  unfold State.applyForce
  simp only
  split <;> exact SMap.find_del_same _ _

/-- A force or unforce leaves the force and the slot-loss source of every other slot. -/
theorem State.applyForce_ne (s : State) {e : BitVec 18 × Option Sample} {m : Nat} (h : e.1.toNat ≠ m) :
    SMap.find (s.applyForce e).image.forces m = SMap.find s.image.forces m ∧
      SMap.find (s.applyForce e).image.loss m = SMap.find s.image.loss m := by
  unfold State.applyForce
  simp only
  split
  · exact ⟨SMap.find_put_ne _ _ h, SMap.find_del_ne _ h⟩
  · split
    · exact ⟨SMap.find_del_ne _ h, SMap.find_put_ne _ _ h⟩
    · exact ⟨SMap.find_del_ne _ h, rfl⟩

theorem State.applyForces_ne (s : State) {es : List (BitVec 18 × Option Sample)} {m : Nat} (h : ∀ e ∈ es, e.1.toNat ≠ m) :
    SMap.find (es.foldl State.applyForce s).image.forces m = SMap.find s.image.forces m ∧
      SMap.find (es.foldl State.applyForce s).image.loss m = SMap.find s.image.loss m :=
  List.foldlRecOn _ _ (motive := fun u : State => SMap.find u.image.forces m = SMap.find s.image.forces m ∧
      SMap.find u.image.loss m = SMap.find s.image.loss m) ⟨rfl, rfl⟩ fun u same e he =>
    ⟨(u.applyForce_ne (h e he)).1.trans same.1, (u.applyForce_ne (h e he)).2.trans same.2⟩

/-- Among entries that name each slot once, the one that names a slot decides its force and its slot-loss source. -/
theorem State.applyForces_mem (s : State) {es : List (BitVec 18 × Option Sample)} (once : (es.map Prod.fst).Nodup)
    {e : BitVec 18 × Option Sample} (he : e ∈ es) : ∃ u : State,
      SMap.find (es.foldl State.applyForce s).image.forces e.1.toNat = SMap.find (u.applyForce e).image.forces e.1.toNat ∧
      SMap.find (es.foldl State.applyForce s).image.loss e.1.toNat = SMap.find (u.applyForce e).image.loss e.1.toNat := by
  obtain ⟨before, after, rfl⟩ := List.append_of_mem he
  have later : ∀ x ∈ after, x.1.toNat ≠ e.1.toNat := by
    intro x hx same
    rw [List.map_append, List.map_cons, List.nodup_append] at once
    exact (List.nodup_cons.1 once.2.1).1 (BitVec.eq_of_toNat_eq same ▸ List.mem_map_of_mem hx)
  refine ⟨before.foldl State.applyForce s, ?_⟩
  rw [List.foldl_append, List.foldl_cons]
  exact State.applyForces_ne _ later

/-- Does FORCE_APPLY carry out an order: an acknowledged force order whose boundary has come? -/
def State.forceDue (s : State) (o : Order) : Bool := o.code == 2 && o.acked && decide (o.boundary ≤ s.nowTurn)

/-- The forces that an order carries take effect. -/
def State.orderForces (s : State) (o : Order) : State :=
  match o.content with
  | .force es => es.foldl State.applyForce s
  | _ => s

/-- The state in which the due orders are done with and the forces before them saved for a capture. -/
def State.forceOrdersTaken (s : State) : State :=
  let u := if (s.ply.orders.filter s.forceDue).isEmpty then s else s.saveForces
  { u with ply := { u.ply with orders := u.ply.orders.filter (fun o => !s.forceDue o) } }

/-- The state in which the due orders' forces have taken effect, before rows and completions follow. -/
def State.forcesApplied (s : State) : State :=
  (s.ply.orders.filter s.forceDue).foldl State.orderForces s.forceOrdersTaken

/-- What follows the forces: the rows of slot loss, and the completions of the orders' commands. -/
def State.forcesFollowed (s : State) (due : List Order) : State :=
  due.foldl (fun s o =>
    s.finish (fun m => (m.op == 0x30 || m.op == 0x31) && m.order == some o.seq) 0 0 o.boundary 0) s.lossRows

theorem exec_forceApply (s : State) :
    exec .forceApply s = .next (s.forcesApplied.forcesFollowed (s.ply.orders.filter s.forceDue)) := rfl

theorem State.forcesFollowed_keeps (s : State) (due : List Order) :
    Keeps [.skein, .trace, .time, .rows, .brake, .host, .recorder] s (s.forcesFollowed due) :=
  .foldl _ _ s.lossRows_keeps fun _ _ h => h.next (State.finish_keeps _ _ _ _ _ _) (by decide)

theorem State.orderForces_change (s : State) (o : Order) : s.ForcesChange (s.orderForces o) := by
  unfold State.orderForces
  split
  · exact s.applyForces_change _
  · exact ⟨_, _, rfl⟩

theorem State.forcesApplied_change (s : State) : s.forceOrdersTaken.ForcesChange s.forcesApplied :=
  List.foldlRecOn _ _ (motive := fun u => s.forceOrdersTaken.ForcesChange u) ⟨_, _, rfl⟩
    fun _ changed o _ => changed.trans (State.orderForces_change _ o)

theorem State.saveForces_orders (s : State) : s.saveForces.ply.orders = s.ply.orders := by
  unfold State.saveForces
  split <;> rfl

theorem State.forceOrdersTaken_orders (s : State) :
    s.forceOrdersTaken.ply.orders = s.ply.orders.filter (fun o => !s.forceDue o) := by
  unfold State.forceOrdersTaken
  split
  · rfl
  · exact congrArg (List.filter _) s.saveForces_orders

theorem State.forceOrdersTaken_image (s : State) : s.forceOrdersTaken.image = s.image := by
  unfold State.forceOrdersTaken
  split
  · rfl
  · exact s.saveForces_keeps.parts .image (by decide)

/-- One order waits, and it is a due one of the entries es. -/
theorem State.forcesApplied_single {s : State} {o : Order} {es : List (BitVec 18 × Option Sample)}
    (waits : s.ply.orders = [o]) (due : s.forceDue o = true) (content : o.content = .force es) :
    s.forcesApplied = es.foldl State.applyForce s.forceOrdersTaken := by
  have only : s.ply.orders.filter s.forceDue = [o] := by
    rw [waits]
    simp [due]
  rw [State.forcesApplied, only, List.foldl_cons, List.foldl_nil, State.orderForces, content]

theorem forcesApply : ForcesApply := by
  intro s
  have follow := s.forcesApplied.forcesFollowed_keeps (s.ply.orders.filter s.forceDue)
  have run := exec_forceApply s
  have whole := (execForceApply_keeps s).of_next run
  generalize s.forcesApplied.forcesFollowed _ = t at whole follow run
  have ply : t.ply = s.forcesApplied.ply := follow.parts .ply (by decide)
  have image : t.image = s.forcesApplied.image := follow.parts .image (by decide)
  have changed := s.forcesApplied_change
  refine ⟨t, run, ?_, ?_, whole.parts .turn (by decide), whole.parts .loops (by decide), whole.parts .mem (by decide),
    whole.parts .settings (by decide), fun o es waits code acked come content once => ?_⟩
  · obtain ⟨_, _, same⟩ := changed
    rw [ply, same]
    exact s.forceOrdersTaken_orders
  · obtain ⟨_, _, same⟩ := changed
    rw [image, same]
    exact (congrArg ImageSt.slots s.forceOrdersTaken_image :)
  · have due : s.forceDue o = true := by simp [State.forceDue, code, acked, come]
    have below (n : Nat) : t.cell n = s.cell n :=
      (State.cell_of_image image n).trans ((changed.cell n).trans (State.cell_of_image s.forceOrdersTaken_image n))
    rw [State.forcesApplied_single waits due content] at image
    refine ⟨fun n v he => ?_, fun n he => ?_, fun m others => ?_⟩
    · obtain ⟨u, forces, loss⟩ := s.forceOrdersTaken.applyForces_mem once he
      obtain ⟨forced, unlost⟩ := u.applyForce_forced n v
      exact ⟨State.slotNow_of_forced (image ▸ forces.trans forced), image ▸ loss.trans unlost⟩
    · obtain ⟨u, forces, -⟩ := s.forceOrdersTaken.applyForces_mem once he
      rw [State.slotNow_of_unforced (image ▸ forces.trans (u.applyForce_unforced n)), below]
    · refine State.slotNow_congr ?_ (below m)
      rw [image, (State.applyForces_ne _ others).1, s.forceOrdersTaken_image]

/-! Reads of a register by the host (R319, R365, R399, R404). -/

theorem State.hostRead_passed {s : State} {off : Nat}
    (pass : unjudged off 0 0 = false → (s.acAccess 0 0 0 (bar0Addr off) 4).2 = true) (f : State → State × Nat) :
    s.hostRead off f = (f s).1.emit (.word (f s).2) := by
  unfold State.hostRead
  cases judged : unjudged off 0 0 with
  | true => rfl
  | false =>
    rw [State.acAccess_true _ _ _ _ _ _ (pass judged)]
    rfl

theorem State.hostRead_refused {s : State} {off : Nat} (judged : unjudged off 0 0 = false)
    (refused : (s.acAccess 0 0 0 (bar0Addr off) 4).2 = false) (f : State → State × Nat) :
    s.hostRead off f = (s.acAccess 0 0 0 (bar0Addr off) 4).1.emit (.bar none) := by
  rw [State.hostRead, if_neg (by simp [judged])]
  split
  · next same => rw [same]
  · next same => simp [same] at refused

/-- The state in which the higher words of a register have been captured, while its block has power (R365). -/
def State.captured (s : State) (off : Nat) : State :=
  if s.pd (blockPd off) then { s with caps := SMap.puts s.caps ((highWords off).map (fun h => (h, s.rawWord h))) } else s

theorem State.regRead_captures (s : State) {off : Nat} (plain : off ∉ [0x9C04, 0xAC04, 0x9C54, 0xAC54]) :
    s.regRead off = (s.captured off, s.bar0Word off) := by
  simp only [List.mem_cons, List.not_mem_nil, or_false, not_or] at plain
  obtain ⟨lock0, lock1, free0, free1⟩ := plain
  simp only [State.regRead, lock0, lock1, free0, free1, if_false, State.captured]

/-- A value put at each key of a list is what the key reads; every other key reads as before. -/
theorem SMap.find_puts_map {α : Type} (m : SMap α) (f : Nat → α) (l : List Nat) (x : Nat) :
    SMap.find (SMap.puts m (l.map (fun k => (k, f k)))) x = if x ∈ l then some (f x) else SMap.find m x := by
  induction l generalizing m with
  | nil => simp [SMap.puts]
  | cons k l ih =>
    refine (ih (SMap.put m k (f k))).trans ?_
    by_cases same : k = x
    · simp [same]
    · simp [SMap.find_put_ne m (f k) same, Ne.symm same]

theorem State.captured_caps_only (s : State) (off : Nat) : s.captured off = { s with caps := (s.captured off).caps } := by
  unfold State.captured
  split <;> rfl

theorem State.find_captured {s : State} {off : Nat} (power : s.pd (blockPd off) = true) (h : Nat) :
    SMap.find (s.captured off).caps h = if h ∈ highWords off then some (s.rawWord h) else SMap.find s.caps h := by
  rw [State.captured, if_pos power]
  exact SMap.find_puts_map _ _ _ _

theorem State.captured_dark {s : State} {off : Nat} (dark : s.pd (blockPd off) = false) : s.captured off = s :=
  if_neg (by simp [dark])

theorem lowWordReadCaptures : LowWordReadCaptures := by
  intro s off
  have aligned (h : off.toNat % 4 = 0) : exec (.lowWordRead off true) s =
      .next (s.hostRead off.toNat (fun s => s.regRead off.toNat)) := if_neg (by simp [h])
  refine ⟨fun word plain pass => ?_, fun al bad => ?_, fun word judged refused => ?_⟩
  · have run := aligned word
    rw [State.hostRead_passed pass, State.regRead_captures s plain] at run
    refine ⟨_, run, ?_, ?_, fun power => ⟨fun h high => ?_, fun h low => ?_⟩, fun dark => ?_⟩
    · rw [s.captured_caps_only]
      rfl
    · rw [s.captured_caps_only]
      rfl
    · exact (State.find_captured power h).trans (if_pos high)
    · exact (State.find_captured power h).trans (if_neg low)
    · exact (congrArg State.caps (State.captured_dark dark) :)
  · exact ⟨_, if_pos (by simpa using bad), rfl⟩
  · have run := aligned word
    rw [State.hostRead_refused judged refused] at run
    have keeps := s.acAccess_keeps 0 0 0 (bar0Addr off.toNat) 4
    exact ⟨_, run, List.mem_append_right _ (List.mem_singleton_self _), keeps.parts .caps (by decide),
      keeps.parts .mill (by decide), s.acAccess_in 0 0 0 _ 4 (by decide)⟩

/-- Settles O14: writes by what each takes, forces by the order's entries, reads by what the capture puts. -/
theorem imageWrittenForcedAndRead : Obligations.ImageWrittenForcedAndRead :=
  ⟨hostWritesTaken, forcesApply, lowWordReadCaptures⟩

/-! Containers (R50). -/

theorem Entry.container_layout (e : Entry) :
    e.container < 2 ^ 24 ∧ e.container % 2 ^ 18 = e.value.toNat ∧ e.container / 2 ^ 18 = e.tag.toNat := by
  have value := e.value.isLt
  have tag := e.tag.isLt
  unfold Entry.container
  omega

/-! A host command that begins, passes the common tests and may move its buffer (R328, R333). -/

theorem Ready.hostRow {s : State} {c : HostCmd} {op : Nat} (ready : Ready s c op) (f : State → State) :
    s.hostRow c op f = f (s.consume c.ring.val) := by
  have passes : (s.consume c.ring.val).cmdFault c = none := ready.passes
  rw [State.hostRow, if_pos (by simp [ready.op, ready.begins]), State.runCmd, passes]

/-- An access passes where the unit's regions forbid none of it, whatever else the state holds. -/
theorem State.acAccess_passes_iff {s : State} {u kind requester addr len : Nat} :
    (s.acAccess u kind requester addr len).2 = true ↔ s.acJudge u kind addr len = none := by
  unfold State.acAccess
  split
  · next free => simp [free]
  · next forbidden => simp [forbidden]

theorem Buffered.consume {s : State} {c : HostCmd} {kind len : Nat} (buffered : Buffered s c kind len) (r : Nat) :
    Buffered (s.consume r) c kind len := by
  obtain ⟨aligned, bus, whole, pass⟩ := buffered
  exact ⟨aligned, bus, whole, fun p hp => State.acAccess_passes_iff.2 (State.acAccess_passes_iff.1 (pass p hp) :)⟩

/-- A buffer that the DMA unit and the bus let through moves without a trace. -/
theorem Buffered.moveBuf {s : State} {c : HostCmd} {kind len : Nat} (buffered : Buffered s c kind len) (f : State → State) :
    s.moveBuf c kind len f = f s := by
  obtain ⟨-, bus, whole, pass⟩ := buffered
  have moved : (pieces len).foldl (fun (x : State × Bool) p =>
      if x.2 then x.1.acAccess 3 kind 2 (c.desc.buf.toNat + p.1) p.2 else x) (s, true) = (s, true) :=
    List.foldlRecOn _ _ (motive := fun x => x = (s, true)) rfl fun x same p hp => by
      rw [same]
      exact State.acAccess_true _ _ _ _ _ _ (pass p hp)
  have fits : (!c.dmaOk || (kind == 0 && decide (c.data.length < len))) = false := by
    simpa [bus] using whole
  simp only [State.moveBuf, moved, fits]
  rfl

theorem firstBad_eq_none {α : Type} {l : List α} {p : α → Bool} (h : ∀ x ∈ l, p x = true) : firstBad l p = none :=
  List.findIdx?_eq_none_iff.2 fun x hx => by simp [h x hx]

/-- Entries that pass their tests wait for the boundary of R68 (R331). -/
theorem State.sigEntries_accepted {s : State} (c : HostCmd) {es : List (Nat × Nat)} (key : s.key ≠ 0)
    (passes : ∀ e ∈ es, e.1 < 262144 ∧ s.slotKind e.1 = 3) : s.sigEntries c es =
      (s.hostWrites s.boundary2 (es.map (fun e => .slot (BitVec.ofNat 18 e.1) (BitVec.ofNat 18 e.2)))).complete c 0 0
        s.boundary2 0 := by
  unfold State.sigEntries
  rw [firstBad_eq_none (fun e _ => by simp [key]), firstBad_eq_none (fun e he => decide_eq_true (passes e he).1),
    firstBad_eq_none (fun e he => beq_iff_eq.2 (passes e he).2)]

theorem State.hostWrites_image (s : State) (b : Nat) (ws : List HostWrite) :
    (s.hostWrites b ws).image = { s.image with waiting := s.image.waiting ++ ws.map (fun w => (b, w)) } := by
  unfold State.hostWrites
  simp only
  split
  · exact (State.mirror_keeps _ b ws).parts .image (by decide)
  · rfl

/-- A SIG_WRITE whose pairs lie in its buffer, once it begins. -/
theorem State.sigWrite_buffered {s : State} {c : HostCmd} (count : 1 ≤ opAt c 24 4 ∧ opAt c 24 4 ≤ 4096)
    (buf : c.desc.buf.toNat ≠ 0) (buffered : Buffered s c 0 (8 * opAt c 24 4)) :
    s.sigWrite c = s.sigEntries c (pairsOf c.data (opAt c 24 4)) := by
  unfold State.sigWrite
  simp only
  rw [if_neg (by simp; omega), if_neg (by simp [buf]), if_neg (by simp [buffered.1]), buffered.moveBuf]

/-- The module keeps of a container bits 17:0 alone. -/
theorem sampleOf_container (w : Nat) : BitVec.ofNat 18 (w % 2 ^ 18) = BitVec.ofNat 18 w :=
  BitVec.eq_of_toNat_eq (by simp)

/-- Settles O44: the layout by arithmetic, a write by what waits and what its slot takes. -/
theorem slotContainers : Obligations.SlotContainers := by
  refine ⟨Entry.container_layout, fun s c n w ready count buf buffered pairs inside kind key => ?_,
    fun s b n v waits due kind => ?_⟩
  · refine ⟨_, congrArg Host.Outcome.next (ready.hostRow fun s => s.sigWrite c), ?_⟩
    rw [State.sigWrite_buffered (by omega) buf (count ▸ buffered.consume c.ring.val), count, pairs,
      State.sigEntries_accepted c (s := s.consume c.ring.val) key (by simpa using ⟨inside, kind⟩), sampleOf_container]
    exact Eq.trans ((State.complete_keeps _ c 0 0 _ 0).parts .image (by decide)) (State.hostWrites_image _ _ _)
  · refine ⟨s.writesTaken, exec_hostWriteTaken s, ?_⟩
    rw [State.writesTaken_single waits due rfl]
    exact congrArg SlotCell.entry (State.takeWrite_slot_takes (s := s.undueWait) kind b v).1

end Sys2Proof.Machine

/-! PROOFS. Events that are shown: a bit of a status register that is set stays set, and an event of a Skein port is
recorded as raised where it is enabled. -/

namespace Sys2Proof.Machine

/-! Bits that stay set. -/

theorem bitOf_eq_testBit (n i : Nat) : bitOf n i = n.testBit i := by
  simp [bitOf, Nat.testBit, Nat.and_comm]

/-- No bit of a field goes from 1 to 0. -/
def BitsStay (f : Fld) (s t : State) : Prop := ∀ i < f.width, bitOf (s.rd f) i = true → bitOf (t.rd f) i = true

theorem BitsStay.of_eq {f : Fld} {s t : State} (h : t.rd f = s.rd f) : BitsStay f s t := fun i _ set => by
  rw [h]
  exact set

theorem BitsStay.rfl {f : Fld} {s : State} : BitsStay f s s := .of_eq (Eq.refl _)

theorem BitsStay.trans {f : Fld} {s t u : State} (h : BitsStay f s t) (g : BitsStay f t u) : BitsStay f s u :=
  fun i hi set => g i hi (h i hi set)

/-- A change within other banks leaves the bits of a field. -/
theorem BitsStay.of_in {B : List Bank} {f : Fld} {s t : State} {b : Bank} (h : RegsIn B s t) (hf : f.In b) (hb : b ∉ B) :
    BitsStay f s t := .of_eq (h.rd_eq hf hb)

theorem BitsStay.wr_ne {f g : Fld} {s t : State} (h : BitsStay f s t) (v : Nat) (ne : g.key ≠ f.key) :
    BitsStay f s (t.wr g v) := h.trans (.of_eq (State.rd_wr_ne _ _ _ _ ne))

theorem BitsStay.ite {f : Fld} {s t u : State} {c : Prop} [Decidable c] (h : BitsStay f s t) (g : BitsStay f s u) :
    BitsStay f s (if c then t else u) := by
  split <;> assumption

/-- A bit set in a field reads as set, and the other bits as they were. -/
theorem State.bitOf_wr_setBit (s : State) {f : Fld} {i j : Nat} (hj : j < f.width) :
    bitOf ((s.wr f (setBit (s.rd f) i true)).rd f) j = (bitOf (s.rd f) j || decide (i = j)) := by
  rw [State.rd_wr_same]
  simp only [bitOf_eq_testBit, setBit, if_true, Nat.testBit_mod_two_pow, hj, decide_true, Bool.true_and, Nat.testBit_or,
    Nat.one_shiftLeft, Nat.testBit_two_pow]

theorem BitsStay.setBit {f : Fld} {s t : State} (h : BitsStay f s t) (i : Nat) :
    BitsStay f s (t.wr f (setBit (t.rd f) i true)) := fun j hj set => by
  rw [State.bitOf_wr_setBit _ hj, h j hj set, Bool.true_or]

/-! Sources that have been raised stay raised until they are cleared (R335). -/

theorem raised_in {k : Nat} (hk : k < 4) : (F.EVT_RAISED_raised k).In .events := by
  simp only [Fld.In, F.EVT_RAISED_raised, Bank.range]
  omega

/-- Another source raised leaves those that were. -/
theorem BitsStay.setRaised {k n : Nat} {s t : State} (h : BitsStay (F.EVT_RAISED_raised k) s t) (i : Nat) :
    BitsStay (F.EVT_RAISED_raised k) s (t.wr (F.EVT_RAISED_raised n) (Machine.setBit (t.rd (F.EVT_RAISED_raised n)) i true)) := by
  by_cases e : n = k
  · exact e ▸ h.setBit i
  · exact h.wr_ne _ (by simp only [Fld.key, F.EVT_RAISED_raised]; omega)

theorem State.countMsix_raised (s : State) (v : Nat) {k : Nat} (hk : k < 4) :
    BitsStay (F.EVT_RAISED_raised k) s (s.countMsix v) := by
  have sent (u : State) : BitsStay (F.EVT_RAISED_raised k) u (u.sendMsix v) := by
    unfold State.sendMsix
    exact .ite (.wr_ne .rfl _ (by simp only [Fld.key, F.EVT_RAISED_raised, F.MSIX_PBA_pending]; omega)) .rfl
  unfold State.countMsix
  exact .ite (sent s) .rfl

/-- A refused access is noted in the violation registers alone. -/
theorem State.acNote_in_viol (s : State) {u : Nat} (hu : u < 4) (kind requester len a n : Nat) :
    RegsIn [.viol] s (s.acNote u kind requester len a n) := by
  have wr {t : State} {f : Fld} (hf : f.In .viol) (h : RegsIn [.viol] s t) (v : Nat) : RegsIn [.viol] s (t.wr f v) :=
    h.wr f v .viol hf.1 (by decide) hf.2.1 hf.2.2
  have field (o lo width : Nat) (h : 0xC040 ≤ o ∧ o < 0xC050 ∧ lo < 32) :
      (⟨o + 16 * u, lo, width, 0⟩ : Fld).In .viol := by
    simp only [Fld.In, Bank.range]
    omega
  have counted : RegsIn [.viol] s (s.inc (F.AC_VIOL_COUNT_count u)) := wr (field 49228 0 32 (by decide)) .rfl _
  have judged := wr (field 49216 3 5 (by decide)) (wr (field 49216 1 2 (by decide))
    (wr (field 49216 0 1 (by decide)) counted 1) kind) n
  have told := wr (field 49216 16 13 (by decide)) (wr (field 49216 8 8 (by decide)) judged requester) len
  unfold State.acNote
  exact .ite (fun _ => counted) (fun _ => wr (field 49224 0 32 (by decide)) (wr (field 49220 0 32 (by decide))
    (wr (field 49216 29 1 (by decide)) told _) _) _)

theorem State.fireSource_raised (s : State) (src a b k : Nat) : BitsStay (F.EVT_RAISED_raised k) s (s.fireSource src a b) :=
  .of_eq (by simp [State.rd])

theorem BitsStay.raiseQuiet {k : Nat} {s t : State} (h : BitsStay (F.EVT_RAISED_raised k) s t) (hk : k < 4) (src a b : Nat) :
    BitsStay (F.EVT_RAISED_raised k) s (t.raiseQuiet src a b) := by
  have set := (h.trans (t.fireSource_raised src a b k)).setRaised (n := src / 32) (src % 32)
  exact .ite set (set.trans (State.countMsix_raised _ _ hk))

theorem State.refuseEvent_raised (s : State) (a n : Nat) {k : Nat} (hk : k < 4) :
    BitsStay (F.EVT_RAISED_raised k) s (s.refuseEvent a n) := by
  have noted := BitsStay.of_in (s.acNote_in_viol (u := 3) (by decide) 1 4 32 a n) (raised_in hk) (by decide)
  have told := noted.wr_ne (g := F.HOST_ERR_err) (setBit ((s.acNote 3 1 4 32 a n).rd F.HOST_ERR_err) 4 true)
    (by simp only [Fld.key, F.EVT_RAISED_raised, F.HOST_ERR_err]; omega)
  exact .ite ((told.raiseQuiet hk _ _ _).raiseQuiet hk _ _ _) (told.raiseQuiet hk _ _ _)

theorem State.writeEvent_raised (s : State) (src a b : Nat) {k : Nat} (hk : k < 4) :
    BitsStay (F.EVT_RAISED_raised k) s (s.writeEvent src a b) := by
  unfold State.writeEvent
  simp only
  split
  · have lost : BitsStay (F.EVT_RAISED_raised k) s (s.inc F.EVT_LOST_count) :=
      .of_eq (State.rd_add_ne _ _ _ _ (by simp only [Fld.key, F.EVT_RAISED_raised, F.EVT_LOST_count]; omega))
    have dropped := lost.trans (.of_eq (t := { s.inc F.EVT_LOST_count with
      host := { s.host with evtDropped := s.host.evtDropped + 1 } }) rfl)
    have set := dropped.setRaised (n := 0) 4
    split
    · exact .ite set (set.trans (State.countMsix_raised _ _ hk))
    · exact dropped
  · split
    · exact s.refuseEvent_raised _ _ hk
    · exact .of_eq rfl

/-- A source raised while the host services run is recorded (R335). -/
theorem State.raiseSource_recorded {s : State} (on : s.pd .hostsvc = true) {src : Nat} (hs : src < 128) (a b : Nat) :
    bitOf ((s.raiseSource src a b).rd (F.EVT_RAISED_raised (src / 32))) (src % 32) = true := by
  have services : (s.fireSource src a b).pd .hostsvc = true := by simpa [State.pd, State.rd] using on
  have set := (s.fireSource src a b).bitOf_wr_setBit (f := F.EVT_RAISED_raised (src / 32)) (i := src % 32) (j := src % 32)
    (Nat.mod_lt _ (by decide))
  rw [decide_eq_true rfl, Bool.or_true] at set
  have k : src / 32 < 4 := by omega
  unfold State.raiseSource
  rw [if_neg (by simp [services])]
  refine BitsStay.trans (.ite ?_ .rfl) (.ite .rfl (State.countMsix_raised _ _ k)) (src % 32) (Nat.mod_lt _ (by decide)) set
  exact State.writeEvent_raised _ _ _ _ k

/-- An event bit that goes from 0 to 1 while enabled raises its source (R335). -/
theorem State.setEvt_recorded {s : State} {f en : Fld} {i src : Nat} (hs : src < 128) (off : bitOf (s.rd f) i = false)
    (enabled : bitOf (s.rd en) i = true) (on : s.pd .hostsvc = true) (ne : f.key ≠ en.key)
    (power : f.key ≠ F.PWR_DOMAINS_on.key) (offA offB : Nat) :
    bitOf ((s.setEvt f en (1 <<< i) src offA offB).rd (F.EVT_RAISED_raised (src / 32))) (src % 32) = true := by
  have rose : clearBits (1 <<< i) (s.rd f) = 1 <<< i := by
    have none : 1 <<< i &&& s.rd f = 0 := by
      rw [Nat.one_shiftLeft, Nat.and_comm, Nat.and_two_pow, ← bitOf_eq_testBit, off]
      simp
    rw [clearBits, none, Nat.sub_zero]
  have both : 1 <<< i &&& s.rd en ≠ 0 := by
    rw [Nat.one_shiftLeft, Nat.and_comm, Nat.and_two_pow, ← bitOf_eq_testBit, enabled]
    simp
  unfold State.setEvt
  simp only
  rw [State.rd_wr_ne _ _ _ _ ne, rose, if_neg both]
  exact State.raiseSource_recorded (by rw [State.pd, State.rd_wr_ne _ _ _ _ power]; exact on) hs _ _

end Sys2Proof.Machine

/-! PROOFS. The Skein ports: what an event of a port shows, and the states of links, chains and stations. -/

namespace Sys2Proof.Machine

/-! Registers and events of a Skein port (R102). -/

/-- A field of the registers of port p (R102). -/
abbrev Fld.AtPort (f : Fld) (p : Nat) : Prop := f.lo < 32 ∧ 0x10000 + 0x1000 * p ≤ f.off ∧ f.off < 0x11000 + 0x1000 * p

theorem Fld.AtPort.skein {f : Fld} {p : Nat} (hf : f.AtPort p) (hp : p < 16) : f.In .skein := by
  simp only [Fld.In, Bank.range]
  omega

theorem statusFields (p : Nat) : (F.SK_STATUS_link p).AtPort p ∧ (F.SK_STATUS_chain p).AtPort p ∧
    (F.SK_STATUS_proxy p).AtPort p ∧ (F.SK_STATUS_over_budget p).AtPort p ∧ (F.SK_OWD_FAR_owd p).AtPort p := by
  simp only [Fld.AtPort, F.SK_STATUS_link, F.SK_STATUS_chain, F.SK_STATUS_proxy, F.SK_STATUS_over_budget, F.SK_OWD_FAR_owd]
  omega

theorem positionFields {p q : Nat} (hq : q < 16) :
    (F.SK_STN_STATE_state p q).AtPort p ∧ (F.SK_STN_STATE_missed p q).AtPort p ∧
    (F.SK_STN_IDENT_ident p q).AtPort p ∧ (F.SK_STN_RTT_rtt p q).AtPort p ∧ (F.SK_STN_DELAY_delay p q).AtPort p := by
  simp only [Fld.AtPort, F.SK_STN_STATE_state, F.SK_STN_STATE_missed, F.SK_STN_IDENT_ident, F.SK_STN_RTT_rtt,
    F.SK_STN_DELAY_delay]
  omega

/-- A write of a port's register is a write of the Skein bank. -/
theorem RegsIn.wrPort {s t : State} (h : RegsIn [.skein] s t) {f : Fld} {p : Nat} (hf : f.AtPort p) (hp : p < 16) (v : Nat) :
    RegsIn [.skein] s (t.wr f v) :=
  h.wr f v .skein (hf.skein hp).1 (by decide) (hf.skein hp).2.1 (hf.skein hp).2.2

/-- An event of a port leaves the port's other registers. -/
theorem State.skEvt_rd_of_off (s : State) {p : Nat} (i : Nat) (hp : p < 16) {f : Fld} (hf : f.AtPort p)
    (ne : f.off ≠ (F.SK_EVT_STATUS_evt p).off) : (s.skEvt p i).rd f = s.rd f := by
  rw [s.skEvt_rd_skein i hp (hf.skein hp)]
  exact State.rd_wr_ne _ _ _ _ (Fld.key_ne_off (by simp [F.SK_EVT_STATUS_evt]) hf.1 ne.symm)

/-- Event bit i of port p is shown, recorded as raised where it rose while enabled (R335), and the image stays. -/
def EventShown (s t : State) (p i : Nat) : Prop :=
  bitOf (t.rd (F.SK_EVT_STATUS_evt p)) i = true ∧
    (bitOf (s.rd (F.SK_EVT_STATUS_evt p)) i = false → bitOf (s.rd (F.SK_EVT_ENABLE_en p)) i = true →
      s.pd .hostsvc = true → bitOf (t.rd (F.EVT_RAISED_raised 0)) (16 + p) = true) ∧ t.image = s.image

theorem State.skEvt_shown (s : State) {p i : Nat} (hp : p < 16) (hi : i < 10) : EventShown s (s.skEvt p i) p i := by
  refine ⟨s.skEvt_bit hp hi, fun off enabled on => ?_, (s.skEvt_keeps p i).parts .image (by decide)⟩
  have recorded := State.setEvt_recorded (src := 16 + p) (by omega) off enabled on
    (by simp only [Fld.key, F.SK_EVT_STATUS_evt, F.SK_EVT_ENABLE_en]; omega)
    (by simp only [Fld.key, F.SK_EVT_STATUS_evt, F.PWR_DOMAINS_on]; omega) (0x1000C + 0x1000 * p) (0x10008 + 0x1000 * p)
  rwa [Nat.div_eq_of_lt (by omega), Nat.mod_eq_of_lt (by omega)] at recorded

/-- An event shown after a write of another register of the port is shown after what the write began with. -/
theorem EventShown.after_wr {s t : State} {p i : Nat} {f : Fld} {v : Nat} (h : EventShown (s.wr f v) t p i) (hf : f.AtPort p)
    (evt : f.off ≠ (F.SK_EVT_STATUS_evt p).off) (en : f.off ≠ (F.SK_EVT_ENABLE_en p).off) : EventShown s t p i := by
  obtain ⟨bit, recorded, image⟩ := h
  have power : (s.wr f v).pd .hostsvc = s.pd .hostsvc := by
    rw [State.pd, State.rd_wr_ne _ _ _ _ (Fld.key_ne_off hf.1 (by decide) (by simp only [F.PWR_DOMAINS_on]; omega))]
    rfl
  rw [State.rd_wr_ne _ _ _ _ (Fld.key_ne_off hf.1 (by simp [F.SK_EVT_STATUS_evt]) evt),
    State.rd_wr_ne _ _ _ _ (Fld.key_ne_off hf.1 (by simp [F.SK_EVT_ENABLE_en]) en), power] at recorded
  exact ⟨bit, recorded, image⟩

/-! Links (R98, R102). -/

/-- A port whose lane has completed training: UP, its chain as its map says, and no mark of the far end's counted. -/
def State.laneUp (s : State) (p : Nat) : State :=
  let s := s.wr (F.SK_STATUS_link p) 2
  let s := s.wr (F.SK_STATUS_chain p) (if (s.portStations p).isEmpty then 0 else 1)
  let s := s.setPort p { s.port p with marksMissing := 0, marksRun := 0, markSeen := false, echoOut := [] }
  { s with skein := { s.skein with
    rxAlive := forgetPort p (fun _ => false) s.skein.rxAlive
    txAlive := forgetPort p (fun t => t == 3) s.skein.txAlive } }

theorem exec_skeinLinkChange {s : State} {p : Fin 16} (on : s.pd .skein = true) (enabled : s.act (F.SK_CTRL_enable p.val) = 1) :
    exec (.skeinLinkChange p .up) s = .next (s.laneUp p.val) ∧
      exec (.skeinLinkChange p .training) s = .next (s.laneDown p.val 1) ∧
      exec (.skeinLinkChange p .down) s = .next (s.laneDown p.val 0) := by
  have runs : ¬(!s.pd .skein || !s.aon (F.SK_CTRL_enable p.val)) = true := by simp [on, State.aon, enabled]
  exact ⟨if_neg runs, if_neg runs, if_neg runs⟩

theorem exec_skeinLinkChange_of_disabled {s : State} {p : Fin 16} (disabled : s.act (F.SK_CTRL_enable p.val) = 0)
    (l : LinkLevel) : exec (.skeinLinkChange p l) s = .next s :=
  if_pos (by simp [State.aon, disabled])

theorem State.laneUp_shows (s : State) (p : Nat) :
    (s.laneUp p).rd (F.SK_STATUS_link p) = 2 ∧ ((s.laneUp p).port p).marksMissing = 0 ∧ ((s.laneUp p).port p).markSeen = false ∧
      (s.laneUp p).rd (F.SK_STATUS_chain p) = (if (s.portStations p).isEmpty then 0 else 1) ∧ (s.laneUp p).image = s.image := by
  have port : (s.laneUp p).port p =
      { s.port p with marksMissing := 0, marksRun := 0, markSeen := false, echoOut := [] } := State.port_setPort_same _ _ _
  have link : (s.laneUp p).rd (F.SK_STATUS_link p) = 2 :=
    (State.rd_wr_ne _ (F.SK_STATUS_chain p) _ _ (by simp [Fld.key, F.SK_STATUS_chain, F.SK_STATUS_link])).trans
      (State.rd_wr_same _ _ _)
  have chain : (s.laneUp p).rd (F.SK_STATUS_chain p) = (if (s.portStations p).isEmpty then 0 else 1) % 4 :=
    State.rd_wr_same _ _ _
  refine ⟨link, ?_, ?_, ?_, rfl⟩
  · rw [port]
  · rw [port]
  · rw [chain]
    split <;> rfl

/-- A lane that goes down shows it, and where it was up with the event (R98). -/
theorem State.laneDown_shows (s : State) {p level : Nat} (hp : p < 16) (hl : level < 4) :
    (s.laneDown p level).rd (F.SK_STATUS_link p) = level ∧
      (s.rd (F.SK_STATUS_link p) = 2 → EventShown s (s.laneDown p level) p 9) := by
  obtain ⟨link, -⟩ := statusFields p
  have written : (s.wr (F.SK_STATUS_link p) level).rd (F.SK_STATUS_link p) = level :=
    (State.rd_wr_same _ _ _).trans (Nat.mod_eq_of_lt hl)
  unfold State.laneDown
  by_cases up : s.skUp p = true
  · simp only [up, if_true]
    exact ⟨(State.skEvt_rd_of_off _ 9 hp link (by simp [F.SK_STATUS_link, F.SK_EVT_STATUS_evt])).trans written,
      fun _ => (State.skEvt_shown _ hp (by decide)).after_wr link (by simp [F.SK_STATUS_link, F.SK_EVT_STATUS_evt])
        (by simp [F.SK_STATUS_link, F.SK_EVT_ENABLE_en])⟩
  · simp only [if_neg up]
    exact ⟨written, fun h => absurd (State.skUp_iff.2 h) up⟩

/-! Chains (R98). -/

theorem State.skHears_of_up {s : State} {p : Nat} (on : s.pd .skein = true) (up : s.rd (F.SK_STATUS_link p) = 2) :
    s.skHears p = true := by
  simp [State.skHears, on, State.skUp_iff.2 up]

theorem chainBroken_does {s : State} {p : Fin 16} (on : s.pd .skein = true) (up : s.rd (F.SK_STATUS_link p.val) = 2)
    (intact : s.rd (F.SK_STATUS_chain p.val) = 1) (missing : 2 ≤ (s.port p.val).marksMissing) :
    Does (.chainBroken p) s (fun t => t.rd (F.SK_STATUS_chain p.val) = 2 ∧ t.rd (F.SK_OWD_FAR_owd p.val) = 0 ∧
      EventShown s t p.val 3) := by
  obtain ⟨-, chain, -, -, owd⟩ := statusFields p.val
  have run : exec (.chainBroken p) s =
      .next (((s.wr (F.SK_STATUS_chain p.val) 2).wr (F.SK_OWD_FAR_owd p.val) 0).skEvt p.val 3) :=
    if_pos (by simp [State.skHears_of_up on up, intact, missing])
  refine ⟨_, run, ?_, ?_, ?_⟩
  · rw [State.skEvt_rd_of_off _ 3 p.isLt chain (by simp [F.SK_STATUS_chain, F.SK_EVT_STATUS_evt]),
      State.rd_wr_ne _ _ _ _ (by simp [Fld.key, F.SK_STATUS_chain, F.SK_OWD_FAR_owd]; omega)]
    exact State.rd_wr_same _ _ _
  · rw [State.skEvt_rd_of_off _ 3 p.isLt owd (by simp [F.SK_OWD_FAR_owd, F.SK_EVT_STATUS_evt])]
    exact State.rd_wr_same _ _ _
  · exact ((State.skEvt_shown _ p.isLt (by decide)).after_wr owd (by simp [F.SK_OWD_FAR_owd, F.SK_EVT_STATUS_evt])
      (by simp [F.SK_OWD_FAR_owd, F.SK_EVT_ENABLE_en])).after_wr chain (by simp [F.SK_STATUS_chain, F.SK_EVT_STATUS_evt])
      (by simp [F.SK_STATUS_chain, F.SK_EVT_ENABLE_en])

theorem chainIntact_does {s : State} {p : Fin 16} (on : s.pd .skein = true) (up : s.rd (F.SK_STATUS_link p.val) = 2)
    (broken : s.rd (F.SK_STATUS_chain p.val) = 2) (marks : 16 ≤ (s.port p.val).marksRun) :
    Does (.chainIntact p) s (fun t => t.rd (F.SK_STATUS_chain p.val) = 1 ∧ EventShown s t p.val 4) := by
  obtain ⟨-, chain, -⟩ := statusFields p.val
  have run : exec (.chainIntact p) s = .next ((s.wr (F.SK_STATUS_chain p.val) 1).skEvt p.val 4) :=
    if_pos (by simp [State.skHears_of_up on up, broken, marks])
  refine ⟨_, run, ?_, ?_⟩
  · rw [State.skEvt_rd_of_off _ 4 p.isLt chain (by simp [F.SK_STATUS_chain, F.SK_EVT_STATUS_evt])]
    exact State.rd_wr_same _ _ _
  · exact (State.skEvt_shown _ p.isLt (by decide)).after_wr chain (by simp [F.SK_STATUS_chain, F.SK_EVT_STATUS_evt])
      (by simp [F.SK_STATUS_chain, F.SK_EVT_ENABLE_en])

theorem budgetComparison_does {s : State} {p : Fin 16} (on : s.pd .skein = true) (up : s.rd (F.SK_STATUS_link p.val) = 2) :
    Does (.budgetComparison p) s (fun t =>
      t.rd (F.SK_STATUS_over_budget p.val) = (if s.overBudget p.val then 1 else 0) ∧
        (s.overBudget p.val = true → EventShown s t p.val 8)) := by
  obtain ⟨-, -, -, flag, -⟩ := statusFields p.val
  have run : exec (.budgetComparison p) s = .next (
      if s.overBudget p.val then (s.wrb (F.SK_STATUS_over_budget p.val) (s.overBudget p.val)).skEvt p.val 8
      else s.wrb (F.SK_STATUS_over_budget p.val) (s.overBudget p.val)) :=
    if_neg (by simp [State.skHears_of_up on up])
  have written : (s.wrb (F.SK_STATUS_over_budget p.val) (s.overBudget p.val)).rd (F.SK_STATUS_over_budget p.val) =
      if s.overBudget p.val then 1 else 0 := State.rd_wrb_same _ _ (by simp [F.SK_STATUS_over_budget])
  cases late : s.overBudget p.val <;> rw [late] at run written
  · exact ⟨_, run, written, fun h => nomatch h⟩
  · refine ⟨_, run, Eq.trans (State.skEvt_rd_of_off _ 8 p.isLt flag ?_) written, fun _ =>
      (State.skEvt_shown _ p.isLt (by decide)).after_wr flag ?_ ?_⟩ <;>
      simp [F.SK_STATUS_over_budget, F.SK_EVT_STATUS_evt, F.SK_EVT_ENABLE_en]

/-! Positions (R96). -/

/-- A position's number, taken apart. -/
theorem position_div_mod (p : Nat) (pos : Fin 16) : (16 * p + pos.val) / 16 = p ∧ (16 * p + pos.val) % 16 = pos.val := by
  omega

theorem State.stnState_at (s : State) (p : Nat) (pos : Fin 16) :
    s.stnState (16 * p + pos.val) = s.rd (F.SK_STN_STATE_state p pos.val) := by
  rw [State.stnState, (position_div_mod p pos).1, (position_div_mod p pos).2]

theorem State.setStn_none (s : State) (p : Nat) (pos : Fin 16) (state : Nat) :
    s.setStn (16 * p + pos.val) state none = s.wr (F.SK_STN_STATE_state p pos.val) state := by
  rw [State.setStn, (position_div_mod p pos).1, (position_div_mod p pos).2]

theorem State.setStn_some (s : State) (p : Nat) (pos : Fin 16) (state i : Nat) :
    s.setStn (16 * p + pos.val) state (some i) = (s.wr (F.SK_STN_STATE_state p pos.val) state).skEvt p i := by
  rw [State.setStn, (position_div_mod p pos).1, (position_div_mod p pos).2]

/-- The register of a position is none of the port's event registers. -/
theorem position_off_ne (p : Nat) (pos : Fin 16) :
    (F.SK_STN_STATE_state p pos.val).off ≠ (F.SK_EVT_STATUS_evt p).off ∧
      (F.SK_STN_STATE_state p pos.val).off ≠ (F.SK_EVT_ENABLE_en p).off ∧
      (F.SK_STN_IDENT_ident p pos.val).off ≠ (F.SK_EVT_STATUS_evt p).off := by
  simp only [F.SK_STN_STATE_state, F.SK_EVT_STATUS_evt, F.SK_EVT_ENABLE_en, F.SK_STN_IDENT_ident]
  omega

/-- A position whose change of state is an event shows both. -/
theorem State.setStn_shows (s : State) {p : Nat} (hp : p < 16) (pos : Fin 16) {state i : Nat} (hs : state < 8) (hi : i < 10) :
    (s.setStn (16 * p + pos.val) state (some i)).rd (F.SK_STN_STATE_state p pos.val) = state ∧
      EventShown s (s.setStn (16 * p + pos.val) state (some i)) p i := by
  obtain ⟨field, -⟩ := positionFields (p := p) pos.isLt
  obtain ⟨evt, en, -⟩ := position_off_ne p pos
  rw [State.setStn_some]
  exact ⟨(State.skEvt_rd_of_off _ i hp field evt).trans ((State.rd_wr_same _ _ _).trans (Nat.mod_eq_of_lt hs)),
    (State.skEvt_shown _ hp hi).after_wr field evt en⟩

theorem stationLost_does {s : State} {p pos : Fin 16} (on : s.pd .skein = true)
    (present : s.rd (F.SK_STN_STATE_state p.val pos.val) = 3)
    (silent : s.act (F.STATION_MAP_1_holdoff (16 * p.val + pos.val)) ≤ s.rd (F.SK_STN_STATE_missed p.val pos.val)) :
    Does (.stationLost p pos) s (fun t => t.rd (F.SK_STN_STATE_state p.val pos.val) = 4 ∧ EventShown s t p.val 1) :=
  ⟨_, if_pos (by simp [on, State.stnState_at, present, silent]), s.setStn_shows p.isLt pos (by decide) (by decide)⟩

theorem joiningTimeout_does {s : State} {p pos : Fin 16} (on : s.pd .skein = true)
    (joining : s.rd (F.SK_STN_STATE_state p.val pos.val) = 2) :
    Does (.joiningTimeout p pos) s (fun t => t.rd (F.SK_STN_STATE_state p.val pos.val) = 1 ∧ RegsIn [.skein] s t ∧
      OnlyRegs s t) := by
  have run : exec (.joiningTimeout p pos) s = .next (s.setStn (16 * p.val + pos.val) 1 none) :=
    if_pos (by simp [on, State.stnState_at, joining])
  rw [State.setStn_none] at run
  exact ⟨_, run, State.rd_wr_same _ _ _, .wrPort .rfl (positionFields pos.isLt).1 p.isLt _, .wr .rfl _ _⟩

/-! The counters of a port (R102). -/

theorem skClearCnt_does {s : State} {p : Fin 16} (on : s.pd .skein = true) : Does (.skClearCnt p) s (fun t =>
    (∀ j : Fin 7, t.rd (F.SK_CNT_count p.val j.val) = 0) ∧ RegsIn [.skein] s t ∧ OnlyRegs s t) := by
  have run : exec (.skClearCnt p) s = .next ((upTo 7).foldl (fun s j => s.wr (F.SK_CNT_count p.val j) 0) s) :=
    if_neg (by simp [on])
  refine ⟨_, run, fun j => ?_, RegsIn.of_next (execSkClearCnt_in p s) run, .foldl _ _ .rfl (fun u j h => h.wr _ _)⟩
  exact rd_foldl_of_mem s (mem_upTo.2 j.isLt) (fun u => State.rd_wr_same _ _ _)
    (fun u i ne => State.rd_wr_ne _ _ _ _ (by simp only [Fld.key, F.SK_CNT_count]; omega))

theorem skeinStatesChange : SkeinStatesChange := by
  intro s p pos on link chain stn shows
  refine ⟨fun enabled => ⟨_, (exec_skeinLinkChange on enabled).1, s.laneUp_shows p.val⟩, fun enabled => ?_,
    fun disabled l => ⟨s, exec_skeinLinkChange_of_disabled disabled l, rfl⟩,
    chainBroken_does on, chainIntact_does on, stationLost_does on, joiningTimeout_does on, budgetComparison_does on,
    skClearCnt_does on⟩
  obtain ⟨-, training, down⟩ := exec_skeinLinkChange on enabled
  exact ⟨⟨_, down, s.laneDown_shows p.isLt (by decide)⟩, ⟨_, training, s.laneDown_shows p.isLt (by decide)⟩⟩

end Sys2Proof.Machine

/-! PROOFS. Stations that join: JOIN records and the SETUP frames that answer them. -/

namespace Sys2Proof.Machine

/-! Numbers of bytes. -/

theorem beNat_lt (b : Bytes) : beNat b < 256 ^ b.length := by
  induction b using List.reverseRecOn with
  | nil => decide
  | append_singleton b x ih =>
    have byte := x.isLt
    rw [beNat_append, List.length_append, Nat.pow_add]
    simp only [beNat, List.foldl_cons, List.foldl_nil, List.length_singleton] at ih ⊢
    omega

theorem slice_length (b : Bytes) (i len : Nat) : (slice b i len).length = len := by
  simp only [slice, List.length_append, List.length_replicate, List.length_take]
  omega

theorem beAt_lt (b : Bytes) (i len : Nat) : beAt b i len < 256 ^ len := by
  have bound := beNat_lt (slice b i len)
  rwa [slice_length] at bound

/-! JOIN records (R89, R95, R96). -/

@[simp] theorem State.posn_setPosn_same (s : State) (n : Nat) (x : SkeinPos) : (s.setPosn n x).posn n = x :=
  SMap.getD_put_same _ _ _ _

/-- A position whose record fits: JOINING, its alive counter forgotten and an answer owed. -/
def State.joins (s : State) (n : Nat) : State :=
  let s := s.setStn n 2 none
  let s : State := { s with skein := { s.skein with rxAlive := SMap.del s.skein.rxAlive (skKey 1 n) } }
  s.setPosn n { s.posn n with inRun := 0, owesAnswer := true }

/-- A position whose record does not fit: MISMATCH, with the event where it was in another state. -/
def State.mismatches (s : State) (n : Nat) : State := if s.stnState n == 5 then s else s.setStn n 5 (some 2)

/-- A JOIN record of a present position shows the identity it carries, and is judged by its fit. -/
theorem exec_joinFrameReceived {s : State} {p pos : Fin 16} {b : Bytes} (on : s.pd .skein = true)
    (up : s.rd (F.SK_STATUS_link p.val) = 2) (good : sealOk b = true) (type : (readSkein b).type = 5)
    (whole : skeinWhole b 16 = true) (place : joinPos (s.portStations p.val).length (byteAt (readSkein b).payload 12)
      (byteAt (readSkein b).payload 13) = some pos.val) (present : s.present (16 * p.val + pos.val) = true) :
    exec (.joinFrameReceived p b) s = .next (
      if s.joinFits (16 * p.val + pos.val) (readSkein b).payload then
        (s.wr (F.SK_STN_IDENT_ident p.val pos.val) (beAt (readSkein b).payload 0 2)).joins (16 * p.val + pos.val)
      else (s.wr (F.SK_STN_IDENT_ident p.val pos.val) (beAt (readSkein b).payload 0 2)).mismatches (16 * p.val + pos.val)) := by
  have length : b.length = 52 := by
    simp only [skeinWhole, Bool.and_eq_true, beq_iff_eq] at whole
    exact whole.1
  have hears : exec (.joinFrameReceived p b) s = .next (s.takeJoin p.val b) :=
    if_neg (by simp [State.skHears_of_up on up])
  rw [hears, State.takeJoin, if_neg (by simp [good, length])]
  simp only
  rw [if_neg (by simp [type]), if_neg (by simp [whole]), place]
  simp only
  rw [if_neg (by simp [present])]
  rfl

/-- Of the registers a position that joins writes its state alone. -/
theorem State.joins_rd (s : State) (p : Nat) (pos : Fin 16) (f : Fld) :
    (s.joins (16 * p + pos.val)).rd f = (s.wr (F.SK_STN_STATE_state p pos.val) 2).rd f := by
  rw [← State.setStn_none]
  rfl

theorem State.joins_posn (s : State) (n : Nat) : ((s.joins n).posn n).owesAnswer = true ∧ ((s.joins n).posn n).inRun = 0 := by
  constructor <;> rw [State.joins, State.posn_setPosn_same]

theorem State.mismatches_shows (s : State) {p : Nat} (hp : p < 16) (pos : Fin 16) :
    (s.mismatches (16 * p + pos.val)).rd (F.SK_STN_STATE_state p pos.val) = 5 ∧
      (s.rd (F.SK_STN_STATE_state p pos.val) ≠ 5 →
        bitOf ((s.mismatches (16 * p + pos.val)).rd (F.SK_EVT_STATUS_evt p)) 2 = true) ∧
      (s.mismatches (16 * p + pos.val)).rd (F.SK_STN_IDENT_ident p pos.val) = s.rd (F.SK_STN_IDENT_ident p pos.val) := by
  unfold State.mismatches
  rw [State.stnState_at]
  by_cases was : s.rd (F.SK_STN_STATE_state p pos.val) = 5
  · rw [if_pos (beq_iff_eq.2 was)]
    exact ⟨was, fun h => absurd was h, rfl⟩
  · rw [if_neg (fun h => was (beq_iff_eq.1 h))]
    obtain ⟨state, bit, -⟩ := s.setStn_shows hp pos (state := 5) (i := 2) (by decide) (by decide)
    refine ⟨state, fun _ => bit, ?_⟩
    obtain ⟨-, -, ident, -⟩ := positionFields (p := p) pos.isLt
    rw [State.setStn_some, State.skEvt_rd_of_off _ 2 hp ident (position_off_ne p pos).2.2,
      State.rd_wr_ne _ _ _ _ (by simp only [Fld.key, F.SK_STN_STATE_state, F.SK_STN_IDENT_ident]; omega)]

theorem joinFrameReceived_does {s : State} {p pos : Fin 16} {b : Bytes} (on : s.pd .skein = true)
    (up : s.rd (F.SK_STATUS_link p.val) = 2) (good : sealOk b = true) (type : (readSkein b).type = 5)
    (whole : skeinWhole b 16 = true) (place : joinPos (s.portStations p.val).length (byteAt (readSkein b).payload 12)
      (byteAt (readSkein b).payload 13) = some pos.val) (present : s.present (16 * p.val + pos.val) = true) :
    let n := 16 * p.val + pos.val
    let r := (readSkein b).payload
    Does (.joinFrameReceived p b) s (fun t =>
      t.rd (F.SK_STN_IDENT_ident p.val pos.val) = beAt r 0 2 ∧ t.image = s.image ∧
        (s.joinFits n r = true → t.rd (F.SK_STN_STATE_state p.val pos.val) = 2 ∧ (t.posn n).owesAnswer = true ∧
          (t.posn n).inRun = 0 ∧
          t.rd (F.SK_STN_STATE_missed p.val pos.val) = s.rd (F.SK_STN_STATE_missed p.val pos.val)) ∧
        (s.joinFits n r = false → t.rd (F.SK_STN_STATE_state p.val pos.val) = 5 ∧
          (s.rd (F.SK_STN_STATE_state p.val pos.val) ≠ 5 → bitOf (t.rd (F.SK_EVT_STATUS_evt p.val)) 2 = true))) := by
  intro n r
  have run := exec_joinFrameReceived on up good type whole place present
  have image {t : State} (h : exec (.joinFrameReceived p b) s = .next t) : t.image = s.image :=
    ((execJoinFrameReceived_keeps p b s).of_next h).parts .image (by decide)
  have identified : (s.wr (F.SK_STN_IDENT_ident p.val pos.val) (beAt r 0 2)).rd (F.SK_STN_IDENT_ident p.val pos.val) =
      beAt r 0 2 := (State.rd_wr_same _ _ _).trans (Nat.mod_eq_of_lt (beAt_lt r 0 2))
  have stateKept : (s.wr (F.SK_STN_IDENT_ident p.val pos.val) (beAt r 0 2)).rd (F.SK_STN_STATE_state p.val pos.val) =
      s.rd (F.SK_STN_STATE_state p.val pos.val) :=
    State.rd_wr_ne _ _ _ _ (by simp only [Fld.key, F.SK_STN_STATE_state, F.SK_STN_IDENT_ident]; omega)
  cases fits : s.joinFits (16 * p.val + pos.val) (readSkein b).payload with
  | true =>
    rw [fits, if_pos rfl] at run
    obtain ⟨owes, none⟩ := (s.wr (F.SK_STN_IDENT_ident p.val pos.val) (beAt r 0 2)).joins_posn n
    refine ⟨_, run, ?_, image run, fun _ => ⟨?_, owes, none, ?_⟩, fun h => nomatch h⟩
    · rw [State.joins_rd, State.rd_wr_ne _ _ _ _ (by simp only [Fld.key, F.SK_STN_STATE_state, F.SK_STN_IDENT_ident]; omega)]
      exact identified
    · rw [State.joins_rd]
      exact State.rd_wr_same _ _ _
    · rw [State.joins_rd, State.rd_wr_ne _ _ _ _ (by simp [Fld.key, F.SK_STN_STATE_state, F.SK_STN_STATE_missed]),
        State.rd_wr_ne _ _ _ _ (by simp only [Fld.key, F.SK_STN_STATE_missed, F.SK_STN_IDENT_ident]; omega)]
  | false =>
    rw [fits, if_neg Bool.false_ne_true] at run
    obtain ⟨state, event, ident⟩ := (s.wr (F.SK_STN_IDENT_ident p.val pos.val) (beAt r 0 2)).mismatches_shows p.isLt pos
    exact ⟨_, run, ident.trans identified, image run, fun h => absurd h Bool.false_ne_true,
      fun _ => ⟨state, fun h => event (stateKept ▸ h)⟩⟩

/-! SETUP frames (R88, R90, R93). -/

/-- The setup record of station n, of the settings in force, with the delays given (R90). -/
def State.setupRecord (s : State) (n d0 d1 : Nat) : Bytes :=
  beBytes 1 (n % 16) ++ beBytes 1 (s.portStations (n / 16)).length ++
    beBytes 2 (s.act (F.STATION_MAP_0_in_samples n)) ++ beBytes 2 (s.act (F.STATION_MAP_0_out_samples n)) ++
    beBytes 1 (s.act (F.STATION_MAP_0_rate_n n)) ++ [0] ++ beBytes 4 s.turnNs ++ beBytes 4 s.cutoffNs ++
    beBytes 4 d0 ++ beBytes 4 d1 ++ beBytes 8 s.turn.k

theorem State.setupRecord_head (s : State) (p : Nat) (pos : Fin 16) (d0 d1 : Nat) :
    ∃ rest, s.setupRecord (16 * p + pos.val) d0 d1 = beBytes 1 pos.val ++ beBytes 1 (s.portStations p).length ++
      beBytes 2 (s.act (F.STATION_MAP_0_in_samples (16 * p + pos.val))) ++
      beBytes 2 (s.act (F.STATION_MAP_0_out_samples (16 * p + pos.val))) ++ rest := by
  rw [State.setupRecord, (position_div_mod p pos).1, (position_div_mod p pos).2]
  simp only [List.append_assoc]
  exact ⟨_, rfl⟩

/-- The delays sent to station n are kept and shown, and its port has sent a SETUP frame in this turn (R88, R90). -/
def State.setupNoted (s : State) (n d0 d1 : Nat) : State :=
  let s := s.setPosn n { s.posn n with sent := some (d0, d1) }
  let s := s.setPort (n / 16) { s.port (n / 16) with setupTurn := some s.turn.k }
  s.wr (F.SK_STN_DELAY_delay (n / 16) (n % 16)) (if s.skEnd = 0 then d0 else d1)

/-- The SETUP frame of station n that an active module launches with the delays given (R90, R93). -/
def State.launchSetup (s : State) (n d0 d1 : Nat) : State :=
  (s.setupNoted n d0 d1).launchSkein 4 n 0 (s.setupNoted n d0 d1).epoch s.turn.k (s.boundaryU s.turn.k % unitSec / unitNs)
    (s.boundaryU s.turn.k % unitNs / 2 ^ 24) (s.setupRecord n d0 d1)

/-- The delays of a station take a free value at most. -/
theorem State.delays_state (s : State) (n : Nat) : ∃ fresh, (s.delays n).1 = { s with fresh := fresh } := by
  unfold State.delays
  simp only
  split_ifs
  all_goals exact ⟨_, rfl⟩

theorem State.sendSetup_of_active {s : State} (active : s.isActive = true) (n : Nat) :
    ∃ fresh d0 d1, s.sendSetup n = ({ s with fresh := fresh } : State).launchSetup n d0 d1 := by
  obtain ⟨fresh, drawn⟩ := s.delays_state n
  refine ⟨fresh, (s.delays n).2.1, (s.delays n).2.2, ?_⟩
  rw [← drawn, State.sendSetup, active]
  rfl

theorem State.launchSkein_out {s : State} {station : Nat} (up : s.skUp (station / 16) = true)
    (type flags epoch turn ns frac : Nat) (payload : Bytes) :
    ∃ alive, (s.launchSkein type station flags epoch turn ns frac payload).out = s.out ++ [.skein (station / 16)
      (skeinFrame type station flags epoch alive (s.act (F.STATION_MAP_1_holdoff station)) turn ns frac payload)] := by
  unfold State.launchSkein State.launchSkeinIn
  simp only
  rw [if_neg (by simp [up])]
  exact ⟨_, rfl⟩

theorem State.launchSkein_pos (s : State) (type station flags epoch turn ns frac : Nat) (payload : Bytes) :
    (s.launchSkein type station flags epoch turn ns frac payload).skein.pos = s.skein.pos := by
  unfold State.launchSkein State.launchSkeinIn
  simp only
  split <;> rfl

/-- From s to t the SETUP frame of a position goes out, its record beginning with the position, the number of stations and
the sample counts (R90, R93), and of the registers those of the Skein alone may change. -/
def SetupSent (s t : State) (p pos : Nat) : Prop :=
  let n := 16 * p + pos
  ∃ alive holdoff turn ns frac rest,
    t.out = s.out ++ [.skein p (skeinFrame 4 n 0 s.epoch alive holdoff turn ns frac
      (beBytes 1 pos ++ beBytes 1 (s.portStations p).length ++ beBytes 2 (s.act (F.STATION_MAP_0_in_samples n)) ++
        beBytes 2 (s.act (F.STATION_MAP_0_out_samples n)) ++ rest))] ∧ RegsIn [.skein] s t ∧ t.image = s.image

theorem State.setupNoted_in (s : State) (p pos : Fin 16) (d0 d1 : Nat) :
    RegsIn [.skein] s (s.setupNoted (16 * p.val + pos.val) d0 d1) := by
  obtain ⟨-, -, -, -, delay⟩ := positionFields (p := p.val) pos.isLt
  unfold State.setupNoted
  rw [(position_div_mod p.val pos).1, (position_div_mod p.val pos).2]
  exact .wrPort .rfl delay p.isLt _

theorem State.launchSetup_sent {s : State} {p pos : Fin 16} (up : s.rd (F.SK_STATUS_link p.val) = 2) (d0 d1 : Nat) :
    SetupSent s (s.launchSetup (16 * p.val + pos.val) d0 d1) p.val pos.val := by
  have noted := s.setupNoted_in p pos d0 d1
  have stillUp : (s.setupNoted (16 * p.val + pos.val) d0 d1).skUp ((16 * p.val + pos.val) / 16) = true := by
    obtain ⟨-, -, -, -, delay⟩ := positionFields (p := p.val) pos.isLt
    rw [(position_div_mod p.val pos).1, State.skUp_iff, State.setupNoted, (position_div_mod p.val pos).1,
      (position_div_mod p.val pos).2]
    refine (State.rd_wr_ne _ _ _ _ ?_).trans up
    simp only [Fld.key, F.SK_STN_DELAY_delay, F.SK_STATUS_link]
    omega
  have epoch : (s.setupNoted (16 * p.val + pos.val) d0 d1).epoch = s.epoch :=
    noted.rd_eq (f := F.PLY_EPOCH_epoch) (b := .ply) (by decide) (by decide)
  obtain ⟨alive, out⟩ := State.launchSkein_out stillUp 4 0 (s.setupNoted (16 * p.val + pos.val) d0 d1).epoch s.turn.k
    (s.boundaryU s.turn.k % unitSec / unitNs) (s.boundaryU s.turn.k % unitNs / 2 ^ 24)
    (s.setupRecord (16 * p.val + pos.val) d0 d1)
  obtain ⟨rest, record⟩ := s.setupRecord_head p.val pos d0 d1
  rw [← State.launchSetup, epoch, record, (position_div_mod p.val pos).1] at out
  exact ⟨alive, _, _, _, _, rest, out, noted.next (State.launchSkein_in _ _ _ _ _ _ _ _ _) (by decide),
    (State.launchSkein_keeps _ _ _ _ _ _ _ _ _).parts .image (by decide)⟩

theorem State.launchSetup_owesAnswer (s : State) (n d0 d1 : Nat) :
    ((s.launchSetup n d0 d1).posn n).owesAnswer = (s.posn n).owesAnswer := by
  have noted : (s.setupNoted n d0 d1).posn n = { s.posn n with sent := some (d0, d1) } := State.posn_setPosn_same _ _ _
  have launched : (s.launchSetup n d0 d1).posn n = (s.setupNoted n d0 d1).posn n :=
    congrArg (SMap.getD · n SkeinPos.idle) (State.launchSkein_pos _ _ _ _ _ _ _ _ _)
  rw [launched, noted]

/-- An active module that sends a position's SETUP frame leaves what the position is owed. -/
theorem State.sendSetup_owesAnswer {s : State} (active : s.isActive = true) (n : Nat) :
    ((s.sendSetup n).posn n).owesAnswer = (s.posn n).owesAnswer := by
  obtain ⟨fresh, d0, d1, sent⟩ := State.sendSetup_of_active active n
  rw [sent, State.launchSetup_owesAnswer]
  rfl

theorem State.sendSetup_sent {s : State} {p pos : Fin 16} (active : s.isActive = true)
    (up : s.rd (F.SK_STATUS_link p.val) = 2) : SetupSent s (s.sendSetup (16 * p.val + pos.val)) p.val pos.val := by
  obtain ⟨fresh, d0, d1, sent⟩ := State.sendSetup_of_active active (16 * p.val + pos.val)
  rw [sent]
  exact State.launchSetup_sent (s := { s with fresh := fresh }) up d0 d1

theorem State.isActive_of_lone_or_active {s : State} (h : s.plyState = 1 ∨ s.plyState = 2) : s.isActive = true := by
  rcases h with h | h <;> simp [State.isActive, h]

theorem State.setupSent_iff {s : State} {p : Nat} : s.setupSent p = true ↔ (s.port p).setupTurn = some s.turn.k := beq_iff_eq

theorem setupRecordRepeat_does {s : State} {p pos : Fin 16} (active : s.plyState = 1 ∨ s.plyState = 2)
    (up : s.rd (F.SK_STATUS_link p.val) = 2) (joined : s.rd (F.SK_STN_STATE_state p.val pos.val) ∈ [2, 3])
    (unsent : (s.port p.val).setupTurn ≠ some s.turn.k) :
    Does (.setupRecordRepeat p pos) s (fun t => SetupSent s t p.val pos.val) := by
  have active := State.isActive_of_lone_or_active active
  refine ⟨_, if_pos ?_, State.sendSetup_sent active up⟩
  rw [State.stnState_at]
  simpa [active, mt State.setupSent_iff.1 unsent] using joined

/-- A position is owed no answer any more (R95). -/
def State.answered (s : State) (n : Nat) : State := s.setPosn n { s.posn n with owesAnswer := false }

theorem joinAnswer_does {s : State} {p pos : Fin 16} (active : s.plyState = 1 ∨ s.plyState = 2)
    (up : s.rd (F.SK_STATUS_link p.val) = 2) (unsent : (s.port p.val).setupTurn ≠ some s.turn.k)
    (owes : (s.posn (16 * p.val + pos.val)).owesAnswer = true) (joining : s.rd (F.SK_STN_STATE_state p.val pos.val) = 2) :
    Does (.joinAnswer p pos) s (fun t => SetupSent s t p.val pos.val ∧ (t.posn (16 * p.val + pos.val)).owesAnswer = false) := by
  have active := State.isActive_of_lone_or_active active
  have run : exec (.joinAnswer p pos) s = .next ((s.answered (16 * p.val + pos.val)).sendSetup (16 * p.val + pos.val)) :=
    (if_neg (by simp [owes, mt State.setupSent_iff.1 unsent])).trans
      (if_pos (beq_iff_eq.2 ((State.stnState_at _ p.val pos).trans joining)))
  have sent : SetupSent (s.answered (16 * p.val + pos.val)) _ p.val pos.val := State.sendSetup_sent active up
  exact ⟨_, run, sent, (State.sendSetup_owesAnswer (s := s.answered (16 * p.val + pos.val)) active _).trans
    (congrArg SkeinPos.owesAnswer (State.posn_setPosn_same s (16 * p.val + pos.val) _))⟩

/-- A port that has sent a SETUP frame in a turn sends no other in it (R88). -/
theorem setup_waits {s : State} {p pos : Fin 16} (sent : (s.port p.val).setupTurn = some s.turn.k) :
    exec (.setupRecordRepeat p pos) s = .next s ∧ exec (.joinAnswer p pos) s = .next s :=
  ⟨if_neg (by simp [State.setupSent_iff.2 sent]), if_pos (by simp [State.setupSent_iff.2 sent])⟩

theorem stationsJoin : StationsJoin := by
  intro s p pos b on n r
  refine ⟨joinFrameReceived_does on, fun active up joined unsent => ⟨setupRecordRepeat_does active up joined unsent,
    joinAnswer_does active up unsent⟩, fun sent => ?_⟩
  obtain ⟨repeats, answers⟩ := setup_waits (pos := pos) sent
  exact ⟨⟨s, repeats, rfl⟩, ⟨s, answers, rfl⟩⟩

/-- Settles O25: the states by what each command writes and the event it shows, the SETUP frames by the record that they
carry. -/
theorem skeinLinksAndStations : Obligations.SkeinLinksAndStations := ⟨skeinStatesChange, stationsJoin⟩

end Sys2Proof.Machine

/-! PROOFS. Delays on the chain, proxy service, and what frames of the partner tell. -/

namespace Sys2Proof.Machine

/-! Marks and echoes (R90, R98). -/

/-- The far end's mark is seen on port p. -/
def State.sawMark (s : State) (p : Nat) : State := s.setPort p { s.port p with markSeen := true }

/-- The delay of a mark is shown, and with the partner's the chain's asymmetry is kept (R90). -/
def State.showDelay (s : State) (p far : Nat) : State :=
  let s := s.wr (F.SK_OWD_FAR_owd p) far
  if !s.plyUp then s
  else
    let near := s.free.1 % 2 ^ 32
    let s := s.free.2.wr (F.SK_OWD_NEAR_owd p) near
    let asym : Int := if s.skEnd = 1 then (far : Int) - near else (near : Int) - far
    s.setPort p { s.port p with asym := asym }

theorem exec_turnMarkReceived_of_broken {s : State} {p : Fin 16} (hears : s.skHears p.val = true)
    (broken : s.rd (F.SK_STATUS_chain p.val) = 2) (k6 : BitVec 6) (off : BitVec 10) (arr : BitVec 32) :
    exec (.turnMarkReceived p k6 off arr) s = .next (s.sawMark p.val) :=
  (if_neg (by simp [hears])).trans (if_pos broken)

theorem exec_turnMarkReceived_of_unbroken {s : State} {p : Fin 16} (hears : s.skHears p.val = true)
    (unbroken : s.rd (F.SK_STATUS_chain p.val) ≠ 2) (k6 : BitVec 6) (off : BitVec 10) (arr : BitVec 32) :
    exec (.turnMarkReceived p k6 off arr) s = .next ((s.sawMark p.val).showDelay p.val (arr.toNat - off.toNat)) := by
  refine (if_neg (by simp [hears])).trans ((if_neg unbroken).trans ?_)
  exact (apply_ite (Host.Outcome.next (φ := Fault) (ρ := Refusal)) _ _ _).symm

/-- A delay that is shown changes of its port's working state the asymmetry alone. -/
theorem State.showDelay_port (s : State) (p far : Nat) :
    ∃ asym, (s.showDelay p far).port p = { s.port p with asym := asym } := by
  unfold State.showDelay
  simp only
  split
  · exact ⟨(s.port p).asym, rfl⟩
  · exact ⟨_, State.port_setPort_same _ _ _⟩

theorem State.showDelay_owd (s : State) (p : Nat) {far : Nat} (hf : far < 2 ^ 32) :
    (s.showDelay p far).rd (F.SK_OWD_FAR_owd p) = far := by
  have written : (s.wr (F.SK_OWD_FAR_owd p) far).rd (F.SK_OWD_FAR_owd p) = far :=
    (State.rd_wr_same _ _ _).trans (Nat.mod_eq_of_lt hf)
  unfold State.showDelay
  simp only
  split
  · exact written
  · exact (State.rd_wr_ne _ (F.SK_OWD_NEAR_owd p) _ _ (by simp [Fld.key, F.SK_OWD_NEAR_owd, F.SK_OWD_FAR_owd])).trans written

theorem turnMarkReceived_does {s : State} {p : Fin 16} (hears : s.skHears p.val = true) (k6 : BitVec 6) (off : BitVec 10)
    (arr : BitVec 32) : Does (.turnMarkReceived p k6 off arr) s (fun t =>
      (t.port p.val).markSeen = true ∧ (t.port p.val).marksRun = (s.port p.val).marksRun ∧ t.image = s.image ∧ t.turn = s.turn ∧
        (s.rd (F.SK_STATUS_chain p.val) ≠ 2 → t.rd (F.SK_OWD_FAR_owd p.val) = arr.toNat - off.toNat) ∧
        (s.rd (F.SK_STATUS_chain p.val) = 2 → t.regs = s.regs)) := by
  have seen : (s.sawMark p.val).port p.val = { s.port p.val with markSeen := true } := State.port_setPort_same _ _ _
  by_cases broken : s.rd (F.SK_STATUS_chain p.val) = 2
  · refine ⟨_, exec_turnMarkReceived_of_broken hears broken k6 off arr, ?_, ?_, rfl, rfl, fun h => absurd broken h,
      fun _ => rfl⟩ <;> rw [seen]
  · have run := exec_turnMarkReceived_of_unbroken hears broken k6 off arr
    have keeps := (execTurnMarkReceived_keeps p k6 off arr s).of_next run
    obtain ⟨asym, port⟩ := (s.sawMark p.val).showDelay_port p.val (arr.toNat - off.toNat)
    rw [seen] at port
    refine ⟨_, run, ?_, ?_, keeps.parts .image (by decide), keeps.parts .turn (by decide),
      fun _ => State.showDelay_owd _ _ (by omega), fun h => absurd h broken⟩ <;> rw [port]

/-- The answer to an echo request ends the request, and its round trip counts in the position's mean of 16 (R90). -/
def State.echoAnswered (s : State) (p pos seq rtt : Nat) : State :=
  let n := 16 * p + pos
  let rtts := (rtt :: (s.posn n).rtts).take 16
  ((s.setPort p { s.port p with echoOut := (s.port p).echoOut.erase (pos, seq) }).setPosn n
    { s.posn n with rtts := rtts }).wr (F.SK_STN_RTT_rtt p pos) (meanRtt rtts)

theorem State.echoAnswered_shows (s : State) (p pos seq rtt : Nat) :
    let t := s.echoAnswered p pos seq rtt
    let rtts := (rtt :: (s.posn (16 * p + pos)).rtts).take 16
    (t.port p).echoOut = (s.port p).echoOut.erase (pos, seq) ∧ (t.posn (16 * p + pos)).rtts = rtts ∧
      t.rd (F.SK_STN_RTT_rtt p pos) = meanRtt rtts % 2 ^ 32 ∧ t.image = s.image := by
  intro t rtts
  have port : t.port p = { s.port p with echoOut := (s.port p).echoOut.erase (pos, seq) } := State.port_setPort_same _ _ _
  have posn : t.posn (16 * p + pos) = { s.posn (16 * p + pos) with rtts := rtts } := State.posn_setPosn_same _ _ _
  exact ⟨congrArg SkeinPort.echoOut port, congrArg SkeinPos.rtts posn, State.rd_wr_same _ _ _, rfl⟩

theorem echoRspReceived_does {s : State} {p pos : Fin 16} (hears : s.skHears p.val = true) {seq : BitVec 8}
    (el : BitVec 32) (et : BitVec 16) (asked : (pos.val, seq.toNat) ∈ (s.port p.val).echoOut) :
    let rtts := ((el.toNat - et.toNat) :: (s.posn (16 * p.val + pos.val)).rtts).take 16
    Does (.echoRspReceived p pos seq el et) s (fun t =>
      (t.port p.val).echoOut = (s.port p.val).echoOut.erase (pos.val, seq.toNat) ∧
        (t.posn (16 * p.val + pos.val)).rtts = rtts ∧
        t.rd (F.SK_STN_RTT_rtt p.val pos.val) = meanRtt rtts % 2 ^ 32 ∧ RegsIn [.skein] s t ∧ t.image = s.image) := by
  intro rtts
  have run : exec (.echoRspReceived p pos seq el et) s =
      .next (s.echoAnswered p.val pos.val seq.toNat (el.toNat - et.toNat)) := if_neg (by simpa [hears] using asked)
  obtain ⟨ended, counted, mean, image⟩ := s.echoAnswered_shows p.val pos.val seq.toNat (el.toNat - et.toNat)
  exact ⟨_, run, ended, counted, mean, RegsIn.of_next (execEchoRspReceived_in p pos seq el et s) run, image⟩

theorem skeinDelaysMeasured : SkeinDelaysMeasured := fun _ _ _ up on =>
  ⟨turnMarkReceived_does (State.skHears_of_up on up), fun _ el et => echoRspReceived_does (State.skHears_of_up on up) el et⟩

/-! Proxy service (R100). -/

/-- The stations of a list are served, and port p's flag shows whether one of them is its own. -/
def State.serve (s : State) (p : Nat) (served : List Nat) : State :=
  ({ s with skein := { s.skein with proxy := served } } : State).proxyReg p

theorem State.serve_in (s : State) {p : Nat} (hp : p < 16) (served : List Nat) : RegsIn [.skein] s (s.serve p served) := by
  obtain ⟨-, -, proxy, -⟩ := statusFields p
  exact .wrPort .rfl proxy hp _

theorem State.serve_flag (s : State) (p : Nat) (served : List Nat) :
    (s.serve p served).rd (F.SK_STATUS_proxy p) = bit (served.any (fun n => n / 16 == p)) :=
  State.rd_wrb_same _ _ (by simp [F.SK_STATUS_proxy])

theorem proxyStart_does {s : State} {p pos : Fin 16} {k : Nat} (standby : s.plyState = 4)
    (lacked : SMap.find s.skein.proxyFrom (16 * p.val + pos.val) = some k) (due : k + 2 ≤ s.turn.k)
    (unserved : 16 * p.val + pos.val ∉ s.skein.proxy) :
    Does (.proxyStart p pos) s (fun t => t.skein = { s.skein with proxy := (16 * p.val + pos.val) :: s.skein.proxy } ∧
      t.rd (F.SK_STATUS_proxy p.val) = 1 ∧ RegsIn [.skein] s t) := by
  have run : exec (.proxyStart p pos) s = .next (s.serve p.val ((16 * p.val + pos.val) :: s.skein.proxy)) :=
    if_pos (by simp [State.isStandby, standby, lacked, due, unserved])
  refine ⟨_, run, rfl, (s.serve_flag _ _).trans (bit_eq_one.2 ?_), s.serve_in p.isLt _⟩
  exact List.any_eq_true.2 ⟨_, List.mem_cons_self, beq_iff_eq.2 (position_div_mod p.val pos).1⟩

theorem proxyStop_does {s : State} {p pos : Fin 16} (reached : SMap.find s.skein.proxyFrom (16 * p.val + pos.val) = none)
    (served : s.skein.proxy = [16 * p.val + pos.val]) :
    Does (.proxyStop p pos) s (fun t => t.skein = { s.skein with proxy := [] } ∧ t.rd (F.SK_STATUS_proxy p.val) = 0 ∧
      RegsIn [.skein] s t) := by
  have erased : s.skein.proxy.erase (16 * p.val + pos.val) = [] := by simp [served]
  have run : exec (.proxyStop p pos) s = .next (s.serve p.val (s.skein.proxy.erase (16 * p.val + pos.val))) :=
    if_pos (by simp [SMap.has, reached, served])
  rw [erased] at run
  exact ⟨_, run, rfl, s.serve_flag _ _, s.serve_in p.isLt _⟩

/-! Frames of the partner that crossed the chain (R87, R279). -/

/-- The alive counter of a frame changes no register but the counts of its port (R81). -/
theorem State.skClass_in (s : State) {p : Nat} (hp : p < 16) (key alive : Nat) :
    RegsIn [.skein] s (s.skClass p key alive).1 := by
  by_cases repeated : aliveClass s.skein.rxAlive key s.time.ticks alive = .repeated
  · rw [State.skClass_of_repeated p repeated]
    exact s.skCount_in hp (by decide)
  · rw [State.skClass_of_fresh p repeated]
    exact .upd (.ite (fun _ => s.skCount_in hp (by decide)) (fun _ => .rfl))

theorem exec_partnerFrameCrossed {s : State} {p : Fin 16} {b : Bytes} (hears : s.skHears p.val = true) (good : sealOk b = true)
    (length : 36 ≤ b.length) (type : (readSkein b).type ∈ [2, 3, 4])
    (whole : skeinWhole b (s.crossedLen (readSkein b).type (readSkein b).station) = true) :
    exec (.partnerFrameCrossed p b) s = .next ((s.skClass p.val (skKey (readSkein b).type (readSkein b).station)
      (readSkein b).alive).1.hearEpoch (readSkein b).epoch) := by
  have kind : 2 ≤ (readSkein b).type ∧ (readSkein b).type ≤ 4 := by
    simp only [List.mem_cons, List.not_mem_nil, or_false] at type
    omega
  have run : exec (.partnerFrameCrossed p b) s = .next (s.takeCrossed p.val b) := if_neg (by simp [hears])
  rw [run, State.takeCrossed, if_neg (by simp [good, length])]
  simp only
  rw [if_pos kind, if_neg (by simp [whole])]

theorem State.hearEpoch_partnerEpoch (s : State) (e : Nat) :
    (s.hearEpoch e).ply.partnerEpoch = max s.ply.partnerEpoch e := by
  unfold State.hearEpoch
  simp only
  split <;> rfl

/-- A module that leads keeps its own epoch. -/
theorem State.hearEpoch_of_lone {s : State} (lone : s.plyState = 1) (e : Nat) :
    (s.hearEpoch e).rd F.PLY_EPOCH_epoch = s.rd F.PLY_EPOCH_epoch := by
  have leads : (s.isActive || s.plyState == 0) = true := by simp [State.isActive, lone]
  unfold State.hearEpoch
  simp only
  rw [if_pos]
  · rfl
  · exact leads

/-- A standby holds the greatest epoch. -/
theorem State.hearEpoch_of_standby {s : State} (standby : s.plyState = 4) (e : Nat) :
    (s.hearEpoch e).rd F.PLY_EPOCH_epoch = max (s.rd F.PLY_EPOCH_epoch) e % 2 ^ 28 := by
  have follows : (s.isActive || s.plyState == 0) = false := by simp [State.isActive, standby]
  unfold State.hearEpoch
  simp only
  rw [if_neg]
  · exact State.rd_wr_same _ _ _
  · exact fun h => Bool.false_ne_true (follows.symm.trans h)

theorem partnerFrameCrossed_does {s : State} {p : Fin 16} {b : Bytes} (hears : s.skHears p.val = true) (good : sealOk b = true)
    (length : 36 ≤ b.length) (type : (readSkein b).type ∈ [2, 3, 4])
    (whole : skeinWhole b (s.crossedLen (readSkein b).type (readSkein b).station) = true) :
    Does (.partnerFrameCrossed p b) s (fun t =>
      t.ply.partnerEpoch = max s.ply.partnerEpoch (readSkein b).epoch ∧ t.image = s.image ∧
        (s.plyState = 4 → t.rd F.PLY_EPOCH_epoch = max (s.rd F.PLY_EPOCH_epoch) (readSkein b).epoch % 2 ^ 28) ∧
        (s.plyState = 1 → t.rd F.PLY_EPOCH_epoch = s.rd F.PLY_EPOCH_epoch)) := by
  have run := exec_partnerFrameCrossed hears good length type whole
  have image := ((execPartnerFrameCrossed_keeps p b s).of_next run).parts .image (by decide)
  have regs := s.skClass_in p.isLt (skKey (readSkein b).type (readSkein b).station) (readSkein b).alive
  have ply := (s.skClass_keeps p.val (skKey (readSkein b).type (readSkein b).station) (readSkein b).alive).ply (by decide)
  generalize (s.skClass p.val (skKey (readSkein b).type (readSkein b).station) (readSkein b).alive).1 = u at run image regs ply
  have epoch : u.rd F.PLY_EPOCH_epoch = s.rd F.PLY_EPOCH_epoch := regs.rd_eq (b := .ply) (by decide) (by decide)
  have state : u.plyState = s.plyState := State.plyState_of_in regs (by decide)
  refine ⟨_, run, ?_, image, fun standby => ?_, fun lone => ?_⟩
  · rw [State.hearEpoch_partnerEpoch, ply]
  · rw [State.hearEpoch_of_standby (state.trans standby), epoch]
  · rw [State.hearEpoch_of_lone (state.trans lone), epoch]

/-! A partner's frame that is not marked shadow (R285, R292). -/

/-- An event of the ply writes of the ply's bank PLY_EVT alone. -/
theorem State.plyEvt_evt (s : State) {i : Nat} (hi : i < 10) : (s.plyEvt i).rd F.PLY_EVT_evt =
    (s.wr F.PLY_EVT_evt (setBit (s.rd F.PLY_EVT_evt) i true)).rd F.PLY_EVT_evt := by
  unfold State.plyEvt
  simp only
  split
  · exact (State.raiseSource_in _ _ _ _ (by omega)).rd_eq (b := .ply) (by decide) (by decide)
  · rfl

/-- Events of the ply that are set stay set at an event of the ply. -/
theorem State.plyEvt_bits (s : State) {i : Nat} (hi : i < 10) :
    BitsStay F.PLY_EVT_evt s (s.plyEvt i) ∧ bitOf ((s.plyEvt i).rd F.PLY_EVT_evt) i = true := by
  refine ⟨.trans (.setBit .rfl i) (.of_eq (s.plyEvt_evt hi)), ?_⟩
  rw [State.plyEvt_evt s hi, State.bitOf_wr_setBit _ hi, decide_eq_true rfl, Bool.or_true]

/-- A change of the ply state clears no event of the ply. -/
theorem State.setPlyState_evt (s : State) (n : Nat) : BitsStay F.PLY_EVT_evt s (s.setPlyState n) := by
  have dropped (c : Bool) : BitsStay F.PLY_EVT_evt s (if c then s.dropArmed none else s) :=
    .ite (.of_in (s.dropArmed_in none) (b := .ply) (by decide) (by decide)) .rfl
  have told := ((dropped (s.plyState == 4 && !(n == 1 || n == 2))).wr_ne (g := F.PLY_STATUS_state) n (by decide)).trans
    (State.plyEvt_bits _ (i := 0) (by decide)).1
  unfold State.setPlyState
  split
  · exact .rfl
  · refine .trans (.trans told (.of_eq ?_)) (.of_in (State.row19_in _) (b := .ply) (by decide) (by decide))
    split
    · rfl
    · exact rd_foldl _ fun u p hp => State.rd_wr_ne _ _ _ _ (by simp only [Fld.key, F.SK_STATUS_proxy, F.PLY_EVT_evt]; omega)

theorem State.abdicate_evt {s : State} (h : s.isActive = true) (cause : Nat) :
    BitsStay F.PLY_EVT_evt s (s.abdicate cause) := by
  have withdrawn : (s.withdrawn cause).rd F.PLY_EVT_evt = s.rd F.PLY_EVT_evt := by
    rw [State.withdrawn_rd, State.setMuted, State.rd_wrb_ne _ _ _ _ (by decide), State.rd_wrb_ne _ _ _ _ (by decide),
      State.rd_wrb_ne _ _ _ _ (by decide), State.rd_wr_ne _ _ _ _ (by decide), State.rd_wr_ne _ _ _ _ (by decide),
      State.rd_wr_ne _ _ _ _ (by decide)]
  rw [State.abdicate_of_active h]
  exact (((BitsStay.of_eq withdrawn).trans (.of_in (State.stopCommands_in _) (b := .ply) (by decide) (by decide))).trans
    (State.setPlyState_evt _ 6)).trans (.of_eq (State.fireGasp_rd_ply _ 58 (by decide)))

/-- An event of the ply leaves the ply state. -/
theorem State.plyEvt_state (s : State) {i : Nat} (hi : i < 10) : (s.plyEvt i).plyState = s.plyState :=
  State.plyEvt_rd _ (by omega) (by decide) (by decide)

theorem partnerFrameNotShadow_later {s : State} {epoch : BitVec 28} (active : s.plyState = 2)
    (later : s.rd F.PLY_EPOCH_epoch < epoch.toNat) : Does (.partnerFrameNotShadow epoch false false) s (fun t =>
      t.rd F.PLY_STATUS_state = 6 ∧ t.rd F.PLY_REASON_abdication = 5 ∧ bitOf (t.rd F.PLY_EVT_evt) 8 = true) := by
  have leads := State.isActive_of_lone_or_active (.inr active)
  have run : exec (.partnerFrameNotShadow epoch false false) s = .next ((s.plyEvt 8).abdicate 5) :=
    (if_neg (by simp [leads, State.epoch, Nat.not_lt.2 later.le])).trans (if_pos (by simp [State.epoch, later]))
  have told : (s.plyEvt 8).isActive = true :=
    State.isActive_of_lone_or_active (.inr ((s.plyEvt_state (by decide)).trans active))
  exact ⟨_, run, State.abdicate_state told 5, (State.abdicate_shows told (by decide)).1,
    State.abdicate_evt told 5 8 (by decide) (s.plyEvt_bits (by decide)).2⟩

theorem partnerFrameNotShadow_own {s : State} {epoch : BitVec 28} (active : s.plyState = 2)
    (own : s.rd F.PLY_EPOCH_epoch = epoch.toNat) (home : s.isHome = true) :
    Does (.partnerFrameNotShadow epoch false false) s (fun t =>
      t.ply.raiseNext = true ∧ t.rd F.PLY_STATUS_state = 2 ∧ bitOf (t.rd F.PLY_EVT_evt) 8 = true) := by
  have leads := State.isActive_of_lone_or_active (.inr active)
  have run : exec (.partnerFrameNotShadow epoch false false) s =
      .next { s.plyEvt 8 with ply := { (s.plyEvt 8).ply with raiseNext := true } } :=
    (if_neg (by simp [leads, State.epoch, own])).trans (if_neg (by simp [State.epoch, own, home]))
  exact ⟨_, run, rfl, (s.plyEvt_state (by decide)).trans active, (s.plyEvt_bits (by decide)).2⟩

theorem partnerOnTheSkein : PartnerOnTheSkein := fun _ _ _ _ _ =>
  ⟨fun _ standby lacked due unserved => proxyStart_does standby lacked due unserved, proxyStop_does,
    fun up on => partnerFrameCrossed_does (State.skHears_of_up on up), partnerFrameNotShadow_later, partnerFrameNotShadow_own⟩

/-- Settles O26: marks, echoes and proxies by what their commands write, the partner's frames by the epoch that they tell. -/
theorem skeinDelaysAndPartner : Obligations.SkeinDelaysAndPartner := ⟨skeinDelaysMeasured, partnerOnTheSkein⟩

end Sys2Proof.Machine

/-! PROOFS. The words of Twist code: which fields make up the word of each format, and why a word and its instruction tell
each other but for unused fields. -/

namespace Sys2Proof.Machine

/-! The fields of a word (R135). -/

/-- A range of bits, by division. -/
theorem bitsOf_eq_div (n hi lo : Nat) : bitsOf n hi lo = n / 2 ^ lo % 2 ^ (hi + 1 - lo) := by
  rw [bitsOf, Nat.shiftRight_eq_div_pow]

/-- The major opcode of a word of 36 bits. -/
theorem wOp_eq_div {w : Nat} (hw : w < 2 ^ 36) : wOp w = w / 2 ^ 30 := by
  rw [wOp, bitsOf_eq_div]
  omega

/-- A field of 5 bits that holds 0. -/
theorem finOf_eq_zero {w lo : Nat} (h : bitsOf w (lo + 4) lo = 0) : Fin.ofNat 32 (w / 2 ^ lo) = 0 := by
  rw [bitsOf_eq_div, show lo + 4 + 1 - lo = 5 by omega] at h
  exact Fin.ext h

/-! The word of each format, its fields put together again (R135). -/

section
variable {w : Nat} (hw : w < 2 ^ 36)
include hw

theorem wordI_fields {op : Nat} (h : wOp w = op) :
    wordI op (Fin.ofNat 32 (w / 2 ^ 25)) (Fin.ofNat 32 (w / 2 ^ 20)) (BitVec.ofNat 20 w) = w := by
  rw [wOp_eq_div hw] at h
  simp only [wordI, wordOp, Fin.val_ofNat, BitVec.toNat_ofNat]
  omega

theorem wordS_fields {op : Nat} (h : wOp w = op) :
    wordS op (Fin.ofNat 32 (w / 2 ^ 25)) (Fin.ofNat 32 (w / 2 ^ 20)) (BitVec.ofNat 2 (w / 2 ^ 18)) (BitVec.ofNat 18 w) = w := by
  rw [wOp_eq_div hw] at h
  simp only [wordS, wordOp, Fin.val_ofNat, BitVec.toNat_ofNat]
  omega

theorem wordS_fields_of_plain {op : Nat} (h : wOp w = op) (unused : bitsOf w 19 18 = 0) :
    wordS op (Fin.ofNat 32 (w / 2 ^ 25)) (Fin.ofNat 32 (w / 2 ^ 20)) 0#2 (BitVec.ofNat 18 w) = w := by
  rw [wOp_eq_div hw] at h
  rw [bitsOf_eq_div] at unused
  simp only [wordS, wordOp, Fin.val_ofNat, BitVec.toNat_ofNat]
  omega

theorem wordW_fields (h : wOp w = 0x14) :
    wordW (Fin.ofNat 32 (w / 2 ^ 25)) (Fin.ofNat 32 (w / 2 ^ 20)) (BitVec.ofNat 4 (w / 2 ^ 16)) (BitVec.ofNat 16 w) = w := by
  rw [wOp_eq_div hw] at h
  simp only [wordW, wordOp, Fin.val_ofNat, BitVec.toNat_ofNat]
  omega

theorem wordM_fields {op : Nat} (h : wOp w = op) (unused : bitsOf w 19 16 = 0) :
    wordM op (Fin.ofNat 32 (w / 2 ^ 25)) (Fin.ofNat 32 (w / 2 ^ 20)) (BitVec.ofNat 16 w) = w := by
  rw [wOp_eq_div hw] at h
  rw [bitsOf_eq_div] at unused
  simp only [wordM, wordOp, Fin.val_ofNat, BitVec.toNat_ofNat]
  omega

theorem wordP_fields {op : Nat} (h : wOp w = op) (unused : bitsOf w 15 12 = 0) :
    wordP op (Fin.ofNat 32 (w / 2 ^ 25)) (Fin.ofNat 32 (w / 2 ^ 20)) (BitVec.ofNat 4 (w / 2 ^ 16)) (BitVec.ofNat 12 w) = w := by
  rw [wOp_eq_div hw] at h
  rw [bitsOf_eq_div] at unused
  simp only [wordP, wordOp, Fin.val_ofNat, BitVec.toNat_ofNat]
  omega

theorem wordQ_fields {op : Nat} (h : wOp w = op) (unused : bitsOf w 17 16 = 0) :
    wordQ op (Fin.ofNat 32 (w / 2 ^ 25)) (Fin.ofNat 2 (w / 2 ^ 24)) (Fin.ofNat 64 (w / 2 ^ 18)) (BitVec.ofNat 16 w) = w := by
  rw [wOp_eq_div hw] at h
  rw [bitsOf_eq_div] at unused
  simp only [wordQ, wordOp, Fin.val_ofNat, BitVec.toNat_ofNat]
  omega

theorem wordB_fields (h : wOp w = 0x30) (unused : bitsOf w 25 16 = 0) :
    wordB (BitVec.ofNat 4 (w / 2 ^ 26)) (BitVec.ofNat 16 w) = w := by
  rw [wOp_eq_div hw] at h
  rw [bitsOf_eq_div] at unused
  simp only [wordB, wordOp, BitVec.toNat_ofNat]
  omega

theorem wordG_fields (h : wOp w = 0x31) (unused : bitsOf w 19 16 = 0) :
    wordG (BitVec.ofNat 2 (w / 2 ^ 28)) (BitVec.ofNat 2 (w / 2 ^ 26)) (BitVec.ofNat 6 (w / 2 ^ 20)) (BitVec.ofNat 16 w) =
      w := by
  rw [wOp_eq_div hw] at h
  rw [bitsOf_eq_div] at unused
  simp only [wordG, wordOp, BitVec.toNat_ofNat]
  omega

theorem wordL_fields (h : wOp w = 0x32) :
    wordL (Fin.ofNat 32 (w / 2 ^ 25)) (BitVec.ofNat 12 (w / 2 ^ 13)) (BitVec.ofNat 13 w) = w := by
  rw [wOp_eq_div hw] at h
  simp only [wordL, wordOp, Fin.val_ofNat, BitVec.toNat_ofNat]
  omega

theorem wordJ_fields (h : wOp w = 0x33) (unused : bitsOf w 29 16 = 0) : wordJ (BitVec.ofNat 16 w) = w := by
  rw [wOp_eq_div hw] at h
  rw [bitsOf_eq_div] at unused
  simp only [wordJ, wordOp, BitVec.toNat_ofNat]
  omega

theorem wordT_fields {op : Nat} (h : wOp w = op) (unused : bitsOf w 24 4 = 0) :
    wordT op (Fin.ofNat 32 (w / 2 ^ 25)) (BitVec.ofNat 4 w) = w := by
  rw [wOp_eq_div hw] at h
  rw [bitsOf_eq_div] at unused
  simp only [wordT, wordOp, Fin.val_ofNat, BitVec.toNat_ofNat]
  omega

theorem wordT_fields_of_plain {op : Nat} (h : wOp w = op) (unused : bitsOf w 24 0 = 0) :
    wordT op (Fin.ofNat 32 (w / 2 ^ 25)) 0#4 = w := by
  rw [wOp_eq_div hw] at h
  rw [bitsOf_eq_div] at unused
  simp only [wordT, wordOp, Fin.val_ofNat, BitVec.toNat_ofNat]
  omega

theorem wordX_fields {op : Nat} (h : wOp w = op) (unused : bitsOf w 29 8 = 0) : wordX op (BitVec.ofNat 8 w) = w := by
  rw [wOp_eq_div hw] at h
  rw [bitsOf_eq_div] at unused
  simp only [wordX, wordOp, BitVec.toNat_ofNat]
  omega

theorem wordX_fields_of_plain {op : Nat} (h : wOp w = op) (unused : bitsOf w 29 0 = 0) : wordX op 0#8 = w := by
  rw [wOp_eq_div hw] at h
  rw [bitsOf_eq_div] at unused
  simp only [wordX, wordOp, BitVec.toNat_ofNat]
  omega

/-- Format A with both source registers: the functions whose fields are all used. -/
theorem wordA_canon {fn : Nat} (op : wOp w = 0) (func : bitsOf w 14 9 = fn) (unused : bitsOf w 8 0 = 0)
    (used : fn ∉ [0x0E, 0x0F, 0x14, 0x16]) :
    wordA fn (Fin.ofNat 32 (w / 2 ^ 25)) (Fin.ofNat 32 (w / 2 ^ 20)) (Fin.ofNat 32 (w / 2 ^ 15)) = wordCanon w := by
  simp only [List.mem_cons, List.not_mem_nil, or_false, not_or] at used
  rw [wordCanon, if_neg (not_not.2 op), if_neg (by omega), if_neg (by omega)]
  rw [wOp_eq_div hw] at op
  rw [bitsOf_eq_div] at func unused
  simp only [wordA, wordOp, Fin.val_ofNat]
  omega

/-- Format A of ABS, NEG and SATQ, which use no gb. -/
theorem wordA_canon_of_unary {fn : Nat} (op : wOp w = 0) (func : bitsOf w 14 9 = fn) (unused : bitsOf w 8 0 = 0)
    (unary : fn ∈ [0x0E, 0x0F, 0x14]) :
    wordA fn (Fin.ofNat 32 (w / 2 ^ 25)) (Fin.ofNat 32 (w / 2 ^ 20)) 0 = wordCanon w := by
  simp only [List.mem_cons, List.not_mem_nil, or_false] at unary
  rw [wordCanon, if_neg (not_not.2 op), if_pos (by omega)]
  rw [wOp_eq_div hw] at op
  rw [bitsOf_eq_div] at func unused ⊢
  simp only [wordA, wordOp, Fin.val_ofNat, Fin.val_zero]
  omega

/-- Format A of RDF, which uses gd alone. -/
theorem wordA_canon_of_rdf (op : wOp w = 0) (func : bitsOf w 14 9 = 0x16) (unused : bitsOf w 8 0 = 0) :
    wordA 0x16 (Fin.ofNat 32 (w / 2 ^ 25)) 0 0 = wordCanon w := by
  rw [wordCanon, if_neg (not_not.2 op), if_neg (by omega), if_pos func]
  rw [wOp_eq_div hw] at op
  rw [bitsOf_eq_div] at func unused ⊢
  simp only [wordA, wordOp, Fin.val_ofNat, Fin.val_zero]
  omega

/-- A word of the ALU group names an instruction whose word it is, but for unused fields (R137). -/
theorem exists_twistFields_of_aluOk (t : Fin 16) (j : Fin 8) (op : wOp w = 0) (ok : aluOk w = true) :
    ∃ a, twistFields t j w = some a ∧ twistWord a = some (wordCanon w) := by
  simp only [aluOk, Bool.and_eq_true, decide_eq_true_eq, beq_iff_eq, Bool.or_eq_true, bne_iff_ne] at ok
  obtain ⟨⟨⟨known, unused⟩, cmp⟩, clq⟩ := ok
  unfold twistFields
  rw [op]
  generalize func : bitsOf w 14 9 = fn at *
  interval_cases fn
  -- ADD to MAX
  iterate 13 exact ⟨_, rfl, congrArg some (wordA_canon hw op func unused (by decide))⟩
  -- CMP, whose gd is 0
  · have canon := wordA_canon hw op func unused (by decide)
    rw [finOf_eq_zero (cmp.resolve_left (by decide))] at canon
    exact ⟨_, rfl, congrArg some canon⟩
  -- ABS and NEG
  iterate 2 exact ⟨_, rfl, congrArg some (wordA_canon_of_unary hw op func unused (by decide))⟩
  -- MUL to DIVQ
  iterate 4 exact ⟨_, rfl, congrArg some (wordA_canon hw op func unused (by decide))⟩
  -- SATQ, SEL and RDF
  · exact ⟨_, rfl, congrArg some (wordA_canon_of_unary hw op func unused (by decide))⟩
  · exact ⟨_, rfl, congrArg some (wordA_canon hw op func unused (by decide))⟩
  · exact ⟨_, rfl, congrArg some (wordA_canon_of_rdf hw op func unused)⟩
  -- CLQ, whose registers are 0
  · obtain ⟨⟨gd, ga⟩, gb⟩ := clq.resolve_left (by decide)
    have canon := wordA_canon hw op func unused (by decide)
    rw [finOf_eq_zero gd, finOf_eq_zero ga, finOf_eq_zero gb] at canon
    exact ⟨_, rfl, congrArg some canon⟩

/-- A word of a defined encoding names an instruction whose word it is, but for unused fields (R135 to R138). -/
theorem exists_twistFields_of_wordOk (t : Fin 16) (j : Fin 8) (ok : wordOk w = true) :
    ∃ a, twistFields t j w = some a ∧ twistWord a = some (wordCanon w) := by
  by_cases alu : wOp w = 0
  · exact exists_twistFields_of_aluOk hw t j alu (by simpa only [wordOk, alu] using ok)
  rw [wordCanon, if_pos alu]
  unfold twistFields
  unfold wordOk at ok
  generalize op : wOp w = o at *
  split at ok
  · exact absurd rfl alu
  -- ADDI to XORI, CMPI, SHI and LUI
  iterate 4 exact ⟨_, rfl, congrArg some (wordI_fields hw op)⟩
  · have word := wordI_fields hw op
    rw [finOf_eq_zero (beq_iff_eq.1 ok)] at word
    exact ⟨_, rfl, congrArg some word⟩
  · exact ⟨_, rfl, congrArg some (wordI_fields hw op)⟩
  · have word := wordI_fields hw op
    rw [finOf_eq_zero (beq_iff_eq.1 ok)] at word
    exact ⟨_, rfl, congrArg some word⟩
  -- LDS, LDE, TAG, STS and WINB
  iterate 3 exact ⟨_, rfl, congrArg some (wordS_fields_of_plain hw op (beq_iff_eq.1 ok))⟩
  · exact ⟨_, rfl, congrArg some (wordS_fields hw op)⟩
  · exact ⟨_, rfl, congrArg some (wordW_fields hw op)⟩
  -- LDW, STW, TRD and LIX
  iterate 2 exact ⟨_, rfl, congrArg some (wordM_fields hw op (beq_iff_eq.1 ok))⟩
  · exact ⟨_, rfl, congrArg some (wordT_fields hw op (beq_iff_eq.1 (Bool.and_eq_true_iff.1 ok).1))⟩
  · exact ⟨_, rfl, congrArg some (wordT_fields_of_plain hw op (beq_iff_eq.1 ok))⟩
  -- LPR, LPW, MBQ and MBR
  iterate 2 exact ⟨_, rfl, congrArg some (wordP_fields hw op (beq_iff_eq.1 (Bool.and_eq_true_iff.1 ok).1))⟩
  iterate 2 exact ⟨_, rfl, congrArg some (wordQ_fields hw op (beq_iff_eq.1 ok))⟩
  -- BR, BTAG, LOOP and CALL
  · exact ⟨_, rfl, congrArg some (wordB_fields hw op (beq_iff_eq.1 (Bool.and_eq_true_iff.1 ok).1))⟩
  · exact ⟨_, rfl, congrArg some (wordG_fields hw op (beq_iff_eq.1 ok))⟩
  · exact ⟨_, rfl, congrArg some (wordL_fields hw op)⟩
  · exact ⟨_, rfl, congrArg some (wordJ_fields hw op (beq_iff_eq.1 ok))⟩
  -- RET, END, TRAP and NOP
  iterate 2 exact ⟨_, rfl, congrArg some (wordX_fields_of_plain hw op (beq_iff_eq.1 ok))⟩
  · exact ⟨_, rfl, congrArg some (wordX_fields hw op (beq_iff_eq.1 ok))⟩
  · exact ⟨_, rfl, congrArg some (wordX_fields_of_plain hw op (beq_iff_eq.1 ok))⟩
  · exact absurd ok Bool.false_ne_true

end
/-- Words of one function that agree from bit 20 on name the same ABS, NEG or SATQ. -/
theorem twistFields_of_unary (t : Fin 16) (j : Fin 8) {v w : Nat} (opv : wOp v = 0) (opw : wOp w = 0)
    (unary : bitsOf w 14 9 = 0x0E ∨ bitsOf w 14 9 = 0x0F ∨ bitsOf w 14 9 = 0x14) (func : bitsOf v 14 9 = bitsOf w 14 9)
    (high : v / 2 ^ 20 = w / 2 ^ 20) : twistFields t j v = twistFields t j w := by
  have higher : v / 2 ^ 25 = w / 2 ^ 25 := by omega
  unfold twistFields
  rw [opv, opw, func]
  rcases unary with h | h | h <;> simp only [h, high, higher]

/-- Words of RDF that agree from bit 25 on name the same RDF. -/
theorem twistFields_of_rdf (t : Fin 16) (j : Fin 8) {v w : Nat} (opv : wOp v = 0) (opw : wOp w = 0)
    (rdf : bitsOf w 14 9 = 0x16) (func : bitsOf v 14 9 = bitsOf w 14 9) (high : v / 2 ^ 25 = w / 2 ^ 25) :
    twistFields t j v = twistFields t j w := by
  unfold twistFields
  rw [opv, opw, func]
  simp only [rdf, high]

/-- The instruction that a word names is the one that the word with its unused fields 0 names. -/
theorem twistFields_wordCanon (t : Fin 16) (j : Fin 8) {w : Nat} (hw : w < 2 ^ 36) :
    twistFields t j (wordCanon w) = twistFields t j w := by
  unfold wordCanon
  simp only
  split_ifs with other unary rdf
  · rfl
  · have op := not_not.1 other
    refine twistFields_of_unary t j ?_ op unary ?_ ?_
    all_goals simp only [wOp, bitsOf_eq_div] at *; omega
  · have op := not_not.1 other
    refine twistFields_of_rdf t j ?_ op rdf ?_ ?_
    all_goals simp only [wOp, bitsOf_eq_div] at *; omega
  · rfl

/-! The word of an instruction (R135). -/

/-- A word of 36 bits whose unused fields are 0. -/
def OwnWord (n : Nat) : Prop := n < 2 ^ 36 ∧ wordCanon n = n

theorem wordOp_own {op rest : Nat} (first : 0 < op) (last : op < 64) (h : rest < 2 ^ 30) : OwnWord (wordOp op rest) := by
  have fits : wordOp op rest < 2 ^ 36 := by rw [wordOp]; omega
  have other : wOp (wordOp op rest) ≠ 0 := by rw [wOp_eq_div fits, wordOp]; omega
  exact ⟨fits, if_pos other⟩

theorem wordI_own {op : Nat} (gd ga : Fin 32) (imm : BitVec 20) (first : 0 < op) (last : op < 64) :
    OwnWord (wordI op gd ga imm) := wordOp_own first last (by omega)

theorem wordS_own {op : Nat} (g gi : Fin 32) (m : BitVec 2) (slot : BitVec 18) (first : 0 < op) (last : op < 64) :
    OwnWord (wordS op g gi m slot) := wordOp_own first last (by omega)

theorem wordW_own (gd ga : Fin 32) (n1 : BitVec 4) (base : BitVec 16) : OwnWord (wordW gd ga n1 base) :=
  wordOp_own (by decide) (by decide) (by omega)

theorem wordM_own {op : Nat} (g gb : Fin 32) (off : BitVec 16) (first : 0 < op) (last : op < 64) :
    OwnWord (wordM op g gb off) := wordOp_own first last (by omega)

theorem wordP_own {op : Nat} (g gi : Fin 32) (node : BitVec 4) (loop : BitVec 12) (first : 0 < op) (last : op < 64) :
    OwnWord (wordP op g gi node loop) := wordOp_own first last (by omega)

theorem wordQ_own {op : Nat} (gb : Fin 32) (ch : Fin 2) (buf : Fin 64) (off : BitVec 16) (first : 0 < op) (last : op < 64) :
    OwnWord (wordQ op gb ch buf off) := wordOp_own first last (by omega)

theorem wordB_own (cond : BitVec 4) (off : BitVec 16) : OwnWord (wordB cond off) :=
  wordOp_own (by decide) (by decide) (by omega)

theorem wordG_own (mode q : BitVec 2) (mask : BitVec 6) (off : BitVec 16) : OwnWord (wordG mode q mask off) :=
  wordOp_own (by decide) (by decide) (by omega)

theorem wordL_own (gc : Fin 32) (max1 : BitVec 12) (len : BitVec 13) : OwnWord (wordL gc max1 len) :=
  wordOp_own (by decide) (by decide) (by omega)

theorem wordJ_own (target : BitVec 16) : OwnWord (wordJ target) := wordOp_own (by decide) (by decide) (by omega)

theorem wordT_own {op : Nat} (gd : Fin 32) (sel : BitVec 4) (first : 0 < op) (last : op < 64) : OwnWord (wordT op gd sel) :=
  wordOp_own first last (by omega)

theorem wordX_own {op : Nat} (user : BitVec 8) (first : 0 < op) (last : op < 64) : OwnWord (wordX op user) :=
  wordOp_own first last (by omega)

theorem wordA_own {fn : Nat} (gd ga gb : Fin 32) (known : fn < 64) (unary : fn ∉ [0x0E, 0x0F, 0x14, 0x16] ∨ gb = 0)
    (rdf : fn ≠ 0x16 ∨ ga = 0) : OwnWord (wordA fn gd ga gb) := by
  have fits : wordA fn gd ga gb < 2 ^ 36 := by rw [wordA, wordOp]; omega
  have op : wOp (wordA fn gd ga gb) = 0 := by rw [wOp_eq_div fits, wordA, wordOp]; omega
  have func : bitsOf (wordA fn gd ga gb) 14 9 = fn := by rw [bitsOf_eq_div, wordA, wordOp]; omega
  have srcB : bitsOf (wordA fn gd ga gb) 19 15 = gb.val := by rw [bitsOf_eq_div, wordA, wordOp]; omega
  have srcs : bitsOf (wordA fn gd ga gb) 24 15 = ga.val * 32 + gb.val := by rw [bitsOf_eq_div, wordA, wordOp]; omega
  refine ⟨fits, ?_⟩
  simp only [wordCanon, func, srcB, srcs]
  split_ifs with other isUnary isRdf
  · rfl
  · have noB : gb = 0 := unary.resolve_left (not_not.2 (by simp only [List.mem_cons]; omega))
    simp [noB]
  · have noB : gb = 0 := unary.resolve_left (not_not.2 (by simp only [List.mem_cons]; omega))
    simp [noB, rdf.resolve_left (not_not.2 isRdf)]
  · rfl

/-- The word of an instruction has 36 bits, and its unused fields are 0. -/
theorem twistWord_own {a : Instr} {n : Nat} (h : twistWord a = some n) : OwnWord n := by
  unfold twistWord at h
  split at h
  -- the ALU group: ABS, NEG and SATQ without gb, RDF and CLQ without any source
  iterate 14 exact Option.some.inj h ▸ wordA_own _ _ _ (by decide) (.inl (by decide)) (.inl (by decide))
  iterate 2 exact Option.some.inj h ▸ wordA_own _ _ _ (by decide) (.inr rfl) (.inl (by decide))
  iterate 4 exact Option.some.inj h ▸ wordA_own _ _ _ (by decide) (.inl (by decide)) (.inl (by decide))
  · exact Option.some.inj h ▸ wordA_own _ _ _ (by decide) (.inr rfl) (.inl (by decide))
  · exact Option.some.inj h ▸ wordA_own _ _ _ (by decide) (.inl (by decide)) (.inl (by decide))
  iterate 2 exact Option.some.inj h ▸ wordA_own _ _ _ (by decide) (.inr rfl) (.inr rfl)
  -- the other groups
  iterate 7 exact Option.some.inj h ▸ wordI_own _ _ _ (by decide) (by decide)
  iterate 4 exact Option.some.inj h ▸ wordS_own _ _ _ _ (by decide) (by decide)
  · exact Option.some.inj h ▸ wordW_own _ _ _ _
  iterate 2 exact Option.some.inj h ▸ wordM_own _ _ _ (by decide) (by decide)
  iterate 2 exact Option.some.inj h ▸ wordT_own _ _ (by decide) (by decide)
  iterate 2 exact Option.some.inj h ▸ wordP_own _ _ _ _ (by decide) (by decide)
  iterate 2 exact Option.some.inj h ▸ wordQ_own _ _ _ _ (by decide) (by decide)
  · exact Option.some.inj h ▸ wordB_own _ _
  · exact Option.some.inj h ▸ wordG_own _ _ _ _
  · exact Option.some.inj h ▸ wordL_own _ _ _
  · exact Option.some.inj h ▸ wordJ_own _
  iterate 4 exact Option.some.inj h ▸ wordX_own _ (by decide) (by decide)
  · exact absurd h (Option.some_ne_none n).symm

/-- A word of a defined encoding spells an instruction whose word it is, but for unused fields. -/
theorem exists_decodeTwist (t : Fin 16) (j : Fin 8) {w : Word36} (ok : wordOk w.toNat = true) :
    ∃ a, decodeTwist t j w = some a ∧ twistWord a = some (wordCanon w.toNat) := by
  rw [decodeTwist, if_pos ok]
  exact exists_twistFields_of_wordOk w.isLt t j ok

/-- A word that spells an instruction has a defined encoding. -/
theorem wordOk_of_decodeTwist {t : Fin 16} {j : Fin 8} {w : Word36} {a : Instr} (h : decodeTwist t j w = some a) :
    wordOk w.toNat = true := by
  by_contra bad
  simp [decodeTwist, bad] at h

/-- The instruction that a word spells has that word, but for unused fields. -/
theorem twistWord_of_decodeTwist {t : Fin 16} {j : Fin 8} {w : Word36} {a : Instr} (h : decodeTwist t j w = some a) :
    twistWord a = some (wordCanon w.toNat) := by
  obtain ⟨b, spelled, word⟩ := exists_decodeTwist t j (wordOk_of_decodeTwist h)
  rwa [Option.some.inj (h.symm.trans spelled)]

/-- Words that differ in unused fields alone spell the same. -/
theorem decodeTwist_congr (t : Fin 16) (j : Fin 8) {v w : Word36} (hv : wordOk v.toNat = true) (hw : wordOk w.toNat = true)
    (same : wordCanon w.toNat = wordCanon v.toNat) : decodeTwist t j w = decodeTwist t j v := by
  rw [decodeTwist, decodeTwist, if_pos hv, if_pos hw, ← twistFields_wordCanon t j w.isLt, same,
    twistFields_wordCanon t j v.isLt]

/-- Settles O4: the fields of each format make up the word again, so a word and its instruction tell each other but for
unused fields. -/
theorem twistWordsDecode : Obligations.TwistWordsDecode := by
  intro t j
  refine ⟨fun w => exists_decodeTwist t j, fun w bad => by simp [decodeTwist, bad], fun a n word ok => ?_,
    fun v w a hv => ⟨fun hw => ⟨wordOk_of_decodeTwist hw, ?_⟩, fun ⟨ok, same⟩ => ?_⟩⟩
  · obtain ⟨fits, canon⟩ := twistWord_own word
    have toNat : (BitVec.ofNat 36 n).toNat = n := by rw [BitVec.toNat_ofNat, Nat.mod_eq_of_lt fits]
    have spelled := exists_decodeTwist t j (w := BitVec.ofNat 36 n)
    rw [toNat, canon] at spelled
    exact ⟨fits, canon, spelled ok⟩
  · exact Option.some.inj ((twistWord_of_decodeTwist hw).symm.trans (twistWord_of_decodeTwist hv))
  · rw [decodeTwist_congr t j (wordOk_of_decodeTwist hv) ok same, hv]

end Sys2Proof.Machine

/-! PROOFS. One instruction of Twist code: how a strand that has completed one stands, and the numbers that the statements
and the model spell in their own ways. -/

namespace Sys2Proof.Machine

/-! A strand that completes an instruction (R127). -/

/-- The strand with its flags and its last tag set. -/
def Strand.withFlags (x : Strand) (z n c v q : Bool) (lt : Tag) : Strand :=
  { x with z := z, n := n, c := c, v := v, q := q, lt := lt }

/-- A jump moves the strand to its address. -/
theorem MovesTo.jump {x y : Strand} (pc : Nat) (loops : y.loops = x.loops) (calls : y.calls = x.calls)
    (phase : y.phase = x.phase) : MovesTo x (y.jump pc) pc := by
  refine ⟨?_, ?_, calls, phase⟩
  · rw [← loops, ← calls]
    rfl
  · rw [← loops, ← calls]
    rfl

/-- The strand at the next word. -/
theorem MovesTo.next {x y : Strand} (pc : y.pc = x.pc) (loops : y.loops = x.loops) (calls : y.calls = x.calls)
    (phase : y.phase = x.phase) : MovesTo x y.next (x.pc + 1) := by
  rw [Strand.next, pc]
  exact .jump _ loops calls phase

/-- With its flags set and a register written, a strand at the next word stands as an instruction that has completed leaves
it. -/
theorem Strand.moves_with_result (x : Strand) (z n c v q : Bool) (lt : Tag) (gd : Nat) (r : Word36) :
    let y := ((x.withFlags z n c v q lt).setReg gd r).next
    MovesTo x y (x.pc + 1) ∧ Writes x y gd r ∧ FlagsAre y z n c v q lt := by
  refine ⟨.next ?_ ?_ ?_ ?_, fun g => Strand.reg_setReg .., ?_⟩
  · exact Strand.setReg_pc ..
  · exact Strand.setReg_loops ..
  · exact Strand.setReg_calls ..
  · exact Strand.setReg_phase ..
  · simp [FlagsAre, Strand.next, Strand.withFlags]

/-- Storing a strand changes its task and nothing else. -/
theorem State.putStrand_step (s : State) (t : Fin 16) (j : Fin 8) (i : TaskInst) (y : Strand) :
    StrandStep s (s.putStrand t.val j.val i y) t j i y :=
  ⟨State.task_setTask_same s _ _, fun _ other => State.task_setTask_ne s _ other, rfl⟩

/-- What a strand that stands at an instruction's word does. -/
theorem Running.twist {s : State} {t : Fin 16} {j : Fin 8} {i : TaskInst} {x : Strand} (run : Running s t j i x)
    {a : Instr} {w : Nat} (word : twistWord a = some w) (stands : Stands a i j x)
    (f : State → TaskInst → Strand → State) : s.twist t j w f = f s i x :=
  State.twist_running s t j w f run.1 (Option.some.inj (stands.symm.trans word)) run.2

section
variable {a : Instr} {s : State} {t : Fin 16} {j : Fin 8} {i i' : TaskInst} {x : Strand} {w gd : Nat} {r : Word36}
  {z n c v q : Bool} {lt : Tag}

/-- An instruction completes where it stores its strand with the flags given, the result in gd, at the next word. -/
theorem Running.goesOn (run : Running s t j i x) (word : twistWord a = some w) {f : State → TaskInst → Strand → State}
    (exe : exec a s = .next (s.twist t j w f)) (prog : i'.prog = i.prog)
    (stored : f s i x = s.putStrand t.val j.val i' ((x.withFlags z n c v q lt).setReg gd r).next) :
    GoesOn a s t j i' x gd r z n c v q lt := by
  intro stands
  have here : Stands a i j x := by
    rw [Stands, TaskInst.word, prog] at stands
    exact stands
  rw [run.twist word here, stored] at exe
  exact ⟨_, _, exe, State.putStrand_step .., x.moves_with_result z n c v q lt gd r⟩

/-- An instruction that only changes its strand completes with the flags given and the result in gd. -/
theorem Running.completes (run : Running s t j i x) (word : twistWord a = some w) {f : Strand → Strand}
    (exe : exec a s = .next (s.alu t j w false f)) (res : f x = (x.withFlags z n c v q x.lt).setReg gd r) :
    Completes a s t j i x gd r z n c v q :=
  run.goesOn word exe rfl (congrArg (fun y : Strand => s.putStrand t.val j.val i y.next) res)

/-- One that may trap completes so where it does not. -/
theorem Running.completes_of_no_trap (run : Running s t j i x) (word : twistWord a = some w) {code : Strand → Option Nat}
    {f : Strand → Strand} (exe : exec a s = .next (s.aluTrap t j w false code f)) (passes : code x = none)
    (res : f x = (x.withFlags z n c v q x.lt).setReg gd r) : Completes a s t j i x gd r z n c v q := by
  refine run.goesOn word exe rfl ?_
  simp only [passes, res]
  rfl

end

/-! Numbers (R128). -/

theorem over36_eq (e : Int) : over36 e = !fits36 e := by
  simp only [over36, fits36, Bool.not_and, ← decide_not, not_le, not_lt]

theorem word36_eq (e : Int) : word36 e = wordOf e := by
  apply BitVec.eq_of_toNat_eq
  simp only [word36, wordOf, toBits, BitVec.toNat_ofInt, BitVec.toNat_ofNat]
  omega

theorem clamp36_eq (e : Int) : clamp36 e = sat36 e := rfl

theorem clamp18_eq (e : Int) : clamp18 e = sat18 e := rfl

theorem signOf_eq_sign (e : Int) : signOf e = e.sign := by
  unfold signOf
  split_ifs with neg zero
  · exact (Int.sign_eq_neg_one_of_neg neg).symm
  · rw [zero, Int.sign_zero]
  · exact (Int.sign_eq_one_of_pos (by omega)).symm

theorem quotient_eq (a b : Int) : quotient a b = tdiv a b := by
  rw [quotient, tdiv, signOf_eq_sign, signOf_eq_sign]

theorem nearest_eq (a b : Int) : nearest a b = rdiv a b := by
  rw [nearest, rdiv, signOf_eq_sign, signOf_eq_sign]

theorem roundShift_eq (e : Int) {n : Nat} (h : n ≠ 0) : roundShift e n = rsh e n := by
  rw [roundShift, rsh, if_neg h, signOf_eq_sign]

/-- Bit i of a word, by its number. -/
theorem getLsbD_eq_bitOf {n : Nat} (a : BitVec n) (i : Nat) : a.getLsbD i = bitOf a.toNat i :=
  (bitOf_eq_testBit _ _).symm

/-- A bit shifted out by 1 to 36 places. -/
theorem shiftedOut_eq (n : Nat) (b : Bool) :
    (decide (1 ≤ n) && decide (n ≤ 36) && b) = if n = 0 ∨ 36 < n then false else b := by
  by_cases out : n = 0 ∨ 36 < n
  · rw [if_pos out, ← Bool.decide_and, decide_eq_false (by omega), Bool.false_and]
  · rw [if_neg out, ← Bool.decide_and, decide_eq_true (by omega), Bool.true_and]

theorem shiftsLeft_eq (a : Word36) (n : Nat) : shiftsLeft a n = shlWord a n := by
  rw [shiftsLeft, shlWord, shiftedOut_eq, getLsbD_eq_bitOf]

theorem shiftsRight_eq (a : Word36) (n : Nat) : shiftsRight a n = shrWord a n := by
  rw [shiftsRight, shrWord, shiftedOut_eq, getLsbD_eq_bitOf]

theorem shiftsArith_eq (a : Word36) (n : Nat) : shiftsArith a n = sarWord a n := by
  unfold shiftsArith sarWord
  rcases Nat.eq_zero_or_pos n with zero | pos
  · simp [zero]
  rw [if_neg (by omega), decide_eq_true (show 1 ≤ n by omega), Bool.true_and]
  by_cases short : n < 36
  · rw [if_pos short, Nat.min_eq_left short.le, getLsbD_eq_bitOf]
  · rw [if_neg short, Nat.min_eq_right (by omega), BitVec.msb_eq_getLsbD_last]

end Sys2Proof.Machine

/-! PROOFS. Arithmetic, logic, shifts, products and moves of Twist code: the change of flags and of gd that each makes to its
strand is the one that its statement gives (R128, R137, R138). -/

namespace Sys2Proof.Machine

/-! Sums and differences (R128, R137, R138). -/

theorem twistSumsAndDifferences : TwistSumsAndDifferences := by
  intro s t j i x gd ga gb imm run
  simp only [over36_eq]
  exact ⟨run.completes rfl rfl rfl, run.completes rfl rfl rfl, run.completes rfl rfl rfl, run.completes rfl rfl rfl,
    run.completes rfl rfl rfl⟩

theorem twistSaturatingArithmetic : TwistSaturatingArithmetic := by
  intro s t j i x gd ga gb run
  simp only [over36_eq, word36_eq, clamp36_eq, quotient_eq]
  refine ⟨run.completes rfl rfl rfl, run.completes rfl rfl rfl, run.completes rfl rfl rfl, run.completes rfl rfl rfl,
    fun divisor => run.completes_of_no_trap rfl rfl ?_ rfl⟩
  exact if_neg fun zero => divisor (by rw [zero]; rfl)

/-- Settles O1: each of the operations only changes its strand, by the flags and the register that the statement gives. -/
theorem twistArithmetic : Obligations.TwistArithmetic := ⟨twistSumsAndDifferences, twistSaturatingArithmetic⟩

/-! Logic and shifts (R137, R138). -/

/-- The lesser of two words, by either test. -/
theorem min_of_slt (a b : Word36) : (if a.slt b then a else b) = if a.toInt ≤ b.toInt then a else b := by
  rw [BitVec.slt_eq_decide]
  by_cases less : a.toInt < b.toInt
  · simp [less, less.le]
  · by_cases same : a.toInt = b.toInt
    · simp [BitVec.eq_of_toInt_eq same]
    · rw [if_neg (by simpa using less), if_neg (by omega)]

/-- The greater of two words, by either test. -/
theorem max_of_slt (a b : Word36) : (if a.slt b then b else a) = if b.toInt ≤ a.toInt then a else b := by
  rw [BitVec.slt_eq_decide]
  by_cases less : a.toInt < b.toInt
  · rw [if_pos (by simpa using less), if_neg (by omega)]
  · rw [if_neg (by simpa using less), if_pos (by omega)]

theorem twistLogic : TwistLogic := by
  intro s t j i x gd ga gb imm run
  simp only [min_of_slt, max_of_slt]
  exact ⟨run.completes rfl rfl rfl, run.completes rfl rfl rfl, run.completes rfl rfl rfl, run.completes rfl rfl rfl,
    run.completes rfl rfl rfl, run.completes rfl rfl rfl, run.completes rfl rfl rfl, run.completes rfl rfl rfl,
    run.completes rfl rfl rfl⟩

/-- SHI by a mode and a count that the load permits completes with the result and carry of its shift. -/
theorem Running.shi_completes {s : State} {t : Fin 16} {j : Fin 8} {i : TaskInst} {x : Strand} (run : Running s t j i x)
    (gd ga : Fin 32) (mode : Nat) {n : Nat} {imm : BitVec 20} (imm_eq : imm.toNat = 64 * mode + n) (known : mode < 3)
    (short : n < 36) {r : Word36 × Bool}
    (shifted : (if mode = 0 then shlWord (x.reg ga.val) n else if mode = 1 then shrWord (x.reg ga.val) n
      else sarWord (x.reg ga.val) n) = r) :
    Completes (.twShi t j gd ga imm false) s t j i x gd.val r.1 (r.1 == 0) r.1.msb r.2 x.v x.q := by
  have count : (64 * mode + n) % 64 = n := by omega
  have selects : (64 * mode + n) / 64 % 4 = mode := by omega
  refine run.completes_of_no_trap rfl rfl ?_ ?_
  · rw [imm_eq, count, selects]
    exact if_neg (by omega)
  · simp only [imm_eq, count, selects, shifted]
    rfl

theorem twistShifts : TwistShifts := by
  intro s t j i x gd ga gb n run
  simp only [shiftsLeft_eq, shiftsRight_eq, shiftsArith_eq]
  refine ⟨run.completes rfl rfl rfl, run.completes rfl rfl rfl, run.completes rfl rfl rfl, ?_, ?_, ?_⟩
  · exact run.shi_completes gd ga 0 (by rw [BitVec.toNat_ofNat]; omega) (by decide) n.isLt rfl
  · exact run.shi_completes gd ga 1 (by rw [BitVec.toNat_ofNat]; omega) (by decide) n.isLt rfl
  · exact run.shi_completes gd ga 2 (by rw [BitVec.toNat_ofNat]; omega) (by decide) n.isLt rfl

/-- Settles O2: the statement's tests of operands and counts agree with the model's on every operand. -/
theorem twistLogicAndShifts : Obligations.TwistLogicAndShifts := ⟨twistLogic, twistShifts⟩

/-! Products and moves (R128, R137, R138). -/

/-- A Q1.17 result sets the flags Z, N and Q and writes gd. -/
theorem Strand.qResult_eq (x : Strand) (gd : Nat) (e : Int) (sat : Bool) : x.qResult gd e sat =
    (x.withFlags (wordOf (sat18 e) == 0) (wordOf (sat18 e)).msb x.c x.v (x.q || sat || sat18 e != e) x.lt).setReg gd
      (wordOf (sat18 e)) := by
  rw [Bool.or_assoc]
  rfl

theorem twistProducts : TwistProducts := by
  intro s t j i x gd ga gb run
  simp only [over36_eq, word36_eq, clamp18_eq, nearest_eq, roundShift_eq _ (show 17 ≠ 0 by decide)]
  refine ⟨run.completes rfl rfl rfl, run.completes rfl rfl (Strand.qResult_eq ..),
    run.completes rfl rfl (Strand.qResult_eq ..),
    fun divisor => run.completes_of_no_trap rfl rfl ?_ (Strand.qResult_eq ..)⟩
  exact if_neg fun zero => divisor (by rw [zero]; rfl)

/-- Words put together, as a number. -/
theorem toNat_append_eq_add {m n : Nat} (a : BitVec m) (b : BitVec n) : (a ++ b).toNat = a.toNat * 2 ^ n + b.toNat := by
  rw [BitVec.toNat_append, ← Nat.shiftLeft_add_eq_or_of_lt b.isLt, Nat.shiftLeft_eq]

theorem bit_eq_toNat (b : Bool) : bit b = b.toNat := by cases b <;> rfl

/-- The word of RDF: LT above the five flags (R137). -/
theorem rdfWord_eq (z n c v q : Bool) (lt : Tag) :
    (0#25 ++ lt ++ BitVec.ofBool q ++ BitVec.ofBool v ++ BitVec.ofBool c ++ BitVec.ofBool n ++ BitVec.ofBool z : Word36) =
      BitVec.ofNat 36 (bit z + 2 * bit n + 4 * bit c + 8 * bit v + 16 * bit q + 32 * lt.toNat) := by
  apply BitVec.eq_of_toNat_eq
  simp only [toNat_append_eq_add, BitVec.toNat_ofBool, BitVec.toNat_ofNat, bit_eq_toNat]
  have z_lt := z.toNat_lt
  have n_lt := n.toNat_lt
  have c_lt := c.toNat_lt
  have v_lt := v.toNat_lt
  have q_lt := q.toNat_lt
  omega

/-- The word of LUI: the immediate above 16 zeros (R138). -/
theorem luiWord_eq (imm : BitVec 20) : (imm ++ 0#16 : Word36) = imm.setWidth 36 <<< 16 := by
  apply BitVec.eq_of_toNat_eq
  simp only [toNat_append_eq_add, BitVec.toNat_ofNat, BitVec.toNat_shiftLeft, BitVec.toNat_setWidth, Nat.shiftLeft_eq]
  omega

theorem twistMoves : TwistMoves := by
  intro s t j i x gd ga gb imm run
  refine ⟨run.completes rfl rfl rfl, run.completes rfl rfl ?_, run.completes rfl rfl rfl, run.completes rfl rfl ?_,
    fun f fs inLoop => run.completes rfl rfl ?_, run.completes rfl rfl rfl⟩
  · rw [rdfWord_eq]
    rfl
  · rw [luiWord_eq]
    rfl
  · rw [inLoop]
    rfl

/-- Settles O3: the statement's rounding, saturation and words agree with the model's on every operand. -/
theorem twistProductsAndMoves : Obligations.TwistProductsAndMoves := ⟨twistProducts, twistMoves⟩

end Sys2Proof.Machine

/-! PROOFS. The reads of Twist code: what an instruction takes from the input view and from the task's data (R129 to R133). -/

namespace Sys2Proof.Machine

/-! Indexes and addresses within bounds (R129, R131). -/

theorem indexOf_of_indexes {i : TaskInst} {j : Fin 8} {x : Strand} {gi : Fin 32} {n : Nat} (h : Indexes i j x gi n) :
    indexOf i j.val x gi.val = some n := by
  rcases h with ⟨none, zero⟩ | ⟨some, b, bound, index, within⟩
  · rw [indexOf, if_pos none, zero]
  · rw [indexOf, if_neg some, bound]
    simp only [index]
    rw [if_pos (by omega), Int.toNat_natCast]

theorem dataAddr_of_within {i : TaskInst} {x : Strand} {gb off len a : Nat} (addr : (x.reg gb).toInt + (off : Int) = a)
    (within : a + len ≤ progDataWords i.prog) : dataAddr i x gb off len = some a := by
  simp only [dataAddr, addr]
  rw [if_pos (by omega), Int.toNat_natCast]

/-! Slots and nodes of the view (R129, R132). -/

/-- The container of a slot puts its tag above its value (R50). -/
theorem containerWord_eq (e : Entry) : (0#12 ++ e.tag ++ e.value : Word36) = BitVec.ofNat 36 e.container := by
  apply BitVec.eq_of_toNat_eq
  simp only [toNat_append_eq_add, BitVec.toNat_ofNat, Entry.container]
  omega

/-- The last tag of a strand may be set before its result. -/
theorem Strand.setReg_lt_comm (x : Strand) (gd : Nat) (r : Word36) (lt : Tag) :
    { x.setReg gd r with lt := lt } = ({ x with lt := lt } : Strand).setReg gd r := by
  unfold Strand.setReg
  split <;> rfl

section
variable {a : Instr} {s : State} {t : Fin 16} {j : Fin 8} {i : TaskInst} {x : Strand} {w n slot gd : Nat} {gi : Fin 32}
  {r : Word36} {z nf c v q : Bool}

/-- An instruction that reads a slot of the view completes with the slot's tag as its last. -/
theorem Running.slotRead (run : Running s t j i x) (within : Indexes i j x gi n) (word : twistWord a = some w)
    {f : Strand → Entry → Strand} (exe : exec a s = .next (s.slotRead t j w gi.val slot false f))
    (res : f x (i.viewAt (slot + n)) = (x.withFlags z nf c v q x.lt).setReg gd r) :
    GoesOn a s t j i x gd r z nf c v q (i.viewAt (slot + n)).tag := by
  refine run.goesOn word exe rfl ?_
  simp only [indexOf_of_indexes within, res, Strand.setReg_lt_comm]
  rfl

end

theorem twistReadsOfTheView : TwistReadsOfTheView := by
  intro s t j i x gd gi slot node loop n run within
  simp only [containerWord_eq, word36_eq]
  refine ⟨run.slotRead within rfl rfl rfl, run.slotRead within rfl rfl rfl, run.slotRead within rfl rfl rfl,
    fun known => run.goesOn rfl rfl rfl ?_⟩
  rw [if_neg (Nat.not_le.2 known), indexOf_of_indexes within]
  rfl

/-! The window test (R129, R138). -/

/-- The mask of the first n indexes that pass a test. -/
def maskOf (p : Nat → Bool) (n : Nat) : Nat := (upTo n).foldl (fun a k => a + bit (p k) * 2 ^ k) 0

theorem maskOf_succ (p : Nat → Bool) (n : Nat) : maskOf p (n + 1) = maskOf p n + bit (p n) * 2 ^ n := by
  simp [maskOf, upTo, List.range_succ]

theorem bit_lt_two (b : Bool) : bit b < 2 := by cases b <;> decide

theorem testBit_bit (b : Bool) (m : Nat) : (bit b).testBit m = (decide (m = 0) && b) := by
  cases b <;> cases m <;> simp [bit, Nat.testBit_succ]

theorem maskOf_lt (p : Nat → Bool) (n : Nat) : maskOf p n < 2 ^ n := by
  induction n with
  | zero => exact Nat.one_pos
  | succ n ih =>
    have last : bit (p n) * 2 ^ n ≤ 2 ^ n := mul_le_of_le_one_left (Nat.zero_le _) (Nat.lt_succ_iff.1 (bit_lt_two (p n)))
    rw [maskOf_succ, Nat.pow_succ]
    omega

/-- Bit m of the mask tells whether index m passes. -/
theorem testBit_maskOf (p : Nat → Bool) (n m : Nat) : (maskOf p n).testBit m = (decide (m < n) && p m) := by
  induction n with
  | zero => simp [maskOf, upTo]
  | succ n ih =>
    rw [maskOf_succ, Nat.add_comm, Nat.mul_comm, Nat.testBit_two_pow_mul_add _ (maskOf_lt p n), ih, testBit_bit]
    rcases Nat.lt_trichotomy m n with lt | eq | gt
    · simp [lt, Nat.lt_succ_of_lt lt]
    · simp [eq]
    · simp [show ¬m < n by omega, show ¬m < n + 1 by omega, show m - n ≠ 0 by omega]

/-- Does slot m of a window from base on fail its test: is it not GOOD, or outside the bounds (R129)? -/
def TaskInst.failsWindow (i : TaskInst) (base : Nat) (lo hi : Int) (m : Nat) : Bool :=
  let e := i.viewAt (base + m)
  tagQuality e.tag != 0 || decide (e.value.toInt < lo) || decide (hi < e.value.toInt)

theorem twistWindowTest : TwistWindowTest := by
  intro s t j i x gd ga n1 base run lower upper
  refine ⟨BitVec.ofNat 36 (maskOf (i.failsWindow (4 * base.toNat) (x.reg ga.val).toInt (x.reg (ga.val + 1)).toInt)
    (n1.toNat + 1)), run.goesOn rfl rfl rfl ?_, fun m => ?_⟩
  · rw [if_neg (not_or.2 ⟨lower, upper⟩)]
    rfl
  · rw [BitVec.getLsbD_ofNat, testBit_maskOf, decide_eq_true m.isLt, Bool.true_and]
    simp [TaskInst.failsWindow, tagQuality, bne, beq_eq_decide]

/-! Messages of the mill bus (R133). -/

/-- What a run of words put from an address on reads, and what it leaves. -/
theorem find_puts_run {α : Type} (m : SMap α) (a : Nat) (f : Nat → α) (n b : Nat) :
    SMap.find (SMap.puts m ((upTo n).map (fun k => (a + k, f k)))) b =
      if a ≤ b ∧ b < a + n then some (f (b - a)) else SMap.find m b := by
  have keyed : (upTo n).map (fun k => (a + k, f k)) = ((upTo n).map (a + ·)).map (fun k => (k, f (k - a))) := by
    simp [List.map_map, Function.comp_def]
  have keys : b ∈ (upTo n).map (a + ·) ↔ a ≤ b ∧ b < a + n := by
    simp only [upTo, List.mem_map, List.mem_range]
    exact ⟨by rintro ⟨k, _, _⟩; omega, fun _ => ⟨b - a, by omega, by omega⟩⟩
  rw [keyed, SMap.find_puts_map]
  simp only [keys]

theorem all_ownsWord {b : Bytes} {j a n : Nat} (owns : ∀ m < n, ownsWord b j (a + m) = true) :
    (upTo n).all (fun m => ownsWord b j (a + m)) = true :=
  List.all_eq_true.2 fun m hm => owns m (upTo_lt hm)

/-- A read of a receive buffer leaves every task. -/
theorem State.millRead_task (s : State) (ch b n : Nat) : (s.millRead ch b).task n = s.task n :=
  congrArg (fun u : TasksSt => SMap.getD u.task n TaskSt.fresh) ((s.millRead_keeps ch b).parts .tasks (by decide))

/-- The state in which task t has read the message of a number from a receive buffer. -/
def State.mbrRead (s : State) (t ch buf serial : Nat) : State :=
  (s.setTask t { s.task t with mbrSeen := SMap.put (s.task t).mbrSeen (ch * 64 + buf) serial }).millRead ch buf

/-- What runs of a task, with the 18 words of a message in its data. -/
def TaskInst.withMessage (i : TaskInst) (a : Nat) (words : List Word36) : TaskInst :=
  { i with data := SMap.puts i.data ((upTo 18).map (fun n => (a + n, (words[n]?).getD 0))) }

section
variable {s : State} {t : Fin 16} {j : Fin 8} {i : TaskInst} {x : Strand} {gb : Fin 32} {ch : Fin 2} {buf : Fin 64}
  {off : BitVec 16} {a : Nat} (run : Running s t j i x) (addr : (x.reg gb.val).toInt + (off.toNat : Int) = (a : Int))
  (within : a + 18 ≤ progDataWords i.prog) (owns : ∀ m < 18, ownsWord i.prog j.val (a + m) = true)
include run addr within owns

theorem twMbr_without_message (empty : SMap.getD i.mbr (ch.val * 64 + buf.val) none = none) :
    GoesOn (.twMbr t j gb ch buf off false) s t j i x 0 0 true x.n false x.v x.q x.lt := by
  refine run.goesOn rfl rfl rfl ?_
  simp only [dataAddr_of_within addr within, all_ownsWord owns, empty]
  rfl

theorem exec_twMbr_of_message {words : List Word36} {serial : Nat}
    (message : SMap.getD i.mbr (ch.val * 64 + buf.val) none = some (words, serial))
    (stands : Stands (.twMbr t j gb ch buf off false) i j x) :
    ∃ y, exec (.twMbr t j gb ch buf off false) s =
        .next ((s.mbrRead t.val ch.val buf.val serial).putStrand t.val j.val (i.withMessage a words) y) ∧
      MovesTo x y (x.pc + 1) ∧ Writes x y 0 0 ∧
      FlagsAre y false x.n (decide (SMap.find (s.task t.val).mbrSeen (ch.val * 64 + buf.val) ≠ some serial)) x.v x.q
        x.lt := by
  have newer (seen : Option Nat) : (seen != some serial) = decide (seen ≠ some serial) := by simp [bne, beq_eq_decide]
  refine ⟨_, congrArg Host.Outcome.next ((run.twist rfl stands _).trans ?_), x.moves_with_result ..⟩
  simp only [dataAddr_of_within addr within, all_ownsWord owns, message, newer]
  rfl

end

theorem State.mbrRead_task_same (s : State) (t ch buf serial : Nat) : (s.mbrRead t ch buf serial).task t =
    { s.task t with mbrSeen := SMap.put (s.task t).mbrSeen (ch * 64 + buf) serial } := by
  rw [State.mbrRead, State.millRead_task, State.task_setTask_same]

theorem State.mbrRead_task_ne (s : State) {t n : Nat} (other : n ≠ t) (ch buf serial : Nat) :
    (s.mbrRead t ch buf serial).task n = s.task n := by
  rw [State.mbrRead, State.millRead_task, State.task_setTask_ne s _ other]

theorem twistMillBusRead : TwistMillBusRead := by
  intro s t j i x gb ch buf off a run addr within owns
  refine ⟨twMbr_without_message run addr within owns, fun words serial message stands => ?_⟩
  obtain ⟨y, exe, done⟩ := exec_twMbr_of_message run addr within owns message stands
  obtain ⟨task, others, -⟩ := (s.mbrRead t.val ch.val buf.val serial).putStrand_step t j (i.withMessage a words) y
  rw [State.mbrRead_task_same] at task
  refine ⟨_, y, (i.withMessage a words).data, exe, ?_, ?_,
    fun n other => (others n other).trans (s.mbrRead_task_ne other ..), fun m hm => ?_, fun b outside => ?_, ?_, done⟩
  · rw [task, TaskInst.withMessage]
  · rw [task]
  · rw [TaskInst.withMessage, find_puts_run, if_pos (by omega), Nat.add_sub_cancel_left]
  · rw [TaskInst.withMessage, find_puts_run, if_neg (by omega)]
  · rw [task, SMap.find_put_same]

/-- Settles O5: with its index or address within bounds, what the instruction answers is read off the view, the window's
mask bit by bit. -/
theorem twistReads : Obligations.TwistReads := ⟨twistReadsOfTheView, twistWindowTest, twistMillBusRead⟩

end Sys2Proof.Machine

/-! PROOFS. The writes of Twist code: what an instruction puts into the output view, the loops' writes and the task's data
(R130 to R134). -/

namespace Sys2Proof.Machine

theorem sampleOf_eq (e : Int) : BitVec.ofInt 18 e = sampleOf e := by
  apply BitVec.eq_of_toNat_eq
  simp only [sampleOf, toBits, BitVec.toNat_ofInt, BitVec.toNat_ofNat]
  omega

/-- Does an operand saturate to Q1.17, by either test (R128)? -/
theorem qop_saturates (v : Word36) : decide (clamp18 v.toInt ≠ v.toInt) = (qop v).2 := by
  rw [qop, clamp18_eq, decide_not, bne, beq_eq_decide]

/-- A word keeps the low 36 bits of a number. -/
theorem ofNat_mod_word (n : Nat) : BitVec.ofNat 36 (n % 2 ^ 36) = BitVec.ofNat 36 n := by
  apply BitVec.eq_of_toNat_eq
  rw [BitVec.toNat_ofNat, BitVec.toNat_ofNat, Nat.mod_mod]

/-- What does not saturate leaves Q. -/
theorem Strand.stickQ_false (x : Strand) : x.stickQ false = x := by rw [Strand.stickQ, Bool.or_false]

/-- A permitted access of task data changes nothing. -/
theorem State.dataAccess_true {s : State} {t j kind a words : Nat} {i : TaskInst}
    (permitted : (s.dataAccess t j kind a words i).2 = true) : s.dataAccess t j kind a words i = (s, true) :=
  State.acAccess_true _ _ _ _ _ _ permitted

/-- The second word of a descriptor is the one read there. -/
theorem descriptor_length (f : Nat → Word36) : ((((upTo 18).map f)[1]?).getD 0) = f 1 := rfl

/-- Settles O6: with its index or address within bounds, each instruction stores what the statement gives. -/
theorem twistWritesOfTheView : Obligations.TwistWritesOfTheView := by
  intro s t j i x gd gs gi gb m slot loop off n run index
  simp only [sampleOf_eq, qop_saturates, getLsbD_eq_bitOf]
  refine ⟨run.goesOn rfl rfl rfl ?_, run.goesOn rfl rfl rfl ?_, run.goesOn rfl rfl rfl ?_,
    fun mode => run.goesOn rfl rfl rfl ?_,
    run.goesOn rfl rfl rfl ?_, run.goesOn rfl rfl rfl ?_, run.goesOn rfl rfl rfl ?_, run.goesOn rfl rfl rfl ?_,
    fun a addr within => ⟨fun permitted => run.goesOn rfl rfl rfl ?_, fun permitted owns => run.goesOn rfl rfl rfl ?_,
      fun ch buf fits length => run.goesOn rfl rfl rfl ?_⟩⟩
  · rw [indexOf_of_indexes index]
    rfl
  · rw [indexOf_of_indexes index]
    rfl
  · rw [indexOf_of_indexes index]
    rfl
  · simp only [indexOf_of_indexes index, if_pos mode]
    exact congrArg (fun y : Strand => s.putStrand t.val j.val _ y.next) x.stickQ_false
  · rw [← ofNat_mod_word]
    rfl
  · rfl
  · rfl
  · rfl
  · simp only [dataAddr_of_within addr within, State.dataAccess_true permitted]
    rfl
  · simp only [dataAddr_of_within addr within, State.dataAccess_true permitted, Option.filter_some, owns, if_true]
    rfl
  · rw [dataAddr_of_within addr fits]
    have known : fdLengths.contains (s.readWord t.val j.val i (a + 1)).toNat = true := List.contains_iff_mem.2 length
    simp only [descriptor_length, known]
    rfl

end Sys2Proof.Machine

/-! PROOFS. Branches, loops and calls of Twist code, and the trap of a branch by an undefined condition (R127, R139, R142). -/

namespace Sys2Proof.Machine

/-! The tests of BR and BTAG (R139). -/

theorem cond_of_defined (x : Strand) (cond : Fin 12) : x.cond (BitVec.ofNat 4 cond.val).toNat = some (Holds x cond.val) := by
  fin_cases cond <;> rfl

theorem cond_of_undefined (x : Strand) {c : Nat} (h : 12 ≤ c) : x.cond c = none := by
  obtain ⟨k, rfl⟩ := Nat.exists_eq_add_of_le' h
  rfl

/-! Strands that jump (R127). -/

section
variable {a : Instr} {s : State} {t : Fin 16} {j : Fin 8} {i : TaskInst} {x : Strand} {w : Nat}
  {f : State → TaskInst → Strand → State}

/-- An instruction that stores its strand as y leaves it so, and changes nothing else. -/
theorem Running.becomes (run : Running s t j i x) (word : twistWord a = some w) (exe : exec a s = .next (s.twist t j w f))
    {y : Strand} (stored : f s i x = s.putStrand t.val j.val i y) (stands : Stands a i j x) :
    ∃ u, exec a s = .next u ∧ StrandStep s u t j i y := by
  rw [run.twist word stands, stored] at exe
  exact ⟨_, exe, State.putStrand_step ..⟩

/-- An instruction that only jumps leaves registers, flags and LT. -/
theorem Running.goes (run : Running s t j i x) (word : twistWord a = some w) (exe : exec a s = .next (s.twist t j w f))
    {pc : Nat} (stored : f s i x = s.putStrand t.val j.val i (x.jump pc)) (stands : Stands a i j x) :
    ∃ u y, exec a s = .next u ∧ StrandStep s u t j i y ∧ MovesTo x y pc ∧ Writes x y 0 0 ∧
      FlagsAre y x.z x.n x.c x.v x.q x.lt := by
  obtain ⟨u, exe, step⟩ := run.becomes word exe stored stands
  refine ⟨u, x.jump pc, exe, step, .jump pc rfl rfl rfl, fun r => ?_, rfl, rfl, rfl, rfl, rfl, rfl⟩
  rw [if_neg (by omega), Strand.jump_reg]

/-- A branch goes to its target where its test holds, else to the next word. -/
theorem Running.branches (run : Running s t j i x) (word : twistWord a = some w)
    (exe : exec a s = .next (s.twist t j w f)) {target : Nat} {test : Bool} {P : Prop} [Decidable P] (holds : test = true ↔ P)
    (stored : f s i x = s.putStrand t.val j.val i (if test then x.jump target else x.next)) (stands : Stands a i j x) :
    ∃ u y, exec a s = .next u ∧ StrandStep s u t j i y ∧ MovesTo x y (if P then target else x.pc + 1) ∧
      Writes x y 0 0 ∧ FlagsAre y x.z x.n x.c x.v x.q x.lt := by
  refine run.goes word exe (stored.trans (congrArg (s.putStrand t.val j.val i) ?_)) stands
  rw [apply_ite x.jump]
  exact if_congr holds rfl rfl

end

/-! Traps (R142). -/

/-- The trap registers of a task as a trap of the sample of turn k leaves them. -/
def State.trapRegs (s : State) (t k : Nat) (info : TrapInfo) : State :=
  let s := ((s.wr (F.TRAP_INFO_code t) info.code).wr (F.TRAP_INFO_strand t) info.strand).wr (F.TRAP_INFO_user t) info.user
  ((s.wr (F.TRAP_PC_pc t) info.pc).wr (F.TRAP_TURN_LO_turn t) (k % 2 ^ 32)).wr (F.TRAP_TURN_HI_turn t) (k >>> 32)

theorem State.trapRegs_code (s : State) (t k : Nat) {info : TrapInfo} (fits : info.code < 2 ^ 4) :
    (s.trapRegs t k info).rd (F.TRAP_INFO_code t) = info.code := by
  unfold State.trapRegs
  rw [State.rd_wr_ne, State.rd_wr_ne, State.rd_wr_ne, State.rd_wr_ne, State.rd_wr_ne, State.rd_wr_same]
  · exact Nat.mod_eq_of_lt fits
  all_goals simp only [Fld.key, F.TRAP_INFO_code, F.TRAP_INFO_strand, F.TRAP_INFO_user, F.TRAP_PC_pc, F.TRAP_TURN_LO_turn,
    F.TRAP_TURN_HI_turn]; omega

/-- Once the trap registers of a task are written, the rest of its trap leaves them. -/
theorem State.trapInst_trap_regs {s : State} {t : Nat} (ht : t < 16) {i : TaskInst} (inst : (s.task t).inst = some i)
    (info : TrapInfo) {f : Fld} (hf : f.In .trap) : (s.trapInst t info).rd f = (s.trapRegs t i.sample info).rd f := by
  unfold State.trapInst
  simp only [inst]
  rw [(State.dispatchSpindles_in _).rd_eq hf (by decide), (State.nextWaiting_in _ t ht).rd_eq hf (by decide),
    (State.sendCompletion_in _ t _ _ _).rd_eq hf (by decide), (State.taskEvt_in _ t 2 ht).rd_eq hf (by decide),
    (State.freeSpindles_in _ t).rd_eq hf (by decide)]
  rfl

/-- A trap shows its code in the task's trap register. -/
theorem State.trapInst_code {s : State} {t : Nat} (ht : t < 16) {i : TaskInst} (inst : (s.task t).inst = some i)
    {info : TrapInfo} (fits : info.code < 2 ^ 4) : (s.trapInst t info).rd (F.TRAP_INFO_code t) = info.code := by
  rw [State.trapInst_trap_regs ht inst info, State.trapRegs_code s t _ fits]
  refine ⟨?_, ?_, ?_⟩ <;> simp only [F.TRAP_INFO_code, Bank.range] <;> omega

/-- A strand that runs belongs to what runs of its task. -/
theorem inst_of_strandOn {s : State} {t j : Nat} {i : TaskInst} {x : Strand} (h : s.strandOn t j = some (i, x)) :
    (s.task t).inst = some i := by
  unfold State.strandOn at h
  split at h
  · next inst =>
    split at h
    · obtain ⟨-, found⟩ := Option.ite_none_right_eq_some.1 h
      rw [inst, (Prod.mk.inj (Option.some.inj found)).1]
    · exact absurd h (Option.some_ne_none _).symm
  · exact absurd h (Option.some_ne_none _).symm

theorem twBr_undefined_traps {s : State} {t : Fin 16} {j : Fin 8} {i : TaskInst} {x : Strand} (run : Running s t j i x)
    {cond : BitVec 4} {off : BitVec 16} (undefined : 12 ≤ cond.toNat) (stands : Stands (.twBr t j cond off) i j x) :
    Does (.twBr t j cond off) s (fun u => u.rd (F.TRAP_INFO_code t.val) = 8 ∧ u.image = s.image) := by
  have traps : exec (.twBr t j cond off) s = .next (s.trapInst t.val ⟨8, j.val, x.pc, 0⟩) := by
    refine congrArg Host.Outcome.next ((run.twist rfl stands _).trans ?_)
    rw [cond_of_undefined x undefined]
    rfl
  exact ⟨_, traps, State.trapInst_code t.isLt (inst_of_strandOn run.1) (show 8 < 2 ^ 4 by decide),
    ((execTwBr_keeps t j cond off s).of_next traps).parts .image (by decide)⟩

/-- Settles O7: each of the instructions stores its strand at the address that the statement gives; a branch by an undefined
condition traps. -/
theorem twistBranchesLoopsAndCalls : Obligations.TwistBranchesLoopsAndCalls := by
  intro s t j i x run
  refine ⟨fun cond off => run.branches rfl rfl Iff.rfl ?_, fun cond off => twBr_undefined_traps run,
    fun q mask off => ⟨run.branches rfl rfl ?_ rfl, run.branches rfl rfl ?_ rfl, run.branches rfl rfl ?_ rfl,
      run.branches rfl rfl ?_ rfl⟩, fun gc max1 len free => ⟨fun zero => run.goes rfl rfl ?_, 
      fun n count pos within => run.becomes rfl rfl ?_⟩, fun target room => run.becomes rfl rfl ?_, 
      fun r rs calls => run.becomes rfl rfl ?_⟩
  · rw [cond_of_defined]
  · simp [Strand.tagTest]
  · simp [Strand.tagTest]
  · simp [Strand.tagTest]
  · simp [Strand.tagTest]
  · simp only [zero]
    rw [if_neg (by omega), if_neg (by omega), if_pos trivial]
  · simp only [count]
    rw [if_neg (by omega), if_neg (by omega), if_neg (by omega), Int.toNat_natCast, Strand.enterLoop,
      List.take_of_length_le (by omega)]
    rfl
  · rw [if_neg (by omega), Strand.call, List.take_of_length_le (by omega)]
    rfl
  · rw [calls]

end Sys2Proof.Machine

/-! PROOFS. What raising an event source and writing a completion leave of the commands that the miller still owes (R326,
R335). -/

namespace Sys2Proof.Machine

/-- The same commands of the miller are outstanding in two states. -/
def SameOwed (s t : State) : Prop := t.host.outstanding = s.host.outstanding

theorem SameOwed.rfl {s : State} : SameOwed s s := Eq.refl _

theorem SameOwed.trans {s t u : State} (h : SameOwed s t) (g : SameOwed t u) : SameOwed s u := Eq.trans g h

theorem SameOwed.of_host {s t : State} (h : t.host = s.host) : SameOwed s t := congrArg HostSt.outstanding h

/-- A change of registers, and of the host's bookkeeping but for its commands. -/
theorem SameOwed.of_eq {s t u : State} (h : SameOwed s t) (e : u.host.outstanding = t.host.outstanding) : SameOwed s u :=
  e.trans h

theorem SameOwed.wr {s t : State} (h : SameOwed s t) (f : Fld) (v : Nat) : SameOwed s (t.wr f v) := h

theorem SameOwed.ite {s t u : State} {c : Prop} [Decidable c] (h : SameOwed s t) (g : SameOwed s u) :
    SameOwed s (if c then t else u) := by
  split <;> assumption

theorem SameOwed.foldl {α : Type} {f : State → α → State} (l : List α) {s t : State} (h : SameOwed s t)
    (step : ∀ u a, SameOwed u (f u a)) : SameOwed s (l.foldl f t) := by
  induction l generalizing t with
  | nil => exact h
  | cons a l ih => exact ih (h.trans (step t a))

theorem State.sendMsix_owed (s : State) (v : Nat) : SameOwed s (s.sendMsix v) := .ite .rfl .rfl

theorem State.countMsix_owed (s : State) (v : Nat) : SameOwed s (s.countMsix v) := .ite (s.sendMsix_owed v) .rfl

theorem State.fireSource_owed (s : State) (src a b : Nat) : SameOwed s (s.fireSource src a b) :=
  .of_host ((s.fireSource_keeps src a b).parts .host (by decide))

theorem State.acNote_owed (s : State) (u kind requester len a n : Nat) : SameOwed s (s.acNote u kind requester len a n) :=
  .ite .rfl .rfl

/-- A raise is counted toward its message, or masked. -/
theorem SameOwed.raised {s t : State} (h : SameOwed s t) (f : Fld) (bits v : Nat) (masked : Bool) :
    SameOwed s (if masked then t.wr f bits else (t.wr f bits).countMsix v) :=
  .ite h (h.trans (State.countMsix_owed (t.wr f bits) v))

theorem State.raiseQuiet_owed (s : State) (src a b : Nat) : SameOwed s (s.raiseQuiet src a b) :=
  (s.fireSource_owed src a b).raised ..

theorem SameOwed.raiseQuiet {s t : State} (h : SameOwed s t) (src a b : Nat) : SameOwed s (t.raiseQuiet src a b) :=
  h.trans (t.raiseQuiet_owed src a b)

theorem State.refuseEvent_owed (s : State) (a n : Nat) : SameOwed s (s.refuseEvent a n) := by
  have noted := s.acNote_owed 3 1 4 32 a n
  exact .ite (((noted.wr _ _).raiseQuiet ..).raiseQuiet ..) ((noted.wr _ _).raiseQuiet ..)

theorem State.writeEvent_owed (s : State) (src a b : Nat) : SameOwed s (s.writeEvent src a b) := by
  refine .ite (.ite (.ite .rfl (State.countMsix_owed _ 4)) .rfl) ?_
  split
  · exact s.refuseEvent_owed _ _
  · exact .rfl

theorem State.raiseSource_owed (s : State) (src a b : Nat) : SameOwed s (s.raiseSource src a b) := by
  have fired := s.fireSource_owed src a b
  have recorded {c : Bool} {t : State} (h : SameOwed s t) : SameOwed s (if c then t.writeEvent src a b else t) :=
    .ite (h.trans (t.writeEvent_owed src a b)) h
  unfold State.raiseSource
  refine .ite fired (.ite ?_ ?_)
  · exact recorded (fired.wr _ _)
  · exact (recorded (fired.wr _ _)).trans (State.countMsix_owed _ src)

theorem State.dmaError_owed (s : State) (i ring : Nat) : SameOwed s (s.dmaError i ring) :=
  (SameOwed.rfl (s := s)).trans (State.raiseSource_owed (s.wr F.HOST_ERR_err _) ..)

theorem State.acAccess_owed (s : State) (u kind requester addr len : Nat) :
    SameOwed s (s.acAccess u kind requester addr len).1 := by
  unfold State.acAccess
  split
  · exact .rfl
  · next a n _ =>
    have noted := s.acNote_owed u kind requester len a n
    exact .ite (noted.trans (State.raiseSource_owed ..)) noted

theorem State.writeCpl_owed (s : State) (c : Completion) : SameOwed s (s.writeCpl c) := by
  have judged := s.acAccess_owed 3 1 3
    (s.hostAddr (0x2048 + 32 * c.ring) + SMap.getD s.host.written c.ring 0 % s.cplSize c.ring * 32) 32
  refine .ite .rfl ?_
  split
  · next refused =>
    rw [refused] at judged
    exact judged.trans (State.dmaError_owed ..)
  · next passed =>
    rw [passed] at judged
    refine .ite (.trans ?_ (State.raiseSource_owed ..)) ?_
    · exact judged.of_eq (Eq.refl _)
    · exact judged.of_eq (Eq.refl _)

theorem State.complete_owed (s : State) (c : HostCmd) (status detail r0 r1 : Nat) :
    SameOwed s (s.complete c status detail r0 r1) := by
  unfold State.complete
  simp only
  refine .ite .rfl (.ite ?_ (.ite ?_ ?_))
  · exact s.dmaError_owed 3 _
  · exact .rfl
  · exact s.writeCpl_owed _

theorem State.busyBits_owed (s : State) : SameOwed s s.busyBits := .foldl _ .rfl fun _ _ => .rfl

/-- Finishing the commands that a test picks leaves no such command outstanding. -/
theorem State.finish_outstanding {s : State} (up : s.host.millerUp = true) (p : MillerCmd → Bool)
    (status detail r0 r1 : Nat) :
    (s.finish p status detail r0 r1).host.outstanding = s.host.outstanding.filter (fun m => !p m) := by
  unfold State.finish
  rw [if_neg (by simp [up])]
  exact SameOwed.foldl _ (State.busyBits_owed _) fun u m => .ite .rfl (State.complete_owed ..)

end Sys2Proof.Machine

/-! PROOFS. The end of a program's verification (R148), and the carry of a task's data at an on-line change (R159 to R164). -/

namespace Sys2Proof.Machine

/-! The end of a verification (R148, R149). -/

/-- The slots whose verification has still to end once that of one slot has. -/
def State.verified (s : State) (slot : Nat) : State :=
  { s with progs := { s.progs with verifying := s.progs.verifying.filter (· != slot) } }

/-- What a slot shows of its staged copy: its state, and the code of the test that refused it. -/
def State.showStaged (s : State) (slot state refusal : Nat) : State :=
  (s.wr (F.PROG_STATUS_staged slot) state).wr (F.PROG_STATUS_refusal slot) refusal

theorem State.showStaged_staged (s : State) {slot state refusal : Nat} (h : state < 4) :
    (s.showStaged slot state refusal).rd (F.PROG_STATUS_staged slot) = state := by
  rw [State.showStaged, State.rd_wr_ne, State.rd_wr_same]
  · exact Nat.mod_eq_of_lt h
  · simp only [Fld.key, F.PROG_STATUS_staged, F.PROG_STATUS_refusal]
    omega

theorem State.showStaged_refusal (s : State) (slot state refusal : Nat) :
    (s.showStaged slot state refusal).rd (F.PROG_STATUS_refusal slot) = refusal % 2 ^ (F.PROG_STATUS_refusal slot).width :=
  State.rd_wr_same ..

theorem State.showStaged_progs (s : State) (slot state refusal : Nat) :
    (s.showStaged slot state refusal).progs = s.progs := rfl

/-- The staged copies once a refused copy of a slot is gone that would take the store past its limits (R149). -/
def State.dropped (s : State) (slot : Nat) (b : Bytes) : State :=
  if s.progSpaceBad slot b then { s with progs := { s.progs with staged := SMap.del s.progs.staged slot } } else s

section
variable {s : State} {slot : Fin 16} {b : Bytes} (due : slot.val ∈ s.progs.verifying)
  (staged : SMap.find s.progs.staged slot.val = some b) (up : s.host.millerUp = true)
include due staged up

theorem exec_progVerifyDone_of_passed
    (passed : progVerify (s.act F.HOPPER_LEVEL_level) (s.progSpaceBad slot.val b) b = none) :
    exec (.progVerifyDone slot) s = .next (((s.verified slot.val).showStaged slot.val 2 0).finishLoad slot.val 0 0) := by
  have begun : exec (.progVerifyDone slot) s = _ := if_neg (by simp [due, up])
  rw [begun]
  simp only [staged]
  split
  · rfl
  · next refused => exact absurd (passed.symm.trans refused) (Option.some_ne_none _).symm

theorem exec_progVerifyDone_of_refused {f : Failure}
    (refused : progVerify (s.act F.HOPPER_LEVEL_level) (s.progSpaceBad slot.val b) b = some f) :
    exec (.progVerifyDone slot) s =
      .next ((((s.verified slot.val).dropped slot.val b).showStaged slot.val 3 f.1).finishLoad slot.val 0x0E f.1) := by
  have begun : exec (.progVerifyDone slot) s = _ := if_neg (by simp [due, up])
  rw [begun]
  simp only [staged]
  split
  · next passed => exact absurd (refused.symm.trans passed) (Option.some_ne_none _)
  · next refusal => rw [← Option.some.inj (refused.symm.trans refusal)]; rfl

end

/-- Completing the load of a slot leaves no load of it outstanding. -/
theorem State.finishLoad_outstanding {s : State} (up : s.host.millerUp = true) (slot status detail : Nat) :
    ∀ m ∈ (s.finishLoad slot status detail).host.outstanding, m.op = 0x50 → opByte m.cmd 24 ≠ slot := by
  rw [State.finishLoad, State.finish_outstanding up]
  intro m hm load same
  simp [load, same] at hm

/-- Completing a load leaves what a slot shows. -/
theorem State.finishLoad_rd (s : State) (slot status detail : Nat) {f : Fld} (hf : f.In .prog) :
    (s.finishLoad slot status detail).rd f = s.rd f :=
  RegsIn.rd_eq (State.finish_in s _ status detail 0 0) hf (by decide)

theorem State.finishLoad_progs (s : State) (slot status detail : Nat) :
    (s.finishLoad slot status detail).progs = s.progs :=
  (s.finishLoad_keeps slot status detail).parts .progs (by decide)

theorem staged_in {slot : Nat} (h : slot < 16) : (F.PROG_STATUS_staged slot).In .prog := by
  simp only [Fld.In, F.PROG_STATUS_staged, Bank.range]
  omega

theorem refusal_in {slot : Nat} (h : slot < 16) : (F.PROG_STATUS_refusal slot).In .prog := by
  simp only [Fld.In, F.PROG_STATUS_refusal, Bank.range]
  omega

theorem State.dropped_active (s : State) (slot : Nat) (b : Bytes) : (s.dropped slot b).progs.active = s.progs.active := by
  unfold State.dropped
  split <;> rfl

theorem State.dropped_verifying (s : State) (slot : Nat) (b : Bytes) :
    (s.dropped slot b).progs.verifying = s.progs.verifying := by
  unfold State.dropped
  split <;> rfl

theorem State.dropped_host (s : State) (slot : Nat) (b : Bytes) : (s.dropped slot b).host = s.host := by
  unfold State.dropped
  split <;> rfl

theorem State.dropped_staged_of_room {s : State} {slot : Nat} {b : Bytes} (room : s.progSpaceBad slot b = false) :
    (s.dropped slot b).progs.staged = s.progs.staged := by
  rw [State.dropped, if_neg (by simp [room])]

theorem State.dropped_find_of_space {s : State} {slot : Nat} {b : Bytes} (space : s.progSpaceBad slot b = true) :
    SMap.find (s.dropped slot b).progs.staged slot = none := by
  rw [State.dropped, if_pos space]
  exact SMap.find_del_same _ _

/-- The limits of the store do not depend on what is being verified. -/
theorem State.verified_spaceBad (s : State) (slot : Nat) (b : Bytes) :
    (s.verified slot).progSpaceBad slot b = s.progSpaceBad slot b := rfl

theorem State.not_mem_verified (s : State) (slot : Nat) : slot ∉ (s.verified slot).progs.verifying := by
  simp [State.verified]

section
variable {s : State} {slot : Fin 16} {b : Bytes} (due : slot.val ∈ s.progs.verifying)
  (staged : SMap.find s.progs.staged slot.val = some b) (up : s.host.millerUp = true)
include due staged up

theorem progVerifyDone_of_passed (passed : progVerify (s.act F.HOPPER_LEVEL_level) (s.progSpaceBad slot.val b) b = none) :
    Does (.progVerifyDone slot) s (fun u =>
      slot.val ∉ u.progs.verifying ∧ u.progs.active = s.progs.active ∧ u.progs.staged = s.progs.staged ∧
        u.rd (F.PROG_STATUS_staged slot.val) = 2 ∧ u.rd (F.PROG_STATUS_refusal slot.val) = 0 ∧
        ∀ m ∈ u.host.outstanding, m.op = 0x50 → opByte m.cmd 24 ≠ slot.val) := by
  refine ⟨_, exec_progVerifyDone_of_passed due staged up passed, ?_, ?_, ?_, ?_, ?_, ?_⟩
  · rw [State.finishLoad_progs, State.showStaged_progs]
    exact s.not_mem_verified _
  · rw [State.finishLoad_progs, State.showStaged_progs]
    rfl
  · rw [State.finishLoad_progs, State.showStaged_progs]
    rfl
  · rw [State.finishLoad_rd _ _ _ _ (staged_in slot.isLt), State.showStaged_staged _ (by decide)]
  · rw [State.finishLoad_rd _ _ _ _ (refusal_in slot.isLt), State.showStaged_refusal, Nat.zero_mod]
  · exact State.finishLoad_outstanding (s := (s.verified slot.val).showStaged slot.val 2 0) up _ _ _

theorem progVerifyDone_of_refused {f : Failure}
    (refused : progVerify (s.act F.HOPPER_LEVEL_level) (s.progSpaceBad slot.val b) b = some f) :
    Does (.progVerifyDone slot) s (fun u =>
      slot.val ∉ u.progs.verifying ∧ u.progs.active = s.progs.active ∧
        (s.progSpaceBad slot.val b = false → u.progs.staged = s.progs.staged) ∧
        u.rd (F.PROG_STATUS_staged slot.val) = 3 ∧
        (s.progSpaceBad slot.val b = true → SMap.find u.progs.staged slot.val = none) ∧
        u.rd (F.PROG_STATUS_refusal slot.val) = f.1 % 2 ^ (F.PROG_STATUS_refusal slot.val).width ∧
        ∀ m ∈ u.host.outstanding, m.op = 0x50 → opByte m.cmd 24 ≠ slot.val) := by
  have still : ((s.verified slot.val).dropped slot.val b).host.millerUp = true := by rw [State.dropped_host]; exact up
  refine ⟨_, exec_progVerifyDone_of_refused due staged up refused, ?_, ?_, fun room => ?_, ?_, fun space => ?_, ?_, ?_⟩
  · rw [State.finishLoad_progs, State.showStaged_progs]
    rw [State.dropped_verifying]
    exact s.not_mem_verified _
  · rw [State.finishLoad_progs, State.showStaged_progs]
    exact State.dropped_active (s.verified slot.val) slot.val b
  · rw [State.finishLoad_progs, State.showStaged_progs]
    exact State.dropped_staged_of_room ((s.verified_spaceBad slot.val b).trans room)
  · rw [State.finishLoad_rd _ _ _ _ (staged_in slot.isLt), State.showStaged_staged _ (by decide)]
  · rw [State.finishLoad_progs, State.showStaged_progs]
    exact State.dropped_find_of_space ((s.verified_spaceBad slot.val b).trans space)
  · rw [State.finishLoad_rd _ _ _ _ (refusal_in slot.isLt), State.showStaged_refusal]
  · exact State.finishLoad_outstanding (s := ((s.verified slot.val).dropped slot.val b).showStaged slot.val 3 f.1) still _ _ _

end

end Sys2Proof.Machine

/-! PROOFS. The carry of a task's data at an on-line change (R159 to R164). -/

namespace Sys2Proof.Machine

/-! What a list of entries put into a map reads. -/

/-- A key that a list lacks reads as before. -/
theorem SMap.find_puts_of_lacks {α : Type} {l : List (Nat × α)} {a : Nat} (h : Lacks l a) (m : SMap α) :
    SMap.find (SMap.puts m l) a = SMap.find m a := by
  induction l generalizing m with
  | nil => rfl
  | cons e l ih =>
    have later : Lacks l a := fun f hf => h f (List.mem_cons_of_mem _ hf)
    exact (ih later (SMap.put m e.1 e.2)).trans (SMap.find_put_ne m e.2 (h e List.mem_cons_self))

/-- A key to which a list gives one value reads it. -/
theorem SMap.find_puts_of_gives {α : Type} {l : List (Nat × α)} {a : Nat} {v : α} (h : Gives l a v) (m : SMap α) :
    SMap.find (SMap.puts m l) a = some v := by
  obtain ⟨some, one⟩ := h
  induction l generalizing m with
  | nil => obtain ⟨e, he, -⟩ := some; cases he
  | cons e l ih =>
    have one_later : ∀ f ∈ l, f.1 = a → f.2 = v := fun f hf => one f (List.mem_cons_of_mem _ hf)
    by_cases later : ∃ f ∈ l, f.1 = a
    · exact ih (SMap.put m e.1 e.2) later one_later
    · have lacks : Lacks l a := fun f hf eq => later ⟨f, hf, eq⟩
      obtain ⟨f, hf, eq⟩ := some
      have first : f = e := (List.mem_cons.1 hf).resolve_right fun hl => lacks f hl eq
      subst first
      refine (SMap.find_puts_of_lacks lacks (SMap.put m f.1 f.2)).trans ?_
      rw [eq, SMap.find_put_same, one f List.mem_cons_self eq]

/-! The words of the new layout (R160). -/

/-- The carried words, each with what the old layout holds. -/
def carriedWords (old new : Bytes) (d : SMap Word36) : List (Nat × Word36) :=
  (carryWords old new).map (fun e => (e.1, dataWord old d e.2))

theorem carriedData_of_readable {old new : Bytes} (changed : progIdent old ≠ progIdent new) (d : SMap Word36) :
    carriedData old new d [] = SMap.puts [] (carriedWords old new d) := by
  rw [carriedData, if_neg changed, carriedWords, ← List.filterMap_eq_map]
  rfl

theorem carriedWords_gives {old new : Bytes} {a o : Nat} (d : SMap Word36) (h : Gives (carryWords old new) a o) :
    Gives (carriedWords old new d) a (dataWord old d o) := by
  obtain ⟨⟨e, he, first⟩, one⟩ := h
  refine ⟨⟨_, List.mem_map_of_mem he, first⟩, fun f hf key => ?_⟩
  obtain ⟨g, hg, rfl⟩ := List.mem_map.1 hf
  exact congrArg (dataWord old d) (one g hg key)

theorem carriedWords_lacks {old new : Bytes} {a : Nat} (d : SMap Word36) (h : Lacks (carryWords old new) a) :
    Lacks (carriedWords old new d) a := by
  intro f hf
  obtain ⟨g, hg, rfl⟩ := List.mem_map.1 hf
  exact h g hg

/-- A word that both layouts hold keeps its bits. -/
theorem dataWord_carried {old new : Bytes} (changed : progIdent old ≠ progIdent new) (d : SMap Word36) {a o : Nat}
    (h : Gives (carryWords old new) a o) : dataWord new (carriedData old new d []) a = dataWord old d o := by
  rw [carriedData_of_readable changed, dataWord, SMap.find_puts_of_gives (carriedWords_gives d h)]
  rfl

/-- Every other word takes its initial value. -/
theorem dataWord_not_carried {old new : Bytes} (changed : progIdent old ≠ progIdent new) (d : SMap Word36) {a : Nat}
    (h : Lacks (carryWords old new) a) : dataWord new (carriedData old new d []) a = progInit new a := by
  rw [carriedData_of_readable changed, dataWord, SMap.find_puts_of_lacks (carriedWords_lacks d h)]
  rfl

/-! The registers of a carry (R169). -/

theorem State.carryRegs_valid (s : State) (t : Nat) (n : Nat × Nat × Nat × Nat) (words : Nat) :
    (s.carryRegs t n words).rd (F.ONLINE_CARRY_valid t) = 1 := by
  rw [State.carryRegs, State.rd_wr_ne, State.rd_wr_same]
  · rfl
  · simp only [Fld.key, F.ONLINE_WORDS_words, F.ONLINE_CARRY_valid]
    omega

/-- A bit cleared in a number reads as 0. -/
theorem bitOf_setBit_false (n i : Nat) : bitOf (setBit n i false) i = false := by
  rw [setBit, if_neg Bool.false_ne_true]
  split
  · next set =>
    have odd : n / 2 ^ i % 2 = 1 := by simpa [bitOf, Nat.shiftRight_eq_div_pow] using set
    have less : (n - 2 ^ i * 1) / 2 ^ i = n / 2 ^ i - 1 := Nat.sub_mul_div n (2 ^ i) 1
    rw [Nat.mul_one] at less
    rw [bitOf, Nat.one_shiftLeft, Nat.shiftRight_eq_div_pow, less, beq_eq_false_iff_ne]
    omega
  · next clear => exact Bool.eq_false_iff.2 clear

/-- The end of a carry writes ONLINE_PENDING, and of the other registers ONLINE_STATUS.state alone. -/
theorem State.carryDone_rd (s : State) (t : Nat) {f : Fld} (other : F.ONLINE_STATUS_state.key ≠ f.key) :
    (s.carryDone t).rd f =
      (s.wr F.ONLINE_PENDING_pending (setBit (s.rd F.ONLINE_PENDING_pending) t false)).rd f := by
  unfold State.carryDone
  simp only
  split
  · exact State.rd_wr_ne _ _ _ _ other
  · rfl

theorem State.carryDone_pending (s : State) (t : Nat) :
    bitOf ((s.carryDone t).rd F.ONLINE_PENDING_pending) t = false := by
  have cleared := bitOf_setBit_false (s.rd F.ONLINE_PENDING_pending) t
  rw [State.carryDone_rd s t (by decide), State.rd_wr_same]
  rw [bitOf_eq_testBit] at cleared ⊢
  rw [Nat.testBit_mod_two_pow, cleared, Bool.and_false]

theorem State.carryDone_valid (s : State) (t : Nat) :
    (s.carryDone t).rd (F.ONLINE_CARRY_valid t) = s.rd (F.ONLINE_CARRY_valid t) := by
  rw [State.carryDone_rd, State.rd_wr_ne]
  all_goals simp only [Fld.key, F.ONLINE_PENDING_pending, F.ONLINE_STATUS_state, F.ONLINE_CARRY_valid]; omega

/-! The end of a carry (R159, R164). -/

/-- The task as the end of its carry leaves it before its view copy begins. -/
def TaskSt.carried (x : TaskSt) (i : TaskInst) (old : Bytes) : TaskSt :=
  { x with data := carriedData old i.prog x.data [], oldProg := none, switchAt := none, inst := some { i with carry := none } }

/-- The state in which the new task data is stored, once a join's capture has taken what it needs of the old (R296). -/
def State.carryStored (s : State) (t : Nat) (i : TaskInst) (old : Bytes) : State :=
  (s.saveTask i.sample t (upTo (progDataWords i.prog))).captureFull.setTask t ((s.task t).carried i old)

/-- The state that shows the carry in its registers. -/
def State.carryShown (s : State) (t : Nat) (i : TaskInst) (old : Bytes) : State :=
  ((s.carryStored t i old).carryRegs t (carryCounts old i.prog) (carryWords old i.prog).length).carryDone t

/-- The state at the end of the carry of task t, before the view copy begins, with the extra flush asked for (R164). -/
def State.carriedOver (s : State) (t : Nat) (i : TaskInst) (old : Bytes) : State :=
  { s.carryShown t i old with tasks := { (s.carryShown t i old).tasks with flushWanted := true } }

section
variable {s : State} {t : Nat} {i : TaskInst} {old : Bytes}

theorem State.endCarry_of_readable (held : (s.task t).oldProg = some old) (changed : progIdent old ≠ progIdent i.prog) :
    s.endCarry t i [] = (s.carriedOver t i old).beginCopy t { i with carry := none } := by
  have new : (progIdent old == progIdent i.prog) = false := by simp [changed]
  have readable (l : List (Nat × Nat)) : (l.any fun e => ([] : List Nat).contains e.2) = false := by simp
  unfold State.endCarry
  simp only [held, Option.getD_some, new, readable]
  rfl

end

section
variable (s : State) (t : Nat) (i : TaskInst) (old : Bytes)

theorem State.carryStored_keeps : Keeps [.tasks, .ply] s (s.carryStored t i old) :=
  (((s.saveTask_keeps i.sample t (upTo (progDataWords i.prog))).next (State.captureFull_keeps _) (by decide)).next'
    (by decide)).next (State.setTask_keeps _ t _) (by decide)

theorem State.carryShown_keeps : Keeps [] (s.carryStored t i old) (s.carryShown t i old) :=
  (State.carryRegs_keeps _ t _ _).next (State.carryDone_keeps _ t) (by decide)

theorem State.carriedOver_task : (s.carriedOver t i old).task t = (s.task t).carried i old := by
  have shown : (s.carriedOver t i old).task t = (s.carryShown t i old).task t := rfl
  have stored : (s.carryShown t i old).tasks = (s.carryStored t i old).tasks :=
    (s.carryShown_keeps t i old).parts .tasks (by decide)
  rw [shown, State.task, stored]
  exact State.task_setTask_same ..

/-- The end of a carry leaves the image and the loops. -/
theorem State.carriedOver_views : (s.carriedOver t i old).image = s.image ∧ (s.carriedOver t i old).loops = s.loops := by
  have shown : Keeps [.tasks, .ply] s (s.carryShown t i old) :=
    (s.carryStored_keeps t i old).next (s.carryShown_keeps t i old) (by decide)
  exact ⟨shown.parts .image (by decide), shown.parts .loops (by decide)⟩

theorem State.carryStored_in : RegsIn [] s (s.carryStored t i old) :=
  ((s.saveTask_in i.sample t (upTo (progDataWords i.prog))).next (State.captureFull_in _) (by decide)).next
    (State.setTask_in _ t _) (by decide)

theorem State.carriedOver_in (ht : t < 16) : RegsIn [.online] s (s.carriedOver t i old) := by
  have shown : RegsIn [.online] (s.carryStored t i old) (s.carryShown t i old) :=
    (State.carryRegs_in _ t _ _ ht).next (State.carryDone_in _ t) (by decide)
  exact .upd (((s.carryStored_in t i old).mono (by decide)).next shown (by decide))

end

theorem State.viewSlots_congr {s u : State} (image : u.image = s.image) (b : Bytes) : u.viewSlots b = s.viewSlots b := by
  simp only [State.viewSlots, State.slotNow, State.overlay, State.cell, image]

theorem State.viewNodes_congr {s u : State} (loops : u.loops = s.loops) (b : Bytes) : u.viewNodes b = s.viewNodes b := by
  simp only [State.viewNodes, State.loopShown, State.loop, loops]

theorem onlineCarryDone_does {s : State} {t : Fin 16} {i : TaskInst} {old : Bytes}
    (inst : (s.task t.val).inst = some i) (phase : i.phase = .carry) (held : (s.task t.val).oldProg = some old)
    (changed : progIdent old ≠ progIdent i.prog) (readable : i.carry = some []) : Does (.onlineCarryDone t) s (fun u =>
      (∀ a o, Gives (carryWords old i.prog) a o →
        dataWord i.prog (u.task t.val).data a = dataWord old (s.task t.val).data o) ∧
      (∀ a, Lacks (carryWords old i.prog) a → dataWord i.prog (u.task t.val).data a = progInit i.prog a) ∧
      (u.task t.val).switchAt = none ∧ (u.task t.val).oldProg = none ∧
      (u.task t.val).inst = some { i with phase := .copying, carry := none, view := s.viewSlots i.prog,
                                          nodes := s.viewNodes i.prog } ∧
      bitOf (u.rd F.ONLINE_PENDING_pending) t.val = false ∧ u.rd (F.ONLINE_CARRY_valid t.val) = 1 ∧
      u.tasks.flushWanted = true ∧ RegsIn [.online] s u) := by
  have run : exec (.onlineCarryDone t) s = .next ((s.carriedOver t.val i old).beginCopy t.val { i with carry := none }) := by
    refine Eq.trans ?_ (congrArg Host.Outcome.next (State.endCarry_of_readable held changed))
    show execOnlineCarryDone t s = _
    unfold execOnlineCarryDone
    simp only [inst, phase, readable]
    rfl
  have task : (((s.carriedOver t.val i old).beginCopy t.val { i with carry := none }).task t.val) = _ :=
    State.task_setTask_same ..
  rw [State.carriedOver_task] at task
  obtain ⟨image, loops⟩ := s.carriedOver_views t.val i old
  refine ⟨_, run, fun a o gives => ?_, fun a lacks => ?_, ?_, ?_, ?_, ?_, ?_, ?_, ?_⟩
  · rw [task]
    exact dataWord_carried changed _ gives
  · rw [task]
    exact dataWord_not_carried changed _ lacks
  · rw [task]
    rfl
  · rw [task]
    rfl
  · rw [task, State.viewSlots_congr image, State.viewNodes_congr loops]
  · exact State.carryDone_pending _ t.val
  · exact (State.carryDone_valid _ t.val).trans (State.carryRegs_valid ..)
  · rfl
  · exact (s.carriedOver_in t.val i old t.isLt).next (State.beginCopy_in _ _ _) (by decide)

theorem onlineCarry_does {s : State} {t : Fin 16} {i : TaskInst} {b : Nat} (inst : (s.task t.val).inst = some i)
    (phase : i.phase = .carry) (switch : (s.task t.val).switchAt = some b) (words : List (Fin 65536)) :
    Does (.onlineCarry t words) s (fun u =>
      u.task t.val = { s.task t.val with inst := some { i with carry := some (words.map (·.val)) } } ∧
        (∀ n, n ≠ t.val → u.task n = s.task n) ∧ u = { s with tasks := u.tasks }) := by
  have run : exec (.onlineCarry t words) s = .next (s.setInst t.val { i with carry := some (words.map (·.val)) }) := by
    show execOnlineCarry t words s = _
    unfold execOnlineCarry
    simp only [inst, phase, switch]
    rfl
  exact ⟨_, run, State.task_setTask_same .., fun n other => State.task_setTask_ne _ _ other, rfl⟩

/-- Settles O23: a verification ends by one of its two outcomes, and the data that a carry leaves reads, word by word, what the
layouts' common variables held. -/
theorem programsVerifiedAndCarried : Obligations.ProgramsVerifiedAndCarried := by
  intro s
  refine ⟨fun slot b due staged up => ?_, fun t i b old inst phase switch held changed =>
    ⟨onlineCarry_does inst phase switch, onlineCarryDone_does inst phase held changed⟩⟩
  intro verdict
  rcases outcome : verdict with _ | f
  · obtain ⟨u, run, done, active, kept, state, code, owed⟩ := progVerifyDone_of_passed due staged up outcome
    exact ⟨u, run, done, active, fun _ => kept, fun _ => ⟨kept, state, code⟩,
      fun f no => absurd no (Option.some_ne_none f).symm, owed⟩
  · obtain ⟨u, run, done, active, room, state, space, code, owed⟩ := progVerifyDone_of_refused due staged up outcome
    exact ⟨u, run, done, active, room, fun no => absurd no (Option.some_ne_none f),
      fun g same => ⟨state, space, Option.some.inj same ▸ code⟩, owed⟩

end Sys2Proof.Machine

/-! PROOFS. A command's completion in its ring: what writing one shows, and what of the state it does not depend on (R321,
R325 to R327). -/

namespace Sys2Proof.Machine

/-- From s to t the host's part has changed at most in what the event engine counts of its messages and records. -/
def EventsOnly (s t : State) : Prop :=
  ∃ coal evtWritten evtDropped, t.host = { s.host with coal, evtWritten, evtDropped }

theorem EventsOnly.of_host {s t : State} (h : t.host = s.host) : EventsOnly s t := ⟨_, _, _, h⟩

theorem EventsOnly.rfl {s : State} : EventsOnly s s := .of_host (Eq.refl _)

theorem EventsOnly.trans {s t u : State} (h : EventsOnly s t) (g : EventsOnly t u) : EventsOnly s u := by
  obtain ⟨_, _, _, first⟩ := h
  obtain ⟨coal, evtWritten, evtDropped, second⟩ := g
  exact ⟨coal, evtWritten, evtDropped, by rw [second, first]⟩

theorem EventsOnly.wr {s t : State} (h : EventsOnly s t) (f : Fld) (v : Nat) : EventsOnly s (t.wr f v) := h

theorem EventsOnly.ite {s t u : State} {c : Prop} [Decidable c] (h : EventsOnly s t) (g : EventsOnly s u) :
    EventsOnly s (if c then t else u) := by
  split <;> assumption

theorem EventsOnly.consumed {s t : State} (h : EventsOnly s t) : t.host.consumed = s.host.consumed := by
  obtain ⟨_, _, _, same⟩ := h
  rw [same]

theorem EventsOnly.written {s t : State} (h : EventsOnly s t) : t.host.written = s.host.written := by
  obtain ⟨_, _, _, same⟩ := h
  rw [same]

theorem State.countMsix_events (s : State) (v : Nat) : EventsOnly s (s.countMsix v) :=
  .ite (.ite ⟨_, _, _, rfl⟩ ⟨_, _, _, rfl⟩) ⟨_, _, _, rfl⟩

theorem State.fireSource_events (s : State) (src a b : Nat) : EventsOnly s (s.fireSource src a b) :=
  .of_host ((s.fireSource_keeps src a b).parts .host (by decide))

theorem State.acNote_events (s : State) (u kind requester len a n : Nat) :
    EventsOnly s (s.acNote u kind requester len a n) :=
  .of_host ((s.acNote_keeps u kind requester len a n).parts .host (by decide))

/-- A raise shown in a register is counted toward its message, or masked. -/
theorem EventsOnly.raised {s t : State} (h : EventsOnly s t) (f : Fld) (bits v : Nat) (masked : Bool) :
    EventsOnly s (if masked then t.wr f bits else (t.wr f bits).countMsix v) :=
  .ite h (h.trans ((t.wr f bits).countMsix_events v))

theorem EventsOnly.raiseQuiet {s t : State} (h : EventsOnly s t) (src a b : Nat) : EventsOnly s (t.raiseQuiet src a b) :=
  (h.trans (t.fireSource_events src a b)).raised ..

theorem State.refuseEvent_events (s : State) (a n : Nat) : EventsOnly s (s.refuseEvent a n) := by
  have noted := s.acNote_events 3 1 4 32 a n
  exact .ite (((noted.wr _ _).raiseQuiet ..).raiseQuiet ..) ((noted.wr _ _).raiseQuiet ..)

theorem State.writeEvent_events (s : State) (src a b : Nat) : EventsOnly s (s.writeEvent src a b) := by
  have dropped (t : State) (h : EventsOnly s t) : EventsOnly s (t.countMsix 4) := h.trans (t.countMsix_events 4)
  refine .ite (.ite (.ite ⟨_, _, _, rfl⟩ (dropped _ ⟨_, _, _, rfl⟩)) ⟨_, _, _, rfl⟩) ?_
  split
  · exact s.refuseEvent_events _ _
  · exact ⟨_, _, _, rfl⟩

theorem State.raiseSource_events (s : State) (src a b : Nat) : EventsOnly s (s.raiseSource src a b) := by
  have fired := s.fireSource_events src a b
  have recorded {c : Bool} {t : State} (h : EventsOnly s t) : EventsOnly s (if c then t.writeEvent src a b else t) :=
    .ite (h.trans (t.writeEvent_events src a b)) h
  unfold State.raiseSource
  refine .ite fired (.ite ?_ ?_)
  · exact recorded (fired.wr _ _)
  · exact (recorded (fired.wr _ _)).trans (State.countMsix_events _ src)

/-- Where the next completion of a ring goes (R325). -/
def State.cplPlace (s : State) (r : Nat) : Nat :=
  s.hostAddr (0x2048 + 32 * r) + SMap.getD s.host.written r 0 % s.cplSize r * 32

/-- The bytes of a ring's next completion (R327). -/
def State.cplBytes (s : State) (e : Completion) : Bytes :=
  leBytes 4 e.tag ++ leBytes 2 e.op ++ leBytes 2 e.status ++ leBytes 4 (SMap.getD s.host.consumed e.ring 0) ++
    leBytes 1 e.ring ++ [0] ++ leBytes 2 e.detail ++ leBytes 8 e.result0 ++ leBytes 4 e.result1 ++ [0, 0, 0] ++
    leBytes 1 (bit (SMap.getD s.host.written e.ring 0 / s.cplSize e.ring % 2 == 0))

/-- The state in which a completion has entered its ring, before its message. -/
def State.cplEntered (s : State) (e : Completion) : State :=
  let t := s.emit (.host (s.cplPlace e.ring) (s.cplBytes e))
  let u : State := { t with host := { t.host with
    written := SMap.put t.host.written e.ring (SMap.getD s.host.written e.ring 0 + 1) } }
  u.wrb (F.HRING_STATUS_blocked e.ring) (decide (s.cplSize e.ring ≤ u.cplHeld e.ring))

/-- A completion that the DMA unit lets through enters its ring, and its message follows. -/
theorem State.writeCpl_admitted {s : State} {e : Completion} (runs : s.cplStopped e.ring = false)
    (admitted : (s.acAccess 3 1 3 (s.cplPlace e.ring) 32).2 = true) :
    s.writeCpl e =
      if e.irq || e.status != 0 then (s.cplEntered e).raiseSource e.ring 0 0 else s.cplEntered e := by
  unfold State.writeCpl
  simp only [runs]
  rw [State.cplPlace] at admitted
  rw [State.acAccess_true _ _ _ _ _ _ admitted]
  rfl

/-- What the host sees of a completion that enters its ring. -/
theorem State.writeCpl_shows {s : State} {e : Completion} (runs : s.cplStopped e.ring = false)
    (admitted : (s.acAccess 3 1 3 (s.cplPlace e.ring) 32).2 = true) :
    (s.writeCpl e).host.consumed = s.host.consumed ∧
      (s.writeCpl e).host.written = SMap.put s.host.written e.ring (SMap.getD s.host.written e.ring 0 + 1) ∧
      Out.host (s.cplPlace e.ring) (s.cplBytes e) ∈ (s.writeCpl e).out := by
  have entered : Out.host (s.cplPlace e.ring) (s.cplBytes e) ∈ (s.cplEntered e).out :=
    List.mem_append_right _ (List.mem_singleton_self _)
  rw [State.writeCpl_admitted runs admitted]
  split
  · have raised := (s.cplEntered e).raiseSource_events e.ring 0 0
    exact ⟨raised.consumed, raised.written, ((s.cplEntered e).raiseSource_keeps e.ring 0 0).sent.subset entered⟩
  · exact ⟨rfl, rfl, entered⟩

/-! What a completion depends on: the host's part, the event and power banks of the registers, and the active settings. -/

theorem State.acAccess_passes_congr {s t : State} (active : t.hop.active = s.hop.active) (u kind requester addr len : Nat) :
    (t.acAccess u kind requester addr len).2 = (s.acAccess u kind requester addr len).2 := by
  have settings (v : State) : v.acJudge u kind addr len =
      ({ s with hop := { s.hop with active := v.hop.active } } : State).acJudge u kind addr len := rfl
  have judged : t.acJudge u kind addr len = s.acJudge u kind addr len := by rw [settings t, active]
  exact Bool.eq_iff_iff.2 (by rw [State.acAccess_passes_iff, State.acAccess_passes_iff, judged])

section
variable {A : List Bank} {s t : State} (regs : RegsIn A s t)
include regs

theorem RegsIn.cplSize (events : Bank.events ∉ A) (r : Fin 4) : t.cplSize r.val = s.cplSize r.val := by
  have width : t.rd (F.HRING_CTRL_cpl_log2 r.val) = _ := regs.rd_eq (b := .events)
    (by simp only [Fld.In, F.HRING_CTRL_cpl_log2, Bank.range]; omega) events
  rw [State.cplSize, State.cplSize, width]

theorem RegsIn.cplStopped (events : Bank.events ∉ A) (r : Fin 4) : t.cplStopped r.val = s.cplStopped r.val := by
  have enable : t.rd (F.HRING_CTRL_enable r.val) = _ := regs.rd_eq (b := .events)
    (by simp only [Fld.In, F.HRING_CTRL_enable, Bank.range]; omega) events
  have error : t.rd (F.HRING_STATUS_error r.val) = _ := regs.rd_eq (b := .events)
    (by simp only [Fld.In, F.HRING_STATUS_error, Bank.range]; omega) events
  rw [State.cplStopped, State.cplStopped, State.on, State.on, State.on, State.on, enable, error]

theorem RegsIn.pd_eq (power : Bank.power ∉ A) (d : Pd) : t.pd d = s.pd d := by
  have domains : t.rd F.PWR_DOMAINS_on = _ := regs.rd_eq (b := .power) (by decide) power
  rw [State.pd, State.pd, domains]

end

/-- A ready command's ring takes completions. -/
theorem Ready.runs {s : State} {c : HostCmd} {op : Nat} (ready : Ready s c op) : s.cplStopped c.ring.val = false := by
  have begins := ready.begins
  simp only [State.begins, State.ringOpen, Bool.and_eq_true, Bool.not_eq_true'] at begins
  obtain ⟨⟨⟨⟨⟨-, takes⟩, -⟩, -⟩, -⟩, -⟩ := begins
  exact takes

/-- The completion of a command with a status and its results. -/
def completionOf (c : HostCmd) (status detail r0 r1 : Nat) : Completion :=
  ⟨c.ring.val, c.desc.tag.toNat, c.desc.op.toNat, status, detail, r0, r1, bitOf c.desc.flags.toNat 2⟩

/-- A ready command completes from every state that its own work may have led to: the host has its command taken and nothing
else, the rings and the power are as they were, and so are the active settings. -/
theorem Ready.completes {s u : State} {c : HostCmd} {op : Nat} {A : List Bank} (ready : Ready s c op)
    (host : u.host = (s.consume c.ring.val).host) (regs : RegsIn A s u) (events : Bank.events ∉ A) (power : Bank.power ∉ A)
    (active : u.hop.active = s.hop.active) (status detail r0 r1 : Nat) :
    Completed s (u.complete c status detail r0 r1) c status detail r0 r1 := by
  obtain ⟨link, dma⟩ := ready.links
  have size := regs.cplSize events c.ring
  have runs : u.cplStopped c.ring.val = false := (regs.cplStopped events c.ring).trans ready.runs
  have up : u.host.linkDown = false := by rw [host]; exact link
  have free : u.dmaOk = true := by
    rw [State.dmaOk, host, regs.pd_eq power]
    exact dma
  have place : u.cplPlace c.ring.val = cplAddr s c := by
    rw [State.cplPlace, size, State.hostAddr, host]
    rfl
  have admitted : (u.acAccess 3 1 3 (u.cplPlace c.ring.val) 32).2 = true := by
    rw [place, State.acAccess_passes_congr active]
    exact ready.admitted
  have written : u.complete c status detail r0 r1 =
      u.writeCpl (completionOf c status detail r0 r1) := by
    unfold State.complete
    simp only [ready.loud, runs, up, free]
    rfl
  obtain ⟨consumed, count, entered⟩ :=
    State.writeCpl_shows (e := completionOf c status detail r0 r1) runs admitted
  rw [written]
  refine ⟨?_, ?_, ?_⟩
  · rw [consumed, host]
    exact SMap.find_put_same _ _ _
  · rw [count, host]
    exact SMap.find_put_same _ _ _
  · simp only [completionOf, place, State.cplBytes, size, host] at entered
    have taken : SMap.getD (s.consume c.ring.val).host.consumed c.ring.val 0 = SMap.getD s.host.consumed c.ring.val 0 + 1 :=
      SMap.getD_put_same _ _ _ _
    rw [taken] at entered
    exact entered

/-! Completing leaves every unit but the host's and the recorder's. -/

section
variable (s : State) (c : HostCmd) (status detail r0 r1 : Nat)

@[simp] theorem State.complete_image : (s.complete c status detail r0 r1).image = s.image :=
  (s.complete_keeps c status detail r0 r1).parts .image (by decide)

@[simp] theorem State.complete_hop : (s.complete c status detail r0 r1).hop = s.hop :=
  (s.complete_keeps c status detail r0 r1).parts .hop (by decide)

@[simp] theorem State.complete_progs : (s.complete c status detail r0 r1).progs = s.progs :=
  (s.complete_keeps c status detail r0 r1).parts .progs (by decide)

end

end Sys2Proof.Machine

/-! PROOFS. The host's commands that write: what each does once it begins and its buffer has moved, and that it completes,
or waits with its order or its boundary (R63 to R65, R68, R148, R346 to R348, R377, R378). -/

namespace Sys2Proof.Machine

theorem Buffered.aligned {s : State} {c : HostCmd} {kind len : Nat} (buffered : Buffered s c kind len) :
    bufOk c len = true := by
  obtain ⟨aligned, -, -, -⟩ := buffered
  exact aligned

/-- A buffer of some length has an address. -/
theorem Buffered.buf_ne_zero {s : State} {c : HostCmd} {kind len : Nat} (buffered : Buffered s c kind len)
    (nonempty : 0 < len) : c.desc.buf.toNat ≠ 0 := by
  have aligned := buffered.aligned
  simp only [bufOk, Bool.and_eq_true, Bool.or_eq_true, beq_iff_eq, bne_iff_ne] at aligned
  exact aligned.2.resolve_left (by omega)

/-- A command runs by its own meaning, and what it leaves is judged. -/
theorem Ready.does {s : State} {c : HostCmd} {op : Nat} (ready : Ready s c op) {i : Instr} {f : State → State}
    {P : State → Prop} (means : exec i s = .next (s.hostRow c op f)) (holds : P (f (s.consume c.ring.val))) : Does i s P :=
  ⟨_, means, by rw [ready.hostRow]; exact holds⟩

/-! Signals and loop requests (R68, R123, R330, R331). -/

/-- The command's writes wait for the boundary of R68, and it has completed with that. -/
def WritesWait (s : State) (c : HostCmd) (ws : List HostWrite) (t : State) : Prop :=
  t.image = { s.image with waiting := s.image.waiting ++ ws.map (fun w => (s.boundary2, w)) } ∧
    t.hop = s.hop ∧ Completed s t c 0 0 s.boundary2 0

@[simp] theorem State.hostWrites_hop (s : State) (b : Nat) (ws : List HostWrite) : (s.hostWrites b ws).hop = s.hop :=
  (s.hostWrites_keeps b ws).parts .hop (by decide)

@[simp] theorem State.hostWrites_host (s : State) (b : Nat) (ws : List HostWrite) : (s.hostWrites b ws).host = s.host :=
  (s.hostWrites_keeps b ws).parts .host (by decide)

@[simp] theorem State.hostWrites_mill (s : State) (b : Nat) (ws : List HostWrite) : (s.hostWrites b ws).mill = s.mill :=
  (s.hostWrites_keeps b ws).parts .mill (by decide)

theorem Ready.hostWrites_wait {s : State} {c : HostCmd} {op : Nat} (ready : Ready s c op) (ws : List HostWrite) :
    WritesWait s c ws (((s.consume c.ring.val).hostWrites s.boundary2 ws).complete c 0 0 s.boundary2 0) := by
  refine ⟨(State.complete_image ..).trans (State.hostWrites_image ..),
    (State.complete_hop ..).trans (State.hostWrites_hop ..), ?_⟩
  refine ready.completes (A := []) (State.hostWrites_host ..)
    (.trans (t := s.consume c.ring.val) (.of_regs rfl) (State.hostWrites_in _ _ _)) (by decide) (by decide) ?_ ..
  rw [State.hostWrites_hop]
  rfl

/-- Entries that the key or their slots' lock_ok permits, and that name program slots, wait for the boundary of R68. -/
theorem State.sigEntries_permitted {s : State} (c : HostCmd) {es : List (Nat × Nat)}
    (passes : ∀ e ∈ es, e.1 < 262144 ∧ s.slotKind e.1 = 3 ∧ (s.key ≠ 0 ∨ s.act (F.SLOT_POL_0_lock_ok e.1) = 1)) :
    s.sigEntries c es = (s.hostWrites s.boundary2
      (es.map (fun e => .slot (BitVec.ofNat 18 e.1) (BitVec.ofNat 18 e.2)))).complete c 0 0 s.boundary2 0 := by
  have keyed : ∀ e ∈ es, (s.key != 0 || (decide (e.1 < 262144) && s.aon (F.SLOT_POL_0_lock_ok e.1))) = true := by
    intro e he
    obtain ⟨inside, -, permitted⟩ := passes e he
    simpa [inside, State.aon] using permitted
  have program : ∀ e ∈ es, (s.slotKind e.1 == 3) = true := by
    intro e he
    obtain ⟨-, kind, -⟩ := passes e he
    exact beq_iff_eq.2 kind
  unfold State.sigEntries
  rw [firstBad_eq_none keyed, firstBad_eq_none fun e he => decide_eq_true (passes e he).1, firstBad_eq_none program]

theorem cmdSigWrite_does {s : State} {c : HostCmd} (ready : Ready s c 0x11) (least : 1 ≤ opAt c 24 4)
    (most : opAt c 24 4 ≤ 4096) (buffered : Buffered s c 0 (8 * opAt c 24 4))
    (passes : ∀ e ∈ pairsOf c.data (opAt c 24 4),
      e.1 < 262144 ∧ s.slotKind e.1 = 3 ∧ (s.key ≠ 0 ∨ s.act (F.SLOT_POL_0_lock_ok e.1) = 1)) :
    Does (.cmdSigWrite c) s (WritesWait s c ((pairsOf c.data (opAt c 24 4)).map
      (fun e => .slot (BitVec.ofNat 18 e.1) (BitVec.ofNat 18 e.2)))) := by
  refine ready.does rfl ?_
  rw [State.sigWrite_buffered ⟨least, most⟩ (buffered.buf_ne_zero (by omega)) (buffered.consume c.ring.val),
    State.sigEntries_permitted (s := s.consume c.ring.val) c passes]
  exact ready.hostWrites_wait _

theorem State.loopWrite_target {s : State} {c : HostCmd} (inside : opAt c 24 2 < 4096) (target : opByte c 26 = 1)
    (host : s.act (F.LOOP_CTRL_sp_kind (opAt c 24 2)) = 0) :
    s.loopWrite c = (s.hostWrites s.boundary2 [.loop (Fin.ofNat 4096 (opAt c 24 2)) (some (BitVec.ofNat 18 (opAt c 28 4)))
      none none]).complete c 0 0 s.boundary2 0 := by
  have bits : bitOf 1 0 = true ∧ bitOf 1 1 = false ∧ bitOf 1 2 = false := by decide
  obtain ⟨writesTarget, noMode, noManual⟩ := bits
  unfold State.loopWrite
  simp only [target, host, writesTarget, noMode, noManual]
  rw [if_neg (by simpa using inside), if_neg (by decide), if_neg (by decide)]
  rfl

theorem cmdLoopWrite_does {s : State} {c : HostCmd} (ready : Ready s c 0x21) (inside : opAt c 24 2 < 4096)
    (target : opByte c 26 = 1) (host : s.act (F.LOOP_CTRL_sp_kind (opAt c 24 2)) = 0) :
    Does (.cmdLoopWrite c) s (WritesWait s c
      [.loop (Fin.ofNat 4096 (opAt c 24 2)) (some (BitVec.ofNat 18 (opAt c 28 4))) none none]) := by
  refine ready.does rfl ?_
  rw [State.loopWrite_target (s := s.consume c.ring.val) inside target host]
  exact ready.hostWrites_wait _

/-! Forces (R63 to R65). -/

theorem length_eraseDups_le {α : Type} [BEq α] [LawfulBEq α] (l : List α) : l.eraseDups.length ≤ l.length := by
  induction h : l.length using Nat.strongRecOn generalizing l with
  | ind n ih =>
    cases l with
    | nil => simp
    | cons a l =>
      rw [List.eraseDups_cons, List.length_cons]
      rw [List.length_cons] at h
      have fewer := List.length_filter_le (fun b => !b == a) l
      have rest := ih _ (by omega) (l.filter (fun b => !b == a)) rfl
      omega

/-- May a slot be forced or unforced: has it a defined kind, and is it no host input (R63)? -/
def State.Forceable (s : State) (x : Nat) : Prop := x < 262144 ∧ s.slotKind x ≠ 0 ∧ s.slotKind x ≠ 3

theorem State.forceSlots_accepted {s : State} (c : HostCmd) {slots : List Nat} (forceable : ∀ x ∈ slots, s.Forceable x)
    (f : State → State) : s.forceSlots c slots f = f s := by
  have kinds : ∀ x ∈ slots, (s.slotKind x != 0 && s.slotKind x != 3) = true := by
    intro x hx
    obtain ⟨-, defined, noInput⟩ := forceable x hx
    simp [defined, noInput]
  unfold State.forceSlots
  rw [firstBad_eq_none fun x hx => decide_eq_true (forceable x hx).1, firstBad_eq_none kinds]

/-- The boundary of an order of forces: the order's own with a partner, the next one without (R64). -/
def State.forceBoundary (s : State) : Nat := if s.plyState = 2 then s.orderBoundary else s.nextBoundary

/-- The command's forces wait in an order of their own, and the command waits for it. -/
def ForceOrdered (s : State) (c : HostCmd) (op : Nat) (l : List (BitVec 18 × Option Sample)) (t : State) : Prop :=
  t.ply.orders = s.ply.orders ++ [⟨true, 2, s.ply.nextSeq, s.forceBoundary, .force l, s.plyState != 2⟩] ∧
    t.host.outstanding = s.host.outstanding ++ [⟨c, op, some s.forceBoundary, some s.ply.nextSeq, false, false⟩] ∧
    t.image = s.image ∧ t.hop = s.hop

theorem State.sendOrder_orders (s : State) (code boundary digest : Nat) (content : OrderContent) :
    (s.sendOrder code boundary digest content).ply.orders =
      s.ply.orders ++ [⟨true, code, s.ply.nextSeq, boundary, content, false⟩] := by
  unfold State.sendOrder
  simp only
  split <;> rfl

/-- A command that waits is the last of those outstanding. -/
theorem State.holdCmd_outstanding (s : State) (c : HostCmd) (op : Nat) (b order : Option Nat) :
    (s.holdCmd c op b order).host.outstanding = s.host.outstanding ++ [⟨c, op, b, order, false, false⟩] :=
  State.busyBits_owed _

section
variable (s : State) (c : HostCmd) (op : Nat) (b order : Option Nat)

@[simp] theorem State.holdCmd_image : (s.holdCmd c op b order).image = s.image :=
  (s.holdCmd_keeps c op b order).parts .image (by decide)

@[simp] theorem State.holdCmd_hop : (s.holdCmd c op b order).hop = s.hop :=
  (s.holdCmd_keeps c op b order).parts .hop (by decide)

@[simp] theorem State.holdCmd_progs : (s.holdCmd c op b order).progs = s.progs :=
  (s.holdCmd_keeps c op b order).parts .progs (by decide)

@[simp] theorem State.holdCmd_ply : (s.holdCmd c op b order).ply = s.ply :=
  (s.holdCmd_keeps c op b order).parts .ply (by decide)

@[simp] theorem State.holdCmd_mill : (s.holdCmd c op b order).mill = s.mill :=
  (s.holdCmd_keeps c op b order).parts .mill (by decide)

end

theorem State.orderForce_ordered (s : State) (c : HostCmd) (op : Nat) (l : List (BitVec 18 × Option Sample)) :
    ForceOrdered s c op l (s.orderForce c op l) := by
  have keeps := s.orderForce_keeps c op l
  have ordered : (s.orderForce c op l).ply.orders =
        s.ply.orders ++ [⟨true, 2, s.ply.nextSeq, s.forceBoundary, .force l, s.plyState != 2⟩] ∧
      (s.orderForce c op l).host.outstanding =
        s.host.outstanding ++ [⟨c, op, some s.forceBoundary, some s.ply.nextSeq, false, false⟩] := by
    by_cases active : s.plyState = 2
    · have sent := s.sendOrder_keeps 2 s.orderBoundary 0 (.force l)
      have host : (s.sendOrder 2 s.orderBoundary 0 (.force l)).host = s.host := sent.parts .host (by decide)
      rw [State.orderForce, if_pos (beq_iff_eq.2 active), State.forceBoundary, if_pos active]
      simp only
      rw [State.holdCmd_ply, State.sendOrder_orders, State.holdCmd_outstanding, host, active]
      exact ⟨rfl, rfl⟩
    · rw [State.orderForce, if_neg (by simpa using active), State.forceBoundary, if_neg active]
      simp only
      rw [State.holdCmd_ply, State.holdCmd_outstanding, bne_iff_ne.2 active]
      exact ⟨rfl, rfl⟩
  obtain ⟨orders, outstanding⟩ := ordered
  exact ⟨orders, outstanding, keeps.parts .image (by decide), keeps.parts .hop (by decide)⟩

theorem cmdForce_does {s : State} {c : HostCmd} (ready : Ready s c 0x30) (least : 1 ≤ opAt c 24 4)
    (most : opAt c 24 4 ≤ 256) (buffered : Buffered s c 0 (8 * opAt c 24 4))
    (forceable : ∀ e ∈ pairsOf c.data (opAt c 24 4), s.Forceable e.1)
    (room : (s.forcedSoon ++ (pairsOf c.data (opAt c 24 4)).map (·.1)).length ≤ 4096) :
    Does (.cmdForce c) s (ForceOrdered s c 0x30 ((pairsOf c.data (opAt c 24 4)).map
      (fun e => (BitVec.ofNat 18 e.1, some (BitVec.ofNat 18 e.2))))) := by
  refine ready.does rfl ?_
  have aligned := buffered.aligned
  have slots : ∀ x ∈ (pairsOf c.data (opAt c 24 4)).map (·.1), (s.consume c.ring.val).Forceable x := by
    intro x hx
    obtain ⟨e, he, rfl⟩ := List.mem_map.1 hx
    exact forceable e he
  have fits : (upTo (opAt c 24 4)).find? (fun i => decide (4096 < ((s.consume c.ring.val).forcedSoon ++
      ((pairsOf c.data (opAt c 24 4)).take (i + 1)).map (·.1)).eraseDups.length)) = none := by
    refine List.find?_eq_none.2 fun i _ => ?_
    have once := length_eraseDups_le ((s.consume c.ring.val).forcedSoon ++
      ((pairsOf c.data (opAt c 24 4)).take (i + 1)).map (·.1))
    have soon : (s.consume c.ring.val).forcedSoon = s.forcedSoon := rfl
    rw [soon] at once ⊢
    simp only [List.length_append, List.length_map, List.length_take] at once room
    simp only [decide_eq_true_eq]
    omega
  unfold State.forceCmd
  simp only
  rw [if_neg (by simp [aligned]; omega), (buffered.consume c.ring.val).moveBuf, State.forceSlots_accepted c slots, fits]
  exact State.orderForce_ordered (s.consume c.ring.val) c _ _

theorem cmdUnforce_does {s : State} {c : HostCmd} (ready : Ready s c 0x31) (least : 1 ≤ opAt c 24 4)
    (most : opAt c 24 4 ≤ 256) (buffered : Buffered s c 0 (4 * opAt c 24 4))
    (forceable : ∀ x ∈ (upTo (opAt c 24 4)).map (fun i => leAt c.data (4 * i) 4), s.Forceable x) :
    Does (.cmdUnforce c) s (ForceOrdered s c 0x31 (((upTo (opAt c 24 4)).map (fun i => leAt c.data (4 * i) 4)).map
      (fun m => (BitVec.ofNat 18 m, none)))) := by
  refine ready.does rfl ?_
  have aligned := buffered.aligned
  unfold State.unforceCmd
  simp only
  rw [if_neg (by simp [aligned]; omega), (buffered.consume c.ring.val).moveBuf,
    State.forceSlots_accepted (s := s.consume c.ring.val) c forceable]
  exact State.orderForce_ordered (s.consume c.ring.val) c _ _

/-! Staging (R346 to R348). -/

/-- The command has replaced the staged copy alone, and has completed. -/
def Stages (s : State) (c : HostCmd) (m : RegMap) (t : State) : Prop :=
  t.hop = { s.hop with staged := m } ∧ t.image = s.image ∧ Completed s t c 0 0 0 0

theorem Ready.setStaged_stages {s : State} {c : HostCmd} {op : Nat} (ready : Ready s c op) (m : RegMap) :
    Stages s c m (((s.consume c.ring.val).setStaged m).complete c 0 0 0 0) :=
  ⟨State.complete_hop .., State.complete_image ..,
    ready.completes (u := (s.consume c.ring.val).setStaged m) rfl
      (.trans (t := s.consume c.ring.val) (.of_regs rfl) (State.setStaged_in _ m)) (by decide) (by decide) rfl ..⟩

theorem cmdStageRegs_does {s : State} {c : HostCmd} (ready : Ready s c 0x40) (least : 1 ≤ opAt c 24 4)
    (most : opAt c 24 4 ≤ 65536) (buffered : Buffered s c 0 (8 * opAt c 24 4))
    (named : ∀ e ∈ pairsOf c.data (opAt c 24 4), e.1 % 4 = 0 ∧ e.1 < 0x100000 ∧ stgRows (s.mapOff e.1) ≠ []) :
    Does (.cmdStageRegs c) s (Stages s c
      ((pairsOf c.data (opAt c 24 4)).foldl (fun m e => stageWord m (s.mapOff e.1) e.2) s.hop.staged)) := by
  refine ready.does rfl ?_
  have aligned := buffered.aligned
  have passes : ∀ e ∈ pairsOf c.data (opAt c 24 4),
      (e.1 % 4 == 0 && decide (e.1 < 0x100000) && stgRows ((s.consume c.ring.val).mapOff e.1) != []) = true := by
    intro e he
    obtain ⟨word, inside, rows⟩ := named e he
    have same : (s.consume c.ring.val).mapOff e.1 = s.mapOff e.1 := rfl
    simpa [word, inside, same] using rows
  unfold State.stageRegs
  simp only
  rw [if_neg (by simp [aligned]; omega), (buffered.consume c.ring.val).moveBuf, firstBad_eq_none passes]
  exact ready.setStaged_stages _

theorem cmdStageSlots_does {s : State} {c : HostCmd} (ready : Ready s c 0x41) (least : 1 ≤ opAt c 28 4)
    (most : opAt c 28 4 ≤ 65536) (inside : opAt c 24 4 + opAt c 28 4 ≤ 262144)
    (buffered : Buffered s c 0 (16 * opAt c 28 4)) :
    Does (.cmdStageSlots c) s (Stages s c ((upTo (4 * opAt c 28 4)).foldl (fun m i =>
      stageWord m (slotPolBase + 16 * opAt c 24 4 + 4 * i) (leAt c.data (4 * i) 4)) s.hop.staged)) := by
  refine ready.does rfl ?_
  have aligned := buffered.aligned
  unfold State.stageSlots
  simp only
  rw [if_neg (by simp [aligned]; omega), (buffered.consume c.ring.val).moveBuf]
  exact ready.setStaged_stages _

theorem cmdDiscard_does {s : State} {c : HostCmd} (ready : Ready s c 0x44) :
    Does (.cmdDiscard c) s (fun t => Stages s c (RegMap.set s.hop.active F.HOPPER_PROG_ACT_act 0) t ∧ t.progs = s.progs) :=
  ready.does rfl ⟨ready.setStaged_stages _, State.complete_progs ..⟩

/-! Programs (R148, R154). -/

theorem cmdProgLoad_inUse {s : State} {c : HostCmd} (ready : Ready s c 0x50) (slot : opByte c 24 < 16)
    (inside : opAt c 28 4 + c.desc.len.toNat ≤ maxImage) (aligned : bufOk c c.desc.len.toNat = true)
    (used : s.onlineUses (opByte c 24) = true) :
    Does (.cmdProgLoad c) s (fun t => t.progs = s.progs ∧ Completed s t c 0x0D 0 0 0) := by
  refine ready.does rfl ?_
  have busy : (s.consume c.ring.val).onlineUses (opByte c 24) = true := used
  unfold State.progLoad
  simp only
  rw [if_neg (by simp [aligned]; omega), if_pos busy]
  exact ⟨State.complete_progs ..,
    ready.completes (A := []) rfl (.of_regs rfl) (by decide) (by decide) rfl ..⟩

/-- The state in which a piece of an image is in the staged copy of a slot, and on its way to the partner. -/
def State.pieceTaken (s : State) (slot offset : Nat) (piece : Bytes) (last : Bool) : State :=
  let t := s.loadPiece slot offset piece
  if t.plyState == 2 then t.mirror t.turn.k [.prog (Fin.ofNat 16 slot) (BitVec.ofNat 32 offset) piece last] else t

/-- A PROG_LOAD of a slot that no program change uses, once it begins and its buffer has moved. -/
theorem State.progLoad_taken {s : State} {c : HostCmd} (slot : opByte c 24 < 16)
    (inside : opAt c 28 4 + c.desc.len.toNat ≤ maxImage) (free : s.onlineUses (opByte c 24) = false)
    (buffered : Buffered s c 0 c.desc.len.toNat) :
    let t := s.pieceTaken (opByte c 24) (opAt c 28 4) (c.data.take c.desc.len.toNat) (bitOf (opByte c 25) 0)
    s.progLoad c = if bitOf (opByte c 25) 0 then (t.loadEnd (opByte c 24)).holdCmd c 0x50 none none
      else t.complete c 0 0 0 0 := by
  have aligned := buffered.aligned
  unfold State.progLoad
  simp only
  rw [if_neg (by simp [aligned]; omega), if_neg (by simp [free]), buffered.moveBuf]
  cases bitOf (opByte c 25) 0 <;> rfl

theorem State.pieceTaken_progs (s : State) (slot offset : Nat) (piece : Bytes) (last : Bool) :
    (s.pieceTaken slot offset piece last).progs = (s.loadPiece slot offset piece).progs := by
  unfold State.pieceTaken
  simp only
  split
  · exact (State.mirror_keeps _ _ _).parts .progs (by decide)
  · rfl

theorem State.pieceTaken_keeps (s : State) (slot offset : Nat) (piece : Bytes) (last : Bool) :
    Keeps [.progs, .ply] s (s.pieceTaken slot offset piece last) := by
  have loaded := (s.loadPiece_keeps slot offset piece).next' (A := [.progs, .ply]) (by decide)
  exact .ite (loaded.next (State.mirror_keeps _ _ _) (by decide)) loaded

theorem State.pieceTaken_mirror_in (s : State) (slot offset : Nat) (piece : Bytes) (last : Bool) :
    RegsIn [] (s.loadPiece slot offset piece) (s.pieceTaken slot offset piece last) :=
  .ite (fun _ => State.mirror_in _ _ _) (fun _ => .rfl)

theorem State.loadPiece_regs_in (s : State) {slot : Nat} (inside : slot < 16) (offset : Nat) (piece : Bytes) :
    RegsIn [.prog] s (s.loadPiece slot offset piece) := by
  obtain ⟨bit, low, high⟩ := staged_in inside
  exact .wr _ _ .prog (.of_regs rfl) bit (by decide) low high

theorem State.pieceTaken_in (s : State) {slot : Nat} (inside : slot < 16) (offset : Nat) (piece : Bytes) (last : Bool) :
    RegsIn [.prog] s (s.pieceTaken slot offset piece last) :=
  (s.loadPiece_regs_in inside offset piece).next (s.pieceTaken_mirror_in slot offset piece last) (by decide)

/-- The first piece of an image is all that its slot's staged copy holds, and it shows as being loaded. -/
theorem State.pieceTaken_first (s : State) {slot : Nat} (inside : slot < 16) (piece : Bytes) (last : Bool) :
    SMap.find (s.pieceTaken slot 0 piece last).progs.staged slot = some piece ∧
      (s.pieceTaken slot 0 piece last).progs.active = s.progs.active ∧
      (s.pieceTaken slot 0 piece last).rd (F.PROG_STATUS_staged slot) = 1 := by
  rw [State.pieceTaken_progs]
  refine ⟨?_, rfl, ?_⟩
  · refine (SMap.find_put_same _ _ _).trans ?_
    simp [slice]
  · exact ((s.pieceTaken_mirror_in slot 0 piece last).rd_eq (staged_in inside) (by decide)).trans (State.rd_wr_same _ _ _)

theorem cmdProgLoad_does {s : State} {c : HostCmd} (ready : Ready s c 0x50) (slot : opByte c 24 < 16)
    (first : opAt c 28 4 = 0) (len : c.desc.len.toNat ≤ maxImage) (free : s.onlineUses (opByte c 24) = false)
    (buffered : Buffered s c 0 c.desc.len.toNat) :
    Does (.cmdProgLoad c) s (fun t => t.progs.active = s.progs.active ∧ t.image = s.image ∧ t.hop = s.hop ∧
      (bitOf (opByte c 25) 0 = false →
        SMap.find t.progs.staged (opByte c 24) = some (c.data.take c.desc.len.toNat) ∧
          t.rd (F.PROG_STATUS_staged (opByte c 24)) = 1 ∧ Completed s t c 0 0 0 0) ∧
      (bitOf (opByte c 25) 0 = true →
        SMap.find t.progs.staged (opByte c 24) = some (c.data.take c.desc.len.toNat) ∧
          opByte c 24 ∈ t.progs.verifying ∧
          t.host.outstanding = s.host.outstanding ++ [⟨c, 0x50, none, none, false, false⟩])) := by
  refine ready.does rfl ?_
  obtain ⟨staged, active, loading⟩ := (s.consume c.ring.val).pieceTaken_first slot (c.data.take c.desc.len.toNat)
    (bitOf (opByte c 25) 0)
  have keeps := (s.consume c.ring.val).pieceTaken_keeps (opByte c 24) 0 (c.data.take c.desc.len.toNat)
    (bitOf (opByte c 25) 0)
  have regs := (s.consume c.ring.val).pieceTaken_in slot 0 (c.data.take c.desc.len.toNat) (bitOf (opByte c 25) 0)
  rw [State.progLoad_taken (s := s.consume c.ring.val) slot (by omega) free (buffered.consume c.ring.val), first]
  generalize (s.consume c.ring.val).pieceTaken _ _ _ _ = t at staged active loading keeps regs ⊢
  have hop : t.hop = s.hop := keeps.parts .hop (by decide)
  have image : t.image = s.image := keeps.parts .image (by decide)
  have host : t.host = (s.consume c.ring.val).host := keeps.parts .host (by decide)
  split
  · next last =>
    rw [State.holdCmd_progs, State.holdCmd_image, State.holdCmd_hop, State.holdCmd_outstanding]
    exact ⟨active, image, hop, fun more => absurd (last.symm.trans more) (by decide), fun _ =>
      ⟨staged, List.mem_append_right _ (List.mem_singleton_self _), congrArg (·.outstanding ++ _) host⟩⟩
  · next more =>
    rw [State.complete_progs, State.complete_image, State.complete_hop]
    refine ⟨active, image, hop, fun _ => ⟨staged, ?_, ?_⟩, fun last => absurd last more⟩
    · exact ((t.complete_in c 0 0 0 0).rd_eq (staged_in slot) (by decide)).trans loading
    · exact ready.completes host (.trans (t := s.consume c.ring.val) (.of_regs rfl) regs) (by decide) (by decide)
        (by rw [hop]) ..

/-! Messages of the mill bus (R68, R377, R378). -/

/-- The write that a MILL_SEND asks for. -/
def millWrite (c : HostCmd) : HostWrite :=
  .mill (Fin.ofNat 2 (opByte c 24)) (Fin.ofNat 64 (opByte c 25)) (sendWords c)

/-- The state in which a MILL_SEND's message waits for the boundary of R68, and the command with it. -/
def State.millHeld (s : State) (c : HostCmd) : State :=
  (s.hostWrites s.boundary2 [millWrite c]).holdCmd c 0x80 (some s.boundary2) none

/-- The mark of a MILL_SEND whose partner has been told. -/
def markTold (c : HostCmd) (m : MillerCmd) : MillerCmd := if m.op == 0x80 && m.cmd == c then { m with acked := true } else m

theorem markTold_keeps (c : HostCmd) (m : MillerCmd) :
    (markTold c m).cmd = m.cmd ∧ (markTold c m).op = m.op ∧ (markTold c m).boundary = m.boundary := by
  unfold markTold
  split <;> exact ⟨rfl, rfl, rfl⟩

/-- A MILL_SEND that its channel takes, once it begins and its buffer has moved. -/
theorem State.millSend_taken {s : State} {c : HostCmd} (ch : opByte c 24 < 2) (b : opByte c 25 < 64)
    (buffered : Buffered s c 0 144) (takes : s.sendRefusal (opByte c 24) (opByte c 25) (sendWords c) = none)
    (ident : wordsIdent (sendWords c) = s.bufIdent (opByte c 24) (opByte c 25)) :
    s.millSend c = if (s.millHeld c).plyState != 2 || !(s.millHeld c).plyUp then s.millHeld c
      else { s.millHeld c with host := { (s.millHeld c).host with
        outstanding := (s.millHeld c).host.outstanding.map (markTold c) } } := by
  have aligned := buffered.aligned
  unfold State.millSend
  simp only
  rw [if_neg (by simp [aligned]; omega), buffered.moveBuf, takes]
  exact if_neg (by simp [ident])

theorem State.millHeld_image (s : State) (c : HostCmd) :
    (s.millHeld c).image = { s.image with waiting := s.image.waiting ++ [(s.boundary2, millWrite c)] } :=
  (State.holdCmd_image ..).trans (State.hostWrites_image ..)

theorem State.millHeld_mill (s : State) (c : HostCmd) : (s.millHeld c).mill = s.mill :=
  (State.holdCmd_mill ..).trans (State.hostWrites_mill ..)

theorem State.mem_millHeld_outstanding (s : State) (c : HostCmd) :
    ⟨c, 0x80, some s.boundary2, none, false, false⟩ ∈ (s.millHeld c).host.outstanding := by
  rw [State.millHeld, State.holdCmd_outstanding]
  exact List.mem_append_right _ (List.mem_singleton_self _)

theorem cmdMillSend_does {s : State} {c : HostCmd} (ready : Ready s c 0x80) (ch : opByte c 24 < 2) (b : opByte c 25 < 64)
    (buffered : Buffered s c 0 144) (takes : s.sendRefusal (opByte c 24) (opByte c 25) (sendWords c) = none)
    (ident : wordsIdent (sendWords c) = s.bufIdent (opByte c 24) (opByte c 25)) :
    Does (.cmdMillSend c) s (fun t =>
      t.image = { s.image with waiting := s.image.waiting ++ [(s.boundary2, millWrite c)] } ∧
      t.mill = s.mill ∧ ∃ m ∈ t.host.outstanding, m.cmd = c ∧ m.op = 0x80 ∧ m.boundary = some s.boundary2) := by
  refine ready.does rfl ?_
  rw [State.millSend_taken (s := s.consume c.ring.val) ch b (buffered.consume c.ring.val) takes ident]
  have image := (s.consume c.ring.val).millHeld_image c
  have mill := (s.consume c.ring.val).millHeld_mill c
  have held := (s.consume c.ring.val).mem_millHeld_outstanding c
  split
  · exact ⟨image, mill, _, held, rfl, rfl, rfl⟩
  · exact ⟨image, mill, _, List.mem_map_of_mem held, markTold_keeps c _⟩

/-- Settles O43: each command by what it does once it begins and its buffer has moved. -/
theorem hostWritesAccepted : Obligations.HostWritesAccepted := by
  intro s c
  exact ⟨fun ready least most _ buffered passes => cmdSigWrite_does ready least most buffered passes,
    cmdLoopWrite_does, cmdForce_does, cmdUnforce_does, cmdStageRegs_does, cmdStageSlots_does, cmdDiscard_does,
    ⟨cmdProgLoad_inUse, cmdProgLoad_does⟩, cmdMillSend_does⟩

end Sys2Proof.Machine

/-! PROOFS. The evaluation of a loop: what the commit of an output slot and the hold of a result leave, which state the law
leaves in the loop, and the law of an unpaired loop in AUTO (R170 to R193). -/

namespace Sys2Proof.Machine

/-! The commit of an output slot (R54, R113, R158). -/

/-- The state in which a slot about to be committed has a latch (R113). -/
def State.latchKept (s : State) (n : Nat) : State :=
  if SMap.has s.turn.latches n then s
  else { s with turn := { s.turn with latches := SMap.put s.turn.latches n ⟨(s.cell n).entry, 0⟩ } }

/-- The state with a committed sample in its slot, whichever side of a capture boundary it lies on (R296). -/
def State.commitCell (s : State) (sample n : Nat) (e : Entry) : State :=
  match s.capturing with
  | some b => if sample < b then s.putCell n ⟨e, 0⟩ else s.setCell n ⟨e, 0⟩
  | none => s.putCell n ⟨e, 0⟩

theorem State.commitSlot_eq (s : State) (sample n : Nat) (e : Entry) : s.commitSlot sample n e =
    if (s.latchKept n).isBarred n sample then s.latchKept n
    else ((s.latchKept n).commitCell sample n e).barKey n sample := rfl

theorem State.latchKept_eq (s : State) (n : Nat) :
    ∃ latches, s.latchKept n = { s with turn := { s.turn with latches := latches } } := by
  unfold State.latchKept
  split <;> exact ⟨_, rfl⟩

theorem State.commitCell_image (s : State) (sample n : Nat) (e : Entry) :
    (s.commitCell sample n e).image = { s.image with slots := SMap.set s.image.slots n SlotCell.coldCell ⟨e, 0⟩ } := by
  unfold State.commitCell
  split
  · split
    · rfl
    · exact s.setCell_image n _
  · rfl

theorem State.commitCell_turn (s : State) (sample n : Nat) (e : Entry) : (s.commitCell sample n e).turn = s.turn := by
  unfold State.commitCell
  split
  · split
    · rfl
    · exact (s.setCell_keeps n _).parts .turn (by decide)
  · rfl

/-- A commit writes of the image its own slot, unless a later writer bars it, and what a change of writer bars. -/
theorem State.commitSlot_image (s : State) (sample n : Nat) (e : Entry) :
    (s.commitSlot sample n e).image = { s.image with
      slots := if s.isBarred n sample then s.image.slots else SMap.set s.image.slots n SlotCell.coldCell ⟨e, 0⟩
      barred := (s.commitSlot sample n e).image.barred } := by
  obtain ⟨latches, kept⟩ := s.latchKept_eq n
  have same : (s.latchKept n).image = s.image := by rw [kept]
  have barred : (s.latchKept n).isBarred n sample = s.isBarred n sample := by rw [State.isBarred, State.isBarred, same]
  rw [State.commitSlot_eq, barred]
  by_cases bar : s.isBarred n sample
  · rw [if_pos bar, if_pos bar, same]
  · rw [if_neg bar, if_neg bar, State.barKey_image, State.commitCell_image, same]

theorem State.commitSlot_cell_same {s : State} {sample n : Nat} (free : SMap.getD s.image.barred n 0 ≤ sample) (e : Entry) :
    (s.commitSlot sample n e).cell n = ⟨e, 0⟩ := by
  have unbarred : s.isBarred n sample = false := decide_eq_false (Nat.not_lt.2 free)
  rw [State.cell, State.commitSlot_image, unbarred]
  exact SMap.getD_set_same _ _ _ _

theorem State.commitSlot_cell_ne (s : State) (sample : Nat) {n m : Nat} (e : Entry) (h : m ≠ n) :
    (s.commitSlot sample n e).cell m = s.cell m := by
  rw [State.cell, State.commitSlot_image]
  simp only
  split
  · rfl
  · simp only [State.cell, SMap.getD, SMap.find_set_ne _ _ _ h.symm]

/-- A commit changes of the turn the latches alone (R113). -/
theorem State.commitSlot_turn (s : State) (sample n : Nat) (e : Entry) :
    ∃ latches, (s.commitSlot sample n e).turn = { s.turn with latches := latches } := by
  obtain ⟨latches, kept⟩ := s.latchKept_eq n
  refine ⟨latches, ?_⟩
  rw [State.commitSlot_eq]
  split
  · rw [kept]
  · rw [(State.barKey_keeps _ n sample).parts .turn (by decide), State.commitCell_turn, kept]

/-! A loop's output (R35, R54, R193). -/

theorem State.relTurn_of_hop {s t : State} (h : t.hop = s.hop) (sample p : Nat) : t.relTurn sample p = s.relTurn sample p := by
  rw [State.relTurn, State.relTurn, State.nTurns, State.nTurns, State.act_of_hop h]

/-- The output slot of an environment's loop. -/
def LoopEnv.outSlot (e : LoopEnv) : Nat := RegMap.get e.m (F.LOOP_OUT_out_slot e.l)

/-- The period of an environment's loop, in turns (R171). -/
def LoopEnv.period (e : LoopEnv) : Nat := 2 ^ RegMap.get e.m (F.LOOP_CTRL_rate_n e.l)

/-- A loop's output as it waits for its release instant (R35, R193). -/
def State.heldOutput (s : State) (e : LoopEnv) (entry : Entry) : Held :=
  ⟨loopItem e.l, e.k, max (s.relTurn e.k e.period) s.turn.nextRel, [(e.outSlot, entry)], [], []⟩

theorem State.loopOut_image (s : State) (e : LoopEnv) (entry : Entry) :
    (s.loopOut e entry).image = (s.commitSlot e.k e.outSlot entry).image := rfl

/-- A loop's output changes of the turn the latches and what is held. -/
theorem State.loopOut_turn (s : State) (e : LoopEnv) (entry : Entry) : ∃ latches, (s.loopOut e entry).turn =
    { s.turn with latches := latches, held := s.turn.held ++ [s.heldOutput e entry] } := by
  obtain ⟨latches, committed⟩ := s.commitSlot_turn e.k e.outSlot entry
  have release := State.relTurn_of_hop ((s.commitSlot_keeps e.k e.outSlot entry).parts .hop (by decide)) e.k e.period
  refine ⟨latches, ?_⟩
  show { (s.commitSlot e.k e.outSlot entry).turn with
    held := (s.commitSlot e.k e.outSlot entry).turn.held ++ [(s.commitSlot e.k e.outSlot entry).heldOutput e entry] } = _
  rw [State.heldOutput, release, committed]
  rfl

/-! A loop's finished sample is stored (R172, R195, R210). -/

/-- A loop as putLoop stores it: with it stands what the wheel views will show of it (R172), and the release that ends a
value resumed at a takeover (R209). -/
def State.storedLoop (s : State) (e : LoopEnv) (x : LoopSt) : LoopSt :=
  let x := if decide (e.k + s.nTurns - 1 < s.turn.nextDl) then { x with shown := some x.nodes }
    else { x with recent := x.recent ++ [(e.k, x.nodes)] }
  match x.resumed with
  | some (v, none) => { x with resumed := some (v, some (s.relTurn e.k e.period)) }
  | _ => x

/-- The stored loop has the state that its sample left it. -/
theorem State.storedLoop_eq (s : State) (e : LoopEnv) (x : LoopSt) : ∃ recent shown resumed,
    s.storedLoop e x = { x with recent := recent, shown := shown, resumed := resumed } := by
  unfold State.storedLoop
  split <;> dsimp only <;> split <;> exact ⟨_, _, _, rfl⟩

/-- The state with a loop stored, and its event raised (R195). -/
def State.loopStored (s : State) (e : LoopEnv) (x : LoopSt) : State :=
  let t : State := { s with loops := SMap.put s.loops e.l x }
  if RegMap.get e.m (F.LOOP_CTRL_ev_en e.l) == 1 &&
      clearBits x.status (s.loop e.l).status &&& (1024 + 2048 + 16384) != 0 then t.raiseSource 56 e.l x.status
  else t

theorem State.putLoop_eq (s : State) (e : LoopEnv) (x : LoopSt) : s.putLoop e x =
    (s.loopStored e (s.storedLoop e x)).recordLoop e.l e.period e.k (s.storedLoop e x).nodes := rfl

theorem State.putLoop_loops (s : State) (e : LoopEnv) (x : LoopSt) :
    (s.putLoop e x).loops = SMap.put s.loops e.l (s.storedLoop e x) := by
  rw [State.putLoop_eq, (State.recordLoop_keeps _ _ _ _ _).parts .loops (by decide), State.loopStored]
  split
  · exact (State.raiseSource_keeps _ _ _ _).parts .loops (by decide)
  · rfl

theorem State.putLoop_loop_ne (s : State) (e : LoopEnv) (x : LoopSt) {j : Nat} (h : j ≠ e.l) :
    (s.putLoop e x).loop j = s.loop j := by
  rw [State.loop, State.putLoop_loops]
  exact SMap.getD_put_ne _ _ _ h.symm

/-- The loop of a finished sample has the state that the sample left it. -/
theorem State.putLoop_loop_same (s : State) (e : LoopEnv) (x : LoopSt) : ∃ recent shown resumed,
    (s.putLoop e x).loop e.l = { x with recent := recent, shown := shown, resumed := resumed } := by
  rw [State.loop, State.putLoop_loops, SMap.getD_put_same]
  exact s.storedLoop_eq e x

theorem State.putLoop_image (s : State) (e : LoopEnv) (x : LoopSt) : (s.putLoop e x).image = s.image :=
  (s.putLoop_keeps e x).parts .image (by decide)

theorem State.putLoop_turn (s : State) (e : LoopEnv) (x : LoopSt) : (s.putLoop e x).turn = s.turn :=
  (s.putLoop_keeps e x).parts .turn (by decide)

/-! Mode requests, the policy of the measurement and the transfer, one after the other (R186, R188, R201). -/

/-- A loop with the target, the manual output and the mode that its due requests ask for (R176, R186). -/
def LoopEnv.requested (e : LoopEnv) (r : LoopReq) (x : LoopSt) : LoopSt :=
  let x := if e.second then { x with mode := 1 } else x
  let x := { x with reqs := x.reqs.filter (fun q => decide (e.k < q.start)), target := r.target.getD x.target,
                    manual := r.manual.getD x.manual }
  match r.mode with
  | none => x
  | some md =>
    if e.second || (md == 2 && !e.on (F.LOOP_CTRL_casc_en e.l)) || (md == 3 && !e.on (F.LOOP_CTRL_track_en e.l))
    then { x with refused := true }
    else { x with mode := md, refused := false, shed := false }

/-- Is a measurement usable under the loop's policy (R188)? -/
def LoopEnv.usable (e : LoopEnv) (meas : Entry) : Bool :=
  !tagBit meas.tag 5 && (if RegMap.get e.m (F.LOOP_CTRL_meas_policy e.l) = 0 then tagQuality meas.tag != 3
    else tagQuality meas.tag == 0)

/-- A loop that the policy SHED takes to MAN on a BAD measurement (R188). -/
def LoopEnv.shedding (e : LoopEnv) (meas : Entry) (x : LoopSt) : LoopSt :=
  if RegMap.get e.m (F.LOOP_CTRL_meas_policy e.l) == 2 && tagQuality meas.tag == 3 && (x.mode == 1 || x.mode == 2) &&
      !e.second then { x with mode := 0, shed := true }
  else x

/-- Is a transfer into the present mode due in the sample (R191, R201, R203)? -/
def LoopEnv.transfers (e : LoopEnv) (old : Nat) (x : LoopSt) : Bool :=
  x.mode != old || x.owed || (x.wasBraked && !e.braked) ||
    (x.gainFrom.any (fun b => decide (b ≤ e.k)) && (x.mode == 1 || x.mode == 2))

/-- A loop with its transfer carried out, or owed (R201). -/
def LoopEnv.transferred (e : LoopEnv) (r : LoopReq) (old : Nat) (x : LoopSt) : LoopSt :=
  let transfer := e.transfers old x
  let x := { x with owed := transfer, wasBraked := e.braked, gainFrom := x.gainFrom.filter (fun b => decide (e.k < b)) }
  if e.braked || !transfer then x
  else match x.mode with
    | 0 => { x with manual := r.manual.getD x.u, owed := false }
    | 3 => { x with owed := false }
    | _ => x

theorem LoopEnv.modes_eq (e : LoopEnv) (x : LoopSt) (meas : Entry) : e.modes x meas =
    (e.transferred (dueReqs x e.k) x.mode (e.shedding meas (e.requested (dueReqs x e.k) x)), !e.usable meas) := rfl

/-! The first sample, the requests and the transfer start the loop and keep it started (R190). -/

theorem LoopEnv.start_started (e : LoopEnv) (x : LoopSt) (y : Int) : (e.start x y).started = true := by
  unfold LoopEnv.start
  split
  · assumption
  · rfl

theorem LoopEnv.requested_started (e : LoopEnv) (r : LoopReq) (x : LoopSt) : (e.requested r x).started = x.started := by
  have second : (if e.second then { x with mode := 1 } else x).started = x.started := by split <;> rfl
  unfold LoopEnv.requested
  dsimp only
  split
  · exact second
  · split <;> exact second

theorem LoopEnv.shedding_started (e : LoopEnv) (meas : Entry) (x : LoopSt) : (e.shedding meas x).started = x.started := by
  unfold LoopEnv.shedding
  split <;> rfl

theorem LoopEnv.transferred_started (e : LoopEnv) (r : LoopReq) (old : Nat) (x : LoopSt) :
    (e.transferred r old x).started = x.started := by
  unfold LoopEnv.transferred
  dsimp only
  split
  · rfl
  · split <;> rfl

theorem LoopEnv.modes_started (e : LoopEnv) (x : LoopSt) (meas : Entry) : (e.modes x meas).1.started = x.started := by
  rw [LoopEnv.modes_eq, LoopEnv.transferred_started, LoopEnv.shedding_started, LoopEnv.requested_started]

/-- The law leaves a started loop, whatever its settings, mode and view (R190). -/
theorem LoopEnv.law_started (e : LoopEnv) (x : LoopSt) : (e.law x).started = true :=
  (e.modes_started _ _).trans (e.start_started x _)

theorem LoopEnv.law_sample (e : LoopEnv) (x : LoopSt) : (e.law x).sample = e.k := rfl

/-- A loop that has evaluated the sample of an environment. -/
structure LoopEnv.Sampled (e : LoopEnv) (x : LoopSt) : Prop where
  started : x.started = true
  sample : x.sample = e.k

theorem LoopEnv.law_sampled (e : LoopEnv) (x : LoopSt) : e.Sampled (e.law x) := ⟨e.law_started x, e.law_sample x⟩

/-- The tracking of an unselected loop changes its integrator alone (R207). -/
theorem LoopEnv.Sampled.unselect_if {e : LoopEnv} {x : LoopSt} (h : e.Sampled x) (c : Bool) (u : Int) :
    e.Sampled (if c then e.unselect x u else x) := by
  unfold LoopEnv.unselect
  split
  · split
    · exact h
    · exact ⟨h.started, h.sample⟩
  · exact h

theorem LoopEnv.Sampled.finish {e : LoopEnv} {x : LoopSt} (h : e.Sampled x) (u uf : Int) (rate selected : Bool) (entry : Entry) :
    e.Sampled (e.finish x u uf rate selected entry) := ⟨h.started, h.sample⟩

theorem LoopEnv.single_sampled (e : LoopEnv) (x : LoopSt) : e.Sampled (e.single x) := (e.law_sampled x).finish ..

theorem LoopEnv.head_sampled (e : LoopEnv) (x : LoopSt) : e.Sampled (e.head x) := e.law_sampled x

/-- The second loop of a pair has evaluated its sample, whether or not it was selected. -/
theorem LoopEnv.pair_sampled (ea eb : LoopEnv) (a b : LoopSt) : eb.Sampled (ea.pair eb a b).2 :=
  ((eb.law_sampled b).unselect_if ..).finish ..

/-! One evaluation, unpaired, of the first and of the second loop of a pair (R180, R189). -/

/-- The other loop that a loop's settings name. -/
def LoopEnv.other (e : LoopEnv) : Nat := RegMap.get e.m (F.LOOP_SP_pair_loop e.l)

/-- A loop evaluates for itself: it is in no pair, or its pair's other loop is disabled. -/
def LoopEnv.Alone (e : LoopEnv) : Prop :=
  RegMap.get e.m (F.LOOP_CTRL_ovr e.l) = 0 ∨ RegMap.get e.m (F.LOOP_CTRL_enable e.other) = 0

theorem LoopEnv.alone_iff (e : LoopEnv) : e.Alone ↔ (RegMap.get e.m (F.LOOP_CTRL_ovr e.l) == 0 ||
    RegMap.get e.m (F.LOOP_CTRL_enable e.other) == 0) = true := by
  simp [LoopEnv.Alone]

theorem State.evaluate_of_alone {s : State} {l k : Nat} (alone : (s.loopEnv l k).Alone) :
    s.evaluate l k = (s.loopOut (s.loopEnv l k) ((s.loopEnv l k).single (s.loop l)).nodes.entry).putLoop (s.loopEnv l k)
      ((s.loopEnv l k).single (s.loop l)) :=
  if_pos ((LoopEnv.alone_iff _).1 alone)

theorem State.evaluate_of_head {s : State} {l k : Nat} (paired : ¬(s.loopEnv l k).Alone) (first : l < (s.loopEnv l k).other) :
    s.evaluate l k = { s with loops := SMap.put s.loops l ((s.loopEnv l k).head (s.loop l)) } :=
  (if_neg (mt (LoopEnv.alone_iff _).2 paired)).trans (if_pos first)

/-- The two loops of a pair once its second has evaluated. -/
def State.pairSampled (s : State) (l k : Nat) : LoopSt × LoopSt :=
  let other := (s.loopEnv l k).other
  (s.loopEnv other k).pair (s.loopEnv l k) (s.loop other) (s.loop l)

theorem State.evaluate_of_second {s : State} {l k : Nat} (paired : ¬(s.loopEnv l k).Alone)
    (second : ¬l < (s.loopEnv l k).other) : s.evaluate l k =
    ((s.loopOut (s.loopEnv (s.loopEnv l k).other k) (s.pairSampled l k).1.nodes.entry).putLoop
      (s.loopEnv (s.loopEnv l k).other k) (s.pairSampled l k).1).putLoop (s.loopEnv l k) (s.pairSampled l k).2 :=
  (if_neg (mt (LoopEnv.alone_iff _).2 paired)).trans (if_neg second)

theorem State.loopOut_loop (s : State) (e : LoopEnv) (entry : Entry) (j : Nat) : (s.loopOut e entry).loop j = s.loop j := by
  rw [State.loop, (s.loopOut_keeps e entry).parts .loops (by decide), State.loop]

theorem State.loopOut_forces (s : State) (e : LoopEnv) (entry : Entry) :
    (s.loopOut e entry).image.forces = s.image.forces := by
  rw [State.loopOut_image, State.commitSlot_image]

/-- What every evaluation of loop l for sample k does, by s before and t after it: the loop has evaluated the sample, no
loop but it and its pair's other loop changes, and neither a force nor the outstanding evaluations nor the turn do. -/
structure State.Evaluates (s t : State) (l k : Nat) : Prop where
  sampled : (s.loopEnv l k).Sampled (t.loop l)
  others : ∀ j, j ≠ l → j ≠ (s.loopEnv l k).other → t.loop j = s.loop j
  forces : t.image.forces = s.image.forces
  evals : t.turn.evals = s.turn.evals
  turn : t.turn.k = s.turn.k

/-- A loop stored with the state of its sample has evaluated it. -/
theorem State.putLoop_sampled {s : State} {e : LoopEnv} {x : LoopSt} (h : e.Sampled x) :
    e.Sampled ((s.putLoop e x).loop e.l) := by
  obtain ⟨recent, shown, resumed, stored⟩ := s.putLoop_loop_same e x
  rw [stored]
  exact ⟨h.started, h.sample⟩

theorem State.putLoop_entry (s : State) (e : LoopEnv) (x : LoopSt) :
    ((s.putLoop e x).loop e.l).nodes.entry = x.nodes.entry := by
  obtain ⟨recent, shown, resumed, stored⟩ := s.putLoop_loop_same e x
  rw [stored]

theorem State.evaluate_evaluates (s : State) (l k : Nat) : s.Evaluates (s.evaluate l k) l k := by
  by_cases alone : (s.loopEnv l k).Alone
  · rw [State.evaluate_of_alone alone]
    obtain ⟨latches, turn⟩ := s.loopOut_turn (s.loopEnv l k) ((s.loopEnv l k).single (s.loop l)).nodes.entry
    exact {
      sampled := State.putLoop_sampled (LoopEnv.single_sampled _ _)
      others := fun j other _ => (State.putLoop_loop_ne _ _ _ other).trans (s.loopOut_loop _ _ j)
      forces := by rw [State.putLoop_image, State.loopOut_forces]
      evals := by rw [State.putLoop_turn, turn]
      turn := by rw [State.putLoop_turn, turn] }
  · by_cases first : l < (s.loopEnv l k).other
    · rw [State.evaluate_of_head alone first]
      exact {
        sampled := by
          rw [State.loop, SMap.getD_put_same]
          exact LoopEnv.head_sampled _ _
        others := fun j other _ => SMap.getD_put_ne _ _ _ other.symm
        forces := rfl, evals := rfl, turn := rfl }
    · rw [State.evaluate_of_second alone first]
      obtain ⟨latches, turn⟩ := s.loopOut_turn (s.loopEnv (s.loopEnv l k).other k) (s.pairSampled l k).1.nodes.entry
      exact {
        sampled := State.putLoop_sampled (LoopEnv.pair_sampled _ _ _ _)
        others := fun j this other =>
          ((State.putLoop_loop_ne _ _ _ this).trans (State.putLoop_loop_ne _ _ _ other)).trans (s.loopOut_loop _ _ j)
        forces := by rw [State.putLoop_image, State.putLoop_image, State.loopOut_forces]
        evals := by rw [State.putLoop_turn, State.putLoop_turn, turn]
        turn := by rw [State.putLoop_turn, State.putLoop_turn, turn] }

/-- What an evaluation of a loop alone does beside: its output is held for its release and enters its slot, unless a later
writer bars it (R35, R54, R158). -/
structure State.CommitsAlone (s t : State) (l k : Nat) : Prop where
  others : ∀ j, j ≠ l → t.loop j = s.loop j
  otherCells : ∀ j, j ≠ (s.loopEnv l k).outSlot → t.cell j = s.cell j
  cell : SMap.getD s.image.barred (s.loopEnv l k).outSlot 0 ≤ k →
    t.cell (s.loopEnv l k).outSlot = ⟨(t.loop l).nodes.entry, 0⟩
  held : t.turn.held = s.turn.held ++ [s.heldOutput (s.loopEnv l k) (t.loop l).nodes.entry]

theorem State.evaluate_commits {s : State} {l k : Nat} (alone : (s.loopEnv l k).Alone) :
    s.CommitsAlone (s.evaluate l k) l k := by
  rw [State.evaluate_of_alone alone]
  generalize (s.loopEnv l k).single (s.loop l) = x
  have entry : (((s.loopOut (s.loopEnv l k) x.nodes.entry).putLoop (s.loopEnv l k) x).loop l).nodes.entry = x.nodes.entry :=
    State.putLoop_entry _ (s.loopEnv l k) x
  have cells (j : Nat) : ((s.loopOut (s.loopEnv l k) x.nodes.entry).putLoop (s.loopEnv l k) x).cell j =
      (s.commitSlot k (s.loopEnv l k).outSlot x.nodes.entry).cell j := State.cell_of_image (State.putLoop_image _ _ _) j
  exact {
    others := fun j other => (State.putLoop_loop_ne _ _ _ other).trans (s.loopOut_loop _ _ j)
    otherCells := fun j other => (cells j).trans (s.commitSlot_cell_ne k _ other)
    cell := fun free => by rw [entry, cells, State.commitSlot_cell_same free]
    held := by
      obtain ⟨latches, turn⟩ := s.loopOut_turn (s.loopEnv l k) x.nodes.entry
      rw [entry, State.putLoop_turn, turn] }

/-! LOOP_EVALUATION_DONE runs the evaluation that is the next on its wheel (R170). -/

/-- The evaluations that are outstanding once loop l has evaluated sample k. -/
def State.evalsLeft (s : State) (l k : Nat) : List (Nat × Nat) := s.turn.evals.filter (fun e => !(e.1 == k && e.2 == l))

/-- The state in which loop l is evaluated for sample k: the evaluation is no longer outstanding, and the loops that it
changes are in the capture store (R296). -/
def State.taken (s : State) (l k : Nat) : State :=
  let t : State := { s with turn := { s.turn with evals := s.evalsLeft l k } }
  (t.saveLoop k l).saveLoop k ((t.pairOf l).getD l)

theorem State.taken_keeps (s : State) (l k : Nat) :
    Keeps [.ply] { s with turn := { s.turn with evals := s.evalsLeft l k } } (s.taken l k) :=
  (Keeps.next' (State.saveLoop_keeps _ _ _) (by decide)).next (State.saveLoop_keeps _ _ _) (by decide)

theorem State.taken_turn (s : State) (l k : Nat) : (s.taken l k).turn = { s.turn with evals := s.evalsLeft l k } :=
  (s.taken_keeps l k).parts .turn (by decide)

theorem State.taken_image (s : State) (l k : Nat) : (s.taken l k).image = s.image :=
  (s.taken_keeps l k).parts .image (by decide)

theorem State.taken_hop (s : State) (l k : Nat) : (s.taken l k).hop = s.hop := (s.taken_keeps l k).parts .hop (by decide)

theorem State.taken_loop (s : State) (l k j : Nat) : (s.taken l k).loop j = s.loop j :=
  congrArg (SMap.getD · j LoopSt.fresh) ((s.taken_keeps l k).parts .loops (by decide))

theorem State.taken_loopEnv (s : State) (l k : Nat) (j : Nat) : (s.taken l k).loopEnv j k = s.loopEnv j k := by
  rw [State.loopEnv, State.loopEnv, State.configAt, State.configAt, State.taken_hop, State.taken_turn]

theorem State.taken_heldOutput (s : State) (l k : Nat) (e : LoopEnv) (entry : Entry) :
    (s.taken l k).heldOutput e entry = s.heldOutput e entry := by
  rw [State.heldOutput, State.heldOutput, State.relTurn_of_hop (s.taken_hop l k), State.taken_turn]

/-- A wheel group's slack is noted in the slack meter's own part of the turn (R38). -/
theorem State.wheelSlack_unmetered (s : State) (g ns : Nat) : (s.wheelSlack g ns).turn.unmetered = s.turn.unmetered := by
  unfold State.wheelSlack
  simp only
  split
  · split
    · rfl
    · exact (congrArg TurnSt.unmetered ((State.raiseSource_keeps _ _ _ _).parts .turn (by decide))).trans rfl
  · rfl

/-- The slack of loop l's wheel group, noted after the group's last evaluation of sample k (R38). -/
def State.slackNoted (s : State) (l k : Nat) (left : List (Nat × Nat)) : State :=
  if !(left.any (fun e => e.1 == k && groupOf e.2 == groupOf l)) && decide (s.turn.nextDl ≤ k + s.nTurns - 1) then
    s.wheelSlack (groupOf l) (s.slackTo (s.deadlineU k))
  else s

theorem State.slackNoted_next (s : State) (l k : Nat) (left : List (Nat × Nat)) :
    (if !(left.any (fun e => e.1 == k && groupOf e.2 == groupOf l)) && decide (s.turn.nextDl ≤ k + s.nTurns - 1) then
      ok (s.wheelSlack (groupOf l) (s.slackTo (s.deadlineU k))) else ok s) = .next (s.slackNoted l k left) := by
  unfold State.slackNoted
  split <;> rfl

theorem State.slackNoted_keeps (s : State) (l k : Nat) (left : List (Nat × Nat)) :
    Keeps [.turn, .host, .recorder] s (s.slackNoted l k left) := .ite (State.wheelSlack_keeps _ _ _) .rfl

theorem State.slackNoted_unmetered (s : State) (l k : Nat) (left : List (Nat × Nat)) :
    (s.slackNoted l k left).turn.unmetered = s.turn.unmetered := by
  unfold State.slackNoted
  split
  · exact s.wheelSlack_unmetered _ _
  · rfl

/-- The state after loop l has been evaluated for sample k. -/
def State.evaluated (s : State) (l k : Nat) : State :=
  ((s.taken l k).evaluate l k).captureFull.slackNoted l k (s.evalsLeft l k)

theorem exec_loopEvaluationDone {s : State} {l : Fin 4096} {k : Nat} (next : s.evalNext l.val = some k) :
    exec (.loopEvaluationDone l false) s = .next (s.evaluated l.val k) := by
  show execLoopEvaluationDone l false s = _
  rw [execLoopEvaluationDone, next]
  dsimp only [State.evaluated, State.taken, State.evalsLeft]
  rw [if_neg Bool.false_ne_true]
  exact State.slackNoted_next _ _ _ _

theorem State.evaluated_keeps (s : State) (l k : Nat) :
    Keeps [.turn, .ply, .host, .recorder] ((s.taken l k).evaluate l k) (s.evaluated l k) :=
  (Keeps.next' (State.captureFull_keeps _) (by decide)).next (State.slackNoted_keeps _ l k _) (by decide)

/-- Beside the evaluation itself the turn takes the slack meter's notes alone. -/
theorem State.evaluated_unmetered (s : State) (l k : Nat) :
    (s.evaluated l k).turn.unmetered = ((s.taken l k).evaluate l k).turn.unmetered :=
  (State.slackNoted_unmetered _ l k _).trans
    (congrArg TurnSt.unmetered ((State.captureFull_keeps _).parts .turn (by decide)))

/-- What a turn has beside the slack meter's notes. -/
theorem TurnSt.same_of_unmetered {x y : TurnSt} (h : x.unmetered = y.unmetered) :
    x.evals = y.evals ∧ x.k = y.k ∧ x.held = y.held :=
  ⟨(congrArg TurnSt.evals h :), (congrArg TurnSt.k h :), (congrArg TurnSt.held h :)⟩

theorem State.evaluated_loop (s : State) (l k j : Nat) : (s.evaluated l k).loop j = ((s.taken l k).evaluate l k).loop j :=
  congrArg (SMap.getD · j LoopSt.fresh) ((s.evaluated_keeps l k).parts .loops (by decide))

theorem State.evaluated_image (s : State) (l k : Nat) : (s.evaluated l k).image = ((s.taken l k).evaluate l k).image :=
  (s.evaluated_keeps l k).parts .image (by decide)

theorem State.evaluated_cell (s : State) (l k j : Nat) : (s.evaluated l k).cell j = ((s.taken l k).evaluate l k).cell j :=
  State.cell_of_image (s.evaluated_image l k) j

/-- A loop evaluated alone commits its output, and no loop but it changes. -/
theorem State.evaluated_commits {s : State} {l k : Nat} (alone : (s.loopEnv l k).Alone) :
    s.CommitsAlone (s.evaluated l k) l k := by
  have env := s.taken_loopEnv l k l
  obtain ⟨others, otherCells, cell, held⟩ := State.evaluate_commits (s := s.taken l k) (l := l) (k := k) (env.symm ▸ alone)
  rw [env, s.taken_image] at cell
  rw [env] at otherCells held
  exact {
    others := fun j this => by rw [s.evaluated_loop, others j this, s.taken_loop]
    otherCells := fun j this => by
      rw [s.evaluated_cell, otherCells j this, State.cell_of_image (s.taken_image l k)]
    cell := fun free => by rw [s.evaluated_cell, s.evaluated_loop, cell free]
    held := by
      obtain ⟨-, -, same⟩ := TurnSt.same_of_unmetered (s.evaluated_unmetered l k)
      rw [same, held, s.evaluated_loop, s.taken_heldOutput, s.taken_turn] }

/-- A loop evaluated alone has the state of its sample. -/
theorem State.evaluated_single {s : State} {l k : Nat} (alone : (s.loopEnv l k).Alone) : ∃ recent shown resumed,
    (s.evaluated l k).loop l =
      { (s.loopEnv l k).single (s.loop l) with recent := recent, shown := shown, resumed := resumed } := by
  rw [s.evaluated_loop, State.evaluate_of_alone (s.taken_loopEnv l k l ▸ alone), s.taken_loopEnv, s.taken_loop]
  exact State.putLoop_loop_same _ _ _

theorem loopEvaluationCompletes : LoopEvaluationCompletes := by
  intro s l k next get n other alone
  have env := s.taken_loopEnv l.val k l.val
  have before := s.taken_turn l.val k
  obtain ⟨evals, number, held⟩ := TurnSt.same_of_unmetered (s.evaluated_unmetered l.val k)
  have every := (s.taken l.val k).evaluate_evaluates l.val k
  refine ⟨s.evaluated l.val k, exec_loopEvaluationDone next, ?_, ?_, ?_, ?_, ?_, fun j this other => ?_, fun alone => ?_,
    fun paired first => ?_⟩
  · rw [evals, every.evals, before]
    rfl
  · rw [number, every.turn, before]
  · rw [s.evaluated_image, every.forces, s.taken_image]
  · rw [s.evaluated_loop, every.sampled.started]
  · rw [s.evaluated_loop, every.sampled.sample]
    rfl
  · rw [s.evaluated_loop, every.others j this (env.symm ▸ other), s.taken_loop]
  · obtain ⟨others, otherCells, cell, held⟩ := s.evaluated_commits (l := l.val) (k := k) alone
    exact ⟨others, otherCells, cell, held⟩
  · rw [s.evaluated_image, held, State.evaluate_of_head (env.symm ▸ paired) (env.symm ▸ first)]
    exact ⟨s.taken_image l.val k, (congrArg TurnSt.held before :)⟩

/-! The law of an unpaired loop in AUTO (R180 to R183). -/

/-- The measurement of an environment's loop (R174). -/
def LoopEnv.measured (e : LoopEnv) : Entry := e.slot (RegMap.get e.m (F.LOOP_MEAS_meas_slot e.l))

theorem LoopEnv.slot_measured (e : LoopEnv) : e.slot (RegMap.get e.m (F.LOOP_MEAS_meas_slot e.l)) = e.measured := rfl

/-- A started, unpaired loop in AUTO at an unbraked sample with a GOOD measurement, for which neither a request nor a
transfer waits: its sample runs the law of R180 alone. -/
structure LoopEnv.Steady (e : LoopEnv) (x : LoopSt) : Prop where
  unpaired : RegMap.get e.m (F.LOOP_CTRL_ovr e.l) = 0
  unbraked : e.braked = false
  good : e.measured.tag = 0
  started : x.started = true
  mode : x.mode = 1
  reqs : x.reqs = []
  owed : x.owed = false
  wasBraked : x.wasBraked = false
  gainFrom : x.gainFrom = []

namespace LoopEnv.Steady

variable {e : LoopEnv} {x : LoopSt} (h : e.Steady x)
include h

theorem second : e.second = false := by simp [LoopEnv.second, h.unpaired]

theorem start_eq (y : Int) : e.start x y = x := if_pos h.started

theorem dueReqs_eq : dueReqs x e.k = ⟨0, none, none, none⟩ := by simp [dueReqs, h.reqs]

theorem requested_eq : e.requested ⟨0, none, none, none⟩ x = x := by
  have reqs := h.reqs
  cases x
  simp_all [LoopEnv.requested, h.second]

theorem shedding_eq : e.shedding e.measured x = x := if_neg (by simp [tagQuality, h.good])

theorem transferred_eq : e.transferred ⟨0, none, none, none⟩ x.mode x = x := by
  obtain ⟨-, unbraked, -, -, mode, -, owed, wasBraked, gainFrom⟩ := h
  cases x
  simp_all [LoopEnv.transferred, LoopEnv.transfers]

theorem usable : e.usable e.measured = true := by
  simp [LoopEnv.usable, h.good, tagBit, tagQuality, bitOf]

/-- No request, no shed and no transfer touches the loop, and its sample is not frozen. -/
theorem modes_eq : e.modes x e.measured = (x, false) := by
  rw [e.modes_eq, h.dueReqs_eq, h.requested_eq, h.shedding_eq, h.transferred_eq, h.usable]
  rfl

end LoopEnv.Steady

/-- A rate word without a mantissa sets no limit (R179). -/
theorem rateMove_of_unlimited {word : Nat} (h : word % 1024 = 0) (now goal : Int) : rateMove word now goal = (goal, false) :=
  if_pos h

theorem rsh_shl (x : Int) (n : Nat) : rsh (shl x n) n = x := by
  by_cases zero : n = 0
  · simp [rsh, shl, zero]
  · have half : 2 ^ (n - 1) < 2 ^ n := Nat.pow_lt_pow_right (by omega) (by omega)
    have nearest : (x.natAbs * 2 ^ n + 2 ^ (n - 1)) / 2 ^ n = x.natAbs := by
      rw [Nat.add_comm, Nat.add_mul_div_right _ _ (Nat.two_pow_pos n), Nat.div_eq_of_lt half, Nat.zero_add]
    rw [rsh, if_neg zero, signOf_eq_sign, shl, Int.natAbs_mul, Int.natAbs_natCast, nearest,
      Int.sign_mul, Int.sign_eq_one_of_pos (by positivity : (0 : Int) < ((2 ^ n : Nat) : Int)), mul_one, Int.sign_mul_natAbs]

theorem scl_zero (c : Int × Nat) : scl c 0 = 0 := by
  simp [scl, shl, rsh, signOf]

/-- A loop whose settings use neither feedforward, a set-point slot nor a rate limit (R174, R179). -/
structure LoopEnv.Plain (e : LoopEnv) : Prop where
  set : RegMap.get e.m (F.LOOP_CTRL_sp_kind e.l) ≠ 2
  feed : RegMap.get e.m (F.LOOP_CTRL_ff_en e.l) = 0
  rise : RegMap.get e.m (F.LOOP_FF_sp_rise e.l) % 1024 = 0
  fall : RegMap.get e.m (F.LOOP_TRACK_sp_fall e.l) % 1024 = 0
  rate : RegMap.get e.m (F.LOOP_OUT_out_rate e.l) % 1024 = 0

theorem LoopEnv.Plain.ramp {e : LoopEnv} (h : e.Plain) (now goal : Int) :
    rateMove (if now < goal then RegMap.get e.m (F.LOOP_FF_sp_rise e.l)
      else if goal < now then RegMap.get e.m (F.LOOP_TRACK_sp_fall e.l) else 0) now goal = (goal, false) := by
  refine rateMove_of_unlimited ?_ _ _
  split
  · exact h.rise
  · split
    · exact h.fall
    · rfl

namespace LoopEnv.Steady

variable {e : LoopEnv} {x : LoopSt} (h : e.Steady x)
include h

theorem law_d : (e.law x).d = sat18 (rsh (scl (coef e.m (F.LOOP_ALPHA_m e.l) (F.LOOP_ALPHA_e e.l)) x.d -
    scl (coef e.m (F.LOOP_KD_m e.l) (F.LOOP_KD_e e.l)) (sat18 (e.measured.value.toInt - x.yPrev))) 18) := by
  simp [LoopEnv.law, LoopEnv.slot_measured, h.start_eq, h.modes_eq]

theorem law_yPrev : (e.law x).yPrev = e.measured.value.toInt := by
  simp [LoopEnv.law, LoopEnv.slot_measured, h.start_eq, h.modes_eq]

theorem law_mode : (e.law x).mode = 1 := by
  simp [LoopEnv.law, LoopEnv.slot_measured, h.start_eq, h.modes_eq, h.mode]

variable (plain : e.Plain)
include plain

theorem law_p : (e.law x).nodes.p = scl (coef e.m (F.LOOP_KP_m e.l) (F.LOOP_KP_e e.l))
    (sat18 (rsh ((coef e.m (F.LOOP_BW_m e.l) (F.LOOP_BW_e e.l)).1 * x.target) (coef e.m (F.LOOP_BW_m e.l) (F.LOOP_BW_e e.l)).2 -
      e.measured.value.toInt)) := by
  simp [LoopEnv.law, LoopEnv.slot_measured, h.start_eq, h.modes_eq, h.mode, plain.set, plain.ramp, rsh_shl]

theorem law_i : (e.law x).i = clampI (x.i + scl (coef e.m (F.LOOP_KI_m e.l) (F.LOOP_KI_e e.l))
    (sat18 (x.target - e.measured.value.toInt)))
    (shl (e.q (F.LOOP_I_LO_bound e.l)) 18) (shl (e.q (F.LOOP_I_HI_bound e.l)) 18) := by
  simp [LoopEnv.law, LoopEnv.slot_measured, h.start_eq, h.modes_eq, h.mode, h.unbraked, h.owed, plain.set, plain.ramp, rsh_shl]

theorem law_t : (e.law x).nodes.t = clampI (sat18 (rsh (sat54 ((e.law x).nodes.p + (e.law x).i + shl (e.law x).d 18)) 18))
    (e.q (F.LOOP_OUT_LO_limit e.l)) (e.q (F.LOOP_OUT_HI_limit e.l)) := by
  rw [h.law_p plain, h.law_i plain, h.law_d]
  simp [LoopEnv.law, LoopEnv.slot_measured, h.start_eq, h.modes_eq, h.mode, h.unbraked, h.owed, plain.set, plain.ramp, rsh_shl,
    plain.feed, LoopEnv.on, scl_zero]

theorem law_target : (e.law x).target = x.target := by
  simp [LoopEnv.law, LoopEnv.slot_measured, h.start_eq, h.modes_eq, h.mode, plain.set]

end LoopEnv.Steady

/-! The statement's own arithmetic is the wheel's (R128, R178, R180). -/

theorem rounds_eq (x : Int) (n : Nat) : rounds x n = rsh x n := by rw [rounds, rsh, signOf_eq_sign]

theorem scaled_eq (c : Int × Nat) (x : Int) : scaled c.1 c.2 x = scl c x := by
  simp [scaled, scl, rounds_eq, shl]

/-- A signed field of 18 bits as the wheel reads it. -/
theorem setting_eq (m : RegMap) (f : Fld) : setting m f = sextNat 18 (RegMap.get m f) := by
  rw [setting, BitVec.toInt_eq_toNat_cond, BitVec.toNat_ofNat]
  rfl

theorem sat54_eq (x : Int) : sat54 x = between x (-2 ^ 53) (2 ^ 53 - 1) := rfl

theorem LoopEnv.Steady.pidStep {e : LoopEnv} {x : LoopSt} (h : e.Steady x) (plain : e.Plain) :
    PidStep e.m e.l e.measured.value.toInt x.target x.i x.d x.yPrev (e.law x).nodes.p (e.law x).i (e.law x).d
      (e.law x).nodes.t where
  pTerm := by simp only [h.law_p plain, setting_eq, rounds_eq, clamp18_eq, ← scaled_eq, coef]
  iTerm := by
    simp only [h.law_i plain, setting_eq, clamp18_eq, ← scaled_eq, coef]
    rfl
  dTerm := by simp only [h.law_d, setting_eq, rounds_eq, clamp18_eq, ← scaled_eq, coef]
  output := by
    rw [h.law_t plain, sat54_eq]
    simp only [setting_eq, rounds_eq, clamp18_eq]
    rfl

/-- Without a rate limit the output of an unbraked sample is the limited output t (R183). -/
theorem LoopEnv.Steady.single_eq {e : LoopEnv} {x : LoopSt} (h : e.Steady x) (plain : e.Plain) :
    ∃ clamped, e.single x = e.finish (e.law x) (e.law x).nodes.t (shl (e.law x).nodes.t 7) false false
      (loopEntry (e.law x).nodes.t clamped) := by
  have rate : e.rate (e.law x).uf (e.law x).nodes.t = (shl (e.law x).nodes.t 7, false) := by
    rw [LoopEnv.rate, h.unbraked, if_neg Bool.false_ne_true, rateMove_of_unlimited plain.rate]
  refine ⟨bitOf (e.law x).nodes.status 6 || bitOf (e.law x).nodes.status 7, ?_⟩
  simp only [LoopEnv.single, rate, rsh_shl]

/-- An output within the range of a sample enters its slot with its value (R49). -/
theorem loopEntry_value {u : Int} (low : -2 ^ 17 ≤ u) (high : u < 2 ^ 17) (clamped : Bool) :
    (loopEntry u clamped).value.toInt = u := by
  rw [loopEntry, ← sampleOf_eq, BitVec.toInt_ofInt]
  exact Int.bmod_eq_of_le (by omega) (by omega)

/-- A loop's output is GOOD and not forced (R183). -/
theorem loopEntry_tag (u : Int) (clamped : Bool) : (loopEntry u clamped).tag.toNat % 8 = 0 := by
  show (mkTag 0 false clamped false false).toNat % 8 = 0
  revert clamped
  decide

theorem setting_range (m : RegMap) (f : Fld) : -2 ^ 17 ≤ setting m f ∧ setting m f < 2 ^ 17 :=
  ⟨BitVec.le_toInt _, BitVec.toInt_lt⟩

theorem loopEvaluationLaw : LoopEvaluationLaw := by
  intro s l k next x m get n meas ovr set feed rise fall rate braked started mode reqs owed wasBraked gainFrom good free limits
  let e := s.loopEnv l.val k
  have unbraked : e.braked = false := by simpa [e, State.loopEnv] using braked
  have steady : e.Steady x := ⟨ovr, unbraked, good, started, mode, reqs, owed, wasBraked, gainFrom⟩
  have plain : e.Plain := ⟨set, feed, rise, fall, rate⟩
  have alone : e.Alone := .inl ovr
  have pid := steady.pidStep plain
  obtain ⟨clamped, single⟩ := steady.single_eq plain
  obtain ⟨recent, shown, resumed, loop⟩ := State.evaluated_single alone
  have cell := (State.evaluated_commits alone).cell free
  obtain ⟨low, -⟩ := setting_range m (F.LOOP_OUT_LO_limit l.val)
  obtain ⟨-, high⟩ := setting_range m (F.LOOP_OUT_HI_limit l.val)
  have within : setting m (F.LOOP_OUT_LO_limit l.val) ≤ (e.law x).nodes.t ∧
      (e.law x).nodes.t ≤ setting m (F.LOOP_OUT_HI_limit l.val) := by
    rw [pid.output]
    exact ⟨le_min (le_max_right _ _) limits, min_le_right _ _⟩
  refine ⟨s.evaluated l.val k, exec_loopEvaluationDone next, (e.law x).nodes.p, (e.law x).nodes.t, ?_⟩
  rw [single] at loop
  have entry : (s.evaluated l.val k).cell n = ⟨loopEntry (e.law x).nodes.t clamped, 0⟩ := by
    rw [loop] at cell
    exact cell
  rw [loop, entry]
  exact ⟨pid, steady.law_yPrev, rfl, steady.law_target plain, steady.law_mode,
    loopEntry_value (low.trans within.1) (within.2.trans_lt high) clamped, loopEntry_tag _ clamped⟩

/-- Settles O15: every evaluation by the three ways in which a loop evaluates, the law by the steps of R180 to R183 in a
steady, plain loop. -/
theorem loopEvaluationFollowsTheLaw : Obligations.LoopEvaluationFollowsTheLaw :=
  ⟨loopEvaluationCompletes, loopEvaluationLaw⟩

end Sys2Proof.Machine

/-! PROOFS. Trace groups: arming, stopping and forcing them, and the entry that a capture record puts into a trace ring. -/

namespace Sys2Proof.Machine

/-! Numbers in a string of bytes. -/

@[simp] theorem leBytes_length (len n : Nat) : (leBytes len n).length = len := by
  induction len generalizing n with
  | zero => rfl
  | succ len ih => simp [leBytes, ih]

/-- As many low bytes of a number as were written read back. -/
theorem leNat_leBytes_mod (len n : Nat) : leNat (leBytes len n) = n % 256 ^ len := by
  induction len generalizing n with
  | zero => simp [leBytes, leNat, Nat.mod_one]
  | succ len ih =>
    have split : n % 256 ^ (len + 1) = n % 256 + 256 * (n / 256 % 256 ^ len) := by rw [Nat.pow_succ', Nat.mod_mul]
    rw [leBytes, leNat, ih, Nat.shiftRight_eq_div_pow, BitVec.toNat_ofNat, split]

/-- A number written between two strings reads back at its place. -/
theorem leAt_leBytes (a b : Bytes) (len n : Nat) : leAt (a ++ leBytes len n ++ b) a.length len = n % 256 ^ len := by
  rw [leAt, slice, List.append_assoc, List.drop_left, List.take_left' (leBytes_length len n), leBytes_length, Nat.sub_self]
  simpa using leNat_leBytes_mod len n

/-! Channels and groups. -/

@[simp] theorem State.chan_setChan_same (s : State) (ch : Nat) (c : TraceChan) : (s.setChan ch c).chan ch = c :=
  SMap.getD_put_same _ _ _ _

theorem State.chan_setChan_ne (s : State) {ch c : Nat} (x : TraceChan) (h : ch ≠ c) : (s.setChan ch x).chan c = s.chan c :=
  SMap.getD_put_ne _ _ _ h

@[simp] theorem State.grp_setGrp_same (s : State) (g : Nat) (x : TraceGroup) : (s.setGrp g x).grp g = x :=
  SMap.getD_put_same _ _ _ _

/-- A write of one field of a trace group's status stays within the trace registers. -/
theorem RegsIn.gstat {s t : State} (h : RegsIn [.trace] s t) {g lo width : Nat} (hg : g < 8) (hl : lo < 32) (v : Nat) :
    RegsIn [.trace] s (t.wr ⟨524556 + 32 * g, lo, width, 0⟩ v) :=
  h.wr _ _ .trace hl (by decide) (by simp only [Bank.range]; omega) (by simp only [Bank.range]; omega)

/-- What a group that is made idle shows (R214). -/
theorem State.idleGroup_shows (s : State) {g : Nat} (hg : g < 8) :
    (s.idleGroup g).grpState g = 0 ∧ (s.idleGroup g).grp g = TraceGroup.idle ∧ (s.idleGroup g).trace.chan = s.trace.chan ∧
      RegsIn [.trace] s (s.idleGroup g) ∧ (s.idleGroup g).mem = s.mem :=
  ⟨s.rd_wr_same (F.TRACE_GSTAT_state g) 0, State.grp_setGrp_same _ _ _, rfl,
    (RegsIn.rfl.gstat hg (by decide) 0).trans (.of_regs rfl), rfl⟩

/-! Arming (R214, R215). -/

/-- A channel at its arm: empty, no error seen. -/
def State.emptyChan (s : State) (ch : Nat) : State :=
  (s.setChan ch TraceChan.empty).wr (F.TRACE_STATUS_ecc ch) 0

/-- The channels of a list at their arm. -/
def State.emptied (s : State) (l : List Nat) : State := l.foldl State.emptyChan s

/-- A group armed for the next boundary. -/
def State.groupArmed (s : State) (g : Nat) : State :=
  ((s.emptied (s.grpChans g)).setGrp g { TraceGroup.idle with armTurn := s.turn.k + 1 }).wr (F.TRACE_GSTAT_state g) 1

theorem State.emptied_frame (s : State) (l : List Nat) :
    (s.emptied l).turn = s.turn ∧ (s.emptied l).mem = s.mem :=
  List.foldlRecOn l _ (motive := fun u : State => u.turn = s.turn ∧ u.mem = s.mem) ⟨rfl, rfl⟩ fun _ hu _ _ => hu

theorem State.chan_emptyChan_same (s : State) (ch : Nat) : (s.emptyChan ch).chan ch = TraceChan.empty :=
  State.chan_setChan_same s ch _

theorem State.chan_emptyChan_ne (s : State) {c ch : Nat} (h : c ≠ ch) : (s.emptyChan c).chan ch = s.chan ch :=
  State.chan_setChan_ne s _ h

theorem State.emptied_chan_of_mem (s : State) {l : List Nat} {ch : Nat} (h : ch ∈ l) :
    (s.emptied l).chan ch = TraceChan.empty := by
  refine foldl_reaches (I := fun _ => True) (P := fun u : State => u.chan ch = TraceChan.empty) h trivial
    (fun _ _ _ _ => trivial) (fun u _ => u.chan_emptyChan_same ch) fun u _ hu c _ => ?_
  by_cases e : c = ch
  · exact e ▸ u.chan_emptyChan_same c
  · exact (u.chan_emptyChan_ne e).trans hu

theorem State.emptied_chan_of_not_mem (s : State) {l : List Nat} {ch : Nat} (h : ch ∉ l) :
    (s.emptied l).chan ch = s.chan ch :=
  List.foldlRecOn l _ (motive := fun u : State => u.chan ch = s.chan ch) rfl fun u hu _ hc =>
    (u.chan_emptyChan_ne (ne_of_mem_of_not_mem hc h)).trans hu

theorem State.emptied_ecc (s : State) {l : List Nat} {ch : Nat} (h : ch ∈ l) :
    (s.emptied l).rd (F.TRACE_STATUS_ecc ch) = 0 :=
  rd_foldl_of_mem s h (fun _ => State.rd_wr_same _ _ _) fun _ c hc =>
    State.rd_wr_ne _ _ _ _ (by simp only [Fld.key, F.TRACE_STATUS_ecc]; omega)

theorem State.grpChans_lt {s : State} {g ch : Nat} (h : ch ∈ s.grpChans g) : ch < 64 :=
  mem_upTo.1 (List.mem_of_mem_filter h)

theorem State.emptied_in (s : State) {l : List Nat} (below : ∀ ch ∈ l, ch < 64) : RegsIn [.trace] s (s.emptied l) := by
  refine RegsIn.foldl _ _ .rfl fun u ch hc hu => ?_
  have := below ch hc
  exact RegsIn.wr _ _ .trace hu (by decide : 2 < 32) (by decide) (by simp only [Bank.range, F.TRACE_STATUS_ecc]; omega)
    (by simp only [Bank.range, F.TRACE_STATUS_ecc]; omega)

/-- The reason of a refusal fits its field. -/
theorem State.armErr_lt (s : State) (g : Nat) : s.armErr g < 8 := by
  unfold State.armErr
  simp only
  repeat' split
  all_goals decide

theorem exec_traceArm {s : State} {g : Fin 8} (on : s.pd .bins = true) (free : s.grpState g.val ∉ [1, 2]) :
    exec (.traceArm g) s = .next (if s.armErr g.val = 0 then s.groupArmed g.val
      else (s.idleGroup g.val).wr (F.TRACE_GSTAT_arm_err g.val) (s.armErr g.val)) := by
  have idle : (!s.pd .bins || s.grpState g.val == 1 || s.grpState g.val == 2) = false := by simpa [on] using free
  have turn := (s.emptied_frame (s.grpChans g.val)).1
  change execTraceArm g s = _
  unfold execTraceArm State.groupArmed
  simp only [idle, ← turn]
  by_cases good : s.armErr g.val = 0
  · simp only [good]; rfl
  · simp only [if_neg good, bne_iff_ne.2 good]; rfl

theorem State.groupArmed_shows (s : State) {g : Nat} (hg : g < 8) :
    (s.groupArmed g).grpState g = 1 ∧ (s.groupArmed g).grp g = { TraceGroup.idle with armTurn := s.turn.k + 1 } ∧
      (∀ ch ∈ s.grpChans g, (s.groupArmed g).chan ch = TraceChan.empty ∧
        (s.groupArmed g).rd (F.TRACE_STATUS_ecc ch) = 0) ∧
      (∀ ch, ch ∉ s.grpChans g → (s.groupArmed g).chan ch = s.chan ch) ∧
      RegsIn [.trace] s (s.groupArmed g) ∧ (s.groupArmed g).mem = s.mem := by
  obtain ⟨-, mem⟩ := s.emptied_frame (s.grpChans g)
  refine ⟨State.rd_wr_same _ _ _, State.grp_setGrp_same _ _ _, fun ch hc => ⟨s.emptied_chan_of_mem hc, ?_⟩,
    fun ch hc => s.emptied_chan_of_not_mem hc,
    ((s.emptied_in fun _ => State.grpChans_lt).trans (.of_regs rfl)).gstat hg (by decide) 1, mem⟩
  exact (State.rd_wr_ne _ _ _ _ (by simp only [Fld.key, F.TRACE_GSTAT_state, F.TRACE_STATUS_ecc]; omega)).trans
    (s.emptied_ecc hc)

theorem traceArm_does {s : State} {g : Fin 8} (on : s.pd .bins = true) (free : s.grpState g.val ∉ [1, 2]) :
    Does (.traceArm g) s (fun t =>
      RegsIn [.trace] s t ∧ t.mem = s.mem ∧
        (s.armErr g.val = 0 → t.grpState g.val = 1 ∧ (t.grp g.val).armTurn = s.turn.k + 1 ∧ (t.grp g.val).trig = none ∧
          (∀ ch ∈ s.grpChans g.val, t.chan ch = TraceChan.empty ∧ t.rd (F.TRACE_STATUS_ecc ch) = 0) ∧
          (∀ ch, ch ∉ s.grpChans g.val → t.chan ch = s.chan ch)) ∧
        (s.armErr g.val ≠ 0 → t.grpState g.val = 0 ∧ t.rd (F.TRACE_GSTAT_arm_err g.val) = s.armErr g.val ∧
          t.trace.chan = s.trace.chan)) := by
  refine ⟨_, exec_traceArm on free, ?_⟩
  by_cases good : s.armErr g.val = 0
  · obtain ⟨state, group, empty, other, regs, mem⟩ := s.groupArmed_shows g.isLt
    rw [if_pos good]
    exact ⟨regs, mem, fun _ => ⟨state, by rw [group], by rw [group]; rfl, empty, other⟩, fun bad => absurd good bad⟩
  · obtain ⟨state, -, chans, regs, mem⟩ := s.idleGroup_shows g.isLt
    rw [if_neg good]
    refine ⟨regs.gstat g.isLt (by decide) _, mem, fun none => absurd none good, fun _ => ⟨?_, ?_, chans⟩⟩
    · exact (State.rd_wr_ne _ _ _ _ (Fld.key_ne_lo (by simp [F.TRACE_GSTAT_arm_err]) (by simp [F.TRACE_GSTAT_state])
        (by simp [F.TRACE_GSTAT_arm_err, F.TRACE_GSTAT_state]))).trans state
    · exact (State.rd_wr_same _ _ _).trans (Nat.mod_eq_of_lt (s.armErr_lt g.val))

/-! A trace ring's entry (R340). -/

/-- Where the next entry of a trace ring goes. -/
def State.trcPlace (s : State) (i : Nat) : Nat :=
  s.hostAddr (0x2100 + 16 * i) + SMap.getD s.host.trcWritten i 0 % s.trcSize i * 576

/-- The header of a trace ring's next entry, of its bytes 0 to 3 and 8 to 62. -/
def State.trcHeader (s : State) (i : Nat) (head rest : Bytes) : Bytes :=
  head ++ leBytes 4 (SMap.getD s.host.trcWritten i 0 + 1) ++ rest ++
    leBytes 1 (bit (SMap.getD s.host.trcWritten i 0 / s.trcSize i % 2 == 0))

/-- The state in which an entry has been written to a trace ring, before its event. -/
def State.trcEntered (s : State) (i : Nat) (head rest data : Bytes) : State :=
  let t := s.emit (.host (s.trcPlace i) (s.trcHeader i head rest ++ data))
  { t with host := { t.host with trcWritten := SMap.put t.host.trcWritten i (SMap.getD s.host.trcWritten i 0 + 1) } }

theorem State.writeTrc_admitted {s : State} {i : Nat} (admitted : (s.acAccess 3 1 5 (s.trcPlace i) 576).2 = true)
    (head rest data : Bytes) : s.writeTrc i head rest data = (s.trcEntered i head rest data).raiseSource 5 0 0 := by
  rw [State.trcPlace] at admitted
  unfold State.writeTrc
  simp only [State.acAccess_true _ _ _ _ _ _ admitted]
  rfl

theorem EventsOnly.trcWritten {s t : State} (h : EventsOnly s t) : t.host.trcWritten = s.host.trcWritten := by
  obtain ⟨_, _, _, same⟩ := h
  rw [same]

/-- What the host sees of an entry that is written. -/
theorem State.writeTrc_shows {s : State} {i : Nat} (admitted : (s.acAccess 3 1 5 (s.trcPlace i) 576).2 = true)
    (head rest data : Bytes) :
    SMap.find (s.writeTrc i head rest data).host.trcWritten i = some (SMap.getD s.host.trcWritten i 0 + 1) ∧
      Out.host (s.trcPlace i) (s.trcHeader i head rest ++ data) ∈ (s.writeTrc i head rest data).out := by
  rw [State.writeTrc_admitted admitted]
  refine ⟨?_, (State.raiseSource_keeps _ 5 0 0).sent.subset (List.mem_append_right _ (List.mem_singleton_self _))⟩
  rw [((s.trcEntered i head rest data).raiseSource_events 5 0 0).trcWritten]
  exact SMap.find_put_same _ _ _

/-- A header holds the entry's number in bytes 4 to 7 and the pass over the ring in byte 63. -/
theorem State.trcHeader_fields (s : State) (i : Nat) {head rest : Bytes} (short : head.length = 4) (long : rest.length = 55) :
    (s.trcHeader i head rest).length = 64 ∧
      leAt (s.trcHeader i head rest) 4 4 = (SMap.getD s.host.trcWritten i 0 + 1) % 2 ^ 32 ∧
      byteAt (s.trcHeader i head rest) 63 = bit (SMap.getD s.host.trcWritten i 0 / s.trcSize i % 2 == 0) := by
  refine ⟨by simp [State.trcHeader, short, long], ?_, ?_⟩
  · rw [State.trcHeader, List.append_assoc _ rest, ← short, leAt_leBytes, short]
    rfl
  · rw [State.trcHeader, byteAt, List.getElem?_append_right (by simp [short, long])]
    cases SMap.getD s.host.trcWritten i 0 / s.trcSize i % 2 == 0 <;> simp [short, long, leBytes, bit]

/-! The capture record (R340). -/

/-- Bytes 0 to 3 of a capture record's header: its kind, its group, and whether it is short or a channel saw an error. -/
def State.captureHead (s : State) (g : Fin 8) : Bytes :=
  [1, BitVec.ofNat 8 g.val, 0, BitVec.ofNat 8 (s.rd (F.TRACE_GSTAT_short g.val) +
    2 * bit ((s.grpChans g.val).any (fun ch => s.on (F.TRACE_STATUS_ecc ch))))]

/-- Bytes 8 to 62 of a capture record's header: its trigger turn and its channels. -/
def State.captureRest (s : State) (g : Fin 8) : Bytes :=
  leBytes 8 ((s.grp g.val).trig.getD 0) ++ leBytes 8 ((s.grpChans g.val).foldl (fun a ch => a + 2 ^ ch) 0) ++
    List.replicate 39 0

/-- The state t, in which a group is as in s but for its capture record, which no longer waits. -/
def State.recordGone (s t : State) (g : Fin 8) : State := t.setGrp g.val { s.grp g.val with recordWaits := false }

theorem exec_traceCaptureRecord {s : State} {g : Fin 8} (waits : (s.grp g.val).recordWaits = true) :
    exec (.traceCaptureRecord g) s = .next (
      if s.on (F.TRR_CTRL_enable (s.rd (F.TRACE_TRIG_ring g.val))) = false then s.recordGone s g
      else if s.trcRoom (s.rd (F.TRACE_TRIG_ring g.val)) = true then
        s.recordGone (s.writeTrc (s.rd (F.TRACE_TRIG_ring g.val)) (s.captureHead g) (s.captureRest g) (List.replicate 512 0)) g
      else s) := by
  change execTraceCaptureRecord g s = _
  unfold execTraceCaptureRecord
  simp only [waits, Bool.not_true, Bool.not_eq_true', Bool.false_eq_true, if_false]
  split
  · rfl
  · split <;> rfl

/-- A capture record's header: kind 1, its group, its number, its trigger turn and the pass over the ring. -/
theorem State.captureHeader_fields (s : State) (g : Fin 8) (i : Nat) :
    let header := s.trcHeader i (s.captureHead g) (s.captureRest g)
    header.length = 64 ∧ byteAt header 0 = 1 ∧ byteAt header 1 = g.val ∧
      leAt header 4 4 = (SMap.getD s.host.trcWritten i 0 + 1) % 2 ^ 32 ∧
      leAt header 8 8 = ((s.grp g.val).trig.getD 0) % 2 ^ 64 ∧
      byteAt header 63 = bit (SMap.getD s.host.trcWritten i 0 / s.trcSize i % 2 == 0) := by
  obtain ⟨length, number, pass⟩ := s.trcHeader_fields i (head := s.captureHead g) (rest := s.captureRest g) rfl
    (by simp [State.captureRest])
  have group : g.val % 256 = g.val := Nat.mod_eq_of_lt (by omega)
  refine ⟨length, rfl, group, number, ?_, pass⟩
  have front : (s.captureHead g ++ leBytes 4 (SMap.getD s.host.trcWritten i 0 + 1)).length = 8 := by
    simp [State.captureHead]
  have turn := leAt_leBytes (s.captureHead g ++ leBytes 4 (SMap.getD s.host.trcWritten i 0 + 1))
    (leBytes 8 ((s.grpChans g.val).foldl (fun a ch => a + 2 ^ ch) 0) ++ List.replicate 39 0 ++
      leBytes 1 (bit (SMap.getD s.host.trcWritten i 0 / s.trcSize i % 2 == 0))) 8 ((s.grp g.val).trig.getD 0)
  rw [front] at turn
  simpa [State.trcHeader, State.captureRest] using turn

theorem State.trcRoom_enabled {s : State} {i : Nat} (room : s.trcRoom i = true) : s.on (F.TRR_CTRL_enable i) = true := by
  simp only [State.trcRoom, Bool.and_eq_true] at room
  exact room.1.1.1

/-- Settles O27: each command by its equation, a record's entry by the fields of its header. -/
theorem traceGroupsArmStopAndRecord : Obligations.TraceGroupsArmStopAndRecord := by
  intro s g ring n addr
  refine ⟨traceArm_does, fun on => ?_, fun on armed capture => ?_, fun waits => ⟨fun off => ?_, fun room admitted => ?_,
    fun enabled full => ?_⟩⟩
  · exact ⟨_, if_neg (by simp [on]), s.idleGroup_shows g.isLt⟩
  · refine ⟨s.setGrp g.val { s.grp g.val with forced := true }, if_neg (by simp [on, armed, State.on, capture]), ?_, ?_,
      rfl, rfl, rfl⟩ <;> rw [State.grp_setGrp_same]
  · have disabled : s.on (F.TRR_CTRL_enable ring) = false := by simp [State.on, off]
    exact ⟨_, (exec_traceCaptureRecord waits).trans (congrArg _ (if_pos disabled)),
      congrArg TraceGroup.recordWaits (State.grp_setGrp_same s g.val _), rfl⟩
  · obtain ⟨counted, sent⟩ := State.writeTrc_shows (i := ring) admitted (s.captureHead g) (s.captureRest g)
      (List.replicate 512 0)
    obtain ⟨length, kind, group, number, turn, pass⟩ := s.captureHeader_fields g ring
    refine ⟨_, (exec_traceCaptureRecord waits).trans (congrArg _ ((if_neg ?_).trans (if_pos room))),
      congrArg TraceGroup.recordWaits (State.grp_setGrp_same _ g.val _), counted,
      s.trcHeader ring (s.captureHead g) (s.captureRest g), length, kind, group, number, turn, pass, sent⟩
    simpa using State.trcRoom_enabled room
  · have on : ¬s.on (F.TRR_CTRL_enable ring) = false := by simp [State.on, enabled]
    exact (exec_traceCaptureRecord waits).trans (congrArg _ ((if_neg on).trans (if_neg (Bool.eq_false_iff.1 full))))

end Sys2Proof.Machine

/-! PROOFS. The board ring's registers and frames: what an event of the ring writes, what a change of its members leaves of
the member table, and which frames go out and are forwarded. -/

namespace Sys2Proof.Machine

/-! Events of the ring (R236). -/

/-- A source that is raised where a test says so leaves the registers of the other banks (R335). -/
theorem State.raisedIf_rd (t : State) (rose : Bool) {src : Nat} (hs : src < 128) (a b : Nat) {f : Fld} {c : Bank} (hf : f.In c)
    (hc : c ∉ [Bank.events, .viol]) : (if rose then t.raiseSource src a b else t).rd f = t.rd f := by
  cases rose
  · rfl
  · exact (t.raiseSource_in src a b hs).rd_eq hf hc

/-- An event of the ring writes of the ring's registers RING_EVT alone. -/
theorem State.ringEvt_rd_ring (s : State) (i : Nat) {f : Fld} (hf : f.In .ring) : (s.ringEvt i).rd f =
    (if i = 10 then s.wr F.RING_EVT_topology 1 else s.wr F.RING_EVT_evt (setBit (s.rd F.RING_EVT_evt) i true)).rd f := by
  exact State.raisedIf_rd _ _ (by decide) _ _ hf (by decide)

theorem State.ringEvt_rd (s : State) (i : Nat) {f : Fld} (hf : f.In .ring) (other : f.off ≠ F.RING_EVT_evt.off) :
    (s.ringEvt i).rd f = s.rd f := by
  rw [s.ringEvt_rd_ring i hf]
  split
  · exact State.rd_wr_ne _ _ _ _ (Fld.key_ne_off (by decide) hf.1 (Ne.symm other))
  · exact State.rd_wr_ne _ _ _ _ (Fld.key_ne_off (by decide) hf.1 (Ne.symm other))

theorem State.ringEvt_topology (s : State) : (s.ringEvt 10).rd F.RING_EVT_topology = 1 := by
  rw [s.ringEvt_rd_ring 10 (by decide), if_pos rfl, State.rd_wr_same]
  rfl

theorem State.ringEvt_stays (s : State) (i : Nat) : BitsStay F.RING_EVT_evt s (s.ringEvt i) := by
  have written := s.ringEvt_rd_ring i (f := F.RING_EVT_evt) (by decide)
  split at written
  · exact (BitsStay.rfl.wr_ne 1 (by decide)).trans (.of_eq written)
  · exact (BitsStay.rfl.setBit i).trans (.of_eq written)

theorem State.ringEvt_bit (s : State) {i : Nat} (hi : i < 10) : bitOf ((s.ringEvt i).rd F.RING_EVT_evt) i = true := by
  rw [s.ringEvt_rd_ring i (by decide), if_neg (by omega), State.bitOf_wr_setBit _ hi, decide_eq_true rfl, Bool.or_true]

theorem State.ringEvt_ring (s : State) (i : Nat) : (s.ringEvt i).ring = s.ring :=
  (s.ringEvt_keeps i).parts .ring (by decide)

theorem State.ringEvt_image (s : State) (i : Nat) : (s.ringEvt i).image = s.image :=
  (s.ringEvt_keeps i).parts .image (by decide)

/-! The member table (R236). -/

/-- A field of the member table. -/
abbrev Fld.OfMember (f : Fld) : Prop := f.lo < 32 ∧ 24832 ≤ f.off ∧ f.off < 24896

theorem Fld.OfMember.ring {f : Fld} (hf : f.OfMember) : f.In .ring := by
  simp only [Fld.In, Bank.range]
  omega

theorem memberFields {p : Nat} (hp : p < 16) : (F.RING_MEMBER_state p).OfMember ∧ (F.RING_MEMBER_role p).OfMember ∧
    (F.RING_MEMBER_load p).OfMember ∧ (F.RING_MEMBER_via_e p).OfMember ∧ (F.RING_MEMBER_via_w p).OfMember := by
  simp only [Fld.OfMember, F.RING_MEMBER_state, F.RING_MEMBER_role, F.RING_MEMBER_load, F.RING_MEMBER_via_e,
    F.RING_MEMBER_via_w]
  omega

/-- Every field of the member table reads the same, and no event bit of the ring is cleared. -/
structure MembersStay (s t : State) : Prop where
  table : ∀ {f : Fld}, f.OfMember → t.rd f = s.rd f
  events : BitsStay F.RING_EVT_evt s t

theorem MembersStay.rfl {s : State} : MembersStay s s := ⟨fun _ => Eq.refl _, .rfl⟩

theorem MembersStay.trans {s t u : State} (h : MembersStay s t) (g : MembersStay t u) : MembersStay s u :=
  ⟨fun hf => (g.table hf).trans (h.table hf), h.events.trans g.events⟩

theorem MembersStay.of_in {B : List Bank} {s t : State} (h : RegsIn B s t) (hB : Bank.ring ∉ B) : MembersStay s t :=
  ⟨fun hf => h.rd_eq hf.ring hB, .of_in h (by decide) hB⟩

/-- A write below the member table, of no event bit. -/
theorem MembersStay.wr {s t : State} (h : MembersStay s t) (g : Fld) (v : Nat) (lo : g.lo < 32) (below : g.off < 24832)
    (other : g.key ≠ F.RING_EVT_evt.key) : MembersStay s (t.wr g v) :=
  h.trans ⟨fun hf => State.rd_wr_ne _ _ _ _ (Fld.key_ne_off lo hf.1 (by omega)), .wr_ne .rfl v other⟩

theorem MembersStay.ringEvt {s t : State} (h : MembersStay s t) (i : Nat) : MembersStay s (t.ringEvt i) :=
  h.trans ⟨fun hf => t.ringEvt_rd i hf.ring (by have := hf.2.1; simp only [F.RING_EVT_evt]; omega), t.ringEvt_stays i⟩

theorem MembersStay.ite {s t u : State} {c : Prop} [Decidable c] (h : MembersStay s t) (g : MembersStay s u) :
    MembersStay s (if c then t else u) := by
  split <;> assumption

theorem MembersStay.state {s t : State} (h : MembersStay s t) {p : Nat} (hp : p < 16) : t.memberState p = s.memberState p :=
  h.table (memberFields hp).1

/-- The condition of the ring, its members and its load as shown, without the event (R235). -/
def State.ringShown (s : State) (condition members load : Nat) (overload : Bool) : State :=
  (((s.wr F.RING_STATUS_ring condition).wr F.RING_STATUS_members members).wr F.RING_LOAD_total load).wrb
    F.RING_STATUS_overload overload

/-- The event of a condition of the ring that has changed (R235). -/
def State.ringTold (s : State) (now was : Nat) : State :=
  if now == was then s
  else if now == 2 then s.ringEvt 2
  else if now == 1 then s.ringEvt 3
  else if now == 3 then s.ringEvt 4
  else s

theorem State.ringRegs_eq (s : State) : ∃ condition members load overload,
    s.ringRegs = (s.ringShown condition members load overload).ringTold condition (s.rd F.RING_STATUS_ring) :=
  ⟨_, _, _, _, rfl⟩

theorem State.ringTold_cases (s : State) (now was : Nat) : s.ringTold now was = s ∨ ∃ i, s.ringTold now was = s.ringEvt i := by
  unfold State.ringTold
  split
  · exact .inl rfl
  · split
    · exact .inr ⟨2, rfl⟩
    · split
      · exact .inr ⟨3, rfl⟩
      · split
        · exact .inr ⟨4, rfl⟩
        · exact .inl rfl

theorem State.ringShown_members (s : State) (condition members load : Nat) (overload : Bool) :
    MembersStay s (s.ringShown condition members load overload) :=
  (((MembersStay.rfl.wr F.RING_STATUS_ring _ (by decide) (by decide) (by decide)).wr F.RING_STATUS_members _ (by decide)
    (by decide) (by decide)).wr F.RING_LOAD_total _ (by decide) (by decide) (by decide)).wr F.RING_STATUS_overload _ (by decide)
    (by decide) (by decide)

theorem State.ringRegs_members (s : State) : MembersStay s s.ringRegs := by
  obtain ⟨condition, members, load, overload, judged⟩ := s.ringRegs_eq
  rw [judged]
  obtain quiet | ⟨i, told⟩ := State.ringTold_cases (s.ringShown condition members load overload) condition (s.rd F.RING_STATUS_ring)
  · rw [quiet]
    exact s.ringShown_members ..
  · rw [told]
    exact (s.ringShown_members ..).ringEvt i

/-- Judging the ring leaves the clash of the own position as shown. -/
theorem State.ringRegs_clash (s : State) : s.ringRegs.rd F.RING_STATUS_clash = s.rd F.RING_STATUS_clash := by
  have shown (condition members load : Nat) (overload : Bool) :
      (s.ringShown condition members load overload).rd F.RING_STATUS_clash = s.rd F.RING_STATUS_clash := by
    rw [State.ringShown, State.rd_wrb_ne _ _ _ _ (by decide), State.rd_wr_ne _ _ _ _ (by decide),
      State.rd_wr_ne _ _ _ _ (by decide), State.rd_wr_ne _ _ _ _ (by decide)]
  obtain ⟨condition, members, load, overload, judged⟩ := s.ringRegs_eq
  rw [judged]
  obtain quiet | ⟨i, told⟩ := State.ringTold_cases (s.ringShown condition members load overload) condition (s.rd F.RING_STATUS_ring)
  · rw [quiet, shown]
  · rw [told, State.ringEvt_rd _ _ (by decide) (by decide), shown]

theorem State.ringRegs_ring (s : State) : s.ringRegs.ring = s.ring := s.ringRegs_keeps.parts .ring (by decide)

/-- A change of a member's state writes it in the member table alone, and shows its event. -/
theorem State.setMember_members (s : State) (p st : Nat) {evt : Nat} (he : evt < 10) :
    MembersStay (s.wr (F.RING_MEMBER_state p) st) (s.setMember p st evt) ∧
      bitOf ((s.setMember p st evt).rd F.RING_EVT_evt) evt = true := by
  have told := State.ringEvt_bit (s.wr (F.RING_MEMBER_state p) st) he
  have kept := MembersStay.rfl.ringEvt (s := s.wr (F.RING_MEMBER_state p) st) evt
  have began (t : State) : MembersStay t (t.ringEvt 10).recalibrate :=
    (MembersStay.rfl.ringEvt 10).trans (.of_in (State.recalibrate_in _) (by decide))
  unfold State.setMember
  simp only
  split
  · exact ⟨kept.trans (began _), (began _).events evt he told⟩
  · exact ⟨kept, told⟩

theorem State.memberState_wr_same (s : State) (p : Nat) {st : Nat} (hs : st < 4) :
    (s.wr (F.RING_MEMBER_state p) st).memberState p = st :=
  (State.rd_wr_same _ _ _).trans (Nat.mod_eq_of_lt hs)

theorem State.memberState_wr_ne (s : State) {p q : Nat} (st : Nat) (h : q ≠ p) :
    (s.wr (F.RING_MEMBER_state p) st).memberState q = s.memberState q :=
  State.rd_wr_ne _ _ _ _ (by simp only [Fld.key, F.RING_MEMBER_state]; omega)

/-! Frames that go out and are forwarded (R224). -/

theorem Forwarded.of_sent {s t u : State} {east : Bool} {b : Bytes} (h : Forwarded s t east b) (sent : t.out <+: u.out) :
    Forwarded s u east b := fun few up => sent.subset (h few up)

/-- What a port sends is what it sends while its link is up. -/
theorem State.ringOut_sends (s : State) (east : Bool) (b : Bytes) :
    ∃ out, s.ringOut east b = { s with out := out } ∧ s.out <+: out ∧
      (s.rd F.RING_STATUS_bypass = 0 → s.ringUp east = true → Out.ring east b ∈ out) := by
  unfold State.ringOut
  split
  · next idle => exact ⟨s.out, rfl, List.prefix_rfl, fun joined up => absurd idle (by simp [State.bypassed, State.on, joined, up])⟩
  · exact ⟨s.out ++ [.ring east b], rfl, List.prefix_append _ _, fun _ _ => by simp⟩

/-- The state in which a frame of a type has been sent: the next alive count of its type, and what went out. -/
def State.sentRing (s : State) (type : Nat) (out : List Out) : State :=
  { s with out := out, ring := { s.ring with
      txAlive := SMap.set s.ring.txAlive type 0 ((SMap.getD s.ring.txAlive type 0 + 1) % 65536) } }

/-- A frame that is sent goes out of every port that is up. -/
theorem State.sendRing_sends (s : State) (type flags part parts instant period : Nat) (payload : Bytes) :
    ∃ out, s.sendRing type flags part parts instant period payload = s.sentRing type out ∧
      (s.rd F.RING_STATUS_bypass = 0 → ∀ e, s.ringUp e = true → Out.ring e (ringFrame type s.position flags
        (SMap.getD s.ring.txAlive type 0) part parts instant period payload) ∈ out) := by
  obtain ⟨first, east, -, eastSent⟩ := (s.sentRing type s.out).ringOut_sends true
    (ringFrame type s.position flags (SMap.getD s.ring.txAlive type 0) part parts instant period payload)
  obtain ⟨out, west, kept, westSent⟩ := State.ringOut_sends (s.sentRing type first) false
    (ringFrame type s.position flags (SMap.getD s.ring.txAlive type 0) part parts instant period payload)
  refine ⟨out, (congrArg (State.ringOut · false _) east).trans west, fun joined e up => ?_⟩
  cases e
  · exact westSent joined up
  · exact kept.subset (eastSent joined up)

/-- A frame whose seal is good changes only what goes out, and one of another position is forwarded. -/
theorem State.ringForward_sends (s : State) (east : Bool) {b : Bytes} (good : ringSealOk b = true) :
    ∃ out, s.ringForward east false b = { s with out := out } ∧
      (s.rd F.RING_STATUS_bypass = 0 → byteAt b 1 % 16 ≠ s.position → Forwarded s { s with out := out } east b) := by
  unfold State.ringForward
  simp only [good]
  split
  · next stays =>
    refine ⟨s.out, rfl, fun joined other few => absurd stays ?_⟩
    have passes : ¬15 ≤ byteAt b 10 + 1 := Nat.not_le.2 few
    simp [State.bypassed, State.on, joined, other, passes]
  · obtain ⟨out, sent, -, there⟩ := s.ringOut_sends (!east) (setByte b 10 (byteAt b 10 + 1))
    exact ⟨out, sent, fun joined _ _ up => there joined up⟩

/-- The state in which a frame has been taken: its alive count kept, and what went out. -/
def State.tookRing (s : State) (b : Bytes) (out : List Out) : State :=
  { s with out := out, ring := { s.ring with
      rxAlive := aliveAccept s.ring.rxAlive (skKey (byteAt b 0) (byteAt b 1)) s.time.ticks (beAt b 6 2) } }

/-- A whole frame that is no repeat is taken, and one of another position is forwarded (R81, R223, R224). -/
theorem State.ringTake_takes {s : State} {east : Bool} {b : Bytes} (on : s.pd .ringply = true) (up : s.ringUp east = true)
    (good : ringSealOk b = true) (long : 36 ≤ b.length) (type : ringType (byteAt b 0) = true) (whole : ringLenOk b = true)
    (fresh : aliveClass s.ring.rxAlive (skKey (byteAt b 0) (byteAt b 1)) s.time.ticks (beAt b 6 2) ≠ .repeated) :
    ∃ out, s.ringTake east false b = (s.tookRing b out, some false) ∧
      (s.rd F.RING_STATUS_bypass = 0 → byteAt b 1 % 16 ≠ s.position → Forwarded s (s.tookRing b out) east b) := by
  obtain ⟨out, forward, forwarded⟩ := s.ringForward_sends east good
  refine ⟨out, ?_, forwarded⟩
  unfold State.ringTake
  simp only [on, up, forward, good, type, whole, Nat.not_lt.2 long, Bool.not_true, Bool.and_false, Bool.or_false,
    Bool.false_eq_true, if_false]
  rfl

theorem RingTaken.takes {s : State} {east : Bool} {type : Nat} {b : Bytes} (h : RingTaken s east type b)
    (known : ringType type = true) :
    ∃ out, s.ringTake east false b = (s.tookRing b out, some false) ∧ Forwarded s (s.tookRing b out) east b := by
  obtain ⟨⟨on, joined, up⟩, ⟨good, long⟩, ⟨rfl, whole⟩, other, fresh⟩ := h
  obtain ⟨out, taken, forwarded⟩ := State.ringTake_takes on up good long known whole fresh
  exact ⟨out, taken, forwarded joined other⟩

end Sys2Proof.Machine

/-! PROOFS. The members of the board ring: what a BEACON shows of its sender, which members come, go and clash, and the
module's own BEACON. -/

namespace Sys2Proof.Machine

/-! A BEACON that arrives (R224, R225). -/

/-- The content of a BEACON frame. -/
def beaconBody (frame : Bytes) : Bytes := (frame.drop 32).take 32

/-- The epoch of a BEACON of the partner is heard (R279). -/
def State.heardBeacon (s : State) (p : Nat) (frame : Bytes) : State :=
  if p == s.partnerPos then s.hearEpoch (beAt frame 2 4 % 2 ^ 28) else s

/-- The paths by which the BEACON before came, of a member that is UP. -/
def State.lastPaths (s : State) (p : Nat) : Nat :=
  if s.memberState p == 1 then s.rd (F.RING_MEMBER_via_e p) + 2 * s.rd (F.RING_MEMBER_via_w p) else 3

/-- A BEACON's content is kept and shown, and the way it came. -/
def State.notedBeacon (s : State) (east : Bool) (p : Nat) (frame : Bytes) : State :=
  ((s.noteBeacon p (beaconBody frame) (s.lastPaths p)).wrb (F.RING_MEMBER_via_e p) east).wrb (F.RING_MEMBER_via_w p) (!east)

/-- The state of a position after a BEACON that clashes with its identity or does not, judged by its state before. -/
def State.judgedBeacon (s : State) (p st : Nat) (clash : Bool) : State :=
  (if clash then s.setMember p 3 7 else if st == 1 || st == 3 then s else s.setMember p 1 5).ringRegs

/-- Does a BEACON carry another identity than the member that is UP at its position? -/
def State.clashes (s : State) (p : Nat) (frame : Bytes) : Bool :=
  s.memberState p == 1 && beAt (beaconBody frame) 0 8 != (s.member p).ident

theorem State.clashes_iff {s : State} {p : Nat} {frame : Bytes} :
    s.clashes p frame = true ↔ s.memberState p = 1 ∧ beAt (beaconBody frame) 0 8 ≠ (s.member p).ident := by
  simp [State.clashes]

/-- A BEACON that has been taken, whose identity is not a foreign one at the own position. -/
theorem exec_beaconReceived {s u : State} {east : Bool} {frame : Bytes}
    (taken : s.ringTake east false frame = (u, some false)) (type : byteAt frame 0 = 0x12)
    (native : byteAt frame 1 % 16 = u.position → beAt (beaconBody frame) 0 8 = Config.moduleIdent.toNat) :
    let p := byteAt frame 1 % 16
    let v := u.heardBeacon p frame
    exec (.beaconReceived east false frame) s =
      .next ((v.notedBeacon east p frame).judgedBeacon p (v.memberState p) (v.clashes p frame)) := by
  have here : (byteAt frame 1 % 16 == u.position && beAt ((frame.drop 32).take 32) 0 8 != Config.moduleIdent.toNat) = false := by
    by_cases own : byteAt frame 1 % 16 = u.position
    · have same : beAt ((frame.drop 32).take 32) 0 8 = Config.moduleIdent.toNat := native own
      simp [same]
    · simp [own]
  change execBeaconReceived east false frame s = _
  unfold execBeaconReceived
  simp only [taken, type, here]
  rfl

theorem State.heardBeacon_in (s : State) (p : Nat) (frame : Bytes) : RegsIn [.ply] s (s.heardBeacon p frame) :=
  .ite (fun _ => s.hearEpoch_in _) (fun _ => .rfl)

theorem State.heardBeacon_ring (s : State) (p : Nat) (frame : Bytes) : (s.heardBeacon p frame).ring = s.ring := by
  unfold State.heardBeacon
  split
  · exact (s.hearEpoch_keeps _).parts .ring (by decide)
  · rfl

/-- The sender's row of the member table, but for its state, shows the BEACON. -/
theorem State.notedBeacon_shows (s : State) (east : Bool) (p : Nat) (frame : Bytes) :
    let t := s.notedBeacon east p frame
    (t.member p).ident = beAt (beaconBody frame) 0 8 ∧ (t.member p).hears = beAt (beaconBody frame) 10 2 ∧
      t.rd (F.RING_MEMBER_role p) = byteAt (beaconBody frame) 8 % 4 ∧
      t.rd (F.RING_MEMBER_load p) = beAt (beaconBody frame) 12 2 ∧
      t.rd (F.RING_MEMBER_via_e p) = bit east ∧ t.rd (F.RING_MEMBER_via_w p) = bit (!east) := by
  have kept : (s.notedBeacon east p frame).member p = _ := SMap.getD_put_same _ _ _ _
  refine ⟨by rw [kept], by rw [kept], ?_, ?_, ?_, ?_⟩
  · refine (State.rd_wrb_ne _ _ _ _ ?_).trans ((State.rd_wrb_ne _ _ _ _ ?_).trans ((State.rd_wr_ne _ _ _ _ ?_).trans
      ((State.rd_wr_same _ _ _).trans (Nat.mod_mod _ _)))) <;>
      simp [Fld.key, F.RING_MEMBER_role, F.RING_MEMBER_load, F.RING_MEMBER_via_e, F.RING_MEMBER_via_w]
  · refine (State.rd_wrb_ne _ _ _ _ ?_).trans ((State.rd_wrb_ne _ _ _ _ ?_).trans
      ((State.rd_wr_same _ _ _).trans (Nat.mod_eq_of_lt (beAt_lt _ 12 2)))) <;>
      simp [Fld.key, F.RING_MEMBER_load, F.RING_MEMBER_via_e, F.RING_MEMBER_via_w]
  · refine (State.rd_wrb_ne _ _ _ _ ?_).trans (State.rd_wrb_same _ _ Nat.one_pos)
    simp [Fld.key, F.RING_MEMBER_via_e, F.RING_MEMBER_via_w]
  · exact State.rd_wrb_same _ _ Nat.one_pos

theorem State.notedBeacon_states (s : State) (east : Bool) (p : Nat) (frame : Bytes) (q : Nat) :
    (s.notedBeacon east p frame).memberState q = s.memberState q := by
  refine (State.rd_wrb_ne _ _ _ _ ?_).trans ((State.rd_wrb_ne _ _ _ _ ?_).trans ((State.rd_wr_ne _ _ _ _ ?_).trans
    (State.rd_wr_ne _ _ _ _ ?_))) <;>
    (simp only [Fld.key, F.RING_MEMBER_state, F.RING_MEMBER_role, F.RING_MEMBER_load, F.RING_MEMBER_via_e, F.RING_MEMBER_via_w]
     omega)

theorem State.notedBeacon_other (s : State) (east : Bool) (p : Nat) (frame : Bytes) {q : Nat} (h : q ≠ p) :
    (s.notedBeacon east p frame).member q = s.member q :=
  SMap.getD_put_ne _ _ _ h.symm

theorem State.notedBeacon_ownClash (s : State) (east : Bool) (p : Nat) (frame : Bytes) :
    (s.notedBeacon east p frame).ring.ownClash = s.ring.ownClash := rfl

theorem State.judgedBeacon_ring (s : State) (p st : Nat) (clash : Bool) : (s.judgedBeacon p st clash).ring = s.ring := by
  unfold State.judgedBeacon
  rw [State.ringRegs_ring]
  split
  · exact (s.setMember_keeps p 3 7).parts .ring (by decide)
  · split
    · rfl
    · exact (s.setMember_keeps p 1 5).parts .ring (by decide)

/-- The state that a position takes at a BEACON: CLASH, its own where it is UP or in CLASH already, else UP. -/
def stateAfterBeacon (st : Nat) (clash : Bool) : Nat := if clash then 3 else if st == 1 || st == 3 then st else 1

/-- A position judged by a BEACON takes its state with the event, and nothing else of the member table changes. -/
theorem State.judgedBeacon_shows (s : State) {p st : Nat} (hp : p < 16) (clash : Bool) (was : s.memberState p = st) :
    let t := s.judgedBeacon p st clash
    t.memberState p = stateAfterBeacon st clash ∧
      (∀ f : Fld, f.OfMember → (F.RING_MEMBER_state p).key ≠ f.key → t.rd f = s.rd f) ∧
      (clash = true → bitOf (t.rd F.RING_EVT_evt) 7 = true) ∧
      (clash = false → st ≠ 1 → st ≠ 3 → bitOf (t.rd F.RING_EVT_evt) 5 = true) := by
  have moved {next evt : Nat} (hn : next < 4) (he : evt < 10) :
      (s.setMember p next evt).ringRegs.memberState p = next ∧
        (∀ f : Fld, f.OfMember → (F.RING_MEMBER_state p).key ≠ f.key → (s.setMember p next evt).ringRegs.rd f = s.rd f) ∧
        bitOf ((s.setMember p next evt).ringRegs.rd F.RING_EVT_evt) evt = true := by
    obtain ⟨written, told⟩ := s.setMember_members p next he
    have judged := (s.setMember p next evt).ringRegs_members
    exact ⟨((written.trans judged).state hp).trans (s.memberState_wr_same p hn),
      fun f hf other => ((written.trans judged).table hf).trans (State.rd_wr_ne _ _ _ _ other), judged.events evt he told⟩
  unfold State.judgedBeacon stateAfterBeacon
  cases clash with
  | true =>
    obtain ⟨state, table, event⟩ := moved (next := 3) (evt := 7) (by decide) (by decide)
    exact ⟨state, table, fun _ => event, fun h => nomatch h⟩
  | false =>
    by_cases known : st = 1 ∨ st = 3
    · have stays : (st == 1 || st == 3) = true := by simpa using known
      simp only [stays, Bool.false_eq_true, if_false, if_true]
      have judged := s.ringRegs_members
      exact ⟨(judged.state hp).trans was, fun f hf _ => judged.table hf, fun h => h.elim,
        fun _ not1 not3 => absurd known (not_or.2 ⟨not1, not3⟩)⟩
    · have comes : (st == 1 || st == 3) = false := by simpa using known
      obtain ⟨state, table, event⟩ := moved (next := 1) (evt := 5) (by decide) (by decide)
      simp only [comes, Bool.false_eq_true, if_false]
      exact ⟨state, table, fun h => h.elim, fun _ _ _ => event⟩

/-- What a BEACON that has been taken leaves, by the state in which it was taken. -/
structure BeaconShown (u t : State) (east : Bool) (p : Nat) (frame : Bytes) : Prop where
  ident : (t.member p).ident = beAt (beaconBody frame) 0 8
  hears : (t.member p).hears = beAt (beaconBody frame) 10 2
  role : t.rd (F.RING_MEMBER_role p) = byteAt (beaconBody frame) 8 % 4
  load : t.rd (F.RING_MEMBER_load p) = beAt (beaconBody frame) 12 2
  viaE : t.rd (F.RING_MEMBER_via_e p) = bit east
  viaW : t.rd (F.RING_MEMBER_via_w p) = bit (!east)
  state : t.memberState p = stateAfterBeacon (u.memberState p) (u.clashes p frame)
  clash : u.clashes p frame = true → bitOf (t.rd F.RING_EVT_evt) 7 = true
  comes : u.clashes p frame = false → u.memberState p ≠ 1 → u.memberState p ≠ 3 → bitOf (t.rd F.RING_EVT_evt) 5 = true
  others : ∀ q, q < 16 → q ≠ p → t.memberState q = u.memberState q ∧ t.member q = u.member q
  ownClash : t.ring.ownClash = u.ring.ownClash

theorem State.beacon_shown (u : State) (east : Bool) {p : Nat} (hp : p < 16) (frame : Bytes) :
    let v := u.heardBeacon p frame
    BeaconShown u ((v.notedBeacon east p frame).judgedBeacon p (v.memberState p) (v.clashes p frame)) east p frame := by
  intro v
  obtain ⟨-, ofRole, ofLoad, ofE, ofW⟩ := memberFields hp
  have heard : MembersStay u v := .of_in (u.heardBeacon_in p frame) (by decide)
  have member (q : Nat) : v.member q = u.member q := by rw [State.member, State.heardBeacon_ring, ← State.member]
  have state : v.memberState p = u.memberState p := heard.state hp
  have clashes : v.clashes p frame = u.clashes p frame := by rw [State.clashes, State.clashes, state, member]
  obtain ⟨ident, hears, role, load, viaE, viaW⟩ := v.notedBeacon_shows east p frame
  obtain ⟨now, table, clash, comes⟩ := (v.notedBeacon east p frame).judgedBeacon_shows hp (v.clashes p frame)
    (v.notedBeacon_states east p frame p)
  have ring := (v.notedBeacon east p frame).judgedBeacon_ring p (v.memberState p) (v.clashes p frame)
  rw [state, clashes] at now table clash comes ring ⊢
  generalize (v.notedBeacon east p frame).judgedBeacon p (u.memberState p) (u.clashes p frame) = t at *
  have row (q : Nat) : t.member q = (v.notedBeacon east p frame).member q := by rw [State.member, ring, ← State.member]
  constructor
  case ident => rw [row, ident]
  case hears => rw [row, hears]
  case role => exact (table _ ofRole (by simp [Fld.key, F.RING_MEMBER_state, F.RING_MEMBER_role])).trans role
  case load => exact (table _ ofLoad (by simp [Fld.key, F.RING_MEMBER_state, F.RING_MEMBER_load])).trans load
  case viaE => exact (table _ ofE (by simp [Fld.key, F.RING_MEMBER_state, F.RING_MEMBER_via_e])).trans viaE
  case viaW => exact (table _ ofW (by simp [Fld.key, F.RING_MEMBER_state, F.RING_MEMBER_via_w])).trans viaW
  case state => exact now
  case clash => exact clash
  case comes => exact comes
  case others =>
    intro q hq other
    have stays := table _ (memberFields hq).1 (by simp only [Fld.key, F.RING_MEMBER_state]; omega)
    exact ⟨stays.trans ((v.notedBeacon_states east p frame q).trans (heard.state hq)),
      (row q).trans ((v.notedBeacon_other east p frame other).trans (member q))⟩
  case ownClash => rw [ring, State.notedBeacon_ownClash, State.heardBeacon_ring]

/-- A member that was not there, or SILENT, comes UP. -/
theorem BeaconShown.comes_up {u t : State} {east : Bool} {p : Nat} {frame : Bytes} (h : BeaconShown u t east p frame)
    (gone : u.memberState p = 0 ∨ u.memberState p = 2) :
    t.memberState p = 1 ∧ bitOf (t.rd F.RING_EVT_evt) 5 = true := by
  have up : u.memberState p ≠ 1 := by omega
  have clash : u.memberState p ≠ 3 := by omega
  have alone : u.clashes p frame = false := Bool.eq_false_iff.2 fun c => up (State.clashes_iff.1 c).1
  exact ⟨by simp [h.state, alone, stateAfterBeacon, up, clash], h.comes alone up clash⟩

/-- What was sent before a BEACON is noted and judged stays sent. -/
theorem State.beacon_sent (u : State) (east : Bool) (p st : Nat) (clash : Bool) (frame : Bytes) :
    u.out <+: (((u.heardBeacon p frame).notedBeacon east p frame).judgedBeacon p st clash).out := by
  have heard : u.out <+: (u.heardBeacon p frame).out := by
    unfold State.heardBeacon
    split
    · exact (u.hearEpoch_keeps _).sent
    · exact List.prefix_rfl
  have noted : u.out <+: ((u.heardBeacon p frame).notedBeacon east p frame).out := heard
  refine (noted.trans ?_).trans (State.ringRegs_keeps _).sent
  split
  · exact (State.setMember_keeps _ p 3 7).sent
  · split
    · exact List.prefix_rfl
    · exact (State.setMember_keeps _ p 1 5).sent

/-- A BEACON that arrives and is taken completes, leaves the image, and shows what it tells. -/
theorem beaconReceived_shows {s u : State} {east : Bool} {frame : Bytes}
    (taken : s.ringTake east false frame = (u, some false)) (type : byteAt frame 0 = 0x12)
    (native : byteAt frame 1 % 16 = u.position → beAt (beaconBody frame) 0 8 = Config.moduleIdent.toNat) :
    Does (.beaconReceived east false frame) s (fun t =>
      BeaconShown u t east (byteAt frame 1 % 16) frame ∧ u.out <+: t.out ∧ t.image = s.image) := by
  have run := exec_beaconReceived taken type native
  have image := ((execBeaconReceived_keeps east false frame s).of_next run).parts .image (by decide)
  have small : byteAt frame 1 % 16 < 16 := Nat.mod_lt _ (by decide)
  exact ⟨_, run, u.beacon_shown east small frame, u.beacon_sent .., image⟩

theorem beaconReceived_other {s : State} {east : Bool} {frame : Bytes} (taken : RingTaken s east 0x12 frame) :
    let p := byteAt frame 1 % 16
    let body := (frame.drop 32).take 32
    Does (.beaconReceived east false frame) s (fun t =>
      Forwarded s t east frame ∧ (t.member p).ident = beAt body 0 8 ∧ (t.member p).hears = beAt body 10 2 ∧
        t.rd (F.RING_MEMBER_role p) = byteAt body 8 % 4 ∧ t.rd (F.RING_MEMBER_load p) = beAt body 12 2 ∧
        t.rd (F.RING_MEMBER_via_e p) = bit east ∧ t.rd (F.RING_MEMBER_via_w p) = bit (!east) ∧ t.image = s.image ∧
        (s.memberState p = 0 ∨ s.memberState p = 2 → t.memberState p = 1 ∧ bitOf (t.rd F.RING_EVT_evt) 5 = true) ∧
        (s.memberState p = 1 → beAt body 0 8 = (s.member p).ident → t.memberState p = 1) ∧
        (s.memberState p = 1 → beAt body 0 8 ≠ (s.member p).ident →
          t.memberState p = 3 ∧ bitOf (t.rd F.RING_EVT_evt) 7 = true) ∧
        (s.memberState p = 3 → t.memberState p = 3) ∧
        ∀ q, q < 16 → q ≠ p → t.memberState q = s.memberState q ∧ t.member q = s.member q) := by
  intro p body
  obtain ⟨out, took, forwarded⟩ := taken.takes (by decide)
  obtain ⟨t, run, shown, sent, image⟩ := beaconReceived_shows took taken.type.1 (fun own => absurd own taken.other)
  have state : t.memberState p = stateAfterBeacon (s.memberState p) (s.clashes p frame) := shown.state
  refine ⟨t, run, forwarded.of_sent sent, shown.ident, shown.hears, shown.role, shown.load, shown.viaE, shown.viaW, image,
    shown.comes_up, fun up same => ?_, fun up differs => ?_, fun was => ?_, shown.others⟩
  · have alone : s.clashes p frame = false := Bool.eq_false_iff.2 fun c => (State.clashes_iff.1 c).2 same
    rw [state, alone, up]
    rfl
  · have clash : s.clashes p frame = true := State.clashes_iff.2 ⟨up, differs⟩
    refine ⟨?_, shown.clash clash⟩
    rw [state, clash]
    rfl
  · have alone : s.clashes p frame = false := by simp [State.clashes, was]
    rw [state, alone, was]
    rfl

theorem beaconReceived_own {s : State} {east : Bool} {frame : Bytes} (on : s.pd .ringply = true) (up : s.ringUp east = true)
    (good : ringSealOk frame = true) (long : 36 ≤ frame.length) (type : byteAt frame 0 = 0x12) (whole : ringLenOk frame = true)
    (own : byteAt frame 1 % 16 = s.position)
    (fresh : aliveClass s.ring.rxAlive (skKey 0x12 (byteAt frame 1)) s.time.ticks (beAt frame 6 2) ≠ .repeated)
    (ident : beAt ((frame.drop 32).take 32) 0 8 = Config.moduleIdent.toNat) (gone : s.memberState s.position ∈ [0, 2]) :
    Does (.beaconReceived east false frame) s (fun t =>
      t.memberState s.position = 1 ∧ bitOf (t.rd F.RING_EVT_evt) 5 = true ∧
        t.rd (F.RING_MEMBER_via_e s.position) = bit east ∧ t.ring.ownClash = s.ring.ownClash ∧ t.image = s.image) := by
  obtain ⟨out, took, -⟩ := State.ringTake_takes on up good long (by rw [type]; rfl) whole (by rwa [type])
  obtain ⟨t, run, shown, -, image⟩ := beaconReceived_shows took type (fun _ => ident)
  rw [own] at shown
  have gone : s.memberState s.position = 0 ∨ s.memberState s.position = 2 := by simpa using gone
  obtain ⟨state, event⟩ := shown.comes_up gone
  exact ⟨t, run, state, event, shown.viaE, shown.ownClash, image⟩

/-! Members that fall silent and clashes that clear (R225). -/

/-- No other identity claims the own position any more. -/
def State.unclaimed (s : State) : State :=
  { s.wr F.RING_STATUS_clash 0 with ring := { s.ring with ownClash := false } }

theorem State.unclaimed_rd (s : State) (f : Fld) : s.unclaimed.rd f = (s.wr F.RING_STATUS_clash 0).rd f := rfl

theorem State.ownClaim_eq (s : State) (p : Nat) (held : Bool) : s.ownClaim p held =
    if p != s.position || (held && (s.member p).ident != Config.moduleIdent.toNat) then s else s.unclaimed := rfl

/-- Whether the own position is still claimed is no matter of the member table. -/
theorem State.ownClaim_members (s : State) (p : Nat) (held : Bool) : MembersStay s (s.ownClaim p held) := by
  have cleared : MembersStay s (s.wr F.RING_STATUS_clash 0) := .wr .rfl _ _ (by decide) (by decide) (by decide)
  rw [State.ownClaim_eq]
  exact .ite .rfl (cleared.trans (.of_in (B := []) (.of_regs rfl) (by decide)))

theorem memberSilent_does {s : State} {pos : Fin 16} (up : s.memberState pos.val = 1) :
    Does (.memberSilent pos) s (fun t => t.memberState pos.val = 2 ∧ bitOf (t.rd F.RING_EVT_evt) 6 = true) := by
  have run : exec (.memberSilent pos) s = .next (((s.setMember pos.val 2 6).ownClaim pos.val false).ringRegs.judgePartner) :=
    if_neg (by simp [up])
  obtain ⟨written, told⟩ := s.setMember_members pos.val 2 (evt := 6) (by decide)
  have after : MembersStay (s.setMember pos.val 2 6) ((s.setMember pos.val 2 6).ownClaim pos.val false).ringRegs.judgePartner :=
    ((State.ownClaim_members _ _ _).trans (State.ringRegs_members _)).trans (.of_in (State.judgePartner_in _) (by decide))
  exact ⟨_, run, ((written.trans after).state pos.isLt).trans (s.memberState_wr_same _ (by decide)),
    after.events 6 (by decide) told⟩

/-- A clash of the own position that has cleared leaves no other identity there. -/
theorem State.ownClaim_cleared {s : State} {p : Nat} (own : p = s.position)
    (ident : (s.member p).ident = Config.moduleIdent.toNat) :
    (s.ownClaim p true).rd F.RING_STATUS_clash = 0 ∧ (s.ownClaim p true).ring.ownClash = false := by
  rw [State.ownClaim_eq, if_neg (by simp [own, ← ident]), State.unclaimed_rd, State.rd_wr_same]
  exact ⟨rfl, rfl⟩

theorem clashCleared_does {s : State} {pos : Fin 16} (clash : s.memberState pos.val = 3) :
    Does (.clashCleared pos) s (fun t => t.memberState pos.val = 1 ∧
      (pos.val = s.position → (s.member pos.val).ident = Config.moduleIdent.toNat →
        t.rd F.RING_STATUS_clash = 0 ∧ t.ring.ownClash = false)) := by
  have run : exec (.clashCleared pos) s =
      .next ((s.wr (F.RING_MEMBER_state pos.val) 1).ownClaim pos.val true).ringRegs := if_neg (by simp [clash])
  have after := (State.ownClaim_members (s.wr (F.RING_MEMBER_state pos.val) 1) pos.val true).trans (State.ringRegs_members _)
  have place : (s.wr (F.RING_MEMBER_state pos.val) 1).position = s.position :=
    State.rd_wr_ne _ _ _ _ (by simp only [Fld.key, F.RING_MEMBER_state, F.RING_POSITION_position]; omega)
  refine ⟨_, run, (after.state pos.isLt).trans (s.memberState_wr_same _ (by decide)), fun own ident => ?_⟩
  rw [State.ringRegs_clash, State.ringRegs_ring]
  exact State.ownClaim_cleared (own.trans place.symm) ident

/-! The module's own BEACON (R225). -/

/-- The role that a BEACON gives, by the ply state. -/
def State.beaconRole (s : State) : Nat :=
  if s.plyState = 1 then 0 else if s.plyState = 2 then 1 else if s.plyState = 4 then 2 else 3

/-- The content of the module's BEACON. -/
def State.ownBeacon (s : State) : Bytes :=
  beBytes 8 Config.moduleIdent.toNat ++ beBytes 1 s.beaconRole ++ beBytes 1 (s.rd F.PWR_STATUS_rung) ++
    beBytes 2 (s.upMembers.foldl (fun a p => setBit a p true) 0) ++ beBytes 2 (s.rd F.RING_LOAD_own) ++ List.replicate 18 0

theorem exec_beaconSend {s : State} (on : s.pd .ringply = true) (joined : s.rd F.RING_STATUS_bypass = 0) :
    exec .beaconSend s = .next (s.sendRing 0x12 (s.ringFlags s.isStandby s.isActive) 0 0 s.time.work 0 s.ownBeacon) := by
  have role : (if s.plyState == 1 then 0 else if s.plyState == 2 then 1 else if s.plyState == 4 then 2 else 3) = s.beaconRole := by
    simp only [State.beaconRole, beq_iff_eq]
  refine (if_neg (by simp [on, State.bypassed, State.on, joined])).trans ?_
  rw [State.ownBeacon, ← role]
  rfl

theorem State.ownBeacon_fields (s : State) : s.ownBeacon.length = 32 ∧
    s.ownBeacon.take 8 = beBytes 8 Config.moduleIdent.toNat ∧ byteAt s.ownBeacon 8 = s.beaconRole ∧
    beAt s.ownBeacon 12 2 = s.rd F.RING_LOAD_own % 2 ^ 16 := by
  have role : s.beaconRole < 256 := by
    unfold State.beaconRole
    split_ifs <;> decide
  have load : beAt s.ownBeacon 12 2 = beNat (beBytes 2 (s.rd F.RING_LOAD_own)) := rfl
  have byte : byteAt s.ownBeacon 8 = s.beaconRole % 256 := rfl
  refine ⟨by simp [State.ownBeacon, beBytes_length], rfl, by rw [byte, Nat.mod_eq_of_lt role], ?_⟩
  rw [load, beNat_beBytes]
  norm_num

theorem beaconSend_does {s : State} (on : s.pd .ringply = true) (joined : s.rd F.RING_STATUS_bypass = 0) :
    Does .beaconSend s (fun t => t.regs = s.regs ∧ t.image = s.image ∧
      ∃ body : Bytes, body.length = 32 ∧ body.take 8 = beBytes 8 Config.moduleIdent.toNat ∧
        byteAt body 8 = s.beaconRole ∧ beAt body 12 2 = s.rd F.RING_LOAD_own % 2 ^ 16 ∧
        ∀ e, s.ringUp e = true → Out.ring e (ringFrame 0x12 s.position (s.ringFlags s.isStandby s.isActive)
          (SMap.getD s.ring.txAlive 0x12 0) 0 0 s.time.work 0 body) ∈ t.out) := by
  obtain ⟨out, sent, there⟩ := s.sendRing_sends 0x12 (s.ringFlags s.isStandby s.isActive) 0 0 s.time.work 0 s.ownBeacon
  obtain ⟨length, ident, role, load⟩ := s.ownBeacon_fields
  exact ⟨_, (exec_beaconSend on joined).trans (congrArg _ sent), rfl, rfl, s.ownBeacon, length, ident, role, load, there joined⟩

theorem ringMembersHeard : RingMembersHeard := fun _ _ =>
  ⟨fun _ => beaconReceived_other, fun _ => beaconReceived_own, fun _ => ⟨memberSilent_does, clashCleared_does⟩,
    fun on joined _ => beaconSend_does on joined⟩

end Sys2Proof.Machine

/-! PROOFS. The ports of the board ring, its bypass, and publications: how ports train and fail, what is held of a publication
that arrives, and when a composed one goes out. -/

namespace Sys2Proof.Machine

/-! The state of the calibration (R250) at what else is written of the time engine. -/

theorem State.timeEvt_cal (s : State) (i : Nat) : (s.timeEvt i).rd F.TIME_STATUS_cal = s.rd F.TIME_STATUS_cal := by
  have apart : (timeEvtFld i).1.key ≠ F.TIME_STATUS_cal.key := by
    have place : (timeEvtFld i).1.off = 0x500C ∧ (timeEvtFld i).1.lo < 32 := by
      unfold timeEvtFld
      split <;> exact ⟨rfl, of_decide_eq_true rfl⟩
    refine Fld.key_ne_off place.2 (by decide) ?_
    rw [place.1]
    decide
  have source : timeEvtSource i < 128 := by
    unfold timeEvtSource
    split_ifs <;> decide
  exact (State.raisedIf_rd _ _ source _ _ (c := .time) (by decide) (by decide)).trans (State.rd_wr_ne _ _ _ _ apart)

theorem State.workRegs_cal (s : State) : s.workRegs.rd F.TIME_STATUS_cal = s.rd F.TIME_STATUS_cal := by
  have told (v : Nat) (freed : Bool) : (if freed then (s.wr F.TIME_STATUS_work v).timeEvt 8
      else s.wr F.TIME_STATUS_work v).rd F.TIME_STATUS_cal = s.rd F.TIME_STATUS_cal := by
    have written := State.rd_wr_ne s F.TIME_STATUS_work F.TIME_STATUS_cal v (by decide)
    cases freed
    · exact written
    · exact (State.timeEvt_cal _ 8).trans written
  unfold State.workRegs
  split
  · rfl
  · exact told _ _

theorem State.wantCapture_cal (s : State) : s.wantCapture.rd F.TIME_STATUS_cal = s.rd F.TIME_STATUS_cal := by
  unfold State.wantCapture
  split
  · rfl
  · split
    · unfold State.captureO
      rw [(State.tellCapture_in _ _).rd_eq (b := .time) (by decide) (by decide), State.timeEvt_cal]
      exact State.rd_wrb_ne _ _ _ _ (by decide)
    · exact (State.sendOrder_in _ 4 _ 0 _).rd_eq (b := .time) (by decide) (by decide)

theorem State.setDomState_cal (s : State) (d : Domain) (st : Nat) :
    (s.setDomState d st).rd F.TIME_STATUS_cal = s.rd F.TIME_STATUS_cal := by
  have captured (t : State) (wanted : Bool) :
      (if wanted then t.wantCapture else t).rd F.TIME_STATUS_cal = t.rd F.TIME_STATUS_cal := by
    cases wanted
    · rfl
    · exact t.wantCapture_cal
  unfold State.setDomState
  simp only
  split
  · rfl
  · rw [(State.autoSwitch_in _).rd_eq (b := .time) (by decide) (by decide), captured, State.workRegs_cal, State.timeEvt_cal]
    refine State.rd_wr_ne _ _ _ _ ?_
    split <;> decide

theorem State.toHoldover_cal (s : State) (d : Domain) : (s.toHoldover d).rd F.TIME_STATUS_cal = s.rd F.TIME_STATUS_cal := by
  unfold State.toHoldover
  split
  · rw [State.setDomState_cal, (State.setDom_in _ _ _).rd_eq (b := .time) (by decide) (by decide)]
  · rfl

theorem State.setCal_cal (s : State) {st : Nat} (hs : st < 4) : (s.setCal st).rd F.TIME_STATUS_cal = st := by
  have written : (s.wr F.TIME_STATUS_cal st).rd F.TIME_STATUS_cal = st := (State.rd_wr_same _ _ _).trans (Nat.mod_eq_of_lt hs)
  unfold State.setCal
  simp only
  split
  · next was => exact beq_iff_eq.1 was
  · split
    · rw [State.timeEvt_cal, written]
    · split
      · rw [State.toHoldover_cal, State.toHoldover_cal, State.timeEvt_cal, written]
      · exact written

/-! The bypass and the links (R232 to R235). -/

/-- The state in which the bypass has been opened, before its events: both ports train. -/
def State.opened (s : State) : State :=
  { ((s.wr F.RING_STATUS_bypass 0).wr F.RING_STATUS_link_e 1).wr F.RING_STATUS_link_w 1 with
    ring := { s.ring with listening := false } }

theorem State.opened_rd (s : State) : s.opened.rd F.RING_STATUS_bypass = 0 ∧ s.opened.rd F.RING_STATUS_link_e = 1 ∧
    s.opened.rd F.RING_STATUS_link_w = 1 := by
  have read (f : Fld) : s.opened.rd f =
      (((s.wr F.RING_STATUS_bypass 0).wr F.RING_STATUS_link_e 1).wr F.RING_STATUS_link_w 1).rd f := rfl
  refine ⟨?_, ?_, ?_⟩
  · rw [read, State.rd_wr_ne _ _ _ _ (by decide), State.rd_wr_ne _ _ _ _ (by decide), State.rd_wr_same]
    rfl
  · rw [read, State.rd_wr_ne _ _ _ _ (by decide), State.rd_wr_same]
    rfl
  · rw [read, State.rd_wr_same]
    rfl

theorem bypassOpen_does {s : State} (closed : s.rd F.RING_STATUS_bypass = 1) (unwanted : s.bypassWanted = false)
    (alone : s.ring.ownClash = false) (timed : s.time.workSet = true) :
    Does .bypassOpen s (fun t => t.rd F.RING_STATUS_bypass = 0 ∧ t.rd F.RING_STATUS_link_e = 1 ∧
      t.rd F.RING_STATUS_link_w = 1 ∧ t.ring = { s.ring with listening := false } ∧ t.rd F.RING_EVT_topology = 1 ∧
      t.rd F.TIME_STATUS_cal = 1 ∧ t.image = s.image) := by
  have run : exec .bypassOpen s = .next ((s.opened.ringEvt 10).setCal 1) :=
    if_neg (by simp [State.bypassed, State.on, closed, unwanted, alone, timed])
  have read {f : Fld} (hf : f.In .ring) : ((s.opened.ringEvt 10).setCal 1).rd f = (s.opened.ringEvt 10).rd f :=
    (State.setCal_in _ 1).rd_eq hf (by decide)
  have status {f : Fld} (hf : f.In .ring) (other : f.off ≠ F.RING_EVT_evt.off) :
      ((s.opened.ringEvt 10).setCal 1).rd f = s.opened.rd f := (read hf).trans (s.opened.ringEvt_rd 10 hf other)
  have calibrated : ((s.opened.ringEvt 10).setCal 1).ring = (s.opened.ringEvt 10).ring :=
    (State.setCal_keeps _ 1).parts .ring (by decide)
  obtain ⟨bypass, east, west⟩ := s.opened_rd
  exact ⟨_, run, (status (by decide) (by decide)).trans bypass, (status (by decide) (by decide)).trans east,
    (status (by decide) (by decide)).trans west, calibrated.trans (s.opened.ringEvt_ring 10), (read (by decide)).trans s.opened.ringEvt_topology,
    State.setCal_cal _ (by decide), ((execBypassOpen_keeps s).of_next run).parts .image (by decide)⟩

/-- The register that shows a port's link. -/
def ringLink (east : Bool) : Fld := if east then F.RING_STATUS_link_e else F.RING_STATUS_link_w

theorem rd_ringLink (s : State) (east : Bool) : s.rd (ringLink east) =
    if east then s.rd F.RING_STATUS_link_e else s.rd F.RING_STATUS_link_w := by
  cases east <;> rfl

theorem ringLink_in (east : Bool) : (ringLink east).In .ring ∧ (ringLink east).off ≠ F.RING_EVT_evt.off ∧
    (ringLink east).width = 2 := by
  cases east <;> decide

/-- A port whose training has ended: UP, with new alive counts (R396, R397). -/
def State.portUp (s : State) (east : Bool) : State :=
  { s.wr (ringLink east) 2 with ring := { s.ring with rxAlive := [], txAlive := [] } }

/-- A port that trains again or is down: where it was up its marks are lost, with the event (R235). -/
def State.portLost (s : State) (east : Bool) (level : Nat) : State :=
  if s.rd (ringLink east) == 2 then ((s.wr (ringLink east) level).dropMarks east).ringEvt (if east then 0 else 1)
  else s.wr (ringLink east) level

theorem exec_ringLinkChange {s : State} (on : s.pd .ringply = true) (joined : s.rd F.RING_STATUS_bypass = 0) (east : Bool) :
    exec (.ringLinkChange east .up) s = .next (s.portUp east) ∧
      exec (.ringLinkChange east .training) s = .next (s.portLost east 1) ∧
      exec (.ringLinkChange east .down) s = .next (s.portLost east 0) := by
  have runs : ¬(!s.pd .ringply || s.bypassed) = true := by simp [on, State.bypassed, State.on, joined]
  exact ⟨if_neg runs, if_neg runs, if_neg runs⟩

theorem State.dropMarks_frame (s : State) (east : Bool) :
    (s.dropMarks east).regs = s.regs ∧ (s.dropMarks east).ring = s.ring ∧ (s.dropMarks east).image = s.image := by
  cases east <;> exact ⟨rfl, rfl, rfl⟩

/-- A port that loses its link shows it, and where it was up its event. -/
theorem State.portLost_shows (s : State) (east : Bool) {level : Nat} (hl : level < 4) :
    (s.portLost east level).rd (ringLink east) = level ∧ (s.portLost east level).ring = s.ring ∧
      (s.portLost east level).image = s.image ∧
      (s.rd (ringLink east) = 2 → bitOf ((s.portLost east level).rd F.RING_EVT_evt) (if east then 0 else 1) = true) := by
  obtain ⟨inRing, other, width⟩ := ringLink_in east
  have written : (s.wr (ringLink east) level).rd (ringLink east) = level := by
    rw [State.rd_wr_same, width]
    exact Nat.mod_eq_of_lt hl
  obtain ⟨regs, ring, image⟩ := (s.wr (ringLink east) level).dropMarks_frame east
  unfold State.portLost
  by_cases up : s.rd (ringLink east) = 2
  · rw [if_pos (beq_iff_eq.2 up)]
    refine ⟨?_, (State.ringEvt_ring _ _).trans ring, (State.ringEvt_image _ _).trans image,
      fun _ => State.ringEvt_bit _ (by cases east <;> decide)⟩
    exact (State.ringEvt_rd _ _ inRing other).trans ((congrArg (RegMap.get · (ringLink east)) regs).trans written)
  · rw [if_neg (fun h => up (beq_iff_eq.1 h))]
    exact ⟨written, rfl, rfl, fun h => absurd h up⟩

theorem State.portUp_shows (s : State) (east : Bool) : (s.portUp east).rd (ringLink east) = 2 ∧
    RegsIn [.ring] s (s.portUp east) := by
  obtain ⟨⟨lo, low, high⟩, -, width⟩ := ringLink_in east
  have written : (s.portUp east).rd (ringLink east) = 2 % 2 ^ (ringLink east).width := State.rd_wr_same _ _ _
  exact ⟨by rw [written, width]; rfl, RegsIn.rfl.wr (ringLink east) 2 .ring lo (by decide) low high⟩

theorem ringLinkChange_does {s : State} (east : Bool) (on : s.pd .ringply = true) (joined : s.rd F.RING_STATUS_bypass = 0) :
    let link := fun (t : State) => if east then t.rd F.RING_STATUS_link_e else t.rd F.RING_STATUS_link_w
    Does (.ringLinkChange east .up) s (fun t => link t = 2 ∧ RegsIn [.ring] s t ∧
      t = { s with regs := t.regs, ring := { s.ring with rxAlive := [], txAlive := [] } }) ∧
    ∀ l, l ≠ .up → Does (.ringLinkChange east l) s (fun t =>
      link t = (if l = .training then 1 else 0) ∧ t.ring = s.ring ∧ t.image = s.image ∧
        (link s = 2 → bitOf (t.rd F.RING_EVT_evt) (if east then 0 else 1) = true)) := by
  obtain ⟨up, training, down⟩ := exec_ringLinkChange on joined east
  simp only [← rd_ringLink]
  obtain ⟨shown, regs⟩ := s.portUp_shows east
  refine ⟨⟨_, up, shown, regs, rfl⟩, fun l other => ?_⟩
  cases l with
  | up => exact absurd rfl other
  | training => exact ⟨_, training, s.portLost_shows east (by decide)⟩
  | down => exact ⟨_, down, s.portLost_shows east (by decide)⟩

/-! A publication's part that arrives (R224, R227). -/

/-- Is a copy that of a publication's frame: of its source and its instant? -/
def State.sameCopy (s : State) (b : Bytes) (p : Publication) : Bool :=
  p.source == byteAt b 1 % 16 && p.instant == s.ringInstant b

/-- The copy that a publication's frame belongs to, as held before. -/
def State.copyBefore (s : State) (b : Bytes) : Publication :=
  (s.ring.pubs.find? (s.sameCopy b)).getD
    ⟨byteAt b 1 % 16, s.ringInstant b, 0, beAt b 2 4 % 2 ^ 28, bitOf (beAt b 2 4) 28, beAt b 28 4, [], byteAt b 12, []⟩

/-- The entries that a publication's frame carries: slot index and container. -/
def pubEntries (b : Bytes) : List (Nat × Nat) :=
  (upTo (((b.drop 32).take (b.length - 36)).length / 5)).map (fun i =>
    let e := beAt ((b.drop 32).take (b.length - 36)) (5 * i) 5
    (e / 2 ^ 28, e % 2 ^ 28))

/-- The copy with a frame's part held. -/
def State.copyAfter (s : State) (b : Bytes) : Publication :=
  { s.copyBefore b with
    arrived := s.time.work
    held := byteAt b 11 :: (s.copyBefore b).held.erase (byteAt b 11)
    entries := SMap.puts (s.copyBefore b).entries (pubEntries b) }

/-- The state in which a frame's part is held. -/
def State.pubHeld (s : State) (b : Bytes) : State :=
  { s with ring := { s.ring with pubs := s.copyAfter b :: s.ring.pubs.filter (fun q => !s.sameCopy b q) } }

/-- A count of the ring and its event, where a test says so (R236). -/
def State.countedIf (s : State) (c : Bool) (j i : Nat) : State := if c then (s.ringCount j).ringEvt i else s

theorem State.countedIf_ring (s : State) (c : Bool) (j i : Nat) : (s.countedIf c j i).ring = s.ring := by
  cases c
  · rfl
  · exact State.ringEvt_ring _ _

/-- The greatest epoch of a ply is recorded (R231). -/
def State.epochKept (s : State) (ply epoch : Nat) : State :=
  if s.epochRec ply < epoch then { s with ring := { s.ring with epochs := SMap.put s.ring.epochs ply epoch } } else s

theorem State.epochKept_pubs (s : State) (ply epoch : Nat) : (s.epochKept ply epoch).ring.pubs = s.ring.pubs := by
  unfold State.epochKept
  split <;> rfl

/-- What a part that is held shows: that its copy came whole after its cut-off, and of a whole copy that is not marked shadow
one of the same epoch beside it and the greatest epoch of its ply (R228, R231). -/
def State.pubJudged (s : State) (passed unsettled clash : Bool) (ply epoch : Nat) : State :=
  let t := s.countedIf passed 2 9
  if unsettled then t else (t.countedIf clash 3 8).epochKept ply epoch

theorem State.pubJudged_pubs (s : State) (passed unsettled clash : Bool) (ply epoch : Nat) :
    (s.pubJudged passed unsettled clash ply epoch).ring.pubs = s.ring.pubs := by
  cases unsettled
  · exact (State.epochKept_pubs _ ply epoch).trans
      (congrArg RingSt.pubs ((State.countedIf_ring _ clash 3 8).trans (s.countedIf_ring passed 2 9)))
  · exact congrArg RingSt.pubs (s.countedIf_ring passed 2 9)

theorem State.takePublish_eq (s : State) (b : Bytes) : ∃ passed unsettled clash ply epoch,
    s.takePublish b = (s.pubHeld b).pubJudged passed unsettled clash ply epoch := ⟨_, _, _, _, _, rfl⟩

theorem State.takePublish_holds (s : State) (b : Bytes) : s.copyAfter b ∈ (s.takePublish b).ring.pubs := by
  obtain ⟨passed, unsettled, clash, ply, epoch, taken⟩ := s.takePublish_eq b
  rw [taken, State.pubJudged_pubs]
  exact List.mem_cons_self

theorem State.copyBefore_same (s : State) (b : Bytes) :
    (s.copyBefore b).source = byteAt b 1 % 16 ∧ (s.copyBefore b).instant = s.ringInstant b := by
  unfold State.copyBefore
  cases found : s.ring.pubs.find? (s.sameCopy b) with
  | none => exact ⟨rfl, rfl⟩
  | some p => simpa [State.sameCopy] using List.find?_some found

/-- Of entries put one after the other a key reads the last of its own. -/
theorem SMap.find_puts_map_last {α β : Type} (m : SMap α) (f : β → Nat × α) {before after : List β} {b : β}
    (last : ∀ c ∈ after, (f c).1 ≠ (f b).1) :
    SMap.find (SMap.puts m ((before ++ b :: after).map f)) (f b).1 = some (f b).2 := by
  have lacks : Lacks (after.map f) (f b).1 := fun e he => by
    obtain ⟨c, hc, rfl⟩ := List.mem_map.1 he
    exact last c hc
  rw [List.map_append, List.map_cons, SMap.puts, List.foldl_append, List.foldl_cons]
  exact (SMap.find_puts_of_lacks lacks _).trans (SMap.find_put_same _ _ _)

/-- The entries of a frame are those of its payload. -/
theorem pubEntries_eq (b : Bytes) : pubEntries b = (upTo ((b.length - 36) / 5)).map (fun i =>
    (beAt b (32 + 5 * i) 5 / 2 ^ 28, beAt b (32 + 5 * i) 5 % 2 ^ 28)) := by
  have length : ((b.drop 32).take (b.length - 36)).length = b.length - 36 := by
    rw [List.length_take, List.length_drop]
    omega
  rw [pubEntries, length]
  refine List.map_congr_left fun i hi => ?_
  have inside : 5 * i + 5 ≤ b.length - 36 := by
    have := mem_upTo.1 hi
    omega
  have read : beAt ((b.drop 32).take (b.length - 36)) (5 * i) 5 = beAt b (32 + 5 * i) 5 := by
    rw [beAt, beAt, slice, slice, List.drop_take, List.drop_drop, List.take_take, Nat.min_eq_left (by omega)]
  rw [read]

/-- A copy reads of each slot the last of its entries in the frame. -/
theorem State.copyAfter_entry (s : State) (b : Bytes) {i : Nat} (hi : i < (b.length - 36) / 5)
    (last : ∀ j < (b.length - 36) / 5, i < j → beAt b (32 + 5 * j) 5 / 2 ^ 28 ≠ beAt b (32 + 5 * i) 5 / 2 ^ 28) :
    SMap.find (s.copyAfter b).entries (beAt b (32 + 5 * i) 5 / 2 ^ 28) = some (beAt b (32 + 5 * i) 5 % 2 ^ 28) := by
  obtain ⟨n, count⟩ : ∃ n, (b.length - 36) / 5 = i + (n + 1) := ⟨(b.length - 36) / 5 - i - 1, by omega⟩
  have split : upTo ((b.length - 36) / 5) = upTo i ++ i :: (List.range n).map (i + 1 + ·) := by
    rw [count, upTo, upTo, List.range_add, List.range_succ_eq_map]
    simp [Nat.add_assoc, Nat.add_comm 1]
  show SMap.find (SMap.puts _ (pubEntries b)) _ = _
  rw [pubEntries_eq, split]
  refine SMap.find_puts_map_last _ _ fun j hj => ?_
  obtain ⟨k, hk, rfl⟩ := List.mem_map.1 hj
  have := List.mem_range.1 hk
  exact last _ (by omega) (by omega)

theorem exec_publishReceived {s u : State} {east : Bool} {frame : Bytes}
    (taken : s.ringTake east false frame = (u, some false)) (type : byteAt frame 0 = 0x11)
    (other : byteAt frame 1 % 16 ≠ u.position) :
    ∃ t, exec (.publishReceived east false frame) s = .next t ∧ Keeps [.ply] (u.takePublish frame) t := by
  have foreign : (byteAt frame 1 % 16 == u.position) = false := by simpa using other
  change ∃ t, execPublishReceived east false frame s = _ ∧ _
  unfold execPublishReceived
  simp only [taken, type, foreign]
  by_cases alone : (!(u.takePublish frame).plyUp) = true
  · exact ⟨_, if_pos alone, .rfl⟩
  · refine ⟨_, if_neg alone, ?_⟩
    have drawn : Keeps [.ply] (u.takePublish frame) (u.takePublish frame).free.2 := .next' (State.free_keeps _) (by decide)
    split
    · exact drawn.next (State.sendPly_keeps _ _ _ _) (by decide)
    · exact drawn

theorem publishReceived_does {s : State} {east : Bool} {frame : Bytes} (taken : RingTaken s east 0x11 frame) :
    let n := (frame.length - 36) / 5
    let entry := fun i => beAt frame (32 + 5 * i) 5
    Does (.publishReceived east false frame) s (fun t => Forwarded s t east frame ∧ t.image = s.image ∧
      ∃ p ∈ t.ring.pubs, p.source = byteAt frame 1 % 16 ∧ p.instant = s.ringInstant frame ∧ byteAt frame 11 ∈ p.held ∧
        ∀ i < n, (∀ j < n, i < j → entry j / 2 ^ 28 ≠ entry i / 2 ^ 28) →
          SMap.find p.entries (entry i / 2 ^ 28) = some (entry i % 2 ^ 28)) := by
  intro n entry
  obtain ⟨out, took, forwarded⟩ := taken.takes (by decide)
  obtain ⟨t, run, kept⟩ := exec_publishReceived took taken.type.1 taken.other
  obtain ⟨source, instant⟩ := (s.tookRing frame out).copyBefore_same frame
  have held := State.takePublish_holds (s.tookRing frame out) frame
  have ring : t.ring = ((s.tookRing frame out).takePublish frame).ring := kept.parts .ring (by decide)
  refine ⟨t, run, forwarded.of_sent ((State.takePublish_keeps _ frame).sent.trans kept.sent),
    ((execPublishReceived_keeps east false frame s).of_next run).parts .image (by decide),
    (s.tookRing frame out).copyAfter frame, ring ▸ held, source, instant, List.mem_cons_self, fun i hi last => ?_⟩
  exact State.copyAfter_entry _ frame hi last

/-! Publications that go out (R226). -/

/-- Has the launch instant of a part passed? -/
def State.launchDue (s : State) (p : PubPart) : Bool := decide (p.instant + 512 * unitNs ≤ s.time.work)

/-- The state in which the parts that are due wait no more. -/
def State.launched (s : State) : State :=
  { s with ring := { s.ring with launch := s.ring.launch.filter (fun p => !s.launchDue p) } }

/-- A part of a publication goes out, marked shadow unless the active composed and launches it (R226, R285). -/
def State.launchPart (s : State) (p : PubPart) : State :=
  s.sendRing 0x11 (s.ringFlags (!(p.active && s.isActive)) s.isActive) p.part p.parts p.instant p.period p.payload

theorem exec_publicationLaunch (s : State) : exec .publicationLaunch s = .next (
    if !(s.launched.isActive || s.launched.isStandby) || s.launched.bypassed then s.launched
    else (s.ring.launch.filter s.launchDue).foldl State.launchPart s.launched) :=
  (apply_ite (Host.Outcome.next (φ := Fault) (ρ := Refusal)) _ _ _).symm

theorem publicationLaunch_waits {s : State} {p : PubPart} (one : s.ring.launch = [p])
    (early : s.time.work < p.instant + 512 * 2 ^ 32) : Does .publicationLaunch s (fun t => t = s) := by
  have waits : s.launchDue p = false := decide_eq_false (Nat.not_le.2 early)
  have none : s.ring.launch.filter s.launchDue = [] := by simp [one, waits]
  have all : s.ring.launch.filter (fun p => !s.launchDue p) = s.ring.launch := by simp [one, waits]
  have stays : s.launched = s := by rw [State.launched, all]
  refine ⟨_, exec_publicationLaunch s, ?_⟩
  rw [none, stays]
  exact ite_self _

theorem publicationLaunch_sends {s : State} {p : PubPart} (one : s.ring.launch = [p])
    (due : p.instant + 512 * 2 ^ 32 ≤ s.time.work) (role : s.plyState ∈ [1, 2, 4]) (joined : s.rd F.RING_STATUS_bypass = 0) :
    Does .publicationLaunch s (fun t =>
      t.ring.launch = [] ∧ t.regs = s.regs ∧ t.image = s.image ∧ ∀ e, s.ringUp e = true →
        Out.ring e (ringFrame 0x11 s.position (s.ringFlags (!(p.active && s.isActive)) s.isActive)
          (SMap.getD s.ring.txAlive 0x11 0) p.part p.parts p.instant p.period p.payload) ∈ t.out) := by
  have goes : s.launchDue p = true := decide_eq_true due
  have parts : s.ring.launch.filter s.launchDue = [p] := by simp [one, goes]
  have none : s.launched.ring.launch = [] := by
    show s.ring.launch.filter (fun p => !s.launchDue p) = []
    simp [one, goes]
  have speaks : ¬(!(s.launched.isActive || s.launched.isStandby) || s.launched.bypassed) = true := by
    have leads : (s.isActive || s.isStandby) = true := by
      simp only [List.mem_cons, List.not_mem_nil, or_false] at role
      rcases role with role | role | role <;> simp [State.isActive, State.isStandby, role]
    have through : s.bypassed = false := by simp [State.bypassed, State.on, joined]
    show ¬(!(s.isActive || s.isStandby) || s.bypassed) = true
    simp [leads, through]
  obtain ⟨out, sent, there⟩ := s.launched.sendRing_sends 0x11
    (s.launched.ringFlags (!(p.active && s.launched.isActive)) s.launched.isActive) p.part p.parts p.instant p.period p.payload
  have run := exec_publicationLaunch s
  rw [if_neg speaks, parts] at run
  exact ⟨_, run.trans (congrArg _ sent), none, rfl, rfl, there joined⟩

theorem ringPortsAndPublications : RingPortsAndPublications := fun _ east =>
  ⟨bypassOpen_does, ringLinkChange_does east, fun _ => publishReceived_does,
    fun _ one => ⟨publicationLaunch_waits one, publicationLaunch_sends one⟩⟩

/-- Settles O29: members by what a BEACON, its absence and the end of a clash leave of the member table, ports and publications
by what their commands write, hold and send. -/
theorem ringMembersAndPublications : Obligations.RingMembersAndPublications := ⟨ringMembersHeard, ringPortsAndPublications⟩

end Sys2Proof.Machine

/-! PROOFS. Every command completes and keeps every unit outside its footprint, every step keeps memory in canonical form, and
the state after a cold start. -/

namespace Sys2Proof.Machine

/-- A meaning answers a next state. -/
def Answers (o : Host.Outcome State Fault Refusal) : Prop := ∃ t, o = .next t

theorem Answers.ok {s : State} : Answers (Machine.ok s) := ⟨s, rfl⟩

theorem Answers.ite {c : Prop} [Decidable c] {a b : Host.Outcome State Fault Refusal} (h : Answers a) (g : Answers b) :
    Answers (if c then a else b) := by
  split <;> assumption

/-- What a meaning that answers answers. -/
theorem Answers.eq_settle {o : Host.Outcome State Fault Refusal} (h : Answers o) (s : State) : o = .next (settle s o) := by
  obtain ⟨t, rfl⟩ := h
  rfl

theorem execMillFrameReceived_answers (ch : Fin 2) (f : CanFrame) (s : State) : Answers (execMillFrameReceived ch f s) := by
  refine .ite .ok (.ite .ok ?_)
  split <;> exact .ok

/-! The meanings that match before they complete. -/

theorem execOverrunDecision_answers (t : Fin 16) (s : State) : Answers (execOverrunDecision t s) := by
  unfold execOverrunDecision
  dsimp only
  repeat' split
  all_goals exact .ok

theorem execTrapDecision_answers (t : Fin 16) (s : State) : Answers (execTrapDecision t s) := by
  unfold execTrapDecision
  dsimp only
  repeat' split
  all_goals exact .ok

theorem execProgVerifyDone_answers (slot : Fin 16) (s : State) : Answers (execProgVerifyDone slot s) := by
  unfold execProgVerifyDone
  dsimp only
  repeat' split
  all_goals exact .ok

theorem execOnlineCarry_answers (t : Fin 16) (eccWords : List (Fin 65536)) (s : State) :
    Answers (execOnlineCarry t eccWords s) := by
  unfold execOnlineCarry
  dsimp only
  repeat' split
  all_goals exact .ok

theorem execPlannedHandoverSwitch_answers (s : State) : Answers (execPlannedHandoverSwitch s) := by
  unfold execPlannedHandoverSwitch
  dsimp only
  repeat' split
  all_goals exact .ok

theorem execJoinCaptureBoundary_answers (s : State) : Answers (execJoinCaptureBoundary s) := by
  unfold execJoinCaptureBoundary
  dsimp only
  repeat' split
  all_goals exact .ok

theorem execBar2Access_answers (off : BitVec 28) (len : Fin 4097) (wdata : Option Bytes) (ecc : Bool) (s : State) :
    Answers (execBar2Access off len wdata ecc s) := by
  unfold execBar2Access
  dsimp only
  repeat' split
  all_goals exact .ok

theorem execMillMapTaken_answers (ch : Fin 2) (b : Fin 64) (s : State) : Answers (execMillMapTaken ch b s) := by
  unfold execMillMapTaken
  dsimp only
  repeat' split
  all_goals exact .ok

theorem execHoldupCharged_answers (s : State) : Answers (execHoldupCharged s) := by
  unfold execHoldupCharged
  dsimp only
  repeat' split
  all_goals exact .ok

/-- No command stops the machine: the meanings by the tests that they make before they complete. -/
theorem exec_answers (c : Instr) (s : State) : Answers (exec c s) := by
  cases c with
  | turnEngineStart | turnBoundary | releaseInstant | slackClearMin | slackClearSlips | lowWordRead |
    inputFrameReceived | joinFrameReceived | echoRspReceived | setupRecordRepeat | chainBroken | chainIntact |
    stationLost | joiningTimeout | budgetComparison | proxyStart | proxyStop | skClearCnt | taskStart |
    turnWatchdogTrip | keyDisagree | retainFlushNow | traceStop | traceForce | beaconSend | memberSilent |
    clashCleared | publicationLaunch | bypassOpen | hopReportSend | refclkLost | refclkRestored | domainStart
    | timeRestart | timeSnap | slewEnd | ppsEdge | ppsLost | domainFrameSend | domainHoldover | holdExpired |
    slewDone | timeXchgSend | timeXchgReceived | plyTimeDiffExceeded | ppsOutPulse | ppsOutFall |
    heartbeatSend | heartbeatMissed | catchUpLaunch | healthSend | startingTimeout | plyLinkUp | autoRejoin |
    autoRestart | revert | replayCaughtUp | divergedTimeout | millHeartbeatSend | brakeInputAssert |
    brakeInputRelease | brakeFrameRefresh | brkClearWrite | brkSoftWrite | brkLockWrite | brkFirstClearWrite |
    inputLost | lastGaspRecordDone | holdupSpent | ejectorOpen | ejectorClosed | commitImageWritten |
    msixCoalTimeout | flr | hostLinkDown | pmStateChange | policyLockWrite | millRecovered | mbCmdRestart |
    mbCmdUnmute | mbCmdClearCnt | millCycleStart | millWindowStart | millRefLost | millDominantTimeout |
    mbRdSelWrite | readLockTimeout | millMapStale | gsStart | gsStop | extest | clamp | recManual |
    recSnapshot | recRecordWritten | recoverReset | hyicaSessionTimeout | neighborDiscovery | svcLinkChange |
    pwrResetWarm | pwrResetCold | warmReset | inputGood | partnerFrameCrossed | arbitratingWindowStart |
    arbitratingWindowEnd | msixFunctionUnmask | commandedColdStart | hostLinkTrained => exact .ite .ok .ok
  | wheelDeadline | partnerFrameNotShadow | joinAnswer | traceArm | hopMarkReceived | masterElection |
    incWrite | leapApply | heartbeatReceived | stateSend | plyCmdRejoin | plyCmdLeave | replayBehind |
    keepIslandUpdate | millTxError | millWindowEnd | fwFallBack | millerWatchdogRestart | pwrReqGo |
    pwrResetPartner | partnerOrderedReset | holdupTimeout | millRxError => exact .ite .ok (.ite .ok .ok)
  | inputCutoff | traceCaptureRecord | turnMarkReceived | hopMarkSend | plyCmdHandover | rungStepDone =>
    exact .ite .ok (.ite .ok (.ite .ok .ok))
  | hyOpen => exact .ite .ok (.ite .ok (.ite .ok (.ite .ok .ok)))
  | millFrameReceived ch f => exact execMillFrameReceived_answers ch f s
  | overrunDecision t => exact execOverrunDecision_answers t s
  | trapDecision t => exact execTrapDecision_answers t s
  | progVerifyDone slot => exact execProgVerifyDone_answers slot s
  | onlineCarry t eccWords => exact execOnlineCarry_answers t eccWords s
  | plannedHandoverSwitch => exact execPlannedHandoverSwitch_answers s
  | joinCaptureBoundary => exact execJoinCaptureBoundary_answers s
  | bar2Access off len wdata ecc => exact execBar2Access_answers off len wdata ecc s
  | millMapTaken ch b => exact execMillMapTaken_answers ch b s
  | holdupCharged => exact execHoldupCharged_answers s
  | loopEvaluationDone | orderAckTimeout | skeinLinkChange | taskInputCopyDone | taskCommitDone |
    keyPositionTaken | keyInvalidLock | keyEffectiveChange | retainFlushDone | onlineCarryDone |
    publishReceived | beaconReceived | ringLinkChange | hopReportReceived | hopEntryExpired | incApply |
    slewTicksWrite | domainFrameReceived | workingTimeStart | domainSwitch | alarmFire | leapTableEffect |
    bridgeReceived | releasedReceived | reachReceived | digestReceived | digestCompute | completionReceived |
    millSnapReceived | hostWriteReceived | orderReceived | ackReceived | healthReceived | stateReceived |
    plyJoinReceived | doorbellReadEnd | checkDone | commitAccepted | commitApply | perstChange |
    ringEnableWrite | bar0RegisterWrite | millFrameSent | fwBuildDone | fwSwitch | recoveryImageDone =>
    delta exec
    dsimp only
    delta
      execLoopEvaluationDone execOrderAckTimeout execSkeinLinkChange execTaskInputCopyDone execTaskCommitDone
      execKeyPositionTaken execKeyInvalidLock execKeyEffectiveChange execRetainFlushDone execOnlineCarryDone
      execPublishReceived execBeaconReceived execRingLinkChange execHopReportReceived execHopEntryExpired
      execIncApply execSlewTicksWrite execDomainFrameReceived execWorkingTimeStart execDomainSwitch
      execAlarmFire execLeapTableEffect execBridgeReceived execReleasedReceived execReachReceived
      execDigestReceived execDigestCompute execCompletionReceived execMillSnapReceived execHostWriteReceived
      execOrderReceived execAckReceived execHealthReceived execStateReceived execPlyJoinReceived
      execDoorbellReadEnd execCheckDone execCommitAccepted execCommitApply execPerstChange execRingEnableWrite
      execBar0RegisterWrite execMillFrameSent execFwBuildDone execFwSwitch execRecoveryImageDone
    repeat first | split | apply Answers.ite | exact .ok
  | _ => exact .ok

/-- Settles O57: what each meaning keeps, of the state that it answers. -/
theorem commandsKeepTheirUnits : Obligations.CommandsKeepTheirUnits := by
  unfold Obligations.CommandsKeepTheirUnits
  intro c s
  have keeps := exec_keeps c s
  exact ⟨_, (exec_answers c s).eq_settle s, keeps.pending, keeps.sent, keeps.fresh, keeps.parts⟩

/-- Settles O59: a command keeps the canonical form by the laws of the meanings, and so does a tick. -/
theorem canonicalMemoryIsKept : Obligations.CanonicalMemoryIsKept := by
  unfold Obligations.CanonicalMemoryIsKept
  intro s t canonical h
  cases waiting : s.pending with
  | nil =>
    rw [step_of_idle waiting] at h
    obtain rfl := Host.Outcome.next.inj h
    exact (timeTick_keeps s).mem canonical
  | cons c rest =>
    rw [step_of_waiting waiting] at h
    exact ((exec_keeps c _).of_next h).mem canonical

/-- Settles O56: the cold values of the registers and of the units named. -/
theorem resetState : Obligations.ResetState := by
  unfold Obligations.ResetState
  have unlocked : ∀ u < 4, State.reset.rd (F.AC_LOCK_lock u) = 0 ∧ State.reset.rd (F.AC_VIOL_INFO_valid u) = 0 ∧
      State.reset.rd (F.AC_VIOL_COUNT_count u) = 0 := by decide
  have on : ∀ d : Pd, State.reset.pd d = true := by
    intro d
    cases d <;> decide
  exact ⟨rfl, rfl, rfl, rfl, rfl, rfl, on, rfl, rfl, rfl, rfl, unlocked⟩

end Sys2Proof.Machine

/-! PROOFS. The general seal units: what a start, a stop and a feed do to a unit, and that they leave the others. -/

namespace Sys2Proof.Machine

/-! Bits of a number (R4). -/

/-- Taking a bit that is set away leaves the others. -/
theorem testBit_sub_two_pow {n i j : Nat} (set : n.testBit i = true) (h : i ≠ j) : (n - 2 ^ i).testBit j = n.testBit j := by
  obtain ⟨q, hq⟩ : ∃ q, n / 2 ^ i = 2 * q + 1 := ⟨n / 2 ^ i / 2, by
    rw [Nat.testBit_eq_decide_div_mod_eq, decide_eq_true_eq] at set
    omega⟩
  have low : n % 2 ^ i < 2 ^ i := Nat.mod_lt _ (Nat.two_pow_pos i)
  have whole : n = 2 ^ i * (2 * q + 1) + n % 2 ^ i := by rw [← hq, Nat.div_add_mod]
  have less : n - 2 ^ i = 2 ^ i * (2 * q) + n % 2 ^ i := by
    rw [Nat.mul_add, Nat.mul_one] at whole
    omega
  rw [less]
  conv_rhs => rw [whole]
  rw [Nat.testBit_two_pow_mul_add _ low, Nat.testBit_two_pow_mul_add _ low]
  split
  · rfl
  · obtain ⟨k, hk⟩ : ∃ k, j - i = k + 1 := ⟨j - i - 1, by omega⟩
    rw [hk, Nat.testBit_succ, Nat.testBit_succ]
    congr 1
    omega

/-- Setting or clearing one bit leaves the others. -/
theorem bitOf_setBit_ne (n : Nat) {i j : Nat} (b : Bool) (h : i ≠ j) : bitOf (setBit n i b) j = bitOf n j := by
  simp only [bitOf_eq_testBit, setBit, Nat.one_shiftLeft]
  split
  · simp [Nat.testBit_or, h]
  · split
    · next set => exact testBit_sub_two_pow set h
    · rfl

/-- A bit written in a field leaves the field's other bits. -/
theorem State.bitOf_wr_setBit_ne (s : State) {f : Fld} {i j : Nat} (b : Bool) (hj : j < f.width) (h : i ≠ j) :
    bitOf ((s.wr f (setBit (s.rd f) i b)).rd f) j = bitOf (s.rd f) j := by
  have cut (n : Nat) : bitOf (n % 2 ^ f.width) j = bitOf n j := by simp [bitOf_eq_testBit, Nat.testBit_mod_two_pow, hj]
  rw [State.rd_wr_same, cut, bitOf_setBit_ne _ _ h]

/-- A bit cleared in a field reads as cleared. -/
theorem State.bitOf_wr_clearBit (s : State) {f : Fld} {i : Nat} (hi : i < f.width) :
    bitOf ((s.wr f (setBit (s.rd f) i false)).rd f) i = false := by
  rw [State.rd_wr_same, bitOf_eq_testBit, Nat.testBit_mod_two_pow, ← bitOf_eq_testBit, bitOf_setBit_false, Bool.and_false]

/-! The fields of a unit (R398): what a write of a unit's own fields leaves. -/

/-- One unit is in every respect as it was. -/
structure UnitStays (s t : State) (i : Nat) : Prop where
  rem : t.sealRem i = s.sealRem i
  busy : t.gsBusy i = s.gsBusy i
  result : t.rd (F.GS_RESULT_seal i) = s.rd (F.GS_RESULT_seal i)
  count : t.rd (F.GS_COUNT_bytes i) = s.rd (F.GS_COUNT_bytes i)

theorem UnitStays.rfl {s : State} {i : Nat} : UnitStays s s i := ⟨Eq.refl _, Eq.refl _, Eq.refl _, Eq.refl _⟩

/-- A write of a field that is none of the unit's. -/
theorem UnitStays.wr {s t : State} {i : Nat} (h : UnitStays s t i) {f : Fld} (v : Nat) (busy : f.key ≠ F.SEAL_STATUS_busy.key)
    (result : f.key ≠ (F.GS_RESULT_seal i).key) (count : f.key ≠ (F.GS_COUNT_bytes i).key) : UnitStays s (t.wr f v) i where
  rem := h.rem
  busy := (congrArg (bitOf · i) (State.rd_wr_ne t f F.SEAL_STATUS_busy v busy)).trans h.busy
  result := (State.rd_wr_ne t f _ v result).trans h.result
  count := (State.rd_wr_ne t f _ v count).trans h.count

/-- The bit of another unit. -/
theorem UnitStays.setGsBusy {s t : State} {i u : Nat} (h : UnitStays s t i) (hi : i < 8) (ne : u ≠ i) (b : Bool) :
    UnitStays s (t.setGsBusy u b) i where
  rem := h.rem
  busy := (State.bitOf_wr_setBit_ne t b hi ne).trans h.busy
  result := (State.rd_wr_ne t _ _ _ (by
    simp only [Fld.key, F.SEAL_STATUS_busy, F.GS_RESULT_seal]
    omega)).trans h.result
  count := (State.rd_wr_ne t _ _ _ (by
    simp only [Fld.key, F.SEAL_STATUS_busy, F.GS_COUNT_bytes]
    omega)).trans h.count

/-- The result and the count of another unit. -/
theorem UnitStays.wrUnit {s t : State} {i u : Nat} (h : UnitStays s t i) (ne : u ≠ i) (r n : Nat) :
    UnitStays s ((t.wr (F.GS_COUNT_bytes u) n).wr (F.GS_RESULT_seal u) r) i := by
  refine (h.wr n ?_ ?_ ?_).wr r ?_ ?_ ?_ <;>
    simp only [Fld.key, F.GS_COUNT_bytes, F.GS_RESULT_seal, F.SEAL_STATUS_busy] <;> omega

/-- The remainder of another unit. -/
theorem UnitStays.rem_put {s : State} {i u : Nat} (ne : u ≠ i) (r : Nat) :
    UnitStays s { s with seals := SMap.put s.seals u r } i :=
  ⟨SMap.getD_put_ne _ _ _ ne, Eq.refl _, Eq.refl _, Eq.refl _⟩

theorem UnitStays.rem_del {s : State} {i u : Nat} (ne : u ≠ i) : UnitStays s { s with seals := SMap.del s.seals u } i :=
  ⟨congrArg (Option.getD · _) (SMap.find_del_ne s.seals ne), Eq.refl _, Eq.refl _, Eq.refl _⟩

/-- The result and the count of a unit read as written, and its bit of SEAL_STATUS stays. -/
theorem State.wrUnit_shows (s : State) (u r n : Nat) :
    let t := (s.wr (F.GS_COUNT_bytes u) n).wr (F.GS_RESULT_seal u) r
    t.rd (F.GS_RESULT_seal u) = r % 2 ^ 32 ∧ t.rd (F.GS_COUNT_bytes u) = n % 2 ^ 32 ∧ t.gsBusy u = s.gsBusy u := by
  have apart : (F.GS_RESULT_seal u).key ≠ (F.GS_COUNT_bytes u).key ∧ (F.GS_RESULT_seal u).key ≠ F.SEAL_STATUS_busy.key ∧
      (F.GS_COUNT_bytes u).key ≠ F.SEAL_STATUS_busy.key := by
    simp only [Fld.key, F.GS_COUNT_bytes, F.GS_RESULT_seal, F.SEAL_STATUS_busy]
    omega
  obtain ⟨count, result, busy⟩ := apart
  refine ⟨State.rd_wr_same _ _ _, ?_, ?_⟩
  · rw [State.rd_wr_ne _ _ _ _ count]
    exact State.rd_wr_same _ _ _
  · rw [State.gsBusy, State.rd_wr_ne _ _ _ _ result, State.rd_wr_ne _ _ _ _ busy, State.gsBusy]

/-! Start, stop and feed. -/

theorem State.gsTakes_of_bins {s : State} {u : Nat} {host : Bool} (on : s.pd .bins = true) (own : host = true → 4 ≤ u) :
    s.gsTakes u host = true := by
  cases host with
  | false => simp [State.gsTakes, on]
  | true => simp [State.gsTakes, on, own rfl]

theorem State.gsTakes_of_miller (s : State) {u : Nat} (h : u < 4) : s.gsTakes u true = false := by
  simp [State.gsTakes, h]

theorem gsStart_does {s : State} {u : Fin 8} {host : Bool} (takes : s.gsTakes u.val host = true) :
    Does (.gsStart u host) s (fun t => (∀ i : Fin 8, i ≠ u → UnitStays s t i.val) ∧ t.gsBusy u.val = true ∧
      t.sealRem u.val = 0xFFFFFFFF ∧ t.rd (F.GS_RESULT_seal u.val) = 0 ∧ t.rd (F.GS_COUNT_bytes u.val) = 0) := by
  refine ⟨_, if_neg (by simp [takes]), fun i ne => ?_, ?_⟩
  · have ne : u.val ≠ i.val := fun e => ne (Fin.ext e.symm)
    exact ((UnitStays.rem_del ne).setGsBusy i.isLt ne true).wrUnit ne 0 0
  · obtain ⟨result, count, busy⟩ := State.wrUnit_shows (({ s with seals := SMap.del s.seals u.val } : State).setGsBusy u.val true)
      u.val 0 0
    refine ⟨busy.trans ?_, ?_, result, count⟩
    · exact (State.bitOf_wr_setBit _ (f := F.SEAL_STATUS_busy) u.isLt).trans (by simp)
    · exact congrArg (Option.getD · sealInit) (SMap.find_del_same _ _)

theorem gsStop_does {s : State} {u : Fin 8} {host : Bool} (takes : s.gsTakes u.val host = true) :
    Does (.gsStop u host) s (fun t => (∀ i : Fin 8, i ≠ u → UnitStays s t i.val) ∧ t.gsBusy u.val = false ∧
      t.sealRem u.val = s.sealRem u.val ∧ t.rd (F.GS_RESULT_seal u.val) = s.rd (F.GS_RESULT_seal u.val)) := by
  refine ⟨_, if_neg (by simp [takes]), fun i ne => UnitStays.rfl.setGsBusy i.isLt (fun e => ne (Fin.ext e.symm)) false,
    State.bitOf_wr_clearBit s u.isLt, rfl, State.rd_wr_ne _ _ _ _ ?_⟩
  simp only [Fld.key, F.GS_RESULT_seal, F.SEAL_STATUS_busy]
  omega

/-- What a feed of bytes does to a unit, started or not, and to the others. -/
structure FedUnit (s t : State) (u : Fin 8) (b : Bytes) : Prop where
  others : ∀ i : Fin 8, i ≠ u → UnitStays s t i.val
  busy : t.gsBusy u.val = s.gsBusy u.val
  started : s.gsBusy u.val = true → t.sealRem u.val = crcRun (s.sealRem u.val) b ∧
    t.rd (F.GS_RESULT_seal u.val) = (crcRun (s.sealRem u.val) b ^^^ 0xFFFFFFFF) % 2 ^ 32 ∧
    t.rd (F.GS_COUNT_bytes u.val) = min (s.rd (F.GS_COUNT_bytes u.val) + b.length) (2 ^ 32 - 1)
  idle : s.gsBusy u.val = false → t.sealRem u.val = s.sealRem u.val ∧ bitOf (t.rd F.SEAL_STATUS_idle_feed) u.val = true ∧
    t.rd (F.GS_RESULT_seal u.val) = s.rd (F.GS_RESULT_seal u.val)

theorem State.gsFeed_fed {s : State} {u : Fin 8} {host : Bool} (takes : s.gsTakes u.val host = true) (b : Bytes) :
    FedUnit s (s.gsFeed u.val host b) u b := by
  have idleNe (i : Nat) : F.SEAL_STATUS_idle_feed.key ≠ F.SEAL_STATUS_busy.key ∧
      F.SEAL_STATUS_idle_feed.key ≠ (F.GS_RESULT_seal i).key ∧ F.SEAL_STATUS_idle_feed.key ≠ (F.GS_COUNT_bytes i).key := by
    simp only [Fld.key, F.SEAL_STATUS_idle_feed, F.GS_RESULT_seal, F.GS_COUNT_bytes, F.SEAL_STATUS_busy]
    omega
  cases started : s.gsBusy u.val with
  | false =>
    have fed : s.gsFeed u.val host b = s.wr F.SEAL_STATUS_idle_feed (setBit (s.rd F.SEAL_STATUS_idle_feed) u.val true) := by
      simp [State.gsFeed, takes, started]
    have stays (i : Nat) : UnitStays s (s.gsFeed u.val host b) i :=
      fed ▸ UnitStays.rfl.wr _ (idleNe i).1 (idleNe i).2.1 (idleNe i).2.2
    have noted := s.bitOf_wr_setBit (f := F.SEAL_STATUS_idle_feed) (i := u.val) u.isLt
    refine ⟨fun i _ => stays i.val, (stays u.val).busy, fun busy => absurd (started.symm.trans busy) Bool.false_ne_true, fun _ =>
      ⟨(stays u.val).rem, ?_, (stays u.val).result⟩⟩
    rw [fed, noted, decide_eq_true rfl, Bool.or_true]
  | true =>
    let r := crcRun (s.sealRem u.val) b
    let n := min (s.rd (F.GS_COUNT_bytes u.val) + b.length) (2 ^ 32 - 1)
    have fed : s.gsFeed u.val host b = ((({ s with seals := SMap.put s.seals u.val r } : State).wr (F.GS_COUNT_bytes u.val)
        n).wr (F.GS_RESULT_seal u.val) (r ^^^ 0xFFFFFFFF)) := by
      rw [State.gsFeed, if_neg (by simp [takes]), if_neg (by simp [started])]
      rfl
    obtain ⟨result, count, busy⟩ := State.wrUnit_shows { s with seals := SMap.put s.seals u.val r } u.val (r ^^^ 0xFFFFFFFF) n
    rw [fed]
    refine ⟨fun i ne => ?_, busy, fun _ => ⟨SMap.getD_put_same _ _ _ _, result, count.trans (Nat.mod_eq_of_lt (by omega))⟩,
      fun idle => absurd (started.symm.trans idle) Bool.false_ne_true.symm⟩
    have ne : u.val ≠ i.val := fun e => ne (Fin.ext e.symm)
    exact (UnitStays.rem_put ne r).wrUnit ne _ _

/-- A half of a word in bytes, the lowest first (R394). -/
theorem leBytes_half (h : BitVec 16) : leBytes 2 h.toNat = [h.setWidth 8, (h >>> 8).setWidth 8] := by
  simp [leBytes, ← BitVec.toNat_inj]

theorem leBytes_word (w : Word32) :
    leBytes 4 w.toNat = [w.setWidth 8, (w >>> 8).setWidth 8, (w >>> 16).setWidth 8, (w >>> 24).setWidth 8] := by
  simp [leBytes, ← BitVec.toNat_inj, Nat.shiftRight_eq_div_pow, Nat.div_div_eq_div_mul]

/-- Settles O53: a write of the host to a miller's unit is not taken, and the others by what a start, a stop and a feed do. -/
theorem generalSealUnits : Obligations.GeneralSealUnits := by
  unfold Obligations.GeneralSealUnits
  intro s u host
  refine ⟨fun fromHost millers b h w c hc => ?_, fun on own => ?_⟩
  · have dropped : (!s.gsTakes u.val host) = true := by simp [fromHost, s.gsTakes_of_miller millers]
    have fed (b : Bytes) : s.gsFeed u.val host b = s := if_pos dropped
    refine ⟨s, ?_, rfl⟩
    simp only [List.mem_cons, List.not_mem_nil, or_false] at hc
    rcases hc with rfl | rfl | rfl | rfl | rfl
    · exact if_pos dropped
    · exact if_pos dropped
    all_goals exact congrArg ok (fed _)
  · have takes := State.gsTakes_of_bins on own
    have stays {s t : State} {i : Nat} (h : UnitStays s t i) :=
      And.intro h.rem (And.intro h.busy (And.intro h.result h.count))
    have fed {b c : Bytes} (e : c = b) : FedUnit s (s.gsFeed u.val host c) u b := e ▸ State.gsFeed_fed takes b
    obtain ⟨t, run, others, begun⟩ := gsStart_does takes
    obtain ⟨t', run', others', ended⟩ := gsStop_does takes
    refine ⟨⟨t, run, fun i ne => stays (others i ne), begun⟩, ⟨t', run', fun i ne => stays (others' i ne), ended⟩,
      fun b => ⟨_, rfl, ?_⟩, fun h => ⟨_, rfl, ?_⟩, fun w => ⟨_, rfl, ?_⟩⟩
    · have fed := fed (b := [b]) rfl
      exact ⟨fun i ne => stays (fed.others i ne), fed.busy, fed.started, fed.idle⟩
    · have fed := fed (leBytes_half h)
      exact ⟨fun i ne => stays (fed.others i ne), fed.busy, fed.started, fed.idle⟩
    · have fed := fed (leBytes_word w)
      exact ⟨fun i ne => stays (fed.others i ne), fed.busy, fed.started, fed.idle⟩

end Sys2Proof.Machine

/-! PROOFS. Accesses through an access-control unit: the judgement, the record of a refused access, and what an event that
is raised sends and writes. -/

namespace Sys2Proof.Machine

/-! The judgement (R400 to R402). -/

theorem State.mem_acRegions {s : State} {u n : Nat} : n ∈ s.acRegions u ↔ n < 32 ∧ s.act (F.AC_BASE_LO_enable u n) = 1 := by
  simp [State.acRegions, State.aon, mem_upTo]

/-- The region that a byte is judged by, and the judgement. -/
theorem State.acForbids_eq_some {s : State} {u kind a n : Nat} :
    s.acForbids u kind (s.acRegions u) a = some n ↔ Forbids s u kind n a := by
  let holds (n : Nat) : Bool := decide (s.acBase u n ≤ a) && decide (a ≤ s.acLimit u n)
  have covers (j : Nat) : Covers s u j a ↔ (s.aon (F.AC_BASE_LO_enable u j) && holds j) = true ∧ j < 32 := by
    simp only [Covers, State.aon, holds, Bool.and_eq_true, beq_iff_eq, decide_eq_true_eq]
    omega
  have found (j : Nat) : (s.acRegions u).find? holds = some j ↔ Covers s u j a ∧ ∀ i < j, ¬Covers s u i a := by
    rw [State.acRegions, List.find?_filter, upTo, List.find?_range_eq_some, covers]
    simp only [List.mem_range, Bool.not_eq_eq_eq_not, Bool.not_true, decide_eq_true_eq, decide_eq_false_iff_not, covers]
    refine ⟨fun h => ?_, fun h => ?_⟩
    · obtain ⟨in_, below, least⟩ := h
      exact ⟨⟨by simpa using in_, below⟩, fun i hi => fun c => least i hi (by simpa using c.1)⟩
    · obtain ⟨⟨in_, below⟩, least⟩ := h
      exact ⟨by simpa using in_, below, fun i hi c => least i hi ⟨by simpa using c, by omega⟩⟩
  unfold State.acForbids
  change (match (s.acRegions u).find? holds with
    | some n => if s.acPermits u n kind then none else some n
    | none => none) = some n ↔ _
  split
  · next j hj =>
    have cover := (found j).1 hj
    rw [Option.ite_none_left_eq_some]
    refine ⟨fun h => ?_, fun h => ?_⟩
    · obtain ⟨lacks, same⟩ := h
      obtain rfl := Option.some.inj same
      exact ⟨cover.1, cover.2, by simpa using lacks⟩
    · obtain ⟨c, least, lacks⟩ := h
      obtain rfl : j = n := Nat.le_antisymm (Nat.not_lt.1 fun l => cover.2 n l c) (Nat.not_lt.1 fun l => least j l cover.1)
      exact ⟨by simp [lacks], rfl⟩
  · next none_ => exact ⟨nofun, fun h => absurd ((found n).2 ⟨h.1, h.2.1⟩) (by simp [none_])⟩

theorem State.acForbids_eq_none {s : State} {u kind a : Nat} :
    s.acForbids u kind (s.acRegions u) a = none ↔ ∀ n, ¬Forbids s u kind n a := by
  rw [Option.eq_none_iff_forall_ne_some]
  exact forall_congr' fun n => not_congr State.acForbids_eq_some

/-- An access of which no byte is forbidden passes (R402). -/
theorem Passes.judged {s : State} {u kind addr len : Nat} (h : Passes s u kind addr len) : s.acJudge u kind addr len = none := by
  unfold State.acJudge
  refine ite_eq_left_iff.2 fun _ => List.findSome?_eq_none_iff.2 fun i hi => ?_
  rw [State.acForbids_eq_none.2 (h i (mem_upTo.1 hi)), Option.map_none]

/-- The first of a range that answers. -/
theorem findSome_upTo {α : Type} {f : Nat → Option α} {n i : Nat} {v : α} (hi : i < n) (at_ : f i = some v)
    (below : ∀ j < i, f j = none) : (upTo n).findSome? f = some v := by
  obtain ⟨k, rfl⟩ := Nat.exists_eq_add_of_lt hi
  have none_ : (List.range i).findSome? f = none := List.findSome?_eq_none_iff.2 fun j hj => below j (List.mem_range.1 hj)
  rw [upTo, Nat.add_assoc, List.range_add, List.findSome?_append, none_, List.range_succ_eq_map]
  simp [at_]

/-- An access is refused for its lowest forbidden byte (R402). -/
theorem FirstForbidden.judged {s : State} {u kind addr len a n : Nat} (h : FirstForbidden s u kind addr len a n) :
    s.acJudge u kind addr len = some (a, n) := by
  obtain ⟨low, high, forbids, passes⟩ := h
  have regions : ¬(s.acRegions u).isEmpty = true := fun e =>
    absurd (List.isEmpty_iff.1 e ▸ State.mem_acRegions.2 ⟨forbids.1.1, forbids.1.2.1⟩) List.not_mem_nil
  have whole : addr + (a - addr) = a := by omega
  unfold State.acJudge
  rw [if_neg regions]
  refine findSome_upTo (i := a - addr) (by omega) ?_ fun j hj => ?_
  · rw [whole, State.acForbids_eq_some.2 forbids]
    rfl
  · rw [State.acForbids_eq_none.2 (passes j hj), Option.map_none]

theorem Passes.access {s : State} {u kind addr len : Nat} (h : Passes s u kind addr len) (requester : Nat) :
    s.acAccess u kind requester addr len = (s, true) := by
  rw [State.acAccess, h.judged]

theorem FirstForbidden.access {s : State} {u kind addr len a n : Nat} (h : FirstForbidden s u kind addr len a n)
    (requester : Nat) : s.acAccess u kind requester addr len = (s.acViolation u kind requester len a n, false) := by
  rw [State.acAccess, h.judged]

/-! What an event that is raised sends and writes (R335 to R339, R404). -/

/-- The registers of the event engine, and the record of the DMA unit. -/
def raiseReg (off : Nat) : Prop := (off = 0x2008 ∨ (0x3000 ≤ off ∧ off < 0x4000)) ∨ (0xC070 ≤ off ∧ off < 0xC080)

/-- A run of changes of the event engine: it writes its registers and the record of the DMA unit alone, and sends messages
and event records. -/
structure Raising (s t : State) : Prop where
  regs : RegsBut raiseReg s t
  sent : ∃ os, t.out = s.out ++ os ∧ ∀ o ∈ os, (∃ v, o = .msix v) ∨ ∃ a b, o = .host a b
  queue : t.recorder.queue = s.recorder.queue

theorem Raising.of_same {s t : State} (regs : t.regs = s.regs) (out : t.out = s.out)
    (queue : t.recorder.queue = s.recorder.queue) : Raising s t :=
  ⟨RegsBut.rfl.same regs, ⟨[], by rw [out, List.append_nil], nofun⟩, queue⟩

theorem Raising.rfl {s : State} : Raising s s := .of_same (Eq.refl _) (Eq.refl _) (Eq.refl _)

theorem Raising.trans {s t u : State} (h : Raising s t) (g : Raising t u) : Raising s u := by
  obtain ⟨regs, ⟨os, sent, events⟩, queue⟩ := h
  obtain ⟨regs', ⟨os', sent', events'⟩, queue'⟩ := g
  refine ⟨regs.trans regs', ⟨os ++ os', by rw [sent', sent, List.append_assoc], fun o ho => ?_⟩, queue'.trans queue⟩
  exact (List.mem_append.1 ho).elim (events o) (events' o)

theorem Raising.wr {s t : State} (h : Raising s t) {f : Fld} (v : Nat) (low : f.lo < 32) (own : raiseReg f.off) :
    Raising s (t.wr f v) := ⟨h.regs.wr f v low own, h.sent, h.queue⟩

theorem Raising.ite {s t u : State} {c : Prop} [Decidable c] (h : Raising s t) (g : Raising s u) :
    Raising s (if c then t else u) := by
  split <;> assumption

theorem State.fireTrigger_sent (s : State) (n src a b : Nat) :
    (s.fireTrigger n src a b).out = s.out ∧ (s.fireTrigger n src a b).recorder.queue = s.recorder.queue := by
  unfold State.fireTrigger
  simp only
  repeat' split
  all_goals exact ⟨Eq.refl _, Eq.refl _⟩

theorem State.fireSource_raising (s : State) (src a b : Nat) : Raising s (s.fireSource src a b) := by
  have sent : (s.fireSource src a b).out = s.out ∧ (s.fireSource src a b).recorder.queue = s.recorder.queue := by
    unfold State.fireSource
    refine List.foldlRecOn _ _ (motive := fun u : State => u.out = s.out ∧ u.recorder.queue = s.recorder.queue)
      ⟨Eq.refl _, Eq.refl _⟩ fun u hu n _ => ?_
    split
    · exact ⟨(u.fireTrigger_sent n src a b).1.trans hu.1, (u.fireTrigger_sent n src a b).2.trans hu.2⟩
    · exact hu
  exact .of_same (s.fireSource_regs _ _ _) sent.1 sent.2

theorem State.sendMsix_raising (s : State) {v : Nat} (hv : v < 128) : Raising s (s.sendMsix v) := by
  have own : raiseReg (F.MSIX_PBA_pending (v / 32)).off := by
    simp only [raiseReg, F.MSIX_PBA_pending]
    omega
  unfold State.sendMsix
  refine .ite ?_ ⟨RegsBut.rfl.same (Eq.refl _), ⟨[.msix v], Eq.refl _, by simp⟩, Eq.refl _⟩
  exact ⟨(RegsBut.rfl.same (by exact Eq.refl s.regs)).wr _ _ (Nat.zero_lt_succ _) own, ⟨[], (List.append_nil _).symm, nofun⟩, Eq.refl _⟩

theorem State.countMsix_raising (s : State) {v : Nat} (hv : v < 128) : Raising s (s.countMsix v) :=
  .ite (s.sendMsix_raising hv) (.of_same (Eq.refl _) (Eq.refl _) (Eq.refl _))

theorem Raising.setRaised {s t : State} (h : Raising s t) {n : Nat} (hn : n < 4) (v : Nat) :
    Raising s (t.wr (F.EVT_RAISED_raised n) v) :=
  h.wr v (Nat.zero_lt_succ _) (by
    simp only [raiseReg, F.EVT_RAISED_raised]
    omega)

theorem Raising.raiseQuiet {s t : State} (h : Raising s t) {src : Nat} (hs : src < 128) (a b : Nat) :
    Raising s (t.raiseQuiet src a b) := by
  have told := (h.trans (t.fireSource_raising src a b)).setRaised (n := src / 32) (by omega)
    (setBit ((t.fireSource src a b).rd (F.EVT_RAISED_raised (src / 32))) (src % 32) true)
  exact .ite told (told.trans (State.countMsix_raising _ hs))

theorem State.acNote_recorder (s : State) (u kind requester len a n : Nat) :
    (s.acNote u kind requester len a n).recorder = s.recorder := (s.acNote_keeps _ _ _ _ _ _).parts .recorder (by decide)

/-- A refused access writes its unit's record alone (R408). -/
theorem State.acNote_unit (s : State) (u kind requester len a n : Nat) :
    RegsBut (fun o => 0xC040 + 16 * u ≤ o ∧ o < 0xC050 + 16 * u) s (s.acNote u kind requester len a n) := by
  have wr {t : State} (h : RegsBut (fun o => 0xC040 + 16 * u ≤ o ∧ o < 0xC050 + 16 * u) s t) (f : Fld) (v : Nat)
      (low : f.lo < 32) (own : f.off ∈ [49216 + 16 * u, 49220 + 16 * u, 49224 + 16 * u, 49228 + 16 * u]) :
      RegsBut (fun o => 0xC040 + 16 * u ≤ o ∧ o < 0xC050 + 16 * u) s (t.wr f v) := by
    simp only [List.mem_cons, List.not_mem_nil, or_false] at own
    exact h.wr f v low ⟨by omega, by omega⟩
  have counted := wr .rfl (F.AC_VIOL_COUNT_count u) (min (s.rd (F.AC_VIOL_COUNT_count u) + 1) (2 ^ 32 - 1)) (by simp [F.AC_VIOL_COUNT_count])
    (by simp [F.AC_VIOL_COUNT_count])
  unfold State.acNote
  refine .ite counted ?_
  refine wr (wr (wr (wr (wr (wr (wr (wr counted (F.AC_VIOL_INFO_valid u) _ ?_ ?_) (F.AC_VIOL_INFO_kind u) _ ?_ ?_)
    (F.AC_VIOL_INFO_region u) _ ?_ ?_) (F.AC_VIOL_INFO_requester u) _ ?_ ?_) (F.AC_VIOL_INFO_length u) _ ?_ ?_)
    (F.AC_VIOL_INFO_locked u) _ ?_ ?_) (F.AC_VIOL_ADDR_LO_addr u) _ ?_ ?_) (F.AC_VIOL_ADDR_HI_addr u) _ ?_ ?_
  all_goals simp [F.AC_VIOL_INFO_valid, F.AC_VIOL_INFO_kind, F.AC_VIOL_INFO_region, F.AC_VIOL_INFO_requester,
    F.AC_VIOL_INFO_length, F.AC_VIOL_INFO_locked, F.AC_VIOL_ADDR_LO_addr, F.AC_VIOL_ADDR_HI_addr]

theorem State.acNote_out (s : State) (u kind requester len a n : Nat) : (s.acNote u kind requester len a n).out = s.out := by
  unfold State.acNote
  simp only
  split <;> rfl

theorem State.refuseEvent_raising (s : State) (a n : Nat) : Raising s (s.refuseEvent a n) := by
  have noted : Raising s (s.acNote 3 1 4 32 a n) :=
    ⟨(s.acNote_unit 3 1 4 32 a n).mono fun _ => .inr, ⟨[], by rw [State.acNote_out, List.append_nil], nofun⟩, by
      rw [State.acNote_recorder]⟩
  have told := (noted.wr (f := F.HOST_ERR_err) (setBit ((s.acNote 3 1 4 32 a n).rd F.HOST_ERR_err) 4 true) (by decide)
    (.inl (by decide))).raiseQuiet (src := 6) (by decide)
  exact .ite ((told _ _).raiseQuiet (by decide) _ _) (told _ _)

theorem State.writeEvent_raising (s : State) (src a b : Nat) : Raising s (s.writeEvent src a b) := by
  unfold State.writeEvent
  simp only
  split
  · have lost : Raising s (s.inc F.EVT_LOST_count) := Raising.rfl.wr _ (by decide) (.inl (by decide))
    have dropped := lost.trans (.of_same (t := { s.inc F.EVT_LOST_count with
      host := { s.host with evtDropped := s.host.evtDropped + 1 } }) (Eq.refl _) (Eq.refl _) (Eq.refl _))
    split
    · exact .ite (dropped.setRaised (by decide) _) ((dropped.setRaised (by decide) _).trans (State.countMsix_raising _ (by decide)))
    · exact dropped
  · split
    · exact s.refuseEvent_raising _ _
    · exact ⟨RegsBut.rfl.same (Eq.refl _), ⟨[_], Eq.refl _, by simp⟩, Eq.refl _⟩

/-- An event source that is raised. -/
theorem State.raiseSource_raising (s : State) {src : Nat} (hs : src < 128) (a b : Nat) : Raising s (s.raiseSource src a b) := by
  have fired := s.fireSource_raising src a b
  have told := fired.setRaised (n := src / 32) (by omega)
    (setBit ((s.fireSource src a b).rd (F.EVT_RAISED_raised (src / 32))) (src % 32) true)
  unfold State.raiseSource
  refine .ite fired ?_
  have recorded {c : Bool} {t : State} (h : Raising s t) : Raising s (if c then t.writeEvent src a b else t) :=
    .ite (h.trans (t.writeEvent_raising _ _ _)) h
  exact .ite (recorded told) ((recorded told).trans (State.countMsix_raising _ hs))

/-- The record of a refused access, where the unit's record was free, and where it was not (R408). -/
theorem State.acNote_shows (s : State) {u kind requester len n : Nat} (a : Nat) (hk : kind < 4) (hr : requester < 256)
    (hl : len < 2 ^ 13) (hn : n < 32) :
    let t := s.acNote u kind requester len a n
    t.rd (F.AC_VIOL_COUNT_count u) = min (s.rd (F.AC_VIOL_COUNT_count u) + 1) (2 ^ 32 - 1) ∧
      t.rd (F.AC_VIOL_INFO_valid u) = 1 ∧
      (s.rd (F.AC_VIOL_INFO_valid u) = 1 → t.rd (F.AC_VIOL_ADDR_LO_addr u) = s.rd (F.AC_VIOL_ADDR_LO_addr u)) ∧
      (s.rd (F.AC_VIOL_INFO_valid u) = 0 → t.rd (F.AC_VIOL_INFO_kind u) = kind ∧ t.rd (F.AC_VIOL_INFO_region u) = n ∧
        t.rd (F.AC_VIOL_INFO_requester u) = requester ∧ t.rd (F.AC_VIOL_INFO_length u) = len ∧
        t.rd (F.AC_VIOL_INFO_locked u) = bit (bitOf (s.rd (F.AC_LOCK_lock u)) n) ∧
        t.rd (F.AC_VIOL_ADDR_LO_addr u) = a % 2 ^ 32 ∧ t.rd (F.AC_VIOL_ADDR_HI_addr u) = a / 2 ^ 32 % 2 ^ 32) := by
  have count : min (s.rd (F.AC_VIOL_COUNT_count u) + 1) (2 ^ 32 - 1) < 2 ^ 32 := by omega
  by_cases h : s.rd (F.AC_VIOL_INFO_valid u) = 1
  · have held : (s.inc (F.AC_VIOL_COUNT_count u)).rd (F.AC_VIOL_INFO_valid u) = 1 := by
      rw [State.inc, State.rd_add_ne _ _ _ _ (by simp only [Fld.key, F.AC_VIOL_COUNT_count, F.AC_VIOL_INFO_valid]; omega), h]
    have noted : s.acNote u kind requester len a n = s.inc (F.AC_VIOL_COUNT_count u) := if_pos (by simp [State.on, held])
    simp only [noted, held, h]
    refine ⟨?_, trivial, fun _ => ?_, nofun⟩
    · rw [State.inc, State.add, State.rd_wr_same]
      exact Nat.mod_eq_of_lt count
    · rw [State.inc, State.rd_add_ne _ _ _ _ (by simp only [Fld.key, F.AC_VIOL_COUNT_count, F.AC_VIOL_ADDR_LO_addr]; omega)]
  · have free : (s.inc (F.AC_VIOL_COUNT_count u)).rd (F.AC_VIOL_INFO_valid u) ≠ 1 := by
      rwa [State.inc, State.rd_add_ne _ _ _ _ (by simp only [Fld.key, F.AC_VIOL_COUNT_count, F.AC_VIOL_INFO_valid]; omega)]
    unfold State.acNote State.wrb
    simp only [State.on, free, beq_iff_eq, if_false]
    unfold State.inc State.add
    simp (disch := (simp only [Fld.key, F.AC_VIOL_INFO_valid, F.AC_VIOL_INFO_kind, F.AC_VIOL_INFO_region,
      F.AC_VIOL_INFO_requester, F.AC_VIOL_INFO_length, F.AC_VIOL_INFO_locked, F.AC_VIOL_ADDR_LO_addr, F.AC_VIOL_ADDR_HI_addr,
      F.AC_VIOL_COUNT_count, F.AC_LOCK_lock]; omega)) only [State.rd_wr_ne, State.rd_wr_same]
    exact ⟨Nat.mod_eq_of_lt count, Eq.refl _, fun k => absurd k h, fun _ => ⟨Nat.mod_eq_of_lt hk, Nat.mod_eq_of_lt hn,
      Nat.mod_eq_of_lt hr, Nat.mod_eq_of_lt hl, Nat.mod_eq_of_lt (bit_lt_two _), Nat.mod_mod _ _,
      by rw [Nat.shiftRight_eq_div_pow]; rfl⟩⟩

/-- An event source leaves the records of the units of the host, the debug port and the test port. -/
theorem Raising.viol {s t : State} (h : Raising s t) {u : Nat} (hu : u < 3) {f : Fld} (low : f.lo < 32)
    (own : f.off ∈ [49216 + 16 * u, 49220 + 16 * u, 49224 + 16 * u, 49228 + 16 * u]) : t.rd f = s.rd f := by
  simp only [List.mem_cons, List.not_mem_nil, or_false] at own
  exact h.regs f low (by unfold raiseReg; omega)

/-- An event bit that is set, and the source that it raises, leave the recorder's queue. -/
theorem State.setEvt_queue (s : State) (f en : Fld) (bits : Nat) {src : Nat} (hs : src < 128) (offA offB : Nat) :
    (s.setEvt f en bits src offA offB).recorder.queue = s.recorder.queue := by
  unfold State.setEvt
  simp only
  split
  · rfl
  · exact (State.raiseSource_raising _ hs _ _).queue

/-- A refused access of a unit other than the event engine's own (R404, R408). -/
theorem State.acViolation_shows (s : State) {u kind requester len n : Nat} (a : Nat) (hu : u < 3) (hk : kind < 4)
    (hr : requester < 256) (hl : len < 2 ^ 13) (hn : n < 32) :
    Violated s (s.acViolation u kind requester len a n) u kind requester len a n := by
  have noted := s.acNote_shows (u := u) a hk hr hl hn
  set t := s.acNote u kind requester len a n with ht
  have raised (x y : Nat) : Raising t (t.raiseSource 114 x y) := t.raiseSource_raising (by decide) x y
  have keep {x y : Nat} {f : Fld} (low : f.lo < 32)
      (own : f.off ∈ [49216 + 16 * u, 49220 + 16 * u, 49224 + 16 * u, 49228 + 16 * u]) :
      (t.raiseSource 114 x y).rd f = t.rd f := (raised x y).viol hu low own
  obtain ⟨count, valid, held, free⟩ := noted
  unfold State.acViolation
  rw [← ht]
  by_cases first : s.on (F.AC_VIOL_INFO_valid u) = true
  · have one : s.rd (F.AC_VIOL_INFO_valid u) = 1 := by simpa [State.on] using first
    simp only [first, Bool.not_true, Bool.false_eq_true, if_false]
    exact ⟨count, valid, held, fun zero => absurd (one.symm.trans zero) Nat.one_ne_zero⟩
  · have zero : s.rd (F.AC_VIOL_INFO_valid u) ≠ 1 := by simpa [State.on] using first
    simp only [first, Bool.not_false, if_true]
    refine ⟨?_, ?_, fun one => absurd one zero, fun zero => ?_⟩
    · rw [keep (Nat.zero_lt_succ _) (by simp [F.AC_VIOL_COUNT_count]), count]
    · rw [keep (Nat.zero_lt_succ _) (by simp [F.AC_VIOL_INFO_valid]), valid]
    · obtain ⟨kind_, region, asker, length, locked, low, high⟩ := free zero
      refine ⟨?_, ?_, ?_, ?_, ?_, ?_, ?_, fun on => ?_⟩
      · rw [keep (by simp [F.AC_VIOL_INFO_kind]) (by simp [F.AC_VIOL_INFO_kind]), kind_]
      · rw [keep (by simp [F.AC_VIOL_INFO_region]) (by simp [F.AC_VIOL_INFO_region]), region]
      · rw [keep (by simp [F.AC_VIOL_INFO_requester]) (by simp [F.AC_VIOL_INFO_requester]), asker]
      · rw [keep (by simp [F.AC_VIOL_INFO_length]) (by simp [F.AC_VIOL_INFO_length]), length]
      · rw [keep (by simp [F.AC_VIOL_INFO_locked]) (by simp [F.AC_VIOL_INFO_locked]), locked]
      · rw [keep (Nat.zero_lt_succ _) (by simp [F.AC_VIOL_ADDR_LO_addr]), low]
      · rw [keep (Nat.zero_lt_succ _) (by simp [F.AC_VIOL_ADDR_HI_addr]), high]
      · refine State.raiseSource_recorded (src := 114) ?_ (by decide) _ _
        rw [ht, State.pd, s.acNote_unit u _ _ _ _ _ _ (by decide) (by simp only [F.PWR_DOMAINS_on]; omega)]
        exact on

theorem FirstForbidden.shows {s : State} {u kind addr len a n requester : Nat} (h : FirstForbidden s u kind addr len a n)
    (hu : u < 3) (hk : kind < 4) (hr : requester < 256) (hl : len < 2 ^ 13) :
    Violated s (s.acViolation u kind requester len a n) u kind requester len a n :=
  s.acViolation_shows a hu hk hr hl h.2.2.1.1.1

/-! Internal memory (R320). -/

theorem InRam.memAt {s : State} {a len : Nat} (h : InRam s a len) : s.memAt a len = some 0 ∨ s.memAt a len = some 2 := by
  unfold State.memAt
  rcases h with ⟨below, on⟩ | ⟨low, high, on⟩
  · exact .inl (by simp [below, on])
  · exact .inr (by simp [on, low, high, show ¬a + len ≤ 0x3000000 by omega, show ¬a + len ≤ 0x108000000 by omega])

theorem InMram.memAt {s : State} {a len : Nat} (h : InMram s a len) : s.memAt a len = some 1 := by
  obtain ⟨low, high, on⟩ := h
  unfold State.memAt
  simp [on, low, high, show ¬a + len ≤ 0x3000000 by omega]

theorem memAt_none {s : State} {a len : Nat} (ram : ¬InRam s a len) (mram : ¬InMram s a len) : s.memAt a len = none := by
  unfold State.memAt
  unfold InRam at ram
  unfold InMram at mram
  simp only [Bool.and_eq_true, decide_eq_true_eq, Nat.zero_le, true_and]
  split_ifs <;> simp_all

theorem memAt_ram {s : State} {a len : Nat} (ram : ¬InRam s a len) : s.memAt a len = none ∨ s.memAt a len = some 1 := by
  by_cases mram : InMram s a len
  · exact .inr mram.memAt
  · exact .inl (memAt_none ram mram)

/-- Bytes that are put stand in memory. -/
theorem memPut_find_at (b : Bytes) {m : List Host.Cell} {a i : Nat} (hi : i < b.length) :
    some (SMap.getD (memPut m a b) (a + i) memDefault) = b[i]? := by
  induction b generalizing m a i with
  | nil => exact absurd hi (Nat.not_lt_zero i)
  | cons c b ih =>
    cases i with
    | zero =>
      have kept : SMap.getD (memPut (SMap.set m a memDefault c) (a + 1) b) a memDefault =
          SMap.getD (SMap.set m a memDefault c) a memDefault := by
        rw [SMap.getD, memPut_find_ne _ _ _ (.inl (Nat.lt_succ_self a))]
        rfl
      exact congrArg some (kept.trans (SMap.getD_set_same _ _ _ _))
    | succ i =>
      have rest := ih (m := SMap.set m a memDefault c) (a := a + 1) (Nat.lt_of_succ_lt_succ hi)
      rw [Nat.add_right_comm, Nat.add_assoc] at rest
      exact rest

theorem State.memWrite_stored (s : State) (a : Nat) (b : Bytes) : Stored s (s.memWrite a b) a b := by
  refine ⟨fun i hi => memPut_find_at b hi, fun x out => ?_⟩
  unfold State.memByte SMap.getD
  exact congrArg (Option.getD · memDefault) (memPut_find_ne a b x out)

/-! A write of a word to a register that is staged (R346, R347). -/

theorem fieldRows_low : ∀ r ∈ fieldRows, r.lo < 32 := by
  have all : fieldRows.all (fun r => Nat.blt r.lo 32) = true := by
    unfold fieldRows
    repeat rw [List.all_append]
    rfl
  intro r hr
  have low := List.all_eq_true.1 all r hr
  rwa [Nat.blt_eq] at low

theorem State.writeField_regs {s t : State} {off : Nat} (v : Nat) {r : FieldRow} (hr : r ∈ rowsAt off)
    (h : RegsBut (· = off) s t) : RegsBut (· = off) s (t.writeField off v r) := by
  have low : (r.fld off).lo < 32 := fieldRows_low r (List.mem_filter.1 hr).1
  have wr (x : Nat) := h.wr (r.fld off) x low (Eq.refl off)
  unfold State.writeField
  cases r.ty with
  | rwl => exact .ite h (wr _)
  | rw | w1c | w1s => exact wr _
  | ro | wo | stg => exact h

theorem State.mapOff_high (s : State) {off : Nat} (h : 0x20000 ≤ off) : 0x20000 ≤ s.mapOff off := by
  unfold State.mapOff slotPolBase
  split <;> omega

theorem State.restage_hop (s : State) : s.restage.hop = s.hop := rfl

theorem State.regWrite_staged (s : State) {off : Nat} (low : 0x20000 ≤ off) (high : off < 0x80000) (v : Nat) :
    StagedAt s (s.regWrite off v) off v := by
  have free : s.holdsWrite off = false := by
    unfold State.holdsWrite
    repeat rw [if_neg (by omega)]
  have shared : ownWrite off = false := by
    unfold ownWrite
    simp
    omega
  by_cases on : s.pd (blockPd off) = true
  · set m := (rowsAt (s.mapOff off)).foldl (State.writeField (s.mapOff off) v) s with hm
    have written : s.regWrite off v = m.stageBar0 (s.mapOff off) v := by
      have nothing (t : State) : t.writeHigh off v = t := by
        unfold State.writeHigh
        rw [if_neg (by omega), if_neg (by omega)]
      unfold State.regWrite
      simp only [on, free, shared, Bool.not_true, Bool.or_self, Bool.false_eq_true, if_false, nothing]
      rw [if_neg (by omega), if_neg (by omega)]
    have regs : RegsBut (· = s.mapOff off) s m := RegsBut.foldl _ _ .rfl fun u r hr h => State.writeField_regs v hr h
    have keeps : Keeps [] s m := Keeps.foldl _ _ .rfl fun u r h => Keeps.next h (State.writeField_keeps _ _ u r) (by decide)
    have hop : m.hop = s.hop := keeps.parts .hop (by decide)
    have image : m.image = s.image := keeps.parts .image (by decide)
    have role : m.isActive = s.isActive := by
      have far := s.mapOff_high low
      have state : m.plyState = s.plyState := regs F.PLY_STATUS_state (by decide) (by simp only [F.PLY_STATUS_state]; omega)
      rw [State.isActive, State.isActive, state]
    rw [written]
    unfold State.stageBar0
    by_cases none_ : stgRows (s.mapOff off) = []
    · have same : stageWord s.hop.staged (s.mapOff off) v = s.hop.staged := by
        unfold stageWord
        simp only [none_, List.foldl_nil]
        rw [if_neg (by omega)]
      rw [if_pos none_]
      refine ⟨by rw [hop], image, fun _ => hop, fun _ => ⟨fun _ => by rw [hop, same], fun _ => ⟨hop, fun h => absurd none_ h⟩⟩⟩
    · rw [if_neg none_, role]
      cases hs : s.isActive with
      | true =>
        exact ⟨congrArg (·.active) hop, image, fun off => absurd on (by simp [off]), fun _ => ⟨fun _ => by rw [← hop]; rfl, fun h => absurd (hs.symm.trans h) (by decide)⟩⟩
      | false =>
        exact ⟨congrArg (·.active) hop, image, fun off => absurd on (by simp [off]), fun _ => ⟨fun h => absurd (hs.symm.trans h) (by decide),
          fun _ => ⟨hop, fun _ => State.rd_wr_same _ _ _⟩⟩⟩
  · have off_ : s.pd (blockPd off) = false := by simpa using on
    have same : s.regWrite off v = s := if_pos (by simp [off_])
    rw [same]
    exact ⟨Eq.refl _, Eq.refl _, fun _ => Eq.refl _, fun h => absurd h on⟩

end Sys2Proof.Machine

/-! PROOFS. O52: the host's accesses. -/

namespace Sys2Proof.Machine

/-! What a refused access leaves and sends. -/

/-- What a refused access leaves: memory, the hopper, the image and the ladder. -/
theorem State.acViolation_kept (s : State) (u kind requester len a n : Nat) :
    let t := s.acViolation u kind requester len a n
    t.mem = s.mem ∧ t.hop = s.hop ∧ t.image = s.image ∧ t.pwr = s.pwr := by
  have keeps := s.acViolation_keeps u kind requester len a n
  exact ⟨keeps.parts .mem (by decide), keeps.parts .hop (by decide), keeps.parts .image (by decide),
    keeps.parts .pwr (by decide)⟩

/-- A refused access sends messages and event records alone. -/
theorem State.acViolation_sent (s : State) (u kind requester len a n : Nat) :
    ∃ os, (s.acViolation u kind requester len a n).out = s.out ++ os ∧
      ∀ o ∈ os, (∃ v, o = .msix v) ∨ ∃ x y, o = .host x y := by
  unfold State.acViolation
  simp only
  split
  · rw [← s.acNote_out u kind requester len a n]
    exact (State.raiseSource_raising _ (by decide) _ _).sent
  · exact ⟨[], by rw [State.acNote_out, List.append_nil], nofun⟩

/-! Accesses of BAR2 that the HOST unit passes (R320, R404). -/

theorem State.traceEcc_out (s : State) (a len : Nat) : (s.traceEcc a len).out = s.out := by
  unfold State.traceEcc
  refine List.foldlRecOn _ _ (motive := fun u : State => u.out = s.out) (Eq.refl _) fun u hu n _ => ?_
  simp only
  split <;> exact hu

/-- What reads keep. -/
theorem State.bar2Read_kept (s : State) (a len : Nat) (ecc : Bool) :
    let t := s.bar2Read a len ecc
    t.mem = s.mem ∧ t.hop = s.hop ∧ t.image = s.image ∧ t.pwr = s.pwr := by
  have keeps := s.bar2Read_keeps a len ecc
  exact ⟨keeps.parts .mem (by decide), keeps.parts .hop (by decide), keeps.parts .image (by decide),
    keeps.parts .pwr (by decide)⟩

/-- An access that no memory answers is aborted. -/
theorem State.bar2Read_none {s : State} {a len : Nat} {ecc : Bool} (none_ : s.memAt a len = none) :
    s.bar2Read a len ecc = s.abort := by
  simp [State.bar2Read, State.intRead, none_]

/-- A read of the bins or the DRAM without an error. -/
theorem State.bar2Read_ram {s : State} {a len : Nat} {ecc : Bool} (ram : InRam s a len)
    (sound : a + len ≤ 0x3000000 ∨ ecc = false) :
    s.bar2Read a len ecc = s.emit (.bar (some ((upTo len).map (fun i => s.memByte (a + i))))) := by
  have clean : (ecc && s.memAt a len == some 2) = false := by
    rcases sound with below | sound
    · have zero : s.memAt a len = some 0 := by
        rcases ram with ⟨_, on⟩ | ⟨low, _, _⟩
        · simp [State.memAt, below, on]
        · omega
      simp [zero]
    · simp [sound]
  unfold State.bar2Read State.intRead State.memRead
  rw [clean]
  rcases ram.memAt with h | h <;> simp [h]

/-- An uncorrectable error of the DRAM aborts a read. -/
theorem State.bar2Read_ecc {s : State} {a len : Nat} (ram : InRam s a len) (dram : 0x3000000 < a + len) :
    (s.bar2Read a len true).out = s.out ++ [.bar none] := by
  have two : s.memAt a len = some 2 := by
    rcases ram with ⟨below, _⟩ | ⟨low, high, on⟩
    · omega
    · simp [State.memAt, on, low, high, show ¬a + len ≤ 0x3000000 by omega, show ¬a + len ≤ 0x108000000 by omega]
  have aborted : s.bar2Read a len true = (s.traceEcc a len).abort := by simp [State.bar2Read, two]
  rw [aborted, State.abort, State.emit, State.traceEcc_out]

theorem State.bar2Read_mram {s : State} {a len : Nat} (mram : InMram s a len) (ecc : Bool) :
    ∃ b : Bytes, b.length = len ∧ (s.bar2Read a len ecc).out = s.out ++ [.bar (some b)] := by
  refine ⟨(s.mramRead a len).2, by simp [State.mramRead, upTo], ?_⟩
  simp [State.bar2Read, State.intRead, mram.memAt]
  rfl

theorem State.bar2Write_ram {s : State} {a : Nat} {b : Bytes} (ram : InRam s a b.length) :
    s.bar2Write a b = s.memWrite a b := by
  unfold State.bar2Write
  rcases ram.memAt with h | h <;> simp [h]

theorem State.bar2Write_other {s : State} {a : Nat} {b : Bytes} (ram : ¬InRam s a b.length) :
    s.bar2Write a b = s.wr F.HOST_ERR_err (setBit (s.rd F.HOST_ERR_err) 6 true) := by
  unfold State.bar2Write
  rcases memAt_ram ram with h | h <;> simp [h]

/-! Locks and records (R406, R408). -/

/-- A write of AC_LOCK writes its two registers alone. -/
theorem State.lockRegions_kept (s : State) (u v : Nat) :
    let t := s.lockRegions u v
    t.mem = s.mem ∧ t.hop = s.hop ∧ t.image = s.image ∧ t.pwr = s.pwr := by
  have keeps := s.lockRegions_keeps u v
  exact ⟨keeps.parts .mem (by decide), keeps.parts .hop (by decide), keeps.parts .image (by decide),
    keeps.parts .pwr (by decide)⟩

/-- One region of a write of AC_LOCK. -/
def State.lockRegion (s : State) (u n : Nat) : State :=
  if s.regionArmed u n then s.wr F.AC_STATUS_lock_refused (setBit (s.rd F.AC_STATUS_lock_refused) u true)
  else s.wr (F.AC_LOCK_lock u) (setBit (s.rd (F.AC_LOCK_lock u)) n true)

theorem State.lockRegions_eq {s : State} (on : s.pd .bins = true) (u v : Nat) :
    s.lockRegions u v = (bitsSet 32 v).foldl (fun t n => t.lockRegion u n) s := by
  simp only [State.lockRegions, on, Bool.not_true, Bool.false_eq_true, if_false]
  rfl

theorem State.lockRegion_hop (s : State) (u n : Nat) : (s.lockRegion u n).hop = s.hop := by
  unfold State.lockRegion
  split <;> rfl

theorem State.regionArmed_hop {s t : State} (h : t.hop = s.hop) (u n : Nat) : t.regionArmed u n = s.regionArmed u n := by
  rw [State.regionArmed, State.regionArmed, h]

theorem acLock_ne_refused (u : Nat) (hu : u < 4) : (F.AC_LOCK_lock u).key ≠ F.AC_STATUS_lock_refused.key := by
  simp only [Fld.key, F.AC_LOCK_lock, F.AC_STATUS_lock_refused]
  omega

theorem State.lockRegion_lock (s : State) {u n j : Nat} (hu : u < 4) (hj : j < 32) :
    bitOf ((s.lockRegion u n).rd (F.AC_LOCK_lock u)) j =
      (bitOf (s.rd (F.AC_LOCK_lock u)) j || (decide (n = j) && !s.regionArmed u n)) := by
  unfold State.lockRegion
  cases h : s.regionArmed u n
  · simp only [Bool.false_eq_true, if_false, Bool.not_false, Bool.and_true]
    exact s.bitOf_wr_setBit hj
  · simp only [if_true, Bool.not_true, Bool.and_false, Bool.or_false]
    rw [State.rd_wr_ne _ _ _ _ (acLock_ne_refused u hu).symm]

/-- What the regions of a list leave in the locks. -/
theorem foldl_lockRegion_lock {u j : Nat} (hu : u < 4) (hj : j < 32) (l : List Nat) (s : State) :
    bitOf ((l.foldl (fun t n => t.lockRegion u n) s).rd (F.AC_LOCK_lock u)) j =
      (bitOf (s.rd (F.AC_LOCK_lock u)) j || (decide (j ∈ l) && !s.regionArmed u j)) := by
  induction l generalizing s with
  | nil => simp
  | cons n l ih =>
    rw [List.foldl_cons, ih, s.lockRegion_lock hu hj, State.regionArmed_hop (s.lockRegion_hop u n)]
    by_cases h : n = j
    · subst h
      cases bitOf (s.rd (F.AC_LOCK_lock u)) n <;> cases s.regionArmed u n <;> simp
    · simp [h, Ne.symm h]

theorem mem_bitsSet {n x i : Nat} : i ∈ bitsSet n x ↔ i < n ∧ bitOf x i = true := by
  simp [bitsSet, mem_upTo]

theorem State.lockRegions_lock {s : State} (on : s.pd .bins = true) {u : Nat} (hu : u < 4) (v : Nat) {n : Nat} (hn : n < 32) :
    bitOf ((s.lockRegions u v).rd (F.AC_LOCK_lock u)) n =
      (bitOf (s.rd (F.AC_LOCK_lock u)) n || (bitOf v n && !s.regionArmed u n)) := by
  rw [s.lockRegions_eq on, foldl_lockRegion_lock hu hn]
  simp [mem_bitsSet, hn]

theorem State.lockRegions_refused {s : State} (on : s.pd .bins = true) {u v n : Nat} (hu : u < 4) (hn : n < 32)
    (named : bitOf v n = true) (armed : s.regionArmed u n = true) :
    bitOf ((s.lockRegions u v).rd F.AC_STATUS_lock_refused) u = true := by
  have width : u < F.AC_STATUS_lock_refused.width := hu
  rw [s.lockRegions_eq on]
  refine foldl_reaches (I := fun t : State => t.hop = s.hop) (P := fun t : State => bitOf (t.rd F.AC_STATUS_lock_refused) u = true)
    (mem_bitsSet.2 ⟨hn, named⟩) (Eq.refl _) (fun t h m _ => (t.lockRegion_hop u m).trans h) (fun t h => ?_) (fun t h set m _ => ?_)
  · rw [State.lockRegion, State.regionArmed_hop h, armed, if_pos (Eq.refl _), t.bitOf_wr_setBit width, decide_eq_true (Eq.refl _),
      Bool.or_true]
  · unfold State.lockRegion
    split
    · rw [t.bitOf_wr_setBit width, set, Bool.true_or]
    · rwa [State.rd_wr_ne _ _ _ _ (acLock_ne_refused u hu)]

theorem State.clearViolation_shows {s : State} (on : s.pd .bins = true) (u : Nat) :
    (s.clearViolation u).rd (F.AC_VIOL_INFO_valid u) = 0 ∧
      (s.clearViolation u).rd (F.AC_VIOL_COUNT_count u) = s.rd (F.AC_VIOL_COUNT_count u) := by
  unfold State.clearViolation
  simp only [on, Bool.not_true, Bool.false_eq_true, if_false, List.foldl_cons, List.foldl_nil]
  simp (disch := (simp only [Fld.key, F.AC_VIOL_INFO_valid, F.AC_VIOL_INFO_kind, F.AC_VIOL_INFO_region,
    F.AC_VIOL_INFO_requester, F.AC_VIOL_INFO_length, F.AC_VIOL_INFO_locked, F.AC_VIOL_ADDR_LO_addr, F.AC_VIOL_ADDR_HI_addr,
    F.AC_VIOL_COUNT_count]; omega)) only [State.rd_wr_ne, State.rd_wr_same]
  exact ⟨Nat.zero_mod _, trivial⟩

/-! The accesses (R320, R402). -/

section
variable {s : State} {off : BitVec 28} {len : Fin 4097} {ecc : Bool} {a : Nat}

theorem exec_bar2Access_read_refused (on : s.pd .hostsvc = true)
    (at_ : s.rd F.BAR2_BASE_base * 0x10000000 + off.toNat = a) {x r : Nat}
    (h : FirstForbidden s 0 0 a len.val x r) :
    exec (.bar2Access off len none ecc) s = .next (s.acViolation 0 0 1 len.val x r).abort := by
  change execBar2Access off len none ecc s = _
  simp [execBar2Access, on, at_, h.access, ok]

theorem exec_bar2Access_read (on : s.pd .hostsvc = true) (at_ : s.rd F.BAR2_BASE_base * 0x10000000 + off.toNat = a)
    (h : Passes s 0 0 a len.val) :
    exec (.bar2Access off len none ecc) s = .next (s.bar2Read a len.val ecc) := by
  change execBar2Access off len none ecc s = _
  simp [execBar2Access, on, at_, h.access, ok]

theorem exec_bar2Access_write_refused (on : s.pd .hostsvc = true) (at_ : s.rd F.BAR2_BASE_base * 0x10000000 + off.toNat = a)
    (b : Bytes) {x r : Nat}
    (h : FirstForbidden s 0 1 a len.val x r) :
    exec (.bar2Access off len (some b) ecc) s = .next (s.acViolation 0 1 1 len.val x r) := by
  change execBar2Access off len (some b) ecc s = _
  simp [execBar2Access, on, at_, h.access, ok]

theorem exec_bar2Access_write (on : s.pd .hostsvc = true) (at_ : s.rd F.BAR2_BASE_base * 0x10000000 + off.toNat = a)
    (b : Bytes) (h : Passes s 0 1 a len.val) :
    exec (.bar2Access off len (some b) ecc) s = .next (s.bar2Write a b) := by
  change execBar2Access off len (some b) ecc s = _
  simp [execBar2Access, on, at_, h.access, ok]

end

/-- An error bit of the host's write that is dropped. -/
theorem State.hostErr_set (s : State) {i : Nat} (hi : i < 8) :
    bitOf ((s.wr F.HOST_ERR_err (setBit (s.rd F.HOST_ERR_err) i true)).rd F.HOST_ERR_err) i = true := by
  rw [s.bitOf_wr_setBit (f := F.HOST_ERR_err) hi, decide_eq_true (Eq.refl _), Bool.or_true]

/-- Settles O52: by the judgement of each access, and what the access that passes does. -/
theorem hostAccessesJudged : Obligations.HostAccessesJudged := by
  unfold Obligations.HostAccessesJudged
  intro s on
  refine ⟨fun off len ecc => ?_, fun off v => ?_, fun bins u => ?_⟩
  · have short : len.val < 2 ^ 13 := lt_trans len.isLt (by decide)
    intro a n answers
    have at_ : s.rd F.BAR2_BASE_base * 0x10000000 + off.toNat = a := rfl
    refine ⟨fun x r h => ?_, fun h => ?_, fun b hb => ⟨fun x r h => ?_, fun h => ?_⟩⟩
    · obtain ⟨os, sent, events⟩ := s.acViolation_sent 0 0 1 len.val x r
      refine ⟨_, exec_bar2Access_read_refused on at_ h, h.shows (by decide) (by decide) (by decide) short,
        s.acViolation_kept 0 0 1 len.val x r, List.mem_append_right _ List.mem_cons_self, fun b hb => ?_⟩
      simp only [State.abort, State.emit, sent, List.mem_append, List.mem_cons, List.not_mem_nil, or_false, reduceCtorEq,
        Out.bar.injEq] at hb
      refine hb.resolve_right fun e => ?_
      obtain ⟨_, e⟩ | ⟨_, _, e⟩ := events _ e <;> cases e
    · have run := exec_bar2Access_read (ecc := ecc) (len := len) on at_ h
      have kept := s.bar2Read_kept a len.val ecc
      refine ⟨fun ram sound => ⟨_, run, ?_, kept⟩, fun ram dram err => ⟨_, run, ?_, kept⟩, fun mram => ?_,
        fun ram mram => ⟨_, run, ?_, kept⟩⟩
      · rw [State.bar2Read_ram ram sound]
        rfl
      · rw [err]
        exact State.bar2Read_ecc ram dram
      · obtain ⟨b, length, sent⟩ := State.bar2Read_mram mram ecc
        exact ⟨_, run, b, length, sent, kept⟩
      · rw [State.bar2Read_none (memAt_none ram mram)]
        rfl
    · exact ⟨_, exec_bar2Access_write_refused on at_ b h, h.shows (by decide) (by decide) (by decide) short,
        s.acViolation_kept 0 1 1 len.val x r⟩
    · have run := exec_bar2Access_write (ecc := ecc) (len := len) on at_ b h
      rw [← hb]
      refine ⟨fun ram => ⟨_, run, ?_⟩, fun ram => ⟨_, run, ?_⟩⟩
      · rw [State.bar2Write_ram ram]
        exact ⟨s.memWrite_stored a b, Eq.refl _, Eq.refl _⟩
      · rw [State.bar2Write_other ram]
        exact ⟨⟨Eq.refl _, Eq.refl _, Eq.refl _, Eq.refl _⟩, s.hostErr_set (by decide)⟩
  · refine ⟨fun aligned odd => ?_, fun whole judged x r h => ?_, fun whole low high h => ?_⟩
    · refine ⟨s.wr F.HOST_ERR_err (setBit (s.rd F.HOST_ERR_err) 7 true), ?_, ⟨Eq.refl _, Eq.refl _, Eq.refl _, Eq.refl _⟩,
        s.hostErr_set (by decide)⟩
      change execBar0RegisterWrite off v aligned s = _
      have odd : (!aligned || off.toNat % 4 != 0) = true := by simpa using odd
      simp [execBar0RegisterWrite, on, odd, ok]
    · refine ⟨_, ?_, h.shows (by decide) (by decide) (by decide) (by decide), s.acViolation_kept 0 1 0 4 x r⟩
      change execBar0RegisterWrite off v true s = _
      simp [execBar0RegisterWrite, on, whole, judged, bar0Addr, h.access, ok]
    · refine ⟨_, ?_, s.regWrite_staged low high v.toNat⟩
      change execBar0RegisterWrite off v true s = _
      simp [execBar0RegisterWrite, on, whole, bar0Addr, h.access, ok]
  · refine ⟨fun v => ⟨_, rfl, s.lockRegions_kept _ _, fun n hn => State.lockRegions_lock bins u.isLt _ hn, fun armed => ?_⟩, _, rfl, ?_,
      State.clearViolation_shows bins u.val⟩
    · obtain ⟨n, hn, named, armed⟩ := armed
      exact State.lockRegions_refused bins u.isLt hn named armed
    · have keeps := s.clearViolation_keeps u.val
      exact ⟨keeps.parts .mem (by decide), keeps.parts .hop (by decide), keeps.parts .image (by decide),
        keeps.parts .pwr (by decide)⟩

end Sys2Proof.Machine

/-! PROOFS. O54: the test and debug access port. -/

namespace Sys2Proof.Machine

theorem State.testOk_iff (s : State) : s.testOk = true ↔ s.key = 3 ∧ (s.plyState = 0 ∨ s.plyState = 6) := by
  simp [State.testOk]

theorem State.testOk_false {s : State} (h : s.key ≠ 3 ∨ s.plyState ∉ [0, 6]) : s.testOk = false := by
  rw [← Bool.not_eq_true, State.testOk_iff]
  simp only [List.mem_cons, List.not_mem_nil, or_false] at h
  tauto

/-! The words that a read of the records shifts out (R407, R410). -/

/-- The lowest word of words that are put together. -/
theorem lowWord_words (w : Nat) (ws : List Nat) :
    (w :: ws).foldr (fun w a => w + 2 ^ 32 * a) 0 % 2 ^ 512 % 2 ^ 32 = w % 2 ^ 32 := by
  rw [Nat.mod_mod_of_dvd _ (Nat.pow_dvd_pow 2 (by decide)), List.foldr_cons, Nat.add_mul_mod_self_left]

theorem State.acStat_head (s : State) : ∃ ws, s.acStat = s.bar0Word 0xC010 :: ws := ⟨_, rfl⟩

theorem dbgAcstat_does (s : State) : Does .dbgAcstat s (fun t => ∃ v, v < 2 ^ 512 ∧
    v % 2 ^ 32 = s.bar0Word 0xC010 % 2 ^ 32 ∧ t.dbg.ir = 0x23 ∧ t.out = s.out ++ [.debug v] ∧ t.regs = s.regs ∧ t.mem = s.mem) := by
  obtain ⟨ws, head⟩ := s.acStat_head
  have low := lowWord_words (s.bar0Word 0xC010) ws
  have small := Nat.mod_lt ((s.bar0Word 0xC010 :: ws).foldr (fun w a => w + 2 ^ 32 * a) 0) (Nat.two_pow_pos 512)
  have run : exec .dbgAcstat s =
      .next (s.shiftOut 0x23 (s.acStat.foldr (fun w a => w + 2 ^ 32 * a) 0 % 2 ^ 512)) := by rfl
  rw [head] at run
  generalize (s.bar0Word 0xC010 :: ws).foldr (fun w a => w + 2 ^ 32 * a) 0 % 2 ^ 512 = v at low small run
  exact ⟨_, run, v, small, low, Eq.refl _, Eq.refl _, Eq.refl _, Eq.refl _⟩

/-- A refusal shows in the registers alone. -/
theorem Violated.same {s t v : State} {u kind requester len a n : Nat} (h : Violated s t u kind requester len a n)
    (e : v.regs = t.regs) : Violated s v u kind requester len a n := by
  unfold Violated State.rd at h ⊢
  rwa [e]

/-! Debug accesses (R399, R404). -/

theorem not_inBar0_of_ram {s : State} {a len : Nat} (h : InRam s a len) : inBar0 a = false := by
  unfold inBar0
  rcases h with ⟨below, _⟩ | ⟨low, _, _⟩
  all_goals
    simp
    omega

theorem State.dbgLen_le (s : State) : s.dbgLen < 2 ^ 13 := by
  unfold State.dbgLen
  split <;> decide

/-- A register's read leaves what was sent, where it moves no window of the mill bus. -/
theorem State.regRead_plain (s : State) {off : Nat} (h : off ∉ [0x9C04, 0xAC04, 0x9C54, 0xAC54]) :
    (s.regRead off).2 = s.bar0Word off ∧ (s.regRead off).1.out = s.out := by
  simp only [List.mem_cons, List.not_mem_nil, or_false, not_or] at h
  obtain ⟨lock0, lock1, free0, free1⟩ := h
  simp only [State.regRead, lock0, lock1, free0, free1, if_false, true_and]
  split <;> rfl

/-- A debug read that the DEBUG unit refuses (R404). -/
theorem State.dbgRead_refused {s : State} {x r : Nat} (h : FirstForbidden s 1 0 s.dbgTarget s.dbgLen x r)
    (judged : (inBar0 s.dbgTarget && unjudged (s.dbgTarget - 0x200000000) 0 0) = false) :
    s.dbgRead = (s.acViolation 1 0 0 s.dbgLen x r).dbgDone 0 true := by
  simp [State.dbgRead, judged, h.access]

/-- The answer of the DEBUG unit to an access that passes. -/
theorem State.dbgJudge_passes {s : State} {kind : Nat} (h : Passes s 1 kind s.dbgTarget s.dbgLen) (c : Bool) :
    (if c then (s, true) else s.acAccess 1 kind 0 s.dbgTarget s.dbgLen) = (s, true) := by
  rw [h.access, ite_self]

theorem State.dbgRead_ram {s : State} (h : Passes s 1 0 s.dbgTarget s.dbgLen) (ram : InRam s s.dbgTarget s.dbgLen) :
    s.dbgRead = s.dbgDone (leNat ((upTo s.dbgLen).map (fun i => s.memByte (s.dbgTarget + i)))) false := by
  have read : s.intRead s.dbgTarget s.dbgLen = (s, some (s.memRead s.dbgTarget s.dbgLen)) := by
    rcases ram.memAt with h | h <;> simp [State.intRead, h]
  unfold State.dbgRead
  simp only [State.dbgJudge_passes h, not_inBar0_of_ram ram, read, Bool.false_eq_true, if_false]
  rfl

theorem State.dbgRead_register {s : State} (h : Passes s 1 0 s.dbgTarget s.dbgLen) (within : inBar0 s.dbgTarget = true)
    (whole : s.dbgTarget % 4 = 0) (word : s.dbgLen = 4) :
    s.dbgRead = (s.regRead (s.dbgTarget - 0x200000000)).1.dbgDone (s.regRead (s.dbgTarget - 0x200000000)).2 false := by
  unfold State.dbgRead
  simp only [State.dbgJudge_passes h]
  rw [if_pos within, if_pos ⟨word, whole⟩]

theorem State.dbgRead_none {s : State} (h : Passes s 1 0 s.dbgTarget s.dbgLen) (out : inBar0 s.dbgTarget = false)
    (none_ : s.memAt s.dbgTarget s.dbgLen = none) : s.dbgRead = s.dbgDone 0 true := by
  unfold State.dbgRead
  simp only [State.dbgJudge_passes h, out, State.intRead, none_, Bool.false_eq_true, if_false]

theorem State.dbgWriteWord_refused {s : State} {x r : Nat} (v : Nat) (h : FirstForbidden s 1 1 s.dbgTarget s.dbgLen x r)
    (out : inBar0 s.dbgTarget = false) :
    s.dbgWriteWord v = (s.acViolation 1 1 0 s.dbgLen x r).dbgDone v true := by
  simp [State.dbgWriteWord, out, h.access]

theorem State.dbgWriteWord_ram {s : State} (v : Nat) (h : Passes s 1 1 s.dbgTarget s.dbgLen)
    (ram : InRam s s.dbgTarget s.dbgLen) :
    s.dbgWriteWord v = (s.memWrite s.dbgTarget (leBytes s.dbgLen v)).dbgDone v false := by
  unfold State.dbgWriteWord
  simp only [State.dbgJudge_passes h, not_inBar0_of_ram ram, Bool.false_eq_true, if_false]
  rcases ram.memAt with h | h <;> simp [h]

theorem State.dbgWriteWord_register {s : State} (v : Nat) (h : Passes s 1 1 s.dbgTarget s.dbgLen)
    (within : inBar0 s.dbgTarget = true) (whole : s.dbgTarget % 4 = 0) (word : s.dbgLen = 4) :
    s.dbgWriteWord v = (s.regWrite (s.dbgTarget - 0x200000000) v).dbgDone v false := by
  unfold State.dbgWriteWord
  simp only [State.dbgJudge_passes h]
  rw [if_pos within, if_pos ⟨word, whole⟩]

theorem exec_dbgDataCapture_read {s : State} (reads : s.dbgWrites = false) :
    exec .dbgDataCapture s = .next (s.dbgRead.shiftOut 0x21 s.dbgRead.dbg.data) := by
  change execDbgDataCapture s = _
  simp [execDbgDataCapture, reads, ok]

/-- A state in which DBG_DATA is the instruction in force. -/
def State.updating (s : State) : State := { s with dbg := { s.dbg with ir := 0x21 } }

theorem exec_dbgDataUpdate_write {s : State} (writes : s.dbgWrites = true) (v : Word32) :
    exec (.dbgDataUpdate v) s = .next (s.updating.dbgWriteWord v.toNat) :=
  congrArg ok (if_pos writes)

theorem dbgDataCapture_register {s : State} (reads : s.dbgWrites = false) (h : Passes s 1 0 s.dbgTarget s.dbgLen)
    (within : inBar0 s.dbgTarget = true) (whole : s.dbgTarget % 4 = 0) (word : s.dbgLen = 4) {off : Nat}
    (at_ : s.dbgTarget - 0x200000000 = off) (plain : off ∉ [0x9C04, 0xAC04, 0x9C54, 0xAC54]) :
    Does .dbgDataCapture s (fun t => (t.dbg.data = s.bar0Word off ∧ t.dbg.error = false) ∧
      t.out = s.out ++ [.debug (s.bar0Word off)]) := by
  obtain ⟨value, sent⟩ := s.regRead_plain plain
  have run := exec_dbgDataCapture_read reads
  rw [State.dbgRead_register h within whole word, at_] at run
  exact ⟨_, run, ⟨value, Eq.refl _⟩, congrArg₂ (fun o v => o ++ [Out.debug v]) sent value⟩

/-- An update of DBG_DATA that the DEBUG unit refuses (R404). -/
theorem dbgDataUpdate_refused {s : State} (writes : s.dbgWrites = true) {x r : Nat} (v : Word32)
    (h : FirstForbidden s 1 1 s.dbgTarget s.dbgLen x r) (out : inBar0 s.dbgTarget = false) :
    Does (.dbgDataUpdate v) s (fun t => t.dbg.error = true ∧ t.mem = s.mem ∧ Violated s t 1 1 0 s.dbgLen x r) := by
  have run := exec_dbgDataUpdate_write writes v
  rw [State.dbgWriteWord_refused (s := s.updating) v.toNat h out] at run
  exact ⟨_, run, Eq.refl _, (s.updating.acViolation_kept 1 1 0 s.dbgLen x r).1,
    FirstForbidden.shows (s := s.updating) h (by decide) (by decide) (by decide) s.dbgLen_le⟩

theorem dbgDataUpdate_ram {s : State} (writes : s.dbgWrites = true) (v : Word32)
    (h : Passes s 1 1 s.dbgTarget s.dbgLen) (ram : InRam s s.dbgTarget s.dbgLen) :
    Does (.dbgDataUpdate v) s (fun t => (t.dbg.data = v.toNat ∧ t.dbg.error = false) ∧
      Stored s t s.dbgTarget (leBytes s.dbgLen v.toNat)) := by
  have run := exec_dbgDataUpdate_write writes v
  rw [State.dbgWriteWord_ram (s := s.updating) v.toNat h ram] at run
  exact ⟨_, run, ⟨Eq.refl _, Eq.refl _⟩, s.updating.memWrite_stored s.dbgTarget (leBytes s.dbgLen v.toNat)⟩

theorem dbgDataUpdate_register {s : State} (writes : s.dbgWrites = true) (v : Word32)
    (h : Passes s 1 1 s.dbgTarget s.dbgLen) (within : inBar0 s.dbgTarget = true) (whole : s.dbgTarget % 4 = 0)
    (word : s.dbgLen = 4) {off : Nat} (at_ : s.dbgTarget - 0x200000000 = off) (low : 0x20000 ≤ off) (high : off < 0x80000) :
    Does (.dbgDataUpdate v) s (fun t => (t.dbg.data = v.toNat ∧ t.dbg.error = false) ∧ StagedAt s t off v.toNat) := by
  have run := exec_dbgDataUpdate_write writes v
  have target : s.updating.dbgTarget = s.dbgTarget := rfl
  rw [State.dbgWriteWord_register (s := s.updating) v.toNat h within whole word, target, at_] at run
  exact ⟨_, run, ⟨Eq.refl _, Eq.refl _⟩, s.updating.regWrite_staged low high v.toNat⟩

/-- Settles O54: by what each instruction shifts out, and what a debug access does that passes or does not. -/
theorem debugPort : Obligations.DebugPort := by
  unfold Obligations.DebugPort
  intro s shifts off data bar0
  have within (h : bar0) : inBar0 s.dbgTarget = true := by
    obtain ⟨low, high, _, _⟩ := h
    simp only [inBar0, Bool.and_eq_true, decide_eq_true_eq]
    omega
  refine ⟨?_, ?_, ?_, fun cells => ⟨?_, fun stop role => ?_, fun no => ?_⟩,
    fun stop role => ?_, fun no => ?_, fun v => ?_, ?_, ?_,
    fun writes => ?_, fun reads => ⟨fun x r h judged place => ?_, fun h => ⟨fun ram => ?_, fun at_ plain => ?_, fun ram mram out => ?_⟩⟩,
    fun writes v => ⟨fun x r h out => ?_, fun h => ⟨fun ram => ?_, fun at_ low high => ?_⟩⟩⟩
  · exact ⟨_, rfl, rfl⟩
  · exact ⟨_, rfl, rfl, rfl, rfl, rfl⟩
  · exact ⟨_, rfl, rfl, rfl, rfl, rfl⟩
  · exact ⟨_, rfl, rfl, rfl, _, rfl, rfl, rfl, rfl⟩
  · have run : exec (.extest cells) s = _ := if_neg (by simp [s.testOk_iff.2 ⟨stop, role⟩])
    exact ⟨_, run, rfl, rfl, _, rfl, rfl, rfl, rfl⟩
  · have run : exec (.extest cells) s = _ := if_pos (by simp [State.testOk_false no])
    exact ⟨_, run, ⟨rfl, rfl, rfl, rfl⟩, rfl, rfl⟩
  · have run : exec .clamp s = _ := if_neg (by simp [s.testOk_iff.2 ⟨stop, role⟩])
    exact ⟨_, run, ⟨rfl, rfl, rfl, rfl⟩, rfl⟩
  · have run : exec .clamp s = _ := if_pos (by simp [State.testOk_false no])
    exact ⟨_, run, ⟨rfl, rfl, rfl, rfl⟩, rfl, rfl⟩
  · exact ⟨_, rfl, ⟨rfl, rfl, rfl, rfl⟩, rfl⟩
  · exact ⟨_, rfl, rfl, rfl, rfl, rfl⟩
  · exact dbgAcstat_does s
  · have run : exec .dbgDataCapture s = .next (s.shiftOut 0x21 s.dbg.data) := by
      change execDbgDataCapture s = _
      simp [execDbgDataCapture, writes, ok]
    exact ⟨_, run, rfl, rfl, rfl, rfl⟩
  · have passed : (inBar0 s.dbgTarget && unjudged off 0 0) = false := by
      rcases place with low | high
      · rw [judged low, Bool.and_false]
      · rw [eq_false_of_ne_true high, Bool.false_and]
    have run := exec_dbgDataCapture_read reads
    rw [State.dbgRead_refused h passed] at run
    have shown := h.shows (requester := 0) (by decide) (by decide) (by decide) s.dbgLen_le
    refine ⟨_, run, ⟨rfl, rfl⟩, shown.same (by rfl), ?_⟩
    exact List.mem_append_right _ List.mem_cons_self
  · have run := exec_dbgDataCapture_read reads
    rw [State.dbgRead_ram h ram] at run
    exact ⟨_, run, ⟨rfl, rfl⟩, rfl, rfl, rfl, rfl⟩
  · exact dbgDataCapture_register reads h (within at_) at_.2.2.1 at_.2.2.2 rfl plain
  · have run := exec_dbgDataCapture_read reads
    rw [State.dbgRead_none h (eq_false_of_ne_true out) (memAt_none ram mram)] at run
    exact ⟨_, run, ⟨rfl, rfl⟩, rfl, rfl, rfl, rfl⟩
  · exact dbgDataUpdate_refused writes v h (eq_false_of_ne_true out)
  · exact dbgDataUpdate_ram writes v h ram
  · exact dbgDataUpdate_register writes v h (within at_) at_.2.2.1 at_.2.2.2 rfl low high

end Sys2Proof.Machine

/-! PROOFS. O28: the recorder. -/

namespace Sys2Proof.Machine

/-- A trigger that is not one of the last-gasp ones is raised, or counted within its holdoff (R413, R414). -/
theorem State.fireTrigger_eq {s : State} (miller : s.pd .miller = true) (on : s.act F.REC_CTRL_enable = 1) {n : Nat}
    (plain : ¬(56 ≤ n ∧ n ≤ 58)) (src a b : Nat) :
    s.fireTrigger n src a b =
      if n ∈ s.recorder.holdoff then
        { s with recorder := { s.recorder with
          heldOff := SMap.put s.recorder.heldOff n (SMap.getD s.recorder.heldOff n 0 + 1) } }
      else { s with recorder := { s.recorder with
        raised := s.recorder.raised ++ [⟨n, src, a, b, s.turn.k, s.workWord⟩]
        holdoff := if s.act (F.REC_TRIG_holdoff_ms n) = 0 then s.recorder.holdoff
          else n :: s.recorder.holdoff.erase n } } := by
  have always : (decide (56 ≤ n) && decide (n ≤ 58)) = false := by simpa using plain
  unfold State.fireTrigger
  simp [miller, State.aon, on, always]

theorem recManual_does {s : State} (miller : s.pd .miller = true) (on : s.act F.REC_CTRL_enable = 1) :
    Does .recManual s (fun t =>
      (63 ∉ s.recorder.holdoff → t.recorder.raised = s.recorder.raised ++ [⟨63, 0xFF, 0, 0, s.turn.k, s.workWord⟩] ∧
        (s.act (F.REC_TRIG_holdoff_ms 63) ≠ 0 → 63 ∈ t.recorder.holdoff)) ∧
      (63 ∈ s.recorder.holdoff → t.recorder.raised = s.recorder.raised ∧
        SMap.find t.recorder.heldOff 63 = some (SMap.getD s.recorder.heldOff 63 0 + 1)) ∧
      t = { s with recorder := t.recorder }) := by
  have run : exec .recManual s = .next (s.fireTrigger 63 0xFF 0 0) := if_pos miller
  rw [State.fireTrigger_eq miller on (by decide)] at run
  by_cases held : 63 ∈ s.recorder.holdoff
  · rw [if_pos held] at run
    exact ⟨_, run, fun free => absurd held free, fun _ => ⟨rfl, SMap.find_put_same _ _ _⟩, rfl⟩
  · rw [if_neg held] at run
    refine ⟨_, run, fun _ => ⟨rfl, fun period => ?_⟩, fun h => absurd h held, rfl⟩
    simp only [if_neg period]
    exact List.mem_cons_self

/-- One raise is due at its trigger. -/
theorem flatMap_filter_trigger {r : RecRaise} {n : Nat} (h : r.trigger < n) :
    (upTo n).flatMap (fun i => [r].filter (fun x => x.trigger == i)) = [r] := by
  obtain ⟨k, rfl⟩ := Nat.exists_eq_add_of_lt h
  have away {l : List Nat} (h : ∀ i ∈ l, r.trigger ≠ i) : l.flatMap (fun i => [r].filter (fun x => x.trigger == i)) = [] := by
    refine List.flatMap_eq_nil_iff.2 fun i hi => ?_
    simp [h i hi]
  rw [upTo, Nat.add_assoc, List.range_add, List.range_succ_eq_map, List.map_cons, List.flatMap_append, List.flatMap_cons,
    away fun i hi => (List.mem_range.1 hi).ne', away (by simp)]
  simp

/-- The queue takes a snapshot that is not a last-gasp one last, where there is room (R418). -/
theorem State.queueRecord_eq {s : State} {e : RecEntry} (plain : e.trigger < 56) (free : s.rd F.REC_STATUS_full = 0)
    (room : s.recorder.queue.length < 16) :
    s.queueRecord e = { s with recorder := { s.recorder with queue := s.recorder.queue ++ [e] } }.wr F.REC_STATUS_queued
      (s.recorder.queue.length + 1) := by
  unfold State.queueRecord
  simp [State.on, free, show ¬56 ≤ e.trigger by omega, show ¬16 ≤ s.recorder.queue.length by omega]

theorem recSnapshot_does {s : State} (miller : s.pd .miller = true) {r : RecRaise} (one : s.recorder.raised = [r])
    (plain : r.trigger < 56) (free : s.rd F.REC_STATUS_full = 0) (room : s.recorder.queue.length < 16) :
    Does .recSnapshot s (fun t =>
      t.recorder.raised = [] ∧ t.recorder.queue = s.recorder.queue ++ [⟨r.trigger, s.recBody r s.turn.k⟩] ∧
        t.rd F.REC_STATUS_queued = s.recorder.queue.length + 1 ∧ t.recorder.records = s.recorder.records ∧
        SMap.find t.recorder.heldOff r.trigger = none ∧ RegsIn [.log] s t) := by
  let u : State := { s with recorder := { s.recorder with raised := [], heldOff := SMap.del s.recorder.heldOff r.trigger } }
  have run : exec .recSnapshot s = .next (u.queueRecord ⟨r.trigger, s.recBody r s.turn.k⟩) := by
    change execRecSnapshot s = _
    have due := flatMap_filter_trigger (r := r) (n := 64) (by omega)
    simp only [execRecSnapshot, miller, one, due, Bool.not_true, Bool.false_eq_true, if_false]
    rfl
  rw [State.queueRecord_eq (s := u) plain free room] at run
  refine ⟨_, run, rfl, rfl, ?_, rfl, SMap.find_del_same _ _, ?_⟩
  · rw [State.rd_wr_same]
    exact Nat.mod_eq_of_lt (lt_of_le_of_lt room (by decide))
  · exact RegsIn.wr (A := [.log]) F.REC_STATUS_queued _ .log (RegsIn.of_regs rfl) (by decide) (by decide) (by decide) (by decide)

/-- What an event of the recorder leaves: its registers but the events, the queue and the log. -/
theorem State.recEvt_leaves (s : State) (i : Nat) :
    (∀ f : Fld, f.lo < 32 → f.off ∈ [F.REC_STATUS_pointer.off, F.REC_LAST_SEAL_seal.off, F.REC_LOST_count.off] →
      (s.recEvt i).rd f = s.rd f) ∧
    (s.recEvt i).recorder.queue = s.recorder.queue ∧ (s.recEvt i).recorder.records = s.recorder.records := by
  refine ⟨fun f low own => ?_, s.setEvt_queue _ _ _ (by decide) _ _, (s.recEvt_keeps i).parts .log (by decide)⟩
  refine s.setEvt_regs F.REC_EVT_evt _ _ _ _ (by decide) (by decide) f low ?_
  simp only [List.mem_cons, List.not_mem_nil, or_false] at own
  rcases own with h | h | h <;> rw [h] <;> simp only [eventReg] <;> decide

/-- A record for which the log has no room counts as lost (R422). -/
theorem State.loseRecord_shows (s : State) :
    let t := s.loseRecord
    t.recorder.queue = s.recorder.queue ∧ t.recorder.records = s.recorder.records ∧
      t.rd F.REC_STATUS_pointer = s.rd F.REC_STATUS_pointer ∧
      t.rd F.REC_LOST_count = min (s.rd F.REC_LOST_count + 1) (2 ^ F.REC_LOST_count.width - 1) := by
  obtain ⟨regs, queue, records⟩ := (s.inc F.REC_LOST_count).recEvt_leaves 1
  refine ⟨queue, records, ?_, ?_⟩
  · rw [State.loseRecord, regs _ (by decide) (by decide), State.inc, State.rd_add_ne _ _ _ _ (by decide)]
  · rw [State.loseRecord, regs _ (by decide) (by decide), State.inc, State.add, State.rd_wr_same]
    exact Nat.mod_eq_of_lt (lt_of_le_of_lt (Nat.min_le_right _ _) (by decide))

theorem isGasp_false {n : Nat} (h : ¬(56 ≤ n ∧ n ≤ 58)) : isGasp n = false := by
  simpa [isGasp] using h

theorem State.writeRecord_full {s : State} {e : RecEntry} (plain : ¬(56 ≤ e.trigger ∧ e.trigger ≤ 58))
    (full : 4088 ≤ s.rd F.REC_STATUS_pointer) : s.writeRecord e = s.loseRecord := by
  unfold State.writeRecord
  simp [isGasp_false plain, full]

/-- A record that the log has room for (R419, R421). -/
theorem State.writeRecord_room {s : State} {e : RecEntry} (plain : ¬(56 ≤ e.trigger ∧ e.trigger ≤ 58))
    (room : s.rd F.REC_STATUS_pointer < 4088) :
    let p := s.rd F.REC_STATUS_pointer
    let b := recordBytes e p (if p = 0 then 0 else s.rd F.REC_LAST_SEAL_seal)
    let t := s.writeRecord e
    t.recorder.queue = s.recorder.queue ∧ t.recorder.records = SMap.put s.recorder.records p b ∧
      t.rd F.REC_STATUS_pointer = p + 1 ∧ t.rd F.REC_LAST_SEAL_seal = leNat (b.drop 1020) % 2 ^ 32 ∧
      (p = 4087 → t.rd F.REC_STATUS_full = 1) ∧ t.rd F.REC_LOST_count = s.rd F.REC_LOST_count := by
  intro p b
  let u : State := { s with recorder := { s.recorder with
    records := SMap.put s.recorder.records p b, gasp := s.recorder.gasp || isGasp e.trigger } }
  let v : State := ((u.wr F.REC_STATUS_pointer (p + 1)).wr F.REC_LAST_SEAL_seal (leNat (b.drop 1020))).wrb
    F.REC_STATUS_reserve (decide (4088 < p + 1))
  have written : s.writeRecord e = if 4088 ≤ p + 1 && !v.on F.REC_STATUS_full then (v.wr F.REC_STATUS_full 1).recEvt 0 else v := by
    unfold State.writeRecord
    simp only
    rw [if_neg (by simp [isGasp_false plain]; omega)]
  have pointer : v.rd F.REC_STATUS_pointer = p + 1 := by
    simp only [v]
    rw [State.rd_wrb_ne _ _ _ _ (by decide), State.rd_wr_ne _ _ _ _ (by decide), State.rd_wr_same]
    exact Nat.mod_eq_of_lt (lt_of_le_of_lt room (by decide))
  have chain : v.rd F.REC_LAST_SEAL_seal = leNat (b.drop 1020) % 2 ^ 32 := by
    simp only [v]
    rw [State.rd_wrb_ne _ _ _ _ (by decide), State.rd_wr_same]
    rfl
  have lost : v.rd F.REC_LOST_count = s.rd F.REC_LOST_count := by
    simp only [v]
    rw [State.rd_wrb_ne _ _ _ _ (by decide), State.rd_wr_ne _ _ _ _ (by decide), State.rd_wr_ne _ _ _ _ (by decide)]
    rfl
  rw [written]
  split
  · obtain ⟨regs, queue, records⟩ := (v.wr F.REC_STATUS_full 1).recEvt_leaves 0
    have kept {f : Fld} (low : f.lo < 32)
        (own : f.off ∈ [F.REC_STATUS_pointer.off, F.REC_LAST_SEAL_seal.off, F.REC_LOST_count.off])
        (ne : F.REC_STATUS_full.key ≠ f.key) : ((v.wr F.REC_STATUS_full 1).recEvt 0).rd f = v.rd f := by
      rw [regs f low own, State.rd_wr_ne _ _ _ _ ne]
    refine ⟨queue, records, ?_, ?_, fun _ => ?_, ?_⟩
    · rw [kept (by decide) (by decide) (by decide), pointer]
    · rw [kept (by decide) (by decide) (by decide), chain]
    · rw [regs _ (by decide) (by decide), State.rd_wr_same]
      rfl
    · rw [kept (by decide) (by decide) (by decide), lost]
  · next open_ =>
    refine ⟨rfl, rfl, pointer, chain, fun last => ?_, lost⟩
    simpa [last, State.on] using open_

theorem recRecordWritten_does {s : State} (miller : s.pd .miller = true) {e : RecEntry} {q : List RecEntry}
    (head : s.recorder.queue = e :: q) (plain : ¬(56 ≤ e.trigger ∧ e.trigger ≤ 58)) :
    let p := s.rd F.REC_STATUS_pointer
    let b := recordBytes e p (if p = 0 then 0 else s.rd F.REC_LAST_SEAL_seal)
    Does .recRecordWritten s (fun t =>
      t.recorder.queue = q ∧
        (p < 4088 → t.recorder.records = SMap.put s.recorder.records p b ∧ t.rd F.REC_STATUS_pointer = p + 1 ∧
          t.rd F.REC_LAST_SEAL_seal = leNat (b.drop 1020) % 2 ^ 32 ∧
          (p = 4087 → t.rd F.REC_STATUS_full = 1) ∧ t.rd F.REC_LOST_count = s.rd F.REC_LOST_count) ∧
        (4088 ≤ p → t.recorder.records = s.recorder.records ∧ t.rd F.REC_STATUS_pointer = p ∧
          t.rd F.REC_LOST_count = min (s.rd F.REC_LOST_count + 1) (2 ^ F.REC_LOST_count.width - 1))) := by
  intro p b
  let u : State := { s with recorder := { s.recorder with queue := q } }.wr F.REC_STATUS_queued q.length
  have run : exec .recRecordWritten s = .next (u.writeRecord e) := by
    change execRecRecordWritten s = _
    rw [execRecRecordWritten, if_pos miller, State.writeHead, head]
    rfl
  have pointer : u.rd F.REC_STATUS_pointer = p := State.rd_wr_ne _ _ _ _ (by decide)
  have chain : u.rd F.REC_LAST_SEAL_seal = s.rd F.REC_LAST_SEAL_seal := State.rd_wr_ne _ _ _ _ (by decide)
  have lost : u.rd F.REC_LOST_count = s.rd F.REC_LOST_count := State.rd_wr_ne _ _ _ _ (by decide)
  rcases Nat.lt_or_ge p 4088 with room | full
  · have written := State.writeRecord_room (s := u) plain (pointer ▸ room)
    rw [pointer, chain, lost] at written
    obtain ⟨queue, written⟩ := written
    exact ⟨_, run, queue, fun _ => written, fun full => absurd room (Nat.not_lt.2 full)⟩
  · obtain ⟨queue, records, kept, counted⟩ := u.loseRecord_shows
    rw [State.writeRecord_full plain (pointer ▸ full)] at run
    exact ⟨_, run, queue, fun room => absurd room (Nat.not_lt.2 full), fun _ => ⟨records, kept.trans pointer, by rw [counted, lost]⟩⟩

/-- Settles O28: a raise, its snapshot, its record, and the end of a holdoff. -/
theorem recorderTakesAndWrites : Obligations.RecorderTakesAndWrites := by
  unfold Obligations.RecorderTakesAndWrites
  intro s miller
  exact ⟨recManual_does miller, fun r one plain free room => recSnapshot_does miller one plain free room,
    fun e q head plain => recRecordWritten_does miller head plain, fun n => ⟨_, rfl, rfl⟩⟩

end Sys2Proof.Machine

/-! PROOFS. O42: the host's commands that read. -/

namespace Sys2Proof.Machine

theorem Buffered.active {s u : State} {c : HostCmd} {kind len : Nat} (buffered : Buffered s c kind len)
    (active : u.hop.active = s.hop.active) : Buffered u c kind len := by
  obtain ⟨aligned, bus, whole, pass⟩ := buffered
  exact ⟨aligned, bus, whole, fun p hp => (State.acAccess_passes_congr active _ _ _ _ _).trans (pass p hp)⟩

/-- A command that reads: it has completed, and its answer stands in its buffer. -/
def Answered (s : State) (c : HostCmd) (r0 r1 : Nat) (b : Bytes) (t : State) : Prop :=
  Completed s t c 0 0 r0 r1 ∧ Out.host c.desc.buf.toNat b ∈ t.out ∧ t.image = s.image ∧ t.hop = s.hop

/-- An answer that its buffer takes. -/
theorem Buffered.answer {s : State} {c : HostCmd} {b : Bytes} (buffered : Buffered s c 1 b.length) (r0 r1 : Nat) :
    s.answer c b r0 r1 = (s.emit (.host c.desc.buf.toNat b)).complete c 0 0 r0 r1 :=
  buffered.moveBuf _

theorem Ready.answers {s u : State} {c : HostCmd} {op : Nat} {A : List Bank} {b : Bytes} (ready : Ready s c op)
    (host : u.host = (s.consume c.ring.val).host) (regs : RegsIn A s u) (events : Bank.events ∉ A)
    (power : Bank.power ∉ A) (hop : u.hop = s.hop) (image : u.image = s.image) (buffered : Buffered s c 1 b.length)
    (r0 r1 : Nat) : Answered s c r0 r1 b (u.answer c b r0 r1) := by
  rw [(buffered.active (u := u) (congrArg (·.active) hop)).answer]
  have done := (u.emit (.host c.desc.buf.toNat b)).complete_keeps c 0 0 r0 r1
  have sent : RegsIn A s (u.emit (.host c.desc.buf.toNat b)) := regs.trans (.of_regs rfl)
  refine ⟨ready.completes (u := u.emit (.host c.desc.buf.toNat b)) host sent events power (congrArg (·.active) hop) .., ?_,
    (State.complete_image ..).trans image, (State.complete_hop ..).trans hop⟩
  exact done.sent.subset (List.mem_append_right _ List.mem_cons_self)

/-- An answer of a command that changes nothing. -/
theorem Ready.answers_unchanged {s : State} {c : HostCmd} {op : Nat} {b : Bytes} (ready : Ready s c op)
    (buffered : Buffered s c 1 b.length) (r0 r1 : Nat) :
    Answered s c r0 r1 b ((s.consume c.ring.val).answer c b r0 r1) :=
  ready.answers (A := []) rfl (.of_regs rfl) (by decide) (by decide) rfl rfl buffered r0 r1

/-- The bytes of entries of one length. -/
theorem length_flatMap_const {α : Type} {f : α → Bytes} {k : Nat} (l : List α) (h : ∀ a ∈ l, (f a).length = k) :
    (l.flatMap f).length = k * l.length := by
  rw [List.length_flatMap, List.map_congr_left h, List.map_const', List.sum_replicate, smul_eq_mul, Nat.mul_comm]

theorem length_upTo (n : Nat) : (upTo n).length = n := List.length_range

theorem cmdNop_does {s : State} {c : HostCmd} (ready : Ready s c 0x00) :
    Does (.cmdNop c) s (fun t => Completed s t c 0 0 0 0 ∧ t.image = s.image ∧ t.hop = s.hop) :=
  ready.does rfl ⟨ready.completes (A := []) rfl (.of_regs rfl) (by decide) (by decide) rfl .., State.complete_image ..,
    State.complete_hop ..⟩

section
variable {s : State} {c : HostCmd}

theorem cmdSigRead_does (ready : Ready s c 0x10) (least : 1 ≤ opAt c 28 4) (most : opAt c 28 4 ≤ 16384)
    (inside : opAt c 24 4 + opAt c 28 4 ≤ 262144) (buffered : Buffered s c 1 (4 * opAt c 28 4)) :
    Does (.cmdSigRead c) s (Answered s c s.turn.k 0
      ((upTo (opAt c 28 4)).flatMap (fun i => leBytes 4 (s.slotNow (opAt c 24 4 + i)).container))) := by
  refine ready.does rfl ?_
  unfold State.sigRead
  simp only
  rw [if_neg (by simp [buffered.aligned]; omega)]
  refine ready.answers_unchanged (b := (upTo (opAt c 28 4)).flatMap _) ?_ _ _
  rwa [length_flatMap_const (k := 4) _ fun i _ => leBytes_length _ _, length_upTo]

theorem State.slotRecord_length (s : State) (n : Nat) : (s.slotRecord n).length = 16 := by
  simp [State.slotRecord, leBytes_length]

theorem cmdSlotStatus_does (ready : Ready s c 0x12) (least : 1 ≤ opAt c 28 4) (most : opAt c 28 4 ≤ 4096)
    (inside : opAt c 24 4 + opAt c 28 4 ≤ 262144) (buffered : Buffered s c 1 (16 * opAt c 28 4)) :
    Does (.cmdSlotStatus c) s (Answered s c 0 0 ((upTo (opAt c 28 4)).flatMap (fun i => s.slotRecord (opAt c 24 4 + i)))) := by
  refine ready.does rfl ?_
  unfold State.slotStatus
  simp only
  rw [if_neg (by simp [buffered.aligned]; omega)]
  refine ready.answers_unchanged (b := (upTo (opAt c 28 4)).flatMap _) ?_ _ _
  rwa [length_flatMap_const (k := 16) _ fun i _ => State.slotRecord_length _ _, length_upTo]

theorem State.loopRecord_length (s : State) (n : Nat) : (s.loopRecord n).length = 32 := by
  simp [State.loopRecord, leBytes_length]

theorem cmdLoopRead_does (ready : Ready s c 0x20) (least : 1 ≤ opAt c 26 2) (inside : opAt c 24 2 + opAt c 26 2 ≤ 4096)
    (buffered : Buffered s c 1 (32 * opAt c 26 2)) :
    Does (.cmdLoopRead c) s (Answered s c
      ((upTo (opAt c 26 2)).foldl (fun a i => max a (s.loop (opAt c 24 2 + i)).sample) 0) 0
      ((upTo (opAt c 26 2)).flatMap (fun i => s.loopRecord (opAt c 24 2 + i)))) := by
  refine ready.does rfl ?_
  unfold State.loopRead
  simp only
  rw [if_neg (by simp [buffered.aligned]; omega)]
  refine ready.answers_unchanged (b := (upTo (opAt c 26 2)).flatMap _) ?_ _ _
  rwa [length_flatMap_const (k := 32) _ fun i _ => State.loopRecord_length _ _, length_upTo]

theorem cmdForceList_does (ready : Ready s c 0x32) (room : bufOk c 32768 = true)
    (buffered : Buffered s c 1 (8 * s.image.forces.length)) :
    Does (.cmdForceList c) s (Answered s c 0 s.image.forces.length
      (s.image.forces.flatMap (fun e => leBytes 4 e.1 ++ leBytes 4 (forcedEntry e.2).container))) := by
  refine ready.does rfl ?_
  unfold State.forceList
  simp only
  rw [if_neg (by simp [room])]
  refine ready.answers_unchanged (b := s.image.forces.flatMap _) ?_ _ _
  rwa [length_flatMap_const (k := 8) _ fun e _ => by rw [List.length_append, leBytes_length, leBytes_length]]

theorem cmdProgRead_does {b : Bytes} (ready : Ready s c 0x51) (slot : opByte c 24 < 16) (room : bufOk c 0 = true)
    (image : SMap.getD (if opByte c 25 = 1 then s.progs.staged else s.progs.active) (opByte c 24) [] = b)
    (inside : opAt c 28 4 ≤ b.length)
    (buffered : Buffered s c 1 ((b.drop (opAt c 28 4)).take c.desc.len.toNat).length) :
    Does (.cmdProgRead c) s (Answered s c 0 b.length ((b.drop (opAt c 28 4)).take c.desc.len.toNat)) := by
  refine ready.does rfl ?_
  have image_ : SMap.getD (if opByte c 25 = 1 then (s.consume c.ring.val).progs.staged
    else (s.consume c.ring.val).progs.active) (opByte c 24) [] = b := image
  unfold State.progRead
  simp only [image_]
  rw [if_neg (by simp [room]; omega)]
  exact ready.answers_unchanged buffered _ _

theorem cmdMillRead_does {m : MillMsg} (ready : Ready s c 0x81) (ch : opByte c 24 < 2) (b : opByte c 25 < 64)
    (buffered : Buffered s c 1 144) (role : s.millRole (opByte c 24) (opByte c 25) = 1)
    (newest : (s.millBuf (opByte c 24) (opByte c 25)).msg = some m) (words : m.words.length = 18) :
    Does (.cmdMillRead c) s (fun t => Answered s c 0 0 (m.words.flatMap (fun w => leBytes 8 w.toNat)) t ∧
      t.rd (F.MB_BUF_STATUS_overrun (opByte c 24) (opByte c 25)) = 0) := by
  refine ready.does rfl ?_
  have role_ : (s.consume c.ring.val).millRole (opByte c 24) (opByte c 25) = 1 := role
  have newest_ : ((s.consume c.ring.val).millBuf (opByte c 24) (opByte c 25)).msg = some m := newest
  have whole : (m.words.flatMap (fun w => leBytes 8 w.toNat)).length = 144 := by
    rw [length_flatMap_const (k := 8) _ fun _ _ => leBytes_length _ _, words]
  set u := (s.consume c.ring.val).millRead (opByte c 24) (opByte c 25) with hu
  have read : (s.consume c.ring.val).millReadCmd c = u.answer c (m.words.flatMap (fun w => leBytes 8 w.toNat)) 0 0 := by
    unfold State.millReadCmd
    simp only
    rw [if_neg (by simp [buffered.aligned]; omega), if_pos role_, newest_]
    rfl
  have keeps := (s.consume c.ring.val).millRead_keeps (opByte c 24) (opByte c 25)
  have regs : RegsIn _ s u := .trans (t := s.consume c.ring.val) (.of_regs rfl) (State.millRead_in _ _ _ ch b)
  have buffered : Buffered s c 1 (m.words.flatMap (fun w => leBytes 8 w.toNat)).length := whole ▸ buffered
  have hop : u.hop = s.hop := keeps.parts .hop (by decide)
  rw [read]
  refine ⟨ready.answers (keeps.parts .host (by decide)) regs (by decide) (by decide) hop
    (keeps.parts .image (by decide)) buffered 0 0, ?_⟩
  rw [(buffered.active (u := u) (congrArg (·.active) hop)).answer]
  have mill : (F.MB_BUF_STATUS_overrun (opByte c 24) (opByte c 25)).In .mill := by
    simp only [Fld.In, F.MB_BUF_STATUS_overrun, Bank.range]
    omega
  have completed := State.complete_in (u.emit (.host c.desc.buf.toNat (m.words.flatMap (fun w => leBytes 8 w.toNat)))) c 0 0 0 0
  have cleared : u.rd (F.MB_BUF_STATUS_overrun (opByte c 24) (opByte c 25)) = 0 := by
    rw [hu]
    unfold State.millRead
    simp only [State.rd_wr_same, Nat.zero_mod]
  exact (RegsIn.rd_eq completed mill (by decide)).trans cleared

end

/-- Settles O42: each command's answer is what it reads. -/
theorem hostReadsAnswered : Obligations.HostReadsAnswered := by
  intro s c
  refine ⟨cmdNop_does, cmdSigRead_does, cmdSlotStatus_does, cmdLoopRead_does, cmdForceList_does,
    fun b ready slot room image inside => cmdProgRead_does ready slot room image inside,
    fun m ready ch b buffered role newest words => ?_⟩
  obtain ⟨t, run, ⟨done, answered⟩, overrun⟩ := cmdMillRead_does ready ch b buffered role newest words
  exact ⟨t, run, done, answered, overrun⟩

end Sys2Proof.Machine

/-! PROOFS. O48: Hyica's sessions, repetitions, and the requests that need none. -/

namespace Sys2Proof.Machine

/-- What an event bit that is set shows in its status register. -/
theorem State.setEvt_rd (s : State) {f : Fld} (en : Fld) (bits : Nat) {src : Nat} (offA offB : Nat) (hs : src < 128)
    (low : f.lo < 32) (apart : ¬eventReg f.off) :
    (s.setEvt f en bits src offA offB).rd f = (s.rd f ||| bits) % 2 ^ f.width := by
  unfold State.setEvt
  simp only
  split
  · rw [State.rd_wr_same]
  · rw [State.raiseSource_regs _ _ _ hs f low apart, State.rd_wr_same]

/-- An event of the firmware engine is noted. -/
theorem State.fwEvt_raised (s : State) {i : Nat} (hi : i < F.FW_EVT_evt.width) : FwRaised (s.fwEvt i) i := by
  unfold FwRaised State.fwEvt
  rw [s.setEvt_rd _ _ _ _ (by decide) (by decide) (by simp only [eventReg]; decide), bitOf_eq_testBit,
    Nat.testBit_mod_two_pow, Nat.testBit_or, Nat.one_shiftLeft, Nat.testBit_two_pow_self, Bool.or_true]
  simp [hi]

/-! Requests that need the open session (R448). -/

/-- Each of them runs its tests, then its own meaning. -/
theorem HyRequest.run {q : HyicaReq} {op : Nat} {c : Instr} (h : HyRequest q op c) :
    op ≠ 1 ∧ ∃ act, ∀ s, exec c s = .next (s.inSession q op act) := by
  simp only [HyRequest, List.mem_cons, Prod.mk.injEq, List.not_mem_nil, or_false] at h
  rcases h with ⟨rfl, rfl⟩ | ⟨rfl, rfl⟩ | ⟨rfl, rfl⟩ | ⟨rfl, rfl⟩ | ⟨rfl, rfl⟩ | ⟨rfl, rfl⟩ | ⟨rfl, rfl⟩ | ⟨rfl, rfl⟩
  all_goals exact ⟨by decide, _, fun _ => Eq.refl _⟩

section
variable {s : State} {q : HyicaReq} {op : Nat} (act : State → State × Nat × Bytes)

theorem State.inSession_unserved (h : s.served q = false) : s.inSession q op act = s := if_pos (by simp [h])

theorem State.inSession_repeated (h : s.served q = true) (again : s.repeats q op = true) :
    s.inSession q op act = s.emit (.service s.fw.lastReply) := by
  simp [State.inSession, h, again]

theorem State.inSession_closed (h : s.served q = true) (fresh : s.repeats q op = false)
    (other : s.fw.session ≠ some q.session.toNat) : s.inSession q op act = s.respond q op q.session.toNat 2 [] := by
  simp [State.inSession, h, fresh, other]

theorem State.inSession_unordered (h : s.served q = true) (fresh : s.repeats q op = false)
    (same : s.fw.session = some q.session.toNat) (gap : q.seq.toNat ≠ (s.fw.lastSeq + 1) % 2 ^ 32) :
    s.inSession q op act = s.respond q op q.session.toNat 8 [] := by
  unfold State.inSession
  simp only [h, fresh, same, Bool.not_true, Bool.false_eq_true, if_false, ne_eq, not_true_eq_false]
  exact if_pos gap

theorem State.inSession_other (h : s.served q = true) (fresh : s.repeats q op = false)
    (same : s.fw.session = some q.session.toNat) (next : q.seq.toNat = (s.fw.lastSeq + 1) % 2 ^ 32)
    (away : identOk q op = false) : s.inSession q op act = s.respondKept q op q.session.toNat 1 [] := by
  unfold State.inSession
  simp only [h, fresh, same, away, Bool.not_true, Bool.false_eq_true, if_false, ne_eq, not_true_eq_false]
  rw [if_neg (not_not.2 next), if_pos (by decide)]

theorem identOk_own (own : q.ident = Config.moduleIdent) (hello : op ≠ 1) : identOk q op = true := by
  simp [identOk, hello, own]

theorem identOk_other (other : q.ident ≠ Config.moduleIdent) (hello : op ≠ 1) : identOk q op = false := by
  simp [identOk, hello, other]

theorem InSession.runs (h : InSession s q op) (hello : op ≠ 1) :
    s.inSession q op act = (act s).1.respondKept q op q.session.toNat (act s).2.1 (act s).2.2 := by
  obtain ⟨served, fresh, same, next, own⟩ := h
  unfold State.inSession
  simp only [served, fresh, same, identOk_own own hello, Bool.not_true, Bool.false_eq_true, if_false, ne_eq, not_true_eq_false]
  rw [if_neg (not_not.2 next)]

/-- A response that is kept. -/
theorem State.respondKept_replied (s : State) (session status : Nat) (payload : Bytes) :
    HyReplied (s.respondKept q op session status payload) q op session status payload :=
  ⟨List.mem_append_right _ List.mem_cons_self, rfl, rfl, rfl⟩

theorem State.anySession_runs (h : s.served q = true) (free : ¬(s.fw.session = some q.session.toNat ∧ op ≠ 1))
    (own : identOk q op = true) :
    s.anySession q op act = (act s).1.respond q op q.session.toNat (act s).2.1 (act s).2.2 := by
  unfold State.anySession
  rw [if_neg free]
  simp [h, own]

end

/-! OPEN and the end of a session. -/

/-- The module in which a session has been opened. -/
def State.sessionOpened (s : State) (n : Nat) : State :=
  (({ s.free.2 with fw := { s.free.2.fw with session := some n } } : State).wr F.SVC_STATUS_open 1).fwEvt 5

theorem State.sessionOpened_shows (s : State) (n : Nat) :
    (s.sessionOpened n).fw.session = some n ∧ (s.sessionOpened n).rd F.SVC_STATUS_open = 1 ∧ FwRaised (s.sessionOpened n) 5 := by
  set t := ({ s.free.2 with fw := { s.free.2.fw with session := some n } } : State).wr F.SVC_STATUS_open 1 with ht
  have fw : (t.fwEvt 5).fw = t.fw := (t.fwEvt_keeps 5).parts .fw (by decide)
  refine ⟨congrArg (·.session) fw, ?_, t.fwEvt_raised (i := 5) (by decide)⟩
  have kept := t.setEvt_regs F.FW_EVT_evt F.FW_EVT_ENABLE_en (1 <<< 5) (src := 116) 0xE008 0xE000 (by decide) (by decide)
    F.SVC_STATUS_open (by decide) (by simp only [eventReg]; decide)
  exact kept.trans (State.rd_wr_same _ _ _)

theorem State.endSession_open (s : State) : s.endSession.rd F.SVC_STATUS_open = 0 := State.rd_wr_same _ _ _

theorem hyOpen_opens {s : State} {q : HyicaReq} (served : s.served q = true) (fresh : s.repeats q 2 = false)
    (free : s.fw.session = none) (own : q.ident = Config.moduleIdent) (empty : q.payload = []) :
    Does (.hyOpen q) s (fun t => ∃ n, 1 ≤ n ∧ n < 2 ^ 32 ∧ t.fw.session = some n ∧ t.rd F.SVC_STATUS_open = 1 ∧ FwRaised t 5 ∧
      HyReplied t q 2 n 0 (beBytes 4 n)) := by
  have run : exec (.hyOpen q) s = .next ((s.sessionOpened (1 + s.free.1 % (2 ^ 32 - 1))).respondKept q 2 (1 + s.free.1 % (2 ^ 32 - 1)) 0
      (beBytes 4 (1 + s.free.1 % (2 ^ 32 - 1)))) := by
    change execHyOpen q s = _
    unfold execHyOpen
    simp only [served, fresh, free, identOk_own own (by decide : 2 ≠ 1), empty]
    rfl
  have small := Nat.mod_lt s.free.1 (show 0 < 2 ^ 32 - 1 by decide)
  obtain ⟨session, shown, raised⟩ := s.sessionOpened_shows (1 + s.free.1 % (2 ^ 32 - 1))
  exact ⟨_, run, _, by omega, by omega, session, shown, raised, State.respondKept_replied ..⟩

/-- Settles O48: the tests of a request in their order, and what each request that passes them is answered. -/
theorem hyicaSessions : Obligations.HyicaSessions := by
  intro s q session answered again
  refine ⟨fun op c request => ?_, fun served repeats => ?_, fun served fresh => ⟨fun busy => ?_, fun free own empty =>
    hyOpen_opens served fresh free own empty⟩, fun inside empty => ?_, ?_, fun served empty own => ?_, fun served other own => ?_,
    fun toOwn echo => ?_, fun link on => ⟨_, if_pos on, ?_, rfl⟩⟩
  · obtain ⟨hello, act, run⟩ := request.run
    have does {t : State} {P : State → Prop} (h : s.inSession q op act = t) (holds : P t) : Does c s P :=
      ⟨_, run s, h ▸ holds⟩
    exact ⟨fun dark => does (State.inSession_unserved act dark) rfl,
      fun served repeats => does (State.inSession_repeated act served repeats) rfl,
      fun served fresh => ⟨fun other => does (State.inSession_closed act served fresh other) rfl,
        fun same gap => does (State.inSession_unordered act served fresh same gap) rfl,
        fun same next away => does (State.inSession_other act served fresh same next
          (identOk_other away hello))
          ⟨State.respondKept_replied .., rfl, rfl⟩⟩⟩
  · refine ⟨_, ?_, rfl⟩
    change execHyOpen q s = _
    simp [execHyOpen, served, repeats, ok]
    rfl
  · refine ⟨_, ?_, rfl⟩
    change execHyOpen q s = _
    have busy : s.fw.session.isSome = true := Option.isSome_iff_ne_none.2 busy
    simp [execHyOpen, served, fresh, busy, ok]
    rfl
  · have run : exec (.hyClose q) s = .next (s.endSession.respondKept q 3 session 0 []) := by
      refine congrArg ok ((inside.runs _ (by decide)).trans ?_)
      simp [emptyPayload, empty]
      rfl
    exact ⟨_, run, rfl, s.endSession_open, State.respondKept_replied ..⟩
  · cases open_ : s.fw.session with
    | none =>
      have run : exec .hyicaSessionTimeout s = .next s := if_neg (by simp [open_])
      exact ⟨s, run, open_, rfl, fun h => absurd rfl h⟩
    | some n =>
      have run : exec .hyicaSessionTimeout s =
          .next { s.endSession with fw := { s.endSession.fw with lastReply := [] } } := if_pos (by simp [open_])
      exact ⟨_, run, rfl, rfl, fun _ => ⟨s.endSession_open, rfl⟩⟩
  · have own : identOk q 1 = true := by simp [identOk, own]
    have run := State.anySession_runs (op := 1) (emptyPayload q (fun s =>
      (s, 0, beBytes 4 s.fwStatus ++ beBytes 8 (s.rawWord 0xE014 + 2 ^ 32 * s.rawWord 0xE018) ++
        beBytes 2 (s.rd F.FW_STATUS_lifecycle) ++ beBytes 2 (bit s.fw.recovery)))) served (fun h => h.2 rfl) own
    refine ⟨_, congrArg ok run, ?_⟩
    simp [emptyPayload, empty]
    rfl
  · have free {op : Nat} : ¬(s.fw.session = some q.session.toNat ∧ op ≠ 1) := fun h => other h.1
    refine ⟨fun empty => ?_, fun length one => ?_⟩
    · refine ⟨_, congrArg ok (State.anySession_runs _ served free (identOk_own own (by decide))), ?_⟩
      simp [emptyPayload, empty]
      rfl
    · intro i
      have run {r : State × Nat × Bytes} (h : (if q.payload.length ≠ 8 ∨ beAt q.payload 4 4 ≠ 1 ∨
          s.rd F.REC_STATUS_pointer ≤ i then (s, 1, []) else (s, 0, s.logRecord i)) = r) :
          exec (.hyLogRead q) s = .next (r.1.respond q 0x30 session r.2.1 r.2.2) := by
        subst h
        exact congrArg ok (State.anySession_runs _ served free (identOk_own own (by decide)))
      by_cases below : i < s.rd F.REC_STATUS_pointer
      · rw [if_pos below, if_pos below]
        exact ⟨_, run (if_neg (by simp [length, one, below])), rfl⟩
      · rw [if_neg below, if_neg below]
        exact ⟨_, run (if_pos (.inr (.inr (Nat.not_lt.1 below)))), rfl⟩
  · by_cases mine : toOwn = true ∧ s.pd .hostsvc = true ∧ s.pd .miller = true ∧ s.host.millerUp = true ∧
        s.rd F.SVC_STATUS_link = 2
    · refine ⟨_, if_pos ?_, (if_pos mine).symm⟩
      simpa [and_assoc] using mine
    · refine ⟨_, if_neg ?_, (if_neg mine).symm⟩
      simpa [and_assoc] using mine
  · exact (State.rd_wr_same _ _ _).trans (Nat.mod_eq_of_lt (lt_trans link.isLt (by decide)))

end Sys2Proof.Machine

/-! PROOFS. The time engine: what its events, the states of its domains and the captures leave of its registers and of the
time part of the state. -/

namespace Sys2Proof.Machine

/-! The register of the time engine's events. -/

def timeEvtFlds : List Fld :=
  [F.TIME_EVT_dom_a, F.TIME_EVT_dom_b, F.TIME_EVT_pps_a, F.TIME_EVT_pps_b, F.TIME_EVT_pps_a_lost, F.TIME_EVT_pps_b_lost,
    F.TIME_EVT_switched, F.TIME_EVT_slew_done, F.TIME_EVT_work_free, F.TIME_EVT_cal_done, F.TIME_EVT_cal_lost,
    F.TIME_EVT_master_clash, F.TIME_EVT_refclk_lost, F.TIME_EVT_ply_diff, F.TIME_EVT_leap_err, F.TIME_EVT_inc_err,
    F.TIME_EVT_alarm]

theorem timeEvtFld_mem (i : Nat) : (timeEvtFld i).1 ∈ timeEvtFlds := by
  unfold timeEvtFld
  split <;> simp [timeEvtFlds]

theorem timeEvtFld_place (i : Nat) : (timeEvtFld i).1.In .time ∧ (timeEvtFld i).1.off = 0x500C := by
  have all : ∀ f ∈ timeEvtFlds, f.In .time ∧ f.off = 0x500C := by decide
  exact all _ (timeEvtFld_mem i)

theorem timeEvtFld_bit {i : Nat} (hi : i < 24) : (timeEvtFld i).2 < (timeEvtFld i).1.width := by
  interval_cases i <;> decide

theorem timeEvtFld_key {i j : Nat} (h : (timeEvtFld i).1.key = (timeEvtFld j).1.key) : (timeEvtFld i).1 = (timeEvtFld j).1 := by
  have all : ∀ f ∈ timeEvtFlds, ∀ g ∈ timeEvtFlds, f.key = g.key → f = g := by decide
  exact all _ (timeEvtFld_mem i) _ (timeEvtFld_mem j) h

/-- From s to t the time engine has written the status fields K and its events, and has steered working time: what it
carries, owes, has captured, and the switch that it has named. -/
structure Steered (K : List Fld) (s t : State) : Prop where
  regs : ∀ f : Fld, f.In .time → f.off ≠ 0x500C → (∀ g ∈ K, g.key ≠ f.key) → t.rd f = s.rd f
  events : ∀ i, BitsStay (timeEvtFld i).1 s t
  time : ∃ carry slewOwed switchAt carried, t.time = { s.time with carry, slewOwed, switchAt, carried }
  banks : RegsIn [.events, .time, .viol] s t

section
variable {K L : List Fld} {s t u : State}

theorem Steered.rfl : Steered K s s := ⟨fun _ _ _ _ => Eq.refl _, fun _ => .rfl, ⟨_, _, _, _, Eq.refl _⟩, .rfl⟩

theorem Steered.trans (h : Steered K s t) (g : Steered K t u) : Steered K s u := by
  obtain ⟨_, _, _, _, first⟩ := h.time
  obtain ⟨carry, slewOwed, switchAt, carried, second⟩ := g.time
  refine ⟨fun f hf ne hK => (g.regs f hf ne hK).trans (h.regs f hf ne hK), fun i => (h.events i).trans (g.events i),
    ⟨carry, slewOwed, switchAt, carried, by rw [second, first]⟩, h.banks.trans g.banks⟩

theorem Steered.mono (h : Steered L s t) (sub : ∀ g ∈ L, g ∈ K) : Steered K s t :=
  ⟨fun f hf ne hK => h.regs f hf ne fun g hg => hK g (sub g hg), h.events, h.time, h.banks⟩

theorem Steered.next (h : Steered K s t) (g : Steered L t u) (sub : ∀ g ∈ L, g ∈ K) : Steered K s u := h.trans (g.mono sub)

theorem Steered.ite {c : Prop} [Decidable c] (h : Steered K s t) (g : Steered K s u) : Steered K s (if c then t else u) := by
  split <;> assumption

/-- A status field of the list is written. -/
theorem Steered.wr (h : Steered K s t) {f : Fld} (v : Nat) (member : f ∈ K) (bank : f.In .time) (apart : f.off ≠ 0x500C) :
    Steered K s (t.wr f v) := by
  refine ⟨fun g hg ne hK => (State.rd_wr_ne _ _ _ _ (hK f member)).trans (h.regs g hg ne hK), fun i =>
    (h.events i).wr_ne v (Fld.key_ne_off bank.1 (timeEvtFld_place i).1.1 ((timeEvtFld_place i).2 ▸ apart)), h.time, ?_⟩
  exact RegsIn.wr f v .time h.banks bank.1 (by decide) bank.2.1 bank.2.2

/-- Working time is steered with no register written. -/
theorem Steered.of_regs (regs : t.regs = s.regs)
    (time : ∃ carry slewOwed switchAt carried, t.time = { s.time with carry, slewOwed, switchAt, carried }) : Steered K s t :=
  ⟨fun _ _ _ _ => (RegsIn.of_regs (A := []) regs).rd_eq (b := .time) ‹_› (by decide), fun _ => .of_eq (congrArg (RegMap.get · _) regs), time, .of_regs regs⟩

theorem Steered.dom (h : Steered K s t) (d : Domain) : t.dom d = s.dom d := by
  obtain ⟨_, _, _, _, time⟩ := h.time
  cases d <;> simp [State.dom, isB, time]

theorem Steered.raised (h : Steered K s t) {i : Nat} (hi : i < 24) (set : TimeRaised s i) : TimeRaised t i :=
  h.events i _ (timeEvtFld_bit hi) set

end

/-! The events of the time engine. -/

theorem timeEvtSource_lt (i : Nat) : timeEvtSource i < 128 := by
  unfold timeEvtSource
  split_ifs <;> decide

theorem State.timeEvt_rd (s : State) (i : Nat) {f : Fld} (hf : f.In .time) :
    (s.timeEvt i).rd f = (s.wr (timeEvtFld i).1 (setBit (s.rd (timeEvtFld i).1) (timeEvtFld i).2 true)).rd f :=
  State.raisedIf_rd _ _ (timeEvtSource_lt i) _ _ hf (by decide)

theorem State.timeEvt_steers (s : State) (i : Nat) : Steered [] s (s.timeEvt i) := by
  obtain ⟨bank, at_⟩ := timeEvtFld_place i
  refine ⟨fun f hf ne _ => ?_, fun j => ?_, ⟨_, _, _, _, (s.timeEvt_keeps i).parts .time (by decide)⟩, s.timeEvt_in i⟩
  · rw [s.timeEvt_rd i hf, State.rd_wr_ne _ _ _ _ (Fld.key_ne_off bank.1 hf.1 (at_ ▸ ne.symm))]
  · refine .trans ?_ (.of_eq (s.timeEvt_rd i (timeEvtFld_place j).1))
    by_cases same : (timeEvtFld i).1.key = (timeEvtFld j).1.key
    · rw [timeEvtFld_key same]
      exact BitsStay.rfl.setBit _
    · exact BitsStay.rfl.wr_ne _ same

theorem State.timeEvt_raised (s : State) {i : Nat} (hi : i < 24) : TimeRaised (s.timeEvt i) i := by
  obtain ⟨bank, -⟩ := timeEvtFld_place i
  rw [TimeRaised, s.timeEvt_rd i bank, s.bitOf_wr_setBit (timeEvtFld_bit hi), decide_eq_true (Eq.refl _), Bool.or_true]

/-! Captures and switches (R254 to R258). -/

theorem State.workRegs_steers (s : State) : Steered [F.TIME_STATUS_work] s s.workRegs := by
  have written (v : Nat) : Steered [F.TIME_STATUS_work] s (s.wr F.TIME_STATUS_work v) :=
    Steered.rfl.wr v (by decide) (by decide) (by decide)
  unfold State.workRegs
  exact .ite .rfl (.ite ((written _).next (State.timeEvt_steers _ 8) (List.forall_mem_nil _)) (written _))

theorem State.sendOrder_steers (s : State) (code b digest : Nat) (c : OrderContent) :
    Steered [] s (s.sendOrder code b digest c) := by
  have keeps := s.sendOrder_keeps code b digest c
  refine .of_regs ?_ ⟨_, _, _, _, keeps.parts .time (by decide)⟩
  unfold State.sendOrder
  simp only
  split <;> rfl

theorem State.tellCapture_steers (s : State) (o : Int) : Steered [] s (s.tellCapture o) := by
  unfold State.tellCapture
  refine .ite .rfl ?_
  exact (s.sendOrder_steers 4 s.turn.k 0 (.captured o)).trans (.of_regs (Eq.refl _) ⟨_, _, _, _, Eq.refl _⟩)

theorem State.captureO_steers (s : State) : Steered [F.TIME_STATUS_slewing] s s.captureO := by
  unfold State.captureO
  simp only
  refine .next ?_ (State.tellCapture_steers _ _) (List.forall_mem_nil _)
  refine .next ?_ (State.timeEvt_steers _ 6) (List.forall_mem_nil _)
  refine Steered.wr (f := F.TIME_STATUS_slewing) ?_ _ List.mem_cons_self (by decide) (by decide)
  exact .of_regs (Eq.refl _) ⟨_, _, _, _, Eq.refl _⟩

theorem State.wantCapture_steers (s : State) : Steered [F.TIME_STATUS_slewing] s s.wantCapture := by
  unfold State.wantCapture
  refine .ite .rfl (.ite s.captureO_steers ?_)
  refine .next ?_ (State.sendOrder_steers _ _ _ _ _) (List.forall_mem_nil _)
  exact .of_regs (Eq.refl _) ⟨_, _, _, _, Eq.refl _⟩

theorem State.autoSwitch_steers (s : State) : Steered [] s s.autoSwitch := by
  unfold State.autoSwitch
  simp only
  refine .ite .rfl (.ite (.of_regs (Eq.refl _) ⟨_, _, _, _, Eq.refl _⟩) ?_)
  refine .trans ?_ (State.sendOrder_steers _ _ _ _ _)
  exact .of_regs (Eq.refl _) ⟨_, _, _, _, Eq.refl _⟩

/-! The states of the domains (R252). -/

/-- The field that shows a domain's state. -/
def domFld (d : Domain) : Fld := if isB d then F.TIME_STATUS_dom_b else F.TIME_STATUS_dom_a

theorem State.domState_eq (s : State) (d : Domain) : s.domState d = s.rd (domFld d) := by
  cases d <;> rfl

/-- What follows a change of a domain's state. -/
theorem State.domChanged_steers (s : State) (d : Domain) (captures : Bool) :
    Steered [F.TIME_STATUS_work, F.TIME_STATUS_slewing] s
      (if captures then (s.timeEvt (domNum d)).workRegs.wantCapture else (s.timeEvt (domNum d)).workRegs).autoSwitch := by
  have shown := (s.timeEvt_steers (domNum d)).mono (K := [F.TIME_STATUS_work, F.TIME_STATUS_slewing]) (List.forall_mem_nil _)
  have worked := shown.next (State.workRegs_steers _) (by decide)
  exact .next (.ite (worked.next (State.wantCapture_steers _) (by decide)) worked) (State.autoSwitch_steers _) (List.forall_mem_nil _)

theorem State.setDomState_steers (s : State) (d : Domain) (st : Nat) :
    Steered [domFld d, F.TIME_STATUS_work, F.TIME_STATUS_slewing] s (s.setDomState d st) := by
  unfold State.setDomState
  simp only
  refine .ite .rfl ?_
  have written : Steered [domFld d, F.TIME_STATUS_work, F.TIME_STATUS_slewing] s (s.wr (domFld d) st) := by
    refine Steered.rfl.wr st List.mem_cons_self ?_ ?_ <;> cases d <;> decide
  exact written.next (State.domChanged_steers _ d _) (fun g => List.mem_cons_of_mem _)

theorem State.setDomState_state (s : State) (d : Domain) {st : Nat} (hs : st < 4) : (s.setDomState d st).domState d = st := by
  unfold State.setDomState
  simp only
  split
  · next same => exact beq_iff_eq.1 same
  · rw [State.domState_eq]
    refine ((State.domChanged_steers _ d _).regs (domFld d) ?_ ?_ ?_).trans ?_
    · cases d <;> decide
    · cases d <;> decide
    · cases d <;> decide
    · exact (State.rd_wr_same _ _ _).trans (by cases d <;> exact Nat.mod_eq_of_lt hs)

@[simp] theorem State.dom_setDom_same (s : State) (d : Domain) (x : TimeDom) : (s.setDom d x).dom d = x := by
  cases d <;> rfl

theorem State.dom_setDom_ne (s : State) {d e : Domain} (x : TimeDom) (ne : e ≠ d) : (s.setDom d x).dom e = s.dom e := by
  cases d with
  | a => cases e with
    | a => exact absurd rfl ne
    | b => rfl
  | b => cases e with
    | a => rfl
    | b => exact absurd rfl ne

@[simp] theorem State.setDom_regs (s : State) (d : Domain) (x : TimeDom) : (s.setDom d x).regs = s.regs := by
  cases d <;> rfl

theorem State.setDom_rd (s : State) (d : Domain) (x : TimeDom) (f : Fld) : (s.setDom d x).rd f = s.rd f :=
  congrArg (RegMap.get · f) (s.setDom_regs d x)

end Sys2Proof.Machine

/-! PROOFS. O30: the measurement of the ring, and the oscillator. -/

namespace Sys2Proof.Machine

/-- From s to t the measurements of the ring stand: the hops, the closure, and every register of the time engine but its
status and its events. -/
structure Measured (s t : State) : Prop where
  hops : t.time.hops = s.time.hops
  closure : t.time.closureA = s.time.closureA
  regs : ∀ f : Fld, f.In .time → f.off ∉ [0x5008, 0x500C] → t.rd f = s.rd f
  banks : RegsIn [.events, .time, .viol] s t

theorem Measured.rfl {s : State} : Measured s s := ⟨Eq.refl _, Eq.refl _, fun _ _ _ => Eq.refl _, .rfl⟩

theorem Measured.trans {s t u : State} (h : Measured s t) (g : Measured t u) : Measured s u :=
  ⟨g.hops.trans h.hops, g.closure.trans h.closure, fun f hf apart => (g.regs f hf apart).trans (h.regs f hf apart),
    h.banks.trans g.banks⟩

theorem Measured.ite {s t u : State} {c : Prop} [Decidable c] (h : Measured s t) (g : Measured s u) :
    Measured s (if c then t else u) := by
  split <;> assumption

theorem Measured.wr_status {s t : State} (h : Measured s t) {f : Fld} (v : Nat) (bank : f.In .time) (at_ : f.off = 0x5008) :
    Measured s (t.wr f v) := by
  refine ⟨h.hops, h.closure, fun g hg apart => ?_, RegsIn.wr f v .time h.banks bank.1 (by decide) bank.2.1 bank.2.2⟩
  simp only [List.mem_cons, List.not_mem_nil, or_false, not_or] at apart
  rw [State.rd_wr_ne _ _ _ _ (Fld.key_ne_off bank.1 hg.1 (at_ ▸ Ne.symm apart.1)), h.regs g hg (by simp [apart])]

theorem Steered.measured {K : List Fld} {s t : State} (h : Steered K s t) (status : ∀ f ∈ K, f.lo < 32 ∧ f.off = 0x5008) :
    Measured s t := by
  obtain ⟨_, _, _, _, time⟩ := h.time
  refine ⟨by rw [time], by rw [time], fun f hf apart => ?_, h.banks⟩
  simp only [List.mem_cons, List.not_mem_nil, or_false, not_or] at apart
  exact h.regs f hf apart.2 fun g hg => Fld.key_ne_off (status g hg).1 hf.1 ((status g hg).2 ▸ Ne.symm apart.1)

theorem Measured.setDom {s t : State} (h : Measured s t) (d : Domain) (x : TimeDom) : Measured s (t.setDom d x) := by
  refine h.trans ⟨?_, ?_, fun f _ _ => State.setDom_rd _ _ _ _, .of_regs (State.setDom_regs _ _ _)⟩ <;> cases d <;> exact Eq.refl _

theorem State.setDomState_measured (s : State) (d : Domain) (st : Nat) : Measured s (s.setDomState d st) :=
  (s.setDomState_steers d st).measured (by cases d <;> decide)

theorem State.timeEvt_measured (s : State) (i : Nat) : Measured s (s.timeEvt i) :=
  (s.timeEvt_steers i).measured (List.forall_mem_nil _)

theorem State.toHoldover_measured (s : State) (d : Domain) : Measured s (s.toHoldover d) :=
  .ite ((Measured.rfl.setDom d _).trans (State.setDomState_measured _ d 3)) .rfl

theorem State.setCal_measured (s : State) (st : Nat) : Measured s (s.setCal st) := by
  have written : Measured s (s.wr F.TIME_STATUS_cal st) := Measured.rfl.wr_status st (by decide) (by decide)
  unfold State.setCal
  refine .ite .rfl (.ite (written.trans (State.timeEvt_measured _ 9)) (.ite ?_ written))
  exact ((written.trans (State.timeEvt_measured _ 10)).trans (State.toHoldover_measured _ .a)).trans (State.toHoldover_measured _ .b)

/-! The loop (R249). -/

/-- What the members of the loop and its hops are read from stands from s to t. -/
structure SameLoop (s t : State) : Prop where
  hops : t.time.hops = s.time.hops
  ring : ∀ f : Fld, f.In .ring → f.off ≠ 0x6014 → t.rd f = s.rd f

theorem Measured.loop {s t : State} (h : Measured s t) : SameLoop s t :=
  ⟨h.hops, fun _ hf _ => h.banks.rd_eq hf (by decide)⟩

section
variable {s t : State} (h : SameLoop s t)
include h

theorem SameLoop.memberState {p : Nat} (hp : p < 16) : t.memberState p = s.memberState p :=
  h.ring _ (by simp only [Fld.In, F.RING_MEMBER_state, Bank.range]; omega) (by simp only [F.RING_MEMBER_state]; omega)

theorem SameLoop.position : t.position = s.position := h.ring F.RING_POSITION_position (by decide) (by decide)

theorem SameLoop.bypassed : t.bypassed = s.bypassed :=
  congrArg (· == 1) (h.ring F.RING_STATUS_bypass (by decide) (by decide))

theorem SameLoop.members : t.loopMembers = s.loopMembers := by
  unfold State.loopMembers
  rw [h.position, h.bypassed]
  exact List.filter_congr fun p hp => by rw [h.memberState (mem_upTo.1 hp)]

theorem SameLoop.ringHop (i : Nat) : t.ringHop i = s.ringHop i := by
  unfold State.ringHop State.nextMember
  rw [h.members, h.hops]

theorem SameLoop.loopHops : t.loopHops = s.loopHops := by
  unfold State.loopHops
  rw [h.members]
  exact List.map_congr_left fun i _ => by rw [h.ringHop]

end

theorem SameLoop.trans {s t u : State} (h : SameLoop s t) (g : SameLoop t u) : SameLoop s u :=
  ⟨g.hops.trans h.hops, fun f hf apart => (g.ring f hf apart).trans (h.ring f hf apart)⟩

/-! What the calibration shows (R249, R250). -/

/-- The least number of pairs of some hops, 64 at most. -/
def leastPairs (hops : List (Nat × RingHop)) : Nat := hops.foldl (fun a e => min a e.2.pairs) 64

theorem leastPairs_le (hops : List (Nat × RingHop)) : leastPairs hops ≤ 64 := by
  have below : ∀ n, hops.foldl (fun a e => min a e.2.pairs) n ≤ n := by
    induction hops with
    | nil => exact fun n => Nat.le_refl n
    | cons e es ih => exact fun n => (ih (min n e.2.pairs)).trans (Nat.min_le_left _ _)
  exact below 64

/-- The registers of the calibration agree with the hops and the closure that a state holds. -/
structure Calibrated (t : State) : Prop where
  closure : t.rd F.CAL_CLOSURE_a = toBits 32 t.time.closureA % 2 ^ 32
  pairs : t.rd F.CAL_STATUS_pairs = leastPairs t.loopHops

theorem Measured.calibrated {s t : State} (h : Measured s t) (shown : Calibrated s) : Calibrated t where
  closure := by rw [h.regs _ (by decide) (by decide), shown.closure, h.closure]
  pairs := by rw [h.regs _ (by decide) (by decide), shown.pairs, h.loop.loopHops]

/-- The measurements of a loop are written to their registers. -/
def State.wrCal (s : State) (pairs closure west east transit : Nat) : State :=
  ((((s.wr F.CAL_STATUS_pairs pairs).wr F.CAL_CLOSURE_a closure).wr (F.CAL_DELAY_delay 0) west).wr (F.CAL_DELAY_delay 1) east).wr
    F.RING_TRANSIT_transit_ns transit

theorem State.wrCal_loop (s : State) (pairs closure west east transit : Nat) :
    SameLoop s (s.wrCal pairs closure west east transit) := by
  refine ⟨Eq.refl _, fun f hf apart => ?_⟩
  have low := hf.1
  simp only [Fld.In, Bank.range] at hf
  simp (disch := (simp only [Fld.key, F.CAL_STATUS_pairs, F.CAL_CLOSURE_a, F.CAL_DELAY_delay, F.RING_TRANSIT_transit_ns]; omega))
    only [State.wrCal, State.rd_wr_ne]

theorem State.wrCal_calibrated (s : State) {pairs : Nat} (west east transit : Nat) (least : pairs = leastPairs s.loopHops) :
    Calibrated (s.wrCal pairs (toBits 32 s.time.closureA) west east transit) where
  closure := by
    simp (disch := decide) only [State.wrCal, State.rd_wr_ne, State.rd_wr_same]
    rfl
  pairs := by
    have few : pairs < 2 ^ 7 := least ▸ Nat.lt_of_le_of_lt (leastPairs_le _) (by decide)
    rw [(s.wrCal_loop _ _ _ _ _).loopHops, ← least]
    simp (disch := decide) only [State.wrCal, State.rd_wr_ne, State.rd_wr_same]
    exact Nat.mod_eq_of_lt few

/-- The calibration is the measurements written, then its state: the hops stand. -/
theorem State.calRegs_calibrates (s : State) : SameLoop s s.calRegs ∧ Calibrated s.calRegs := by
  obtain ⟨y, pairs, west, east, transit, st, loop, least, whole⟩ : ∃ (y : State) (pairs west east transit st : Nat), SameLoop s y ∧
      pairs = leastPairs s.loopHops ∧ s.calRegs = (y.wrCal pairs (toBits 32 y.time.closureA) west east transit).setCal st := by
    refine ⟨_, _, _, _, _, _, ?_, Eq.refl _, Eq.refl _⟩
    split
    · exact ⟨Eq.refl _, fun _ _ _ => Eq.refl _⟩
    · exact ⟨Eq.refl _, fun _ _ _ => Eq.refl _⟩
  rw [whole]
  have shown := y.wrCal_calibrated west east transit (least.trans (by rw [loop.loopHops]))
  have stands := State.setCal_measured (y.wrCal pairs (toBits 32 y.time.closureA) west east transit) st
  exact ⟨(loop.trans (y.wrCal_loop _ _ _ _ _)).trans stands.loop, stands.calibrated shown⟩

/-- The entries of a report leave no hop of a member that is none of the loop. -/
theorem State.noteReport_calibrates (s : State) (x : Nat) (r : Bytes) :
    Calibrated (s.noteReport x r) ∧ ∀ e ∈ (s.noteReport x r).time.hops, e.1 ∈ (s.noteReport x r).loopMembers := by
  obtain ⟨y, inLoop, whole⟩ : ∃ y : State, (∀ e ∈ y.time.hops, e.1 ∈ y.loopMembers) ∧ s.noteReport x r = y.calRegs := by
    refine ⟨_, fun e he => ?_, Eq.refl _⟩
    exact List.contains_iff_mem.1 (List.mem_filter.1 he).2
  obtain ⟨loop, shown⟩ := y.calRegs_calibrates
  rw [whole, loop.hops, loop.members]
  exact ⟨shown, inLoop⟩

/-! The oscillator (R240): HOLDOVER of the followed domains. -/

/-- Going to HOLDOVER steers working time after the domain's correction has ended. -/
theorem State.toHoldover_steers (s : State) (d : Domain) :
    ∃ x, Steered [domFld d, F.TIME_STATUS_work, F.TIME_STATUS_slewing] (s.setDom d x) (s.toHoldover d) := by
  unfold State.toHoldover
  split
  · exact ⟨_, State.setDomState_steers _ d 3⟩
  · refine ⟨s.dom d, ?_⟩
    have same : s.setDom d (s.dom d) = s := by cases d <;> rfl
    rw [same]
    exact .rfl

theorem State.toHoldover_rd (s : State) (d : Domain) {f : Fld} (hf : f.In .time) (apart : f.off ≠ 0x500C)
    (other : ∀ g ∈ [domFld d, F.TIME_STATUS_work, F.TIME_STATUS_slewing], g.key ≠ f.key) : (s.toHoldover d).rd f = s.rd f := by
  obtain ⟨x, steers⟩ := s.toHoldover_steers d
  rw [steers.regs f hf apart other, State.setDom_rd]

theorem State.toHoldover_ne (s : State) {d e : Domain} (ne : e ≠ d) :
    (s.toHoldover d).domState e = s.domState e ∧ (s.toHoldover d).domRole e = s.domRole e ∧ (s.toHoldover d).dom e = s.dom e := by
  obtain ⟨x, steers⟩ := s.toHoldover_steers d
  refine ⟨?_, ?_, (steers.dom e).trans (State.dom_setDom_ne s x ne)⟩
  · cases d with
    | a => cases e with
      | a => exact absurd (Eq.refl _) ne
      | b => exact State.toHoldover_rd s _ (by decide) (by decide) (by decide)
    | b => cases e with
      | a => exact State.toHoldover_rd s _ (by decide) (by decide) (by decide)
      | b => exact absurd (Eq.refl _) ne
  · cases d <;> cases e <;> exact State.toHoldover_rd s _ (by decide) (by decide) (by decide)

theorem State.toHoldover_holds (s : State) {d : Domain} (locked : s.domState d = 2) (follows : s.domRole d ≠ 1) :
    (s.toHoldover d).domState d = 3 ∧ (s.toHoldover d).dom d = { s.dom d with corr := 0, corrLeft := 0, goodRun := 0 } := by
  have goes : s.toHoldover d = (s.setDom d { s.dom d with corr := 0, corrLeft := 0, goodRun := 0 }).setDomState d 3 := by
    refine if_pos ?_
    simp [locked, follows]
  rw [goes]
  exact ⟨State.setDomState_state _ d (by decide), by rw [(State.setDomState_steers _ d 3).dom, State.dom_setDom_same]⟩

/-- Both domains, in turn. -/
theorem State.toHoldover_both (s : State) {d : Domain} (locked : s.domState d = 2) (follows : s.domRole d ≠ 1) :
    ((s.toHoldover .a).toHoldover .b).domState d = 3 ∧ (((s.toHoldover .a).toHoldover .b).dom d).corr = 0 := by
  cases d with
  | a =>
    obtain ⟨st, -, dom⟩ := (s.toHoldover .a).toHoldover_ne (d := .b) (e := .a) nofun
    rw [st, dom]
    obtain ⟨held, still⟩ := s.toHoldover_holds locked follows
    exact ⟨held, by rw [still]⟩
  | b =>
    obtain ⟨st, role, -⟩ := s.toHoldover_ne (d := .a) (e := .b) nofun
    obtain ⟨held, still⟩ := State.toHoldover_holds _ (st.trans locked) (role ▸ follows)
    exact ⟨held, by rw [still]⟩

theorem State.toHoldover_raised (s : State) (d : Domain) {i : Nat} (hi : i < 24) (set : TimeRaised s i) :
    TimeRaised (s.toHoldover d) i := by
  obtain ⟨x, steers⟩ := s.toHoldover_steers d
  exact steers.raised hi (by rw [TimeRaised, State.setDom_rd]; exact set)

theorem State.toHoldover_intOsc (s : State) (d : Domain) : (s.toHoldover d).time.intOsc = s.time.intOsc := by
  obtain ⟨x, steers⟩ := s.toHoldover_steers d
  obtain ⟨_, _, _, _, time⟩ := steers.time
  rw [time]
  cases d <;> rfl

/-- The state in which the loss of the reference is noted. -/
def State.lostRef (s : State) : State := { s.wr F.TIME_STATUS_refclk_lost 1 with time := { s.time with intOsc := true } }

theorem refclkLost_holds {s : State} (on : s.pd .time = true) (good : s.rd F.TIME_STATUS_refclk_lost = 0) :
    Does .refclkLost s (fun t => t.rd F.TIME_STATUS_refclk_lost = 1 ∧ t.time.intOsc = true ∧ TimeRaised t 20 ∧
      ∀ d, s.domRole d ≠ 1 → s.domState d = 2 → t.domState d = 3 ∧ (t.dom d).corr = 0) := by
  refine ⟨((s.lostRef.timeEvt 20).toHoldover .a).toHoldover .b, ?_, ?_, ?_, ?_, fun d follows locked => ?_⟩
  · exact if_neg (by simp [State.on, on, good])
  · rw [State.toHoldover_rd _ _ (by decide) (by decide) (by decide), State.toHoldover_rd _ _ (by decide) (by decide) (by decide),
      (s.lostRef.timeEvt_steers 20).regs _ (by decide) (by decide) (List.forall_mem_nil _)]
    exact State.rd_wr_same s F.TIME_STATUS_refclk_lost 1
  · obtain ⟨_, _, _, _, time⟩ := (s.lostRef.timeEvt_steers 20).time
    rw [State.toHoldover_intOsc, State.toHoldover_intOsc, time]
    rfl
  · exact State.toHoldover_raised _ _ (by decide) (State.toHoldover_raised _ _ (by decide) (State.timeEvt_raised _ (by decide)))
  · have stands (f : Fld) (hf : f.In .time) (apart : f.off ≠ 0x500C) (other : F.TIME_STATUS_refclk_lost.key ≠ f.key) :
        (s.lostRef.timeEvt 20).rd f = s.rd f := by
      rw [(s.lostRef.timeEvt_steers 20).regs f hf apart (List.forall_mem_nil _)]
      exact State.rd_wr_ne s _ _ 1 other
    refine State.toHoldover_both _ ?_ ?_
    · rw [← locked]
      cases d <;> exact stands _ (by decide) (by decide) (by decide)
    · refine fun own => follows (Eq.trans ?_ own)
      cases d <;> exact (stands _ (by decide) (by decide) (by decide)).symm

/-! Marks, reports and entries (R247 to R249). -/

theorem hopMarkSend_sends {s : State} {east : Bool} (on : s.pd .time = true) (joined : s.rd F.RING_STATUS_bypass = 0)
    (up : s.ringUp east = true) (sub : Fin 820) :
    Does (.hopMarkSend east sub) s (fun t => t.out = s.out ++ [.ringBlock east 0x20 (s.localUs % 256) 0] ∧ t.regs = s.regs ∧
      (if east then t.time.sentEast else t.time.sentWest) = if s.localUs % 256 % 16 = 0 then
        some (s.localUs % 256, s.localStamp + sub.val) else if east then s.time.sentEast else s.time.sentWest) := by
  have runs : exec (.hopMarkSend east sub) s = _ := if_neg (by simp [State.bypassed, State.on, on, joined, up])
  rw [Does, runs]
  by_cases stamped : s.localUs % 256 % 16 = 0
  · cases east <;> simp only [stamped, bne_self_eq_false] <;> exact ⟨_, Eq.refl _, Eq.refl _, Eq.refl _, Eq.refl _⟩
  · rw [if_neg stamped, if_pos (by simpa using stamped)]
    exact ⟨_, Eq.refl _, Eq.refl _, Eq.refl _, Eq.refl _⟩

theorem hopMarkReceived_stamps {s : State} {east : Bool} (on : s.pd .time = true) (joined : s.rd F.RING_STATUS_bypass = 0)
    (up : s.ringUp east = true) (sub : Fin 820) (seq : BitVec 8) :
    Does (.hopMarkReceived east seq sub) s (fun t => t = { s with time := t.time } ∧
      (if east then t.time.markEast else t.time.markWest) = if seq.toNat % 16 = 0 then
        some (seq.toNat, s.localStamp + sub.val) else if east then s.time.markEast else s.time.markWest) := by
  by_cases stamped : seq.toNat % 16 = 0
  · have runs : exec (.hopMarkReceived east seq sub) s = _ :=
      if_neg (by simp [State.bypassed, State.on, on, joined, up, stamped])
    rw [Does, runs, if_pos stamped]
    cases east <;> exact ⟨_, Eq.refl _, Eq.refl _, Eq.refl _⟩
  · have runs : exec (.hopMarkReceived east seq sub) s = _ :=
      if_pos (by simp [State.bypassed, State.on, on, joined, up, stamped])
    rw [Does, runs, if_neg stamped]
    exact ⟨_, Eq.refl _, Eq.refl _, Eq.refl _⟩

theorem hopReportSend_calibrates {s : State} (on : s.pd .time = true) (joined : s.rd F.RING_STATUS_bypass = 0) :
    Does .hopReportSend s (fun t => (∀ e, s.ringUp e = true → Out.ring e (ringFrame 0x20 s.position
      (s.ringFlags s.isStandby s.isActive) (SMap.getD s.ring.txAlive 0x20 0) 0 0 s.time.work 0 s.hopReport) ∈ t.out) ∧
      t.rd F.CAL_CLOSURE_a = toBits 32 t.time.closureA % 2 ^ 32 ∧ t.image = s.image) := by
  obtain ⟨out, sends, sent⟩ := s.sendRing_sends 0x20 (s.ringFlags s.isStandby s.isActive) 0 0 s.time.work 0 s.hopReport
  refine ⟨(s.sentRing 0x20 out).noteReport s.position s.hopReport, ?_, fun e up => ?_, ?_, ?_⟩
  · exact (if_neg (by simp [State.bypassed, State.on, on, joined])).trans (by simp only [sends]; rfl)
  · exact (State.noteReport_keeps _ _ _).sent.subset (sent joined e up)
  · exact (State.noteReport_calibrates _ _ _).1.closure
  · exact (State.noteReport_keeps (s.sentRing 0x20 out) _ _).parts .image (by decide)

theorem hopReportReceived_enters {s : State} {east : Bool} {frame : Bytes} (on : s.pd .time = true)
    (taken : RingTaken s east 0x20 frame) (member : s.memberState (byteAt frame 1 % 16) = 1) :
    Does (.hopReportReceived east false frame) s (fun t => Forwarded s t east frame ∧ t.image = s.image ∧
      (∀ e ∈ t.time.hops, e.1 ∈ t.loopMembers) ∧ t.rd F.CAL_CLOSURE_a = toBits 32 t.time.closureA % 2 ^ 32 ∧
      t.rd F.CAL_STATUS_pairs = t.loopHops.foldl (fun a e => min a e.2.pairs) 64) := by
  obtain ⟨out, take, forwarded⟩ := taken.takes (by decide)
  have keeps := (s.tookRing frame out).noteReport_keeps (byteAt frame 1 % 16) ((frame.drop 32).take 48)
  obtain ⟨shown, inLoop⟩ := (s.tookRing frame out).noteReport_calibrates (byteAt frame 1 % 16) ((frame.drop 32).take 48)
  refine ⟨(s.tookRing frame out).noteReport (byteAt frame 1 % 16) ((frame.drop 32).take 48), ?_, forwarded.of_sent keeps.sent,
    keeps.parts .image (by decide), inLoop, shown.closure, shown.pairs⟩
  have enters : ¬(byteAt frame 0 != 0x20 || false || byteAt frame 1 % 16 == s.position ||
      s.memberState (byteAt frame 1 % 16) != 1) = true := by simp [taken.type.1, taken.other, member]
  show execHopReportReceived east false frame s = _
  unfold execHopReportReceived
  rw [take]
  exact if_neg enters

/-- A hop whose oldest entry of one list is dropped. -/
def RingHop.expire (h : RingHop) (back launch : Bool) : RingHop :=
  match back, launch with
  | false, true => { h with fwdLaunch := h.fwdLaunch.drop 1 }
  | false, false => { h with fwdArrive := h.fwdArrive.drop 1 }
  | true, true => { h with backLaunch := h.backLaunch.drop 1 }
  | true, false => { h with backArrive := h.backArrive.drop 1 }

theorem hopEntryExpired_drops {s : State} (pos : Fin 16) (back launch : Bool) {h : RingHop}
    (held : SMap.find s.time.hops pos.val = some h) :
    Does (.hopEntryExpired pos back launch) s (fun t => ∃ u, SMap.find t.time.hops pos.val = some u ∧ u.fwd = h.fwd ∧
      u.back = h.back ∧ t = { s with time := { s.time with hops := t.time.hops } } ∧
      u.fwdLaunch = (if !back && launch then h.fwdLaunch.drop 1 else h.fwdLaunch) ∧
      u.fwdArrive = (if !back && !launch then h.fwdArrive.drop 1 else h.fwdArrive) ∧
      u.backLaunch = (if back && launch then h.backLaunch.drop 1 else h.backLaunch) ∧
      u.backArrive = (if back && !launch then h.backArrive.drop 1 else h.backArrive)) := by
  refine ⟨s.setHop pos.val (h.expire back launch), ?_, h.expire back launch, SMap.find_put_same _ _ _, ?_⟩
  · show execHopEntryExpired pos back launch s = _
    unfold execHopEntryExpired
    rw [held]
    cases back <;> cases launch <;> rfl
  · cases back <;> cases launch <;> exact ⟨Eq.refl _, Eq.refl _, Eq.refl _, Eq.refl _, Eq.refl _, Eq.refl _, Eq.refl _⟩

theorem refclkRestored_ends {s : State} (on : s.pd .time = true) :
    Does .refclkRestored s (fun t => t.rd F.TIME_STATUS_refclk_lost = 0 ∧ RegsIn [.time] s t ∧
      t = { s with regs := t.regs, time := { s.time with intOsc := false } }) := by
  refine ⟨_, if_neg (by simp [on]), State.rd_wr_same s F.TIME_STATUS_refclk_lost 0, ?_, Eq.refl _⟩
  exact RegsIn.wr (s := s) F.TIME_STATUS_refclk_lost 0 .time .rfl (by decide) (by decide) (by decide) (by decide)

/-- Settles O30: a report's entries end in the calibration's registers, which what follows them leaves (`Measured`). -/
theorem ringMeasurement : Obligations.RingMeasurement := by
  unfold Obligations.RingMeasurement
  intro s east on
  refine ⟨fun joined up sub => ?_, hopReportSend_calibrates on, fun frame taken member => hopReportReceived_enters on taken member,
    fun pos back launch h held => hopEntryExpired_drops pos back launch held, refclkLost_holds on, refclkRestored_ends on⟩
  exact ⟨hopMarkSend_sends on joined up sub, hopMarkReceived_stamps on joined up sub⟩

end Sys2Proof.Machine

/-! PROOFS. O31: the master of a domain, its start, its increments and its DOMAIN frames. -/

namespace Sys2Proof.Machine

/-! DOMAIN frames (R246). -/

theorem byteAt_ringFrame_type {type : Nat} (small : type < 256) (flags source alive part parts instant period : Nat)
    (payload : Bytes) : byteAt (ringFrame type source flags alive part parts instant period payload) 0 = type := by
  simp [ringFrame, sealed, beBytes, byteAt, Nat.mod_eq_of_lt small]

theorem RegsIn.ringUp {B : List Bank} {s t : State} (h : RegsIn B s t) (ring : Bank.ring ∉ B) (east : Bool) :
    t.ringUp east = s.ringUp east := by
  unfold State.ringUp
  rw [h.rd_eq (b := .ring) (f := F.RING_STATUS_link_e) (by decide) ring, h.rd_eq (b := .ring) (f := F.RING_STATUS_link_w) (by decide) ring]

theorem RingSent.after {B : List Bank} {s u t : State} {type : Nat} (sent : RingSent u t type) (h : RegsIn B s u)
    (ring : Bank.ring ∉ B) : RingSent s t type := fun joined e up =>
  sent ((h.rd_eq (b := .ring) (f := F.RING_STATUS_bypass) (by decide) ring).trans joined) e ((h.ringUp ring e).trans up)

/-- From s to t the master has sent a frame and changed nothing else. -/
def SentOnly (s t : State) : Prop := RingSent s t 0x21 ∧ t = { s with ring := t.ring, fresh := t.fresh, out := t.out }

theorem State.sendDomain_sends {s : State} {d : Domain} (master : s.domRole d = 1) : SentOnly s (s.sendDomain d) := by
  obtain ⟨u, flags, instant, payload, whole, same⟩ : ∃ (u : State) (flags instant : Nat) (payload : Bytes),
      s.sendDomain d = u.sendRing 0x21 flags 0 0 instant 0 payload ∧ u = { s with fresh := u.fresh } := by
    refine ⟨_, _, _, _, if_neg (by simp [master]), ?_⟩
    split <;> rfl
  obtain ⟨out, sends, sent⟩ := u.sendRing_sends 0x21 flags 0 0 instant 0 payload
  rw [whole, sends, same]
  rw [same] at sent
  refine ⟨fun joined e up => ⟨_, sent joined e up, byteAt_ringFrame_type (by decide) _ _ _ _ _ _ _ _⟩, Eq.refl _⟩

theorem SentOnly.after {B : List Bank} {s u t : State} (h : SentOnly u t) (banks : RegsIn B s u) (ring : Bank.ring ∉ B) :
    RingSent s t 0x21 ∧ t.regs = u.regs ∧ t.time = u.time := by
  obtain ⟨sent, same⟩ := h
  rw [same]
  exact ⟨same ▸ sent.after banks ring, Eq.refl _, Eq.refl _⟩

/-- The master writes its domain and tells it in a frame. -/
theorem State.setDom_sends {s u : State} {d : Domain} (x : TimeDom) (banks : RegsIn [.time] s u) (master : u.domRole d = 1) :
    ((u.setDom d x).sendDomain d).dom d = x ∧ ((u.setDom d x).sendDomain d).regs = u.regs ∧
      RingSent s ((u.setDom d x).sendDomain d) 0x21 := by
  have role : (u.setDom d x).domRole d = 1 := by
    rw [← master]
    cases d <;> rfl
  obtain ⟨sent, regs, time⟩ := (State.sendDomain_sends role).after (banks.trans (.of_regs (State.setDom_regs u d x))) (by decide)
  refine ⟨Eq.trans ?_ (State.dom_setDom_same u d x), regs.trans (State.setDom_regs u d x), sent⟩
  unfold State.dom
  rw [time]

/-! Increments (R243, R244). -/

theorem State.setIncRegs_incRegs (s : State) (d : Domain) {inc : Nat} (small : inc < 2 ^ 40) :
    (s.setIncRegs d inc).incRegs d = inc := by
  have ns : (s.setIncRegs d inc).rd (F.INC_HI_ns (domNum d)) = inc / 2 ^ 32 % 2 ^ 8 := by
    rw [State.setIncRegs, State.rd_wr_ne _ _ _ _ (by cases d <;> decide), State.rd_wr_same, Nat.shiftRight_eq_div_pow]
    rfl
  have frac : (s.setIncRegs d inc).rd (F.INC_LO_frac (domNum d)) = inc % 2 ^ 32 % 2 ^ 32 := State.rd_wr_same _ _ _
  rw [State.incRegs, ns, frac]
  omega

/-- The increment in force has changed to the one that the domain holds. -/
theorem State.incChanged_tells {s u : State} {d : Domain} (regs : u.regs = s.regs) :
    (u.incChanged d).time = u.time ∧ (s.domRole d = 1 → (u.incChanged d).regs = s.regs ∧ RingSent s (u.incChanged d) 0x21) ∧
      (s.domRole d ≠ 1 → (u.dom d).inc < 2 ^ 40 → (u.incChanged d).incRegs d = (u.dom d).inc) := by
  have role : u.domRole d = s.domRole d := by
    have read (f : Fld) : u.rd f = s.rd f := congrArg (RegMap.get · f) regs
    simp only [State.domRole, read]
  unfold State.incChanged
  by_cases master : s.domRole d = 1
  · rw [if_pos (by simp [role, master])]
    obtain ⟨sent, same, time⟩ := (State.sendDomain_sends (role.trans master)).after (.of_regs (A := []) regs) (by decide)
    exact ⟨time, fun _ => ⟨same.trans regs, sent⟩, fun other => absurd master other⟩
  · rw [if_neg (by simp [role, master])]
    exact ⟨Eq.refl _, fun own => absurd own master, fun _ small => State.setIncRegs_incRegs _ _ small⟩

section
variable {s : State} {d : Domain} (on : s.pd .time = true)
include on

theorem masterElection_elects (candidate : s.candidate d = true) (other : s.domRole d ≠ 1) :
    Does (.masterElection d) s (fun t => t.domRole d = 1 ∧
      (s.domValid d = true → t.domState d = 2 ∧ (t.dom d).corr = 0 ∧ t.rd (F.DOM_ERR_err (domNum d)) = 0) ∧
      (s.domValid d = false → t.domState d = s.domState d ∧ (t.dom d).startOrdered = true ∧
        (t.dom d).restart = false ∧ (t.dom d).orderedAt = s.time.ticks)) := by
  have role : (s.setRole d 1).domRole d = 1 := by
    cases d <;> exact State.rd_wr_same _ _ _
  have state : (s.setRole d 1).domState d = s.domState d := by
    cases d <;> exact State.rd_wr_ne _ _ _ _ (by decide)
  have valid : (s.setRole d 1).domValid d = s.domValid d := by rw [State.domValid, state]; rfl
  have runs : exec (.masterElection d) s = if (s.setRole d 1).domValid d then _ else _ :=
    if_neg (by simp [on, candidate, other])
  rw [Does, runs, valid]
  cases was : s.domValid d with
  | true =>
    refine ⟨_, Eq.refl _, ?_, fun _ => ⟨State.setDomState_state _ _ (by decide), ?_, ?_⟩, nofun⟩
    · refine Eq.trans ?_ role
      cases d <;> refine ((State.setDomState_steers _ _ 2).regs _ (by decide) (by decide) (by decide)).trans ?_ <;>
        refine (State.rd_wr_ne _ _ _ _ (by decide)).trans (State.setDom_rd _ _ _ _)
    · rw [(State.setDomState_steers _ d 2).dom]
      cases d <;> rfl
    · cases d <;> exact ((State.setDomState_steers _ _ 2).regs _ (by decide) (by decide) (by decide)).trans (State.rd_wr_same _ _ _)
  | false =>
    refine ⟨_, Eq.refl _, ?_, nofun, fun _ => ?_⟩
    · cases d <;> exact role
    · cases d <;> exact ⟨state, Eq.refl _, Eq.refl _, Eq.refl _⟩

variable (master : s.domRole d = 1)
include master

theorem timeRestart_orders (key : s.key = 2 ∨ s.key = 3) : Does (.timeRestart d) s (fun t => t.regs = s.regs ∧
    t.dom d = { s.dom d with startOrdered := true, restart := true, orderedAt := s.time.ticks }) := by
  refine ⟨_, if_neg ?_, State.setDom_regs _ _ _, State.dom_setDom_same _ _ _⟩
  rcases key with key | key <;> simp [on, master, key]

theorem incWrite_announces (v : Word32) : Does (.incWrite d v) s (fun t =>
    (incOk (v.toNat % 256 * 2 ^ 32 + s.rd (F.INC_LO_frac (domNum d))) = true → ((t.dom d).next =
      some ⟨v.toNat % 256 * 2 ^ 32 + s.rd (F.INC_LO_frac (domNum d)), s.time.ticks + 20000, 0⟩ ∧ (t.dom d).inc = (s.dom d).inc ∧
      RingSent s t 0x21) ∧ t.rd (F.INC_HI_ns (domNum d)) = v.toNat % 256) ∧
    (incOk (v.toNat % 256 * 2 ^ 32 + s.rd (F.INC_LO_frac (domNum d))) = false → TimeRaised t 23 ∧ t.time = s.time)) := by
  generalize hinc : v.toNat % 256 * 2 ^ 32 + s.rd (F.INC_LO_frac (domNum d)) = inc
  have runs : exec (.incWrite d v) s = _ := if_neg (by simp [on, master])
  rw [Does, runs, hinc]
  cases fits : incOk inc with
  | true =>
    have banks : RegsIn [.time] s (s.wr (F.INC_HI_ns (domNum d)) (v.toNat % 256)) := by
      cases d <;> exact RegsIn.wr _ _ .time .rfl (by decide) (by decide) (by decide) (by decide)
    have role : (s.wr (F.INC_HI_ns (domNum d)) (v.toNat % 256)).domRole d = 1 := by
      rw [← master]
      cases d <;> exact State.rd_wr_ne s _ _ _ (by decide)
    obtain ⟨dom, regs, sent⟩ := State.setDom_sends { s.dom d with next := some ⟨inc, s.time.ticks + 20000, 0⟩ } banks role
    refine ⟨_, by cases d <;> rfl, fun _ => ⟨?_, (congrArg (RegMap.get · _) regs).trans ?_⟩, nofun⟩
    · rw [dom]
      exact ⟨Eq.refl _, Eq.refl _, sent⟩
    · exact (State.rd_wr_same _ _ _).trans (Nat.mod_eq_of_lt (Nat.mod_lt _ (by decide)))
  | false =>
    exact ⟨s.timeEvt 23, Eq.refl _, nofun, fun _ => ⟨s.timeEvt_raised (by decide), (s.timeEvt_keeps 23).parts .time (by decide)⟩⟩

omit on in
/-- A next increment written is announced with the increment in force kept. -/
theorem State.announces (next : Option NextInc) :
    (((s.setDom d { s.dom d with next := next }).sendDomain d).dom d).next = next ∧
      (((s.setDom d { s.dom d with next := next }).sendDomain d).dom d).inc = (s.dom d).inc ∧
      RingSent s ((s.setDom d { s.dom d with next := next }).sendDomain d) 0x21 := by
  obtain ⟨dom, -, sent⟩ := State.setDom_sends (s := s) { s.dom d with next := next } .rfl master
  rw [dom]
  exact ⟨Eq.refl _, Eq.refl _, sent⟩

theorem slewTicksWrite_announces (n : Word32) :
    let inc := s.rd (F.SLEW_INC_HI_inc (domNum d)) * 2 ^ 32 + s.rd (F.SLEW_INC_LO_inc (domNum d))
    let announced := fun (n : Option NextInc) (t : State) =>
      (t.dom d).next = n ∧ (t.dom d).inc = (s.dom d).inc ∧ RingSent s t 0x21
    Does (.slewTicksWrite d n) s (fun t =>
      (n.toNat = 0 → (s.dom d).slew = false → ∀ e, (s.dom d).next = some e → e.ticks ≠ 0 → announced none t) ∧
      (n.toNat = 0 → (s.dom d).slew = true → announced (some ⟨(s.dom d).slewBase, s.time.ticks + 20000, 0⟩) t) ∧
      (n.toNat ≠ 0 → incOk inc = true → announced (some ⟨inc, s.time.ticks + 20000, n.toNat⟩) t) ∧
      (n.toNat ≠ 0 → incOk inc = false → TimeRaised t 23 ∧ t.time = s.time)) := by
  intro inc announced
  have runs : exec (.slewTicksWrite d n) s = _ := if_neg (by simp [on, master])
  rw [Does, runs]
  by_cases ends : n.toNat = 0
  · rw [if_pos ends]
    by_cases slewing : (s.dom d).slew = true
    · exact ⟨_, if_pos slewing, fun _ still => absurd slewing (by simp [still]), fun _ _ => State.announces master _,
        fun more => absurd ends more, fun more => absurd ends more⟩
    · by_cases temporary : (s.dom d).next.any (fun e => e.ticks != 0) = true
      · exact ⟨_, (if_neg slewing).trans (if_pos temporary), fun _ _ _ _ _ => State.announces master none,
          fun _ is => absurd is slewing, fun more => absurd ends more, fun more => absurd ends more⟩
      · refine ⟨_, (if_neg slewing).trans (if_neg temporary), fun _ _ e next ticks => absurd ?_ temporary,
          fun _ is => absurd is slewing, fun more => absurd ends more, fun more => absurd ends more⟩
        simp [next, ticks]
  · rw [if_neg ends]
    cases fits : incOk inc with
    | true => exact ⟨_, if_neg (by simpa [inc] using fits), fun zero => absurd zero ends, fun zero => absurd zero ends,
        fun _ _ => State.announces master _, nofun⟩
    | false => exact ⟨s.timeEvt 23, if_pos (by simpa [inc] using fits), fun zero => absurd zero ends, fun zero => absurd zero ends, nofun,
        fun _ _ => ⟨s.timeEvt_raised (by decide), (s.timeEvt_keeps 23).parts .time (by decide)⟩⟩

/-- The replica of a domain that starts (R242). -/
def State.startDom (s : State) (d : Domain) : TimeDom :=
  { s.dom d with
    running := true, value := (if (s.dom d).restart then s.rd F.START_SEC_HI_sec * 2 ^ 32 + s.rd F.START_SEC_LO_sec
      else s.time.calendar + 1) * unitSec,
    inc := (s.dom d).taken, next := none, slew := false, slewLeft := 0, corr := 0, corrLeft := 0, goodRun := 0,
    startOrdered := false, restart := false, master := s.position }

/-- A domain that starts, before its state follows. -/
def State.startedDom (s : State) (d : Domain) : State :=
  ((s.setDom d (s.startDom d)).setGen d (s.domGen d + 1)).wr (F.DOM_ERR_err (domNum d)) 0

omit on in
theorem State.startedDom_starts : RegsIn [.time] s (s.startedDom d) ∧ (s.startedDom d).dom d = s.startDom d ∧
    (s.startedDom d).domRole d = 1 ∧ (s.startedDom d).domGen d = (s.domGen d + 1) % 256 := by
  have base : RegsIn [.time] s (s.setDom d (s.startDom d)) := .of_regs (State.setDom_regs _ _ _)
  refine ⟨?_, by cases d <;> rfl, ?_, ?_⟩
  · cases d <;> exact .wr _ _ .time (.wr _ _ .time base (by decide) (by decide) (by decide) (by decide)) (by decide) (by decide)
      (by decide) (by decide)
  · rw [← master]
    cases d <;> exact (State.rd_wr_ne _ _ _ _ (by decide)).trans (State.rd_wr_ne _ _ _ _ (by decide))
  · cases d <;> exact (State.rd_wr_ne _ _ _ _ (by decide)).trans (State.rd_wr_same _ _ _)

theorem domainStart_starts (ordered : (s.dom d).startOrdered = true)
    (due : (s.dom d).orderedAt + 343750000 ≤ s.time.ticks ∨
      (s.act (if isB d then F.TIME_MASTER_pps_b_en else F.TIME_MASTER_pps_a_en) = 1 ∧ (s.dom d).lastEdge = some s.time.ticks)) :
    Does (.domainStart d) s (fun t =>
      (t.dom d).running = true ∧ (t.dom d).next = none ∧ (t.dom d).startOrdered = false ∧ (t.dom d).slew = false ∧
        ((s.dom d).slew = false → (s.dom d).next = none → (t.dom d).inc = (s.dom d).inc) ∧
        (t.dom d).value = (if (s.dom d).restart then s.rd F.START_SEC_HI_sec * 2 ^ 32 + s.rd F.START_SEC_LO_sec
          else s.time.calendar + 1) * unitSec ∧
        t.domGen d = (s.domGen d + 1) % 256 ∧ t.domState d = 2 ∧ t.rd (F.DOM_ERR_err (domNum d)) = 0 ∧ RingSent s t 0x21) := by
  have now : s.startDue d = true := by
    unfold State.startDue State.aon
    rcases due with waited | ⟨enabled, edge⟩
    · simp [ordered, waited]
    · simp [ordered, enabled, edge]
  obtain ⟨banks, dom, role, gen⟩ := State.startedDom_starts master
  have steers := (s.startedDom d).setDomState_steers d 2
  have stands (f : Fld) (hf : f.In .time ∧ f.off ≠ 0x500C ∧ ∀ g ∈ [domFld d, F.TIME_STATUS_work, F.TIME_STATUS_slewing], g.key ≠ f.key) :=
    steers.regs f hf.1 hf.2.1 hf.2.2
  have role' : ((s.startedDom d).setDomState d 2).domRole d = 1 := by
    rw [← role]
    cases d <;> exact stands _ (by decide)
  have wide : RegsIn [.events, .time, .viol] s ((s.startedDom d).setDomState d 2) := (banks.mono (by decide)).trans steers.banks
  obtain ⟨sent, regs, time⟩ := (State.sendDomain_sends role').after wide (by decide)
  have held : (((s.startedDom d).setDomState d 2).sendDomain d).dom d = s.startDom d := by
    rw [← dom, ← steers.dom d]
    unfold State.dom
    rw [time]
  have read (f : Fld) : (((s.startedDom d).setDomState d 2).sendDomain d).rd f = ((s.startedDom d).setDomState d 2).rd f :=
    congrArg (RegMap.get · f) regs
  have runs : exec (.domainStart d) s = .next (((s.startedDom d).setDomState d 2).sendDomain d) := by
    have reached : ¬(!s.pd .time || s.domRole d != 1 || !s.startDue d) = true := by simp [on, master, now]
    cases d <;> exact if_neg reached
  refine ⟨_, runs, ?_⟩
  beta_reduce
  rw [held]
  refine ⟨Eq.refl _, Eq.refl _, Eq.refl _, Eq.refl _, fun slew next => ?_, Eq.refl _, ?_, ?_, ?_, sent⟩
  · simp [State.startDom, TimeDom.taken, slew, next]
  · rw [← gen]
    cases d <;> exact (read _).trans (stands _ (by decide))
  · have state := (s.startedDom d).setDomState_state d (st := 2) (by decide)
    rw [State.domState_eq, read, ← State.domState_eq, state]
  · cases d <;> exact (read _).trans ((stands _ (by decide)).trans (State.rd_wr_same _ _ _))

theorem domainFrameSend_sends : Does (.domainFrameSend d) s (fun t => RingSent s t 0x21 ∧
    t = { s with ring := t.ring, fresh := t.fresh, out := t.out }) :=
  ⟨s.sendDomain d, if_neg (by simp [on]), State.sendDomain_sends master⟩

end

/-- What an increment that comes into force tells: a master by a frame, a follower in its registers. -/
def IncTold (s : State) (d : Domain) (t : State) (inc : Nat) : Prop :=
  (s.domRole d = 1 → t.regs = s.regs ∧ RingSent s t 0x21) ∧ (s.domRole d ≠ 1 → inc < 2 ^ 40 → t.incRegs d = inc)

theorem State.setDom_incChanged (s : State) (d : Domain) (x : TimeDom) :
    IncTold s d ((s.setDom d x).incChanged d) x.inc ∧ ((s.setDom d x).incChanged d).dom d = x := by
  obtain ⟨time, masters, follows⟩ := State.incChanged_tells (u := s.setDom d x) (d := d) (State.setDom_regs s d x)
  rw [State.dom_setDom_same] at follows
  refine ⟨⟨masters, follows⟩, Eq.trans ?_ (State.dom_setDom_same s d x)⟩
  unfold State.dom
  rw [time]

/-- Settles O31: every frame of the master is its domain written, then sent (`State.setDom_sends`), and an increment that
comes into force is told by `State.setDom_incChanged`. -/
theorem domainMasterRuns : Obligations.DomainMasterRuns := by
  unfold Obligations.DomainMasterRuns
  intro s d on x i announced refused
  refine ⟨masterElection_elects on, fun master => ⟨timeRestart_orders on master, domainStart_starts on master,
    incWrite_announces on master, slewTicksWrite_announces on master, domainFrameSend_sends on master⟩, fun e next => ⟨fun early => ?_,
    fun due => ?_⟩, fun slew ended => ?_⟩
  · refine ⟨s, ?_, Eq.refl _⟩
    show execIncApply d s = _
    unfold execIncApply
    rw [next]
    exact if_pos (by simp [early])
  · obtain ⟨told, dom⟩ := s.setDom_incChanged d ((s.dom d).applyInc e.inc e.ticks)
    refine ⟨_, ?_, told, dom⟩
    show execIncApply d s = _
    unfold execIncApply
    rw [next]
    exact if_neg (by simp [on, due])
  · obtain ⟨told, dom⟩ := s.setDom_incChanged d { s.dom d with inc := (s.dom d).slewBase, slew := false }
    exact ⟨_, if_neg (by simp [on, show (s.dom d).slew = true from slew, show (s.dom d).slewLeft = 0 from ended]), told, dom⟩

end Sys2Proof.Machine

/-! PROOFS. O32: followers of a domain, HOLDOVER, captured edges and snapshots. -/

namespace Sys2Proof.Machine

/-! The estimate of a frame (R249, R251). -/

section
variable {s t : State} (h : SameLoop s t) (time : t.time = s.time)
include h time

theorem SameLoop.thetaC (x : RingHop) : t.thetaC x = s.thetaC x := by
  unfold State.thetaC State.sumDelay
  rw [h.loopHops, time]

theorem SameLoop.bigTheta (master : Nat) : t.bigTheta master = s.bigTheta master := by
  have way (p i : Nat) : t.onWay p i = s.onWay p i := by
    unfold State.onWay
    rw [h.position]
  unfold State.bigTheta
  simp only [h.loopHops, h.thetaC time, way]

theorem SameLoop.estimate (p : Bytes) : t.estimate p = s.estimate p := by
  unfold State.estimate
  rw [h.bigTheta time, time]

end

theorem RegsIn.loop {s t : State} (h : RegsIn [.time] s t) (time : t.time = s.time) : SameLoop s t :=
  ⟨by rw [time], fun _ hf _ => h.rd_eq hf (by decide)⟩

/-! A follower's frame (R251, R252). -/

/-- A frame's generation, and how far the replica is from its estimate, in their registers. -/
def State.gaveErr (s : State) (d : Domain) (p : Bytes) : State :=
  (s.setGen d (byteAt p 1)).wr (F.DOM_ERR_err (domNum d)) (toBits 32 (rdiv (((s.setGen d (byteAt p 1)).dom d).value -
    (s.setGen d (byteAt p 1)).estimate p) (2 ^ 24)))

/-- The registers that a frame gives a follower. -/
def State.gaveRegs (s : State) (d : Domain) (p : Bytes) : State := (s.gaveErr d p).setIncRegs d (beAt p 28 5)

/-- The replica with what every frame gives it: the increment, the next one, and the master. -/
def State.gaveDom (s : State) (d : Domain) (p : Bytes) : TimeDom :=
  { (s.gaveErr d p).slewedTo ((s.setGen d (byteAt p 1)).dom d) (beAt p 28 5) with
    next := (s.gaveErr d p).frameNext p, master := byteAt p 3 % 16, ppsLocked := bitOf (byteAt p 2) 1 }

theorem State.slewedTo_gives (s : State) (x : TimeDom) (inc : Nat) :
    (s.slewedTo x inc).inc = inc ∧ (s.slewedTo x inc).value = x.value := by
  unfold State.slewedTo
  split
  · next same => exact ⟨same.symm, Eq.refl _⟩
  · split
    · split <;> exact ⟨Eq.refl _, Eq.refl _⟩
    · exact ⟨Eq.refl _, Eq.refl _⟩

theorem State.setGen_estimate (s : State) (d : Domain) (g : Nat) (p : Bytes) : (s.setGen d g).estimate p = s.estimate p := by
  have banks : RegsIn [.time] s (s.setGen d g) := by
    cases d <;> exact RegsIn.wr _ _ .time .rfl (by decide) (by decide) (by decide) (by decide)
  exact (banks.loop (Eq.refl _)).estimate (Eq.refl _) p

theorem State.gaveRegs_stands (s : State) (d : Domain) (p : Bytes) :
    ∀ f ∈ [domFld d, if isB d then F.TIME_STATUS_role_b else F.TIME_STATUS_role_a, F.TIME_STATUS_cal, F.TIME_STATUS_refclk_lost],
      (s.gaveRegs d p).rd f = s.rd f := by
  intro f hf
  have apart : f.key ≠ (if isB d then F.TIME_STATUS_gen_b else F.TIME_STATUS_gen_a).key ∧ f.key ≠ (F.DOM_ERR_err (domNum d)).key ∧
      f.key ≠ (F.INC_HI_ns (domNum d)).key ∧ f.key ≠ (F.INC_LO_frac (domNum d)).key := by
    revert f
    cases d <;> decide
  obtain ⟨gen, err, ns, frac⟩ := apart
  exact (State.rd_wr_ne _ _ _ _ frac.symm).trans ((State.rd_wr_ne _ _ _ _ ns.symm).trans ((State.rd_wr_ne _ _ _ _ err.symm).trans
    (State.rd_wr_ne _ _ _ _ gen.symm)))

theorem byteAt_lt (b : Bytes) (i : Nat) : byteAt b i < 256 := BitVec.isLt _

theorem State.gaveRegs_domGen (s : State) (d : Domain) (p : Bytes) : (s.gaveRegs d p).domGen d = byteAt p 1 := by
  have gen : (s.setGen d (byteAt p 1)).domGen d = byteAt p 1 := by
    cases d <;> exact (State.rd_wr_same _ _ _).trans (Nat.mod_eq_of_lt (byteAt_lt p 1))
  rw [← gen]
  cases d <;> exact (State.rd_wr_ne _ _ _ _ (by decide)).trans ((State.rd_wr_ne _ _ _ _ (by decide)).trans
    (State.rd_wr_ne _ _ _ _ (by decide)))

/-- The replica set to a frame's estimate. -/
def State.gaveSet (s : State) (d : Domain) (p : Bytes) : TimeDom :=
  { s.gaveDom d p with
    running := true, value := ((s.setGen d (byteAt p 1)).estimate p).toNat, corr := 0, corrLeft := 0, goodRun := 0 }

/-- How far a replica is from the estimate of a frame. -/
def State.frameErr (s : State) (d : Domain) (p : Bytes) : Int := ((s.dom d).value : Int) - s.estimate p

section
variable {s : State} {d : Domain} {p : Bytes}

theorem State.gaveRegs_domState : (s.gaveRegs d p).domState d = s.domState d := by
  rw [State.domState_eq, State.domState_eq, s.gaveRegs_stands d p _ List.mem_cons_self]

theorem State.setGen_frameErr : (((s.setGen d (byteAt p 1)).dom d).value : Int) - (s.setGen d (byteAt p 1)).estimate p = s.frameErr d p := by
  rw [State.setGen_estimate]
  rfl

theorem State.setDom_setDom (s : State) (d : Domain) (x y : TimeDom) : (s.setDom d x).setDom d y = s.setDom d y := by
  cases d <;> rfl

/-- A replica that is set counts a run of good frames, and is LOCKED at the 16th. -/
theorem State.setRun_steers (u : State) (d : Domain) (x : TimeDom) (run : Nat) : ∃ y : TimeDom,
    Steered [domFld d, F.TIME_STATUS_work, F.TIME_STATUS_slewing] (u.setDom d y) (if 16 ≤ run then
      ((u.setDom d { x with goodRun := run }).setDom d { x with goodRun := 0 }).setDomState d 2
      else u.setDom d { x with goodRun := run }) ∧ y.inc = x.inc := by
  rw [State.setDom_setDom]
  split
  · exact ⟨_, State.setDomState_steers _ _ _, Eq.refl _⟩
  · exact ⟨_, .rfl, Eq.refl _⟩

/-- Whatever a frame does, it writes the registers and the replica, then at most the domain's state. -/
theorem State.followFrame_steers (s : State) (d : Domain) (p : Bytes) : ∃ y : TimeDom, y.inc = beAt p 28 5 ∧
    Steered [domFld d, F.TIME_STATUS_work, F.TIME_STATUS_slewing] ((s.gaveRegs d p).setDom d y) (s.followFrame d p) := by
  have inc := ((s.gaveErr d p).slewedTo_gives ((s.setGen d (byteAt p 1)).dom d) (beAt p 28 5)).1
  suffices settles : ∃ y : TimeDom, Steered [domFld d, F.TIME_STATUS_work, F.TIME_STATUS_slewing] ((s.gaveRegs d p).setDom d y)
      (s.followFrame d p) ∧ y.inc = ((s.gaveErr d p).slewedTo ((s.setGen d (byteAt p 1)).dom d) (beAt p 28 5)).inc by
    obtain ⟨y, steers, same⟩ := settles
    exact ⟨y, same.trans inc, steers⟩
  unfold State.followFrame
  simp only
  split
  · split
    · exact ⟨_, State.setDomState_steers _ _ _, Eq.refl _⟩
    · exact ⟨_, .rfl, Eq.refl _⟩
  · exact State.setRun_steers _ d (s.gaveSet d p) _
  · split
    · exact ⟨_, State.setDomState_steers _ _ _, Eq.refl _⟩
    · split <;> exact ⟨_, State.setDomState_steers _ _ _, Eq.refl _⟩

/-- An INVALID domain takes a running master's estimate. -/
theorem State.followFrame_invalid (invalid : s.domState d = 0) (running : bitOf (byteAt p 2) 0 = true) :
    s.followFrame d p = ((s.gaveRegs d p).setDom d (s.gaveSet d p)).setDomState d 1 := by
  have st : (s.gaveRegs d p).domState d = 0 := State.gaveRegs_domState.trans invalid
  unfold State.gaveRegs State.gaveErr at st
  unfold State.followFrame
  simp only [st, running]
  rfl

/-- A LOCKED one is set anew by a new generation, or by an estimate further off than 1 ns. -/
theorem State.followFrame_far (locked : s.domState d = 2) (off : byteAt p 1 ≠ s.domGen d ∨ unitNs < (s.frameErr d p).natAbs) :
    s.followFrame d p = ((s.gaveRegs d p).setDom d (s.gaveSet d p)).setDomState d 1 := by
  have st : (s.gaveRegs d p).domState d = 2 := State.gaveRegs_domState.trans locked
  have away : (byteAt p 1 != s.domGen d && s.domState d != 0 || decide (unitNs < (s.frameErr d p).natAbs)) = true := by
    rcases off with gen | far <;> simp [*]
  unfold State.gaveRegs State.gaveErr at st
  unfold State.followFrame
  simp only [State.setGen_frameErr] at st ⊢
  simp only [st, away, if_true]
  rw [State.gaveRegs, State.gaveErr, State.gaveSet, State.gaveDom, State.gaveErr, State.setGen_frameErr]

/-- A LOCKED one within 1 ns of the estimate, where the calibration is good, is steered over 5,000 ticks. -/
theorem State.followFrame_near (locked : s.domState d = 2) (gen : byteAt p 1 = s.domGen d) (near : (s.frameErr d p).natAbs ≤ unitNs)
    (cal : s.rd F.TIME_STATUS_cal = 2) (reference : s.rd F.TIME_STATUS_refclk_lost = 0) :
    s.followFrame d p = ((s.gaveRegs d p).setDom d { s.gaveDom d p with
      corr := min (max (rdiv (-s.frameErr d p) 5000) (-13744)) 13744, corrLeft := 5000 }).setDomState d 2 := by
  have st : (s.gaveRegs d p).domState d = 2 := State.gaveRegs_domState.trans locked
  have stay : (byteAt p 1 != s.domGen d && s.domState d != 0 || decide (unitNs < (s.frameErr d p).natAbs)) = false := by
    simp [gen, near]
  have good : (!((s.gaveRegs d p).rd F.TIME_STATUS_cal == 2 && !(s.gaveRegs d p).on F.TIME_STATUS_refclk_lost)) = false := by
    rw [State.on, s.gaveRegs_stands d p _ (by simp), s.gaveRegs_stands d p _ (by simp), cal, reference]
    rfl
  unfold State.gaveRegs State.gaveErr at st good
  unfold State.followFrame
  simp only [State.setGen_frameErr] at st good ⊢
  simp only [st, stay, good, if_false, Bool.false_eq_true]
  rw [State.gaveRegs, State.gaveErr, State.gaveDom, State.gaveErr, State.setGen_frameErr]

/-- What a frame gives every follower. -/
theorem State.followFrame_gives (s : State) (d : Domain) (p : Bytes) :
    (s.followFrame d p).domGen d = byteAt p 1 ∧ ((s.followFrame d p).dom d).inc = beAt p 28 5 ∧
      (s.followFrame d p).incRegs d = beAt p 28 5 ∧ (s.followFrame d p).domRole d = s.domRole d := by
  obtain ⟨y, inc, steers⟩ := s.followFrame_steers d p
  have stands (f : Fld) (hf : f.In .time ∧ f.off ≠ 0x500C ∧ ∀ g ∈ [domFld d, F.TIME_STATUS_work, F.TIME_STATUS_slewing], g.key ≠ f.key) :
      (s.followFrame d p).rd f = (s.gaveRegs d p).rd f := (steers.regs f hf.1 hf.2.1 hf.2.2).trans (State.setDom_rd _ _ _ _)
  refine ⟨?_, by rw [steers.dom, State.dom_setDom_same, inc], ?_, ?_⟩
  · rw [← s.gaveRegs_domGen d p]
    cases d <;> exact stands _ (by decide)
  · refine Eq.trans ?_ (State.setIncRegs_incRegs (s.gaveErr d p) d (beAt_lt p 28 5))
    unfold State.incRegs
    cases d <;> rw [stands _ (by decide), stands _ (by decide)] <;> rfl
  · have kept := s.gaveRegs_stands d p _ (List.mem_cons_of_mem _ List.mem_cons_self)
    cases d <;> exact (stands _ (by decide)).trans kept

/-- A replica that is set holds the estimate, and its domain is ACQUIRING. -/
theorem State.gaveSet_sets (s : State) (d : Domain) (p : Bytes) :
    let t := ((s.gaveRegs d p).setDom d (s.gaveSet d p)).setDomState d 1
    (t.dom d).value = (s.estimate p).toNat ∧ (t.dom d).running = true ∧ t.domState d = 1 := by
  intro t
  have dom : t.dom d = s.gaveSet d p := ((State.setDomState_steers _ d 1).dom d).trans (State.dom_setDom_same _ _ _)
  rw [dom]
  exact ⟨congrArg Int.toNat (State.setGen_estimate _ _ _ _), Eq.refl _, State.setDomState_state _ _ (by decide)⟩

/-- What a frame does to a follower's replica, by the state of its domain. -/
theorem State.followFrame_follows (s : State) (d : Domain) (p : Bytes) :
    let t := s.followFrame d p
    let set := (t.dom d).value = (s.estimate p).toNat ∧ (t.dom d).running = true ∧ t.domState d = 1
    (s.domState d = 0 → bitOf (byteAt p 2) 0 = true → set) ∧
      (s.domState d = 2 → byteAt p 1 = s.domGen d → (s.frameErr d p).natAbs ≤ unitNs → s.rd F.TIME_STATUS_cal = 2 →
        s.rd F.TIME_STATUS_refclk_lost = 0 → t.domState d = 2 ∧ (t.dom d).value = (s.dom d).value ∧
        (t.dom d).corr = min (max (rdiv (-s.frameErr d p) 5000) (-13744)) 13744 ∧ (t.dom d).corrLeft = 5000) ∧
      (s.domState d = 2 → byteAt p 1 ≠ s.domGen d ∨ unitNs < (s.frameErr d p).natAbs → set) := by
  intro t set
  refine ⟨fun invalid running => ?_, fun locked gen near cal reference => ?_, fun locked off => ?_⟩
  · simp only [set, t, State.followFrame_invalid invalid running]
    exact s.gaveSet_sets d p
  · simp only [t, State.followFrame_near locked gen near cal reference]
    rw [(State.setDomState_steers _ d 2).dom, State.dom_setDom_same]
    exact ⟨State.setDomState_state _ _ (by decide), ((s.gaveErr d p).slewedTo_gives _ _).2, Eq.refl _, Eq.refl _⟩
  · simp only [set, t, State.followFrame_far locked off]
    exact s.gaveSet_sets d p

end

theorem byteAt_take_drop (b : Bytes) {i n : Nat} (h : i < n) (k : Nat) : byteAt ((b.drop k).take n) i = byteAt b (k + i) := by
  simp [byteAt, h, List.getElem?_drop]

theorem domNum_domain (d : Domain) : (if domNum d = 1 then Domain.b else Domain.a) = d ∧ ¬1 < domNum d := by
  cases d <;> decide

theorem domainFrameReceived_follows {s : State} {d : Domain} {east : Bool} {frame : Bytes} (on : s.pd .time = true)
    (taken : RingTaken s east 0x21 frame) (own : byteAt frame 32 = domNum d) (follower : s.domRole d ≠ 1) :
    ∃ u : State, u.time = s.time ∧ u.image = s.image ∧ SameLoop s u ∧ Forwarded s u east frame ∧ u.domState d = s.domState d ∧
      u.domGen d = s.domGen d ∧ u.rd F.TIME_STATUS_cal = s.rd F.TIME_STATUS_cal ∧
      u.rd F.TIME_STATUS_refclk_lost = s.rd F.TIME_STATUS_refclk_lost ∧ u.domRole d = (if s.candidate d then 2 else 0) ∧
      exec (.domainFrameReceived east false frame) s = .next (u.followFrame d ((frame.drop 32).take 56)) := by
  obtain ⟨out, take, forwarded⟩ := taken.takes (by decide)
  refine ⟨(s.tookRing frame out).setRole d (if s.candidate d then 2 else 0), Eq.refl _, Eq.refl _, ⟨Eq.refl _, fun f hf _ => ?_⟩,
    forwarded, ?_, ?_, ?_, ?_, ?_, ?_⟩
  · have banks : RegsIn [.time] (s.tookRing frame out) ((s.tookRing frame out).setRole d (if s.candidate d then 2 else 0)) := by
      cases d <;> exact RegsIn.wr _ _ .time .rfl (by decide) (by decide) (by decide) (by decide)
    exact banks.rd_eq hf (by decide)
  · cases d <;> exact State.rd_wr_ne _ _ _ _ (by decide)
  · cases d <;> exact State.rd_wr_ne _ _ _ _ (by decide)
  · cases d <;> exact State.rd_wr_ne _ _ _ _ (by decide)
  · cases d <;> exact State.rd_wr_ne _ _ _ _ (by decide)
  · have small : (if s.candidate d then 2 else 0) < 4 := by split <;> decide
    cases d <;> exact (State.rd_wr_same _ _ _).trans (Nat.mod_eq_of_lt small)
  · have which : byteAt ((frame.drop 32).take 56) 0 = domNum d := (byteAt_take_drop frame (by decide) 32).trans own
    have role : (s.tookRing frame out).domRole d = s.domRole d := by cases d <;> rfl
    show execDomainFrameReceived east false frame s = _
    unfold execDomainFrameReceived
    rw [take]
    have on' : (s.tookRing frame out).pd .time = true := on
    have other : byteAt frame 1 % 16 ≠ (s.tookRing frame out).position := taken.other
    have candidate : (s.tookRing frame out).candidate d = s.candidate d := rfl
    simp only [which, domNum_domain d, role, on', taken.type.1, beq_false_of_ne other, beq_false_of_ne follower, candidate]
    rfl

/-! Captured edges (R245, R261) and snapshots (R266). -/

/-- The four words of a time word, in the registers of a capture. -/
def State.putWord (s : State) (f : Nat → Fld) (w : Nat) : State :=
  (upTo 4).foldl (fun s i => s.wr (f i) (w >>> (32 * i) % 2 ^ 32)) s

theorem State.putWord_words (s : State) (f : Nat → Fld) {base : Nat} (at_ : ∀ i, f i = ⟨base + 4 * i, 0, 32, 0⟩) (w : Nat) :
    (∀ j < 4, (s.putWord f w).rd (f j) = w / 2 ^ (32 * j) % 2 ^ 32) ∧
      ∀ g : Fld, g.off < base ∨ base + 16 ≤ g.off → g.lo < 32 → (s.putWord f w).rd g = s.rd g := by
  refine ⟨fun j hj => rd_foldl_of_mem s (mem_upTo.2 hj) (fun u => ?_) fun u b ne => ?_, fun g apart low =>
    rd_foldl s fun u b hb => ?_⟩
  · rw [at_, State.rd_wr_same, Nat.shiftRight_eq_div_pow, Nat.mod_mod]
  · refine State.rd_wr_ne _ _ _ _ ?_
    simp only [at_, Fld.key]
    omega
  · have := mem_upTo.1 hb
    refine State.rd_wr_ne _ _ _ _ ?_
    simp only [at_, Fld.key]
    omega

theorem State.putWord_regs (s : State) (f : Nat → Fld) (w : Nat) (place : ∀ i < 4, (f i).In .time) :
    RegsIn [.time] s (s.putWord f w) ∧ OnlyRegs s (s.putWord f w) := by
  refine ⟨RegsIn.upTo _ 4 .rfl fun u i hi hu => ?_, OnlyRegs.foldl _ _ .rfl fun u i hu => hu.wr _ _⟩
  obtain ⟨low, from_, to_⟩ := place i hi
  exact RegsIn.wr _ _ .time hu low List.mem_cons_self from_ to_

theorem OnlyRegs.trans {s t u : State} (h : OnlyRegs s t) (g : OnlyRegs t u) : OnlyRegs s u := by
  unfold OnlyRegs at g ⊢
  rw [h] at g
  exact g

/-- The state with LOCAL in the registers of a snapshot. -/
def State.putLocal (s : State) : State :=
  (s.wr F.SNAP_LOCAL_LO_stamp (s.localStamp % 2 ^ 32)).wr F.SNAP_LOCAL_HI_stamp (s.localStamp >>> 32)

theorem timeSnap_snaps {s : State} (on : s.pd .time = true) :
    let words := fun (t : State) (f : Nat → Fld) (w : Nat) => ∀ j < 4, t.rd (f j) = w / 2 ^ (32 * j) % 2 ^ 32
    Does .timeSnap s (fun t => t.rd F.SNAP_LOCAL_LO_stamp = s.localStamp % 2 ^ 32 ∧
      t.rd F.SNAP_LOCAL_HI_stamp = s.localStamp / 2 ^ 32 % 2 ^ 32 ∧ words t F.SNAP_WORK_word s.workWord ∧
      words t F.SNAP_A_word (s.domWord .a) ∧ words t F.SNAP_B_word (s.domWord .b) ∧ RegsIn [.time] s t ∧ OnlyRegs s t) := by
  intro words
  have local_ : RegsIn [.time] s s.putLocal := .wr _ _ .time (.wr _ _ .time .rfl (by decide) (by decide) (by decide) (by decide))
    (by decide) (by decide) (by decide) (by decide)
  have worked := s.putLocal.putWord_words F.SNAP_WORK_word (base := 20560) (fun _ => Eq.refl _) s.workWord
  have workRegs := s.putLocal.putWord_regs F.SNAP_WORK_word s.workWord (by decide)
  have word (d : Domain) : s.putLocal.domWord d = s.domWord d := by
    have st : s.putLocal.domState d = s.domState d := by
      cases d <;> exact (State.rd_wr_ne _ _ _ _ (by decide)).trans (State.rd_wr_ne _ _ _ _ (by decide))
    unfold State.domWord State.domWordAt State.domValid
    rw [st]
    rfl
  generalize hw : s.putLocal.putWord F.SNAP_WORK_word s.workWord = u at worked workRegs
  have domA := u.putWord_words F.SNAP_A_word (base := 20576) (fun _ => Eq.refl _) (s.domWord .a)
  have aRegs := u.putWord_regs F.SNAP_A_word (s.domWord .a) (by decide)
  generalize ha : u.putWord F.SNAP_A_word (s.domWord .a) = v at domA aRegs
  have domB := v.putWord_words F.SNAP_B_word (base := 20592) (fun _ => Eq.refl _) (s.domWord .b)
  have bRegs := v.putWord_regs F.SNAP_B_word (s.domWord .b) (by decide)
  refine ⟨v.putWord F.SNAP_B_word (s.domWord .b), ?_, ?_, ?_, fun j hj => ?_, fun j hj => ?_, domB.1,
    ((local_.trans workRegs.1).trans aRegs.1).trans bRegs.1, ?_⟩
  · rw [← ha, ← hw, ← word, ← word]
    exact if_neg (by simp [on])
  · rw [domB.2 _ (by decide) (by decide), domA.2 _ (by decide) (by decide), worked.2 _ (by decide) (by decide)]
    exact (State.rd_wr_ne _ _ _ _ (by decide)).trans ((State.rd_wr_same _ _ _).trans (Nat.mod_mod _ _))
  · rw [domB.2 _ (by decide) (by decide), domA.2 _ (by decide) (by decide), worked.2 _ (by decide) (by decide)]
    exact (State.rd_wr_same _ _ _).trans (by rw [Nat.shiftRight_eq_div_pow]; rfl)
  · have place : (F.SNAP_WORK_word j).off = 20560 + 4 * j := rfl
    rw [domB.2 _ (by omega) (by decide : 0 < 32), domA.2 _ (by omega) (by decide : 0 < 32), worked.1 j hj]
  · have place : (F.SNAP_A_word j).off = 20576 + 4 * j := rfl
    rw [domB.2 _ (by omega) (by decide : 0 < 32), domA.1 j hj]
  · exact (((OnlyRegs.rfl.wr F.SNAP_LOCAL_LO_stamp _).wr F.SNAP_LOCAL_HI_stamp _).trans workRegs.2).trans (aRegs.2.trans bRegs.2)

/-- The two time words of a captured edge, in its domain's registers. -/
def State.putEdge (s : State) (i c w : Nat) : State :=
  (upTo 4).foldl (fun s j =>
    (s.wr (F.PPS_CAP_word i j) (c >>> (32 * j) % 2 ^ 32)).wr (F.PPS_WORK_word i j) (w >>> (32 * j) % 2 ^ 32)) s

theorem State.putEdge_words (s : State) (d : Domain) (c w : Nat) {j : Nat} (hj : j < 4) :
    (s.putEdge (domNum d) c w).rd (F.PPS_CAP_word (domNum d) j) = c / 2 ^ (32 * j) % 2 ^ 32 ∧
      (s.putEdge (domNum d) c w).rd (F.PPS_WORK_word (domNum d) j) = w / 2 ^ (32 * j) % 2 ^ 32 := by
  have four : upTo 4 = [0, 1, 2, 3] := rfl
  unfold State.putEdge
  rw [four, ← Nat.shiftRight_eq_div_pow, ← Nat.shiftRight_eq_div_pow]
  simp only [List.foldl]
  generalize domNum d = i
  constructor
  all_goals
    interval_cases j <;>
      simp (disch := (simp only [Fld.key, F.PPS_CAP_word, F.PPS_WORK_word]; omega)) only [State.rd_wr_ne, State.rd_wr_same] <;>
      exact Nat.mod_mod _ _

theorem State.putEdge_ne (s : State) (d : Domain) (c w : Nat) {f : Fld} (low : f.lo < 32) (apart : f.off < 20672 ∨ 20736 ≤ f.off) :
    (s.putEdge (domNum d) c w).rd f = s.rd f := by
  refine rd_foldl s fun u j hj => ?_
  have hj := mem_upTo.1 hj
  have hi : domNum d < 2 := by cases d <;> decide
  refine (State.rd_wr_ne _ _ _ _ ?_).trans (State.rd_wr_ne _ _ _ _ ?_)
  all_goals
    simp only [Fld.key, F.PPS_CAP_word, F.PPS_WORK_word]
    omega

/-- Whether the PPS input of a domain has edges, and how many it has had. -/
def ppsPresent (d : Domain) : Fld := if isB d then F.PPS_STATUS_present_b else F.PPS_STATUS_present_a

def ppsCount (d : Domain) : Fld := if isB d then F.PPS_STATUS_count_b else F.PPS_STATUS_count_a

theorem ppsEdge_captures {s : State} {d : Domain} (on : s.pd .time = true) (sub : Fin 820)
    (apart : ∀ t0, (s.dom d).lastEdge = some t0 → t0 + 281250000 ≤ s.time.ticks) :
    let words := fun (t : State) (f : Nat → Fld) (w : Nat) => ∀ j < 4, t.rd (f j) = w / 2 ^ (32 * j) % 2 ^ 32
    Does (.ppsEdge d sub) s (fun t => words t (F.PPS_CAP_word (domNum d)) (s.domWordAt d sub.val) ∧
      words t (F.PPS_WORK_word (domNum d)) (if s.time.workSet then timeWord 2 (s.time.work + sub.val * 2 ^ 24) else noTime) ∧
      t.rd (ppsPresent d) = 1 ∧ t.rd (ppsCount d) = (s.rd (ppsCount d) + 1) % 256 ∧ (t.dom d).lastEdge = some s.time.ticks ∧
      TimeRaised t (2 + domNum d)) := by
  intro words
  generalize hw : (if s.time.workSet then timeWord 2 (s.time.work + sub.val * 2 ^ 24) else noTime) = w
  let e := s.putEdge (domNum d) (s.domWordAt d sub.val) w
  let u := e.setDom d { s.dom d with lastEdge := some s.time.ticks }
  let v := (u.wr (ppsPresent d) 1).wr (ppsCount d) (u.rd (ppsCount d) + 1)
  have steers := v.timeEvt_steers (2 + domNum d)
  have edge : 2 + domNum d < 24 := by cases d <;> decide
  have kept {f : Fld} (hf : f.In .time) (ne : f.off ≠ 0x500C) : (v.timeEvt (2 + domNum d)).rd f = v.rd f :=
    steers.regs f hf ne (List.forall_mem_nil _)
  have captured {f : Fld} (hf : f.In .time) (high : f.off < 0x5100 ∧ 0x500C < f.off) : (v.timeEvt (2 + domNum d)).rd f = e.rd f := by
    have low := hf.1
    rw [kept hf (by omega)]
    have status : ((ppsPresent d).lo < 32 ∧ (ppsPresent d).off = 0x5100) ∧ (ppsCount d).lo < 32 ∧ (ppsCount d).off = 0x5100 := by
      cases d <;> decide
    obtain ⟨⟨lowP, atP⟩, lowC, atC⟩ := status
    exact ((State.rd_wr_ne _ _ _ _ (Fld.key_ne_off lowC low (by omega))).trans
      (State.rd_wr_ne _ _ _ _ (Fld.key_ne_off lowP low (by omega)))).trans (State.setDom_rd _ _ _ _)
  refine ⟨v.timeEvt (2 + domNum d), ?_, fun j hj => ?_, fun j hj => ?_, ?_, ?_, ?_, State.timeEvt_raised _ edge⟩
  · show execPpsEdge d sub s = _
    unfold execPpsEdge
    simp only [on, hw]
    refine (if_neg ?_).trans (by cases d <;> rfl)
    cases last : (s.dom d).lastEdge with
    | none => exact Bool.false_ne_true
    | some t0 =>
      have long : ¬s.time.ticks - t0 < edgeTicks := by
        have := apart t0 last
        unfold edgeTicks
        omega
      simp [long]
  · refine (captured ?_ ?_).trans (s.putEdge_words d _ _ hj).1
    · cases d <;> interval_cases j <;> decide
    · cases d <;> interval_cases j <;> decide
  · refine (captured ?_ ?_).trans (s.putEdge_words d _ _ hj).2
    · cases d <;> interval_cases j <;> decide
    · cases d <;> interval_cases j <;> decide
  · cases d <;> exact (kept (by decide) (by decide)).trans ((State.rd_wr_ne _ _ _ _ (by decide)).trans (State.rd_wr_same _ _ _))
  · have count : u.rd (ppsCount d) = s.rd (ppsCount d) := by
      rw [State.setDom_rd]
      cases d <;> exact State.putEdge_ne s _ _ _ (by decide) (by decide)
    have width : (ppsCount d).width = 8 := by cases d <;> rfl
    rw [← count]
    refine (kept ?_ ?_).trans ((State.rd_wr_same _ _ _).trans (width ▸ Eq.refl _))
    · cases d <;> decide
    · cases d <;> decide
  · rw [steers.dom]
    exact congrArg TimeDom.lastEdge (State.dom_setDom_same e d _)

theorem ppsEdge_ignored {s : State} {d : Domain} (sub : Fin 820) {t0 : Nat} (last : (s.dom d).lastEdge = some t0)
    (soon : s.time.ticks < t0 + 281250000) : Does (.ppsEdge d sub) s (fun t => t = s) := by
  refine ⟨s, ?_, Eq.refl _⟩
  have early : s.time.ticks - t0 < edgeTicks := by
    unfold edgeTicks
    omega
  show execPpsEdge d sub s = _
  unfold execPpsEdge
  simp only [last, early, decide_true, Bool.or_true, if_true]
  rfl

theorem ppsLost_ends {s : State} {d : Domain} (on : s.pd .time = true) (present : s.rd (ppsPresent d) = 1) :
    Does (.ppsLost d) s (fun t => t.rd (ppsPresent d) = 0 ∧ TimeRaised t (4 + domNum d) ∧ t.time = s.time) := by
  have edge : 4 + domNum d < 24 := by cases d <;> decide
  refine ⟨(s.wr (ppsPresent d) 0).timeEvt (4 + domNum d), if_neg ?_, ?_, State.timeEvt_raised _ edge,
    (State.timeEvt_keeps _ _).parts .time (by decide)⟩
  · simpa [State.on, on, ppsPresent] using present
  · refine ((State.timeEvt_steers _ _).regs _ ?_ ?_ (List.forall_mem_nil _)).trans ((State.rd_wr_same _ _ _).trans (Nat.zero_mod _))
    · cases d <;> decide
    · cases d <;> decide

/-- Settles O32: a frame's effect on a replica is the model's own case split by the domain's state
(`State.followFrame_follows`), after the registers that every frame gives (`State.followFrame_gives`). -/
theorem domainFollowersAndCaptures : Obligations.DomainFollowersAndCaptures := by
  unfold Obligations.DomainFollowersAndCaptures
  intro s d on x words present count
  refine ⟨fun east frame taken own follower => ?_, fun follower locked => ?_, fun held => ?_, fun t0 sub last _ soon =>
    ppsEdge_ignored sub last soon, fun sub apart => ppsEdge_captures on sub apart, fun lit => ppsLost_ends on lit, timeSnap_snaps on⟩
  · obtain ⟨u, time, same, loop, forwarded, state, gen, cal, reference, role, runs⟩ :=
      domainFrameReceived_follows on taken own follower
    have keeps := u.followFrame_keeps d ((frame.drop 32).take 56)
    obtain ⟨gen', inc, incs, role'⟩ := u.followFrame_gives d ((frame.drop 32).take 56)
    have follows := u.followFrame_follows d ((frame.drop 32).take 56)
    have dom : u.dom d = s.dom d := by
      unfold State.dom
      rw [time]
    rw [State.frameErr, loop.estimate time, state, gen, cal, reference, dom] at follows
    exact ⟨_, runs, forwarded.of_sent keeps.sent, gen', inc, incs, role'.trans role,
      Eq.trans (keeps.parts .image (by decide)) same, follows⟩
  · exact ⟨_, if_neg (by simp [on]), s.toHoldover_holds locked follower⟩
  · refine ⟨_, if_neg (by simp [on, held]), State.setDomState_state _ _ (by decide), ?_⟩
    rw [(State.setDomState_steers _ d 0).dom, State.dom_setDom_same]

end Sys2Proof.Machine

/-! PROOFS. O33: working time, its switches and exchanges, PPS_OUT, alarms, and the calendar. -/

namespace Sys2Proof.Machine

/-! A capture of O (R256). -/

/-- The difference that a capture carries: none within 10 ps. -/
def State.capturedO (s : State) : Int :=
  let o : Int := (s.time.followed.value : Int) - s.time.work
  if o.natAbs ≤ unit10ps then 0 else o

theorem State.tellCapture_time (s : State) (o : Int) : (s.tellCapture o).time = s.time :=
  (s.tellCapture_keeps o).parts .time (by decide)

theorem State.captureO_time (s : State) : ∃ carried, s.captureO.time = { s.time with carry := s.capturedO, slewOwed := false, carried } :=
  ⟨_, (State.tellCapture_time _ _).trans ((State.timeEvt_keeps _ 6).parts .time (by decide))⟩

theorem State.captureO_raised (s : State) : TimeRaised s.captureO 6 :=
  (State.tellCapture_steers _ _).raised (by decide) (State.timeEvt_raised _ (by decide))

theorem TimeSt.followed_carry (x : TimeSt) (carry : Int) (slewOwed : Bool) (carried : Option Int) :
    { x with carry, slewOwed, carried }.followed = x.followed := rfl

theorem domainSwitch_switches {s : State} {b : Nat} {only : Bool} (named : s.time.switchAt = some (b, only)) (due : b ≤ s.turn.k)
    (none_ : s.ply.orders = []) :
    let carry := fun (t : State) => let o : Int := (t.time.followed.value : Int) - s.time.work
      if o.natAbs ≤ unit10ps then 0 else o
    Does .domainSwitch s (fun t => (only = true → t.time.followB = s.time.followB ∧
        (t.time.carry = carry t ∧ t.time.work = s.time.work ∧ t.time.switchAt = none) ∧ TimeRaised t 6) ∧
      (only = false → t.time.followB = !s.time.followB ∧ t.rd F.TIME_STATUS_sel_now = bit (!s.time.followB) ∧
        t.time.carry = carry t ∧ TimeRaised t 6)) := by
  intro carry
  let u : State := { s with time := { s.time with switchAt := none }, ply := { s.ply with orders := [] } }
  have runs : exec .domainSwitch s = .next (if only then u.captureO else u.switchDomain) := by
    show execDomainSwitch s = _
    unfold execDomainSwitch
    simp only [named, none_, Nat.not_lt.2 due, List.any_nil, List.filter_nil]
    rfl
  refine ⟨_, runs, fun is => ?_, fun is => ?_⟩
  · obtain ⟨carried, time⟩ := u.captureO_time
    simp only [carry, is, if_true, time, TimeSt.followed_carry]
    exact ⟨Eq.refl _, ⟨Eq.refl _, Eq.refl _, Eq.refl _⟩, u.captureO_raised⟩
  · let v := ({ u with time := { u.time with followB := !u.time.followB } } : State).wrb F.TIME_STATUS_sel_now (!u.time.followB)
    have switches : u.switchDomain = v.captureO.workRegs := rfl
    obtain ⟨carried, held⟩ := v.captureO_time
    have time : v.captureO.workRegs.time = v.captureO.time := v.captureO.workRegs_keeps.parts .time (by decide)
    simp only [carry, is, Bool.false_eq_true, if_false, switches, time, held, TimeSt.followed_carry]
    refine ⟨Eq.refl _, ?_, Eq.refl _, v.captureO.workRegs_steers.raised (by decide) v.captureO_raised⟩
    rw [v.captureO.workRegs_steers.regs _ (by decide) (by decide) (by decide), v.captureO_steers.regs _ (by decide) (by decide) (by decide)]
    exact State.rd_wrb_same _ _ (by decide)

/-! The start (R254). -/

/-- Working time started from a source, with the offset that it carries, following a domain. -/
def State.startedWork (s : State) (work : Nat) (carry : Int) (d : Domain) : State :=
  let u : State := { s with time := { s.time with
    workSet := true, work := work, carry := carry, followB := isB d,
    lastAdv := if (s.dom d).running then (s.dom d).inc else nominalInc } }
  let v := (u.wrb F.TIME_STATUS_sel_now (isB d)).wrb F.TIME_STATUS_slewing (decide (carry ≠ 0))
  v.wr F.TIME_STATUS_work (if v.domValid d then 1 else 2)

/-- Working time runs from a source. -/
structure WorkRuns (t : State) (work : Nat) (d : Domain) : Prop where
  workSet : t.time.workSet = true
  work : t.time.work = work
  followB : t.time.followB = isB d

theorem State.startedWork_runs (s : State) (work : Nat) (carry : Int) (d : Domain) : WorkRuns (s.startedWork work carry d) work d :=
  ⟨Eq.refl _, Eq.refl _, Eq.refl _⟩

theorem State.startedWork_captured (s : State) (work : Nat) (carry : Int) (d : Domain) (captures : Bool) :
    WorkRuns (if captures then (s.startedWork work carry d).captureO else s.startedWork work carry d) work d := by
  obtain ⟨carried, time⟩ := (s.startedWork work carry d).captureO_time
  cases captures with
  | false => exact s.startedWork_runs work carry d
  | true => exact ⟨by rw [if_pos rfl, time]; rfl, by rw [if_pos rfl, time]; rfl, by rw [if_pos rfl, time]; rfl⟩

section
variable {s : State} {sel other : Domain} (on : s.pd .time = true) (unset : s.time.workSet = false)
  (hsel : (if s.aon F.TIME_CTRL_sel then Domain.b else .a) = sel) (hother : (if s.aon F.TIME_CTRL_sel then Domain.a else .b) = other)
include on unset hsel

theorem workingTimeStart_given (up : s.rd F.PLY_STATUS_link = 2) (leads : s.rd F.PLY_STATUS_partner_state ∈ [1, 2]) (w : Nat) (c : Int) :
    Does (.workingTimeStart (some (w, c))) s (fun t => t.time.workSet = true ∧ t.time.work = w ∧ t.time.carry = c ∧
      t.time.followB = isB sel) := by
  have partner : (s.plyUp && s.partnerLeads) = true := by
    simp only [List.mem_cons, List.not_mem_nil, or_false] at leads
    rcases leads with leads | leads <;> simp [State.plyUp, State.partnerLeads, up, leads]
  refine ⟨s.startedWork w c sel, ?_, Eq.refl _, Eq.refl _, Eq.refl _, Eq.refl _⟩
  show execWorkingTimeStart (some (w, c)) s = _
  unfold execWorkingTimeStart
  simp only [on, unset, hsel, partner, Bool.not_true, Bool.or_false, Bool.false_eq_true, if_false, if_true]
  rfl

include hother

/-- The source that is not given: the domain that may be followed, else the other one, else, after the wait, the calendar. -/
theorem workingTimeStart_runs : exec (.workingTimeStart none) s = .next (
    if s.domState sel ≠ 0 then
      if (s.startedWork (s.dom sel).value 0 sel).domValid sel then (s.startedWork (s.dom sel).value 0 sel).captureO
      else s.startedWork (s.dom sel).value 0 sel
    else if s.domState other ≠ 0 then
      if (s.startedWork (s.dom other).value 0 other).domValid other then (s.startedWork (s.dom other).value 0 other).captureO
      else s.startedWork (s.dom other).value 0 other
    else if s.act F.TIME_CTRL_wait_s * 312500000 ≤ s.time.ticks then s.startedWork (s.time.calendar * unitSec) 0 sel
    else s) := by
  show execWorkingTimeStart none s = _
  unfold execWorkingTimeStart
  simp only [on, unset, hsel, hother, Bool.not_true, Bool.or_false, Bool.false_eq_true, if_false, bne_iff_ne]
  rfl

theorem workingTimeStart_none : Does (.workingTimeStart none) s (fun t =>
    (s.domState sel ≠ 0 → t.time.workSet = true ∧ t.time.work = (s.dom sel).value ∧ t.time.followB = isB sel) ∧
    (s.domState sel = 0 → s.domState other ≠ 0 → t.time.workSet = true ∧ t.time.work = (s.dom other).value ∧
      t.time.followB = isB other) ∧
    (s.domState sel = 0 → s.domState other = 0 →
      (s.act F.TIME_CTRL_wait_s * 312500000 ≤ s.time.ticks → t.time.workSet = true ∧
        t.time.work = s.time.calendar * unitSec ∧ t.time.followB = isB sel ∧ t.rd F.TIME_STATUS_work = 2) ∧
      (s.time.ticks < s.act F.TIME_CTRL_wait_s * 312500000 → t = s))) := by
  refine ⟨_, workingTimeStart_runs on unset hsel hother, fun held => ?_, fun idle held => ?_, fun idle idle' => ⟨fun waited => ?_,
    fun soon => ?_⟩⟩
  · obtain ⟨workSet, work, followB⟩ := s.startedWork_captured (s.dom sel).value 0 sel _
    rw [if_pos held]
    exact ⟨workSet, work, followB⟩
  · obtain ⟨workSet, work, followB⟩ := s.startedWork_captured (s.dom other).value 0 other _
    rw [if_neg (not_not.2 idle), if_pos held]
    exact ⟨workSet, work, followB⟩
  · rw [if_neg (not_not.2 idle), if_neg (not_not.2 idle'), if_pos waited]
    refine ⟨Eq.refl _, Eq.refl _, Eq.refl _, (State.rd_wr_same _ _ _).trans ?_⟩
    rw [if_neg]
    · rfl
    · have invalid (u : State) (b c : Bool) (st : u.domState sel = 0) :
          ¬((u.wrb F.TIME_STATUS_sel_now b).wrb F.TIME_STATUS_slewing c).domValid sel = true := by
        have same : ((u.wrb F.TIME_STATUS_sel_now b).wrb F.TIME_STATUS_slewing c).domState sel = u.domState sel := by
          cases sel <;> exact (State.rd_wrb_ne _ _ _ _ (by decide)).trans (State.rd_wrb_ne _ _ _ _ (by decide))
        simp [State.domValid, same, st]
      exact invalid _ _ _ idle
  · rw [if_neg (not_not.2 idle), if_neg (not_not.2 idle'), if_neg (Nat.not_le.2 soon)]

end

theorem timeXchgReceived_shows {s : State} (up : s.rd F.PLY_STATUS_link = 2) (standby : s.plyState = 4) (diff : Int) :
    Does (.timeXchgReceived diff) s (fun t => t.rd F.PLY_TIME_DIFF_diff_ps = toBits 32 diff % 2 ^ 32 ∧
      t.time.xchgRun = (if 50 < diff.natAbs then s.time.xchgRun + 1 else 0) ∧
      (50 < diff.natAbs → s.time.xchgRun = 63 → TimeRaised t 21)) := by
  let run := if 50 < diff.natAbs then s.time.xchgRun + 1 else 0
  let u := ({ s with time := { s.time with xchgRun := run } } : State).wr F.PLY_TIME_DIFF_diff_ps (toBits 32 diff)
  refine ⟨if run = 64 then u.timeEvt 21 else u, if_neg (by simp [State.plyUp, State.isStandby, up, standby]), ?_, ?_, fun far long => ?_⟩
  · have written : u.rd F.PLY_TIME_DIFF_diff_ps = toBits 32 diff % 2 ^ 32 := State.rd_wr_same _ _ _
    split
    · rw [(u.timeEvt_steers 21).regs _ (by decide) (by decide) (List.forall_mem_nil _), written]
    · exact written
  · split
    · have time : (u.timeEvt 21).time = u.time := (u.timeEvt_keeps 21).parts .time (by decide)
      rw [time]
      rfl
    · rfl
  · rw [if_pos (by simp [run, far, long])]
    exact u.timeEvt_raised (by decide)

theorem alarmFire_fires {s : State} (on : s.pd .time = true) (a : Fin 8) {t0 : Nat} (set : SMap.find s.time.alarms a.val = some t0)
    (enabled : s.rd (F.ALARM_CTRL_enable a.val) = 1) :
    let period := s.rd (F.ALARM_CTRL_period_us a.val)
    (s.time.work < t0 → Does (.alarmFire a) s (fun t => t = s)) ∧
    (t0 ≤ s.time.work → Does (.alarmFire a) s (fun t => TimeRaised t (12 + a.val) ∧ (∀ b ≠ a.val,
      SMap.find t.time.alarms b = SMap.find s.time.alarms b) ∧
      SMap.find t.time.alarms a.val = (if period = 0 then none else some (t0 + min 1000000 period * 1000 * unitNs)))) := by
  intro period
  refine ⟨fun early => ⟨s, ?_, Eq.refl _⟩, fun due => ?_⟩
  · show execAlarmFire a s = _
    unfold execAlarmFire
    rw [set]
    exact if_pos (by simp [early])
  · let alarms := if min 1000000 period = 0 then SMap.del s.time.alarms a.val
      else SMap.put s.time.alarms a.val (t0 + min 1000000 period * 1000 * unitNs)
    let u : State := { s with time := { s.time with alarms := alarms } }
    have time : ((u.timeEvt (12 + a.val)).wake 6).time = u.time :=
      Eq.trans ((State.wake_keeps _ 6).parts .time (by decide)) ((u.timeEvt_keeps _).parts .time (by decide))
    have still : ((u.timeEvt (12 + a.val)).wake 6).rd (timeEvtFld (12 + a.val)).1 = (u.timeEvt (12 + a.val)).rd (timeEvtFld (12 + a.val)).1 :=
      (State.wake_in _ 6).rd_eq (timeEvtFld_place _).1 (by decide)
    have zero : min 1000000 period = 0 ↔ period = 0 := by omega
    refine ⟨(u.timeEvt (12 + a.val)).wake 6, ?_, ?_, fun b ne => ?_, ?_⟩
    · show execAlarmFire a s = _
      unfold execAlarmFire
      rw [set]
      exact if_neg (by simp [State.on, on, enabled, due])
    · rw [TimeRaised, still]
      exact u.timeEvt_raised (by omega)
    · rw [time]
      show SMap.find alarms b = _
      unfold alarms
      split
      · exact SMap.find_del_ne _ ne.symm
      · exact SMap.find_put_ne _ _ ne.symm
    · rw [time]
      show SMap.find alarms a.val = _
      unfold alarms
      rw [if_congr zero (Eq.refl _) (Eq.refl _)]
      split
      · exact SMap.find_del_same _ _
      · exact SMap.find_put_same _ _ _

theorem leapApply_judges {s : State} (on : s.pd .time = true) : Does .leapApply s (fun t =>
    (leapOk s.leapTable = true → t.rd F.LEAP_CTRL_leap_err = 0 ∧ t.time = { s.time with leapNext := some s.leapTable }) ∧
    (leapOk s.leapTable = false → t.rd F.LEAP_CTRL_leap_err = 1 ∧ t.time = s.time ∧ TimeRaised t 22)) := by
  have runs : exec .leapApply s = if leapOk s.leapTable then _ else _ := if_neg (by simp [on])
  rw [Does, runs]
  cases leapOk s.leapTable with
  | true => exact ⟨_, Eq.refl _, fun _ => ⟨State.rd_wr_same s F.LEAP_CTRL_leap_err 0, Eq.refl _⟩, nofun⟩
  | false =>
    refine ⟨(s.wr F.LEAP_CTRL_leap_err 1).timeEvt 22, Eq.refl _, nofun, fun _ => ⟨?_, (State.timeEvt_keeps _ 22).parts .time (by decide),
      State.timeEvt_raised _ (by decide)⟩⟩
    exact ((State.timeEvt_steers _ 22).regs _ (by decide) (by decide) (List.forall_mem_nil _)).trans (State.rd_wr_same _ _ _)

/-- Settles O33: each capture carries what `State.capturedO` gives, whatever event and order follow it. -/
theorem workingTimeAndCalendar : Obligations.WorkingTimeAndCalendar := by
  unfold Obligations.WorkingTimeAndCalendar
  intro s on sel other carried
  have hsel : (if s.aon F.TIME_CTRL_sel then Domain.b else .a) = sel := by simp [sel, State.aon]
  have hother : (if s.aon F.TIME_CTRL_sel then Domain.a else .b) = other := by simp [other, State.aon]
  refine ⟨fun unset => ⟨fun up leads w c => workingTimeStart_given on unset hsel up leads w c,
    workingTimeStart_none on unset hsel hother⟩, fun owed => ?_, fun b only named due none_ => domainSwitch_switches named due none_,
    fun up => ⟨?_, fun standby diff => timeXchgReceived_shows up standby diff⟩, fun far known standby => ?_, fun enabled src set => ?_,
    fun high => ?_, fun a t0 set enabled => alarmFire_fires on a set enabled, leapApply_judges on, fun l next => ?_, fun set keep => ?_⟩
  · exact ⟨_, if_neg (by simp [owed]), (State.timeEvt_keeps _ 7).parts .time (by decide), State.timeEvt_raised _ (by decide)⟩
  · exact ⟨_, if_neg (by simp [State.plyUp, up]), Eq.refl _⟩
  · exact ⟨_, if_pos ⟨known, far⟩, State.leaveTracking_shows (by simp [State.isStandby, standby]) (by decide)⟩
  · exact ⟨_, if_neg (by simp [State.on, on, enabled, src, set]), Eq.refl _⟩
  · exact ⟨_, if_neg (by simp [high]), Eq.refl _⟩
  · refine ⟨_, ?_, Eq.refl _⟩
    show execLeapTableEffect s = _
    unfold execLeapTableEffect
    rw [next]
    rfl
  · exact ⟨s.keepCalendar, Eq.refl _, if_neg (by simp [set, keep])⟩

end Sys2Proof.Machine

/-! PROOFS. O16: ply frames that are refused, and what mirrors the active. -/

namespace Sys2Proof.Machine

/-! Frames of the ply (R271, R81). -/

/-- The state in which a frame has been taken: its alive count kept. -/
def State.plyTook (s : State) (type : Nat) (h : PlyHdr) : State :=
  { s with ply := { s.ply with rxAlive := aliveAccept s.ply.rxAlive type s.time.ticks h.alive.toNat } }

section
variable {s : State} {h : PlyHdr} {type : Nat}

theorem Taken.takes (taken : Taken s type h) : s.plyTake type h = (s.plyTook type h, true) := by
  obtain ⟨up, good, known, fresh⟩ := taken
  unfold State.plyTake
  simp only [State.plyUp, up, good, known, Bool.not_true, Bool.or_false, beq_self_eq_true, Bool.false_eq_true, if_false]
  rfl

theorem State.plyTake_bad (up : s.rd F.PLY_STATUS_link = 2) (bad : h.sealOk = false ∨ h.known = false) :
    s.plyTake type h = (s.inc F.PLY_CNT_SEAL_count, false) := by
  have refused : (!h.sealOk || !h.known) = true := by rcases bad with bad | bad <;> simp [bad]
  unfold State.plyTake
  simp [State.plyUp, up, refused]

theorem State.plyTake_repeated (up : s.rd F.PLY_STATUS_link = 2) (good : h.sealOk = true) (known : h.known = true)
    (again : aliveClass s.ply.rxAlive type s.time.ticks h.alive.toNat = .repeated) : s.plyTake type h = (s, false) := by
  unfold State.plyTake
  simp [State.plyUp, up, good, known, again]

end

/-- A frame that is not taken leaves what taking it leaves. -/
def Refuses (type : Nat) (h : PlyHdr) (c : Instr) : Prop :=
  ∀ s u : State, s.plyTake type h = (u, false) → exec c s = .next u

theorem orderReceived_refuses (h : PlyHdr) (o : OrderMsg) : Refuses 0x48 h (.orderReceived h o) := by
  intro s u take
  show execOrderReceived h o s = _
  unfold execOrderReceived
  rw [take]
  rfl

theorem ackReceived_refuses (h : PlyHdr) (code seq : BitVec 16) (refused : Bool) : Refuses 0x49 h (.ackReceived h code seq refused) := by
  intro s u take
  show execAckReceived h code seq refused s = _
  unfold execAckReceived
  rw [take]
  rfl

theorem hostWriteReceived_refuses (h : PlyHdr) (b : BitVec 64) (writes : List HostWrite) :
    Refuses 0x47 h (.hostWriteReceived h b writes) := by
  intro s u take
  show execHostWriteReceived h b writes s = _
  unfold execHostWriteReceived
  rw [take]
  rfl

theorem millSnapReceived_refuses (h : PlyHdr) (ch : Fin 2) (buf : Fin 64) (words : List Word36) :
    Refuses 0x46 h (.millSnapReceived h ch buf words) := by
  intro s u take
  show execMillSnapReceived h ch buf words s = _
  unfold execMillSnapReceived
  rw [take]
  rfl

theorem reachReceived_refuses (h : PlyHdr) (r : List (BitVec 16)) : Refuses 0x43 h (.reachReceived h r) := by
  intro s u take
  show execReachReceived h r s = _
  unfold execReachReceived
  rw [take]
  rfl

theorem digestReceived_refuses (h : PlyHdr) (d) : Refuses 0x44 h (.digestReceived h d) := by
  intro s u take
  show execDigestReceived h d s = _
  unfold execDigestReceived
  rw [take]
  rfl

theorem completionReceived_refuses (h : PlyHdr) (a b p d) : Refuses 0x45 h (.completionReceived h a b p d) := by
  intro s u take
  show execCompletionReceived h a b p d s = _
  unfold execCompletionReceived
  rw [take]
  rfl

/-- A frame that is not taken is counted where its seal fails or its type is unknown, and only then. -/
theorem Refuses.judged {type : Nat} {h : PlyHdr} {c : Instr} (refuses : Refuses type h c) {s : State} (up : s.rd F.PLY_STATUS_link = 2) :
    (h.sealOk = false ∨ h.known = false → Does c s (fun t => t = s.inc F.PLY_CNT_SEAL_count)) ∧
      (h.sealOk = true → h.known = true → aliveClass s.ply.rxAlive type s.time.ticks h.alive.toNat = .repeated →
        Does c s (fun t => t = s)) :=
  ⟨fun bad => ⟨_, refuses s _ (State.plyTake_bad up bad), Eq.refl _⟩,
    fun good known again => ⟨_, refuses s _ (State.plyTake_repeated up good known again), Eq.refl _⟩⟩

theorem plyFramesRefused : PlyFramesRefused := by
  intro s h up frames e he c hc
  simp only [frames, List.mem_cons, List.not_mem_nil, or_false] at he
  refine Refuses.judged ?_ up
  rcases he with rfl | rfl | rfl | rfl | rfl | rfl | rfl
  · obtain ⟨o, rfl⟩ := hc
    exact orderReceived_refuses h o
  · obtain ⟨x, y, z, rfl⟩ := hc
    exact ackReceived_refuses h x y z
  · obtain ⟨b, ws, rfl⟩ := hc
    exact hostWriteReceived_refuses h b ws
  · obtain ⟨a, b, ws, rfl⟩ := hc
    exact millSnapReceived_refuses h a b ws
  · obtain ⟨r, rfl⟩ := hc
    exact reachReceived_refuses h r
  · obtain ⟨d, rfl⟩ := hc
    exact digestReceived_refuses h d
  · obtain ⟨a, b, p, d, rfl⟩ := hc
    exact completionReceived_refuses h a b p d

/-! What mirrors the active (R68, R133). -/

/-- A snapshot kept of a receive buffer: one newer than the last. -/
def State.keptSnaps (s : State) (key : Nat) (words : List Word36) : SMap (Nat × Option (List Word36)) :=
  SMap.put s.tasks.millSnap key ((SMap.getD s.tasks.millSnap key (0, none)).1 + 1, some words)

theorem State.takeSnap_takes (s : State) (ch b : Nat) (words : List Word36) : ∃ mill, s.takeSnap ch b words =
    { s with mill := mill, tasks := { s.tasks with millSnap := s.keptSnaps (ch * 64 + b) words } } := by
  unfold State.takeSnap State.setMillBuf State.setMillCh
  simp only
  split
  · exact ⟨_, Eq.refl _⟩
  · exact ⟨_, Eq.refl _⟩

theorem mirrorsTaken : MirrorsTaken := by
  intro s h standby
  have follows : s.follows3 = true := by simp [State.follows3, State.isStandby, standby]
  refine ⟨fun taken b n v soft => ?_, fun taken ch buf words => ?_⟩
  · refine ⟨[.slot n v, .soft soft].foldl (fun s w => s.takeMirrored b.toNat w) (s.plyTook 0x47 h), ?_, Eq.refl _, Eq.refl _, Eq.refl _⟩
    show execHostWriteReceived h b _ s = _
    unfold execHostWriteReceived
    rw [taken.takes]
    exact congrArg _ (if_pos follows)
  · have live : s.replaying = false := by simp [State.replaying, standby]
    obtain ⟨mill, snaps⟩ := (s.plyTook 0x46 h).takeSnap_takes ch.val buf.val words
    have runs : exec (.millSnapReceived h ch buf words) s = .next ((s.plyTook 0x46 h).takeSnap ch.val buf.val words) := by
      show execMillSnapReceived h ch buf words s = _
      unfold execMillSnapReceived
      rw [taken.takes]
      exact (if_neg (ne_true_of_eq_false live)).trans (congrArg _ (if_pos follows))
    refine ⟨_, runs, ?_⟩
    rw [snaps, Nat.mul_comm 64]
    refine ⟨⟨_, SMap.find_put_same _ _ _, fun n' w held => ?_⟩, fun key ne => SMap.find_put_ne _ _ ne.symm, Eq.refl _⟩
    show (SMap.getD s.tasks.millSnap (ch.val * 64 + buf.val) (0, none)).1 + 1 = n' + 1
    rw [SMap.getD, held]
    rfl

/-- Settles O16: a frame that is refused ends where the ply takes it (`Refuses`), and a mirror waits as its kind does. -/
theorem plyFramesRefusedAndMirrorsTaken : Obligations.PlyFramesRefusedAndMirrorsTaken := by
  unfold Obligations.PlyFramesRefusedAndMirrorsTaken
  exact ⟨plyFramesRefused, mirrorsTaken⟩

end Sys2Proof.Machine

/-! PROOFS. O17 and O18: orders of the ply, followed, acknowledged and abandoned. -/

namespace Sys2Proof.Machine

/-! Orders followed (R512). -/

/-- What the ply sends: a frame where the link is up. -/
theorem State.sendPly_sends (s : State) (type turn : Nat) (payload : Bytes) :
    ∃ txAlive out, s.sendPly type turn payload = { s with ply := { s.ply with txAlive := txAlive }, out := out } := by
  unfold State.sendPly
  split
  · exact ⟨s.ply.txAlive, s.out, Eq.refl _⟩
  · exact ⟨_, _, Eq.refl _⟩

/-- An order accepted is kept, and nothing else of the module changes but what it sends. -/
theorem State.acceptOrder_keepsOrder (s : State) (code seq b : Nat) (c : OrderContent) :
    ∃ txAlive out, s.acceptOrder code seq b c = { s with
      ply := { s.ply with orders := s.ply.orders ++ [⟨false, code, seq, b, c, true⟩], txAlive := txAlive }, out := out } := by
  obtain ⟨txAlive, out, sends⟩ := State.sendPly_sends
    { s with ply := { s.ply with orders := s.ply.orders ++ [⟨false, code, seq, b, c, true⟩] } } 0x49 s.turn.k
    (beBytes 2 code ++ beBytes 2 seq ++ beBytes 1 (bit false))
  exact ⟨txAlive, out, sends⟩

/-- What an order that is taken does, by its content. -/
def State.followOrder (s : State) (o : OrderMsg) : OrderContent → State
  | .commit es final => s.takeCommitOrder o.seq.toNat o.boundary.toNat o.digest.toNat es final
  | .force es => if s.follows3 && s.inTime o.boundary.toNat then s.acceptOrder 2 o.seq.toNat o.boundary.toNat (.force es)
      else s.sendAck 2 o.seq.toNat true
  | .key pos => s.takeKeyOrder o.seq.toNat o.boundary.toNat pos.toNat
  | .timeSwitch capture => s.takeTimeOrder o.seq.toNat o.boundary.toNat capture
  | .captured offset => if s.isStandby then s.takeCaptured offset else s
  | .overrunStop task trap => s.takeOverrunOrder o.boundary.toNat task.val trap
  | .handover => s.takeHandover o.seq.toNat o.boundary.toNat
  | .revert => s.takeRevert o.seq.toNat o.boundary.toNat
  | .capture => s.takeCapture o.seq.toNat o.boundary.toNat

theorem orderReceived_runs {s t : State} {h : PlyHdr} {o : OrderMsg} {c : OrderContent} (taken : Taken s 0x48 h)
    (content : o.content = c) (effect : (s.plyTook 0x48 h).followOrder o c = t) : exec (.orderReceived h o) s = .next t := by
  show execOrderReceived h o s = _
  unfold execOrderReceived
  rw [taken.takes, content, ← effect]
  cases c <;> rfl

theorem State.inTime_of {s : State} {b : Nat} (ahead : s.turn.k < b) (early : s.time.work + 100000 * 2 ^ 32 ≤ s.boundaryU b) :
    s.inTime b = true := by
  have early' : s.time.work + 100000 * unitNs ≤ s.boundaryU b := early
  simp [State.inTime, ahead, early']

section
variable {s : State} {seq b : Nat}

/-- A standby names the key position for its boundary, and acknowledges. -/
theorem State.takeKeyOrder_tracking (tracks : s.isStandby = true) (soon : s.inTime b = true) (pos : Nat) :
    (s.takeKeyOrder seq b pos).tasks = { s.tasks with keyNext := some (b, pos) } ∧ (s.takeKeyOrder seq b pos).regs = s.regs := by
  obtain ⟨txAlive, out, kept⟩ := State.acceptOrder_keepsOrder { s with tasks := { s.tasks with keyNext := some (b, pos) } } 3 seq b
    (.key (BitVec.ofNat 2 pos))
  have goes : s.takeKeyOrder seq b pos = _ := (if_neg (by simp [soon])).trans ((if_pos (by simp [tracks])).trans kept)
  rw [goes]
  exact ⟨Eq.refl _, Eq.refl _⟩

theorem State.takeTimeOrder_tracking (tracks : s.isStandby = true) (soon : s.inTime b = true) (capture : Bool) :
    (s.takeTimeOrder seq b capture).time = { s.time with switchAt := some (b, capture) } ∧
      (s.takeTimeOrder seq b capture).regs = s.regs := by
  obtain ⟨txAlive, out, kept⟩ := State.acceptOrder_keepsOrder { s with time := { s.time with switchAt := some (b, capture) } } 4 seq b
    (.timeSwitch capture)
  have goes : s.takeTimeOrder seq b capture = _ := (if_neg (by simp [tracks, soon])).trans kept
  rw [goes]
  exact ⟨Eq.refl _, Eq.refl _⟩

theorem State.takeCaptured_takes {own : Int} (carried : s.time.carried = some own) (given : Int) :
    (s.takeCaptured given).time.carry = s.time.carry + given - own ∧ (s.takeCaptured given).time.carried = none ∧
      (s.takeCaptured given).time.work = s.time.work ∧ (s.takeCaptured given).image = s.image := by
  unfold State.takeCaptured
  rw [carried]
  exact ⟨Eq.refl _, Eq.refl _, Eq.refl _, Eq.refl _⟩

end

/-- Settles O18: each order, taken in time, has its own effect, and what it answers changes nothing else. -/
theorem ordersFollowed : Obligations.OrdersFollowed := by
  unfold Obligations.OrdersFollowed
  intro s h o taken ahead early
  have soon : (s.plyTook 0x48 h).inTime o.boundary.toNat = true := State.inTime_of ahead early
  refine ⟨fun standby => ?_, fun untracked pos content => ?_, fun starting pos content => ?_⟩
  · have tracks : (s.plyTook 0x48 h).isStandby = true := beq_iff_eq.2 standby
    have follows : (s.plyTook 0x48 h).follows3 = true := by simp [State.follows3, tracks]
    refine ⟨fun es content => ?_, fun pos content => ?_, fun capture content => ?_, fun given own content carried => ?_,
      fun task trap content later => ?_⟩
    · obtain ⟨txAlive, out, kept⟩ := (s.plyTook 0x48 h).acceptOrder_keepsOrder 2 o.seq.toNat o.boundary.toNat (.force es)
      exact ⟨_, orderReceived_runs taken content ((if_pos (by simp [follows, soon])).trans kept), Eq.refl _, Eq.refl _, Eq.refl _⟩
    · exact ⟨_, orderReceived_runs taken content (Eq.refl _), State.takeKeyOrder_tracking tracks soon pos.toNat⟩
    · exact ⟨_, orderReceived_runs taken content (Eq.refl _), State.takeTimeOrder_tracking tracks soon capture⟩
    · exact ⟨_, orderReceived_runs taken content (if_pos tracks),
        State.takeCaptured_takes (s := s.plyTook 0x48 h) carried given⟩
    · exact ⟨_, orderReceived_runs taken content ((if_neg (by simp [follows])).trans (if_pos later)), Eq.refl _, Eq.refl _⟩
  · have away : (s.plyTook 0x48 h).plyState = 5 := untracked
    refine ⟨_, orderReceived_runs taken content ((if_neg ?_).trans ((if_neg ?_).trans (if_pos ?_))), Eq.refl _, Eq.refl _, Eq.refl _⟩
    all_goals simp [State.isStandby, away]
  · have away : (s.plyTook 0x48 h).plyState = 0 := starting
    refine ⟨_, orderReceived_runs taken content ((if_neg ?_).trans ((if_neg ?_).trans (if_neg ?_))), Eq.refl _, Eq.refl _, Eq.refl _⟩
    all_goals simp [State.isStandby, away]

/-! Orders acknowledged and abandoned (R512). -/

/-- An own order abandoned is gone with what its own rule gives up, and no other order goes with it. -/
structure Abandons (s t : State) (o : Order) : Prop where
  orders : t.ply.orders = s.ply.orders.filter (fun x => !(x.mine && x.code == o.code && x.seq == o.seq))
  active : t.hop.active = s.hop.active
  image : t.image = s.image
  switch : o.code = 4 → t.time.switchAt = none
  armed : o.code = 1 → t.hop.armed = none
  commands : o.code = 2 → ∀ m ∈ t.host.outstanding, m.op = 0x30 ∨ m.op = 0x31 → m.order ≠ some o.seq

theorem State.dropArmed_drops (s : State) (shown : Option (Nat × Nat)) : (s.dropArmed shown).hop.armed = none := by
  unfold State.dropArmed
  split
  · next idle => exact Option.isNone_iff_eq_none.1 idle
  · cases shown with
    | none =>
      simp only
      split <;> rfl
    | some shown =>
      simp only
      split <;> rfl

theorem State.noHandover_orders (s : State) : s.noHandover.ply = s.ply := s.noHandover_keeps.parts .ply (by decide)

theorem State.abandonOrder_abandons {s : State} (up : s.host.millerUp = true) (o : Order) : Abandons s (s.abandonOrder o) o := by
  have keeps := s.abandonOrder_keeps o
  suffices rules : (s.abandonOrder o).ply.orders = s.ply.orders.filter (fun x => !(x.mine && x.code == o.code && x.seq == o.seq)) ∧
      (o.code = 4 → (s.abandonOrder o).time.switchAt = none) ∧ (o.code = 1 → (s.abandonOrder o).hop.armed = none) ∧
      (o.code = 2 → ∀ m ∈ (s.abandonOrder o).host.outstanding, m.op = 0x30 ∨ m.op = 0x31 → m.order ≠ some o.seq) by
    obtain ⟨orders, switch, armed, commands⟩ := rules
    exact ⟨orders, keeps.parts .settings (by decide), keeps.parts .image (by decide), switch, armed, commands⟩
  unfold State.abandonOrder
  simp only
  generalize hu : s.dropOrders (fun x => x.mine && x.code == o.code && x.seq == o.seq) = u
  have dropped : u.ply.orders = s.ply.orders.filter (fun x => !(x.mine && x.code == o.code && x.seq == o.seq)) ∧
      u.host.millerUp = true := by
    subst hu
    exact ⟨Eq.refl _, up⟩
  obtain ⟨orders, up⟩ := dropped
  rw [← orders]
  split
  · next code =>
    refine ⟨?_, fun other => absurd (code.symm.trans other) (by decide), fun _ => ?_, fun other => absurd (code.symm.trans other) (by decide)⟩
    · exact congrArg PlySt.orders (Eq.trans ((State.finish_keeps _ _ _ _ _ _).parts .ply (by decide))
        ((State.dropArmed_keeps u _).parts .ply (by decide)))
    · rw [show ((u.dropArmed (some (3, 1))).finish (fun m => m.op == 0x43) 9 0 0 0).hop = (u.dropArmed (some (3, 1))).hop from
        (State.finish_keeps _ _ _ _ _ _).parts .hop (by decide)]
      exact State.dropArmed_drops _ _
  · next code =>
    refine ⟨congrArg PlySt.orders ((State.finish_keeps _ _ _ _ _ _).parts .ply (by decide)),
      fun other => absurd (code.symm.trans other) (by decide), fun other => absurd (code.symm.trans other) (by decide), fun _ m hm op order => ?_⟩
    rw [State.finish_outstanding up, List.mem_filter] at hm
    rcases op with op | op <;> simp [op, order] at hm
  · next code =>
    exact ⟨Eq.refl _, fun _ => Eq.refl _, fun other => absurd (code.symm.trans other) (by decide),
      fun other => absurd (code.symm.trans other) (by decide)⟩
  · next code =>
    refine ⟨?_, fun other => absurd (code.symm.trans other) (by decide), fun other => absurd (code.symm.trans other) (by decide),
      fun other => absurd (code.symm.trans other) (by decide)⟩
    split
    · rfl
    · rw [State.noHandover_orders]
  · next one two four _ => exact ⟨Eq.refl _, fun is => absurd is four, fun is => absurd is one, fun is => absurd is two⟩

/-- The one own order under its number is the one that an answer finds. -/
theorem find_ownOrder {orders : List Order} {o : Order} {p : Order → Bool} (member : o ∈ orders) (found : p o = true)
    (only : ∀ x ∈ orders, p x = true → x = o) : orders.find? p = some o := by
  cases first : orders.find? p with
  | none => exact absurd found (List.find?_eq_none.1 first o member)
  | some x => rw [only x (List.mem_of_find?_eq_some first) (List.find?_some first)]

theorem State.ackOrder_acks (s : State) (o : Order) :
    (s.ackOrder o).ply.orders = s.ply.orders.map (fun x =>
      if x.mine && x.code == o.code && x.seq == o.seq then { x with acked := true } else x) ∧
      (s.ackOrder o).regs = s.regs ∧ (s.ackOrder o).image = s.image ∧ (s.ackOrder o).hop.active = s.hop.active ∧
      (o.code = 2 → ∀ m ∈ (s.ackOrder o).host.outstanding, m.op = 0x30 → m.order = some o.seq → m.acked = true) := by
  refine ⟨Eq.refl _, Eq.refl _, Eq.refl _, Eq.refl _, fun code m hm op order => ?_⟩
  obtain ⟨c, -, rfl⟩ := List.mem_map.1 hm
  by_cases picked : (([0x30, 0x31] : List Nat).contains c.op && c.order == some o.seq) = true
  · rw [code]
    exact (congrArg MillerCmd.acked (if_pos picked)).trans (Eq.refl _)
  · rw [code] at op order
    rw [show (if ((if 2 = 1 then [0x43] else if 2 = 2 then [0x30, 0x31] else [] : List Nat).contains c.op && c.order == some o.seq) = true then
      { c with acked := true } else c) = c from if_neg picked] at op order
    exact absurd (by simp [op, order]) picked

/-- Settles O17: an abandoned order goes with what its own rule gives up (`State.abandonOrder_abandons`), whether no ACK
came or one refused it. -/
theorem ordersAcknowledgedOrAbandoned : Obligations.OrdersAcknowledgedOrAbandoned := by
  unfold Obligations.OrdersAcknowledgedOrAbandoned
  intro s o member mine waits bounded seqSmall codeSmall only up named gone
  have seq : (BitVec.ofNat 16 o.seq).toNat = o.seq := Nat.mod_eq_of_lt seqSmall
  have code : (BitVec.ofNat 16 o.code).toNat = o.code := Nat.mod_eq_of_lt codeSmall
  have goes {u : State} (upU : u.host.millerUp = true) (same : u.ply.orders = s.ply.orders ∧ u.hop.active = s.hop.active ∧ u.image = s.image) :
      gone (u.abandonOrder o) := by
    obtain ⟨orders, active, image, switch, armed, commands⟩ := State.abandonOrder_abandons upU o
    obtain ⟨orders', active', image'⟩ := same
    exact ⟨by rw [orders, orders'], active.trans active', image.trans image', switch, armed, commands⟩
  have runs (h : PlyHdr) (taken : Taken s 0x49 h) (refused : Bool) :
      exec (.ackReceived h (BitVec.ofNat 16 o.code) (BitVec.ofNat 16 o.seq) refused) s =
        .next (if refused then (s.plyTook 0x49 h).abandonOrder o else (s.plyTook 0x49 h).ackOrder o) := by
    have found : (s.plyTook 0x49 h).ply.orders.find? (fun x => x.mine && !x.acked && x.code == (BitVec.ofNat 16 o.code).toNat &&
        x.seq == (BitVec.ofNat 16 o.seq).toNat) = some o := by
      refine find_ownOrder member (by simp [mine, waits, seq, code]) fun x hx hp => ?_
      simp only [Bool.and_eq_true, beq_iff_eq, seq] at hp
      exact only x hx hp.1.1.1 hp.2
    show execAckReceived h _ _ refused s = _
    unfold execAckReceived
    rw [taken.takes]
    simp only [found]
    rfl
  refine ⟨⟨s.abandonOrder o, ?_, goes up ⟨Eq.refl _, Eq.refl _, Eq.refl _⟩⟩, fun q none_ => ⟨s, ?_, Eq.refl _⟩, fun h taken =>
    ⟨⟨_, runs h taken true, goes (u := s.plyTook 0x49 h) up ⟨Eq.refl _, Eq.refl _, Eq.refl _⟩⟩,
      ⟨_, runs h taken false, (s.plyTook 0x49 h).ackOrder_acks o⟩⟩⟩
  · show execOrderAckTimeout _ s = _
    unfold execOrderAckTimeout
    rw [seq, find_ownOrder member (by simp [mine, waits, bounded]) fun x hx hp => ?_]
    · rfl
    · simp only [Bool.and_eq_true, beq_iff_eq] at hp
      exact only x hx hp.1.1.1 hp.2
  · show execOrderAckTimeout q s = _
    unfold execOrderAckTimeout
    rw [List.find?_eq_none.2 fun x hx hp => ?_]
    · rfl
    · simp only [Bool.and_eq_true, beq_iff_eq] at hp
      exact none_ x hx hp.1.1.1 hp.2

end Sys2Proof.Machine

/-! PROOFS. The mill bus: what its events, counters and error states leave of its registers. -/

namespace Sys2Proof.Machine

/-- A field of the mill bus but for its event registers. -/
abbrev MillFld (f : Fld) : Prop := f.In .mill ∧ f.off ≠ 0x9018 ∧ f.off ≠ 0xA018

/-- From s to t the registers of the mill bus change only at the fields with the keys K, and by events that are set. -/
structure MillBut (K : Nat → Prop) (s t : State) : Prop where
  regs : ∀ f : Fld, MillFld f → ¬K f.key → t.rd f = s.rd f
  events : ∀ ch < 2, BitsStay (F.MB_EVT_evt ch) s t

theorem millEvt_place {ch : Nat} (hc : ch < 2) : (F.MB_EVT_evt ch).In .mill ∧ ((F.MB_EVT_evt ch).off = 0x9018 ∨ (F.MB_EVT_evt ch).off = 0xA018) := by
  interval_cases ch <;> decide

section
variable {K : Nat → Prop} {s t u : State}

theorem MillBut.rfl : MillBut K s s := ⟨fun _ _ _ => Eq.refl _, fun _ _ => .rfl⟩

theorem MillBut.trans (h : MillBut K s t) (g : MillBut K t u) : MillBut K s u :=
  ⟨fun f hf hK => (g.regs f hf hK).trans (h.regs f hf hK), fun ch hc => (h.events ch hc).trans (g.events ch hc)⟩

theorem MillBut.mono {L : Nat → Prop} (h : MillBut L s t) (sub : ∀ k, L k → K k) : MillBut K s t :=
  ⟨fun f hf hK => h.regs f hf fun hL => hK (sub _ hL), h.events⟩

theorem MillBut.ite {c : Prop} [Decidable c] (h : MillBut K s t) (g : MillBut K s u) : MillBut K s (if c then t else u) := by
  split <;> assumption

/-- A change with the registers of the mill bus kept. -/
theorem MillBut.of_in {B : List Bank} (h : RegsIn B s t) (hB : Bank.mill ∉ B) : MillBut K s t :=
  ⟨fun _ hf _ => h.rd_eq hf.1 hB, fun _ hc => .of_in h (millEvt_place hc).1 hB⟩

theorem MillBut.of_regs (h : t.regs = s.regs) : MillBut K s t := .of_in (.of_regs (A := []) h) (by decide)

theorem MillBut.wr (h : MillBut K s t) {f : Fld} (v : Nat) (own : K f.key) (apart : f.lo < 32 ∧ f.off ≠ 0x9018 ∧ f.off ≠ 0xA018) :
    MillBut K s (t.wr f v) := by
  refine h.trans ⟨fun g _ hK => State.rd_wr_ne _ _ _ _ fun same => hK (same ▸ own), fun ch hc => BitsStay.rfl.wr_ne v ?_⟩
  obtain ⟨low, a, b⟩ := apart
  obtain ⟨place, at_⟩ := millEvt_place hc
  exact Fld.key_ne_off low place.1 (by rcases at_ with at_ | at_ <;> rw [at_] <;> assumption)

theorem MillBut.inc (h : MillBut K s t) {f : Fld} (own : K f.key) (apart : f.lo < 32 ∧ f.off ≠ 0x9018 ∧ f.off ≠ 0xA018) :
    MillBut K s (t.inc f) := h.wr _ own apart

theorem MillBut.foldl {α : Type} {f : State → α → State} {l : List α} (h : MillBut K s t)
    (step : ∀ u, ∀ a ∈ l, MillBut K u (f u a)) : MillBut K s (l.foldl f t) :=
  List.foldlRecOn l f h fun _ hu a ha => hu.trans (step _ a ha)

theorem MillBut.raised (h : MillBut K s t) {ch i : Nat} (hc : ch < 2) (hi : i < 9) (set : MillRaised s ch i) : MillRaised t ch i :=
  h.events ch hc i hi set

end

/-! Events (R388). -/

theorem State.millEvt_shows (s : State) {ch : Nat} (hc : ch < 2) (i : Nat) :
    (s.millEvt ch i).rd (F.MB_EVT_evt ch) = (s.rd (F.MB_EVT_evt ch) ||| 1 <<< i) % 2 ^ 9 := by
  refine s.setEvt_rd _ _ _ _ (by omega) ?_ ?_
  · simp [F.MB_EVT_evt]
  · simp only [eventReg, F.MB_EVT_evt]
    omega

theorem State.millEvt_raised (s : State) {ch i : Nat} (hc : ch < 2) (hi : i < 9) : MillRaised (s.millEvt ch i) ch i := by
  rw [MillRaised, s.millEvt_shows hc, bitOf_eq_testBit, Nat.testBit_mod_two_pow, Nat.testBit_or, Nat.one_shiftLeft,
    Nat.testBit_two_pow_self, Bool.or_true, Bool.and_true, decide_eq_true hi]

theorem State.millEvt_but (K : Nat → Prop) (s : State) {ch : Nat} (hc : ch < 2) (i : Nat) : MillBut K s (s.millEvt ch i) := by
  have regs : RegsBut (fun o => eventReg o ∨ o = (F.MB_EVT_evt ch).off) s (s.millEvt ch i) :=
    s.setEvt_regs _ _ _ _ _ (by omega) (by simp [F.MB_EVT_evt])
  have own : (F.MB_EVT_evt ch).off = 0x9018 + 0x1000 * ch := by
    simp only [F.MB_EVT_evt]
  refine ⟨fun f ⟨hf, a, b⟩ _ => regs f hf.1 ?_, fun c hc' => ?_⟩
  · simp only [Fld.In, Bank.range] at hf
    simp only [eventReg, own]
    omega
  · by_cases same : c = ch
    · subst same
      intro j hj set
      rw [s.millEvt_shows hc]
      rw [bitOf_eq_testBit] at set ⊢
      rw [Nat.testBit_mod_two_pow, Nat.testBit_or, set, Bool.true_or, Bool.and_true]
      exact decide_eq_true hj
    · refine .of_eq (regs _ (by simp [F.MB_EVT_evt]) ?_)
      simp only [eventReg, F.MB_EVT_evt]
      omega

theorem State.millEvt_mill (s : State) (ch i : Nat) : (s.millEvt ch i).mill = s.mill := (s.millEvt_keeps ch i).parts .mill (by decide)

/-! The error counters and states (R383). -/

/-- The fields of a channel's errors: its state and its two counters. -/
def errKeys (ch : Nat) : List Nat := [(F.MB_STATUS_state ch).key, (F.MB_STATUS_tec ch).key, (F.MB_STATUS_rec ch).key]

theorem State.errState_but (s : State) {ch : Nat} (hc : ch < 2) : MillBut (· = (F.MB_STATUS_state ch).key) s (s.errState ch) := by
  have written (v : Nat) : MillBut (· = (F.MB_STATUS_state ch).key) s (s.wr (F.MB_STATUS_state ch) v) :=
    MillBut.rfl.wr v (Eq.refl _) (by simp only [F.MB_STATUS_state]; omega)
  exact .ite ((written _).trans (State.millEvt_but _ _ hc 0)) (written _)

theorem State.errState_mill (s : State) (ch : Nat) : (s.errState ch).mill = s.mill := (s.errState_keeps ch).parts .mill (by decide)

/-- The counters keep when only other fields change. -/
theorem MillBut.errs {K : Nat → Prop} {s t : State} (h : MillBut K s t) {ch : Nat} (hc : ch < 2) (apart : ∀ k ∈ errKeys ch, ¬K k)
    (shown : ErrorState s ch) : ErrorState t ch := by
  have kept (f : Fld) (hf : f ∈ [F.MB_STATUS_state ch, F.MB_STATUS_tec ch, F.MB_STATUS_rec ch]) : t.rd f = s.rd f := by
    refine h.regs f ?_ (apart _ (List.mem_map_of_mem (f := Fld.key) hf))
    revert f
    interval_cases ch <;> decide
  unfold ErrorState
  rw [kept _ (by simp), kept _ (by simp), kept _ (by simp)]
  exact shown

theorem State.errState_shows (s : State) {ch : Nat} (hc : ch < 2) : ErrorState (s.errState ch) ch := by
  have passive (v : Nat) (hv : v < 4) : ((s.wr (F.MB_STATUS_state ch) v).rd (F.MB_STATUS_state ch)) = v :=
    (State.rd_wr_same _ _ _).trans (Nat.mod_eq_of_lt hv)
  have written (v : Nat) (hv : v = if 127 < s.rd (F.MB_STATUS_tec ch) ∨ 127 < s.rd (F.MB_STATUS_rec ch) then 2 else 1) :
      ErrorState (s.wr (F.MB_STATUS_state ch) v) ch := by
    unfold ErrorState
    rw [passive v (by rw [hv]; split <;> decide), State.rd_wr_ne _ _ _ _ (by simp [Fld.key, F.MB_STATUS_state, F.MB_STATUS_tec]),
      State.rd_wr_ne _ _ _ _ (by simp [Fld.key, F.MB_STATUS_state, F.MB_STATUS_rec]), hv]
  unfold State.errState
  simp only [Bool.or_eq_true, decide_eq_true_eq]
  split
  · exact (State.millEvt_but (fun _ => False) _ hc 0).errs hc (fun _ _ => id) (written _ (Eq.refl _))
  · exact written _ (Eq.refl _)

/-! Channels and buffers. -/

theorem State.setMillCh_but (K : Nat → Prop) (s : State) (ch : Nat) (c : MillChan) : MillBut K s (s.setMillCh ch c) := .of_regs (Eq.refl _)

@[simp] theorem State.setMillCh_rd (s : State) (ch : Nat) (c : MillChan) (f : Fld) : (s.setMillCh ch c).rd f = s.rd f := rfl

@[simp] theorem State.setMillBuf_rd (s : State) (ch b : Nat) (x : MillBuf) (f : Fld) : (s.setMillBuf ch b x).rd f = s.rd f := rfl

theorem State.setMillBuf_but (K : Nat → Prop) (s : State) (ch b : Nat) (x : MillBuf) : MillBut K s (s.setMillBuf ch b x) :=
  .of_regs (Eq.refl _)

@[simp] theorem State.millCh_setMillCh (s : State) (ch : Nat) (c : MillChan) : (s.setMillCh ch c).millCh ch = c := by
  simp [State.millCh, State.setMillCh, SMap.getD]

@[simp] theorem State.millBuf_setMillBuf (s : State) (ch b : Nat) (x : MillBuf) : (s.setMillBuf ch b x).millBuf ch b = x := by
  simp [State.millBuf, State.setMillBuf, SMap.getD]

theorem State.millBuf_setMillBuf_ne (s : State) (ch : Nat) {b j : Nat} (x : MillBuf) (ne : b ≠ j) :
    (s.setMillBuf ch b x).millBuf ch j = s.millBuf ch j := by
  simp [State.millBuf, State.setMillBuf, SMap.getD, SMap.find_put_ne _ _ ne]

/-- A buffer written leaves the rest of its channel. -/
theorem State.millCh_setMillBuf (s : State) (ch b : Nat) (x : MillBuf) :
    (s.setMillBuf ch b x).millCh ch = { s.millCh ch with bufs := SMap.put (s.millCh ch).bufs b x } := by
  simp [State.setMillBuf]

/-- A channel written with its buffers kept. -/
theorem State.millBuf_setMillCh (s : State) {ch : Nat} {c : MillChan} (same : c.bufs = (s.millCh ch).bufs) (b : Nat) :
    (s.setMillCh ch c).millBuf ch b = s.millBuf ch b := by
  unfold State.millBuf
  rw [State.millCh_setMillCh, same]

theorem State.millCh_of_mill {s t : State} (h : t.mill = s.mill) (ch : Nat) : t.millCh ch = s.millCh ch := by
  unfold State.millCh
  rw [h]

theorem State.millBuf_of_mill {s t : State} (h : t.mill = s.mill) (ch b : Nat) : t.millBuf ch b = s.millBuf ch b := by
  unfold State.millBuf
  rw [State.millCh_of_mill h]

end Sys2Proof.Machine

/-! PROOFS. O51: what the mill bus sends, its errors and its schedule. -/

namespace Sys2Proof.Machine

/-! Frames sent (R377, R383). -/

/-- A channel's count has risen, with what changed before and after it apart. -/
theorem State.inc_counted {s t u : State} {K L : Nat → Prop} {ch j : Nat} (hc : ch < 2) (hj : j < 6) (before : MillBut K s t)
    (after : MillBut L (t.inc (F.MB_CNT_count ch j)) u) (hK : ¬K (F.MB_CNT_count ch j).key) (hL : ¬L (F.MB_CNT_count ch j).key) :
    MillCounted s u ch j := by
  have place : MillFld (F.MB_CNT_count ch j) := by
    simp only [MillFld, Fld.In, F.MB_CNT_count, Bank.range]
    omega
  unfold MillCounted
  rw [after.regs _ place hL, State.inc, State.rd_add_same, before.regs _ place hK]
  rfl

/-- A frame of a source has gone out: it counts, and the transmit error count falls. -/
structure FrameOut (s t : State) (ch key tec : Nat) : Prop where
  counted : MillCounted s t ch 0
  lowered : t.rd (F.MB_STATUS_tec ch) = tec - 1
  state : ErrorState t ch
  out : ∃ data, Out.mill ch key data ∈ t.out

theorem FrameOut.after {s t u : State} {ch key tec : Nat} {K : Nat → Prop} (h : FrameOut s t ch key tec) (hc : ch < 2) (but : MillBut K t u)
    (errs : ∀ k ∈ errKeys ch, ¬K k) (count : ¬K (F.MB_CNT_count ch 0).key) (sent : t.out <+: u.out) : FrameOut s u ch key tec := by
  obtain ⟨counted, lowered, state, data, out⟩ := h
  refine ⟨?_, ?_, but.errs hc errs state, data, sent.subset out⟩
  · have kept := but.regs (F.MB_CNT_count ch 0) (by interval_cases ch <;> decide) count
    rw [MillCounted, kept]
    exact counted
  · rw [but.regs _ (by interval_cases ch <;> decide) (errs _ (by simp [errKeys])), lowered]

/-- What every frame that goes out does, whatever its source. -/
def State.frameOut (s : State) (ch key : Nat) (data : Bytes) : State :=
  let u := ((s.noteAttempt ch key false).emit (.mill ch key data)).inc (F.MB_CNT_count ch 0)
  (u.wr (F.MB_STATUS_tec ch) (u.rd (F.MB_STATUS_tec ch) - 1)).errState ch

theorem State.frameOut_out (s : State) {ch : Nat} (hc : ch < 2) (key : Nat) (data : Bytes) {tec : Nat}
    (at_ : s.rd (F.MB_STATUS_tec ch) = tec) (low : tec ≤ 255) : FrameOut s (s.frameOut ch key data) ch key tec := by
  let n := (s.noteAttempt ch key false).emit (.mill ch key data)
  let u := n.inc (F.MB_CNT_count ch 0)
  let w := u.wr (F.MB_STATUS_tec ch) (u.rd (F.MB_STATUS_tec ch) - 1)
  have tecU : u.rd (F.MB_STATUS_tec ch) = tec := at_ ▸ State.rd_wr_ne _ _ _ _ (by interval_cases ch <;> decide)
  have lowered : w.rd (F.MB_STATUS_tec ch) = tec - 1 := by
    rw [State.rd_wr_same, tecU]
    exact Nat.mod_eq_of_lt (by simp only [F.MB_STATUS_tec]; omega)
  have written : MillBut (· ∈ errKeys ch) u w := MillBut.rfl.wr _ (by simp [errKeys]) (by simp only [F.MB_STATUS_tec]; omega)
  have judged := w.errState_but hc
  refine ⟨State.inc_counted (K := fun _ => False) hc (by decide) (.of_regs (t := n) (Eq.refl _))
    (written.trans (judged.mono fun k hk => by simp [errKeys, hk])) id ?_, ?_, State.errState_shows _ hc,
    data, (w.errState_keeps ch).sent.subset (by simp [w, u, n, State.emit, State.inc, State.add, State.wr])⟩
  · interval_cases ch <;> decide
  · rw [← lowered]
    exact judged.regs _ (by interval_cases ch <;> decide) (by interval_cases ch <;> decide)

/-- The payload that a source sends. -/
def State.sourceData (s : State) (ch : Nat) : MillSource → Bytes
  | .buffer b => wordsBytes (((s.millBuf ch b.val).msg.map (·.words)).getD [])
  | .heartbeat => (s.millCh ch).heartbeat.getD []
  | .reference => s.referenceBytes ch

/-- The wait of a source's message ends once it is sent. -/
def State.sourceSent (s : State) (ch : Nat) : MillSource → State
  | .buffer b =>
    let u := s.wr (F.MB_BUF_STATUS_pending ch b.val) 0
    if s.millRole ch b.val = 4 then u.setMillBuf ch b.val { s.millBuf ch b.val with sentInWindow := true } else u
  | .heartbeat => s.setMillCh ch { s.millCh ch with heartbeat := none }
  | .reference =>
    let u := (s.setMillCh ch { s.millCh ch with refPending := false }).wr (F.MB_TT_STATUS_ref_ok ch) 1
    if u.on (F.MB_TT_STATUS_master ch) then u else (u.wr (F.MB_TT_STATUS_master ch) 1).millEvt ch 6

theorem next_ite {a b : State} {p : Prop} [Decidable p] : (if p then ok a else ok b) = .next (if p then a else b) := by
  split <;> rfl

theorem millFrameSent_runs {s : State} {c : Fin 2} {src : MillSource} (may : s.mayTransmit c.val src = true) :
    exec (.millFrameSent c src) s =
      .next ((s.frameOut c.val (s.sourceIdent c.val src) (s.sourceData c.val src)).sourceSent c.val src) := by
  show execMillFrameSent c src s = _
  unfold execMillFrameSent
  simp only [may, Bool.not_true, Bool.false_eq_true, if_false]
  cases src with
  | buffer b => exact next_ite
  | heartbeat => rfl
  | reference => exact next_ite

/-- The fields that tell of what waits to be sent. -/
def waitKeys (ch k : Nat) : Prop :=
  (∃ b < 64, k = (F.MB_BUF_STATUS_pending ch b).key) ∨ k = (F.MB_TT_STATUS_ref_ok ch).key ∨ k = (F.MB_TT_STATUS_master ch).key

theorem waitKeys_errs {ch : Nat} (k : Nat) (hk : k ∈ errKeys ch) : ¬waitKeys ch k := by
  rintro (⟨b, -, rfl⟩ | rfl | rfl) <;>
    simp only [errKeys, Fld.key, F.MB_STATUS_state, F.MB_STATUS_tec, F.MB_STATUS_rec, F.MB_BUF_STATUS_pending, F.MB_TT_STATUS_ref_ok,
      F.MB_TT_STATUS_master, List.mem_cons, List.not_mem_nil, or_false] at hk <;> omega

theorem waitKeys_count {ch j : Nat} (hj : j < 6) : ¬waitKeys ch (F.MB_CNT_count ch j).key := by
  rintro (⟨b, -, e⟩ | e | e) <;>
    simp only [Fld.key, F.MB_CNT_count, F.MB_BUF_STATUS_pending, F.MB_TT_STATUS_ref_ok, F.MB_TT_STATUS_master] at e <;> omega

theorem pending_place {ch b : Nat} (hc : ch < 2) (hb : b < 64) : MillFld (F.MB_BUF_STATUS_pending ch b) := by
  simp only [MillFld, Fld.In, F.MB_BUF_STATUS_pending, Bank.range]
  omega

theorem State.sourceSent_but (s : State) {ch : Nat} (hc : ch < 2) (src : MillSource) :
    MillBut (waitKeys ch) s (s.sourceSent ch src) ∧ s.out <+: (s.sourceSent ch src).out := by
  cases src with
  | buffer b =>
    have ended : MillBut (waitKeys ch) s (s.wr (F.MB_BUF_STATUS_pending ch b.val) 0) :=
      MillBut.rfl.wr 0 (.inl ⟨_, b.isLt, Eq.refl _⟩) ⟨(pending_place hc b.isLt).1.1, (pending_place hc b.isLt).2⟩
    refine ⟨.ite (ended.trans (.of_regs (Eq.refl _))) ended, ?_⟩
    unfold State.sourceSent
    simp only
    split <;> exact List.prefix_rfl
  | heartbeat => exact ⟨.of_regs (Eq.refl _), List.prefix_rfl⟩
  | reference =>
    have seen : MillBut (waitKeys ch) s (s.setMillCh ch { s.millCh ch with refPending := false }) := .of_regs (Eq.refl _)
    have heard := seen.wr (f := F.MB_TT_STATUS_ref_ok ch) 1 (Or.inr (Or.inl (Eq.refl _))) (by simp only [F.MB_TT_STATUS_ref_ok]; omega)
    refine ⟨.ite heard ((heard.wr (f := F.MB_TT_STATUS_master ch) 1 (Or.inr (Or.inr (Eq.refl _))) (by simp only [F.MB_TT_STATUS_master]; omega)).trans
      (State.millEvt_but _ _ hc 6)), ?_⟩
    unfold State.sourceSent
    simp only
    split
    · exact List.prefix_rfl
    · refine List.IsPrefix.trans ?_ (State.millEvt_keeps _ ch 6).sent
      exact List.prefix_rfl

/-- The wait of a source's message has ended from s to t. -/
def SourceEnded (s t : State) (ch : Nat) : MillSource → Prop
  | .buffer b => t.rd (F.MB_BUF_STATUS_pending ch b.val) = 0 ∧
      (s.millRole ch b.val = 4 → (t.millBuf ch b.val).sentInWindow = true)
  | .heartbeat => (t.millCh ch).heartbeat = none
  | .reference => (t.millCh ch).refPending = false ∧ t.rd (F.MB_TT_STATUS_master ch) = 1

theorem State.sourceSent_ends (s : State) {ch : Nat} (hc : ch < 2) (src : MillSource) : SourceEnded s (s.sourceSent ch src) ch src := by
  cases src with
  | buffer b =>
    have ended : (s.wr (F.MB_BUF_STATUS_pending ch b.val) 0).rd (F.MB_BUF_STATUS_pending ch b.val) = 0 := State.rd_wr_same _ _ _
    refine ⟨?_, fun role => ?_⟩
    · unfold State.sourceSent
      simp only
      split <;> exact ended
    · unfold State.sourceSent
      simp [role]
  | heartbeat => exact congrArg MillChan.heartbeat (State.millCh_setMillCh _ _ _)
  | reference =>
    unfold State.sourceSent SourceEnded
    simp only
    split
    · next master => exact ⟨congrArg MillChan.refPending (State.millCh_setMillCh _ _ _), beq_iff_eq.1 master⟩
    · refine ⟨?_, ?_⟩
      · rw [State.millCh_of_mill (State.millEvt_mill _ ch 6)]
        exact congrArg MillChan.refPending (State.millCh_setMillCh _ _ _)
      · rw [(State.millEvt_but (fun _ => False) _ hc 6).regs _ (by interval_cases ch <;> decide) id]
        exact State.rd_wr_same _ _ _

theorem millFrameSent_sends {s : State} {c : Fin 2} {src : MillSource} (may : s.mayTransmit c.val src = true)
    (low : s.rd (F.MB_STATUS_tec c.val) ≤ 255) : Does (.millFrameSent c src) s (fun t =>
      FrameOut s t c.val (s.sourceIdent c.val src) (s.rd (F.MB_STATUS_tec c.val)) ∧ SourceEnded s t c.val src) := by
  have sends := s.frameOut_out c.isLt (s.sourceIdent c.val src) (s.sourceData c.val src) (Eq.refl _) low
  obtain ⟨but, sent⟩ := (s.frameOut c.val (s.sourceIdent c.val src) (s.sourceData c.val src)).sourceSent_but c.isLt src
  have ends := (s.frameOut c.val (s.sourceIdent c.val src) (s.sourceData c.val src)).sourceSent_ends c.isLt src
  refine ⟨_, millFrameSent_runs may, sends.after c.isLt but waitKeys_errs (waitKeys_count (by decide)) sent, ?_⟩
  have act : (s.frameOut c.val (s.sourceIdent c.val src) (s.sourceData c.val src)).hop.active = s.hop.active :=
    (State.errState_keeps _ c.val).parts .settings (by decide)
  cases src with
  | buffer b =>
    obtain ⟨ended, window⟩ := ends
    refine ⟨ended, fun role => window ?_⟩
    rw [State.millRole, State.act, act]
    exact role
  | heartbeat => exact ends
  | reference => exact ends

/-! Errors (R383, R385). -/

/-- The fields of a transmit buffer that a clash writes. -/
def dropKeys (ch k : Nat) : Prop := ∃ b < 64,
  k ∈ [(F.MB_BUF_STATUS_clash_muted ch b).key, (F.MB_BUF_STATUS_pending ch b).key, (F.MB_BUF_STATUS_replaced ch b).key]

/-- The fields that a clash writes. -/
def clashKeys (ch k : Nat) : Prop :=
  k ∈ [(F.MB_CLASH_id ch).key, (F.MB_CLASH_ide ch).key, (F.MB_CLASH_count ch).key] ∨ dropKeys ch k

theorem State.dropMuted_but (s : State) {ch b : Nat} (hc : ch < 2) (hb : b < 64) (key : Nat) :
    MillBut (dropKeys ch) s (s.dropMuted ch key b) := by
  have muted := MillBut.rfl (K := dropKeys ch) (s := s) |>.wr (f := F.MB_BUF_STATUS_clash_muted ch b) 1
    ⟨b, hb, by simp⟩ (by simp only [F.MB_BUF_STATUS_clash_muted]; omega)
  have dropped := muted.wr (f := F.MB_BUF_STATUS_pending ch b) 0 ⟨b, hb, by simp⟩ (by simp only [F.MB_BUF_STATUS_pending]; omega)
  unfold State.dropMuted
  refine .ite .rfl (.ite (dropped.inc (f := F.MB_BUF_STATUS_replaced ch b) ⟨b, hb, by simp⟩ ?_) muted)
  simp only [F.MB_BUF_STATUS_replaced]
  omega

theorem State.dropMuted_mill (s : State) (ch key b : Nat) : (s.dropMuted ch key b).mill = s.mill := by
  unfold State.dropMuted
  split
  · rfl
  · simp only
    split <;> rfl

/-- A clash is shown and counted. -/
def State.noteClash (s : State) (ch key : Nat) : State :=
  (((s.wr (F.MB_CLASH_id ch) (key % 2 ^ 29)).wr (F.MB_CLASH_ide ch) (key / 2 ^ 29)).inc (F.MB_CLASH_count ch)).millEvt ch 3

theorem State.noteClash_but (s : State) {ch : Nat} (hc : ch < 2) (key : Nat) : MillBut (clashKeys ch) s (s.noteClash ch key) := by
  have ident := MillBut.rfl (K := clashKeys ch) (s := s) |>.wr (f := F.MB_CLASH_id ch) (key % 2 ^ 29) (Or.inl (by simp))
    (by simp only [F.MB_CLASH_id]; omega) |>.wr (f := F.MB_CLASH_ide ch) (key / 2 ^ 29) (Or.inl (by simp))
    (by simp only [F.MB_CLASH_ide]; omega)
  exact (ident.inc (f := F.MB_CLASH_count ch) (Or.inl (by simp)) (by simp only [F.MB_CLASH_count]; omega)).trans
    (State.millEvt_but _ _ hc 3)

theorem State.noteClash_active (s : State) (ch key : Nat) : (s.noteClash ch key).hop.active = s.hop.active := by
  unfold State.noteClash
  exact (State.millEvt_keeps _ ch 3).parts .settings (by decide)

/-- The pending messages of a muted identifier are dropped. -/
theorem State.dropAll_but (s : State) {ch : Nat} (hc : ch < 2) (key : Nat) :
    MillBut (dropKeys ch) s ((upTo 64).foldl (fun s b => s.dropMuted ch key b) s) :=
  .foldl .rfl fun u _ hb => u.dropMuted_but hc (mem_upTo.1 hb) key

theorem State.dropAll_mill (s : State) (ch key : Nat) : ((upTo 64).foldl (fun s b => s.dropMuted ch key b) s).mill = s.mill :=
  List.foldlRecOn (upTo 64) _ (motive := fun u : State => u.mill = s.mill) (Eq.refl _)
    fun u hu b _ => (State.dropMuted_mill u ch key b).trans hu

/-- After a clash is noted, at most pending messages are dropped. -/
theorem State.clash_notes (s : State) {ch : Nat} (hc : ch < 2) (key : Nat) : MillBut (dropKeys ch) (s.noteClash ch key) (s.clash ch key) ∧
    (s.act (F.MB_CTRL_clash_mute ch) = 1 → key ∈ ((s.clash ch key).millCh ch).mutedIds) := by
  have act : (s.noteClash ch key).act (F.MB_CTRL_clash_mute ch) = s.act (F.MB_CTRL_clash_mute ch) := by
    rw [State.act, State.noteClash_active, State.act]
  have whole : s.clash ch key = if !(s.noteClash ch key).aon (F.MB_CTRL_clash_mute ch) then s.noteClash ch key else
      (upTo 64).foldl (fun s b => s.dropMuted ch key b) ((s.noteClash ch key).setMillCh ch { (s.noteClash ch key).millCh ch with
        mutedIds := (key :: ((s.noteClash ch key).millCh ch).mutedIds).eraseDups }) := rfl
  rw [whole]
  refine ⟨.ite .rfl ((State.setMillCh_but _ _ _ _).trans (State.dropAll_but _ hc key)), fun mutes => ?_⟩
  rw [if_neg (by simp [State.aon, act, mutes]), State.millCh_of_mill (State.dropAll_mill _ ch key), State.millCh_setMillCh]
  simp [List.eraseDups_cons]

theorem State.clash_but (s : State) {ch : Nat} (hc : ch < 2) (key : Nat) : MillBut (clashKeys ch) s (s.clash ch key) :=
  (s.noteClash_but hc key).trans ((s.clash_notes hc key).1.mono fun _ => Or.inr)

theorem State.clash_ident (s : State) {ch : Nat} (hc : ch < 2) (key : Nat) : (s.clash ch key).rd (F.MB_CLASH_id ch) = key % 2 ^ 29 := by
  have place : MillFld (F.MB_CLASH_id ch) ∧ ¬dropKeys ch (F.MB_CLASH_id ch).key := by
    refine ⟨by interval_cases ch <;> decide, ?_⟩
    rintro ⟨b, -, e⟩
    simp only [Fld.key, F.MB_CLASH_id, F.MB_BUF_STATUS_clash_muted, F.MB_BUF_STATUS_pending, F.MB_BUF_STATUS_replaced, List.mem_cons,
      List.not_mem_nil, or_false] at e
    omega
  obtain ⟨place, apart⟩ := place
  rw [(s.clash_notes hc key).1.regs _ place apart, State.noteClash, (State.millEvt_but (fun _ => False) _ hc 3).regs _ place id]
  simp (disch := (simp only [Fld.key, F.MB_CLASH_id, F.MB_CLASH_ide, F.MB_CLASH_count]; omega)) only
    [State.inc, State.add, State.rd_wr_ne, State.rd_wr_same]
  exact Nat.mod_mod _ _

theorem State.clash_raised (s : State) {ch : Nat} (hc : ch < 2) (key : Nat) : MillRaised (s.clash ch key) ch 3 :=
  (s.clash_notes hc key).1.raised hc (by decide) (State.millEvt_raised _ hc (by decide))

/-! Bus-off (R383, R384). -/

def heldKeys (ch k : Nat) : Prop := ∃ b < 64, k = (F.MB_BUF_STATUS_held ch b).key

/-- Every pending message is held. -/
def State.holdPending (s : State) (ch : Nat) : State :=
  (upTo 64).foldl (fun s b => if s.on (F.MB_BUF_STATUS_pending ch b) then s.wr (F.MB_BUF_STATUS_held ch b) 1 else s) s

theorem State.holdPending_but (s : State) {ch : Nat} (hc : ch < 2) : MillBut (heldKeys ch) s (s.holdPending ch) := by
  refine .foldl .rfl fun u b hb => .ite (MillBut.rfl.wr 1 ⟨b, mem_upTo.1 hb, Eq.refl _⟩ ?_) .rfl
  have hb := mem_upTo.1 hb
  simp only [F.MB_BUF_STATUS_held]
  omega

theorem State.holdPending_holds (s : State) (ch : Nat) {b : Nat} (hb : b < 64) (pending : s.rd (F.MB_BUF_STATUS_pending ch b) = 1) :
    (s.holdPending ch).rd (F.MB_BUF_STATUS_held ch b) = 1 := by
  have other (u : State) (j : Nat) (f : Fld) (ne : (F.MB_BUF_STATUS_held ch j).key ≠ f.key) :
      (if u.on (F.MB_BUF_STATUS_pending ch j) then u.wr (F.MB_BUF_STATUS_held ch j) 1 else u).rd f = u.rd f := by
    split
    · exact State.rd_wr_ne _ _ _ _ ne
    · rfl
  have own (u : State) (waits : u.rd (F.MB_BUF_STATUS_pending ch b) = 1) :
      (if u.on (F.MB_BUF_STATUS_pending ch b) then u.wr (F.MB_BUF_STATUS_held ch b) 1 else u).rd (F.MB_BUF_STATUS_held ch b) = 1 := by
    rw [if_pos (show u.on (F.MB_BUF_STATUS_pending ch b) = true from beq_iff_eq.2 waits)]
    exact State.rd_wr_same _ _ _
  refine foldl_reaches (I := fun u : State => u.rd (F.MB_BUF_STATUS_pending ch b) = 1) (P := fun u : State => u.rd (F.MB_BUF_STATUS_held ch b) = 1)
    (mem_upTo.2 hb) pending (fun u hu j _ => (other u j _ ?_).trans hu) (fun u hu => ?_) fun u hI hu j _ => ?_
  · simp only [Fld.key, F.MB_BUF_STATUS_held, F.MB_BUF_STATUS_pending]
    omega
  · exact own u hu
  · by_cases same : j = b
    · exact same ▸ own u hI
    · refine (other u j _ ?_).trans hu
      simp only [Fld.key, F.MB_BUF_STATUS_held]
      omega

/-- The registers that a channel that goes bus-off writes. -/
def State.offRegs (s : State) (ch : Nat) : State :=
  ((s.wr (F.MB_STATUS_state ch) 3).wr (F.MB_STATUS_recovering ch) (s.act (F.MB_CTRL_auto_recover ch))).inc (F.MB_CNT_count ch 3)

def offKeys (ch k : Nat) : Prop :=
  k ∈ [(F.MB_STATUS_state ch).key, (F.MB_STATUS_recovering ch).key, (F.MB_CNT_count ch 3).key] ∨ heldKeys ch k

/-- After its registers a channel that goes bus-off only holds what is pending, and raises its event. -/
theorem State.busOff_holds (s : State) {ch : Nat} (hc : ch < 2) :
    MillBut (heldKeys ch) (s.offRegs ch) (s.busOff ch) ∧ MillRaised (s.busOff ch) ch 1 ∧
      (∀ b < 64, (s.busOff ch).rd (F.MB_BUF_STATUS_pending ch b) = 1 → (s.busOff ch).rd (F.MB_BUF_STATUS_held ch b) = 1) ∧
      ((s.busOff ch).millCh ch).mutedIds = (s.millCh ch).mutedIds := by
  let u := (s.offRegs ch).holdPending ch
  let v := u.setMillCh ch { u.millCh ch with hbHeld := (u.millCh ch).heartbeat.isSome }
  have whole : s.busOff ch = (v.millEvt ch 1).fireTrigger (60 + ch) 0xFF 0 0 := rfl
  have fired : MillBut (fun _ => False) (v.millEvt ch 1) (s.busOff ch) := .of_in (State.fireTrigger_in _ _ _ _ _) (by decide)
  have late : MillBut (fun _ => False) u (s.busOff ch) :=
    ((u.setMillCh_but _ _ _).trans (v.millEvt_but _ hc 1)).trans fired
  have held := (s.offRegs ch).holdPending_but hc
  have place (f : Fld) (hf : f.lo < 32 ∧ ∃ b < 64, f.off = 37144 + 4096 * ch + 32 * b) : MillFld f := by
    obtain ⟨low, b, hb, at_⟩ := hf
    simp only [MillFld, Fld.In, Bank.range]
    omega
  refine ⟨held.trans (late.mono fun _ => False.elim), fired.raised hc (by decide) (v.millEvt_raised hc (by decide)), fun b hb pending => ?_, ?_⟩
  · rw [late.regs _ (place _ ⟨by simp [F.MB_BUF_STATUS_held], b, hb, Eq.refl _⟩) id]
    rw [late.regs _ (place _ ⟨by simp [F.MB_BUF_STATUS_pending], b, hb, Eq.refl _⟩) id] at pending
    refine State.holdPending_holds _ ch hb ?_
    rw [← held.regs _ (place _ ⟨by simp [F.MB_BUF_STATUS_pending], b, hb, Eq.refl _⟩)]
    · exact pending
    · rintro ⟨j, -, e⟩
      simp only [Fld.key, F.MB_BUF_STATUS_held, F.MB_BUF_STATUS_pending] at e
      omega
  · have mill : (s.busOff ch).mill = v.mill :=
      Eq.trans ((State.fireTrigger_keeps (v.millEvt ch 1) _ _ _ _).parts .mill (by decide)) (v.millEvt_mill ch 1)
    have heldMill : u.mill = s.mill := by
      refine List.foldlRecOn (upTo 64) _ (motive := fun w : State => w.mill = s.mill) (Eq.refl _) fun w hw b _ => ?_
      split
      · exact hw
      · exact hw
    rw [State.millCh_of_mill mill, State.millCh_setMillCh, State.millCh_of_mill heldMill]

/-- An attempt that fails, before the channel's state follows. -/
def State.txFailed (s : State) (ch key : Nat) (src : MillSource) (inData : Bool) : State :=
  let s := (s.inc (F.MB_CNT_count ch 2)).noteAttempt ch key inData
  let s := s.wr (F.MB_STATUS_tec ch) (s.rd (F.MB_STATUS_tec ch) + 8)
  let bad := ((SMap.getD (s.millCh ch).history key []).filter id).length
  let s := if inData && 3 ≤ bad then s.clash ch key else s
  match src with
  | .reference => s.setMillCh ch { s.millCh ch with refPending := false }
  | _ => s

theorem State.inc_rd_ne (s : State) {f g : Fld} (ne : f.key ≠ g.key) : (s.inc f).rd g = s.rd g := State.rd_wr_ne _ _ _ _ ne

theorem millTxError_runs {s : State} {c : Fin 2} {src : MillSource} {inData : Bool} (may : s.mayTransmit c.val src = true) :
    exec (.millTxError c src inData) s = .next (if 255 < s.rd (F.MB_STATUS_tec c.val) + 8 then
      (s.txFailed c.val (s.sourceIdent c.val src) src inData).busOff c.val
      else (s.txFailed c.val (s.sourceIdent c.val src) src inData).errState c.val) := by
  have tec : (((s.inc (F.MB_CNT_count c.val 2)).noteAttempt c.val (s.sourceIdent c.val src) inData).rd (F.MB_STATUS_tec c.val)) =
      s.rd (F.MB_STATUS_tec c.val) := s.inc_rd_ne (by have := c.isLt; simp only [Fld.key, F.MB_CNT_count, F.MB_STATUS_tec]; omega)
  show execMillTxError c src inData s = _
  unfold execMillTxError
  simp only [may, Bool.not_true, Bool.false_eq_true, if_false, tec]
  rw [← next_ite]
  cases src <;> simp only [State.txFailed, tec]

theorem clashKeys_apart {ch : Nat} {f : Fld} (hf : f ∈ [F.MB_CNT_count ch 2, F.MB_CNT_count ch 3, F.MB_STATUS_tec ch]) : ¬clashKeys ch f.key := by
  simp only [List.mem_cons, List.not_mem_nil, or_false] at hf
  rintro (listed | ⟨b, -, listed⟩) <;> rcases hf with rfl | rfl | rfl <;>
    simp only [Fld.key, F.MB_CNT_count, F.MB_STATUS_tec, F.MB_CLASH_id, F.MB_CLASH_ide, F.MB_CLASH_count, F.MB_BUF_STATUS_clash_muted,
      F.MB_BUF_STATUS_pending, F.MB_BUF_STATUS_replaced, List.mem_cons, List.not_mem_nil, or_false] at listed <;> omega

/-- The fields that a failed attempt writes. -/
def failKeys (ch k : Nat) : Prop := k = (F.MB_CNT_count ch 2).key ∨ k = (F.MB_STATUS_tec ch).key ∨ clashKeys ch k

/-- What a failed attempt leaves (R383, R385). -/
theorem State.txFailed_fails (s : State) {ch : Nat} (hc : ch < 2) (key : Nat) (src : MillSource) (inData : Bool)
    (low : s.rd (F.MB_STATUS_tec ch) ≤ 255) :
    let t := s.txFailed ch key src inData
    MillBut (failKeys ch) s t ∧ MillCounted s t ch 2 ∧ t.rd (F.MB_STATUS_tec ch) = s.rd (F.MB_STATUS_tec ch) + 8 ∧
      t.hop.active = s.hop.active ∧
      (inData = true → 3 ≤ ((true :: SMap.getD (s.millCh ch).history key []).take 16).countP id →
        t.rd (F.MB_CLASH_id ch) = key % 2 ^ 29 ∧ MillRaised t ch 3 ∧
        (s.act (F.MB_CTRL_clash_mute ch) = 1 → key ∈ (t.millCh ch).mutedIds)) := by
  intro t
  let n := (s.inc (F.MB_CNT_count ch 2)).noteAttempt ch key inData
  let w := n.wr (F.MB_STATUS_tec ch) (n.rd (F.MB_STATUS_tec ch) + 8)
  let x := if inData && 3 ≤ ((SMap.getD (w.millCh ch).history key []).filter id).length then w.clash ch key else w
  have last : MillBut (fun _ => False) x t ∧ (t.millCh ch).mutedIds = (x.millCh ch).mutedIds ∧ t.hop.active = x.hop.active := by
    cases src with
    | buffer b => exact ⟨.rfl, Eq.refl _, Eq.refl _⟩
    | heartbeat => exact ⟨.rfl, Eq.refl _, Eq.refl _⟩
    | reference =>
      refine ⟨State.setMillCh_but _ _ _ _, ?_, Eq.refl _⟩
      exact (congrArg MillChan.mutedIds (State.millCh_setMillCh x ch { x.millCh ch with refPending := false })).trans (Eq.refl _)
  obtain ⟨stays, muted, active⟩ := last
  have clashes : MillBut (clashKeys ch) w x := .ite (w.clash_but hc key) .rfl
  have counts : MillBut (failKeys ch) s (s.inc (F.MB_CNT_count ch 2)) := MillBut.rfl.inc (.inl (Eq.refl _)) (by simp only [F.MB_CNT_count]; omega)
  have raised : MillBut (fun k => k = (F.MB_STATUS_tec ch).key ∨ clashKeys ch k) (s.inc (F.MB_CNT_count ch 2)) t :=
    .trans (.trans (.trans ((s.inc _).setMillCh_but _ _ _) (MillBut.rfl.wr (n.rd (F.MB_STATUS_tec ch) + 8) (.inl (Eq.refl _))
      (by simp only [F.MB_STATUS_tec]; omega))) (clashes.mono fun _ => .inr)) (stays.mono fun _ => False.elim)
  have tecN : n.rd (F.MB_STATUS_tec ch) = s.rd (F.MB_STATUS_tec ch) :=
    s.inc_rd_ne (by simp only [Fld.key, F.MB_CNT_count, F.MB_STATUS_tec]; omega)
  have tec : w.rd (F.MB_STATUS_tec ch) = s.rd (F.MB_STATUS_tec ch) + 8 := by
    rw [State.rd_wr_same, tecN]
    exact Nat.mod_eq_of_lt (show _ < 2 ^ 9 by omega)
  have place : MillFld (F.MB_STATUS_tec ch) ∧ MillFld (F.MB_CLASH_id ch) := by interval_cases ch <;> decide
  refine ⟨counts.trans (raised.mono fun _ => .inr), State.inc_counted (K := fun _ => False) hc (by decide) .rfl raised id ?_, ?_, ?_,
    fun data bad => ?_⟩
  · rintro (same | clash)
    · simp only [Fld.key, F.MB_CNT_count, F.MB_STATUS_tec] at same
      omega
    · exact clashKeys_apart (by simp) clash
  · rw [stays.regs _ place.1 id, clashes.regs _ place.1 (clashKeys_apart (by simp)), tec]
  · rw [active]
    have clashed : (w.clash ch key).hop.active = w.hop.active := (State.clash_keeps w ch key).parts .settings (by decide)
    show (if _ then _ else _ : State).hop.active = _
    split
    · exact clashed
    · rfl
  · have history : SMap.getD (w.millCh ch).history key [] = (true :: SMap.getD (s.millCh ch).history key []).take 16 := by
      rw [show w.millCh ch = n.millCh ch from rfl]
      simp only [n, State.noteAttempt, State.millCh_setMillCh, data]
      simp only [SMap.getD, SMap.find_put_same, Option.getD_some]
      rfl
    have clash : x = w.clash ch key := if_pos (by
      rw [history, ← List.countP_eq_length_filter, data, decide_eq_true bad]
      rfl)
    obtain ⟨dropped, mutes⟩ := w.clash_notes hc key
    refine ⟨?_, ?_, fun mute => ?_⟩
    · rw [stays.regs _ place.2 id, clash, State.clash_ident _ hc]
    · exact stays.raised hc (by decide) (clash ▸ w.clash_raised hc key)
    · rw [muted, clash]
      exact mutes mute

theorem heldKeys_apart {ch : Nat} {f : Fld} (hf : f.off < 37144 + 4096 * ch) (low : f.lo < 32) : ¬heldKeys ch f.key := by
  rintro ⟨b, -, same⟩
  simp only [Fld.key, F.MB_BUF_STATUS_held] at same
  omega

theorem millTxError_fails {s : State} {c : Fin 2} {src : MillSource} {inData : Bool} (may : s.mayTransmit c.val src = true)
    (low : s.rd (F.MB_STATUS_tec c.val) ≤ 255) :
    let ch := c.val
    let key := s.sourceIdent ch src
    let tec := s.rd (F.MB_STATUS_tec ch)
    Does (.millTxError c src inData) s (fun t => MillCounted s t ch 2 ∧ t.rd (F.MB_STATUS_tec ch) = tec + 8 ∧
      (tec + 8 ≤ 255 → ErrorState t ch) ∧
      (255 < tec + 8 → t.rd (F.MB_STATUS_state ch) = 3 ∧ MillRaised t ch 1 ∧ MillCounted s t ch 3 ∧
        t.rd (F.MB_STATUS_recovering ch) = s.act (F.MB_CTRL_auto_recover ch) % 2 ∧
        ∀ b < 64, t.rd (F.MB_BUF_STATUS_pending ch b) = 1 → t.rd (F.MB_BUF_STATUS_held ch b) = 1) ∧
      (inData = true → 3 ≤ ((true :: SMap.getD (s.millCh ch).history key []).take 16).countP id →
        t.rd (F.MB_CLASH_id ch) = key % 2 ^ 29 ∧ MillRaised t ch 3 ∧
        (s.act (F.MB_CTRL_clash_mute ch) = 1 → key ∈ (t.millCh ch).mutedIds))) := by
  intro ch key tec
  have hc : ch < 2 := c.isLt
  obtain ⟨but, counted, lifted, active, clash⟩ := s.txFailed_fails hc key src inData low
  generalize hu : s.txFailed ch key src inData = u at but counted lifted active clash
  refine ⟨_, millTxError_runs may, ?_⟩
  rw [hu]
  by_cases full : 255 < tec + 8
  · rw [if_pos full]
    obtain ⟨held, off, holds, muted⟩ := u.busOff_holds hc
    have regs : MillBut (offKeys ch) u (u.offRegs ch) :=
      MillBut.rfl.wr (f := F.MB_STATUS_state ch) 3 (Or.inl (by simp)) (by simp only [F.MB_STATUS_state]; omega) |>.wr
        (f := F.MB_STATUS_recovering ch) _ (Or.inl (by simp)) (by simp only [F.MB_STATUS_recovering]; omega) |>.inc
        (f := F.MB_CNT_count ch 3) (Or.inl (by simp)) (by simp only [F.MB_CNT_count]; omega)
    have all := regs.trans (held.mono fun _ => Or.inr)
    have apart : ∀ f ∈ [F.MB_CNT_count ch 2, F.MB_STATUS_tec ch, F.MB_CLASH_id ch], ¬offKeys ch f.key := by
      rintro f hf (listed | listed)
      · revert f
        interval_cases ch <;> decide
      · refine heldKeys_apart ?_ ?_ listed <;> clear listed
        · revert f
          interval_cases ch <;> decide
        · revert f
          interval_cases ch <;> decide
    have place : ∀ f ∈ [F.MB_CNT_count ch 2, F.MB_STATUS_tec ch, F.MB_CLASH_id ch, F.MB_STATUS_state ch, F.MB_STATUS_recovering ch],
        MillFld f := by interval_cases ch <;> decide
    have written : ∀ f ∈ [F.MB_STATUS_state ch, F.MB_STATUS_recovering ch], (u.busOff ch).rd f = (u.offRegs ch).rd f := fun f hf => by
      refine held.regs f (place f (by simp_all)) (heldKeys_apart ?_ ?_)
      · revert f
        interval_cases ch <;> decide
      · revert f
        interval_cases ch <;> decide
    refine ⟨?_, ?_, fun low' => absurd low' (by omega), fun _ => ⟨?_, off, ?_, ?_, holds⟩, fun data bad => ?_⟩
    · rw [MillCounted, all.regs _ (place _ (by simp)) (apart _ (by simp))]
      exact counted
    · rw [all.regs _ (place _ (by simp)) (apart _ (by simp)), lifted]
    · rw [written _ (by simp), State.offRegs, State.inc_rd_ne _ (by interval_cases ch <;> decide),
        State.rd_wr_ne _ _ _ _ (by interval_cases ch <;> decide), State.rd_wr_same]
      rfl
    · have before : MillBut (fun k => failKeys ch k ∨ k ∈ [(F.MB_STATUS_state ch).key, (F.MB_STATUS_recovering ch).key]) s
          ((u.wr (F.MB_STATUS_state ch) 3).wr (F.MB_STATUS_recovering ch) (u.act (F.MB_CTRL_auto_recover ch))) :=
        (but.mono fun _ => .inl).wr (f := F.MB_STATUS_state ch) 3 (Or.inr (by simp)) (by simp only [F.MB_STATUS_state]; omega) |>.wr
          (f := F.MB_STATUS_recovering ch) _ (Or.inr (by simp)) (by simp only [F.MB_STATUS_recovering]; omega)
      refine State.inc_counted hc (by decide) before held ?_ (heldKeys_apart (by simp only [F.MB_CNT_count]; omega) (show 0 < 32 by decide))
      rintro ((own | tecKey | clashKey) | listed)
      · simp only [Fld.key, F.MB_CNT_count] at own
        omega
      · simp only [Fld.key, F.MB_CNT_count, F.MB_STATUS_tec] at tecKey
        omega
      · exact clashKeys_apart (by simp) clashKey
      · simp only [Fld.key, F.MB_CNT_count, F.MB_STATUS_state, F.MB_STATUS_recovering, List.mem_cons, List.not_mem_nil, or_false] at listed
        omega
    · rw [written _ (by simp), State.offRegs, State.inc_rd_ne _ (by interval_cases ch <;> decide), State.rd_wr_same, State.act, active]
      rfl
    · obtain ⟨ident, raised, mutes⟩ := clash data bad
      exact ⟨by rw [all.regs _ (place _ (by simp)) (apart _ (by simp)), ident], all.raised hc (by decide) raised,
        fun mute => muted ▸ mutes mute⟩
  · rw [if_neg full]
    have judged := u.errState_but hc
    have mill := u.errState_mill ch
    have kept : ∀ f ∈ [F.MB_CNT_count ch 2, F.MB_STATUS_tec ch, F.MB_CLASH_id ch], (u.errState ch).rd f = u.rd f := fun f hf => by
      refine judged.regs f ?_ ?_
      · revert f
        interval_cases ch <;> decide
      · revert f
        interval_cases ch <;> decide
    refine ⟨?_, ?_, fun _ => u.errState_shows hc, fun more => absurd more full, fun data bad => ?_⟩
    · rw [MillCounted, kept _ (by simp)]
      exact counted
    · rw [kept _ (by simp), lifted]
    · obtain ⟨ident, raised, mutes⟩ := clash data bad
      exact ⟨by rw [kept _ (by simp), ident], judged.raised hc (by decide) raised, fun mute => by
        rw [State.millCh_of_mill mill]
        exact mutes mute⟩

end Sys2Proof.Machine

/-! PROOFS. O51, continued: receive errors, recovery, the schedule's windows, and the messages that wait. -/

namespace Sys2Proof.Machine

section
variable {s : State} {c : Fin 2}

theorem millRxError_counts (hears : s.chanHears c.val = true) (n : Fin 9) : Does (.millRxError c n) s (fun t => MillCounted s t c.val 2 ∧
    (s.rd (F.MB_STATUS_muted c.val) = 1 → t.rd (F.MB_STATUS_rec c.val) = s.rd (F.MB_STATUS_rec c.val)) ∧
    (s.rd (F.MB_STATUS_muted c.val) ≠ 1 →
      t.rd (F.MB_STATUS_rec c.val) = min 255 (s.rd (F.MB_STATUS_rec c.val) + n.val) ∧ ErrorState t c.val)) := by
  have runs : exec (.millRxError c n) s = _ := if_neg (by simp [hears])
  rw [Does, runs]
  have hc := c.isLt
  generalize c.val = ch at hears hc ⊢
  have kept : ∀ f ∈ [F.MB_STATUS_muted ch, F.MB_STATUS_rec ch], (s.inc (F.MB_CNT_count ch 2)).rd f = s.rd f := fun f hf => by
    refine s.inc_rd_ne ?_
    revert f
    interval_cases ch <;> decide
  by_cases muted : s.rd (F.MB_STATUS_muted ch) = 1
  · refine ⟨_, if_pos ?_, State.inc_counted (K := fun _ => False) (L := fun _ => False) hc (by decide) .rfl .rfl id id,
      fun _ => kept _ (by simp), fun other => absurd muted other⟩
    rw [State.on, kept _ (by simp), muted]
    rfl
  · let u := (s.inc (F.MB_CNT_count ch 2)).wr (F.MB_STATUS_rec ch) (min 255 ((s.inc (F.MB_CNT_count ch 2)).rd (F.MB_STATUS_rec ch) + n.val))
    have judged := u.errState_but hc
    have written : MillBut (· ∈ errKeys ch) (s.inc (F.MB_CNT_count ch 2)) (u.errState ch) :=
      .trans (MillBut.rfl.wr (f := F.MB_STATUS_rec ch) _ (by simp [errKeys]) (by simp only [F.MB_STATUS_rec]; omega))
        (judged.mono fun k hk => by simp [errKeys, hk])
    refine ⟨u.errState ch, if_neg ?_, State.inc_counted (K := fun _ => False) hc (by decide) .rfl written id ?_, fun is => absurd is muted,
      fun _ => ⟨?_, u.errState_shows hc⟩⟩
    · rw [State.on, kept _ (by simp)]
      simpa using muted
    · interval_cases ch <;> decide
    · rw [judged.regs _ (by interval_cases ch <;> decide) (by interval_cases ch <;> decide), State.rd_wr_same, kept _ (by simp)]
      exact Nat.mod_eq_of_lt (show _ < 2 ^ 8 by omega)

theorem millDominantTimeout_raises (on : s.chanOn c.val = true) : Does (.millDominantTimeout c) s (fun t => MillRaised t c.val 8) :=
  ⟨_, if_pos on, State.millEvt_raised _ c.isLt (by decide)⟩

theorem mbCmdRestart_recovers (on : s.chanOn c.val = true) (off : s.rd (F.MB_STATUS_state c.val) = 3) :
    Does (.mbCmdRestart c) s (fun t => t.rd (F.MB_STATUS_recovering c.val) = 1) :=
  ⟨_, if_pos (by simp [on, off]), State.rd_wr_same _ _ _⟩

/-- Fields of buffers, one for each, written by a run over the buffers. -/
theorem State.rd_writeAll (s : State) (f : Nat → Fld) {n b : Nat} (v : Nat) (hb : b < n) (apart : ∀ j, j ≠ b → (f j).key ≠ (f b).key) :
    ((upTo n).foldl (fun s j => s.wr (f j) v) s).rd (f b) = v % 2 ^ (f b).width :=
  rd_foldl_of_mem s (mem_upTo.2 hb) (fun _ => State.rd_wr_same _ _ _) fun _ j ne => State.rd_wr_ne _ _ _ _ (apart j ne)

/-- No message is held any more. -/
def State.freeHeld (s : State) (ch : Nat) : State := (upTo 64).foldl (fun s b => s.wr (F.MB_BUF_STATUS_held ch b) 0) s

theorem State.freeHeld_held (s : State) (ch : Nat) {b : Nat} (hb : b < 64) : (s.freeHeld ch).rd (F.MB_BUF_STATUS_held ch b) = 0 := by
  refine (s.rd_writeAll (F.MB_BUF_STATUS_held ch) 0 hb fun j ne => ?_).trans (Nat.zero_mod _)
  simp only [Fld.key, F.MB_BUF_STATUS_held]
  omega

theorem State.freeHeld_rd (s : State) {ch : Nat} {f : Fld} (low : f.lo < 32) (before : f.off < 37144 + 4096 * ch) :
    (s.freeHeld ch).rd f = s.rd f := by
  refine rd_foldl s fun w b _ => State.rd_wr_ne _ _ _ _ ?_
  simp only [Fld.key, F.MB_BUF_STATUS_held]
  omega

/-- What a channel that has recovered shows, before its event. -/
def State.recovers (s : State) (ch : Nat) : State :=
  let u := ((((s.wr (F.MB_STATUS_state ch) 1).wr (F.MB_STATUS_recovering ch) 0).wr (F.MB_STATUS_tec ch) 0).wr (F.MB_STATUS_rec ch) 0).freeHeld ch
  u.setMillCh ch { u.millCh ch with hbHeld := false }

theorem State.recovers_shows (s : State) (ch : Nat) : ∀ e ∈ [(F.MB_STATUS_state ch, 1), (F.MB_STATUS_tec ch, 0), (F.MB_STATUS_rec ch, 0)],
    (s.recovers ch).rd e.1 = e.2 := by
  intro e he
  simp only [List.mem_cons, List.not_mem_nil, or_false] at he
  rw [State.recovers, State.setMillCh_rd]
  rcases he with rfl | rfl | rfl
  all_goals
    rw [State.freeHeld_rd _ (by simp only [F.MB_STATUS_state, F.MB_STATUS_tec, F.MB_STATUS_rec]; decide)
      (by simp only [F.MB_STATUS_state, F.MB_STATUS_tec, F.MB_STATUS_rec]; omega)]
    simp (disch := (simp only [Fld.key, F.MB_STATUS_state, F.MB_STATUS_recovering, F.MB_STATUS_tec, F.MB_STATUS_rec]; omega)) only
      [State.rd_wr_ne, State.rd_wr_same]
    rfl

theorem millRecovered_recovers (on : s.chanOn c.val = true) (off : s.rd (F.MB_STATUS_state c.val) = 3)
    (recovering : s.rd (F.MB_STATUS_recovering c.val) = 1) :
    Does (.millRecovered c) s (fun t => t.rd (F.MB_STATUS_state c.val) = 1 ∧ t.rd (F.MB_STATUS_tec c.val) = 0 ∧
      t.rd (F.MB_STATUS_rec c.val) = 0 ∧ MillRaised t c.val 2 ∧ ∀ b < 64, t.rd (F.MB_BUF_STATUS_held c.val b) = 0) := by
  have runs : exec (.millRecovered c) s = .next ((s.recovers c.val).millEvt c.val 2) := if_neg (by simp [on, off, recovering, State.on])
  refine ⟨_, runs, ?_⟩
  have hc := c.isLt
  generalize c.val = ch at hc ⊢
  have evt := (s.recovers ch).millEvt_but (fun _ => False) hc 2
  have shown : ∀ e ∈ [(F.MB_STATUS_state ch, 1), (F.MB_STATUS_tec ch, 0), (F.MB_STATUS_rec ch, 0)],
      ((s.recovers ch).millEvt ch 2).rd e.1 = e.2 := fun e he => by
    rw [evt.regs _ _ id, s.recovers_shows ch e he]
    revert e
    interval_cases ch <;> decide
  refine ⟨shown (F.MB_STATUS_state ch, 1) (by simp), shown (F.MB_STATUS_tec ch, 0) (by simp), shown (F.MB_STATUS_rec ch, 0) (by simp),
    State.millEvt_raised _ hc (by decide), fun b hb => ?_⟩
  have place : MillFld (F.MB_BUF_STATUS_held ch b) := by
    simp only [MillFld, Fld.In, F.MB_BUF_STATUS_held, Bank.range]
    omega
  rw [evt.regs _ place id, State.recovers, State.setMillCh_rd, State.freeHeld_held _ _ hb]

theorem mbCmdUnmute_unmutes (on : s.pd .hostsvc = true) : Does (.mbCmdUnmute c) s (fun t => (t.millCh c.val).mutedIds = [] ∧
    ∀ b < 64, t.rd (F.MB_BUF_STATUS_clash_muted c.val b) = 0) := by
  have runs : exec (.mbCmdUnmute c) s = _ := if_neg (by simp [on])
  refine ⟨_, runs, ?_, fun b hb => ?_⟩
  · generalize hu : s.setMillCh c.val _ = u
    have mill : ((upTo 64).foldl (fun s b => s.wr (F.MB_BUF_STATUS_clash_muted c.val b) 0) u).mill = u.mill :=
      List.foldlRecOn (upTo 64) _ (motive := fun w : State => w.mill = u.mill) (Eq.refl _) fun w hw b _ => hw
    rw [State.millCh_of_mill mill, ← hu, State.millCh_setMillCh]
  · refine (State.rd_writeAll _ (F.MB_BUF_STATUS_clash_muted c.val) 0 hb fun j ne => ?_).trans (Nat.zero_mod _)
    simp only [Fld.key, F.MB_BUF_STATUS_clash_muted]
    omega

theorem mbCmdClearCnt_clears (on : s.pd .hostsvc = true) : Does (.mbCmdClearCnt c) s (fun t => ∀ j < 6, t.rd (F.MB_CNT_count c.val j) = 0) := by
  refine ⟨_, if_neg (by simp [on]), fun j hj => ?_⟩
  refine (State.rd_writeAll s (F.MB_CNT_count c.val) 0 hj fun i ne => ?_).trans (Nat.zero_mod _)
  simp only [Fld.key, F.MB_CNT_count]
  omega

/-! The schedule (R379 to R382). -/

theorem millCycleStart_starts (on : s.chanOn c.val = true) (tt : s.act (F.MB_TT_CTRL_tt_en c.val) = 1)
    (role : s.act (F.MB_TT_CTRL_role c.val) = 1) : Does (.millCycleStart c) s (fun t =>
      t.rd (F.MB_TT_STATUS_cycle c.val) = s.cycleNow c.val % 64 ∧ (t.millCh c.val).arbOpen = false ∧
      ((t.millCh c.val).refPending = true ↔
        s.rd (F.MB_STATUS_muted c.val) ≠ 1 ∧ s.pastSecond c.val (s.worstFrame c.val false false 8) = false)) := by
  let ch := c.val
  let u := (s.wr (F.MB_TT_STATUS_cycle ch) (s.cycleNow ch)).wr (F.MB_TT_STATUS_ref_ok ch) 0
  let send := !u.on (F.MB_STATUS_muted ch) && !u.pastSecond ch (u.worstFrame ch false false 8)
  have runs : exec (.millCycleStart c) s =
      .next (u.setMillCh ch { u.millCh ch with refPending := send, arbOpen := false, refSeen := true }) :=
    if_neg (by simp [on, tt, role, State.aon])
  have muted : u.rd (F.MB_STATUS_muted ch) = s.rd (F.MB_STATUS_muted ch) := by
    simp (disch := (simp only [Fld.key, F.MB_TT_STATUS_cycle, F.MB_TT_STATUS_ref_ok, F.MB_STATUS_muted]; omega)) only [u, State.rd_wr_ne]
  have past : u.pastSecond ch (u.worstFrame ch false false 8) = s.pastSecond ch (s.worstFrame ch false false 8) := rfl
  refine ⟨_, runs, ?_, ?_, ?_⟩
  · rw [State.setMillCh_rd, State.rd_wr_ne _ _ _ _ (by simp only [Fld.key, F.MB_TT_STATUS_cycle, F.MB_TT_STATUS_ref_ok]; omega),
      State.rd_wr_same]
    rfl
  · rw [State.millCh_setMillCh]
  · rw [State.millCh_setMillCh]
    show send = true ↔ _
    simp only [send, State.on, muted, past, Bool.and_eq_true, Bool.not_eq_true', beq_eq_false_iff_ne, ne_eq]
    rfl

theorem millRefLost_ends (on : s.chanOn c.val = true) (tt : s.act (F.MB_TT_CTRL_tt_en c.val) = 1)
    (role : s.act (F.MB_TT_CTRL_role c.val) ≠ 1) : Does (.millRefLost c) s (fun t => (t.millCh c.val).refSeen = false ∧
      (t.millCh c.val).window = none ∧ (t.millCh c.val).arbOpen = false ∧ t.rd (F.MB_TT_STATUS_ref_ok c.val) = 0 ∧
      MillRaised t c.val 5) := by
  let ch := c.val
  let u := (s.setMillCh ch { s.millCh ch with refSeen := false, window := none, arbOpen := false }).wr (F.MB_TT_STATUS_ref_ok ch) 0
  have runs : exec (.millRefLost c) s = .next (u.millEvt ch 5) := if_neg (by simp [on, tt, role, State.aon])
  have chan : (u.millEvt ch 5).millCh ch = { s.millCh ch with refSeen := false, window := none, arbOpen := false } := by
    rw [State.millCh_of_mill (u.millEvt_mill ch 5)]
    exact State.millCh_setMillCh _ _ _
  have place : MillFld (F.MB_TT_STATUS_ref_ok ch) := by
    have := c.isLt
    simp only [MillFld, Fld.In, F.MB_TT_STATUS_ref_ok, Bank.range]
    omega
  refine ⟨_, runs, ?_, ?_, ?_, ?_, u.millEvt_raised c.isLt (by decide)⟩
  · rw [chan]
  · rw [chan]
  · rw [chan]
  · rw [(u.millEvt_but (fun _ => False) c.isLt 5).regs _ place id]
    exact State.rd_wr_same _ _ _

theorem millWindowStart_opens {b : Fin 64} (on : s.chanOn c.val = true) (tt : s.act (F.MB_TT_CTRL_tt_en c.val) = 1)
    (role : s.millRole c.val b.val = 4) (fits : s.pastSecond c.val (s.windowWorst c.val b.val) = false)
    (turn : s.rd (F.MB_TT_STATUS_cycle c.val) % 2 ^ s.act (F.MB_BUF_TT_rep c.val b.val) = s.act (F.MB_BUF_TT_off c.val b.val) ∨
      s.ttRuns c.val = false) : Does (.millWindowStart c b) s (fun t => (t.millBuf c.val b.val).windowOpen = true ∧
        (t.millBuf c.val b.val).sentInWindow = false ∧
        (t.millCh c.val).window = if s.ttRuns c.val then some b.val else none) := by
  have opens : (s.ttRuns c.val && !s.windowCycle c.val b.val) = false := by
    unfold State.windowCycle
    rcases turn with turn | turn <;> simp [turn]
  refine ⟨_, if_neg (by simp [on, tt, role, fits, opens, State.aon]), ?_, ?_, ?_⟩
  · rw [State.millBuf_setMillBuf]
  · rw [State.millBuf_setMillBuf]
  · rw [State.millCh_setMillBuf, State.millCh_setMillCh]

theorem millWindowEnd_ends {b : Fin 64} (on : s.pd .hostsvc = true) (isOpen : (s.millBuf c.val b.val).windowOpen = true) :
    Does (.millWindowEnd c b) s (fun t => (t.millBuf c.val b.val).windowOpen = false ∧ (t.millCh c.val).window = none ∧
      ((s.millBuf c.val b.val).sentInWindow = true → t.rd (F.MB_BUF_STATUS_missed c.val b.val) = 0) ∧
      ((s.millBuf c.val b.val).sentInWindow = false → t.rd (F.MB_BUF_STATUS_missed c.val b.val) = 1 ∧ MillCounted s t c.val 4 ∧
        MillRaised t c.val 4)) := by
  have hc := c.isLt
  have hb := b.isLt
  let u := s.setMillBuf c.val b.val { s.millBuf c.val b.val with windowOpen := false, sentInWindow := false }
  let v := u.setMillCh c.val { u.millCh c.val with window := none }
  let w := v.wr (F.MB_BUF_STATUS_missed c.val b.val) 1
  have runs : exec (.millWindowEnd c b) s = .next (if (s.millBuf c.val b.val).sentInWindow then v.wr (F.MB_BUF_STATUS_missed c.val b.val) 0
      else (w.inc (F.MB_CNT_count c.val 4)).millEvt c.val 4) := (if_neg (by simp [on, isOpen])).trans next_ite
  have buf : v.millBuf c.val b.val = { s.millBuf c.val b.val with windowOpen := false, sentInWindow := false } := by
    exact (u.millBuf_setMillCh (c := { u.millCh c.val with window := none }) (Eq.refl _) b.val).trans (s.millBuf_setMillBuf _ _ _)
  have evt := (w.inc (F.MB_CNT_count c.val 4)).millEvt_but (fun _ => False) hc 4
  have ended : ∀ t : State, t.mill = v.mill → (t.millBuf c.val b.val).windowOpen = false ∧ (t.millCh c.val).window = none := fun t mill => by
    rw [State.millBuf_of_mill mill, State.millCh_of_mill mill, buf]
    exact ⟨Eq.refl _, congrArg MillChan.window (State.millCh_setMillCh _ _ _)⟩
  have place : MillFld (F.MB_BUF_STATUS_missed c.val b.val) := by
    simp only [MillFld, Fld.In, F.MB_BUF_STATUS_missed, Bank.range]
    omega
  refine ⟨_, runs, ?_⟩
  by_cases sent : (s.millBuf c.val b.val).sentInWindow = true
  · rw [if_pos sent]
    obtain ⟨closed, window⟩ := ended (v.wr (F.MB_BUF_STATUS_missed c.val b.val) 0) (Eq.refl _)
    exact ⟨closed, window, fun _ => State.rd_wr_same _ _ _, fun none_ => absurd sent (by simp [none_])⟩
  · rw [if_neg sent]
    obtain ⟨closed, window⟩ := ended ((w.inc (F.MB_CNT_count c.val 4)).millEvt c.val 4) (State.millEvt_mill _ _ _)
    have before : MillBut (· = (F.MB_BUF_STATUS_missed c.val b.val).key) s w :=
      .wr ((s.setMillBuf_but _ _ _ _).trans (u.setMillCh_but _ _ _)) 1 (Eq.refl _) ⟨place.1.1, place.2⟩
    refine ⟨closed, window, fun is => absurd is sent, fun _ => ⟨?_, State.inc_counted hc (by decide) before evt ?_ id,
      State.millEvt_raised _ hc (by decide)⟩⟩
    · rw [evt.regs _ place id, State.inc_rd_ne _ (by simp only [Fld.key, F.MB_CNT_count, F.MB_BUF_STATUS_missed]; omega)]
      exact State.rd_wr_same _ _ _
    · simp only [Fld.key, F.MB_CNT_count, F.MB_BUF_STATUS_missed]
      omega

theorem arbitratingWindowStart_opens (runs : s.ttRuns c.val = true)
    (fits : s.pastSecond c.val ((s.act (F.MB_TT_ARB_arb_end c.val) - s.act (F.MB_TT_ARB_arb_start c.val)) * perUs) = false) :
    Does (.arbitratingWindowStart c) s (fun t => (t.millCh c.val).arbOpen = true) :=
  ⟨_, if_neg (by simp [runs, fits]), congrArg MillChan.arbOpen (State.millCh_setMillCh _ _ _)⟩

theorem arbitratingWindowEnd_closes (on : s.pd .hostsvc = true) :
    Does (.arbitratingWindowEnd c) s (fun t => (t.millCh c.val).arbOpen = false) :=
  ⟨_, if_neg (by simp [on]), congrArg MillChan.arbOpen (State.millCh_setMillCh _ _ _)⟩

end

/-! Messages that wait (R377, R378). -/

/-- A message enters its buffer: pending, the newest one, and counted where it replaces one. -/
theorem State.millEnter_enters {s : State} {ch b : Nat} {words : List Word36} (on : s.pd .hostsvc = true)
    (role : s.millRole ch b ∈ [2, 3, 4]) (ident : wordsIdent words = s.bufIdent ch b) (short : s.tooLong ch b words = false) :
    (s.millEnter ch b words).rd (F.MB_BUF_STATUS_pending ch b) = 1 ∧
      ((s.millEnter ch b words).millBuf ch b).msg.map (·.words) = some words ∧
      (s.millEnter ch b words).rd (F.MB_BUF_STATUS_replaced ch b) = (if s.rd (F.MB_BUF_STATUS_pending ch b) = 1 then
        min (s.rd (F.MB_BUF_STATUS_replaced ch b) + 1) 255 else s.rd (F.MB_BUF_STATUS_replaced ch b)) := by
  let c := s.millCh ch
  let u := s.setMillCh ch { c with serial := c.serial + 1 }
  let v := u.setMillBuf ch b { u.millBuf ch b with msg := some ⟨words, u.time.work, c.serial⟩ }
  let w := if s.on (F.MB_BUF_STATUS_pending ch b) then v.inc (F.MB_BUF_STATUS_replaced ch b) else v
  let x := if !s.on (F.MB_BUF_STATUS_pending ch b) && w.rd (F.MB_STATUS_state ch) == 3 then w.wr (F.MB_BUF_STATUS_held ch b) 1 else w
  have enters : s.millEnter ch b words =
      ((x.wr (F.MB_BUF_STATUS_pending ch b) 1).wr (F.MB_BUF_STATUS_full ch b) 1).wr (F.MB_BUF_STATUS_too_long ch b) 0 := by
    have known : 2 ≤ s.millRole ch b ∧ s.millRole ch b ≤ 4 := by
      simp only [List.mem_cons, List.not_mem_nil, or_false] at role
      omega
    exact (if_neg (by simp [on, ident, Nat.not_lt.2 known.1, Nat.not_lt.2 known.2])).trans (if_neg (by simp [short]))
  have mill : x.mill = v.mill := by
    simp only [x, w]
    split <;> split <;> rfl
  rw [enters]
  refine ⟨?_, ?_, ?_⟩
  · rw [State.rd_wr_ne _ _ _ _ (by simp only [Fld.key, F.MB_BUF_STATUS_too_long, F.MB_BUF_STATUS_pending]; omega),
      State.rd_wr_ne _ _ _ _ (by simp only [Fld.key, F.MB_BUF_STATUS_full, F.MB_BUF_STATUS_pending]; omega), State.rd_wr_same]
    rfl
  · rw [State.millBuf_of_mill (t := ((x.wr _ 1).wr _ 1).wr _ 0) mill, State.millBuf_setMillBuf]
    rfl
  · have held : x.rd (F.MB_BUF_STATUS_replaced ch b) = w.rd (F.MB_BUF_STATUS_replaced ch b) := by
      show (if _ then _ else _ : State).rd _ = _
      split
      · exact State.rd_wr_ne _ _ _ _ (by simp only [Fld.key, F.MB_BUF_STATUS_held, F.MB_BUF_STATUS_replaced]; omega)
      · rfl
    simp (disch := (simp only [Fld.key, F.MB_BUF_STATUS_too_long, F.MB_BUF_STATUS_full, F.MB_BUF_STATUS_pending,
      F.MB_BUF_STATUS_replaced]; omega)) only [State.rd_wr_ne]
    rw [held]
    by_cases was : s.rd (F.MB_BUF_STATUS_pending ch b) = 1
    · have counts : w = v.inc (F.MB_BUF_STATUS_replaced ch b) := if_pos (beq_iff_eq.2 was)
      rw [if_pos was, counts, State.inc, State.rd_add_same]
      rfl
    · have still : w = v := if_neg (by simpa [State.on] using was)
      rw [if_neg was, still]
      rfl

theorem millSendPending_enters {s : State} {c : Fin 2} {b : Fin 64} {b0 : Nat} {words : List Word36} (on : s.pd .hostsvc = true)
    (waits : s.image.waiting = [(b0, .mill c b words)]) (due : b0 ≤ s.turn.k) (role : s.millRole c.val b.val ∈ [2, 3, 4])
    (ident : wordsIdent words = s.bufIdent c.val b.val) (short : s.tooLong c.val b.val words = false) :
    Does (.millSendPending c b) s (fun t => t.image.waiting = [] ∧ t.rd (F.MB_BUF_STATUS_pending c.val b.val) = 1 ∧
      (t.millBuf c.val b.val).msg.map (·.words) = some words ∧
      t.rd (F.MB_BUF_STATUS_replaced c.val b.val) = (if s.rd (F.MB_BUF_STATUS_pending c.val b.val) = 1 then
        min (s.rd (F.MB_BUF_STATUS_replaced c.val b.val) + 1) 255 else s.rd (F.MB_BUF_STATUS_replaced c.val b.val)) ∧
      (s.host.millerUp = true → ∀ m ∈ t.host.outstanding, m.op = 0x80 → opByte m.cmd 24 = c.val →
        opByte m.cmd 25 = b.val → ∀ x, m.boundary = some x → s.turn.k < x)) := by
  let u : State := { s with image := { s.image with waiting := [] } }
  let v := u.barKey (2 ^ 21 + c.val * 64 + b.val) b0
  let w := v.millEnter c.val b.val words
  let mine := fun (m : MillerCmd) => m.op == 0x80 && opByte m.cmd 24 == c.val && opByte m.cmd 25 == b.val &&
    m.boundary.any (fun x => decide (x ≤ s.turn.k))
  have runs : exec (.millSendPending c b) s = .next (w.finish mine 0 0 (max 0 b0) 0) := by
    show execMillSendPending c b s = _
    unfold execMillSendPending
    simp [waits, due]
    rfl
  have regs : v.regs = s.regs := by
    show (u.barKey _ _).regs = _
    unfold State.barKey
    split
    · split <;> rfl
    · rfl
  have settings : v.hop.active = s.hop.active := (u.barKey_keeps _ _).parts .settings (by decide)
  have same : ∀ f, v.rd f = s.rd f := fun f => congrArg (RegMap.get · f) regs
  obtain ⟨pending, message, replaced⟩ := v.millEnter_enters (ch := c.val) (b := b.val) (words := words)
    (by rw [State.pd, same]; exact on) (by rw [State.millRole, State.act, settings]; exact role)
    (by rw [State.bufIdent, State.act, State.act, settings]; exact ident)
    (by rw [State.tooLong, State.millRole, State.aon, State.act, State.act, State.act, settings]; exact short)
  have answered := w.finish_keeps mine 0 0 (max 0 b0) 0
  have bufField : ∀ f ∈ [F.MB_BUF_STATUS_pending c.val b.val, F.MB_BUF_STATUS_replaced c.val b.val],
      (w.finish mine 0 0 (max 0 b0) 0).rd f = w.rd f := fun f hf => by
    refine (w.finish_in mine 0 0 (max 0 b0) 0).rd_eq (b := .mill) ?_ (by decide)
    have hc := c.isLt
    have hb := b.isLt
    simp only [List.mem_cons, List.not_mem_nil, or_false] at hf
    rcases hf with rfl | rfl
    · exact ⟨by simp only [F.MB_BUF_STATUS_pending]; decide, by simp only [F.MB_BUF_STATUS_pending, Bank.range]; omega,
        by simp only [F.MB_BUF_STATUS_pending, Bank.range]; omega⟩
    · exact ⟨by simp only [F.MB_BUF_STATUS_replaced]; decide, by simp only [F.MB_BUF_STATUS_replaced, Bank.range]; omega,
        by simp only [F.MB_BUF_STATUS_replaced, Bank.range]; omega⟩
  refine ⟨_, runs, ?_, ?_, ?_, ?_, fun up m owed op chan buffer x at_ => ?_⟩
  · rw [answered.parts .image (by decide), (v.millEnter_keeps _ _ _).parts .image (by decide), State.barKey_image]
  · rw [bufField _ (by simp)]
    exact pending
  · rw [State.millBuf_of_mill (answered.parts .mill (by decide))]
    exact message
  · rw [bufField _ (by simp), replaced, same, same]
  · have alive : w.host.millerUp = true := by
      rw [(v.millEnter_keeps _ _ _).parts .host (by decide), (u.barKey_keeps _ _).parts .host (by decide)]
      exact up
    rw [State.finish_outstanding alive] at owed
    have kept := (List.mem_filter.1 owed).2
    by_contra late
    simp [mine, op, chan, buffer, at_, Nat.not_lt.1 late] at kept

/-- Settles O51: every frame, error, window and message of the mill bus does what it says. -/
theorem millSendsErrorsAndSchedule : Obligations.MillSendsErrorsAndSchedule := by
  intro s c ch cn tec rec_
  refine ⟨fun src may low => ⟨?_, fun inData => millTxError_fails may low⟩, fun hears n => millRxError_counts hears n,
    fun on => ⟨fun off => ⟨mbCmdRestart_recovers on off, fun recovering => millRecovered_recovers on off recovering⟩,
      millDominantTimeout_raises on, fun tt => ⟨fun master => millCycleStart_starts on tt master,
        fun follower => millRefLost_ends on tt follower, fun b role fits cycle => millWindowStart_opens on tt role fits cycle⟩⟩,
    fun on => ⟨mbCmdUnmute_unmutes on, mbCmdClearCnt_clears on, arbitratingWindowEnd_closes on,
      fun b isOpen => millWindowEnd_ends on isOpen,
      fun b b0 words waits due role ident short => millSendPending_enters on waits due role ident short⟩,
    fun runs fits => arbitratingWindowStart_opens runs fits⟩
  obtain ⟨t, ran, frame, ended⟩ := millFrameSent_sends may low
  refine ⟨t, ran, frame.counted, frame.lowered, frame.state, frame.out, ?_⟩
  cases src <;> exact ended

end Sys2Proof.Machine

/-! PROOFS. The hopper: CHECK and COMMIT, from their start to the image in MRAM (R349 to R357). -/

namespace Sys2Proof.Machine

/-- From s to t the active copy, the staged copy and the programs are the same. -/
def SameSettings (s t : State) : Prop := t.hop.active = s.hop.active ∧ t.hop.staged = s.hop.staged ∧ t.progs = s.progs

theorem SameSettings.trans {s t u : State} (h : SameSettings s t) (g : SameSettings t u) : SameSettings s u :=
  ⟨g.1.trans h.1, g.2.1.trans h.2.1, g.2.2.trans h.2.2⟩

theorem SameSettings.of_keeps {A : List Part} {s t : State} (h : Keeps A s t) (apart : .settings ∉ A ∧ .staged ∉ A ∧ .progs ∉ A) :
    SameSettings s t := ⟨h.parts .settings apart.1, h.parts .staged apart.2.1, h.parts .progs apart.2.2⟩

/-! Tests start (R349, R351, R353). -/

/-- A command is held for the miller, and the hopper's state shown: nothing else of the module changes. -/
theorem State.heldShown (u : State) (c : HostCmd) (op : Nat) : ((u.holdCmd c op none none).hopState).hop = u.hop ∧
    ((u.holdCmd c op none none).hopState).progs = u.progs ∧
    ((u.holdCmd c op none none).hopState).host.outstanding = u.host.outstanding ++ [⟨c, op, none, none, false, false⟩] := by
  have shown := (u.holdCmd c op none none).hopState_keeps
  refine ⟨?_, ?_, ?_⟩
  · rw [shown.parts .hop (by decide), State.holdCmd_hop]
  · rw [shown.parts .progs (by decide), State.holdCmd_progs]
  · rw [shown.parts .host (by decide), State.holdCmd_outstanding]

/-- The staged copy is frozen for a test. -/
def State.frozen (s : State) (commit : Bool) : State :=
  { s with hop := { s.hop with testing := some ⟨commit, s.hop.staged, RegMap.get s.hop.staged F.HOPPER_PROG_ACT_act⟩ } }

theorem State.startTest_starts (s : State) (c : HostCmd) (commit : Bool) :
    SameSettings s (s.startTest c commit) ∧
      (s.startTest c commit).hop.testing = some ⟨commit, s.hop.staged, RegMap.get s.hop.staged F.HOPPER_PROG_ACT_act⟩ ∧
      (s.startTest c commit).host.outstanding =
        s.host.outstanding ++ [⟨c, if commit then 0x43 else 0x42, none, none, false, false⟩] := by
  have begun : s.startTest c commit = ((s.frozen commit).holdCmd c (if commit then 0x43 else 0x42) none none).hopState := rfl
  obtain ⟨hop, progs, owed⟩ := (s.frozen commit).heldShown c (if commit then 0x43 else 0x42)
  rw [begun, SameSettings, hop]
  exact ⟨⟨rfl, rfl, progs⟩, rfl, owed⟩

section
variable {s : State} {c : HostCmd}

theorem cmdCheck_starts (ready : Ready s c 0x42) (room : bufOk c 0 = true) : Does (.cmdCheck c) s (fun t => SameSettings s t ∧
    t.hop.testing = some ⟨false, s.hop.staged, RegMap.get s.hop.staged F.HOPPER_PROG_ACT_act⟩ ∧
    t.host.outstanding = s.host.outstanding ++ [⟨c, 0x42, none, none, false, false⟩]) := by
  refine ready.does (f := fun s => s.checkCmd c) (Eq.refl _) ?_
  have starts := (s.consume c.ring.val).startTest_starts c false
  rw [State.checkCmd, if_neg (by simp [room])]
  exact starts

theorem cmdCommit_starts (ready : Ready s c 0x43) (good : s.commitOperands c = 0) (free : s.hop.armed = none) :
    Does (.cmdCommit c) s (fun t => SameSettings s t ∧
      t.hop.testing = some ⟨true, s.hop.staged, RegMap.get s.hop.staged F.HOPPER_PROG_ACT_act⟩ ∧
      t.host.outstanding = s.host.outstanding ++ [⟨c, 0x43, none, none, false, false⟩]) := by
  refine ready.does (f := fun s => s.commitCmd c) (Eq.refl _) ?_
  have starts := (s.consume c.ring.val).startTest_starts c true
  have operands : (s.consume c.ring.val).commitOperands c = 0 := good
  have unarmed : (s.consume c.ring.val).hop.armed = none := free
  rw [State.commitCmd, operands, unarmed]
  exact starts

end

/-! What the tests show (R349, R358). -/

theorem State.showCheck_shows (s : State) (fs : List Failure) :
    (s.showCheck fs).rd F.HOPPER_CHECK_first = (lowestFailure fs).1 % 256 ∧
      (s.showCheck fs).rd F.HOPPER_CHECK_failures = min fs.length 65535 ∧
      (s.showCheck fs).rd F.HOPPER_ITEM_item = (lowestFailure fs).2 % 2 ^ 32 ∧ RegsIn [.hopper] s (s.showCheck fs) ∧
      OnlyRegs s (s.showCheck fs) := by
  unfold State.showCheck
  refine ⟨?_, ?_, State.rd_wr_same _ _ _, ?_, ((OnlyRegs.rfl.wr _ _).wr _ _).wr _ _⟩
  · rw [State.rd_wr_ne _ _ _ _ (by decide), State.rd_wr_ne _ _ _ _ (by decide), State.rd_wr_same]
    rfl
  · rw [State.rd_wr_ne _ _ _ _ (by decide), State.rd_wr_same]
    exact Nat.mod_eq_of_lt (Nat.lt_of_le_of_lt (Nat.min_le_right _ _) (by decide))
  · exact ((RegsIn.rfl.wr _ _ .hopper (by decide) (by decide) (by decide) (by decide)).wr _ _ .hopper (by decide) (by decide)
      (by decide) (by decide)).wr _ _ .hopper (by decide) (by decide) (by decide) (by decide)

theorem cmdCommit_beside {s : State} {c : HostCmd} (ready : Ready s c 0x43) (good : s.commitOperands c = 0) (armed : s.hop.armed ≠ none) :
    Does (.cmdCommit c) s (fun t => SameSettings s t ∧ t.hop.armed = s.hop.armed ∧
      t.rd F.HOPPER_CHECK_first = 8 ∧ t.rd F.HOPPER_STATUS_last_result = 2 ∧ Completed s t c 0x0A 8 0 0) := by
  refine ready.does (f := fun s => s.commitCmd c) (Eq.refl _) ?_
  let u := ((s.consume c.ring.val).showCheck [(8, 0)]).wr F.HOPPER_STATUS_last_result 2
  have runs : (s.consume c.ring.val).commitCmd c = u.complete c 0x0A 8 0 0 := by
    have operands : (s.consume c.ring.val).commitOperands c = 0 := good
    have held : (s.consume c.ring.val).hop.armed.isSome = true := Option.isSome_iff_ne_none.2 armed
    rw [State.commitCmd, operands]
    exact (if_pos held :)
  obtain ⟨first, -, -, regs, only⟩ := (s.consume c.ring.val).showCheck_shows [(8, 0)]
  have whole : u = { s.consume c.ring.val with regs := u.regs } := only.wr _ _
  have answered := u.complete_keeps c 0x0A 8 0 0
  have field : ∀ f ∈ [F.HOPPER_CHECK_first, F.HOPPER_STATUS_last_result], (u.complete c 0x0A 8 0 0).rd f = u.rd f := fun f hf =>
    (u.complete_in c 0x0A 8 0 0).rd_eq (b := .hopper) (by revert f; decide) (by decide)
  have hop : u.hop = s.hop := by rw [whole]; rfl
  have progs : u.progs = s.progs := by rw [whole]; rfl
  rw [runs]
  refine ⟨⟨?_, ?_, ?_⟩, ?_, ?_, ?_, ?_⟩
  · rw [answered.parts .hop (by decide), hop]
  · rw [answered.parts .hop (by decide), hop]
  · rw [answered.parts .progs (by decide), progs]
  · rw [answered.parts .hop (by decide), hop]
  · rw [field _ (by simp), State.rd_wr_ne _ _ _ _ (by decide), first]
    rfl
  · rw [field _ (by simp)]
    exact State.rd_wr_same _ F.HOPPER_STATUS_last_result 2
  · refine ready.completes (by rw [whole]) (A := [.hopper]) ?_ (by decide) (by decide) (by rw [hop]) 0x0A 8 0 0
    exact ((RegsIn.of_regs (Eq.refl _) : RegsIn [.hopper] s (s.consume c.ring.val)).trans regs).wr _ _ .hopper (by decide) (by decide)
      (by decide) (by decide)

end Sys2Proof.Machine

/-! PROOFS. The hopper: the tests end (R349, R351, R352). -/

namespace Sys2Proof.Machine

/-! A CHECK ends. -/

theorem State.moveBuf_owed {f : State → State} (s : State) (c : HostCmd) (kind len : Nat) (hf : ∀ y, SameOwed y (f y)) :
    SameOwed s (s.moveBuf c kind len f) := by
  let r := (pieces len).foldl (fun (x : State × Bool) p =>
    if x.2 then x.1.acAccess 3 kind 2 (c.desc.buf.toNat + p.1) p.2 else x) (s, true)
  have moved : SameOwed s r.1 := List.foldlRecOn (motive := fun x : State × Bool => SameOwed s x.1) _ _ SameOwed.rfl fun x hx p _ => by
    split
    · exact hx.trans (x.1.acAccess_owed ..)
    · exact hx
  unfold State.moveBuf
  exact .ite (moved.trans (r.1.complete_owed ..)) (.ite (moved.trans ((r.1.dmaError_owed ..).trans ((r.1.dmaError _ _).complete_owed ..)))
    (moved.trans (hf _)))

/-- The bytes of a report are sent. -/
def State.listed (s : State) (c : HostCmd) (b : Bytes) : State := if b = [] then s else s.emit (.host c.desc.buf.toNat b)

/-- The bytes of the failures that a CHECK's buffer holds. -/
def reportBytes (c : HostCmd) (fs : List Failure) : Bytes :=
  (fs.take (if c.desc.buf.toNat = 0 then 0 else c.desc.len.toNat / 8)).flatMap failureBytes

theorem State.listed_sends (s : State) (c : HostCmd) (b : Bytes) :
    SameOwed s (s.listed c b) ∧ RegsIn [.events, .viol] s (s.listed c b) := by
  unfold State.listed
  split
  · exact ⟨.rfl, .rfl⟩
  · exact ⟨Eq.refl _, .of_regs (Eq.refl _)⟩

/-- A CHECK's report goes to the host: no outstanding command and no register of the hopper changes. -/
theorem State.reportCheck_reports (s : State) (c : HostCmd) (fs : List Failure) :
    SameOwed s (s.reportCheck c fs) ∧ RegsIn [.events, .viol] s (s.reportCheck c fs) := by
  have answers (y : State) : SameOwed y (if fs.isEmpty then (y.listed c (reportBytes c fs)).complete c 0 0 0 0
        else (y.listed c (reportBytes c fs)).complete c 0x0A (lowestFailure fs).1 0 fs.length) ∧
      RegsIn [.events, .viol] y (if fs.isEmpty then (y.listed c (reportBytes c fs)).complete c 0 0 0 0
        else (y.listed c (reportBytes c fs)).complete c 0x0A (lowestFailure fs).1 0 fs.length) := by
    obtain ⟨owed, regs⟩ := y.listed_sends c (reportBytes c fs)
    split
    · exact ⟨owed.trans (State.complete_owed ..), regs.trans (State.complete_in _ _ _ _ _ _)⟩
    · exact ⟨owed.trans (State.complete_owed ..), regs.trans (State.complete_in _ _ _ _ _ _)⟩
  exact ⟨s.moveBuf_owed c 1 _ fun y => (answers y).1, s.moveBuf_in c 1 _ (by decide) fun y => (answers y).2⟩

/-- A test is over. -/
def State.untested (s : State) : State := { s with hop := { s.hop with testing := none } }

theorem State.hopState_rd (s : State) {f : Fld} (ne : F.HOPPER_STATUS_state.key ≠ f.key) : s.hopState.rd f = s.rd f :=
  State.rd_wr_ne _ _ _ _ ne

theorem State.forget_forgets (s : State) (p : MillerCmd → Bool) :
    (s.forget p).host.outstanding = s.host.outstanding.filter (fun m => !p m) ∧ RegsIn [.events] s (s.forget p) := by
  let u : State := { s with host := { s.host with outstanding := s.host.outstanding.filter (fun m => !p m) } }
  have regs : RegsIn [.events] s u := .of_regs (Eq.refl _)
  exact ⟨u.busyBits_owed, regs.trans u.busyBits_in⟩

/-- The outcome of a CHECK's tests is shown. -/
def State.checkShown (s : State) (fs : List Failure) : State := (s.untested.showCheck fs).hopState

theorem State.checkShown_shows (s : State) (fs : List Failure) : (s.checkShown fs).rd F.HOPPER_CHECK_first = (lowestFailure fs).1 % 256 ∧
    (s.checkShown fs).rd F.HOPPER_CHECK_failures = min fs.length 65535 ∧
    (s.checkShown fs).rd F.HOPPER_ITEM_item = (lowestFailure fs).2 % 2 ^ 32 ∧ Keeps [] s.untested (s.checkShown fs) := by
  obtain ⟨first, number, item, -, -⟩ := s.untested.showCheck_shows fs
  unfold State.checkShown
  rw [State.hopState_rd _ (by decide), State.hopState_rd _ (by decide), State.hopState_rd _ (by decide)]
  exact ⟨first, number, item, (s.untested.showCheck_keeps fs).next (State.hopState_keeps _) (by decide)⟩

/-- The commands that wait for a CHECK's outcome are told it. -/
def State.checkTold (s : State) (fs : List Failure) : State :=
  (s.host.outstanding.filter (fun m => m.op == 0x42 && !m.lost)).foldl (fun s m => s.reportCheck m.cmd fs) (s.forget (fun m => m.op == 0x42))

theorem State.checkTold_tells (s : State) (fs : List Failure) : Keeps [.host, .recorder] s (s.checkTold fs) ∧
    RegsIn [.events, .viol] s (s.checkTold fs) ∧
    (s.checkTold fs).host.outstanding = s.host.outstanding.filter (fun m => !(m.op == 0x42)) := by
  obtain ⟨owed, regs⟩ := s.forget_forgets (fun m => m.op == 0x42)
  unfold State.checkTold
  refine ⟨.foldl _ _ (Keeps.rfl.next (s.forget_keeps _) (by decide)) fun y m hy => hy.next (y.reportCheck_keeps m.cmd fs) (by decide), ?_, ?_⟩
  · exact List.foldlRecOn (motive := fun y => RegsIn [.events, .viol] s y) _ _ (regs.mono (by decide)) fun y hy m _ =>
      hy.trans (y.reportCheck_reports m.cmd fs).2
  · rw [← owed]
    exact SameOwed.foldl _ .rfl fun y m => (y.reportCheck_reports m.cmd fs).1

theorem checkDone_shows {s : State} {u : HopperTest} (tests : s.hop.testing = some u) (check : u.isCommit = false)
    (up : s.host.millerUp = true) :
    let fs := s.checkFailures u.snapshot
    Does .checkDone s (fun t => SameSettings s t ∧ t.hop.testing = none ∧ t.rd F.HOPPER_CHECK_first = (lowestFailure fs).1 % 256 ∧
      t.rd F.HOPPER_CHECK_failures = min fs.length 65535 ∧ t.rd F.HOPPER_ITEM_item = (lowestFailure fs).2 % 2 ^ 32 ∧
      ∀ m ∈ t.host.outstanding, m.op ≠ 0x42) := by
  intro fs
  have runs : exec .checkDone s = .next ((s.checkShown fs).checkTold fs) := by
    show execCheckDone s = _
    unfold execCheckDone
    simp only [tests, check, up]
    rfl
  obtain ⟨first, number, item, shown⟩ := s.checkShown_shows fs
  obtain ⟨told, regs, owed⟩ := (s.checkShown fs).checkTold_tells fs
  have field (f : Fld) (place : f.In .hopper) : ((s.checkShown fs).checkTold fs).rd f = (s.checkShown fs).rd f := regs.rd_eq place (by decide)
  have hop : ((s.checkShown fs).checkTold fs).hop = s.untested.hop := by
    rw [told.parts .hop (by decide), shown.parts .hop (by decide)]
  have progs : ((s.checkShown fs).checkTold fs).progs = s.progs :=
    Eq.trans (told.parts .progs (by decide)) (shown.parts .progs (by decide))
  refine ⟨_, runs, ⟨?_, ?_, progs⟩, ?_, (field _ (by decide)).trans first, (field _ (by decide)).trans number,
    (field _ (by decide)).trans item, fun m held => ?_⟩
  · rw [hop]
    rfl
  · rw [hop]
    rfl
  · rw [hop]
    rfl
  · rw [owed] at held
    simpa using (List.mem_filter.1 held).2

end Sys2Proof.Machine

/-! PROOFS. The hopper: a COMMIT is accepted, or it is over (R351, R352). -/

namespace Sys2Proof.Machine

/-! A COMMIT whose tests end. -/

/-- A COMMIT's tests are over with a result. -/
def State.testEnded (s : State) (result : Nat) : State := (s.untested.wr F.HOPPER_STATUS_last_result result).hopState

/-- A COMMIT that ends with its tests shows its result, and its commands are answered. -/
theorem State.testEnded_ends (s : State) {result : Nat} (small : result < 8) (p : MillerCmd → Bool) (status detail : Nat) :
    let t := (s.testEnded result).finish p status detail 0 0
    t.hop = s.untested.hop ∧ t.progs = s.progs ∧ t.rd F.HOPPER_STATUS_last_result = result := by
  intro t
  have told := (s.testEnded result).finish_keeps p status detail 0 0
  have shown := (s.untested.wr F.HOPPER_STATUS_last_result result).hopState_keeps
  refine ⟨?_, ?_, ?_⟩
  · rw [told.parts .hop (by decide), State.testEnded, shown.parts .hop (by decide)]
    rfl
  · rw [told.parts .progs (by decide), State.testEnded, shown.parts .progs (by decide)]
    rfl
  · rw [((s.testEnded result).finish_in p status detail 0 0).rd_eq (b := .hopper) (by decide) (by decide), State.testEnded,
      State.hopState_rd _ (by decide), State.rd_wr_same]
    exact Nat.mod_eq_of_lt small

/-! A COMMIT that passes. -/

theorem State.sendChanges_regs (s : State) (seq b digest : Nat) (l : List (List (Nat × Nat))) :
    (s.sendChanges seq b digest l).regs = s.regs := by
  induction l generalizing s with
  | nil => rfl
  | cons p l ih => exact ih _

theorem State.sendCommit_regs (s : State) (b digest : Nat) (changes : List (Nat × Nat)) :
    (s.sendCommit b digest changes).regs = s.regs := by
  unfold State.sendCommit
  simp only
  split
  · exact State.sendChanges_regs ..
  · rfl

/-- The commit that is armed. -/
def State.armImage (s : State) (t : HopperTest) (b : Nat) : CommitImage :=
  ⟨true, t.snapshot, t.act, changeList s.hop.active t.snapshot, b, stagedDigest (changeList s.hop.active t.snapshot),
    s.plyState != 2 || !s.partnerStandby⟩

/-- An armed commit's registers. -/
def State.armRegs (s : State) (t : HopperTest) (b : Nat) : State :=
  let u : State := { s with hop := { s.hop with testing := none, armed := some (s.armImage t b) } }
  let u := ((u.wr F.HOPPER_B_LO_b (b % 2 ^ 32)).wr F.HOPPER_B_HI_b (b >>> 32)).wr F.HOPPER_STAGED_SEAL_seal (s.armImage t b).digest
  if changesProgram s.hop.active t.snapshot then
    ((u.wr F.ONLINE_STATUS_state 1).wr F.ONLINE_TURN_LO_b (b % 2 ^ 32)).wr F.ONLINE_TURN_HI_b (b >>> 32)
  else u

theorem State.armRegs_shows (s : State) (t : HopperTest) (b : Nat) :
    (s.armRegs t b).hop = { s.hop with testing := none, armed := some (s.armImage t b) } ∧ (s.armRegs t b).progs = s.progs ∧
      (s.armRegs t b).rd F.HOPPER_B_LO_b = b % 2 ^ 32 ∧ (s.armRegs t b).rd F.HOPPER_B_HI_b = b / 2 ^ 32 % 2 ^ 32 := by
  let u : State := { s with hop := { s.hop with testing := none, armed := some (s.armImage t b) } }
  let v := ((u.wr F.HOPPER_B_LO_b (b % 2 ^ 32)).wr F.HOPPER_B_HI_b (b >>> 32)).wr F.HOPPER_STAGED_SEAL_seal (s.armImage t b).digest
  let w := ((v.wr F.ONLINE_STATUS_state 1).wr F.ONLINE_TURN_LO_b (b % 2 ^ 32)).wr F.ONLINE_TURN_HI_b (b >>> 32)
  have low : v.rd F.HOPPER_B_LO_b = b % 2 ^ 32 := by
    rw [State.rd_wr_ne _ _ _ _ (by decide), State.rd_wr_ne _ _ _ _ (by decide), State.rd_wr_same]
    exact Nat.mod_mod _ _
  have high : v.rd F.HOPPER_B_HI_b = b / 2 ^ 32 % 2 ^ 32 := by
    rw [State.rd_wr_ne _ _ _ _ (by decide), State.rd_wr_same, Nat.shiftRight_eq_div_pow]
    rfl
  have still : ∀ f ∈ [F.HOPPER_B_LO_b, F.HOPPER_B_HI_b], w.rd f = v.rd f := fun f hf => by
    rw [State.rd_wr_ne _ _ _ _ (by revert f; decide), State.rd_wr_ne _ _ _ _ (by revert f; decide),
      State.rd_wr_ne _ _ _ _ (by revert f; decide)]
  have named : s.armRegs t b = if changesProgram s.hop.active t.snapshot then w else v := rfl
  rw [named]
  split
  · exact ⟨rfl, rfl, (still _ (by simp)).trans low, (still _ (by simp)).trans high⟩
  · exact ⟨rfl, rfl, low, high⟩

/-- The commands of a COMMIT know its boundary. -/
def State.commitNamed (s : State) (b : Nat) : State :=
  { s with host := { s.host with outstanding := s.host.outstanding.map (fun m =>
    if m.op == 0x43 then { m with boundary := some b, order := some s.ply.nextSeq } else m) } }

theorem State.arm_arms (s : State) (t : HopperTest) (b : Nat) :
    (s.arm t b).hop = { s.hop with testing := none, armed := some (s.armImage t b) } ∧ (s.arm t b).progs = s.progs ∧
      (s.arm t b).rd F.HOPPER_B_LO_b = b % 2 ^ 32 ∧ (s.arm t b).rd F.HOPPER_B_HI_b = b / 2 ^ 32 % 2 ^ 32 := by
  let u := (s.armRegs t b).commitNamed b
  let v := if (s.armImage t b).acked then u else u.sendCommit b (s.armImage t b).digest (s.armImage t b).changes
  have named : s.arm t b = v.hopState := rfl
  have sent : Keeps [.ply] u v := .ite .rfl (u.sendCommit_keeps b _ _)
  have regs : v.regs = (s.armRegs t b).regs := by
    simp only [v]
    split
    · rfl
    · exact u.sendCommit_regs b _ _
  have still (f : Fld) (ne : F.HOPPER_STATUS_state.key ≠ f.key) : v.hopState.rd f = (s.armRegs t b).rd f :=
    (v.hopState_rd ne).trans (congrArg (RegMap.get · f) regs)
  obtain ⟨hop, progs, low, high⟩ := s.armRegs_shows t b
  rw [named]
  refine ⟨?_, ?_, (still _ (by decide)).trans low, (still _ (by decide)).trans high⟩
  · rw [v.hopState_keeps.parts .hop (by decide), sent.parts .hop (by decide)]
    exact hop
  · rw [v.hopState_keeps.parts .progs (by decide), sent.parts .progs (by decide)]
    exact progs

theorem commitAccepted_judges {s : State} {u : HopperTest} {m : MillerCmd} (tests : s.hop.testing = some u) (commit : u.isCommit = true)
    (up : s.host.millerUp = true) (free : s.hop.armed = none)
    (waits : s.host.outstanding.find? (fun m => m.op == 0x43 && m.boundary.isNone) = some m) (turn : opByte m.cmd 24 = 0) :
    let fs := s.checkFailures u.snapshot
    let b := opAt m.cmd 32 8
    Does .commitAccepted s (fun t => SameSettings s t ∧ t.hop.testing = none ∧
      (fs ≠ [] → t.hop.armed = none ∧ t.rd F.HOPPER_STATUS_last_result = 2) ∧
      (fs = [] → b < s.orderBoundary → t.hop.armed = none ∧ t.rd F.HOPPER_STATUS_last_result = 5) ∧
      (fs = [] → s.orderBoundary ≤ b → t.rd F.HOPPER_B_LO_b = b % 2 ^ 32 ∧ t.rd F.HOPPER_B_HI_b = b / 2 ^ 32 % 2 ^ 32 ∧
        let changes := changeList s.hop.active u.snapshot
        t.hop.armed = some ⟨true, u.snapshot, u.act, changes, b, stagedDigest changes, s.plyState != 2 || !s.partnerStandby⟩)) := by
  intro fs b
  let v := s.showCheck fs
  obtain ⟨-, -, -, regs, only⟩ := s.showCheck_shows fs
  have whole : v = { s with regs := v.regs } := only
  have hop : v.hop = s.hop := by rw [whole]
  have progs : v.progs = s.progs := by rw [whole]
  have turns : v.turn = s.turn := by rw [whole]
  have time : v.time = s.time := by rw [whole]
  have boundary : v.orderBoundary = s.orderBoundary := by
    simp only [State.orderBoundary, State.leadBoundary, State.phaseNs, State.boundaryU, State.turnNs, State.act, turns, time, hop]
  have named : v.commitBoundary m.cmd = b := if_pos turn
  let p := fun (m : MillerCmd) => m.op == 0x43
  have runs : exec .commitAccepted s = .next (if fs ≠ [] then (v.testEnded 2).finish p 0x0A (lowestFailure fs).1 0 0
      else if b < s.orderBoundary then (v.testEnded 5).finish p 0x0C 0 0 0 else v.arm u b) := by
    show execCommitAccepted s = _
    unfold execCommitAccepted
    simp only [tests, commit, up, waits]
    refine (if_neg (by decide)).trans ?_
    show (if !fs.isEmpty then ok ((v.testEnded 2).finish p 0x0A (lowestFailure fs).1 0 0)
      else if decide (v.commitBoundary m.cmd < v.orderBoundary) || (opByte m.cmd 24 == 1 && decide (wordInstant (opAt m.cmd 32 16) < v.time.work))
        then ok ((v.testEnded 5).finish p 0x0C 0 0 0) else ok (v.arm u (v.commitBoundary m.cmd))) = _
    rw [named, boundary, turn]
    by_cases none : fs = []
    · by_cases late : b < s.orderBoundary <;> simp [none, late, ok]
    · simp [none, ok]
  have over_ (result : Nat) (small : result < 8) (status detail : Nat) :
      let t := (v.testEnded result).finish p status detail 0 0
      SameSettings s t ∧ t.hop.testing = none ∧ t.hop.armed = none ∧ t.rd F.HOPPER_STATUS_last_result = result := by
    intro t
    obtain ⟨ended, kept, shown⟩ := v.testEnded_ends small p status detail
    have same : t.hop = { s.hop with testing := none } := by rw [ended, State.untested, hop]
    rw [SameSettings, same]
    exact ⟨⟨rfl, rfl, kept.trans progs⟩, rfl, free, shown⟩
  refine ⟨_, runs, ?_⟩
  by_cases bad : fs ≠ []
  · rw [if_pos bad]
    obtain ⟨settings, ended, unarmed, result⟩ := over_ 2 (by decide) 0x0A (lowestFailure fs).1
    exact ⟨settings, ended, fun _ => ⟨unarmed, result⟩, fun none => absurd none bad, fun none => absurd none bad⟩
  · rw [if_neg bad]
    by_cases late : b < s.orderBoundary
    · rw [if_pos late]
      obtain ⟨settings, ended, unarmed, result⟩ := over_ 5 (by decide) 0x0C 0
      exact ⟨settings, ended, fun some_ => absurd some_ bad, fun _ _ => ⟨unarmed, result⟩, fun _ due => absurd late (Nat.not_lt.2 due)⟩
    · rw [if_neg late]
      obtain ⟨armed, kept, low, high⟩ := v.arm_arms u b
      have image : v.armImage u b = ⟨true, u.snapshot, u.act, changeList s.hop.active u.snapshot, b,
          stagedDigest (changeList s.hop.active u.snapshot), s.plyState != 2 || !s.partnerStandby⟩ := by
        have state : v.plyState = s.plyState := regs.rd_eq (f := F.PLY_STATUS_state) (b := .ply) (by decide) (by decide)
        have partner : v.rd F.PLY_STATUS_partner_state = s.rd F.PLY_STATUS_partner_state := regs.rd_eq (b := .ply) (by decide) (by decide)
        rw [State.armImage, hop, state, State.partnerStandby, partner, State.partnerStandby]
      rw [SameSettings, armed, hop, image]
      exact ⟨⟨rfl, rfl, kept.trans progs⟩, rfl, fun some_ => absurd some_ bad, fun _ soon => absurd soon late,
        fun _ _ => ⟨low, high, rfl⟩⟩

end Sys2Proof.Machine

/-! PROOFS. The hopper: a commit at its boundary (R354 to R356). -/

namespace Sys2Proof.Machine

/-- A register that is not the hopper's. -/
def offHopper (o : Nat) : Prop := o < 0x1000 ∨ 0x2000 ≤ o

/-- From s to t no register of the hopper changes, and neither do the active copy, the ones before it and what is armed. -/
structure BesideHopper (s t : State) : Prop where
  regs : RegsBut offHopper s t
  active : t.hop.active = s.hop.active
  before : t.hop.before = s.hop.before
  armed : t.hop.armed = s.hop.armed

section
variable {s t u : State}

theorem BesideHopper.rfl : BesideHopper s s := ⟨.rfl, Eq.refl _, Eq.refl _, Eq.refl _⟩

theorem BesideHopper.trans (h : BesideHopper s t) (g : BesideHopper t u) : BesideHopper s u :=
  ⟨h.regs.trans g.regs, g.active.trans h.active, g.before.trans h.before, g.armed.trans h.armed⟩

theorem BesideHopper.ite {c : Prop} [Decidable c] (h : BesideHopper s t) (g : BesideHopper s u) :
    BesideHopper s (if c then t else u) := by
  split <;> assumption

theorem BesideHopper.foldl {α : Type} {f : State → α → State} {l : List α} (h : BesideHopper s t)
    (step : ∀ u, ∀ a ∈ l, BesideHopper u (f u a)) : BesideHopper s (l.foldl f t) :=
  List.foldlRecOn l f h fun _ hu a ha => hu.trans (step _ a ha)

theorem BesideHopper.of_keeps {A : List Part} (h : Keeps A s t) (apart : .hop ∉ A) (regs : RegsBut offHopper s t) : BesideHopper s t := by
  have hop := h.parts .hop apart
  exact ⟨regs, congrArg HopperSt.active hop, congrArg HopperSt.before hop, congrArg HopperSt.armed hop⟩

/-- A change of registers of other banks. -/
theorem RegsIn.offHopper {B : List Bank} (h : RegsIn B s t) (apart : .hopper ∉ B) : RegsBut offHopper s t := fun f low inside => by
  simp only [Sys2Proof.Machine.offHopper, not_or, Nat.not_lt, Nat.not_le] at inside
  exact h.rd_eq (b := .hopper) ⟨low, inside.1, inside.2⟩ apart

theorem BesideHopper.within {A : List Part} {B : List Bank} (h : Keeps A s t) (regs : RegsIn B s t) (apart : .hop ∉ A ∧ .hopper ∉ B) :
    BesideHopper s t := .of_keeps h apart.1 (regs.offHopper apart.2)

theorem BesideHopper.wr (h : BesideHopper s t) (f : Fld) (v : Nat) (place : f.lo < 32 ∧ (f.off < 0x1000 ∨ 0x2000 ≤ f.off)) :
    BesideHopper s (t.wr f v) := ⟨h.regs.wr f v place.1 place.2, h.active, h.before, h.armed⟩

end

/-! What a commit does to the module's units leaves the hopper alone. -/

theorem State.retime_beside (s : State) (b : Nat) (old new : RegMap) : BesideHopper s (s.retime b old new) := by
  refine .of_keeps (s.retime_keeps b old new) (by decide) ?_
  unfold State.retime
  refine RegsBut.trans ?_ ((State.originRegs_in _).offHopper (by decide))
  exact .same .rfl (Eq.refl _)

theorem State.swapProg_beside (s : State) {p : Nat} (hp : p < 16) : BesideHopper s (s.swapProg p) := by
  refine .of_keeps (s.swapProg_keeps p) (by decide) ?_
  have shown (t : State) : RegsBut offHopper t (t.progRegs p) := by
    unfold State.progRegs
    split
    · exact .rfl
    · refine RegsBut.wr (RegsBut.wr (RegsBut.wr (RegsBut.wr (RegsBut.wr (RegsBut.wr .rfl _ _ ?_ ?_) _ _ ?_ ?_) _ _ ?_ ?_) _ _ ?_ ?_) _ _ ?_ ?_) _ _ ?_ ?_ <;>
        simp only [offHopper, F.PROG_STATUS_active, F.PROG_STATUS_strands, F.PROG_STATUS_trap_action, F.PROG_ID_LO_ident,
          F.PROG_ID_HI_ident, F.PROG_SIZE_code_words] <;> omega
  unfold State.swapProg
  split
  · exact .rfl
  · refine RegsBut.wr ((RegsBut.same .rfl (Eq.refl _)).trans (shown _)) _ _ ?_ ?_ <;>
      simp only [offHopper, F.PROG_STATUS_staged] <;> omega

theorem State.commitTask_beside (s : State) (b : Nat) (old : RegMap) (oldP : SMap Bytes) (t : Nat) :
    BesideHopper s (s.commitTask b old oldP t) := by
  refine .of_keeps (s.commitTask_keeps b old oldP t) (by decide) ?_
  have written (x : TaskSt) : RegsBut offHopper s (s.setTask t x) := .same .rfl (Eq.refl _)
  have started (y : State) (k : Nat) : RegsBut offHopper y (y.startTask t k) := (State.startTask_in _ _ _).offHopper (by decide)
  have noted (y : State) : RegsBut offHopper y ((y.wr F.ONLINE_PENDING_pending
      (setBit (y.rd F.ONLINE_PENDING_pending) t true)).wr F.ONLINE_STATUS_changed (setBit ((y.wr F.ONLINE_PENDING_pending
      (setBit (y.rd F.ONLINE_PENDING_pending) t true)).rd F.ONLINE_STATUS_changed) t true)) :=
    (RegsBut.rfl.wr _ _ (by decide) (by unfold offHopper; decide)).wr _ _ (by decide) (by unfold offHopper; decide)
  unfold State.commitTask
  refine .ite ?_ (.ite ?_ (.ite ?_ .rfl))
  · exact .ite (((written _).trans (noted _)).trans (started _ _)) ((written _).trans (noted _))
  · exact .ite ((RegsBut.ite (written _) .rfl).trans (started _ _)) (.ite (written _) .rfl)
  · exact .ite ((written _).trans (started _ _)) (written _)

theorem State.changeWriters_beside (s : State) (b : Nat) (old : RegMap) (oldP : SMap Bytes) :
    BesideHopper s (s.changeWriters b old oldP) :=
  .of_keeps (s.changeWriters_keeps b old oldP) (by decide) (.same .rfl (Eq.refl _))

theorem State.commitLoop_beside (s : State) (b : Nat) (old : RegMap) (l : Nat) : BesideHopper s (s.commitLoop b old l) := by
  refine .of_keeps (s.commitLoop_keeps b old l) (by decide) ?_
  unfold State.commitLoop
  exact .ite .rfl (.ite (.same .rfl (Eq.refl _)) (.ite (.same .rfl (Eq.refl _)) .rfl))

theorem State.laneDown_regs (s : State) {p : Nat} (hp : p < 16) (level : Nat) : RegsBut offHopper s (s.laneDown p level) := by
  have lane : RegsBut offHopper s (s.wr (F.SK_STATUS_link p) level) :=
    RegsBut.rfl.wr _ _ (by simp only [F.SK_STATUS_link]; omega) (by simp only [offHopper, F.SK_STATUS_link]; omega)
  unfold State.laneDown
  exact .ite (lane.trans ((State.skEvt_in _ _ _ hp).offHopper (by decide))) lane

theorem State.chainReg_regs (s : State) (p : Nat) : RegsBut offHopper s (s.chainReg p) := by
  have chain (v : Nat) : RegsBut offHopper s (s.wr (F.SK_STATUS_chain p) v) :=
    RegsBut.rfl.wr _ _ (by simp only [F.SK_STATUS_chain]; omega) (by simp only [offHopper, F.SK_STATUS_chain]; omega)
  unfold State.chainReg
  exact .ite (chain 0) (.ite (chain 1) .rfl)

theorem State.commitStations_beside (s : State) (old : RegMap) : BesideHopper s (s.commitStations old) := by
  refine .of_keeps (s.commitStations_keeps old) (by decide) ?_
  have station (y : State) (n v : Nat) : RegsBut offHopper y (y.setStn n v none) := by
    unfold State.setStn
    exact RegsBut.rfl.wr _ _ (by simp only [F.SK_STN_STATE_state]; omega) (by simp only [offHopper, F.SK_STN_STATE_state]; omega)
  have link (y : State) (p : Nat) : RegsBut offHopper y (y.wr (F.SK_STATUS_link p) 1) :=
    RegsBut.rfl.wr _ _ (by simp only [F.SK_STATUS_link]; omega) (by simp only [offHopper, F.SK_STATUS_link]; omega)
  unfold State.commitStations
  refine .foldl _ _ (.foldl _ _ .rfl fun y p hp hy => ?_) fun y n _ hy => ?_
  · have hp := mem_upTo.1 hp
    unfold State.commitPort
    exact hy.trans ((RegsBut.ite (y.laneDown_regs hp 0) (.ite (link y p) .rfl)).trans (State.chainReg_regs _ p))
  · unfold State.commitStation
    exact hy.trans (.ite (station y n 0) (.ite (station y n 1) (.ite (station y n 1) .rfl)))

theorem State.commitChannel_beside (s : State) (old : RegMap) (ch : Nat) : BesideHopper s (s.commitChannel old ch) := by
  refine .of_keeps (s.commitChannel_keeps old ch) (by decide) ?_
  unfold State.commitChannel
  refine .ite .rfl (RegsBut.wr (RegsBut.wr (RegsBut.wr (RegsBut.wr .rfl _ _ ?_ ?_) _ _ ?_ ?_) _ _ ?_ ?_) _ _ ?_ ?_) <;>
    simp only [offHopper, F.MB_STATUS_state, F.MB_STATUS_recovering, F.MB_STATUS_rec, F.MB_STATUS_tec] <;> omega

theorem State.commitLoss_beside (s : State) : BesideHopper s s.commitLoss := by
  refine .of_keeps s.commitLoss_keeps (by decide) ?_
  unfold State.commitLoss
  exact RegsBut.trans (RegsBut.same (t := s) .rfl (Eq.refl _)) ((State.lossRows_in _).offHopper (by decide))

/-- The rows of inputs that a commit enables or disables. -/
def State.rowsSet (s : State) (old : RegMap) : State :=
  (upTo 8).foldl (fun s i =>
    let was := RegMap.get old (F.BRK_IN_CFG_enable i) == 1
    let on := s.aon (F.BRK_IN_CFG_enable i)
    if on == was then s else s.setRow i on) s

/-- Raw rows that latch are latched. -/
def State.rowsLatched (s : State) : State :=
  { s with brake := { s.brake with
    latched := ((bitsSet 26 (s.rd F.BRK_SRC_RAW_raw)).filter s.rowLatches).foldl (fun a r => setBit a r true) s.brake.latched } }

theorem State.commitBrakes_beside (s : State) (old : RegMap) : BesideHopper s (s.commitBrakes old) := by
  refine .of_keeps (s.commitBrakes_keeps old) (by decide) ?_
  have rows : RegsBut offHopper s (s.rowsSet old) := by
    unfold State.rowsSet
    refine .foldl _ _ .rfl fun y i hi hy => ?_
    have hi := mem_upTo.1 hi
    exact .ite hy (hy.trans ((State.setRow_in y i _ (by omega)).offHopper (by decide)))
  have latched (y : State) : RegsBut offHopper y y.rowsLatched := .same .rfl (Eq.refl _)
  unfold State.commitBrakes
  rw [← State.rowsSet]
  exact (rows.trans (latched _)).trans ((State.evalMatrix_in _).offHopper (by decide))

theorem State.settingRegs_beside (s : State) : BesideHopper s s.settingRegs := by
  refine .of_keeps s.settingRegs_keeps (by decide) ?_
  unfold State.settingRegs State.budgetRegs
  refine RegsBut.foldl _ _ (RegsBut.wr (RegsBut.wr (RegsBut.foldl _ _ .rfl fun y t ht hy => hy.wr _ _ ?_ ?_) _ _ ?_ ?_) _ _ ?_ ?_)
    fun y p hp hy => (hy.wr _ _ ?_ ?_).wr _ _ ?_ ?_ <;>
    simp only [offHopper, F.TASK_WCET_wcet_ns, F.RETAIN_STATUS_bytes, F.RING_LOAD_own, F.SK_D_IN_ps, F.SK_D_OUT_ps] <;> omega

/-- One line of the ring goes down. -/
def State.lineDown (s : State) (f : Fld) (i : Nat) : State := if s.rd f == 2 then (s.wr f 0).ringEvt i else s.wr f 0

theorem State.lineDown_regs (s : State) {f : Fld} (i : Nat) (place : f.lo < 32 ∧ (f.off < 0x1000 ∨ 0x2000 ≤ f.off)) :
    RegsBut offHopper s (s.lineDown f i) := by
  have down : RegsBut offHopper s (s.wr f 0) := RegsBut.rfl.wr f 0 place.1 place.2
  unfold State.lineDown
  exact .ite (down.trans ((State.ringEvt_in _ _).offHopper (by decide))) down

theorem State.checkBypass_beside (s : State) : BesideHopper s s.checkBypass := by
  refine .of_keeps s.checkBypass_keeps (by decide) ?_
  let lines := ((s.wr F.RING_STATUS_bypass 1).lineDown F.RING_STATUS_link_e 0).lineDown F.RING_STATUS_link_w 1
  have down : RegsBut offHopper s lines :=
    ((RegsBut.rfl.wr F.RING_STATUS_bypass 1 (by decide) (by unfold offHopper; decide)).trans (State.lineDown_regs _ 0 (by decide))).trans
      (State.lineDown_regs _ 1 (by decide))
  have closed : RegsBut offHopper s s.closeBypass := by
    unfold State.closeBypass
    refine .ite .rfl (RegsBut.trans (RegsBut.trans ?_ ((State.ringEvt_in _ 10).offHopper (by decide)))
      ((State.setCal_in _ 0).offHopper (by decide)))
    exact .same (t := lines) down (Eq.refl _)
  unfold State.checkBypass
  exact .ite closed .rfl

theorem State.switchDomain_beside (s : State) : BesideHopper s s.switchDomain := .within s.switchDomain_keeps s.switchDomain_in (by decide)

theorem State.autoSwitch_beside (s : State) : BesideHopper s s.autoSwitch := .within s.autoSwitch_keeps s.autoSwitch_in (by decide)

theorem State.rebuildPayloads_beside (s : State) : BesideHopper s s.rebuildPayloads :=
  .within s.rebuildPayloads_keeps s.rebuildPayloads_in (by decide)

/-! The commit itself. -/

/-- The turn starts anew at a commit's boundary, where its settings change it. -/
def State.retimed (s : State) (a : CommitImage) : State :=
  if retimes s.hop.active (RegMap.set a.image F.HOPPER_PROG_ACT_act 0) then
    s.retime a.boundary s.hop.active (RegMap.set a.image F.HOPPER_PROG_ACT_act 0)
  else s

/-- The committed image is the active copy. -/
def State.imageTaken (s : State) (a : CommitImage) (old : RegMap) : State :=
  let new := RegMap.set a.image F.HOPPER_PROG_ACT_act 0
  { s with hop := { s.hop with
    active := new, staged := stagedAfter s.hop.staged old new a.changes, before := s.hop.before ++ [(a.boundary, old)], armed := none } }

/-- The program slots of a commit are swapped. -/
def State.progsSwapped (s : State) (a : CommitImage) : State := (progActs a.image).foldl State.swapProg s

/-- A program commit names its slots. -/
def State.slotsNamed (s : State) (a : CommitImage) (old : RegMap) : State :=
  if changesProgram old a.image then { s with hop := { s.hop with onlineSlots := programSlots old a.image } } else s

/-- A program commit's changes are new. -/
def State.changesCleared (s : State) (a : CommitImage) (old : RegMap) : State :=
  if changesProgram old a.image then s.wr F.ONLINE_STATUS_changed 0 else s

/-- The tasks follow the committed settings and programs. -/
def State.tasksFollow (s : State) (a : CommitImage) (old : RegMap) (oldP : SMap Bytes) : State :=
  (upTo 16).foldl (fun s t => s.commitTask a.boundary old oldP t) s

/-- A program commit is shown. -/
def State.onlineShown (s : State) (a : CommitImage) (old : RegMap) : State :=
  if changesProgram old a.image then
    (((s.wr F.ONLINE_STATUS_state (if s.rd F.ONLINE_PENDING_pending = 0 then 0 else 2)).wr
      F.ONLINE_STATUS_last_abandoned 0).wr F.ONLINE_STATUS_reason 0)
  else s

/-- The program that a commit changes comes into force. -/
def State.programsTaken (s : State) (a : CommitImage) (old : RegMap) (oldP : SMap Bytes) : State :=
  ((((s.progsSwapped a).slotsNamed a old).changesCleared a old).tasksFollow a old oldP).onlineShown a old

/-- The loops follow the committed settings. -/
def State.loopsFollow (s : State) (b : Nat) (old : RegMap) : State := s.enabledLoops.foldl (fun s l => s.commitLoop b old l) s

/-- The followed domain follows its setting. -/
def State.domainFollows (s : State) (old new : RegMap) : State :=
  if s.time.followB == s.aon F.TIME_CTRL_sel || !differIn old new (fun o => o == F.TIME_CTRL_sel.off) ||
    RegMap.get old F.TIME_CTRL_sel == RegMap.get new F.TIME_CTRL_sel then s
  else s.switchDomain

/-- The skein, the mill bus and the brakes follow the committed settings. -/
def State.linesFollow (s : State) (old : RegMap) : State :=
  (((s.commitStations old).commitChannel old 0).commitChannel old 1).rebuildPayloads.commitLoss.commitBrakes old

/-- The other units follow the committed settings. -/
def State.unitsFollow (s : State) (a : CommitImage) (old : RegMap) (oldP : SMap Bytes) : State :=
  (((((s.changeWriters a.boundary old oldP).loopsFollow a.boundary old).linesFollow old).settingRegs.checkBypass).domainFollows old
    (RegMap.set a.image F.HOPPER_PROG_ACT_act 0)).autoSwitch

/-- A commit is counted and shown, and its image is to be written. -/
def State.commitShown (s : State) : State :=
  let s := (s.inc F.HOPPER_COMMITS_count).wr F.HOPPER_STATUS_last_result 1
  let s := s.wr F.HOPPER_ACTIVE_SEAL_seal (committedSeal s.hop.active s.progs.active)
  let s : State := { s with hop := { s.hop with writing := true } }
  s.restage.hopState

theorem State.programsTaken_beside (s : State) (a : CommitImage) (old : RegMap) (oldP : SMap Bytes) :
    BesideHopper s (s.programsTaken a old oldP) := by
  have swapped (y : State) : BesideHopper y (y.progsSwapped a) := by
    unfold State.progsSwapped
    exact .foldl .rfl fun z p hp => z.swapProg_beside (mem_upTo.1 (List.mem_filter.1 hp).1)
  have slots (y : State) : BesideHopper y (y.slotsNamed a old) :=
    .ite ⟨.same .rfl (Eq.refl _), Eq.refl _, Eq.refl _, Eq.refl _⟩ .rfl
  have cleared (y : State) : BesideHopper y (y.changesCleared a old) := .ite (BesideHopper.rfl.wr _ _ (by decide)) .rfl
  have tasks (y : State) : BesideHopper y (y.tasksFollow a old oldP) := by
    unfold State.tasksFollow
    exact .foldl .rfl fun z t _ => z.commitTask_beside a.boundary old oldP t
  have shown (y : State) : BesideHopper y (y.onlineShown a old) :=
    .ite (((BesideHopper.rfl.wr _ _ (by decide)).wr _ _ (by decide)).wr _ _ (by decide)) .rfl
  exact (swapped _).trans ((slots _).trans ((cleared _).trans ((tasks _).trans (shown _))))

theorem State.unitsFollow_beside (s : State) (a : CommitImage) (old : RegMap) (oldP : SMap Bytes) :
    BesideHopper s (s.unitsFollow a old oldP) := by
  have loops (y : State) : BesideHopper y (y.loopsFollow a.boundary old) := by
    unfold State.loopsFollow
    exact .foldl .rfl fun z l _ => z.commitLoop_beside a.boundary old l
  have lines (y : State) : BesideHopper y (y.linesFollow old) :=
    (y.commitStations_beside old).trans ((State.commitChannel_beside _ old 0).trans ((State.commitChannel_beside _ old 1).trans
      ((State.rebuildPayloads_beside _).trans ((State.commitLoss_beside _).trans (State.commitBrakes_beside _ old)))))
  have domain (y : State) (new : RegMap) : BesideHopper y (y.domainFollows old new) := .ite .rfl y.switchDomain_beside
  exact (s.changeWriters_beside _ old oldP).trans ((loops _).trans ((lines _).trans ((State.settingRegs_beside _).trans
    ((State.checkBypass_beside _).trans ((domain _ _).trans (State.autoSwitch_beside _))))))

/-- A commit is its image made active, the units that follow it, and what is shown of it. -/
theorem State.applyCommit_eq (s : State) (a : CommitImage) : s.applyCommit a =
    ((((s.retimed a).imageTaken a s.hop.active).programsTaken a s.hop.active s.progs.active).unitsFollow a s.hop.active s.progs.active).commitShown := by
  unfold State.applyCommit
  extract_lets b old oldP new program s1 held s2 s3 named s4 s5 s6 s7 s8 s9 s10 s11 s12 s13 s14 s15 s16 s17 shown s18
  have e1 : s1 = s.retimed a := rfl
  clear_value s1
  have e2 : s2 = s1.imageTaken a old := rfl
  clear_value s2
  have e3 : s3 = s2.progsSwapped a := rfl
  clear_value s3
  have e4 : s4 = s3.slotsNamed a old := rfl
  clear_value s4
  have e5 : s5 = s4.changesCleared a old := rfl
  clear_value s5
  have e6 : s6 = s5.tasksFollow a old oldP := rfl
  clear_value s6
  have e7 : s7 = s6.onlineShown a old := rfl
  clear_value s7
  have e8 : s8 = s7.changeWriters a.boundary old oldP := rfl
  clear_value s8
  have e9 : s9 = s8.loopsFollow a.boundary old := rfl
  clear_value s9
  have e12 : s12 = s9.linesFollow old := rfl
  clear_value s12
  have e13 : s13 = s12.settingRegs.checkBypass := rfl
  clear_value s13
  have e14 : s14 = s13.domainFollows old new := rfl
  clear_value s14
  have e15 : s15 = s14.autoSwitch := rfl
  clear_value s15
  have e18 : s18.restage.hopState = s15.commitShown := rfl
  rw [e18, e15, e14, e13, e12, e9, e8, e7, e6, e5, e4, e3, e2, e1]
  rfl

end Sys2Proof.Machine

/-! PROOFS. The hopper: what a commit's boundary and its image's writing show (R354 to R356). -/

namespace Sys2Proof.Machine

/-- The committed image is to be written. -/
def State.toWrite (s : State) : State := { s with hop := { s.hop with writing := true } }

theorem State.toWrite_rd (s : State) (f : Fld) : s.toWrite.rd f = s.rd f := rfl

/-- A commit is counted, and its result and its seal are shown. -/
def State.commitCounted (s : State) (sealed : Nat) : State :=
  ((s.inc F.HOPPER_COMMITS_count).wr F.HOPPER_STATUS_last_result 1).wr F.HOPPER_ACTIVE_SEAL_seal sealed

theorem State.commitCounted_shows (s : State) (sealed : Nat) : (s.commitCounted sealed).hop = s.hop ∧
    (s.commitCounted sealed).rd F.HOPPER_STATUS_last_result = 1 ∧
    (s.commitCounted sealed).rd F.HOPPER_COMMITS_count = min (s.rd F.HOPPER_COMMITS_count + 1) (2 ^ 32 - 1) := by
  unfold State.commitCounted
  refine ⟨rfl, ?_, ?_⟩
  · rw [State.rd_wr_ne _ _ _ _ (by decide), State.rd_wr_same]
    rfl
  · rw [State.rd_wr_ne _ _ _ _ (by decide), State.rd_wr_ne _ _ _ _ (by decide), State.inc, State.rd_add_same]
    rfl

theorem State.commitShown_shows (s : State) : s.commitShown.hop = { s.hop with writing := true } ∧
    s.commitShown.rd F.HOPPER_STATUS_last_result = 1 ∧
    s.commitShown.rd F.HOPPER_COMMITS_count = min (s.rd F.HOPPER_COMMITS_count + 1) (2 ^ 32 - 1) := by
  have named : s.commitShown = (s.commitCounted (committedSeal s.hop.active s.progs.active)).toWrite.restage.hopState := rfl
  generalize committedSeal s.hop.active s.progs.active = sealed at named
  obtain ⟨hop, result, count⟩ := s.commitCounted_shows sealed
  have field : ∀ f ∈ [F.HOPPER_STATUS_last_result, F.HOPPER_COMMITS_count],
      (s.commitCounted sealed).toWrite.restage.hopState.rd f = (s.commitCounted sealed).rd f := fun f hf => by
    rw [State.hopState_rd _ (by revert f; decide), State.restage, State.wrb, State.rd_wr_ne _ _ _ _ (by revert f; decide),
      State.rd_wr_ne _ _ _ _ (by revert f; decide), State.toWrite_rd]
  rw [named, field _ (by simp), field _ (by simp), (State.hopState_keeps _).parts .hop (by decide),
    (State.restage_keeps _).parts .hop (by decide), State.toWrite, hop]
  exact ⟨rfl, result, count⟩

/-- A commit's boundary: the new active copy, and what is shown of it. -/
theorem State.applyCommit_applies (s : State) (a : CommitImage) :
    (s.applyCommit a).hop.armed = none ∧ (s.applyCommit a).hop.active = RegMap.set a.image F.HOPPER_PROG_ACT_act 0 ∧
      (s.applyCommit a).hop.before = s.hop.before ++ [(a.boundary, s.hop.active)] ∧ (s.applyCommit a).hop.writing = true ∧
      (s.applyCommit a).rd F.HOPPER_STATUS_last_result = 1 ∧
      (s.applyCommit a).rd F.HOPPER_COMMITS_count = min (s.rd F.HOPPER_COMMITS_count + 1) (2 ^ 32 - 1) := by
  have retimed : BesideHopper s (s.retimed a) := .ite (s.retime_beside ..) .rfl
  have taken (y : State) (old : RegMap) : (y.imageTaken a old).regs = y.regs ∧ (y.imageTaken a old).hop.armed = none ∧
      (y.imageTaken a old).hop.active = RegMap.set a.image F.HOPPER_PROG_ACT_act 0 ∧
      (y.imageTaken a old).hop.before = y.hop.before ++ [(a.boundary, old)] := ⟨rfl, rfl, rfl, rfl⟩
  obtain ⟨regs, armed, active, before⟩ := taken (s.retimed a) s.hop.active
  have followed := (((s.retimed a).imageTaken a s.hop.active).programsTaken_beside a s.hop.active s.progs.active).trans
    (State.unitsFollow_beside _ a s.hop.active s.progs.active)
  rw [s.applyCommit_eq a]
  generalize (((s.retimed a).imageTaken a s.hop.active).programsTaken a s.hop.active s.progs.active).unitsFollow a s.hop.active
    s.progs.active = t at followed ⊢
  obtain ⟨hop, result, count⟩ := t.commitShown_shows
  have same : t.rd F.HOPPER_COMMITS_count = s.rd F.HOPPER_COMMITS_count := by
    rw [followed.regs _ (by decide) (by unfold offHopper; decide), State.rd, regs]
    exact retimed.regs F.HOPPER_COMMITS_count (by decide) (by unfold offHopper; decide)
  rw [hop, count, same]
  refine ⟨followed.armed.trans armed, followed.active.trans active, ?_, rfl, result, rfl⟩
  rw [← retimed.before, ← before]
  exact followed.before

theorem State.dropArmed_result (s : State) {result reason : Nat} (held : s.hop.armed.isNone = false) (small : result < 8) :
    SameSettings s (s.dropArmed (some (result, reason))) ∧
      (s.dropArmed (some (result, reason))).rd F.HOPPER_STATUS_last_result = result := by
  let u : State := { s with hop := { s.hop with armed := none, partial_ := [] } }
  let v := if s.rd F.ONLINE_STATUS_state == 1 then u.wr F.ONLINE_STATUS_state 0 else u
  let w := v.wr F.HOPPER_STATUS_last_result result
  let x := if s.rd F.ONLINE_STATUS_state == 1 then (w.wr F.ONLINE_STATUS_last_abandoned 1).wr F.ONLINE_STATUS_reason reason else w
  have named : s.dropArmed (some (result, reason)) = x.hopState := if_neg (by simp [held])
  have shown : x.rd F.HOPPER_STATUS_last_result = result := by
    have first : w.rd F.HOPPER_STATUS_last_result = result := (v.rd_wr_same F.HOPPER_STATUS_last_result result).trans (Nat.mod_eq_of_lt small)
    simp only [x]
    split
    · rw [State.rd_wr_ne _ _ _ _ (by decide), State.rd_wr_ne _ _ _ _ (by decide), first]
    · exact first
  have same : x.hop = u.hop ∧ x.progs = s.progs := by
    simp only [x, w, v]
    split <;> exact ⟨rfl, rfl⟩
  rw [named, SameSettings, x.hopState_keeps.parts .hop (by decide), x.hopState_keeps.parts .progs (by decide), same.1, same.2,
    State.hopState_rd _ (by decide)]
  exact ⟨⟨rfl, rfl, rfl⟩, shown⟩

/-- A commit that does not happen is answered, and the settings stay. -/
theorem State.dropArmed_finish (s : State) {result reason : Nat} (held : s.hop.armed.isNone = false) (small : result < 8)
    (p : MillerCmd → Bool) (status : Nat) :
    let t := (s.endCommitOrders.dropArmed (some (result, reason))).finish p status 0 0 0
    t.hop.armed = none ∧ SameSettings s t ∧ t.rd F.HOPPER_STATUS_last_result = result := by
  intro t
  obtain ⟨settings, shown⟩ := s.endCommitOrders.dropArmed_result (reason := reason) held small
  have dropped := s.endCommitOrders.dropArmed_drops (some (result, reason))
  have told := (s.endCommitOrders.dropArmed (some (result, reason))).finish_keeps p status 0 0 0
  have regs := (s.endCommitOrders.dropArmed (some (result, reason))).finish_in p status 0 0 0
  refine ⟨?_, SameSettings.trans settings (.of_keeps told (by decide)), (regs.rd_eq (b := .hopper) (by decide) (by decide)).trans shown⟩
  rw [told.parts .hop (by decide), dropped]

theorem commitApply_judges {s : State} {a : CommitImage} (armed : s.hop.armed = some a) (come : a.boundary ≤ s.turn.k)
    (role : s.plyState ∈ [1, 2, 4]) :
    let permitted := keyPermits (s.keyAt a.boundary) s.hop.active a.image
    Does .commitApply s (fun t => t.hop.armed = none ∧
      (a.acked = true → permitted = true → t.hop.active = RegMap.set a.image F.HOPPER_PROG_ACT_act 0 ∧
        t.hop.before = s.hop.before ++ [(a.boundary, s.hop.active)] ∧ t.hop.writing = true ∧ t.rd F.HOPPER_STATUS_last_result = 1 ∧
        t.rd F.HOPPER_COMMITS_count = min (s.rd F.HOPPER_COMMITS_count + 1) (2 ^ 32 - 1)) ∧
      (a.acked = false → SameSettings s t ∧ t.rd F.HOPPER_STATUS_last_result = 3) ∧
      (a.acked = true → permitted = false → SameSettings s t ∧ t.rd F.HOPPER_STATUS_last_result = 4)) := by
  intro permitted
  let p := fun (m : MillerCmd) => m.op == 0x43
  have held : s.hop.armed.isNone = false := by rw [armed]; rfl
  have known : (!(s.isActive || s.isStandby)) = false := by
    simp only [List.mem_cons, List.not_mem_nil, or_false] at role
    rcases role with state | state | state <;> simp [State.isActive, State.isStandby, state]
  have runs : exec .commitApply s = (if !a.acked then ok ((s.endCommitOrders.dropArmed (some (3, 1))).finish p 9 0 0 0)
      else if !permitted then ok ((s.endCommitOrders.dropArmed (some (4, 2))).finish p 0x0B 0 0 0)
      else ok ((s.endCommitOrders.applyCommit a).finish p 0 0 a.boundary 0)) := by
    show execCommitApply s = _
    unfold execCommitApply
    rw [armed]
    exact (if_neg (Nat.not_lt.2 come)).trans (if_neg (by simp [known]))
  cases acked : a.acked with
  | false =>
    obtain ⟨unarmed, settings, result⟩ := s.dropArmed_finish (result := 3) (reason := 1) held (by decide) p 9
    refine ⟨_, runs.trans (by rw [acked]; rfl), unarmed, fun h => ?_, fun _ => ⟨settings, result⟩, fun h => ?_⟩ <;> cases h
  | true =>
    cases permits : permitted with
    | false =>
      obtain ⟨unarmed, settings, result⟩ := s.dropArmed_finish (result := 4) (reason := 2) held (by decide) p 0x0B
      refine ⟨_, runs.trans (by rw [acked, permits]; rfl), unarmed, fun _ h => ?_, fun h => ?_, fun _ _ => ⟨settings, result⟩⟩ <;> cases h
    | true =>
      obtain ⟨unarmed, active, before, writing, result, count⟩ := s.endCommitOrders.applyCommit_applies a
      have told := (s.endCommitOrders.applyCommit a).finish_keeps p 0 0 a.boundary 0
      have field (f : Fld) (place : f.In .hopper) := ((s.endCommitOrders.applyCommit a).finish_in p 0 0 a.boundary 0).rd_eq place (by decide)
      refine ⟨_, runs.trans (by rw [acked, permits]; rfl), ?_, fun _ _ => ?_, fun h => ?_, fun _ h => ?_⟩
      · rw [told.parts .hop (by decide), unarmed]
      · rw [told.parts .hop (by decide), field _ (by decide), field _ (by decide)]
        exact ⟨active, before, writing, result, count⟩
      · cases h
      · cases h

theorem commitImageWritten_writes {s : State} (writes : s.hop.writing = true) :
    Does .commitImageWritten s (fun t => t.hop.writing = false ∧ SameSettings s t ∧
      ∃ n, SMap.find t.hop.mram s.olderImage = some ⟨n, levelZero s.hop.active, s.progs.active,
        s.progs.staged.filter (fun e => s.rd (F.PROG_STATUS_staged e.1) == 2)⟩ ∧
        ∀ i, i ≠ s.olderImage → SMap.find t.hop.mram i = SMap.find s.hop.mram i) := by
  let m : MramImage := ⟨match s.newerImage with
    | some m => m.serial + 1
    | none => 0, levelZero s.hop.active, s.progs.active, s.progs.staged.filter (fun e => s.rd (F.PROG_STATUS_staged e.1) == 2)⟩
  let u : State := { s with hop := { s.hop with mram := SMap.put s.hop.mram s.olderImage m, writing := false } }
  have runs : exec .commitImageWritten s = .next u.hopState := (if_neg (by simp [writes])).trans rfl
  have hop : u.hopState.hop = u.hop := u.hopState_keeps.parts .hop (by decide)
  have progs : u.hopState.progs = s.progs := u.hopState_keeps.parts .progs (by decide)
  refine ⟨_, runs, ?_, ?_, ?_⟩
  · rw [hop]
  · rw [SameSettings, hop]
    exact ⟨rfl, rfl, progs⟩
  · rw [hop]
    exact ⟨m.serial, SMap.find_put_same _ _ _, fun i ne => SMap.find_put_ne _ _ ne.symm⟩

/-- Settles O45: the tests of CHECK and COMMIT, the armed commit, its boundary and its image in MRAM. -/
theorem commitsCheckedArmedAndApplied : Obligations.CommitsCheckedArmedAndApplied := by
  intro s
  refine ⟨fun c ready room => cmdCheck_starts ready room, fun c ready good => ⟨fun free => cmdCommit_starts ready good free,
    fun armed => cmdCommit_beside ready good armed⟩, fun u tests check up => checkDone_shows tests check up,
    fun u m tests commit up free waits turn => commitAccepted_judges tests commit up free waits turn,
    fun a armed come role => commitApply_judges armed come role, fun writes => commitImageWritten_writes writes⟩

end Sys2Proof.Machine

/-! PROOFS. The host's firmware and log commands (R327, R415, R425): a refused LOG_ERASE may fire a trigger of the recorder. -/

namespace Sys2Proof.Machine

/-- A LONE module with command ring 3 open, whose trigger 0 is the source that a completion of that ring raises. -/
def triggered : State :=
  let fields := [(F.PLY_STATUS_state, 1), (F.HRING_CTRL_enable 3, 1), (F.HRING_CTRL_cmd_log2 3, 4), (F.HRING_CTRL_cpl_log2 3, 4),
    (F.RING_POLICY_allow 3, 0x1FF), (F.KEY_STATUS_effective, 2)]
  let settings := [(F.REC_CTRL_enable, 1), (F.REC_TRIG_enable 0, 1), (F.REC_TRIG_source 0, 3)]
  fields.foldl (fun s e => s.wr e.1 e.2) { State.reset with
    hop := { State.reset.hop with active := settings.foldl (fun m e => RegMap.set m e.1 e.2) State.reset.hop.active }
    host := { HostSt.cold with busMaster := true, linkDown := false } }

/-- LOG_ERASE in ring 3, with an expected pointer of 1. -/
def staleErase : HostCmd :=
  ⟨3, ⟨0x61, 0, 0, 77, 0x1000, 0, 0, 1 :: List.replicate 39 0⟩, [], true⟩

theorem staleErase_ready : Ready triggered staleErase 0x61 :=
  ⟨by decide +kernel, by decide +kernel, by decide +kernel, by decide +kernel, by decide +kernel, by decide +kernel⟩

/-- The refusal's completion raises the ring's event source, and trigger 0 takes it up. -/
theorem staleErase_fires : ((triggered.consume 3).logEraseCmd staleErase).recorder.raised.length = 1 := by decide +kernel

/-- Refutes O46: a LOG_ERASE whose expected pointer is not the present one changes the recorder where its completion, an error,
raises an event source that a trigger of the recorder watches. -/
theorem not_hostFirmwareAndLogCommands : ¬ Obligations.HostFirmwareAndLogCommands := by
  intro h
  obtain ⟨-, -, -, -, -, -, -, erase⟩ := h triggered staleErase
  obtain ⟨t, ran, refused, -⟩ := erase staleErase_ready
  have stale : opAt staleErase 24 4 ≠ triggered.rd F.REC_STATUS_pointer := by decide +kernel
  obtain ⟨-, same⟩ := refused stale
  have runs : exec (.cmdLogErase staleErase) triggered = .next (triggered.hostRow staleErase 0x61 (fun s => s.logEraseCmd staleErase)) := rfl
  rw [runs, staleErase_ready.hostRow] at ran
  have reached : (triggered.consume 3).logEraseCmd staleErase = t := Host.Outcome.next.inj ran
  have quiet : triggered.recorder.raised.length = 0 := by decide +kernel
  have fired := staleErase_fires
  rw [reached, same, quiet] at fired
  exact absurd fired (by decide)

end Sys2Proof.Machine

/-! PROOFS. The miller's firmware: what an event, a report, a note and the end of an activation do (R434 to R440). -/

namespace Sys2Proof.Machine

/-- A register field that a firmware event does not write. -/
def Fld.besideFwEvt (f : Fld) : Prop := f.lo < 32 ∧ ¬eventReg f.off ∧ f.off ≠ F.FW_EVT_evt.off

theorem State.fwEvt_rd (s : State) (i : Nat) {f : Fld} (beside : f.besideFwEvt) : (s.fwEvt i).rd f = s.rd f := by
  obtain ⟨low, apart, other⟩ := beside
  exact State.setEvt_regs s _ _ _ _ _ (by decide) (by decide) f low (fun h => h.elim apart other)

theorem State.fwReport_rd (s : State) (a b : Nat) {f : Fld} (low : f.lo < 32) : (s.fwReport a b).rd f = s.rd f :=
  State.fwReport_in s a b f low (fun _ h => absurd h (List.not_mem_nil))

theorem State.report_rd (c : Prop) [Decidable c] (s : State) (a b : Nat) {f : Fld} (low : f.lo < 32) :
    (if c then s.fwReport a b else s).rd f = s.rd f := by
  split
  · exact s.fwReport_rd a b low
  · rfl

theorem State.report_fw (c : Prop) [Decidable c] (s : State) (a b : Nat) : (if c then s.fwReport a b else s).fw = s.fw := by
  split
  · exact (s.fwReport_keeps a b).parts .fw (by decide)
  · rfl

theorem State.fwEvt_fw (s : State) (i : Nat) : (s.fwEvt i).fw = s.fw := (s.fwEvt_keeps i).parts .fw (by decide)

theorem State.fwNote_refused (s : State) {code : Nat} (fits : code < 64) : FwRefused (s.fwNote code) code := by
  unfold FwRefused State.fwNote
  rw [State.rd_wr_ne _ F.FW_STATUS_last_status _ _ (by decide), State.rd_wr_same _ F.FW_STATUS_last_result 2,
    State.rd_wr_same _ F.FW_STATUS_last_status code]
  exact ⟨rfl, Nat.mod_eq_of_lt fits⟩

/-- A register field that a refusal of a firmware request does not write. -/
def Fld.besideFwNote (f : Fld) : Prop := F.FW_STATUS_last_result.key ≠ f.key ∧ F.FW_STATUS_last_status.key ≠ f.key

theorem State.fwNote_rd (s : State) (code : Nat) {f : Fld} (beside : f.besideFwNote) : (s.fwNote code).rd f = s.rd f := by
  obtain ⟨result, status⟩ := beside
  rw [State.fwNote, State.rd_wr_ne _ _ _ _ status, State.rd_wr_ne _ _ _ _ result]

/-- The end of an activation: the built set stays in the next slot, and the state register tells it (R437). -/
theorem State.endActivation_ends (s : State) : s.endActivation.fw.activateAt = none ∧ s.endActivation.fw.slots = s.fw.slots ∧
    s.endActivation.rd F.FW_STATUS_slot = s.rd F.FW_STATUS_slot ∧
    (s.rd F.FW_STATUS_state = 3 → s.endActivation.rd F.FW_STATUS_state = 2) := by
  unfold State.endActivation
  refine ⟨rfl, ?_, ?_, fun activating => ?_⟩
  · simp only
    split <;> rfl
  · change (ite _ _ _ : State).rd _ = _
    split
    · exact State.rd_wr_ne _ _ _ _ (by decide)
    · rfl
  · change (ite _ _ _ : State).rd _ = _
    rw [if_pos activating, State.rd_wr_same _ F.FW_STATUS_state 2]
    rfl

end Sys2Proof.Machine

/-! PROOFS. O47: firmware is built, switched at a boundary, confirmed or taken back (R432 to R440). -/

namespace Sys2Proof.Machine

/-! A whole build (R432, R434). -/

theorem fwBuildDone_stores {s : State} {b : FwBuild} (on : s.pd .miller = true) (normal : s.fw.recovery = false)
    (whole : s.wholeBuild = some b) (agreed : s.fwPly = true → s.fw.partnerBuilt = some (crc32c b.manifest)) :
    exec .fwBuildDone s = .next (let t := ((s.storeBuild b).wr F.FW_STATUS_state 2).fwEvt 0
      if (t.isStandby && b.source == 3) = true then t.fwReport 0 0 else t) := by
  have go : (s.fwPly && s.fw.partnerBuilt != some (crc32c b.manifest)) = false := by
    cases paired : s.fwPly
    · rfl
    · simp [agreed paired]
  change execFwBuildDone s = _
  unfold execFwBuildDone
  rw [if_neg (by simp [on, normal]), whole]
  dsimp only
  rw [if_neg (by simp [go])]
  rfl

/-- Every part of the build stands in the next slot. -/
theorem State.storeBuild_slots (s : State) (b : FwBuild) {p : Nat} (part : p < 16) :
    SMap.find (s.storeBuild b).fw.slots (s.fwNext * 16 + p) = some (SMap.getD b.parts p []) := by
  have stored : (s.storeBuild b).fw.slots =
      SMap.puts s.fw.slots ((upTo 16).map (fun p => (s.fwNext * 16 + p, SMap.getD b.parts p []))) := by
    unfold State.storeBuild
    dsimp only
  have keyed : (upTo 16).map (fun p => (s.fwNext * 16 + p, SMap.getD b.parts p [])) =
      ((upTo 16).map (s.fwNext * 16 + ·)).map (fun k => (k, SMap.getD b.parts (k - s.fwNext * 16) [])) := by
    simp [List.map_map, Function.comp_def]
  rw [stored, keyed, SMap.find_puts_map, if_pos (List.mem_map_of_mem (mem_upTo.2 part)), Nat.add_sub_cancel_left]

/-! The switch (R436, R437). -/

theorem fwSwitch_due {s : State} {b : Nat} (on : s.pd .miller = true) (ordered : s.fw.activateAt = some b)
    (due : s.rd F.TURN_STATUS_running = 1 → b ≤ s.turn.k) :
    exec .fwSwitch s = .next (if s.fw.together = true then s.endActivation.fwNote 11
      else if s.keyAt b < s.fw.keyFloor then
        (if (s.endActivation.fwNote 4).isStandby = true then (s.endActivation.fwNote 4).fwReport 0 0 else s.endActivation.fwNote 4)
      else s.switchBanks) := by
  have go : ¬((!s.pd .miller || (s.on F.TURN_STATUS_running && decide (s.turn.k < b))) = true) := by
    simpa [on, State.on] using due
  change execFwSwitch s = _
  unfold execFwSwitch
  rw [ordered]
  refine (if_neg go).trans ?_
  simp only [← apply_ite ok]
  rfl

/-- What an activation that goes no further leaves, its refusal on record. -/
theorem State.endActivation_refuses (s : State) {code : Nat} (fits : code < 64) :
    (s.endActivation.fwNote code).fw.activateAt = none ∧ (s.endActivation.fwNote code).fw.slots = s.fw.slots ∧
    (s.endActivation.fwNote code).rd F.FW_STATUS_slot = s.rd F.FW_STATUS_slot ∧ FwRefused (s.endActivation.fwNote code) code ∧
    (s.rd F.FW_STATUS_state = 3 → (s.endActivation.fwNote code).rd F.FW_STATUS_state = 2) := by
  obtain ⟨ended, kept, slot, built⟩ := s.endActivation_ends
  refine ⟨ended, kept, ?_, State.fwNote_refused _ fits, fun activating => ?_⟩
  · rw [State.fwNote_rd _ _ ⟨by decide, by decide⟩, slot]
  · rw [State.fwNote_rd _ _ ⟨by decide, by decide⟩, built activating]

/-- A report to the partner changes nothing of this. -/
theorem FwRefused.report {s : State} {code : Nat} (h : FwRefused s code) (c : Prop) [Decidable c] (a b : Nat) :
    FwRefused (if c then s.fwReport a b else s) code := by
  unfold FwRefused
  rw [State.report_rd c s a b (by decide), State.report_rd c s a b (by decide)]
  exact h

theorem FwRaised.report {s : State} {i : Nat} (h : FwRaised s i) (c : Prop) [Decidable c] (a b : Nat) :
    FwRaised (if c then s.fwReport a b else s) i := by
  unfold FwRaised
  rw [State.report_rd c s a b (by decide)]
  exact h

/-- The registers of a change of banks, before its event. -/
def State.banksShown (s : State) : State :=
  ((((s.wr F.FW_STATUS_slot s.fwNext).wr F.FW_STATUS_confirm (if s.fw.falling then s.fw.was else 1)).wr F.FW_STATUS_state
    (if s.fw.falling then 0 else 4)).wr F.FW_MILLER_in_window 0)

/-- What the keep island holds of it. -/
def State.banksKept (s : State) (was : Nat) : State :=
  { s with fw := { s.fw with
    activateAt := none, falling := false, together := false, step := 0, was := was, since := s.workSec, served := false,
    healths := 0, commanded := false, build := none, partnerBuilt := none } }

theorem State.switchBanks_eq (s : State) : s.switchBanks =
    (let t := (s.banksShown.banksKept (s.rd F.FW_STATUS_confirm)).fwEvt 2; if t.isStandby = true then t.fwReport 0 0 else t) := rfl

theorem State.fwNext_lt (s : State) : s.fwNext < 2 := by
  unfold State.fwNext
  omega

theorem State.banksShown_shows (s : State) : s.banksShown.rd F.FW_STATUS_slot = s.fwNext ∧
    (s.fw.falling = false → s.banksShown.rd F.FW_STATUS_state = 4 ∧ s.banksShown.rd F.FW_STATUS_confirm = 1) ∧
    (s.fw.falling = true → s.banksShown.rd F.FW_STATUS_state = 0 ∧ s.banksShown.rd F.FW_STATUS_confirm = s.fw.was % 4) := by
  have slot : s.banksShown.rd F.FW_STATUS_slot = s.fwNext % 2 := by
    unfold State.banksShown
    rw [State.rd_wr_ne _ _ _ _ (by decide), State.rd_wr_ne _ _ _ _ (by decide), State.rd_wr_ne _ _ _ _ (by decide),
      State.rd_wr_same _ F.FW_STATUS_slot s.fwNext]
    rfl
  have state : s.banksShown.rd F.FW_STATUS_state = (if s.fw.falling then 0 else 4) % 8 := by
    unfold State.banksShown
    rw [State.rd_wr_ne _ _ _ _ (by decide), State.rd_wr_same _ F.FW_STATUS_state _]
    rfl
  have confirm : s.banksShown.rd F.FW_STATUS_confirm = (if s.fw.falling then s.fw.was else 1) % 4 := by
    unfold State.banksShown
    rw [State.rd_wr_ne _ _ _ _ (by decide), State.rd_wr_ne _ _ _ _ (by decide), State.rd_wr_same _ F.FW_STATUS_confirm _]
    rfl
  refine ⟨slot.trans (Nat.mod_eq_of_lt s.fwNext_lt), fun away => ?_, fun back => ?_⟩
  · exact ⟨by rw [state, away]; rfl, by rw [confirm, away]; rfl⟩
  · exact ⟨by rw [state, back]; rfl, by rw [confirm, back]; rfl⟩

theorem State.switchBanks_rd (s : State) {f : Fld} (beside : f.besideFwEvt) : s.switchBanks.rd f = s.banksShown.rd f := by
  rw [State.switchBanks_eq]
  exact (State.report_rd _ _ 0 0 beside.1).trans (State.fwEvt_rd _ 2 beside)

theorem State.switchBanks_fw (s : State) : s.switchBanks.fw = (s.banksKept (s.rd F.FW_STATUS_confirm)).fw := by
  rw [State.switchBanks_eq]
  exact (State.report_fw _ _ 0 0).trans (State.fwEvt_fw _ 2)

theorem besideFwEvt_status : F.FW_STATUS_slot.besideFwEvt ∧ F.FW_STATUS_state.besideFwEvt ∧ F.FW_STATUS_confirm.besideFwEvt ∧
    F.FW_STATUS_last_result.besideFwEvt ∧ F.FW_STATUS_key_floor.besideFwEvt := by
  unfold Fld.besideFwEvt eventReg
  decide

/-! The confirm (R438). -/

theorem State.confirm_shows (s : State) : s.confirm.rd F.FW_STATUS_confirm = 2 ∧ FwRaised s.confirm 3 ∧
    s.confirm.rd F.FW_STATUS_slot = s.rd F.FW_STATUS_slot ∧ s.confirm.rd F.FW_STATUS_last_result = 1 ∧
    s.confirm.rd F.FW_STATUS_key_floor = byteAt (s.fwManifest s.fwSlot) 21 % 4 ∧
    (s.rd F.FW_STATUS_state = 4 → s.confirm.rd F.FW_STATUS_state = 0) := by
  obtain ⟨slot, state, confirm, result, floor⟩ := besideFwEvt_status
  unfold State.confirm
  extract_lets a b c
  have told {f : Fld} (beside : f.besideFwEvt) : (if c.isStandby = true then c.fwReport 0 0 else c).rd f =
      (b.wr F.FW_STATUS_last_result 1).rd f := (State.report_rd _ _ 0 0 beside.1).trans (State.fwEvt_rd _ 3 beside)
  have idle {f : Fld} (ne : F.FW_STATUS_state.key ≠ f.key) : b.rd f = a.rd f := by
    change (ite _ _ _ : State).rd f = _
    split
    · exact State.rd_wr_ne _ _ _ _ ne
    · rfl
  refine ⟨?_, (State.fwEvt_raised _ (by decide)).report _ 0 0, ?_, ?_, ?_, fun pending => ?_⟩
  · rw [told confirm, State.rd_wr_ne _ _ _ _ (by decide), idle (by decide), State.rd_wr_ne _ _ _ _ (by decide),
      State.rd_wr_same _ F.FW_STATUS_confirm 2]
    rfl
  · rw [told slot, State.rd_wr_ne _ _ _ _ (by decide), idle (by decide), State.rd_wr_ne _ _ _ _ (by decide),
      State.rd_wr_ne _ _ _ _ (by decide)]
  · rw [told result, State.rd_wr_same _ F.FW_STATUS_last_result 1]
    rfl
  · rw [told floor, State.rd_wr_ne _ _ _ _ (by decide), idle (by decide), State.rd_wr_same _ F.FW_STATUS_key_floor _]
    rfl
  · have still : a.rd F.FW_STATUS_state = 4 := by
      rw [State.rd_wr_ne _ _ _ _ (by decide), State.rd_wr_ne _ _ _ _ (by decide), pending]
    rw [told state, State.rd_wr_ne _ _ _ _ (by decide)]
    change (ite _ _ _ : State).rd _ = _
    rw [if_pos still, State.rd_wr_same _ F.FW_STATUS_state 0]
    rfl

end Sys2Proof.Machine

/-! PROOFS. The miller stays up while completions and events go out (R335, R339). -/

namespace Sys2Proof.Machine

/-- The miller is up in both states or in neither. -/
def SameUp (s t : State) : Prop := t.host.millerUp = s.host.millerUp

theorem SameUp.rfl {s : State} : SameUp s s := Eq.refl _

theorem SameUp.then {s t u : State} (h : SameUp s t) (g : SameUp t u) : SameUp s u := Eq.trans g h

theorem SameUp.of_eq {s t u : State} (h : SameUp s t) (e : u.host.millerUp = t.host.millerUp) : SameUp s u := e.trans h

theorem SameUp.wr {s t : State} (h : SameUp s t) (f : Fld) (v : Nat) : SameUp s (t.wr f v) := h

theorem SameUp.ite {s t u : State} {c : Prop} [Decidable c] (h : SameUp s t) (g : SameUp s u) : SameUp s (if c then t else u) := by
  split <;> assumption

theorem SameUp.foldl {α : Type} {f : State → α → State} (l : List α) {s : State} (step : ∀ u a, SameUp u (f u a)) :
    SameUp s (l.foldl f s) := by
  induction l generalizing s with
  | nil => exact .rfl
  | cons a l ih => exact (step s a).then ih

theorem State.countMsix_up (s : State) (v : Nat) : SameUp s (s.countMsix v) := .ite (.ite .rfl .rfl) .rfl

theorem State.fireSource_up (s : State) (src a b : Nat) : SameUp s (s.fireSource src a b) :=
  congrArg HostSt.millerUp ((s.fireSource_keeps src a b).parts .host (by decide))

/-- A raise is counted toward its message, or masked. -/
theorem SameUp.counted {s t : State} (h : SameUp s t) (masked : Bool) (v : Nat) : SameUp s (if masked then t else t.countMsix v) :=
  .ite h (h.then (t.countMsix_up v))

theorem State.raiseQuiet_up (s : State) (src a b : Nat) : SameUp s (s.raiseQuiet src a b) :=
  ((s.fireSource_up src a b).wr _ _).counted ..

theorem State.acNote_up (s : State) (u kind requester len a n : Nat) : SameUp s (s.acNote u kind requester len a n) :=
  .ite .rfl .rfl

theorem State.refuseEvent_up (s : State) (a n : Nat) : SameUp s (s.refuseEvent a n) := by
  have noted := (s.acNote_up 3 1 4 32 a n).wr F.HOST_ERR_err (setBit ((s.acNote 3 1 4 32 a n).rd F.HOST_ERR_err) 4 true)
  exact .ite ((noted.then (State.raiseQuiet_up ..)).then (State.raiseQuiet_up ..)) (noted.then (State.raiseQuiet_up ..))

theorem State.writeEvent_up (s : State) (src a b : Nat) : SameUp s (s.writeEvent src a b) := by
  refine .ite (.ite (.ite .rfl (State.countMsix_up _ 4)) .rfl) ?_
  split
  · exact s.refuseEvent_up _ _
  · exact .rfl

theorem State.raiseSource_up (s : State) (src a b : Nat) : SameUp s (s.raiseSource src a b) := by
  have fired := s.fireSource_up src a b
  unfold State.raiseSource
  refine .ite fired (SameUp.counted ?_ ..)
  exact .ite ((fired.wr _ _).then (State.writeEvent_up ..)) (fired.wr _ _)

theorem State.dmaError_up (s : State) (i ring : Nat) : SameUp s (s.dmaError i ring) :=
  (SameUp.rfl (s := s)).then (State.raiseSource_up (s.wr F.HOST_ERR_err _) ..)

theorem State.acAccess_up (s : State) (u kind requester addr len : Nat) : SameUp s (s.acAccess u kind requester addr len).1 := by
  unfold State.acAccess
  split
  · exact .rfl
  · next a n _ =>
    have noted := s.acNote_up u kind requester len a n
    exact .ite (noted.then (State.raiseSource_up ..)) noted

theorem State.writeCpl_up (s : State) (c : Completion) : SameUp s (s.writeCpl c) := by
  have judged := s.acAccess_up 3 1 3
    (s.hostAddr (0x2048 + 32 * c.ring) + SMap.getD s.host.written c.ring 0 % s.cplSize c.ring * 32) 32
  refine .ite .rfl ?_
  split
  · next refused =>
    rw [refused] at judged
    exact judged.then (State.dmaError_up ..)
  · next passed =>
    rw [passed] at judged
    refine .ite (.then ?_ (State.raiseSource_up ..)) ?_
    · exact judged.of_eq (Eq.refl _)
    · exact judged.of_eq (Eq.refl _)

theorem State.complete_up (s : State) (c : HostCmd) (status detail r0 r1 : Nat) :
    SameUp s (s.complete c status detail r0 r1) := by
  unfold State.complete
  simp only
  exact .ite .rfl (.ite (s.dmaError_up 3 _) (.ite .rfl (s.writeCpl_up _)))

theorem State.finish_up (s : State) (p : MillerCmd → Bool) (status detail r0 r1 : Nat) :
    SameUp s (s.finish p status detail r0 r1) := by
  unfold State.finish
  refine .ite .rfl (.then ?_ (SameUp.foldl _ fun u m => .ite .rfl (State.complete_up ..)))
  exact SameUp.foldl _ fun u a => .rfl

end Sys2Proof.Machine

/-! PROOFS. O47: a set that is not confirmed is left (R439), the miller's restart (R440), and the obligation. -/

namespace Sys2Proof.Machine

/-! A set that is not confirmed (R439). -/

/-- A set that is not confirmed is given up: noted, told, and recorded. -/
def State.givenUp (s : State) : State :=
  ((((s.wr F.FW_STATUS_last_result 3).fwEvt 4).fireTrigger 62 0xFF 0 0).wr F.FW_STATUS_state 3)

theorem State.givenUp_keeps (s : State) : Keeps [.host, .recorder] s s.givenUp :=
  Keeps.next (Keeps.next (Keeps.next (Keeps.next Keeps.rfl (State.wr_keeps _ _ _) (by decide)) (State.fwEvt_keeps _ _) (by decide))
    (State.fireTrigger_keeps _ _ _ _ _) (by decide)) (State.wr_keeps _ _ _) (by decide)

theorem State.givenUp_rd (s : State) {f : Fld} (beside : f.besideFwEvt) (state : F.FW_STATUS_state.key ≠ f.key) :
    s.givenUp.rd f = (s.wr F.FW_STATUS_last_result 3).rd f := by
  unfold State.givenUp
  rw [State.rd_wr_ne _ _ _ _ state]
  exact (congrArg (RegMap.get · f) (State.fireTrigger_regs _ _ _ _ _)).trans (State.fwEvt_rd _ 4 beside)

theorem State.givenUp_shows (s : State) : FwRaised s.givenUp 4 ∧ s.givenUp.rd F.FW_STATUS_last_result = 3 ∧
    s.givenUp.rd F.FW_STATUS_state = 3 ∧ s.givenUp.rd F.FW_STATUS_slot = s.rd F.FW_STATUS_slot := by
  obtain ⟨slot, -, -, result, -⟩ := besideFwEvt_status
  refine ⟨?_, ?_, State.rd_wr_same _ F.FW_STATUS_state 3, ?_⟩
  · unfold FwRaised State.givenUp
    rw [State.rd_wr_ne _ _ _ _ (by decide)]
    exact (congrArg (fun r => bitOf (RegMap.get r F.FW_EVT_evt) 4) (State.fireTrigger_regs _ _ _ _ _)).trans
      (State.fwEvt_raised _ (by decide))
  · rw [s.givenUp_rd result (by decide), State.rd_wr_same _ F.FW_STATUS_last_result 3]
    rfl
  · rw [s.givenUp_rd slot (by decide), State.rd_wr_ne _ _ _ _ (by decide)]

theorem State.givenUp_beside (s : State) {f : Fld} (beside : f.besideFwEvt ∧ F.FW_STATUS_state.key ≠ f.key ∧
    F.FW_STATUS_last_result.key ≠ f.key) : s.givenUp.rd f = s.rd f := by
  obtain ⟨event, state, result⟩ := beside
  rw [s.givenUp_rd event state, State.rd_wr_ne _ _ _ _ result]

/-- A partner that can take over stays one. -/
theorem State.givenUp_handover (s : State) : s.givenUp.handoverOk = s.handoverOk ∧ s.givenUp.plyUp = s.plyUp := by
  have plyState := s.givenUp_beside (f := F.PLY_STATUS_state) (by unfold Fld.besideFwEvt eventReg; decide)
  have key := s.givenUp_beside (f := F.KEY_STATUS_effective) (by unfold Fld.besideFwEvt eventReg; decide)
  have partner := s.givenUp_beside (f := F.PLY_STATUS_partner_state) (by unfold Fld.besideFwEvt eventReg; decide)
  have link := s.givenUp_beside (f := F.PLY_STATUS_link) (by unfold Fld.besideFwEvt eventReg; decide)
  unfold State.handoverOk State.plyState State.key State.partnerStandby State.plyUp
  rw [plyState, key, partner, link]
  exact ⟨rfl, rfl⟩

theorem State.leadBoundary_of {s t : State} (turn : t.turn = s.turn) (time : t.time = s.time) (hop : t.hop = s.hop) (ns : Nat) :
    t.leadBoundary ns = s.leadBoundary ns := by
  unfold State.leadBoundary State.phaseNs State.boundaryU State.turnNs State.act
  rw [turn, time, hop]

theorem State.givenUp_lead (s : State) (ns : Nat) : s.givenUp.leadBoundary ns = s.leadBoundary ns :=
  State.leadBoundary_of (s.givenUp_keeps.parts .turn (by decide)) (s.givenUp_keeps.parts .time (by decide))
    (s.givenUp_keeps.parts .hop (by decide)) ns

theorem State.givenUp_switchBoundary (s : State) : s.givenUp.switchBoundary = s.switchBoundary := by
  unfold State.switchBoundary State.on State.boundary2
  rw [s.givenUp_beside (f := F.TURN_STATUS_running) (by unfold Fld.besideFwEvt eventReg; decide), s.givenUp_lead,
    s.givenUp_keeps.parts .turn (by decide)]

/-- What the module does then: it hands over, or it orders its own switch back. -/
def State.fallBack (s : State) : State :=
  if s.handoverOk && s.plyUp then
    { s with fw := { s.fw with activateAt := none, step := 3 } }.sendOrder 6 s.orderBoundary 0 .handover
  else
    { s with fw := { s.fw with activateAt := some s.switchBoundary, falling := true, together := false, step := 0, keyFloor := 0 } }

theorem fwFallBack_runs {s : State} (on : s.pd .miller = true) (pending : s.rd F.FW_STATUS_confirm = 1)
    (failed : s.act F.FW_CTRL_confirm_s ≤ s.workSec - s.fw.since ∨ 3 ≤ s.rd F.FW_MILLER_in_window)
    (away : s.fw.falling = false) (other : s.fw.step ≠ 3) : exec .fwFallBack s = .next s.givenUp.fallBack := by
  have unconfirmed : s.unconfirmed = true := by simpa [State.unconfirmed, pending] using failed
  change execFwFallBack s = _
  unfold execFwFallBack
  rw [if_neg (by simp [on, unconfirmed, away, other])]
  unfold State.fallBack
  exact (apply_ite ok _ _ _).symm

theorem State.fallBack_rd (s : State) {f : Fld} (low : f.lo < 32) : s.fallBack.rd f = s.rd f := by
  unfold State.fallBack
  split
  · exact State.sendOrder_in _ _ _ _ _ f low (fun _ h => absurd h List.not_mem_nil)
  · rfl

theorem fwFallBack_leaves {s : State} (on : s.pd .miller = true) (pending : s.rd F.FW_STATUS_confirm = 1)
    (failed : s.act F.FW_CTRL_confirm_s ≤ s.workSec - s.fw.since ∨ 3 ≤ s.rd F.FW_MILLER_in_window)
    (away : s.fw.falling = false) (other : s.fw.step ≠ 3) : Does .fwFallBack s (fun t =>
      FwRaised t 4 ∧ t.rd F.FW_STATUS_last_result = 3 ∧ t.rd F.FW_STATUS_state = 3 ∧ t.rd F.FW_STATUS_slot = s.rd F.FW_STATUS_slot ∧
      (s.handoverOk = true ∧ s.plyUp = true → t.fw.step = 3 ∧ t.fw.activateAt = none ∧
        ∃ o ∈ t.ply.orders, o.content = .handover ∧ o.boundary = s.orderBoundary) ∧
      (¬(s.handoverOk = true ∧ s.plyUp = true) → t.fw.falling = true ∧ t.fw.together = false ∧
        t.fw.activateAt = some s.switchBoundary)) := by
  obtain ⟨raised, result, state, slot⟩ := s.givenUp_shows
  obtain ⟨handover, link⟩ := s.givenUp_handover
  refine ⟨_, fwFallBack_runs on pending failed away other, ?_, ?_, ?_, ?_, fun partner => ?_, fun alone => ?_⟩
  · unfold FwRaised
    rw [State.fallBack_rd _ (by decide)]
    exact raised
  · rw [State.fallBack_rd _ (by decide), result]
  · rw [State.fallBack_rd _ (by decide), state]
  · rw [State.fallBack_rd _ (by decide), slot]
  · have goes : (s.givenUp.handoverOk && s.givenUp.plyUp) = true := by simp [handover, link, partner.1, partner.2]
    unfold State.fallBack
    rw [if_pos goes]
    refine ⟨?_, ?_, _, (State.sendOrder_orders _ _ _ _ _).symm ▸ List.mem_append_right _ (List.mem_singleton_self _), rfl,
      s.givenUp_lead _⟩
    · rw [(State.sendOrder_keeps _ _ _ _ _).parts .fw (by decide)]
    · rw [(State.sendOrder_keeps _ _ _ _ _).parts .fw (by decide)]
  · have stays : ¬(s.givenUp.handoverOk && s.givenUp.plyUp) = true := by simpa [handover, link] using alone
    unfold State.fallBack
    rw [if_neg stays]
    exact ⟨rfl, rfl, congrArg some s.givenUp_switchBoundary⟩

/-! The miller's watchdog (R24, R440). -/

theorem millerAway_shows {s : State} (on : s.pd .miller = true) : Does (.millerWatchdogRestart false) s (fun t =>
      t = { s with host := { s.host with millerUp := false }, regs := t.regs } ∧
      t.rd F.HOST_STATUS_state = (if s.host.halted = true then 2
        else if s.rd F.HOST_CTRL_enable ≠ 1 ∨ s.dmaOk = false then 0 else 3)) := by
  have runs : exec (.millerWatchdogRestart false) s = .next { s with host := { s.host with millerUp := false } }.hostState :=
    (if_neg (by simp [on])).trans (if_pos rfl)
  refine ⟨_, runs, rfl, (State.rd_wr_same _ F.HOST_STATUS_state _).trans ?_⟩
  change (if s.host.halted = true then 2 else if (!s.on F.HOST_CTRL_enable || !s.dmaOk) = true then 0 else 3) % 2 ^ 2 = _
  split
  · rfl
  · simp only [Bool.or_eq_true, Bool.not_eq_true', State.on, beq_eq_false_iff_ne]
    split <;> rfl

/-- The miller counts its restart, within the confirm window twice. -/
def State.restarted (s : State) : State :=
  if (s.inc F.FW_MILLER_restarts).rd F.FW_STATUS_confirm = 1 then (s.inc F.FW_MILLER_restarts).inc F.FW_MILLER_in_window
  else s.inc F.FW_MILLER_restarts

theorem State.restarted_keeps (s : State) : Keeps [] s s.restarted := by
  have counted := Keeps.next (A := []) Keeps.rfl (s.inc_keeps F.FW_MILLER_restarts) (by decide)
  exact Keeps.ite (Keeps.next counted (State.inc_keeps _ _) (by decide)) counted

theorem State.restarted_counts (s : State) :
    s.restarted.rd F.FW_MILLER_restarts = min (s.rd F.FW_MILLER_restarts + 1) 255 := by
  have counted : (s.inc F.FW_MILLER_restarts).rd F.FW_MILLER_restarts = min (s.rd F.FW_MILLER_restarts + 1) 255 :=
    State.rd_add_same s F.FW_MILLER_restarts 1
  unfold State.restarted
  split
  · exact (State.rd_add_ne _ _ _ _ (by decide)).trans counted
  · exact counted

/-- It is up again, and what it had begun is over. -/
def State.millerBegins (s : State) : State :=
  { s with hop := { s.hop with testing := none }, host := { s.host with millerUp := true } }.hostState.hopState

theorem millerBack_restarts {s : State} (on : s.pd .miller = true) :
    Does (.millerWatchdogRestart true) s (fun t => t.host.millerUp = true ∧ t.hop.testing = none ∧ t.host.outstanding = [] ∧
      t.rd F.FW_MILLER_restarts = min (s.rd F.FW_MILLER_restarts + 1) 255 ∧
      t.hop.active = s.hop.active ∧ t.hop.staged = s.hop.staged ∧ t.hop.armed = s.hop.armed ∧ t.fw = s.fw) := by
  have runs : exec (.millerWatchdogRestart true) s = .next (let u := s.restarted.millerBegins.finish (fun _ => true) 0x12 12 0 0
      u.raiseSource 90 u.fwStatus (u.rawWord 0xE024)) := (if_neg (by simp [on])).trans (if_neg (by simp))
  refine ⟨_, runs, ?_⟩
  have up : s.restarted.millerBegins.host.millerUp = true := rfl
  have begins : s.restarted.millerBegins.hop = { s.hop with testing := none } ∧ s.restarted.millerBegins.fw = s.fw := by
    rw [← s.restarted_keeps.parts .hop (by decide), ← s.restarted_keeps.parts .fw (by decide)]
    exact ⟨rfl, rfl⟩
  have counts : s.restarted.millerBegins.rd F.FW_MILLER_restarts = min (s.rd F.FW_MILLER_restarts + 1) 255 :=
    (State.rd_wr_ne _ _ _ _ (by decide)).trans ((State.rd_wr_ne _ _ _ _ (by decide)).trans s.restarted_counts)
  generalize s.restarted.millerBegins = u at up begins counts ⊢
  obtain ⟨hop, fw⟩ := begins
  have told := u.finish_keeps (fun _ => true) 0x12 12 0 0
  have owed : (u.finish (fun _ => true) 0x12 12 0 0).host.outstanding = [] := by
    rw [State.finish_outstanding up]
    simp
  have alive : (u.finish (fun _ => true) 0x12 12 0 0).host.millerUp = true := (u.finish_up _ _ _ _ _).trans up
  have counted : (u.finish (fun _ => true) 0x12 12 0 0).rd F.FW_MILLER_restarts = min (s.rd F.FW_MILLER_restarts + 1) 255 :=
    ((u.finish_in _ _ _ _ _).rd_eq (b := .fw) (by unfold Fld.In; decide) (by decide)).trans counts
  have hop := Eq.trans (told.parts .hop (by decide)) hop
  have fw := Eq.trans (told.parts .fw (by decide)) fw
  generalize u.finish (fun _ => true) 0x12 12 0 0 = v at owed alive counted hop fw
  have raised := v.raiseSource_keeps 90 v.fwStatus (v.rawWord 0xE024)
  refine ⟨(v.raiseSource_up _ _ _).trans alive, ?_, Eq.trans (v.raiseSource_owed _ _ _) owed, ?_, ?_, ?_, ?_, ?_⟩
  · rw [raised.parts .hop (by decide), hop]
  · exact ((v.raiseSource_in _ _ _ (by decide)).rd_eq (b := .fw) (by unfold Fld.In; decide) (by decide)).trans counted
  · rw [raised.parts .hop (by decide), hop]
  · rw [raised.parts .hop (by decide), hop]
  · rw [raised.parts .hop (by decide), hop]
  · rw [raised.parts .fw (by decide), fw]

/-! The switch. -/

theorem State.storeBuild_rd (s : State) (b : FwBuild) (f : Fld) : (s.storeBuild b).rd f = s.rd f := by
  unfold State.storeBuild State.rd
  dsimp only

/-- A stored build is over, and stands in the next slot. -/
theorem State.storeBuild_next (s : State) (b : FwBuild) : (s.storeBuild b).fw.build = none ∧
    SMap.find (s.storeBuild b).fw.manifests s.fwNext = some b.manifest ∧ s.fwNext ∈ (s.storeBuild b).fw.good := by
  unfold State.storeBuild
  dsimp only
  exact ⟨Eq.refl _, SMap.find_put_same _ _ _, List.mem_append_right _ (List.mem_singleton_self _)⟩

theorem fwSwitch_switches {s : State} {b : Nat} (on : s.pd .miller = true) (ordered : s.fw.activateAt = some b)
    (due : s.rd F.TURN_STATUS_running = 1 → b ≤ s.turn.k) : Does .fwSwitch s (fun t =>
      t.fw.activateAt = none ∧ t.fw.slots = s.fw.slots ∧
      (s.fw.together = false → s.keyAt b < s.fw.keyFloor → t.rd F.FW_STATUS_slot = s.rd F.FW_STATUS_slot ∧ FwRefused t 4 ∧
        (s.rd F.FW_STATUS_state = 3 → t.rd F.FW_STATUS_state = 2)) ∧
      (s.fw.together = false → s.fw.keyFloor ≤ s.keyAt b → t.rd F.FW_STATUS_slot = s.fwNext ∧ FwRaised t 2 ∧ t.fw.since = s.workSec ∧
        t.fw.healths = 0 ∧ t.fw.commanded = false ∧
        (s.fw.falling = false → t.rd F.FW_STATUS_state = 4 ∧ t.rd F.FW_STATUS_confirm = 1) ∧
        (s.fw.falling = true → t.rd F.FW_STATUS_state = 0 ∧ t.rd F.FW_STATUS_confirm = s.fw.was % 4)) ∧
      (s.fw.together = true → t.rd F.FW_STATUS_slot = s.rd F.FW_STATUS_slot ∧ FwRefused t 11 ∧
        (s.rd F.FW_STATUS_state = 3 → t.rd F.FW_STATUS_state = 2))) := by
  refine ⟨_, fwSwitch_due on ordered due, ?_⟩
  cases joint : s.fw.together
  · rw [if_neg (by decide)]
    by_cases low : s.keyAt b < s.fw.keyFloor
    · rw [if_pos low]
      obtain ⟨ended, kept, slot, refused, built⟩ := s.endActivation_refuses (code := 4) (by decide)
      refine ⟨?_, ?_, fun _ _ => ⟨?_, refused.report _ 0 0, fun activating => ?_⟩, fun _ high => absurd low (Nat.not_lt.2 high),
        fun is => absurd is (by decide)⟩
      · rw [State.report_fw, ended]
      · rw [State.report_fw, kept]
      · rw [State.report_rd _ _ 0 0 (by decide), slot]
      · rw [State.report_rd _ _ 0 0 (by decide), built activating]
    · rw [if_neg low]
      obtain ⟨slot, state, confirm, -, -⟩ := besideFwEvt_status
      obtain ⟨next, forward, back⟩ := s.banksShown_shows
      rw [s.switchBanks_fw, s.switchBanks_rd slot, s.switchBanks_rd state, s.switchBanks_rd confirm]
      refine ⟨rfl, rfl, fun _ is => absurd is low, fun _ _ => ⟨next, ?_, rfl, rfl, rfl, forward, back⟩, fun is => absurd is (by decide)⟩
      rw [s.switchBanks_eq]
      exact (State.fwEvt_raised _ (by decide)).report _ 0 0
  · rw [if_pos rfl]
    obtain ⟨ended, kept, slot, refused, built⟩ := s.endActivation_refuses (code := 11) (by decide)
    exact ⟨ended, kept, fun is => absurd is (by decide), fun is => absurd is (by decide), fun _ => ⟨slot, refused, built⟩⟩

/-- Settles O47: each step of a firmware update, the fall-back and the miller's restart do what they say. -/
theorem firmwareBuiltSwitchedConfirmed : Obligations.FirmwareBuiltSwitchedConfirmed := by
  intro s on
  refine ⟨fun b normal whole agreed => ?_, fun b ordered due => fwSwitch_switches on ordered due, ?_,
    fun pending failed away other => fwFallBack_leaves on pending failed away other, millerAway_shows on, millerBack_restarts on⟩
  · refine ⟨_, fwBuildDone_stores on normal whole agreed, ?_⟩
    obtain ⟨slot, state, -, -, -⟩ := besideFwEvt_status
    obtain ⟨ended, manifest, good⟩ := s.storeBuild_next b
    have held : (s.storeBuild b).rd F.FW_STATUS_slot = s.rd F.FW_STATUS_slot := s.storeBuild_rd b _
    have fw : (((s.storeBuild b).wr F.FW_STATUS_state 2).fwEvt 0).fw = (s.storeBuild b).fw := State.fwEvt_fw _ 0
    dsimp only
    rw [State.report_rd _ _ 0 0 (by decide), State.fwEvt_rd _ 0 state, State.report_rd _ _ 0 0 (by decide), State.fwEvt_rd _ 0 slot,
      State.report_fw, fw]
    refine ⟨State.rd_wr_same _ F.FW_STATUS_state 2, (State.fwEvt_raised _ (by decide)).report _ 0 0,
      (State.rd_wr_ne _ _ _ _ (by decide)).trans held, ended, manifest, good, fun p part => s.storeBuild_slots b part⟩
  · have runs : exec .fwSelfConfirm s = .next (if s.confirmReady then s.confirm else s) := rfl
    refine ⟨_, runs, fun waits => if_neg (by simp [waits]), fun ready => ?_⟩
    obtain ⟨confirm, raised, slot, result, floor, idle⟩ := s.confirm_shows
    rw [if_pos ready]
    exact ⟨confirm, raised, slot, result, floor, idle⟩

end Sys2Proof.Machine

/-! PROOFS. What the keep island and the power ladder hold while domains turn off and on (R452, R465, R466). -/

namespace Sys2Proof.Machine

/-- Fields that read the same in two states. -/
def Kept (fs : List Fld) (s t : State) : Prop := ∀ f ∈ fs, t.rd f = s.rd f

section
variable {fs : List Fld} {s t u : State}

theorem Kept.rfl : Kept fs s s := fun _ _ => Eq.refl _

theorem Kept.then (h : Kept fs s t) (g : Kept fs t u) : Kept fs s u := fun f hf => (g f hf).trans (h f hf)

theorem Kept.same (h : Kept fs s t) (e : u.regs = t.regs) : Kept fs s u := fun f hf => by
  rw [← h f hf, State.rd, State.rd, e]

theorem Kept.ite {c : Prop} [Decidable c] (h : Kept fs s t) (g : Kept fs s u) : Kept fs s (if c then t else u) := by
  split <;> assumption

theorem Kept.foldl {α : Type} {f : State → α → State} (l : List α) (step : ∀ u, ∀ a ∈ l, Kept fs u (f u a)) :
    Kept fs s (l.foldl f s) := fun g hg => rd_foldl s fun u a ha => step u a ha g hg

theorem Kept.sub {gs : List Fld} (h : Kept fs s t) (all : ∀ f ∈ gs, f ∈ fs) : Kept gs s t := fun f hf => h f (all f hf)

theorem Kept.wr {g : Fld} (v : Nat) (apart : ∀ f ∈ fs, g.key ≠ f.key) : Kept fs s (s.wr g v) :=
  fun f hf => State.rd_wr_ne _ _ _ _ (apart f hf)

theorem Kept.of_in {B : List Bank} (h : RegsIn B s t)
    (apart : ∀ f ∈ fs, f.lo < 32 ∧ ∀ b ∈ B, ¬(b.range.1 ≤ f.off ∧ f.off < b.range.2)) : Kept fs s t :=
  fun f hf => h f (apart f hf).1 (apart f hf).2

theorem Kept.of_but {W : Nat → Prop} (h : RegsBut W s t) (apart : ∀ f ∈ fs, f.lo < 32 ∧ ¬W f.off) : Kept fs s t :=
  fun f hf => h f (apart f hf).1 (apart f hf).2
end

/-- The registers of the ladder, of the cause of the last start, and of the firmware slots. -/
def ladderFlds : List Fld := [F.FW_STATUS_slot, F.FW_STATUS_confirm, F.FW_STATUS_lifecycle, F.PWR_STATUS_rung,
  F.PWR_STATUS_target, F.PWR_STATUS_moving, F.PWR_STATUS_holdup_ok, F.PWR_STATUS_keep_lost, F.PWR_CAUSE_kind, F.PWR_CAUSE_from,
  F.PWR_DOMAINS_on]

/-- With them the position on the ring and the home strap, which the keep island holds too. -/
def islandFlds : List Fld := ladderFlds ++ [F.RING_POSITION_position, F.PLY_STATUS_home]

theorem islandFlds_kept : ∀ f ∈ islandFlds, keptFlds.any (fun g => g.key == f.key) = true := by decide

/-- No field of the bins, the brake domain, the mill bus or the Skein ports is one of them. -/
theorem Kept.wr_apart {s : State} {g : Fld} (v : Nat) (low : g.lo < 32)
    (place : g.off < 24580 ∨ (28680 < g.off ∧ g.off < 57344) ∨ 61472 < g.off) : Kept islandFlds s (s.wr g v) := by
  have at_ : ∀ f ∈ islandFlds, f.lo < 32 ∧ 24580 ≤ f.off ∧ (f.off ≤ 28680 ∨ 57344 ≤ f.off) ∧ f.off ≤ 61472 := by decide
  refine Kept.wr v fun f hf => ?_
  obtain ⟨lo, first, gap, last⟩ := at_ f hf
  exact Fld.key_ne_off low lo (by omega)

theorem SMap.find_filter {α : Type} (m : SMap α) {p : Nat × α → Bool} {x : Nat} (keep : ∀ v, p (x, v) = true) :
    SMap.find (m.filter p) x = SMap.find m x := by
  induction m with
  | nil => rfl
  | cons e m ih =>
    obtain ⟨k, v⟩ := e
    by_cases same : k = x
    · subst same
      rw [List.filter_cons_of_pos (keep v)]
      simp [SMap.find]
    · by_cases taken : p (k, v) = true
      · rw [List.filter_cons_of_pos taken]
        simp [SMap.find, same, ih]
      · rw [List.filter_cons_of_neg taken]
        simp [SMap.find, same, ih]

/-- A register that a filter keeps reads the same. -/
theorem State.rd_filter (s : State) {p : Nat × Nat → Bool} {f : Fld} (keep : ∀ v, p (f.key, v) = true) :
    RegMap.get (s.regs.filter p) f = s.rd f := by
  unfold State.rd RegMap.get SMap.getD
  rw [SMap.find_filter _ keep]

theorem State.loseRegs_kept (s : State) (p : Nat → Bool) : Kept islandFlds s (s.loseRegs p) := fun f hf =>
  s.rd_filter fun _ => by
    simp only [Bool.or_eq_true]
    exact Or.inr (islandFlds_kept f hf)

/-! A domain turns off. -/

theorem State.idleTraces_kept (s : State) : Kept islandFlds s s.idleTraces := by
  refine Kept.foldl _ fun u g hg => ?_
  have hg := mem_upTo.1 hg
  exact Kept.same (Kept.wr_apart (g := F.TRACE_GSTAT_state g) 0 (by simp [F.TRACE_GSTAT_state]) (by simp only [F.TRACE_GSTAT_state]; omega)) (Eq.refl _)

theorem State.setRow_kept (s : State) {r : Nat} (b : Bool) (row : r < 32) : Kept islandFlds s (s.setRow r b) :=
  .of_in (s.setRow_in r b row) (by decide)

theorem State.loseLocks_kept (s : State) : Kept islandFlds s s.loseLocks := by
  have policy : Kept islandFlds s (s.wr F.POLICY_LOCK_lock 0) := .wr 0 (by decide)
  have unlocked := policy.then (Kept.wr (g := F.BRK_LOCK_lock) 0 (by decide))
  unfold State.loseLocks
  extract_lets u old v
  have cleared : Kept islandFlds s v := unlocked.same (Eq.refl _)
  clear_value v
  exact cleared.then (v.setRow_kept false (by decide))

theorem State.loseBlock_kept (s : State) (d : Pd) : Kept islandFlds s (s.loseBlock d) := s.loseRegs_kept _

theorem State.loseSlack_kept (s : State) : Kept islandFlds s s.loseSlack := by
  unfold State.loseSlack
  exact (s.loseRegs_kept (fun off => 0x4050 ≤ off && off < 0x41A0)).same (Eq.refl _)

theorem State.loseMem_kept (s : State) (lo hi : Nat) : Kept islandFlds s (s.loseMem lo hi) := .same .rfl (Eq.refl _)

theorem State.loseBins_kept (s : State) : Kept islandFlds s s.loseBins := by
  unfold State.loseBins
  extract_lets tasks progs hop u
  have emptied : Kept islandFlds s u := .same .rfl (Eq.refl _)
  clear_value u
  exact ((emptied.then (u.loseBlock_kept .bins)).then (State.loseMem_kept _ _ _)).then (State.loseLocks_kept _)

theorem State.loseRingPly_kept (s : State) : Kept islandFlds s s.loseRingPly := by
  unfold State.loseRingPly
  extract_lets e p u
  have lost : Kept islandFlds s u := s.loseBlock_kept .ringply
  clear_value u e p
  exact ((lost.same (Eq.refl _)).then (Kept.wr (g := F.PLY_EPOCH_epoch) e (by decide))).then
    (Kept.wr (g := F.KEY_STATUS_partner_valid) 0 (by decide))

theorem State.loseMiller_kept (s : State) : Kept islandFlds s s.loseMiller := by
  unfold State.loseMiller
  extract_lets u
  have cut : Kept islandFlds s u := .ite .rfl (Kept.same .rfl (Eq.refl _))
  clear_value u
  exact (cut.then (u.loseBlock_kept .miller)).same (Eq.refl _)

theorem State.lose_kept (s : State) (d : Pd) : Kept islandFlds s (s.lose d) := by
  cases d with
  | dram => exact Kept.same s.idleTraces_kept (Eq.refl _)
  | spindle => exact Kept.then (t := s.abandonTasks) (.same .rfl (Eq.refl _)) (State.loseSlack_kept _)
  | wheel => exact Kept.same .rfl (Eq.refl _)
  | ringply => exact s.loseRingPly_kept
  | bins => exact s.loseBins_kept
  | time => exact Kept.same (s.loseBlock_kept .time) (Eq.refl _)
  | hostsvc => exact Kept.same (s.loseBlock_kept .hostsvc) (Eq.refl _)
  | miller => exact s.loseMiller_kept
  | brake => exact Kept.same (s.loseBlock_kept .brake) (Eq.refl _)
  | wake => exact s.loseBlock_kept .wake
  | skein => exact .rfl
  | keep => exact .rfl

/-- The fields besides the one that shows the domains. -/
def besideDomains : List Fld := [F.FW_STATUS_slot, F.FW_STATUS_confirm, F.FW_STATUS_lifecycle,
  F.PWR_STATUS_rung, F.PWR_STATUS_target, F.PWR_STATUS_moving, F.PWR_STATUS_holdup_ok, F.PWR_STATUS_keep_lost, F.PWR_CAUSE_kind,
  F.PWR_CAUSE_from, F.RING_POSITION_position, F.PLY_STATUS_home]

theorem State.turnOff_kept (s : State) (d : Pd) : Kept besideDomains s (s.turnOff d) := by
  unfold State.turnOff
  exact .ite .rfl (((s.lose_kept d).sub (by decide)).then (Kept.wr _ (by decide)))

theorem Pd.bit_lt (d : Pd) : d.bit < F.PWR_DOMAINS_on.width := by cases d <;> decide

theorem Pd.bit_inj {d e : Pd} (h : d.bit = e.bit) : d = e := by
  revert h
  cases d <;> cases e <;> decide

/-- What the register of the domains says of one. -/
theorem State.pd_setBit (s : State) (d e : Pd) (b : Bool) :
    (s.wr F.PWR_DOMAINS_on (setBit (s.rd F.PWR_DOMAINS_on) d.bit b)).pd e = (if d = e then b else s.pd e) := by
  unfold State.pd
  split
  · next same =>
    subst same
    cases b
    · exact State.bitOf_wr_clearBit _ d.bit_lt
    · rw [State.bitOf_wr_setBit _ d.bit_lt, decide_eq_true rfl, Bool.or_true]
  · next other => exact State.bitOf_wr_setBit_ne _ b e.bit_lt fun h => other (Pd.bit_inj h)

theorem Kept.pd {fs : List Fld} {s t : State} (h : Kept fs s t) (d : Pd) (holds : F.PWR_DOMAINS_on ∈ fs) : t.pd d = s.pd d := by
  unfold State.pd
  rw [h _ holds]

theorem State.turnOff_pd (s : State) (d e : Pd) : (s.turnOff d).pd e = (s.pd e && decide (d ≠ e)) := by
  unfold State.turnOff
  split
  · next off =>
    by_cases same : d = e
    · subst same
      simpa using off
    · simp [same]
  · have kept : (s.lose d).rd F.PWR_DOMAINS_on = s.rd F.PWR_DOMAINS_on := s.lose_kept d _ (by decide)
    rw [← kept, State.pd_setBit, (s.lose_kept d).pd e (by decide)]
    by_cases same : d = e <;> simp [same]

theorem foldl_turnOff_pd (l : List Pd) (s : State) (e : Pd) : (l.foldl State.turnOff s).pd e = (s.pd e && decide (e ∉ l)) := by
  induction l generalizing s with
  | nil => simp
  | cons d l ih =>
    rw [List.foldl_cons, ih, State.turnOff_pd]
    by_cases same : d = e
    · simp [same]
    · simp [same, Ne.symm same]

theorem mem_pdOrder (d : Pd) : d ∈ pdOrder := by cases d <;> decide

theorem State.turnOffTo_pd (s : State) (mask : Nat) (d : Pd) : (s.turnOffTo mask).pd d = (s.pd d && bitOf mask d.bit) := by
  unfold State.turnOffTo
  rw [foldl_turnOff_pd]
  simp [mem_pdOrder]

theorem State.turnOffTo_kept (s : State) (mask : Nat) : Kept besideDomains s (s.turnOffTo mask) :=
  Kept.foldl _ fun u d _ => u.turnOff_kept d

/-! A domain turns on. -/

theorem State.evalMatrix_kept (s : State) : Kept islandFlds s s.evalMatrix := .of_in s.evalMatrix_in (by decide)

theorem State.hostState_kept (s : State) : Kept islandFlds s s.hostState := .of_in s.hostState_in (by decide)

theorem State.budgetRegs_kept (s : State) : Kept islandFlds s s.budgetRegs := by
  refine Kept.foldl _ fun u p hp => ?_
  have hp := mem_upTo.1 hp
  refine (Kept.wr_apart (g := F.SK_D_IN_ps p) _ ?_ ?_).then (Kept.wr_apart (g := F.SK_D_OUT_ps p) _ ?_ ?_) <;>
    simp only [F.SK_D_IN_ps, F.SK_D_OUT_ps] <;> omega

theorem State.settingRegs_kept (s : State) : Kept islandFlds s s.settingRegs := by
  refine ((Kept.then (Kept.foldl _ fun u t ht => ?_) (Kept.wr _ (by decide))).then (Kept.wr _ (by decide))).then
    (State.budgetRegs_kept _)
  have ht := mem_upTo.1 ht
  exact Kept.wr_apart (g := F.TASK_WCET_wcet_ns t) _ (by simp [F.TASK_WCET_wcet_ns]) (by simp only [F.TASK_WCET_wcet_ns]; omega)

theorem State.progRegs_kept (s : State) {p : Nat} (slot : p < 16) : Kept islandFlds s (s.progRegs p) := by
  unfold State.progRegs
  split
  · exact .rfl
  · refine (((((Kept.wr_apart _ ?_ ?_).then (Kept.wr_apart _ ?_ ?_)).then (Kept.wr_apart _ ?_ ?_)).then (Kept.wr_apart _ ?_ ?_)).then
      (Kept.wr_apart _ ?_ ?_)).then (Kept.wr_apart _ ?_ ?_) <;>
      simp only [F.PROG_STATUS_active, F.PROG_STATUS_strands, F.PROG_STATUS_trap_action, F.PROG_ID_LO_ident, F.PROG_ID_HI_ident,
        F.PROG_SIZE_code_words] <;> omega

end Sys2Proof.Machine

/-! PROOFS. A domain that turns on leaves the ladder and the keep island as they are (R452, R457, R463). -/

namespace Sys2Proof.Machine

theorem State.row19_kept (s : State) : Kept islandFlds s s.row19 := .of_in s.row19_in (by decide)

theorem State.gainBrake_kept (s : State) : Kept islandFlds s s.gainBrake := by
  unfold State.gainBrake
  extract_lets old ply u v
  have started : Kept islandFlds s u := .same .rfl (Eq.refl _)
  have lines : Kept islandFlds s v :=
    (started.then (Kept.wr (g := F.PLY_STATUS_abd_out) 0 (by decide))).then (State.setRow_kept _ _ (by decide))
  exact lines.then v.evalMatrix_kept

theorem State.startMatrix_kept (s : State) : Kept islandFlds s s.startMatrix := by
  unfold State.startMatrix
  refine .ite s.evalMatrix_kept ?_
  extract_lets rows old u v
  have latched : Kept islandFlds s u := .same .rfl (Eq.refl _)
  have rows : Kept islandFlds u v := Kept.foldl _ fun y i hi =>
    .ite (y.setRow_kept true (by have := mem_upTo.1 hi; omega)) .rfl
  exact ((latched.then rows).then v.row19_kept).then (State.evalMatrix_kept _)

theorem State.restage_kept (s : State) : Kept islandFlds s s.restage :=
  (Kept.wr (g := F.HOPPER_STATUS_dirty) _ (by decide)).then (Kept.wr (g := F.HOPPER_CHANGES_count) _ (by decide))

theorem State.hopState_kept (s : State) : Kept islandFlds s s.hopState := .wr _ (by decide)

theorem State.rebuildPayloads_kept (s : State) : Kept islandFlds s s.rebuildPayloads := .of_in s.rebuildPayloads_in (by decide)

/-- The programs' registers are set anew. -/
def State.progsShown (s : State) : State := (upTo 16).foldl (fun s p => (s.progRegs p).wr (F.PROG_STATUS_staged p) 0) s

/-- The stations that the settings list are present. -/
def State.stationsShown (s : State) : State :=
  (upTo 256).foldl (fun s n => s.wr (F.SK_STN_STATE_state (n / 16) (n % 16)) (bit (runsIn s.hop.active n))) s

theorem State.progsShown_kept (s : State) : Kept islandFlds s s.progsShown := Kept.foldl _ fun u p hp => by
  have hp := mem_upTo.1 hp
  exact (u.progRegs_kept hp).then (Kept.wr_apart _ (by simp [F.PROG_STATUS_staged]) (by simp only [F.PROG_STATUS_staged]; omega))

theorem Kept.station {s : State} {n : Nat} (v : Nat) (small : n < 256) :
    Kept islandFlds s (s.wr (F.SK_STN_STATE_state (n / 16) (n % 16)) v) :=
  .wr_apart v (by simp only [F.SK_STN_STATE_state]; omega) (by simp only [F.SK_STN_STATE_state]; omega)

theorem State.stationsShown_kept (s : State) : Kept islandFlds s s.stationsShown := Kept.foldl _ fun _ _ hn =>
  Kept.station _ (mem_upTo.1 hn)

/-- What a restored image shows of itself. -/
theorem State.imageShown_kept (s : State) (err : Bool) (digest : Nat) : Kept islandFlds s
    ((s.progsShown.wrb F.HOPPER_STATUS_image_err err).wr F.HOPPER_ACTIVE_SEAL_seal digest).stationsShown :=
  ((s.progsShown_kept.then (Kept.wr _ (by decide))).then (Kept.wr _ (by decide))).then (State.stationsShown_kept _)

theorem State.restoreImage_kept (s : State) : Kept islandFlds s s.restoreImage := by
  unfold State.restoreImage
  extract_lets c m active kept old u v w x y
  have read : Kept islandFlds s u := .same .rfl (Eq.refl _)
  have shown : Kept islandFlds u y := u.imageShown_kept c.isNone (committedSeal m active)
  clear_value y
  exact ((((read.then shown).then y.settingRegs_kept).then (State.restage_kept _)).then (State.hopState_kept _)).then
    (State.rebuildPayloads_kept _)

theorem State.gainBins_kept (s : State) : Kept islandFlds s s.gainBins := by
  unfold State.gainBins
  extract_lets u
  have idle : Kept islandFlds s u := .same .rfl (Eq.refl _)
  exact ((idle.then u.restoreImage_kept).then (Kept.wr (g := F.PLY_EPOCH_epoch) 0 (by decide))).then (State.startMatrix_kept _)

theorem State.setMuted_kept (s : State) (b : Bool) : Kept islandFlds s (s.setMuted b) :=
  ((Kept.wr (g := F.PLY_STATUS_muted) _ (by decide)).then (Kept.wr (g := F.MB_STATUS_muted 0) _ (by decide))).then
    (Kept.wr (g := F.MB_STATUS_muted 1) _ (by decide))

theorem State.startHost_kept (s : State) : Kept islandFlds s s.startHost := by
  unfold State.startHost
  extract_lets u
  have channels : Kept islandFlds s u := Kept.foldl _ fun y ch hch => by
    have hch := mem_upTo.1 hch
    exact .wr_apart _ (by simp [F.MB_STATUS_state]) (by simp only [F.MB_STATUS_state]; omega)
  exact (channels.then (u.setMuted_kept _)).then (State.hostState_kept _)

theorem State.startMiller_kept (s : State) (button : Bool) : Kept islandFlds s (s.startMiller button) := by
  unfold State.startMiller
  extract_lets lc rom fw host u
  have started : Kept islandFlds s u := .same .rfl (Eq.refl _)
  exact started.then (Kept.wr _ (by decide))

theorem State.startSkein_kept (s : State) : Kept islandFlds s s.startSkein := by
  unfold State.startSkein
  extract_lets lost_ u v w
  have lost : Kept islandFlds s u := (s.loseBlock_kept .skein).same (Eq.refl _)
  have ports : Kept islandFlds u v := Kept.foldl ((upTo 16).filter _) fun y p hp => by
    have hp := mem_upTo.1 (List.mem_of_mem_filter hp)
    exact .wr_apart _ (by simp [F.SK_STATUS_link]) (by simp only [F.SK_STATUS_link]; omega)
  have listed : Kept islandFlds v w := Kept.foldl (v.stations.filter _) fun y n hn =>
    Kept.station _ (State.stations_lt (List.mem_of_mem_filter hn))
  exact ((lost.then ports).then listed).then w.budgetRegs_kept

theorem State.gain_kept (s : State) (d : Pd) : Kept islandFlds s (s.gain d) := by
  cases d with
  | keep => exact .rfl
  | wake => exact .rfl
  | brake => exact s.gainBrake_kept
  | miller => exact s.startMiller_kept false
  | time => exact .rfl
  | bins => exact s.gainBins_kept
  | hostsvc => exact s.startHost_kept
  | ringply => exact .wr _ (by decide)
  | spindle => exact .same .rfl (Eq.refl _)
  | wheel => exact .same .rfl (Eq.refl _)
  | skein => exact s.startSkein_kept
  | dram => exact .rfl

theorem State.turnOn_kept (s : State) (d : Pd) : Kept besideDomains s (s.turnOn d) := by
  unfold State.turnOn
  exact .ite .rfl (Kept.then (Kept.wr _ (by decide)) ((State.gain_kept _ d).sub (by decide)))

theorem State.turnOn_pd (s : State) (d e : Pd) : (s.turnOn d).pd e = (s.pd e || decide (d = e)) := by
  unfold State.turnOn
  split
  · next on =>
    by_cases same : d = e
    · subst same
      simp [on]
    · simp [same]
  · rw [(State.gain_kept _ d).pd e (by decide), State.pd_setBit]
    by_cases same : d = e <;> simp [same]

theorem foldl_turnOn_pd (l : List Pd) (s : State) (e : Pd) : (l.foldl State.turnOn s).pd e = (s.pd e || decide (e ∈ l)) := by
  induction l generalizing s with
  | nil => simp
  | cons d l ih =>
    rw [List.foldl_cons, ih, State.turnOn_pd]
    by_cases same : d = e
    · simp [same]
    · simp [same, Ne.symm same]

end Sys2Proof.Machine

/-! PROOFS. O38: the power ladder: requests, rung steps, wakes and the holdup store (R451 to R458, R464). -/

namespace Sys2Proof.Machine

/-! Events of the power control. -/

theorem State.pwrEvt_evt (s : State) (i : Nat) : (s.pwrEvt i).rd F.PWR_EVT_evt = (s.rd F.PWR_EVT_evt ||| 1 <<< i) % 2 ^ 6 :=
  s.setEvt_rd _ _ _ _ (by decide) (by decide) (by simp only [eventReg]; decide)

theorem State.pwrEvt_raised (s : State) {i : Nat} (hi : i < 6) : PowerRaised (s.pwrEvt i) i := by
  unfold PowerRaised
  rw [s.pwrEvt_evt, bitOf_eq_testBit, Nat.testBit_mod_two_pow, Nat.testBit_or, Nat.one_shiftLeft, Nat.testBit_two_pow_self,
    Bool.or_true]
  simp [hi]

/-- A raised event stays. -/
theorem State.pwrEvt_stay (s : State) (i : Nat) : BitsStay F.PWR_EVT_evt s (s.pwrEvt i) := fun j hj set => by
  rw [s.pwrEvt_evt, bitOf_eq_testBit, Nat.testBit_mod_two_pow, Nat.testBit_or]
  rw [bitOf_eq_testBit] at set
  rw [set, Bool.true_or, decide_eq_true (show j < 6 from hj), Bool.true_and]

theorem State.pwrEvt_rd (s : State) (i : Nat) {f : Fld} (low : f.lo < 32) (apart : ¬eventReg f.off ∧ f.off ≠ F.PWR_EVT_evt.off) :
    (s.pwrEvt i).rd f = s.rd f :=
  State.setEvt_regs s _ _ _ _ _ (by decide) (by decide) f low fun h => h.elim apart.1 apart.2

theorem ladder_besideEvt : ∀ f ∈ ladderFlds ++ [F.PWR_WAKE_source, F.PWR_WAKE_valid, F.PLY_STATUS_tok_in, F.PWR_STATUS_cell_low,
    F.PWR_SUPPLY_cell_mv], f.lo < 32 ∧ ¬eventReg f.off ∧ f.off ≠ F.PWR_EVT_evt.off := by
  unfold eventReg
  decide

theorem State.pwrEvt_kept (s : State) (i : Nat) : Kept ladderFlds s (s.pwrEvt i) := fun f hf => by
  obtain ⟨low, apart⟩ := ladder_besideEvt f (List.mem_append_left _ hf)
  exact s.pwrEvt_rd i low apart

theorem State.pwrEvt_pwr (s : State) (i : Nat) : (s.pwrEvt i).pwr = s.pwr := (s.pwrEvt_keeps i).parts .pwr (by decide)

theorem Kept.rung {s t : State} (h : Kept ladderFlds s t) : t.rd F.PWR_STATUS_rung = s.rd F.PWR_STATUS_rung := h _ (by decide)

theorem Kept.target {s t : State} (h : Kept ladderFlds s t) : t.rd F.PWR_STATUS_target = s.rd F.PWR_STATUS_target := h _ (by decide)

theorem Kept.moving {s t : State} (h : Kept ladderFlds s t) : t.rd F.PWR_STATUS_moving = s.rd F.PWR_STATUS_moving := h _ (by decide)

theorem Kept.holdup {s t : State} (h : Kept ladderFlds s t) : t.rd F.PWR_STATUS_holdup_ok = s.rd F.PWR_STATUS_holdup_ok :=
  h _ (by decide)

/-! A change begins (R451, R456). -/

/-- A change to another rung shows its target. -/
theorem State.startRung_shows (s : State) {target : Nat} (other : target ≠ s.rd F.PWR_STATUS_rung) (small : target < 8) :
    (s.startRung target).rd F.PWR_STATUS_target = target ∧ (s.startRung target).rd F.PWR_STATUS_moving = 1 := by
  unfold State.startRung
  rw [if_neg other]
  refine ⟨?_, State.rd_wr_same _ F.PWR_STATUS_moving 1⟩
  rw [State.rd_wr_ne _ _ _ _ (by decide), State.rd_wr_same _ F.PWR_STATUS_target target]
  exact Nat.mod_eq_of_lt small

/-- The start of a change writes the cause and the status alone. -/
theorem State.startRung_rd (s : State) (target : Nat) {f : Fld} (apart : F.PWR_CAUSE_kind.key ≠ f.key ∧ F.PWR_CAUSE_from.key ≠ f.key ∧
    F.PWR_STATUS_target.key ≠ f.key ∧ F.PWR_STATUS_moving.key ≠ f.key) : (s.startRung target).rd f = s.rd f := by
  obtain ⟨kind, source, aim, moving⟩ := apart
  unfold State.startRung
  simp only
  split
  · rfl
  · rw [State.rd_wr_ne _ _ _ _ moving, State.rd_wr_ne _ _ _ _ aim]
    split
    · rw [State.rd_wr_ne _ _ _ _ source, State.rd_wr_ne _ _ _ _ kind]
    · rfl

/-- The wake's record, before the change begins. -/
def State.wakeNoted (s : State) (n : Nat) : State := ((s.wr F.PWR_WAKE_source n).wr F.PWR_WAKE_valid 1).pwrEvt 2

theorem State.wakeNoted_rd (s : State) (n : Nat) {f : Fld} (noted : f ∈ ladderFlds ++ [F.PWR_WAKE_source, F.PWR_WAKE_valid,
      F.PLY_STATUS_tok_in, F.PWR_STATUS_cell_low, F.PWR_SUPPLY_cell_mv]) :
    (s.wakeNoted n).rd f = ((s.wr F.PWR_WAKE_source n).wr F.PWR_WAKE_valid 1).rd f := by
  obtain ⟨low, apart⟩ := ladder_besideEvt f noted
  exact State.pwrEvt_rd _ 2 low apart

theorem State.wakeNoted_rung (s : State) (n : Nat) : (s.wakeNoted n).rd F.PWR_STATUS_rung = s.rd F.PWR_STATUS_rung := by
  rw [s.wakeNoted_rd n (by decide), State.rd_wr_ne _ _ _ _ (by decide), State.rd_wr_ne _ _ _ _ (by decide)]

/-- A wake shows its source, and the module goes up. -/
theorem State.wakeTo_shows (s : State) {n target : Nat} (other : target ≠ s.rd F.PWR_STATUS_rung) (small : target < 8) (source : n < 8) :
    (s.wakeTo n target).rd F.PWR_WAKE_source = n ∧ (s.wakeTo n target).rd F.PWR_WAKE_valid = 1 ∧
    (s.wakeTo n target).rd F.PWR_STATUS_target = target ∧ (s.wakeTo n target).rd F.PWR_STATUS_moving = 1 := by
  have same : s.wakeTo n target = (s.wakeNoted n).startRung target := rfl
  obtain ⟨aim, moving⟩ := (s.wakeNoted n).startRung_shows (by rwa [s.wakeNoted_rung]) small
  rw [same]
  refine ⟨?_, ?_, aim, moving⟩
  · rw [State.startRung_rd _ _ (by decide), s.wakeNoted_rd n (by decide), State.rd_wr_ne _ _ _ _ (by decide),
      State.rd_wr_same _ F.PWR_WAKE_source n]
    exact Nat.mod_eq_of_lt source
  · rw [State.startRung_rd _ _ (by decide), s.wakeNoted_rd n (by decide), State.rd_wr_same _ F.PWR_WAKE_valid 1]
    rfl

/-- A source that is enabled wakes a module below Grinding. -/
theorem State.wake_wakes {s : State} {n : Nat} (enabled : s.wakeEnabled n = true) (rests : s.rd F.PWR_STATUS_moving = 0)
    (rung : 1 ≤ s.rd F.PWR_STATUS_rung) (works : wakesFrom n (s.rd F.PWR_STATUS_rung) = true) (source : n < 8) : WakesUp (s.wake n) n := by
  have same : s.wake n = s.wakeTo n 0 := by
    unfold State.wake
    rw [if_neg (by simp [enabled]), if_neg (by simp [State.on, rests]), if_pos works]
  rw [same]
  exact s.wakeTo_shows (by omega) (by decide) source

/-! Requests (R453). -/

theorem State.refusePower_refuses (s : State) : PowerRaised s.refusePower 1 ∧ s.refusePower.rd F.PWR_STATUS_moving = s.rd F.PWR_STATUS_moving := by
  unfold State.refusePower
  extract_lets old u
  have same : Kept ladderFlds s u := .same .rfl (Eq.refl _)
  exact ⟨u.pwrEvt_raised (by decide), (same.then (u.pwrEvt_kept 1)).moving⟩

/-- A request below the present rung that needs no handover is carried out. -/
theorem State.acceptDown_goes {s : State} (target : Nat) (may : (s.plyState = 1 ∧ s.key = 3) ∨ s.plyState ∉ [1, 2]) (kind : Nat) :
    s.acceptDown kind target = { s with pwr := { s.pwr with waitHandover := some (kind, target) } }.carryOut := by
  unfold State.acceptDown
  rcases may with ⟨lone, stop⟩ | other
  · rw [if_neg (by simp [lone]), if_pos (by simp [State.isActive, lone]), if_pos (by simp [stop])]
  · simp only [List.mem_cons, List.not_mem_nil, or_false, not_or] at other
    obtain ⟨one, two⟩ := other
    rw [if_neg (by simp [two]), if_neg (by simp [State.isActive, one, two])]

theorem State.acceptDown_refused {s : State} (kind target : Nat) (lone : s.plyState = 1) (away : s.key ≠ 3) :
    s.acceptDown kind target = s.refusePower := by
  unfold State.acceptDown
  rw [if_neg (by simp [lone]), if_pos (by simp [State.isActive, lone]), if_neg (by simp [away])]

/-- Carried out, a request for a rung starts the change. -/
theorem State.carryOut_rung (s : State) (target : Nat) :
    { s with pwr := { s.pwr with waitHandover := some (0, target) } }.carryOut =
      { s with pwr := { s.pwr with waitHandover := none } }.startRung target := rfl

theorem pwrReqGo_judged {s : State} (on : s.pd .wake = true) {v : Word32} (go : bitOf v.toNat 3 = true) :
    (s.rd F.PWR_STATUS_moving = 1 → Does (.pwrReqGo v) s (fun t => t = { s with pwr := { s.pwr with queued := some (v.toNat % 8) } })) ∧
    (s.rd F.PWR_STATUS_moving = 0 → exec (.pwrReqGo v) s = .next (s.requestRung (v.toNat % 8))) := by
  have begins : ¬((!s.pd .wake || !bitOf v.toNat 3) = true) := by simp [on, go]
  refine ⟨fun moves => ⟨_, (if_neg begins).trans (if_pos ?_), rfl⟩, fun rests => (if_neg begins).trans (if_neg ?_)⟩
  · simp [State.on, moves]
  · simp [State.on, rests]

theorem State.requestRung_judged {s : State} (rests : s.rd F.PWR_STATUS_moving = 0) {want : Nat} (small : want < 8) :
    let r := s.rd F.PWR_STATUS_rung
    let t := s.requestRung want
    (want = 7 ∨ s.act F.PWR_CTRL_floor < want → PowerRaised t 1 ∧ t.rd F.PWR_STATUS_moving = 0) ∧
      (want ≠ 7 → want ≤ s.act F.PWR_CTRL_floor →
        (want < r → r ≤ 4 → t.rd F.PWR_STATUS_target = want ∧ t.rd F.PWR_STATUS_moving = 1 ∧ t.rd F.PWR_WAKE_source = 0) ∧
        (want = r → t = s) ∧
        (r < want → want ≠ 1 → s.plyState = 1 → s.key ≠ 3 → PowerRaised t 1 ∧ t.rd F.PWR_STATUS_moving = 0) ∧
        (r < want → want ≠ 1 → (s.plyState = 1 ∧ s.key = 3) ∨ s.plyState ∉ [1, 2] →
          t.rd F.PWR_STATUS_target = want ∧ t.rd F.PWR_STATUS_moving = 1)) := by
  intro r t
  obtain ⟨raised, stays⟩ := s.refusePower_refuses
  rw [rests] at stays
  refine ⟨fun barred => ?_, fun still floor => ?_⟩
  · have same : t = s.refusePower := if_pos barred
    rw [same]
    exact ⟨raised, stays⟩
  have open_ : ¬(want = 7 ∨ s.act F.PWR_CTRL_floor < want) := not_or.2 ⟨still, Nat.not_lt.2 floor⟩
  have below (down : r < want) (high : want ≠ 1) : t = s.acceptDown 0 want :=
    (if_neg open_).trans ((if_neg (show ¬want < r by omega)).trans ((if_neg (show ¬want = r by omega)).trans (if_neg high)))
  refine ⟨fun up low => ?_, fun here => ?_, fun down high lone away => ?_, fun down high may => ?_⟩
  · have wakes : wakesFrom 0 r = true := by simp [wakesFrom, low, show 1 ≤ r by omega]
    have same : t = s.wakeTo 0 want := (if_neg open_).trans ((if_pos up).trans (if_pos wakes))
    rw [same]
    obtain ⟨source, -, aim, moving⟩ := s.wakeTo_shows (n := 0) (show want ≠ r by omega) small (by decide)
    exact ⟨aim, moving, source⟩
  · exact (if_neg open_).trans ((if_neg (show ¬want < r by omega)).trans (if_pos here))
  · rw [below down high, State.acceptDown_refused 0 want lone away]
    exact ⟨raised, stays⟩
  · rw [below down high, State.acceptDown_goes want may, State.carryOut_rung]
    exact State.startRung_shows _ (show want ≠ r by omega) small

theorem State.wakeTo_stay (s : State) (n target : Nat) : BitsStay F.PWR_EVT_evt s (s.wakeTo n target) :=
  ((BitsStay.rfl.wr_ne (g := F.PWR_WAKE_source) n (by decide)).wr_ne (g := F.PWR_WAKE_valid) 1 (by decide)).trans
    ((State.pwrEvt_stay _ 2).trans (.of_eq (State.startRung_rd _ target (by decide))))

/-- No request takes back an event of the power control. -/
theorem State.requestRung_stay (s : State) (want : Nat) : BitsStay F.PWR_EVT_evt s (s.requestRung want) := by
  have refused : BitsStay F.PWR_EVT_evt s s.refusePower := by
    unfold State.refusePower
    extract_lets old u
    exact (BitsStay.of_eq (s := s) (t := u) (Eq.refl _)).trans (u.pwrEvt_stay 1)
  have started (u : State) (n : Nat) : BitsStay F.PWR_EVT_evt u (u.startRung n) := .of_eq (u.startRung_rd n (by decide))
  have waiting (w : Option (Nat × Nat)) : BitsStay F.PWR_EVT_evt s { s with pwr := { s.pwr with waitHandover := w } } :=
    .of_eq (Eq.refl _)
  have gone : BitsStay F.PWR_EVT_evt s { s with pwr := { s.pwr with waitHandover := some (0, want) } }.carryOut := by
    rw [State.carryOut_rung]
    exact (waiting none).trans (started _ _)
  have down : BitsStay F.PWR_EVT_evt s (s.acceptDown 0 want) := by
    unfold State.acceptDown
    refine .ite (.ite (waiting _) (.ite ((waiting (some (0, want))).trans ?_) refused)) (.ite (.ite gone refused) gone)
    exact .of_eq (State.sendOrder_in _ _ _ _ _ _ (by decide) (fun _ h => absurd h List.not_mem_nil))
  exact .ite refused (.ite (.ite (s.wakeTo_stay 0 want) .rfl) (.ite .rfl (.ite (.ite refused (started s 1)) down)))

/-! A change ends (R454, R458). -/

/-- With nothing waiting, a change that ends says so, and moves nothing. -/
theorem State.endMove_rests {s : State} (queued : s.pwr.queued = none) (woken : s.pwr.wakeFrom = none) :
    s.endMove.rd F.PWR_STATUS_moving = 0 ∧ s.endMove.rd F.PWR_STATUS_rung = s.rd F.PWR_STATUS_rung ∧
    s.endMove.rd F.PWR_STATUS_target = s.rd F.PWR_STATUS_target ∧ (∀ d, s.endMove.pd d = s.pd d) ∧
    s.endMove.pwr.wantUp = s.pwr.wantUp := by
  have same : s.endMove = ({ s with pwr := { s.pwr with queued := none, wakeFrom := none } }.wr F.PWR_STATUS_moving 0).pwrEvt 0 := by
    unfold State.endMove
    simp only [queued, woken]
  rw [same]
  generalize hu : ({ s with pwr := { s.pwr with queued := none, wakeFrom := none } } : State) = u
  have regs : u.regs = s.regs := by subst hu; rfl
  have want : u.pwr.wantUp = s.pwr.wantUp := by subst hu; rfl
  have kept := (u.wr F.PWR_STATUS_moving 0).pwrEvt_kept 0
  have reads (f : Fld) (ne : F.PWR_STATUS_moving.key ≠ f.key) : (u.wr F.PWR_STATUS_moving 0).rd f = s.rd f := by
    rw [State.rd_wr_ne _ _ _ _ ne, State.rd, State.rd, regs]
  refine ⟨kept.moving.trans (State.rd_wr_same _ F.PWR_STATUS_moving 0), kept.rung.trans (reads _ (by decide)),
    kept.target.trans (reads _ (by decide)), fun d => ?_, ?_⟩
  · rw [kept.pd d (by decide)]
    exact congrArg (bitOf · d.bit) (reads _ (by decide))
  · rw [State.pwrEvt_pwr]
    exact want

theorem State.atRung_rests {s : State} {r : Nat} (small : r < 8) (queued : s.pwr.queued = none) (woken : s.pwr.wakeFrom = none)
    (moving : s.rd F.PWR_STATUS_moving = 1) : (s.atRung r).rd F.PWR_STATUS_rung = r ∧
    (s.atRung r).rd F.PWR_STATUS_moving = (if s.rd F.PWR_STATUS_target = r then 0 else 1) ∧ ∀ d, (s.atRung r).pd d = s.pd d := by
  have rung : (s.wr F.PWR_STATUS_rung r).rd F.PWR_STATUS_rung = r :=
    (State.rd_wr_same _ F.PWR_STATUS_rung r).trans (Nat.mod_eq_of_lt small)
  have target : (s.wr F.PWR_STATUS_rung r).rd F.PWR_STATUS_target = s.rd F.PWR_STATUS_target := State.rd_wr_ne _ _ _ _ (by decide)
  have on (d : Pd) : (s.wr F.PWR_STATUS_rung r).pd d = s.pd d :=
    congrArg (bitOf · d.bit) (State.rd_wr_ne _ F.PWR_STATUS_rung F.PWR_DOMAINS_on r (by decide))
  unfold State.atRung
  simp only [target]
  split
  · obtain ⟨rests, here, -, domains, -⟩ := (s.wr F.PWR_STATUS_rung r).endMove_rests queued woken
    exact ⟨here.trans rung, rests, fun d => (domains d).trans (on d)⟩
  · exact ⟨rung, (State.rd_wr_ne _ _ _ _ (by decide)).trans moving, on⟩

/-! What a step does before its rung (R454). -/

theorem State.closeBypass_kept (s : State) : Kept ladderFlds s s.closeBypass := by
  have down (u : State) (f : Fld) (i : Nat) (apart : ∀ g ∈ ladderFlds, f.key ≠ g.key) : Kept ladderFlds u (u.lineDown f i) :=
    .ite ((Kept.wr 0 apart).then (.of_in (State.ringEvt_in _ i) (by decide))) (.wr 0 apart)
  let lines := ((s.wr F.RING_STATUS_bypass 1).lineDown F.RING_STATUS_link_e 0).lineDown F.RING_STATUS_link_w 1
  have fallen : Kept ladderFlds s lines :=
    ((Kept.wr 1 (by decide)).then (down _ _ 0 (by decide))).then (down _ _ 1 (by decide))
  unfold State.closeBypass
  refine .ite .rfl (Kept.then (Kept.then ?_ (.of_in (State.ringEvt_in _ 10) (by decide))) (.of_in (State.setCal_in _ 0) (by decide)))
  exact fallen.same (Eq.refl _)

theorem State.quitRole_kept (s : State) (cause : Nat) : Kept ladderFlds s (s.quitRole cause) := by
  have left : Kept ladderFlds s (if s.isActive then s.abdicate cause else s.leaveTracking 13) :=
    .ite (.of_in (s.abdicate_in cause) (by decide)) (.of_in (s.leaveTracking_in 13) (by decide))
  have unarmed := left.then (Kept.wr (g := F.TURN_WDOG_armed) 0 (by decide))
  unfold State.quitRole
  extract_lets u v
  have unarmed : Kept ladderFlds s v := unarmed
  clear_value v
  refine .ite ((unarmed.then (.of_in (v.setPlyState_in 0) (by decide))).then (Kept.wr (g := F.PLY_JOIN_phase) 0 (by decide))) unarmed

/-- The module leaves its role, or closes its bypass, as the step asks. -/
def State.beforeDown (s : State) (r : Nat) : State := if r = 1 then s.quitRole 8 else if r = 2 then s.closeBypass else s

theorem State.beforeDown_kept (s : State) (r : Nat) : Kept ladderFlds s (s.beforeDown r) :=
  .ite (s.quitRole_kept 8) (.ite s.closeBypass_kept .rfl)

theorem State.beforeDown_pwr (s : State) (r : Nat) : (s.beforeDown r).pwr = s.pwr := by
  unfold State.beforeDown
  split
  · exact (s.quitRole_keeps 8).parts .pwr (by decide)
  · split
    · exact s.closeBypass_keeps.parts .pwr (by decide)
    · rfl

/-- The retained variables are flushed where the step goes on to Becalmed. -/
def State.flushDown (s : State) (r : Nat) : State := if r = 2 ∧ 4 ≤ s.rd F.PWR_STATUS_target then s.startFlush else s

theorem State.flushDown_kept (s : State) (r : Nat) : Kept ladderFlds s (s.flushDown r) :=
  .ite (.of_in s.startFlush_in (by decide)) .rfl

theorem State.flushDown_pwr (s : State) (r : Nat) : (s.flushDown r).pwr = s.pwr := by
  unfold State.flushDown
  split
  · exact s.startFlush_keeps.parts .pwr (by decide)
  · rfl

theorem State.stepDown_eq {s : State} {r : Nat} (may : r = 3 → s.tasks.flushing = none ∧ s.hop.writing = false) :
    s.stepDown r = (((s.beforeDown r).turnOffTo (rungDomains (r + 1))).flushDown r).atRung (r + 1) := by
  unfold State.stepDown
  refine if_neg ?_
  rintro ⟨rung, waits⟩
  obtain ⟨idle, written⟩ := may rung
  simp [idle, written] at waits

theorem State.stepDown_steps {s : State} {r : Nat} (small : r + 1 < 8) (moving : s.rd F.PWR_STATUS_moving = 1)
    (queued : s.pwr.queued = none) (woken : s.pwr.wakeFrom = none)
    (may : r = 3 → s.tasks.flushing = none ∧ s.hop.writing = false) :
    (s.stepDown r).rd F.PWR_STATUS_rung = r + 1 ∧
      (s.stepDown r).rd F.PWR_STATUS_moving = (if s.rd F.PWR_STATUS_target = r + 1 then 0 else 1) ∧
      ∀ d : Pd, (s.stepDown r).pd d = (s.pd d && bitOf (rungDomains (r + 1)) d.bit) := by
  rw [s.stepDown_eq may]
  have before := s.beforeDown_kept r
  have pwr := s.beforeDown_pwr r
  generalize s.beforeDown r = u at before pwr
  have off := u.turnOffTo_kept (rungDomains (r + 1))
  have pwrOff : (u.turnOffTo (rungDomains (r + 1))).pwr = u.pwr := (u.turnOffTo_keeps _).parts .pwr (by decide)
  have domains := u.turnOffTo_pd (rungDomains (r + 1))
  generalize u.turnOffTo (rungDomains (r + 1)) = v at off pwrOff domains
  have last := v.flushDown_kept r
  have pwrLast := v.flushDown_pwr r
  generalize v.flushDown r = w at last pwrLast
  have same : w.pwr = s.pwr := pwrLast.trans (pwrOff.trans pwr)
  have target : w.rd F.PWR_STATUS_target = s.rd F.PWR_STATUS_target :=
    last.target.trans ((off _ (by decide)).trans before.target)
  obtain ⟨rung, moves, on⟩ := w.atRung_rests small (by rw [same, queued]) (by rw [same, woken])
    (last.moving.trans ((off _ (by decide)).trans (before.moving.trans moving)))
  refine ⟨rung, by rw [moves, target], fun d => ?_⟩
  rw [on, last.pd d (by decide), domains, before.pd d (by decide)]

/-! A step up (R452, R464). -/

/-- Only the miller's own domain starts its firmware. -/
theorem State.gain_fw (s : State) {d : Pd} (other : d ≠ .miller) : (s.gain d).fw = s.fw := by
  cases d with
  | miller => exact absurd rfl other
  | brake => exact s.gainBrake_keeps.parts .fw (by decide)
  | bins => exact s.gainBins_keeps.parts .fw (by decide)
  | hostsvc => exact s.startHost_keeps.parts .fw (by decide)
  | skein => exact s.startSkein_keeps.parts .fw (by decide)
  | _ => rfl

theorem State.turnOn_fw {s : State} (miller : s.pd .miller = true) (d : Pd) : (s.turnOn d).fw = s.fw := by
  unfold State.turnOn
  split
  · rfl
  · next off =>
    have other : d ≠ .miller := fun same => off (same ▸ miller)
    exact State.gain_fw _ other

theorem foldl_turnOn_fw (l : List Pd) {s : State} (miller : s.pd .miller = true) : (l.foldl State.turnOn s).fw = s.fw := by
  induction l generalizing s with
  | nil => rfl
  | cons d l ih =>
    rw [List.foldl_cons, ih (by rw [State.turnOn_pd, miller, Bool.true_or]), State.turnOn_fw miller]

/-- An abdicated module whose control domains are on again enters STARTING. -/
def State.afterOn (s : State) (was : Bool) : State :=
  (if !was && s.pd .skein && s.plyState == 6 then (s.wr F.PLY_STATUS_abd_out 0).setPlyState 0 else s).decideRole

theorem State.afterOn_kept (s : State) (was : Bool) : Kept ladderFlds s (s.afterOn was) := by
  refine Kept.then (.ite (Kept.then (Kept.wr (g := F.PLY_STATUS_abd_out) 0 (by decide)) (.of_in (State.setPlyState_in _ 0) (by decide))) .rfl)
    (.of_in (State.decideRole_in _) (by decide))

theorem State.afterOn_keeps (s : State) (was : Bool) : (s.afterOn was).fw = s.fw ∧ (s.afterOn was).pwr = s.pwr := by
  unfold State.afterOn
  rw [(State.decideRole_keeps _).parts .fw (by decide), (State.decideRole_keeps _).parts .pwr (by decide)]
  split
  · exact ⟨(State.setPlyState_keeps _ 0).parts .fw (by decide), (State.setPlyState_keeps _ 0).parts .pwr (by decide)⟩
  · exact ⟨rfl, rfl⟩

theorem State.turnOnTo_eq (s : State) (mask : Nat) :
    s.turnOnTo mask = ((pdOrder.filter (fun d => bitOf mask d.bit)).foldl State.turnOn s).afterOn (s.pd .skein) := rfl

theorem State.turnOnTo_kept (s : State) (mask : Nat) : ∀ f ∈ [F.PWR_STATUS_rung, F.PWR_STATUS_target, F.PWR_STATUS_moving],
    (s.turnOnTo mask).rd f = s.rd f := by
  have on : Kept besideDomains s ((pdOrder.filter (fun d => bitOf mask d.bit)).foldl State.turnOn s) :=
    Kept.foldl _ fun u d _ => u.turnOn_kept d
  rw [s.turnOnTo_eq]
  exact (on.sub (by decide)).then ((State.afterOn_kept _ _).sub (by decide))

theorem State.turnOnTo_pd (s : State) (mask : Nat) (d : Pd) : (s.turnOnTo mask).pd d = (s.pd d || bitOf mask d.bit) := by
  rw [s.turnOnTo_eq, (State.afterOn_kept _ _).pd d (by decide), foldl_turnOn_pd]
  simp [mem_pdOrder]

theorem State.turnOnTo_fw {s : State} (miller : s.pd .miller = true) (mask : Nat) : (s.turnOnTo mask).fw = s.fw := by
  rw [s.turnOnTo_eq, (State.afterOn_keeps _ _).1, foldl_turnOn_fw _ miller]

theorem State.stepUp_steps {s : State} {r : Nat} (positive : 0 < r) (small : r ≤ 4) (moving : s.rd F.PWR_STATUS_moving = 1)
    (queued : s.pwr.queued = none) (woken : s.pwr.wakeFrom = none) (charged : r = 2 → s.rd F.PWR_STATUS_holdup_ok = 1)
    (miller : s.pd .miller = true) (normal : s.fw.recovery = false) :
    (s.stepUp r).rd F.PWR_STATUS_rung = r - 1 ∧
      (s.stepUp r).rd F.PWR_STATUS_moving = (if s.rd F.PWR_STATUS_target = r - 1 then 0 else 1) ∧
      ∀ d : Pd, (s.stepUp r).pd d = (s.pd d || bitOf (rungDomains (r - 1)) d.bit) := by
  have go : ¬(r = 2 ∧ (!s.on F.PWR_STATUS_holdup_ok) = true) := fun h => by simp [State.on, charged h.1] at h
  have same : s.stepUp r = (s.turnOnTo (rungDomains (r - 1))).atRung (r - 1) := by
    unfold State.stepUp
    rw [if_neg go]
    simp only
    rw [State.turnOnTo_fw miller, if_neg (by simp [normal])]
  rw [same]
  have kept := s.turnOnTo_kept (rungDomains (r - 1))
  have pwr : (s.turnOnTo (rungDomains (r - 1))).pwr = s.pwr := (s.turnOnTo_keeps _).parts .pwr (by decide)
  obtain ⟨rung, moves, on⟩ := (s.turnOnTo (rungDomains (r - 1))).atRung_rests (r := r - 1) (by omega) (by rw [pwr, queued])
    (by rw [pwr, woken]) ((kept _ (by decide)).trans moving)
  refine ⟨rung, by rw [moves, kept _ (by decide)], fun d => ?_⟩
  rw [on, s.turnOnTo_pd]

end Sys2Proof.Machine

/-! PROOFS. O38: what the ladder's commands do, and the obligation. -/

namespace Sys2Proof.Machine

/-- The end of a change takes back no event, whatever waited for it. -/
theorem State.endMove_stay (s : State) : BitsStay F.PWR_EVT_evt s s.endMove := by
  unfold State.endMove
  extract_lets p u v
  have ended : BitsStay F.PWR_EVT_evt s v :=
    ((BitsStay.of_eq (s := s) (t := u) (Eq.refl _)).wr_ne (g := F.PWR_STATUS_moving) 0 (by decide)).trans (State.pwrEvt_stay _ 0)
  clear_value v
  refine ended.trans ?_
  split
  · exact .ite (v.wakeTo_stay _ 0) .rfl
  · exact v.requestRung_stay _
  · exact .rfl

theorem rungStepDone_steps {s : State} (moving : s.rd F.PWR_STATUS_moving = 1) (queued : s.pwr.queued = none)
    (woken : s.pwr.wakeFrom = none) :
    let r := s.rd F.PWR_STATUS_rung
    let target := s.rd F.PWR_STATUS_target
    (r < target → target < 8 → (r = 3 → s.tasks.flushing = none ∧ s.hop.writing = false) → Does .rungStepDone s (fun t =>
        t.rd F.PWR_STATUS_rung = r + 1 ∧ t.rd F.PWR_STATUS_moving = (if target = r + 1 then 0 else 1) ∧
          ∀ d : Pd, t.pd d = (s.pd d && bitOf (rungDomains (r + 1)) d.bit))) ∧
      (target < r → r ≤ 4 → (r = 2 → s.rd F.PWR_STATUS_holdup_ok = 1) → s.pd .miller = true → s.fw.recovery = false →
        Does .rungStepDone s (fun t => t.rd F.PWR_STATUS_rung = r - 1 ∧
          t.rd F.PWR_STATUS_moving = (if target = r - 1 then 0 else 1) ∧
          ∀ d : Pd, t.pd d = (s.pd d || bitOf (rungDomains (r - 1)) d.bit))) ∧
      (target = r → Does .rungStepDone s (fun t => t.rd F.PWR_STATUS_rung = r ∧ t.rd F.PWR_STATUS_moving = 0)) := by
  intro r target
  have moves : ¬((!s.on F.PWR_STATUS_moving) = true) := by simp [State.on, moving]
  refine ⟨fun down small may => ⟨s.stepDown r, (if_neg moves).trans (if_pos down), State.stepDown_steps (by omega) moving queued woken may⟩,
    fun up low charged miller normal => ⟨s.stepUp r, (if_neg moves).trans ((if_neg (Nat.lt_asymm up)).trans (if_pos up)),
      State.stepUp_steps (by omega) low moving queued woken charged miller normal⟩, fun here => ?_⟩
  have level : ¬r < target ∧ ¬target < r := by omega
  obtain ⟨rests, rung, -⟩ := State.endMove_rests queued woken
  exact ⟨s.endMove, (if_neg moves).trans ((if_neg level.1).trans (if_neg level.2)), rung, rests⟩

/-! Wakes (R456). -/

theorem wakesFrom_any {n r : Nat} (other : n ∉ [0, 2, 6]) (low : 1 ≤ r) (high : r ≤ 6) : wakesFrom n r = true := by
  simp only [List.mem_cons, List.not_mem_nil, or_false, not_or] at other
  obtain ⟨zero, two, six⟩ := other
  unfold wakesFrom
  split
  · exact absurd rfl zero
  · exact absurd rfl two
  · exact absurd rfl six
  · simp [low, high]

theorem wakeSources_wake {s : State} (rests : s.rd F.PWR_STATUS_moving = 0) (low : 1 ≤ s.rd F.PWR_STATUS_rung)
    (high : s.rd F.PWR_STATUS_rung ≤ 6) :
    Does .serviceButtonPress s (fun t => WakesUp t 1) ∧
      (s.pwr.keepAlarm ≠ 0 → s.pwr.keepAlarm ≤ s.keepSecond → bitOf (s.act F.PWR_CTRL_wake_en) 3 = true →
        Does .keepAlarmFire s (fun t => WakesUp t 5)) ∧
      (bitOf (s.act F.PWR_CTRL_wake_en) 2 = true → Does .partnerSilentWake s (fun t => WakesUp t 4 ∧
        t.rd F.PLY_STATUS_tok_in = 0)) := by
  refine ⟨⟨s.wake 1, rfl, State.wake_wakes rfl rests low (wakesFrom_any (by decide) low high) (by decide)⟩,
    fun set due enabled => ⟨s.wake 5, congrArg ok (if_neg ?_), State.wake_wakes ?_ rests low (wakesFrom_any (by decide) low high) (by decide)⟩,
    fun enabled => ?_⟩
  · simp [set, Nat.not_lt.2 due]
  · simp [State.wakeEnabled, enabled]
  · have same {f : Fld} (ne : F.PLY_STATUS_tok_in.key ≠ f.key) : (s.wr F.PLY_STATUS_tok_in 0).rd f = s.rd f := State.rd_wr_ne _ _ _ _ ne
    have works := wakesFrom_any (n := 4) (by decide) low high
    rw [← same (f := F.PWR_STATUS_rung) (by decide)] at low works
    rw [← same (f := F.PWR_STATUS_moving) (by decide)] at rests
    have may : (s.wr F.PLY_STATUS_tok_in 0).wakeEnabled 4 = true := by
      unfold State.wakeEnabled
      rw [Bool.or_eq_true]
      exact Or.inr enabled
    refine ⟨(s.wr F.PLY_STATUS_tok_in 0).wake 4, rfl, State.wake_wakes may rests low works (by decide), ?_⟩
    have goes : (s.wr F.PLY_STATUS_tok_in 0).wake 4 = ((s.wr F.PLY_STATUS_tok_in 0).wakeNoted 4).startRung 0 := by
      unfold State.wake
      rw [if_neg (by simp [may]), if_neg (by simp [State.on, rests]), if_pos works]
      rfl
    rw [goes, State.startRung_rd _ _ (by decide), State.wakeNoted_rd _ _ (by decide), State.rd_wr_ne _ _ _ _ (by decide),
      State.rd_wr_ne _ _ _ _ (by decide)]
    exact State.rd_wr_same _ F.PLY_STATUS_tok_in 0

/-! The holdup store and the cell (R464, R467). -/

/-- A module held at Reefed goes on to a rung. -/
def State.goOnTo (s : State) (up : Nat) : State :=
  if s.on F.PWR_STATUS_moving || s.rd F.PWR_STATUS_rung ≤ up then s else s.startRung up

theorem State.goOnTo_goes {s : State} {up : Nat} (rests : s.rd F.PWR_STATUS_moving = 0) (below : up < s.rd F.PWR_STATUS_rung)
    (small : up < 8) : (s.goOnTo up).rd F.PWR_STATUS_target = up ∧ (s.goOnTo up).rd F.PWR_STATUS_moving = 1 := by
  unfold State.goOnTo
  rw [if_neg (by simp [State.on, rests, below])]
  exact s.startRung_shows (by omega) small

theorem State.goOnTo_holdup (s : State) (up : Nat) : (s.goOnTo up).rd F.PWR_STATUS_holdup_ok = s.rd F.PWR_STATUS_holdup_ok := by
  unfold State.goOnTo
  split
  · rfl
  · exact s.startRung_rd up (by decide)

/-- The store is charged, and nothing waits for it any more. -/
def State.charged (s : State) : State :=
  { s.wr F.PWR_STATUS_holdup_ok 1 with pwr := { s.pwr with wantUp := none } }

theorem State.charged_rd (s : State) {f : Fld} (ne : F.PWR_STATUS_holdup_ok.key ≠ f.key) : s.charged.rd f = s.rd f :=
  State.rd_wr_ne s _ _ 1 ne

theorem holdupCharged_goes (s : State) : Does .holdupCharged s (fun t => t.rd F.PWR_STATUS_holdup_ok = 1 ∧
      ∀ up, s.pwr.wantUp = some up → s.rd F.PWR_STATUS_moving = 0 → up < s.rd F.PWR_STATUS_rung → up < 8 →
        t.rd F.PWR_STATUS_target = up ∧ t.rd F.PWR_STATUS_moving = 1) := by
  have full : (s.wr F.PWR_STATUS_holdup_ok 1).rd F.PWR_STATUS_holdup_ok = 1 := State.rd_wr_same _ F.PWR_STATUS_holdup_ok 1
  change ∃ t, execHoldupCharged s = _ ∧ _
  cases want : s.pwr.wantUp with
  | none =>
    have runs : execHoldupCharged s = ok (s.wr F.PWR_STATUS_holdup_ok 1) := by simp [execHoldupCharged, want]
    exact ⟨_, runs, full, fun up h => nomatch h⟩
  | some up =>
    have runs : execHoldupCharged s = ok (s.charged.goOnTo up) := by
      simp only [execHoldupCharged, State.wr_pwr, want]
      exact (apply_ite ok _ _ _).symm
    refine ⟨_, runs, (State.goOnTo_holdup _ _).trans full, fun x is rests below small => ?_⟩
    obtain rfl := Option.some.inj is
    exact State.goOnTo_goes (by rwa [State.charged_rd _ (by decide)]) (by rwa [State.charged_rd _ (by decide)]) small

theorem holdupTimeout_waits {s : State} (empty : s.rd F.PWR_STATUS_holdup_ok = 0) : Does .holdupTimeout s (fun t => PowerRaised t 5 ∧
      (s.rd F.PWR_STATUS_moving = 1 → s.rd F.PWR_STATUS_rung = 2 → s.rd F.PWR_STATUS_target < 2 → s.pwr.queued = none →
        s.pwr.wakeFrom = none → t.pwr.wantUp = some (s.rd F.PWR_STATUS_target) ∧ t.rd F.PWR_STATUS_target = 2 ∧
          t.rd F.PWR_STATUS_moving = 0)) := by
  have kept := s.pwrEvt_kept 5
  have pwr := s.pwrEvt_pwr 5
  have raised := s.pwrEvt_raised (i := 5) (by decide)
  have runs : exec .holdupTimeout s = .next (if ((s.pwrEvt 5).on F.PWR_STATUS_moving && (s.pwrEvt 5).rd F.PWR_STATUS_rung == 2 &&
      (s.pwrEvt 5).rd F.PWR_STATUS_target < 2) = true then
        (({ s.pwrEvt 5 with pwr := { (s.pwrEvt 5).pwr with wantUp := some ((s.pwrEvt 5).rd F.PWR_STATUS_target) } }).wr
          F.PWR_STATUS_target 2).endMove
      else s.pwrEvt 5) := by
    refine (if_neg (by simp [State.on, empty])).trans ?_
    exact (apply_ite ok _ _ _).symm
  refine ⟨_, runs, ?_⟩
  generalize s.pwrEvt 5 = u at kept pwr raised
  split
  · next held =>
    generalize hv : ({ u with pwr := { u.pwr with wantUp := some (u.rd F.PWR_STATUS_target) } } : State) = v
    have regs (f : Fld) : v.rd f = u.rd f := by subst hv; rfl
    refine ⟨?_, fun moving rung low queued woken => ?_⟩
    · have set : BitsStay F.PWR_EVT_evt u (v.wr F.PWR_STATUS_target 2).endMove :=
        ((BitsStay.of_eq (regs _)).wr_ne 2 (by decide)).trans (State.endMove_stay _)
      exact set 5 (by decide) raised
    · have vq : v.pwr.queued = none := by subst hv; rw [← queued, ← pwr]
      have vw : v.pwr.wakeFrom = none := by subst hv; rw [← woken, ← pwr]
      have want : v.pwr.wantUp = some (s.rd F.PWR_STATUS_target) := by subst hv; rw [← kept.target]
      obtain ⟨rests, -, aim, -, wish⟩ := (v.wr F.PWR_STATUS_target 2).endMove_rests vq vw
      exact ⟨wish.trans want, aim.trans (State.rd_wr_same _ F.PWR_STATUS_target 2), rests⟩
  · next free =>
    refine ⟨raised, fun moving rung low _ _ => absurd ?_ free⟩
    simp [State.on, kept.moving, kept.rung, kept.target, moving, rung, low]

theorem holdupLow_shows (s : State) : Does .holdupLow s (fun t => t.rd F.PWR_STATUS_holdup_ok = 0 ∧ PowerRaised t 5 ∧
    t.rd F.PWR_STATUS_rung = s.rd F.PWR_STATUS_rung) := by
  have kept := (s.wr F.PWR_STATUS_holdup_ok 0).pwrEvt_kept 5
  exact ⟨_, rfl, kept.holdup.trans (State.rd_wr_same _ F.PWR_STATUS_holdup_ok 0), State.pwrEvt_raised _ (by decide),
    kept.rung.trans (State.rd_wr_ne _ _ _ _ (by decide))⟩

theorem cellLow_shows (s : State) : Does .cellLow s (fun t => t.rd F.PWR_STATUS_cell_low = 1 ∧ t.rd F.PWR_SUPPLY_cell_mv < 2700 ∧
    PowerRaised t 4) := by
  refine ⟨((s.free.2.wr F.PWR_SUPPLY_cell_mv (s.free.1 % 2700)).wr F.PWR_STATUS_cell_low 1).pwrEvt 4, rfl, ?_, ?_,
    State.pwrEvt_raised _ (by decide)⟩
  · obtain ⟨low, apart⟩ := ladder_besideEvt F.PWR_STATUS_cell_low (by decide)
    rw [State.pwrEvt_rd _ 4 low apart, State.rd_wr_same _ F.PWR_STATUS_cell_low 1]
    rfl
  · obtain ⟨low, apart⟩ := ladder_besideEvt F.PWR_SUPPLY_cell_mv (by decide)
    rw [State.pwrEvt_rd _ 4 low apart, State.rd_wr_ne _ _ _ _ (by decide), State.rd_wr_same _ F.PWR_SUPPLY_cell_mv _]
    exact Nat.lt_of_le_of_lt (Nat.mod_le _ _) (Nat.mod_lt _ (by decide))

/-- Settles O38: requests, rung steps, wakes and the holdup store move the ladder as they say. -/
theorem powerLadder : Obligations.PowerLadder := by
  intro s
  refine ⟨fun on v go => ?_, rungStepDone_steps, wakeSources_wake, fun early => ⟨s, congrArg ok (if_pos ?_), rfl⟩,
    fun moving => ⟨s.wake 1, rfl, ?_⟩, holdupCharged_goes s, holdupTimeout_waits, holdupLow_shows s, cellLow_shows s⟩
  · obtain ⟨waits, judged⟩ := pwrReqGo_judged on go
    exact ⟨waits, fun rests => ⟨_, judged rests, State.requestRung_judged rests (Nat.mod_lt _ (by decide))⟩⟩
  · simp [early]
  · unfold State.wake
    rw [if_neg (by simp [State.wakeEnabled]), if_pos (by simp [State.on, moving])]

end Sys2Proof.Machine

/-! PROOFS. LOCAL and the list of automatic restarts through a change of roles and a warm reset (R285, R461, R465). -/

namespace Sys2Proof.Machine

/-- LOCAL and the hour's automatic restarts are the same in two states. -/
def SameClock (s t : State) : Prop := t.time.ticks = s.time.ticks ∧ t.ply.restarts = s.ply.restarts

section
variable {s t u : State}

theorem SameClock.rfl : SameClock s s := ⟨Eq.refl _, Eq.refl _⟩

theorem SameClock.then (h : SameClock s t) (g : SameClock t u) : SameClock s u := ⟨g.1.trans h.1, g.2.trans h.2⟩

theorem SameClock.ite {c : Prop} [Decidable c] (h : SameClock s t) (g : SameClock s u) : SameClock s (if c then t else u) := by
  split <;> assumption

theorem SameClock.foldl {α : Type} {f : State → α → State} (l : List α) (step : ∀ u a, SameClock u (f u a)) :
    SameClock s (l.foldl f s) := by
  induction l generalizing s with
  | nil => exact .rfl
  | cons a l ih => exact (step s a).then ih

theorem SameClock.of_keeps {A : List Part} (h : Keeps A s t) (apart : Part.time ∉ A ∧ Part.ply ∉ A) : SameClock s t :=
  ⟨congrArg TimeSt.ticks (h.parts .time apart.1), congrArg PlySt.restarts (h.parts .ply apart.2)⟩

end

/-! A row of the brake matrix. -/

theorem State.stampWords_clock (s : State) (f : Nat → Fld) (w : Nat) : SameClock s (s.stampWords f w) :=
  .foldl _ fun _ _ => .rfl

theorem State.stampRow_clock (s : State) (r : Nat) : SameClock s (s.stampRow r) := by
  unfold State.stampRow
  extract_lets u w v
  have counted : SameClock s u := .rfl
  have first : SameClock u v := .ite .rfl (State.stampWords_clock _ _ w)
  clear_value v
  exact .ite counted ((counted.then first).then (State.stampWords_clock _ _ w))

theorem State.setRow_clock (s : State) (r : Nat) (b : Bool) : SameClock s (s.setRow r b) := by
  unfold State.setRow
  extract_lets raw u v old w x y
  have written : SameClock s u := .rfl
  have matrix (z : State) : SameClock z z.evalMatrix := .of_keeps z.evalMatrix_keeps (by decide)
  have stamped : SameClock s v := written.then (u.stampRow_clock r)
  have latched : SameClock s w := by
    refine stamped.then ?_
    exact .ite .rfl .rfl
  have traced : SameClock s x := latched.then (.of_keeps (w.traceBrake_keeps r) (by decide))
  have noted : SameClock s y := (traced.then (matrix x)).then (.of_keeps (State.brkEvt_keeps _ 0) (by decide))
  refine .ite .rfl (.ite (.ite (noted.then (.of_keeps (State.brkEvt_keeps _ 2) (by decide))) noted) (written.then (matrix u)))

theorem State.row19_clock (s : State) : SameClock s s.row19 := s.setRow_clock _ _

/-! The role is left. -/

theorem State.setPlyState_clock (s : State) (n : Nat) : SameClock s (s.setPlyState n) := by
  unfold State.setPlyState
  extract_lets stays u v ply skein w x
  have dropped : SameClock s u := .ite (.of_keeps (s.dropArmed_keeps none) (by decide)) .rfl
  have told : SameClock u v := SameClock.then (t := u.wr F.PLY_STATUS_state n) .rfl (.of_keeps (State.plyEvt_keeps _ 0) (by decide))
  have proxies (y : State) : SameClock y ((upTo 16).foldl (fun s p => s.wr (F.SK_STATUS_proxy p) 0) y) := .foldl _ fun _ _ => .rfl
  have tracked : SameClock v x := .ite .rfl (SameClock.then (t := w) .rfl (proxies w))
  exact .ite .rfl (((dropped.then told).then tracked).then x.row19_clock)

theorem State.stopCommands_clock (s : State) : SameClock s s.stopCommands := by
  unfold State.stopCommands
  extract_lets kept orders u v hop ply w
  have finished : SameClock s u :=
    (SameClock.of_keeps s.finishAcked_keeps (by decide)).then (.of_keeps (State.finish_keeps _ _ _ _ _ _) (by decide))
  have dropped : SameClock u v := .ite .rfl (.of_keeps (u.dropArmed_keeps _) (by decide))
  exact (finished.then dropped).then (SameClock.then (t := w) .rfl (.of_keeps w.hopState_keeps (by decide)))

theorem State.abdicate_clock (s : State) (cause : Nat) : SameClock s (s.abdicate cause) := by
  unfold State.abdicate
  extract_lets u v w ply x y z a
  have shown : SameClock s x := .rfl
  have muted : SameClock x y := .of_keeps (x.setMuted_keeps true) (by decide)
  exact .ite .rfl ((((shown.then muted).then y.stopCommands_clock).then (z.setPlyState_clock 6)).then
    (.of_keeps (a.fireGasp_keeps 58) (by decide)))

theorem State.leaveTracking_clock (s : State) (reason : Nat) : SameClock s (s.leaveTracking reason) := by
  unfold State.leaveTracking
  extract_lets u v ply w
  have shown : SameClock s w := .rfl
  exact .ite .rfl ((shown.then (w.setPlyState_clock 5)).then (.of_keeps (State.plyEvt_keeps _ 3) (by decide)))

theorem State.quitRole_clock (s : State) (cause : Nat) : SameClock s (s.quitRole cause) := by
  unfold State.quitRole
  extract_lets u v w ply
  have left : SameClock s u := .ite (s.abdicate_clock cause) (s.leaveTracking_clock 13)
  have unarmed : SameClock u v := .rfl
  have started : SameClock v w := (v.setPlyState_clock 0).then .rfl
  exact (left.then unarmed).then (.ite (started.then .rfl) .rfl)

/-! The bypass closes. -/

theorem State.toHoldover_clock (s : State) (d : Domain) : SameClock s (s.toHoldover d) := by
  have set (x : TimeDom) : SameClock s (s.setDom d x) := by
    unfold State.setDom
    exact .ite .rfl .rfl
  have auto_ (y : State) : SameClock y y.autoSwitch := by
    have sent (z : State) (c : OrderContent) (b : Nat) : SameClock z (z.sendOrder 4 b 0 c) := by
      unfold State.sendOrder
      exact .ite .rfl .rfl
    unfold State.autoSwitch
    exact .ite .rfl (.ite .rfl (SameClock.then .rfl (sent _ _ _)))
  have state (y : State) : SameClock y (y.setDomState d 3) := by
    unfold State.setDomState
    extract_lets was u v w
    have told : SameClock u v := (SameClock.of_keeps (u.timeEvt_keeps _) (by decide)).then (.of_keeps (State.workRegs_keeps _) (by decide))
    have same : w = v := if_neg (by simp)
    rw [same]
    exact .ite .rfl ((SameClock.then (t := u) .rfl told).then (auto_ v))
  exact .ite ((set _).then (state _)) .rfl

theorem State.setCal_clock (s : State) : SameClock s (s.setCal 0) := by
  have told (y : State) (i : Nat) : SameClock y (y.timeEvt i) := .of_keeps (y.timeEvt_keeps i) (by decide)
  unfold State.setCal
  extract_lets was u
  have shown : SameClock s u := .rfl
  exact .ite .rfl (.ite (shown.then (told u 9)) (.ite
    (((shown.then (told u 10)).then (State.toHoldover_clock _ .a)).then (State.toHoldover_clock _ .b)) shown))

theorem State.closeBypass_clock (s : State) : SameClock s s.closeBypass := by
  have told (y : State) (i : Nat) : SameClock y (y.ringEvt i) := .of_keeps (y.ringEvt_keeps i) (by decide)
  have down (y : State) (f : Fld) (i : Nat) : SameClock y (y.lineDown f i) :=
    .ite (SameClock.then (t := y.wr f 0) .rfl (told _ i)) .rfl
  have marks (y : State) (east : Bool) : SameClock y (y.dropMarks east) := .ite .rfl .rfl
  unfold State.closeBypass
  extract_lets u fall v ring w
  have closed : SameClock s u := .rfl
  have fallen : SameClock u v := (down u F.RING_STATUS_link_e 0).then (down _ F.RING_STATUS_link_w 1)
  have listens : SameClock v w := .rfl
  clear_value w
  exact .ite .rfl (((((closed.then fallen).then listens).then (marks w true)).then (marks _ false)).then (told _ 10) |>.then
    (State.setCal_clock _))

/-! The role is decided anew. -/

theorem State.sendJoin_clock (s : State) : SameClock s s.sendJoin := by
  unfold State.sendJoin State.sendPly
  exact .ite .rfl .rfl

theorem State.decideRole_clock (s : State) : SameClock s s.decideRole := by
  have joins : SameClock s s.beginJoin := by
    unfold State.beginJoin
    extract_lets u v ply w
    have joining : SameClock s u := (s.setPlyState_clock 3).then .rfl
    have counted : SameClock u w := .rfl
    exact (joining.then counted).then w.sendJoin_clock
  have lone : SameClock s s.becomeLone := by
    unfold State.becomeLone
    extract_lets e brake u ply v w
    have active : SameClock s u := SameClock.then (t := s.wr F.PLY_EPOCH_epoch (e + 1)) .rfl (State.setPlyState_clock _ 1)
    have beats : SameClock v w := (SameClock.of_keeps (v.setMuted_keeps false) (by decide)).then
      (.of_keeps (State.queueHeartbeat_keeps _) (by decide))
    refine .ite (SameClock.then ?_ (State.row19_clock _)) (((active.then (SameClock.rfl (s := u))).then ?_).then
      (.of_keeps (State.restoreRetained_keeps _) (by decide)))
    · exact .rfl
    · exact SameClock.then (t := v) .rfl (beats.then .rfl)
  unfold State.decideRole
  refine .ite .rfl ?_
  split
  · exact joins
  · exact joins
  · exact .ite lone .rfl
  · exact .rfl

end Sys2Proof.Machine

/-! PROOFS. The warm reset, stage by stage: what each stage leaves as it is (R461, R462, R465). -/

namespace Sys2Proof.Machine

/-- The role is left, and a LONE module's armed commit is dropped. -/
def State.roleLeft (s : State) : State :=
  (if s.isActive && !s.partnerStandby then s.dropArmed (some (7, 0)) else s).quitRole 8

/-- The work in progress is abandoned. -/
def State.workLeft (s : State) : State :=
  (((s.closeBypass.abandonTasks.abandonLoops).loseSlack).idleTraces).brakeLoops (s.brakedLoops s.enabledLoops)

/-- The registers that a warm reset does not keep take their cold values. -/
def State.regsReset (s : State) : State :=
  { s with regs := s.regs.filter (fun e => warmKeeps e.1), seals := [], mill := [], caps := [] }

/-- The hopper, the ply, the firmware work and the host side start anew. -/
def State.unitsReset (s : State) : State := ((s.resetHopper.resetPly).resetFirmware).hostReset false true

/-- The ring listens, and the requests for a reset are over. -/
def State.requestsOver (s : State) : State :=
  { s with
    ring := { s.ring with listening := true, launch := [] }
    pwr := { s.pwr with warmWanted := false, partnerWanted := false, waitHandover := none }
    brake := { s.brake with latched := setBit s.brake.latched 18 false, epochLimit := false } }

/-- The module starts anew in STARTING. -/
def State.startedAnew (s : State) : State :=
  let s := (s.setRow 18 false).restartTasks
  let s := (s.wr F.PLY_STATUS_abd_out 0).setPlyState 0
  (s.row19.evalMatrix).startHost

/-- The cause of the start is shown. -/
def State.causeShown (s : State) (kind : Nat) : State := ((s.wr F.PWR_CAUSE_kind kind).wr F.PWR_CAUSE_from 0).inc F.PWR_CAUSE_warm_count

/-- The state of a warm reset before it decides its role. -/
def State.warmed (s : State) (kind : Nat) : State :=
  let s := s.roleLeft.workLeft.regsReset.unitsReset.requestsOver
  ((if kind = 6 then s.discardControl else s).startedAnew).causeShown kind

theorem State.warmReset_eq (s : State) (kind : Nat) :
    s.warmReset kind = if (s.warmed kind).fw.recovery then (s.warmed kind).enterRecovery else (s.warmed kind).decideRole := by
  unfold State.warmReset
  extract_lets a b braked c d e ring brake pwr f g h i j k
  have role : b = s.roleLeft := rfl
  have work : c = b.workLeft := rfl
  clear_value b
  have regs : d = c.regsReset := rfl
  clear_value c
  have units : e = d.unitsReset := rfl
  clear_value d
  have over_ : f = e.requestsOver := rfl
  have anew : k = (g.startedAnew).causeShown kind := rfl
  have same : k = s.warmed kind := by
    rw [anew, State.warmed, ← role, ← work, ← regs, ← units, ← over_]
  rw [same]

/-! What every stage leaves. -/

theorem State.roleLeft_keeps (s : State) : Keeps [.hop, .skein, .trace, .time, .ply, .rows, .brake, .host, .recorder] s s.roleLeft := by
  have dropped : Keeps [.hop, .skein, .trace, .time, .ply, .rows, .brake, .host, .recorder] s
      (if s.isActive && !s.partnerStandby then s.dropArmed (some (7, 0)) else s) :=
    Keeps.ite (Keeps.next Keeps.rfl (s.dropArmed_keeps _) (by decide)) Keeps.rfl
  exact Keeps.next dropped (State.quitRole_keeps _ 8) (by decide)

theorem State.workLeft_keeps (s : State) : Keeps [.turn, .tasks, .loops, .trace, .ring, .time, .ply, .host, .recorder] s s.workLeft := by
  have closed := Keeps.next (A := [.turn, .tasks, .loops, .trace, .ring, .time, .ply, .host, .recorder]) Keeps.rfl s.closeBypass_keeps
    (by decide)
  have tasks := Keeps.next closed (State.abandonTasks_keeps _) (by decide)
  have loops := Keeps.next tasks (State.abandonLoops_keeps _) (by decide)
  have slack := Keeps.next loops (State.loseSlack_keeps _) (by decide)
  have traces := Keeps.next slack (State.idleTraces_keeps _) (by decide)
  exact Keeps.next traces (State.brakeLoops_keeps _ _) (by decide)

theorem State.unitsReset_keeps (s : State) : Keeps [.settings, .staged, .hop, .progs, .ply, .trace, .host, .fw] s s.unitsReset := by
  have hopper := Keeps.next (A := [.settings, .staged, .hop, .progs, .ply, .trace, .host, .fw]) Keeps.rfl s.resetHopper_keeps (by decide)
  have ply := Keeps.next hopper (State.resetPly_keeps _) (by decide)
  have firmware := Keeps.next ply (State.resetFirmware_keeps _) (by decide)
  exact Keeps.next firmware (State.hostReset_keeps _ _ _) (by decide)

theorem State.startedAnew_keeps (s : State) :
    Keeps [.hop, .skein, .tasks, .trace, .time, .ply, .rows, .brake, .host, .recorder] s s.startedAnew := by
  have row := Keeps.next (A := [.hop, .skein, .tasks, .trace, .time, .ply, .rows, .brake, .host, .recorder]) Keeps.rfl
    (s.setRow_keeps 18 false) (by decide)
  have tasks := Keeps.next row (State.restartTasks_keeps _) (by decide)
  have line := Keeps.next tasks (State.wr_keeps _ F.PLY_STATUS_abd_out 0) (by decide)
  have role := Keeps.next line (State.setPlyState_keeps _ 0) (by decide)
  have matrix := Keeps.next (Keeps.next role (State.row19_keeps _) (by decide)) (State.evalMatrix_keeps _) (by decide)
  exact Keeps.next matrix (State.startHost_keeps _) (by decide)

theorem State.causeShown_keeps (s : State) (kind : Nat) : Keeps [] s (s.causeShown kind) :=
  Keeps.next (Keeps.next (Keeps.next Keeps.rfl (s.wr_keeps _ _) (by decide)) (State.wr_keeps _ _ _) (by decide)) (State.inc_keeps _ _)
    (by decide)

/-! LOCAL and the automatic restarts. -/

theorem State.workLeft_clock (s : State) : SameClock s s.workLeft := by
  have tasks : SameClock s.closeBypass s.closeBypass.abandonTasks := .of_keeps (State.abandonTasks_keeps _) (by decide)
  have loops := tasks.then (.of_keeps (State.abandonLoops_keeps _) (by decide))
  have slack := loops.then (.of_keeps (State.loseSlack_keeps _) (by decide))
  have traces := slack.then (.of_keeps (State.idleTraces_keeps _) (by decide))
  exact s.closeBypass_clock.then (traces.then (.of_keeps (State.brakeLoops_keeps _ _) (by decide)))

theorem State.roleLeft_clock (s : State) : SameClock s s.roleLeft :=
  SameClock.then (.ite (.of_keeps (s.dropArmed_keeps _) (by decide)) .rfl) (State.quitRole_clock _ 8)

theorem State.unitsReset_clock (s : State) : SameClock s s.unitsReset := by
  have hopper : SameClock s s.resetHopper := .of_keeps s.resetHopper_keeps (by decide)
  have ply : SameClock s.resetHopper s.resetHopper.resetPly := ⟨Eq.refl _, Eq.refl _⟩
  have firmware : SameClock s.resetHopper.resetPly s.resetHopper.resetPly.resetFirmware := .of_keeps (State.resetFirmware_keeps _) (by decide)
  exact ((hopper.then ply).then firmware).then (.of_keeps (State.hostReset_keeps _ _ _) (by decide))

theorem State.lossRows_clock (s : State) : SameClock s s.lossRows := .foldl _ fun u _ => u.setRow_clock _ _

theorem State.discardControl_clock (s : State) : SameClock s s.discardControl := by
  unfold State.discardControl
  extract_lets tasks u v w x
  have emptied : SameClock s v := .rfl
  have origin : SameClock v w := .foldl _ fun _ _ => .rfl
  have turns : SameClock w x := .rfl
  exact ((emptied.then origin).then turns).then x.lossRows_clock

theorem State.startedAnew_clock (s : State) : SameClock s s.startedAnew := by
  unfold State.startedAnew
  extract_lets u v
  have row : SameClock s u := (s.setRow_clock 18 false).then .rfl
  have role : SameClock u v := SameClock.then (t := u.wr F.PLY_STATUS_abd_out 0) .rfl (State.setPlyState_clock _ 0)
  exact ((row.then role).then v.row19_clock).then ((SameClock.of_keeps (State.evalMatrix_keeps _) (by decide)).then
    (.of_keeps (State.startHost_keeps _) (by decide)))

theorem State.regsReset_clock (s : State) : SameClock s s.regsReset := ⟨Eq.refl _, Eq.refl _⟩

theorem State.requestsOver_clock (s : State) : SameClock s s.requestsOver := ⟨Eq.refl _, Eq.refl _⟩

theorem State.warmed_clock (s : State) (kind : Nat) : SameClock s (s.warmed kind) := by
  unfold State.warmed
  extract_lets u
  have left : SameClock s s.roleLeft.workLeft := s.roleLeft_clock.then (State.workLeft_clock _)
  have regs : SameClock s s.roleLeft.workLeft.regsReset := left.then (State.regsReset_clock _)
  have units : SameClock s s.roleLeft.workLeft.regsReset.unitsReset := regs.then (State.unitsReset_clock _)
  have ready : SameClock s u := units.then (State.requestsOver_clock _)
  clear_value u
  have control : SameClock u (if kind = 6 then u.discardControl else u) := .ite u.discardControl_clock .rfl
  exact ((ready.then control).then (State.startedAnew_clock _)).then (.of_keeps (State.causeShown_keeps _ kind) (by decide))

end Sys2Proof.Machine

/-! PROOFS. What a warm reset keeps and starts anew (R460 to R462, R465). -/

namespace Sys2Proof.Machine

/-! Registers that the reset keeps. -/

/-- The life cycle and the domains. -/
def warmFlds : List Fld := [F.FW_STATUS_lifecycle, F.PWR_DOMAINS_on]

theorem State.roleLeft_kept (s : State) : Kept ladderFlds s s.roleLeft :=
  Kept.then (.ite (.of_in (s.dropArmed_in _) (by decide)) .rfl) (State.quitRole_kept _ 8)

theorem State.workLeft_kept (s : State) : Kept ladderFlds s s.workLeft := by
  have loops : Kept ladderFlds s s.closeBypass.abandonTasks.abandonLoops := s.closeBypass_kept.same (Eq.refl _)
  unfold State.workLeft
  generalize s.closeBypass.abandonTasks.abandonLoops = u at loops
  exact ((loops.then (u.loseSlack_kept.sub (by decide))).then ((State.idleTraces_kept _).sub (by decide))).same (Eq.refl _)

theorem warmKeeps_flds : ∀ f ∈ warmFlds, warmKeeps f.key = true := by decide +kernel

theorem State.regsReset_kept (s : State) : Kept warmFlds s s.regsReset := fun f hf => s.rd_filter fun _ => warmKeeps_flds f hf

theorem hostRegReset_flds : ∀ f ∈ islandFlds, ∀ lock, hostRegReset lock (f.key / 32) f.key = false := by decide

theorem State.hostReset_kept (s : State) (lock config : Bool) : Kept islandFlds s (s.hostReset lock config) := by
  unfold State.hostReset
  extract_lets h lost cold u streams
  have filtered : Kept islandFlds s u := fun f hf => s.rd_filter fun _ => by simp [hostRegReset_flds f hf]
  have idle : Kept islandFlds u (streams.foldl State.idleGroup u) := Kept.foldl _ fun y g hg => by
    have hg := mem_upTo.1 (List.mem_of_mem_filter hg)
    exact Kept.same (Kept.wr_apart (g := F.TRACE_GSTAT_state g) 0 (by simp [F.TRACE_GSTAT_state])
      (by simp only [F.TRACE_GSTAT_state]; omega)) (Eq.refl _)
  clear_value u
  exact ((filtered.then idle).then (.of_in (State.busyBits_in _) (by decide))).then (State.hostState_kept _)

theorem State.resetHopper_kept (s : State) : Kept islandFlds s s.resetHopper := by
  unfold State.resetHopper
  extract_lets m u hop progs v
  have online : Kept islandFlds s u := .ite (.wr _ (by decide)) .rfl
  have level : Kept islandFlds s v := online.same (Eq.refl _)
  clear_value v
  exact (level.then v.restage_kept).then (State.hopState_kept _)

theorem State.resetPly_regs (s : State) : s.resetPly.regs = s.regs := rfl

theorem State.resetFirmware_kept (s : State) : Kept islandFlds s s.resetFirmware := by
  unfold State.resetFirmware
  extract_lets fw u
  have emptied : Kept islandFlds s u := .same .rfl (Eq.refl _)
  clear_value u
  exact (emptied.then (Kept.wr (g := F.SVC_STATUS_open) 0 (by decide))).then (State.startMiller_kept _ _)

theorem State.beforeMiller_kept (s : State) : Kept warmFlds s s.resetHopper.resetPly :=
  (s.resetHopper_kept.sub (by decide)).same (State.resetPly_regs _)

theorem State.unitsReset_kept (s : State) : Kept warmFlds s s.unitsReset :=
  (s.beforeMiller_kept.then ((State.resetFirmware_kept _).sub (by decide))).then ((State.hostReset_kept _ _ _).sub (by decide))

theorem State.discardControl_kept (s : State) : Kept warmFlds s s.discardControl := by
  unfold State.discardControl
  extract_lets tasks u v w x
  have emptied : Kept warmFlds s u := .same .rfl (Eq.refl _)
  have stopped : Kept warmFlds u v := (Kept.wr (g := F.TURN_STATUS_running) 0 (by decide)).then (.wr 0 (by decide))
  have origin : Kept warmFlds v w := Kept.foldl _ fun y i hi => .wr 0 (by
    have hi := mem_upTo.1 hi
    have at_ : ∀ i < 4, ∀ f ∈ warmFlds, (F.TURN_ORIGIN_origin i).key ≠ f.key := by decide
    exact at_ i hi)
  have turns : Kept warmFlds w x := (Kept.wr (g := F.ORIGIN_TURN_LO_k_origin) 0 (by decide)).then (.wr 0 (by decide))
  exact (((emptied.then stopped).then origin).then turns).then (.of_in x.lossRows_in (by decide))

theorem State.startedAnew_kept (s : State) : Kept ladderFlds s s.startedAnew := by
  unfold State.startedAnew
  extract_lets u v
  have row : Kept ladderFlds s u := ((s.setRow_kept false (by decide)).sub (by decide)).same (Eq.refl _)
  have role : Kept ladderFlds u v := (Kept.wr (g := F.PLY_STATUS_abd_out) 0 (by decide)).then (.of_in (State.setPlyState_in _ 0) (by decide))
  have matrix : Kept ladderFlds v v.row19.evalMatrix := (v.row19_kept.then (State.evalMatrix_kept _)).sub (by decide)
  exact ((row.then role).then matrix).then ((State.startHost_kept _).sub (by decide))

theorem State.causeShown_kept (s : State) (kind : Nat) : Kept warmFlds s (s.causeShown kind) :=
  ((Kept.wr (g := F.PWR_CAUSE_kind) kind (by decide)).then (Kept.wr (g := F.PWR_CAUSE_from) 0 (by decide))).then
    (Kept.wr (g := F.PWR_CAUSE_warm_count) _ (by decide))

theorem State.causeShown_shows (s : State) {kind : Nat} (small : kind < 16) :
    (s.causeShown kind).rd F.PWR_CAUSE_kind = kind ∧ (s.causeShown kind).rd F.PWR_CAUSE_from = 0 := by
  unfold State.causeShown State.inc
  rw [State.rd_add_ne _ _ _ _ (by decide), State.rd_add_ne _ _ _ _ (by decide), State.rd_wr_ne _ _ _ _ (by decide),
    State.rd_wr_same _ F.PWR_CAUSE_kind kind, State.rd_wr_same _ F.PWR_CAUSE_from 0]
  exact ⟨Nat.mod_eq_of_lt small, rfl⟩

/-! The stages put together. -/

/-- The state in which a warm reset starts the module anew. -/
def State.atRestart (s : State) (kind : Nat) : State :=
  let s := s.roleLeft.workLeft.regsReset.unitsReset.requestsOver
  if kind = 6 then s.discardControl else s

theorem State.warmed_eq (s : State) (kind : Nat) : s.warmed kind = ((s.atRestart kind).startedAnew).causeShown kind := by
  unfold State.warmed State.atRestart
  rfl

theorem State.requestsOver_regs (s : State) : s.requestsOver.regs = s.regs := rfl

theorem State.warmed_kept (s : State) (kind : Nat) : Kept warmFlds s (s.warmed kind) := by
  have left : Kept warmFlds s s.roleLeft.workLeft := (s.roleLeft_kept.then (State.workLeft_kept _)).sub (by decide)
  have units : Kept warmFlds s s.roleLeft.workLeft.regsReset.unitsReset :=
    (left.then (State.regsReset_kept _)).then (State.unitsReset_kept _)
  have requests : Kept warmFlds s s.roleLeft.workLeft.regsReset.unitsReset.requestsOver := units.same (State.requestsOver_regs _)
  have ready : Kept warmFlds s (s.atRestart kind) := requests.then (.ite (State.discardControl_kept _) .rfl)
  rw [s.warmed_eq]
  exact (ready.then ((State.startedAnew_kept _).sub (by decide))).then (State.causeShown_kept _ kind)

/-- A part that the new start leaves. -/
theorem State.warmed_part (s : State) (kind : Nat) (p : Part)
    (late : p ∉ [.hop, .skein, .tasks, .trace, .time, .ply, .rows, .brake, .host, .recorder]) : Same p (s.atRestart kind) (s.warmed kind) := by
  rw [s.warmed_eq]
  exact ((State.startedAnew_keeps _).parts p late).trans ((State.causeShown_keeps _ kind).parts p (by simp))

/-- Memory, the image, and the power control's own state: no stage before touches them but for the requests. -/
theorem State.unitsBefore_part (s : State) {p : Part} (hp : p ∈ [.mem, .image, .pwr]) :
    Same p s s.roleLeft.workLeft.regsReset.unitsReset := by
  have beside (A : List Part) (apart : ∀ q ∈ [Part.mem, .image, .pwr], q ∉ A) : p ∉ A := apart p hp
  have role := s.roleLeft_keeps.parts p (beside _ (by decide))
  have work := s.roleLeft.workLeft_keeps.parts p (beside _ (by decide))
  have units := s.roleLeft.workLeft.regsReset.unitsReset_keeps.parts p (beside _ (by decide))
  have regs : Same p s.roleLeft.workLeft s.roleLeft.workLeft.regsReset := by
    generalize s.roleLeft.workLeft = u
    simp only [List.mem_cons, List.not_mem_nil, or_false] at hp
    rcases hp with rfl | rfl | rfl <;> exact Eq.refl _
  exact ((role.trans work).trans regs).trans units

theorem State.discardControl_part (s : State) {p : Part} (hp : p ∈ [.mem, .pwr, .seals, .settings, .fw]) : Same p s s.discardControl :=
  s.discardControl_keeps.parts p
    ((by decide : ∀ q ∈ [Part.mem, .pwr, .seals, .settings, .fw], q ∉ [.forces, .image, .turnNumber, .turn, .skein, .tasks, .loops, .trace, .time,
      .rows, .brake, .host, .recorder]) p hp)

theorem State.atRestart_part (s : State) (kind : Nat) {p : Part} (hp : p ∈ [.mem, .pwr, .seals, .settings, .fw]) :
    Same p s.roleLeft.workLeft.regsReset.unitsReset.requestsOver (s.atRestart kind) := by
  unfold State.atRestart
  generalize s.roleLeft.workLeft.regsReset.unitsReset.requestsOver = u
  simp only
  split
  · exact u.discardControl_part hp
  · exact .rfl

/-- The settings with the module back at Level A. -/
theorem State.unitsReset_settings (s : State) :
    s.unitsReset.hop.active = RegMap.set s.hop.active F.HOPPER_LEVEL_level 0 := by
  have hopper : s.resetHopper.hop.active = RegMap.set s.hop.active F.HOPPER_LEVEL_level 0 := by
    unfold State.resetHopper
    extract_lets m u hop progs v
    have same : u.hop = s.hop := by
      change (ite _ _ _ : State).hop = _
      split <;> rfl
    have level : v.hop.active = m := rfl
    clear_value v
    rw [(State.hopState_keeps _).parts .hop (by decide), State.restage_hop, level]
  unfold State.unitsReset
  rw [(State.hostReset_keeps _ _ _).parts .hop (by decide), (State.resetFirmware_keeps _).parts .hop (by decide), ← hopper]
  rfl

/-- The miller starts from its slot unless its life cycle has it in the recovery ROM. -/
theorem State.resetFirmware_recovery (s : State) : s.resetFirmware.fw.recovery =
    (s.fw.good.isEmpty || s.rd F.FW_STATUS_lifecycle == 2 || s.rd F.FW_STATUS_lifecycle == 3 || false) := by
  have opened : (({ s with fw := { s.fw with
      build := none, partnerBuilt := none, activateAt := none, falling := false, together := false, step := 0
      session := none, lastReply := [], recoverWanted := false } } : State).wr F.SVC_STATUS_open 0).rd F.FW_STATUS_lifecycle =
      s.rd F.FW_STATUS_lifecycle := State.rd_wr_ne _ _ _ _ (by decide)
  rw [← opened]
  rfl

theorem State.unitsReset_recovery (s : State) : s.unitsReset.fw.recovery =
    (s.fw.good.isEmpty || s.rd F.FW_STATUS_lifecycle == 2 || s.rd F.FW_STATUS_lifecycle == 3 || false) := by
  have fw : s.resetHopper.resetPly.fw = s.fw := by
    have hopper : s.resetHopper.fw = s.fw := s.resetHopper_keeps.parts .fw (by decide)
    exact hopper
  unfold State.unitsReset
  rw [(State.hostReset_keeps _ _ _).parts .fw (by decide), State.resetFirmware_recovery, fw, s.beforeMiller_kept _ (by decide)]

end Sys2Proof.Machine

/-! PROOFS. O39: the warm resets (R461, R462, R285). -/

namespace Sys2Proof.Machine

section
variable (s : State)
theorem State.regsReset_fw : s.regsReset.fw = s.fw := rfl
theorem State.regsReset_hop : s.regsReset.hop = s.hop := rfl
theorem State.requestsOver_fw : s.requestsOver.fw = s.fw := rfl
theorem State.requestsOver_hop : s.requestsOver.hop = s.hop := rfl
theorem State.requestsOver_image : s.requestsOver.image = s.image := rfl
theorem State.requestsOver_mem : s.requestsOver.mem = s.mem := rfl
theorem State.requestsOver_seals : s.requestsOver.seals = s.seals := rfl
end

theorem State.warmed_recovery (s : State) (kind : Nat) : (s.warmed kind).fw.recovery =
    (s.fw.good.isEmpty || s.rd F.FW_STATUS_lifecycle == 2 || s.rd F.FW_STATUS_lifecycle == 3 || false) := by
  have left : s.roleLeft.workLeft.regsReset.fw = s.fw := by
    have role : s.roleLeft.fw = s.fw := s.roleLeft_keeps.parts .fw (by decide)
    have work : s.roleLeft.workLeft.fw = s.roleLeft.fw := s.roleLeft.workLeft_keeps.parts .fw (by decide)
    rw [State.regsReset_fw, work, role]
  have cycle : s.roleLeft.workLeft.regsReset.rd F.FW_STATUS_lifecycle = s.rd F.FW_STATUS_lifecycle :=
    (((s.roleLeft_kept.then (State.workLeft_kept _)).sub (by decide)).then (State.regsReset_kept _)) _ (by decide)
  rw [s.warmed_part kind .fw (by decide), s.atRestart_part kind (p := .fw) (by decide), State.requestsOver_fw,
    State.unitsReset_recovery, left, cycle]

/-- What a warm reset of a kind shows and holds, whatever follows it. -/
structure WarmlyReset (s t : State) (kind : Nat) : Prop where
  cause : t.rd F.PWR_CAUSE_kind = kind ∧ t.rd F.PWR_CAUSE_from = 0
  requests : t.pwr.warmWanted = false ∧ t.pwr.partnerWanted = false
  seals : t.seals = []
  clock : SameClock s t
  mem : t.mem = s.mem
  settings : t.hop.active = RegMap.set s.hop.active F.HOPPER_LEVEL_level 0

theorem State.warmed_shows (s : State) {kind : Nat} (small : kind < 16) : WarmlyReset s (s.warmed kind) kind := by
  refine ⟨?_, ?_, ?_, s.warmed_clock kind, ?_, ?_⟩
  · rw [s.warmed_eq]
    exact State.causeShown_shows _ small
  · rw [s.warmed_part kind .pwr (by decide), s.atRestart_part kind (p := .pwr) (by decide)]
    exact ⟨rfl, rfl⟩
  · rw [s.warmed_part kind .seals (by decide), s.atRestart_part kind (p := .seals) (by decide)]
    rw [State.requestsOver_seals, (State.unitsReset_keeps _).parts .seals (by decide)]
    rfl
  · rw [s.warmed_part kind .mem (by decide), s.atRestart_part kind (p := .mem) (by decide), State.requestsOver_mem]
    exact s.unitsBefore_part (p := .mem) (by decide)
  · have late : (s.warmed kind).hop.active = (s.atRestart kind).hop.active := by
      rw [s.warmed_eq, (State.causeShown_keeps _ kind).parts .settings (by decide)]
      exact (State.startedAnew_keeps _).parts .settings (by decide)
    have early : s.roleLeft.workLeft.regsReset.hop.active = s.hop.active := by
      have role : s.roleLeft.hop.active = s.hop.active := s.roleLeft_keeps.parts .settings (by decide)
      have work : s.roleLeft.workLeft.hop.active = s.roleLeft.hop.active := s.roleLeft.workLeft_keeps.parts .settings (by decide)
      rw [State.regsReset_hop, work, role]
    rw [late, s.atRestart_part kind (p := .settings) (by decide), State.requestsOver_hop, State.unitsReset_settings, early]

/-- The role that a module decides on changes nothing of it. -/
theorem WarmlyReset.decide {s t : State} {kind : Nat} (h : WarmlyReset s t kind) : WarmlyReset s t.decideRole kind := by
  have keeps := t.decideRole_keeps
  obtain ⟨⟨cause, source⟩, requests, seals, clock, mem, settings⟩ := h
  refine ⟨⟨?_, ?_⟩, ?_, ?_, clock.then t.decideRole_clock, ?_, ?_⟩
  · rw [t.decideRole_in.rd_eq (b := .power) (by decide) (by decide), cause]
  · rw [t.decideRole_in.rd_eq (b := .power) (by decide) (by decide), source]
  · rw [keeps.parts .pwr (by decide)]
    exact requests
  · rw [keeps.parts .seals (by decide), seals]
  · rw [keeps.parts .mem (by decide), mem]
  · rw [keeps.parts .settings (by decide), settings]

/-- A module that boots goes on to its role. -/
theorem State.warmReset_boots {s : State} (boots : Boots s) (kind : Nat) : s.warmReset kind = (s.warmed kind).decideRole := by
  obtain ⟨good, cycle⟩ := boots
  simp only [List.mem_cons, List.not_mem_nil, or_false, not_or] at cycle
  rw [s.warmReset_eq, if_neg]
  rw [s.warmed_recovery]
  simp [good, cycle.1, cycle.2]

theorem State.warmReset_warm {s : State} (boots : Boots s) {kind : Nat} (small : kind < 16) : WarmlyReset s (s.warmReset kind) kind := by
  rw [State.warmReset_boots boots]
  exact (s.warmed_shows small).decide

/-- But where the partner orders it, the image stays. -/
theorem State.warmReset_image {s : State} (boots : Boots s) {kind : Nat} (own : kind ≠ 6) : (s.warmReset kind).image = s.image := by
  rw [State.warmReset_boots boots, (State.decideRole_keeps _).parts .image (by decide), s.warmed_part kind .image (by decide)]
  unfold State.atRestart
  simp only [if_neg own]
  rw [State.requestsOver_image]
  exact s.unitsBefore_part (p := .image) (by decide)

/-- A reset that the partner orders discards the image, and counts its turns anew (R462). -/
theorem State.discardControl_discards (s : State) : s.discardControl.image = ImageSt.cold ∧ s.discardControl.turn.k = 0 := by
  unfold State.discardControl
  extract_lets tasks u v w x
  have emptied : v.image = ImageSt.cold ∧ v.turn.k = 0 := ⟨Eq.refl _, Eq.refl _⟩
  have origin : w.image = v.image ∧ w.turn = v.turn :=
    ⟨List.foldlRecOn _ _ (motive := fun (y : State) => y.image = v.image) (Eq.refl _) fun y hy _ _ => hy,
      List.foldlRecOn _ _ (motive := fun (y : State) => y.turn = v.turn) (Eq.refl _) fun y hy _ _ => hy⟩
  have shown : x.image = w.image ∧ x.turn = w.turn := ⟨Eq.refl _, Eq.refl _⟩
  rw [x.lossRows_keeps.parts .image (by decide), x.lossRows_keeps.parts .turn (by decide), shown.1, shown.2, origin.1, origin.2]
  exact emptied

theorem State.warmReset_ordered {s : State} (boots : Boots s) : (s.warmReset 6).image = ImageSt.cold ∧ (s.warmReset 6).turn.k = 0 := by
  have restart : s.atRestart 6 = s.roleLeft.workLeft.regsReset.unitsReset.requestsOver.discardControl := by
    unfold State.atRestart
    exact if_pos rfl
  rw [State.warmReset_boots boots, (State.decideRole_keeps _).parts .image (by decide), (State.decideRole_keeps _).parts .turn (by decide),
    s.warmed_part 6 .image (by decide), s.warmed_part 6 .turn (by decide), restart]
  exact State.discardControl_discards _

/-! The three of them. -/

theorem warmReset_taken {s : State} (boots : Boots s) (wanted : s.pwr.warmWanted = true) :
    Does .warmReset s (fun t => WarmlyReset s t 3 ∧ t.image = s.image) :=
  ⟨s.warmReset 3, if_pos wanted, State.warmReset_warm boots (by decide), State.warmReset_image boots (by decide)⟩

theorem partnerOrderedReset_taken {s : State} (boots : Boots s) (wanted : s.pwr.partnerWanted = true) (idle : s.plyState ∉ [1, 2]) :
    Does .partnerOrderedReset s (fun t => WarmlyReset s t 6 ∧ t.image = ImageSt.cold ∧ t.turn.k = 0) := by
  simp only [List.mem_cons, List.not_mem_nil, or_false, not_or] at idle
  exact ⟨s.warmReset 6, (if_neg (by simp [wanted])).trans (if_neg (by simp [State.isActive, idle.1, idle.2])),
    State.warmReset_warm boots (by decide), State.warmReset_ordered boots⟩

/-- The restarts of the last hour, this one with them. -/
def State.restartNoted (s : State) : State :=
  { s with ply := { s.ply with restarts := s.workSec :: s.ply.restarts.filter (fun j => decide (s.workSec < j + 3600)) } }

theorem autoRestart_taken {s : State} (boots : Boots s) (given : s.plyState = 6) (allowed : s.act F.PLY_CTRL_auto_restart = 1)
    (cause : s.rd F.PLY_REASON_abdication ≠ 8)
    (few : (s.ply.restarts.filter (fun j => decide (s.workSec < j + 3600))).length < 3) :
    Does .autoRestart s (fun t => WarmlyReset s.restartNoted t 4 ∧ s.workSec ∈ t.ply.restarts) := by
  have runs : exec .autoRestart s = .next (s.restartNoted.warmReset 4) :=
    if_pos (by simp [given, State.aon, allowed, cause, few])
  have boots : Boots s.restartNoted := boots
  have warm := State.warmReset_warm boots (kind := 4) (by decide)
  refine ⟨_, runs, warm, ?_⟩
  rw [warm.clock.2]
  exact List.mem_cons_self

end Sys2Proof.Machine

/-! PROOFS. The cold start (R441, R460, R463, R466). -/

namespace Sys2Proof.Machine

/-- What a cold start shows of the cause, and leaves to the straps and the keep island. -/
def coldFlds : List Fld := [F.FW_STATUS_slot, F.FW_STATUS_confirm, F.FW_STATUS_lifecycle, F.PWR_CAUSE_kind, F.PWR_CAUSE_from,
  F.RING_POSITION_position, F.PLY_STATUS_home]

/-- The same, with what the check of the keep island found. -/
def checkedFlds : List Fld := F.PWR_STATUS_keep_lost :: coldFlds

/-! The stages. -/

/-- The power control starts anew, and the cause is shown. -/
def State.coldBegun (s : State) (kind : Nat) : State :=
  (({ s with pwr := { PwrSt.cold with ejected := s.pwr.ejected, keepAlarm := s.pwr.keepAlarm } }.wr F.PWR_CAUSE_kind kind).wr
    F.PWR_CAUSE_from 0).wr F.PWR_STATUS_holdup_ok 0

/-- The wake logic is on, and the keep island is checked. -/
def State.keepChecked (s : State) (keepOk : Bool) : State := (s.turnOn .wake).checkKeep keepOk

/-- The brake domain and the miller are on. -/
def State.millerOn (s : State) : State := ((s.turnOn .brake).wr F.BRK_STATE_holdup 0).turnOn .miller

/-- The log is checked, and the miller has started. -/
def State.logChecked (s : State) (keepOk button : Bool) : State :=
  ((s.checkLog keepOk).startMiller button).wr F.PLY_STATUS_state 0

/-- The module stays with the recovery ROM, or turns the next domains on. -/
def State.reefed (s : State) : State :=
  if s.fw.recovery then (s.turnOn .hostsvc).enterRecovery
  else
    ((([Pd.time, .bins, .hostsvc, .ringply].foldl State.turnOn s).wr F.PWR_STATUS_rung 2).wr F.PWR_STATUS_target 0).wr F.PWR_STATUS_moving 1

theorem State.coldStart_eq (s : State) (kind : Nat) (keepOk button : Bool) :
    s.coldStart kind keepOk button = ((((s.coldBegun kind).keepChecked keepOk).millerOn).logChecked keepOk button).reefed := by
  unfold State.coldStart
  extract_lets pwr a b c d e f g
  have begun : b = s.coldBegun kind := rfl
  clear_value b
  have checked : c = b.keepChecked keepOk := rfl
  clear_value c
  have miller : d = c.millerOn := rfl
  clear_value d
  have log_ : f = d.logChecked keepOk button := rfl
  clear_value f
  rw [← begun, ← checked, ← miller, ← log_]
  rfl

/-! Registers that the stages leave. -/

theorem coldFlds_besideEvt : ∀ f ∈ coldFlds ++ [F.PWR_STATUS_keep_lost, F.PWR_DOMAINS_on], f.lo < 32 ∧ ¬eventReg f.off ∧ f.off ≠ F.PWR_EVT_evt.off := by
  unfold eventReg
  decide

theorem State.checkKeep_kept (s : State) (keepOk : Bool) : Kept (F.PWR_DOMAINS_on :: coldFlds) s (s.checkKeep keepOk) := by
  unfold State.checkKeep
  refine .ite (.wr 0 (by decide)) ?_
  extract_lets f u time v
  have read : Kept (F.PWR_DOMAINS_on :: coldFlds) s v := .same .rfl (Eq.refl _)
  clear_value v
  refine (read.then (Kept.wr (g := F.PWR_STATUS_keep_lost) 1 (by decide))).then fun g hg => ?_
  obtain ⟨low, apart⟩ := coldFlds_besideEvt g ((by decide : ∀ g ∈ F.PWR_DOMAINS_on :: coldFlds,
    g ∈ coldFlds ++ [F.PWR_STATUS_keep_lost, F.PWR_DOMAINS_on]) g hg)
  exact State.pwrEvt_rd _ 3 low apart

theorem State.checkKeep_shows (s : State) (keepOk : Bool) : (s.checkKeep keepOk).rd F.PWR_STATUS_keep_lost = bit (!keepOk) := by
  unfold State.checkKeep
  cases keepOk
  · rw [if_neg (by decide)]
    obtain ⟨low, apart⟩ := coldFlds_besideEvt F.PWR_STATUS_keep_lost (by decide)
    exact (State.pwrEvt_rd _ 3 low apart).trans (State.rd_wr_same _ F.PWR_STATUS_keep_lost 1)
  · exact State.rd_wr_same _ F.PWR_STATUS_keep_lost 0

theorem State.checkLog_kept (s : State) (keepOk : Bool) : Kept islandFlds s (s.checkLog keepOk) := by
  have told (y : State) (i : Nat) : Kept islandFlds y (y.recEvt i) := .of_in (y.recEvt_in i) (by decide)
  unfold State.checkLog
  extract_lets sealAt p q rebuilt u last found v old
  have chained : Kept islandFlds s u := by
    refine .ite (.ite ((Kept.wr (g := F.REC_STATUS_chain_err) 1 (by decide)).then (told _ 2)) .rfl) ?_
    exact ((((Kept.wr (g := F.REC_STATUS_pointer) _ (by decide)).then (Kept.wr (g := F.REC_STATUS_full) _ (by decide))).then
      (Kept.wr (g := F.REC_STATUS_rebuilt) 1 (by decide))).then (Kept.wr (g := F.REC_STATUS_reserve) _ (by decide))).then
      (Kept.wr (g := F.REC_LAST_SEAL_seal) _ (by decide))
  have gasp : Kept islandFlds u v := .ite (told u 3) .rfl
  exact (chained.then gasp).same (Eq.refl _)

theorem State.logChecked_kept (s : State) (keepOk button : Bool) : Kept islandFlds s (s.logChecked keepOk button) :=
  ((s.checkLog_kept keepOk).then (State.startMiller_kept _ button)).then (Kept.wr (g := F.PLY_STATUS_state) 0 (by decide))

theorem State.millerOn_kept (s : State) : Kept besideDomains s s.millerOn :=
  ((s.turnOn_kept .brake).then (Kept.wr (g := F.BRK_STATE_holdup) 0 (by decide))).then (State.turnOn_kept _ .miller)

/-- The recovery ROM's rung, before the matrix is evaluated. -/
def State.recoveryRung (s : State) : State :=
  (((((s.turnOffTo 0x80F).wr F.PWR_STATUS_rung 4).wr F.PWR_STATUS_target 4).wr F.PWR_STATUS_moving 0).wr F.PLY_STATUS_state 0)

theorem State.enterRecovery_rd (s : State) {f : Fld} (hf : f ∈ islandFlds) : s.enterRecovery.rd f = s.recoveryRung.rd f := by
  unfold State.enterRecovery
  extract_lets a b fw host c
  have rung : b = s.recoveryRung := rfl
  have same : Kept islandFlds b c := .same .rfl (Eq.refl _)
  clear_value c
  rw [← rung]
  exact ((same.then c.hostState_kept).then (State.evalMatrix_kept _)) f hf

theorem State.enterRecovery_recovers (s : State) : s.enterRecovery.fw.recovery = true ∧ s.enterRecovery.rd F.PWR_STATUS_rung = 4 ∧
    ∀ d, s.enterRecovery.pd d = (s.pd d && bitOf 0x80F d.bit) := by
  refine ⟨?_, ?_, fun d => ?_⟩
  · unfold State.enterRecovery
    extract_lets a b fw host c
    have set : c.fw.recovery = true := rfl
    clear_value c
    rw [(State.evalMatrix_keeps _).parts .fw (by decide), c.hostState_keeps.parts .fw (by decide), set]
  · rw [s.enterRecovery_rd (by decide), State.recoveryRung, State.rd_wr_ne _ _ _ _ (by decide), State.rd_wr_ne _ _ _ _ (by decide),
      State.rd_wr_ne _ _ _ _ (by decide), State.rd_wr_same _ F.PWR_STATUS_rung 4]
    rfl
  · rw [← s.turnOffTo_pd 0x80F d, State.pd, State.pd, s.enterRecovery_rd (by decide), State.recoveryRung, State.rd_wr_ne _ _ _ _ (by decide),
      State.rd_wr_ne _ _ _ _ (by decide), State.rd_wr_ne _ _ _ _ (by decide), State.rd_wr_ne _ _ _ _ (by decide)]

theorem State.enterRecovery_kept (s : State) : Kept checkedFlds s s.enterRecovery := fun f hf => by
  have rung : Kept checkedFlds s s.recoveryRung :=
    ((((((s.turnOffTo_kept 0x80F).sub (by decide)).then (Kept.wr (g := F.PWR_STATUS_rung) 4 (by decide))).then
      (Kept.wr (g := F.PWR_STATUS_target) 4 (by decide))).then (Kept.wr (g := F.PWR_STATUS_moving) 0 (by decide))).then
      (Kept.wr (g := F.PLY_STATUS_state) 0 (by decide)))
  rw [s.enterRecovery_rd ((by decide : ∀ f ∈ checkedFlds, f ∈ islandFlds) f hf)]
  exact rung f hf

theorem State.reefed_kept (s : State) : Kept checkedFlds s s.reefed := by
  have on : Kept checkedFlds s ([Pd.time, .bins, .hostsvc, .ringply].foldl State.turnOn s) :=
    (Kept.foldl _ fun u d _ => u.turnOn_kept d).sub (fs := besideDomains) (by decide)
  have rung := ((on.then (Kept.wr (g := F.PWR_STATUS_rung) 2 (by decide))).then (Kept.wr (g := F.PWR_STATUS_target) 0 (by decide))).then
    (Kept.wr (g := F.PWR_STATUS_moving) 1 (by decide))
  exact .ite (((s.turnOn_kept .hostsvc).sub (by decide)).then (State.enterRecovery_kept _)) rung

end Sys2Proof.Machine

/-! PROOFS. O39: cold starts, requests for a reset, and the obligation (R453, R460 to R463, R465). -/

namespace Sys2Proof.Machine

/-! What a cold start comes to. -/

/-- The module as the miller has started: its domains, its request state and its firmware. -/
def State.booted (s : State) (kind : Nat) (keepOk button : Bool) : State :=
  (((s.coldBegun kind).keepChecked keepOk).millerOn).logChecked keepOk button

theorem State.coldBegun_shows (s : State) {kind : Nat} (small : kind < 16) : (s.coldBegun kind).rd F.PWR_CAUSE_kind = kind ∧
    (s.coldBegun kind).rd F.PWR_CAUSE_from = 0 := by
  unfold State.coldBegun
  constructor
  · rw [State.rd_wr_ne _ _ _ _ (by decide), State.rd_wr_ne _ _ _ _ (by decide), State.rd_wr_same _ F.PWR_CAUSE_kind kind]
    exact Nat.mod_eq_of_lt small
  · rw [State.rd_wr_ne _ _ _ _ (by decide), State.rd_wr_same _ F.PWR_CAUSE_from 0]
    rfl

/-- The fields that a cold start leaves to the straps and the firmware. -/
def strapFlds : List Fld := [F.FW_STATUS_slot, F.FW_STATUS_confirm, F.FW_STATUS_lifecycle, F.RING_POSITION_position, F.PLY_STATUS_home]

theorem State.coldBegun_kept (s : State) (kind : Nat) : Kept strapFlds s (s.coldBegun kind) := by
  unfold State.coldBegun
  generalize hu : ({ s with pwr := { PwrSt.cold with ejected := s.pwr.ejected, keepAlarm := s.pwr.keepAlarm } } : State) = u
  have same : Kept strapFlds s u := by
    subst hu
    exact .same .rfl (Eq.refl _)
  exact ((same.then (Kept.wr (g := F.PWR_CAUSE_kind) kind (by decide))).then (Kept.wr (g := F.PWR_CAUSE_from) 0 (by decide))).then
    (Kept.wr (g := F.PWR_STATUS_holdup_ok) 0 (by decide))

theorem State.keepChecked_kept (s : State) (keepOk : Bool) : Kept coldFlds s (s.keepChecked keepOk) :=
  ((s.turnOn_kept .wake).sub (by decide)).then ((State.checkKeep_kept _ keepOk).sub (by decide))

theorem State.bootedFrom_kept (s : State) (keepOk button : Bool) : Kept checkedFlds s (s.millerOn.logChecked keepOk button) :=
  (s.millerOn_kept.sub (by decide)).then ((State.logChecked_kept _ keepOk button).sub (by decide))

theorem State.booted_kept (s : State) (kind : Nat) (keepOk button : Bool) : Kept coldFlds (s.coldBegun kind) (s.booted kind keepOk button) :=
  (State.keepChecked_kept _ keepOk).then ((State.bootedFrom_kept _ keepOk button).sub (by decide))

theorem State.booted_pd (s : State) (kind : Nat) (keepOk button : Bool) {d : Pd} (hd : d ∈ [Pd.wake, .brake, .miller]) :
    (s.booted kind keepOk button).pd d = true := by
  unfold State.booted
  rw [(State.logChecked_kept _ keepOk button).pd d (by decide)]
  generalize s.coldBegun kind = u
  have wake : (u.keepChecked keepOk).pd .wake = true := by
    rw [State.keepChecked, (State.checkKeep_kept _ keepOk).pd .wake (by decide), State.turnOn_pd]
    simp
  generalize u.keepChecked keepOk = v at wake
  have brake (e : Pd) : ((v.turnOn .brake).wr F.BRK_STATE_holdup 0).pd e = (v.turnOn .brake).pd e :=
    (Kept.wr (fs := [F.PWR_DOMAINS_on]) (g := F.BRK_STATE_holdup) 0 (by decide)).pd e (by decide)
  rw [State.millerOn, State.turnOn_pd, brake, State.turnOn_pd]
  simp only [List.mem_cons, List.not_mem_nil, or_false] at hd
  rcases hd with rfl | rfl | rfl <;> simp [wake]

/-- Its state of the power control. -/
theorem State.booted_pwr (s : State) (kind : Nat) (keepOk button : Bool) :
    (s.booted kind keepOk button).pwr = { PwrSt.cold with ejected := s.pwr.ejected, keepAlarm := s.pwr.keepAlarm } := by
  unfold State.booted
  have log_ (u : State) : (u.logChecked keepOk button).pwr = u.pwr := by
    have checked : (u.checkLog keepOk).pwr = u.pwr := (u.checkLog_keeps keepOk).parts .pwr (by decide)
    rw [← checked]
    exact (State.startMiller_keeps _ button).parts .pwr (by decide)
  have miller (u : State) : u.millerOn.pwr = u.pwr := by
    have brake : (u.turnOn .brake).pwr = u.pwr := (u.turnOn_keeps .brake).parts .pwr (by decide)
    rw [← brake]
    exact (State.turnOn_keeps _ .miller).parts .pwr (by decide)
  have checked (u : State) : (u.keepChecked keepOk).pwr = u.pwr := by
    have wake : (u.turnOn .wake).pwr = u.pwr := (u.turnOn_keeps .wake).parts .pwr (by decide)
    rw [← wake]
    exact (State.checkKeep_keeps _ keepOk).parts .pwr (by decide)
  rw [log_, miller, checked]
  rfl

/-- The rest of the start: the recovery ROM at Becalmed, or Reefed. -/
theorem State.reefed_shows {s : State} (miller : s.pd .miller = true) :
    s.reefed.rd F.PWR_STATUS_rung = (if s.reefed.fw.recovery then 4 else 2) ∧ s.reefed.pwr = s.pwr ∧
    (∀ d ∈ [Pd.wake, .brake, .miller], s.pd d = true → s.reefed.pd d = true) ∧ (s.fw.recovery = false → s.reefed.fw = s.fw) := by
  unfold State.reefed
  cases rom : s.fw.recovery
  · simp only [Bool.false_eq_true, if_false]
    have fw := foldl_turnOn_fw [Pd.time, .bins, .hostsvc, .ringply] miller
    have pwr : ([Pd.time, .bins, .hostsvc, .ringply].foldl State.turnOn s).pwr = s.pwr :=
      List.foldlRecOn _ _ (motive := fun (u : State) => u.pwr = s.pwr) rfl fun u hu d _ =>
        Eq.trans ((u.turnOn_keeps d).parts .pwr (by decide)) hu
    have domains (d : Pd) := foldl_turnOn_pd [Pd.time, .bins, .hostsvc, .ringply] s d
    generalize [Pd.time, .bins, .hostsvc, .ringply].foldl State.turnOn s = u at fw pwr domains
    have on (d : Pd) : (((u.wr F.PWR_STATUS_rung 2).wr F.PWR_STATUS_target 0).wr F.PWR_STATUS_moving 1).pd d = u.pd d :=
      (((Kept.wr (fs := [F.PWR_DOMAINS_on]) (g := F.PWR_STATUS_rung) 2 (by decide)).then (Kept.wr (g := F.PWR_STATUS_target) 0 (by decide))).then
        (Kept.wr (g := F.PWR_STATUS_moving) 1 (by decide))).pd d (by decide)
    refine ⟨?_, pwr, fun d _ was => ?_, fun _ => fw⟩
    · have same : (((u.wr F.PWR_STATUS_rung 2).wr F.PWR_STATUS_target 0).wr F.PWR_STATUS_moving 1).fw = s.fw := fw
      rw [same, rom, State.rd_wr_ne _ _ _ _ (by decide), State.rd_wr_ne _ _ _ _ (by decide), State.rd_wr_same _ F.PWR_STATUS_rung 2]
      rfl
    · rw [on, domains, was, Bool.true_or]
  · simp only [if_true]
    obtain ⟨set, rung, domains⟩ := (s.turnOn .hostsvc).enterRecovery_recovers
    have pwr : (s.turnOn .hostsvc).pwr = s.pwr := (s.turnOn_keeps .hostsvc).parts .pwr (by decide)
    refine ⟨?_, ?_, fun d hd was => ?_, fun is => absurd is (by decide)⟩
    · rw [set, rung]
      rfl
    · rw [(State.enterRecovery_keeps _).parts .pwr (by decide), pwr]
    · rw [domains, State.turnOn_pd, was, Bool.true_or, Bool.true_and]
      exact (by decide : ∀ d ∈ [Pd.wake, .brake, .miller], bitOf 0x80F d.bit = true) d hd

/-- What a cold start of a kind shows and holds. -/
structure ColdStarted (t : State) (kind : Nat) : Prop where
  cause : t.rd F.PWR_CAUSE_kind = kind ∧ t.rd F.PWR_CAUSE_from = 0
  domains : ∀ d ∈ [Pd.wake, .brake, .miller], t.pd d = true
  rung : t.rd F.PWR_STATUS_rung = (if t.fw.recovery then 4 else 2)
  power : t.pwr.inputGood = true ∧ t.pwr.coldWanted = false

theorem State.coldStart_booted (s : State) (kind : Nat) (keepOk button : Bool) :
    s.coldStart kind keepOk button = (s.booted kind keepOk button).reefed := s.coldStart_eq kind keepOk button

theorem State.coldStart_shows (s : State) {kind : Nat} (small : kind < 16) (keepOk button : Bool) :
    ColdStarted (s.coldStart kind keepOk button) kind := by
  rw [s.coldStart_booted]
  obtain ⟨cause, source⟩ := s.coldBegun_shows small
  have kept := (s.booted_kept kind keepOk button).then ((State.reefed_kept _).sub (gs := coldFlds) (by decide))
  obtain ⟨rung, pwr, domains, -⟩ := State.reefed_shows (s.booted_pd kind keepOk button (d := .miller) (by decide))
  refine ⟨⟨(kept _ (by decide)).trans cause, (kept _ (by decide)).trans source⟩,
    fun d hd => domains d hd (s.booted_pd kind keepOk button hd), rung, ?_⟩
  rw [pwr, s.booted_pwr]
  exact ⟨rfl, rfl⟩

/-- The straps and the firmware's slots stay as they were read. -/
theorem State.coldStart_kept (s : State) (kind : Nat) (keepOk button : Bool) : Kept strapFlds s (s.coldStart kind keepOk button) := by
  rw [s.coldStart_booted]
  exact (s.coldBegun_kept kind).then
    (((s.booted_kept kind keepOk button).then ((State.reefed_kept _).sub (by decide))).sub (by decide))

theorem State.coldStart_keepLost (s : State) (kind : Nat) (keepOk button : Bool) :
    (s.coldStart kind keepOk button).rd F.PWR_STATUS_keep_lost = bit (!keepOk) := by
  rw [s.coldStart_eq]
  have found : ((s.coldBegun kind).keepChecked keepOk).rd F.PWR_STATUS_keep_lost = bit (!keepOk) := State.checkKeep_shows _ keepOk
  rw [State.reefed_kept _ _ (by decide), State.bootedFrom_kept _ keepOk button _ (by decide), found]

/-! Requests (R453, R460, R462). -/

theorem pwrReset_taken {s : State} (on : s.pd .wake = true) (may : s.plyState ∉ [1, 2] ∨ (s.plyState = 1 ∧ s.key = 3)) :
    Does .pwrResetWarm s (fun t => t = { s with pwr := { s.pwr with waitHandover := none, warmWanted := true } }) ∧
    Does .pwrResetCold s (fun t => t.pwr.coldWanted = true ∧ ∀ d : Pd, d ≠ .keep → t.pd d = false) := by
  have warm : exec .pwrResetWarm s = .next (s.acceptDown 1 0) := if_pos on
  have cold : exec .pwrResetCold s = .next (s.acceptDown 2 0) := if_pos on
  rw [State.acceptDown_goes 0 may.symm] at warm cold
  refine ⟨⟨_, warm, rfl⟩, ⟨_, cold, rfl, fun d other => ?_⟩⟩
  change (State.powerOff _).pd d = false
  rw [State.powerOff, State.turnOffTo_pd]
  revert other
  cases d <;> simp [Pd.bit, bitOf]

theorem pwrReset_refused {s : State} (on : s.pd .wake = true) (lone : s.plyState = 1) (away : s.key ≠ 3) :
    Does .pwrResetWarm s (fun t => PowerRaised t 1 ∧ t.pwr.warmWanted = s.pwr.warmWanted) ∧
    Does .pwrResetCold s (fun t => PowerRaised t 1 ∧ t.pwr.coldWanted = s.pwr.coldWanted) := by
  have warm : exec .pwrResetWarm s = .next (s.acceptDown 1 0) := if_pos on
  have cold : exec .pwrResetCold s = .next (s.acceptDown 2 0) := if_pos on
  rw [State.acceptDown_refused _ 0 lone away] at warm cold
  obtain ⟨raised, -⟩ := s.refusePower_refuses
  have pwr : s.refusePower.pwr = { s.pwr with waitHandover := none } := State.pwrEvt_pwr _ 1
  exact ⟨⟨_, warm, raised, by rw [pwr]⟩, ⟨_, cold, raised, by rw [pwr]⟩⟩

/-- A ply frame goes out behind the others. -/
theorem State.sendPly_appends {s : State} (up : s.plyUp = true) (type turn : Nat) (payload : Bytes) :
    (s.sendPly type turn payload).regs = s.regs ∧ ∃ alive, (s.sendPly type turn payload).out =
      s.out ++ [.ply (plyFrame type s.isActive s.isStandby alive turn payload)] := by
  unfold State.sendPly
  rw [if_neg (by simp [up])]
  exact ⟨rfl, _, rfl⟩

theorem pwrResetPartner_orders {s : State} (on : s.pd .wake = true) (active : s.plyState = 2) (up : s.rd F.PLY_STATUS_link = 2)
    (partner : s.rd F.PLY_STATUS_partner_state ∉ [1, 2]) :
    Does .pwrResetPartner s (fun t => t.regs = s.regs ∧ ∃ alive, t.out = s.out ++ [.ply (plyFrame 0x4B true false alive
      s.turn.k (beBytes 2 0x220 ++ beBytes 8 0 ++ beBytes 4 0 ++ beBytes 2 0))]) := by
  simp only [List.mem_cons, List.not_mem_nil, or_false, not_or] at partner
  have runs : exec .pwrResetPartner s = .next (s.sendState 0x220 0 0 []) :=
    (if_neg (by simp [on])).trans (if_pos (by simp [State.isActive, active, State.plyUp, up, partner.1, partner.2]))
  have isActive : s.isActive = true := by simp [State.isActive, active]
  have standby : s.isStandby = false := by simp [State.isStandby, active]
  obtain ⟨regs, alive, sent⟩ := State.sendPly_appends (s := s) (by simp [State.plyUp, up]) 0x4B s.turn.k
    (beBytes 2 0x220 ++ beBytes 8 0 ++ beBytes 4 0 ++ beBytes 2 0)
  have same : s.sendState 0x220 0 0 [] = s.sendPly 0x4B s.turn.k (beBytes 2 0x220 ++ beBytes 8 0 ++ beBytes 4 0 ++ beBytes 2 0) := by
    simp [State.sendState]
  rw [isActive, standby] at sent
  rw [same] at runs
  exact ⟨_, runs, regs, alive, sent⟩

theorem pwrResetPartner_refused {s : State} (on : s.pd .wake = true)
    (barred : s.plyState ∉ [1, 2] ∨ s.rd F.PLY_STATUS_partner_state ∈ [1, 2]) :
    Does .pwrResetPartner s (fun t => PowerRaised t 1 ∧ t.pwr = s.pwr) := by
  have no : ¬((s.isActive && s.plyUp && s.rd F.PLY_STATUS_partner_state != 1 && s.rd F.PLY_STATUS_partner_state != 2) = true) := by
    simp only [List.mem_cons, List.not_mem_nil, or_false, not_or] at barred
    rcases barred with ⟨one, two⟩ | one | two
    · simp [State.isActive, one, two]
    · simp [one]
    · simp [two]
  exact ⟨s.pwrEvt 1, (if_neg (by simp [on])).trans (if_neg no), s.pwrEvt_raised (by decide), s.pwrEvt_pwr 1⟩

/-! The input is back (R463). -/

theorem State.readStraps_shows (s : State) (straps : Nat) : (s.readStraps straps).rd F.RING_POSITION_position = straps % 16 ∧
    (s.readStraps straps).rd F.PLY_STATUS_home = bit (bitOf straps 7) := by
  unfold State.readStraps State.wrb
  constructor
  · rw [State.rd_wr_ne _ _ _ _ (by decide), State.rd_wr_ne _ _ _ _ (by decide), State.rd_wr_ne _ _ _ _ (by decide),
      State.rd_wr_ne _ _ _ _ (by decide), State.rd_wr_ne _ _ _ _ (by decide), State.rd_wr_ne _ _ _ _ (by decide),
      State.rd_wr_same _ F.RING_POSITION_position _]
    exact Nat.mod_mod _ _
  · rw [State.rd_wr_ne _ _ _ _ (by decide), State.rd_wr_same _ F.PLY_STATUS_home _]
    cases bitOf straps 7 <;> rfl

theorem inputGood_starts {s : State} (lost : s.pwr.inputGood = false) (straps : BitVec 8) (keepOk button : Bool) :
    Does (.inputGood straps keepOk button) s (fun t => ColdStarted t 0 ∧
      t.rd F.RING_POSITION_position = straps.toNat % 16 ∧ t.rd F.PLY_STATUS_home = bit (bitOf straps.toNat 7) ∧
        t.rd F.PWR_STATUS_keep_lost = bit (!keepOk)) := by
  let read := (s.free.2.finishShedding.turnOffTo 0x001).readStraps straps.toNat
  have runs : exec (.inputGood straps keepOk button) s =
      .next ((read.wr F.PWR_SUPPLY_input_mv (10800 + s.free.1 % 5584)).coldStart 0 keepOk button) := if_neg (by simp [lost])
  obtain ⟨position, home⟩ := (s.free.2.finishShedding.turnOffTo 0x001).readStraps_shows straps.toNat
  have kept := (Kept.wr (s := read) (fs := strapFlds) (g := F.PWR_SUPPLY_input_mv) (10800 + s.free.1 % 5584) (by decide)).then
    (State.coldStart_kept _ 0 keepOk button)
  exact ⟨_, runs, State.coldStart_shows _ (by decide) keepOk button, (kept _ (by decide)).trans position, (kept _ (by decide)).trans home,
    State.coldStart_keepLost _ 0 keepOk button⟩

/-- Settles O39: every reset and start is taken, refused and carried out as it says. -/
theorem resets : Obligations.Resets := by
  intro s
  dsimp only
  have warm {u t : State} {kind : Nat} (h : WarmlyReset u t kind) := h
  have cold {kind : Nat} {t : State} (h : ColdStarted t kind) : t.rd F.PWR_CAUSE_kind = kind ∧ t.rd F.PWR_CAUSE_from = 0 ∧
      t.pd .wake = true ∧ t.pd .brake = true ∧ t.pd .miller = true ∧
      t.rd F.PWR_STATUS_rung = (if t.fw.recovery then 4 else 2) ∧ t.pwr.inputGood = true ∧ t.pwr.coldWanted = false :=
    ⟨h.cause.1, h.cause.2, h.domains _ (by decide), h.domains _ (by decide), h.domains _ (by decide), h.rung, h.power.1, h.power.2⟩
  refine ⟨fun on => ⟨pwrReset_taken on, pwrReset_refused on, pwrResetPartner_orders on, pwrResetPartner_refused on⟩,
    fun boots => ⟨fun wanted => ?_, fun wanted idle => ?_, fun given allowed cause few => ?_⟩, fun wanted off => ?_,
    fun lost straps keepOk button => ?_⟩
  · obtain ⟨t, runs, h, image⟩ := warmReset_taken boots wanted
    exact ⟨t, runs, ⟨h.cause.1, h.cause.2, h.requests.1, h.seals, h.clock.1, h.mem, h.settings⟩, image⟩
  · obtain ⟨t, runs, h, image, turn⟩ := partnerOrderedReset_taken boots wanted idle
    exact ⟨t, runs, ⟨h.cause.1, h.cause.2, h.requests.1, h.seals, h.clock.1, h.mem, h.settings⟩, image, turn, h.requests.2⟩
  · obtain ⟨t, runs, h, noted⟩ := autoRestart_taken boots given allowed cause few
    exact ⟨t, runs, ⟨h.cause.1, h.cause.2, h.requests.1, h.seals, h.clock.1, h.mem, h.settings⟩, noted⟩
  · exact ⟨s.coldStart 2 true false, if_pos wanted, cold (s.coldStart_shows (by decide) true false)⟩
  · obtain ⟨t, runs, h, shown⟩ := inputGood_starts lost straps keepOk button
    exact ⟨t, runs, cold h, shown⟩

end Sys2Proof.Machine

/-! PROOFS. O49: Hyica's firmware requests: pieces, activation and confirm (R430 to R435, R438, R442, R446). -/

namespace Sys2Proof.Machine

/-! What a request is answered. -/

/-- The answer with a status and no payload, and the refusal that it tells. -/
def FwAnswered (t : State) (q : HyicaReq) (op status : Nat) : Prop :=
  HyReplied t q op q.session.toNat status [] ∧ (status ≠ 0 → FwRefused t status)

theorem FwAnswered.done (u : State) (q : HyicaReq) (op : Nat) : FwAnswered (u.respondKept q op q.session.toNat 0 []) q op 0 :=
  ⟨State.respondKept_replied .., fun h => absurd rfl h⟩

theorem FwAnswered.refused {u : State} {code : Nat} (h : FwRefused u code) (q : HyicaReq) (op : Nat) :
    FwAnswered (u.respondKept q op q.session.toNat code []) q op code := ⟨State.respondKept_replied .., fun _ => h⟩

/-- A request of the open session that a module of its own number serves runs its meaning. -/
theorem InSession.does {s : State} {q : HyicaReq} {op : Nat} (h : InSession s q op) (hello : op ≠ 1) {c : Instr}
    {act : State → State × Nat × Bytes} (run : exec c s = .next (s.inSession q op act)) {r : State × Nat × Bytes} (acts : act s = r) :
    exec c s = .next (r.1.respondKept q op q.session.toNat r.2.1 r.2.2) := by
  subst acts
  rw [run, h.runs act hello]

/-! Refusals by the key (R433, R441, R443). -/

theorem tended_refuses {s : State} (normal : s.fw.recovery = false) (low : s.key < 2) (act : State → State × Nat × Bytes) :
    tended act s = (s.fwNote 4, 4, []) := if_neg (by simp [normal, low])

theorem tended_runs {s : State} (may : s.fw.recovery = true ∨ 2 ≤ s.key) (act : State → State × Nat × Bytes) : tended act s = act s :=
  if_pos (by simpa using may)

theorem stopped_refuses {s : State} (away : s.key ≠ 3) (act : State → State × Nat × Bytes) : stopped act s = (s.fwNote 4, 4, []) :=
  if_neg (by simp [away])

theorem stopped_runs {s : State} (stop : s.key = 3) (act : State → State × Nat × Bytes) : stopped act s = act s :=
  if_pos (by simp [stop])

theorem emptyPayload_runs {q : HyicaReq} (empty : q.payload = []) (act : State → State × Nat × Bytes) (s : State) :
    emptyPayload q act s = act s := if_pos (by simp [empty])

/-- The requests of building and activation all pass the same test. -/
theorem HyRequest.tended {q : HyicaReq} {op : Nat} {c : Instr} (request : HyRequest q op c)
    (building : op ∈ [0x10, 0x11, 0x12, 0x20, 0x21]) : op ≠ 1 ∧ ∃ act, ∀ s, exec c s = .next (s.inSession q op (Machine.tended act)) := by
  simp only [List.mem_cons, List.not_mem_nil, or_false] at building
  simp only [HyRequest, List.mem_cons, Prod.mk.injEq, List.not_mem_nil, or_false] at request
  rcases building with rfl | rfl | rfl | rfl | rfl <;> simp at request <;> subst request <;> exact ⟨by decide, _, fun _ => Eq.refl _⟩

theorem HyRequest.stopped {q : HyicaReq} {op : Nat} {c : Instr} (request : HyRequest q op c) (ending : op ∈ [0x22, 0x23]) :
    op ≠ 1 ∧ ∃ act, ∀ s, exec c s = .next (s.inSession q op (Machine.stopped act)) := by
  simp only [List.mem_cons, List.not_mem_nil, or_false] at ending
  simp only [HyRequest, List.mem_cons, Prod.mk.injEq, List.not_mem_nil, or_false] at request
  rcases ending with rfl | rfl <;> simp at request <;> subst request <;> exact ⟨by decide, _, fun _ => Eq.refl _⟩

/-! Builds (R430 to R432). -/

theorem State.fwEvt_refused {s : State} {code : Nat} (h : FwRefused s code) (i : Nat) : FwRefused (s.fwEvt i) code := by
  obtain ⟨result, status⟩ := h
  have beside : F.FW_STATUS_last_result.besideFwEvt ∧ F.FW_STATUS_last_status.besideFwEvt := by
    unfold Fld.besideFwEvt eventReg
    decide
  exact ⟨(s.fwEvt_rd i beside.1).trans result, (s.fwEvt_rd i beside.2).trans status⟩

theorem FwRefused.wr {s : State} {code : Nat} (h : FwRefused s code) {f : Fld} (v : Nat)
    (apart : f.key ≠ F.FW_STATUS_last_result.key ∧ f.key ≠ F.FW_STATUS_last_status.key) : FwRefused (s.wr f v) code :=
  ⟨(State.rd_wr_ne _ _ _ _ apart.1).trans h.1, (State.rd_wr_ne _ _ _ _ apart.2).trans h.2⟩

/-- A refusal that ends the build. -/
theorem State.fwFail_fails (s : State) {code : Nat} (fits : code < 64) : (s.fwFail code).fw.build = none ∧ FwRefused (s.fwFail code) code := by
  unfold State.fwFail
  extract_lets u fw v w
  have noted : FwRefused v code := s.fwNote_refused fits
  have ended : v.fw.build = none := rfl
  clear_value v
  have rest : FwRefused w code := State.fwEvt_refused (((noted.wr _ (by decide)).wr (f := F.FW_STATUS_session) 0 (by decide))) 1
  have same : w.fw = v.fw := State.fwEvt_fw _ 1
  rw [State.report_fw, same]
  exact ⟨ended, rest.report _ 0 0⟩

/-- Every refusal of a delta has a status that its register holds. -/
theorem applyDelta_code {src d hash : Bytes} {p code : Nat} (h : applyDelta src d p hash = .error code) : code < 64 := by
  unfold applyDelta at h
  split at h
  · obtain rfl := Except.error.inj h
    decide
  · split at h
    · obtain rfl := Except.error.inj h
      decide
    · split at h
      · obtain rfl := Except.error.inj h
        decide
      · split at h
        · obtain rfl := Except.error.inj h
          decide
        · split at h
          · obtain rfl := Except.error.inj h
            decide
          · cases h

theorem State.setBuild_build (s : State) (b : FwBuild) : (s.setBuild b).fw.build = some b := rfl

/-- The first bytes of a manifest begin a build. -/
theorem State.manifestPiece_begins {s : State} (open_ : s.fwOpen = true) (idle : s.rd F.FW_STATUS_state ∉ [1, 3]) {data : Bytes}
    (short : data.length < 1408) : s.manifestPiece 2 0 data =
      ((((s.fwEmpty.wr F.FW_STATUS_state 1).wr F.FW_STATUS_session 2).setBuild ⟨2, [], false, [], []⟩).setBuild ⟨2, data, false, [], []⟩, 0) := by
  simp only [List.mem_cons, List.not_mem_nil, or_false, not_or] at idle
  unfold State.manifestPiece
  simp only
  rw [if_neg (by simp [open_]), if_neg (by simp [idle.1, idle.2])]
  simp only [if_true, State.setBuild_build, List.nil_append]
  rw [if_neg (by simp), if_neg (by simp only [manifestLen]; omega), if_pos (by simpa only [manifestLen] using short)]

theorem SMap.del_put {α : Type} (m : SMap α) (x : Nat) (v : α) : SMap.del (SMap.put m x v) x = SMap.del m x := by
  induction m with
  | nil => simp [SMap.put, SMap.del]
  | cons e m ih =>
    obtain ⟨k, u⟩ := e
    unfold SMap.put
    split
    · simp [SMap.del]
    · split
      · next same => simp [SMap.del, same]
      · next other => simp [SMap.del, other, ih]

/-- The whole delta of a part: it builds the part, or ends the build. -/
def State.deltaEnds (s : State) (b : FwBuild) (part : Nat) (d : Bytes) : State × Nat :=
  match applyDelta (s.fwPart s.fwSlot part) d part (manHash b.manifest part) with
  | .error code => (s.fwFail code, code)
  | .ok x =>
    let s := s.setBuild { b with parts := SMap.put b.parts part x, delta := SMap.del b.delta part }
    (if s.fwPly then s.sendBytes (0x200 + part) d else s, 0)

/-- The bytes of a part that a build holds, where a piece at an offset goes on from them. -/
def FwBuild.before_ (b : FwBuild) (part offset : Nat) : Bytes := if offset = 0 then [] else SMap.getD b.delta part []

theorem State.deltaPiece_taken {s : State} {b : FwBuild} {part offset : Nat} (normal : s.fw.recovery = false) (dram : s.pd .dram = true)
    (build : s.fw.build = some b) (source : b.source = 2) (verified : b.verified = true) (listed : part ∈ manParts b.manifest)
    (next : offset = (b.before_ part offset).length) (data : Bytes) (last : Bool) :
    s.deltaPiece 2 part offset data last = if last = true then s.deltaEnds b part (b.before_ part offset ++ data)
      else (s.setBuild { b with delta := SMap.put b.delta part (b.before_ part offset ++ data) }, 0) := by
  unfold State.deltaPiece
  rw [if_neg (by simp [State.fwOpen, normal, dram]), build]
  simp only
  rw [if_neg (by simp [source, verified]), if_neg (by simp [listed]), ← FwBuild.before_]
  rw [if_neg (not_not.2 next)]
  cases last
  · rfl
  · unfold State.deltaEnds
    rw [SMap.del_put]
    rfl

end Sys2Proof.Machine

/-! PROOFS. O49: whole parts, activation, confirm, retirement, and the starts of the recovery ROM (R435, R438, R441 to R443). -/

namespace Sys2Proof.Machine

theorem PieceHead.runs {q : HyicaReq} (head : PieceHead q) (s : State) (f : Nat → Nat → Bytes → Bool → State × Nat) :
    s.pieceOf q f = plain (f (byteAt q.payload 0) (beAt q.payload 4 4) (q.payload.drop 8) (bitOf (byteAt q.payload 1) 0)) := by
  obtain ⟨long, flag, zero⟩ := head
  exact if_neg (by simp [Nat.not_lt.2 long, Nat.not_lt.2 flag, zero])

/-! Deltas. -/

theorem State.deltaEnds_builds {s : State} {b : FwBuild} {part : Nat} {d x : Bytes}
    (built : applyDelta (s.fwPart s.fwSlot part) d part (manHash b.manifest part) = .ok x) :
    (s.deltaEnds b part d).2 = 0 ∧
      (s.deltaEnds b part d).1.fw.build = some { b with parts := SMap.put b.parts part x, delta := SMap.del b.delta part } := by
  unfold State.deltaEnds
  rw [built]
  simp only [true_and]
  split
  · rw [(State.sendBytes_keeps _ _ _).parts .fw (by decide), State.setBuild_build]
  · rfl

theorem State.deltaEnds_fails {s : State} {b : FwBuild} {part code : Nat} {d : Bytes}
    (failed : applyDelta (s.fwPart s.fwSlot part) d part (manHash b.manifest part) = .error code) :
    s.deltaEnds b part d = (s.fwFail code, code) := by
  unfold State.deltaEnds
  rw [failed]

/-! Whole parts (R442). -/

theorem State.imagePiece_taken {s : State} {b : FwBuild} {part offset : Nat} (rom : s.fw.recovery = true) (build : s.fw.build = some b)
    (verified : b.verified = true) (listed : part ∈ manParts b.manifest) (next : offset = (b.before_ part offset).length)
    (data : Bytes) (last : Bool) : s.imagePiece part offset data last =
      if last = true then
        if Config.sha384 (b.before_ part offset ++ data) = manHash b.manifest part then
          (s.setBuild { b with parts := SMap.put b.parts part (b.before_ part offset ++ data), delta := SMap.del b.delta part }, 0)
        else (s.fwFail 6, 6)
      else (s.setBuild { b with delta := SMap.put b.delta part (b.before_ part offset ++ data) }, 0) := by
  unfold State.imagePiece
  rw [build]
  simp only
  rw [if_neg (by simp [rom, verified]), if_neg (by simp [listed]), ← FwBuild.before_, if_neg (not_not.2 next)]
  cases last
  · rfl
  · rw [if_neg (by decide), if_pos (Eq.refl true)]
    exact ite_not _ _ _

/-! Activation and confirm. -/

/-- The switch is ordered for a boundary. -/
def State.activated (s : State) : State :=
  { s.wr F.FW_STATUS_state 3 with fw := { s.fw with
      activateAt := some s.switchBoundary, falling := false, together := false, step := 0, keyFloor := 2 } }

theorem State.activate_orders {s : State} (built : s.rd F.FW_STATUS_state = 2) (free : s.hop.armed = none)
    (offline : s.rd F.ONLINE_STATUS_state = 0) (orders : s.ply.orders = []) (compatible : s.compatible = true) (alone : s.fwPly = false) :
    s.activate 0 = (s.activated, 0, s.switchBoundary) := by
  have other {f : Fld} (ne : F.FW_STATUS_state.key ≠ f.key) : (s.wr F.FW_STATUS_state 3).rd f = s.rd f := State.rd_wr_ne _ _ _ _ ne
  have boundary : (s.wr F.FW_STATUS_state 3).switchBoundary = s.switchBoundary := by
    unfold State.switchBoundary State.on State.boundary2
    rw [other (by decide), State.leadBoundary_of (t := s.wr F.FW_STATUS_state 3) rfl rfl rfl]
    rfl
  have lone : (s.wr F.FW_STATUS_state 3).fwPly = false := by
    rw [← alone]
    unfold State.fwPly State.plyState State.partnerStandby State.plyUp
    rw [other (by decide), other (by decide), other (by decide)]
  unfold State.activate
  rw [if_neg (by decide), if_neg (not_not.2 built), if_neg (by simp [free, offline, orders]), if_neg (by simp [compatible]),
    if_neg (by simp)]
  simp only [lone, boundary, Bool.not_false, if_true]
  rfl

theorem State.confirm_fw (s : State) : s.confirm.fw = s.fw := s.confirm_keeps.parts .fw (by decide)

theorem State.commandConfirm_takes (s : State) :
    (s.rd F.FW_STATUS_confirm = 1 → s.commandConfirm.2 = 0 ∧ s.commandConfirm.1.fw.commanded = true) ∧
    (s.rd F.FW_STATUS_confirm ≠ 1 → s.commandConfirm = (s.fwNote 9, 9)) := by
  refine ⟨fun pending => ?_, fun other => if_pos other⟩
  unfold State.commandConfirm
  rw [if_neg (not_not.2 pending)]
  refine ⟨rfl, ?_⟩
  simp only
  split
  · rw [State.confirm_fw]
  · rfl

/-! Retirement (R443). -/

/-- The register of the log that stays when its last seal and the hopper's state are written. -/
theorem State.eraseMram_erases (s : State) : s.eraseMram.hop.mram = [] ∧ s.eraseMram.tasks.retain = [] ∧ s.eraseMram.recorder.records = [] ∧
    s.eraseMram.rd F.REC_STATUS_pointer = 0 ∧ s.eraseMram.fw.good = [] ∧ (∀ n < 32, SMap.find s.eraseMram.fw.slots n = some []) ∧
    s.eraseMram.image = s.image ∧ s.eraseMram.hop.active = s.hop.active := by
  unfold State.eraseMram
  extract_lets empty hop tasks fw recorder u v
  have slots : ∀ n < 32, SMap.find empty n = some [] := by decide
  have pointer : v.rd F.REC_STATUS_pointer = 0 := by
    rw [State.rd_wr_ne _ _ _ _ (by decide), State.rd_wr_ne _ _ _ _ (by decide)]
    exact State.rd_wr_same _ F.REC_STATUS_pointer 0
  have held : v.hop.mram = [] ∧ v.tasks.retain = [] ∧ v.recorder.records = [] ∧ v.fw.good = [] ∧ v.fw.slots = empty ∧ v.image = s.image ∧
      v.hop.active = s.hop.active := ⟨Eq.refl _, Eq.refl _, Eq.refl _, Eq.refl _, Eq.refl _, Eq.refl _, Eq.refl _⟩
  clear_value v empty
  obtain ⟨mram, retain, records, good, same, image, active⟩ := held
  refine ⟨mram, retain, records, ?_, good, fun n hn => ?_, image, active⟩
  · rw [State.hopState_rd _ (by decide), State.rd_wr_ne _ _ _ _ (by decide), pointer]
  · rw [← slots n hn, ← same]
    rfl

/-! The starts of the recovery ROM (R441, R442). -/

theorem recoverReset_recovers {s : State} (wanted : s.fw.recoverWanted = true) (cycle : s.rd F.FW_STATUS_lifecycle = 2) :
    Does .recoverReset s (fun t => t.fw.recovery = true ∧ t.rd F.PWR_STATUS_rung = 4 ∧ t.rd F.PWR_CAUSE_kind = 5 ∧
      ∀ d : Pd, t.pd d = (s.pd d && bitOf 0x80F d.bit)) := by
  have rom : (s.warmed 5).fw.recovery = true := by
    rw [s.warmed_recovery, cycle]
    simp
  have warm : s.warmReset 5 = (s.warmed 5).enterRecovery := by rw [s.warmReset_eq, if_pos rom]
  obtain ⟨set, rung, domains⟩ := (s.warmed 5).enterRecovery_recovers
  refine ⟨s.warmReset 5, if_pos wanted, ?_⟩
  rw [warm]
  refine ⟨set, rung, ?_, fun d => ?_⟩
  · rw [State.enterRecovery_kept _ _ (by decide)]
    exact (s.warmed_shows (by decide)).cause.1
  · rw [domains, (s.warmed_kept 5).pd d (by decide)]

/-- The firmware slots stay in MRAM. -/
def SameSlots (s t : State) : Prop := t.fw.slots = s.fw.slots ∧ t.fw.manifests = s.fw.manifests ∧ t.fw.good = s.fw.good

theorem SameSlots.of_fw {s t : State} (h : t.fw = s.fw) : SameSlots s t := ⟨by rw [h], by rw [h], by rw [h]⟩

theorem SameSlots.then {s t u : State} (h : SameSlots s t) (g : SameSlots t u) : SameSlots s u :=
  ⟨g.1.trans h.1, g.2.1.trans h.2.1, g.2.2.trans h.2.2⟩

theorem State.lose_slots (s : State) (d : Pd) : SameSlots s (s.lose d) := by
  cases d with
  | miller =>
    have cut : s.cutImage.fw = s.fw := s.cutImage_keeps.parts .fw (by decide)
    exact ⟨by rw [← cut]; rfl, by rw [← cut]; rfl, by rw [← cut]; rfl⟩
  | dram => exact .of_fw (s.idleTraces_keeps.parts .fw (by decide))
  | spindle => exact .of_fw (s.abandonTasks.loseSlack_keeps.parts .fw (by decide))
  | bins => exact .of_fw (s.loseBins_keeps.parts .fw (by decide))
  | ringply => exact .of_fw (s.loseRingPly_keeps.parts .fw (by decide))
  | _ => exact .of_fw rfl

theorem State.turnOffTo_slots (s : State) (mask : Nat) : SameSlots s (s.turnOffTo mask) := by
  have off (u : State) (d : Pd) : SameSlots u (u.turnOff d) := by
    unfold State.turnOff
    split
    · exact .of_fw rfl
    · exact u.lose_slots d
  unfold State.turnOffTo
  exact List.foldlRecOn _ _ (motive := SameSlots s) (.of_fw rfl) fun u hu d _ => hu.then (off u d)

theorem State.powerOff_slots (s : State) : SameSlots s s.powerOff := by
  have role : (s.quitRole 8).fw = s.fw := (s.quitRole_keeps 8).parts .fw (by decide)
  have bypass : (s.quitRole 8).closeBypass.fw = (s.quitRole 8).fw := (State.closeBypass_keeps _).parts .fw (by decide)
  exact (SameSlots.of_fw (bypass.trans role)).then (State.turnOffTo_slots _ 0x001)

theorem State.powerOff_kept (s : State) : Kept [F.FW_STATUS_slot, F.FW_STATUS_confirm, F.FW_STATUS_lifecycle] s s.powerOff :=
  (((s.quitRole_kept 8).then (State.closeBypass_kept _)).sub (by decide)).then ((State.turnOffTo_kept _ 0x001).sub (by decide))

/-- The miller of a module that boots. -/
theorem State.startMiller_slots (s : State) (button : Bool) : SameSlots s (s.startMiller button) ∧
    (s.startMiller button).fw.recovery =
      (s.fw.good.isEmpty || s.rd F.FW_STATUS_lifecycle == 2 || s.rd F.FW_STATUS_lifecycle == 3 || button) :=
  ⟨⟨rfl, rfl, rfl⟩, rfl⟩

theorem State.turnOn_slots (s : State) (d : Pd) : SameSlots s (s.turnOn d) := by
  unfold State.turnOn
  split
  · exact .of_fw rfl
  · by_cases miller : d = .miller
    · subst miller
      exact (State.startMiller_slots _ false).1
    · exact .of_fw (State.gain_fw _ miller)

theorem State.booted_slots (s : State) (kind : Nat) (keepOk button : Bool) : SameSlots s (s.booted kind keepOk button) ∧
    (s.booted kind keepOk button).fw.recovery =
      (s.fw.good.isEmpty || s.rd F.FW_STATUS_lifecycle == 2 || s.rd F.FW_STATUS_lifecycle == 3 || button) := by
  have cycle := (s.coldBegun_kept kind _ (show F.FW_STATUS_lifecycle ∈ strapFlds by decide))
  have begun : SameSlots s (s.coldBegun kind) := .of_fw rfl
  unfold State.booted
  generalize s.coldBegun kind = u at cycle begun
  have checked : SameSlots u (u.keepChecked keepOk) :=
    (u.turnOn_slots .wake).then (.of_fw ((State.checkKeep_keeps _ keepOk).parts .fw (by decide)))
  have cycle := (u.keepChecked_kept keepOk _ (show F.FW_STATUS_lifecycle ∈ coldFlds by decide)).trans cycle
  generalize u.keepChecked keepOk = v at checked cycle
  have miller : SameSlots v v.millerOn :=
    (v.turnOn_slots .brake).then (.then (t := (v.turnOn .brake).wr F.BRK_STATE_holdup 0) (.of_fw rfl) (State.turnOn_slots _ .miller))
  have cycle := (v.millerOn_kept _ (show F.FW_STATUS_lifecycle ∈ besideDomains by decide)).trans cycle
  generalize v.millerOn = w at miller cycle
  have logged : SameSlots w (w.checkLog keepOk) := .of_fw ((w.checkLog_keeps keepOk).parts .fw (by decide))
  have cycle := (w.checkLog_kept keepOk _ (show F.FW_STATUS_lifecycle ∈ islandFlds by decide)).trans cycle
  have all := ((begun.then checked).then miller).then logged
  obtain ⟨slots, rom⟩ := (w.checkLog keepOk).startMiller_slots button
  rw [cycle, all.2.2] at rom
  exact ⟨all.then slots, rom⟩

end Sys2Proof.Machine

/-! PROOFS. O49: the recovery image, each request in an open session, and the obligation. -/

namespace Sys2Proof.Machine

/-- The recovered set, before the module starts cold. -/
def State.recovered (s : State) (b : FwBuild) : State :=
  let s := s.storeBuild b
  let s := ((s.wr F.FW_STATUS_slot s.fwNext).wr F.FW_STATUS_confirm 1).wr F.FW_STATUS_lifecycle 1
  { s with fw := { s.fw with was := 0, since := 0 } }

theorem State.storeBuild_fwNext (s : State) (b : FwBuild) : (s.storeBuild b).fwNext = s.fwNext := by
  unfold State.fwNext
  rw [s.storeBuild_rd]

theorem State.recovered_shows (s : State) (b : FwBuild) : (s.recovered b).rd F.FW_STATUS_slot = s.fwNext ∧
    (s.recovered b).rd F.FW_STATUS_confirm = 1 ∧ (s.recovered b).rd F.FW_STATUS_lifecycle = 1 ∧
    SameSlots (s.storeBuild b) (s.recovered b) := by
  have next := s.storeBuild_fwNext b
  unfold State.recovered
  generalize s.storeBuild b = u at next
  refine ⟨?_, ?_, State.rd_wr_same _ F.FW_STATUS_lifecycle 1, rfl, rfl, rfl⟩
  · refine (State.rd_wr_ne _ F.FW_STATUS_lifecycle F.FW_STATUS_slot 1 (by decide)).trans
      ((State.rd_wr_ne _ F.FW_STATUS_confirm F.FW_STATUS_slot 1 (by decide)).trans ?_)
    rw [State.rd_wr_same _ F.FW_STATUS_slot u.fwNext, next]
    exact Nat.mod_eq_of_lt s.fwNext_lt
  · exact (State.rd_wr_ne _ F.FW_STATUS_lifecycle F.FW_STATUS_confirm 1 (by decide)).trans
      (State.rd_wr_same _ F.FW_STATUS_confirm 1)

theorem recoveryImageDone_runs {s : State} {b : FwBuild} (rom : s.fw.recovery = true) (whole : s.wholeBuild = some b) :
    exec .recoveryImageDone s = .next ((s.recovered b).free.2.powerOff.coldStart ((s.recovered b).free.1 % 3) true false) := by
  change execRecoveryImageDone s = _
  unfold execRecoveryImageDone
  rw [if_neg (by simp [rom]), whole]
  simp only
  rw [← State.recovered]
  rfl

theorem recoveryImageDone_starts {s : State} {b : FwBuild} (rom : s.fw.recovery = true) (whole : s.wholeBuild = some b) :
    Does .recoveryImageDone s (fun t =>
      t.rd F.FW_STATUS_slot = s.fwNext ∧ t.rd F.FW_STATUS_confirm = 1 ∧ t.rd F.FW_STATUS_lifecycle = 1 ∧
        t.fw.recovery = false ∧ s.fwNext ∈ t.fw.good ∧ t.rd F.PWR_CAUSE_from = 0 ∧
        SMap.find t.fw.manifests s.fwNext = some b.manifest ∧
        ∀ i < 16, SMap.find t.fw.slots (s.fwNext * 16 + i) = some (SMap.getD b.parts i [])) := by
  refine ⟨_, recoveryImageDone_runs rom whole, ?_⟩
  obtain ⟨slot, confirm, cycle, slots⟩ := s.recovered_shows b
  obtain ⟨-, manifest, good⟩ := s.storeBuild_next b
  have parts (i : Nat) (hi : i < 16) := s.storeBuild_slots b hi
  rw [← slots.2.1] at manifest
  rw [← slots.2.2] at good
  have parts (i : Nat) (hi : i < 16) : SMap.find (s.recovered b).fw.slots (s.fwNext * 16 + i) = some (SMap.getD b.parts i []) := by
    rw [slots.1]
    exact parts i hi
  generalize s.recovered b = u at slot confirm cycle manifest good parts
  have off : SameSlots u u.free.2.powerOff := u.free.2.powerOff_slots
  have kept : Kept [F.FW_STATUS_slot, F.FW_STATUS_confirm, F.FW_STATUS_lifecycle] u u.free.2.powerOff := u.free.2.powerOff_kept
  have small : u.free.1 % 3 < 16 := Nat.lt_trans (Nat.mod_lt _ (by decide)) (by decide)
  generalize u.free.1 % 3 = kind at small
  generalize u.free.2.powerOff = v at off kept
  obtain ⟨started, boots⟩ := v.booted_slots kind true false
  have normal : (v.booted kind true false).fw.recovery = false := by
    have some_ : v.fw.good.isEmpty = false := by
      rw [off.2.2]
      exact List.isEmpty_eq_false_iff_exists_mem.2 ⟨_, good⟩
    rw [boots, kept _ (by decide), cycle, some_]
    rfl
  obtain ⟨-, -, -, same⟩ := State.reefed_shows (v.booted_pd kind true false (d := .miller) (by decide))
  have last : SameSlots u (v.coldStart kind true false) := by
    rw [v.coldStart_booted]
    exact (off.then started).then (.of_fw (same normal))
  have straps := v.coldStart_kept kind true false
  refine ⟨?_, ?_, ?_, ?_, ?_, (v.coldStart_shows small true false).cause.2, ?_, fun i hi => ?_⟩
  · rw [straps _ (by decide), kept _ (by decide), slot]
  · rw [straps _ (by decide), kept _ (by decide), confirm]
  · rw [straps _ (by decide), kept _ (by decide), cycle]
  · rw [v.coldStart_booted, same normal, normal]
  · rw [last.2.2]
    exact good
  · rw [last.2.1, manifest]
  · rw [last.1, parts i hi]

/-! Each request in its open session. -/

section
variable {s : State} {q : HyicaReq}

theorem hyManifest_begins (may : s.fw.recovery = true ∨ 2 ≤ s.key) (inside : InSession s q 0x10) (open_ : s.fwOpen = true)
    (idle : s.rd F.FW_STATUS_state ∉ [1, 3]) (long : 4 ≤ q.payload.length) (first : beAt q.payload 0 4 = 0)
    (short : (q.payload.drop 4).length < 1408) : Does (.hyManifest q) s (fun t => FwAnswered t q 0x10 0 ∧
      t.fw.build = some ⟨2, q.payload.drop 4, false, [], []⟩ ∧ t.rd F.FW_STATUS_state = 1 ∧ t.rd F.FW_STATUS_session = 2) := by
  have acts := (tended_runs may (fun s => if q.payload.length < 4 then plain (s.fwNote 1, 1)
    else plain (s.manifestPiece 2 (beAt q.payload 0 4) (q.payload.drop 4)))).trans
      ((if_neg (Nat.not_lt.2 long)).trans (by rw [first, State.manifestPiece_begins open_ idle short]))
  refine ⟨_, inside.does (by decide) (Eq.refl _) acts, FwAnswered.done _ q 0x10, rfl, ?_, ?_⟩
  · exact (State.rd_wr_ne _ F.FW_STATUS_session F.FW_STATUS_state 2 (by decide)).trans (State.rd_wr_same _ F.FW_STATUS_state 1)
  · exact State.rd_wr_same _ F.FW_STATUS_session 2

theorem hyDelta_takes (may : s.fw.recovery = true ∨ 2 ≤ s.key) {b : FwBuild} (inside : InSession s q 0x11) (head : PieceHead q)
    (normal : s.fw.recovery = false) (dram : s.pd .dram = true) (build : s.fw.build = some b) (source : b.source = 2)
    (verified : b.verified = true) (listed : byteAt q.payload 0 ∈ manParts b.manifest)
    (next : beAt q.payload 4 4 = (b.before_ (byteAt q.payload 0) (beAt q.payload 4 4)).length) :
    let part := byteAt q.payload 0
    let d := b.before_ part (beAt q.payload 4 4) ++ q.payload.drop 8
    let last := bitOf (byteAt q.payload 1) 0
    let built := applyDelta (s.fwPart s.fwSlot part) d part (manHash b.manifest part)
    Does (.hyDelta q) s (fun t =>
      (last = false → FwAnswered t q 0x11 0 ∧ t.fw.build = some { b with delta := SMap.put b.delta part d }) ∧
      (∀ x, last = true → built = .ok x → FwAnswered t q 0x11 0 ∧
        t.fw.build = some { b with parts := SMap.put b.parts part x, delta := SMap.del b.delta part }) ∧
      (∀ code, last = true → built = .error code → FwAnswered t q 0x11 code ∧ t.fw.build = none)) := by
  intro part d last built
  have acts := (tended_runs may (fun s => s.pieceOf q (fun p o d last => s.deltaPiece 2 p o d last))).trans (head.runs s _)
  rw [State.deltaPiece_taken normal dram build source verified listed next] at acts
  refine ⟨_, inside.does (by decide) (Eq.refl _) acts, fun more => ?_, fun x whole ok_ => ?_, fun code whole failed => ?_⟩
  · rw [if_neg (by simp [show bitOf (byteAt q.payload 1) 0 = false from more])]
    exact ⟨FwAnswered.done _ q 0x11, rfl⟩
  · obtain ⟨status, fw⟩ := State.deltaEnds_builds ok_
    rw [if_pos whole]
    refine ⟨?_, fw⟩
    simp only [plain]
    rw [status]
    exact FwAnswered.done _ q 0x11
  · obtain ⟨over_, refused⟩ := s.fwFail_fails (applyDelta_code failed)
    rw [if_pos whole, State.deltaEnds_fails failed]
    exact ⟨FwAnswered.refused refused q 0x11, over_⟩

theorem hyImage_takes (may : s.fw.recovery = true ∨ 2 ≤ s.key) {b : FwBuild} (inside : InSession s q 0x12) (head : PieceHead q)
    (rom : s.fw.recovery = true) (build : s.fw.build = some b) (verified : b.verified = true)
    (listed : byteAt q.payload 0 ∈ manParts b.manifest)
    (next : beAt q.payload 4 4 = (b.before_ (byteAt q.payload 0) (beAt q.payload 4 4)).length) :
    let part := byteAt q.payload 0
    let d := b.before_ part (beAt q.payload 4 4) ++ q.payload.drop 8
    let last := bitOf (byteAt q.payload 1) 0
    let fits := Config.sha384 d = manHash b.manifest part
    Does (.hyImage q) s (fun t =>
      (last = false → FwAnswered t q 0x12 0 ∧ t.fw.build = some { b with delta := SMap.put b.delta part d }) ∧
      (last = true → fits → FwAnswered t q 0x12 0 ∧
        t.fw.build = some { b with parts := SMap.put b.parts part d, delta := SMap.del b.delta part }) ∧
      (last = true → ¬fits → FwAnswered t q 0x12 6 ∧ t.fw.build = none)) := by
  intro part d last fits
  have acts := (tended_runs may (fun s => s.pieceOf q s.imagePiece)).trans (head.runs s _)
  rw [State.imagePiece_taken rom build verified listed next] at acts
  refine ⟨_, inside.does (by decide) (Eq.refl _) acts, fun more => ?_, fun whole good => ?_, fun whole bad => ?_⟩
  · rw [if_neg (by simp [show bitOf (byteAt q.payload 1) 0 = false from more])]
    exact ⟨FwAnswered.done _ q 0x12, rfl⟩
  · rw [if_pos whole, if_pos good]
    exact ⟨FwAnswered.done _ q 0x12, rfl⟩
  · obtain ⟨over_, refused⟩ := s.fwFail_fails (code := 6) (by decide)
    rw [if_pos whole, if_neg bad]
    exact ⟨FwAnswered.refused refused q 0x12, over_⟩

theorem hyActivate_orders (may : s.fw.recovery = true ∨ 2 ≤ s.key) (inside : InSession s q 0x20) (normal : s.fw.recovery = false)
    (mode : q.payload = [0]) (built : s.rd F.FW_STATUS_state = 2) (free : s.hop.armed = none) (offline : s.rd F.ONLINE_STATUS_state = 0)
    (orders : s.ply.orders = []) (compatible : s.compatible = true) (alone : s.fwPly = false) :
    Does (.hyActivate q) s (fun t => HyReplied t q 0x20 q.session.toNat 0 (beBytes 8 s.switchBoundary) ∧
      t.rd F.FW_STATUS_state = 3 ∧ t.fw.activateAt = some s.switchBoundary) := by
  have acts : tended (fun s =>
      if q.payload.length ≠ 1 then plain (s.fwNote 1, 1)
      else if s.fw.recovery then plain (s.fwNote 9, 9)
      else
        let r := s.activate (byteAt q.payload 0)
        (r.1, r.2.1, if r.2.1 = 0 then beBytes 8 r.2.2 else [])) s = (s.activated, 0, beBytes 8 s.switchBoundary) := by
    rw [tended_runs may, mode, if_neg (by decide), if_neg (by simp [normal]), show byteAt [0] 0 = 0 from rfl,
      State.activate_orders built free offline orders compatible alone]
    rfl
  exact ⟨_, inside.does (by decide) (Eq.refl _) acts, State.respondKept_replied .., State.rd_wr_same s F.FW_STATUS_state 3, rfl⟩

theorem hyConfirm_takes (may : s.fw.recovery = true ∨ 2 ≤ s.key) (inside : InSession s q 0x21) (empty : q.payload = []) :
    Does (.hyConfirm q) s (fun t =>
      (s.rd F.FW_STATUS_confirm = 1 → FwAnswered t q 0x21 0 ∧ t.fw.commanded = true) ∧
      (s.rd F.FW_STATUS_confirm ≠ 1 → FwAnswered t q 0x21 9 ∧ t.fw.commanded = s.fw.commanded)) := by
  have acts : tended (emptyPayload q (fun s => plain s.commandConfirm)) s = plain s.commandConfirm :=
    (tended_runs may _).trans (emptyPayload_runs empty _ _)
  obtain ⟨pending, other⟩ := s.commandConfirm_takes
  refine ⟨_, inside.does (by decide) (Eq.refl _) acts, fun is => ?_, fun not => ?_⟩
  · obtain ⟨status, commanded⟩ := pending is
    refine ⟨?_, commanded⟩
    simp only [plain]
    rw [status]
    exact FwAnswered.done _ q 0x21
  · rw [other not]
    exact ⟨FwAnswered.refused (s.fwNote_refused (by decide)) q 0x21, rfl⟩

theorem hyRecover_wants (stop : s.key = 3) (empty : q.payload = []) (inside : InSession s q 0x22) :
    Does (.hyRecover q) s (fun t => FwAnswered t q 0x22 0 ∧ t.rd F.FW_STATUS_lifecycle = 2 ∧ t.fw.recoverWanted = true) := by
  have acts := (stopped_runs stop (emptyPayload q (fun s =>
    let s := s.wr F.FW_STATUS_lifecycle 2
    ({ s with fw := { s.fw with recoverWanted := true } }, 0, [])))).trans (emptyPayload_runs empty _ _)
  exact ⟨_, inside.does (by decide) (Eq.refl _) acts, FwAnswered.done _ q 0x22, State.rd_wr_same s F.FW_STATUS_lifecycle 2, rfl⟩

theorem hyRetire_erases (stop : s.key = 3) (empty : q.payload = []) (inside : InSession s q 0x23) :
    Does (.hyRetire q) s (fun t => FwAnswered t q 0x23 0 ∧ t.rd F.FW_STATUS_lifecycle = 3 ∧
        t.hop.mram = [] ∧ t.tasks.retain = [] ∧ t.recorder.records = [] ∧ t.rd F.REC_STATUS_pointer = 0 ∧ t.fw.good = [] ∧
        (∀ n < 32, SMap.find t.fw.slots n = some []) ∧ t.image = s.image ∧ t.hop.active = s.hop.active) := by
  have acts := (stopped_runs stop (emptyPayload q (fun s => (s.eraseMram.wr F.FW_STATUS_lifecycle 3, 0, [])))).trans
    (emptyPayload_runs empty _ _)
  have erases := s.eraseMram_erases
  refine ⟨_, inside.does (by decide) (Eq.refl _) acts, FwAnswered.done _ q 0x23, ?_⟩
  generalize s.eraseMram = u at erases
  obtain ⟨mram, retain, records, pointer, good, slots, image, active⟩ := erases
  exact ⟨State.rd_wr_same u F.FW_STATUS_lifecycle 3, mram, retain, records,
    (State.rd_wr_ne u F.FW_STATUS_lifecycle F.REC_STATUS_pointer 3 (by decide)).trans pointer, good, slots, image, active⟩

/-- Every request of building and activation below TEND is refused. -/
theorem belowTend_refused (normal : s.fw.recovery = false) (low : s.key < 2) {op : Nat} {c : Instr} (request : HyRequest q op c)
    (building : op ∈ [0x10, 0x11, 0x12, 0x20, 0x21]) (inside : InSession s q op) :
    Does c s (fun t => FwAnswered t q op 4 ∧ t.fw.build = s.fw.build ∧ t.fw.activateAt = s.fw.activateAt) := by
  obtain ⟨hello, act, run⟩ := request.tended building
  exact ⟨_, inside.does hello (run s) (tended_refuses normal low act), FwAnswered.refused (s.fwNote_refused (by decide)) q op, rfl, rfl⟩

theorem awayFromStop_refused (away : s.key ≠ 3) {op : Nat} {c : Instr} (request : HyRequest q op c) (ending : op ∈ [0x22, 0x23])
    (inside : InSession s q op) :
    Does c s (fun t => FwAnswered t q op 4 ∧ t.rd F.FW_STATUS_lifecycle = s.rd F.FW_STATUS_lifecycle ∧ t.hop = s.hop) := by
  obtain ⟨hello, act, run⟩ := request.stopped ending
  exact ⟨_, inside.does hello (run s) (stopped_refuses away act), FwAnswered.refused (s.fwNote_refused (by decide)) q op,
    s.fwNote_rd 4 ⟨by decide, by decide⟩, rfl⟩

end

/-- Settles O49: each firmware request in an open session, and the two starts that they lead to. -/
theorem hyicaFirmwareRequests : Obligations.HyicaFirmwareRequests := by
  intro s q
  exact ⟨fun normal low op c request building inside => belowTend_refused normal low request building inside,
    fun away op c request ending inside => awayFromStop_refused away request ending inside,
    fun may => ⟨hyManifest_begins may, fun b => hyDelta_takes may, fun b => hyImage_takes may, hyActivate_orders may, hyConfirm_takes may⟩,
    fun stop empty => ⟨hyRecover_wants stop empty, hyRetire_erases stop empty⟩,
    recoverReset_recovers, fun b => recoveryImageDone_starts⟩

end Sys2Proof.Machine

/-! PROOFS. What the ply's registers and working state show across a change of role, and a takeover (R277, R289). -/

namespace Sys2Proof.Machine

/-- The ply's registers that a change of role and its events leave as they are. -/
def roleFlds : List Fld := [F.PLY_STATUS_partner_state, F.PLY_STATUS_home, F.PLY_STATUS_home_err, F.PLY_STATUS_ply_pos,
  F.PLY_STATUS_link, F.PLY_STATUS_tok_in, F.PLY_STATUS_abd_in, F.PLY_STATUS_abd_out, F.PLY_STATUS_mill_hb_seen,
  F.PLY_STATUS_muted, F.PLY_STATUS_diverged, F.PLY_STATUS_cmd_refused, F.PLY_EPOCH_epoch, F.PLY_REASON_untracked,
  F.PLY_REASON_takeover, F.PLY_REASON_abdication, F.PLY_JOIN_phase, F.PLY_JOIN_attempts, F.PLY_JOIN_fail, F.PLY_JOIN_backlog,
  F.PLY_TAKEOVER_TURN_LO_turn, F.PLY_TAKEOVER_TURN_HI_turn, F.PLY_COUNTS_mismatches]

/-- With them the ply state. -/
def plyFlds : List Fld := F.PLY_STATUS_state :: roleFlds

theorem roleFlds_place : ∀ f ∈ roleFlds, f.In .ply ∧ F.PLY_STATUS_state.key ≠ f.key ∧ F.PLY_EVT_evt.key ≠ f.key := by decide

theorem plyFlds_place : ∀ f ∈ plyFlds, f.In .ply ∧ F.PLY_EVT_evt.key ≠ f.key := by decide

theorem Kept.of_offPly {B : List Bank} {s t : State} (h : RegsIn B s t) (apart : Bank.ply ∉ B) : Kept plyFlds s t :=
  fun f hf => h.rd_eq (plyFlds_place f hf).1 apart

theorem State.plyEvt_kept (s : State) {i : Nat} (hi : i < 10) : Kept plyFlds s (s.plyEvt i) :=
  fun f hf => s.plyEvt_rd (by omega) (plyFlds_place f hf).1 (plyFlds_place f hf).2

theorem State.setPlyState_kept (s : State) (n : Nat) : Kept roleFlds s (s.setPlyState n) :=
  fun f hf => s.setPlyState_rd n (roleFlds_place f hf).1 (roleFlds_place f hf).2.1 (roleFlds_place f hf).2.2

theorem State.setMuted_rd (s : State) (b : Bool) {f : Fld} (hf : f.In .ply) (apart : F.PLY_STATUS_muted.key ≠ f.key) :
    (s.setMuted b).rd f = s.rd f := by
  have other (i : Nat) : (F.MB_STATUS_muted i).key ≠ f.key := Fld.key_ne_off (by simp [F.MB_STATUS_muted]) hf.1 (by
    have := hf.2.2
    simp only [F.MB_STATUS_muted, Bank.range] at this ⊢
    omega)
  rw [State.setMuted, State.rd_wrb_ne _ _ _ _ (other 1), State.rd_wrb_ne _ _ _ _ (other 0), State.rd_wrb_ne _ _ _ _ apart]

theorem State.setMuted_muted (s : State) (b : Bool) : (s.setMuted b).rd F.PLY_STATUS_muted = bit b := by
  rw [State.setMuted, State.rd_wrb_ne _ _ _ _ (by decide), State.rd_wrb_ne _ _ _ _ (by decide)]
  exact State.rd_wrb_same _ _ (by decide)

/-- From s to t the ply's working state is the same but for what only a standby holds (R277). -/
def PlyStays (s t : State) : Prop :=
  t.ply = { s.ply with trackSince := t.ply.trackSince, silentTest := t.ply.silentTest }

theorem PlyStays.of_ply {s t : State} (h : t.ply = s.ply) : PlyStays s t := by rw [PlyStays, h]

theorem State.setPlyState_ply (s : State) (n : Nat) : PlyStays s (s.setPlyState n) := by
  have dropped (c : Bool) : (if c then s.dropArmed none else s).ply = s.ply := by
    cases c
    · rfl
    · exact (s.dropArmed_keeps none).ply (by decide)
  have told (t : State) : ((t.wr F.PLY_STATUS_state n).plyEvt 0).ply = t.ply := (State.plyEvt_keeps _ _).ply (by decide)
  have cleared (t : State) : ((upTo 16).foldl (fun s p => s.wr (F.SK_STATUS_proxy p) 0) t).ply = t.ply :=
    List.foldlRecOn _ _ (motive := fun u : State => u.ply = t.ply) rfl (fun _ hu _ _ => hu)
  unfold State.setPlyState
  split
  · exact .of_ply rfl
  · simp only
    rw [PlyStays, (State.row19_keeps _).ply (by decide)]
    split
    · simp only [told, dropped]
    · simp only [cleared, told, dropped]

/-! The takeover (R289). -/

/-- The turn and the settings as a takeover leaves them. -/
def TurnStays (s t : State) : Prop := t.turn = s.turn ∧ t.hop.active = s.hop.active

theorem TurnStays.of_keeps {A : List Part} {s t : State} (h : Keeps A s t) (apart : Part.turn ∉ A ∧ Part.settings ∉ A) :
    TurnStays s t := ⟨h.parts .turn apart.1, h.parts .settings apart.2⟩

theorem TurnStays.then {s t u : State} (h : TurnStays s t) (g : TurnStays t u) : TurnStays s u :=
  ⟨g.1.trans h.1, g.2.trans h.2⟩

/-- The state in which a standby has become active in place of its partner, before it unmutes. -/
def State.tookRole (s : State) : State :=
  let s := (s.wr F.PLY_EPOCH_epoch (s.epoch + 1)).resumeAll.setPlyState (if s.plyUp then 2 else 1)
  { s with ply := { s.ply with
    tokOut := true, catchUp := s.stations, takeoverAt := some s.workNs, diverged := [], silentTest := false } }

/-- A takeover, where the module is fit and its epoch can rise. -/
theorem State.takeover_of {s : State} (tests : s.isStandby = true ∨ s.ply.silentTest = true) (fit : s.rd F.TURN_WDOG_tripped = 0)
    (epoch : s.rd F.PLY_EPOCH_epoch < 0xFFFFFFF) (cause : Nat) : s.takeover cause =
      ((((s.tookRole.setMuted false).queueHeartbeat.recordTakeover cause).plyEvt 1).fireTrigger 59 0xFF 0 0) := by
  have may : s.isStandby || s.ply.silentTest := by simpa using tests
  have raised : s.raiseEpoch = (s.wr F.PLY_EPOCH_epoch (s.epoch + 1), true) :=
    if_neg (by simp only [State.epoch, epochMax]; omega)
  have up : (s.wr F.PLY_EPOCH_epoch (s.epoch + 1)).plyUp = s.plyUp :=
    congrArg (· == 2) (State.rd_wr_ne _ F.PLY_EPOCH_epoch F.PLY_STATUS_link (s.epoch + 1) (by decide))
  unfold State.takeover
  rw [if_neg (by simp [may, State.on, fit]), raised]
  simp only
  rw [up]
  rfl

theorem State.tookRole_stays (s : State) : TurnStays s s.tookRole := by
  have resumed : TurnStays (s.wr F.PLY_EPOCH_epoch (s.epoch + 1)) (s.wr F.PLY_EPOCH_epoch (s.epoch + 1)).resumeAll :=
    TurnStays.of_keeps (s.wr F.PLY_EPOCH_epoch (s.epoch + 1)).resumeAll_keeps (by decide)
  have changed := TurnStays.of_keeps (State.setPlyState_keeps (s.wr F.PLY_EPOCH_epoch (s.epoch + 1)).resumeAll
    (if s.plyUp then 2 else 1)) (by decide)
  exact (resumed.then changed)

theorem State.tookRole_shows (s : State) (epoch : s.rd F.PLY_EPOCH_epoch < 0xFFFFFFF) :
    s.tookRole.rd F.PLY_STATUS_state = (if s.rd F.PLY_STATUS_link = 2 then 2 else 1) ∧
    s.tookRole.rd F.PLY_EPOCH_epoch = s.rd F.PLY_EPOCH_epoch + 1 ∧ s.tookRole.ply.tokOut = true ∧
    s.tookRole.ply.catchUp = s.stations := by
  have small : (if s.plyUp then 2 else 1) < 8 := by split <;> decide
  refine ⟨?_, ?_, Eq.refl _, ?_⟩
  · have shown := State.setPlyState_state (s.wr F.PLY_EPOCH_epoch (s.epoch + 1)).resumeAll small
    refine Eq.trans (by exact shown) ?_
    simp only [State.plyUp, beq_iff_eq]
  · have kept := State.setPlyState_kept (s.wr F.PLY_EPOCH_epoch (s.epoch + 1)).resumeAll (if s.plyUp then 2 else 1)
      F.PLY_EPOCH_epoch (by decide)
    refine Eq.trans (by exact kept) ?_
    rw [(State.resumeAll_in _).rd_eq (b := .ply) (by decide) (by decide), State.rd_wr_same]
    exact Nat.mod_eq_of_lt (show s.rd F.PLY_EPOCH_epoch + 1 < 2 ^ 28 by omega)
  · exact congrArg presentIn s.tookRole_stays.2

theorem State.recordTakeover_shows (s : State) {cause : Nat} (hc : cause < 16) :
    (s.recordTakeover cause).rd F.PLY_REASON_takeover = cause ∧
    (s.recordTakeover cause).rd F.PLY_TAKEOVER_TURN_LO_turn = s.turn.k % 2 ^ 32 ∧
    (s.recordTakeover cause).rd F.PLY_TAKEOVER_TURN_HI_turn = s.turn.k / 2 ^ 32 % 2 ^ 32 := by
  unfold State.recordTakeover State.inc
  refine ⟨?_, ?_, ?_⟩
  · rw [State.rd_add_ne _ _ _ _ (by decide), State.rd_wr_ne _ _ _ _ (by decide), State.rd_wr_ne _ _ _ _ (by decide),
      State.rd_wr_same]
    exact Nat.mod_eq_of_lt hc
  · rw [State.rd_add_ne _ _ _ _ (by decide), State.rd_wr_ne _ _ _ _ (by decide), State.rd_wr_same]
    exact Nat.mod_mod _ _
  · rw [State.rd_add_ne _ _ _ _ (by decide), State.rd_wr_same]
    exact congrArg (· % 2 ^ 32) (Nat.shiftRight_eq_div_pow _ _)

theorem State.recordTakeover_kept (s : State) (cause : Nat) :
    Kept [F.PLY_STATUS_state, F.PLY_EPOCH_epoch, F.PLY_STATUS_muted] s (s.recordTakeover cause) := by
  intro f hf
  have apart : ∀ f ∈ [F.PLY_STATUS_state, F.PLY_EPOCH_epoch, F.PLY_STATUS_muted], F.PLY_STATUS_diverged.key ≠ f.key ∧
    F.PLY_LAST_DELAY_ns.key ≠ f.key ∧ F.PLY_REASON_takeover.key ≠ f.key ∧ F.PLY_TAKEOVER_TURN_LO_turn.key ≠ f.key ∧
    F.PLY_TAKEOVER_TURN_HI_turn.key ≠ f.key ∧ F.PLY_COUNTS_takeovers.key ≠ f.key := by decide
  obtain ⟨diverged, delay, reason, low, high, count⟩ := apart f hf
  unfold State.recordTakeover State.inc
  rw [State.rd_add_ne _ _ _ _ count, State.rd_wr_ne _ _ _ _ high, State.rd_wr_ne _ _ _ _ low, State.rd_wr_ne _ _ _ _ reason,
    State.rd_wr_ne _ _ _ _ delay, State.rd_wr_ne _ _ _ _ diverged]

/-- The fields of a takeover, with what the ply's working state shows of it. -/
structure TookKept (t u : State) : Prop where
  regs : Kept plyFlds t u
  ply : u.ply.tokOut = t.ply.tokOut ∧ u.ply.catchUp = t.ply.catchUp
  turn : u.turn = t.turn

theorem TookOver.then {s t u : State} {cause : Nat} (h : TookOver s t cause) (g : TookKept t u) : TookOver s u cause := by
  obtain ⟨state, epoch, out, muted, reason, low, high, due, turn⟩ := h
  refine ⟨?_, ?_, g.ply.1.trans out, ?_, ?_, ?_, ?_, g.ply.2.trans due, g.turn.trans turn⟩ <;> rw [g.regs _ (by decide)]
    <;> assumption

/-- A takeover from a state whose link, epoch, turn and settings are those of s is one from s. -/
theorem TookOver.from {r s t : State} {cause : Nat} (h : TookOver s t cause) (regs : Kept [F.PLY_STATUS_link, F.PLY_EPOCH_epoch] r s)
    (stays : TurnStays r s) : TookOver r t cause := by
  obtain ⟨state, epoch, out, muted, reason, low, high, due, turn⟩ := h
  rw [regs _ (by decide)] at state epoch
  rw [stays.1] at low high turn
  exact ⟨state, epoch, out, muted, reason, low, high, due.trans (congrArg presentIn stays.2), turn⟩

theorem State.takeover_takes {s : State} (tests : s.isStandby = true ∨ s.ply.silentTest = true) (fit : s.rd F.TURN_WDOG_tripped = 0)
    (epoch : s.rd F.PLY_EPOCH_epoch < 0xFFFFFFF) {cause : Nat} (hc : cause < 16) : TookOver s (s.takeover cause) cause := by
  rw [State.takeover_of tests fit epoch]
  obtain ⟨state, raised, out, due⟩ := s.tookRole_shows epoch
  have stays := s.tookRole_stays
  generalize s.tookRole = u at state raised out due stays
  have unmuted : (u.setMuted false).queueHeartbeat.rd F.PLY_STATUS_muted = 0 := by
    rw [(State.queueHeartbeat_in _).rd_eq (b := .ply) (by decide) (by decide), State.setMuted_muted]
    rfl
  have still {f : Fld} (hf : f.In .ply) (apart : F.PLY_STATUS_muted.key ≠ f.key) :
      (u.setMuted false).queueHeartbeat.rd f = u.rd f := by
    rw [(State.queueHeartbeat_in _).rd_eq hf (by decide), State.setMuted_rd _ _ hf apart]
  have same : (u.setMuted false).queueHeartbeat.ply = u.ply ∧ (u.setMuted false).queueHeartbeat.turn = u.turn :=
    ⟨((State.queueHeartbeat_keeps _).ply (by decide)).trans ((State.setMuted_keeps _ _).ply (by decide)),
      Eq.trans ((State.queueHeartbeat_keeps _).parts .turn (by decide)) ((State.setMuted_keeps _ _).parts .turn (by decide))⟩
  replace state := (still (f := F.PLY_STATUS_state) (by decide) (by decide)).trans state
  replace raised := (still (f := F.PLY_EPOCH_epoch) (by decide) (by decide)).trans raised
  generalize (u.setMuted false).queueHeartbeat = v at unmuted state raised same
  obtain ⟨reason, low, high⟩ := v.recordTakeover_shows hc
  have kept := v.recordTakeover_kept cause
  have recorded : (v.recordTakeover cause).ply = v.ply ∧ (v.recordTakeover cause).turn = v.turn :=
    ⟨(State.recordTakeover_keeps _ _).ply (by decide), (State.recordTakeover_keeps _ _).parts .turn (by decide)⟩
  have took : TookOver s (v.recordTakeover cause) cause := by
    refine ⟨?_, ?_, ?_, ?_, reason, ?_, ?_, ?_, ?_⟩
    · rw [kept _ (by decide), state]
    · rw [kept _ (by decide), raised]
    · rw [recorded.1, same.1, out]
    · rw [kept _ (by decide), unmuted]
    · rw [low, same.2, stays.1]
    · rw [high, same.2, stays.1]
    · rw [recorded.1, same.1, due]
    · rw [recorded.2, same.2, stays.1]
  have told := (v.recordTakeover cause).plyEvt_keeps 1
  refine (took.then ⟨(v.recordTakeover cause).plyEvt_kept (i := 1) (by decide), ?_, ?_⟩).then ⟨?_, ?_, ?_⟩
  · rw [told.ply (by decide)]
    exact ⟨rfl, rfl⟩
  · exact told.parts .turn (by decide)
  · exact .of_offPly (State.fireTrigger_in _ _ _ _ _) (by decide)
  · rw [(State.fireTrigger_keeps _ _ _ _ _).ply (by decide)]
    exact ⟨rfl, rfl⟩
  · exact (State.fireTrigger_keeps _ _ _ _ _).parts .turn (by decide)

end Sys2Proof.Machine

/-! PROOFS. O34: a silent or abdicating partner judged, and the catch-up frames of a takeover (R286, R290). -/

namespace Sys2Proof.Machine

/-! Leaving tracking (R281). -/

theorem LeftTracking.then {t u : State} {reason : Nat} (h : LeftTracking t reason)
    (regs : Kept [F.PLY_STATUS_state, F.PLY_REASON_untracked] t u) (events : BitsStay F.PLY_EVT_evt t u) : LeftTracking u reason := by
  obtain ⟨state, shown, told⟩ := h
  exact ⟨(regs _ (by decide)).trans state, (regs _ (by decide)).trans shown, events 3 (by decide) told⟩

theorem State.leaveTracking_leaves {s : State} (standby : s.plyState = 4) {reason : Nat} (hr : reason < 16) :
    LeftTracking (s.leaveTracking reason) reason := by
  have tracks : s.isStandby = true := by simp [State.isStandby, standby]
  obtain ⟨state, shown⟩ := State.leaveTracking_shows tracks hr
  refine ⟨state, shown, ?_⟩
  unfold State.leaveTracking
  rw [if_neg (by simp [tracks])]
  exact (State.plyEvt_bits _ (by decide)).2

/-! The judgement (R286). -/

section
variable {s : State}

theorem State.judgePartner_rests (other : s.plyState ≠ 4) (quiet : s.ply.silentTest = false ∨ s.plyState ≠ 5) :
    s.judgePartner = s := by
  have out : s.isStandby = false := by simpa [State.isStandby] using other
  unfold State.judgePartner
  rw [if_neg (by simp [out]), if_neg]
  rcases quiet with quiet | quiet <;> simp [quiet]

theorem State.judgePartner_abdicated (standby : s.plyState = 4) (line : s.rd F.PLY_STATUS_abd_in = 1) :
    s.judgePartner = s.tryTakeover 1 := by
  unfold State.judgePartner
  rw [if_pos (by simp [State.isStandby, standby]), if_pos (by simp [State.on, line])]

/-- What a standby does whose partner has missed three HEARTBEATs and has not abdicated. -/
theorem State.judgePartner_silent (standby : s.plyState = 4) (line : s.rd F.PLY_STATUS_abd_in = 0) (missed : 3 ≤ s.ply.hbMissed) :
    (s.rd F.PLY_STATUS_tok_in = 1 → s.judgePartner = s.tryTakeover 2) ∧
    (s.rd F.PLY_STATUS_tok_in = 2 → s.judgePartner = s.leaveTracking 3) ∧
    (s.rd F.PLY_STATUS_tok_in = 0 → s.silentEvidence = true → s.judgePartner = s.tryTakeover 3) ∧
    (s.rd F.PLY_STATUS_tok_in = 0 → s.silentEvidence = false → s.judgePartner =
      { s.leaveTracking 12 with ply := { (s.leaveTracking 12).ply with silentTest := true } }) := by
  unfold State.judgePartner
  rw [if_pos (by simp [State.isStandby, standby]), if_neg (by simp [State.on, line]), if_neg (by omega)]
  refine ⟨fun h => ?_, fun h => ?_, fun h e => ?_, fun h e => ?_⟩ <;> simp only [h]
  · exact if_pos e
  · exact if_neg (by simp [e])

theorem State.tryTakeover_takes (may : MayTakeOver s) {cause : Nat} (hc : cause < 16)
    (clean : cause = 1 → ∀ t < 16, s.bothLate t = false) : TookOver s (s.tryTakeover cause) cause := by
  obtain ⟨standby, fit, epoch, calm⟩ := may
  have none_ : (upTo 16).find? (fun t => (s.task t).overrun.isSome || (cause == 1 && s.bothLate t)) = none := by
    refine List.find?_eq_none.2 fun t ht => ?_
    have small := mem_upTo.1 ht
    by_cases first : cause = 1
    · simp [calm t small, clean first t small]
    · simp [calm t small, first]
  unfold State.tryTakeover
  rw [none_]
  exact State.takeover_takes (.inl (by simp [State.isStandby, standby])) fit epoch hc

/-- A standby whose own task has overrun brakes (R46). -/
theorem State.tryTakeover_brakes {t : Nat} (small : t < 16) (ran : (s.task t).overrun ≠ none) (halted : s.rd F.TASK_RUN_run_state ≠ 3)
    (cause : Nat) : (s.tryTakeover cause).rd F.TASK_RUN_run_state = 3 ∧ Kept plyFlds s (s.tryTakeover cause) := by
  obtain ⟨u, found⟩ : ∃ u, (upTo 16).find? (fun t => (s.task t).overrun.isSome || (cause == 1 && s.bothLate t)) = some u :=
    Option.isSome_iff_exists.1 (List.find?_isSome.2 ⟨t, mem_upTo.2 small, by simp [Option.isSome_iff_ne_none.2 ran]⟩)
  have hu := upTo_lt (List.mem_of_find?_eq_some found)
  unfold State.tryTakeover
  rw [found]
  refine ⟨?_, .of_offPly (State.overrunStop_in _ u _ _ hu) (by decide)⟩
  have runs : ((s.wr (F.TASK_STATUS_overran u) 1).taskEvt u 1).rd F.TASK_RUN_run_state ≠ 3 := by
    rw [(State.taskEvt_in _ _ _ hu).rd_eq (b := .run) (by decide) (by decide),
      State.rd_wr_ne _ _ _ _ (by simp only [Fld.key, F.TASK_STATUS_overran, F.TASK_RUN_run_state]; omega)]
    exact halted
  change (s.overrunStop u false s.turn.nextRel).rd F.TASK_RUN_run_state = 3
  unfold State.overrunStop
  simp only [Bool.false_eq_true, if_false]
  rw [if_neg (by simpa using runs)]
  exact State.rd_wr_same _ F.TASK_RUN_run_state 3

/-- A takeover stands when the module then wakes, and when the matrix is taken again. -/
theorem TookKept.wake (t : State) (n : Nat) : TookKept t (t.wake n) := by
  refine ⟨.of_offPly (t.wake_in n) (by decide), ?_, (t.wake_keeps n).parts .turn (by decide)⟩
  rw [(t.wake_keeps n).ply (by decide)]
  exact ⟨rfl, rfl⟩

theorem TookKept.row19 (t : State) : TookKept t t.row19 := by
  refine ⟨.of_offPly t.row19_in (by decide), ?_, t.row19_keeps.parts .turn (by decide)⟩
  rw [t.row19_keeps.ply (by decide)]
  exact ⟨rfl, rfl⟩

/-- Another value of a register of the ply leaves a standby that may take over so. -/
theorem MayTakeOver.wr (may : MayTakeOver s) {f : Fld} (v : Nat) (apart : f.In .ply ∧ F.PLY_STATUS_state.key ≠ f.key ∧
    F.PLY_EPOCH_epoch.key ≠ f.key) : MayTakeOver (s.wr f v) := by
  obtain ⟨standby, fit, epoch, calm⟩ := may
  obtain ⟨hf, state, raised⟩ := apart
  refine ⟨(State.rd_wr_ne _ _ _ _ state.symm).trans standby, (State.rd_wr_ne _ _ _ _ ?_).trans fit, ?_, calm⟩
  · have := hf.2
    exact Fld.key_ne_off hf.1 (by decide) (by simp only [F.TURN_WDOG_tripped, Bank.range] at this ⊢; omega)
  · rw [State.rd_wr_ne _ _ _ _ raised.symm]
    exact epoch

/-! Each event's outcome. -/

/-- The code of a token class in PLY_STATUS (R275). -/
def tokCode : TokClass → Nat
  | .silent => 0
  | .notActive => 1
  | .active => 2

theorem tokCode_lt (c : TokClass) : tokCode c < 4 := by cases c <;> decide

/-- The mill bus is unmuted once the old active's token has fallen (R293). -/
def State.endGap (s : State) (c : TokClass) : State :=
  if s.ply.muteGap && tokCode c == 1 && s.isActive then
    (({ s with ply := { s.ply with muteGap := false } } : State).setMuted false).queueHeartbeat
  else s

theorem tokenClassChange_runs (s : State) (c : TokClass) :
    exec (.tokenClassChange c) s = .next ((s.wr F.PLY_STATUS_tok_in (tokCode c)).endGap c).loneIfLost.judgePartner.row19 := by
  cases c <;> rfl

theorem State.loneIfLost_rests (other : s.plyState ≠ 2 ∨ s.rd F.PLY_STATUS_link = 2 ∨ s.rd F.PLY_STATUS_tok_in = 2) :
    s.loneIfLost = s := by
  refine if_neg ?_
  rcases other with h | h | h <;> simp [State.plyUp, h]

theorem State.endGap_rests {c : TokClass} (other : s.isActive = false ∨ c ≠ .notActive) : s.endGap c = s := by
  refine if_neg ?_
  rcases other with h | h
  · simp [h]
  · cases c
    · simp [tokCode]
    · exact absurd (Eq.refl _) h
    · simp [tokCode]

theorem State.wr_plyState {f : Fld} (v : Nat) (apart : f.key ≠ F.PLY_STATUS_state.key) : (s.wr f v).plyState = s.plyState :=
  State.rd_wr_ne _ _ _ _ apart

theorem tokenClassChange_shows (c : TokClass) (calm : s.plyState = 0 ∨ s.plyState = 2 ∧ c = .active ∧ s.ply.muteGap = false)
    (quiet : s.ply.silentTest = false) :
    Does (.tokenClassChange c) s (fun t => t.rd F.PLY_STATUS_tok_in = tokCode c ∧
      t.rd F.PLY_STATUS_state = s.rd F.PLY_STATUS_state ∧ t.image = s.image) := by
  have state : (s.wr F.PLY_STATUS_tok_in (tokCode c)).plyState = s.plyState := State.wr_plyState _ (by decide)
  have shown : (s.wr F.PLY_STATUS_tok_in (tokCode c)).rd F.PLY_STATUS_tok_in = tokCode c :=
    (State.rd_wr_same _ _ _).trans (Nat.mod_eq_of_lt (tokCode_lt c))
  have run := tokenClassChange_runs s c
  have rests : ((s.wr F.PLY_STATUS_tok_in (tokCode c)).endGap c).loneIfLost.judgePartner = s.wr F.PLY_STATUS_tok_in (tokCode c) := by
    rcases calm with starts | ⟨starts, rfl, -⟩
    · rw [State.endGap_rests (.inl (by simp [State.isActive, state, starts])),
        State.loneIfLost_rests (.inl (by rw [state, starts]; decide)),
        State.judgePartner_rests (s := s.wr F.PLY_STATUS_tok_in (tokCode c)) (by rw [state, starts]; decide) (.inl quiet)]
    · rw [State.endGap_rests (.inr (by decide)), State.loneIfLost_rests (.inr (.inr shown)),
        State.judgePartner_rests (s := s.wr F.PLY_STATUS_tok_in (tokCode .active)) (by rw [state, starts]; decide) (.inl quiet)]
  rw [rests] at run
  have kept : Kept plyFlds (s.wr F.PLY_STATUS_tok_in (tokCode c)) (s.wr F.PLY_STATUS_tok_in (tokCode c)).row19 :=
    .of_offPly (State.row19_in _) (by decide)
  exact ⟨_, run, (kept _ (by decide)).trans shown, (kept _ (by decide)).trans state,
    ((execTokenClassChange_keeps c s).of_next run).parts .image (by decide)⟩

theorem State.setMuted_plyState (b : Bool) : (s.setMuted b).plyState = s.plyState :=
  State.setMuted_rd _ _ (f := F.PLY_STATUS_state) (by decide) (by decide)

/-- The unmuting changes no register of the ply but the mute itself. -/
theorem State.endGap_rd (c : TokClass) {f : Fld} (hf : f.In .ply) (apart : F.PLY_STATUS_muted.key ≠ f.key) :
    (s.endGap c).rd f = s.rd f := by
  unfold State.endGap
  split
  · rw [(State.queueHeartbeat_in _).rd_eq hf (by decide), State.setMuted_rd _ _ hf apart]
    rfl
  · rfl

theorem State.loneIfLost_lone (active : s.plyState = 2) (down : s.rd F.PLY_STATUS_link ≠ 2) (token : s.rd F.PLY_STATUS_tok_in ≠ 2) :
    s.loneIfLost.rd F.PLY_STATUS_state = 1 ∧ Kept roleFlds s s.loneIfLost ∧ bitOf (s.loneIfLost.rd F.PLY_EVT_evt) 2 = true := by
  have lost : s.loneIfLost = (s.setPlyState 1).plyEvt 2 := if_pos (by simp [State.plyUp, active, down, token])
  have told := (s.setPlyState 1).plyEvt_kept (i := 2) (by decide)
  rw [lost]
  refine ⟨?_, ?_, (State.plyEvt_bits _ (by decide)).2⟩
  · rw [told _ (by decide), State.setPlyState_state _ (by decide)]
  · exact (s.setPlyState_kept 1).then (told.sub fun f hf => List.mem_cons_of_mem _ hf)

theorem tokenClassChange_lone {c : TokClass} (other : c ≠ .active) (active : s.plyState = 2) (down : s.rd F.PLY_STATUS_link = 0) :
    Does (.tokenClassChange c) s (fun t => t.rd F.PLY_STATUS_state = 1 ∧ t.rd F.PLY_STATUS_tok_in = tokCode c ∧
      bitOf (t.rd F.PLY_EVT_evt) 2 = true) := by
  have run := tokenClassChange_runs s c
  have shown : ((s.wr F.PLY_STATUS_tok_in (tokCode c)).endGap c).rd F.PLY_STATUS_tok_in = tokCode c :=
    (State.endGap_rd c (by decide) (by decide)).trans ((State.rd_wr_same _ _ _).trans (Nat.mod_eq_of_lt (tokCode_lt c)))
  have leads : ((s.wr F.PLY_STATUS_tok_in (tokCode c)).endGap c).plyState = 2 :=
    (State.endGap_rd c (f := F.PLY_STATUS_state) (by decide) (by decide)).trans ((State.wr_plyState _ (by decide)).trans active)
  have link : ((s.wr F.PLY_STATUS_tok_in (tokCode c)).endGap c).rd F.PLY_STATUS_link = 0 :=
    (State.endGap_rd c (by decide) (by decide)).trans ((State.rd_wr_ne _ _ _ _ (by decide)).trans down)
  generalize (s.wr F.PLY_STATUS_tok_in (tokCode c)).endGap c = u at run shown leads link
  have token : u.rd F.PLY_STATUS_tok_in ≠ 2 := by
    intro code
    refine other ?_
    have named := shown.symm.trans code
    revert named
    cases c <;> decide
  obtain ⟨lone, kept, told⟩ := State.loneIfLost_lone leads (by rw [link]; decide) token
  rw [State.judgePartner_rests (by exact fun h => absurd (lone.symm.trans h) (by decide))
    (.inr fun h => absurd (lone.symm.trans h) (by decide))] at run
  have last : Kept plyFlds u.loneIfLost u.loneIfLost.row19 := .of_offPly (State.row19_in _) (by decide)
  refine ⟨_, run, (last _ (by decide)).trans lone, ?_, ?_⟩
  · rw [last _ (by decide), kept _ (by decide), shown]
  · rw [(State.row19_in _).rd_eq (b := .ply) (by decide) (by decide)]
    exact told

theorem heartbeatMissed_counts (few : s.plyState ≠ 4 ∧ s.ply.silentTest = false ∨ s.ply.hbMissed < 2) :
    Does .heartbeatMissed s (fun t => t = { s with ply := { s.ply with hbMissed := s.ply.hbMissed + 1 } }) := by
  refine ⟨_, ?_, rfl⟩
  change execHeartbeatMissed s = _
  unfold execHeartbeatMissed
  simp only
  rcases few with ⟨other, quiet⟩ | few
  · rw [State.judgePartner_rests (s := { s with ply := { s.ply with hbMissed := s.ply.hbMissed + 1 } }) other (.inl quiet)]
    exact ite_self _
  · exact if_pos (by omega)

theorem abdicateLineAsserted_shown (other : s.plyState ≠ 4) (quiet : s.ply.silentTest = false) :
    Does .abdicateLineAsserted s (fun t => t.rd F.PLY_STATUS_abd_in = 1 ∧ t.image = s.image ∧
      (s.wakeEnabled 4 = false → RegsIn [.ply] s t ∧ OnlyRegs s t)) := by
  have rests := State.judgePartner_rests (s := s.wr F.PLY_STATUS_abd_in 1)
    (by rw [State.wr_plyState _ (by decide)]; exact other) (.inl quiet)
  have run : exec .abdicateLineAsserted s = .next ((s.wr F.PLY_STATUS_abd_in 1).wake 4) :=
    congrArg (fun u : State => Host.Outcome.next (u.wake 4)) rests
  refine ⟨_, run, ?_, ((execAbdicateLineAsserted_keeps s).of_next run).parts .image (by decide), fun off => ?_⟩
  · rw [(State.wake_in _ _).rd_eq (b := .ply) (by decide) (by decide)]
    exact State.rd_wr_same _ _ _
  · rw [show (s.wr F.PLY_STATUS_abd_in 1).wake 4 = s.wr F.PLY_STATUS_abd_in 1 from
      if_pos (by rw [show (s.wr F.PLY_STATUS_abd_in 1).wakeEnabled 4 = s.wakeEnabled 4 from Eq.refl _, off]; rfl)]
    exact ⟨.wr _ _ .ply .rfl (by decide) (by decide) (by decide) (by decide), Eq.refl _⟩

theorem millHeartbeatAbsent_shown (other : s.plyState ≠ 4) (quiet : s.ply.silentTest = false) :
    Does .millHeartbeatAbsent s (fun t => t.rd F.PLY_STATUS_mill_hb_seen = 0 ∧ RegsIn [.ply] s t ∧ OnlyRegs s t) := by
  have rests := State.judgePartner_rests (s := s.wr F.PLY_STATUS_mill_hb_seen 0)
    (by rw [State.wr_plyState _ (by decide)]; exact other) (.inl quiet)
  have run : exec .millHeartbeatAbsent s = .next (s.wr F.PLY_STATUS_mill_hb_seen 0) := congrArg Host.Outcome.next rests
  exact ⟨_, run, State.rd_wr_same _ _ _, .wr _ _ .ply .rfl (by decide) (by decide) (by decide) (by decide), Eq.refl _⟩

theorem abdicateLineAsserted_brakes (standby : s.plyState = 4) (ran : ∃ t < 16, (s.task t).overrun ≠ none)
    (halted : s.rd F.TASK_RUN_run_state ≠ 3) :
    Does .abdicateLineAsserted s (fun t => t.rd F.TASK_RUN_run_state = 3 ∧ t.rd F.PLY_STATUS_state = 4) := by
  obtain ⟨t, small, ran⟩ := ran
  have state : (s.wr F.PLY_STATUS_abd_in 1).plyState = 4 := (State.wr_plyState _ (by decide)).trans standby
  have judged := State.judgePartner_abdicated state (State.rd_wr_same _ _ _)
  obtain ⟨stopped, kept⟩ := State.tryTakeover_brakes (s := s.wr F.PLY_STATUS_abd_in 1) small ran
    (by rw [State.rd_wr_ne _ _ _ _ (by decide)]; exact halted) 1
  have run : exec .abdicateLineAsserted s = .next (((s.wr F.PLY_STATUS_abd_in 1).tryTakeover 1).wake 4) :=
    congrArg (fun u : State => Host.Outcome.next (u.wake 4)) judged
  refine ⟨_, run, ?_, ?_⟩
  · rw [(State.wake_in _ _).rd_eq (b := .run) (by decide) (by decide), stopped]
  · rw [(State.wake_in _ _).rd_eq (b := .ply) (by decide) (by decide), kept _ (by decide)]
    exact state

theorem abdicateLineAsserted_takes (may : MayTakeOver s) (clean : ∀ t < 16, s.bothLate t = false) :
    Does .abdicateLineAsserted s (fun t => TookOver s t 1) := by
  have judged := State.judgePartner_abdicated (may.wr (f := F.PLY_STATUS_abd_in) 1 (by decide)).standby (State.rd_wr_same _ _ _)
  have run : exec .abdicateLineAsserted s = .next (((s.wr F.PLY_STATUS_abd_in 1).tryTakeover 1).wake 4) :=
    congrArg (fun u : State => Host.Outcome.next (u.wake 4)) judged
  have took := State.tryTakeover_takes (may.wr (f := F.PLY_STATUS_abd_in) 1 (by decide)) (cause := 1) (by decide) fun _ => clean
  exact ⟨_, run, (took.from (.wr 1 (by decide)) ⟨rfl, rfl⟩).then (.wake _ 4)⟩

/-- The state with one HEARTBEAT more missed. -/
def State.missedOne (s : State) : State := { s with ply := { s.ply with hbMissed := s.ply.hbMissed + 1 } }

theorem State.missedOne_hbMissed (s : State) : s.missedOne.ply.hbMissed = s.ply.hbMissed + 1 := rfl

theorem heartbeatMissed_judges (may : MayTakeOver s) (line : s.rd F.PLY_STATUS_abd_in = 0) (missed : 2 ≤ s.ply.hbMissed) :
    Does .heartbeatMissed s (fun t => (s.rd F.PLY_STATUS_tok_in = 1 → TookOver s t 2) ∧
      (s.rd F.PLY_STATUS_tok_in = 2 → LeftTracking t 3) ∧
      (s.rd F.PLY_STATUS_tok_in = 0 → s.silentEvidence = true → TookOver s t 3) ∧
      (s.rd F.PLY_STATUS_tok_in = 0 → s.silentEvidence = false → LeftTracking t 12 ∧ t.ply.silentTest = true)) := by
  have run : exec .heartbeatMissed s = .next s.missedOne.judgePartner := if_neg (by simp only; omega)
  have mayU : MayTakeOver s.missedOne := ⟨may.standby, may.fit, may.epoch, may.calm⟩
  have evidence : s.missedOne.silentEvidence = s.silentEvidence := rfl
  have stays : TurnStays s s.missedOne := ⟨rfl, rfl⟩
  have missedU : 3 ≤ s.missedOne.ply.hbMissed := by rw [s.missedOne_hbMissed]; omega
  have same (f : Fld) : s.missedOne.rd f = s.rd f := rfl
  rw [← same] at line
  rw [← same F.PLY_STATUS_tok_in, ← evidence]
  have regs : Kept [F.PLY_STATUS_link, F.PLY_EPOCH_epoch] s s.missedOne := fun f _ => same f
  clear same evidence may
  generalize s.missedOne = u at run mayU stays missedU regs line
  obtain ⟨inactive, active, silent, test⟩ := State.judgePartner_silent mayU.standby line missedU
  have took {cause : Nat} (hc : cause < 16) (other : cause ≠ 1) : TookOver s (u.tryTakeover cause) cause :=
    (State.tryTakeover_takes mayU hc fun h => absurd h other).from regs stays
  refine ⟨_, run, fun h => ?_, fun h => ?_, fun h e => ?_, fun h e => ?_⟩
  · rw [inactive h]
    exact took (by decide) (by decide)
  · rw [active h]
    exact State.leaveTracking_leaves mayU.standby (by decide)
  · rw [silent h e]
    exact took (by decide) (by decide)
  · rw [test h e]
    exact ⟨State.leaveTracking_leaves mayU.standby (by decide), rfl⟩

theorem tokenClassChange_takes (may : MayTakeOver s) (line : s.rd F.PLY_STATUS_abd_in = 0) (missed : 3 ≤ s.ply.hbMissed) :
    Does (.tokenClassChange .notActive) s (fun t => TookOver s t 2) := by
  have mayU := may.wr (f := F.PLY_STATUS_tok_in) 1 (by decide)
  have lineU : (s.wr F.PLY_STATUS_tok_in 1).rd F.PLY_STATUS_abd_in = 0 := (State.rd_wr_ne _ _ _ _ (by decide)).trans line
  have run := tokenClassChange_runs s .notActive
  rw [show tokCode .notActive = 1 from rfl,
    State.endGap_rests (.inl (by simp [State.isActive, mayU.standby])), State.loneIfLost_rests (.inl (by rw [mayU.standby]; decide)),
    (State.judgePartner_silent mayU.standby lineU missed).1 (State.rd_wr_same _ _ _)] at run
  have took := State.tryTakeover_takes mayU (cause := 2) (by decide) fun h => absurd h (by decide)
  exact ⟨_, run, (took.from (.wr 1 (by decide)) ⟨rfl, rfl⟩).then (.row19 _)⟩

theorem millHeartbeatAbsent_takes (may : MayTakeOver s) (line : s.rd F.PLY_STATUS_abd_in = 0) (missed : 3 ≤ s.ply.hbMissed)
    (silent : s.rd F.PLY_STATUS_tok_in = 0) (enabled : s.act F.PLY_MILL_HB_mill_hb_en = 1) (beaconless : s.partnerBeaconless = true)
    (bus : s.rd (F.MB_STATUS_state (s.act F.PLY_MILL_HB_mill_hb_chan)) ≠ 3) : Does .millHeartbeatAbsent s (fun t => TookOver s t 3) := by
  have mayU := may.wr (f := F.PLY_STATUS_mill_hb_seen) 0 (by decide)
  have other {f : Fld} (apart : F.PLY_STATUS_mill_hb_seen.key ≠ f.key) : (s.wr F.PLY_STATUS_mill_hb_seen 0).rd f = s.rd f :=
    State.rd_wr_ne _ _ _ _ apart
  have quiet : (s.wr F.PLY_STATUS_mill_hb_seen 0).partnerBeaconless = true := by
    have position : (s.wr F.PLY_STATUS_mill_hb_seen 0).partnerPos = s.partnerPos := by
      simp only [State.partnerPos, other (f := F.RING_POSITION_position) (by decide)]
    unfold State.partnerBeaconless at beaconless ⊢
    simp only at beaconless ⊢
    rw [position, other (by simp only [Fld.key, F.PLY_STATUS_mill_hb_seen, F.RING_MEMBER_state]; omega),
      other (by simp only [Fld.key, F.PLY_STATUS_mill_hb_seen, F.RING_MEMBER_role]; omega)]
    exact beaconless
  have evidence : (s.wr F.PLY_STATUS_mill_hb_seen 0).silentEvidence = true := by
    have seen : (s.wr F.PLY_STATUS_mill_hb_seen 0).rd F.PLY_STATUS_mill_hb_seen = 0 := State.rd_wr_same _ _ _
    have chan : (s.wr F.PLY_STATUS_mill_hb_seen 0).rd (F.MB_STATUS_state (s.act F.PLY_MILL_HB_mill_hb_chan)) ≠ 3 := by
      rw [other (by simp only [Fld.key, F.PLY_STATUS_mill_hb_seen, F.MB_STATUS_state]; omega)]
      exact bus
    unfold State.silentEvidence
    rw [quiet]
    have act (f : Fld) : (s.wr F.PLY_STATUS_mill_hb_seen 0).act f = s.act f := rfl
    simp only [State.on, seen, State.aon, act, enabled]
    simp [chan]
  have run : exec .millHeartbeatAbsent s = .next ((s.wr F.PLY_STATUS_mill_hb_seen 0).tryTakeover 3) :=
    congrArg Host.Outcome.next ((State.judgePartner_silent mayU.standby ((other (by decide)).trans line) missed).2.2.1
      ((other (by decide)).trans silent) evidence)
  have took := State.tryTakeover_takes mayU (cause := 3) (by decide) fun h => absurd h (by decide)
  exact ⟨_, run, took.from (.wr 0 (by decide)) ⟨rfl, rfl⟩⟩

/-! The catch-up frames (R290). -/

/-- From s to t frames go out of the Skein ports, and nothing of the turn or of what the ply still owes changes. -/
structure SkeinOnly (s t : State) : Prop where
  turn : t.turn = s.turn
  ply : t.ply = s.ply
  sent : ∃ sent, t.out = s.out ++ sent ∧ ∀ o ∈ sent, ∃ p b, o = Out.skein p b

theorem SkeinOnly.none {t : State} (turn : t.turn = s.turn) (ply : t.ply = s.ply) (out : t.out = s.out) : SkeinOnly s t :=
  ⟨turn, ply, [], by rw [out, List.append_nil], fun _ h => absurd h List.not_mem_nil⟩

theorem SkeinOnly.then {t u : State} (h : SkeinOnly s t) (g : SkeinOnly t u) : SkeinOnly s u := by
  obtain ⟨first, out, skein⟩ := h.sent
  obtain ⟨more, out', skein'⟩ := g.sent
  refine ⟨g.turn.trans h.turn, g.ply.trans h.ply, first ++ more, by rw [out', out, List.append_assoc], fun o ho => ?_⟩
  exact (List.mem_append.1 ho).elim (skein o) (skein' o)

theorem SkeinOnly.afterWr {t : State} {f : Fld} {v : Nat} (h : SkeinOnly (s.wr f v) t) : SkeinOnly s t := ⟨h.turn, h.ply, h.sent⟩

theorem SkeinOnly.foldl {α : Type} {f : State → α → State} (l : List α) (step : ∀ u a, SkeinOnly u (f u a)) :
    SkeinOnly s (l.foldl f s) :=
  List.foldlRecOn l f (motive := SkeinOnly s) (.none rfl rfl rfl) fun u hu a _ => hu.then (step u a)

theorem State.launchSkein_only (s : State) (type station flags epoch turn ns frac : Nat) (payload : Bytes) :
    SkeinOnly s (s.launchSkein type station flags epoch turn ns frac payload) := by
  unfold State.launchSkein State.launchSkeinIn
  simp only
  split
  · exact .none rfl rfl rfl
  · exact ⟨rfl, rfl, _, rfl, fun o ho => ⟨_, _, List.mem_singleton.1 ho⟩⟩

theorem State.sendBrake_only (s : State) (n : Nat) : SkeinOnly s (s.sendBrake n) := by
  unfold State.sendBrake
  split
  · exact .none rfl rfl rfl
  · exact State.launchSkein_only _ _ _ _ _ _ _ _ _

theorem State.catchUp_only (s : State) (tf n : Nat) : SkeinOnly s (s.catchUp tf n) := by
  unfold State.catchUp
  simp only
  split
  · exact .none rfl rfl rfl
  · split
    · exact .none rfl rfl rfl
    · split
      · exact (State.sendBrake_only _ _).afterWr
      · exact (State.launchSkein_only _ _ _ _ _ _ _ _ _).afterWr

theorem catchUpLaunch_sends (active : s.plyState = 1 ∨ s.plyState = 2) (due : s.ply.catchUp ≠ [])
    (running : s.rd F.TURN_STATUS_running = 1) : Does .catchUpLaunch s (fun t =>
      t.ply.catchUp = s.ply.catchUp.filter (fun n => !s.stationReady n) ∧ RegsIn [.ply] s t ∧ t.image = s.image ∧
        t.turn = s.turn ∧ ∃ sent, t.out = s.out ++ sent ∧ ∀ o ∈ sent, ∃ p b, o = Out.skein p b) := by
  have leads := State.isActive_of_lone_or_active active
  have go : (s.ply.catchUp.isEmpty || !s.isActive || !s.on F.TURN_STATUS_running) = false := by
    simp [State.on, leads, running, due]
  have sends := SkeinOnly.foldl (s := { s with ply := { s.ply with catchUp := s.ply.catchUp.filter (fun n => !s.stationReady n) } })
    (f := fun s' n => s'.catchUp (s.takeoverTf (s.ply.takeoverAt.getD s.workNs)) n) (s.ply.catchUp.filter s.stationReady)
    fun u n => u.catchUp_only _ n
  have run : exec .catchUpLaunch s = .next ((s.ply.catchUp.filter s.stationReady).foldl
      (fun s' n => s'.catchUp (s.takeoverTf (s.ply.takeoverAt.getD s.workNs)) n)
      { s with ply := { s.ply with catchUp := s.ply.catchUp.filter (fun n => !s.stationReady n) } }) := if_neg (by simp [go])
  refine ⟨_, run, ?_, (execCatchUpLaunch_in s).of_next run, ((execCatchUpLaunch_keeps s).of_next run).parts .image (by decide),
    sends.turn, sends.sent⟩
  rw [sends.ply]

end

/-- Settles O34: each cause for a judgement leads to the row of R286 that the token, the abdicate line and the other evidence
name; a takeover and a departure each stand through what follows them. -/
theorem partnerJudgedAndTakenOver : Obligations.PartnerJudgedAndTakenOver := by
  intro s token
  have code (c : TokClass) : token c = tokCode c := by cases c <;> rfl
  refine ⟨fun c calm quiet => ?_, fun c other active down => ?_, fun other quiet => ?_, fun few => ?_, fun standby ran halted => ?_,
    fun may => ⟨fun clean => ?_, fun line missed => ?_, fun line missed => ⟨?_, fun silent enabled beaconless bus => ?_⟩⟩,
    fun active due running => ?_⟩
  · rw [code]
    exact tokenClassChange_shows c calm quiet
  · rw [code]
    exact tokenClassChange_lone other active down
  · exact ⟨abdicateLineAsserted_shown other quiet, heartbeatMissed_counts (.inl ⟨other, quiet⟩), millHeartbeatAbsent_shown other quiet⟩
  · exact heartbeatMissed_counts (.inr few)
  · exact abdicateLineAsserted_brakes standby ran halted
  · exact abdicateLineAsserted_takes may clean
  · exact heartbeatMissed_judges may line missed
  · exact tokenClassChange_takes may line missed
  · exact millHeartbeatAbsent_takes may line missed silent enabled beaconless bus
  · exact catchUpLaunch_sends active due running

end Sys2Proof.Machine

/-! PROOFS. O35: heartbeats, bridged INPUT frames and released payloads (R99, R100, R269, R274, R287). -/

namespace Sys2Proof.Machine

section
variable {s : State}

/-! Heartbeats (R269, R274, R275, R287). -/

theorem heartbeatFlags (s : State) : bit s.isActive + 2 * bit s.isStandby + 4 * bit (s.plyState == 6) =
    if s.plyState = 1 ∨ s.plyState = 2 then 1 else if s.plyState = 4 then 2 else if s.plyState = 6 then 4 else 0 := by
  unfold State.isActive State.isStandby
  by_cases lead : s.plyState = 1 ∨ s.plyState = 2
  · rw [if_pos lead]
    rcases lead with h | h <;> simp [h, bit]
  · rw [if_neg lead]
    obtain ⟨lone, active⟩ := not_or.1 lead
    by_cases four : s.plyState = 4
    · simp [four, bit]
    · by_cases six : s.plyState = 6
      · simp [six, bit]
      · simp [lone, active, four, six, bit]

theorem heartbeatSend_sends (on : s.pd .ringply = true) (time : s.pd .time = true) : Does .heartbeatSend s (fun t =>
    t.regs = s.regs ∧ t.ply = { s.ply with tokOut := s.isActive && !s.ply.tokOut } ∧
      t.out = s.out ++ (if s.rd F.PLY_STATUS_link = 2 then [.plyBlock 0x30 (s.localUs % 256)
        (if s.plyState = 1 ∨ s.plyState = 2 then 1 else if s.plyState = 4 then 2 else if s.plyState = 6 then 4 else 0)] else [])) := by
  rw [← heartbeatFlags]
  have run : exec .heartbeatSend s = ok
      (let u := if s.plyUp then s.emit (.plyBlock 0x30 (s.localUs % 256)
        (bit s.isActive + 2 * bit s.isStandby + 4 * bit (s.plyState == 6))) else s
       { u with ply := { u.ply with tokOut := u.isActive && !u.ply.tokOut } }) := if_neg (by simp [on, time])
  refine ⟨_, run, ?_⟩
  unfold State.plyUp
  by_cases up : s.rd F.PLY_STATUS_link = 2
  · simp only [up, beq_self_eq_true, if_true]
    exact ⟨rfl, rfl, rfl⟩
  · rw [if_neg up, if_neg (by simpa using up)]
    exact ⟨rfl, rfl, (List.append_nil _).symm⟩

/-- The state once a HEARTBEAT's flags are kept (R269). -/
def State.heartbeat (s : State) (flags : Nat) : State :=
  { s with ply := { s.ply with hbMissed := 0, hbAt := some s.workNs, partnerActive := bitOf flags 0,
                               partnerTracking := bitOf flags 1, partnerAbdicated := bitOf flags 2 } }

theorem State.heartbeat_ply (s : State) (flags : Nat) : (s.heartbeat flags).ply =
    { s.ply with hbMissed := 0, hbAt := some s.workNs, partnerActive := bitOf flags 0,
                 partnerTracking := bitOf flags 1, partnerAbdicated := bitOf flags 2 } := rfl

/-- With the partner's abdicate line high again, where it has not abdicated (R275). -/
def State.heartbeatLine (s : State) (flags : Nat) : State :=
  if bitOf flags 2 then s.heartbeat flags else (s.heartbeat flags).wr F.PLY_STATUS_abd_in 0

theorem State.heartbeatLine_ply (s : State) (flags : Nat) : (s.heartbeatLine flags).ply = (s.heartbeat flags).ply := by
  unfold State.heartbeatLine
  split <;> rfl

theorem heartbeatReceived_shows (up : s.rd F.PLY_STATUS_link = 2) (count flags : Byte) :
    Does (.heartbeatReceived count flags) s (fun t =>
      t.ply = { s.ply with hbMissed := 0, hbAt := some s.workNs, partnerActive := bitOf flags.toNat 0,
                           partnerTracking := bitOf flags.toNat 1, partnerAbdicated := bitOf flags.toNat 2 } ∧
        (bitOf flags.toNat 2 = false → t.rd F.PLY_STATUS_abd_in = 0 ∧ (s.plyState = 4 → s.rd F.PLY_STATUS_tok_in ≠ 2 →
          bitOf (t.rd F.PLY_EVT_evt) 9 = true)) ∧ t.image = s.image) := by
  have run : exec (.heartbeatReceived count flags) s =
      (let u := s.heartbeatLine flags.toNat
       if u.isStandby && !u.on F.PLY_STATUS_abd_in && u.rd F.PLY_STATUS_tok_in != 2 then ok (u.plyEvt 9) else ok u) :=
    if_neg (by simp [State.plyUp, up])
  simp only at run
  rw [← s.heartbeat_ply, ← s.heartbeatLine_ply]
  have high : bitOf flags.toNat 2 = false → (s.heartbeatLine flags.toNat).rd F.PLY_STATUS_abd_in = 0 ∧
      (s.heartbeatLine flags.toNat).plyState = s.plyState ∧
      (s.heartbeatLine flags.toNat).rd F.PLY_STATUS_tok_in = s.rd F.PLY_STATUS_tok_in := fun clear => by
    rw [State.heartbeatLine, if_neg (by simp [clear])]
    exact ⟨State.rd_wr_same _ _ _, State.wr_plyState (s := s.heartbeat flags.toNat) _ (by decide),
      State.rd_wr_ne (s.heartbeat flags.toNat) _ _ _ (by decide)⟩
  have image : (s.heartbeatLine flags.toNat).image = s.image := by
    unfold State.heartbeatLine
    split <;> rfl
  generalize s.heartbeatLine flags.toNat = u at run high image
  by_cases fault : (u.isStandby && !u.on F.PLY_STATUS_abd_in && u.rd F.PLY_STATUS_tok_in != 2) = true
  · rw [if_pos fault] at run
    refine ⟨_, run, (u.plyEvt_keeps 9).ply (by decide), fun clear => ⟨?_, fun _ _ => (State.plyEvt_bits _ (by decide)).2⟩,
      Eq.trans ((u.plyEvt_keeps 9).parts .image (by decide)) image⟩
    rw [u.plyEvt_kept (i := 9) (by decide) _ (by decide)]
    exact (high clear).1
  · rw [if_neg fault] at run
    refine ⟨_, run, rfl, fun clear => ⟨(high clear).1, fun standby token => absurd ?_ fault⟩, image⟩
    obtain ⟨line, state, tok⟩ := high clear
    simp [State.isStandby, State.on, state, standby, line, tok, token]

theorem millHeartbeatSend_queues (active : s.plyState = 1 ∨ s.plyState = 2) (enabled : s.act F.PLY_MILL_HB_mill_hb_en = 1) :
    Does .millHeartbeatSend s (fun t => t.regs = s.regs ∧
      (SMap.find t.mill (s.act F.PLY_MILL_HB_mill_hb_chan)).bind MillChan.heartbeat =
        some (beBytes 4 s.epoch ++ beBytes 4 (s.turn.k % 2 ^ 32))) := by
  have run : exec .millHeartbeatSend s = .next s.queueHeartbeat := if_pos (State.isActive_of_lone_or_active active)
  refine ⟨_, run, ?_⟩
  unfold State.queueHeartbeat
  rw [if_neg (by simp [State.aon, enabled])]
  refine ⟨rfl, ?_⟩
  simp only [SMap.find_put_same]
  rfl

theorem ownHeartbeatLoss_abdicates (active : s.plyState = 1 ∨ s.plyState = 2) : Does .ownHeartbeatLoss s (fun t =>
    t.rd F.PLY_STATUS_state = 6 ∧ t.rd F.PLY_REASON_abdication = 6 ∧ t.rd F.PLY_STATUS_abd_out = 1 ∧
      t.rd F.PLY_STATUS_muted = 1 ∧ t.rd F.TURN_WDOG_armed = 0 ∧ t.ply.tokOut = false) := by
  have leads := State.isActive_of_lone_or_active active
  obtain ⟨cause, out, muted⟩ := State.abdicate_shows leads (cause := 6) (by decide)
  refine ⟨_, rfl, State.abdicate_state leads 6, cause, out, muted, ?_, State.abdicate_tokOut leads 6⟩
  rw [State.abdicate_of_active leads, (State.fireGasp_in _ _).rd_eq (b := .wdog) (by decide) (by decide),
    (State.setPlyState_in _ _).rd_eq (b := .wdog) (by decide) (by decide),
    (State.stopCommands_in _).rd_eq (b := .wdog) (by decide) (by decide), State.withdrawn_rd, State.setMuted,
    State.rd_wrb_ne _ _ _ _ (by decide), State.rd_wrb_ne _ _ _ _ (by decide), State.rd_wrb_ne _ _ _ _ (by decide)]
  exact State.rd_wr_same _ F.TURN_WDOG_armed 0

end

theorem heartbeats : Heartbeats := fun _ => ⟨heartbeatSend_sends, heartbeatReceived_shows,
  fun active => ⟨millHeartbeatSend_queues active, ownHeartbeatLoss_abdicates active⟩⟩

/-! Bridged INPUT frames (R99). -/

section
variable {s : State} {b : Bytes}

theorem State.flagsShown_count (s : State) {p : Nat} (hp : p < 16) (f : SkFrame) :
    (s.flagsShown p f).rd (F.SK_CNT_count p 6) = s.rd (F.SK_CNT_count p 6) := by
  have place : (F.SK_CNT_count p 6).In .skein := by
    simp only [Fld.In, F.SK_CNT_count, Bank.range]
    omega
  have station (v : Nat) {g : Fld} (u : State) (hg : g.AtStation p (f.station % 16)) :
      (u.wr g v).rd (F.SK_CNT_count p 6) = u.rd (F.SK_CNT_count p 6) :=
    State.rd_wr_ne _ _ _ _ (Fld.key_ne_off hg.1 (by simp [F.SK_CNT_count]) (by rw [hg.2]; simp only [F.SK_CNT_count]; omega))
  unfold State.flagsShown
  simp only
  rw [station _ _ (stationFields _ _).2.2.2]
  split
  · rw [State.skEvt_rd_skein _ 7 hp place, State.rd_wr_ne _ _ _ _ (by simp only [Fld.key, F.SK_EVT_STATUS_evt, F.SK_CNT_count]; omega)]
    refine (State.rd_add_ne _ _ _ _ (by simp [Fld.key, F.SK_CNT_count])).trans (station _ _ (stationFields _ _).2.2.1)
  · exact station _ _ (stationFields _ _).2.2.1

/-- A bridged frame is told of its station as not received directly, and counts for the turn. -/
def State.bridgedIn (s : State) (p : Nat) (f : SkFrame) : State :=
  ((s.wr (F.SK_STN_STATE_direct p (f.station % 16)) 0).flagsShown p f).gotInput f.station

/-- A bridged INPUT frame of the present turn that is taken (R99). -/
structure BridgedNow (s : State) (b : Bytes) : Prop where
  whole : sealOk b = true ∧ 36 ≤ b.length
  type : (readSkein b).type = 1
  present : s.present (readSkein b).station = true
  payload : skeinWhole b (payBytes (s.act (F.STATION_MAP_0_in_samples (readSkein b).station))) = true
  running : s.rd F.TURN_STATUS_running = 1
  now : (readSkein b).turn = s.turn.k
  live : s.replaying = false ∧ s.turn.cutoffs ≤ s.turn.k
  fresh : aliveClass s.skein.rxAlive (skKey 1 (readSkein b).station) s.time.ticks (readSkein b).alive = .inOrder

theorem State.skCount_replaying (s : State) {p : Nat} (hp : p < 16) : (s.skCount p 6).replaying = s.replaying :=
  State.replaying_of_in (s.skCount_in hp (by decide)) (by decide)

/-- A bridged frame, counted as one, is taken as one received directly would be (R99). -/
theorem State.takeInputFrame_bridged {p : Nat} (h : BridgedNow s b) (port : (readSkein b).station / 16 = p) (small : p < 16) :
    s.takeInputFrame p true b = (((((s.skCount p 6).aliveTaken p (skKey 1 (readSkein b).station)
      (readSkein b).alive).bridgedIn p (readSkein b)).stnHeard (readSkein b).station true).storeCounted b) := by
  obtain ⟨⟨good, long⟩, type, present, payload, running, now, ⟨live, inTime⟩, fresh⟩ := h
  have counted : (s.skCount p 6).on F.TURN_STATUS_running = true := by
    rw [State.on, ((s.skCount_in small (by decide)).rd_eq (b := .turn) (by decide) (by decide)), running]
    rfl
  have place : ¬((readSkein b).station / 16 != p || !(s.skCount p 6).present (readSkein b).station ||
      !skeinWhole b (payBytes ((s.skCount p 6).act (F.STATION_MAP_0_in_samples (readSkein b).station)))) = true := by
    rw [show (s.skCount p 6).present (readSkein b).station = true from present,
      show skeinWhole b (payBytes ((s.skCount p 6).act _)) = true from payload]
    simp [port]
  have still : (s.skCount p 6).cutPassed = false := by
    unfold State.cutPassed
    rw [State.skCount_replaying s small, live]
    exact decide_eq_false (Nat.not_lt.2 inTime)
  have order : aliveClass (s.skCount p 6).skein.rxAlive (skKey 1 (readSkein b).station) (s.skCount p 6).time.ticks
      (readSkein b).alive = .inOrder := fresh
  have cls := State.skClass_of_fresh (s := s.skCount p 6) (key := skKey 1 (readSkein b).station)
    (alive := (readSkein b).alive) p (by rw [order]; decide)
  rw [order] at cls
  have sealed : ¬(!sealOk b || decide (b.length < 36)) = true := by simp [good, long]
  have kind : ((readSkein b).type == 1) = true := by simp [type]
  have other : ¬((readSkein b).type != 1) = true := by simp [type]
  have runs : ¬(!(s.skCount p 6).on F.TURN_STATUS_running || decide ((s.skCount p 6).turn.k < (readSkein b).turn)) = true := by
    simp [counted, now, show (s.skCount p 6).turn = s.turn from rfl]
  have inTurn : ¬(decide ((readSkein b).turn < (s.skCount p 6).turn.k) || (s.skCount p 6).cutPassed) = true := by
    simp [still, now, show (s.skCount p 6).turn = s.turn from rfl]
  rw [State.takeInputFrame, if_neg sealed]
  simp only [Bool.true_and, Bool.not_true, Bool.false_and, Bool.and_false, Bool.false_eq_true, ↓reduceIte]
  rw [if_neg other, if_pos kind, if_neg place, if_neg runs, if_neg inTurn, cls]
  rfl

/-- What a bridged frame leaves before its samples are stored (R99). -/
structure BridgeHeard (s w : State) (p n : Nat) : Prop where
  direct : w.rd (F.SK_STN_STATE_direct p (n % 16)) = 0
  missed : w.rd (F.SK_STN_STATE_missed p (n % 16)) = 0
  counted : w.rd (F.SK_CNT_count p 6) = s.rd (F.SK_CNT_count p 6)
  state : w.stnState n = s.stnState n
  got : n ∈ w.image.got
  apart : w.skein = s.skein ∧ w.hop = s.hop ∧ w.replaying = s.replaying

theorem State.bridgedIn_heard (s : State) {p : Nat} (f : SkFrame) (port : f.station / 16 = p) (small : p < 16) :
    BridgeHeard s (s.bridgedIn p f) p f.station := by
  have position : f.station % 16 < 16 := Nat.mod_lt _ (by decide)
  obtain ⟨state, direct, safe, missed⟩ := stationFields p (f.station % 16)
  have keeps := (s.wr (F.SK_STN_STATE_direct p (f.station % 16)) 0).flagsShown_keeps p f
  have regs := (RegsIn.station s 0 direct small position).next (State.flagsShown_in _ f small) (by decide)
  refine ⟨?_, State.flagsShown_missed _ _ f, ?_, ?_, List.mem_cons_self, keeps.parts .skein (by decide),
    keeps.parts .hop (by decide), State.replaying_of_in (RegsIn.upd regs) (by decide)⟩
  · exact (State.flagsShown_rd_ne _ small f direct (by simp [Fld.key, F.SK_STN_STATE_direct, F.SK_STN_STATE_safe])
      (by simp [Fld.key, F.SK_STN_STATE_direct, F.SK_STN_STATE_missed])).trans (State.rd_wr_same _ _ _)
  · exact (State.flagsShown_count _ small f).trans (State.rd_wr_ne _ _ _ _
      (by simp only [Fld.key, F.SK_STN_STATE_direct, F.SK_CNT_count]; omega))
  · unfold State.stnState
    rw [port]
    exact (State.flagsShown_rd_ne _ small f state (by simp [Fld.key, F.SK_STN_STATE_state, F.SK_STN_STATE_safe])
      (by simp [Fld.key, F.SK_STN_STATE_state, F.SK_STN_STATE_missed])).trans
        (State.rd_wr_ne _ _ _ _ (by simp [Fld.key, F.SK_STN_STATE_state, F.SK_STN_STATE_direct]))

/-- A counter in order is accepted with no gap counted. -/
theorem State.aliveTaken_inOrder (s : State) (p key alive : Nat) (fresh : aliveClass s.skein.rxAlive key s.time.ticks alive = .inOrder) :
    (s.aliveTaken p key alive).regs = s.regs ∧ (s.aliveTaken p key alive).skein.direct = s.skein.direct ∧
      (s.aliveTaken p key alive).hop = s.hop := by
  unfold State.aliveTaken
  rw [fresh, if_neg (by decide)]
  exact ⟨rfl, rfl, rfl⟩

theorem bridgeReceived_counts {h : PlyHdr} (taken : Taken s 0x41 h) (now : BridgedNow s b)
    (up : s.stnState (readSkein b).station = 3) {p : Nat} (port : (readSkein b).station / 16 = p) :
    Does (.bridgeReceived h b) s (fun t => (readSkein b).station ∈ t.image.got ∧ t.skein.direct = s.skein.direct ∧
      t.rd (F.SK_STN_STATE_direct p ((readSkein b).station % 16)) = 0 ∧
      t.rd (F.SK_STN_STATE_missed p ((readSkein b).station % 16)) = 0 ∧
      t.rd (F.SK_CNT_count p 6) = min (s.rd (F.SK_CNT_count p 6) + 1) (2 ^ (F.SK_CNT_count p 6).width - 1) ∧
      ∀ x ∈ s.slotsOf 1 (readSkein b).station,
        s.act (F.SLOT_POL_SRC_index x) < s.act (F.STATION_MAP_0_in_samples (readSkein b).station) →
          (t.cell x).entry.value = unpackSample (readSkein b).payload (s.act (F.SLOT_POL_SRC_index x))) := by
  have small : p < 16 := port ▸ Nat.div_lt_of_lt_mul (byteAt_lt b 1)
  have run : exec (.bridgeReceived h b) s = .next ((s.plyTook 0x41 h).takeInputFrame p true b) := by
    change execBridgeReceived h b s = _
    unfold execBridgeReceived
    rw [taken.takes, ← port]
    exact if_neg (by rw [show byteAt b 0 = 1 from now.type]; decide)
  rw [State.takeInputFrame_bridged (s := s.plyTook 0x41 h) ⟨now.whole, now.type, now.present, now.payload, now.running, now.now,
    now.live, now.fresh⟩ port small] at run
  have counted : ((s.plyTook 0x41 h).skCount p 6).rd (F.SK_CNT_count p 6) =
      min (s.rd (F.SK_CNT_count p 6) + 1) (2 ^ (F.SK_CNT_count p 6).width - 1) := State.rd_add_same _ _ _
  have state : ((s.plyTook 0x41 h).skCount p 6).stnState (readSkein b).station = 3 :=
    (State.skCount_rd_station _ (by decide) (Nat.mod_lt _ (by decide)) (stationFields _ _).1).trans up
  have live : ((s.plyTook 0x41 h).skCount p 6).replaying = false := (State.skCount_replaying _ small).trans now.live.1
  obtain ⟨regs, direct, hop⟩ := ((s.plyTook 0x41 h).skCount p 6).aliveTaken_inOrder p (skKey 1 (readSkein b).station)
    (readSkein b).alive now.fresh
  have still := ((s.plyTook 0x41 h).skCount p 6).aliveTaken_replaying (skKey 1 (readSkein b).station) (readSkein b).alive small
  replace direct : _ = s.skein.direct := direct
  replace hop : _ = s.hop := hop
  generalize ((s.plyTook 0x41 h).skCount p 6).aliveTaken p (skKey 1 (readSkein b).station) (readSkein b).alive = v at run regs direct hop still
  have same (f : Fld) : v.rd f = ((s.plyTook 0x41 h).skCount p 6).rd f := by rw [State.rd, regs, State.rd]
  replace counted := (same _).trans counted
  replace state : v.stnState (readSkein b).station = 3 := (same _).trans state
  have position : (readSkein b).station % 16 < 16 := Nat.mod_lt _ (by decide)
  have heard := v.bridgedIn_heard (readSkein b) port small
  obtain ⟨skein, hopW, stillW⟩ := heard.apart
  generalize v.bridgedIn p (readSkein b) = w at run heard skein hopW stillW
  have upW : w.stnState (readSkein b).station = 3 := heard.state.trans state
  rw [State.stnHeard_of_settled true (by rw [upW]; decide), State.storeCounted_of_up upW (stillW.trans (still.trans live))] at run
  have kept {f : Fld} (hf : f.In .skein) : (w.storeInput (readSkein b).station (readSkein b)).rd f = w.rd f :=
    (State.storeInput_in w _ _).rd_eq hf (by decide)
  obtain ⟨-, directFld, -, missedFld⟩ := stationFields p ((readSkein b).station % 16)
  refine ⟨_, run, ?_, ?_, (kept (directFld.skein small position)).trans heard.direct,
    (kept (missedFld.skein small position)).trans heard.missed,
    (kept (by simp only [Fld.In, F.SK_CNT_count, Bank.range]; omega)).trans (heard.counted.trans counted), fun x hx few => ?_⟩
  · rw [State.storeInput_got]
    exact heard.got
  · rw [(State.storeInput_keeps _ _ _).parts .skein (by decide), skein, direct]
  · have same : w.hop = s.hop := hopW.trans hop
    have taken := State.storeInput_hasSample w (readSkein b).station (readSkein b) (x := x)
      ((State.slotsOf_of_hop same 1 _).symm ▸ hx) (by rw [State.act_of_hop same, State.act_of_hop same]; exact few)
    rw [State.act_of_hop same] at taken
    exact taken.value
end

end Sys2Proof.Machine

/-! PROOFS. O35: released payloads, REACH, DIGEST, COMPLETION and HEALTH (R100, R115, R280 to R284). -/

namespace Sys2Proof.Machine

section
variable {s : State} {h : PlyHdr}

/-! Released payloads (R100). -/

theorem releasedReceived_sends {n : Fin 256} {body : Bytes} (taken : Taken s 0x42 h) (standby : s.plyState = 4)
    (proxy : n.val ∈ s.skein.proxy) (fit : s.rd F.TURN_WDOG_tripped = 0) (free : s.portBraked (n.val / 16) = false)
    (up : s.rd (F.SK_STATUS_link (n.val / 16)) = 2) :
    Does (.releasedReceived h n body) s (fun t => t.regs = s.regs ∧ t.image = s.image ∧ ∃ alive holdoff ns frac,
      t.out = s.out ++ [.skein (n.val / 16) (skeinFrame 2 n.val 2 s.epoch alive holdoff
        (h.turn.toNat + 1 - s.nTurns * s.stationP n.val) ns frac body)]) := by
  have proxied : ¬(!(s.plyTook 0x42 h).isStandby || !(s.plyTook 0x42 h).skein.proxy.contains n.val ||
      (s.plyTook 0x42 h).on F.TURN_WDOG_tripped) = true := by
    rw [show (s.plyTook 0x42 h).isStandby = true from beq_iff_eq.2 standby,
      show (s.plyTook 0x42 h).skein.proxy.contains n.val = true from List.contains_iff_mem.2 proxy,
      show (s.plyTook 0x42 h).on F.TURN_WDOG_tripped = false from beq_eq_false_iff_ne.2 (by
        rw [show (s.plyTook 0x42 h).rd F.TURN_WDOG_tripped = 0 from fit]
        decide)]
    decide
  have run : exec (.releasedReceived h n body) s = .next ((s.plyTook 0x42 h).launchSkein 2 n.val 2 s.epoch
      (h.turn.toNat + 1 - s.nTurns * s.stationP n.val) ((s.boundaryU (h.turn.toNat + 1) + s.phiNs * unitNs) % unitSec / unitNs)
      ((s.boundaryU (h.turn.toNat + 1) + s.phiNs * unitNs) % unitNs / 2 ^ 24) body) := by
    change execReleasedReceived h n body s = _
    unfold execReleasedReceived
    rw [taken.takes]
    exact (if_neg proxied).trans (if_neg (by
      rw [show (s.plyTook 0x42 h).portBraked (n.val / 16) = false from free]
      decide))
  obtain ⟨alive, out⟩ := State.launchSkein_out (s := s.plyTook 0x42 h) (station := n.val) (State.skUp_iff.2 up) 2 2 s.epoch
    (h.turn.toNat + 1 - s.nTurns * s.stationP n.val) ((s.boundaryU (h.turn.toNat + 1) + s.phiNs * unitNs) % unitSec / unitNs)
    ((s.boundaryU (h.turn.toNat + 1) + s.phiNs * unitNs) % unitNs / 2 ^ 24) body
  refine ⟨_, run, ?_, ((execReleasedReceived_keeps h n body s).of_next run).parts .image (by decide), alive, _, _, _, out⟩
  unfold State.launchSkein State.launchSkeinIn
  simp only
  split <;> rfl

/-! REACH (R99, R283). -/

/-- The stations that a REACH frame tells. -/
def reachTells (reach : List (BitVec 16)) : List Nat :=
  (upTo 256).filter (fun n => bitOf ((reach.getD (n / 16) 0).toNat) (n % 16))

theorem mem_reachTells {reach : List (BitVec 16)} {n : Nat} :
    n ∈ reachTells reach ↔ n < 256 ∧ bitOf ((reach.getD (n / 16) 0).toNat) (n % 16) = true := by
  unfold reachTells
  rw [List.mem_filter, mem_upTo]

/-- The state in which the partner's REACH of a turn is held. -/
def State.reachHeld (s : State) (k : Nat) (far : List Nat) : State :=
  { s with ply := { s.ply with reachFar := SMap.put (keepFrom s.ply.reachFar (k - 64)) k far } }

theorem State.reachHeld_far (s : State) (k : Nat) (far : List Nat) : SMap.find (s.reachHeld k far).ply.reachFar k = some far :=
  SMap.find_put_same _ _ _

theorem reachReceived_runs {reach : List (BitVec 16)} (taken : Taken s 0x43 h) : exec (.reachReceived h reach) s =
    .next (((s.plyTook 0x43 h).reachHeld h.turn.toNat (reachTells reach)).compareReach h.turn.toNat) := by
  change execReachReceived h reach s = _
  unfold execReachReceived
  rw [taken.takes]
  rfl

/-- What a comparison of REACHs leaves. -/
structure ReachKept (s t : State) : Prop where
  image : t.image = s.image
  turn : t.turn = s.turn
  out : t.out = s.out

theorem ReachKept.then {t u : State} (a : ReachKept s t) (b : ReachKept t u) : ReachKept s u :=
  ⟨b.image.trans a.image, b.turn.trans a.turn, b.out.trans a.out⟩

theorem State.splitInput_kept (s : State) (k : Nat) (diff : List Nat) :
    ReachKept s (s.splitInput k diff) ∧ (s.splitInput k diff).skein = s.skein := by
  unfold State.splitInput
  simp only
  split
  · exact ⟨⟨rfl, rfl, rfl⟩, rfl⟩
  · split
    · exact ⟨⟨rfl, rfl, rfl⟩, rfl⟩
    · split <;> exact ⟨⟨rfl, rfl, rfl⟩, rfl⟩

theorem bridging_kept (t : State) : ReachKept t ((upTo 16).foldl (fun s p =>
    s.wrb (F.SK_STATUS_bridging p) (s.skein.partnerLacks.any (fun n => n / 16 == p))) t) ∧ ((upTo 16).foldl (fun s p =>
    s.wrb (F.SK_STATUS_bridging p) (s.skein.partnerLacks.any (fun n => n / 16 == p))) t).skein = t.skein :=
  List.foldlRecOn _ _ (motive := fun u : State => ReachKept t u ∧ u.skein = t.skein) ⟨⟨rfl, rfl, rfl⟩, rfl⟩
    fun _ hu _ _ => ⟨⟨hu.1.image, hu.1.turn, hu.1.out⟩, hu.2⟩

/-- Among the stations whose period is at an end, the list is that of the comparison. -/
theorem mem_compared {due later told : List Nat} {n : Nat} (at_ : n ∈ due) :
    n ∈ later.filter (fun n => !due.contains n) ++ told ↔ n ∈ told := by
  rw [List.mem_append, List.mem_filter]
  simp [at_]

theorem State.compareReach_lacks (s : State) {k : Nat} {own far : List Nat} (mine : SMap.find s.ply.reachOwn k = some own)
    (theirs : SMap.find s.ply.reachFar k = some far) : ReachKept s (s.compareReach k) ∧
      ∀ n ∈ s.stations, k % s.stationP n = 0 → (n ∈ (s.compareReach k).skein.partnerLacks ↔ n ∈ own ∧ n ∉ far) ∧
        (n ∈ (s.compareReach k).skein.lacksMe ↔ n ∈ far ∧ n ∉ own) := by
  unfold State.compareReach
  rw [mine, theirs]
  dsimp -zeta only
  extract_lets due got farGot diff lacks mine' later from_ x1 x2 s1 s2
  have first : ReachKept s s1 := ⟨rfl, rfl, rfl⟩
  obtain ⟨second, skein2⟩ := bridging_kept s1
  obtain ⟨third, skein3⟩ := s2.splitInput_kept k diff
  refine ⟨(first.then second).then third, fun n hn period => ?_⟩
  have at_ : n ∈ due := List.mem_filter.2 ⟨hn, by simp [period]⟩
  rw [skein3, show s2.skein = s1.skein from skein2]
  refine ⟨(mem_compared at_).trans ?_, (mem_compared at_).trans ?_⟩
  · simp [lacks, at_]
  · simp [mine', at_]

theorem State.compareReach_waits (s : State) {k : Nat} (mine : SMap.find s.ply.reachOwn k = none) : s.compareReach k = s := by
  unfold State.compareReach
  rw [mine]

theorem reachReceived_compares {reach : List (BitVec 16)} (taken : Taken s 0x43 h) :
    Does (.reachReceived h reach) s (fun t => t.image = s.image ∧ t.turn = s.turn ∧ t.out = s.out ∧
      (SMap.find s.ply.reachOwn h.turn.toNat = none → t.regs = s.regs ∧
        ∃ l, SMap.find t.ply.reachFar h.turn.toNat = some l ∧ ∀ n, n ∈ l ↔ n ∈ reachTells reach) ∧
      (∀ own, SMap.find s.ply.reachOwn h.turn.toNat = some own → ∀ n ∈ s.stations, h.turn.toNat % s.stationP n = 0 →
        (n ∈ t.skein.partnerLacks ↔ n ∈ own ∧ n ∉ reachTells reach) ∧ (n ∈ t.skein.lacksMe ↔ n ∈ reachTells reach ∧ n ∉ own))) := by
  have run := reachReceived_runs (reach := reach) taken
  have far := State.reachHeld_far (s.plyTook 0x43 h) h.turn.toNat (reachTells reach)
  have held : ReachKept s ((s.plyTook 0x43 h).reachHeld h.turn.toNat (reachTells reach)) := ⟨rfl, rfl, rfl⟩
  have own : ((s.plyTook 0x43 h).reachHeld h.turn.toNat (reachTells reach)).ply.reachOwn = s.ply.reachOwn := rfl
  have regs : ((s.plyTook 0x43 h).reachHeld h.turn.toNat (reachTells reach)).regs = s.regs := rfl
  have stations : ((s.plyTook 0x43 h).reachHeld h.turn.toNat (reachTells reach)).stations = s.stations ∧
      ((s.plyTook 0x43 h).reachHeld h.turn.toNat (reachTells reach)).stationP = s.stationP := ⟨rfl, rfl⟩
  generalize (s.plyTook 0x43 h).reachHeld h.turn.toNat (reachTells reach) = u at run far held own regs stations
  rw [← own, ← stations.1, ← stations.2]
  cases mine : SMap.find u.ply.reachOwn h.turn.toNat with
  | none =>
    rw [State.compareReach_waits u mine] at run
    exact ⟨_, run, held.image, held.turn, held.out, fun _ => ⟨regs, _, far, fun _ => Iff.rfl⟩, fun _ some_ => by simp at some_⟩
  | some l =>
    obtain ⟨kept, lacks⟩ := u.compareReach_lacks mine far
    have all := held.then kept
    refine ⟨_, run, all.image, all.turn, all.out, fun none_ => by simp at none_, fun own same => ?_⟩
    obtain rfl := Option.some.inj same
    exact lacks

/-! DIGEST (R280, R281). -/

/-- What a DIGEST compares of two releases (R280). -/
def SameDigest (own far : Digest) : Prop :=
  own.outSeal = far.outSeal ∧ own.braked = far.braked ∧ own.auxSeal = far.auxSeal ∧ own.items = far.items

/-- The state in which the partner's DIGEST of a release is held. -/
def State.digestHeld (s : State) (m : Nat) (far : Digest) : State :=
  { s with ply := { s.ply with noDigest := 0, digPartner := SMap.put s.ply.digPartner m far } }

theorem digestReceived_runs {far : Digest} (taken : Taken s 0x44 h) (standby : s.plyState = 4) : exec (.digestReceived h far) s =
    .next (((s.plyTook 0x44 h).digestHeld h.turn.toNat far).compareDigest h.turn.toNat) := by
  have compares : (s.plyTook 0x44 h).compares = true := by
    unfold State.compares
    rw [show (s.plyTook 0x44 h).isStandby = true from beq_iff_eq.2 standby]
    rfl
  change execDigestReceived h far s = _
  unfold execDigestReceived
  rw [taken.takes]
  exact if_neg (by simp [compares])

theorem State.compareDigest_waits (s : State) {m : Nat} (none_ : SMap.find s.ply.digOwn m = none) : s.compareDigest m = s := by
  unfold State.compareDigest
  rw [none_]

theorem State.compareDigest_of (s : State) {m : Nat} {own far : Digest} (mine : SMap.find s.ply.digOwn m = some own)
    (theirs : SMap.find s.ply.digPartner m = some far) (counted : s.digestExcluded m = false) (whole : m ∉ s.ply.split) :
    (SameDigest own far → s.compareDigest m = (s.digestMatch m far).digestDone m) ∧
      (¬SameDigest own far → s.compareDigest m = s.digestMismatch.digestDone m) := by
  have same : ((s.ply.split.contains m || own.outSeal == far.outSeal && own.braked == far.braked) && own.auxSeal == far.auxSeal &&
      own.items == far.items) = true ↔ SameDigest own far := by
    simp [SameDigest, whole, and_assoc]
  unfold State.compareDigest
  rw [mine, theirs]
  simp only
  rw [if_neg (by simp [counted])]
  exact ⟨fun e => congrArg (State.digestDone · m) (if_pos (same.2 e)), fun e => congrArg (State.digestDone · m) (if_neg (mt same.1 e))⟩

theorem State.digestMatch_standby (standby : s.plyState = 4) (m : Nat) (far : Digest) :
    (s.digestMatch m far).ply.matchRun = s.ply.matchRun + 1 ∧ (s.digestMatch m far).plyState = 4 := by
  unfold State.digestMatch
  extract_lets own matched left run x s1 s2
  have state : s2.plyState = 4 := (State.wr_plyState (s := s1) _ (by decide)).trans standby
  rw [if_neg (by simp [state])]
  exact ⟨rfl, state⟩

theorem State.leaveTracking_evt (s : State) (reason : Nat) : BitsStay F.PLY_EVT_evt s (s.leaveTracking reason) := by
  unfold State.leaveTracking
  split
  · exact .rfl
  · have told (u : State) : BitsStay F.PLY_EVT_evt u ((u.setPlyState 5).plyEvt 3) :=
      (u.setPlyState_evt 5).trans (State.plyEvt_bits _ (by decide)).1
    refine .trans (.of_eq ?_) (told _)
    exact (State.rd_wr_ne (s.wr F.PLY_REASON_untracked reason) F.PLY_STATUS_diverged F.PLY_EVT_evt 0 (by decide)).trans
      (State.rd_wr_ne s F.PLY_REASON_untracked F.PLY_EVT_evt reason (by decide))

theorem State.digestMismatch_leaves (standby : s.plyState = 4) :
    LeftTracking s.digestMismatch 1 ∧ bitOf (s.digestMismatch.rd F.PLY_EVT_evt) 6 = true := by
  unfold State.digestMismatch
  extract_lets s1 x s2
  have state : s2.plyState = 4 := (State.wr_plyState (s := s) _ (by decide)).trans standby
  rw [if_pos (by simp [State.isStandby, state])]
  refine ⟨State.leaveTracking_leaves ((State.plyEvt_state _ (by decide)).trans state) (by decide), ?_⟩
  exact State.leaveTracking_evt _ 1 6 (by decide) (State.plyEvt_bits _ (by decide)).2

theorem digestReceived_waits {far : Digest} (taken : Taken s 0x44 h) (standby : s.plyState = 4)
    (none_ : SMap.find s.ply.digOwn h.turn.toNat = none) : Does (.digestReceived h far) s (fun t =>
      SMap.find t.ply.digPartner h.turn.toNat = some far ∧ t.ply.noDigest = 0 ∧ t.regs = s.regs) := by
  have run := digestReceived_runs (far := far) taken standby
  rw [State.compareDigest_waits _ (by exact none_)] at run
  exact ⟨_, run, SMap.find_put_same _ _ _, rfl, rfl⟩

theorem digestReceived_compares {own far : Digest} (taken : Taken s 0x44 h) (standby : s.plyState = 4)
    (mine : SMap.find s.ply.digOwn h.turn.toNat = some own) (counted : s.digestExcluded h.turn.toNat = false)
    (whole : h.turn.toNat ∉ s.ply.split) : Does (.digestReceived h far) s (fun t =>
      (SameDigest own far → t.ply.matchRun = s.ply.matchRun + 1 ∧ t.rd F.PLY_STATUS_state = 4) ∧
      (¬SameDigest own far → LeftTracking t 1 ∧ bitOf (t.rd F.PLY_EVT_evt) 6 = true)) := by
  have run := digestReceived_runs (far := far) taken standby
  have theirs : SMap.find ((s.plyTook 0x44 h).digestHeld h.turn.toNat far).ply.digPartner h.turn.toNat = some far :=
    SMap.find_put_same _ _ _
  have run_ : ((s.plyTook 0x44 h).digestHeld h.turn.toNat far).ply.matchRun = s.ply.matchRun := rfl
  replace mine : SMap.find ((s.plyTook 0x44 h).digestHeld h.turn.toNat far).ply.digOwn h.turn.toNat = some own := mine
  replace counted : ((s.plyTook 0x44 h).digestHeld h.turn.toNat far).digestExcluded h.turn.toNat = false := counted
  replace whole : h.turn.toNat ∉ ((s.plyTook 0x44 h).digestHeld h.turn.toNat far).ply.split := whole
  replace standby : ((s.plyTook 0x44 h).digestHeld h.turn.toNat far).plyState = 4 := standby
  rw [← run_]
  clear run_ taken
  generalize (s.plyTook 0x44 h).digestHeld h.turn.toNat far = u at *
  obtain ⟨matches_, differs⟩ := u.compareDigest_of mine theirs counted whole
  refine ⟨_, run, fun e => ?_, fun e => ?_⟩
  · rw [matches_ e]
    exact State.digestMatch_standby standby _ far
  · rw [differs e]
    exact State.digestMismatch_leaves standby

/-! COMPLETION (R115). -/

/-- The partner's record of a sample is held, and no task but one is touched. -/
def RecordHeld (s t : State) (task k v : Nat) : Prop :=
  SMap.find (t.task task).partnerDone k = some v ∧ ∀ u, u ≠ task → t.task u = s.task u

theorem RecordHeld.setTask {t : State} {task k v : Nat} (held : RecordHeld s t task k v) {x : TaskSt}
    (same : x.partnerDone = (t.task task).partnerDone) : RecordHeld s (t.setTask task x) task k v := by
  refine ⟨?_, fun u other => ?_⟩
  · rw [State.task_setTask_same, same]
    exact held.1
  · rw [State.task_setTask_ne _ _ other]
    exact held.2 u other

theorem completionReceived_holds {task : Fin 16} {trap : BitVec 8} {pc : BitVec 16} {ns : BitVec 32} (taken : Taken s 0x45 h) :
    let rel := s.releaseNsOf (s.taskRel task.val h.turn.toNat) % 1000000000
    let after := (ns.toNat % 1000000000 + 1000000000 - rel) % 1000000000
    Does (.completionReceived h task trap pc ns) s (fun t =>
      SMap.find (t.task task.val).partnerDone h.turn.toNat =
          some (trap.toNat + 256 * bit (after == 0 || decide (500000000 ≤ after))) ∧
        (∀ u, u ≠ task.val → t.task u = s.task u) ∧ t.image = s.image ∧ t.turn = s.turn) := by
  intro rel after
  have goes : ∃ t, exec (.completionReceived h task trap pc ns) s = .next t ∧
      RecordHeld s t task.val h.turn.toNat (trap.toNat + 256 * bit (after == 0 || decide (500000000 ≤ after))) := by
    change ∃ t, execCompletionReceived h task trap pc ns s = .next t ∧ _
    unfold execCompletionReceived
    rw [taken.takes]
    dsimp -zeta only
    extract_lets n k rel' after' inTime x s1 mine y s2
    refine ⟨_, rfl, ?_⟩
    have first : RecordHeld s s1 task.val h.turn.toNat (trap.toNat + 256 * bit inTime) := by
      refine ⟨?_, fun u other => State.task_setTask_ne (s.plyTook 0x45 h) _ other⟩
      rw [State.task_setTask_same]
      exact SMap.find_put_same _ _ _
    have second : RecordHeld s s2 task.val h.turn.toNat (trap.toNat + 256 * bit inTime) := by
      change RecordHeld s (ite _ _ _) _ _ _
      split
      · exact first.setTask rfl
      · exact first
    have tasks : (if mine = true then s2.partnerTrapped n k else s2).tasks = s2.tasks := by
      split
      · exact (s2.partnerTrapped_keeps n k).parts .tasks (by decide)
      · rfl
    have same (i : Nat) : (if mine = true then s2.partnerTrapped n k else s2).task i = s2.task i := by
      unfold State.task
      rw [tasks]
    refine ⟨?_, fun u other => (same u).trans (second.2 u other)⟩
    rw [same]
    exact second.1
  obtain ⟨t, run, held, others⟩ := goes
  have keeps := (execCompletionReceived_keeps h task trap pc ns s).of_next run
  exact ⟨t, run, held, others, keeps.parts .image (by decide), keeps.parts .turn (by decide)⟩

/-! HEALTH (R284). -/

theorem State.noteHealth_shows (s : State) (body : Bytes) :
    (s.noteHealth body).ply = { s.ply with health := body } ∧ (s.noteHealth body).plyState = s.plyState ∧
    (s.noteHealth body).rd F.PLY_STATUS_partner_state = byteAt body 0 % 8 ∧
    (s.noteHealth body).rd F.KEY_STATUS_partner = byteAt body 2 % 4 ∧ (s.noteHealth body).rd F.KEY_STATUS_partner_valid = 1 ∧
    (s.rd F.KEY_STATUS_local = byteAt body 2 % 4 → (s.noteHealth body).rd F.KEY_STATUS_disagree = 0) ∧
    (s.isActive = true → (s.noteHealth body).rd F.PLY_COUNTS_mismatches =
      min (s.rd F.PLY_COUNTS_mismatches + (beAt body 24 4 - beAt s.ply.health 24 4)) 65535) := by
  unfold State.noteHealth
  extract_lets newly x s1 s2 s3 s4
  have counted : s2.ply = { s.ply with health := body } ∧ (∀ f, F.PLY_COUNTS_mismatches.key ≠ f.key → s2.rd f = s.rd f) ∧
      (s.isActive = true → s2.rd F.PLY_COUNTS_mismatches =
        min (s.rd F.PLY_COUNTS_mismatches + (beAt body 24 4 - beAt s.ply.health 24 4)) 65535) := by
    change (ite _ _ _ : State).ply = _ ∧ (∀ f, _ → (ite _ _ _ : State).rd f = _) ∧ (_ → (ite _ _ _ : State).rd _ = _)
    by_cases active : s1.isActive = true
    · simp only [active, if_true]
      exact ⟨rfl, fun f apart => State.rd_add_ne s1 _ _ _ apart, fun _ => State.rd_add_same s1 F.PLY_COUNTS_mismatches newly⟩
    · rw [if_neg active]
      exact ⟨rfl, fun f _ => rfl, fun leads => absurd leads active⟩
  clear_value s2
  obtain ⟨ply, others, counts⟩ := counted
  have last (u : State) (hu : u = s4 ∨ u = s4.wr F.KEY_STATUS_disagree 0) : u.ply = s2.ply ∧
      (∀ f, F.KEY_STATUS_disagree.key ≠ f.key → u.rd f = s4.rd f) := by
    rcases hu with rfl | rfl
    · exact ⟨rfl, fun _ _ => rfl⟩
    · exact ⟨rfl, fun f apart => State.rd_wr_ne _ _ _ _ apart⟩
  have either : (if (s4.rd F.KEY_STATUS_local == s4.rd F.KEY_STATUS_partner) = true then s4.wr F.KEY_STATUS_disagree 0 else s4) = s4 ∨
      (if (s4.rd F.KEY_STATUS_local == s4.rd F.KEY_STATUS_partner) = true then s4.wr F.KEY_STATUS_disagree 0 else s4) =
        s4.wr F.KEY_STATUS_disagree 0 := by
    split
    · exact .inr rfl
    · exact .inl rfl
  obtain ⟨plyE, rdE⟩ := last _ either
  have shown : s4.rd F.KEY_STATUS_partner = byteAt body 2 % 4 := by
    rw [show s4 = s3.wr F.KEY_STATUS_partner_valid 1 from rfl, State.rd_wr_ne _ _ _ _ (by decide)]
    exact State.rd_wr_same _ _ _
  have before {f : Fld} (apart : F.KEY_STATUS_partner_valid.key ≠ f.key ∧ F.KEY_STATUS_partner.key ≠ f.key ∧
      F.PLY_STATUS_partner_state.key ≠ f.key) : s4.rd f = s2.rd f :=
    (State.rd_wr_ne s3 _ _ _ apart.1).trans ((State.rd_wr_ne _ _ _ _ apart.2.1).trans (State.rd_wr_ne s2 _ _ _ apart.2.2))
  refine ⟨plyE.trans ply, ?_, ?_, ?_, ?_, fun agrees => ?_, fun active => ?_⟩
  · exact (rdE _ (by decide)).trans ((before (by decide)).trans (others _ (by decide)))
  · rw [rdE _ (by decide), show s4 = s3.wr F.KEY_STATUS_partner_valid 1 from rfl, State.rd_wr_ne _ _ _ _ (by decide)]
    refine (State.rd_wr_ne (s2.wr F.PLY_STATUS_partner_state (byteAt body 0 % 8)) F.KEY_STATUS_partner F.PLY_STATUS_partner_state
      (byteAt body 2) (by decide)).trans ((State.rd_wr_same _ _ _).trans (Nat.mod_mod _ _))
  · rw [rdE _ (by decide), shown]
  · rw [rdE _ (by decide)]
    exact State.rd_wr_same _ _ _
  · have equal : s4.rd F.KEY_STATUS_local = s4.rd F.KEY_STATUS_partner := by
      rw [shown, before (by decide), others _ (by decide), agrees]
    rw [if_pos (by simp [equal])]
    exact State.rd_wr_same _ _ _
  · rw [rdE _ (by decide), before (by decide), counts active]

/-- What follows a HEALTH in the module's own role (R277, R296). -/
def State.heardHealth (s : State) (st : Nat) : State :=
  let s := if s.plyState == 1 && st == 3 then s.setPlyState 2 else s
  if s.isActive && st != 3 then s.dropCapture else s

theorem State.heardHealth_shows (s : State) {st : Nat} (starts : s.plyState ≠ 0) :
    (s.heardHealth st).plyState = (if s.plyState = 1 ∧ st = 3 then 2 else s.plyState) ∧
    Kept roleFlds s (s.heardHealth st) ∧ (s.heardHealth st).ply.health = s.ply.health ∧
    RegsIn [.hopper, .events, .online, .time, .ply, .brake, .viol, .skein] s (s.heardHealth st) := by
  have dropped (u : State) : (if u.isActive && st != 3 then u.dropCapture else u).regs = u.regs ∧
      (if u.isActive && st != 3 then u.dropCapture else u).ply.health = u.ply.health := by
    split <;> exact ⟨rfl, rfl⟩
  unfold State.heardHealth
  simp only
  generalize hu : (if s.plyState == 1 && st == 3 then s.setPlyState 2 else s) = u
  obtain ⟨regs, health⟩ := dropped u
  have same (f : Fld) : (if u.isActive && st != 3 then u.dropCapture else u).rd f = u.rd f := by rw [State.rd, regs, State.rd]
  by_cases joins : s.plyState = 1 ∧ st = 3
  · rw [if_pos (by simp [joins.1, joins.2])] at hu
    subst hu
    refine ⟨?_, (s.setPlyState_kept 2).same regs, health.trans ?_,
      fun f low apart => (same f).trans (s.setPlyState_in 2 f low apart)⟩
    · rw [if_pos joins]
      exact (same _).trans (State.setPlyState_state _ (by decide))
    · rw [s.setPlyState_ply 2]
  · rw [if_neg (by simpa using joins)] at hu
    subst hu
    refine ⟨?_, .same .rfl regs, health, fun f _ _ => same f⟩
    rw [if_neg joins]
    exact same _

theorem healthReceived_runs {body : Bytes} (taken : Taken s 0x4A h) : exec (.healthReceived h body) s =
    .next (((s.plyTook 0x4A h).noteHealth body).heardHealth (byteAt body 0 % 8)).decideRole.row19 := by
  change execHealthReceived h body s = _
  unfold execHealthReceived
  rw [taken.takes]
  rfl

theorem healthReceived_shows {body : Bytes} (taken : Taken s 0x4A h) (starts : s.plyState ≠ 0) :
    Does (.healthReceived h body) s (fun t => t.ply.health = body ∧ t.rd F.PLY_STATUS_partner_state = byteAt body 0 % 8 ∧
      t.rd F.KEY_STATUS_partner = byteAt body 2 % 4 ∧ t.rd F.KEY_STATUS_partner_valid = 1 ∧
      (s.rd F.KEY_STATUS_local = byteAt body 2 % 4 → t.rd F.KEY_STATUS_disagree = 0) ∧
      t.rd F.PLY_STATUS_state = (if s.plyState = 1 ∧ byteAt body 0 % 8 = 3 then 2 else s.plyState) ∧
      (s.plyState = 1 ∨ s.plyState = 2 → t.rd F.PLY_COUNTS_mismatches =
        min (s.rd F.PLY_COUNTS_mismatches + (beAt body 24 4 - beAt s.ply.health 24 4)) 65535) ∧ t.image = s.image) := by
  have run := healthReceived_runs (body := body) taken
  obtain ⟨ply, state, partner, key, valid, agrees, counts⟩ := (s.plyTook 0x4A h).noteHealth_shows body
  replace state : _ = s.plyState := state
  replace ply : ((s.plyTook 0x4A h).noteHealth body).ply.health = body := by rw [ply]
  replace agrees : s.rd F.KEY_STATUS_local = byteAt body 2 % 4 → _ := agrees
  replace counts : s.isActive = true → _ = min (s.rd F.PLY_COUNTS_mismatches + (beAt body 24 4 - beAt s.ply.health 24 4)) 65535 := counts
  generalize (s.plyTook 0x4A h).noteHealth body = u at run ply state partner key valid agrees counts
  obtain ⟨stateV, kept, healthV, regs⟩ := u.heardHealth_shows (st := byteAt body 0 % 8) (by rw [state]; exact starts)
  generalize u.heardHealth (byteAt body 0 % 8) = v at run stateV kept healthV regs
  rw [state] at stateV
  have rests : v.decideRole = v := if_pos (by
    have : v.plyState ≠ 0 := by
      rw [stateV]
      split
      · decide
      · exact starts
    simp [this])
  rw [rests] at run
  have last : Kept plyFlds v v.row19 := .of_offPly v.row19_in (by decide)
  have keys {f : Fld} (hf : f.In .key) : v.row19.rd f = u.rd f :=
    (v.row19_in.rd_eq hf (by decide)).trans (regs.rd_eq hf (by decide))
  refine ⟨_, run, ?_, ?_, (keys (by decide)).trans key, (keys (by decide)).trans valid, fun e => (keys (by decide)).trans (agrees e), ?_,
    fun active => ?_, ((execHealthReceived_keeps h body s).of_next run).parts .image (by decide)⟩
  · rw [v.row19_keeps.ply (by decide), healthV, ply]
  · rw [last _ (by decide), kept _ (by decide), partner]
  · exact (last _ (by decide)).trans stateV
  · rw [last _ (by decide), kept _ (by decide)]
    exact counts (State.isActive_of_lone_or_active active)

end

theorem partnerFramesTaken : PartnerFramesTaken := by
  intro s h k
  refine ⟨?_, fun n body taken standby proxy fit free up => releasedReceived_sends taken standby proxy fit free up,
    ?_, fun far taken standby => ⟨fun none_ => digestReceived_waits taken standby none_,
      fun own mine counted whole => digestReceived_compares taken standby mine counted whole⟩,
    fun task trap pc ns taken => completionReceived_holds taken, fun body taken starts => healthReceived_shows taken starts⟩
  · intro b taken good long f n type present whole running now live inTime up fresh
    exact bridgeReceived_counts taken ⟨⟨good, long⟩, type, present, whole, running, now, ⟨live, inTime⟩, fresh⟩ up rfl
  · intro reach taken far
    have tells (n : Nat) : n ∈ reachTells reach ↔ far n := mem_reachTells
    simp only [← tells]
    exact reachReceived_compares taken

/-- Settles O35: each frame of the partner is followed through what it is compared with and what it makes of the role. -/
theorem heartbeatsAndPartnerFrames : Obligations.HeartbeatsAndPartnerFrames := ⟨heartbeats, partnerFramesTaken⟩

end Sys2Proof.Machine

/-! PROOFS. A module becomes LONE, begins a join, fails one (R277, R279, R295), and the row of the epoch limit (R303). -/

namespace Sys2Proof.Machine

/-! The row of the epoch limit (R279, R303). -/

section
variable (s : State)

theorem State.brkEvt_raw (i : Nat) : (s.brkEvt i).rd F.BRK_SRC_RAW_raw = s.rd F.BRK_SRC_RAW_raw := by
  have written (v : Nat) : (s.wr (if i = 0 then F.BRK_EVT_asserted else if i = 1 then F.BRK_EVT_ended
      else if i = 2 then F.BRK_EVT_holdup else F.BRK_EVT_split) v).rd F.BRK_SRC_RAW_raw = s.rd F.BRK_SRC_RAW_raw := by
    refine State.rd_wr_ne _ _ _ _ ?_
    split
    · decide
    · split
      · decide
      · split <;> decide
  unfold State.brkEvt
  extract_lets f was s1
  split
  · exact ((s1.raiseSource_in 112 _ _ (by decide)).rd_eq (b := .brake) (by decide) (by decide)).trans (written 1)
  · exact written 1

theorem State.evalMatrix_raw : s.evalMatrix.rd F.BRK_SRC_RAW_raw = s.rd F.BRK_SRC_RAW_raw := by
  unfold State.evalMatrix
  extract_lets was eff s1 oldPorts s2 s3 s4 x s5 y s6
  have braked : s4.rd F.BRK_SRC_RAW_raw = s3.rd F.BRK_SRC_RAW_raw :=
    rd_foldl _ fun u p _ => (State.brakePort_in u p).rd_eq (b := .brake) (by decide) (by decide)
  have shown : s3.rd F.BRK_SRC_RAW_raw = s.rd F.BRK_SRC_RAW_raw :=
    (State.rd_wr_ne s2 F.BRK_STATE_port _ _ (by decide)).trans
      ((State.rd_wr_ne s1 F.BRK_STATE_bo _ _ (by decide)).trans (State.rd_wr_ne s F.BRK_SRC_EFF_eff _ _ (by decide)))
  have same : s6.rd F.BRK_SRC_RAW_raw = s4.rd F.BRK_SRC_RAW_raw := by
    change (ite _ _ _ : State).rd _ = _
    split <;> rfl
  have all := same.trans (braked.trans shown)
  split
  · exact all
  · exact (State.brkEvt_raw _ 1).trans all

theorem State.stampRow_raw (r : Nat) : (s.stampRow r).rd F.BRK_SRC_RAW_raw = s.rd F.BRK_SRC_RAW_raw := by
  have words (f : Nat → Fld) (w : Nat) (u : State) (apart : ∀ i, (f i).key ≠ F.BRK_SRC_RAW_raw.key) :
      (u.stampWords f w).rd F.BRK_SRC_RAW_raw = u.rd F.BRK_SRC_RAW_raw :=
    rd_foldl _ fun u i _ => State.rd_wr_ne _ _ _ _ (apart i)
  have counted : (s.inc (F.BRK_COUNT_count r)).rd F.BRK_SRC_RAW_raw = s.rd F.BRK_SRC_RAW_raw :=
    State.rd_add_ne _ _ _ _ (by simp only [Fld.key, F.BRK_COUNT_count, F.BRK_SRC_RAW_raw]; omega)
  have first (i : Nat) : (F.BRK_FIRST_TIME_word i).key ≠ F.BRK_SRC_RAW_raw.key := by
    simp only [Fld.key, F.BRK_FIRST_TIME_word, F.BRK_SRC_RAW_raw]
    omega
  have last (i : Nat) : (F.BRK_LAST_TIME_word i).key ≠ F.BRK_SRC_RAW_raw.key := by
    simp only [Fld.key, F.BRK_LAST_TIME_word, F.BRK_SRC_RAW_raw]
    omega
  unfold State.stampRow
  simp only
  split
  · exact counted
  · refine (words _ _ _ last).trans ((State.rd_wr_ne _ _ _ _ (by decide)).trans ((State.rd_wr_ne _ _ _ _ (by decide)).trans ?_))
    split
    · exact counted
    · exact (words _ _ _ first).trans ((State.rd_wr_ne _ _ _ _ (by decide)).trans
        ((State.rd_wr_ne _ _ _ _ (by decide)).trans counted))

/-- The row of a source that is asserted shows (R304). -/
theorem State.setRow_raw {r : Nat} (hr : r < 32) : bitOf ((s.setRow r true).rd F.BRK_SRC_RAW_raw) r = true := by
  unfold State.setRow
  extract_lets raw s1 s2 x s3 s4 s5
  split
  · exact beq_iff_eq.1 (by assumption)
  · have shown : bitOf (s1.rd F.BRK_SRC_RAW_raw) r = true := by
      refine (State.bitOf_wr_setBit s (f := F.BRK_SRC_RAW_raw) hr).trans ?_
      simp
    have latched : s3.rd F.BRK_SRC_RAW_raw = s2.rd F.BRK_SRC_RAW_raw := by
      change (ite _ _ _ : State).rd _ = _
      split <;> rfl
    have told : s5.rd F.BRK_SRC_RAW_raw = s1.rd F.BRK_SRC_RAW_raw :=
      (s4.evalMatrix.brkEvt_raw 0).trans (s4.evalMatrix_raw.trans (Eq.trans (by exact latched) (s1.stampRow_raw r)))
    rw [if_pos (Eq.refl _)]
    split
    · rw [State.brkEvt_raw, told]
      exact shown
    · rw [told]
      exact shown

theorem State.row19_limit (limit : s.brake.epochLimit = true) : bitOf (s.row19.rd F.BRK_SRC_RAW_raw) 19 = true := by
  unfold State.row19
  rw [limit, Bool.true_or]
  exact s.setRow_raw (by decide)

end

end Sys2Proof.Machine

/-! PROOFS. O37: a module that starts becomes LONE or joins, and joins that fail (R277, R279, R295, R298). -/

namespace Sys2Proof.Machine

/-- The greatest epoch that a module has heard (R279). -/
def State.heardMost (s : State) : Nat := max s.ply.partnerEpoch s.ply.heardEpoch

/-- A module in STARTING has become LONE above a heard epoch, or stays and brakes at the epoch's limit (R277, R279). -/
def LoneAbove (heard epoch : Nat) (t : State) : Prop :=
  (heard < 0xFFFFFFF → t.rd F.PLY_STATUS_state = 1 ∧ t.ply.tokOut = true ∧ t.rd F.PLY_STATUS_muted = 0 ∧
    t.rd F.PLY_REASON_takeover = 6 ∧ t.rd F.PLY_EPOCH_epoch = heard + 1) ∧
  (0xFFFFFFF ≤ heard → t.rd F.PLY_STATUS_state = 0 ∧ t.rd F.PLY_EPOCH_epoch = epoch ∧
    bitOf (t.rd F.BRK_SRC_RAW_raw) 19 = true)

/-- A join has begun (R295). -/
def Joining (attempts : Nat) (t : State) : Prop :=
  t.rd F.PLY_STATUS_state = 3 ∧ t.rd F.PLY_JOIN_phase = 1 ∧ t.rd F.PLY_JOIN_attempts = min (attempts + 1) 31

/-- A join has failed with a reason (R295). -/
def JoinFailed (reason : Nat) (t : State) : Prop :=
  LeftTracking t 14 ∧ t.rd F.PLY_JOIN_fail = reason ∧ t.rd F.PLY_JOIN_phase = 0

section
variable {s : State}

/-- The state in which the first token goes out of a module that has become LONE. -/
def State.loneRole (s : State) : State :=
  let s := (s.wr F.PLY_EPOCH_epoch (s.heardMost + 1)).setPlyState 1
  { s with ply := { s.ply with tokOut := true } }

theorem State.becomeLone_below (below : s.heardMost < 0xFFFFFFF) :
    s.becomeLone = (((s.loneRole.setMuted false).queueHeartbeat.wr F.PLY_REASON_takeover 6).restoreRetained) :=
  if_neg (Nat.not_le.2 below)

theorem State.becomeLone_limit (limit : 0xFFFFFFF ≤ s.heardMost) :
    s.becomeLone = ({ s with brake := { s.brake with epochLimit := true } } : State).row19 := if_pos limit

theorem State.loneRole_shows (below : s.heardMost < 0xFFFFFFF) : s.loneRole.rd F.PLY_STATUS_state = 1 ∧
    s.loneRole.rd F.PLY_EPOCH_epoch = s.heardMost + 1 ∧ s.loneRole.ply.tokOut = true := by
  refine ⟨State.setPlyState_state (s.wr F.PLY_EPOCH_epoch (s.heardMost + 1)) (n := 1) (by decide), ?_, rfl⟩
  have kept := State.setPlyState_kept (s.wr F.PLY_EPOCH_epoch (s.heardMost + 1)) 1 F.PLY_EPOCH_epoch (by decide)
  refine Eq.trans (by exact kept) ((State.rd_wr_same _ _ _).trans (Nat.mod_eq_of_lt ?_))
  show s.heardMost + 1 < 2 ^ 28
  omega

theorem State.becomeLone_lone (starts : s.plyState = 0) : LoneAbove s.heardMost (s.rd F.PLY_EPOCH_epoch) s.becomeLone := by
  refine ⟨fun below => ?_, fun limit => ?_⟩
  · rw [State.becomeLone_below below]
    obtain ⟨state, epoch, token⟩ := State.loneRole_shows below
    generalize s.loneRole = u at state epoch token
    have same {f : Fld} (hf : f.In .ply) (muted : F.PLY_STATUS_muted.key ≠ f.key) (reason : F.PLY_REASON_takeover.key ≠ f.key) :
        ((u.setMuted false).queueHeartbeat.wr F.PLY_REASON_takeover 6).restoreRetained.rd f = u.rd f := by
      rw [(State.restoreRetained_in _).rd_eq hf (by decide), State.rd_wr_ne _ _ _ _ reason,
        (State.queueHeartbeat_in _).rd_eq hf (by decide), State.setMuted_rd _ _ hf muted]
    refine ⟨(same (by decide) (by decide) (by decide)).trans state, ?_, ?_, ?_, (same (by decide) (by decide) (by decide)).trans epoch⟩
    · rw [(State.restoreRetained_keeps _).ply (by decide)]
      change (u.setMuted false).queueHeartbeat.ply.tokOut = true
      rw [(State.queueHeartbeat_keeps _).ply (by decide), (State.setMuted_keeps _ _).ply (by decide)]
      exact token
    · rw [(State.restoreRetained_in _).rd_eq (b := .ply) (by decide) (by decide), State.rd_wr_ne _ _ _ _ (by decide),
        (State.queueHeartbeat_in _).rd_eq (b := .ply) (by decide) (by decide), State.setMuted_muted]
      rfl
    · rw [(State.restoreRetained_in _).rd_eq (b := .ply) (by decide) (by decide)]
      exact State.rd_wr_same _ F.PLY_REASON_takeover 6
  · rw [State.becomeLone_limit limit]
    have kept (u : State) : Kept plyFlds u u.row19 := .of_offPly u.row19_in (by decide)
    exact ⟨Eq.trans (kept _ F.PLY_STATUS_state (by decide)) starts, kept _ F.PLY_EPOCH_epoch (by decide), State.row19_limit _ rfl⟩

theorem startingTimeout_lone (starts : s.plyState = 0) (power : s.rolePower = true) (running : s.rd F.TURN_STATUS_running = 1)
    (down : s.rd F.PLY_STATUS_link = 0) (beaconless : s.partnerBeaconless = true) (unheard : s.rd F.PLY_STATUS_mill_hb_seen = 0)
    (silent : s.rd F.PLY_STATUS_tok_in = 0) :
    Does .startingTimeout s (LoneAbove s.heardMost (s.rd F.PLY_EPOCH_epoch)) := by
  have run : exec .startingTimeout s = .next s.becomeLone :=
    if_pos (by simp [starts, power, State.on, running, State.plyUp, down, beaconless, unheard, silent])
  exact ⟨_, run, State.becomeLone_lone starts⟩

/-! A join begins (R295). -/

/-- The state in which the JOIN frame of a join that begins goes out. -/
def State.joinBegun (s : State) : State :=
  let s := (s.setPlyState 3).wr F.PLY_JOIN_phase 1
  let s := (s.inc F.PLY_JOIN_attempts).wr F.PLY_JOIN_backlog 0
  { s with ply := { s.ply with
    silentTest := false, capture := none, captureRestarts := 0, captured := [], matchRun := 0, diverged := [], restored := [],
    recInputs := [], recSnaps := [], excluded := [], digOwn := [], digPartner := [] } }

theorem State.beginJoin_eq (s : State) : s.beginJoin = s.joinBegun.sendJoin := rfl

theorem State.joinBegun_rd (s : State) (f : Fld) : s.joinBegun.rd f =
    ((((s.setPlyState 3).wr F.PLY_JOIN_phase 1).inc F.PLY_JOIN_attempts).wr F.PLY_JOIN_backlog 0).rd f := rfl

theorem State.sendJoin_rejoins (s : State) : s.sendJoin.ply.rejoins = s.ply.rejoins ∧ s.sendJoin.ply.rxAlive = s.ply.rxAlive := by
  unfold State.sendJoin State.sendPly
  simp only
  split <;> exact ⟨rfl, rfl⟩

theorem State.beginJoin_joins (s : State) : Joining (s.rd F.PLY_JOIN_attempts) s.beginJoin := by
  have sent (f : Fld) (hf : f.In .ply) : s.beginJoin.rd f = s.joinBegun.rd f := by
    rw [s.beginJoin_eq]
    exact (State.sendJoin_in _).rd_eq hf (by decide)
  have counted : ((s.setPlyState 3).wr F.PLY_JOIN_phase 1).rd F.PLY_JOIN_attempts = s.rd F.PLY_JOIN_attempts :=
    (State.rd_wr_ne _ _ _ _ (by decide)).trans (s.setPlyState_kept 3 _ (by decide))
  refine ⟨?_, ?_, ?_⟩ <;> rw [sent _ (by decide), State.joinBegun_rd, State.rd_wr_ne _ _ _ _ (by decide), State.inc]
  · rw [State.rd_add_ne _ _ _ _ (by decide), State.rd_wr_ne _ _ _ _ (by decide), State.setPlyState_state _ (by decide)]
  · rw [State.rd_add_ne _ _ _ _ (by decide)]
    exact State.rd_wr_same _ F.PLY_JOIN_phase 1
  · rw [State.rd_add_same, counted]
    rfl

/-- What a join that begins leaves of the ply (R295). -/
theorem State.beginJoin_kept (s : State) : s.beginJoin.ply.rejoins = s.ply.rejoins ∧ s.beginJoin.ply.rxAlive = s.ply.rxAlive ∧
    s.beginJoin.rd F.PLY_STATUS_link = s.rd F.PLY_STATUS_link := by
  have role := s.setPlyState_ply 3
  refine ⟨?_, ?_, ?_⟩ <;> rw [s.beginJoin_eq]
  · rw [s.joinBegun.sendJoin_rejoins.1]
    change (s.setPlyState 3).ply.rejoins = _
    rw [role]
  · rw [s.joinBegun.sendJoin_rejoins.2]
    change (s.setPlyState 3).ply.rxAlive = _
    rw [role]
  · rw [(State.sendJoin_in _).rd_eq (b := .ply) (by decide) (by decide), State.joinBegun_rd, State.rd_wr_ne _ _ _ _ (by decide),
      State.inc, State.rd_add_ne _ _ _ _ (by decide), State.rd_wr_ne _ _ _ _ (by decide)]
    exact s.setPlyState_kept 3 _ (by decide)

theorem Joining.then {a : Nat} {t u : State} (h : Joining a t)
    (kept : Kept [F.PLY_STATUS_state, F.PLY_JOIN_phase, F.PLY_JOIN_attempts] t u) : Joining a u :=
  ⟨(kept _ (by decide)).trans h.1, (kept _ (by decide)).trans h.2.1, (kept _ (by decide)).trans h.2.2⟩

/-- The state with a list of the times of joins by itself or on command. -/
def State.noteRejoins (s : State) (l : List Nat) : State := { s with ply := { s.ply with rejoins := l } }

theorem State.noteRejoins_joins (s : State) (l : List Nat) : Joining (s.rd F.PLY_JOIN_attempts) (s.noteRejoins l).beginJoin ∧
    (s.noteRejoins l).beginJoin.ply.rejoins = l := by
  have rejoins : (s.noteRejoins l).ply.rejoins = l := rfl
  have same : (s.noteRejoins l).rd F.PLY_JOIN_attempts = s.rd F.PLY_JOIN_attempts := rfl
  generalize s.noteRejoins l = u at rejoins same
  rw [← same, ← rejoins]
  exact ⟨u.beginJoin_joins, u.beginJoin_kept.1⟩

theorem autoRejoin_joins (left : s.plyState = 5) (enabled : s.act F.PLY_CTRL_auto_rejoin = 1)
    (few : (s.ply.rejoins.filter (fun j => decide (s.workSec < j + 600))).length < 3) :
    Does .autoRejoin s (fun t => Joining (s.rd F.PLY_JOIN_attempts) t ∧ s.workSec ∈ t.ply.rejoins) := by
  have run : exec .autoRejoin s =
      .next (s.noteRejoins (s.workSec :: s.ply.rejoins.filter (fun j => decide (s.workSec < j + 600)))).beginJoin :=
    if_pos (by simp [left, State.aon, enabled, few])
  obtain ⟨joins, rejoins⟩ := s.noteRejoins_joins (s.workSec :: s.ply.rejoins.filter (fun j => decide (s.workSec < j + 600)))
  exact ⟨_, run, joins, by rw [rejoins]; exact List.mem_cons_self⟩

theorem plyCmdRejoin_joins (on : s.pd .ringply = true) (left : s.plyState = 5) :
    Does .plyCmdRejoin s (fun t => Joining (s.rd F.PLY_JOIN_attempts) t ∧ t.rd F.PLY_STATUS_cmd_refused = 0) := by
  have run : exec .plyCmdRejoin s =
      .next ((s.noteRejoins (s.workSec :: s.ply.rejoins)).beginJoin.wr F.PLY_STATUS_cmd_refused 0) :=
    (if_neg (by simp [on])).trans (if_pos (by simp [left]))
  exact ⟨_, run, (s.noteRejoins_joins _).1.then (.wr 0 (by decide)), State.rd_wr_same _ _ _⟩

/-- A command of the ply that the state does not allow (R298). -/
theorem refused_shows (s : State) : (s.wr F.PLY_STATUS_cmd_refused 1).rd F.PLY_STATUS_cmd_refused = 1 ∧
    RegsIn [.ply] s (s.wr F.PLY_STATUS_cmd_refused 1) ∧ OnlyRegs s (s.wr F.PLY_STATUS_cmd_refused 1) :=
  ⟨State.rd_wr_same _ _ _, .wr _ _ .ply .rfl (by decide) (by decide) (by decide) (by decide), Eq.refl _⟩

/-! A join fails (R295). -/

theorem State.failJoin_fails (joins : s.plyState = 3) {reason : Nat} (hr : reason < 8) : JoinFailed reason (s.failJoin reason) := by
  have failed : s.failJoin reason = ((((((s.wr F.PLY_JOIN_fail reason).wr F.PLY_JOIN_phase 0).wr F.PLY_REASON_untracked 14).setPlyState
      5).plyEvt 5).plyEvt 3) := if_neg (by simp [joins])
  rw [failed]
  have told (u : State) : Kept plyFlds u ((u.plyEvt 5).plyEvt 3) :=
    (u.plyEvt_kept (i := 5) (by decide)).then ((u.plyEvt 5).plyEvt_kept (i := 3) (by decide))
  have role := State.setPlyState_kept (((s.wr F.PLY_JOIN_fail reason).wr F.PLY_JOIN_phase 0).wr F.PLY_REASON_untracked 14) 5
  refine ⟨⟨?_, ?_, (State.plyEvt_bits _ (by decide)).2⟩, ?_, ?_⟩ <;> rw [told _ _ (by decide)]
  · exact State.setPlyState_state _ (by decide)
  · rw [role _ (by decide)]
    exact State.rd_wr_same _ F.PLY_REASON_untracked 14
  · rw [role _ (by decide), State.rd_wr_ne _ _ _ _ (by decide), State.rd_wr_ne _ _ _ _ (by decide), State.rd_wr_same]
    exact Nat.mod_eq_of_lt hr
  · rw [role _ (by decide), State.rd_wr_ne _ _ _ _ (by decide)]
    exact State.rd_wr_same _ F.PLY_JOIN_phase 0

theorem State.failJoin_rests (other : s.plyState ≠ 3) (reason : Nat) : s.failJoin reason = s := if_pos (by simp [other])

theorem joinTimeout_fails (joins : s.plyState = 3) : Does .joinTimeout s (JoinFailed 1) :=
  ⟨_, rfl, State.failJoin_fails joins (by decide)⟩

theorem replayBehind_fails (joins : s.plyState = 3) (phase : s.rd F.PLY_JOIN_phase = 5)
    (behind : s.ply.backlogWas < 2 * (s.ply.liveCut - s.turn.cutoffs)) : Does .replayBehind s (JoinFailed 5) :=
  ⟨_, (if_neg (by simp [phase])).trans (if_pos behind), State.failJoin_fails joins (by decide)⟩

theorem replayBehind_goes (phase : s.rd F.PLY_JOIN_phase = 5) (ahead : 2 * (s.ply.liveCut - s.turn.cutoffs) ≤ s.ply.backlogWas) :
    Does .replayBehind s (fun t => t = { s with ply := { s.ply with backlogWas := s.ply.liveCut - s.turn.cutoffs } }) :=
  ⟨_, (if_neg (by simp [phase])).trans (if_neg (Nat.not_lt.2 ahead)), rfl⟩

theorem divergedTimeout_leaves {d : Nat × Nat × Bool} (listed : d ∈ s.ply.diverged) (standby : s.plyState = 4)
    (late : d.2.1 + max 64 (ceilDiv 1000000 (max 1 s.turnNs)) ≤ s.turn.k) :
    Does .divergedTimeout s (fun t => LeftTracking t 1) := by
  have run : exec .divergedTimeout s = .next (s.leaveTracking 1) := if_pos (by
    rw [show s.isStandby = true from beq_iff_eq.2 standby, Bool.true_and]
    exact List.any_eq_true.2 ⟨d, listed, decide_eq_true late⟩)
  exact ⟨_, run, State.leaveTracking_leaves standby (by decide)⟩

theorem replayCaughtUp_compares (joins : s.plyState = 3) (phase : s.rd F.PLY_JOIN_phase = 5) (caught : s.ply.liveCut ≤ s.turn.cutoffs) :
    Does .replayCaughtUp s (fun t => t.rd F.PLY_JOIN_phase = 6 ∧ t.rd F.PLY_JOIN_backlog = 0 ∧ t.ply.matchRun = 0 ∧
      t.turn = s.turn ∧ RegsIn [.ply] s t) := by
  have run : exec .replayCaughtUp s = .next (({ s.takeRecorded s.turn.k with ply := { (s.takeRecorded s.turn.k).ply with
      matchRun := 0, digOwn := [], digPartner := [] } } : State).wr F.PLY_JOIN_phase 6 |>.wr F.PLY_JOIN_backlog 0) :=
    if_pos (by simp [joins, phase, caught])
  refine ⟨_, run, ?_, State.rd_wr_same _ _ _, rfl, (State.takeRecorded_keeps s s.turn.k).parts .turn (by decide), ?_⟩
  · exact (State.rd_wr_ne _ F.PLY_JOIN_backlog F.PLY_JOIN_phase 0 (by decide)).trans (State.rd_wr_same _ F.PLY_JOIN_phase 6)
  · refine .wr _ _ .ply (.wr _ _ .ply (.upd ((s.takeRecorded_in s.turn.k).mono (by decide))) ?_ ?_ ?_ ?_) ?_ ?_ ?_ ?_ <;> decide

theorem replayCaughtUp_waits (behind : s.turn.cutoffs < s.ply.liveCut) : Does .replayCaughtUp s (fun t => t = s) :=
  ⟨_, if_neg (by simp [Nat.not_le.2 behind]), rfl⟩

end

end Sys2Proof.Machine

/-! PROOFS. O37: the link goes up or down, the commands of the ply, handovers and reverts (R277, R293, R294, R298). -/

namespace Sys2Proof.Machine

section
variable {s : State}

/-! The link (R277). -/

/-- The link of the ply is up, and the counts of what crosses it start again. -/
def State.linkUp (s : State) : State :=
  let s := s.wr F.PLY_STATUS_link 2
  { s with ply := { s.ply with rxAlive := [], txAlive := [], hbMissed := 0 } }

theorem State.linkUp_rd (s : State) {f : Fld} (apart : F.PLY_STATUS_link.key ≠ f.key) : s.linkUp.rd f = s.rd f :=
  State.rd_wr_ne s F.PLY_STATUS_link f 2 apart

theorem State.becomeLone_kept (s : State) : s.becomeLone.ply.rxAlive = s.ply.rxAlive ∧
    s.becomeLone.rd F.PLY_STATUS_link = s.rd F.PLY_STATUS_link := by
  by_cases below : s.heardMost < 0xFFFFFFF
  · rw [State.becomeLone_below below]
    have role := State.setPlyState_ply (s.wr F.PLY_EPOCH_epoch (s.heardMost + 1)) 1
    have link := State.setPlyState_kept (s.wr F.PLY_EPOCH_epoch (s.heardMost + 1)) 1 F.PLY_STATUS_link (by decide)
    constructor
    · rw [(State.restoreRetained_keeps _).ply (by decide)]
      change (s.loneRole.setMuted false).queueHeartbeat.ply.rxAlive = _
      rw [(State.queueHeartbeat_keeps _).ply (by decide), (State.setMuted_keeps _ _).ply (by decide)]
      change ((s.wr F.PLY_EPOCH_epoch (s.heardMost + 1)).setPlyState 1).ply.rxAlive = _
      rw [role]
      rfl
    · rw [(State.restoreRetained_in _).rd_eq (b := .ply) (by decide) (by decide), State.rd_wr_ne _ _ _ _ (by decide),
        (State.queueHeartbeat_in _).rd_eq (b := .ply) (by decide) (by decide), State.setMuted_rd _ _ (by decide) (by decide)]
      exact Eq.trans (by exact link) (State.rd_wr_ne _ _ _ _ (by decide))
  · rw [State.becomeLone_limit (Nat.not_lt.1 below)]
    constructor
    · rw [(State.row19_keeps _).ply (by decide)]
    · exact (State.row19_in _).rd_eq (b := .ply) (by decide) (by decide)

theorem State.decideRole_kept (s : State) : s.decideRole.ply.rxAlive = s.ply.rxAlive ∧
    s.decideRole.rd F.PLY_STATUS_link = s.rd F.PLY_STATUS_link := by
  unfold State.decideRole
  split
  · exact ⟨rfl, rfl⟩
  · split
    · exact s.beginJoin_kept.2
    · exact s.beginJoin_kept.2
    · split
      · exact s.becomeLone_kept
      · exact ⟨rfl, rfl⟩
    · exact ⟨rfl, rfl⟩

theorem State.decideRole_decides (starts : s.plyState = 0) (up : s.rd F.PLY_STATUS_link = 2) (power : s.rolePower = true) :
    (s.rd F.PLY_STATUS_partner_state = 0 → s.isHome = true → s.decideRole = s.becomeLone) ∧
    (s.rd F.PLY_STATUS_partner_state = 1 ∨ s.rd F.PLY_STATUS_partner_state = 2 → s.decideRole = s.beginJoin) := by
  unfold State.decideRole
  rw [if_neg (by simp [starts, State.plyUp, up, power])]
  refine ⟨fun partner home => ?_, fun partner => ?_⟩
  · rw [partner]
    exact if_pos home
  · rcases partner with h | h <;> simp only [h]

theorem plyLinkUp_decides (on : s.pd .ringply = true) : Does .plyLinkUp s (fun t =>
    t.rd F.PLY_STATUS_link = 2 ∧ t.ply.rxAlive = [] ∧ (s.plyState = 0 → s.rolePower = true →
      (s.rd F.PLY_STATUS_partner_state = 0 → s.isHome = true → LoneAbove s.heardMost (s.rd F.PLY_EPOCH_epoch) t) ∧
      (s.rd F.PLY_STATUS_partner_state = 1 ∨ s.rd F.PLY_STATUS_partner_state = 2 → Joining (s.rd F.PLY_JOIN_attempts) t))) := by
  have run : exec .plyLinkUp s = .next s.linkUp.decideRole := if_neg (by simp [on])
  have link : s.linkUp.rd F.PLY_STATUS_link = 2 := State.rd_wr_same s F.PLY_STATUS_link 2
  have alive : s.linkUp.ply.rxAlive = [] := rfl
  have domain (d : Pd) : s.linkUp.pd d = s.pd d := congrArg (bitOf · d.bit) (s.linkUp_rd (f := F.PWR_DOMAINS_on) (by decide))
  have power : s.linkUp.rolePower = s.rolePower := by
    unfold State.rolePower
    rw [domain, domain, domain, domain]
    rfl
  have home : s.linkUp.isHome = s.isHome := by
    unfold State.isHome State.on
    rw [s.linkUp_rd (by decide), s.linkUp_rd (by decide), s.linkUp_rd (by decide)]
  have state : s.linkUp.plyState = s.plyState := s.linkUp_rd (f := F.PLY_STATUS_state) (by decide)
  have partner := s.linkUp_rd (f := F.PLY_STATUS_partner_state) (by decide)
  have epoch := s.linkUp_rd (f := F.PLY_EPOCH_epoch) (by decide)
  have attempts := s.linkUp_rd (f := F.PLY_JOIN_attempts) (by decide)
  have heard : s.linkUp.heardMost = s.heardMost := rfl
  rw [← power, ← home, ← state, ← partner, ← epoch, ← attempts, ← heard]
  generalize s.linkUp = u at run link alive
  refine ⟨_, run, u.decideRole_kept.2.trans link, u.decideRole_kept.1.trans alive, fun starts powered => ⟨fun none_ home => ?_, fun some_ => ?_⟩⟩
  · rw [(State.decideRole_decides starts link powered).1 none_ home]
    exact State.becomeLone_lone starts
  · rw [(State.decideRole_decides starts link powered).2 some_]
    exact u.beginJoin_joins

theorem State.leaveTracking_link (s : State) (reason : Nat) :
    (s.leaveTracking reason).rd F.PLY_STATUS_link = s.rd F.PLY_STATUS_link := by
  unfold State.leaveTracking
  split
  · rfl
  · refine (State.plyEvt_kept _ (i := 3) (by decide) _ (by decide)).trans ((State.setPlyState_kept _ 5 _ (by decide)).trans ?_)
    exact (State.rd_wr_ne (s.wr F.PLY_REASON_untracked reason) F.PLY_STATUS_diverged F.PLY_STATUS_link 0 (by decide)).trans
      (State.rd_wr_ne _ _ _ _ (by decide))

theorem State.failJoin_link (s : State) (reason : Nat) : (s.failJoin reason).rd F.PLY_STATUS_link = s.rd F.PLY_STATUS_link := by
  unfold State.failJoin
  split
  · rfl
  · refine (State.plyEvt_kept _ (i := 3) (by decide) _ (by decide)).trans ((State.plyEvt_kept _ (i := 5) (by decide) _ (by decide)).trans
      ((State.setPlyState_kept _ 5 _ (by decide)).trans ?_))
    rw [State.rd_wr_ne _ _ _ _ (by decide), State.rd_wr_ne _ _ _ _ (by decide), State.rd_wr_ne _ _ _ _ (by decide)]

theorem State.loneIfLost_link (s : State) : s.loneIfLost.rd F.PLY_STATUS_link = s.rd F.PLY_STATUS_link := by
  unfold State.loneIfLost
  split
  · exact (State.plyEvt_kept _ (i := 2) (by decide) _ (by decide)).trans (State.setPlyState_kept _ 1 _ (by decide))
  · rfl

/-- The registers of a link that has gone down. -/
def State.plyDown (s : State) (training : Bool) : State :=
  (s.wr F.PLY_STATUS_link (bit training)).wr F.KEY_STATUS_partner_valid 0

theorem State.plyDown_rd (s : State) (training : Bool) {f : Fld} (apart : F.PLY_STATUS_link.key ≠ f.key ∧
    F.KEY_STATUS_partner_valid.key ≠ f.key) : (s.plyDown training).rd f = s.rd f :=
  (State.rd_wr_ne _ _ _ _ apart.2).trans (State.rd_wr_ne _ _ _ _ apart.1)

/-- What a standby with an active partner does as the link goes down (R281). -/
def State.lostActive (s : State) : State :=
  if s.isStandby && s.rd F.PLY_STATUS_tok_in == 2 then s.leaveTracking 3 else s

theorem plyLinkDown_judges (training : Bool) : Does (.plyLinkDown training) s (fun t =>
    t.rd F.PLY_STATUS_link = bit training ∧ t.rd F.KEY_STATUS_partner_valid = 0 ∧
      (s.plyState = 4 → s.rd F.PLY_STATUS_tok_in = 2 → LeftTracking t 3) ∧ (s.plyState = 3 → JoinFailed 6 t) ∧
      (s.plyState = 2 → s.rd F.PLY_STATUS_tok_in ≠ 2 → t.rd F.PLY_STATUS_state = 1)) := by
  have run : exec (.plyLinkDown training) s = .next (((s.plyDown training).lostActive.failJoin 6).loneIfLost) := rfl
  have link : (s.plyDown training).rd F.PLY_STATUS_link = bit training :=
    (State.rd_wr_ne _ _ _ _ (by decide)).trans ((State.rd_wr_same _ _ _).trans (by cases training <;> rfl))
  have valid : (s.plyDown training).rd F.KEY_STATUS_partner_valid = 0 := State.rd_wr_same _ _ _
  have state : (s.plyDown training).plyState = s.plyState := s.plyDown_rd training (f := F.PLY_STATUS_state) (by decide)
  have token := s.plyDown_rd training (f := F.PLY_STATUS_tok_in) (by decide)
  rw [← state, ← token]
  clear state token
  generalize s.plyDown training = u at run link valid
  have left : u.lostActive.rd F.PLY_STATUS_link = u.rd F.PLY_STATUS_link ∧ RegsIn [.hopper, .events, .online, .time, .ply, .brake, .viol, .skein] u u.lostActive := by
    unfold State.lostActive
    split
    · exact ⟨u.leaveTracking_link 3, u.leaveTracking_in 3⟩
    · exact ⟨rfl, .rfl⟩
  have rests (other : ¬(u.plyState = 4 ∧ u.rd F.PLY_STATUS_tok_in = 2)) : u.lostActive = u :=
    if_neg (by simpa [State.isStandby] using other)
  refine ⟨_, run, ?_, ?_, fun standby active => ?_, fun joins => ?_, fun active other => ?_⟩
  · rw [State.loneIfLost_link, State.failJoin_link, left.1, link]
  · rw [(State.loneIfLost_in _).rd_eq (b := .key) (by decide) (by decide),
      (State.failJoin_in _ _).rd_eq (b := .key) (by decide) (by decide), left.2.rd_eq (b := .key) (by decide) (by decide), valid]
  · rw [show u.lostActive = u.leaveTracking 3 from if_pos (by simp [State.isStandby, standby, active])]
    have leaves := State.leaveTracking_leaves standby (reason := 3) (by decide)
    rw [State.failJoin_rests (by exact fun h => absurd (leaves.1.symm.trans h) (by decide)),
      State.loneIfLost_rests (.inl (by exact fun h => absurd (leaves.1.symm.trans h) (by decide)))]
    exact leaves
  · rw [rests (by simp [joins])]
    have fails := State.failJoin_fails joins (reason := 6) (by decide)
    rw [State.loneIfLost_rests (.inl (by exact fun h => absurd (fails.1.1.symm.trans h) (by decide)))]
    exact fails
  · rw [rests (by simp [active]), State.failJoin_rests (by simp [active])]
    exact (State.loneIfLost_lone active (by rw [link]; cases training <;> decide) other).1

/-! The commands of the ply (R293, R298). -/

theorem plyCmdRejoin_refused (on : s.pd .ringply = true) (other : s.plyState ≠ 5) : Does .plyCmdRejoin s (fun t =>
    t.rd F.PLY_STATUS_cmd_refused = 1 ∧ RegsIn [.ply] s t ∧ OnlyRegs s t) :=
  ⟨_, (if_neg (by simp [on])).trans (if_neg (by simp [other])), refused_shows s⟩

theorem plyCmdLeave_leaves (on : s.pd .ringply = true) (standby : s.plyState = 4) :
    Does .plyCmdLeave s (fun t => LeftTracking t 11 ∧ t.rd F.PLY_STATUS_cmd_refused = 0) := by
  have run : exec .plyCmdLeave s = .next ((s.leaveTracking 11).wr F.PLY_STATUS_cmd_refused 0) :=
    (if_neg (by simp [on])).trans (if_pos (by simp [State.isStandby, standby]))
  exact ⟨_, run, (State.leaveTracking_leaves standby (by decide)).then (.wr 0 (by decide)) (.wr_ne .rfl 0 (by decide)), State.rd_wr_same _ _ _⟩

theorem plyCmdLeave_refused (on : s.pd .ringply = true) (other : s.plyState ≠ 4) : Does .plyCmdLeave s (fun t =>
    t.rd F.PLY_STATUS_cmd_refused = 1 ∧ RegsIn [.ply] s t ∧ OnlyRegs s t) :=
  ⟨_, (if_neg (by simp [on])).trans (if_neg (by simp [State.isStandby, other])), refused_shows s⟩

theorem plyCmdHandover_orders (on : s.pd .ringply = true) (active : s.plyState = 2) (key : s.key ≠ 0)
    (partner : s.rd F.PLY_STATUS_partner_state = 4) : Does .plyCmdHandover s (fun t =>
      t.ply.orders = s.ply.orders ++ [⟨true, 6, s.ply.nextSeq, s.orderBoundary, .handover, false⟩]) :=
  ⟨_, (if_neg (by simp [on])).trans (if_pos (by simp [State.handoverOk, active, key, State.partnerStandby, partner])),
    s.sendOrder_orders 6 s.orderBoundary 0 .handover⟩

theorem plyCmdHandover_asks (on : s.pd .ringply = true) (standby : s.plyState = 4) (up : s.rd F.PLY_STATUS_link = 2) :
    Does .plyCmdHandover s (fun t =>
      t.ply.orders = s.ply.orders ++ [⟨true, 6, s.ply.nextSeq, 0, .handover, false⟩]) :=
  ⟨_, (if_neg (by simp [on])).trans ((if_neg (by simp [State.handoverOk, standby])).trans
    (if_pos (by simp [State.isStandby, standby, State.plyUp, up]))), s.sendOrder_orders 6 0 0 .handover⟩

theorem plyCmdHandover_refused (on : s.pd .ringply = true) (other : s.plyState ≠ 2) (alone : s.plyState ≠ 4) :
    Does .plyCmdHandover s (fun t => t.rd F.PLY_STATUS_cmd_refused = 1 ∧ RegsIn [.ply] s t ∧ OnlyRegs s t) :=
  ⟨_, (if_neg (by simp [on])).trans ((if_neg (by simp [State.handoverOk, other])).trans
    (if_neg (by simp [State.isStandby, alone]))), refused_shows s⟩

theorem revert_orders (standby : s.plyState = 4) (home : s.rd F.PLY_STATUS_home = 1) (straps : s.rd F.PLY_STATUS_home_err = 0)
    (enabled : s.act F.PLY_CTRL_revert_en = 1)
    (held : ∃ w, s.ply.trackSince = some w ∧ w + s.act F.PLY_CTRL_revert_hold_s ≤ s.workSec) (calm : s.somethingArmed = false)
    (up : s.rd F.PLY_STATUS_link = 2) (fit : s.rd F.TURN_WDOG_tripped = 0) : Does .revert s (fun t =>
      t.ply.orders = s.ply.orders ++ [⟨true, 7, s.ply.nextSeq, s.orderBoundary, .revert, false⟩]) := by
  obtain ⟨w, since, due⟩ := held
  have run : exec .revert s = .next (s.sendOrder 7 s.orderBoundary 0 .revert) := by
    change execRevert s = _
    unfold execRevert
    rw [since]
    exact if_pos (by simp [State.isStandby, standby, State.on, home, straps, State.aon, enabled, due, calm, State.plyUp, up, fit])
  exact ⟨_, run, s.sendOrder_orders 7 s.orderBoundary 0 .revert⟩

theorem joinCaptureBoundary_captures {o : Order} (orders : s.ply.orders = [o]) (code : o.code = 8) (mine : o.mine = true)
    (acked : o.acked = true) (due : o.boundary ≤ s.turn.k) : Does .joinCaptureBoundary s (fun t => t.regs = s.regs ∧
      t.ply = { s.ply with orders := [], capture := some o.boundary, capTasks := [], capLoops := [], capSlots := [],
                           capForces := none, capSent := false, capWords := [], capOut := [] }) := by
  have isDue : (o.code == 8 && o.mine && o.acked && decide (o.boundary ≤ s.turn.k)) = true := by simp [code, mine, acked, due]
  have run : exec .joinCaptureBoundary s = .next { s with ply := { s.ply with
      orders := [], capture := some o.boundary, capTasks := [], capLoops := [], capSlots := [], capForces := none, capSent := false,
      capWords := [], capOut := [] } } := by
    change execJoinCaptureBoundary s = _
    unfold execJoinCaptureBoundary
    rw [orders]
    simp only [List.find?_cons, isDue, List.filter_cons, Bool.not_true, Bool.false_eq_true, if_false, List.filter_nil]
    rfl
  exact ⟨_, run, rfl, rfl⟩

end

end Sys2Proof.Machine

/-! PROOFS. O37: a planned handover or revert at its boundary, and the obligation (R279, R285, R293, R294). -/

namespace Sys2Proof.Machine

section
variable {s : State}

/-- Orders that have ended stay so when the module's commands end (R329). -/
theorem State.stopCommands_orders (none_ : s.ply.orders = []) : s.stopCommands.ply.orders = [] := by
  unfold State.stopCommands
  simp only
  rw [(State.hopState_keeps _).ply (by decide), none_]
  rfl

theorem PlyStays.orders {t : State} (h : PlyStays s t) : t.ply.orders = s.ply.orders := by rw [h]

/-- The state in which the roles swap: the order has ended. -/
def State.ordersEnded (s : State) : State := { s with ply := { s.ply with orders := [] } }

/-- Where the epoch can rise no more, the outputs are braked instead (R279). -/
def State.limited (s : State) : State := { s with brake := { s.brake with epochLimit := true } }

theorem plannedHandoverSwitch_runs {o : Order} (orders : s.ply.orders = [o]) (code : o.code = 6 ∨ o.code = 7) (acked : o.acked = true)
    (named : o.boundary ≠ 0) (due : o.boundary ≤ s.turn.k) : exec .plannedHandoverSwitch s =
      (if epochMax ≤ s.ordersEnded.epoch then ok s.ordersEnded.limited.row19
       else if s.ordersEnded.plyState == 2 then ok s.ordersEnded.giveRole
       else if s.ordersEnded.isStandby then ok (s.ordersEnded.takeRole (o.code == 7)) else ok s.ordersEnded) := by
  have isDue : ((o.code == 6 || o.code == 7) && o.acked && o.boundary != 0 && decide (o.boundary ≤ s.turn.k)) = true := by
    simpa [acked, named, due] using code
  change execPlannedHandoverSwitch s = _
  unfold execPlannedHandoverSwitch
  rw [orders]
  simp only [List.find?_cons, isDue, List.filter_cons, Bool.not_true, Bool.false_eq_true, if_false, List.filter_nil]
  rfl

theorem State.limited_brakes (s : State) : Kept plyFlds s s.limited.row19 ∧ bitOf (s.limited.row19.rd F.BRK_SRC_RAW_raw) 19 = true ∧
    s.limited.row19.ply = s.ply := by
  refine ⟨?_, State.row19_limit _ rfl, s.limited.row19_keeps.ply (by decide)⟩
  have kept : Kept plyFlds s.limited s.limited.row19 := .of_offPly s.limited.row19_in (by decide)
  exact fun f hf => kept f hf

/-! The old active (R285, R293). -/

/-- The old active as it gives the role up: cause shown, token low, mill bus muted, commands ended. -/
def State.gaveUp (s : State) : State :=
  let s := s.wr F.PLY_REASON_abdication 9
  let s : State := { s with ply := { s.ply with tokOut := false } }
  ((s.setMuted true).stopCommands).setPlyState 4

theorem State.gaveUp_shows (none_ : s.ply.orders = []) : s.gaveUp.rd F.PLY_STATUS_state = 4 ∧
    s.gaveUp.rd F.PLY_REASON_abdication = 9 ∧ s.gaveUp.rd F.PLY_STATUS_muted = 1 ∧ s.gaveUp.ply.tokOut = false ∧
    s.gaveUp.ply.orders = [] ∧ s.gaveUp.fw = s.fw ∧ s.gaveUp.pwr = s.pwr := by
  unfold State.gaveUp
  simp only
  generalize hu : ({ s.wr F.PLY_REASON_abdication 9 with ply := { (s.wr F.PLY_REASON_abdication 9).ply with tokOut := false } } : State) = u
  have reason : u.rd F.PLY_REASON_abdication = 9 := by
    rw [← hu]
    exact State.rd_wr_same s F.PLY_REASON_abdication 9
  have ply : u.ply.tokOut = false ∧ u.ply.orders = [] ∧ u.fw = s.fw ∧ u.pwr = s.pwr := by
    rw [← hu]
    exact ⟨rfl, none_, rfl, rfl⟩
  obtain ⟨token, orders, fw, pwr⟩ := ply
  have muted := u.setMuted_muted true
  have still := u.setMuted_rd true (f := F.PLY_REASON_abdication) (by decide) (by decide)
  have mutes := u.setMuted_keeps true
  have same := mutes.ply (by decide)
  have fwMuted := mutes.parts .fw (by decide)
  have pwrMuted := mutes.parts .pwr (by decide)
  clear hu mutes
  generalize u.setMuted true = v at *
  have stops := v.stopCommands_keeps
  have ended : v.stopCommands.ply.orders = [] := State.stopCommands_orders (by rw [same, orders])
  have low : v.stopCommands.ply.tokOut = false := by rw [State.stopCommands_tokOut, same, token]
  have regs := v.stopCommands_in
  have fwEnded := stops.parts .fw (by decide)
  have pwrEnded := stops.parts .pwr (by decide)
  clear stops
  generalize v.stopCommands = w at *
  have role := w.setPlyState_keeps 4
  have kept := w.setPlyState_kept 4
  have ply := w.setPlyState_ply 4
  refine ⟨w.setPlyState_state (by decide), ?_, ?_, ?_, ply.orders.trans ended, ?_, ?_⟩
  · rw [kept _ (by decide), regs.rd_eq (b := .ply) (by decide) (by decide), still, reason]
  · rw [kept _ (by decide), regs.rd_eq (b := .ply) (by decide) (by decide), muted]
    rfl
  · rw [State.setPlyState_tokOut, low]
  · exact Eq.trans (role.parts .fw (by decide)) (Eq.trans fwEnded (Eq.trans fwMuted fw))
  · exact Eq.trans (role.parts .pwr (by decide)) (Eq.trans pwrEnded (Eq.trans pwrMuted pwr))

theorem State.giveRole_of (none_ : s.ply.orders = []) (step : s.fw.step = 0) (waits : s.pwr.waitHandover = none) :
    s.giveRole = { s.gaveUp with pwr := { s.gaveUp.pwr with waitHandover := none } } := by
  obtain ⟨-, -, -, -, -, fw, pwr⟩ := State.gaveUp_shows none_
  have alone : ¬(s.gaveUp.fw.step = 2 ∨ s.gaveUp.fw.step = 3) := by
    rw [fw, step]
    decide
  have first : s.giveRole = (if s.gaveUp.fw.step = 2 ∨ s.gaveUp.fw.step = 3 then
      { s.gaveUp with fw := { s.gaveUp.fw with
        activateAt := some s.gaveUp.boundary2, falling := s.gaveUp.fw.step == 3, step := 0, keyFloor := 0 } }
      else s.gaveUp).carryOut := rfl
  rw [first, if_neg alone]
  unfold State.carryOut
  rw [pwr, waits]

theorem giveRole_shows (none_ : s.ply.orders = []) (step : s.fw.step = 0) (waits : s.pwr.waitHandover = none) :
    s.giveRole.rd F.PLY_STATUS_state = 4 ∧ s.giveRole.rd F.PLY_REASON_abdication = 9 ∧ s.giveRole.rd F.PLY_STATUS_muted = 1 ∧
      s.giveRole.ply.tokOut = false ∧ s.giveRole.ply.orders = [] := by
  obtain ⟨state, reason, muted, token, orders, -, -⟩ := State.gaveUp_shows none_
  rw [State.giveRole_of none_ step waits]
  exact ⟨state, reason, muted, token, orders⟩

/-! The new active (R279, R293). -/

/-- The new active as it takes the role, before what it shows of it. -/
def State.tookOver (s : State) : State :=
  let s := (s.wr F.PLY_EPOCH_epoch (s.epoch + 1)).matchSnaps.setPlyState 2
  { s with ply := { s.ply with tokOut := true, muteGap := true, diverged := [] } }

/-- The registers of a planned takeover (R291, R298). -/
def State.tookShown (s : State) (revert : Bool) : State :=
  let s := s.wr F.PLY_STATUS_diverged 0
  let s := s.wr F.PLY_REASON_takeover (if revert then 5 else 4)
  let s := (s.wr F.PLY_TAKEOVER_TURN_LO_turn (s.turn.k % 2 ^ 32)).wr F.PLY_TAKEOVER_TURN_HI_turn (s.turn.k >>> 32)
  if revert then s.plyEvt 7 else s

/-- The mill bus is unmuted at once where the old active's token is low by then (R293). -/
def State.tookUnmuted (s : State) : State :=
  if s.rd F.PLY_STATUS_tok_in == 1 then
    (({ s with ply := { s.ply with muteGap := false } } : State).setMuted false).queueHeartbeat
  else s

theorem State.takeRole_of (fit : s.rd F.TURN_WDOG_tripped = 0) (epoch : s.rd F.PLY_EPOCH_epoch < 0xFFFFFFF) (revert : Bool) :
    s.takeRole revert = (s.tookOver.tookShown revert).tookUnmuted := by
  have raised : s.raiseEpoch = (s.wr F.PLY_EPOCH_epoch (s.epoch + 1), true) :=
    if_neg (by simp only [State.epoch, epochMax]; omega)
  unfold State.takeRole
  rw [if_neg (by simp [State.on, fit]), raised]
  rfl

theorem State.tookOver_shows (epoch : s.rd F.PLY_EPOCH_epoch < 0xFFFFFFF) : s.tookOver.rd F.PLY_STATUS_state = 2 ∧
    s.tookOver.rd F.PLY_EPOCH_epoch = s.rd F.PLY_EPOCH_epoch + 1 ∧ s.tookOver.ply.tokOut = true ∧
    s.tookOver.ply.orders = s.ply.orders := by
  have state := State.setPlyState_state (s.wr F.PLY_EPOCH_epoch (s.epoch + 1)).matchSnaps (n := 2) (by decide)
  have kept := State.setPlyState_kept (s.wr F.PLY_EPOCH_epoch (s.epoch + 1)).matchSnaps 2 F.PLY_EPOCH_epoch (by decide)
  have ply := (State.setPlyState_ply (s.wr F.PLY_EPOCH_epoch (s.epoch + 1)).matchSnaps 2).orders
  refine ⟨state, Eq.trans (by exact kept) ?_, rfl, Eq.trans (by exact ply) ?_⟩
  · rw [(State.matchSnaps_in _).rd_eq (b := .ply) (by decide) (by decide), State.rd_wr_same]
    exact Nat.mod_eq_of_lt (show s.rd F.PLY_EPOCH_epoch + 1 < 2 ^ 28 by omega)
  · rw [(State.matchSnaps_keeps _).ply (by decide)]
    rfl

theorem State.tookShown_shows (s : State) (revert : Bool) :
    Kept [F.PLY_STATUS_state, F.PLY_EPOCH_epoch] s (s.tookShown revert) ∧ (s.tookShown revert).ply = s.ply ∧
    (s.tookShown revert).rd F.PLY_REASON_takeover = (if revert then 5 else 4) := by
  have apart : ∀ f ∈ [F.PLY_STATUS_state, F.PLY_EPOCH_epoch], F.PLY_STATUS_diverged.key ≠ f.key ∧ F.PLY_REASON_takeover.key ≠ f.key ∧
      F.PLY_TAKEOVER_TURN_LO_turn.key ≠ f.key ∧ F.PLY_TAKEOVER_TURN_HI_turn.key ≠ f.key ∧ f ∈ plyFlds := by decide
  unfold State.tookShown
  extract_lets s1 s2 s3
  have told : Kept plyFlds s3 (if revert then s3.plyEvt 7 else s3) ∧ (if revert then s3.plyEvt 7 else s3).ply = s3.ply := by
    split
    · exact ⟨s3.plyEvt_kept (by decide), (s3.plyEvt_keeps 7).ply (by decide)⟩
    · exact ⟨.rfl, rfl⟩
  refine ⟨fun f hf => ?_, told.2, ?_⟩
  · obtain ⟨diverged, reason, low, high, listed⟩ := apart f hf
    rw [told.1 f listed]
    exact (State.rd_wr_ne (s2.wr F.PLY_TAKEOVER_TURN_LO_turn _) _ _ _ high).trans ((State.rd_wr_ne s2 _ _ _ low).trans
      ((State.rd_wr_ne s1 _ _ _ reason).trans (State.rd_wr_ne s _ _ _ diverged)))
  · rw [told.1 _ (by decide)]
    refine (State.rd_wr_ne (s2.wr F.PLY_TAKEOVER_TURN_LO_turn _) F.PLY_TAKEOVER_TURN_HI_turn F.PLY_REASON_takeover _ (by decide)).trans
      ((State.rd_wr_ne s2 F.PLY_TAKEOVER_TURN_LO_turn F.PLY_REASON_takeover _ (by decide)).trans ((State.rd_wr_same _ _ _).trans ?_))
    cases revert <;> rfl

theorem State.tookUnmuted_shows (s : State) :
    Kept [F.PLY_STATUS_state, F.PLY_EPOCH_epoch, F.PLY_REASON_takeover] s s.tookUnmuted ∧
    s.tookUnmuted.ply.tokOut = s.ply.tokOut ∧ s.tookUnmuted.ply.orders = s.ply.orders := by
  have apart : ∀ f ∈ [F.PLY_STATUS_state, F.PLY_EPOCH_epoch, F.PLY_REASON_takeover], f.In .ply ∧
      F.PLY_STATUS_muted.key ≠ f.key := by decide
  unfold State.tookUnmuted
  split
  · refine ⟨fun f hf => ?_, ?_, ?_⟩
    · rw [(State.queueHeartbeat_in _).rd_eq (apart f hf).1 (by decide), State.setMuted_rd _ _ (apart f hf).1 (apart f hf).2]
      rfl
    · rw [(State.queueHeartbeat_keeps _).ply (by decide), (State.setMuted_keeps _ _).ply (by decide)]
    · rw [(State.queueHeartbeat_keeps _).ply (by decide), (State.setMuted_keeps _ _).ply (by decide)]
  · exact ⟨.rfl, rfl, rfl⟩

theorem takeRole_shows (fit : s.rd F.TURN_WDOG_tripped = 0) (epoch : s.rd F.PLY_EPOCH_epoch < 0xFFFFFFF) (revert : Bool) :
    (s.takeRole revert).rd F.PLY_STATUS_state = 2 ∧ (s.takeRole revert).rd F.PLY_EPOCH_epoch = s.rd F.PLY_EPOCH_epoch + 1 ∧
      (s.takeRole revert).ply.tokOut = true ∧ (s.takeRole revert).rd F.PLY_REASON_takeover = (if revert then 5 else 4) ∧
      (s.takeRole revert).ply.orders = s.ply.orders := by
  rw [State.takeRole_of fit epoch]
  obtain ⟨state, raised, token, orders⟩ := State.tookOver_shows epoch
  generalize s.tookOver = u at state raised token orders
  obtain ⟨kept, ply, reason⟩ := u.tookShown_shows revert
  generalize u.tookShown revert = v at kept ply reason
  obtain ⟨last, out, ended⟩ := v.tookUnmuted_shows
  refine ⟨?_, ?_, ?_, ?_, ?_⟩
  · rw [last _ (by decide), kept _ (by decide), state]
  · rw [last _ (by decide), kept _ (by decide), raised]
  · rw [out, ply, token]
  · rw [last _ (by decide), reason]
  · rw [ended, ply, orders]

end

section
variable {s : State} {o : Order} (orders : s.ply.orders = [o]) (code : o.code = 6 ∨ o.code = 7) (acked : o.acked = true)
  (named : o.boundary ≠ 0) (due : o.boundary ≤ s.turn.k)
include orders code acked named due

theorem plannedHandoverSwitch_brakes (limit : 0xFFFFFFF ≤ s.rd F.PLY_EPOCH_epoch) : Does .plannedHandoverSwitch s (fun t =>
    t.rd F.PLY_STATUS_state = s.rd F.PLY_STATUS_state ∧ t.rd F.PLY_EPOCH_epoch = s.rd F.PLY_EPOCH_epoch ∧
      bitOf (t.rd F.BRK_SRC_RAW_raw) 19 = true ∧ t.ply.orders = []) := by
  have run := (plannedHandoverSwitch_runs orders code acked named due).trans (if_pos limit)
  obtain ⟨kept, raw, ply⟩ := s.ordersEnded.limited_brakes
  refine ⟨_, run, kept _ (by decide), kept _ (by decide), raw, ?_⟩
  rw [ply]
  rfl

theorem plannedHandoverSwitch_gives (epoch : s.rd F.PLY_EPOCH_epoch < 0xFFFFFFF) (active : s.plyState = 2) (step : s.fw.step = 0)
    (waits : s.pwr.waitHandover = none) : Does .plannedHandoverSwitch s (fun t =>
      t.rd F.PLY_STATUS_state = 4 ∧ t.rd F.PLY_REASON_abdication = 9 ∧ t.rd F.PLY_STATUS_muted = 1 ∧
        t.ply.tokOut = false ∧ t.ply.orders = []) := by
  have run := (plannedHandoverSwitch_runs orders code acked named due).trans
    ((if_neg (by exact Nat.not_le.2 epoch)).trans (if_pos (beq_iff_eq.2 (by exact active))))
  exact ⟨_, run, giveRole_shows (s := s.ordersEnded) rfl step waits⟩

theorem plannedHandoverSwitch_takes (standby : s.plyState = 4) (epoch : s.rd F.PLY_EPOCH_epoch < 0xFFFFFFF)
    (fit : s.rd F.TURN_WDOG_tripped = 0) : Does .plannedHandoverSwitch s (fun t =>
      t.rd F.PLY_STATUS_state = 2 ∧ t.rd F.PLY_EPOCH_epoch = s.rd F.PLY_EPOCH_epoch + 1 ∧ t.ply.tokOut = true ∧
        t.rd F.PLY_REASON_takeover = (if o.code = 7 then 5 else 4) ∧ t.ply.orders = []) := by
  have state : s.ordersEnded.plyState = 4 := standby
  have run := (plannedHandoverSwitch_runs orders code acked named due).trans
    ((if_neg (by exact Nat.not_le.2 epoch)).trans ((if_neg (by simp [state])).trans (if_pos (beq_iff_eq.2 state))))
  have shows_ := takeRole_shows (s := s.ordersEnded) fit epoch (o.code == 7)
  simp only [beq_iff_eq] at shows_
  exact ⟨_, run, shows_⟩

end

/-- Settles O37: each event of the ply is followed into the role that it leads to, or to the refusal of the command. -/
theorem rolesAndJoins : Obligations.RolesAndJoins := by
  intro s heard lone joining failed orders refused
  refine ⟨startingTimeout_lone, plyLinkUp_decides, plyLinkDown_judges, autoRejoin_joins, fun on => ⟨plyCmdRejoin_joins on,
    plyCmdRejoin_refused on, plyCmdLeave_leaves on, plyCmdLeave_refused on, plyCmdHandover_orders on, plyCmdHandover_asks on,
    plyCmdHandover_refused on⟩, fun o listed code acked named due => ⟨plannedHandoverSwitch_brakes listed code acked named due,
    plannedHandoverSwitch_gives listed code acked named due, plannedHandoverSwitch_takes listed code acked named due⟩,
    revert_orders, fun o listed code mine acked due => joinCaptureBoundary_captures listed code mine acked due, joinTimeout_fails,
    fun joins phase => ⟨replayCaughtUp_compares joins phase, replayCaughtUp_waits, replayBehind_fails joins phase,
    replayBehind_goes phase⟩, fun d listed standby late => divergedTimeout_leaves listed standby late⟩

end Sys2Proof.Machine

/-! PROOFS. What a module sends to its partner by itself: DIGEST, HEALTH and STATE (R280, R282, R284). -/

namespace Sys2Proof.Machine

/-! Numbers inside a payload. -/

theorem byteAt_append {a : Bytes} {l : Nat} (length : a.length = l) (b : Bytes) (j : Nat) :
    byteAt (a ++ b) (l + j) = byteAt b j := by
  subst length
  simp [byteAt, List.getElem?_append_right]

theorem byteAt_beBytes (n : Nat) (b : Bytes) : byteAt (beBytes 1 n ++ b) 0 = n % 256 := by
  simp [byteAt, beBytes]

theorem beAt_append {a : Bytes} {l : Nat} (length : a.length = l) (b : Bytes) (j len : Nat) :
    beAt (a ++ b) (l + j) len = beAt b j len := by
  subst length
  rw [beAt, beAt, slice, slice, List.drop_length_add_append]

theorem beAt_beBytes (len n : Nat) (b : Bytes) : beAt (beBytes len n ++ b) 0 len = n % 256 ^ len := by
  rw [beAt, slice, List.drop_zero, List.take_left' (beBytes_length len n), beBytes_length, Nat.sub_self]
  simpa using beNat_beBytes len n

section
variable {s : State}

/-! The digest of a release. -/

theorem State.sendPly_rel (s : State) (type turn : Nat) (payload : Bytes) : (s.sendPly type turn payload).ply.rel = s.ply.rel := by
  unfold State.sendPly
  split <;> rfl

theorem State.digestCompute_sends {e : Nat × RelRec} (active : s.plyState = 2) (up : s.rd F.PLY_STATUS_link = 2)
    (found : s.ply.rel.find? (fun e => e.2.released && s.releaseWhole e.1) = some e) :
    Does .digestCompute s (fun t => t.regs = s.regs ∧ SMap.find t.ply.rel e.1 = none ∧ ∃ alive, t.out = s.out ++
      [.ply (plyFrame 0x44 true false alive e.1 (digestBytes (relDigest e.2)))]) := by
  let u : State := { s with ply := { s.ply with rel := SMap.del s.ply.rel e.1 } }
  have role : u.plyState = 2 := active
  have run : execDigestCompute s = ok (u.sendPly 0x44 e.1 (digestBytes (relDigest e.2))) := by
    unfold execDigestCompute
    rw [found]
    exact if_pos (beq_iff_eq.2 role)
  obtain ⟨regs, alive, sent⟩ := State.sendPly_appends (s := u) (beq_iff_eq.2 up) 0x44 e.1 (digestBytes (relDigest e.2))
  have isActive : u.isActive = true := by simp [State.isActive, role]
  have standby : u.isStandby = false := by simp [State.isStandby, role]
  rw [isActive, standby] at sent
  refine ⟨_, run, regs, ?_, alive, sent⟩
  rw [State.sendPly_rel]
  exact SMap.find_del_same _ _

/-! Health. -/

/-- The first eight bytes of a HEALTH payload: state, rung, key, flags and fault (R284). -/
def State.healthHead (s : State) : Bytes :=
  beBytes 1 s.plyState ++ (beBytes 1 (s.rd F.PWR_STATUS_rung) ++ (beBytes 1 (s.rd F.KEY_STATUS_local) ++
    (beBytes 1 (bit s.host.millerUp + 2 * s.rd F.PLY_STATUS_home + 4 * s.rd F.TURN_WDOG_tripped +
      8 * s.rd F.TIME_STATUS_refclk_lost + 16 * s.rd F.PLY_STATUS_home_err) ++
    beBytes 4 (s.rd F.FAULT_RECORD_kind + 4 * s.rd F.FAULT_RECORD_unit_class + 16 * s.rd F.FAULT_RECORD_unit))))

/-- What stands between the slack and the mismatches of a HEALTH payload, with the measured junction temperature (R284). -/
def State.healthMiddle (s : State) (tj : Nat) : Bytes :=
  beBytes 2 (min s.turn.healthSlips 0xFFFF) ++ (beBytes 2 tj ++ (beBytes 2 (s.rd F.VCORE_STATUS_vcore_mv) ++
    (beBytes 1 (s.rd F.PLY_REASON_untracked + 16 * s.rd F.PLY_REASON_takeover) ++
    (beBytes 1 (min (s.ply.rejoins.filter (fun j => decide (s.workSec < j + 600))).length 255) ++ beBytes 4 s.ply.resumedLoops))))

/-- The payload of a HEALTH frame (R284). -/
def State.healthBody (s : State) (tj : Nat) : Bytes :=
  s.healthHead ++ (beBytes 4 (s.turn.healthSlack.getD 0xFFFFFFFF) ++ (s.healthMiddle tj ++
    (beBytes 4 (s.rd F.PLY_COUNTS_mismatches) ++ List.replicate 4 0)))

/-- A HEALTH frame has gone out: what it told since the last one starts again. -/
def State.healthTold (s : State) : State :=
  { s with turn := { s.turn with healthSlips := 0, healthSlack := none }, fw := { s.fw with healths := s.fw.healths + 1 } }

theorem execHealthSend_eq (powered : s.pd .ringply = true) :
    execHealthSend s = ok (s.free.2.sendPly 0x4A s.turn.k (s.healthBody s.free.1)).healthTold := by
  unfold execHealthSend
  rw [if_neg (by simp [powered])]
  simp only [State.healthBody, State.healthHead, State.healthMiddle, List.append_assoc]
  rfl

theorem State.healthHead_length (s : State) : s.healthHead.length = 8 := by simp [State.healthHead, beBytes_length]

theorem State.healthMiddle_length (s : State) (tj : Nat) : (s.healthMiddle tj).length = 12 := by
  simp [State.healthMiddle, beBytes_length]

theorem State.healthBody_length (tj : Nat) : (s.healthBody tj).length = 32 := by
  simp [State.healthBody, State.healthHead_length, State.healthMiddle_length, beBytes_length]

/-- Where a HEALTH payload shows the state, the key, the miller, the slack and the mismatches. -/
theorem State.healthBody_shows (tj : Nat) : byteAt (s.healthBody tj) 0 = s.plyState % 256 ∧
    byteAt (s.healthBody tj) 2 = s.rd F.KEY_STATUS_local % 256 ∧ byteAt (s.healthBody tj) 3 % 2 = bit s.host.millerUp ∧
    beAt (s.healthBody tj) 8 4 = (s.turn.healthSlack.getD 0xFFFFFFFF) % 2 ^ 32 ∧
    beAt (s.healthBody tj) 24 4 = s.rd F.PLY_COUNTS_mismatches % 2 ^ 32 := by
  have skip (n : Nat) (b : Bytes) (j : Nat) : byteAt (beBytes 1 n ++ b) (1 + j) = byteAt b j :=
    byteAt_append (beBytes_length 1 n) b j
  have slack (n : Nat) (b : Bytes) : beAt (beBytes 4 n ++ b) 0 4 = n % 2 ^ 32 := beAt_beBytes 4 n b
  unfold State.healthBody
  refine ⟨?_, ?_, ?_, ?_, ?_⟩
  · exact byteAt_beBytes _ _
  · simp only [State.healthHead, List.append_assoc]
    exact (skip _ _ 1).trans ((skip _ _ 0).trans (byteAt_beBytes _ _))
  · simp only [State.healthHead, List.append_assoc]
    rw [show byteAt _ 3 = _ from (skip _ _ 2).trans ((skip _ _ 1).trans ((skip _ _ 0).trans (byteAt_beBytes _ _)))]
    have small : bit s.host.millerUp < 2 := by cases s.host.millerUp <;> decide
    omega
  · exact (beAt_append s.healthHead_length _ 0 4).trans (slack _ _)
  · exact (beAt_append s.healthHead_length _ 16 4).trans ((beAt_append (beBytes_length 4 _) _ 12 4).trans
      ((beAt_append (s.healthMiddle_length tj) _ 0 4).trans (slack _ _)))

/-- HEALTH tells the module's state, key, miller, slack and mismatches; what it told since the last one starts again. -/
theorem State.healthSend_sends (powered : s.pd .ringply = true) (up : s.rd F.PLY_STATUS_link = 2) :
    Does .healthSend s (fun t => t.regs = s.regs ∧ t.turn = { s.turn with healthSlips := 0, healthSlack := none } ∧
      t.fw = { s.fw with healths := s.fw.healths + 1 } ∧
      ∃ body : Bytes, body.length = 32 ∧ byteAt body 0 = s.plyState % 256 ∧ byteAt body 2 = s.rd F.KEY_STATUS_local % 256 ∧
        byteAt body 3 % 2 = bit s.host.millerUp ∧ beAt body 8 4 = (s.turn.healthSlack.getD 0xFFFFFFFF) % 2 ^ 32 ∧
        beAt body 24 4 = s.rd F.PLY_COUNTS_mismatches % 2 ^ 32 ∧
        ∃ alive, t.out = s.out ++ [.ply (plyFrame 0x4A s.isActive s.isStandby alive s.turn.k body)]) := by
  obtain ⟨txAlive, out, sends⟩ := State.sendPly_sends s.free.2 0x4A s.turn.k (s.healthBody s.free.1)
  obtain ⟨regs, alive, sent⟩ := State.sendPly_appends (s := s.free.2) (beq_iff_eq.2 up) 0x4A s.turn.k (s.healthBody s.free.1)
  obtain ⟨state, key, miller, least, mismatches⟩ := s.healthBody_shows s.free.1
  refine ⟨_, execHealthSend_eq powered, regs, ?_, ?_, s.healthBody s.free.1, State.healthBody_length _, state, key, miller,
    least, mismatches, alive, sent⟩
  · rw [sends]
    rfl
  · rw [sends]
    rfl

/-! A chunk of an item. -/

theorem State.stateSend_sends {item : BitVec 16} {first : BitVec 32} {count : Fin 511} (active : s.plyState = 2)
    (up : s.rd F.PLY_STATUS_link = 2) (alone : s.ply.capture = none) (paid : s.ply.owed = [])
    (some : s.itemWords s.task s.loop item.toNat first.toNat count.val ≠ []) :
    Does (.stateSend item first count) s (fun t => t.regs = s.regs ∧ ∃ alive, t.out = s.out ++
      [.ply (plyFrame 0x4B s.isActive s.isStandby alive s.turn.k (beBytes 2 item.toNat ++
        beBytes 8 (itemTurn s.task s.loop item.toNat) ++ beBytes 4 first.toNat ++
        beBytes 2 (s.itemWords s.task s.loop item.toNat first.toNat count.val).length ++
        (s.itemWords s.task s.loop item.toNat first.toNat count.val).flatMap (beBytes 8)))]) := by
  have free : s.capturing = none := by
    unfold State.capturing
    rw [alone, ite_self]
  have tasks : s.handTask = s.task := by
    funext t
    simp [State.handTask, free]
  have loops : s.handLoop = s.loop := by
    funext l
    simp [State.handLoop, free]
  have none : s.sendCapture = s := if_pos (by simp [free])
  have turn : s.chunkTurn item.toNat = true := by simp [State.chunkTurn, paid]
  have run : execStateSend item first count s = ok ((s.sendState item.toNat (itemTurn s.task s.loop item.toNat) first.toNat
      (s.itemWords s.task s.loop item.toNat first.toNat count.val)).chunkSent item.toNat first.toNat
      (s.itemWords s.task s.loop item.toNat first.toNat count.val).length) := by
    unfold execStateSend
    rw [if_neg (by simp [active, State.plyUp, up, free])]
    simp only [none, tasks, loops]
    rw [if_neg (by simp [some, turn])]
  obtain ⟨regs, alive, sent⟩ := State.sendPly_appends (s := s) (beq_iff_eq.2 up) 0x4B s.turn.k (beBytes 2 item.toNat ++
    beBytes 8 (itemTurn s.task s.loop item.toNat) ++ beBytes 4 first.toNat ++
    beBytes 2 (s.itemWords s.task s.loop item.toNat first.toNat count.val).length ++
    (s.itemWords s.task s.loop item.toNat first.toNat count.val).flatMap (beBytes 8))
  exact ⟨_, run, regs, alive, sent⟩

end

end Sys2Proof.Machine

/-! PROOFS. A partner's STATE chunk and its JOIN frame are received (R282, R295). -/

namespace Sys2Proof.Machine

section
variable {s : State}

/-! Chunks. -/

/-- A chunk of a tracking standby, while no item is diverged: one of another commit, or an equal one, has no effect. -/
theorem State.stateChunk_judges {item commit first : Nat} {ws : List Nat} (standby : s.plyState = 4)
    (fits : first + ws.length ≤ s.itemLen item) (clean : s.ply.diverged = []) : s.stateChunk item commit first ws =
      if itemTurn s.task s.loop item = commit ∧ s.itemWords s.task s.loop item first ws.length ≠ ws then s.leaveTracking 8
      else s := by
  have awaited : s.wantsChunk item first ws.length = false := by simp [State.wantsChunk, clean]
  unfold State.stateChunk State.checkChunk
  rw [if_neg (by omega), if_pos (by simp [State.isStandby, standby]), awaited]
  simp only [Bool.false_eq_true, if_false, ite_not]
  split
  · next same =>
    split
    · next equal => simp [equal]
    · next differ => simp [same, differ]
  · next other => simp [other]

theorem State.stateReceived_judges {h : PlyHdr} {item : BitVec 16} {commit : BitVec 64} {first : BitVec 32}
    {words : List (BitVec 64)} (taken : Taken s 0x4B h) (standby : s.plyState = 4) (task : item.toNat < 16)
    (fits : first.toNat + words.length ≤ s.itemLen item.toNat) (clean : s.ply.diverged = []) :
    Does (.stateReceived h item commit first words) s (fun t => t.tasks = s.tasks ∧ t.loops = s.loops ∧
      (itemTurn s.task s.loop item.toNat ≠ commit.toNat ∨
        s.itemWords s.task s.loop item.toNat first.toNat words.length = words.map BitVec.toNat → t.regs = s.regs) ∧
      (itemTurn s.task s.loop item.toNat = commit.toNat →
        s.itemWords s.task s.loop item.toNat first.toNat words.length ≠ words.map BitVec.toNat → LeftTracking t 8)) := by
  let u := s.plyTook 0x4B h
  have run : execStateReceived h item commit first words s =
      ok (u.stateChunk item.toNat commit.toNat first.toNat (words.map BitVec.toNat)) := by
    unfold execStateReceived
    rw [taken.takes]
    exact if_pos (by simp [task])
  have judged : u.stateChunk item.toNat commit.toNat first.toNat (words.map BitVec.toNat) = _ :=
    State.stateChunk_judges (s := u) standby (by rwa [List.length_map]) clean
  rw [List.length_map] at judged
  rw [judged] at run
  refine ⟨_, run, ?_⟩
  split
  · next differs =>
    obtain ⟨same, differ⟩ := differs
    have kept := u.leaveTracking_keeps 8
    refine ⟨kept.parts .tasks (by decide), kept.parts .loops (by decide), ?_, fun _ _ =>
      State.leaveTracking_leaves (s := u) standby (by decide)⟩
    rintro (other | equal)
    · exact absurd same other
    · exact absurd equal differ
  · next agrees => exact ⟨rfl, rfl, fun _ => rfl, fun same differ => absurd ⟨same, differ⟩ agrees⟩

/-! A JOIN frame. -/

/-- A JOIN frame is taken: it shows the partner's identity and whether the straps agree (R267). -/
def State.greeted (s : State) (h : PlyHdr) (j : PlyJoin) : State :=
  (((s.plyTook 0x4C h).wr F.PLY_PARTNER_ID_LO_ident (j.ident.toNat % 2 ^ 32)).wr F.PLY_PARTNER_ID_HI_ident
    (j.ident.toNat >>> 32)).wrb F.PLY_STATUS_home_err (bitOf j.straps.toNat 1 == s.on F.PLY_STATUS_home)

/-- The identity of the partner is shown. -/
def Named (j : PlyJoin) (t : State) : Prop := t.rd F.PLY_PARTNER_ID_LO_ident = j.ident.toNat % 2 ^ 32 ∧
  t.rd F.PLY_PARTNER_ID_HI_ident = j.ident.toNat / 2 ^ 32 % 2 ^ 32

/-- The two fields that show it. -/
def nameFlds : List Fld := [F.PLY_PARTNER_ID_LO_ident, F.PLY_PARTNER_ID_HI_ident]

theorem Named.kept {j : PlyJoin} {t : State} (named : Named j s) (same : Kept nameFlds s t) : Named j t :=
  ⟨(same _ (by decide)).trans named.1, (same _ (by decide)).trans named.2⟩

variable {h : PlyHdr} {j : PlyJoin}

theorem State.greeted_rd {f : Fld} (lo : F.PLY_PARTNER_ID_LO_ident.key ≠ f.key) (hi : F.PLY_PARTNER_ID_HI_ident.key ≠ f.key)
    (home : F.PLY_STATUS_home_err.key ≠ f.key) : (s.greeted h j).rd f = s.rd f :=
  (State.rd_wrb_ne _ _ _ _ home).trans ((State.rd_wr_ne _ _ _ _ hi).trans (State.rd_wr_ne _ _ _ _ lo))

theorem State.greeted_plyState : (s.greeted h j).plyState = s.plyState :=
  State.greeted_rd (f := F.PLY_STATUS_state) (by decide) (by decide) (by decide)

theorem State.greeted_phase : (s.greeted h j).rd F.PLY_JOIN_phase = s.rd F.PLY_JOIN_phase :=
  State.greeted_rd (by decide) (by decide) (by decide)

theorem State.greeted_named : Named j (s.greeted h j) := by
  refine ⟨?_, ?_⟩
  · refine (State.rd_wrb_ne _ _ _ _ (by decide)).trans ((State.rd_wr_ne _ _ _ _ (by decide)).trans
      ((State.rd_wr_same _ _ _).trans (Nat.mod_eq_of_lt (Nat.mod_lt _ (by decide)))))
  · refine (State.rd_wrb_ne _ _ _ _ (by decide)).trans ((State.rd_wr_same _ _ _).trans ?_)
    rw [Nat.shiftRight_eq_div_pow]
    rfl

theorem State.greeted_in : RegsIn [.ply] s (s.greeted h j) := by
  have took : RegsIn [.ply] s (s.plyTook 0x4C h) := fun _ _ _ => rfl
  have written {f : Fld} (v : Nat) {u : State} (same : RegsIn [.ply] s u) (place : f.In .ply) : RegsIn [.ply] s (u.wr f v) :=
    RegsIn.wr f v .ply same place.1 (by decide) place.2.1 place.2.2
  exact written _ (written _ (written _ took (by decide)) (by decide)) (by decide)

theorem execPlyJoinReceived_eq (taken : Taken s 0x4C h) : execPlyJoinReceived h j s =
    if (s.greeted h j).isActive then ok (if j.joining then (s.greeted h j).serveJoin j else s.greeted h j)
    else if (s.greeted h j).plyState == 3 then ok (((s.greeted h j).identify j).advanceJoin j)
    else ok (s.greeted h j) := by
  have home : ((((s.plyTook 0x4C h).wr F.PLY_PARTNER_ID_LO_ident (j.ident.toNat % 2 ^ 32)).wr F.PLY_PARTNER_ID_HI_ident
      (j.ident.toNat >>> 32)).on F.PLY_STATUS_home) = s.on F.PLY_STATUS_home := by
    unfold State.on
    exact congrArg (· == 1) ((State.rd_wr_ne _ F.PLY_PARTNER_ID_HI_ident F.PLY_STATUS_home _ (by decide)).trans
      (State.rd_wr_ne _ F.PLY_PARTNER_ID_LO_ident F.PLY_STATUS_home _ (by decide)))
  unfold execPlyJoinReceived
  rw [taken.takes]
  simp only [home]
  rfl

/-- A module that neither is active nor joins only shows who its partner is. -/
theorem plyJoinReceived_greets (taken : Taken s 0x4C h) (role : s.plyState ∈ [0, 4, 5, 6]) :
    Does (.plyJoinReceived h j) s (fun t => Named j t ∧ RegsIn [.ply] s t ∧ t.image = s.image) := by
  have place : (s.greeted h j).isActive = false ∧ ((s.greeted h j).plyState == 3) = false := by
    unfold State.isActive
    rw [State.greeted_plyState]
    revert role
    generalize s.plyState = p
    simp only [List.mem_cons, List.not_mem_nil, or_false]
    rintro (rfl | rfl | rfl | rfl) <;> decide
  refine ⟨s.greeted h j, (execPlyJoinReceived_eq taken).trans ?_, State.greeted_named, State.greeted_in, rfl⟩
  rw [place.1, place.2]
  rfl

/-- A joining module goes on with what it is handed. -/
theorem plyJoinReceived_joins (taken : Taken s 0x4C h) (joins : s.plyState = 3) {P : State → Prop}
    (holds : P (((s.greeted h j).identify j).advanceJoin j)) : Does (.plyJoinReceived h j) s P := by
  have role : (s.greeted h j).plyState = 3 := State.greeted_plyState.trans joins
  refine ⟨_, (execPlyJoinReceived_eq taken).trans ?_, holds⟩
  rw [if_neg (by simp [State.isActive, role]), if_pos (by simp [role])]
  rfl

end

end Sys2Proof.Machine

/-! PROOFS. An active module meets a joining partner and hands over configuration and time (R277, R295). -/

namespace Sys2Proof.Machine

/-! A row of the brake matrix does not move time. -/

theorem State.stampWords_time (s : State) (f : Nat → Fld) (w : Nat) : (s.stampWords f w).time = s.time :=
  List.foldlRecOn (motive := fun t : State => t.time = s.time) _ _ (Eq.refl _) fun _ h _ _ => h

theorem State.stampRow_time (s : State) (r : Nat) : (s.stampRow r).time = s.time := by
  unfold State.stampRow
  extract_lets u w v
  have first : v.time = s.time := by
    change (ite _ _ _ : State).time = _
    split
    · rfl
    · exact State.stampWords_time _ _ w
  clear_value v
  split
  · rfl
  · exact (State.stampWords_time _ _ w).trans first

theorem State.setRow_time (s : State) (r : Nat) (b : Bool) : (s.setRow r b).time = s.time := by
  unfold State.setRow
  extract_lets raw u v old w x y
  have matrix (z : State) : z.evalMatrix.time = z.time := z.evalMatrix_keeps.parts .time (by decide)
  have event (z : State) (i : Nat) : (z.brkEvt i).time = z.time := (z.brkEvt_keeps i).parts .time (by decide)
  have latched : w.time = v.time := by
    change (ite _ _ _ : State).time = _
    split <;> rfl
  have traced : x.time = s.time :=
    Eq.trans ((w.traceBrake_keeps r).parts .time (by decide)) (Eq.trans latched (u.stampRow_time r))
  have noted : y.time = s.time := (event _ 0).trans ((matrix x).trans traced)
  split
  · rfl
  · split
    · split
      · exact (event y 2).trans noted
      · exact noted
    · exact matrix u

/-! What an active module hands over. -/

/-- What s hands over, and what it judges a partner by, are the same in t. -/
structure HandsOver (s t : State) : Prop where
  hop : t.hop = s.hop
  progs : t.progs = s.progs
  image : t.image = s.image
  ring : t.ring = s.ring
  tasks : t.tasks = s.tasks
  turn : t.turn = s.turn
  time : t.time = s.time
  fw : t.fw = s.fw
  shown : t.rd F.HOPPER_ACTIVE_SEAL_seal = s.rd F.HOPPER_ACTIVE_SEAL_seal
  staged : ∀ p < 16, t.rd (F.PROG_STATUS_staged p) = s.rd (F.PROG_STATUS_staged p)
  key : t.key = s.key
  epoch : t.epoch = s.epoch
  slot : t.fwSlot = s.fwSlot

theorem SMap.find_filter_congr {α : Type} (m : SMap α) {p q : Nat × α → Bool} {x : Nat} (same : ∀ v, p (x, v) = q (x, v)) :
    SMap.find (m.filter p) x = SMap.find (m.filter q) x := by
  induction m with
  | nil => rfl
  | cons e m ih =>
    obtain ⟨k, v⟩ := e
    by_cases hk : k = x
    · subst hk
      simp only [List.filter_cons, same v]
      split
      · simp [SMap.find]
      · exact ih
    · have skip (r : Nat × α → Bool) : SMap.find ((⟨k, v⟩ :: m : SMap α).filter r) x = SMap.find (m.filter r) x := by
        rw [List.filter_cons]
        split
        · simp [SMap.find, hk]
        · rfl
      exact (skip p).trans (ih.trans (skip q).symm)

section
variable {s t u : State}

theorem HandsOver.rfl : HandsOver s s :=
  ⟨Eq.refl _, Eq.refl _, Eq.refl _, Eq.refl _, Eq.refl _, Eq.refl _, Eq.refl _, Eq.refl _, Eq.refl _, fun _ _ => Eq.refl _, Eq.refl _,
    Eq.refl _, Eq.refl _⟩

theorem HandsOver.then (h : HandsOver s t) (g : HandsOver t u) : HandsOver s u :=
  ⟨g.hop.trans h.hop, g.progs.trans h.progs, g.image.trans h.image, g.ring.trans h.ring, g.tasks.trans h.tasks,
    g.turn.trans h.turn, g.time.trans h.time, g.fw.trans h.fw, g.shown.trans h.shown,
    fun p hp => (g.staged p hp).trans (h.staged p hp), g.key.trans h.key, g.epoch.trans h.epoch, g.slot.trans h.slot⟩

theorem State.task_of_tasks (same : t.tasks = s.tasks) (n : Nat) : t.task n = s.task n := by
  unfold State.task
  rw [same]

theorem HandsOver.joinConfig (h : HandsOver s t) (i : Nat) : t.joinConfig i = s.joinConfig i := by
  have tasks (n : Nat) := State.task_of_tasks h.tasks n
  have here (p : Fin 16) := h.staged p.val p.isLt
  have kept : (upTo 16).filterMap (fun p => (SMap.find (s.progs.staged.filter
        (fun e => t.rd (F.PROG_STATUS_staged e.1) % 2 == 0)) p).map (fun b => (Fin.ofNat 16 p, b))) =
      (upTo 16).filterMap (fun p => (SMap.find (s.progs.staged.filter
        (fun e => s.rd (F.PROG_STATUS_staged e.1) % 2 == 0)) p).map (fun b => (Fin.ofNat 16 p, b))) := by
    refine List.filterMap_congr fun p hp => congrArg _ ?_
    exact SMap.find_filter_congr _ fun v => by simp only [h.staged p (mem_upTo.1 hp)]
  unfold State.joinConfig
  simp only [kept, here, tasks, h.shown, h.hop, h.progs, h.image, h.ring]

theorem HandsOver.joinTime (h : HandsOver s t) : t.joinTime = s.joinTime := by
  unfold State.joinTime
  rw [h.key, h.epoch, h.tasks, h.turn, h.time]

theorem HandsOver.compat (h : HandsOver s t) (l : List Byte) : t.compatWith l = s.compatWith l := by
  unfold State.compatWith State.fwManifest
  rw [h.fw, h.slot]

theorem HandsOver.level (h : HandsOver s t) (f : Fld) : t.act f = s.act f := by
  unfold State.act
  rw [h.hop]

/-- The registers among them stay where only other banks change. -/
theorem HandsOver.regs {B : List Bank} (h : RegsIn B s t)
    (apart : Bank.hopper ∉ B ∧ Bank.prog ∉ B ∧ Bank.key ∉ B ∧ Bank.fw ∉ B) (epoch : t.epoch = s.epoch)
    (hop : t.hop = s.hop) (progs : t.progs = s.progs) (image : t.image = s.image) (ring : t.ring = s.ring)
    (tasks : t.tasks = s.tasks) (turn : t.turn = s.turn) (time : t.time = s.time) (fw : t.fw = s.fw) : HandsOver s t := by
  obtain ⟨noHopper, noProg, noKey, noFw⟩ := apart
  refine ⟨hop, progs, image, ring, tasks, turn, time, fw, h.rd_eq (b := .hopper) (by decide) noHopper, fun p hp => ?_,
    h.rd_eq (b := .key) (by decide) noKey, epoch, h.rd_eq (b := .fw) (by decide) noFw⟩
  refine h.rd_eq (b := .prog) ⟨?_, ?_, ?_⟩ noProg <;> simp only [F.PROG_STATUS_staged, Bank.range] <;> omega

/-- From s to t no register changes but those of the role, its events and the brake's, and neither do settings and time. -/
def RoleOnly (s t : State) : Prop :=
  RegsIn [.events, .time, .ply, .brake, .viol, .skein] s t ∧ t.hop = s.hop ∧ t.time = s.time

theorem RoleOnly.then (h : RoleOnly s t) (g : RoleOnly t u) : RoleOnly s u :=
  ⟨h.1.trans g.1, g.2.1.trans h.2.1, g.2.2.trans h.2.2⟩

/-- A module that is not a tracking standby takes another role: what it hands over stays. -/
theorem State.setPlyState_handsOver (other : s.plyState ≠ 4) (n : Nat) : HandsOver s (s.setPlyState n) := by
  have keeps := s.setPlyState_keeps n
  have same : RoleOnly s (s.setPlyState n) := by
    have events {i : Nat} (hi : i < 48) (u : State) : RoleOnly u (u.plyEvt i) :=
      ⟨(u.plyEvt_in i hi).mono (by decide), (u.plyEvt_keeps i).parts .hop (by decide), (u.plyEvt_keeps i).parts .time (by decide)⟩
    have row (u : State) : RoleOnly u u.row19 :=
      ⟨u.row19_in.mono (by decide), u.row19_keeps.parts .hop (by decide), u.setRow_time _ _⟩
    have proxies (u : State) : RoleOnly u ((upTo 16).foldl (fun s p => s.wr (F.SK_STATUS_proxy p) 0) u) :=
      List.foldlRecOn (motive := fun t : State => RoleOnly u t) _ _ ⟨.rfl, rfl, rfl⟩ fun t ht p hp => by
        obtain ⟨regs, hop, time⟩ := ht
        have place : p < 16 := mem_upTo.1 hp
        exact ⟨regs.wr _ _ .skein (of_decide_eq_true rfl) (by decide) (by simp only [F.SK_STATUS_proxy, Bank.range]; omega)
          (by simp only [F.SK_STATUS_proxy, Bank.range]; omega), hop, time⟩
    unfold State.setPlyState
    extract_lets stays u v ply skein w x
    have remains : u = s := if_neg (by simp [other])
    have told : RoleOnly s v := by
      refine RoleOnly.then (t := s.wr F.PLY_STATUS_state n) ?_ (remains ▸ events (i := 0) (by decide) _)
      exact ⟨RegsIn.wr F.PLY_STATUS_state n .ply .rfl (by decide) (by decide) (by decide) (by decide), rfl, rfl⟩
    have tracked : RoleOnly v x := by
      change RoleOnly v (ite _ _ _)
      split
      · exact ⟨fun _ _ _ => rfl, rfl, rfl⟩
      · exact RoleOnly.then (t := w) ⟨fun _ _ _ => rfl, rfl, rfl⟩ (proxies w)
    split
    · exact ⟨.rfl, rfl, rfl⟩
    · exact (told.then tracked).then (row x)
  obtain ⟨regs, hop, time⟩ := same
  exact .regs regs (by decide) (s.setPlyState_kept n F.PLY_EPOCH_epoch (by decide)) hop (keeps.parts .progs (by decide))
    (keeps.parts .image (by decide)) (keeps.parts .ring (by decide)) (keeps.parts .tasks (by decide))
    (keeps.parts .turn (by decide)) time (keeps.parts .fw (by decide))

end

end Sys2Proof.Machine

/-! PROOFS. A partner's JOIN frame: the active module answers it (R277, R295). -/

namespace Sys2Proof.Machine

section
variable {s : State} {h : PlyHdr} {j : PlyJoin}

theorem State.greeted_handsOver : HandsOver s (s.greeted h j) :=
  .regs State.greeted_in (by decide) (State.greeted_rd (f := F.PLY_EPOCH_epoch) (by decide) (by decide) (by decide)) rfl rfl rfl
    rfl rfl rfl rfl rfl

/-- An active module answers with its own JOIN frame and is LONE no longer (R277). -/
def State.joinMet (s : State) : State :=
  if s.sendJoin.plyState == 1 then s.sendJoin.setPlyState 2 else s.sendJoin

theorem State.sendJoin_shows (s : State) (f : Fld) (low : f.lo < 32) : s.sendJoin.rd f = s.rd f :=
  s.sendJoin_in f low (fun b hb => absurd hb List.not_mem_nil)

theorem State.sendPly_orders (s : State) (type turn : Nat) (payload : Bytes) :
    (s.sendPly type turn payload).ply.orders = s.ply.orders := by
  unfold State.sendPly
  split <;> rfl

theorem State.sendJoin_orders (s : State) : s.sendJoin.ply.orders = s.ply.orders := s.sendPly_orders _ _ _

theorem State.sendJoin_handsOver (s : State) : HandsOver s s.sendJoin := by
  have keeps := s.sendJoin_keeps
  exact .regs s.sendJoin_in (by decide) (s.sendJoin_shows F.PLY_EPOCH_epoch (by decide)) (keeps.parts .hop (by decide))
    (keeps.parts .progs (by decide)) (keeps.parts .image (by decide)) (keeps.parts .ring (by decide))
    (keeps.parts .tasks (by decide)) (keeps.parts .turn (by decide)) (keeps.parts .time (by decide)) (keeps.parts .fw (by decide))

/-- The partner is met: the module is ACTIVE, shows the same partner, holds the same orders and hands over the same. -/
theorem State.joinMet_meets (active : s.plyState = 1 ∨ s.plyState = 2) : s.joinMet.plyState = 2 ∧ Kept nameFlds s s.joinMet ∧
    s.joinMet.ply.orders = s.ply.orders ∧ HandsOver s s.joinMet := by
  have role : s.sendJoin.plyState = s.plyState := s.sendJoin_shows F.PLY_STATUS_state (by decide)
  have names : Kept nameFlds s s.sendJoin := fun f hf => s.sendJoin_shows f ((by decide : ∀ f ∈ nameFlds, f.lo < 32) f hf)
  have sent := s.sendJoin_handsOver
  unfold State.joinMet
  rw [role]
  rcases active with lone | active
  · rw [if_pos (by simp [lone])]
    refine ⟨State.setPlyState_state _ (by decide), names.then fun f hf => ?_, ?_, sent.then (State.setPlyState_handsOver ?_ 2)⟩
    · obtain ⟨place, state, event⟩ := (by decide : ∀ f ∈ nameFlds, f.In .ply ∧ F.PLY_STATUS_state.key ≠ f.key ∧
        F.PLY_EVT_evt.key ≠ f.key) f hf
      exact State.setPlyState_rd _ _ place state event
    · exact (congrArg PlySt.orders (s.sendJoin.setPlyState_ply 2)).trans s.sendJoin_orders
    · omega
  · rw [if_neg (by simp [active])]
    exact ⟨role.trans active, names, s.sendJoin_orders, sent⟩

/-- Configuration and time are handed over, and the capture boundary is ordered (R295, R296). -/
def State.handOver (s : State) (j : PlyJoin) : State :=
  let u := (s.emit (.joinConfig (s.joinConfig j.imageSeal.toNat))).emit (.joinTime s.joinTime)
  { u with progs := { u.progs with partnerStaged := u.progs.staged.filter (fun e => u.rd (F.PROG_STATUS_staged e.1) == 2) } }

theorem State.serveJoin_serves (s : State) (j : PlyJoin) : s.serveJoin j =
    if s.joinMet.compatWith j.compat = false ∨ j.level.toNat < s.joinMet.act F.HOPPER_LEVEL_level then s.joinMet.sendAck 8 0 true
    else (s.joinMet.handOver j).sendOrder 8 (s.joinMet.handOver j).orderBoundary 0 .capture := by
  unfold State.serveJoin
  refine ite_congr ?_ (fun _ => rfl) (fun _ => rfl)
  simp only [Bool.or_eq_true, Bool.not_eq_true', decide_eq_true_eq]
  rfl

theorem plyJoinReceived_serves (taken : Taken s 0x4C h) (active : s.plyState = 1 ∨ s.plyState = 2) (joins : j.joining = true)
    {P : State → Prop} (holds : P ((s.greeted h j).serveJoin j)) : Does (.plyJoinReceived h j) s P := by
  have role : (s.greeted h j).isActive = true := by
    unfold State.isActive
    rw [State.greeted_plyState]
    rcases active with lone | active
    · simp [lone]
    · simp [active]
  refine ⟨_, (execPlyJoinReceived_eq taken).trans ?_, holds⟩
  rw [if_pos role, if_pos joins]
  rfl

/-- A partner that fits is handed configuration and time, and the capture boundary is ordered. -/
theorem plyJoinReceived_handsOver (taken : Taken s 0x4C h) (active : s.plyState = 1 ∨ s.plyState = 2) (joins : j.joining = true)
    (compat : s.compatWith j.compat = true) (level : s.act F.HOPPER_LEVEL_level ≤ j.level.toNat) :
    Does (.plyJoinReceived h j) s (fun t => Named j t ∧ t.rd F.PLY_STATUS_state = 2 ∧
      Out.joinConfig (s.joinConfig j.imageSeal.toNat) ∈ t.out ∧ Out.joinTime s.joinTime ∈ t.out ∧
      ∃ o ∈ t.ply.orders, o.mine = true ∧ o.code = 8 ∧ o.content = .capture) := by
  refine plyJoinReceived_serves taken active joins ?_
  have role : (s.greeted h j).plyState = 1 ∨ (s.greeted h j).plyState = 2 := by rwa [State.greeted_plyState]
  obtain ⟨state, names, -, met⟩ := State.joinMet_meets role
  have whole := State.greeted_handsOver.then met
  have fits : ¬((s.greeted h j).joinMet.compatWith j.compat = false ∨
      j.level.toNat < (s.greeted h j).joinMet.act F.HOPPER_LEVEL_level) := by
    rw [whole.compat, whole.level, compat]
    simpa using level
  rw [State.serveJoin_serves, if_neg fits]
  clear fits
  generalize (s.greeted h j).joinMet = m at *
  have sent := (m.handOver j).sendOrder_keeps 8 (m.handOver j).orderBoundary 0 .capture
  have shows (f : Fld) (low : f.lo < 32) :
      ((m.handOver j).sendOrder 8 (m.handOver j).orderBoundary 0 .capture).rd f = m.rd f :=
    (m.handOver j).sendOrder_in _ _ _ _ f low (fun b hb => absurd hb List.not_mem_nil)
  have config : Out.joinConfig (s.joinConfig j.imageSeal.toNat) ∈ (m.handOver j).out := by
    rw [← whole.joinConfig]
    simp [State.handOver, State.emit]
  have time : Out.joinTime s.joinTime ∈ (m.handOver j).out := by
    rw [← whole.joinTime]
    simp [State.handOver, State.emit]
  refine ⟨(State.greeted_named.kept names).kept fun f hf => shows f ((by decide : ∀ f ∈ nameFlds, f.lo < 32) f hf),
    (shows _ (by decide)).trans state, sent.sent.subset config, sent.sent.subset time, ?_⟩
  rw [State.sendOrder_orders]
  exact ⟨_, List.mem_append_right _ (List.mem_singleton_self _), rfl, rfl, rfl⟩

/-- A partner that does not fit is refused. -/
theorem plyJoinReceived_refuses (taken : Taken s 0x4C h) (active : s.plyState = 1 ∨ s.plyState = 2) (joins : j.joining = true)
    (unfit : s.compatWith j.compat = false ∨ j.level.toNat < s.act F.HOPPER_LEVEL_level) :
    Does (.plyJoinReceived h j) s (fun t => Named j t ∧ t.ply.orders = s.ply.orders ∧ t.image = s.image) := by
  refine plyJoinReceived_serves taken active joins ?_
  have role : (s.greeted h j).plyState = 1 ∨ (s.greeted h j).plyState = 2 := by rwa [State.greeted_plyState]
  obtain ⟨-, names, orders, met⟩ := State.joinMet_meets role
  have whole := State.greeted_handsOver.then met
  rw [State.serveJoin_serves, if_pos (by rwa [whole.compat, whole.level])]
  obtain ⟨txAlive, out, sends⟩ := State.sendPly_sends (s.greeted h j).joinMet 0x49 (s.greeted h j).joinMet.turn.k
    (beBytes 2 8 ++ beBytes 2 0 ++ beBytes 1 (bit true))
  have acked : (s.greeted h j).joinMet.sendAck 8 0 true = _ := sends
  rw [acked]
  exact ⟨State.greeted_named.kept names, orders, whole.image⟩

/-! A joining module identifies the active. -/

theorem State.failJoin_names (s : State) (reason : Nat) : Kept nameFlds s (s.failJoin reason) := by
  have place := (by decide : ∀ f ∈ nameFlds, f.In .ply ∧ F.PLY_STATUS_state.key ≠ f.key ∧ F.PLY_EVT_evt.key ≠ f.key ∧
    F.PLY_JOIN_fail.key ≠ f.key ∧ F.PLY_JOIN_phase.key ≠ f.key ∧ F.PLY_REASON_untracked.key ≠ f.key)
  intro f hf
  obtain ⟨inside, state, event, fail, phase, reasons⟩ := place f hf
  unfold State.failJoin
  split
  · rfl
  · refine (State.plyEvt_rd _ (by decide) inside event).trans ((State.plyEvt_rd _ (by decide) inside event).trans
      ((State.setPlyState_rd _ _ inside state event).trans ((State.rd_wr_ne _ _ _ _ reasons).trans
      ((State.rd_wr_ne _ _ _ _ phase).trans (State.rd_wr_ne _ _ _ _ fail)))))

/-- With nothing handed over a join stays as it is. -/
theorem State.advanceJoin_none (s : State) (config : j.config = none) (time : j.time = none) (captured : j.captured = none) :
    s.advanceJoin j = s := by
  simp only [State.advanceJoin, config, time, captured]

theorem plyJoinReceived_identifies (taken : Taken s 0x4C h) (joins : s.plyState = 3) (phase : s.rd F.PLY_JOIN_phase = 1)
    (config : j.config = none) (time : j.time = none) (captured : j.captured = none) :
    Does (.plyJoinReceived h j) s (fun t => Named j t ∧
      (s.compatWith j.compat = false → LeftTracking t 14 ∧ t.rd F.PLY_JOIN_fail = 3) ∧
      (s.compatWith j.compat = true → 0 < j.level.toNat → LeftTracking t 14 ∧ t.rd F.PLY_JOIN_fail = 2) ∧
      (s.compatWith j.compat = true → j.level.toNat = 0 → t.rd F.PLY_STATUS_state = 3 ∧ t.rd F.PLY_JOIN_phase = 2)) := by
  refine plyJoinReceived_joins taken joins ?_
  rw [State.advanceJoin_none _ config time captured]
  have state : (s.greeted h j).plyState = 3 := State.greeted_plyState.trans joins
  have first : (s.greeted h j).rd F.PLY_JOIN_phase = 1 := State.greeted_phase.trans phase
  unfold State.identify
  rw [if_neg (by simp [first]), (State.greeted_handsOver (s := s) (h := h) (j := j)).compat]
  cases s.compatWith j.compat with
  | false =>
    obtain ⟨left, fail, -⟩ := State.failJoin_fails state (reason := 3) (by decide)
    exact ⟨State.greeted_named.kept (State.failJoin_names _ 3), fun _ => ⟨left, fail⟩, fun no => absurd no (by decide),
      fun no => absurd no (by decide)⟩
  | true =>
    rw [if_neg (by decide)]
    split
    · next offered =>
      obtain ⟨left, fail, -⟩ := State.failJoin_fails state (reason := 2) (by decide)
      exact ⟨State.greeted_named.kept (State.failJoin_names _ 2), fun no => absurd no (by decide), fun _ _ => ⟨left, fail⟩,
        fun _ none => absurd offered (by omega)⟩
    · next none =>
      refine ⟨State.greeted_named.kept (.wr _ (by decide)), fun no => absurd no (by decide), fun _ offered => absurd offered none,
        fun _ _ => ⟨(State.rd_wr_ne _ _ _ _ (by decide)).trans state, State.rd_wr_same _ F.PLY_JOIN_phase 2⟩⟩

end

end Sys2Proof.Machine

/-! PROOFS. The configuration that a joining module is handed becomes its own (R295). -/

namespace Sys2Proof.Machine

/-- The field that shows a join's phase. -/
def phaseFlds : List Fld := [F.PLY_JOIN_phase]

section
variable {s t u : State}

theorem Kept.phase_wr {f : Fld} (v : Nat) (place : f.lo < 32 ∧ f.off ≠ 28708) : Kept phaseFlds s (s.wr f v) := by
  refine .wr v fun g hg => ?_
  obtain rfl := List.mem_singleton.1 hg
  exact Fld.key_ne_off place.1 (by decide) place.2

theorem Kept.phase_in {B : List Bank} (h : RegsIn B s t) (apart : Bank.ply ∉ B) : Kept phaseFlds s t := fun g hg => by
  obtain rfl := List.mem_singleton.1 hg
  exact h.rd_eq (b := .ply) (by decide) apart

/-! Each step of it leaves the phase as it is. -/

theorem State.progRegs_phase (s : State) {p : Nat} (hp : p < 16) : Kept phaseFlds s (s.progRegs p) := by
  unfold State.progRegs
  split
  · exact .rfl
  · refine ((((((Kept.rfl (s := s)).then (.phase_wr _ ?_)).then (.phase_wr _ ?_)).then (.phase_wr _ ?_)).then (.phase_wr _ ?_)).then
      (.phase_wr _ ?_)).then (.phase_wr _ ?_)
    all_goals
      simp only [F.PROG_STATUS_active, F.PROG_STATUS_strands, F.PROG_STATUS_trap_action, F.PROG_ID_LO_ident, F.PROG_ID_HI_ident,
        F.PROG_SIZE_code_words]
      omega

theorem State.takeSwitching_phase (s : State) (d : JoinConfig) : Kept phaseFlds s (s.takeSwitching d) := by
  unfold State.takeSwitching
  extract_lets ready x y z w
  have programs : Kept phaseFlds s x := .foldl _ fun u p hp =>
    (u.progRegs_phase (mem_upTo.1 hp)).then (.phase_wr _ (by
      have := mem_upTo.1 hp
      simp only [F.PROG_STATUS_staged]
      omega))
  have pending : Kept phaseFlds x y :=
    (Kept.phase_wr (f := F.ONLINE_PENDING_pending) 0 (by decide)).then (.phase_wr (f := F.ONLINE_STATUS_state) 0 (by decide))
  have tasks : Kept phaseFlds y z := .foldl _ fun u n _ => .phase_in (u.setTask_in n _) (by decide)
  have switching : Kept phaseFlds z w := .foldl _ fun u e _ =>
    (Kept.phase_in (u.setTask_in e.1.val _) (by decide)).then (.phase_wr (f := F.ONLINE_PENDING_pending) _ (by decide))
  have all := ((programs.then pending).then tasks).then switching
  exact .ite all (all.then (.phase_wr (f := F.ONLINE_STATUS_state) 2 (by decide)))

theorem State.laneDown_phase (s : State) {p : Nat} (hp : p < 16) (level : Nat) : Kept phaseFlds s (s.laneDown p level) := by
  have lane : Kept phaseFlds s (s.wr (F.SK_STATUS_link p) level) := .phase_wr _ (by simp only [F.SK_STATUS_link]; omega)
  unfold State.laneDown
  exact .ite (lane.then (.phase_in (State.skEvt_in _ p 9 hp) (by decide))) lane

theorem State.chainReg_phase (s : State) (p : Nat) : Kept phaseFlds s (s.chainReg p) := by
  have chain (v : Nat) : Kept phaseFlds s (s.wr (F.SK_STATUS_chain p) v) := .phase_wr _ (by simp only [F.SK_STATUS_chain]; omega)
  unfold State.chainReg
  exact .ite (chain 0) (.ite (chain 1) .rfl)

theorem State.commitPort_phase (s : State) (old : RegMap) {p : Nat} (hp : p < 16) : Kept phaseFlds s (s.commitPort old p) := by
  have link : Kept phaseFlds s (s.wr (F.SK_STATUS_link p) 1) := .phase_wr _ (by simp only [F.SK_STATUS_link]; omega)
  unfold State.commitPort
  exact (Kept.ite (s.laneDown_phase hp 0) (.ite link .rfl)).then (State.chainReg_phase _ p)

theorem State.setStn_phase (s : State) (n v : Nat) : Kept phaseFlds s (s.setStn n v none) := by
  unfold State.setStn
  exact .phase_wr _ (by simp only [F.SK_STN_STATE_state]; omega)

theorem State.commitStation_phase (s : State) (old : RegMap) (n : Nat) : Kept phaseFlds s (s.commitStation old n) := by
  unfold State.commitStation
  exact .ite (s.setStn_phase n 0) (.ite (s.setStn_phase n 1) (.ite (s.setStn_phase n 1) .rfl))

theorem State.commitStations_phase (s : State) (old : RegMap) : Kept phaseFlds s (s.commitStations old) := by
  unfold State.commitStations
  exact Kept.then (Kept.foldl _ fun y p hp => y.commitPort_phase old (mem_upTo.1 hp))
    (Kept.foldl _ fun y n _ => y.commitStation_phase old n)

theorem State.commitChannel_phase (s : State) (old : RegMap) (ch : Nat) : Kept phaseFlds s (s.commitChannel old ch) := by
  unfold State.commitChannel
  refine .ite .rfl ((((Kept.phase_wr _ ?_).then (.phase_wr _ ?_)).then (.phase_wr _ ?_)).then (.phase_wr _ ?_)) <;>
    simp only [F.MB_STATUS_state, F.MB_STATUS_recovering, F.MB_STATUS_rec, F.MB_STATUS_tec] <;> omega

theorem State.commitLoss_phase (s : State) : Kept phaseFlds s s.commitLoss := by
  unfold State.commitLoss
  exact Kept.phase_in (State.lossRows_in _) (by decide)

theorem State.rowsSet_phase (s : State) (old : RegMap) : Kept phaseFlds s (s.rowsSet old) := by
  unfold State.rowsSet
  refine .foldl _ fun y i hi => ?_
  have hi := mem_upTo.1 hi
  exact .ite .rfl (.phase_in (State.setRow_in y i _ (by omega)) (by decide))

theorem State.rowsLatched_phase (s : State) : Kept phaseFlds s s.rowsLatched := Kept.rfl.same (Eq.refl _)

theorem State.commitBrakes_phase (s : State) (old : RegMap) : Kept phaseFlds s (s.commitBrakes old) := by
  have rows := (s.rowsSet_phase old).then (State.rowsLatched_phase _)
  unfold State.commitBrakes
  rw [← State.rowsSet]
  exact rows.then (.phase_in (State.evalMatrix_in _) (by decide))

theorem State.settingRegs_phase (s : State) : Kept phaseFlds s s.settingRegs := by
  unfold State.settingRegs State.budgetRegs
  refine (((Kept.foldl _ fun y t ht => .phase_wr _ ?_).then (.phase_wr _ ?_)).then (.phase_wr _ ?_)).then
    (Kept.foldl _ fun y p hp => (Kept.phase_wr _ ?_).then (.phase_wr _ ?_)) <;>
    simp only [F.TASK_WCET_wcet_ns, F.RETAIN_STATUS_bytes, F.RING_LOAD_own, F.SK_D_IN_ps, F.SK_D_OUT_ps] <;> omega

theorem State.lineDown_phase (s : State) {f : Fld} (i : Nat) (place : f.lo < 32 ∧ f.off ≠ 28708) :
    Kept phaseFlds s (s.lineDown f i) := by
  have down : Kept phaseFlds s (s.wr f 0) := .phase_wr 0 place
  unfold State.lineDown
  exact .ite (down.then (.phase_in (State.ringEvt_in _ i) (by decide))) down

theorem State.checkBypass_phase (s : State) : Kept phaseFlds s s.checkBypass := by
  let lines := ((s.wr F.RING_STATUS_bypass 1).lineDown F.RING_STATUS_link_e 0).lineDown F.RING_STATUS_link_w 1
  have down : Kept phaseFlds s lines :=
    ((Kept.phase_wr 1 (by decide)).then (State.lineDown_phase _ 0 (by decide))).then (State.lineDown_phase _ 1 (by decide))
  have closed : Kept phaseFlds s s.closeBypass := by
    unfold State.closeBypass
    refine .ite .rfl (Kept.then (Kept.then ?_ (.phase_in (State.ringEvt_in _ 10) (by decide)))
      (.phase_in (State.setCal_in _ 0) (by decide)))
    exact Kept.same (t := lines) down (Eq.refl _)
  unfold State.checkBypass
  exact .ite closed .rfl

/-! The settings that it makes active. -/

theorem State.foldl_hop {α : Type} {f : State → α → State} (step : ∀ u a, (f u a).hop = u.hop) (s : State) (l : List α) :
    (l.foldl f s).hop = s.hop :=
  List.foldlRecOn (motive := fun t : State => t.hop = s.hop) _ _ (Eq.refl _) fun t ht a _ => (step t a).trans ht

theorem State.progRegs_hop (s : State) (p : Nat) : (s.progRegs p).hop = s.hop := (s.progRegs_keeps p).parts .hop (by decide)

theorem State.takeSwitching_hop (s : State) (d : JoinConfig) : (s.takeSwitching d).hop = s.hop := by
  have written (u : State) (f : Fld) (v : Nat) : (u.wr f v).hop = u.hop := Eq.refl _
  have ready (g : Nat → Nat) (u : State) :
      ((upTo 16).foldl (fun s p => (s.progRegs p).wr (F.PROG_STATUS_staged p) (g p)) u).hop = u.hop :=
    State.foldl_hop (fun u p => (written _ _ _).trans (u.progRegs_hop p)) u _
  unfold State.takeSwitching
  extract_lets r x y z w
  have taken : x.hop = s.hop := ready (fun p => if r p = true then 2 else 0) s
  have tasks : z.hop = y.hop := State.foldl_hop (by intro _ _; rfl) y _
  have switching : w.hop = z.hop := State.foldl_hop (by intro _ _; rfl) z _
  have pending : y.hop = x.hop := (written (x.wr F.ONLINE_PENDING_pending 0) _ _).trans (written x _ _)
  have all : w.hop = s.hop := switching.trans (tasks.trans (pending.trans taken))
  clear_value w
  split <;> exact all

/-- The units follow the image that is taken. -/
def State.imageFollowed (s : State) (old : RegMap) : State :=
  ((((s.commitStations old).commitChannel old 0).commitChannel old 1).rebuildPayloads.commitLoss.commitBrakes old).settingRegs.checkBypass

theorem State.imageFollowed_beside (s : State) (old : RegMap) : BesideHopper s (s.imageFollowed old) :=
  (s.commitStations_beside old).trans ((State.commitChannel_beside _ old 0).trans ((State.commitChannel_beside _ old 1).trans
    ((State.rebuildPayloads_beside _).trans ((State.commitLoss_beside _).trans ((State.commitBrakes_beside _ old).trans
    ((State.settingRegs_beside _).trans (State.checkBypass_beside _)))))))

theorem State.imageFollowed_phase (s : State) (old : RegMap) : Kept phaseFlds s (s.imageFollowed old) := by
  have payloads (u : State) : Kept phaseFlds u u.rebuildPayloads := .phase_in u.rebuildPayloads_in (by decide)
  exact (s.commitStations_phase old).then ((State.commitChannel_phase _ old 0).then ((State.commitChannel_phase _ old 1).then
    ((payloads _).then ((State.commitLoss_phase _).then ((State.commitBrakes_phase _ old).then
    ((State.settingRegs_phase _).then (State.checkBypass_phase _)))))))

/-- The settings that the configuration of a join makes active. -/
def State.handedSettings (s : State) (d : JoinConfig) : RegMap :=
  match d.image with
  | none => s.hop.active
  | some (l, _) => applyChanges [] l

/-- The image is in: its seal is shown, and the staged copy is compared with it. -/
def State.imageShown (s : State) : State :=
  (s.wr F.HOPPER_ACTIVE_SEAL_seal (committedSeal s.hop.active s.progs.active)).restage.hopState

theorem State.adoptImage_eq (s : State) (d : JoinConfig) :
    s.adoptImage d = (((s.takeImage d).takeSwitching d).imageFollowed s.hop.active).imageShown := rfl

end

end Sys2Proof.Machine

/-! PROOFS. Phase Configuration of a join: what is active after it, and which phase follows (R295). -/

namespace Sys2Proof.Machine

section
variable {s : State}

theorem State.takeImage_active (s : State) (d : JoinConfig) : (s.takeImage d).hop.active = s.handedSettings d := by
  unfold State.takeImage State.handedSettings
  cases d.image <;> rfl

theorem State.takeImage_phase (s : State) (d : JoinConfig) : Kept phaseFlds s (s.takeImage d) := Kept.rfl.same (Eq.refl _)

theorem State.restage_phase (s : State) : Kept phaseFlds s s.restage :=
  (Kept.phase_wr (f := F.HOPPER_STATUS_dirty) _ (by decide)).then (.phase_wr (f := F.HOPPER_CHANGES_count) _ (by decide))

theorem State.imageShown_phase (s : State) : Kept phaseFlds s s.imageShown :=
  ((Kept.phase_wr (f := F.HOPPER_ACTIVE_SEAL_seal) _ (by decide)).then (State.restage_phase _)).then
    (.phase_in (State.hopState_in _) (by decide))

theorem State.imageShown_active (s : State) : s.imageShown.hop.active = s.hop.active :=
  congrArg HopperSt.active ((State.hopState_keeps _).parts .hop (by decide))

theorem State.adoptImage_active (s : State) (d : JoinConfig) : (s.adoptImage d).hop.active = s.handedSettings d := by
  rw [State.adoptImage_eq, State.imageShown_active, (State.imageFollowed_beside _ s.hop.active).active, State.takeSwitching_hop,
    State.takeImage_active]

theorem State.adoptImage_phase (s : State) (d : JoinConfig) : Kept phaseFlds s (s.adoptImage d) := by
  rw [State.adoptImage_eq]
  exact (((s.takeImage_phase d).then ((s.takeImage d).takeSwitching_phase d)).then (State.imageFollowed_phase _ s.hop.active)).then
    (State.imageShown_phase _)

variable {h : PlyHdr} {j : PlyJoin}

/-- Past its first phase a join identifies nobody. -/
theorem State.identify_rests (later : s.rd F.PLY_JOIN_phase ≠ 1) : s.identify j = s := if_pos (by simp [later])

/-- The phase Configuration ends once the seals are equal (R295). -/
def State.sealsCompared (s : State) (i : Nat) : State :=
  if s.rd F.HOPPER_ACTIVE_SEAL_seal = i then s.wr F.PLY_JOIN_phase 3 else s

theorem State.sealsCompared_phase (phase : s.rd F.PLY_JOIN_phase = 2) (i : Nat) : (s.sealsCompared i).rd F.PLY_JOIN_phase =
    if (s.sealsCompared i).rd F.HOPPER_ACTIVE_SEAL_seal = i then 3 else 2 := by
  unfold State.sealsCompared
  by_cases equal : s.rd F.HOPPER_ACTIVE_SEAL_seal = i
  · rw [if_pos equal, State.rd_wr_ne s F.PLY_JOIN_phase F.HOPPER_ACTIVE_SEAL_seal 3 (by decide), if_pos equal]
    exact State.rd_wr_same _ F.PLY_JOIN_phase 3
  · rw [if_neg equal, if_neg equal]
    exact phase

theorem State.sealsCompared_keeps (s : State) (i : Nat) : (s.sealsCompared i).turn = s.turn ∧ (s.sealsCompared i).hop = s.hop := by
  unfold State.sealsCompared
  split <;> exact ⟨rfl, rfl⟩

theorem State.advanceJoin_configures {d : JoinConfig} (phase : s.rd F.PLY_JOIN_phase = 2) (config : j.config = some d)
    (time : j.time = none) (captured : j.captured = none) : s.advanceJoin j = (s.adoptImage d).sealsCompared j.imageSeal.toNat := by
  simp only [State.advanceJoin, config, time, captured, phase, beq_self_eq_true, if_true]
  rfl

theorem State.greeted_turn : (s.greeted h j).turn = s.turn := rfl

theorem State.greeted_settings (d : JoinConfig) : (s.greeted h j).handedSettings d = s.handedSettings d := rfl

theorem plyJoinReceived_configures {d : JoinConfig} (taken : Taken s 0x4C h) (joins : s.plyState = 3)
    (phase : s.rd F.PLY_JOIN_phase = 2) (config : j.config = some d) (time : j.time = none) (captured : j.captured = none) :
    Does (.plyJoinReceived h j) s (fun t => t.turn = s.turn ∧
      t.rd F.PLY_JOIN_phase = (if t.rd F.HOPPER_ACTIVE_SEAL_seal = j.imageSeal.toNat then 3 else 2) ∧
      (d.image = none → t.hop.active = s.hop.active) ∧
      (∀ l ps, d.image = some (l, ps) → t.hop.active = applyChanges [] l)) := by
  refine plyJoinReceived_joins taken joins ?_
  have second : (s.greeted h j).rd F.PLY_JOIN_phase = 2 := State.greeted_phase.trans phase
  rw [State.identify_rests (by simp [second]), State.advanceJoin_configures second config time captured]
  have turn : ((s.greeted h j).adoptImage d).turn = s.turn := (State.adoptImage_keeps _ d).parts .turn (by decide)
  have stays := ((s.greeted h j).adoptImage_phase d F.PLY_JOIN_phase (by decide)).trans second
  have active := (State.adoptImage_active (s.greeted h j) d).trans (State.greeted_settings d)
  generalize (s.greeted h j).adoptImage d = u at turn stays active ⊢
  obtain ⟨sameTurn, hop⟩ := u.sealsCompared_keeps j.imageSeal.toNat
  refine ⟨sameTurn.trans turn, State.sealsCompared_phase stays _, fun none => ?_, fun l ps some => ?_⟩
  · rw [hop, active]
    simp [State.handedSettings, none]
  · rw [hop, active]
    simp [State.handedSettings, some]

end

end Sys2Proof.Machine

/-! PROOFS. Phase Time of a join: turn, time, epoch and key (R295). -/

namespace Sys2Proof.Machine

/-- The turn and the working time that a join hands over. -/
def State.timeTaken (s : State) (d : JoinTime) : State :=
  { s with
    turn := { TurnSt.idle with k := d.turn.toNat, kOrigin := d.kOrigin.toNat, origin := d.origin, startTurn := d.turn.toNat,
                               cutoffs := d.turn.toNat + 1, nextRel := d.turn.toNat, nextDl := d.turn.toNat }
    time := { s.time with workSet := true, work := d.work, carry := d.carried, followB := d.followB }
    ply := { s.ply with liveCut := d.turn.toNat } }

/-- The registers that show the turn, and the domain that working time follows. -/
def State.turnShown (s : State) (d : JoinTime) : State :=
  ((((s.wr F.TURN_STATUS_running 1).wr F.TURN_STATUS_adopted 1).originRegs.wrb F.TIME_STATUS_sel_now d.followB).wrb
    F.TIME_STATUS_slewing (decide (d.carried ≠ 0))).workRegs

/-- The epoch and the key position that a join hands over; row 16 falls away from STOP. -/
def State.keyShown (s : State) (d : JoinTime) : State :=
  let t := (s.wr F.PLY_EPOCH_epoch d.epoch.toNat).wr F.KEY_STATUS_effective d.key.toNat
  if t.key = 3 then t else t.setRow 16 false

/-- The stops and the key position to come that a join hands over. -/
def State.stopsTaken (s : State) (d : JoinTime) : State :=
  { s with tasks := { s.tasks with
      keyNext := d.keyNext.map (fun e => (e.1.toNat, e.2.toNat)), stopFrom := if s.key = 3 then some d.turn.toNat else none,
      leftStop := d.leftStop.map BitVec.toNat } }

section
variable {s : State}

theorem State.adoptTime_eq (s : State) (d : JoinTime) :
    s.adoptTime d = (((s.timeTaken d).turnShown d).keyShown d).stopsTaken d := rfl

/-- What a step leaves of the turn and of time. -/
def SameTurn (s t : State) : Prop := t.turn = s.turn ∧ t.time = s.time

theorem SameTurn.then {s t u : State} (h : SameTurn s t) (g : SameTurn t u) : SameTurn s u := ⟨g.1.trans h.1, g.2.trans h.2⟩

theorem State.workRegs_sameTurn (s : State) : SameTurn s s.workRegs :=
  ⟨s.workRegs_keeps.parts .turn (by decide), s.workRegs_keeps.parts .time (by decide)⟩

theorem State.originRegs_sameTurn (s : State) : SameTurn s s.originRegs :=
  ⟨s.originRegs_keeps.parts .turn (by decide), s.originRegs_keeps.parts .time (by decide)⟩

theorem State.wr_sameTurn (s : State) (f : Fld) (v : Nat) : SameTurn s (s.wr f v) := ⟨rfl, rfl⟩

theorem State.turnShown_sameTurn (s : State) (d : JoinTime) : SameTurn s (s.turnShown d) :=
  (((((s.wr_sameTurn _ 1).then (State.wr_sameTurn _ _ 1)).then (State.originRegs_sameTurn _)).then (State.wr_sameTurn _ _ _)).then
    (State.wr_sameTurn _ _ _)).then (State.workRegs_sameTurn _)

theorem State.keyShown_sameTurn (s : State) (d : JoinTime) : SameTurn s (s.keyShown d) := by
  have shown := (s.wr_sameTurn F.PLY_EPOCH_epoch d.epoch.toNat).then (State.wr_sameTurn _ F.KEY_STATUS_effective d.key.toNat)
  unfold State.keyShown
  generalize (s.wr F.PLY_EPOCH_epoch d.epoch.toNat).wr F.KEY_STATUS_effective d.key.toNat = u at shown
  simp only
  split
  · exact shown
  · exact shown.then ⟨(u.setRow_keeps 16 false).parts .turn (by decide), u.setRow_time 16 false⟩

/-- The origin of turns is shown; whether the engine runs, and in an adopted turn, stays. -/
theorem State.originRegs_shows (s : State) {f : Fld} (hf : f = F.TURN_STATUS_running ∨ f = F.TURN_STATUS_adopted) :
    s.originRegs.rd f = s.rd f := by
  have words (i : Nat) : (F.TURN_ORIGIN_origin i).key ≠ f.key := by
    rcases hf with rfl | rfl <;>
      simp only [Fld.key, F.TURN_ORIGIN_origin, F.TURN_STATUS_running, F.TURN_STATUS_adopted] <;> omega
  have low : F.ORIGIN_TURN_LO_k_origin.key ≠ f.key := by rcases hf with rfl | rfl <;> decide
  have high : F.ORIGIN_TURN_HI_k_origin.key ≠ f.key := by rcases hf with rfl | rfl <;> decide
  unfold State.originRegs
  rw [State.rd_wr_ne _ _ _ _ high, State.rd_wr_ne _ _ _ _ low]
  exact rd_foldl _ fun u i _ => State.rd_wr_ne _ _ _ _ (words i)

/-- The turn engine runs in an adopted turn. -/
theorem State.turnShown_running (s : State) (d : JoinTime) :
    (s.turnShown d).rd F.TURN_STATUS_running = 1 ∧ (s.turnShown d).rd F.TURN_STATUS_adopted = 1 := by
  have later (u : State) (f : Fld) (inside : f.In .turn) (sel : F.TIME_STATUS_sel_now.key ≠ f.key)
      (slew : F.TIME_STATUS_slewing.key ≠ f.key) :
      (((u.wrb F.TIME_STATUS_sel_now d.followB).wrb F.TIME_STATUS_slewing (decide (d.carried ≠ 0))).workRegs).rd f = u.rd f :=
    ((State.workRegs_in _).rd_eq inside (by decide)).trans ((State.rd_wrb_ne _ _ _ _ slew).trans (State.rd_wrb_ne _ _ _ _ sel))
  unfold State.turnShown
  refine ⟨?_, ?_⟩
  · rw [later _ _ (by decide) (by decide) (by decide), State.originRegs_shows _ (.inl rfl), State.rd_wr_ne _ _ _ _ (by decide)]
    exact State.rd_wr_same _ F.TURN_STATUS_running 1
  · rw [later _ _ (by decide) (by decide) (by decide), State.originRegs_shows _ (.inr rfl)]
    exact State.rd_wr_same _ F.TURN_STATUS_adopted 1

/-- Epoch and key are shown, and the turn's registers stay. -/
theorem State.keyShown_shows (s : State) (d : JoinTime) : (s.keyShown d).rd F.PLY_EPOCH_epoch = d.epoch.toNat ∧
    (s.keyShown d).rd F.KEY_STATUS_effective = d.key.toNat ∧
    (s.keyShown d).rd F.TURN_STATUS_running = s.rd F.TURN_STATUS_running ∧
    (s.keyShown d).rd F.TURN_STATUS_adopted = s.rd F.TURN_STATUS_adopted := by
  have row (u : State) (f : Fld) (b : Bank) (inside : f.In b) (apart : b ∉ [Bank.events, .time, .brake, .viol]) :
      (if u.key = 3 then u else u.setRow 16 false).rd f = u.rd f := by
    split
    · rfl
    · exact (u.setRow_in 16 false (by decide)).rd_eq inside apart
  unfold State.keyShown
  refine ⟨?_, ?_, ?_, ?_⟩
  · rw [row _ _ .ply (by decide) (by decide), State.rd_wr_ne _ _ _ _ (by decide), State.rd_wr_same]
    exact Nat.mod_eq_of_lt d.epoch.isLt
  · rw [row _ _ .key (by decide) (by decide), State.rd_wr_same]
    exact Nat.mod_eq_of_lt d.key.isLt
  · rw [row _ _ .turn (by decide) (by decide), State.rd_wr_ne _ _ _ _ (by decide), State.rd_wr_ne _ _ _ _ (by decide)]
  · rw [row _ _ .turn (by decide) (by decide), State.rd_wr_ne _ _ _ _ (by decide), State.rd_wr_ne _ _ _ _ (by decide)]

variable {h : PlyHdr} {j : PlyJoin}

theorem State.advanceJoin_times {d : JoinTime} (phase : s.rd F.PLY_JOIN_phase = 3) (config : j.config = none)
    (time : j.time = some d) (captured : j.captured = none) : s.advanceJoin j = (s.adoptTime d).wr F.PLY_JOIN_phase 4 := by
  simp only [State.advanceJoin, config, time, captured, phase, beq_self_eq_true, if_true]

theorem State.adoptTime_shows (s : State) (d : JoinTime) : (s.adoptTime d).rd F.PLY_EPOCH_epoch = d.epoch.toNat ∧
    (s.adoptTime d).rd F.KEY_STATUS_effective = d.key.toNat ∧ (s.adoptTime d).rd F.TURN_STATUS_running = 1 ∧
    (s.adoptTime d).rd F.TURN_STATUS_adopted = 1 := by
  obtain ⟨epoch, key, running, adopted⟩ := ((s.timeTaken d).turnShown d).keyShown_shows d
  obtain ⟨runs, inAdopted⟩ := (s.timeTaken d).turnShown_running d
  have stops (u : State) (f : Fld) : (u.stopsTaken d).rd f = u.rd f := rfl
  rw [State.adoptTime_eq, stops, stops, stops, stops]
  exact ⟨epoch, key, running.trans runs, adopted.trans inAdopted⟩

theorem State.adoptTime_takes (s : State) (d : JoinTime) : SameTurn (s.timeTaken d) (s.adoptTime d) := by
  have stops (u : State) : SameTurn u (u.stopsTaken d) := ⟨rfl, rfl⟩
  rw [State.adoptTime_eq]
  exact (((s.timeTaken d).turnShown_sameTurn d).then (State.keyShown_sameTurn _ d)).then (stops _)

theorem plyJoinReceived_times {d : JoinTime} (taken : Taken s 0x4C h) (joins : s.plyState = 3)
    (phase : s.rd F.PLY_JOIN_phase = 3) (config : j.config = none) (time : j.time = some d) (captured : j.captured = none) :
    Does (.plyJoinReceived h j) s (fun t => t.rd F.PLY_JOIN_phase = 4 ∧ t.turn.k = d.turn.toNat ∧
      t.turn.kOrigin = d.kOrigin.toNat ∧ t.turn.origin = d.origin ∧ t.time.work = d.work ∧
      t.rd F.TURN_STATUS_running = 1 ∧ t.rd F.TURN_STATUS_adopted = 1 ∧ t.rd F.PLY_EPOCH_epoch = d.epoch.toNat ∧
      t.rd F.KEY_STATUS_effective = d.key.toNat ∧ t.hop.active = s.hop.active) := by
  refine plyJoinReceived_joins taken joins ?_
  have third : (s.greeted h j).rd F.PLY_JOIN_phase = 3 := State.greeted_phase.trans phase
  have hop : (s.greeted h j).hop = s.hop := rfl
  rw [State.identify_rests (by simp [third]), State.advanceJoin_times third config time captured]
  generalize s.greeted h j = g at hop
  obtain ⟨epoch, key, running, adopted⟩ := g.adoptTime_shows d
  obtain ⟨turn, work⟩ := g.adoptTime_takes d
  have settings : (g.adoptTime d).hop.active = s.hop.active :=
    congrArg HopperSt.active (Eq.trans ((g.adoptTime_keeps d).parts .hop (by decide)) hop)
  have k : (g.timeTaken d).turn.k = d.turn.toNat ∧ (g.timeTaken d).turn.kOrigin = d.kOrigin.toNat ∧
    (g.timeTaken d).turn.origin = d.origin := ⟨rfl, rfl, rfl⟩
  have worked : (g.timeTaken d).time.work = d.work := rfl
  rw [← turn] at k
  rw [← work] at worked
  generalize g.adoptTime d = u at epoch key running adopted settings k worked ⊢
  obtain ⟨number, first, origin⟩ := k
  refine ⟨State.rd_wr_same _ F.PLY_JOIN_phase 4, number, first, origin, worked, ?_, ?_, ?_, ?_, settings⟩ <;>
    rw [State.rd_wr_ne _ _ _ _ (by decide)] <;> assumption

end

end Sys2Proof.Machine

/-! PROOFS. Phase Capture of a join: the forces and the run state as they were captured (R296). -/

namespace Sys2Proof.Machine

section
variable {s t u : State} {c : JoinCapture}

/-- The forces that a capture hands over. -/
def capturedForces (c : JoinCapture) : SMap Sample := SMap.puts [] (c.forces.map (fun e => (e.1.toNat, e.2)))

/-- From s to t nothing is forced or freed. -/
def SameForces (s t : State) : Prop := t.image.forces = s.image.forces

theorem SameForces.then (h : SameForces s t) (g : SameForces t u) : SameForces s u := Eq.trans g h

theorem SameForces.of_keeps {A : List Part} (h : Keeps A s t) (apart : Part.image ∉ A) : SameForces s t :=
  congrArg ImageSt.forces (h.parts .image apart)

theorem State.takeSlots_forces (s : State) (c : JoinCapture) : (s.takeSlots c).image.forces = capturedForces c := by
  unfold State.takeSlots
  exact SameForces.of_keeps (State.lossRows_keeps _) (by decide)

theorem State.takeTasks_forces (s : State) (l : List JoinTask) : SameForces s (s.takeTasks l) :=
  List.foldlRecOn (motive := fun t : State => SameForces s t) _ _ (Eq.refl _) fun _ h _ _ => h

theorem State.takeLoops_forces (s : State) (c : JoinCapture) : SameForces s (s.takeLoops c) :=
  List.foldlRecOn (motive := fun t : State => SameForces s t) _ _ (Eq.refl _) fun _ h _ _ => h

/-- The captured overrun, and row 17 with it, before the run state is shown. -/
def State.overrunTaken (s : State) (c : JoinCapture) : State :=
  let s := match c.overrunTask with
    | some t => s.blame t.val
    | none => s.wr F.TASK_RUN_overrun_valid 0
  if c.runState.toNat == 3 then s else s.setRow 17 false

theorem State.overrunTaken_forces (s : State) (c : JoinCapture) : SameForces s (s.overrunTaken c) := by
  have row (u : State) : SameForces u (if c.runState.toNat == 3 then u else u.setRow 17 false) := by
    split
    · exact Eq.refl _
    · exact .of_keeps (u.setRow_keeps 17 false) (by decide)
  unfold State.overrunTaken
  refine SameForces.then ?_ (row _)
  split
  · exact .of_keeps (s.blame_keeps _) (by decide)
  · exact Eq.refl _

/-- The run state is shown; in overrun stop the module brakes from its next release on. -/
def State.runShown (s : State) (c : JoinCapture) : State :=
  let t : State := { s with tasks := { s.tasks with
    overrunFrom := if c.runState.toNat == 3 then some s.turn.nextRel else none } }
  t.wr F.TASK_RUN_run_state c.runState.toNat

theorem State.takeRun_eq (s : State) (c : JoinCapture) : s.takeRun c = (s.overrunTaken c).runShown c := rfl

theorem State.takeRun_shows (s : State) (c : JoinCapture) : (s.takeRun c).rd F.TASK_RUN_run_state = c.runState.toNat :=
  (State.rd_wr_same _ F.TASK_RUN_run_state _).trans (Nat.mod_eq_of_lt c.runState.isLt)

theorem State.takeRun_forces (s : State) (c : JoinCapture) : SameForces s (s.takeRun c) := by
  have shown (u : State) : SameForces u (u.runShown c) := Eq.refl _
  rw [State.takeRun_eq]
  exact (s.overrunTaken_forces c).then (shown _)

/-! An item of the capture is in. -/

theorem State.startReplay_shows (s : State) (b : Nat) : (s.startReplay b).ply.captured = s.ply.captured ∧
    SameForces s (s.startReplay b) ∧ (s.startReplay b).rd F.TASK_RUN_run_state = s.rd F.TASK_RUN_run_state := by
  unfold State.startReplay State.showBacklog
  exact ⟨rfl, Eq.refl _, (State.rd_wr_ne _ _ _ _ (by decide)).trans (State.rd_wr_ne _ _ _ _ (by decide))⟩

theorem State.capturedItem_shows (s : State) (item : Nat) : item ∈ (s.capturedItem item).ply.captured ∧
    SameForces s (s.capturedItem item) ∧ (s.capturedItem item).rd F.TASK_RUN_run_state = s.rd F.TASK_RUN_run_state := by
  unfold State.capturedItem
  extract_lets ply u
  have first : item ∈ u.ply.captured := List.mem_cons_self
  have forces : SameForces s u := Eq.refl _
  have run : u.rd F.TASK_RUN_run_state = s.rd F.TASK_RUN_run_state := Eq.refl _
  clear_value u
  split
  · obtain ⟨captured, same, shown⟩ := u.startReplay_shows (u.ply.capture.getD u.turn.k)
    exact ⟨captured ▸ first, forces.then same, shown.trans run⟩
  · exact ⟨first, forces, run⟩

theorem State.adoptCapture_shows (s : State) (c : JoinCapture) : 0xFFFF ∈ (s.adoptCapture c).ply.captured ∧
    (s.adoptCapture c).rd F.TASK_RUN_run_state = c.runState.toNat ∧ (s.adoptCapture c).image.forces = capturedForces c := by
  have taken := (((s.takeSlots c).takeTasks_forces c.tasks).then (State.takeLoops_forces _ c)).then (State.takeRun_forces _ c)
  obtain ⟨captured, forces, run⟩ := ((((s.takeSlots c).takeTasks c.tasks).takeLoops c).takeRun c).capturedItem_shows 0xFFFF
  exact ⟨captured, run.trans (State.takeRun_shows _ c), (taken.then forces).trans (s.takeSlots_forces c)⟩

variable {h : PlyHdr} {j : PlyJoin}

theorem State.advanceJoin_captures {b : Nat} (phase : s.rd F.PLY_JOIN_phase = 4) (boundary : s.ply.capture = some b)
    (config : j.config = none) (time : j.time = none) (captured : j.captured = some c) : s.advanceJoin j = s.adoptCapture c := by
  simp [State.advanceJoin, config, time, captured, phase, boundary]

theorem plyJoinReceived_captures {b : Nat} (taken : Taken s 0x4C h) (joins : s.plyState = 3)
    (phase : s.rd F.PLY_JOIN_phase = 4) (boundary : s.ply.capture = some b) (config : j.config = none) (time : j.time = none)
    (captured : j.captured = some c) : Does (.plyJoinReceived h j) s (fun t => 0xFFFF ∈ t.ply.captured ∧
      t.rd F.TASK_RUN_run_state = c.runState.toNat ∧ t.hop.active = s.hop.active ∧
      t.image.forces = SMap.puts [] (c.forces.map (fun e => (e.1.toNat, e.2)))) := by
  refine plyJoinReceived_joins taken joins ?_
  have fourth : (s.greeted h j).rd F.PLY_JOIN_phase = 4 := State.greeted_phase.trans phase
  have named : (s.greeted h j).ply.capture = some b := boundary
  have hop : (s.greeted h j).hop = s.hop := rfl
  rw [State.identify_rests (by simp [fourth]), State.advanceJoin_captures fourth named config time captured]
  generalize s.greeted h j = g at hop
  obtain ⟨whole, run, forces⟩ := g.adoptCapture_shows c
  exact ⟨whole, run, congrArg HopperSt.active (Eq.trans ((g.adoptCapture_keeps c).parts .hop (by decide)) hop), forces⟩

end

/-! The obligation. -/

/-- Settles O36: each frame is sent or received by one short run, whose effect on the role, the registers and the join is
what the units' own lemmas tell. -/
theorem partnerToldAndJoined : Obligations.PartnerToldAndJoined := by
  unfold Obligations.PartnerToldAndJoined
  intro s h
  refine ⟨fun e active up found => State.digestCompute_sends active up found, State.healthSend_sends,
    fun item first count active up alone paid some => State.stateSend_sends active up alone paid some,
    fun item commit first words taken standby task fits clean => State.stateReceived_judges taken standby task fits clean,
    fun j taken => ⟨plyJoinReceived_greets taken, fun active joins => ⟨plyJoinReceived_handsOver taken active joins,
      plyJoinReceived_refuses taken active joins⟩, plyJoinReceived_identifies taken, ?_, ?_, ?_⟩⟩
  · exact fun d joins phase config time captured => plyJoinReceived_configures taken joins phase config time captured
  · exact fun d joins phase config time captured => plyJoinReceived_times taken joins phase config time captured
  · exact fun c b joins phase boundary config time captured => plyJoinReceived_captures taken joins phase boundary config time captured

end Sys2Proof.Machine
